-- ==== Sys2Proof/Word.lean ====
section
/-! DEFINITION. The word types and the sparse table, the shape of every sparse piece of state: a list of (key, value) pairs. -/

namespace Sys2Proof

/-- One byte. -/
abbrev Byte := BitVec 8

/-- One BAR0 register or HYL instruction word. -/
abbrev Word := BitVec 32

/-- A sparse table: pairs of a key and a value, keys strictly rising. -/
abbrev Sparse (α : Type) := List (Nat × α)

end Sys2Proof
end

