-- ==== Sys2Proof/Syntax.lean ====
section
/-! DEFINITION. The commands of the block: one constructor per row of spec/opcode_table.json, with the operands of the command (who
issues it, what it names, the bytes that arrive with it, and what is measured outside the block). -/

namespace Sys2Proof

/-- A host, 0 or 1 (02_floor_plan_and_numbering.md Table 2.2). -/
abbrev HostId := Fin 2

/-- A partition, 0 to 63. -/
abbrev PartId := Fin 64

/-- A port, P0 to P63. -/
abbrev PortId := Fin 64

/-- A cluster index k = 8y + x. -/
abbrev ClusterId := Fin 64

/-- A logical core ID: y in bits 11:9, x in bits 8:6, core in bits 5:0. -/
abbrev CoreId := Fin 4096

/-- The strap pins sampled at PWR_OK (17_bringup_reset_firmware.md R445). -/
structure Straps where
  host : BitVec 2 := 0
  time : BitVec 2 := 0
  link : Bool := false
  env : Bool := false
  coord : BitVec 16 := 0
  deriving DecidableEq, Repr

/-- The kinds of unit a fence or failure names, in the order of their codes 0 to 8 (18_errors_and_telemetry.md Table 18.2). -/
inductive UnitKind where
  | core | aes | kennel | drover | reduce | lane | channel | meshLink | hostTile
  deriving DecidableEq, Repr

/-- A unit: its kind, its cluster, tile or router, and its index there. -/
structure UnitId where
  kind : UnitKind
  place : Nat
  index : Nat
  deriving DecidableEq, Repr

/-- A unit that fails, and the queue pairs whose contexts in a failing Kennel sub-bank can no longer be read
(06_queue_pairs_and_delivery.md R150). -/
structure UnitFailing where
  unit : UnitId
  unreadable : List (BitVec 24) := []
  deriving DecidableEq, Repr

/-- A native port whose peer has been silent for 120 periods, and whether its receiver has kept codeword lock (03_link_ports.md R70). -/
structure Silence where
  port : PortId
  locked : Bool := true
  deriving DecidableEq, Repr

/-- The PTP messages the device timestamps or uses (01_fabric_time.md R13). -/
inductive PtpKind where
  | sync | followUp | delayReq | delayResp | pdelayReq | pdelayResp | pdelayRespFollowUp | announce
  deriving DecidableEq, Repr

/-- The data set by which an Announce message ranks its grandmaster, in the order of comparison of IEEE 1588-2019: priority1, clockClass,
clockAccuracy, offsetScaledLogVariance, priority2, identity, steps removed. -/
structure PtpRank where
  prio1 : BitVec 8 := 128
  cls : BitVec 8 := 248
  accuracy : BitVec 8 := 0xFE
  variance : BitVec 16 := 0
  prio2 : BitVec 8 := 128
  identity : BitVec 64 := 0
  steps : BitVec 16 := 0
  deriving DecidableEq, Repr

/-- A PTP message: its kind, sequence number and the timestamp it carries, in ns; the port identity of its sender, twoStepFlag, the
correction field in ns, and an Announce message's data set. -/
structure PtpMsg where
  kind : PtpKind
  seq : BitVec 16
  stamp : BitVec 64
  source : BitVec 80 := 0
  twoStep : Bool := false
  correction : Int := 0
  rank : PtpRank := {}
  deriving DecidableEq, Repr

/-- The ordered sets of ELP (03_link_ports.md Table 3.5), with their fields. Beacon times are in 1/256 ns. -/
inductive OrdSet where
  | align (period mask : Nat)
  | keepalive (endpoint transit : Bool) (ft : Nat)
  | fenced (transit : Bool) (reason : Nat)
  | laneReq (id mask reason effective : Nat)
  | laneAck (id mask effective : Nat)
  | laneNak (id cause : Nat)
  | laneDone (id mask : Nat)
  | beacon (source : Bool) (state interval t1 echo t2 hops : Nat)
  | pause (mask t4 t5 t6 : Nat)
  deriving DecidableEq, Repr

/-- An ELP container: its control byte and its 64-byte body (03_link_ports.md R62). -/
structure Container where
  ctrl : Byte
  body : List Byte
  deriving DecidableEq, Repr


/-- Bytes of host memory as a read returns them at this moment; `ep`: the completion carries the poisoned bit (08_host_interface R207). -/
structure SeenRead where
  host : HostId
  addr : Nat
  bytes : List Byte
  ep : Bool := false
  deriving DecidableEq, Repr

/-- What the reads of host memory of one command return. -/
abbrev Seen := List SeenRead

/-- Whose data a memory reports globally visible: a packet of a queue pair that carried VIS_REQ, named beside it by its PSN
(06_queue_pairs_and_delivery.md R162), or by a completed read-back a work entry of a queue, named by its position
(08_host_interface_and_work_queues.md R239). -/
inductive VisOwner where
  | pair (qpn : BitVec 24)
  | queue (n : BitVec 20)
  deriving DecidableEq, Repr

/-- What patrol scrub finds in a line: no error, an error confined to one device of the burst, or one that the outer code cannot correct
(14_memory_system.md R388, R391). -/
inductive ScrubFind where
  | clean
  | corrected (dev : Fin 10)
  | bad
  deriving DecidableEq, Repr

/-- What the start-up test finds (17_bringup_reset_firmware.md R451): the units that fail, in groups that fail in one core cycle, and the
SRAM blocks with a failing cell, by Tinker engine and block. -/
structure Tests where
  units : List (List UnitId) := []
  cells : List (Nat × Nat) := []
  deriving DecidableEq, Repr

/-- What training finds at a channel (14_memory_system.md R382, R383): no module, an unsupported one, or a module of 64 GB or 128 GB (`big`)
whose SPD allows a speed code 0 to 5, and whether the channel trains. -/
inductive Module where
  | absent
  | unsupported
  | dimm (big : Bool) (speed : Fin 6) (trains : Bool)
  deriving DecidableEq, Repr

/-- What step 4 of the power-on sequence finds (17_bringup_reset_firmware.md Table 17.2): failing lanes (link tile, physical lane), in groups
found in one core cycle; the module of each channel, C0 first; the channels whose training ends in one core cycle, in groups. -/
structure Training where
  lanes : List (List (Fin 4 × Fin 68)) := []
  modules : List Module := []
  order : List (List (Fin 16)) := []
  deriving DecidableEq, Repr

/-- The fuses as manufacture leaves them (15_security_and_cipher.md R399, R404, R407; 02_floor_plan_and_numbering.md R40): digests of the
firmware keys F0 to F3, the security version, digests of the authority keys A0 and A1, the identity seed, the disabled-unit fuse registers by offset. -/
structure Burned where
  fw : List (List Byte) := []
  version : BitVec 32 := 0
  auth : List (List Byte) := []
  seed : List Byte := []
  dum : List (Nat × BitVec 32) := []
  deriving DecidableEq, Repr

/-- A request of the board controller over MCTP (15_security_and_cipher.md R405, R414, R425; 17 Table 17.6): a report on a nonce and a partition,
the sticky record at an index, SEC_LC, SEC_ALARM_STS, a host port's pre-shared key, a warm reset with the result of the self-test that follows. -/
inductive Mctp where
  | attest (nonce : List Byte) (part : Option PartId)
  | sticky (index : Fin 256)
  | lifeCycle
  | alarms
  | psk (host : HostId)
  | reset (selftest : Bool)
  deriving DecidableEq, Repr

/-- An SPDM 1.2 request over DOE (15_security_and_cipher.md R425). `good`: the request's own checks (key, HMAC) hold. -/
inductive Spdm where
  | version | capabilities | algorithms
  | pskExchange (good : Bool)
  | pskFinish (good : Bool)
  | endSession
  | other
  deriving DecidableEq, Repr

/-- An IDE_KM message of the PCI Express specification (15_security_and_cipher.md R425), by selective stream. -/
inductive IdeKm where
  | query
  | keyProg (stream : Fin 4)
  | keySetGo (stream : Fin 4)
  | keySetStop (stream : Fin 4)
  deriving DecidableEq, Repr

/-- What a register write may bring about beyond its value: what the host's memory holds, the self-test of a warm reset, whether a partition's
grace time expires in the same cycle (09 R245), training and test outcomes of a boot. -/
structure WriteSide where
  seen : Seen := []
  ok : Bool := true
  expiry : Bool := false
  training : Training := {}
  tests : Tests := {}
  deriving DecidableEq, Repr

/-- The commands (spec/opcode_table.json). -/
inductive Instr where
  /-- REGISTER_WRITE (R9): A write to a BAR0 register with no row of its own sets its fields by access type, or is ignored and logged under the block's write rules. -/
  | registerWrite (host : HostId) (off : BitVec 24) (value : BitVec 64) (wide : Bool) (side : WriteSide)
  /-- RC_COUNTER_READ (R10): A read of an RC field returns its value and clears it without losing an event in the same cycle. -/
  | rcCounterRead (host : HostId) (off : BitVec 24) (wide : Bool)
  /-- BAR0_BAD_ACCESS (R7): A BAR0 access of wrong width or alignment is ignored or returns all ones, and a corrected event is logged. -/
  | bar0BadAccess (host : HostId) (write : Bool) (off : BitVec 24) (size : Nat)
  /-- TIME_CTL_WRITE (R15): A TIME_CTL write changes SRC, PTP_BC or DEMOTE_TC, or is refused whole with CTL_REJ when it would change SRC while a schedule is active or pending. -/
  | timeCtlWrite (host : HostId) (value : Word)
  /-- SET_ARM (R14): A write of TIME_CTL.SET_ARM latches TIME_SET as the armed value, or is refused with CTL_REJ. -/
  | setArm (host : HostId) (value : Word)
  /-- TIME_PORT_WRITE (R15): A TIME_PORT write changes the time port or is refused with CTL_REJ while a schedule is active or pending. -/
  | timePortWrite (host : HostId) (value : Word)
  /-- TIME_HOLD_LIMIT_WRITE (R25): A write of LIMIT_MS lowers the holdover limit at once, or raises it only with no schedule active or pending. -/
  | timeHoldLimitWrite (host : HostId) (value : Word)
  /-- TIME_NOW_READ (R19): A read of TIME_NOW_LO latches the full 72-bit FT for the following HI and FRAC reads. -/
  | timeNowRead (host : HostId) (wide : Bool)
  /-- TIME_SET_ASSIGN (R14): At the first core cycle after the next PPS edge the armed value is assigned to FT, STEPPED is set and SET_ARM clears. -/
  | timeSetAssign
  /-- SOURCE_LOST (R21): Loss of the time source is declared and the time unit moves from LOCKED to HOLDOVER or keeps its state. -/
  | sourceLost (heldMs : Nat)
  /-- SOURCE_VALID (R21): A valid source appears, stopping the holdover timer and slewing FT, or moving LOST to ACQUIRING. -/
  | sourceValid (offset : Int) (heldMs : Nat)
  /-- LOCK_ACHIEVED (R21): After 100 ms of phase error within ±0.4 ns the time unit becomes LOCKED, stepping FT from ACQUIRING. -/
  | lockAchieved (sourceTime : Nat)
  /-- SRC_STEP (R21): A LOCKED phase error outside ±100 ns for 1 ms moves the time unit to HOLDOVER and sets SRC_STEP. -/
  | srcStep
  /-- HOLDOVER_LIMIT_REACHED (R21): The holdover timer stands at or above TIME_HOLD_LIMIT with no valid source, arming entry to LOST at the next slot boundary. -/
  | holdoverLimitReached
  /-- TIME_LOST (R29): On the first slot boundary after the loss condition the device enters LOST, opens classes 0–3 gates, demotes them and suspends schedules. -/
  | timeLost
  /-- SLOT_BOUNDARY (R18): A new slot begins and every gate unit advances its merged list, with token buckets refilled. -/
  | slotBoundary
  /-- PTP_MESSAGE_RECEIVE (R13): A PTP event or announce message is received, timestamped at the PCS and used by the time unit. -/
  | ptpMessageReceive (port : PortId) (msg : PtpMsg) (arrival : BitVec 64)
  /-- BEACON_SEND (R68): A port with beacons enabled sends a BEACON ordered set at its interval. -/
  | beaconSend (port : PortId)
  /-- BEACON_RECEIVE (R68): A received BEACON updates the mean path delay and supplies FT to the time unit. -/
  | beaconReceive (port : PortId) (copies : List (List Byte)) (arrival : Nat)
  /-- BARRIER_ARRIVAL (R32): The coordinator receives a member's arrival message and, on the last arrival, sends the release slot or an untimed release. -/
  | barrierArrival (unit : Fin 16) (seq : Word) (rank : Fin 1024) (slot : BitVec 64) (state : Fin 5)
  /-- BARRIER_RELEASE_RECEIVE (R34): A member receives a release message and releases on receipt if it is late or untimed. -/
  | barrierReleaseReceive (unit : Fin 16) (seq : Word) (slot : Option (BitVec 64)) (failed : Bool)
  /-- BARRIER_RELEASE (R32): A member releases its barrier on the first core cycle of the release slot. -/
  | barrierRelease (unit : Fin 16)
  /-- UNIT_FAILURE (R40): A unit raises a fatal internal error confined to itself and is taken out of service. -/
  | unitFailure (failure : UnitFailing)
  /-- COMMIT (R46): A write of GLB_DUM_CTL.COMMIT commits the next map when no schedule is active or pending, or sets COMMIT_REJ. -/
  | commit (host : HostId)
  /-- LINK_CFG_WRITE (R52): A LINK_CFG write sets the port configuration or is refused whole with CFG_REJ under the mode and preemption rules. -/
  | linkCfgWrite (host : HostId) (port : PortId) (value : Word)
  /-- LINK_BUF_CLASS_WRITE (R84): A LINK_BUF_CLASS write sets MIN and MAX or is refused when the tile pool would be exceeded. -/
  | linkBufClassWrite (host : HostId) (port : PortId) (cls : Fin 4) (value : Word)
  /-- ETH_FRAME_RECEIVE (R56): An Ethernet frame is received, checked, classified, filtered and passed to the device, to routing or dropped. -/
  | ethFrameReceive (port : PortId) (sub : Fin 4) (bytes : List Byte) (early : Bool)
  /-- PFC_FRAME_RECEIVE (R57): A received PFC frame pauses classes 4–6 or is ignored and counted for other classes. -/
  | pfcFrameReceive (port : PortId) (sub : Fin 4) (enable : BitVec 8) (times : List (BitVec 16))
  /-- PAUSE_FRAME_RECEIVE (R58): A received IEEE 802.3x PAUSE stops classes 4–7 on a port with PAUSE_MODE 1. -/
  | pauseFrameReceive (port : PortId) (sub : Fin 4) (time : BitVec 16)
  /-- PFC_REFRESH (R57): The refresh interval expires while occupancy stays at or above XON and the pause is sent again. -/
  | pfcRefresh (port : PortId) (sub : Fin 4) (cls : Fin 8)
  /-- PAUSE_TIME_EXPIRY (R69): A received pause time runs out and the paused classes may start again. -/
  | pauseTimeExpiry (port : PortId) (sub : Fin 4) (cls : Fin 8)
  /-- PREEMPT_VERIFY (R59): The IEEE 802.3br verify exchange ends, setting PREEMPT_ACT or VERIFY_FAIL. -/
  | preemptVerify (port : PortId) (sub : Fin 4) (ok : Bool)
  /-- ELP_FRAME_RECEIVE (R65): An ELP frame assembled from data containers is checked and passed to routing or dropped. -/
  | elpFrameReceive (port : PortId) (containers : List Container) (early : Bool)
  /-- CODEWORD_UNCORRECTABLE (R63): An uncorrectable codeword discards its containers and drops every frame with a container in it. -/
  | codewordUncorrectable (port : PortId) (classes : BitVec 8)
  /-- ALIGN_SEND (R67): An ALIGN ordered set is sent every 256 periods. -/
  | alignSend (port : PortId)
  /-- ALIGN_RECEIVE (R67): A received ALIGN ordered set carries the period counter and active lane mask. -/
  | alignReceive (port : PortId) (copies : List (List Byte))
  /-- KEEPALIVE_SEND (R70): After 40 periods without data or ordered sets the transmitter sends KEEPALIVE. -/
  | keepaliveSend (port : PortId)
  /-- KEEPALIVE_RECEIVE (R73): A received KEEPALIVE makes the peer ALIVE, ending FENCED or LOST. -/
  | keepaliveReceive (port : PortId) (copies : List (List Byte))
  /-- FENCED_SEND (R72): During compute reset or a fatal error a native port sends FENCED every 40 periods. -/
  | fencedSend (port : PortId)
  /-- FENCED_RECEIVE (R73): A received FENCED set makes the peer FENCED and raises PEER_FENCED with its reason. -/
  | fencedReceive (port : PortId) (copies : List (List Byte))
  /-- PEER_LOST (R70): After 120 periods with no live period the peer is declared LOST and PEER_LOST is raised. -/
  | peerLost (silence : Silence)
  /-- PCS_LINK_DOWN (R71): An Ethernet PCS reports link down or remote fault and the peer is declared lost within 1 µs. -/
  | pcsLinkDown (port : PortId)
  /-- PCS_LINK_UP (R71): An Ethernet PCS reports link up without remote fault and the peer becomes ALIVE. -/
  | pcsLinkUp (port : PortId)
  /-- PAUSE_OS_RECEIVE (R69): A received PAUSE ordered set stops or resumes containers of the named classes. -/
  | pauseOsReceive (port : PortId) (copies : List (List Byte))
  /-- FARRIER_WINDOW (R74): A 1 s measurement window ends and a lane with 3 windows above the threshold is degraded and fenced. -/
  | farrierWindow (port : PortId) (lane : Fin 4) (serExp : Fin 256)
  /-- LANE_FAILURE (R74): A lane loses lock or has uncorrectable codewords for 2 periods and is declared failed and fenced. -/
  | laneFailure (port : PortId) (lane : Fin 4)
  /-- SPARE_ADAPTED (R76): A shadow spare finishes adapting and is swapped for the degraded lane at a codeword boundary. -/
  | spareAdapted (port : PortId) (lane : Fin 4)
  /-- SPARE_TRAINED (R77): A spare finishes training on a failed lane's contacts and a SPARE_RESTORE lane change is requested. -/
  | spareTrained (port : PortId) (lane : Fin 4)
  /-- LANE_REQ_RECEIVE (R80): A received LANE_REQ is answered with LANE_ACK or LANE_NAK, resolving any collision by priority. -/
  | laneReqReceive (port : PortId) (copies : List (List Byte))
  /-- LANE_ACK_RECEIVE (R80): A received LANE_ACK confirms the requested mask and effective period. -/
  | laneAckReceive (port : PortId) (copies : List (List Byte))
  /-- LANE_NAK_RECEIVE (R81): A received LANE_NAK refuses the requested mask with its cause. -/
  | laneNakReceive (port : PortId) (copies : List (List Byte))
  /-- LANE_REQ_TIMEOUT (R80): No LANE_ACK by period E−2 abandons the request and retries, or after 3 retries gives up or retrains. -/
  | laneReqTimeout (port : PortId)
  /-- LANE_MASK_SWITCH (R80): At period E both sides deal containers over the new lane mask. -/
  | laneMaskSwitch (port : PortId)
  /-- LANE_DONE_SEND (R80): After decoding one full period on every lane of the new mask a side sends LANE_DONE. -/
  | laneDoneSend (port : PortId)
  /-- LANE_DONE_RECEIVE (R497): Receiving the partner's LANE_DONE completes the lane change, setting LANE_EVT and raising LANE_CHANGED. -/
  | laneDoneReceive (port : PortId) (copies : List (List Byte))
  /-- FRAME_TRANSMIT_START (R123): A queued frame starts transmission when its class is open and it fits the open run. -/
  | frameTransmitStart (port : PortId) (sub : Fin 4) (cls : Fin 8)
  /-- FRAME_TRANSMIT_END (R107): A frame's last byte leaves a port, leaving the drain count and releasing buffer cells. -/
  | frameTransmitEnd (port : PortId) (sub : Fin 4) (cls : Fin 8)
  /-- MESH_SELF_WRITE (R90): A MESH_SELF write sets the device coordinates or is refused with CFG_REJ while a schedule is active or pending. -/
  | meshSelfWrite (host : HostId) (value : Word)
  /-- MESH_ARM (R109): A write of MESH_CTL.ARM arms the free table bank or sets WR_REJ. -/
  | meshArm (host : HostId) (value : Word)
  /-- MESH_DISARM (R109): A write of MESH_CTL.DISARM clears NEXT_ARMED unless a switching image is pending. -/
  | meshDisarm (host : HostId) (value : Word)
  /-- ROUTING_TABLE_WRITE (R110): A write to a routing-table bank entry is accepted only for a free bank or an idle active bank. -/
  | routingTableWrite (host : HostId) (off : Nat) (value : Word)
  /-- RETAINED_BANK_RELEASE (R108): The retained bank's drain count reaches 0 and the bank is released. -/
  | retainedBankRelease
  /-- DRAIN_LIMIT_EXPIRY (R108): The drain limit passes first, old-epoch frames are discarded and the retained bank is released. -/
  | drainLimitExpiry
  /-- FLOW_RETURN_PRIMARY (R113): A flow whose backup causes cleared and whose backup frames drained returns to its primary path at its cycle boundary. -/
  | flowReturnPrimary (flow : BitVec 24)
  /-- SUBMIT (R131): A write of SCHED_CTL.SUBMIT queues an image for checking or is ignored with SUBMIT_REJ. -/
  | submit (host : HostId) (part : PartId)
  /-- ADMISSION_VERDICT (R133): The checker finishes an image and writes RESULT, making it PENDING or refusing it. -/
  | admissionVerdict (seen : Seen)
  /-- CANCEL (R131): A write of SCHED_CTL.CANCEL discards a pending image and releases its holdings, or sets CANCEL_REJ. -/
  | cancel (host : HostId) (part : PartId)
  /-- SCHEDULE_TAKEOVER (R132): On the first core cycle of T the pending image replaces the active one, switching lists, map and tables. -/
  | scheduleTakeover
  /-- SAMPLE_RECORD (R143): Every SAMPLE slots a flow's depth, delay and drops are written to the partition's sample ring. -/
  | sampleRecord (flow : BitVec 24)
  /-- KENNEL_CREATE (R152): The CREATE command makes a queue pair in INIT from a context image. -/
  | kennelCreate (host : HostId) (qpn : BitVec 24) (seen : Seen)
  /-- KENNEL_MODIFY (R152): The MODIFY command moves a queue pair to the requested state and sets its fields. -/
  | kennelModify (host : HostId) (qpn : BitVec 24) (seen : Seen)
  /-- KENNEL_QUERY (R151): The QUERY command writes the current context to the command address. -/
  | kennelQuery (host : HostId) (qpn : BitVec 24) (seen : Seen)
  /-- KENNEL_DESTROY (R152): The DESTROY command removes a queue pair, or completes with PINNED or BAD_STATE. -/
  | kennelDestroy (host : HostId) (qpn : BitVec 24) (seen : Seen)
  /-- RETRIEVER_FETCH_DONE (R147): A spilled context arrives in its home bank, evicting another and letting waiting packets and entries proceed. -/
  | retrieverFetchDone (qpn : BitVec 24) (seen : Seen)
  /-- WORK_ENTRY_START (R224): A fetched work entry starts once every earlier entry of its queue has started and its conditions hold. -/
  | workEntryStart (queue : BitVec 20) (seen : Seen)
  /-- SEND_RECEIVE (R160): A SEND packet is classified by PSN and placed through a receive entry, or answered by NAK or RNR NAK. -/
  | sendReceive (seen : Seen)
  /-- WRITE_RECEIVE (R180): A WRITE packet is classified by PSN, checked against its window and placed, or NAKed. -/
  | writeReceive (seen : Seen)
  /-- READ_REQ_RECEIVE (R160): A READ_REQ is checked against its window and answered with READ responses. -/
  | readReqReceive (seen : Seen)
  /-- ATOMIC_RECEIVE (R164): A CMP_SWAP or FETCH_ADD is checked and executed indivisibly, or replayed from REPLAY, and answered with ATOMIC_ACK. -/
  | atomicReceive (seen : Seen)
  /-- READ_RESP_RECEIVE (R159): A READ response acknowledges its PSN and its data is placed into the local buffer. -/
  | readRespReceive (seen : Seen)
  /-- ATOMIC_ACK_RECEIVE (R159): An ATOMIC_ACK acknowledges its PSN and the original value is written locally. -/
  | atomicAckReceive (seen : Seen)
  /-- ACK_RECEIVE (R159): An ACK advances UNA_PSN, reloads retries, restarts or stops the timer and completes entries. -/
  | ackReceive (seen : Seen)
  /-- NAK_RECEIVE (R159): A NAK triggers retransmission on SEQUENCE or completes the entry with the mapped error status. -/
  | nakReceive (seen : Seen)
  /-- RNR_NAK_RECEIVE (R159): An RNR NAK starts the RNR wait or completes the entry with RETRY_EXHAUSTED. -/
  | rnrNakReceive (seen : Seen)
  /-- VIS_ACK_RECEIVE (R162): A VIS_ACK reports that a packet's data is globally visible at the peer. -/
  | visAckReceive (seen : Seen)
  /-- RESYNC_RECEIVE (R170): A RESYNC sets the responder's EPSN to its PSN and is acknowledged. -/
  | resyncReceive (seen : Seen)
  /-- RETRANSMIT_TIMEOUT (R159): The retransmission timer expires and the requester resends from UNA_PSN or fails with RETRY_EXHAUSTED. -/
  | retransmitTimeout (qpn : BitVec 24) (seen : Seen)
  /-- RNR_WAIT_EXPIRY (R159): The RNR wait ends and the requester resends from the NAKed PSN. -/
  | rnrWaitExpiry (qpn : BitVec 24) (seen : Seen)
  /-- ACK_DELAY_EXPIRY (R161): ACK_DELAY passes after ACK_T0 and the responder sends an ACK. -/
  | ackDelayExpiry (qpn : BitVec 24)
  /-- VISIBILITY_REACHED (R162): The owning memory reports data globally visible and the responder sends VIS_ACK. -/
  | visibilityReached (owner : VisOwner) (place : Nat)
  /-- PATH_HOLD_EXPIRY (R167): The path-hold timer expires with no usable route and started entries complete with PATH_LOST or PEER_FENCED. -/
  | pathHoldExpiry (qpn : BitVec 24)
  /-- NOP (R228): A NOP work entry does nothing and completes. -/
  | nopEntry (queue : BitVec 20)
  /-- SEND (R228): A SEND work entry sends a message on its queue pair. -/
  | send (queue : BitVec 20) (seen : Seen)
  /-- SEND_IMM (R228): A SEND_IMM work entry sends a message with immediate data. -/
  | sendImm (queue : BitVec 20) (seen : Seen)
  /-- WRITE (R228): A WRITE work entry writes remote memory through a window key. -/
  | write (queue : BitVec 20) (seen : Seen)
  /-- WRITE_IMM (R228): A WRITE_IMM work entry writes remote memory with immediate data. -/
  | writeImm (queue : BitVec 20) (seen : Seen)
  /-- READ (R228): A READ work entry reads remote memory into a local buffer. -/
  | read (queue : BitVec 20) (seen : Seen)
  /-- CMP_SWAP (R164): A CMP_SWAP work entry issues a remote compare-and-swap. -/
  | cmpSwap (queue : BitVec 20) (seen : Seen)
  /-- FETCH_ADD (R164): A FETCH_ADD work entry issues a remote fetch-and-add. -/
  | fetchAdd (queue : BitVec 20) (seen : Seen)
  /-- COPY (R229): A COPY work entry moves data between local spaces. -/
  | copy (queue : BitVec 20) (seen : Seen)
  /-- INVOKE (R297): An INVOKE work entry is dispatched to its handle's dispatch core or completes with an error. -/
  | invoke (queue : BitVec 20)
  /-- OPEN_WINDOW (R179): An OPEN_WINDOW entry writes an OPEN descriptor and completes with the new key, or with MALFORMED_ENTRY. -/
  | openWindow (queue : BitVec 20)
  /-- REVOKE_WINDOW (R185): A REVOKE_WINDOW entry starts revocation of a window key. -/
  | revokeWindow (queue : BitVec 20)
  /-- TRIG_RESET (R200): A TRIG_RESET entry sets a trigger slot's COUNT to 0 and increments its GEN. -/
  | trigReset (queue : BitVec 20)
  /-- ABORT (R170): An ABORT entry is applied at the target's context and decides the outcome of Table 6.9. -/
  | abort (queue : BitVec 20)
  /-- RECV (R228): A RECV entry posts a receive buffer for its queue pair. -/
  | recvEntry (queue : BitVec 20)
  /-- WIN_REVOKE (R185): A write of a key to WIN_REVOKE starts revocation of that window, or is ignored with REJ. -/
  | winRevoke (host : HostId) (part : PartId) (key : Word)
  /-- REVOCATION_FENCE (R185): The home window unit moves the descriptor to REVOKING and increments GEN. -/
  | revocationFence (index : BitVec 20)
  /-- ACCESS_COMMITTED (R181): A checked access commits at its memory and the window's INFLIGHT falls by 1. -/
  | accessCommitted (index : BitVec 20)
  /-- REVOCATION_COMPLETE (R186): With INFLIGHT at 0 the descriptor becomes FREE, its index returns to the free list and the revocation completes. -/
  | revocationComplete (index : BitVec 20)
  /-- SHEEP_BATCH_TIMEOUT (R194): A batch closes 20 µs after it opened. -/
  | sheepBatchTimeout (host : HostId)
  /-- SHEEP_BATCH_WRITE (R194): A closed batch is written to the fault ring when room exists, SHEEP_PROD advances and the Sheepdog vector is raised. -/
  | sheepBatchWrite (host : HostId)
  /-- SHEEP_RESOLVE (R197): A SHEEP_RESOLVE write with FAIL 0 re-reads the fragment and releases the waiters or reopens the entry. -/
  | sheepResolve (host : HostId) (id : BitVec 12) (seen : Seen)
  /-- SHEEP_FAIL (R198): A SHEEP_RESOLVE write with FAIL 1 fails the entry, completing waiters with FAULT_UNRESOLVED. -/
  | sheepFail (host : HostId) (id : BitVec 12)
  /-- SHEEP_TIMEOUT (R198): A fault entry outstanding for SHEEP_TIMEOUT.MS fails as if FAIL were written. -/
  | sheepTimeout (host : HostId) (id : BitVec 12)
  /-- SHEEP_PARK_WRITE (R193): A write to the park region registers is accepted only while no tile is parked or held. -/
  | sheepParkWrite (host : HostId) (reg : Fin 3) (value : Word)
  /-- TRIG_INCREMENT (R202): A tagged message's data commits and its trigger slot's COUNT increments, or the increment is discarded as stale. -/
  | trigIncrement
  /-- TRIGGERED_START (R203): A waiting TRIG_WAIT entry starts once its slot's COUNT reaches THRESHOLD. -/
  | triggeredStart (queue : BitVec 20) (seen : Seen)
  /-- TRIG_RANGE_WRITE (R200): A TRIG_BASE or TRIG_NUM write sets a partition's trigger range or is refused on overlap. -/
  | trigRangeWrite (host : HostId) (part : PartId) (num : Bool) (value : Word)
  /-- WIN_SHARE_WRITE (R205): A WIN_SHARE write sets a partition's window share or is refused when the sum would exceed the store. -/
  | winShareWrite (host : HostId) (part : PartId) (value : Word)
  /-- FLR (R208): A function-level reset on a host port resets every partition of that host and its frames. -/
  | flr (host : HostId)
  /-- D3HOT_ENTRY (R208): A host function entering D3hot makes the device treat that host as lost. -/
  | d3hotEntry (host : HostId)
  /-- HOST_PORT_DOWN (R209): A host port's link goes down, DOWN is set and no further request is issued on it. -/
  | hostPortDown (host : HostId)
  /-- DOORBELL_WQ (R222): A work-queue doorbell is checked and may move the posted limit P, starting fetches. -/
  | doorbellWq (host : HostId) (page : BitVec 10) (slot : Fin 512) (value : BitVec 64)
  /-- DOORBELL_CQ (R223): A completion-queue doorbell moves the read position C and may arm the queue. -/
  | doorbellCq (host : HostId) (page : BitVec 10) (slot : Fin 512) (value : BitVec 64)
  /-- BAR2_BAD_ACCESS (R212): A BAR2 access that is not an aligned 8-byte write to an owned instance page is ignored and counted. -/
  | bar2BadAccess (host : HostId) (write : Bool) (off : BitVec 22) (size : Nat)
  /-- BAR4_READ (R214): A BAR4 read returns device memory of the window's partition, or all ones for holes and failed checks. -/
  | bar4Read (host : HostId) (off : BitVec 28) (size : Nat)
  /-- BAR4_WRITE (R214): A BAR4 write stores into device memory of the window's partition, discarding holes and failed units. -/
  | bar4Write (host : HostId) (off : BitVec 28) (bytes : List Byte)
  /-- B4_CTL_COMMIT (R215): A write of HOSTIF_B4_CTL_LO commits the new BAR4 mapping or is refused with CFG_REJ. -/
  | b4CtlCommit (host : HostId) (value : Word)
  /-- QUEUE_CREATE (R218): The queue CREATE command makes a queue from a descriptor image. -/
  | queueCreate (host : HostId) (queue : BitVec 20) (seen : Seen)
  /-- QUEUE_MODIFY (R218): The queue MODIFY command changes MOD_COUNT, MOD_TIME and VECTOR. -/
  | queueModify (host : HostId) (queue : BitVec 20) (seen : Seen)
  /-- QUEUE_QUERY (R218): The queue QUERY command writes the descriptor to the image address. -/
  | queueQuery (host : HostId) (queue : BitVec 20) (seen : Seen)
  /-- QUEUE_DESTROY (R218): The queue DESTROY command removes a queue or completes with IN_USE. -/
  | queueDestroy (host : HostId) (queue : BitVec 20) (seen : Seen)
  /-- DCINV (R225): A write of HOSTIF_DCINV discards a queue's unstarted cached entries and fetches them again. -/
  | dcinv (host : HostId) (queue : BitVec 20)
  /-- ENTRY_FETCH_RETURN (R226): Fetched entries arrive in the descriptor cache and stale copies are scheduled for re-fetch. -/
  | entryFetchReturn (queue : BitVec 20) (count : Fin 17) (seen : Seen)
  /-- REFETCH_TIMER (R226): 500 ns after a stale copy the slot is re-fetched, or after 4 stale re-fetches completes with DOORBELL_AHEAD. -/
  | refetchTimer (queue : BitVec 20) (pos : Nat) (seen : Seen)
  /-- CQ_MODERATION_EXPIRY (R237): MOD_TIME passes after the first completion since the arm and the queue's vector is raised. -/
  | cqModerationExpiry (queue : BitVec 20)
  /-- CLAIM (R242): A write of PART_ALLOC.CLAIM moves a FREE partition to CONFIG with the written owner and rights. -/
  | claim (host : HostId) (part : PartId) (owner : HostId) (rights : BitVec 3)
  /-- PART_ALLOC_WRITE (R250): A PART_ALLOC write without CLAIM sets owner or rights according to the partition's state. -/
  | partAllocWrite (host : HostId) (part : PartId) (owner : HostId) (rights : BitVec 3)
  /-- SEAL (R242): A write of PART_CTL.SEAL moves a CONFIG partition to SEALED and locks its RWL fields. -/
  | seal (host : HostId) (part : PartId)
  /-- RESUME (R243): A write of PART_CTL.RESUME clears a partition's ORPHAN. -/
  | resume (host : HostId) (part : PartId) (expiring : Bool)
  /-- PART_RESET (R244): A write of PART_CTL.RESET starts a partition reset. -/
  | partReset (host : HostId) (part : PartId)
  /-- RELEASE (R243): A write of PART_CTL.RELEASE frees a CONFIG partition, or a QUIESCED orphan after a reset. -/
  | release (host : HostId) (part : PartId)
  /-- PARTITION_RESET_DONE (R244): A partition reset finishes, BUSY clears and the partition becomes CONFIG or FREE. -/
  | partitionResetDone (part : PartId)
  /-- HOLDING_WRITE (R247): A write to a holding register is accepted or refused with CFG_REJ under the exclusivity checks. -/
  | holdingWrite (host : HostId) (offset : BitVec 24) (value : Word)
  /-- INST_CREATE (R252): The INST_CREATE command makes a FREE instance ACTIVE in a SEALED partition. -/
  | instCreate (host : HostId) (part : PartId) (inst : BitVec 10)
  /-- INST_RESET (R252): The INST_RESET command performs an instance reset and keeps the instance ACTIVE. -/
  | instReset (host : HostId) (part : PartId) (inst : BitVec 10)
  /-- INST_DESTROY (R252): The INST_DESTROY command performs an instance reset and frees the instance. -/
  | instDestroy (host : HostId) (part : PartId) (inst : BitVec 10)
  /-- FREEZE (R260): The FREEZE command stops a scope's queues and moves its queue pairs to FROZEN. -/
  | freeze (host : HostId) (scope : Bool) (part : PartId) (inst : BitVec 10)
  /-- FREEZE_COMPLETE (R260): Once invokes, window drains, faults and completions have settled the freeze completes and cores halt. -/
  | freezeComplete (host : HostId)
  /-- THAW (R261): The THAW command returns FROZEN queue pairs to their prior states and resumes cores. -/
  | thaw (host : HostId) (scope : Bool) (part : PartId) (inst : BitVec 10) (seen : Seen)
  /-- SAVE (R262): The SAVE command writes an encrypted save image of a frozen scope. -/
  | save (host : HostId) (scope : Bool) (part : PartId) (inst : BitVec 10)
  /-- RESTORE (R263): The RESTORE command checks and writes a save image into a target partition, leaving the scope FROZEN. -/
  | restore (host : HostId) (scope : Bool) (part : PartId) (inst : BitVec 10) (seen : Seen)
  /-- PART_HOST_CTL_WRITE (R255): A PART_HOST_CTL write sets the grace time and starts, restarts or stops the watchdog. -/
  | partHostCtlWrite (host : HostId) (frame : HostId) (value : Word)
  /-- HOST_KICK (R255): A write of PART_HOST_KICK restarts the watchdog and may clear LOST. -/
  | hostKick (host : HostId) (frame : HostId) (value : Word)
  /-- HOST_WATCHDOG_EXPIRY (R256): The host watchdog expires and the host is declared lost. -/
  | hostWatchdogExpiry (host : HostId)
  /-- ORPHAN_GRACE_EXPIRY (R258): The orphan grace time expires and the partition becomes QUIESCED. -/
  | orphanGraceExpiry (part : PartId)
  /-- ADD_SUB_AND_OR_XOR (R287): The register arithmetic and logic instructions write gd. -/
  | addSubAndOrXor (core : CoreId)
  /-- SLL_SRL_SRA (R287): The register shift instructions write gd. -/
  | sllSrlSra (core : CoreId)
  /-- SLT_SLTU (R287): The set-less-than instructions write gd. -/
  | sltSltu (core : CoreId)
  /-- MIN_MAX_MINU_MAXU (R287): The minimum and maximum instructions write gd. -/
  | minMaxMinuMaxu (core : CoreId)
  /-- CLZ_POPC (R287): The bit-count instructions write gd. -/
  | clzPopc (core : CoreId)
  /-- MUL_MULH_MULHU (R287): The multiply instructions write gd. -/
  | mulMulhMulhu (core : CoreId)
  /-- CLMUL_CLMULH (R287): The carry-less multiply instructions write gd. -/
  | clmulClmulh (core : CoreId)
  /-- ADDI_ANDI_ORI_XORI (R287): The immediate arithmetic and logic instructions write gd. -/
  | addiAndiOriXori (core : CoreId)
  /-- SHI (R287): The immediate shift instruction writes gd. -/
  | shi (core : CoreId)
  /-- SLTI (R287): The immediate set-less-than instruction writes gd. -/
  | slti (core : CoreId)
  /-- LUI (R287): LUI writes a sign-extended upper immediate to gd. -/
  | lui (core : CoreId)
  /-- LUIH (R287): LUIH writes bits [51:32] of gd. -/
  | luih (core : CoreId)
  /-- LB_LH_LW_LD (R277): A scalar load reads S bytes from the scratchpad into gd, or raises an exception. -/
  | lbLhLwLd (core : CoreId) (ecc : Bool)
  /-- SB_SH_SW_SD (R277): A scalar store writes S bytes to the scratchpad, or raises an exception. -/
  | sbShSwSd (core : CoreId) (ecc : Bool)
  /-- BEQ_BNE_BLT_BGE (R287): A conditional branch compares ga and gb and may jump. -/
  | beqBneBltBge (core : CoreId)
  /-- JAL (R287): JAL writes the link and jumps. -/
  | jal (core : CoreId)
  /-- JALR (R287): JALR writes the link and jumps to a register target. -/
  | jalr (core : CoreId)
  /-- LOOPI (R287): LOOPI starts a hardware loop with an immediate count. -/
  | loopi (core : CoreId)
  /-- LOOPR (R287): LOOPR starts a hardware loop with a register count. -/
  | loopr (core : CoreId)
  /-- CSRR (R270): CSRR reads a control and status register into gd. -/
  | csrr (core : CoreId)
  /-- CSRW (R270): CSRW writes a control and status register. -/
  | csrw (core : CoreId)
  /-- FENCE (R287): FENCE orders earlier stores before later Drover, AES, mesh and signal reads. -/
  | fence (core : CoreId)
  /-- END (R296): END ends the current event. -/
  | endEvent (core : CoreId)
  /-- CMPL (R297): CMPL completes the INVOKE with a status once its Drover transfers have left OUTSTANDING. -/
  | cmpl (core : CoreId)
  /-- BRK (R301): BRK raises BREAK, or halts the core under DBG_INVASIVE. -/
  | brk (core : CoreId)
  /-- SLOTW (R287): SLOTW waits until the current slot reaches ga. -/
  | slotw (core : CoreId)
  /-- SLOTW_RELEASE (R287): The awaited slot is reached and a waiting SLOTW returns. -/
  | slotwRelease (core : CoreId)
  /-- BAR (R287): BAR arrives at a time-unit barrier and waits for release. -/
  | bar (core : CoreId)
  /-- MSG (R294): MSG places a 64-byte vector on the mesh toward a logical core and writes a status. -/
  | msg (core : CoreId)
  /-- MESSAGE_DELIVERY (R294): A message arrives at its target core and is queued as a MESSAGE event or discarded. -/
  | messageDelivery (cluster : ClusterId)
  /-- SIGA (R293): SIGA adds indivisibly to a 64-bit signal word and returns its old value. -/
  | siga (core : CoreId)
  /-- SWAIT (R287): SWAIT waits until a local signal word reaches a value. -/
  | swait (core : CoreId)
  /-- SWAIT_RELEASE (R287): The awaited signal word value is reached and a waiting SWAIT returns. -/
  | swaitRelease (core : CoreId)
  /-- VLD (R277): VLD loads 64 bytes into a vector register. -/
  | vld (core : CoreId) (ecc : Bool)
  /-- VLDR (R278): VLDR loads one line rotated by the lane offset. -/
  | vldr (core : CoreId) (ecc : Bool)
  /-- VST (R277): VST stores a vector register to the scratchpad. -/
  | vst (core : CoreId) (ecc : Bool)
  /-- VEXT (R287): VEXT extracts bytes of a vector into gd. -/
  | vext (core : CoreId)
  /-- VINS (R287): VINS inserts bytes of ga into a vector. -/
  | vins (core : CoreId)
  /-- VBCAST (R287): VBCAST broadcasts a scalar into every element of a vector. -/
  | vbcast (core : CoreId)
  /-- VADD_VSUB_VMUL_VMAX_VMIN (R287): The element-wise vector arithmetic instructions write vd. -/
  | vaddVsubVmulVmaxVmin (core : CoreId)
  /-- VABS_VNEG (R287): VABS and VNEG write the absolute value or negation of va. -/
  | vabsVneg (core : CoreId)
  /-- VAND_VOR_VXOR (R287): The bitwise vector instructions write vd. -/
  | vandVorVxor (core : CoreId)
  /-- VFMA (R282): VFMA computes a fused multiply-add with one rounding. -/
  | vfma (core : CoreId)
  /-- VCVT (R283): VCVT converts vector elements between formats. -/
  | vcvt (core : CoreId)
  /-- VQMX (R285): VQMX quantizes 32 inputs into one MX block with a selected scale. -/
  | vqmx (core : CoreId)
  /-- VDQMX (R287): VDQMX dequantizes one MX block. -/
  | vdqmx (core : CoreId)
  /-- VPERM (R287): VPERM permutes bytes of va by the indices in vb. -/
  | vperm (core : CoreId)
  /-- VHRED (R288): VHRED reduces a vector by a pairwise tree into element 0. -/
  | vhred (core : CoreId)
  /-- TZERO (R287): TZERO clears an accumulator. -/
  | tzero (core : CoreId)
  /-- TLD (R287): TLD loads 1 KiB into an accumulator. -/
  | tld (core : CoreId) (ecc : Bool)
  /-- TST (R283): TST stores an accumulator converted to a format, optionally transposed. -/
  | tst (core : CoreId) (ecc : Bool)
  /-- TMMA (R288): TMMA multiplies two tiles and accumulates into an accumulator. -/
  | tmma (core : CoreId) (ecc : Bool)
  /-- TSTREAM (R290): TSTREAM sends a converted accumulator tile to a Drover channel's stream buffer. -/
  | tstream (core : CoreId)
  /-- DMOV (R291): DMOV queues a Drover descriptor on a channel, stalling when the channel is full. -/
  | dmov (core : CoreId)
  /-- DWAIT (R287): DWAIT waits until a channel has at most a given number of outstanding transfers. -/
  | dwait (core : CoreId)
  /-- DWAIT_RELEASE (R287): A channel's outstanding count falls to the awaited value and a waiting DWAIT returns. -/
  | dwaitRelease (core : CoreId)
  /-- AESE_AESD (R292): AESE or AESD issues four block requests to the cluster's AES queue under a key slot. -/
  | aeseAesd (core : CoreId)
  /-- AES_BLOCKS_RETURN (R292): The four AES blocks of one instruction return and vd is written. -/
  | aesBlocksReturn (core : CoreId)
  /-- REDP (R320): REDP posts a reduction descriptor to the cluster's reduction unit or returns 1 when the core's queue is full. -/
  | redp (core : CoreId)
  /-- WCHK (R295): WCHK performs a window check at the key's home unit and returns the result. -/
  | wchk (core : CoreId)
  /-- KLD_KST (R287): KLD or KST loads or stores a quarter of a queue-pair context on a service core. -/
  | kldKst (core : CoreId)
  /-- WATCHDOG (R301): An event's CYCLE reaching LIMIT_CYCLES raises WATCHDOG. -/
  | watchdog (core : CoreId)
  /-- EVENT_START (R296): A queued event starts on a core, writing g1, v31 and g2 and running its entry. -/
  | eventStart (core : CoreId)
  /-- DROVER_DESCRIPTOR_TAKE (R291): The Drover takes a queued descriptor, checks it and copies its conversion profile. -/
  | droverDescriptorTake (core : CoreId) (chan : Fin 4)
  /-- DROVER_TRANSFER_DONE (R291): A Drover transfer commits at its destination, leaves OUTSTANDING and signals. -/
  | droverTransferDone (core : CoreId) (chan : Fin 4) (seen : Seen)
  /-- PROGRAM_LOAD (R304): The LOAD command checks a program image and places it on the masked cores. -/
  | programLoad (host : HostId) (cluster : ClusterId) (part : PartId) (dispatch : Bool) (seen : Seen)
  /-- PROGRAM_UNLOAD (R304): The UNLOAD command returns the masked cores to EMPTY, wiped. -/
  | programUnload (host : HostId) (cluster : ClusterId) (part : PartId)
  /-- CONV_PROFILE_WRITE (R337): A write to a conversion profile register is accepted only under the ownership and VALID rules. -/
  | convProfileWrite (host : HostId) (cluster : ClusterId) (profile : Fin 256) (word : Fin 4) (value : Word)
  /-- REDUCTION_READ (R320): The reduction unit reads a ready contribution and combines it into its segment, or refuses or fails it. -/
  | reductionRead (cluster : ClusterId) (seen : Seen)
  /-- SEGMENT_COMPLETE (R325): A segment with all ranks combined writes its result to each destination and signals. -/
  | segmentComplete (cluster : ClusterId)
  /-- STAGE_FRAME_DELIVERY (R332): A frame for a stage core is placed in its frame ring and a FRAME event is queued, or dropped. -/
  | stageFrameDelivery (core : CoreId) (known : Bool)
  /-- FRAME_VERDICT (R333): The verdict word of a delivered frame is written good or bad, cancelling the event's port transmits on bad. -/
  | frameVerdict (core : CoreId)
  /-- SHIFT (R345): A collective SHIFT delivers to each rank the source of rank d − k. -/
  | shift (queue : BitVec 20) (seen : Seen)
  /-- PERMUTE (R345): A collective PERMUTE delivers sources to destinations by a rank table. -/
  | permute (queue : BitVec 20) (seen : Seen)
  /-- REDUCE (R345): A collective REDUCE delivers the reduction of all sources to the root. -/
  | reduce (queue : BitVec 20) (order : List Nat) (seen : Seen)
  /-- REDUCE_SCATTER (R345): A collective REDUCE_SCATTER delivers part d of the reduction to rank d. -/
  | reduceScatter (queue : BitVec 20) (order : List Nat) (seen : Seen)
  /-- ALL_REDUCE (R345): A collective ALL_REDUCE delivers the reduction of all sources to every rank. -/
  | allReduce (queue : BitVec 20) (order : List Nat) (seen : Seen)
  /-- BARRIER (R358): A collective BARRIER arrives at a time-unit barrier for the device and completes on release. -/
  | barrier (queue : BitVec 20) (seen : Seen)
  /-- BARRIER_SETUP (R360): A BARRIER with SETUP 1 records group membership on a barrier unit for the partition. -/
  | barrierSetup (queue : BitVec 20) (seen : Seen)
  /-- CHUNK_SIGNAL (R350): Once a chunk's data is visible the destination's signal word is incremented. -/
  | chunkSignal (coll : Nat) (rank : Fin 1024) (order : List Nat) (seen : Seen)
  /-- COLLECTIVE_COMPLETE (R354): After the last increment the status record is written and the INVOKE completes OK. -/
  | collectiveComplete (coll : Nat)
  /-- COLLECTIVE_FAIL (R356): A failed transfer or segment fails the call, closes segments, signals failure and completes the INVOKE. -/
  | collectiveFail (coll : Nat)
  /-- BARRIER_TIMEOUT (R359): No release within the timeout sends a withdrawal and completes with PATH_LOST. -/
  | barrierTimeout (unit : Fin 16)
  /-- BARRIER_WITHDRAWAL (R359): The coordinator receiving a withdrawal sends every member a failed release. -/
  | barrierWithdrawal (unit : Fin 16) (seq : Word)
  /-- EXACT_WRITE (R363): A write of GLB_CTL.EXACT changes exact mode only with no image checking, pending or active. -/
  | exactWrite (host : HostId) (value : Word)
  /-- DET_DIGEST_DONE (R368): The recomputation of GLB_DET_DIGEST finishes and DIGEST_VALID is set. -/
  | detDigestDone
  /-- TINKER_BLOCK_TEST (R379): A Tinker engine saves, tests and restores one SRAM block in idle port cycles. -/
  | tinkerBlockTest (engine : Fin 68) (block : Fin 12288) (corrected uncorrectable : Fin 513) (failing : Bool)
  /-- DDR_ALERT (R384): A module signals an error on ALERT_n and the controller replays, fencing the channel after the fourth failure. -/
  | ddrAlert (channel : Fin 16) (replays : Fin 4) (failed : Bool)
  /-- SCRUB_LINE (R391): The patrol scrubber reads the next line, writes back corrections and reports uncorrectable lines. -/
  | scrubLine (channel : Fin 16) (found : ScrubFind) (ecs : Word)
  /-- DDR_REFRESH (R392): A DDR5 refresh is granted in a free slot or idle cycle. -/
  | ddrRefresh (channel : Fin 16)
  /-- REGION_WRITE (R396): A write to a region entry is accepted or refused under the ownership, state and overlap checks. -/
  | regionWrite (host : HostId) (entry : Fin 512) (word : Fin 4) (value : Word)
  /-- ZERO_FILL_DONE (R397): A region's zero fill ends, FILL clears and waiting tenant requests proceed. -/
  | zeroFillDone (entry : Fin 512)
  /-- MEM_RSPILL_WRITE (R394): A write to the reduction spill registers is accepted only while no segment is spilled. -/
  | memRspillWrite (host : HostId) (reg : Fin 3) (value : Word)
  /-- MEM_IMG_WRITE (R394): A write to the image store registers is accepted only in WAIT_MANIFEST. -/
  | memImgWrite (host : HostId) (reg : Fin 3) (value : Word)
  /-- NONCE (R411): The NONCE command draws and writes a new 32-byte nonce. -/
  | nonce (host : HostId)
  /-- NONCE_EXPIRY (R411): A nonce expires 60 s after it was drawn. -/
  | nonceExpiry
  /-- DBG_UNLOCK (R410): The DBG_UNLOCK command checks a token and raises the debug level, evicting partitions where required. -/
  | dbgUnlock (host : HostId) (level : BitVec 8) (seen : Seen)
  /-- EVICTION_DONE (R413): Partition resets, zero fills and releases end and the raised debug level takes effect. -/
  | evictionDone
  /-- DBG_LOWER (R410): A write of SEC_DBG.LOWER lowers the debug level, cancelling any raise in progress. -/
  | dbgLower (host : HostId) (level : BitVec 2)
  /-- LC_ADVANCE (R408): The LC_ADVANCE command wipes, writes the new life-cycle fuses and performs a warm reset. -/
  | lcAdvance (host : HostId) (target : BitVec 8) (seen : Seen) (selftest : Bool)
  /-- ATTEST (R405): The ATTEST command writes a signed attestation report for a nonce. -/
  | attest (host : HostId) (arg : BitVec 8) (seen : Seen)
  /-- IDENTITY (R404): The IDENTITY command writes the device identity public key. -/
  | identity (host : HostId)
  /-- EXTEND (R403): The EXTEND command extends one of DMR8–DMR15 with a supplied digest. -/
  | extend (host : HostId) (dmr : BitVec 8) (seen : Seen)
  /-- FUSE_KEY (R407): The FUSE_KEY command writes authority fuse A2 or A3 in PROVISIONED. -/
  | fuseKey (host : HostId) (fuse : BitVec 8) (seen : Seen)
  /-- MCTP_REQUEST (R405): The board controller's MCTP request is served: attestation, sticky read or reset request. -/
  | mctpRequest (request : Mctp)
  /-- ALARM (R418): A sensor raises an alarm: keys erased, secure regions wiped, FAULT_N driven and a compute reset entered. -/
  | alarm (sensors : BitVec 5)
  /-- KEY_LOAD (R421): The LOAD key command reads a key record into a key slot. -/
  | keyLoad (host : HostId) (slot : BitVec 12) (seen : Seen)
  /-- KEY_ERASE (R421): The ERASE key command empties a key slot. -/
  | keyErase (host : HostId) (slot : BitVec 12)
  /-- IDE_KM_MESSAGE (R425): An IDE_KM message over DOE in the SPDM session programs IDE stream keys. -/
  | ideKmMessage (host : HostId) (message : IdeKm)
  /-- TALLY_WINDOW_END (R432): At each 1 ms window end Tally records energy and plans lowering, gating and throttling. -/
  | tallyWindowEnd (energy : List Nat)
  /-- TALLY_BUDGET_WRITE (R431): A TALLY_BUDGET write sets the budget or is refused with BUDGET_REJ. -/
  | tallyBudgetWrite (host : HostId) (value : Word)
  /-- CLUSTER_UNGATED (R434): A gated cluster finishes ungating and the waiting request proceeds. -/
  | clusterUngated (cluster : ClusterId)
  /-- POWER_CAP (R437): PWR_CAP_N held low for 1 µs stops unscheduled service and fetching. -/
  | powerCap
  /-- CAP_GRACE_EXPIRY (R438): The cap grace time expires with the pin low and active schedules are suspended. -/
  | capGraceExpiry
  /-- POWER_CAP_RELEASE (R439): PWR_CAP_N rises and unscheduled service and fetching resume. -/
  | powerCapRelease
  /-- STANDBY (R441): A write of TALLY_PS_CTL.STANDBY enters P3 or completes with BAD_STATE. -/
  | standby (host : HostId)
  /-- WAKE (R441): A write of TALLY_PS_CTL.WAKE runs the power-on sequence from link training onward. -/
  | wake (host : HostId) (seen : Seen) (training : Training) (tests : Tests)
  /-- POWER_ON (R447): PWR_OK rising samples the straps and runs the power-on sequence up to WAIT_MANIFEST. -/
  | powerOn (straps : Straps) (burned : Option Burned) (selftest mainPg : Bool)
  /-- POWER_LOSS (R485): PWR_OK falls and the device enters OFF. -/
  | powerLoss
  /-- MAIN_PG_TIMEOUT (R484): MAIN_PG still low 100 ms after PWR_OK fails step 2 with BOOT_ERR TEST. -/
  | mainPgTimeout
  /-- MAIN_PG_FALL (R485): MAIN_PG falling while MAIN_EN is high raises the voltage alarm. -/
  | mainPgFall
  /-- GO (R449): A write of GLB_FW_CMD.GO in WAIT_MANIFEST starts firmware verification and the remaining boot steps. -/
  | go (host : HostId) (seen : Seen) (training : Training) (tests : Tests)
  /-- CRIER_SEGMENT_RECEIVE (R454): A target receives a multicast segment and places it if its CRC is good. -/
  | crierSegmentReceive (cluster : ClusterId) (pcore : Fin 68) (segment : Fin 4096) (good : Bool)
  /-- CRIER_GAP_REPORT (R454): The Crier receives a target's gap or completion report. -/
  | crierGapReport (cluster : ClusterId) (pcore : Fin 68)
  /-- CRIER_REPORT_WINDOW (R455): A pass's report window closes and the next pass or round starts, fencing targets incomplete after pass 8. -/
  | crierReportWindow
  /-- WARM_RESET (R460): A warm reset clears the device except the kept state and restarts the sequence at step 2. -/
  | warmReset (host : HostId) (selftest : Bool)
  /-- COMPUTE_RESET (R462): A compute reset stops every core, enters P2 and clears the compute scope. -/
  | computeReset (host : HostId)
  /-- COMPUTE_RESET_CLEARED (R462): The compute-reset clearing finishes and the device exits or holds in COMPUTE_HELD. -/
  | computeResetCleared (tests : Tests)
  /-- COMPUTE_RESUME (R462): A write of GLB_RESET.RESUME ends a held compute reset when no alarm is present. -/
  | computeResume (host : HostId) (tests : Tests)
  /-- FATAL_ERROR (R467): A failure not confined to one unit drives FAULT_N, logs a sticky record and starts a compute reset. -/
  | fatalError (unit : UnitId)
  /-- PORT_RESET (R463): A write of GLB_PORT_RST resets one port and retrains it. -/
  | portReset (host : HostId) (value : Word)
  /-- PORT_TRAINED (R463): A port finishes training and returns to UP. -/
  | portTrained (port : PortId) (mask : BitVec 4)
  /-- EVENT_GATHER_EXPIRY (R471): The 1 ms gathering interval ends and a gathered corrected record is written with its REPEAT. -/
  | eventGatherExpiry (host : HostId) (index : Nat)
  /-- EVENT_RECORD_WRITE (R472): A queued event record is written to the host's event ring once room exists. -/
  | eventRecordWrite (host : HostId)
  /-- EVENT_VECTOR_DELAY (R472): MOD_US after the first unsignalled record, vector 0 of the host is raised. -/
  | eventVectorDelay (host : HostId)
  /-- HTC_WATCHDOG (R476): The host-tile watchdog expires, writes a sticky record and performs a warm reset. -/
  | htcWatchdog (selftest : Bool)
  /-- ALIVE_N_TOGGLE (R475): Every 500 µs the host-tile controller toggles ALIVE_N. -/
  | aliveNToggle
  /-- QUEUE_SAMPLE_INTERVAL (R477): At each sampler interval end the depth and delay pair is written to TELEM_QSMP. -/
  | queueSampleInterval
  /-- STICKY_CLEAR (R473): A write of TELEM_STK_CTL.CLEAR in MANUF or RMA empties the sticky area. -/
  | stickyClear (host : HostId)
  /-- PTP_MESSAGE_SEND (R13): A port acting as PTP master or boundary clock, or a PTP slave measuring delay, sends a PTP event or announce message at its interval. -/
  | ptpMessageSend (port : PortId) (msg : PtpMsg)
  /-- HOST_PORT_UP (R209): A host port's PCI Express link comes up again after going down, updating UP, SPEED and WIDTH. -/
  | hostPortUp (host : HostId) (speed width : Fin 3)
  /-- D3HOT_EXIT (R256): A host function returns from D3hot to D0 through a power-management configuration write. -/
  | d3hotExit (host : HostId)
  /-- CONVENTIONAL_RESET (R460): HPh_PERST_N asserts a conventional reset on one host port, acting only as R208 gives. -/
  | conventionalReset (host : HostId)
  /-- DEBUG_HALT (R302): A debugger at DBG_INVASIVE halts a READY or RUNNING core at an instruction boundary. -/
  | debugHalt (core : CoreId)
  /-- DEBUG_RESUME (R302): A debugger resumes a HALTED core, which returns to its prior state. -/
  | debugResume (core : CoreId)
  /-- SPARE_PRELOAD_DONE (R306): The preload of a spare core from the image store finishes, and events waiting on the committed logical core proceed. -/
  | sparePreloadDone (core : CoreId)
  /-- ALARM_CONDITION_END (R419): A sensor's alarm condition ends and its bit in SEC_ALARM_STS.PRESENT clears. -/
  | alarmConditionEnd (sensor : Fin 5)
  /-- UCIE_LANE_REPAIR (R50): A die-to-die attachment repairs a failing lane with a redundant lane and counts the repair in TELEM_FIT_FAIL(5). -/
  | ucieLaneRepair
  /-- SPDM_MESSAGE (R425): An SPDM request over DOE, such as PSK_EXCHANGE, is answered to set up the secure session for IDE_KM. -/
  | spdmMessage (host : HostId) (request : Spdm)
  deriving DecidableEq, Repr

end Sys2Proof
end

