-- ==== Sys2Proof/Config.lean ====
section
/-! DEFINITION. What the spec leaves open: free values, constants with no body, so that a statement about one holds for every value.
A free value drawn afresh is applied to the counter `State.freeCtr` (log 2). -/

namespace Sys2Proof

/-- Byte i of the n-th open value: bytes an abort leaves undefined (06 R170), a corrupted or uncorrectable read, a random draw. -/
opaque Config.freeByte (n i : Nat) : Byte

/-- Bit pattern of the n-th open 64-bit value. -/
opaque Config.freeWord (n : Nat) : BitVec 64

/-- Whether a result is tiny before rounding to a normal number counts as tiny (10 R283 leaves it open, log 50). -/
opaque Config.tinyBefore : Bool

/-- Whether an arithmetic instruction sets NV on a NaN operand, by format and operands (log 51). -/
opaque Config.nanFlag (fmt a b : Nat) : Bool

/-- The result of a vector maximum (`mx`) or minimum with a NaN operand, by format and operands (log 52). -/
opaque Config.maxNan (mx : Bool) (fmt a b : Nat) : Nat

/-- Whether a vector maximum or minimum of two zeros of opposite sign gives its first operand (log 52). -/
opaque Config.maxZero (mx : Bool) (fmt a b : Nat) : Bool

/-- Flags beyond NV that VQMX, and flags that VDQMX, set for a format and a block (log 53). -/
opaque Config.mxFlags (fmt : Nat) (block : List Byte) : Nat

/-- Whether an ML-DSA-44 signature (FIPS 204) verifies: public key, message digest, signature (log 61). -/
opaque Config.mldsaVerify (key digest sig : List Byte) : Bool

/-- The digest of the boot ROM (15 R403, Table 15.1, log 98). -/
opaque Config.romDigest : List Byte

/-- The public key that Mastiff derives from the identity seed (15 R404, log 61). -/
opaque Config.mldsaPublic (seed : List Byte) : List Byte

/-- The signature that Mastiff makes over a digest under the identity seed (15 R405, log 61). -/
opaque Config.mldsaSign (seed digest : List Byte) : List Byte

/-- The handle that GO gives the service core's image on cluster n (17 R459 names none, log 2). -/
opaque Config.residentHandle (n : Nat) : BitVec 32

end Sys2Proof
end

