-- ==== Sys2Proof/Machine/Regs.lean ====
section
/-! DEFINITION. The BAR0 register map: one row per register heading of spec/ (offset, index ranges, who may write it, fields with
access type and reset value), and one name per field, spelled REGISTER.FIELD as the spec spells it (00_scope.md R6, R9). -/

namespace Sys2Proof.Machine

/-- The access types of 00_scope.md Table 0.4. `w1s0` is a W1S field whose table says that it reads 0. -/
inductive Acc where
  | ro | rw | rw1c | w1s | w1s0 | wo | rwl | rc
  deriving DecidableEq, Repr

/-- Who may write a register, by the write rule of its block (R116, R144, R172, R205, R241, R248, R266, R308, R376, R398, R426, R443,
R466, R479). A number is the place, among the register's indexes, of the host or partition or port concerned. `none`: every write is
ignored and logged. -/
inductive Writer where
  | both | boot | none
  | host (i : Nat) | own (i : Nat) | link (i : Nat)
  | region | conv | portRst
  deriving DecidableEq, Repr

/-- One field of a register: its lowest bit, width, access type, reset value, and the values a write may give it. -/
structure FldRow where
  lo : Nat
  w : Nat
  acc : Acc
  reset : Nat
  min : Nat
  max : Nat
  deriving DecidableEq, Repr

/-- One register heading: its name, the offset of its first instance, its indexes as (count, stride), its writer, its fields. -/
structure RegRow where
  name : String
  base : Nat
  dims : List (Nat × Nat)
  writer : Writer
  fields : List FldRow
  deriving DecidableEq, Repr

/-- A named field of one register: the register's BAR0 offset, the field's lowest bit and its width. -/
structure Fld where
  off : Nat
  lo : Nat
  w : Nat
  deriving DecidableEq, Repr

/-- GLB_ID: 17_bringup_reset_firmware.md R466. -/
def Reg.GLB_ID.off : Nat := 0x0
/-- Field PART of GLB_ID, bits 15:0. -/
def Reg.GLB_ID.PART : Fld := ⟨Reg.GLB_ID.off, 0, 16⟩
/-- Field STEPPING of GLB_ID, bits 23:16. -/
def Reg.GLB_ID.STEPPING : Fld := ⟨Reg.GLB_ID.off, 16, 8⟩
/-- GLB_STS: 17_bringup_reset_firmware.md R466. -/
def Reg.GLB_STS.off : Nat := 0x4
/-- Field READY of GLB_STS, bits 0:0. -/
def Reg.GLB_STS.READY : Fld := ⟨Reg.GLB_STS.off, 0, 1⟩
/-- Field STAGE of GLB_STS, bits 4:1. -/
def Reg.GLB_STS.STAGE : Fld := ⟨Reg.GLB_STS.off, 1, 4⟩
/-- Field BOOT_HOST of GLB_STS, bits 5:5. -/
def Reg.GLB_STS.BOOT_HOST : Fld := ⟨Reg.GLB_STS.off, 5, 1⟩
/-- Field BOOT_ERR of GLB_STS, bits 9:6. -/
def Reg.GLB_STS.BOOT_ERR : Fld := ⟨Reg.GLB_STS.off, 6, 4⟩
/-- Field ERR_CLUSTER of GLB_STS, bits 15:10. -/
def Reg.GLB_STS.ERR_CLUSTER : Fld := ⟨Reg.GLB_STS.off, 10, 6⟩
/-- Field RESET_EVT of GLB_STS, bits 16:16. -/
def Reg.GLB_STS.RESET_EVT : Fld := ⟨Reg.GLB_STS.off, 16, 1⟩
/-- GLB_STRAP: 17_bringup_reset_firmware.md R445. -/
def Reg.GLB_STRAP.off : Nat := 0x8
/-- Field HOST of GLB_STRAP, bits 1:0. -/
def Reg.GLB_STRAP.HOST : Fld := ⟨Reg.GLB_STRAP.off, 0, 2⟩
/-- Field TIME of GLB_STRAP, bits 3:2. -/
def Reg.GLB_STRAP.TIME : Fld := ⟨Reg.GLB_STRAP.off, 2, 2⟩
/-- Field LINK of GLB_STRAP, bits 4:4. -/
def Reg.GLB_STRAP.LINK : Fld := ⟨Reg.GLB_STRAP.off, 4, 1⟩
/-- Field ENV of GLB_STRAP, bits 5:5. -/
def Reg.GLB_STRAP.ENV : Fld := ⟨Reg.GLB_STRAP.off, 5, 1⟩
/-- Field COORD of GLB_STRAP, bits 31:16. -/
def Reg.GLB_STRAP.COORD : Fld := ⟨Reg.GLB_STRAP.off, 16, 16⟩
/-- GLB_RESET: 17_bringup_reset_firmware.md R466. -/
def Reg.GLB_RESET.off : Nat := 0xC
/-- Field WARM of GLB_RESET, bits 0:0. -/
def Reg.GLB_RESET.WARM : Fld := ⟨Reg.GLB_RESET.off, 0, 1⟩
/-- Field COMPUTE of GLB_RESET, bits 1:1. -/
def Reg.GLB_RESET.COMPUTE : Fld := ⟨Reg.GLB_RESET.off, 1, 1⟩
/-- Field RESUME of GLB_RESET, bits 2:2. -/
def Reg.GLB_RESET.RESUME : Fld := ⟨Reg.GLB_RESET.off, 2, 1⟩
/-- GLB_CTL: 13_determinism.md R376. -/
def Reg.GLB_CTL.off : Nat := 0x10
/-- Field EXACT of GLB_CTL, bits 0:0. -/
def Reg.GLB_CTL.EXACT : Fld := ⟨Reg.GLB_CTL.off, 0, 1⟩
/-- GLB_DET_STS: 13_determinism.md R376. -/
def Reg.GLB_DET_STS.off : Nat := 0x14
/-- Field EXACT_REJ of GLB_DET_STS, bits 0:0. -/
def Reg.GLB_DET_STS.EXACT_REJ : Fld := ⟨Reg.GLB_DET_STS.off, 0, 1⟩
/-- Field DIGEST_VALID of GLB_DET_STS, bits 1:1. -/
def Reg.GLB_DET_STS.DIGEST_VALID : Fld := ⟨Reg.GLB_DET_STS.off, 1, 1⟩
/-- GLB_FW_VER_LO: 17_bringup_reset_firmware.md R450. -/
def Reg.GLB_FW_VER_LO.off : Nat := 0x18
/-- Field FW of GLB_FW_VER_LO, bits 31:0. -/
def Reg.GLB_FW_VER_LO.FW : Fld := ⟨Reg.GLB_FW_VER_LO.off, 0, 32⟩
/-- GLB_FW_VER_HI: 17_bringup_reset_firmware.md R450. -/
def Reg.GLB_FW_VER_HI.off : Nat := 0x1C
/-- Field FW of GLB_FW_VER_HI, bits 31:0. -/
def Reg.GLB_FW_VER_HI.FW : Fld := ⟨Reg.GLB_FW_VER_HI.off, 0, 32⟩
/-- GLB_FW_ADDR_LO: 17_bringup_reset_firmware.md R449. -/
def Reg.GLB_FW_ADDR_LO.off : Nat := 0x20
/-- Field ADDR_LO of GLB_FW_ADDR_LO, bits 31:12. -/
def Reg.GLB_FW_ADDR_LO.ADDR_LO : Fld := ⟨Reg.GLB_FW_ADDR_LO.off, 12, 20⟩
/-- GLB_FW_ADDR_HI: 17_bringup_reset_firmware.md R449. -/
def Reg.GLB_FW_ADDR_HI.off : Nat := 0x24
/-- Field ADDR_HI of GLB_FW_ADDR_HI, bits 19:0. -/
def Reg.GLB_FW_ADDR_HI.ADDR_HI : Fld := ⟨Reg.GLB_FW_ADDR_HI.off, 0, 20⟩
/-- GLB_FW_LEN: 17_bringup_reset_firmware.md R449. -/
def Reg.GLB_FW_LEN.off : Nat := 0x28
/-- Field PAGES of GLB_FW_LEN, bits 14:0. -/
def Reg.GLB_FW_LEN.PAGES : Fld := ⟨Reg.GLB_FW_LEN.off, 0, 15⟩
/-- GLB_FW_CMD: 17_bringup_reset_firmware.md R449. -/
def Reg.GLB_FW_CMD.off : Nat := 0x2C
/-- Field GO of GLB_FW_CMD, bits 0:0. -/
def Reg.GLB_FW_CMD.GO : Fld := ⟨Reg.GLB_FW_CMD.off, 0, 1⟩
/-- GLB_CRIER_STS: 17_bringup_reset_firmware.md R456. -/
def Reg.GLB_CRIER_STS.off : Nat := 0x30
/-- Field PASS of GLB_CRIER_STS, bits 3:0. -/
def Reg.GLB_CRIER_STS.PASS : Fld := ⟨Reg.GLB_CRIER_STS.off, 0, 4⟩
/-- Field ROUND of GLB_CRIER_STS, bits 7:4. -/
def Reg.GLB_CRIER_STS.ROUND : Fld := ⟨Reg.GLB_CRIER_STS.off, 4, 4⟩
/-- Field N_SEG of GLB_CRIER_STS, bits 20:8. -/
def Reg.GLB_CRIER_STS.N_SEG : Fld := ⟨Reg.GLB_CRIER_STS.off, 8, 13⟩
/-- Field FENCED of GLB_CRIER_STS, bits 31:21. -/
def Reg.GLB_CRIER_STS.FENCED : Fld := ⟨Reg.GLB_CRIER_STS.off, 21, 11⟩
/-- GLB_BOOT_MS: 17_bringup_reset_firmware.md R447. -/
def Reg.GLB_BOOT_MS.off : Nat := 0x34
/-- Field MS of GLB_BOOT_MS, bits 15:0. -/
def Reg.GLB_BOOT_MS.MS : Fld := ⟨Reg.GLB_BOOT_MS.off, 0, 16⟩
/-- GLB_PORT_RST: 17_bringup_reset_firmware.md R466. -/
def Reg.GLB_PORT_RST.off : Nat := 0x38
/-- Field PORT of GLB_PORT_RST, bits 5:0. -/
def Reg.GLB_PORT_RST.PORT : Fld := ⟨Reg.GLB_PORT_RST.off, 0, 6⟩
/-- Field BUSY of GLB_PORT_RST, bits 6:6. -/
def Reg.GLB_PORT_RST.BUSY : Fld := ⟨Reg.GLB_PORT_RST.off, 6, 1⟩
/-- Field GO of GLB_PORT_RST, bits 31:31. -/
def Reg.GLB_PORT_RST.GO : Fld := ⟨Reg.GLB_PORT_RST.off, 31, 1⟩
/-- GLB_DUM_GEN: 02_floor_plan_and_numbering.md R41. -/
def Reg.GLB_DUM_GEN.off : Nat := 0x40
/-- Field GEN of GLB_DUM_GEN, bits 15:0. -/
def Reg.GLB_DUM_GEN.GEN : Fld := ⟨Reg.GLB_DUM_GEN.off, 0, 16⟩
/-- GLB_DUM_CTL: 02_floor_plan_and_numbering.md R46. -/
def Reg.GLB_DUM_CTL.off : Nat := 0x44
/-- Field COMMIT of GLB_DUM_CTL, bits 0:0. -/
def Reg.GLB_DUM_CTL.COMMIT : Fld := ⟨Reg.GLB_DUM_CTL.off, 0, 1⟩
/-- Field COMMIT_REJ of GLB_DUM_CTL, bits 1:1. -/
def Reg.GLB_DUM_CTL.COMMIT_REJ : Fld := ⟨Reg.GLB_DUM_CTL.off, 1, 1⟩
/-- GLB_DUM_CHAN: 02_floor_plan_and_numbering.md R40. -/
def Reg.GLB_DUM_CHAN.off : Nat := 0x48
/-- Field FUSE of GLB_DUM_CHAN, bits 15:0. -/
def Reg.GLB_DUM_CHAN.FUSE : Fld := ⟨Reg.GLB_DUM_CHAN.off, 0, 16⟩
/-- Field FENCE of GLB_DUM_CHAN, bits 31:16. -/
def Reg.GLB_DUM_CHAN.FENCE : Fld := ⟨Reg.GLB_DUM_CHAN.off, 16, 16⟩
/-- GLB_DUM_LANE0: 02_floor_plan_and_numbering.md R40. -/
def Reg.GLB_DUM_LANE0.off (t : Nat) : Nat := 0x50 + 0x10 * t
/-- Field LANES of GLB_DUM_LANE0, bits 31:0. -/
def Reg.GLB_DUM_LANE0.LANES (t : Nat) : Fld := ⟨Reg.GLB_DUM_LANE0.off t, 0, 32⟩
/-- GLB_DUM_LANE1: 02_floor_plan_and_numbering.md R40. -/
def Reg.GLB_DUM_LANE1.off (t : Nat) : Nat := 0x54 + 0x10 * t
/-- Field LANES of GLB_DUM_LANE1, bits 31:0. -/
def Reg.GLB_DUM_LANE1.LANES (t : Nat) : Fld := ⟨Reg.GLB_DUM_LANE1.off t, 0, 32⟩
/-- GLB_DUM_LANE2: 02_floor_plan_and_numbering.md R40. -/
def Reg.GLB_DUM_LANE2.off (t : Nat) : Nat := 0x58 + 0x10 * t
/-- Field LANES of GLB_DUM_LANE2, bits 3:0. -/
def Reg.GLB_DUM_LANE2.LANES (t : Nat) : Fld := ⟨Reg.GLB_DUM_LANE2.off t, 0, 4⟩
/-- GLB_DET_DIGEST: 13_determinism.md R368. -/
def Reg.GLB_DET_DIGEST.off (i : Nat) : Nat := 0x100 + 0x4 * i
/-- Field DIGEST of GLB_DET_DIGEST, bits 31:0. -/
def Reg.GLB_DET_DIGEST.DIGEST (i : Nat) : Fld := ⟨Reg.GLB_DET_DIGEST.off i, 0, 32⟩
/-- TIME_CTL: 01_fabric_time.md R15. -/
def Reg.TIME_CTL.off : Nat := 0x10000
/-- Field SRC of TIME_CTL, bits 1:0. -/
def Reg.TIME_CTL.SRC : Fld := ⟨Reg.TIME_CTL.off, 0, 2⟩
/-- Field PTP_BC of TIME_CTL, bits 2:2. -/
def Reg.TIME_CTL.PTP_BC : Fld := ⟨Reg.TIME_CTL.off, 2, 1⟩
/-- Field SET_ARM of TIME_CTL, bits 3:3. -/
def Reg.TIME_CTL.SET_ARM : Fld := ⟨Reg.TIME_CTL.off, 3, 1⟩
/-- Field DEMOTE_TC of TIME_CTL, bits 6:4. -/
def Reg.TIME_CTL.DEMOTE_TC : Fld := ⟨Reg.TIME_CTL.off, 4, 3⟩
/-- TIME_STS: 01_fabric_time.md R21. -/
def Reg.TIME_STS.off : Nat := 0x10004
/-- Field STATE of TIME_STS, bits 2:0. -/
def Reg.TIME_STS.STATE : Fld := ⟨Reg.TIME_STS.off, 0, 3⟩
/-- Field SRC_VALID of TIME_STS, bits 3:3. -/
def Reg.TIME_STS.SRC_VALID : Fld := ⟨Reg.TIME_STS.off, 3, 1⟩
/-- Field STEPPED of TIME_STS, bits 4:4. -/
def Reg.TIME_STS.STEPPED : Fld := ⟨Reg.TIME_STS.off, 4, 1⟩
/-- Field CTL_REJ of TIME_STS, bits 5:5. -/
def Reg.TIME_STS.CTL_REJ : Fld := ⟨Reg.TIME_STS.off, 5, 1⟩
/-- Field TIME_LOST of TIME_STS, bits 6:6. -/
def Reg.TIME_STS.TIME_LOST : Fld := ⟨Reg.TIME_STS.off, 6, 1⟩
/-- Field SRC_STEP of TIME_STS, bits 7:7. -/
def Reg.TIME_STS.SRC_STEP : Fld := ⟨Reg.TIME_STS.off, 7, 1⟩
/-- Field HOLD_MS of TIME_STS, bits 25:16. -/
def Reg.TIME_STS.HOLD_MS : Fld := ⟨Reg.TIME_STS.off, 16, 10⟩
/-- TIME_PORT: 01_fabric_time.md R15. -/
def Reg.TIME_PORT.off : Nat := 0x10008
/-- Field PORT of TIME_PORT, bits 5:0. -/
def Reg.TIME_PORT.PORT : Fld := ⟨Reg.TIME_PORT.off, 0, 6⟩
/-- TIME_HOLD_LIMIT: 01_fabric_time.md R25. -/
def Reg.TIME_HOLD_LIMIT.off : Nat := 0x1000C
/-- Field LIMIT_MS of TIME_HOLD_LIMIT, bits 9:0. -/
def Reg.TIME_HOLD_LIMIT.LIMIT_MS : Fld := ⟨Reg.TIME_HOLD_LIMIT.off, 0, 10⟩
/-- TIME_NOW_LO: 01_fabric_time.md R19. -/
def Reg.TIME_NOW_LO.off : Nat := 0x10010
/-- Field NS_LO of TIME_NOW_LO, bits 31:0. -/
def Reg.TIME_NOW_LO.NS_LO : Fld := ⟨Reg.TIME_NOW_LO.off, 0, 32⟩
/-- TIME_NOW_HI: 01_fabric_time.md R19. -/
def Reg.TIME_NOW_HI.off : Nat := 0x10014
/-- Field NS_HI of TIME_NOW_HI, bits 31:0. -/
def Reg.TIME_NOW_HI.NS_HI : Fld := ⟨Reg.TIME_NOW_HI.off, 0, 32⟩
/-- TIME_NOW_FRAC: 01_fabric_time.md R19. -/
def Reg.TIME_NOW_FRAC.off : Nat := 0x10018
/-- Field FRAC of TIME_NOW_FRAC, bits 7:0. -/
def Reg.TIME_NOW_FRAC.FRAC : Fld := ⟨Reg.TIME_NOW_FRAC.off, 0, 8⟩
/-- TIME_SET_LO: 01_fabric_time.md R14. -/
def Reg.TIME_SET_LO.off : Nat := 0x10020
/-- Field SET of TIME_SET_LO, bits 31:0. -/
def Reg.TIME_SET_LO.SET : Fld := ⟨Reg.TIME_SET_LO.off, 0, 32⟩
/-- TIME_SET_HI: 01_fabric_time.md R14. -/
def Reg.TIME_SET_HI.off : Nat := 0x10024
/-- Field SET of TIME_SET_HI, bits 31:0. -/
def Reg.TIME_SET_HI.SET : Fld := ⟨Reg.TIME_SET_HI.off, 0, 32⟩
/-- TIME_OFFSET: 01_fabric_time.md R24. -/
def Reg.TIME_OFFSET.off : Nat := 0x10028
/-- Field OFFSET of TIME_OFFSET, bits 31:0. -/
def Reg.TIME_OFFSET.OFFSET : Fld := ⟨Reg.TIME_OFFSET.off, 0, 32⟩
/-- TIME_LOST_CNT: 01_fabric_time.md R29. -/
def Reg.TIME_LOST_CNT.off : Nat := 0x1002C
/-- Field COUNT of TIME_LOST_CNT, bits 15:0. -/
def Reg.TIME_LOST_CNT.COUNT : Fld := ⟨Reg.TIME_LOST_CNT.off, 0, 16⟩
/-- TIME_BAR_CTL: 01_fabric_time.md R32. -/
def Reg.TIME_BAR_CTL.off (n : Nat) : Nat := 0x10100 + 0x10 * n
/-- Field LEAD of TIME_BAR_CTL, bits 15:0. -/
def Reg.TIME_BAR_CTL.LEAD (n : Nat) : Fld := ⟨Reg.TIME_BAR_CTL.off n, 0, 16⟩
/-- TIME_BAR_STS: 01_fabric_time.md R34. -/
def Reg.TIME_BAR_STS.off (n : Nat) : Nat := 0x10104 + 0x10 * n
/-- Field RELEASES of TIME_BAR_STS, bits 15:0. -/
def Reg.TIME_BAR_STS.RELEASES (n : Nat) : Fld := ⟨Reg.TIME_BAR_STS.off n, 0, 16⟩
/-- Field LATE of TIME_BAR_STS, bits 16:16. -/
def Reg.TIME_BAR_STS.LATE (n : Nat) : Fld := ⟨Reg.TIME_BAR_STS.off n, 16, 1⟩
/-- Field UNTIMED of TIME_BAR_STS, bits 17:17. -/
def Reg.TIME_BAR_STS.UNTIMED (n : Nat) : Fld := ⟨Reg.TIME_BAR_STS.off n, 17, 1⟩
/-- TALLY_ENV: 16_energy_and_power_states.md R430. -/
def Reg.TALLY_ENV.off : Nat := 0x20000
/-- Field W of TALLY_ENV, bits 9:0. -/
def Reg.TALLY_ENV.W : Fld := ⟨Reg.TALLY_ENV.off, 0, 10⟩
/-- TALLY_BUDGET: 16_energy_and_power_states.md R431. -/
def Reg.TALLY_BUDGET.off : Nat := 0x20004
/-- Field W of TALLY_BUDGET, bits 9:0. -/
def Reg.TALLY_BUDGET.W : Fld := ⟨Reg.TALLY_BUDGET.off, 0, 10⟩
/-- TALLY_MIN: 16_energy_and_power_states.md R430. -/
def Reg.TALLY_MIN.off : Nat := 0x20008
/-- Field W of TALLY_MIN, bits 9:0. -/
def Reg.TALLY_MIN.W : Fld := ⟨Reg.TALLY_MIN.off, 0, 10⟩
/-- TALLY_FLOOR: 16_energy_and_power_states.md R429. -/
def Reg.TALLY_FLOOR.off : Nat := 0x2000C
/-- Field MW of TALLY_FLOOR, bits 19:0. -/
def Reg.TALLY_FLOOR.MW : Fld := ⟨Reg.TALLY_FLOOR.off, 0, 20⟩
/-- TALLY_STS: 16_energy_and_power_states.md R443. -/
def Reg.TALLY_STS.off : Nat := 0x20010
/-- Field PSTATE of TALLY_STS, bits 2:0. -/
def Reg.TALLY_STS.PSTATE : Fld := ⟨Reg.TALLY_STS.off, 0, 3⟩
/-- Field BUDGET_REJ of TALLY_STS, bits 3:3. -/
def Reg.TALLY_STS.BUDGET_REJ : Fld := ⟨Reg.TALLY_STS.off, 3, 1⟩
/-- Field OVERRUN of TALLY_STS, bits 4:4. -/
def Reg.TALLY_STS.OVERRUN : Fld := ⟨Reg.TALLY_STS.off, 4, 1⟩
/-- Field CAP_LOW of TALLY_STS, bits 5:5. -/
def Reg.TALLY_STS.CAP_LOW : Fld := ⟨Reg.TALLY_STS.off, 5, 1⟩
/-- Field CAP_SUSP of TALLY_STS, bits 6:6. -/
def Reg.TALLY_STS.CAP_SUSP : Fld := ⟨Reg.TALLY_STS.off, 6, 1⟩
/-- Field THROTTLE of TALLY_STS, bits 11:8. -/
def Reg.TALLY_STS.THROTTLE : Fld := ⟨Reg.TALLY_STS.off, 8, 4⟩
/-- TALLY_PLAN: 16_energy_and_power_states.md R432. -/
def Reg.TALLY_PLAN.off : Nat := 0x20014
/-- Field LANES_EN of TALLY_PLAN, bits 0:0. -/
def Reg.TALLY_PLAN.LANES_EN : Fld := ⟨Reg.TALLY_PLAN.off, 0, 1⟩
/-- Field GATE_EN of TALLY_PLAN, bits 1:1. -/
def Reg.TALLY_PLAN.GATE_EN : Fld := ⟨Reg.TALLY_PLAN.off, 1, 1⟩
/-- Field THROTTLE_EN of TALLY_PLAN, bits 2:2. -/
def Reg.TALLY_PLAN.THROTTLE_EN : Fld := ⟨Reg.TALLY_PLAN.off, 2, 1⟩
/-- Field IDLE_MS of TALLY_PLAN, bits 15:8. -/
def Reg.TALLY_PLAN.IDLE_MS : Fld := ⟨Reg.TALLY_PLAN.off, 8, 8⟩
/-- Field MARGIN_W of TALLY_PLAN, bits 23:16. -/
def Reg.TALLY_PLAN.MARGIN_W : Fld := ⟨Reg.TALLY_PLAN.off, 16, 8⟩
/-- Field OVER_MS of TALLY_PLAN, bits 31:24. -/
def Reg.TALLY_PLAN.OVER_MS : Fld := ⟨Reg.TALLY_PLAN.off, 24, 8⟩
/-- TALLY_CAP_CTL: 16_energy_and_power_states.md R438. -/
def Reg.TALLY_CAP_CTL.off : Nat := 0x20018
/-- Field GRACE_MS of TALLY_CAP_CTL, bits 9:0. -/
def Reg.TALLY_CAP_CTL.GRACE_MS : Fld := ⟨Reg.TALLY_CAP_CTL.off, 0, 10⟩
/-- TALLY_PS_CTL: 16_energy_and_power_states.md R441. -/
def Reg.TALLY_PS_CTL.off : Nat := 0x2001C
/-- Field STANDBY of TALLY_PS_CTL, bits 0:0. -/
def Reg.TALLY_PS_CTL.STANDBY : Fld := ⟨Reg.TALLY_PS_CTL.off, 0, 1⟩
/-- Field WAKE of TALLY_PS_CTL, bits 1:1. -/
def Reg.TALLY_PS_CTL.WAKE : Fld := ⟨Reg.TALLY_PS_CTL.off, 1, 1⟩
/-- TALLY_PS_STS: 16_energy_and_power_states.md R441. -/
def Reg.TALLY_PS_STS.off : Nat := 0x20020
/-- Field BUSY of TALLY_PS_STS, bits 0:0. -/
def Reg.TALLY_PS_STS.BUSY : Fld := ⟨Reg.TALLY_PS_STS.off, 0, 1⟩
/-- Field DONE of TALLY_PS_STS, bits 1:1. -/
def Reg.TALLY_PS_STS.DONE : Fld := ⟨Reg.TALLY_PS_STS.off, 1, 1⟩
/-- Field RESULT of TALLY_PS_STS, bits 7:4. -/
def Reg.TALLY_PS_STS.RESULT : Fld := ⟨Reg.TALLY_PS_STS.off, 4, 4⟩
/-- TALLY_DEV_LAST: 16_energy_and_power_states.md R428. -/
def Reg.TALLY_DEV_LAST.off : Nat := 0x20024
/-- Field UJ of TALLY_DEV_LAST, bits 31:0. -/
def Reg.TALLY_DEV_LAST.UJ : Fld := ⟨Reg.TALLY_DEV_LAST.off, 0, 32⟩
/-- TALLY_WINDOW_LO: 16_energy_and_power_states.md R428. -/
def Reg.TALLY_WINDOW_LO.off : Nat := 0x20028
/-- Field WINDOW of TALLY_WINDOW_LO, bits 31:0. -/
def Reg.TALLY_WINDOW_LO.WINDOW : Fld := ⟨Reg.TALLY_WINDOW_LO.off, 0, 32⟩
/-- TALLY_WINDOW_HI: 16_energy_and_power_states.md R428. -/
def Reg.TALLY_WINDOW_HI.off : Nat := 0x2002C
/-- Field WINDOW of TALLY_WINDOW_HI, bits 31:0. -/
def Reg.TALLY_WINDOW_HI.WINDOW : Fld := ⟨Reg.TALLY_WINDOW_HI.off, 0, 32⟩
/-- TALLY_GATED_LO: 16_energy_and_power_states.md R432. -/
def Reg.TALLY_GATED_LO.off : Nat := 0x20030
/-- Field CLUSTERS of TALLY_GATED_LO, bits 31:0. -/
def Reg.TALLY_GATED_LO.CLUSTERS : Fld := ⟨Reg.TALLY_GATED_LO.off, 0, 32⟩
/-- TALLY_GATED_HI: 16_energy_and_power_states.md R432. -/
def Reg.TALLY_GATED_HI.off : Nat := 0x20034
/-- Field CLUSTERS of TALLY_GATED_HI, bits 31:0. -/
def Reg.TALLY_GATED_HI.CLUSTERS : Fld := ⟨Reg.TALLY_GATED_HI.off, 0, 32⟩
/-- TALLY_LOWERED_LO: 16_energy_and_power_states.md R432. -/
def Reg.TALLY_LOWERED_LO.off : Nat := 0x20038
/-- Field PORTS_LO of TALLY_LOWERED_LO, bits 31:0. -/
def Reg.TALLY_LOWERED_LO.PORTS_LO : Fld := ⟨Reg.TALLY_LOWERED_LO.off, 0, 32⟩
/-- TALLY_LOWERED_HI: 16_energy_and_power_states.md R432. -/
def Reg.TALLY_LOWERED_HI.off : Nat := 0x2003C
/-- Field PORTS_HI of TALLY_LOWERED_HI, bits 31:0. -/
def Reg.TALLY_LOWERED_HI.PORTS_HI : Fld := ⟨Reg.TALLY_LOWERED_HI.off, 0, 32⟩
/-- TALLY_OVERRUN_CNT: 16_energy_and_power_states.md R436. -/
def Reg.TALLY_OVERRUN_CNT.off : Nat := 0x20040
/-- Field COUNT of TALLY_OVERRUN_CNT, bits 31:0. -/
def Reg.TALLY_OVERRUN_CNT.COUNT : Fld := ⟨Reg.TALLY_OVERRUN_CNT.off, 0, 32⟩
/-- TALLY_CAP_CNT: 16_energy_and_power_states.md R437. -/
def Reg.TALLY_CAP_CNT.off : Nat := 0x20044
/-- Field COUNT of TALLY_CAP_CNT, bits 31:0. -/
def Reg.TALLY_CAP_CNT.COUNT : Fld := ⟨Reg.TALLY_CAP_CNT.off, 0, 32⟩
/-- TALLY_LOWER_CNT: 16_energy_and_power_states.md R432. -/
def Reg.TALLY_LOWER_CNT.off : Nat := 0x20048
/-- Field COUNT of TALLY_LOWER_CNT, bits 31:0. -/
def Reg.TALLY_LOWER_CNT.COUNT : Fld := ⟨Reg.TALLY_LOWER_CNT.off, 0, 32⟩
/-- TALLY_DOM_LAST: 16_energy_and_power_states.md R428. -/
def Reg.TALLY_DOM_LAST.off (d : Nat) : Nat := 0x20100 + 0x10 * d
/-- Field UJ of TALLY_DOM_LAST, bits 31:0. -/
def Reg.TALLY_DOM_LAST.UJ (d : Nat) : Fld := ⟨Reg.TALLY_DOM_LAST.off d, 0, 32⟩
/-- TALLY_DOM_PEAK: 16_energy_and_power_states.md R428. -/
def Reg.TALLY_DOM_PEAK.off (d : Nat) : Nat := 0x20104 + 0x10 * d
/-- Field UJ of TALLY_DOM_PEAK, bits 31:0. -/
def Reg.TALLY_DOM_PEAK.UJ (d : Nat) : Fld := ⟨Reg.TALLY_DOM_PEAK.off d, 0, 32⟩
/-- TALLY_DOM_TOT_LO: 16_energy_and_power_states.md R428. -/
def Reg.TALLY_DOM_TOT_LO.off (d : Nat) : Nat := 0x20108 + 0x10 * d
/-- Field UJ of TALLY_DOM_TOT_LO, bits 31:0. -/
def Reg.TALLY_DOM_TOT_LO.UJ (d : Nat) : Fld := ⟨Reg.TALLY_DOM_TOT_LO.off d, 0, 32⟩
/-- TALLY_DOM_TOT_HI: 16_energy_and_power_states.md R428. -/
def Reg.TALLY_DOM_TOT_HI.off (d : Nat) : Nat := 0x2010C + 0x10 * d
/-- Field UJ of TALLY_DOM_TOT_HI, bits 31:0. -/
def Reg.TALLY_DOM_TOT_HI.UJ (d : Nat) : Fld := ⟨Reg.TALLY_DOM_TOT_HI.off d, 0, 32⟩
/-- SEC_DEVICE_ID: 15_security_and_cipher.md R404. -/
def Reg.SEC_DEVICE_ID.off (i : Nat) : Nat := 0x30000 + 0x4 * i
/-- Field ID of SEC_DEVICE_ID, bits 31:0. -/
def Reg.SEC_DEVICE_ID.ID (i : Nat) : Fld := ⟨Reg.SEC_DEVICE_ID.off i, 0, 32⟩
/-- SEC_LC: 15_security_and_cipher.md R407. -/
def Reg.SEC_LC.off : Nat := 0x30010
/-- Field STATE of SEC_LC, bits 2:0. -/
def Reg.SEC_LC.STATE : Fld := ⟨Reg.SEC_LC.off, 0, 3⟩
/-- SEC_DBG: 15_security_and_cipher.md R410. -/
def Reg.SEC_DBG.off : Nat := 0x30014
/-- Field LEVEL of SEC_DBG, bits 1:0. -/
def Reg.SEC_DBG.LEVEL : Fld := ⟨Reg.SEC_DBG.off, 0, 2⟩
/-- Field LOWER of SEC_DBG, bits 3:2. -/
def Reg.SEC_DBG.LOWER : Fld := ⟨Reg.SEC_DBG.off, 2, 2⟩
/-- Field EVICTING of SEC_DBG, bits 4:4. -/
def Reg.SEC_DBG.EVICTING : Fld := ⟨Reg.SEC_DBG.off, 4, 1⟩
/-- SEC_BOOT_STS: 15_security_and_cipher.md R399. -/
def Reg.SEC_BOOT_STS.off : Nat := 0x30018
/-- Field RESULT of SEC_BOOT_STS, bits 3:0. -/
def Reg.SEC_BOOT_STS.RESULT : Fld := ⟨Reg.SEC_BOOT_STS.off, 0, 4⟩
/-- SEC_ALARM_STS: 15_security_and_cipher.md R419. -/
def Reg.SEC_ALARM_STS.off : Nat := 0x30020
/-- Field LATCHED of SEC_ALARM_STS, bits 4:0. -/
def Reg.SEC_ALARM_STS.LATCHED : Fld := ⟨Reg.SEC_ALARM_STS.off, 0, 5⟩
/-- Field PRESENT of SEC_ALARM_STS, bits 12:8. -/
def Reg.SEC_ALARM_STS.PRESENT : Fld := ⟨Reg.SEC_ALARM_STS.off, 8, 5⟩
/-- SEC_ALARM_EN: 15_security_and_cipher.md R417. -/
def Reg.SEC_ALARM_EN.off : Nat := 0x30024
/-- Field EN of SEC_ALARM_EN, bits 4:0. -/
def Reg.SEC_ALARM_EN.EN : Fld := ⟨Reg.SEC_ALARM_EN.off, 0, 5⟩
/-- SEC_ALARM_CNT: 15_security_and_cipher.md R418. -/
def Reg.SEC_ALARM_CNT.off : Nat := 0x30028
/-- Field COUNT of SEC_ALARM_CNT, bits 15:0. -/
def Reg.SEC_ALARM_CNT.COUNT : Fld := ⟨Reg.SEC_ALARM_CNT.off, 0, 16⟩
/-- SEC_HOSTSEC: 15_security_and_cipher.md R421. -/
def Reg.SEC_HOSTSEC.off (h : Nat) : Nat := 0x30030 + 0x4 * h
/-- Field KEY_IDE of SEC_HOSTSEC, bits 0:0. -/
def Reg.SEC_HOSTSEC.KEY_IDE (h : Nat) : Fld := ⟨Reg.SEC_HOSTSEC.off h, 0, 1⟩
/-- Field SECURE of SEC_HOSTSEC, bits 11:8. -/
def Reg.SEC_HOSTSEC.SECURE (h : Nat) : Fld := ⟨Reg.SEC_HOSTSEC.off h, 8, 4⟩
/-- SEC_MB_ADDR_LO: 15_security_and_cipher.md R426. -/
def Reg.SEC_MB_ADDR_LO.off (h : Nat) : Nat := 0x30100 + 0x40 * h
/-- Field ADDR_LO of SEC_MB_ADDR_LO, bits 31:6. -/
def Reg.SEC_MB_ADDR_LO.ADDR_LO (h : Nat) : Fld := ⟨Reg.SEC_MB_ADDR_LO.off h, 6, 26⟩
/-- SEC_MB_ADDR_HI: 15_security_and_cipher.md R426. -/
def Reg.SEC_MB_ADDR_HI.off (h : Nat) : Nat := 0x30104 + 0x40 * h
/-- Field ADDR_HI of SEC_MB_ADDR_HI, bits 19:0. -/
def Reg.SEC_MB_ADDR_HI.ADDR_HI (h : Nat) : Fld := ⟨Reg.SEC_MB_ADDR_HI.off h, 0, 20⟩
/-- SEC_MB_CMD: 15_security_and_cipher.md R426. -/
def Reg.SEC_MB_CMD.off (h : Nat) : Nat := 0x30108 + 0x40 * h
/-- Field OP of SEC_MB_CMD, bits 3:0. -/
def Reg.SEC_MB_CMD.OP (h : Nat) : Fld := ⟨Reg.SEC_MB_CMD.off h, 0, 4⟩
/-- Field ARG of SEC_MB_CMD, bits 15:8. -/
def Reg.SEC_MB_CMD.ARG (h : Nat) : Fld := ⟨Reg.SEC_MB_CMD.off h, 8, 8⟩
/-- Field GO of SEC_MB_CMD, bits 31:31. -/
def Reg.SEC_MB_CMD.GO (h : Nat) : Fld := ⟨Reg.SEC_MB_CMD.off h, 31, 1⟩
/-- SEC_MB_STS: 15_security_and_cipher.md R426. -/
def Reg.SEC_MB_STS.off (h : Nat) : Nat := 0x3010C + 0x40 * h
/-- Field BUSY of SEC_MB_STS, bits 0:0. -/
def Reg.SEC_MB_STS.BUSY (h : Nat) : Fld := ⟨Reg.SEC_MB_STS.off h, 0, 1⟩
/-- Field DONE of SEC_MB_STS, bits 1:1. -/
def Reg.SEC_MB_STS.DONE (h : Nat) : Fld := ⟨Reg.SEC_MB_STS.off h, 1, 1⟩
/-- Field RESULT of SEC_MB_STS, bits 7:4. -/
def Reg.SEC_MB_STS.RESULT (h : Nat) : Fld := ⟨Reg.SEC_MB_STS.off h, 4, 4⟩
/-- SEC_DMR: 15_security_and_cipher.md R403. -/
def Reg.SEC_DMR.off (n i : Nat) : Nat := 0x30400 + 0x20 * n + 0x4 * i
/-- Field DIGEST of SEC_DMR, bits 31:0. -/
def Reg.SEC_DMR.DIGEST (n i : Nat) : Fld := ⟨Reg.SEC_DMR.off n i, 0, 32⟩
/-- SEC_PMR: 15_security_and_cipher.md R403. -/
def Reg.SEC_PMR.off (p i : Nat) : Nat := 0x30800 + 0x20 * p + 0x4 * i
/-- Field DIGEST of SEC_PMR, bits 31:0. -/
def Reg.SEC_PMR.DIGEST (p i : Nat) : Fld := ⟨Reg.SEC_PMR.off p i, 0, 32⟩
/-- SEC_PKEY: 15_security_and_cipher.md R401. -/
def Reg.SEC_PKEY.off (p n i : Nat) : Nat := 0x31000 + 0x80 * p + 0x20 * n + 0x4 * i
/-- Field DIGEST of SEC_PKEY, bits 31:0. -/
def Reg.SEC_PKEY.DIGEST (p n i : Nat) : Fld := ⟨Reg.SEC_PKEY.off p n i, 0, 32⟩
/-- SEC_KEY_ADDR_LO: 15_security_and_cipher.md R421. -/
def Reg.SEC_KEY_ADDR_LO.off (h : Nat) : Nat := 0x33000 + 0x40 * h
/-- Field ADDR_LO of SEC_KEY_ADDR_LO, bits 31:6. -/
def Reg.SEC_KEY_ADDR_LO.ADDR_LO (h : Nat) : Fld := ⟨Reg.SEC_KEY_ADDR_LO.off h, 6, 26⟩
/-- SEC_KEY_ADDR_HI: 15_security_and_cipher.md R421. -/
def Reg.SEC_KEY_ADDR_HI.off (h : Nat) : Nat := 0x33004 + 0x40 * h
/-- Field ADDR_HI of SEC_KEY_ADDR_HI, bits 19:0. -/
def Reg.SEC_KEY_ADDR_HI.ADDR_HI (h : Nat) : Fld := ⟨Reg.SEC_KEY_ADDR_HI.off h, 0, 20⟩
/-- Field SPACE of SEC_KEY_ADDR_HI, bits 31:31. -/
def Reg.SEC_KEY_ADDR_HI.SPACE (h : Nat) : Fld := ⟨Reg.SEC_KEY_ADDR_HI.off h, 31, 1⟩
/-- SEC_KEY_CMD: 15_security_and_cipher.md R421. -/
def Reg.SEC_KEY_CMD.off (h : Nat) : Nat := 0x33008 + 0x40 * h
/-- Field SLOT of SEC_KEY_CMD, bits 11:0. -/
def Reg.SEC_KEY_CMD.SLOT (h : Nat) : Fld := ⟨Reg.SEC_KEY_CMD.off h, 0, 12⟩
/-- Field OP of SEC_KEY_CMD, bits 13:12. -/
def Reg.SEC_KEY_CMD.OP (h : Nat) : Fld := ⟨Reg.SEC_KEY_CMD.off h, 12, 2⟩
/-- Field GO of SEC_KEY_CMD, bits 31:31. -/
def Reg.SEC_KEY_CMD.GO (h : Nat) : Fld := ⟨Reg.SEC_KEY_CMD.off h, 31, 1⟩
/-- SEC_KEY_STS: 15_security_and_cipher.md R421. -/
def Reg.SEC_KEY_STS.off (h : Nat) : Nat := 0x3300C + 0x40 * h
/-- Field BUSY of SEC_KEY_STS, bits 0:0. -/
def Reg.SEC_KEY_STS.BUSY (h : Nat) : Fld := ⟨Reg.SEC_KEY_STS.off h, 0, 1⟩
/-- Field DONE of SEC_KEY_STS, bits 1:1. -/
def Reg.SEC_KEY_STS.DONE (h : Nat) : Fld := ⟨Reg.SEC_KEY_STS.off h, 1, 1⟩
/-- Field RESULT of SEC_KEY_STS, bits 7:4. -/
def Reg.SEC_KEY_STS.RESULT (h : Nat) : Fld := ⟨Reg.SEC_KEY_STS.off h, 4, 4⟩
/-- SEC_KSLOT: 15_security_and_cipher.md R420. -/
def Reg.SEC_KSLOT.off (s : Nat) : Nat := 0x34000 + 0x4 * s
/-- Field VALID of SEC_KSLOT, bits 0:0. -/
def Reg.SEC_KSLOT.VALID (s : Nat) : Fld := ⟨Reg.SEC_KSLOT.off s, 0, 1⟩
/-- Field LEN of SEC_KSLOT, bits 1:1. -/
def Reg.SEC_KSLOT.LEN (s : Nat) : Fld := ⟨Reg.SEC_KSLOT.off s, 1, 1⟩
/-- HOSTIF_QT_BASE_LO: 08_host_interface_and_work_queues.md R216. -/
def Reg.HOSTIF_QT_BASE_LO.off : Nat := 0x40000
/-- Field ADDR_LO of HOSTIF_QT_BASE_LO, bits 31:25. -/
def Reg.HOSTIF_QT_BASE_LO.ADDR_LO : Fld := ⟨Reg.HOSTIF_QT_BASE_LO.off, 25, 7⟩
/-- HOSTIF_QT_BASE_HI: 08_host_interface_and_work_queues.md R216. -/
def Reg.HOSTIF_QT_BASE_HI.off : Nat := 0x40004
/-- Field ADDR_HI of HOSTIF_QT_BASE_HI, bits 19:0. -/
def Reg.HOSTIF_QT_BASE_HI.ADDR_HI : Fld := ⟨Reg.HOSTIF_QT_BASE_HI.off, 0, 20⟩
/-- HOSTIF_QT_CTL: 08_host_interface_and_work_queues.md R216. -/
def Reg.HOSTIF_QT_CTL.off : Nat := 0x40008
/-- Field ENABLE of HOSTIF_QT_CTL, bits 0:0. -/
def Reg.HOSTIF_QT_CTL.ENABLE : Fld := ⟨Reg.HOSTIF_QT_CTL.off, 0, 1⟩
/-- HOSTIF_SHADOW_BASE_LO: 08_host_interface_and_work_queues.md R219. -/
def Reg.HOSTIF_SHADOW_BASE_LO.off : Nat := 0x4000C
/-- Field ADDR_LO of HOSTIF_SHADOW_BASE_LO, bits 31:20. -/
def Reg.HOSTIF_SHADOW_BASE_LO.ADDR_LO : Fld := ⟨Reg.HOSTIF_SHADOW_BASE_LO.off, 20, 12⟩
/-- HOSTIF_SHADOW_BASE_HI: 08_host_interface_and_work_queues.md R219. -/
def Reg.HOSTIF_SHADOW_BASE_HI.off : Nat := 0x40010
/-- Field ADDR_HI of HOSTIF_SHADOW_BASE_HI, bits 19:0. -/
def Reg.HOSTIF_SHADOW_BASE_HI.ADDR_HI : Fld := ⟨Reg.HOSTIF_SHADOW_BASE_HI.off, 0, 20⟩
/-- HOSTIF_SHADOW_SIZE: 08_host_interface_and_work_queues.md R219. -/
def Reg.HOSTIF_SHADOW_SIZE.off : Nat := 0x40014
/-- Field UNITS of HOSTIF_SHADOW_SIZE, bits 12:0. -/
def Reg.HOSTIF_SHADOW_SIZE.UNITS : Fld := ⟨Reg.HOSTIF_SHADOW_SIZE.off, 0, 13⟩
/-- HOSTIF_QSTS: 08_host_interface_and_work_queues.md R216. -/
def Reg.HOSTIF_QSTS.off : Nat := 0x40018
/-- Field QUEUES of HOSTIF_QSTS, bits 20:0. -/
def Reg.HOSTIF_QSTS.QUEUES : Fld := ⟨Reg.HOSTIF_QSTS.off, 0, 21⟩
/-- HOSTIF_PORT_STS: 08_host_interface_and_work_queues.md R209. -/
def Reg.HOSTIF_PORT_STS.off (h : Nat) : Nat := 0x50000 + 0x10000 * h
/-- Field UP of HOSTIF_PORT_STS, bits 0:0. -/
def Reg.HOSTIF_PORT_STS.UP (h : Nat) : Fld := ⟨Reg.HOSTIF_PORT_STS.off h, 0, 1⟩
/-- Field SPEED of HOSTIF_PORT_STS, bits 2:1. -/
def Reg.HOSTIF_PORT_STS.SPEED (h : Nat) : Fld := ⟨Reg.HOSTIF_PORT_STS.off h, 1, 2⟩
/-- Field WIDTH of HOSTIF_PORT_STS, bits 4:3. -/
def Reg.HOSTIF_PORT_STS.WIDTH (h : Nat) : Fld := ⟨Reg.HOSTIF_PORT_STS.off h, 3, 2⟩
/-- Field DOWN of HOSTIF_PORT_STS, bits 5:5. -/
def Reg.HOSTIF_PORT_STS.DOWN (h : Nat) : Fld := ⟨Reg.HOSTIF_PORT_STS.off h, 5, 1⟩
/-- HOSTIF_PORT_CTL: 08_host_interface_and_work_queues.md R207. -/
def Reg.HOSTIF_PORT_CTL.off (h : Nat) : Nat := 0x50004 + 0x10000 * h
/-- Field RO_EN of HOSTIF_PORT_CTL, bits 0:0. -/
def Reg.HOSTIF_PORT_CTL.RO_EN (h : Nat) : Fld := ⟨Reg.HOSTIF_PORT_CTL.off h, 0, 1⟩
/-- HOSTIF_B4_CTL_LO: 08_host_interface_and_work_queues.md R215. -/
def Reg.HOSTIF_B4_CTL_LO.off (h : Nat) : Nat := 0x50010 + 0x10000 * h
/-- Field ENABLE of HOSTIF_B4_CTL_LO, bits 0:0. -/
def Reg.HOSTIF_B4_CTL_LO.ENABLE (h : Nat) : Fld := ⟨Reg.HOSTIF_B4_CTL_LO.off h, 0, 1⟩
/-- Field SPACE of HOSTIF_B4_CTL_LO, bits 2:1. -/
def Reg.HOSTIF_B4_CTL_LO.SPACE (h : Nat) : Fld := ⟨Reg.HOSTIF_B4_CTL_LO.off h, 1, 2⟩
/-- Field PARTITION of HOSTIF_B4_CTL_LO, bits 9:4. -/
def Reg.HOSTIF_B4_CTL_LO.PARTITION (h : Nat) : Fld := ⟨Reg.HOSTIF_B4_CTL_LO.off h, 4, 6⟩
/-- Field OFFSET_LO of HOSTIF_B4_CTL_LO, bits 31:20. -/
def Reg.HOSTIF_B4_CTL_LO.OFFSET_LO (h : Nat) : Fld := ⟨Reg.HOSTIF_B4_CTL_LO.off h, 20, 12⟩
/-- HOSTIF_B4_CTL_HI: 08_host_interface_and_work_queues.md R215. -/
def Reg.HOSTIF_B4_CTL_HI.off (h : Nat) : Nat := 0x50014 + 0x10000 * h
/-- Field OFFSET_HI of HOSTIF_B4_CTL_HI, bits 19:0. -/
def Reg.HOSTIF_B4_CTL_HI.OFFSET_HI (h : Nat) : Fld := ⟨Reg.HOSTIF_B4_CTL_HI.off h, 0, 20⟩
/-- HOSTIF_B4_STS: 08_host_interface_and_work_queues.md R215. -/
def Reg.HOSTIF_B4_STS.off (h : Nat) : Nat := 0x50018 + 0x10000 * h
/-- Field CFG_REJ of HOSTIF_B4_STS, bits 0:0. -/
def Reg.HOSTIF_B4_STS.CFG_REJ (h : Nat) : Fld := ⟨Reg.HOSTIF_B4_STS.off h, 0, 1⟩
/-- HOSTIF_QCMD_ADDR_LO: 08_host_interface_and_work_queues.md R218. -/
def Reg.HOSTIF_QCMD_ADDR_LO.off (h : Nat) : Nat := 0x50020 + 0x10000 * h
/-- Field ADDR_LO of HOSTIF_QCMD_ADDR_LO, bits 31:5. -/
def Reg.HOSTIF_QCMD_ADDR_LO.ADDR_LO (h : Nat) : Fld := ⟨Reg.HOSTIF_QCMD_ADDR_LO.off h, 5, 27⟩
/-- HOSTIF_QCMD_ADDR_HI: 08_host_interface_and_work_queues.md R218. -/
def Reg.HOSTIF_QCMD_ADDR_HI.off (h : Nat) : Nat := 0x50024 + 0x10000 * h
/-- Field ADDR_HI of HOSTIF_QCMD_ADDR_HI, bits 19:0. -/
def Reg.HOSTIF_QCMD_ADDR_HI.ADDR_HI (h : Nat) : Fld := ⟨Reg.HOSTIF_QCMD_ADDR_HI.off h, 0, 20⟩
/-- HOSTIF_QCMD: 08_host_interface_and_work_queues.md R218. -/
def Reg.HOSTIF_QCMD.off (h : Nat) : Nat := 0x50028 + 0x10000 * h
/-- Field QUEUE of HOSTIF_QCMD, bits 19:0. -/
def Reg.HOSTIF_QCMD.QUEUE (h : Nat) : Fld := ⟨Reg.HOSTIF_QCMD.off h, 0, 20⟩
/-- Field OP of HOSTIF_QCMD, bits 22:20. -/
def Reg.HOSTIF_QCMD.OP (h : Nat) : Fld := ⟨Reg.HOSTIF_QCMD.off h, 20, 3⟩
/-- Field GO of HOSTIF_QCMD, bits 31:31. -/
def Reg.HOSTIF_QCMD.GO (h : Nat) : Fld := ⟨Reg.HOSTIF_QCMD.off h, 31, 1⟩
/-- HOSTIF_QCMD_STS: 08_host_interface_and_work_queues.md R218. -/
def Reg.HOSTIF_QCMD_STS.off (h : Nat) : Nat := 0x5002C + 0x10000 * h
/-- Field BUSY of HOSTIF_QCMD_STS, bits 0:0. -/
def Reg.HOSTIF_QCMD_STS.BUSY (h : Nat) : Fld := ⟨Reg.HOSTIF_QCMD_STS.off h, 0, 1⟩
/-- Field DONE of HOSTIF_QCMD_STS, bits 1:1. -/
def Reg.HOSTIF_QCMD_STS.DONE (h : Nat) : Fld := ⟨Reg.HOSTIF_QCMD_STS.off h, 1, 1⟩
/-- Field RESULT of HOSTIF_QCMD_STS, bits 7:4. -/
def Reg.HOSTIF_QCMD_STS.RESULT (h : Nat) : Fld := ⟨Reg.HOSTIF_QCMD_STS.off h, 4, 4⟩
/-- HOSTIF_DCINV: 08_host_interface_and_work_queues.md R225. -/
def Reg.HOSTIF_DCINV.off (h : Nat) : Nat := 0x50030 + 0x10000 * h
/-- Field QUEUE of HOSTIF_DCINV, bits 19:0. -/
def Reg.HOSTIF_DCINV.QUEUE (h : Nat) : Fld := ⟨Reg.HOSTIF_DCINV.off h, 0, 20⟩
/-- Field GO of HOSTIF_DCINV, bits 31:31. -/
def Reg.HOSTIF_DCINV.GO (h : Nat) : Fld := ⟨Reg.HOSTIF_DCINV.off h, 31, 1⟩
/-- HOSTIF_DCINV_STS: 08_host_interface_and_work_queues.md R225. -/
def Reg.HOSTIF_DCINV_STS.off (h : Nat) : Nat := 0x50034 + 0x10000 * h
/-- Field BUSY of HOSTIF_DCINV_STS, bits 0:0. -/
def Reg.HOSTIF_DCINV_STS.BUSY (h : Nat) : Fld := ⟨Reg.HOSTIF_DCINV_STS.off h, 0, 1⟩
/-- Field DONE of HOSTIF_DCINV_STS, bits 1:1. -/
def Reg.HOSTIF_DCINV_STS.DONE (h : Nat) : Fld := ⟨Reg.HOSTIF_DCINV_STS.off h, 1, 1⟩
/-- Field REJ of HOSTIF_DCINV_STS, bits 2:2. -/
def Reg.HOSTIF_DCINV_STS.REJ (h : Nat) : Fld := ⟨Reg.HOSTIF_DCINV_STS.off h, 2, 1⟩
/-- HOSTIF_DB_REJ: 08_host_interface_and_work_queues.md R212. -/
def Reg.HOSTIF_DB_REJ.off (h : Nat) : Nat := 0x50040 + 0x10000 * h
/-- Field COUNT of HOSTIF_DB_REJ, bits 31:0. -/
def Reg.HOSTIF_DB_REJ.COUNT (h : Nat) : Fld := ⟨Reg.HOSTIF_DB_REJ.off h, 0, 32⟩
/-- HOSTIF_DB_AHEAD: 08_host_interface_and_work_queues.md R226. -/
def Reg.HOSTIF_DB_AHEAD.off (h : Nat) : Nat := 0x50044 + 0x10000 * h
/-- Field COUNT of HOSTIF_DB_AHEAD, bits 31:0. -/
def Reg.HOSTIF_DB_AHEAD.COUNT (h : Nat) : Fld := ⟨Reg.HOSTIF_DB_AHEAD.off h, 0, 32⟩
/-- HOSTIF_REFETCH: 08_host_interface_and_work_queues.md R226. -/
def Reg.HOSTIF_REFETCH.off (h : Nat) : Nat := 0x50048 + 0x10000 * h
/-- Field COUNT of HOSTIF_REFETCH, bits 31:0. -/
def Reg.HOSTIF_REFETCH.COUNT (h : Nat) : Fld := ⟨Reg.HOSTIF_REFETCH.off h, 0, 32⟩
/-- HOSTIF_MALFORMED: 08_host_interface_and_work_queues.md R230. -/
def Reg.HOSTIF_MALFORMED.off (h : Nat) : Nat := 0x5004C + 0x10000 * h
/-- Field COUNT of HOSTIF_MALFORMED, bits 31:0. -/
def Reg.HOSTIF_MALFORMED.COUNT (h : Nat) : Fld := ⟨Reg.HOSTIF_MALFORMED.off h, 0, 32⟩
/-- HOSTIF_CQ_FULL: 08_host_interface_and_work_queues.md R235. -/
def Reg.HOSTIF_CQ_FULL.off (h : Nat) : Nat := 0x50050 + 0x10000 * h
/-- Field COUNT of HOSTIF_CQ_FULL, bits 31:0. -/
def Reg.HOSTIF_CQ_FULL.COUNT (h : Nat) : Fld := ⟨Reg.HOSTIF_CQ_FULL.off h, 0, 32⟩
/-- HOSTIF_B4_HOLE: 08_host_interface_and_work_queues.md R214. -/
def Reg.HOSTIF_B4_HOLE.off (h : Nat) : Nat := 0x50054 + 0x10000 * h
/-- Field COUNT of HOSTIF_B4_HOLE, bits 31:0. -/
def Reg.HOSTIF_B4_HOLE.COUNT (h : Nat) : Fld := ⟨Reg.HOSTIF_B4_HOLE.off h, 0, 32⟩
/-- HOSTIF_MSIX_ADDR_LO: 08_host_interface_and_work_queues.md R240. -/
def Reg.HOSTIF_MSIX_ADDR_LO.off (h v : Nat) : Nat := 0x58000 + 0x10000 * h + 0x10 * v
/-- Field ADDR of HOSTIF_MSIX_ADDR_LO, bits 31:2. -/
def Reg.HOSTIF_MSIX_ADDR_LO.ADDR (h v : Nat) : Fld := ⟨Reg.HOSTIF_MSIX_ADDR_LO.off h v, 2, 30⟩
/-- HOSTIF_MSIX_ADDR_HI: 08_host_interface_and_work_queues.md R240. -/
def Reg.HOSTIF_MSIX_ADDR_HI.off (h v : Nat) : Nat := 0x58004 + 0x10000 * h + 0x10 * v
/-- Field ADDR of HOSTIF_MSIX_ADDR_HI, bits 31:0. -/
def Reg.HOSTIF_MSIX_ADDR_HI.ADDR (h v : Nat) : Fld := ⟨Reg.HOSTIF_MSIX_ADDR_HI.off h v, 0, 32⟩
/-- HOSTIF_MSIX_DATA: 08_host_interface_and_work_queues.md R240. -/
def Reg.HOSTIF_MSIX_DATA.off (h v : Nat) : Nat := 0x58008 + 0x10000 * h + 0x10 * v
/-- Field DATA of HOSTIF_MSIX_DATA, bits 31:0. -/
def Reg.HOSTIF_MSIX_DATA.DATA (h v : Nat) : Fld := ⟨Reg.HOSTIF_MSIX_DATA.off h v, 0, 32⟩
/-- HOSTIF_MSIX_CTL: 08_host_interface_and_work_queues.md R240. -/
def Reg.HOSTIF_MSIX_CTL.off (h v : Nat) : Nat := 0x5800C + 0x10000 * h + 0x10 * v
/-- Field MASK of HOSTIF_MSIX_CTL, bits 0:0. -/
def Reg.HOSTIF_MSIX_CTL.MASK (h v : Nat) : Fld := ⟨Reg.HOSTIF_MSIX_CTL.off h v, 0, 1⟩
/-- HOSTIF_MSIX_PBA: 08_host_interface_and_work_queues.md R240. -/
def Reg.HOSTIF_MSIX_PBA.off (h i : Nat) : Nat := 0x5C000 + 0x10000 * h + 0x4 * i
/-- Field PENDING of HOSTIF_MSIX_PBA, bits 31:0. -/
def Reg.HOSTIF_MSIX_PBA.PENDING (h i : Nat) : Fld := ⟨Reg.HOSTIF_MSIX_PBA.off h i, 0, 32⟩
/-- PART_HOST_CTL: 09_partitions_instances_migration.md R255. -/
def Reg.PART_HOST_CTL.off (h : Nat) : Nat := 0x80000 + 0x20 * h
/-- Field ORPHAN_MS of PART_HOST_CTL, bits 15:0. -/
def Reg.PART_HOST_CTL.ORPHAN_MS (h : Nat) : Fld := ⟨Reg.PART_HOST_CTL.off h, 0, 16⟩
/-- Field WDOG_MS of PART_HOST_CTL, bits 31:16. -/
def Reg.PART_HOST_CTL.WDOG_MS (h : Nat) : Fld := ⟨Reg.PART_HOST_CTL.off h, 16, 16⟩
/-- PART_HOST_KICK: 09_partitions_instances_migration.md R255. -/
def Reg.PART_HOST_KICK.off (h : Nat) : Nat := 0x80004 + 0x20 * h
/-- Field KICK of PART_HOST_KICK, bits 0:0. -/
def Reg.PART_HOST_KICK.KICK (h : Nat) : Fld := ⟨Reg.PART_HOST_KICK.off h, 0, 1⟩
/-- PART_HOST_STS: 09_partitions_instances_migration.md R256. -/
def Reg.PART_HOST_STS.off (h : Nat) : Nat := 0x80008 + 0x20 * h
/-- Field LOST of PART_HOST_STS, bits 0:0. -/
def Reg.PART_HOST_STS.LOST (h : Nat) : Fld := ⟨Reg.PART_HOST_STS.off h, 0, 1⟩
/-- Field LOST_EVT of PART_HOST_STS, bits 1:1. -/
def Reg.PART_HOST_STS.LOST_EVT (h : Nat) : Fld := ⟨Reg.PART_HOST_STS.off h, 1, 1⟩
/-- Field WDOG_EXP of PART_HOST_STS, bits 2:2. -/
def Reg.PART_HOST_STS.WDOG_EXP (h : Nat) : Fld := ⟨Reg.PART_HOST_STS.off h, 2, 1⟩
/-- PART_HOST_PORTS_LO: 09_partitions_instances_migration.md R266. -/
def Reg.PART_HOST_PORTS_LO.off (h : Nat) : Nat := 0x8000C + 0x20 * h
/-- Field PORTS of PART_HOST_PORTS_LO, bits 31:0. -/
def Reg.PART_HOST_PORTS_LO.PORTS (h : Nat) : Fld := ⟨Reg.PART_HOST_PORTS_LO.off h, 0, 32⟩
/-- PART_HOST_PORTS_HI: 09_partitions_instances_migration.md R266. -/
def Reg.PART_HOST_PORTS_HI.off (h : Nat) : Nat := 0x80010 + 0x20 * h
/-- Field PORTS of PART_HOST_PORTS_HI, bits 31:0. -/
def Reg.PART_HOST_PORTS_HI.PORTS (h : Nat) : Fld := ⟨Reg.PART_HOST_PORTS_HI.off h, 0, 32⟩
/-- PART_HOST_CLUSTERS_LO: 09_partitions_instances_migration.md R266. -/
def Reg.PART_HOST_CLUSTERS_LO.off (h : Nat) : Nat := 0x80014 + 0x20 * h
/-- Field CLUSTERS of PART_HOST_CLUSTERS_LO, bits 31:0. -/
def Reg.PART_HOST_CLUSTERS_LO.CLUSTERS (h : Nat) : Fld := ⟨Reg.PART_HOST_CLUSTERS_LO.off h, 0, 32⟩
/-- PART_HOST_CLUSTERS_HI: 09_partitions_instances_migration.md R266. -/
def Reg.PART_HOST_CLUSTERS_HI.off (h : Nat) : Nat := 0x80018 + 0x20 * h
/-- Field CLUSTERS of PART_HOST_CLUSTERS_HI, bits 31:0. -/
def Reg.PART_HOST_CLUSTERS_HI.CLUSTERS (h : Nat) : Fld := ⟨Reg.PART_HOST_CLUSTERS_HI.off h, 0, 32⟩
/-- PART_ALLOC: 09_partitions_instances_migration.md R250. -/
def Reg.PART_ALLOC.off (p : Nat) : Nat := 0x81000 + 0x40 * p
/-- Field CLAIM of PART_ALLOC, bits 0:0. -/
def Reg.PART_ALLOC.CLAIM (p : Nat) : Fld := ⟨Reg.PART_ALLOC.off p, 0, 1⟩
/-- Field OWNER of PART_ALLOC, bits 1:1. -/
def Reg.PART_ALLOC.OWNER (p : Nat) : Fld := ⟨Reg.PART_ALLOC.off p, 1, 1⟩
/-- Field STREAM of PART_ALLOC, bits 2:2. -/
def Reg.PART_ALLOC.STREAM (p : Nat) : Fld := ⟨Reg.PART_ALLOC.off p, 2, 1⟩
/-- Field PROG of PART_ALLOC, bits 3:3. -/
def Reg.PART_ALLOC.PROG (p : Nat) : Fld := ⟨Reg.PART_ALLOC.off p, 3, 1⟩
/-- Field SAVE of PART_ALLOC, bits 4:4. -/
def Reg.PART_ALLOC.SAVE (p : Nat) : Fld := ⟨Reg.PART_ALLOC.off p, 4, 1⟩
/-- PART_CTL: 09_partitions_instances_migration.md R242. -/
def Reg.PART_CTL.off (p : Nat) : Nat := 0x81004 + 0x40 * p
/-- Field SEAL of PART_CTL, bits 0:0. -/
def Reg.PART_CTL.SEAL (p : Nat) : Fld := ⟨Reg.PART_CTL.off p, 0, 1⟩
/-- Field RESUME of PART_CTL, bits 1:1. -/
def Reg.PART_CTL.RESUME (p : Nat) : Fld := ⟨Reg.PART_CTL.off p, 1, 1⟩
/-- Field RESET of PART_CTL, bits 2:2. -/
def Reg.PART_CTL.RESET (p : Nat) : Fld := ⟨Reg.PART_CTL.off p, 2, 1⟩
/-- Field RELEASE of PART_CTL, bits 3:3. -/
def Reg.PART_CTL.RELEASE (p : Nat) : Fld := ⟨Reg.PART_CTL.off p, 3, 1⟩
/-- PART_STS: 09_partitions_instances_migration.md R242. -/
def Reg.PART_STS.off (p : Nat) : Nat := 0x81008 + 0x40 * p
/-- Field STATE of PART_STS, bits 2:0. -/
def Reg.PART_STS.STATE (p : Nat) : Fld := ⟨Reg.PART_STS.off p, 0, 3⟩
/-- Field ORPHAN of PART_STS, bits 3:3. -/
def Reg.PART_STS.ORPHAN (p : Nat) : Fld := ⟨Reg.PART_STS.off p, 3, 1⟩
/-- Field BUSY of PART_STS, bits 4:4. -/
def Reg.PART_STS.BUSY (p : Nat) : Fld := ⟨Reg.PART_STS.off p, 4, 1⟩
/-- Field CFG_REJ of PART_STS, bits 5:5. -/
def Reg.PART_STS.CFG_REJ (p : Nat) : Fld := ⟨Reg.PART_STS.off p, 5, 1⟩
/-- Field INSTANCES of PART_STS, bits 25:16. -/
def Reg.PART_STS.INSTANCES (p : Nat) : Fld := ⟨Reg.PART_STS.off p, 16, 10⟩
/-- PART_ENERGY: 09_partitions_instances_migration.md R250. -/
def Reg.PART_ENERGY.off (p : Nat) : Nat := 0x8100C + 0x40 * p
/-- Field MW of PART_ENERGY, bits 19:0. -/
def Reg.PART_ENERGY.MW (p : Nat) : Fld := ⟨Reg.PART_ENERGY.off p, 0, 20⟩
/-- PART_KEYS: 09_partitions_instances_migration.md R247. -/
def Reg.PART_KEYS.off (p : Nat) : Nat := 0x81010 + 0x40 * p
/-- Field BASE of PART_KEYS, bits 11:0. -/
def Reg.PART_KEYS.BASE (p : Nat) : Fld := ⟨Reg.PART_KEYS.off p, 0, 12⟩
/-- Field NUM of PART_KEYS, bits 24:12. -/
def Reg.PART_KEYS.NUM (p : Nat) : Fld := ⟨Reg.PART_KEYS.off p, 12, 13⟩
/-- PART_AV_BASE_LO: 09_partitions_instances_migration.md R247. -/
def Reg.PART_AV_BASE_LO.off (p : Nat) : Nat := 0x81014 + 0x40 * p
/-- Field ADDR_LO of PART_AV_BASE_LO, bits 31:12. -/
def Reg.PART_AV_BASE_LO.ADDR_LO (p : Nat) : Fld := ⟨Reg.PART_AV_BASE_LO.off p, 12, 20⟩
/-- PART_AV_BASE_HI: 09_partitions_instances_migration.md R247. -/
def Reg.PART_AV_BASE_HI.off (p : Nat) : Nat := 0x81018 + 0x40 * p
/-- Field ADDR_HI of PART_AV_BASE_HI, bits 19:0. -/
def Reg.PART_AV_BASE_HI.ADDR_HI (p : Nat) : Fld := ⟨Reg.PART_AV_BASE_HI.off p, 0, 20⟩
/-- PART_AV_NUM: 09_partitions_instances_migration.md R247. -/
def Reg.PART_AV_NUM.off (p : Nat) : Nat := 0x8101C + 0x40 * p
/-- Field NUM of PART_AV_NUM, bits 19:0. -/
def Reg.PART_AV_NUM.NUM (p : Nat) : Fld := ⟨Reg.PART_AV_NUM.off p, 0, 20⟩
/-- PART_APT_BASE_LO: 09_partitions_instances_migration.md R249. -/
def Reg.PART_APT_BASE_LO.off (p n : Nat) : Nat := 0x82000 + 0x80 * p + 0x10 * n
/-- Field VALID of PART_APT_BASE_LO, bits 0:0. -/
def Reg.PART_APT_BASE_LO.VALID (p n : Nat) : Fld := ⟨Reg.PART_APT_BASE_LO.off p n, 0, 1⟩
/-- Field BASE_LO of PART_APT_BASE_LO, bits 31:12. -/
def Reg.PART_APT_BASE_LO.BASE_LO (p n : Nat) : Fld := ⟨Reg.PART_APT_BASE_LO.off p n, 12, 20⟩
/-- PART_APT_BASE_HI: 09_partitions_instances_migration.md R249. -/
def Reg.PART_APT_BASE_HI.off (p n : Nat) : Nat := 0x82004 + 0x80 * p + 0x10 * n
/-- Field BASE_HI of PART_APT_BASE_HI, bits 19:0. -/
def Reg.PART_APT_BASE_HI.BASE_HI (p n : Nat) : Fld := ⟨Reg.PART_APT_BASE_HI.off p n, 0, 20⟩
/-- PART_APT_LIMIT_LO: 09_partitions_instances_migration.md R249. -/
def Reg.PART_APT_LIMIT_LO.off (p n : Nat) : Nat := 0x82008 + 0x80 * p + 0x10 * n
/-- Field LIMIT_LO of PART_APT_LIMIT_LO, bits 31:12. -/
def Reg.PART_APT_LIMIT_LO.LIMIT_LO (p n : Nat) : Fld := ⟨Reg.PART_APT_LIMIT_LO.off p n, 12, 20⟩
/-- PART_APT_LIMIT_HI: 09_partitions_instances_migration.md R249. -/
def Reg.PART_APT_LIMIT_HI.off (p n : Nat) : Nat := 0x8200C + 0x80 * p + 0x10 * n
/-- Field LIMIT_HI of PART_APT_LIMIT_HI, bits 19:0. -/
def Reg.PART_APT_LIMIT_HI.LIMIT_HI (p n : Nat) : Fld := ⟨Reg.PART_APT_LIMIT_HI.off p n, 0, 20⟩
/-- PART_PSHARE: 09_partitions_instances_migration.md R247. -/
def Reg.PART_PSHARE.off (p n : Nat) : Nat := 0x84000 + 0x40 * p + 0x4 * n
/-- Field PORT of PART_PSHARE, bits 5:0. -/
def Reg.PART_PSHARE.PORT (p n : Nat) : Fld := ⟨Reg.PART_PSHARE.off p n, 0, 6⟩
/-- Field SUBPORT of PART_PSHARE, bits 7:6. -/
def Reg.PART_PSHARE.SUBPORT (p n : Nat) : Fld := ⟨Reg.PART_PSHARE.off p n, 6, 2⟩
/-- Field CLASSES of PART_PSHARE, bits 15:8. -/
def Reg.PART_PSHARE.CLASSES (p n : Nat) : Fld := ⟨Reg.PART_PSHARE.off p n, 8, 8⟩
/-- Field GATES of PART_PSHARE, bits 28:16. -/
def Reg.PART_PSHARE.GATES (p n : Nat) : Fld := ⟨Reg.PART_PSHARE.off p n, 16, 13⟩
/-- Field WHOLE of PART_PSHARE, bits 29:29. -/
def Reg.PART_PSHARE.WHOLE (p n : Nat) : Fld := ⟨Reg.PART_PSHARE.off p n, 29, 1⟩
/-- Field VALID of PART_PSHARE, bits 31:31. -/
def Reg.PART_PSHARE.VALID (p n : Nat) : Fld := ⟨Reg.PART_PSHARE.off p n, 31, 1⟩
/-- PART_CORES_LO: 09_partitions_instances_migration.md R247. -/
def Reg.PART_CORES_LO.off (p k : Nat) : Nat := 0x90000 + 0x200 * p + 0x8 * k
/-- Field CORES of PART_CORES_LO, bits 31:0. -/
def Reg.PART_CORES_LO.CORES (p k : Nat) : Fld := ⟨Reg.PART_CORES_LO.off p k, 0, 32⟩
/-- PART_CORES_HI: 09_partitions_instances_migration.md R247. -/
def Reg.PART_CORES_HI.off (p k : Nat) : Nat := 0x90004 + 0x200 * p + 0x8 * k
/-- Field CORES of PART_CORES_HI, bits 31:0. -/
def Reg.PART_CORES_HI.CORES (p k : Nat) : Fld := ⟨Reg.PART_CORES_HI.off p k, 0, 32⟩
/-- PART_INST: 09_partitions_instances_migration.md R251. -/
def Reg.PART_INST.off (i : Nat) : Nat := 0xA0000 + 0x4 * i
/-- Field PARTITION of PART_INST, bits 5:0. -/
def Reg.PART_INST.PARTITION (i : Nat) : Fld := ⟨Reg.PART_INST.off i, 0, 6⟩
/-- Field STATE of PART_INST, bits 7:6. -/
def Reg.PART_INST.STATE (i : Nat) : Fld := ⟨Reg.PART_INST.off i, 6, 2⟩
/-- PART_CMD_ADDR_LO: 09_partitions_instances_migration.md R266. -/
def Reg.PART_CMD_ADDR_LO.off (h : Nat) : Nat := 0xB0000 + 0x100 * h
/-- Field ADDR_LO of PART_CMD_ADDR_LO, bits 31:12. -/
def Reg.PART_CMD_ADDR_LO.ADDR_LO (h : Nat) : Fld := ⟨Reg.PART_CMD_ADDR_LO.off h, 12, 20⟩
/-- PART_CMD_ADDR_HI: 09_partitions_instances_migration.md R266. -/
def Reg.PART_CMD_ADDR_HI.off (h : Nat) : Nat := 0xB0004 + 0x100 * h
/-- Field ADDR_HI of PART_CMD_ADDR_HI, bits 19:0. -/
def Reg.PART_CMD_ADDR_HI.ADDR_HI (h : Nat) : Fld := ⟨Reg.PART_CMD_ADDR_HI.off h, 0, 20⟩
/-- Field SPACE of PART_CMD_ADDR_HI, bits 31:31. -/
def Reg.PART_CMD_ADDR_HI.SPACE (h : Nat) : Fld := ⟨Reg.PART_CMD_ADDR_HI.off h, 31, 1⟩
/-- PART_CMD_LEN: 09_partitions_instances_migration.md R266. -/
def Reg.PART_CMD_LEN.off (h : Nat) : Nat := 0xB0008 + 0x100 * h
/-- Field PAGES of PART_CMD_LEN, bits 14:0. -/
def Reg.PART_CMD_LEN.PAGES (h : Nat) : Fld := ⟨Reg.PART_CMD_LEN.off h, 0, 15⟩
/-- PART_CMD: 09_partitions_instances_migration.md R252. -/
def Reg.PART_CMD.off (h : Nat) : Nat := 0xB000C + 0x100 * h
/-- Field OP of PART_CMD, bits 3:0. -/
def Reg.PART_CMD.OP (h : Nat) : Fld := ⟨Reg.PART_CMD.off h, 0, 4⟩
/-- Field SCOPE of PART_CMD, bits 4:4. -/
def Reg.PART_CMD.SCOPE (h : Nat) : Fld := ⟨Reg.PART_CMD.off h, 4, 1⟩
/-- Field PARTITION of PART_CMD, bits 10:5. -/
def Reg.PART_CMD.PARTITION (h : Nat) : Fld := ⟨Reg.PART_CMD.off h, 5, 6⟩
/-- Field INSTANCE of PART_CMD, bits 20:11. -/
def Reg.PART_CMD.INSTANCE (h : Nat) : Fld := ⟨Reg.PART_CMD.off h, 11, 10⟩
/-- Field GO of PART_CMD, bits 31:31. -/
def Reg.PART_CMD.GO (h : Nat) : Fld := ⟨Reg.PART_CMD.off h, 31, 1⟩
/-- PART_CMD_KEY: 09_partitions_instances_migration.md R262. -/
def Reg.PART_CMD_KEY.off (h : Nat) : Nat := 0xB0010 + 0x100 * h
/-- Field KEY of PART_CMD_KEY, bits 11:0. -/
def Reg.PART_CMD_KEY.KEY (h : Nat) : Fld := ⟨Reg.PART_CMD_KEY.off h, 0, 12⟩
/-- PART_CMD_STS: 09_partitions_instances_migration.md R252. -/
def Reg.PART_CMD_STS.off (h : Nat) : Nat := 0xB0014 + 0x100 * h
/-- Field BUSY of PART_CMD_STS, bits 0:0. -/
def Reg.PART_CMD_STS.BUSY (h : Nat) : Fld := ⟨Reg.PART_CMD_STS.off h, 0, 1⟩
/-- Field DONE of PART_CMD_STS, bits 1:1. -/
def Reg.PART_CMD_STS.DONE (h : Nat) : Fld := ⟨Reg.PART_CMD_STS.off h, 1, 1⟩
/-- Field RESULT of PART_CMD_STS, bits 7:4. -/
def Reg.PART_CMD_STS.RESULT (h : Nat) : Fld := ⟨Reg.PART_CMD_STS.off h, 4, 4⟩
/-- PART_CMD_BYTES: 09_partitions_instances_migration.md R262. -/
def Reg.PART_CMD_BYTES.off (h : Nat) : Nat := 0xB0018 + 0x100 * h
/-- Field BYTES of PART_CMD_BYTES, bits 31:0. -/
def Reg.PART_CMD_BYTES.BYTES (h : Nat) : Fld := ⟨Reg.PART_CMD_BYTES.off h, 0, 32⟩
/-- WIN_STS: 07_memory_windows.md R205. -/
def Reg.WIN_STS.off : Nat := 0xC0000
/-- Field OPEN of WIN_STS, bits 20:0. -/
def Reg.WIN_STS.OPEN : Fld := ⟨Reg.WIN_STS.off, 0, 21⟩
/-- Field PARK_REJ of WIN_STS, bits 21:21. -/
def Reg.WIN_STS.PARK_REJ : Fld := ⟨Reg.WIN_STS.off, 21, 1⟩
/-- SHEEP_PARK_BASE_LO: 07_memory_windows.md R193. -/
def Reg.SHEEP_PARK_BASE_LO.off : Nat := 0xC0010
/-- Field ADDR_LO of SHEEP_PARK_BASE_LO, bits 31:20. -/
def Reg.SHEEP_PARK_BASE_LO.ADDR_LO : Fld := ⟨Reg.SHEEP_PARK_BASE_LO.off, 20, 12⟩
/-- SHEEP_PARK_BASE_HI: 07_memory_windows.md R193. -/
def Reg.SHEEP_PARK_BASE_HI.off : Nat := 0xC0014
/-- Field ADDR_HI of SHEEP_PARK_BASE_HI, bits 19:0. -/
def Reg.SHEEP_PARK_BASE_HI.ADDR_HI : Fld := ⟨Reg.SHEEP_PARK_BASE_HI.off, 0, 20⟩
/-- SHEEP_PARK_SIZE: 07_memory_windows.md R193. -/
def Reg.SHEEP_PARK_SIZE.off : Nat := 0xC0018
/-- Field UNITS of SHEEP_PARK_SIZE, bits 12:0. -/
def Reg.SHEEP_PARK_SIZE.UNITS : Fld := ⟨Reg.SHEEP_PARK_SIZE.off, 0, 13⟩
/-- WIN_SHARE: 07_memory_windows.md R205. -/
def Reg.WIN_SHARE.off (p : Nat) : Nat := 0xC1000 + 0x20 * p
/-- Field WINDOWS of WIN_SHARE, bits 20:0. -/
def Reg.WIN_SHARE.WINDOWS (p : Nat) : Fld := ⟨Reg.WIN_SHARE.off p, 0, 21⟩
/-- WIN_HELD: 07_memory_windows.md R178. -/
def Reg.WIN_HELD.off (p : Nat) : Nat := 0xC1004 + 0x20 * p
/-- Field COUNT of WIN_HELD, bits 20:0. -/
def Reg.WIN_HELD.COUNT (p : Nat) : Fld := ⟨Reg.WIN_HELD.off p, 0, 21⟩
/-- WIN_REVOKE: 07_memory_windows.md R185. -/
def Reg.WIN_REVOKE.off (p : Nat) : Nat := 0xC1008 + 0x20 * p
/-- Field KEY of WIN_REVOKE, bits 31:0. -/
def Reg.WIN_REVOKE.KEY (p : Nat) : Fld := ⟨Reg.WIN_REVOKE.off p, 0, 32⟩
/-- WIN_REVOKE_STS: 07_memory_windows.md R188. -/
def Reg.WIN_REVOKE_STS.off (p : Nat) : Nat := 0xC100C + 0x20 * p
/-- Field BUSY of WIN_REVOKE_STS, bits 0:0. -/
def Reg.WIN_REVOKE_STS.BUSY (p : Nat) : Fld := ⟨Reg.WIN_REVOKE_STS.off p, 0, 1⟩
/-- Field DONE of WIN_REVOKE_STS, bits 1:1. -/
def Reg.WIN_REVOKE_STS.DONE (p : Nat) : Fld := ⟨Reg.WIN_REVOKE_STS.off p, 1, 1⟩
/-- Field REJ of WIN_REVOKE_STS, bits 2:2. -/
def Reg.WIN_REVOKE_STS.REJ (p : Nat) : Fld := ⟨Reg.WIN_REVOKE_STS.off p, 2, 1⟩
/-- TRIG_BASE: 07_memory_windows.md R200. -/
def Reg.TRIG_BASE.off (p : Nat) : Nat := 0xC1010 + 0x20 * p
/-- Field BASE of TRIG_BASE, bits 15:0. -/
def Reg.TRIG_BASE.BASE (p : Nat) : Fld := ⟨Reg.TRIG_BASE.off p, 0, 16⟩
/-- TRIG_NUM: 07_memory_windows.md R200. -/
def Reg.TRIG_NUM.off (p : Nat) : Nat := 0xC1014 + 0x20 * p
/-- Field NUM of TRIG_NUM, bits 16:0. -/
def Reg.TRIG_NUM.NUM (p : Nat) : Fld := ⟨Reg.TRIG_NUM.off p, 0, 17⟩
/-- WIN_PSTS: 07_memory_windows.md R200. -/
def Reg.WIN_PSTS.off (p : Nat) : Nat := 0xC1018 + 0x20 * p
/-- Field CFG_REJ of WIN_PSTS, bits 0:0. -/
def Reg.WIN_PSTS.CFG_REJ (p : Nat) : Fld := ⟨Reg.WIN_PSTS.off p, 0, 1⟩
/-- WIN_NOSLOT: 07_memory_windows.md R178. -/
def Reg.WIN_NOSLOT.off (p : Nat) : Nat := 0xC101C + 0x20 * p
/-- Field COUNT of WIN_NOSLOT, bits 31:0. -/
def Reg.WIN_NOSLOT.COUNT (p : Nat) : Fld := ⟨Reg.WIN_NOSLOT.off p, 0, 32⟩
/-- PART_CID_REJ: 07_memory_windows.md R183. -/
def Reg.PART_CID_REJ.off (p : Nat) : Nat := 0xC2000 + 0x10 * p
/-- Field COUNT of PART_CID_REJ, bits 31:0. -/
def Reg.PART_CID_REJ.COUNT (p : Nat) : Fld := ⟨Reg.PART_CID_REJ.off p, 0, 32⟩
/-- TRIG_STALE: 07_memory_windows.md R202. -/
def Reg.TRIG_STALE.off (p : Nat) : Nat := 0xC2004 + 0x10 * p
/-- Field COUNT of TRIG_STALE, bits 31:0. -/
def Reg.TRIG_STALE.COUNT (p : Nat) : Fld := ⟨Reg.TRIG_STALE.off p, 0, 32⟩
/-- SHEEP_RING_LO: 07_memory_windows.md R194. -/
def Reg.SHEEP_RING_LO.off (h : Nat) : Nat := 0xD0000 + 0x100 * h
/-- Field BASE_LO of SHEEP_RING_LO, bits 31:5. -/
def Reg.SHEEP_RING_LO.BASE_LO (h : Nat) : Fld := ⟨Reg.SHEEP_RING_LO.off h, 5, 27⟩
/-- SHEEP_RING_HI: 07_memory_windows.md R194. -/
def Reg.SHEEP_RING_HI.off (h : Nat) : Nat := 0xD0004 + 0x100 * h
/-- Field BASE_HI of SHEEP_RING_HI, bits 19:0. -/
def Reg.SHEEP_RING_HI.BASE_HI (h : Nat) : Fld := ⟨Reg.SHEEP_RING_HI.off h, 0, 20⟩
/-- SHEEP_RING_CTL: 07_memory_windows.md R194. -/
def Reg.SHEEP_RING_CTL.off (h : Nat) : Nat := 0xD0008 + 0x100 * h
/-- Field ENABLE of SHEEP_RING_CTL, bits 0:0. -/
def Reg.SHEEP_RING_CTL.ENABLE (h : Nat) : Fld := ⟨Reg.SHEEP_RING_CTL.off h, 0, 1⟩
/-- Field LOG2_SIZE of SHEEP_RING_CTL, bits 5:1. -/
def Reg.SHEEP_RING_CTL.LOG2_SIZE (h : Nat) : Fld := ⟨Reg.SHEEP_RING_CTL.off h, 1, 5⟩
/-- SHEEP_PROD: 07_memory_windows.md R194. -/
def Reg.SHEEP_PROD.off (h : Nat) : Nat := 0xD000C + 0x100 * h
/-- Field INDEX of SHEEP_PROD, bits 15:0. -/
def Reg.SHEEP_PROD.INDEX (h : Nat) : Fld := ⟨Reg.SHEEP_PROD.off h, 0, 16⟩
/-- SHEEP_CONS: 07_memory_windows.md R194. -/
def Reg.SHEEP_CONS.off (h : Nat) : Nat := 0xD0010 + 0x100 * h
/-- Field INDEX of SHEEP_CONS, bits 15:0. -/
def Reg.SHEEP_CONS.INDEX (h : Nat) : Fld := ⟨Reg.SHEEP_CONS.off h, 0, 16⟩
/-- SHEEP_RESOLVE: 07_memory_windows.md R197. -/
def Reg.SHEEP_RESOLVE.off (h : Nat) : Nat := 0xD0014 + 0x100 * h
/-- Field FAULT_ID of SHEEP_RESOLVE, bits 11:0. -/
def Reg.SHEEP_RESOLVE.FAULT_ID (h : Nat) : Fld := ⟨Reg.SHEEP_RESOLVE.off h, 0, 12⟩
/-- Field FAIL of SHEEP_RESOLVE, bits 16:16. -/
def Reg.SHEEP_RESOLVE.FAIL (h : Nat) : Fld := ⟨Reg.SHEEP_RESOLVE.off h, 16, 1⟩
/-- SHEEP_TIMEOUT: 07_memory_windows.md R198. -/
def Reg.SHEEP_TIMEOUT.off (h : Nat) : Nat := 0xD0018 + 0x100 * h
/-- Field MS of SHEEP_TIMEOUT, bits 15:0. -/
def Reg.SHEEP_TIMEOUT.MS (h : Nat) : Fld := ⟨Reg.SHEEP_TIMEOUT.off h, 0, 16⟩
/-- SHEEP_STS: 07_memory_windows.md R195. -/
def Reg.SHEEP_STS.off (h : Nat) : Nat := 0xD001C + 0x100 * h
/-- Field OUTSTANDING of SHEEP_STS, bits 12:0. -/
def Reg.SHEEP_STS.OUTSTANDING (h : Nat) : Fld := ⟨Reg.SHEEP_STS.off h, 0, 13⟩
/-- SHEEP_JOIN: 07_memory_windows.md R195. -/
def Reg.SHEEP_JOIN.off (h : Nat) : Nat := 0xD0020 + 0x100 * h
/-- Field COUNT of SHEEP_JOIN, bits 31:0. -/
def Reg.SHEEP_JOIN.COUNT (h : Nat) : Fld := ⟨Reg.SHEEP_JOIN.off h, 0, 32⟩
/-- SHEEP_TIMEOUT_CNT: 07_memory_windows.md R198. -/
def Reg.SHEEP_TIMEOUT_CNT.off (h : Nat) : Nat := 0xD0024 + 0x100 * h
/-- Field COUNT of SHEEP_TIMEOUT_CNT, bits 31:0. -/
def Reg.SHEEP_TIMEOUT_CNT.COUNT (h : Nat) : Fld := ⟨Reg.SHEEP_TIMEOUT_CNT.off h, 0, 32⟩
/-- SHEEP_RESOLVE_REJ: 07_memory_windows.md R199. -/
def Reg.SHEEP_RESOLVE_REJ.off (h : Nat) : Nat := 0xD0028 + 0x100 * h
/-- Field COUNT of SHEEP_RESOLVE_REJ, bits 31:0. -/
def Reg.SHEEP_RESOLVE_REJ.COUNT (h : Nat) : Fld := ⟨Reg.SHEEP_RESOLVE_REJ.off h, 0, 32⟩
/-- SCHED_STS: 05_schedules_and_admission.md R144. -/
def Reg.SCHED_STS.off : Nat := 0x100000
/-- Field ANY_ACTIVE of SCHED_STS, bits 0:0. -/
def Reg.SCHED_STS.ANY_ACTIVE : Fld := ⟨Reg.SCHED_STS.off, 0, 1⟩
/-- Field ANY_PENDING of SCHED_STS, bits 1:1. -/
def Reg.SCHED_STS.ANY_PENDING : Fld := ⟨Reg.SCHED_STS.off, 1, 1⟩
/-- SCHED_ACTIVE_LO: 05_schedules_and_admission.md R144. -/
def Reg.SCHED_ACTIVE_LO.off : Nat := 0x100008
/-- Field PARTS of SCHED_ACTIVE_LO, bits 31:0. -/
def Reg.SCHED_ACTIVE_LO.PARTS : Fld := ⟨Reg.SCHED_ACTIVE_LO.off, 0, 32⟩
/-- SCHED_ACTIVE_HI: 05_schedules_and_admission.md R144. -/
def Reg.SCHED_ACTIVE_HI.off : Nat := 0x10000C
/-- Field PARTS of SCHED_ACTIVE_HI, bits 31:0. -/
def Reg.SCHED_ACTIVE_HI.PARTS : Fld := ⟨Reg.SCHED_ACTIVE_HI.off, 0, 32⟩
/-- SCHED_PENDING_LO: 05_schedules_and_admission.md R144. -/
def Reg.SCHED_PENDING_LO.off : Nat := 0x100010
/-- Field PARTS of SCHED_PENDING_LO, bits 31:0. -/
def Reg.SCHED_PENDING_LO.PARTS : Fld := ⟨Reg.SCHED_PENDING_LO.off, 0, 32⟩
/-- SCHED_PENDING_HI: 05_schedules_and_admission.md R144. -/
def Reg.SCHED_PENDING_HI.off : Nat := 0x100014
/-- Field PARTS of SCHED_PENDING_HI, bits 31:0. -/
def Reg.SCHED_PENDING_HI.PARTS : Fld := ⟨Reg.SCHED_PENDING_HI.off, 0, 32⟩
/-- SCHED_HYPER: 05_schedules_and_admission.md R144. -/
def Reg.SCHED_HYPER.off : Nat := 0x100018
/-- Field SLOTS of SCHED_HYPER, bits 20:0. -/
def Reg.SCHED_HYPER.SLOTS : Fld := ⟨Reg.SCHED_HYPER.off, 0, 21⟩
/-- SCHED_HOST_LAT: 05_schedules_and_admission.md R144. -/
def Reg.SCHED_HOST_LAT.off (h : Nat) : Nat := 0x100020 + 0x4 * h
/-- Field NS of SCHED_HOST_LAT, bits 15:0. -/
def Reg.SCHED_HOST_LAT.NS (h : Nat) : Fld := ⟨Reg.SCHED_HOST_LAT.off h, 0, 16⟩
/-- SCHED_POLICE_DROP: 05_schedules_and_admission.md R128. -/
def Reg.SCHED_POLICE_DROP.off : Nat := 0x100030
/-- Field COUNT of SCHED_POLICE_DROP, bits 31:0. -/
def Reg.SCHED_POLICE_DROP.COUNT : Fld := ⟨Reg.SCHED_POLICE_DROP.off, 0, 32⟩
/-- SCHED_SAMPLE_LOST: 05_schedules_and_admission.md R143. -/
def Reg.SCHED_SAMPLE_LOST.off : Nat := 0x100034
/-- Field COUNT of SCHED_SAMPLE_LOST, bits 31:0. -/
def Reg.SCHED_SAMPLE_LOST.COUNT : Fld := ⟨Reg.SCHED_SAMPLE_LOST.off, 0, 32⟩
/-- SCHED_IMG_LO: 05_schedules_and_admission.md R144. -/
def Reg.SCHED_IMG_LO.off (p : Nat) : Nat := 0x101000 + 0x100 * p
/-- Field ADDR_LO of SCHED_IMG_LO, bits 31:12. -/
def Reg.SCHED_IMG_LO.ADDR_LO (p : Nat) : Fld := ⟨Reg.SCHED_IMG_LO.off p, 12, 20⟩
/-- SCHED_IMG_HI: 05_schedules_and_admission.md R144. -/
def Reg.SCHED_IMG_HI.off (p : Nat) : Nat := 0x101004 + 0x100 * p
/-- Field ADDR_HI of SCHED_IMG_HI, bits 19:0. -/
def Reg.SCHED_IMG_HI.ADDR_HI (p : Nat) : Fld := ⟨Reg.SCHED_IMG_HI.off p, 0, 20⟩
/-- Field SPACE of SCHED_IMG_HI, bits 31:31. -/
def Reg.SCHED_IMG_HI.SPACE (p : Nat) : Fld := ⟨Reg.SCHED_IMG_HI.off p, 31, 1⟩
/-- SCHED_IMG_LEN: 05_schedules_and_admission.md R144. -/
def Reg.SCHED_IMG_LEN.off (p : Nat) : Nat := 0x101008 + 0x100 * p
/-- Field PAGES of SCHED_IMG_LEN, bits 14:0. -/
def Reg.SCHED_IMG_LEN.PAGES (p : Nat) : Fld := ⟨Reg.SCHED_IMG_LEN.off p, 0, 15⟩
/-- SCHED_CTL: 05_schedules_and_admission.md R131. -/
def Reg.SCHED_CTL.off (p : Nat) : Nat := 0x10100C + 0x100 * p
/-- Field SUBMIT of SCHED_CTL, bits 0:0. -/
def Reg.SCHED_CTL.SUBMIT (p : Nat) : Fld := ⟨Reg.SCHED_CTL.off p, 0, 1⟩
/-- Field CANCEL of SCHED_CTL, bits 1:1. -/
def Reg.SCHED_CTL.CANCEL (p : Nat) : Fld := ⟨Reg.SCHED_CTL.off p, 1, 1⟩
/-- SCHED_ADM: 05_schedules_and_admission.md R133. -/
def Reg.SCHED_ADM.off (p : Nat) : Nat := 0x101010 + 0x100 * p
/-- Field RESULT of SCHED_ADM, bits 7:0. -/
def Reg.SCHED_ADM.RESULT (p : Nat) : Fld := ⟨Reg.SCHED_ADM.off p, 0, 8⟩
/-- Field BUSY of SCHED_ADM, bits 8:8. -/
def Reg.SCHED_ADM.BUSY (p : Nat) : Fld := ⟨Reg.SCHED_ADM.off p, 8, 1⟩
/-- Field DONE of SCHED_ADM, bits 9:9. -/
def Reg.SCHED_ADM.DONE (p : Nat) : Fld := ⟨Reg.SCHED_ADM.off p, 9, 1⟩
/-- Field SUBMIT_REJ of SCHED_ADM, bits 10:10. -/
def Reg.SCHED_ADM.SUBMIT_REJ (p : Nat) : Fld := ⟨Reg.SCHED_ADM.off p, 10, 1⟩
/-- Field CANCEL_REJ of SCHED_ADM, bits 11:11. -/
def Reg.SCHED_ADM.CANCEL_REJ (p : Nat) : Fld := ⟨Reg.SCHED_ADM.off p, 11, 1⟩
/-- SCHED_ADM_ITEM: 05_schedules_and_admission.md R133. -/
def Reg.SCHED_ADM_ITEM.off (p : Nat) : Nat := 0x101014 + 0x100 * p
/-- Field INDEX of SCHED_ADM_ITEM, bits 23:0. -/
def Reg.SCHED_ADM_ITEM.INDEX (p : Nat) : Fld := ⟨Reg.SCHED_ADM_ITEM.off p, 0, 24⟩
/-- Field KIND of SCHED_ADM_ITEM, bits 27:24. -/
def Reg.SCHED_ADM_ITEM.KIND (p : Nat) : Fld := ⟨Reg.SCHED_ADM_ITEM.off p, 24, 4⟩
/-- SCHED_ADM_VALUE: 05_schedules_and_admission.md R133. -/
def Reg.SCHED_ADM_VALUE.off (p : Nat) : Nat := 0x101018 + 0x100 * p
/-- Field VALUE of SCHED_ADM_VALUE, bits 31:0. -/
def Reg.SCHED_ADM_VALUE.VALUE (p : Nat) : Fld := ⟨Reg.SCHED_ADM_VALUE.off p, 0, 32⟩
/-- SCHED_TAKEOVER_LO: 05_schedules_and_admission.md R131. -/
def Reg.SCHED_TAKEOVER_LO.off (p : Nat) : Nat := 0x101020 + 0x100 * p
/-- Field SLOT of SCHED_TAKEOVER_LO, bits 31:0. -/
def Reg.SCHED_TAKEOVER_LO.SLOT (p : Nat) : Fld := ⟨Reg.SCHED_TAKEOVER_LO.off p, 0, 32⟩
/-- SCHED_TAKEOVER_HI: 05_schedules_and_admission.md R131. -/
def Reg.SCHED_TAKEOVER_HI.off (p : Nat) : Nat := 0x101024 + 0x100 * p
/-- Field SLOT of SCHED_TAKEOVER_HI, bits 31:0. -/
def Reg.SCHED_TAKEOVER_HI.SLOT (p : Nat) : Fld := ⟨Reg.SCHED_TAKEOVER_HI.off p, 0, 32⟩
/-- SCHED_STATE: 05_schedules_and_admission.md R131. -/
def Reg.SCHED_STATE.off (p : Nat) : Nat := 0x101028 + 0x100 * p
/-- Field ACT of SCHED_STATE, bits 1:0. -/
def Reg.SCHED_STATE.ACT (p : Nat) : Fld := ⟨Reg.SCHED_STATE.off p, 0, 2⟩
/-- Field PEND of SCHED_STATE, bits 3:2. -/
def Reg.SCHED_STATE.PEND (p : Nat) : Fld := ⟨Reg.SCHED_STATE.off p, 2, 2⟩
/-- SCHED_ENERGY_ACT: 05_schedules_and_admission.md R142. -/
def Reg.SCHED_ENERGY_ACT.off (p : Nat) : Nat := 0x10102C + 0x100 * p
/-- Field MW of SCHED_ENERGY_ACT, bits 31:0. -/
def Reg.SCHED_ENERGY_ACT.MW (p : Nat) : Fld := ⟨Reg.SCHED_ENERGY_ACT.off p, 0, 32⟩
/-- SCHED_ENERGY_PEND: 05_schedules_and_admission.md R142. -/
def Reg.SCHED_ENERGY_PEND.off (p : Nat) : Nat := 0x101030 + 0x100 * p
/-- Field MW of SCHED_ENERGY_PEND, bits 31:0. -/
def Reg.SCHED_ENERGY_PEND.MW (p : Nat) : Fld := ⟨Reg.SCHED_ENERGY_PEND.off p, 0, 32⟩
/-- SCHED_SMP_BASE_LO: 05_schedules_and_admission.md R143. -/
def Reg.SCHED_SMP_BASE_LO.off (p : Nat) : Nat := 0x101040 + 0x100 * p
/-- Field BASE_LO of SCHED_SMP_BASE_LO, bits 31:4. -/
def Reg.SCHED_SMP_BASE_LO.BASE_LO (p : Nat) : Fld := ⟨Reg.SCHED_SMP_BASE_LO.off p, 4, 28⟩
/-- SCHED_SMP_BASE_HI: 05_schedules_and_admission.md R143. -/
def Reg.SCHED_SMP_BASE_HI.off (p : Nat) : Nat := 0x101044 + 0x100 * p
/-- Field BASE_HI of SCHED_SMP_BASE_HI, bits 19:0. -/
def Reg.SCHED_SMP_BASE_HI.BASE_HI (p : Nat) : Fld := ⟨Reg.SCHED_SMP_BASE_HI.off p, 0, 20⟩
/-- Field SPACE of SCHED_SMP_BASE_HI, bits 31:31. -/
def Reg.SCHED_SMP_BASE_HI.SPACE (p : Nat) : Fld := ⟨Reg.SCHED_SMP_BASE_HI.off p, 31, 1⟩
/-- SCHED_SMP_CTL: 05_schedules_and_admission.md R143. -/
def Reg.SCHED_SMP_CTL.off (p : Nat) : Nat := 0x101048 + 0x100 * p
/-- Field ENABLE of SCHED_SMP_CTL, bits 0:0. -/
def Reg.SCHED_SMP_CTL.ENABLE (p : Nat) : Fld := ⟨Reg.SCHED_SMP_CTL.off p, 0, 1⟩
/-- Field LOG2_SIZE of SCHED_SMP_CTL, bits 5:1. -/
def Reg.SCHED_SMP_CTL.LOG2_SIZE (p : Nat) : Fld := ⟨Reg.SCHED_SMP_CTL.off p, 1, 5⟩
/-- SCHED_SMP_PROD: 05_schedules_and_admission.md R143. -/
def Reg.SCHED_SMP_PROD.off (p : Nat) : Nat := 0x10104C + 0x100 * p
/-- Field INDEX of SCHED_SMP_PROD, bits 19:0. -/
def Reg.SCHED_SMP_PROD.INDEX (p : Nat) : Fld := ⟨Reg.SCHED_SMP_PROD.off p, 0, 20⟩
/-- SCHED_SMP_CONS: 05_schedules_and_admission.md R143. -/
def Reg.SCHED_SMP_CONS.off (p : Nat) : Nat := 0x101050 + 0x100 * p
/-- Field INDEX of SCHED_SMP_CONS, bits 19:0. -/
def Reg.SCHED_SMP_CONS.INDEX (p : Nat) : Fld := ⟨Reg.SCHED_SMP_CONS.off p, 0, 20⟩
/-- LINK_CFG: 03_link_ports.md R52. -/
def Reg.LINK_CFG.off (p : Nat) : Nat := 0x200000 + 0x4000 * p
/-- Field ENABLE of LINK_CFG, bits 0:0. -/
def Reg.LINK_CFG.ENABLE (p : Nat) : Fld := ⟨Reg.LINK_CFG.off p, 0, 1⟩
/-- Field MODE of LINK_CFG, bits 1:1. -/
def Reg.LINK_CFG.MODE (p : Nat) : Fld := ⟨Reg.LINK_CFG.off p, 1, 1⟩
/-- Field BREAKOUT of LINK_CFG, bits 3:2. -/
def Reg.LINK_CFG.BREAKOUT (p : Nat) : Fld := ⟨Reg.LINK_CFG.off p, 2, 2⟩
/-- Field PAUSE_MODE of LINK_CFG, bits 5:4. -/
def Reg.LINK_CFG.PAUSE_MODE (p : Nat) : Fld := ⟨Reg.LINK_CFG.off p, 4, 2⟩
/-- Field MISS_EN of LINK_CFG, bits 6:6. -/
def Reg.LINK_CFG.MISS_EN (p : Nat) : Fld := ⟨Reg.LINK_CFG.off p, 6, 1⟩
/-- Field TRANSIT of LINK_CFG, bits 7:7. -/
def Reg.LINK_CFG.TRANSIT (p : Nat) : Fld := ⟨Reg.LINK_CFG.off p, 7, 1⟩
/-- Field PREEMPT_EN of LINK_CFG, bits 8:8. -/
def Reg.LINK_CFG.PREEMPT_EN (p : Nat) : Fld := ⟨Reg.LINK_CFG.off p, 8, 1⟩
/-- Field VERIFY_DIS of LINK_CFG, bits 9:9. -/
def Reg.LINK_CFG.VERIFY_DIS (p : Nat) : Fld := ⟨Reg.LINK_CFG.off p, 9, 1⟩
/-- Field ADD_FRAG of LINK_CFG, bits 11:10. -/
def Reg.LINK_CFG.ADD_FRAG (p : Nat) : Fld := ⟨Reg.LINK_CFG.off p, 10, 2⟩
/-- Field EXPRESS of LINK_CFG, bits 23:16. -/
def Reg.LINK_CFG.EXPRESS (p : Nat) : Fld := ⟨Reg.LINK_CFG.off p, 16, 8⟩
/-- Field BEACON_TX of LINK_CFG, bits 24:24. -/
def Reg.LINK_CFG.BEACON_TX (p : Nat) : Fld := ⟨Reg.LINK_CFG.off p, 24, 1⟩
/-- Field PTP_MASTER of LINK_CFG, bits 25:25. -/
def Reg.LINK_CFG.PTP_MASTER (p : Nat) : Fld := ⟨Reg.LINK_CFG.off p, 25, 1⟩
/-- Field LOWER_EN of LINK_CFG, bits 26:26. -/
def Reg.LINK_CFG.LOWER_EN (p : Nat) : Fld := ⟨Reg.LINK_CFG.off p, 26, 1⟩
/-- Field SPARE_EN of LINK_CFG, bits 27:27. -/
def Reg.LINK_CFG.SPARE_EN (p : Nat) : Fld := ⟨Reg.LINK_CFG.off p, 27, 1⟩
/-- LINK_STS: 03_link_ports.md R72. -/
def Reg.LINK_STS.off (p : Nat) : Nat := 0x200004 + 0x4000 * p
/-- Field STATE of LINK_STS, bits 1:0. -/
def Reg.LINK_STS.STATE (p : Nat) : Fld := ⟨Reg.LINK_STS.off p, 0, 2⟩
/-- Field PEER of LINK_STS, bits 3:2. -/
def Reg.LINK_STS.PEER (p : Nat) : Fld := ⟨Reg.LINK_STS.off p, 2, 2⟩
/-- Field ACTIVE of LINK_STS, bits 7:4. -/
def Reg.LINK_STS.ACTIVE (p : Nat) : Fld := ⟨Reg.LINK_STS.off p, 4, 4⟩
/-- Field PREEMPT_ACT of LINK_STS, bits 8:8. -/
def Reg.LINK_STS.PREEMPT_ACT (p : Nat) : Fld := ⟨Reg.LINK_STS.off p, 8, 1⟩
/-- Field CFG_REJ of LINK_STS, bits 9:9. -/
def Reg.LINK_STS.CFG_REJ (p : Nat) : Fld := ⟨Reg.LINK_STS.off p, 9, 1⟩
/-- Field PEER_LOST of LINK_STS, bits 10:10. -/
def Reg.LINK_STS.PEER_LOST (p : Nat) : Fld := ⟨Reg.LINK_STS.off p, 10, 1⟩
/-- Field LANE_EVT of LINK_STS, bits 11:11. -/
def Reg.LINK_STS.LANE_EVT (p : Nat) : Fld := ⟨Reg.LINK_STS.off p, 11, 1⟩
/-- Field VERIFY_FAIL of LINK_STS, bits 12:12. -/
def Reg.LINK_STS.VERIFY_FAIL (p : Nat) : Fld := ⟨Reg.LINK_STS.off p, 12, 1⟩
/-- LINK_LANE_MAP: 03_link_ports.md R75. -/
def Reg.LINK_LANE_MAP.off (p : Nat) : Nat := 0x200008 + 0x4000 * p
/-- Field LANE0 of LINK_LANE_MAP, bits 6:0. -/
def Reg.LINK_LANE_MAP.LANE0 (p : Nat) : Fld := ⟨Reg.LINK_LANE_MAP.off p, 0, 7⟩
/-- Field LANE1 of LINK_LANE_MAP, bits 14:8. -/
def Reg.LINK_LANE_MAP.LANE1 (p : Nat) : Fld := ⟨Reg.LINK_LANE_MAP.off p, 8, 7⟩
/-- Field LANE2 of LINK_LANE_MAP, bits 22:16. -/
def Reg.LINK_LANE_MAP.LANE2 (p : Nat) : Fld := ⟨Reg.LINK_LANE_MAP.off p, 16, 7⟩
/-- Field LANE3 of LINK_LANE_MAP, bits 30:24. -/
def Reg.LINK_LANE_MAP.LANE3 (p : Nat) : Fld := ⟨Reg.LINK_LANE_MAP.off p, 24, 7⟩
/-- LINK_LANE_HEALTH: 03_link_ports.md R74. -/
def Reg.LINK_LANE_HEALTH.off (p i : Nat) : Nat := 0x200010 + 0x4000 * p + 0x4 * i
/-- Field SER_EXP of LINK_LANE_HEALTH, bits 7:0. -/
def Reg.LINK_LANE_HEALTH.SER_EXP (p i : Nat) : Fld := ⟨Reg.LINK_LANE_HEALTH.off p i, 0, 8⟩
/-- Field DEGRADED of LINK_LANE_HEALTH, bits 8:8. -/
def Reg.LINK_LANE_HEALTH.DEGRADED (p i : Nat) : Fld := ⟨Reg.LINK_LANE_HEALTH.off p i, 8, 1⟩
/-- Field FAILED of LINK_LANE_HEALTH, bits 9:9. -/
def Reg.LINK_LANE_HEALTH.FAILED (p i : Nat) : Fld := ⟨Reg.LINK_LANE_HEALTH.off p i, 9, 1⟩
/-- Field SHADOW of LINK_LANE_HEALTH, bits 10:10. -/
def Reg.LINK_LANE_HEALTH.SHADOW (p i : Nat) : Fld := ⟨Reg.LINK_LANE_HEALTH.off p i, 10, 1⟩
/-- LINK_LANE_CTL: 03_link_ports.md R74. -/
def Reg.LINK_LANE_CTL.off (p : Nat) : Nat := 0x200020 + 0x4000 * p
/-- Field DEG_EXP of LINK_LANE_CTL, bits 7:0. -/
def Reg.LINK_LANE_CTL.DEG_EXP (p : Nat) : Fld := ⟨Reg.LINK_LANE_CTL.off p, 0, 8⟩
/-- LINK_MAC_LO: 03_link_ports.md R56. -/
def Reg.LINK_MAC_LO.off (p n : Nat) : Nat := 0x200100 + 0x4000 * p + 0x8 * n
/-- Field ADDR_LO of LINK_MAC_LO, bits 31:0. -/
def Reg.LINK_MAC_LO.ADDR_LO (p n : Nat) : Fld := ⟨Reg.LINK_MAC_LO.off p n, 0, 32⟩
/-- LINK_MAC_HI: 03_link_ports.md R56. -/
def Reg.LINK_MAC_HI.off (p n : Nat) : Nat := 0x200104 + 0x4000 * p + 0x8 * n
/-- Field ADDR_HI of LINK_MAC_HI, bits 15:0. -/
def Reg.LINK_MAC_HI.ADDR_HI (p n : Nat) : Fld := ⟨Reg.LINK_MAC_HI.off p n, 0, 16⟩
/-- Field SUBPORT of LINK_MAC_HI, bits 17:16. -/
def Reg.LINK_MAC_HI.SUBPORT (p n : Nat) : Fld := ⟨Reg.LINK_MAC_HI.off p n, 16, 2⟩
/-- Field VALID of LINK_MAC_HI, bits 31:31. -/
def Reg.LINK_MAC_HI.VALID (p n : Nat) : Fld := ⟨Reg.LINK_MAC_HI.off p n, 31, 1⟩
/-- LINK_MAC_CTL: 03_link_ports.md R56. -/
def Reg.LINK_MAC_CTL.off (p : Nat) : Nat := 0x200180 + 0x4000 * p
/-- Field MC_ACCEPT of LINK_MAC_CTL, bits 0:0. -/
def Reg.LINK_MAC_CTL.MC_ACCEPT (p : Nat) : Fld := ⟨Reg.LINK_MAC_CTL.off p, 0, 1⟩
/-- Field BC_ACCEPT of LINK_MAC_CTL, bits 1:1. -/
def Reg.LINK_MAC_CTL.BC_ACCEPT (p : Nat) : Fld := ⟨Reg.LINK_MAC_CTL.off p, 1, 1⟩
/-- LINK_PCP_MAP: 03_link_ports.md R55. -/
def Reg.LINK_PCP_MAP.off (p : Nat) : Nat := 0x200184 + 0x4000 * p
/-- Field TC of LINK_PCP_MAP, bits 23:0. -/
def Reg.LINK_PCP_MAP.TC (p : Nat) : Fld := ⟨Reg.LINK_PCP_MAP.off p, 0, 24⟩
/-- Field UNTAGGED_TC of LINK_PCP_MAP, bits 26:24. -/
def Reg.LINK_PCP_MAP.UNTAGGED_TC (p : Nat) : Fld := ⟨Reg.LINK_PCP_MAP.off p, 24, 3⟩
/-- LINK_BUF_CLASS: 03_link_ports.md R84. -/
def Reg.LINK_BUF_CLASS.off (p c : Nat) : Nat := 0x200200 + 0x4000 * p + 0x4 * c
/-- Field MIN of LINK_BUF_CLASS, bits 15:0. -/
def Reg.LINK_BUF_CLASS.MIN (p c : Nat) : Fld := ⟨Reg.LINK_BUF_CLASS.off p c, 0, 16⟩
/-- Field MAX of LINK_BUF_CLASS, bits 31:16. -/
def Reg.LINK_BUF_CLASS.MAX (p c : Nat) : Fld := ⟨Reg.LINK_BUF_CLASS.off p c, 16, 16⟩
/-- LINK_PFC_WM: 03_link_ports.md R57. -/
def Reg.LINK_PFC_WM.off (p c : Nat) : Nat := 0x200210 + 0x4000 * p + 0x4 * c
/-- Field XOFF of LINK_PFC_WM, bits 15:0. -/
def Reg.LINK_PFC_WM.XOFF (p c : Nat) : Fld := ⟨Reg.LINK_PFC_WM.off p c, 0, 16⟩
/-- Field XON of LINK_PFC_WM, bits 31:16. -/
def Reg.LINK_PFC_WM.XON (p c : Nat) : Fld := ⟨Reg.LINK_PFC_WM.off p c, 16, 16⟩
/-- LINK_MISS_WM: 03_link_ports.md R85. -/
def Reg.LINK_MISS_WM.off (p : Nat) : Nat := 0x200220 + 0x4000 * p
/-- Field HIGH of LINK_MISS_WM, bits 15:0. -/
def Reg.LINK_MISS_WM.HIGH (p : Nat) : Fld := ⟨Reg.LINK_MISS_WM.off p, 0, 16⟩
/-- Field LOW of LINK_MISS_WM, bits 31:16. -/
def Reg.LINK_MISS_WM.LOW (p : Nat) : Fld := ⟨Reg.LINK_MISS_WM.off p, 16, 16⟩
/-- LINK_PFC_REFRESH: 03_link_ports.md R57. -/
def Reg.LINK_PFC_REFRESH.off (p : Nat) : Nat := 0x200224 + 0x4000 * p
/-- Field NS of LINK_PFC_REFRESH, bits 15:0. -/
def Reg.LINK_PFC_REFRESH.NS (p : Nat) : Fld := ⟨Reg.LINK_PFC_REFRESH.off p, 0, 16⟩
/-- LINK_BEACON_CTL: 03_link_ports.md R68. -/
def Reg.LINK_BEACON_CTL.off (p : Nat) : Nat := 0x200228 + 0x4000 * p
/-- Field INTERVAL of LINK_BEACON_CTL, bits 3:0. -/
def Reg.LINK_BEACON_CTL.INTERVAL (p : Nat) : Fld := ⟨Reg.LINK_BEACON_CTL.off p, 0, 4⟩
/-- LINK_PEER_DELAY: 03_link_ports.md R68. -/
def Reg.LINK_PEER_DELAY.off (p : Nat) : Nat := 0x20022C + 0x4000 * p
/-- Field DELAY of LINK_PEER_DELAY, bits 31:0. -/
def Reg.LINK_PEER_DELAY.DELAY (p : Nat) : Fld := ⟨Reg.LINK_PEER_DELAY.off p, 0, 32⟩
/-- LINK_DROP_FILTER: 03_link_ports.md R56. -/
def Reg.LINK_DROP_FILTER.off (p : Nat) : Nat := 0x200300 + 0x4000 * p
/-- Field COUNT of LINK_DROP_FILTER, bits 31:0. -/
def Reg.LINK_DROP_FILTER.COUNT (p : Nat) : Fld := ⟨Reg.LINK_DROP_FILTER.off p, 0, 32⟩
/-- LINK_DROP_FENCED: 03_link_ports.md R72. -/
def Reg.LINK_DROP_FENCED.off (p : Nat) : Nat := 0x200304 + 0x4000 * p
/-- Field COUNT of LINK_DROP_FENCED, bits 31:0. -/
def Reg.LINK_DROP_FENCED.COUNT (p : Nat) : Fld := ⟨Reg.LINK_DROP_FENCED.off p, 0, 32⟩
/-- LINK_DROP_OVERFLOW: 03_link_ports.md R84. -/
def Reg.LINK_DROP_OVERFLOW.off (p : Nat) : Nat := 0x200308 + 0x4000 * p
/-- Field COUNT of LINK_DROP_OVERFLOW, bits 31:0. -/
def Reg.LINK_DROP_OVERFLOW.COUNT (p : Nat) : Fld := ⟨Reg.LINK_DROP_OVERFLOW.off p, 0, 32⟩
/-- LINK_MISS_DROP: 03_link_ports.md R85. -/
def Reg.LINK_MISS_DROP.off (p : Nat) : Nat := 0x20030C + 0x4000 * p
/-- Field COUNT of LINK_MISS_DROP, bits 31:0. -/
def Reg.LINK_MISS_DROP.COUNT (p : Nat) : Fld := ⟨Reg.LINK_MISS_DROP.off p, 0, 32⟩
/-- LINK_PFC_IGNORED: 03_link_ports.md R57. -/
def Reg.LINK_PFC_IGNORED.off (p : Nat) : Nat := 0x200310 + 0x4000 * p
/-- Field COUNT of LINK_PFC_IGNORED, bits 31:0. -/
def Reg.LINK_PFC_IGNORED.COUNT (p : Nat) : Fld := ⟨Reg.LINK_PFC_IGNORED.off p, 0, 32⟩
/-- LINK_BAD_FRAME: 03_link_ports.md R54. -/
def Reg.LINK_BAD_FRAME.off (p : Nat) : Nat := 0x200314 + 0x4000 * p
/-- Field COUNT of LINK_BAD_FRAME, bits 31:0. -/
def Reg.LINK_BAD_FRAME.COUNT (p : Nat) : Fld := ⟨Reg.LINK_BAD_FRAME.off p, 0, 32⟩
/-- LINK_FEC_UNCORR: 03_link_ports.md R63. -/
def Reg.LINK_FEC_UNCORR.off (p : Nat) : Nat := 0x200318 + 0x4000 * p
/-- Field COUNT of LINK_FEC_UNCORR, bits 31:0. -/
def Reg.LINK_FEC_UNCORR.COUNT (p : Nat) : Fld := ⟨Reg.LINK_FEC_UNCORR.off p, 0, 32⟩
/-- LINK_STOMPED: 03_link_ports.md R66. -/
def Reg.LINK_STOMPED.off (p : Nat) : Nat := 0x20031C + 0x4000 * p
/-- Field COUNT of LINK_STOMPED, bits 31:0. -/
def Reg.LINK_STOMPED.COUNT (p : Nat) : Fld := ⟨Reg.LINK_STOMPED.off p, 0, 32⟩
/-- LINK_OS_BAD: 03_link_ports.md R62. -/
def Reg.LINK_OS_BAD.off (p : Nat) : Nat := 0x200320 + 0x4000 * p
/-- Field COUNT of LINK_OS_BAD, bits 31:0. -/
def Reg.LINK_OS_BAD.COUNT (p : Nat) : Fld := ⟨Reg.LINK_OS_BAD.off p, 0, 32⟩
/-- MESH_SELF: 04_routing_and_mesh.md R90. -/
def Reg.MESH_SELF.off : Nat := 0x300000
/-- Field Z of MESH_SELF, bits 15:10. -/
def Reg.MESH_SELF.Z : Fld := ⟨Reg.MESH_SELF.off, 10, 6⟩
/-- Field Y of MESH_SELF, bits 21:16. -/
def Reg.MESH_SELF.Y : Fld := ⟨Reg.MESH_SELF.off, 16, 6⟩
/-- Field X of MESH_SELF, bits 27:22. -/
def Reg.MESH_SELF.X : Fld := ⟨Reg.MESH_SELF.off, 22, 6⟩
/-- Field DOMAIN of MESH_SELF, bits 31:28. -/
def Reg.MESH_SELF.DOMAIN : Fld := ⟨Reg.MESH_SELF.off, 28, 4⟩
/-- MESH_CTL: 04_routing_and_mesh.md R109. -/
def Reg.MESH_CTL.off : Nat := 0x300004
/-- Field ARM of MESH_CTL, bits 0:0. -/
def Reg.MESH_CTL.ARM : Fld := ⟨Reg.MESH_CTL.off, 0, 1⟩
/-- Field DISARM of MESH_CTL, bits 1:1. -/
def Reg.MESH_CTL.DISARM : Fld := ⟨Reg.MESH_CTL.off, 1, 1⟩
/-- Field ADAPT_EN of MESH_CTL, bits 2:2. -/
def Reg.MESH_CTL.ADAPT_EN : Fld := ⟨Reg.MESH_CTL.off, 2, 1⟩
/-- Field HOPS_INIT of MESH_CTL, bits 15:8. -/
def Reg.MESH_CTL.HOPS_INIT : Fld := ⟨Reg.MESH_CTL.off, 8, 8⟩
/-- MESH_STS: 04_routing_and_mesh.md R105. -/
def Reg.MESH_STS.off : Nat := 0x300008
/-- Field EPOCH of MESH_STS, bits 0:0. -/
def Reg.MESH_STS.EPOCH : Fld := ⟨Reg.MESH_STS.off, 0, 1⟩
/-- Field OLD_RETAINED of MESH_STS, bits 1:1. -/
def Reg.MESH_STS.OLD_RETAINED : Fld := ⟨Reg.MESH_STS.off, 1, 1⟩
/-- Field NEXT_ARMED of MESH_STS, bits 2:2. -/
def Reg.MESH_STS.NEXT_ARMED : Fld := ⟨Reg.MESH_STS.off, 2, 1⟩
/-- Field WR_REJ of MESH_STS, bits 3:3. -/
def Reg.MESH_STS.WR_REJ : Fld := ⟨Reg.MESH_STS.off, 3, 1⟩
/-- Field CFG_REJ of MESH_STS, bits 4:4. -/
def Reg.MESH_STS.CFG_REJ : Fld := ⟨Reg.MESH_STS.off, 4, 1⟩
/-- Field COORD_PARITY of MESH_STS, bits 5:5. -/
def Reg.MESH_STS.COORD_PARITY : Fld := ⟨Reg.MESH_STS.off, 5, 1⟩
/-- MESH_DRAIN: 04_routing_and_mesh.md R107. -/
def Reg.MESH_DRAIN.off (e : Nat) : Nat := 0x300010 + 0x4 * e
/-- Field COUNT of MESH_DRAIN, bits 23:0. -/
def Reg.MESH_DRAIN.COUNT (e : Nat) : Fld := ⟨Reg.MESH_DRAIN.off e, 0, 24⟩
/-- MESH_DRAIN_LIMIT: 04_routing_and_mesh.md R108. -/
def Reg.MESH_DRAIN_LIMIT.off : Nat := 0x300018
/-- Field US of MESH_DRAIN_LIMIT, bits 15:0. -/
def Reg.MESH_DRAIN_LIMIT.US : Fld := ⟨Reg.MESH_DRAIN_LIMIT.off, 0, 16⟩
/-- MESH_SWITCH_SLOT_LO: 04_routing_and_mesh.md R108. -/
def Reg.MESH_SWITCH_SLOT_LO.off : Nat := 0x300020
/-- Field SLOT of MESH_SWITCH_SLOT_LO, bits 31:0. -/
def Reg.MESH_SWITCH_SLOT_LO.SLOT : Fld := ⟨Reg.MESH_SWITCH_SLOT_LO.off, 0, 32⟩
/-- MESH_SWITCH_SLOT_HI: 04_routing_and_mesh.md R108. -/
def Reg.MESH_SWITCH_SLOT_HI.off : Nat := 0x300024
/-- Field SLOT of MESH_SWITCH_SLOT_HI, bits 31:0. -/
def Reg.MESH_SWITCH_SLOT_HI.SLOT : Fld := ⟨Reg.MESH_SWITCH_SLOT_HI.off, 0, 32⟩
/-- MESH_NOROUTE_DROP: 04_routing_and_mesh.md R92. -/
def Reg.MESH_NOROUTE_DROP.off : Nat := 0x300040
/-- Field COUNT of MESH_NOROUTE_DROP, bits 31:0. -/
def Reg.MESH_NOROUTE_DROP.COUNT : Fld := ⟨Reg.MESH_NOROUTE_DROP.off, 0, 32⟩
/-- MESH_HOPS_DROP: 04_routing_and_mesh.md R94. -/
def Reg.MESH_HOPS_DROP.off : Nat := 0x300044
/-- Field COUNT of MESH_HOPS_DROP, bits 31:0. -/
def Reg.MESH_HOPS_DROP.COUNT : Fld := ⟨Reg.MESH_HOPS_DROP.off, 0, 32⟩
/-- MESH_ETH_MISS: 04_routing_and_mesh.md R97. -/
def Reg.MESH_ETH_MISS.off : Nat := 0x300048
/-- Field COUNT of MESH_ETH_MISS, bits 31:0. -/
def Reg.MESH_ETH_MISS.COUNT : Fld := ⟨Reg.MESH_ETH_MISS.off, 0, 32⟩
/-- MESH_MODE_DROP: 04_routing_and_mesh.md R98. -/
def Reg.MESH_MODE_DROP.off : Nat := 0x30004C
/-- Field COUNT of MESH_MODE_DROP, bits 31:0. -/
def Reg.MESH_MODE_DROP.COUNT : Fld := ⟨Reg.MESH_MODE_DROP.off, 0, 32⟩
/-- MESH_EPOCH_RESTAMP: 04_routing_and_mesh.md R106. -/
def Reg.MESH_EPOCH_RESTAMP.off : Nat := 0x300050
/-- Field COUNT of MESH_EPOCH_RESTAMP, bits 31:0. -/
def Reg.MESH_EPOCH_RESTAMP.COUNT : Fld := ⟨Reg.MESH_EPOCH_RESTAMP.off, 0, 32⟩
/-- MESH_DRAIN_DROP: 04_routing_and_mesh.md R108. -/
def Reg.MESH_DRAIN_DROP.off : Nat := 0x300054
/-- Field COUNT of MESH_DRAIN_DROP, bits 31:0. -/
def Reg.MESH_DRAIN_DROP.COUNT : Fld := ⟨Reg.MESH_DRAIN_DROP.off, 0, 32⟩
/-- MESH_LOST_DROP: 04_routing_and_mesh.md R114. -/
def Reg.MESH_LOST_DROP.off : Nat := 0x300058
/-- Field COUNT of MESH_LOST_DROP, bits 31:0. -/
def Reg.MESH_LOST_DROP.COUNT : Fld := ⟨Reg.MESH_LOST_DROP.off, 0, 32⟩
/-- MESH_LINK_FENCE: 04_routing_and_mesh.md R115. -/
def Reg.MESH_LINK_FENCE.off (i : Nat) : Nat := 0x300080 + 0x4 * i
/-- Field LINKS of MESH_LINK_FENCE, bits 31:0. -/
def Reg.MESH_LINK_FENCE.LINKS (i : Nat) : Fld := ⟨Reg.MESH_LINK_FENCE.off i, 0, 32⟩
/-- MESH_RTD_LO: 04_routing_and_mesh.md R92. -/
def Reg.MESH_RTD_LO.off (b n : Nat) : Nat := 0x310000 + 0x8000 * b + 0x8 * n
/-- Field PORT0 of MESH_RTD_LO, bits 5:0. -/
def Reg.MESH_RTD_LO.PORT0 (b n : Nat) : Fld := ⟨Reg.MESH_RTD_LO.off b n, 0, 6⟩
/-- Field PORT1 of MESH_RTD_LO, bits 11:6. -/
def Reg.MESH_RTD_LO.PORT1 (b n : Nat) : Fld := ⟨Reg.MESH_RTD_LO.off b n, 6, 6⟩
/-- Field PORT2 of MESH_RTD_LO, bits 17:12. -/
def Reg.MESH_RTD_LO.PORT2 (b n : Nat) : Fld := ⟨Reg.MESH_RTD_LO.off b n, 12, 6⟩
/-- Field PORT3 of MESH_RTD_LO, bits 23:18. -/
def Reg.MESH_RTD_LO.PORT3 (b n : Nat) : Fld := ⟨Reg.MESH_RTD_LO.off b n, 18, 6⟩
/-- Field NPORTS of MESH_RTD_LO, bits 25:24. -/
def Reg.MESH_RTD_LO.NPORTS (b n : Nat) : Fld := ⟨Reg.MESH_RTD_LO.off b n, 24, 2⟩
/-- Field VALID of MESH_RTD_LO, bits 31:31. -/
def Reg.MESH_RTD_LO.VALID (b n : Nat) : Fld := ⟨Reg.MESH_RTD_LO.off b n, 31, 1⟩
/-- MESH_RTD_HI: 04_routing_and_mesh.md R92. -/
def Reg.MESH_RTD_HI.off (b n : Nat) : Nat := 0x310004 + 0x8000 * b + 0x8 * n
/-- Field BACKUP of MESH_RTD_HI, bits 5:0. -/
def Reg.MESH_RTD_HI.BACKUP (b n : Nat) : Fld := ⟨Reg.MESH_RTD_HI.off b n, 0, 6⟩
/-- Field BK_VALID of MESH_RTD_HI, bits 6:6. -/
def Reg.MESH_RTD_HI.BK_VALID (b n : Nat) : Fld := ⟨Reg.MESH_RTD_HI.off b n, 6, 1⟩
/-- MESH_RTXYZ_LO: 04_routing_and_mesh.md R92. -/
def Reg.MESH_RTXYZ_LO.off (b x n : Nat) : Nat := 0x310100 + 0x8000 * b + 0x200 * x + 0x8 * n
/-- Field PORT0 of MESH_RTXYZ_LO, bits 5:0. -/
def Reg.MESH_RTXYZ_LO.PORT0 (b x n : Nat) : Fld := ⟨Reg.MESH_RTXYZ_LO.off b x n, 0, 6⟩
/-- Field PORT1 of MESH_RTXYZ_LO, bits 11:6. -/
def Reg.MESH_RTXYZ_LO.PORT1 (b x n : Nat) : Fld := ⟨Reg.MESH_RTXYZ_LO.off b x n, 6, 6⟩
/-- Field PORT2 of MESH_RTXYZ_LO, bits 17:12. -/
def Reg.MESH_RTXYZ_LO.PORT2 (b x n : Nat) : Fld := ⟨Reg.MESH_RTXYZ_LO.off b x n, 12, 6⟩
/-- Field PORT3 of MESH_RTXYZ_LO, bits 23:18. -/
def Reg.MESH_RTXYZ_LO.PORT3 (b x n : Nat) : Fld := ⟨Reg.MESH_RTXYZ_LO.off b x n, 18, 6⟩
/-- Field NPORTS of MESH_RTXYZ_LO, bits 25:24. -/
def Reg.MESH_RTXYZ_LO.NPORTS (b x n : Nat) : Fld := ⟨Reg.MESH_RTXYZ_LO.off b x n, 24, 2⟩
/-- Field VALID of MESH_RTXYZ_LO, bits 31:31. -/
def Reg.MESH_RTXYZ_LO.VALID (b x n : Nat) : Fld := ⟨Reg.MESH_RTXYZ_LO.off b x n, 31, 1⟩
/-- MESH_RTXYZ_HI: 04_routing_and_mesh.md R92. -/
def Reg.MESH_RTXYZ_HI.off (b x n : Nat) : Nat := 0x310104 + 0x8000 * b + 0x200 * x + 0x8 * n
/-- Field BACKUP of MESH_RTXYZ_HI, bits 5:0. -/
def Reg.MESH_RTXYZ_HI.BACKUP (b x n : Nat) : Fld := ⟨Reg.MESH_RTXYZ_HI.off b x n, 0, 6⟩
/-- Field BK_VALID of MESH_RTXYZ_HI, bits 6:6. -/
def Reg.MESH_RTXYZ_HI.BK_VALID (b x n : Nat) : Fld := ⟨Reg.MESH_RTXYZ_HI.off b x n, 6, 1⟩
/-- MESH_ETH_W0: 04_routing_and_mesh.md R97. -/
def Reg.MESH_ETH_W0.off (b n : Nat) : Nat := 0x311000 + 0x8000 * b + 0x10 * n
/-- Field MAC_LO of MESH_ETH_W0, bits 31:0. -/
def Reg.MESH_ETH_W0.MAC_LO (b n : Nat) : Fld := ⟨Reg.MESH_ETH_W0.off b n, 0, 32⟩
/-- MESH_ETH_W1: 04_routing_and_mesh.md R97. -/
def Reg.MESH_ETH_W1.off (b n : Nat) : Nat := 0x311004 + 0x8000 * b + 0x10 * n
/-- Field MAC_HI of MESH_ETH_W1, bits 15:0. -/
def Reg.MESH_ETH_W1.MAC_HI (b n : Nat) : Fld := ⟨Reg.MESH_ETH_W1.off b n, 0, 16⟩
/-- Field VID of MESH_ETH_W1, bits 27:16. -/
def Reg.MESH_ETH_W1.VID (b n : Nat) : Fld := ⟨Reg.MESH_ETH_W1.off b n, 16, 12⟩
/-- Field TAGGED of MESH_ETH_W1, bits 28:28. -/
def Reg.MESH_ETH_W1.TAGGED (b n : Nat) : Fld := ⟨Reg.MESH_ETH_W1.off b n, 28, 1⟩
/-- Field VALID of MESH_ETH_W1, bits 31:31. -/
def Reg.MESH_ETH_W1.VALID (b n : Nat) : Fld := ⟨Reg.MESH_ETH_W1.off b n, 31, 1⟩
/-- MESH_ETH_W2: 04_routing_and_mesh.md R97. -/
def Reg.MESH_ETH_W2.off (b n : Nat) : Nat := 0x311008 + 0x8000 * b + 0x10 * n
/-- Field LOCAL of MESH_ETH_W2, bits 0:0. -/
def Reg.MESH_ETH_W2.LOCAL (b n : Nat) : Fld := ⟨Reg.MESH_ETH_W2.off b n, 0, 1⟩
/-- Field PORT of MESH_ETH_W2, bits 6:1. -/
def Reg.MESH_ETH_W2.PORT (b n : Nat) : Fld := ⟨Reg.MESH_ETH_W2.off b n, 1, 6⟩
/-- Field SUBPORT of MESH_ETH_W2, bits 8:7. -/
def Reg.MESH_ETH_W2.SUBPORT (b n : Nat) : Fld := ⟨Reg.MESH_ETH_W2.off b n, 7, 2⟩
/-- MESH_ETH_W3: 04_routing_and_mesh.md R97. -/
def Reg.MESH_ETH_W3.off (b n : Nat) : Nat := 0x31100C + 0x8000 * b + 0x10 * n
/-- Field FCA of MESH_ETH_W3, bits 31:0. -/
def Reg.MESH_ETH_W3.FCA (b n : Nat) : Fld := ⟨Reg.MESH_ETH_W3.off b n, 0, 32⟩
/-- KENNEL_T1_BASE_LO: 06_queue_pairs_and_delivery.md R172. -/
def Reg.KENNEL_T1_BASE_LO.off : Nat := 0x400000
/-- Field ADDR_LO of KENNEL_T1_BASE_LO, bits 31:20. -/
def Reg.KENNEL_T1_BASE_LO.ADDR_LO : Fld := ⟨Reg.KENNEL_T1_BASE_LO.off, 20, 12⟩
/-- KENNEL_T1_BASE_HI: 06_queue_pairs_and_delivery.md R172. -/
def Reg.KENNEL_T1_BASE_HI.off : Nat := 0x400004
/-- Field ADDR_HI of KENNEL_T1_BASE_HI, bits 19:0. -/
def Reg.KENNEL_T1_BASE_HI.ADDR_HI : Fld := ⟨Reg.KENNEL_T1_BASE_HI.off, 0, 20⟩
/-- KENNEL_T1_SIZE: 06_queue_pairs_and_delivery.md R172. -/
def Reg.KENNEL_T1_SIZE.off : Nat := 0x400008
/-- Field UNITS of KENNEL_T1_SIZE, bits 12:0. -/
def Reg.KENNEL_T1_SIZE.UNITS : Fld := ⟨Reg.KENNEL_T1_SIZE.off, 0, 13⟩
/-- KENNEL_PATH_HOLD: 06_queue_pairs_and_delivery.md R167. -/
def Reg.KENNEL_PATH_HOLD.off : Nat := 0x40000C
/-- Field US of KENNEL_PATH_HOLD, bits 5:0. -/
def Reg.KENNEL_PATH_HOLD.US : Fld := ⟨Reg.KENNEL_PATH_HOLD.off, 0, 6⟩
/-- KENNEL_STS: 06_queue_pairs_and_delivery.md R172. -/
def Reg.KENNEL_STS.off : Nat := 0x400010
/-- Field QPS of KENNEL_STS, bits 24:0. -/
def Reg.KENNEL_STS.QPS : Fld := ⟨Reg.KENNEL_STS.off, 0, 25⟩
/-- KENNEL_FETCH_T1: 06_queue_pairs_and_delivery.md R147. -/
def Reg.KENNEL_FETCH_T1.off : Nat := 0x400040
/-- Field COUNT of KENNEL_FETCH_T1, bits 31:0. -/
def Reg.KENNEL_FETCH_T1.COUNT : Fld := ⟨Reg.KENNEL_FETCH_T1.off, 0, 32⟩
/-- KENNEL_FETCH_T2: 06_queue_pairs_and_delivery.md R147. -/
def Reg.KENNEL_FETCH_T2.off : Nat := 0x400044
/-- Field COUNT of KENNEL_FETCH_T2, bits 31:0. -/
def Reg.KENNEL_FETCH_T2.COUNT : Fld := ⟨Reg.KENNEL_FETCH_T2.off, 0, 32⟩
/-- KENNEL_EVICT: 06_queue_pairs_and_delivery.md R147. -/
def Reg.KENNEL_EVICT.off : Nat := 0x400048
/-- Field COUNT of KENNEL_EVICT, bits 31:0. -/
def Reg.KENNEL_EVICT.COUNT : Fld := ⟨Reg.KENNEL_EVICT.off, 0, 32⟩
/-- KENNEL_CTX_UNCORR: 06_queue_pairs_and_delivery.md R148. -/
def Reg.KENNEL_CTX_UNCORR.off : Nat := 0x40004C
/-- Field COUNT of KENNEL_CTX_UNCORR, bits 31:0. -/
def Reg.KENNEL_CTX_UNCORR.COUNT : Fld := ⟨Reg.KENNEL_CTX_UNCORR.off, 0, 32⟩
/-- KENNEL_NOQP_DROP: 06_queue_pairs_and_delivery.md R155. -/
def Reg.KENNEL_NOQP_DROP.off : Nat := 0x400050
/-- Field COUNT of KENNEL_NOQP_DROP, bits 31:0. -/
def Reg.KENNEL_NOQP_DROP.COUNT : Fld := ⟨Reg.KENNEL_NOQP_DROP.off, 0, 32⟩
/-- KENNEL_RETX: 06_queue_pairs_and_delivery.md R159. -/
def Reg.KENNEL_RETX.off : Nat := 0x400054
/-- Field COUNT of KENNEL_RETX, bits 31:0. -/
def Reg.KENNEL_RETX.COUNT : Fld := ⟨Reg.KENNEL_RETX.off, 0, 32⟩
/-- KENNEL_NAK_SEQ: 06_queue_pairs_and_delivery.md R160. -/
def Reg.KENNEL_NAK_SEQ.off : Nat := 0x400058
/-- Field COUNT of KENNEL_NAK_SEQ, bits 31:0. -/
def Reg.KENNEL_NAK_SEQ.COUNT : Fld := ⟨Reg.KENNEL_NAK_SEQ.off, 0, 32⟩
/-- KENNEL_RNR: 06_queue_pairs_and_delivery.md R159. -/
def Reg.KENNEL_RNR.off : Nat := 0x40005C
/-- Field COUNT of KENNEL_RNR, bits 31:0. -/
def Reg.KENNEL_RNR.COUNT : Fld := ⟨Reg.KENNEL_RNR.off, 0, 32⟩
/-- KENNEL_CNP_DROP: 06_queue_pairs_and_delivery.md R165. -/
def Reg.KENNEL_CNP_DROP.off : Nat := 0x400060
/-- Field COUNT of KENNEL_CNP_DROP, bits 31:0. -/
def Reg.KENNEL_CNP_DROP.COUNT : Fld := ⟨Reg.KENNEL_CNP_DROP.off, 0, 32⟩
/-- KENNEL_ICRC_DROP: 06_queue_pairs_and_delivery.md R165. -/
def Reg.KENNEL_ICRC_DROP.off : Nat := 0x400064
/-- Field COUNT of KENNEL_ICRC_DROP, bits 31:0. -/
def Reg.KENNEL_ICRC_DROP.COUNT : Fld := ⟨Reg.KENNEL_ICRC_DROP.off, 0, 32⟩
/-- KENNEL_CMD_ADDR_LO: 06_queue_pairs_and_delivery.md R172. -/
def Reg.KENNEL_CMD_ADDR_LO.off (h : Nat) : Nat := 0x400100 + 0x20 * h
/-- Field ADDR_LO of KENNEL_CMD_ADDR_LO, bits 31:8. -/
def Reg.KENNEL_CMD_ADDR_LO.ADDR_LO (h : Nat) : Fld := ⟨Reg.KENNEL_CMD_ADDR_LO.off h, 8, 24⟩
/-- KENNEL_CMD_ADDR_HI: 06_queue_pairs_and_delivery.md R172. -/
def Reg.KENNEL_CMD_ADDR_HI.off (h : Nat) : Nat := 0x400104 + 0x20 * h
/-- Field ADDR_HI of KENNEL_CMD_ADDR_HI, bits 19:0. -/
def Reg.KENNEL_CMD_ADDR_HI.ADDR_HI (h : Nat) : Fld := ⟨Reg.KENNEL_CMD_ADDR_HI.off h, 0, 20⟩
/-- KENNEL_CMD: 06_queue_pairs_and_delivery.md R151. -/
def Reg.KENNEL_CMD.off (h : Nat) : Nat := 0x400108 + 0x20 * h
/-- Field QPN of KENNEL_CMD, bits 23:0. -/
def Reg.KENNEL_CMD.QPN (h : Nat) : Fld := ⟨Reg.KENNEL_CMD.off h, 0, 24⟩
/-- Field OP of KENNEL_CMD, bits 26:24. -/
def Reg.KENNEL_CMD.OP (h : Nat) : Fld := ⟨Reg.KENNEL_CMD.off h, 24, 3⟩
/-- Field GO of KENNEL_CMD, bits 31:31. -/
def Reg.KENNEL_CMD.GO (h : Nat) : Fld := ⟨Reg.KENNEL_CMD.off h, 31, 1⟩
/-- KENNEL_CMD_STS: 06_queue_pairs_and_delivery.md R151. -/
def Reg.KENNEL_CMD_STS.off (h : Nat) : Nat := 0x40010C + 0x20 * h
/-- Field BUSY of KENNEL_CMD_STS, bits 0:0. -/
def Reg.KENNEL_CMD_STS.BUSY (h : Nat) : Fld := ⟨Reg.KENNEL_CMD_STS.off h, 0, 1⟩
/-- Field DONE of KENNEL_CMD_STS, bits 1:1. -/
def Reg.KENNEL_CMD_STS.DONE (h : Nat) : Fld := ⟨Reg.KENNEL_CMD_STS.off h, 1, 1⟩
/-- Field RESULT of KENNEL_CMD_STS, bits 7:4. -/
def Reg.KENNEL_CMD_STS.RESULT (h : Nat) : Fld := ⟨Reg.KENNEL_CMD_STS.off h, 4, 4⟩
/-- KENNEL_T2_BASE_LO: 06_queue_pairs_and_delivery.md R146. -/
def Reg.KENNEL_T2_BASE_LO.off (p : Nat) : Nat := 0x401000 + 0x10 * p
/-- Field ADDR_LO of KENNEL_T2_BASE_LO, bits 31:12. -/
def Reg.KENNEL_T2_BASE_LO.ADDR_LO (p : Nat) : Fld := ⟨Reg.KENNEL_T2_BASE_LO.off p, 12, 20⟩
/-- KENNEL_T2_BASE_HI: 06_queue_pairs_and_delivery.md R146. -/
def Reg.KENNEL_T2_BASE_HI.off (p : Nat) : Nat := 0x401004 + 0x10 * p
/-- Field ADDR_HI of KENNEL_T2_BASE_HI, bits 19:0. -/
def Reg.KENNEL_T2_BASE_HI.ADDR_HI (p : Nat) : Fld := ⟨Reg.KENNEL_T2_BASE_HI.off p, 0, 20⟩
/-- KENNEL_T2_SIZE: 06_queue_pairs_and_delivery.md R146. -/
def Reg.KENNEL_T2_SIZE.off (p : Nat) : Nat := 0x401008 + 0x10 * p
/-- Field CONTEXTS of KENNEL_T2_SIZE, bits 24:0. -/
def Reg.KENNEL_T2_SIZE.CONTEXTS (p : Nat) : Fld := ⟨Reg.KENNEL_T2_SIZE.off p, 0, 25⟩
/-- KENNEL_SHARE: 06_queue_pairs_and_delivery.md R147. -/
def Reg.KENNEL_SHARE.off (p : Nat) : Nat := 0x40100C + 0x10 * p
/-- Field SHARE of KENNEL_SHARE, bits 19:0. -/
def Reg.KENNEL_SHARE.SHARE (p : Nat) : Fld := ⟨Reg.KENNEL_SHARE.off p, 0, 20⟩
/-- KENNEL_BANK_STS: 06_queue_pairs_and_delivery.md R149. -/
def Reg.KENNEL_BANK_STS.off (k : Nat) : Nat := 0x402000 + 0x10 * k
/-- Field RESIDENT of KENNEL_BANK_STS, bits 13:0. -/
def Reg.KENNEL_BANK_STS.RESIDENT (k : Nat) : Fld := ⟨Reg.KENNEL_BANK_STS.off k, 0, 14⟩
/-- Field PINNED of KENNEL_BANK_STS, bits 29:16. -/
def Reg.KENNEL_BANK_STS.PINNED (k : Nat) : Fld := ⟨Reg.KENNEL_BANK_STS.off k, 16, 14⟩
/-- KENNEL_BANK_MISS: 06_queue_pairs_and_delivery.md R147. -/
def Reg.KENNEL_BANK_MISS.off (k : Nat) : Nat := 0x402004 + 0x10 * k
/-- Field MISSES of KENNEL_BANK_MISS, bits 31:0. -/
def Reg.KENNEL_BANK_MISS.MISSES (k : Nat) : Fld := ⟨Reg.KENNEL_BANK_MISS.off k, 0, 32⟩
/-- MEM_CH_STS: 14_memory_system.md R383. -/
def Reg.MEM_CH_STS.off (c : Nat) : Nat := 0x500000 + 0x1000 * c
/-- Field STATE of MEM_CH_STS, bits 2:0. -/
def Reg.MEM_CH_STS.STATE (c : Nat) : Fld := ⟨Reg.MEM_CH_STS.off c, 0, 3⟩
/-- Field SPEED of MEM_CH_STS, bits 6:4. -/
def Reg.MEM_CH_STS.SPEED (c : Nat) : Fld := ⟨Reg.MEM_CH_STS.off c, 4, 3⟩
/-- Field CAP of MEM_CH_STS, bits 9:8. -/
def Reg.MEM_CH_STS.CAP (c : Nat) : Fld := ⟨Reg.MEM_CH_STS.off c, 8, 2⟩
/-- Field MARK_A of MEM_CH_STS, bits 13:10. -/
def Reg.MEM_CH_STS.MARK_A (c : Nat) : Fld := ⟨Reg.MEM_CH_STS.off c, 10, 4⟩
/-- Field MARK_A_V of MEM_CH_STS, bits 14:14. -/
def Reg.MEM_CH_STS.MARK_A_V (c : Nat) : Fld := ⟨Reg.MEM_CH_STS.off c, 14, 1⟩
/-- Field MARK_B of MEM_CH_STS, bits 18:15. -/
def Reg.MEM_CH_STS.MARK_B (c : Nat) : Fld := ⟨Reg.MEM_CH_STS.off c, 15, 4⟩
/-- Field MARK_B_V of MEM_CH_STS, bits 19:19. -/
def Reg.MEM_CH_STS.MARK_B_V (c : Nat) : Fld := ⟨Reg.MEM_CH_STS.off c, 19, 1⟩
/-- MEM_CH_CTL: 14_memory_system.md R398. -/
def Reg.MEM_CH_CTL.off (c : Nat) : Nat := 0x500004 + 0x1000 * c
/-- Field SPEED_MAX of MEM_CH_CTL, bits 2:0. -/
def Reg.MEM_CH_CTL.SPEED_MAX (c : Nat) : Fld := ⟨Reg.MEM_CH_CTL.off c, 0, 3⟩
/-- MEM_CH_CE: 14_memory_system.md R390. -/
def Reg.MEM_CH_CE.off (c : Nat) : Nat := 0x500008 + 0x1000 * c
/-- Field COUNT of MEM_CH_CE, bits 31:0. -/
def Reg.MEM_CH_CE.COUNT (c : Nat) : Fld := ⟨Reg.MEM_CH_CE.off c, 0, 32⟩
/-- MEM_CH_UE: 14_memory_system.md R390. -/
def Reg.MEM_CH_UE.off (c : Nat) : Nat := 0x50000C + 0x1000 * c
/-- Field COUNT of MEM_CH_UE, bits 31:0. -/
def Reg.MEM_CH_UE.COUNT (c : Nat) : Fld := ⟨Reg.MEM_CH_UE.off c, 0, 32⟩
/-- MEM_CH_RETRY: 14_memory_system.md R384. -/
def Reg.MEM_CH_RETRY.off (c : Nat) : Nat := 0x500010 + 0x1000 * c
/-- Field COUNT of MEM_CH_RETRY, bits 31:0. -/
def Reg.MEM_CH_RETRY.COUNT (c : Nat) : Fld := ⟨Reg.MEM_CH_RETRY.off c, 0, 32⟩
/-- MEM_CH_ECS: 14_memory_system.md R388. -/
def Reg.MEM_CH_ECS.off (c : Nat) : Nat := 0x500014 + 0x1000 * c
/-- Field COUNT of MEM_CH_ECS, bits 31:0. -/
def Reg.MEM_CH_ECS.COUNT (c : Nat) : Fld := ⟨Reg.MEM_CH_ECS.off c, 0, 32⟩
/-- MEM_CH_UE_ADDR_LO: 14_memory_system.md R391. -/
def Reg.MEM_CH_UE_ADDR_LO.off (c : Nat) : Nat := 0x500018 + 0x1000 * c
/-- Field ADDR_LO of MEM_CH_UE_ADDR_LO, bits 31:0. -/
def Reg.MEM_CH_UE_ADDR_LO.ADDR_LO (c : Nat) : Fld := ⟨Reg.MEM_CH_UE_ADDR_LO.off c, 0, 32⟩
/-- MEM_CH_UE_ADDR_HI: 14_memory_system.md R391. -/
def Reg.MEM_CH_UE_ADDR_HI.off (c : Nat) : Nat := 0x50001C + 0x1000 * c
/-- Field ADDR_HI of MEM_CH_UE_ADDR_HI, bits 8:0. -/
def Reg.MEM_CH_UE_ADDR_HI.ADDR_HI (c : Nat) : Fld := ⟨Reg.MEM_CH_UE_ADDR_HI.off c, 0, 9⟩
/-- Field SCRUB of MEM_CH_UE_ADDR_HI, bits 9:9. -/
def Reg.MEM_CH_UE_ADDR_HI.SCRUB (c : Nat) : Fld := ⟨Reg.MEM_CH_UE_ADDR_HI.off c, 9, 1⟩
/-- MEM_CH_SCRUB: 14_memory_system.md R391. -/
def Reg.MEM_CH_SCRUB.off (c : Nat) : Nat := 0x500020 + 0x1000 * c
/-- Field PASSES of MEM_CH_SCRUB, bits 15:0. -/
def Reg.MEM_CH_SCRUB.PASSES (c : Nat) : Fld := ⟨Reg.MEM_CH_SCRUB.off c, 0, 16⟩
/-- Field PERCENT of MEM_CH_SCRUB, bits 22:16. -/
def Reg.MEM_CH_SCRUB.PERCENT (c : Nat) : Fld := ⟨Reg.MEM_CH_SCRUB.off c, 16, 7⟩
/-- MEM_STS: 14_memory_system.md R394. -/
def Reg.MEM_STS.off : Nat := 0x510000
/-- Field CFG_REJ of MEM_STS, bits 0:0. -/
def Reg.MEM_STS.CFG_REJ : Fld := ⟨Reg.MEM_STS.off, 0, 1⟩
/-- Field NO_DDR of MEM_STS, bits 1:1. -/
def Reg.MEM_STS.NO_DDR : Fld := ⟨Reg.MEM_STS.off, 1, 1⟩
/-- MEM_SET_W0: 14_memory_system.md R385. -/
def Reg.MEM_SET_W0.off (s : Nat) : Nat := 0x510010 + 0x8 * s
/-- Field CHANNELS of MEM_SET_W0, bits 15:0. -/
def Reg.MEM_SET_W0.CHANNELS (s : Nat) : Fld := ⟨Reg.MEM_SET_W0.off s, 0, 16⟩
/-- Field STATE of MEM_SET_W0, bits 17:16. -/
def Reg.MEM_SET_W0.STATE (s : Nat) : Fld := ⟨Reg.MEM_SET_W0.off s, 16, 2⟩
/-- MEM_SET_W1: 14_memory_system.md R385. -/
def Reg.MEM_SET_W1.off (s : Nat) : Nat := 0x510014 + 0x8 * s
/-- Field BASE_GIB of MEM_SET_W1, bits 10:0. -/
def Reg.MEM_SET_W1.BASE_GIB (s : Nat) : Fld := ⟨Reg.MEM_SET_W1.off s, 0, 11⟩
/-- Field SLICE_GIB of MEM_SET_W1, bits 23:16. -/
def Reg.MEM_SET_W1.SLICE_GIB (s : Nat) : Fld := ⟨Reg.MEM_SET_W1.off s, 16, 8⟩
/-- MEM_SCRUB_CTL: 14_memory_system.md R391. -/
def Reg.MEM_SCRUB_CTL.off : Nat := 0x510020
/-- Field HOURS of MEM_SCRUB_CTL, bits 4:0. -/
def Reg.MEM_SCRUB_CTL.HOURS : Fld := ⟨Reg.MEM_SCRUB_CTL.off, 0, 5⟩
/-- Field EN of MEM_SCRUB_CTL, bits 8:8. -/
def Reg.MEM_SCRUB_CTL.EN : Fld := ⟨Reg.MEM_SCRUB_CTL.off, 8, 1⟩
/-- MEM_TINKER_CTL: 14_memory_system.md R380. -/
def Reg.MEM_TINKER_CTL.off : Nat := 0x510024
/-- Field HOURS of MEM_TINKER_CTL, bits 4:0. -/
def Reg.MEM_TINKER_CTL.HOURS : Fld := ⟨Reg.MEM_TINKER_CTL.off, 0, 5⟩
/-- Field EN of MEM_TINKER_CTL, bits 8:8. -/
def Reg.MEM_TINKER_CTL.EN : Fld := ⟨Reg.MEM_TINKER_CTL.off, 8, 1⟩
/-- MEM_TINKER_STS: 14_memory_system.md R380. -/
def Reg.MEM_TINKER_STS.off : Nat := 0x510028
/-- Field PASSES of MEM_TINKER_STS, bits 15:0. -/
def Reg.MEM_TINKER_STS.PASSES : Fld := ⟨Reg.MEM_TINKER_STS.off, 0, 16⟩
/-- Field LATE of MEM_TINKER_STS, bits 16:16. -/
def Reg.MEM_TINKER_STS.LATE : Fld := ⟨Reg.MEM_TINKER_STS.off, 16, 1⟩
/-- MEM_RSPILL_BASE_LO: 14_memory_system.md R394. -/
def Reg.MEM_RSPILL_BASE_LO.off : Nat := 0x510030
/-- Field ADDR_LO of MEM_RSPILL_BASE_LO, bits 31:20. -/
def Reg.MEM_RSPILL_BASE_LO.ADDR_LO : Fld := ⟨Reg.MEM_RSPILL_BASE_LO.off, 20, 12⟩
/-- MEM_RSPILL_BASE_HI: 14_memory_system.md R394. -/
def Reg.MEM_RSPILL_BASE_HI.off : Nat := 0x510034
/-- Field ADDR_HI of MEM_RSPILL_BASE_HI, bits 8:0. -/
def Reg.MEM_RSPILL_BASE_HI.ADDR_HI : Fld := ⟨Reg.MEM_RSPILL_BASE_HI.off, 0, 9⟩
/-- MEM_RSPILL_SIZE: 14_memory_system.md R394. -/
def Reg.MEM_RSPILL_SIZE.off : Nat := 0x510038
/-- Field MIB of MEM_RSPILL_SIZE, bits 12:0. -/
def Reg.MEM_RSPILL_SIZE.MIB : Fld := ⟨Reg.MEM_RSPILL_SIZE.off, 0, 13⟩
/-- MEM_IMG_BASE_LO: 14_memory_system.md R394. -/
def Reg.MEM_IMG_BASE_LO.off : Nat := 0x510040
/-- Field ADDR_LO of MEM_IMG_BASE_LO, bits 31:20. -/
def Reg.MEM_IMG_BASE_LO.ADDR_LO : Fld := ⟨Reg.MEM_IMG_BASE_LO.off, 20, 12⟩
/-- MEM_IMG_BASE_HI: 14_memory_system.md R394. -/
def Reg.MEM_IMG_BASE_HI.off : Nat := 0x510044
/-- Field ADDR_HI of MEM_IMG_BASE_HI, bits 8:0. -/
def Reg.MEM_IMG_BASE_HI.ADDR_HI : Fld := ⟨Reg.MEM_IMG_BASE_HI.off, 0, 9⟩
/-- MEM_IMG_SIZE: 14_memory_system.md R394. -/
def Reg.MEM_IMG_SIZE.off : Nat := 0x510048
/-- Field MIB of MEM_IMG_SIZE, bits 12:0. -/
def Reg.MEM_IMG_SIZE.MIB : Fld := ⟨Reg.MEM_IMG_SIZE.off, 0, 13⟩
/-- MEM_HOST_DDR: 14_memory_system.md R398. -/
def Reg.MEM_HOST_DDR.off (h : Nat) : Nat := 0x510050 + 0x4 * h
/-- Field FIRST_GIB of MEM_HOST_DDR, bits 10:0. -/
def Reg.MEM_HOST_DDR.FIRST_GIB (h : Nat) : Fld := ⟨Reg.MEM_HOST_DDR.off h, 0, 11⟩
/-- Field LAST_GIB of MEM_HOST_DDR, bits 26:16. -/
def Reg.MEM_HOST_DDR.LAST_GIB (h : Nat) : Fld := ⟨Reg.MEM_HOST_DDR.off h, 16, 11⟩
/-- MEM_SRAM_CE: 14_memory_system.md R378. -/
def Reg.MEM_SRAM_CE.off (d : Nat) : Nat := 0x510100 + 0x8 * d
/-- Field COUNT of MEM_SRAM_CE, bits 31:0. -/
def Reg.MEM_SRAM_CE.COUNT (d : Nat) : Fld := ⟨Reg.MEM_SRAM_CE.off d, 0, 32⟩
/-- MEM_SRAM_UE: 14_memory_system.md R378. -/
def Reg.MEM_SRAM_UE.off (d : Nat) : Nat := 0x510104 + 0x8 * d
/-- Field COUNT of MEM_SRAM_UE, bits 31:0. -/
def Reg.MEM_SRAM_UE.COUNT (d : Nat) : Fld := ⟨Reg.MEM_SRAM_UE.off d, 0, 32⟩
/-- MEM_TINKER_REPAIR: 14_memory_system.md R381. -/
def Reg.MEM_TINKER_REPAIR.off : Nat := 0x510130
/-- Field COUNT of MEM_TINKER_REPAIR, bits 31:0. -/
def Reg.MEM_TINKER_REPAIR.COUNT : Fld := ⟨Reg.MEM_TINKER_REPAIR.off, 0, 32⟩
/-- MEM_TINKER_RETIRE: 14_memory_system.md R381. -/
def Reg.MEM_TINKER_RETIRE.off : Nat := 0x510134
/-- Field COUNT of MEM_TINKER_RETIRE, bits 31:0. -/
def Reg.MEM_TINKER_RETIRE.COUNT : Fld := ⟨Reg.MEM_TINKER_RETIRE.off, 0, 32⟩
/-- MEM_TINKER_LATE: 14_memory_system.md R380. -/
def Reg.MEM_TINKER_LATE.off : Nat := 0x510138
/-- Field COUNT of MEM_TINKER_LATE, bits 31:0. -/
def Reg.MEM_TINKER_LATE.COUNT : Fld := ⟨Reg.MEM_TINKER_LATE.off, 0, 32⟩
/-- MEM_REG_W0: 14_memory_system.md R396. -/
def Reg.MEM_REG_W0.off (r : Nat) : Nat := 0x520000 + 0x10 * r
/-- Field BASE_MIB of MEM_REG_W0, bits 20:0. -/
def Reg.MEM_REG_W0.BASE_MIB (r : Nat) : Fld := ⟨Reg.MEM_REG_W0.off r, 0, 21⟩
/-- MEM_REG_W1: 14_memory_system.md R396. -/
def Reg.MEM_REG_W1.off (r : Nat) : Nat := 0x520004 + 0x10 * r
/-- Field SIZE_MIB of MEM_REG_W1, bits 21:0. -/
def Reg.MEM_REG_W1.SIZE_MIB (r : Nat) : Fld := ⟨Reg.MEM_REG_W1.off r, 0, 22⟩
/-- MEM_REG_W2: 14_memory_system.md R396. -/
def Reg.MEM_REG_W2.off (r : Nat) : Nat := 0x520008 + 0x10 * r
/-- Field PARTITION of MEM_REG_W2, bits 5:0. -/
def Reg.MEM_REG_W2.PARTITION (r : Nat) : Fld := ⟨Reg.MEM_REG_W2.off r, 0, 6⟩
/-- Field INSTANCE of MEM_REG_W2, bits 15:6. -/
def Reg.MEM_REG_W2.INSTANCE (r : Nat) : Fld := ⟨Reg.MEM_REG_W2.off r, 6, 10⟩
/-- Field BOUND of MEM_REG_W2, bits 16:16. -/
def Reg.MEM_REG_W2.BOUND (r : Nat) : Fld := ⟨Reg.MEM_REG_W2.off r, 16, 1⟩
/-- Field VALID of MEM_REG_W2, bits 31:31. -/
def Reg.MEM_REG_W2.VALID (r : Nat) : Fld := ⟨Reg.MEM_REG_W2.off r, 31, 1⟩
/-- MEM_REG_W3: 14_memory_system.md R397. -/
def Reg.MEM_REG_W3.off (r : Nat) : Nat := 0x52000C + 0x10 * r
/-- Field FILL of MEM_REG_W3, bits 0:0. -/
def Reg.MEM_REG_W3.FILL (r : Nat) : Fld := ⟨Reg.MEM_REG_W3.off r, 0, 1⟩
/-- CLUSTER_CORE_FUSE: 02_floor_plan_and_numbering.md R40. -/
def Reg.CLUSTER_CORE_FUSE.off (k i : Nat) : Nat := 0x600000 + 0x4000 * k + 0x4 * i
/-- Field PCORES of CLUSTER_CORE_FUSE, bits 31:0. -/
def Reg.CLUSTER_CORE_FUSE.PCORES (k i : Nat) : Fld := ⟨Reg.CLUSTER_CORE_FUSE.off k i, 0, 32⟩
/-- CLUSTER_CORE_FENCE: 02_floor_plan_and_numbering.md R40. -/
def Reg.CLUSTER_CORE_FENCE.off (k i : Nat) : Nat := 0x60000C + 0x4000 * k + 0x4 * i
/-- Field PCORES of CLUSTER_CORE_FENCE, bits 31:0. -/
def Reg.CLUSTER_CORE_FENCE.PCORES (k i : Nat) : Fld := ⟨Reg.CLUSTER_CORE_FENCE.off k i, 0, 32⟩
/-- CLUSTER_UNIT_FUSE: 02_floor_plan_and_numbering.md R40. -/
def Reg.CLUSTER_UNIT_FUSE.off (k : Nat) : Nat := 0x600018 + 0x4000 * k
/-- Field AES of CLUSTER_UNIT_FUSE, bits 5:0. -/
def Reg.CLUSTER_UNIT_FUSE.AES (k : Nat) : Fld := ⟨Reg.CLUSTER_UNIT_FUSE.off k, 0, 6⟩
/-- Field KENNEL of CLUSTER_UNIT_FUSE, bits 21:6. -/
def Reg.CLUSTER_UNIT_FUSE.KENNEL (k : Nat) : Fld := ⟨Reg.CLUSTER_UNIT_FUSE.off k, 6, 16⟩
/-- Field REDUCE of CLUSTER_UNIT_FUSE, bits 22:22. -/
def Reg.CLUSTER_UNIT_FUSE.REDUCE (k : Nat) : Fld := ⟨Reg.CLUSTER_UNIT_FUSE.off k, 22, 1⟩
/-- Field DROVER of CLUSTER_UNIT_FUSE, bits 23:23. -/
def Reg.CLUSTER_UNIT_FUSE.DROVER (k : Nat) : Fld := ⟨Reg.CLUSTER_UNIT_FUSE.off k, 23, 1⟩
/-- CLUSTER_UNIT_FENCE: 02_floor_plan_and_numbering.md R40. -/
def Reg.CLUSTER_UNIT_FENCE.off (k : Nat) : Nat := 0x60001C + 0x4000 * k
/-- Field AES of CLUSTER_UNIT_FENCE, bits 5:0. -/
def Reg.CLUSTER_UNIT_FENCE.AES (k : Nat) : Fld := ⟨Reg.CLUSTER_UNIT_FENCE.off k, 0, 6⟩
/-- Field KENNEL of CLUSTER_UNIT_FENCE, bits 21:6. -/
def Reg.CLUSTER_UNIT_FENCE.KENNEL (k : Nat) : Fld := ⟨Reg.CLUSTER_UNIT_FENCE.off k, 6, 16⟩
/-- Field REDUCE of CLUSTER_UNIT_FENCE, bits 22:22. -/
def Reg.CLUSTER_UNIT_FENCE.REDUCE (k : Nat) : Fld := ⟨Reg.CLUSTER_UNIT_FENCE.off k, 22, 1⟩
/-- Field DROVER of CLUSTER_UNIT_FENCE, bits 23:23. -/
def Reg.CLUSTER_UNIT_FENCE.DROVER (k : Nat) : Fld := ⟨Reg.CLUSTER_UNIT_FENCE.off k, 23, 1⟩
/-- CLUSTER_FENCE_DROP: 02_floor_plan_and_numbering.md R43. -/
def Reg.CLUSTER_FENCE_DROP.off (k : Nat) : Nat := 0x600020 + 0x4000 * k
/-- Field COUNT of CLUSTER_FENCE_DROP, bits 31:0. -/
def Reg.CLUSTER_FENCE_DROP.COUNT (k : Nat) : Fld := ⟨Reg.CLUSTER_FENCE_DROP.off k, 0, 32⟩
/-- CLUSTER_STAGE_DROP: 10_cores_and_hyl_instruction_set.md R298. -/
def Reg.CLUSTER_STAGE_DROP.off (k : Nat) : Nat := 0x600024 + 0x4000 * k
/-- Field COUNT of CLUSTER_STAGE_DROP, bits 31:0. -/
def Reg.CLUSTER_STAGE_DROP.COUNT (k : Nat) : Fld := ⟨Reg.CLUSTER_STAGE_DROP.off k, 0, 32⟩
/-- CLUSTER_MSG_DROP: 10_cores_and_hyl_instruction_set.md R294. -/
def Reg.CLUSTER_MSG_DROP.off (k : Nat) : Nat := 0x600028 + 0x4000 * k
/-- Field COUNT of CLUSTER_MSG_DROP, bits 31:0. -/
def Reg.CLUSTER_MSG_DROP.COUNT (k : Nat) : Fld := ⟨Reg.CLUSTER_MSG_DROP.off k, 0, 32⟩
/-- CLUSTER_CORE_EXC: 10_cores_and_hyl_instruction_set.md R300. -/
def Reg.CLUSTER_CORE_EXC.off (k : Nat) : Nat := 0x60002C + 0x4000 * k
/-- Field COUNT of CLUSTER_CORE_EXC, bits 31:0. -/
def Reg.CLUSTER_CORE_EXC.COUNT (k : Nat) : Fld := ⟨Reg.CLUSTER_CORE_EXC.off k, 0, 32⟩
/-- CLUSTER_RED_STS: 11_inflight_arithmetic_and_whippet_path.md R326. -/
def Reg.CLUSTER_RED_STS.off (k : Nat) : Nat := 0x600030 + 0x4000 * k
/-- Field RESERVED of CLUSTER_RED_STS, bits 8:0. -/
def Reg.CLUSTER_RED_STS.RESERVED (k : Nat) : Fld := ⟨Reg.CLUSTER_RED_STS.off k, 0, 9⟩
/-- Field INUSE of CLUSTER_RED_STS, bits 24:16. -/
def Reg.CLUSTER_RED_STS.INUSE (k : Nat) : Fld := ⟨Reg.CLUSTER_RED_STS.off k, 16, 9⟩
/-- CLUSTER_RED_ERR: 11_inflight_arithmetic_and_whippet_path.md R322. -/
def Reg.CLUSTER_RED_ERR.off (k : Nat) : Nat := 0x600034 + 0x4000 * k
/-- Field STATUS of CLUSTER_RED_ERR, bits 7:0. -/
def Reg.CLUSTER_RED_ERR.STATUS (k : Nat) : Fld := ⟨Reg.CLUSTER_RED_ERR.off k, 0, 8⟩
/-- Field CORE of CLUSTER_RED_ERR, bits 19:8. -/
def Reg.CLUSTER_RED_ERR.CORE (k : Nat) : Fld := ⟨Reg.CLUSTER_RED_ERR.off k, 8, 12⟩
/-- CLUSTER_RED_REFUSED: 11_inflight_arithmetic_and_whippet_path.md R322. -/
def Reg.CLUSTER_RED_REFUSED.off (k : Nat) : Nat := 0x600038 + 0x4000 * k
/-- Field COUNT of CLUSTER_RED_REFUSED, bits 31:0. -/
def Reg.CLUSTER_RED_REFUSED.COUNT (k : Nat) : Fld := ⟨Reg.CLUSTER_RED_REFUSED.off k, 0, 32⟩
/-- CLUSTER_RED_FAILED: 11_inflight_arithmetic_and_whippet_path.md R330. -/
def Reg.CLUSTER_RED_FAILED.off (k : Nat) : Nat := 0x60003C + 0x4000 * k
/-- Field COUNT of CLUSTER_RED_FAILED, bits 31:0. -/
def Reg.CLUSTER_RED_FAILED.COUNT (k : Nat) : Fld := ⟨Reg.CLUSTER_RED_FAILED.off k, 0, 32⟩
/-- CLUSTER_RED_SPILL: 11_inflight_arithmetic_and_whippet_path.md R327. -/
def Reg.CLUSTER_RED_SPILL.off (k : Nat) : Nat := 0x600040 + 0x4000 * k
/-- Field COUNT of CLUSTER_RED_SPILL, bits 31:0. -/
def Reg.CLUSTER_RED_SPILL.COUNT (k : Nat) : Fld := ⟨Reg.CLUSTER_RED_SPILL.off k, 0, 32⟩
/-- CLUSTER_RED_SPILL_WAIT: 11_inflight_arithmetic_and_whippet_path.md R328. -/
def Reg.CLUSTER_RED_SPILL_WAIT.off (k : Nat) : Nat := 0x600044 + 0x4000 * k
/-- Field COUNT of CLUSTER_RED_SPILL_WAIT, bits 31:0. -/
def Reg.CLUSTER_RED_SPILL_WAIT.COUNT (k : Nat) : Fld := ⟨Reg.CLUSTER_RED_SPILL_WAIT.off k, 0, 32⟩
/-- CLUSTER_FRAME_BAD: 11_inflight_arithmetic_and_whippet_path.md R334. -/
def Reg.CLUSTER_FRAME_BAD.off (k : Nat) : Nat := 0x600048 + 0x4000 * k
/-- Field COUNT of CLUSTER_FRAME_BAD, bits 31:0. -/
def Reg.CLUSTER_FRAME_BAD.COUNT (k : Nat) : Fld := ⟨Reg.CLUSTER_FRAME_BAD.off k, 0, 32⟩
/-- CLUSTER_RED_OPEN: 11_inflight_arithmetic_and_whippet_path.md R320. -/
def Reg.CLUSTER_RED_OPEN.off (k : Nat) : Nat := 0x60004C + 0x4000 * k
/-- Field SEGMENTS of CLUSTER_RED_OPEN, bits 10:0. -/
def Reg.CLUSTER_RED_OPEN.SEGMENTS (k : Nat) : Fld := ⟨Reg.CLUSTER_RED_OPEN.off k, 0, 11⟩
/-- Field SPILLED of CLUSTER_RED_OPEN, bits 26:16. -/
def Reg.CLUSTER_RED_OPEN.SPILLED (k : Nat) : Fld := ⟨Reg.CLUSTER_RED_OPEN.off k, 16, 11⟩
/-- CLUSTER_LMAP: 02_floor_plan_and_numbering.md R44. -/
def Reg.CLUSTER_LMAP.off (k n : Nat) : Nat := 0x600100 + 0x4000 * k + 0x4 * n
/-- Field PCORE of CLUSTER_LMAP, bits 6:0. -/
def Reg.CLUSTER_LMAP.PCORE (k n : Nat) : Fld := ⟨Reg.CLUSTER_LMAP.off k n, 0, 7⟩
/-- Field VACANT of CLUSTER_LMAP, bits 7:7. -/
def Reg.CLUSTER_LMAP.VACANT (k n : Nat) : Fld := ⟨Reg.CLUSTER_LMAP.off k n, 7, 1⟩
/-- Field NEXT_PCORE of CLUSTER_LMAP, bits 14:8. -/
def Reg.CLUSTER_LMAP.NEXT_PCORE (k n : Nat) : Fld := ⟨Reg.CLUSTER_LMAP.off k n, 8, 7⟩
/-- Field NEXT_VACANT of CLUSTER_LMAP, bits 15:15. -/
def Reg.CLUSTER_LMAP.NEXT_VACANT (k n : Nat) : Fld := ⟨Reg.CLUSTER_LMAP.off k n, 15, 1⟩
/-- Field FENCED of CLUSTER_LMAP, bits 16:16. -/
def Reg.CLUSTER_LMAP.FENCED (k n : Nat) : Fld := ⟨Reg.CLUSTER_LMAP.off k n, 16, 1⟩
/-- CLUSTER_CORE_STS: 10_cores_and_hyl_instruction_set.md R302. -/
def Reg.CLUSTER_CORE_STS.off (k n : Nat) : Nat := 0x600200 + 0x4000 * k + 0x4 * n
/-- Field STATE of CLUSTER_CORE_STS, bits 2:0. -/
def Reg.CLUSTER_CORE_STS.STATE (k n : Nat) : Fld := ⟨Reg.CLUSTER_CORE_STS.off k n, 0, 3⟩
/-- Field SERVICE of CLUSTER_CORE_STS, bits 3:3. -/
def Reg.CLUSTER_CORE_STS.SERVICE (k n : Nat) : Fld := ⟨Reg.CLUSTER_CORE_STS.off k n, 3, 1⟩
/-- Field STAGE of CLUSTER_CORE_STS, bits 4:4. -/
def Reg.CLUSTER_CORE_STS.STAGE (k n : Nat) : Fld := ⟨Reg.CLUSTER_CORE_STS.off k n, 4, 1⟩
/-- Field SPMODE of CLUSTER_CORE_STS, bits 5:5. -/
def Reg.CLUSTER_CORE_STS.SPMODE (k n : Nat) : Fld := ⟨Reg.CLUSTER_CORE_STS.off k n, 5, 1⟩
/-- Field SECURE of CLUSTER_CORE_STS, bits 6:6. -/
def Reg.CLUSTER_CORE_STS.SECURE (k n : Nat) : Fld := ⟨Reg.CLUSTER_CORE_STS.off k n, 6, 1⟩
/-- Field PARTITION of CLUSTER_CORE_STS, bits 13:8. -/
def Reg.CLUSTER_CORE_STS.PARTITION (k n : Nat) : Fld := ⟨Reg.CLUSTER_CORE_STS.off k n, 8, 6⟩
/-- Field CAUSE of CLUSTER_CORE_STS, bits 23:16. -/
def Reg.CLUSTER_CORE_STS.CAUSE (k n : Nat) : Fld := ⟨Reg.CLUSTER_CORE_STS.off k n, 16, 8⟩
/-- Field EVENTS of CLUSTER_CORE_STS, bits 28:24. -/
def Reg.CLUSTER_CORE_STS.EVENTS (k n : Nat) : Fld := ⟨Reg.CLUSTER_CORE_STS.off k n, 24, 5⟩
/-- CLUSTER_CORE_HANDLE: 10_cores_and_hyl_instruction_set.md R306. -/
def Reg.CLUSTER_CORE_HANDLE.off (k n : Nat) : Nat := 0x600300 + 0x4000 * k + 0x4 * n
/-- Field HANDLE of CLUSTER_CORE_HANDLE, bits 31:0. -/
def Reg.CLUSTER_CORE_HANDLE.HANDLE (k n : Nat) : Fld := ⟨Reg.CLUSTER_CORE_HANDLE.off k n, 0, 32⟩
/-- CLUSTER_CORE_EPC: 10_cores_and_hyl_instruction_set.md R300. -/
def Reg.CLUSTER_CORE_EPC.off (k n : Nat) : Nat := 0x600400 + 0x4000 * k + 0x4 * n
/-- Field EPC of CLUSTER_CORE_EPC, bits 17:0. -/
def Reg.CLUSTER_CORE_EPC.EPC (k n : Nat) : Fld := ⟨Reg.CLUSTER_CORE_EPC.off k n, 0, 18⟩
/-- CLUSTER_PLD_ADDR_LO: 10_cores_and_hyl_instruction_set.md R304. -/
def Reg.CLUSTER_PLD_ADDR_LO.off (k h : Nat) : Nat := 0x600800 + 0x4000 * k + 0x40 * h
/-- Field ADDR_LO of CLUSTER_PLD_ADDR_LO, bits 31:12. -/
def Reg.CLUSTER_PLD_ADDR_LO.ADDR_LO (k h : Nat) : Fld := ⟨Reg.CLUSTER_PLD_ADDR_LO.off k h, 12, 20⟩
/-- CLUSTER_PLD_ADDR_HI: 10_cores_and_hyl_instruction_set.md R304. -/
def Reg.CLUSTER_PLD_ADDR_HI.off (k h : Nat) : Nat := 0x600804 + 0x4000 * k + 0x40 * h
/-- Field ADDR_HI of CLUSTER_PLD_ADDR_HI, bits 19:0. -/
def Reg.CLUSTER_PLD_ADDR_HI.ADDR_HI (k h : Nat) : Fld := ⟨Reg.CLUSTER_PLD_ADDR_HI.off k h, 0, 20⟩
/-- Field SPACE of CLUSTER_PLD_ADDR_HI, bits 31:31. -/
def Reg.CLUSTER_PLD_ADDR_HI.SPACE (k h : Nat) : Fld := ⟨Reg.CLUSTER_PLD_ADDR_HI.off k h, 31, 1⟩
/-- CLUSTER_PLD_LEN: 10_cores_and_hyl_instruction_set.md R304. -/
def Reg.CLUSTER_PLD_LEN.off (k h : Nat) : Nat := 0x600808 + 0x4000 * k + 0x40 * h
/-- Field PAGES of CLUSTER_PLD_LEN, bits 14:0. -/
def Reg.CLUSTER_PLD_LEN.PAGES (k h : Nat) : Fld := ⟨Reg.CLUSTER_PLD_LEN.off k h, 0, 15⟩
/-- CLUSTER_PLD_MASK_LO: 10_cores_and_hyl_instruction_set.md R304. -/
def Reg.CLUSTER_PLD_MASK_LO.off (k h : Nat) : Nat := 0x60080C + 0x4000 * k + 0x40 * h
/-- Field CORES_LO of CLUSTER_PLD_MASK_LO, bits 31:0. -/
def Reg.CLUSTER_PLD_MASK_LO.CORES_LO (k h : Nat) : Fld := ⟨Reg.CLUSTER_PLD_MASK_LO.off k h, 0, 32⟩
/-- CLUSTER_PLD_MASK_HI: 10_cores_and_hyl_instruction_set.md R304. -/
def Reg.CLUSTER_PLD_MASK_HI.off (k h : Nat) : Nat := 0x600810 + 0x4000 * k + 0x40 * h
/-- Field CORES_HI of CLUSTER_PLD_MASK_HI, bits 31:0. -/
def Reg.CLUSTER_PLD_MASK_HI.CORES_HI (k h : Nat) : Fld := ⟨Reg.CLUSTER_PLD_MASK_HI.off k h, 0, 32⟩
/-- CLUSTER_PLD_HANDLE: 10_cores_and_hyl_instruction_set.md R304. -/
def Reg.CLUSTER_PLD_HANDLE.off (k h : Nat) : Nat := 0x600814 + 0x4000 * k + 0x40 * h
/-- Field HANDLE of CLUSTER_PLD_HANDLE, bits 31:0. -/
def Reg.CLUSTER_PLD_HANDLE.HANDLE (k h : Nat) : Fld := ⟨Reg.CLUSTER_PLD_HANDLE.off k h, 0, 32⟩
/-- CLUSTER_PLD_CMD: 10_cores_and_hyl_instruction_set.md R304. -/
def Reg.CLUSTER_PLD_CMD.off (k h : Nat) : Nat := 0x600818 + 0x4000 * k + 0x40 * h
/-- Field PARTITION of CLUSTER_PLD_CMD, bits 5:0. -/
def Reg.CLUSTER_PLD_CMD.PARTITION (k h : Nat) : Fld := ⟨Reg.CLUSTER_PLD_CMD.off k h, 0, 6⟩
/-- Field DISPATCH of CLUSTER_PLD_CMD, bits 6:6. -/
def Reg.CLUSTER_PLD_CMD.DISPATCH (k h : Nat) : Fld := ⟨Reg.CLUSTER_PLD_CMD.off k h, 6, 1⟩
/-- Field OP of CLUSTER_PLD_CMD, bits 8:7. -/
def Reg.CLUSTER_PLD_CMD.OP (k h : Nat) : Fld := ⟨Reg.CLUSTER_PLD_CMD.off k h, 7, 2⟩
/-- Field GO of CLUSTER_PLD_CMD, bits 31:31. -/
def Reg.CLUSTER_PLD_CMD.GO (k h : Nat) : Fld := ⟨Reg.CLUSTER_PLD_CMD.off k h, 31, 1⟩
/-- CLUSTER_PLD_STS: 10_cores_and_hyl_instruction_set.md R304. -/
def Reg.CLUSTER_PLD_STS.off (k h : Nat) : Nat := 0x60081C + 0x4000 * k + 0x40 * h
/-- Field BUSY of CLUSTER_PLD_STS, bits 0:0. -/
def Reg.CLUSTER_PLD_STS.BUSY (k h : Nat) : Fld := ⟨Reg.CLUSTER_PLD_STS.off k h, 0, 1⟩
/-- Field DONE of CLUSTER_PLD_STS, bits 1:1. -/
def Reg.CLUSTER_PLD_STS.DONE (k h : Nat) : Fld := ⟨Reg.CLUSTER_PLD_STS.off k h, 1, 1⟩
/-- Field RESULT of CLUSTER_PLD_STS, bits 7:4. -/
def Reg.CLUSTER_PLD_STS.RESULT (k h : Nat) : Fld := ⟨Reg.CLUSTER_PLD_STS.off k h, 4, 4⟩
/-- CLUSTER_PLD_WCET: 10_cores_and_hyl_instruction_set.md R305. -/
def Reg.CLUSTER_PLD_WCET.off (k h e : Nat) : Nat := 0x600820 + 0x4000 * k + 0x40 * h + 0x4 * e
/-- Field CYCLES of CLUSTER_PLD_WCET, bits 31:0. -/
def Reg.CLUSTER_PLD_WCET.CYCLES (k h e : Nat) : Fld := ⟨Reg.CLUSTER_PLD_WCET.off k h e, 0, 32⟩
/-- CLUSTER_CONV_W0: 11_inflight_arithmetic_and_whippet_path.md R337. -/
def Reg.CLUSTER_CONV_W0.off (k e : Nat) : Nat := 0x601000 + 0x4000 * k + 0x10 * e
/-- Field KIND of CLUSTER_CONV_W0, bits 3:0. -/
def Reg.CLUSTER_CONV_W0.KIND (k e : Nat) : Fld := ⟨Reg.CLUSTER_CONV_W0.off k e, 0, 4⟩
/-- Field SFMT of CLUSTER_CONV_W0, bits 7:4. -/
def Reg.CLUSTER_CONV_W0.SFMT (k e : Nat) : Fld := ⟨Reg.CLUSTER_CONV_W0.off k e, 4, 4⟩
/-- Field DFMT of CLUSTER_CONV_W0, bits 11:8. -/
def Reg.CLUSTER_CONV_W0.DFMT (k e : Nat) : Fld := ⟨Reg.CLUSTER_CONV_W0.off k e, 8, 4⟩
/-- Field SEL of CLUSTER_CONV_W0, bits 12:12. -/
def Reg.CLUSTER_CONV_W0.SEL (k e : Nat) : Fld := ⟨Reg.CLUSTER_CONV_W0.off k e, 12, 1⟩
/-- Field PARTITION of CLUSTER_CONV_W0, bits 21:16. -/
def Reg.CLUSTER_CONV_W0.PARTITION (k e : Nat) : Fld := ⟨Reg.CLUSTER_CONV_W0.off k e, 16, 6⟩
/-- Field VALID of CLUSTER_CONV_W0, bits 31:31. -/
def Reg.CLUSTER_CONV_W0.VALID (k e : Nat) : Fld := ⟨Reg.CLUSTER_CONV_W0.off k e, 31, 1⟩
/-- CLUSTER_CONV_W1: 11_inflight_arithmetic_and_whippet_path.md R337. -/
def Reg.CLUSTER_CONV_W1.off (k e : Nat) : Nat := 0x601004 + 0x4000 * k + 0x10 * e
/-- Field W1 of CLUSTER_CONV_W1, bits 31:0. -/
def Reg.CLUSTER_CONV_W1.W1 (k e : Nat) : Fld := ⟨Reg.CLUSTER_CONV_W1.off k e, 0, 32⟩
/-- CLUSTER_CONV_W2: 11_inflight_arithmetic_and_whippet_path.md R337. -/
def Reg.CLUSTER_CONV_W2.off (k e : Nat) : Nat := 0x601008 + 0x4000 * k + 0x10 * e
/-- Field W2 of CLUSTER_CONV_W2, bits 31:0. -/
def Reg.CLUSTER_CONV_W2.W2 (k e : Nat) : Fld := ⟨Reg.CLUSTER_CONV_W2.off k e, 0, 32⟩
/-- CLUSTER_CONV_W3: 11_inflight_arithmetic_and_whippet_path.md R337. -/
def Reg.CLUSTER_CONV_W3.off (k e : Nat) : Nat := 0x60100C + 0x4000 * k + 0x10 * e
/-- Field TABLE_HI of CLUSTER_CONV_W3, bits 19:0. -/
def Reg.CLUSTER_CONV_W3.TABLE_HI (k e : Nat) : Fld := ⟨Reg.CLUSTER_CONV_W3.off k e, 0, 20⟩
/-- Field TSPACE of CLUSTER_CONV_W3, bits 21:20. -/
def Reg.CLUSTER_CONV_W3.TSPACE (k e : Nat) : Fld := ⟨Reg.CLUSTER_CONV_W3.off k e, 20, 2⟩
/-- TELEM_FAULT: 18_errors_and_telemetry.md R474. -/
def Reg.TELEM_FAULT.off : Nat := 0x700000
/-- Field FATAL of TELEM_FAULT, bits 0:0. -/
def Reg.TELEM_FAULT.FATAL : Fld := ⟨Reg.TELEM_FAULT.off, 0, 1⟩
/-- Field ALARM of TELEM_FAULT, bits 1:1. -/
def Reg.TELEM_FAULT.ALARM : Fld := ⟨Reg.TELEM_FAULT.off, 1, 1⟩
/-- Field BOOT of TELEM_FAULT, bits 2:2. -/
def Reg.TELEM_FAULT.BOOT : Fld := ⟨Reg.TELEM_FAULT.off, 2, 1⟩
/-- Field HTC_WDOG of TELEM_FAULT, bits 3:3. -/
def Reg.TELEM_FAULT.HTC_WDOG : Fld := ⟨Reg.TELEM_FAULT.off, 3, 1⟩
/-- TELEM_SMP_CTL: 18_errors_and_telemetry.md R477. -/
def Reg.TELEM_SMP_CTL.off : Nat := 0x700080
/-- Field EN of TELEM_SMP_CTL, bits 0:0. -/
def Reg.TELEM_SMP_CTL.EN : Fld := ⟨Reg.TELEM_SMP_CTL.off, 0, 1⟩
/-- Field INTERVAL_US of TELEM_SMP_CTL, bits 31:16. -/
def Reg.TELEM_SMP_CTL.INTERVAL_US : Fld := ⟨Reg.TELEM_SMP_CTL.off, 16, 16⟩
/-- TELEM_BOUND_MISS: 18_errors_and_telemetry.md R469. -/
def Reg.TELEM_BOUND_MISS.off : Nat := 0x700084
/-- Field COUNT of TELEM_BOUND_MISS, bits 31:0. -/
def Reg.TELEM_BOUND_MISS.COUNT : Fld := ⟨Reg.TELEM_BOUND_MISS.off, 0, 32⟩
/-- TELEM_UPTIME: 18_errors_and_telemetry.md R478. -/
def Reg.TELEM_UPTIME.off : Nat := 0x700088
/-- Field SECONDS of TELEM_UPTIME, bits 31:0. -/
def Reg.TELEM_UPTIME.SECONDS : Fld := ⟨Reg.TELEM_UPTIME.off, 0, 32⟩
/-- TELEM_EVQ_LO: 18_errors_and_telemetry.md R470. -/
def Reg.TELEM_EVQ_LO.off (h : Nat) : Nat := 0x700100 + 0x40 * h
/-- Field BASE_LO of TELEM_EVQ_LO, bits 31:5. -/
def Reg.TELEM_EVQ_LO.BASE_LO (h : Nat) : Fld := ⟨Reg.TELEM_EVQ_LO.off h, 5, 27⟩
/-- TELEM_EVQ_HI: 18_errors_and_telemetry.md R470. -/
def Reg.TELEM_EVQ_HI.off (h : Nat) : Nat := 0x700104 + 0x40 * h
/-- Field BASE_HI of TELEM_EVQ_HI, bits 19:0. -/
def Reg.TELEM_EVQ_HI.BASE_HI (h : Nat) : Fld := ⟨Reg.TELEM_EVQ_HI.off h, 0, 20⟩
/-- TELEM_EVQ_CTL: 18_errors_and_telemetry.md R472. -/
def Reg.TELEM_EVQ_CTL.off (h : Nat) : Nat := 0x700108 + 0x40 * h
/-- Field ENABLE of TELEM_EVQ_CTL, bits 0:0. -/
def Reg.TELEM_EVQ_CTL.ENABLE (h : Nat) : Fld := ⟨Reg.TELEM_EVQ_CTL.off h, 0, 1⟩
/-- Field LOG2_SIZE of TELEM_EVQ_CTL, bits 5:1. -/
def Reg.TELEM_EVQ_CTL.LOG2_SIZE (h : Nat) : Fld := ⟨Reg.TELEM_EVQ_CTL.off h, 1, 5⟩
/-- Field MOD_US of TELEM_EVQ_CTL, bits 23:8. -/
def Reg.TELEM_EVQ_CTL.MOD_US (h : Nat) : Fld := ⟨Reg.TELEM_EVQ_CTL.off h, 8, 16⟩
/-- TELEM_EVQ_PROD: 18_errors_and_telemetry.md R472. -/
def Reg.TELEM_EVQ_PROD.off (h : Nat) : Nat := 0x70010C + 0x40 * h
/-- Field INDEX of TELEM_EVQ_PROD, bits 15:0. -/
def Reg.TELEM_EVQ_PROD.INDEX (h : Nat) : Fld := ⟨Reg.TELEM_EVQ_PROD.off h, 0, 16⟩
/-- TELEM_EVQ_CONS: 18_errors_and_telemetry.md R472. -/
def Reg.TELEM_EVQ_CONS.off (h : Nat) : Nat := 0x700110 + 0x40 * h
/-- Field INDEX of TELEM_EVQ_CONS, bits 15:0. -/
def Reg.TELEM_EVQ_CONS.INDEX (h : Nat) : Fld := ⟨Reg.TELEM_EVQ_CONS.off h, 0, 16⟩
/-- TELEM_EVQ_LOST: 18_errors_and_telemetry.md R472. -/
def Reg.TELEM_EVQ_LOST.off (h : Nat) : Nat := 0x700114 + 0x40 * h
/-- Field COUNT of TELEM_EVQ_LOST, bits 31:0. -/
def Reg.TELEM_EVQ_LOST.COUNT (h : Nat) : Fld := ⟨Reg.TELEM_EVQ_LOST.off h, 0, 32⟩
/-- TELEM_EVQ_PEND: 18_errors_and_telemetry.md R472. -/
def Reg.TELEM_EVQ_PEND.off (h : Nat) : Nat := 0x700118 + 0x40 * h
/-- Field QUEUED of TELEM_EVQ_PEND, bits 6:0. -/
def Reg.TELEM_EVQ_PEND.QUEUED (h : Nat) : Fld := ⟨Reg.TELEM_EVQ_PEND.off h, 0, 7⟩
/-- TELEM_STK_STS: 18_errors_and_telemetry.md R473. -/
def Reg.TELEM_STK_STS.off : Nat := 0x700200
/-- Field COUNT of TELEM_STK_STS, bits 8:0. -/
def Reg.TELEM_STK_STS.COUNT : Fld := ⟨Reg.TELEM_STK_STS.off, 0, 9⟩
/-- Field OLDEST of TELEM_STK_STS, bits 23:16. -/
def Reg.TELEM_STK_STS.OLDEST : Fld := ⟨Reg.TELEM_STK_STS.off, 16, 8⟩
/-- Field LOST of TELEM_STK_STS, bits 24:24. -/
def Reg.TELEM_STK_STS.LOST : Fld := ⟨Reg.TELEM_STK_STS.off, 24, 1⟩
/-- TELEM_STK_IDX: 18_errors_and_telemetry.md R473. -/
def Reg.TELEM_STK_IDX.off : Nat := 0x700204
/-- Field INDEX of TELEM_STK_IDX, bits 7:0. -/
def Reg.TELEM_STK_IDX.INDEX : Fld := ⟨Reg.TELEM_STK_IDX.off, 0, 8⟩
/-- TELEM_STK_CTL: 18_errors_and_telemetry.md R473. -/
def Reg.TELEM_STK_CTL.off : Nat := 0x700208
/-- Field CLEAR of TELEM_STK_CTL, bits 0:0. -/
def Reg.TELEM_STK_CTL.CLEAR : Fld := ⟨Reg.TELEM_STK_CTL.off, 0, 1⟩
/-- TELEM_STK_DATA: 18_errors_and_telemetry.md R473. -/
def Reg.TELEM_STK_DATA.off (i : Nat) : Nat := 0x700220 + 0x4 * i
/-- Field DATA of TELEM_STK_DATA, bits 31:0. -/
def Reg.TELEM_STK_DATA.DATA (i : Nat) : Fld := ⟨Reg.TELEM_STK_DATA.off i, 0, 32⟩
/-- TELEM_FIT_FAIL: 18_errors_and_telemetry.md R478. -/
def Reg.TELEM_FIT_FAIL.off (u : Nat) : Nat := 0x700400 + 0x8 * u
/-- Field COUNT of TELEM_FIT_FAIL, bits 31:0. -/
def Reg.TELEM_FIT_FAIL.COUNT (u : Nat) : Fld := ⟨Reg.TELEM_FIT_FAIL.off u, 0, 32⟩
/-- TELEM_FIT_INT: 18_errors_and_telemetry.md R478. -/
def Reg.TELEM_FIT_INT.off (u : Nat) : Nat := 0x700404 + 0x8 * u
/-- Field COUNT of TELEM_FIT_INT, bits 31:0. -/
def Reg.TELEM_FIT_INT.COUNT (u : Nat) : Fld := ⟨Reg.TELEM_FIT_INT.off u, 0, 32⟩
/-- TELEM_QSMP: 18_errors_and_telemetry.md R477. -/
def Reg.TELEM_QSMP.off (p s c : Nat) : Nat := 0x710000 + 0x40 * p + 0x10 * s + 0x4 * c
/-- Field DEPTH of TELEM_QSMP, bits 15:0. -/
def Reg.TELEM_QSMP.DEPTH (p s c : Nat) : Fld := ⟨Reg.TELEM_QSMP.off p s c, 0, 16⟩
/-- Field DELAY of TELEM_QSMP, bits 31:16. -/
def Reg.TELEM_QSMP.DELAY (p s c : Nat) : Fld := ⟨Reg.TELEM_QSMP.off p s c, 16, 16⟩

/-- Registers of the GLB block, part 0. -/
def regsGLB0 : List RegRow := [
  ⟨"GLB_ID", 0x0, [], .none,
    [⟨0, 16, .ro, 25600, 0, 65535⟩, ⟨16, 8, .ro, 161, 0, 255⟩]⟩,
  ⟨"GLB_STS", 0x4, [], .both,
    [⟨0, 1, .ro, 0, 0, 1⟩, ⟨1, 4, .ro, 0, 0, 15⟩, ⟨5, 1, .ro, 0, 0, 1⟩, ⟨6, 4, .ro, 0, 0, 15⟩, ⟨10, 6, .ro, 0, 0, 63⟩, ⟨16, 1, .rw1c, 0, 0, 1⟩]⟩,
  ⟨"GLB_STRAP", 0x8, [], .none,
    [⟨0, 2, .ro, 0, 0, 3⟩, ⟨2, 2, .ro, 0, 0, 3⟩, ⟨4, 1, .ro, 0, 0, 1⟩, ⟨5, 1, .ro, 0, 0, 1⟩, ⟨16, 16, .ro, 0, 0, 65535⟩]⟩,
  ⟨"GLB_RESET", 0xC, [], .boot,
    [⟨0, 1, .w1s0, 0, 0, 1⟩, ⟨1, 1, .w1s0, 0, 0, 1⟩, ⟨2, 1, .w1s0, 0, 0, 1⟩]⟩,
  ⟨"GLB_CTL", 0x10, [], .boot,
    [⟨0, 1, .rw, 0, 0, 1⟩]⟩,
  ⟨"GLB_DET_STS", 0x14, [], .both,
    [⟨0, 1, .rw1c, 0, 0, 1⟩, ⟨1, 1, .ro, 0, 0, 1⟩]⟩,
  ⟨"GLB_FW_VER_LO", 0x18, [], .none,
    [⟨0, 32, .ro, 0, 0, 4294967295⟩]⟩,
  ⟨"GLB_FW_VER_HI", 0x1C, [], .none,
    [⟨0, 32, .ro, 0, 0, 4294967295⟩]⟩,
  ⟨"GLB_FW_ADDR_LO", 0x20, [], .boot,
    [⟨12, 20, .rw, 0, 0, 1048575⟩]⟩,
  ⟨"GLB_FW_ADDR_HI", 0x24, [], .boot,
    [⟨0, 20, .rw, 0, 0, 1048575⟩]⟩,
  ⟨"GLB_FW_LEN", 0x28, [], .boot,
    [⟨0, 15, .rw, 0, 0, 32767⟩]⟩,
  ⟨"GLB_FW_CMD", 0x2C, [], .boot,
    [⟨0, 1, .w1s0, 0, 0, 1⟩]⟩,
  ⟨"GLB_CRIER_STS", 0x30, [], .none,
    [⟨0, 4, .ro, 0, 0, 15⟩, ⟨4, 4, .ro, 0, 0, 15⟩, ⟨8, 13, .ro, 0, 0, 8191⟩, ⟨21, 11, .ro, 0, 0, 2047⟩]⟩,
  ⟨"GLB_BOOT_MS", 0x34, [], .none,
    [⟨0, 16, .ro, 0, 0, 65535⟩]⟩,
  ⟨"GLB_PORT_RST", 0x38, [], .portRst,
    [⟨0, 6, .rw, 0, 0, 63⟩, ⟨6, 1, .ro, 0, 0, 1⟩, ⟨31, 1, .w1s0, 0, 0, 1⟩]⟩,
  ⟨"GLB_DUM_GEN", 0x40, [], .none,
    [⟨0, 16, .ro, 0, 0, 65535⟩]⟩,
  ⟨"GLB_DUM_CTL", 0x44, [], .boot,
    [⟨0, 1, .w1s, 0, 0, 1⟩, ⟨1, 1, .rw1c, 0, 0, 1⟩]⟩,
  ⟨"GLB_DUM_CHAN", 0x48, [], .none,
    [⟨0, 16, .ro, 0, 0, 65535⟩, ⟨16, 16, .ro, 0, 0, 65535⟩]⟩,
  ⟨"GLB_DUM_LANE0", 0x50, [(4, 16)], .none,
    [⟨0, 32, .ro, 0, 0, 4294967295⟩]⟩,
  ⟨"GLB_DUM_LANE1", 0x54, [(4, 16)], .none,
    [⟨0, 32, .ro, 0, 0, 4294967295⟩]⟩]

/-- Registers of the GLB block, part 1. -/
def regsGLB1 : List RegRow := [
  ⟨"GLB_DUM_LANE2", 0x58, [(4, 16)], .none,
    [⟨0, 4, .ro, 0, 0, 15⟩]⟩,
  ⟨"GLB_DET_DIGEST", 0x100, [(8, 4)], .none,
    [⟨0, 32, .ro, 0, 0, 4294967295⟩]⟩]

/-- Registers of the GLB block. -/
def regsGLB : List RegRow := regsGLB0 ++ regsGLB1

/-- Registers of the TIME block, part 0. -/
def regsTIME0 : List RegRow := [
  ⟨"TIME_CTL", 0x10000, [], .both,
    [⟨0, 2, .rw, 0, 0, 3⟩, ⟨2, 1, .rw, 0, 0, 1⟩, ⟨3, 1, .w1s, 0, 0, 1⟩, ⟨4, 3, .rw, 4, 4, 6⟩]⟩,
  ⟨"TIME_STS", 0x10004, [], .both,
    [⟨0, 3, .ro, 1, 0, 7⟩, ⟨3, 1, .ro, 0, 0, 1⟩, ⟨4, 1, .rw1c, 0, 0, 1⟩, ⟨5, 1, .rw1c, 0, 0, 1⟩, ⟨6, 1, .rw1c, 0, 0, 1⟩, ⟨7, 1, .rw1c, 0, 0, 1⟩, ⟨16, 10, .ro, 0, 0, 1023⟩]⟩,
  ⟨"TIME_PORT", 0x10008, [], .both,
    [⟨0, 6, .rw, 0, 0, 63⟩]⟩,
  ⟨"TIME_HOLD_LIMIT", 0x1000C, [], .both,
    [⟨0, 10, .rw, 50, 1, 1000⟩]⟩,
  ⟨"TIME_NOW_LO", 0x10010, [], .both,
    [⟨0, 32, .ro, 0, 0, 4294967295⟩]⟩,
  ⟨"TIME_NOW_HI", 0x10014, [], .both,
    [⟨0, 32, .ro, 0, 0, 4294967295⟩]⟩,
  ⟨"TIME_NOW_FRAC", 0x10018, [], .both,
    [⟨0, 8, .ro, 0, 0, 255⟩]⟩,
  ⟨"TIME_SET_LO", 0x10020, [], .both,
    [⟨0, 32, .rw, 0, 0, 4294967295⟩]⟩,
  ⟨"TIME_SET_HI", 0x10024, [], .both,
    [⟨0, 32, .rw, 0, 0, 4294967295⟩]⟩,
  ⟨"TIME_OFFSET", 0x10028, [], .both,
    [⟨0, 32, .ro, 0, 0, 4294967295⟩]⟩,
  ⟨"TIME_LOST_CNT", 0x1002C, [], .both,
    [⟨0, 16, .rc, 0, 0, 65535⟩]⟩,
  ⟨"TIME_BAR_CTL", 0x10100, [(16, 16)], .both,
    [⟨0, 16, .rw, 200, 1, 65535⟩]⟩,
  ⟨"TIME_BAR_STS", 0x10104, [(16, 16)], .both,
    [⟨0, 16, .rc, 0, 0, 65535⟩, ⟨16, 1, .rw1c, 0, 0, 1⟩, ⟨17, 1, .rw1c, 0, 0, 1⟩]⟩]

/-- Registers of the TIME block. -/
def regsTIME : List RegRow := regsTIME0

/-- Registers of the TALLY block, part 0. -/
def regsTALLY0 : List RegRow := [
  ⟨"TALLY_ENV", 0x20000, [], .none,
    [⟨0, 10, .ro, 600, 0, 1023⟩]⟩,
  ⟨"TALLY_BUDGET", 0x20004, [], .boot,
    [⟨0, 10, .rw, 600, 0, 1023⟩]⟩,
  ⟨"TALLY_MIN", 0x20008, [], .none,
    [⟨0, 10, .ro, 140, 0, 1023⟩]⟩,
  ⟨"TALLY_FLOOR", 0x2000C, [], .none,
    [⟨0, 20, .ro, 139400, 0, 1048575⟩]⟩,
  ⟨"TALLY_STS", 0x20010, [], .both,
    [⟨0, 3, .ro, 0, 0, 7⟩, ⟨3, 1, .rw1c, 0, 0, 1⟩, ⟨4, 1, .rw1c, 0, 0, 1⟩, ⟨5, 1, .ro, 0, 0, 1⟩, ⟨6, 1, .ro, 0, 0, 1⟩, ⟨8, 4, .ro, 0, 0, 15⟩]⟩,
  ⟨"TALLY_PLAN", 0x20014, [], .boot,
    [⟨0, 1, .rw, 1, 0, 1⟩, ⟨1, 1, .rw, 1, 0, 1⟩, ⟨2, 1, .rw, 1, 0, 1⟩, ⟨8, 8, .rw, 10, 1, 255⟩, ⟨16, 8, .rw, 10, 1, 255⟩, ⟨24, 8, .rw, 100, 1, 255⟩]⟩,
  ⟨"TALLY_CAP_CTL", 0x20018, [], .boot,
    [⟨0, 10, .rw, 10, 1, 1000⟩]⟩,
  ⟨"TALLY_PS_CTL", 0x2001C, [], .boot,
    [⟨0, 1, .w1s0, 0, 0, 1⟩, ⟨1, 1, .w1s0, 0, 0, 1⟩]⟩,
  ⟨"TALLY_PS_STS", 0x20020, [], .both,
    [⟨0, 1, .ro, 0, 0, 1⟩, ⟨1, 1, .rw1c, 0, 0, 1⟩, ⟨4, 4, .ro, 0, 0, 15⟩]⟩,
  ⟨"TALLY_DEV_LAST", 0x20024, [], .none,
    [⟨0, 32, .ro, 0, 0, 4294967295⟩]⟩,
  ⟨"TALLY_WINDOW_LO", 0x20028, [], .none,
    [⟨0, 32, .ro, 0, 0, 4294967295⟩]⟩,
  ⟨"TALLY_WINDOW_HI", 0x2002C, [], .none,
    [⟨0, 32, .ro, 0, 0, 4294967295⟩]⟩,
  ⟨"TALLY_GATED_LO", 0x20030, [], .none,
    [⟨0, 32, .ro, 0, 0, 4294967295⟩]⟩,
  ⟨"TALLY_GATED_HI", 0x20034, [], .none,
    [⟨0, 32, .ro, 0, 0, 4294967295⟩]⟩,
  ⟨"TALLY_LOWERED_LO", 0x20038, [], .none,
    [⟨0, 32, .ro, 0, 0, 4294967295⟩]⟩,
  ⟨"TALLY_LOWERED_HI", 0x2003C, [], .none,
    [⟨0, 32, .ro, 0, 0, 4294967295⟩]⟩,
  ⟨"TALLY_OVERRUN_CNT", 0x20040, [], .none,
    [⟨0, 32, .rc, 0, 0, 4294967295⟩]⟩,
  ⟨"TALLY_CAP_CNT", 0x20044, [], .none,
    [⟨0, 32, .rc, 0, 0, 4294967295⟩]⟩,
  ⟨"TALLY_LOWER_CNT", 0x20048, [], .none,
    [⟨0, 32, .rc, 0, 0, 4294967295⟩]⟩,
  ⟨"TALLY_DOM_LAST", 0x20100, [(15, 16)], .none,
    [⟨0, 32, .ro, 0, 0, 4294967295⟩]⟩]

/-- Registers of the TALLY block, part 1. -/
def regsTALLY1 : List RegRow := [
  ⟨"TALLY_DOM_PEAK", 0x20104, [(15, 16)], .none,
    [⟨0, 32, .rc, 0, 0, 4294967295⟩]⟩,
  ⟨"TALLY_DOM_TOT_LO", 0x20108, [(15, 16)], .none,
    [⟨0, 32, .ro, 0, 0, 4294967295⟩]⟩,
  ⟨"TALLY_DOM_TOT_HI", 0x2010C, [(15, 16)], .none,
    [⟨0, 32, .ro, 0, 0, 4294967295⟩]⟩]

/-- Registers of the TALLY block. -/
def regsTALLY : List RegRow := regsTALLY0 ++ regsTALLY1

/-- Registers of the SEC block, part 0. -/
def regsSEC0 : List RegRow := [
  ⟨"SEC_DEVICE_ID", 0x30000, [(4, 4)], .none,
    [⟨0, 32, .ro, 0, 0, 4294967295⟩]⟩,
  ⟨"SEC_LC", 0x30010, [], .none,
    [⟨0, 3, .ro, 0, 0, 7⟩]⟩,
  ⟨"SEC_DBG", 0x30014, [], .both,
    [⟨0, 2, .ro, 0, 0, 3⟩, ⟨2, 2, .wo, 0, 0, 3⟩, ⟨4, 1, .ro, 0, 0, 1⟩]⟩,
  ⟨"SEC_BOOT_STS", 0x30018, [], .none,
    [⟨0, 4, .ro, 0, 0, 15⟩]⟩,
  ⟨"SEC_ALARM_STS", 0x30020, [], .both,
    [⟨0, 5, .rw1c, 0, 0, 31⟩, ⟨8, 5, .ro, 0, 0, 31⟩]⟩,
  ⟨"SEC_ALARM_EN", 0x30024, [], .both,
    [⟨0, 5, .rw, 31, 0, 31⟩]⟩,
  ⟨"SEC_ALARM_CNT", 0x30028, [], .both,
    [⟨0, 16, .rc, 0, 0, 65535⟩]⟩,
  ⟨"SEC_HOSTSEC", 0x30030, [(2, 4)], .both,
    [⟨0, 1, .rw, 0, 0, 1⟩, ⟨8, 4, .ro, 0, 0, 15⟩]⟩,
  ⟨"SEC_MB_ADDR_LO", 0x30100, [(2, 64)], .host 0,
    [⟨6, 26, .rw, 0, 0, 67108863⟩]⟩,
  ⟨"SEC_MB_ADDR_HI", 0x30104, [(2, 64)], .host 0,
    [⟨0, 20, .rw, 0, 0, 1048575⟩]⟩,
  ⟨"SEC_MB_CMD", 0x30108, [(2, 64)], .host 0,
    [⟨0, 4, .rw, 0, 0, 15⟩, ⟨8, 8, .rw, 0, 0, 255⟩, ⟨31, 1, .w1s0, 0, 0, 1⟩]⟩,
  ⟨"SEC_MB_STS", 0x3010C, [(2, 64)], .host 0,
    [⟨0, 1, .ro, 0, 0, 1⟩, ⟨1, 1, .rw1c, 0, 0, 1⟩, ⟨4, 4, .ro, 0, 0, 15⟩]⟩,
  ⟨"SEC_DMR", 0x30400, [(16, 32), (8, 4)], .none,
    [⟨0, 32, .ro, 0, 0, 4294967295⟩]⟩,
  ⟨"SEC_PMR", 0x30800, [(64, 32), (8, 4)], .none,
    [⟨0, 32, .ro, 0, 0, 4294967295⟩]⟩,
  ⟨"SEC_PKEY", 0x31000, [(64, 128), (4, 32), (8, 4)], .own 0,
    [⟨0, 32, .rwl, 0, 0, 4294967295⟩]⟩,
  ⟨"SEC_KEY_ADDR_LO", 0x33000, [(2, 64)], .host 0,
    [⟨6, 26, .rw, 0, 0, 67108863⟩]⟩,
  ⟨"SEC_KEY_ADDR_HI", 0x33004, [(2, 64)], .host 0,
    [⟨0, 20, .rw, 0, 0, 1048575⟩, ⟨31, 1, .rw, 0, 0, 1⟩]⟩,
  ⟨"SEC_KEY_CMD", 0x33008, [(2, 64)], .host 0,
    [⟨0, 12, .rw, 0, 0, 4095⟩, ⟨12, 2, .rw, 0, 0, 3⟩, ⟨31, 1, .w1s0, 0, 0, 1⟩]⟩,
  ⟨"SEC_KEY_STS", 0x3300C, [(2, 64)], .host 0,
    [⟨0, 1, .ro, 0, 0, 1⟩, ⟨1, 1, .rw1c, 0, 0, 1⟩, ⟨4, 4, .ro, 0, 0, 15⟩]⟩,
  ⟨"SEC_KSLOT", 0x34000, [(4096, 4)], .none,
    [⟨0, 1, .ro, 0, 0, 1⟩, ⟨1, 1, .ro, 0, 0, 1⟩]⟩]

/-- Registers of the SEC block. -/
def regsSEC : List RegRow := regsSEC0

/-- Registers of the HOSTIF block, part 0. -/
def regsHOSTIF0 : List RegRow := [
  ⟨"HOSTIF_QT_BASE_LO", 0x40000, [], .boot,
    [⟨25, 7, .rw, 0, 0, 127⟩]⟩,
  ⟨"HOSTIF_QT_BASE_HI", 0x40004, [], .boot,
    [⟨0, 20, .rw, 0, 0, 1048575⟩]⟩,
  ⟨"HOSTIF_QT_CTL", 0x40008, [], .boot,
    [⟨0, 1, .rw, 0, 0, 1⟩]⟩,
  ⟨"HOSTIF_SHADOW_BASE_LO", 0x4000C, [], .boot,
    [⟨20, 12, .rw, 0, 0, 4095⟩]⟩,
  ⟨"HOSTIF_SHADOW_BASE_HI", 0x40010, [], .boot,
    [⟨0, 20, .rw, 0, 0, 1048575⟩]⟩,
  ⟨"HOSTIF_SHADOW_SIZE", 0x40014, [], .boot,
    [⟨0, 13, .rw, 0, 0, 8191⟩]⟩,
  ⟨"HOSTIF_QSTS", 0x40018, [], .boot,
    [⟨0, 21, .ro, 0, 0, 2097151⟩]⟩,
  ⟨"HOSTIF_PORT_STS", 0x50000, [(2, 65536)], .host 0,
    [⟨0, 1, .ro, 0, 0, 1⟩, ⟨1, 2, .ro, 0, 0, 3⟩, ⟨3, 2, .ro, 0, 0, 3⟩, ⟨5, 1, .rw1c, 0, 0, 1⟩]⟩,
  ⟨"HOSTIF_PORT_CTL", 0x50004, [(2, 65536)], .host 0,
    [⟨0, 1, .rw, 0, 0, 1⟩]⟩,
  ⟨"HOSTIF_B4_CTL_LO", 0x50010, [(2, 65536)], .host 0,
    [⟨0, 1, .rw, 0, 0, 1⟩, ⟨1, 2, .rw, 1, 0, 3⟩, ⟨4, 6, .rw, 0, 0, 63⟩, ⟨20, 12, .rw, 0, 0, 4095⟩]⟩,
  ⟨"HOSTIF_B4_CTL_HI", 0x50014, [(2, 65536)], .host 0,
    [⟨0, 20, .rw, 0, 0, 1048575⟩]⟩,
  ⟨"HOSTIF_B4_STS", 0x50018, [(2, 65536)], .host 0,
    [⟨0, 1, .rw1c, 0, 0, 1⟩]⟩,
  ⟨"HOSTIF_QCMD_ADDR_LO", 0x50020, [(2, 65536)], .host 0,
    [⟨5, 27, .rw, 0, 0, 134217727⟩]⟩,
  ⟨"HOSTIF_QCMD_ADDR_HI", 0x50024, [(2, 65536)], .host 0,
    [⟨0, 20, .rw, 0, 0, 1048575⟩]⟩,
  ⟨"HOSTIF_QCMD", 0x50028, [(2, 65536)], .host 0,
    [⟨0, 20, .rw, 0, 0, 1048575⟩, ⟨20, 3, .rw, 0, 0, 7⟩, ⟨31, 1, .w1s0, 0, 0, 1⟩]⟩,
  ⟨"HOSTIF_QCMD_STS", 0x5002C, [(2, 65536)], .host 0,
    [⟨0, 1, .ro, 0, 0, 1⟩, ⟨1, 1, .rw1c, 0, 0, 1⟩, ⟨4, 4, .ro, 0, 0, 15⟩]⟩,
  ⟨"HOSTIF_DCINV", 0x50030, [(2, 65536)], .host 0,
    [⟨0, 20, .rw, 0, 0, 1048575⟩, ⟨31, 1, .w1s0, 0, 0, 1⟩]⟩,
  ⟨"HOSTIF_DCINV_STS", 0x50034, [(2, 65536)], .host 0,
    [⟨0, 1, .ro, 0, 0, 1⟩, ⟨1, 1, .rw1c, 0, 0, 1⟩, ⟨2, 1, .rw1c, 0, 0, 1⟩]⟩,
  ⟨"HOSTIF_DB_REJ", 0x50040, [(2, 65536)], .host 0,
    [⟨0, 32, .rc, 0, 0, 4294967295⟩]⟩,
  ⟨"HOSTIF_DB_AHEAD", 0x50044, [(2, 65536)], .host 0,
    [⟨0, 32, .rc, 0, 0, 4294967295⟩]⟩]

/-- Registers of the HOSTIF block, part 1. -/
def regsHOSTIF1 : List RegRow := [
  ⟨"HOSTIF_REFETCH", 0x50048, [(2, 65536)], .host 0,
    [⟨0, 32, .rc, 0, 0, 4294967295⟩]⟩,
  ⟨"HOSTIF_MALFORMED", 0x5004C, [(2, 65536)], .host 0,
    [⟨0, 32, .rc, 0, 0, 4294967295⟩]⟩,
  ⟨"HOSTIF_CQ_FULL", 0x50050, [(2, 65536)], .host 0,
    [⟨0, 32, .rc, 0, 0, 4294967295⟩]⟩,
  ⟨"HOSTIF_B4_HOLE", 0x50054, [(2, 65536)], .host 0,
    [⟨0, 32, .rc, 0, 0, 4294967295⟩]⟩,
  ⟨"HOSTIF_MSIX_ADDR_LO", 0x58000, [(2, 65536), (2048, 16)], .host 0,
    [⟨2, 30, .rw, 0, 0, 1073741823⟩]⟩,
  ⟨"HOSTIF_MSIX_ADDR_HI", 0x58004, [(2, 65536), (2048, 16)], .host 0,
    [⟨0, 32, .rw, 0, 0, 4294967295⟩]⟩,
  ⟨"HOSTIF_MSIX_DATA", 0x58008, [(2, 65536), (2048, 16)], .host 0,
    [⟨0, 32, .rw, 0, 0, 4294967295⟩]⟩,
  ⟨"HOSTIF_MSIX_CTL", 0x5800C, [(2, 65536), (2048, 16)], .host 0,
    [⟨0, 1, .rw, 1, 0, 1⟩]⟩,
  ⟨"HOSTIF_MSIX_PBA", 0x5C000, [(2, 65536), (64, 4)], .host 0,
    [⟨0, 32, .ro, 0, 0, 4294967295⟩]⟩]

/-- Registers of the HOSTIF block. -/
def regsHOSTIF : List RegRow := regsHOSTIF0 ++ regsHOSTIF1

/-- Registers of the PART block, part 0. -/
def regsPART0 : List RegRow := [
  ⟨"PART_HOST_CTL", 0x80000, [(2, 32)], .host 0,
    [⟨0, 16, .rw, 1000, 1, 60000⟩, ⟨16, 16, .rw, 0, 0, 65535⟩]⟩,
  ⟨"PART_HOST_KICK", 0x80004, [(2, 32)], .host 0,
    [⟨0, 1, .wo, 0, 0, 1⟩]⟩,
  ⟨"PART_HOST_STS", 0x80008, [(2, 32)], .host 0,
    [⟨0, 1, .ro, 0, 0, 1⟩, ⟨1, 1, .rw1c, 0, 0, 1⟩, ⟨2, 1, .rw1c, 0, 0, 1⟩]⟩,
  ⟨"PART_HOST_PORTS_LO", 0x8000C, [(2, 32)], .boot,
    [⟨0, 32, .rw, 4294967295, 0, 4294967295⟩]⟩,
  ⟨"PART_HOST_PORTS_HI", 0x80010, [(2, 32)], .boot,
    [⟨0, 32, .rw, 4294967295, 0, 4294967295⟩]⟩,
  ⟨"PART_HOST_CLUSTERS_LO", 0x80014, [(2, 32)], .boot,
    [⟨0, 32, .rw, 4294967295, 0, 4294967295⟩]⟩,
  ⟨"PART_HOST_CLUSTERS_HI", 0x80018, [(2, 32)], .boot,
    [⟨0, 32, .rw, 4294967295, 0, 4294967295⟩]⟩,
  ⟨"PART_ALLOC", 0x81000, [(64, 64)], .boot,
    [⟨0, 1, .w1s0, 0, 0, 1⟩, ⟨1, 1, .rw, 0, 0, 1⟩, ⟨2, 1, .rw, 0, 0, 1⟩, ⟨3, 1, .rw, 0, 0, 1⟩, ⟨4, 1, .rw, 0, 0, 1⟩]⟩,
  ⟨"PART_CTL", 0x81004, [(64, 64)], .own 0,
    [⟨0, 1, .w1s0, 0, 0, 1⟩, ⟨1, 1, .w1s0, 0, 0, 1⟩, ⟨2, 1, .w1s0, 0, 0, 1⟩, ⟨3, 1, .w1s0, 0, 0, 1⟩]⟩,
  ⟨"PART_STS", 0x81008, [(64, 64)], .own 0,
    [⟨0, 3, .ro, 0, 0, 7⟩, ⟨3, 1, .ro, 0, 0, 1⟩, ⟨4, 1, .ro, 0, 0, 1⟩, ⟨5, 1, .rw1c, 0, 0, 1⟩, ⟨16, 10, .ro, 0, 0, 1023⟩]⟩,
  ⟨"PART_ENERGY", 0x8100C, [(64, 64)], .own 0,
    [⟨0, 20, .rwl, 0, 0, 1048575⟩]⟩,
  ⟨"PART_KEYS", 0x81010, [(64, 64)], .own 0,
    [⟨0, 12, .rwl, 0, 0, 4095⟩, ⟨12, 13, .rwl, 0, 0, 8191⟩]⟩,
  ⟨"PART_AV_BASE_LO", 0x81014, [(64, 64)], .own 0,
    [⟨12, 20, .rwl, 0, 0, 1048575⟩]⟩,
  ⟨"PART_AV_BASE_HI", 0x81018, [(64, 64)], .own 0,
    [⟨0, 20, .rwl, 0, 0, 1048575⟩]⟩,
  ⟨"PART_AV_NUM", 0x8101C, [(64, 64)], .own 0,
    [⟨0, 20, .rwl, 0, 0, 1048575⟩]⟩,
  ⟨"PART_APT_BASE_LO", 0x82000, [(64, 128), (8, 16)], .own 0,
    [⟨0, 1, .rwl, 0, 0, 1⟩, ⟨12, 20, .rwl, 0, 0, 1048575⟩]⟩,
  ⟨"PART_APT_BASE_HI", 0x82004, [(64, 128), (8, 16)], .own 0,
    [⟨0, 20, .rwl, 0, 0, 1048575⟩]⟩,
  ⟨"PART_APT_LIMIT_LO", 0x82008, [(64, 128), (8, 16)], .own 0,
    [⟨12, 20, .rwl, 0, 0, 1048575⟩]⟩,
  ⟨"PART_APT_LIMIT_HI", 0x8200C, [(64, 128), (8, 16)], .own 0,
    [⟨0, 20, .rwl, 0, 0, 1048575⟩]⟩,
  ⟨"PART_PSHARE", 0x84000, [(64, 64), (16, 4)], .own 0,
    [⟨0, 6, .rwl, 0, 0, 63⟩, ⟨6, 2, .rwl, 0, 0, 3⟩, ⟨8, 8, .rwl, 0, 0, 255⟩, ⟨16, 13, .rwl, 0, 0, 8191⟩, ⟨29, 1, .rwl, 0, 0, 1⟩, ⟨31, 1, .rwl, 0, 0, 1⟩]⟩]

/-- Registers of the PART block, part 1. -/
def regsPART1 : List RegRow := [
  ⟨"PART_CORES_LO", 0x90000, [(64, 512), (64, 8)], .own 0,
    [⟨0, 32, .rwl, 0, 0, 4294967295⟩]⟩,
  ⟨"PART_CORES_HI", 0x90004, [(64, 512), (64, 8)], .own 0,
    [⟨0, 32, .rwl, 0, 0, 4294967295⟩]⟩,
  ⟨"PART_INST", 0xA0000, [(1023, 4)], .none,
    [⟨0, 6, .ro, 0, 0, 63⟩, ⟨6, 2, .ro, 0, 0, 3⟩]⟩,
  ⟨"PART_CMD_ADDR_LO", 0xB0000, [(2, 256)], .host 0,
    [⟨12, 20, .rw, 0, 0, 1048575⟩]⟩,
  ⟨"PART_CMD_ADDR_HI", 0xB0004, [(2, 256)], .host 0,
    [⟨0, 20, .rw, 0, 0, 1048575⟩, ⟨31, 1, .rw, 0, 0, 1⟩]⟩,
  ⟨"PART_CMD_LEN", 0xB0008, [(2, 256)], .host 0,
    [⟨0, 15, .rw, 0, 0, 32767⟩]⟩,
  ⟨"PART_CMD", 0xB000C, [(2, 256)], .host 0,
    [⟨0, 4, .rw, 0, 0, 15⟩, ⟨4, 1, .rw, 0, 0, 1⟩, ⟨5, 6, .rw, 0, 0, 63⟩, ⟨11, 10, .rw, 0, 0, 1023⟩, ⟨31, 1, .w1s0, 0, 0, 1⟩]⟩,
  ⟨"PART_CMD_KEY", 0xB0010, [(2, 256)], .host 0,
    [⟨0, 12, .rw, 0, 0, 4095⟩]⟩,
  ⟨"PART_CMD_STS", 0xB0014, [(2, 256)], .host 0,
    [⟨0, 1, .ro, 0, 0, 1⟩, ⟨1, 1, .rw1c, 0, 0, 1⟩, ⟨4, 4, .ro, 0, 0, 15⟩]⟩,
  ⟨"PART_CMD_BYTES", 0xB0018, [(2, 256)], .host 0,
    [⟨0, 32, .ro, 0, 0, 4294967295⟩]⟩,
  ⟨"WIN_STS", 0xC0000, [], .boot,
    [⟨0, 21, .ro, 0, 0, 2097151⟩, ⟨21, 1, .rw1c, 0, 0, 1⟩]⟩,
  ⟨"SHEEP_PARK_BASE_LO", 0xC0010, [], .boot,
    [⟨20, 12, .rw, 0, 0, 4095⟩]⟩,
  ⟨"SHEEP_PARK_BASE_HI", 0xC0014, [], .boot,
    [⟨0, 20, .rw, 0, 0, 1048575⟩]⟩,
  ⟨"SHEEP_PARK_SIZE", 0xC0018, [], .boot,
    [⟨0, 13, .rw, 0, 0, 8191⟩]⟩,
  ⟨"WIN_SHARE", 0xC1000, [(64, 32)], .own 0,
    [⟨0, 21, .rwl, 0, 0, 2097151⟩]⟩,
  ⟨"WIN_HELD", 0xC1004, [(64, 32)], .own 0,
    [⟨0, 21, .ro, 0, 0, 2097151⟩]⟩,
  ⟨"WIN_REVOKE", 0xC1008, [(64, 32)], .own 0,
    [⟨0, 32, .wo, 0, 0, 4294967295⟩]⟩,
  ⟨"WIN_REVOKE_STS", 0xC100C, [(64, 32)], .own 0,
    [⟨0, 1, .ro, 0, 0, 1⟩, ⟨1, 1, .rw1c, 0, 0, 1⟩, ⟨2, 1, .rw1c, 0, 0, 1⟩]⟩,
  ⟨"TRIG_BASE", 0xC1010, [(64, 32)], .own 0,
    [⟨0, 16, .rwl, 0, 0, 65535⟩]⟩,
  ⟨"TRIG_NUM", 0xC1014, [(64, 32)], .own 0,
    [⟨0, 17, .rwl, 0, 0, 131071⟩]⟩]

/-- Registers of the PART block, part 2. -/
def regsPART2 : List RegRow := [
  ⟨"WIN_PSTS", 0xC1018, [(64, 32)], .own 0,
    [⟨0, 1, .rw1c, 0, 0, 1⟩]⟩,
  ⟨"WIN_NOSLOT", 0xC101C, [(64, 32)], .own 0,
    [⟨0, 32, .rc, 0, 0, 4294967295⟩]⟩,
  ⟨"PART_CID_REJ", 0xC2000, [(64, 16)], .own 0,
    [⟨0, 32, .rc, 0, 0, 4294967295⟩]⟩,
  ⟨"TRIG_STALE", 0xC2004, [(64, 16)], .own 0,
    [⟨0, 32, .rc, 0, 0, 4294967295⟩]⟩,
  ⟨"SHEEP_RING_LO", 0xD0000, [(2, 256)], .host 0,
    [⟨5, 27, .rw, 0, 0, 134217727⟩]⟩,
  ⟨"SHEEP_RING_HI", 0xD0004, [(2, 256)], .host 0,
    [⟨0, 20, .rw, 0, 0, 1048575⟩]⟩,
  ⟨"SHEEP_RING_CTL", 0xD0008, [(2, 256)], .host 0,
    [⟨0, 1, .rw, 0, 0, 1⟩, ⟨1, 5, .rw, 8, 6, 16⟩]⟩,
  ⟨"SHEEP_PROD", 0xD000C, [(2, 256)], .host 0,
    [⟨0, 16, .ro, 0, 0, 65535⟩]⟩,
  ⟨"SHEEP_CONS", 0xD0010, [(2, 256)], .host 0,
    [⟨0, 16, .rw, 0, 0, 65535⟩]⟩,
  ⟨"SHEEP_RESOLVE", 0xD0014, [(2, 256)], .host 0,
    [⟨0, 12, .wo, 0, 0, 4095⟩, ⟨16, 1, .wo, 0, 0, 1⟩]⟩,
  ⟨"SHEEP_TIMEOUT", 0xD0018, [(2, 256)], .host 0,
    [⟨0, 16, .rw, 100, 1, 60000⟩]⟩,
  ⟨"SHEEP_STS", 0xD001C, [(2, 256)], .host 0,
    [⟨0, 13, .ro, 0, 0, 8191⟩]⟩,
  ⟨"SHEEP_JOIN", 0xD0020, [(2, 256)], .host 0,
    [⟨0, 32, .rc, 0, 0, 4294967295⟩]⟩,
  ⟨"SHEEP_TIMEOUT_CNT", 0xD0024, [(2, 256)], .host 0,
    [⟨0, 32, .rc, 0, 0, 4294967295⟩]⟩,
  ⟨"SHEEP_RESOLVE_REJ", 0xD0028, [(2, 256)], .host 0,
    [⟨0, 32, .rc, 0, 0, 4294967295⟩]⟩]

/-- Registers of the PART block. -/
def regsPART : List RegRow := regsPART0 ++ regsPART1 ++ regsPART2

/-- Registers of the SCHED block, part 0. -/
def regsSCHED0 : List RegRow := [
  ⟨"SCHED_STS", 0x100000, [], .none,
    [⟨0, 1, .ro, 0, 0, 1⟩, ⟨1, 1, .ro, 0, 0, 1⟩]⟩,
  ⟨"SCHED_ACTIVE_LO", 0x100008, [], .none,
    [⟨0, 32, .ro, 0, 0, 4294967295⟩]⟩,
  ⟨"SCHED_ACTIVE_HI", 0x10000C, [], .none,
    [⟨0, 32, .ro, 0, 0, 4294967295⟩]⟩,
  ⟨"SCHED_PENDING_LO", 0x100010, [], .none,
    [⟨0, 32, .ro, 0, 0, 4294967295⟩]⟩,
  ⟨"SCHED_PENDING_HI", 0x100014, [], .none,
    [⟨0, 32, .ro, 0, 0, 4294967295⟩]⟩,
  ⟨"SCHED_HYPER", 0x100018, [], .none,
    [⟨0, 21, .ro, 1, 0, 2097151⟩]⟩,
  ⟨"SCHED_HOST_LAT", 0x100020, [(2, 4)], .host 0,
    [⟨0, 16, .rw, 1000, 1, 65535⟩]⟩,
  ⟨"SCHED_POLICE_DROP", 0x100030, [], .none,
    [⟨0, 32, .rc, 0, 0, 4294967295⟩]⟩,
  ⟨"SCHED_SAMPLE_LOST", 0x100034, [], .none,
    [⟨0, 32, .rc, 0, 0, 4294967295⟩]⟩,
  ⟨"SCHED_IMG_LO", 0x101000, [(64, 256)], .own 0,
    [⟨12, 20, .rw, 0, 0, 1048575⟩]⟩,
  ⟨"SCHED_IMG_HI", 0x101004, [(64, 256)], .own 0,
    [⟨0, 20, .rw, 0, 0, 1048575⟩, ⟨31, 1, .rw, 0, 0, 1⟩]⟩,
  ⟨"SCHED_IMG_LEN", 0x101008, [(64, 256)], .own 0,
    [⟨0, 15, .rw, 0, 0, 32767⟩]⟩,
  ⟨"SCHED_CTL", 0x10100C, [(64, 256)], .own 0,
    [⟨0, 1, .w1s0, 0, 0, 1⟩, ⟨1, 1, .w1s0, 0, 0, 1⟩]⟩,
  ⟨"SCHED_ADM", 0x101010, [(64, 256)], .own 0,
    [⟨0, 8, .ro, 0, 0, 255⟩, ⟨8, 1, .ro, 0, 0, 1⟩, ⟨9, 1, .rw1c, 0, 0, 1⟩, ⟨10, 1, .rw1c, 0, 0, 1⟩, ⟨11, 1, .rw1c, 0, 0, 1⟩]⟩,
  ⟨"SCHED_ADM_ITEM", 0x101014, [(64, 256)], .own 0,
    [⟨0, 24, .ro, 0, 0, 16777215⟩, ⟨24, 4, .ro, 0, 0, 15⟩]⟩,
  ⟨"SCHED_ADM_VALUE", 0x101018, [(64, 256)], .own 0,
    [⟨0, 32, .ro, 0, 0, 4294967295⟩]⟩,
  ⟨"SCHED_TAKEOVER_LO", 0x101020, [(64, 256)], .own 0,
    [⟨0, 32, .ro, 0, 0, 4294967295⟩]⟩,
  ⟨"SCHED_TAKEOVER_HI", 0x101024, [(64, 256)], .own 0,
    [⟨0, 32, .ro, 0, 0, 4294967295⟩]⟩,
  ⟨"SCHED_STATE", 0x101028, [(64, 256)], .own 0,
    [⟨0, 2, .ro, 0, 0, 3⟩, ⟨2, 2, .ro, 0, 0, 3⟩]⟩,
  ⟨"SCHED_ENERGY_ACT", 0x10102C, [(64, 256)], .own 0,
    [⟨0, 32, .ro, 0, 0, 4294967295⟩]⟩]

/-- Registers of the SCHED block, part 1. -/
def regsSCHED1 : List RegRow := [
  ⟨"SCHED_ENERGY_PEND", 0x101030, [(64, 256)], .own 0,
    [⟨0, 32, .ro, 0, 0, 4294967295⟩]⟩,
  ⟨"SCHED_SMP_BASE_LO", 0x101040, [(64, 256)], .own 0,
    [⟨4, 28, .rw, 0, 0, 268435455⟩]⟩,
  ⟨"SCHED_SMP_BASE_HI", 0x101044, [(64, 256)], .own 0,
    [⟨0, 20, .rw, 0, 0, 1048575⟩, ⟨31, 1, .rw, 0, 0, 1⟩]⟩,
  ⟨"SCHED_SMP_CTL", 0x101048, [(64, 256)], .own 0,
    [⟨0, 1, .rw, 0, 0, 1⟩, ⟨1, 5, .rw, 10, 4, 20⟩]⟩,
  ⟨"SCHED_SMP_PROD", 0x10104C, [(64, 256)], .own 0,
    [⟨0, 20, .ro, 0, 0, 1048575⟩]⟩,
  ⟨"SCHED_SMP_CONS", 0x101050, [(64, 256)], .own 0,
    [⟨0, 20, .rw, 0, 0, 1048575⟩]⟩]

/-- Registers of the SCHED block. -/
def regsSCHED : List RegRow := regsSCHED0 ++ regsSCHED1

/-- Registers of the LINK block, part 0. -/
def regsLINK0 : List RegRow := [
  ⟨"LINK_CFG", 0x200000, [(64, 16384)], .link 0,
    [⟨0, 1, .rw, 0, 0, 1⟩, ⟨1, 1, .rw, 0, 0, 1⟩, ⟨2, 2, .rw, 0, 0, 2⟩, ⟨4, 2, .rw, 2, 0, 2⟩, ⟨6, 1, .rw, 1, 0, 1⟩, ⟨7, 1, .rw, 0, 0, 1⟩, ⟨8, 1, .rw, 0, 0, 1⟩, ⟨9, 1, .rw, 0, 0, 1⟩, ⟨10, 2, .rw, 0, 0, 3⟩, ⟨16, 8, .rw, 15, 0, 255⟩, ⟨24, 1, .rw, 0, 0, 1⟩, ⟨25, 1, .rw, 0, 0, 1⟩, ⟨26, 1, .rw, 1, 0, 1⟩, ⟨27, 1, .rw, 1, 0, 1⟩]⟩,
  ⟨"LINK_STS", 0x200004, [(64, 16384)], .link 0,
    [⟨0, 2, .ro, 0, 0, 3⟩, ⟨2, 2, .ro, 0, 0, 3⟩, ⟨4, 4, .ro, 0, 0, 15⟩, ⟨8, 1, .ro, 0, 0, 1⟩, ⟨9, 1, .rw1c, 0, 0, 1⟩, ⟨10, 1, .rw1c, 0, 0, 1⟩, ⟨11, 1, .rw1c, 0, 0, 1⟩, ⟨12, 1, .rw1c, 0, 0, 1⟩]⟩,
  ⟨"LINK_LANE_MAP", 0x200008, [(64, 16384)], .link 0,
    [⟨0, 7, .ro, 0, 0, 127⟩, ⟨8, 7, .ro, 0, 0, 127⟩, ⟨16, 7, .ro, 0, 0, 127⟩, ⟨24, 7, .ro, 0, 0, 127⟩]⟩,
  ⟨"LINK_LANE_HEALTH", 0x200010, [(64, 16384), (4, 4)], .link 0,
    [⟨0, 8, .ro, 0, 0, 255⟩, ⟨8, 1, .ro, 0, 0, 1⟩, ⟨9, 1, .ro, 0, 0, 1⟩, ⟨10, 1, .ro, 0, 0, 1⟩]⟩,
  ⟨"LINK_LANE_CTL", 0x200020, [(64, 16384)], .link 0,
    [⟨0, 8, .rw, 5, 0, 255⟩]⟩,
  ⟨"LINK_MAC_LO", 0x200100, [(64, 16384), (16, 8)], .link 0,
    [⟨0, 32, .rw, 0, 0, 4294967295⟩]⟩,
  ⟨"LINK_MAC_HI", 0x200104, [(64, 16384), (16, 8)], .link 0,
    [⟨0, 16, .rw, 0, 0, 65535⟩, ⟨16, 2, .rw, 0, 0, 3⟩, ⟨31, 1, .rw, 0, 0, 1⟩]⟩,
  ⟨"LINK_MAC_CTL", 0x200180, [(64, 16384)], .link 0,
    [⟨0, 1, .rw, 0, 0, 1⟩, ⟨1, 1, .rw, 1, 0, 1⟩]⟩,
  ⟨"LINK_PCP_MAP", 0x200184, [(64, 16384)], .link 0,
    [⟨0, 24, .rw, 16434824, 0, 16777215⟩, ⟨24, 3, .rw, 4, 0, 7⟩]⟩,
  ⟨"LINK_BUF_CLASS", 0x200200, [(64, 16384), (4, 4)], .link 0,
    [⟨0, 16, .rw, 0, 0, 65535⟩, ⟨16, 16, .rw, 64, 0, 65535⟩]⟩,
  ⟨"LINK_PFC_WM", 0x200210, [(64, 16384), (3, 4)], .link 0,
    [⟨0, 16, .rw, 640, 0, 65535⟩, ⟨16, 16, .rw, 512, 0, 65535⟩]⟩,
  ⟨"LINK_MISS_WM", 0x200220, [(64, 16384)], .link 0,
    [⟨0, 16, .rw, 6144, 0, 65535⟩, ⟨16, 16, .rw, 4096, 0, 65535⟩]⟩,
  ⟨"LINK_PFC_REFRESH", 0x200224, [(64, 16384)], .link 0,
    [⟨0, 16, .rw, 10000, 1000, 65535⟩]⟩,
  ⟨"LINK_BEACON_CTL", 0x200228, [(64, 16384)], .link 0,
    [⟨0, 4, .rw, 7, 0, 10⟩]⟩,
  ⟨"LINK_PEER_DELAY", 0x20022C, [(64, 16384)], .link 0,
    [⟨0, 32, .ro, 0, 0, 4294967295⟩]⟩,
  ⟨"LINK_DROP_FILTER", 0x200300, [(64, 16384)], .link 0,
    [⟨0, 32, .rc, 0, 0, 4294967295⟩]⟩,
  ⟨"LINK_DROP_FENCED", 0x200304, [(64, 16384)], .link 0,
    [⟨0, 32, .rc, 0, 0, 4294967295⟩]⟩,
  ⟨"LINK_DROP_OVERFLOW", 0x200308, [(64, 16384)], .link 0,
    [⟨0, 32, .rc, 0, 0, 4294967295⟩]⟩,
  ⟨"LINK_MISS_DROP", 0x20030C, [(64, 16384)], .link 0,
    [⟨0, 32, .rc, 0, 0, 4294967295⟩]⟩,
  ⟨"LINK_PFC_IGNORED", 0x200310, [(64, 16384)], .link 0,
    [⟨0, 32, .rc, 0, 0, 4294967295⟩]⟩]

/-- Registers of the LINK block, part 1. -/
def regsLINK1 : List RegRow := [
  ⟨"LINK_BAD_FRAME", 0x200314, [(64, 16384)], .link 0,
    [⟨0, 32, .rc, 0, 0, 4294967295⟩]⟩,
  ⟨"LINK_FEC_UNCORR", 0x200318, [(64, 16384)], .link 0,
    [⟨0, 32, .rc, 0, 0, 4294967295⟩]⟩,
  ⟨"LINK_STOMPED", 0x20031C, [(64, 16384)], .link 0,
    [⟨0, 32, .rc, 0, 0, 4294967295⟩]⟩,
  ⟨"LINK_OS_BAD", 0x200320, [(64, 16384)], .link 0,
    [⟨0, 32, .rc, 0, 0, 4294967295⟩]⟩]

/-- Registers of the LINK block. -/
def regsLINK : List RegRow := regsLINK0 ++ regsLINK1

/-- Registers of the MESH block, part 0. -/
def regsMESH0 : List RegRow := [
  ⟨"MESH_SELF", 0x300000, [], .boot,
    [⟨10, 6, .rw, 0, 0, 63⟩, ⟨16, 6, .rw, 0, 0, 63⟩, ⟨22, 6, .rw, 0, 0, 63⟩, ⟨28, 4, .rw, 0, 0, 15⟩]⟩,
  ⟨"MESH_CTL", 0x300004, [], .boot,
    [⟨0, 1, .w1s0, 0, 0, 1⟩, ⟨1, 1, .w1s0, 0, 0, 1⟩, ⟨2, 1, .rw, 1, 0, 1⟩, ⟨8, 8, .rw, 16, 1, 255⟩]⟩,
  ⟨"MESH_STS", 0x300008, [], .boot,
    [⟨0, 1, .ro, 0, 0, 1⟩, ⟨1, 1, .ro, 0, 0, 1⟩, ⟨2, 1, .ro, 0, 0, 1⟩, ⟨3, 1, .rw1c, 0, 0, 1⟩, ⟨4, 1, .rw1c, 0, 0, 1⟩, ⟨5, 1, .ro, 0, 0, 1⟩]⟩,
  ⟨"MESH_DRAIN", 0x300010, [(2, 4)], .boot,
    [⟨0, 24, .ro, 0, 0, 16777215⟩]⟩,
  ⟨"MESH_DRAIN_LIMIT", 0x300018, [], .boot,
    [⟨0, 16, .rw, 1000, 1, 65535⟩]⟩,
  ⟨"MESH_SWITCH_SLOT_LO", 0x300020, [], .boot,
    [⟨0, 32, .ro, 0, 0, 4294967295⟩]⟩,
  ⟨"MESH_SWITCH_SLOT_HI", 0x300024, [], .boot,
    [⟨0, 32, .ro, 0, 0, 4294967295⟩]⟩,
  ⟨"MESH_NOROUTE_DROP", 0x300040, [], .boot,
    [⟨0, 32, .rc, 0, 0, 4294967295⟩]⟩,
  ⟨"MESH_HOPS_DROP", 0x300044, [], .boot,
    [⟨0, 32, .rc, 0, 0, 4294967295⟩]⟩,
  ⟨"MESH_ETH_MISS", 0x300048, [], .boot,
    [⟨0, 32, .rc, 0, 0, 4294967295⟩]⟩,
  ⟨"MESH_MODE_DROP", 0x30004C, [], .boot,
    [⟨0, 32, .rc, 0, 0, 4294967295⟩]⟩,
  ⟨"MESH_EPOCH_RESTAMP", 0x300050, [], .boot,
    [⟨0, 32, .rc, 0, 0, 4294967295⟩]⟩,
  ⟨"MESH_DRAIN_DROP", 0x300054, [], .boot,
    [⟨0, 32, .rc, 0, 0, 4294967295⟩]⟩,
  ⟨"MESH_LOST_DROP", 0x300058, [], .boot,
    [⟨0, 32, .rc, 0, 0, 4294967295⟩]⟩,
  ⟨"MESH_LINK_FENCE", 0x300080, [(8, 4)], .boot,
    [⟨0, 32, .ro, 0, 0, 4294967295⟩]⟩,
  ⟨"MESH_RTD_LO", 0x310000, [(2, 32768), (16, 8)], .boot,
    [⟨0, 6, .rw, 0, 0, 63⟩, ⟨6, 6, .rw, 0, 0, 63⟩, ⟨12, 6, .rw, 0, 0, 63⟩, ⟨18, 6, .rw, 0, 0, 63⟩, ⟨24, 2, .rw, 0, 0, 3⟩, ⟨31, 1, .rw, 0, 0, 1⟩]⟩,
  ⟨"MESH_RTD_HI", 0x310004, [(2, 32768), (16, 8)], .boot,
    [⟨0, 6, .rw, 0, 0, 63⟩, ⟨6, 1, .rw, 0, 0, 1⟩]⟩,
  ⟨"MESH_RTXYZ_LO", 0x310100, [(2, 32768), (3, 512), (64, 8)], .boot,
    [⟨0, 6, .rw, 0, 0, 63⟩, ⟨6, 6, .rw, 0, 0, 63⟩, ⟨12, 6, .rw, 0, 0, 63⟩, ⟨18, 6, .rw, 0, 0, 63⟩, ⟨24, 2, .rw, 0, 0, 3⟩, ⟨31, 1, .rw, 0, 0, 1⟩]⟩,
  ⟨"MESH_RTXYZ_HI", 0x310104, [(2, 32768), (3, 512), (64, 8)], .boot,
    [⟨0, 6, .rw, 0, 0, 63⟩, ⟨6, 1, .rw, 0, 0, 1⟩]⟩,
  ⟨"MESH_ETH_W0", 0x311000, [(2, 32768), (1024, 16)], .boot,
    [⟨0, 32, .rw, 0, 0, 4294967295⟩]⟩]

/-- Registers of the MESH block, part 1. -/
def regsMESH1 : List RegRow := [
  ⟨"MESH_ETH_W1", 0x311004, [(2, 32768), (1024, 16)], .boot,
    [⟨0, 16, .rw, 0, 0, 65535⟩, ⟨16, 12, .rw, 0, 0, 4095⟩, ⟨28, 1, .rw, 0, 0, 1⟩, ⟨31, 1, .rw, 0, 0, 1⟩]⟩,
  ⟨"MESH_ETH_W2", 0x311008, [(2, 32768), (1024, 16)], .boot,
    [⟨0, 1, .rw, 0, 0, 1⟩, ⟨1, 6, .rw, 0, 0, 63⟩, ⟨7, 2, .rw, 0, 0, 3⟩]⟩,
  ⟨"MESH_ETH_W3", 0x31100C, [(2, 32768), (1024, 16)], .boot,
    [⟨0, 32, .rw, 0, 0, 4294967295⟩]⟩]

/-- Registers of the MESH block. -/
def regsMESH : List RegRow := regsMESH0 ++ regsMESH1

/-- Registers of the KENNEL block, part 0. -/
def regsKENNEL0 : List RegRow := [
  ⟨"KENNEL_T1_BASE_LO", 0x400000, [], .boot,
    [⟨20, 12, .rw, 0, 0, 4095⟩]⟩,
  ⟨"KENNEL_T1_BASE_HI", 0x400004, [], .boot,
    [⟨0, 20, .rw, 0, 0, 1048575⟩]⟩,
  ⟨"KENNEL_T1_SIZE", 0x400008, [], .boot,
    [⟨0, 13, .rw, 0, 0, 4096⟩]⟩,
  ⟨"KENNEL_PATH_HOLD", 0x40000C, [], .boot,
    [⟨0, 6, .rw, 20, 1, 40⟩]⟩,
  ⟨"KENNEL_STS", 0x400010, [], .boot,
    [⟨0, 25, .ro, 0, 0, 33554431⟩]⟩,
  ⟨"KENNEL_FETCH_T1", 0x400040, [], .boot,
    [⟨0, 32, .rc, 0, 0, 4294967295⟩]⟩,
  ⟨"KENNEL_FETCH_T2", 0x400044, [], .boot,
    [⟨0, 32, .rc, 0, 0, 4294967295⟩]⟩,
  ⟨"KENNEL_EVICT", 0x400048, [], .boot,
    [⟨0, 32, .rc, 0, 0, 4294967295⟩]⟩,
  ⟨"KENNEL_CTX_UNCORR", 0x40004C, [], .boot,
    [⟨0, 32, .rc, 0, 0, 4294967295⟩]⟩,
  ⟨"KENNEL_NOQP_DROP", 0x400050, [], .boot,
    [⟨0, 32, .rc, 0, 0, 4294967295⟩]⟩,
  ⟨"KENNEL_RETX", 0x400054, [], .boot,
    [⟨0, 32, .rc, 0, 0, 4294967295⟩]⟩,
  ⟨"KENNEL_NAK_SEQ", 0x400058, [], .boot,
    [⟨0, 32, .rc, 0, 0, 4294967295⟩]⟩,
  ⟨"KENNEL_RNR", 0x40005C, [], .boot,
    [⟨0, 32, .rc, 0, 0, 4294967295⟩]⟩,
  ⟨"KENNEL_CNP_DROP", 0x400060, [], .boot,
    [⟨0, 32, .rc, 0, 0, 4294967295⟩]⟩,
  ⟨"KENNEL_ICRC_DROP", 0x400064, [], .boot,
    [⟨0, 32, .rc, 0, 0, 4294967295⟩]⟩,
  ⟨"KENNEL_CMD_ADDR_LO", 0x400100, [(2, 32)], .host 0,
    [⟨8, 24, .rw, 0, 0, 16777215⟩]⟩,
  ⟨"KENNEL_CMD_ADDR_HI", 0x400104, [(2, 32)], .host 0,
    [⟨0, 20, .rw, 0, 0, 1048575⟩]⟩,
  ⟨"KENNEL_CMD", 0x400108, [(2, 32)], .host 0,
    [⟨0, 24, .rw, 0, 0, 16777215⟩, ⟨24, 3, .rw, 0, 0, 7⟩, ⟨31, 1, .w1s0, 0, 0, 1⟩]⟩,
  ⟨"KENNEL_CMD_STS", 0x40010C, [(2, 32)], .host 0,
    [⟨0, 1, .ro, 0, 0, 1⟩, ⟨1, 1, .rw1c, 0, 0, 1⟩, ⟨4, 4, .ro, 0, 0, 15⟩]⟩,
  ⟨"KENNEL_T2_BASE_LO", 0x401000, [(64, 16)], .own 0,
    [⟨12, 20, .rwl, 0, 0, 1048575⟩]⟩]

/-- Registers of the KENNEL block, part 1. -/
def regsKENNEL1 : List RegRow := [
  ⟨"KENNEL_T2_BASE_HI", 0x401004, [(64, 16)], .own 0,
    [⟨0, 20, .rwl, 0, 0, 1048575⟩]⟩,
  ⟨"KENNEL_T2_SIZE", 0x401008, [(64, 16)], .own 0,
    [⟨0, 25, .rwl, 0, 0, 33554431⟩]⟩,
  ⟨"KENNEL_SHARE", 0x40100C, [(64, 16)], .own 0,
    [⟨0, 20, .rwl, 0, 0, 524288⟩]⟩,
  ⟨"KENNEL_BANK_STS", 0x402000, [(64, 16)], .boot,
    [⟨0, 14, .ro, 0, 0, 16383⟩, ⟨16, 14, .ro, 0, 0, 16383⟩]⟩,
  ⟨"KENNEL_BANK_MISS", 0x402004, [(64, 16)], .boot,
    [⟨0, 32, .rc, 0, 0, 4294967295⟩]⟩]

/-- Registers of the KENNEL block. -/
def regsKENNEL : List RegRow := regsKENNEL0 ++ regsKENNEL1

/-- Registers of the MEM block, part 0. -/
def regsMEM0 : List RegRow := [
  ⟨"MEM_CH_STS", 0x500000, [(16, 4096)], .boot,
    [⟨0, 3, .ro, 0, 0, 7⟩, ⟨4, 3, .ro, 0, 0, 7⟩, ⟨8, 2, .ro, 0, 0, 3⟩, ⟨10, 4, .ro, 0, 0, 15⟩, ⟨14, 1, .ro, 0, 0, 1⟩, ⟨15, 4, .ro, 0, 0, 15⟩, ⟨19, 1, .ro, 0, 0, 1⟩]⟩,
  ⟨"MEM_CH_CTL", 0x500004, [(16, 4096)], .boot,
    [⟨0, 3, .rw, 5, 0, 5⟩]⟩,
  ⟨"MEM_CH_CE", 0x500008, [(16, 4096)], .boot,
    [⟨0, 32, .rc, 0, 0, 4294967295⟩]⟩,
  ⟨"MEM_CH_UE", 0x50000C, [(16, 4096)], .boot,
    [⟨0, 32, .rc, 0, 0, 4294967295⟩]⟩,
  ⟨"MEM_CH_RETRY", 0x500010, [(16, 4096)], .boot,
    [⟨0, 32, .rc, 0, 0, 4294967295⟩]⟩,
  ⟨"MEM_CH_ECS", 0x500014, [(16, 4096)], .boot,
    [⟨0, 32, .ro, 0, 0, 4294967295⟩]⟩,
  ⟨"MEM_CH_UE_ADDR_LO", 0x500018, [(16, 4096)], .boot,
    [⟨0, 32, .ro, 0, 0, 4294967295⟩]⟩,
  ⟨"MEM_CH_UE_ADDR_HI", 0x50001C, [(16, 4096)], .boot,
    [⟨0, 9, .ro, 0, 0, 511⟩, ⟨9, 1, .ro, 0, 0, 1⟩]⟩,
  ⟨"MEM_CH_SCRUB", 0x500020, [(16, 4096)], .boot,
    [⟨0, 16, .ro, 0, 0, 65535⟩, ⟨16, 7, .ro, 0, 0, 127⟩]⟩,
  ⟨"MEM_STS", 0x510000, [], .boot,
    [⟨0, 1, .rw1c, 0, 0, 1⟩, ⟨1, 1, .ro, 0, 0, 1⟩]⟩,
  ⟨"MEM_SET_W0", 0x510010, [(2, 8)], .boot,
    [⟨0, 16, .ro, 0, 0, 65535⟩, ⟨16, 2, .ro, 0, 0, 3⟩]⟩,
  ⟨"MEM_SET_W1", 0x510014, [(2, 8)], .boot,
    [⟨0, 11, .ro, 0, 0, 2047⟩, ⟨16, 8, .ro, 0, 0, 255⟩]⟩,
  ⟨"MEM_SCRUB_CTL", 0x510020, [], .boot,
    [⟨0, 5, .rw, 24, 1, 24⟩, ⟨8, 1, .rw, 1, 0, 1⟩]⟩,
  ⟨"MEM_TINKER_CTL", 0x510024, [], .boot,
    [⟨0, 5, .rw, 6, 1, 24⟩, ⟨8, 1, .rw, 1, 0, 1⟩]⟩,
  ⟨"MEM_TINKER_STS", 0x510028, [], .boot,
    [⟨0, 16, .ro, 0, 0, 65535⟩, ⟨16, 1, .rw1c, 0, 0, 1⟩]⟩,
  ⟨"MEM_RSPILL_BASE_LO", 0x510030, [], .boot,
    [⟨20, 12, .rw, 0, 0, 4095⟩]⟩,
  ⟨"MEM_RSPILL_BASE_HI", 0x510034, [], .boot,
    [⟨0, 9, .rw, 0, 0, 511⟩]⟩,
  ⟨"MEM_RSPILL_SIZE", 0x510038, [], .boot,
    [⟨0, 13, .rw, 256, 0, 4096⟩]⟩,
  ⟨"MEM_IMG_BASE_LO", 0x510040, [], .boot,
    [⟨20, 12, .rw, 256, 0, 4095⟩]⟩,
  ⟨"MEM_IMG_BASE_HI", 0x510044, [], .boot,
    [⟨0, 9, .rw, 0, 0, 511⟩]⟩]

/-- Registers of the MEM block, part 1. -/
def regsMEM1 : List RegRow := [
  ⟨"MEM_IMG_SIZE", 0x510048, [], .boot,
    [⟨0, 13, .rw, 256, 0, 4096⟩]⟩,
  ⟨"MEM_HOST_DDR", 0x510050, [(2, 4)], .boot,
    [⟨0, 11, .rw, 0, 0, 2047⟩, ⟨16, 11, .rw, 2047, 0, 2047⟩]⟩,
  ⟨"MEM_SRAM_CE", 0x510100, [(5, 8)], .boot,
    [⟨0, 32, .rc, 0, 0, 4294967295⟩]⟩,
  ⟨"MEM_SRAM_UE", 0x510104, [(5, 8)], .boot,
    [⟨0, 32, .rc, 0, 0, 4294967295⟩]⟩,
  ⟨"MEM_TINKER_REPAIR", 0x510130, [], .boot,
    [⟨0, 32, .rc, 0, 0, 4294967295⟩]⟩,
  ⟨"MEM_TINKER_RETIRE", 0x510134, [], .boot,
    [⟨0, 32, .rc, 0, 0, 4294967295⟩]⟩,
  ⟨"MEM_TINKER_LATE", 0x510138, [], .boot,
    [⟨0, 32, .rc, 0, 0, 4294967295⟩]⟩,
  ⟨"MEM_REG_W0", 0x520000, [(512, 16)], .region,
    [⟨0, 21, .rw, 0, 0, 2097151⟩]⟩,
  ⟨"MEM_REG_W1", 0x520004, [(512, 16)], .region,
    [⟨0, 22, .rw, 0, 0, 4194303⟩]⟩,
  ⟨"MEM_REG_W2", 0x520008, [(512, 16)], .region,
    [⟨0, 6, .rw, 0, 0, 63⟩, ⟨6, 10, .rw, 0, 0, 1023⟩, ⟨16, 1, .rw, 0, 0, 1⟩, ⟨31, 1, .rw, 0, 0, 1⟩]⟩,
  ⟨"MEM_REG_W3", 0x52000C, [(512, 16)], .none,
    [⟨0, 1, .ro, 0, 0, 1⟩]⟩]

/-- Registers of the MEM block. -/
def regsMEM : List RegRow := regsMEM0 ++ regsMEM1

/-- Registers of the CLUSTER block, part 0. -/
def regsCLUSTER0 : List RegRow := [
  ⟨"CLUSTER_CORE_FUSE", 0x600000, [(64, 16384), (3, 4)], .none,
    [⟨0, 32, .ro, 0, 0, 4294967295⟩]⟩,
  ⟨"CLUSTER_CORE_FENCE", 0x60000C, [(64, 16384), (3, 4)], .none,
    [⟨0, 32, .ro, 0, 0, 4294967295⟩]⟩,
  ⟨"CLUSTER_UNIT_FUSE", 0x600018, [(64, 16384)], .none,
    [⟨0, 6, .ro, 0, 0, 63⟩, ⟨6, 16, .ro, 0, 0, 65535⟩, ⟨22, 1, .ro, 0, 0, 1⟩, ⟨23, 1, .ro, 0, 0, 1⟩]⟩,
  ⟨"CLUSTER_UNIT_FENCE", 0x60001C, [(64, 16384)], .none,
    [⟨0, 6, .ro, 0, 0, 63⟩, ⟨6, 16, .ro, 0, 0, 65535⟩, ⟨22, 1, .ro, 0, 0, 1⟩, ⟨23, 1, .ro, 0, 0, 1⟩]⟩,
  ⟨"CLUSTER_FENCE_DROP", 0x600020, [(64, 16384)], .none,
    [⟨0, 32, .rc, 0, 0, 4294967295⟩]⟩,
  ⟨"CLUSTER_STAGE_DROP", 0x600024, [(64, 16384)], .none,
    [⟨0, 32, .rc, 0, 0, 4294967295⟩]⟩,
  ⟨"CLUSTER_MSG_DROP", 0x600028, [(64, 16384)], .none,
    [⟨0, 32, .rc, 0, 0, 4294967295⟩]⟩,
  ⟨"CLUSTER_CORE_EXC", 0x60002C, [(64, 16384)], .none,
    [⟨0, 32, .rc, 0, 0, 4294967295⟩]⟩,
  ⟨"CLUSTER_RED_STS", 0x600030, [(64, 16384)], .none,
    [⟨0, 9, .ro, 0, 0, 511⟩, ⟨16, 9, .ro, 0, 0, 511⟩]⟩,
  ⟨"CLUSTER_RED_ERR", 0x600034, [(64, 16384)], .none,
    [⟨0, 8, .ro, 0, 0, 255⟩, ⟨8, 12, .ro, 0, 0, 4095⟩]⟩,
  ⟨"CLUSTER_RED_REFUSED", 0x600038, [(64, 16384)], .none,
    [⟨0, 32, .rc, 0, 0, 4294967295⟩]⟩,
  ⟨"CLUSTER_RED_FAILED", 0x60003C, [(64, 16384)], .none,
    [⟨0, 32, .rc, 0, 0, 4294967295⟩]⟩,
  ⟨"CLUSTER_RED_SPILL", 0x600040, [(64, 16384)], .none,
    [⟨0, 32, .rc, 0, 0, 4294967295⟩]⟩,
  ⟨"CLUSTER_RED_SPILL_WAIT", 0x600044, [(64, 16384)], .none,
    [⟨0, 32, .rc, 0, 0, 4294967295⟩]⟩,
  ⟨"CLUSTER_FRAME_BAD", 0x600048, [(64, 16384)], .none,
    [⟨0, 32, .rc, 0, 0, 4294967295⟩]⟩,
  ⟨"CLUSTER_RED_OPEN", 0x60004C, [(64, 16384)], .none,
    [⟨0, 11, .ro, 0, 0, 2047⟩, ⟨16, 11, .ro, 0, 0, 2047⟩]⟩,
  ⟨"CLUSTER_LMAP", 0x600100, [(64, 16384), (64, 4)], .none,
    [⟨0, 7, .ro, 0, 0, 127⟩, ⟨7, 1, .ro, 0, 0, 1⟩, ⟨8, 7, .ro, 0, 0, 127⟩, ⟨15, 1, .ro, 0, 0, 1⟩, ⟨16, 1, .ro, 0, 0, 1⟩]⟩,
  ⟨"CLUSTER_CORE_STS", 0x600200, [(64, 16384), (64, 4)], .none,
    [⟨0, 3, .ro, 0, 0, 7⟩, ⟨3, 1, .ro, 0, 0, 1⟩, ⟨4, 1, .ro, 0, 0, 1⟩, ⟨5, 1, .ro, 0, 0, 1⟩, ⟨6, 1, .ro, 0, 0, 1⟩, ⟨8, 6, .ro, 0, 0, 63⟩, ⟨16, 8, .ro, 0, 0, 255⟩, ⟨24, 5, .ro, 0, 0, 31⟩]⟩,
  ⟨"CLUSTER_CORE_HANDLE", 0x600300, [(64, 16384), (64, 4)], .none,
    [⟨0, 32, .ro, 0, 0, 4294967295⟩]⟩,
  ⟨"CLUSTER_CORE_EPC", 0x600400, [(64, 16384), (64, 4)], .none,
    [⟨0, 18, .ro, 0, 0, 262143⟩]⟩]

/-- Registers of the CLUSTER block, part 1. -/
def regsCLUSTER1 : List RegRow := [
  ⟨"CLUSTER_PLD_ADDR_LO", 0x600800, [(64, 16384), (2, 64)], .host 1,
    [⟨12, 20, .rw, 0, 0, 1048575⟩]⟩,
  ⟨"CLUSTER_PLD_ADDR_HI", 0x600804, [(64, 16384), (2, 64)], .host 1,
    [⟨0, 20, .rw, 0, 0, 1048575⟩, ⟨31, 1, .rw, 0, 0, 1⟩]⟩,
  ⟨"CLUSTER_PLD_LEN", 0x600808, [(64, 16384), (2, 64)], .host 1,
    [⟨0, 15, .rw, 0, 0, 32767⟩]⟩,
  ⟨"CLUSTER_PLD_MASK_LO", 0x60080C, [(64, 16384), (2, 64)], .host 1,
    [⟨0, 32, .rw, 0, 0, 4294967295⟩]⟩,
  ⟨"CLUSTER_PLD_MASK_HI", 0x600810, [(64, 16384), (2, 64)], .host 1,
    [⟨0, 32, .rw, 0, 0, 4294967295⟩]⟩,
  ⟨"CLUSTER_PLD_HANDLE", 0x600814, [(64, 16384), (2, 64)], .host 1,
    [⟨0, 32, .rw, 0, 0, 4294967295⟩]⟩,
  ⟨"CLUSTER_PLD_CMD", 0x600818, [(64, 16384), (2, 64)], .host 1,
    [⟨0, 6, .rw, 0, 0, 63⟩, ⟨6, 1, .rw, 0, 0, 1⟩, ⟨7, 2, .rw, 0, 0, 3⟩, ⟨31, 1, .w1s0, 0, 0, 1⟩]⟩,
  ⟨"CLUSTER_PLD_STS", 0x60081C, [(64, 16384), (2, 64)], .host 1,
    [⟨0, 1, .ro, 0, 0, 1⟩, ⟨1, 1, .rw1c, 0, 0, 1⟩, ⟨4, 4, .ro, 0, 0, 15⟩]⟩,
  ⟨"CLUSTER_PLD_WCET", 0x600820, [(64, 16384), (2, 64), (4, 4)], .host 1,
    [⟨0, 32, .ro, 4294967295, 0, 4294967295⟩]⟩,
  ⟨"CLUSTER_CONV_W0", 0x601000, [(64, 16384), (256, 16)], .conv,
    [⟨0, 4, .rw, 0, 0, 4⟩, ⟨4, 4, .rw, 0, 0, 15⟩, ⟨8, 4, .rw, 0, 0, 15⟩, ⟨12, 1, .rw, 0, 0, 1⟩, ⟨16, 6, .rw, 0, 0, 63⟩, ⟨31, 1, .rw, 0, 0, 1⟩]⟩,
  ⟨"CLUSTER_CONV_W1", 0x601004, [(64, 16384), (256, 16)], .conv,
    [⟨0, 32, .rw, 0, 0, 4294967295⟩]⟩,
  ⟨"CLUSTER_CONV_W2", 0x601008, [(64, 16384), (256, 16)], .conv,
    [⟨0, 32, .rw, 0, 0, 4294967295⟩]⟩,
  ⟨"CLUSTER_CONV_W3", 0x60100C, [(64, 16384), (256, 16)], .conv,
    [⟨0, 20, .rw, 0, 0, 1048575⟩, ⟨20, 2, .rw, 0, 0, 3⟩]⟩]

/-- Registers of the CLUSTER block. -/
def regsCLUSTER : List RegRow := regsCLUSTER0 ++ regsCLUSTER1

/-- Registers of the TELEM block, part 0. -/
def regsTELEM0 : List RegRow := [
  ⟨"TELEM_FAULT", 0x700000, [], .boot,
    [⟨0, 1, .rw1c, 0, 0, 1⟩, ⟨1, 1, .rw1c, 0, 0, 1⟩, ⟨2, 1, .rw1c, 0, 0, 1⟩, ⟨3, 1, .rw1c, 0, 0, 1⟩]⟩,
  ⟨"TELEM_SMP_CTL", 0x700080, [], .boot,
    [⟨0, 1, .rw, 1, 0, 1⟩, ⟨16, 16, .rw, 1000, 1, 65535⟩]⟩,
  ⟨"TELEM_BOUND_MISS", 0x700084, [], .none,
    [⟨0, 32, .rc, 0, 0, 4294967295⟩]⟩,
  ⟨"TELEM_UPTIME", 0x700088, [], .none,
    [⟨0, 32, .ro, 0, 0, 4294967295⟩]⟩,
  ⟨"TELEM_EVQ_LO", 0x700100, [(2, 64)], .host 0,
    [⟨5, 27, .rw, 0, 0, 134217727⟩]⟩,
  ⟨"TELEM_EVQ_HI", 0x700104, [(2, 64)], .host 0,
    [⟨0, 20, .rw, 0, 0, 1048575⟩]⟩,
  ⟨"TELEM_EVQ_CTL", 0x700108, [(2, 64)], .host 0,
    [⟨0, 1, .rw, 0, 0, 1⟩, ⟨1, 5, .rw, 8, 6, 16⟩, ⟨8, 16, .rw, 100, 0, 65535⟩]⟩,
  ⟨"TELEM_EVQ_PROD", 0x70010C, [(2, 64)], .host 0,
    [⟨0, 16, .ro, 0, 0, 65535⟩]⟩,
  ⟨"TELEM_EVQ_CONS", 0x700110, [(2, 64)], .host 0,
    [⟨0, 16, .rw, 0, 0, 65535⟩]⟩,
  ⟨"TELEM_EVQ_LOST", 0x700114, [(2, 64)], .host 0,
    [⟨0, 32, .rc, 0, 0, 4294967295⟩]⟩,
  ⟨"TELEM_EVQ_PEND", 0x700118, [(2, 64)], .host 0,
    [⟨0, 7, .ro, 0, 0, 127⟩]⟩,
  ⟨"TELEM_STK_STS", 0x700200, [], .boot,
    [⟨0, 9, .ro, 0, 0, 511⟩, ⟨16, 8, .ro, 0, 0, 255⟩, ⟨24, 1, .rw1c, 0, 0, 1⟩]⟩,
  ⟨"TELEM_STK_IDX", 0x700204, [], .both,
    [⟨0, 8, .rw, 0, 0, 255⟩]⟩,
  ⟨"TELEM_STK_CTL", 0x700208, [], .boot,
    [⟨0, 1, .w1s0, 0, 0, 1⟩]⟩,
  ⟨"TELEM_STK_DATA", 0x700220, [(8, 4)], .none,
    [⟨0, 32, .ro, 0, 0, 4294967295⟩]⟩,
  ⟨"TELEM_FIT_FAIL", 0x700400, [(11, 8)], .none,
    [⟨0, 32, .ro, 0, 0, 4294967295⟩]⟩,
  ⟨"TELEM_FIT_INT", 0x700404, [(11, 8)], .none,
    [⟨0, 32, .ro, 0, 0, 4294967295⟩]⟩,
  ⟨"TELEM_QSMP", 0x710000, [(64, 64), (4, 16), (4, 4)], .none,
    [⟨0, 16, .ro, 0, 0, 65535⟩, ⟨16, 16, .ro, 0, 0, 65535⟩]⟩]

/-- Registers of the TELEM block. -/
def regsTELEM : List RegRow := regsTELEM0

/-- The rows of the block that holds a BAR0 offset (08_host_interface_and_work_queues.md Table 8.3). -/
def regRowsAt (off : Nat) : List RegRow :=
  if off < 0x10000 then regsGLB else if off < 0x20000 then regsTIME else if off < 0x30000 then regsTALLY
  else if off < 0x40000 then regsSEC else if off < 0x80000 then regsHOSTIF else if off < 0x100000 then regsPART
  else if off < 0x200000 then regsSCHED
  else if off < 0x300000 then regsLINK else if off < 0x400000 then regsMESH else if off < 0x500000 then regsKENNEL
  else if off < 0x600000 then regsMEM else if off < 0x700000 then regsCLUSTER else if off < 0x800000 then regsTELEM
  else []

/-- The index values that give a distance from a row's first register, or none where no instance of the row stands there. -/
def dimsIndex? : List (Nat × Nat) → Nat → Option (List Nat)
  | [], rest => if rest = 0 then some [] else none
  | (count, stride) :: ds, rest =>
    if rest / stride < count then (dimsIndex? ds (rest % stride)).map (rest / stride :: ·) else none

/-- The row and index values of the register at an offset among some rows. -/
def findReg? (off : Nat) : List RegRow → Option (RegRow × List Nat)
  | [] => none
  | r :: rs =>
    if off < r.base then findReg? off rs
    else match dimsIndex? r.dims (off - r.base) with
      | some idx => some (r, idx)
      | none => findReg? off rs

/-- The register at a BAR0 offset. -/
def regAt? (off : Nat) : Option (RegRow × List Nat) := findReg? off (regRowsAt off)

/-- The word that the fields' reset values make. -/
def resetOfFields (fs : List FldRow) : Nat := fs.foldl (fun a f => a + f.reset * 2 ^ f.lo) 0

/-- Reset value of LINK_LANE_MAP of port p: lane i at L(4q + i), q = p mod 16 (02_floor_plan_and_numbering.md Table 2.2). -/
def laneMapReset (p : Nat) : Nat :=
  let q := 4 * (p % 16)
  q + (q + 1) * 0x100 + (q + 2) * 0x10000 + (q + 3) * 0x1000000

/-- The reset value of a BAR0 register (R9), 0 where no register stands. Three registers have a reset value that depends on their
index: LINK_LANE_MAP, CLUSTER_LMAP (PCORE and NEXT_PCORE are n) and CLUSTER_CORE_STS (SERVICE is 1 for cores 0 to 7). -/
def regReset (off : Nat) : BitVec 32 :=
  match regAt? off with
  | none => 0
  | some (r, idx) =>
    if r.base = Reg.LINK_LANE_MAP.off 0 then BitVec.ofNat 32 (laneMapReset (idx.getD 0 0))
    else if r.base = Reg.CLUSTER_LMAP.off 0 0 then BitVec.ofNat 32 (idx.getD 1 0 + 0x100 * idx.getD 1 0)
    else if r.base = Reg.CLUSTER_CORE_STS.off 0 0 then BitVec.ofNat 32 (if idx.getD 1 0 < 8 then 8 else 0)
    else BitVec.ofNat 32 (resetOfFields r.fields)

end Sys2Proof.Machine
end

