-- ==== Sys2Proof/Machine/State.lean ====
section
/-! DEFINITION. The state of the EVR-6400 as plain data, and the state right after reset. Every BAR0 register has its home in `regs`
(an unlisted offset holds its reset value, `regReset`); what is no register has a field of its own. -/

namespace Sys2Proof.Machine

/-- A byte memory: (address, byte) pairs, addresses strictly rising, no byte equal to what an unlisted address reads as. -/
abbrev Mem := Sparse Byte

/-- Faults of the machine. No rule of the spec ends the block's run: every error the spec names is a status, a bit, a counter or an
event. The type has one constructor, which no meaning of this model raises. -/
inductive Fault where
  /-- Raised by no command: kept so that the type is inhabited. Safe. -/
  | none
  deriving DecidableEq, Repr

/-- Refusals of the machine. -/
inductive Refusal where
  /-- Answered by an arm of `exec` whose command has no meaning yet. Safe. -/
  | notModelled (mnemonic : String)
  deriving DecidableEq, Repr

/-! Scrivener (18_errors_and_telemetry.md) -/

/-- One event record (Table 18.3). -/
structure EvRec where
  ft : BitVec 64 := 0
  seq : Word := 0
  code : Nat := 0
  sev : Nat := 0
  lost : Bool := false
  sticky : Bool := false
  part : Option Nat := none
  rep : Nat := 1
  args : List Byte := []
  deriving DecidableEq, Repr

/-- Corrected occurrences gathered for one host (R471): the record that opened the millisecond, the later occurrences, and the FT of
the first of them. -/
structure Gather where
  first : EvRec
  later : Nat := 0
  ft : BitVec 64 := 0
  deriving DecidableEq, Repr

/-- Scrivener's state for one host: next sequence number, records waiting (at most 64), a loss not yet shown, gathering in progress, a
record not yet signalled (R471, R472). -/
structure EvHost where
  seq : Word := 0
  queue : List EvRec := []
  lostNext : Bool := false
  gathers : List Gather := []
  unsignalled : Bool := false
  deriving DecidableEq, Repr

/-- The sampler of one transmit queue over the present interval (R477): largest depth in cells, largest delay in units of 64 ns. -/
structure QSample where
  depth : Nat := 0
  delay : Nat := 0
  deriving DecidableEq, Repr

/-- Scrivener: both hosts' rings, the sticky area (its records by index, each with the number of its writing, and the next number),
the samplers by TELEM_QSMP offset. -/
structure Scriv where
  ev0 : EvHost := {}
  ev1 : EvHost := {}
  sticky : List (Nat × EvRec) := []
  stickyNext : Nat := 0
  samplers : Sparse QSample := []
  deriving DecidableEq, Repr

/-! Fabric time (01_fabric_time.md) -/

/-- What the PTP exchanges of a port have gathered (R13): the best Announce heard, the arrival of a two-step Sync that waits for its Follow_Up, the
last Sync's departure and arrival, delay and peer-delay requests sent (sequence and departure), a two-step peer-delay answer that
waits for its Follow_Up (sequence, arrival of the request at the peer, arrival of the answer here), the mean path delay; times in ns. -/
structure PtpPort where
  parent : Option PtpMsg := none
  syncIn : Option (BitVec 16 × Int) := none
  sync : Option (Int × Int) := none
  reqOut : Option (BitVec 16 × Int) := none
  pdelayOut : Option (BitVec 16 × Int) := none
  pdelayIn : Option (BitVec 16 × Int × Int) := none
  delay : Int := 0
  deriving DecidableEq, Repr

/-- The time unit: FT in ns and 1/256 ns, the place in the 107, 107, 106 pattern (R17), the slot the gate units last began, core cycles gone by, the armed
TIME_SET value (R14), the latch of TIME_NOW (R19), whether the holdover timer runs, whether a condition for LOST is met (R29), the
last PTP message received and sent on each port with its hardware
timestamp, and what its exchanges have gathered (R13). -/
structure TimeUnit where
  ftNs : BitVec 64 := 0
  frac : BitVec 8 := 0
  phase : Nat := 0
  gateSlot : Nat := 0
  cycles : Nat := 0
  armed : Option (BitVec 64) := none
  latchHi : Word := 0
  latchFrac : BitVec 8 := 0
  timerRunning : Bool := false
  lossMet : Bool := false
  ptpIn : Sparse (PtpMsg × BitVec 64) := []
  ptpOut : Sparse (PtpMsg × BitVec 64) := []
  ptp : Sparse PtpPort := []
  deriving DecidableEq, Repr

/-! Ports and frames (03_link_ports.md, 04_routing_and_mesh.md) -/

/-- The form of a frame: an ELP frame of TYPE 0, 1 or 2, or a frame in Ethernet form (Table 3.4, Table 4.1). -/
inductive FrameKind where
  | transport | management | encap | ethernet
  deriving DecidableEq, Repr

/-- A frame inside the device. `body`: an ELP frame's bytes between link header and CRC, or an Ethernet frame's bytes without its FCS;
`fcs`: the FCS an Ethernet frame arrived with; `ingress`: the port, sub-port and class whose buffer holds its cells; `arrived`, `queued`:
FT_ns at its first byte and at its entry into a transmit queue; `transit`: it came in by a port; `onBackup`: it took its flow's backup
path; `stomp`: its check is inverted (R66); `qpn`: the queue pair of this device whose requester sent it (06 R167); `hasFca`: `dst` is a
destination the spec gives (false for an Ethernet frame that no FCA routes); `held`: cells it holds at its ingress; `counted`: it stands in
its epoch's drain count (04 R107); `prog`: core, event, channel and number of the Drover transfer that sent it (10 R291). -/
structure Frame where
  kind : FrameKind
  dst : Nat := 0
  src : Nat := 0
  cls : Nat
  epoch : Nat := 0
  hops : Nat := 0
  flow : Nat := 0
  body : List Byte := []
  fcs : Nat := 0
  ingress : Option (Nat × Nat × Nat) := none
  arrived : BitVec 64 := 0
  queued : BitVec 64 := 0
  sub : Nat := 0
  transit : Bool := false
  onBackup : Bool := false
  stomp : Bool := false
  qpn : Option Nat := none
  hasFca : Bool := true
  held : Nat := 0
  counted : Bool := true
  prog : Option (Nat × Nat × Nat × Nat) := none
  deriving DecidableEq, Repr

/-- A frame for one of the device's own endpoints, as the port hands it on: where and when it arrived, its class, flow and source, and
whether it came as a RoCEv2 packet. `bytes`: transport header and payload. Its epoch, whether it stands in that epoch's drain count (04 R107), the
cells it holds at its ingress, whether it came by its flow's backup path. -/
structure RxPkt where
  port : Nat
  sub : Nat := 0
  cls : Nat
  flow : Nat := 0
  src : Nat := 0
  dst : Nat := 0
  roce : Bool := false
  arrived : BitVec 64 := 0
  bytes : List Byte
  epoch : Nat := 0
  counted : Bool := false
  held : Nat := 0
  onBackup : Bool := false
  deriving DecidableEq, Repr

/-- A frame on its way to a stage core: the core, the flow, where it came in and its class, its bytes, whether its path
permits cut-through, whether its check is good (11_inflight_arithmetic R332, R333); `local_`: the device originated it; the rest as in `RxPkt`. -/
structure StageFrame where
  core : Nat
  flow : Nat
  port : Nat
  sub : Nat
  cls : Nat
  bytes : List Byte
  cut : Bool
  good : Bool
  arrived : BitVec 64
  local_ : Bool := false
  epoch : Nat := 0
  counted : Bool := false
  held : Nat := 0
  onBackup : Bool := false
  deriving DecidableEq, Repr

/-- Where a frame leaves the mesh: at a port and sub-port, at one of the device's endpoints (whether it came as a RoCEv2 packet), or at a stage core
(cut-through permitted, check good). -/
inductive MeshExit where
  | port (p sub : Nat)
  | endpoint (roce : Bool)
  | stage (core : Nat) (cut good : Bool)
  deriving DecidableEq, Repr

/-- A frame crossing the mesh (04 R99): its virtual channel, the links of its path as (router, direction), how many of its flits have passed each
link, the pin-table entry that counts it (R100), where it leaves. Its head flit's route, class, epoch and order key are these. -/
structure Crossing where
  frame : Frame
  vc : Nat
  path : List (Nat × Nat)
  passed : List Nat
  pin : Option Nat := none
  exit : MeshExit
  deriving DecidableEq, Repr

/-- The mesh (04 R99 to R102): frames crossing it, oldest first; the pin tables by 4096 × entry point + hash, each entry the order chosen (1 for YX) and the
frames of the entry still on the mesh; by link 4k + d, which of VCs 1 to 4 it served last. -/
structure Mesh where
  crossings : List Crossing := []
  pins : Sparse (Nat × Nat) := []
  turn : Sparse Nat := []
  deriving DecidableEq, Repr

/-- A lane-change request of this side (R80); `nak`: the cause the partner refused it with, 0 for none. -/
structure LaneReq where
  id : Nat
  mask : Nat
  reason : Nat
  effective : Nat
  retries : Nat := 0
  nak : Nat := 0
  deriving DecidableEq, Repr

/-- An agreed lane change (R80, R497). -/
structure LaneChange where
  id : Nat
  mask : Nat
  reason : Nat
  effective : Nat
  switched : Bool := false
  sentDone : Bool := false
  gotDone : Bool := false
  deriving DecidableEq, Repr

/-- One lane index of a port: windows in a row above the threshold (R74), the spare attached in parallel (R76) or in training (R77). -/
structure Lane where
  bad : Nat := 0
  shadow : Option Nat := none
  training : Option Nat := none
  deriving DecidableEq, Repr

/-- Beacon times of a port (R68), in 1/256 ns: T1 and arrival of the last beacon received, own last send time, hops from the reference. -/
structure Beacon where
  peerT1 : Nat := 0
  arrival : Nat := 0
  sentT1 : Nat := 0
  peerState : Nat := 0
  hops : Nat := 0
  deriving DecidableEq, Repr

/-- What a port holds beyond its registers: transmit queues and frames in transmission, oldest first, the miss buffer, open ELP frames
by class, cells by sub-port and class (key 8 × sub + class), classes in XOFF and classes paused by the partner (same key; the value is
the received time), sender and TRANSIT bit of the peer's last FENCED set and its reason, lanes trained, lane-change state, the mask
before an abandoned HARD_FAIL (R497), lanes, beacon times, last ALIGN received, windows in a row below 40% of two lanes' and of one lane's rate (16 R432), sub-ports whose
preemption is active (R59), frame bytes of the present Tally window in each direction, sub-ports whose link is up (R53, R78), lane indexes
whose trained spare waits for a SPARE_RESTORE change (R77). -/
structure Port where
  txq : List Frame := []
  txing : List Frame := []
  missq : List RxPkt := []
  rxOpen : Sparse (Nat × List Byte) := []
  cells : Sparse Nat := []
  xoff : List Nat := []
  missOff : List Nat := []
  paused : Sparse Nat := []
  peerFca : Nat := 0
  peerTransit : Bool := false
  peerReason : Nat := 0
  trained : Nat := 0
  nextId : Nat := 0
  req : Option LaneReq := none
  change : Option LaneChange := none
  preMask : Option Nat := none
  lanes : Sparse Lane := []
  beacon : Beacon := {}
  peerPeriod : Nat := 0
  peerMask : Nat := 0
  idleTwo : Nat := 0
  idleOne : Nat := 0
  verified : List Nat := []
  rxBytes : Nat := 0
  txBytes : Nat := 0
  subsUp : List Nat := []
  restore : List Nat := []
  deriving DecidableEq, Repr

/-! Schedules (05_schedules_and_admission.md) -/

/-- One entry of a gate list (Table 5.4): duration in slots, the scheduled classes it opens as a mask, UNSCHED. -/
structure GateEntry where
  dur : Nat
  sched : Nat
  unsched : Bool
  deriving DecidableEq, Repr

/-- A gate list of an image: resource ID, cycle in slots, entries (R120, R121). -/
structure GateList where
  res : Nat
  cycle : Nat
  entries : List GateEntry
  deriving DecidableEq, Repr

/-- A flow record (Table 5.5). -/
structure FlowRec where
  flow : Nat
  cls : Nat
  packets : Bool
  pin : Bool
  matchEth : Bool
  overhead : Nat
  qpn : Nat
  rate : Nat
  burst : Nat
  bound : Nat
  maxFrame : Nat
  ingress : Nat
  primary : Nat
  backup : Nat
  bufIn : Nat
  bufOut : Nat
  sample : Nat
  mac : Nat
  vid : Nat
  tagged : Bool
  deriving DecidableEq, Repr

/-- A path record (Table 5.6). -/
structure PathRec where
  egress : Nat
  subport : Nat
  toPort : Bool
  yx : Bool
  cut : Bool
  lanes : Nat
  entry : Nat
  exit : Nat
  endRes : Nat
  stage : Nat
  stageValid : Bool
  program : Nat
  deriving DecidableEq, Repr

/-- A reservation record (R127): KIND, cluster, COUNT. -/
structure ResRec where
  kind : Nat
  cluster : Nat
  count : Nat
  deriving DecidableEq, Repr

/-- A decoded schedule image (Table 5.2) and its cost in mW by R142. -/
structure Image where
  partition : Nat
  tableSwitch : Bool
  takeover : Nat
  mapGen : Nat
  hyper : Nat
  energyMw : Nat
  lists : List GateList
  flows : List FlowRec
  paths : List PathRec
  res : List ResRec
  cost : Nat := 0
  deriving DecidableEq, Repr

/-- A scheduled flow at run time: tokens in 1/256 token (R128), carried in DEMOTE_TC (R29, R438), by time loss (R30), backup path in use (R113), frames outstanding on the backup path, the present sampling interval and
one more than the slot of its last record (R143), a bound miss reported in this sampler interval (18 R469),
no usable path (18 R478). -/
structure FlowRt where
  tokens : Nat := 0
  demoted : Bool := false
  lost : Bool := false
  onBackup : Bool := false
  backupFrames : Nat := 0
  depth : Nat := 0
  maxDepth : Nat := 0
  maxDelay : Nat := 0
  drops : Nat := 0
  wasDemoted : Bool := false
  wasBackup : Bool := false
  sampled : Nat := 0
  missed : Bool := false
  cut : Bool := false
  deriving DecidableEq, Repr

/-- A submission that waits or is being checked: its partition, whether the time unit stayed LOCKED since (R27), map generation, NEXT_ARMED
and the ports with PREEMPT_EN at submission (R47, R109, R138), the image's address, space and pages. -/
structure Submit where
  part : Nat
  locked : Bool
  gen : Nat
  armed : Bool
  preempt : List Nat
  addr : Nat
  space : Nat
  pages : Nat
  deriving DecidableEq, Repr

/-- Schedules: the active image, the pending image and the submissions being checked of each partition, in the order of SUBMIT writes
(R130), the run-time state of each flow by FLOW, the partitions whose next sample
record carries LOST, the images replaced whose dropped flows still have frames inside (04 R96), whether R29 holds every gate of classes
0 to 3 open; sample records that wait for a free slot of their ring's memory, with their partition (R124, R143); frames the device originates that wait for
their flow's bucket, each with the router it enters at (R128). -/
structure Sched where
  act : Sparse Image := []
  pend : Sparse Image := []
  submits : List Submit := []
  flows : Sparse FlowRt := []
  sampleLost : List Nat := []
  kept : List Image := []
  opened : Bool := false
  samples : List (Nat × List Byte) := []
  paced : List (Nat × Frame) := []
  deriving DecidableEq, Repr

/-! Queue pairs (06_queue_pairs_and_delivery.md) -/

/-- A queue-pair context (Table 6.2), one member per field; `replay` holds PSN and original value of each valid REPLAY entry by its place. -/
structure QpCtx where
  qpn : Nat := 0
  state : Nat := 0
  pin : Bool := false
  roce : Bool := false
  tier : Nat := 0
  cid : Nat := 0
  destCid : Nat := 0
  destQpn : Nat := 0
  cls : Nat := 0
  pmtu : Nat := 0
  dest : Nat := 0
  flow : Nat := 0
  pkey : Nat := 0
  rto : Nat := 0
  retryCnt : Nat := 0
  rnrRetry : Nat := 0
  rnrTimer : Nat := 0
  ackCoal : Nat := 0
  ackDelay : Nat := 0
  maxRd : Nat := 0
  window : Nat := 0
  sq : Nat := 0
  rq : Nat := 0
  scq : Nat := 0
  rcq : Nat := 0
  spill : Nat := 0
  sqPsn : Nat := 0
  unaPsn : Nat := 0
  retryLeft : Nat := 0
  rnrLeft : Nat := 0
  sqStart : Nat := 0
  sqDone : Nat := 0
  timer : Nat := 0
  rdOut : Nat := 0
  atomOut : Nat := 0
  resyncPend : Bool := false
  epsn : Nat := 0
  nakSent : Bool := false
  msn : Nat := 0
  rqCons : Nat := 0
  ackPend : Nat := 0
  msgOffset : Nat := 0
  curKey : Nat := 0
  curAddr : Nat := 0
  ackT0 : Nat := 0
  replay : Sparse (Nat × Nat) := []
  lastUse : Nat := 0
  errStatus : Nat := 0
  errPsn : Nat := 0
  deriving DecidableEq, Repr

/-- Where a context stands (R146, R147): in its home bank in a sub-bank, in the bank's victim buffer, or in its spill slot. -/
inductive CtxPlace where
  | resident (sub : Nat)
  | victim
  | spilled
  deriving DecidableEq, Repr

/-- A queue pair: its context and place, the state recorded by a freeze (R260), the PSN an RNR wait resends from (R159), PSNs whose VIS_ACK
is owed, each with whether its data lies in host memory (R162), a placement failed by R198, the REPLAY place written next (R160), the PSN of an unacknowledged RESYNC (R170), an
early packet made NAK_SENT 1 (R161), bytes placed of the current WRITE, the PSN from which packets already sent go again (R159). `recvFail`: the next resend of the current SEND is answered with NAK FAULT (R198); `recvFault`: its placement waits for a fragment (R191). -/
structure Qp where
  ctx : QpCtx := {}
  place : CtxPlace := .spilled
  prior : Nat := 0
  rnr : Option Nat := none
  vis : List (Nat × Bool) := []
  recvFail : Bool := false
  recvFault : Bool := false
  replayNext : Nat := 0
  resync : Nat := 0
  early : Bool := false
  wlen : Nat := 0
  again : Option Nat := none
  deriving DecidableEq, Repr

/-- What waits for a context that is being fetched (R147, R148): a KENNEL command of a host (OP, its image, its address), a timer that has
expired, a packet's VIS_ACK, new packets to send, an ABORT entry named by its queue and position. -/
inductive CtxJob where
  | cmd (h : HostId) (op addr : Nat) (img : List Byte)
  | timeout
  | rnr
  | ackDelay
  | visible (psn : Nat)
  | send
  | abort (queue pos : Nat)
  deriving DecidableEq, Repr

/-- The Kennel and the Retriever: contexts in victim buffers, oldest first, tier-1 slots in use, contexts being fetched, misses waiting
for a fetch (R146 to R148), what waits for a context, oldest first, queue pairs whose resident context cannot be read (R148, R150). -/
structure Kennel where
  victims : List Nat := []
  slots : List Nat := []
  fetching : List Nat := []
  waiting : List Nat := []
  jobs : List (Nat × CtxJob) := []
  bad : List Nat := []
  deriving DecidableEq, Repr

/-! Windows, faults, triggers (07_memory_windows.md) -/

/-- A window descriptor (Table 7.1). State: 0 FREE, 1 OPEN, 2 REVOKING. An index nothing has used is FREE at generation 1 (R177). -/
structure Window where
  base : Nat := 0
  space : Nat := 0
  limit : Nat := 0
  cid : Nat := 0
  gen : Nat := 1
  state : Nat := 0
  read : Bool := false
  write : Bool := false
  atomic : Bool := false
  opener : Nat := 0
  inflight : Nat := 0
  deriving DecidableEq, Repr

/-- Who waits for a revocation: a REVOKE_WINDOW entry, named by its queue and position, the WIN_REVOKE register of a partition, or a
reset (R186, R189). -/
inductive RevWaiter where
  | entry (queue pos : Nat)
  | reg (part : Nat)
  | reset
  deriving DecidableEq, Repr

/-- A revocation in progress: the index, whether its fence point has passed, who waits. -/
structure Revocation where
  index : Nat
  fenced : Bool := false
  waiters : List RevWaiter := []
  deriving DecidableEq, Repr

/-- The window store: descriptors by index; the free list, which is the indexes from `freeNext` on and then `freed`, without those of
`skip` (taken by a restore, or retired by Tinker); revocations. -/
structure WinStore where
  desc : Sparse Window := []
  freeNext : Nat := 1
  freed : List Nat := []
  skip : List Nat := []
  retired : List Nat := []
  revs : List Revocation := []
  deriving DecidableEq, Repr

/-- A fragment of a walked table (08 R231): the address and space of its entry, its range, its place in the buffer. -/
structure Frag where
  at_ : Nat
  tspace : Nat
  base : Nat
  space : Nat
  len : Nat
  present : Bool
  start : Nat
  deriving DecidableEq, Repr

/-- A write of one contiguous range: space, address, bytes. -/
structure MemWrite where
  space : Nat
  addr : Nat
  bytes : List Byte
  deriving DecidableEq, Repr

/-- What stands behind a faulting access (R191, R198): a parked tile by its number, a work entry stopped at a source fragment, a SEND
refused by RNR, a Drover transfer stopped at a source fragment. -/
inductive FaultWaiter where
  | tile (id : Nat)
  | entry (queue pos : Nat)
  | recv (qpn : Nat)
  | xfer (core chan id : Nat)
  deriving DecidableEq, Repr

/-- A parked or held tile (R192, R193): CID, the table (or, not `indirect`, the buffer) and offset its bytes go to, its bytes, the fault entries it still waits for, the
queue and position of its work entry (or core, channel and number of its Drover transfer), row length and pitch of a streamed tile (11 R317), whether it waits for earlier tiles
of its stream (13 R365), the engine that wrote it (its code of Table 7.7, and which of its kind) with the queue pair concerned, its table as its work
entry found it at its start (08 R233), the first park unit that holds it (none while its engine holds it). -/
structure Tile where
  id : Nat
  cid : Nat
  table : Nat
  tspace : Nat
  offset : Nat
  bytes : List Byte
  faults : List Nat
  queue : Nat
  pos : Nat
  xfer : Option (Nat × Nat × Nat) := none
  rowLen : Nat := 0
  pitch : Nat := 0
  after : Bool := false
  indirect : Bool := true
  unit : Nat × Nat := (0, 0)
  qpn : Option Nat := none
  snap : List Frag := []
  park : Option Nat
  deriving DecidableEq, Repr

/-- A fault entry (R195, R196): FAULT_ID, the fragment entry, the first access, whether its record has been written, waiters in order. -/
structure FaultEntry where
  id : Nat
  addr : Nat
  space : Nat
  cid : Nat
  engine : Nat
  write : Bool
  qpn : Option Nat
  offset : Nat
  ft : BitVec 64
  written : Bool := false
  waiters : List FaultWaiter := []
  deriving DecidableEq, Repr

/-- Sheepdog's state for one host: outstanding entries, the records of the open or waiting batch, whether that batch is closed, its
sequence number, entries whose records wait for a batch to open (R194, R195). -/
structure Sheep where
  entries : List FaultEntry := []
  batch : List Nat := []
  closed : Bool := false
  seq : Nat := 0
  later : List Nat := []
  deriving DecidableEq, Repr

/-- A trigger slot (R200). -/
structure TrigSlot where
  count : Nat := 0
  gen : Nat := 0
  deriving DecidableEq, Repr

/-- A tagged message accepted and not yet counted (R202): slot, generation accepted, partition, whether its data lies in host memory. -/
structure TrigPend where
  slot : Nat
  gen : Nat
  part : Nat
  host : Bool := false
  deriving DecidableEq, Repr

/-! Queues (08_host_interface_and_work_queues.md). A position (slot, generation) is the number (generation − 1) × ring size + slot. -/

/-- A started entry that has not completed: its position and bytes, first and last PSN where it is a transport entry, how far its packets
have been issued, its status, byte count and data once it has ended and waits for its turn, the fault it is stopped
at, tiles parked for it, FT_ns at its start, bytes placed by its READ, its opcode and length, whether its operation has been issued; of a
RECV: immediate data, SE; `remote`: the peer gave its status; `acked`: its last PSN is acknowledged; `visGot`: a VIS_ACK of that PSN has come;
`ans`: PSNs of it that responses have answered. Of a collective's transfer (12 R342): its number, the bytes it carries or has read, whether its queue pair
has resent since its start (12 R355). `toHost`: its local
destination lies in host memory, or partly; `tab`, `tab2`: the fragments of its table, and of a COPY's destination table, as found at its start
(R233); `back`: it has ended and waits for a read-back of that data (R239). -/
structure Live where
  pos : Nat
  bytes : List Byte
  first : Nat := 0
  last : Nat := 0
  done : Option (Nat × Nat × Nat) := none
  stopped : Bool := false
  parked : Nat := 0
  t0 : BitVec 64 := 0
  got : Nat := 0
  opcode : Nat := 0
  len : Nat := 0
  issued : Bool := false
  imm : Bool := false
  se : Bool := false
  remote : Bool := false
  acked : Bool := false
  visGot : Bool := false
  ans : Nat := 0
  coll : Option Nat := none
  data : List Byte := []
  hurt : Bool := false
  toHost : Bool := false
  tab : List Frag := []
  tab2 : List Frag := []
  back : Bool := false
  deriving DecidableEq, Repr

/-- A queue: its descriptor (Table 8.4), its shadow ring, fetch position F, posted limit P, the next entry to start, fetched entries that have not started (position,
re-fetches, bytes), started entries, positions aborted before their start, positions beyond the next one that have started out of order (06 R170, 07 R188). A completion queue: read position C, write position
W, completions waiting for room, armed, completions since the arm. -/
structure Queue where
  base : Nat := 0
  space : Nat := 0
  type : Nat := 0
  log2 : Nat := 4
  cid : Nat := 0
  dbSlot : Nat := 0
  vector : Nat := 0
  cq : Nat := 0
  modCount : Nat := 0
  modTime : Nat := 0
  shadow : Nat := 0
  fetch : Nat := 0
  posted : Nat := 0
  next : Nat := 0
  cached : List (Nat × Nat × List Byte) := []
  live : List Live := []
  aborted : List Nat := []
  early : List Nat := []
  stopped : Bool := false
  read : Nat := 0
  write : Nat := 0
  waiting : List (List Byte) := []
  armed : Bool := false
  since : Nat := 0
  deriving DecidableEq, Repr

/-! Host ports (08_host_interface_and_work_queues.md) -/

/-- The BAR4 mapping in force (R215). -/
structure B4Map where
  enable : Bool := false
  space : Nat := 1
  part : Nat := 0
  offset : Nat := 0
  deriving DecidableEq, Repr

/-- A BAR4 request: a read of some bytes at an offset of the BAR, or a write. -/
inductive B4Req where
  | read (off size : Nat)
  | write (off : Nat) (bytes : List Byte)
  deriving DecidableEq, Repr

/-- One host port: the function is in D3hot (R208), an FLR's partition resets run, so that the function does not report ready (R208), MSI-X vectors
pending (R240), the BAR4 mapping in force, BAR4 requests that a memory holds back, oldest first, each with the mapping it reached (R213, R215), the
watchdog runs (R255). -/
structure HostPort where
  d3hot : Bool := false
  notReady : Bool := false
  pba : List Nat := []
  b4 : B4Map := {}
  b4Wait : List (B4Map × B4Req) := []
  wdog : Bool := false
  deriving DecidableEq, Repr

/-! Partitions (09_partitions_instances_migration.md) -/

/-- A partition reset in progress: the partition, whether it is freed at the end (R243). -/
structure PartReset where
  part : Nat
  frees : Bool := false
  deriving DecidableEq, Repr

/-- An INST_RESET or INST_DESTROY that waits for revocations: host, partition, instance, whether it frees the instance (R252). -/
structure InstCmd where
  host : HostId
  part : Nat
  inst : Nat
  destroy : Bool
  deriving DecidableEq, Repr

/-- A FREEZE in progress: host, partition, the instance of an instance scope (R260). -/
structure Freeze where
  host : HostId
  part : Nat
  inst : Option Nat
  deriving DecidableEq, Repr

/-- Partition resets, instance commands and freezes in progress; saves done by the device, which make the IV of a save image unique (R262). -/
structure Parts where
  resets : List PartReset := []
  insts : List InstCmd := []
  freezes : List Freeze := []
  saves : Nat := 0
  deriving DecidableEq, Repr

/-! Cores (10_cores_and_hyl_instruction_set.md), by logical core ID. The state of a core, its SPMODE, SECURE, CAUSE, EVENTS, HANDLE and EPC
stand in its CLUSTER_CORE registers. -/

/-- A level of the loop stack (Table 10.1): start, length in instructions, remaining count. -/
structure LoopLvl where
  start : Nat
  len : Nat
  count : Nat
  deriving DecidableEq, Repr

/-- An event of a core (Table 10.8): its number on the core, kind, v31 image, g2 value, CID; of an INVOKE its queue and position; of a FRAME
its first ring cell and their number (11 R332). -/
structure CoreEv where
  id : Nat := 0
  kind : Nat
  v31 : List Byte
  g2 : Nat := 0
  cid : Nat := 0
  queue : Nat := 0
  pos : Nat := 0
  cell : Nat := 0
  cells : Nat := 0
  deriving DecidableEq, Repr

/-- What a running core waits for: SLOTW, SWAIT (offset, value), DWAIT (channel, count), BAR (unit). -/
inductive Wait where
  | slot (n : Nat)
  | word (off val : Nat)
  | chan (ch n : Nat)
  | bar (unit : Nat)
  deriving DecidableEq, Repr

/-- AES requests of one instruction that have not returned (R292): destination register, decryption, key slot, partition, 64 bytes, its number in the order of
arrival at the cluster's queue (15 R424). -/
structure AesReq where
  vd : Nat
  dec : Bool
  slot : Nat
  part : Nat
  data : List Byte
  seq : Nat := 0
  deriving DecidableEq, Repr

/-- A Drover transfer (R291): its descriptor, the event that issued it and its CID, whether the Drover has taken it, the words of its
conversion profile as taken (11 R309; none for a plain copy), whether its data has been moved, tiles of it that are parked, stands at a
missing fragment, a status other than OK, bytes moved or received, the FMT of a stream's first tile. -/
structure Xfer where
  id : Nat
  desc : List Byte
  ev : Nat
  cid : Nat
  taken : Bool := false
  prof : List Word := []
  moved : Bool := false
  parked : Nat := 0
  stopped : Bool := false
  status : Nat := 0
  got : Nat := 0
  fmt : Option Nat := none
  deriving DecidableEq, Repr

/-- A Drover channel (R291, 11 R318): transfers outstanding, oldest first; the last status other than OK, ERR; buffered tiles with their
FMT. -/
structure Chan where
  queue : List Xfer := []
  status : Nat := 0
  err : Bool := false
  tiles : List (Nat × List Byte) := []
  deriving DecidableEq, Repr

/-- A CMPL that waits for its event's transfers (R297). -/
structure CmplPend where
  ev : Nat
  queue : Nat
  pos : Nat
  status : Nat
  bytes : Nat
  deriving DecidableEq, Repr

/-- A frame whose verdict word is still to be written (11 R333): the event it started, the word's offset, whether the frame is good. -/
structure Verdict where
  ev : Nat
  off : Nat
  good : Bool
  deriving DecidableEq, Repr

/-- A core (Table 10.1 and what R296 to R302 keep): scratchpad, place of its code, registers with unlisted ones 0, PC, loop stack
innermost first, FFLAGS, core cycle of the last dispatch, EADDR, EKIND, queued events, the running event, inside entry 3, an exception
occurred in the event, CMPL done in the event, what it waits for, AES requests, channels,
completions waiting for transfers, the state before HALTED, a halt requested (by a freeze, by a debugger), the image's entries and
LIMIT_CYCLES, verdicts to come, events whose frame was bad, the ring cell frames take next, next event and transfer numbers; `preload`: the spare's image is still being
loaded (R306). -/
structure Core where
  spad : Mem := []
  codeAt : Nat := 0
  codeLen : Nat := 0
  g : Sparse (BitVec 64) := []
  v : Sparse (BitVec 512) := []
  acc : Sparse Word := []
  pc : BitVec 18 := 0
  loops : List LoopLvl := []
  fflags : Nat := 0
  cycle0 : Nat := 0
  eaddr : Nat := 0
  ekind : Nat := 0
  events : List CoreEv := []
  cur : Option CoreEv := none
  handler : Bool := false
  hadExc : Bool := false
  cmplDone : Bool := false
  wait : Option Wait := none
  aes : List AesReq := []
  chans : Sparse Chan := []
  cmpls : List CmplPend := []
  prior : Nat := 0
  haltFreeze : Bool := false
  haltDebug : Bool := false
  entries : List Nat := []
  limit : Nat := 0
  verdicts : List Verdict := []
  badEvs : List Nat := []
  ringNext : Nat := 0
  evNext : Nat := 0
  xferNext : Nat := 0
  preload : Bool := false
  deriving DecidableEq, Repr

/-- A handle (R304, R306): its partition, the DIGEST it is bound to, the verified image, the core with the dispatch role. -/
structure Handle where
  part : Nat
  digest : List Byte
  image : List Byte
  dispatch : Option Nat := none
  deriving DecidableEq, Repr

/-- A reduction descriptor at a unit (11 R320): the posting core, its CID, its 64 bytes, counted as waiting for spill room, posted by the collective
library (12 R348). -/
structure RedPost where
  core : Nat
  cid : Nat
  desc : List Byte
  waited : Bool := false
  lib : Bool := false
  deriving DecidableEq, Repr

/-- An open or failed segment (11 R322 to R330): partition, the descriptor that opened it, its posting core and CID, exact mode at its
opening, ranks accepted, accumulators as FP32 bits, in the spill region, the status it failed with, destinations written, opened by the collective
library. -/
structure RedSeg where
  part : Nat
  desc : List Byte
  core : Nat
  cid : Nat
  exact : Bool
  ranks : List Nat := []
  acc : List Nat := []
  spilled : Bool := false
  failed : Option Nat := none
  written : Nat := 0
  lib : Bool := false
  deriving DecidableEq, Repr

/-- A message on the mesh (R294): target and sender core, the sender's CID, 64 bytes. -/
structure CoreMsg where
  target : Nat
  sender : Nat
  cid : Nat
  bytes : List Byte
  deriving DecidableEq, Repr

/-- A cluster: messages in its network interface's outbound queue (R294), descriptors queued at its reduction unit,
its segments. -/
structure Cluster where
  msgs : List CoreMsg := []
  redq : List RedPost := []
  segs : List RedSeg := []
  aesNext : Nat := 0
  deriving DecidableEq, Repr
/-! Collectives and barriers (12_collectives.md, 01_fabric_time.md R32) -/

/-- A member entry (Table 12.2). -/
structure Member where
  kind : Nat
  space : Nat
  qpn : Nat
  key : Nat
  fca : Nat
  base : Nat
  sig : Nat
  deriving DecidableEq, Repr

/-- A transfer of a collective that a queue pair carries: its number, what it is (0 a contribution read, 1 a chunk written, 2 an increment), the rank
at its far end, the first chunk coordinate (destination or part) and the chunk. -/
structure CollXfer where
  id : Nat
  what : Nat
  rank : Nat
  key : Nat
  chunk : Nat
  deriving DecidableEq, Repr

/-- The end of such a transfer: its number, status, whether R355 affected it, the bytes read. -/
structure CollEnd where
  id : Nat
  status : Nat
  hurt : Bool
  data : List Byte
  deriving DecidableEq, Repr

/-- What a reduction unit tells the collective library of a segment (12 R348, R356; 11 R322, R330): partition, RID and SEG, the rank concerned, 0 where
the result stands in staging, else the status it was refused or failed with. -/
structure RedEnd where
  part : Nat
  rid : Nat
  seg : Nat
  rank : Nat
  status : Nat
  deriving DecidableEq, Repr

/-- A reduction chunk in flight (12 R346, R348): the result it belongs to and its number, its places in staging (the result's, then one per REMOTE
contribution), ranks whose contribution has been fetched, segments and ranks posted, segments whose result stands in staging. -/
structure CollJob where
  key : Nat
  chunk : Nat
  slots : List Nat
  fetched : List Nat := []
  posted : List (Nat × Nat) := []
  done : List Nat := []
  deriving DecidableEq, Repr

/-- A running collective: its INVOKE's queue, position and CID, its arguments (Table 12.3), its group and staging area (Table 12.1), the PERMUTE table,
FT_ns at its start, increments per destination rank, chunks of a SHIFT or PERMUTE that have been read and converted, reduction chunks in flight, chunks
visible at their destinations, its transfers, increments in all, chunks resent, the failure and its rank. -/
structure Coll where
  queue : Nat
  pos : Nat
  cid : Nat
  args : List Byte
  depth : Nat
  mask : Nat
  gid : Nat
  status : Nat
  members : List Member
  stage : Nat := 0
  perm : List Nat := []
  ftStart : BitVec 64
  counts : Sparse Nat := []
  results : List ((Nat × Nat) × List Byte) := []
  reads : List ((Nat × Nat × Nat) × List Byte) := []
  jobs : List CollJob := []
  visible : List (Nat × Nat) := []
  xfers : List CollXfer := []
  incs : Nat := 0
  late : List (Nat × Nat) := []
  failed : Option (Nat × Nat) := none
  deriving DecidableEq, Repr

/-- A barrier this device has arrived at: the members' FCAs by rank, its own rank, SEQ, queue and position of the INVOKE, the release slot
received. -/
structure BarRun where
  members : List Nat
  rank : Nat
  seq : Nat
  coll : Option (Nat × Nat) := none
  release : Option Nat := none
  deriving DecidableEq, Repr

/-- An arrival at the coordinator: SEQ, rank, arrival slot, time state. -/
structure BarArrival where
  seq : Nat
  rank : Nat
  slot : Nat
  state : Nat
  deriving DecidableEq, Repr

/-- A barrier unit: the partition whose membership it holds, the members' FCAs by rank, its own rank (12 R360), SEQ of the next BAR, the barrier in
progress, arrivals received, SEQs withdrawn before the coordinator itself arrived. -/
structure BarUnit where
  holder : Option Nat := none
  members : List Nat := []
  rank : Nat := 0
  seq : Nat := 0
  run : Option BarRun := none
  arrivals : List BarArrival := []
  withdrawn : List Nat := []
  deriving DecidableEq, Repr


/-! The memory system (14_memory_system.md) -/

/-- A Tinker engine: blocks tested in its present pass, passes completed, core cycle at which the pass began, a window-store block beyond
repair whose descriptors are not all FREE yet (Table 14.4), the blocks at the head of its order: each held a word reported to the engine (R380). -/
structure TinkerEng where
  done : Nat := 0
  passes : Nat := 0
  start : Nat := 0
  hold : Option Nat := none
  first : List Nat := []
  deriving DecidableEq, Repr

/-- The scrubber of a channel: next line of its module, corrected bursts of the present pass by 16 × subchannel + device. -/
structure ScrubCh where
  pos : Nat := 0
  hits : Sparse Nat := []
  deriving DecidableEq, Repr

/-- Tinker's engines (clusters 0 to 63, link tiles from 64 on), the core cycle from which first passes count, spare rows used by
1024 × engine + macro, packet-buffer cells lost by tile, scrubbers by channel. -/
structure MemSys where
  tinker : Sparse TinkerEng := []
  since : Nat := 0
  rows : Sparse Nat := []
  lost : Sparse Nat := []
  scrub : Sparse ScrubCh := []
  deriving DecidableEq, Repr

/-! Security (15_security_and_cipher.md) -/

/-- The fuses (R399, R404, R407, 02 R40): digests of the firmware keys F0 to F3 (empty where unwritten), those revoked, the security
version, digests of the authority keys A0 to A3, the identity seed, the life-cycle state, words of the disabled-unit fuse registers. -/
structure Fuses where
  fw : List (List Byte) := []
  revoked : List Nat := []
  version : Nat := 0
  auth : List (List Byte) := []
  seed : List Byte := []
  lc : Nat := 0
  dum : Sparse Word := []
  deriving DecidableEq, Repr

/-- A key command that waits for the requests naming its slot (R422): the host, the slot, the key of a LOAD. -/
structure KeyCmd where
  host : HostId
  slot : Nat
  key : Option (List Byte)
  deriving DecidableEq, Repr

/-- The SPDM responder and IDE streams of one host port (R425): the board controller has set the pre-shared key; a secure session stands;
streams whose keys are programmed. -/
structure IdePort where
  psk : Bool := false
  session : Bool := false
  keyed : List Nat := []
  deriving DecidableEq, Repr

/-- Mastiff: fuses, key slots, waiting key commands, LOAD commands whose record's read waits at its memory, the outstanding nonce, the debug level that takes effect once an eviction ends, the
partitions of that eviction, the firmware version that runs, both ports' IDE state. -/
structure Sec where
  fuses : Fuses := {}
  keys : Sparse (List Byte) := []
  keyCmds : List KeyCmd := []
  keyLoads : List (HostId × Nat) := []
  nonce : Option (List Byte) := none
  raise : Option Nat := none
  evicting : List Nat := []
  fwVersion : Nat := 0
  ide0 : IdePort := {}
  ide1 : IdePort := {}
  deriving DecidableEq, Repr
/-! Energy (16_energy_and_power_states.md) -/

/-- Tally: windows in a row for which each cluster's partition cores were idle (R432), clusters whose partition cores were not idle at some time in the present window,
windows in a row over budget at full throttle (R436), the latches of TALLY_DOM_TOT_HI by domain (R443). -/
structure TallyUnit where
  idle : Sparse Nat := []
  active : List Nat := []
  excess : Nat := 0
  totHi : Sparse Nat := []
  deriving DecidableEq, Repr


/-! Bring-up (17_bringup_reset_firmware.md) -/

/-- A resident image of the manifest (Table 17.4): the service cores that run it as a mask, first segment, segments, OFFSET, CRC, length,
DIGEST. -/
structure ResImage where
  cores : Nat
  first : Nat
  count : Nat
  offset : Nat
  crc : Nat
  length : Nat
  digest : List Byte
  deriving DecidableEq, Repr

/-- A target of the Crier (R453, R454): cluster, physical core, logical number, segments held, segments lacking by its report of this pass,
whether its completion report has been sent. -/
structure Target where
  cluster : Nat
  pcore : Nat
  num : Nat
  held : List Nat := []
  report : Option (List Nat) := none
  complete : Bool := false
  deriving DecidableEq, Repr

/-- Bring-up: the resident images, the segment table, the segments in the image store, the Crier's targets and the segments its present pass multicasts, a
compute reset whose clearing runs, whether its exit needs RESUME (R462), the digest of the manifest in force, whether GLB_DET_DIGEST is
being recomputed (13 R368), the security version and the firmware key fuses to write once the boot completes (15 R402), the core cycle at
which PWR_OK rose or the warm reset began, whether a warm reset has not reached WAIT_MANIFEST (R464). -/
structure Boot where
  images : List ResImage := []
  table : List (List Byte) := []
  store : List (List Byte) := []
  targets : List Target := []
  sent : List Nat := []
  clearing : Bool := false
  needResume : Bool := false
  manifest : List Byte := []
  detPending : Bool := false
  svn : Option Nat := none
  revoke : List Nat := []
  began : Nat := 0
  warm : Bool := false
  deriving DecidableEq, Repr

/-- Pins that commands drive or read (19_pins_electrical_package.md): levels of PWR_OK, MAIN_PG, MAIN_EN, ALIVE_N and FAULT_N, true for high,
and PWR_CAP_N held low. FAULT_N and ALIVE_N are active low. -/
structure Pins where
  pwrOk : Bool := false
  mainPg : Bool := false
  mainEn : Bool := false
  alive : Bool := true
  fault : Bool := true
  capLow : Bool := false
  trstN : Bool := false
  deriving DecidableEq, Repr

/-! What leaves the block -/

/-- One thing that leaves the block, in the order in which it leaves (the model's own log). -/
inductive Output where
  /-- An MSI-X vector of a host: its number, and the address and data of its table entry that the write carries (08 R240). -/
  | msix (h : HostId) (vector addr data : Nat)
  /-- Bytes written into a host's memory, with Relaxed Ordering or not (08 R207). -/
  | hostWrite (h : HostId) (addr : Nat) (bytes : List Byte) (ro : Bool)
  /-- A PCIe AtomicOp on 8 bytes of a host's memory: a CAS with its compare and swap values, or a FetchAdd (06 R164, 08 R206). -/
  | hostCas (h : HostId) (addr compare swap : Nat)
  | hostAdd (h : HostId) (addr add : Nat)
  /-- The data a BAR read returns. -/
  | readData (h : HostId) (bar : Nat) (off : Nat) (bytes : List Byte)
  /-- A PTP message leaves a port (01 R13). -/
  | ptp (port : Nat) (msg : PtpMsg)
  /-- A barrier arrival message to the coordinator (01 R32): unit, SEQ, sender's rank, arrival slot, time state. -/
  | barrierArrival (fca : Nat) (unit seq rank slot state : Nat)
  /-- A barrier release message to a member (01 R32, R34): unit, SEQ, release slot if any, marked failed (12 R359). -/
  | barrierRelease (fca : Nat) (unit seq : Nat) (slot : Option Nat) (failed : Bool)
  /-- A barrier withdrawal to the coordinator (12 R359): unit, SEQ, rank. -/
  | barrierWithdrawal (fca : Nat) (unit seq rank : Nat)
  /-- A frame's bytes leave a port and sub-port in a class. -/
  | frame (port sub cls : Nat) (bytes : List Byte)
  /-- An ordered set leaves a native port in container position 0 of a period on that many lanes, each copy with this body (03 R67). -/
  | ordSet (port : Nat) (os : OrdSet) (lanes : Nat) (body : List Byte)
  /-- A PFC frame leaves: PCP values and their quanta (03 R57). -/
  | pfc (port sub : Nat) (pcps : List Nat) (quanta : Nat)
  /-- An IEEE 802.3x PAUSE frame leaves (03 R58). -/
  | pause (port sub : Nat) (quanta : Nat)
  /-- An answer to the board controller over MCTP (15 R405). -/
  | mctp (bytes : List Byte)
  /-- An answer by DOE to an SPDM or IDE_KM message of a host: the request was served, or an error (15 R425). -/
  | doe (h : HostId) (ok : Bool)
  deriving DecidableEq, Repr

/-- The whole machine. `pending`, `out` and `freeCtr` are the model's own fields (log 1, log 2). -/
structure State where
  /-- Commands waiting, first in first out. -/
  pending : List Instr := []
  /-- BAR0 registers by offset. -/
  regs : Sparse Word := []
  time : TimeUnit := {}
  scriv : Scriv := {}
  host0 : HostPort := {}
  host1 : HostPort := {}
  sched : Sched := {}
  /-- Ports P0 to P63. -/
  ports : Sparse Port := []
  /-- The mesh. -/
  mesh : Mesh := {}
  /-- Packets for the device's own endpoints, waiting in arrival order. -/
  rxq : List RxPkt := []
  /-- Queue pairs held by a lost route, with whether the peer showed FENCED (06 R167). -/
  held : Sparse Bool := []
  /-- Frames on their way to stage cores. -/
  stageIn : List StageFrame := []
  /-- Boot has not reached READY since the last cold or warm reset (17 R448). -/
  preReady : Bool := true
  qps : Sparse Qp := []
  kennel : Kennel := {}
  wins : WinStore := {}
  sheep0 : Sheep := {}
  sheep1 : Sheep := {}
  tiles : List Tile := []
  tileNext : Nat := 0
  trigs : Sparse TrigSlot := []
  trigPend : List TrigPend := []
  queues : Sparse Queue := []
  cores : Sparse Core := []
  clusters : Sparse Cluster := []
  /-- Handles that exist, by their 32 bits. -/
  handles : Sparse Handle := []
  /-- Logical cores fenced since the last map commit whose spare already holds their image (10 R306). -/
  spares : List Nat := []
  /-- Digests verified since the last warm or cold reset, newest first, at most 256 (10 R304). -/
  digests : List (List Byte) := []
  sec : Sec := {}
  parts : Parts := {}
  /-- Running collectives, oldest first; ends of their transfers and of their segments not yet looked at; the next transfer number. -/
  colls : List Coll := []
  collEnds : List CollEnd := []
  redEnds : List RedEnd := []
  collNext : Nat := 0
  /-- The 16 barrier units. -/
  bars : Sparse BarUnit := []
  boot : Boot := {}
  memsys : MemSys := {}
  /-- The port whose reset is in progress (17 R463). -/
  portRst : Option Nat := none
  tally : TallyUnit := {}
  pins : Pins := {}
  /-- DDR lines, by address / 64, that read as uncorrectable. -/
  ddrBad : List Nat := []
  /-- Each host's memory as the device has written or read it. -/
  hostMem0 : Mem := []
  hostMem1 : Mem := []
  /-- Host memory whose last read completions carried EP (08 R207): host, address, bytes. -/
  poisoned : List (HostId × Nat × Nat) := []
  /-- Device DDR by 41-bit address. -/
  ddr : Mem := []
  /-- What has left the block, oldest first. -/
  out : List Output := []
  /-- The counter that free values are applied to. -/
  freeCtr : Nat := 0
  deriving DecidableEq, Repr

/-- The machine right after reset: every register at its reset value, every memory and queue empty. -/
def State.reset : State := {}

end Sys2Proof.Machine
end

