-- ==== Sys2Proof/Machine/Ops.lean ====
section
/-! DEFINITION. The named operations every meaning is written over: sparse tables, bit fields, byte order, BAR0 registers and their
fields, byte memories, the output log and the free-value counter. -/

namespace Sys2Proof

/-- The value at a key, the first of the list. -/
def Sparse.at? {α : Type} : Sparse α → Nat → Option α
  | [], _ => none
  | (k, v) :: m, i => if i = k then some v else Sparse.at? m i

/-- The value at a key, or what an unlisted key holds. -/
def Sparse.getD {α : Type} (m : Sparse α) (i : Nat) (d : α) : α := (m.at? i).getD d

/-- List a value at a key, in key order. -/
def Sparse.set {α : Type} : Sparse α → Nat → α → Sparse α
  | [], i, v => [(i, v)]
  | (k, w) :: m, i, v =>
    if i < k then (i, v) :: (k, w) :: m else if i = k then (i, v) :: m else (k, w) :: Sparse.set m i v

/-- Remove every pair with the key. -/
def Sparse.del {α : Type} : Sparse α → Nat → Sparse α
  | [], _ => []
  | (k, w) :: m, i => if i = k then Sparse.del m i else (k, w) :: Sparse.del m i

/-- Give a key a value where `d` is what the unlisted key holds: the pair leaves the list when the value is `d`. -/
def Sparse.putD {α : Type} [DecidableEq α] (m : Sparse α) (i : Nat) (v d : α) : Sparse α :=
  if v = d then m.del i else m.set i v

/-- The canonical form, for what unlisted keys hold: keys strictly rising, no pair that an unlisted key would hold. -/
def Sparse.wf {α : Type} [DecidableEq α] (d : Nat → α) (m : Sparse α) : Prop :=
  m.Pairwise (fun a b => a.1 < b.1) ∧ ∀ p ∈ m, p.2 ≠ d p.1

end Sys2Proof

namespace Sys2Proof.Machine

/-! Bit fields and bytes -/

/-- Bits [lo + w - 1 : lo] of a number. -/
def bits (n lo w : Nat) : Nat := n / 2 ^ lo % 2 ^ w

/-- Bit i of a number. -/
def bitAt (n i : Nat) : Bool := bits n i 1 == 1

/-- Replace bits [lo + w - 1 : lo] of a number. -/
def setBits (n lo w x : Nat) : Nat := n - bits n lo w * 2 ^ lo + x % 2 ^ w * 2 ^ lo

/-- One bit as a number. -/
def b2n (b : Bool) : Nat := if b then 1 else 0

/-- The number of set bits among the w lowest. -/
def popCount (n : Nat) : Nat → Nat
  | 0 => 0
  | w + 1 => b2n (bitAt n w) + popCount n w

/-- The set bits among the w lowest, ascending. -/
def setBitsOf (n w : Nat) : List Nat := (List.range w).filter (bitAt n)

/-- The k bytes of a number, least significant first (00_scope.md R5). -/
def leBytes : Nat → Nat → List Byte
  | 0, _ => []
  | k + 1, n => BitVec.ofNat 8 n :: leBytes k (n / 256)

/-- The number that bytes make, least significant first (00_scope.md R5). -/
def leNat : List Byte → Nat
  | [] => 0
  | b :: bs => b.toNat + 256 * leNat bs

/-- The number that bytes make, most significant first (network order). -/
def beNat (bs : List Byte) : Nat := bs.foldl (fun a b => 256 * a + b.toNat) 0

/-- The k bytes of a number, most significant first. -/
def beBytes (k n : Nat) : List Byte := (leBytes k n).reverse

/-- The bytes [i, i + k) of a list. -/
def slice {α : Type} (l : List α) (i k : Nat) : List α := (l.drop i).take k

/-- The little-endian number in bytes [i, i + k) of a structure. -/
def leAt (l : List Byte) (i k : Nat) : Nat := leNat (slice l i k)

/-- Whether the bytes [i, i + k) of a structure are all 0. -/
def zeroAt (l : List Byte) (i k : Nat) : Bool := (slice l i k).all (· == 0)

/-- Replace the element at a place of a list; nothing where the list is shorter. -/
def setAt {α : Type} (l : List α) (i : Nat) (x : α) : List α := l.set i x

/-- A quotient rounded up. -/
def ceilDiv (a b : Nat) : Nat := (a + b - 1) / b

/-- A list without repeats, with one more member. -/
def addTo (l : List Nat) (x : Nat) : List Nat := if l.contains x then l else l ++ [x]

/-! BAR0 registers -/

/-- Bits of a register word. -/
def wordField (v : Word) (lo w : Nat) : Nat := (v.extractLsb' lo w).toNat

/-- A register word with some bits replaced. -/
def wordSet (v : Word) (lo w x : Nat) : Word :=
  let mask : Word := BitVec.ofNat 32 (2 ^ w - 1) <<< lo
  (v &&& ~~~mask) ||| ((BitVec.ofNat 32 x <<< lo) &&& mask)

/-- The word of a BAR0 register. -/
def State.reg (s : State) (off : Nat) : Word := (s.regs.at? off).getD (regReset off)

/-- Give a BAR0 register a word. -/
def State.setReg (s : State) (off : Nat) (v : Word) : State :=
  { s with regs := s.regs.putD off v (regReset off) }

/-- The value of a field. -/
def State.get (s : State) (f : Fld) : Nat := wordField (s.reg f.off) f.lo f.w

/-- One bit of a field. -/
def Fld.bit (f : Fld) (i : Nat) : Fld := ⟨f.off, f.lo + i, 1⟩

/-- Whether a field is not 0. -/
def State.flag (s : State) (f : Fld) : Bool := s.get f != 0

/-- Give a field a value; bits beyond its width fall away. -/
def State.put (s : State) (f : Fld) (x : Nat) : State := s.setReg f.off (wordSet (s.reg f.off) f.lo f.w x)

/-- Add to a counter that saturates at its field's width. -/
def State.count (s : State) (f : Fld) (n : Nat := 1) : State := s.put f (min (s.get f + n) (2 ^ f.w - 1))

/-- Give a field its reset value. -/
def State.resetReg (s : State) (off : Nat) : State := { s with regs := s.regs.del off }

/-- The 64-bit value of a _LO and _HI pair of fields whose bits keep their places. -/
def State.pair (s : State) (lo hi : Fld) : Nat := s.get lo * 2 ^ lo.lo + s.get hi * 2 ^ (32 + hi.lo)

/-- Reset every register whose offset satisfies a test. -/
def State.resetRegs (s : State) (p : Nat → Bool) : State := { s with regs := s.regs.filter (fun e => !p e.1) }

/-! Byte memories. An unlisted address reads 0 (log 6). -/

/-- The byte at an address. -/
def memByte (m : Mem) (a : Nat) : Byte := m.getD a 0

/-- Store one byte. -/
def memPut (m : Mem) (a : Nat) (b : Byte) : Mem := m.putD a b 0

/-- The k bytes from an address. -/
def memRead (m : Mem) (a : Nat) : Nat → List Byte
  | 0 => []
  | k + 1 => memByte m a :: memRead m (a + 1) k

/-- Store bytes from an address. -/
def memWrite (m : Mem) : Nat → List Byte → Mem
  | _, [] => m
  | a, b :: bs => memWrite (memPut m a b) (a + 1) bs

/-- Give every byte of [a, a + k) the value 0. -/
def memZero (m : Mem) (a k : Nat) : Mem := m.filter (fun c => !(a ≤ c.1 && c.1 < a + k))

/-- The canonical form of a byte memory. -/
abbrev Mem.wf (m : Mem) : Prop := Sparse.wf (fun _ => (0 : Byte)) m

/-! The model's own fields -/

/-- Add to the log of what leaves the block. -/
def State.emit (s : State) (o : Output) : State := { s with out := s.out ++ [o] }

/-- Add several entries to the log of what leaves the block. -/
def State.emits (s : State) (os : List Output) : State := { s with out := s.out ++ os }

/-- Step the counter that the free values are applied to (log 2). -/
def State.fresh (s : State) : State := { s with freeCtr := s.freeCtr + 1 }

/-- k bytes that the spec leaves open (log 2). -/
def State.freeBytes (s : State) (k : Nat) : List Byte :=
  (List.range k).map (fun i => Config.freeByte s.freeCtr i)

end Sys2Proof.Machine
end

