-- ==== Sys2Proof/Machine/Digest.lean ====
section
/-! DEFINITION. SHA3-256 (FIPS 202) and the AES block cipher (FIPS 197), which the spec names and does not restate (log 61). -/

namespace Sys2Proof.Machine

/-! SHA3-256. A state is 25 lanes, lane 5y + x. -/

/-- The lanes in the order in which ρ and π visit them from (1, 0), each going to (y, 2x + 3y); the number counts those still to visit. -/
def keccakWalk : Nat → Nat → Nat → List Nat
  | 0, x, y => [5 * y + x]
  | n + 1, x, y => (5 * y + x) :: keccakWalk n y ((2 * x + 3 * y) % 5)

/-- ρ and π together: the lane visited as number t is rotated by (t + 1)(t + 2) / 2 and put in the place visited next. -/
def keccakMove (a : List (BitVec 64)) : List (BitVec 64) :=
  let w := keccakWalk 24 1 0
  (List.range 24).foldl (fun b t => b.set (w.getD (t + 1) 0) ((a.getD (w.getD t 0) 0).rotateLeft ((t + 1) * (t + 2) / 2 % 64))) a

/-- θ: every lane takes the parity of the column before it and, rotated once, of the column after it. -/
def keccakMix (a : List (BitVec 64)) : List (BitVec 64) :=
  let par (x : Nat) := (a.zipIdx.filter (fun e => e.2 % 5 == x % 5)).foldl (fun p e => p ^^^ e.1) 0
  let add := (List.range 5).map (fun x => par (x + 4) ^^^ (par (x + 1)).rotateLeft 1)
  a.zipIdx.map (fun e => e.1 ^^^ add.getD (e.2 % 5) 0)

/-- χ on each row of five lanes. -/
def keccakRows (a : List (BitVec 64)) : List (BitVec 64) :=
  a.zipIdx.map (fun e =>
    let row := e.2 - e.2 % 5
    e.1 ^^^ (a.getD (row + (e.2 + 2) % 5) 0 &&& ~~~ a.getD (row + (e.2 + 1) % 5) 0))

/-- The next state of the shift register that gives ι its bits, x^8 + x^6 + x^5 + x^4 + 1. -/
def keccakShift (r : Byte) : Byte := (r <<< 1) ^^^ (if r.msb then 0x71 else 0)

/-- ι's constant of one round: bit 2^j − 1 is the register's lowest bit after j shifts, for j below 7; and the register after it. -/
def keccakIota (r : Byte) : BitVec 64 × Byte :=
  (List.range 7).foldl (fun p j => (p.1 ||| (if p.2.getLsbD 0 then 1 <<< (2 ^ j - 1) else 0), keccakShift p.2)) (0, r)

/-- Rounds of Keccak-f[1600] from a state of the shift register on. -/
def keccakRounds : Nat → Byte → List (BitVec 64) → List (BitVec 64)
  | 0, _, a => a
  | n + 1, r, a =>
    let i := keccakIota r
    keccakRounds n i.2 ((keccakRows (keccakMove (keccakMix a))).modify 0 (· ^^^ i.1))

/-- Keccak-f[1600]: 24 rounds, the shift register starting at 1. -/
def keccakF (a : List (BitVec 64)) : List (BitVec 64) := keccakRounds 24 1 a

/-- Absorb blocks of 136 bytes; the fuel bounds them. -/
def sha3Absorb : Nat → List (BitVec 64) → List Byte → List (BitVec 64)
  | 0, a, _ => a
  | k + 1, a, bs =>
    let blk := bs.take 136
    let a := List.zipWith (fun w i => if i < 17 then w ^^^ BitVec.ofNat 64 (leAt blk (8 * i) 8) else w) a (List.range 25)
    sha3Absorb k (keccakF a) (bs.drop 136)

/-- The SHA3-256 digest. -/
def sha3 (m : List Byte) : List Byte :=
  let n := 136 - m.length % 136
  let pad : List Byte := if n = 1 then [0x86] else 0x06 :: List.replicate (n - 2) 0 ++ [0x80]
  let a := sha3Absorb ((m.length + n) / 136) (List.replicate 25 0) (m ++ pad)
  (a.take 4).flatMap (fun w => leBytes 8 w.toNat)

/-! AES. A state is 16 bytes, column by column. -/

/-- Double in GF(2^8). -/
def xtime (b : Byte) : Byte := (b <<< 1) ^^^ (if b.getLsbD 7 then 0x1B else 0)

/-- Product in GF(2^8); the number counts the bits of the second factor still to take. -/
def gfMul (a b : Byte) : Nat → Byte
  | 0 => 0
  | n + 1 => (if b.getLsbD (8 - (n + 1)) then a else 0) ^^^ gfMul (xtime a) b n

/-- The inverse in GF(2^8), a^254. -/
def gfInv (a : Byte) : Byte :=
  let m (x y : Byte) := gfMul x y 8
  let a2 := m a a; let a4 := m a2 a2; let a8 := m a4 a4; let a16 := m a8 a8; let a32 := m a16 a16; let a64 := m a32 a32
  let a128 := m a64 a64
  m a128 (m a64 (m a32 (m a16 (m a8 (m a4 a2)))))

/-- SubBytes of a byte. -/
def sbox (a : Byte) : Byte :=
  let b := gfInv a
  b ^^^ b.rotateLeft 1 ^^^ b.rotateLeft 2 ^^^ b.rotateLeft 3 ^^^ b.rotateLeft 4 ^^^ 0x63

/-- Its inverse. -/
def invSbox (a : Byte) : Byte := gfInv (a.rotateLeft 1 ^^^ a.rotateLeft 3 ^^^ a.rotateLeft 6 ^^^ 0x05)

/-- Bytewise exclusive or. -/
def xorBytes (a b : List Byte) : List Byte := List.zipWith (· ^^^ ·) a b

/-- Round constants of the key schedule. -/
def aesRcon : List Byte := [0x01, 0x02, 0x04, 0x08, 0x10, 0x20, 0x40, 0x80, 0x1B, 0x36]

/-- Expand a key of nk words: words are appended until there are `n` more. -/
def aesExpand (nk : Nat) : Nat → List (List Byte) → List (List Byte)
  | 0, ws => ws
  | n + 1, ws =>
    let i := ws.length
    let t := ws.getD (i - 1) []
    let t := if i % nk = 0 then xorBytes ((t.drop 1 ++ t.take 1).map sbox) [aesRcon.getD (i / nk - 1) 0, 0, 0, 0]
      else if 6 < nk ∧ i % nk = 4 then t.map sbox else t
    aesExpand nk n (ws ++ [xorBytes (ws.getD (i - nk) []) t])

/-- The round keys of a 16- or 32-byte key. -/
def aesKeys (key : List Byte) : List (List Byte) :=
  let nk := key.length / 4
  let ws := aesExpand nk (4 * (nk + 7) - nk) ((List.range nk).map (fun i => slice key (4 * i) 4))
  (List.range (nk + 7)).map (fun r => (slice ws (4 * r) 4).flatten)

/-- ShiftRows; `k` is 1 to encrypt, 3 to decrypt. -/
def shiftRows (k : Nat) (s : List Byte) : List Byte :=
  (List.range 16).map (fun i => s.getD ((i + 4 * k * (i % 4)) % 16) 0)

/-- Multiply each column by a circulant row. -/
def mixColumns (m : List Byte) (s : List Byte) : List Byte :=
  (List.range 16).map (fun i =>
    let c := 4 * (i / 4)
    (List.range 4).foldl (fun a j => a ^^^ gfMul (m.getD ((j + 4 - i % 4) % 4) 0) (s.getD (c + j) 0) 8) 0)

/-- Encrypt one block. -/
def aesEnc (key blk : List Byte) : List Byte :=
  let ks := aesKeys key
  let n := ks.length - 1
  let s := (List.range (n - 1)).foldl
    (fun s r => xorBytes (mixColumns [2, 3, 1, 1] (shiftRows 1 (s.map sbox))) (ks.getD (r + 1) [])) (xorBytes blk (ks.getD 0 []))
  xorBytes (shiftRows 1 (s.map sbox)) (ks.getD n [])

/-- Decrypt one block. -/
def aesDec (key blk : List Byte) : List Byte :=
  let ks := aesKeys key
  let n := ks.length - 1
  let s := (List.range (n - 1)).foldl
    (fun s r => mixColumns [14, 11, 13, 9] (xorBytes ((shiftRows 3 s).map invSbox) (ks.getD (n - 1 - r) []))) (xorBytes blk (ks.getD n []))
  xorBytes ((shiftRows 3 s).map invSbox) (ks.getD 0 [])

/-! AES-GCM (NIST SP 800-38D) with a 96-bit IV, for the save image (09 R262) -/

/-- Multiply in GF(2^128), bits from the first byte's highest down; the number counts the bits of the first factor still to take. -/
def ghashMul (x : BitVec 128) : Nat → BitVec 128 → BitVec 128
  | 0, _ => 0
  | n + 1, v =>
    (if x.getMsbD (128 - (n + 1)) then v else 0) ^^^
      ghashMul x n ((v >>> 1) ^^^ (if v.getLsbD 0 then (0xE1#128 <<< 120) else 0))

/-- Sixteen bytes as a block, the first byte highest. -/
def blockOf (bs : List Byte) : BitVec 128 := BitVec.ofNat 128 (beNat ((bs ++ List.replicate 16 0).take 16))

/-- GHASH over blocks of 16 bytes; the fuel bounds them. -/
def ghash (h : BitVec 128) : Nat → BitVec 128 → List Byte → BitVec 128
  | 0, y, _ => y
  | k + 1, y, bs => ghash h k (ghashMul (y ^^^ blockOf bs) 128 h) (bs.drop 16)

/-- Counter-mode key stream applied from a counter on. -/
def gcmCtr (key iv : List Byte) : Nat → Nat → List Byte → List Byte
  | 0, _, _ => []
  | k + 1, ctr, bs => xorBytes (bs.take 16) (aesEnc key (iv ++ beBytes 4 ctr)) ++ gcmCtr key iv k (ctr + 1) (bs.drop 16)

/-- Encrypt or decrypt the text of AES-GCM. -/
def gcmText (key iv text : List Byte) : List Byte := gcmCtr key iv (ceilDiv text.length 16) 2 text

/-- The 16-byte tag over associated data and ciphertext. -/
def gcmTag (key iv aad cipher : List Byte) : List Byte :=
  let h := blockOf (aesEnc key (List.replicate 16 0))
  let y := ghash h (ceilDiv aad.length 16) 0 aad
  let y := ghash h (ceilDiv cipher.length 16) y cipher
  let y := ghashMul (y ^^^ blockOf (beBytes 8 (8 * aad.length) ++ beBytes 8 (8 * cipher.length))) 128 h
  xorBytes (beBytes 16 y.toNat) (aesEnc key (iv ++ beBytes 4 1))

end Sys2Proof.Machine
end

