-- ==== Sys2Proof/Machine/Power.lean ====
section
/-! DEFINITION. Power states P0 to P3, lowered ports and gated clusters as registers show them (16_energy_and_power_states.md R434, R440),
and measurement registers (15_security_and_cipher.md R403). -/

namespace Sys2Proof.Machine

/-! Measurements (15 R403) -/

/-- The 32 bytes of eight registers from an offset. -/
def State.digestAt (s : State) (off : Nat) : List Byte := (List.range 8).flatMap (fun i => leBytes 4 (s.reg (off + 4 * i)).toNat)

/-- Give eight registers the 32 bytes of a digest. -/
def State.putDigest (s : State) (off : Nat) (d : List Byte) : State :=
  (List.range 8).foldl (fun s i => s.setReg (off + 4 * i) (BitVec.ofNat 32 (leAt d (4 * i) 4))) s

/-- Extend the measurement register at an offset. -/
def State.extend (s : State) (off : Nat) (d : List Byte) : State := s.putDigest off (sha3 (s.digestAt off ++ d))

/-- Extend PMR(p). -/
def State.extendPmr (s : State) (p : Nat) (d : List Byte) : State := s.extend (Reg.SEC_PMR.off p 0) d

/-! Power states -/

/-- The state record of DMR4: life-cycle state, debug level, strap values (their packing DEDUCED, log 73). -/
def State.stateRecord (s : State) : List Byte :=
  leBytes 1 (s.get Reg.SEC_LC.STATE) ++ leBytes 1 (s.get Reg.SEC_DBG.LEVEL) ++ leBytes 1 ((s.reg Reg.GLB_STRAP.off).toNat % 64)
    ++ leBytes 2 (s.get Reg.GLB_STRAP.COORD) ++ [0, 0, 0]

/-- DMR4 is extended with the state record. -/
def State.extendDmr4 (s : State) : State := s.extend (Reg.SEC_DMR.off 4 0) (sha3 s.stateRecord)

/-- A change of power state (R440). -/
def State.setPower (s : State) (st : Nat) : State :=
  if s.get Reg.TALLY_STS.PSTATE = st then s else (s.put Reg.TALLY_STS.PSTATE st).extendDmr4

/-- A cluster is gated. -/
def State.gated (s : State) (k : Nat) : Bool :=
  if k < 32 then s.flag (Reg.TALLY_GATED_LO.CLUSTERS.bit k) else s.flag (Reg.TALLY_GATED_HI.CLUSTERS.bit (k - 32))

/-- P1 while a port is lowered or a cluster gated, else P0. -/
def State.p01 (s : State) : Nat :=
  b2n (s.flag Reg.TALLY_GATED_LO.CLUSTERS || s.flag Reg.TALLY_GATED_HI.CLUSTERS
    || s.flag Reg.TALLY_LOWERED_LO.PORTS_LO || s.flag Reg.TALLY_LOWERED_HI.PORTS_HI)

/-- In P0 or P1 the device is in P1 exactly while a port is lowered or a cluster gated. -/
def State.settlePower (s : State) : State := if 1 < s.get Reg.TALLY_STS.PSTATE then s else s.setPower s.p01

/-- Gate a cluster, or ungate it. -/
def State.setGated (s : State) (k : Nat) (b : Bool) : State :=
  (if k < 32 then s.put (Reg.TALLY_GATED_LO.CLUSTERS.bit k) (b2n b)
    else s.put (Reg.TALLY_GATED_HI.CLUSTERS.bit (k - 32)) (b2n b)).settlePower

/-- A load ungates the cluster it addresses, and has waited for that (R434). -/
def State.ungate (s : State) (k : Nat) : State := if s.gated k then s.setGated k false else s

end Sys2Proof.Machine
end

