-- ==== Sys2Proof/Machine/Flags.lean ====
section
/-! DEFINITION. Number formats, exact values, rounding and the FFLAGS it raises (10_cores_and_hyl_instruction_set.md R280 to R285). -/

namespace Sys2Proof.Machine

/-! FFLAGS (Table 10.2, CSR 0x04) -/

/-- NV, invalid. -/
def flagNV : Nat := 1
/-- OF, overflow. -/
def flagOF : Nat := 2
/-- UF, underflow. -/
def flagUF : Nat := 4
/-- NX, inexact. -/
def flagNX : Nat := 8

/-- A floating-point format (Table 10.4): bits, exponent and mantissa widths, bias, whether it has Inf and NaN. -/
structure FloatFmt where
  n : Nat
  eb : Nat
  mb : Nat
  bias : Nat
  inf : Bool
  nan : Bool
  deriving DecidableEq, Repr

/-- The float format of a FMT code, elements of MX formats among them. -/
def floatFmt? : Nat → Option FloatFmt
  | 0 => some ⟨32, 8, 23, 127, true, true⟩
  | 1 => some ⟨16, 8, 7, 127, true, true⟩
  | 2 => some ⟨16, 5, 10, 15, true, true⟩
  | 3 => some ⟨8, 4, 3, 7, false, true⟩
  | 4 => some ⟨8, 5, 2, 15, true, true⟩
  | 5 => some ⟨8, 4, 3, 7, false, true⟩
  | 6 => some ⟨8, 5, 2, 15, true, true⟩
  | 7 => some ⟨6, 2, 3, 1, false, false⟩
  | 8 => some ⟨6, 3, 2, 3, false, false⟩
  | 9 => some ⟨4, 2, 1, 1, false, false⟩
  | _ => none

/-- FP32. -/
def fp32 : FloatFmt := ⟨32, 8, 23, 127, true, true⟩

/-- Bits of an element of a FMT code; 0 for a reserved code. -/
def fmtBits : Nat → Nat
  | 0 => 32 | 1 => 16 | 2 => 16 | 3 => 8 | 4 => 8 | 5 => 8 | 6 => 8 | 7 => 6 | 8 => 6 | 9 => 4 | 10 => 8 | 11 => 32 | _ => 0

/-- A FMT code of a scaled block format (MX). -/
def isMx (f : Nat) : Bool := 5 ≤ f && f ≤ 9

/-- An exact value: NaN, an infinity, or (−1)^neg × m × 2^e. -/
inductive Num where
  | nan
  | inf (neg : Bool)
  | fin (neg : Bool) (m : Nat) (e : Int)
  deriving DecidableEq, Repr

/-- Zero. -/
def Num.isZero : Num → Bool
  | .fin _ 0 _ => true
  | _ => false

/-- NaN. -/
def Num.isNan : Num → Bool
  | .nan => true
  | _ => false

/-- The sign. -/
def Num.sign : Num → Bool
  | .nan => false
  | .inf n => n
  | .fin n _ _ => n

/-- The value of a bit pattern. -/
def FloatFmt.value (f : FloatFmt) (x : Nat) : Num :=
  let s := bitAt x (f.n - 1)
  let e := bits x f.mb f.eb
  let m := bits x 0 f.mb
  let top := 2 ^ f.eb - 1
  if f.inf && e == top then (if m = 0 then .inf s else .nan)
  else if !f.inf && f.nan && e == top && m == 2 ^ f.mb - 1 then .nan
  else if e = 0 then .fin s m (1 - f.bias - f.mb)
  else .fin s (2 ^ f.mb + m) (e - f.bias - f.mb)

/-- The magnitude code of the largest finite value. -/
def FloatFmt.maxCode (f : FloatFmt) : Nat :=
  if f.inf then (2 ^ f.eb - 1) * 2 ^ f.mb - 1 else if f.nan then 2 ^ (f.n - 1) - 2 else 2 ^ (f.n - 1) - 1

/-- The canonical NaN (Table 10.4); 0 in a format without one. -/
def FloatFmt.nanCode (f : FloatFmt) : Nat :=
  if f.inf then (2 ^ f.eb - 1) * 2 ^ f.mb + 2 ^ (f.mb - 1) else if f.nan then 2 ^ (f.n - 1) - 1 else 0

/-- A pattern with a sign. -/
def FloatFmt.signed (f : FloatFmt) (neg : Bool) (code : Nat) : Nat := code + (if neg then 2 ^ (f.n - 1) else 0)

/-- m / 2^k to the nearest integer, ties to even (R281). -/
def roundShift (m k : Nat) : Nat :=
  let q := m / 2 ^ k
  let r := m % 2 ^ k
  if 2 ^ k < 2 * r || (2 * r == 2 ^ k && q % 2 == 1) then q + 1 else q

/-- A nonzero magnitude m × 2^e rounded to a magnitude code, which may pass the largest finite one; whether it is inexact, and tiny. -/
def FloatFmt.roundMag (f : FloatFmt) (m : Nat) (e : Int) : Nat × Bool × Bool :=
  let emin : Int := 1 - (f.bias : Int) - f.mb
  let free : Int := e + (Nat.log2 m : Int) - f.mb
  let q := max free emin
  let at_ (q : Int) : Nat := if q ≤ e then m * 2 ^ (e - q).toNat else roundShift m (q - e).toNat
  let code := (q - emin).toNat * 2 ^ f.mb + at_ q
  let inexact := e < q && m % 2 ^ (q - e).toNat != 0
  let tinyB := free < emin
  let tinyA := tinyB && (free + 1 < emin || at_ free < 2 ^ (f.mb + 1))
  (code, inexact, if Config.tinyBefore then tinyB else tinyA)

/-- Round once to a float format (R281, R283): the pattern and the flags. The FP8 and MX element formats saturate. -/
def FloatFmt.round (f : FloatFmt) : Num → Nat × Nat
  | .nan => (f.nanCode, 0)
  | .inf s => if f.inf then (f.signed s ((2 ^ f.eb - 1) * 2 ^ f.mb), 0) else (f.signed s f.maxCode, 0)
  | .fin s 0 _ => (f.signed s 0, 0)
  | .fin s m e =>
    let (code, inexact, tiny) := f.roundMag m e
    if f.maxCode < code then
      (f.signed s (if 16 ≤ f.n then (2 ^ f.eb - 1) * 2 ^ f.mb else f.maxCode), flagOF + flagNX)
    else (f.signed s code, (if tiny && inexact then flagUF else 0) + (if inexact then flagNX else 0))

/-- A two's-complement number of n bits as an exact value. -/
def intValue (n x : Nat) : Num :=
  if bitAt x (n - 1) then .fin true (2 ^ n - x % 2 ^ n) 0 else .fin false (x % 2 ^ n) 0

/-- Round to an n-bit integer and saturate; NaN gives 0 (R283). -/
def toInt (n : Nat) : Num → Nat × Nat
  | .nan => (0, 0)
  | .inf s => (if s then 2 ^ (n - 1) else 2 ^ (n - 1) - 1, flagOF + flagNX)
  | .fin s m e =>
    let (v, inexact) : Nat × Bool :=
      if 0 ≤ e then (m * 2 ^ (min e.toNat 64) , false) else (roundShift m (-e).toNat, m % 2 ^ (-e).toNat != 0)
    let lim := if s then 2 ^ (n - 1) else 2 ^ (n - 1) - 1
    if lim < v then (if s then 2 ^ (n - 1) else 2 ^ (n - 1) - 1, flagOF + flagNX)
    else (if s && v != 0 then 2 ^ n - v else v, if inexact then flagNX else 0)

/-- The value of an element of a FMT code, without its block's scale. -/
def elemValue (f x : Nat) : Num :=
  match floatFmt? f with
  | some ff => ff.value x
  | none => intValue (fmtBits f) x

/-- Convert a value to an element of a FMT code (R283): the pattern and the flags, NV on NaN. -/
def convert (f : Nat) (x : Num) : Nat × Nat :=
  let (c, fl) := match floatFmt? f with
    | some ff => ff.round x
    | none => toInt (fmtBits f) x
  (c, fl + (if x.isNan then flagNV else 0))

/-! Exact arithmetic -/

/-- A signed magnitude as an integer. -/
def signedInt (neg : Bool) (m : Nat) : Int := if neg then -(m : Int) else m

/-- The exact sum of two finite values; an exact zero of unlike signs is +0 (IEEE 754). -/
def addFin (n1 : Bool) (m1 : Nat) (e1 : Int) (n2 : Bool) (m2 : Nat) (e2 : Int) : Num :=
  let e := min e1 e2
  let s := signedInt n1 (m1 * 2 ^ (e1 - e).toNat) + signedInt n2 (m2 * 2 ^ (e2 - e).toNat)
  if s = 0 then .fin (n1 && n2) 0 0 else .fin (s < 0) s.natAbs e

/-- The exact sum, and whether it is invalid. -/
def Num.add : Num → Num → Num × Bool
  | .nan, _ => (.nan, false)
  | _, .nan => (.nan, false)
  | .inf a, .inf b => if a = b then (.inf a, false) else (.nan, true)
  | .inf a, _ => (.inf a, false)
  | _, .inf b => (.inf b, false)
  | .fin n1 m1 e1, .fin n2 m2 e2 => (addFin n1 m1 e1 n2 m2 e2, false)

/-- The value with its sign changed. -/
def Num.neg : Num → Num
  | .nan => .nan
  | .inf s => .inf (!s)
  | .fin s m e => .fin (!s) m e

/-- The exact product, and whether it is invalid. -/
def Num.mul : Num → Num → Num × Bool
  | .nan, _ => (.nan, false)
  | _, .nan => (.nan, false)
  | .inf a, .inf b => (.inf (a != b), false)
  | .inf a, .fin b m _ => if m = 0 then (.nan, true) else (.inf (a != b), false)
  | .fin a m _, .inf b => if m = 0 then (.nan, true) else (.inf (a != b), false)
  | .fin a m e, .fin b k d => (.fin (a != b) (m * k) (e + d), false)

/-- The value times 2^k. -/
def Num.scale (x : Num) (k : Int) : Num :=
  match x with
  | .fin s m e => .fin s m (e + k)
  | y => y

/-- The order of two values that are no NaN: less. -/
def Num.lt : Num → Num → Bool
  | .inf a, .inf b => a && !b
  | .inf a, _ => a
  | _, .inf b => !b
  | .fin n1 m1 e1, .fin n2 m2 e2 =>
    let e := min e1 e2
    signedInt n1 (m1 * 2 ^ (e1 - e).toNat) < signedInt n2 (m2 * 2 ^ (e2 - e).toNat)
  | _, _ => false

/-- Flags of an arithmetic instruction's invalid result or NaN operand. -/
def nvFlag (fmt a b : Nat) (invalid nan : Bool) : Nat := if invalid || (nan && Config.nanFlag fmt a b) then flagNV else 0

/-- Element arithmetic in a float format: the operation's exact result is rounded once. -/
def FloatFmt.arith (f : FloatFmt) (fmt a b : Nat) (op : Num → Num → Num × Bool) : Nat × Nat :=
  let x := f.value a
  let y := f.value b
  let (r, bad) := op x y
  let (c, fl) := f.round r
  (c, fl ||| nvFlag fmt a b bad (x.isNan || y.isNan))

/-- FP32 sum of two patterns. -/
def add32 (a b : Nat) : Nat × Nat := fp32.arith 0 a b Num.add

/-- Fused multiply-add, one rounding (R282). -/
def FloatFmt.fma (f : FloatFmt) (fmt a b c : Nat) : Nat × Nat :=
  let x := f.value a
  let y := f.value b
  let z := f.value c
  let (p, bad1) := x.mul y
  let (r, bad2) := p.add z
  let (code, fl) := f.round r
  (code, fl ||| nvFlag fmt a b (bad1 || bad2) (x.isNan || y.isNan || z.isNan))

/-- The larger (`mx`) or smaller of two float elements: open with a NaN operand, or between zeros of opposite sign (log 52). -/
def FloatFmt.maxMin (f : FloatFmt) (mx : Bool) (fmt a b : Nat) : Nat × Nat :=
  let x := f.value a
  let y := f.value b
  if x.isNan || y.isNan then (Config.maxNan mx fmt a b % 2 ^ f.n, nvFlag fmt a b false true)
  else if x.isZero && y.isZero then (if a = b || Config.maxZero mx fmt a b then a else b, 0)
  else (if mx then (if x.lt y then b else a) else (if y.lt x then b else a), 0)

/-- Two's-complement reading of n bits. -/
def sInt (n x : Nat) : Int := (BitVec.ofNat n x).toInt

/-- One element of a vector operation: 0 add, 1 sub, 2 mul, 3 max, 4 min; integers wrap (R283). -/
def elemOp (fmt op a b : Nat) : Nat × Nat :=
  match floatFmt? fmt with
  | some f =>
    match op with
    | 0 => f.arith fmt a b Num.add
    | 1 => f.arith fmt a b (fun x y => x.add y.neg)
    | 2 => f.arith fmt a b Num.mul
    | 3 => f.maxMin true fmt a b
    | _ => f.maxMin false fmt a b
  | none =>
    let n := fmtBits fmt
    match op with
    | 0 => ((a + b) % 2 ^ n, 0)
    | 1 => ((a + 2 ^ n - b % 2 ^ n) % 2 ^ n, 0)
    | 2 => (a * b % 2 ^ n, 0)
    | 3 => (if sInt n a < sInt n b then b else a, 0)
    | _ => (if sInt n b < sInt n a then b else a, 0)

/-- Absolute value (`neg` false) or negation of one element; a NaN gives the canonical NaN (R281). -/
def elemAbsNeg (fmt : Nat) (neg : Bool) (a : Nat) : Nat :=
  let n := fmtBits fmt
  match floatFmt? fmt with
  | some f =>
    if (f.value a).isNan then f.nanCode
    else if neg then (a + 2 ^ (n - 1)) % 2 ^ n
    else a % 2 ^ (n - 1)
  | none => if neg || bitAt a (n - 1) then (2 ^ n - a % 2 ^ n) % 2 ^ n else a

/-- One level of the pairwise tree (R288): adjacent elements combine in ascending order; flags gather. -/
def pairLevel (op : Nat → Nat → Nat × Nat) : List Nat → List Nat × Nat
  | a :: b :: l =>
    let (r, fl) := op a b
    let (rs, fl') := pairLevel op l
    (r :: rs, fl ||| fl')
  | l => (l, 0)

/-- The pairwise tree over 2^k elements. -/
def pairTree (op : Nat → Nat → Nat × Nat) : Nat → List Nat → Nat × Nat
  | 0, l => (l.headD 0, 0)
  | k + 1, l =>
    let (l', fl) := pairLevel op l
    let (r, fl') := pairTree op k l'
    (r, fl ||| fl')

/-! Packed elements (R284) -/

/-- Elements of w bits packed from byte 0, least significant first. -/
def unpackElems (w : Nat) (bs : List Byte) (n : Nat) : List Nat :=
  let x := leNat bs
  (List.range n).map (fun k => bits x (k * w) w)

/-- Pack elements of w bits. -/
def packElems (w : Nat) (xs : List Nat) : List Byte :=
  leBytes ((xs.length * w + 7) / 8) (xs.foldr (fun x a => x % 2 ^ w + 2 ^ w * a) 0)

/-- Bytes of a row of 32 elements. -/
def rowBytes (f : Nat) : Nat := 4 * fmtBits f

/-- Bytes of a tensor tile: 16 rows, and 16 scale bytes for an MX format. -/
def tileBytes (f : Nat) : Nat := 16 * rowBytes f + (if isMx f then 16 else 0)

/-- The value of an MX element under its scale byte (Table 10.4: 0xFF is NaN). -/
def mxValue (f scale x : Nat) : Num := if scale = 0xFF then .nan else (elemValue f x).scale (scale - 127)

/-! Quantization (R285) -/

/-- The magnitude of a finite value. -/
def Num.mag : Num → Nat × Int
  | .fin _ m e => (m, e)
  | _ => (0, 0)

/-- Whether m × 2^e ≤ k × 2^d. -/
def magLe (m : Nat) (e : Int) (k : Nat) (d : Int) : Bool :=
  let b := min e d
  m * 2 ^ (e - b).toNat ≤ k * 2 ^ (d - b).toNat

/-- e_max of an element format. -/
def mxEmax : Nat → Int
  | 5 => 8 | 6 => 15 | 7 => 2 | 8 => 4 | _ => 2

/-- Quantize a block (R285): scale byte, elements, whether an input is NaN or Inf. -/
def quantize (f : Nat) (sel : Bool) (xs : List Num) : Nat × List Nat × Bool :=
  if xs.any (fun x => match x with | .fin _ _ _ => false | _ => true) then (0xFF, xs.map (fun _ => 0), true)
  else
    let amax := xs.foldl (fun (a : Nat × Int) x => if magLe x.mag.1 x.mag.2 a.1 a.2 then a else x.mag) (0, 0)
    let ff := (floatFmt? f).getD fp32
    let e : Int :=
      if amax.1 = 0 then -127
      else
        let k := amax.2 + Nat.log2 amax.1 - mxEmax f
        let big := (ff.value ff.maxCode).mag
        if sel && !magLe amax.1 (amax.2 - k) big.1 big.2 then k + 1 else k
    let e := max (-127) (min 127 e)
    ((e + 127).toNat, xs.map (fun x => (ff.round (x.scale (-e))).1), false)

end Sys2Proof.Machine
end

