-- ==== Sys2Proof/Machine/Slots.lean ====
section
/-! DEFINITION. Slots and gates: gated resources, merged gate lists, open runs and free slots, the service of internal units, background requests
(01_fabric_time.md R18, 05_schedules_and_admission.md R120 to R124). -/

namespace Sys2Proof.Machine

/-! Fabric time -/

/-- FT in units of 1/256 ns. -/
def State.ft (s : State) : Nat := s.time.ftNs.toNat * 256 + s.time.frac.toNat

/-- The slot number (R18). -/
def State.slot (s : State) : Nat := s.time.ftNs.toNat / 5

/-- Resource ID of a port and sub-port in the transmit direction (Table 5.3). -/
def resTx (port sub : Nat) : Nat := port + 64 * sub

/-- Resource ID of a port and sub-port in the receive direction. -/
def resRx (port sub : Nat) : Nat := 0x1000 + port + 64 * sub

/-- KIND of a resource ID. -/
def resKind (r : Nat) : Nat := r / 4096

/-! Merged gate lists -/

/-- The entry of a gate list in force at a slot (R121). -/
def gateEntryAt : List GateEntry → Nat → Option GateEntry
  | [], _ => none
  | e :: es, k => if k < e.dur then some e else gateEntryAt es (k - e.dur)

/-- What a list opens at a slot: its scheduled classes as a mask, and UNSCHED. -/
def GateList.at (l : GateList) (slot : Nat) : Nat × Bool :=
  match gateEntryAt l.entries (slot % max l.cycle 1) with
  | some e => (e.sched, e.unsched)
  | none => (0, false)

/-- The lists of some images on a resource. -/
def listsOn (imgs : List Image) (res : Nat) : List GateList :=
  imgs.flatMap (fun i => i.lists.filter (fun l => l.res == res))

/-- The merged state of some lists at a slot (R122): a class is open when any list opens it, UNSCHED when every list sets it; with no
list UNSCHED alone. -/
def mergedAt (ls : List GateList) (slot : Nat) : Nat × Bool :=
  ls.foldl (fun (m, u) l => let (m', u') := l.at slot; (m ||| m', u && u')) (0, true)

/-- The images of active schedules, those SUSPENDED among them (R131, log 28). -/
def State.activeImages (s : State) : List Image := s.sched.act.map (·.2)

/-- The gates of a resource at a slot. After R29 every gate of classes 0 to 3 stands open. -/
def State.gateAt (s : State) (res slot : Nat) : Nat × Bool :=
  let (m, u) := mergedAt (listsOn s.activeImages res) slot
  (if s.sched.opened then 15 else m, u)

/-- The merged cycle of a resource (R122). -/
def mergedCycle (ls : List GateList) : Nat := ls.foldl (fun c l => Nat.lcm c l.cycle) 1

/-- A class may start in a slot (Table 5.1). -/
def State.classOpen (s : State) (res cls slot : Nat) : Bool :=
  let (m, u) := s.gateAt res slot
  if cls < 4 then bitAt m cls else u

/-- How many slots from one slot on a class stays open, up to a bound. -/
def State.openRun (s : State) (res cls slot : Nat) : Nat → Nat
  | 0 => 0
  | n + 1 => if s.classOpen res cls slot then 1 + s.openRun res cls (slot + 1) n else 0

/-- A free slot: no scheduled class open (R124). -/
def State.freeSlot (s : State) (res slot : Nat) : Bool := (s.gateAt res slot).1 == 0

/-! Flows and the units at the ends of their paths -/

/-- The active image and record that declare a flow (R118, R133 keeps FLOW values unique). -/
def flowIn (imgs : List Image) (flow : Nat) : Option (Image × FlowRec) :=
  imgs.findSome? (fun i => (i.flows.find? (fun f => f.flow == flow)).map (fun f => (i, f)))

/-- The path a record of an image takes: its primary path, or its backup path where the flag says so and one is named (R95, R113). -/
def Image.pathOf (i : Image) (f : FlowRec) (backup : Bool) : Option PathRec :=
  if backup then (if f.backup = 0xFFFF then none else i.paths[f.backup]?) else i.paths[f.primary]?

/-- The run-time state of a flow. -/
def State.flowRt (s : State) (flow : Nat) : FlowRt := s.sched.flows.getD flow {}

/-- MT/s of a speed code. -/
def speedMts (c : Nat) : Nat := [8800, 9600, 10400, 11200, 12000, 12800].getD c 12800

/-- Thousandths of a byte that an internal unit serves in a ns (Table 5.10): Drover, reduction unit, AES queue, DDR channel, host port. -/
def State.unitRate (s : State) (res : Nat) : Nat :=
  match resKind res with
  | 3 => 614400
  | 4 => if s.flag Reg.GLB_CTL.EXACT then 192000 else 307200
  | 5 => 230400
  | 7 => 8 * speedMts (s.get (Reg.MEM_CH_STS.SPEED (res % 16)))
  | _ => 100000

/-- The service time of a request of n bytes at an internal unit, in 1/256 ns: its bytes at the rate column of Table 5.10, one access at a Kennel bank
(R493, R494; DEDUCED, log 145). -/
def State.unitTime (s : State) (res n : Nat) : Nat :=
  if resKind res = 6 then ceilDiv 256000 600 else ceilDiv (n * 256000) (s.unitRate res)

/-- A scheduled request may start at an internal unit: its class is open and the request ends within the same open run (R123). -/
def State.unitOpen (s : State) (res cls n : Nat) : Bool :=
  let need := s.unitTime res n
  s.classOpen res cls s.slot && s.ft + need ≤ (s.slot + s.openRun res cls s.slot (need / 1280 + 2)) * 1280

/-- The internal unit at which a frame of a scheduled class of a flow ends its path (R126); none for other frames, and for those of demoted flows. -/
def State.endUnit? (s : State) (flow cls : Nat) (onBackup : Bool) : Option Nat :=
  if flow = 0 ∨ 4 ≤ cls ∨ (s.flowRt flow).demoted = true then none
  else match flowIn s.activeImages flow with
    | none => none
    | some (i, f) =>
      match i.pathOf f onBackup with
      | some q => if q.toPort then none else some q.endRes
      | none => none

/-- The unit that ends the path of a frame for an endpoint. -/
def State.endOf? (s : State) (x : RxPkt) : Option Nat := s.endUnit? x.flow x.cls x.onBackup

/-- The unit that ends the path of a frame for a stage core. -/
def State.stageEnd? (s : State) (f : StageFrame) : Option Nat := s.endUnit? f.flow f.cls f.onBackup

/-- The unit at the end of its path serves a packet now (R123). -/
def State.endOpen (s : State) (x : RxPkt) : Bool :=
  match s.endOf? x with
  | some r => s.unitOpen r x.cls x.bytes.length
  | none => true

/-- The unit at the end of its path serves a stage frame now (R123). -/
def State.stageOpen (s : State) (f : StageFrame) : Bool :=
  match s.stageEnd? f with
  | some r => s.unitOpen r f.cls f.bytes.length
  | none => true

/-- A scheduled request waits for a unit: a packet or a stage frame whose path ends there, or a frame the device originates there. -/
def State.demanded (s : State) (res : Nat) : Bool :=
  s.rxq.any (fun x => s.endOf? x == some res) || s.stageIn.any (fun f => s.stageEnd? f == some res)
    || s.sched.paced.any (fun e => (flowIn s.activeImages e.2.flow).any (fun r => r.2.ingress == res))

/-- A background request of a resource goes ahead: the slot is a free one, or the resource is idle (R124). -/
def State.background (s : State) (res : Nat) : Bool := s.freeSlot res s.slot || !s.demanded res

/-! Uncorrectable words of the SRAM arrays (14_memory_system.md R378, R380) -/

/-- The state of a Tinker engine. -/
def State.tinker (s : State) (e : Nat) : TinkerEng := s.memsys.tinker.getD e {}

/-- Change the state of a Tinker engine. -/
def State.setTinker (s : State) (e : Nat) (x : TinkerEng) : State :=
  { s with memsys := { s.memsys with tinker := s.memsys.tinker.putD e x {} } }

/-- A read finds an uncorrectable word in array d, in block b of engine e: it is counted and reported, and the block goes to the head of the engine's order. -/
def State.sramUe (s : State) (d e b : Nat) : State :=
  (s.count (Reg.MEM_SRAM_UE.COUNT d)).setTinker e { s.tinker e with first := b :: (s.tinker e).first.filter (· != b) }

end Sys2Proof.Machine
end

