-- ==== Sys2Proof/Machine/Scriv.lean ====
section
/-! DEFINITION. Hosts, interrupt vectors, Scrivener's event records (18_errors_and_telemetry.md R470 to R473) and the write rules of
BAR0 (R448, R442 and the write rule of each block). -/

namespace Sys2Proof.Machine

/-- An answer of a meaning. -/
abbrev Answer := Host.Outcome State Fault Refusal

/-! Hosts -/

/-- The state of a host's port. -/
def State.host (s : State) (h : HostId) : HostPort := if h = 0 then s.host0 else s.host1

/-- Change the state of a host's port. -/
def State.setHost (s : State) (h : HostId) (p : HostPort) : State :=
  if h = 0 then { s with host0 := p } else { s with host1 := p }

/-- Scrivener's state for a host. -/
def State.ev (s : State) (h : HostId) : EvHost := if h = 0 then s.scriv.ev0 else s.scriv.ev1

/-- Change Scrivener's state for a host. -/
def State.setEv (s : State) (h : HostId) (e : EvHost) : State :=
  { s with scriv := if h = 0 then { s.scriv with ev0 := e } else { s.scriv with ev1 := e } }

/-- A host's memory as the device has written it. -/
def State.hostMem (s : State) (h : HostId) : Mem := if h = 0 then s.hostMem0 else s.hostMem1

/-- A host's memory takes bytes. -/
def State.keepHost (s : State) (h : HostId) (a : Nat) (bs : List Byte) : State :=
  if h = 0 then { s with hostMem0 := memWrite s.hostMem0 a bs } else { s with hostMem1 := memWrite s.hostMem1 a bs }

/-- The device writes bytes into a host's memory; `ro`: with Relaxed Ordering (08 R207). -/
def State.writeHost (s : State) (h : HostId) (a : Nat) (bs : List Byte) (ro : Bool := false) : State :=
  (s.keepHost h a bs).emit (.hostWrite h a bs ro)

/-- The boot host (R445). -/
def State.bootHost (s : State) : HostId := if s.get Reg.GLB_STS.BOOT_HOST = 0 then 0 else 1

/-- The host's port is up (R209). -/
def State.hostUp (s : State) (h : HostId) : Bool := s.flag (Reg.HOSTIF_PORT_STS.UP h)

/-- The host is lost (R256). -/
def State.hostLost (s : State) (h : HostId) : Bool := s.flag (Reg.PART_HOST_STS.LOST h)

/-- The owner of a partition: the host that PART_ALLOC.OWNER names (R242). -/
def State.owner (s : State) (p : Nat) : HostId := if s.get (Reg.PART_ALLOC.OWNER p) = 0 then 0 else 1

/-- The state of a partition: 0 FREE, 1 CONFIG, 2 SEALED, 3 FROZEN, 4 QUIESCED (Table 9.1). -/
def State.pstate (s : State) (p : Nat) : Nat := s.get (Reg.PART_STS.STATE p)

/-- A host owns a partition that is not FREE. -/
def State.owns (s : State) (h : HostId) (p : Nat) : Bool := s.owner p == h && s.pstate p != 0

/-! Interrupt vectors (R240) -/

/-- The write of a vector, with the address and data of its table entry. -/
def State.msixOut (s : State) (h : HostId) (v : Nat) : Output :=
  .msix h v (4 * s.get (Reg.HOSTIF_MSIX_ADDR_LO.ADDR h v) + 2 ^ 32 * s.get (Reg.HOSTIF_MSIX_ADDR_HI.ADDR h v))
    (s.reg (Reg.HOSTIF_MSIX_DATA.off h v)).toNat

/-- Send a vector: masked, with the port down or the function in D3hot (R208), it stays pending. MSI-X Enable stands at 1 and the function mask at 0
(PRESUMED, log 138). -/
def State.vector (s : State) (h : HostId) (v : Nat) : State :=
  if s.flag (Reg.HOSTIF_MSIX_CTL.MASK h v) || !s.hostUp h || (s.host h).d3hot then
    s.setHost h { s.host h with pba := addTo (s.host h).pba v }
  else s.emit (s.msixOut h v)

/-- Send the pending vectors of a host that are no longer held back (an unmasking write, the port coming up). -/
def State.sendPending (s : State) (h : HostId) : State :=
  let vs := (s.host h).pba
  let s := s.setHost h { s.host h with pba := [] }
  vs.foldl (fun s v => s.vector h v) s

/-! Event records -/

/-- A row of Table 18.2: code, severity (0 info, 1 corrected, 2 contained, 3 fatal), sticky. -/
structure EvKind where
  code : Nat
  sev : Nat
  sticky : Bool
  deriving DecidableEq, Repr

def Ev.timeLost : EvKind := ⟨0x0001, 2, false⟩
def Ev.dumChanged : EvKind := ⟨0x0002, 1, true⟩
def Ev.dumCommitted : EvKind := ⟨0x0003, 0, false⟩
def Ev.peerLost : EvKind := ⟨0x0010, 0, false⟩
def Ev.peerFenced : EvKind := ⟨0x0011, 0, false⟩
def Ev.laneChanged : EvKind := ⟨0x0012, 0, false⟩
def Ev.qpDrained : EvKind := ⟨0x0020, 0, false⟩
def Ev.hostLost : EvKind := ⟨0x0030, 2, false⟩
def Ev.partitionEvicted : EvKind := ⟨0x0031, 2, false⟩
def Ev.coreFault : EvKind := ⟨0x0040, 2, false⟩
def Ev.boundMissed : EvKind := ⟨0x0041, 2, false⟩
def Ev.ddrSetFailed : EvKind := ⟨0x0050, 2, true⟩
def Ev.ddrDeviceMarked : EvKind := ⟨0x0051, 1, true⟩
def Ev.ddrUe : EvKind := ⟨0x0052, 0, true⟩
def Ev.sramRetired : EvKind := ⟨0x0053, 1, true⟩
def Ev.energyOverrun : EvKind := ⟨0x0060, 0, false⟩
def Ev.powerCap : EvKind := ⟨0x0061, 0, false⟩
def Ev.powerCapSuspend : EvKind := ⟨0x0062, 2, false⟩
def Ev.alarm : EvKind := ⟨0x0070, 3, true⟩
def Ev.fatal : EvKind := ⟨0x0071, 3, true⟩
def Ev.htcWatchdog : EvKind := ⟨0x0072, 3, true⟩
def Ev.writeIgnored : EvKind := ⟨0x0080, 1, false⟩

/-- The 32 bytes of a record (Table 18.3). -/
def evBytes (r : EvRec) : List Byte :=
  leBytes 8 r.ft.toNat ++ leBytes 4 r.seq.toNat ++ leBytes 2 r.code
    ++ leBytes 1 (r.sev + 4 * b2n r.lost + 8 * b2n r.sticky)
    ++ leBytes 1 (r.part.getD 0 + 64 * b2n r.part.isSome)
    ++ leBytes 2 (min r.rep 0xFFFF) ++ [0, 0] ++ (r.args ++ List.replicate 12 0).take 12

/-- The ring of a host can take a record: enabled, the port up and its function in D0, a background request of the host port goes ahead (05 R124), PROD + 1
differs from CONS modulo the ring size (R472). -/
def State.ringRoom (s : State) (h : HostId) : Bool :=
  let size := 2 ^ s.get (Reg.TELEM_EVQ_CTL.LOG2_SIZE h)
  s.flag (Reg.TELEM_EVQ_CTL.ENABLE h) && s.hostUp h && !(s.host h).d3hot && s.background (0x8000 + h.val)
    && (s.get (Reg.TELEM_EVQ_PROD.INDEX h) + 1) % size != s.get (Reg.TELEM_EVQ_CONS.INDEX h) % size

/-- Write one record at PROD, with LOST when a loss has not been shown, and raise vector 0 at once for a contained or fatal one. -/
def State.ringWrite (s : State) (h : HostId) (r : EvRec) : State :=
  let size := 2 ^ s.get (Reg.TELEM_EVQ_CTL.LOG2_SIZE h)
  let prod := s.get (Reg.TELEM_EVQ_PROD.INDEX h)
  let r := { r with lost := (s.ev h).lostNext }
  let s := s.writeHost h (s.pair (Reg.TELEM_EVQ_LO.BASE_LO h) (Reg.TELEM_EVQ_HI.BASE_HI h) + 32 * (prod % size)) (evBytes r)
  let s := s.put (Reg.TELEM_EVQ_PROD.INDEX h) ((prod + 1) % size)
  if 2 ≤ r.sev then (s.setEv h { s.ev h with lostNext := false, unsignalled := false }).vector h 0
  else s.setEv h { s.ev h with lostNext := false, unsignalled := true }

/-- Put the number of waiting records in TELEM_EVQ_PEND. -/
def State.showQueued (s : State) (h : HostId) : State := s.put (Reg.TELEM_EVQ_PEND.QUEUED h) (s.ev h).queue.length

/-- Drain waiting records into the ring while it has room, oldest first; `n` bounds the records written. -/
def State.drainEvents (s : State) (h : HostId) : Nat → State
  | 0 => s
  | n + 1 =>
    match (s.ev h).queue with
    | [] => s
    | r :: rs =>
      if s.ringRoom h then
        ((s.setEv h { s.ev h with queue := rs }).showQueued h).ringWrite h r |>.drainEvents h n
      else s

/-- Hand a record over to a host's ring: it is written at once when no record waits and the ring has room, else it waits among at most
64, else it is lost and counted (R472). -/
def State.sendRecord (s : State) (h : HostId) (r : EvRec) : State :=
  if (s.ev h).queue.isEmpty && s.ringRoom h then s.ringWrite h r
  else if (s.ev h).queue.length < 64 then (s.setEv h { s.ev h with queue := (s.ev h).queue ++ [r] }).showQueued h
  else (s.count (Reg.TELEM_EVQ_LOST.COUNT h)).setEv h { s.ev h with lostNext := true }

/-- The index of the oldest record that satisfies a test, among records at index `i` onward: the least number of writing. -/
def oldestIdx (test : EvRec → Bool) : List (Nat × EvRec) → Nat → Option (Nat × Nat) → Option (Nat × Nat)
  | [], _, best => best
  | (n, r) :: l, i, best =>
    oldestIdx test l (i + 1) (if test r && (match best with | none => true | some (m, _) => n < m) then some (n, i) else best)

/-- Put the fill of the sticky area in TELEM_STK_STS. -/
def State.showSticky (s : State) : State :=
  (s.put Reg.TELEM_STK_STS.COUNT s.scriv.sticky.length).put Reg.TELEM_STK_STS.OLDEST
    (((oldestIdx (fun _ => true) s.scriv.sticky 0 none).map (·.2)).getD 0)

/-- Write a sticky record (R473): a free place, else in place of the oldest record that is no ALARM record, else it is dropped. -/
def State.stick (s : State) (r : EvRec) : State :=
  let l := s.scriv.sticky
  let n := s.scriv.stickyNext
  if l.length < 256 then
    ({ s with scriv := { s.scriv with sticky := l ++ [(n, r)], stickyNext := n + 1 } }).showSticky
  else match oldestIdx (fun x => x.code != Ev.alarm.code) l 0 none with
    | none => s.put Reg.TELEM_STK_STS.LOST 1
    | some (_, i) => ({ s with scriv := { s.scriv with sticky := l.set i (n, r), stickyNext := n + 1 } }).showSticky

/-- Number a record in a host's ring and send it: the sticky copy first, where the record is sticky and this host's ring gives its SEQ
(R473). -/
def State.record (s : State) (h : HostId) (stick : Bool) (r : EvRec) : State :=
  let r := { r with seq := (s.ev h).seq }
  let s := s.setEv h { s.ev h with seq := (s.ev h).seq + 1 }
  (if stick && r.sticky then s.stick r else s).sendRecord h r

/-- Whether two occurrences gather: the same CODE, ARGS, PARTITION and PART_VALID (R471). -/
def sameEvent (a b : EvRec) : Bool := a.code == b.code && a.args == b.args && a.part == b.part

/-- One occurrence bound for a host: a corrected one within the millisecond of an earlier such occurrence is gathered, every other is
recorded (R471). -/
def State.occur (s : State) (h : HostId) (stick : Bool) (r : EvRec) : State :=
  if r.sev = 1 then
    match (s.ev h).gathers.findIdx? (fun g => sameEvent g.first r) with
    | some i =>
      s.setEv h { s.ev h with gathers := (s.ev h).gathers.modify i (fun g =>
        { g with later := g.later + 1, ft := if g.later = 0 then r.ft else g.ft }) }
    | none => (s.setEv h { s.ev h with gathers := (s.ev h).gathers ++ [{ first := r }] }).record h stick r
  else s.record h stick r

/-- The record of an event at this moment. -/
def State.evRec (s : State) (k : EvKind) (part : Option Nat) (args : List Byte) : EvRec :=
  { ft := s.time.ftNs, code := k.code, sev := k.sev, sticky := k.sticky, part := part, args := (args ++ List.replicate 12 0).take 12 }

/-- An event of device scope: a record to both hosts, the boot host's first (R470, R473). -/
def State.event (s : State) (k : EvKind) (args : List Byte := []) : State :=
  let b := s.bootHost
  let o : HostId := if b = 0 then 1 else 0
  (s.occur b true (s.evRec k none args)).occur o false (s.evRec k none args)

/-- An event of partition scope: a record to the host that owns the partition (R470). -/
def State.partEvent (s : State) (k : EvKind) (p : Nat) (args : List Byte := []) : State :=
  s.occur (s.owner p) true (s.evRec k (some p) args)

/-- A register access that the device ignores, logged to the host that made it (R470). -/
def State.writeIgnored (s : State) (h : HostId) (off : Nat) : State :=
  s.occur h false (s.evRec Ev.writeIgnored none (leBytes 4 off))

/-! BAR0 accesses -/

/-- The BAR0 offsets that P3 keeps up (16 R442): SEC, TIME, TALLY, GLB_STRAP, Scrivener's registers of TELEM (log 20). -/
def p3Open (off : Nat) : Bool :=
  off / 0x10000 == 1 || off / 0x10000 == 2 || off / 0x10000 == 3 || off == Reg.GLB_STRAP.off
    || (0x700100 ≤ off && off < 0x700240)

/-- A host's function serves its BARs: the link is up, the function in D0, and it reports ready (08 R208). -/
def State.funcOpen (s : State) (h : HostId) : Bool := s.hostUp h && !(s.host h).d3hot && !(s.host h).notReady

/-- A host's BAR0 access reaches the device: the function serves its BARs, and in P3 the block is one that P3 keeps up. -/
def State.bar0Reach (s : State) (h : HostId) (off : Nat) : Bool :=
  s.funcOpen h && (s.get Reg.TALLY_STS.PSTATE != 3 || p3Open off)

/-- The blocks that take writes before READY: GLB, TIME, SEC and the MEM_IMG registers (R448). -/
def preReadyOpen (off : Nat) : Bool :=
  off < 0x20000 || off / 0x10000 == 3 || (0x510040 ≤ off && off < 0x51004C)

/-- The partition that holds a port WHOLE, if any (R248). -/
def State.wholeHolder? (s : State) (port : Nat) : Option Nat :=
  (List.range 64).find? (fun p => s.pstate p != 0 && (List.range 16).any (fun n =>
    s.flag (Reg.PART_PSHARE.VALID p n) && s.flag (Reg.PART_PSHARE.WHOLE p n) && s.get (Reg.PART_PSHARE.PORT p n) == port))

/-- The boot host may write the global registers: it is the writer, and it is not lost (R259). -/
def State.bootMayWrite (s : State) (h : HostId) : Bool := h == s.bootHost && !s.hostLost h

/-- The write rule of a register's block lets the host write it. -/
def State.writerOk (s : State) (r : RegRow) (idx : List Nat) (h : HostId) : Bool :=
  match r.writer with
  | .both | .region | .conv | .portRst => true
  | .none => false
  | .boot => s.bootMayWrite h
  | .host i => idx.getD i 0 == h.val
  | .own i => s.owner (idx.getD i 0) == h
  | .link i =>
    match s.wholeHolder? (idx.getD i 0) with
    | some p => s.owner p == h
    | none => s.bootMayWrite h

/-- One 32-bit write that reaches the device acts, or is ignored and logged before READY outside the open blocks (R448). A warm reset that has
not reached WAIT_MANIFEST discards it (R464). -/
def State.openWrite (s : State) (h : HostId) (off : Nat) (act : State → State) : State :=
  if !s.bar0Reach h off || s.boot.warm then s
  else if s.preReady && !preReadyOpen off then s.writeIgnored h off
  else act s

/-- The same, ignored and logged as well where the block's write rule turns the host away. -/
def State.hostWrite (s : State) (h : HostId) (off : Nat) (act : State → State) : State :=
  s.openWrite h off (fun s => match regAt? off with
    | none => s
    | some (r, idx) => if s.writerOk r idx h then act s else s.writeIgnored h off)

/-- A written field takes its value by its access type (Table 0.4); `locked`: an RWL field outside CONFIG. -/
def FldRow.apply (f : FldRow) (locked : Bool) (cur v : Word) : Word :=
  let x := wordField v f.lo f.w
  match f.acc with
  | .rw => if f.min ≤ x && x ≤ f.max then wordSet cur f.lo f.w x else cur
  | .rwl => if !locked && f.min ≤ x && x ≤ f.max then wordSet cur f.lo f.w x else cur
  | .rw1c => wordSet cur f.lo f.w (wordField (cur &&& ~~~v) f.lo f.w)
  | .w1s => wordSet cur f.lo f.w (wordField (cur ||| v) f.lo f.w)
  | .ro | .rc | .wo | .w1s0 => cur

/-- Table 0.4 over every field of a register. -/
def State.applyFields (s : State) (r : RegRow) (off : Nat) (v : Word) (locked : Bool := false) : State :=
  s.setReg off (r.fields.foldl (fun cur f => f.apply locked cur v) (s.reg off))

/-- A register's written word by Table 0.4. An RWL register of a partition outside CONFIG keeps its value and sets CFG_REJ (R9). -/
def State.applyWrite (s : State) (off : Nat) (v : Word) : State :=
  match regAt? off with
  | none => s
  | some (r, idx) =>
    if r.fields.any (fun f => f.acc == .rwl) then
      let p := match r.writer with
        | .own i => idx.getD i 0
        | _ => 0
      if s.pstate p = 1 then s.applyFields r off v
      else s.put (Reg.PART_STS.CFG_REJ p) 1
    else s.applyFields r off v

/-! Meanings of Scrivener's commands -/

/-- EVENT_GATHER_EXPIRY: the millisecond of a gathering ends; its record is written with their count and the FT of the first (R471). -/
def gatherExpiryEff (h : HostId) (i : Nat) (s : State) : State :=
  match (s.ev h).gathers[i]? with
  | none => s
  | some g =>
    let s := s.setEv h { s.ev h with gathers := (s.ev h).gathers.eraseIdx i }
    if g.later = 0 then s else s.record h (h == s.bootHost) { g.first with ft := g.ft, rep := min g.later 0xFFFF }

def execEventGatherExpiry (host : HostId) (index : Nat) (s : State) : Answer := .next (gatherExpiryEff host index s)

/-- EVENT_RECORD_WRITE: waiting records go into the ring while it has room (R472). -/
def execEventRecordWrite (host : HostId) (s : State) : Answer := .next (s.drainEvents host 64)

/-- EVENT_VECTOR_DELAY: MOD_US after the first record not yet signalled, vector 0 is raised (R472). -/
def execEventVectorDelay (host : HostId) (s : State) : Answer :=
  .next (if (s.ev host).unsignalled then (s.setEv host { s.ev host with unsignalled := false }).vector host 0 else s)

/-- STICKY_CLEAR: TELEM_STK_CTL.CLEAR empties the sticky area in MANUF (0) or RMA (3), else the write is logged as ignored (R479). -/
def stickyClearEff (h : HostId) (s : State) : State :=
  if s.get Reg.SEC_LC.STATE = 0 || s.get Reg.SEC_LC.STATE = 3 then
    ({ s with scriv := { s.scriv with sticky := [] } }).showSticky
  else s.writeIgnored h Reg.TELEM_STK_CTL.off

def execStickyClear (host : HostId) (s : State) : Answer :=
  .next (s.hostWrite host Reg.TELEM_STK_CTL.off (stickyClearEff host))

end Sys2Proof.Machine
end

