-- ==== Sys2Proof/Machine/Time.lean ====
section
/-! DEFINITION. The time unit: TIME registers, lock states, FT steps, PTP messages (01_fabric_time.md R12 to R25). -/

namespace Sys2Proof.Machine

/-- A schedule is active or pending takeover in some partition (05_schedules_and_admission.md R131). -/
def State.schedBusy (s : State) : Bool := !s.sched.act.isEmpty || !s.sched.pend.isEmpty

/-- Set FT (R17): ns and fraction together, the pattern restarting, the gate units following (R14). `t` is in units of 1/256 ns. -/
def State.setFt (s : State) (t : Nat) : State :=
  { s with time := { s.time with
      ftNs := BitVec.ofNat 64 (t / 256), frac := BitVec.ofNat 8 (t % 256), phase := 0,
      gateSlot := (BitVec.ofNat 64 (t / 256)).toNat / 5 } }

/-- Advance FT by some 1/256 ns without restarting the pattern. -/
def State.advanceFt (s : State) (d : Nat) : State :=
  let t := s.ft + d
  { s with time := { s.time with ftNs := BitVec.ofNat 64 (t / 256), frac := BitVec.ofNat 8 (t % 256) } }

/-- FT moves by one core cycle (R17): the fraction advances by 107, 107 and 106 in a fixed repeating pattern. -/
def State.tick (s : State) : State :=
  let s' := s.advanceFt (if s.time.phase = 2 then 106 else 107)
  { s' with time := { s'.time with phase := (s.time.phase + 1) % 3, cycles := s.time.cycles + 1 } }

/-- FT stands on the first core cycle of a slot (R18). -/
def State.atSlotStart (s : State) : Bool := s.time.frac == 0 && s.time.ftNs.toNat % 5 == 0

/-- The nearest multiple of 1.25 ns to a time in 1/256 ns, the later one at equal distance (R17, log 21). -/
def nearestStep (t : Nat) : Nat := (t + 160) / 320 * 320

/-- The phase error as TIME_OFFSET shows it: two's complement, saturating (01 TIME registers). -/
def satOffset (d : Int) : Nat := (BitVec.ofInt 32 (max (-2147483648) (min 2147483647 d))).toNat

/-- The time unit leaves LOCKED: images being checked were not LOCKED throughout (R27). -/
def State.unlocked (s : State) : State :=
  { s with sched := { s.sched with submits := s.sched.submits.map (fun x => { x with locked := false }) } }

/-- A change of source (Table 1.2): 3 leads to NONE, the others to ACQUIRING; the holdover timer clears; nothing is known yet of the
new source. -/
def State.newSource (s : State) : State :=
  let s := s.put Reg.TIME_STS.STATE (if s.get Reg.TIME_CTL.SRC = 3 then 0 else 1)
  let s := ((s.put Reg.TIME_STS.HOLD_MS 0).put Reg.TIME_STS.SRC_VALID 0).put Reg.TIME_OFFSET.OFFSET 0
  { s.unlocked with time := { s.time with timerRunning := false, lossMet := false } }

/-- An arm (R14): the value TIME_SET holds is latched, or the arm is refused with CTL_REJ. -/
def State.armSet (s : State) : State :=
  let v := s.pair Reg.TIME_SET_LO.SET Reg.TIME_SET_HI.SET
  if s.get Reg.TIME_CTL.SRC ≠ 0 ∨ v % 1000000000 ≠ 0 then s.put Reg.TIME_STS.CTL_REJ 1
  else { (s.put Reg.TIME_CTL.SET_ARM 1) with time := { s.time with armed := some (BitVec.ofNat 64 v) } }

/-- A TIME_CTL write (R15): refused whole when it would change SRC while a schedule is active or pending. -/
def timeCtlEff (v : Word) (s : State) : State :=
  let src := wordField v 0 2
  let cur := s.get Reg.TIME_CTL.SRC
  if src ≠ cur ∧ s.schedBusy then s.put Reg.TIME_STS.CTL_REJ 1
  else
    let s := (s.put Reg.TIME_CTL.SRC src).put Reg.TIME_CTL.PTP_BC (wordField v 2 1)
    let tc := wordField v 4 3
    let s := if 4 ≤ tc ∧ tc ≤ 6 then s.put Reg.TIME_CTL.DEMOTE_TC tc else s
    let s := if src ≠ cur then s.newSource else s
    if wordField v 3 1 = 1 then s.armSet else s

/-- A TIME_PORT write (R15). -/
def timePortEff (v : Word) (s : State) : State :=
  let p := wordField v 0 6
  if p = s.get Reg.TIME_PORT.PORT then s
  else if s.schedBusy then s.put Reg.TIME_STS.CTL_REJ 1
  else
    let s := s.put Reg.TIME_PORT.PORT p
    if s.get Reg.TIME_CTL.SRC = 3 then s else s.newSource

/-- A condition for entering LOST is met when the timer stands at or above the limit in HOLDOVER with no valid source (Table 1.2). -/
def State.checkLoss (s : State) : State :=
  if s.get Reg.TIME_STS.STATE = 3 ∧ s.get Reg.TIME_STS.SRC_VALID = 0
      ∧ s.get Reg.TIME_HOLD_LIMIT.LIMIT_MS ≤ s.get Reg.TIME_STS.HOLD_MS then
    { s with time := { s.time with lossMet := true } }
  else s

/-- A TIME_HOLD_LIMIT write (R25): 0 and more than 1,000 are ignored, a raise is refused while a schedule is active or pending. -/
def holdLimitEff (v : Word) (s : State) : State :=
  let ms := wordField v 0 10
  if ms = 0 ∨ 1000 < ms then s
  else if s.get Reg.TIME_HOLD_LIMIT.LIMIT_MS < ms ∧ s.schedBusy then s.put Reg.TIME_STS.CTL_REJ 1
  else (s.put Reg.TIME_HOLD_LIMIT.LIMIT_MS ms).checkLoss

/-- The holdover timer's reading after the time it has run. -/
def State.holdTo (s : State) (ms : Nat) : State :=
  if s.time.timerRunning then s.put Reg.TIME_STS.HOLD_MS (min 1023 (max (s.get Reg.TIME_STS.HOLD_MS) ms)) else s

/-- LOCKED to HOLDOVER, the timer starting at 0 ms. -/
def State.startHoldover (s : State) : State :=
  let s := (s.put Reg.TIME_STS.STATE 3).put Reg.TIME_STS.HOLD_MS 0
  { s.unlocked with time := { s.time with timerRunning := true } }

/-- No valid source is present. -/
def State.noSource (s : State) : State := (s.put Reg.TIME_STS.SRC_VALID 0).put Reg.TIME_OFFSET.OFFSET 0

/-- SOURCE_LOST (Table 1.2): LOCKED enters HOLDOVER; in HOLDOVER the timer resumes from its held value; the other states stay. -/
def sourceLostEff (heldMs : Nat) (s : State) : State :=
  if s.get Reg.TIME_STS.STATE = 2 then s.noSource.startHoldover
  else if s.get Reg.TIME_STS.STATE = 3 then
    let s := (s.holdTo heldMs).noSource
    { s with time := { s.time with timerRunning := true } }.checkLoss
  else s.noSource

/-- SOURCE_VALID (Table 1.2, R22): `offset` is FT minus source time in 1/256 ns. In HOLDOVER a source further away than 100 ns does not
count as valid, and the timer runs on; a valid one stops the timer. The timer's reading may have met the limit first. LOST moves to
ACQUIRING. -/
def sourceValidEff (offset : Int) (heldMs : Nat) (s : State) : State :=
  let st := s.get Reg.TIME_STS.STATE
  let valid (s : State) : State := (s.put Reg.TIME_STS.SRC_VALID 1).put Reg.TIME_OFFSET.OFFSET (satOffset offset)
  if st = 0 then s
  else if st = 3 then
    let s := (s.holdTo heldMs).checkLoss
    if offset.natAbs ≤ 25600 then { valid s with time := { s.time with timerRunning := false } }
    else
      let s := s.noSource
      { s with time := { s.time with timerRunning := true } }.checkLoss
  else if st = 4 then (valid s).put Reg.TIME_STS.STATE 1
  else valid s

/-- LOCK_ACHIEVED (Table 1.2): from ACQUIRING FT is stepped to the source time and STEPPED is set; from HOLDOVER the timer clears. -/
def lockAchievedEff (sourceTime : Nat) (s : State) : State :=
  let st := s.get Reg.TIME_STS.STATE
  if st = 1 then
    ((s.setFt (nearestStep sourceTime)).put Reg.TIME_STS.STATE 2).put Reg.TIME_STS.STEPPED 1 |>.put Reg.TIME_STS.SRC_VALID 1
  else if st = 3 then
    let s := (s.put Reg.TIME_STS.STATE 2).put Reg.TIME_STS.HOLD_MS 0 |>.put Reg.TIME_STS.SRC_VALID 1
    { s with time := { s.time with timerRunning := false, lossMet := false } }
  else s

/-- SRC_STEP (Table 1.2): a LOCKED source outside ±100 ns for 1 ms leads to HOLDOVER with SRC_STEP set. -/
def srcStepEff (s : State) : State :=
  if s.get Reg.TIME_STS.STATE = 2 then (s.noSource.startHoldover).put Reg.TIME_STS.SRC_STEP 1 else s

/-- HOLDOVER_LIMIT_REACHED (Table 1.2): the timer stands at the limit with no valid source. -/
def holdLimitReachedEff (s : State) : State :=
  if s.get Reg.TIME_STS.STATE = 3 ∧ s.get Reg.TIME_STS.SRC_VALID = 0 ∧ s.time.timerRunning then
    (s.holdTo (s.get Reg.TIME_HOLD_LIMIT.LIMIT_MS)).checkLoss
  else s

/-- TIME_SET_ASSIGN (R14): the armed value becomes FT, STEPPED is set, SET_ARM clears. A value armed with SRC 0 stays armed and is assigned when SRC
has changed since (DESIGN CHOICE, log 132). -/
def setAssignEff (s : State) : State :=
  match s.time.armed with
  | none => s
  | some v =>
    let s := ((s.setFt (v.toNat * 256)).put Reg.TIME_STS.STEPPED 1).put Reg.TIME_CTL.SET_ARM 0
    { s with time := { s.time with armed := none } }

/-- The latch of a TIME_NOW_LO read (R19). -/
def State.latchNow (s : State) : State :=
  { s with time := { s.time with latchHi := s.time.ftNs.extractLsb' 32 32, latchFrac := s.time.frac } }

/-- TIME_NOW_READ (R19): the read returns the low half, or all 64 bits of FT_ns in one access, and latches the rest. -/
def timeNowReadEff (h : HostId) (wide : Bool) (s : State) : State :=
  if s.bar0Reach h Reg.TIME_NOW_LO.off then
    s.latchNow.emit (.readData h 0 Reg.TIME_NOW_LO.off (leBytes (if wide then 8 else 4) s.time.ftNs.toNat))
  else s

/-! PTP (R13) -/

/-- The port is the one PTP slave port: the time source is PTP on it (R12). -/
def State.ptpSlave (s : State) (port : Nat) : Bool := s.get Reg.TIME_CTL.SRC == 2 && s.get Reg.TIME_PORT.PORT == port

/-- The port acts as a PTP master: PTP_MASTER lets it, it is not the slave port, and the clock is a boundary clock or, being an ordinary clock,
has no slave port (R13; DEDUCED, log 133). -/
def State.ptpMaster (s : State) (port : Nat) : Bool :=
  s.flag (Reg.LINK_CFG.PTP_MASTER port) && !s.ptpSlave port
    && (s.flag Reg.TIME_CTL.PTP_BC || s.get Reg.TIME_CTL.SRC != 2)

/-- What the exchanges of a port have gathered. -/
def State.ptpPort (s : State) (port : Nat) : PtpPort := s.time.ptp.getD port {}

/-- Change what the exchanges of a port have gathered. -/
def State.setPtp (s : State) (port : Nat) (x : PtpPort) : State :=
  { s with time := { s.time with ptp := s.time.ptp.putD port x {} } }

/-- One data set is better than another: the first difference in IEEE 1588's order of comparison decides, the lower value wins (PRESUMED,
log 161). -/
def ptpBetter (a b : PtpRank) : Bool :=
  let key (r : PtpRank) : Nat :=
    ((((((r.prio1.toNat * 2 ^ 8 + r.cls.toNat) * 2 ^ 8 + r.accuracy.toNat) * 2 ^ 16 + r.variance.toNat) * 2 ^ 8 + r.prio2.toNat) * 2 ^ 64
      + r.identity.toNat) * 2 ^ 16) + r.steps.toNat
  key a < key b

/-- The best master among those heard: the sender of the best data set; a known parent's own Announce takes its old one's place. -/
def PtpPort.announce (x : PtpPort) (m : PtpMsg) : PtpPort :=
  match x.parent with
  | none => { x with parent := some m }
  | some q => if q.source = m.source ∨ ptpBetter m.rank q.rank then { x with parent := some m } else x

/-- A message's own timestamp as an instant, with its correction. -/
def ptpAt (m : PtpMsg) : Int := Int.ofNat m.stamp.toNat + m.correction

/-- The message comes from the master this port follows. -/
def PtpPort.fromParent (x : PtpPort) (m : PtpMsg) : Bool := x.parent.any (fun q => q.source == m.source)

/-- What the slave port makes of a message: departure and arrival of Sync (one-step, or two-step with its Follow_Up), and the mean path delay
by the end-to-end or the peer-to-peer mechanism. `t` is the arrival at this port. -/
def PtpPort.hear (x : PtpPort) (m : PtpMsg) (t : Int) : PtpPort :=
  match m.kind with
  | .announce => x.announce m
  | .sync =>
    if !x.fromParent m then x
    else if m.twoStep then { x with syncIn := some (m.seq, t) } else { x with sync := some (ptpAt m, t), syncIn := none }
  | .followUp =>
    match x.syncIn with
    | some (q, t2) => if x.fromParent m ∧ q = m.seq then { x with sync := some (ptpAt m, t2), syncIn := none } else x
    | none => x
  | .delayResp =>
    match x.reqOut, x.sync with
    | some (q, t3), some (t1, t2) =>
      if x.fromParent m ∧ q = m.seq then
        { x with reqOut := none, delay := ((t2 - t1) + (Int.ofNat m.stamp.toNat - m.correction - t3)) / 2 }
      else x
    | _, _ => x
  | .pdelayResp =>
    match x.pdelayOut with
    | some (q, t1) =>
      if q ≠ m.seq then x
      else if m.twoStep then { x with pdelayIn := some (m.seq, ptpAt m, t) }
      else { x with pdelayOut := none, delay := ((t - t1) - m.correction) / 2 }
    | none => x
  | .pdelayRespFollowUp =>
    match x.pdelayOut, x.pdelayIn with
    | some (_, t1), some (q, t2, t4) =>
      if q = m.seq then { x with pdelayOut := none, pdelayIn := none, delay := ((t4 - t1) - (ptpAt m - t2)) / 2 } else x
    | _, _ => x
  | .delayReq | .pdelayReq => x

/-- FT minus source time by the last Sync, in ns. -/
def PtpPort.offset? (x : PtpPort) : Option Int := x.sync.map (fun p => p.2 - p.1 - x.delay)

/-- The messages a port answers with (R13): a master answers a delay request with the time of its arrival; every PTP port answers a peer
delay request, in two steps (DESIGN CHOICE, log 160). -/
def State.ptpAnswers (s : State) (port : Nat) (arrival : BitVec 64) (m : PtpMsg) : List PtpMsg :=
  match m.kind with
  | .delayReq => if s.ptpMaster port then [{ kind := .delayResp, seq := m.seq, stamp := arrival }] else []
  | .pdelayReq =>
    if s.ptpMaster port || s.ptpSlave port then
      [{ kind := .pdelayResp, seq := m.seq, stamp := arrival, twoStep := true },
       { kind := .pdelayRespFollowUp, seq := m.seq, stamp := s.time.ftNs }]
    else []
  | _ => []

/-- TIME_OFFSET follows a source's time while a valid source is present. -/
def State.showOffset (s : State) (d : Int) : State :=
  if s.get Reg.TIME_STS.SRC_VALID = 1 then s.put Reg.TIME_OFFSET.OFFSET (satOffset d) else s

/-- PTP_MESSAGE_RECEIVE (R13): the message is timestamped at the PCS; the slave port follows its best master by it, and requests are
answered. Ports in native mode carry no PTP. -/
def ptpReceiveEff (port : PortId) (m : PtpMsg) (arrival : BitVec 64) (s : State) : State :=
  if s.get (Reg.LINK_CFG.MODE port) = 1 then s
  else
    let s := { s with time := { s.time with ptpIn := s.time.ptpIn.set port (m, arrival) } }
    let s :=
      if s.ptpSlave port then
        let x := (s.ptpPort port).hear m (Int.ofNat arrival.toNat)
        let s := s.setPtp port x
        match x.offset? with
        | some d => s.showOffset (256 * d)
        | none => s
      else s
    s.emits ((s.ptpAnswers port arrival m).map (Output.ptp port))

/-- PTP_MESSAGE_SEND (R13): a master port sends sync, follow-up, announce and its answers; the slave port sends delay requests; both send
peer delay requests. The departure time is kept. -/
def ptpSendEff (port : PortId) (m : PtpMsg) (s : State) : State :=
  let may := match m.kind with
    | .delayReq => s.ptpSlave port
    | .pdelayReq => s.ptpSlave port || s.ptpMaster port
    | _ => s.ptpMaster port
  if s.get (Reg.LINK_CFG.MODE port) == 0 && may then
    let now := Int.ofNat s.time.ftNs.toNat
    let x := s.ptpPort port
    let s := match m.kind with
      | .delayReq => s.setPtp port { x with reqOut := some (m.seq, now) }
      | .pdelayReq => s.setPtp port { x with pdelayOut := some (m.seq, now), pdelayIn := none }
      | _ => s
    { s with time := { s.time with ptpOut := s.time.ptpOut.set port (m, s.time.ftNs) } }.emit (.ptp port m)
  else s

/-! Meanings -/

def execTimeCtlWrite (host : HostId) (value : Word) (s : State) : Answer :=
  .next (s.hostWrite host Reg.TIME_CTL.off (timeCtlEff value))

/-- SET_ARM: a TIME_CTL write with SET_ARM 1. -/
def execSetArm (host : HostId) (value : Word) (s : State) : Answer :=
  .next (s.hostWrite host Reg.TIME_CTL.off (timeCtlEff (value ||| 8)))

def execTimePortWrite (host : HostId) (value : Word) (s : State) : Answer :=
  .next (s.hostWrite host Reg.TIME_PORT.off (timePortEff value))

def execTimeHoldLimitWrite (host : HostId) (value : Word) (s : State) : Answer :=
  .next (s.hostWrite host Reg.TIME_HOLD_LIMIT.off (holdLimitEff value))

def execTimeNowRead (host : HostId) (wide : Bool) (s : State) : Answer := .next (timeNowReadEff host wide s)

def execTimeSetAssign (s : State) : Answer := .next (setAssignEff s)

def execSourceLost (heldMs : Nat) (s : State) : Answer := .next (sourceLostEff heldMs s)

def execSourceValid (offset : Int) (heldMs : Nat) (s : State) : Answer := .next (sourceValidEff offset heldMs s)

def execLockAchieved (sourceTime : Nat) (s : State) : Answer := .next (lockAchievedEff sourceTime s)

def execSrcStep (s : State) : Answer := .next (srcStepEff s)

def execHoldoverLimitReached (s : State) : Answer := .next (holdLimitReachedEff s)

def execPtpMessageReceive (port : PortId) (msg : PtpMsg) (arrival : BitVec 64) (s : State) : Answer :=
  .next (ptpReceiveEff port msg arrival s)

def execPtpMessageSend (port : PortId) (msg : PtpMsg) (s : State) : Answer := .next (ptpSendEff port msg s)

end Sys2Proof.Machine
end

