-- ==== Sys2Proof/Machine/Gates.lean ====
section
/-! DEFINITION. Gated resources, merged gate lists and open runs (05_schedules_and_admission.md R120 to R124, R139). -/

namespace Sys2Proof.Machine

/-- A mesh-link resource leaves the mesh in a direction that exists (R120). -/
def linkInMesh (k d : Nat) : Bool :=
  match d with
  | 0 => k % 8 != 7
  | 1 => k / 8 != 7
  | 2 => k % 8 != 0
  | _ => k / 8 != 0

/-- A resource ID is well formed (R120, Table 5.3). -/
def resOk (r : Nat) : Bool :=
  let i := r % 4096
  match r / 4096 with
  | 0 | 1 => i < 256
  | 2 => i < 256 && linkInMesh (i / 4) (i % 4)
  | 3 | 4 | 5 | 6 => i < 64
  | 7 => i < 16
  | 8 => i < 2
  | _ => false

/-! Disabled units (02_floor_plan_and_numbering.md R40) -/

/-- The register of the physical lanes of a link tile that holds one lane's bit. -/
def laneBit (tile lane : Nat) : Fld :=
  if lane < 32 then (Reg.GLB_DUM_LANE0.LANES tile).bit lane
  else if lane < 64 then (Reg.GLB_DUM_LANE1.LANES tile).bit (lane - 32)
  else (Reg.GLB_DUM_LANE2.LANES tile).bit (lane - 64)

/-- The bit of a mesh link, 4k + d. -/
def meshLinkBit (n : Nat) : Fld := (Reg.MESH_LINK_FENCE.LINKS (n / 32)).bit (n % 32)

/-- The fence bit of a unit; none for the host tile, which the map does not hold. -/
def fenceBit? (u : UnitId) : Option Fld :=
  match u.kind with
  | .core => some ((Reg.CLUSTER_CORE_FENCE.PCORES u.place (u.index / 32)).bit (u.index % 32))
  | .aes => some ((Reg.CLUSTER_UNIT_FENCE.AES u.place).bit u.index)
  | .kennel => some ((Reg.CLUSTER_UNIT_FENCE.KENNEL u.place).bit u.index)
  | .drover => some (Reg.CLUSTER_UNIT_FENCE.DROVER u.place)
  | .reduce => some (Reg.CLUSTER_UNIT_FENCE.REDUCE u.place)
  | .lane => some (laneBit u.place u.index)
  | .channel => some (Reg.GLB_DUM_CHAN.FENCE.bit u.index)
  | .meshLink => some (meshLinkBit (4 * u.place + u.index))
  | .hostTile => none

/-- The fuse bit of a unit, where the map keeps it apart from the fence bit. -/
def fuseBit? (u : UnitId) : Option Fld :=
  match u.kind with
  | .core => some ((Reg.CLUSTER_CORE_FUSE.PCORES u.place (u.index / 32)).bit (u.index % 32))
  | .aes => some ((Reg.CLUSTER_UNIT_FUSE.AES u.place).bit u.index)
  | .kennel => some ((Reg.CLUSTER_UNIT_FUSE.KENNEL u.place).bit u.index)
  | .drover => some (Reg.CLUSTER_UNIT_FUSE.DROVER u.place)
  | .reduce => some (Reg.CLUSTER_UNIT_FUSE.REDUCE u.place)
  | .channel => some (Reg.GLB_DUM_CHAN.FUSE.bit u.index)
  | .lane | .meshLink | .hostTile => none

/-- A field that may be absent reads 0. -/
def State.flag? (s : State) (f : Option Fld) : Bool :=
  match f with
  | some f => s.flag f
  | none => false

/-- A unit is disabled: its fuse or its fence bit is set. -/
def State.disabled (s : State) (u : UnitId) : Bool := s.flag? (fuseBit? u) || s.flag? (fenceBit? u)

/-- The unit a path ends at (Table 5.3) is in service: END of KIND 3 to 7. A Kennel bank is out of service with all its sub-banks, an AES queue with all its
units. -/
def State.endServes (s : State) (res : Nat) : Bool :=
  let i := res % 4096
  match resKind res with
  | 3 => !s.disabled ⟨.drover, i, 0⟩
  | 4 => !s.disabled ⟨.reduce, i, 0⟩
  | 5 => (List.range 6).any (fun n => !s.disabled ⟨.aes, i, n⟩)
  | 6 => (List.range 16).any (fun n => !s.disabled ⟨.kennel, i, n⟩)
  | 7 => !s.disabled ⟨.channel, 0, i⟩
  | _ => true

/-- Change the run-time state of a flow. -/
def State.setFlowRt (s : State) (flow : Nat) (r : FlowRt) : State :=
  { s with sched := { s.sched with flows := s.sched.flows.putD flow r {} } }

/-- The routers a path crosses after its entry, as (router, direction) of each link left, in its dimension order. -/
def pathLinks (entry exit : Nat) (yx : Bool) : List (Nat × Nat) :=
  let xs (y : Nat) : List (Nat × Nat) :=
    let a := entry % 8; let b := exit % 8
    if a ≤ b then (List.range (b - a)).map (fun i => (8 * y + a + i, 0))
    else (List.range (a - b)).map (fun i => (8 * y + a - i, 2))
  let ys (x : Nat) : List (Nat × Nat) :=
    let a := entry / 8; let b := exit / 8
    if a ≤ b then (List.range (b - a)).map (fun i => (8 * (a + i) + x, 1))
    else (List.range (a - b)).map (fun i => (8 * (a - i) + x, 3))
  if yx then ys (entry % 8) ++ xs (exit / 8) else xs (entry / 8) ++ ys (exit % 8)

/-- A mesh link is fenced or disabled by fuse (R115). -/
def State.linkFenced (s : State) (l : Nat × Nat) : Bool :=
  let n := 4 * l.1 + l.2
  bitAt (s.get (Reg.MESH_LINK_FENCE.LINKS (n / 32))) (n % 32)

/-- A path's mesh links are all in service. -/
def State.pathClear (s : State) (entry exit : Nat) (yx : Bool) : Bool :=
  (pathLinks entry exit yx).all (fun l => !s.linkFenced l)

/-- The router a port attaches to (02_floor_plan_and_numbering.md Table 2.1). -/
def routerOfPort (p : Nat) : Nat := p % 32 / 4 + (if p < 32 then 0 else 56)

end Sys2Proof.Machine
end

