-- ==== Sys2Proof/Machine/Frames.lean ====
section
/-! DEFINITION. Frames and ordered sets on the wire: CRC-32, ELP link headers, Ethernet frames, ordered-set bodies
(03_link_ports.md R54, R55, R62 to R67). -/

namespace Sys2Proof.Machine

/-- One bit of the IEEE 802.3 CRC-32, least significant bit first. -/
def crcBit (c : Word) : Word := if c.getLsbD 0 then (c >>> 1) ^^^ 0xEDB88320#32 else c >>> 1

/-- One byte of the CRC-32. -/
def crcByte (c : Word) (b : Byte) : Word :=
  crcBit (crcBit (crcBit (crcBit (crcBit (crcBit (crcBit (crcBit (c ^^^ b.setWidth 32))))))))

/-- IEEE 802.3 CRC-32 over bytes in wire order, as the FCS is computed. -/
def crc32 (bs : List Byte) : Word := ~~~ (bs.foldl crcByte 0xFFFFFFFF#32)

/-- The CRC as it stands behind the bytes it covers; a stomped frame carries it inverted (R66). -/
def crcBytes (bs : List Byte) (stomp : Bool) : List Byte :=
  leBytes 4 (if stomp then ~~~ (crc32 bs) else crc32 bs).toNat

/-- The last four bytes are the CRC of what stands before them. -/
def crcGood (bs : List Byte) : Bool :=
  4 ≤ bs.length && bs.drop (bs.length - 4) == crcBytes (bs.take (bs.length - 4)) false

/-- TYPE of an ELP frame (Table 3.4). -/
def FrameKind.typeCode : FrameKind → Nat
  | .transport => 0
  | .management => 1
  | .encap => 2
  | .ethernet => 2

/-- Length of a frame in its present form: header, body and CRC of an ELP frame; body and FCS of an Ethernet frame. -/
def Frame.len (f : Frame) : Nat := if f.kind == .ethernet then f.body.length + 4 else f.body.length + 20

/-- Cells of packet buffer a frame takes (R83). -/
def Frame.cells (f : Frame) : Nat := ceilDiv f.len 256

/-- The ELP link header of a frame (Table 3.4). -/
def Frame.elpHeader (f : Frame) : List Byte :=
  leBytes 4 f.dst ++ leBytes 4 f.src ++ leBytes 2 (f.body.length + 20)
    ++ leBytes 1 (f.cls + 8 * f.epoch + 16 * f.kind.typeCode) ++ leBytes 1 f.hops ++ leBytes 3 f.flow ++ [0]

/-- The bytes of a frame on the wire. An Ethernet frame that was not rebuilt keeps its received FCS, inverted when stomped. -/
def Frame.wire (f : Frame) : List Byte :=
  if f.kind == .ethernet then
    f.body ++ leBytes 4 (if f.stomp then (~~~ (BitVec.ofNat 32 f.fcs)).toNat else f.fcs)
  else
    let bs := f.elpHeader ++ f.body
    bs ++ crcBytes bs f.stomp

/-- An ELP frame read from its bytes, CRC included; the check of the CRC is apart. None where R65 drops it on its header: LENGTH out of
range or not matching the containers, TC differing from the containers', TYPE reserved, or management outside class 7. -/
def parseElp (cls containers : Nat) (bs : List Byte) : Option Frame :=
  let len := leAt bs 8 2 % 16384
  let b10 := leAt bs 10 1
  let ty := b10 / 16
  if len < 20 ∨ 9216 < len ∨ ceilDiv len 64 ≠ containers ∨ bs.length < len ∨ b10 % 8 ≠ cls ∨ 2 < ty ∨ (ty = 1 ∧ cls ≠ 7) then none
  else some {
    kind := if ty = 0 then .transport else if ty = 1 then .management else .encap
    dst := leAt bs 0 4, src := leAt bs 4 4, cls := cls, epoch := bits b10 3 1, hops := leAt bs 11 1, flow := leAt bs 12 3
    body := slice bs 16 (len - 20) }

/-- The CRC of an ELP frame's bytes is good: it covers bytes 0 to L − 5 (R64). -/
def elpCrcGood (bs : List Byte) : Bool := crcGood (bs.take (leAt bs 8 2 % 16384))

/-- Destination MAC of an Ethernet frame as a 48-bit number, first octet highest. -/
def ethDst (bs : List Byte) : Nat := beNat (bs.take 6)

/-- The frame carries an IEEE 802.1Q tag with TPID 0x8100 (R55). -/
def ethTagged (bs : List Byte) : Bool := beNat (slice bs 12 2) == 0x8100

/-- PCP of a tagged frame. -/
def ethPcp (bs : List Byte) : Nat := beNat (slice bs 14 2) / 8192

/-- VID of a tagged frame. -/
def ethVid (bs : List Byte) : Nat := beNat (slice bs 14 2) % 4096

/-- Class of an Ethernet frame on a port (R55). -/
def State.ethClass (s : State) (port : Nat) (bs : List Byte) : Nat :=
  if ethTagged bs then bits (s.get (Reg.LINK_PCP_MAP.TC port)) (3 * ethPcp bs) 3 else s.get (Reg.LINK_PCP_MAP.UNTAGGED_TC port)

/-- PCP values mapped to a class (R57). -/
def State.pcpsOf (s : State) (port cls : Nat) : List Nat :=
  (List.range 8).filter (fun n => bits (s.get (Reg.LINK_PCP_MAP.TC port)) (3 * n) 3 == cls)

/-- The beacon time of a body: ns and 1/256 ns, in 1/256 ns. -/
def osTime (bs : List Byte) (i : Nat) : Nat := leAt bs i 8 * 256 + leAt bs (i + 8) 1

/-- An ordered-set body of a known type (Table 3.5). -/
def osBody (bs : List Byte) : Option OrdSet :=
  match leAt bs 0 1 with
  | 0x01 => some (.align (leAt bs 6 4) (leAt bs 10 1 % 16))
  | 0x02 => some (.keepalive (bitAt (leAt bs 6 1) 0) (bitAt (leAt bs 6 1) 1) (leAt bs 8 8))
  | 0x03 => some (.fenced (bitAt (leAt bs 6 1) 1) (leAt bs 7 1))
  | 0x04 => some (.laneReq (leAt bs 6 1) (leAt bs 7 1 % 16) (leAt bs 8 1) (leAt bs 9 4))
  | 0x05 => some (.laneAck (leAt bs 6 1) (leAt bs 7 1 % 16) (leAt bs 9 4))
  | 0x06 => some (.laneNak (leAt bs 6 1) (leAt bs 7 1))
  | 0x07 => some (.laneDone (leAt bs 6 1) (leAt bs 7 1 % 16))
  | 0x08 => some (.beacon (bitAt (leAt bs 6 1) 0) (bits (leAt bs 6 1) 1 3) (leAt bs 7 1) (osTime bs 8) (osTime bs 17) (osTime bs 26)
      (leAt bs 35 1))
  | 0x09 => some (.pause (bits (leAt bs 6 1) 4 3) (leAt bs 8 2) (leAt bs 10 2) (leAt bs 12 2))
  | _ => none

/-- A copy the receiver acts on: a valid CRC, version 0x01 and a type of Table 3.5 (R67). -/
def osCopy (bs : List Byte) : Option (Nat × OrdSet) :=
  if bs.length = 64 ∧ crcGood bs = true ∧ leAt bs 1 1 = 1 then (osBody bs).map (fun o => (leAt bs 2 4, o)) else none

/-- A time of a beacon as its body holds it. -/
def osTimeBytes (t : Nat) : List Byte := leBytes 8 (t / 256) ++ leBytes 1 (t % 256)

/-- The type code and the bytes 6 onward of an ordered set (Table 3.5). -/
def osFields : OrdSet → Nat × List Byte
  | .align period mask => (1, leBytes 4 period ++ leBytes 1 mask)
  | .keepalive e t ft => (2, leBytes 1 (b2n e + 2 * b2n t) ++ [0] ++ leBytes 8 ft)
  | .fenced t r => (3, leBytes 1 (2 * b2n t) ++ leBytes 1 r)
  | .laneReq id m r e => (4, leBytes 1 id ++ leBytes 1 m ++ leBytes 1 r ++ leBytes 4 e)
  | .laneAck id m e => (5, leBytes 1 id ++ leBytes 1 m ++ [0] ++ leBytes 4 e)
  | .laneNak id c => (6, leBytes 1 id ++ leBytes 1 c)
  | .laneDone id m => (7, leBytes 1 id ++ leBytes 1 m)
  | .beacon src st n t1 echo t2 hops =>
    (8, leBytes 1 (b2n src + 2 * st) ++ leBytes 1 n ++ osTimeBytes t1 ++ osTimeBytes echo ++ osTimeBytes t2 ++ leBytes 1 hops)
  | .pause m a b c => (9, leBytes 1 (16 * m) ++ [0] ++ leBytes 2 a ++ leBytes 2 b ++ leBytes 2 c)

/-- The 64-byte body of an ordered set from a sender (R67). -/
def osBytes (fca : Nat) (o : OrdSet) : List Byte :=
  let (ty, fs) := osFields o
  let bs := leBytes 1 ty ++ [1] ++ leBytes 4 fca ++ (fs ++ List.replicate 54 0).take 54
  bs ++ crcBytes bs false

end Sys2Proof.Machine
end

