-- ==== Sys2Proof/Machine/Mesh.lean ====
section
/-! DEFINITION. The mesh: links and their gates, virtual channels and their credits, the choice of dimension order and its pin tables, a cycle
of every link (04_routing_and_mesh.md R99 to R102, R115). -/

namespace Sys2Proof.Machine

/-- Flits of buffer that a virtual channel has at each router input (Table 4.2). -/
def vcDepth (vc : Nat) : Nat := [16, 8, 8, 8, 4].getD vc 0

/-- The device runs in exact mode (13 R363). -/
def State.exact (s : State) : Bool := s.flag Reg.GLB_CTL.EXACT

/-- Some dimension order that a frame of classes 4 to 7 may take between two routers avoids every fenced link; in exact mode that order is XY
(R101, R115). -/
def State.meshReach (s : State) (entry exit : Nat) : Bool :=
  s.pathClear entry exit false || (!s.exact && s.pathClear entry exit true)

/-- Flits of a frame (R99). -/
def Frame.flits (f : Frame) : Nat := max 1 f.cells

/-- Flits of a crossing that have passed its j-th link, counted from 0; before its first link all of them have. -/
def Crossing.through (x : Crossing) (j : Nat) : Nat :=
  match j with
  | 0 => x.frame.flits
  | k + 1 => x.passed.getD k 0

/-- Flits that stand in the buffer behind the j-th link; those behind the last link leave the mesh at once. -/
def Crossing.buffered (x : Crossing) (j : Nat) : Nat :=
  if j + 1 < x.path.length then x.passed.getD j 0 - x.passed.getD (j + 1) 0 else 0

/-- The place of a link in a crossing's path. -/
def Crossing.place? (x : Crossing) (l : Nat × Nat) : Option Nat := x.path.findIdx? (· == l)

/-- Flits in the buffer of a virtual channel behind a link. -/
def Mesh.occupied (m : Mesh) (l : Nat × Nat) (vc : Nat) : Nat :=
  m.crossings.foldl (fun a x => if x.vc = vc then a + ((x.place? l).map x.buffered).getD 0 else a) 0

/-- Free credits of a virtual channel on a link. -/
def Mesh.credits (m : Mesh) (l : Nat × Nat) (vc : Nat) : Nat := vcDepth vc - m.occupied l vc

/-- A crossing holds its channel of its j-th link: its head has passed the link and its tail has not left the buffer behind it. -/
def Crossing.holds (x : Crossing) (j : Nat) : Bool :=
  x.through (j + 1) != 0 && (if j + 1 < x.path.length then x.through (j + 2) else x.through (j + 1)) != x.frame.flits

/-- A crossing can send a flit over a link in this cycle: one has come up to it, the channel is its own or free, and a credit is there. -/
def Mesh.ready (m : Mesh) (l : Nat × Nat) (x : Crossing) : Bool :=
  match x.place? l with
  | none => false
  | some j =>
    x.through (j + 1) < x.through j
      && (x.holds j || m.crossings.all (fun y => y.vc != x.vc || ((y.place? l).map (fun i => !y.holds i)).getD true))
      && (0 < m.credits l x.vc)

/-- The VCs a link serves in a cycle, in the order of preference: VC0 alone in a VC0 slot; else VC0 and then VCs 1 to 4 in round robin from the one
after that served last (R102). After R29 a link serves VC0 in every slot and the others beside it (DEDUCED, log 22).
Until it has served one of them it begins with VC1 (DESIGN CHOICE, log 162). -/
def State.linkOrder (s : State) (l : Nat × Nat) : List Nat :=
  let res := 0x2000 + 4 * l.1 + l.2
  let last := s.mesh.turn.getD (4 * l.1 + l.2) 4
  if !s.sched.opened && (s.gateAt res s.slot).1 != 0 then [0]
  else 0 :: (List.range 4).map (fun i => (last + i) % 4 + 1)

/-- The crossing whose flit a link carries in this cycle, by its index, the oldest of a channel first. -/
def State.linkPick (s : State) (l : Nat × Nat) : Option Nat :=
  (s.linkOrder l).findSome? (fun vc => s.mesh.crossings.findIdx? (fun x => x.vc == vc && s.mesh.ready l x))

/-- Every link carries at most one flit (R99): the crossings after a cycle, and the VC each link served. -/
def State.meshMoves (s : State) : Mesh :=
  let links := (s.mesh.crossings.flatMap (·.path)).eraseDups
  let picks := links.filterMap (fun l => (s.linkPick l).map (fun i => (l, i)))
  let xs := s.mesh.crossings.zipIdx.map (fun e =>
    { e.1 with passed := List.zipWith (fun n l => if picks.contains (l, e.2) then n + 1 else n) e.1.passed e.1.path })
  let turn := picks.foldl (fun t p => match s.mesh.crossings[p.2]? with
    | some x => if x.vc = 0 then t else t.set (4 * p.1.1 + p.1.2) x.vc
    | none => t) s.mesh.turn
  { s.mesh with crossings := xs, turn := turn }

/-- All flits of a crossing have left the mesh. -/
def Crossing.arrived (x : Crossing) : Bool := x.through x.path.length == x.frame.flits

/-! Dimension order (R100, R101, R115) -/

/-- The order the credits of the first hops favour: YX (true) when its first hop has more free VC2 credits than the first XY hop has free VC1
credits; XY where the routers share a row or a column or ADAPT_EN is 0. -/
def State.adaptive (s : State) (entry exit : Nat) : Bool :=
  s.flag Reg.MESH_CTL.ADAPT_EN && entry % 8 != exit % 8 && entry / 8 != exit / 8
    && (match (pathLinks entry exit false).head?, (pathLinks entry exit true).head? with
      | some x, some y => s.mesh.credits x 1 < s.mesh.credits y 2
      | _, _ => false)

/-- The order an unscheduled frame takes: its entry's while frames of the entry are on the mesh, else the one chosen now; the other where that one
crosses a fenced link. Class 7 and exact mode prefer XY; exact mode takes no other. None where no order is left. -/
def State.orderFor (s : State) (entry exit cls pin : Nat) : Option Bool :=
  let p := s.mesh.pins.getD pin (0, 0)
  let want := if s.exact || cls == 7 then false else if p.2 ≠ 0 then p.1 == 1 else s.adaptive entry exit
  if s.pathClear entry exit want then some want
  else if !s.exact && s.pathClear entry exit (!want) then some (!want)
  else none

/-- One more frame of a pin-table entry on the mesh, in an order. -/
def State.pinOn (s : State) (pin : Nat) (yx : Bool) : State :=
  { s with mesh := { s.mesh with pins := s.mesh.pins.putD pin (b2n yx, (s.mesh.pins.getD pin (0, 0)).2 + 1) (0, 0) } }

/-- One frame fewer of a pin-table entry. -/
def State.pinOff (s : State) : Option Nat → State
  | none => s
  | some pin =>
    let p := s.mesh.pins.getD pin (0, 0)
    { s with mesh := { s.mesh with pins := s.mesh.pins.putD pin (if p.2 ≤ 1 then (0, 0) else (p.1, p.2 - 1)) (0, 0) } }

/-- The pin-table entry of a frame at an entry point: the attachment of a tile at a router, or a cluster's network interface (64 + cluster). -/
def pinOf (point hash : Nat) : Nat := 4096 * point + hash

end Sys2Proof.Machine
end

