-- ==== Sys2Proof/Machine/Ports.lean ====
section
/-! DEFINITION. What ports do to frames: buffers and flow control, usability, route lookup, policing, queueing, dropping
(03_link_ports.md R57, R58, R69, R84, R93; 04_routing_and_mesh.md R88 to R98, R105 to R107, R112 to R115; 05 R118, R128). -/

namespace Sys2Proof.Machine

/-- The state of a port. -/
def State.port (s : State) (p : Nat) : Port := s.ports.getD p {}

/-- Change the state of a port. -/
def State.setPort (s : State) (p : Nat) (x : Port) : State := { s with ports := s.ports.putD p x {} }

/-- The port runs in native mode. -/
def State.native (s : State) (p : Nat) : Bool := s.flag (Reg.LINK_CFG.MODE p)

/-- The device is in P2: a compute reset, held or not (16 Table 16.4). -/
def State.inP2 (s : State) : Bool := s.get Reg.TALLY_STS.PSTATE == 2

/-- MESH_SELF as an FCA with Port and Endpoint 0 (R94). -/
def State.selfFca (s : State) : Nat := (s.reg Reg.MESH_SELF.off).toNat / 1024 * 1024

/-- Domain, X, Y and Z of an FCA, as one number (Table 4.6). -/
def devOf (fca : Nat) : Nat := fca / 1024 % 4194304

/-- Lanes in a mask. -/
def laneCount (mask : Nat) : Nat := popCount mask 4

/-- An ordered set as a native port sends it: one copy on every active lane, each with the same body (03 R67). -/
def State.osOut (s : State) (p : Nat) (o : OrdSet) : Output :=
  .ordSet p o (laneCount (s.get (Reg.LINK_STS.ACTIVE p))) (osBytes s.selfFca o)

/-- Send an ordered set on a native port. -/
def State.sendOs (s : State) (p : Nat) (o : OrdSet) : State := s.emit (s.osOut p o)

/-- Sub-ports of a port: one in native mode or at BREAKOUT 0, two at 1, four at 2 (Table 3.2). -/
def State.subports (s : State) (p : Nat) : Nat := if s.native p then 1 else 2 ^ s.get (Reg.LINK_CFG.BREAKOUT p)

/-! Usability -/

/-- A port is usable for a frame to a destination (R93); `dst` is none for a frame with no FCA. -/
def State.usable (s : State) (p : Nat) (dst : Option Nat) : Bool :=
  let st := s.get (Reg.LINK_STS.STATE p)
  let peer := s.get (Reg.LINK_STS.PEER p)
  (st == 2 || (st == 3 && s.inP2))
    && (peer == 1 || (peer == 2 && (s.port p).peerTransit
      && (match dst with
          | none => true
          | some d => devOf d != devOf (s.port p).peerFca)))

/-- The port lane indexes of a sub-port (03 R53). -/
def State.subLanes (s : State) (p sub : Nat) : List Nat :=
  if s.native p then [0, 1, 2, 3]
  else match s.get (Reg.LINK_CFG.BREAKOUT p) with
    | 0 => [0, 1, 2, 3]
    | 1 => [2 * sub, 2 * sub + 1]
    | _ => [sub]

/-- The link of a sub-port is up; a native port has one link. -/
def State.subUp (s : State) (p sub : Nat) : Bool := s.native p || (s.port p).subsUp.contains sub

/-- A mesh path is clear for a class: in exact mode a frame of classes 4 to 7 goes XY whatever the path's ORDER (R96, R101). -/
def State.pathMesh (s : State) (p : PathRec) (cls : Nat) : List (Nat × Nat) :=
  pathLinks p.entry p.exit (p.yx && !(s.exact && 4 ≤ cls))

/-- Something keeps a path from being used by a frame of a class to a destination: its egress port not usable or below LANES, a fenced link, its
stage core fenced, its END out of service (R113, R79, R43). -/
def State.pathBlockedFor (s : State) (p : PathRec) (cls : Nat) (dst : Option Nat) : Bool :=
  (p.toPort && (!s.usable p.egress dst
      || (s.native p.egress && laneCount (s.get (Reg.LINK_STS.ACTIVE p.egress)) < p.lanes)))
    || (s.pathMesh p cls).any s.linkFenced
    || (p.stageValid && s.flag (Reg.CLUSTER_LMAP.FENCED (p.stage / 64) (p.stage % 64)))
    || (!p.toPort && !s.endServes p.endRes)

/-- Something keeps a path from being used whatever its frames' destination. -/
def State.pathBlocked (s : State) (p : PathRec) (cls : Nat) : Bool := s.pathBlockedFor p cls none

/-- The class a flow's frames are carried in: its own, or DEMOTE_TC (R29). -/
def State.flowCls (s : State) (f : FlowRec) : Nat :=
  if (s.flowRt f.flow).demoted then s.get Reg.TIME_CTL.DEMOTE_TC else f.cls

/-- Collective transfers on a flow's queue pairs are affected by a move to the backup path (12 R355). -/
def State.disturbFlow (s : State) (flow : Nat) : State :=
  { s with queues := s.queues.map (fun (e : Nat × Queue) =>
    if s.qps.any (fun (x : Nat × Qp) => x.2.ctx.flow == flow && x.2.ctx.sq == e.1) then
      (e.1, { e.2 with live := e.2.live.map (fun l => if l.coll.isSome && l.done.isNone then { l with hurt := true } else l) })
    else e) }

/-- A flow's pinned queue pair has lost its place in its Kennel bank: the flow is treated as having a fenced endpoint (06 R150). -/
def State.endLost (s : State) (f : FlowRec) : Bool :=
  f.pin && match s.qps.at? f.qpn with
    | some x => x.ctx.pin && x.place == .spilled
    | none => false

/-- No path of a flow can be used. -/
def State.flowCut (s : State) (i : Image) (f : FlowRec) : Bool :=
  let blocked (b : Bool) : Bool := match i.pathOf f b with
    | some p => s.pathBlocked p (s.flowCls f)
    | none => true
  s.endLost f || (blocked false && blocked true)

/-- Move every flow whose primary path is blocked, and that has a backup, to its backup path (R113): the flows of active and suspended images and
those that replaced images still carry (R96). A change that leaves flows without a path interrupts them, which counts once in `row`
(18 R478; DEDUCED, log 90). -/
def State.refreshBackups (s : State) (row : Nat := 10) : State :=
  let was := s
  let imgs := s.activeImages ++ s.sched.kept
  let s := imgs.foldl (fun s i => i.flows.foldl (fun s f =>
    match i.pathOf f false with
    | none => s
    | some p =>
      let s := s.setFlowRt f.flow { s.flowRt f.flow with cut := s.flowCut i f }
      if s.pathBlocked p (s.flowCls f) ∧ f.backup ≠ 0xFFFF then
        let s := if (s.flowRt f.flow).onBackup then s else s.disturbFlow f.flow
        s.setFlowRt f.flow { s.flowRt f.flow with onBackup := true, wasBackup := true }
      else s) s) s
  if imgs.any (fun i => i.flows.any (fun f => (s.flowRt f.flow).cut && !(was.flowRt f.flow).cut)) then
    s.count (Reg.TELEM_FIT_INT.COUNT row)
  else s

/-! Buffers and flow control -/

/-- The key of a sub-port and class in a port's tables. -/
def subCls (sub cls : Nat) : Nat := 8 * sub + cls

/-- Cells a class of a sub-port holds. -/
def Port.occ (p : Port) (k : Nat) : Nat := p.cells.getD k 0

/-- Of classes 4 to 6 of a sub-port, the one with the highest occupancy (R58). -/
def Port.fullest (p : Port) (sub : Nat) : Nat :=
  let a := p.occ (subCls sub 4); let b := p.occ (subCls sub 5); let c := p.occ (subCls sub 6)
  if b ≤ a ∧ c ≤ a then 4 else if c ≤ b then 5 else 6

/-- Send XOFF (`on`) or XON for a class: PFC for its PCP values, PAUSE, or the PAUSE ordered set (R57, R58, R69). -/
def State.sendPause (s : State) (p sub cls : Nat) (on : Bool) : State :=
  let q := if on then 0xFFFF else 0
  if s.native p then
    let t (c : Nat) := if c = cls then q else 0
    s.sendOs p (.pause (2 ^ (cls - 4)) (t 4) (t 5) (t 6))
  else match s.get (Reg.LINK_CFG.PAUSE_MODE p) with
    | 1 => s.emit (.pause p sub q)
    | 2 => s.emit (.pfc p sub (s.pcpsOf p cls) q)
    | _ => s

/-- The class whose watermarks a change of class `cls` is judged by: the class itself, or under IEEE 802.3x the fullest of 4 to 6. -/
def State.watchedClass (s : State) (p sub cls : Nat) : Nat :=
  if !s.native p && s.get (Reg.LINK_CFG.PAUSE_MODE p) == 1 then (s.port p).fullest sub else cls

/-- The key of the XOFF mark of a class: under IEEE 802.3x a sub-port has one mark for its classes, kept under class 3, which has none. -/
def State.xoffKey (s : State) (p sub cls : Nat) : Nat :=
  if !s.native p && s.get (Reg.LINK_CFG.PAUSE_MODE p) == 1 then subCls sub 3 else subCls sub cls

/-- Tally raises a lowered port at once by a lane-change request of reason RAISE (16 R433, R82). -/
def State.laneRequest (s : State) (p mask reason : Nat) (retries : Nat := 0) : State :=
  let x := s.port p
  let period := s.time.ftNs.toNat / 25
  let e := (period + (if reason = 3 then 8 else 64)) % 2 ^ 32
  let id := x.nextId
  (s.setPort p { x with req := some { id := id, mask := mask, reason := reason, effective := e, retries := retries }
                        nextId := (id + 1) % 256 }).sendOs p (.laneReq id mask reason e)

/-- The planner has lowered the port (TALLY_LOWERED). -/
def State.lowered (s : State) (p : Nat) : Bool :=
  if p < 32 then bitAt (s.get Reg.TALLY_LOWERED_LO.PORTS_LO) p else bitAt (s.get Reg.TALLY_LOWERED_HI.PORTS_HI) (p - 32)

/-- Ask for a raise of a lowered port that has no request outstanding (16 R433). A port lowered before LOWER_EN was cleared is raised too
(DESIGN CHOICE, log 134). -/
def State.raiseLanes (s : State) (p : Nat) : State :=
  if s.lowered p && (s.port p).req.isNone && (s.port p).change.isNone then s.laneRequest p 15 1 else s

/-- A class reaching its XOFF watermark sends XOFF once (R57, R69) and raises a lowered port (16 R433). -/
def State.checkXoff (s : State) (p sub cls : Nat) : State :=
  let c := s.watchedClass p sub cls
  let k := s.xoffKey p sub cls
  if 4 ≤ cls ∧ cls ≤ 6 ∧ s.get (Reg.LINK_PFC_WM.XOFF p (c - 4)) ≤ (s.port p).occ (subCls sub c) ∧ !(s.port p).xoff.contains k then
    let s := s.setPort p { s.port p with xoff := (s.port p).xoff ++ [k] }
    (s.sendPause p sub c true).raiseLanes p
  else s

/-- A class falling below its XON watermark sends XON, unless the miss buffer still holds it back (R57, R69, R85). -/
def State.checkXon (s : State) (p sub cls : Nat) : State :=
  let c := s.watchedClass p sub cls
  let k := s.xoffKey p sub cls
  if (s.port p).xoff.contains k ∧ (s.port p).occ (subCls sub c) < s.get (Reg.LINK_PFC_WM.XON p (c - 4)) then
    let s := s.setPort p { s.port p with xoff := (s.port p).xoff.filter (· != k) }
    if (s.port p).missOff.contains (subCls sub c) then s else s.sendPause p sub c false
  else s

/-- Hold cells at an ingress buffer. -/
def State.holdCells (s : State) (p sub cls n : Nat) : State :=
  let x := s.port p
  let k := subCls sub cls
  (s.setPort p { x with cells := x.cells.putD k (x.occ k + n) 0 }).checkXoff p sub cls

/-- Release cells of an ingress buffer. -/
def State.freeCells (s : State) (p sub cls n : Nat) : State :=
  let x := s.port p
  let k := subCls sub cls
  (s.setPort p { x with cells := x.cells.putD k (x.occ k - n) 0 }).checkXon p sub cls

/-- A class of 4 to 7 has no room for some more cells: MAX in 4 KiB units of 16 cells (R84). -/
def State.classFull (s : State) (p sub cls n : Nat) : Bool :=
  4 ≤ cls && 16 * s.get (Reg.LINK_BUF_CLASS.MAX p (cls - 4)) < (s.port p).occ (subCls sub cls) + n

/-! Drain counts (R107) -/

/-- A frame enters the device under its epoch. -/
def State.enter (s : State) (epoch : Nat) : State :=
  s.put (Reg.MESH_DRAIN.COUNT epoch) (min (s.get (Reg.MESH_DRAIN.COUNT epoch) + 1) 0xFFFFFF)

/-- A frame of an epoch leaves the device. -/
def State.leave (s : State) (epoch : Nat) : State :=
  s.put (Reg.MESH_DRAIN.COUNT epoch) (s.get (Reg.MESH_DRAIN.COUNT epoch) - 1)

/-- Flows of frames inside the device: at the ports, on the mesh, and on their way to stage cores and endpoints. -/
def State.flowsInside (s : State) : List Nat :=
  s.ports.flatMap (fun e => e.2.txq.map (·.flow) ++ e.2.txing.map (·.flow) ++ e.2.missq.map (·.flow))
    ++ s.mesh.crossings.map (·.frame.flow) ++ s.stageIn.map (·.flow) ++ s.rxq.map (·.flow)

/-- Drop the kept tables of replaced images none of whose dropped flows has a frame inside (R96). -/
def State.purgeKept (s : State) : State :=
  let inside := s.flowsInside
  { s with sched := { s.sched with kept := s.sched.kept.filter (fun i => i.flows.any (fun f => inside.contains f.flow)) } }

/-- A frame inside the device is gone: it leaves the drain count, its ingress cells are released, its flow's backup count falls, and a
kept table it was the last to need goes. -/
def State.frameGone (s : State) (f : Frame) : State :=
  let s := if f.counted then s.leave f.epoch else s
  let s := match f.ingress with
    | some (p, sub, cls) => s.freeCells p sub cls f.held
    | none => s
  let s := if f.onBackup then
      s.setFlowRt f.flow { s.flowRt f.flow with backupFrames := (s.flowRt f.flow).backupFrames - 1 }
    else s
  if s.sched.kept.isEmpty then s else s.purgeKept

/-- The packet at an endpoint as the frame it came in, for what it holds of the device. -/
def RxPkt.frame (x : RxPkt) : Frame where
  kind := .transport
  cls := x.cls
  epoch := x.epoch
  flow := x.flow
  ingress := if x.held = 0 then none else some (x.port, x.sub, x.cls)
  onBackup := x.onBackup
  held := x.held
  counted := x.counted

/-- A packet has been delivered to its endpoint, or dropped: it leaves the drain count and its buffer (R107). -/
def State.pktGone (s : State) (x : RxPkt) : State := s.frameGone x.frame

/-- Cells a waiting packet takes of a miss buffer. -/
def RxPkt.cells (x : RxPkt) : Nat := ceilDiv (x.bytes.length + (if x.roce then 4 else 20)) 256

/-- Cells held in a port's miss buffer. -/
def Port.missCells (p : Port) : Nat := p.missq.foldl (fun a x => a + x.cells) 0

/-- Release the pauses of a miss buffer that has fallen below LOW (03 R85). -/
def State.missRelease (s : State) (port : Nat) : State :=
  let p := s.port port
  if p.missCells < s.get (Reg.LINK_MISS_WM.LOW port) then
    let s := s.setPort port { p with missOff := [] }
    p.missOff.foldl (fun s k => if p.xoff.contains k then s else s.sendPause port (k / 8) (k % 8) false) s
  else s

/-- The frame for a stage core as the frame it came in, for what it holds of the device. -/
def StageFrame.frame (x : StageFrame) : Frame where
  kind := .transport
  cls := x.cls
  epoch := x.epoch
  flow := x.flow
  ingress := if x.held = 0 then none else some (x.port, x.sub, x.cls)
  onBackup := x.onBackup
  held := x.held
  counted := x.counted

/-- A frame of an unscheduled queue pair's requester was dropped at this device because no usable port remains: the requester stops
sending and its path hold starts (06 R167). The cause is a fenced peer where the destination lies behind a port whose peer shows FENCED and owns the
destination (R93). -/
def State.pathDrop (s : State) (f : Frame) : State :=
  match f.qpn with
  | some q =>
    if f.flow = 0 && !s.held.any (fun e => e.1 == q) then
      { s with held := s.held.set q ((List.range 64).any (fun p =>
          s.get (Reg.LINK_STS.PEER p) == 2 && devOf (s.port p).peerFca == devOf f.dst)) }
    else s
  | none => s

/-- The destination that usability is judged by (R93): an Ethernet frame that no FCA routes has none. -/
def Frame.dst? (f : Frame) : Option Nat := if f.hasFca then some f.dst else none

/-- Note the depth of a flow's queue for its sample record (05 R143). -/
def State.flowDepth (s : State) (flow : Nat) (d : Int) : State :=
  if flow = 0 then s
  else
    let r := s.flowRt flow
    let n := (Int.ofNat r.depth + d).toNat
    s.setFlowRt flow { r with depth := n, maxDepth := max r.maxDepth n }

/-- A frame leaves a transmit queue without being sent. -/
def State.unqueued (s : State) (f : Frame) : State := (s.flowDepth f.flow (-(Int.ofNat f.cells))).frameGone f

/-- A frame is discarded because its port is not usable (R114). -/
def State.lostDrop (s : State) (f : Frame) : State := (s.count Reg.MESH_LOST_DROP.COUNT).pathDrop f

/-- Discard and count every frame queued on a port that is no longer usable for it (R114). -/
def State.discardQueued (s : State) (p : Nat) : State :=
  let fs := (s.port p).txq.filter (fun f => !s.usable p f.dst?)
  let s := s.setPort p { s.port p with txq := (s.port p).txq.filter (fun f => s.usable p f.dst?) }
  fs.foldl (fun s f => (s.unqueued f).lostDrop f) s

/-! Route lookup -/

/-- Where a lookup sends a frame: dropped and counted, to the device itself, or out of a port and sub-port. -/
inductive Route where
  | drop (counter : Fld)
  | device
  | out (port sub : Nat)
  deriving DecidableEq, Repr

/-- The order key's selector (R92). -/
def Frame.selector (f : Frame) : Nat :=
  if f.flow != 0 then f.flow
  else match f.kind with
    | .transport => leAt f.body 2 3
    | .ethernet => ethDst f.body % 2 ^ 24
    | _ => 0

/-- The hash of the order key (R92). -/
def orderHash (dst cls sel : Nat) : Nat := (crc32 (leBytes 4 dst ++ leBytes 1 cls ++ leBytes 3 sel)).toNat % 4096

/-- A routing entry: members, backup (R92). -/
structure RtEntry where
  valid : Bool
  ports : List Nat
  backup : Option Nat
  deriving DecidableEq, Repr

/-- The entry held in an entry's two words. -/
def rtEntry (lo hi : Word) : RtEntry where
  valid := wordField lo 31 1 == 1
  ports := (List.range (wordField lo 24 2 + 1)).map (fun i => wordField lo (6 * i) 6)
  backup := if wordField hi 6 1 == 1 then some (wordField hi 0 6) else none

/-- Entry n of the domain table of a bank. -/
def State.rtDomain (s : State) (b n : Nat) : RtEntry := rtEntry (s.reg (Reg.MESH_RTD_LO.off b n)) (s.reg (Reg.MESH_RTD_HI.off b n))

/-- Entry n of table X (0), Y (1) or Z (2) of a bank. -/
def State.rtXyz (s : State) (b x n : Nat) : RtEntry :=
  rtEntry (s.reg (Reg.MESH_RTXYZ_LO.off b x n)) (s.reg (Reg.MESH_RTXYZ_HI.off b x n))

/-- The table entry that applies to a destination, or none where the destination is local (R91). -/
def State.rtFor (s : State) (b dst : Nat) : Option RtEntry :=
  let me := s.selfFca
  if bits dst 28 4 ≠ bits me 28 4 then some (s.rtDomain b (bits dst 28 4))
  else if bits dst 22 6 ≠ bits me 22 6 then some (s.rtXyz b 0 (bits dst 22 6))
  else if bits dst 16 6 ≠ bits me 16 6 then some (s.rtXyz b 1 (bits dst 16 6))
  else if bits dst 10 6 ≠ bits me 10 6 then some (s.rtXyz b 2 (bits dst 10 6))
  else none

/-- The port an entry gives a frame: the member the hash picks, else the next usable member, else the backup (R92). -/
def State.pickPort (s : State) (e : RtEntry) (hash dst : Nat) : Option Nat :=
  if !e.valid then none
  else
    let n := e.ports.length
    match ((List.range n).map (fun i => e.ports.getD ((hash + i) % n) 0)).find? (fun p => s.usable p (some dst)) with
    | some p => some p
    | none => e.backup.bind (fun p => if s.usable p (some dst) then some p else none)

/-- The router a frame enters the mesh at: its ingress port's, or the given one. -/
def Frame.entryRouter (f : Frame) (orig : Nat) : Nat :=
  match f.ingress with
  | some (p, _, _) => routerOfPort p
  | none => orig

/-- An egress port as a route, unless fenced links cut it off from the entry router (R115). -/
def State.routeOut (s : State) (from_ p sub : Nat) : Route :=
  if s.meshReach from_ (routerOfPort p) then .out p sub else .drop Reg.MESH_NOROUTE_DROP.COUNT

/-- The lookup of a frame by its DST in a bank (R89, R91, R92). -/
def State.routeFca (s : State) (b from_ : Nat) (f : Frame) : Route :=
  match s.rtFor b f.dst with
  | some e =>
    match s.pickPort e (orderHash f.dst f.cls f.selector) f.dst with
    | some p => s.routeOut from_ p f.sub
    | none => .drop Reg.MESH_NOROUTE_DROP.COUNT
  | none =>
    let ep := f.dst % 16
    let p := bits f.dst 4 6
    if ep = 0 then .device
    else if s.usable p (some f.dst) then s.routeOut from_ p (ep - 1)
    else .drop Reg.MESH_NOROUTE_DROP.COUNT

/-- The lowest-numbered valid Ethernet-table entry that matches a frame (R97). -/
def State.ethEntry? (s : State) (b : Nat) (bs : List Byte) : Option Nat :=
  let mac := ethDst bs
  (List.range 1024).find? (fun n =>
    s.flag (Reg.MESH_ETH_W1.VALID b n)
      && s.get (Reg.MESH_ETH_W0.MAC_LO b n) == mac % 2 ^ 32 && s.get (Reg.MESH_ETH_W1.MAC_HI b n) == mac / 2 ^ 32
      && (if s.flag (Reg.MESH_ETH_W1.TAGGED b n) then ethTagged bs && s.get (Reg.MESH_ETH_W1.VID b n) == ethVid bs
          else !ethTagged bs))

/-- The flow tables that answer a demoted frame: every active or suspended image and every kept one, those of QUIESCED partitions apart
(R96, R258). -/
def State.demotedTables (s : State) : List Image :=
  (s.activeImages ++ s.sched.kept).filter (fun i => s.pstate i.partition != 4)

/-- The flow tables that scheduled frames are looked up in: the active images but those of QUIESCED partitions (R95; 09 R258). -/
def State.flowTables (s : State) : List Image := s.activeImages.filter (fun i => s.pstate i.partition != 4)

/-- A flow's path for a frame to a destination: its backup path while it is on backup or its primary path is blocked for that destination (R113). A
path blocked with no backup leads nowhere (R95). -/
def State.flowPath (s : State) (i : Image) (f : FlowRec) (dst : Option Nat) : Option (PathRec × Bool) :=
  let cls := s.flowCls f
  let cannot := match i.pathOf f false with
    | some p => s.pathBlockedFor p cls dst
    | none => true
  let back := f.backup != 0xFFFF && ((s.flowRt f.flow).onBackup || cannot)
  match i.pathOf f back with
  | none => none
  | some p => if s.endLost f || s.pathBlockedFor p cls dst then none else some (p, back)

/-! Policing (R128) -/

/-- The cost of a frame in 1/256 token. -/
def FlowRec.costOf (f : FlowRec) (len : Nat) : Nat := if f.packets then 256 else 256 * (len + f.overhead)

/-- A frame conforms to its flow's bucket. -/
def State.conforms (s : State) (f : FlowRec) (len : Nat) : Bool :=
  len ≤ f.maxFrame && f.costOf len ≤ (s.flowRt f.flow).tokens

/-- A flow admits a frame that the device originates: its bucket does, and where its ingress is an internal unit, the unit's gate, unless the flow is demoted
(R123, R128). -/
def State.flowAdmits (s : State) (f : FlowRec) (len : Nat) : Bool :=
  s.conforms f len && (resKind f.ingress < 3 || (s.flowRt f.flow).demoted || s.unitOpen f.ingress f.cls len)

/-- Take a conforming frame's cost from the bucket. -/
def State.takeTokens (s : State) (f : FlowRec) (len : Nat) : State :=
  s.setFlowRt f.flow { s.flowRt f.flow with tokens := (s.flowRt f.flow).tokens - f.costOf len }

/-- Count a policing drop of a flow (R128, R143). -/
def State.policeDrop (s : State) (f : FlowRec) : State :=
  (s.setFlowRt f.flow { s.flowRt f.flow with drops := (s.flowRt f.flow).drops + 1 }).count Reg.SCHED_POLICE_DROP.COUNT

/-! Queueing -/

/-- The offset of the sample register of a transmit queue (18 R477). -/
def qsmpOff (p sub cls : Nat) : Nat := Reg.TELEM_QSMP.off p sub (cls - 4)

/-- Note the depth of a transmit queue of classes 4 to 7 for its sampler (18 R477). -/
def State.sampleDepth (s : State) (p sub cls : Nat) : State :=
  if cls < 4 then s
  else
    let d := ((s.port p).txq.filter (fun f => f.sub == sub && f.cls == cls)).foldl (fun a f => a + f.cells) 0
    let k := qsmpOff p sub cls
    let q := s.scriv.samplers.getD k {}
    { s with scriv := { s.scriv with samplers := s.scriv.samplers.putD k { q with depth := max q.depth d } {} } }

/-- Put a frame into a port's transmit queue. The frame has been counted in. -/
def State.enqueue (s : State) (p sub : Nat) (f : Frame) : State :=
  let f := { f with sub := sub, queued := s.time.ftNs }
  let s := s.setPort p { s.port p with txq := (s.port p).txq ++ [f] }
  (s.sampleDepth p sub f.cls).flowDepth f.flow f.cells

/-- The frame in the form of its egress port, or none where Table 4.1 drops it (R98). A frame the device originates has Port 0 and Endpoint 0 in
SRC (R94). -/
def State.egressForm (s : State) (p : Nat) (f : Frame) : Option Frame :=
  if s.native p then
    match f.kind with
    | .ethernet =>
      let from_ : Nat := match f.ingress with
        | some (ip, isub, _) => 16 * ip + isub + 1
        | none => 0
      some { f with kind := .encap, src := s.selfFca + from_, hops := s.get Reg.MESH_CTL.HOPS_INIT }
    | _ => some (if f.transit then { f with hops := f.hops - 1 } else f)
  else match f.kind with
    | .ethernet => if f.sub < s.subports p then some f else none
    | .encap => if f.sub < s.subports p then some { f with kind := .ethernet, fcs := (crc32 f.body).toNat } else none
    | _ => none

/-- Count a frame in: it stands in its epoch's drain count and in its flow's backup count, and holds its cells at its ingress (R107, R113). -/
def State.letIn (s : State) (f : Frame) : State × Frame :=
  let s := s.enter f.epoch
  let s := if f.onBackup then
      s.setFlowRt f.flow { s.flowRt f.flow with backupFrames := (s.flowRt f.flow).backupFrames + 1, onBackup := true, wasBackup := true }
    else s
  match f.ingress with
  | some (ip, isub, icls) => (s.holdCells ip isub icls f.cells, { f with held := f.cells, counted := true })
  | none => (s, { f with held := 0, counted := true })

/-! Leaving the mesh -/

/-- The device's endpoints take a frame: dropped and counted in P2 (R72), else handed to the receive side. -/
def State.toEndpoint (s : State) (f : Frame) (roce : Bool) : State :=
  let (port, sub) := match f.ingress with
    | some (p, b, _) => (p, b)
    | none => (0, 0)
  if s.inP2 then (s.frameGone f).count (Reg.LINK_DROP_FENCED.COUNT port)
  else { s with rxq := s.rxq ++ [{ port := port, sub := sub, cls := f.cls, flow := f.flow, src := f.src, dst := f.dst, roce := roce, arrived := f.arrived
                                   bytes := f.body, epoch := f.epoch, counted := f.counted, held := f.held, onBackup := f.onBackup }] }

/-- A frame comes up to the core of its path's stage (11 R332). -/
def State.toStage (s : State) (f : Frame) (core : Nat) (cut good : Bool) : State :=
  let (port, sub) := match f.ingress with
    | some (p, b, _) => (p, b)
    | none => (0, 0)
  { s with stageIn := s.stageIn ++ [{ core := core, flow := f.flow, port := port, sub := sub, cls := f.cls, bytes := f.wire, cut := cut, good := good
                                      arrived := f.arrived, local_ := f.ingress.isNone, epoch := f.epoch, counted := f.counted
                                      held := f.held, onBackup := f.onBackup }] }

/-- The sub-port a frame leaves an egress port by (R98): a decapsulated frame by Endpoint − 1 of its DST (15 where that names none), an
encapsulating native port has one. -/
def State.egressSub (s : State) (p sub : Nat) (f : Frame) : Nat :=
  if s.native p then 0
  else if f.kind == .encap then (if f.dst % 16 = 0 then 15 else f.dst % 16 - 1)
  else sub

/-- A frame leaves the mesh: into its egress port's queue, unless the port is no longer usable for it (R114) or Table 4.1 drops it there (R98); to
an endpoint; to its stage core. -/
def State.exitMesh (s : State) (f : Frame) : MeshExit → State
  | .port p sub =>
    let sub := s.egressSub p sub f
    if !s.usable p f.dst? then (s.frameGone f).lostDrop f
    else if (s.egressForm p { f with sub := sub }).isNone then (s.frameGone f).count Reg.MESH_MODE_DROP.COUNT
    else s.enqueue p sub f
  | .endpoint roce => s.toEndpoint f roce
  | .stage core cut good => s.toStage f core cut good

/-- A frame enters the mesh on a path in a channel; one whose path has no link leaves at once. -/
def State.cross (s : State) (f : Frame) (vc : Nat) (path : List (Nat × Nat)) (pin : Option Nat) (e : MeshExit) : State :=
  let (s, f) := s.letIn f
  if path.isEmpty then s.exitMesh f e
  else
    let s := match pin with
      | some k => s.pinOn k (vc == 2)
      | none => s
    { s with mesh := { s.mesh with crossings := s.mesh.crossings ++
        [{ frame := f, vc := vc, path := path, passed := path.map (fun _ => 0), pin := pin, exit := e }] } }

/-- The entry point of a frame, for its pin table: the attachment of its ingress tile, or the network interface of the cluster it comes from. -/
def Frame.point (f : Frame) (orig : Nat) : Nat :=
  match f.ingress with
  | some (p, _, _) => routerOfPort p
  | none => 64 + orig

/-- An unscheduled frame enters the mesh at a router (R100, R101): classes 4 to 6 on VC1 or VC2 by their order, class 7 on VC4. It is dropped where
both orders cross fenced links (R115). -/
def State.crossFree (s : State) (f : Frame) (from_ dest : Nat) (e : MeshExit) : State :=
  let pin := pinOf (f.point from_) (orderHash f.dst f.cls f.selector)
  match s.orderFor from_ dest f.cls pin with
  | none => (s.count Reg.MESH_NOROUTE_DROP.COUNT).pathDrop f
  | some yx =>
    let adapts := !s.exact && f.cls != 7
    s.cross f (if f.cls = 7 then 4 else if yx then 2 else 1) (pathLinks from_ dest yx) (if adapts then some pin else none) e

/-- A frame of a flow enters the mesh on its path (R95, R96): classes 0 to 3 on VC0, a demoted frame on VC1 or VC2 by the path's ORDER. -/
def State.crossPath (s : State) (f : Frame) (p : PathRec) (e : MeshExit) : State :=
  let yx := p.yx && !s.exact
  s.cross f (if f.cls < 4 then 0 else if yx then 2 else 1) (s.pathMesh p f.cls) none e

/-- One core cycle of the mesh: every link moves a flit, and the frames whose last flit has left it go on (R99). -/
def State.meshCycle (s : State) : State :=
  if s.mesh.crossings.isEmpty then s
  else
    let m := s.meshMoves
    let s := { s with mesh := { m with crossings := m.crossings.filter (fun x => !x.arrived) } }
    (m.crossings.filter Crossing.arrived).foldl (fun s x => (s.pinOff x.pin).exitMesh x.frame x.exit) s

/-- A link was fenced (R115): a frame on the mesh that still has to cross it starts anew in the other order where it may and that order is clear; every
other such frame is dropped and counted (DEDUCED, log 22). -/
def State.rerouteMesh (s : State) : State :=
  let stuck (x : Crossing) : Bool := (x.path.zip x.passed).any (fun e => s.linkFenced e.1 && e.2 < x.frame.flits)
  let xs := s.mesh.crossings.filter stuck
  let s := { s with mesh := { s.mesh with crossings := s.mesh.crossings.filter (fun x => !stuck x) } }
  xs.foldl (fun s x =>
    let s := s.pinOff x.pin
    let a := (x.path.headD (0, 0)).1
    let b := match x.exit with
      | .port p _ => routerOfPort p
      | .endpoint _ => (x.path.getLast?.map (fun (l : Nat × Nat) => match l.2 with
          | 0 => l.1 + 1 | 1 => l.1 + 8 | 2 => l.1 - 1 | _ => l.1 - 8)).getD a
      | .stage c _ _ => c / 64
    if x.frame.flow = 0 then
      let s := s.frameGone x.frame
      s.crossFree x.frame a b x.exit
    else (s.frameGone x.frame).count Reg.MESH_NOROUTE_DROP.COUNT) s

/-! Acting on a route -/

/-- Act on the route of a frame that goes out or is dropped: a frame in transit needs HOPS (R94). The frame is not yet counted in. -/
def State.follow (s : State) (from_ : Nat) (f : Frame) (r : Route) : State :=
  match r with
  | .drop c => (s.count c).pathDrop f
  | .device => s
  | .out p sub =>
    if f.kind != .ethernet && f.transit && f.hops == 0 then s.count Reg.MESH_HOPS_DROP.COUNT
    else s.crossFree f (f.entryRouter from_) (routerOfPort p) (.port p sub)

/-- The cluster of the Kennel bank that a frame for one of the device's endpoints goes to: the home bank of its destination queue pair (06 R145),
read from the transport header or from the BTH. -/
def Frame.endpointRouter (f : Frame) : Nat :=
  (match f.kind with
  | .transport => leAt f.body 2 3
  | .ethernet =>
    let o := if ethTagged f.body then 18 else 14
    beNat (slice f.body (o + (if beNat (slice f.body (o - 2) 2) = 0x86DD then 40 else 20) + 8 + 5) 3)
  | _ => 0) % 64

/-- Where a flow's path leads a frame: out by a port, to the stage core, or to END as one of the device's endpoints. -/
def PathRec.exitOf (p : PathRec) (roce good : Bool) : MeshExit :=
  if p.stageValid then .stage p.stage p.cut good
  else if p.toPort then .port p.egress p.subport
  else .endpoint roce

/-- The class demoted traffic is carried in (R29). -/
def State.demoteTc (s : State) : Nat := s.get Reg.TIME_CTL.DEMOTE_TC

/-- The stamp of a frame (R105, R106): the epoch it arrived with where that bank is active, retained or armed; else it is restamped with
the active epoch and counted. -/
def State.stamp (s : State) (e : Nat) : State × Nat :=
  let act := s.get Reg.MESH_STS.EPOCH
  if e = act ∨ s.flag Reg.MESH_STS.OLD_RETAINED ∨ s.flag Reg.MESH_STS.NEXT_ARMED then (s, e)
  else (s.count Reg.MESH_EPOCH_RESTAMP.COUNT, act)

/-- Look up a frame the device originates: an unscheduled one by its DST, a scheduled one by its flow, in its class or in DEMOTE_TC when its flow is
demoted. A frame for the device itself goes to its receive side. -/
def State.launch (s : State) (from_ : Nat) (f : Frame) : State :=
  if f.flow = 0 then
    match s.routeFca f.epoch from_ f with
    | .device => s.crossFree f from_ f.endpointRouter (.endpoint false)
    | r => s.follow from_ f r
  else
    match flowIn (if f.cls < 4 then s.flowTables else s.demotedTables) f.flow with
    | none => s.count Reg.MESH_NOROUTE_DROP.COUNT
    | some (i, r) =>
      match s.flowPath i r f.dst? with
      | none => s.count Reg.MESH_NOROUTE_DROP.COUNT
      | some (p, back) =>
        s.crossPath { f with cls := s.flowCls r, onBackup := back } p (p.exitOf (f.kind == .ethernet) true)

/-- A frame the device originates: HOPS_INIT, own address, the active epoch (R94, R106). `from_` is the router it enters at. -/
def State.stampOwn (s : State) (f : Frame) : Frame :=
  { f with src := s.selfFca, hops := s.get Reg.MESH_CTL.HOPS_INIT, epoch := s.get Reg.MESH_STS.EPOCH
           arrived := s.time.ftNs, transit := false, ingress := none }

/-- The device originates a frame. One of a flow waits, behind earlier ones of the flow, until its flow admits it; one longer than MAX_FRAME is
dropped and counted (05 R128). -/
def State.originate (s : State) (from_ : Nat) (f : Frame) : State :=
  match (if f.flow = 0 then none else flowIn s.activeImages f.flow) with
  | none => s.launch from_ (s.stampOwn f)
  | some (_, r) =>
    if r.maxFrame < f.len then s.policeDrop r
    else if s.sched.paced.any (fun e => e.2.flow == f.flow) || !s.flowAdmits r f.len then
      { s with sched := { s.sched with paced := s.sched.paced ++ [(from_, f)] } }
    else (s.takeTokens r f.len).launch from_ (s.stampOwn f)

/-- The frames that wait for their flows' buckets go as far as the tokens now allow (05 R128). -/
def State.pacedGo (s : State) : State :=
  let fs := s.sched.paced
  fs.foldl (fun s e => s.originate e.1 e.2) { s with sched := { s.sched with paced := [] } }

end Sys2Proof.Machine
end

