-- ==== Sys2Proof/Machine/Fences.lean ====
section
/-! DEFINITION. The disabled-unit map: fuse and fence bits, the map generation, the next map (02_floor_plan_and_numbering.md R40 to R45). -/

namespace Sys2Proof.Machine

/-- A physical core is healthy. -/
def State.pcoreOk (s : State) (k c : Nat) : Bool := !s.disabled ⟨.core, k, c⟩

/-- The cluster's Drover and reduction unit are both in service (Table 2.3). -/
def State.clusterWhole (s : State) (k : Nat) : Bool := !s.disabled ⟨.drover, k, 0⟩ && !s.disabled ⟨.reduce, k, 0⟩

/-- The lowest-numbered healthy physical core that no entry of the next map names. -/
def State.spareCore? (s : State) (k : Nat) : Option Nat :=
  let used := (List.range 64).filterMap (fun n =>
    if s.flag (Reg.CLUSTER_LMAP.NEXT_VACANT k n) then none else some (s.get (Reg.CLUSTER_LMAP.NEXT_PCORE k n)))
  (List.range 68).find? (fun c => s.pcoreOk k c && !used.contains c)

/-- Logical number n of a cluster takes a physical core in the next map, or becomes vacant; a vacant entry keeps its number, which means nothing
(DESIGN CHOICE, log 135). -/
def State.setNext (s : State) (k n : Nat) : Option Nat → State
  | some c => (s.put (Reg.CLUSTER_LMAP.NEXT_PCORE k n) c).put (Reg.CLUSTER_LMAP.NEXT_VACANT k n) 0
  | none => s.put (Reg.CLUSTER_LMAP.NEXT_VACANT k n) 1

/-- The change of the next map at a new fence (R45). -/
def State.nextAfterFence (s : State) (u : UnitId) : State :=
  match u.kind with
  | .core =>
    match (List.range 64).find? (fun n =>
      !s.flag (Reg.CLUSTER_LMAP.NEXT_VACANT u.place n) && s.get (Reg.CLUSTER_LMAP.NEXT_PCORE u.place n) == u.index) with
    | some n => s.setNext u.place n (s.spareCore? u.place)
    | none => s
  | .drover | .reduce => (List.range 64).foldl (fun s n => s.setNext u.place n none) s
  | _ => s

/-- CLUSTER_LMAP.FENCED of the entries that name a fenced core (R43); MEM_CH_STS.STATE of a fenced channel (14 R383). -/
def State.showFenced (s : State) (u : UnitId) : State :=
  match u.kind with
  | .core => (List.range 64).foldl (fun s n =>
      if s.get (Reg.CLUSTER_LMAP.PCORE u.place n) = u.index ∧ s.flag (Reg.CLUSTER_LMAP.VACANT u.place n) = false then
        s.put (Reg.CLUSTER_LMAP.FENCED u.place n) 1
      else s) s
  | .channel => s.put (Reg.MEM_CH_STS.STATE u.index) 3
  | _ => s

/-- The code of a unit kind in a record (18 Table 18.2). -/
def unitCode : UnitKind → Nat
  | .core => 0 | .aes => 1 | .kennel => 2 | .drover => 3 | .reduce => 4 | .lane => 5 | .channel => 6 | .meshLink => 7 | .hostTile => 8

/-- Bytes 20 to 23 of a record about a unit. -/
def unitBytes (u : UnitId) : List Byte := leBytes 1 (unitCode u.kind) ++ leBytes 1 u.place ++ leBytes 2 u.index

/-- The row of Table 2.4 that a fence counts in: a Tinker retirement in the SRAM row, every other in its unit's row (18 R478). -/
def fitRow (kind : UnitKind) (cause : Nat) : Nat :=
  if cause = 2 then 2
  else match kind with
    | .lane => 0
    | .core => 1
    | .channel => 3
    | .meshLink => 4
    | .aes | .kennel | .drover | .reduce => 6
    | .hostTile => 8

/-- The event and the failure count of one new fence (R41, 18 R478). Causes: 0 start-up test, 1 Crier, 2 Tinker, 3 fatal internal error,
4 Farrier, 5 DDR. -/
def State.reportFence (s : State) (cause : Nat) (u : UnitId) : State :=
  (s.event Ev.dumChanged (unitBytes u ++ leBytes 1 cause ++ [0] ++ leBytes 2 (s.get Reg.GLB_DUM_GEN.GEN))).count
    (Reg.TELEM_FIT_FAIL.COUNT (fitRow u.kind cause))

/-- Set the fence bits of the units not yet disabled, all in one cycle: GEN counts once, every new fence is reported, the next map follows
(once the boot commit has built it), and flows move to their backups (R40 to R43, R45, 04 R113). -/
def State.fence (s : State) (cause : Nat) (us : List UnitId) : State :=
  let new := us.eraseDups.filter (fun u => (fenceBit? u).isSome && !s.disabled u)
  if new.isEmpty then s
  else
    let s := new.foldl (fun s u => match fenceBit? u with
      | some f => s.put f 1
      | none => s) s
    let s := s.put Reg.GLB_DUM_GEN.GEN (s.get Reg.GLB_DUM_GEN.GEN + 1)
    let s := new.foldl (fun s u => if s.preReady then s else (s.nextAfterFence u).showFenced u) s
    let s := (new.foldl (fun s u => s.reportFence cause u) s).refreshBackups ((new.map (fun u => fitRow u.kind cause)).headD 10)
    if new.any (fun u => u.kind == .meshLink) then s.rerouteMesh else s

end Sys2Proof.Machine
end

