-- ==== Sys2Proof/Machine/Rx.lean ====
section
/-! DEFINITION. What a port does with what it receives: Ethernet and ELP frames, flow control, ordered sets
(03_link_ports.md R54 to R73; 04_routing_and_mesh.md R89 to R98, R106; 05 R118, R128). -/

namespace Sys2Proof.Machine

/-- A port carries traffic: its link is up, or it stays trained while the device is fenced (Table 3.6). -/
def State.linkOn (s : State) (p : Nat) : Bool := 2 ≤ s.get (Reg.LINK_STS.STATE p)

/-! Routing a received frame -/

/-- The class of a received frame has a bad check: it is dropped and counted (R54, R65). -/
def State.badFrame (s : State) (port : Nat) : State := s.count (Reg.LINK_BAD_FRAME.COUNT port)

/-- A received frame that a flow record claims (R95, R96, 05 R128): policed, then out by its path, to its stage core, or to the device, which
terminates no encapsulated Ethernet frame (R98). A frame whose check is bad goes on only where its forwarding has begun and its path
permits cut-through (R66, 05 R126); it ends stomped. `police` is false for a frame a partner has demoted (log 31). -/
def State.rxFlow (s : State) (port : Nat) (f : Frame) (i : Image) (r : FlowRec) (police good early : Bool) : State :=
  match s.flowPath i r f.dst? with
  | none => if good then s.count Reg.MESH_NOROUTE_DROP.COUNT else s.badFrame port
  | some (p, back) =>
    if !good && !(early && p.cut) then s.badFrame port
    else if police && !s.conforms r f.len then s.policeDrop r
    else
      let s := if police then s.takeTokens r f.len else s
      let f := { f with flow := r.flow, cls := if police && (s.flowRt r.flow).demoted then s.demoteTc else f.cls
                        onBackup := back, stomp := !good }
      if !p.stageValid && !p.toPort then
        if !good then s.badFrame port
        else if f.kind == .encap then s.count Reg.MESH_MODE_DROP.COUNT
        else if s.inP2 then s.count (Reg.LINK_DROP_FENCED.COUNT port)
        else s.crossPath f p (p.exitOf (f.kind == .ethernet) good)
      else if !p.stageValid && f.kind != .ethernet && f.transit && f.hops == 0 then s.count Reg.MESH_HOPS_DROP.COUNT
      else
        let s := s.crossPath f p (p.exitOf (f.kind == .ethernet) good)
        if p.stageValid then s else s.count (Reg.LINK_STOMPED.COUNT port) (b2n !good)

/-- A received frame of classes 4 to 7 goes where its route leads; a bad check ends a forwarded copy stomped and drops every other
frame (R66). The device terminates no encapsulated Ethernet frame (R98) and takes transport frames; it consumes management frames. -/
def State.rxRoute (s : State) (port : Nat) (f : Frame) (r : Route) (good early : Bool) : State :=
  let from_ := routerOfPort port
  match r with
  | .drop c => if good then s.count c else s.badFrame port
  | .out p sub =>
    if good then s.follow from_ f (.out p sub)
    else if early then (s.follow from_ { f with stomp := true } (.out p sub)).count (Reg.LINK_STOMPED.COUNT port)
    else s.badFrame port
  | .device =>
    if !good then s.badFrame port
    else match f.kind with
      | .transport =>
        if s.inP2 then s.count (Reg.LINK_DROP_FENCED.COUNT port) else s.crossFree f from_ f.endpointRouter (.endpoint false)
      | .management => if s.inP2 then s.count (Reg.LINK_DROP_FENCED.COUNT port) else s
      | .encap | .ethernet => s.count Reg.MESH_MODE_DROP.COUNT

/-- The class of a received frame has no room: 4 to 6 are dropped and counted, 7 is dropped (R84). -/
def State.overflow (s : State) (port cls : Nat) : State :=
  if cls = 7 then s else s.count (Reg.LINK_DROP_OVERFLOW.COUNT port)

/-! Ethernet -/

/-- The frame's destination address is one of the device's on this sub-port (R56). -/
def State.ethForDevice (s : State) (port sub : Nat) (bs : List Byte) : Bool :=
  let mac := ethDst bs
  (List.range 16).any (fun n =>
      s.flag (Reg.LINK_MAC_HI.VALID port n) && s.get (Reg.LINK_MAC_HI.SUBPORT port n) == sub
        && s.get (Reg.LINK_MAC_LO.ADDR_LO port n) == mac % 2 ^ 32 && s.get (Reg.LINK_MAC_HI.ADDR_HI port n) == mac / 2 ^ 32)
    || (mac == 2 ^ 48 - 1 && s.flag (Reg.LINK_MAC_CTL.BC_ACCEPT port))
    || (mac != 2 ^ 48 - 1 && bitAt (mac / 2 ^ 40) 0 && s.flag (Reg.LINK_MAC_CTL.MC_ACCEPT port))

/-- The flow record that claims an Ethernet frame of classes 0 to 3: its ingress is the receiving sub-port and its match fields equal the
frame's (05 R118). -/
def State.ethFlow? (s : State) (port sub : Nat) (bs : List Byte) : Option (Image × FlowRec) :=
  s.flowTables.findSome? (fun i => (i.flows.find? (fun f =>
    f.matchEth && f.ingress == resRx port sub && f.mac == ethDst bs
      && (if f.tagged then ethTagged bs && f.vid == ethVid bs else !ethTagged bs))).map (fun f => (i, f)))

/-- The frame carries PTP (R56, 01 R13): EtherType 0x88F7, or UDP on IPv4 or IPv6 to port 319 or 320, with or without a tag. -/
def ptpFrame (bs : List Byte) : Bool :=
  let o := if ethTagged bs then 18 else 14
  let ty := beNat (slice bs (o - 2) 2)
  let udp (at_ : Nat) : Bool := let d := beNat (slice bs (at_ + 2) 2); d == 319 || d == 320
  ty == 0x88F7
    || (ty == 0x0800 && leAt bs (o + 9) 1 == 17 && udp (o + 4 * (leAt bs o 1 % 16)))
    || (ty == 0x86DD && leAt bs (o + 6) 1 == 17 && udp (o + 40))

/-- Ethernet transit (R97): the frame by its entry's local port, or by the entry's FCA. -/
def State.ethTransit (s : State) (port : Nat) (f : Frame) (good early : Bool) : State :=
  let b := s.get Reg.MESH_STS.EPOCH
  match s.ethEntry? b f.body with
  | none => if good then s.count Reg.MESH_ETH_MISS.COUNT else s.count (Reg.LINK_BAD_FRAME.COUNT port)
  | some n =>
    if s.flag (Reg.MESH_ETH_W2.LOCAL b n) then
      let p := s.get (Reg.MESH_ETH_W2.PORT b n)
      let r := if s.usable p none then s.routeOut (routerOfPort port) p (s.get (Reg.MESH_ETH_W2.SUBPORT b n))
               else .drop Reg.MESH_NOROUTE_DROP.COUNT
      (s.fresh).rxRoute port { f with dst := (Config.freeWord s.freeCtr).toNat, hasFca := false } r good early
    else
      let f := { f with dst := s.get (Reg.MESH_ETH_W3.FCA b n) }
      let sub := (f.dst % 16) - 1
      s.rxRoute port { f with sub := sub } (s.routeFca b (routerOfPort port) { f with sub := sub }) good early

/-- ETH_FRAME_RECEIVE: length and FCS (R54), class (R55), filter (R56), flow (05 R118) or transit (R97). The MAC consumes pause, PFC and PTP
frames, which act by rows of their own. `bytes` holds the FCS; `early`: forwarding had begun when the last byte arrived (R66). -/
def ethReceiveEff (port sub : Nat) (bytes : List Byte) (early : Bool) (s : State) : State :=
  if s.native port || s.subports port ≤ sub || !s.linkOn port || !s.subUp port sub then s
  else if bytes.length < 64 || 9216 < bytes.length then s.badFrame port
  else
    let body := bytes.take (bytes.length - 4)
    let good := crcGood bytes
    if beNat (slice body 12 2) = 0x8808 ∨ ptpFrame body = true then (if good then s else s.badFrame port)
    else
      let cls := s.ethClass port body
      let s := { s with ports := s.ports.putD port { s.port port with rxBytes := (s.port port).rxBytes + bytes.length } {} }
      let mine := s.ethForDevice port sub body
      let f : Frame := {
        kind := .ethernet, cls := cls, epoch := s.get Reg.MESH_STS.EPOCH, body := body, fcs := leNat (bytes.drop (bytes.length - 4))
        ingress := some (port, sub, cls), arrived := s.time.ftNs, sub := sub, transit := true, hasFca := false }
      if !mine && !s.flag (Reg.LINK_CFG.TRANSIT port) then
        if good then s.count (Reg.LINK_DROP_FILTER.COUNT port) else s.badFrame port
      else if cls < 4 then
        match s.ethFlow? port sub body with
        | none => if good then s.count Reg.MESH_NOROUTE_DROP.COUNT else s.badFrame port
        | some (i, r) => (s.fresh).rxFlow port { f with dst := (Config.freeWord s.freeCtr).toNat } i r true good early
      else if s.classFull port sub cls f.cells then s.overflow port cls
      else if mine then
        if !good then s.badFrame port
        else if s.inP2 then s.count (Reg.LINK_DROP_FENCED.COUNT port)
        else s.crossFree f (routerOfPort port) f.endpointRouter (.endpoint true)
      else s.ethTransit port { f with hasFca := true } good early

/-! ELP -/

/-- A live period: a peer UNKNOWN or LOST becomes ALIVE (R70). -/
def State.markLive (s : State) (p : Nat) : State :=
  if s.get (Reg.LINK_STS.PEER p) = 0 ∨ s.get (Reg.LINK_STS.PEER p) = 3 then s.put (Reg.LINK_STS.PEER p) 1 else s

/-- A whole ELP frame of a class has arrived: checked by R65, stamped by R106 with the epoch `e` it was counted in under, routed by its flow or
its destination. -/
def State.elpFrame (s : State) (port cls e : Nat) (bytes : List Byte) (early : Bool) : State :=
  match parseElp cls (bytes.length / 64) bytes with
  | none => s.badFrame port
  | some f =>
    let good := elpCrcGood bytes
    let s := s.setPort port { s.port port with rxBytes := (s.port port).rxBytes + f.len }
    let f := { f with epoch := e, ingress := some (port, 0, cls), arrived := s.time.ftNs, transit := true, sub := f.dst % 16 - 1 }
    if cls < 4 then
      match flowIn s.flowTables f.flow with
      | none => if good then s.count Reg.MESH_NOROUTE_DROP.COUNT else s.badFrame port
      | some (i, r) => s.rxFlow port f i r true good early
    else if s.classFull port 0 cls f.cells then s.overflow port cls
    else if f.flow = 0 then s.rxRoute port f (s.routeFca e (routerOfPort port) f) good early
    else if cls = 7 then if good then s.count Reg.MESH_NOROUTE_DROP.COUNT else s.badFrame port
    else match flowIn s.demotedTables f.flow with
      | none => if good then s.count Reg.MESH_NOROUTE_DROP.COUNT else s.badFrame port
      | some (i, r) => s.rxFlow port f i r false good early

/-- Give a class of a port its open frame, with its epoch, or none. -/
def State.setOpen (s : State) (port cls : Nat) (o : Option (Nat × List Byte)) : State :=
  let x := s.port port
  s.setPort port { x with rxOpen := match o with
    | some bs => x.rxOpen.set cls bs
    | none => x.rxOpen.del cls }

/-- The open frame of a class is dropped and counted; it leaves the drain count (R63, R107). -/
def State.dropOpen (s : State) (port cls : Nat) : State :=
  match (s.port port).rxOpen.at? cls with
  | some (e, _) => ((s.setOpen port cls none).leave e).badFrame port
  | none => s

/-- The first container of a frame lands in the link tile's buffer: it is stamped and counted in (R106, R107). -/
def State.openFrame (s : State) (port cls : Nat) (body : List Byte) : State :=
  let (s, e) := s.stamp (bits (leAt body 10 1) 3 1)
  (s.enter e).setOpen port cls (some (e, body))

/-- One container (R62, R63). -/
def State.rxContainer (port : Nat) (early : Bool) (s : State) (c : Container) : State :=
  let b := c.ctrl.toNat
  if bits b 6 2 = 3 then s.count (Reg.LINK_OS_BAD.COUNT port)
  else if bits b 6 2 ≠ 1 then s
  else
    let cls := b % 8
    let s := s.markLive port
    let body := (c.body ++ List.replicate 64 0).take 64
    let s := if bitAt b 5 then (s.dropOpen port cls).openFrame port cls body
      else match (s.port port).rxOpen.at? cls with
        | some (e, bs) => s.setOpen port cls (some (e, bs ++ body))
        | none => s
    match (s.port port).rxOpen.at? cls with
    | some (e, bs) => if bitAt b 4 then ((s.setOpen port cls none).leave e).elpFrame port cls e bs early else s
    | none => s

/-- ELP_FRAME_RECEIVE: containers in arrival order. -/
def elpReceiveEff (port : Nat) (cs : List Container) (early : Bool) (s : State) : State :=
  if s.native port && s.linkOn port then cs.foldl (State.rxContainer port early) s else s

/-- CODEWORD_UNCORRECTABLE (R63): `classes` had a container in the codeword; their open frames are dropped. -/
def codewordEff (port : Nat) (classes : BitVec 8) (s : State) : State :=
  if s.native port && s.linkOn port then
    (setBitsOf classes.toNat 8).foldl (fun s c => s.dropOpen port c) (s.count (Reg.LINK_FEC_UNCORR.COUNT port))
  else s

/-! Flow control -/

/-- Pause a class of a sub-port for a received time, or resume it at 0. -/
def State.pauseClass (s : State) (port sub cls time : Nat) : State :=
  let x := s.port port
  s.setPort port { x with paused := x.paused.putD (subCls sub cls) time 0 }

/-- PFC_FRAME_RECEIVE (R57): honoured for PCP values mapped to classes 4 to 6, ignored and counted once for others. Of several PCP values of one
class the longest pause counts (DESIGN CHOICE, log 136). -/
def pfcReceiveEff (port sub : Nat) (enable : BitVec 8) (times : List (BitVec 16)) (s : State) : State :=
  if s.native port || s.subports port ≤ sub || !s.linkOn port || !s.subUp port sub || s.get (Reg.LINK_CFG.PAUSE_MODE port) != 2 then s
  else
    let tc (n : Nat) : Nat := bits (s.get (Reg.LINK_PCP_MAP.TC port)) (3 * n) 3
    let ns := setBitsOf enable.toNat 8
    let s := [4, 5, 6].foldl (fun s c =>
      let mine := ns.filter (fun n => tc n == c)
      if mine.isEmpty then s
      else s.pauseClass port sub c (mine.foldl (fun a n => max a (times.getD n 0).toNat) 0)) s
    if ns.any (fun n => tc n < 4 || tc n == 7) then s.count (Reg.LINK_PFC_IGNORED.COUNT port) else s

/-- PAUSE_FRAME_RECEIVE (R58): classes 4 to 7 stop on a port with PAUSE_MODE 1. -/
def pauseReceiveEff (port sub : Nat) (time : BitVec 16) (s : State) : State :=
  if s.native port || s.subports port ≤ sub || !s.linkOn port || !s.subUp port sub || s.get (Reg.LINK_CFG.PAUSE_MODE port) != 1 then s
  else [4, 5, 6, 7].foldl (fun s c => s.pauseClass port sub c time.toNat) s

/-- PFC_REFRESH (R57, R58, R69): an XOFF still in force is sent again, for as long as the class or its miss buffer holds it. -/
def pfcRefreshEff (port sub cls : Nat) (s : State) : State :=
  let x := s.port port
  let c := s.watchedClass port sub cls
  if 4 ≤ cls && cls ≤ 6 && (x.missOff.contains (subCls sub cls)
      || (x.xoff.contains (s.xoffKey port sub cls) && s.get (Reg.LINK_PFC_WM.XON port (c - 4)) ≤ x.occ (subCls sub c))) then
    s.sendPause port sub c true
  else s

/-- PAUSE_TIME_EXPIRY: the class may start again. -/
def pauseExpiryEff (port sub cls : Nat) (s : State) : State := s.pauseClass port sub cls 0

/-- Preemption becomes active on some sub-ports of an Ethernet port, beside those where it is; PREEMPT_ACT shows whether it is on every one (R59). -/
def State.preempting (s : State) (port : Nat) (subs : List Nat) : State :=
  let s := s.setPort port { s.port port with verified := subs.foldl addTo (s.port port).verified }
  s.put (Reg.LINK_STS.PREEMPT_ACT port) (b2n ((List.range (s.subports port)).all (s.port port).verified.contains))

/-- Preemption ends on every sub-port. -/
def State.preemptOff (s : State) (port : Nat) : State :=
  (s.setPort port { s.port port with verified := [] }).put (Reg.LINK_STS.PREEMPT_ACT port) 0

/-- PREEMPT_VERIFY (R59): the verify exchange of a sub-port succeeds or fails. -/
def preemptVerifyEff (port sub : Nat) (ok : Bool) (s : State) : State :=
  if s.native port || s.subports port ≤ sub || !s.flag (Reg.LINK_CFG.PREEMPT_EN port) || s.flag (Reg.LINK_CFG.VERIFY_DIS port)
      || !s.linkOn port || !s.subUp port sub then s
  else if ok then s.preempting port [sub]
  else s.put (Reg.LINK_STS.VERIFY_FAIL port) 1

/-! Ordered sets -/

/-- The copies of a received ordered set: bad ones are counted, the first valid one acts (R67). -/
def State.rxOs (s : State) (port : Nat) (copies : List (List Byte)) : State × Option (Nat × OrdSet) :=
  let read := copies.map osCopy
  (s.count (Reg.LINK_OS_BAD.COUNT port) (read.filter Option.isNone).length, read.findSome? id)

/-- Act on a received ordered set of a native port with its link on; `act` gets the sender's address and the set, and answers none for a
set of another type than the row's. -/
def State.withOs (s : State) (port : Nat) (copies : List (List Byte)) (act : State → Nat → OrdSet → State) : State :=
  if s.native port && s.linkOn port then
    match s.rxOs port copies with
    | (s, some (fca, o)) => act s fca o
    | (s, none) => s
  else s

/-- PAUSE_OS_RECEIVE (R69): the named classes stop for their times in periods, or resume at 0. -/
def pauseOsEff (port : Nat) (copies : List (List Byte)) (s : State) : State :=
  s.withOs port copies (fun s _ o => match o with
    | .pause m a b c =>
      let s := s.markLive port
      let s := if bitAt m 0 then s.pauseClass port 0 4 a else s
      let s := if bitAt m 1 then s.pauseClass port 0 5 b else s
      if bitAt m 2 then s.pauseClass port 0 6 c else s
    | _ => s)

/-- ALIGN_RECEIVE (Table 3.5): the partner's period counter and active mask. -/
def alignReceiveEff (port : Nat) (copies : List (List Byte)) (s : State) : State :=
  s.withOs port copies (fun s _ o => match o with
    | .align period mask =>
      let s := s.markLive port
      s.setPort port { s.port port with peerPeriod := period, peerMask := mask }
    | _ => s)

/-- KEEPALIVE_RECEIVE (R70, R73): the peer is ALIVE, ending UNKNOWN, LOST and FENCED. -/
def keepaliveReceiveEff (port : Nat) (copies : List (List Byte)) (s : State) : State :=
  s.withOs port copies (fun s _ o => match o with
    | .keepalive _ _ _ => s.put (Reg.LINK_STS.PEER port) 1
    | _ => s)

/-- FENCED_RECEIVE (R73): the peer becomes FENCED and PEER_FENCED is raised, again for each change of reason; the sender address and the
TRANSIT bit are those of the latest set. Where the set takes TRANSIT away, frames queued on the port that are not usable follow
R114. -/
def fencedReceiveEff (port : Nat) (copies : List (List Byte)) (s : State) : State :=
  s.withOs port copies (fun s fca o => match o with
    | .fenced transit reason =>
      let x := s.port port
      let tell := s.get (Reg.LINK_STS.PEER port) != 2 || x.peerReason != reason
      let s := s.setPort port { x with peerFca := fca, peerTransit := transit, peerReason := reason }
      let s := s.put (Reg.LINK_STS.PEER port) 2
      let s := if tell then s.event Ev.peerFenced (leBytes 1 port ++ leBytes 1 reason) else s
      (s.discardQueued port).refreshBackups
    | _ => s)

/-- The peer is declared lost (R70, R71): PEER and PEER_LOST are set, PEER_LOST is raised, what was queued is discarded (R114) and flows
move to their backups (R113). -/
def State.peerLost (s : State) (port : Nat) : State :=
  let s := (s.put (Reg.LINK_STS.PEER port) 3).put (Reg.LINK_STS.PEER_LOST port) 1
  ((s.event Ev.peerLost (leBytes 1 port)).discardQueued port).refreshBackups

/-- The port goes to TRAINING: nothing is carried, open frames go, what is queued is discarded (R114) and flows move (R113). -/
def State.toTraining (s : State) (p : Nat) : State :=
  let s := (s.put (Reg.LINK_STS.STATE p) 1).put (Reg.LINK_STS.ACTIVE p) 0
  let s := ((s.port p).rxOpen.map (·.1)).foldl (fun s c => match (s.port p).rxOpen.at? c with
    | some (e, _) => s.leave e
    | none => s) s
  let s := s.setPort p { s.port p with rxOpen := [], paused := [], trained := 0, req := none, change := none, subsUp := [], restore := [] }
  ((s.preemptOff p).discardQueued p).refreshBackups

/-- PEER_LOST: 120 periods without a live one on a native port (R70). A receiver that has lost codeword lock retrains first. -/
def peerLostEff (port : Nat) (locked : Bool) (s : State) : State :=
  if s.native port && s.linkOn port && s.get (Reg.LINK_STS.PEER port) != 3 then
    let s := s.peerLost port
    if locked then s else s.toTraining port
  else s

/-- An Ethernet link goes down: preemption ends and verify starts anew at the next link up (R59). -/
def State.ethDown (s : State) (port : Nat) : State :=
  (((s.put (Reg.LINK_STS.STATE port) 1).put (Reg.LINK_STS.ACTIVE port) 0).setPort port
    { s.port port with paused := [], subsUp := [] }).preemptOff port

/-- PCS_LINK_DOWN (R71). -/
def pcsDownEff (port : Nat) (s : State) : State :=
  if s.native port || !s.linkOn port then s
  else
    let s := s.ethDown port
    if s.get (Reg.LINK_STS.PEER port) = 3 then s.discardQueued port |>.refreshBackups else s.peerLost port

/-- The lane indexes of a port that have failed and have no spare yet (R74). -/
def State.failedLanes (s : State) (p : Nat) : List Nat := (List.range 4).filter (fun i => s.flag (Reg.LINK_LANE_HEALTH.FAILED p i))

/-- An Ethernet link comes up on the lanes of a mask: the sub-ports whose lanes are all among them, none of which has failed (R53, R78). With
VERIFY_DIS preemption is active at link up (R59). The port stays in TRAINING where no sub-port comes up. -/
def State.ethUp (s : State) (p mask : Nat) : State :=
  let subs := (List.range (s.subports p)).filter (fun b => (s.subLanes p b).all (fun i => bitAt mask i && !(s.failedLanes p).contains i))
  if subs.isEmpty then s
  else
    let s := s.setPort p { s.port p with subsUp := subs }
    let act := subs.foldl (fun m b => (s.subLanes p b).foldl (fun m i => setBits m i 1 1) m) 0
    let s := (s.put (Reg.LINK_STS.STATE p) 2).put (Reg.LINK_STS.ACTIVE p) act
    if s.flag (Reg.LINK_CFG.PREEMPT_EN p) && s.flag (Reg.LINK_CFG.VERIFY_DIS p) then s.preempting p subs else s

/-- PCS_LINK_UP (R71): the port is UP and the peer ALIVE. -/
def pcsUpEff (port : Nat) (s : State) : State :=
  if s.native port || !s.flag (Reg.LINK_CFG.ENABLE port) then s
  else
    let s := s.ethUp port 15
    if s.linkOn port then s.put (Reg.LINK_STS.PEER port) 1 else s

/-! Beacons (R68) -/

/-- BEACON_SEND: a source, or the time port while TIME_CTL.SRC is 1. T2 and the echo are those of the last beacon received. -/
def beaconSendEff (port : Nat) (s : State) : State :=
  let source := s.flag (Reg.LINK_CFG.BEACON_TX port)
  let time := s.get Reg.TIME_CTL.SRC == 1 && s.get Reg.TIME_PORT.PORT == port
  if s.native port && s.linkOn port && (source || time) then
    let x := s.port port
    let ref := s.port (s.get Reg.TIME_PORT.PORT)
    let hops := if s.get Reg.TIME_CTL.SRC = 1 then ref.beacon.hops + 1 else 0
    let s := s.setPort port { x with beacon := { x.beacon with sentT1 := s.ft } }
    s.sendOs port (.beacon source (s.get Reg.TIME_STS.STATE) (s.get (Reg.LINK_BEACON_CTL.INTERVAL port)) s.ft x.beacon.peerT1
      x.beacon.arrival hops)
  else s

/-- BEACON_RECEIVE: the beacon's times are kept; where it echoes a beacon of this side, the mean path delay becomes
((T4 − T1) − (T3 − T2)) / 2. On the time port with SRC 1 the received FT, corrected by the delay, is the source time (R14, R68).
`arrival` is T4 in 1/256 ns. -/
def beaconReceiveEff (port : Nat) (copies : List (List Byte)) (arrival : Nat) (s : State) : State :=
  s.withOs port copies (fun s _ o => match o with
    | .beacon source state _ t1 echo t2 hops =>
      let s := s.markLive port
      let x := s.port port
      let d : Int := ((Int.ofNat arrival - Int.ofNat echo) - (Int.ofNat t1 - Int.ofNat t2)) / 2
      let s := if echo ≠ 0 then s.put (Reg.LINK_PEER_DELAY.DELAY port) (BitVec.ofInt 32 d).toNat else s
      let s := s.setPort port { x with beacon := { x.beacon with peerT1 := t1, arrival := arrival, peerState := state, hops := hops } }
      if source && s.get Reg.TIME_CTL.SRC == 1 && s.get Reg.TIME_PORT.PORT == port then
        s.showOffset (Int.ofNat arrival - (Int.ofNat t1 + (BitVec.ofNat 32 (s.get (Reg.LINK_PEER_DELAY.DELAY port))).toInt))
      else s
    | _ => s)

/-! Ordered sets sent on their own -/

/-- ALIGN_SEND (Table 3.5). -/
def alignSendEff (port : Nat) (s : State) : State :=
  if s.native port && s.linkOn port then
    s.sendOs port (.align (s.time.ftNs.toNat / 25 % 2 ^ 32) (s.get (Reg.LINK_STS.ACTIVE port)))
  else s

/-- KEEPALIVE_SEND (R70): only while the port is not fenced. -/
def keepaliveSendEff (port : Nat) (s : State) : State :=
  if s.native port && s.get (Reg.LINK_STS.STATE port) == 2 then
    s.sendOs port (.keepalive true true (s.time.ftNs.toNat))
  else s

/-- FENCED_SEND (Table 3.6): in P2 every trained native port sends FENCED with TRANSIT 1; reason 2 for a fatal error or an alarm, 1 for a compute
reset. -/
def fencedSendEff (port : Nat) (s : State) : State :=
  if s.native port && s.get (Reg.LINK_STS.STATE port) == 3 then
    s.sendOs port (.fenced true (if s.boot.needResume then 2 else 1))
  else s

end Sys2Proof.Machine
end

