-- ==== Sys2Proof/Machine/Tx.lean ====
section
/-! DEFINITION. Transmission: the start and the end of a frame at a port, forms at egress, the configuration of ports and of the mesh, the
table banks (03_link_ports.md R52, R59, R84; 04_routing_and_mesh.md R89, R98, R105 to R113; 05 R117, R123, R138). -/

namespace Sys2Proof.Machine

/-! Starting a frame -/

/-- Bytes per 10 ns of a port's sub-port: frame bytes at 100, 50 or 25 per ns (Ethernet) or at 102.4 per ns for four lanes (native). -/
def State.rate10 (s : State) (p : Nat) : Nat :=
  if s.native p then 256 * max 1 (laneCount (s.get (Reg.LINK_STS.ACTIVE p)))
  else 1000 / s.subports p

/-- The number of slots with UNSCHED set among the slots [0, n) of a resource. -/
def State.unschedBefore (s : State) (res n : Nat) : Nat :=
  let cycle := mergedCycle (listsOn s.activeImages res)
  let count (k : Nat) : Nat := ((List.range k).filter (fun i => (s.gateAt res i).2)).length
  if cycle = 1 then (if (s.gateAt res 0).2 then n else 0) else n / cycle * count cycle + count (n % cycle)

/-- The throttle lets classes 4 to 6 start in a slot: the first 16 − t of every 16 consecutive UNSCHED slots, counted from slot 0
(16 R435, log 33). -/
def State.throttleOk (s : State) (res slot : Nat) : Bool :=
  let t := s.get Reg.TALLY_STS.THROTTLE
  t == 0 || s.unschedBefore res slot % 16 < 16 - t

/-- Preemption is active on a sub-port (R59). -/
def State.preemptOn (s : State) (p sub : Nat) : Bool := !s.native p && (s.port p).verified.contains sub

/-- A frame of some length may start now in a class: the class is open, and the frame ends within the open run, except where an
unscheduled frame is preemptable or interleaves by containers (05 R123, 03 R63, log 32). -/
def State.gateOk (s : State) (p sub cls len : Nat) : Bool :=
  let res := resTx p sub
  let slot := s.slot
  let need := ceilDiv (len * 2560) (s.rate10 p)
  let preempt := 4 ≤ cls && (s.native p || (s.preemptOn p sub && !bitAt (s.get (Reg.LINK_CFG.EXPRESS p)) cls))
  s.classOpen res cls slot
    && (preempt || s.ft + need ≤ (slot + s.openRun res cls slot (need / 1280 + 2)) * 1280)
    && (cls < 4 || cls == 7 || s.throttleOk res slot)
    && (cls < 4 || !s.flag Reg.TALLY_STS.CAP_LOW)

/-- The line is free for a class: a native port carries one frame per class; an Ethernet sub-port one frame, which an express frame may
preempt (R59, R63). -/
def State.lineFree (s : State) (p sub cls : Nat) : Bool :=
  if s.native p then (s.port p).txing.all (fun f => f.cls != cls)
  else
    let e := s.get (Reg.LINK_CFG.EXPRESS p)
    (s.port p).txing.all (fun f => f.sub != sub
      || (s.preemptOn p sub && bitAt e cls && !bitAt e f.cls))

/-- The oldest queued frame of a class of a sub-port. -/
def State.headFrame? (s : State) (p sub cls : Nat) : Option Frame :=
  (s.port p).txq.find? (fun f => f.sub == sub && f.cls == cls)

/-- A frame of the class can start now. -/
def State.canStart (s : State) (p sub cls : Nat) : Bool :=
  match s.headFrame? p sub cls with
  | some f => s.usable p f.dst? && s.subUp p sub && s.lineFree p sub cls && (s.port p).paused.getD (subCls sub cls) 0 == 0 && s.gateOk p sub cls f.len
  | none => false

/-- The delay of a frame from queueing to its start, for its class's sampler (18 R477). -/
def State.sampleDelay (s : State) (p sub cls : Nat) (f : Frame) : State :=
  if cls < 4 then s
  else
    let d := (s.time.ftNs.toNat - f.queued.toNat) / 64
    let k := qsmpOff p sub cls
    let q := s.scriv.samplers.getD k {}
    { s with scriv := { s.scriv with samplers := s.scriv.samplers.putD k { q with delay := max q.delay d } {} } }

/-- FRAME_TRANSMIT_START: the oldest frame of the class starts when it can and no class of a lower number can (05 R117); a frame that Table 4.1
does not let out is dropped and counted (R98). -/
def transmitStartEff (p sub cls : Nat) (s : State) : State :=
  match s.headFrame? p sub cls with
  | none => s
  | some f =>
    let pop : State := (s.setPort p { s.port p with txq := (s.port p).txq.erase f }).flowDepth f.flow (-(Int.ofNat f.cells))
    match s.egressForm p f with
    | none => if s.usable p f.dst? then (pop.frameGone f).count Reg.MESH_MODE_DROP.COUNT else s
    | some g =>
      if s.canStart p sub cls && (List.range cls).all (fun c => !s.canStart p sub c) then
        (pop.setPort p { pop.port p with txing := (pop.port p).txing ++ [g] }).sampleDelay p sub cls f
      else s

/-- A bound miss (18 R469): counted while LOCKED and the flow not demoted, reported once per flow and sampler interval; it interrupts the
flow (18 R478). `delay` is in ns. -/
def State.checkBound (s : State) (flow delay : Nat) : State :=
  match flowIn s.activeImages flow with
  | none => s
  | some (i, r) =>
    let rt := s.flowRt flow
    if s.get Reg.TIME_STS.STATE = 2 ∧ rt.demoted = false ∧ r.bound * 5 < delay then
      let s := (s.count Reg.TELEM_BOUND_MISS.COUNT).count (Reg.TELEM_FIT_INT.COUNT 10)
      if rt.missed then s
      else (s.setFlowRt flow { rt with missed := true }).partEvent Ev.boundMissed i.partition
        (leBytes 4 flow ++ leBytes 4 (min (ceilDiv delay 5) 0xFFFFFFFF))
    else s

/-- The end of a frame of a flow: its delay for the sample record and for the bound. -/
def State.flowDone (s : State) (flow : Nat) (arrived : BitVec 64) : State :=
  if flow = 0 then s
  else
    let d := s.time.ftNs.toNat - arrived.toNat
    let rt := s.flowRt flow
    (s.setFlowRt flow { rt with maxDelay := max rt.maxDelay (ceilDiv d 5) }).checkBound flow d

/-- FRAME_TRANSMIT_END: the last byte of the oldest frame in transmission of a class leaves. While the partner pauses the class, a native port starts
no further container of it (03 R69), so the frame does not end. -/
def transmitEndEff (p sub cls : Nat) (s : State) : State :=
  match (s.port p).txing.find? (fun f => f.sub == sub && f.cls == cls) with
  | none => s
  | some f =>
    let x := s.port p
    if s.native p && x.paused.getD (subCls sub cls) 0 != 0 then s else
    let s := s.setPort p { x with txing := x.txing.erase f, txBytes := x.txBytes + f.len }
    ((s.emit (.frame p sub cls f.wire)).frameGone f).flowDone f.flow f.arrived

/-! Port configuration -/

/-- Images whose schedules are active or pending. -/
def State.heldImages (s : State) : List Image := s.sched.act.map (·.2) ++ s.sched.pend.map (·.2)

/-- A port carries a class of an active or pending schedule: a list of such an image opens one on it, or a flow of it enters or may leave by it
(R52, 05 R138). -/
def State.portScheduled (s : State) (p : Nat) : Bool :=
  s.heldImages.any (fun i =>
    i.lists.any (fun l => resKind l.res < 2 && l.res % 64 == p && l.entries.any (fun e => e.sched != 0))
      || i.flows.any (fun f => (resKind f.ingress == 1 && f.ingress % 64 == p)
        || [i.pathOf f false, i.pathOf f true].any (fun q => q.any (fun q => q.toPort && q.egress == p))))

/-- Cells that the flows of some images reserve in a link tile: BUF_IN at the ingress port, BUF_OUT at each egress port (05 R125). -/
def flowCells (imgs : List Image) (tile : Nat) : Nat :=
  imgs.foldl (fun a i => i.flows.foldl (fun a f =>
    let inside (p : Nat) : Bool := p / 16 == tile
    let out (x : Nat) : Nat := match i.paths[x]? with
      | some q => if x != 0xFFFF && q.toPort && inside q.egress then f.bufOut else 0
      | none => 0
    a + (if resKind f.ingress = 1 ∧ inside (f.ingress % 64) = true then f.bufIn else 0) + out f.primary
      + (if f.backup = 0xFFFF then 0 else out f.backup)) a) 0

/-- Cells that the MIN reservations of a tile's classes take, one reservation per sub-port (R84); `f` gives the MIN of a port and class. -/
def State.minCells (s : State) (tile : Nat) (f : Nat → Nat → Nat) : Nat :=
  (List.range 16).foldl (fun a q => (List.range 4).foldl (fun a c => a + 16 * f (16 * tile + q) c * s.subports (16 * tile + q)) a) 0

/-- Cells of a tile's pool (R83), without those of retired blocks (14 Table 14.4). -/
def State.poolCells (s : State) (tile : Nat) : Nat :=
  196608 - 8192 * ((List.range 16).filter (fun q => s.flag (Reg.LINK_CFG.MISS_EN (16 * tile + q)))).length
    - s.memsys.lost.getD tile 0

/-- Cells by which a tile's MIN reservations and admitted reservations exceed its pool. -/
def State.shortCells (s : State) (tile : Nat) : Nat :=
  s.minCells tile (fun q k => s.get (Reg.LINK_BUF_CLASS.MIN q k)) + flowCells s.heldImages tile - s.poolCells tile

/-- A LINK_BUF_CLASS write (R84). -/
def bufClassEff (p c : Nat) (v : Word) (s : State) : State :=
  let tile := p / 16
  let want (q k : Nat) : Nat := if q = p ∧ k = c then wordField v 0 16 else s.get (Reg.LINK_BUF_CLASS.MIN q k)
  if s.poolCells tile < s.minCells tile want + flowCells s.heldImages tile then s.put (Reg.LINK_STS.CFG_REJ p) 1
  else s.applyWrite (Reg.LINK_BUF_CLASS.off p c) v

/-- A LINK_CFG write (R52, R59, R84, 05 R138). -/
def linkCfgEff (p : Nat) (v : Word) (s : State) : State :=
  let old := s.reg (Reg.LINK_CFG.off p)
  let keep3 (lo : Nat) : Nat := if wordField v lo 2 = 3 then wordField old lo 2 else wordField v lo 2
  let changes := wordField v 1 1 ≠ wordField old 1 1 ∨ keep3 2 ≠ wordField old 2 2 ∨ keep3 4 ≠ wordField old 4 2
  let busy := s.portScheduled p
  let now := s.applyWrite (Reg.LINK_CFG.off p) v
  if (changes ∧ (wordField old 0 1 = 1 ∨ busy = true))
      ∨ (wordField old 8 1 = 0 ∧ wordField v 8 1 = 1 ∧ busy = true)
      ∨ s.shortCells (p / 16) < now.shortCells (p / 16) then s.put (Reg.LINK_STS.CFG_REJ p) 1
  else
    let s := if now.flag (Reg.LINK_CFG.PREEMPT_EN p) && !now.native p then now else now.preemptOff p
    if s.flag (Reg.LINK_CFG.ENABLE p) then
      if s.get (Reg.LINK_STS.STATE p) = 0 then s.put (Reg.LINK_STS.STATE p) 1 else s
    else (s.toTraining p).put (Reg.LINK_STS.STATE p) 0

/-! Mesh configuration and table banks -/

/-- A MESH_SELF write (R90). -/
def meshSelfEff (v : Word) (s : State) : State :=
  if s.schedBusy then s.put Reg.MESH_STS.CFG_REJ 1 else s.applyWrite Reg.MESH_SELF.off v

/-- A MESH_CTL write (R109): ARM and DISARM act, the other fields take their values. -/
def meshCtlEff (v : Word) (s : State) : State :=
  let arm := wordField v 0 1 = 1
  let dis := wordField v 1 1 = 1
  let s := s.applyWrite Reg.MESH_CTL.off v
  if arm ∧ dis then s.put Reg.MESH_STS.WR_REJ 1
  else if arm then
    if s.flag Reg.MESH_STS.OLD_RETAINED then s.put Reg.MESH_STS.WR_REJ 1 else s.put Reg.MESH_STS.NEXT_ARMED 1
  else if dis then
    if s.sched.pend.any (fun e => e.2.tableSwitch) then s.put Reg.MESH_STS.WR_REJ 1 else s.put Reg.MESH_STS.NEXT_ARMED 0
  else s

/-- The offset lies in the table banks of the MESH block, at 0x31_0000 + 0x8000 b. -/
def inBanks (off : Nat) : Bool := 0x310000 ≤ off && off < 0x320000

/-- A table write (R110). -/
def tableWriteEff (off : Nat) (v : Word) (s : State) : State :=
  let b := (off - 0x310000) / 0x8000
  let free := b ≠ s.get Reg.MESH_STS.EPOCH ∧ s.flag Reg.MESH_STS.OLD_RETAINED = false ∧ s.flag Reg.MESH_STS.NEXT_ARMED = false
  if !inBanks off then s
  else if free ∨ (b = s.get Reg.MESH_STS.EPOCH ∧ s.schedBusy = false) then s.applyWrite off v
  else s.put Reg.MESH_STS.WR_REJ 1

/-- The table switch of a takeover (R108): EPOCH flips, the bank left is retained, the slot is kept. The bank switched to was armed. -/
def State.tableSwitch (s : State) : State :=
  let s := s.put Reg.MESH_STS.EPOCH (1 - s.get Reg.MESH_STS.EPOCH)
  let s := (s.put Reg.MESH_STS.OLD_RETAINED 1).put Reg.MESH_STS.NEXT_ARMED 0
  (s.put Reg.MESH_SWITCH_SLOT_LO.SLOT (s.slot % 2 ^ 32)).put Reg.MESH_SWITCH_SLOT_HI.SLOT (s.slot / 2 ^ 32)

/-- RETAINED_BANK_RELEASE (R108). -/
def bankReleaseEff (s : State) : State :=
  if s.flag Reg.MESH_STS.OLD_RETAINED && s.get (Reg.MESH_DRAIN.COUNT (1 - s.get Reg.MESH_STS.EPOCH)) == 0 then
    s.put Reg.MESH_STS.OLD_RETAINED 0
  else s

/-- Discard the frames of an epoch that one port holds, but those whose first byte has left: queued ones, those of its miss buffer, and open ELP
frames. -/
def State.drainPort (e : Nat) (s : State) (p : Nat) : State :=
  let x := s.port p
  let s := s.setPort p { x with
    txq := x.txq.filter (fun f => f.epoch != e), txing := x.txing.map (fun f => if f.epoch = e then { f with counted := false } else f)
    missq := x.missq.filter (fun f => f.epoch != e), rxOpen := x.rxOpen.filter (fun o => o.2.1 != e) }
  let s := (x.txq.filter (fun f => f.epoch == e)).foldl (fun s f => (s.unqueued f).count Reg.MESH_DRAIN_DROP.COUNT) s
  let s := (x.missq.filter (fun f => f.epoch == e)).foldl (fun s f => (s.pktGone f).count Reg.MESH_DRAIN_DROP.COUNT) s
  let s := s.missRelease p
  (x.rxOpen.filter (fun o => o.2.1 == e)).foldl (fun s _ => (s.leave e).count Reg.MESH_DRAIN_DROP.COUNT) s

/-- Discard the frames of an epoch on the mesh and on their way to endpoints and stage cores. -/
def State.drainInside (s : State) (e : Nat) : State :=
  let cs := s.mesh.crossings.filter (fun x => x.frame.epoch == e)
  let rs := s.rxq.filter (fun x => x.epoch == e)
  let ss := s.stageIn.filter (fun x => x.epoch == e)
  let s := { s with mesh := { s.mesh with crossings := s.mesh.crossings.filter (fun x => x.frame.epoch != e) }
                    rxq := s.rxq.filter (fun x => x.epoch != e), stageIn := s.stageIn.filter (fun x => x.epoch != e) }
  let s := cs.foldl (fun s x => ((s.pinOff x.pin).frameGone x.frame).count Reg.MESH_DRAIN_DROP.COUNT) s
  let s := rs.foldl (fun s x => (s.pktGone x).count Reg.MESH_DRAIN_DROP.COUNT) s
  ss.foldl (fun s x => (s.frameGone x.frame).count Reg.MESH_DRAIN_DROP.COUNT) s

/-- DRAIN_LIMIT_EXPIRY (R108): old-epoch frames whose first byte has not left are discarded and counted, the counter is forced to 0, the
bank released. -/
def drainLimitEff (s : State) : State :=
  if s.flag Reg.MESH_STS.OLD_RETAINED then
    let e := 1 - s.get Reg.MESH_STS.EPOCH
    let s := ((List.range 64).foldl (State.drainPort e) s).drainInside e
    (s.put (Reg.MESH_DRAIN.COUNT e) 0).put Reg.MESH_STS.OLD_RETAINED 0
  else s

/-- The merged cycle that times a flow's return (R113): of its primary egress sub-port's transmit list, or of the list of END. -/
def State.returnCycle (s : State) (p : PathRec) : Nat :=
  mergedCycle (listsOn s.activeImages (if p.toPort then resTx p.egress p.subport else p.endRes))

/-- FLOW_RETURN_PRIMARY (R113), for the flows of the kept tables too. -/
def flowReturnEff (flow : Nat) (s : State) : State :=
  match flowIn (s.activeImages ++ s.sched.kept) flow with
  | none => s
  | some (i, r) =>
    let rt := s.flowRt flow
    match i.pathOf r false with
    | none => s
    | some p =>
      if rt.onBackup && rt.backupFrames == 0 && !s.pathBlocked p (s.flowCls r) && s.slot % s.returnCycle p == 0 then
        s.setFlowRt flow { rt with onBackup := false }
      else s

end Sys2Proof.Machine
end

