-- ==== Sys2Proof/Machine/Lanes.lean ====
section
/-! DEFINITION. The Farrier and the lane-change handshake (03_link_ports.md R74 to R82, R497). -/

namespace Sys2Proof.Machine

/-! Spares -/

/-- The physical lane of a port lane index (LINK_LANE_MAP). -/
def laneField (p i : Nat) : Fld :=
  match i with
  | 0 => Reg.LINK_LANE_MAP.LANE0 p
  | 1 => Reg.LINK_LANE_MAP.LANE1 p
  | 2 => Reg.LINK_LANE_MAP.LANE2 p
  | _ => Reg.LINK_LANE_MAP.LANE3 p

/-- The state of one lane index of a port. -/
def State.lane (s : State) (p i : Nat) : Lane := (s.port p).lanes.getD i {}

/-- Change the state of one lane index. -/
def State.setLane (s : State) (p i : Nat) (l : Lane) : State :=
  s.setPort p { s.port p with lanes := (s.port p).lanes.putD i l {} }

/-- A physical lane of a tile serves a lane index, as its lane, a shadow or in training. -/
def State.laneUsed (s : State) (tile phys : Nat) : Bool :=
  (List.range 16).any (fun q => (List.range 4).any (fun i =>
    let p := 16 * tile + q
    s.get (laneField p i) == phys || (s.lane p i).shadow == some phys || (s.lane p i).training == some phys))

/-- The lowest-numbered unfenced and unused spare of a tile, L64 to L67 (R75). -/
def State.spareLane? (s : State) (tile : Nat) : Option Nat :=
  [64, 65, 66, 67].find? (fun l => !s.disabled ⟨.lane, tile, l⟩ && !s.laneUsed tile l)

/-- The spare that may replace a lane of a port, where substitution is enabled. -/
def State.spareFor (s : State) (p : Nat) : Option Nat :=
  if s.flag (Reg.LINK_CFG.SPARE_EN p) then s.spareLane? (p / 16) else none

/-- FARRIER_WINDOW (R74, R76): the third window in a row above the threshold degrades and fences the lane, and a spare is attached in
parallel where one remains (R78). -/
def farrierEff (p i serExp : Nat) (s : State) : State :=
  if !s.linkOn p || !(!s.native p || bitAt (s.get (Reg.LINK_STS.ACTIVE p)) i) then s
  else
    let s := s.put (Reg.LINK_LANE_HEALTH.SER_EXP p i) serExp
    let l := s.lane p i
    let n := if serExp < s.get (Reg.LINK_LANE_CTL.DEG_EXP p) then l.bad + 1 else 0
    let s := s.setLane p i { l with bad := min n 3 }
    if 3 ≤ n ∧ s.flag (Reg.LINK_LANE_HEALTH.DEGRADED p i) = false then
      let s := s.put (Reg.LINK_LANE_HEALTH.DEGRADED p i) 1
      let s := s.fence 4 [⟨.lane, p / 16, s.get (laneField p i)⟩]
      match s.spareFor p with
      | some sp => (s.setLane p i { s.lane p i with shadow := some sp }).put (Reg.LINK_LANE_HEALTH.SHADOW p i) 1
      | none => s
    else s

/-- SPARE_ADAPTED (R76): the spare is swapped in; the port lane index keeps its number. -/
def spareAdaptedEff (p i : Nat) (s : State) : State :=
  match (s.lane p i).shadow with
  | none => s
  | some sp =>
    let s := (s.put (laneField p i) sp).setLane p i { s.lane p i with shadow := none, bad := 0 }
    (s.put (Reg.LINK_LANE_HEALTH.SHADOW p i) 0).put (Reg.LINK_LANE_HEALTH.DEGRADED p i) 0

/-! What lane changes a port needs (R77, R81) -/

/-- The lane change a native port needs: failed lanes leave the mask (HARD_FAIL); else lanes whose spare has trained come back (SPARE_RESTORE). -/
def State.laneNeed (s : State) (p : Nat) : Option (Nat × Nat) :=
  let act := s.get (Reg.LINK_STS.ACTIVE p)
  let bad := (s.failedLanes p).filter (bitAt act)
  let back := (s.port p).restore.filter (fun i => !bitAt act i)
  if !bad.isEmpty then some (bad.foldl (fun m i => setBits m i 1 0) act, 3)
  else if !back.isEmpty then some (back.foldl (fun m i => setBits m i 1 1) act, 2)
  else none

/-- Ask for the lane change the port needs; one request is outstanding per port (R81), so it waits for the one in progress. -/
def State.askLanes (s : State) (p : Nat) : State :=
  if (s.port p).req.isSome || (s.port p).change.isSome then s
  else match s.laneNeed p with
    | some (mask, reason) => s.laneRequest p mask reason
    | none => s

/-- LANE_FAILURE (R74, R77): the lane is fenced; a spare goes into training, the lane's own shadow being free again; a native port asks for a mask
without the lane, an Ethernet port goes down. A native port that has no other active lane has no mask to ask for and retrains
(DESIGN CHOICE, log 137). -/
def laneFailureEff (p i : Nat) (s : State) : State :=
  let act := s.get (Reg.LINK_STS.ACTIVE p)
  if !s.linkOn p || s.flag (Reg.LINK_LANE_HEALTH.FAILED p i) || (s.native p && !bitAt act i) then s
  else
    let s := s.put (Reg.LINK_LANE_HEALTH.FAILED p i) 1
    let s := s.fence 4 [⟨.lane, p / 16, s.get (laneField p i)⟩]
    let s := (s.setLane p i { s.lane p i with shadow := none }).put (Reg.LINK_LANE_HEALTH.SHADOW p i) 0
    let s := s.setLane p i { s.lane p i with training := s.spareFor p }
    if s.native p then
      let x := s.port p
      let s := s.setPort p { x with trained := setBits x.trained i 1 0, restore := x.restore.filter (· != i) }
      if (setBitsOf act 4).all (s.failedLanes p).contains then s.toTraining p else s.askLanes p
    else pcsDownEff p s

/-- SPARE_TRAINED (R77): the spare takes the lane index; a native port asks for the lane back. -/
def spareTrainedEff (p i : Nat) (s : State) : State :=
  match (s.lane p i).training with
  | none => s
  | some sp =>
    let s := (s.put (laneField p i) sp).setLane p i { s.lane p i with training := none, bad := 0 }
    let s := (s.put (Reg.LINK_LANE_HEALTH.FAILED p i) 0).put (Reg.LINK_LANE_HEALTH.DEGRADED p i) 0
    if s.native p && s.linkOn p then
      let x := s.port p
      (s.setPort p { x with trained := setBits x.trained i 1 1, restore := addTo x.restore i }).askLanes p
    else s

/-! The handshake (R80, R81, R497) -/

/-- The mask is allowed for the reason (R81). -/
def maskAllowed (mask reason : Nat) : Bool :=
  if reason < 2 then mask == 1 || mask == 3 || mask == 15 else mask != 0

/-- Answer a request that does not collide with one of this side. -/
def State.answerLaneReq (s : State) (p id mask reason e : Nat) : State :=
  let x := s.port p
  if x.change.isSome then s.sendOs p (.laneNak id 3)
  else if !maskAllowed mask reason then s.sendOs p (.laneNak id 1)
  else if (setBitsOf mask 4).any (fun i => !bitAt x.trained i) then s.sendOs p (.laneNak id 2)
  else (s.setPort p { x with change := some { id := id, mask := mask, reason := reason, effective := e } }).sendOs p (.laneAck id mask e)

/-- LANE_REQ_RECEIVE: a collision is resolved by priority, then by the lower sender address (R81). -/
def laneReqReceiveEff (p : Nat) (copies : List (List Byte)) (s : State) : State :=
  s.withOs p copies (fun s fca o => match o with
    | .laneReq id mask reason e =>
      let s := s.markLive p
      match (s.port p).req with
      | some r =>
        if r.reason < reason ∨ (r.reason = reason ∧ fca < s.selfFca) then
          ((s.setPort p { s.port p with req := none }).answerLaneReq p id mask reason e).askLanes p
        else s
      | none => s.answerLaneReq p id mask reason e
    | _ => s)

/-- LANE_ACK_RECEIVE: the requested change is agreed. -/
def laneAckReceiveEff (p : Nat) (copies : List (List Byte)) (s : State) : State :=
  s.withOs p copies (fun s _ o => match o with
    | .laneAck id mask e =>
      let s := s.markLive p
      match (s.port p).req with
      | some r =>
        if r.id = id ∧ r.mask = mask ∧ r.effective = e then
          s.setPort p { s.port p with req := none, change := some { id := id, mask := mask, reason := r.reason, effective := e } }
        else s
      | none => s
    | _ => s)

/-- LANE_NAK_RECEIVE: the refused request has no LANE_ACK to come, so the retries of LANE_REQ_TIMEOUT follow at E − 2 (R80, log 27). -/
def laneNakReceiveEff (p : Nat) (copies : List (List Byte)) (s : State) : State :=
  s.withOs p copies (fun s _ o => match o with
    | .laneNak id cause =>
      let s := s.markLive p
      match (s.port p).req with
      | some r => if r.id = id then s.setPort p { s.port p with req := some { r with nak := cause } } else s
      | none => s
    | _ => s)

/-- LANE_REQ_TIMEOUT: a new request up to three retries, for the mask the port needs by now; after them the old mask stays, or the port retrains
for HARD_FAIL. -/
def laneReqTimeoutEff (p : Nat) (s : State) : State :=
  match (s.port p).req with
  | none => s
  | some r =>
    if r.retries < 3 then
      let (mask, reason) := if r.reason < 2 then (r.mask, r.reason) else (s.laneNeed p).getD (r.mask, r.reason)
      s.laneRequest p mask reason (r.retries + 1)
    else if r.reason = 3 then
      let m := s.get (Reg.LINK_STS.ACTIVE p)
      let t := (s.port p).trained
      let s := s.toTraining p
      s.setPort p { s.port p with preMask := some m, trained := t }
    else
      let x := s.port p
      (s.setPort p { x with req := none, restore := if r.reason = 2 then [] else x.restore }).askLanes p

/-- Mark a port lowered, or no longer (16 R443). -/
def State.setLowered (s : State) (p : Nat) (b : Bool) : State :=
  if p < 32 then s.put (Reg.TALLY_LOWERED_LO.PORTS_LO.bit p) (b2n b) else s.put (Reg.TALLY_LOWERED_HI.PORTS_HI.bit (p - 32)) (b2n b)

/-- LANE_MASK_SWITCH: containers are dealt over the new mask from period E; ACTIVE shows it. -/
def laneSwitchEff (p : Nat) (s : State) : State :=
  match (s.port p).change with
  | none => s
  | some c =>
    if c.switched then s
    else
      let s := s.setPort p { s.port p with change := some { c with switched := true } }
      let s := s.put (Reg.LINK_STS.ACTIVE p) c.mask
      let s := s.setPort p { s.port p with restore := (s.port p).restore.filter (fun i => !bitAt c.mask i) }
      let s := if c.reason = 0 then s.setLowered p true else if c.reason = 1 ∧ c.mask = 15 then s.setLowered p false else s
      s.refreshBackups

/-- The change completes once this side has sent LANE_DONE and received the partner's (R497). -/
def State.laneComplete (s : State) (p : Nat) (c : LaneChange) : State :=
  if c.sentDone && c.gotDone then
    let s := s.setPort p { s.port p with change := none }
    ((s.put (Reg.LINK_STS.LANE_EVT p) 1).event Ev.laneChanged (leBytes 1 p ++ leBytes 1 c.mask ++ leBytes 1 c.reason)).askLanes p
  else s.setPort p { s.port p with change := some c }

/-- LANE_DONE_SEND. -/
def laneDoneSendEff (p : Nat) (s : State) : State :=
  match (s.port p).change with
  | some c => if c.switched && !c.sentDone then (s.sendOs p (.laneDone c.id c.mask)).laneComplete p { c with sentDone := true } else s
  | none => s

/-- LANE_DONE_RECEIVE. -/
def laneDoneReceiveEff (p : Nat) (copies : List (List Byte)) (s : State) : State :=
  s.withOs p copies (fun s _ o => match o with
    | .laneDone id _ =>
      let s := s.markLive p
      match (s.port p).change with
      | some c => if c.id = id then s.laneComplete p { c with gotDone := true } else s
      | none => s
    | _ => s)

/-- A native port in TRAINING returns to UP (FENCED where the device is in P2) with a mask; a mask other than the one before an abandoned HARD_FAIL
request raises LANE_CHANGED (R497). -/
def State.nativeUp (s : State) (p mask : Nat) : State :=
  let s := (s.put (Reg.LINK_STS.STATE p) (if s.inP2 then 3 else 2)).put (Reg.LINK_STS.ACTIVE p) mask
  let pre := (s.port p).preMask
  let s := s.setPort p { s.port p with trained := mask, preMask := none }
  match pre with
  | some m =>
    if m ≠ mask then (s.put (Reg.LINK_STS.LANE_EVT p) 1).event Ev.laneChanged (leBytes 1 p ++ leBytes 1 mask ++ leBytes 1 3) else s
  | none => s

/-- PORT_TRAINED: a port in TRAINING returns to UP, an Ethernet port with the sub-ports whose lanes have all trained (R53, R78). -/
def portTrainedEff (p : Nat) (mask : Nat) (s : State) : State :=
  if s.get (Reg.LINK_STS.STATE p) ≠ 1 ∨ mask = 0 then s
  else
    let s := s.setLowered p false
    (if s.native p then s.nativeUp p mask else s.ethUp p mask).refreshBackups

end Sys2Proof.Machine
end

