-- ==== Sys2Proof/Machine/Memory.lean ====
section
/-! DEFINITION. The memories behind the device and the checks each makes: device DDR by regions and system ranges, scratchpads, host memory
by apertures (07_memory_windows.md R176, R183, R184, R496; 09 R249; 14_memory_system.md R385 to R397). -/

namespace Sys2Proof.Machine

/-- How a memory turns a request away: the CID check failed, the data is uncorrectable or its set FAILED, or the request waits (a fill,
a host that cannot be reached). -/
inductive MemErr where
  | cid | ue | wait
  deriving DecidableEq, Repr

/-- What a host's memory holds at this moment, as read completions return it, and which of them carry EP (08 R207). -/
def State.see (s : State) (seen : Seen) : State :=
  { seen.foldl (fun s e => s.keepHost e.host e.addr e.bytes) s with
    poisoned := (seen.filter (·.ep)).map (fun e => (e.host, e.addr, e.bytes.length)) }

/-- Partition of a CID. -/
def cidPart (cid : Nat) : Nat := cid / 1024

/-- Instance of a CID. -/
def cidInst (cid : Nat) : Nat := cid % 1024

/-- A range [a, a + n) lies inside [b, b + m). -/
def within (a n b m : Nat) : Bool := b ≤ a && a + n ≤ b + m

/-- Two ranges share a byte. -/
def overlap (a n b m : Nat) : Bool := n != 0 && m != 0 && a < b + m && b < a + n

/-! Cores -/

/-- A logical core. -/
def State.core (s : State) (c : Nat) : Core := s.cores.getD c {}

/-- Change a logical core. -/
def State.setCore (s : State) (c : Nat) (x : Core) : State := { s with cores := s.cores.putD c x {} }

/-- The partitions whose PART_CORES masks hold a logical core: at most one (09 R247). -/
def State.coreOwner? (s : State) (c : Nat) : Option Nat :=
  s.regs.findSome? (fun e =>
    let o := e.1 - 0x90000
    if 0x90000 ≤ e.1 && e.1 < 0x98000 && o % 0x200 / 8 == c / 64 && o / 4 % 2 == c % 64 / 32 && e.2.getLsbD (c % 32) then
      some (o / 0x200)
    else none)

/-- A range of a core's scratchpad touches its secure region (10 R275). -/
def State.touchesSecure (s : State) (c off n : Nat) : Bool :=
  s.flag (Reg.CLUSTER_CORE_STS.SECURE (c / 64) (c % 64)) && overlap off n 0x2C000 0x4000

/-- A range of a core's scratchpad touches its code region (10 R276). -/
def State.touchesCode (s : State) (c off n : Nat) : Bool := overlap off n (s.core c).codeAt (s.core c).codeLen

/-! Device DDR -/

/-- An interleave set (R385): its base and size in bytes, its channels, its slice, its state. -/
structure DdrSet where
  base : Nat
  size : Nat
  channels : Nat
  slice : Nat
  state : Nat
  deriving DecidableEq, Repr

/-- The interleave sets as their registers show them. -/
def State.ddrSet (s : State) (i : Nat) : DdrSet :=
  let ch := s.get (Reg.MEM_SET_W0.CHANNELS i)
  let slice := s.get (Reg.MEM_SET_W1.SLICE_GIB i) * 2 ^ 30
  { base := s.get (Reg.MEM_SET_W1.BASE_GIB i) * 2 ^ 30, size := slice * popCount ch 16, channels := ch, slice := slice
    state := s.get (Reg.MEM_SET_W0.STATE i) }

/-- The set that holds an address, and whether it is UP (true) or FAILED (false); none outside every set. -/
def State.setAt (s : State) (a n : Nat) : Option (Nat × Bool) :=
  [0, 1].findSome? (fun i =>
    let d := s.ddrSet i
    if d.state != 0 && within a n d.base d.size then some (i, d.state == 1) else none)

/-- The channel, subchannel and channel offset of an address (R386). -/
def State.ddrPlace (s : State) (a : Nat) : Option (Nat × Nat × Nat) :=
  [0, 1].findSome? (fun i =>
    let d := s.ddrSet i
    if d.state != 0 && within a 1 d.base d.size then
      let x := a - d.base
      let g := x / 4096
      let chs := setBitsOf d.channels 16
      let off := g / chs.length * 4096 + x % 4096 + (if i = 1 then 2 ^ 36 else 0)
      some (chs.getD (g % chs.length) 0, off / 64 % 2, off)
    else none)

/-- The memory at an address grants a request that belongs to no scheduled flow: device DDR does in the slots that the throttle leaves its channel, and not
while the power cap is asserted (16 R435, R437). -/
def State.ddrGrant (s : State) (space a : Nat) : Bool :=
  space != 1 || (!s.flag Reg.TALLY_STS.CAP_LOW && (s.ddrPlace a).all (fun c => s.throttleOk (0x7000 + c.1) s.slot))

/-- One entry of the region table (R395), sizes in bytes. -/
structure Region where
  index : Nat
  base : Nat
  size : Nat
  part : Nat
  inst : Nat
  bound : Bool
  fill : Bool
  deriving DecidableEq, Repr

/-- The entry r of the region table, as its registers hold it. -/
def State.region (s : State) (r : Nat) : Region :=
  { index := r, base := s.get (Reg.MEM_REG_W0.BASE_MIB r) * 2 ^ 20, size := s.get (Reg.MEM_REG_W1.SIZE_MIB r) * 2 ^ 20
    part := s.get (Reg.MEM_REG_W2.PARTITION r), inst := s.get (Reg.MEM_REG_W2.INSTANCE r), bound := s.flag (Reg.MEM_REG_W2.BOUND r)
    fill := s.flag (Reg.MEM_REG_W3.FILL r) }

/-- The valid entries of the region table. -/
def State.regions (s : State) : List Region :=
  s.regs.filterMap (fun e =>
    if 0x520000 ≤ e.1 && e.1 < 0x522000 && e.1 % 16 == 8 && e.2.getLsbD 31 then some (s.region ((e.1 - 0x520000) / 16)) else none)

/-- The present system ranges of device DDR (Table 14.5), as base and size in bytes. -/
def State.systemRanges (s : State) : List (Nat × Nat) :=
  [(s.pair Reg.KENNEL_T1_BASE_LO.ADDR_LO Reg.KENNEL_T1_BASE_HI.ADDR_HI, s.get Reg.KENNEL_T1_SIZE.UNITS * 2 ^ 20),
   (s.pair Reg.SHEEP_PARK_BASE_LO.ADDR_LO Reg.SHEEP_PARK_BASE_HI.ADDR_HI, s.get Reg.SHEEP_PARK_SIZE.UNITS * 2 ^ 20),
   (s.pair Reg.HOSTIF_QT_BASE_LO.ADDR_LO Reg.HOSTIF_QT_BASE_HI.ADDR_HI, s.get Reg.HOSTIF_QT_CTL.ENABLE * 2 ^ 25),
   (s.pair Reg.HOSTIF_SHADOW_BASE_LO.ADDR_LO Reg.HOSTIF_SHADOW_BASE_HI.ADDR_HI, s.get Reg.HOSTIF_SHADOW_SIZE.UNITS * 2 ^ 20),
   (s.pair Reg.MEM_RSPILL_BASE_LO.ADDR_LO Reg.MEM_RSPILL_BASE_HI.ADDR_HI, s.get Reg.MEM_RSPILL_SIZE.MIB * 2 ^ 20),
   (s.pair Reg.MEM_IMG_BASE_LO.ADDR_LO Reg.MEM_IMG_BASE_HI.ADDR_HI, s.get Reg.MEM_IMG_SIZE.MIB * 2 ^ 20)].filter (fun r => r.2 != 0)

/-- The check of a tenant request to device DDR (R385, R393, R395, R397). -/
def State.ddrCheck (s : State) (cid a n : Nat) : Except MemErr Unit :=
  match s.setAt a (max n 1) with
  | none => .error .cid
  | some (_, up) =>
    match s.regions.find? (fun r => within a n r.base r.size && r.part == cidPart cid
        && (!r.bound || cidInst cid == r.inst || cidInst cid == 0x3FF)) with
    | none => .error .cid
    | some r =>
      if s.systemRanges.any (fun x => overlap a n x.1 x.2) then .error .cid
      else if !up then .error .ue
      else if r.fill then .error .wait
      else .ok ()

/-- The check of a system-marked request to device DDR (R184, R393). -/
def State.sysCheck (s : State) (a n : Nat) : Except MemErr Unit :=
  if !s.systemRanges.any (fun x => within a n x.1 x.2) then .error .cid
  else match s.setAt a (max n 1) with
    | none => .error .cid
    | some (_, up) => if up then .ok () else .error .ue

/-- A range lies wholly inside one DDR region of a partition. -/
def State.inRegion (s : State) (p a n : Nat) : Bool := s.regions.any (fun r => r.part == p && within a n r.base r.size)

/-- The 64-byte lines a range touches. -/
def linesOf (a n : Nat) : List Nat := (List.range ((a + n + 63) / 64 - a / 64)).map (· + a / 64)

/-- A read finds a line uncorrectable: counted, its address kept, located by DDR_UE (R390, 18 Table 18.2). -/
def State.reportUe (s : State) (line : Nat) (scrub : Bool) : State :=
  let a := line * 64
  match s.ddrPlace a with
  | none => s
  | some (c, _, _) =>
    let s := if scrub then s else s.count (Reg.MEM_CH_UE.COUNT c)
    let s := (s.put (Reg.MEM_CH_UE_ADDR_LO.ADDR_LO c) a).put (Reg.MEM_CH_UE_ADDR_HI.ADDR_HI c) (a / 2 ^ 32)
    let s := s.put (Reg.MEM_CH_UE_ADDR_HI.SCRUB c) (b2n scrub)
    let s := s.count (Reg.TELEM_FIT_FAIL.COUNT 3)
    s.event Ev.ddrUe (leBytes 1 c ++ leBytes 1 (b2n scrub) ++ [0, 0] ++ leBytes 6 a)

/-- Read device DDR after its check: an uncorrectable line fails the whole request (R390). -/
def State.ddrRead (s : State) (a n : Nat) : State × Except MemErr (List Byte) :=
  match (linesOf a n).find? s.ddrBad.contains with
  | some l => (s.reportUe l false, .error .ue)
  | none => (s, .ok (memRead s.ddr a n))

/-- Write device DDR after its check: a partly covered uncorrectable line makes it write nothing; a wholly covered line is made good
(R390). -/
def State.ddrWrite (s : State) (a : Nat) (bs : List Byte) : State × Except MemErr Unit :=
  let n := bs.length
  match (linesOf a n).find? (fun l => s.ddrBad.contains l && !within (64 * l) 64 a n) with
  | some l => (s.reportUe l false, .error .ue)
  | none => ({ s with ddr := memWrite s.ddr a bs, ddrBad := s.ddrBad.filter (fun l => !within (64 * l) 64 a n) }, .ok ())

/-! Host memory -/

/-- Aperture n of a partition, if valid: base and last byte (09 R249). -/
def State.aperture? (s : State) (p n : Nat) : Option (Nat × Nat) :=
  if s.flag (Reg.PART_APT_BASE_LO.VALID p n) then
    some (s.pair (Reg.PART_APT_BASE_LO.BASE_LO p n) (Reg.PART_APT_BASE_HI.BASE_HI p n),
          s.pair (Reg.PART_APT_LIMIT_LO.LIMIT_LO p n) (Reg.PART_APT_LIMIT_HI.LIMIT_HI p n) + 0xFFF)
  else none

/-- A range lies wholly inside one host aperture of a partition. -/
def State.inAperture (s : State) (p a n : Nat) : Bool :=
  (List.range 8).any (fun i => match s.aperture? p i with
    | some (b, l) => b ≤ a && a + n ≤ l + 1
    | none => false)

/-- A host's memory can be reached (08 R209, R208). -/
def State.hostReach (s : State) (h : HostId) : Bool := s.hostUp h && !(s.host h).d3hot

/-- A host's memory serves work: it can be reached, and its host is not lost (09 R257). -/
def State.hostServes (s : State) (h : HostId) : Bool := s.hostReach h && !s.hostLost h

/-- The check of a tenant request to host memory: inside an aperture, on the owner's port, which can be reached, and whose host is not lost (R183, R209,
09 R257). -/
def State.hostCheck (s : State) (cid a n : Nat) : Except MemErr Unit :=
  let p := cidPart cid
  if s.pstate p = 0 ∨ s.inAperture p a n = false then .error .cid
  else if s.hostServes (s.owner p) then .ok ()
  else .error .wait

/-! One request -/

/-- The check of a scratchpad access over the mesh: one core of the partition, below 0x3_0000, off its secure region (Table 7.4), and for a
write off its code region (10 R276). A partition core of a gated cluster waits until the cluster has ungated (16 R434). -/
def State.spadCheck (s : State) (cid a n : Nat) (write : Bool) : Except MemErr Unit :=
  let c := bits a 18 12
  let off := a % 2 ^ 18
  if 2 ^ 30 ≤ a ∨ 0x30000 < off + n ∨ s.coreOwner? c ≠ some (cidPart cid) ∨ s.touchesSecure c off n = true
      ∨ (write = true ∧ s.touchesCode c off n = true) then .error .cid
  else if s.gated (c / 64) && 8 ≤ c % 64 then .error .wait
  else .ok ()

/-- The check at the serving memory, space 0 host, 1 DDR, 2 scratchpad (Table 7.4). -/
def State.memCheck (s : State) (cid space a n : Nat) (write : Bool) : Except MemErr Unit :=
  match space with
  | 0 => s.hostCheck cid a n
  | 1 => s.ddrCheck cid a n
  | 2 => s.spadCheck cid a n write
  | _ => .error .cid

/-- Count a refusal at a memory (R183). -/
def State.cidRefused (s : State) (cid : Nat) (e : MemErr) : State :=
  if e = .cid then s.count (Reg.PART_CID_REJ.COUNT (cidPart cid)) else s

/-- A read of host memory whose completion carried EP (08 R207). -/
def State.hostBad (s : State) (h : HostId) (a n : Nat) : Bool := s.poisoned.any (fun e => e.1 == h && overlap a n e.2.1 e.2.2)

/-- Read n bytes with a CID. -/
def State.memReadC (s : State) (cid space a n : Nat) : State × Except MemErr (List Byte) :=
  match s.memCheck cid space a n false with
  | .error e => (s.cidRefused cid e, .error e)
  | .ok _ =>
    match space with
    | 0 =>
      let h := s.owner (cidPart cid)
      if s.hostBad h a n then (s, .error .ue) else (s, .ok (memRead (s.hostMem h) a n))
    | 1 => s.ddrRead a n
    | _ => (s, .ok (memRead (s.core (bits a 18 12)).spad (a % 2 ^ 18) n))

/-- Write bytes with a CID. A write to host memory carries Relaxed Ordering where RO_EN permits it and it is no flag (08 R207). -/
def State.memWriteC (s : State) (cid space a : Nat) (bs : List Byte) (flag : Bool := false) : State × Except MemErr Unit :=
  match s.memCheck cid space a bs.length true with
  | .error e => (s.cidRefused cid e, .error e)
  | .ok _ =>
    match space with
    | 0 =>
      let h := s.owner (cidPart cid)
      (s.writeHost h a bs (!flag && s.flag (Reg.HOSTIF_PORT_CTL.RO_EN h)), .ok ())
    | 1 => s.ddrWrite a bs
    | _ =>
      let c := bits a 18 12
      (s.setCore c { s.core c with spad := memWrite (s.core c).spad (a % 2 ^ 18) bs }, .ok ())

/-- A system-marked read of device DDR. -/
def State.sysRead (s : State) (a n : Nat) : State × Except MemErr (List Byte) :=
  match s.sysCheck a n with
  | .error e => (s, .error e)
  | .ok _ => s.ddrRead a n

/-- A system-marked write of device DDR; nothing where it is refused. -/
def State.sysWrite (s : State) (a : Nat) (bs : List Byte) : State :=
  match s.sysCheck a bs.length with
  | .error _ => s
  | .ok _ => (s.ddrWrite a bs).1

/-- Bytes of a host's memory. -/
def State.hostRead (s : State) (h : HostId) (a n : Nat) : List Byte := memRead (s.hostMem h) a n

end Sys2Proof.Machine
end

