-- ==== Sys2Proof/Machine/Queues.lean ====
section
/-! DEFINITION. Work and completion queues: positions, doorbells, fetching, completion entries, interrupts, trigger increments
(08_host_interface_and_work_queues.md R216 to R226, R234 to R237; 07 R200, R204). -/

namespace Sys2Proof.Machine

/-! Rings and positions (R220) -/

/-- Slots of a ring. -/
def Queue.size (q : Queue) : Nat := 2 ^ q.log2

/-- Positions of a ring. -/
def Queue.span (q : Queue) : Nat := 255 * q.size

/-- The position of a slot and generation. -/
def Queue.pos (q : Queue) (slot gen : Nat) : Nat := (gen - 1) * q.size + slot

/-- The slot of a position. -/
def Queue.slotOf (q : Queue) (p : Nat) : Nat := p % q.size

/-- The generation of a position. -/
def Queue.genOf (q : Queue) (p : Nat) : Nat := p / q.size + 1

/-- The distance from one position forward to another. -/
def Queue.dist (q : Queue) (a b : Nat) : Nat := (b + q.span - a) % q.span

/-- The position some slots on. -/
def Queue.step (q : Queue) (a n : Nat) : Nat := (a + n) % q.span

/-- Bytes of an entry of the ring. -/
def Queue.entrySize (q : Queue) : Nat := if q.type = 2 then 32 else 64

/-- The address of a position's slot. -/
def Queue.addr (q : Queue) (p : Nat) : Nat := q.base + q.entrySize * q.slotOf p

/-- A queue that exists. -/
def State.queue? (s : State) (n : Nat) : Option Queue := s.queues.at? n

/-- Change a queue. -/
def State.setQueue (s : State) (n : Nat) (q : Queue) : State := { s with queues := s.queues.set n q }

/-- The queue pair whose context names a work queue (R219). -/
def State.qpOfQueue? (s : State) (n : Nat) : Option Qp :=
  s.qps.findSome? (fun e => if n != 0 && (e.2.ctx.sq == n || e.2.ctx.rq == n) then some e.2 else none)

/-! Trigger slots (07 R200, R202, R204) -/

/-- A trigger slot. -/
def State.trig (s : State) (i : Nat) : TrigSlot := s.trigs.getD i {}

/-- Change a trigger slot. -/
def State.setTrig (s : State) (i : Nat) (t : TrigSlot) : State := { s with trigs := s.trigs.putD i t {} }

/-- A trigger slot lies in a partition's range. -/
def State.trigOf (s : State) (p i : Nat) : Bool := within i 1 (s.get (Reg.TRIG_BASE.BASE p)) (s.get (Reg.TRIG_NUM.NUM p))

/-- Increment a slot of a generation, or count the increment as stale. -/
def State.trigInc (s : State) (p i gen : Nat) : State :=
  let t := s.trig i
  if s.trigOf p i && t.gen == gen then s.setTrig i { t with count := min (t.count + 1) 0xFFFFFF }
  else s.count (Reg.TRIG_STALE.COUNT p)

/-! Completion queues -/

/-- Positions written and not yet read. -/
def Queue.unread (q : Queue) : Nat := q.dist q.read q.write

/-- No room: the ring is full, or completions already wait (R235). -/
def Queue.full (q : Queue) : Bool := q.size ≤ q.unread || !q.waiting.isEmpty

/-- Raise an armed queue's vector and disarm it (R237). -/
def State.raiseCq (s : State) (n : Nat) (q : Queue) : State :=
  (s.setQueue n { q with armed := false, since := 0 }).vector (s.owner (cidPart q.cid)) q.vector

/-- Write one completion at W, GEN last (R234, R235), and count towards the interrupt (R237). A ring that turns the write away takes
nothing. -/
def State.cqWrite (s : State) (n : Nat) (q : Queue) (bytes : List Byte) : State × Bool :=
  let bs := bytes.take 31 ++ leBytes 1 (q.genOf q.write)
  match s.memWriteC q.cid q.space (q.addr q.write) bs true with
  | (s, .error .wait) => (s, false)
  | (s, _) =>
    let q := { q with write := q.step q.write 1, since := if q.armed then q.since + 1 else 0 }
    let s := s.setQueue n q
    let s := if q.unread = q.size then s.count (Reg.HOSTIF_CQ_FULL.COUNT (s.owner (cidPart q.cid))) else s
    (if q.armed && (max 1 q.modCount ≤ q.since || q.modTime == 0) then s.raiseCq n q else s, true)

/-- Write waiting completions while the ring has room; the fuel bounds them. -/
def State.cqDrain (s : State) (n : Nat) : Nat → State
  | 0 => s
  | k + 1 =>
    match s.queue? n with
    | none => s
    | some q =>
      match q.waiting with
      | [] => s
      | b :: bs =>
        if q.size ≤ q.unread then s
        else
          let q := { q with waiting := bs }
          match (s.setQueue n q).cqWrite n q b with
          | (s, true) => s.cqDrain n k
          | (s, false) => s.setQueue n { q with waiting := b :: bs }

/-- The waiting completions of every completion queue, as far as room and memory allow. -/
def State.drainCqs (s : State) : State :=
  (s.queues.filter (fun (e : Nat × Queue) => e.2.type == 2)).foldl (fun s e => s.cqDrain e.1 e.2.waiting.length) s

/-- A completion entry for a queue: written at once where it has room, else it waits in order. A QUIESCED partition's completions bound for
host memory are discarded (09 R258). -/
def State.complete (s : State) (n : Nat) (bytes : List Byte) : State :=
  match s.queue? n with
  | none => s
  | some q =>
    if q.space = 0 ∧ s.pstate (cidPart q.cid) = 4 then s
    else if q.full then s.setQueue n { q with waiting := q.waiting ++ [bytes] }
    else match s.cqWrite n q bytes with
      | (s, true) => s
      | (s, false) => s.setQueue n { q with waiting := q.waiting ++ [bytes] }

/-- The fields of a completion entry (Table 8.11). -/
structure Cqe where
  wrId : List Byte
  bytes : Nat := 0
  data : Nat := 0
  qpn : Option Nat := none
  status : Nat
  slot : Nat
  slotGen : Nat
  queue : Nat
  imm : Bool := false
  se : Bool := false
  opcode : Nat
  deriving DecidableEq, Repr

/-- The 32 bytes of a completion entry, GEN left 0. -/
def Cqe.encode (c : Cqe) : List Byte :=
  c.wrId ++ leBytes 4 c.bytes ++ leBytes 4 c.data ++ leBytes 3 (c.qpn.getD 0) ++ leBytes 1 c.status
    ++ leBytes 4 (c.slot + 2 ^ 20 * c.slotGen)
    ++ leBytes 4 (c.queue + 2 ^ 20 * b2n c.imm + 2 ^ 21 * b2n c.se + 2 ^ 22 * b2n c.qpn.isSome + 2 ^ 24 * c.opcode)
    ++ [0, 0, 0, 0]

/-! Work entries -/

/-- Fields of the common header of a work entry (Table 8.7). -/
def entSignaled (e : List Byte) : Bool := bitAt (leAt e 2 2) 0
def entMode (e : List Byte) : Nat := bits (leAt e 2 2) 1 2
def entFence (e : List Byte) : Bool := bitAt (leAt e 2 2) 3
def entSe (e : List Byte) : Bool := bitAt (leAt e 2 2) 4
def entTrigWait (e : List Byte) : Bool := bitAt (leAt e 2 2) 5
def entTrigInc (e : List Byte) : Bool := bitAt (leAt e 2 2) 6
def entIndirect (e : List Byte) : Bool := bitAt (leAt e 2 2) 7
def entLspace (e : List Byte) : Nat := bits (leAt e 2 2) 8 2
def entTagEn (e : List Byte) : Bool := bitAt (leAt e 2 2) 10
def entQpn (e : List Byte) : Nat := leAt e 4 3
def entWrId (e : List Byte) : List Byte := slice e 8 8
def entLaddr (e : List Byte) : Nat := leAt e 32 8
def entLength (e : List Byte) : Nat := leAt e 40 4

/-- A transport entry: SEND to FETCH_ADD. -/
def isTransport (op : Nat) : Bool := 1 ≤ op && op ≤ 7

/-- An entry that acts on a queue pair: a transport entry or a RECV (R219). -/
def actsOnQp (op : Nat) : Bool := isTransport op || op == 0x40

/-- The completion queue of an entry: the pair's SCQ or RCQ, else the CQ of its queue (R219). -/
def State.cqOf (s : State) (n : Nat) (q : Queue) (op : Nat) : Nat :=
  if actsOnQp op then
    match s.qpOfQueue? n with
    | some qp => if q.type = 1 then qp.ctx.rcq else qp.ctx.scq
    | none => q.cq
  else q.cq

/-- R30: an OK entry of a scheduled flow that completes after the demotion of time loss, or in HOLDOVER beyond its bound, completes with
DEADLINE_MISSED (0x50). Its time is counted from FT_ns at its start, `t0` (DESIGN CHOICE, log 152). -/
def State.deadline (s : State) (flow : Nat) (t0 : BitVec 64) : Nat :=
  if flow = 0 then 0
  else if (s.flowRt flow).lost then 0x50
  else match flowIn s.activeImages flow with
    | some (_, r) => if s.get Reg.TIME_STS.STATE = 3 ∧ r.bound * 5 < s.time.ftNs.toNat - t0.toNat then 0x50 else 0
    | none => 0

/-- Write the completion of an ended entry where it is due: an error always, an OK one where SIGNALED; an OK entry with TRIG_INC increments
its slot (07 R204). -/
def State.writeEnd (s : State) (n : Nat) (q : Queue) (l : Live) : State :=
  match l.done with
  | none => s
  | some (st, bytes, data) =>
    let e := l.bytes
    if let some id := l.coll then { s with collEnds := s.collEnds ++ [{ id := id, status := st, hurt := l.hurt, data := l.data }] } else
    let qp := if actsOnQp l.opcode then s.qpOfQueue? n else none
    let st := if st = 0 then (match qp with
      | some x => if q.type = 0 then s.deadline x.ctx.flow l.t0 else 0
      | none => 0) else st
    let h := s.owner (cidPart q.cid)
    let s := if st = 0x10 ∧ l.remote = false then s.count (Reg.HOSTIF_MALFORMED.COUNT h) else s
    let s := if st = 0x12 then s.count (Reg.HOSTIF_DB_AHEAD.COUNT h) else s
    let s := if st = 0 && entTrigInc e then s.trigInc (cidPart q.cid) (leAt e 24 2) (leAt e 19 1) else s
    if st = 0 && !entSignaled e then s
    else s.complete (s.cqOf n q l.opcode)
      (Cqe.encode {
        wrId := if st = 0x12 then List.replicate 8 0 else entWrId e
        bytes := bytes, data := data, qpn := qp.map (·.ctx.qpn), status := st
        slot := q.slotOf l.pos, slotGen := q.genOf l.pos, queue := n, imm := l.imm, se := l.se, opcode := l.opcode })

/-- Write the completions that are due: of entries that act on one queue pair in ring order, of others as they end (R236). The context's
SQ_DONE follows. `fuel` bounds the entries. -/
def State.flushQueue (s : State) (n : Nat) : Nat → State
  | 0 => s
  | k + 1 =>
    match s.queue? n with
    | none => s
    | some q =>
      let firstQp := (q.live.find? (fun l => actsOnQp l.opcode)).map (·.pos)
      match q.live.find? (fun l => l.done.isSome && l.parked == 0 && !l.back && (!actsOnQp l.opcode || some l.pos == firstQp)) with
      | none => s
      | some l =>
        let q := { q with live := q.live.filter (fun x => x.pos != l.pos) }
        let s := if q.type = 0 && isTransport l.opcode && l.coll.isNone then { s with qps := s.qps.map (fun (e : Nat × Qp) =>
          if e.2.ctx.sq = n then (e.1, { e.2 with ctx := { e.2.ctx with sqDone := q.slotOf (q.step l.pos 1) } }) else e) } else s
        ((s.setQueue n q).writeEnd n q l).flushQueue n k

/-- The transfers of collectives that a send queue holds are affected by a resend or a change of path (12 R355). -/
def Queue.disturb (q : Queue) : Queue :=
  { q with live := q.live.map (fun l => if l.coll.isSome && l.done.isNone then { l with hurt := true } else l) }

/-- The same of a queue by number. -/
def State.disturb (s : State) (n : Nat) : State :=
  match s.queue? n with
  | some q => s.setQueue n q.disturb
  | none => s

/-- Change a started entry. -/
def State.modLive (s : State) (n pos : Nat) (f : Live → Live) : State :=
  match s.queue? n with
  | none => s
  | some q => s.setQueue n { q with live := q.live.map (fun l => if l.pos = pos then f l else l) }

/-- The flag of an entry that wrote host memory waits for a read-back there (Table 8.12): VISIBLE, to which AUTO resolves where RO_EN is 1 or a flag of
the entry stands elsewhere. An entry that wrote no data waits for none. -/
def State.waitsBack (s : State) (n : Nat) (l : Live) (bytes : Nat) : Bool :=
  l.toHost && l.coll.isNone && (if l.opcode = 0x40 then bytes else l.len) != 0
    && (match entMode l.bytes with
      | 1 => false
      | 2 => true
      | _ => match s.queue? n with
        | some q => s.flag (Reg.HOSTIF_PORT_CTL.RO_EN (s.owner (cidPart q.cid))) || entTrigInc l.bytes
          || (entSignaled l.bytes && (match s.queue? (s.cqOf n q l.opcode) with | some c => c.space != 0 | none => false))
        | none => false)

/-- A started entry ends with a status, bytes and data; an entry that has ended keeps its end. -/
def State.endEntry (s : State) (n pos st : Nat) (bytes data : Nat := 0) (remote : Bool := false) : State :=
  let s := s.modLive n pos (fun l => if l.done.isSome then l else { l with
    done := some (st, bytes, data), remote := remote, back := st == 0 && s.waitsBack n l bytes })
  match s.queue? n with
  | none => s
  | some q => s.flushQueue n q.live.length

/-- The next entry to start, past those that have started out of order; the fuel bounds them. -/
def Queue.pass (q : Queue) : Nat → Queue
  | 0 => q
  | k + 1 =>
    if q.early.contains q.next then { q with next := q.step q.next 1, early := q.early.filter (· != q.next) }.pass k else q

/-- An entry of a queue, the next one or one that starts out of order, leaves the cache and becomes a started entry. -/
def State.takeEntry (s : State) (n : Nat) (q : Queue) (l : Live) : State :=
  let q := { q with cached := q.cached.filter (fun c => c.1 != l.pos), live := q.live ++ [l] }
  s.setQueue n (if l.pos = q.next then { q with next := q.step q.next 1 }.pass q.early.length else { q with early := q.early ++ [l.pos] })

/-- An entry ends without starting: its completion keeps its place. -/
def State.endUnstarted (s : State) (n : Nat) (q : Queue) (pos : Nat) (bytes : List Byte) (st : Nat) : State :=
  let s := s.takeEntry n q { pos := pos, bytes := bytes, opcode := leAt bytes 0 1 }
  s.endEntry n pos st

/-! Doorbells (R212, R221 to R223) -/

/-- PART_INST of an instance: its partition where it is not FREE. -/
def State.instPart? (s : State) (i : Nat) : Option Nat :=
  if i < 1023 ∧ s.get (Reg.PART_INST.STATE i) ≠ 0 then some (s.get (Reg.PART_INST.PARTITION i)) else none

/-- Count an ignored doorbell or BAR2 access. -/
def State.dbRej (s : State) (h : HostId) : State := s.count (Reg.HOSTIF_DB_REJ.COUNT h)

/-- A doorbell of a host at a slot of a page. -/
def State.doorbell (s : State) (h : HostId) (page slot : Nat) (v : BitVec 64) : State :=
  if !s.hostUp h || (s.host h).d3hot then s
  else if s.inP2 then s.dbRej h
  else match s.instPart? page with
  | none => s.dbRej h
  | some p =>
    if s.owner p ≠ h then s.dbRej h
    else
      let cid := p * 1024 + page
      let x := v.toNat
      let index := bits x 0 24
      let gen := bits x 24 8
      match s.queues.find? (fun e => e.2.cid == cid && e.2.dbSlot == slot) with
      | none => s.dbRej h
      | some (n, q) =>
        let arm := bitAt x 63
        if bits x 32 16 ≠ cid ∨ q.size ≤ index ∨ gen = 0 ∨ bits x 48 15 ≠ 0 ∨ (arm = true ∧ q.type ≠ 2) then s.dbRej h
        else
          let d := q.pos index gen
          if q.type = 2 then
            if q.unread < q.dist q.read d then s.dbRej h
            else
              let q := { q with read := d }
              let q := if arm then { q with armed := true, since := 0 } else q
              let s := s.setQueue n q
              let s := if arm && q.write != q.read then s.raiseCq n q else s
              s.cqDrain n q.waiting.length
          else if q.size < q.dist q.fetch d then s.dbRej h
          else if q.dist q.fetch q.posted < q.dist q.fetch d then s.setQueue n { q with posted := d }
          else s

/-! Fetching (R224 to R226) -/

/-- Entries held in the descriptor cache. -/
def State.cachedCount (s : State) : Nat := s.queues.foldl (fun a e => a + e.2.cached.length) 0

/-- A queue of a queue pair that names a scheduled flow of an ACTIVE image (16 R437). -/
def State.scheduledQueue (s : State) (n : Nat) : Bool :=
  match s.qpOfQueue? n with
  | some x => x.ctx.flow != 0 && s.sched.act.any (fun e => s.get (Reg.SCHED_STATE.ACT e.1) == 1 && e.2.flows.any (fun f => f.flow == x.ctx.flow))
  | none => false

/-- Fetching runs for a queue: not frozen, its partition not QUIESCED or under reset, and under the power cap only for a queue pair of a
scheduled flow of an ACTIVE image (16 R437). -/
def State.mayFetch (s : State) (n : Nat) (q : Queue) : Bool :=
  let p := cidPart q.cid
  !q.stopped && q.type != 2 && s.pstate p != 4 && !s.flag (Reg.PART_STS.BUSY p) && !s.inP2
    && (!s.flag Reg.TALLY_STS.CAP_LOW || s.scheduledQueue n)

/-- The copy of a slot whose read its memory turned away: the slot ends with the error (log 34). -/
def Queue.lostCopy (q : Queue) (pos : Nat) (e : MemErr) : List Byte :=
  [0xFF, BitVec.ofNat 8 (q.genOf pos), BitVec.ofNat 8 (if e = .ue then 0x40 else 0x22)] ++ List.replicate 61 0

/-- The copy of one slot arrives: kept, stale or not. A refused or uncorrectable read ends the slot with the error (log 34). An entry that has
started out of order is passed over. -/
def State.fetchSlot (s : State) (n : Nat) : State :=
  match s.queue? n with
  | none => s
  | some q =>
    if q.fetch = q.posted ∨ 64 ≤ q.cached.length ∨ 65536 ≤ s.cachedCount then s
    else
      let past := { q with fetch := q.step q.fetch 1 }
      if q.early.contains q.fetch then s.setQueue n past
      else match s.memReadC q.cid q.space (q.addr q.fetch) 64 with
      | (s, .ok bs) => s.setQueue n { past with cached := q.cached ++ [(q.fetch, 0, bs)] }
      | (s, .error .wait) => s
      | (s, .error e) => s.setQueue n { past with cached := q.cached ++ [(q.fetch, 5, q.lostCopy q.fetch e)] }

/-- ENTRY_FETCH_RETURN: a read of at most 16 slots that does not cross the ring's end returns. -/
def fetchReturnEff (n count : Nat) (seen : Seen) (s : State) : State :=
  match s.queue? n with
  | none => s
  | some q =>
    if s.mayFetch n q then
      let k := min (min count 16) (q.size - q.slotOf q.fetch)
      (List.range k).foldl (fun s _ => s.fetchSlot n) (s.see seen)
    else s

/-- A cached copy carries the generation of its position. -/
def Queue.fresh (q : Queue) (pos : Nat) (bs : List Byte) : Bool := leAt bs 1 1 == q.genOf pos

/-- REFETCH_TIMER: a stale slot is read again, while its queue may fetch and its memory answers; after the fourth stale copy it completes with
DOORBELL_AHEAD once it is at the head (R226). A refused or uncorrectable read ends the slot with the error (log 34). -/
def refetchEff (n pos : Nat) (seen : Seen) (s : State) : State :=
  match s.queue? n with
  | none => s
  | some q =>
    match q.cached.find? (fun c => c.1 == pos) with
    | none => s
    | some (_, k, bs) =>
      if q.fresh pos bs || 4 ≤ k || !s.mayFetch n q then s
      else
        let s := s.see seen
        let keep (s : State) (k : Nat) (bs : List Byte) : State :=
          (s.setQueue n { q with cached := q.cached.map (fun c => if c.1 = pos then (pos, k, bs) else c) }).count
            (Reg.HOSTIF_REFETCH.COUNT (s.owner (cidPart q.cid)))
        match s.memReadC q.cid q.space (q.addr pos) 64 with
        | (s, .ok new) => keep s (k + 1) new
        | (s, .error .wait) => s
        | (s, .error e) => keep s 5 (q.lostCopy pos e)

/-- DCINV (R225): cached entries that have not started are discarded and fetched again; the count of re-fetches restarts. -/
def dcinvEff (h : HostId) (v : Word) (s : State) : State :=
  let s := s.put (Reg.HOSTIF_DCINV.QUEUE h) (wordField v 0 20)
  if wordField v 31 1 = 0 ∨ s.flag (Reg.HOSTIF_DCINV_STS.BUSY h) = true then s
  else
    let n := wordField v 0 20
    match s.queue? n with
    | none => s.put (Reg.HOSTIF_DCINV_STS.REJ h) 1
    | some q =>
      if s.owner (cidPart q.cid) ≠ h then s.put (Reg.HOSTIF_DCINV_STS.REJ h) 1
      else
        let s := s.setQueue n { q with cached := [], fetch := q.next }
        (s.put (Reg.HOSTIF_DCINV_STS.DONE h) 1).vector h 3

/-- CQ_MODERATION_EXPIRY: MOD_TIME after the first completion since the arm (R237). -/
def cqModerationEff (n : Nat) (s : State) : State :=
  match s.queue? n with
  | some q => if q.armed && q.since != 0 then s.raiseCq n q else s
  | none => s

/-! Queue commands (R216 to R219) -/

/-- A descriptor read from an image; none where a field is out of range or a reserved bit is set. -/
def queueOf (b : List Byte) : Option Queue :=
  let w := leAt b 0 8
  let type := leAt b 8 1
  let log2 := leAt b 9 1
  let vector := leAt b 14 2
  if w / 2 ^ 53 ≠ 0 ∨ w % 4096 ≠ 0 ∨ 2 < type ∨ log2 < 4 ∨ 20 < log2 ∨ leAt b 10 2 % 1024 = 0x3FF ∨ 511 < leAt b 12 2
      ∨ (type = 2 ∧ (vector < 4 ∨ 2047 < vector)) ∨ 2047 < vector ∨ 2 ^ 20 ≤ leAt b 16 4 ∨ zeroAt b 24 8 = false then none
  else some { base := bits w 0 52, space := bits w 52 1, type := type, log2 := log2, cid := leAt b 10 2, dbSlot := leAt b 12 2
              vector := vector, cq := leAt b 16 4, modCount := leAt b 20 2, modTime := leAt b 22 2 }

/-- The 32 bytes of a descriptor. -/
def Queue.encode (q : Queue) : List Byte :=
  leBytes 8 (q.base + 2 ^ 52 * q.space) ++ leBytes 1 q.type ++ leBytes 1 q.log2 ++ leBytes 2 q.cid ++ leBytes 2 q.dbSlot
    ++ leBytes 2 q.vector ++ leBytes 4 q.cq ++ leBytes 2 q.modCount ++ leBytes 2 q.modTime ++ leBytes 8 0

/-- The queue table holds a descriptor, written with the system mark (R216). -/
def State.putDesc (s : State) (n : Nat) (bs : List Byte) : State :=
  s.sysWrite (s.pair Reg.HOSTIF_QT_BASE_LO.ADDR_LO Reg.HOSTIF_QT_BASE_HI.ADDR_HI + 32 * n) bs

/-- Bytes of a shadow ring: 8 per slot, in 4 KiB units (R219). -/
def Queue.shadowBytes (q : Queue) : Nat := if q.type = 0 then ceilDiv (8 * q.size) 4096 * 4096 else 0

/-- The lowest room for a new shadow ring in the shadow region, as an offset; none where it lacks (DESIGN CHOICE: first fit, log 35). -/
def State.shadowRoom? (s : State) (need : Nat) : Option Nat :=
  let size := s.get Reg.HOSTIF_SHADOW_SIZE.UNITS * 2 ^ 20
  let used := (s.queues.filter (fun e => e.2.type == 0)).map (fun e => (e.2.shadow, e.2.shadowBytes))
  (0 :: used.map (fun u => u.1 + u.2)).foldl (fun best o =>
    if o + need ≤ size && used.all (fun u => !overlap o need u.1 u.2) && (match best with | none => true | some b => o < b) then some o
    else best) none

/-- The entry of a shadow ring (R154, R219). -/
def State.shadowWrite (s : State) (q : Queue) (pos first last : Nat) : State :=
  s.sysWrite (s.pair Reg.HOSTIF_SHADOW_BASE_LO.ADDR_LO Reg.HOSTIF_SHADOW_BASE_HI.ADDR_HI + q.shadow + 8 * q.slotOf pos)
    (leBytes 3 first ++ leBytes 3 last ++ [0, 0])

/-- The result codes of HOSTIF_QCMD_STS. -/
def State.qcmdEnd (s : State) (h : HostId) (r : Nat) : State :=
  (((s.put (Reg.HOSTIF_QCMD_STS.BUSY h) 0).put (Reg.HOSTIF_QCMD_STS.DONE h) 1).put (Reg.HOSTIF_QCMD_STS.RESULT h) r).vector h 3

/-- The ring lies wholly inside a host aperture or a DDR region of the partition. -/
def State.ringOk (s : State) (q : Queue) : Bool :=
  let n := q.entrySize * q.size
  if q.space = 0 then s.inAperture (cidPart q.cid) q.base n else s.inRegion (cidPart q.cid) q.base n

/-- CREATE (R218, 09 R245). -/
def State.queueCreate (s : State) (h : HostId) (n : Nat) (img : List Byte) : State :=
  if (s.queue? n).isSome then s.qcmdEnd h 1
  else
    let p := cidPart (leAt img 10 2)
    if s.owner p ≠ h ∨ ¬ (s.pstate p = 2 ∨ s.pstate p = 3) then s.qcmdEnd h 3
    else match queueOf img with
    | none => s.qcmdEnd h 2
    | some q =>
      if n = 0 ∨ s.ringOk q = false ∨ s.instPart? (cidInst q.cid) ≠ some p
          ∨ s.queues.any (fun e => e.2.cid == q.cid && e.2.dbSlot == q.dbSlot) = true
          ∨ (q.type ≠ 2 ∧ (match s.queue? q.cq with | some c => c.type != 2 || cidPart c.cid != p | none => true) = true) then
        s.qcmdEnd h 2
      else if !s.flag Reg.HOSTIF_QT_CTL.ENABLE then s.qcmdEnd h 4
      else match (if q.type = 0 then s.shadowRoom? q.shadowBytes else some 0) with
        | none => s.qcmdEnd h 4
        | some o =>
          let s := (s.setQueue n { q with shadow := o }).putDesc n q.encode
          (s.put Reg.HOSTIF_QSTS.QUEUES (s.get Reg.HOSTIF_QSTS.QUEUES + 1)).qcmdEnd h 0

/-- MODIFY (R218): only MOD_COUNT, MOD_TIME and VECTOR may change. -/
def State.queueModify (s : State) (h : HostId) (n : Nat) (img : List Byte) : State :=
  match s.queue? n with
  | none => s.qcmdEnd h 1
  | some q =>
    if s.owner (cidPart q.cid) ≠ h then s.qcmdEnd h 3
    else match queueOf img with
      | none => s.qcmdEnd h 2
      | some x =>
        let new := { q with modCount := x.modCount, modTime := x.modTime, vector := x.vector }
        if new.encode ≠ x.encode then s.qcmdEnd h 2
        else ((s.setQueue n new).putDesc n new.encode).qcmdEnd h 0

/-- QUERY (R218). -/
def State.queueQuery (s : State) (h : HostId) (n addr : Nat) : State :=
  match s.queue? n with
  | none => s.qcmdEnd h 1
  | some q => if s.owner (cidPart q.cid) ≠ h then s.qcmdEnd h 3 else (s.writeHost h addr q.encode).qcmdEnd h 0

/-- A queue is in use: a queue pair names it, a work queue names it as CQ, or an entry of it is started and not completed. -/
def State.queueInUse (s : State) (n : Nat) (q : Queue) : Bool :=
  s.qps.any (fun e => e.2.ctx.sq == n || e.2.ctx.rq == n || e.2.ctx.scq == n || e.2.ctx.rcq == n)
    || s.queues.any (fun e => e.1 != n && e.2.type != 2 && e.2.cq == n) || !q.live.isEmpty

/-- Remove a queue. -/
def State.dropQueue (s : State) (n : Nat) : State :=
  ({ s with queues := s.queues.del n }.putDesc n (List.replicate 32 0)).put Reg.HOSTIF_QSTS.QUEUES (s.get Reg.HOSTIF_QSTS.QUEUES - 1)

/-- DESTROY (R218). -/
def State.queueDestroy (s : State) (h : HostId) (n : Nat) : State :=
  match s.queue? n with
  | none => s.qcmdEnd h 1
  | some q =>
    if s.owner (cidPart q.cid) ≠ h then s.qcmdEnd h 3
    else if s.queueInUse n q then s.qcmdEnd h 5
    else (s.dropQueue n).qcmdEnd h 0

/-- A HOSTIF_QCMD write with GO (R218). -/
def qcmdEff (h : HostId) (v : Word) (seen : Seen) (s : State) : State :=
  let busy := s.flag (Reg.HOSTIF_QCMD_STS.BUSY h)
  let s := (s.put (Reg.HOSTIF_QCMD.QUEUE h) (wordField v 0 20)).put (Reg.HOSTIF_QCMD.OP h) (wordField v 20 3)
  if wordField v 31 1 = 0 ∨ busy = true then s
  else if s.inP2 then s.qcmdEnd h 1
  else
    let s := s.see seen
    let n := wordField v 0 20
    let addr := s.pair (Reg.HOSTIF_QCMD_ADDR_LO.ADDR_LO h) (Reg.HOSTIF_QCMD_ADDR_HI.ADDR_HI h)
    let img := s.hostRead h addr 32
    match wordField v 20 3 with
    | 1 => s.queueCreate h n img
    | 2 => s.queueModify h n img
    | 3 => s.queueQuery h n addr
    | 4 => s.queueDestroy h n
    | _ => s.qcmdEnd h 2

/-- A write of the queue table's or shadow region's registers: only while no queue exists (R216). -/
def queueTableEff (off : Nat) (v : Word) (s : State) : State :=
  if s.get Reg.HOSTIF_QSTS.QUEUES = 0 then s.applyWrite off v else s

end Sys2Proof.Machine
end

