-- ==== Sys2Proof/Machine/Frags.lean ====
section
/-! DEFINITION. Buffers and fragment tables, fragment faults, parked tiles and Sheepdog batches
(07_memory_windows.md R190 to R196; 08 R231, R232). -/

namespace Sys2Proof.Machine

/-- A local buffer: a contiguous range, or a fragment table (INDIRECT), with its fragments as they were found when the work began. -/
structure Buf where
  space : Nat
  addr : Nat
  indirect : Bool
  snap : List Frag := []
  deriving DecidableEq, Repr

/-- What an access to a buffer answers: done, the fragments under it that are not present, a refusal of a memory, a bad table. -/
inductive BufRes (α : Type) where
  | ok (a : α)
  | missing (fs : List Frag)
  | err (e : MemErr)
  | bad
  deriving DecidableEq, Repr

/-- One entry of a fragment table (Table 8.10): none where R232 calls it bad; the next table's space and address for a CHAIN entry, else the
fragment and LAST. -/
def fragEntry (bs : List Byte) : Option ((Nat × Nat) ⊕ (Nat × Nat × Nat × Bool × Bool)) :=
  let w := leAt bs 0 8
  let len := leAt bs 8 4
  let fl := leAt bs 12 4
  let space := bits w 52 2
  let base := bits w 0 52
  if 2 ^ 54 ≤ w ∨ 8 ≤ fl ∨ space = 3 then none
  else if bitAt fl 2 then
    if len ≠ 0 ∨ bitAt fl 0 = false ∨ space = 2 then none else some (.inl (space, base))
  else if len = 0 ∨ 2 ^ 52 < base + len then none
  else some (.inr (base, space, len, bitAt fl 0, bitAt fl 1))

/-- Walk a table from an entry until `need` bytes are covered (R231, R232); `tables` counts those walked, the fuel the entries. -/
def State.walk (s : State) (cid need : Nat) : Nat → (space addr covered tables : Nat) → List Frag → State × BufRes (List Frag)
  | 0, _, _, _, _, _ => (s, .bad)
  | k + 1, space, addr, covered, tables, acc =>
    if need ≤ covered then (s, .ok acc)
    else match s.memReadC cid space addr 16 with
      | (s, .error e) => (s, .err e)
      | (s, .ok bs) =>
        match fragEntry bs with
        | none => (s, .bad)
        | some (.inl (sp, a)) =>
          if a % 16 ≠ 0 ∨ 64 ≤ tables then (s, .bad) else s.walk cid need k sp a covered (tables + 1) acc
        | some (.inr (base, sp, len, present, last)) =>
          let acc := acc ++ [{ at_ := addr, tspace := space, base := base, space := sp, len := len, present := present, start := covered }]
          if last && covered + len < need then (s, .bad)
          else s.walk cid need k space (addr + 16) (covered + len) tables acc

/-- The fragments of a buffer up to byte `need` − 1. -/
def State.frags (s : State) (cid : Nat) (b : Buf) (need : Nat) : State × BufRes (List Frag) :=
  if b.addr % 16 ≠ 0 ∨ 1 < b.space then (s, .bad) else s.walk cid need 65537 b.space b.addr 0 1 []

/-- The pieces of a range [off, off + n) of a buffer: fragment, offset in it, offset in the range, length. -/
def pieces (fs : List Frag) (off n : Nat) : List (Frag × Nat × Nat × Nat) :=
  fs.filterMap (fun f =>
    let a := max off f.start
    let e := min (off + n) (f.start + f.len)
    if a < e then some (f, a - f.start, a - off, e - a) else none)

/-- Read pieces in order. -/
def State.readPieces (s : State) (cid : Nat) : List (Frag × Nat × Nat × Nat) → List Byte → State × BufRes (List Byte)
  | [], acc => (s, .ok acc)
  | (f, o, _, n) :: ps, acc =>
    match s.memReadC cid f.space (f.base + o) n with
    | (s, .ok bs) => s.readPieces cid ps (acc ++ bs)
    | (s, .error e) => (s, .err e)

/-- The fragments of a table have changed since the work began only as R233 allows: a missing one has been made present. -/
def fragsKept (snap now : List Frag) : Bool :=
  (snap.zip now).all (fun e => e.1.at_ == e.2.at_ && e.1.tspace == e.2.tspace && e.1.len == e.2.len
    && (!e.1.present || (e.2.present && e.1.base == e.2.base && e.1.space == e.2.space)))

/-- The bytes that work moves: open where its table was changed against R233. -/
def State.moved (s : State) (kept : Bool) (bs : List Byte) : State × List Byte :=
  if kept then (s, bs) else (s.fresh, s.freeBytes bs.length)

/-- Read n bytes from an offset of a buffer; the first missing fragment stops it (R191). -/
def State.bufRead (s : State) (cid : Nat) (b : Buf) (off n : Nat) : State × BufRes (List Byte) :=
  if n = 0 then (s, .ok [])
  else if !b.indirect then
    match s.memReadC cid b.space (b.addr + off) n with
    | (s, .ok bs) => (s, .ok bs)
    | (s, .error e) => (s, .err e)
  else match s.frags cid b (off + n) with
    | (s, .ok fs) =>
      let ps := pieces fs off n
      match ps.find? (fun p => !p.1.present) with
      | some p => (s, .missing [{ p.1 with start := p.2.1 }])
      | none =>
        match s.readPieces cid ps [] with
        | (s, .ok bs) => let r := s.moved (fragsKept b.snap fs) bs; (r.1, .ok r.2)
        | x => x
    | (s, .missing fs) => (s, .missing fs)
    | (s, .err e) => (s, .err e)
    | (s, .bad) => (s, .bad)

/-- The first refusal of a memory's check among ranges to be written. -/
def State.writesRefused (s : State) (cid : Nat) (ws : List MemWrite) : Option MemErr :=
  ws.findSome? (fun w => match s.memCheck cid w.space w.addr w.bytes.length true with
    | .error e => some e
    | .ok _ => none)

/-- An uncorrectable line of device DDR that a range covers in part (14 R390). -/
def State.badUnder (s : State) (w : MemWrite) : Option Nat :=
  if w.space = 1 then
    (linesOf w.addr w.bytes.length).find? (fun l => s.ddrBad.contains l && !within (64 * l) 64 w.addr w.bytes.length)
  else none

/-- Write ranges of one tile, all or nothing (R192). -/
def State.writeAll (s : State) (cid : Nat) (ws : List MemWrite) : State × BufRes Unit :=
  match s.writesRefused cid ws with
  | some e => (s.cidRefused cid e, .err e)
  | none =>
    match ws.findSome? s.badUnder with
    | some l => (s.reportUe l false, .err .ue)
    | none => (ws.foldl (fun s w => (s.memWriteC cid w.space w.addr w.bytes).1) s, .ok ())

/-- Write the parts of one tile at their offsets of a buffer: every missing fragment under them is named. The `start` of a missing fragment
is the offset of the first byte within it. -/
def State.bufWriteParts (s : State) (cid : Nat) (b : Buf) (parts : List (Nat × List Byte)) : State × BufRes Unit :=
  let parts := parts.filter (fun p => !p.2.isEmpty)
  if parts.isEmpty then (s, .ok ())
  else if !b.indirect then s.writeAll cid (parts.map (fun p => { space := b.space, addr := b.addr + p.1, bytes := p.2 }))
  else match s.frags cid b (parts.foldl (fun n p => max n (p.1 + p.2.length)) 0) with
    | (s, .ok fs) =>
      let ps := parts.flatMap (fun p => (pieces fs p.1 p.2.length).map (fun q => (q, slice p.2 q.2.2.1 q.2.2.2)))
      let miss := ps.filter (fun p => !p.1.1.present)
      if !miss.isEmpty then (s, .missing (miss.map (fun p => { p.1.1 with start := p.1.2.1 })))
      else
        let ws := ps.map (fun p => ({ space := p.1.1.space, addr := p.1.1.base + p.1.2.1, bytes := p.2 } : MemWrite))
        if fragsKept b.snap fs then s.writeAll cid ws
        else s.fresh.writeAll cid (ws.map (fun w => { w with bytes := s.freeBytes w.bytes.length }))
    | (s, .missing fs) => (s, .missing fs)
    | (s, .err e) => (s, .err e)
    | (s, .bad) => (s, .bad)

/-- Write bytes at an offset of a buffer, all or nothing. -/
def State.bufWrite (s : State) (cid : Nat) (b : Buf) (off : Nat) (bs : List Byte) : State × BufRes Unit :=
  s.bufWriteParts cid b [(off, bs)]

/-! Faults (R194 to R196) -/

/-- Sheepdog's state for a host. -/
def State.sheep (s : State) (h : HostId) : Sheep := if h = 0 then s.sheep0 else s.sheep1

/-- Change Sheepdog's state for a host; SHEEP_STS follows. -/
def State.setSheep (s : State) (h : HostId) (x : Sheep) : State :=
  (if h = 0 then { s with sheep0 := x } else { s with sheep1 := x }).put (Reg.SHEEP_STS.OUTSTANDING h) x.entries.length

/-- A record joins the open batch, or waits where a closed batch has not been written. -/
def Sheep.addRecord (x : Sheep) (id : Nat) : Sheep :=
  if x.closed then { x with later := x.later ++ [id] }
  else
    let b := x.batch ++ [id]
    { x with batch := b, closed := 64 ≤ b.length }

/-- The first access of a fault: engine code, write access, queue pair concerned; `unit`: which engine of its kind. -/
structure Access where
  engine : Nat
  write : Bool
  qpn : Option Nat
  unit : Nat := 0
  deriving DecidableEq, Repr

/-- Raise a fault on a fragment for a waiter: it joins an outstanding entry of the same fragment entry, or opens a new one; none where
4,096 are outstanding (R195). Answers the FAULT_ID. -/
def State.raiseFault (s : State) (cid : Nat) (f : Frag) (a : Access) (w : FaultWaiter) : State × Option Nat :=
  let h := s.owner (cidPart cid)
  let x := s.sheep h
  match x.entries.find? (fun e => e.addr == f.at_ && e.space == f.tspace) with
  | some e =>
    let s := s.setSheep h { x with entries := x.entries.map (fun y => if y.id = e.id then { y with waiters := y.waiters ++ [w] } else y) }
    (if e.written then s.count (Reg.SHEEP_JOIN.COUNT h) else s, some e.id)
  | none =>
    match (List.range 4096).find? (fun i => !x.entries.any (fun e => e.id == i)) with
    | none => (s, none)
    | some id =>
      let e : FaultEntry := { id := id, addr := f.at_, space := f.tspace, cid := cid, engine := a.engine, write := a.write, qpn := a.qpn
                              offset := f.start, ft := s.time.ftNs, waiters := [w] }
      (s.setSheep h ({ x with entries := x.entries ++ [e] }.addRecord id), some id)

/-! Parked tiles (R192, R193) -/

/-- 4 KiB units of the park region. -/
def State.parkUnits (s : State) : Nat := s.get Reg.SHEEP_PARK_SIZE.UNITS * 256

/-- Units a tile takes. -/
def tileUnits (n : Nat) : Nat := max 1 (ceilDiv n 4096)

/-- The lowest free run of units for some bytes (DESIGN CHOICE: first fit, log 35). -/
def State.parkRoom? (s : State) (n : Nat) : Option Nat :=
  let used := s.tiles.filterMap (fun t => t.park.map (fun u => (u, tileUnits t.bytes.length)))
  let need := tileUnits n
  (0 :: used.map (fun u => u.1 + u.2)).foldl (fun best o =>
    if o + need ≤ s.parkUnits && used.all (fun u => !overlap o need u.1 u.2) && (match best with | none => true | some b => o < b) then some o
    else best) none

/-- The DDR address of a park unit. -/
def State.parkAddr (s : State) (u : Nat) : Nat :=
  s.pair Reg.SHEEP_PARK_BASE_LO.ADDR_LO Reg.SHEEP_PARK_BASE_HI.ADDR_HI + 4096 * u

/-- Give a held tile a park unit where one is free. -/
def State.parkTile (s : State) (t : Tile) : State :=
  match t.park with
  | some _ => s
  | none =>
    match s.parkRoom? t.bytes.length with
    | none => s
    | some u =>
      let s := { s with tiles := s.tiles.map (fun (x : Tile) => if x.id = t.id then { x with park := some u } else x) }
      s.sysWrite (s.parkAddr u) t.bytes

/-- The fragments under a tile, each once. -/
def fragsOnce (fs : List Frag) : List Frag :=
  fs.foldl (fun acc f => if acc.any (fun g => g.at_ == f.at_ && g.tspace == f.tspace) then acc else acc ++ [f]) []

/-- The fault entries of a host have room for the faults of some fragments (R195). -/
def State.faultRoom (s : State) (cid : Nat) (fs : List Frag) : Bool :=
  let es := (s.sheep (s.owner (cidPart cid))).entries
  es.length + ((fragsOnce fs).filter (fun f => !es.any (fun e => e.addr == f.at_ && e.space == f.tspace))).length ≤ 4096

/-- Raise the faults of a tile's missing fragments, in order, one waiter on each; answers their FAULT_IDs. -/
def State.tileFaults (s : State) (cid tile : Nat) (a : Access) (fs : List Frag) : State × List Nat :=
  (fragsOnce fs).foldl (fun (s, ids) f =>
    match s.raiseFault cid f a (.tile tile) with
    | (s, some id) => (s, ids ++ [id])
    | (s, none) => (s, ids)) (s, [])

/-- The parts of a tile: contiguous, or rows at a pitch (11 R317). -/
def Tile.parts (t : Tile) : List (Nat × List Byte) :=
  if t.rowLen = 0 then [(t.offset, t.bytes)]
  else (List.range (t.bytes.length / t.rowLen)).map (fun r => (t.offset + r * t.pitch, slice t.bytes (r * t.rowLen) t.rowLen))

/-- The buffer a tile goes to. -/
def Tile.buf (t : Tile) : Buf := { space := t.tspace, addr := t.table, indirect := t.indirect, snap := t.snap }

/-- Change a transfer of a Drover channel. -/
def State.modXfer (s : State) (c ch id : Nat) (f : Xfer → Xfer) : State :=
  let k := s.core c
  let x := k.chans.getD ch {}
  s.setCore c { k with chans := k.chans.putD ch { x with queue := x.queue.map (fun t => if t.id = id then f t else t) } {} }

/-- Change how many tiles of what stands behind a tile are parked. -/
def State.tileCount (s : State) (t : Tile) (f : Nat → Nat) : State :=
  match t.xfer with
  | some (c, ch, id) => s.modXfer c ch id (fun x => { x with parked := f x.parked })
  | none => s.modLive t.queue t.pos (fun l => { l with parked := f l.parked })

/-- Put a tile aside for its missing fragments: parked where the region has room, else held by its engine. -/
def State.park (s : State) (t : Tile) (a : Access) (fs : List Frag) : State :=
  let id := s.tileNext
  let (s, ids) := s.tileFaults t.cid id a fs
  let t := { t with id := id, faults := ids, park := none }
  let s := { s with tiles := s.tiles ++ [t], tileNext := id + 1 }
  (s.tileCount t (· + 1)).parkTile t

/-- The stream of a tile (13 R365): the core and channel of its Drover transfer. The other streams of R365 park no tile. -/
def Tile.stream (t : Tile) : Option (Nat × Nat) := t.xfer.map (fun x => (x.1, x.2.1))

/-- The last tile of a tile's stream that is parked, in exact mode (13 R365). -/
def State.tileAhead? (s : State) (t : Tile) : Option Tile :=
  if s.flag Reg.GLB_CTL.EXACT && t.stream.isSome then s.tiles.reverse.find? (fun u => u.stream == t.stream) else none

/-- Put a writable tile aside behind an earlier tile of its stream: it waits on the same fault entries and adds no record (13 R365). -/
def State.parkBehind (s : State) (t u : Tile) : State :=
  let id := s.tileNext
  let h := s.owner (cidPart t.cid)
  let x := s.sheep h
  let s := s.setSheep h { x with entries := x.entries.map (fun e =>
    if u.faults.contains e.id then { e with waiters := e.waiters ++ [.tile id] } else e) }
  let t := { t with id := id, faults := u.faults, after := true, park := none }
  let s := { s with tiles := s.tiles ++ [t], tileNext := id + 1 }
  (s.tileCount t (· + 1)).parkTile t

/-- An engine holds a tile for want of a park unit: it issues no further write (R193). -/
def State.engineHolds (s : State) (u : Nat × Nat) : Bool := s.tiles.any (fun t => t.park.isNone && t.unit == u)

/-- Write a tile: done, parked (as done), refused, or a bad table. It waits while its engine holds a tile, or where its faults need more entries than are
free (R193, R195). The tile's numbers and faults are given when it is parked. -/
def State.placeAt (s : State) (b : Buf) (t : Tile) (a : Access) : State × BufRes Unit :=
  let t := { t with table := b.addr, tspace := b.space, indirect := b.indirect, snap := b.snap, unit := (a.engine, a.unit), qpn := a.qpn }
  if s.engineHolds t.unit then (s, .err .wait)
  else match s.bufWriteParts t.cid b t.parts with
  | (u, .missing fs) =>
    if !u.faultRoom t.cid fs then (s, .err .wait)
    else (u.park { t with after := (s.tileAhead? t).isSome } a fs, .ok ())
  | (u, .ok _) =>
    (match s.tileAhead? t with
    | some v => (s.parkBehind t v, .ok ())
    | none => (u, .ok ()))
  | x => x

/-- Write a tile of a local buffer for a work entry. -/
def State.placeTile (s : State) (cid : Nat) (b : Buf) (off : Nat) (bs : List Byte) (q pos : Nat) (a : Access) : State × BufRes Unit :=
  s.placeAt b { id := 0, cid := cid, table := 0, tspace := 0, offset := off, bytes := bs, faults := [], queue := q, pos := pos, park := none } a

/-! Batches (R194) -/

/-- The 32 bytes of a fault record (Table 7.7). -/
def FaultEntry.record (e : FaultEntry) (seq : Nat) (last : Bool) : List Byte :=
  leBytes 8 (e.addr + 2 ^ 52 * e.space) ++ leBytes 2 e.cid ++ leBytes 2 e.id ++ leBytes 1 (min e.waiters.length 255)
    ++ leBytes 1 (e.engine + 8 * b2n e.write + 128 * b2n last) ++ leBytes 2 seq
    ++ leBytes 4 (e.qpn.getD 0 + 2 ^ 24 * b2n e.qpn.isSome) ++ leBytes 4 e.offset ++ leBytes 8 e.ft.toNat

/-- SHEEP_BATCH_TIMEOUT: an open batch closes 20 µs after it opened. -/
def batchTimeoutEff (h : HostId) (s : State) : State :=
  let x := s.sheep h
  if x.batch.isEmpty then s else s.setSheep h { x with closed := true }

/-- The ring of a host has room for a whole batch. -/
def State.sheepRoom (s : State) (h : HostId) (n : Nat) : Bool :=
  let size := 2 ^ s.get (Reg.SHEEP_RING_CTL.LOG2_SIZE h)
  let used := (s.get (Reg.SHEEP_PROD.INDEX h) + size - s.get (Reg.SHEEP_CONS.INDEX h) % size) % size
  s.flag (Reg.SHEEP_RING_CTL.ENABLE h) && s.hostReach h && used + n < size

/-- SHEEP_BATCH_WRITE: a closed batch is written whole, SHEEP_PROD advances, vector 1 is raised once; records that waited open the next
batch. -/
def batchWriteEff (h : HostId) (s : State) : State :=
  let x := s.sheep h
  let ids := x.batch
  if !x.closed || ids.isEmpty || !s.sheepRoom h ids.length then s
  else
    let size := 2 ^ s.get (Reg.SHEEP_RING_CTL.LOG2_SIZE h)
    let prod := s.get (Reg.SHEEP_PROD.INDEX h)
    let base := s.pair (Reg.SHEEP_RING_LO.BASE_LO h) (Reg.SHEEP_RING_HI.BASE_HI h)
    let s := (List.range ids.length).foldl (fun s i =>
      match x.entries.find? (fun e => e.id == ids.getD i 0) with
      | some e => s.writeHost h (base + 32 * ((prod + i) % size)) (e.record x.seq (i + 1 == ids.length))
      | none => s) s
    let s := s.put (Reg.SHEEP_PROD.INDEX h) ((prod + ids.length) % size)
    let new := x.later.take 64
    let s := s.setSheep h { x with
      entries := x.entries.map (fun e => if ids.contains e.id then { e with written := true } else e)
      batch := new, closed := 64 ≤ new.length, seq := (x.seq + 1) % 65536, later := x.later.drop 64 }
    s.vector h 1

/-- A write of the park registers (R193): only while no tile is parked or held. -/
def parkWriteEff (off : Nat) (v : Word) (s : State) : State :=
  if s.tiles.isEmpty then s.applyWrite off v else s.put Reg.WIN_STS.PARK_REJ 1

end Sys2Proof.Machine
end

