-- ==== Sys2Proof/Machine/Windows.lean ====
section
/-! DEFINITION. The window store: opening, the checks of Table 7.3, revocation (07_memory_windows.md R173 to R189). -/

namespace Sys2Proof.Machine

/-- A window descriptor. -/
def State.win (s : State) (i : Nat) : Window := s.wins.desc.getD i {}

/-- Change a descriptor; WIN_STS.OPEN and WIN_HELD follow its state. -/
def State.setWin (s : State) (i : Nat) (w : Window) : State :=
  let old := s.win i
  let s := { s with wins := { s.wins with desc := s.wins.desc.putD i w {} } }
  let s := if old.state != 0 && w.state == 0 then
      let s := s.put Reg.WIN_STS.OPEN (s.get Reg.WIN_STS.OPEN - 1)
      s.put (Reg.WIN_HELD.COUNT (cidPart old.cid)) (s.get (Reg.WIN_HELD.COUNT (cidPart old.cid)) - 1)
    else s
  if old.state == 0 && w.state != 0 then
    let s := s.put Reg.WIN_STS.OPEN (s.get Reg.WIN_STS.OPEN + 1)
    s.put (Reg.WIN_HELD.COUNT (cidPart w.cid)) (s.get (Reg.WIN_HELD.COUNT (cidPart w.cid)) + 1)
  else s

/-- The next generation of a window: 4,095 is followed by 1 (R177). -/
def nextGen (g : Nat) : Nat := if g = 4095 then 1 else g + 1

/-- The free list from an index never used before: the first index at or above `i` that is not taken. The fuel bounds the taken ones. -/
def firstUnused (skip : List Nat) : Nat → Nat → Nat
  | 0, i => i
  | k + 1, i => if skip.contains i then firstUnused skip k (i + 1) else i

/-- The head of the free list (R177), and the store without it. -/
def WinStore.takeFree (w : WinStore) : Option (Nat × WinStore) :=
  let out := w.skip ++ w.retired
  let i := firstUnused out (out.length + 1) w.freeNext
  if i ≤ 1048575 then some (i, { w with freeNext := i + 1 })
  else match w.freed with
    | [] => none
    | j :: js => some (j, { w with freed := js })

/-- An index returns to the tail of the free list, unless Tinker has retired its block (R177, 14 Table 14.4). One of `skip` stays there, so that its
ascending place does not give it out a second time. -/
def WinStore.giveBack (w : WinStore) (i : Nat) : WinStore :=
  if w.retired.contains i then w else { w with freed := w.freed ++ [i] }

/-- The key of an index and generation. -/
def winKey (i gen : Nat) : Nat := i * 4096 + gen

/-! Opening (R178, R179) -/

/-- A range a window may cover. -/
def State.winRangeOk (s : State) (p space base limit : Nat) : Bool :=
  let n := limit + 1 - base
  match space with
  | 0 => s.inAperture p base n
  | 1 => s.inRegion p base n
  | 2 =>
    let c := bits base 18 12
    base / 2 ^ 18 == limit / 2 ^ 18 && base < 2 ^ 30 && s.coreOwner? c == some p && limit % 2 ^ 18 < 0x30000
      && !s.touchesSecure c (base % 2 ^ 18) n
  | _ => false

/-- OPEN_WINDOW by an instance: the state and the key, or none where it completes with MALFORMED_ENTRY. -/
def State.openWindow (s : State) (cid space base limit rights scope : Nat) : State × Option Nat :=
  let p := cidPart cid
  if space = 3 ∨ limit < base ∨ rights = 0 ∨ s.winRangeOk p space base limit = false then (s, none)
  else if s.get (Reg.WIN_SHARE.WINDOWS p) ≤ s.get (Reg.WIN_HELD.COUNT p) then (s.count (Reg.WIN_NOSLOT.COUNT p), none)
  else match s.wins.takeFree with
    | none => (s.count (Reg.WIN_NOSLOT.COUNT p), none)
    | some (i, ws) =>
      let gen := (s.win i).gen
      let w : Window := {
        base := base, space := space, limit := limit, cid := if scope = 1 then p * 1024 + 0x3FF else cid, gen := gen, state := 1
        read := bitAt rights 0, write := bitAt rights 1, atomic := bitAt rights 2, opener := cidInst cid, inflight := 0 }
      (({ s with wins := ws }).setWin i w, some (winKey i gen))

/-! Checks (Table 7.3) -/

/-- The rights an access needs. -/
inductive Right where
  | read | write | atomic
  deriving DecidableEq, Repr

/-- The window holds the right. -/
def Window.has (w : Window) : Right → Bool
  | .read => w.read
  | .write => w.write
  | .atomic => w.atomic

/-- The checks of Table 7.3 in order; a failure answers its NAK code (Table 6.5). An uncorrectable descriptor word is not modelled as a
state of the store (14 Table 14.2, log 36). -/
def State.winCheck (s : State) (cid key : Nat) (right : Right) (addr n : Nat) : Option Nat :=
  let i := key / 4096
  let w := s.win i
  if i = 0 ∨ key % 4096 = 0 ∨ w.state ≠ 1 ∨ w.gen ≠ key % 4096 then some 2
  else if cidPart w.cid ≠ cidPart cid ∨ ¬ (cidInst w.cid = 0x3FF ∨ cidInst w.cid = cidInst cid) then some 4
  else if !w.has right then some 2
  else if addr < w.base ∨ w.limit + 1 < addr + n ∨ 2 ^ 52 < addr + n then some 3
  else if right = .atomic ∧ addr % 8 ≠ 0 then some 1
  else none

/-- An access checked and not yet committed (R181). -/
def State.inflightUp (s : State) (i : Nat) : State := s.setWin i { s.win i with inflight := (s.win i).inflight + 1 }

/-- ACCESS_COMMITTED (R181). -/
def accessCommittedEff (i : Nat) (s : State) : State := s.setWin i { s.win i with inflight := (s.win i).inflight - 1 }

/-! Revocation (R185 to R189) -/

/-- A revocation of a key starts, or joins the one in progress under the key; none where R188 turns it away. -/
def State.startRevoke (s : State) (key : Nat) (w : RevWaiter) : Option State :=
  let i := key / 4096
  let g := key % 4096
  let d := s.win i
  if i = 0 ∨ g = 0 ∨ d.state = 0 then none
  else
    let joins := s.wins.revs.map (fun r => if r.index = i then { r with waiters := r.waiters ++ [w] } else r)
    let known := s.wins.revs.any (fun r => r.index == i)
    if d.state = 1 then
      if d.gen ≠ g then none
      else some { s with wins := { s.wins with revs := if known then joins else s.wins.revs ++ [{ index := i, waiters := [w] }] } }
    else if d.gen = g ∨ d.gen = nextGen g then some { s with wins := { s.wins with revs := joins } }
    else none

/-- REVOCATION_FENCE: OPEN becomes REVOKING and GEN increments. -/
def revocationFenceEff (i : Nat) (s : State) : State :=
  if s.wins.revs.any (fun r => r.index == i && !r.fenced) && (s.win i).state == 1 then
    let s := s.setWin i { s.win i with state := 2, gen := nextGen (s.win i).gen }
    { s with wins := { s.wins with revs := s.wins.revs.map (fun r => if r.index = i then { r with fenced := true } else r) } }
  else s

/-- Tell a waiter that its revocation has completed (R186). WIN_REVOKE_STS.BUSY of a partition falls with its last one. -/
def State.tellRevoked (s : State) (w : RevWaiter) : State :=
  match w with
  | .entry q pos => s.endEntry q pos 0
  | .reg p =>
    (s.put (Reg.WIN_REVOKE_STS.BUSY p) (b2n (s.wins.revs.any (fun r => r.waiters.contains (.reg p))))).put (Reg.WIN_REVOKE_STS.DONE p) 1
  | .reset => s

/-- The read-back that ends a revocation can complete: a window on host memory needs the owner's port (R186). -/
def State.backReach (s : State) (w : Window) : Bool := w.space != 0 || s.hostReach (s.owner (cidPart w.cid))

/-- REVOCATION_COMPLETE: with INFLIGHT 0 after the fence point, and for SPACE 0 a read-back, the descriptor becomes FREE, its index joins the free
list, and every waiter is told. -/
def State.revocationDone (s : State) (i : Nat) : State :=
  match s.wins.revs.find? (fun r => r.index == i) with
  | none => s
  | some r =>
    if r.fenced && (s.win i).inflight == 0 && (s.win i).state == 2 && s.backReach (s.win i) then
      let s := s.setWin i { gen := (s.win i).gen }
      let s := { s with wins := { (s.wins.giveBack i) with revs := s.wins.revs.filter (fun x => x.index != i) } }
      r.waiters.foldl State.tellRevoked s
    else s

/-- A reset revokes every window a test selects (R189); the fence points come at once, the drains follow. -/
def State.revokeAll (s : State) (test : Window → Bool) : State :=
  (s.wins.desc.filter (fun e => test e.2 && e.2.state != 0)).foldl (fun s e =>
    match s.startRevoke (winKey e.1 e.2.gen) .reset with
    | some s => (revocationFenceEff e.1 s).revocationDone e.1
    | none => s) s

/-- A WIN_REVOKE write (R185, R188). -/
def winRevokeEff (p : Nat) (v : Word) (s : State) : State :=
  let d := s.win (v.toNat / 4096)
  if d.state != 0 && cidPart d.cid != p then s.put (Reg.WIN_REVOKE_STS.REJ p) 1
  else match s.startRevoke v.toNat (.reg p) with
    | some s => s.put (Reg.WIN_REVOKE_STS.BUSY p) 1
    | none => s.put (Reg.WIN_REVOKE_STS.REJ p) 1

/-- A compute reset frees every window: OPEN and REVOKING ones take their next GEN, the free list is rebuilt in ascending order (R177). -/
def State.freeWindows (s : State) : State :=
  let s := s.wins.desc.foldl (fun s e => if e.2.state = 0 then s else s.setWin e.1 { gen := nextGen e.2.gen }) s
  { s with wins := { s.wins with freeNext := 1, freed := [], skip := [], revs := [] } }

/-! Shares and ranges (R200, R205) -/

/-- A WIN_SHARE write (R205, R9). -/
def winShareEff (p : Nat) (v : Word) (s : State) : State :=
  let sum := (List.range 64).foldl (fun a q => a + (if q = p then wordField v 0 21 else s.get (Reg.WIN_SHARE.WINDOWS q))) 0
  if s.pstate p = 1 ∧ 1048575 < sum then s.put (Reg.WIN_PSTS.CFG_REJ p) 1 else s.applyWrite (Reg.WIN_SHARE.off p) v

/-- A TRIG_BASE or TRIG_NUM write (R200, R9): refused where two ranges would overlap or one pass index 65,535. -/
def trigRangeEff (p : Nat) (isNum : Bool) (v : Word) (s : State) : State :=
  let base := if isNum then s.get (Reg.TRIG_BASE.BASE p) else wordField v 0 16
  let num := if isNum then wordField v 0 17 else s.get (Reg.TRIG_NUM.NUM p)
  let bad := 65536 < base + num || (List.range 64).any (fun q => q != p
    && overlap base num (s.get (Reg.TRIG_BASE.BASE q)) (s.get (Reg.TRIG_NUM.NUM q)))
  if s.pstate p = 1 ∧ bad = true then s.put (Reg.WIN_PSTS.CFG_REJ p) 1
  else s.applyWrite (if isNum then Reg.TRIG_NUM.off p else Reg.TRIG_BASE.off p) v

/-- Every trigger slot of a partition returns to COUNT 0 and GEN 0 (R200). -/
def State.clearTrigs (s : State) (p : Nat) : State :=
  { s with trigs := s.trigs.filter (fun e => !s.trigOf p e.1), trigPend := s.trigPend.filter (fun t => t.part != p) }

end Sys2Proof.Machine
end

