-- ==== Sys2Proof/Machine/Kennel.lean ====
section
/-! DEFINITION. Queue-pair contexts: their bytes, their place, the Retriever, the KENNEL commands, the ERROR state
(06_queue_pairs_and_delivery.md R145 to R154, R171). -/

namespace Sys2Proof.Machine

/-- A queue pair that exists. -/
def State.qp? (s : State) (q : Nat) : Option Qp := s.qps.at? q

/-- Change a queue pair. -/
def State.setQp (s : State) (q : Nat) (x : Qp) : State := { s with qps := s.qps.set q x }

/-- Change a queue pair by a function. -/
def State.modQp (s : State) (q : Nat) (f : Qp → Qp) : State :=
  match s.qp? q with
  | some x => s.setQp q (f x)
  | none => s

/-- Change a context by a function. -/
def State.modCtx (s : State) (q : Nat) (f : QpCtx → QpCtx) : State := s.modQp q (fun x => { x with ctx := f x.ctx })

/-! The bytes of a context (Table 6.2) -/

/-- One REPLAY entry. -/
def replayBytes (r : Sparse (Nat × Nat)) (i : Nat) : List Byte :=
  match r.at? i with
  | some (p, v) => leBytes 4 (p + 2 ^ 31) ++ leBytes 8 v
  | none => leBytes 12 0

/-- Bytes 0 to 251. -/
def QpCtx.body (c : QpCtx) : List Byte :=
  leBytes 4 (c.qpn + 2 ^ 24 * c.state + 2 ^ 27 * b2n c.pin + 2 ^ 28 * b2n c.roce + 2 ^ 29 * c.tier)
    ++ leBytes 2 c.cid ++ leBytes 2 c.destCid ++ leBytes 4 (c.destQpn + 2 ^ 24 * c.cls + 2 ^ 27 * c.pmtu) ++ leBytes 4 c.dest
    ++ leBytes 4 c.flow ++ leBytes 4 c.pkey
    ++ leBytes 4 (c.rto + 2 ^ 16 * c.retryCnt + 2 ^ 19 * c.rnrRetry + 2 ^ 22 * c.rnrTimer)
    ++ leBytes 4 (c.ackCoal + 2 ^ 8 * c.ackDelay + 2 ^ 24 * c.maxRd) ++ leBytes 4 c.window
    ++ leBytes 4 c.sq ++ leBytes 4 c.rq ++ leBytes 4 c.scq ++ leBytes 4 c.rcq ++ leBytes 4 c.spill ++ leBytes 8 0
    ++ leBytes 4 c.sqPsn ++ leBytes 4 (c.unaPsn + 2 ^ 24 * c.retryLeft + 2 ^ 27 * c.rnrLeft) ++ leBytes 4 c.sqStart ++ leBytes 4 c.sqDone
    ++ leBytes 8 c.timer ++ leBytes 4 (c.rdOut + 2 ^ 5 * c.atomOut + 2 ^ 8 * b2n c.resyncPend) ++ leBytes 36 0
    ++ leBytes 4 (c.epsn + 2 ^ 24 * b2n c.nakSent) ++ leBytes 4 c.msn ++ leBytes 4 c.rqCons ++ leBytes 4 c.ackPend
    ++ leBytes 4 c.msgOffset ++ leBytes 4 c.curKey ++ leBytes 8 c.curAddr ++ leBytes 8 c.ackT0 ++ leBytes 24 0
    ++ replayBytes c.replay 0 ++ replayBytes c.replay 1 ++ replayBytes c.replay 2 ++ replayBytes c.replay 3
    ++ leBytes 8 c.lastUse ++ leBytes 4 (c.errStatus + 2 ^ 8 * c.errPsn)

/-- The 256 bytes of a spilled copy, its CRC over bytes 0 to 251 last (R146). -/
def QpCtx.spilled (c : QpCtx) : List Byte := c.body ++ leBytes 4 (crc32 c.body).toNat

/-- The REPLAY entries of a context's bytes. -/
def replayOf (b : List Byte) : Sparse (Nat × Nat) :=
  (List.range 4).filterMap (fun i =>
    let o := 192 + 12 * i
    if bitAt (leAt b o 4) 31 then some (i, (leAt b o 3, leAt b (o + 4) 8)) else none)

/-- A context read from its bytes. -/
def ctxOf (b : List Byte) : QpCtx :=
  let w0 := leAt b 0 4; let w8 := leAt b 8 4; let w24 := leAt b 24 4; let w28 := leAt b 28 4; let w68 := leAt b 68 4
  let w88 := leAt b 88 4; let w128 := leAt b 128 4; let w248 := leAt b 248 4
  { qpn := bits w0 0 24, state := bits w0 24 3, pin := bitAt w0 27, roce := bitAt w0 28, tier := bits w0 29 1
    cid := leAt b 4 2, destCid := leAt b 6 2, destQpn := bits w8 0 24, cls := bits w8 24 3, pmtu := bits w8 27 2
    dest := leAt b 12 4, flow := leAt b 16 3, pkey := leAt b 20 2
    rto := bits w24 0 16, retryCnt := bits w24 16 3, rnrRetry := bits w24 19 3, rnrTimer := bits w24 22 5
    ackCoal := bits w28 0 8, ackDelay := bits w28 8 16, maxRd := bits w28 24 5, window := leAt b 32 4
    sq := leAt b 36 4, rq := leAt b 40 4, scq := leAt b 44 4, rcq := leAt b 48 4, spill := leAt b 52 3
    sqPsn := leAt b 64 3, unaPsn := bits w68 0 24, retryLeft := bits w68 24 3, rnrLeft := bits w68 27 3
    sqStart := leAt b 72 3, sqDone := leAt b 76 3, timer := leAt b 80 8
    rdOut := bits w88 0 5, atomOut := bits w88 5 3, resyncPend := bitAt w88 8
    epsn := bits w128 0 24, nakSent := bitAt w128 24, msn := leAt b 132 3, rqCons := leAt b 136 3, ackPend := leAt b 140 1
    msgOffset := leAt b 144 4, curKey := leAt b 148 4, curAddr := leAt b 152 8, ackT0 := leAt b 160 8
    replay := replayOf b, lastUse := leAt b 240 8, errStatus := bits w248 0 8, errPsn := bits w248 8 24 }

/-- PMTU in bytes. -/
def QpCtx.mtu (c : QpCtx) : Nat := 1024 * 2 ^ c.pmtu

/-- Every field of bytes 0 to 63 of an image lies in its range, and its reserved fields are 0 (R153). A RoCEv2 pair's RNR_TIMER is the IBTA
code, 0 to 31 (R165). -/
def imageOk (b : List Byte) : Bool :=
  let c := ctxOf b
  bits (leAt b 0 4) 30 2 == 0 && c.cls ≤ 6 && bits (leAt b 8 4) 29 3 == 0 && !(c.pmtu == 3 && c.roce)
    && (!c.roce || c.dest < 2 ^ 20) && (c.cls < 4 || c.flow == 0) && leAt b 19 1 == 0 && leAt b 22 2 == 0
    && c.rto != 0 && (c.rnrTimer ≤ 20 || c.roce) && bits (leAt b 24 4) 27 5 == 0
    && c.ackCoal != 0 && c.maxRd != 0 && c.maxRd ≤ 16 && bits (leAt b 28 4) 29 3 == 0
    && c.window != 0 && c.window ≤ 2 ^ 23 && c.sq < 2 ^ 20 && c.rq < 2 ^ 20 && c.scq < 2 ^ 20 && c.rcq < 2 ^ 20
    && leAt b 55 1 == 0 && zeroAt b 56 8

/-- The queues an image names are of its instance and of the right type, and no other queue pair names its work queues (R219). -/
def State.queuesOk (s : State) (c : QpCtx) : Bool :=
  let ok (n type : Nat) : Bool := n == 0 || match s.queue? n with
    | some q => q.type == type && q.cid == c.cid
    | none => false
  ok c.sq 0 && ok c.rq 1 && ok c.scq 2 && ok c.rcq 2
    && (c.sq == 0 || !s.qps.any (fun e => e.1 != c.qpn && e.2.ctx.sq == c.sq))
    && (c.rq == 0 || !s.qps.any (fun e => e.1 != c.qpn && e.2.ctx.rq == c.rq))

/-! Residency (R145 to R149) -/

/-- The home bank of a queue pair. -/
def homeBank (q : Nat) : Nat := q % 64

/-- A context stands in its home bank. -/
def Qp.resident (x : Qp) : Bool :=
  match x.place with
  | .resident _ => true
  | _ => false

/-- Contexts of a bank that satisfy a test. -/
def State.bankQps (s : State) (k : Nat) (test : Qp → Bool) : List (Nat × Qp) := s.qps.filter (fun e => homeBank e.1 == k && test e.2)

/-- KENNEL_BANK_STS of a bank. -/
def State.showBank (s : State) (k : Nat) : State :=
  (s.put (Reg.KENNEL_BANK_STS.RESIDENT k) (s.bankQps k Qp.resident).length).put (Reg.KENNEL_BANK_STS.PINNED k)
    (s.bankQps k (fun x => x.resident && x.ctx.pin)).length

/-- The lowest healthy sub-bank of a bank with room for one more context (DESIGN CHOICE: the lowest, log 35). -/
def State.subBank? (s : State) (k : Nat) : Option Nat :=
  (List.range 16).find? (fun b => !s.disabled ⟨.kennel, k, b⟩
    && (s.bankQps k (fun x => x.place == .resident b)).length < 512)

/-- A context's spill slot can be reached. -/
def State.spillReach (s : State) (c : QpCtx) : Bool := c.tier == 0 || s.hostReach (s.owner (cidPart c.cid))

/-- Write a context's spill copy and leave it there (R146). A tier-2 copy waits in the victim buffer while the host's memory cannot be reached (08
R209; the buffer then holds more than 16, DESIGN CHOICE, log 139). -/
def State.spill (s : State) (q : Nat) : State :=
  match s.qp? q with
  | none => s
  | some x =>
    let p := cidPart x.ctx.cid
    if !s.spillReach x.ctx then
      { (s.setQp q { x with place := .victim }) with kennel := { s.kennel with victims := addTo s.kennel.victims q } }
    else
    let s := { (s.setQp q { x with place := .spilled }) with kennel := { s.kennel with victims := s.kennel.victims.filter (· != q) } }
    if x.ctx.tier = 0 then
      s.sysWrite (s.pair Reg.KENNEL_T1_BASE_LO.ADDR_LO Reg.KENNEL_T1_BASE_HI.ADDR_HI + 256 * x.ctx.spill) x.ctx.spilled
    else
      s.writeHost (s.owner p) (s.pair (Reg.KENNEL_T2_BASE_LO.ADDR_LO p) (Reg.KENNEL_T2_BASE_HI.ADDR_HI p) + 256 * x.ctx.spill) x.ctx.spilled

/-- Evict a resident context to its bank's victim buffer; the seventeenth pushes the oldest to its spill slot (R147). -/
def State.evict (s : State) (q : Nat) : State :=
  let s := (s.modQp q (fun x => { x with place := .victim })).count Reg.KENNEL_EVICT.COUNT
  let s := { s with kennel := { s.kennel with victims := s.kennel.victims ++ [q] } }
  let mine := s.kennel.victims.filter (fun v => homeBank v == homeBank q)
  if mine.length ≤ 16 then s
  else match mine.find? (fun v => match s.qp? v with | some x => s.spillReach x.ctx | none => false) with
    | some v => s.spill v
    | none => s

/-- A host's memory can be reached again: the victim buffers hold no more than 16 contexts where they need not (08 R209). -/
def State.drainVictims (s : State) : State :=
  s.kennel.victims.foldl (fun s v =>
    if 16 < (s.kennel.victims.filter (fun w => homeBank w == homeBank v)).length then s.spill v else s) s

/-- The least recently used among some contexts. -/
def lruOf : List (Nat × Qp) → Option (Nat × Qp)
  | [] => none
  | e :: es =>
    match lruOf es with
    | none => some e
    | some f => if e.2.ctx.lastUse ≤ f.2.ctx.lastUse then some e else some f

/-- Make room for a context of a partition in a bank (R147). -/
def State.makeRoom (s : State) (p k : Nat) : State :=
  let free (x : Qp) : Bool := x.resident && !x.ctx.pin
  let mine := s.qps.filter (fun e => e.2.resident && cidPart e.2.ctx.cid == p)
  if s.get (Reg.KENNEL_SHARE.SHARE p) ≤ mine.length then
    match lruOf (mine.filter (fun e => free e.2)) with
    | some e => (s.evict e.1).showBank (homeBank e.1)
    | none => s
  else if (s.subBank? k).isNone then
    match lruOf (s.bankQps k free) with
    | some e => s.evict e.1
    | none => s
  else s

/-- Put a context into its home bank, making room for it. -/
def State.bringIn (s : State) (q : Nat) : State :=
  match s.qp? q with
  | none => s
  | some x =>
    let k := homeBank q
    let s := s.makeRoom (cidPart x.ctx.cid) k
    let s := { s with kennel := { s.kennel with victims := s.kennel.victims.filter (· != q) } }
    match s.subBank? k with
    | some b => (s.modQp q (fun x => { x with place := .resident b, ctx := { x.ctx with lastUse := s.time.ftNs.toNat } })).showBank k
    | none => s

/-- Give back the tier-1 slot of a queue pair. -/
def State.freeSlotOf (s : State) (x : Qp) : State :=
  if x.ctx.tier = 0 then { s with kennel := { s.kennel with slots := s.kennel.slots.filter (· != x.ctx.spill) } } else s

/-- End a KENNEL command with a result; vector 3 is raised (08 R240). -/
def State.kcmdEnd (s : State) (h : HostId) (r : Nat) : State :=
  (((s.put (Reg.KENNEL_CMD_STS.BUSY h) 0).put (Reg.KENNEL_CMD_STS.DONE h) 1).put (Reg.KENNEL_CMD_STS.RESULT h) r).vector h 3

/-- The KENNEL commands that wait for the context of a queue pair that goes complete with BAD_STATE. -/
def State.endJobs (s : State) (q : Nat) : State :=
  let mine := s.kennel.jobs.filter (fun j => j.1 == q)
  let s := { s with kennel := { s.kennel with jobs := s.kennel.jobs.filter (fun j => j.1 != q) } }
  mine.foldl (fun s j => match j.2 with
    | .cmd h _ _ _ => s.kcmdEnd h 1
    | _ => s) s

/-- Remove a queue pair. -/
def State.dropQp (s : State) (q : Nat) : State :=
  match s.qp? q with
  | none => s
  | some x =>
    let s := (s.freeSlotOf x).endJobs q
    let s := { s with qps := s.qps.del q, held := s.held.del q
                      kennel := { s.kennel with victims := s.kennel.victims.filter (· != q), fetching := s.kennel.fetching.filter (· != q)
                                                waiting := s.kennel.waiting.filter (· != q), bad := s.kennel.bad.filter (· != q) } }
    (s.put Reg.KENNEL_STS.QPS (s.get Reg.KENNEL_STS.QPS - 1)).showBank (homeBank q)

/-! ERROR, draining -/

/-- The last started entry of a DRAINING queue pair has completed: DRAINED, with its event (Table 6.1). -/
def State.checkDrained (s : State) (q : Nat) : State :=
  match s.qp? q with
  | none => s
  | some x =>
    let idle := match s.queue? x.ctx.sq with
      | some w => w.live.all (fun l => !actsOnQp l.opcode)
      | none => true
    if x.ctx.state = 4 ∧ idle = true then
      (s.setQp q { x with ctx := { x.ctx with state := 5 } }).partEvent Ev.qpDrained (cidPart x.ctx.cid) (leBytes 4 q)
    else s

/-- End every started entry of a queue that has not ended; one whose last PSN is acknowledged ends OK (R171). -/
def State.endAll (s : State) (n st : Nat) : State :=
  match s.queue? n with
  | none => s
  | some w => (w.live.filter (fun l => actsOnQp l.opcode && l.done.isNone)).foldl (fun s l =>
    if l.acked then s.endEntry n l.pos 0 l.got else s.endEntry n l.pos st) s

/-- The resident context of a queue pair enters ERROR (R171): status and PSN are recorded, every started entry not yet ended is ABORTED; posted
ones complete as they reach the head. A FROZEN queue pair stays FROZEN and enters ERROR at the thaw (Table 6.1; DEDUCED, log 140). -/
def State.errorHere (s : State) (q st psn : Nat) : State :=
  match s.qp? q with
  | none => s
  | some x =>
    if x.ctx.state = 6 ∨ x.ctx.state = 0 ∨ (x.ctx.state = 7 ∧ x.prior = 6) then s
    else
      let s := s.setQp q { x with
        ctx := { x.ctx with state := if x.ctx.state = 7 then 7 else 6, errStatus := st, errPsn := psn, timer := 0, resyncPend := false, ackPend := 0 }
        prior := if x.ctx.state = 7 then 6 else x.prior, rnr := none, vis := [] }
      let s := { s with held := s.held.del q }
      (s.endAll x.ctx.sq 1).endAll x.ctx.rq 1

/-! The Retriever (R147, R148) -/

/-- Note a miss: counted for the bank, and fetched at once or once one of the bank's 64 fetches has ended; misses on one context share one. -/
def State.miss (s : State) (q : Nat) : State :=
  let k := homeBank q
  let s := s.count (Reg.KENNEL_BANK_MISS.MISSES k)
  if s.kennel.fetching.contains q || s.kennel.waiting.contains q then s
  else if (s.kennel.fetching.filter (fun x => homeBank x == k)).length < 64 then
    { s with kennel := { s.kennel with fetching := s.kennel.fetching ++ [q] } }
  else { s with kennel := { s.kennel with waiting := s.kennel.waiting ++ [q] } }

/-- Read the spilled copy of a context (R146). -/
def State.readSpill (s : State) (x : Qp) : State × Option (List Byte) :=
  let p := cidPart x.ctx.cid
  if x.ctx.tier = 0 then
    match s.sysRead (s.pair Reg.KENNEL_T1_BASE_LO.ADDR_LO Reg.KENNEL_T1_BASE_HI.ADDR_HI + 256 * x.ctx.spill) 256 with
    | (s, .ok bs) => (s.count Reg.KENNEL_FETCH_T1.COUNT, some bs)
    | (s, .error _) => (s.count Reg.KENNEL_FETCH_T1.COUNT, none)
  else
    let a := s.pair (Reg.KENNEL_T2_BASE_LO.ADDR_LO p) (Reg.KENNEL_T2_BASE_HI.ADDR_HI p) + 256 * x.ctx.spill
    (s.count Reg.KENNEL_FETCH_T2.COUNT, if s.hostBad (s.owner p) a 256 then none else some (s.hostRead (s.owner p) a 256))

/-- A spilled context arrives in its home bank (R147): a copy that fails its CRC, or cannot be read, moves the queue pair to ERROR
(R148). -/
def State.fetchIn (s : State) (q : Nat) : State :=
  match s.qp? q with
  | none => s
  | some x =>
    if x.resident then s
    else if x.place = .victim then s.bringIn q
    else match s.readSpill x with
      | (s, some bs) =>
        if leAt bs 252 4 = (crc32 (bs.take 252)).toNat then (s.setQp q { x with ctx := ctxOf bs }).bringIn q
        else ((s.count Reg.KENNEL_CTX_UNCORR.COUNT).bringIn q).errorHere q 0x40 x.ctx.unaPsn
      | (s, none) => ((s.count Reg.KENNEL_CTX_UNCORR.COUNT).bringIn q).errorHere q 0x40 x.ctx.unaPsn

/-- A context that cannot be read where it stands moves its queue pair to ERROR (R148); the word is reported to the Tinker engine (14 R378), in a block
of the bank that the spec leaves open: where a bank keeps a context (log 36). -/
def State.checkCtx (s : State) (q : Nat) : State :=
  if s.kennel.bad.contains q then
    let s := { s with kennel := { s.kennel with bad := s.kennel.bad.filter (· != q) } }
    let s := (s.sramUe 1 (homeBank q) (3264 + (Config.freeWord s.freeCtr).toNat % 512)).fresh
    (s.count Reg.KENNEL_CTX_UNCORR.COUNT).errorHere q 0x40 (((s.qp? q).map (·.ctx.unaPsn)).getD 0)
  else s

/-- The device needs a context at once, for what it does of itself (a fence, a freeze, a reset, a change of paths): one that is not
resident is fetched within the step (DESIGN CHOICE, log 141). -/
def State.need (s : State) (q : Nat) : State :=
  match s.qp? q with
  | none => s
  | some x =>
    if x.resident then s.checkCtx q
    else if x.place = .victim then s.fetchIn q
    else if s.spillReach x.ctx then (s.count (Reg.KENNEL_BANK_MISS.MISSES (homeBank q))).fetchIn q
    else s

/-- A context for which its bank has no room goes back to its spill slot. -/
def State.settle (s : State) (q : Nat) : State :=
  match s.qp? q with
  | some x => if x.place = .spilled then s.spill q else s
  | none => s

/-- The queue pair enters ERROR (R171). -/
def State.qpError (s : State) (q st psn : Nat) : State := ((s.need q).errorHere q st psn).settle q

/-- A started entry fails: it completes with the status, and a status marked ERROR moves the queue pair there (Table 6.10). -/
def State.failEntry (s : State) (q pos st psn : Nat) (remote : Bool) : State :=
  match s.qp? q with
  | none => s
  | some x => (s.endEntry x.ctx.sq pos st 0 0 remote).qpError q st psn

/-- The oldest started entry of a queue pair fails. -/
def State.failOldest (s : State) (q st : Nat) : State :=
  match s.qp? q with
  | none => s
  | some x =>
    match (s.queue? x.ctx.sq).bind (fun w => w.live.find? (fun l => isTransport l.opcode && l.done.isNone)) with
    | some l => s.failEntry q l.pos st x.ctx.unaPsn false
    | none => s.qpError q st x.ctx.unaPsn

/-- A command or event acts on a context: at once where it stands in its bank or the victim buffer, else once it has been fetched; a second
one of the same kind waits once (R147, R148). -/
def State.whenIn (s : State) (q : Nat) (j : CtxJob) (act : State → State) : State :=
  match s.qp? q with
  | none => act s
  | some x =>
    if x.resident then act (s.checkCtx q)
    else if x.place = .victim then act (s.fetchIn q)
    else
      let s := if s.kennel.jobs.contains (q, j) then s
        else { s with kennel := { s.kennel with jobs := s.kennel.jobs ++ [(q, j)] } }
      s.miss q


/-- The fetch of a context can end: its spill slot can be reached. -/
def State.fetchReady (s : State) (q : Nat) : Bool :=
  s.kennel.fetching.contains q && (match s.qp? q with | some x => s.spillReach x.ctx | none => true)

/-- A fetch ends: the context arrives, and a waiting miss of the bank takes the freed place. -/
def State.fetchDone (s : State) (q : Nat) : State :=
  if !s.fetchReady q then s
  else
    let s := { s with kennel := { s.kennel with fetching := s.kennel.fetching.filter (· != q) } }
    let s := match s.kennel.waiting.find? (fun x => homeBank x == homeBank q) with
      | some w => { s with kennel := { s.kennel with waiting := s.kennel.waiting.filter (· != w), fetching := s.kennel.fetching ++ [w] } }
      | none => s
    s.fetchIn q

/-! Commands (R151, R152) -/

/-- The commanding host may act on the queue pair and on the image's partition. -/
def State.kennelRights (s : State) (h : HostId) (q : Nat) (part : Option Nat) : Bool :=
  (match part with
    | some p => s.owner p == h && s.pstate p != 0
    | none => true)
  && match s.qp? q with
    | some x => s.owner (cidPart x.ctx.cid) == h
    | none => true

/-- The lowest free tier-1 slot (DESIGN CHOICE: the lowest, log 35). -/
def State.tier1Slot? (s : State) : Option Nat :=
  let n := s.get Reg.KENNEL_T1_SIZE.UNITS * 4096
  (List.range (s.kennel.slots.length + 1)).find? (fun i => i < n && !s.kennel.slots.contains i)

/-- CREATE. -/
def State.kennelCreate (s : State) (h : HostId) (q : Nat) (img : List Byte) : State :=
  let c := ctxOf img
  let p := cidPart c.cid
  if !s.kennelRights h q (some p) || !(s.pstate p == 2 || s.pstate p == 3) then s.kcmdEnd h 3
  else if !imageOk img || c.qpn != q || s.instPart? (cidInst c.cid) != some p || !s.queuesOk c
      || (c.tier == 1 && s.get (Reg.KENNEL_T2_SIZE.CONTEXTS p) ≤ c.spill) then s.kcmdEnd h 2
  else if (s.qp? q).isSome || c.state != 1 then s.kcmdEnd h 1
  else match (if c.tier = 0 then s.tier1Slot? else some c.spill) with
    | none => s.kcmdEnd h 4
    | some slot =>
      let x : QpCtx := {
        qpn := q, state := 1, roce := c.roce, tier := c.tier, cid := c.cid, cls := c.cls, pmtu := c.pmtu, pkey := c.pkey,
        sq := c.sq, rq := c.rq, scq := c.scq, rcq := c.rcq, spill := slot }
      let s := s.setQp q { ctx := x }
      let s := if c.tier = 0 then { s with kennel := { s.kennel with slots := s.kennel.slots ++ [slot] } } else s
      let s := s.put Reg.KENNEL_STS.QPS (s.get Reg.KENNEL_STS.QPS + 1)
      ((s.spill q).bringIn q).kcmdEnd h 0

/-- The context after a MODIFY to a state (Table 6.1); none where the transition does not exist. -/
def modified (c i : QpCtx) : Option QpCtx :=
  let params (c : QpCtx) : QpCtx := { c with
    rto := i.rto, retryCnt := i.retryCnt, rnrRetry := i.rnrRetry, rnrTimer := i.rnrTimer
    ackCoal := i.ackCoal, ackDelay := i.ackDelay }
  match c.state, i.state with
  | 1, 2 => some { c with state := 2, destQpn := i.destQpn, destCid := i.destCid, dest := i.dest, flow := i.flow, epsn := i.epsn }
  | 2, 3 => some { (params c) with
      state := 3, sqPsn := i.sqPsn, unaPsn := i.sqPsn, window := i.window, maxRd := i.maxRd
      retryLeft := i.retryCnt, rnrLeft := i.rnrRetry }
  | 3, 3 => some { (params c) with dest := i.dest }
  | 3, 4 => some { c with state := 4 }
  | 5, 3 => some { c with state := 3 }
  | 6, 0 => some { c with
      state := 0, sqPsn := 0, unaPsn := 0, retryLeft := 0, rnrLeft := 0, sqStart := 0, sqDone := 0, timer := 0
      rdOut := 0, atomOut := 0, resyncPend := false, epsn := 0, nakSent := false, msn := 0, rqCons := 0
      ackPend := 0, msgOffset := 0, curKey := 0, curAddr := 0, ackT0 := 0, replay := [], errStatus := 0, errPsn := 0 }
  | 0, 1 => some { c with state := 1 }
  | _, _ => none

/-- MODIFY. -/
def State.kennelModify (s : State) (h : HostId) (q : Nat) (img : List Byte) : State :=
  let i := ctxOf img
  if !s.kennelRights h q (some (cidPart i.cid)) then s.kcmdEnd h 3
  else match s.qp? q with
  | none => s.kcmdEnd h 1
  | some x =>
    if !imageOk img || i.qpn != q || !s.queuesOk { i with cid := x.ctx.cid }
        || (x.ctx.pin && (i.cls != x.ctx.cls || i.flow != x.ctx.flow)) then s.kcmdEnd h 2
    else if i.state = 6 ∧ 1 ≤ x.ctx.state ∧ x.ctx.state ≤ 5 then (s.qpError q 1 x.ctx.unaPsn).kcmdEnd h 0
    else match modified x.ctx i with
      | none => s.kcmdEnd h 1
      | some c =>
        let y : Qp := if c.state = 0 then { ctx := c, place := x.place } else { x with ctx := c }
        ((s.setQp q y).checkDrained q).kcmdEnd h 0

/-- QUERY. -/
def State.kennelQuery (s : State) (h : HostId) (q addr : Nat) : State :=
  if !s.kennelRights h q none then s.kcmdEnd h 3
  else
    match s.qp? q with
    | none => s.kcmdEnd h 1
    | some x => (s.writeHost h addr (x.ctx.body ++ leBytes 4 0)).kcmdEnd h 0

/-- DESTROY. -/
def State.kennelDestroy (s : State) (h : HostId) (q : Nat) : State :=
  if !s.kennelRights h q none then s.kcmdEnd h 3
  else
    match s.qp? q with
    | none => s.kcmdEnd h 1
    | some x =>
      if x.ctx.state = 3 ∨ x.ctx.state = 4 then s.kcmdEnd h 1
      else if x.ctx.pin then s.kcmdEnd h 5
      else (s.dropQp q).kcmdEnd h 0

/-- A KENNEL command acts on its queue pair. -/
def State.kennelAct (s : State) (h : HostId) (op q addr : Nat) (img : List Byte) : State :=
  match op with
  | 1 => s.kennelCreate h q img
  | 2 => s.kennelModify h q img
  | 3 => s.kennelQuery h q addr
  | 4 => s.kennelDestroy h q
  | _ => s.kcmdEnd h 2

/-- A KENNEL_CMD write (R151): with GO the command runs to its end, or waits, BUSY, for a context that has to be fetched first. -/
def kennelCmdEff (h : HostId) (v : Word) (seen : Seen) (s : State) : State :=
  let busy := s.flag (Reg.KENNEL_CMD_STS.BUSY h)
  let s := (s.put (Reg.KENNEL_CMD.QPN h) (wordField v 0 24)).put (Reg.KENNEL_CMD.OP h) (wordField v 24 3)
  if wordField v 31 1 = 0 ∨ busy = true then s
  else if s.inP2 then s.kcmdEnd h 1
  else
    let s := s.see seen
    let q := wordField v 0 24
    let addr := s.pair (Reg.KENNEL_CMD_ADDR_LO.ADDR_LO h) (Reg.KENNEL_CMD_ADDR_HI.ADDR_HI h)
    let img := s.hostRead h addr 256
    let op := wordField v 24 3
    if 2 ≤ op ∧ op ≤ 4 ∧ s.kennelRights h q (if op = 2 then some (cidPart (ctxOf img).cid) else none) = true then
      (s.put (Reg.KENNEL_CMD_STS.BUSY h) 1).whenIn q (.cmd h op addr img) (fun s => s.kennelAct h op q addr img)
    else s.kennelAct h op q addr img

/-- Writes of the tier-1 registers: only while no queue pair exists (R172). -/
def tier1Eff (off : Nat) (v : Word) (s : State) : State := if s.get Reg.KENNEL_STS.QPS = 0 then s.applyWrite off v else s

/-! A fenced sub-bank (R150) -/

/-- Contexts that the healthy sub-banks of a bank hold. -/
def State.bankRoom (s : State) (k : Nat) : Nat := 512 * ((List.range 16).filter (fun b => !s.disabled ⟨.kennel, k, b⟩)).length

/-- A pinned context of a fenced sub-bank moves to a healthy one of the bank, for which an unpinned one is evicted. -/
def State.movePinned (s : State) (k q : Nat) : State :=
  let s := if (s.subBank? k).isSome then s
    else match lruOf (s.bankQps k (fun x => x.resident && !x.ctx.pin)) with
      | some v => s.evict v.1
      | none => s
  match s.subBank? k with
  | some c => s.modQp q (fun x => { x with place := .resident c })
  | none => s.spill q

/-- The contexts of a fenced sub-bank: readable pinned ones move, readable unpinned ones go to their spill slots, one that cannot be read is
in ERROR (R148). Of the bank's pinned contexts, those its healthy sub-banks cannot hold are spilled, the highest QPNs. -/
def State.kennelFenced (s : State) (k b : Nat) : State :=
  let here := s.bankQps k (fun x => x.place == .resident b)
  let s := here.foldl (fun s e => s.checkCtx e.1) s
  let s := (here.filter (fun e => !e.2.ctx.pin)).foldl (fun s e => s.spill e.1) s
  let pins := s.bankQps k (fun x => x.resident && x.ctx.pin)
  let s := (pins.drop (s.bankRoom k)).foldl (fun s e => s.spill e.1) s
  let s := (s.bankQps k (fun x => x.place == .resident b)).foldl (fun s e => s.movePinned k e.1) s
  s.showBank k

end Sys2Proof.Machine
end

