-- ==== Sys2Proof/Machine/Packets.lean ====
section
/-! DEFINITION. Transport packets and their bytes: ELP (06_queue_pairs_and_delivery.md R155, R156, Tables 6.3 to 6.5) and RoCEv2 (R165, R166,
Tables 6.6, 6.7; the layouts of the IP, UDP and IBTA headers are PRESUMED from the RoCEv2 specification it names, log 40). -/

namespace Sys2Proof.Machine

/-- What a transport packet is. -/
inductive PKind where
  | send | write | readReq | readResp | cmpSwap | fetchAdd | atomicAck | ack | visAck | resync
  deriving DecidableEq, Repr

/-- Its place in a message. -/
inductive Seg where
  | first | middle | last | only
  deriving DecidableEq, Repr

/-- A decoded transport packet. `roce`: it came, or goes, as RoCEv2. `kindSyn`, `valSyn`: KIND and VALUE of its syndrome. -/
structure TPkt where
  kind : PKind
  seg : Seg := .only
  imm : Option Nat := none
  se : Bool := false
  ackReq : Bool := false
  visReq : Bool := false
  tag : Option Nat := none
  dqpn : Nat := 0
  psn : Nat := 0
  cid : Nat := 0
  sqpn : Nat := 0
  addr : Nat := 0
  key : Nat := 0
  len : Nat := 0
  op1 : Nat := 0
  op2 : Nat := 0
  kindSyn : Nat := 0
  valSyn : Nat := 0
  msn : Nat := 0
  orig : Nat := 0
  payload : List Byte := []
  roce : Bool := false
  pkey : Nat := 0
  src : Nat := 0
  deriving DecidableEq, Repr

/-- The packet begins a message. -/
def TPkt.opens (t : TPkt) : Bool := t.seg == .first || t.seg == .only

/-- The packet ends a message. -/
def TPkt.closes (t : TPkt) : Bool := t.seg == .last || t.seg == .only

/-- The packet carries RAE (Table 6.4). -/
def TPkt.hasRae (t : TPkt) : Bool := t.kind == .readReq || (t.kind == .write && t.opens)

/-- The packet carries AKE. -/
def TPkt.hasAke (t : TPkt) : Bool :=
  match t.kind with
  | .readResp => t.seg != .middle
  | .atomicAck | .ack | .visAck => true
  | _ => false

/-- The payload obeys the rule of its opcode (Table 6.4). -/
def TPkt.payloadOk (t : TPkt) (mtu : Nat) : Bool :=
  let n := t.payload.length
  match t.kind with
  | .send | .write | .readResp =>
    (match t.seg with
      | .first | .middle => n == mtu
      | .last => 1 ≤ n && n ≤ mtu
      | .only => n ≤ mtu)
  | _ => n == 0

/-- The syndrome is none of the reserved ones (R156). -/
def TPkt.synOk (t : TPkt) : Bool :=
  !t.hasAke || (match t.kindSyn with
    | 0 => t.valSyn == 0
    | 1 => t.valSyn ≤ 20 || t.roce
    | 3 => t.valSyn ≤ 8
    | _ => false)

/-! ELP -/

/-- Code of a place in a message, from 1. -/
def segCode : Seg → Nat
  | .first => 1 | .middle => 2 | .last => 3 | .only => 4

/-- The place of a code. -/
def segOf : Nat → Seg
  | 1 => .first | 2 => .middle | 3 => .last | _ => .only

/-- Opcode of a packet (Table 6.4). -/
def TPkt.elpOp (t : TPkt) : Nat :=
  let i := if t.imm.isSome && t.closes then 2 else 0
  match t.kind with
  | .send => segCode t.seg + i
  | .write => 0x10 + segCode t.seg + i
  | .readReq => 0x21
  | .readResp => 0x21 + segCode t.seg
  | .cmpSwap => 0x31
  | .fetchAdd => 0x32
  | .atomicAck => 0x33
  | .ack => 0x41
  | .visAck => 0x42
  | .resync => 0x43

/-- Kind, place and immediate flag of an opcode; none where it is reserved. -/
def elpKind (op : Nat) : Option (PKind × Seg × Bool) :=
  if 1 ≤ op ∧ op ≤ 4 then some (.send, segOf op, false)
  else if op = 5 then some (.send, .last, true)
  else if op = 6 then some (.send, .only, true)
  else if 0x11 ≤ op ∧ op ≤ 0x14 then some (.write, segOf (op - 0x10), false)
  else if op = 0x15 then some (.write, .last, true)
  else if op = 0x16 then some (.write, .only, true)
  else if op = 0x21 then some (.readReq, .only, false)
  else if 0x22 ≤ op ∧ op ≤ 0x25 then some (.readResp, segOf (op - 0x21), false)
  else if op = 0x31 then some (.cmpSwap, .only, false)
  else if op = 0x32 then some (.fetchAdd, .only, false)
  else if op = 0x33 then some (.atomicAck, .only, false)
  else if op = 0x41 then some (.ack, .only, false)
  else if op = 0x42 then some (.visAck, .only, false)
  else if op = 0x43 then some (.resync, .only, false)
  else none

/-- The packet executes an atomic. -/
def PKind.atomic : PKind → Bool
  | .cmpSwap | .fetchAdd => true
  | _ => false

/-- The bytes of a packet as an ELP frame carries them behind the link header. -/
def TPkt.elpBytes (t : TPkt) : List Byte :=
  leBytes 1 t.elpOp ++ leBytes 1 (b2n t.se + 2 * b2n t.ackReq + 4 * b2n t.visReq + 8 * b2n t.tag.isSome)
    ++ leBytes 3 t.dqpn ++ [0] ++ leBytes 3 t.psn ++ [0] ++ leBytes 2 t.cid ++ leBytes 3 t.sqpn ++ [0]
    ++ (if t.hasRae then leBytes 8 t.addr ++ leBytes 4 t.key ++ leBytes 4 t.len else [])
    ++ (match t.imm with | some i => leBytes 4 i | none => [])
    ++ (match t.tag with | some i => leBytes 4 i | none => [])
    ++ (if t.kind.atomic then leBytes 8 t.addr ++ leBytes 4 t.key ++ [0, 0, 0, 0] ++ leBytes 8 t.op1 ++ leBytes 8 t.op2 else [])
    ++ (if t.hasAke then leBytes 1 (t.valSyn + 32 * t.kindSyn) ++ leBytes 3 t.msn else [])
    ++ (if t.kind == .atomicAck then leBytes 8 t.orig else [])
    ++ t.payload

/-- A packet read from those bytes: none for a reserved opcode, or an extension missing or surplus. -/
def elpPkt (src : Nat) (b : List Byte) : Option TPkt :=
  match elpKind (leAt b 0 1) with
  | none => none
  | some (kind, seg, imm) =>
    let fl := leAt b 1 1
    let t : TPkt := {
      kind := kind, seg := seg, se := bitAt fl 0, ackReq := bitAt fl 1, visReq := bitAt fl 2, src := src
      dqpn := leAt b 2 3, psn := leAt b 6 3, cid := leAt b 10 2, sqpn := leAt b 12 3 }
    let tag := bitAt fl 3
    let rae := if t.hasRae then 16 else 0
    let im := if imm then 4 else 0
    let tg := if tag then 4 else 0
    let ate := if kind.atomic then 32 else 0
    let ake := if t.hasAke then 4 else 0
    let org := if kind == .atomicAck then 8 else 0
    let n := 16 + rae + im + tg + ate + ake + org
    if b.length < n ∨ (tag = true ∧ ¬ ((kind = .send ∨ kind = .write) ∧ t.closes = true)) then none
    else
      let a := 16 + rae + im + tg
      let k := a + ate
      some { t with
        addr := if kind.atomic then leAt b a 8 else if t.hasRae then leAt b 16 8 else 0
        key := if kind.atomic then leAt b (a + 8) 4 else if t.hasRae then leAt b 24 4 else 0
        len := if t.hasRae then leAt b 28 4 else 0
        imm := if imm then some (leAt b (16 + rae) 4) else none
        tag := if tag then some (leAt b (16 + rae + im) 4) else none
        op1 := if kind.atomic then leAt b (a + 16) 8 else 0
        op2 := if kind.atomic then leAt b (a + 24) 8 else 0
        kindSyn := if t.hasAke then leAt b k 1 / 32 else 0
        valSyn := if t.hasAke then leAt b k 1 % 32 else 0
        msn := if t.hasAke then leAt b (k + 1) 3 else 0
        orig := if kind == .atomicAck then leAt b (k + 4) 8 else 0
        payload := b.drop n }

/-! RoCEv2 (log 40) -/

/-- BTH opcode of a packet; ELP-only kinds have none. -/
def TPkt.bthOp (t : TPkt) : Option Nat :=
  let i := t.imm.isSome
  match t.kind with
  | .send => some (match t.seg with | .first => 0 | .middle => 1 | .last => if i then 3 else 2 | .only => if i then 5 else 4)
  | .write => some (match t.seg with | .first => 6 | .middle => 7 | .last => if i then 9 else 8 | .only => if i then 11 else 10)
  | .readReq => some 12
  | .readResp => some (match t.seg with | .first => 13 | .middle => 14 | .last => 15 | .only => 16)
  | .ack => some 17
  | .atomicAck => some 18
  | .cmpSwap => some 19
  | .fetchAdd => some 20
  | .visAck | .resync => none

/-- Kind, place and immediate flag of a BTH opcode. -/
def bthKind : Nat → Option (PKind × Seg × Bool)
  | 0 => some (.send, .first, false) | 1 => some (.send, .middle, false) | 2 => some (.send, .last, false)
  | 3 => some (.send, .last, true) | 4 => some (.send, .only, false) | 5 => some (.send, .only, true)
  | 6 => some (.write, .first, false) | 7 => some (.write, .middle, false) | 8 => some (.write, .last, false)
  | 9 => some (.write, .last, true) | 10 => some (.write, .only, false) | 11 => some (.write, .only, true)
  | 12 => some (.readReq, .only, false)
  | 13 => some (.readResp, .first, false) | 14 => some (.readResp, .middle, false) | 15 => some (.readResp, .last, false)
  | 16 => some (.readResp, .only, false)
  | 17 => some (.ack, .only, false) | 18 => some (.atomicAck, .only, false)
  | 19 => some (.cmpSwap, .only, false) | 20 => some (.fetchAdd, .only, false)
  | _ => none

/-- NAK code of IBTA for a code of Table 6.5 (log 40). -/
def nakToBth : Nat → Nat
  | 0 => 0 | 1 => 1 | 2 => 2 | 3 => 2 | 4 => 2 | _ => 3

/-- Code of Table 6.5 for a NAK code of IBTA (log 40); a code IBTA reserves stays reserved. -/
def nakOfBth : Nat → Nat
  | 0 => 0 | 1 => 1 | 2 => 2 | 3 => 5 | _ => 31

/-- BTH, extensions, payload and padding of a packet. -/
def TPkt.bthBytes (t : TPkt) (op : Nat) : List Byte :=
  let pad := (4 - t.payload.length % 4) % 4
  let syn := if t.kindSyn = 3 then 96 + nakToBth t.valSyn else 32 * t.kindSyn + t.valSyn
  leBytes 1 op ++ leBytes 1 (128 * b2n t.se + 16 * pad) ++ beBytes 2 t.pkey ++ [0] ++ beBytes 3 t.dqpn
    ++ leBytes 1 (128 * b2n t.ackReq) ++ beBytes 3 t.psn
    ++ (if t.hasRae then beBytes 8 t.addr ++ beBytes 4 t.key ++ beBytes 4 t.len else [])
    ++ (if t.kind.atomic then beBytes 8 t.addr ++ beBytes 4 t.key ++ beBytes 8 t.op1 ++ beBytes 8 t.op2 else [])
    ++ (if t.hasAke then leBytes 1 syn ++ beBytes 3 t.msn else [])
    ++ (if t.kind == .atomicAck then beBytes 8 t.orig else [])
    ++ (match t.imm with | some i => beBytes 4 i | none => [])
    ++ t.payload ++ List.replicate pad 0

/-- A packet read from BTH onward, without the ICRC: none where no supported form fits. -/
def bthPkt (b : List Byte) : Option TPkt :=
  match bthKind (leAt b 0 1) with
  | none => none
  | some (kind, seg, imm) =>
    let fl := leAt b 1 1
    let t : TPkt := {
      kind := kind, seg := seg, se := bitAt fl 7, ackReq := bitAt (leAt b 8 1) 7, roce := true
      pkey := beNat (slice b 2 2), dqpn := beNat (slice b 5 3), psn := beNat (slice b 9 3) }
    let pad := bits fl 4 2
    let rae := if t.hasRae then 16 else 0
    let ate := if kind.atomic then 28 else 0
    let ake := if t.hasAke then 4 else 0
    let org := if kind == .atomicAck then 8 else 0
    let im := if imm then 4 else 0
    let k := 12 + rae + ate
    let n := k + ake + org + im
    if b.length < n + pad then none
    else
      let syn := leAt b k 1
      some { t with
        addr := if t.hasRae || kind.atomic then beNat (slice b 12 8) else 0
        key := if t.hasRae || kind.atomic then beNat (slice b 20 4) else 0
        len := if t.hasRae then beNat (slice b 24 4) else 0
        op1 := if kind.atomic then beNat (slice b 24 8) else 0
        op2 := if kind.atomic then beNat (slice b 32 8) else 0
        kindSyn := if t.hasAke then syn / 32 else 0
        valSyn := if !t.hasAke then 0 else if syn / 32 = 0 then 0 else if syn / 32 = 3 then nakOfBth (syn % 32) else syn % 32
        msn := if t.hasAke then beNat (slice b (k + 1) 3) else 0
        orig := if kind == .atomicAck then beNat (slice b (k + 4) 8) else 0
        imm := if imm then some (beNat (slice b (n - 4) 4)) else none
        payload := (b.drop n).take (b.length - n - pad) }

/-- One's-complement checksum of an IPv4 header. -/
def ipSum (b : List Byte) : Nat :=
  let s := (List.range (b.length / 2)).foldl (fun a i => a + beNat (slice b (2 * i) 2)) 0
  let s := s % 65536 + s / 65536
  65535 - (s % 65536 + s / 65536)

/-- The IPv4 header of a packet, checksum given. -/
def ip4Head (dscp ttl total sum : Nat) (src dst : List Byte) : List Byte :=
  [0x45] ++ leBytes 1 (4 * dscp) ++ beBytes 2 total ++ [0, 0, 0x40, 0] ++ leBytes 1 ttl ++ [17] ++ beBytes 2 sum ++ src ++ dst

/-- The IPv6 header of a packet. -/
def ip6Head (dscp hops payload : Nat) (src dst : List Byte) : List Byte :=
  beBytes 4 (6 * 2 ^ 28 + dscp * 2 ^ 22) ++ beBytes 2 payload ++ [17] ++ leBytes 1 hops ++ src ++ dst

/-- The ICRC of a packet: CRC-32 over eight bytes of ones, the IP and UDP headers and BTH with their changing fields as ones, and the
rest. -/
def icrc (v6 : Bool) (ip udp bth : List Byte) : List Byte :=
  let ip := if v6 then beBytes 4 (6 * 2 ^ 28 + 2 ^ 28 - 1) ++ slice ip 4 3 ++ [0xFF] ++ ip.drop 8
    else (ip.take 1) ++ [0xFF] ++ slice ip 2 6 ++ [0xFF] ++ slice ip 9 1 ++ [0xFF, 0xFF] ++ ip.drop 12
  let udp := udp.take 6 ++ [0xFF, 0xFF]
  let bth := bth.take 4 ++ [0xFF] ++ bth.drop 5
  leBytes 4 (crc32 (List.replicate 8 0xFF ++ ip ++ udp ++ bth)).toNat

/-- What an Ethernet frame for the device holds. -/
inductive RoceIn where
  | none
  | badIcrc
  | cnp
  | unsupported
  | pkt (t : TPkt)
  deriving DecidableEq, Repr

/-- A RoCEv2 packet read from an Ethernet frame without its FCS. -/
def rocePkt (b : List Byte) : RoceIn :=
  let o := if ethTagged b then 18 else 14
  let ty := beNat (slice b (o - 2) 2)
  let v6 := ty == 0x86DD
  let ipn := if v6 then 40 else 20
  let ok := if v6 then leAt b o 1 / 16 == 6 && leAt b (o + 6) 1 == 17 else ty == 0x0800 && leAt b o 1 == 0x45 && leAt b (o + 9) 1 == 17
  let u := o + ipn
  let n := beNat (slice b (u + 4) 2)
  if !ok || beNat (slice b (u + 2) 2) != 4791 || n < 24 || b.length < u + n then .none
  else
    let all := slice b (u + 8) (n - 12)
    if slice b (u + n - 4) 4 != icrc v6 (slice b o ipn) (slice b u 8) all then .badIcrc
    else if leAt all 0 1 = 0x81 then .cnp
    else match bthPkt all with
      | .none => .unsupported
      | .some t => .pkt t

/-- An address vector (Table 6.7). -/
structure AddrVec where
  port : Nat
  sub : Nat
  smac : Nat
  v6 : Bool
  tagged : Bool
  dmac : List Byte
  vid : Nat
  pcp : Nat
  dscp : Nat
  ttl : Nat
  udpSrc : Nat
  srcIp : List Byte
  dstIp : List Byte
  deriving DecidableEq, Repr

/-- An address vector read from its bytes. -/
def addrVec (b : List Byte) : AddrVec where
  port := leAt b 0 1 % 64
  sub := leAt b 0 1 / 64
  smac := leAt b 1 1 % 16
  v6 := bitAt (leAt b 1 1) 4
  tagged := bitAt (leAt b 1 1) 5
  dmac := slice b 2 6
  vid := leAt b 8 2 % 4096
  pcp := bits (leAt b 8 2) 12 3
  dscp := leAt b 10 1 % 64
  ttl := leAt b 11 1
  udpSrc := leAt b 12 2
  srcIp := slice b 16 16
  dstIp := slice b 32 16

/-- The Ethernet frame, without FCS, that carries a packet along an address vector. -/
def AddrVec.frame (v : AddrVec) (smac : List Byte) (bth : List Byte) : List Byte :=
  let n := 12 + bth.length
  let udp := beBytes 2 v.udpSrc ++ beBytes 2 4791 ++ beBytes 2 n ++ [0, 0]
  let s4 := v.srcIp.drop 12
  let d4 := v.dstIp.drop 12
  let ip := if v.v6 then ip6Head v.dscp v.ttl n v.srcIp v.dstIp
    else ip4Head v.dscp v.ttl (20 + n) (ipSum (ip4Head v.dscp v.ttl (20 + n) 0 s4 d4)) s4 d4
  v.dmac ++ smac ++ (if v.tagged then [0x81, 0] ++ beBytes 2 (v.pcp * 8192 + v.vid) else [])
    ++ (if v.v6 then [0x86, 0xDD] else [8, 0]) ++ ip ++ udp ++ bth ++ icrc v.v6 ip udp bth

end Sys2Proof.Machine
end

