-- ==== Sys2Proof/Machine/Transport.lean ====
section
/-! DEFINITION. The requester of a queue pair: packets of started entries, the window, acknowledgement, resending, path hold
(06_queue_pairs_and_delivery.md R154, R158, R159, R162, R165 to R171). -/

namespace Sys2Proof.Machine

/-- PSNs count modulo 2^24. -/
def psnAdd (a n : Nat) : Nat := (a + n) % 2 ^ 24

/-- The distance from one PSN forward to another. -/
def psnSub (a b : Nat) : Nat := (a + 2 ^ 24 - b % 2 ^ 24) % 2 ^ 24

/-! Sending one packet -/

/-- The partition holds a port, or part of it (09 R246). -/
def State.holdsPort (s : State) (p port : Nat) : Bool :=
  (List.range 16).any (fun n => s.flag (Reg.PART_PSHARE.VALID p n) && s.get (Reg.PART_PSHARE.PORT p n) == port)

/-- The address vector of a RoCEv2 context (R166), or why the packet does not go: none while the table's memory waits, else the status its
entry ends with: PATH_LOST where PORT is no Ethernet-mode port of the partition or the table does not hold the vector (DEDUCED, log 41), the
memory's own refusal where it turns the read away (07 R183). -/
def State.avOf (s : State) (c : QpCtx) : State × Except (Option Nat) AddrVec :=
  let p := cidPart c.cid
  let i := c.dest % 2 ^ 20
  if s.get (Reg.PART_AV_NUM.NUM p) ≤ i then (s, .error (some 0x31))
  else
    let a := s.pair (Reg.PART_AV_BASE_LO.ADDR_LO p) (Reg.PART_AV_BASE_HI.ADDR_HI p) + 64 * i
    match s.memReadC c.cid 1 a 64 with
    | (s, .ok bs) =>
      let v := addrVec bs
      (s, if !s.native v.port && s.holdsPort p v.port then .ok v else .error (some 0x31))
    | (s, .error .wait) => (s, .error none)
    | (s, .error .ue) => (s, .error (some 0x40))
    | (s, .error .cid) => (s, .error (some 0x22))

/-- The frame that carries a packet of a queue pair; `req`: it comes from the requester, and a drop at this device starts the path hold
(R167). -/
def State.pktFrame (s : State) (c : QpCtx) (req : Bool) (t : TPkt) : State × Except (Option Nat) (Frame × Nat) :=
  let f : Frame := { kind := .transport, dst := c.dest, cls := c.cls, flow := c.flow, qpn := if req then some c.qpn else none }
  if !c.roce then (s, .ok ({ f with body := t.elpBytes }, 0))
  else match s.avOf c, t.bthOp with
    | (s, .ok v), some op =>
      let n := v.smac
      let smac := beBytes 6 (s.get (Reg.LINK_MAC_HI.ADDR_HI v.port n) * 2 ^ 32 + s.get (Reg.LINK_MAC_LO.ADDR_LO v.port n))
      let body := v.frame smac (t.bthBytes op)
      (s, .ok ({ f with kind := .ethernet, dst := 0, hasFca := false, body := body, fcs := (crc32 body).toNat, sub := v.sub }, v.port))
    | (s, .error e), _ => (s, .error e)
    | (s, _), none => (s, .error (some 0x31))

/-- A frame of a queue pair leaves for the mesh; an unscheduled RoCEv2 frame goes to the port of its address vector. -/
def State.sendFrame (s : State) (c : QpCtx) (f : Frame) (port : Nat) : State :=
  if !c.roce || c.flow != 0 then s.originate (homeBank c.qpn) f
  else
    let r := if s.usable port none then s.routeOut (homeBank c.qpn) port f.sub else .drop Reg.MESH_NOROUTE_DROP.COUNT
    s.follow (homeBank c.qpn) { f with epoch := s.get Reg.MESH_STS.EPOCH, arrived := s.time.ftNs } r

/-- Send a packet of a queue pair where its address vector gives a way. -/
def State.sendPkt (s : State) (c : QpCtx) (req : Bool) (t : TPkt) : State :=
  match s.pktFrame c req t with
  | (s, .ok (f, port)) => s.sendFrame c f port
  | (s, .error _) => s

/-- A new packet of a scheduled queue pair is not made before its flow admits it and every earlier frame of the flow has gone (05 R128), its image
active or suspended (R438); a frame over MAX_FRAME is made, and dropped. -/
def State.mayPace (s : State) (f : Frame) : Bool :=
  f.flow == 0 || match flowIn s.activeImages f.flow with
    | some (_, r) => r.maxFrame < f.len || (s.flowAdmits r f.len && !s.sched.paced.any (fun e => e.2.flow == f.flow))
    | none => true

/-! Started entries -/

/-- The buffer an entry names. -/
def entBuf (e : List Byte) : Buf := { space := entLspace e, addr := entLaddr e, indirect := entIndirect e }

/-- The local buffer of a started entry. -/
def Live.buf (l : Live) : Buf := { entBuf l.bytes with snap := l.tab }

/-- An entry completes only when its data is visible at the peer (Table 8.12): AUTO resolves to VISIBLE for peer memory; an entry that
writes no data ignores COMP_MODE (R239). -/
def Live.visible (l : Live) : Bool := l.opcode ≤ 4 && entMode l.bytes != 1 && l.len != 0

/-- A VISIBLE WRITE of a RoCEv2 pair ends with a READ of length 0 (Table 6.6). A SEND names no window and ends at its ACK (DEDUCED, log 42). -/
def Live.endsByRead (l : Live) (roce : Bool) : Bool := roce && l.visible && 3 ≤ l.opcode

/-- Packets of the message itself. -/
def Live.packets (l : Live) (mtu : Nat) : Nat := if 6 ≤ l.opcode then 1 else max 1 (ceilDiv l.len mtu)

/-- PSNs an entry takes (R158). -/
def Live.psns (l : Live) (c : QpCtx) : Nat := l.packets c.mtu + b2n (l.endsByRead c.roce)

/-- PSNs of an entry that need an answer of their own: responses of a READ, an ATOMIC_ACK, the READ that ends a VISIBLE WRITE. -/
def Live.answers (l : Live) (c : QpCtx) : Nat :=
  if 5 ≤ l.opcode then l.packets c.mtu else b2n (l.endsByRead c.roce)

/-- The first PSN of an entry whose answer has not come, if any. -/
def Live.awaits (l : Live) (c : QpCtx) : Option Nat :=
  if l.ans < l.answers c then some (psnAdd l.first (l.psns c - l.answers c + l.ans)) else none

/-- The started transport entries of a queue pair that have not ended. -/
def State.txLives (s : State) (c : QpCtx) : List Live :=
  match s.queue? c.sq with
  | some w => w.live.filter (fun l => isTransport l.opcode && l.done.isNone)
  | none => []

/-- The started entry that holds a PSN. -/
def State.liveAt (s : State) (c : QpCtx) (p : Nat) : Option Live :=
  (s.txLives c).find? (fun l => psnSub p l.first ≤ psnSub l.last l.first)

/-- A READ request or an atomic of an entry has been sent and not wholly answered; of a VISIBLE RoCEv2 WRITE its READ of length 0. -/
def Live.outstanding (l : Live) (c : QpCtx) : Bool :=
  l.issued && (l.awaits c).isSome && (5 ≤ l.opcode || psnSub l.last c.unaPsn < psnSub c.sqPsn c.unaPsn)

/-- RD_OUT and ATOM_OUT follow the started entries. -/
def State.showOut (s : State) (q : Nat) : State :=
  s.modCtx q (fun c =>
    let ls := (s.txLives c).filter (fun l => l.outstanding c)
    { c with rdOut := (ls.filter (fun l => l.opcode == 5 || l.opcode ≤ 4)).length, atomOut := (ls.filter (fun l => 6 ≤ l.opcode)).length })

/-! Building the packet at a PSN -/

/-- What stands at a PSN: a packet and the PSNs it takes, or why none goes now. -/
inductive Build where
  | pkt (t : TPkt) (psns : Nat)
  | wait
  | missing (fs : List Frag)
  | fail (st : Nat)
  deriving DecidableEq, Repr

/-- The place of packet i of n in its message. -/
def segAt (i n : Nat) : Seg :=
  if n = 1 then .only else if i = 0 then .first else if i + 1 = n then .last else .middle

/-- The data of a packet of a SEND or WRITE; a collective's transfer carries it. A table changed against R233 leaves the bytes open. -/
def State.sourceData (s : State) (c : QpCtx) (l : Live) (off n : Nat) : State × BufRes (List Byte) :=
  if l.coll.isSome then (s, .ok (slice l.data off n))
  else match s.bufRead c.cid l.buf off n with
  | (s, .bad) => (s.fresh, .ok (s.freeBytes n))
  | x => x

/-- The packet of an entry at a PSN (R154, R158). -/
def State.build (s : State) (c : QpCtx) (l : Live) (p : Nat) : State × Build :=
  let e := l.bytes
  let i := psnSub p l.first
  let n := l.packets c.mtu
  let ackAt (k : Nat) : Bool := psnAdd p (k - 1) == l.last || psnSub p c.unaPsn % max 1 (c.window / 2) == 0
  let t : TPkt := {
    kind := .send, dqpn := c.destQpn, psn := p, cid := c.destCid, sqpn := c.qpn, roce := c.roce, pkey := c.pkey, ackReq := ackAt 1
    key := leAt e 44 4, addr := leAt e 48 8, len := l.len }
  if l.opcode ≤ 4 then
    if n ≤ i then (s, .pkt { t with kind := .readReq, len := 0 } 1)
    else
      let seg := segAt i n
      let ends := i + 1 == n
      match s.sourceData c l (i * c.mtu) (min c.mtu (l.len - i * c.mtu)) with
      | (s, .ok bs) => (s, .pkt {
          t with
          kind := if l.opcode ≤ 2 then .send else .write
          seg := seg
          imm := if ends && l.opcode % 2 == 0 then some (leAt e 28 4) else none
          se := ends && entSe e
          visReq := ends && l.visible && !c.roce
          tag := if ends && entTagEn e then some (leAt e 56 4) else none
          payload := bs } 1)
      | (s, .missing fs) => (s, .missing fs)
      | (s, .err .wait) => (s, .wait)
      | (s, .err .ue) => (s, .fail 0x40)
      | (s, .err .cid) => (s, .fail 0x22)
      | (s, .bad) => (s, .fail 0x11)
  else if l.opcode = 5 then
    (s, .pkt { t with kind := .readReq, addr := t.addr + i * c.mtu, len := l.len - i * c.mtu, ackReq := ackAt (n - i) } (n - i))
  else
    (s, .pkt { t with kind := if l.opcode = 6 then .cmpSwap else .fetchAdd, key := leAt e 28 4, addr := leAt e 40 8
                      op1 := leAt e 48 8, op2 := if l.opcode = 6 then leAt e 56 8 else 0 } 1)

/-- FT_ns at which a timer of a context started now expires. -/
def State.rtoAt (s : State) (c : QpCtx) : Nat := s.time.ftNs.toNat + 64 * c.rto

/-- Fail an entry of the requester's queue (Table 6.10). -/
def State.failReq (s : State) (q pos st psn : Nat) (remote : Bool) : State := s.failEntry q pos st psn remote

/-- A source fragment is missing: the entry stops there and the fault is raised (R191); with no fault entry free it waits. -/
def State.stopAt (s : State) (c : QpCtx) (l : Live) (fs : List Frag) : State :=
  match fs with
  | [] => s
  | f :: _ =>
    match s.raiseFault c.cid f { engine := 1, write := false, qpn := some c.qpn } (.entry c.sq l.pos) with
    | (s, some _) => s.modLive c.sq l.pos (fun l => { l with stopped := true })
    | (s, none) => s

/-- The requester may send: RTS or DRAINING, no path hold, no RNR wait. -/
def Qp.sends (x : Qp) : Bool := (x.ctx.state == 3 || x.ctx.state == 4) && x.rnr.isNone

/-- The window, READ and atomic limits allow the entry's packet at a PSN (R158); the READ of length 0 that ends a VISIBLE RoCEv2 WRITE counts as a
READ. -/
def State.limitsOk (s : State) (c : QpCtx) (l : Live) (p : Nat) : Bool :=
  let out := (s.txLives c).filter (fun l => l.outstanding c)
  let read := l.opcode == 5 || (l.opcode ≤ 4 && l.packets c.mtu ≤ psnSub p l.first)
  psnSub p c.unaPsn < c.window
    && (!read || (out.filter (fun l => l.opcode ≤ 5)).length < c.maxRd)
    && (l.opcode < 6 || (out.filter (fun l => 6 ≤ l.opcode)).length < 4)

/-- The requester's sending stands: no pending RESYNC where the packet is new, no path hold (R167, R170). -/
def State.mayGo (s : State) (q : Nat) (x : Qp) : Bool :=
  x.sends && !s.held.any (fun h => h.1 == q) && (x.again.isSome || !x.ctx.resyncPend)

/-- Send packets of a queue pair's started entries, those that go again first, while the limits, the flow's bucket and the source data allow them. The
fuel bounds the packets. -/
def State.pumpN (s : State) (q : Nat) : Nat → State
  | 0 => s
  | k + 1 =>
    match s.qp? q with
    | none => s
    | some x =>
      let c := x.ctx
      let p := x.again.getD c.sqPsn
      if !s.mayGo q x then s
      else match s.liveAt c p with
      | none => if x.again.isSome then (s.modQp q (fun x => { x with again := none })).pumpN q k else s
      | some l =>
        if x.again = some c.sqPsn then (s.modQp q (fun x => { x with again := none })).pumpN q k
        else if l.stopped || (x.again.isNone && !s.limitsOk c l p) then s
        else match s.build c l p with
        | (s, .pkt t n) =>
          match s.pktFrame c true t with
          | (s, .error none) => s
          | (s, .error (some st)) => s.failReq q l.pos st p false
          | (s, .ok (f, port)) =>
            if !s.mayPace f then s
            else
              let s := s.sendFrame c f port
              let s := if x.again.isSome then s.modQp q (fun x => { x with again := some (psnAdd p n) })
                else s.modCtx q (fun c => { c with
                  sqPsn := psnAdd c.sqPsn n, timer := if c.timer = 0 then s.rtoAt c else c.timer
                  lastUse := s.time.ftNs.toNat })
              ((s.modLive c.sq l.pos (fun l => { l with issued := true })).showOut q).pumpN q k
        | (s, .wait) => s
        | (s, .missing fs) => s.stopAt c l fs
        | (s, .fail st) => s.failReq q l.pos st p false

/-- PSNs of started entries. -/
def State.unsent (s : State) (c : QpCtx) : Nat := (s.txLives c).foldl (fun a l => a + l.psns c) 0

/-- A packet stands ready to be sent, for the first time or again. -/
def State.hasPkt (s : State) (q : Nat) (x : Qp) : Bool := s.mayGo q x && (s.liveAt x.ctx (x.again.getD x.ctx.sqPsn)).isSome

/-- Send what may be sent, once the context is in its bank. -/
def State.pump (s : State) (q : Nat) : State :=
  match s.qp? q with
  | some x => if s.hasPkt q x then s.whenIn q .send (fun s => s.pumpN q (2 * s.unsent x.ctx + 2)) else s
  | none => s

/-! Resending -/

/-- Send the RESYNC of a pending abort (R170). -/
def State.sendResync (s : State) (q : Nat) : State :=
  match s.qp? q with
  | none => s
  | some x =>
    if x.ctx.resyncPend then
      s.sendPkt x.ctx true { kind := .resync, dqpn := x.ctx.destQpn, psn := x.resync, cid := x.ctx.destCid, sqpn := q }
    else s

/-- Resend from a PSN up to SQ_PSN, the pending RESYNC included, and start the timer. A resend of packets counts once in KENNEL_RETX (DEDUCED, log 43). -/
def State.resend (s : State) (q p : Nat) : State :=
  match s.qp? q with
  | none => s
  | some x =>
    let c := x.ctx
    let any := psnSub c.sqPsn p != 0
    if !x.sends then s
    else
      let s := if any then (s.disturb c.sq).count Reg.KENNEL_RETX.COUNT else s
      let s := (s.modQp q (fun x => { x with
        again := if any then some p else none
        ctx := { x.ctx with timer := if !any && !x.ctx.resyncPend then 0 else s.rtoAt x.ctx } })).pump q
      s.sendResync q

/-- Go back to UNA_PSN (R159): with no retry left the oldest started entry is RETRY_EXHAUSTED. During a path hold nothing is sent and no retry is
consumed (R167). -/
def State.goBack (s : State) (q : Nat) : State :=
  match s.qp? q with
  | none => s
  | some x =>
    if s.held.any (fun h => h.1 == q) then s
    else if x.ctx.retryLeft = 0 then s.failOldest q 0x30
    else (s.modCtx q (fun c => { c with retryLeft := c.retryLeft - 1 })).resend q x.ctx.unaPsn

/-! Acknowledgement (R159) -/

/-- A started entry has all it waits for (Table 8.12). -/
def Live.complete (l : Live) (c : QpCtx) : Bool :=
  l.acked && l.ans == l.answers c && (!l.visible || l.endsByRead c.roce || c.roce || l.visGot)

/-- Bytes moved, as the completion gives them: of a READ alone (Table 8.11). -/
def Live.moved (l : Live) : Nat := if l.opcode = 5 then l.got else 0

/-- Complete every started entry of a queue pair that has all it waits for. -/
def State.finishEntries (s : State) (q : Nat) : State :=
  match s.qp? q with
  | none => s
  | some x =>
    let done := (s.txLives x.ctx).filter (fun l => l.complete x.ctx)
    (done.foldl (fun s l => s.endEntry x.ctx.sq l.pos 0 l.moved) s).checkDrained q

/-- A PSN acknowledges [UNA_PSN, p]; not past a PSN that still awaits an answer of its own (DEDUCED, log 44). -/
def State.ackTo (s : State) (q p : Nat) : State :=
  match s.qp? q with
  | none => s
  | some x =>
    let c := x.ctx
    let d := psnSub p c.unaPsn
    if psnSub c.sqPsn c.unaPsn ≤ d then s
    else
      let n := (s.txLives c).foldl (fun m l => match l.awaits c with
        | some g => min m (psnSub g c.unaPsn)
        | none => m) (d + 1)
      if n = 0 then s
      else
        let una := psnAdd c.unaPsn n
        let s := match s.queue? c.sq with
          | some w => s.setQueue c.sq { w with live := w.live.map (fun (l : Live) =>
              if isTransport l.opcode && l.done.isNone && !l.acked && psnSub l.last c.unaPsn < n then { l with acked := true } else l) }
          | none => s
        let s := s.modQp q (fun x => { x with
          again := x.again.map (fun a => if psnSub a c.unaPsn < n then una else a)
          ctx := { x.ctx with unaPsn := una, retryLeft := c.retryCnt, rnrLeft := c.rnrRetry
                              timer := if una = c.sqPsn then 0 else s.rtoAt c } })
        ((s.finishEntries q).showOut q).pump q

/-- The oldest started entry not acknowledged fails by the peer's word (Table 6.5). -/
def State.failByPeer (s : State) (q st psn : Nat) : State :=
  match s.qp? q with
  | none => s
  | some x =>
    match (s.txLives x.ctx).find? (fun l => !l.acked) with
    | some l => s.failReq q l.pos st psn true
    | none => s.qpError q st psn

/-- Completion status of a NAK code (Table 6.5). -/
def nakStatus : Nat → Nat
  | 1 => 0x10 | 2 => 0x20 | 3 => 0x21 | 4 => 0x22 | 5 => 0x40 | 6 => 0x32 | 7 => 0x41 | 8 => 0x51 | _ => 0x10

/-- The acknowledging PSN of a packet is not behind UNA_PSN or beyond what was sent. -/
def QpCtx.current (c : QpCtx) (p : Nat) : Bool := psnSub p c.unaPsn ≤ psnSub c.sqPsn c.unaPsn

/-- An ACK: it acknowledges, and answers a pending RESYNC of the next PSN (DEDUCED, log 45). -/
def State.onAck (s : State) (q p : Nat) : State :=
  let s := s.ackTo q p
  match s.qp? q with
  | none => s
  | some x =>
    if x.ctx.resyncPend ∧ psnAdd p 1 = x.resync then
      (s.modCtx q (fun c => { c with resyncPend := false, timer := if c.unaPsn = c.sqPsn then 0 else c.timer })).pump q
    else s

/-- A NAK (R159, Table 6.5). It acknowledges up to the PSN before its own. -/
def State.onNak (s : State) (q p code : Nat) : State :=
  match s.qp? q with
  | none => s
  | some x =>
    if !x.ctx.current p then s
    else
      let s := s.ackTo q (psnAdd p (2 ^ 24 - 1))
      if code = 0 then s.goBack q else s.failByPeer q (nakStatus code) p

/-- An RNR NAK (R159). -/
def State.onRnr (s : State) (q p : Nat) : State :=
  match s.qp? q with
  | none => s
  | some x =>
    let s := s.count Reg.KENNEL_RNR.COUNT
    if !x.ctx.current p || x.rnr.isSome then s
    else
      let s := s.ackTo q (psnAdd p (2 ^ 24 - 1))
      match s.qp? q with
      | none => s
      | some x =>
        if x.ctx.rnrRetry ≠ 7 ∧ x.ctx.rnrLeft = 0 then
          (match s.liveAt x.ctx p with
          | some l => s.failReq q l.pos 0x30 p false
          | none => s.failOldest q 0x30)
        else s.setQp q {
            x with
            rnr := some p, ctx := { x.ctx with timer := 0, rnrLeft := if x.ctx.rnrRetry = 7 then x.ctx.rnrLeft else x.ctx.rnrLeft - 1 } }

/-- A VIS_ACK (R162). -/
def State.onVisAck (s : State) (q p : Nat) : State :=
  match s.qp? q with
  | none => s
  | some x =>
    let s := match s.queue? x.ctx.sq with
      | some w => s.setQueue x.ctx.sq { w with live := w.live.map (fun (l : Live) =>
          if isTransport l.opcode && l.done.isNone && l.issued && l.last == p then { l with visGot := true } else l) }
      | none => s
    s.finishEntries q

/-- A READ response, or the answer to a READ that ends a VISIBLE WRITE: placed, then acknowledged. `none`: it waits for its memory. -/
def State.onReadResp (s : State) (q : Nat) (t : TPkt) : Option State :=
  match s.qp? q with
  | none => some s
  | some x =>
    let c := x.ctx
    match s.liveAt c t.psn with
    | none => some s
    | some l =>
      if l.awaits c ≠ some t.psn ∨ 6 ≤ l.opcode then some s
      else
        let off := l.got
        if (if l.opcode = 5 then min c.mtu (l.len - off) else 0) ≠ t.payload.length then some s
        else
          let took (s : State) : State :=
            (s.modLive c.sq l.pos (fun l => { l with ans := l.ans + 1, got := l.got + t.payload.length })).ackTo q t.psn
          if t.payload.isEmpty then some (took s)
          else if l.coll.isSome then some (took (s.modLive c.sq l.pos (fun l => { l with data := l.data ++ t.payload })))
          else match s.placeTile c.cid l.buf off t.payload c.sq l.pos { engine := 3, write := true, qpn := some q, unit := homeBank q } with
            | (_, .err .wait) => none
            | (s, .err .ue) => some (s.failReq q l.pos 0x40 t.psn false)
            | (s, .err .cid) => some (s.failReq q l.pos 0x22 t.psn false)
            | (s, _) => some (took s)

/-- An ATOMIC_ACK: the original value is written, then acknowledged. -/
def State.onAtomicAck (s : State) (q : Nat) (t : TPkt) : Option State :=
  match s.qp? q with
  | none => some s
  | some x =>
    let c := x.ctx
    match s.liveAt c t.psn with
    | none => some s
    | some l =>
      if l.awaits c ≠ some t.psn ∨ l.opcode < 6 then some s
      else
        let took (s : State) : State := (s.modLive c.sq l.pos (fun l => { l with ans := 1 })).ackTo q t.psn
        if l.coll.isSome then some (took s)
        else match s.placeTile c.cid l.buf 0 (leBytes 8 t.orig) c.sq l.pos { engine := 5, write := true, qpn := some q, unit := homeBank q } with
        | (_, .err .wait) => none
        | (s, .err .ue) => some (s.failReq q l.pos 0x40 t.psn false)
        | (s, .err .cid) => some (s.failReq q l.pos 0x22 t.psn false)
        | (s, _) => some (took s)

/-! Timers and the path hold -/

/-- The retransmission timer of a queue pair expires (R159). -/
def State.timerOut (s : State) (q : Nat) : State :=
  match s.qp? q with
  | none => s
  | some x => if x.ctx.timer ≠ 0 ∧ x.sends = true then s.goBack q else s

/-- RETRANSMIT_TIMEOUT. -/
def retransmitTimeoutEff (q : Nat) (seen : Seen) (s : State) : State :=
  match s.qp? q with
  | none => s
  | some x => if x.ctx.timer = 0 then s else (s.see seen).whenIn q .timeout (fun s => s.timerOut q)

/-- The RNR wait of a queue pair ends (R159): it resends from the NAKed PSN; during a path hold it waits for the route (R167). -/
def State.rnrOut (s : State) (q : Nat) : State :=
  match s.qp? q with
  | none => s
  | some x =>
    match x.rnr with
    | none => s
    | some p =>
      let s := s.modQp q (fun x => { x with rnr := none })
      if s.held.any (fun h => h.1 == q) then s else (s.resend q p).pump q

/-- RNR_WAIT_EXPIRY. -/
def rnrExpiryEff (q : Nat) (seen : Seen) (s : State) : State :=
  match s.qp? q with
  | none => s
  | some x => if x.rnr.isNone then s else (s.see seen).whenIn q .rnr (fun s => s.rnrOut q)

/-- PATH_HOLD_EXPIRY (R167). A FROZEN queue pair stays FROZEN (R152). -/
def pathHoldExpiryEff (q : Nat) (s : State) : State :=
  match s.held.at? q, s.qp? q with
  | some fenced, some x =>
    let st := if fenced then 0x32 else 0x31
    let s := { s with held := s.held.del q }
    if x.ctx.state = 7 then s
    else
      let s := (s.txLives x.ctx).foldl (fun s l => if l.acked then s else s.endEntry x.ctx.sq l.pos st) s
      s.qpError q st x.ctx.unaPsn
  | _, _ => s

/-- Whether a usable route leads where a queue pair sends (R167). -/
def State.routeBack (s : State) (c : QpCtx) : Bool :=
  if c.roce then
    (match (s.avOf c).2 with
      | .ok v => s.usable v.port none && s.meshReach (homeBank c.qpn) (routerOfPort v.port)
      | .error _ => false)
  else match s.routeFca (s.get Reg.MESH_STS.EPOCH) (homeBank c.qpn) {
      kind := .transport, dst := c.dest, cls := c.cls
      body := [0, 0] ++ leBytes 3 c.destQpn } with
    | .drop _ => false
    | _ => true

/-- A held queue pair has a usable route again: it resends from UNA_PSN, no retry consumed (R167). One that waits for its RNR delay resends from there
after it. -/
def State.unhold (s : State) (q : Nat) (x : Qp) : State :=
  let s := { s with held := s.held.del q }
  if x.rnr.isSome then s.modQp q (fun x => { x with rnr := some x.ctx.unaPsn }) else (s.resend q x.ctx.unaPsn).pump q

/-- A scheduled queue pair whose flow has no path left: every started entry completes with PATH_LOST and the pair enters ERROR; where a fenced local
endpoint is the cause, the remote sender gets NAK FENCED (R168, R150). -/
def State.flowLost (s : State) (c : QpCtx) (fenced : Bool) : State :=
  let s := (s.txLives c).foldl (fun s l => if l.acked then s else s.endEntry c.sq l.pos 0x31) s
  let s := s.qpError c.qpn 0x31 c.unaPsn
  if fenced then
    s.sendPkt c false { kind := .ack, dqpn := c.destQpn, psn := c.epsn, cid := c.cid, sqpn := c.qpn, kindSyn := 3, valSyn := 6
                        msn := c.msn, roce := c.roce, pkey := c.pkey }
  else s

/-- A change of ports, links, fences or routes: flows move to their backups (04 R113); queue pairs held by a lost route that is usable again go on (R167);
a scheduled queue pair, RTR to DRAINED, whose flow has no path left ends (R168). -/
def State.pathsChanged (s : State) : State :=
  let s := s.refreshBackups
  let s := s.held.foldl (fun s h =>
    match s.qp? h.1 with
    | some x => if s.routeBack x.ctx then s.unhold h.1 x else s
    | none => s) s
  s.qps.foldl (fun s e =>
    let c := e.2.ctx
    if c.flow = 0 ∨ ¬ (2 ≤ c.state ∧ c.state ≤ 5) then s
    else match flowIn s.activeImages c.flow with
      | none => s
      | some (i, r) =>
        match i.pathOf r false with
        | none => s
        | some p =>
          if s.endLost r || (s.pathBlocked p (s.flowCls r) && r.backup == 0xFFFF) then
            s.flowLost c (s.endLost r || (p.stageValid && s.flag (Reg.CLUSTER_LMAP.FENCED (p.stage / 64) (p.stage % 64)))
              || (!p.toPort && !s.endServes p.endRes))
          else s) s

end Sys2Proof.Machine
end

