-- ==== Sys2Proof/Machine/Responder.lean ====
section
/-! DEFINITION. The responder of a queue pair, and the packets that arrive for the device's queue pairs
(06_queue_pairs_and_delivery.md R155 to R165; 07_memory_windows.md R180 to R187, R191, R201, R202; 03_link_ports.md R85). -/

namespace Sys2Proof.Machine

/-! Answers -/

/-- Send an answer of the responder: its own CID, its MSN. -/
def State.answer (s : State) (q : Nat) (t : TPkt) : State :=
  match s.qp? q with
  | none => s
  | some x =>
    let c := x.ctx
    s.sendPkt c false { t with dqpn := c.destQpn, cid := c.cid, sqpn := q, msn := c.msn, roce := c.roce, pkey := c.pkey }

/-- Send a NAK with a code and PSN and set NAK_SENT (R160, R180; the other NAKs of a refused packet likewise, DEDUCED, log 46). -/
def State.nak (s : State) (q code psn : Nat) : State :=
  (s.modCtx q (fun c => { c with nakSent := true })).answer q { kind := .ack, psn := psn, kindSyn := 3, valSyn := code }

/-- Send an RNR NAK (R161). -/
def State.rnrNak (s : State) (q psn : Nat) : State :=
  match s.qp? q with
  | none => s
  | some x => s.answer q { kind := .ack, psn := psn, kindSyn := 1, valSyn := x.ctx.rnrTimer }

/-- Send the ACK of the last accepted PSN; not while an early packet has made NAK_SENT 1 (R161). -/
def State.sendAck (s : State) (q : Nat) : State :=
  match s.qp? q with
  | none => s
  | some x =>
    if x.early then s
    else
      (s.modCtx q (fun c => { c with ackPend := 0, ackT0 := 0 })).answer q { kind := .ack, psn := psnAdd x.ctx.epsn (2 ^ 24 - 1) }

/-- A packet is accepted (R160): EPSN advances over its PSNs, NAK_SENT clears, MSN counts a completed message. -/
def State.accepted (s : State) (q psns : Nat) (closes : Bool) : State :=
  s.modQp q (fun x => { x with
    early := false
    ctx := { x.ctx with epsn := psnAdd x.ctx.epsn psns, nakSent := false, msn := (x.ctx.msn + b2n closes) % 2 ^ 24
                        lastUse := s.time.ftNs.toNat } })

/-- An accepted SEND or WRITE packet waits for its ACK, or gets it at once (R161). -/
def State.oweAck (s : State) (q : Nat) (req : Bool) : State :=
  match s.qp? q with
  | none => s
  | some x =>
    let c := x.ctx
    let n := min (c.ackPend + 1) 255
    let s := s.setQp q { x with ctx := { c with ackPend := n, ackT0 := if c.ackPend = 0 then s.time.ftNs.toNat else c.ackT0 } }
    if req || c.ackCoal ≤ n then s.sendAck q else s

/-- NAK code of a memory's refusal (R183, Table 6.5). -/
def memNak : MemErr → Nat
  | .ue => 5
  | _ => 4

/-! Receive entries -/

/-- The receive entry in use: the oldest posted one (R224). -/
def State.recvEntry? (s : State) (c : QpCtx) : Option Live :=
  match s.queue? c.rq with
  | some w => w.live.find? (fun l => l.opcode == 0x40 && l.done.isNone && l.issued)
  | none => none

/-- A receive entry ends, with the immediate data and SE of its message where it ends OK. -/
def State.endRecv (s : State) (c : QpCtx) (l : Live) (st bytes : Nat) (t : TPkt) : State :=
  let s := s.modLive c.rq l.pos (fun l => { l with imm := st = 0 && t.imm.isSome, se := st = 0 && t.se })
  let s := s.modCtx c.qpn (fun c => { c with msgOffset := 0, rqCons := (l.pos + 1) % 2 ^ 24 })
  s.endEntry c.rq l.pos st bytes (if st = 0 then t.imm.getD 0 else 0)

/-! TAG and VIS -/

/-- The slot and generation a TAG names; none where R201 refuses it. -/
def State.tagOk (s : State) (p tag : Nat) : Bool :=
  tag / 2 ^ 24 == 0 && s.trigOf p (tag % 65536) && (s.trig (tag % 65536)).gen == bits tag 16 8

/-- A packet that carries VIS_REQ, new or a duplicate, gets a VIS_ACK once its data is visible (R162); `host`: the data lies in host memory. -/
def State.oweVis (s : State) (q : Nat) (t : TPkt) (host : Bool) : State :=
  if t.visReq then s.modQp q (fun x => if x.vis.any (fun v => v.1 == t.psn) then x else { x with vis := x.vis ++ [(t.psn, host)] }) else s

/-- An accepted packet's VIS_ACK and tagged increment are owed (R162, R202). -/
def State.oweFlags (s : State) (q : Nat) (c : QpCtx) (t : TPkt) (host : Bool) : State :=
  let s := s.oweVis q t host
  match t.tag with
  | some g => { s with trigPend := s.trigPend ++ [{ slot := g % 65536, gen := bits g 16 8, part := cidPart c.cid, host := host }] }
  | none => s

/-! The packets. Each answers none where the packet waits for its memory. -/

/-- A WRITE packet at EPSN (R180 to R183, R187). A WRITE with immediate data consumes a receive entry (DEDUCED, log 47). -/
def State.acceptWrite (s : State) (q : Nat) (x : Qp) (t : TPkt) : Option State :=
  let c := x.ctx
  let n := t.payload.length
  let rv := if t.imm.isSome then s.recvEntry? c else none
  let key := if t.hasRae then t.key else c.curKey
  let addr := if t.hasRae then t.addr else c.curAddr
  match s.winCheck c.cid key .write addr (if t.hasRae then t.len else n) with
  | some code => some (s.nak q code t.psn)
  | none =>
    if (match t.tag with | some g => !s.tagOk (cidPart c.cid) g | none => false) then some (s.nak q 2 t.psn)
    else if t.imm.isSome ∧ rv.isNone then some (s.rnrNak q t.psn)
    else
      let i := key / 4096
      match s.memWriteC c.cid (s.win i).space addr t.payload with
      | (_, .error .wait) => none
      | (s, .error e) => some (s.nak q (memNak e) t.psn)
      | (s, .ok _) =>
        let wlen := (if t.hasRae then 0 else x.wlen) + n
        let s := s.inflightUp i
        let s := s.modQp q (fun x => { x with wlen := wlen, ctx := { x.ctx with curKey := key, curAddr := addr + n } })
        let s := (s.accepted q 1 t.closes).oweFlags q c t ((s.win i).space == 0)
        let s := match rv with
          | some l => s.endRecv c l 0 wlen t
          | none => s
        some (s.oweAck q t.ackReq)

/-- A SEND packet at EPSN (R161, R191, R198, R230). -/
def State.acceptSend (s : State) (q : Nat) (x : Qp) (t : TPkt) : Option State :=
  let c := x.ctx
  if x.recvFail then some ((s.setQp q { x with recvFail := false }).nak q 7 t.psn)
  else
  match s.recvEntry? c with
  | none => some (s.rnrNak q t.psn)
  | some l =>
    let off := if t.opens then 0 else c.msgOffset
    if l.len < off + t.payload.length then some ((s.endRecv c l 0x10 0 t).nak q 1 t.psn)
    else if (match t.tag with | some g => !s.tagOk (cidPart c.cid) g | none => false) then some (s.nak q 2 t.psn)
    else match s.bufWrite c.cid l.buf off t.payload with
    | (_, .err .wait) => none
    | (s, .err e) =>
      let st := if e = .ue then 0x40 else 0x22
      some (((s.endRecv c l st 0 t).nak q (memNak e) t.psn).qpError q st t.psn)
    | (s, .missing fs) =>
      let (s, raised) := if x.recvFault then (s, true) else
        match fs with
        | f :: _ =>
          let r := s.raiseFault c.cid f { engine := 4, write := true, qpn := some q } (.recv q)
          (r.1, r.2.isSome)
        | [] => (s, false)
      let s := s.modQp q (fun x => { x with recvFault := raised, ctx := { x.ctx with nakSent := true } })
      some (s.rnrNak q t.psn)
    | (s, _) =>
      let n := off + t.payload.length
      let s := s.modQp q (fun x => { x with recvFault := false, ctx := { x.ctx with msgOffset := n } })
      let s := (s.accepted q 1 t.closes).oweFlags q c t l.toHost
      let s := if t.closes then s.endRecv c l 0 n t else s
      some (s.oweAck q t.ackReq)

/-- The responses of a READ, from its first PSN (Table 6.4). -/
def State.readResponses (s : State) (q psn mtu : Nat) (bs : List Byte) : State :=
  let n := max 1 (ceilDiv bs.length mtu)
  (List.range n).foldl (fun s i =>
    s.answer q { kind := .readResp, seg := segAt i n, psn := psnAdd psn i, payload := slice bs (i * mtu) mtu }) s

/-- A READ_REQ, new (`fresh`) or a duplicate that is executed again (R160, R180). -/
def State.acceptRead (s : State) (q : Nat) (x : Qp) (t : TPkt) (fresh : Bool) : Option State :=
  let c := x.ctx
  match s.winCheck c.cid t.key .read t.addr t.len with
  | some code => some (s.nak q code t.psn)
  | none =>
    let i := t.key / 4096
    match (if t.len = 0 then (s, .ok []) else s.memReadC c.cid (s.win i).space t.addr t.len) with
    | (_, .error .wait) => none
    | (s, .error e) => some (s.nak q (memNak e) t.psn)
    | (s, .ok bs) =>
      let s := s.inflightUp i
      let s := if fresh then s.accepted q (max 1 (ceilDiv t.len c.mtu)) true else s
      let s := s.readResponses q t.psn c.mtu bs
      some (if fresh && t.ackReq then s.sendAck q else s)

/-- An atomic acts on 8 bytes of a memory: on host memory as the PCIe AtomicOp of its kind (R164); a compare that fails writes nothing. -/
def State.atomicOn (s : State) (c : QpCtx) (space addr : Nat) (t : TPkt) (old : Nat) : State × Except MemErr Unit :=
  let add := t.kind == .fetchAdd
  let new := if add then (old + t.op1) % 2 ^ 64 else t.op1
  let hit := add || old == t.op2
  if space = 0 then
    let h := s.owner (cidPart c.cid)
    let s := if hit then s.keepHost h addr (leBytes 8 new) else s
    (s.emit (if add then .hostAdd h addr t.op1 else .hostCas h addr t.op2 t.op1), .ok ())
  else if hit then s.memWriteC c.cid space addr (leBytes 8 new)
  else (s, .ok ())

/-- An atomic at EPSN (R160, R164): executed, kept in REPLAY, answered. -/
def State.acceptAtomic (s : State) (q : Nat) (x : Qp) (t : TPkt) : Option State :=
  let c := x.ctx
  match s.winCheck c.cid t.key .atomic t.addr 8 with
  | some code => some (s.nak q code t.psn)
  | none =>
    let i := t.key / 4096
    let sp := (s.win i).space
    match s.memReadC c.cid sp t.addr 8 with
    | (_, .error .wait) => none
    | (s, .error e) => some (s.nak q (memNak e) t.psn)
    | (s, .ok bs) =>
      let old := leNat bs
      match s.atomicOn c sp t.addr t old with
      | (s, .error e) => some (s.nak q (memNak e) t.psn)
      | (s, .ok _) =>
        let s := s.inflightUp i
        let s := s.modQp q (fun x => { x with
          replayNext := (x.replayNext + 1) % 4, ctx := { x.ctx with replay := x.ctx.replay.set x.replayNext (t.psn, old) } })
        let s := (s.accepted q 1 true).answer q { kind := .atomicAck, psn := t.psn, orig := old }
        some (if t.ackReq then s.sendAck q else s)

/-- A RESYNC (R170): EPSN takes its PSN, a message in progress is given up, and the responder acknowledges. -/
def State.acceptResync (s : State) (q psn : Nat) : State :=
  (s.modQp q (fun x => { x with
    early := false, recvFault := false
    ctx := { x.ctx with epsn := psn, nakSent := false, msgOffset := 0, ackPend := 0, ackT0 := 0 } })).sendAck q

/-- A request packet, by its PSN (R157, R160). -/
def State.request (s : State) (q : Nat) (x : Qp) (t : TPkt) : Option State :=
  let c := x.ctx
  let d := psnSub t.psn c.epsn
  if t.kind = .resync then some (s.acceptResync q t.psn)
  else if d = 0 then
    if !t.roce && t.cid != c.cid then some (s.nak q 4 t.psn)
    else match t.kind with
      | .write => s.acceptWrite q x t
      | .readReq => s.acceptRead q x t true
      | .cmpSwap | .fetchAdd => s.acceptAtomic q x t
      | _ => s.acceptSend q x t
  else if d < 2 ^ 23 then
    if c.nakSent then some s
    else
      let s := (s.count Reg.KENNEL_NAK_SEQ.COUNT).modQp q (fun x => { x with early := true })
      some (s.nak q 0 c.epsn)
  else match t.kind with
    | .readReq => if !t.roce && t.cid != c.cid then some (s.nak q 4 t.psn) else s.acceptRead q x t false
    | .cmpSwap | .fetchAdd =>
      match c.replay.find? (fun r => r.2.1 == t.psn) with
      | some r => some (s.answer q { kind := .atomicAck, psn := t.psn, orig := r.2.2 })
      | none => some s
    | k =>
      let host := match k with
        | .write => (s.win ((if t.hasRae then t.key else c.curKey) / 4096)).space == 0
        | _ => match s.recvEntry? c with | some l => l.toHost | none => false
      some ((s.oweVis q t host).answer q { kind := .ack, psn := psnAdd c.epsn (2 ^ 24 - 1) })

/-! Arrival -/

/-- The rows of the command table that take a packet. -/
inductive RxRow where
  | send | write | readReq | atomic | readResp | atomicAck | ack | nak | rnrNak | visAck | resync
  deriving DecidableEq, Repr

/-- The row that takes a packet. -/
def TPkt.row (t : TPkt) : RxRow :=
  match t.kind with
  | .send => .send
  | .write => .write
  | .readReq => .readReq
  | .cmpSwap | .fetchAdd => .atomic
  | .readResp => .readResp
  | .atomicAck => .atomicAck
  | .visAck => .visAck
  | .resync => .resync
  | .ack => if t.kindSyn = 0 then .ack else if t.kindSyn = 1 then .rnrNak else .nak

/-- A request, to which a quiesced partition answers NAK QUIESCED (09 R258). -/
def PKind.isRequest : PKind → Bool
  | .send | .write | .readReq | .cmpSwap | .fetchAdd | .resync => true
  | _ => false

/-- What a waiting packet is: a transport packet, or one dropped with or without a counter. -/
inductive RxIn where
  | pkt (t : TPkt)
  | drop (c : Option Fld)
  deriving DecidableEq, Repr

/-- Decode a waiting packet. -/
def RxPkt.decode (x : RxPkt) : RxIn :=
  if x.roce then
    match rocePkt x.bytes with
    | .none => .drop none
    | .badIcrc => .drop (some Reg.KENNEL_ICRC_DROP.COUNT)
    | .cnp => .drop (some Reg.KENNEL_CNP_DROP.COUNT)
    | .unsupported => .drop (some Reg.KENNEL_NOQP_DROP.COUNT)
    | .pkt t => .pkt t
  else match elpPkt x.src x.bytes with
    | some t => .pkt t
    | none => .drop (some Reg.KENNEL_NOQP_DROP.COUNT)

/-- A packet whose context is not resident leaves its class's cells and waits in the port's miss buffer, or is dropped there (03 R85). -/
def State.missIn (s : State) (x : RxPkt) (q : Nat) : State :=
  let occ := (s.port x.port).missCells
  if !s.flag (Reg.LINK_CFG.MISS_EN x.port) || x.cls < 4 || 8192 < occ + x.cells
      || (x.cls == 7 && s.get (Reg.LINK_MISS_WM.HIGH x.port) ≤ occ) then ((s.pktGone x).count (Reg.LINK_MISS_DROP.COUNT x.port)).miss q
  else
    let s := s.frameGone { x.frame with counted := false, onBackup := false }
    let p := s.port x.port
    let k := subCls x.sub x.cls
    let high := s.get (Reg.LINK_MISS_WM.HIGH x.port) ≤ occ + x.cells && x.cls != 7 && !p.missOff.contains k
    let s := s.setPort x.port { p with missq := p.missq ++ [{ x with held := 0 }], missOff := if high then p.missOff ++ [k] else p.missOff }
    let s := if high && !p.xoff.contains k then s.sendPause x.port x.sub x.cls true else s
    s.miss q

/-- A waiting packet of a queue pair. -/
def RxPkt.isFor (x : RxPkt) (q : Nat) : Bool :=
  match x.decode with
  | .pkt t => t.dqpn == q
  | .drop _ => false

/-- The packets that waited in miss buffers for a context go ahead of what came later. -/
def State.unmiss (s : State) (q : Nat) : State :=
  let back := s.ports.flatMap (fun e => e.2.missq.filter (fun x => x.isFor q))
  let s := s.ports.foldl (fun s e =>
    if e.2.missq.any (fun x => x.isFor q) then
      (s.setPort e.1 { s.port e.1 with missq := (s.port e.1).missq.filter (fun x => !x.isFor q) }).missRelease e.1
    else s) s
  { s with rxq := back ++ s.rxq }

/-- R155: the packet fits its queue pair. -/
def Qp.fits (x : Qp) (t : TPkt) : Bool :=
  let c := x.ctx
  2 ≤ c.state && t.roce == c.roce && t.payloadOk c.mtu && t.synOk
    && (t.roce || (t.sqpn == c.destQpn && devOf t.src == devOf c.dest))

/-- RoCEv2 partition keys agree (Table 6.6). -/
def pkeyOk (a b : Nat) : Bool := a % 32768 == b % 32768 && (bitAt a 15 || bitAt b 15)

/-- A packet for a queue pair whose context is in its bank. None where it waits for a memory. -/
def State.takePkt (s : State) (t : TPkt) : Option State :=
  let q := t.dqpn
  let s := s.checkCtx q
  match s.qp? q with
  | none => some (s.count Reg.KENNEL_NOQP_DROP.COUNT)
  | some y =>
    if !y.fits t then some (s.count Reg.KENNEL_NOQP_DROP.COUNT)
    else if t.roce && !pkeyOk t.pkey y.ctx.pkey then some s
    else if y.ctx.state = 6 ∨ y.ctx.state = 7 then some s
    else if t.kind.isRequest && s.pstate (cidPart y.ctx.cid) == 4 then
      some (s.answer q { kind := .ack, psn := t.psn, kindSyn := 3, valSyn := 8 })
    else
      let s := s.modCtx q (fun c => { c with lastUse := s.time.ftNs.toNat })
      match t.row with
      | .ack => some (s.onAck q t.psn)
      | .nak => some (s.onNak q t.psn t.valSyn)
      | .rnrNak => some (s.onRnr q t.psn)
      | .visAck => some (s.onVisAck q t.psn)
      | .readResp => s.onReadResp q t
      | .atomicAck => s.onAtomicAck q t
      | _ => s.request q y t

/-- A packet for a queue pair whose context is not in its bank. -/
def State.absent (s : State) (q : Nat) : Bool :=
  match s.qp? q with
  | some y => !y.resident
  | none => false

/-- The packet that goes next: the oldest one that the unit at the end of its path serves now (05 R123), and the others. -/
def State.nextPkt (s : State) : Option (RxPkt × List RxPkt) :=
  match s.rxq.findIdx? (fun x => s.endOpen x) with
  | some i => (s.rxq[i]?).map (fun x => (x, s.rxq.eraseIdx i))
  | none => none

/-- Packets that go next and are no transport packets, dropped and counted (R155, Table 6.6). The fuel bounds them. -/
def State.dropBad (s : State) : Nat → State
  | 0 => s
  | k + 1 =>
    match s.nextPkt with
    | none => s
    | some (x, xs) =>
      match x.decode with
      | .pkt _ => s
      | .drop c =>
        let s := ({ s with rxq := xs }).pktGone x
        (match c with
          | some c => s.count c
          | none => s).dropBad k

/-- A receive row takes the packet that goes next where it is one of its kind. -/
def receiveEff (row : RxRow) (seen : Seen) (s : State) : State :=
  let s := (s.see seen).dropBad s.rxq.length
  match s.nextPkt with
  | none => s
  | some (x, xs) =>
    match x.decode with
    | .drop _ => s
    | .pkt t =>
      if t.row ≠ row then s
      else if s.absent t.dqpn then ({ s with rxq := xs }).missIn x t.dqpn
      else match ({ s with rxq := xs }).takePkt t with
        | some s => s.pktGone x
        | none => s

/-- ACK_DELAY passes after ACK_T0 (R161). -/
def State.ackDelayOut (s : State) (q : Nat) : State :=
  match s.qp? q with
  | some x => if x.ctx.ackPend ≠ 0 ∧ 2 ≤ x.ctx.state ∧ x.ctx.state ≤ 5 then s.sendAck q else s
  | none => s

/-- ACK_DELAY_EXPIRY. -/
def ackDelayEff (q : Nat) (s : State) : State :=
  match s.qp? q with
  | some x => if x.ctx.ackPend ≠ 0 ∧ 2 ≤ x.ctx.state ∧ x.ctx.state ≤ 5 then s.whenIn q .ackDelay (fun s => s.ackDelayOut q) else s
  | none => s

/-- The data of a packet is visible: its VIS_ACK goes (R162); a FROZEN queue pair sends nothing (R152), and owes it on. -/
def State.visOut (s : State) (q psn : Nat) : State :=
  match s.qp? q with
  | some x =>
    if x.ctx.state ≠ 7 ∧ x.vis.any (fun v => v.1 == psn) = true then
      (s.setQp q { x with vis := x.vis.filter (fun v => v.1 != psn) }).answer q { kind := .visAck, psn := psn }
    else s
  | none => s

/-- VISIBILITY_REACHED for a packet. Data in host memory is visible by a read-back on the owner's port. -/
def visPacketEff (q psn : Nat) (s : State) : State :=
  match s.qp? q with
  | some x =>
    match x.vis.find? (fun v => v.1 == psn) with
    | some (_, host) =>
      if x.ctx.state = 7 ∨ (host = true ∧ s.hostServes (s.owner (cidPart x.ctx.cid)) = false) then s
      else s.whenIn q (.visible psn) (fun s => s.visOut q psn)
    | none => s
  | none => s

/-- VISIBILITY_REACHED for a work entry: the read-back of its data has completed on its owner's port, and its flag may be written (08 R239). -/
def visEntryEff (n pos : Nat) (s : State) : State :=
  match s.queue? n with
  | some w =>
    if w.live.any (fun l => l.pos == pos && l.back) && s.hostServes (s.owner (cidPart w.cid)) then
      (s.modLive n pos (fun l => { l with back := false })).flushQueue n w.live.length
    else s
  | none => s

/-- VISIBILITY_REACHED (R162, 08 R239). -/
def visibilityEff (owner : VisOwner) (place : Nat) (s : State) : State :=
  match owner with
  | .pair q => visPacketEff q.toNat place s
  | .queue n => visEntryEff n.toNat place s

/-- The tagged messages not yet counted whose data can be committed: one in host memory needs a read-back on the owner's port (07 R202). -/
def State.trigMayCount (s : State) : List Nat :=
  (List.range s.trigPend.length).filter (fun i => (s.trigPend[i]?).any (fun t => !t.host || s.hostServes (s.owner t.part)))

/-- The message at a place counts. -/
def State.trigCounts (s : State) (i : Nat) : State :=
  match s.trigPend[i]? with
  | none => s
  | some t => ({ s with trigPend := s.trigPend.eraseIdx i }).trigInc t.part t.slot t.gen

/-- TRIG_INCREMENT: all data of a tagged message has committed, and it counts (07 R202). Which of those that can is free (log 159). -/
def trigIncrementEff (s : State) : State :=
  match s.trigMayCount with
  | [] => s
  | i :: is => (s.trigCounts ((i :: is).getD ((Config.freeWord s.freeCtr).toNat % (is.length + 1)) i)).fresh

/-! The rows -/

def execSendReceive (seen : Seen) (s : State) : Answer := .next (receiveEff .send seen s)
def execWriteReceive (seen : Seen) (s : State) : Answer := .next (receiveEff .write seen s)
def execReadReqReceive (seen : Seen) (s : State) : Answer := .next (receiveEff .readReq seen s)
def execAtomicReceive (seen : Seen) (s : State) : Answer := .next (receiveEff .atomic seen s)
def execReadRespReceive (seen : Seen) (s : State) : Answer := .next (receiveEff .readResp seen s)
def execAtomicAckReceive (seen : Seen) (s : State) : Answer := .next (receiveEff .atomicAck seen s)
def execAckReceive (seen : Seen) (s : State) : Answer := .next (receiveEff .ack seen s)
def execNakReceive (seen : Seen) (s : State) : Answer := .next (receiveEff .nak seen s)
def execRnrNakReceive (seen : Seen) (s : State) : Answer := .next (receiveEff .rnrNak seen s)
def execVisAckReceive (seen : Seen) (s : State) : Answer := .next (receiveEff .visAck seen s)
def execResyncReceive (seen : Seen) (s : State) : Answer := .next (receiveEff .resync seen s)
def execRetransmitTimeout (qpn : BitVec 24) (seen : Seen) (s : State) : Answer := .next (retransmitTimeoutEff qpn.toNat seen s)
def execRnrWaitExpiry (qpn : BitVec 24) (seen : Seen) (s : State) : Answer := .next (rnrExpiryEff qpn.toNat seen s)
def execAckDelayExpiry (qpn : BitVec 24) (s : State) : Answer := .next (ackDelayEff qpn.toNat s)
def execVisibilityReached (owner : VisOwner) (place : Nat) (s : State) : Answer := .next (visibilityEff owner place s)
def execPathHoldExpiry (qpn : BitVec 24) (s : State) : Answer := .next (pathHoldExpiryEff qpn.toNat s)
def execTrigIncrement (s : State) : Answer := .next (trigIncrementEff s)

/-- KENNEL_CMD writes with each OP (R151). -/
def kennelOpEff (op : Nat) (host : HostId) (value : Word) (seen : Seen) (s : State) : State :=
  s.hostWrite host (Reg.KENNEL_CMD.off host) (fun s =>
    if wordField value 24 3 = op then (kennelCmdEff host value seen s) else s)

end Sys2Proof.Machine
end

