-- ==== Sys2Proof/Machine/Work.lean ====
section
/-! DEFINITION. Work entries: their checks, their start, and what each opcode does (08_host_interface_and_work_queues.md R224 to R233, R239;
07 R178, R179, R185 to R188, R200, R203; 06 R154, R170). -/

namespace Sys2Proof.Machine

/-! Checks (R229, R230) -/

/-- Bytes of an entry that its opcode does not list are 0, and so are the bits it reserves (Table 8.9). -/
def entReservedOk (e : List Byte) : Bool :=
  let op := leAt e 0 1
  let z := zeroAt e
  let a52 (i : Nat) : Bool := leAt e i 8 < 2 ^ 52
  let tag := entTagEn e || z 56 4
  leAt e 2 2 < 2 ^ 11 && z 7 1 && z 23 1 && z 26 2
    && (match op with
      | 0x00 => z 28 36
      | 0x01 => z 28 4 && a52 32 && z 44 12 && tag && z 60 4
      | 0x02 => a52 32 && z 44 12 && tag && z 60 4
      | 0x03 => z 28 4 && a52 32 && a52 48 && tag && z 60 4
      | 0x04 => a52 32 && a52 48 && tag && z 60 4
      | 0x05 => z 28 4 && a52 32 && a52 48 && z 56 8
      | 0x06 => a52 32 && a52 40
      | 0x07 => a52 32 && a52 40 && z 56 8
      | 0x10 => z 28 4 && a52 32 && leAt e 44 1 < 8 && z 45 3 && a52 48 && z 56 8
      | 0x11 => true
      | 0x20 => z 28 4 && leAt e 32 8 < 2 ^ 54 && a52 40 && leAt e 48 1 < 16 && z 49 15
      | 0x21 => z 32 32
      | 0x22 => z 30 34
      | 0x30 => leAt e 28 4 < 2 ^ 28 && z 32 32
      | 0x40 => z 28 4 && a52 32 && z 44 20
      | _ => false)

/-- The opcode is defined and allowed on a queue of the type (Table 8.8). -/
def opAllowed (op type : Nat) : Bool :=
  if op = 0x40 then type == 1
  else type == 0 && (op ≤ 7 || op == 0x10 || op == 0x11 || op == 0x20 || op == 0x21 || op == 0x22 || op == 0x30)

/-- The entry moves LENGTH bytes from or to LADDR. -/
def hasLength (op : Nat) : Bool := (1 ≤ op && op ≤ 5) || op == 0x10 || op == 0x40

/-- R230: the entry completes with MALFORMED_ENTRY. `qp`: the queue pair that names its queue. -/
def entMalformed (type : Nat) (qp : Option QpCtx) (e : List Byte) : Bool :=
  let op := leAt e 0 1
  let atomic := op == 6 || op == 7
  !opAllowed op type || !entReservedOk e || entMode e == 3 || entLspace e == 3 || (op == 0x10 && leAt e 44 1 % 4 == 3)
    || (isTransport op && (match qp with | some c => c.qpn != entQpn e | none => true))
    || (hasLength op && 2 ^ 31 < entLength e)
    || (atomic && entIndirect e)
    || (entTagEn e && (op == 5 || atomic || (isTransport op && (match qp with | some c => c.roce | none => false))))
    || (op == 0x40 && entTrigWait e)
    || ((hasLength op || atomic) && !entIndirect e && 2 ^ 52 < entLaddr e + (if atomic then 8 else entLength e))
    || (op == 0x10 && !bitAt (leAt e 44 1) 2 && 2 ^ 52 < leAt e 48 8 + entLength e)

/-- The destination buffer of a COPY. -/
def copyDest (e : List Byte) : Buf := { space := leAt e 44 1 % 4, addr := leAt e 48 8, indirect := bitAt (leAt e 44 1) 2 }

/-- The fragment tables an entry names are read up to byte LENGTH − 1 (R232): a status where the entry cannot start, or wait. -/
def State.tablesOk (s : State) (cid : Nat) (e : List Byte) : State × Option (Option Nat) :=
  let op := leAt e 0 1
  let bufs := (if hasLength op && entIndirect e then [entBuf e] else [])
    ++ (if op == 0x10 && (copyDest e).indirect then [copyDest e] else [])
  bufs.foldl (fun r b =>
    match r with
    | (s, none) =>
      match s.frags cid b (entLength e) with
      | (s, .bad) => (s, some (some 0x11))
      | (s, .err .wait) => (s, some none)
      | (s, .err .ue) => (s, some (some 0x40))
      | (s, .err .cid) => (s, some (some 0x22))
      | (s, _) => (s, none)
    | x => x) (s, none)

/-! Starting (R224) -/

/-- The queue, its partition and its completion queue let an entry start. -/
def State.mayBegin (s : State) (n : Nat) (q : Queue) (op : Nat) : Bool :=
  let p := cidPart q.cid
  q.type != 2 && !q.stopped && s.pstate p != 4 && !s.flag (Reg.PART_STS.BUSY p) && !s.inP2
    && (match s.queue? (s.cqOf n q op) with | some c => !c.full | none => true)

/-- The head of a queue may be considered: no earlier entry of it stands at a missing fragment (R191) or is an INVOKE that waits for its dispatch
core (10 R297). -/
def State.mayStart (s : State) (n : Nat) (q : Queue) (op : Nat) : Bool :=
  s.mayBegin n q op && !q.live.any (fun l => l.stopped || (l.opcode == 0x11 && !l.issued))

/-- A start condition on a trigger slot (07 R203): satisfied, waiting, or malformed. A slot outside the partition's range counts as malformed
(DEDUCED, log 48). -/
def State.trigReady (s : State) (p : Nat) (e : List Byte) : Option Bool :=
  if !entTrigWait e then some true
  else
    let t := s.trig (leAt e 16 2)
    if !s.trigOf p (leAt e 16 2) || t.gen != leAt e 18 1 then none else some (leAt e 20 3 ≤ t.count)

/-- First PSN of a new entry: behind the last started one, or SQ_PSN. -/
def State.nextFirst (s : State) (c : QpCtx) : Nat :=
  match (s.txLives c).getLast? with
  | some l => psnAdd l.last 1
  | none => c.sqPsn

/-- The fragments of a buffer that an entry uses, as they stand now (R233). -/
def State.snapshot (s : State) (cid : Nat) (b : Buf) (n : Nat) : List Frag :=
  if !b.indirect then []
  else match (s.frags cid b n).2 with
    | .ok fs => fs
    | _ => []

/-- A destination buffer lies in host memory, wholly or in part (R239). -/
def bufInHost (b : Buf) (snap : List Frag) : Bool := if b.indirect then snap.any (fun f => f.space == 0) else b.space == 0

/-- What is kept of an entry that starts: its bytes, its length, its tables as they stand, whether it writes host memory. -/
def State.liveOf (s : State) (cid pos : Nat) (e : List Byte) : Live :=
  let op := leAt e 0 1
  let tab := if hasLength op then s.snapshot cid (entBuf e) (entLength e) else []
  let tab2 := if op = 0x10 then s.snapshot cid (copyDest e) (entLength e) else []
  { pos := pos, bytes := e, opcode := op, len := if hasLength op then entLength e else if op = 6 ∨ op = 7 then 8 else 0
    t0 := s.time.ftNs, tab := tab, tab2 := tab2
    toHost := if op = 0x10 then bufInHost (copyDest e) tab2 else (5 ≤ op && op ≤ 7 || op == 0x40) && bufInHost (entBuf e) tab }

/-- The entry becomes a started one; a transport entry takes its PSNs, which its shadow ring records (06 R154). -/
def State.begin (s : State) (n : Nat) (q : Queue) (pos : Nat) (e : List Byte) (qp : Option QpCtx) : State :=
  let op := leAt e 0 1
  let l := s.liveOf q.cid pos e
  match qp with
  | some c =>
    if isTransport op then
      let first := s.nextFirst c
      let l := { l with first := first, last := psnAdd first (l.psns c - 1) }
      let s := s.takeEntry n q l
      let s := s.shadowWrite q pos first l.last
      s.modCtx c.qpn (fun c => { c with sqStart := q.slotOf (q.step pos 1) })
    else s.takeEntry n q l
  | none => s.takeEntry n q l

/-- An entry that has begun to act on a queue pair fails before it moves anything: a status of Table 6.10 marked ERROR moves the pair
there. -/
def State.failHead (s : State) (n : Nat) (q : Queue) (pos : Nat) (e : List Byte) (st : Nat) (qp : Option QpCtx) : State :=
  let s := s.endUnstarted n q pos e st
  match qp with
  | some c => if actsOnQp (leAt e 0 1) && 0x20 ≤ st then s.qpError c.qpn st c.unaPsn else s
  | none => s

/-- What the state of a queue pair makes of an entry: it starts, or waits. -/
def stateOk (op st : Nat) : Bool := if op = 0x40 then st != 0 else st == 3

/-- The queue pair of a queue is in ERROR. -/
def inError (qp : Option Qp) : Bool :=
  match qp with
  | some x => x.ctx.state == 6
  | none => false

/-- Start a fetched entry whose turn has come (R224, R226, R230, R232, 07 R203, 06 R171): the state, and whether the entry left the cache. -/
def State.startEntry (s : State) (n : Nat) (q : Queue) (pos k : Nat) (e : List Byte) : State × Bool :=
  let op := leAt e 0 1
  let fin (st : Nat) : State × Bool := (s.endUnstarted n q pos e st, true)
  if q.aborted.contains pos then
    let q := { q with aborted := q.aborted.filter (· != pos) }
    ((s.setQueue n q).endUnstarted n q pos e 1, true)
  else if k = 5 then fin (leAt e 2 1)
  else if !q.fresh pos e then (if k = 4 then fin 0x12 else (s, false))
  else
    let qp := s.qpOfQueue? n
    let c := qp.map (·.ctx)
    if actsOnQp op && inError qp then fin 1
    else if entFence e && !q.live.isEmpty then (s, false)
    else if entMalformed q.type c e then fin 0x10
    else match s.trigReady (cidPart q.cid) e with
    | none => fin 0x10
    | some false => (s, false)
    | some true =>
      let go (c : Option QpCtx) : State × Bool :=
        match s.tablesOk q.cid e with
        | (s, none) => (s.begin n q pos e c, true)
        | (s, some none) => (s, false)
        | (s, some (some st)) => (s.failHead n q pos e st c, true)
      match (if actsOnQp op then qp else none) with
      | some x =>
        if !x.resident then (s.miss x.ctx.qpn, false)
        else if s.kennel.bad.contains x.ctx.qpn then (s.checkCtx x.ctx.qpn, false)
        else if stateOk op x.ctx.state then go c else (s, false)
      | none => if op = 0x40 then (s, false) else go none

/-- An ABORT or a REVOKE_WINDOW that does not wait for the entries before it (06 R170, 07 R188); one with FENCE or TRIG_WAIT waits as it asks to
(DEDUCED, log 142). -/
def Queue.bypass? (q : Queue) : Option (Nat × Nat × List Byte) :=
  q.cached.find? (fun c => c.1 != q.next && c.2.1 < 5 && q.fresh c.1 c.2.2 && !q.aborted.contains c.1
    && (leAt c.2.2 0 1 == 0x30 || leAt c.2.2 0 1 == 0x21) && !entFence c.2.2 && !entTrigWait c.2.2)

/-- Start an ABORT or REVOKE_WINDOW out of order where one is fetched. -/
def State.startEarly (s : State) (n : Nat) : State :=
  match s.queue? n with
  | none => s
  | some q =>
    match q.bypass? with
    | some (pos, k, e) => if s.mayBegin n q (leAt e 0 1) then (s.startEntry n q pos k e).1 else s
    | none => s

/-- Start the head entry of a queue where its conditions hold; where it waits, an entry behind it that need not wait for it. -/
def State.startHead (s : State) (n : Nat) : State :=
  match s.queue? n with
  | none => s
  | some q =>
    match q.cached.find? (fun c => c.1 == q.next) with
    | none => s.startEarly n
    | some (pos, k, e) =>
      if s.mayStart n q (leAt e 0 1) then
        let r := s.startEntry n q pos k e
        if r.2 then r.1 else r.1.startEarly n
      else s.startEarly n

/-- The head entry of a queue has TRIG_WAIT. -/
def State.headTriggered (s : State) (n : Nat) : Bool :=
  match s.queue? n with
  | some q => (match q.cached.find? (fun c => c.1 == q.next) with
    | some (_, _, e) => entTrigWait e
    | none => false)
  | none => false

/-! Opcodes -/

/-- The oldest started entry of an opcode that has not been issued. -/
def State.toIssue? (s : State) (n op : Nat) : Option (Queue × Live) :=
  match s.queue? n with
  | some q => (q.live.find? (fun l => l.opcode == op && l.done.isNone && !l.issued)).map (fun l => (q, l))
  | none => none

/-- A transport entry's operation: its packets go as the queue pair's limits allow (06 R158). -/
def transportEff (op n : Nat) (seen : Seen) (s : State) : State :=
  match s.toIssue? n op with
  | some _ =>
    (match s.qpOfQueue? n with
      | some x => (s.see seen).pump x.ctx.qpn
      | none => s)
  | none => s

/-- NOP. -/
def nopEff (n : Nat) (s : State) : State :=
  match s.toIssue? n 0 with
  | some (_, l) => s.endEntry n l.pos 0
  | none => s

/-- RECV: the entry is posted for its queue pair. -/
def recvEff (n : Nat) (s : State) : State :=
  match s.toIssue? n 0x40 with
  | some (_, l) => s.modLive n l.pos (fun l => { l with issued := true })
  | none => s

/-- The source read of an entry that stands at a missing fragment (R191). -/
def State.stopEntry (s : State) (n : Nat) (q : Queue) (l : Live) (fs : List Frag) : State :=
  match fs with
  | [] => s
  | f :: _ =>
    match s.raiseFault q.cid f { engine := 1, write := false, qpn := none } (.entry n l.pos) with
    | (s, some _) => s.modLive n l.pos (fun l => { l with stopped := true })
    | (s, none) => s

/-- Move the blocks of a COPY that remain, each at most 4 KiB (07 R192). The fuel bounds the blocks. -/
def State.copyBlocks (s : State) (n : Nat) (q : Queue) (l : Live) : Nat → Nat → State
  | 0, _ => s
  | k + 1, off =>
    let e := l.bytes
    if l.len ≤ off then s.endEntry n l.pos 0 l.len
    else
      let m := min 4096 (l.len - off)
      match s.sourceData { cid := q.cid } l off m with
      | (s, .ok bs) =>
        (match s.placeTile q.cid { copyDest e with snap := l.tab2 } off bs n l.pos { engine := 0, write := true, qpn := none, unit := n } with
          | (s, .err .wait) => s
          | (s, .err .ue) => s.endEntry n l.pos 0x40 off
          | (s, .err .cid) => s.endEntry n l.pos 0x22 off
          | (s, _) => (s.modLive n l.pos (fun l => { l with got := off + m })).copyBlocks n q l k (off + m))
      | (s, .missing fs) => s.stopEntry n q l fs
      | (s, .err .ue) => s.endEntry n l.pos 0x40 off
      | (s, .err .cid) => s.endEntry n l.pos 0x22 off
      | (s, _) => s

/-- The memories at both ends of a COPY grant it now (16 R435, R437; log 166). -/
def State.copyGrant (s : State) (n : Nat) (e : List Byte) : Bool :=
  s.scheduledQueue n || (s.ddrGrant (entBuf e).space (entBuf e).addr && s.ddrGrant (copyDest e).space (copyDest e).addr)

/-- COPY. -/
def copyEff (n : Nat) (seen : Seen) (s : State) : State :=
  match s.toIssue? n 0x10 with
  | some (q, l) => if l.stopped || !s.copyGrant n l.bytes then s else (s.see seen).copyBlocks n q l (ceilDiv l.len 4096 + 1) l.got
  | none => s

/-- OPEN_WINDOW (07 R178, R179). -/
def openWindowEff (n : Nat) (s : State) : State :=
  match s.toIssue? n 0x20 with
  | none => s
  | some (q, l) =>
    let e := l.bytes
    let w := leAt e 32 8
    match s.openWindow q.cid (bits w 52 2) (bits w 0 52) (leAt e 40 8) (leAt e 48 1 % 8) (leAt e 48 1 / 8) with
    | (s, none) => s.endEntry n l.pos 0x10
    | (s, some key) => s.endEntry n l.pos 0 0 key

/-- REVOKE_WINDOW (07 R185, R188): by the opener instance. -/
def revokeWindowEff (n : Nat) (s : State) : State :=
  match s.toIssue? n 0x21 with
  | none => s
  | some (q, l) =>
    let key := leAt l.bytes 28 4
    let d := s.win (key / 4096)
    if cidPart d.cid ≠ cidPart q.cid ∨ d.opener ≠ cidInst q.cid then s.endEntry n l.pos 0x10
    else match s.startRevoke key (.entry n l.pos) with
      | some s => s.modLive n l.pos (fun l => { l with issued := true })
      | none => s.endEntry n l.pos 0x10

/-- TRIG_RESET (07 R200). -/
def trigResetEff (n : Nat) (s : State) : State :=
  match s.toIssue? n 0x22 with
  | none => s
  | some (q, l) =>
    let i := leAt l.bytes 28 2
    if s.trigOf (cidPart q.cid) i then
      (s.setTrig i { count := 0, gen := ((s.trig i).gen + 1) % 256 }).endEntry n l.pos 0
    else s.endEntry n l.pos 0x10

/-- Bytes of a buffer become open: host memory without a write of the device that a host could count on, other memory as stored. -/
def State.scramble (s : State) (cid : Nat) (b : Buf) (n : Nat) : State :=
  let bs := s.freeBytes n
  let s := s.fresh
  if b.indirect || b.space != 0 then (s.bufWrite cid b 0 bs).1 else s.keepHost (s.owner (cidPart cid)) b.addr bs

/-- Abort a started transport entry of an ELP pair and those behind it, and start a RESYNC; a RoCEv2 pair enters ERROR (06 R170). The local
buffer of an aborted READ is open. -/
def State.abortLive (s : State) (x : Qp) (l : Live) : State :=
  let c := x.ctx
  let hit := if c.roce then [l] else (s.txLives c).filter (fun m => !m.acked && psnSub m.first l.first < 2 ^ 23)
  let s := hit.foldl (fun s m => if m.opcode = 5 then s.scramble c.cid (entBuf m.bytes) m.len else s) s
  let s := hit.foldl (fun s m => s.endEntry c.sq m.pos 1) s
  if c.roce then s.qpError c.qpn 1 l.first
  else
    let s := s.modQp c.qpn (fun x => { x with resync := x.ctx.sqPsn, ctx := { x.ctx with resyncPend := true } })
    let s := if s.held.any (fun h => h.1 == c.qpn) || x.rnr.isSome then s else s.sendResync c.qpn
    ((s.modCtx c.qpn (fun c => { c with timer := if c.timer = 0 then s.rtoAt c else c.timer })).showOut c.qpn).checkDrained c.qpn

/-- ABORT (06 R170, Table 6.9): the status of the ABORT entry, with the target's end. -/
def State.abortTarget (s : State) (cid qpn slot gen : Nat) : State × Nat :=
  match s.qp? qpn with
  | none => (s, 0x10)
  | some x =>
    match s.queue? x.ctx.sq with
    | none => (s, 0x10)
    | some w =>
      if x.ctx.cid ≠ cid ∨ w.size ≤ slot ∨ gen = 0 then (s, 0x10)
      else
        let pos := w.pos slot gen
        let d := w.dist w.next pos
        if d < w.dist w.next w.posted then
          if w.aborted.contains pos then (s, 2) else (s.setQueue x.ctx.sq { w with aborted := w.aborted ++ [pos] }, 0)
        else match w.live.find? (fun l => l.pos == pos) with
          | some l =>
            if l.done.isSome || l.acked || !isTransport l.opcode then (s, 2) else (s.abortLive x l, 0)
          | none => if w.span / 2 ≤ d then (s, 2) else (s, 0x10)

/-- A started ABORT entry, named by its position, acts. -/
def State.abortRun (s : State) (n pos : Nat) : State :=
  match (s.queue? n).bind (fun q => (q.live.find? (fun l => l.pos == pos && l.opcode == 0x30 && l.done.isNone)).map (fun l => (q, l))) with
  | none => s
  | some (q, l) =>
    let e := l.bytes
    let (s, st) := s.abortTarget q.cid (entQpn e) (bits (leAt e 28 4) 0 20) (bits (leAt e 28 4) 20 8)
    s.endEntry n l.pos st

/-- ABORT: it acts on the target's context, once that is in its bank. -/
def abortEff (n : Nat) (s : State) : State :=
  match s.toIssue? n 0x30 with
  | none => s
  | some (q, l) =>
    let k := entQpn l.bytes
    if (match s.qp? k with | some x => x.ctx.cid == q.cid | none => false) then
      s.whenIn k (.abort n l.pos) (fun s => s.abortRun n l.pos)
    else s.abortRun n l.pos

/-! Contexts that arrive (06 R147) -/

/-- What waited for a context goes on. -/
def State.runJob (s : State) (q : Nat) (j : CtxJob) : State :=
  match j with
  | .cmd h op addr img => s.kennelAct h op q addr img
  | .timeout => s.timerOut q
  | .rnr => s.rnrOut q
  | .ackDelay => s.ackDelayOut q
  | .visible psn => s.visOut q psn
  | .send => s.pump q
  | .abort n pos => s.abortRun n pos

/-- RETRIEVER_FETCH_DONE: the context arrives; the packets that waited for it go ahead of what came later (03 R85), and commands and events that waited
for it act, in their order. -/
def fetchDoneEff (q : Nat) (seen : Seen) (s : State) : State :=
  if !s.fetchReady q then s
  else
    let s := ((s.see seen).fetchDone q).unmiss q
    let mine := s.kennel.jobs.filter (fun j => j.1 == q)
    let s := { s with kennel := { s.kennel with jobs := s.kennel.jobs.filter (fun j => j.1 != q) } }
    mine.foldl (fun s j => s.runJob q j.2) s

/-! The rows -/

def execRetrieverFetchDone (qpn : BitVec 24) (seen : Seen) (s : State) : Answer := .next (fetchDoneEff qpn.toNat seen s)
def execWorkEntryStart (queue : BitVec 20) (seen : Seen) (s : State) : Answer := .next ((s.see seen).startHead queue.toNat)
def execTriggeredStart (queue : BitVec 20) (seen : Seen) (s : State) : Answer :=
  .next (if s.headTriggered queue.toNat then (s.see seen).startHead queue.toNat else s)
def execNopEntry (queue : BitVec 20) (s : State) : Answer := .next (nopEff queue.toNat s)
def execSend (queue : BitVec 20) (seen : Seen) (s : State) : Answer := .next (transportEff 1 queue.toNat seen s)
def execSendImm (queue : BitVec 20) (seen : Seen) (s : State) : Answer := .next (transportEff 2 queue.toNat seen s)
def execWrite (queue : BitVec 20) (seen : Seen) (s : State) : Answer := .next (transportEff 3 queue.toNat seen s)
def execWriteImm (queue : BitVec 20) (seen : Seen) (s : State) : Answer := .next (transportEff 4 queue.toNat seen s)
def execRead (queue : BitVec 20) (seen : Seen) (s : State) : Answer := .next (transportEff 5 queue.toNat seen s)
def execCmpSwap (queue : BitVec 20) (seen : Seen) (s : State) : Answer := .next (transportEff 6 queue.toNat seen s)
def execFetchAdd (queue : BitVec 20) (seen : Seen) (s : State) : Answer := .next (transportEff 7 queue.toNat seen s)
def execCopy (queue : BitVec 20) (seen : Seen) (s : State) : Answer := .next (copyEff queue.toNat seen s)
def execOpenWindow (queue : BitVec 20) (s : State) : Answer := .next (openWindowEff queue.toNat s)
def execRevokeWindow (queue : BitVec 20) (s : State) : Answer := .next (revokeWindowEff queue.toNat s)
def execTrigReset (queue : BitVec 20) (s : State) : Answer := .next (trigResetEff queue.toNat s)
def execAbort (queue : BitVec 20) (s : State) : Answer := .next (abortEff queue.toNat s)
def execRecvEntry (queue : BitVec 20) (s : State) : Answer := .next (recvEff queue.toNat s)

end Sys2Proof.Machine
end

