-- ==== Sys2Proof/Machine/Operands.lean ====
section
/-! DEFINITION. HYL instruction words: their fields, the row of Table 10.6 a word belongs to, a core's registers, its scratchpad accesses
(10_cores_and_hyl_instruction_set.md Table 10.1, R275 to R278, Table 10.5, Table 10.6). -/

namespace Sys2Proof.Machine

/-! Fields of a word (Table 10.5) -/

/-- OP, bits [31:25]. -/
def fOp (w : Nat) : Nat := bits w 25 7
/-- Bits [24:20]: rd, vd, or ra of a branch. -/
def fRd (w : Nat) : Nat := bits w 20 5
/-- Bits [19:15]: ra, va, or rb of a branch. -/
def fRa (w : Nat) : Nat := bits w 15 5
/-- Bits [14:10]: rb, vb. -/
def fRb (w : Nat) : Nat := bits w 10 5
/-- FN of a Reg word, bits [9:0]. -/
def fFn10 (w : Nat) : Nat := bits w 0 10
/-- FMT of a Vec or Ten word, bits [9:6]. -/
def fFmt (w : Nat) : Nat := bits w 6 4
/-- FN of a Vec or Ten word, bits [5:0]. -/
def fFn (w : Nat) : Nat := bits w 0 6
/-- The unsigned bits [14:0]. -/
def fImmU (w : Nat) : Nat := bits w 0 15
/-- imm of an Imm word and off of a Br word, sign-extended. -/
def fImm (w : Nat) : BitVec 64 := (BitVec.ofNat 15 w).signExtend 64
/-- off of a Jmp word and imm of an Up word, sign-extended. -/
def fImm20 (w : Nat) : BitVec 64 := (BitVec.ofNat 20 w).signExtend 64
/-- ad of a Ten word. -/
def fAd (w : Nat) : Nat := bits w 20 2

/-- The rows of Table 10.6. -/
inductive HylRow where
  | arith | shift | slt | minMax | count | mul | clmul | immArith | shi | slti | lui | luih | load | store | branch | jal | jalr
  | loopi | loopr | csrr | csrw | fence | end_ | cmpl | brk | slotw | bar | msg | siga | swait | vld | vldr | vst | vext | vins
  | vbcast | varith | vabsNeg | vlogic | vfma | vcvt | vqmx | vdqmx | vperm | vhred | tzero | tld | tst | tmma | tstream
  | dmov | dwait | aes | redp | wchk | kldKst
  deriving DecidableEq, Repr

/-- A number lies in a range, both ends within. -/
def inRange (x a b : Nat) : Bool := a ≤ x && x ≤ b

/-- The row a word belongs to, by OP and FN; none where Table 10.6 lists no such OP or FN (R286). The FN bits that a row gives no meaning
are 0 in every listed FN (DEDUCED, log 54). -/
def hylRow (w : Nat) : Option HylRow :=
  let fn10 := fFn10 w
  let fn := fFn w
  let only (b : Bool) (r : HylRow) : Option HylRow := if b then some r else none
  match fOp w with
  | 0x01 =>
    if fn10 ≤ 4 then some .arith else if fn10 ≤ 7 then some .shift else if fn10 ≤ 9 then some .slt
    else if fn10 ≤ 13 then some .minMax else if fn10 ≤ 15 then some .count else if fn10 ≤ 18 then some .mul
    else only (fn10 ≤ 20) .clmul
  | 0x02 => some .immArith | 0x03 => some .immArith | 0x04 => some .immArith | 0x05 => some .immArith
  | 0x06 => some .shi
  | 0x07 => some .slti
  | 0x08 => some .lui
  | 0x09 => some .luih
  | 0x26 => some .jal
  | 0x27 => some .jalr
  | 0x28 => some .loopi
  | 0x29 => some .loopr
  | 0x30 => some .csrr
  | 0x31 => some .csrw
  | 0x32 => some .fence
  | 0x33 => some .end_
  | 0x34 => some .cmpl
  | 0x35 => some .brk
  | 0x36 => some .slotw
  | 0x37 => some .bar
  | 0x38 => only (fn10 = 0) .msg
  | 0x39 => only (fn10 = 0) .siga
  | 0x3A => only (fn10 = 0) .swait
  | 0x40 => some .vld
  | 0x41 => some .vldr
  | 0x42 => some .vst
  | 0x43 => some .vext
  | 0x44 => some .vins
  | 0x45 => only (fn = 0) .vbcast
  | 0x48 => if fn ≤ 4 then some .varith else if fn ≤ 6 then some .vabsNeg else only (inRange fn 8 10) .vlogic
  | 0x49 => only (fn = 0) .vfma
  | 0x4A => only (fn < 32) .vcvt
  | 0x4B => only (fn < 4) .vqmx
  | 0x4C => only (fn < 2) .vdqmx
  | 0x4D => only (fn = 0) .vperm
  | 0x4E => only (fn ≤ 2) .vhred
  | 0x50 => only (fn = 0) .tzero
  | 0x51 => only (fn = 0) .tld
  | 0x52 => only (fn < 2) .tst
  | 0x53 => only (fn = 0) .tmma
  | 0x54 => only (fn = 0) .tstream
  | 0x58 => only (fn10 = 0) .dmov
  | 0x59 => some .dwait
  | 0x5A => only (fn ≤ 1) .aes
  | 0x5C => only (fn10 = 0) .redp
  | 0x60 => only (fn10 = 0) .wchk
  | 0x61 => some .kldKst
  | 0x62 => some .kldKst
  | op =>
    if inRange op 0x10 0x16 then some .load
    else if inRange op 0x18 0x1B then some .store
    else only (inRange op 0x20 0x25) .branch

/-! Registers (Table 10.1) -/

/-- gi; g0 reads 0. -/
def Core.gr (c : Core) (i : Nat) : BitVec 64 := if i = 0 then 0 else c.g.getD i 0

/-- Write gi; a write to g0 is discarded. -/
def Core.setG (c : Core) (i : Nat) (x : BitVec 64) : Core := if i = 0 then c else { c with g := c.g.putD i x 0 }

/-- vi. -/
def Core.vr (c : Core) (i : Nat) : BitVec 512 := c.v.getD i 0

/-- The 64 bytes of vi. -/
def Core.vBytes (c : Core) (i : Nat) : List Byte := leBytes 64 (c.vr i).toNat

/-- Write vi. -/
def Core.setV (c : Core) (i : Nat) (x : BitVec 512) : Core := { c with v := c.v.putD i x 0 }

/-- Write vi from its 64 bytes. -/
def Core.setVBytes (c : Core) (i : Nat) (bs : List Byte) : Core := c.setV i (BitVec.ofNat 512 (leNat (bs.take 64)))

/-- Element n = 16i + j of accumulator a. -/
def Core.accEl (c : Core) (a n : Nat) : Nat := (c.acc.getD (256 * a + n) 0).toNat

/-- Write the 256 elements of accumulator a. -/
def Core.setAcc (c : Core) (a : Nat) (xs : List Nat) : Core :=
  { c with acc := (List.range 256).foldl (fun m n => m.putD (256 * a + n) (BitVec.ofNat 32 (xs.getD n 0)) 0) c.acc }

/-- Elements of a FMT code in a vector register. -/
def Core.vElems (c : Core) (i fmt : Nat) : List Nat := unpackElems (fmtBits fmt) (c.vBytes i) (512 / fmtBits fmt)

/-- Write a vector register from its elements. -/
def Core.setVElems (c : Core) (i fmt : Nat) (xs : List Nat) : Core := c.setVBytes i (packElems (fmtBits fmt) xs)

/-- Set sticky flags. -/
def Core.raise (c : Core) (fl : Nat) : Core := { c with fflags := c.fflags ||| fl % 16 }

/-- Change a logical core. -/
def State.modCore (s : State) (c : Nat) (f : Core → Core) : State := s.setCore c (f (s.core c))

/-- Write a g register of a core. -/
def State.setG (s : State) (c i : Nat) (x : BitVec 64) : State := s.modCore c (fun k => k.setG i x)

/-! A core's status registers -/

/-- STATE of a core (Table 10.10): 0 EMPTY, 1 READY, 2 RUNNING, 3 FAULTED, 4 HALTED, 5 VACANT. -/
def State.coreSt (s : State) (c : Nat) : Nat := s.get (Reg.CLUSTER_CORE_STS.STATE (c / 64) (c % 64))

/-- A partition core is busy in the present window of Tally (16 R432). -/
def State.coreActive (s : State) (c : Nat) (b : Bool) : State :=
  if b && 8 ≤ c % 64 then { s with tally := { s.tally with active := addTo s.tally.active (c / 64) } } else s

/-- STATE of a core that does nothing: EMPTY, READY, VACANT. -/
def coreIdle (st : Nat) : Bool := st == 0 || st == 1 || st == 5

/-- Set STATE of a core. -/
def State.setCoreSt (s : State) (c st : Nat) : State :=
  (s.put (Reg.CLUSTER_CORE_STS.STATE (c / 64) (c % 64)) st).coreActive c (!coreIdle st)

/-- A core uses scratchpad mode 1. -/
def State.spMode1 (s : State) (c : Nat) : Bool := s.flag (Reg.CLUSTER_CORE_STS.SPMODE (c / 64) (c % 64))

/-- A core has a secure region. -/
def State.coreSecure (s : State) (c : Nat) : Bool := s.flag (Reg.CLUSTER_CORE_STS.SECURE (c / 64) (c % 64))

/-- A service core (R267). -/
def serviceCore (c : Nat) : Bool := c % 64 < 8

/-- A logical core whose entry is vacant, or whose physical core is fenced: it runs nothing (R302). -/
def State.coreStopped (s : State) (c : Nat) : Bool :=
  s.flag (Reg.CLUSTER_LMAP.VACANT (c / 64) (c % 64)) || s.flag (Reg.CLUSTER_LMAP.FENCED (c / 64) (c % 64))

/-- A core named as STAGE by an active or pending image of the partition that holds it (R298). -/
def State.stageCore (s : State) (c : Nat) : Bool :=
  (s.sched.act ++ s.sched.pend).any (fun e => s.coreOwner? c == some e.1 && e.2.paths.any (fun p => p.stageValid && p.stage == c))

/-- Bring CLUSTER_CORE_STS.EVENTS up to the queue. -/
def State.showEvents (s : State) (c : Nat) : State :=
  (s.put (Reg.CLUSTER_CORE_STS.EVENTS (c / 64) (c % 64)) (s.core c).events.length).coreActive c (!(s.core c).events.isEmpty)

/-! Scratchpad accesses (R275 to R278) -/

/-- An access of n bytes at a scratchpad offset crosses a boundary: the end, 0x2_8000 in mode 1, 0x2_C000 of a secure region. -/
def State.spadOut (s : State) (c a n : Nat) : Bool :=
  0x30000 < a + n || (s.spMode1 c && a < 0x28000 && 0x28000 < a + n) || (s.coreSecure c && a < 0x2C000 && 0x2C000 < a + n)

/-- The effective address A = ga + imm, modulo 2^64 (R277). -/
def Core.ea (k : Core) (w : Nat) : Nat := (k.gr (fRa w) + fImm w).toNat

/-- The little-endian number of n bytes of a core's scratchpad. -/
def State.spadNat (s : State) (c a n : Nat) : Nat := leNat (memRead (s.core c).spad a n)

/-- Store bytes in a core's scratchpad. -/
def State.spadWrite (s : State) (c a : Nat) (bs : List Byte) : State :=
  s.modCore c (fun k => { k with spad := memWrite k.spad a bs })

/-! Instruction flow -/

/-- What a core does next: nothing, a fetch outside its code region, the word at its PC. -/
inductive Fetch where
  | idle
  | bound
  | word (w : Nat)
  deriving DecidableEq, Repr

/-- The fetch of a core: it runs an event, waits for nothing, is not stopped by a fence, a halt or P2. -/
def State.fetch (s : State) (c : Nat) : Fetch :=
  let k := s.core c
  if s.coreSt c ≠ 2 ∨ k.cur.isNone = true ∨ k.wait.isSome = true ∨ s.coreStopped c = true ∨ k.haltFreeze = true ∨ k.haltDebug = true
      ∨ s.inP2 = true then .idle
  else if !within k.pc.toNat 4 k.codeAt k.codeLen then .bound
  else .word (s.spadNat c k.pc.toNat 4)

/-- The PC after an instruction at `at_` that does not jump: a hardware loop whose last instruction it is goes round or ends (Table 10.6). -/
def nextPc (at_ : Nat) : List LoopLvl → Nat × List LoopLvl
  | [] => (at_ + 4, [])
  | l :: ls =>
    if at_ = l.start + 4 * (l.len - 1) then
      (if 1 < l.count then (l.start, { l with count := l.count - 1 } :: ls) else nextPc at_ ls)
    else (at_ + 4, l :: ls)

/-- Step past the instruction at `at_`. -/
def Core.past (k : Core) (at_ : Nat) : Core :=
  let (pc, ls) := nextPc at_ k.loops
  { k with pc := BitVec.ofNat 18 pc, loops := ls }

/-- Step past the instruction at the PC. -/
def Core.next (k : Core) : Core := k.past k.pc.toNat

/-- Jump: every loop whose body the target is outside of ends. -/
def Core.jump (k : Core) (t : BitVec 18) : Core :=
  { k with pc := t, loops := k.loops.filter (fun l => l.start ≤ t.toNat && t.toNat < l.start + 4 * l.len) }

/-- The CID of a core's running event. -/
def Core.cid (k : Core) : Nat := (k.cur.map (·.cid)).getD 0

/-- CYCLE: core cycles since the event or handler was dispatched. -/
def State.cycleOf (s : State) (c : Nat) : Nat := s.time.cycles - (s.core c).cycle0

end Sys2Proof.Machine
end

