-- ==== Sys2Proof/Machine/Cores.lean ====
section
/-! DEFINITION. Events, exceptions and states of cores, INVOKE dispatch, messages (10_cores_and_hyl_instruction_set.md R294, R296 to R302). -/

namespace Sys2Proof.Machine

/-! Events (R296, R297) -/

/-- An event joins a core's queue. -/
def State.pushEvent (s : State) (c : Nat) (ev : CoreEv) : State :=
  (s.modCore c (fun k => { k with events := k.events ++ [{ ev with id := k.evNext }], evNext := k.evNext + 1 })).showEvents c

/-- The running event of a core ends: an INVOKE without CMPL completes OK with BYTES 0, or ABORTED after an exception (R297); the cells of a
FRAME are free again (11 R332). -/
def State.closeEvent (s : State) (c : Nat) : State :=
  let k := s.core c
  match k.cur with
  | none => s
  | some ev =>
    let s := s.setCore c { k with cur := none, handler := false, hadExc := false, cmplDone := false, wait := none }
    if ev.kind = 0 && !k.cmplDone then s.endEntry ev.queue ev.pos (b2n k.hadExc) else s

/-- An event that a core does not take: an INVOKE completes with ABORTED, a message and a frame are counted (R294, R297, R298). -/
def State.dropEvent (s : State) (c : Nat) (ev : CoreEv) : State :=
  match ev.kind with
  | 0 => s.endEntry ev.queue ev.pos 1
  | 1 => s.count (Reg.CLUSTER_STAGE_DROP.COUNT (c / 64))
  | _ => s.count (Reg.CLUSTER_MSG_DROP.COUNT (c / 64))

/-- Every queued event of a core is dropped. -/
def State.dropEvents (s : State) (c : Nat) : State :=
  let evs := (s.core c).events
  evs.foldl (fun s ev => s.dropEvent c ev) ((s.modCore c (fun k => { k with events := [] })).showEvents c)

/-- The core becomes FAULTED: CORE_FAULT, its event ends with ABORTED, queued events are dropped (R300, R302; log 55). -/
def State.faultCore (s : State) (c cause : Nat) : State :=
  let p := (s.coreOwner? c).getD (cidPart (s.core c).cid)
  let s := (s.modCore c (fun k => { k with hadExc := true })).setCoreSt c 3
  ((s.closeEvent c).dropEvents c).partEvent Ev.coreFault p (leBytes 2 c ++ leBytes 1 cause)

/-- An image's entry e is valid. -/
def Core.hasEntry (k : Core) (e : Nat) : Bool := bitAt (k.entries.getD e 0) 31

/-- The PC of an image's entry e. -/
def Core.entryPc (k : Core) (e : Nat) : BitVec 18 := BitVec.ofNat 18 (k.entries.getD e 0)

/-- An exception (R300): CAUSE, EPC, EADDR and EKIND are written and counted; entry 3 runs at once, else the core becomes FAULTED. -/
def State.raise (s : State) (c cause : Nat) (eaddr : Nat := 0) : State :=
  let k := s.core c
  let s := s.put (Reg.CLUSTER_CORE_STS.CAUSE (c / 64) (c % 64)) cause
  let s := s.put (Reg.CLUSTER_CORE_EPC.EPC (c / 64) (c % 64)) k.pc.toNat
  let s := s.count (Reg.CLUSTER_CORE_EXC.COUNT (c / 64))
  let k := { k with eaddr := eaddr, ekind := if k.handler then 3 else (k.cur.map (·.kind)).getD 0 }
  if k.hasEntry 3 && !k.handler then
    s.setCore c { (k.setG 1 3) with
      pc := k.entryPc 3, handler := true, hadExc := true, wait := none, cycle0 := s.time.cycles }
  else (s.setCore c k).faultCore c cause

/-- Bits of the AES unit: a vector register that a core's instruction would read or write waits for its blocks (R271). -/
def usesVec (w v : Nat) : Bool :=
  let three := fRd w == v || fRa w == v || fRb w == v
  match hylRow w with
  | none => false
  | some r =>
    match r with
    | .vld | .vldr | .vst | .vins | .vbcast | .kldKst => fRd w == v
    | .vext => fRa w == v
    | .msg => fRb w == v
    | .varith | .vabsNeg | .vlogic | .vfma | .vcvt | .vperm | .vhred => three
    | .vqmx => three || fRa w + 1 == v
    | .vdqmx => three || fRd w + 1 == v
    | .aes => fRd w == v || fRa w == v
    | _ => false

/-- A core's next instruction, for the command of one row: an instruction of another row is not this command's; a word that no row lists
raises ILLEGAL, a fetch outside the code region SPAD_BOUND, whichever command meets it (R286, R276). -/
def State.issue (s : State) (c : Nat) (row : HylRow) (act : Nat → State → State) : State :=
  match s.fetch c with
  | .idle => s
  | .bound => s.raise c 3 (s.core c).pc.toNat
  | .word w =>
    match hylRow w with
    | none => s.raise c 1
    | some r =>
      if r ≠ row ∨ (s.core c).aes.any (fun a => usesVec w a.vd) = true then s
      else if w = 0 then s.raise c 1
      else act w s

/-- An instruction that changes only its core, and steps past itself. -/
def State.exec1 (s : State) (c : Nat) (f : Core → Core) : State := s.modCore c (fun k => (f k).next)

/-! Halting (R302) -/

/-- A core's units and channels are idle. -/
def Core.drained (k : Core) : Bool := k.aes.isEmpty && (List.range 4).all (fun i => (k.chans.getD i {}).queue.isEmpty)

/-- A core asked to halt halts once it is drained, at an instruction boundary. -/
def State.tryHalt (s : State) (c : Nat) : State :=
  let k := s.core c
  let st := s.coreSt c
  if (k.haltFreeze || k.haltDebug) && (st = 1 || st = 2) && k.drained then
    (s.setCore c { k with prior := st }).setCoreSt c 4
  else s

/-- A HALTED core that nothing holds any more returns to its prior state. -/
def State.tryResume (s : State) (c : Nat) : State :=
  let k := s.core c
  if s.coreSt c = 4 && !k.haltFreeze && !k.haltDebug then s.setCoreSt c k.prior else s

/-- DBG_INVASIVE is in force (15 R410). -/
def State.dbgInvasive (s : State) : Bool := s.get Reg.SEC_DBG.LEVEL == 2

/-- DEBUG_HALT. -/
def debugHaltEff (c : Nat) (s : State) : State :=
  if s.dbgInvasive && (s.coreSt c = 1 || s.coreSt c = 2) then (s.modCore c (fun k => { k with haltDebug := true })).tryHalt c else s

/-- DEBUG_RESUME. -/
def debugResumeEff (c : Nat) (s : State) : State :=
  if s.dbgInvasive then (s.modCore c (fun k => { k with haltDebug := false })).tryResume c else s

/-! Starting an event (R296) -/

/-- Write what the start of an event writes. -/
def Core.startEvent (k : Core) (now : Nat) (ev : CoreEv) : Core :=
  let k := (k.setG 1 (BitVec.ofNat 64 ev.kind)).setVBytes 31 (ev.v31 ++ List.replicate 64 0)
  let k := if ev.kind = 1 then k else k.setG 2 (BitVec.ofNat 64 ev.g2)
  { k with pc := k.entryPc ev.kind, cur := some ev, handler := false, hadExc := false, cmplDone := false, cycle0 := now }

/-- The largest sum of a cost over the paths from an instruction to END, where every branch and JAL goes forward, every loop is a LOOPI and
no instruction on the path lacks a cost; none where that fails (R305). `at_` is an offset in the code, `stop` the end of the present loop
body (there the path goes on with 0), `fuel` bounds the instructions. -/
def pathCost (code : Nat → Nat) (len : Nat) (cost : Nat → Option Nat) : (fuel at_ : Nat) → (stop : Option Nat) → Option Nat
  | 0, _, _ => none
  | k + 1, at_, stop =>
    if stop = some at_ then some 0
    else if len < at_ + 4 then none
    else
      let w := code at_
      let add (a b : Option Nat) : Option Nat := a.bind (fun x => b.map (fun y => x + y))
      match hylRow w with
      | none => none
      | some .end_ => if stop.isSome then none else cost w
      | some .branch =>
        let t := (BitVec.ofNat 64 at_ + 4 * fImm w).toNat
        if t ≤ at_ ∨ len ≤ t then none
        else match pathCost code len cost k (at_ + 4) stop, pathCost code len cost k t stop with
          | some a, some b => add (cost w) (some (max a b))
          | _, _ => none
      | some .jal =>
        let t := (BitVec.ofNat 64 at_ + 4 * fImm20 w).toNat
        if t ≤ at_ ∨ len ≤ t then none else add (cost w) (pathCost code len cost k t stop)
      | some .loopi =>
        let n := bits w 0 13
        let times := if bits w 13 12 = 0 then 4096 else bits w 13 12
        let e := at_ + 4 + 4 * n
        if n = 0 then none
        else add (cost w) (add ((pathCost code len cost k (at_ + 4) (some e)).map (· * times)) (pathCost code len cost k e stop))
      | some _ => add (cost w) (pathCost code len cost k (at_ + 4) stop)

/-- The word at an offset of a core's code. -/
def State.codeWord (s : State) (c off : Nat) : Nat := s.spadNat c ((s.core c).codeAt + off) 4

/-- The most DMOVs on a channel along any path of an entry. -/
def State.entryDmovs (s : State) (c e ch : Nat) : Option Nat :=
  let k := s.core c
  pathCost (s.codeWord c) k.codeLen (fun w => some (b2n (hylRow w == some .dmov && fRd w == ch))) (k.codeLen / 4 + 1)
    ((k.entryPc e).toNat - k.codeAt) none

/-- A FRAME of a stage core starts only when every channel its entry uses has room for the entry's DMOVs (R298). -/
def State.frameRoom (s : State) (c : Nat) : Bool :=
  (List.range 4).all (fun ch =>
    match s.entryDmovs c 1 ch with
    | some n => n = 0 || (((s.core c).chans.getD ch {}).queue.filter (fun x => !x.taken)).length + n ≤ 8
    | none => true)

/-- EVENT_START: a READY core, or one whose event has ended, takes its oldest event. -/
def eventStartEff (c : Nat) (s : State) : State :=
  let k := s.core c
  if ¬ (s.coreSt c = 1 ∨ s.coreSt c = 2) ∨ k.cur.isSome = true ∨ s.coreStopped c = true ∨ k.haltFreeze = true ∨ k.haltDebug = true
      ∨ k.preload = true ∨ s.inP2 = true ∨ (s.gated (c / 64) = true ∧ 8 ≤ c % 64) then s
  else match k.events with
    | [] => s
    | ev :: evs =>
      if ev.kind = 1 && s.stageCore c && !s.frameRoom c then s
      else ((s.setCore c ({ k with events := evs }.startEvent s.time.cycles ev)).setCoreSt c 2).showEvents c

/-- END: the event ends; with no event queued the core is READY (R302). -/
def endEff (c : Nat) (_w : Nat) (s : State) : State :=
  let s := (s.modCore c Core.next).closeEvent c
  if (s.core c).events.isEmpty then s.setCoreSt c 1 else s

/-- WATCHDOG: CYCLE reaches LIMIT_CYCLES (R301). -/
def watchdogEff (c : Nat) (s : State) : State :=
  let k := s.core c
  if k.limit = 0 ∨ s.cycleOf c < k.limit ∨ s.coreSt c ≠ 2 ∨ k.cur.isNone = true ∨ s.coreStopped c = true then s
  else s.raise c 9

/-! CMPL (R297) -/

/-- A status code of Table 6.10. -/
def isStatus (x : Nat) : Bool :=
  [0x00, 0x01, 0x02, 0x10, 0x11, 0x12, 0x20, 0x21, 0x22, 0x30, 0x31, 0x32, 0x40, 0x41, 0x50, 0x51].contains x

/-- A transfer of an event is still outstanding on a core. -/
def Core.outstanding (k : Core) (ev : Nat) : Bool :=
  (List.range 4).any (fun i => (k.chans.getD i {}).queue.any (fun x => x.ev == ev))

/-- Complete the CMPLs whose events have no transfer outstanding. -/
def State.flushCmpls (s : State) (c : Nat) : State :=
  let k := s.core c
  let ready := k.cmpls.filter (fun p => !k.outstanding p.ev)
  ready.foldl (fun s p => s.endEntry p.queue p.pos p.status p.bytes)
    (s.setCore c { k with cmpls := k.cmpls.filter (fun p => k.outstanding p.ev) })

/-- CMPL: the first one of an INVOKE event. -/
def cmplEff (c w : Nat) (s : State) : State :=
  let k := s.core c
  match k.cur with
  | none => s
  | some ev =>
    if ev.kind ≠ 0 ∨ k.handler = true ∨ k.cmplDone = true then s.setCore c k.next
    else
      let ga := (k.gr (fRa w)).toNat
      let p : CmplPend := { ev := ev.id, queue := ev.queue, pos := ev.pos, status := if isStatus (bits ga 0 8) then bits ga 0 8 else 0x10
                            bytes := bits ga 32 32 }
      (s.setCore c { k.next with cmplDone := true, cmpls := k.cmpls ++ [p] }).flushCmpls c

/-- BRK: BREAK, or a halt with DBG_INVASIVE in force (R301). -/
def brkEff (c _w : Nat) (s : State) : State :=
  if s.dbgInvasive then (s.modCore c (fun k => { k.next with haltDebug := true })).tryHalt c else s.raise c 0xA

/-! Waits -/

/-- SLOTW: waits until SLOT ≥ ga. -/
def slotwEff (c w : Nat) (s : State) : State :=
  let n := ((s.core c).gr (fRa w)).toNat
  if n ≤ s.slot then s.exec1 c id else s.modCore c (fun k => { k with wait := some (.slot n) })

/-- SWAIT: waits until the local 64-bit word at ga ≥ gb. -/
def swaitEff (c w : Nat) (s : State) : State :=
  let k := s.core c
  let a := (k.gr (fRa w)).toNat
  let v := (k.gr (fRb w)).toNat
  if s.spadOut c a 8 then s.raise c 3 a
  else if a % 8 ≠ 0 then s.raise c 4 a
  else if v ≤ s.spadNat c a 8 then s.exec1 c id
  else s.modCore c (fun k => { k with wait := some (.word a v) })

/-- DWAIT: waits until channel rd[1:0] has at most imm outstanding transfers; a negative imm stands for 0 (DESIGN CHOICE, log 163). -/
def dwaitEff (c w : Nat) (s : State) : State :=
  let k := s.core c
  let ch := fRd w % 4
  let n := (fImm w).toInt.toNat
  if (k.chans.getD ch {}).queue.length ≤ n then s.exec1 c id else s.modCore c (fun k => { k with wait := some (.chan ch n) })

/-- A wait of a kind ends where what it waits for holds. -/
def State.endWait (s : State) (c : Nat) (ready : Wait → Bool) : State :=
  let k := s.core c
  match k.wait with
  | some x => if s.coreSt c = 2 && !s.coreStopped c && ready x then s.setCore c { k.next with wait := none } else s
  | none => s

/-- SLOTW_RELEASE. -/
def slotwReleaseEff (c : Nat) (s : State) : State :=
  s.endWait c (fun x => match x with | .slot n => n ≤ s.slot | _ => false)

/-- SWAIT_RELEASE. -/
def swaitReleaseEff (c : Nat) (s : State) : State :=
  s.endWait c (fun x => match x with | .word a v => v ≤ s.spadNat c a 8 | _ => false)

/-- DWAIT_RELEASE. -/
def dwaitReleaseEff (c : Nat) (s : State) : State :=
  s.endWait c (fun x => match x with | .chan ch n => ((s.core c).chans.getD ch {}).queue.length ≤ n | _ => false)

/-! Messages (R294) -/

/-- A core that a sender may address. -/
def State.msgTargetOk (s : State) (c t : Nat) : Bool :=
  if serviceCore c then serviceCore t || s.coreOwner? t == some (cidPart (s.core c).cid)
  else match s.coreOwner? c with
    | some p => s.coreOwner? t == some p
    | none => false

/-- A cluster. -/
def State.cluster (s : State) (k : Nat) : Cluster := s.clusters.getD k {}

/-- Change a cluster. -/
def State.setCluster (s : State) (k : Nat) (x : Cluster) : State := { s with clusters := s.clusters.putD k x {} }

/-- MSG. -/
def msgEff (c w : Nat) (s : State) : State :=
  let k := s.core c
  let t := bits (k.gr (fRa w)).toNat 0 12
  let x := s.cluster (c / 64)
  if !s.msgTargetOk c t then s.exec1 c (fun k => k.setG (fRd w) 2)
  else if 16 ≤ x.msgs.length then s.exec1 c (fun k => k.setG (fRd w) 1)
  else (s.setCluster (c / 64) { x with
    msgs := x.msgs ++ [{ target := t, sender := c, cid := cidPart k.cid * 1024 + 0x3FF, bytes := k.vBytes (fRb w) }] }).exec1 c
      (fun k => k.setG (fRd w) 0)

/-- A message reaches its target: queued as a MESSAGE event, or discarded and counted (R294, R49). -/
def State.deliver (s : State) (m : CoreMsg) : State :=
  let t := m.target
  if s.coreStopped t then s.count (Reg.CLUSTER_FENCE_DROP.COUNT (t / 64))
  else if s.coreSt t = 0 ∨ s.coreSt t = 3 ∨ s.coreSt t = 5 ∨ s.stageCore t = true ∨ 16 ≤ (s.core t).events.length then
    s.count (Reg.CLUSTER_MSG_DROP.COUNT (t / 64))
  else s.pushEvent t { kind := 2, v31 := m.bytes, g2 := m.sender, cid := m.cid }

/-- MESSAGE_DELIVERY: the oldest message of a cluster's outbound queue arrives. -/
def messageDeliveryEff (k : Nat) (s : State) : State :=
  let x := s.cluster k
  match x.msgs with
  | [] => s
  | m :: ms => (s.setCluster k { x with msgs := ms }).deliver m

/-! INVOKE (R297) -/

/-- A collective handle of a partition (12 R338). -/
def isCollective (h : Nat) : Bool := bits h 8 18 == 0x3FFFF

/-- A service core of a cluster that can run a collective program: the first that is READY or RUNNING and not fenced (DESIGN CHOICE, log 156). -/
def State.serviceOf? (s : State) (k : Nat) : Option Nat :=
  ((List.range 8).map (fun i => 64 * k + i)).find? (fun c => !s.coreStopped c && (s.coreSt c == 1 || s.coreSt c == 2))

/-- That of a send queue's home cluster (08 R216, 12 R338); none where the cluster has none, and the call waits (log 156). -/
def State.homeCore? (s : State) (n : Nat) : Option Nat := s.serviceOf? (n % 64)

/-- INVOKE: dispatched to its handle's dispatch core, or completed with an error; with that core's queue full, or while the core is fenced (02 R41), it
waits. The entry of a collective handle goes to a service core of the queue's home cluster, where it waits for its operation (12 R338). -/
def invokeEff (n : Nat) (s : State) : State :=
  match s.toIssue? n 0x11 with
  | none => s
  | some (q, l) =>
    let h := leAt l.bytes 28 4
    let p := cidPart q.cid
    if isCollective h then
      if h = p * 2 ^ 26 + 0x3FFFF00 then if (s.homeCore? n).isNone then s else s.modLive n l.pos (fun l => { l with issued := true }) else s.endEntry n l.pos 0x10
    else match s.handles.at? h with
      | none => s.endEntry n l.pos 0x10
      | some x =>
        if x.part ≠ p then s.endEntry n l.pos 0x10
        else match x.dispatch with
          | none => s.endEntry n l.pos 0x10
          | some c =>
            if s.stageCore c then s.endEntry n l.pos 0x10
            else if s.coreSt c = 3 then s.endEntry n l.pos 1
            else if s.coreStopped c = true ∨ 16 ≤ (s.core c).events.length then s
            else
              let v31 := slice l.bytes 32 32 ++ leBytes 4 h ++ leBytes 2 q.cid ++ List.replicate 26 0
              (s.modLive n l.pos (fun l => { l with issued := true })).pushEvent c
                { kind := 0, v31 := v31, g2 := q.slotOf l.pos, cid := q.cid, queue := n, pos := l.pos }

/-! The rows -/

def execEventStart (core : CoreId) (s : State) : Answer := .next (eventStartEff core.val s)
def execEndEvent (core : CoreId) (s : State) : Answer := .next (s.issue core.val .end_ (endEff core.val))
def execWatchdog (core : CoreId) (s : State) : Answer := .next (watchdogEff core.val s)
def execCmpl (core : CoreId) (s : State) : Answer := .next (s.issue core.val .cmpl (cmplEff core.val))
def execBrk (core : CoreId) (s : State) : Answer := .next (s.issue core.val .brk (brkEff core.val))
def execSlotw (core : CoreId) (s : State) : Answer := .next (s.issue core.val .slotw (slotwEff core.val))
def execSlotwRelease (core : CoreId) (s : State) : Answer := .next (slotwReleaseEff core.val s)
def execSwait (core : CoreId) (s : State) : Answer := .next (s.issue core.val .swait (swaitEff core.val))
def execSwaitRelease (core : CoreId) (s : State) : Answer := .next (swaitReleaseEff core.val s)
def execDwait (core : CoreId) (s : State) : Answer := .next (s.issue core.val .dwait (dwaitEff core.val))
def execDwaitRelease (core : CoreId) (s : State) : Answer := .next (dwaitReleaseEff core.val s)
def execMsg (core : CoreId) (s : State) : Answer := .next (s.issue core.val .msg (msgEff core.val))
def execMessageDelivery (cluster : ClusterId) (s : State) : Answer := .next (messageDeliveryEff cluster.val s)
def execInvoke (queue : BitVec 20) (s : State) : Answer := .next (invokeEff queue.toNat s)
def execDebugHalt (core : CoreId) (s : State) : Answer := .next (debugHaltEff core.val s)
def execDebugResume (core : CoreId) (s : State) : Answer := .next (debugResumeEff core.val s)

end Sys2Proof.Machine
end

