-- ==== Sys2Proof/Machine/Scalar.lean ====
section
/-! DEFINITION. The scalar instructions of HYL (10_cores_and_hyl_instruction_set.md Table 10.6, R270, R277). -/

namespace Sys2Proof.Machine

/-- An instruction that writes gd from its core's registers. -/
def State.execG (s : State) (c w : Nat) (f : Core → BitVec 64) : State := s.exec1 c (fun k => k.setG (fRd w) (f k))

/-- The two register operands of a Reg word. -/
def State.execGG (s : State) (c w : Nat) (f : BitVec 64 → BitVec 64 → BitVec 64) : State :=
  s.execG c w (fun k => f (k.gr (fRa w)) (k.gr (fRb w)))

/-- ADD, SUB, AND, OR, XOR. -/
def arithOp (fn : Nat) (a b : BitVec 64) : BitVec 64 :=
  match fn with
  | 0 => a + b
  | 1 => a - b
  | 2 => a &&& b
  | 3 => a ||| b
  | _ => a ^^^ b

/-- Shift: 0 SLL, 1 SRL, 2 SRA, by 0 to 63. -/
def shiftOp (kind : Nat) (a : BitVec 64) (n : Nat) : BitVec 64 :=
  match kind with
  | 0 => a <<< n
  | 1 => a >>> n
  | _ => a.sshiftRight n

/-- A truth value as a register. -/
def bv1 (b : Bool) : BitVec 64 := if b then 1 else 0

/-- MIN, MAX, MINU, MAXU. -/
def minMaxOp (fn : Nat) (a b : BitVec 64) : BitVec 64 :=
  match fn with
  | 10 => if b.slt a then b else a
  | 11 => if a.slt b then b else a
  | 12 => if b.ult a then b else a
  | _ => if a.ult b then b else a

/-- Leading zeros. -/
def clz (a : BitVec 64) : Nat := if a = 0 then 64 else 63 - Nat.log2 a.toNat

/-- MUL, MULH, MULHU. -/
def mulOp (fn : Nat) (a b : BitVec 64) : BitVec 64 :=
  match fn with
  | 16 => a * b
  | 17 => BitVec.ofInt 64 (a.toInt * b.toInt / 2 ^ 64)
  | _ => BitVec.ofNat 64 (a.toNat * b.toNat / 2 ^ 64)

/-- The carry-less product of two 64-bit words, 127 bits. -/
def clmul (a b : Nat) : Nat → Nat
  | 0 => 0
  | n + 1 => (if bitAt b n then a * 2 ^ n else 0) ^^^ clmul a b n

/-- Compare for a branch: BEQ, BNE, BLT, BGE, BLTU, BGEU. -/
def branchTaken (op : Nat) (a b : BitVec 64) : Bool :=
  match op with
  | 0x20 => a == b
  | 0x21 => a != b
  | 0x22 => a.slt b
  | 0x23 => !a.slt b
  | 0x24 => a.ult b
  | _ => !a.ult b

/-- ADDI, ANDI, ORI, XORI. -/
def immOp (op : Nat) (a i : BitVec 64) : BitVec 64 :=
  match op with
  | 0x02 => a + i
  | 0x03 => a &&& i
  | 0x04 => a ||| i
  | _ => a ^^^ i

/-- CLZ, POPC: rb is 0. -/
def countEff (c w : Nat) (s : State) : State :=
  if fRb w ≠ 0 then s.raise c 1
  else s.execG c w (fun k =>
    let a := k.gr (fRa w)
    BitVec.ofNat 64 (if fFn10 w = 14 then clz a else popCount a.toNat 64))

/-- SHI: imm[14:8] is 0; imm[7:6] is no 3. -/
def shiEff (c w : Nat) (s : State) : State :=
  if bits w 8 7 ≠ 0 ∨ bits w 6 2 = 3 then s.raise c 1
  else s.execG c w (fun k => shiftOp (bits w 6 2) (k.gr (fRa w)) (bits w 0 6))

/-- LUIH. -/
def luihEff (c w : Nat) (s : State) : State :=
  s.execG c w (fun k => BitVec.ofNat 64 (bits (k.gr (fRd w)).toNat 0 32 + 2 ^ 32 * bits w 0 20))

/-! Loads and stores (R277) -/

/-- Bytes of a scalar load or store. -/
def accessSize : Nat → Nat
  | 0x10 => 1 | 0x11 => 1 | 0x12 => 2 | 0x13 => 2 | 0x14 => 4 | 0x15 => 4 | 0x16 => 8
  | 0x18 => 1 | 0x19 => 2 | 0x1A => 4 | _ => 8

/-- The loaded bytes, sign-extended by LB, LH, LW, else zero-extended. -/
def extendLoad (op x : Nat) : BitVec 64 :=
  match op with
  | 0x10 => (BitVec.ofNat 8 x).signExtend 64
  | 0x12 => (BitVec.ofNat 16 x).signExtend 64
  | 0x14 => (BitVec.ofNat 32 x).signExtend 64
  | _ => BitVec.ofNat 64 x

/-- An access of a core to its scratchpad at a meets an uncorrectable word: the word is reported to the Tinker engine of the cluster (14 R378; the block
of the access's first byte, log 36), and the core takes ECC_ERROR (R279). -/
def State.spadUe (s : State) (c a : Nat) : State :=
  (s.sramUe 0 (c / 64) (48 * s.get (Reg.CLUSTER_LMAP.PCORE (c / 64) (c % 64)) + a / 4096)).raise c 8 a

/-- A read of n bytes of a core's own scratchpad, or its exception. `ecc`: the access meets an uncorrectable error (R279). -/
def State.spadLoad (s : State) (c a n : Nat) (ecc : Bool) (act : List Byte → State) : State :=
  if s.spadOut c a n then s.raise c 3 a
  else if ecc then s.spadUe c a
  else act (memRead (s.core c).spad a n)

/-- A write of bytes to a core's own scratchpad, or its exception. -/
def State.spadStore (s : State) (c a : Nat) (bs : List Byte) (ecc : Bool) : State :=
  if s.spadOut c a bs.length then s.raise c 3 a
  else if s.touchesCode c a bs.length then s.raise c 5 a
  else if ecc then s.spadUe c a
  else (s.spadWrite c a bs).exec1 c id

/-- LB to LD. -/
def loadEff (c : Nat) (ecc : Bool) (w : Nat) (s : State) : State :=
  let a := (s.core c).ea w
  s.spadLoad c a (accessSize (fOp w)) ecc (fun bs => s.execG c w (fun _ => extendLoad (fOp w) (leNat bs)))

/-- SB to SD. -/
def storeEff (c : Nat) (ecc : Bool) (w : Nat) (s : State) : State :=
  let k := s.core c
  s.spadStore c (k.ea w) (leBytes (accessSize (fOp w)) (k.gr (fRd w)).toNat) ecc

/-! Branches, jumps, loops -/

/-- Target of a relative jump. -/
def Core.target (k : Core) (off : BitVec 64) : BitVec 18 := (k.pc.zeroExtend 64 + 4 * off).setWidth 18

/-- BEQ to BGEU: ra in [24:20], rb in [19:15]. -/
def branchEff (c w : Nat) (s : State) : State :=
  s.modCore c (fun k => if branchTaken (fOp w) (k.gr (fRd w)) (k.gr (fRa w)) then k.jump (k.target (fImm w)) else k.next)

/-- The link value PC + 4. -/
def Core.link (k : Core) : BitVec 64 := k.pc.zeroExtend 64 + 4

/-- JAL. -/
def jalEff (c w : Nat) (s : State) : State := s.modCore c (fun k => (k.setG (fRd w) k.link).jump (k.target (fImm20 w)))

/-- JALR. -/
def jalrEff (c w : Nat) (s : State) : State :=
  s.modCore c (fun k =>
    let t := (k.gr (fRa w) + fImm w) &&& ~~~3
    (k.setG (fRd w) k.link).jump (t.setWidth 18))

/-- Enter a loop; a fifth level raises LOOP. -/
def State.enterLoop (s : State) (c len count : Nat) : State :=
  let k := s.core c
  if 4 ≤ k.loops.length then s.raise c 7
  else s.setCore c { k with pc := k.pc + 4, loops := { start := k.pc.toNat + 4, len := len, count := count } :: k.loops }

/-- LOOPI. A length of 0 is not encoded: ILLEGAL (DEDUCED, log 54). -/
def loopiEff (c w : Nat) (s : State) : State :=
  if bits w 0 13 = 0 then s.raise c 1
  else s.enterLoop c (bits w 0 13) (if bits w 13 12 = 0 then 4096 else bits w 13 12)

/-- LOOPR: rd is 0; count 0 skips the body. -/
def looprEff (c w : Nat) (s : State) : State :=
  let k := s.core c
  let count := bits (k.gr (fRa w)).toNat 0 32
  let len := bits w 0 13
  if fRd w ≠ 0 ∨ len = 0 then s.raise c 1
  else if count = 0 then s.modCore c (fun k => k.past (k.pc.toNat + 4 * len))
  else s.enterLoop c len count

/-! CSRs (R270, Table 10.2) -/

/-- CHSTS of a channel (R291). -/
def Chan.sts (x : Chan) : Nat := min x.queue.length 65535 + 2 ^ 16 * x.status + 2 ^ 24 * b2n x.err

/-- The value of a CSR; none for an unlisted number. -/
def State.csr (s : State) (c n : Nat) : Option Nat :=
  let k := s.core c
  match n with
  | 0x00 => some c
  | 0x01 => some ((s.coreOwner? c).getD (cidPart k.cid) + 2 ^ 8 * b2n (serviceCore c))
  | 0x02 => some k.cid
  | 0x03 => some (s.get (Reg.CLUSTER_CORE_HANDLE.HANDLE (c / 64) (c % 64)))
  | 0x04 => some k.fflags
  | 0x05 => some (s.cycleOf c)
  | 0x06 => some (b2n (s.spMode1 c) + 2 * b2n (s.coreSecure c) + 4 * s.get Reg.GLB_CTL.EXACT + 8 * b2n (s.stageCore c))
  | 0x08 => some (s.get (Reg.CLUSTER_CORE_STS.CAUSE (c / 64) (c % 64)))
  | 0x09 => some (s.get (Reg.CLUSTER_CORE_EPC.EPC (c / 64) (c % 64)))
  | 0x0A => some k.eaddr
  | 0x0B => some k.ekind
  | 0x10 => some s.time.ftNs.toNat
  | 0x11 => some s.time.frac.toNat
  | 0x12 => some s.slot
  | 0x20 => some (k.chans.getD 0 {}).sts
  | 0x21 => some (k.chans.getD 1 {}).sts
  | 0x22 => some (k.chans.getD 2 {}).sts
  | 0x23 => some (k.chans.getD 3 {}).sts
  | _ => none

/-- CSRR. -/
def csrrEff (c w : Nat) (s : State) : State :=
  match s.csr c (bits w 0 8) with
  | some x => s.execG c w (fun _ => BitVec.ofNat 64 x)
  | none => s.raise c 1

/-- Change a channel of a core. -/
def State.modChan (s : State) (c ch : Nat) (f : Chan → Chan) : State :=
  s.modCore c (fun k => { k with chans := k.chans.putD ch (f (k.chans.getD ch {})) {} })

/-- CSRW: an RO entry raises ILLEGAL; so does an unlisted number (DEDUCED, log 54). -/
def csrwEff (c w : Nat) (s : State) : State :=
  let n := bits w 0 8
  if n = 0x04 then s.exec1 c (fun k => { k with fflags := bits (k.gr (fRd w)).toNat 0 4 })
  else if inRange n 0x20 0x23 then (s.modChan c (n - 0x20) (fun x => { x with err := false })).exec1 c id
  else s.raise c 1

/-! The rows -/

def execAddSubAndOrXor (core : CoreId) (s : State) : Answer :=
  .next (s.issue core.val .arith (fun w s => s.execGG core.val w (arithOp (fFn10 w))))
def execSllSrlSra (core : CoreId) (s : State) : Answer :=
  .next (s.issue core.val .shift (fun w s => s.execGG core.val w (fun a b => shiftOp (fFn10 w - 5) a (bits b.toNat 0 6))))
def execSltSltu (core : CoreId) (s : State) : Answer :=
  .next (s.issue core.val .slt (fun w s => s.execGG core.val w (fun a b => bv1 (if fFn10 w = 8 then a.slt b else a.ult b))))
def execMinMaxMinuMaxu (core : CoreId) (s : State) : Answer :=
  .next (s.issue core.val .minMax (fun w s => s.execGG core.val w (minMaxOp (fFn10 w))))
def execClzPopc (core : CoreId) (s : State) : Answer := .next (s.issue core.val .count (countEff core.val))
def execMulMulhMulhu (core : CoreId) (s : State) : Answer :=
  .next (s.issue core.val .mul (fun w s => s.execGG core.val w (mulOp (fFn10 w))))
def execClmulClmulh (core : CoreId) (s : State) : Answer :=
  .next (s.issue core.val .clmul (fun w s => s.execGG core.val w (fun a b =>
    BitVec.ofNat 64 (clmul a.toNat b.toNat 64 / (if fFn10 w = 19 then 1 else 2 ^ 64)))))
def execAddiAndiOriXori (core : CoreId) (s : State) : Answer :=
  .next (s.issue core.val .immArith (fun w s => s.execG core.val w (fun k => immOp (fOp w) (k.gr (fRa w)) (fImm w))))
def execShi (core : CoreId) (s : State) : Answer := .next (s.issue core.val .shi (shiEff core.val))
def execSlti (core : CoreId) (s : State) : Answer :=
  .next (s.issue core.val .slti (fun w s => s.execG core.val w (fun k => bv1 ((k.gr (fRa w)).slt (fImm w)))))
def execLui (core : CoreId) (s : State) : Answer :=
  .next (s.issue core.val .lui (fun w s => s.execG core.val w (fun _ => fImm20 w <<< 12)))
def execLuih (core : CoreId) (s : State) : Answer := .next (s.issue core.val .luih (luihEff core.val))
def execLbLhLwLd (core : CoreId) (ecc : Bool) (s : State) : Answer := .next (s.issue core.val .load (loadEff core.val ecc))
def execSbShSwSd (core : CoreId) (ecc : Bool) (s : State) : Answer := .next (s.issue core.val .store (storeEff core.val ecc))
def execBeqBneBltBge (core : CoreId) (s : State) : Answer := .next (s.issue core.val .branch (branchEff core.val))
def execJal (core : CoreId) (s : State) : Answer := .next (s.issue core.val .jal (jalEff core.val))
def execJalr (core : CoreId) (s : State) : Answer := .next (s.issue core.val .jalr (jalrEff core.val))
def execLoopi (core : CoreId) (s : State) : Answer := .next (s.issue core.val .loopi (loopiEff core.val))
def execLoopr (core : CoreId) (s : State) : Answer := .next (s.issue core.val .loopr (looprEff core.val))
def execCsrr (core : CoreId) (s : State) : Answer := .next (s.issue core.val .csrr (csrrEff core.val))
def execCsrw (core : CoreId) (s : State) : Answer := .next (s.issue core.val .csrw (csrwEff core.val))

/-- FENCE orders accesses; here each access is whole when its instruction is done. -/
def execFence (core : CoreId) (s : State) : Answer := .next (s.issue core.val .fence (fun _ s => s.exec1 core.val id))

end Sys2Proof.Machine
end

