-- ==== Sys2Proof/Machine/Vector.lean ====
section
/-! DEFINITION. The vector instructions of HYL (10_cores_and_hyl_instruction_set.md Table 10.6, R277, R278, R283 to R285, R288). -/

namespace Sys2Proof.Machine

/-- Formats of vector arithmetic. -/
def arithFmt (f : Nat) : Bool := f ≤ 2 || f == 10 || f == 11

/-- Formats of VCVT and VBCAST. -/
def cvtFmt (f : Nat) : Bool := f ≤ 4 || f == 10 || f == 11

/-- VLD: 64 bytes at A. -/
def vldEff (c : Nat) (ecc : Bool) (w : Nat) (s : State) : State :=
  s.spadLoad c ((s.core c).ea w) 64 ecc (fun bs => s.exec1 c (fun k => k.setVBytes (fRd w) bs))

/-- VLDR: line L rotated by o; only line L is read (R278). -/
def vldrEff (c : Nat) (ecc : Bool) (w : Nat) (s : State) : State :=
  let a := (s.core c).ea w
  let o := a % 64
  if 0x30000 ≤ a then s.raise c 3 a
  else s.spadLoad c (a - o) 64 ecc (fun bs => s.exec1 c (fun k => k.setVBytes (fRd w) (bs.drop o ++ bs.take o)))

/-- VST: vd to 64 bytes at A. -/
def vstEff (c : Nat) (ecc : Bool) (w : Nat) (s : State) : State :=
  let k := s.core c
  s.spadStore c (k.ea w) (k.vBytes (fRd w)) ecc

/-- VEXT: bytes of the vector named by ra. Past byte 63 the value is open (log 56). -/
def vextEff (c w : Nat) (s : State) : State :=
  let o := bits w 0 6
  let n := 2 ^ bits w 6 2
  if 64 < o + n then s.fresh.execG c w (fun _ => Config.freeWord s.freeCtr)
  else s.execG c w (fun k => BitVec.ofNat 64 (leAt (k.vBytes (fRa w)) o n))

/-- VINS: low bytes of ga into vd. Past byte 63 the vector is open (log 56). -/
def vinsEff (c w : Nat) (s : State) : State :=
  let o := bits w 0 6
  let n := 2 ^ bits w 6 2
  if 64 < o + n then s.fresh.exec1 c (fun k => k.setVBytes (fRd w) (s.freeBytes 64))
  else s.exec1 c (fun k =>
    let v := k.vBytes (fRd w)
    k.setVBytes (fRd w) (v.take o ++ leBytes n (k.gr (fRa w)).toNat ++ v.drop (o + n)))

/-- VBCAST: every element takes the low bits of the g register named by va. -/
def vbcastEff (c w : Nat) (s : State) : State :=
  let f := fFmt w
  if !cvtFmt f then s.raise c 1
  else s.exec1 c (fun k => k.setVElems (fRd w) f (List.replicate (512 / fmtBits f) (k.gr (fRa w)).toNat))

/-- Element-wise operation of two vectors, with its flags. -/
def Core.zipV (k : Core) (vd va vb f : Nat) (op : Nat → Nat → Nat × Nat) : Core :=
  let r := List.zipWith op (k.vElems va f) (k.vElems vb f)
  (k.setVElems vd f (r.map (·.1))).raise (r.foldl (fun a x => a ||| x.2) 0)

/-- VADD, VSUB, VMUL, VMAX, VMIN. -/
def varithEff (c w : Nat) (s : State) : State :=
  if !arithFmt (fFmt w) then s.raise c 1
  else s.exec1 c (fun k => k.zipV (fRd w) (fRa w) (fRb w) (fFmt w) (elemOp (fFmt w) (fFn w)))

/-- VABS, VNEG: vb is 0. -/
def vabsNegEff (c w : Nat) (s : State) : State :=
  let f := fFmt w
  if !arithFmt f ∨ fRb w ≠ 0 then s.raise c 1
  else s.exec1 c (fun k => k.setVElems (fRd w) f ((k.vElems (fRa w) f).map (elemAbsNeg f (fFn w == 6))))

/-- VAND, VOR, VXOR. -/
def vlogicEff (c w : Nat) (s : State) : State :=
  if fFmt w ≠ 11 then s.raise c 1
  else s.exec1 c (fun k =>
    let a := k.vr (fRa w)
    let b := k.vr (fRb w)
    k.setV (fRd w) (match fFn w with
      | 8 => a &&& b
      | 9 => a ||| b
      | _ => a ^^^ b))

/-- VFMA: va × vb + vd, one rounding (R282). -/
def vfmaEff (c w : Nat) (s : State) : State :=
  let f := fFmt w
  match (if f ≤ 2 then floatFmt? f else none) with
  | none => s.raise c 1
  | some ff => s.exec1 c (fun k =>
    let a := k.vElems (fRa w) f
    let b := k.vElems (fRb w) f
    let d := k.vElems (fRd w) f
    let r := (List.range (512 / ff.n)).map (fun i => ff.fma f (a.getD i 0) (b.getD i 0) (d.getD i 0))
    (k.setVElems (fRd w) f (r.map (·.1))).raise (r.foldl (fun x y => x ||| y.2) 0))

/-- VCVT: from FMT to FN[3:0]. Widening converts the elements from the start of the low or high half of va; narrowing writes from the start
of that half of vd and leaves the other elements of vd (DEDUCED, log 57). -/
def vcvtEff (c w : Nat) (s : State) : State :=
  let f := fFmt w
  let d := bits w 0 4
  let high := bitAt w 4
  if !cvtFmt f ∨ !cvtFmt d then s.raise c 1
  else s.exec1 c (fun k =>
    let src := k.vElems (fRa w) f
    let ns := 512 / fmtBits f
    let nd := 512 / fmtBits d
    let part := if nd < ns then (src.drop (if high then ns / 2 else 0)).take nd else src
    let r := part.map (fun x => convert d (elemValue f x))
    let out := r.map (·.1)
    let res := if ns < nd then
        let old := k.vElems (fRd w) d
        let o := if high then nd / 2 else 0
        old.take o ++ out ++ old.drop (o + ns)
      else out
    (k.setVElems (fRd w) d res).raise (r.foldl (fun x y => x ||| y.2) 0))

/-- VQMX: one MX block of 32 inputs (R285); the bytes between its elements and its scale are open (log 53). -/
def vqmxEff (c w : Nat) (s : State) : State :=
  let f := fFmt w
  let bf := bitAt w 0
  if !isMx f ∨ (bf = false ∧ fRa w % 2 = 1) then s.raise c 1
  else
    let k := s.core c
    let xs := if bf then (k.vElems (fRa w) 1).map (elemValue 1)
      else (k.vElems (fRa w) 0 ++ k.vElems (fRa w + 1) 0).map (elemValue 0)
    let (scale, es, bad) := quantize f (bitAt w 1) xs
    let el := packElems (fmtBits f) es
    let v := el ++ (s.freeBytes 63).drop el.length ++ [BitVec.ofNat 8 scale]
    let src := if bf then k.vBytes (fRa w) else k.vBytes (fRa w) ++ k.vBytes (fRa w + 1)
    s.fresh.exec1 c (fun k => (k.setVBytes (fRd w) v).raise ((if bad then flagNV else 0) ||| Config.mxFlags f src / 2 * 2))

/-- VDQMX: the MX block in va to 32 BF16 in vd, or 32 FP32 in vd and vd + 1. -/
def vdqmxEff (c w : Nat) (s : State) : State :=
  let f := fFmt w
  let bf := bitAt w 0
  if !isMx f ∨ (bf = false ∧ fRd w % 2 = 1) then s.raise c 1
  else s.exec1 c (fun k =>
    let b := k.vBytes (fRa w)
    let scale := leAt b 63 1
    let d := if bf then 1 else 0
    let out := (unpackElems (fmtBits f) b 32).map (fun x => (convert d (mxValue f scale x)).1)
    let k := if bf then k.setVElems (fRd w) 1 out
      else (k.setVElems (fRd w) 0 (out.take 16)).setVElems (fRd w + 1) 0 (out.drop 16)
    k.raise (Config.mxFlags f b))

/-- VPERM. -/
def vpermEff (c w : Nat) (s : State) : State :=
  s.exec1 c (fun k =>
    let a := k.vBytes (fRa w)
    k.setVBytes (fRd w) ((k.vBytes (fRb w)).map (fun b => if bitAt b.toNat 7 then 0 else a.getD (b.toNat % 64) 0)))

/-- VHRED: the pairwise tree over va, into element 0 (R288). -/
def vhredEff (c w : Nat) (s : State) : State :=
  let f := fFmt w
  if f ≠ 0 ∧ f ≠ 11 then s.raise c 1
  else s.exec1 c (fun k =>
    let op := elemOp f (match fFn w with | 0 => 0 | 1 => 3 | _ => 4)
    let (r, fl) := pairTree op 4 (k.vElems (fRa w) f)
    (k.setVElems (fRd w) f (r :: List.replicate 15 0)).raise fl)

/-! The rows -/

def execVld (core : CoreId) (ecc : Bool) (s : State) : Answer := .next (s.issue core.val .vld (vldEff core.val ecc))
def execVldr (core : CoreId) (ecc : Bool) (s : State) : Answer := .next (s.issue core.val .vldr (vldrEff core.val ecc))
def execVst (core : CoreId) (ecc : Bool) (s : State) : Answer := .next (s.issue core.val .vst (vstEff core.val ecc))
def execVext (core : CoreId) (s : State) : Answer := .next (s.issue core.val .vext (vextEff core.val))
def execVins (core : CoreId) (s : State) : Answer := .next (s.issue core.val .vins (vinsEff core.val))
def execVbcast (core : CoreId) (s : State) : Answer := .next (s.issue core.val .vbcast (vbcastEff core.val))
def execVaddVsubVmulVmaxVmin (core : CoreId) (s : State) : Answer := .next (s.issue core.val .varith (varithEff core.val))
def execVabsVneg (core : CoreId) (s : State) : Answer := .next (s.issue core.val .vabsNeg (vabsNegEff core.val))
def execVandVorVxor (core : CoreId) (s : State) : Answer := .next (s.issue core.val .vlogic (vlogicEff core.val))
def execVfma (core : CoreId) (s : State) : Answer := .next (s.issue core.val .vfma (vfmaEff core.val))
def execVcvt (core : CoreId) (s : State) : Answer := .next (s.issue core.val .vcvt (vcvtEff core.val))
def execVqmx (core : CoreId) (s : State) : Answer := .next (s.issue core.val .vqmx (vqmxEff core.val))
def execVdqmx (core : CoreId) (s : State) : Answer := .next (s.issue core.val .vdqmx (vdqmxEff core.val))
def execVperm (core : CoreId) (s : State) : Answer := .next (s.issue core.val .vperm (vpermEff core.val))
def execVhred (core : CoreId) (s : State) : Answer := .next (s.issue core.val .vhred (vhredEff core.val))

end Sys2Proof.Machine
end

