-- ==== Sys2Proof/Machine/Tensor.lean ====
section
/-! DEFINITION. The tensor instructions of HYL but TSTREAM (10_cores_and_hyl_instruction_set.md R284, R288). -/

namespace Sys2Proof.Machine

/-- The checks of a tile access of n bytes at ga, in the order of Table 10.9: none where it passes. -/
def State.tileCheck (s : State) (c a n : Nat) (store : Bool) : Option Nat :=
  if s.spadOut c a n then some 3
  else if a % 64 ≠ 0 then some 4
  else if store && s.touchesCode c a n then some 5
  else none

/-- Bits [24:22] of a Ten word are reserved. -/
def tenReserved (w : Nat) : Bool := bits w 22 3 != 0

/-- TZERO. -/
def tzeroEff (c w : Nat) (s : State) : State :=
  if tenReserved w then s.raise c 1 else s.exec1 c (fun k => k.setAcc (fAd w) [])

/-- TLD: 1 KiB at ga. -/
def tldEff (c : Nat) (ecc : Bool) (w : Nat) (s : State) : State :=
  let a := ((s.core c).gr (fRa w)).toNat
  if tenReserved w then s.raise c 1
  else match s.tileCheck c a 1024 false with
    | some e => s.raise c e a
    | none =>
      if ecc then s.spadUe c a
      else s.exec1 c (fun k => k.setAcc (fAd w) (unpackElems 32 (memRead k.spad a 1024) 256))

/-- FMT codes of TST and TSTREAM. -/
def tileFmt (f : Nat) : Bool := f ≤ 4 || f == 11

/-- An accumulator's elements converted to FMT, row by row, and the flags; FMT 11 takes INT32 elements as they are (DEDUCED, log 58). -/
def Core.accAs (k : Core) (ad f : Nat) (transpose : Bool) : List Nat × Nat :=
  let r := (List.range 256).map (fun n =>
    let m := if transpose then n % 16 * 16 + n / 16 else n
    let x := k.accEl ad m
    if f = 11 then (x, 0) else convert f (fp32.value x))
  (r.map (·.1), r.foldl (fun a x => a ||| x.2) 0)

/-- TST: the converted accumulator to ga; FN[0] transposes. -/
def tstEff (c : Nat) (ecc : Bool) (w : Nat) (s : State) : State :=
  let k := s.core c
  let a := (k.gr (fRa w)).toNat
  let f := fFmt w
  if tenReserved w ∨ tileFmt f = false then s.raise c 1
  else match s.tileCheck c a (32 * fmtBits f) true with
    | some e => s.raise c e a
    | none =>
      if ecc then s.spadUe c a
      else
        let (xs, fl) := k.accAs (fAd w) f (bitAt w 0)
        (s.spadWrite c a (packElems (fmtBits f) xs)).exec1 c (fun k => k.raise fl)

/-! TMMA (R288) -/

/-- Elements of a tile: 16 rows of 32 in format f. -/
def tileElems (f : Nat) (bs : List Byte) : List Nat := unpackElems (fmtBits f) bs 512

/-- The scale byte of row r of an MX tile. -/
def tileScale (f : Nat) (bs : List Byte) (r : Nat) : Nat := leAt bs (16 * rowBytes f + r) 1

/-- Element (i, j) of a float TMMA: products rounded to FP32, the pairwise tree, the scale, the sum with the accumulator. -/
def tmmaEl (f : Nat) (row col : List Nat) (scaleA scaleB acc : Nat) : Nat × Nat :=
  let ff := (floatFmt? f).getD fp32
  let ps := List.zipWith (fun a b =>
    let x := ff.value a
    let y := ff.value b
    let (r, bad) := x.mul y
    let (p, fl) := fp32.round r
    (p, fl ||| nvFlag f a b bad (x.isNan || y.isNan))) row col
  let (t, fl) := pairTree add32 5 (ps.map (·.1))
  let fl := ps.foldl (fun a x => a ||| x.2) fl
  let (t, fl) :=
    if !isMx f then (t, fl)
    else if scaleA = 0xFF ∨ scaleB = 0xFF then (fp32.nanCode, fl)
    else
      let (u, g) := fp32.round ((fp32.value t).scale ((scaleA + scaleB : Nat) - 254 : Int))
      (u, fl ||| g)
  let (r, g) := add32 t acc
  (r, fl ||| g)

/-- Element (i, j) of an INT8 TMMA: exact modulo 2^32. -/
def tmmaInt (row col : List Nat) (acc : Nat) : Nat :=
  let sum : Int := (List.zipWith (fun a b => sInt 8 a * sInt 8 b) row col).foldl (· + ·) 0
  (BitVec.ofInt 32 (sum + acc)).toNat

/-- The 256 elements of a TMMA, and its flags. -/
def tmmaAll (f : Nat) (a b : List Byte) (acc : Nat → Nat) : List Nat × Nat :=
  let ea := tileElems f a
  let eb := tileElems f b
  let r := (List.range 256).map (fun n =>
    let i := n / 16
    let j := n % 16
    let row := slice ea (32 * i) 32
    let col := slice eb (32 * j) 32
    if f = 10 then (tmmaInt row col (acc n), 0)
    else tmmaEl f row col (tileScale f a i) (tileScale f b j) (acc n))
  (r.map (·.1), r.foldl (fun x y => x ||| y.2) 0)

/-- TMMA: FMT 1 to 10. An uncorrectable error in a tile is found late: the accumulator is open, ECC comes at the next boundary with EPC at
the TMMA. -/
def tmmaEff (c : Nat) (ecc : Bool) (w : Nat) (s : State) : State :=
  let k := s.core c
  let a := (k.gr (fRa w)).toNat
  let b := (k.gr (fRb w)).toNat
  let f := fFmt w
  if tenReserved w ∨ inRange f 1 10 = false then s.raise c 1
  else match s.tileCheck c a (tileBytes f) false, s.tileCheck c b (tileBytes f) false with
    | some e, some e' => s.raise c (min e e') (if e ≤ e' then a else b)
    | some e, none => s.raise c e a
    | none, some e => s.raise c e b
    | none, none =>
      if ecc then
        (s.fresh.modCore c (fun k => k.setAcc (fAd w) (unpackElems 32 (s.freeBytes 1024) 256))).spadUe c a
      else
        let (xs, fl) := tmmaAll f (memRead k.spad a (tileBytes f)) (memRead k.spad b (tileBytes f)) (k.accEl (fAd w))
        s.exec1 c (fun k => (k.setAcc (fAd w) xs).raise fl)

/-! The rows -/

def execTzero (core : CoreId) (s : State) : Answer := .next (s.issue core.val .tzero (tzeroEff core.val))
def execTld (core : CoreId) (ecc : Bool) (s : State) : Answer := .next (s.issue core.val .tld (tldEff core.val ecc))
def execTst (core : CoreId) (ecc : Bool) (s : State) : Answer := .next (s.issue core.val .tst (tstEff core.val ecc))
def execTmma (core : CoreId) (ecc : Bool) (s : State) : Answer := .next (s.issue core.val .tmma (tmmaEff core.val ecc))

end Sys2Proof.Machine
end

