-- ==== Sys2Proof/Machine/Drover.lean ====
section
/-! DEFINITION. Drover channels, conversion profiles, streamed tiles, port transmits, signal words (10_cores_and_hyl_instruction_set.md R290,
R291, R293; 11_inflight_arithmetic_and_whippet_path.md R309 to R318, R334, R337). -/

namespace Sys2Proof.Machine

/-! Signal words -/

/-- Add to the 64-bit word at an address, indivisibly; nothing where its memory turns the access away. Answers the old value. -/
def State.wordAdd (s : State) (cid space addr inc : Nat) : State × Except MemErr Nat :=
  match s.memReadC cid space addr 8 with
  | (s, .error e) => (s, .error e)
  | (s, .ok bs) =>
    match s.memWriteC cid space addr (leBytes 8 (leNat bs + inc)) with
    | (s, .error e) => (s, .error e)
    | (s, .ok _) => (s, .ok (leNat bs))

/-- Add to a signal word named with its space in bits [53:52]; 0 names none. -/
def State.signal (s : State) (cid sig inc : Nat) : State :=
  if sig = 0 then s else (s.wordAdd cid (bits sig 52 2) (bits sig 0 52) inc).1

/-- SIGA (R293): gd takes the old word. A word whose memory finds it uncorrectable leaves gd open (log 59). -/
def sigaEff (c w : Nat) (s : State) : State :=
  let k := s.core c
  let ga := (k.gr (fRa w)).toNat
  let gb := (k.gr (fRb w)).toNat
  let space := bits ga 52 2
  let a := bits ga 0 52
  if 2 ^ 54 ≤ ga ∨ (space ≠ 1 ∧ space ≠ 2) then s.raise c 2 ga
  else if a % 8 ≠ 0 then
    (match s.memCheck k.cid space a 8 true with
      | .error .cid => s.raise c 2 ga
      | _ => s.raise c 4 ga)
  else match s.wordAdd k.cid space a gb with
    | (s, .ok old) => s.execG c w (fun _ => BitVec.ofNat 64 old)
    | (s, .error .cid) => s.raise c 2 ga
    | (s, .error .ue) => s.fresh.execG c w (fun _ => Config.freeWord s.freeCtr)
    | (_, .error .wait) => s

/-! Descriptors (Table 10.7) -/

/-- SRC or DST with its space: the address. -/
def dAddr (w : Nat) : Nat := bits w 0 52
/-- The space of SRC or DST. -/
def dSpace (w : Nat) : Nat := bits w 52 2
/-- Byte 21, SIG to DST_SELF. -/
def dFlag (d : List Byte) (i : Nat) : Bool := bitAt (leAt d 21 1) i
/-- LENGTH. -/
def dLen (d : List Byte) : Nat := leAt d 16 4
/-- CONV. -/
def dConv (d : List Byte) : Nat := leAt d 20 1
/-- SIGADDR. -/
def dSig (d : List Byte) : Nat := leAt d 24 8

/-- SRC of core c's descriptor, SRC_SELF applied. -/
def dSrc (c : Nat) (d : List Byte) : Nat := if dFlag d 3 then setBits (leAt d 0 8) 18 12 c else leAt d 0 8
/-- DST, DST_SELF applied. -/
def dDst (c : Nat) (d : List Byte) : Nat := if dFlag d 4 then setBits (leAt d 8 8) 18 12 c else leAt d 8 8

/-- The source buffer. -/
def dSrcBuf (c : Nat) (d : List Byte) : Buf := { space := dSpace (dSrc c d), addr := dAddr (dSrc c d), indirect := dFlag d 1 }
/-- The destination buffer. -/
def dDstBuf (c : Nat) (d : List Byte) : Buf := { space := dSpace (dDst c d), addr := dAddr (dDst c d), indirect := dFlag d 2 }

/-! Conversion profiles (Table 11.1) -/

/-- A profile as its four words hold it. -/
structure Profile where
  kind : Nat
  sfmt : Nat
  dfmt : Nat
  sel : Bool
  part : Nat
  valid : Bool
  w1 : Nat
  w2 : Nat
  w3 : Nat
  deriving DecidableEq, Repr

/-- Read a profile's words. -/
def profileOf (ws : List Word) : Profile :=
  let w0 := (ws.getD 0 0).toNat
  { kind := bits w0 0 4, sfmt := bits w0 4 4, dfmt := bits w0 8 4, sel := bitAt w0 12, part := bits w0 16 6, valid := bitAt w0 31
    w1 := (ws.getD 1 0).toNat, w2 := (ws.getD 2 0).toNat, w3 := (ws.getD 3 0).toNat }

/-- The words of profile e of a cluster. -/
def State.profileWords (s : State) (k e : Nat) : List Word :=
  [s.reg (Reg.CLUSTER_CONV_W0.off k e), s.reg (Reg.CLUSTER_CONV_W1.off k e), s.reg (Reg.CLUSTER_CONV_W2.off k e),
   s.reg (Reg.CLUSTER_CONV_W3.off k e)]

/-- Bytes of one element of a stream, of one group for an MX format (R310). -/
def streamUnit (f : Nat) : Nat := if isMx f then tileBytes f else fmtBits f / 8

/-- Elements of one unit of a stream. -/
def streamPer (f : Nat) : Nat := if isMx f then 512 else 1

/-- Elements in some bytes of a stream; none where the bytes are no whole number of units, or the format is reserved (R311). -/
def streamCount (f len : Nat) : Option Nat :=
  if fmtBits f = 0 ∨ len % streamUnit f ≠ 0 then none else some (len / streamUnit f * streamPer f)

/-- Bytes of n elements of a stream. -/
def streamBytes (f n : Nat) : Nat := n / streamPer f * streamUnit f

/-- The exact values of a stream. -/
def decodeStream (f : Nat) (bs : List Byte) : List Num :=
  if isMx f then
    (List.range (bs.length / tileBytes f)).flatMap (fun g =>
      let t := slice bs (g * tileBytes f) (tileBytes f)
      (unpackElems (fmtBits f) t 512).zipIdx.map (fun e => mxValue f (leAt t (16 * rowBytes f + e.2 / 32) 1) e.1))
  else (unpackElems (fmtBits f) bs (bs.length * 8 / fmtBits f)).map (elemValue f)

/-- Encode one group of 512 elements. -/
def encodeGroup (f : Nat) (sel : Bool) (xs : List Num) : List Byte :=
  let rows := (List.range 16).map (fun r => quantize f sel (slice xs (32 * r) 32))
  rows.flatMap (fun r => packElems (fmtBits f) r.2.1) ++ rows.map (fun r => BitVec.ofNat 8 r.1)

/-- A stream of exact values (R311): rounded once, or quantized by blocks of 32. -/
def encodeStream (f : Nat) (sel : Bool) (xs : List Num) : List Byte :=
  if isMx f then (List.range (xs.length / 512)).flatMap (fun g => encodeGroup f sel (slice xs (512 * g) 512))
  else packElems (fmtBits f) (xs.map (fun x => (convert f x).1))

/-- Transpose a row-major list. -/
def transposeList {α : Type} (rows cols : Nat) (d : α) (xs : List α) : List α :=
  (List.range (rows * cols)).map (fun n => xs.getD (n % rows * cols + n / rows) d)

/-- Destination bytes of a conversion over `len` source bytes, by the rules of R311 to R313 on its profile; none where one fails. For
PERMUTE `len` counts destination bytes. -/
def convBytes (p : Profile) (len : Nat) : Option Nat :=
  match p.kind with
  | 1 | 2 =>
    match streamCount p.sfmt len with
    | none => none
    | some n =>
      let rows := bits p.w1 0 16
      let cols := bits p.w1 16 16
      if fmtBits p.dfmt = 0 ∨ n % streamPer p.dfmt ≠ 0 ∨ (p.kind = 2 ∧ (rows = 0 ∨ cols = 0 ∨ n ≠ rows * cols)) then none
      else some (streamBytes p.dfmt n)
  | 3 =>
    let u := 64 * 2 ^ bits p.w1 0 4
    if 14 < bits p.w1 0 4 ∨ len % u ≠ 0 ∨ 65536 < len / u ∨ p.sfmt ≠ 0 ∨ p.dfmt ≠ 0 ∨ bits p.w3 20 2 = 3 ∨ p.w2 % 4 ≠ 0 then none
    else some len
  | _ => none

/-- CONVERT and TRANSPOSE of a source (R311, R312). -/
def convertBytes (p : Profile) (bs : List Byte) : List Byte :=
  let xs := decodeStream p.sfmt bs
  encodeStream p.dfmt p.sel (if p.kind = 2 then transposeList (bits p.w1 0 16) (bits p.w1 16 16) .nan xs else xs)

/-! Taking a descriptor -/

/-- A scratchpad range of a transfer touches a secure or a code region. -/
def State.spadBarred (s : State) (space addr n : Nat) : Bool :=
  space == 2 && (s.touchesSecure (bits addr 18 12) (addr % 2 ^ 18) n || s.touchesCode (bits addr 18 12) (addr % 2 ^ 18) n)

/-- The checks at the taking of a descriptor (R291, R309, R314, R316): it completes with MALFORMED_ENTRY. -/
def State.descBad (s : State) (c : Nat) (x : Xfer) (ws : List Word) : Bool :=
  let d := x.desc
  let src := dSrc c d
  let dst := dDst c d
  let len := dLen d
  let p := profileOf ws
  let stream := dConv d != 0 && p.kind == 4
  let conv := if dConv d = 0 then some len else if stream then some len else convBytes p len
  2 ^ 54 ≤ src || 2 ^ 54 ≤ dst || 32 ≤ leAt d 21 1 || leAt d 22 2 != 0 || dSpace src == 3 || len == 0 || 2 ^ 31 < len
    || (dSpace dst == 3 && (2 ^ 35 ≤ dAddr dst || dConv d != 0 || dFlag d 2))
    || (if dFlag d 0 then 2 ^ 54 ≤ dSig d || dSig d % 8 != 0 || (dSpace (dSig d) != 1 && dSpace (dSig d) != 2) else dSig d != 0)
    || (dConv d != 0 && (!p.valid || p.part != cidPart x.cid))
    || (stream && (leAt d 0 8 != 0 || dFlag d 1 || dFlag d 3))
    || conv.isNone
    || (!dFlag d 1 && !stream && s.spadBarred (dSpace src) (dAddr src) (if p.kind = 3 then 64 * 2 ^ bits p.w1 0 4 * bits p.w1 8 24 else len))
    || (!dFlag d 2 && dSpace dst != 3 && !stream && s.spadBarred (dSpace dst) (dAddr dst) (conv.getD 0))

/-- A transfer leaves OUTSTANDING (R291): its status is kept when it is not OK, its signal word is incremented; a CMPL and a halt that
waited for it go on. -/
def State.xferEnd (s : State) (c ch : Nat) (x : Xfer) (st : Nat) : State :=
  let s := s.modChan c ch (fun y => { y with
    queue := y.queue.filter (fun t => t.id != x.id), status := if st = 0 then y.status else st, err := y.err || st != 0 })
  let s := if dFlag x.desc 0 then s.signal x.cid (dSig x.desc) 1 else s
  (s.flushCmpls c).tryHalt c

/-- A frame of the transfer is still on the mesh or waits in a port's transmit queue. -/
def State.xferQueued (s : State) (c ch id : Nat) : Bool :=
  let mine (f : Frame) : Bool := match f.prog with
    | some (c', _, ch', id') => c' == c && ch' == ch && id' == id
    | none => false
  s.mesh.crossings.any (fun x => mine x.frame) || s.ports.any (fun e => e.2.txq.any mine)

/-- A transfer whose data has been moved leaves once none of its tiles is parked and its frame's first byte has left. -/
def State.xferSettle (s : State) (c ch id : Nat) : State :=
  match ((s.core c).chans.getD ch {}).queue.find? (fun x => x.id == id) with
  | none => s
  | some x => if x.moved && x.parked == 0 && !s.xferQueued c ch id then s.xferEnd c ch x x.status else s

/-- DROVER_DESCRIPTOR_TAKE: the head of a channel is taken and checked, its profile copied. -/
def droverTakeEff (c ch : Nat) (s : State) : State :=
  match ((s.core c).chans.getD ch {}).queue with
  | [] => s
  | x :: _ =>
    if x.taken || s.disabled ⟨.drover, c / 64, 0⟩ || s.inP2 then s
    else
      let ws := if dConv x.desc = 0 then [] else s.profileWords (c / 64) (dConv x.desc)
      if s.descBad c x ws then s.xferEnd c ch x 0x10
      else s.modXfer c ch x.id (fun x => { x with taken := true, prof := ws })

/-! Moving the data -/

/-- The status of a memory's refusal. -/
def errStatus : MemErr → Nat
  | .ue => 0x40
  | _ => 0x22

/-- The transfer ends with what has been moved: it leaves once its parked tiles are written. -/
def State.xferMoved (s : State) (c ch id st : Nat) : State :=
  (s.modXfer c ch id (fun x => { x with moved := true, status := st })).xferSettle c ch id

/-- A source fragment is missing: the transfer stands until it is resolved (07 R191). -/
def State.xferStop (s : State) (c ch : Nat) (x : Xfer) (fs : List Frag) : State :=
  match fs with
  | [] => s
  | f :: _ =>
    match s.raiseFault x.cid f { engine := 1, write := false, qpn := none } (.xfer c ch x.id) with
    | (s, some _) => s.modXfer c ch x.id (fun x => { x with stopped := true })
    | (s, none) => s

/-- The engine of a channel's writes: its code (0 a transfer, 2 a tensor stream), and the channel. -/
def chanWrites (code c ch : Nat) : Access := { engine := code, write := true, qpn := none, unit := 2 ^ 20 + 4 * c + ch }

/-- A tile of a transfer. -/
def xferTile (c ch : Nat) (x : Xfer) (off : Nat) (bs : List Byte) : Tile :=
  { id := 0, cid := x.cid, table := 0, tspace := 0, offset := off, bytes := bs, faults := [], queue := 0, pos := 0
    xfer := some (c, ch, x.id), park := none }

/-- Write converted bytes in blocks of at most 4 KiB. The fuel bounds the blocks. -/
def State.xferWrite (s : State) (c ch : Nat) (x : Xfer) (bs : List Byte) : Nat → Nat → State
  | 0, _ => s.xferMoved c ch x.id 0
  | k + 1, off =>
    if bs.length ≤ off then s.xferMoved c ch x.id 0
    else match s.placeAt (dDstBuf c x.desc) (xferTile c ch x off (slice bs off 4096)) (chanWrites 0 c ch) with
      | (s, .err .wait) => s
      | (s, .err e) => s.xferMoved c ch x.id (errStatus e)
      | (s, .bad) => s.xferMoved c ch x.id 0x11
      | (s, _) => (s.modXfer c ch x.id (fun x => { x with got := off + 4096 })).xferWrite c ch x bs k (off + 4096)

/-- A plain copy, block by block, from where it stands. -/
def State.xferCopy (s : State) (c ch : Nat) (x : Xfer) : Nat → Nat → State
  | 0, _ => s.xferMoved c ch x.id 0
  | k + 1, off =>
    let len := dLen x.desc
    if len ≤ off then s.xferMoved c ch x.id 0
    else match s.bufRead x.cid (dSrcBuf c x.desc) off (min 4096 (len - off)) with
      | (s, .missing fs) => s.xferStop c ch x fs
      | (s, .err .wait) => s
      | (s, .err e) => s.xferMoved c ch x.id (errStatus e)
      | (s, .bad) => s.xferMoved c ch x.id 0x11
      | (s, .ok bs) =>
        match s.placeAt (dDstBuf c x.desc) (xferTile c ch x off bs) (chanWrites 0 c ch) with
        | (s, .err .wait) => s
        | (s, .err e) => s.xferMoved c ch x.id (errStatus e)
        | (s, .bad) => s.xferMoved c ch x.id 0x11
        | (s, _) => (s.modXfer c ch x.id (fun x => { x with got := off + 4096 })).xferCopy c ch x k (off + 4096)

/-- The units a PERMUTE gathers, in table order (R313). -/
def State.gather (s : State) (cid : Nat) (b : Buf) (u : Nat) : List Nat → List Byte → State × BufRes (List Byte)
  | [], acc => (s, .ok acc)
  | t :: ts, acc =>
    if t = 0xFFFFFFFF then s.gather cid b u ts (acc ++ List.replicate u 0)
    else match s.bufRead cid b (t * u) u with
      | (s, .ok bs) => s.gather cid b u ts (acc ++ bs)
      | x => x

/-- The bytes a conversion writes; none where it has ended or stands. -/
def State.convSource (s : State) (c ch : Nat) (x : Xfer) : State × Option (List Byte) :=
  let p := profileOf x.prof
  let src := dSrcBuf c x.desc
  let res : State × BufRes (List Byte) :=
    if p.kind = 3 then
      let u := 64 * 2 ^ bits p.w1 0 4
      let e := dLen x.desc / u
      match s.memReadC x.cid (bits p.w3 20 2) (p.w2 + 2 ^ 32 * bits p.w3 0 20) (4 * e) with
      | (s, .error er) => (s, .err er)
      | (s, .ok t) =>
        let es := (List.range e).map (fun j => leAt t (4 * j) 4)
        if es.any (fun v => bits p.w1 8 24 ≤ v && v != 0xFFFFFFFF) then (s.xferMoved c ch x.id 0x10, .missing [])
        else s.gather x.cid src u es []
    else s.bufRead x.cid src 0 (dLen x.desc)
  match res with
  | (s, .ok bs) => (s, some (if p.kind = 3 then bs else convertBytes p bs))
  | (s, .missing fs) => (s.xferStop c ch x fs, none)
  | (s, .err .wait) => (s, none)
  | (s, .err e) => (s.xferMoved c ch x.id (errStatus e), none)
  | (s, .bad) => (s.xferMoved c ch x.id 0x11, none)

/-- The frame a program built, for a port (R291): on a native port its first 16 bytes are the link header. -/
def State.progFrame (s : State) (c ch : Nat) (x : Xfer) (bs : List Byte) : Frame :=
  let dst := dAddr (leAt x.desc 8 8)
  let cls := bits dst 8 3
  let flow := bits dst 11 24
  let origin := some (c, x.ev, ch, x.id)
  if s.native (bits dst 0 6) then
    let ty := leAt bs 10 1 % 8
    { kind := if ty = 0 then .transport else if ty = 1 then .management else .encap
      dst := leAt bs 0 4, src := leAt bs 4 4, cls := cls, epoch := s.get Reg.MESH_STS.EPOCH, hops := leAt bs 11 1, flow := flow
      body := bs.drop 16, arrived := s.time.ftNs, prog := origin }
  else
    { kind := .ethernet, cls := cls, epoch := s.get Reg.MESH_STS.EPOCH, flow := flow, body := bs, hasFca := false, arrived := s.time.ftNs
      prog := origin }

/-- A program's frame crosses the mesh to its port: a scheduled one on VC0, in XY (DEDUCED, log 143), dropped where that crosses a fenced link. -/
def State.progCross (s : State) (c : Nat) (f : Frame) (port sub : Nat) : State :=
  let r := routerOfPort port
  if 4 ≤ f.cls then s.crossFree f (c / 64) r (.port port sub)
  else if s.pathClear (c / 64) r false then s.cross f 0 (pathLinks (c / 64) r false) none (.port port sub)
  else (s.count Reg.MESH_NOROUTE_DROP.COUNT).pathDrop f

/-- A port transmit: the frame goes to its port over the mesh; one of an event whose frame was bad is cancelled (R334). A frame of a flow waits until
its bucket admits it; one longer than MAX_FRAME is dropped and counted (05 R128). -/
def State.xferSend (s : State) (c ch : Nat) (x : Xfer) : State :=
  if (s.core c).badEvs.contains x.ev then s.xferMoved c ch x.id 0x10
  else match s.bufRead x.cid (dSrcBuf c x.desc) 0 (dLen x.desc) with
    | (s, .missing fs) => s.xferStop c ch x fs
    | (s, .err .wait) => s
    | (s, .err e) => s.xferMoved c ch x.id (errStatus e)
    | (s, .bad) => s.xferMoved c ch x.id 0x11
    | (s, .ok bs) =>
      let dst := dAddr (leAt x.desc 8 8)
      let f := s.progFrame c ch x bs
      let moved (s : State) : State := s.modXfer c ch x.id (fun x => { x with moved := true })
      let go (s : State) : State := ((moved s).progCross c f (bits dst 0 6) (bits dst 6 2)).xferSettle c ch x.id
      match (if f.flow = 0 then none else flowIn s.activeImages f.flow) with
      | none => go s
      | some (_, r) =>
        if r.maxFrame < f.len then ((moved s).policeDrop r).xferSettle c ch x.id
        else if !s.flowAdmits r f.len then s
        else go (s.takeTokens r f.len)

/-! Streams (R316, R317) -/

/-- Bytes of a row of a tile converted to FMT. -/
def streamRow (f : Nat) : Nat := 16 * (fmtBits f / 8)

/-- A stream descriptor at the head of its channel takes the buffered tiles; the fuel bounds them. -/
def State.streamTiles (s : State) (c ch id : Nat) : Nat → State
  | 0 => s
  | k + 1 =>
    let y := (s.core c).chans.getD ch {}
    match y.queue.find? (fun x => x.id == id), y.tiles with
    | some x, (f, bs) :: ts =>
      if x.moved then s
      else
        let p := profileOf x.prof
        let pitch := bits p.w1 0 24
        let tpr := bits p.w2 0 16
        let rb := streamRow f
        let s' := s.modChan c ch (fun y => { y with tiles := ts })
        if dLen x.desc % (16 * rb) ≠ 0 ∨ pitch < tpr * rb ∨ tpr = 0 ∨ (x.fmt.isSome ∧ x.fmt ≠ some f) then s'.xferMoved c ch id 0x10
        else
          let t := x.got / (16 * rb)
          let tile := { xferTile c ch x (t / tpr * 16 * pitch + t % tpr * rb) bs with rowLen := rb, pitch := pitch }
          match s'.placeAt (dDstBuf c x.desc) tile (chanWrites 2 c ch) with
          | (_, .err .wait) => s
          | (s, .err e) => s.xferMoved c ch id (errStatus e)
          | (s, .bad) => s.xferMoved c ch id 0x11
          | (s, _) =>
            let s := s.modXfer c ch id (fun x => { x with got := x.got + bs.length, fmt := some f })
            if dLen x.desc ≤ x.got + bs.length then s.xferMoved c ch id 0 else s.streamTiles c ch id k
    | _, _ => s

/-- The memories that a descriptor names grant its transfer now; that of a stage core serves a scheduled flow (16 R435, R437; log 166). -/
def State.xferGrant (s : State) (c : Nat) (d : List Byte) : Bool :=
  s.stageCore c || (s.ddrGrant (dSrcBuf c d).space (dSrcBuf c d).addr && s.ddrGrant (dDstBuf c d).space (dDstBuf c d).addr)

/-- DROVER_TRANSFER_DONE: the transfer at the head of a channel moves its data and leaves. -/
def droverDoneEff (c ch : Nat) (seen : Seen) (s : State) : State :=
  match ((s.core c).chans.getD ch {}).queue with
  | [] => s
  | x :: _ =>
    let s := s.see seen
    if !x.taken || x.stopped || s.disabled ⟨.drover, c / 64, 0⟩ then s
    else if x.moved then s.xferSettle c ch x.id
    else if !s.xferGrant c x.desc then s
    else if dSpace (leAt x.desc 8 8) = 3 then s.xferSend c ch x
    else if dConv x.desc = 0 then s.xferCopy c ch x (ceilDiv (dLen x.desc) 4096 + 1) x.got
    else if (profileOf x.prof).kind = 4 then s.streamTiles c ch x.id 4
    else match s.convSource c ch x with
      | (s, some bs) => s.xferWrite c ch x bs (ceilDiv bs.length 4096 + 1) x.got
      | (s, none) => s

/-! The instructions -/

/-- DMOV: the descriptor at ga is copied to channel rd[1:0] (DEDUCED, log 60); a full channel stalls it. -/
def dmovEff (c w : Nat) (s : State) : State :=
  let k := s.core c
  let a := (k.gr (fRa w)).toNat
  let ch := fRd w % 4
  if 4 ≤ fRd w then s.raise c 1
  else if s.spadOut c a 32 then s.raise c 3 a
  else if a % 32 ≠ 0 then s.raise c 4 a
  else if 8 ≤ ((k.chans.getD ch {}).queue.filter (fun x => !x.taken)).length then s
  else
    let x : Xfer := { id := k.xferNext, desc := memRead k.spad a 32, ev := (k.cur.map (·.id)).getD 0, cid := k.cid }
    let s := s.modChan c ch (fun y => { y with queue := y.queue ++ [x] })
    s.exec1 c (fun k => { k with xferNext := k.xferNext + 1 })

/-- TSTREAM (R290, R318): a tile waits for room in the channel's buffer of four. -/
def tstreamEff (c w : Nat) (s : State) : State :=
  let k := s.core c
  let f := fFmt w
  let ch := fRb w % 4
  if tenReserved w ∨ tileFmt f = false then s.raise c 1
  else if s.flag (Reg.PART_ALLOC.STREAM ((s.coreOwner? c).getD (cidPart k.cid))) = false then s.raise c 2
  else if 4 ≤ (k.chans.getD ch {}).tiles.length then s
  else
    let (xs, fl) := k.accAs (fAd w) f false
    let s := s.modChan c ch (fun y => { y with tiles := y.tiles ++ [(f, packElems (fmtBits f) xs)] })
    s.exec1 c (fun k => k.raise fl)

/-! Profile registers (R337) -/

/-- The register of word i of profile e. -/
def convOff (k e i : Nat) : Nat := Reg.CLUSTER_CONV_W0.off k e + 4 * i

/-- The bits of words 1 to 3 of a profile that its KIND gives a meaning (R337); the others are reserved. -/
def convMask (kind i : Nat) : Nat :=
  match i, kind with
  | 1, 2 => 0xFFFFFFFF
  | 1, 3 => 0xFFFFFF0F
  | 1, 4 => 0x00FFFFFF
  | 2, 3 => 0xFFFFFFFC
  | 2, 4 => 0x0000FFFF
  | 3, 3 => 0x003FFFFF
  | _, _ => 0

/-- What word i of profile e reads: fields of other kinds than its KIND read 0. -/
def State.convWord (s : State) (k e i : Nat) : Word :=
  let w := s.reg (convOff k e i)
  if i = 0 then w else w &&& BitVec.ofNat 32 (convMask (s.get (Reg.CLUSTER_CONV_W0.KIND k e)) i)

/-- CONV_PROFILE_WRITE: word i of profile e. -/
def convWriteEff (h : HostId) (k e i : Nat) (v : Word) (s : State) : State :=
  let off := convOff k e i
  let p := profileOf (s.profileWords k e)
  let ownerOk := !p.valid || s.owns h p.part
  let q := if i = 0 then wordField v 16 6 else p.part
  if e = 0 ∨ ownerOk = false ∨ (i = 0 ∧ ¬ (s.owns h q ∧ s.pstate q = 2)) ∨ (i ≠ 0 ∧ p.valid = true) then s.writeIgnored h off
  else s.applyWrite off v

/-! The rows -/

def execSiga (core : CoreId) (s : State) : Answer := .next (s.issue core.val .siga (sigaEff core.val))
def execDmov (core : CoreId) (s : State) : Answer := .next (s.issue core.val .dmov (dmovEff core.val))
def execTstream (core : CoreId) (s : State) : Answer := .next (s.issue core.val .tstream (tstreamEff core.val))
def execDroverDescriptorTake (core : CoreId) (chan : Fin 4) (s : State) : Answer := .next (droverTakeEff core.val chan.val s)
def execDroverTransferDone (core : CoreId) (chan : Fin 4) (seen : Seen) (s : State) : Answer :=
  .next (droverDoneEff core.val chan.val seen s)
def execConvProfileWrite (host : HostId) (cluster : ClusterId) (profile : Fin 256) (word : Fin 4) (value : Word) (s : State) : Answer :=
  .next (s.hostWrite host (convOff cluster.val profile.val word.val) (convWriteEff host cluster.val profile.val word.val value))

end Sys2Proof.Machine
end

