-- ==== Sys2Proof/Machine/Reduce.lean ====
section
/-! DEFINITION. Reduction units (11_inflight_arithmetic_and_whippet_path.md R320 to R331). -/

namespace Sys2Proof.Machine

/-! Descriptors (Table 11.3) -/

/-- A reduction descriptor. -/
structure RedDesc where
  src : Nat
  dst : Nat
  rid : Nat
  members : Nat
  rank : Nat
  op : Nat
  sel : Bool
  dlist : Bool
  sched : Bool
  ifmt : Nat
  ofmt : Nat
  ndst : Nat
  elems : Nat
  seg : Nat
  sig : Nat
  rsig : Nat
  deriving DecidableEq, Repr

/-- Read the 64 bytes of a descriptor. -/
def redDesc (b : List Byte) : RedDesc :=
  let fl := leAt b 22 2
  { src := leAt b 0 8, dst := leAt b 8 8, rid := leAt b 16 2, members := leAt b 18 2, rank := leAt b 20 2, op := bits fl 0 2
    sel := bitAt fl 2, dlist := bitAt fl 3, sched := bitAt fl 4, ifmt := bits (leAt b 24 1) 0 4, ofmt := bits (leAt b 24 1) 4 4
    ndst := leAt b 25 1, elems := leAt b 26 2, seg := leAt b 28 4, sig := leAt b 32 8, rsig := leAt b 40 8 }

/-- Formats of contributions and results. -/
def redFmt (f : Nat) : Bool := f == 0 || f == 1 || f == 3 || f == 4 || isMx f

/-- Every field lies in its range, a destination list in the scratchpad, and the reserved bits are 0 (R321). -/
def redOk (b : List Byte) : Bool :=
  let d := redDesc b
  d.src < 2 ^ 54 && d.dst < 2 ^ 54 && bits d.src 52 2 != 3 && bits d.dst 52 2 != 3 && (!d.dlist || bits d.dst 52 2 == 2)
    && inRange d.members 1 1024 && d.rank < d.members && d.op != 3 && leAt b 22 2 < 32 && redFmt d.ifmt && redFmt d.ofmt
    && (if d.dlist then inRange d.ndst 1 64 else d.ndst == 0) && inRange d.elems 1 1024
    && (!(isMx d.ifmt || isMx d.ofmt) || d.elems == 512 || d.elems == 1024) && d.sig < 2 ^ 54 && d.rsig < 2 ^ 54
    && (!d.dlist || (d.rsig == 0 && bits d.dst 0 52 + 16 * d.ndst ≤ 0x30000)) && zeroAt b 48 16

/-- The fields that a segment's first contribution fixes (R322): OP to ELEMS but RANK, DST, RSIGADDR. -/
def RedDesc.fixed (d : RedDesc) : RedDesc := { d with src := 0, rank := 0, sig := 0 }

/-! A unit's segments -/

/-- RID and SEG name a segment within a partition and unit. -/
def RedSeg.names (x : RedSeg) (p : Nat) (d : RedDesc) : Bool :=
  x.part == p && (redDesc x.desc).rid == d.rid && (redDesc x.desc).seg == d.seg

/-- An open segment: not one that has failed. -/
def RedSeg.open_ (x : RedSeg) : Bool := x.failed.isNone

/-- All ranks are combined. -/
def RedSeg.complete (x : RedSeg) : Bool := (redDesc x.desc).members ≤ x.ranks.length

/-- CLUSTER_RED_STS and CLUSTER_RED_OPEN follow the unit. -/
def State.showRed (s : State) (k : Nat) : State :=
  let ss := (s.cluster k).segs.filter RedSeg.open_
  let sp := (ss.filter (·.spilled)).length
  ((s.put (Reg.CLUSTER_RED_STS.INUSE k) (ss.length - sp)).put (Reg.CLUSTER_RED_OPEN.SEGMENTS k) ss.length).put
    (Reg.CLUSTER_RED_OPEN.SPILLED k) sp

/-- Slots that an image reserves in a cluster (05 R127). -/
def Image.redSlots (i : Image) (k : Nat) : Nat := (i.res.filter (fun r => r.kind == 1 && r.cluster == k)).foldl (fun a r => a + r.count) 0

/-- Slots that active and pending images reserve in a cluster. -/
def State.redReserved (s : State) (k : Nat) : Nat := (s.sched.act ++ s.sched.pend).foldl (fun a e => a + e.2.redSlots k) 0

/-- Segments of every unit in the spill region, each 8 KiB (R327). -/
def State.spilledSegs (s : State) : Nat :=
  s.clusters.foldl (fun a e => a + (e.2.segs.filter (fun x => x.open_ && x.spilled)).length) 0

/-- The spill region has room for one more segment. -/
def State.spillRoom (s : State) : Bool := (s.spilledSegs + 1) * 8192 ≤ s.get Reg.MEM_RSPILL_SIZE.MIB * 2 ^ 20

/-- Where a new segment opens (R326, R327): in a slot, in the spill region, nowhere yet, or refused. -/
inductive RedPlace where
  | slot | spill | wait | waitSpill | refuse
  deriving DecidableEq, Repr

/-- The place of a new segment. -/
def State.redPlace (s : State) (k p : Nat) (sched : Bool) : RedPlace :=
  let ss := (s.cluster k).segs.filter RedSeg.open_
  if 1024 ≤ ss.length then .wait
  else if sched then
    match s.sched.act.at? p with
    | none => .refuse
    | some i =>
      if i.redSlots k = 0 then .refuse
      else if (ss.filter (fun x => x.part == p && (redDesc x.desc).sched)).length < i.redSlots k then .slot else .wait
  else if (ss.filter (fun x => !x.spilled && !(redDesc x.desc).sched)).length + s.redReserved k < 256 then .slot
  else if s.spillRoom then .spill
  else .waitSpill

/-- A posted descriptor is ready (R320): its segment has a slot or can get one, and in exact mode its rank is the next. A refused one is
ready at once. -/
def State.redReady (s : State) (k : Nat) (x : RedPost) : Bool :=
  let p := cidPart x.cid
  let d := redDesc x.desc
  if !redOk x.desc then true
  else match (s.cluster k).segs.find? (fun g => g.names p d) with
    | some g => g.failed.isSome || g.ranks.contains d.rank || (redDesc g.desc).fixed != d.fixed
        || (!g.complete && (!g.exact || d.rank == g.ranks.length))
    | none =>
      match s.redPlace k p d.sched with
      | .wait | .waitSpill => false
      | .refuse => true
      | _ => !s.flag Reg.GLB_CTL.EXACT || d.rank == 0

/-- A unit turns a post of a core away: the core already has 32 queued (R320), or the unit is fenced and accepts none (02 R41; DESIGN CHOICE,
log 155). -/
def State.redFull (s : State) (c : Nat) : Bool :=
  s.disabled ⟨.reduce, c / 64, 0⟩ || 32 ≤ ((s.cluster (c / 64)).redq.filter (fun q => q.core == c)).length

/-- The contributions queued at a unit that now wait for spill room are counted, once each (R328). -/
def State.countSpillWaits (s : State) (k : Nat) : State :=
  let x := s.cluster k
  let waits (q : RedPost) : Bool := !q.waited && redOk q.desc
    && !x.segs.any (fun g => g.names (cidPart q.cid) (redDesc q.desc))
    && s.redPlace k (cidPart q.cid) (redDesc q.desc).sched == .waitSpill
  let n := (x.redq.filter waits).length
  (s.setCluster k { x with redq := x.redq.map (fun q => if waits q then { q with waited := true } else q) }).count
    (Reg.CLUSTER_RED_SPILL_WAIT.COUNT k) n

/-- A descriptor joins the queue of its core's unit (R320). -/
def State.redPost (s : State) (x : RedPost) : State :=
  let k := x.core / 64
  (s.setCluster k { s.cluster k with redq := (s.cluster k).redq ++ [x] }).countSpillWaits k

/-- REDP (R320): the descriptor at ga is posted and gd takes 0; where the unit turns it away gd takes 1. -/
def redpEff (c w : Nat) (s : State) : State :=
  let k := s.core c
  let a := (k.gr (fRa w)).toNat
  if s.spadOut c a 64 then s.raise c 3 a
  else if a % 32 ≠ 0 then s.raise c 4 a
  else if s.redFull c then s.exec1 c (fun k => k.setG (fRd w) 1)
  else (s.redPost { core := c, cid := k.cid, desc := memRead k.spad a 64 }).exec1 c (fun k => k.setG (fRd w) 0)

/-! Combining -/

/-- Max and min of FP32 patterns in the reduction unit (R323): exact, +0 above −0, a NaN gives the canonical NaN. -/
def redMaxMin (mx : Bool) (a b : Nat) : Nat :=
  let x := fp32.value a
  let y := fp32.value b
  if x.isNan || y.isNan then fp32.nanCode
  else if x.isZero && y.isZero then (if mx then (if x.sign then b else a) else (if x.sign then a else b))
  else if mx then (if x.lt y then b else a)
  else (if y.lt x then b else a)

/-- Combine one contribution into the accumulators (R323). -/
def redCombine (op : Nat) (acc new : List Nat) : List Nat :=
  if acc.isEmpty then new
  else List.zipWith (fun a b => match op with
    | 0 => (add32 a b).1
    | 1 => redMaxMin true a b
    | _ => redMaxMin false a b) acc new

/-- The inputs of a contribution, each rounded once to FP32. -/
def redInputs (d : RedDesc) (bs : List Byte) : List Nat := ((decodeStream d.ifmt bs).take d.elems).map (fun x => (convert 0 x).1)

/-- Change a segment. -/
def State.modSeg (s : State) (k p : Nat) (d : RedDesc) (f : RedSeg → RedSeg) : State :=
  let x := s.cluster k
  (s.setCluster k { x with segs := x.segs.map (fun g => if g.names p d then f g else g) }).showRed k

/-- Drop a segment. -/
def State.dropSeg (s : State) (k p : Nat) (d : RedDesc) : State :=
  let x := s.cluster k
  (s.setCluster k { x with segs := x.segs.filter (fun g => !g.names p d) }).showRed k

/-- CLUSTER_RED_ERR takes a status and a core. -/
def State.redErr (s : State) (k st c : Nat) : State :=
  (s.put (Reg.CLUSTER_RED_ERR.STATUS k) st).put (Reg.CLUSTER_RED_ERR.CORE k) c

/-- The collective library learns of a segment (12 R348, R356). -/
def State.tellLib (s : State) (p : Nat) (d : RedDesc) (st : Nat) : State :=
  { s with redEnds := s.redEnds ++ [{ part := p, rid := d.rid, seg := d.seg, rank := d.rank, status := st }] }

/-- A refused contribution is the library's own, or one that meets a segment of it (12 R339). -/
def State.libMeets (s : State) (k : Nat) (x : RedPost) : Bool :=
  x.lib || (redOk x.desc && (s.cluster k).segs.any (fun g => g.lib && g.names (cidPart x.cid) (redDesc x.desc)))

/-- A contribution is refused (R322). -/
def State.redRefuse (s : State) (k : Nat) (x : RedPost) (st : Nat) : State :=
  let s := ((s.signal x.cid (redDesc x.desc).sig (2 ^ 32)).redErr k st x.core).count (Reg.CLUSTER_RED_REFUSED.COUNT k)
  if s.libMeets k x then s.tellLib (cidPart x.cid) (redDesc x.desc) st else s

/-- The destinations of a segment: address with space, and signal word. -/
def State.redDests (s : State) (g : RedSeg) : List (Nat × Nat) :=
  let d := redDesc g.desc
  if d.dlist then
    (List.range d.ndst).map (fun i =>
      let e := memRead (s.core g.core).spad (bits d.dst 0 52 + 16 * i) 16
      (leAt e 0 8, leAt e 8 8))
  else [(d.dst, d.rsig)]

/-- A segment fails (R330): its slot is free, every destination and the failing contribution are told. -/
def State.redFail (s : State) (k : Nat) (g : RedSeg) (x : RedPost) (st : Nat) : State :=
  let d := redDesc x.desc
  let s := (s.redDests g).foldl (fun s e => s.signal g.cid e.2 (2 ^ 32)) s
  let s := ((s.signal x.cid d.sig (2 ^ 32)).redErr k st x.core).count (Reg.CLUSTER_RED_FAILED.COUNT k)
  let s := if g.lib then s.tellLib g.part d st else s
  if d.members ≤ g.ranks.length + 1 then s.dropSeg k g.part d
  else s.modSeg k g.part d (fun g => { g with failed := some st, ranks := g.ranks ++ [d.rank], acc := [], spilled := false })

/-- A contribution whose segment has a place is read and combined (R323, R325, R330); a segment spilled to a region that cannot be reached
fails (14 R387). -/
def State.redRead (s : State) (k : Nat) (g : RedSeg) (x : RedPost) : State :=
  let d := redDesc x.desc
  let region := s.sysCheck (s.pair Reg.MEM_RSPILL_BASE_LO.ADDR_LO Reg.MEM_RSPILL_BASE_HI.ADDR_HI) (s.get Reg.MEM_RSPILL_SIZE.MIB * 2 ^ 20)
  match s.memReadC x.cid (bits d.src 52 2) (bits d.src 0 52) (streamBytes d.ifmt d.elems), (if g.spilled then region else .ok ()) with
  | (s, .error e), _ => s.redFail k g x (errStatus e)
  | (s, _), .error e => s.redFail k g x (errStatus e)
  | (s, .ok bs), _ =>
    (s.modSeg k g.part d (fun g => { g with ranks := g.ranks ++ [d.rank], acc := redCombine d.op g.acc (redInputs d bs) })).signal
      x.cid d.sig 1

/-- One ready descriptor is taken. -/
def State.redTake (s : State) (k : Nat) (x : RedPost) : State :=
  let p := cidPart x.cid
  let d := redDesc x.desc
  if !redOk x.desc then s.redRefuse k x 0x10
  else match (s.cluster k).segs.find? (fun g => g.names p d) with
    | some g =>
      match g.failed with
      | some st =>
        let s := s.redRefuse k x st
        if g.ranks.contains d.rank then s
        else if d.members ≤ g.ranks.length + 1 then s.dropSeg k p d
        else s.modSeg k p d (fun g => { g with ranks := g.ranks ++ [d.rank] })
      | none =>
        if g.ranks.contains d.rank || (redDesc g.desc).fixed != d.fixed then s.redRefuse k x 0x10 else s.redRead k g x
    | none =>
      match s.redPlace k p d.sched with
      | .slot | .spill =>
        let sp := s.redPlace k p d.sched == .spill
        let g : RedSeg := { part := p, desc := x.desc, core := x.core, cid := x.cid, exact := s.flag Reg.GLB_CTL.EXACT, spilled := sp, lib := x.lib }
        let c := s.cluster k
        let s := (s.setCluster k { c with segs := c.segs ++ [g] }).showRed k
        (if sp then s.count (Reg.CLUSTER_RED_SPILL.COUNT k) else s).redRead k g x
      | _ => s.redRefuse k x 0x10

/-- A read of a ready contribution would wait at its memory; device DDR holds back what belongs to no scheduled class (16 R435, R437; log 166). -/
def State.redWaits (s : State) (x : RedPost) : Bool :=
  let d := redDesc x.desc
  redOk x.desc && ((!d.sched && !s.ddrGrant (bits d.src 52 2) (bits d.src 0 52))
    || (s.memCheck x.cid (bits d.src 52 2) (bits d.src 0 52) (streamBytes d.ifmt d.elems) false matches .error .wait))

/-- REDUCTION_READ: the unit reads its first ready contribution in posting order. -/
def reductionReadEff (k : Nat) (seen : Seen) (s : State) : State :=
  let s := (s.see seen).countSpillWaits k
  let x := s.cluster k
  if s.disabled ⟨.reduce, k, 0⟩ || s.inP2 then s
  else match x.redq.findIdx? (fun q => s.redReady k q && !s.redWaits q) with
    | none => s
    | some i =>
      match x.redq[i]? with
      | none => s
      | some q => (s.setCluster k { x with redq := x.redq.eraseIdx i }).redTake k q

/-! Completion (R325) -/

/-- The bytes of a complete segment's result. -/
def RedSeg.result (g : RedSeg) : List Byte :=
  let d := redDesc g.desc
  encodeStream d.ofmt d.sel (g.acc.map fp32.value)

/-- The slot of a segment is free, and its result stands; the library is told of its own (12 R348). -/
def State.redDone (s : State) (k : Nat) (g : RedSeg) : State :=
  let s := s.dropSeg k g.part (redDesc g.desc)
  if g.lib then s.tellLib g.part (redDesc g.desc) 0 else s

/-- Write the result to the destinations left, in list order, each followed by its signal; a memory that must wait holds the rest. A
destination whose memory refuses the write gets no signal (log 62); of a collective's segment the library learns it (12 R356). -/
def State.redWrites (s : State) (k : Nat) (g : RedSeg) : List (Nat × Nat) → State
  | [] => s.redDone k g
  | (a, sig) :: ds =>
    match s.memWriteC g.cid (bits a 52 2) (bits a 0 52) g.result with
    | (s, .error .wait) => s
    | (s, .error e) =>
      let s := if g.lib then s.tellLib g.part (redDesc g.desc) (errStatus e) else s
      (s.modSeg k g.part (redDesc g.desc) (fun g => { g with written := g.written + 1 })).redWrites k g ds
    | (s, .ok _) =>
      ((s.modSeg k g.part (redDesc g.desc) (fun g => { g with written := g.written + 1 })).signal g.cid sig 1).redWrites k g ds

/-- SEGMENT_COMPLETE: the oldest complete segment of a unit writes its result. -/
def segmentCompleteEff (k : Nat) (s : State) : State :=
  match (s.cluster k).segs.find? (fun g => g.open_ && g.complete) with
  | none => s
  | some g => s.redWrites k g ((s.redDests g).drop g.written)

/-- A partition's descriptors and segments are discarded without signals, its profiles cleared (R331). -/
def State.dropReductions (s : State) (p : Nat) : State :=
  let s := s.clusters.foldl (fun s e =>
    (s.setCluster e.1 { e.2 with redq := e.2.redq.filter (fun q => cidPart q.cid != p), segs := e.2.segs.filter (fun g => g.part != p) }).showRed
      e.1) s
  (List.range 64).foldl (fun s k => (List.range 256).foldl (fun s e =>
    let o := Reg.CLUSTER_CONV_W0.off k e
    if s.regs.any (fun r => o ≤ r.1 && r.1 < o + 16) && (profileOf (s.profileWords k e)).part == p then
      ((s.resetReg o).resetReg (o + 4)).resetReg (o + 8) |>.resetReg (o + 12)
    else s) s) s

/-! The rows -/

def execRedp (core : CoreId) (s : State) : Answer := .next (s.issue core.val .redp (redpEff core.val))
def execReductionRead (cluster : ClusterId) (seen : Seen) (s : State) : Answer := .next (reductionReadEff cluster.val seen s)
def execSegmentComplete (cluster : ClusterId) (s : State) : Answer := .next (segmentCompleteEff cluster.val s)

end Sys2Proof.Machine
end

