-- ==== Sys2Proof/Machine/Stage.lean ====
section
/-! DEFINITION. Frames for stage cores and their verdicts (11_inflight_arithmetic_and_whippet_path.md R332 to R334). -/

namespace Sys2Proof.Machine

/-- Cells of a core's frame ring: 128, or 64 where SECURE is set. -/
def State.ringCells (s : State) (c : Nat) : Nat := if s.coreSecure c then 64 else 128

/-- The cells in use: those of the running and queued FRAME events. -/
def Core.cellsUsed (k : Core) : List (Nat × Nat) :=
  (k.cur.toList ++ k.events).filterMap (fun e => if e.kind = 1 then some (e.cell, e.cells) else none)

/-- Cells a frame of L bytes takes. -/
def frameCells (l : Nat) : Nat := ceilDiv (8 * ceilDiv l 8 + 8) 256

/-- The first cell of a run for a frame: behind the last one taken, at the ring's start where it would pass the end; none where too few are
free. -/
def State.cellFor (s : State) (c l : Nat) : Option Nat :=
  let k := s.core c
  let n := frameCells l
  let start := if s.ringCells c < k.ringNext + n then 0 else k.ringNext
  if n ≤ s.ringCells c && k.cellsUsed.all (fun u => !overlap start n u.1 u.2) then some start else none

/-- A port transmit of an event that has not begun ends cancelled. -/
def State.cancelTransmit (s : State) (f : Frame) : State :=
  let s := s.frameGone f
  match f.prog with
  | some (c, _, ch, id) => s.xferMoved c ch id 0x10
  | none => s

/-- A frame is a port transmit of an event of a core. -/
def Frame.ofEvent (f : Frame) (c ev : Nat) : Bool :=
  match f.prog with
  | some (c', e', _, _) => c' == c && e' == ev
  | none => false

/-- The verdict a frame's event meets with a bad check (R334): port transmits of the event that have not begun are cancelled, those that wait for
their flow's bucket, cross the mesh or stand in a transmit queue; one already leaving is ended with its check inverted. -/
def State.stageBad (s : State) (c ev : Nat) : State :=
  let s := s.count (Reg.CLUSTER_FRAME_BAD.COUNT (c / 64))
  let k := s.core c
  let s := s.setCore c { k with badEvs := (k.badEvs.filter (fun e => k.outstanding e || (k.cur.map (·.id)) == some e)) ++ [ev] }
  let paced := s.sched.paced.filter (fun e => e.2.ofEvent c ev)
  let s := { s with sched := { s.sched with paced := s.sched.paced.filter (fun e => !e.2.ofEvent c ev) } }
  let s := paced.foldl (fun s e => s.cancelTransmit e.2) s
  let onMesh := s.mesh.crossings.filter (fun x => x.frame.ofEvent c ev)
  let s := { s with mesh := { s.mesh with crossings := s.mesh.crossings.filter (fun x => !x.frame.ofEvent c ev) } }
  let s := onMesh.foldl (fun s x => (s.pinOff x.pin).cancelTransmit x.frame) s
  s.ports.foldl (fun s e =>
    let p := e.1
    let x := s.port p
    let leaving := (x.txing.filter (fun f => f.ofEvent c ev && !f.stomp)).length
    let s := s.setPort p { x with
      txq := x.txq.filter (fun f => !f.ofEvent c ev)
      txing := x.txing.map (fun f => if f.ofEvent c ev then { f with stomp := true } else f) }
    (x.txq.filter (fun f => f.ofEvent c ev)).foldl (fun s f => (s.flowDepth f.flow (-(Int.ofNat f.cells))).cancelTransmit f) (s.count (Reg.LINK_STOMPED.COUNT p) leaving)) s

/-- A frame with no room, or for a core that cannot take it; one for a fenced core counts here too (DESIGN CHOICE, log 151). -/
def State.stageDrop (s : State) (c : Nat) : State := s.count (Reg.CLUSTER_STAGE_DROP.COUNT (c / 64))

/-- STAGE_FRAME_DELIVERY: the oldest frame for a core is placed in its ring, its FRAME event queued; one whose path ends at an internal unit waits for
that unit's gate (05 R123). `known`: the verdict was known when its last byte was placed. -/
def stageDeliveryEff (c : Nat) (known : Bool) (s : State) : State :=
  match s.stageIn.findIdx? (fun f => f.core == c) with
  | none => s
  | some i =>
    match s.stageIn[i]? with
    | none => s
    | some f =>
      if !s.stageOpen f then s else
      let s := ({ s with stageIn := s.stageIn.eraseIdx i }).frameGone f.frame
      let st := s.coreSt c
      if s.coreStopped c || !s.stageCore c || !s.spMode1 c || st = 0 || st = 3 || st = 5 || 16 ≤ (s.core c).events.length then s.stageDrop c
      else match s.cellFor c f.bytes.length with
        | none => s.stageDrop c
        | some cell =>
          let l := f.bytes.length
          let off := 0x28000 + 256 * cell
          let word := off + 8 * ceilDiv l 8
          let pending := f.cut && !known
          let s := (s.spadWrite c off f.bytes).spadWrite c word (leBytes 8 (if pending then 0 else if f.good then 1 else 2))
          let v31 := leBytes 4 off ++ leBytes 2 l ++ leBytes 1 f.port ++ leBytes 1 (f.sub + 4 * f.cls + 32 * b2n pending)
            ++ leBytes 3 f.flow ++ leBytes 5 0 ++ leBytes 8 f.arrived.toNat ++ List.replicate 40 0
          let id := (s.core c).evNext
          let s := s.pushEvent c { kind := 1, v31 := v31, cid := ((s.coreOwner? c).getD 0) * 1024 + 0x3FF, cell := cell, cells := frameCells l }
          let s := s.modCore c (fun k => { k with
            ringNext := cell + frameCells l
            verdicts := if pending then k.verdicts ++ [{ ev := id, off := word, good := f.good }] else k.verdicts })
          let s := if !pending && !f.good then s.stageBad c id else s
          s.flowDone f.flow f.arrived

/-- FRAME_VERDICT: the oldest verdict word of a core that is still to be written. -/
def frameVerdictEff (c : Nat) (s : State) : State :=
  let k := s.core c
  match k.verdicts with
  | [] => s
  | v :: vs =>
    let s := (s.setCore c { k with verdicts := vs }).spadWrite c v.off (leBytes 8 (if v.good then 1 else 2))
    if v.good then s else s.stageBad c v.ev

def execStageFrameDelivery (core : CoreId) (known : Bool) (s : State) : Answer := .next (stageDeliveryEff core.val known s)
def execFrameVerdict (core : CoreId) (s : State) : Answer := .next (frameVerdictEff core.val s)

end Sys2Proof.Machine
end

