-- ==== Sys2Proof/Machine/Cipher.lean ====
section
/-! DEFINITION. AES block units and key slots (10_cores_and_hyl_instruction_set.md R292; 15_security_and_cipher.md R420 to R424). -/

namespace Sys2Proof.Machine

/-- The key in a slot. -/
def State.key? (s : State) (n : Nat) : Option (List Byte) := s.sec.keys.at? n

/-- Give a slot a key, or empty it; SEC_KSLOT follows. -/
def State.setKey (s : State) (n : Nat) (key : Option (List Byte)) : State :=
  match key with
  | some k =>
    (({ s with sec := { s.sec with keys := s.sec.keys.set n k } }).put (Reg.SEC_KSLOT.VALID n) 1).put (Reg.SEC_KSLOT.LEN n)
      (b2n (k.length == 32))
  | none => { s with sec := { s.sec with keys := s.sec.keys.del n } }.resetReg (Reg.SEC_KSLOT.off n)

/-- A slot lies in a partition's PART_KEYS range. -/
def State.slotOf (s : State) (p n : Nat) : Bool := within n 1 (s.get (Reg.PART_KEYS.BASE p)) (s.get (Reg.PART_KEYS.NUM p))

/-- The keys of every slot that satisfies a test are erased. -/
def State.eraseKeys (s : State) (test : Nat → Bool) : State :=
  (s.sec.keys.filter (fun e => test e.1)).foldl (fun s e => s.setKey e.1 none) s

/-- Requests of a cluster's AES queue or units: four per instruction. -/
def State.aesRequests (s : State) (k : Nat) : Nat :=
  s.cores.foldl (fun a e => if e.1 / 64 = k then a + 4 * e.2.aes.length else a) 0

/-- A request naming a slot is queued or inside a unit. -/
def State.slotBusy (s : State) (n : Nat) : Bool := s.cores.any (fun e => e.2.aes.any (fun a => a.slot == n))

/-- All six AES units of a cluster are disabled. -/
def State.noAes (s : State) (k : Nat) : Bool := (List.range 6).all (fun u => s.disabled ⟨.aes, k, u⟩)

/-- AESE, AESD: four block requests; vd is written when they return. -/
def aesEff (c w : Nat) (s : State) : State :=
  let k := s.core c
  let n := bits (k.gr (fRb w)).toNat 0 12
  let p := (if serviceCore c then none else s.coreOwner? c).getD (cidPart k.cid)
  if !s.slotOf p n || (s.key? n).isNone || s.noAes (c / 64) then s.raise c 6
  else if 252 < s.aesRequests (c / 64) ∨ s.sec.keyCmds.any (fun x => x.slot == n) = true then s
  else
    let x := s.cluster (c / 64)
    (s.setCluster (c / 64) { x with aesNext := x.aesNext + 1 }).exec1 c (fun k =>
      { k with aes := k.aes ++ [{ vd := fRd w, dec := fFn w == 1, slot := n, part := p, data := k.vBytes (fRa w), seq := x.aesNext }] })

/-- A partition's active image opens a scheduled class on a cluster's AES queue in the current slot. -/
def State.aesOpen (s : State) (k p : Nat) : Bool :=
  s.sched.act.any (fun e => e.1 == p && (mergedAt (listsOn [e.2] (0x5000 + k)) s.slot).1 != 0)

/-- A request goes before another one at a cluster's units (15 R424): those of partitions whose class is open first, then the earlier to arrive. -/
def State.aesBefore (s : State) (k : Nat) (r q : AesReq) : Bool :=
  if s.aesOpen k r.part = s.aesOpen k q.part then r.seq ≤ q.seq else s.aesOpen k r.part

/-- The oldest request of a core is the next that the units of its cluster serve (DESIGN CHOICE, log 165: blocks return in the order in which the units accept
them). -/
def State.aesTurn (s : State) (c : Nat) (r : AesReq) : Bool :=
  s.cores.all (fun e => e.1 / 64 != c / 64 || (match e.2.aes with | [] => true | q :: _ => s.aesBefore (c / 64) r q))

/-- The four blocks of a request under a key. -/
def AesReq.result (r : AesReq) (key : List Byte) : List Byte :=
  (List.range 4).flatMap (fun i =>
    let b := slice r.data (16 * i) 16
    if r.dec then aesDec key b else aesEnc key b)

/-- The key command frame of a host completes. -/
def State.keyCmdEnd (s : State) (h : HostId) (r : Nat) : State :=
  ((s.put (Reg.SEC_KEY_STS.BUSY h) 0).put (Reg.SEC_KEY_STS.DONE h) 1).put (Reg.SEC_KEY_STS.RESULT h) r

/-- Key commands whose slot no request names any more take effect (R422). -/
def State.flushKeyCmds (s : State) : State :=
  let ready := s.sec.keyCmds.filter (fun x => !s.slotBusy x.slot)
  let s := { s with sec := { s.sec with keyCmds := s.sec.keyCmds.filter (fun x => s.slotBusy x.slot) } }
  ready.foldl (fun s x => (s.setKey x.slot x.key).keyCmdEnd x.host 0) s

/-- AES_BLOCKS_RETURN: the blocks of a core's oldest request return and vd is written. -/
def aesReturnEff (c : Nat) (s : State) : State :=
  let k := s.core c
  match k.aes with
  | [] => s
  | r :: rs =>
    if s.noAes (c / 64) || !s.aesTurn c r then s
    else match s.key? r.slot with
      | none => s.setCore c { k with aes := rs }
      | some key => (s.setCore c ({ k with aes := rs }.setVBytes r.vd (r.result key))).flushKeyCmds.tryHalt c

/-! The key frame (R421) -/

/-- A key record: none where a field is out of range or a reserved one is not 0. -/
def keyRecord (b : List Byte) : Option (List Byte) :=
  if 2 ≤ leAt b 0 1 ∨ zeroAt b 1 31 = false then none
  else if leAt b 0 1 = 1 then some (slice b 32 32)
  else if zeroAt b 48 16 then some (slice b 32 16) else none

/-- The partition that holds a slot and that a host may load keys for. -/
def State.keyPart? (s : State) (h : HostId) (n : Nat) : Option Nat :=
  (List.range 64).find? (fun p => s.slotOf p n && s.owns h p && (s.pstate p == 1 || s.pstate p == 2))

/-- A key command passes its checks: it takes effect once no request names the slot. -/
def State.keyTake (s : State) (h : HostId) (n : Nat) (key : Option (List Byte)) : State :=
  let c : KeyCmd := { host := h, slot := n, key := key }
  ({ s with sec := { s.sec with keyCmds := s.sec.keyCmds ++ [c] } }.put (Reg.SEC_KEY_STS.BUSY h) 1).flushKeyCmds

/-- A LOAD whose record's read waits at its memory stays in progress. -/
def State.keyWait (s : State) (h : HostId) (n : Nat) : State :=
  { s with sec := { s.sec with keyLoads := s.sec.keyLoads ++ [(h, n)] } }.put (Reg.SEC_KEY_STS.BUSY h) 1

/-- LOAD: RIGHTS 3, NO_IDE 8, BAD_FIELD 2. A record that its memory finds uncorrectable ends with an open result (log 63). -/
def State.keyLoad (s : State) (h : HostId) (n : Nat) : State :=
  match s.keyPart? h n with
  | none => s.keyCmdEnd h 3
  | some p =>
    let space := s.get (Reg.SEC_KEY_ADDR_HI.SPACE h)
    let a := s.pair (Reg.SEC_KEY_ADDR_LO.ADDR_LO h) (Reg.SEC_KEY_ADDR_HI.ADDR_HI h)
    let ok := if space = 0 then s.inAperture p a 64 else s.inRegion p a 64
    if !ok then s.keyCmdEnd h 3
    else if space = 0 && s.flag (Reg.SEC_HOSTSEC.KEY_IDE h) && s.get (Reg.SEC_HOSTSEC.SECURE h) == 0 then s.keyCmdEnd h 8
    else match s.memReadC (p * 1024 + 0x3FF) space a 64 with
      | (s, .error .cid) => s.keyCmdEnd h 3
      | (s, .error .ue) => s.fresh.keyCmdEnd h ((Config.freeByte s.freeCtr 0).toNat % 16)
      | (_, .error .wait) => s.keyWait h n
      | (s, .ok b) =>
        match keyRecord b with
        | none => s.keyCmdEnd h 2
        | some k => s.keyTake h n (some k)

/-- The LOAD commands that wait for their records are tried again. -/
def State.keyRetry (s : State) : State :=
  s.sec.keyLoads.foldl (fun s (x : HostId × Nat) => s.keyLoad x.1 x.2) { s with sec := { s.sec with keyLoads := [] } }

/-- A write of SEC_KEY_CMD with GO: OP 1 LOAD, 2 ERASE, others BAD_FIELD. -/
def keyCmdEff (h : HostId) (v : Word) (seen : Seen) (s : State) : State :=
  let busy := s.flag (Reg.SEC_KEY_STS.BUSY h)
  let s := (s.put (Reg.SEC_KEY_CMD.SLOT h) (wordField v 0 12)).put (Reg.SEC_KEY_CMD.OP h) (wordField v 12 2)
  if wordField v 31 1 = 0 ∨ busy = true then s
  else
    let n := wordField v 0 12
    match wordField v 12 2 with
    | 1 => (s.see seen).keyLoad h n
    | 2 => if (s.keyPart? h n).isSome then s.keyTake h n none else s.keyCmdEnd h 3
    | _ => s.keyCmdEnd h 2

/-- A SEC_KEY_CMD word with GO. -/
def keyWord (op : Nat) (slot : BitVec 12) : Word := BitVec.ofNat 32 (2 ^ 31 + op * 2 ^ 12 + slot.toNat)

/-! The rows -/

def execAeseAesd (core : CoreId) (s : State) : Answer := .next (s.issue core.val .aes (aesEff core.val))
def execAesBlocksReturn (core : CoreId) (s : State) : Answer := .next (aesReturnEff core.val s)
def execKeyLoad (host : HostId) (slot : BitVec 12) (seen : Seen) (s : State) : Answer :=
  .next (s.hostWrite host (Reg.SEC_KEY_CMD.off host) (keyCmdEff host (keyWord 1 slot) seen))
def execKeyErase (host : HostId) (slot : BitVec 12) (s : State) : Answer :=
  .next (s.hostWrite host (Reg.SEC_KEY_CMD.off host) (keyCmdEff host (keyWord 2 slot) []))

end Sys2Proof.Machine
end

