-- ==== Sys2Proof/Machine/Programs.lean ====
section
/-! DEFINITION. Program images, loads, spare preloads; the resident-only instructions (10_cores_and_hyl_instruction_set.md R295, R303 to
R306; 15 R401, R403). -/

namespace Sys2Proof.Machine

/-! Image headers (Table 10.11) -/

/-- Bytes of the trailer: public key and signature. -/
def trailerBytes : Nat := 3732

/-- CODE_OFF, CODE_LEN, CODE_LOAD of an image. -/
def imgCode (b : List Byte) : Nat × Nat × Nat := (leAt b 8 4, leAt b 12 4, leAt b 16 4)
/-- DATA_OFF, DATA_LEN, DATA_LOAD. -/
def imgData (b : List Byte) : Nat × Nat × Nat := (leAt b 20 4, leAt b 24 4, leAt b 28 4)
/-- ENTRY(e). -/
def imgEntry (b : List Byte) (e : Nat) : Nat := leAt b (32 + 4 * e) 4
/-- LENGTH. -/
def imgLength (b : List Byte) : Nat := leAt b 48 4
/-- SPMODE. -/
def imgMode1 (b : List Byte) : Bool := bitAt (leAt b 6 1) 1
/-- SECURE. -/
def imgSecure (b : List Byte) : Bool := bitAt (leAt b 6 1) 2

/-- Check 4: the header, of a partition image or (`part` false) of a resident one. -/
def imgHeaderOk (b : List Byte) (pages : Nat) (part : Bool := true) : Bool :=
  let (co, cl, ca) := imgCode b
  let (dO, dl, da) := imgData b
  let len := imgLength b
  let inBody (o n : Nat) : Bool := n == 0 || within o n 256 (len - trailerBytes - 256)
  leAt b 0 4 == 0x48594C31 && leAt b 4 2 == 1 && leAt b 6 1 < 8 && bitAt (leAt b 6 1) 0 == part && leAt b 7 1 == 1
    && cl % 4 == 0 && ca % 64 == 0 && dl % 4 == 0 && da % 64 == 0
    && 256 + trailerBytes ≤ len && len ≤ 4096 * pages && inBody co cl && inBody dO dl
    && (List.range 4).all (fun e => bits (imgEntry b e) 18 12 == 0) && (List.range 4).any (fun e => bitAt (imgEntry b e) 31)
    && zeroAt b 96 160

/-- Check 5: the placement of code and data (Table 10.3, R275, R276). -/
def imgSpaceOk (b : List Byte) : Bool :=
  let (_, cl, ca) := imgCode b
  let (_, dl, da) := imgData b
  ca + cl ≤ (if imgMode1 b then 0x28000 else 0x30000) && da + dl ≤ 0x30000 && !overlap ca cl da dl
    && !(imgSecure b && (overlap ca cl 0x2C000 0x4000 || overlap da dl 0x2C000 0x4000))

/-- 64 KiB units of the image store that the code and data sections of an image take (14 R394). -/
def imgUnits (b : List Byte) : Nat := ceilDiv ((imgCode b).2.1 + (imgData b).2.1) 65536

/-- Check 5: the image store has room for an image whose handle does not exist yet (14 R394). Resident images count with their whole LENGTH
(DEDUCED, log 89). -/
def State.imgRoom (s : State) (h : Nat) (b : List Byte) : Bool :=
  (s.handles.at? h).isSome
    || (s.handles.foldl (fun a e => a + imgUnits e.2.image) 0) + (s.boot.images.foldl (fun a i => a + ceilDiv i.length 65536) 0) + imgUnits b
        ≤ 16 * s.get Reg.MEM_IMG_SIZE.MIB

/-- The digest of an image: bytes 0 to LENGTH − 3,733 with the DIGEST field 0. -/
def imgDigest (b : List Byte) : List Byte :=
  sha3 ((b.take 64 ++ List.replicate 32 0 ++ b.drop 96).take (imgLength b - trailerBytes))

/-- The worst column of Table 10.6; none for "—". -/
def worstCost (w : Nat) : Option Nat :=
  match hylRow w with
  | none => none
  | some r =>
    match r with
    | .arith | .shift | .slt | .minMax | .count | .immArith | .shi | .slti | .lui | .luih | .loopi | .csrr | .csrw => some 1
    | .end_ | .vext | .vins | .vbcast => some 2
    | .mul | .clmul | .store | .branch | .jal | .vst | .vabsNeg | .vlogic | .vperm => some 3
    | .msg | .vcvt | .dmov | .redp => some 4
    | .load | .vldr => some 5
    | .vld | .vfma | .vdqmx => some 6
    | .varith => some (if fFmt w ≤ 2 then 6 else 3)
    | .fence | .vqmx => some 8
    | .vhred => some 10
    | .tzero => some 16
    | .tld | .tst | .tstream => some 20
    | .tmma => some (if fFmt w = 9 then 80 else if fFmt w = 1 ∨ fFmt w = 2 then 272 else 144)
    | .jalr | .loopr | .cmpl | .brk | .slotw | .bar | .siga | .swait | .dwait | .aes | .wchk | .kldKst => none

/-- The worst-case count of entry e of an image (R305); none where it fails. -/
def imgCount (b : List Byte) (e : Nat) : Option Nat :=
  let (co, cl, ca) := imgCode b
  let pc := bits (imgEntry b e) 0 18
  if pc < ca then none
  else
    match pathCost (fun o => leAt b (co + o) 4) cl worstCost (cl / 4 + 1) (pc - ca) none with
    | some n => if n + 8 ≤ 2 ^ 24 then some (n + 8) else none
    | none => none

/-- Entry e is valid and BOUNDED. -/
def imgBounded (b : List Byte) (e : Nat) : Bool := 3 ≤ imgEntry b e / 2 ^ 30

/-! Placing an image -/

/-- A channel whose status register reads 0 again; its queue and its buffered tiles stay. -/
def Chan.zeroed (y : Chan) : Chan := { y with status := 0, err := false }

/-- A logical core takes an image: scratchpad wiped and written, every register 0 (the status of its channels among them, R304), its mode, its entries.
Queued events and the descriptors of the channels stay. -/
def Core.placed (k : Core) (b : List Byte) : Core :=
  let (co, cl, ca) := imgCode b
  let (dO, dl, da) := imgData b
  { spad := memWrite (memWrite [] ca (slice b co cl)) da (slice b dO dl), codeAt := ca, codeLen := cl
    events := k.events, evNext := k.evNext, xferNext := k.xferNext, chans := k.chans.foldl (fun m e => m.putD e.1 e.2.zeroed {}) [], cmpls := k.cmpls
    entries := (List.range 4).map (imgEntry b), limit := leAt b 52 4 }

/-- Bind an image to a core and make it READY. -/
def State.placeImage (s : State) (c h : Nat) (b : List Byte) : State :=
  let s := s.setCore c ((s.core c).placed b)
  let k := c / 64
  let n := c % 64
  let s := (s.put (Reg.CLUSTER_CORE_STS.SPMODE k n) (b2n (imgMode1 b))).put (Reg.CLUSTER_CORE_STS.SECURE k n) (b2n (imgSecure b))
  let s := (s.put (Reg.CLUSTER_CORE_STS.CAUSE k n) 0).put (Reg.CLUSTER_CORE_EPC.EPC k n) 0
  (s.put (Reg.CLUSTER_CORE_HANDLE.HANDLE k n) h).setCoreSt c 1

/-- Handles that active and pending images name. -/
def State.namedHandles (s : State) : List Nat :=
  (s.sched.act ++ s.sched.pend).flatMap (fun e => (e.2.paths.filter (·.stageValid)).map (·.program))

/-- A core holds a handle. -/
def State.coreHolds (s : State) (h : Nat) : Bool := s.cores.any (fun e => !serviceCore e.1 && s.get (Reg.CLUSTER_CORE_HANDLE.HANDLE (e.1 / 64) (e.1 % 64)) == h)

/-- Handles that nothing holds or names any more cease to exist (R306). -/
def State.purgeHandles (s : State) : State :=
  let named := s.namedHandles
  { s with handles := s.handles.filter (fun (e : Nat × Handle) => s.coreHolds e.1 || named.contains e.1) }

/-- A core lets go of its handle, and of its dispatch role. -/
def State.unbind (s : State) (c : Nat) : State :=
  let s := { s with handles := s.handles.map (fun (e : Nat × Handle) => if e.2.dispatch = some c then (e.1, { e.2 with dispatch := none }) else e) }
  s.put (Reg.CLUSTER_CORE_HANDLE.HANDLE (c / 64) (c % 64)) 0

/-- A core becomes EMPTY and is wiped: its events are dropped, its channels, requests and registers are gone. -/
def State.emptyCore (s : State) (c : Nat) : State :=
  let s := (s.dropEvents c).unbind c
  let s := s.setCore c { evNext := (s.core c).evNext, xferNext := (s.core c).xferNext }
  let s := (s.put (Reg.CLUSTER_CORE_STS.SPMODE (c / 64) (c % 64)) 0).put (Reg.CLUSTER_CORE_STS.SECURE (c / 64) (c % 64)) 0
  s.setCoreSt c (if s.flag (Reg.CLUSTER_LMAP.VACANT (c / 64) (c % 64)) then 5 else 0)

/-! Load commands (R304) -/

/-- The load frame completes. -/
def State.pldEnd (s : State) (k : Nat) (h : HostId) (r : Nat) : State :=
  ((s.put (Reg.CLUSTER_PLD_STS.BUSY k h) 0).put (Reg.CLUSTER_PLD_STS.DONE k h) 1).put (Reg.CLUSTER_PLD_STS.RESULT k h) r

/-- The logical cores a load frame masks. -/
def State.pldCores (s : State) (k : Nat) (h : HostId) : List Nat :=
  (setBitsOf (s.get (Reg.CLUSTER_PLD_MASK_LO.CORES_LO k h) + 2 ^ 32 * s.get (Reg.CLUSTER_PLD_MASK_HI.CORES_HI k h)) 64).map (64 * k + ·)

/-- Checks 1 to 3 of Table 10.12; a RESULT where one fails. An UNLOAD is not held to HANDLE and PAGES (DEDUCED, log 64). -/
def State.pldCheck (s : State) (k : Nat) (h : HostId) (p op : Nat) : Option Nat :=
  let cs := s.pldCores k h
  let hd := s.get (Reg.CLUSTER_PLD_HANDLE.HANDLE k h)
  if s.owns h p = false ∨ s.pstate p ≠ 2 ∨ s.flag (Reg.PART_ALLOC.PROG p) = false ∨ (op ≠ 2 ∧ hd / 2 ^ 26 ≠ p)
      ∨ cs.any (fun c => serviceCore c || s.coreOwner? c != some p) = true then some 3
  else if ¬ (op = 1 ∨ op = 2) ∨ cs.isEmpty = true
      ∨ (op = 1 ∧ (hd % 2 ^ 26 = 0 ∨ inRange (s.get (Reg.CLUSTER_PLD_LEN.PAGES k h)) 1 16384 = false)) then some 8
  else if cs.any (fun c => s.coreSt c == 2 || s.coreSt c == 4 || s.coreSt c == 5 || s.stageCore c) then some 1
  else none

/-- The public key in an image's trailer is enrolled for a partition (15 R401). -/
def State.enrolled (s : State) (p : Nat) (key : List Byte) : Bool :=
  let d := sha3 key
  (List.range 4).any (fun n => !zeroAt (s.digestAt (Reg.SEC_PKEY.off p n 0)) 0 32 && s.digestAt (Reg.SEC_PKEY.off p n 0) == d)

/-- Check 6 of Table 10.12, and the state with the digest among the verified ones. -/
def State.imgSigned (s : State) (p : Nat) (b : List Byte) : State × Bool :=
  let len := imgLength b
  let key := slice b (len - trailerBytes) 1312
  let sig := slice b (len - 2420) 2420
  let d := imgDigest b
  if slice b 64 32 ≠ d ∨ s.enrolled p key = false then (s, false)
  else if s.digests.contains d then (s, true)
  else if Config.mldsaVerify key d sig then ({ s with digests := (d :: s.digests).take 256 }, true)
  else (s, false)

/-- A load whose image passed checks 4 to 6. -/
def State.pldPlace (s : State) (k : Nat) (h : HostId) (p : Nat) (dispatch : Bool) (b : List Byte) : State :=
  let cs := s.pldCores k h
  let hd := s.get (Reg.CLUSTER_PLD_HANDLE.HANDLE k h)
  let d := slice b 64 32
  let lowest := cs.headD 0
  let old := s.handles.at? hd
  let conflict := isCollective hd || (match old with
    | some x => x.digest != d || (dispatch && (match x.dispatch with | some c => c != lowest | none => false))
    | none => false)
  if conflict then s.pldEnd k h 5
  else if (List.range 4).any (fun e => imgBounded b e && (imgCount b e).isNone) then s.pldEnd k h 6
  else
    let s := (s.ungate k).extendPmr p d
    let keep := (old.bind (·.dispatch))
    let s := cs.foldl (fun s c => (s.unbind c).placeImage c hd b) s
    let x : Handle := { part := p, digest := d, image := b, dispatch := if dispatch then some lowest else keep }
    let s := { s with handles := s.handles.set hd x }.purgeHandles
    let s := (List.range 4).foldl (fun s e =>
      s.put (Reg.CLUSTER_PLD_WCET.CYCLES k h e) (if imgBounded b e then (imgCount b e).getD 0xFFFFFFFF else 0xFFFFFFFF)) s
    s.pldEnd k h 0

/-- LOAD. A fetch that its memory turns away ends with an open failing RESULT (log 65). -/
def State.programLoad (s : State) (k : Nat) (h : HostId) (p : Nat) (dispatch : Bool) : State :=
  let space := s.get (Reg.CLUSTER_PLD_ADDR_HI.SPACE k h)
  let a := s.pair (Reg.CLUSTER_PLD_ADDR_LO.ADDR_LO k h) (Reg.CLUSTER_PLD_ADDR_HI.ADDR_HI k h)
  let pages := s.get (Reg.CLUSTER_PLD_LEN.PAGES k h)
  match s.memReadC (p * 1024 + 0x3FF) space a (4096 * pages) with
  | (_, .error .wait) => s
  | (s, .error _) => s.fresh.pldEnd k h (1 + (Config.freeByte s.freeCtr 0).toNat % 8)
  | (s, .ok b) =>
    if !imgHeaderOk b pages then s.pldEnd k h 2
    else if !(imgSpaceOk b && s.imgRoom (s.get (Reg.CLUSTER_PLD_HANDLE.HANDLE k h)) b) then s.pldEnd k h 7
    else
      let b := b.take (imgLength b)
      match s.imgSigned p b with
      | (s, true) => s.pldPlace k h p dispatch b
      | (s, false) => s.pldEnd k h 4

/-- The RESULT code of BAD_STATE on a load command (17 R462): Table 10.12 gives 1 to 8 to other results and none to it (log 82). -/
def State.pldBadState (s : State) : Nat := 9 + (Config.freeWord s.freeCtr).toNat % 7

/-- A write of CLUSTER_PLD_CMD with GO. -/
def pldCmdEff (k : Nat) (h : HostId) (v : Word) (seen : Seen) (s : State) : State :=
  let busy := s.flag (Reg.CLUSTER_PLD_STS.BUSY k h)
  let p := wordField v 0 6
  let op := wordField v 7 2
  let s := ((s.put (Reg.CLUSTER_PLD_CMD.PARTITION k h) p).put (Reg.CLUSTER_PLD_CMD.DISPATCH k h) (wordField v 6 1)).put
    (Reg.CLUSTER_PLD_CMD.OP k h) op
  if wordField v 31 1 = 0 ∨ busy = true then s
  else if s.inP2 then s.fresh.pldEnd k h s.pldBadState
  else match s.pldCheck k h p op with
    | some r => s.pldEnd k h r
    | none =>
      if op = 1 then (s.see seen).programLoad k h p (wordField v 6 1 == 1)
      else (((s.pldCores k h).foldl State.emptyCore s).flushKeyCmds.purgeHandles).pldEnd k h 0

/-- A CLUSTER_PLD_CMD word with GO. -/
def pldWord (op : Nat) (p : PartId) (dispatch : Bool) : Word := BitVec.ofNat 32 (2 ^ 31 + op * 2 ^ 7 + b2n dispatch * 2 ^ 6 + p.val)

/-! Spares (R306) -/

/-- SPARE_PRELOAD_DONE: the spare of a fenced core holds its image; where the map has been committed meanwhile the core is READY. -/
def spareDoneEff (c : Nat) (s : State) : State :=
  let h := s.get (Reg.CLUSTER_CORE_HANDLE.HANDLE (c / 64) (c % 64))
  match s.handles.at? h with
  | none => s
  | some x =>
    if (s.core c).preload then (s.modCore c (fun k => { k with preload := false })).placeImage c h x.image
    else if s.flag (Reg.CLUSTER_LMAP.FENCED (c / 64) (c % 64)) then { s with spares := addTo s.spares c }
    else s

/-- The bytes of a resident image, from the segments in the image store (17 R450). -/
def Boot.image (b : Boot) (i : ResImage) : List Byte := ((slice b.store i.first i.count).flatten).take i.length

/-- A service core becomes READY with the resident image of its number (17 R456). The spec gives no value of its HANDLE (log 2). -/
def State.placeResident (s : State) (c : Nat) : State :=
  match s.boot.images.find? (fun i => bitAt i.cores (c % 64)) with
  | some i => s.placeImage c (Config.residentHandle (c % 64)).toNat (s.boot.image i)
  | none => s

/-! Resident-only instructions -/

/-- A resident program is running: on a service core. -/
def State.resident (s : State) (c : Nat) (act : State → State) : State := if serviceCore c then act s else s.raise c 1

/-- WCHK (R295). -/
def wchkEff (c w : Nat) (s : State) : State :=
  s.resident c (fun s =>
    let k := s.core c
    let ga := (k.gr (fRa w)).toNat
    let gd := (k.gr (fRd w)).toNat
    let right : Option Right := match bits ga 32 3 with
      | 1 => some .read
      | 2 => some .write
      | 4 => some .atomic
      | _ => none
    match right with
    | none => s.exec1 c (fun k => k.setG (fRd w) 4)
    | some r =>
      match s.winCheck (bits gd 32 16) (bits ga 0 32) r (k.gr (fRb w)).toNat (bits gd 0 32) with
      | some code => s.exec1 c (fun k => k.setG (fRd w) (match code with | 2 => 1 | 4 => 2 | 3 => 3 | _ => 4))
      | none =>
        let i := bits ga 12 20
        (s.inflightUp i).exec1 c (fun k => k.setG (fRd w) (BitVec.ofNat 64 (i * 256))))

/-- KLD and KST of a quarter of a context. A context that is not resident is fetched first (06 R147); one that does not exist reads open
bytes and takes no store (log 66). The Kennel compares the request's partition with the context's (07 Table 7.4); a mismatch does nothing, is counted, and
raises RIGHT (DEDUCED, log 157). -/
def kldKstEff (c w : Nat) (s : State) : State :=
  s.resident c (fun s =>
    let k := s.core c
    let q := bits (k.gr (fRa w)).toNat 0 24
    let i := bits w 0 2
    match s.qp? q with
    | none => if fOp w = 0x61 then s.fresh.exec1 c (fun k => k.setVBytes (fRd w) (s.freeBytes 64)) else s.exec1 c id
    | some x =>
      if cidPart x.ctx.cid ≠ cidPart k.cid then (s.cidRefused k.cid .cid).raise c 2 (k.gr (fRa w)).toNat
      else if !x.resident then s.miss q
      else if fOp w = 0x61 then s.exec1 c (fun k => k.setVBytes (fRd w) (slice x.ctx.spilled (64 * i) 64))
      else
        let b := x.ctx.spilled
        let b := b.take (64 * i) ++ k.vBytes (fRd w) ++ b.drop (64 * i + 64)
        (s.modCtx q (fun _ => ctxOf b)).exec1 c id)

/-! The rows -/

def execWchk (core : CoreId) (s : State) : Answer := .next (s.issue core.val .wchk (wchkEff core.val))
def execKldKst (core : CoreId) (s : State) : Answer := .next (s.issue core.val .kldKst (kldKstEff core.val))
def execProgramLoad (host : HostId) (cluster : ClusterId) (part : PartId) (dispatch : Bool) (seen : Seen) (s : State) : Answer :=
  .next (s.hostWrite host (Reg.CLUSTER_PLD_CMD.off cluster host) (pldCmdEff cluster.val host (pldWord 1 part dispatch) seen))
def execProgramUnload (host : HostId) (cluster : ClusterId) (part : PartId) (s : State) : Answer :=
  .next (s.hostWrite host (Reg.CLUSTER_PLD_CMD.off cluster host) (pldCmdEff cluster.val host (pldWord 2 part false) []))
def execSparePreloadDone (core : CoreId) (s : State) : Answer := .next (spareDoneEff core.val s)

end Sys2Proof.Machine
end

