-- ==== Sys2Proof/Machine/Image.lean ====
section
/-! DEFINITION. The schedule image: its layout and the structure check (05_schedules_and_admission.md R119 to R121, R125 to R127, check 1
of Table 5.8). -/

namespace Sys2Proof.Machine

/-- A check that fails: the code, the KIND and INDEX of the failing record, the failing quantity (R133). -/
structure AdmFail where
  code : Nat
  kind : Nat := 0
  index : Nat := 0
  value : Nat := 0
  deriving DecidableEq, Repr

/-- ADM_FORMAT for a record. -/
def badFormat (kind index : Nat) : AdmFail := { code := 1, kind := kind, index := index }

/-- The first failure among some conditions. -/
def firstFail : List (Bool × AdmFail) → Option AdmFail
  | [] => none
  | (ok, f) :: l => if ok then firstFail l else some f

/-- Table 5.2 without the arrays: MAGIC to CRC; `room` is the length the register frame gives, in bytes. -/
def imageHeaderOk (b : List Byte) (room : Nat) : Bool :=
  let len := leAt b 60 4
  128 ≤ b.length && leAt b 0 4 == 0x44484353 && leAt b 4 2 == 1 && leAt b 6 1 < 64 && leAt b 7 1 < 2 && zeroAt b 18 2
    && 1 ≤ leAt b 20 4 && leAt b 20 4 ≤ 2 ^ 20 && leAt b 28 4 ≤ 65536 && leAt b 32 4 ≤ 65535
    && 128 ≤ len && len ≤ 2 ^ 26 && len ≤ room && len ≤ b.length && zeroAt b 64 60
    && leAt b 124 4 == (crc32 ((b.take 124 ++ [0, 0, 0, 0] ++ b.drop 128).take len)).toNat

/-- A gate entry (Table 5.4); none where a reserved bit is set. -/
def gateEntry (w : Nat) : Option GateEntry :=
  if bits w 25 7 = 0 then some { dur := bits w 0 20 + 1, sched := bits w 20 4, unsched := bitAt w 24 } else none

/-- The gate list at an offset (R120, R121) and the offset behind it; none where a field is out of range. -/
def gateList (b : List Byte) (o : Nat) : Option (GateList × Nat) :=
  let n := leAt b (o + 2) 2
  let cyc := leAt b (o + 4) 4
  if resOk (leAt b o 2) = false ∨ n = 0 ∨ 4096 < n ∨ cyc = 0 ∨ 2 ^ 20 < cyc ∨ zeroAt b (o + 8) 8 = false ∨ leAt b 60 4 < o + 16 + 4 * n then none
  else match (List.range n).mapM (fun i => gateEntry (leAt b (o + 16 + 4 * i) 4)) with
    | none => none
    | some es =>
      if es.foldl (fun a e => a + e.dur) 0 = cyc then some ({ res := leAt b o 2, cycle := cyc, entries := es }, o + 16 + 4 * n) else none

/-- n gate lists from an offset, the first of them numbered i. -/
def gateLists (b : List Byte) : (n i o : Nat) → Except AdmFail (List GateList × Nat)
  | 0, _, o => .ok ([], o)
  | n + 1, i, o =>
    match gateList b o with
    | none => .error (badFormat 1 i)
    | some (l, o') =>
      match gateLists b n (i + 1) o' with
      | .ok (ls, e) => .ok (l :: ls, e)
      | .error f => .error f

/-- The flow record at an offset (Table 5.5) of an image with some paths; none where a field is out of range. -/
def flowRec (b : List Byte) (o paths : Nat) : Option FlowRec :=
  let w0 := leAt b o 4
  let w1 := leAt b (o + 4) 4
  let vid := leAt b (o + 54) 2
  let f : FlowRec := {
    flow := bits w0 0 24, cls := bits w0 24 2, packets := bitAt w0 26, pin := bitAt w0 27, matchEth := bitAt w0 28
    overhead := bits w1 0 8, qpn := bits w1 8 24, rate := leAt b (o + 8) 4, burst := leAt b (o + 12) 4, bound := leAt b (o + 16) 4
    maxFrame := leAt b (o + 20) 2, ingress := leAt b (o + 22) 2, primary := leAt b (o + 24) 2, backup := leAt b (o + 26) 2
    bufIn := leAt b (o + 28) 2, bufOut := leAt b (o + 30) 2, sample := leAt b (o + 32) 4
    mac := beNat (slice b (o + 48) 6), vid := bits vid 0 12, tagged := bitAt vid 12 }
  if f.flow = 0 ∨ bits w0 29 3 ≠ 0 ∨ f.bound = 0 ∨ 2 ^ 20 ≤ f.bound ∨ f.maxFrame < 20 ∨ 9216 < f.maxFrame
      ∨ f.burst < (if f.packets then 1 else f.maxFrame + f.overhead)
      ∨ resOk f.ingress = false ∨ ¬ (resKind f.ingress = 1 ∨ 3 ≤ resKind f.ingress)
      ∨ paths ≤ f.primary ∨ (f.backup ≠ 0xFFFF ∧ paths ≤ f.backup) ∨ 2 ^ 20 ≤ f.sample
      ∨ zeroAt b (o + 36) 12 = false ∨ bits vid 13 3 ≠ 0 ∨ zeroAt b (o + 56) 8 = false then none
  else some f

/-- The path record at an offset (Table 5.6, R126). -/
def pathRec (b : List Byte) (o : Nat) : Option PathRec :=
  let e := leAt b o 1
  let x := leAt b (o + 1) 1
  let st := leAt b (o + 6) 2
  let q : PathRec := {
    egress := bits e 0 6, subport := bits e 6 2, toPort := bitAt x 0, yx := bitAt x 1, cut := bitAt x 2, lanes := bits x 3 3
    entry := leAt b (o + 2) 1, exit := leAt b (o + 3) 1, endRes := leAt b (o + 4) 2, stage := bits st 0 12, stageValid := bitAt st 15
    program := leAt b (o + 8) 4 }
  let fits := if q.toPort then (q.lanes = 1 ∨ q.lanes = 2 ∨ q.lanes = 4) ∧ q.endRes = 0xFFFF
    else e = 0 ∧ q.lanes = 0 ∧ resOk q.endRes = true ∧ 3 ≤ resKind q.endRes
  if bits x 6 2 = 0 ∧ q.entry < 64 ∧ q.exit < 64 ∧ bits st 12 3 = 0 ∧ zeroAt b (o + 12) 4 = true ∧ fits then some q else none

/-- The reservation record at an offset (R127). -/
def resRec (b : List Byte) (o : Nat) : Option ResRec :=
  let r : ResRec := { kind := leAt b o 1, cluster := leAt b (o + 1) 1, count := leAt b (o + 2) 2 }
  if r.cluster < 64 ∧ zeroAt b (o + 4) 12 = true ∧ ((r.kind = 1 ∧ 1 ≤ r.count ∧ r.count ≤ 256) ∨ (r.kind = 2 ∧ r.count = 0)) then some r
  else none

/-- Read n records of a size from an offset. -/
def records {α : Type} (n o size kind : Nat) (read : Nat → Option α) : Except AdmFail (List α) :=
  (List.range n).mapM (fun i => match read (o + size * i) with
    | some x => .ok x
    | none => .error (badFormat kind i))

/-- The arrays begin at 16-byte-aligned offsets behind the header, lie wholly below LENGTH and share no byte (R119); an array
without records has no byte. Offset and length. -/
def arraysOk (len : Nat) : List (Nat × Nat) → Bool
  | [] => true
  | (o, n) :: l => o % 16 == 0 && (n == 0 || (128 ≤ o && o + n ≤ len)) && l.all (fun x => !overlap o n x.1 x.2) && arraysOk len l

/-- The units whose lists must open a flow's class on one of its paths: its ingress where it is an internal unit, and its egress. -/
def pathNeeds (f : FlowRec) (q : PathRec) : List Nat :=
  (if 3 ≤ resKind f.ingress then [f.ingress] else []) ++ [if q.toPort then resTx q.egress q.subport else q.endRes]

/-- The paths of a flow: primary, and backup where it has one. -/
def Image.flowPaths (i : Image) (f : FlowRec) : List PathRec :=
  (i.paths[f.primary]?).toList ++ (if f.backup = 0xFFFF then [] else (i.paths[f.backup]?).toList)

/-- A list of the image opens a class on a resource. -/
def Image.opens (i : Image) (res cls : Nat) : Bool :=
  i.lists.any (fun l => l.res == res && l.entries.any (fun e => bitAt e.sched cls))

/-- Check 1 of Table 5.8. -/
def parseImage (b : List Byte) (room : Nat) : Except AdmFail Image :=
  if !imageHeaderOk b room then .error (badFormat 0 0)
  else
    let nF := leAt b 28 4
    let nP := leAt b 32 4
    let nR := leAt b 36 4
    let len := leAt b 60 4
    if leAt b 40 4 % 16 ≠ 0 ∨ len < leAt b 44 4 + 64 * nF ∨ len < leAt b 48 4 + 16 * nP ∨ len < leAt b 52 4 + 16 * nR then
      .error (badFormat 0 0)
    else match gateLists b (leAt b 24 4) 0 (leAt b 40 4) with
    | .error f => .error f
    | .ok (lists, e) =>
      let arrays := [(leAt b 40 4, e - leAt b 40 4), (leAt b 44 4, 64 * nF), (leAt b 48 4, 16 * nP), (leAt b 52 4, 16 * nR)]
      let hyper := lists.foldl (fun a l => Nat.lcm a l.cycle) 1
      if arraysOk len arrays = false ∨ leAt b 20 4 ≠ hyper ∨ leAt b 8 8 % hyper ≠ 0 then .error (badFormat 0 0)
      else do
        let flows ← records nF (leAt b 44 4) 64 2 (fun o => flowRec b o nP)
        let paths ← records nP (leAt b 48 4) 16 3 (pathRec b)
        let res ← records nR (leAt b 52 4) 16 4 (resRec b)
        let i : Image := {
          partition := leAt b 6 1, tableSwitch := leAt b 7 1 == 1, takeover := leAt b 8 8, mapGen := leAt b 16 2, hyper := hyper
          energyMw := leAt b 56 4, lists := lists, flows := flows, paths := paths, res := res }
        let bad (k : Nat) : Bool := match flows[k]? with
          | some f => (flows.take k).any (fun g => g.flow == f.flow)
              || !(i.flowPaths f).all (fun q => (pathNeeds f q).all (fun r => i.opens r f.cls))
          | none => false
        match (List.range nF).find? bad with
        | some k => .error (badFormat 2 k)
        | none => .ok i

/-- An empty image: no lists and no flows. -/
def Image.empty (i : Image) : Bool := i.lists.isEmpty && i.flows.isEmpty

end Sys2Proof.Machine
end

