-- ==== Sys2Proof/Machine/Timing.lean ====
section
/-! DEFINITION. The checker's timing and energy model, exact in rational numbers of bytes, nanoseconds and mW
(05_schedules_and_admission.md R135 to R142, R493 to R495). -/

namespace Sys2Proof.Machine

/-! Merged lists as runs -/

/-- Group equal neighbours, with the lengths of the groups. -/
def groupRuns {α : Type} [DecidableEq α] : List α → List (α × Nat)
  | [] => []
  | x :: xs =>
    match groupRuns xs with
    | (y, n) :: r => if x = y then (y, n + 1) :: r else (x, 1) :: (y, n) :: r
    | [] => [(x, 1)]

/-- The merged cycle of some lists, as runs of unchanged gate state. -/
def gateRuns (ls : List GateList) : List ((Nat × Bool) × Nat) := groupRuns ((List.range (mergedCycle ls)).map (mergedAt ls))

/-- Add the lengths of neighbouring runs of one kind. -/
def joinRuns : List (Bool × Nat) → List (Bool × Nat)
  | [] => []
  | (b, n) :: l =>
    match joinRuns l with
    | (c, m) :: r => if b = c then (b, n + m) :: r else (b, n) :: (c, m) :: r
    | [] => [(b, n)]

/-- The runs of a cycle by whether they satisfy a test, counted cyclically: they begin with a run that does not, where there is one. -/
def cyclicRuns (runs : List ((Nat × Bool) × Nat)) (test : Nat × Bool → Bool) : List (Bool × Nat) :=
  let bs := runs.map (fun (r : (Nat × Bool) × Nat) => (test r.1, r.2))
  let i := (bs.findIdx? (fun b => !b.1)).getD 0
  -- a run that reaches the end of the cycle and goes on at its start is one run
  let j := joinRuns (bs.drop i ++ bs.take i)
  match j.getLast?, j with
  | some (false, n), (false, m) :: rest => if rest.isEmpty then j else (false, n + m) :: rest.dropLast
  | _, _ => j

/-- The lengths of the runs of one kind. -/
def runsOf (rs : List (Bool × Nat)) (open_ : Bool) : List Nat := (rs.filter (fun r => r.1 == open_)).map (·.2)

/-- R136: free slots times 64 reach the merged cycle. -/
def enoughFree (runs : List ((Nat × Bool) × Nat)) : Bool :=
  let total := runs.foldl (fun a r => a + r.2) 0
  let free := runs.foldl (fun a r => if r.1.1 = 0 then a + r.2 else a) 0
  total ≤ free * 64

/-- Free slots among n slots from slot i of some lists. -/
def freeFrom (ls : List GateList) (i n : Nat) : Nat := ((List.range n).filter (fun j => (mergedAt ls (i + j)).1 == 0)).length

/-- R392 of 14_memory_system.md: 13 free slots in any 780 consecutive slots. -/
def refreshOk (ls : List GateList) : Bool := (List.range (mergedCycle ls)).all (fun i => 13 ≤ freeFrom ls i 780)

/-- The shortest closed run before an open one: the guard band of a transmit list (R137); none where no class ever opens. -/
def guardFound (runs : List ((Nat × Bool) × Nat)) : Option Nat :=
  let rs := cyclicRuns runs (fun g => g.1 != 0)
  if runsOf rs true = [] then none
  else match runsOf rs false with
    | [] => some 0
    | n :: ns => some (ns.foldl min n)

/-- G of R137 for a holdover limit in ms. -/
def guardNeeded (limit : Nat) : Nat := ceilDiv limit 25

/-! Rates and latencies -/

/-- What the checker reads of the device (R138, R140, R141): a port's mode, BREAKOUT and active lanes, PREEMPT_EN at submission, addFragSize;
exact mode; the host-port latencies; MT/s of a DDR channel. -/
structure Plant where
  native : Nat → Bool
  breakout : Nat → Nat
  lanes : Nat → Nat
  preempt : Nat → Bool
  addFrag : Nat → Nat
  exact : Bool
  hostLat : Nat → Nat
  speed : Nat → Nat

/-- Bytes per ns of a port with some native lanes (Table 3.8). -/
def Plant.portRate (e : Plant) (p lanes : Nat) : Rat := if e.native p then 26 * lanes else mkRat 100 (2 ^ e.breakout p)

/-- B_X of a resource (R139); `lanes` are the LANES of a native egress. A native ingress with no active lane counts four (DEDUCED, log 70). -/
def Plant.rate (e : Plant) (res lanes : Nat) : Rat :=
  match resKind res with
  | 0 => e.portRate (res % 64) lanes
  | 1 => e.portRate (res % 64) (if e.lanes (res % 64) = 0 then 4 else e.lanes (res % 64))
  | 3 => mkRat 6144 10
  | 4 => if e.exact then 192 else mkRat 3072 10
  | 5 => mkRat 2304 10
  | 6 => mkRat 6 10
  | 7 => mkRat (8 * speedMts (e.speed (res % 16))) 1000
  | _ => 100

/-- The latency column of Table 5.10. -/
def Plant.unitLat (e : Plant) (res : Nat) : Rat :=
  match resKind res with
  | 3 => 10
  | 4 => if e.exact then 180 else 20
  | 5 => 5
  | 6 => 10
  | 7 => 60
  | _ => e.hostLat (res % 2)

/-- A unit of a cluster, whose mesh costs are those of the network interface (Table 4.4). -/
def clusterUnit (res : Nat) : Bool := 3 ≤ resKind res && resKind res ≤ 6

/-- Mesh entry or exit of a resource: 12 cycles of a tile, 4 of a cluster's network interface. -/
def meshEnd (res : Nat) : Rat := if clusterUnit res then mkRat 5 3 else 5

/-- Frames of a flow's ingress backlog (R139). -/
def FlowRec.ingressFrames (f : FlowRec) : Nat := if f.packets then f.burst else ceilDiv f.burst (f.maxFrame + f.overhead)

/-- Bytes of a token. -/
def FlowRec.tokenBytes (f : FlowRec) : Nat := if f.packets then f.maxFrame + f.overhead else 1

/-- Rate in tokens per ns. -/
def FlowRec.tokenRate (f : FlowRec) : Rat := mkRat f.rate 1280

/-- Rate in what a resource counts per ns: bytes, or accesses of a Kennel bank (R493). -/
def FlowRec.rateOn (f : FlowRec) (res : Nat) : Rat :=
  if resKind res = 6 then (if f.packets then f.tokenRate else f.tokenRate / (f.maxFrame + f.overhead : Nat))
  else f.tokenRate * f.tokenBytes

/-- Burst in what a resource counts. -/
def FlowRec.burstOn (f : FlowRec) (res : Nat) : Rat :=
  if resKind res = 6 then f.ingressFrames else (f.burst * f.tokenBytes : Nat)

/-- The rational number rounded up. -/
def ratCeil (q : Rat) : Nat := q.ceil.toNat

/-! The server model (R139) -/

/-- A class on a resource: service rate and latency, the flows on it. -/
structure Server where
  res : Nat
  cls : Nat
  rate : Rat
  lat : Rat
  flows : List FlowRec

/-- Gated resources of a path: ingress and egress, mesh links apart (R102, R140; DEDUCED, log 71). -/
def pathGated (f : FlowRec) (q : PathRec) : List Nat := [f.ingress, if q.toPort then resTx q.egress q.subport else q.endRes]

/-- The flows of a class on a resource, each once, with the lowest B_X that their paths give it (DEDUCED, log 70). -/
def Plant.flowsOn (e : Plant) (imgs : List Image) (res cls : Nat) : List (FlowRec × Rat) :=
  imgs.flatMap (fun i => i.flows.filterMap (fun f =>
    let on := (i.flowPaths f).filter (fun q => (pathGated f q).contains res)
    match on with
    | [] => none
    | q :: qs => if f.cls = cls then some (f, qs.foldl (fun b q => min b (e.rate res q.lanes)) (e.rate res q.lanes)) else none))

/-- R and T of a class on a resource that carries lists; none without flows or lists. -/
def Plant.server? (e : Plant) (imgs : List Image) (res cls : Nat) : Option Server :=
  let ls := listsOn imgs res
  match e.flowsOn imgs res cls with
  | [] => none
  | (f, b) :: fs =>
    if ls.isEmpty then none
    else
      let bx := fs.foldl (fun b x => min b x.2) b
      let m : Rat := if resKind res = 6 then 1 else (((f, b) :: fs).foldl (fun a x => max a (x.1.maxFrame + x.1.overhead)) 0 : Nat)
      let rs := cyclicRuns (gateRuns ls) (fun g => bitAt g.1 cls)
      let served := (runsOf rs true).foldl (fun a w => a + max 0 ((5 * w : Nat) * bx - m)) (0 : Rat)
      let closed := (runsOf rs false).foldl max 0
      some { res := res, cls := cls, rate := served / (5 * mergedCycle ls : Nat), lat := (5 * closed : Nat) + m / bx
             flows := ((f, b) :: fs).map (·.1) }

/-- Sum of the rates of the flows on a server. -/
def Server.load (x : Server) : Rat := x.flows.foldl (fun a f => a + f.rateOn x.res) 0

/-- D_X; none where the class is never served. -/
def Server.delay (x : Server) : Option Rat :=
  if x.rate = 0 then none else some (x.lat + x.flows.foldl (fun a f => a + f.burstOn x.res) 0 / x.rate)

/-- Cells of a flow's backlog at a server (R139). -/
def Server.cells (x : Server) (f : FlowRec) : Nat :=
  let frames := if resKind x.res = 6 then ratCeil (f.burstOn x.res + f.rateOn x.res * x.lat)
    else
      let tokens : Rat := (f.burst : Nat) + f.tokenRate * x.lat
      if f.packets then ratCeil tokens else ratCeil (tokens / (f.maxFrame + f.overhead : Nat))
  frames * ceilDiv f.maxFrame 256

/-! Table 5.9 -/

/-- Fixed costs of a flow along a path, in ns, without the program stage. -/
def Plant.fixed (e : Plant) (f : FlowRec) (q : PathRec) : Rat :=
  let p := f.ingress % 64
  let bin := e.rate f.ingress 0
  let kennelIn := resKind f.ingress = 6
  let arrive : Rat := if resKind f.ingress = 1 then (if e.native p then 50 else [60, 70, 90, 90].getD (e.breakout p) 90) else e.unitLat f.ingress
  let buffer : Rat := if kennelIn then 1 / bin else (min f.maxFrame 256 : Nat) / bin
  let store : Rat := if q.cut ∨ kennelIn then 0 else (f.maxFrame - 256 : Nat) / bin
  let hops : Rat := mkRat (5 * (pathLinks q.entry q.exit q.yx).length) 4
  let leave : Rat :=
    if q.toPort then
      let b := e.portRate q.egress q.lanes
      5 + (f.maxFrame : Nat) / b + (if e.native q.egress then 35 + mkRat 5 2
        else 40 + (if e.preempt q.egress then (64 * (1 + e.addFrag q.egress) + 87 : Nat) / b else 0))
    else meshEnd q.endRes + e.unitLat q.endRes + (if resKind q.endRes = 6 then 1 else (f.maxFrame : Rat)) / e.rate q.endRes 0
  arrive + buffer + store + meshEnd f.ingress + hops + leave

/-- Frames that meet at a stage core (11 R335): the ingress backlogs of every flow whose path names it. -/
def stageFrames (imgs : List Image) (core : Nat) : Nat :=
  imgs.foldl (fun a i => i.flows.foldl (fun a f =>
    if (i.flowPaths f).any (fun q => q.stageValid && q.stage == core) then a + f.ingressFrames else a) a) 0

/-- The computed bound of a flow on a path in slots (R140); none where a stage program has no count or a class is never served. -/
def Plant.bound (e : Plant) (imgs : List Image) (count : Nat → Option Nat) (f : FlowRec) (q : PathRec) : Option Nat :=
  let stage : Option Rat := if q.stageValid then (count q.program).map (fun c => mkRat (5 * c * stageFrames imgs q.stage) 12) else some 0
  let delays := (pathGated f q).foldl (fun a r => match a, e.server? imgs r f.cls with
    | some t, some x => (x.delay).map (t + ·)
    | a, none => a
    | none, _ => none) stage
  delays.map (fun d => ratCeil ((e.fixed f q + d) / 5))

/-! Mesh capacity (R135) and energy (R142) -/

/-- Peak injection of a flow in flits per slot. -/
def Plant.peak (e : Plant) (f : FlowRec) : Nat := ratCeil (e.rate f.ingress 0 * 5 / 256)

/-- VC0 flits per slot on a mesh link. -/
def Plant.linkLoad (e : Plant) (imgs : List Image) (l : Nat × Nat) : Nat :=
  imgs.foldl (fun a i => i.flows.foldl (fun a f =>
    if (i.flowPaths f).any (fun q => (pathLinks q.entry q.exit q.yx).contains l) then a + e.peak f else a) a) 0

/-- Port sub-ports that the flows of an image name as ingress or egress; sub-port 0 stands for a native port. -/
def Plant.namedPorts (e : Plant) (i : Image) : List (Nat × Nat) :=
  let of (p s : Nat) : Nat × Nat := (p, if e.native p then 0 else s)
  (i.flows.flatMap (fun f =>
    (if resKind f.ingress = 1 then [of (f.ingress % 64) (f.ingress / 64 % 4)] else [])
      ++ ((i.flowPaths f).filter (·.toPort)).map (fun q => of q.egress q.subport))).eraseDups

/-- Clusters named by a stage of a flow's path or by a unit list. -/
def Image.clusters (i : Image) : List Nat :=
  (i.flows.flatMap (fun (f : FlowRec) => ((i.flowPaths f).filter (fun (q : PathRec) => q.stageValid)).map (fun (q : PathRec) => q.stage / 64))
    ++ (i.lists.filter (fun (l : GateList) => clusterUnit l.res)).map (fun (l : GateList) => l.res % 64)).eraseDups

/-- The computed cost in mW, rounded up (DEDUCED, log 72). -/
def Plant.energy (e : Plant) (i : Image) : Nat :=
  let lanes := (e.namedPorts i).foldl (fun a x => a + (if e.native x.1 then 4 else 4 / 2 ^ e.breakout x.1)) 0
  let bytes : Rat := i.flows.foldl (fun a f =>
    match i.paths[f.primary]? with
    | none => a
    | some q =>
      let pj := (if resKind f.ingress = 1 then 20 else 0) + (if q.toPort then 20 else 0)
        + 4 * (pathLinks q.entry q.exit q.yx).length
        + (if resKind f.ingress = 7 then 60 else 0) + (if !q.toPort && resKind q.endRes == 7 then 60 else 0)
      a + f.tokenRate * (f.tokenBytes * pj : Nat)) 0
  ratCeil ((1200 * lanes + 2500 * i.clusters.length : Nat) + bytes)

/-- The cost by R142. -/
def Plant.cost (e : Plant) (i : Image) : Nat := max (e.energy i) i.energyMw

end Sys2Proof.Machine
end

