-- ==== Sys2Proof/Machine/Admission.lean ====
section
/-! DEFINITION. The admission checks 2 to 9 of Table 5.8 (05_schedules_and_admission.md R133 to R142, R26, R27, R47, R58, R109). -/

namespace Sys2Proof.Machine

/-! Holdings (09 R246, R248) -/

/-- Valid port shares of a partition. -/
def State.shares (s : State) (p : Nat) : List Nat := (List.range 16).filter (fun n => s.flag (Reg.PART_PSHARE.VALID p n))

/-- A partition holds a class of a port and sub-port. -/
def State.holdsClass (s : State) (p port sub cls : Nat) : Bool :=
  (s.shares p).any (fun n => s.get (Reg.PART_PSHARE.PORT p n) == port && (s.flag (Reg.PART_PSHARE.WHOLE p n)
    || (s.get (Reg.PART_PSHARE.SUBPORT p n) == sub && bitAt (s.get (Reg.PART_PSHARE.CLASSES p n)) cls)))

/-- Gate entries of a port that a partition holds (09 R248). -/
def State.gatesOf (s : State) (p port : Nat) : Nat :=
  (s.shares p).foldl (fun a n => if s.get (Reg.PART_PSHARE.PORT p n) = port then
    a + (if s.flag (Reg.PART_PSHARE.WHOLE p n) then 4096 else s.get (Reg.PART_PSHARE.GATES p n)) else a) 0

/-- A partition holds a logical core. -/
def State.holdsCore (s : State) (p c : Nat) : Bool :=
  if c % 64 < 32 then bitAt (s.get (Reg.PART_CORES_LO.CORES p (c / 64))) (c % 64)
  else bitAt (s.get (Reg.PART_CORES_HI.CORES p (c / 64))) (c % 64 - 32)

/-- A partition holds a logical core of a cluster. -/
def State.holdsCluster (s : State) (p k : Nat) : Bool := s.flag (Reg.PART_CORES_LO.CORES p k) || s.flag (Reg.PART_CORES_HI.CORES p k)

/-- A resource with some classes on it is the partition's, or shared with it: mesh links are nobody's; a Drover, reduction unit or AES
queue goes with a core of its cluster, a Kennel bank with a Kennel share, a DDR channel with a region in its set, a host port with its
owner (DEDUCED, log 74). -/
def State.holdsRes (s : State) (p res classes : Nat) : Bool :=
  match resKind res with
  | 0 | 1 => s.holdsPort p (res % 64) && (setBitsOf classes 4).all (fun c => s.holdsClass p (res % 64) (res / 64 % 4) c)
  | 2 => true
  | 6 => s.flag (Reg.KENNEL_SHARE.SHARE p)
  | 7 => s.regions.any (fun r => r.part == p && (match s.setAt r.base r.size with
      | some (i, _) => bitAt (s.ddrSet i).channels (res % 16)
      | none => false))
  | 8 => (s.owner p).val == res % 2
  | _ => s.holdsCluster p (res % 64)

/-- The classes a list opens. -/
def GateList.classes (l : GateList) : Nat := l.entries.foldl (fun m e => m ||| e.sched) 0

/-- The first member of a list that fails a test, by its index. -/
def firstBad {α : Type} (l : List α) (bad : α → Bool) : Option Nat := l.findIdx? bad

/-- The failure at the first bad member, if any. -/
def failAt {α : Type} (l : List α) (bad : α → Bool) (code kind : Nat) : Option AdmFail :=
  (firstBad l bad).map (fun i => { code := code, kind := kind, index := i })

/-- Check 2. -/
def State.admRights (s : State) (p : Nat) (i : Image) : Option AdmFail :=
  if i.partition ≠ p ∨ ¬ (s.pstate p = 2 ∨ s.pstate p = 3) then some { code := 2 }
  else
    (failAt i.lists (fun l => !s.holdsRes p l.res l.classes) 2 1)
    <|> (failAt i.flows (fun f => !s.holdsRes p f.ingress (2 ^ f.cls)
      || (i.flowPaths f).any (fun q => q.toPort && !s.holdsClass p q.egress q.subport f.cls)
      || (f.pin && !(match s.qp? f.qpn with | some x => cidPart x.ctx.cid == p | none => false))) 2 2)
    <|> (failAt i.paths (fun q => (!q.toPort && !s.holdsRes p q.endRes 0) || (q.toPort && !s.holdsPort p q.egress)
      || (q.stageValid && !(s.holdsCore p q.stage
        && (match s.handles.at? q.program with | some h => h.part == p | none => false)))) 2 3)
    <|> (failAt i.res (fun r => !s.holdsCluster p r.cluster || (r.kind == 2 && !s.flag (Reg.PART_ALLOC.STREAM p))) 2 4)
    <|> (if i.tableSwitch && s.owner p != s.bootHost then some { code := 2 } else none)

/-- The images that a check takes together (R133): the new one, then the active and pending ones of every other partition. -/
def State.admImages (s : State) (p : Nat) (i : Image) : List Image :=
  i :: ((s.sched.act ++ s.sched.pend).filter (fun (e : Nat × Image) => e.1 != p)).map (·.2)

/-- The images whose holdings count with the new one's: those of the other partitions and the partition's own active one. -/
def State.admHeld (s : State) (p : Nat) : List Image :=
  (s.sched.act ++ s.sched.pend.filter (fun (e : Nat × Image) => e.1 != p)).map (·.2)

/-- The device as the checker reads it. -/
def State.plant (s : State) (preempt : List Nat) : Plant :=
  { native := s.native, breakout := fun p => s.get (Reg.LINK_CFG.BREAKOUT p), lanes := fun p => laneCount (s.get (Reg.LINK_STS.ACTIVE p))
    preempt := preempt.contains, addFrag := fun p => s.get (Reg.LINK_CFG.ADD_FRAG p), exact := s.flag Reg.GLB_CTL.EXACT
    hostLat := fun h => s.get (Reg.SCHED_HOST_LAT.NS h), speed := fun c => s.get (Reg.MEM_CH_STS.SPEED c) }

/-- Check 3: the lead time, and the spacing of table switches (R109). -/
def State.admLead (s : State) (i : Image) : Option AdmFail :=
  let last := s.pair Reg.MESH_SWITCH_SLOT_LO.SLOT Reg.MESH_SWITCH_SLOT_HI.SLOT
  if i.takeover < s.slot + 2000
      ∨ (i.tableSwitch = true ∧ i.takeover < last + ceilDiv (1000 * s.get Reg.MESH_DRAIN_LIMIT.US) 5) then some { code := 3 }
  else none

/-- The pinned queue pairs of some images. -/
def pinsOf (imgs : List Image) : List Nat := (imgs.flatMap (fun i => (i.flows.filter (·.pin)).map (·.qpn))).eraseDups

/-- How many pins are too many (R134, 06 R149): beyond the partition's share, the device's 262,144, a bank's 4,096. -/
def State.pinExcess (s : State) (p : Nat) (i : Image) : Nat :=
  let all := pinsOf (i :: s.admHeld p)
  let mine := pinsOf (i :: (s.sched.act.at? p).toList)
  let banks := (List.range 64).map (fun k => (all.filter (fun q => homeBank q == k)).length - 4096)
  banks.foldl max (max (mine.length - s.get (Reg.KENNEL_SHARE.SHARE p)) (all.length - 262144))

/-- Free reduction slots of a cluster (11 R326): neither reserved nor held, and those of unscheduled segments the spill region has room
for. -/
def State.redFree (s : State) (k : Nat) : Nat :=
  let loose := ((s.cluster k).segs.filter (fun x => x.open_ && !x.spilled && !(redDesc x.desc).sched)).length
  let room := s.get Reg.MEM_RSPILL_SIZE.MIB * 2 ^ 20 / 8192 - s.spilledSegs
  256 - s.redReserved k - (loose - room)

/-- The channel of a resource belongs to a FAILED set (14 R387). -/
def State.failedChannel (s : State) (res : Nat) : Bool :=
  resKind res == 7 && [0, 1].any (fun i => (s.ddrSet i).state == 2 && bitAt (s.ddrSet i).channels (res % 16))

/-- Entries of the merged list of a port in a direction, summed over its sub-ports (R122). -/
def mergedEntries (imgs : List Image) (kind port : Nat) : Nat :=
  (List.range 4).foldl (fun a sub =>
    let ls := listsOn imgs (4096 * kind + port + 64 * sub)
    if ls.isEmpty then a else a + (gateRuns ls).length) 0

/-- Check 4. -/
def State.admResources (s : State) (p : Nat) (i : Image) (x : Submit) : Option AdmFail :=
  let imgs := s.admImages p i
  let isPort (l : GateList) : Bool := resKind l.res < 2
  let excess (l : GateList) : Nat :=
    (i.lists.filter (fun m => resKind m.res == resKind l.res && m.res % 64 == l.res % 64)).foldl (fun a m => a + m.entries.length) 0
      - s.gatesOf p (l.res % 64)
  let beyond (l : GateList) : Nat := mergedEntries imgs (resKind l.res) (l.res % 64) - 4096
  let short (q : PathRec) : Nat := if q.toPort && s.native q.egress then q.lanes - laneCount (s.get (Reg.LINK_STS.ACTIVE q.egress)) else 0
  let need (n : Nat) (k : Nat) : Nat := ((i.res.take (n + 1)).filter (fun r => r.kind == 1 && r.cluster == k)).foldl (fun a r => a + r.count) 0
  let lack (n : Nat) : Nat := match i.res[n]? with
    | some r => if r.kind = 1 then need n r.cluster - s.redFree r.cluster else 0
    | none => 0
  let counted (l : Option Nat) (kind : Nat) (v : Nat → Nat) : Option AdmFail :=
    l.map (fun n => { code := 4, kind := kind, index := n, value := v n })
  (if i.mapGen ≠ x.gen then some { code := 4 } else none)
  <|> (failAt i.paths (fun q => (q.stageValid && s.flag (Reg.CLUSTER_LMAP.NEXT_VACANT (q.stage / 64) (q.stage % 64)))
    || (!q.toPort && s.failedChannel q.endRes)) 4 3)
  <|> (if i.tableSwitch && (!x.armed || s.sched.pend.any (fun (e : Nat × Image) => e.2.tableSwitch)) then some { code := 4 } else none)
  <|> (failAt i.lists (fun l => s.failedChannel l.res
    || (isPort l && s.get (Reg.LINK_CFG.PAUSE_MODE (l.res % 64)) == 1 && l.classes != 0)) 4 1)
  <|> (failAt i.flows (fun f => s.failedChannel f.ingress) 4 2)
  <|> (counted (firstBad i.paths (fun q => short q != 0)) 3 (fun n => ((i.paths[n]?).map short).getD 0))
  <|> (counted (firstBad i.lists (fun l => isPort l && excess l != 0)) 1 (fun n => ((i.lists[n]?).map excess).getD 0))
  <|> (if 2 ^ 20 < (imgs.flatMap (·.lists)).foldl (fun a l => Nat.lcm a l.cycle) 1 then some { code := 4 } else none)
  <|> (counted (firstBad i.lists (fun l => isPort l && beyond l != 0)) 1 (fun n => ((i.lists[n]?).map beyond).getD 0))
  <|> (failAt i.flows (fun f => imgs.tail.any (fun j => j.flows.any (fun g => g.flow == f.flow))) 4 2)
  <|> (if s.pinExcess p i = 0 then none
    else some { code := 4, kind := 2, index := (firstBad i.flows (·.pin)).getD 0, value := s.pinExcess p i })
  <|> (counted ((List.range i.res.length).find? (fun n => lack n != 0)) 4 lack)

/-- Two partitions open one class in one slot of a resource (check 5). -/
def slotClash (mine others : List GateList) : Bool :=
  (List.range (mergedCycle (mine ++ others))).any (fun t =>
    (mergedAt mine t).1 &&& (others.foldl (fun m l => m ||| (l.at t).1) 0) != 0)

/-- The 256 mesh links. -/
def meshLinks : List (Nat × Nat) := (List.range 256).map (fun n => (n / 4, n % 4))

/-- A record of the n-th image of a check: the new image's own, or another partition's image by the partition's number (DEDUCED, log 75). -/
def admItem (code : Nat) (imgs : List Image) (n kind index value : Nat) : AdmFail :=
  if n = 0 then { code := code, kind := kind, index := index, value := value }
  else { code := code, kind := 5, index := ((imgs[n]?).map (·.partition)).getD 0, value := value }

/-- The first flow of some images that fails a test: image, flow index, failing quantity. -/
def firstFlow (imgs : List Image) (test : Image → FlowRec → Option Nat) : Option (Nat × Nat × Nat) :=
  (List.range imgs.length).findSome? (fun n =>
    match imgs[n]? with
    | none => none
    | some i => (List.range i.flows.length).findSome? (fun k => ((i.flows[k]?).bind (test i)).map (fun v => (n, k, v))))

/-- Check 5. -/
def admSlots (e : Plant) (imgs : List Image) (i : Image) : Option AdmFail :=
  (failAt i.lists (fun l => slotClash (listsOn [i] l.res) (listsOn imgs.tail l.res)) 5 1)
  <|> (match meshLinks.find? (fun l => 12 < e.linkLoad imgs l) with
    | none => none
    | some l => (firstFlow imgs (fun j f => if (j.flowPaths f).any (fun q => (pathLinks q.entry q.exit q.yx).contains l) then some 0 else none)).map
        (fun (n, k, _) => admItem 5 imgs n 2 k 0))

/-- Check 6. -/
def admBackground (imgs : List Image) (i : Image) : Option AdmFail :=
  failAt i.lists (fun l =>
    let ls := listsOn imgs l.res
    !enoughFree (gateRuns ls) || (resKind l.res == 7 && !refreshOk ls)) 6 1

/-- Cells that a flow needs at its ingress. -/
def FlowRec.cellsIn (f : FlowRec) : Nat := f.ingressFrames * ceilDiv f.maxFrame 256

/-- Cells that a flow needs behind its ingress: its largest backlog at a gated resource there (DEDUCED, log 71). -/
def Plant.cellsOut (e : Plant) (imgs : List Image) (i : Image) (f : FlowRec) : Nat :=
  (i.flowPaths f).foldl (fun a q => ((pathGated f q).filter (· != f.ingress)).foldl (fun a r =>
    match e.server? imgs r f.cls with
    | some x => max a (x.cells f)
    | none => a) a) 0

/-- Check 7. -/
def State.admBuffers (s : State) (e : Plant) (imgs : List Image) : Option AdmFail :=
  ((firstFlow imgs (fun i f =>
    if f.bufIn < f.cellsIn then some f.cellsIn
    else if f.bufOut < e.cellsOut imgs i f then some (e.cellsOut imgs i f) else none)).map
      (fun (n, k, v) => admItem 7 imgs n 2 k v))
  <|> ((List.range 4).findSome? (fun t =>
    let need := flowCells imgs t + s.minCells t (fun p c => s.get (Reg.LINK_BUF_CLASS.MIN p c))
    if s.poolCells t < need then some { code := 7, value := need } else none))

/-- The count of the FRAME entry of a handle's program (10 R305). -/
def State.stageCount (s : State) (h : Nat) : Option Nat :=
  match s.handles.at? h with
  | some x => if imgBounded x.image 1 then imgCount x.image 1 else none
  | none => none

/-- Check 8. -/
def State.admDeadlines (s : State) (e : Plant) (imgs : List Image) (i : Image) (x : Submit) : Option AdmFail :=
  let g := guardNeeded (s.get Reg.TIME_HOLD_LIMIT.LIMIT_MS)
  let guard (l : GateList) : Option Nat := if resKind l.res = 0 then guardFound (gateRuns (listsOn imgs l.res)) else none
  (if !x.locked || s.get Reg.TIME_STS.STATE != 2 then some { code := 8 } else none)
  <|> ((firstBad i.lists (fun l => match guard l with | some n => n < g | none => false)).map (fun n =>
    { code := 8, kind := 1, index := n, value := (((i.lists[n]?).bind guard).getD 0) }))
  <|> ((firstFlow imgs (fun j f =>
    if (j.flowPaths f).any (fun q => (pathGated f q).any (fun r => match e.server? imgs r f.cls with
      | some y => y.rate < y.load
      | none => false)) then some 0 else none)).map (fun (n, k, v) => admItem 8 imgs n 2 k v))
  <|> ((firstFlow imgs (fun j f => (j.flowPaths f).findSome? (fun q =>
    match e.bound imgs s.stageCount f q with
    | some b => if f.bound < b then some (min b 0xFFFFFFFF) else none
    | none => some 0xFFFFFFFF))).map (fun (n, k, v) => admItem 8 imgs n 2 k v))

/-- The largest cost of a partition's active and pending images. -/
def State.partCost (s : State) (p : Nat) : Nat :=
  max (((s.sched.act.at? p).map (·.cost)).getD 0) (((s.sched.pend.at? p).map (·.cost)).getD 0)

/-- Check 9; while CAP_SUSP is set every image is refused (16 R438). -/
def State.admEnergy (s : State) (p cost : Nat) : Option AdmFail :=
  let share := s.get (Reg.PART_ENERGY.MW p)
  let others := ((List.range 64).filter (· != p)).foldl (fun a q => a + s.partCost q) 0
  let total := s.get Reg.TALLY_FLOOR.MW + others + max (((s.sched.act.at? p).map (·.cost)).getD 0) cost
  if s.flag Reg.TALLY_STS.CAP_SUSP then some { code := 9 }
  else if share ≠ 0 ∧ share < cost then some { code := 9, value := ceilDiv cost 1000 }
  else if s.get Reg.TALLY_BUDGET.W * 1000 < total then some { code := 9, value := ceilDiv total 1000 }
  else none

/-- Checks 2 to 9 in their order (R133). -/
def State.admChecks (s : State) (x : Submit) (i : Image) (cost : Nat) : Option AdmFail :=
  let p := x.part
  let e := s.plant x.preempt
  let imgs := s.admImages p i
  s.admRights p i <|> s.admLead i <|> s.admResources p i x <|> admSlots e imgs i <|> admBackground imgs i <|> s.admBuffers e imgs
    <|> s.admDeadlines e imgs i x <|> s.admEnergy p cost

end Sys2Proof.Machine
end

