-- ==== Sys2Proof/Machine/Sheepdog.lean ====
section
/-! DEFINITION. The resolution of fragment faults (07_memory_windows.md R197 to R199). -/

namespace Sys2Proof.Machine

/-- Change a tile. -/
def State.modTile (s : State) (id : Nat) (f : Tile → Tile) : State :=
  { s with tiles := s.tiles.map (fun (t : Tile) => if t.id = id then f t else t) }

/-- Held tiles take the park units that have become free, in their order (R193). -/
def State.parkHeld (s : State) : State := s.tiles.foldl (fun s t => s.parkTile t) s

/-- A work entry fails though its data had gone to parked tiles: its end becomes the status, and its queue pair enters ERROR (Table 6.10). -/
def State.failParked (s : State) (n pos st : Nat) : State :=
  match (s.queue? n).bind (fun w => (w.live.find? (fun l => l.pos == pos)).map (fun l => (w, l))) with
  | none => s
  | some (w, l) =>
    let s := s.setQueue n { w with live := w.live.map (fun (m : Live) =>
      if m.pos = pos then { m with parked := 0, stopped := false, done := some (st, l.got, 0) } else m) }
    let s := match (if actsOnQp l.opcode then s.qpOfQueue? n else none) with
      | some x => s.qpError x.ctx.qpn st l.first
      | none => s
    match s.queue? n with
    | some w => s.flushQueue n w.live.length
    | none => s

/-- A closed batch that has lost all its records is no batch any more: the records that waited open the next one (R194). -/
def Sheep.tidy (x : Sheep) : Sheep :=
  if x.batch.isEmpty then
    let new := x.later.take 64
    { x with batch := new, closed := 64 ≤ new.length, later := x.later.drop 64 }
  else x

/-- Take some tiles out: they wait on no fault entry any more, and an entry with no waiter is freed. -/
def State.dropTiles (s : State) (test : Tile → Bool) : State :=
  let gone := (s.tiles.filter test).map (·.id)
  let keep (w : FaultWaiter) : Bool := match w with
    | .tile id => !gone.contains id
    | _ => true
  let clean (x : Sheep) : Sheep :=
    let es := (x.entries.map (fun (e : FaultEntry) => { e with waiters := e.waiters.filter keep })).filter (fun e => !e.waiters.isEmpty)
    let ids := es.map (·.id)
    ({ x with entries := es, batch := x.batch.filter ids.contains, later := x.later.filter ids.contains } : Sheep).tidy
  let s := { s with tiles := s.tiles.filter (fun t => !test t) }
  let s := s.setSheep 0 (clean s.sheep0)
  (s.setSheep 1 (clean s.sheep1)).parkHeld

/-- What stood behind a tile goes on: the completions of its work entry, or the end of its Drover transfer. -/
def State.tileGone (s : State) (t : Tile) : State :=
  match t.xfer with
  | some (c, ch, id) => s.xferSettle c ch id
  | none =>
    match s.queue? t.queue with
    | some w => s.flushQueue t.queue w.live.length
    | none => s

/-- What stood behind a tile fails. -/
def State.tileFailed (s : State) (t : Tile) (st : Nat) : State :=
  match t.xfer with
  | some (c, ch, id) => (s.modXfer c ch id (fun x => { x with parked := 0, moved := true, status := st })).xferSettle c ch id
  | none => s.failParked t.queue t.pos st

/-- Two tiles belong to one work entry or transfer. -/
def Tile.sameWork (t u : Tile) : Bool := t.xfer == u.xfer && t.queue == u.queue && t.pos == u.pos

/-- A tile waits for nothing any more. -/
def State.tileReady (s : State) (t : Tile) : Bool :=
  t.faults.isEmpty && !(t.after && (s.tiles.takeWhile (fun u => u.id != t.id)).any (fun u => u.stream == t.stream))

/-- A tile that waits for nothing any more is written (R197); its work entry or transfer may then complete. -/
def State.writeTile (s : State) (t : Tile) : State :=
  match s.bufWriteParts t.cid t.buf t.parts with
  | (s, .missing fs) =>
    let (s, ids) := s.tileFaults t.cid t.id { engine := t.unit.1, write := true, qpn := t.qpn, unit := t.unit.2 } fs
    s.modTile t.id (fun x => { x with faults := ids })
  | (s, .err .wait) => s
  | (s, .err e) => (s.dropTiles (·.sameWork t)).tileFailed t (if e = .ue then 0x40 else 0x22)
  | (s, _) => (({ s with tiles := s.tiles.filter (fun x => x.id != t.id) }.tileCount t (· - 1)).tileGone t).parkHeld

/-- Write every tile that waits for nothing any more, in issue order (R197, 13 R365). -/
def State.writeReady (s : State) : State :=
  s.tiles.foldl (fun s t => match s.tiles.find? (fun x => x.id == t.id) with
    | some x => if s.tileReady x then s.writeTile x else s
    | none => s) s

/-- Tiles parked in an interleave set that has failed fail with their work (14 R387). -/
def State.failParkedTiles (s : State) : State :=
  s.tiles.foldl (fun s t =>
    let lost := match t.park with
      | some u => (s.setAt (s.parkAddr u) 1 matches some (_, false))
      | none => false
    if lost && s.tiles.any (fun x => x.id == t.id) then (s.dropTiles (·.sameWork t)).tileFailed t 0x40 else s) s

/-- Continue a work entry that stood at a missing fragment. -/
def State.resumeEntry (s : State) (n pos : Nat) : State :=
  let s := s.modLive n pos (fun l => { l with stopped := false })
  match (s.queue? n).bind (fun w => (w.live.find? (fun l => l.pos == pos)).map (fun l => (w, l))) with
  | some (w, l) =>
    if l.opcode = 0x10 then s.copyBlocks n w l (ceilDiv l.len 4096 + 1) l.got
    else (match s.qpOfQueue? n with
      | some x => s.pump x.ctx.qpn
      | none => s)
  | none => s

/-- Release one waiter of a resolved entry. -/
def State.release (s : State) (id : Nat) (w : FaultWaiter) : State :=
  match w with
  | .tile t =>
    (s.modTile t (fun x => { x with faults := x.faults.filter (· != id) })).writeReady
  | .entry n pos => s.resumeEntry n pos
  | .recv q => s.modQp q (fun x => { x with recvFault := false })
  | .xfer c ch id => s.modXfer c ch id (fun x => { x with stopped := false })

/-- Remove a fault entry. -/
def Sheep.remove (x : Sheep) (id : Nat) : Sheep :=
  ({ x with entries := x.entries.filter (fun e => e.id != id), batch := x.batch.filter (· != id), later := x.later.filter (· != id) } : Sheep).tidy

/-- The fragment is still missing: a new entry takes the waiters, in their order, and a new record is written (R197). -/
def State.reopen (s : State) (h : HostId) (e : FaultEntry) : State :=
  let x := s.sheep h
  let new := ((List.range 4096).find? (fun i => !x.entries.any (fun y => y.id == i))).getD e.id
  let y := x.remove e.id
  let f : FaultEntry := { e with id := new, written := false, ft := s.time.ftNs }
  let s := s.setSheep h ({ y with entries := y.entries ++ [f] }.addRecord new)
  e.waiters.foldl (fun s w => match w with
    | .tile t => s.modTile t (fun z => { z with faults := z.faults.map (fun i => if i = e.id then new else i) })
    | _ => s) s

/-- The fragment entry of a fault is read again: whether it is present now. -/
def State.fragPresent (s : State) (e : FaultEntry) : State × Bool :=
  match s.memReadC e.cid e.space e.addr 16 with
  | (s, .ok bs) => (s, bitAt (leAt bs 12 4) 0)
  | (s, .error _) => (s, false)

/-- SHEEP_RESOLVE with FAIL 0 (R197, R199). -/
def sheepResolveEff (h : HostId) (id : Nat) (seen : Seen) (s : State) : State :=
  let s := s.see seen
  match (s.sheep h).entries.find? (fun e => e.id == id) with
  | none => s.count (Reg.SHEEP_RESOLVE_REJ.COUNT h)
  | some e =>
    match s.fragPresent e with
    | (s, true) => e.waiters.foldl (fun s w => s.release id w) (s.setSheep h ((s.sheep h).remove id))
    | (s, false) => s.reopen h e

/-- Fail one waiter of an entry (R198). -/
def State.failWaiter (s : State) (w : FaultWaiter) : State :=
  match w with
  | .tile t =>
    (match s.tiles.find? (fun x => x.id == t) with
      | some x => (s.dropTiles (·.sameWork x)).tileFailed x 0x41
      | none => s)
  | .entry n pos => s.failParked n pos 0x41
  | .xfer c ch id => (s.modXfer c ch id (fun x => { x with stopped := false, moved := true, status := 0x41 })).xferSettle c ch id
  | .recv q =>
    (match s.qp? q with
      | none => s
      | some x =>
        let s := s.setQp q { x with recvFault := false, recvFail := true }
        match s.recvEntry? x.ctx with
        | some l => s.endRecv x.ctx l 0x41 0 { kind := .send }
        | none => s)

/-- An outstanding entry fails. -/
def State.failFault (s : State) (h : HostId) (e : FaultEntry) : State :=
  (e.waiters.foldl State.failWaiter (s.setSheep h ((s.sheep h).remove e.id))).parkHeld

/-- SHEEP_RESOLVE with FAIL 1 (R198, R199). -/
def sheepFailEff (h : HostId) (id : Nat) (s : State) : State :=
  match (s.sheep h).entries.find? (fun e => e.id == id) with
  | none => s.count (Reg.SHEEP_RESOLVE_REJ.COUNT h)
  | some e => s.failFault h e

/-- SHEEP_TIMEOUT (R198). -/
def sheepTimeoutEff (h : HostId) (id : Nat) (s : State) : State :=
  match (s.sheep h).entries.find? (fun e => e.id == id) with
  | none => s
  | some e => (s.count (Reg.SHEEP_TIMEOUT_CNT.COUNT h)).failFault h e

/-- The waiters and parked tiles of a partition are discarded without completions (R199). -/
def State.dropFaults (s : State) (p : Nat) : State :=
  let s := s.dropTiles (fun t => cidPart t.cid == p)
  let keep (s : State) (w : FaultWaiter) : Bool := match w with
    | .tile _ => true
    | .entry n _ => (match s.queue? n with | some q => cidPart q.cid != p | none => false)
    | .recv q => (match s.qp? q with | some x => cidPart x.ctx.cid != p | none => false)
    | .xfer c _ _ => s.coreOwner? c != some p
  let clean (x : Sheep) : Sheep :=
    let es := (x.entries.map (fun (e : FaultEntry) => { e with waiters := e.waiters.filter (keep s) })).filter
      (fun e => !e.waiters.isEmpty)
    let ids := es.map (·.id)
    ({ x with entries := es, batch := x.batch.filter ids.contains, later := x.later.filter ids.contains } : Sheep).tidy
  (s.setSheep 0 (clean s.sheep0)).setSheep 1 (clean s.sheep1)

/-! The rows of chapter 7 -/

def execSheepResolve (host : HostId) (id : BitVec 12) (seen : Seen) (s : State) : Answer :=
  .next (s.hostWrite host (Reg.SHEEP_RESOLVE.off host) (sheepResolveEff host id.toNat seen))
def execSheepFail (host : HostId) (id : BitVec 12) (s : State) : Answer :=
  .next (s.hostWrite host (Reg.SHEEP_RESOLVE.off host) (sheepFailEff host id.toNat))
def execSheepTimeout (host : HostId) (id : BitVec 12) (s : State) : Answer := .next (sheepTimeoutEff host id.toNat s)
def execSheepBatchTimeout (host : HostId) (s : State) : Answer := .next (batchTimeoutEff host s)
def execSheepBatchWrite (host : HostId) (s : State) : Answer := .next (batchWriteEff host s)

/-- The three registers of the park region, by index. -/
def parkOff : Nat → Nat
  | 0 => Reg.SHEEP_PARK_BASE_LO.off
  | 1 => Reg.SHEEP_PARK_BASE_HI.off
  | _ => Reg.SHEEP_PARK_SIZE.off

def execSheepParkWrite (host : HostId) (reg : Fin 3) (value : Word) (s : State) : Answer :=
  .next (s.hostWrite host (parkOff reg) (parkWriteEff (parkOff reg) value))
def execWinRevoke (host : HostId) (part : PartId) (key : Word) (s : State) : Answer :=
  .next (s.hostWrite host (Reg.WIN_REVOKE.off part) (winRevokeEff part key))
def execRevocationFence (index : BitVec 20) (s : State) : Answer := .next (revocationFenceEff index.toNat s)
def execAccessCommitted (index : BitVec 20) (s : State) : Answer := .next (accessCommittedEff index.toNat s)
def execTrigRangeWrite (host : HostId) (part : PartId) (num : Bool) (value : Word) (s : State) : Answer :=
  .next (s.hostWrite host (if num then Reg.TRIG_NUM.off part else Reg.TRIG_BASE.off part) (trigRangeEff part num value))
def execWinShareWrite (host : HostId) (part : PartId) (value : Word) (s : State) : Answer :=
  .next (s.hostWrite host (Reg.WIN_SHARE.off part) (winShareEff part value))

/-! KENNEL commands (06 R151) -/

/-- A KENNEL_CMD word with GO. -/
def kennelWord (op : Nat) (q : BitVec 24) : Word := BitVec.ofNat 32 (2 ^ 31 + op * 2 ^ 24 + q.toNat)

def execKennelCreate (host : HostId) (qpn : BitVec 24) (seen : Seen) (s : State) : Answer :=
  .next (s.hostWrite host (Reg.KENNEL_CMD.off host) (kennelCmdEff host (kennelWord 1 qpn) seen))
def execKennelModify (host : HostId) (qpn : BitVec 24) (seen : Seen) (s : State) : Answer :=
  .next (s.hostWrite host (Reg.KENNEL_CMD.off host) (kennelCmdEff host (kennelWord 2 qpn) seen))
def execKennelQuery (host : HostId) (qpn : BitVec 24) (seen : Seen) (s : State) : Answer :=
  .next (s.hostWrite host (Reg.KENNEL_CMD.off host) (kennelCmdEff host (kennelWord 3 qpn) seen))
def execKennelDestroy (host : HostId) (qpn : BitVec 24) (seen : Seen) (s : State) : Answer :=
  .next (s.hostWrite host (Reg.KENNEL_CMD.off host) (kennelCmdEff host (kennelWord 4 qpn) seen))

end Sys2Proof.Machine
end

