-- ==== Sys2Proof/Machine/HostRows.lean ====
section
/-! DEFINITION. The BARs beyond BAR0, queue commands and doorbells (08_host_interface_and_work_queues.md R210 to R226). -/

namespace Sys2Proof.Machine

/-- BAR2 and BAR4 reach the device: the function serves its BARs, and the device is neither in P3 (16 R442) nor before READY (17 R448). -/
def State.barReach (s : State) (h : HostId) : Bool :=
  s.funcOpen h && s.get Reg.TALLY_STS.PSTATE != 3 && !s.preReady

/-! BAR4 (R213 to R215) -/

/-- A unit of a BAR4 access reaches no memory (R214). -/
def State.b4Hole (s : State) (b : B4Map) (a : Nat) : Bool :=
  if b.space = 2 then
    let c := bits a 18 12
    2 ^ 30 ≤ a || 0x30000 ≤ a % 2 ^ 18 || s.coreOwner? c != some b.part || s.touchesSecure c (a % 2 ^ 18) 4
  else !s.inRegion b.part a 4

/-- The CID of BAR4 accesses. -/
def B4Map.cid (b : B4Map) : Nat := b.part * 1024 + 0x3FF

/-- One unit read: its bytes, or none where it waits. Uncorrectable data is open (log 49). -/
def State.b4ReadUnit (s : State) (h : HostId) (b : B4Map) (a : Nat) : State × Option (List Byte) :=
  if s.b4Hole b a then (s.count (Reg.HOSTIF_B4_HOLE.COUNT h), some (List.replicate 4 0xFF))
  else match s.memReadC b.cid b.space a 4 with
    | (s, .ok bs) => (s, some bs)
    | (s, .error .wait) => (s, none)
    | (s, .error .ue) => (s.fresh, some (s.freeBytes 4))
    | (s, .error .cid) => (s, some (List.replicate 4 0xFF))

/-- The units of a read in order. -/
def State.b4ReadUnits (s : State) (h : HostId) (b : B4Map) : List Nat → List Byte → State × Option (List Byte)
  | [], acc => (s, some acc)
  | a :: as, acc =>
    match s.b4ReadUnit h b a with
    | (s, some bs) => s.b4ReadUnits h b as (acc ++ bs)
    | (s, none) => (s, none)

/-- The addresses of the aligned units that an access of some bytes touches. -/
def unitsOf (a n : Nat) : List Nat := (List.range ((a + n + 3) / 4 - a / 4)).map (fun i => (a / 4 + i) * 4)

/-- One unit written: the bytes of it that the access covers, or none where it waits. -/
def State.b4WriteUnit (s : State) (h : HostId) (b : B4Map) (a : Nat) (bs : List Byte) : Option State :=
  if s.b4Hole b (a / 4 * 4) then some (s.count (Reg.HOSTIF_B4_HOLE.COUNT h))
  else match s.memWriteC b.cid b.space a bs with
    | (_, .error .wait) => none
    | (s, _) => some s

/-- A BAR4 request under a mapping: what it does, or none where a memory holds it back (R213, R214). The units of a read are those of the device
address; the bytes answered are the ones asked for. -/
def State.b4Do (s : State) (h : HostId) (b : B4Map) : B4Req → Option State
  | .read off size =>
    if !b.enable then some (s.emit (.readData h 4 off (List.replicate size 0xFF)))
    else
      let a := b.offset + off
      match s.b4ReadUnits h b (unitsOf a size) [] with
      | (t, some bs) => some (t.emit (.readData h 4 off (slice bs (a % 4) size)))
      | (_, none) => none
  | .write off bytes =>
    if !b.enable then some s
    else
      let a := b.offset + off
      (unitsOf a bytes.length).foldlM (fun (s : State) u =>
        let lo := max u a
        s.b4WriteUnit h b lo (slice bytes (lo - a) (min (u + 4) (a + bytes.length) - lo))) s

/-- The BAR4 requests of a host that wait, oldest first, as far as memory now serves them. -/
def State.b4Serve (s : State) (h : HostId) : Nat → State
  | 0 => s
  | k + 1 =>
    match (s.host h).b4Wait with
    | [] => s
    | (b, r) :: rs =>
      match s.b4Do h b r with
      | some t => (t.setHost h { t.host h with b4Wait := rs }).b4Serve h k
      | none => s

/-- Both hosts' waiting BAR4 requests. -/
def State.b4Retry (s : State) : State :=
  [0, 1].foldl (fun (s : State) (h : HostId) => s.b4Serve h (s.host h).b4Wait.length) s

/-- A BAR4 request reaches the device: it stands behind those that wait, under the mapping in force (R215). -/
def State.b4Arrive (s : State) (h : HostId) (r : B4Req) : State :=
  let s := s.setHost h { s.host h with b4Wait := (s.host h).b4Wait ++ [((s.host h).b4, r)] }
  s.b4Serve h (s.host h).b4Wait.length

/-- BAR4_READ. -/
def bar4ReadEff (h : HostId) (off size : Nat) (s : State) : State :=
  if !s.funcOpen h then s
  else if !s.barReach h then s.emit (.readData h 4 off (List.replicate size 0xFF))
  else s.b4Arrive h (.read off size)

/-- BAR4_WRITE. A write that a memory holds back waits whole (log 49). -/
def bar4WriteEff (h : HostId) (off : Nat) (bytes : List Byte) (s : State) : State :=
  if !s.barReach h then s else s.b4Arrive h (.write off bytes)

/-- B4_CTL_COMMIT: a write of HOSTIF_B4_CTL_LO commits HI and LO (R215). -/
def b4CommitEff (h : HostId) (v : Word) (s : State) : State :=
  let space := wordField v 1 2
  let part := wordField v 4 6
  let enable := v.getLsbD 0
  let offset := wordField v 20 12 * 2 ^ 20 + s.get (Reg.HOSTIF_B4_CTL_HI.OFFSET_HI h) * 2 ^ 32
  if !s.owns h part || space == 0 || space == 3 || (enable && space == 1 && !s.inRegion part offset 1) then
    s.put (Reg.HOSTIF_B4_STS.CFG_REJ h) 1
  else
    let s := s.applyWrite (Reg.HOSTIF_B4_CTL_LO.off h) v
    s.setHost h { s.host h with b4 := { enable := enable, space := space, part := part, offset := offset } }

/-- A partition reset clears ENABLE of any BAR4 window onto the partition (09 R244), that of waiting requests too. -/
def State.closeB4 (s : State) (p : Nat) : State :=
  [0, 1].foldl (fun (s : State) (h : HostId) =>
    let s := s.setHost h { s.host h with b4Wait := (s.host h).b4Wait.map (fun e => if e.1.part = p then ({ e.1 with enable := false }, e.2) else e) }
    if (s.host h).b4.part = p ∧ (s.host h).b4.enable = true then
      (s.setHost h { s.host h with b4 := { (s.host h).b4 with enable := false } }).put (Reg.HOSTIF_B4_CTL_LO.ENABLE h) 0
    else s) s

/-! BAR2 -/

/-- BAR2_BAD_ACCESS: a read returns 0; anything but an aligned 8-byte write is ignored and counted (R212). -/
def bar2BadEff (h : HostId) (write : Bool) (off size : Nat) (s : State) : State :=
  if !s.funcOpen h then s
  else if !write then
    s.emit (.readData h 2 off (List.replicate size (if s.barReach h then 0 else 0xFF)))
  else if s.barReach h = false ∨ (size = 8 ∧ off % 8 = 0) then s
  else s.dbRej h

/-- A doorbell of either kind. -/
def doorbellEff (h : HostId) (page : BitVec 10) (slot : Fin 512) (v : BitVec 64) (s : State) : State :=
  if s.barReach h then s.doorbell h page.toNat slot v else s

/-! The rows -/

def execDoorbellWq (host : HostId) (page : BitVec 10) (slot : Fin 512) (value : BitVec 64) (s : State) : Answer :=
  .next (doorbellEff host page slot value s)
def execDoorbellCq (host : HostId) (page : BitVec 10) (slot : Fin 512) (value : BitVec 64) (s : State) : Answer :=
  .next (doorbellEff host page slot value s)
def execBar2BadAccess (host : HostId) (write : Bool) (off : BitVec 22) (size : Nat) (s : State) : Answer :=
  .next (bar2BadEff host write off.toNat size s)
def execBar4Read (host : HostId) (off : BitVec 28) (size : Nat) (s : State) : Answer := .next (bar4ReadEff host off.toNat size s)
def execBar4Write (host : HostId) (off : BitVec 28) (bytes : List Byte) (s : State) : Answer :=
  .next (bar4WriteEff host off.toNat bytes s)
def execB4CtlCommit (host : HostId) (value : Word) (s : State) : Answer :=
  .next (s.hostWrite host (Reg.HOSTIF_B4_CTL_LO.off host) (b4CommitEff host value))

/-- A HOSTIF_QCMD word with GO. -/
def qcmdWord (op : Nat) (q : BitVec 20) : Word := BitVec.ofNat 32 (2 ^ 31 + op * 2 ^ 20 + q.toNat)

def execQueueCreate (host : HostId) (queue : BitVec 20) (seen : Seen) (s : State) : Answer :=
  .next (s.hostWrite host (Reg.HOSTIF_QCMD.off host) (qcmdEff host (qcmdWord 1 queue) seen))
def execQueueModify (host : HostId) (queue : BitVec 20) (seen : Seen) (s : State) : Answer :=
  .next (s.hostWrite host (Reg.HOSTIF_QCMD.off host) (qcmdEff host (qcmdWord 2 queue) seen))
def execQueueQuery (host : HostId) (queue : BitVec 20) (seen : Seen) (s : State) : Answer :=
  .next (s.hostWrite host (Reg.HOSTIF_QCMD.off host) (qcmdEff host (qcmdWord 3 queue) seen))
def execQueueDestroy (host : HostId) (queue : BitVec 20) (seen : Seen) (s : State) : Answer :=
  .next (s.hostWrite host (Reg.HOSTIF_QCMD.off host) (qcmdEff host (qcmdWord 4 queue) seen))
def execDcinv (host : HostId) (queue : BitVec 20) (s : State) : Answer :=
  .next (s.hostWrite host (Reg.HOSTIF_DCINV.off host) (dcinvEff host (BitVec.ofNat 32 (2 ^ 31 + queue.toNat))))
def execEntryFetchReturn (queue : BitVec 20) (count : Fin 17) (seen : Seen) (s : State) : Answer :=
  .next (fetchReturnEff queue.toNat count seen s)
def execRefetchTimer (queue : BitVec 20) (pos : Nat) (seen : Seen) (s : State) : Answer :=
  .next (refetchEff queue.toNat pos seen s)
def execCqModerationExpiry (queue : BitVec 20) (s : State) : Answer := .next (cqModerationEff queue.toNat s)

end Sys2Proof.Machine
end

