-- ==== Sys2Proof/Machine/Sched.lean ====
section
/-! DEFINITION. Schedule states, submission, verdict, cancel, takeover, suspension, samples; the map commit; slot boundaries and time loss
(05_schedules_and_admission.md R128 to R134, R143, 02_floor_plan_and_numbering.md R40, R44 to R49, 01_fabric_time.md R18, R28, R29). -/

namespace Sys2Proof.Machine

/-! What follows the images -/

/-- A bit of a register pair, LO for 0 to 31 and HI for 32 to 63. -/
def State.putPair (s : State) (lo hi : Fld) (i : Nat) (b : Bool) : State :=
  if i < 32 then s.put (lo.bit i) (b2n b) else s.put (hi.bit (i - 32)) (b2n b)

/-- TALLY_MIN (16 R430). -/
def State.showMin (s : State) : State :=
  s.put Reg.TALLY_MIN.W (ceilDiv (s.get Reg.TALLY_FLOOR.MW + (List.range 64).foldl (fun a p => a + s.partCost p) 0) 1000)

/-- The SCHED registers of a partition and the device's follow the images. -/
def State.showSched (s : State) (p : Nat) : State :=
  let act := s.sched.act.at? p
  let pend := s.sched.pend.at? p
  let s := if act.isNone then s.put (Reg.SCHED_STATE.ACT p) 0 else s
  let s := match pend <|> act with
    | some i => (s.put (Reg.SCHED_TAKEOVER_LO.SLOT p) (i.takeover % 2 ^ 32)).put (Reg.SCHED_TAKEOVER_HI.SLOT p) (i.takeover / 2 ^ 32)
    | none => s
  let s := s.put (Reg.SCHED_ENERGY_ACT.MW p) ((act.map (·.cost)).getD 0)
  let s := s.put (Reg.SCHED_ENERGY_PEND.MW p) ((pend.map (·.cost)).getD 0)
  let s := s.putPair Reg.SCHED_ACTIVE_LO.PARTS Reg.SCHED_ACTIVE_HI.PARTS p act.isSome
  let s := s.putPair Reg.SCHED_PENDING_LO.PARTS Reg.SCHED_PENDING_HI.PARTS p pend.isSome
  let s := (s.put Reg.SCHED_STS.ANY_ACTIVE (b2n (!s.sched.act.isEmpty))).put Reg.SCHED_STS.ANY_PENDING (b2n (!s.sched.pend.isEmpty))
  (s.put Reg.SCHED_HYPER.SLOTS ((s.activeImages.flatMap (·.lists)).foldl (fun a l => Nat.lcm a l.cycle) 1)).showMin

/-- Contexts are pinned exactly while an active or pending image names them with PIN (R134); a newly pinned context is fetched first. -/
def State.repin (s : State) : State :=
  let named := pinsOf s.heldImages
  let changed := s.qps.filter (fun (e : Nat × Qp) => e.2.ctx.pin != named.contains e.1)
  changed.foldl (fun s e =>
    let s := if named.contains e.1 then s.fetchIn e.1 else s
    (s.modQp e.1 (fun x => { x with ctx := { x.ctx with pin := named.contains e.1 } })).showBank (homeBank e.1)) s

/-- Logical cores that an image names as stages. -/
def Image.stages (i : Image) : List Nat := ((i.paths.filter (·.stageValid)).map (·.stage)).eraseDups

/-- CLUSTER_CORE_STS.STAGE and CLUSTER_RED_STS.RESERVED follow the images. -/
def State.showImages (s : State) (touched : List Image) : State :=
  let s := (touched.flatMap Image.stages).foldl (fun s c => s.put (Reg.CLUSTER_CORE_STS.STAGE (c / 64) (c % 64)) (b2n (s.stageCore c))) s
  (touched.flatMap (fun i => i.res.map (·.cluster))).foldl (fun s k => s.put (Reg.CLUSTER_RED_STS.RESERVED k) (s.redReserved k)) s

/-- Holdings, registers and paths follow a change of a partition's images; `touched` are the images that came or went. -/
def State.schedChanged (s : State) (p : Nat) (touched : List Image) : State :=
  (((s.repin.showSched p).showImages touched).purgeHandles).pathsChanged

/-! Flows -/

/-- A frame of classes 0 to 3 of some flows goes on in another class. -/
def Frame.demoted (tc : Nat) (flows : List Nat) (f : Frame) : Frame := if f.cls < 4 && flows.contains f.flow then { f with cls := tc } else f

/-- Queued frames of classes 0 to 3 of some flows, those on the mesh and those not yet sent go on in DEMOTE_TC (R129, 01 R29). -/
def State.demoteQueued (s : State) (flows : List Nat) : State :=
  let tc := s.demoteTc
  { s with ports := s.ports.map (fun (e : Nat × Port) => (e.1, { e.2 with
      txq := e.2.txq.map (Frame.demoted tc flows) }))
           mesh := { s.mesh with crossings := s.mesh.crossings.map (fun x => { x with frame := x.frame.demoted tc flows }) }
           sched := { s.sched with paced := s.sched.paced.map (fun e => (e.1, e.2.demoted tc flows)) } }

/-- Flows are carried in DEMOTE_TC; `lost`: by time loss. -/
def State.demote (s : State) (flows : List Nat) (lost : Bool) : State :=
  (flows.foldl (fun s f => s.setFlowRt f { s.flowRt f with demoted := true, lost := lost || (s.flowRt f).lost, wasDemoted := true }) s).demoteQueued
    flows

/-- Suspend a partition's schedule (Table 5.7). -/
def State.suspend (s : State) (p : Nat) (lost : Bool) : State :=
  match s.sched.act.at? p with
  | none => s
  | some i =>
    if s.get (Reg.SCHED_STATE.ACT p) ≠ 1 then s
    else (s.put (Reg.SCHED_STATE.ACT p) 2).demote (i.flows.map (·.flow)) lost

/-- Discard a pending image; its holdings are released. -/
def State.dropPending (s : State) (p : Nat) : State :=
  match s.sched.pend.at? p with
  | none => s
  | some i => (({ s with sched := { s.sched with pend := s.sched.pend.del p } }).put (Reg.SCHED_STATE.PEND p) 0).schedChanged p [i]

/-- A partition or warm reset: no schedule, no submission, every holding released (Table 5.7). -/
def State.dropSchedule (s : State) (p : Nat) : State :=
  let touched := (s.sched.act.at? p).toList ++ (s.sched.pend.at? p).toList
  let s := { s with sched := { s.sched with
    act := s.sched.act.del p, pend := s.sched.pend.del p, submits := s.sched.submits.filter (fun x => x.part != p)
    samples := s.sched.samples.filter (fun x => x.1 != p)
    paced := s.sched.paced.filter (fun x => !touched.any (fun i => i.flows.any (fun f => f.flow == x.2.flow))) } }
  let s := touched.foldl (fun s i => i.flows.foldl (fun s f => s.setFlowRt f.flow {}) s) s
  (((s.put (Reg.SCHED_STATE.ACT p) 0).put (Reg.SCHED_STATE.PEND p) 0).put (Reg.SCHED_ADM.BUSY p) 0).schedChanged p touched

/-! Submission and verdict (Table 5.7) -/

/-- SUBMIT. -/
def submitEff (p : Nat) (s : State) : State :=
  if s.get (Reg.SCHED_STATE.PEND p) ≠ 0 then s.put (Reg.SCHED_ADM.SUBMIT_REJ p) 1
  else
    let x : Submit := {
      part := p, locked := s.get Reg.TIME_STS.STATE == 2, gen := s.get Reg.GLB_DUM_GEN.GEN, armed := s.flag Reg.MESH_STS.NEXT_ARMED
      preempt := (List.range 64).filter (fun q => s.flag (Reg.LINK_CFG.PREEMPT_EN q))
      addr := s.pair (Reg.SCHED_IMG_LO.ADDR_LO p) (Reg.SCHED_IMG_HI.ADDR_HI p), space := s.get (Reg.SCHED_IMG_HI.SPACE p)
      pages := s.get (Reg.SCHED_IMG_LEN.PAGES p) }
    (({ s with sched := { s.sched with submits := s.sched.submits ++ [x] } }).put (Reg.SCHED_STATE.PEND p) 1).put (Reg.SCHED_ADM.BUSY p) 1

/-- CANCEL: taken before the first core cycle of T. -/
def cancelEff (p : Nat) (s : State) : State :=
  if s.get (Reg.SCHED_STATE.PEND p) = 2 ∧ s.slot < s.get (Reg.SCHED_TAKEOVER_LO.SLOT p) + 2 ^ 32 * s.get (Reg.SCHED_TAKEOVER_HI.SLOT p) then
    s.dropPending p
  else s.put (Reg.SCHED_ADM.CANCEL_REJ p) 1

/-- A SCHED_CTL write; with both bits CANCEL acts first (DEDUCED, log 76). -/
def schedCtlEff (p : Nat) (v : Word) (s : State) : State :=
  let s := if wordField v 1 1 = 1 then cancelEff p s else s
  if wordField v 0 1 = 1 then submitEff p s else s

/-- The end of a check: RESULT, DONE, vector 2 of the owner (08 R240). -/
def State.verdict (s : State) (p code : Nat) : State :=
  (((s.put (Reg.SCHED_ADM.RESULT p) code).put (Reg.SCHED_ADM.BUSY p) 0).put (Reg.SCHED_ADM.DONE p) 1).vector (s.owner p) 2

/-- A refusal. -/
def State.refuse (s : State) (p : Nat) (f : AdmFail) : State :=
  let s := (s.put (Reg.SCHED_STATE.PEND p) 0).put (Reg.SCHED_ADM_ITEM.INDEX p) f.index
  ((s.put (Reg.SCHED_ADM_ITEM.KIND p) f.kind).put (Reg.SCHED_ADM_VALUE.VALUE p) f.value).verdict p f.code

/-- Unscheduled segments in newly reserved slots of a cluster move to the spill region, the oldest first (11 R326; DESIGN CHOICE, log 35). -/
def State.spillSegs (s : State) (k : Nat) : State :=
  let x := s.cluster k
  let loose (g : RedSeg) : Bool := g.open_ && !g.spilled && !(redDesc g.desc).sched
  let excess := (x.segs.filter loose).length + s.redReserved k - 256
  let (segs, _) := x.segs.foldl (fun (l, n) g => if loose g && n != 0 then (l ++ [{ g with spilled := true }], n - 1) else (l ++ [g], n)) ([], excess)
  (s.setCluster k { x with segs := segs }).showRed k

/-- ADM_OK: the image is PENDING and its pins and slots are held. -/
def State.admitted (s : State) (p : Nat) (i : Image) : State :=
  let s := ({ s with sched := { s.sched with pend := s.sched.pend.set p i } }).put (Reg.SCHED_STATE.PEND p) 2
  let s := s.schedChanged p [i]
  let s := ((i.res.filter (·.kind == 1)).map (·.cluster)).eraseDups.foldl State.spillSegs s
  s.verdict p 0

/-- Ports that an image names (16 R433). -/
def Image.ports (i : Image) : List Nat :=
  (i.flows.flatMap (fun f => (if resKind f.ingress = 1 then [f.ingress % 64] else [])
    ++ ((i.flowPaths f).filter (fun (q : PathRec) => q.toPort)).map (fun (q : PathRec) => q.egress))).eraseDups

/-- ADMISSION_VERDICT: the oldest submission's check ends. Where a port that the image names is lowered, the port is raised and the verdict
waits (16 R433); named clusters ungate before the verdict (16 R434). An image that cannot be read fails check 1 (DEDUCED, log 77). -/
def admissionVerdictEff (seen : Seen) (s : State) : State :=
  match s.sched.submits with
  | [] => s
  | x :: rest =>
    let s := s.see seen
    let p := x.part
    let (s, r) := s.memReadC (p * 1024 + 0x3FF) x.space x.addr (4096 * x.pages)
    let bytes := match r with
      | .ok b => b
      | .error _ => []
    if r matches .error .wait then s else
    let done := { s with sched := { s.sched with submits := rest } }
    match parseImage bytes (4096 * x.pages) with
    | .error f => done.refuse p f
    | .ok i =>
      let low := i.ports.filter s.lowered
      if !low.isEmpty then low.foldl State.raiseLanes s
      else
        let done := (i.clusters.filter done.gated).foldl (fun s k => s.setGated k false) done
        let cost := (done.plant x.preempt).cost i
        match done.admChecks x i cost with
        | some f => done.refuse p f
        | none => done.admitted p { i with cost := cost }

/-! The logical map (02 R44 to R49) -/

/-- The boot commit's map of a cluster (R44): logical n takes the n-th healthy core; none without its Drover or reduction unit. -/
def State.bootNext (s : State) (k : Nat) : State :=
  let ok := if s.clusterWhole k then (List.range 68).filter (s.pcoreOk k) else []
  (List.range 64).foldl (fun s n => s.setNext k n (ok[n]?)) s

/-- An entry of the map differs from its next one. -/
def State.entryChanges (s : State) (k n : Nat) : Bool :=
  s.get (Reg.CLUSTER_LMAP.PCORE k n) != s.get (Reg.CLUSTER_LMAP.NEXT_PCORE k n)
    || s.get (Reg.CLUSTER_LMAP.VACANT k n) != s.get (Reg.CLUSTER_LMAP.NEXT_VACANT k n)

/-- A logical core comes to stand on its spare (10 R306): READY with the image, its events waiting for a preload that still runs. -/
def State.moveCore (s : State) (c : Nat) : State :=
  let h := s.get (Reg.CLUSTER_CORE_HANDLE.HANDLE (c / 64) (c % 64))
  let s := (s.modCore c (fun k => { k with hadExc := k.cur.isSome })).closeEvent c
  if serviceCore c then (s.placeResident c).setCoreSt c 1
  else match s.handles.at? h with
    | none => s.setCoreSt c 0
    | some x =>
      if s.spares.contains c then { (s.placeImage c h x.image) with spares := s.spares.filter (· != c) }
      else (s.setCore c { ((s.core c).placed []) with preload := true }).setCoreSt c 1

/-- One entry takes its next mapping. A vacant entry keeps the number of its last physical core (log 135), and its FENCED reads 0 though that core is
fenced (DESIGN CHOICE, log 148). -/
def State.commitEntry (s : State) (k n : Nat) : State :=
  let c := 64 * k + n
  let was := s.flag (Reg.CLUSTER_LMAP.VACANT k n)
  let moved := s.get (Reg.CLUSTER_LMAP.PCORE k n) != s.get (Reg.CLUSTER_LMAP.NEXT_PCORE k n)
  let s := s.put (Reg.CLUSTER_LMAP.PCORE k n) (s.get (Reg.CLUSTER_LMAP.NEXT_PCORE k n))
  let s := s.put (Reg.CLUSTER_LMAP.VACANT k n) (s.get (Reg.CLUSTER_LMAP.NEXT_VACANT k n))
  let s := s.put (Reg.CLUSTER_LMAP.FENCED k n)
    (b2n (!s.flag (Reg.CLUSTER_LMAP.VACANT k n) && !s.pcoreOk k (s.get (Reg.CLUSTER_LMAP.PCORE k n))))
  if s.flag (Reg.CLUSTER_LMAP.VACANT k n) then
    if was then s else (((s.modCore c (fun k => { k with hadExc := k.cur.isSome })).closeEvent c).emptyCore c).flushKeyCmds
  else if moved && !s.preReady then s.moveCore c else s

/-- The recomputation of GLB_DET_DIGEST begins (13 R368). -/
def State.startDet (s : State) : State :=
  { (s.put Reg.GLB_DET_STS.DIGEST_VALID 0) with boot := { s.boot with detPending := true } }

/-- The next map becomes the current one (R49); GLB_DET_DIGEST is computed again (13 R368). -/
def State.commitMap (s : State) : State :=
  let cs := (List.range 4096).filter (fun c => s.entryChanges (c / 64) (c % 64))
  let s := cs.foldl (fun s c => s.commitEntry (c / 64) (c % 64)) s
  let s := { s with spares := [] }.startDet
  (s.event Ev.dumCommitted (leBytes 2 cs.length ++ leBytes 2 (s.get Reg.GLB_DUM_GEN.GEN))).pathsChanged

/-- A GLB_DUM_CTL write (R46). Before READY a commit takes the next map as it stands; the build of R44 follows at the boot commit (DESIGN CHOICE, log 147). -/
def dumCtlEff (v : Word) (s : State) : State :=
  let s := s.applyWrite Reg.GLB_DUM_CTL.off (v &&& 2)
  if wordField v 0 1 = 0 then s
  else if s.schedBusy then s.put Reg.GLB_DUM_CTL.COMMIT_REJ 1
  else s.commitMap

/-- Units go out of service: fence bits, the contexts of a Kennel sub-bank, the sets of a DDR channel (R40 to R43, 06 R150, 14 R387). -/
def State.takeOut (s : State) (cause : Nat) (us : List UnitId) : State :=
  let new := us.eraseDups.filter (fun u => (fenceBit? u).isSome && !s.disabled u)
  let s := s.fence cause us
  let s := new.foldl (fun s u => match u.kind with
    | .kennel => s.kennelFenced u.place u.index
    | .channel => [0, 1].foldl (fun s i =>
        if (s.ddrSet i).state = 1 && bitAt (s.ddrSet i).channels u.index then
          ((s.put (Reg.MEM_SET_W0.STATE i) 2).event Ev.ddrSetFailed (leBytes 1 i)).failParkedTiles
        else s) s
    | _ => s) s
  if new.isEmpty then s else s.pathsChanged

/-! Takeover (R132) -/

/-- One pending image takes over: lists, table switch (R108), flows, pins. The gates that R29 opened close again, on every resource, with the first
takeover after it (DESIGN CHOICE, log 149). -/
def State.takeover (s : State) (p : Nat) (i : Image) : State :=
  let old := s.sched.act.at? p
  let had := (old.map (fun j => j.flows.map (·.flow))).getD []
  let now := i.flows.map (·.flow)
  let gone := had.filter (fun f => !now.contains f)
  let kept := match old with
    | some j => if gone.isEmpty then s.sched.kept else s.sched.kept ++ [{ j with flows := j.flows.filter (fun f => gone.contains f.flow) }]
    | none => s.sched.kept
  let s := { s with sched := { s.sched with
    act := if i.empty then s.sched.act.del p else s.sched.act.set p i, pend := s.sched.pend.del p, kept := kept, opened := false } }
  let s := (s.put (Reg.SCHED_STATE.ACT p) (b2n (!i.empty))).put (Reg.SCHED_STATE.PEND p) 0
  let s := s.demote gone false
  let s := i.flows.foldl (fun s f =>
    if had.contains f.flow then s.setFlowRt f.flow { s.flowRt f.flow with demoted := false, lost := false }
    else s.setFlowRt f.flow { tokens := 256 * f.burst }) s
  let s := s.purgeKept
  let s := if i.tableSwitch && s.flag Reg.MESH_STS.NEXT_ARMED then s.tableSwitch else s
  s.schedChanged p (i :: old.toList)

/-- The takeovers of a slot: every pending image whose slot has come, in the order of partitions. The map is committed once where an image was built
for its generation (R46), however many take over in the slot (DESIGN CHOICE, log 150). -/
def State.takeovers (s : State) : State :=
  let due := s.sched.pend.filter (fun (e : Nat × Image) => e.2.takeover ≤ s.slot)
  let s := due.foldl (fun s e => s.takeover e.1 e.2) s
  if due.any (fun (e : Nat × Image) => e.2.mapGen == s.get Reg.GLB_DUM_GEN.GEN) && !s.preReady then s.commitMap else s

/-- Send what scheduled queue pairs may now send. -/
def State.pumpFlows (s : State) : State := s.qps.foldl (fun s e => if e.2.ctx.flow = 0 then s else s.pump e.1) s

/-! Time loss (01 R28, R29) -/

/-- The device enters LOST: gates of classes 0 to 3 open, pending images go, active ones are suspended and their flows demoted. -/
def State.enterLost (s : State) : State :=
  let s := { (s.put Reg.TIME_STS.STATE 4) with time := { s.time with lossMet := false, timerRunning := false } }
  let s := { s with sched := { s.sched with opened := true } }
  let s := ((s.put Reg.TIME_STS.TIME_LOST 1).count Reg.TIME_LOST_CNT.COUNT).event Ev.timeLost
  let s := s.sched.submits.foldl (fun s x => s.refuse x.part { code := 8 }) { s with sched := { s.sched with submits := [] } }
  let s := (s.sched.pend.map (·.1)).foldl State.dropPending s
  let s := (s.sched.act.map (·.1)).foldl (fun s p => (s.suspend p true).showSched p) s
  s.demoteQueued (s.sched.act.flatMap (fun e => e.2.flows.map (·.flow)))

/-- LOST waits for the next slot to begin. -/
def State.lossDue (s : State) : Bool := s.get Reg.TIME_STS.STATE == 3 && s.time.lossMet

/-! Samples (R143) -/

/-- A sample record is lost (R143). -/
def State.sampleMiss (s : State) (p : Nat) : State :=
  let s := s.count Reg.SCHED_SAMPLE_LOST.COUNT
  { s with sched := { s.sched with sampleLost := addTo s.sched.sampleLost p } }

/-- The address in a partition's sample ring that its next record takes. -/
def State.sampleAddr (s : State) (p : Nat) : Nat :=
  s.pair (Reg.SCHED_SMP_BASE_LO.BASE_LO p) (Reg.SCHED_SMP_BASE_HI.BASE_HI p)
    + 16 * (s.get (Reg.SCHED_SMP_PROD.INDEX p) % 2 ^ s.get (Reg.SCHED_SMP_CTL.LOG2_SIZE p))

/-- The memory of the ring grants a background request in this slot: the owner's host port, or the channel of the address (R124). -/
def State.sampleSlot (s : State) (p : Nat) : Bool :=
  match s.get (Reg.SCHED_SMP_BASE_HI.SPACE p) with
  | 0 => s.background (0x8000 + (s.owner p).val)
  | 1 => (s.ddrPlace (s.sampleAddr p)).all (fun c => s.background (0x7000 + c.1))
  | _ => true

/-- Write a sample record into its partition's ring, with LOST where one before it was lost; a full ring loses it. A ring write that its memory turns
away is lost too (DEDUCED, log 78). -/
def State.sampleWrite (s : State) (p : Nat) (rec_ : List Byte) : State :=
  let size := 2 ^ s.get (Reg.SCHED_SMP_CTL.LOG2_SIZE p)
  let prod := s.get (Reg.SCHED_SMP_PROD.INDEX p) % size
  let bytes := if s.sched.sampleLost.contains p then rec_.set 9 (BitVec.ofNat 8 (leAt rec_ 9 1 + 1)) else rec_
  if (prod + 1) % size = s.get (Reg.SCHED_SMP_CONS.INDEX p) % size then s.sampleMiss p
  else match s.memWriteC (p * 1024 + 0x3FF) (s.get (Reg.SCHED_SMP_BASE_HI.SPACE p)) (s.sampleAddr p) bytes with
    | (s, .ok _) =>
      ({ s with sched := { s.sched with sampleLost := s.sched.sampleLost.filter (· != p) } }).put (Reg.SCHED_SMP_PROD.INDEX p)
        ((prod + 1) % size)
    | (s, .error _) => s.sampleMiss p

/-- Sample records go out as far as their memories grant them, oldest first. -/
def State.flushSamples (s : State) : State :=
  let xs := s.sched.samples
  xs.foldl (fun s x => if s.sampleSlot x.1 then s.sampleWrite x.1 x.2 else { s with sched := { s.sched with samples := s.sched.samples ++ [x] } })
    { s with sched := { s.sched with samples := [] } }

/-! Slots (01 R18, R128) -/

/-- The buckets gain RATE for some slots, up to BURST. -/
def State.refill (s : State) (slots : Nat) : State :=
  s.activeImages.foldl (fun s i => i.flows.foldl (fun s f =>
    let r := s.flowRt f.flow
    s.setFlowRt f.flow { r with tokens := min (256 * f.burst) (r.tokens + slots * f.rate) }) s) s

/-- A slot begins: LOST first where it is due (01 R29), then takeovers, all gate units on the same edge (01 R18); the buckets gain a slot's
tokens; what waited for the slot goes: originated frames, sample and event records. -/
def State.beginSlot (s : State) : State :=
  let s := { s with time := { s.time with gateSlot := s.slot } }
  let s := if s.lossDue then s.enterLost else s
  let s := (s.takeovers.refill 1).pacedGo.flushSamples
  ([0, 1].foldl (fun s h => s.drainEvents h 64) s).pumpFlows

/-- One core cycle: FT moves, every mesh link moves a flit, waiting BAR4 requests and key loads are tried again, and a slot begins where FT has come to one (log 1). -/
def coreCycle (s : State) : State :=
  let s := s.tick.meshCycle.b4Retry.keyRetry
  if s.atSlotStart then s.beginSlot else s

/-- Core cycles up to the first core cycle of the next slot. The fuel bounds them: a slot lasts 12 (01 R18). -/
def State.toSlot (s : State) : Nat → State
  | 0 => s
  | k + 1 =>
    let s := coreCycle s
    if s.atSlotStart then s else s.toSlot k

/-- SLOT_BOUNDARY: the core cycles up to the next slot, which begins. -/
def slotBoundaryEff (s : State) : State := s.toSlot 12

/-- SCHEDULE_TAKEOVER: the first core cycle of T, where the next slot is T of some pending image. -/
def scheduleTakeoverEff (s : State) : State :=
  if s.sched.pend.any (fun (e : Nat × Image) => e.2.takeover ≤ s.slot + 1) then s.toSlot 12 else s

/-- TIME_LOST (01 R28, R29): LOST is entered as the next slot begins, once a condition for it has been met. -/
def timeLostEff (s : State) : State := if s.lossDue then s.toSlot 12 else s

/-- The sample record of a flow for a slot (Table 5.12). -/
def FlowRt.record (r : FlowRt) (slot flow : Nat) : List Byte :=
  leBytes 6 slot ++ leBytes 3 flow ++ leBytes 1 (2 * b2n (r.wasDemoted || r.demoted) + 4 * b2n (r.wasBackup || r.onBackup))
    ++ leBytes 2 (min r.maxDepth 0xFFFF) ++ leBytes 3 (min r.maxDelay 0xFFFFFF) ++ leBytes 1 (min r.drops 255)

/-- What a flow gathers starts anew after its record of a slot. -/
def FlowRt.restart (r : FlowRt) (slot : Nat) : FlowRt :=
  { r with sampled := slot + 1, maxDepth := r.depth, maxDelay := 0, drops := 0, wasDemoted := r.demoted, wasBackup := r.onBackup }

/-- SAMPLE_RECORD: the record of a flow at a slot of its interval, once; it waits for a free slot of its ring's memory. -/
def sampleRecordEff (flow : Nat) (s : State) : State :=
  match flowIn s.activeImages flow with
  | none => s
  | some (i, f) =>
    let p := i.partition
    let r := s.flowRt flow
    if f.sample = 0 ∨ s.slot % max f.sample 1 ≠ 0 ∨ r.sampled = s.slot + 1 ∨ s.flag (Reg.SCHED_SMP_CTL.ENABLE p) = false then s
    else
      let s' := s.setFlowRt flow (r.restart s.slot)
      { s' with sched := { s'.sched with samples := s'.sched.samples ++ [(p, r.record s.slot flow)] } }.flushSamples

/-- UNIT_FAILURE: the unit is fenced. `unreadable`: queue pairs whose contexts in a failing Kennel sub-bank can no longer be read (06 R150). -/
def unitFailureEff (u : UnitId) (unreadable : List (BitVec 24)) (s : State) : State :=
  let bad := (unreadable.map BitVec.toNat).filter (fun q =>
    u.kind == .kennel && (s.qp? q).any (fun x => homeBank q == u.place && x.place == .resident u.index))
  { s with kennel := { s.kennel with bad := bad.foldl addTo s.kennel.bad } }.takeOut 3 [u]

/-! Meanings -/

def execSubmit (host : HostId) (part : PartId) (s : State) : Answer :=
  .next (s.hostWrite host (Reg.SCHED_CTL.off part) (schedCtlEff part.val 1))
def execCancel (host : HostId) (part : PartId) (s : State) : Answer :=
  .next (s.hostWrite host (Reg.SCHED_CTL.off part) (schedCtlEff part.val 2))
def execAdmissionVerdict (seen : Seen) (s : State) : Answer := .next (admissionVerdictEff seen s)
def execScheduleTakeover (s : State) : Answer := .next (scheduleTakeoverEff s)
def execSampleRecord (flow : BitVec 24) (s : State) : Answer := .next (sampleRecordEff flow.toNat s)
def execSlotBoundary (s : State) : Answer := .next (slotBoundaryEff s)
def execTimeLost (s : State) : Answer := .next (timeLostEff s)
def execCommit (host : HostId) (s : State) : Answer := .next (s.hostWrite host Reg.GLB_DUM_CTL.off (dumCtlEff 1))
def execUnitFailure (failure : UnitFailing) (s : State) : Answer := .next (unitFailureEff failure.unit failure.unreadable s)

end Sys2Proof.Machine
end

