-- ==== Sys2Proof/Machine/Collect.lean ====
section
/-! DEFINITION. Barrier units (01_fabric_time.md R32 to R34, 12_collectives.md R358 to R360) and collectives (12_collectives.md R338 to R357). -/

namespace Sys2Proof.Machine

/-! Ends of collectives -/

/-- Change a running collective, named by its INVOKE. -/
def State.modColl (s : State) (n pos : Nat) (f : Coll → Coll) : State :=
  { s with colls := s.colls.map (fun c => if c.queue = n ∧ c.pos = pos then f c else c) }

/-- SEQ of a call. -/
def Coll.seq (x : Coll) : Nat := leAt x.args 4 4

/-- The status record (Table 12.5). -/
def State.statusRecord (s : State) (x : Coll) (st rank : Nat) (late untimed : Bool) : List Byte :=
  leBytes 1 st ++ leBytes 1 (b2n late + 2 * b2n untimed) ++ leBytes 2 rank ++ leBytes 4 x.seq ++ leBytes 4 x.incs
    ++ leBytes 4 x.late.length ++ leBytes 8 x.ftStart.toNat ++ leBytes 8 s.time.ftNs.toNat ++ List.replicate 32 0

/-- The call ends: its status record is written and its INVOKE completes (R354, R356). -/
def State.endColl (s : State) (x : Coll) (st rank : Nat) (late untimed : Bool) : State :=
  let s := { s with colls := s.colls.filter (fun c => !(c.queue == x.queue && c.pos == x.pos)) }
  let s := (s.memWriteC x.cid 1 x.status (s.statusRecord x st rank late untimed)).1
  s.endEntry x.queue x.pos st (if st = 0 then leAt x.args 16 4 else 0)

/-! Barrier units -/

/-- A barrier unit. -/
def State.bar (s : State) (n : Nat) : BarUnit := s.bars.getD n {}

/-- Change a barrier unit. -/
def State.setBar (s : State) (n : Nat) (b : BarUnit) : State := { s with bars := s.bars.putD n b {} }

/-- A release counts (TIME_BAR_STS). -/
def State.countRelease (s : State) (n : Nat) : State := s.count (Reg.TIME_BAR_STS.RELEASES n)

/-- The barrier in progress ends: cores that wait in BAR go on, or the INVOKE completes. -/
def State.barEnd (s : State) (n st : Nat) : State :=
  let b := s.bar n
  match b.run with
  | none => s
  | some r =>
    let s := s.setBar n { b with run := none, arrivals := b.arrivals.filter (fun a => a.seq != r.seq), withdrawn := b.withdrawn.filter (· != r.seq) }
    match r.coll with
    | some (q, pos) =>
      match s.colls.find? (fun c => c.queue == q && c.pos == pos) with
      | some x => s.endColl x st 0 (st = 0 && s.flag (Reg.TIME_BAR_STS.LATE n)) (st = 0 && s.flag (Reg.TIME_BAR_STS.UNTIMED n))
      | none => s
    | none => (s.cores.map (·.1)).foldl (fun s c => s.endWait c (fun w => match w with | .bar m => m == n | _ => false)) s

/-- A member gets the release of a barrier (R34, R359): with no slot or a slot that has begun it releases at once. -/
def State.barRelease (s : State) (n seq : Nat) (slot : Option Nat) (failed : Bool) : State :=
  let b := s.bar n
  match b.run with
  | none => s
  | some r =>
    if r.seq ≠ seq ∨ r.release.isSome = true then s
    else if failed then s.barEnd n 0x31
    else match slot with
      | none => ((s.put (Reg.TIME_BAR_STS.UNTIMED n) 1).countRelease n).barEnd n 0
      | some t =>
        if t ≤ s.slot then ((s.put (Reg.TIME_BAR_STS.LATE n) 1).countRelease n).barEnd n 0
        else s.setBar n { b with run := some { r with release := some t } }

/-- The coordinator sends every other member a release, and takes its own. -/
def State.barSend (s : State) (n : Nat) (r : BarRun) (slot : Option Nat) (failed : Bool) : State :=
  ((r.members.drop 1).foldl (fun s f => s.emit (.barrierRelease f n r.seq slot failed)) s).barRelease n r.seq slot failed

/-- The coordinator releases once every member has arrived (R32); the release without a slot of R34 waits for all arrivals too (DESIGN CHOICE, log 153). -/
def State.barCheck (s : State) (n : Nat) : State :=
  let b := s.bar n
  match b.run with
  | none => s
  | some r =>
    let as := b.arrivals.filter (fun a => a.seq == r.seq)
    if r.rank ≠ 0 ∨ r.release.isSome = true then s
    else if b.withdrawn.contains r.seq then s.barSend n r none true
    else if (List.range r.members.length).all (fun k => as.any (fun a => a.rank == k)) then
      if as.all (fun a => a.state == 2 || a.state == 3) then
        s.barSend n r (some (as.foldl (fun m a => max m a.slot) 0 + s.get (Reg.TIME_BAR_CTL.LEAD n))) false
      else s.barSend n r none false
    else s

/-- An arrival reaches the coordinator. -/
def State.barArrive (s : State) (n : Nat) (a : BarArrival) : State :=
  let b := s.bar n
  (s.setBar n { b with arrivals := b.arrivals.filter (fun x => !(x.seq == a.seq && x.rank == a.rank)) ++ [a] }).barCheck n

/-- This device arrives at a unit. -/
def State.barStart (s : State) (n : Nat) (r : BarRun) : State :=
  let s := s.setBar n { s.bar n with run := some r }
  let st := s.get Reg.TIME_STS.STATE
  if r.rank = 0 then s.barArrive n { seq := r.seq, rank := 0, slot := s.slot, state := st }
  else s.emit (.barrierArrival (r.members.getD 0 0) n r.seq r.rank s.slot st)

/-- The barrier of the cores that wait in BAR on a unit that is idle: each BAR of the membership takes the next SEQ (DEDUCED, log 87). -/
def State.barNext (s : State) (n : Nat) : State :=
  let b := s.bar n
  if b.run.isSome ∨ s.cores.any (fun (e : Nat × Core) => e.2.wait == some (.bar n)) = false then s
  else
    let s := s.setBar n { b with seq := (b.seq + 1) % 2 ^ 32 }
    s.barStart n { members := b.members, rank := b.rank, seq := b.seq }

/-- BAR: on a unit without a membership of the program's partition it releases at once, untimed (R360). -/
def barEff (c w : Nat) (s : State) : State :=
  let n := w % 16
  let b := s.bar n
  if b.holder ≠ some (cidPart (s.core c).cid) then ((s.put (Reg.TIME_BAR_STS.UNTIMED n) 1).countRelease n).exec1 c id
  else (s.modCore c (fun k => { k with wait := some (.bar n) })).barNext n

/-- BARRIER_RELEASE: the release slot has come. -/
def barReleaseEff (n : Nat) (s : State) : State :=
  match (s.bar n).run with
  | some r =>
    match r.release with
    | some t => if t ≤ s.slot then ((s.countRelease n).barEnd n 0).barNext n else s
    | none => s
  | none => s

/-- BARRIER_TIMEOUT: the timeout of a barrier INVOKE passes without a release (R359). -/
def barTimeoutEff (n : Nat) (s : State) : State :=
  match (s.bar n).run with
  | some r =>
    let limit := match r.coll with
      | some (q, pos) => ((s.colls.find? (fun c => c.queue == q && c.pos == pos)).map (fun (c : Coll) => leAt c.args 22 2)).getD 0
      | none => 0
    if limit = 0 ∨ r.release.isSome = true then s
    else if r.rank = 0 then (s.barSend n r none true).barNext n
    else ((s.emit (.barrierWithdrawal (r.members.getD 0 0) n r.seq r.rank)).barEnd n 0x31).barNext n
  | none => s

/-- BARRIER_WITHDRAWAL: a withdrawal reaches the coordinator. -/
def barWithdrawalEff (n seq : Nat) (s : State) : State :=
  let b := s.bar n
  ((s.setBar n { b with withdrawn := addTo b.withdrawn seq }).barCheck n).barNext n

/-- A partition's memberships and barriers go (R360). -/
def State.dropBars (s : State) (p : Nat) : State :=
  { s with bars := (s.bars.map (fun (e : Nat × BarUnit) =>
      let b := e.2
      let mine := match b.run with
        | some r => (match r.coll with
          | some (q, pos) => s.colls.any (fun c => c.queue == q && c.pos == pos && cidPart c.cid == p)
          | none => b.holder == some p)
        | none => false
      let b := if mine then { b with run := none } else b
      (e.1, if b.holder = some p then { b with holder := none, members := [], rank := 0, seq := 0 } else b))).filter (fun e => e.2 != {}) }

/-- A reduction descriptor is of a call: it carries the group's RID and the call's SEQ (R339, R346). -/
def Coll.names (x : Coll) (p : Nat) (rid seg : Nat) : Bool := p == cidPart x.cid && rid == 0xC000 + x.gid && seg / 2 ^ 20 == x.seq % 4096

/-- Every segment of a call is closed at its unit: posts not yet read are gone, and what the segments held is discarded (R356; that a failed one closes too:
DEDUCED, log 164). -/
def State.closeSegs (s : State) (x : Coll) : State :=
  (List.range 64).foldl (fun s k =>
    let y := s.cluster k
    let post (q : RedPost) : Bool := q.lib && x.names (cidPart q.cid) (redDesc q.desc).rid (redDesc q.desc).seg
    let seg (g : RedSeg) : Bool := g.lib && x.names g.part (redDesc g.desc).rid (redDesc g.desc).seg
    if y.redq.any post || y.segs.any seg then
      (s.setCluster k { y with redq := y.redq.filter (fun q => !post q), segs := y.segs.filter (fun g => !seg g) }).showRed k
    else s) s

/-- The collectives of some CIDs end without completions (R354). -/
def State.dropColls (s : State) (cid : Nat → Bool) : State :=
  let s := (s.colls.filter (fun c => cid c.cid)).foldl State.closeSegs s
  { s with colls := s.colls.filter (fun c => !cid c.cid) }

/-! Arguments (Table 12.3) -/

def Coll.op (x : Coll) : Nat := bits (leAt x.args 0 1) 0 4
def Coll.rop (x : Coll) : Nat := bits (leAt x.args 1 1) 0 2
def Coll.sel (x : Coll) : Bool := bitAt (leAt x.args 1 1) 2
def Coll.ifmt (x : Coll) : Nat := leAt x.args 2 1 % 16
def Coll.ofmt (x : Coll) : Nat := leAt x.args 2 1 / 16
def Coll.conv (x : Coll) : Nat := leAt x.args 2 1
def Coll.log2 (x : Coll) : Nat := leAt x.args 3 1
def Coll.length (x : Coll) : Nat := leAt x.args 16 4
def Coll.param (x : Coll) : Nat := leAt x.args 20 4
def Coll.srcOff (x : Coll) : Nat := leAt x.args 24 4
def Coll.dstOff (x : Coll) : Nat := leAt x.args 28 4
/-- SHIFT or PERMUTE. -/
def Coll.moves (x : Coll) : Bool := x.op ≤ 1
/-- Members. -/
def Coll.n (x : Coll) : Nat := x.members.length

/-- The rank whose source a destination of SHIFT or PERMUTE receives (Table 12.4). -/
def Coll.srcOf (x : Coll) (d : Nat) : Option Nat :=
  if x.op = 0 then some (((d : Int) - (BitVec.ofNat 32 x.param).toInt).emod x.n).toNat else x.perm.findIdx? (· == d)

/-- The destinations, ascending. -/
def Coll.dests (x : Coll) : List Nat :=
  match x.op with
  | 0 | 3 | 4 => List.range x.n
  | 1 => (List.range x.n).filter (fun d => (x.srcOf d).isSome)
  | 2 => [x.param % 1024]
  | _ => []

/-! Chunks (R346) -/

/-- Elements of a whole reduction chunk. -/
def Coll.chunkElems (x : Coll) : Nat := if isMx x.ifmt then 2 ^ x.log2 else 2 ^ x.log2 / (fmtBits x.ifmt / 8)

/-- Source bytes that are chunked: a part of REDUCE_SCATTER, else LENGTH. -/
def Coll.span (x : Coll) : Nat := if x.op = 3 then x.length / x.n else x.length

/-- Elements of a reduction's span. -/
def Coll.elems (x : Coll) : Nat := (streamCount x.ifmt x.span).getD 0

/-- Chunks per destination. -/
def Coll.chunks (x : Coll) : Nat := if x.moves then ceilDiv x.length (2 ^ x.log2) else ceilDiv x.elems x.chunkElems

/-- Elements of chunk c of a reduction. -/
def Coll.elemsOf (x : Coll) (c : Nat) : Nat := min x.chunkElems (x.elems - c * x.chunkElems)

/-- Offset and length of chunk c in a source range (of a part, in that part). -/
def Coll.srcRange (x : Coll) (c : Nat) : Nat × Nat :=
  if x.moves then (c * 2 ^ x.log2, min (2 ^ x.log2) (x.length - c * 2 ^ x.log2))
  else (streamBytes x.ifmt (c * x.chunkElems), streamBytes x.ifmt (x.elemsOf c))

/-- The cluster of a work item (R347). -/
def Coll.cluster (x : Coll) (j : Nat) : Nat :=
  let ks := setBitsOf x.mask 64
  ks.getD (j % max 1 ks.length) 0

/-- The conversion profile that serves chunk c of a source rank. -/
def State.collProfile (s : State) (x : Coll) (r c : Nat) : Profile := profileOf (s.profileWords (x.cluster (r * x.chunks + c)) x.conv)

/-- Result bytes of chunk c; none where a conversion rule fails. -/
def State.outLen (s : State) (x : Coll) (r c : Nat) : Option Nat :=
  if x.moves then
    if x.conv = 0 then some (x.srcRange c).2
    else
      let p := s.collProfile x r c
      if p.valid && p.part == cidPart x.cid && (p.kind == 1 || p.kind == 2) then convBytes p (x.srcRange c).2 else none
  else if isMx x.ofmt && x.elemsOf c % 512 != 0 then none
  else some (streamBytes x.ofmt (x.elemsOf c))

/-- The source rank that the destination's chunk lengths follow. -/
def Coll.lenRank (x : Coll) (d : Nat) : Nat := (x.srcOf d).getD 0

/-- Where chunk c starts in a destination range. -/
def State.outOff (s : State) (x : Coll) (d c : Nat) : Nat :=
  (List.range c).foldl (fun a i => a + (s.outLen x (x.lenRank d) i).getD 0) 0

/-! The checks before the first byte (R344) -/

/-- Read a member entry; none where a field is out of range. -/
def memberOf (b : List Byte) : Option Member :=
  let m : Member := {
    kind := bits (leAt b 0 1) 0 2, space := bits (leAt b 1 1) 0 2, qpn := leAt b 4 3, key := leAt b 8 4, fca := leAt b 12 4
    base := bits (leAt b 16 8) 0 52, sig := leAt b 24 4 }
  if 4 ≤ leAt b 0 1 ∨ m.kind = 3 ∨ 4 ≤ leAt b 1 1 ∨ leAt b 2 2 ≠ 0 ∨ leAt b 7 1 ≠ 0 ∨ 2 ^ 52 ≤ leAt b 16 8 ∨ leAt b 28 4 ≠ 0
      ∨ (m.kind = 0 ∧ m.space ≠ 1 ∧ m.space ≠ 2) ∨ (m.sig ≠ 0xFFFFFFFF ∧ m.sig % 8 ≠ 0) ∨ (m.kind = 2 ∧ m.fca % 1024 ≠ 0) then none
  else some m

/-- The arguments' own ranges. -/
def argsOk (a : List Byte) : Bool :=
  let op := leAt a 0 1
  op ≤ 5 && leAt a 1 1 < 16 && leAt a 8 8 < 2 ^ 52 && leAt a 8 8 % 64 == 0
    && (if op = 5 then leAt a 2 2 == 0 && leAt a 16 4 == 0 && bits (leAt a 20 4) 5 11 == 0
      else inRange (leAt a 3 1) 12 20 && leAt a 16 4 != 0
        && (op ≤ 1 || (leAt a 1 1 % 4 != 3 && redFmt (leAt a 2 1 % 16) && redFmt (leAt a 2 1 / 16)))
        && (op != 2 || leAt a 20 4 < 1024) && (op < 3 || leAt a 20 4 == 0))

/-- The header's own ranges. -/
def groupOk (b : List Byte) : Bool :=
  leAt b 0 4 == 0x47525031 && inRange (leAt b 4 2) 1 1024 && inRange (leAt b 6 1) 1 16 && leAt b 7 1 == 0 && leAt b 8 8 != 0
    && leAt b 16 8 < 2 ^ 52 && leAt b 16 8 % 2 ^ 20 == 0 && leAt b 28 2 < 2 ^ 14 && leAt b 30 2 == 0 && leAt b 32 8 < 2 ^ 52
    && leAt b 32 8 % 64 == 0 && zeroAt b 40 24

/-- A PERMUTE table: ranks below N or 0xFFFF, none twice. -/
def permOk (n : Nat) (t : List Nat) : Bool :=
  let named := t.filter (· != 0xFFFF)
  named.all (· < n) && named.eraseDups.length == named.length

/-- The ranges and queue pairs of the members that a call uses, and the length rules of R346. A REMOTE member's queue pair must be one of the
instance in RTS with a send queue (DEDUCED, log 88). -/
def State.membersOk (s : State) (x : Coll) : Bool :=
  let p := cidPart x.cid
  let srcs := if x.op = 1 then (List.range x.n).filter (fun r => x.perm.getD r 0xFFFF != 0xFFFF) else List.range x.n
  let local_ (m : Member) (off n : Nat) : Bool := n == 0 || s.winRangeOk p m.space (m.base + off) (m.base + off + n - 1)
  let remote (m : Member) : Bool := match s.qp? m.qpn with
    | some q => q.ctx.cid == x.cid && q.ctx.state == 3 && q.ctx.sq != 0
    | none => false
  let mem (r : Nat) : Member := x.members.getD r ⟨3, 0, 0, 0, 0, 0, 0⟩
  (srcs ++ x.dests).all (fun r => (mem r).kind == 0 || ((mem r).kind == 1 && remote (mem r)))
    && srcs.all (fun r => (mem r).kind != 0 || local_ (mem r) x.srcOff x.length)
    && x.dests.all (fun d => (mem d).kind != 0 || (local_ (mem d) x.dstOff (s.outOff x d x.chunks)
      && ((mem d).sig == 0xFFFFFFFF || local_ (mem d) (mem d).sig 8)))

/-- The size of a place in staging: the larger of one chunk's source and result bytes (R344). -/
def State.stageUnit (s : State) (x : Coll) : Nat :=
  x.dests.foldl (fun a d => max a (max (x.srcRange 0).2 ((s.outLen x (x.lenRank d) 0).getD 0))) 0

/-- The chunk rules and the staging size. -/
def State.chunksOk (s : State) (x : Coll) (stage mib : Nat) : Bool :=
  let shape :=
    if x.moves then (x.dests.all (fun d => (List.range x.chunks).all (fun c => (s.outLen x (x.lenRank d) c).isSome)))
    else (x.op != 3 || x.length % x.n == 0) && (streamCount x.ifmt x.span).isSome && (streamCount x.ifmt x.length).isSome
      && (List.range x.chunks).all (fun c => (s.outLen x 0 c).isSome) && ceilDiv (if x.op = 3 then x.n * x.elems else x.elems) 1024 < 2 ^ 20
  shape && x.depth * (x.n + 1) * s.stageUnit x ≤ mib * 2 ^ 20 && (mib == 0 || s.inRegion (cidPart x.cid) stage (mib * 2 ^ 20))

/-- What the checks answer: wait for a memory, a status, or the call. -/
inductive CollStart where
  | wait
  | fail (st : Nat)
  | ok (x : Coll)
  deriving DecidableEq, Repr

/-- Status of a memory error at a table of the posting partition. -/
def tableStatus : MemErr → CollStart
  | .wait => .wait
  | .ue => .fail 0x40
  | .cid => .fail 0x10

/-- Read and check the group and the arguments of a call (R340 to R344). -/
def State.collCheck (s : State) (n : Nat) (q : Queue) (l : Live) : State × CollStart :=
  let a := slice l.bytes 32 32
  let g := leAt a 8 8
  let p := cidPart q.cid
  if !argsOk a || !s.inRegion p g 64 then (s, .fail 0x10)
  else match s.memReadC q.cid 1 g 64 with
  | (s, .error e) => (s, tableStatus e)
  | (s, .ok h) =>
    let cnt := leAt h 4 2
    if !groupOk h || !s.inRegion p g (64 + 32 * cnt) || !s.inRegion p (leAt h 32 8) 64 then (s, .fail 0x10)
    else match s.memReadC q.cid 1 (g + 64) (32 * cnt) with
    | (s, .error e) => (s, tableStatus e)
    | (s, .ok t) =>
      let ms := (List.range cnt).map (fun r => memberOf (slice t (32 * r) 32))
      if ms.any Option.isNone then (s, .fail 0x10)
      else
        let x : Coll := {
          queue := n, pos := l.pos, cid := q.cid, args := a, depth := leAt h 6 1, mask := leAt h 8 8, gid := leAt h 28 2, status := leAt h 32 8
          members := ms.filterMap id, stage := leAt h 16 8, ftStart := s.time.ftNs }
        let twin := s.colls.any (fun c => cidPart c.cid == p && c.gid == x.gid && c.seq % 4096 == x.seq % 4096)
        if twin then (s, .fail 0x10)
        else if x.op = 5 then
          if x.members.all (fun m => m.kind == 2)
              && (x.members.filter (fun m => devOf m.fca == devOf s.selfFca)).length == 1 then (s, .ok x)
          else (s, .fail 0x10)
        else if x.op = 2 ∧ x.n ≤ x.param then (s, .fail 0x10)
        else
          let (s, perm) : State × Except MemErr (List Byte) :=
            if x.op = 1 then (if s.inRegion p g (x.param + 2 * cnt) then s.memReadC q.cid 1 (g + x.param) (2 * cnt) else (s, .error .cid))
            else (s, .ok [])
          match perm with
          | .error e => (s, tableStatus e)
          | .ok t =>
            let x := { x with perm := if x.op = 1 then (List.range cnt).map (fun r => leAt t (2 * r) 2) else [] }
            if permOk cnt x.perm && s.membersOk x && s.chunksOk x (leAt h 16 8) (leAt h 24 4) then (s, .ok x) else (s, .fail 0x10)

/-! Transfers on queue pairs (R342) -/

/-- The call fails, by its first failure. -/
def State.collFailed (s : State) (x : Coll) (st rank : Nat) : State :=
  s.modColl x.queue x.pos (fun c => if c.failed.isNone then { c with failed := some (st, rank) } else c)

/-- A queue pair can take a collective transfer now: it may send and has sent the first packet of every entry it has. -/
def State.collIdle (s : State) (q : Nat) : Bool :=
  match s.qp? q with
  | some y => y.sends && y.ctx.state == 3 && !y.ctx.resyncPend && !s.held.any (fun h => h.1 == q) && (s.txLives y.ctx).all (·.issued)
  | none => false

/-- The entry of a transfer: a WRITE (3) or READ (5), or a FETCH_ADD (7) of an increment. -/
def collEntry (op : Nat) (m : Member) (addr inc : Nat) : List Byte :=
  [BitVec.ofNat 8 op, 0, 0, 0] ++ leBytes 3 m.qpn ++ [0]
    ++ (if op = 7 then List.replicate 20 0 ++ leBytes 4 m.key ++ leBytes 8 0 ++ leBytes 8 addr ++ leBytes 8 inc ++ leBytes 8 0
      else List.replicate 36 0 ++ leBytes 4 m.key ++ leBytes 8 addr ++ leBytes 8 0)

/-- Start a transfer on a member's queue pair; it waits where the pair cannot take one, and the call fails where the pair has left RTS. -/
def State.collSend (s : State) (x : Coll) (what rank key chunk op addr len inc : Nat) (data : List Byte) : State :=
  let m := x.members.getD rank ⟨3, 0, 0, 0, 0, 0, 0⟩
  match s.qp? m.qpn with
  | none => s.collFailed x 1 rank
  | some y =>
    if y.ctx.state ≠ 3 then (if y.ctx.state = 7 then s else s.collFailed x 1 rank)
    else if !s.collIdle m.qpn then s
    else match s.queue? y.ctx.sq with
      | none => s.collFailed x 1 rank
      | some w =>
        let id := s.collNext
        let first := s.nextFirst y.ctx
        let l : Live := {
          pos := 2 ^ 40 + id, bytes := collEntry op m addr inc, opcode := op, len := len, t0 := s.time.ftNs, coll := some id, data := data
          first := first }
        let l := { l with last := psnAdd first (l.psns y.ctx - 1) }
        let s := { (s.setQueue y.ctx.sq { w with live := w.live ++ [l] }) with collNext := id + 1 }
        (s.modColl x.queue x.pos (fun c => { c with xfers := c.xfers ++ [⟨id, what, rank, key, chunk⟩] })).pump m.qpn

/-- Change the job of a result and chunk. -/
def Coll.modJob (x : Coll) (key c : Nat) (f : CollJob → CollJob) : Coll :=
  { x with jobs := x.jobs.map (fun j => if j.key = key ∧ j.chunk = c then f j else j) }

/-- The job of a result and chunk. -/
def Coll.job? (x : Coll) (key c : Nat) : Option CollJob := x.jobs.find? (fun j => j.key == key && j.chunk == c)

/-- Ranks whose contribution is fetched. -/
def Coll.remotes (x : Coll) : List Nat := (List.range x.n).filter (fun r => (x.members.getD r ⟨3, 0, 0, 0, 0, 0, 0⟩).kind == 1)

/-- The address in staging of place i of a job. -/
def State.stageAt (s : State) (x : Coll) (j : CollJob) (i : Nat) : Nat := x.stage + j.slots.getD i 0 * s.stageUnit x

/-- A fetched contribution is written to its place in staging (R348), once the memory takes it. -/
def State.collFetched (s : State) (x : Coll) (t : CollXfer) (e : CollEnd) : State :=
  match x.job? t.key t.chunk with
  | none => s
  | some j =>
    match s.memWriteC x.cid 1 (s.stageAt x j (1 + x.remotes.idxOf t.rank)) e.data with
    | (s, .ok _) => s.modColl x.queue x.pos (fun c => c.modJob t.key t.chunk (fun j => { j with fetched := j.fetched ++ [t.rank] }))
    | (s, .error .wait) => { s.modColl x.queue x.pos (fun c => { c with xfers := c.xfers ++ [t] }) with collEnds := s.collEnds ++ [e] }
    | (s, .error err) => s.collFailed x (errStatus err) t.rank

/-- One ended transfer (R355, R356): a transfer that a resend touched is issued again. -/
def State.absorbXfer (s : State) (e : CollEnd) : State :=
  match s.colls.find? (fun c => c.xfers.any (fun t => t.id == e.id)) with
  | none => s
  | some x =>
    match x.xfers.find? (fun t => t.id == e.id) with
    | none => s
    | some t =>
      let s := s.modColl x.queue x.pos (fun c => { c with xfers := c.xfers.filter (fun u => u.id != e.id) })
      if e.status ≠ 0 then s.collFailed x e.status t.rank
      else if t.what = 2 then s
      else if e.hurt then s.modColl x.queue x.pos (fun c => { c with late := if c.late.contains (t.key, t.chunk) then c.late else c.late ++ [(t.key, t.chunk)] })
      else if t.what = 1 then s.modColl x.queue x.pos (fun c => { c with visible := c.visible ++ [(t.rank, t.chunk)] })
      else if x.moves then s.modColl x.queue x.pos (fun c => { c with reads := c.reads ++ [((t.rank, t.key, t.chunk), e.data)] })
      else s.collFetched x t e

/-- Segments of a part, and of a chunk but the last (R346). -/
def Coll.partSegs (x : Coll) : Nat := ceilDiv x.elems 1024
/-- The number of the first segment of a chunk. -/
def Coll.segBase (x : Coll) (key c : Nat) : Nat := key * x.partSegs + c * (x.chunkElems / 1024)
/-- Segments of a chunk. -/
def Coll.segCount (x : Coll) (c : Nat) : Nat := ceilDiv (x.elemsOf c) 1024

/-- The job and the segment within it that a segment's number names. -/
def Coll.segJob? (x : Coll) (g : Nat) : Option CollJob :=
  x.jobs.find? (fun j => x.segBase j.key j.chunk ≤ g && g < x.segBase j.key j.chunk + x.segCount j.chunk)

/-- What a unit told of one segment (R348, R356). -/
def State.absorbSeg (s : State) (e : RedEnd) : State :=
  match s.colls.find? (fun x => x.names e.part e.rid e.seg) with
  | none => s
  | some x =>
    if e.status ≠ 0 then s.collFailed x e.status e.rank
    else
      let g := e.seg % 2 ^ 20
      match x.segJob? g with
      | none => s
      | some j => s.modColl x.queue x.pos (fun c => c.modJob j.key j.chunk (fun j => { j with
          done := addTo j.done (g - x.segBase j.key j.chunk), posted := j.posted.filter (fun q => q.1 != g - x.segBase j.key j.chunk) }))

/-- Take in the ends of transfers and of segments. -/
def State.collAbsorb (s : State) : State :=
  let s := s.collEnds.foldl State.absorbXfer { s with collEnds := [] }
  s.redEnds.foldl State.absorbSeg { s with redEnds := [] }

/-! Chunks of SHIFT and PERMUTE -/

/-- The result a chunk belongs to: a destination's own, or one for all of REDUCE and ALL_REDUCE. -/
def Coll.resKey (x : Coll) (d : Nat) : Nat := if x.moves || x.op = 3 then d else 0

/-- The Drover that moves a work item is fenced (R347, 02 R41): the item waits. -/
def State.itemBarred (s : State) (x : Coll) (r c : Nat) : Bool := s.disabled ⟨.drover, x.cluster (r * x.chunks + c), 0⟩

/-- The source bytes of a chunk, read or fetched: none while they are on their way. -/
def State.collSource (s : State) (x : Coll) (d c r : Nat) : State × Option (List Byte) :=
  let m := x.members.getD r ⟨3, 0, 0, 0, 0, 0, 0⟩
  let (o, n) := x.srcRange c
  let a := m.base + x.srcOff + o
  if m.kind = 0 then
    match s.memReadC x.cid m.space a n with
    | (s, .ok bs) => (s, some bs)
    | (s, .error .wait) => (s, none)
    | (s, .error e) => (s.collFailed x (errStatus e) r, none)
  else match x.reads.find? (fun (e : (Nat × Nat × Nat) × List Byte) => e.1 == (r, d, c)) with
    | some e => (s, some e.2)
    | none => (if x.xfers.any (fun t => t.what == 0 && t.rank == r && t.key == d && t.chunk == c) then s else s.collSend x 0 r d c 5 a n 0 [], none)

/-- The bytes that a chunk delivers, converted once (R345). -/
def State.collMoved (s : State) (x : Coll) (d c : Nat) : State × Option (List Byte) :=
  match x.results.find? (fun (e : (Nat × Nat) × List Byte) => e.1 == (d, c)), x.srcOf d with
  | some e, _ => (s, some e.2)
  | none, none => (s, none)
  | none, some r =>
    if s.itemBarred x r c then (s, none)
    else match s.collSource x d c r with
      | (s, none) => (s, none)
      | (s, some b) =>
        let bs := if x.conv = 0 then b else convertBytes (s.collProfile x r c) b
        (s.modColl x.queue x.pos (fun y => { y with results := y.results ++ [((d, c), bs)] }), some bs)

/-! Chunks of reductions (R346 to R349, R352) -/

/-- The destinations of a result. -/
def Coll.keyDests (x : Coll) (key : Nat) : List Nat := x.dests.filter (fun d => x.resKey d == key)

/-- The results of a call. -/
def Coll.keys (x : Coll) : List Nat := if x.op = 3 then List.range x.n else [0]

/-- The chunks of a result that its slowest destination has counted. -/
def Coll.counted (x : Coll) (key : Nat) : Nat :=
  (x.keyDests key).foldl (fun m d => min m (x.counts.getD d 0)) x.chunks

/-- A job takes its places in staging, all at once, the lowest that are free; where they do not suffice the chunk waits (DESIGN CHOICE, log 164). -/
def Coll.openJob (x : Coll) (key c : Nat) : Coll :=
  let used := x.jobs.flatMap (·.slots)
  let free := ((List.range (x.depth * (x.n + 1))).filter (fun i => !used.contains i)).take (x.remotes.length + 1)
  if (x.job? key c).isSome ∨ free.length < x.remotes.length + 1 then x else { x with jobs := x.jobs ++ [{ key := key, chunk := c, slots := free }] }

/-- The order in which contributions are posted in default mode: `order`, where it is one of all ranks. -/
def Coll.order (x : Coll) (order : List Nat) : List Nat :=
  if order.length == x.n && (List.range x.n).all order.contains then order else List.range x.n

/-- Where the contribution of a rank to segment i of a job stands, with its space in [53:52]: in its buffer, or in staging once it is fetched. -/
def State.segSource (s : State) (x : Coll) (j : CollJob) (i r : Nat) : Option Nat :=
  let m := x.members.getD r ⟨3, 0, 0, 0, 0, 0, 0⟩
  let o := streamBytes x.ifmt (1024 * i)
  if m.kind = 0 then
    some (m.space * 2 ^ 52 + (m.base + x.srcOff + (x.srcRange j.chunk).1 + (if x.op = 3 then j.key * x.span else 0) + o) % 2 ^ 52)
  else if j.fetched.contains r then some (2 ^ 52 + (s.stageAt x j (1 + x.remotes.idxOf r) + o) % 2 ^ 52)
  else none

/-- The descriptor of a contribution (11 Table 11.3; R339, R346, R348). -/
def State.segDesc (s : State) (x : Coll) (j : CollJob) (i r src : Nat) : List Byte :=
  leBytes 8 src ++ leBytes 8 (2 ^ 52 + (s.stageAt x j 0 + streamBytes x.ofmt (1024 * i)) % 2 ^ 52) ++ leBytes 2 (0xC000 + x.gid) ++ leBytes 2 x.n
    ++ leBytes 2 r ++ leBytes 2 (x.rop + 4 * b2n x.sel + 16 * b2n (bitAt (leAt x.args 1 1) 3)) ++ leBytes 1 x.conv ++ leBytes 1 0
    ++ leBytes 2 (min 1024 (x.elemsOf j.chunk - 1024 * i)) ++ leBytes 4 (x.seq % 4096 * 2 ^ 20 + x.segBase j.key j.chunk + i) ++ List.replicate 32 0

/-- The library posts a contribution to segment i of a job once its data stands, in exact mode in the order of ranks, and only where it fills no queue with
descriptors that wait: the first of a segment while no other segment of the call waits unopened at the unit, later ones once the segment is open or has a
place (11 R320; the policy: DESIGN CHOICE, log 164). -/
def State.mayPost (s : State) (x : Coll) (j : CollJob) (i r c : Nat) : Bool :=
  let k := c / 64
  let p := cidPart x.cid
  let seg := x.seq % 4096 * 2 ^ 20 + x.segBase j.key j.chunk + i
  let y := s.cluster k
  let isSeg (d : RedDesc) : Bool := d.rid == 0xC000 + x.gid && d.seg == seg
  let before := (j.posted.filter (fun q => q.1 == i)).length
  let open? := y.segs.find? (fun g => g.part == p && isSeg (redDesc g.desc))
  let exact := match open? with
    | some g => g.exact
    | none => s.flag Reg.GLB_CTL.EXACT
  let idle := !y.redq.any (fun q => q.lib && x.names (cidPart q.cid) (redDesc q.desc).rid (redDesc q.desc).seg
    && !isSeg (redDesc q.desc) && !y.segs.any (fun g => g.names p (redDesc q.desc)))
  let place := match s.redPlace k p (bitAt (leAt x.args 1 1) 3) with
    | .slot | .spill => true
    | _ => false
  !s.redFull c && !j.posted.contains (i, r) && !j.done.contains i && (!exact || r == before) && (open?.isSome || (idle && (before == 0 || place)))

/-- Post what can be posted to segment i of a job, on a service core of the segment's cluster (R347, R348). -/
def State.segPosts (s : State) (n pos : Nat) (order : List Nat) (key chunk i : Nat) : List Nat → State
  | [] => s
  | r :: rs =>
    match s.colls.find? (fun x => x.queue == n && x.pos == pos) with
    | none => s
    | some x =>
      match x.job? key chunk, s.serviceOf? (x.cluster (x.segBase key chunk + i)) with
      | some j, some c =>
        match s.segSource x j i r with
        | some src =>
          if s.mayPost x j i r c then
            ((s.redPost { core := c, cid := x.cid, desc := s.segDesc x j i r src, lib := true }).modColl n pos (fun y =>
              y.modJob key chunk (fun j => { j with posted := j.posted ++ [(i, r)] }))).segPosts n pos order key chunk i rs
          else s.segPosts n pos order key chunk i rs
        | none => s.segPosts n pos order key chunk i rs
      | _, _ => s

/-- Fetch the REMOTE contributions of a job that are not fetched or under way (R348). -/
def State.collFetch (s : State) (n pos key chunk : Nat) : State :=
  match s.colls.find? (fun x => x.queue == n && x.pos == pos) with
  | none => s
  | some x =>
    match x.job? key chunk with
    | none => s
    | some j =>
      let (o, len) := x.srcRange chunk
      x.remotes.foldl (fun s r =>
        if j.fetched.contains r || x.xfers.any (fun t => t.what == 0 && t.rank == r && t.key == key && t.chunk == chunk) then s
        else s.collSend x 0 r key chunk 5 ((x.members.getD r ⟨3, 0, 0, 0, 0, 0, 0⟩).base + x.srcOff + o + (if x.op = 3 then key * x.span else 0)) len 0 []) s

/-- A chunk of a result goes on: it takes its places in staging, its contributions are fetched and posted. -/
def State.collJob (s : State) (n pos : Nat) (order : List Nat) (key chunk : Nat) : State :=
  let s := (s.modColl n pos (fun x => x.openJob key chunk)).collFetch n pos key chunk
  match s.colls.find? (fun x => x.queue == n && x.pos == pos) with
  | none => s
  | some x =>
    let ranks := if s.flag Reg.GLB_CTL.EXACT then List.range x.n else x.order order
    (List.range (x.segCount chunk)).foldl (fun s i => s.segPosts n pos order key chunk i ranks) s

/-- The result of a chunk, read from staging once every segment of it stands there (R349). -/
def State.collResult (s : State) (x : Coll) (d c : Nat) : State × Option (List Byte) :=
  match x.job? (x.resKey d) c with
  | none => (s, none)
  | some j =>
    if j.done.length < x.segCount c then (s, none)
    else match s.memReadC x.cid 1 (s.stageAt x j 0) ((s.outLen x 0 c).getD 0) with
      | (s, .ok bs) => (s, some bs)
      | (s, .error .wait) => (s, none)
      | (s, .error e) => (s.collFailed x (errStatus e) d, none)

/-! Delivery -/

/-- Move a chunk of a destination on: its bytes are written to the destination once they stand. -/
def State.collMove (s : State) (n pos : Nat) (d c : Nat) : State :=
  match s.colls.find? (fun x => x.queue == n && x.pos == pos) with
  | none => s
  | some x =>
    if x.failed.isSome || x.visible.contains (d, c) || x.xfers.any (fun t => t.what == 1 && t.rank == d && t.chunk == c) then s
    else match (if x.moves then s.collMoved x d c else s.collResult x d c) with
      | (s, none) => s
      | (s, some bs) =>
        let m := x.members.getD d ⟨3, 0, 0, 0, 0, 0, 0⟩
        let a := m.base + x.dstOff + s.outOff x d c
        if m.kind = 0 then
          match s.memWriteC x.cid m.space a bs with
          | (s, .ok _) => s.modColl n pos (fun y => { y with visible := y.visible ++ [(d, c)] })
          | (s, .error .wait) => s
          | (s, .error e) => s.collFailed x (errStatus e) d
        else s.collSend x 1 d (x.resKey d) c 3 a bs.length 0 bs

/-- Move on every chunk in flight of a call: at most DEPTH per destination, counted to its increment; a reduction chunk counts against each of its
destinations (R352). -/
def State.collFeed (s : State) (n pos : Nat) (order : List Nat) : State :=
  match s.colls.find? (fun x => x.queue == n && x.pos == pos) with
  | none => s
  | some x =>
    if x.failed.isSome then s
    else
      let s := if x.moves then s
        else x.keys.foldl (fun s key =>
          (List.range (min x.depth (x.chunks - x.counted key))).foldl (fun s i => s.collJob n pos order key (x.counted key + i)) s) s
      x.dests.foldl (fun s d =>
        let c0 := x.counts.getD d 0
        (List.range (min x.depth (x.chunks - c0))).foldl (fun s i => s.collMove n pos d (c0 + i)) s) s

/-- The increment of a destination's next chunk, once that chunk is visible (R350). A destination without a signal word counts its chunk. -/
def State.collIncrement (s : State) (x : Coll) (d : Nat) : State :=
  let c := x.counts.getD d 0
  let m := x.members.getD d ⟨3, 0, 0, 0, 0, 0, 0⟩
  let done (k : Nat) (s : State) : State := s.modColl x.queue x.pos (fun y =>
    let y := { y with counts := y.counts.set d (c + 1), incs := y.incs + k, visible := y.visible.filter (· != (d, c)) }
    { y with
      results := y.results.filter (fun (e : (Nat × Nat) × List Byte) => e.1 != (d, c))
      reads := y.reads.filter (fun (e : (Nat × Nat × Nat) × List Byte) => (e.1.2.1, e.1.2.2) != (d, c))
      jobs := y.jobs.filter (fun j => y.counted j.key ≤ j.chunk) })
  if !x.visible.contains (d, c) then s
  else if m.sig = 0xFFFFFFFF then done 0 s
  else if m.kind = 0 then
    match s.wordAdd x.cid m.space (m.base + m.sig) 1 with
    | (s, .ok _) => done 1 s
    | (s, .error .wait) => s
    | (s, .error e) => s.collFailed x (errStatus e) d
  else
    let was := s.collNext
    let s := s.collSend x 2 d d c 7 (m.base + m.sig) 8 1 []
    if s.collNext = was then s else done 1 s

/-! The rows -/

/-- A collective INVOKE of an operation begins (R338, R343, R344). -/
def collStartEff (op : Nat) (n : Nat) (order : List Nat) (seen : Seen) (s : State) : State :=
  match s.queue? n with
  | none => s
  | some q =>
    match q.live.find? (fun l => l.opcode == 0x11 && l.issued && l.done.isNone && isCollective (leAt l.bytes 28 4)
        && !s.colls.any (fun c => c.queue == n && c.pos == l.pos)) with
    | none => s
    | some l =>
      let a := slice l.bytes 32 32
      let setup := bitAt (leAt a 20 4) 4
      if (s.homeCore? n).isNone then s
      else if (if op = 6 then leAt a 0 1 ≠ 5 ∨ setup = false else if op = 5 then leAt a 0 1 = 5 ∧ setup = true ∨ leAt a 0 1 < 5 else leAt a 0 1 ≠ op) then s
      else match (s.see seen).collAbsorb.collCheck n q l with
        | (s, .wait) => s
        | (s, .fail st) => s.endEntry n l.pos st
        | (s, .ok x) =>
          if x.op ≠ 5 then ({ s with colls := s.colls ++ [x] }).collFeed n l.pos order
          else
            let u := x.param % 16
            let b := s.bar u
            let fcas := x.members.map (·.fca)
            let rank := (fcas.findIdx? (fun f => devOf f == devOf s.selfFca)).getD 0
            let p := cidPart x.cid
            if setup then
              if b.holder.isSome ∧ b.holder ≠ some p then s.endEntry n l.pos 0x10
              else (s.setBar u { b with holder := some p, members := fcas, rank := rank, seq := x.seq }).endColl x 0 0 false false
            else if b.run.isSome then s
            else ({ s with colls := s.colls ++ [x] }).barStart u { members := fcas, rank := rank, seq := x.seq, coll := some (n, l.pos) }

/-- CHUNK_SIGNAL: transfers of the i-th running collective go on, and the next chunk of a destination is signalled once it is visible. -/
def chunkSignalEff (i d : Nat) (order : List Nat) (seen : Seen) (s : State) : State :=
  let s := (s.see seen).collAbsorb
  match s.colls[i]? with
  | none => s
  | some x =>
    if x.op = 5 ∨ (s.homeCore? x.queue).isNone = true then s
    else
      let s := if x.failed.isSome || !x.dests.contains d || x.chunks ≤ x.counts.getD d 0 then s else s.collIncrement x d
      s.collFeed x.queue x.pos order

/-- COLLECTIVE_COMPLETE: every increment of the i-th running collective has been issued (R354). -/
def collCompleteEff (i : Nat) (s : State) : State :=
  let s := s.collAbsorb
  match s.colls[i]? with
  | none => s
  | some x =>
    if x.op ≠ 5 ∧ x.failed.isNone = true ∧ (s.homeCore? x.queue).isSome = true ∧ x.dests.all (fun d => x.chunks ≤ x.counts.getD d 0) = true then s.endColl x 0 0 false false else s

/-- COLLECTIVE_FAIL: a failed call signals its failure to every destination it can still reach, closes its segments, and ends (R356). -/
def collFailEff (i : Nat) (s : State) : State :=
  let s := s.collAbsorb
  match s.colls[i]? with
  | none => s
  | some x =>
    match x.failed with
    | none => s
    | some (st, rank) =>
      let s := x.dests.foldl (fun s d =>
        let m := x.members.getD d ⟨3, 0, 0, 0, 0, 0, 0⟩
        if m.sig = 0xFFFFFFFF then s
        else if m.kind = 0 then (s.wordAdd x.cid m.space (m.base + m.sig) (2 ^ 32)).1
        else s.collSend x 2 d d 0 7 (m.base + m.sig) 8 (2 ^ 32) []) s
      (s.closeSegs x).endColl x st rank false false

def execBarrierArrival (unit : Fin 16) (seq : Word) (rank : Fin 1024) (slot : BitVec 64) (state : Fin 5) (s : State) : Answer :=
  .next ((s.barArrive unit.val { seq := seq.toNat, rank := rank.val, slot := slot.toNat, state := state.val }).barNext unit.val)
def execBarrierReleaseReceive (unit : Fin 16) (seq : Word) (slot : Option (BitVec 64)) (failed : Bool) (s : State) : Answer :=
  .next ((s.barRelease unit.val seq.toNat (slot.map (·.toNat)) failed).barNext unit.val)
def execBarrierRelease (unit : Fin 16) (s : State) : Answer := .next (barReleaseEff unit.val s)
def execBarrierTimeout (unit : Fin 16) (s : State) : Answer := .next (barTimeoutEff unit.val s)
def execBarrierWithdrawal (unit : Fin 16) (seq : Word) (s : State) : Answer := .next (barWithdrawalEff unit.val seq.toNat s)
def execBar (core : CoreId) (s : State) : Answer := .next (s.issue core.val .bar (barEff core.val))
def execShift (queue : BitVec 20) (seen : Seen) (s : State) : Answer := .next (collStartEff 0 queue.toNat [] seen s)
def execPermute (queue : BitVec 20) (seen : Seen) (s : State) : Answer := .next (collStartEff 1 queue.toNat [] seen s)
def execReduce (queue : BitVec 20) (order : List Nat) (seen : Seen) (s : State) : Answer := .next (collStartEff 2 queue.toNat order seen s)
def execReduceScatter (queue : BitVec 20) (order : List Nat) (seen : Seen) (s : State) : Answer := .next (collStartEff 3 queue.toNat order seen s)
def execAllReduce (queue : BitVec 20) (order : List Nat) (seen : Seen) (s : State) : Answer := .next (collStartEff 4 queue.toNat order seen s)
def execBarrier (queue : BitVec 20) (seen : Seen) (s : State) : Answer := .next (collStartEff 5 queue.toNat [] seen s)
def execBarrierSetup (queue : BitVec 20) (seen : Seen) (s : State) : Answer := .next (collStartEff 6 queue.toNat [] seen s)
def execChunkSignal (coll : Nat) (rank : Fin 1024) (order : List Nat) (seen : Seen) (s : State) : Answer :=
  .next (chunkSignalEff coll rank.val order seen s)
def execCollectiveComplete (coll : Nat) (s : State) : Answer := .next (collCompleteEff coll s)
def execCollectiveFail (coll : Nat) (s : State) : Answer := .next (collFailEff coll s)

end Sys2Proof.Machine
end

