-- ==== Sys2Proof/Machine/Partitions.lean ====
section
/-! DEFINITION. The partition life, holdings, instances, host loss, orphans, function-level reset (09_partitions_instances_migration.md
R242 to R259, 08_host_interface_and_work_queues.md R208, R209). -/

namespace Sys2Proof.Machine

/-! Showing who holds what -/

/-- CLUSTER_CORE_STS.PARTITION of a cluster's cores follows PART_CORES. -/
def State.showHolders (s : State) (k : Nat) : State :=
  (List.range 64).foldl (fun s n =>
    s.put (Reg.CLUSTER_CORE_STS.PARTITION k n) (((s.coreOwner? (64 * k + n)).getD 0))) s

/-- The instances of a partition that are not FREE. -/
def State.instsOf (s : State) (p : Nat) : List Nat := (List.range 1023).filter (fun i => s.instPart? i == some p)

/-- PART_STS.INSTANCES. -/
def State.showInsts (s : State) (p : Nat) : State := s.put (Reg.PART_STS.INSTANCES p) (s.instsOf p).length

/-- Logical cores that a partition holds. -/
def State.coresOf (s : State) (p : Nat) : List Nat := (List.range 4096).filter (s.holdsCore p)

/-! Holdings (R246 to R249) -/

/-- The registers of Table 9.2 that lie in the PART block: offset from its base. -/
def holdingOff (off : Nat) : Bool :=
  (0x81000 ≤ off && off < 0x82000 && 0xC ≤ off % 0x40) || (0x82000 ≤ off && off < 0x85000) || (0x90000 ≤ off && off < 0x98000)

/-- The partition whose holding a register gives. -/
def holdingPart (off : Nat) : Nat :=
  if off < 0x82000 then (off - 0x81000) / 0x40
  else if off < 0x84000 then (off - 0x82000) / 0x80
  else if off < 0x85000 then (off - 0x84000) / 0x40
  else (off - 0x90000) / 0x200

/-- PART_CORES words of the partition break no rule of R247: no service core (10 R267), no core of another partition, no cluster outside the
owner's mask. -/
def State.coresOk (s : State) (p : Nat) : Bool :=
  let h := s.owner p
  (List.range 64).all (fun k =>
    let lo := s.reg (Reg.PART_CORES_LO.off p k)
    let hi := s.reg (Reg.PART_CORES_HI.off p k)
    let mask := if k < 32 then s.flag ((Reg.PART_HOST_CLUSTERS_LO.CLUSTERS h).bit k) else s.flag ((Reg.PART_HOST_CLUSTERS_HI.CLUSTERS h).bit (k - 32))
    (lo == 0 && hi == 0) || (mask && lo.toNat % 256 == 0 && (List.range 64).all (fun q => q == p
      || ((lo &&& s.reg (Reg.PART_CORES_LO.off q k)) == 0 && (hi &&& s.reg (Reg.PART_CORES_HI.off q k)) == 0))))

/-- PART_KEYS breaks no rule of R247. -/
def State.keysOk (s : State) (p : Nat) : Bool :=
  let b := s.get (Reg.PART_KEYS.BASE p)
  let n := s.get (Reg.PART_KEYS.NUM p)
  b + n ≤ 4096 && (List.range 64).all (fun q => q == p || !overlap b n (s.get (Reg.PART_KEYS.BASE q)) (s.get (Reg.PART_KEYS.NUM q)))

/-- The AV table lies wholly inside one DDR region of the partition; a table of no vector lies anywhere (DEDUCED, log 80). -/
def State.avOk (s : State) (p : Nat) : Bool :=
  let n := s.get (Reg.PART_AV_NUM.NUM p)
  n == 0 || s.inRegion p (s.pair (Reg.PART_AV_BASE_LO.ADDR_LO p) (Reg.PART_AV_BASE_HI.ADDR_HI p)) (64 * n)

/-- First and last byte of an aperture as its registers hold them. -/
def State.apertureEnds (s : State) (p n : Nat) : Nat × Nat :=
  (s.pair (Reg.PART_APT_BASE_LO.BASE_LO p n) (Reg.PART_APT_BASE_HI.BASE_HI p n),
   s.pair (Reg.PART_APT_LIMIT_LO.LIMIT_LO p n) (Reg.PART_APT_LIMIT_HI.LIMIT_HI p n) + 0xFFF)

/-- The valid apertures break no rule of R247. -/
def State.aperturesOk (s : State) (p : Nat) : Bool :=
  let ends (q : Nat) : List (Nat × Nat) :=
    ((List.range 8).filter (fun n => s.flag (Reg.PART_APT_BASE_LO.VALID q n))).map (s.apertureEnds q)
  let others := ((List.range 64).filter (fun q => q != p && s.owner q == s.owner p)).flatMap ends
  (ends p).all (fun (a : Nat × Nat) => a.1 ≤ a.2 && others.all (fun (b : Nat × Nat) => !(a.1 ≤ b.2 && b.1 ≤ a.2)))

/-- Gate entries that entries with WHOLE 0 take of a port, summed over all partitions. -/
def State.gatesTaken (s : State) (port : Nat) : Nat :=
  (List.range 64).foldl (fun a q => ((s.shares q).filter (fun n => s.get (Reg.PART_PSHARE.PORT q n) == port && !s.flag (Reg.PART_PSHARE.WHOLE q n))).foldl
    (fun a n => a + s.get (Reg.PART_PSHARE.GATES q n)) a) 0

/-- Two entries of different partitions clash: one is WHOLE on the other's port, or both give one class of one sub-port. -/
def State.sharesClash (s : State) (p m q n : Nat) : Bool :=
  s.get (Reg.PART_PSHARE.PORT p m) == s.get (Reg.PART_PSHARE.PORT q n)
    && (s.flag (Reg.PART_PSHARE.WHOLE p m) || s.flag (Reg.PART_PSHARE.WHOLE q n)
      || (s.get (Reg.PART_PSHARE.SUBPORT p m) == s.get (Reg.PART_PSHARE.SUBPORT q n)
        && (s.get (Reg.PART_PSHARE.CLASSES p m) &&& s.get (Reg.PART_PSHARE.CLASSES q n)) != 0))

/-- The valid port shares break no rule of R247. -/
def State.sharesOk (s : State) (p : Nat) : Bool :=
  let h := s.owner p
  (s.shares p).all (fun m =>
    let port := s.get (Reg.PART_PSHARE.PORT p m)
    (if port < 32 then s.flag ((Reg.PART_HOST_PORTS_LO.PORTS h).bit port) else s.flag ((Reg.PART_HOST_PORTS_HI.PORTS h).bit (port - 32)))
      && s.gatesTaken port ≤ 4096
      && (List.range 64).all (fun q => q == p || (s.shares q).all (fun n => !s.sharesClash p m q n)))

/-- A write of a holding register in the PART block. -/
def partHoldingEff (off : Nat) (v : Word) (s : State) : State :=
  let p := holdingPart off
  let t := s.applyWrite off v
  let ok :=
    if off < 0x82000 then (if off % 0x40 = 0x10 then t.keysOk p else if 0x14 ≤ off % 0x40 then t.avOk p else true)
    else if off < 0x84000 then t.aperturesOk p
    else if off < 0x85000 then t.sharesOk p
    else t.coresOk p
  if s.pstate p ≠ 1 then t
  else if !ok then s.put (Reg.PART_STS.CFG_REJ p) 1
  else if 0x90000 ≤ off then t.showHolders ((off - 0x90000) % 0x200 / 8)
  else t

/-- A write of a holding register: those of the PART block, WIN_SHARE, TRIG_BASE and TRIG_NUM, KENNEL_SHARE. -/
def holdingEff (off : Nat) (v : Word) (s : State) : State :=
  if holdingOff off then partHoldingEff off v s
  else if 0xC1000 ≤ off ∧ off < 0xC1800 then
    let p := (off - 0xC1000) / 0x20
    if off = Reg.WIN_SHARE.off p then winShareEff p v s
    else if off = Reg.TRIG_BASE.off p then trigRangeEff p false v s
    else if off = Reg.TRIG_NUM.off p then trigRangeEff p true v s
    else s.applyWrite off v
  else s.applyWrite off v

/-! Allocation (Table 9.1, R250) -/

/-- CLAIM is refused while DBG_INVASIVE is in force in PROVISIONED, DEPLOYED or RMA (15 R413). -/
def State.claimBarred (s : State) : Bool := s.get Reg.SEC_DBG.LEVEL == 2 && inRange (s.get Reg.SEC_LC.STATE) 1 3

/-- A PART_ALLOC write. A FREE partition is not given to a host whose port STRAP_HOST does not select (17 R446; DEDUCED, log 80). -/
def partAllocEff (p : Nat) (v : Word) (s : State) : State :=
  let claim := wordField v 0 1 = 1
  let own := wordField v 1 1
  let rights := wordField v 2 3
  let now := s.get (Reg.PART_ALLOC.STREAM p) + 2 * s.get (Reg.PART_ALLOC.PROG p) + 4 * s.get (Reg.PART_ALLOC.SAVE p)
  let rej := s.put (Reg.PART_STS.CFG_REJ p) 1
  let set := ((s.put (Reg.PART_ALLOC.STREAM p) (rights % 2)).put (Reg.PART_ALLOC.PROG p) (rights / 2 % 2)).put (Reg.PART_ALLOC.SAVE p) (rights / 4)
  match s.pstate p with
  | 0 =>
    if (own = 1 - s.get Reg.GLB_STRAP.HOST ∧ s.get Reg.GLB_STRAP.HOST < 2) ∨ (claim ∧ s.claimBarred = true) then rej
    else
      let s := set.put (Reg.PART_ALLOC.OWNER p) own
      if claim then (s.put (Reg.PART_STS.STATE p) 1).putDigest (Reg.SEC_PMR.off p 0) (List.replicate 32 0) else s
  | 1 => if own ≠ s.get (Reg.PART_ALLOC.OWNER p) ∨ claim then rej else set
  | _ => if own ≠ s.get (Reg.PART_ALLOC.OWNER p) ∨ rights ≠ now ∨ claim then rej else s

/-! Resets (R244) -/

/-- Queues, queue pairs, reduction and fault state that a test on CIDs selects end without completions; the windows that another test
selects are revoked (06 R152, 07 R189). -/
def State.dropWork (s : State) (cid : Nat → Bool) (win : Window → Bool) : State :=
  let s := (s.queues.filter (fun (e : Nat × Queue) => cid e.2.cid)).foldl (fun s e => s.dropQueue e.1) s
  let s := (s.qps.filter (fun (e : Nat × Qp) => cid e.2.ctx.cid && !e.2.ctx.pin)).foldl (fun s e => s.dropQp e.1) s
  s.revokeAll win

/-- What a partition reset does at once (R244): schedule, work, instances, BAR4 windows, scratchpads, faults, triggers, measurement. -/
def State.resetPartition (s : State) (p : Nat) : State :=
  let s := s.dropSchedule p
  let s := s.dropFaults p
  let s := (s.dropBars p).dropColls (fun c => cidPart c == p)
  let s := s.dropWork (fun c => cidPart c == p) (fun w => cidPart w.cid == p)
  let s := (s.coresOf p).foldl (fun s c => if s.coreSt c = 0 ∨ s.coreSt c = 5 then s else (s.modCore c (fun k => { k with cur := none })).emptyCore c) s
  let s := ((s.dropReductions p).clearTrigs p).closeB4 p
  let s := (s.instsOf p).foldl (fun s i => s.resetReg (Reg.PART_INST.off i)) s
  let s := { s with parts := { s.parts with insts := s.parts.insts.filter (fun c => c.part != p), freezes := s.parts.freezes.filter (fun f => f.part != p) } }
  ((s.showInsts p).putDigest (Reg.SEC_PMR.off p 0) (List.replicate 32 0)).flushKeyCmds

/-- Start a partition reset: PART_STS.BUSY stands until PARTITION_RESET_DONE. -/
def State.startReset (s : State) (p : Nat) (frees : Bool) : State :=
  let s := (s.parts.insts.filter (fun c => c.part == p)).foldl (fun s c => s.put (Reg.PART_CMD_STS.BUSY c.host) 0) s
  let s := (s.parts.freezes.filter (fun f => f.part == p)).foldl (fun s f => s.put (Reg.PART_CMD_STS.BUSY f.host) 0) s
  let s := (s.resetPartition p).put (Reg.PART_STS.BUSY p) 1
  { s with parts := { s.parts with resets := s.parts.resets ++ [{ part := p, frees := frees }] } }

/-- A partition becomes FREE: its keys are erased (15 R423), its region entries lose VALID (14 R397), its registers in the PART, KENNEL and
window frames return to their reset values. -/
def State.freePartition (s : State) (p : Nat) : State :=
  let s := s.eraseKeys (s.slotOf p)
  let s := (s.regions.filter (fun r => r.part == p)).foldl (fun s r =>
    (s.put (Reg.MEM_REG_W2.VALID r.index) 0).put (Reg.MEM_REG_W3.FILL r.index) 0) s
  let held := (List.range 64).filter (s.holdsCluster p)
  let s := s.resetRegs (fun o => within o 1 (0x81000 + 0x40 * p) 0x40 || within o 1 (0x82000 + 0x80 * p) 0x80
    || within o 1 (0x84000 + 0x40 * p) 0x40 || within o 1 (0x90000 + 0x200 * p) 0x200
    || within o 1 (0x401000 + 0x10 * p) 0x10 || within o 1 (0xC1000 + 0x20 * p) 0x20 || within o 1 (0xC2000 + 0x10 * p) 0x10)
  held.foldl State.showHolders s

/-- The function of a host reports ready again once no reset of its partitions runs (08 R208). -/
def State.showReady (s : State) (h : HostId) : State :=
  s.setHost h { s.host h with notReady := (s.host h).notReady && (List.range 64).any (fun p => s.owns h p && s.flag (Reg.PART_STS.BUSY p)) }

/-- PARTITION_RESET_DONE: the reset ends once no window of the partition is left; ORPHAN stays (R243). -/
def resetDoneEff (p : Nat) (s : State) : State :=
  match s.parts.resets.find? (fun r => r.part == p) with
  | none => s
  | some r =>
    if s.wins.desc.any (fun (e : Nat × Window) => e.2.state != 0 && cidPart e.2.cid == p) then s
    else
      let s := { s with parts := { s.parts with resets := s.parts.resets.filter (fun x => x.part != p) } }
      let s := (s.put (Reg.PART_STS.BUSY p) 0).put (Reg.PART_STS.STATE p) 1
      (if r.frees then s.freePartition p else s).showReady (s.owner p)

/-! PART_CTL (Table 9.1, R243) -/

/-- Non-empty signing-key digests of a partition extend its measurement at SEAL (15 R403). -/
def State.measureKeys (s : State) (p : Nat) : State :=
  (List.range 4).foldl (fun s n =>
    let d := s.digestAt (Reg.SEC_PKEY.off p n 0)
    if zeroAt d 0 32 then s else s.extendPmr p d) s

/-- Completions that wait for room in a partition's completion queues in host memory are discarded (R258). -/
def State.dropHostCompletions (s : State) (p : Nat) : State :=
  { s with queues := s.queues.map (fun (e : Nat × Queue) =>
    if e.2.type = 2 ∧ cidPart e.2.cid = p ∧ e.2.space = 0 then (e.1, { e.2 with waiting := [] }) else e) }

/-- The grace time of a partition runs: it is an orphan, no reset of it runs (R243), and it is not QUIESCED yet. -/
def State.graceRuns (s : State) (p : Nat) : Bool :=
  s.flag (Reg.PART_STS.ORPHAN p) && !s.flag (Reg.PART_STS.BUSY p) && (s.pstate p == 1 || s.pstate p == 2 || s.pstate p == 3)

/-- ORPHAN_GRACE_EXPIRY: the partition becomes QUIESCED (R258). A partition reset in progress restarts the time (R243). -/
def graceExpiryEff (p : Nat) (s : State) : State :=
  if s.graceRuns p then
    let s := s.put (Reg.PART_STS.STATE p) 4
    (((s.suspend p false).showSched p).dropHostCompletions p).pathsChanged
  else s

/-- One bit of a PART_CTL write: 0 SEAL, 1 RESUME, 2 RESET, 3 RELEASE. `boot`: the boot host writes under R243; `expiry`: the grace time
expires in the same cycle, so that a RESUME comes too late (R243). -/
def partCtlBit (p : Nat) (boot expiry : Bool) (s : State) (b : Nat) : State :=
  let st := s.pstate p
  let rej := s.put (Reg.PART_STS.CFG_REJ p) 1
  if s.flag (Reg.PART_STS.BUSY p) then rej
  else match b with
    | 0 => if st = 1 then (s.put (Reg.PART_STS.STATE p) 2).measureKeys p else rej
    | 1 =>
      if expiry && s.graceRuns p then (graceExpiryEff p s).put (Reg.PART_STS.CFG_REJ p) 1
      else if s.flag (Reg.PART_STS.ORPHAN p) then s.put (Reg.PART_STS.ORPHAN p) 0 else rej
    | 2 => if st = 0 then rej else s.startReset p false
    | _ => if st = 1 then s.freePartition p else if st = 4 ∧ boot = true then s.startReset p true else rej

/-- A PART_CTL write: its bits act in ascending order (DEDUCED, log 80). -/
def partCtlEff (p : Nat) (boot expiry : Bool) (v : Word) (s : State) : State :=
  (setBitsOf v.toNat 4).foldl (partCtlBit p boot expiry) s

/-- A PART_CTL write of a host: the owner's, or under R243 the boot host's RESET or RELEASE of another host's QUIESCED partition whose owner
is lost. -/
def State.partCtlWrite (s : State) (h : HostId) (p : Nat) (expiry : Bool) (v : Word) : State :=
  if s.bootMayWrite h && s.owner p != h && s.pstate p == 4 && s.hostLost (s.owner p) && wordField v 0 2 == 0 then
    s.openWrite h (Reg.PART_CTL.off p) (partCtlEff p true expiry v)
  else s.hostWrite h (Reg.PART_CTL.off p) (partCtlEff p false expiry v)

/-! Instances (R251, R252) -/

/-- A command of the command frame completes: vector 3 (08 R240). -/
def State.partCmdEnd (s : State) (h : HostId) (r : Nat) : State :=
  (((s.put (Reg.PART_CMD_STS.BUSY h) 0).put (Reg.PART_CMD_STS.DONE h) 1).put (Reg.PART_CMD_STS.RESULT h) r).vector h 3

/-- The checks of R252 on an instance command: the result of the first that applies. -/
def State.instCheck (s : State) (h : HostId) (op p i : Nat) : Option Nat :=
  let q := s.instPart? i
  let other := match q with | some q => s.owner q != h | none => false
  if s.owner p ≠ h ∨ ¬ (s.pstate p = 2 ∨ s.pstate p = 3) ∨ other = true then some 3
  else if i = 1023 ∨ (q.isSome = true ∧ q ≠ some p) then some 2
  else if op = 1 then (if q.isSome = true ∨ s.pstate p ≠ 2 then some 1 else none)
  else if q.isNone then some 1
  else none

/-- The windows an instance opened are gone. -/
def State.instDrained (s : State) (p i : Nat) : Bool :=
  !s.wins.desc.any (fun (e : Nat × Window) => e.2.state != 0 && cidPart e.2.cid == p && e.2.opener == i)

/-- Instance commands whose revocations have finished complete. -/
def State.endInsts (s : State) : State :=
  let done := s.parts.insts.filter (fun c => s.instDrained c.part c.inst)
  let s := { s with parts := { s.parts with insts := s.parts.insts.filter (fun c => !s.instDrained c.part c.inst) } }
  done.foldl (fun s c =>
    let s := if c.destroy then (s.resetReg (Reg.PART_INST.off c.inst)).showInsts c.part else s
    s.partCmdEnd c.host 0) s

/-- An instance reset (06 R152, 07 R189): pinned queue pairs stay, in RESET. -/
def State.resetInst (s : State) (p i : Nat) : State :=
  let cid := 1024 * p + i
  let s := (s.dropColls (· == cid)).dropWork (fun c => c == cid) (fun w => cidPart w.cid == p && w.opener == i)
  (s.qps.filter (fun (e : Nat × Qp) => e.2.ctx.cid == cid)).foldl (fun (s : State) e => (s.endJobs e.1).modQp e.1 (fun (x : Qp) =>
    let c := x.ctx
    { place := x.place, ctx := {
      qpn := c.qpn, pin := c.pin, roce := c.roce, tier := c.tier, cid := c.cid, cls := c.cls, pmtu := c.pmtu, flow := c.flow, pkey := c.pkey
      sq := c.sq, rq := c.rq, scq := c.scq, rcq := c.rcq, spill := c.spill, lastUse := c.lastUse } })) s

/-- An instance command, OP 1 to 3; BAD_STATE during a compute reset (17 R462). -/
def State.instCommand (s : State) (h : HostId) (op p i : Nat) : State :=
  if s.inP2 then s.partCmdEnd h 1
  else match s.instCheck h op p i with
  | some r => s.partCmdEnd h r
  | none =>
    if op = 1 then (((s.put (Reg.PART_INST.PARTITION i) p).put (Reg.PART_INST.STATE i) 1).showInsts p).partCmdEnd h 0
    else
      let s := (s.resetInst p i).put (Reg.PART_CMD_STS.BUSY h) 1
      let c : InstCmd := { host := h, part := p, inst := i, destroy := op == 3 }
      { s with parts := { s.parts with insts := s.parts.insts ++ [c] } }.endInsts

/-- REVOCATION_COMPLETE, and the instance commands that waited for it. -/
def revocationCompleteEff (i : Nat) (s : State) : State := (s.revocationDone i).endInsts

/-! Hosts, orphans (R255 to R259) -/

/-- A PART_HOST_CTL write: the watchdog starts, restarts or stops. -/
def partHostCtlEff (h : HostId) (v : Word) (s : State) : State :=
  let s := s.applyWrite (Reg.PART_HOST_CTL.off h) v
  s.setHost h { s.host h with wdog := s.flag (Reg.PART_HOST_CTL.WDOG_MS h) }

/-- What waits for a host's memory goes ahead as far as that memory now serves: spilled contexts, completions, tiles, vectors, event records, BAR4
requests (08 R209, R257). -/
def State.hostBack (s : State) (h : HostId) : State :=
  ((s.drainVictims.drainCqs.writeReady.sendPending h).drainEvents h 64).b4Retry

/-- A PART_HOST_KICK write, whatever its value: the watchdog restarts; LOST clears with the link up and the function in D0 (R255, R256). -/
def hostKickEff (h : HostId) (s : State) : State :=
  let s := s.setHost h { s.host h with wdog := s.flag (Reg.PART_HOST_CTL.WDOG_MS h) }
  if s.hostReach h then (s.put (Reg.PART_HOST_STS.LOST h) 0).hostBack h else s

/-- A host is lost (R256). -/
def State.loseHost (s : State) (h : HostId) : State :=
  if s.hostLost h then s
  else
    let s := ((s.put (Reg.PART_HOST_STS.LOST h) 1).put (Reg.PART_HOST_STS.LOST_EVT h) 1).event Ev.hostLost (leBytes 1 h)
    ((List.range 64).filter (s.owns h)).foldl (fun s p => s.put (Reg.PART_STS.ORPHAN p) 1) s

/-- HOST_WATCHDOG_EXPIRY. -/
def watchdogExpiryEff (h : HostId) (s : State) : State :=
  if (s.host h).wdog then ((s.setHost h { s.host h with wdog := false }).put (Reg.PART_HOST_STS.WDOG_EXP h) 1).loseHost h else s

/-! Host ports (08 R208, R209) -/

/-- FLR (R208): the partitions of the host, its frames in the HOSTIF, KENNEL and Sheepdog blocks; HOSTIF_PORT_STS stays. The function is not ready
until the resets of its partitions have completed; its BARs serve nothing meanwhile (log 146). -/
def State.flr (s : State) (h : HostId) : State :=
  let s := ((List.range 64).filter (fun p => s.owns h p && !s.flag (Reg.PART_STS.BUSY p))).foldl (fun s p => s.startReset p false) s
  let s := s.resetRegs (fun o => (within o 1 (0x50000 + 0x10000 * h.val) 0x10000 && o != Reg.HOSTIF_PORT_STS.off h)
    || within o 1 (0x400100 + 0x20 * h.val) 0x20 || within o 1 (0xD0000 + 0x100 * h.val) 0x100)
  ((s.setHost h { s.host h with notReady := true, pba := [], b4 := {}, b4Wait := [] }).showReady h).setSheep h {}

/-- D3HOT_ENTRY. -/
def d3hotEntryEff (h : HostId) (s : State) : State := (s.setHost h { s.host h with d3hot := true }).loseHost h

/-- HOST_PORT_DOWN: speed and width of a link that is down read 0 (DEDUCED, log 81); reads that wait can no longer be answered. -/
def hostPortDownEff (h : HostId) (s : State) : State :=
  if !s.hostUp h then s
  else
    let s := s.setHost h { s.host h with b4Wait := (s.host h).b4Wait.filter (fun e => match e.2 with | .read _ _ => false | .write _ _ => true) }
    ((((s.put (Reg.HOSTIF_PORT_STS.UP h) 0).put (Reg.HOSTIF_PORT_STS.SPEED h) 0).put (Reg.HOSTIF_PORT_STS.WIDTH h) 0).put
    (Reg.HOSTIF_PORT_STS.DOWN h) 1).loseHost h

/-- HOST_PORT_UP: the link of a selected host port trains; what waits for the host goes ahead. -/
def hostPortUpEff (h : HostId) (speed width : Nat) (s : State) : State :=
  let strap := s.get Reg.GLB_STRAP.HOST
  if strap < 2 ∧ strap ≠ h.val then s
  else
    let s := ((s.put (Reg.HOSTIF_PORT_STS.UP h) 1).put (Reg.HOSTIF_PORT_STS.SPEED h) speed).put (Reg.HOSTIF_PORT_STS.WIDTH h) width
    s.hostBack h

/-- D3HOT_EXIT: the function is in D0 again; its host stays lost until it writes PART_HOST_KICK (R256). -/
def d3hotExitEff (h : HostId) (s : State) : State := (s.setHost h { s.host h with d3hot := false }).hostBack h

/-! The rows -/

def allocWord (claim : Bool) (owner : HostId) (rights : BitVec 3) : Word := BitVec.ofNat 32 (b2n claim + 2 * owner.val + 4 * rights.toNat)

def execClaim (host : HostId) (part : PartId) (owner : HostId) (rights : BitVec 3) (s : State) : Answer :=
  .next (s.hostWrite host (Reg.PART_ALLOC.off part) (partAllocEff part.val (allocWord true owner rights)))
def execPartAllocWrite (host : HostId) (part : PartId) (owner : HostId) (rights : BitVec 3) (s : State) : Answer :=
  .next (s.hostWrite host (Reg.PART_ALLOC.off part) (partAllocEff part.val (allocWord false owner rights)))
def execSeal (host : HostId) (part : PartId) (s : State) : Answer := .next (s.partCtlWrite host part.val false 1)
def execResume (host : HostId) (part : PartId) (expiring : Bool) (s : State) : Answer := .next (s.partCtlWrite host part.val expiring 2)
def execPartReset (host : HostId) (part : PartId) (s : State) : Answer := .next (s.partCtlWrite host part.val false 4)
def execRelease (host : HostId) (part : PartId) (s : State) : Answer := .next (s.partCtlWrite host part.val false 8)
def execPartitionResetDone (part : PartId) (s : State) : Answer := .next (resetDoneEff part.val s)
def execHoldingWrite (host : HostId) (offset : BitVec 24) (value : Word) (s : State) : Answer :=
  .next (s.hostWrite host offset.toNat (holdingEff offset.toNat value))
def execPartHostCtlWrite (host : HostId) (frame : HostId) (value : Word) (s : State) : Answer :=
  .next (s.hostWrite host (Reg.PART_HOST_CTL.off frame) (partHostCtlEff frame value))
def execHostKick (host : HostId) (frame : HostId) (_value : Word) (s : State) : Answer :=
  .next (s.hostWrite host (Reg.PART_HOST_KICK.off frame) (hostKickEff frame))
def execHostWatchdogExpiry (host : HostId) (s : State) : Answer := .next (watchdogExpiryEff host s)
def execOrphanGraceExpiry (part : PartId) (s : State) : Answer := .next (graceExpiryEff part.val s)
def execRevocationComplete (index : BitVec 20) (s : State) : Answer := .next (revocationCompleteEff index.toNat s)
def execFlr (host : HostId) (s : State) : Answer := .next (s.flr host)
def execConventionalReset (host : HostId) (s : State) : Answer := .next (s.flr host)
def execD3hotEntry (host : HostId) (s : State) : Answer := .next (d3hotEntryEff host s)
def execD3hotExit (host : HostId) (s : State) : Answer := .next (d3hotExitEff host s)
def execHostPortDown (host : HostId) (s : State) : Answer := .next (hostPortDownEff host s)
def execHostPortUp (host : HostId) (speed width : Fin 3) (s : State) : Answer := .next (hostPortUpEff host speed.val width.val s)

end Sys2Proof.Machine
end

