-- ==== Sys2Proof/Machine/Saves.lean ====
section
/-! DEFINITION. Freeze, thaw, save and restore, and the command frame (09_partitions_instances_migration.md R260 to R265, Tables 9.3 and 9.4;
10_cores_and_hyl_instruction_set.md R307; 13_determinism.md R374). -/

namespace Sys2Proof.Machine

/-! Scopes -/

/-- A CID lies in the scope: the partition, or one instance of it. -/
def inScope (p : Nat) (i : Option Nat) (cid : Nat) : Bool := cidPart cid == p && (match i with | some i => cidInst cid == i | none => true)

/-- A window lies in the scope. -/
def winInScope (p : Nat) (i : Option Nat) (w : Window) : Bool :=
  w.state != 0 && cidPart w.cid == p && (match i with | some i => w.opener == i | none => true)

/-- The scope is frozen. -/
def State.scopeFrozen (s : State) (p : Nat) : Option Nat → Bool
  | none => s.pstate p == 3
  | some i => s.get (Reg.PART_INST.STATE i) == 2

/-- Ownership and scope of a command: RIGHTS, BAD_FIELD, BAD_STATE in the order of R252 (DEDUCED for these commands, log 83). -/
def State.scopeCheck (s : State) (h : HostId) (p : Nat) (i : Option Nat) : Option Nat :=
  if s.owner p ≠ h ∨ ¬ (s.pstate p = 2 ∨ s.pstate p = 3) then some 3
  else match i with
    | none => none
    | some i =>
      if i = 1023 then some 2
      else match s.instPart? i with
        | none => some 1
        | some q => if s.owner q ≠ h then some 3 else if q ≠ p then some 2 else none

/-! Freeze (R260) -/

/-- Step 1: queues of the scope stop, and forget what has not started. -/
def State.freezeQueues (s : State) (p : Nat) (i : Option Nat) : State :=
  { s with queues := s.queues.map (fun (e : Nat × Queue) =>
      if inScope p i e.2.cid && e.2.type != 2 then (e.1, { e.2 with stopped := true, cached := [], fetch := e.2.next }) else e) }

/-- A queue pair of the scope that a freeze has still to move. -/
def Qp.toFreeze (x : Qp) (p : Nat) (i : Option Nat) : Bool :=
  inScope p i x.ctx.cid && (x.ctx.state == 3 || x.ctx.state == 4 || x.ctx.state == 5)

/-- One queue pair becomes FROZEN, its state recorded. Its context is fetched where it is not resident; it stays as it is while the spill slot cannot be
reached, and the freeze waits. -/
def State.freezeQp (s : State) (p : Nat) (i : Option Nat) (q : Nat) : State :=
  let s := s.need q
  match s.qp? q with
  | some x =>
    if x.resident && x.toFreeze p i then s.setQp q { x with prior := x.ctx.state, ctx := { x.ctx with state := 7 } } else s
  | none => s

/-- Step 2: the queue pairs of the scope become FROZEN. -/
def State.freezeQps (s : State) (p : Nat) (i : Option Nat) : State :=
  (s.qps.filter (fun (e : Nat × Qp) => e.2.toFreeze p i)).foldl (fun s e => s.freezeQp p i e.1) s

/-- A command on a partition that its present state does not list sets CFG_REJ beside its RESULT (R242; DEDUCED, log 83). -/
def State.notListed (s : State) (h : HostId) (p : Nat) : State := if s.owner p = h then s.put (Reg.PART_STS.CFG_REJ p) 1 else s

/-- FREEZE. A partition needs SEALED, an instance ACTIVE in a SEALED partition (DEDUCED, log 83). -/
def State.freeze (s : State) (h : HostId) (p : Nat) (i : Option Nat) : State :=
  let s := if i.isNone && s.pstate p != 2 then s.notListed h p else s
  match s.scopeCheck h p i with
  | some r => s.partCmdEnd h r
  | none =>
    if s.pstate p ≠ 2 ∨ s.scopeFrozen p i = true ∨ s.get (Reg.SCHED_STATE.ACT p) = 1 ∨ s.get (Reg.SCHED_STATE.PEND p) ≠ 0 then s.partCmdEnd h 1
    else
      let s := ((s.freezeQueues p i).freezeQps p i).put (Reg.PART_CMD_STS.BUSY h) 1
      { s with parts := { s.parts with freezes := s.parts.freezes ++ [{ host := h, part := p, inst := i }] } }

/-- Every queue pair of the scope is frozen (step 2), and step 3: invokes have completed, windows have drained, faults are settled, completions are
written. -/
def State.settled (s : State) (p : Nat) (i : Option Nat) : Bool :=
  s.qps.all (fun (e : Nat × Qp) => !e.2.toFreeze p i)
    && s.queues.all (fun (e : Nat × Queue) => !inScope p i e.2.cid || (e.2.waiting.isEmpty && e.2.live.all (fun l => l.opcode != 0x11)))
    && s.wins.desc.all (fun (e : Nat × Window) => !winInScope p i e.2 || e.2.inflight == 0)
    && (s.sheep0.entries ++ s.sheep1.entries).all (fun (e : FaultEntry) => !inScope p i e.cid)

/-- A core that a freeze has halted, or that does not run. -/
def State.coreHalted (s : State) (c : Nat) : Bool := s.coreSt c != 1 && s.coreSt c != 2

/-- FREEZE_COMPLETE: the freeze of a host goes as far as it can; a partition scope halts its cores last. -/
def freezeCompleteEff (h : HostId) (s : State) : State :=
  match s.parts.freezes.find? (fun f => f.host == h) with
  | none => s
  | some f =>
    let s := s.freezeQps f.part f.inst
    if !s.settled f.part f.inst then s
    else
      let cs := if f.inst.isNone then s.coresOf f.part else []
      let s := cs.foldl (fun s c => (s.modCore c (fun k => { k with haltFreeze := true })).tryHalt c) s
      if cs.any (fun c => !s.coreHalted c) then s
      else
        let s := { s with parts := { s.parts with freezes := s.parts.freezes.filter (fun x => x.host != h) } }
        let s := match f.inst with
          | some i => s.put (Reg.PART_INST.STATE i) 2
          | none => s.put (Reg.PART_STS.STATE f.part) 3
        s.partCmdEnd h 0

/-! Thaw (R261) -/

/-- A started entry of a restored queue takes its bytes from the ring again; one that is no entry of a queue pair is gone (log 84). -/
def State.rereadEntry (s : State) (n : Nat) (l : Live) : State :=
  match s.queue? n with
  | none => s
  | some q =>
    match s.memReadC q.cid q.space (q.addr l.pos) 64 with
    | (s, .ok b) =>
      let op := leAt b 0 1
      if actsOnQp op then s.modLive n l.pos (fun x => { x with
        bytes := b, opcode := op, len := if hasLength op then entLength b else if op = 6 ∨ op = 7 then 8 else 0, issued := true })
      else s.setQueue n { q with live := q.live.filter (fun x => x.pos != l.pos) }
    | (s, .error e) => s.modLive n l.pos (fun x => { x with bytes := List.replicate 64 0, done := some (if e = .ue then 0x40 else 0x22, 0, 0) })

/-- Restored entries of a queue are read again. -/
def State.reread (s : State) (n : Nat) : State :=
  match s.queue? n with
  | none => s
  | some q => (q.live.filter (fun l => l.bytes.isEmpty)).foldl (fun s l => s.rereadEntry n l) s

/-- A FROZEN queue pair returns to its recorded state; in RTS it resends from UNA_PSN with RETRY_LEFT reloaded. An error met while it was frozen
takes effect now (DEDUCED, log 140). -/
def State.thawQp (s : State) (q : Nat) : State :=
  let s := (s.need q).modQp q (fun x => { x with prior := 0, ctx := { x.ctx with state := x.prior } })
  match s.qp? q with
  | none => s
  | some x =>
    (if x.ctx.state = 3 ∧ x.ctx.unaPsn ≠ x.ctx.sqPsn then
      (s.modCtx q (fun c => { c with retryLeft := c.retryCnt })).resend q x.ctx.unaPsn
    else s.pump q).settle q

/-- THAW of a scope. Instances that a partition scope covers are ACTIVE again (DEDUCED, log 83). -/
def State.thaw (s : State) (h : HostId) (p : Nat) (i : Option Nat) : State :=
  let s := if i.isNone && s.pstate p != 3 then s.notListed h p else s
  match s.scopeCheck h p i with
  | some r => s.partCmdEnd h r
  | none =>
    if s.scopeFrozen p i = false ∨ (i.isSome = true ∧ s.pstate p ≠ 2) then s.partCmdEnd h 1
    else
      let ns := (s.queues.filter (fun (e : Nat × Queue) => inScope p i e.2.cid && e.2.stopped)).map (·.1)
      let s := ns.foldl State.reread s
      let s := { s with queues := s.queues.map (fun (e : Nat × Queue) => if ns.contains e.1 then (e.1, { e.2 with stopped := false }) else e) }
      let s := match i with
        | some i => s.put (Reg.PART_INST.STATE i) 1
        | none => (s.instsOf p).foldl (fun s j => s.put (Reg.PART_INST.STATE j) 1) (s.put (Reg.PART_STS.STATE p) 2)
      let s := (s.qps.filter (fun (e : Nat × Qp) => inScope p i e.2.ctx.cid && e.2.ctx.state == 7)).foldl (fun s e => s.thawQp e.1) s
      let s := if i.isNone then
          (s.coresOf p).foldl (fun s c => (s.modCore c (fun k => { k with haltFreeze := false })).tryResume c) s
        else s
      s.partCmdEnd h 0

/-! The save image (Tables 9.3, 9.4; 10 R307) -/

/-- A section: its header and records of one size. No section stands for no record (DEDUCED, log 85). -/
def sectionBytes (type size : Nat) (rs : List (List Byte)) : List (List Byte) :=
  if rs.isEmpty then [] else [leBytes 4 type ++ leBytes 4 rs.length ++ leBytes 4 size ++ leBytes 4 0 ++ rs.flatten]

/-- Words of BAR0 registers from an offset. -/
def State.regBytes (s : State) (off n : Nat) : List Byte := (List.range (n / 4)).flatMap (fun i => leBytes 4 (s.reg (off + 4 * i)).toNat)

/-- Where the 768 bytes of section 1 stand in BAR0: offset and size of each part. -/
def frameParts (p : Nat) : List (Nat × Nat) := [(0x81000 + 0x40 * p, 0x40), (0x82000 + 0x80 * p, 0x80), (0x84000 + 0x40 * p, 0x40), (0x90000 + 0x200 * p, 0x200)]

/-- A position as a doorbell gives it (08 R221; DEDUCED, log 85). -/
def Queue.posBytes (q : Queue) (x : Nat) : List Byte := leBytes 3 (q.slotOf x) ++ leBytes 1 (q.genOf x)

/-- A queue record; the queue's number stands in the descriptor's reserved bytes 24 to 27 (DESIGN CHOICE, log 85). -/
def queueRecord (n : Nat) (q : Queue) : List Byte :=
  (q.encode.take 24 ++ leBytes 4 n ++ leBytes 4 0) ++ q.posBytes q.fetch ++ q.posBytes q.posted ++ q.posBytes q.read ++ q.posBytes q.write

/-- A window record; its index stands in the descriptor's reserved bytes 28 to 31 (DESIGN CHOICE, log 85). -/
def windowRecord (i : Nat) (w : Window) : List Byte :=
  leBytes 8 (w.base + 2 ^ 52 * w.space) ++ leBytes 8 w.limit ++ leBytes 2 w.cid ++ leBytes 2 (w.gen + 2 ^ 12 * w.state)
    ++ leBytes 1 (b2n w.read + 2 * b2n w.write + 4 * b2n w.atomic) ++ leBytes 2 w.opener ++ leBytes 1 0 ++ leBytes 4 w.inflight ++ leBytes 4 i

/-- The event records of a core: 16 of 72 bytes. -/
def eventRecords (es : List CoreEv) : List Byte :=
  ((es.take 16).flatMap (fun (e : CoreEv) => (e.v31 ++ List.replicate 64 0).take 64 ++ leBytes 4 e.kind ++ leBytes 4 e.g2) ++ List.replicate 1152 0).take 1152

/-- The scratchpad as an image shows it: the secure region as 0. -/
def State.spadImage (s : State) (c : Nat) : List Byte :=
  (List.range 0x30000).map (fun o => if s.touchesSecure c o 1 then 0 else memByte (s.core c).spad o)

/-- A core record (Table 10.13). -/
def State.coreRecord (s : State) (c : Nat) : List Byte :=
  let k := s.core c
  let lvl (l : LoopLvl) : List Byte := leBytes 8 (l.start + 2 ^ 18 * l.len + 2 ^ 32 * l.count)
  leBytes 2 c ++ leBytes 1 (if s.coreSt c = 4 then k.prior else s.coreSt c) ++ leBytes 1 (b2n (s.spMode1 c) + 2 * b2n (s.coreSecure c))
    ++ leBytes 4 (s.get (Reg.CLUSTER_CORE_HANDLE.HANDLE (c / 64) (c % 64))) ++ leBytes 4 k.pc.toNat ++ leBytes 4 k.loops.length
    ++ (k.loops.flatMap lvl ++ List.replicate 32 0).take 32 ++ leBytes 8 (s.cycleOf c) ++ leBytes 1 k.fflags ++ leBytes 1 k.events.length
    ++ leBytes 6 0 ++ (List.range 32).flatMap (fun i => leBytes 8 (k.gr i).toNat) ++ (List.range 32).flatMap k.vBytes
    ++ (List.range 1024).flatMap (fun i => leBytes 4 (k.acc.getD i 0).toNat) ++ eventRecords k.events
    ++ (List.range 4).flatMap (fun i => leBytes 8 (k.chans.getD i {}).sts) ++ leBytes 32 0 ++ s.spadImage c

/-- The sections of a scope, in the order of their types; each send queue's shadow ring has a section of its own (DEDUCED, log 85). -/
def State.sections (s : State) (p : Nat) (i : Option Nat) : List (List Byte) :=
  let qs := s.queues.filter (fun (e : Nat × Queue) => inScope p i e.2.cid)
  let insts := match i with
    | some i => [i]
    | none => s.instsOf p
  let shadow (q : Queue) : List Byte :=
    memRead s.ddr (s.pair Reg.HOSTIF_SHADOW_BASE_LO.ADDR_LO Reg.HOSTIF_SHADOW_BASE_HI.ADDR_HI + q.shadow) (8 * q.size)
  let part := i.isNone
  let base := s.get (Reg.TRIG_BASE.BASE p)
  (if part then sectionBytes 1 768 [(frameParts p).flatMap (fun (f : Nat × Nat) => s.regBytes f.1 f.2)] else [])
    ++ sectionBytes 2 16 (insts.map (fun j => leBytes 2 j ++ leBytes 1 (s.get (Reg.PART_INST.STATE j)) ++ leBytes 13 0))
    ++ sectionBytes 3 48 (qs.map (fun (e : Nat × Queue) => queueRecord e.1 e.2))
    ++ (qs.filter (fun (e : Nat × Queue) => e.2.type == 0)).flatMap (fun (e : Nat × Queue) => sectionBytes 4 (8 * e.2.size) [shadow e.2])
    ++ sectionBytes 5 264 ((s.qps.filter (fun (e : Nat × Qp) => inScope p i e.2.ctx.cid)).map (fun (e : Nat × Qp) =>
      e.2.ctx.spilled ++ leBytes 1 e.2.prior ++ leBytes 7 0))
    ++ sectionBytes 6 32 ((s.wins.desc.filter (fun (e : Nat × Window) => winInScope p i e.2)).map (fun (e : Nat × Window) => windowRecord e.1 e.2))
    ++ (if part then
        sectionBytes 7 8 ((List.range (s.get (Reg.TRIG_NUM.NUM p))).map (fun j =>
            leBytes 2 (base + j) ++ leBytes 3 (s.trig (base + j)).count ++ leBytes 1 (s.trig (base + j)).gen ++ leBytes 2 0))
          ++ sectionBytes 8 204288 ((s.coresOf p).map s.coreRecord)
          ++ sectionBytes 9 48 ((s.handles.filter (fun (e : Nat × Handle) => e.2.part == p)).map (fun (e : Nat × Handle) =>
            leBytes 4 e.1 ++ (e.2.digest ++ List.replicate 32 0).take 32 ++ leBytes 12 0))
      else [])

/-- The header of Table 9.3. -/
def State.saveHeader (s : State) (p : Nat) (i : Option Nat) (nsect len : Nat) (iv : List Byte) : List Byte :=
  leBytes 4 0x4E564B53 ++ leBytes 2 1 ++ leBytes 1 (b2n i.isSome + 2 * b2n (s.flag Reg.GLB_CTL.EXACT)) ++ leBytes 1 p
    ++ leBytes 2 (i.getD 0) ++ leBytes 2 nsect ++ leBytes 4 len
    ++ leBytes 8 (s.get Reg.GLB_FW_VER_LO.FW + 2 ^ 32 * s.get Reg.GLB_FW_VER_HI.FW) ++ iv ++ leBytes 92 0

/-- The AES-256 key of the command's slot, which must be a slot of the partition (R262, 15 R423). -/
def State.saveKey (s : State) (h : HostId) (p : Nat) : Option (List Byte) :=
  let n := s.get (Reg.PART_CMD_KEY.KEY h)
  if s.slotOf p n then (s.key? n).filter (fun k => k.length == 32) else none

/-- PART_CMD_LEN.PAGES in range. -/
def State.saveRoom? (s : State) (h : HostId) : Option Nat :=
  let n := s.get (Reg.PART_CMD_LEN.PAGES h)
  if n = 0 ∨ 16384 < n then none else some (4096 * n)

/-- The command address. -/
def State.saveAddr (s : State) (h : HostId) : Nat := s.pair (Reg.PART_CMD_ADDR_LO.ADDR_LO h) (Reg.PART_CMD_ADDR_HI.ADDR_HI h)

/-- SAVE (R262). An area that the CID check or the memory turns away is BAD_FIELD (DEDUCED, log 83). -/
def State.save (s : State) (h : HostId) (p : Nat) (i : Option Nat) : State :=
  match s.scopeCheck h p i with
  | some r => s.partCmdEnd h r
  | none =>
    if s.flag (Reg.PART_ALLOC.SAVE p) = false then s.partCmdEnd h 3
    else match s.saveKey h p, s.saveRoom? h with
      | some key, some room =>
        if s.scopeFrozen p i = false then s.partCmdEnd h 1
        else
          let secs := s.sections p i
          let text := secs.flatten
          let len := 128 + text.length + 16
          if room < len then s.partCmdEnd h 5
          else
            -- unique per save on the device, its last bytes open (DESIGN CHOICE, log 144)
            let iv := leBytes 8 s.parts.saves ++ s.freeBytes 4
            let s := { s with parts := { s.parts with saves := s.parts.saves + 1 } }
            let head := s.saveHeader p i secs.length len iv
            let cipher := gcmText key iv text
            match s.fresh.memWriteC (1024 * p + 0x3FF) (s.get (Reg.PART_CMD_ADDR_HI.SPACE h)) (s.saveAddr h)
                (head ++ cipher ++ gcmTag key iv head cipher) with
            | (s, .ok _) => (s.put (Reg.PART_CMD_BYTES.BYTES h) len).partCmdEnd h 0
            | (s, .error _) => s.partCmdEnd h 2
      | _, _ => s.partCmdEnd h 2

/-! Restore (R263) -/

/-- The sections of a decrypted image: type and records; none where one passes the end. -/
def readSections : Nat → List Byte → Option (List (Nat × List (List Byte)))
  | 0, _ => some []
  | k + 1, b =>
    let count := leAt b 4 4
    let size := leAt b 8 4
    if b.length < 16 + count * size then none
    else (readSections k (b.drop (16 + count * size))).map (fun r =>
      (leAt b 0 1, (List.range count).map (fun i => slice b (16 + i * size) size)) :: r)

/-- Every record of a type. -/
def recordsOf (secs : List (Nat × List (List Byte))) (type : Nat) : List (List Byte) :=
  (secs.filter (fun (x : Nat × List (List Byte)) => x.1 == type)).flatMap (·.2)

/-- A queue record: number and queue with its positions. -/
def recQueue (b : List Byte) : Option (Nat × Queue) :=
  (queueOf (b.take 24 ++ leBytes 8 0)).map (fun q =>
    let at_ (o : Nat) : Nat := q.pos (leAt b o 3) (leAt b (o + 3) 1)
    (leAt b 24 4, { q with fetch := at_ 32, next := at_ 32, posted := at_ 36, read := at_ 40, write := at_ 44, stopped := q.type != 2 }))

/-- A window record: index and descriptor. -/
def recWindow (b : List Byte) : Nat × Window :=
  let w0 := leAt b 0 8
  let w := leAt b 18 2
  (leAt b 28 4, {
    base := bits w0 0 52, space := bits w0 52 2, limit := bits (leAt b 8 8) 0 52, cid := leAt b 16 2, gen := bits w 0 12, state := bits w 12 2
    read := bitAt (leAt b 20 1) 0, write := bitAt (leAt b 20 1) 1, atomic := bitAt (leAt b 20 1) 2, opener := bits (leAt b 21 2) 0 10 })

/-- An image's content: what RESTORE writes. -/
structure SaveImage where
  frame : List Byte
  insts : List (Nat × Nat)
  queues : List (Nat × Queue)
  shadows : List (List Byte)
  ctxs : List (QpCtx × Nat)
  wins : List (Nat × Window)
  trigs : List (Nat × TrigSlot)
  cores : List (List Byte)
  progs : List (Nat × List Byte)
  deriving DecidableEq, Repr

/-- Read the sections of a decrypted image. -/
def saveImageOf (nsect : Nat) (text : List Byte) : Option SaveImage :=
  match readSections nsect text with
  | none => none
  | some secs =>
    let qs := (recordsOf secs 3).map recQueue
    if qs.any Option.isNone then none
    else some {
      frame := (recordsOf secs 1).flatten
      insts := (recordsOf secs 2).map (fun b => (leAt b 0 2, leAt b 2 1)), queues := qs.filterMap id, shadows := recordsOf secs 4
      ctxs := (recordsOf secs 5).map (fun b => (ctxOf b, leAt b 256 1)), wins := (recordsOf secs 6).map recWindow
      trigs := (recordsOf secs 7).map (fun b => (leAt b 0 2, { count := leAt b 2 3, gen := leAt b 5 1 }))
      cores := recordsOf secs 8, progs := (recordsOf secs 9).map (fun b => (leAt b 0 4, slice b 4 32)) }

/-- The image fits the target (the CONFLICT cases of R263). -/
def State.restoreFits (s : State) (p : Nat) (part : Bool) (x : SaveImage) : Bool :=
  x.insts.all (fun (e : Nat × Nat) => e.1 < 1023 && (s.instPart? e.1).isNone)
    && x.queues.all (fun (e : Nat × Queue) => e.1 != 0 && (s.queue? e.1).isNone && s.ringOk e.2)
    && x.ctxs.all (fun (e : QpCtx × Nat) => (s.qp? e.1.qpn).isNone)
    && x.wins.all (fun (e : Nat × Window) => (s.win e.1).state == 0 && !s.wins.retired.contains e.1
      && s.winRangeOk p e.2.space e.2.base e.2.limit)
    && (!part || (x.trigs.map (·.1) == (List.range (s.get (Reg.TRIG_NUM.NUM p))).map (s.get (Reg.TRIG_BASE.BASE p) + ·)
      && x.cores.map (fun b => leAt b 0 2) == s.coresOf p
      && x.progs.all (fun (e : Nat × List Byte) => match s.handles.at? e.1 with | some h => h.digest == e.2 | none => false)))

/-- Work entries of a restored queue that have started and not completed: its context gives the first; the shadow ring gives their PSNs. -/
def startedEntries (q : Queue) (first : Nat) (shadow : List Byte) : List Live :=
  let n := (q.slotOf q.fetch + q.size - first % q.size) % q.size
  (List.range n).map (fun j =>
    let pos := q.step q.fetch (q.span - (n - j))
    let o := 8 * q.slotOf pos
    { pos := pos, bytes := [], first := leAt shadow o 3, last := leAt shadow (o + 3) 3 })

/-- Write the restored queues, in the order of their records. None where the shadow region has no room. -/
def State.restoreQueues (s : State) (ctxs : List (QpCtx × Nat)) : List (Nat × Queue) → List (List Byte) → Option State
  | [], _ => some s
  | (n, q) :: qs, sh =>
    match (if q.type = 0 then s.shadowRoom? q.shadowBytes else some 0) with
    | none => none
    | some o =>
      let mine := if q.type = 0 then (sh.head?).getD [] else []
      let first := match q.type with
        | 0 => (ctxs.find? (fun (c : QpCtx × Nat) => c.1.sq == n)).map (fun (c : QpCtx × Nat) => c.1.sqDone)
        | 1 => (ctxs.find? (fun (c : QpCtx × Nat) => c.1.rq == n)).map (fun (c : QpCtx × Nat) => c.1.rqCons)
        | _ => none
      let q := { q with shadow := o, live := (first.map (fun f => startedEntries q f mine)).getD [] }
      let s := (s.setQueue n q).putDesc n q.encode
      let s := if q.type = 0 then
          s.sysWrite (s.pair Reg.HOSTIF_SHADOW_BASE_LO.ADDR_LO Reg.HOSTIF_SHADOW_BASE_HI.ADDR_HI + o) mine
        else s
      (s.put Reg.HOSTIF_QSTS.QUEUES (s.get Reg.HOSTIF_QSTS.QUEUES + 1)).restoreQueues ctxs qs (if q.type = 0 then sh.drop 1 else sh)

/-- Write the restored contexts. None where tier 1 has no slot left. -/
def State.restoreQps (s : State) : List (QpCtx × Nat) → Option State
  | [] => some s
  | (c, prior) :: cs =>
    match (if c.tier = 0 then s.tier1Slot? else some c.spill) with
    | none => none
    | some slot =>
      let s := s.setQp c.qpn { ctx := { c with spill := slot, pin := false }, prior := prior }
      let s := if c.tier = 0 then { s with kennel := { s.kennel with slots := s.kennel.slots ++ [slot] } } else s
      let s := s.put Reg.KENNEL_STS.QPS (s.get Reg.KENNEL_STS.QPS + 1)
      ((s.spill c.qpn).bringIn c.qpn).restoreQps cs

/-- Take a window index out of the free list. -/
def WinStore.takeOut (w : WinStore) (i : Nat) : WinStore :=
  if w.freed.contains i then { w with freed := w.freed.filter (· != i) } else { w with skip := addTo w.skip i }

/-- Write a core record: the core is HALTED (one saved EMPTY or VACANT stays as it is) in the image of its handle. The event that ran, which the record does not hold, was a FRAME or a
MESSAGE of the partition; which one is left open (log 86). -/
def State.restoreCore (s : State) (p : Nat) (b : List Byte) : State :=
  let c := leAt b 0 2
  let h := leAt b 4 4
  let prior := leAt b 2 1
  let cid := 1024 * p + 0x3FF
  match s.handles.at? h with
  | none => s
  | some x =>
    if prior = 0 ∨ 3 < prior then s
    else
      let s := (s.ungate (c / 64)).placeImage c h x.image
      let n := leAt b 57 1
      let lvl (i : Nat) : LoopLvl :=
        let w := leAt b (16 + 8 * i) 8
        { start := bits w 0 18, len := bits w 18 13, count := bits w 32 32 }
      let ev (i : Nat) : CoreEv := { id := i, kind := leAt b (6464 + 72 * i + 64) 4, v31 := slice b (6464 + 72 * i) 64, g2 := leAt b (6464 + 72 * i + 68) 4, cid := cid }
      let chan (i : Nat) : Nat × Chan :=
        let w := leAt b (7616 + 8 * i) 8
        (i, { status := bits w 16 8, err := bitAt w 24 })
      let s := s.modCore c (fun k =>
        let k := (List.range 32).foldl (fun (k : Core) i => k.setG i (BitVec.ofNat 64 (leAt b (64 + 8 * i) 8))) k
        let k := (List.range 32).foldl (fun (k : Core) i => k.setVBytes i (slice b (320 + 64 * i) 64)) k
        let k := (List.range 4).foldl (fun (k : Core) a => k.setAcc a ((List.range 256).map (fun i => leAt b (2368 + 1024 * a + 4 * i) 4))) k
        { k with
          spad := memWrite [] 0 (b.drop 7680), pc := BitVec.ofNat 18 (leAt b 8 4), loops := (List.range (leAt b 12 1)).map lvl
          cycle0 := s.time.cycles - leAt b 48 8, fflags := leAt b 56 1, events := (List.range n).map ev, evNext := n + 1
          cur := if prior = 2 then some { id := n, kind := 1 + (Config.freeWord s.freeCtr).toNat % 2, v31 := List.replicate 64 0, cid := cid } else none
          chans := ((List.range 4).map chan).filter (fun (e : Nat × Chan) => e.2 != {})
          prior := prior, haltFreeze := true })
      ((s.fresh).setCoreSt c 4).showEvents c

/-- Write every record (R263): section 1 by the write rule of each of its RWL registers, as in CONFIG (DEDUCED, log 85). None where a shadow ring
or a tier-1 slot lacks. -/
def State.restoreRecords (s : State) (p : Nat) (part : Bool) (x : SaveImage) : Option State :=
  match s.restoreQueues x.ctxs x.queues x.shadows with
  | none => none
  | some s =>
    match s.restoreQps x.ctxs with
    | none => none
    | some s =>
      let s := x.insts.foldl (fun s (e : Nat × Nat) => (s.put (Reg.PART_INST.PARTITION e.1) p).put (Reg.PART_INST.STATE e.1) e.2) s
      let s := x.wins.foldl (fun s (e : Nat × Window) =>
        let s := s.setWin e.1 e.2
        { s with wins := s.wins.takeOut e.1 }) s
      let s := x.trigs.foldl (fun s (e : Nat × TrigSlot) => s.setTrig e.1 e.2) s
      let s := if part then
          let words := (frameParts p).flatMap (fun (f : Nat × Nat) => (List.range (f.2 / 4)).map (fun i => f.1 + 4 * i))
          let t := (words.zipIdx.filter (fun (e : Nat × Nat) => holdingOff e.1)).foldl (fun s (e : Nat × Nat) =>
            partHoldingEff e.1 (BitVec.ofNat 32 (leAt x.frame (4 * e.2) 4)) s) (s.put (Reg.PART_STS.STATE p) 1)
          x.cores.foldl (fun s b => s.restoreCore p b) (t.put (Reg.PART_STS.STATE p) 3)
        else s
      some (s.showInsts p)

/-- RESTORE (R263, 13 R374). The checks stand in the order of the rule's sentences (DEDUCED, log 83). -/
def State.restore (s : State) (h : HostId) (p : Nat) (i : Option Nat) : State :=
  let s := if i.isNone && s.pstate p != 2 then s.notListed h p else s
  if s.owner p ≠ h ∨ s.pstate p = 0 then s.partCmdEnd h 3
  else match s.saveKey h p, s.saveRoom? h with
    | some key, some room =>
      let a := s.saveAddr h
      match s.memReadC (1024 * p + 0x3FF) (s.get (Reg.PART_CMD_ADDR_HI.SPACE h)) a room with
      | (s, .error _) => s.partCmdEnd h 2
      | (s, .ok b) =>
        let len := leAt b 12 4
        let head := b.take 128
        let iv := slice b 24 12
        let cipher := slice b 128 (len - 144)
        if len < 144 ∨ room < len ∨ gcmTag key iv head cipher ≠ slice b (len - 16) 16 then s.partCmdEnd h 6
        else if leAt b 0 4 ≠ 0x4E564B53 ∨ leAt b 4 2 ≠ 1 ∨ leAt b 16 8 ≠ s.get Reg.GLB_FW_VER_LO.FW + 2 ^ 32 * s.get Reg.GLB_FW_VER_HI.FW
            ∨ bitAt (leAt b 6 1) 1 ≠ s.flag Reg.GLB_CTL.EXACT then s.partCmdEnd h 7
        else if s.pstate p ≠ 2 ∨ leAt b 7 1 ≠ p ∨ s.flag (Reg.PART_ALLOC.SAVE p) = false ∨ bitAt (leAt b 6 1) 0 ≠ i.isSome
            ∨ (i.isSome = true ∧ leAt b 8 2 ≠ i.getD 0) ∨ (i.isNone = true ∧ (s.instsOf p).isEmpty = false) then s.partCmdEnd h 1
        else match saveImageOf (leAt b 10 2) (gcmText key iv cipher) with
          | none => s.partCmdEnd h 6
          | some x =>
            if !s.restoreFits p i.isNone x then s.partCmdEnd h 4
            else match s.restoreRecords p i.isNone x with
              | none => s.partCmdEnd h 5
              | some t => t.partCmdEnd h 0
    | _, _ => s.partCmdEnd h 2

/-! The command frame -/

/-- A PART_CMD write with GO. -/
def partCmdEff (h : HostId) (v : Word) (seen : Seen) (s : State) : State :=
  let busy := s.flag (Reg.PART_CMD_STS.BUSY h)
  let s := s.applyWrite (Reg.PART_CMD.off h) v
  if wordField v 31 1 = 0 ∨ busy = true then s
  else
    let s := s.see seen
    let p := wordField v 5 6
    let n := wordField v 11 10
    let i := if wordField v 4 1 = 1 then some n else none
    match wordField v 0 4 with
    | 1 => s.instCommand h 1 p n
    | 2 => s.instCommand h 2 p n
    | 3 => s.instCommand h 3 p n
    | 4 => s.freeze h p i
    | 5 => s.thaw h p i
    | 6 => s.save h p i
    | 7 => s.restore h p i
    | _ => s.partCmdEnd h 2

/-- The word of a command. -/
def partWord (op : Nat) (scope : Bool) (p : PartId) (i : BitVec 10) : Word :=
  BitVec.ofNat 32 (2 ^ 31 + op + 2 ^ 4 * b2n scope + 2 ^ 5 * p.val + 2 ^ 11 * i.toNat)

/-! The rows -/

def execInstCreate (host : HostId) (part : PartId) (inst : BitVec 10) (s : State) : Answer :=
  .next (s.hostWrite host (Reg.PART_CMD.off host) (partCmdEff host (partWord 1 false part inst) []))
def execInstReset (host : HostId) (part : PartId) (inst : BitVec 10) (s : State) : Answer :=
  .next (s.hostWrite host (Reg.PART_CMD.off host) (partCmdEff host (partWord 2 false part inst) []))
def execInstDestroy (host : HostId) (part : PartId) (inst : BitVec 10) (s : State) : Answer :=
  .next (s.hostWrite host (Reg.PART_CMD.off host) (partCmdEff host (partWord 3 false part inst) []))
def execFreeze (host : HostId) (scope : Bool) (part : PartId) (inst : BitVec 10) (s : State) : Answer :=
  .next (s.hostWrite host (Reg.PART_CMD.off host) (partCmdEff host (partWord 4 scope part inst) []))
def execFreezeComplete (host : HostId) (s : State) : Answer := .next (freezeCompleteEff host s)
def execThaw (host : HostId) (scope : Bool) (part : PartId) (inst : BitVec 10) (seen : Seen) (s : State) : Answer :=
  .next (s.hostWrite host (Reg.PART_CMD.off host) (partCmdEff host (partWord 5 scope part inst) seen))
def execSave (host : HostId) (scope : Bool) (part : PartId) (inst : BitVec 10) (s : State) : Answer :=
  .next (s.hostWrite host (Reg.PART_CMD.off host) (partCmdEff host (partWord 6 scope part inst) []))
def execRestore (host : HostId) (scope : Bool) (part : PartId) (inst : BitVec 10) (seen : Seen) (s : State) : Answer :=
  .next (s.hostWrite host (Reg.PART_CMD.off host) (partCmdEff host (partWord 7 scope part inst) seen))

end Sys2Proof.Machine
end

