-- ==== Sys2Proof/Machine/Memsys.lean ====
section
/-! DEFINITION. Exact mode and GLB_DET_DIGEST (13_determinism.md R363, R368); Tinker, DDR5 channels, patrol scrub, the region table, the system
ranges (14_memory_system.md R377 to R398). -/

namespace Sys2Proof.Machine

/-! Exact mode -/

/-- A write of GLB_CTL (13 R363). -/
def exactEff (v : Word) (s : State) : State :=
  if s.schedBusy || !s.sched.submits.isEmpty then s.put Reg.GLB_DET_STS.EXACT_REJ 1
  else (s.put Reg.GLB_CTL.EXACT (wordField v 0 1)).startDet

/-- The 545 bytes of R368. -/
def State.detBytes (s : State) : List Byte :=
  (s.boot.manifest ++ List.replicate 32 0).take 32
    ++ (List.range 64).flatMap (fun k => leBytes 8 ((List.range 64).foldl (fun a n => a + b2n (s.flag (Reg.CLUSTER_LMAP.VACANT k n)) * 2 ^ n) 0))
    ++ leBytes 1 (s.get Reg.GLB_CTL.EXACT)

/-- DET_DIGEST_DONE: the digest is current again; DMR5 is extended with it (15 R403; at every recomputation: DEDUCED, log 94). -/
def detDoneEff (s : State) : State :=
  if !s.boot.detPending then s
  else
    let d := sha3 s.detBytes
    let s := { s with boot := { s.boot with detPending := false } }
    ((s.putDigest (Reg.GLB_DET_DIGEST.off 0) d).put Reg.GLB_DET_STS.DIGEST_VALID 1).extend (Reg.SEC_DMR.off 5 0) d

/-! Tinker (R379 to R381) -/

/-- Blocks of an engine: of a cluster, or of a link tile. -/
def tinkerBlocks (e : Nat) : Nat := if e < 64 then 4160 else 12288

/-- The array d of a block, and the block's place in it: a cluster's scratchpads in the order of physical cores, then its Kennel bank,
reduction memory and window store (the order DEDUCED from R379, log 91). -/
def tinkerArray (e b : Nat) : Nat × Nat :=
  if 64 ≤ e then (4, b)
  else if b < 3264 then (0, b)
  else if b < 3776 then (1, b - 3264)
  else if b < 4032 then (2, b - 3776)
  else (3, b - 4032)

/-- The windows whose descriptors lie in a block of a cluster's window store (DEDUCED, log 91). -/
def blockWindows (k b : Nat) : List Nat := (List.range 128).map (fun i => (128 * b + i) * 64 + k)

/-- An engine may test: the unit is powered, Tinker is enabled, no block beyond repair is still served by the copy buffer. -/
def State.tinkerRuns (s : State) (e : Nat) : Bool :=
  s.flag Reg.MEM_TINKER_CTL.EN && s.get Reg.TALLY_STS.PSTATE != 3 && (64 ≤ e || !s.inP2)
    && (match (s.tinker e).hold with
      | some b => (blockWindows e b).all (fun i => (s.win i).state == 0)
      | none => true)

/-- The array of a block has port cycles to spare (R380): a Kennel bank and a reduction unit free slots or idle cycles (05 R124), the others idle cycles,
which they have between two commands. -/
def State.tinkerSlot (s : State) (e b : Nat) : Bool :=
  match (tinkerArray e b).1 with
  | 1 => s.background (0x6000 + e)
  | 2 => s.background (0x4000 + e)
  | _ => true

/-- MIN of classes 4 to 7 is lowered, from the highest-numbered port of the tile downward, until the total fits the pool (Table 14.4); no
further than needed, class 7 first (DESIGN CHOICE, log 92). -/
def State.lowerMin (s : State) (tile : Nat) : State :=
  let steps := (List.range 16).flatMap (fun q => (List.range 4).map (fun c => (16 * tile + 15 - q, 3 - c)))
  steps.foldl (fun s (x : Nat × Nat) =>
    let m := s.get (Reg.LINK_BUF_CLASS.MIN x.1 x.2)
    let need := s.minCells tile (fun q c => s.get (Reg.LINK_BUF_CLASS.MIN q c)) + flowCells s.heldImages tile - s.poolCells tile
    s.put (Reg.LINK_BUF_CLASS.MIN x.1 x.2) (m - min m (ceilDiv need (16 * s.subports x.1)))) s

/-- The action of Table 14.4 on a block beyond repair. `cause`: 2 Tinker, 0 the start-up test. -/
def State.retireBlock (s : State) (e b : Nat) (cause : Nat := 2) : State :=
  let s := s.count Reg.MEM_TINKER_RETIRE.COUNT
  let (d, i) := tinkerArray e b
  let report (s : State) : State :=
    (s.event Ev.sramRetired (leBytes 1 d ++ leBytes 1 (if d = 4 then e - 64 else e) ++ leBytes 2 i)).count (Reg.TELEM_FIT_FAIL.COUNT 2)
  match d with
  | 0 => s.takeOut cause [⟨.core, e, i / 48⟩]
  | 1 => s.takeOut cause [⟨.kennel, e, i / 32⟩]
  | 2 => s.takeOut cause [⟨.reduce, e, 0⟩]
  | 3 =>
    let gone := blockWindows e i
    let s := { s with wins := { s.wins with
      retired := s.wins.retired ++ gone, freed := s.wins.freed.filter (fun x => !gone.contains x) } }
    report (s.setTinker e { s.tinker e with hold := some i })
  | _ =>
    let t := e - 64
    report ({ s with memsys := { s.memsys with lost := s.memsys.lost.set t (s.memsys.lost.getD t 0 + 16) } }.lowerMin t)

/-- A failing cell: its row is replaced while its 64 KiB macro has a spare row left (R381). -/
def State.tinkerFail (s : State) (e b : Nat) (cause : Nat := 2) : State :=
  let m := 1024 * e + b / 16
  let n := s.memsys.rows.getD m 0
  if n < 4 then
    ({ s with memsys := { s.memsys with rows := s.memsys.rows.set m (n + 1) } }.count Reg.MEM_TINKER_REPAIR.COUNT).count
      (Reg.TELEM_FIT_FAIL.COUNT 2)
  else s.retireBlock e b cause

/-- A pass of an engine ends (R380): late where it took longer than HOURS; MEM_TINKER_STS counts passes completed by every engine. -/
def State.tinkerPass (s : State) (e : Nat) : State :=
  let x := s.tinker e
  let late := s.get Reg.MEM_TINKER_CTL.HOURS * 3600 * 2400000000 < s.time.cycles - max x.start s.memsys.since
  let s := s.setTinker e { x with done := 0, passes := x.passes + 1, start := s.time.cycles }
  let s := if late then (s.put Reg.MEM_TINKER_STS.LATE 1).count Reg.MEM_TINKER_LATE.COUNT else s
  s.put Reg.MEM_TINKER_STS.PASSES (min 0xFFFF ((List.range 68).foldl (fun a i => min a (s.tinker i).passes) (x.passes + 1)))

/-- A block is the next of an engine's order, as far as the spec fixes it: a block that held a reported word comes first (R380). -/
def State.tinkerTurn (s : State) (e b : Nat) : Bool :=
  match (s.tinker e).first with
  | [] => true
  | x :: _ => x == b

/-- TINKER_BLOCK_TEST: one block is saved, tested and restored; its reads find words to correct and uncorrectable ones (R378). -/
def tinkerEff (e b corrected bad : Nat) (failing : Bool) (s : State) : State :=
  if !s.tinkerRuns e || tinkerBlocks e ≤ b || !s.tinkerTurn e b || !s.tinkerSlot e b then s
  else
    let (d, _) := tinkerArray e b
    let s := (s.count (Reg.MEM_SRAM_CE.COUNT d) corrected).count (Reg.MEM_SRAM_UE.COUNT d) bad
    let s := s.setTinker e { s.tinker e with done := (s.tinker e).done + 1, hold := none, first := (s.tinker e).first.filter (· != b) }
    let s := if failing then s.tinkerFail e b else s
    if tinkerBlocks e ≤ (s.tinker e).done then s.tinkerPass e else s

/-! Channels -/

/-- The memory tile of a channel (02 Table 2.1). -/
def chanUnit (c : Nat) : UnitId := ⟨.channel, c / 8, c⟩

/-- The channel trains or serves: UP. -/
def State.chanUp (s : State) (c : Nat) : Bool := s.get (Reg.MEM_CH_STS.STATE c) == 2

/-- DDR_ALERT: `replays` replays; with `failed`, the attempt after the third fails too (R384). -/
def alertEff (c replays : Nat) (failed : Bool) (s : State) : State :=
  if !s.chanUp c then s
  else
    let s := s.count (Reg.MEM_CH_RETRY.COUNT c) (if failed then 3 else min replays 3)
    if failed then s.takeOut 5 [chanUnit c] else s

/-- Lines of a channel's module. -/
def State.chanLines (s : State) (c : Nat) : Nat := if s.get (Reg.MEM_CH_STS.CAP c) = 2 then 2 ^ 31 else 2 ^ 30

/-- The device DDR address of a line of a channel's module (R386); none where no set holds it. -/
def State.lineAddr? (s : State) (c line : Nat) : Option Nat :=
  let off := 64 * line
  [0, 1].findSome? (fun i =>
    let d := s.ddrSet i
    let chs := setBitsOf d.channels 16
    let o := if i = 1 then off - 2 ^ 36 else off
    if d.state = 0 ∨ ¬ c ∈ chs ∨ (i = 1 ∧ off < 2 ^ 36) ∨ d.slice ≤ o then none
    else some (d.base + (o / 4096 * chs.length + chs.idxOf c) * 4096 + o % 4096))

/-- The marked device of a subchannel. -/
def State.mark? (s : State) (c sub : Nat) : Option Nat :=
  if sub = 0 then (if s.flag (Reg.MEM_CH_STS.MARK_A_V c) then some (s.get (Reg.MEM_CH_STS.MARK_A c)) else none)
  else if s.flag (Reg.MEM_CH_STS.MARK_B_V c) then some (s.get (Reg.MEM_CH_STS.MARK_B c)) else none

/-- A corrected burst: counted; the sixteenth of one device within a pass marks it (R389, R390). -/
def State.corrected (s : State) (c sub dev : Nat) : State :=
  let x := s.memsys.scrub.getD c {}
  let n := x.hits.getD (16 * sub + dev) 0 + 1
  let s := { s with memsys := { s.memsys with scrub := s.memsys.scrub.set c { x with hits := x.hits.set (16 * sub + dev) n } } }
  let s := s.count (Reg.MEM_CH_CE.COUNT c)
  if n < 16 ∨ (s.mark? c sub).isSome = true then s
  else
    let s := if sub = 0 then (s.put (Reg.MEM_CH_STS.MARK_A c) dev).put (Reg.MEM_CH_STS.MARK_A_V c) 1
      else (s.put (Reg.MEM_CH_STS.MARK_B c) dev).put (Reg.MEM_CH_STS.MARK_B_V c) 1
    (s.event Ev.ddrDeviceMarked (leBytes 1 c ++ leBytes 1 sub ++ leBytes 1 dev)).count (Reg.TELEM_FIT_FAIL.COUNT 3)

/-- The scrubber goes on to the next line; a pass ends with the module's ECS error count (R388, R391). -/
def State.scrubNext (s : State) (c ecs : Nat) : State :=
  let x := s.memsys.scrub.getD c {}
  let n := s.chanLines c
  let set (y : ScrubCh) (s : State) : State := { s with memsys := { s.memsys with scrub := s.memsys.scrub.putD c y {} } }
  if x.pos + 1 < n then (set { x with pos := x.pos + 1 } s).put (Reg.MEM_CH_SCRUB.PERCENT c) ((x.pos + 1) * 100 / n)
  else (((set {} s).count (Reg.MEM_CH_SCRUB.PASSES c)).put (Reg.MEM_CH_SCRUB.PERCENT c) 0).put (Reg.MEM_CH_ECS.COUNT c) ecs

/-- SCRUB_LINE (R391), in a free slot or idle time of the channel (R392, 05 R124). `ecs`: the module's error count, read when this line ends the pass. -/
def scrubEff (c : Nat) (found : ScrubFind) (ecs : Nat) (s : State) : State :=
  if !s.chanUp c || !s.flag Reg.MEM_SCRUB_CTL.EN || s.get Reg.TALLY_STS.PSTATE == 3 || !s.background (0x7000 + c) then s
  else
    let pos := (s.memsys.scrub.getD c {}).pos
    let sub := pos % 2
    let a := s.lineAddr? c pos
    let known := match a with
      | some x => s.ddrBad.contains (x / 64)
      | none => false
    let found : ScrubFind := if known then .bad else match found with
      | .corrected d => (match s.mark? c sub with
        | some m => if m = d.val then .clean else .bad
        | none => found)
      | x => x
    let s := match found with
      | .clean => s
      | .corrected d => s.corrected c sub d.val
      | .bad => (match a with
        | some x => { s with ddrBad := addTo s.ddrBad (x / 64) }.reportUe (x / 64) true
        | none => s)
    s.scrubNext c ecs

/-- DDR_REFRESH: a background request in a free slot or idle cycle; it changes no data (R392). -/
def refreshEff (_c : Nat) (s : State) : State := s

/-! Regions (R395 to R397) -/

/-- A write that the MEM registers do not accept. -/
def State.memRej (s : State) : State := s.put Reg.MEM_STS.CFG_REJ 1

/-- The boot host acts for the entries of a QUIESCED partition whose owner is lost (09 R243). -/
def State.regionBootCase (s : State) (h : HostId) (p : Nat) : Bool := s.bootMayWrite h && s.pstate p == 4 && s.hostLost (s.owner p)

/-- The checks for setting VALID of an entry for a partition. -/
def State.regionOk (s : State) (r p : Nat) : Bool :=
  let e := s.region r
  let h := s.owner p
  let lo := s.get (Reg.MEM_HOST_DDR.FIRST_GIB h) * 2 ^ 30
  let hi := (s.get (Reg.MEM_HOST_DDR.LAST_GIB h) + 1) * 2 ^ 30
  s.pstate p == 1 && inRange (e.size / 2 ^ 20) 1 2097152 && (s.setAt e.base e.size matches some (_, true))
    && lo ≤ e.base && e.base + e.size ≤ hi
    && s.regions.all (fun x => !overlap e.base e.size x.base x.size) && s.systemRanges.all (fun x => !overlap e.base e.size x.1 x.2)

/-- A write of word w of region entry r by a host (R396). W0 and W1 name no partition: the entry's own one decides (DEDUCED, log 95). -/
def regionEff (h : HostId) (r w : Nat) (v : Word) (s : State) : State :=
  let off := Reg.MEM_REG_W0.off r + 4 * w
  let p := if w = 2 then wordField v 0 6 else s.get (Reg.MEM_REG_W2.PARTITION r)
  let mine := s.get (Reg.MEM_REG_W2.PARTITION r)
  if w = 3 then s.applyWrite off v
  else if s.flag (Reg.MEM_REG_W2.VALID r) then
    if w = 2 ∧ wordField v 31 1 = 0 ∧ ((s.owns h mine && s.pstate mine == 1) || s.regionBootCase h mine) = true then
      (s.put (Reg.MEM_REG_W2.VALID r) 0).put (Reg.MEM_REG_W3.FILL r) 0
    else s.memRej
  else if !(s.owns h p || s.regionBootCase h p) then s.memRej
  else if w = 2 ∧ wordField v 31 1 = 1 then
    if s.regionOk r p then (s.applyWrite off v).put (Reg.MEM_REG_W3.FILL r) 1 else s.memRej
  else s.applyWrite off v

/-- ZERO_FILL_DONE: the region holds zeros, and waiting requests go ahead (R397). -/
def zeroFillEff (r : Nat) (s : State) : State :=
  if !(s.flag (Reg.MEM_REG_W2.VALID r) && s.flag (Reg.MEM_REG_W3.FILL r)) then s
  else
    let e := s.region r
    let s := { s with ddr := memZero s.ddr e.base e.size, ddrBad := s.ddrBad.filter (fun l => !within (64 * l) 64 e.base e.size) }
    (s.put (Reg.MEM_REG_W3.FILL r) 0).drainCqs.writeReady

/-! System ranges (R394) -/

/-- A write of the reduction spill registers: only while no unit has a spilled segment. -/
def rspillEff (off : Nat) (v : Word) (s : State) : State :=
  if (List.range 64).all (fun k => s.get (Reg.CLUSTER_RED_OPEN.SPILLED k) == 0) then s.applyWrite off v else s.memRej

/-- A write of the image store registers: only in WAIT_MANIFEST. -/
def imgStoreEff (off : Nat) (v : Word) (s : State) : State := if s.get Reg.GLB_STS.STAGE = 2 then s.applyWrite off v else s.memRej

/-! The rows -/

def execExactWrite (host : HostId) (value : Word) (s : State) : Answer := .next (s.hostWrite host Reg.GLB_CTL.off (exactEff value))
def execDetDigestDone (s : State) : Answer := .next (detDoneEff s)
def execTinkerBlockTest (engine : Fin 68) (block : Fin 12288) (corrected uncorrectable : Fin 513) (failing : Bool) (s : State) : Answer :=
  .next (tinkerEff engine.val block.val corrected.val uncorrectable.val failing s)
def execDdrAlert (channel : Fin 16) (replays : Fin 4) (failed : Bool) (s : State) : Answer :=
  .next (alertEff channel.val replays.val failed s)
def execScrubLine (channel : Fin 16) (found : ScrubFind) (ecs : Word) (s : State) : Answer :=
  .next (scrubEff channel.val found ecs.toNat s)
def execDdrRefresh (channel : Fin 16) (s : State) : Answer := .next (refreshEff channel.val s)
def execRegionWrite (host : HostId) (entry : Fin 512) (word : Fin 4) (value : Word) (s : State) : Answer :=
  .next (s.hostWrite host (Reg.MEM_REG_W0.off entry + 4 * word.val) (regionEff host entry.val word.val value))
def execZeroFillDone (entry : Fin 512) (s : State) : Answer := .next (zeroFillEff entry.val s)
def execMemRspillWrite (host : HostId) (reg : Fin 3) (value : Word) (s : State) : Answer :=
  .next (s.hostWrite host (Reg.MEM_RSPILL_BASE_LO.off + 4 * reg.val) (rspillEff (Reg.MEM_RSPILL_BASE_LO.off + 4 * reg.val) value))
def execMemImgWrite (host : HostId) (reg : Fin 3) (value : Word) (s : State) : Answer :=
  .next (s.hostWrite host (Reg.MEM_IMG_BASE_LO.off + 4 * reg.val) (imgStoreEff (Reg.MEM_IMG_BASE_LO.off + 4 * reg.val) value))

end Sys2Proof.Machine
end

