-- ==== Sys2Proof/Machine/Crier.lean ====
section
/-! DEFINITION. The steps of the power-on sequence behind the manifest: training, the start-up test, the Crier, the boot commit
(17_bringup_reset_firmware.md R447, R451 to R459; 14_memory_system.md R382 to R385; 02 R44 to R46). -/

namespace Sys2Proof.Machine

/-! Causes of FAULT_N, failures of the sequence -/

/-- FAULT_N is low while a cause of TELEM_FAULT stands, except in OFF (18 R474). -/
def State.showFault (s : State) : State :=
  { s with pins := { s.pins with fault := !(s.pins.pwrOk && (s.reg Reg.TELEM_FAULT.off).toNat % 16 != 0) } }

/-- A cause of TELEM_FAULT is set. -/
def State.cause (s : State) (f : Fld) : State := (s.put f 1).showFault

/-- A transition that TALLY_PS_CTL asked for ends (16 R441). -/
def State.psEnd (s : State) (r : Nat) : State :=
  ((s.put Reg.TALLY_PS_STS.BUSY 0).put Reg.TALLY_PS_STS.DONE 1).put Reg.TALLY_PS_STS.RESULT r

/-- A step that fails stops the sequence: 2 DIGEST, 3 NO_DDR, 4 NO_SERVICE, 5 TEST. A WAKE has then left P3 all the same (DEDUCED, log 100). -/
def State.bootFail (s : State) (err : Nat) : State :=
  let s := ((s.put Reg.GLB_STS.STAGE 11).put Reg.GLB_STS.BOOT_ERR err)
  let s := if s.flag Reg.TALLY_PS_STS.BUSY then s.psEnd 0 else s
  if 3 ≤ err then s.cause Reg.TELEM_FAULT.BOOT else s

/-! Step 4: training -/

/-- The port lane index that a physical lane of a link tile serves. -/
def State.laneIndex? (s : State) (tile lane : Nat) : Option (Nat × Nat) :=
  ((List.range 64).map (fun n => (16 * tile + n / 4, n % 4))).find? (fun x => s.get (laneField x.1 x.2) == lane)

/-- A lane that fails the Farrier's test is fenced; its index takes a spare, or shows FAILED where none remains (03 R75, R78). -/
def State.laneTested (s : State) (tile lane : Nat) : State :=
  match s.laneIndex? tile lane with
  | none => s
  | some (p, i) =>
    match s.spareFor p with
    | some sp => s.put (laneField p i) sp
    | none => s.put (Reg.LINK_LANE_HEALTH.FAILED p i) 1

/-- The lanes of one group, all fenced in one cycle. -/
def State.trainLanes (s : State) (ls : List (Fin 4 × Fin 68)) : State :=
  let new := ls.filter (fun (l : Fin 4 × Fin 68) => !s.disabled ⟨.lane, l.1.val, l.2.val⟩)
  let s := s.takeOut 4 (new.map (fun (l : Fin 4 × Fin 68) => ⟨.lane, l.1.val, l.2.val⟩))
  new.foldl (fun s (l : Fin 4 × Fin 68) => s.laneTested l.1.val l.2.val) s

/-- The registers of a channel after its training (R383): speed and capacity of a module, and STATE. -/
def State.showModule (s : State) (c : Nat) : Module → State
  | .absent => (s.put (Reg.MEM_CH_STS.STATE c) 0).put (Reg.MEM_CH_STS.CAP c) 0
  | .unsupported => s.put (Reg.MEM_CH_STS.STATE c) 4
  | .dimm big speed trains =>
    let s := (s.put (Reg.MEM_CH_STS.CAP c) (if big then 2 else 1)).put (Reg.MEM_CH_STS.SPEED c)
      (min speed.val (s.get (Reg.MEM_CH_CTL.SPEED_MAX c)))
    s.put (Reg.MEM_CH_STS.STATE c) (if trains then 2 else 3)

/-- Channels whose training ends in one cycle: those that are not UP are fenced. A channel disabled before is not trained. -/
def State.trainChannels (s : State) (ms : List Module) (cs : List Nat) : State :=
  let live := cs.filter (fun c => !s.disabled (chanUnit c))
  let bad := live.filter (fun c => !(ms.getD c .absent matches .dimm _ _ true))
  let s := s.fence 5 (bad.map chanUnit)
  live.foldl (fun s c => s.showModule c (ms.getD c .absent)) s

/-- The interleave sets (14 R385). A FAILED set stays as it is until a warm or cold reset (14 R387). -/
def State.buildSets (s : State) : State :=
  if (s.ddrSet 0).state = 2 ∨ (s.ddrSet 1).state = 2 then s
  else
    let up := (List.range 16).filter s.chanUp
    let big := up.filter (fun c => s.get (Reg.MEM_CH_STS.CAP c) == 2)
    let mask (l : List Nat) : Nat := l.foldl (fun a c => a + 2 ^ c) 0
    let slice := if big.length = up.length then 128 else 64
    let s := s.put Reg.MEM_STS.NO_DDR (b2n up.isEmpty)
    if up.isEmpty then s
    else
      let s := (((s.put (Reg.MEM_SET_W0.CHANNELS 0) (mask up)).put (Reg.MEM_SET_W0.STATE 0) 1).put (Reg.MEM_SET_W1.BASE_GIB 0) 0).put
        (Reg.MEM_SET_W1.SLICE_GIB 0) slice
      if big.isEmpty || big.length == up.length then s
      else (((s.put (Reg.MEM_SET_W0.CHANNELS 1) (mask big)).put (Reg.MEM_SET_W0.STATE 1) 1).put (Reg.MEM_SET_W1.BASE_GIB 1)
        (slice * up.length)).put (Reg.MEM_SET_W1.SLICE_GIB 1) 64

/-- The image store lies wholly in one set (14 R394). -/
def State.imgStoreOk (s : State) : Bool :=
  s.setAt (s.pair Reg.MEM_IMG_BASE_LO.ADDR_LO Reg.MEM_IMG_BASE_HI.ADDR_HI) (s.get Reg.MEM_IMG_SIZE.MIB * 2 ^ 20) matches some (_, true)

/-- Step 4, and whether it succeeds. Channels that the order does not name end one by one. With no channel UP the device also raises a fatal
error that names no unit (14 R383; log 102). -/
def State.train (s : State) (t : Training) : State × Bool :=
  let s := t.lanes.foldl State.trainLanes (s.put Reg.GLB_STS.STAGE 4)
  let rest := (List.range 16).filter (fun c => !t.order.any (fun g => g.any (fun x => x.val == c)))
  let groups := t.order.map (fun g => g.map (·.val)) ++ rest.map (fun c => [c])
  let s := (groups.foldl (fun s g => s.trainChannels t.modules g) s).buildSets
  if s.flag Reg.MEM_STS.NO_DDR then ((((s.fresh).event Ev.fatal (s.freeBytes 4)).cause Reg.TELEM_FAULT.FATAL).bootFail 3, false)
  else if !s.imgStoreOk then ((s.put Reg.MEM_STS.CFG_REJ 1).bootFail 3, false)
  else (s, true)

/-! Step 5: the start-up test -/

/-- Kinds of unit that the start-up test covers (R451). -/
def startTested : UnitKind → Bool
  | .core | .aes | .kennel | .drover | .reduce | .meshLink => true
  | .lane | .channel | .hostTile => false

/-- The first cluster without its Drover or reduction unit, or with fewer than 8 healthy cores (R452). -/
def State.noService? (s : State) : Option Nat :=
  (List.range 64).find? (fun k => !s.clusterWhole k || ((List.range 68).filter (s.pcoreOk k)).length < 8)

/-- R452. -/
def State.serviceCheck (s : State) : State × Bool :=
  match s.noService? with
  | some k => ((s.put Reg.GLB_STS.ERR_CLUSTER k).bootFail 4, false)
  | none => (s, true)

/-- Step 5, and whether it succeeds. -/
def State.startTest (s : State) (t : Tests) : State × Bool :=
  let s := t.cells.foldl (fun s (c : Nat × Nat) => if c.2 < tinkerBlocks c.1 ∧ c.1 < 68 then s.tinkerFail c.1 c.2 0 else s)
    (s.put Reg.GLB_STS.STAGE 5)
  (t.units.foldl (fun s us => s.takeOut 0 (us.filter (fun u => startTested u.kind))) s).serviceCheck

/-! Steps 7 and 8 -/

/-- Service cores that the Crier has loaded stand READY; no other core has started. -/
def State.placeResidents (s : State) : State :=
  (List.range 512).foldl (fun s n =>
    let c := n / 8 * 64 + n % 8
    if s.coreSt c = 0 ∧ s.flag (Reg.CLUSTER_LMAP.VACANT (n / 8) (n % 8)) = false then s.placeResident c else s) s

/-- What the manifest writes into the fuses once the boot completes (15 R402). -/
def State.writeFuses (s : State) : State :=
  let f := s.sec.fuses
  let f := { f with version := max f.version (s.boot.svn.getD 0), revoked := s.boot.revoke.foldl addTo f.revoked }
  { s with sec := { s.sec with fuses := f }, boot := { s.boot with svn := none, revoke := [] } }

/-- Steps 7 and 8: the boot commit (the first after a warm or cold reset builds the map, 02 R44), GLB_DET_DIGEST, READY. A compute reset ends
here: the device leaves P2 and its native ports are UP again. -/
def State.bootDone (s : State) : State :=
  let s := s.put Reg.GLB_STS.STAGE 7
  let s := if s.preReady then (List.range 64).foldl State.bootNext s else s
  let s := (detDoneEff s.commitMap).placeResidents.writeFuses
  let s := (s.put Reg.GLB_STS.STAGE 8).put Reg.GLB_STS.READY 1
  let s := s.put Reg.GLB_BOOT_MS.MS (min 0xFFFF ((s.time.cycles - s.boot.began) / 2400000))
  let s := { s with
    preReady := false, memsys := { s.memsys with since := s.time.cycles }
    boot := { s.boot with targets := [], sent := [], needResume := false } }
  let s := if s.inP2 then s.setPower s.p01 else s.settlePower
  let s := (List.range 64).foldl (fun s p => if s.get (Reg.LINK_STS.STATE p) = 3 then s.put (Reg.LINK_STS.STATE p) 2 else s) s
  (if s.flag Reg.TALLY_PS_STS.BUSY then s.psEnd 0 else s).pathsChanged

/-- The end of step 6, where R452 applies again. -/
def State.crierEnd (s : State) : State :=
  match s.serviceCheck with
  | (s, true) => s.bootDone
  | (s, false) => s

/-! Step 6: the Crier -/

/-- The resident image of a service core's number. -/
def Boot.imageOf (b : Boot) (n : Nat) : Option ResImage := b.images.find? (fun i => bitAt i.cores n)

/-- The segments of a target's image. -/
def Boot.segsOf (b : Boot) (t : Target) : List Nat :=
  match b.imageOf t.num with
  | some i => (List.range i.count).map (· + i.first)
  | none => []

/-- The physical core a service number of a cluster would take at a commit made now: by R44 before the first commit, else by the next map
(02 R44, R45; DEDUCED, log 101). -/
def State.targetCore? (s : State) (k n : Nat) : Option Nat :=
  if s.preReady then ((List.range 68).filter (s.pcoreOk k))[n]?
  else if s.flag (Reg.CLUSTER_LMAP.NEXT_VACANT k n) then none
  else some (s.get (Reg.CLUSTER_LMAP.NEXT_PCORE k n))

/-- The target of a service number now: a physical core that holds the number's image complete keeps it (R457). -/
def State.newTarget (s : State) (k n c : Nat) : Target :=
  let same (t : Target) : Bool := t.cluster == k && t.pcore == c && t.complete
    && (s.boot.imageOf t.num).isSome && (s.boot.imageOf t.num).map (·.first) == (s.boot.imageOf n).map (·.first)
  match s.boot.targets.find? same with
  | some t => { t with num := n }
  | none => { cluster := k, pcore := c, num := n }

/-- A round begins (R453, R457): the targets anew, wiped unless they hold their image; pass 1 sends the images of those that do not. With every
image in place the boot goes on. -/
def State.crierRound (s : State) : State :=
  let ts := (List.range 512).filterMap (fun x => (s.targetCore? (x / 8) (x % 8)).map (s.newTarget (x / 8) (x % 8)))
  let todo := ts.filter (fun t => !t.complete)
  let s := (todo.filter (fun t => s.coreSt (64 * t.cluster + t.num) != 0 && s.coreSt (64 * t.cluster + t.num) != 5)).foldl
    (fun s t => s.emptyCore (64 * t.cluster + t.num)) s
  let s := (s.put Reg.GLB_CRIER_STS.PASS 1).put Reg.GLB_CRIER_STS.ROUND (min 15 (s.get Reg.GLB_CRIER_STS.ROUND + 1))
  let need := todo.flatMap s.boot.segsOf
  let s := { s with boot := { s.boot with targets := ts, sent := (List.range s.boot.store.length).filter need.contains } }
  if todo.isEmpty then s.crierEnd else s

/-- The segments of the bundle in the boot host's memory, the last one of an image padded with zeros (R450). -/
def State.bundleSegs (s : State) : List (List Byte) :=
  let base := s.pair Reg.GLB_FW_ADDR_LO.ADDR_LO Reg.GLB_FW_ADDR_HI.ADDR_HI
  s.boot.images.flatMap (fun i => (List.range i.count).map (fun k =>
    let n := min 4096 (i.length - 4096 * k)
    s.hostRead s.bootHost (base + i.offset + 4096 * k) n ++ List.replicate (4096 - n) 0))

/-- Every segment and every resident image has the digest that authorises it (15 R400). -/
def Boot.digestsOk (b : Boot) : Bool :=
  b.store.map sha3 == b.table && b.images.all (fun i => sha3 (b.image i) == i.digest)

/-- Step 6 begins. From the bundle each segment is checked and kept in the image store; a segment whose rereads fail too stops the
sequence. A compute reset reads the image store alone (R462). -/
def State.crierStart (s : State) (bundle : Bool) : State :=
  let s := (s.put Reg.GLB_STS.STAGE 6).put Reg.GLB_CRIER_STS.ROUND 0
  let s := if bundle then { s with boot := { s.boot with store := s.bundleSegs } } else s
  let s := { s.put Reg.GLB_CRIER_STS.N_SEG s.boot.store.length with boot := { s.boot with targets := [] } }
  if bundle && !s.boot.digestsOk then (s.bootFail 2).put Reg.SEC_BOOT_STS.RESULT 4 else s.crierRound

/-- Steps 5 and 6. -/
def State.testAndLoad (s : State) (t : Tests) (bundle : Bool) : State :=
  match s.startTest t with
  | (s, true) => s.crierStart bundle
  | (s, false) => s

/-- Change the target on a physical core. -/
def State.modTarget (s : State) (k c : Nat) (f : Target → Target) : State :=
  { s with boot := { s.boot with targets := s.boot.targets.map (fun t => if t.cluster = k ∧ t.pcore = c then f t else t) } }

/-- The assembled image of a target has the CRC of its image entry (R456). -/
def State.crcOk (s : State) (t : Target) : Bool :=
  match s.boot.imageOf t.num with
  | some i => (crc32 (s.boot.image i)).toNat == i.crc
  | none => false

/-- CRIER_SEGMENT_RECEIVE (R454, R456): a good segment that the target lacks is placed; with the last one the image's CRC decides. -/
def segmentReceiveEff (k c seg : Nat) (good : Bool) (s : State) : State :=
  match s.boot.targets.find? (fun t => t.cluster == k && t.pcore == c) with
  | none => s
  | some t =>
    if s.get Reg.GLB_STS.STAGE ≠ 6 ∨ good = false ∨ ¬ seg ∈ s.boot.sent ∨ ¬ seg ∈ s.boot.segsOf t ∨ seg ∈ t.held then s
    else
      let held := t.held ++ [seg]
      if (s.boot.segsOf t).all held.contains then
        if s.crcOk t then (s.modTarget k c (fun t => { t with held := held })).placeResident (64 * k + t.num)
        else s.modTarget k c (fun t => { t with held := [] })
      else s.modTarget k c (fun t => { t with held := held })

/-- CRIER_GAP_REPORT (R454): a target that has not reported itself complete reports what it lacks. -/
def gapReportEff (k c : Nat) (s : State) : State :=
  if s.get Reg.GLB_STS.STAGE ≠ 6 then s
  else s.modTarget k c (fun t =>
    if t.complete then t
    else
      let lack := (s.boot.segsOf t).filter (fun x => !t.held.contains x)
      { t with report := some lack, complete := lack.isEmpty })

/-- CRIER_REPORT_WINDOW (R455 to R458): the next pass sends what some report lacked; after pass 8 the targets still incomplete are fenced
and a new round begins; a round that fences no core is the last. -/
def reportWindowEff (s : State) : State :=
  if s.get Reg.GLB_STS.STAGE ≠ 6 then s
  else
    let open_ := s.boot.targets.filter (fun t => !t.complete)
    if open_.isEmpty then s.crierEnd
    else if s.get Reg.GLB_CRIER_STS.PASS < 8 then
      let need := open_.flatMap (fun t => t.report.getD (s.boot.segsOf t))
      let s := s.put Reg.GLB_CRIER_STS.PASS (s.get Reg.GLB_CRIER_STS.PASS + 1)
      { s with boot := { s.boot with
        targets := s.boot.targets.map (fun t => { t with report := none }), sent := (List.range s.boot.store.length).filter need.contains } }
    else
      let s := (s.takeOut 1 (open_.map (fun t => ⟨.core, t.cluster, t.pcore⟩))).count Reg.GLB_CRIER_STS.FENCED open_.length
      match s.serviceCheck with
      | (s, true) => s.crierRound
      | (s, false) => s

/-! The rows -/

def execCrierSegmentReceive (cluster : ClusterId) (pcore : Fin 68) (segment : Fin 4096) (good : Bool) (s : State) : Answer :=
  .next (segmentReceiveEff cluster.val pcore.val segment.val good s)
def execCrierGapReport (cluster : ClusterId) (pcore : Fin 68) (s : State) : Answer := .next (gapReportEff cluster.val pcore.val s)
def execCrierReportWindow (s : State) : Answer := .next (reportWindowEff s)

end Sys2Proof.Machine
end

