-- ==== Sys2Proof/Machine/Resets.lean ====
section
/-! DEFINITION. Cold, warm and compute reset, alarms, fatal errors, the watchdog, the supply pins (17_bringup_reset_firmware.md R445 to R448,
R460 to R464; 15_security_and_cipher.md R417 to R419; 18 R474 to R476; 19 R484, R485). -/

namespace Sys2Proof.Machine

/-! Secrets -/

/-- Every secure region reads 0 (10 R275). -/
def State.wipeSecure (s : State) : State :=
  (s.cores.map (·.1)).foldl (fun s c => if s.coreSecure c then s.modCore c (fun k => { k with spad := memZero k.spad 0x2C000 0x4000 }) else s) s

/-- The debug level in force (15 R410). A change extends DMR4. -/
def State.setDebug (s : State) (lvl : Nat) : State :=
  if s.get Reg.SEC_DBG.LEVEL = lvl then s else (s.put Reg.SEC_DBG.LEVEL lvl).extendDmr4

/-- No nonce is outstanding. -/
def State.dropNonce (s : State) : State := { s with sec := { s.sec with nonce := none } }

/-- A raise of the debug level in progress is cancelled; its eviction runs on (15 R413). -/
def State.cancelRaise (s : State) : State := { s with sec := { s.sec with raise := none } }

/-- A key LOAD whose record's read still waits ends, with an open result (log 63). -/
def State.endKeyLoads (s : State) : State :=
  s.sec.keyLoads.foldl (fun s (x : HostId × Nat) => s.fresh.keyCmdEnd x.1 ((Config.freeByte s.freeCtr 0).toNat % 16))
    { s with sec := { s.sec with keyLoads := [] } }

/-- AES requests in flight return nothing, key commands that waited for them end, and every key slot is erased (15 R418). -/
def State.eraseAllKeys (s : State) : State :=
  let s := s.endKeyLoads
  let s := { s with cores := s.cores.map (fun (e : Nat × Core) => (e.1, { e.2 with aes := [] })) }
  s.flushKeyCmds.eraseKeys (fun _ => true)

/-! Compute reset (R460 to R462) -/

/-- Queues, queue pairs, windows, faults, triggers, collectives and reductions are gone without completions. A WIN_REVOKE in progress is
told: its window is FREE (DEDUCED, log 96). -/
def State.clearWork (s : State) : State :=
  let s := s.queues.foldl (fun s (e : Nat × Queue) => s.dropQueue e.1) s
  let s := s.qps.foldl (fun s (e : Nat × Qp) => s.dropQp e.1) s
  let s := { s with kennel := {}, held := [], tiles := [], trigs := [], trigPend := [], colls := [], collEnds := [], redEnds := [] }
  let regs := s.wins.revs.flatMap (fun r => r.waiters.filter (fun w => w matches .reg _))
  let s := regs.foldl State.tellRevoked s.freeWindows
  let s := (s.setSheep 0 { seq := s.sheep0.seq }).setSheep 1 { seq := s.sheep1.seq }
  let s := { s with bars := (s.bars.map (fun (e : Nat × BarUnit) => (e.1, { e.2 with run := none }))).filter (fun (e : Nat × BarUnit) => e.2 != ({} : BarUnit)) }
  s.clusters.foldl (fun s (e : Nat × Cluster) => (s.setCluster e.1 {}).showRed e.1) s

/-- Cores are EMPTY and wiped; handles that no schedule names are gone; conversion profiles are clear (11 R337). -/
def State.clearCores (s : State) : State :=
  let s := ((s.cores.map (·.1)).foldl State.emptyCore s).flushKeyCmds
  { s with spares := [] }.purgeHandles.resetRegs (fun o => 0x600000 ≤ o && o < 0x700000 && 0x1000 ≤ (o - 0x600000) % 0x4000
    && (o - 0x600000) % 0x4000 < 0x2000)

/-- FROZEN partitions are SEALED and FROZEN instances ACTIVE (R461); commands in progress end with BAD_STATE (R462). -/
def State.clearParts (s : State) : State :=
  let s := (List.range 64).foldl (fun s p => if s.pstate p = 3 then s.put (Reg.PART_STS.STATE p) 2 else s) s
  let s := (List.range 1023).foldl (fun s i => if s.get (Reg.PART_INST.STATE i) = 2 then s.put (Reg.PART_INST.STATE i) 1 else s) s
  let hs := s.parts.freezes.map (·.host) ++ s.parts.insts.map (·.host)
  hs.foldl (fun s h => s.partCmdEnd h 1) { s with parts := { s.parts with freezes := [], insts := [] } }

/-- Packets for the device's own endpoints that wait are dropped and counted (03 Table 3.6), and what the device had yet to send is gone. -/
def State.clearPackets (s : State) : State :=
  let s := s.rxq.foldl (fun s x => (s.pktGone x).count (Reg.LINK_DROP_FENCED.COUNT x.port))
    { s with rxq := [], sched := { s.sched with paced := [] } }
  (s.ports.filter (fun (e : Nat × Port) => !e.2.missq.isEmpty)).foldl (fun s (e : Nat × Port) =>
    ((s.setPort e.1 { s.port e.1 with missq := [] }).count (Reg.LINK_DROP_FENCED.COUNT e.1) e.2.missq.length).missRelease e.1) s

/-- A compute reset has no effect before READY, in P3, during a WAKE, or once the sequence has failed (R464; log 99). -/
def State.computeAbsorbed (s : State) : Bool :=
  !s.pins.pwrOk || s.preReady || s.get Reg.TALLY_STS.PSTATE == 3 || s.get Reg.GLB_STS.STAGE == 11
    || (!s.inP2 && s.get Reg.GLB_STS.STAGE != 8)

/-- A compute reset is triggered. `need`: its exit needs RESUME. What R460 clears is cleared at once (log 96); COMPUTE_RESET_CLEARED ends the
clearing. A second trigger restarts it and keeps the stricter exit (R462). -/
def State.computeReset (s : State) (need : Bool) : State :=
  if s.computeAbsorbed then s
  else
    let s := ((s.put Reg.GLB_STS.RESET_EVT 1).put Reg.GLB_STS.READY 0).put Reg.GLB_STS.STAGE 9
    let s := s.setPower 2
    let s := (List.range 64).foldl (fun s p =>
      if s.native p && s.get (Reg.LINK_STS.STATE p) == 2 then s.put (Reg.LINK_STS.STATE p) 3 else s) s
    let s := s.clearWork.clearCores.clearParts.clearPackets
    { s with boot := { s.boot with targets := [], sent := [], clearing := true, needResume := s.boot.needResume || need } }

/-- COMPUTE_RESET_CLEARED: the device exits, or holds until RESUME. -/
def computeClearedEff (t : Tests) (s : State) : State :=
  if !s.boot.clearing then s
  else
    let s := { s with boot := { s.boot with clearing := false } }
    if s.boot.needResume then s.put Reg.GLB_STS.STAGE 10 else s.testAndLoad t false

/-- RESUME. -/
def State.resume (s : State) (t : Tests) : State :=
  if s.get Reg.GLB_STS.STAGE = 10 ∧ s.get Reg.SEC_ALARM_STS.PRESENT = 0 then s.testAndLoad t false else s

/-! The boot ROM (Table 17.2, steps 1 and 2) -/

/-- Resets that straps and fuses give (R445, R446; 03 R52; 04 R90; 16 R430; 15 R407; 02 R40). -/
def State.strapResets (s : State) : State :=
  let host := s.get Reg.GLB_STRAP.HOST
  let coord := s.get Reg.GLB_STRAP.COORD
  let s := s.put Reg.GLB_STS.BOOT_HOST (b2n (host == 1 || host == 2))
  let s := if s.flag Reg.GLB_STRAP.LINK then (List.range 64).foldl (fun s p => s.put (Reg.LINK_CFG.MODE p) 1) s else s
  let s := if popCount coord 16 % 2 = 1 then s.put Reg.MESH_STS.COORD_PARITY 1
    else ((s.put Reg.MESH_SELF.X (bits coord 0 5)).put Reg.MESH_SELF.Y (bits coord 5 5)).put Reg.MESH_SELF.Z (bits coord 10 5)
  let w := if s.flag Reg.GLB_STRAP.ENV then 880 else 600
  let s := (s.put Reg.TALLY_ENV.W w).put Reg.TALLY_BUDGET.W w
  let s := s.sec.fuses.dum.foldl (fun s (e : Nat × Word) => s.setReg e.1 e.2) s
  let s := (List.range 16).foldl (fun s c => if s.disabled (chanUnit c) then s.put (Reg.MEM_CH_STS.STATE c) 3 else s) s
  s.put Reg.SEC_LC.STATE s.sec.fuses.lc

/-- The identity key is derived: DEVICE_ID (15 R404). -/
def State.deriveIdentity (s : State) : State :=
  if s.sec.fuses.lc = 4 then s
  else
    let d := sha3 (Config.mldsaPublic s.sec.fuses.seed)
    (List.range 4).foldl (fun s i => s.setReg (Reg.SEC_DEVICE_ID.off i) (BitVec.ofNat 32 (leAt d (4 * i) 4))) s

/-- Step 2 with the self-test's result, up to WAIT_MANIFEST. In SCRAP the device stays in P3 (15 R409). -/
def State.bootRom (s : State) (ok : Bool) : State :=
  if !ok then s.bootFail 5
  else
    let s := ((s.deriveIdentity).extend (Reg.SEC_DMR.off 0 0) Config.romDigest).extendDmr4
    let s : State := { s.put Reg.GLB_STS.STAGE 2 with boot := { s.boot with warm := false } }
    if s.sec.fuses.lc = 4 then { s.setPower 3 with pins := { s.pins with mainEn := false, mainPg := false } } else s

/-! Warm reset (R460, R464) -/

/-- The registers that a warm reset keeps whole: straps, sticky area, SEC_ALARM_STS, TALLY_DOM_TOT, TIME_PORT, MEM_CH_CTL, the failure counts,
TELEM_UPTIME, the host ports' links. -/
def warmKeeps (o : Nat) : Bool :=
  o == Reg.GLB_STRAP.off || o == Reg.TELEM_STK_STS.off || o == Reg.SEC_ALARM_STS.off || o == Reg.TIME_PORT.off || o == Reg.TELEM_UPTIME.off
    || o == Reg.HOSTIF_PORT_STS.off 0 || o == Reg.HOSTIF_PORT_STS.off 1
    || (List.range 15).any (fun d => o == Reg.TALLY_DOM_TOT_LO.off d || o == Reg.TALLY_DOM_TOT_HI.off d)
    || (List.range 16).any (fun c => o == Reg.MEM_CH_CTL.off c)
    || (List.range 11).any (fun u => o == Reg.TELEM_FIT_FAIL.off u || o == Reg.TELEM_FIT_INT.off u)

/-- A warm reset, with the result of the self-test that follows. It has no effect in OFF and while a cold reset runs up to WAIT_MANIFEST. -/
def State.warmReset (s : State) (ok : Bool) : State :=
  if !s.pins.pwrOk || s.get Reg.GLB_STS.STAGE < 2 then s
  else
    let t : State := {
      pending := s.pending, regs := s.regs.filter (fun (e : Nat × Word) => warmKeeps e.1), time := { cycles := s.time.cycles }
      scriv := { sticky := s.scriv.sticky, stickyNext := s.scriv.stickyNext }
      host0 := { d3hot := s.host0.d3hot }, host1 := { d3hot := s.host1.d3hot }
      sec := { fuses := s.sec.fuses }, boot := { began := s.time.cycles, warm := true }
      pins := { s.pins with mainEn := true, mainPg := s.pins.mainPg || s.get Reg.TALLY_STS.PSTATE == 3 }
      parts := { saves := s.parts.saves }, poisoned := s.poisoned
      hostMem0 := s.hostMem0, hostMem1 := s.hostMem1, ddr := s.ddr, ddrBad := s.ddrBad, out := s.out, freeCtr := s.freeCtr }
    let t := (t.strapResets.put Reg.TIME_CTL.SRC (s.get Reg.TIME_CTL.SRC)).newSource
    let t := (t.put Reg.TELEM_FAULT.ALARM (s.get Reg.TELEM_FAULT.ALARM)).put Reg.TELEM_FAULT.HTC_WDOG (s.get Reg.TELEM_FAULT.HTC_WDOG)
    let t := (t.put Reg.TALLY_STS.CAP_LOW (b2n s.pins.capLow)).put Reg.GLB_STS.RESET_EVT 1
    (t.showFault).bootRom ok

/-! Cold reset (R445 to R447; 19 R484, R485) -/

/-- POWER_LOSS: PWR_OK falls; everything but the fuses is gone (15 Table 15.6) and the open-drain pins are released. -/
def powerLossEff (s : State) : State :=
  { pending := s.pending, sec := { fuses := s.sec.fuses }, pins := { capLow := s.pins.capLow }
    parts := { saves := s.parts.saves }, hostMem0 := s.hostMem0, hostMem1 := s.hostMem1, poisoned := s.poisoned, out := s.out, freeCtr := s.freeCtr }

/-- Fuses burned at manufacture, in MANUF (log 7). -/
def Fuses.burn (f : Fuses) (b : Burned) : Fuses :=
  if f.lc = 0 then { f with fw := b.fw, version := b.version.toNat, auth := b.auth, seed := b.seed, dum := b.dum.foldl (fun m e => m.set e.1 e.2) [] }
  else f

/-- POWER_ON: PWR_OK rises. With MAIN_PG low the sequence stays in step 2 until MAIN_PG_TIMEOUT. -/
def powerOnEff (x : Straps) (burn : Option Burned) (ok mainPg : Bool) (s : State) : State :=
  if s.pins.pwrOk then s
  else
    let f := match burn with
      | some b => s.sec.fuses.burn b
      | none => s.sec.fuses
    let s := { powerLossEff s with sec := { fuses := f } }
    let s := { s with pins := { s.pins with pwrOk := true, mainEn := true, mainPg := mainPg } }
    let s := ((s.put Reg.GLB_STRAP.HOST x.host.toNat).put Reg.GLB_STRAP.TIME x.time.toNat).put Reg.GLB_STRAP.LINK (b2n x.link)
    let s := (s.put Reg.GLB_STRAP.ENV (b2n x.env)).put Reg.GLB_STRAP.COORD x.coord.toNat
    let s := ((s.strapResets.put Reg.TIME_CTL.SRC x.time.toNat).newSource).put Reg.TALLY_STS.CAP_LOW (b2n s.pins.capLow)
    let s := s.put Reg.GLB_STS.STAGE 1
    if mainPg || !ok then s.bootRom ok else s

/-- MAIN_PG_TIMEOUT: step 2 fails (19 R484). -/
def mainPgTimeoutEff (s : State) : State :=
  if s.pins.pwrOk && s.pins.mainEn && !s.pins.mainPg && s.get Reg.GLB_STS.STAGE == 1 then s.bootFail 5 else s

/-! Errors of the whole device -/

/-- ALARM (15 R418), for sensors that raise one in the same microsecond. A disabled sensor shows its condition and nothing more (DEDUCED,
log 103). -/
def State.alarm (s : State) (sensors : Nat) : State :=
  if !s.pins.pwrOk then s
  else
    let s := s.put Reg.SEC_ALARM_STS.PRESENT (s.get Reg.SEC_ALARM_STS.PRESENT ||| sensors)
    let on := (setBitsOf sensors 5).filter (bitAt (s.get Reg.SEC_ALARM_EN.EN))
    if on.isEmpty then s
    else
      let s := ((s.eraseAllKeys.wipeSecure).dropNonce.cancelRaise).setDebug 0
      let s := on.foldl (fun s b => s.event Ev.alarm (leBytes 1 (2 ^ b))) s
      let s := s.put Reg.SEC_ALARM_STS.LATCHED (on.foldl (fun a b => a ||| 2 ^ b) (s.get Reg.SEC_ALARM_STS.LATCHED))
      let s := (s.count Reg.SEC_ALARM_CNT.COUNT on.length).count (Reg.TELEM_FIT_FAIL.COUNT 9) (on.filter (· < 2)).length
      (s.cause Reg.TELEM_FAULT.ALARM).computeReset true

/-- ALARM_CONDITION_END (15 R419). -/
def alarmEndEff (b : Nat) (s : State) : State := s.put (Reg.SEC_ALARM_STS.PRESENT.bit b) 0

/-- MAIN_PG_FALL: the voltage alarm (19 R485). -/
def mainPgFallEff (s : State) : State :=
  if s.pins.pwrOk && s.pins.mainEn && s.pins.mainPg then { s with pins := { s.pins with mainPg := false } }.alarm 1 else s

/-- FATAL_ERROR (R465; 18 R467, R468). -/
def fatalEff (u : UnitId) (s : State) : State :=
  if !s.pins.pwrOk then s else ((s.event Ev.fatal (unitBytes u)).cause Reg.TELEM_FAULT.FATAL).computeReset true

/-- HTC_WATCHDOG (18 R476). -/
def watchdogResetEff (ok : Bool) (s : State) : State :=
  if !s.pins.pwrOk then s
  else (((s.event Ev.htcWatchdog).cause Reg.TELEM_FAULT.HTC_WDOG).count (Reg.TELEM_FIT_FAIL.COUNT 8)).warmReset ok

/-- ALIVE_N_TOGGLE (18 R475): while the boot ROM or its firmware runs. -/
def aliveEff (s : State) : State :=
  if s.pins.pwrOk && s.get Reg.GLB_STS.STAGE != 0 then { s with pins := { s.pins with alive := !s.pins.alive } } else s

/-- UCIE_LANE_REPAIR (02 R50; 18 R478). -/
def ucieEff (s : State) : State := if s.pins.pwrOk then s.count (Reg.TELEM_FIT_FAIL.COUNT 5) else s

/-- A GLB_RESET write: a warm reset overrides the rest (R464); COMPUTE acts before RESUME, which it then leaves without effect. -/
def resetCtlEff (v : Word) (ok : Bool) (t : Tests) (s : State) : State :=
  if wordField v 0 1 = 1 then s.warmReset ok
  else if wordField v 1 1 = 1 then s.computeReset false
  else if wordField v 2 1 = 1 then s.resume t
  else s

/-! The rows -/

def execPowerOn (straps : Straps) (burned : Option Burned) (selftest mainPg : Bool) (s : State) : Answer :=
  .next (powerOnEff straps burned selftest mainPg s)
def execPowerLoss (s : State) : Answer := .next (powerLossEff s)
def execMainPgTimeout (s : State) : Answer := .next (mainPgTimeoutEff s)
def execMainPgFall (s : State) : Answer := .next (mainPgFallEff s)
def execWarmReset (host : HostId) (selftest : Bool) (s : State) : Answer :=
  .next (s.hostWrite host Reg.GLB_RESET.off (resetCtlEff 1 selftest {}))
def execComputeReset (host : HostId) (s : State) : Answer := .next (s.hostWrite host Reg.GLB_RESET.off (resetCtlEff 2 true {}))
def execComputeResetCleared (tests : Tests) (s : State) : Answer := .next (computeClearedEff tests s)
def execComputeResume (host : HostId) (tests : Tests) (s : State) : Answer :=
  .next (s.hostWrite host Reg.GLB_RESET.off (resetCtlEff 4 true tests))
def execFatalError (unit : UnitId) (s : State) : Answer := .next (fatalEff unit s)
def execAlarm (sensors : BitVec 5) (s : State) : Answer := .next (s.alarm sensors.toNat)
def execAlarmConditionEnd (sensor : Fin 5) (s : State) : Answer := .next (alarmEndEff sensor.val s)
def execHtcWatchdog (selftest : Bool) (s : State) : Answer := .next (watchdogResetEff selftest s)
def execAliveNToggle (s : State) : Answer := .next (aliveEff s)
def execUcieLaneRepair (s : State) : Answer := .next (ucieEff s)

end Sys2Proof.Machine
end

