-- ==== Sys2Proof/Machine/Mastiff.lean ====
section
/-! DEFINITION. Mastiff: measurements, attestation, life cycle, debug, the mailbox, SPDM and IDE_KM (15_security_and_cipher.md R399 to R416,
R425, R426). -/

namespace Sys2Proof.Machine

/-- A list as exactly n bytes. -/
def fitBytes (n : Nat) (b : List Byte) : List Byte := (b ++ List.replicate n 0).take n

/-- The device's public key, 1,312 bytes. -/
def State.identityKey (s : State) : List Byte := fitBytes 1312 (Config.mldsaPublic s.sec.fuses.seed)

/-- DEVICE_ID. -/
def State.deviceId (s : State) : List Byte := (List.range 4).flatMap (fun i => leBytes 4 (s.reg (Reg.SEC_DEVICE_ID.off i)).toNat)

/-- SCRAP. -/
def State.scrapped (s : State) : Bool := s.get Reg.SEC_LC.STATE == 4

/-! Reports (R405) -/

/-- Bytes 0 to 671 of a report (Table 15.2). -/
def State.reportBody (s : State) (nonce : List Byte) (part : Option Nat) : List Byte :=
  leBytes 4 0x54505441 ++ leBytes 2 1
    ++ leBytes 1 (s.get Reg.SEC_LC.STATE + 8 * s.get Reg.SEC_DBG.LEVEL + 32 * s.get Reg.TALLY_STS.PSTATE)
    ++ leBytes 1 (match part with | some p => 1 + 2 * p | none => 0)
    ++ s.deviceId ++ leBytes 8 s.sec.fwVersion ++ fitBytes 32 nonce ++ s.digestAt (Reg.GLB_DET_DIGEST.off 0)
    ++ (List.range 16).flatMap (fun n => s.digestAt (Reg.SEC_DMR.off n 0))
    ++ (match part with | some p => s.digestAt (Reg.SEC_PMR.off p 0) | none => List.replicate 32 0)
    ++ leBytes 8 s.time.ftNs.toNat ++ List.replicate 24 0

/-- A report with its signature. -/
def State.report (s : State) (nonce : List Byte) (part : Option Nat) : List Byte :=
  let b := s.reportBody nonce part
  b ++ fitBytes 2420 (Config.mldsaSign s.sec.fuses.seed (sha3 b))

/-! Signed records (Table 15.4) -/

/-- The authority fuses whose key may sign: A0 and A1, and for an observe token A2 and A3 (R412). -/
def Sec.signers (x : Sec) (four : Bool) : List (List Byte) := (x.fuses.auth.take (if four then 4 else 2)).filter (fun d => !d.isEmpty)

/-- Check a record against MAGIC, the byte 6 it must hold, the nonce, the keys that may sign: 0 where it is accepted, else SIGNATURE 4 or
NONCE 5, in the order of R411. -/
def State.recordResult (s : State) (r : List Byte) (magic target : Nat) (four : Bool) (nonce : Option (List Byte)) : Nat :=
  let key := slice r 64 1312
  if leAt r 0 4 ≠ magic ∨ leAt r 4 2 ≠ 1 ∨ leAt r 6 1 ≠ target ∨ leAt r 7 1 ≠ 0 ∨ zeroAt r 56 8 = false ∨ slice r 8 16 ≠ s.deviceId then 4
  else if nonce ≠ some (slice r 24 32) then 5
  else if ¬ sha3 key ∈ s.sec.signers four ∨ Config.mldsaVerify key (sha3 (r.take 1376)) (slice r 1376 2420) = false then 4
  else 0

/-! Wipes -/

/-- Every context is gone from the Kennel. -/
def State.clearKennel (s : State) : State := { (s.qps.foldl (fun s (e : Nat × Qp) => s.dropQp e.1) s) with kennel := {} }

/-! The mailbox (R426) -/

/-- A mailbox command completes. -/
def State.mbEnd (s : State) (h : HostId) (r : Nat) : State :=
  ((s.put (Reg.SEC_MB_STS.BUSY h) 0).put (Reg.SEC_MB_STS.DONE h) 1).put (Reg.SEC_MB_STS.RESULT h) r

/-- The argument area of a host's command. -/
def State.mbArea (s : State) (h : HostId) : Nat := s.pair (Reg.SEC_MB_ADDR_LO.ADDR_LO h) (Reg.SEC_MB_ADDR_HI.ADDR_HI h)

/-- NONCE (R411): the draw is open. -/
def State.mbNonce (s : State) (h : HostId) : State :=
  let n := s.freeBytes 32
  ({ s.fresh with sec := { s.sec with nonce := some n } }.writeHost h (s.mbArea h) n).mbEnd h 0

/-- How a raise stands in Table 15.5: none where it is refused; else whether a token is needed, whether A2 and A3 may sign it, whether every
partition is evicted. -/
def raiseRow (lc lvl : Nat) : Option (Bool × Bool × Bool) :=
  match lc, lvl with
  | 0, _ => some (false, false, false)
  | 1, 1 => some (false, false, false)
  | 1, _ => some (true, false, true)
  | 2, 1 => some (true, true, false)
  | 2, _ => some (true, false, true)
  | 3, 1 => some (false, false, false)
  | 3, _ => some (false, false, true)
  | _, _ => none

/-- The eviction of R413 begins: every partition that is not FREE is reset, and its owner is told. -/
def State.evictAll (s : State) (lvl : Nat) : State :=
  let ps := (List.range 64).filter (fun p => s.pstate p != 0)
  let s := ps.foldl (fun s p => (if s.flag (Reg.PART_STS.BUSY p) then s else s.startReset p false).partEvent Ev.partitionEvicted p) s
  { s.put Reg.SEC_DBG.EVICTING 1 with sec := { s.sec with raise := some lvl, evicting := ps } }

/-- DBG_UNLOCK (R410 to R414). A level that is no raise is NOT_ALLOWED; a raise during an eviction is BAD_STATE (DEDUCED, log 104). -/
def State.mbUnlock (s : State) (h : HostId) (lvl : Nat) : State :=
  let nonce := s.sec.nonce
  let s := s.dropNonce
  if h ≠ s.bootHost then s.mbEnd h 3
  else if lvl ≠ 1 ∧ lvl ≠ 2 then s.mbEnd h 2
  else match raiseRow (s.get Reg.SEC_LC.STATE) lvl with
    | none => s.mbEnd h 6
    | some (token, four, evicts) =>
      if lvl ≤ s.get Reg.SEC_DBG.LEVEL ∨ (lvl = 2 ∧ s.get Reg.TALLY_STS.PSTATE = 3) then s.mbEnd h 6
      else if s.flag Reg.SEC_DBG.EVICTING then s.mbEnd h 1
      else
        let r := if token then s.recordResult (s.hostRead h (s.mbArea h) 3796) 0x4E4B4F54 lvl four nonce else 0
        if r ≠ 0 then s.mbEnd h r
        else if evicts then (s.evictAll lvl).mbEnd h 0
        else (s.setDebug lvl).mbEnd h 0

/-- The transitions of Table 15.3. -/
def lcAllowed (lc target : Nat) : Bool :=
  (lc == 0 && target == 1) || (lc == 1 && target == 2) || (lc == 2 && target == 3) || (lc == 3 && target == 4) || (lc < 3 && target == 4)

/-- LC_ADVANCE (R407 to R409); RMA needs a signed record. -/
def State.mbAdvance (s : State) (h : HostId) (target : Nat) (ok : Bool) : State :=
  let nonce := s.sec.nonce
  let s := s.dropNonce
  if h ≠ s.bootHost then s.mbEnd h 3
  else if 4 < target then s.mbEnd h 2
  else if !lcAllowed s.sec.fuses.lc target then s.mbEnd h 6
  else if (List.range 64).any (fun p => s.pstate p != 0) then s.mbEnd h 1
  else
    let r := if target = 3 then s.recordResult (s.hostRead h (s.mbArea h) 3796) 0x414D5241 3 false nonce else 0
    if r ≠ 0 then s.mbEnd h r
    else
      let s := s.wipeSecure.eraseAllKeys.clearKennel
      ({ s with sec := { s.sec with fuses := { s.sec.fuses with lc := target } } }).warmReset ok

/-- ATTEST (R405). -/
def State.mbAttest (s : State) (h : HostId) (arg : Nat) : State :=
  let p := bits arg 1 6
  if s.scrapped then s.mbEnd h 6
  else if bitAt arg 7 then s.mbEnd h 2
  else if bitAt arg 0 && !s.owns h p then s.mbEnd h 3
  else
    let a := s.mbArea h
    (s.writeHost h (a + 0x40) (s.report (s.hostRead h a 32) (if bitAt arg 0 then some p else none))).mbEnd h 0

/-- FUSE_KEY (R407): authority fuse A2 or A3, once each; a second write is NOT_ALLOWED (DEDUCED, log 104). -/
def State.mbFuseKey (s : State) (h : HostId) (n : Nat) : State :=
  if h ≠ s.bootHost then s.mbEnd h 3
  else if n ≠ 2 ∧ n ≠ 3 then s.mbEnd h 2
  else
    let auth := (s.sec.fuses.auth ++ List.replicate 4 []).take 4
    if s.sec.fuses.lc ≠ 1 ∨ auth.getD n [] ≠ [] then s.mbEnd h 6
    else
      let f := { s.sec.fuses with auth := auth.set n (s.hostRead h (s.mbArea h) 32) }
      ({ s with sec := { s.sec with fuses := f } }).mbEnd h 0

/-- EXTEND (R403). -/
def State.mbExtend (s : State) (h : HostId) (n : Nat) : State :=
  if h ≠ s.bootHost then s.mbEnd h 3
  else if !inRange n 8 15 then s.mbEnd h 2
  else (s.extend (Reg.SEC_DMR.off n 0) (s.hostRead h (s.mbArea h) 32)).mbEnd h 0

/-- A write of SEC_MB_CMD. `ok`: the result of the self-test that follows a life-cycle transition. -/
def mbCmdEff (h : HostId) (v : Word) (seen : Seen) (ok : Bool) (s : State) : State :=
  let busy := s.flag (Reg.SEC_MB_STS.BUSY h)
  let arg := wordField v 8 8
  let s := (s.put (Reg.SEC_MB_CMD.OP h) (wordField v 0 4)).put (Reg.SEC_MB_CMD.ARG h) arg
  if wordField v 31 1 = 0 ∨ busy = true then s
  else
    let s := s.see seen
    match wordField v 0 4 with
    | 1 => s.mbNonce h
    | 2 => s.mbUnlock h arg
    | 3 => s.mbAdvance h arg ok
    | 4 => s.mbAttest h arg
    | 5 => if s.scrapped then s.mbEnd h 6 else (s.writeHost h (s.mbArea h) s.identityKey).mbEnd h 0
    | 6 => s.mbExtend h arg
    | 7 => s.mbFuseKey h arg
    | _ => s.mbEnd h 2

/-- A SEC_MB_CMD word with GO. -/
def mbWord (op arg : Nat) : Word := BitVec.ofNat 32 (2 ^ 31 + arg * 2 ^ 8 + op)

/-! Debug (R410, R413) -/

/-- A write of SEC_DBG: a lower level lowers it, and cancels a raise to a higher one. -/
def dbgWriteEff (v : Word) (s : State) : State :=
  let x := wordField v 2 2
  let s := match s.sec.raise with
    | some l => if x < l then s.cancelRaise else s
    | none => s
  if x < s.get Reg.SEC_DBG.LEVEL then s.setDebug x else s

/-- EVICTION_DONE (R413): the resets of the evicted partitions have ended; their regions are zero, they are released, keys and Kennel are gone,
and the level takes effect unless it has been cancelled. -/
def evictionDoneEff (s : State) : State :=
  if !s.flag Reg.SEC_DBG.EVICTING || s.sec.evicting.any (fun p => s.flag (Reg.PART_STS.BUSY p)) then s
  else
    let mine (p : Nat) : Bool := s.sec.evicting.contains p
    let s := (s.regions.filter (fun r => mine r.part)).foldl (fun s r =>
      { s with ddr := memZero s.ddr r.base r.size, ddrBad := s.ddrBad.filter (fun l => !within (64 * l) 64 r.base r.size) }) s
    let s := s.sec.evicting.foldl State.freePartition s
    let s := s.eraseAllKeys.clearKennel.put Reg.SEC_DBG.EVICTING 0
    let s := match s.sec.raise with
      | some l => s.setDebug l
      | none => s
    { s with sec := { s.sec with raise := none, evicting := [] } }

/-! The board controller (R405, R425; 18 R473; 19 R482) -/

/-- The 32 bytes of the sticky record at an index; zeros where none stands (DESIGN CHOICE, log 105). -/
def State.stickyBytes (s : State) (i : Nat) : List Byte :=
  match s.scriv.sticky[i]? with
  | some (_, r) => evBytes r
  | none => List.replicate 32 0

/-- The SPDM responder of a host's port. -/
def State.ide (s : State) (h : HostId) : IdePort := if h = 0 then s.sec.ide0 else s.sec.ide1

/-- Change it. -/
def State.setIde (s : State) (h : HostId) (x : IdePort) : State :=
  { s with sec := if h = 0 then { s.sec with ide0 := x } else { s.sec with ide1 := x } }

/-- MCTP_REQUEST. -/
def mctpEff (m : Mctp) (s : State) : State :=
  if !s.pins.pwrOk || s.get Reg.GLB_STS.STAGE == 0 then s
  else match m with
    | .attest nonce part => if s.scrapped then s else s.emit (.mctp (s.report nonce (part.map (·.val))))
    | .sticky i => s.emit (.mctp (s.stickyBytes i.val))
    | .lifeCycle => s.emit (.mctp (leBytes 4 (s.reg Reg.SEC_LC.off).toNat))
    | .alarms => s.emit (.mctp (leBytes 4 (s.reg Reg.SEC_ALARM_STS.off).toNat))
    | .psk h => s.setIde h { s.ide h with psk := true }
    | .reset ok => s.warmReset ok

/-! SPDM and IDE (R425). What the messages carry is the SPDM and PCI Express specifications' (PRESUMED, log 106). -/

/-- SPDM_MESSAGE: PSK_EXCHANGE under the port's pre-shared key sets the session up. -/
def spdmEff (h : HostId) (m : Spdm) (s : State) : State :=
  if !s.hostUp h then s
  else
    let x := s.ide h
    match m with
    | .version | .capabilities | .algorithms => s.emit (.doe h true)
    | .pskExchange good =>
      if x.psk && good then (s.setIde h { x with session := true }).emit (.doe h true) else s.emit (.doe h false)
    | .pskFinish good => s.emit (.doe h (x.session && good))
    | .endSession => (s.setIde h { x with session := false }).emit (.doe h x.session)
    | .other => s.emit (.doe h false)

/-- The bit of SEC_HOSTSEC.SECURE of a stream. -/
def State.setSecure (s : State) (h : HostId) (n : Nat) (b : Bool) : State := s.put ((Reg.SEC_HOSTSEC.SECURE h).bit n) (b2n b)

/-- IDE_KM_MESSAGE, inside the session: keys, then K_SET_GO makes the stream Secure. -/
def ideKmEff (h : HostId) (m : IdeKm) (s : State) : State :=
  let x := s.ide h
  if !s.hostUp h then s
  else if !x.session then s.emit (.doe h false)
  else match m with
    | .query => s.emit (.doe h true)
    | .keyProg n => (s.setIde h { x with keyed := addTo x.keyed n.val }).emit (.doe h true)
    | .keySetGo n => if x.keyed.contains n.val then (s.setSecure h n.val true).emit (.doe h true) else s.emit (.doe h false)
    | .keySetStop n => ((s.setIde h { x with keyed := x.keyed.filter (· != n.val) }).setSecure h n.val false).emit (.doe h true)

/-! The test port (19_pins_electrical_package.md R490). No row of the table drives its pins (log 154). -/

/-- What a TAP instruction reaches. -/
inductive TapInstr where
  | bypass | boundaryScan | internalScan
  deriving DecidableEq, Repr

/-- The TAP offers an instruction: TRST_N low holds it in reset; boundary scan in MANUF and RMA alone, scan of internal state there with DBG_INVASIVE in
force. -/
def State.tapOffers (s : State) (i : TapInstr) : Bool :=
  let lc := s.get Reg.SEC_LC.STATE
  s.pins.trstN && match i with
    | .bypass => true
    | .boundaryScan => lc == 0 || lc == 3
    | .internalScan => (lc == 0 || lc == 3) && s.get Reg.SEC_DBG.LEVEL == 2

/-! The rows -/

def execNonce (host : HostId) (s : State) : Answer :=
  .next (s.hostWrite host (Reg.SEC_MB_CMD.off host) (mbCmdEff host (mbWord 1 0) [] true))
def execNonceExpiry (s : State) : Answer := .next s.dropNonce
def execDbgUnlock (host : HostId) (level : BitVec 8) (seen : Seen) (s : State) : Answer :=
  .next (s.hostWrite host (Reg.SEC_MB_CMD.off host) (mbCmdEff host (mbWord 2 level.toNat) seen true))
def execEvictionDone (s : State) : Answer := .next (evictionDoneEff s)
def execDbgLower (host : HostId) (level : BitVec 2) (s : State) : Answer :=
  .next (s.hostWrite host Reg.SEC_DBG.off (dbgWriteEff (BitVec.ofNat 32 (4 * level.toNat))))
def execLcAdvance (host : HostId) (target : BitVec 8) (seen : Seen) (selftest : Bool) (s : State) : Answer :=
  .next (s.hostWrite host (Reg.SEC_MB_CMD.off host) (mbCmdEff host (mbWord 3 target.toNat) seen selftest))
def execAttest (host : HostId) (arg : BitVec 8) (seen : Seen) (s : State) : Answer :=
  .next (s.hostWrite host (Reg.SEC_MB_CMD.off host) (mbCmdEff host (mbWord 4 arg.toNat) seen true))
def execIdentity (host : HostId) (s : State) : Answer :=
  .next (s.hostWrite host (Reg.SEC_MB_CMD.off host) (mbCmdEff host (mbWord 5 0) [] true))
def execExtend (host : HostId) (dmr : BitVec 8) (seen : Seen) (s : State) : Answer :=
  .next (s.hostWrite host (Reg.SEC_MB_CMD.off host) (mbCmdEff host (mbWord 6 dmr.toNat) seen true))
def execFuseKey (host : HostId) (fuse : BitVec 8) (seen : Seen) (s : State) : Answer :=
  .next (s.hostWrite host (Reg.SEC_MB_CMD.off host) (mbCmdEff host (mbWord 7 fuse.toNat) seen true))
def execMctpRequest (request : Mctp) (s : State) : Answer := .next (mctpEff request s)
def execSpdmMessage (host : HostId) (request : Spdm) (s : State) : Answer := .next (spdmEff host request s)
def execIdeKmMessage (host : HostId) (message : IdeKm) (s : State) : Answer := .next (ideKmEff host message s)

end Sys2Proof.Machine
end

