-- ==== Sys2Proof/Machine/Boot.lean ====
section
/-! DEFINITION. The firmware bundle and GO, step 3 of the power-on sequence (17_bringup_reset_firmware.md R449, R450; 15_security_and_cipher.md
R399 to R403). -/

namespace Sys2Proof.Machine

/-- Bytes of the bundle in the boot host's memory; the device reads only within the bundle. -/
def State.bundleRead (s : State) (off n : Nat) : List Byte :=
  let pages := s.get Reg.GLB_FW_LEN.PAGES
  let room := if 1 ≤ pages ∧ pages ≤ 16384 then 4096 * pages else 0
  if off + n ≤ room then s.hostRead s.bootHost (s.pair Reg.GLB_FW_ADDR_LO.ADDR_LO Reg.GLB_FW_ADDR_HI.ADDR_HI + off) n else []

/-- An entry of a manifest's image table (Table 17.4), with its KIND. -/
structure ManEntry where
  kind : Nat
  image : ResImage
  deriving DecidableEq, Repr

/-- Entry i of the image table. -/
def manEntry (m : List Byte) (i : Nat) : ManEntry :=
  let e := slice m (64 + 64 * i) 64
  { kind := leAt e 0 1
    image := { cores := leAt e 1 1, first := leAt e 4 4, count := leAt e 8 4, offset := leAt e 12 4, length := leAt e 16 4, crc := leAt e 20 4
               digest := slice e 24 32 } }

/-- The entries of the image table. -/
def manEntries (m : List Byte) : List ManEntry := (List.range (leAt m 28 2)).map (manEntry m)

/-- The resident images of a manifest. -/
def manResidents (m : List Byte) : List ResImage := ((manEntries m).filter (fun e => e.kind == 1)).map (·.image)

/-- The segment table of a manifest. -/
def manTable (m : List Byte) : List (List Byte) := (List.range (leAt m 32 4)).map (fun k => slice m (64 + 64 * leAt m 28 2 + 32 * k) 32)

/-- The length that a manifest's counts give it. -/
def manLength (m : List Byte) : Nat := 64 + 64 * leAt m 28 2 + 32 * leAt m 32 4 + trailerBytes

/-- The whole manifest in the bundle, empty where its length is out of range. -/
def State.manifest (s : State) : List Byte :=
  let h := s.bundleRead 0 64
  let n := leAt h 28 2
  let k := leAt h 32 4
  if h.length = 64 ∧ 2 ≤ n ∧ n ≤ 16 ∧ 1 ≤ k ∧ k ≤ 4096 ∧ leAt h 24 4 = manLength h then s.bundleRead 0 (manLength h) else []

/-- The KIND 1 entries cover the segments from `next` to `last` in ascending order without gaps. -/
def segsCovered : List ResImage → Nat → Nat → Bool
  | [], next, last => next == last
  | i :: is, next, last => i.first == next && i.count == ceilDiv i.length 4096 && segsCovered is (next + i.count) last

/-- A manifest is well formed but for PART and STEPPING (R450). -/
def State.manifestOk (s : State) (m : List Byte) : Bool :=
  let es := manEntries m
  let rs := manResidents m
  m.length == manLength m && m.length != 0
    && leAt m 0 4 == 0x464E414D && leAt m 4 2 == 1 && leAt m 9 1 < 2 && leAt m 10 1 < 16 && zeroAt m 11 1 && zeroAt m 30 2 && zeroAt m 36 28
    && (List.range es.length).all (fun i => zeroAt m (64 + 64 * i + 2) 2 && zeroAt m (64 + 64 * i + 56) 8)
    && es.all (fun e => e.kind < 2 && e.image.offset % 4096 == 0 && (s.bundleRead e.image.offset e.image.length).length == e.image.length)
    && (es.filter (fun e => e.kind == 0)).length == 1
    && (List.range 8).all (fun n => (rs.filter (fun i => bitAt i.cores n)).length == 1)
    && segsCovered rs 0 (leAt m 32 4)
    && rs.all (fun i =>
      let b := s.bundleRead i.offset i.length
      i.length ≤ 163840 && imgHeaderOk b 40 false && imgLength b == i.length)

/-- The digest that a manifest's signature covers. -/
def manDigest (m : List Byte) : List Byte := sha3 (m.take (m.length - trailerBytes))

/-- The digest of the signer's public key. -/
def manSigner (m : List Byte) : List Byte := sha3 (slice m (m.length - trailerBytes) 1312)

/-- The firmware key fuses that hold a digest and are not revoked. -/
def Fuses.fwKeys (f : Fuses) : List Nat :=
  (List.range 4).filter (fun n => !(f.fw.getD n []).isEmpty && !f.revoked.contains n)

/-- The signature verifies under a key whose digest an unrevoked fuse holds (R399). -/
def State.manSigned (s : State) (m : List Byte) : Bool :=
  s.sec.fuses.fwKeys.any (fun n => s.sec.fuses.fw.getD n [] == manSigner m)
    && Config.mldsaVerify (slice m (m.length - trailerBytes) 1312) (manDigest m) (slice m (m.length - 2420) 2420)

/-- The host-tile firmware image has its digest (R400). -/
def State.firmwareOk (s : State) (m : List Byte) : Bool :=
  (manEntries m).all (fun e => e.kind != 0 || sha3 (s.bundleRead e.image.offset e.image.length) == e.image.digest)

/-- SEC_BOOT_STS.RESULT of a manifest, in the order of R399: 0 OK, 1 signature, 2 security version, 3 device class, 4 digest. No code is
given to a malformed one, whose RESULT is free (log 107). -/
def State.manResult (s : State) (m : List Byte) : Nat :=
  if !s.manifestOk m then 1 + (Config.freeWord s.freeCtr).toNat % 15
  else if !s.manSigned m then 1
  else if leAt m 12 4 < s.sec.fuses.version then 2
  else if leAt m 6 2 ≠ 0x6400 ∨ leAt m 8 1 ≠ 0xA1 then 3
  else if !s.firmwareOk m then 4
  else 0

/-- A manifest is in force: measurements, version, what the fuses will take (R402, R403). A key fuse is not revoked by a manifest that its own
key signs. -/
def State.takeManifest (s : State) (m : List Byte) : State :=
  let fwDigest := ((manEntries m).find? (fun e => e.kind == 0)).map (fun e => e.image.digest)
  let s := (s.extend (Reg.SEC_DMR.off 1 0) (manDigest m)).extend (Reg.SEC_DMR.off 2 0) (fwDigest.getD [])
  let s := (s.put Reg.GLB_FW_VER_LO.FW (leAt m 16 4)).put Reg.GLB_FW_VER_HI.FW (leAt m 20 4)
  let revoke := (setBitsOf (leAt m 10 1) 4).filter (fun n => s.sec.fuses.fw.getD n [] != manSigner m)
  { s with
    sec := { s.sec with fwVersion := leAt m 16 8 }
    boot := { s.boot with
      images := manResidents m, table := manTable m, store := [], manifest := manDigest m, revoke := revoke
      svn := if bitAt (leAt m 9 1) 0 then some (leAt m 12 4) else none } }

/-- Steps 4 to 6 of the sequence: the training of the links and memory, the start-up test, the Crier from the bundle. -/
def State.bringUp (s : State) (t : Training) (tests : Tests) : State :=
  match s.train t with
  | (s, true) => s.testAndLoad tests true
  | (s, false) => s

/-- DMR3 takes the digest of each resident image once the images have been checked (log 94). -/
def State.measureResidents (s : State) : State :=
  if s.get Reg.GLB_STS.BOOT_ERR = 0 then s.boot.images.foldl (fun s i => s.extend (Reg.SEC_DMR.off 3 0) i.digest) s else s

/-- A GLB_FW_CMD write: GO outside WAIT_MANIFEST is ignored and logged (R449); else step 3, and with a good manifest the steps behind it. -/
def goEff (h : HostId) (v : Word) (seen : Seen) (t : Training) (tests : Tests) (s : State) : State :=
  if wordField v 0 1 = 0 then s
  else if s.get Reg.GLB_STS.STAGE ≠ 2 then s.writeIgnored h Reg.GLB_FW_CMD.off
  else
    let s := ((s.see seen).put Reg.GLB_STS.STAGE 3).put Reg.GLB_STS.BOOT_ERR 0
    let m := s.manifest
    let r := s.manResult m
    let s := s.fresh.put Reg.SEC_BOOT_STS.RESULT r
    if r ≠ 0 then (s.put Reg.GLB_STS.STAGE 2).put Reg.GLB_STS.BOOT_ERR 1
    else ((s.takeManifest m).bringUp t tests).measureResidents

def execGo (host : HostId) (seen : Seen) (training : Training) (tests : Tests) (s : State) : Answer :=
  .next (s.hostWrite host Reg.GLB_FW_CMD.off (goEff host 1 seen training tests))

end Sys2Proof.Machine
end

