-- ==== Sys2Proof/Machine/PortRows.lean ====
section
/-! DEFINITION. The commands of the ports and the mesh (03_link_ports.md, 04_routing_and_mesh.md; 17 R463; 18 R477). A change of what is
usable moves flows and wakes or ends queue pairs (`State.pathsChanged`). -/

namespace Sys2Proof.Machine

/-- GLB_PORT_RST takes a write from the boot host, and from the owner of the partition that holds the named port WHOLE (17 R466). -/
def State.portRstOk (s : State) (h : HostId) (p : Nat) : Bool :=
  s.bootMayWrite h || (match s.wholeHolder? p with | some q => s.owner q == h | none => false)

/-- A GLB_PORT_RST write without GO. -/
def portSelEff (h : HostId) (v : Word) (s : State) : State :=
  let p := wordField v 0 6
  if !s.portRstOk h p then s.writeIgnored h Reg.GLB_PORT_RST.off else s.put Reg.GLB_PORT_RST.PORT p

/-- PORT_RESET (17 R463): a GO write of GLB_PORT_RST. -/
def portResetEff (h : HostId) (v : Word) (s : State) : State :=
  let p := wordField v 0 6
  if !s.portRstOk h p then s.writeIgnored h Reg.GLB_PORT_RST.off
  else if s.flag Reg.GLB_PORT_RST.BUSY then s
  else
    let s : State := { (s.put Reg.GLB_PORT_RST.PORT p).put Reg.GLB_PORT_RST.BUSY 1 with portRst := some p }
    let s := s.setPort p { s.port p with xoff := [], missOff := [], preMask := none }
    let s := (s.port p).txq.foldl (fun s f => (s.unqueued f).lostDrop f) (s.setPort p { s.port p with txq := [] })
    (s.toTraining p).pathsChanged

/-- PORT_TRAINED, which also ends a port reset. -/
def trainedEff (p : Nat) (mask : Nat) (s : State) : State :=
  let was := s.get (Reg.LINK_STS.STATE p)
  let s := portTrainedEff p mask s
  let s : State := if was = 1 ∧ s.get (Reg.LINK_STS.STATE p) ≠ 1 ∧ s.portRst = some p then { s.put Reg.GLB_PORT_RST.BUSY 0 with portRst := none } else s
  s.pathsChanged.settlePower

/-- QUEUE_SAMPLE_INTERVAL (18 R477): every pair of the interval is written; the next interval begins with the present depths. -/
def sampleIntervalEff (s : State) : State :=
  if s.flag Reg.TELEM_SMP_CTL.EN then
    let s := s.resetRegs (fun o => 0x710000 ≤ o && o < 0x711000)
    let s := s.scriv.samplers.foldl (fun s e => s.setReg e.1 (BitVec.ofNat 32 (min e.2.depth 65535 + 65536 * min e.2.delay 65535))) s
    let s := { s with scriv := { s.scriv with samplers := [] } }
    s.ports.foldl (fun s e => e.2.txq.foldl (fun s f => s.sampleDepth e.1 f.sub f.cls) s) s
  else s

/-! The rows -/

def execLinkCfgWrite (host : HostId) (port : PortId) (value : Word) (s : State) : Answer :=
  .next (s.hostWrite host (Reg.LINK_CFG.off port) (fun s => (linkCfgEff port value s).pathsChanged))
def execLinkBufClassWrite (host : HostId) (port : PortId) (cls : Fin 4) (value : Word) (s : State) : Answer :=
  .next (s.hostWrite host (Reg.LINK_BUF_CLASS.off port cls) (bufClassEff port cls value))
def execEthFrameReceive (port : PortId) (sub : Fin 4) (bytes : List Byte) (early : Bool) (s : State) : Answer :=
  .next (ethReceiveEff port sub bytes early s)
def execPfcFrameReceive (port : PortId) (sub : Fin 4) (enable : BitVec 8) (times : List (BitVec 16)) (s : State) : Answer :=
  .next (pfcReceiveEff port sub enable times s)
def execPauseFrameReceive (port : PortId) (sub : Fin 4) (time : BitVec 16) (s : State) : Answer :=
  .next (pauseReceiveEff port sub time s)
def execPfcRefresh (port : PortId) (sub : Fin 4) (cls : Fin 8) (s : State) : Answer := .next (pfcRefreshEff port sub cls s)
def execPauseTimeExpiry (port : PortId) (sub : Fin 4) (cls : Fin 8) (s : State) : Answer := .next (pauseExpiryEff port sub cls s)
def execPreemptVerify (port : PortId) (sub : Fin 4) (ok : Bool) (s : State) : Answer := .next (preemptVerifyEff port sub ok s)
def execElpFrameReceive (port : PortId) (containers : List Container) (early : Bool) (s : State) : Answer :=
  .next (elpReceiveEff port containers early s).pathsChanged
def execCodewordUncorrectable (port : PortId) (classes : BitVec 8) (s : State) : Answer := .next (codewordEff port classes s)
def execAlignSend (port : PortId) (s : State) : Answer := .next (alignSendEff port s)
def execAlignReceive (port : PortId) (copies : List (List Byte)) (s : State) : Answer :=
  .next (alignReceiveEff port copies s).pathsChanged
def execKeepaliveSend (port : PortId) (s : State) : Answer := .next (keepaliveSendEff port s)
def execKeepaliveReceive (port : PortId) (copies : List (List Byte)) (s : State) : Answer :=
  .next (keepaliveReceiveEff port copies s).pathsChanged
def execFencedSend (port : PortId) (s : State) : Answer := .next (fencedSendEff port s)
def execFencedReceive (port : PortId) (copies : List (List Byte)) (s : State) : Answer :=
  .next (fencedReceiveEff port copies s).pathsChanged
def execPeerLost (silence : Silence) (s : State) : Answer := .next (peerLostEff silence.port silence.locked s).pathsChanged
def execPcsLinkDown (port : PortId) (s : State) : Answer := .next (pcsDownEff port s).pathsChanged
def execPcsLinkUp (port : PortId) (s : State) : Answer := .next (pcsUpEff port s).pathsChanged
def execPauseOsReceive (port : PortId) (copies : List (List Byte)) (s : State) : Answer := .next (pauseOsEff port copies s)
def execFarrierWindow (port : PortId) (lane : Fin 4) (serExp : Fin 256) (s : State) : Answer :=
  .next (farrierEff port lane serExp s).pathsChanged
def execLaneFailure (port : PortId) (lane : Fin 4) (s : State) : Answer := .next (laneFailureEff port lane s).pathsChanged
def execSpareAdapted (port : PortId) (lane : Fin 4) (s : State) : Answer := .next (spareAdaptedEff port lane s)
def execSpareTrained (port : PortId) (lane : Fin 4) (s : State) : Answer := .next (spareTrainedEff port lane s).pathsChanged
def execLaneReqReceive (port : PortId) (copies : List (List Byte)) (s : State) : Answer := .next (laneReqReceiveEff port copies s)
def execLaneAckReceive (port : PortId) (copies : List (List Byte)) (s : State) : Answer := .next (laneAckReceiveEff port copies s)
def execLaneNakReceive (port : PortId) (copies : List (List Byte)) (s : State) : Answer := .next (laneNakReceiveEff port copies s)
def execLaneReqTimeout (port : PortId) (s : State) : Answer := .next (laneReqTimeoutEff port s).pathsChanged
def execLaneMaskSwitch (port : PortId) (s : State) : Answer := .next (laneSwitchEff port s).pathsChanged.settlePower
def execLaneDoneSend (port : PortId) (s : State) : Answer := .next (laneDoneSendEff port s)
def execLaneDoneReceive (port : PortId) (copies : List (List Byte)) (s : State) : Answer := .next (laneDoneReceiveEff port copies s)
def execFrameTransmitStart (port : PortId) (sub : Fin 4) (cls : Fin 8) (s : State) : Answer := .next (transmitStartEff port sub cls s)
def execFrameTransmitEnd (port : PortId) (sub : Fin 4) (cls : Fin 8) (s : State) : Answer := .next (transmitEndEff port sub cls s)
def execPortReset (host : HostId) (value : Word) (s : State) : Answer :=
  .next (s.hostWrite host Reg.GLB_PORT_RST.off (portResetEff host value))
def execPortTrained (port : PortId) (mask : BitVec 4) (s : State) : Answer := .next (trainedEff port mask.toNat s)
def execMeshSelfWrite (host : HostId) (value : Word) (s : State) : Answer :=
  .next (s.hostWrite host Reg.MESH_SELF.off (fun s => (meshSelfEff value s).pathsChanged))
def execMeshArm (host : HostId) (value : Word) (s : State) : Answer :=
  .next (s.hostWrite host Reg.MESH_CTL.off (meshCtlEff (value ||| 1#32)))
def execMeshDisarm (host : HostId) (value : Word) (s : State) : Answer :=
  .next (s.hostWrite host Reg.MESH_CTL.off (meshCtlEff (value ||| 2#32)))
def execRoutingTableWrite (host : HostId) (off : Nat) (value : Word) (s : State) : Answer :=
  .next (s.hostWrite host off (fun s => (tableWriteEff off value s).pathsChanged))
def execRetainedBankRelease (s : State) : Answer := .next (bankReleaseEff s)
def execDrainLimitExpiry (s : State) : Answer := .next (drainLimitEff s)
def execFlowReturnPrimary (flow : BitVec 24) (s : State) : Answer := .next (flowReturnEff flow.toNat s)
def execQueueSampleInterval (s : State) : Answer := .next (sampleIntervalEff s)
def execBeaconSend (port : PortId) (s : State) : Answer := .next (beaconSendEff port s)
def execBeaconReceive (port : PortId) (copies : List (List Byte)) (arrival : Nat) (s : State) : Answer :=
  .next (beaconReceiveEff port copies arrival s)

end Sys2Proof.Machine
end

