-- ==== Sys2Proof/Machine/Tally.lean ====
section
/-! DEFINITION. Tally: windows, the budget, the planner, the emergency cap, STANDBY and WAKE (16_energy_and_power_states.md R427 to R443). -/

namespace Sys2Proof.Machine

/-! Windows (R427, R428) -/

/-- The number of windows that have ended: by fabric time, or by core cycles where the time unit has no source (R428). -/
def State.windowsEnded (s : State) : Nat :=
  if s.get Reg.TIME_STS.STATE = 0 then s.time.cycles / 2400000 else s.time.ftNs.toNat / 1000000

/-- A domain's energy of the window, in µJ. -/
def State.domainEnergy (s : State) (d uj : Nat) : State :=
  let uj := min uj 0xFFFFFFFF
  let tot := s.get (Reg.TALLY_DOM_TOT_LO.UJ d) + 2 ^ 32 * s.get (Reg.TALLY_DOM_TOT_HI.UJ d) + uj
  let s := (s.put (Reg.TALLY_DOM_LAST.UJ d) uj).put (Reg.TALLY_DOM_PEAK.UJ d) (max uj (s.get (Reg.TALLY_DOM_PEAK.UJ d)))
  (s.put (Reg.TALLY_DOM_TOT_LO.UJ d) tot).put (Reg.TALLY_DOM_TOT_HI.UJ d) (tot / 2 ^ 32)

/-- The energy registers at the end of window w. -/
def State.energyShown (s : State) (w : Nat) (uj : List Nat) : State :=
  let s := (List.range 15).foldl (fun s d => s.domainEnergy d (uj.getD d 0)) s
  let sum := (List.range 15).foldl (fun a d => a + s.get (Reg.TALLY_DOM_LAST.UJ d)) 0
  ((s.put Reg.TALLY_DEV_LAST.UJ (min sum 0xFFFFFFFF)).put Reg.TALLY_WINDOW_LO.WINDOW w).put Reg.TALLY_WINDOW_HI.WINDOW (w / 2 ^ 32)

/-! The planner (R432 to R436) -/

/-- The device is over budget (R432). -/
def State.overBudget (s : State) : Bool :=
  (s.get Reg.TALLY_BUDGET.W - s.get Reg.TALLY_PLAN.MARGIN_W) * 1000 < s.get Reg.TALLY_DEV_LAST.UJ

/-- Frame bytes that some lanes carry in one window, and its 40% and 80%. -/
def windowBytes (lanes : Nat) : Nat := lanes * 25600000

/-- Both directions of a port stayed below 40% of the rate of some lanes. -/
def Port.below40 (x : Port) (lanes : Nat) : Bool :=
  100 * x.rxBytes < 40 * windowBytes lanes && 100 * x.txBytes < 40 * windowBytes lanes

/-- The window's bytes of a port are taken: its quiet windows are counted anew. -/
def State.portWindow (s : State) (p : Nat) : State :=
  let x := s.port p
  let on := s.native p && s.linkOn p
  s.setPort p { x with
    rxBytes := 0, txBytes := 0
    idleTwo := if on && x.below40 2 then min 255 (x.idleTwo + 1) else 0
    idleOne := if on && x.below40 1 then min 255 (x.idleOne + 1) else 0 }

/-- A port whose bytes of the window exceed 80% of the rate of its lanes is raised (R433). -/
def State.raiseBusy (s : State) (p : Nat) : State :=
  let x := s.port p
  let full := 80 * windowBytes (laneCount (s.get (Reg.LINK_STS.ACTIVE p)))
  if s.native p && (full < 100 * x.rxBytes || full < 100 * x.txBytes) then s.raiseLanes p else s

/-- The mask that a port may be lowered to now (Table 16.2, step 1). -/
def State.lowerMask? (s : State) (p : Nat) : Option Nat :=
  let x := s.port p
  let idle := s.get Reg.TALLY_PLAN.IDLE_MS
  let act := s.get (Reg.LINK_STS.ACTIVE p)
  let free := s.native p && s.linkOn p && s.flag (Reg.LINK_CFG.LOWER_EN p) && x.req.isNone && x.change.isNone
    && x.lanes.all (fun (e : Nat × Lane) => e.2.shadow.isNone && e.2.training.isNone)
    && !s.heldImages.any (fun i => i.ports.contains p)
  if !free then none
  else if act = 15 ∧ idle ≤ x.idleTwo then some 3
  else if act = 3 ∧ idle ≤ x.idleOne then some 1
  else none

/-- Step 1: the request of the lane change; the lowering is counted as it is decided (log 108). -/
def State.lowerPort (s : State) (p : Nat) : State :=
  match s.lowerMask? p with
  | some m => (s.laneRequest p m 0).count Reg.TALLY_LOWER_CNT.COUNT
  | none => s

/-- Every partition core of a cluster is EMPTY, VACANT, or READY with no event queued. -/
def State.clusterIdle (s : State) (k : Nat) : Bool :=
  (List.range 64).all (fun n => n < 8 || (coreIdle (s.coreSt (64 * k + n)) && (s.core (64 * k + n)).events.isEmpty))

/-- The window's activity of the clusters is taken. -/
def State.clusterWindow (s : State) : State :=
  let busy := (List.range 64).filter (fun k => !s.clusterIdle k)
  let idle := (List.range 64).foldl (fun (m : Sparse Nat) k =>
    m.putD k (if busy.contains k || s.tally.active.contains k then 0 else min 255 (m.getD k 0 + 1)) 0) s.tally.idle
  { s with tally := { s.tally with idle := idle, active := busy } }

/-- A cluster may be gated now (Table 16.2, step 2). Before READY and in P2 its cores are not powered, and nothing is gated (DEDUCED,
log 108). -/
def State.mayGate (s : State) (k : Nat) : Bool :=
  !s.gated k && s.flag Reg.GLB_STS.READY && s.get Reg.TALLY_PLAN.IDLE_MS ≤ s.tally.idle.getD k 0
    && !s.heldImages.any (fun i => i.clusters.contains k)

/-- Step 2. -/
def State.gateClusters (s : State) : State :=
  ((List.range 64).filter s.mayGate).foldl (fun s k => (s.setGated k true).count Reg.TALLY_LOWER_CNT.COUNT) s

/-- Step 3, and the fall of t (R435); `lowered`: steps 1 and 2 have found something to lower. -/
def State.throttle (s : State) (lowered : Bool) : State :=
  let t := s.get Reg.TALLY_STS.THROTTLE
  if s.overBudget then
    if s.flag Reg.TALLY_PLAN.THROTTLE_EN && !lowered then s.put Reg.TALLY_STS.THROTTLE (min 15 (t + 1)) else s
  else if s.get Reg.TALLY_DEV_LAST.UJ < (s.get Reg.TALLY_BUDGET.W - 2 * s.get Reg.TALLY_PLAN.MARGIN_W) * 1000 then
    s.put Reg.TALLY_STS.THROTTLE (t - 1)
  else s

/-- R436: windows in a row over budget at t = 15; the overrun is raised once in such a run (log 108). -/
def State.overrun (s : State) : State :=
  if s.overBudget && s.get Reg.TALLY_STS.THROTTLE == 15 then
    let n := s.tally.excess + 1
    let s := { s with tally := { s.tally with excess := min n 256 } }
    if n = s.get Reg.TALLY_PLAN.OVER_MS then
      ((s.put Reg.TALLY_STS.OVERRUN 1).event Ev.energyOverrun).count Reg.TALLY_OVERRUN_CNT.COUNT
    else s
  else { s with tally := { s.tally with excess := 0 } }

/-- The planner's steps of Table 16.2 at the window's end. Ports above 80% are raised first (R433). -/
def State.plan (s : State) : State :=
  let s := ((List.range 64).foldl State.raiseBusy s).overrun
  let s := ((List.range 64).foldl State.portWindow s).clusterWindow
  let any := (s.flag Reg.TALLY_PLAN.LANES_EN && (List.range 64).any (fun p => (s.lowerMask? p).isSome))
    || (s.flag Reg.TALLY_PLAN.GATE_EN && (List.range 64).any s.mayGate)
  let s := if s.flag Reg.TALLY_PLAN.LANES_EN then (List.range 64).foldl State.lowerPort s else s
  let s := if s.flag Reg.TALLY_PLAN.GATE_EN then s.gateClusters else s
  s.throttle any

/-- TALLY_WINDOW_END. Nothing ends before fabric time reaches the end of window 0. In P3 nothing is left to plan. -/
def windowEndEff (uj : List Nat) (s : State) : State :=
  if !s.pins.pwrOk || s.windowsEnded == 0 then s
  else
    let s := s.energyShown (s.windowsEnded - 1) uj
    if s.get Reg.TALLY_STS.PSTATE = 3 then s else s.plan

/-! The budget (R431) -/

/-- A TALLY_BUDGET write. -/
def budgetEff (v : Word) (s : State) : State :=
  let w := wordField v 0 10
  if w < 300 ∨ s.get Reg.TALLY_ENV.W < w ∨ w < s.get Reg.TALLY_MIN.W then s.put Reg.TALLY_STS.BUDGET_REJ 1
  else s.put Reg.TALLY_BUDGET.W w

/-- CLUSTER_UNGATED (R434). -/
def ungatedEff (k : Nat) (s : State) : State := s.ungate k

/-! The emergency cap (R437 to R439) -/

/-- POWER_CAP: no effect in P3 or OFF. -/
def powerCapEff (s : State) : State :=
  if s.pins.capLow then s
  else
    let s := { s with pins := { s.pins with capLow := true } }
    if !s.pins.pwrOk || s.get Reg.TALLY_STS.PSTATE == 3 then s
    else ((s.put Reg.TALLY_STS.CAP_LOW 1).event Ev.powerCap).count Reg.TALLY_CAP_CNT.COUNT

/-- CAP_GRACE_EXPIRY: in P2 the cap acts on transit traffic alone (R439). -/
def graceEff (s : State) : State :=
  if !s.flag Reg.TALLY_STS.CAP_LOW || s.flag Reg.TALLY_STS.CAP_SUSP || 2 ≤ s.get Reg.TALLY_STS.PSTATE then s
  else
    let s := s.put Reg.TALLY_STS.CAP_SUSP 1
    let active := (s.sched.act.map (·.1)).filter (fun p => s.get (Reg.SCHED_STATE.ACT p) == 1)
    let s := active.foldl (fun s p => ((s.suspend p false).showSched p).partEvent Ev.powerCapSuspend p) s
    (s.sched.pend.map (·.1)).foldl State.dropPending s

/-- POWER_CAP_RELEASE. -/
def capReleaseEff (s : State) : State :=
  ({ s with pins := { s.pins with capLow := false } }.put Reg.TALLY_STS.CAP_LOW 0).put Reg.TALLY_STS.CAP_SUSP 0

/-! STANDBY and WAKE (R441) -/

/-- Every port is down (Table 3.6) and nothing is lowered or gated any more. -/
def State.portsOff (s : State) : State :=
  let s := (List.range 64).foldl (fun s p => (s.toTraining p).put (Reg.LINK_STS.STATE p) 0) s
  let s := (s.put Reg.TALLY_LOWERED_LO.PORTS_LO 0).put Reg.TALLY_LOWERED_HI.PORTS_HI 0
  (s.put Reg.TALLY_GATED_LO.CLUSTERS 0).put Reg.TALLY_GATED_HI.CLUSTERS 0

/-- With SRC 1 or 2 the time unit loses its source (R442, 01 R20). -/
def State.sourceOff (s : State) : State :=
  if s.get Reg.TIME_CTL.SRC = 1 ∨ s.get Reg.TIME_CTL.SRC = 2 then sourceLostEff (s.get Reg.TIME_STS.HOLD_MS) s else s

/-- A part of the power-on sequence runs, or the device is in P2: a STANDBY request is refused. -/
def State.sequenceRuns (s : State) : Bool :=
  s.get Reg.TALLY_STS.PSTATE == 2
    || (s.get Reg.TALLY_STS.PSTATE != 3 && s.get Reg.GLB_STS.STAGE != 8 && s.get Reg.GLB_STS.STAGE != 11)

/-- A STANDBY request. -/
def State.standby (s : State) : State :=
  if s.sequenceRuns || s.get Reg.SEC_ALARM_STS.PRESENT != 0 || (List.range 64).any (fun p => s.pstate p != 0) then
    (s.put Reg.TALLY_PS_STS.DONE 1).put Reg.TALLY_PS_STS.RESULT 1
  else if s.get Reg.TALLY_STS.PSTATE = 3 then s.psEnd 0
  else
    let s := if s.get Reg.SEC_DBG.LEVEL = 2 then s.setDebug 1 else s
    let s := (((s.cancelRaise).wipeSecure).eraseAllKeys).dropNonce
    let s := (s.cores.map (·.1)).foldl State.emptyCore s
    let s := (s.portsOff.pathsChanged.sourceOff).setPower 3
    { s with pins := { s.pins with mainEn := false, mainPg := false } }.psEnd 0

/-- A WAKE request: it acts in P3 alone. The SCRAP state allows no other power state (Table 15.5). -/
def State.wake (s : State) (t : Training) (tests : Tests) : State :=
  if s.get Reg.TALLY_STS.PSTATE ≠ 3 then s
  else if s.get Reg.SEC_LC.STATE = 4 then (s.put Reg.TALLY_PS_STS.DONE 1).put Reg.TALLY_PS_STS.RESULT 1
  else
    let s := { s with pins := { s.pins with mainEn := true, mainPg := true } }
    let s := ((s.put Reg.TALLY_PS_STS.BUSY 1).put Reg.GLB_STS.READY 0).put Reg.GLB_STS.BOOT_ERR 0
    let s := (s.put Reg.TALLY_STS.CAP_LOW (b2n s.pins.capLow)).setPower s.p01
    let s := (List.range 64).foldl (fun s p => if s.flag (Reg.LINK_CFG.ENABLE p) then s.put (Reg.LINK_STS.STATE p) 1 else s) s
    s.bringUp t tests

/-- A TALLY_PS_CTL write: STANDBY acts before WAKE. -/
def psCtlEff (v : Word) (seen : Seen) (t : Training) (tests : Tests) (s : State) : State :=
  let s := if wordField v 0 1 = 1 then s.standby else s
  if wordField v 1 1 = 1 then (s.see seen).wake t tests else s

/-! The rows -/

def execTallyWindowEnd (energy : List Nat) (s : State) : Answer := .next (windowEndEff energy s)
def execTallyBudgetWrite (host : HostId) (value : Word) (s : State) : Answer :=
  .next (s.hostWrite host Reg.TALLY_BUDGET.off (budgetEff value))
def execClusterUngated (cluster : ClusterId) (s : State) : Answer := .next (ungatedEff cluster.val s)
def execPowerCap (s : State) : Answer := .next (powerCapEff s)
def execCapGraceExpiry (s : State) : Answer := .next (graceEff s)
def execPowerCapRelease (s : State) : Answer := .next (capReleaseEff s)
def execStandby (host : HostId) (s : State) : Answer := .next (s.hostWrite host Reg.TALLY_PS_CTL.off (psCtlEff 1 [] {} {}))
def execWake (host : HostId) (seen : Seen) (training : Training) (tests : Tests) (s : State) : Answer :=
  .next (s.hostWrite host Reg.TALLY_PS_CTL.off (psCtlEff 2 seen training tests))

end Sys2Proof.Machine
end

