-- ==== Sys2Proof/Machine/RegWrite.lean ====
section
/-! DEFINITION. BAR0 accesses as a whole: reads with what they clear and latch, writes routed to what each register does, accesses of wrong width
or alignment (00_scope.md R6 to R10; the write rule of each block). A write of a register that has a command of its own does what that command
does. -/

namespace Sys2Proof.Machine

/-- Bases of the _LO registers that begin a 64-bit pair (R6). -/
def pairBases : List Nat :=
  [0x18, 0x20, 0x10010, 0x10020, 0x20028, 0x20030, 0x20038, 0x20108, 0x30100, 0x33000, 0x40000, 0x4000C, 0x50010, 0x50020, 0x58000, 0x8000C,
   0x80014, 0x81014, 0x82000, 0x82008, 0x90000]
  ++ [0xB0000, 0xC0010, 0xD0000, 0x100008, 0x100010, 0x101000, 0x101020, 0x101040, 0x200100, 0x300020, 0x310000, 0x310100, 0x400000, 0x400100,
   0x401000, 0x500018, 0x510030, 0x510040, 0x600800, 0x60080C, 0x700100]

/-- A 64-bit access at an offset covers a _LO and _HI pair. -/
def pairAt (off : Nat) : Bool :=
  match regAt? off with
  | some (r, _) => pairBases.contains r.base
  | none => false

/-- An access of some bytes has a width and alignment that R7 allows. -/
def accessOk (off size : Nat) : Bool := (size == 4 && off % 4 == 0) || (size == 8 && off % 8 == 0 && pairAt off)

/-! Reads -/

/-- Before WAIT_MANIFEST of a warm reset, what answers reads (17 R464). -/
def warmReadable (off : Nat) : Bool := off == Reg.GLB_ID.off || off == Reg.GLB_STS.off || off == Reg.GLB_STRAP.off

/-- The core state in CLUSTER, which P2 does not let a host read (15 Table 15.6). -/
def coreStateReg (r : RegRow) : Bool :=
  r.base == Reg.CLUSTER_CORE_STS.off 0 0 || r.base == Reg.CLUSTER_CORE_HANDLE.off 0 0 || r.base == Reg.CLUSTER_CORE_EPC.off 0 0

/-- The pending bits that one word of the MSI-X pending-bit array shows (08 R240). -/
def State.pbaWord (s : State) (h : HostId) (i : Nat) : Word :=
  BitVec.ofNat 32 ((List.range 32).foldl (fun a b => a + (if (s.host h).pba.contains (32 * i + b) then 2 ^ b else 0)) 0)

/-- The pending-bit array lies at an offset: its host and word (log 25). -/
def pbaAt? (off : Nat) : Option (HostId × Nat) :=
  if 0x5C000 ≤ off ∧ off < 0x5C100 then some (0, (off - 0x5C000) / 4)
  else if 0x6C000 ≤ off ∧ off < 0x6C100 then some (1, (off - 0x6C000) / 4)
  else none

/-- What a register reads. A register whose value is no stored word is computed; WO and reserved bits read 0 (R8, R9). -/
def State.regValue (s : State) (off : Nat) : Word :=
  match regAt? off with
  | none => 0
  | some (r, idx) =>
    let i := idx.getD 0 0
    if r.base = Reg.TIME_NOW_LO.off then s.time.ftNs.setWidth 32
    else if r.base = Reg.TIME_NOW_HI.off then s.time.latchHi
    else if r.base = Reg.TIME_NOW_FRAC.off then s.time.latchFrac.setWidth 32
    else if r.base = Reg.TALLY_DOM_TOT_HI.off 0 then BitVec.ofNat 32 (s.tally.totHi.getD i 0)
    else if r.base = Reg.TELEM_UPTIME.off then BitVec.ofNat 32 (min (s.time.cycles / 2400000000) 0xFFFFFFFF)
    else if r.base = Reg.TELEM_STK_DATA.off 0 then BitVec.ofNat 32 (leAt (s.stickyBytes (s.get Reg.TELEM_STK_IDX.INDEX)) (4 * i) 4)
    else if s.inP2 && coreStateReg r then (Config.freeWord s.freeCtr).setWidth 32
    else if Reg.CLUSTER_CONV_W1.off 0 0 ≤ r.base ∧ r.base ≤ Reg.CLUSTER_CONV_W3.off 0 0 then s.convWord i (idx.getD 1 0) (off % 16 / 4)
    else s.reg off

/-- What a read leaves: RC fields are 0, TIME_NOW_LO and TALLY_DOM_TOT_LO latch (R9, R10; 01 R19; 16 R443). -/
def State.regRead (s : State) (off : Nat) : State :=
  match regAt? off with
  | none => s
  | some (r, idx) =>
    let i := idx.getD 0 0
    if r.base = Reg.TIME_NOW_LO.off then s.latchNow
    else if r.base = Reg.TALLY_DOM_TOT_LO.off 0 then
      { s with tally := { s.tally with totHi := s.tally.totHi.putD i (s.get (Reg.TALLY_DOM_TOT_HI.UJ i)) 0 } }
    else if s.inP2 && coreStateReg r then s.fresh
    else if r.fields.any (fun f => f.acc == .rc) then
      s.setReg off (r.fields.foldl (fun v f => if f.acc = .rc then wordSet v f.lo f.w 0 else v) (s.reg off))
    else s

/-- One 32-bit read that reaches the device. -/
def State.readWord (s : State) (off : Nat) : State × Word :=
  match pbaAt? off with
  | some (h, i) => (s, s.pbaWord h i)
  | none => (s.regRead off, s.regValue off)

/-! Writes -/

/-- A TELEM_FAULT write: a cause clears only when its condition has ended (18 R474). -/
def faultClearEff (v : Word) (s : State) : State :=
  let st := s.get Reg.GLB_STS.STAGE
  let clr (s : State) (b : Nat) (f : Fld) (stays : Bool) : State := if wordField v b 1 = 1 ∧ stays = false then s.put f 0 else s
  let s := clr s 0 Reg.TELEM_FAULT.FATAL (st == 9 || st == 10)
  let s := clr s 1 Reg.TELEM_FAULT.ALARM (s.get Reg.SEC_ALARM_STS.PRESENT != 0)
  let s := clr s 2 Reg.TELEM_FAULT.BOOT (st == 11)
  (clr s 3 Reg.TELEM_FAULT.HTC_WDOG false).showFault

/-- A SEC_ALARM_STS write clears the bits whose sensors no longer report their condition (15 R419). -/
def alarmClearEff (v : Word) (s : State) : State :=
  s.applyWrite Reg.SEC_ALARM_STS.off (v &&& ~~~BitVec.ofNat 32 (s.get Reg.SEC_ALARM_STS.PRESENT))

/-- A SEC_ALARM_EN write: a sensor may be disabled only in MANUF and RMA (15 R417). -/
def alarmEnEff (v : Word) (s : State) : State :=
  if s.get Reg.SEC_LC.STATE = 0 ∨ s.get Reg.SEC_LC.STATE = 3 then s.applyWrite Reg.SEC_ALARM_EN.off v
  else s.applyWrite Reg.SEC_ALARM_EN.off (v ||| s.reg Reg.SEC_ALARM_EN.off)

/-- A SEC_PKEY write outside CONFIG is ignored and logged, and sets CFG_REJ as every RWL field does (15 R426, R9). -/
def pkeyEff (h : HostId) (p off : Nat) (v : Word) (s : State) : State :=
  if s.pstate p = 1 then s.applyWrite off v else (s.applyWrite off v).writeIgnored h off

/-- A register that names the limits of a host is written only while that host owns no partition outside FREE (09 R266, 14 R398). -/
def hostLimitEff (h : HostId) (i off : Nat) (v : Word) (s : State) : State :=
  if (List.range 64).any (fun p => (s.owner p).val == i && s.pstate p != 0) then s.writeIgnored h off else s.applyWrite off v

/-- A write of a vector's mask sends the vector where it was pending (08 R240). -/
def msixCtlEff (h : HostId) (off : Nat) (v : Word) (s : State) : State := (s.applyWrite off v).sendPending h

/-- A SHEEP_RESOLVE write (07 R197, R198). -/
def resolveEff (h : HostId) (v : Word) (seen : Seen) (s : State) : State :=
  if wordField v 16 1 = 1 then sheepFailEff h (wordField v 0 12) s else sheepResolveEff h (wordField v 0 12) seen s

/-- What a write of a register that begins at `base` does, where its fields alone do not say it: the blocks GLB, TIME, TALLY, SEC. -/
def specialLow? (h : HostId) (base off : Nat) (v : Word) (x : WriteSide) (i : Nat) : Option (State → State) :=
  if base = Reg.GLB_RESET.off then some (resetCtlEff v x.ok x.tests)
  else if base = Reg.GLB_CTL.off then some (exactEff v)
  else if base = Reg.GLB_FW_CMD.off then some (goEff h v x.seen x.training x.tests)
  else if base = Reg.GLB_PORT_RST.off then some (if wordField v 31 1 = 1 then portResetEff h v else portSelEff h v)
  else if base = Reg.GLB_DUM_CTL.off then some (dumCtlEff v)
  else if base = Reg.TIME_CTL.off then some (timeCtlEff v)
  else if base = Reg.TIME_PORT.off then some (timePortEff v)
  else if base = Reg.TIME_HOLD_LIMIT.off then some (holdLimitEff v)
  else if base = Reg.TALLY_BUDGET.off then some (budgetEff v)
  else if base = Reg.TALLY_PS_CTL.off then some (psCtlEff v x.seen x.training x.tests)
  else if base = Reg.SEC_DBG.off then some (dbgWriteEff v)
  else if base = Reg.SEC_ALARM_STS.off then some (alarmClearEff v)
  else if base = Reg.SEC_ALARM_EN.off then some (alarmEnEff v)
  else if base = Reg.SEC_MB_CMD.off 0 then some (mbCmdEff h v x.seen x.ok)
  else if base = Reg.SEC_PKEY.off 0 0 0 then some (pkeyEff h i off v)
  else if base = Reg.SEC_KEY_CMD.off 0 then some (keyCmdEff h v x.seen)
  else none

/-- The blocks HOSTIF, PART and WIN. -/
def specialMid? (h : HostId) (base off : Nat) (v : Word) (x : WriteSide) (i : Nat) : Option (State → State) :=
  if Reg.HOSTIF_QT_BASE_LO.off ≤ base ∧ base ≤ Reg.HOSTIF_SHADOW_SIZE.off then some (queueTableEff off v)
  else if base = Reg.HOSTIF_B4_CTL_LO.off 0 then some (b4CommitEff h v)
  else if base = Reg.HOSTIF_QCMD.off 0 then some (qcmdEff h v x.seen)
  else if base = Reg.HOSTIF_DCINV.off 0 then some (dcinvEff h v)
  else if base = Reg.HOSTIF_MSIX_CTL.off 0 0 then some (msixCtlEff h off v)
  else if base = Reg.PART_HOST_CTL.off 0 then some (partHostCtlEff h v)
  else if base = Reg.PART_HOST_KICK.off 0 then some (hostKickEff (if i = 0 then 0 else 1))
  else if Reg.PART_HOST_PORTS_LO.off 0 ≤ base ∧ base ≤ Reg.PART_HOST_CLUSTERS_HI.off 0 then some (hostLimitEff h i off v)
  else if base = Reg.PART_ALLOC.off 0 then some (partAllocEff i v)
  else if base = Reg.PART_CMD.off 0 then some (partCmdEff h v x.seen)
  else if holdingOff off then some (holdingEff off v)
  else if Reg.SHEEP_PARK_BASE_LO.off ≤ base ∧ base ≤ Reg.SHEEP_PARK_SIZE.off then some (parkWriteEff off v)
  else if base = Reg.WIN_SHARE.off 0 ∨ base = Reg.TRIG_BASE.off 0 ∨ base = Reg.TRIG_NUM.off 0 then some (holdingEff off v)
  else if base = Reg.WIN_REVOKE.off 0 then some (winRevokeEff i v)
  else if base = Reg.SHEEP_RESOLVE.off 0 then some (resolveEff h v x.seen)
  else none

/-- The blocks SCHED, LINK, MESH, KENNEL, MEM, CLUSTER and TELEM. -/
def specialHigh? (h : HostId) (base off : Nat) (v : Word) (x : WriteSide) (i j : Nat) : Option (State → State) :=
  if base = Reg.SCHED_CTL.off 0 then some (schedCtlEff i v)
  else if base = Reg.LINK_CFG.off 0 then some (fun s => (linkCfgEff i v s).pathsChanged)
  else if base = Reg.LINK_BUF_CLASS.off 0 0 then some (bufClassEff i j v)
  else if base = Reg.MESH_SELF.off then some (meshSelfEff v)
  else if base = Reg.MESH_CTL.off then some (meshCtlEff v)
  else if inBanks base then some (tableWriteEff off v)
  else if Reg.KENNEL_T1_BASE_LO.off ≤ base ∧ base ≤ Reg.KENNEL_T1_SIZE.off then some (tier1Eff off v)
  else if base = Reg.KENNEL_CMD.off 0 then some (kennelCmdEff h v x.seen)
  else if Reg.MEM_RSPILL_BASE_LO.off ≤ base ∧ base ≤ Reg.MEM_RSPILL_SIZE.off then some (rspillEff off v)
  else if Reg.MEM_IMG_BASE_LO.off ≤ base ∧ base ≤ Reg.MEM_IMG_SIZE.off then some (imgStoreEff off v)
  else if base = Reg.MEM_HOST_DDR.off 0 then some (hostLimitEff h i off v)
  else if Reg.MEM_REG_W0.off 0 ≤ base ∧ base ≤ Reg.MEM_REG_W2.off 0 then some (regionEff h i (off % 16 / 4) v)
  else if base = Reg.CLUSTER_PLD_CMD.off 0 0 then some (pldCmdEff i h v x.seen)
  else if Reg.CLUSTER_CONV_W0.off 0 0 ≤ base ∧ base ≤ Reg.CLUSTER_CONV_W3.off 0 0 then some (convWriteEff h i j (off % 16 / 4) v)
  else if base = Reg.TELEM_FAULT.off then some (faultClearEff v)
  else if base = Reg.TELEM_STK_CTL.off then some (if wordField v 0 1 = 1 then stickyClearEff h else id)
  else none

/-- What a register write does. -/
def writeEff (h : HostId) (r : RegRow) (idx : List Nat) (off : Nat) (v : Word) (x : WriteSide) (s : State) : State :=
  let i := idx.getD 0 0
  let j := idx.getD 1 0
  let f? := if r.base < 0x40000 then specialLow? h r.base off v x i
    else if r.base < 0x100000 then specialMid? h r.base off v x i
    else specialHigh? h r.base off v x i j
  match f? with
  | some f => f s
  | none => s.applyWrite off v

/-- One 32-bit write of a host. Where no register stands it is ignored (R8). -/
def State.writeWord (s : State) (h : HostId) (off : Nat) (v : Word) (x : WriteSide) : State :=
  match regAt? off with
  | none => s.openWrite h off id
  | some (r, idx) =>
    if r.base = Reg.PART_CTL.off 0 then s.partCtlWrite h (idx.getD 0 0) x.expiry v
    else s.hostWrite h off (writeEff h r idx off v x)

/-! The rows -/

/-- An access of wrong width or alignment (R7): a write is ignored, a read returns ones, and either is logged. Where an access does not reach the
device a read returns ones all the same (16 R442, 17 R464). -/
def badAccessEff (h : HostId) (write : Bool) (off size : Nat) (s : State) : State :=
  if !s.funcOpen h then s
  else
    let s := if s.bar0Reach h off && !s.boot.warm then s.writeIgnored h off else s
    if write then s else s.emit (.readData h 0 off (List.replicate size 0xFF))

/-- A BAR0 read. Of a pair the low word is read first (01 R19). -/
def bar0ReadEff (h : HostId) (off size : Nat) (s : State) : State :=
  if !s.funcOpen h then s
  else if !accessOk off size then badAccessEff h false off size s
  else if !s.bar0Reach h off || (s.boot.warm && !warmReadable off) then s.emit (.readData h 0 off (List.replicate size 0xFF))
  else
    let (s, lo) := s.readWord off
    if size = 4 then s.emit (.readData h 0 off (leBytes 4 lo.toNat))
    else
      let (s, hi) := s.readWord (off + 4)
      s.emit (.readData h 0 off (leBytes 4 lo.toNat ++ leBytes 4 hi.toNat))

/-- A BAR0 write. Of a pair the high word is written first, so that a low word that commits both commits both (08 R215; DEDUCED, log 24). -/
def bar0WriteEff (h : HostId) (off : Nat) (v : BitVec 64) (wide : Bool) (x : WriteSide) (s : State) : State :=
  if !accessOk off (if wide then 8 else 4) then badAccessEff h true off (if wide then 8 else 4) s
  else
    let s := if wide then s.writeWord h (off + 4) (v.extractLsb' 32 32) x else s
    s.writeWord h off (v.setWidth 32) x

def execRegisterWrite (host : HostId) (off : BitVec 24) (value : BitVec 64) (wide : Bool) (side : WriteSide) (s : State) : Answer :=
  .next (bar0WriteEff host off.toNat value wide side s)
def execRcCounterRead (host : HostId) (off : BitVec 24) (wide : Bool) (s : State) : Answer :=
  .next (bar0ReadEff host off.toNat (if wide then 8 else 4) s)
def execBar0BadAccess (host : HostId) (write : Bool) (off : BitVec 24) (size : Nat) (s : State) : Answer :=
  .next (if accessOk off.toNat size then s else badAccessEff host write off.toNat size s)

end Sys2Proof.Machine
end

