-- ==== Sys2Proof/Machine/Dispatch.lean ====
section
/-! DEFINITION. One arm per command: a direct call of its meaning. -/

namespace Sys2Proof.Machine

/-- The effect of a command on everything but the queue. -/
def exec (i : Instr) (s : State) : Host.Outcome State Fault Refusal :=
  match i with
  | .registerWrite host off value wide side => Sys2Proof.Machine.execRegisterWrite host off value wide side s
  | .rcCounterRead host off wide => Sys2Proof.Machine.execRcCounterRead host off wide s
  | .bar0BadAccess host write off size => Sys2Proof.Machine.execBar0BadAccess host write off size s
  | .timeCtlWrite host value => Sys2Proof.Machine.execTimeCtlWrite host value s
  | .setArm host value => Sys2Proof.Machine.execSetArm host value s
  | .timePortWrite host value => Sys2Proof.Machine.execTimePortWrite host value s
  | .timeHoldLimitWrite host value => Sys2Proof.Machine.execTimeHoldLimitWrite host value s
  | .timeNowRead host wide => Sys2Proof.Machine.execTimeNowRead host wide s
  | .timeSetAssign => Sys2Proof.Machine.execTimeSetAssign s
  | .sourceLost heldMs => Sys2Proof.Machine.execSourceLost heldMs s
  | .sourceValid offset heldMs => Sys2Proof.Machine.execSourceValid offset heldMs s
  | .lockAchieved sourceTime => Sys2Proof.Machine.execLockAchieved sourceTime s
  | .srcStep => Sys2Proof.Machine.execSrcStep s
  | .holdoverLimitReached => Sys2Proof.Machine.execHoldoverLimitReached s
  | .timeLost => Sys2Proof.Machine.execTimeLost s
  | .slotBoundary => Sys2Proof.Machine.execSlotBoundary s
  | .ptpMessageReceive port msg arrival => Sys2Proof.Machine.execPtpMessageReceive port msg arrival s
  | .beaconSend port => Sys2Proof.Machine.execBeaconSend port s
  | .beaconReceive port copies arrival => Sys2Proof.Machine.execBeaconReceive port copies arrival s
  | .barrierArrival unit seq rank slot state => Sys2Proof.Machine.execBarrierArrival unit seq rank slot state s
  | .barrierReleaseReceive unit seq slot failed => Sys2Proof.Machine.execBarrierReleaseReceive unit seq slot failed s
  | .barrierRelease unit => Sys2Proof.Machine.execBarrierRelease unit s
  | .unitFailure failure => Sys2Proof.Machine.execUnitFailure failure s
  | .commit host => Sys2Proof.Machine.execCommit host s
  | .linkCfgWrite host port value => Sys2Proof.Machine.execLinkCfgWrite host port value s
  | .linkBufClassWrite host port cls value => Sys2Proof.Machine.execLinkBufClassWrite host port cls value s
  | .ethFrameReceive port sub bytes early => Sys2Proof.Machine.execEthFrameReceive port sub bytes early s
  | .pfcFrameReceive port sub enable times => Sys2Proof.Machine.execPfcFrameReceive port sub enable times s
  | .pauseFrameReceive port sub time => Sys2Proof.Machine.execPauseFrameReceive port sub time s
  | .pfcRefresh port sub cls => Sys2Proof.Machine.execPfcRefresh port sub cls s
  | .pauseTimeExpiry port sub cls => Sys2Proof.Machine.execPauseTimeExpiry port sub cls s
  | .preemptVerify port sub ok => Sys2Proof.Machine.execPreemptVerify port sub ok s
  | .elpFrameReceive port containers early => Sys2Proof.Machine.execElpFrameReceive port containers early s
  | .codewordUncorrectable port classes => Sys2Proof.Machine.execCodewordUncorrectable port classes s
  | .alignSend port => Sys2Proof.Machine.execAlignSend port s
  | .alignReceive port copies => Sys2Proof.Machine.execAlignReceive port copies s
  | .keepaliveSend port => Sys2Proof.Machine.execKeepaliveSend port s
  | .keepaliveReceive port copies => Sys2Proof.Machine.execKeepaliveReceive port copies s
  | .fencedSend port => Sys2Proof.Machine.execFencedSend port s
  | .fencedReceive port copies => Sys2Proof.Machine.execFencedReceive port copies s
  | .peerLost silence => Sys2Proof.Machine.execPeerLost silence s
  | .pcsLinkDown port => Sys2Proof.Machine.execPcsLinkDown port s
  | .pcsLinkUp port => Sys2Proof.Machine.execPcsLinkUp port s
  | .pauseOsReceive port copies => Sys2Proof.Machine.execPauseOsReceive port copies s
  | .farrierWindow port lane serExp => Sys2Proof.Machine.execFarrierWindow port lane serExp s
  | .laneFailure port lane => Sys2Proof.Machine.execLaneFailure port lane s
  | .spareAdapted port lane => Sys2Proof.Machine.execSpareAdapted port lane s
  | .spareTrained port lane => Sys2Proof.Machine.execSpareTrained port lane s
  | .laneReqReceive port copies => Sys2Proof.Machine.execLaneReqReceive port copies s
  | .laneAckReceive port copies => Sys2Proof.Machine.execLaneAckReceive port copies s
  | .laneNakReceive port copies => Sys2Proof.Machine.execLaneNakReceive port copies s
  | .laneReqTimeout port => Sys2Proof.Machine.execLaneReqTimeout port s
  | .laneMaskSwitch port => Sys2Proof.Machine.execLaneMaskSwitch port s
  | .laneDoneSend port => Sys2Proof.Machine.execLaneDoneSend port s
  | .laneDoneReceive port copies => Sys2Proof.Machine.execLaneDoneReceive port copies s
  | .frameTransmitStart port sub cls => Sys2Proof.Machine.execFrameTransmitStart port sub cls s
  | .frameTransmitEnd port sub cls => Sys2Proof.Machine.execFrameTransmitEnd port sub cls s
  | .meshSelfWrite host value => Sys2Proof.Machine.execMeshSelfWrite host value s
  | .meshArm host value => Sys2Proof.Machine.execMeshArm host value s
  | .meshDisarm host value => Sys2Proof.Machine.execMeshDisarm host value s
  | .routingTableWrite host off value => Sys2Proof.Machine.execRoutingTableWrite host off value s
  | .retainedBankRelease => Sys2Proof.Machine.execRetainedBankRelease s
  | .drainLimitExpiry => Sys2Proof.Machine.execDrainLimitExpiry s
  | .flowReturnPrimary flow => Sys2Proof.Machine.execFlowReturnPrimary flow s
  | .submit host part => Sys2Proof.Machine.execSubmit host part s
  | .admissionVerdict seen => Sys2Proof.Machine.execAdmissionVerdict seen s
  | .cancel host part => Sys2Proof.Machine.execCancel host part s
  | .scheduleTakeover => Sys2Proof.Machine.execScheduleTakeover s
  | .sampleRecord flow => Sys2Proof.Machine.execSampleRecord flow s
  | .kennelCreate host qpn seen => Sys2Proof.Machine.execKennelCreate host qpn seen s
  | .kennelModify host qpn seen => Sys2Proof.Machine.execKennelModify host qpn seen s
  | .kennelQuery host qpn seen => Sys2Proof.Machine.execKennelQuery host qpn seen s
  | .kennelDestroy host qpn seen => Sys2Proof.Machine.execKennelDestroy host qpn seen s
  | .retrieverFetchDone qpn seen => Sys2Proof.Machine.execRetrieverFetchDone qpn seen s
  | .workEntryStart queue seen => Sys2Proof.Machine.execWorkEntryStart queue seen s
  | .sendReceive seen => Sys2Proof.Machine.execSendReceive seen s
  | .writeReceive seen => Sys2Proof.Machine.execWriteReceive seen s
  | .readReqReceive seen => Sys2Proof.Machine.execReadReqReceive seen s
  | .atomicReceive seen => Sys2Proof.Machine.execAtomicReceive seen s
  | .readRespReceive seen => Sys2Proof.Machine.execReadRespReceive seen s
  | .atomicAckReceive seen => Sys2Proof.Machine.execAtomicAckReceive seen s
  | .ackReceive seen => Sys2Proof.Machine.execAckReceive seen s
  | .nakReceive seen => Sys2Proof.Machine.execNakReceive seen s
  | .rnrNakReceive seen => Sys2Proof.Machine.execRnrNakReceive seen s
  | .visAckReceive seen => Sys2Proof.Machine.execVisAckReceive seen s
  | .resyncReceive seen => Sys2Proof.Machine.execResyncReceive seen s
  | .retransmitTimeout qpn seen => Sys2Proof.Machine.execRetransmitTimeout qpn seen s
  | .rnrWaitExpiry qpn seen => Sys2Proof.Machine.execRnrWaitExpiry qpn seen s
  | .ackDelayExpiry qpn => Sys2Proof.Machine.execAckDelayExpiry qpn s
  | .visibilityReached owner place => Sys2Proof.Machine.execVisibilityReached owner place s
  | .pathHoldExpiry qpn => Sys2Proof.Machine.execPathHoldExpiry qpn s
  | .nopEntry queue => Sys2Proof.Machine.execNopEntry queue s
  | .send queue seen => Sys2Proof.Machine.execSend queue seen s
  | .sendImm queue seen => Sys2Proof.Machine.execSendImm queue seen s
  | .write queue seen => Sys2Proof.Machine.execWrite queue seen s
  | .writeImm queue seen => Sys2Proof.Machine.execWriteImm queue seen s
  | .read queue seen => Sys2Proof.Machine.execRead queue seen s
  | .cmpSwap queue seen => Sys2Proof.Machine.execCmpSwap queue seen s
  | .fetchAdd queue seen => Sys2Proof.Machine.execFetchAdd queue seen s
  | .copy queue seen => Sys2Proof.Machine.execCopy queue seen s
  | .invoke queue => Sys2Proof.Machine.execInvoke queue s
  | .openWindow queue => Sys2Proof.Machine.execOpenWindow queue s
  | .revokeWindow queue => Sys2Proof.Machine.execRevokeWindow queue s
  | .trigReset queue => Sys2Proof.Machine.execTrigReset queue s
  | .abort queue => Sys2Proof.Machine.execAbort queue s
  | .recvEntry queue => Sys2Proof.Machine.execRecvEntry queue s
  | .winRevoke host part key => Sys2Proof.Machine.execWinRevoke host part key s
  | .revocationFence index => Sys2Proof.Machine.execRevocationFence index s
  | .accessCommitted index => Sys2Proof.Machine.execAccessCommitted index s
  | .revocationComplete index => Sys2Proof.Machine.execRevocationComplete index s
  | .sheepBatchTimeout host => Sys2Proof.Machine.execSheepBatchTimeout host s
  | .sheepBatchWrite host => Sys2Proof.Machine.execSheepBatchWrite host s
  | .sheepResolve host id seen => Sys2Proof.Machine.execSheepResolve host id seen s
  | .sheepFail host id => Sys2Proof.Machine.execSheepFail host id s
  | .sheepTimeout host id => Sys2Proof.Machine.execSheepTimeout host id s
  | .sheepParkWrite host reg value => Sys2Proof.Machine.execSheepParkWrite host reg value s
  | .trigIncrement => Sys2Proof.Machine.execTrigIncrement s
  | .triggeredStart queue seen => Sys2Proof.Machine.execTriggeredStart queue seen s
  | .trigRangeWrite host part num value => Sys2Proof.Machine.execTrigRangeWrite host part num value s
  | .winShareWrite host part value => Sys2Proof.Machine.execWinShareWrite host part value s
  | .flr host => Sys2Proof.Machine.execFlr host s
  | .d3hotEntry host => Sys2Proof.Machine.execD3hotEntry host s
  | .hostPortDown host => Sys2Proof.Machine.execHostPortDown host s
  | .doorbellWq host page slot value => Sys2Proof.Machine.execDoorbellWq host page slot value s
  | .doorbellCq host page slot value => Sys2Proof.Machine.execDoorbellCq host page slot value s
  | .bar2BadAccess host write off size => Sys2Proof.Machine.execBar2BadAccess host write off size s
  | .bar4Read host off size => Sys2Proof.Machine.execBar4Read host off size s
  | .bar4Write host off bytes => Sys2Proof.Machine.execBar4Write host off bytes s
  | .b4CtlCommit host value => Sys2Proof.Machine.execB4CtlCommit host value s
  | .queueCreate host queue seen => Sys2Proof.Machine.execQueueCreate host queue seen s
  | .queueModify host queue seen => Sys2Proof.Machine.execQueueModify host queue seen s
  | .queueQuery host queue seen => Sys2Proof.Machine.execQueueQuery host queue seen s
  | .queueDestroy host queue seen => Sys2Proof.Machine.execQueueDestroy host queue seen s
  | .dcinv host queue => Sys2Proof.Machine.execDcinv host queue s
  | .entryFetchReturn queue count seen => Sys2Proof.Machine.execEntryFetchReturn queue count seen s
  | .refetchTimer queue pos seen => Sys2Proof.Machine.execRefetchTimer queue pos seen s
  | .cqModerationExpiry queue => Sys2Proof.Machine.execCqModerationExpiry queue s
  | .claim host part owner rights => Sys2Proof.Machine.execClaim host part owner rights s
  | .partAllocWrite host part owner rights => Sys2Proof.Machine.execPartAllocWrite host part owner rights s
  | .seal host part => Sys2Proof.Machine.execSeal host part s
  | .resume host part expiring => Sys2Proof.Machine.execResume host part expiring s
  | .partReset host part => Sys2Proof.Machine.execPartReset host part s
  | .release host part => Sys2Proof.Machine.execRelease host part s
  | .partitionResetDone part => Sys2Proof.Machine.execPartitionResetDone part s
  | .holdingWrite host offset value => Sys2Proof.Machine.execHoldingWrite host offset value s
  | .instCreate host part inst => Sys2Proof.Machine.execInstCreate host part inst s
  | .instReset host part inst => Sys2Proof.Machine.execInstReset host part inst s
  | .instDestroy host part inst => Sys2Proof.Machine.execInstDestroy host part inst s
  | .freeze host scope part inst => Sys2Proof.Machine.execFreeze host scope part inst s
  | .freezeComplete host => Sys2Proof.Machine.execFreezeComplete host s
  | .thaw host scope part inst seen => Sys2Proof.Machine.execThaw host scope part inst seen s
  | .save host scope part inst => Sys2Proof.Machine.execSave host scope part inst s
  | .restore host scope part inst seen => Sys2Proof.Machine.execRestore host scope part inst seen s
  | .partHostCtlWrite host frame value => Sys2Proof.Machine.execPartHostCtlWrite host frame value s
  | .hostKick host frame value => Sys2Proof.Machine.execHostKick host frame value s
  | .hostWatchdogExpiry host => Sys2Proof.Machine.execHostWatchdogExpiry host s
  | .orphanGraceExpiry part => Sys2Proof.Machine.execOrphanGraceExpiry part s
  | .addSubAndOrXor core => Sys2Proof.Machine.execAddSubAndOrXor core s
  | .sllSrlSra core => Sys2Proof.Machine.execSllSrlSra core s
  | .sltSltu core => Sys2Proof.Machine.execSltSltu core s
  | .minMaxMinuMaxu core => Sys2Proof.Machine.execMinMaxMinuMaxu core s
  | .clzPopc core => Sys2Proof.Machine.execClzPopc core s
  | .mulMulhMulhu core => Sys2Proof.Machine.execMulMulhMulhu core s
  | .clmulClmulh core => Sys2Proof.Machine.execClmulClmulh core s
  | .addiAndiOriXori core => Sys2Proof.Machine.execAddiAndiOriXori core s
  | .shi core => Sys2Proof.Machine.execShi core s
  | .slti core => Sys2Proof.Machine.execSlti core s
  | .lui core => Sys2Proof.Machine.execLui core s
  | .luih core => Sys2Proof.Machine.execLuih core s
  | .lbLhLwLd core ecc => Sys2Proof.Machine.execLbLhLwLd core ecc s
  | .sbShSwSd core ecc => Sys2Proof.Machine.execSbShSwSd core ecc s
  | .beqBneBltBge core => Sys2Proof.Machine.execBeqBneBltBge core s
  | .jal core => Sys2Proof.Machine.execJal core s
  | .jalr core => Sys2Proof.Machine.execJalr core s
  | .loopi core => Sys2Proof.Machine.execLoopi core s
  | .loopr core => Sys2Proof.Machine.execLoopr core s
  | .csrr core => Sys2Proof.Machine.execCsrr core s
  | .csrw core => Sys2Proof.Machine.execCsrw core s
  | .fence core => Sys2Proof.Machine.execFence core s
  | .endEvent core => Sys2Proof.Machine.execEndEvent core s
  | .cmpl core => Sys2Proof.Machine.execCmpl core s
  | .brk core => Sys2Proof.Machine.execBrk core s
  | .slotw core => Sys2Proof.Machine.execSlotw core s
  | .slotwRelease core => Sys2Proof.Machine.execSlotwRelease core s
  | .bar core => Sys2Proof.Machine.execBar core s
  | .msg core => Sys2Proof.Machine.execMsg core s
  | .messageDelivery cluster => Sys2Proof.Machine.execMessageDelivery cluster s
  | .siga core => Sys2Proof.Machine.execSiga core s
  | .swait core => Sys2Proof.Machine.execSwait core s
  | .swaitRelease core => Sys2Proof.Machine.execSwaitRelease core s
  | .vld core ecc => Sys2Proof.Machine.execVld core ecc s
  | .vldr core ecc => Sys2Proof.Machine.execVldr core ecc s
  | .vst core ecc => Sys2Proof.Machine.execVst core ecc s
  | .vext core => Sys2Proof.Machine.execVext core s
  | .vins core => Sys2Proof.Machine.execVins core s
  | .vbcast core => Sys2Proof.Machine.execVbcast core s
  | .vaddVsubVmulVmaxVmin core => Sys2Proof.Machine.execVaddVsubVmulVmaxVmin core s
  | .vabsVneg core => Sys2Proof.Machine.execVabsVneg core s
  | .vandVorVxor core => Sys2Proof.Machine.execVandVorVxor core s
  | .vfma core => Sys2Proof.Machine.execVfma core s
  | .vcvt core => Sys2Proof.Machine.execVcvt core s
  | .vqmx core => Sys2Proof.Machine.execVqmx core s
  | .vdqmx core => Sys2Proof.Machine.execVdqmx core s
  | .vperm core => Sys2Proof.Machine.execVperm core s
  | .vhred core => Sys2Proof.Machine.execVhred core s
  | .tzero core => Sys2Proof.Machine.execTzero core s
  | .tld core ecc => Sys2Proof.Machine.execTld core ecc s
  | .tst core ecc => Sys2Proof.Machine.execTst core ecc s
  | .tmma core ecc => Sys2Proof.Machine.execTmma core ecc s
  | .tstream core => Sys2Proof.Machine.execTstream core s
  | .dmov core => Sys2Proof.Machine.execDmov core s
  | .dwait core => Sys2Proof.Machine.execDwait core s
  | .dwaitRelease core => Sys2Proof.Machine.execDwaitRelease core s
  | .aeseAesd core => Sys2Proof.Machine.execAeseAesd core s
  | .aesBlocksReturn core => Sys2Proof.Machine.execAesBlocksReturn core s
  | .redp core => Sys2Proof.Machine.execRedp core s
  | .wchk core => Sys2Proof.Machine.execWchk core s
  | .kldKst core => Sys2Proof.Machine.execKldKst core s
  | .watchdog core => Sys2Proof.Machine.execWatchdog core s
  | .eventStart core => Sys2Proof.Machine.execEventStart core s
  | .droverDescriptorTake core chan => Sys2Proof.Machine.execDroverDescriptorTake core chan s
  | .droverTransferDone core chan seen => Sys2Proof.Machine.execDroverTransferDone core chan seen s
  | .programLoad host cluster part dispatch seen => Sys2Proof.Machine.execProgramLoad host cluster part dispatch seen s
  | .programUnload host cluster part => Sys2Proof.Machine.execProgramUnload host cluster part s
  | .convProfileWrite host cluster profile word value => Sys2Proof.Machine.execConvProfileWrite host cluster profile word value s
  | .reductionRead cluster seen => Sys2Proof.Machine.execReductionRead cluster seen s
  | .segmentComplete cluster => Sys2Proof.Machine.execSegmentComplete cluster s
  | .stageFrameDelivery core known => Sys2Proof.Machine.execStageFrameDelivery core known s
  | .frameVerdict core => Sys2Proof.Machine.execFrameVerdict core s
  | .shift queue seen => Sys2Proof.Machine.execShift queue seen s
  | .permute queue seen => Sys2Proof.Machine.execPermute queue seen s
  | .reduce queue order seen => Sys2Proof.Machine.execReduce queue order seen s
  | .reduceScatter queue order seen => Sys2Proof.Machine.execReduceScatter queue order seen s
  | .allReduce queue order seen => Sys2Proof.Machine.execAllReduce queue order seen s
  | .barrier queue seen => Sys2Proof.Machine.execBarrier queue seen s
  | .barrierSetup queue seen => Sys2Proof.Machine.execBarrierSetup queue seen s
  | .chunkSignal coll rank order seen => Sys2Proof.Machine.execChunkSignal coll rank order seen s
  | .collectiveComplete coll => Sys2Proof.Machine.execCollectiveComplete coll s
  | .collectiveFail coll => Sys2Proof.Machine.execCollectiveFail coll s
  | .barrierTimeout unit => Sys2Proof.Machine.execBarrierTimeout unit s
  | .barrierWithdrawal unit seq => Sys2Proof.Machine.execBarrierWithdrawal unit seq s
  | .exactWrite host value => Sys2Proof.Machine.execExactWrite host value s
  | .detDigestDone => Sys2Proof.Machine.execDetDigestDone s
  | .tinkerBlockTest engine block corrected uncorrectable failing => Sys2Proof.Machine.execTinkerBlockTest engine block corrected uncorrectable failing s
  | .ddrAlert channel replays failed => Sys2Proof.Machine.execDdrAlert channel replays failed s
  | .scrubLine channel found ecs => Sys2Proof.Machine.execScrubLine channel found ecs s
  | .ddrRefresh channel => Sys2Proof.Machine.execDdrRefresh channel s
  | .regionWrite host entry word value => Sys2Proof.Machine.execRegionWrite host entry word value s
  | .zeroFillDone entry => Sys2Proof.Machine.execZeroFillDone entry s
  | .memRspillWrite host reg value => Sys2Proof.Machine.execMemRspillWrite host reg value s
  | .memImgWrite host reg value => Sys2Proof.Machine.execMemImgWrite host reg value s
  | .nonce host => Sys2Proof.Machine.execNonce host s
  | .nonceExpiry => Sys2Proof.Machine.execNonceExpiry s
  | .dbgUnlock host level seen => Sys2Proof.Machine.execDbgUnlock host level seen s
  | .evictionDone => Sys2Proof.Machine.execEvictionDone s
  | .dbgLower host level => Sys2Proof.Machine.execDbgLower host level s
  | .lcAdvance host target seen selftest => Sys2Proof.Machine.execLcAdvance host target seen selftest s
  | .attest host arg seen => Sys2Proof.Machine.execAttest host arg seen s
  | .identity host => Sys2Proof.Machine.execIdentity host s
  | .extend host dmr seen => Sys2Proof.Machine.execExtend host dmr seen s
  | .fuseKey host fuse seen => Sys2Proof.Machine.execFuseKey host fuse seen s
  | .mctpRequest request => Sys2Proof.Machine.execMctpRequest request s
  | .alarm sensors => Sys2Proof.Machine.execAlarm sensors s
  | .keyLoad host slot seen => Sys2Proof.Machine.execKeyLoad host slot seen s
  | .keyErase host slot => Sys2Proof.Machine.execKeyErase host slot s
  | .ideKmMessage host message => Sys2Proof.Machine.execIdeKmMessage host message s
  | .tallyWindowEnd energy => Sys2Proof.Machine.execTallyWindowEnd energy s
  | .tallyBudgetWrite host value => Sys2Proof.Machine.execTallyBudgetWrite host value s
  | .clusterUngated cluster => Sys2Proof.Machine.execClusterUngated cluster s
  | .powerCap => Sys2Proof.Machine.execPowerCap s
  | .capGraceExpiry => Sys2Proof.Machine.execCapGraceExpiry s
  | .powerCapRelease => Sys2Proof.Machine.execPowerCapRelease s
  | .standby host => Sys2Proof.Machine.execStandby host s
  | .wake host seen training tests => Sys2Proof.Machine.execWake host seen training tests s
  | .powerOn straps burned selftest mainPg => Sys2Proof.Machine.execPowerOn straps burned selftest mainPg s
  | .powerLoss => Sys2Proof.Machine.execPowerLoss s
  | .mainPgTimeout => Sys2Proof.Machine.execMainPgTimeout s
  | .mainPgFall => Sys2Proof.Machine.execMainPgFall s
  | .go host seen training tests => Sys2Proof.Machine.execGo host seen training tests s
  | .crierSegmentReceive cluster pcore segment good => Sys2Proof.Machine.execCrierSegmentReceive cluster pcore segment good s
  | .crierGapReport cluster pcore => Sys2Proof.Machine.execCrierGapReport cluster pcore s
  | .crierReportWindow => Sys2Proof.Machine.execCrierReportWindow s
  | .warmReset host selftest => Sys2Proof.Machine.execWarmReset host selftest s
  | .computeReset host => Sys2Proof.Machine.execComputeReset host s
  | .computeResetCleared tests => Sys2Proof.Machine.execComputeResetCleared tests s
  | .computeResume host tests => Sys2Proof.Machine.execComputeResume host tests s
  | .fatalError unit => Sys2Proof.Machine.execFatalError unit s
  | .portReset host value => Sys2Proof.Machine.execPortReset host value s
  | .portTrained port mask => Sys2Proof.Machine.execPortTrained port mask s
  | .eventGatherExpiry host index => Sys2Proof.Machine.execEventGatherExpiry host index s
  | .eventRecordWrite host => Sys2Proof.Machine.execEventRecordWrite host s
  | .eventVectorDelay host => Sys2Proof.Machine.execEventVectorDelay host s
  | .htcWatchdog selftest => Sys2Proof.Machine.execHtcWatchdog selftest s
  | .aliveNToggle => Sys2Proof.Machine.execAliveNToggle s
  | .queueSampleInterval => Sys2Proof.Machine.execQueueSampleInterval s
  | .stickyClear host => Sys2Proof.Machine.execStickyClear host s
  | .ptpMessageSend port msg => Sys2Proof.Machine.execPtpMessageSend port msg s
  | .hostPortUp host speed width => Sys2Proof.Machine.execHostPortUp host speed width s
  | .d3hotExit host => Sys2Proof.Machine.execD3hotExit host s
  | .conventionalReset host => Sys2Proof.Machine.execConventionalReset host s
  | .debugHalt core => Sys2Proof.Machine.execDebugHalt core s
  | .debugResume core => Sys2Proof.Machine.execDebugResume core s
  | .sparePreloadDone core => Sys2Proof.Machine.execSparePreloadDone core s
  | .alarmConditionEnd sensor => Sys2Proof.Machine.execAlarmConditionEnd sensor s
  | .ucieLaneRepair => Sys2Proof.Machine.execUcieLaneRepair s
  | .spdmMessage host request => Sys2Proof.Machine.execSpdmMessage host request s

end Sys2Proof.Machine
end

