-- ==== Sys2Proof/Safety.lean ====
section
/-! DEFINITION. The terms in which statements about the machine are made: a command that completes, the registers a host's access
reaches and may write, and what a step leaves alone. -/

namespace Sys2Proof.Machine

/-- The command answers a next state, and that state has the property. -/
def Completes (c : Instr) (s : State) (P : State → Prop) : Prop := ∃ t, exec c s = .next t ∧ P t

/-- The block's write rule lets the host write the register at an offset (08 R241 and the write rule of each block). -/
abbrev MayWrite (s : State) (h : HostId) (off : Nat) : Prop :=
  (match regAt? off with
    | some (r, idx) => s.writerOk r idx h
    | none => false) = true

/-- A host's write of the register at an offset reaches the device and is neither discarded nor turned away: the access arrives (16
R442), no warm reset discards it (17 R464), the block takes writes before READY or READY is reached (17 R448), and the block's write rule
lets this host write. -/
abbrev Takes (s : State) (h : HostId) (off : Nat) : Prop :=
  s.bar0Reach h off = true ∧ s.boot.warm = false ∧ (s.preReady = false ∨ preReadyOpen off = true) ∧ MayWrite s h off

/-- Two fields share no bit of a register. -/
abbrev Fld.Apart (f g : Fld) : Prop := g.off ≠ f.off ∨ f.lo + f.w ≤ g.lo ∨ g.lo + g.w ≤ f.lo

/-- Every register field that shares no bit with the listed fields reads as before. -/
def FieldsBut (fs : List Fld) (s t : State) : Prop :=
  ∀ g : Fld, g.lo + g.w ≤ 32 → (∀ f ∈ fs, f.Apart g) → t.get g = s.get g

/-- Every register outside the listed offsets reads as before. -/
def RegsBut (offs : List Nat) (s t : State) : Prop := ∀ o, o ∉ offs → t.reg o = s.reg o

/-- A port outside the listed ones is as before. -/
def PortsBut (ps : List Nat) (s t : State) : Prop := ∀ p, p ∉ ps → t.port p = s.port p

/-- A core outside the listed ones is as before. -/
def CoresBut (cs : List Nat) (s t : State) : Prop := ∀ c, c ∉ cs → t.core c = s.core c

/-- Of what is no register only Scrivener, the hosts' vectors and memories and the log of what leaves the block may differ: a step that
does no more than set registers and report to the hosts. -/
def ReportsOnly (s t : State) : Prop :=
  t = { s with regs := t.regs, scriv := t.scriv, host0 := t.host0, host1 := t.host1, hostMem0 := t.hostMem0, hostMem1 := t.hostMem1, out := t.out }

/-- Registers, reports, ports, mesh, schedules' run-time state, queue pairs and their contexts, work queues, trigger slots, Sheepdog, cores' events
and the memories may differ: what frames in flight and their completions can touch. -/
def TrafficOnly (s t : State) : Prop :=
  t = { s with regs := t.regs, scriv := t.scriv, host0 := t.host0, host1 := t.host1, hostMem0 := t.hostMem0, hostMem1 := t.hostMem1
               out := t.out, sched := t.sched, ports := t.ports, mesh := t.mesh, rxq := t.rxq, held := t.held, stageIn := t.stageIn
               qps := t.qps, kennel := t.kennel, sheep0 := t.sheep0, sheep1 := t.sheep1, trigs := t.trigs, queues := t.queues
               cores := t.cores, collEnds := t.collEnds, ddrBad := t.ddrBad, poisoned := t.poisoned, ddr := t.ddr, freeCtr := t.freeCtr, memsys := t.memsys }

/-- The same, and windows, tiles, waiting triggers and Tally: what a packet taken by its queue pair can touch. -/
def DeliveryOnly (s t : State) : Prop :=
  t = { s with regs := t.regs, scriv := t.scriv, host0 := t.host0, host1 := t.host1, hostMem0 := t.hostMem0, hostMem1 := t.hostMem1
               out := t.out, sched := t.sched, ports := t.ports, mesh := t.mesh, rxq := t.rxq, held := t.held, stageIn := t.stageIn
               qps := t.qps, kennel := t.kennel, sheep0 := t.sheep0, sheep1 := t.sheep1, trigs := t.trigs, queues := t.queues
               cores := t.cores, collEnds := t.collEnds, ddrBad := t.ddrBad, poisoned := t.poisoned, ddr := t.ddr, freeCtr := t.freeCtr
               wins := t.wins, tiles := t.tiles, tileNext := t.tileNext, trigPend := t.trigPend, tally := t.tally, memsys := t.memsys }

/-- Registers, reports, queues and their pairs, trigger slots, cores, Tally and the memories may differ: what the end or the fault of a
core's event can touch. -/
def CoreOnly (s t : State) : Prop :=
  t = { s with regs := t.regs, scriv := t.scriv, host0 := t.host0, host1 := t.host1, hostMem0 := t.hostMem0, hostMem1 := t.hostMem1
               out := t.out, qps := t.qps, trigs := t.trigs, queues := t.queues, cores := t.cores, collEnds := t.collEnds
               ddrBad := t.ddrBad, ddr := t.ddr, tally := t.tally }

/-- A core's next instruction is the word w of a row of Table 10.6, and no AES request holds a vector register that it uses (10 R271). -/
abbrev Issues (s : State) (c : Nat) (row : HylRow) (w : Nat) : Prop :=
  s.fetch c = .word w ∧ hylRow w = some row ∧ (s.core c).aes.any (fun a => usesVec w a.vd) = false

/-- One core becomes what is said; nothing else differs. -/
def CoreBecomes (c : Nat) (k : Core) (s t : State) : Prop := t.core c = k ∧ CoresBut [c] s t ∧ t = { s with cores := t.cores }

/-- An instruction writes one g register and steps past itself: gd holds the value, g0 reads 0, every other register of the core and
everything else is as before. -/
def StepsWithG (c d : Nat) (v : BitVec 64) (s t : State) : Prop :=
  CoreBecomes c { (s.core c).next with g := (t.core c).g } s t ∧ (t.core c).gr d = (if d = 0 then 0 else v)
    ∧ ∀ i, i ≠ d → (t.core c).gr i = (s.core c).gr i

/-- The same for one vector register. -/
def StepsWithV (c d : Nat) (v : BitVec 512) (s t : State) : Prop :=
  CoreBecomes c { (s.core c).next with v := (t.core c).v } s t ∧ (t.core c).vr d = v ∧ ∀ i, i ≠ d → (t.core c).vr i = (s.core c).vr i

/-- One vector register is written and flags are set, FFLAGS staying sticky (10 R281). -/
def StepsWithVF (c d : Nat) (v : BitVec 512) (fl : Nat) (s t : State) : Prop :=
  CoreBecomes c { (s.core c).next with v := (t.core c).v, fflags := (s.core c).fflags ||| fl % 16 } s t ∧ (t.core c).vr d = v
    ∧ ∀ i, i ≠ d → (t.core c).vr i = (s.core c).vr i

/-- The ordered set that a native port with its link on acts on: the first good copy (03 R67), with its sender's address. -/
def heard (s : State) (port : Nat) (copies : List (List Byte)) : Option (Nat × OrdSet) :=
  if s.native port && s.linkOn port then (copies.map osCopy).findSome? id else none

/-- The bad copies that such a port counts in LINK_OS_BAD. -/
def badCopies (s : State) (port : Nat) (copies : List (List Byte)) : Nat :=
  if s.native port && s.linkOn port then ((copies.map osCopy).filter Option.isNone).length else 0

/-- The frame that an Ethernet port makes of the bytes it received for one of the device's addresses (03 R54 to R56). -/
def ethArrival (s : State) (port sub : Nat) (bytes : List Byte) : Frame :=
  let body := bytes.take (bytes.length - 4)
  let cls := s.ethClass port body
  { kind := .ethernet, cls := cls, epoch := s.get Reg.MESH_STS.EPOCH, body := body, fcs := leNat (bytes.drop (bytes.length - 4))
    ingress := some (port, sub, cls), arrived := s.time.ftNs, sub := sub, transit := true, hasFca := false }

/-- What the receive side gets of a frame, with its epoch, that one of the device's endpoints takes at the port it arrived on: it stands in its
epoch's drain count and holds its cells at its ingress (04 R107). -/
def arrivedPkt (f : Frame) (port sub epoch : Nat) (roce : Bool) (ft : BitVec 64) : RxPkt :=
  { port := port, sub := sub, cls := f.cls, flow := f.flow, src := f.src, dst := f.dst, roce := roce, arrived := ft, bytes := f.body, epoch := epoch
    counted := true, held := f.cells, onBackup := f.onBackup }

/-- One frame more is on the mesh, and it carries these bytes. -/
def EntersMesh (s t : State) (body : List Byte) : Prop :=
  t.mesh.crossings.length = s.mesh.crossings.length + 1 ∧ (t.mesh.crossings.getLast?).map (fun x => x.frame.body) = some body

/-- A receive command, seeing s, takes the packet p of the frame x: it goes next, its context y is in its bank, and R155 and R152 of 06 and R258 of 09
let it in. It acts in w, where the frame has left the queue and the context's last use is noted. -/
abbrev TakesPacket (s : State) (x : RxPkt) (xs : List RxPkt) (p : TPkt) (y : Qp) (w : State) : Prop :=
  s.nextPkt = some (x, xs) ∧ x.decode = .pkt p ∧ s.absent p.dqpn = false
    ∧ (({ s with rxq := xs } : State).checkCtx p.dqpn).qp? p.dqpn = some y ∧ y.fits p = true
    ∧ (p.roce = false ∨ pkeyOk p.pkey y.ctx.pkey = true) ∧ y.ctx.state ≠ 6 ∧ y.ctx.state ≠ 7
    ∧ (p.kind.isRequest = false ∨ (({ s with rxq := xs } : State).checkCtx p.dqpn).pstate (cidPart y.ctx.cid) ≠ 4)
    ∧ w = (({ s with rxq := xs } : State).checkCtx p.dqpn).modCtx p.dqpn (fun c => { c with lastUse := s.time.ftNs.toNat })

end Sys2Proof.Machine
end

