-- ==== Sys2Proof/Certificates/Slice0/Obligations.lean ====
section
/-! DEFINITION. The statements for the provers. -/

open Sys2Proof Sys2Proof.Machine

/-- The lock-state commands move the time unit as Table 1.2 gives. In every state each of SOURCE_LOST, SOURCE_VALID, LOCK_ACHIEVED,
SRC_STEP and HOLDOVER_LIMIT_REACHED answers a next state: the lock state, the holdover timer, SRC_VALID, STEPPED and SRC_STEP take the
values of Table 1.2, FT is stepped by the lock from ACQUIRING alone, and every other register field and every other part of the machine
stays. -/
def Obligations.LockStateMoves : Prop :=
  (∀ (s : State) (ms : Nat),
      Completes (.sourceLost ms) s fun t =>
        t.get Reg.TIME_STS.SRC_VALID = 0 ∧ t.get Reg.TIME_OFFSET.OFFSET = 0
        ∧ (s.get Reg.TIME_STS.STATE = 2 → t.get Reg.TIME_STS.STATE = 3 ∧ t.get Reg.TIME_STS.HOLD_MS = 0 ∧ t.time.timerRunning = true)
        ∧ (s.get Reg.TIME_STS.STATE ≠ 2 → t.get Reg.TIME_STS.STATE = s.get Reg.TIME_STS.STATE)
        ∧ (s.get Reg.TIME_STS.STATE = 3 → t.time.timerRunning = true)
        ∧ FieldsBut [Reg.TIME_STS.STATE, Reg.TIME_STS.SRC_VALID, Reg.TIME_STS.HOLD_MS, Reg.TIME_OFFSET.OFFSET] s t
        ∧ t.time.ftNs = s.time.ftNs ∧ t = { s with regs := t.regs, time := t.time, sched := t.sched })
  ∧ (∀ (s : State) (off : Int) (ms : Nat),
      Completes (.sourceValid off ms) s fun t =>
        (s.get Reg.TIME_STS.STATE = 0 → t = s)
        ∧ (s.get Reg.TIME_STS.STATE = 1 ∨ s.get Reg.TIME_STS.STATE = 2 →
            t.get Reg.TIME_STS.STATE = s.get Reg.TIME_STS.STATE ∧ t.get Reg.TIME_STS.SRC_VALID = 1)
        ∧ (s.get Reg.TIME_STS.STATE = 4 → t.get Reg.TIME_STS.STATE = 1)
        ∧ (s.get Reg.TIME_STS.STATE = 3 → t.get Reg.TIME_STS.STATE = 3
            ∧ (off.natAbs ≤ 25600 → t.get Reg.TIME_STS.SRC_VALID = 1 ∧ t.time.timerRunning = false)
            ∧ (25600 < off.natAbs → t.get Reg.TIME_STS.SRC_VALID = 0 ∧ t.time.timerRunning = true
              ∧ (t.get Reg.TIME_HOLD_LIMIT.LIMIT_MS ≤ t.get Reg.TIME_STS.HOLD_MS → t.time.lossMet = true)))
        ∧ FieldsBut [Reg.TIME_STS.STATE, Reg.TIME_STS.SRC_VALID, Reg.TIME_STS.HOLD_MS, Reg.TIME_OFFSET.OFFSET] s t
        ∧ t.time.ftNs = s.time.ftNs ∧ t = { s with regs := t.regs, time := t.time })
  ∧ (∀ (s : State) (src : Nat),
      Completes (.lockAchieved src) s fun t =>
        (s.get Reg.TIME_STS.STATE = 1 → t.get Reg.TIME_STS.STATE = 2 ∧ t.get Reg.TIME_STS.STEPPED = 1
            ∧ t.time.ftNs = BitVec.ofNat 64 (nearestStep src / 256) ∧ t.time.frac = BitVec.ofNat 8 (nearestStep src % 256) ∧ t.time.phase = 0)
        ∧ (s.get Reg.TIME_STS.STATE = 3 → t.get Reg.TIME_STS.STATE = 2 ∧ t.get Reg.TIME_STS.HOLD_MS = 0 ∧ t.time.timerRunning = false
            ∧ t.time.ftNs = s.time.ftNs)
        ∧ (s.get Reg.TIME_STS.STATE ≠ 1 → s.get Reg.TIME_STS.STATE ≠ 3 → t = s)
        ∧ FieldsBut [Reg.TIME_STS.STATE, Reg.TIME_STS.SRC_VALID, Reg.TIME_STS.STEPPED, Reg.TIME_STS.HOLD_MS] s t
        ∧ t = { s with regs := t.regs, time := t.time })
  ∧ (∀ (s : State),
      Completes (.srcStep) s fun t =>
        (s.get Reg.TIME_STS.STATE = 2 → t.get Reg.TIME_STS.STATE = 3 ∧ t.get Reg.TIME_STS.SRC_STEP = 1 ∧ t.get Reg.TIME_STS.HOLD_MS = 0
            ∧ t.time.timerRunning = true ∧ t.time.ftNs = s.time.ftNs)
        ∧ (s.get Reg.TIME_STS.STATE ≠ 2 → t = s)
        ∧ FieldsBut [Reg.TIME_STS.STATE, Reg.TIME_STS.SRC_VALID, Reg.TIME_STS.SRC_STEP, Reg.TIME_STS.HOLD_MS, Reg.TIME_OFFSET.OFFSET] s t
        ∧ t = { s with regs := t.regs, time := t.time, sched := t.sched })
  ∧ (∀ (s : State),
      Completes (.holdoverLimitReached) s fun t =>
        (s.get Reg.TIME_STS.STATE = 3 → s.get Reg.TIME_STS.SRC_VALID = 0 → s.time.timerRunning = true → t.time.lossMet = true)
        ∧ (s.get Reg.TIME_STS.STATE ≠ 3 ∨ s.get Reg.TIME_STS.SRC_VALID = 1 → t = s)
        ∧ t.get Reg.TIME_STS.STATE = s.get Reg.TIME_STS.STATE ∧ FieldsBut [Reg.TIME_STS.HOLD_MS] s t
        ∧ t.time.ftNs = s.time.ftNs ∧ t = { s with regs := t.regs, time := t.time })

/-- Writes of TIME_CTL, TIME_PORT and TIME_HOLD_LIMIT and the read of TIME_NOW act as R14, R15, R19 and R25 give. A taken write of
TIME_CTL, with or without SET_ARM, of TIME_PORT or of TIME_HOLD_LIMIT is refused with CTL_REJ, and nothing else, where a schedule is
active or pending and the rule forbids the change; otherwise it sets its fields, and a change of source leads to NONE or ACQUIRING and
clears the holdover timer. A TIME_NOW read returns FT and latches the rest. FT itself never moves. -/
def Obligations.TimeRegisterWrites : Prop :=
  (∀ (s : State) (h : HostId) (v : Word),
      Takes s h Reg.TIME_CTL.off →
      Completes (.timeCtlWrite h v) s fun t =>
        (wordField v 0 2 ≠ s.get Reg.TIME_CTL.SRC → s.schedBusy = true →
            t.get Reg.TIME_STS.CTL_REJ = 1 ∧ FieldsBut [Reg.TIME_STS.CTL_REJ] s t ∧ t.time = s.time)
        ∧ (wordField v 0 2 = s.get Reg.TIME_CTL.SRC ∨ s.schedBusy = false →
            t.get Reg.TIME_CTL.SRC = wordField v 0 2 ∧ t.get Reg.TIME_CTL.PTP_BC = wordField v 2 1
            ∧ (4 ≤ wordField v 4 3 → wordField v 4 3 ≤ 6 → t.get Reg.TIME_CTL.DEMOTE_TC = wordField v 4 3))
        ∧ (wordField v 0 2 ≠ s.get Reg.TIME_CTL.SRC → s.schedBusy = false →
            t.get Reg.TIME_STS.STATE = (if wordField v 0 2 = 3 then 0 else 1) ∧ t.get Reg.TIME_STS.HOLD_MS = 0 ∧ t.get Reg.TIME_STS.SRC_VALID = 0
            ∧ t.time.timerRunning = false)
        ∧ (wordField v 0 2 = s.get Reg.TIME_CTL.SRC → wordField v 3 1 = 0 → t.time = s.time ∧ t.get Reg.TIME_STS.STATE = s.get Reg.TIME_STS.STATE)
        ∧ t.time.ftNs = s.time.ftNs ∧ t.time.frac = s.time.frac ∧ RegsBut [Reg.TIME_CTL.off, Reg.TIME_STS.off, Reg.TIME_OFFSET.off] s t
        ∧ t = { s with regs := t.regs, time := t.time, sched := t.sched })
  ∧ (∀ (s : State) (h : HostId) (v : Word),
      Takes s h Reg.TIME_CTL.off →
      wordField v 0 2 = s.get Reg.TIME_CTL.SRC →
      Completes (.setArm h v) s fun t =>
        (s.get Reg.TIME_CTL.SRC = 0 → s.pair Reg.TIME_SET_LO.SET Reg.TIME_SET_HI.SET % 1000000000 = 0 →
            t.get Reg.TIME_CTL.SET_ARM = 1 ∧ t.time.armed = some (BitVec.ofNat 64 (s.pair Reg.TIME_SET_LO.SET Reg.TIME_SET_HI.SET))
            ∧ t.get Reg.TIME_STS.CTL_REJ = s.get Reg.TIME_STS.CTL_REJ)
        ∧ (s.get Reg.TIME_CTL.SRC ≠ 0 ∨ s.pair Reg.TIME_SET_LO.SET Reg.TIME_SET_HI.SET % 1000000000 ≠ 0 →
            t.get Reg.TIME_STS.CTL_REJ = 1 ∧ t.get Reg.TIME_CTL.SET_ARM = s.get Reg.TIME_CTL.SET_ARM ∧ t.time = s.time)
        ∧ t.get Reg.TIME_CTL.SRC = s.get Reg.TIME_CTL.SRC ∧ t.get Reg.TIME_CTL.PTP_BC = wordField v 2 1
        ∧ FieldsBut [Reg.TIME_CTL.SRC, Reg.TIME_CTL.PTP_BC, Reg.TIME_CTL.SET_ARM, Reg.TIME_CTL.DEMOTE_TC, Reg.TIME_STS.CTL_REJ] s t
        ∧ t.time.ftNs = s.time.ftNs ∧ t = { s with regs := t.regs, time := t.time })
  ∧ (∀ (s : State) (h : HostId) (v : Word),
      Takes s h Reg.TIME_PORT.off →
      Completes (.timePortWrite h v) s fun t =>
        (wordField v 0 6 = s.get Reg.TIME_PORT.PORT → t = s)
        ∧ (wordField v 0 6 ≠ s.get Reg.TIME_PORT.PORT → s.schedBusy = true →
            t.get Reg.TIME_STS.CTL_REJ = 1 ∧ FieldsBut [Reg.TIME_STS.CTL_REJ] s t ∧ t.time = s.time)
        ∧ (wordField v 0 6 ≠ s.get Reg.TIME_PORT.PORT → s.schedBusy = false → t.get Reg.TIME_PORT.PORT = wordField v 0 6
            ∧ (s.get Reg.TIME_CTL.SRC ≠ 3 → t.get Reg.TIME_STS.STATE = 1 ∧ t.get Reg.TIME_STS.HOLD_MS = 0)
            ∧ (s.get Reg.TIME_CTL.SRC = 3 → FieldsBut [Reg.TIME_PORT.PORT] s t))
        ∧ t.time.ftNs = s.time.ftNs ∧ RegsBut [Reg.TIME_PORT.off, Reg.TIME_STS.off, Reg.TIME_OFFSET.off] s t
        ∧ t = { s with regs := t.regs, time := t.time, sched := t.sched })
  ∧ (∀ (s : State) (h : HostId) (v : Word),
      Takes s h Reg.TIME_HOLD_LIMIT.off →
      Completes (.timeHoldLimitWrite h v) s fun t =>
        (wordField v 0 10 = 0 ∨ 1000 < wordField v 0 10 → t = s)
        ∧ (1 ≤ wordField v 0 10 → wordField v 0 10 ≤ 1000 → s.get Reg.TIME_HOLD_LIMIT.LIMIT_MS < wordField v 0 10 → s.schedBusy = true →
            t.get Reg.TIME_STS.CTL_REJ = 1 ∧ FieldsBut [Reg.TIME_STS.CTL_REJ] s t ∧ t.time = s.time)
        ∧ (1 ≤ wordField v 0 10 → wordField v 0 10 ≤ 1000 → wordField v 0 10 ≤ s.get Reg.TIME_HOLD_LIMIT.LIMIT_MS ∨ s.schedBusy = false →
            t.get Reg.TIME_HOLD_LIMIT.LIMIT_MS = wordField v 0 10 ∧ FieldsBut [Reg.TIME_HOLD_LIMIT.LIMIT_MS] s t
            ∧ (s.get Reg.TIME_STS.STATE = 3 → s.get Reg.TIME_STS.SRC_VALID = 0 → wordField v 0 10 ≤ s.get Reg.TIME_STS.HOLD_MS → t.time.lossMet = true))
        ∧ t.time.ftNs = s.time.ftNs ∧ t = { s with regs := t.regs, time := t.time })
  ∧ (∀ (s : State) (h : HostId) (wide : Bool),
      s.bar0Reach h Reg.TIME_NOW_LO.off = true →
      Completes (.timeNowRead h wide) s fun t =>
        t = { s with time := { s.time with latchHi := s.time.ftNs.extractLsb' 32 32, latchFrac := s.time.frac }, out := s.out ++ [Output.readData h 0 Reg.TIME_NOW_LO.off (leBytes (if wide then 8 else 4) s.time.ftNs.toNat)] })

/-- Scrivener's commands write records, raise vector 0 and clear the sticky area as R471 to R473 and R479 give. EVENT_GATHER_EXPIRY
closes one gathering and writes a record only where later occurrences were counted; EVENT_RECORD_WRITE moves one waiting record into a
ring with room, its 32 bytes at PROD; EVENT_VECTOR_DELAY raises vector 0 for records not yet signalled; STICKY_CLEAR empties the sticky
area in MANUF and RMA and is logged as ignored in every other life-cycle state. Nothing else of the machine changes. -/
def Obligations.ScrivenerCommands : Prop :=
  (∀ (s : State) (h : HostId) (i : Nat),
      Completes (.eventGatherExpiry h i) s fun t =>
        (∀ g, (s.ev h).gathers[i]? = some g → (t.ev h).gathers = (s.ev h).gathers.eraseIdx i
            ∧ (g.later = 0 → t = s.setEv h { s.ev h with gathers := (s.ev h).gathers.eraseIdx i })
            ∧ (g.later ≠ 0 → (t.ev h).seq = (s.ev h).seq + 1))
        ∧ ((s.ev h).gathers[i]? = none → t = s) ∧ t.time = s.time ∧ ReportsOnly s t)
  ∧ (∀ (s : State) (h : HostId),
      Completes (.eventRecordWrite h) s fun t =>
        ((s.ev h).queue = [] → t = s) ∧ (s.ringRoom h = false → t = s)
        ∧ (∀ r, (s.ev h).queue = [r] → s.ringRoom h = true → s.get (Reg.TELEM_EVQ_CTL.LOG2_SIZE h) ≤ 16 →
            (t.ev h).queue = [] ∧ t.get (Reg.TELEM_EVQ_PEND.QUEUED h) = 0
            ∧ t.get (Reg.TELEM_EVQ_PROD.INDEX h) = (s.get (Reg.TELEM_EVQ_PROD.INDEX h) + 1) % 2 ^ s.get (Reg.TELEM_EVQ_CTL.LOG2_SIZE h)
            ∧ memRead (t.hostMem h) (s.pair (Reg.TELEM_EVQ_LO.BASE_LO h) (Reg.TELEM_EVQ_HI.BASE_HI h)
                + 32 * (s.get (Reg.TELEM_EVQ_PROD.INDEX h) % 2 ^ s.get (Reg.TELEM_EVQ_CTL.LOG2_SIZE h))) 32
              = evBytes { r with lost := (s.ev h).lostNext })
        ∧ ReportsOnly s t)
  ∧ (∀ (s : State) (h : HostId),
      Completes (.eventVectorDelay h) s fun t =>
        ((s.ev h).unsignalled = false → t = s) ∧ (t.ev h).unsignalled = false ∧ t.regs = s.regs
        ∧ ((s.ev h).unsignalled = true → s.get (Reg.HOSTIF_MSIX_CTL.MASK h 0) = 0 → s.hostUp h = true → (s.host h).d3hot = false → t.out = s.out ++ [s.msixOut h 0])
        ∧ ((s.ev h).unsignalled = true → s.get (Reg.HOSTIF_MSIX_CTL.MASK h 0) = 1 ∨ s.hostUp h = false ∨ (s.host h).d3hot = true → 0 ∈ (t.host h).pba ∧ t.out = s.out)
        ∧ t = { s with scriv := t.scriv, host0 := t.host0, host1 := t.host1, out := t.out })
  ∧ (∀ (s : State) (h : HostId),
      Takes s h Reg.TELEM_STK_CTL.off →
      Completes (.stickyClear h) s fun t =>
        (s.get Reg.SEC_LC.STATE = 0 ∨ s.get Reg.SEC_LC.STATE = 3 →
            t.scriv = { s.scriv with sticky := [] } ∧ t.get Reg.TELEM_STK_STS.COUNT = 0
            ∧ FieldsBut [Reg.TELEM_STK_STS.COUNT, Reg.TELEM_STK_STS.OLDEST] s t ∧ t = { s with regs := t.regs, scriv := t.scriv })
        ∧ (s.get Reg.SEC_LC.STATE ≠ 0 → s.get Reg.SEC_LC.STATE ≠ 3 → t = s.writeIgnored h Reg.TELEM_STK_CTL.off ∧ t.scriv.sticky = s.scriv.sticky))

/-- PTP messages are timestamped and answered, and TIME_SET_ASSIGN steps FT to the armed value (R13, R14). PTP_MESSAGE_RECEIVE keeps
message and arrival time of a port in Ethernet mode and answers a peer delay request on a master or slave port in two steps and a delay
request on a master port, with the arrival time; TIME_OFFSET may follow; a native port ignores it (the roles and the two-step answer are
the model's reading and choice, logs 133 and 160). PTP_MESSAGE_SEND keeps the departure time, and sends only what a port may send.
TIME_SET_ASSIGN makes the armed value FT, sets STEPPED and disarms. No register field but those named changes. -/
def Obligations.PtpAndTimeSet : Prop :=
  (∀ (s : State) (port : PortId) (m : PtpMsg) (at_ : BitVec 64),
      Completes (.ptpMessageReceive port m at_) s fun t =>
        (s.get (Reg.LINK_CFG.MODE port) = 1 → t = s)
        ∧ (s.get (Reg.LINK_CFG.MODE port) ≠ 1 → t.time = { s.time with ptpIn := s.time.ptpIn.set port (m, at_), ptp := t.time.ptp }
            ∧ (m.kind = .pdelayReq → s.ptpMaster port = true ∨ s.ptpSlave port = true →
                t.out = s.out ++ [Output.ptp port { kind := .pdelayResp, seq := m.seq, stamp := at_, twoStep := true },
                  Output.ptp port { kind := .pdelayRespFollowUp, seq := m.seq, stamp := s.time.ftNs }])
            ∧ (m.kind = .delayReq → s.ptpMaster port = true →
                t.out = s.out ++ [Output.ptp port { kind := .delayResp, seq := m.seq, stamp := at_ }])
            ∧ (m.kind = .delayReq → s.ptpMaster port = false → t.out = s.out)
            ∧ (m.kind ≠ .delayReq → m.kind ≠ .pdelayReq → t.out = s.out))
        ∧ FieldsBut [Reg.TIME_OFFSET.OFFSET] s t ∧ t = { s with regs := t.regs, time := t.time, out := t.out })
  ∧ (∀ (s : State) (port : PortId) (m : PtpMsg),
      Completes (.ptpMessageSend port m) s fun t =>
        (s.get (Reg.LINK_CFG.MODE port) = 0 → s.ptpMaster port = true → m.kind ≠ .delayReq →
            t = { s with time := { s.time with ptpOut := s.time.ptpOut.set port (m, s.time.ftNs), ptp := t.time.ptp }, out := s.out ++ [Output.ptp port m] })
        ∧ (s.get (Reg.LINK_CFG.MODE port) = 0 → s.get Reg.TIME_CTL.SRC = 2 → s.get Reg.TIME_PORT.PORT = port.val → m.kind = .delayReq →
            t = { s with time := { s.time with ptpOut := s.time.ptpOut.set port (m, s.time.ftNs), ptp := t.time.ptp }, out := s.out ++ [Output.ptp port m] })
        ∧ (s.get (Reg.LINK_CFG.MODE port) ≠ 0 → t = s)
        ∧ (s.ptpMaster port = false → m.kind ≠ .delayReq → m.kind ≠ .pdelayReq → t = s))
  ∧ (∀ (s : State),
      Completes (.timeSetAssign) s fun t =>
        (s.time.armed = none → t = s)
        ∧ (∀ v, s.time.armed = some v → t.time.ftNs = v ∧ t.time.frac = 0 ∧ t.time.phase = 0 ∧ t.time.armed = none
            ∧ t.get Reg.TIME_STS.STEPPED = 1 ∧ t.get Reg.TIME_CTL.SET_ARM = 0)
        ∧ FieldsBut [Reg.TIME_STS.STEPPED, Reg.TIME_CTL.SET_ARM] s t ∧ t = { s with regs := t.regs, time := t.time })

/-- Ordered sets sent on their own, PFC, PAUSE and preemption verify act on one port alone. ALIGN_SEND, KEEPALIVE_SEND, FENCED_SEND and
BEACON_SEND put one ordered set of Table 3.5 on the wire exactly where the port's mode and link state allow it. PFC and PAUSE frames and
the end of a pause time set the received times of the classes they name, PFC_REFRESH repeats an XOFF still in force, and PREEMPT_VERIFY
records its outcome. Every other port, register field and part of the machine stays. -/
def Obligations.PortSignalling : Prop :=
  (∀ (s : State) (p : PortId),
      Completes (.alignSend p) s fun t =>
        (s.native p = true → s.linkOn p = true →
            t = s.sendOs p (.align (s.time.ftNs.toNat / 25 % 2 ^ 32) (s.get (Reg.LINK_STS.ACTIVE p))))
        ∧ (s.native p = false ∨ s.linkOn p = false → t = s))
  ∧ (∀ (s : State) (p : PortId),
      Completes (.keepaliveSend p) s fun t =>
        (s.native p = true → s.get (Reg.LINK_STS.STATE p) = 2 → t = s.sendOs p (.keepalive true true s.time.ftNs.toNat))
        ∧ (s.native p = false ∨ s.get (Reg.LINK_STS.STATE p) ≠ 2 → t = s))
  ∧ (∀ (s : State) (p : PortId),
      Completes (.fencedSend p) s fun t =>
        (s.native p = true → s.get (Reg.LINK_STS.STATE p) = 3 → s.boot.needResume = false → t = s.sendOs p (.fenced true 1))
        ∧ (s.native p = true → s.get (Reg.LINK_STS.STATE p) = 3 → s.boot.needResume = true → t = s.sendOs p (.fenced true 2))
        ∧ (s.native p = false ∨ s.get (Reg.LINK_STS.STATE p) ≠ 3 → t = s))
  ∧ (∀ (s : State) (p : PortId),
      Completes (.beaconSend p) s fun t =>
        (s.native p = true → s.linkOn p = true → s.get (Reg.LINK_CFG.BEACON_TX p) = 1
              ∨ (s.get Reg.TIME_CTL.SRC = 1 ∧ s.get Reg.TIME_PORT.PORT = p.val) →
            t.port p = { s.port p with beacon := { (s.port p).beacon with sentT1 := s.ft } }
            ∧ t.out = s.out ++ [s.osOut p (.beacon (s.flag (Reg.LINK_CFG.BEACON_TX p)) (s.get Reg.TIME_STS.STATE)
                (s.get (Reg.LINK_BEACON_CTL.INTERVAL p)) s.ft (s.port p).beacon.peerT1 (s.port p).beacon.arrival
                (if s.get Reg.TIME_CTL.SRC = 1 then (s.port (s.get Reg.TIME_PORT.PORT)).beacon.hops + 1 else 0))])
        ∧ (s.native p = false ∨ s.linkOn p = false → t = s)
        ∧ (s.get (Reg.LINK_CFG.BEACON_TX p) = 0 → s.get Reg.TIME_CTL.SRC ≠ 1 ∨ s.get Reg.TIME_PORT.PORT ≠ p.val → t = s)
        ∧ PortsBut [p.val] s t ∧ t = { s with ports := t.ports, out := t.out })
  ∧ (∀ (s : State) (p : PortId) (sub : Fin 4) (en : BitVec 8) (times : List (BitVec 16)),
      Completes (.pfcFrameReceive p sub en times) s fun t =>
        (s.native p = true ∨ s.subports p ≤ sub.val ∨ s.subUp p sub = false ∨ s.linkOn p = false ∨ s.get (Reg.LINK_CFG.PAUSE_MODE p) ≠ 2 → t = s)
        ∧ (s.native p = false → sub.val < s.subports p → s.subUp p sub = true → s.linkOn p = true → s.get (Reg.LINK_CFG.PAUSE_MODE p) = 2 →
            (∀ n : Fin 8, bitAt en.toNat n = true → 4 ≤ bits (s.get (Reg.LINK_PCP_MAP.TC p)) (3 * n) 3 →
              bits (s.get (Reg.LINK_PCP_MAP.TC p)) (3 * n) 3 ≤ 6 →
              (times.getD n 0).toNat ≤ (t.port p).paused.getD (subCls sub (bits (s.get (Reg.LINK_PCP_MAP.TC p)) (3 * n) 3)) 0)
            ∧ (∀ c : Fin 8, (∀ n : Fin 8, bitAt en.toNat n = true → bits (s.get (Reg.LINK_PCP_MAP.TC p)) (3 * n) 3 ≠ c.val) →
              (t.port p).paused.getD (subCls sub c) 0 = (s.port p).paused.getD (subCls sub c) 0))
        ∧ t.port p = { s.port p with paused := (t.port p).paused } ∧ PortsBut [p.val] s t
        ∧ FieldsBut [Reg.LINK_PFC_IGNORED.COUNT p] s t ∧ t = { s with regs := t.regs, ports := t.ports })
  ∧ (∀ (s : State) (p : PortId) (sub : Fin 4) (time : BitVec 16),
      Completes (.pauseFrameReceive p sub time) s fun t =>
        (s.native p = true ∨ s.subports p ≤ sub.val ∨ s.subUp p sub = false ∨ s.linkOn p = false ∨ s.get (Reg.LINK_CFG.PAUSE_MODE p) ≠ 1 → t = s)
        ∧ (s.native p = false → sub.val < s.subports p → s.subUp p sub = true → s.linkOn p = true → s.get (Reg.LINK_CFG.PAUSE_MODE p) = 1 →
            ∀ c : Fin 8, 4 ≤ c.val → (t.port p).paused.getD (subCls sub c) 0 = time.toNat)
        ∧ (∀ k : Nat, k / 8 ≠ sub.val ∨ k % 8 < 4 → (t.port p).paused.getD k 0 = (s.port p).paused.getD k 0)
        ∧ t.port p = { s.port p with paused := (t.port p).paused } ∧ PortsBut [p.val] s t ∧ t = { s with ports := t.ports })
  ∧ (∀ (s : State) (p : PortId) (sub : Fin 4) (c : Fin 8),
      Completes (.pfcRefresh p sub c) s fun t =>
        (4 ≤ c.val → c.val ≤ 6 → (s.port p).missOff.contains (subCls sub c) = true →
              t = s.sendPause p sub (s.watchedClass p sub c) true)
        ∧ (s.native p = true → 4 ≤ c.val → c.val ≤ 6 → (s.port p).xoff.contains (subCls sub c) = true →
            s.get (Reg.LINK_PFC_WM.XON p (c.val - 4)) ≤ (s.port p).occ (subCls sub c) → t = s.sendPause p sub c true)
        ∧ (c.val < 4 ∨ c.val = 7 → t = s)
        ∧ ((s.port p).missOff.contains (subCls sub c) = false → (s.port p).xoff.contains (s.xoffKey p sub c) = false → t = s)
        ∧ t = { s with out := t.out })
  ∧ (∀ (s : State) (p : PortId) (sub : Fin 4) (c : Fin 8),
      Completes (.pauseTimeExpiry p sub c) s fun t =>
        (t.port p).paused.getD (subCls sub c) 0 = 0
        ∧ (∀ k : Nat, k ≠ subCls sub c → (t.port p).paused.getD k 0 = (s.port p).paused.getD k 0)
        ∧ t.port p = { s.port p with paused := (t.port p).paused } ∧ PortsBut [p.val] s t ∧ t = { s with ports := t.ports })
  ∧ (∀ (s : State) (p : PortId) (sub : Fin 4) (ok : Bool),
      Completes (.preemptVerify p sub ok) s fun t =>
        (s.native p = true ∨ s.subports p ≤ sub.val ∨ s.get (Reg.LINK_CFG.PREEMPT_EN p) = 0 ∨ s.get (Reg.LINK_CFG.VERIFY_DIS p) = 1
              ∨ s.subUp p sub = false ∨ s.linkOn p = false → t = s)
        ∧ (s.native p = false → sub.val < s.subports p → s.get (Reg.LINK_CFG.PREEMPT_EN p) = 1 → s.get (Reg.LINK_CFG.VERIFY_DIS p) = 0 →
            s.subUp p sub = true → s.linkOn p = true → (ok = false → t = s.put (Reg.LINK_STS.VERIFY_FAIL p) 1)
            ∧ (ok = true → sub.val ∈ (t.port p).verified)
            ∧ (ok = true → s.subports p = 1 → t.get (Reg.LINK_STS.PREEMPT_ACT p) = 1))
        ∧ PortsBut [p.val] s t ∧ FieldsBut [Reg.LINK_STS.VERIFY_FAIL p, Reg.LINK_STS.PREEMPT_ACT p] s t ∧ t = { s with regs := t.regs, ports := t.ports })

/-- A received ordered set counts its bad copies and acts by its first good copy. PAUSE, ALIGN, KEEPALIVE, FENCED and BEACON sets: bad
copies are counted in LINK_OS_BAD, the first good copy acts as its row of Table 3.5 gives, a set of another type does nothing more, and
a port that is not native or whose link is off ignores all. Where the peer's state changes what is usable, flows and queue pairs follow
by pathsChanged after the effect on the port; nothing else of the machine changes. -/
def Obligations.OrderedSetReception : Prop :=
  (∀ (s : State) (p : PortId) (copies : List (List Byte)),
      Completes (.pauseOsReceive p copies) s fun t =>
        (s.native p = false ∨ s.linkOn p = false → t = s)
        ∧ t.get (Reg.LINK_OS_BAD.COUNT p) = min (s.get (Reg.LINK_OS_BAD.COUNT p) + badCopies s p copies) (2 ^ 32 - 1)
        ∧ (∀ fca m a b c, heard s p copies = some (fca, .pause m a b c) →
            (bitAt m 0 = true → (t.port p).paused.getD 4 0 = a) ∧ (bitAt m 1 = true → (t.port p).paused.getD 5 0 = b)
            ∧ (bitAt m 2 = true → (t.port p).paused.getD 6 0 = c)
            ∧ (bitAt m 0 = false → (t.port p).paused.getD 4 0 = (s.port p).paused.getD 4 0))
        ∧ (heard s p copies = none → t.ports = s.ports)
        ∧ (t.port p).paused.getD 7 0 = (s.port p).paused.getD 7 0 ∧ t.port p = { s.port p with paused := (t.port p).paused }
        ∧ PortsBut [p.val] s t ∧ FieldsBut [Reg.LINK_OS_BAD.COUNT p, Reg.LINK_STS.PEER p] s t ∧ t = { s with regs := t.regs, ports := t.ports })
  ∧ (∀ (s : State) (p : PortId) (copies : List (List Byte)),
      Completes (.alignReceive p copies) s fun t =>
        ∃ u : State, t = u.pathsChanged ∧ (s.native p = false ∨ s.linkOn p = false → u = s)
        ∧ u.get (Reg.LINK_OS_BAD.COUNT p) = min (s.get (Reg.LINK_OS_BAD.COUNT p) + badCopies s p copies) (2 ^ 32 - 1)
        ∧ (∀ fca per mask, heard s p copies = some (fca, .align per mask) → u.port p = { s.port p with peerPeriod := per, peerMask := mask }
            ∧ (s.get (Reg.LINK_STS.PEER p) = 0 ∨ s.get (Reg.LINK_STS.PEER p) = 3 → u.get (Reg.LINK_STS.PEER p) = 1))
        ∧ (heard s p copies = none → u.ports = s.ports ∧ u.get (Reg.LINK_STS.PEER p) = s.get (Reg.LINK_STS.PEER p))
        ∧ PortsBut [p.val] s u ∧ FieldsBut [Reg.LINK_OS_BAD.COUNT p, Reg.LINK_STS.PEER p] s u ∧ u = { s with regs := u.regs, ports := u.ports }
        ∧ TrafficOnly s t)
  ∧ (∀ (s : State) (p : PortId) (copies : List (List Byte)),
      Completes (.keepaliveReceive p copies) s fun t =>
        ∃ u : State, t = u.pathsChanged ∧ (s.native p = false ∨ s.linkOn p = false → u = s)
        ∧ u.get (Reg.LINK_OS_BAD.COUNT p) = min (s.get (Reg.LINK_OS_BAD.COUNT p) + badCopies s p copies) (2 ^ 32 - 1)
        ∧ (∀ fca a b ft, heard s p copies = some (fca, .keepalive a b ft) → u.get (Reg.LINK_STS.PEER p) = 1)
        ∧ (heard s p copies = none → u.get (Reg.LINK_STS.PEER p) = s.get (Reg.LINK_STS.PEER p))
        ∧ FieldsBut [Reg.LINK_OS_BAD.COUNT p, Reg.LINK_STS.PEER p] s u ∧ u = { s with regs := u.regs } ∧ TrafficOnly s t)
  ∧ (∀ (s : State) (p : PortId) (copies : List (List Byte)),
      Completes (.fencedReceive p copies) s fun t =>
        (s.native p = false ∨ s.linkOn p = false → t = s.pathsChanged)
        ∧ (s.native p = true → s.linkOn p = true → heard s p copies = none → t = (s.count (Reg.LINK_OS_BAD.COUNT p) (badCopies s p copies)).pathsChanged)
        ∧ (∀ fca tr reason, heard s p copies = some (fca, .fenced tr reason) → s.get (Reg.LINK_STS.PEER p) = 2 → (s.port p).peerReason = reason →
            (s.port p).txq = [] → ∃ u : State, t = (State.refreshBackups u).pathsChanged ∧ u.port p = { s.port p with peerFca := fca, peerTransit := tr, peerReason := reason }
              ∧ FieldsBut [Reg.LINK_OS_BAD.COUNT p] s u ∧ u = { s with regs := u.regs, ports := u.ports })
        ∧ (∀ fca tr reason, heard s p copies = some (fca, .fenced tr reason) → ∃ u : State, t = (State.refreshBackups u).pathsChanged ∧ u.get (Reg.LINK_STS.PEER p) = 2
            ∧ (u.port p).peerFca = fca ∧ (u.port p).peerTransit = tr ∧ (u.port p).peerReason = reason)
        ∧ TrafficOnly s t)
  ∧ (∀ (s : State) (p : PortId) (copies : List (List Byte)) (arr : Nat),
      Completes (.beaconReceive p copies arr) s fun t =>
        (s.native p = false ∨ s.linkOn p = false → t = s)
        ∧ t.get (Reg.LINK_OS_BAD.COUNT p) = min (s.get (Reg.LINK_OS_BAD.COUNT p) + badCopies s p copies) (2 ^ 32 - 1)
        ∧ (∀ fca src st n t1 echo t2 hops, heard s p copies = some (fca, .beacon src st n t1 echo t2 hops) →
            t.port p = { s.port p with beacon := { (s.port p).beacon with peerT1 := t1, arrival := arr, peerState := st, hops := hops } }
            ∧ (echo ≠ 0 → t.get (Reg.LINK_PEER_DELAY.DELAY p)
                = (BitVec.ofInt 32 (((Int.ofNat arr - Int.ofNat echo) - (Int.ofNat t1 - Int.ofNat t2)) / 2)).toNat)
            ∧ (echo = 0 → t.get (Reg.LINK_PEER_DELAY.DELAY p) = s.get (Reg.LINK_PEER_DELAY.DELAY p)))
        ∧ PortsBut [p.val] s t ∧ FieldsBut [Reg.LINK_OS_BAD.COUNT p, Reg.LINK_STS.PEER p, Reg.LINK_PEER_DELAY.DELAY p, Reg.TIME_OFFSET.OFFSET] s t
        ∧ t = { s with regs := t.regs, ports := t.ports })

/-- The lane-change handshake agrees, refuses, switches and completes a change as R80, R81 and R497 give. A request heard is
acknowledged, refused with its code, or loses or wins a collision; an acknowledgement of this side's request agrees the change; a
refusal is kept with it; a time-out repeats it up to three times; the switch shows the new mask in LINK_STS.ACTIVE; and the change
completes, with LANE_EVT, once LANE_DONE was both sent and received. Every other port and the rest of the machine stay, but for what a
change of usable paths moves. -/
def Obligations.LaneHandshake : Prop :=
  (∀ (s : State) (p : PortId) (copies : List (List Byte)),
      Completes (.laneReqReceive p copies) s fun t =>
        (s.native p = false ∨ s.linkOn p = false → t = s)
        ∧ (∀ fca id mask reason e, heard s p copies = some (fca, .laneReq id mask reason e) →
            ((s.port p).req = none → (s.port p).change ≠ none → t.out = s.out ++ [s.osOut p (.laneNak id 3)])
            ∧ ((s.port p).req = none → (s.port p).change = none → maskAllowed mask reason = false → t.out = s.out ++ [s.osOut p (.laneNak id 1)])
            ∧ ((s.port p).req = none → (s.port p).change = none → maskAllowed mask reason = true →
                (∃ i : Fin 4, bitAt mask i = true ∧ bitAt (s.port p).trained i = false) → t.out = s.out ++ [s.osOut p (.laneNak id 2)])
            ∧ ((s.port p).req = none → (s.port p).change = none → maskAllowed mask reason = true →
                (∀ i : Fin 4, bitAt mask i = true → bitAt (s.port p).trained i = true) → t.out = s.out ++ [s.osOut p (.laneAck id mask e)]
                ∧ t.port p = { s.port p with change := some { id := id, mask := mask, reason := reason, effective := e } })
            ∧ (∀ r, (s.port p).req = some r → reason < r.reason → t.out = s.out ∧ t.ports = s.ports)
            ∧ (∀ r, (s.port p).req = some r → r.reason < reason → s.laneNeed p = none → (t.port p).req = none))
        ∧ PortsBut [p.val] s t ∧ FieldsBut [Reg.LINK_OS_BAD.COUNT p, Reg.LINK_STS.PEER p] s t ∧ t = { s with regs := t.regs, ports := t.ports, out := t.out })
  ∧ (∀ (s : State) (p : PortId) (copies : List (List Byte)),
      Completes (.laneAckReceive p copies) s fun t =>
        (s.native p = false ∨ s.linkOn p = false → t = s)
        ∧ (∀ fca id mask e, heard s p copies = some (fca, .laneAck id mask e) →
            (∀ r, (s.port p).req = some r → r.id = id → r.mask = mask → r.effective = e →
              t.port p = { s.port p with req := none, change := some { id := id, mask := mask, reason := r.reason, effective := e } })
            ∧ (∀ r, (s.port p).req = some r → r.id ≠ id ∨ r.mask ≠ mask ∨ r.effective ≠ e → t.ports = s.ports)
            ∧ ((s.port p).req = none → t.ports = s.ports))
        ∧ PortsBut [p.val] s t ∧ FieldsBut [Reg.LINK_OS_BAD.COUNT p, Reg.LINK_STS.PEER p] s t ∧ t = { s with regs := t.regs, ports := t.ports })
  ∧ (∀ (s : State) (p : PortId) (copies : List (List Byte)),
      Completes (.laneNakReceive p copies) s fun t =>
        (s.native p = false ∨ s.linkOn p = false → t = s)
        ∧ (∀ fca id code, heard s p copies = some (fca, .laneNak id code) →
            (∀ r, (s.port p).req = some r → r.id = id → t.port p = { s.port p with req := some { r with nak := code } })
            ∧ (∀ r, (s.port p).req = some r → r.id ≠ id → t.ports = s.ports) ∧ ((s.port p).req = none → t.ports = s.ports))
        ∧ t.get (Reg.LINK_STS.ACTIVE p) = s.get (Reg.LINK_STS.ACTIVE p)
        ∧ PortsBut [p.val] s t ∧ FieldsBut [Reg.LINK_OS_BAD.COUNT p, Reg.LINK_STS.PEER p] s t ∧ t = { s with regs := t.regs, ports := t.ports })
  ∧ (∀ (s : State) (p : PortId),
      Completes (.laneReqTimeout p) s fun t =>
        ∃ u : State, t = u.pathsChanged ∧ ((s.port p).req = none → u = s)
        ∧ (∀ r, (s.port p).req = some r → r.retries < 3 → r.reason < 2 → u = s.laneRequest p r.mask r.reason (r.retries + 1)
            ∧ (u.port p).req.map LaneReq.retries = some (r.retries + 1) ∧ (u.port p).req.map LaneReq.mask = some r.mask)
        ∧ (∀ r, (s.port p).req = some r → r.retries < 3 → 2 ≤ r.reason →
            u = s.laneRequest p ((s.laneNeed p).getD (r.mask, r.reason)).1 ((s.laneNeed p).getD (r.mask, r.reason)).2 (r.retries + 1))
        ∧ (∀ r, (s.port p).req = some r → 3 ≤ r.retries → r.reason ≠ 3 →
            u = (s.setPort p { s.port p with req := none, restore := if r.reason = 2 then [] else (s.port p).restore }).askLanes p)
        ∧ (∀ r, (s.port p).req = some r → 3 ≤ r.retries → r.reason = 3 → (u.port p).preMask = some (s.get (Reg.LINK_STS.ACTIVE p))
            ∧ (u.port p).req = none ∧ (u.port p).trained = (s.port p).trained)
        ∧ TrafficOnly s t)
  ∧ (∀ (s : State) (p : PortId),
      Completes (.laneMaskSwitch p) s fun t =>
        ((s.port p).change = none → t = s.pathsChanged.settlePower)
        ∧ (∀ c, (s.port p).change = some c → c.switched = true → t = s.pathsChanged.settlePower)
        ∧ (∀ c, (s.port p).change = some c → c.switched = false → ∃ u : State, t = (State.refreshBackups u).pathsChanged.settlePower
            ∧ u.port p = { s.port p with change := some { c with switched := true }, restore := (s.port p).restore.filter (fun i => !bitAt c.mask i) }
            ∧ u.get (Reg.LINK_STS.ACTIVE p) = c.mask % 16 ∧ (c.reason = 0 → u.lowered p = true)
            ∧ (c.reason = 1 → c.mask = 15 → u.lowered p = false) ∧ (2 ≤ c.reason → FieldsBut [Reg.LINK_STS.ACTIVE p] s u)
            ∧ PortsBut [p.val] s u ∧ u = { s with regs := u.regs, ports := u.ports })
        ∧ TrafficOnly s t)
  ∧ (∀ (s : State) (p : PortId),
      Completes (.laneDoneSend p) s fun t =>
        ((s.port p).change = none → t = s)
        ∧ (∀ c, (s.port p).change = some c → c.switched = false ∨ c.sentDone = true → t = s)
        ∧ (∀ c, (s.port p).change = some c → c.switched = true → c.sentDone = false → c.gotDone = false →
            t = { s with ports := t.ports, out := s.out ++ [s.osOut p (.laneDone c.id c.mask)] }
            ∧ t.port p = { s.port p with change := some { c with sentDone := true } })
        ∧ (∀ c, (s.port p).change = some c → c.switched = true → c.sentDone = false → c.gotDone = true →
            (t.port p).change = none ∧ t.get (Reg.LINK_STS.LANE_EVT p) = 1)
        ∧ PortsBut [p.val] s t)
  ∧ (∀ (s : State) (p : PortId) (copies : List (List Byte)),
      Completes (.laneDoneReceive p copies) s fun t =>
        (s.native p = false ∨ s.linkOn p = false → t = s)
        ∧ (∀ fca id mask, heard s p copies = some (fca, .laneDone id mask) →
            (∀ c, (s.port p).change = some c → c.id = id → c.sentDone = false → t.port p = { s.port p with change := some { c with gotDone := true } })
            ∧ (∀ c, (s.port p).change = some c → c.id = id → c.sentDone = true → (t.port p).change = none ∧ t.get (Reg.LINK_STS.LANE_EVT p) = 1)
            ∧ (∀ c, (s.port p).change = some c → c.id ≠ id → t.ports = s.ports) ∧ ((s.port p).change = none → t.ports = s.ports))
        ∧ PortsBut [p.val] s t ∧ t.time = s.time)

/-- Farrier windows, lane failures and spares act on the lane as R74 to R78 give. A window's estimate is shown and counted toward
degradation; the third bad window in a row marks the lane DEGRADED; a spare that has adapted or trained takes the lane index; a lane
failure marks the lane FAILED, and an Ethernet port with a failed lane goes down. Fences, paths and queue pairs follow by the named
operations; nothing but traffic-side state changes. -/
def Obligations.LaneSparesAndFailures : Prop :=
  (∀ (s : State) (p : PortId) (l : Fin 4) (e : Fin 256),
      Completes (.farrierWindow p l e) s fun t =>
        ∃ u : State, t = u.pathsChanged ∧ (s.linkOn p = false → u = s)
        ∧ (s.native p = true → bitAt (s.get (Reg.LINK_STS.ACTIVE p)) l = false → u = s)
        ∧ (s.linkOn p = true → s.native p = false ∨ bitAt (s.get (Reg.LINK_STS.ACTIVE p)) l = true →
            (s.get (Reg.LINK_LANE_CTL.DEG_EXP p) ≤ e.val → u.get (Reg.LINK_LANE_HEALTH.SER_EXP p l) = e.val ∧ (u.lane p l).bad = 0
              ∧ FieldsBut [Reg.LINK_LANE_HEALTH.SER_EXP p l] s u ∧ u = { s with regs := u.regs, ports := u.ports })
            ∧ (e.val < s.get (Reg.LINK_LANE_CTL.DEG_EXP p) → (s.lane p l).bad < 2 → u.get (Reg.LINK_LANE_HEALTH.SER_EXP p l) = e.val
              ∧ (u.lane p l).bad = (s.lane p l).bad + 1
              ∧ FieldsBut [Reg.LINK_LANE_HEALTH.SER_EXP p l] s u ∧ u = { s with regs := u.regs, ports := u.ports })
            ∧ (e.val < s.get (Reg.LINK_LANE_CTL.DEG_EXP p) → (s.lane p l).bad = 2 → s.get (Reg.LINK_LANE_HEALTH.DEGRADED p l) = 0 →
              u.get (Reg.LINK_LANE_HEALTH.DEGRADED p l) = 1 ∧ (u.lane p l).bad = 3))
        ∧ TrafficOnly s t)
  ∧ (∀ (s : State) (p : PortId) (l : Fin 4),
      Completes (.laneFailure p l) s fun t =>
        ∃ u : State, t = u.pathsChanged ∧ (s.linkOn p = false ∨ s.get (Reg.LINK_LANE_HEALTH.FAILED p l) = 1 → u = s)
        ∧ (s.native p = true → bitAt (s.get (Reg.LINK_STS.ACTIVE p)) l = false → u = s)
        ∧ (s.linkOn p = true → s.get (Reg.LINK_LANE_HEALTH.FAILED p l) = 0 → s.native p = false →
            u.get (Reg.LINK_LANE_HEALTH.FAILED p l) = 1 ∧ u.get (Reg.LINK_STS.STATE p) = 1)
        ∧ (s.linkOn p = true → s.get (Reg.LINK_LANE_HEALTH.FAILED p l) = 0 → s.native p = true →
            bitAt (s.get (Reg.LINK_STS.ACTIVE p)) l = true → u.get (Reg.LINK_LANE_HEALTH.FAILED p l) = 1)
        ∧ TrafficOnly s t)
  ∧ (∀ (s : State) (p : PortId) (l : Fin 4),
      Completes (.spareAdapted p l) s fun t =>
        ((s.lane p l).shadow = none → t = s)
        ∧ (∀ sp, (s.lane p l).shadow = some sp → t.get (laneField p l) = sp % 2 ^ (laneField p l).w
            ∧ t.lane p l = { s.lane p l with shadow := none, bad := 0 }
            ∧ t.get (Reg.LINK_LANE_HEALTH.SHADOW p l) = 0 ∧ t.get (Reg.LINK_LANE_HEALTH.DEGRADED p l) = 0)
        ∧ PortsBut [p.val] s t ∧ t = { s with regs := t.regs, ports := t.ports }
        ∧ FieldsBut [laneField p l, Reg.LINK_LANE_HEALTH.SHADOW p l, Reg.LINK_LANE_HEALTH.DEGRADED p l] s t)
  ∧ (∀ (s : State) (p : PortId) (l : Fin 4),
      Completes (.spareTrained p l) s fun t =>
        ∃ u : State, t = u.pathsChanged ∧ ((s.lane p l).training = none → u = s)
        ∧ (∀ sp, (s.lane p l).training = some sp → u.get (laneField p l) = sp % 2 ^ (laneField p l).w
            ∧ u.lane p l = { s.lane p l with training := none, bad := 0 }
            ∧ u.get (Reg.LINK_LANE_HEALTH.FAILED p l) = 0 ∧ u.get (Reg.LINK_LANE_HEALTH.DEGRADED p l) = 0
            ∧ (s.native p = false → u.out = s.out) ∧ ((s.port p).req.isSome = true → (u.port p).req = (s.port p).req ∧ u.out = s.out)
            ∧ (s.native p = true → s.linkOn p = true → (s.port p).req = none → (s.port p).change = none → (s.port p).restore = [] →
                bitAt (s.get (Reg.LINK_STS.ACTIVE p)) l = false →
                (∀ k : Fin 4, k ≠ l → bitAt (s.get (Reg.LINK_STS.ACTIVE p)) k = true → s.get (Reg.LINK_LANE_HEALTH.FAILED p k) = 0) →
                (u.port p).req.map LaneReq.mask = some (setBits (s.get (Reg.LINK_STS.ACTIVE p)) l 1 1)
                ∧ (u.port p).req.map LaneReq.reason = some 2))
        ∧ PortsBut [p.val] s u ∧ u = { s with regs := u.regs, ports := u.ports, out := u.out } ∧ TrafficOnly s t)

/-- A peer's loss and a link's going up, down or back from training set LINK_STS as R70, R71 and R497 give. PEER_LOST and PCS_LINK_DOWN
set PEER and PEER_LOST and leave the port without verify state; PCS_LINK_UP makes the port UP and its peer ALIVE; PORT_TRAINED ends
TRAINING with the trained mask and ends a port reset; where the row's condition fails nothing but what pathsChanged does happens. -/
def Obligations.LinkUpAndDown : Prop :=
  (∀ (s : State) (p : PortId) (lk : Bool),
      Completes (.peerLost { port := p, locked := lk }) s fun t =>
        ∃ u : State, t = u.pathsChanged ∧ (s.native p = false ∨ s.linkOn p = false → u = s) ∧ (s.get (Reg.LINK_STS.PEER p) = 3 → u = s)
        ∧ (s.native p = true → s.linkOn p = true → s.get (Reg.LINK_STS.PEER p) ≠ 3 →
            u.get (Reg.LINK_STS.PEER p) = 3 ∧ u.get (Reg.LINK_STS.PEER_LOST p) = 1 ∧ (u.port p).txq = []
            ∧ (lk = true → u.get (Reg.LINK_STS.STATE p) = s.get (Reg.LINK_STS.STATE p)) ∧ (lk = false → u.get (Reg.LINK_STS.STATE p) = 1))
        ∧ (u.port p).lanes = (s.port p).lanes ∧ TrafficOnly s t)
  ∧ (∀ (s : State) (p : PortId),
      Completes (.pcsLinkDown p) s fun t =>
        ∃ u : State, t = u.pathsChanged ∧ (s.native p = true ∨ s.linkOn p = false → u = s)
        ∧ (s.native p = false → s.linkOn p = true → u.get (Reg.LINK_STS.STATE p) = 1 ∧ u.get (Reg.LINK_STS.PREEMPT_ACT p) = 0
            ∧ (u.port p).verified = [] ∧ (u.port p).paused = [] ∧ (u.port p).txq = [] ∧ u.get (Reg.LINK_STS.PEER p) = 3)
        ∧ TrafficOnly s t)
  ∧ (∀ (s : State) (p : PortId),
      Completes (.pcsLinkUp p) s fun t =>
        ∃ u : State, t = u.pathsChanged ∧ (s.native p = true ∨ s.get (Reg.LINK_CFG.ENABLE p) = 0 → u = s)
        ∧ (s.native p = false → s.get (Reg.LINK_CFG.ENABLE p) = 1 → s.get (Reg.LINK_CFG.BREAKOUT p) ≤ 2 →
            (∀ i : Fin 4, s.get (Reg.LINK_LANE_HEALTH.FAILED p i) = 0) → u.get (Reg.LINK_STS.STATE p) = 2 ∧ u.get (Reg.LINK_STS.ACTIVE p) = 15
            ∧ u.get (Reg.LINK_STS.PEER p) = 1 ∧ (u.port p).subsUp = List.range (s.subports p)
            ∧ (s.get (Reg.LINK_CFG.PREEMPT_EN p) = 1 → s.get (Reg.LINK_CFG.VERIFY_DIS p) = 1 → u.get (Reg.LINK_STS.PREEMPT_ACT p) = 1)
            ∧ (s.get (Reg.LINK_CFG.PREEMPT_EN p) = 0 ∨ s.get (Reg.LINK_CFG.VERIFY_DIS p) = 0 →
                u.get (Reg.LINK_STS.PREEMPT_ACT p) = s.get (Reg.LINK_STS.PREEMPT_ACT p)))
        ∧ (s.get (Reg.LINK_CFG.BREAKOUT p) = 0 → (∃ i : Fin 4, s.get (Reg.LINK_LANE_HEALTH.FAILED p i) = 1) →
            u.get (Reg.LINK_STS.STATE p) = s.get (Reg.LINK_STS.STATE p))
        ∧ PortsBut [p.val] s u ∧ FieldsBut [Reg.LINK_STS.STATE p, Reg.LINK_STS.ACTIVE p, Reg.LINK_STS.PEER p, Reg.LINK_STS.PREEMPT_ACT p] s u
        ∧ u = { s with regs := u.regs, ports := u.ports } ∧ TrafficOnly s t)
  ∧ (∀ (s : State) (p : PortId) (mask : BitVec 4),
      Completes (.portTrained p mask) s fun t =>
        ∃ u : State, t = u.pathsChanged.settlePower ∧ (s.get (Reg.LINK_STS.STATE p) ≠ 1 ∨ mask = 0 → u = s)
        ∧ (s.get (Reg.LINK_STS.STATE p) = 1 → mask ≠ 0 → u.lowered p = false
            ∧ (s.native p = true → u.get (Reg.LINK_STS.ACTIVE p) = mask.toNat ∧ u.get (Reg.LINK_STS.STATE p) = (if s.inP2 then 3 else 2)
              ∧ (u.port p).trained = mask.toNat ∧ (u.port p).preMask = none
              ∧ (s.portRst = some p.val → u.get Reg.GLB_PORT_RST.BUSY = 0 ∧ t.portRst = none)
              ∧ (∀ m, (s.port p).preMask = some m → m ≠ mask.toNat → u.get (Reg.LINK_STS.LANE_EVT p) = 1))
            ∧ (s.native p = false → mask = 15 → s.get (Reg.LINK_CFG.BREAKOUT p) ≤ 2 → (∀ i : Fin 4, s.get (Reg.LINK_LANE_HEALTH.FAILED p i) = 0) →
              u.get (Reg.LINK_STS.ACTIVE p) = 15 ∧ u.get (Reg.LINK_STS.STATE p) = 2
              ∧ (s.portRst = some p.val → u.get Reg.GLB_PORT_RST.BUSY = 0 ∧ t.portRst = none)))
        ∧ (s.portRst ≠ some p.val → t.portRst = s.portRst)
        ∧ TrafficOnly { s with portRst := t.portRst } t)
  ∧ (∀ (s : State) (h : HostId) (v : Word),
      Takes s h Reg.GLB_PORT_RST.off →
      Completes (.portReset h v) s fun t =>
        (s.portRstOk h (wordField v 0 6) = false → t = s.writeIgnored h Reg.GLB_PORT_RST.off)
        ∧ (s.portRstOk h (wordField v 0 6) = true → s.get Reg.GLB_PORT_RST.BUSY = 1 → t = s)
        ∧ (s.portRstOk h (wordField v 0 6) = true → s.get Reg.GLB_PORT_RST.BUSY = 0 → ∃ u : State, t = u.pathsChanged
            ∧ u.portRst = some (wordField v 0 6) ∧ u.get Reg.GLB_PORT_RST.PORT = wordField v 0 6 ∧ u.get Reg.GLB_PORT_RST.BUSY = 1
            ∧ u.get (Reg.LINK_STS.STATE (wordField v 0 6)) = 1 ∧ u.get (Reg.LINK_STS.ACTIVE (wordField v 0 6)) = 0
            ∧ (u.port (wordField v 0 6)).txq = [] ∧ (u.port (wordField v 0 6)).trained = 0 ∧ (u.port (wordField v 0 6)).preMask = none)
        ∧ TrafficOnly { s with portRst := t.portRst } t)

/-- Received Ethernet and ELP frames are checked, counted, filtered and handed to the device as R54 to R66 give. An Ethernet frame of a
length outside R54 or with a bad check is counted, a frame to another address on a port without TRANSIT is filtered, and a good frame of
classes 4 to 6 to one of the device's addresses goes to its endpoint's receive side with its arrival time, over the mesh where the
endpoint stands elsewhere. A whole ELP transport frame to the device's own address does the same; a container with a reserved control is
counted in LINK_OS_BAD; an uncorrectable codeword drops the open frames of its classes. Nothing else but traffic-side state changes. -/
def Obligations.FrameReception : Prop :=
  (∀ (s : State) (p : PortId) (sub : Fin 4) (bytes : List Byte) (early : Bool),
      Completes (.ethFrameReceive p sub bytes early) s fun t =>
        (s.native p = true ∨ s.subports p ≤ sub.val ∨ s.linkOn p = false ∨ s.subUp p sub = false → t = s)
        ∧ (s.native p = false → sub.val < s.subports p → s.linkOn p = true → s.subUp p sub = true → bytes.length < 64 ∨ 9216 < bytes.length →
            t = s.count (Reg.LINK_BAD_FRAME.COUNT p))
        ∧ (s.native p = false → sub.val < s.subports p → s.linkOn p = true → s.subUp p sub = true → 64 ≤ bytes.length → bytes.length ≤ 9216 →
            beNat (slice (bytes.take (bytes.length - 4)) 12 2) ≠ 0x8808 → ptpFrame (bytes.take (bytes.length - 4)) = false →
            (s.ethForDevice p sub (bytes.take (bytes.length - 4)) = false → s.get (Reg.LINK_CFG.TRANSIT p) = 0 → t.rxq = s.rxq
              ∧ (crcGood bytes = true → FieldsBut [Reg.LINK_DROP_FILTER.COUNT p] s t
                  ∧ t.get (Reg.LINK_DROP_FILTER.COUNT p) = min (s.get (Reg.LINK_DROP_FILTER.COUNT p) + 1) (2 ^ 32 - 1))
              ∧ (crcGood bytes = false → FieldsBut [Reg.LINK_BAD_FRAME.COUNT p] s t
                  ∧ t.get (Reg.LINK_BAD_FRAME.COUNT p) = min (s.get (Reg.LINK_BAD_FRAME.COUNT p) + 1) (2 ^ 32 - 1)))
            ∧ (s.ethForDevice p sub (bytes.take (bytes.length - 4)) = true → 4 ≤ s.ethClass p (bytes.take (bytes.length - 4)) →
                s.classFull p sub (s.ethClass p (bytes.take (bytes.length - 4))) (ceilDiv bytes.length 256) = false → s.inP2 = false →
                crcGood bytes = true → FieldsBut [Reg.MESH_DRAIN.COUNT (s.get Reg.MESH_STS.EPOCH)] s t
                  ∧ ((ethArrival s p sub bytes).endpointRouter = routerOfPort p →
                      t.rxq = s.rxq ++ [arrivedPkt (ethArrival s p sub bytes) p sub (s.get Reg.MESH_STS.EPOCH) true s.time.ftNs])
                  ∧ ((ethArrival s p sub bytes).endpointRouter ≠ routerOfPort p →
                      s.meshReach (routerOfPort p) (ethArrival s p sub bytes).endpointRouter = true →
                      EntersMesh s t (bytes.take (bytes.length - 4)))))
        ∧ t = { s with regs := t.regs, scriv := t.scriv, sched := t.sched, ports := t.ports, mesh := t.mesh, rxq := t.rxq, held := t.held, stageIn := t.stageIn, out := t.out, freeCtr := t.freeCtr })
  ∧ (∀ (s : State) (p : PortId) (cs : List Container) (early : Bool),
      Completes (.elpFrameReceive p cs early) s fun t =>
        ∃ u : State, t = u.pathsChanged ∧ (s.native p = false ∨ s.linkOn p = false ∨ cs = [] → u = s)
        ∧ (∀ c, cs = [c] → s.native p = true → s.linkOn p = true → bits c.ctrl.toNat 6 2 = 3 → u = s.count (Reg.LINK_OS_BAD.COUNT p))
        ∧ (∀ c, cs = [c] → s.native p = true → s.linkOn p = true → bits c.ctrl.toNat 6 2 ≠ 3 → bits c.ctrl.toNat 6 2 ≠ 1 → u = s)
        ∧ u = { s with regs := u.regs, scriv := u.scriv, sched := u.sched, ports := u.ports, mesh := u.mesh, rxq := u.rxq, held := u.held, stageIn := u.stageIn, out := u.out, freeCtr := u.freeCtr }
        ∧ TrafficOnly s t)
  ∧ (∀ (s : State) (p : PortId) (c : Container) (f : Frame) (early : Bool),
      s.native p = true ∧ s.linkOn p = true ∧ s.inP2 = false →
      bits c.ctrl.toNat 4 4 = 7 ∧ 4 ≤ c.ctrl.toNat % 8 ∧ c.body.length = 64 ∧ (s.port p).rxOpen.at? (c.ctrl.toNat % 8) = none →
      parseElp (c.ctrl.toNat % 8) 1 c.body = some f ∧ elpCrcGood c.body = true ∧ f.kind = .transport ∧ f.flow = 0 →
      f.dst = s.selfFca ∧ s.classFull p 0 f.cls f.cells = false →
      Completes (.elpFrameReceive p [c] early) s fun t =>
        ∃ u : State, t = u.pathsChanged
        ∧ (f.endpointRouter = routerOfPort p → u.rxq = s.rxq ++ [arrivedPkt f p 0 (s.stamp (bits (leAt c.body 10 1) 3 1)).2 false s.time.ftNs])
        ∧ (f.endpointRouter ≠ routerOfPort p → s.meshReach (routerOfPort p) f.endpointRouter = true → EntersMesh s u f.body)
        ∧ (u.port p).rxBytes = (s.port p).rxBytes + f.len ∧ u.stageIn = s.stageIn)
  ∧ (∀ (s : State) (p : PortId) (classes : BitVec 8),
      Completes (.codewordUncorrectable p classes) s fun t =>
        (s.native p = false ∨ s.linkOn p = false → t = s)
        ∧ (s.native p = true → s.linkOn p = true →
            t = (setBitsOf classes.toNat 8).foldl (fun x c => x.dropOpen p c) (s.count (Reg.LINK_FEC_UNCORR.COUNT p))
            ∧ (∀ c : Fin 8, bitAt classes.toNat c = true → (t.port p).rxOpen.at? c = none)
            ∧ (∀ c : Fin 8, bitAt classes.toNat c = false → (t.port p).rxOpen.at? c = (s.port p).rxOpen.at? c))
        ∧ PortsBut [p.val] s t ∧ FieldsBut ([Reg.LINK_FEC_UNCORR.COUNT p, Reg.LINK_BAD_FRAME.COUNT p] ++ (s.port p).rxOpen.map (fun e => Reg.MESH_DRAIN.COUNT e.2.1)) s t ∧ t = { s with regs := t.regs, ports := t.ports })

/-- A frame starts when its class is open and no class of a lower number can, and leaves whole at its end. FRAME_TRANSMIT_START takes
the oldest frame of its class into transmission exactly where it can start and no lower-numbered class can, and drops and counts a frame
that has no form at its egress port; FRAME_TRANSMIT_END puts the oldest frame in transmission of the class on the wire. Without such a
frame nothing happens. Only the port, run-time state of schedules, samplers and counters change. -/
def Obligations.FrameTransmission : Prop :=
  (∀ (s : State) (p : PortId) (sub : Fin 4) (c : Fin 8),
      Completes (.frameTransmitStart p sub c) s fun t =>
        (s.headFrame? p sub c = none → t = s)
        ∧ (∀ f, s.headFrame? p sub c = some f → (s.egressForm p f).isSome = true → s.canStart p sub c = false → t = s)
        ∧ (∀ f, s.headFrame? p sub c = some f → (s.egressForm p f).isSome = true → (∃ k : Fin 8, k < c ∧ s.canStart p sub k = true) → t = s)
        ∧ (∀ f, s.headFrame? p sub c = some f → s.canStart p sub c = true → (∀ k : Fin 8, k < c → s.canStart p sub k = false) →
            (s.egressForm p f).isSome = true → (t.port p).txq = (s.port p).txq.erase f ∧ t.regs = s.regs
              ∧ (t.port p).txing = (s.port p).txing ++ (s.egressForm p f).toList ∧ PortsBut [p.val] s t)
        ∧ (∀ f, s.headFrame? p sub c = some f → s.egressForm p f = none → s.usable p f.dst? = false → t = s)
        ∧ t = { s with regs := t.regs, scriv := t.scriv, sched := t.sched, ports := t.ports, out := t.out })
  ∧ (∀ (s : State) (p : PortId) (sub : Fin 4) (c : Fin 8),
      Completes (.frameTransmitEnd p sub c) s fun t =>
        ((s.port p).txing.find? (fun f => f.sub == sub.val && f.cls == c.val) = none → t = s)
        ∧ (s.native p = true → (s.port p).paused.getD (subCls sub c) 0 ≠ 0 → t = s)
        ∧ (∀ f, (s.port p).txing.find? (fun f => f.sub == sub.val && f.cls == c.val) = some f →
            s.native p = false ∨ (s.port p).paused.getD (subCls sub c) 0 = 0 → f.flow = 0 → f.ingress = none →
            f.onBackup = false → t.out = s.out ++ [Output.frame p sub c f.wire] ∧ (t.port p).txing = (s.port p).txing.erase f
              ∧ (t.port p).txBytes = (s.port p).txBytes + f.len
              ∧ (f.counted = true → t.get (Reg.MESH_DRAIN.COUNT f.epoch) = s.get (Reg.MESH_DRAIN.COUNT f.epoch) - 1)
              ∧ FieldsBut [Reg.MESH_DRAIN.COUNT f.epoch] s t)
        ∧ t = { s with regs := t.regs, scriv := t.scriv, host0 := t.host0, host1 := t.host1, sched := t.sched, ports := t.ports, hostMem0 := t.hostMem0, hostMem1 := t.hostMem1, out := t.out })

/-- LINK_CFG, LINK_BUF_CLASS, MESH_SELF, MESH_CTL and table writes take effect or are refused as R52, R84, R90, R109 and R110 give. A
taken write either sets its fields or sets the rejection bit of its block, queue pairs and flows following where paths change: a change
of mode while the port is enabled or carries scheduled classes, a reservation that the pool cannot hold, a new own address while a
schedule is active or pending, an arm while a bank is retained, a disarm while a pending schedule will switch, a table write to a bank
that frames use. -/
def Obligations.PortAndMeshConfiguration : Prop :=
  (∀ (s : State) (h : HostId) (p : PortId) (v : Word),
      Takes s h (Reg.LINK_CFG.off p) →
      Completes (.linkCfgWrite h p v) s fun t =>
        ∃ u : State, t = u.pathsChanged
        ∧ (wordField v 1 1 ≠ s.get (Reg.LINK_CFG.MODE p) → s.get (Reg.LINK_CFG.ENABLE p) = 1 ∨ s.portScheduled p = true →
            u = s.put (Reg.LINK_STS.CFG_REJ p) 1)
        ∧ (s.get (Reg.LINK_CFG.PREEMPT_EN p) = 0 → wordField v 8 1 = 1 → s.portScheduled p = true → u = s.put (Reg.LINK_STS.CFG_REJ p) 1)
        ∧ (wordField v 1 1 = s.get (Reg.LINK_CFG.MODE p) ∧ wordField v 2 2 = s.get (Reg.LINK_CFG.BREAKOUT p)
              ∧ wordField v 4 2 = s.get (Reg.LINK_CFG.PAUSE_MODE p) ∨ s.get (Reg.LINK_CFG.ENABLE p) = 0 → s.portScheduled p = false →
            (s.applyWrite (Reg.LINK_CFG.off p) v).shortCells (p.val / 16) ≤ s.shortCells (p.val / 16) →
            u.get (Reg.LINK_CFG.ENABLE p) = wordField v 0 1 ∧ u.get (Reg.LINK_CFG.MODE p) = wordField v 1 1
            ∧ u.get (Reg.LINK_CFG.TRANSIT p) = wordField v 7 1 ∧ u.get (Reg.LINK_CFG.EXPRESS p) = wordField v 16 8
            ∧ (wordField v 0 1 = 1 → PortsBut [p.val] s u ∧ (u.port p).txq = (s.port p).txq ∧ (wordField v 8 1 = 0 → (u.port p).verified = [])
                ∧ u.get (Reg.LINK_STS.STATE p) = (if s.get (Reg.LINK_STS.STATE p) = 0 then 1 else s.get (Reg.LINK_STS.STATE p)))
            ∧ (wordField v 0 1 = 0 → u.get (Reg.LINK_STS.STATE p) = 0 ∧ u.get (Reg.LINK_STS.ACTIVE p) = 0 ∧ (u.port p).txq = []))
        ∧ (s.shortCells (p.val / 16) < (s.applyWrite (Reg.LINK_CFG.off p) v).shortCells (p.val / 16) → u = s.put (Reg.LINK_STS.CFG_REJ p) 1)
        ∧ TrafficOnly s t)
  ∧ (∀ (s : State) (h : HostId) (p : PortId) (c : Fin 4) (v : Word),
      Takes s h (Reg.LINK_BUF_CLASS.off p c) →
      Completes (.linkBufClassWrite h p c v) s fun t =>
        (s.poolCells (p.val / 16) < s.minCells (p.val / 16) (fun q k => if q = p.val ∧ k = c.val then wordField v 0 16 else s.get (Reg.LINK_BUF_CLASS.MIN q k))
              + flowCells s.heldImages (p.val / 16) → t = s.put (Reg.LINK_STS.CFG_REJ p) 1)
        ∧ (s.minCells (p.val / 16) (fun q k => if q = p.val ∧ k = c.val then wordField v 0 16 else s.get (Reg.LINK_BUF_CLASS.MIN q k))
              + flowCells s.heldImages (p.val / 16) ≤ s.poolCells (p.val / 16) →
            t.get (Reg.LINK_BUF_CLASS.MIN p c) = wordField v 0 16 ∧ t.get (Reg.LINK_BUF_CLASS.MAX p c) = wordField v 16 16
            ∧ RegsBut [Reg.LINK_BUF_CLASS.off p c] s t ∧ t = { s with regs := t.regs }))
  ∧ (∀ (s : State) (h : HostId) (v : Word),
      Takes s h Reg.MESH_SELF.off →
      Completes (.meshSelfWrite h v) s fun t =>
        ∃ u : State, t = u.pathsChanged ∧ (s.schedBusy = true → u = s.put Reg.MESH_STS.CFG_REJ 1)
        ∧ (s.schedBusy = false → u.selfFca = v.toNat / 1024 * 1024 ∧ u.get Reg.MESH_SELF.DOMAIN = wordField v 28 4
            ∧ RegsBut [Reg.MESH_SELF.off] s u ∧ u = { s with regs := u.regs }) ∧ TrafficOnly s t)
  ∧ (∀ (s : State) (h : HostId) (v : Word),
      Takes s h Reg.MESH_CTL.off →
      Completes (.meshArm h v) s fun t =>
        (wordField v 1 1 = 1 ∨ s.get Reg.MESH_STS.OLD_RETAINED = 1 → t.get Reg.MESH_STS.WR_REJ = 1
            ∧ t.get Reg.MESH_STS.NEXT_ARMED = s.get Reg.MESH_STS.NEXT_ARMED)
        ∧ (wordField v 1 1 = 0 → s.get Reg.MESH_STS.OLD_RETAINED = 0 → t.get Reg.MESH_STS.NEXT_ARMED = 1
            ∧ t.get Reg.MESH_STS.WR_REJ = s.get Reg.MESH_STS.WR_REJ)
        ∧ t.get Reg.MESH_CTL.ADAPT_EN = wordField v 2 1 ∧ (wordField v 8 8 ≠ 0 → t.get Reg.MESH_CTL.HOPS_INIT = wordField v 8 8)
        ∧ FieldsBut [Reg.MESH_CTL.ADAPT_EN, Reg.MESH_CTL.HOPS_INIT, Reg.MESH_STS.NEXT_ARMED, Reg.MESH_STS.WR_REJ] s t ∧ t = { s with regs := t.regs })
  ∧ (∀ (s : State) (h : HostId) (v : Word),
      Takes s h Reg.MESH_CTL.off →
      Completes (.meshDisarm h v) s fun t =>
        (wordField v 0 1 = 1 ∨ s.sched.pend.any (fun e => e.2.tableSwitch) = true → t.get Reg.MESH_STS.WR_REJ = 1
            ∧ t.get Reg.MESH_STS.NEXT_ARMED = s.get Reg.MESH_STS.NEXT_ARMED)
        ∧ (wordField v 0 1 = 0 → s.sched.pend.any (fun e => e.2.tableSwitch) = false → t.get Reg.MESH_STS.NEXT_ARMED = 0
            ∧ t.get Reg.MESH_STS.WR_REJ = s.get Reg.MESH_STS.WR_REJ)
        ∧ FieldsBut [Reg.MESH_CTL.ADAPT_EN, Reg.MESH_CTL.HOPS_INIT, Reg.MESH_STS.NEXT_ARMED, Reg.MESH_STS.WR_REJ] s t ∧ t = { s with regs := t.regs })
  ∧ (∀ (s : State) (h : HostId) (off : Nat) (v : Word),
      Takes s h off →
      inBanks off = true →
      Completes (.routingTableWrite h off v) s fun t =>
        ∃ u : State, t = u.pathsChanged ∧ ((off - 0x310000) / 0x8000 ≠ s.get Reg.MESH_STS.EPOCH → s.get Reg.MESH_STS.OLD_RETAINED = 0 → s.get Reg.MESH_STS.NEXT_ARMED = 0 →
            u = s.applyWrite off v)
        ∧ ((off - 0x310000) / 0x8000 = s.get Reg.MESH_STS.EPOCH → s.schedBusy = false → u = s.applyWrite off v)
        ∧ ((off - 0x310000) / 0x8000 = s.get Reg.MESH_STS.EPOCH → s.schedBusy = true → u = s.put Reg.MESH_STS.WR_REJ 1)
        ∧ ((off - 0x310000) / 0x8000 ≠ s.get Reg.MESH_STS.EPOCH → s.get Reg.MESH_STS.OLD_RETAINED = 1 ∨ s.get Reg.MESH_STS.NEXT_ARMED = 1 →
            u = s.put Reg.MESH_STS.WR_REJ 1)
        ∧ FieldsBut [⟨off, 0, 32⟩, Reg.MESH_STS.WR_REJ] s u ∧ u = { s with regs := u.regs } ∧ TrafficOnly s t)

/-- A retained bank is released or drained, a flow returns to its primary path, and the samplers show their interval.
RETAINED_BANK_RELEASE acts only on a retained bank whose drain count is 0; DRAIN_LIMIT_EXPIRY discards every queued frame of the old
epoch, forces its count to 0 and releases the bank; FLOW_RETURN_PRIMARY moves a flow back only where no frame is outstanding on the
backup, the primary is clear and the slot begins its merged cycle; QUEUE_SAMPLE_INTERVAL shows each sampler and starts anew. -/
def Obligations.MeshTimersAndSamplers : Prop :=
  (∀ (s : State),
      Completes (.retainedBankRelease) s fun t =>
        (s.get Reg.MESH_STS.OLD_RETAINED = 1 → s.get (Reg.MESH_DRAIN.COUNT (1 - s.get Reg.MESH_STS.EPOCH)) = 0 → t = s.put Reg.MESH_STS.OLD_RETAINED 0)
        ∧ (s.get Reg.MESH_STS.OLD_RETAINED = 0 ∨ s.get (Reg.MESH_DRAIN.COUNT (1 - s.get Reg.MESH_STS.EPOCH)) ≠ 0 → t = s))
  ∧ (∀ (s : State),
      Completes (.drainLimitExpiry) s fun t =>
        (s.get Reg.MESH_STS.OLD_RETAINED = 0 → t = s)
        ∧ (s.get Reg.MESH_STS.OLD_RETAINED = 1 → t.get Reg.MESH_STS.OLD_RETAINED = 0 ∧ t.get (Reg.MESH_DRAIN.COUNT (1 - s.get Reg.MESH_STS.EPOCH)) = 0
            ∧ t.get Reg.MESH_STS.EPOCH = s.get Reg.MESH_STS.EPOCH
            ∧ (∀ p : Fin 64, (t.port p).txq = (s.port p).txq.filter (fun f => f.epoch != 1 - s.get Reg.MESH_STS.EPOCH))
            ∧ t.rxq = s.rxq.filter (fun x => x.epoch != 1 - s.get Reg.MESH_STS.EPOCH)
            ∧ t.stageIn = s.stageIn.filter (fun x => x.epoch != 1 - s.get Reg.MESH_STS.EPOCH)
            ∧ t.mesh.crossings = s.mesh.crossings.filter (fun x => x.frame.epoch != 1 - s.get Reg.MESH_STS.EPOCH))
        ∧ t = { s with regs := t.regs, sched := t.sched, ports := t.ports, mesh := t.mesh, rxq := t.rxq, stageIn := t.stageIn, out := t.out })
  ∧ (∀ (s : State) (flow : BitVec 24),
      Completes (.flowReturnPrimary flow) s fun t =>
        (flowIn (s.activeImages ++ s.sched.kept) flow.toNat = none → t = s) ∧ ((s.flowRt flow.toNat).onBackup = false → t = s)
        ∧ ((s.flowRt flow.toNat).backupFrames ≠ 0 → t = s)
        ∧ (∀ x, flowIn (s.activeImages ++ s.sched.kept) flow.toNat = some x → ∀ p, x.1.pathOf x.2 false = some p →
            (s.pathBlocked p (s.flowCls x.2) = true → t = s) ∧ (s.slot % s.returnCycle p ≠ 0 → t = s)
            ∧ ((s.flowRt flow.toNat).onBackup = true → (s.flowRt flow.toNat).backupFrames = 0 → s.pathBlocked p (s.flowCls x.2) = false →
                s.slot % s.returnCycle p = 0 → t.flowRt flow.toNat = { s.flowRt flow.toNat with onBackup := false }))
        ∧ t = { s with sched := t.sched })
  ∧ (∀ (s : State),
      Completes (.queueSampleInterval) s fun t =>
        (s.get Reg.TELEM_SMP_CTL.EN = 0 → t = s)
        ∧ (s.get Reg.TELEM_SMP_CTL.EN = 1 → (s.scriv.samplers = [] → t.reg 0x710000 = regReset 0x710000)
            ∧ (∀ k q, s.scriv.samplers = [(k, q)] → t.reg k = BitVec.ofNat 32 (min q.depth 65535 + 65536 * min q.delay 65535)))
        ∧ (∀ o : Nat, o < 0x710000 → (s.scriv.samplers.map (·.1)).contains o = false → t.reg o = s.reg o)
        ∧ t = { s with regs := t.regs, scriv := { s.scriv with samplers := t.scriv.samplers } })

/-- SUBMIT, CANCEL, ADMISSION_VERDICT, SCHEDULE_TAKEOVER and COMMIT act as Table 5.7 and R46 to R49 give. A taken SUBMIT with no image
pending queues one submission that carries the lock state, map generation, arming and preemption of that moment, and is refused
otherwise; CANCEL drops a PENDING image before its takeover slot and is refused otherwise; a verdict refuses with the code of the first
failed check, or makes the image PENDING with its cost, and signals it; SCHEDULE_TAKEOVER with nothing due by the next slot does
nothing, and one due image replaces the partition's active image as that slot begins; a commit while a schedule is active or pending is
refused and otherwise makes the next map the current one. -/
def Obligations.ScheduleCommands : Prop :=
  (∀ (s : State) (h : HostId) (p : PartId),
      Takes s h (Reg.SCHED_CTL.off p) →
      Completes (.submit h p) s fun t =>
        (s.get (Reg.SCHED_STATE.PEND p) ≠ 0 → t = s.put (Reg.SCHED_ADM.SUBMIT_REJ p) 1)
        ∧ (s.get (Reg.SCHED_STATE.PEND p) = 0 → t.get (Reg.SCHED_STATE.PEND p) = 1 ∧ t.get (Reg.SCHED_ADM.BUSY p) = 1
            ∧ FieldsBut [Reg.SCHED_STATE.PEND p, Reg.SCHED_ADM.BUSY p] s t
            ∧ t = { s with regs := t.regs, sched := { s.sched with submits := s.sched.submits ++ [{ part := p, locked := s.get Reg.TIME_STS.STATE == 2, gen := s.get Reg.GLB_DUM_GEN.GEN, armed := s.get Reg.MESH_STS.NEXT_ARMED != 0, preempt := (List.range 64).filter (fun q => s.get (Reg.LINK_CFG.PREEMPT_EN q) != 0), addr := s.pair (Reg.SCHED_IMG_LO.ADDR_LO p) (Reg.SCHED_IMG_HI.ADDR_HI p), space := s.get (Reg.SCHED_IMG_HI.SPACE p), pages := s.get (Reg.SCHED_IMG_LEN.PAGES p) }] } }))
  ∧ (∀ (s : State) (h : HostId) (p : PartId),
      Takes s h (Reg.SCHED_CTL.off p) →
      Completes (.cancel h p) s fun t =>
        (s.get (Reg.SCHED_STATE.PEND p) ≠ 2 → t = s.put (Reg.SCHED_ADM.CANCEL_REJ p) 1)
        ∧ (s.get (Reg.SCHED_TAKEOVER_LO.SLOT p) + 2 ^ 32 * s.get (Reg.SCHED_TAKEOVER_HI.SLOT p) ≤ s.slot → t = s.put (Reg.SCHED_ADM.CANCEL_REJ p) 1)
        ∧ (s.get (Reg.SCHED_STATE.PEND p) = 2 → s.slot < s.get (Reg.SCHED_TAKEOVER_LO.SLOT p) + 2 ^ 32 * s.get (Reg.SCHED_TAKEOVER_HI.SLOT p) →
            ∀ i, s.sched.pend.at? p.val = some i →
            t = (({ s with sched := { s.sched with pend := s.sched.pend.del p } }).put (Reg.SCHED_STATE.PEND p) 0).schedChanged p [i])
        ∧ (s.get (Reg.SCHED_STATE.PEND p) = 2 → s.slot < s.get (Reg.SCHED_TAKEOVER_LO.SLOT p) + 2 ^ 32 * s.get (Reg.SCHED_TAKEOVER_HI.SLOT p) →
            s.sched.pend.at? p.val = none → t = s)
        ∧ TrafficOnly { s with handles := t.handles } t)
  ∧ (∀ (s : State) (seen : Seen),
      s.sched.submits = [] →
      Completes (.admissionVerdict seen) s fun t =>
        t = s)
  ∧ (∀ (s u : State) (seen : Seen) (x : Submit) (rest : List Submit) (b : List Byte) (f : AdmFail),
      s.sched.submits = x :: rest →
      (s.see seen).memReadC (x.part * 1024 + 0x3FF) x.space x.addr (4096 * x.pages) = (u, .ok b) →
      parseImage b (4096 * x.pages) = .error f →
      Completes (.admissionVerdict seen) s fun t =>
        t.get (Reg.SCHED_ADM.RESULT x.part) = 1 ∧ t.get (Reg.SCHED_ADM.BUSY x.part) = 0 ∧ t.get (Reg.SCHED_ADM.DONE x.part) = 1
        ∧ t.get (Reg.SCHED_STATE.PEND x.part) = 0 ∧ t.get (Reg.SCHED_ADM_VALUE.VALUE x.part) = 0 ∧ t.sched = { u.sched with submits := rest }
        ∧ FieldsBut [Reg.SCHED_ADM.RESULT x.part, Reg.SCHED_ADM.BUSY x.part, Reg.SCHED_ADM.DONE x.part, Reg.SCHED_STATE.PEND x.part, Reg.SCHED_ADM_ITEM.INDEX x.part, Reg.SCHED_ADM_ITEM.KIND x.part, Reg.SCHED_ADM_VALUE.VALUE x.part] u t
        ∧ t = { u with regs := t.regs, sched := t.sched, host0 := t.host0, host1 := t.host1, out := t.out })
  ∧ (∀ (s u : State) (seen : Seen) (x : Submit) (rest : List Submit) (b : List Byte) (i : Image),
      s.sched.submits = x :: rest →
      (s.see seen).memReadC (x.part * 1024 + 0x3FF) x.space x.addr (4096 * x.pages) = (u, .ok b) →
      parseImage b (4096 * x.pages) = .ok i →
      (∀ p ∈ i.ports, u.lowered p = false) ∧ (∀ k ∈ i.clusters, u.gated k = false) →
      Completes (.admissionVerdict seen) s fun t =>
        (∀ f, ({ u with sched := { u.sched with submits := rest } } : State).admChecks x i ((u.plant x.preempt).cost i) = some f →
              t.get (Reg.SCHED_ADM.RESULT x.part) = f.code % 256 ∧ t.get (Reg.SCHED_ADM.DONE x.part) = 1 ∧ t.get (Reg.SCHED_STATE.PEND x.part) = 0
              ∧ t.sched = { u.sched with submits := rest } ∧ t = { u with regs := t.regs, sched := t.sched, host0 := t.host0, host1 := t.host1, out := t.out })
        ∧ (({ u with sched := { u.sched with submits := rest } } : State).admChecks x i ((u.plant x.preempt).cost i) = none →
              t.get (Reg.SCHED_ADM.RESULT x.part) = 0 ∧ t.get (Reg.SCHED_ADM.DONE x.part) = 1 ∧ t.get (Reg.SCHED_ADM.BUSY x.part) = 0
              ∧ t = (((i.res.filter (fun r => r.kind == 1)).map (fun r => r.cluster)).eraseDups.foldl State.spillSegs ((({ u with sched := { u.sched with submits := rest, pend := u.sched.pend.set x.part { i with cost := (u.plant x.preempt).cost i } } } : State).put (Reg.SCHED_STATE.PEND x.part) 2).schedChanged x.part [{ i with cost := (u.plant x.preempt).cost i }])).verdict x.part 0))
  ∧ (∀ (s : State),
      Completes (.scheduleTakeover) s fun t =>
        (s.sched.pend.any (fun e => decide (e.2.takeover ≤ s.slot + 1)) = false → t = s)
        ∧ (s.sched.pend.any (fun e => decide (e.2.takeover ≤ s.slot + 1)) = true → t = s.toSlot 12)
        ∧ (∀ p i, s.sched.pend = [(p, i)] → i.takeover ≤ s.slot + 1 → s.lossDue = false → s.mesh.crossings = [] → s.host0.b4Wait = [] → s.host1.b4Wait = [] →
            s.time.phase < 3 → s.ft % 320 = 107 * s.time.phase → s.ft + 1280 < 2 ^ 72 →
            t.sched.pend = [] ∧ t.sched.act = (if i.empty then s.sched.act.del p else s.sched.act.set p i) ∧ t.slot = s.slot + 1)
        ∧ TrafficOnly { s with time := t.time, handles := t.handles, spares := t.spares, boot := t.boot, tally := t.tally, sec := t.sec } t)
  ∧ (∀ (s : State) (h : HostId),
      Takes s h Reg.GLB_DUM_CTL.off →
      Completes (.commit h) s fun t =>
        (s.schedBusy = true → t.get Reg.GLB_DUM_CTL.COMMIT_REJ = 1 ∧ RegsBut [Reg.GLB_DUM_CTL.off] s t ∧ t = { s with regs := t.regs })
        ∧ (s.schedBusy = false → t.get Reg.GLB_DET_STS.DIGEST_VALID = 0 ∧ t.boot = { s.boot with detPending := true } ∧ t.spares = []
            ∧ t = (s.applyWrite Reg.GLB_DUM_CTL.off 0).commitMap)
        ∧ TrafficOnly { s with handles := t.handles, spares := t.spares, boot := t.boot, tally := t.tally, sec := t.sec } t)

/-- SLOT_BOUNDARY, TIME_LOST, SAMPLE_RECORD and UNIT_FAILURE move the machine as R18, R28, R29, R143 and R40 to R42 give. SLOT_BOUNDARY
lets core cycles go by, at most the twelve of a slot, until a slot begins; from an FT on the pattern of R17 it comes to the first cycle
of the next slot, with the gate units on that slot. TIME_LOST does the same only in HOLDOVER with a loss condition met, and LOST is
entered as that slot begins: the gates open and the loss is counted. A sample record is made only for a sampled flow of an enabled ring
at a slot of its interval, once, and written at PROD; a full ring counts the loss. A unit that is already out of service stays as it is,
and a unit that fails shows its fence bit. -/
def Obligations.SlotsLossSamplesAndUnits : Prop :=
  (∀ (s : State),
      Completes (.slotBoundary) s fun t =>
        t = s.toSlot 12
        ∧ (∃ n : Fin 13, 0 < n.val ∧ t.time.cycles = s.time.cycles + n.val ∧ (n.val < 12 → t.atSlotStart = true))
        ∧ (s.time.phase < 3 → s.ft % 320 = 107 * s.time.phase → s.ft + 1280 < 2 ^ 72 →
            t.ft = 1280 * (s.slot + 1) ∧ t.time.phase = 0 ∧ t.time.gateSlot = s.slot + 1)
        ∧ TrafficOnly { s with time := t.time, handles := t.handles, spares := t.spares, boot := t.boot, tally := t.tally, sec := t.sec } t)
  ∧ (∀ (s : State),
      Completes (.timeLost) s fun t =>
        (s.get Reg.TIME_STS.STATE ≠ 3 ∨ s.time.lossMet = false → t = s)
        ∧ (s.get Reg.TIME_STS.STATE = 3 → s.time.lossMet = true → t = s.toSlot 12)
        ∧ (s.get Reg.TIME_STS.STATE = 3 → s.time.lossMet = true → s.sched = {} → s.qps = [] → s.mesh.crossings = [] → s.host0.b4Wait = [] → s.host1.b4Wait = [] →
            s.time.phase < 3 → s.ft % 320 = 107 * s.time.phase → s.ft + 1280 < 2 ^ 72 →
            t.get Reg.TIME_STS.STATE = 4 ∧ t.get Reg.TIME_STS.TIME_LOST = 1 ∧ t.sched = { s.sched with opened := true } ∧ t.slot = s.slot + 1
            ∧ t.time.lossMet = false ∧ t.time.timerRunning = false
            ∧ t.get Reg.TIME_LOST_CNT.COUNT = min (s.get Reg.TIME_LOST_CNT.COUNT + 1) 0xFFFF
            ∧ ReportsOnly { s with time := t.time, sched := t.sched } t)
        ∧ TrafficOnly { s with time := t.time, handles := t.handles, spares := t.spares, boot := t.boot, tally := t.tally, sec := t.sec } t)
  ∧ (∀ (s : State) (flow : BitVec 24),
      Completes (.sampleRecord flow) s fun t =>
        (flowIn s.activeImages flow.toNat = none → t = s)
        ∧ (∀ x, flowIn s.activeImages flow.toNat = some x →
            (x.2.sample = 0 → t = s) ∧ (s.slot % max x.2.sample 1 ≠ 0 → t = s) ∧ (s.get (Reg.SCHED_SMP_CTL.ENABLE x.1.partition) = 0 → t = s)
            ∧ ((s.flowRt flow.toNat).sampled = s.slot + 1 → t = s)
            ∧ (x.2.sample ≠ 0 → s.slot % max x.2.sample 1 = 0 → s.get (Reg.SCHED_SMP_CTL.ENABLE x.1.partition) ≠ 0 →
                (s.flowRt flow.toNat).sampled ≠ s.slot + 1 → t.flowRt flow.toNat = (s.flowRt flow.toNat).restart s.slot
                ∧ (s.sched.samples = [] → s.sampleSlot x.1.partition = false →
                    t.sched.samples = [(x.1.partition, (s.flowRt flow.toNat).record s.slot flow.toNat)] ∧ t = { s with sched := t.sched })
                ∧ (s.sched.samples = [] → s.sampleSlot x.1.partition = true →
                    (s.get (Reg.SCHED_SMP_PROD.INDEX x.1.partition) % 2 ^ s.get (Reg.SCHED_SMP_CTL.LOG2_SIZE x.1.partition) + 1) % 2 ^ s.get (Reg.SCHED_SMP_CTL.LOG2_SIZE x.1.partition)
                      = s.get (Reg.SCHED_SMP_CONS.INDEX x.1.partition) % 2 ^ s.get (Reg.SCHED_SMP_CTL.LOG2_SIZE x.1.partition) →
                    t.get Reg.SCHED_SAMPLE_LOST.COUNT = min (s.get Reg.SCHED_SAMPLE_LOST.COUNT + 1) (2 ^ 32 - 1)
                    ∧ x.1.partition ∈ t.sched.sampleLost ∧ t.sched.samples = [] ∧ t = { s with regs := t.regs, sched := t.sched }
                    ∧ FieldsBut [Reg.SCHED_SAMPLE_LOST.COUNT] s t)))
        ∧ t = { s with regs := t.regs, scriv := t.scriv, host0 := t.host0, host1 := t.host1, sched := t.sched, cores := t.cores, ddrBad := t.ddrBad, hostMem0 := t.hostMem0, hostMem1 := t.hostMem1, ddr := t.ddr, out := t.out })
  ∧ (∀ (s u : State) (flow : BitVec 24) (i : Image) (f : FlowRec),
      flowIn s.activeImages flow.toNat = some (i, f) ∧ f.sample ≠ 0 ∧ s.slot % f.sample = 0 →
      s.get (Reg.SCHED_SMP_CTL.ENABLE i.partition) = 1 ∧ (s.get (Reg.SCHED_SMP_PROD.INDEX i.partition) + 1) % 2 ^ s.get (Reg.SCHED_SMP_CTL.LOG2_SIZE i.partition) ≠ s.get (Reg.SCHED_SMP_CONS.INDEX i.partition) % 2 ^ s.get (Reg.SCHED_SMP_CTL.LOG2_SIZE i.partition) →
      s.get (Reg.SCHED_SMP_CTL.LOG2_SIZE i.partition) ≤ 16 ∧ (s.flowRt flow.toNat).sampled ≠ s.slot + 1 →
      s.sched.sampleLost = [] ∧ s.sched.samples = [] ∧ s.sampleSlot i.partition = true →
      (s.setFlowRt flow.toNat ((s.flowRt flow.toNat).restart s.slot)).memWriteC (i.partition * 1024 + 0x3FF) (s.get (Reg.SCHED_SMP_BASE_HI.SPACE i.partition)) (s.sampleAddr i.partition) ((s.flowRt flow.toNat).record s.slot flow.toNat) = (u, .ok ()) →
      Completes (.sampleRecord flow) s fun t =>
        t.get (Reg.SCHED_SMP_PROD.INDEX i.partition) = (s.get (Reg.SCHED_SMP_PROD.INDEX i.partition) + 1) % 2 ^ s.get (Reg.SCHED_SMP_CTL.LOG2_SIZE i.partition)
        ∧ FieldsBut [Reg.SCHED_SMP_PROD.INDEX i.partition] u t ∧ t = { u with regs := t.regs })
  ∧ (∀ (s : State) (unit : UnitId) (bad : List (BitVec 24)),
      Completes (.unitFailure { unit := unit, unreadable := bad }) s fun t =>
        (s.disabled unit = true ∨ fenceBit? unit = none → t = { s with kennel := t.kennel })
        ∧ (unit.kind ≠ .kennel → t.kennel.bad = s.kennel.bad)
        ∧ (∀ fld, fenceBit? unit = some fld → s.disabled unit = false → s.sched.act = [] → s.sched.kept = [] → s.qps = [] → s.ports = [] → t.get fld = 1)
        ∧ TrafficOnly { s with tiles := t.tiles, tally := t.tally } t)

/-- The scalar register instructions write gd as Table 10.6 gives, g0 reads 0, and the core steps past the instruction. Where a core's
next word is of the row, the command writes the result that Table 10.6 gives for its FN into gd, from the values of ga and gb before the
instruction; a write to g0 is discarded; every other register, all memories and every other core stay. A nonzero rb of CLZ or POPC
raises ILLEGAL. -/
def Obligations.ScalarArithmetic : Prop :=
  (∀ (s : State) (c : CoreId) (w : Nat),
      Issues s c .arith w →
      Completes (.addSubAndOrXor c) s fun t =>
        (fFn10 w = 0 → StepsWithG c (fRd w) ((s.core c).gr (fRa w) + (s.core c).gr (fRb w)) s t)
        ∧ (fFn10 w = 1 → StepsWithG c (fRd w) ((s.core c).gr (fRa w) - (s.core c).gr (fRb w)) s t)
        ∧ (fFn10 w = 2 → StepsWithG c (fRd w) ((s.core c).gr (fRa w) &&& (s.core c).gr (fRb w)) s t)
        ∧ (fFn10 w = 3 → StepsWithG c (fRd w) ((s.core c).gr (fRa w) ||| (s.core c).gr (fRb w)) s t)
        ∧ (fFn10 w = 4 → StepsWithG c (fRd w) ((s.core c).gr (fRa w) ^^^ (s.core c).gr (fRb w)) s t))
  ∧ (∀ (s : State) (c : CoreId) (w : Nat),
      Issues s c .shift w →
      Completes (.sllSrlSra c) s fun t =>
        (fFn10 w = 5 → StepsWithG c (fRd w) ((s.core c).gr (fRa w) <<< (((s.core c).gr (fRb w)).toNat % 64)) s t)
        ∧ (fFn10 w = 6 → StepsWithG c (fRd w) ((s.core c).gr (fRa w) >>> (((s.core c).gr (fRb w)).toNat % 64)) s t)
        ∧ (fFn10 w = 7 → StepsWithG c (fRd w) (BitVec.ofInt 64 (((s.core c).gr (fRa w)).toInt / 2 ^ (((s.core c).gr (fRb w)).toNat % 64))) s t))
  ∧ (∀ (s : State) (c : CoreId) (w : Nat),
      Issues s c .slt w →
      Completes (.sltSltu c) s fun t =>
        (fFn10 w = 8 → StepsWithG c (fRd w) (if ((s.core c).gr (fRa w)).toInt < ((s.core c).gr (fRb w)).toInt then 1 else 0) s t)
        ∧ (fFn10 w = 9 → StepsWithG c (fRd w) (if ((s.core c).gr (fRa w)).toNat < ((s.core c).gr (fRb w)).toNat then 1 else 0) s t))
  ∧ (∀ (s : State) (c : CoreId) (w : Nat),
      Issues s c .minMax w →
      Completes (.minMaxMinuMaxu c) s fun t =>
        (fFn10 w = 10 → StepsWithG c (fRd w) (if ((s.core c).gr (fRb w)).toInt < ((s.core c).gr (fRa w)).toInt then (s.core c).gr (fRb w) else (s.core c).gr (fRa w)) s t)
        ∧ (fFn10 w = 11 → StepsWithG c (fRd w) (if ((s.core c).gr (fRa w)).toInt < ((s.core c).gr (fRb w)).toInt then (s.core c).gr (fRb w) else (s.core c).gr (fRa w)) s t)
        ∧ (fFn10 w = 12 → StepsWithG c (fRd w) (if ((s.core c).gr (fRb w)).toNat < ((s.core c).gr (fRa w)).toNat then (s.core c).gr (fRb w) else (s.core c).gr (fRa w)) s t)
        ∧ (fFn10 w = 13 → StepsWithG c (fRd w) (if ((s.core c).gr (fRa w)).toNat < ((s.core c).gr (fRb w)).toNat then (s.core c).gr (fRb w) else (s.core c).gr (fRa w)) s t))
  ∧ (∀ (s : State) (c : CoreId) (w : Nat),
      Issues s c .count w →
      Completes (.clzPopc c) s fun t =>
        (fRb w ≠ 0 → t = s.raise c 1)
        ∧ (fRb w = 0 → fFn10 w = 14 → ∃ n : Fin 65, StepsWithG c (fRd w) (BitVec.ofNat 64 n) s t ∧ ((s.core c).gr (fRa w)).toNat < 2 ^ (64 - n.val) ∧ (n.val < 64 → 2 ^ (63 - n.val) ≤ ((s.core c).gr (fRa w)).toNat))
        ∧ (fRb w = 0 → fFn10 w = 15 → StepsWithG c (fRd w) (BitVec.ofNat 64 ((List.range 64).filter (fun i => ((s.core c).gr (fRa w)).getLsbD i)).length) s t))
  ∧ (∀ (s : State) (c : CoreId) (w : Nat),
      Issues s c .mul w →
      Completes (.mulMulhMulhu c) s fun t =>
        (fFn10 w = 16 → StepsWithG c (fRd w) ((s.core c).gr (fRa w) * (s.core c).gr (fRb w)) s t)
        ∧ (fFn10 w = 17 → StepsWithG c (fRd w) (BitVec.ofInt 64 (((s.core c).gr (fRa w)).toInt * ((s.core c).gr (fRb w)).toInt / 2 ^ 64)) s t)
        ∧ (fFn10 w = 18 → StepsWithG c (fRd w) (BitVec.ofNat 64 (((s.core c).gr (fRa w)).toNat * ((s.core c).gr (fRb w)).toNat / 2 ^ 64)) s t))
  ∧ (∀ (s : State) (c : CoreId) (w : Nat),
      Issues s c .clmul w →
      Completes (.clmulClmulh c) s fun t =>
        (fRd w ≠ 0 → fFn10 w = 19 → ∀ i : Fin 64, ((t.core c).gr (fRd w)).getLsbD i = decide (((List.range (i.val + 1)).filter (fun j => ((s.core c).gr (fRa w)).getLsbD (i.val - j) && ((s.core c).gr (fRb w)).getLsbD j)).length % 2 = 1))
        ∧ (fRd w ≠ 0 → fFn10 w = 20 → ∀ i : Fin 64, ((t.core c).gr (fRd w)).getLsbD i = decide (((List.range (i.val + 64 + 1)).filter (fun j => ((s.core c).gr (fRa w)).getLsbD (i.val + 64 - j) && ((s.core c).gr (fRb w)).getLsbD j)).length % 2 = 1))
        ∧ StepsWithG c (fRd w) ((t.core c).gr (fRd w)) s t)

/-- The scalar immediate, upper-immediate and CSR instructions and FENCE act as Table 10.6 and Table 10.2 give. Each writes gd from ga
and the sign-extended immediate as Table 10.6 gives; SHI raises ILLEGAL on reserved bits; CSRR reads the listed CSRs of Table 10.2 and
raises ILLEGAL on any other number; CSRW writes FFLAGS or clears a channel's error and raises ILLEGAL otherwise; FENCE only steps past
itself. Nothing else changes. -/
def Obligations.ScalarImmediates : Prop :=
  (∀ (s : State) (c : CoreId) (w : Nat),
      Issues s c .immArith w →
      Completes (.addiAndiOriXori c) s fun t =>
        (fOp w = 2 → StepsWithG c (fRd w) ((s.core c).gr (fRa w) + fImm w) s t)
        ∧ (fOp w = 3 → StepsWithG c (fRd w) ((s.core c).gr (fRa w) &&& fImm w) s t)
        ∧ (fOp w = 4 → StepsWithG c (fRd w) ((s.core c).gr (fRa w) ||| fImm w) s t)
        ∧ (fOp w = 5 → StepsWithG c (fRd w) ((s.core c).gr (fRa w) ^^^ fImm w) s t))
  ∧ (∀ (s : State) (c : CoreId) (w : Nat),
      Issues s c .shi w →
      Completes (.shi c) s fun t =>
        (bits w 8 7 ≠ 0 ∨ bits w 6 2 = 3 → t = s.raise c 1)
        ∧ (bits w 8 7 = 0 → bits w 6 2 = 0 → StepsWithG c (fRd w) ((s.core c).gr (fRa w) <<< bits w 0 6) s t)
        ∧ (bits w 8 7 = 0 → bits w 6 2 = 1 → StepsWithG c (fRd w) ((s.core c).gr (fRa w) >>> bits w 0 6) s t)
        ∧ (bits w 8 7 = 0 → bits w 6 2 = 2 → StepsWithG c (fRd w) (((s.core c).gr (fRa w)).sshiftRight (bits w 0 6)) s t))
  ∧ (∀ (s : State) (c : CoreId) (w : Nat),
      Issues s c .slti w →
      Completes (.slti c) s fun t =>
        StepsWithG c (fRd w) (if ((s.core c).gr (fRa w)).toInt < (fImm w).toInt then 1 else 0) s t)
  ∧ (∀ (s : State) (c : CoreId) (w : Nat),
      Issues s c .lui w →
      Completes (.lui c) s fun t =>
        StepsWithG c (fRd w) (BitVec.ofInt 64 ((BitVec.ofNat 20 w).toInt * 4096)) s t)
  ∧ (∀ (s : State) (c : CoreId) (w : Nat),
      Issues s c .luih w →
      Completes (.luih c) s fun t =>
        StepsWithG c (fRd w) (BitVec.ofNat 64 (((s.core c).gr (fRd w)).toNat % 2 ^ 32 + 2 ^ 32 * (w % 2 ^ 20))) s t)
  ∧ (∀ (s : State) (c : CoreId) (w : Nat),
      Issues s c .csrr w →
      Completes (.csrr c) s fun t =>
        (bits w 0 8 = 0x00 → StepsWithG c (fRd w) (BitVec.ofNat 64 c) s t)
        ∧ (bits w 0 8 = 0x04 → StepsWithG c (fRd w) (BitVec.ofNat 64 (s.core c).fflags) s t)
        ∧ (bits w 0 8 = 0x10 → StepsWithG c (fRd w) s.time.ftNs s t)
        ∧ (bits w 0 8 = 0x11 → StepsWithG c (fRd w) (s.time.frac.setWidth 64) s t)
        ∧ (bits w 0 8 = 0x12 → StepsWithG c (fRd w) (BitVec.ofNat 64 (s.time.ftNs.toNat / 5)) s t)
        ∧ (bits w 0 8 = 0x05 → StepsWithG c (fRd w) (BitVec.ofNat 64 (s.time.cycles - (s.core c).cycle0)) s t)
        ∧ (bits w 0 8 = 0x0A → StepsWithG c (fRd w) (BitVec.ofNat 64 (s.core c).eaddr) s t)
        ∧ (bits w 0 8 = 0x0B → StepsWithG c (fRd w) (BitVec.ofNat 64 (s.core c).ekind) s t)
        ∧ (bits w 0 8 = 0x08 → StepsWithG c (fRd w) (BitVec.ofNat 64 (s.get (Reg.CLUSTER_CORE_STS.CAUSE (c.val / 64) (c.val % 64)))) s t)
        ∧ (bits w 0 8 ∉ [0x00, 0x01, 0x02, 0x03, 0x04, 0x05, 0x06, 0x08, 0x09, 0x0A, 0x0B, 0x10, 0x11, 0x12, 0x20, 0x21, 0x22, 0x23] → t = s.raise c 1))
  ∧ (∀ (s : State) (c : CoreId) (w : Nat),
      Issues s c .csrw w →
      Completes (.csrw c) s fun t =>
        (bits w 0 8 = 0x04 → CoreBecomes c { (s.core c).next with fflags := ((s.core c).gr (fRd w)).toNat % 16 } s t)
        ∧ (bits w 0 8 = 0x21 → ((t.core c).chans.getD 1 {}).err = false ∧ ((t.core c).chans.getD 1 {}).queue = ((s.core c).chans.getD 1 {}).queue ∧ CoreBecomes c { (s.core c).next with chans := (t.core c).chans } s t)
        ∧ (bits w 0 8 ∉ [0x04, 0x20, 0x21, 0x22, 0x23] → t = s.raise c 1))
  ∧ (∀ (s : State) (c : CoreId) (w : Nat),
      Issues s c .fence w →
      Completes (.fence c) s fun t =>
        CoreBecomes c (s.core c).next s t)

/-- Loads, stores, branches, jumps and hardware loops act as Table 10.6, R276 and R277 give. A load puts the extended bytes at ga + imm
into gd; a store writes the low bytes of gd there and no other byte; an access past a boundary, into the code region or onto an
uncorrectable word raises its exception with the address. A branch compares as its OP gives and adds 4 × off to the PC; JAL and JALR
link PC + 4; LOOPI and LOOPR open a hardware loop, a fifth level raises LOOP; the last instruction of a loop body goes back while rounds
remain. Everything else stays. -/
def Obligations.ScalarMemoryAndFlow : Prop :=
  (∀ (s : State) (c : CoreId) (w : Nat) (ecc : Bool),
      Issues s c .load w →
      Completes (.lbLhLwLd c ecc) s fun t =>
        (s.spadOut c ((s.core c).gr (fRa w) + fImm w).toNat (accessSize (fOp w)) = true → t = s.raise c 3 ((s.core c).gr (fRa w) + fImm w).toNat)
        ∧ (s.spadOut c ((s.core c).gr (fRa w) + fImm w).toNat (accessSize (fOp w)) = false → ecc = true → t = s.spadUe c ((s.core c).gr (fRa w) + fImm w).toNat)
        ∧ (fOp w = 0x10 → s.spadOut c ((s.core c).gr (fRa w) + fImm w).toNat 1 = false → ecc = false → StepsWithG c (fRd w) ((BitVec.ofNat 8 (leNat (memRead (s.core c).spad ((s.core c).gr (fRa w) + fImm w).toNat 1))).signExtend 64) s t)
        ∧ (fOp w = 0x11 → s.spadOut c ((s.core c).gr (fRa w) + fImm w).toNat 1 = false → ecc = false → StepsWithG c (fRd w) (BitVec.ofNat 64 (leNat (memRead (s.core c).spad ((s.core c).gr (fRa w) + fImm w).toNat 1))) s t)
        ∧ (fOp w = 0x12 → s.spadOut c ((s.core c).gr (fRa w) + fImm w).toNat 2 = false → ecc = false → StepsWithG c (fRd w) ((BitVec.ofNat 16 (leNat (memRead (s.core c).spad ((s.core c).gr (fRa w) + fImm w).toNat 2))).signExtend 64) s t)
        ∧ (fOp w = 0x13 → s.spadOut c ((s.core c).gr (fRa w) + fImm w).toNat 2 = false → ecc = false → StepsWithG c (fRd w) (BitVec.ofNat 64 (leNat (memRead (s.core c).spad ((s.core c).gr (fRa w) + fImm w).toNat 2))) s t)
        ∧ (fOp w = 0x14 → s.spadOut c ((s.core c).gr (fRa w) + fImm w).toNat 4 = false → ecc = false → StepsWithG c (fRd w) ((BitVec.ofNat 32 (leNat (memRead (s.core c).spad ((s.core c).gr (fRa w) + fImm w).toNat 4))).signExtend 64) s t)
        ∧ (fOp w = 0x15 → s.spadOut c ((s.core c).gr (fRa w) + fImm w).toNat 4 = false → ecc = false → StepsWithG c (fRd w) (BitVec.ofNat 64 (leNat (memRead (s.core c).spad ((s.core c).gr (fRa w) + fImm w).toNat 4))) s t)
        ∧ (fOp w = 0x16 → s.spadOut c ((s.core c).gr (fRa w) + fImm w).toNat 8 = false → ecc = false → StepsWithG c (fRd w) (BitVec.ofNat 64 (leNat (memRead (s.core c).spad ((s.core c).gr (fRa w) + fImm w).toNat 8))) s t))
  ∧ (∀ (s : State) (c : CoreId) (w : Nat) (ecc : Bool),
      Issues s c .store w →
      Completes (.sbShSwSd c ecc) s fun t =>
        (s.spadOut c ((s.core c).gr (fRa w) + fImm w).toNat (accessSize (fOp w)) = true → t = s.raise c 3 ((s.core c).gr (fRa w) + fImm w).toNat)
        ∧ (s.spadOut c ((s.core c).gr (fRa w) + fImm w).toNat (accessSize (fOp w)) = false → s.touchesCode c ((s.core c).gr (fRa w) + fImm w).toNat (accessSize (fOp w)) = true → t = s.raise c 5 ((s.core c).gr (fRa w) + fImm w).toNat)
        ∧ (s.spadOut c ((s.core c).gr (fRa w) + fImm w).toNat (accessSize (fOp w)) = false → s.touchesCode c ((s.core c).gr (fRa w) + fImm w).toNat (accessSize (fOp w)) = false → ecc = true → t = s.spadUe c ((s.core c).gr (fRa w) + fImm w).toNat)
        ∧ (fOp w = 0x18 → s.spadOut c ((s.core c).gr (fRa w) + fImm w).toNat 1 = false → s.touchesCode c ((s.core c).gr (fRa w) + fImm w).toNat 1 = false → ecc = false →
            memRead (t.core c).spad ((s.core c).gr (fRa w) + fImm w).toNat 1 = leBytes 1 ((s.core c).gr (fRd w)).toNat
            ∧ (∀ k : Nat, (k < ((s.core c).gr (fRa w) + fImm w).toNat ∨ ((s.core c).gr (fRa w) + fImm w).toNat + 1 ≤ k → memByte (t.core c).spad k = memByte (s.core c).spad k))
            ∧ CoreBecomes c { (s.core c).next with spad := (t.core c).spad } s t)
        ∧ (fOp w = 0x19 → s.spadOut c ((s.core c).gr (fRa w) + fImm w).toNat 2 = false → s.touchesCode c ((s.core c).gr (fRa w) + fImm w).toNat 2 = false → ecc = false →
            memRead (t.core c).spad ((s.core c).gr (fRa w) + fImm w).toNat 2 = leBytes 2 ((s.core c).gr (fRd w)).toNat
            ∧ (∀ k : Nat, (k < ((s.core c).gr (fRa w) + fImm w).toNat ∨ ((s.core c).gr (fRa w) + fImm w).toNat + 2 ≤ k → memByte (t.core c).spad k = memByte (s.core c).spad k))
            ∧ CoreBecomes c { (s.core c).next with spad := (t.core c).spad } s t)
        ∧ (fOp w = 0x1A → s.spadOut c ((s.core c).gr (fRa w) + fImm w).toNat 4 = false → s.touchesCode c ((s.core c).gr (fRa w) + fImm w).toNat 4 = false → ecc = false →
            memRead (t.core c).spad ((s.core c).gr (fRa w) + fImm w).toNat 4 = leBytes 4 ((s.core c).gr (fRd w)).toNat
            ∧ (∀ k : Nat, (k < ((s.core c).gr (fRa w) + fImm w).toNat ∨ ((s.core c).gr (fRa w) + fImm w).toNat + 4 ≤ k → memByte (t.core c).spad k = memByte (s.core c).spad k))
            ∧ CoreBecomes c { (s.core c).next with spad := (t.core c).spad } s t)
        ∧ (fOp w = 0x1B → s.spadOut c ((s.core c).gr (fRa w) + fImm w).toNat 8 = false → s.touchesCode c ((s.core c).gr (fRa w) + fImm w).toNat 8 = false → ecc = false →
            memRead (t.core c).spad ((s.core c).gr (fRa w) + fImm w).toNat 8 = leBytes 8 ((s.core c).gr (fRd w)).toNat
            ∧ (∀ k : Nat, (k < ((s.core c).gr (fRa w) + fImm w).toNat ∨ ((s.core c).gr (fRa w) + fImm w).toNat + 8 ≤ k → memByte (t.core c).spad k = memByte (s.core c).spad k))
            ∧ CoreBecomes c { (s.core c).next with spad := (t.core c).spad } s t))
  ∧ (∀ (s : State) (c : CoreId) (w : Nat),
      Issues s c .branch w →
      Completes (.beqBneBltBge c) s fun t =>
        (fOp w = 0x20 → (s.core c).gr (fRd w) = (s.core c).gr (fRa w) → CoreBecomes c { s.core c with pc := (s.core c).pc + 4 * (fImm w).setWidth 18, loops := (s.core c).loops.filter (fun l => decide (l.start ≤ ((s.core c).pc + 4 * (fImm w).setWidth 18).toNat) && decide (((s.core c).pc + 4 * (fImm w).setWidth 18).toNat < l.start + 4 * l.len)) } s t)
        ∧ (fOp w = 0x20 → ¬ ((s.core c).gr (fRd w) = (s.core c).gr (fRa w)) → CoreBecomes c (s.core c).next s t)
        ∧ (fOp w = 0x21 → (s.core c).gr (fRd w) ≠ (s.core c).gr (fRa w) → CoreBecomes c { s.core c with pc := (s.core c).pc + 4 * (fImm w).setWidth 18, loops := (s.core c).loops.filter (fun l => decide (l.start ≤ ((s.core c).pc + 4 * (fImm w).setWidth 18).toNat) && decide (((s.core c).pc + 4 * (fImm w).setWidth 18).toNat < l.start + 4 * l.len)) } s t)
        ∧ (fOp w = 0x21 → ¬ ((s.core c).gr (fRd w) ≠ (s.core c).gr (fRa w)) → CoreBecomes c (s.core c).next s t)
        ∧ (fOp w = 0x22 → ((s.core c).gr (fRd w)).toInt < ((s.core c).gr (fRa w)).toInt → CoreBecomes c { s.core c with pc := (s.core c).pc + 4 * (fImm w).setWidth 18, loops := (s.core c).loops.filter (fun l => decide (l.start ≤ ((s.core c).pc + 4 * (fImm w).setWidth 18).toNat) && decide (((s.core c).pc + 4 * (fImm w).setWidth 18).toNat < l.start + 4 * l.len)) } s t)
        ∧ (fOp w = 0x22 → ¬ (((s.core c).gr (fRd w)).toInt < ((s.core c).gr (fRa w)).toInt) → CoreBecomes c (s.core c).next s t)
        ∧ (fOp w = 0x23 → ((s.core c).gr (fRa w)).toInt ≤ ((s.core c).gr (fRd w)).toInt → CoreBecomes c { s.core c with pc := (s.core c).pc + 4 * (fImm w).setWidth 18, loops := (s.core c).loops.filter (fun l => decide (l.start ≤ ((s.core c).pc + 4 * (fImm w).setWidth 18).toNat) && decide (((s.core c).pc + 4 * (fImm w).setWidth 18).toNat < l.start + 4 * l.len)) } s t)
        ∧ (fOp w = 0x23 → ¬ (((s.core c).gr (fRa w)).toInt ≤ ((s.core c).gr (fRd w)).toInt) → CoreBecomes c (s.core c).next s t)
        ∧ (fOp w = 0x24 → ((s.core c).gr (fRd w)).toNat < ((s.core c).gr (fRa w)).toNat → CoreBecomes c { s.core c with pc := (s.core c).pc + 4 * (fImm w).setWidth 18, loops := (s.core c).loops.filter (fun l => decide (l.start ≤ ((s.core c).pc + 4 * (fImm w).setWidth 18).toNat) && decide (((s.core c).pc + 4 * (fImm w).setWidth 18).toNat < l.start + 4 * l.len)) } s t)
        ∧ (fOp w = 0x24 → ¬ (((s.core c).gr (fRd w)).toNat < ((s.core c).gr (fRa w)).toNat) → CoreBecomes c (s.core c).next s t)
        ∧ (fOp w = 0x25 → ((s.core c).gr (fRa w)).toNat ≤ ((s.core c).gr (fRd w)).toNat → CoreBecomes c { s.core c with pc := (s.core c).pc + 4 * (fImm w).setWidth 18, loops := (s.core c).loops.filter (fun l => decide (l.start ≤ ((s.core c).pc + 4 * (fImm w).setWidth 18).toNat) && decide (((s.core c).pc + 4 * (fImm w).setWidth 18).toNat < l.start + 4 * l.len)) } s t)
        ∧ (fOp w = 0x25 → ¬ (((s.core c).gr (fRa w)).toNat ≤ ((s.core c).gr (fRd w)).toNat) → CoreBecomes c (s.core c).next s t))
  ∧ (∀ (s : State) (c : CoreId) (w : Nat),
      Issues s c .jal w →
      Completes (.jal c) s fun t =>
        (t.core c).gr (fRd w) = (if fRd w = 0 then 0 else (s.core c).pc.zeroExtend 64 + 4)
        ∧ (∀ k : Nat, (k ≠ fRd w → (t.core c).gr k = (s.core c).gr k))
        ∧ CoreBecomes c { s.core c with g := (t.core c).g, pc := (s.core c).pc + 4 * (fImm20 w).setWidth 18, loops := (s.core c).loops.filter (fun l => decide (l.start ≤ ((s.core c).pc + 4 * (fImm20 w).setWidth 18).toNat) && decide (((s.core c).pc + 4 * (fImm20 w).setWidth 18).toNat < l.start + 4 * l.len)) } s t)
  ∧ (∀ (s : State) (c : CoreId) (w : Nat),
      Issues s c .jalr w →
      Completes (.jalr c) s fun t =>
        (t.core c).gr (fRd w) = (if fRd w = 0 then 0 else (s.core c).pc.zeroExtend 64 + 4)
        ∧ (∀ k : Nat, (k ≠ fRd w → (t.core c).gr k = (s.core c).gr k))
        ∧ CoreBecomes c { s.core c with g := (t.core c).g, pc := (((s.core c).gr (fRa w) + fImm w) &&& 0xFFFFFFFFFFFFFFFC).setWidth 18, loops := (s.core c).loops.filter (fun l => decide (l.start ≤ ((((s.core c).gr (fRa w) + fImm w) &&& 0xFFFFFFFFFFFFFFFC).setWidth 18).toNat) && decide (((((s.core c).gr (fRa w) + fImm w) &&& 0xFFFFFFFFFFFFFFFC).setWidth 18).toNat < l.start + 4 * l.len)) } s t)
  ∧ (∀ (s : State) (c : CoreId) (w : Nat),
      Issues s c .loopi w →
      Completes (.loopi c) s fun t =>
        (bits w 0 13 = 0 → t = s.raise c 1)
        ∧ (bits w 0 13 ≠ 0 → 4 ≤ (s.core c).loops.length → t = s.raise c 7)
        ∧ (bits w 0 13 ≠ 0 → (s.core c).loops.length < 4 → CoreBecomes c { s.core c with pc := (s.core c).pc + 4, loops := { start := (s.core c).pc.toNat + 4, len := bits w 0 13, count := (if bits w 13 12 = 0 then 4096 else bits w 13 12) } :: (s.core c).loops } s t))
  ∧ (∀ (s : State) (c : CoreId) (w : Nat),
      Issues s c .loopr w →
      Completes (.loopr c) s fun t =>
        (fRd w ≠ 0 ∨ bits w 0 13 = 0 → t = s.raise c 1)
        ∧ (fRd w = 0 → bits w 0 13 ≠ 0 → bits ((s.core c).gr (fRa w)).toNat 0 32 ≠ 0 → 4 ≤ (s.core c).loops.length → t = s.raise c 7)
        ∧ (fRd w = 0 → bits w 0 13 ≠ 0 → bits ((s.core c).gr (fRa w)).toNat 0 32 ≠ 0 → (s.core c).loops.length < 4 → CoreBecomes c { s.core c with pc := (s.core c).pc + 4, loops := { start := (s.core c).pc.toNat + 4, len := bits w 0 13, count := bits ((s.core c).gr (fRa w)).toNat 0 32 } :: (s.core c).loops } s t)
        ∧ (fRd w = 0 → bits w 0 13 ≠ 0 → bits ((s.core c).gr (fRa w)).toNat 0 32 = 0 → (s.core c).loops = [] → CoreBecomes c { s.core c with pc := BitVec.ofNat 18 ((s.core c).pc.toNat + 4 * bits w 0 13 + 4) } s t))
  ∧ (∀ (s : State) (c : CoreId) (w : Nat) (l : LoopLvl) (ls : List LoopLvl),
      Issues s c .fence w →
      (s.core c).loops = l :: ls ∧ (s.core c).pc.toNat = l.start + 4 * (l.len - 1) →
      Completes (.fence c) s fun t =>
        (1 < l.count → CoreBecomes c { s.core c with pc := BitVec.ofNat 18 l.start, loops := { l with count := l.count - 1 } :: ls } s t)
        ∧ (l.count ≤ 1 → ls = [] → CoreBecomes c { s.core c with pc := BitVec.ofNat 18 ((s.core c).pc.toNat + 4), loops := [] } s t))

/-- Vector loads, stores, extraction, insertion, broadcast, logic and permutation act as Table 10.6 and R278 give. VLD and VLDR take the
64 bytes at A, VLDR the rotated line; VST writes 64 bytes and no others; VEXT, VINS, VBCAST, VAND, VOR, VXOR and VPERM write the bytes
or elements Table 10.6 gives. A boundary, a code region, an uncorrectable word, a reserved format raises its exception. Past byte 63 the
result of VEXT and VINS is a free value (log 56). Everything else stays. -/
def Obligations.VectorMoves : Prop :=
  (∀ (s : State) (c : CoreId) (w : Nat) (ecc : Bool),
      Issues s c .vld w →
      Completes (.vld c ecc) s fun t =>
        (s.spadOut c ((s.core c).gr (fRa w) + fImm w).toNat 64 = true → t = s.raise c 3 ((s.core c).gr (fRa w) + fImm w).toNat)
        ∧ (s.spadOut c ((s.core c).gr (fRa w) + fImm w).toNat 64 = false → ecc = true → t = s.spadUe c ((s.core c).gr (fRa w) + fImm w).toNat)
        ∧ (s.spadOut c ((s.core c).gr (fRa w) + fImm w).toNat 64 = false → ecc = false → StepsWithV c (fRd w) (BitVec.ofNat 512 (leNat (memRead (s.core c).spad (((s.core c).gr (fRa w) + fImm w).toNat) 64))) s t))
  ∧ (∀ (s : State) (c : CoreId) (w : Nat) (ecc : Bool),
      Issues s c .vldr w →
      Completes (.vldr c ecc) s fun t =>
        (0x30000 ≤ ((s.core c).gr (fRa w) + fImm w).toNat → t = s.raise c 3 ((s.core c).gr (fRa w) + fImm w).toNat)
        ∧ (((s.core c).gr (fRa w) + fImm w).toNat < 0x30000 → s.spadOut c (((s.core c).gr (fRa w) + fImm w).toNat / 64 * 64) 64 = false → ecc = true → t = s.spadUe c (((s.core c).gr (fRa w) + fImm w).toNat / 64 * 64))
        ∧ (((s.core c).gr (fRa w) + fImm w).toNat < 0x30000 → s.spadOut c (((s.core c).gr (fRa w) + fImm w).toNat / 64 * 64) 64 = false → ecc = false → StepsWithV c (fRd w) ((t.core c).vr (fRd w)) s t
            ∧ ∀ i : Fin 64, ((t.core c).vBytes (fRd w)).getD i 0 = memByte (s.core c).spad (((s.core c).gr (fRa w) + fImm w).toNat / 64 * 64 + (((s.core c).gr (fRa w) + fImm w).toNat + i) % 64)))
  ∧ (∀ (s : State) (c : CoreId) (w : Nat) (ecc : Bool),
      Issues s c .vst w →
      Completes (.vst c ecc) s fun t =>
        (s.spadOut c ((s.core c).gr (fRa w) + fImm w).toNat 64 = true → t = s.raise c 3 ((s.core c).gr (fRa w) + fImm w).toNat)
        ∧ (s.spadOut c ((s.core c).gr (fRa w) + fImm w).toNat 64 = false → s.touchesCode c ((s.core c).gr (fRa w) + fImm w).toNat 64 = true → t = s.raise c 5 ((s.core c).gr (fRa w) + fImm w).toNat)
        ∧ (s.spadOut c ((s.core c).gr (fRa w) + fImm w).toNat 64 = false → s.touchesCode c ((s.core c).gr (fRa w) + fImm w).toNat 64 = false → ecc = true → t = s.spadUe c ((s.core c).gr (fRa w) + fImm w).toNat)
        ∧ (s.spadOut c ((s.core c).gr (fRa w) + fImm w).toNat 64 = false → s.touchesCode c ((s.core c).gr (fRa w) + fImm w).toNat 64 = false → ecc = false → memRead (t.core c).spad ((s.core c).gr (fRa w) + fImm w).toNat 64 = leBytes 64 ((s.core c).vr (fRd w)).toNat
            ∧ (∀ k : Nat, (k < ((s.core c).gr (fRa w) + fImm w).toNat ∨ ((s.core c).gr (fRa w) + fImm w).toNat + 64 ≤ k → memByte (t.core c).spad k = memByte (s.core c).spad k))
            ∧ CoreBecomes c { (s.core c).next with spad := (t.core c).spad } s t))
  ∧ (∀ (s : State) (c : CoreId) (w : Nat),
      Issues s c .vext w →
      Completes (.vext c) s fun t =>
        (bits w 0 6 + 2 ^ bits w 6 2 ≤ 64 → StepsWithG c (fRd w) (BitVec.ofNat 64 (((s.core c).vr (fRa w)).toNat / 2 ^ (8 * bits w 0 6) % 2 ^ (8 * 2 ^ bits w 6 2))) s t)
        ∧ (64 < bits w 0 6 + 2 ^ bits w 6 2 → StepsWithG c (fRd w) ((t.core c).gr (fRd w)) s.fresh t))
  ∧ (∀ (s : State) (c : CoreId) (w : Nat),
      Issues s c .vins w →
      Completes (.vins c) s fun t =>
        (bits w 0 6 + 2 ^ bits w 6 2 ≤ 64 → StepsWithV c (fRd w) ((t.core c).vr (fRd w)) s t ∧ ∀ i : Fin 64, ((t.core c).vBytes (fRd w)).getD i 0
            = (if bits w 0 6 ≤ i.val ∧ i.val < bits w 0 6 + 2 ^ bits w 6 2 then BitVec.ofNat 8 (((s.core c).gr (fRa w)).toNat / 2 ^ (8 * (i.val - bits w 0 6))) else ((s.core c).vBytes (fRd w)).getD i 0))
        ∧ (64 < bits w 0 6 + 2 ^ bits w 6 2 → StepsWithV c (fRd w) ((t.core c).vr (fRd w)) s.fresh t))
  ∧ (∀ (s : State) (c : CoreId) (w : Nat),
      Issues s c .vbcast w →
      Completes (.vbcast c) s fun t =>
        (fFmt w ∉ [0, 1, 2, 3, 4, 10, 11] → t = s.raise c 1)
        ∧ (fFmt w ∈ [0, 1, 2, 3, 4, 10, 11] → StepsWithV c (fRd w) ((t.core c).vr (fRd w)) s t ∧ ∀ i : Fin 64, (i.val < 512 / fmtBits (fFmt w) →
            ((t.core c).vElems (fRd w) (fFmt w)).getD i 0 = ((s.core c).gr (fRa w)).toNat % 2 ^ fmtBits (fFmt w))))
  ∧ (∀ (s : State) (c : CoreId) (w : Nat),
      Issues s c .vlogic w →
      Completes (.vandVorVxor c) s fun t =>
        (fFmt w ≠ 11 → t = s.raise c 1)
        ∧ (fFmt w = 11 → fFn w = 8 → StepsWithV c (fRd w) ((s.core c).vr (fRa w) &&& (s.core c).vr (fRb w)) s t)
        ∧ (fFmt w = 11 → fFn w = 9 → StepsWithV c (fRd w) ((s.core c).vr (fRa w) ||| (s.core c).vr (fRb w)) s t)
        ∧ (fFmt w = 11 → fFn w = 10 → StepsWithV c (fRd w) ((s.core c).vr (fRa w) ^^^ (s.core c).vr (fRb w)) s t))
  ∧ (∀ (s : State) (c : CoreId) (w : Nat),
      Issues s c .vperm w →
      Completes (.vperm c) s fun t =>
        StepsWithV c (fRd w) ((t.core c).vr (fRd w)) s t ∧ ∀ i : Fin 64, ((t.core c).vBytes (fRd w)).getD i 0
          = (if 128 ≤ (((s.core c).vBytes (fRb w)).getD i 0).toNat then 0 else ((s.core c).vBytes (fRa w)).getD ((((s.core c).vBytes (fRb w)).getD i 0).toNat % 64) 0))

/-- Vector arithmetic, conversion, block quantization and reduction round once, wrap or saturate as R281 to R288 give. Integer elements
wrap; float elements are the exact sum, difference, product or fused sum of products rounded once to the format; absolute value and
negation act on the sign; conversions keep the unwritten half when narrowing; MX blocks carry the scale at byte 63; VHRED combines in a
pairwise tree, which for integers is the sum. A format an instruction does not accept raises ILLEGAL. FFLAGS only gains bits; everything
else stays. Open flags and filler bytes of VQMX are free (log 53). -/
def Obligations.VectorArithmetic : Prop :=
  (∀ (s : State) (c : CoreId) (w : Nat),
      Issues s c .varith w →
      Completes (.vaddVsubVmulVmaxVmin c) s fun t =>
        (fFmt w ∉ [0, 1, 2, 10, 11] → t = s.raise c 1)
        ∧ (fFmt w = 11 → fFn w = 0 → StepsWithVF c (fRd w) ((t.core c).vr (fRd w)) ((t.core c).fflags) s t ∧ (t.core c).fflags = (s.core c).fflags ∧ ∀ i : Fin 16, ((t.core c).vElems (fRd w) 11).getD i 0 = (((s.core c).vElems (fRa w) 11).getD i 0 + ((s.core c).vElems (fRb w) 11).getD i 0) % 2 ^ 32)
        ∧ (fFmt w = 11 → fFn w = 1 → StepsWithVF c (fRd w) ((t.core c).vr (fRd w)) ((t.core c).fflags) s t ∧ (t.core c).fflags = (s.core c).fflags ∧ ∀ i : Fin 16, ((t.core c).vElems (fRd w) 11).getD i 0 = (((s.core c).vElems (fRa w) 11).getD i 0 + 2 ^ 32 - ((s.core c).vElems (fRb w) 11).getD i 0) % 2 ^ 32)
        ∧ (fFmt w = 11 → fFn w = 2 → StepsWithVF c (fRd w) ((t.core c).vr (fRd w)) ((t.core c).fflags) s t ∧ (t.core c).fflags = (s.core c).fflags ∧ ∀ i : Fin 16, ((t.core c).vElems (fRd w) 11).getD i 0 = ((s.core c).vElems (fRa w) 11).getD i 0 * ((s.core c).vElems (fRb w) 11).getD i 0 % 2 ^ 32)
        ∧ (fFmt w = 11 → fFn w = 3 → StepsWithVF c (fRd w) ((t.core c).vr (fRd w)) ((t.core c).fflags) s t ∧ ∀ i : Fin 16, ((t.core c).vElems (fRd w) 11).getD i 0 = (if sInt 32 (((s.core c).vElems (fRa w) 11).getD i 0) < sInt 32 (((s.core c).vElems (fRb w) 11).getD i 0) then ((s.core c).vElems (fRb w) 11).getD i 0 else ((s.core c).vElems (fRa w) 11).getD i 0))
        ∧ (fFmt w = 11 → fFn w = 4 → StepsWithVF c (fRd w) ((t.core c).vr (fRd w)) ((t.core c).fflags) s t ∧ ∀ i : Fin 16, ((t.core c).vElems (fRd w) 11).getD i 0 = (if sInt 32 (((s.core c).vElems (fRb w) 11).getD i 0) < sInt 32 (((s.core c).vElems (fRa w) 11).getD i 0) then ((s.core c).vElems (fRb w) 11).getD i 0 else ((s.core c).vElems (fRa w) 11).getD i 0))
        ∧ (fFmt w = 10 → fFn w = 0 → StepsWithVF c (fRd w) ((t.core c).vr (fRd w)) ((t.core c).fflags) s t ∧ (t.core c).fflags = (s.core c).fflags ∧ ∀ i : Fin 64, ((t.core c).vElems (fRd w) 10).getD i 0 = (((s.core c).vElems (fRa w) 10).getD i 0 + ((s.core c).vElems (fRb w) 10).getD i 0) % 2 ^ 8)
        ∧ (fFmt w = 10 → fFn w = 1 → StepsWithVF c (fRd w) ((t.core c).vr (fRd w)) ((t.core c).fflags) s t ∧ (t.core c).fflags = (s.core c).fflags ∧ ∀ i : Fin 64, ((t.core c).vElems (fRd w) 10).getD i 0 = (((s.core c).vElems (fRa w) 10).getD i 0 + 2 ^ 8 - ((s.core c).vElems (fRb w) 10).getD i 0) % 2 ^ 8)
        ∧ (fFmt w = 10 → fFn w = 2 → StepsWithVF c (fRd w) ((t.core c).vr (fRd w)) ((t.core c).fflags) s t ∧ (t.core c).fflags = (s.core c).fflags ∧ ∀ i : Fin 64, ((t.core c).vElems (fRd w) 10).getD i 0 = ((s.core c).vElems (fRa w) 10).getD i 0 * ((s.core c).vElems (fRb w) 10).getD i 0 % 2 ^ 8)
        ∧ (fFmt w = 10 → fFn w = 3 → StepsWithVF c (fRd w) ((t.core c).vr (fRd w)) ((t.core c).fflags) s t ∧ ∀ i : Fin 64, ((t.core c).vElems (fRd w) 10).getD i 0 = (if sInt 8 (((s.core c).vElems (fRa w) 10).getD i 0) < sInt 8 (((s.core c).vElems (fRb w) 10).getD i 0) then ((s.core c).vElems (fRb w) 10).getD i 0 else ((s.core c).vElems (fRa w) 10).getD i 0))
        ∧ (fFmt w = 10 → fFn w = 4 → StepsWithVF c (fRd w) ((t.core c).vr (fRd w)) ((t.core c).fflags) s t ∧ ∀ i : Fin 64, ((t.core c).vElems (fRd w) 10).getD i 0 = (if sInt 8 (((s.core c).vElems (fRb w) 10).getD i 0) < sInt 8 (((s.core c).vElems (fRa w) 10).getD i 0) then ((s.core c).vElems (fRb w) 10).getD i 0 else ((s.core c).vElems (fRa w) 10).getD i 0))
        ∧ (fFmt w = 0 → fFn w = 0 → StepsWithVF c (fRd w) ((t.core c).vr (fRd w)) ((t.core c).fflags) s t ∧ ∀ i : Fin 16, ((t.core c).vElems (fRd w) 0).getD i 0 = (fp32.round (((fp32.value (((s.core c).vElems (fRa w) 0).getD i 0)).add (fp32.value (((s.core c).vElems (fRb w) 0).getD i 0))).1)).1)
        ∧ (fFmt w = 0 → fFn w = 1 → StepsWithVF c (fRd w) ((t.core c).vr (fRd w)) ((t.core c).fflags) s t ∧ ∀ i : Fin 16, ((t.core c).vElems (fRd w) 0).getD i 0 = (fp32.round (((fp32.value (((s.core c).vElems (fRa w) 0).getD i 0)).add (fp32.value (((s.core c).vElems (fRb w) 0).getD i 0)).neg).1)).1)
        ∧ (fFmt w = 0 → fFn w = 2 → StepsWithVF c (fRd w) ((t.core c).vr (fRd w)) ((t.core c).fflags) s t ∧ ∀ i : Fin 16, ((t.core c).vElems (fRd w) 0).getD i 0 = (fp32.round (((fp32.value (((s.core c).vElems (fRa w) 0).getD i 0)).mul (fp32.value (((s.core c).vElems (fRb w) 0).getD i 0))).1)).1)
        ∧ (fFmt w = 1 → fFn w = 0 → StepsWithVF c (fRd w) ((t.core c).vr (fRd w)) ((t.core c).fflags) s t ∧ ∀ i : Fin 32, ((t.core c).vElems (fRd w) 1).getD i 0 = ((⟨16, 8, 7, 127, true, true⟩ : FloatFmt).round ((((⟨16, 8, 7, 127, true, true⟩ : FloatFmt).value (((s.core c).vElems (fRa w) 1).getD i 0)).add ((⟨16, 8, 7, 127, true, true⟩ : FloatFmt).value (((s.core c).vElems (fRb w) 1).getD i 0))).1)).1)
        ∧ (fFmt w = 1 → fFn w = 1 → StepsWithVF c (fRd w) ((t.core c).vr (fRd w)) ((t.core c).fflags) s t ∧ ∀ i : Fin 32, ((t.core c).vElems (fRd w) 1).getD i 0 = ((⟨16, 8, 7, 127, true, true⟩ : FloatFmt).round ((((⟨16, 8, 7, 127, true, true⟩ : FloatFmt).value (((s.core c).vElems (fRa w) 1).getD i 0)).add ((⟨16, 8, 7, 127, true, true⟩ : FloatFmt).value (((s.core c).vElems (fRb w) 1).getD i 0)).neg).1)).1)
        ∧ (fFmt w = 1 → fFn w = 2 → StepsWithVF c (fRd w) ((t.core c).vr (fRd w)) ((t.core c).fflags) s t ∧ ∀ i : Fin 32, ((t.core c).vElems (fRd w) 1).getD i 0 = ((⟨16, 8, 7, 127, true, true⟩ : FloatFmt).round ((((⟨16, 8, 7, 127, true, true⟩ : FloatFmt).value (((s.core c).vElems (fRa w) 1).getD i 0)).mul ((⟨16, 8, 7, 127, true, true⟩ : FloatFmt).value (((s.core c).vElems (fRb w) 1).getD i 0))).1)).1)
        ∧ (fFmt w = 2 → fFn w = 0 → StepsWithVF c (fRd w) ((t.core c).vr (fRd w)) ((t.core c).fflags) s t ∧ ∀ i : Fin 32, ((t.core c).vElems (fRd w) 2).getD i 0 = ((⟨16, 5, 10, 15, true, true⟩ : FloatFmt).round ((((⟨16, 5, 10, 15, true, true⟩ : FloatFmt).value (((s.core c).vElems (fRa w) 2).getD i 0)).add ((⟨16, 5, 10, 15, true, true⟩ : FloatFmt).value (((s.core c).vElems (fRb w) 2).getD i 0))).1)).1)
        ∧ (fFmt w = 2 → fFn w = 1 → StepsWithVF c (fRd w) ((t.core c).vr (fRd w)) ((t.core c).fflags) s t ∧ ∀ i : Fin 32, ((t.core c).vElems (fRd w) 2).getD i 0 = ((⟨16, 5, 10, 15, true, true⟩ : FloatFmt).round ((((⟨16, 5, 10, 15, true, true⟩ : FloatFmt).value (((s.core c).vElems (fRa w) 2).getD i 0)).add ((⟨16, 5, 10, 15, true, true⟩ : FloatFmt).value (((s.core c).vElems (fRb w) 2).getD i 0)).neg).1)).1)
        ∧ (fFmt w = 2 → fFn w = 2 → StepsWithVF c (fRd w) ((t.core c).vr (fRd w)) ((t.core c).fflags) s t ∧ ∀ i : Fin 32, ((t.core c).vElems (fRd w) 2).getD i 0 = ((⟨16, 5, 10, 15, true, true⟩ : FloatFmt).round ((((⟨16, 5, 10, 15, true, true⟩ : FloatFmt).value (((s.core c).vElems (fRa w) 2).getD i 0)).mul ((⟨16, 5, 10, 15, true, true⟩ : FloatFmt).value (((s.core c).vElems (fRb w) 2).getD i 0))).1)).1))
  ∧ (∀ (s : State) (c : CoreId) (w : Nat),
      Issues s c .vabsNeg w →
      Completes (.vabsVneg c) s fun t =>
        (fFmt w ∉ [0, 1, 2, 10, 11] ∨ fRb w ≠ 0 → t = s.raise c 1)
        ∧ (fFmt w = 11 → fRb w = 0 → fFn w = 5 → StepsWithV c (fRd w) ((t.core c).vr (fRd w)) s t ∧ ∀ i : Fin 16, ((t.core c).vElems (fRd w) 11).getD i 0 = (sInt 32 (((s.core c).vElems (fRa w) 11).getD i 0)).natAbs % 2 ^ 32)
        ∧ (fFmt w = 11 → fRb w = 0 → fFn w = 6 → StepsWithV c (fRd w) ((t.core c).vr (fRd w)) s t ∧ ∀ i : Fin 16, ((t.core c).vElems (fRd w) 11).getD i 0 = (2 ^ 32 - ((s.core c).vElems (fRa w) 11).getD i 0) % 2 ^ 32)
        ∧ (fFmt w = 10 → fRb w = 0 → fFn w = 5 → StepsWithV c (fRd w) ((t.core c).vr (fRd w)) s t ∧ ∀ i : Fin 64, ((t.core c).vElems (fRd w) 10).getD i 0 = (sInt 8 (((s.core c).vElems (fRa w) 10).getD i 0)).natAbs % 2 ^ 8)
        ∧ (fFmt w = 10 → fRb w = 0 → fFn w = 6 → StepsWithV c (fRd w) ((t.core c).vr (fRd w)) s t ∧ ∀ i : Fin 64, ((t.core c).vElems (fRd w) 10).getD i 0 = (2 ^ 8 - ((s.core c).vElems (fRa w) 10).getD i 0) % 2 ^ 8)
        ∧ (fFmt w = 0 → fRb w = 0 → fFn w = 5 → StepsWithV c (fRd w) ((t.core c).vr (fRd w)) s t ∧ ∀ i : Fin 16, ((fp32.value (((s.core c).vElems (fRa w) 0).getD i 0)).isNan = false → ((t.core c).vElems (fRd w) 0).getD i 0 = ((s.core c).vElems (fRa w) 0).getD i 0 % 2 ^ 31))
        ∧ (fFmt w = 0 → fRb w = 0 → fFn w = 6 → StepsWithV c (fRd w) ((t.core c).vr (fRd w)) s t ∧ ∀ i : Fin 16, ((fp32.value (((s.core c).vElems (fRa w) 0).getD i 0)).isNan = false → ((t.core c).vElems (fRd w) 0).getD i 0 = ((s.core c).vElems (fRa w) 0).getD i 0 ^^^ 2 ^ 31))
        ∧ (fFmt w = 1 → fRb w = 0 → fFn w = 5 → StepsWithV c (fRd w) ((t.core c).vr (fRd w)) s t ∧ ∀ i : Fin 32, (((⟨16, 8, 7, 127, true, true⟩ : FloatFmt).value (((s.core c).vElems (fRa w) 1).getD i 0)).isNan = false → ((t.core c).vElems (fRd w) 1).getD i 0 = ((s.core c).vElems (fRa w) 1).getD i 0 % 2 ^ 15))
        ∧ (fFmt w = 1 → fRb w = 0 → fFn w = 6 → StepsWithV c (fRd w) ((t.core c).vr (fRd w)) s t ∧ ∀ i : Fin 32, (((⟨16, 8, 7, 127, true, true⟩ : FloatFmt).value (((s.core c).vElems (fRa w) 1).getD i 0)).isNan = false → ((t.core c).vElems (fRd w) 1).getD i 0 = ((s.core c).vElems (fRa w) 1).getD i 0 ^^^ 2 ^ 15)))
  ∧ (∀ (s : State) (c : CoreId) (w : Nat),
      Issues s c .vfma w →
      Completes (.vfma c) s fun t =>
        (2 < fFmt w → t = s.raise c 1)
        ∧ (fFmt w = 0 → StepsWithVF c (fRd w) ((t.core c).vr (fRd w)) ((t.core c).fflags) s t ∧ ∀ i : Fin 16, ((t.core c).vElems (fRd w) 0).getD i 0 = (fp32.round (((fp32.value (((s.core c).vElems (fRa w) 0).getD i 0)).mul (fp32.value (((s.core c).vElems (fRb w) 0).getD i 0))).1.add (fp32.value (((s.core c).vElems (fRd w) 0).getD i 0))).1).1)
        ∧ (fFmt w = 1 → StepsWithVF c (fRd w) ((t.core c).vr (fRd w)) ((t.core c).fflags) s t ∧ ∀ i : Fin 32, ((t.core c).vElems (fRd w) 1).getD i 0 = ((⟨16, 8, 7, 127, true, true⟩ : FloatFmt).round ((((⟨16, 8, 7, 127, true, true⟩ : FloatFmt).value (((s.core c).vElems (fRa w) 1).getD i 0)).mul ((⟨16, 8, 7, 127, true, true⟩ : FloatFmt).value (((s.core c).vElems (fRb w) 1).getD i 0))).1.add ((⟨16, 8, 7, 127, true, true⟩ : FloatFmt).value (((s.core c).vElems (fRd w) 1).getD i 0))).1).1)
        ∧ (fFmt w = 2 → StepsWithVF c (fRd w) ((t.core c).vr (fRd w)) ((t.core c).fflags) s t ∧ ∀ i : Fin 32, ((t.core c).vElems (fRd w) 2).getD i 0 = ((⟨16, 5, 10, 15, true, true⟩ : FloatFmt).round ((((⟨16, 5, 10, 15, true, true⟩ : FloatFmt).value (((s.core c).vElems (fRa w) 2).getD i 0)).mul ((⟨16, 5, 10, 15, true, true⟩ : FloatFmt).value (((s.core c).vElems (fRb w) 2).getD i 0))).1.add ((⟨16, 5, 10, 15, true, true⟩ : FloatFmt).value (((s.core c).vElems (fRd w) 2).getD i 0))).1).1))
  ∧ (∀ (s : State) (c : CoreId) (w : Nat),
      Issues s c .vcvt w →
      Completes (.vcvt c) s fun t =>
        (fFmt w ∉ [0, 1, 2, 3, 4, 10, 11] ∨ bits w 0 4 ∉ [0, 1, 2, 3, 4, 10, 11] → t = s.raise c 1)
        ∧ (fFmt w ∈ [0, 1, 2, 3, 4, 10, 11] → bits w 0 4 ∈ [0, 1, 2, 3, 4, 10, 11] → fmtBits (fFmt w) = fmtBits (bits w 0 4) → StepsWithVF c (fRd w) ((t.core c).vr (fRd w)) ((t.core c).fflags) s t ∧ ∀ i : Fin 64, (i.val < 512 / fmtBits (bits w 0 4) → ((t.core c).vElems (fRd w) (bits w 0 4)).getD i 0 = (convert (bits w 0 4) (elemValue (fFmt w) (((s.core c).vElems (fRa w) (fFmt w)).getD i 0))).1 % 2 ^ fmtBits (bits w 0 4)))
        ∧ (fFmt w ∈ [0, 1, 2, 3, 4, 10, 11] → bits w 0 4 ∈ [0, 1, 2, 3, 4, 10, 11] → fmtBits (fFmt w) < fmtBits (bits w 0 4) → StepsWithVF c (fRd w) ((t.core c).vr (fRd w)) ((t.core c).fflags) s t ∧ ∀ i : Fin 64, (i.val < 512 / fmtBits (bits w 0 4) → ((t.core c).vElems (fRd w) (bits w 0 4)).getD i 0
            = (convert (bits w 0 4) (elemValue (fFmt w) (((s.core c).vElems (fRa w) (fFmt w)).getD (i.val + (if bitAt w 4 then 512 / fmtBits (fFmt w) / 2 else 0)) 0))).1 % 2 ^ fmtBits (bits w 0 4)))
        ∧ (fFmt w ∈ [0, 1, 2, 3, 4, 10, 11] → bits w 0 4 ∈ [0, 1, 2, 3, 4, 10, 11] → fmtBits (bits w 0 4) < fmtBits (fFmt w) → StepsWithVF c (fRd w) ((t.core c).vr (fRd w)) ((t.core c).fflags) s t ∧ ∀ i : Fin 64, (i.val < 512 / fmtBits (bits w 0 4) → ((t.core c).vElems (fRd w) (bits w 0 4)).getD i 0
            = (if (if bitAt w 4 then 512 / fmtBits (bits w 0 4) / 2 else 0) ≤ i.val ∧ i.val < (if bitAt w 4 then 512 / fmtBits (bits w 0 4) / 2 else 0) + 512 / fmtBits (fFmt w) then
                (convert (bits w 0 4) (elemValue (fFmt w) (((s.core c).vElems (fRa w) (fFmt w)).getD (i.val - (if bitAt w 4 then 512 / fmtBits (bits w 0 4) / 2 else 0)) 0))).1 % 2 ^ fmtBits (bits w 0 4) else ((s.core c).vElems (fRd w) (bits w 0 4)).getD i 0))))
  ∧ (∀ (s : State) (c : CoreId) (w : Nat),
      Issues s c .vqmx w →
      Completes (.vqmx c) s fun t =>
        (fFmt w ∉ [5, 6, 7, 8, 9] ∨ (bitAt w 0 = false ∧ fRa w % 2 = 1) → t = s.raise c 1)
        ∧ (fFmt w ∈ [5, 6, 7, 8, 9] → bitAt w 0 = true ∨ fRa w % 2 = 0 → StepsWithVF c (fRd w) ((t.core c).vr (fRd w)) ((t.core c).fflags) s.fresh t
            ∧ leAt ((t.core c).vBytes (fRd w)) 63 1 = (quantize (fFmt w) (bitAt w 1) (if bitAt w 0 then ((s.core c).vElems (fRa w) 1).map (elemValue 1) else ((s.core c).vElems (fRa w) 0 ++ (s.core c).vElems (fRa w + 1) 0).map (elemValue 0))).1
            ∧ ∀ i : Fin 32, (unpackElems (fmtBits (fFmt w)) ((t.core c).vBytes (fRd w)) 32).getD i 0 = ((quantize (fFmt w) (bitAt w 1) (if bitAt w 0 then ((s.core c).vElems (fRa w) 1).map (elemValue 1) else ((s.core c).vElems (fRa w) 0 ++ (s.core c).vElems (fRa w + 1) 0).map (elemValue 0))).2.1.getD i 0) % 2 ^ fmtBits (fFmt w)))
  ∧ (∀ (s : State) (c : CoreId) (w : Nat),
      Issues s c .vdqmx w →
      Completes (.vdqmx c) s fun t =>
        (fFmt w ∉ [5, 6, 7, 8, 9] ∨ (bitAt w 0 = false ∧ fRd w % 2 = 1) → t = s.raise c 1)
        ∧ (fFmt w ∈ [5, 6, 7, 8, 9] → bitAt w 0 = true → StepsWithVF c (fRd w) ((t.core c).vr (fRd w)) ((t.core c).fflags) s t ∧ ∀ i : Fin 32, ((t.core c).vElems (fRd w) 1).getD i 0 = (convert 1 (mxValue (fFmt w) (leAt ((s.core c).vBytes (fRa w)) 63 1) ((unpackElems (fmtBits (fFmt w)) ((s.core c).vBytes (fRa w)) 32).getD i 0))).1 % 2 ^ 16)
        ∧ (fFmt w ∈ [5, 6, 7, 8, 9] → bitAt w 0 = false → fRd w % 2 = 0 → (∀ i : Fin 32, (((t.core c).vElems (fRd w) 0) ++ ((t.core c).vElems (fRd w + 1) 0)).getD i 0
              = (convert 0 (mxValue (fFmt w) (leAt ((s.core c).vBytes (fRa w)) 63 1) ((unpackElems (fmtBits (fFmt w)) ((s.core c).vBytes (fRa w)) 32).getD i 0))).1 % 2 ^ 32)
            ∧ (∀ k : Nat, (k ≠ fRd w → k ≠ fRd w + 1 → (t.core c).vr k = (s.core c).vr k)) ∧ CoreBecomes c { (s.core c).next with v := (t.core c).v, fflags := (t.core c).fflags } s t))
  ∧ (∀ (s : State) (c : CoreId) (w : Nat),
      Issues s c .vhred w →
      Completes (.vhred c) s fun t =>
        (fFmt w ≠ 0 → fFmt w ≠ 11 → t = s.raise c 1)
        ∧ (fFmt w = 11 → fFn w = 0 → StepsWithVF c (fRd w) ((t.core c).vr (fRd w)) ((t.core c).fflags) s t ∧ ((t.core c).vElems (fRd w) 11).getD 0 0 = ((List.range 16).foldl (fun a i => a + ((s.core c).vElems (fRa w) 11).getD i 0) 0) % 2 ^ 32 ∧ ∀ i : Fin 16, (i.val ≠ 0 → ((t.core c).vElems (fRd w) 11).getD i 0 = 0))
        ∧ (fFmt w = 11 → fFn w = 1 → StepsWithVF c (fRd w) ((t.core c).vr (fRd w)) ((t.core c).fflags) s t ∧ ∀ i : Fin 16, sInt 32 (((s.core c).vElems (fRa w) 11).getD i 0) ≤ sInt 32 (((t.core c).vElems (fRd w) 11).getD 0 0))
        ∧ (fFmt w = 11 → fFn w = 2 → StepsWithVF c (fRd w) ((t.core c).vr (fRd w)) ((t.core c).fflags) s t ∧ ∀ i : Fin 16, sInt 32 (((t.core c).vElems (fRd w) 11).getD 0 0) ≤ sInt 32 (((s.core c).vElems (fRa w) 11).getD i 0))
        ∧ (fFmt w = 0 → fFn w = 0 → StepsWithVF c (fRd w) ((t.core c).vr (fRd w)) ((t.core c).fflags) s t ∧ ((t.core c).vElems (fRd w) 0).getD 0 0 = (pairTree add32 4 ((s.core c).vElems (fRa w) 0)).1 ∧ ∀ i : Fin 16, (i.val ≠ 0 → ((t.core c).vElems (fRd w) 0).getD i 0 = 0)))

/-- TZERO, TLD, TST and TMMA act on the accumulators as R284 and R288 give. TZERO clears one accumulator; TLD loads its 256 elements
from 1 KiB at ga; TST stores it, an INT32 accumulator as it is, transposed where FN[0] is set; TMMA adds 16 by 16 dot products of 32
elements, exactly modulo 2^32 for INT8. Reserved bits, formats, boundaries, alignment, code regions and uncorrectable words raise their
exceptions; after an uncorrectable tile the accumulator is a free value. Other accumulators, registers and memories stay. -/
def Obligations.TensorInstructions : Prop :=
  (∀ (s : State) (c : CoreId) (w : Nat),
      Issues s c .tzero w →
      Completes (.tzero c) s fun t =>
        (bits w 22 3 ≠ 0 → t = s.raise c 1)
        ∧ (bits w 22 3 = 0 → (∀ n : Fin 256, (t.core c).accEl (fAd w) n = 0) ∧ (∀ k : Nat, (k < 256 * fAd w ∨ 256 * fAd w + 256 ≤ k → (t.core c).acc.getD k 0 = (s.core c).acc.getD k 0)) ∧ CoreBecomes c { (s.core c).next with acc := (t.core c).acc } s t))
  ∧ (∀ (s : State) (c : CoreId) (w : Nat) (ecc : Bool),
      Issues s c .tld w →
      Completes (.tld c ecc) s fun t =>
        (bits w 22 3 ≠ 0 → t = s.raise c 1)
        ∧ (bits w 22 3 = 0 → s.spadOut c ((s.core c).gr (fRa w)).toNat 1024 = true → t = s.raise c 3 ((s.core c).gr (fRa w)).toNat)
        ∧ (bits w 22 3 = 0 → s.spadOut c ((s.core c).gr (fRa w)).toNat 1024 = false → ((s.core c).gr (fRa w)).toNat % 64 ≠ 0 → t = s.raise c 4 ((s.core c).gr (fRa w)).toNat)
        ∧ (bits w 22 3 = 0 → s.spadOut c ((s.core c).gr (fRa w)).toNat 1024 = false → ((s.core c).gr (fRa w)).toNat % 64 = 0 → ecc = true → t = s.spadUe c ((s.core c).gr (fRa w)).toNat)
        ∧ (bits w 22 3 = 0 → s.spadOut c ((s.core c).gr (fRa w)).toNat 1024 = false → ((s.core c).gr (fRa w)).toNat % 64 = 0 → ecc = false → (∀ n : Fin 256, (t.core c).accEl (fAd w) n = leAt (memRead (s.core c).spad ((s.core c).gr (fRa w)).toNat 1024) (4 * n) 4)
            ∧ (∀ k : Nat, (k < 256 * fAd w ∨ 256 * fAd w + 256 ≤ k → (t.core c).acc.getD k 0 = (s.core c).acc.getD k 0)) ∧ CoreBecomes c { (s.core c).next with acc := (t.core c).acc } s t))
  ∧ (∀ (s : State) (c : CoreId) (w : Nat) (ecc : Bool),
      Issues s c .tst w →
      Completes (.tst c ecc) s fun t =>
        (bits w 22 3 ≠ 0 ∨ fFmt w ∉ [0, 1, 2, 3, 4, 11] → t = s.raise c 1)
        ∧ (bits w 22 3 = 0 → fFmt w = 11 → s.spadOut c ((s.core c).gr (fRa w)).toNat 1024 = true → t = s.raise c 3 ((s.core c).gr (fRa w)).toNat)
        ∧ (bits w 22 3 = 0 → fFmt w = 11 → s.spadOut c ((s.core c).gr (fRa w)).toNat 1024 = false → ((s.core c).gr (fRa w)).toNat % 64 ≠ 0 → t = s.raise c 4 ((s.core c).gr (fRa w)).toNat)
        ∧ (bits w 22 3 = 0 → fFmt w = 11 → s.spadOut c ((s.core c).gr (fRa w)).toNat 1024 = false → ((s.core c).gr (fRa w)).toNat % 64 = 0 → s.touchesCode c ((s.core c).gr (fRa w)).toNat 1024 = true → t = s.raise c 5 ((s.core c).gr (fRa w)).toNat)
        ∧ (bits w 22 3 = 0 → fFmt w = 11 → s.spadOut c ((s.core c).gr (fRa w)).toNat 1024 = false → ((s.core c).gr (fRa w)).toNat % 64 = 0 → s.touchesCode c ((s.core c).gr (fRa w)).toNat 1024 = false → ecc = true → t = s.spadUe c ((s.core c).gr (fRa w)).toNat)
        ∧ (bits w 22 3 = 0 → fFmt w = 11 → s.spadOut c ((s.core c).gr (fRa w)).toNat 1024 = false → ((s.core c).gr (fRa w)).toNat % 64 = 0 → s.touchesCode c ((s.core c).gr (fRa w)).toNat 1024 = false → ecc = false →
            (∀ n : Fin 256, leAt (memRead (t.core c).spad ((s.core c).gr (fRa w)).toNat 1024) (4 * n) 4 = (s.core c).accEl (fAd w) (if bitAt w 0 then n.val % 16 * 16 + n.val / 16 else n.val))
            ∧ (∀ k : Nat, (k < ((s.core c).gr (fRa w)).toNat ∨ ((s.core c).gr (fRa w)).toNat + 1024 ≤ k → memByte (t.core c).spad k = memByte (s.core c).spad k))
            ∧ CoreBecomes c { (s.core c).next with spad := (t.core c).spad, fflags := (t.core c).fflags } s t)
        ∧ (bits w 22 3 = 0 → fFmt w = 0 → s.spadOut c ((s.core c).gr (fRa w)).toNat 1024 = false → ((s.core c).gr (fRa w)).toNat % 64 = 0 → s.touchesCode c ((s.core c).gr (fRa w)).toNat 1024 = false → ecc = false →
            (∀ n : Fin 256, leAt (memRead (t.core c).spad ((s.core c).gr (fRa w)).toNat 1024) (4 * n) 4 = (convert 0 (fp32.value ((s.core c).accEl (fAd w) (if bitAt w 0 then n.val % 16 * 16 + n.val / 16 else n.val)))).1 % 2 ^ 32)
            ∧ CoreBecomes c { (s.core c).next with spad := (t.core c).spad, fflags := (t.core c).fflags } s t))
  ∧ (∀ (s : State) (c : CoreId) (w : Nat) (ecc : Bool),
      Issues s c .tmma w →
      Completes (.tmma c ecc) s fun t =>
        (bits w 22 3 ≠ 0 ∨ fFmt w = 0 ∨ 10 < fFmt w → t = s.raise c 1)
        ∧ (bits w 22 3 = 0 → 1 ≤ fFmt w → fFmt w ≤ 10 → s.spadOut c ((s.core c).gr (fRa w)).toNat (tileBytes (fFmt w)) = false → ((s.core c).gr (fRa w)).toNat % 64 = 0 → s.spadOut c ((s.core c).gr (fRb w)).toNat (tileBytes (fFmt w)) = true → t = s.raise c 3 ((s.core c).gr (fRb w)).toNat)
        ∧ (bits w 22 3 = 0 → fFmt w = 10 → s.spadOut c ((s.core c).gr (fRa w)).toNat 512 = false → ((s.core c).gr (fRa w)).toNat % 64 = 0 → s.spadOut c ((s.core c).gr (fRb w)).toNat 512 = false → ((s.core c).gr (fRb w)).toNat % 64 = 0 → ecc = false →
            (∀ n : Fin 256, ((t.core c).accEl (fAd w) n : Int) = (((s.core c).accEl (fAd w) n : Int) + (List.range 32).foldl (fun a k => a + sInt 8 (memByte (s.core c).spad (((s.core c).gr (fRa w)).toNat + 32 * (n.val / 16) + k)).toNat * sInt 8 (memByte (s.core c).spad (((s.core c).gr (fRb w)).toNat + 32 * (n.val % 16) + k)).toNat) 0) % 2 ^ 32)
            ∧ (∀ k : Nat, (k < 256 * fAd w ∨ 256 * fAd w + 256 ≤ k → (t.core c).acc.getD k 0 = (s.core c).acc.getD k 0)) ∧ CoreBecomes c { (s.core c).next with acc := (t.core c).acc } s t)
        ∧ (bits w 22 3 = 0 → 1 ≤ fFmt w → fFmt w ≤ 10 → s.spadOut c ((s.core c).gr (fRa w)).toNat (tileBytes (fFmt w)) = false → ((s.core c).gr (fRa w)).toNat % 64 = 0 → s.spadOut c ((s.core c).gr (fRb w)).toNat (tileBytes (fFmt w)) = false → ((s.core c).gr (fRb w)).toNat % 64 = 0 → ecc = false →
            (∀ k : Nat, (k < 256 * fAd w ∨ 256 * fAd w + 256 ≤ k → (t.core c).acc.getD k 0 = (s.core c).acc.getD k 0)) ∧ CoreBecomes c { (s.core c).next with acc := (t.core c).acc, fflags := (t.core c).fflags } s t))

/-- SLOTW, SWAIT and DWAIT go on when their condition holds, else wait with the PC kept until their release. Where the condition that
Table 10.6 gives holds, the instruction steps past itself and only its core changes; where it does not, the core waits for exactly that
slot, word or channel count and its PC stays. A release steps a RUNNING core past a wait of its own kind whose condition holds and
changes no other state; without such a wait it changes nothing. An SWAIT outside the scratchpad raises SPAD_BOUND, one not on an 8-byte
boundary ALIGN. -/
def Obligations.CoreWaits : Prop :=
  (∀ (s : State) (c : CoreId) (w : Nat),
      Issues s c .slotw w →
      Completes (.slotw c) s fun t =>
        (((s.core c).gr (fRa w)).toNat ≤ s.slot → CoreBecomes c (s.core c).next s t)
        ∧ (s.slot < ((s.core c).gr (fRa w)).toNat → CoreBecomes c { s.core c with wait := some (.slot ((s.core c).gr (fRa w)).toNat) } s t))
  ∧ (∀ (s : State) (c : CoreId),
      Completes (.slotwRelease c) s fun t =>
        (∀ n, (s.core c).wait = some (.slot n) → s.coreSt c = 2 → s.coreStopped c = false → n ≤ s.slot → CoreBecomes c { (s.core c).next with wait := none } s t)
        ∧ (∀ n, (s.core c).wait = some (.slot n) → s.slot < n → t = s)
        ∧ (∀ a v, (s.core c).wait = some (.word a v) → t = s)
        ∧ (∀ i n, (s.core c).wait = some (.chan i n) → t = s)
        ∧ ((s.core c).wait = none ∨ s.coreSt c ≠ 2 ∨ s.coreStopped c = true → t = s))
  ∧ (∀ (s : State) (c : CoreId) (w : Nat),
      Issues s c .swait w →
      Completes (.swait c) s fun t =>
        (s.spadOut c ((s.core c).gr (fRa w)).toNat 8 = true → t = s.raise c 3 ((s.core c).gr (fRa w)).toNat)
        ∧ (s.spadOut c ((s.core c).gr (fRa w)).toNat 8 = false → ((s.core c).gr (fRa w)).toNat % 8 ≠ 0 → t = s.raise c 4 ((s.core c).gr (fRa w)).toNat)
        ∧ (s.spadOut c ((s.core c).gr (fRa w)).toNat 8 = false → ((s.core c).gr (fRa w)).toNat % 8 = 0 →
            ((s.core c).gr (fRb w)).toNat ≤ leNat (memRead (s.core c).spad ((s.core c).gr (fRa w)).toNat 8) → CoreBecomes c (s.core c).next s t)
        ∧ (s.spadOut c ((s.core c).gr (fRa w)).toNat 8 = false → ((s.core c).gr (fRa w)).toNat % 8 = 0 →
            leNat (memRead (s.core c).spad ((s.core c).gr (fRa w)).toNat 8) < ((s.core c).gr (fRb w)).toNat →
            CoreBecomes c { s.core c with wait := some (.word ((s.core c).gr (fRa w)).toNat ((s.core c).gr (fRb w)).toNat) } s t))
  ∧ (∀ (s : State) (c : CoreId),
      Completes (.swaitRelease c) s fun t =>
        (∀ a v, (s.core c).wait = some (.word a v) → s.coreSt c = 2 → s.coreStopped c = false → v ≤ leNat (memRead (s.core c).spad a 8) → CoreBecomes c { (s.core c).next with wait := none } s t)
        ∧ (∀ a v, (s.core c).wait = some (.word a v) → leNat (memRead (s.core c).spad a 8) < v → t = s)
        ∧ (∀ n, (s.core c).wait = some (.slot n) → t = s)
        ∧ (∀ i n, (s.core c).wait = some (.chan i n) → t = s)
        ∧ ((s.core c).wait = none ∨ s.coreSt c ≠ 2 ∨ s.coreStopped c = true → t = s))
  ∧ (∀ (s : State) (c : CoreId) (w : Nat),
      Issues s c .dwait w →
      Completes (.dwait c) s fun t =>
        ((((s.core c).chans.getD (fRd w % 4) {}).queue.length : Int) ≤ (fImm w).toInt → CoreBecomes c (s.core c).next s t)
        ∧ ((fImm w).toInt < (((s.core c).chans.getD (fRd w % 4) {}).queue.length : Int) →
            CoreBecomes c { s.core c with wait := some (.chan (fRd w % 4) (fImm w).toInt.toNat) } s t))
  ∧ (∀ (s : State) (c : CoreId),
      Completes (.dwaitRelease c) s fun t =>
        (∀ i n, (s.core c).wait = some (.chan i n) → s.coreSt c = 2 → s.coreStopped c = false → ((s.core c).chans.getD i {}).queue.length ≤ n → CoreBecomes c { (s.core c).next with wait := none } s t)
        ∧ (∀ i n, (s.core c).wait = some (.chan i n) → n < ((s.core c).chans.getD i {}).queue.length → t = s)
        ∧ (∀ n, (s.core c).wait = some (.slot n) → t = s)
        ∧ (∀ a v, (s.core c).wait = some (.word a v) → t = s)
        ∧ ((s.core c).wait = none ∨ s.coreSt c ≠ 2 ∨ s.coreStopped c = true → t = s))

/-- Events start, end and complete, messages move, cores halt, break and time out as R294 to R302 give. EVENT_START takes the oldest
event: STATE RUNNING, g1 the kind, v31 its record, the PC at its entry. END of an event leaves the core READY with no event queued; CMPL
completes the INVOKE once, when no transfer of the event is outstanding, and has no other effect in any other event. MSG tells 0, 1 or
2; a message is queued at its target or counted. INVOKE goes to its dispatch core or completes with the status of R297. WATCHDOG raises
9 at LIMIT_CYCLES. With DBG_INVASIVE in force BRK and DEBUG_HALT halt a drained core, DEBUG_RESUME returns it; without it BRK raises
BREAK. -/
def Obligations.CoreEventsAndHalts : Prop :=
  (∀ (s : State) (c : CoreId),
      Completes (.eventStart c) s fun t =>
        ((s.coreSt c ≠ 1 ∧ s.coreSt c ≠ 2) ∨ (s.core c).cur.isSome = true ∨ s.coreStopped c = true ∨ (s.core c).haltFreeze = true ∨ (s.core c).haltDebug = true ∨ (s.core c).events = [] → t = s)
        ∧ CoresBut [c.val] s t ∧ RegsBut [Reg.CLUSTER_CORE_STS.off (c / 64) (c % 64)] s t ∧ t = { s with regs := t.regs, cores := t.cores, tally := t.tally })
  ∧ (∀ (s : State) (c : CoreId) (ev : CoreEv) (rest : List CoreEv),
      (s.coreSt c = 1 ∨ s.coreSt c = 2) ∧ (s.core c).cur = none ∧ s.coreStopped c = false ∧ (s.core c).events = ev :: rest →
      (s.core c).haltFreeze = false ∧ (s.core c).haltDebug = false ∧ (s.core c).preload = false ∧ s.inP2 = false ∧ (s.gated (c / 64) = false ∨ c % 64 < 8) →
      ev.kind = 1 → s.stageCore c = true → s.frameRoom c = true →
      Completes (.eventStart c) s fun t =>
        s.coreSt c < 8 ∧ t.coreSt c = 2 ∧ (t.core c).cur = some ev ∧ (t.core c).events = rest ∧ (t.core c).pc = (s.core c).entryPc ev.kind
        ∧ (t.core c).gr 1 = BitVec.ofNat 64 ev.kind ∧ (t.core c).vBytes 31 = (ev.v31 ++ List.replicate 64 0).take 64
        ∧ (ev.kind = 1 → (t.core c).gr 2 = (s.core c).gr 2) ∧ (ev.kind ≠ 1 → (t.core c).gr 2 = BitVec.ofNat 64 ev.g2)
        ∧ (rest.length < 32 → t.get (Reg.CLUSTER_CORE_STS.EVENTS (c / 64) (c % 64)) = rest.length)
        ∧ t.core c = { s.core c with g := (t.core c).g, v := (t.core c).v, pc := (t.core c).pc, cur := some ev, events := rest, handler := false, hadExc := false, cmplDone := false, cycle0 := s.time.cycles })
  ∧ (∀ (s : State) (c : CoreId) (w : Nat) (ev : CoreEv),
      Issues s c .end_ w ∧ (s.core c).cur = some ev ∧ (ev.kind ≠ 0 ∨ (s.core c).cmplDone = true) →
      Completes (.endEvent c) s fun t =>
        t.core c = { (s.core c).next with cur := none, handler := false, hadExc := false, cmplDone := false, wait := none }
        ∧ ((s.core c).events = [] → t.coreSt c = 1) ∧ ((s.core c).events ≠ [] → t.coreSt c = s.coreSt c)
        ∧ CoresBut [c.val] s t ∧ FieldsBut [Reg.CLUSTER_CORE_STS.STATE (c / 64) (c % 64)] s t ∧ t = { s with regs := t.regs, cores := t.cores })
  ∧ (∀ (s u : State) (c : CoreId) (w : Nat) (ev : CoreEv),
      Issues s c .end_ w ∧ (s.core c).cur = some ev ∧ ev.kind = 0 ∧ (s.core c).cmplDone = false →
      u = (s.setCore c { (s.core c).next with cur := none, handler := false, hadExc := false, cmplDone := false, wait := none }).endEntry ev.queue ev.pos (if (s.core c).hadExc then 1 else 0) →
      Completes (.endEvent c) s fun t =>
        ((u.core c).events = [] → t = u.setCoreSt c 1) ∧ ((u.core c).events ≠ [] → t = u) ∧ CoreOnly s t)
  ∧ (∀ (s : State) (c : CoreId) (w : Nat) (ev : CoreEv),
      Issues s c .cmpl w ∧ (s.core c).cur = some ev ∧ (s.core c).cmpls = [] →
      Completes (.cmpl c) s fun t =>
        (ev.kind ≠ 0 ∨ (s.core c).handler = true ∨ (s.core c).cmplDone = true → CoreBecomes c (s.core c).next s t)
        ∧ (ev.kind = 0 → (s.core c).handler = false → (s.core c).cmplDone = false → (s.core c).outstanding ev.id = true →
            CoreBecomes c { (s.core c).next with cmplDone := true, cmpls := [{ ev := ev.id, queue := ev.queue, pos := ev.pos, status := if isStatus (bits ((s.core c).gr (fRa w)).toNat 0 8) then bits ((s.core c).gr (fRa w)).toNat 0 8 else 0x10, bytes := bits ((s.core c).gr (fRa w)).toNat 32 32 }] } s t)
        ∧ (ev.kind = 0 → (s.core c).handler = false → (s.core c).cmplDone = false → (s.core c).outstanding ev.id = false →
            t = (s.setCore c { (s.core c).next with cmplDone := true }).endEntry ev.queue ev.pos (if isStatus (bits ((s.core c).gr (fRa w)).toNat 0 8) then bits ((s.core c).gr (fRa w)).toNat 0 8 else 0x10) (bits ((s.core c).gr (fRa w)).toNat 32 32)))
  ∧ (∀ (s : State) (c : CoreId) (w : Nat),
      Issues s c .msg w →
      Completes (.msg c) s fun t =>
        (s.msgTargetOk c (((s.core c).gr (fRa w)).toNat % 4096) = false → StepsWithG c (fRd w) 2 s t)
        ∧ (s.msgTargetOk c (((s.core c).gr (fRa w)).toNat % 4096) = true → 16 ≤ (s.cluster (c / 64)).msgs.length → StepsWithG c (fRd w) 1 s t)
        ∧ (s.msgTargetOk c (((s.core c).gr (fRa w)).toNat % 4096) = true → (s.cluster (c / 64)).msgs.length < 16 → StepsWithG c (fRd w) 0 { s with clusters := t.clusters } t
            ∧ t.cluster (c / 64) = { s.cluster (c / 64) with msgs := (s.cluster (c / 64)).msgs ++ [{ target := ((s.core c).gr (fRa w)).toNat % 4096, sender := c, cid := cidPart (s.core c).cid * 1024 + 0x3FF, bytes := (s.core c).vBytes (fRb w) }] }))
  ∧ (∀ (s : State) (k : ClusterId),
      Completes (.messageDelivery k) s fun t =>
        ((s.cluster k).msgs = [] → t = s)
        ∧ t = { s with regs := t.regs, cores := t.cores, clusters := t.clusters, tally := t.tally })
  ∧ (∀ (s : State) (k : ClusterId) (m : CoreMsg) (ms : List CoreMsg),
      (s.cluster k).msgs = m :: ms →
      Completes (.messageDelivery k) s fun t =>
        t.cluster k = { s.cluster k with msgs := ms }
        ∧ (s.coreStopped m.target = true → t.get (Reg.CLUSTER_FENCE_DROP.COUNT (m.target / 64)) = min (s.get (Reg.CLUSTER_FENCE_DROP.COUNT (m.target / 64)) + 1) (2 ^ (Reg.CLUSTER_FENCE_DROP.COUNT (m.target / 64)).w - 1) ∧ t.cores = s.cores)
        ∧ (s.coreStopped m.target = false → (s.coreSt m.target = 0 ∨ s.coreSt m.target = 3 ∨ s.coreSt m.target = 5 ∨ s.stageCore m.target = true ∨ 16 ≤ (s.core m.target).events.length) →
            t.get (Reg.CLUSTER_MSG_DROP.COUNT (m.target / 64)) = min (s.get (Reg.CLUSTER_MSG_DROP.COUNT (m.target / 64)) + 1) (2 ^ (Reg.CLUSTER_MSG_DROP.COUNT (m.target / 64)).w - 1) ∧ t.cores = s.cores)
        ∧ (s.coreStopped m.target = false → s.coreSt m.target = 1 ∨ s.coreSt m.target = 2 ∨ s.coreSt m.target = 4 → s.stageCore m.target = false → (s.core m.target).events.length < 16 →
            t.core m.target = { s.core m.target with events := (s.core m.target).events ++ [{ kind := 2, v31 := m.bytes, g2 := m.sender, cid := m.cid, id := (s.core m.target).evNext }], evNext := (s.core m.target).evNext + 1 } ∧ CoresBut [m.target] s t))
  ∧ (∀ (s : State) (n : BitVec 20),
      s.toIssue? n.toNat 0x11 = none →
      Completes (.invoke n) s fun t =>
        t = s)
  ∧ (∀ (s : State) (n : BitVec 20) (q : Queue) (l : Live),
      s.toIssue? n.toNat 0x11 = some (q, l) →
      Completes (.invoke n) s fun t =>
        (isCollective (leAt l.bytes 28 4) = true → leAt l.bytes 28 4 = cidPart q.cid * 2 ^ 26 + 0x3FFFF00 →
            ((s.homeCore? n.toNat).isNone = true → t = s) ∧ ((s.homeCore? n.toNat).isSome = true → t = s.modLive n.toNat l.pos (fun l => { l with issued := true })))
        ∧ (isCollective (leAt l.bytes 28 4) = true → leAt l.bytes 28 4 ≠ cidPart q.cid * 2 ^ 26 + 0x3FFFF00 → t = s.endEntry n.toNat l.pos 0x10)
        ∧ (isCollective (leAt l.bytes 28 4) = false → s.handles.at? (leAt l.bytes 28 4) = none → t = s.endEntry n.toNat l.pos 0x10)
        ∧ (isCollective (leAt l.bytes 28 4) = false → ∀ x, s.handles.at? (leAt l.bytes 28 4) = some x →
            (x.part ≠ cidPart q.cid ∨ x.dispatch = none → t = s.endEntry n.toNat l.pos 0x10)
            ∧ (x.part = cidPart q.cid → ∀ c, x.dispatch = some c →
                (s.stageCore c = true → t = s.endEntry n.toNat l.pos 0x10)
                ∧ (s.stageCore c = false → s.coreSt c = 3 → t = s.endEntry n.toNat l.pos 1)
                ∧ (s.stageCore c = false → s.coreSt c ≠ 3 → 16 ≤ (s.core c).events.length → t = s)
                ∧ (s.stageCore c = false → s.coreSt c ≠ 3 → s.coreStopped c = true → t = s)
                ∧ (s.stageCore c = false → s.coreSt c ≠ 3 → s.coreStopped c = false → (s.core c).events.length < 16 →
                    t = (s.modLive n.toNat l.pos (fun l => { l with issued := true })).pushEvent c { kind := 0, v31 := slice l.bytes 32 32 ++ leBytes 4 (leAt l.bytes 28 4) ++ leBytes 2 q.cid ++ List.replicate 26 0, g2 := q.slotOf l.pos, cid := q.cid, queue := n.toNat, pos := l.pos }
                    ∧ (t.core c).events.length = (s.core c).events.length + 1 ∧ CoresBut [c] s t)))
        ∧ CoreOnly s t)
  ∧ (∀ (s : State) (c : CoreId),
      Completes (.watchdog c) s fun t =>
        ((s.core c).limit = 0 ∨ s.time.cycles - (s.core c).cycle0 < (s.core c).limit ∨ s.coreSt c ≠ 2 ∨ (s.core c).cur = none ∨ s.coreStopped c = true → t = s)
        ∧ ((s.core c).limit ≠ 0 → (s.core c).limit ≤ s.time.cycles - (s.core c).cycle0 → s.coreSt c = 2 → (s.core c).cur ≠ none → s.coreStopped c = false → t = s.raise c 9)
        ∧ ((s.core c).limit ≠ 0 → (s.core c).limit ≤ s.time.cycles - (s.core c).cycle0 → s.coreSt c = 2 → (s.core c).cur ≠ none → s.coreStopped c = false → (s.core c).hasEntry 3 = true → (s.core c).handler = false →
            t.get (Reg.CLUSTER_CORE_STS.CAUSE (c / 64) (c % 64)) = 9 ∧ (t.core c).pc = (s.core c).entryPc 3 ∧ (t.core c).gr 1 = 3 ∧ (t.core c).handler = true ∧ (t.core c).hadExc = true
            ∧ CoresBut [c.val] s t ∧ t = { s with regs := t.regs, cores := t.cores })
        ∧ CoreOnly s t)
  ∧ (∀ (s : State) (c : CoreId) (w : Nat),
      Issues s c .brk w →
      Completes (.brk c) s fun t =>
        (s.get Reg.SEC_DBG.LEVEL ≠ 2 → t = s.raise c 0xA)
        ∧ (s.get Reg.SEC_DBG.LEVEL = 2 → (s.coreSt c = 1 ∨ s.coreSt c = 2) → (s.core c).drained = true →
            t.coreSt c = 4 ∧ t.core c = { (s.core c).next with haltDebug := true, prior := s.coreSt c } ∧ CoresBut [c.val] s t
            ∧ FieldsBut [Reg.CLUSTER_CORE_STS.STATE (c / 64) (c % 64)] s t ∧ t = { s with regs := t.regs, cores := t.cores, tally := t.tally })
        ∧ (s.get Reg.SEC_DBG.LEVEL = 2 → (s.core c).drained = false → CoreBecomes c { (s.core c).next with haltDebug := true } s t)
        ∧ CoreOnly s t)
  ∧ (∀ (s : State) (c : CoreId),
      Completes (.debugHalt c) s fun t =>
        (s.get Reg.SEC_DBG.LEVEL ≠ 2 ∨ (s.coreSt c ≠ 1 ∧ s.coreSt c ≠ 2) → t = s)
        ∧ (s.get Reg.SEC_DBG.LEVEL = 2 → (s.coreSt c = 1 ∨ s.coreSt c = 2) → (s.core c).drained = true →
            t.coreSt c = 4 ∧ t.core c = { s.core c with haltDebug := true, prior := s.coreSt c } ∧ CoresBut [c.val] s t
            ∧ FieldsBut [Reg.CLUSTER_CORE_STS.STATE (c / 64) (c % 64)] s t ∧ t = { s with regs := t.regs, cores := t.cores, tally := t.tally })
        ∧ (s.get Reg.SEC_DBG.LEVEL = 2 → (s.coreSt c = 1 ∨ s.coreSt c = 2) → (s.core c).drained = false → CoreBecomes c { s.core c with haltDebug := true } s t))
  ∧ (∀ (s : State) (c : CoreId),
      Completes (.debugResume c) s fun t =>
        (s.get Reg.SEC_DBG.LEVEL ≠ 2 → t = s)
        ∧ (s.get Reg.SEC_DBG.LEVEL = 2 → s.coreSt c = 4 → (s.core c).haltFreeze = false → (s.core c).prior < 8 →
            t.coreSt c = (s.core c).prior ∧ t.core c = { s.core c with haltDebug := false } ∧ CoresBut [c.val] s t
            ∧ FieldsBut [Reg.CLUSTER_CORE_STS.STATE (c / 64) (c % 64)] s t ∧ t = { s with regs := t.regs, cores := t.cores, tally := t.tally })
        ∧ (s.get Reg.SEC_DBG.LEVEL = 2 → (s.coreSt c ≠ 4 ∨ (s.core c).haltFreeze = true) → CoreBecomes c { s.core c with haltDebug := false } s t))

/-- A work entry starts at the head of its queue when R224 lets it, and its operation acts on a started entry only. Without a queue, or
with no fetched entry at its head, a start changes nothing but what host memory showed. A malformed head ends with MALFORMED_ENTRY, one
of a pair in ERROR or aborted before its start with ABORTED, one whose slot is stale after 4 re-fetches with DOORBELL_AHEAD; one that
waits for a trigger, or that a fence or its queue holds back, stays, and an ABORT or REVOKE_WINDOW behind it may start early; one that
is ready becomes the newest started entry of the queue, with its opcode and bytes, and the head moves by one. TRIGGERED_START acts on a
head with TRIG_WAIT only. The seven transport operations pump the queue's pair where an entry of their opcode is started and change
nothing otherwise; NOP and RECV end or post exactly their own entry. -/
def Obligations.EntriesStart : Prop :=
  (∀ (s : State) (n : BitVec 20) (seen : Seen),
      Completes (.workEntryStart n seen) s fun t =>
        (s.queue? n.toNat = none → t = s.see seen)
        ∧ (∀ q, s.queue? n.toNat = some q → q.cached.find? (fun c => c.1 == q.next) = none → t = (s.see seen).startEarly n.toNat ∧ (q.bypass? = none → t = s.see seen))
        ∧ (∀ q, s.queue? n.toNat = some q → ∀ pos k e, q.cached.find? (fun c => c.1 == q.next) = some (pos, k, e) → (s.see seen).mayStart n.toNat q (leAt e 0 1) = false → t = (s.see seen).startEarly n.toNat ∧ (q.bypass? = none → t = s.see seen))
        ∧ t = { s with regs := t.regs, scriv := t.scriv, host0 := t.host0, host1 := t.host1, held := t.held, qps := t.qps, kennel := t.kennel, trigs := t.trigs, queues := t.queues, cores := t.cores, collEnds := t.collEnds, ddrBad := t.ddrBad, hostMem0 := t.hostMem0, hostMem1 := t.hostMem1, poisoned := t.poisoned, ddr := t.ddr, out := t.out, memsys := t.memsys, freeCtr := t.freeCtr })
  ∧ (∀ (s : State) (n : BitVec 20) (seen : Seen) (q : Queue) (pos k : Nat) (e : List Byte),
      s.queue? n.toNat = some q ∧ q.cached.find? (fun c => c.1 == q.next) = some (pos, k, e) →
      (s.see seen).mayStart n.toNat q (leAt e 0 1) = true ∧ q.aborted.contains pos = false ∧ k < 4 ∧ q.fresh pos e = true →
      (actsOnQp (leAt e 0 1) && inError ((s.see seen).qpOfQueue? n.toNat)) = false →
      Completes (.workEntryStart n seen) s fun t =>
        (entFence e = true → q.live.isEmpty = false → t = (s.see seen).startEarly n.toNat)
        ∧ (entFence e = false ∨ q.live.isEmpty = true → entMalformed q.type (((s.see seen).qpOfQueue? n.toNat).map (·.ctx)) e = true → t = (s.see seen).endUnstarted n.toNat q pos e 0x10)
        ∧ (entFence e = false ∨ q.live.isEmpty = true → entMalformed q.type (((s.see seen).qpOfQueue? n.toNat).map (·.ctx)) e = false → (s.see seen).trigReady (cidPart q.cid) e = none → t = (s.see seen).endUnstarted n.toNat q pos e 0x10)
        ∧ (entFence e = false ∨ q.live.isEmpty = true → entMalformed q.type (((s.see seen).qpOfQueue? n.toNat).map (·.ctx)) e = false → (s.see seen).trigReady (cidPart q.cid) e = some false → t = (s.see seen).startEarly n.toNat))
  ∧ (∀ (s v : State) (n : BitVec 20) (seen : Seen) (q : Queue) (pos k : Nat) (e : List Byte),
      s.queue? n.toNat = some q ∧ q.cached.find? (fun c => c.1 == q.next) = some (pos, k, e) →
      (s.see seen).mayStart n.toNat q (leAt e 0 1) = true ∧ q.aborted.contains pos = false ∧ k < 4 ∧ q.fresh pos e = true →
      (actsOnQp (leAt e 0 1) && inError ((s.see seen).qpOfQueue? n.toNat)) = false →
      (entFence e = false ∨ q.live.isEmpty = true) ∧ entMalformed q.type (((s.see seen).qpOfQueue? n.toNat).map (·.ctx)) e = false →
      (s.see seen).trigReady (cidPart q.cid) e = some true ∧ actsOnQp (leAt e 0 1) = false ∧ leAt e 0 1 ≠ 0x40 →
      (s.see seen).tablesOk q.cid e = (v, none) →
      Completes (.workEntryStart n seen) s fun t =>
        t = v.takeEntry n.toNat q (v.liveOf q.cid pos e)
        ∧ (pos = q.next → q.early = [] → t.queue? n.toNat = some { q with next := q.step q.next 1, cached := q.cached.filter (fun c => c.1 != pos), live := q.live ++ [v.liveOf q.cid pos e] })
        ∧ t = { v with queues := t.queues })
  ∧ (∀ (s : State) (n : BitVec 20) (seen : Seen),
      Completes (.triggeredStart n seen) s fun t =>
        (s.headTriggered n.toNat = false → t = s) ∧ (s.headTriggered n.toNat = true → t = (s.see seen).startHead n.toNat)
        ∧ t = { s with regs := t.regs, scriv := t.scriv, host0 := t.host0, host1 := t.host1, held := t.held, qps := t.qps, kennel := t.kennel, trigs := t.trigs, queues := t.queues, cores := t.cores, collEnds := t.collEnds, ddrBad := t.ddrBad, hostMem0 := t.hostMem0, hostMem1 := t.hostMem1, poisoned := t.poisoned, ddr := t.ddr, out := t.out, memsys := t.memsys, freeCtr := t.freeCtr })
  ∧ (∀ (s : State) (n : BitVec 20) (seen : Seen) (q : Queue) (pos k : Nat) (e : List Byte),
      s.headTriggered n.toNat = true →
      s.queue? n.toNat = some q ∧ q.cached.find? (fun c => c.1 == q.next) = some (pos, k, e) →
      (s.see seen).mayStart n.toNat q (leAt e 0 1) = true ∧ q.aborted.contains pos = false ∧ k < 4 ∧ q.fresh pos e = true →
      (actsOnQp (leAt e 0 1) && inError ((s.see seen).qpOfQueue? n.toNat)) = false →
      Completes (.triggeredStart n seen) s fun t =>
        (entFence e = true → q.live.isEmpty = false → t = (s.see seen).startEarly n.toNat)
        ∧ (entFence e = false ∨ q.live.isEmpty = true → entMalformed q.type (((s.see seen).qpOfQueue? n.toNat).map (·.ctx)) e = true → t = (s.see seen).endUnstarted n.toNat q pos e 0x10)
        ∧ (entFence e = false ∨ q.live.isEmpty = true → entMalformed q.type (((s.see seen).qpOfQueue? n.toNat).map (·.ctx)) e = false → (s.see seen).trigReady (cidPart q.cid) e = none → t = (s.see seen).endUnstarted n.toNat q pos e 0x10)
        ∧ (entFence e = false ∨ q.live.isEmpty = true → entMalformed q.type (((s.see seen).qpOfQueue? n.toNat).map (·.ctx)) e = false → (s.see seen).trigReady (cidPart q.cid) e = some false → t = (s.see seen).startEarly n.toNat))
  ∧ (∀ (s v : State) (n : BitVec 20) (seen : Seen) (q : Queue) (pos k : Nat) (e : List Byte),
      s.headTriggered n.toNat = true →
      s.queue? n.toNat = some q ∧ q.cached.find? (fun c => c.1 == q.next) = some (pos, k, e) →
      (s.see seen).mayStart n.toNat q (leAt e 0 1) = true ∧ q.aborted.contains pos = false ∧ k < 4 ∧ q.fresh pos e = true →
      (actsOnQp (leAt e 0 1) && inError ((s.see seen).qpOfQueue? n.toNat)) = false →
      (entFence e = false ∨ q.live.isEmpty = true) ∧ entMalformed q.type (((s.see seen).qpOfQueue? n.toNat).map (·.ctx)) e = false →
      (s.see seen).trigReady (cidPart q.cid) e = some true ∧ actsOnQp (leAt e 0 1) = false ∧ leAt e 0 1 ≠ 0x40 →
      (s.see seen).tablesOk q.cid e = (v, none) →
      Completes (.triggeredStart n seen) s fun t =>
        t = v.takeEntry n.toNat q (v.liveOf q.cid pos e)
        ∧ (pos = q.next → q.early = [] → t.queue? n.toNat = some { q with next := q.step q.next 1, cached := q.cached.filter (fun c => c.1 != pos), live := q.live ++ [v.liveOf q.cid pos e] })
        ∧ t = { v with queues := t.queues })
  ∧ (∀ (s : State) (n : BitVec 20) (seen : Seen) (q : Queue) (pos k : Nat) (e : List Byte),
      s.queue? n.toNat = some q ∧ q.cached.find? (fun c => c.1 == q.next) = some (pos, k, e) ∧ (s.see seen).mayStart n.toNat q (leAt e 0 1) = true →
      Completes (.workEntryStart n seen) s fun t =>
        (q.aborted.contains pos = true → t = ((s.see seen).setQueue n.toNat { q with aborted := q.aborted.filter (· != pos) }).endUnstarted n.toNat { q with aborted := q.aborted.filter (· != pos) } pos e 1)
        ∧ (q.aborted.contains pos = false → k < 4 → q.fresh pos e = true → (actsOnQp (leAt e 0 1) && inError ((s.see seen).qpOfQueue? n.toNat)) = true → t = (s.see seen).endUnstarted n.toNat q pos e 1)
        ∧ (q.aborted.contains pos = false → k = 4 → q.fresh pos e = false → t = (s.see seen).endUnstarted n.toNat q pos e 0x12)
        ∧ (q.aborted.contains pos = false → k < 4 → q.fresh pos e = false → t = (s.see seen).startEarly n.toNat))
  ∧ (∀ (s : State) (n : BitVec 20) (seen : Seen) (q : Queue) (pos k : Nat) (e : List Byte),
      s.headTriggered n.toNat = true →
      s.queue? n.toNat = some q ∧ q.cached.find? (fun c => c.1 == q.next) = some (pos, k, e) ∧ (s.see seen).mayStart n.toNat q (leAt e 0 1) = true →
      Completes (.triggeredStart n seen) s fun t =>
        (q.aborted.contains pos = true → t = ((s.see seen).setQueue n.toNat { q with aborted := q.aborted.filter (· != pos) }).endUnstarted n.toNat { q with aborted := q.aborted.filter (· != pos) } pos e 1)
        ∧ (q.aborted.contains pos = false → k < 4 → q.fresh pos e = true → (actsOnQp (leAt e 0 1) && inError ((s.see seen).qpOfQueue? n.toNat)) = true → t = (s.see seen).endUnstarted n.toNat q pos e 1)
        ∧ (q.aborted.contains pos = false → k = 4 → q.fresh pos e = false → t = (s.see seen).endUnstarted n.toNat q pos e 0x12)
        ∧ (q.aborted.contains pos = false → k < 4 → q.fresh pos e = false → t = (s.see seen).startEarly n.toNat))
  ∧ (∀ (s : State) (n : BitVec 20) (seen : Seen),
      Completes (.send n seen) s fun t =>
        (s.toIssue? n.toNat 1 = none ∨ s.qpOfQueue? n.toNat = none → t = s)
        ∧ (∀ x, s.qpOfQueue? n.toNat = some x → s.toIssue? n.toNat 1 ≠ none → t = (s.see seen).pump x.ctx.qpn)
        ∧ TrafficOnly s t)
  ∧ (∀ (s : State) (n : BitVec 20) (seen : Seen),
      Completes (.sendImm n seen) s fun t =>
        (s.toIssue? n.toNat 2 = none ∨ s.qpOfQueue? n.toNat = none → t = s)
        ∧ (∀ x, s.qpOfQueue? n.toNat = some x → s.toIssue? n.toNat 2 ≠ none → t = (s.see seen).pump x.ctx.qpn)
        ∧ TrafficOnly s t)
  ∧ (∀ (s : State) (n : BitVec 20) (seen : Seen),
      Completes (.write n seen) s fun t =>
        (s.toIssue? n.toNat 3 = none ∨ s.qpOfQueue? n.toNat = none → t = s)
        ∧ (∀ x, s.qpOfQueue? n.toNat = some x → s.toIssue? n.toNat 3 ≠ none → t = (s.see seen).pump x.ctx.qpn)
        ∧ TrafficOnly s t)
  ∧ (∀ (s : State) (n : BitVec 20) (seen : Seen),
      Completes (.writeImm n seen) s fun t =>
        (s.toIssue? n.toNat 4 = none ∨ s.qpOfQueue? n.toNat = none → t = s)
        ∧ (∀ x, s.qpOfQueue? n.toNat = some x → s.toIssue? n.toNat 4 ≠ none → t = (s.see seen).pump x.ctx.qpn)
        ∧ TrafficOnly s t)
  ∧ (∀ (s : State) (n : BitVec 20) (seen : Seen),
      Completes (.read n seen) s fun t =>
        (s.toIssue? n.toNat 5 = none ∨ s.qpOfQueue? n.toNat = none → t = s)
        ∧ (∀ x, s.qpOfQueue? n.toNat = some x → s.toIssue? n.toNat 5 ≠ none → t = (s.see seen).pump x.ctx.qpn)
        ∧ TrafficOnly s t)
  ∧ (∀ (s : State) (n : BitVec 20) (seen : Seen),
      Completes (.cmpSwap n seen) s fun t =>
        (s.toIssue? n.toNat 6 = none ∨ s.qpOfQueue? n.toNat = none → t = s)
        ∧ (∀ x, s.qpOfQueue? n.toNat = some x → s.toIssue? n.toNat 6 ≠ none → t = (s.see seen).pump x.ctx.qpn)
        ∧ TrafficOnly s t)
  ∧ (∀ (s : State) (n : BitVec 20) (seen : Seen),
      Completes (.fetchAdd n seen) s fun t =>
        (s.toIssue? n.toNat 7 = none ∨ s.qpOfQueue? n.toNat = none → t = s)
        ∧ (∀ x, s.qpOfQueue? n.toNat = some x → s.toIssue? n.toNat 7 ≠ none → t = (s.see seen).pump x.ctx.qpn)
        ∧ TrafficOnly s t)
  ∧ (∀ (s : State) (n : BitVec 20),
      Completes (.nopEntry n) s fun t =>
        (s.toIssue? n.toNat 0 = none → t = s)
        ∧ (∀ q l, s.toIssue? n.toNat 0 = some (q, l) → t = s.endEntry n.toNat l.pos 0)
        ∧ CoreOnly s t)
  ∧ (∀ (s : State) (n : BitVec 20),
      Completes (.recvEntry n) s fun t =>
        (s.toIssue? n.toNat 0x40 = none → t = s)
        ∧ (∀ q l, s.toIssue? n.toNat 0x40 = some (q, l) → t.queue? n.toNat = some { q with live := q.live.map (fun x => if x.pos = l.pos then { x with issued := true } else x) })
        ∧ (∀ m : Nat, (m ≠ n.toNat → t.queue? m = s.queue? m)) ∧ t = { s with queues := t.queues })

/-- COPY, OPEN_WINDOW, REVOKE_WINDOW, TRIG_RESET and ABORT act as R178 to R200 and R170 give. None of them acts without a started entry
of its opcode. OPEN_WINDOW opens the first free window with the range, rights, CID and opener of its entry and completes with the key,
or ends with MALFORMED_ENTRY and opens none; REVOKE_WINDOW starts a revocation for the opener instance alone; TRIG_RESET clears COUNT
and increments GEN of a slot of its partition alone; ABORT ends with the status of Table 6.9 after its target's; a COPY whose bytes have
all moved completes OK with its length, one whose next block is its last moves it and completes, and an error ends it with the bytes
moved before. -/
def Obligations.LocalEntries : Prop :=
  (∀ (s : State) (n : BitVec 20) (seen : Seen),
      Completes (.copy n seen) s fun t =>
        (s.toIssue? n.toNat 0x10 = none → t = s)
        ∧ (∀ q l, s.toIssue? n.toNat 0x10 = some (q, l) → (l.stopped = true ∨ s.copyGrant n.toNat l.bytes = false → t = s) ∧ (l.stopped = false → s.copyGrant n.toNat l.bytes = true → l.len ≤ l.got → t = (s.see seen).endEntry n.toNat l.pos 0 l.len))
        ∧ CoreOnly { s with sheep0 := t.sheep0, sheep1 := t.sheep1, tiles := t.tiles, tileNext := t.tileNext, poisoned := t.poisoned, freeCtr := t.freeCtr } t)
  ∧ (∀ (s u : State) (n : BitVec 20) (seen : Seen) (q : Queue) (l : Live) (e : MemErr),
      s.toIssue? n.toNat 0x10 = some (q, l) ∧ l.stopped = false ∧ s.copyGrant n.toNat l.bytes = true ∧ l.got < l.len →
      (s.see seen).sourceData { cid := q.cid } l l.got (min 4096 (l.len - l.got)) = (u, .err e) →
      Completes (.copy n seen) s fun t =>
        (e = .ue → t = u.endEntry n.toNat l.pos 0x40 l.got) ∧ (e = .cid → t = u.endEntry n.toNat l.pos 0x22 l.got) ∧ (e = .wait → t = u))
  ∧ (∀ (s u v : State) (n : BitVec 20) (seen : Seen) (q : Queue) (l : Live) (bs : List Byte) (r : BufRes Unit),
      s.toIssue? n.toNat 0x10 = some (q, l) ∧ l.stopped = false ∧ s.copyGrant n.toNat l.bytes = true ∧ l.got < l.len ∧ l.len ≤ l.got + 4096 →
      (s.see seen).sourceData { cid := q.cid } l l.got (l.len - l.got) = (u, .ok bs) →
      u.placeTile q.cid { copyDest l.bytes with snap := l.tab2 } l.got bs n.toNat l.pos { engine := 0, write := true, qpn := none, unit := n.toNat } = (v, r) →
      Completes (.copy n seen) s fun t =>
        (r = .ok () → t = (v.modLive n.toNat l.pos (fun x => { x with got := l.len })).endEntry n.toNat l.pos 0 l.len)
        ∧ (r = .err .ue → t = v.endEntry n.toNat l.pos 0x40 l.got) ∧ (r = .err .cid → t = v.endEntry n.toNat l.pos 0x22 l.got) ∧ (r = .err .wait → t = v))
  ∧ (∀ (s : State) (n : BitVec 20),
      Completes (.openWindow n) s fun t =>
        (s.toIssue? n.toNat 0x20 = none → t = s) ∧ CoreOnly { s with wins := t.wins } t)
  ∧ (∀ (s : State) (n : BitVec 20) (q : Queue) (l : Live) (space base limit rights scope : Nat),
      s.toIssue? n.toNat 0x20 = some (q, l) ∧ space = leAt l.bytes 32 8 / 2 ^ 52 % 4 ∧ base = leAt l.bytes 32 8 % 2 ^ 52 ∧ limit = leAt l.bytes 40 8 ∧ rights = leAt l.bytes 48 1 % 8 ∧ scope = leAt l.bytes 48 1 / 8 →
      Completes (.openWindow n) s fun t =>
        (space = 3 ∨ limit < base ∨ rights = 0 ∨ s.winRangeOk (cidPart q.cid) space base limit = false → t = s.endEntry n.toNat l.pos 0x10)
        ∧ (space ≠ 3 → base ≤ limit → rights ≠ 0 → s.winRangeOk (cidPart q.cid) space base limit = true → s.get (Reg.WIN_SHARE.WINDOWS (cidPart q.cid)) ≤ s.get (Reg.WIN_HELD.COUNT (cidPart q.cid)) →
            t = (s.count (Reg.WIN_NOSLOT.COUNT (cidPart q.cid))).endEntry n.toNat l.pos 0x10)
        ∧ (space ≠ 3 → base ≤ limit → rights ≠ 0 → s.winRangeOk (cidPart q.cid) space base limit = true → s.get (Reg.WIN_HELD.COUNT (cidPart q.cid)) < s.get (Reg.WIN_SHARE.WINDOWS (cidPart q.cid)) →
            (s.wins.takeFree = none → t = (s.count (Reg.WIN_NOSLOT.COUNT (cidPart q.cid))).endEntry n.toNat l.pos 0x10)
            ∧ (∀ i ws, s.wins.takeFree = some (i, ws) →
                t.win i = { base := base, space := space, limit := limit, cid := if scope = 1 then cidPart q.cid * 1024 + 0x3FF else q.cid, gen := (s.win i).gen, state := 1, read := rights % 2 == 1, write := rights / 2 % 2 == 1, atomic := rights / 4 % 2 == 1, opener := cidInst q.cid, inflight := 0 }
                ∧ t = (({ s with wins := ws } : State).setWin i (t.win i)).endEntry n.toNat l.pos 0 0 (i * 4096 + (s.win i).gen))))
  ∧ (∀ (s : State) (n : BitVec 20),
      Completes (.revokeWindow n) s fun t =>
        (s.toIssue? n.toNat 0x21 = none → t = s) ∧ CoreOnly { s with wins := t.wins } t
        ∧ (∀ q l, s.toIssue? n.toNat 0x21 = some (q, l) →
            (cidPart (s.win (leAt l.bytes 28 4 / 4096)).cid ≠ cidPart q.cid ∨ (s.win (leAt l.bytes 28 4 / 4096)).opener ≠ cidInst q.cid → t = s.endEntry n.toNat l.pos 0x10)
            ∧ (cidPart (s.win (leAt l.bytes 28 4 / 4096)).cid = cidPart q.cid → (s.win (leAt l.bytes 28 4 / 4096)).opener = cidInst q.cid →
                (leAt l.bytes 28 4 / 4096 = 0 ∨ leAt l.bytes 28 4 % 4096 = 0 ∨ (s.win (leAt l.bytes 28 4 / 4096)).state = 0 ∨ ((s.win (leAt l.bytes 28 4 / 4096)).state = 1 ∧ (s.win (leAt l.bytes 28 4 / 4096)).gen ≠ leAt l.bytes 28 4 % 4096) → t = s.endEntry n.toNat l.pos 0x10)
                ∧ (leAt l.bytes 28 4 / 4096 ≠ 0 → leAt l.bytes 28 4 % 4096 ≠ 0 → (s.win (leAt l.bytes 28 4 / 4096)).state = 1 → (s.win (leAt l.bytes 28 4 / 4096)).gen = leAt l.bytes 28 4 % 4096 →
                    s.wins.revs.any (fun r => r.index == leAt l.bytes 28 4 / 4096) = false →
                    t.wins = { s.wins with revs := s.wins.revs ++ [{ index := leAt l.bytes 28 4 / 4096, waiters := [.entry n.toNat l.pos] }] }
                    ∧ t = ({ s with wins := t.wins } : State).modLive n.toNat l.pos (fun x => { x with issued := true })))))
  ∧ (∀ (s : State) (n : BitVec 20),
      Completes (.trigReset n) s fun t =>
        (s.toIssue? n.toNat 0x22 = none → t = s)
        ∧ (∀ q l, s.toIssue? n.toNat 0x22 = some (q, l) →
            (s.trigOf (cidPart q.cid) (leAt l.bytes 28 2) = false → t = s.endEntry n.toNat l.pos 0x10)
            ∧ (s.trigOf (cidPart q.cid) (leAt l.bytes 28 2) = true → t = (s.setTrig (leAt l.bytes 28 2) { count := 0, gen := ((s.trig (leAt l.bytes 28 2)).gen + 1) % 256 }).endEntry n.toNat l.pos 0))
        ∧ CoreOnly s t)
  ∧ (∀ (s : State) (n : BitVec 20),
      Completes (.abort n) s fun t =>
        (s.toIssue? n.toNat 0x30 = none → t = s)
        ∧ (∀ q l, s.toIssue? n.toNat 0x30 = some (q, l) →
            (s.qp? (entQpn l.bytes) = none → t = s.endEntry n.toNat l.pos 0x10)
            ∧ (∀ x, s.qp? (entQpn l.bytes) = some x →
                (x.ctx.cid ≠ q.cid → t = s.abortRun n.toNat l.pos)
                ∧ (x.ctx.cid = q.cid → t = s.whenIn (entQpn l.bytes) (.abort n.toNat l.pos) (fun s => s.abortRun n.toNat l.pos))
                ∧ (x.ctx.cid = q.cid → x.resident = true → s.kennel.bad.contains (entQpn l.bytes) = false → t = s.abortRun n.toNat l.pos)))
        ∧ TrafficOnly s t)

/-- Arrivals, releases, withdrawals, timeouts and BAR move a barrier unit as R32 to R34 and R358 to R360 give. An arrival is kept, in
place of an earlier one of its rank and SEQ; when the coordinator holds every member's, it sends each other member one release at the
latest arrival slot plus LEAD, or an untimed one where a member was not locked. A release of another SEQ changes nothing; a failed one
ends the barrier with 0x31; a late or untimed one ends it at once, marked so and counted; a future one waits for its slot. A timeout
withdraws, and a withdrawal that reaches the coordinator of that SEQ fails the barrier. BAR on a unit without the partition's membership
goes on at once, untimed. -/
def Obligations.BarrierUnits : Prop :=
  (∀ (s : State) (u : Fin 16) (seq : Word) (rank : Fin 1024) (slot : BitVec 64) (st : Fin 5),
      Completes (.barrierArrival u seq rank slot st) s fun t =>
        ((s.bar u).run = none → (s.cores.any fun e => e.2.wait == some (.bar u)) = false →
              t.bar u = { s.bar u with arrivals := (s.bar u).arrivals.filter (fun x => !(x.seq == seq.toNat && x.rank == rank.val)) ++ [{ seq := seq.toNat, rank := rank, slot := slot.toNat, state := st }] } ∧ t = { s with bars := t.bars })
        ∧ (∀ r, (s.bar u).run = some r → r.rank ≠ 0 ∨ r.release ≠ none →
              t.bar u = { s.bar u with arrivals := (s.bar u).arrivals.filter (fun x => !(x.seq == seq.toNat && x.rank == rank.val)) ++ [{ seq := seq.toNat, rank := rank, slot := slot.toNat, state := st }] } ∧ t = { s with bars := t.bars })
        ∧ CoreOnly { s with colls := t.colls, bars := t.bars } t)
  ∧ (∀ (s : State) (u : Fin 16) (seq : Word) (rank : Fin 1024) (slot : BitVec 64) (st : Fin 5) (r : BarRun) (as : List BarArrival),
      (s.bar u).run = some r ∧ r.rank = 0 ∧ r.release = none ∧ r.seq = seq.toNat ∧ (s.bar u).withdrawn.contains r.seq = false →
      as = (s.bar u).arrivals.filter (fun x => x.seq == seq.toNat && x.rank != rank.val) ++ [{ seq := seq.toNat, rank := rank, slot := slot.toNat, state := st }] →
      Completes (.barrierArrival u seq rank slot st) s fun t =>
        ((List.range r.members.length).all (fun k => as.any fun a => a.rank == k) = false → (t.bar u).run = some r ∧ t = { s with bars := t.bars })
        ∧ ((List.range r.members.length).all (fun k => as.any fun a => a.rank == k) = true → as.all (fun a => a.state == 2 || a.state == 3) = true →
            s.slot < as.foldl (fun m a => max m a.slot) 0 + s.get (Reg.TIME_BAR_CTL.LEAD u) →
            (t.bar u).run = some { r with release := some (as.foldl (fun m a => max m a.slot) 0 + s.get (Reg.TIME_BAR_CTL.LEAD u)) }
            ∧ t.out = s.out ++ (r.members.drop 1).map (fun f => Output.barrierRelease f u r.seq (some (as.foldl (fun m a => max m a.slot) 0 + s.get (Reg.TIME_BAR_CTL.LEAD u))) false)
            ∧ t = { s with bars := t.bars, out := t.out })
        ∧ ((List.range r.members.length).all (fun k => as.any fun a => a.rank == k) = true → as.all (fun a => a.state == 2 || a.state == 3) = false → r.coll = none → s.cores = [] →
            t.get (Reg.TIME_BAR_STS.UNTIMED u) = 1 ∧ (t.bar u).run = none
            ∧ t.out = s.out ++ (r.members.drop 1).map (fun f => Output.barrierRelease f u r.seq none false) ∧ t = { s with regs := t.regs, bars := t.bars, out := t.out }))
  ∧ (∀ (s : State) (u : Fin 16) (seq : Word) (slot : Option (BitVec 64)) (failed : Bool),
      Completes (.barrierReleaseReceive u seq slot failed) s fun t =>
        ((s.bar u).run = none → (s.cores.any fun e => e.2.wait == some (.bar u)) = false → t = s)
        ∧ (∀ r, (s.bar u).run = some r →
            (r.seq ≠ seq.toNat ∨ r.release ≠ none → t = s)
            ∧ (r.seq = seq.toNat → r.release = none → failed = true → t = (s.barEnd u 0x31).barNext u)
            ∧ (r.seq = seq.toNat → r.release = none → failed = false → slot = none → t = (((s.put (Reg.TIME_BAR_STS.UNTIMED u) 1).countRelease u).barEnd u 0).barNext u)
            ∧ (r.seq = seq.toNat → r.release = none → failed = false → ∀ x, slot = some (x) →
                (x.toNat ≤ s.slot → t = (((s.put (Reg.TIME_BAR_STS.LATE u) 1).countRelease u).barEnd u 0).barNext u)
                ∧ (s.slot < x.toNat → t.bar u = { s.bar u with run := some { r with release := some x.toNat } } ∧ t = { s with bars := t.bars })))
        ∧ CoreOnly { s with colls := t.colls, bars := t.bars } t)
  ∧ (∀ (s : State) (u : Fin 16),
      Completes (.barrierRelease u) s fun t =>
        ((s.bar u).run = none → t = s)
        ∧ (∀ r, (s.bar u).run = some r → (r.release = none → t = s)
            ∧ (∀ x, r.release = some (x) → (s.slot < x → t = s) ∧ (x ≤ s.slot → t = ((s.countRelease u).barEnd u 0).barNext u)
                ∧ (x ≤ s.slot → r.coll = none → s.cores = [] → (t.bar u).run = none ∧ t.get (Reg.TIME_BAR_STS.RELEASES u) = min (s.get (Reg.TIME_BAR_STS.RELEASES u) + 1) 65535 ∧ t = { s with regs := t.regs, bars := t.bars })))
        ∧ CoreOnly { s with colls := t.colls, bars := t.bars } t)
  ∧ (∀ (s : State) (u : Fin 16),
      Completes (.barrierTimeout u) s fun t =>
        ((s.bar u).run = none → t = s)
        ∧ (∀ r, (s.bar u).run = some r → (r.release ≠ none ∨ r.coll = none → t = s))
        ∧ CoreOnly { s with colls := t.colls, bars := t.bars } t)
  ∧ (∀ (s : State) (u : Fin 16) (r : BarRun) (n pos : Nat) (x : Coll),
      (s.bar u).run = some r ∧ r.release = none ∧ r.coll = some (n, pos) ∧ s.colls.find? (fun c => c.queue == n && c.pos == pos) = some x →
      Completes (.barrierTimeout u) s fun t =>
        (leAt x.args 22 2 = 0 → t = s)
        ∧ (leAt x.args 22 2 ≠ 0 → r.rank ≠ 0 → t = ((s.emit (.barrierWithdrawal (r.members.getD 0 0) u r.seq r.rank)).barEnd u 0x31).barNext u)
        ∧ (leAt x.args 22 2 ≠ 0 → r.rank = 0 → t = (s.barSend u r none true).barNext u))
  ∧ (∀ (s : State) (u : Fin 16) (seq : Word),
      Completes (.barrierWithdrawal u seq) s fun t =>
        ((s.bar u).run = none → (s.cores.any fun e => e.2.wait == some (.bar u)) = false → t.bar u = { s.bar u with withdrawn := addTo (s.bar u).withdrawn seq.toNat } ∧ t = { s with bars := t.bars })
        ∧ (∀ r, (s.bar u).run = some r →
            (r.rank ≠ 0 ∨ r.release ≠ none → t.bar u = { s.bar u with withdrawn := addTo (s.bar u).withdrawn seq.toNat } ∧ t = { s with bars := t.bars })
            ∧ (r.rank = 0 → r.release = none → r.seq = seq.toNat → t = ((s.setBar u { s.bar u with withdrawn := addTo (s.bar u).withdrawn seq.toNat }).barSend u r none true).barNext u))
        ∧ CoreOnly { s with colls := t.colls, bars := t.bars } t)
  ∧ (∀ (s : State) (c : CoreId) (w : Nat),
      Issues s c .bar w →
      Completes (.bar c) s fun t =>
        ((s.bar (w % 16)).holder ≠ some (cidPart (s.core c).cid) →
              t.core c = (s.core c).next ∧ CoresBut [c.val] s t ∧ t.get (Reg.TIME_BAR_STS.UNTIMED (w % 16)) = 1
              ∧ t.get (Reg.TIME_BAR_STS.RELEASES (w % 16)) = min (s.get (Reg.TIME_BAR_STS.RELEASES (w % 16)) + 1) 65535
              ∧ FieldsBut [Reg.TIME_BAR_STS.UNTIMED (w % 16), Reg.TIME_BAR_STS.RELEASES (w % 16)] s t ∧ t = { s with regs := t.regs, cores := t.cores })
        ∧ ((s.bar (w % 16)).holder = some (cidPart (s.core c).cid) → (s.bar (w % 16)).run ≠ none → CoreBecomes c { s.core c with wait := some (.bar (w % 16)) } s t)
        ∧ ((s.bar (w % 16)).holder = some (cidPart (s.core c).cid) → (s.bar (w % 16)).run = none →
              t = ((s.modCore c (fun k => { k with wait := some (.bar (w % 16)) })).setBar (w % 16) { s.bar (w % 16) with seq := ((s.bar (w % 16)).seq + 1) % 2 ^ 32 }).barStart (w % 16) { members := (s.bar (w % 16)).members, rank := (s.bar (w % 16)).rank, seq := (s.bar (w % 16)).seq })
        ∧ CoreOnly { s with colls := t.colls, bars := t.bars } t)

/-- A collective starts after its checks, moves its chunks, signals each visible chunk once and ends as R338 to R360 give. Each start
row acts only on an issued INVOKE of the collective handle whose OP is its own, on a service core of the queue's home cluster that runs
(log 156); a failed check ends the INVOKE with its status before a byte moves, a memory that must be waited for leaves it, and a call
that passes joins the running calls and moves its first chunks (or sets up or joins its barrier unit). CHUNK_SIGNAL, COLLECTIVE_COMPLETE
and COLLECTIVE_FAIL take in ended transfers and then act on one running call: the next increment, the end with OK once every increment
is issued, the end, with the call's segments closed, with the first failure's status and rank. -/
def Obligations.Collectives : Prop :=
  (∀ (s : State) (n : BitVec 20) (seen : Seen),
      Completes (.shift n seen) s fun t =>
        (s.queue? n.toNat = none → t = s)
        ∧ (∀ q, s.queue? n.toNat = some q → ((q.live.find? (fun l => l.opcode == 0x11 && l.issued && l.done.isNone && isCollective (leAt l.bytes 28 4) && !s.colls.any (fun c => c.queue == n.toNat && c.pos == l.pos))) = none → t = s) ∧ (∀ l, (q.live.find? (fun l => l.opcode == 0x11 && l.issued && l.done.isNone && isCollective (leAt l.bytes 28 4) && !s.colls.any (fun c => c.queue == n.toNat && c.pos == l.pos))) = some l → (leAt l.bytes 32 1 ≠ 0 → t = s)))
        ∧ ((s.homeCore? n.toNat).isNone = true → t = s)
        ∧ TrafficOnly { s with colls := t.colls, collNext := t.collNext, bars := t.bars, clusters := t.clusters, redEnds := t.redEnds } t)
  ∧ (∀ (s u : State) (n : BitVec 20) (seen : Seen) (q : Queue) (l : Live) (r : CollStart) (st : Nat) (x : Coll),
      s.queue? n.toNat = some q ∧ (q.live.find? (fun l => l.opcode == 0x11 && l.issued && l.done.isNone && isCollective (leAt l.bytes 28 4) && !s.colls.any (fun c => c.queue == n.toNat && c.pos == l.pos))) = some l →
      (leAt l.bytes 32 1 = 0) ∧ (s.homeCore? n.toNat).isSome = true ∧ (s.see seen).collAbsorb.collCheck n.toNat q l = (u, r) →
      Completes (.shift n seen) s fun t =>
        (r = .wait → t = u) ∧ (r = .fail st → t = u.endEntry n.toNat l.pos st)
        ∧ (r = .ok x → t = ({ u with colls := u.colls ++ [x] } : State).collFeed n.toNat l.pos []))
  ∧ (∀ (s : State) (n : BitVec 20) (seen : Seen),
      Completes (.permute n seen) s fun t =>
        (s.queue? n.toNat = none → t = s)
        ∧ (∀ q, s.queue? n.toNat = some q → ((q.live.find? (fun l => l.opcode == 0x11 && l.issued && l.done.isNone && isCollective (leAt l.bytes 28 4) && !s.colls.any (fun c => c.queue == n.toNat && c.pos == l.pos))) = none → t = s) ∧ (∀ l, (q.live.find? (fun l => l.opcode == 0x11 && l.issued && l.done.isNone && isCollective (leAt l.bytes 28 4) && !s.colls.any (fun c => c.queue == n.toNat && c.pos == l.pos))) = some l → (leAt l.bytes 32 1 ≠ 1 → t = s)))
        ∧ ((s.homeCore? n.toNat).isNone = true → t = s)
        ∧ TrafficOnly { s with colls := t.colls, collNext := t.collNext, bars := t.bars, clusters := t.clusters, redEnds := t.redEnds } t)
  ∧ (∀ (s u : State) (n : BitVec 20) (seen : Seen) (q : Queue) (l : Live) (r : CollStart) (st : Nat) (x : Coll),
      s.queue? n.toNat = some q ∧ (q.live.find? (fun l => l.opcode == 0x11 && l.issued && l.done.isNone && isCollective (leAt l.bytes 28 4) && !s.colls.any (fun c => c.queue == n.toNat && c.pos == l.pos))) = some l →
      (leAt l.bytes 32 1 = 1) ∧ (s.homeCore? n.toNat).isSome = true ∧ (s.see seen).collAbsorb.collCheck n.toNat q l = (u, r) →
      Completes (.permute n seen) s fun t =>
        (r = .wait → t = u) ∧ (r = .fail st → t = u.endEntry n.toNat l.pos st)
        ∧ (r = .ok x → t = ({ u with colls := u.colls ++ [x] } : State).collFeed n.toNat l.pos []))
  ∧ (∀ (s : State) (n : BitVec 20) (order : List Nat) (seen : Seen),
      Completes (.reduce n order seen) s fun t =>
        (s.queue? n.toNat = none → t = s)
        ∧ (∀ q, s.queue? n.toNat = some q → ((q.live.find? (fun l => l.opcode == 0x11 && l.issued && l.done.isNone && isCollective (leAt l.bytes 28 4) && !s.colls.any (fun c => c.queue == n.toNat && c.pos == l.pos))) = none → t = s) ∧ (∀ l, (q.live.find? (fun l => l.opcode == 0x11 && l.issued && l.done.isNone && isCollective (leAt l.bytes 28 4) && !s.colls.any (fun c => c.queue == n.toNat && c.pos == l.pos))) = some l → (leAt l.bytes 32 1 ≠ 2 → t = s)))
        ∧ ((s.homeCore? n.toNat).isNone = true → t = s)
        ∧ TrafficOnly { s with colls := t.colls, collNext := t.collNext, bars := t.bars, clusters := t.clusters, redEnds := t.redEnds } t)
  ∧ (∀ (s u : State) (n : BitVec 20) (order : List Nat) (seen : Seen) (q : Queue) (l : Live) (r : CollStart) (st : Nat) (x : Coll),
      s.queue? n.toNat = some q ∧ (q.live.find? (fun l => l.opcode == 0x11 && l.issued && l.done.isNone && isCollective (leAt l.bytes 28 4) && !s.colls.any (fun c => c.queue == n.toNat && c.pos == l.pos))) = some l →
      (leAt l.bytes 32 1 = 2) ∧ (s.homeCore? n.toNat).isSome = true ∧ (s.see seen).collAbsorb.collCheck n.toNat q l = (u, r) →
      Completes (.reduce n order seen) s fun t =>
        (r = .wait → t = u) ∧ (r = .fail st → t = u.endEntry n.toNat l.pos st)
        ∧ (r = .ok x → t = ({ u with colls := u.colls ++ [x] } : State).collFeed n.toNat l.pos order))
  ∧ (∀ (s : State) (n : BitVec 20) (order : List Nat) (seen : Seen),
      Completes (.reduceScatter n order seen) s fun t =>
        (s.queue? n.toNat = none → t = s)
        ∧ (∀ q, s.queue? n.toNat = some q → ((q.live.find? (fun l => l.opcode == 0x11 && l.issued && l.done.isNone && isCollective (leAt l.bytes 28 4) && !s.colls.any (fun c => c.queue == n.toNat && c.pos == l.pos))) = none → t = s) ∧ (∀ l, (q.live.find? (fun l => l.opcode == 0x11 && l.issued && l.done.isNone && isCollective (leAt l.bytes 28 4) && !s.colls.any (fun c => c.queue == n.toNat && c.pos == l.pos))) = some l → (leAt l.bytes 32 1 ≠ 3 → t = s)))
        ∧ ((s.homeCore? n.toNat).isNone = true → t = s)
        ∧ TrafficOnly { s with colls := t.colls, collNext := t.collNext, bars := t.bars, clusters := t.clusters, redEnds := t.redEnds } t)
  ∧ (∀ (s u : State) (n : BitVec 20) (order : List Nat) (seen : Seen) (q : Queue) (l : Live) (r : CollStart) (st : Nat) (x : Coll),
      s.queue? n.toNat = some q ∧ (q.live.find? (fun l => l.opcode == 0x11 && l.issued && l.done.isNone && isCollective (leAt l.bytes 28 4) && !s.colls.any (fun c => c.queue == n.toNat && c.pos == l.pos))) = some l →
      (leAt l.bytes 32 1 = 3) ∧ (s.homeCore? n.toNat).isSome = true ∧ (s.see seen).collAbsorb.collCheck n.toNat q l = (u, r) →
      Completes (.reduceScatter n order seen) s fun t =>
        (r = .wait → t = u) ∧ (r = .fail st → t = u.endEntry n.toNat l.pos st)
        ∧ (r = .ok x → t = ({ u with colls := u.colls ++ [x] } : State).collFeed n.toNat l.pos order))
  ∧ (∀ (s : State) (n : BitVec 20) (order : List Nat) (seen : Seen),
      Completes (.allReduce n order seen) s fun t =>
        (s.queue? n.toNat = none → t = s)
        ∧ (∀ q, s.queue? n.toNat = some q → ((q.live.find? (fun l => l.opcode == 0x11 && l.issued && l.done.isNone && isCollective (leAt l.bytes 28 4) && !s.colls.any (fun c => c.queue == n.toNat && c.pos == l.pos))) = none → t = s) ∧ (∀ l, (q.live.find? (fun l => l.opcode == 0x11 && l.issued && l.done.isNone && isCollective (leAt l.bytes 28 4) && !s.colls.any (fun c => c.queue == n.toNat && c.pos == l.pos))) = some l → (leAt l.bytes 32 1 ≠ 4 → t = s)))
        ∧ ((s.homeCore? n.toNat).isNone = true → t = s)
        ∧ TrafficOnly { s with colls := t.colls, collNext := t.collNext, bars := t.bars, clusters := t.clusters, redEnds := t.redEnds } t)
  ∧ (∀ (s u : State) (n : BitVec 20) (order : List Nat) (seen : Seen) (q : Queue) (l : Live) (r : CollStart) (st : Nat) (x : Coll),
      s.queue? n.toNat = some q ∧ (q.live.find? (fun l => l.opcode == 0x11 && l.issued && l.done.isNone && isCollective (leAt l.bytes 28 4) && !s.colls.any (fun c => c.queue == n.toNat && c.pos == l.pos))) = some l →
      (leAt l.bytes 32 1 = 4) ∧ (s.homeCore? n.toNat).isSome = true ∧ (s.see seen).collAbsorb.collCheck n.toNat q l = (u, r) →
      Completes (.allReduce n order seen) s fun t =>
        (r = .wait → t = u) ∧ (r = .fail st → t = u.endEntry n.toNat l.pos st)
        ∧ (r = .ok x → t = ({ u with colls := u.colls ++ [x] } : State).collFeed n.toNat l.pos order))
  ∧ (∀ (s : State) (n : BitVec 20) (seen : Seen),
      Completes (.barrier n seen) s fun t =>
        (s.queue? n.toNat = none → t = s)
        ∧ (∀ q, s.queue? n.toNat = some q → ((q.live.find? (fun l => l.opcode == 0x11 && l.issued && l.done.isNone && isCollective (leAt l.bytes 28 4) && !s.colls.any (fun c => c.queue == n.toNat && c.pos == l.pos))) = none → t = s) ∧ (∀ l, (q.live.find? (fun l => l.opcode == 0x11 && l.issued && l.done.isNone && isCollective (leAt l.bytes 28 4) && !s.colls.any (fun c => c.queue == n.toNat && c.pos == l.pos))) = some l → (leAt l.bytes 32 1 < 5 → t = s)))
        ∧ ((s.homeCore? n.toNat).isNone = true → t = s)
        ∧ TrafficOnly { s with colls := t.colls, collNext := t.collNext, bars := t.bars, clusters := t.clusters, redEnds := t.redEnds } t)
  ∧ (∀ (s u : State) (n : BitVec 20) (seen : Seen) (q : Queue) (l : Live) (r : CollStart) (st : Nat) (x : Coll),
      s.queue? n.toNat = some q ∧ (q.live.find? (fun l => l.opcode == 0x11 && l.issued && l.done.isNone && isCollective (leAt l.bytes 28 4) && !s.colls.any (fun c => c.queue == n.toNat && c.pos == l.pos))) = some l →
      (leAt l.bytes 32 1 = 5 ∧ bitAt (leAt l.bytes 52 4) 4 = false) ∧ (s.homeCore? n.toNat).isSome = true ∧ (s.see seen).collAbsorb.collCheck n.toNat q l = (u, r) →
      Completes (.barrier n seen) s fun t =>
        (r = .wait → t = u) ∧ (r = .fail st → t = u.endEntry n.toNat l.pos st)
        ∧ (r = .ok x → (u.bar (x.param % 16)).run ≠ none → t = u)
        ∧ (r = .ok x → (u.bar (x.param % 16)).run = none → t = ({ u with colls := u.colls ++ [x] } : State).barStart (x.param % 16) { members := x.members.map (·.fca), rank := ((x.members.map (·.fca)).findIdx? (fun f => devOf f == devOf u.selfFca)).getD 0, seq := x.seq, coll := some (n.toNat, l.pos) }))
  ∧ (∀ (s : State) (n : BitVec 20) (seen : Seen),
      Completes (.barrierSetup n seen) s fun t =>
        (s.queue? n.toNat = none → t = s)
        ∧ (∀ q, s.queue? n.toNat = some q → ((q.live.find? (fun l => l.opcode == 0x11 && l.issued && l.done.isNone && isCollective (leAt l.bytes 28 4) && !s.colls.any (fun c => c.queue == n.toNat && c.pos == l.pos))) = none → t = s) ∧ (∀ l, (q.live.find? (fun l => l.opcode == 0x11 && l.issued && l.done.isNone && isCollective (leAt l.bytes 28 4) && !s.colls.any (fun c => c.queue == n.toNat && c.pos == l.pos))) = some l → (leAt l.bytes 32 1 ≠ 5 ∨ bitAt (leAt l.bytes 52 4) 4 = false → t = s)))
        ∧ ((s.homeCore? n.toNat).isNone = true → t = s)
        ∧ TrafficOnly { s with colls := t.colls, collNext := t.collNext, bars := t.bars, clusters := t.clusters, redEnds := t.redEnds } t)
  ∧ (∀ (s u : State) (n : BitVec 20) (seen : Seen) (q : Queue) (l : Live) (r : CollStart) (st : Nat) (x : Coll),
      s.queue? n.toNat = some q ∧ (q.live.find? (fun l => l.opcode == 0x11 && l.issued && l.done.isNone && isCollective (leAt l.bytes 28 4) && !s.colls.any (fun c => c.queue == n.toNat && c.pos == l.pos))) = some l →
      (leAt l.bytes 32 1 = 5 ∧ bitAt (leAt l.bytes 52 4) 4 = true) ∧ (s.homeCore? n.toNat).isSome = true ∧ (s.see seen).collAbsorb.collCheck n.toNat q l = (u, r) →
      Completes (.barrierSetup n seen) s fun t =>
        (r = .wait → t = u) ∧ (r = .fail st → t = u.endEntry n.toNat l.pos st)
        ∧ (r = .ok x → (u.bar (x.param % 16)).holder ≠ none → (u.bar (x.param % 16)).holder ≠ some (cidPart x.cid) → t = u.endEntry n.toNat l.pos 0x10)
        ∧ (r = .ok x → ((u.bar (x.param % 16)).holder = none ∨ (u.bar (x.param % 16)).holder = some (cidPart x.cid)) →
            t.bar (x.param % 16) = { u.bar (x.param % 16) with holder := some (cidPart x.cid), members := x.members.map (·.fca), rank := ((x.members.map (·.fca)).findIdx? (fun f => devOf f == devOf u.selfFca)).getD 0, seq := x.seq }
            ∧ t = (u.setBar (x.param % 16) (t.bar (x.param % 16))).endColl x 0 0 false false))
  ∧ (∀ (s u : State) (i : Nat) (d : Fin 1024) (order : List Nat) (seen : Seen),
      u = (s.see seen).collAbsorb →
      Completes (.chunkSignal i d order seen) s fun t =>
        (u.colls[i]? = none → t = u)
        ∧ (∀ x, u.colls[i]? = some x → (x.op = 5 ∨ (u.homeCore? x.queue).isNone = true → t = u)
            ∧ (x.op ≠ 5 → (u.homeCore? x.queue).isSome = true → (x.failed ≠ none ∨ x.dests.contains d.val = false ∨ x.chunks ≤ x.counts.getD d 0) → t = u.collFeed x.queue x.pos order)
            ∧ (x.op ≠ 5 → (u.homeCore? x.queue).isSome = true → x.failed = none → x.dests.contains d.val = true → x.counts.getD d 0 < x.chunks → t = (u.collIncrement x d).collFeed x.queue x.pos order))
        ∧ (s.colls = [] → s.collEnds = [] → s.redEnds = [] → t = s.see seen)
        ∧ TrafficOnly { s with colls := t.colls, collNext := t.collNext, clusters := t.clusters, redEnds := t.redEnds } t)
  ∧ (∀ (s u : State) (i : Nat),
      u = s.collAbsorb →
      Completes (.collectiveComplete i) s fun t =>
        (u.colls[i]? = none → t = u)
        ∧ (∀ x, u.colls[i]? = some x → ((x.op = 5 ∨ x.failed ≠ none ∨ (u.homeCore? x.queue).isNone = true ∨ x.dests.all (fun d => decide (x.chunks ≤ x.counts.getD d 0)) = false) → t = u)
            ∧ (x.op ≠ 5 → x.failed = none → (u.homeCore? x.queue).isSome = true → x.dests.all (fun d => decide (x.chunks ≤ x.counts.getD d 0)) = true →
                t = u.endColl x 0 0 false false ∧ t.colls = u.colls.filter (fun c => !(c.queue == x.queue && c.pos == x.pos))))
        ∧ CoreOnly { s with colls := t.colls, redEnds := t.redEnds } t)
  ∧ (∀ (s u : State) (i : Nat),
      u = s.collAbsorb →
      Completes (.collectiveFail i) s fun t =>
        (u.colls[i]? = none → t = u)
        ∧ (∀ x, u.colls[i]? = some x → (x.failed = none → t = u)
            ∧ (∀ st rank, x.failed = some (st, rank) → x.dests.all (fun d => (x.members.getD d ⟨3, 0, 0, 0, 0, 0, 0⟩).sig == 0xFFFFFFFF) = true →
                t = (u.closeSegs x).endColl x st rank false false ∧ t.colls = u.colls.filter (fun c => !(c.queue == x.queue && c.pos == x.pos))))
        ∧ TrafficOnly { s with colls := t.colls, collNext := t.collNext, clusters := t.clusters, redEnds := t.redEnds } t)

/-- DMOV, TSTREAM, SIGA, a Drover's taking and moving of a transfer, and the profile registers act as R290 to R318 and R337 give. DMOV
copies the descriptor at ga to the channel of rd, or raises ILLEGAL, SPAD_BOUND or ALIGN, or waits for room with nothing changed;
TSTREAM adds one tile to a channel with room. SIGA adds gb to a 64-bit word indivisibly and gd takes the old word, or raises RIGHT or
ALIGN. A Drover that serves takes the head of a channel once, and ends it with MALFORMED_ENTRY where its checks fail; a taken transfer
moves its data and then leaves. A profile word is written by its owner only while the profile's rule lets it. -/
def Obligations.DroverTransfers : Prop :=
  (∀ (s : State) (c : CoreId) (w : Nat),
      Issues s c .siga w →
      Completes (.siga c) s fun t =>
        (2 ^ 54 ≤ ((s.core c).gr (fRa w)).toNat ∨ (bits ((s.core c).gr (fRa w)).toNat 52 2 ≠ 1 ∧ bits ((s.core c).gr (fRa w)).toNat 52 2 ≠ 2) → t = s.raise c 2 ((s.core c).gr (fRa w)).toNat)
        ∧ CoreOnly { s with freeCtr := t.freeCtr } t)
  ∧ (∀ (s u : State) (c : CoreId) (w ga old : Nat) (r : Except MemErr Nat),
      Issues s c .siga w ∧ ga = ((s.core c).gr (fRa w)).toNat ∧ ga < 2 ^ 54 ∧ (ga / 2 ^ 52 = 1 ∨ ga / 2 ^ 52 = 2) →
      s.wordAdd (s.core c).cid (ga / 2 ^ 52) (ga % 2 ^ 52) ((s.core c).gr (fRb w)).toNat = (u, r) →
      Completes (.siga c) s fun t =>
        (ga % 8 ≠ 0 → s.memCheck (s.core c).cid (ga / 2 ^ 52) (ga % 2 ^ 52) 8 true = .error .cid → t = s.raise c 2 ga)
        ∧ (ga % 8 ≠ 0 → s.memCheck (s.core c).cid (ga / 2 ^ 52) (ga % 2 ^ 52) 8 true = .ok () → t = s.raise c 4 ga)
        ∧ (ga % 8 = 0 → r = .ok old → StepsWithG c (fRd w) (BitVec.ofNat 64 old) u t)
        ∧ (ga % 8 = 0 → r = .error .cid → t = u.raise c 2 ga)
        ∧ (ga % 8 = 0 → r = .error .ue → StepsWithG c (fRd w) ((t.core c).gr (fRd w)) { u with freeCtr := u.freeCtr + 1 } t)
        ∧ (ga % 8 = 0 → r = .error .wait → t = s))
  ∧ (∀ (s : State) (c : CoreId) (w : Nat),
      Issues s c .dmov w →
      Completes (.dmov c) s fun t =>
        (4 ≤ fRd w → t = s.raise c 1)
        ∧ (fRd w < 4 → s.spadOut c ((s.core c).gr (fRa w)).toNat 32 = true → t = s.raise c 3 ((s.core c).gr (fRa w)).toNat)
        ∧ (fRd w < 4 → s.spadOut c ((s.core c).gr (fRa w)).toNat 32 = false → ((s.core c).gr (fRa w)).toNat % 32 ≠ 0 → t = s.raise c 4 ((s.core c).gr (fRa w)).toNat)
        ∧ (fRd w < 4 → s.spadOut c ((s.core c).gr (fRa w)).toNat 32 = false → ((s.core c).gr (fRa w)).toNat % 32 = 0 →
            8 ≤ (((s.core c).chans.getD (fRd w) {}).queue.filter (fun x => !x.taken)).length → t = s)
        ∧ (fRd w < 4 → s.spadOut c ((s.core c).gr (fRa w)).toNat 32 = false → ((s.core c).gr (fRa w)).toNat % 32 = 0 →
            (((s.core c).chans.getD (fRd w) {}).queue.filter (fun x => !x.taken)).length < 8 →
            CoreBecomes c { (s.core c).next with chans := (t.core c).chans, xferNext := (s.core c).xferNext + 1 } s t
            ∧ (t.core c).chans.getD (fRd w) {} = { (s.core c).chans.getD (fRd w) {} with queue := ((s.core c).chans.getD (fRd w) {}).queue ++ [{ id := (s.core c).xferNext, desc := memRead (s.core c).spad ((s.core c).gr (fRa w)).toNat 32, ev := ((s.core c).cur.map (·.id)).getD 0, cid := (s.core c).cid }] }
            ∧ (∀ k : Nat, (k ≠ fRd w → (t.core c).chans.getD k {} = (s.core c).chans.getD k {}))))
  ∧ (∀ (s : State) (c : CoreId) (w : Nat),
      Issues s c .tstream w →
      Completes (.tstream c) s fun t =>
        (tenReserved w = true ∨ tileFmt (fFmt w) = false → t = s.raise c 1)
        ∧ (tenReserved w = false → tileFmt (fFmt w) = true → s.get (Reg.PART_ALLOC.STREAM ((s.coreOwner? c).getD (cidPart (s.core c).cid))) = 0 → t = s.raise c 2)
        ∧ (tenReserved w = false → tileFmt (fFmt w) = true → s.get (Reg.PART_ALLOC.STREAM ((s.coreOwner? c).getD (cidPart (s.core c).cid))) = 1 →
            4 ≤ ((s.core c).chans.getD (fRb w % 4) {}).tiles.length → t = s)
        ∧ (tenReserved w = false → tileFmt (fFmt w) = true → s.get (Reg.PART_ALLOC.STREAM ((s.coreOwner? c).getD (cidPart (s.core c).cid))) = 1 →
            ((s.core c).chans.getD (fRb w % 4) {}).tiles.length < 4 →
            CoreBecomes c { (s.core c).next with chans := (t.core c).chans, fflags := (s.core c).fflags ||| ((s.core c).accAs (fAd w) (fFmt w) false).2 % 16 } s t
            ∧ (t.core c).chans.getD (fRb w % 4) {} = { (s.core c).chans.getD (fRb w % 4) {} with tiles := ((s.core c).chans.getD (fRb w % 4) {}).tiles ++ [(fFmt w, packElems (fmtBits (fFmt w)) ((s.core c).accAs (fAd w) (fFmt w) false).1)] }
            ∧ (∀ k : Nat, (k ≠ fRb w % 4 → (t.core c).chans.getD k {} = (s.core c).chans.getD k {}))))
  ∧ (∀ (s : State) (c : CoreId) (ch : Fin 4),
      ((s.core c).chans.getD ch {}).queue = [] →
      Completes (.droverDescriptorTake c ch) s fun t =>
        t = s)
  ∧ (∀ (s : State) (c : CoreId) (ch : Fin 4) (x : Xfer) (rest : List Xfer) (ws : List Word),
      ((s.core c).chans.getD ch {}).queue = x :: rest ∧ ws = (if dConv x.desc = 0 then [] else s.profileWords (c / 64) (dConv x.desc)) →
      Completes (.droverDescriptorTake c ch) s fun t =>
        (x.taken = true ∨ s.disabled ⟨.drover, c / 64, 0⟩ = true ∨ s.inP2 = true → t = s)
        ∧ (x.taken = false → s.disabled ⟨.drover, c / 64, 0⟩ = false → s.inP2 = false → s.descBad c x ws = true → t = s.xferEnd c ch x 0x10)
        ∧ (x.taken = false → s.disabled ⟨.drover, c / 64, 0⟩ = false → s.inP2 = false → s.descBad c x ws = false →
            CoreBecomes c { s.core c with chans := (t.core c).chans } s t
            ∧ (t.core c).chans.getD ch {} = { (s.core c).chans.getD ch {} with queue := { x with taken := true, prof := ws } :: rest.map (fun y => if y.id = x.id then { y with taken := true, prof := ws } else y) })
        ∧ CoreOnly s t)
  ∧ (∀ (s : State) (c : CoreId) (ch : Fin 4) (seen : Seen),
      ((s.core c).chans.getD ch {}).queue = [] →
      Completes (.droverTransferDone c ch seen) s fun t =>
        t = s)
  ∧ (∀ (s : State) (c : CoreId) (ch : Fin 4) (seen : Seen) (x : Xfer) (rest : List Xfer),
      ((s.core c).chans.getD ch {}).queue = x :: rest →
      Completes (.droverTransferDone c ch seen) s fun t =>
        (x.taken = false ∨ x.stopped = true ∨ s.disabled ⟨.drover, c / 64, 0⟩ = true → t = s.see seen)
        ∧ (x.taken = true → x.stopped = false → s.disabled ⟨.drover, c / 64, 0⟩ = false → x.moved = true → t = (s.see seen).xferSettle c ch x.id)
        ∧ (x.taken = true → x.stopped = false → s.disabled ⟨.drover, c / 64, 0⟩ = false → x.moved = false → (s.see seen).xferGrant c x.desc = false → t = s.see seen)
        ∧ (x.taken = true → x.stopped = false → s.disabled ⟨.drover, c / 64, 0⟩ = false → x.moved = false → (s.see seen).xferGrant c x.desc = true → dSpace (leAt x.desc 8 8) = 3 → t = (s.see seen).xferSend c ch x)
        ∧ (x.taken = true → x.stopped = false → s.disabled ⟨.drover, c / 64, 0⟩ = false → x.moved = false → (s.see seen).xferGrant c x.desc = true → dSpace (leAt x.desc 8 8) ≠ 3 → dConv x.desc = 0 → dLen x.desc ≤ x.got → t = (s.see seen).xferMoved c ch x.id 0)
        ∧ TrafficOnly { s with tiles := t.tiles, tileNext := t.tileNext, tally := t.tally } t)
  ∧ (∀ (s u v : State) (c : CoreId) (ch : Fin 4) (seen : Seen) (x : Xfer) (rest : List Xfer) (bs : List Byte) (r : BufRes Unit),
      ((s.core c).chans.getD ch {}).queue = x :: rest ∧ x.taken = true ∧ x.stopped = false ∧ x.moved = false ∧ s.disabled ⟨.drover, c / 64, 0⟩ = false →
      (s.see seen).xferGrant c x.desc = true ∧ dSpace (leAt x.desc 8 8) ≠ 3 ∧ dConv x.desc = 0 ∧ x.got < dLen x.desc ∧ dLen x.desc ≤ x.got + 4096 →
      (s.see seen).bufRead x.cid (dSrcBuf c x.desc) x.got (dLen x.desc - x.got) = (u, .ok bs) →
      u.placeAt (dDstBuf c x.desc) (xferTile c ch x x.got bs) { engine := 0, write := true, qpn := none } = (v, r) →
      Completes (.droverTransferDone c ch seen) s fun t =>
        (r = .ok () → t = (v.modXfer c ch x.id (fun y => { y with got := x.got + 4096 })).xferMoved c ch x.id 0)
        ∧ (r = .err .cid → t = v.xferMoved c ch x.id 0x22) ∧ (r = .err .ue → t = v.xferMoved c ch x.id 0x40) ∧ (r = .err .wait → t = v))
  ∧ (∀ (s : State) (h : HostId) (k : ClusterId) (e : Fin 256) (i : Fin 4) (v : Word) (p : Profile),
      Takes s h (convOff k e i) ∧ p = profileOf (s.profileWords k e) →
      Completes (.convProfileWrite h k e i v) s fun t =>
        (e.val = 0 → t = s.writeIgnored h (convOff k e i))
        ∧ (p.valid = true → s.owns h p.part = false → t = s.writeIgnored h (convOff k e i))
        ∧ (i.val ≠ 0 → p.valid = true → t = s.writeIgnored h (convOff k e i))
        ∧ (i.val = 0 → (s.owns h (wordField v 16 6) = false ∨ s.pstate (wordField v 16 6) ≠ 2) → t = s.writeIgnored h (convOff k e i))
        ∧ (e.val ≠ 0 → (p.valid = false ∨ s.owns h p.part = true) → (i.val = 0 ∧ s.owns h (wordField v 16 6) = true ∧ s.pstate (wordField v 16 6) = 2 ∨ i.val ≠ 0 ∧ p.valid = false) →
            t = s.applyWrite (convOff k e i) v ∧ RegsBut [convOff k e i] s t ∧ t = { s with regs := t.regs }))

/-- WCHK, KLD, KST, program loads and unloads and spare preloads act as R295, R304 and R306 give. WCHK, KLD and KST on a core that is no
service core raise ILLEGAL. On one, WCHK tells in gd which check of the window failed, or its index after counting the access; KLD reads
and KST writes one quarter of a resident context, and a context that is not resident is fetched first. A load or unload that fails a
check of Table 10.12 tells its RESULT and does nothing else; one that passes places its image, or empties its cores, and tells OK. A
preloaded spare becomes READY with its handle's image, or is kept as a spare until the map commit. -/
def Obligations.ProgramsAndContexts : Prop :=
  (∀ (s : State) (c : CoreId) (w : Nat) (ga gd : Nat) (r : Right),
      Issues s c .wchk w ∧ ga = ((s.core c).gr (fRa w)).toNat ∧ gd = ((s.core c).gr (fRd w)).toNat →
      r = (if bits ga 32 3 = 1 then .read else if bits ga 32 3 = 2 then .write else .atomic) →
      Completes (.wchk c) s fun t =>
        (8 ≤ c % 64 → t = s.raise c 1)
        ∧ (c % 64 < 8 → bits ga 32 3 ≠ 1 → bits ga 32 3 ≠ 2 → bits ga 32 3 ≠ 4 → StepsWithG c (fRd w) 4 s t)
        ∧ (c % 64 < 8 → (bits ga 32 3 = 1 ∨ bits ga 32 3 = 2 ∨ bits ga 32 3 = 4) →
            (∀ code, s.winCheck (bits gd 32 16) (ga % 2 ^ 32) r ((s.core c).gr (fRb w)).toNat (gd % 2 ^ 32) = some (code) →
                StepsWithG c (fRd w) (if code = 2 then 1 else if code = 4 then 2 else if code = 3 then 3 else 4) s t)
            ∧ (s.winCheck (bits gd 32 16) (ga % 2 ^ 32) r ((s.core c).gr (fRb w)).toNat (gd % 2 ^ 32) = none →
                StepsWithG c (fRd w) (BitVec.ofNat 64 (ga / 4096 % 2 ^ 20 * 256)) (s.inflightUp (ga / 4096 % 2 ^ 20)) t))
        ∧ CoreOnly { s with wins := t.wins } t)
  ∧ (∀ (s : State) (c : CoreId) (w q : Nat),
      Issues s c .kldKst w ∧ q = ((s.core c).gr (fRa w)).toNat % 2 ^ 24 →
      Completes (.kldKst c) s fun t =>
        (8 ≤ c % 64 → t = s.raise c 1)
        ∧ (c % 64 < 8 → s.qp? q = none → fOp w = 0x62 → CoreBecomes c (s.core c).next s t)
        ∧ (c % 64 < 8 → s.qp? q = none → fOp w = 0x61 → StepsWithV c (fRd w) ((t.core c).vr (fRd w)) { s with freeCtr := s.freeCtr + 1 } t)
        ∧ (c % 64 < 8 → ∀ x, s.qp? q = some (x) → (x.resident = false → t = s.miss q)
            ∧ (x.resident = true → fOp w = 0x61 → StepsWithV c (fRd w) (BitVec.ofNat 512 (leNat (slice x.ctx.spilled (64 * (w % 4)) 64))) s t)
            ∧ (x.resident = true → fOp w = 0x62 → CoreBecomes c (s.core c).next (s.modCtx q (fun _ => ctxOf (x.ctx.spilled.take (64 * (w % 4)) ++ (s.core c).vBytes (fRd w) ++ x.ctx.spilled.drop (64 * (w % 4) + 64)))) t))
        ∧ CoreOnly { s with kennel := t.kennel, freeCtr := t.freeCtr } t)
  ∧ (∀ (s u : State) (h : HostId) (k : ClusterId) (p : PartId) (d : Bool) (seen : Seen),
      Takes s h (Reg.CLUSTER_PLD_CMD.off k h) ∧ s.get (Reg.CLUSTER_PLD_STS.BUSY k h) = 0 →
      u = ((s.put (Reg.CLUSTER_PLD_CMD.PARTITION k h) p).put (Reg.CLUSTER_PLD_CMD.DISPATCH k h) (if d then 1 else 0)).put (Reg.CLUSTER_PLD_CMD.OP k h) 1 →
      Completes (.programLoad h k p d seen) s fun t =>
        (s.inP2 = true → t.get (Reg.CLUSTER_PLD_STS.DONE k h) = 1 ∧ 9 ≤ t.get (Reg.CLUSTER_PLD_STS.RESULT k h) ∧ t = { s with regs := t.regs, freeCtr := s.freeCtr + 1 })
        ∧ (s.inP2 = false → ∀ r, u.pldCheck k h p 1 = some (r) →
            t.get (Reg.CLUSTER_PLD_STS.BUSY k h) = 0 ∧ t.get (Reg.CLUSTER_PLD_STS.DONE k h) = 1 ∧ t.get (Reg.CLUSTER_PLD_STS.RESULT k h) = r
            ∧ RegsBut [Reg.CLUSTER_PLD_CMD.off k h, Reg.CLUSTER_PLD_STS.off k h] s t ∧ t = { s with regs := t.regs })
        ∧ (s.inP2 = false → u.pldCheck k h p 1 = none → t = (u.see seen).programLoad k h p d)
        ∧ CoreOnly { s with handles := t.handles, digests := t.digests, freeCtr := t.freeCtr, poisoned := t.poisoned } t)
  ∧ (∀ (s u v : State) (h : HostId) (k : ClusterId) (p : PartId) (d : Bool) (seen : Seen) (b : List Byte),
      Takes s h (Reg.CLUSTER_PLD_CMD.off k h) ∧ s.get (Reg.CLUSTER_PLD_STS.BUSY k h) = 0 ∧ s.inP2 = false →
      u = ((s.put (Reg.CLUSTER_PLD_CMD.PARTITION k h) p).put (Reg.CLUSTER_PLD_CMD.DISPATCH k h) (if d then 1 else 0)).put (Reg.CLUSTER_PLD_CMD.OP k h) 1 →
      u.pldCheck k h p 1 = none →
      (u.see seen).memReadC (p * 1024 + 0x3FF) (s.get (Reg.CLUSTER_PLD_ADDR_HI.SPACE k h)) (s.pair (Reg.CLUSTER_PLD_ADDR_LO.ADDR_LO k h) (Reg.CLUSTER_PLD_ADDR_HI.ADDR_HI k h)) (4096 * s.get (Reg.CLUSTER_PLD_LEN.PAGES k h)) = (v, .ok b) →
      imgHeaderOk b (s.get (Reg.CLUSTER_PLD_LEN.PAGES k h)) = false →
      Completes (.programLoad h k p d seen) s fun t =>
        t.get (Reg.CLUSTER_PLD_STS.BUSY k h) = 0 ∧ t.get (Reg.CLUSTER_PLD_STS.DONE k h) = 1 ∧ t.get (Reg.CLUSTER_PLD_STS.RESULT k h) = 2
        ∧ RegsBut [Reg.CLUSTER_PLD_STS.off k h] v t ∧ t = { v with regs := t.regs })
  ∧ (∀ (s u : State) (h : HostId) (k : ClusterId) (p : PartId),
      Takes s h (Reg.CLUSTER_PLD_CMD.off k h) ∧ s.get (Reg.CLUSTER_PLD_STS.BUSY k h) = 0 →
      u = ((s.put (Reg.CLUSTER_PLD_CMD.PARTITION k h) p).put (Reg.CLUSTER_PLD_CMD.DISPATCH k h) 0).put (Reg.CLUSTER_PLD_CMD.OP k h) 2 →
      Completes (.programUnload h k p) s fun t =>
        (s.inP2 = true → t.get (Reg.CLUSTER_PLD_STS.DONE k h) = 1 ∧ 9 ≤ t.get (Reg.CLUSTER_PLD_STS.RESULT k h) ∧ t = { s with regs := t.regs, freeCtr := s.freeCtr + 1 })
        ∧ (s.inP2 = false → ∀ r, u.pldCheck k h p 2 = some (r) →
            t.get (Reg.CLUSTER_PLD_STS.BUSY k h) = 0 ∧ t.get (Reg.CLUSTER_PLD_STS.DONE k h) = 1 ∧ t.get (Reg.CLUSTER_PLD_STS.RESULT k h) = r
            ∧ RegsBut [Reg.CLUSTER_PLD_CMD.off k h, Reg.CLUSTER_PLD_STS.off k h] s t ∧ t = { s with regs := t.regs })
        ∧ (s.inP2 = false → u.pldCheck k h p 2 = none → t.get (Reg.CLUSTER_PLD_STS.BUSY k h) = 0 ∧ t.get (Reg.CLUSTER_PLD_STS.DONE k h) = 1 ∧ t.get (Reg.CLUSTER_PLD_STS.RESULT k h) = 0
            ∧ t = (((u.pldCores k h).foldl State.emptyCore u).flushKeyCmds.purgeHandles).pldEnd k h 0)
        ∧ CoreOnly { s with handles := t.handles, digests := t.digests, freeCtr := t.freeCtr, sec := t.sec } t)
  ∧ (∀ (s : State) (c : CoreId),
      Completes (.sparePreloadDone c) s fun t =>
        (s.handles.at? (s.get (Reg.CLUSTER_CORE_HANDLE.HANDLE (c / 64) (c % 64))) = none → t = s)
        ∧ (∀ x, s.handles.at? (s.get (Reg.CLUSTER_CORE_HANDLE.HANDLE (c / 64) (c % 64))) = some (x) →
            ((s.core c).preload = true → t.coreSt c = 1 ∧ t.core c = { s.core c with preload := false }.placed x.image ∧ CoresBut [c.val] s t
                ∧ RegsBut [Reg.CLUSTER_CORE_STS.off (c / 64) (c % 64), Reg.CLUSTER_CORE_EPC.off (c / 64) (c % 64), Reg.CLUSTER_CORE_HANDLE.off (c / 64) (c % 64)] s t
                ∧ t = { s with regs := t.regs, cores := t.cores, tally := t.tally })
            ∧ ((s.core c).preload = false → s.get (Reg.CLUSTER_LMAP.FENCED (c / 64) (c % 64)) = 1 → t = { s with spares := addTo s.spares c })
            ∧ ((s.core c).preload = false → s.get (Reg.CLUSTER_LMAP.FENCED (c / 64) (c % 64)) = 0 → t = s)))

/-- Fault entries are resolved, fail and time out, batches are written and the park registers are locked as R193 to R199 give. A
SHEEP_RESOLVE of a FAULT_ID that is not outstanding only counts SHEEP_RESOLVE_REJ; of one that is, the fragment entry is read again:
present, its waiters go on in their order, else the waiters move to a new entry. With FAIL, or at the timeout, which is counted, the
waiters fail. A batch closes 20 us after it opened; a closed batch is written whole where the ring has room, SHEEP_PROD advances by its
records, vector 1 is raised once and the waiting records open the next batch. The park registers change only while no tile is parked or
held, else PARK_REJ is set. -/
def Obligations.FaultEntriesAndBatches : Prop :=
  (∀ (s : State) (h : HostId) (i : BitVec 12) (seen : Seen),
      Takes s h (Reg.SHEEP_RESOLVE.off h) →
      Completes (.sheepResolve h i seen) s fun t =>
        (((s.see seen).sheep h).entries.find? (fun e => e.id == i.toNat) = none → t = (s.see seen).count (Reg.SHEEP_RESOLVE_REJ.COUNT h))
        ∧ (∀ e, ((s.see seen).sheep h).entries.find? (fun e => e.id == i.toNat) = some e → ((s.see seen).fragPresent e).2 = true →
            t = e.waiters.foldl (fun s w => s.release e.id w) (((s.see seen).fragPresent e).1.setSheep h ((((s.see seen).fragPresent e).1.sheep h).remove e.id)))
        ∧ (∀ e, ((s.see seen).sheep h).entries.find? (fun e => e.id == i.toNat) = some e → ((s.see seen).fragPresent e).2 = false →
            t = ((s.see seen).fragPresent e).1.reopen h e))
  ∧ (∀ (s : State) (h : HostId) (i : BitVec 12),
      Takes s h (Reg.SHEEP_RESOLVE.off h) →
      Completes (.sheepFail h i) s fun t =>
        ((s.sheep h).entries.find? (fun e => e.id == i.toNat) = none → t = s.count (Reg.SHEEP_RESOLVE_REJ.COUNT h))
        ∧ (∀ e, (s.sheep h).entries.find? (fun e => e.id == i.toNat) = some e → t = (e.waiters.foldl State.failWaiter (s.setSheep h ((s.sheep h).remove e.id))).parkHeld)
        ∧ (∀ e, (s.sheep h).entries.find? (fun e => e.id == i.toNat) = some e → e.waiters = [] → s.tiles = [] →
            t.sheep h = (s.sheep h).remove e.id ∧ FieldsBut [Reg.SHEEP_STS.OUTSTANDING h] s t ∧ t = { s with regs := t.regs, sheep0 := t.sheep0, sheep1 := t.sheep1 })
        ∧ CoreOnly { s with held := t.held, kennel := t.kennel, sheep0 := t.sheep0, sheep1 := t.sheep1, tiles := t.tiles, memsys := t.memsys, freeCtr := t.freeCtr } t)
  ∧ (∀ (s : State) (h : HostId) (i : BitVec 12),
      Completes (.sheepTimeout h i) s fun t =>
        ((s.sheep h).entries.find? (fun e => e.id == i.toNat) = none → t = s)
        ∧ (∀ e, (s.sheep h).entries.find? (fun e => e.id == i.toNat) = some e →
            t = (e.waiters.foldl State.failWaiter ((s.count (Reg.SHEEP_TIMEOUT_CNT.COUNT h)).setSheep h ((s.sheep h).remove e.id))).parkHeld)
        ∧ CoreOnly { s with held := t.held, kennel := t.kennel, sheep0 := t.sheep0, sheep1 := t.sheep1, tiles := t.tiles, memsys := t.memsys, freeCtr := t.freeCtr } t)
  ∧ (∀ (s : State) (h : HostId),
      Completes (.sheepBatchTimeout h) s fun t =>
        ((s.sheep h).batch = [] → t = s)
        ∧ ((s.sheep h).batch ≠ [] → t.sheep h = { s.sheep h with closed := true } ∧ t = s.setSheep h { s.sheep h with closed := true })
        ∧ FieldsBut [Reg.SHEEP_STS.OUTSTANDING h] s t ∧ t = { s with regs := t.regs, sheep0 := t.sheep0, sheep1 := t.sheep1 })
  ∧ (∀ (s : State) (h : HostId),
      Completes (.sheepBatchWrite h) s fun t =>
        ((s.sheep h).closed = false ∨ (s.sheep h).batch = [] ∨ s.sheepRoom h (s.sheep h).batch.length = false → t = s)
        ∧ ((s.sheep h).closed = true → (s.sheep h).batch ≠ [] → s.sheepRoom h (s.sheep h).batch.length = true →
            (t.sheep h).batch = (s.sheep h).later.take 64 ∧ (t.sheep h).later = (s.sheep h).later.drop 64 ∧ (t.sheep h).seq = ((s.sheep h).seq + 1) % 65536
            ∧ (t.sheep h).entries = (s.sheep h).entries.map (fun e => if (s.sheep h).batch.contains e.id then { e with written := true } else e)
            ∧ t.get (Reg.SHEEP_PROD.INDEX h) = (s.get (Reg.SHEEP_PROD.INDEX h) + (s.sheep h).batch.length) % 2 ^ s.get (Reg.SHEEP_RING_CTL.LOG2_SIZE h) % 2 ^ 16)
        ∧ (∀ i, (s.sheep h).batch = [i] → (s.sheep h).closed = true → s.sheepRoom h 1 = true → ∀ e, (s.sheep h).entries.find? (fun x => x.id == i) = some e →
            t = (((s.writeHost h (s.pair (Reg.SHEEP_RING_LO.BASE_LO h) (Reg.SHEEP_RING_HI.BASE_HI h) + 32 * (s.get (Reg.SHEEP_PROD.INDEX h) % 2 ^ s.get (Reg.SHEEP_RING_CTL.LOG2_SIZE h)))
                (e.record (s.sheep h).seq true)).put (Reg.SHEEP_PROD.INDEX h) ((s.get (Reg.SHEEP_PROD.INDEX h) + 1) % 2 ^ s.get (Reg.SHEEP_RING_CTL.LOG2_SIZE h))).setSheep h (t.sheep h)).vector h 1)
        ∧ t = { s with regs := t.regs, host0 := t.host0, host1 := t.host1, sheep0 := t.sheep0, sheep1 := t.sheep1, hostMem0 := t.hostMem0, hostMem1 := t.hostMem1, out := t.out })
  ∧ (∀ (s : State) (h : HostId) (r : Fin 3) (v : Word),
      Takes s h (parkOff r) →
      Completes (.sheepParkWrite h r v) s fun t =>
        (s.tiles ≠ [] → t = s.put Reg.WIN_STS.PARK_REJ 1)
        ∧ (s.tiles = [] → RegsBut [parkOff r] s t ∧ t = { s with regs := t.regs }
            ∧ (r = 0 → t.get Reg.SHEEP_PARK_BASE_LO.ADDR_LO = wordField v 20 12)
            ∧ (r = 1 → t.get Reg.SHEEP_PARK_BASE_HI.ADDR_HI = wordField v 0 20)
            ∧ (r = 2 → wordField v 0 13 ≤ 4096 → t.get Reg.SHEEP_PARK_SIZE.UNITS = wordField v 0 13)))

/-- A revocation starts, fences and drains, and the shares of windows and trigger slots are set as R181 to R205 give. WIN_REVOKE of a
key of another partition, of no open window or of another generation sets REJ; otherwise the revocation starts or is joined, and BUSY is
set. The fence point turns the OPEN window to REVOKING under the next generation, 1 after 4,095. A committed access takes one from
INFLIGHT. A window share or trigger range that would pass the totals or overlap another partition's sets CFG_REJ and changes nothing
else; in CONFIG a good one is set; outside CONFIG it keeps its value and PART_STS.CFG_REJ is set. -/
def Obligations.WindowRevocationAndShares : Prop :=
  (∀ (s : State) (h : HostId) (p : PartId) (v : Word),
      Takes s h (Reg.WIN_REVOKE.off p) →
      Completes (.winRevoke h p v) s fun t =>
        ((s.win (v.toNat / 4096)).state ≠ 0 → cidPart (s.win (v.toNat / 4096)).cid ≠ p → t = s.put (Reg.WIN_REVOKE_STS.REJ p) 1)
        ∧ (v.toNat / 4096 = 0 ∨ v.toNat % 4096 = 0 ∨ (s.win (v.toNat / 4096)).state = 0 ∨ ((s.win (v.toNat / 4096)).state = 1 ∧ (s.win (v.toNat / 4096)).gen ≠ v.toNat % 4096) → t = s.put (Reg.WIN_REVOKE_STS.REJ p) 1)
        ∧ (v.toNat / 4096 ≠ 0 → v.toNat % 4096 ≠ 0 → (s.win (v.toNat / 4096)).state = 1 → (s.win (v.toNat / 4096)).gen = v.toNat % 4096 → cidPart (s.win (v.toNat / 4096)).cid = p →
            t.get (Reg.WIN_REVOKE_STS.BUSY p) = 1 ∧ FieldsBut [Reg.WIN_REVOKE_STS.BUSY p] s t ∧ t.wins.desc = s.wins.desc
            ∧ (s.wins.revs.any (fun r => r.index == v.toNat / 4096) = false → t.wins.revs = s.wins.revs ++ [{ index := v.toNat / 4096, waiters := [.reg p] }])
            ∧ (s.wins.revs.any (fun r => r.index == v.toNat / 4096) = true → t.wins.revs = s.wins.revs.map (fun r => if r.index = v.toNat / 4096 then { r with waiters := r.waiters ++ [.reg p] } else r)))
        ∧ t = { s with regs := t.regs, wins := t.wins })
  ∧ (∀ (s : State) (i : BitVec 20),
      Completes (.revocationFence i) s fun t =>
        (s.wins.revs.any (fun r => r.index == i.toNat && !r.fenced) = false ∨ (s.win i.toNat).state ≠ 1 → t = s)
        ∧ (s.wins.revs.any (fun r => r.index == i.toNat && !r.fenced) = true → (s.win i.toNat).state = 1 →
            t.win i.toNat = { s.win i.toNat with state := 2, gen := if (s.win i.toNat).gen = 4095 then 1 else (s.win i.toNat).gen + 1 }
            ∧ t.wins.revs = s.wins.revs.map (fun r => if r.index = i.toNat then { r with fenced := true } else r)
            ∧ (∀ j : Nat, j ≠ i.toNat → t.win j = s.win j) ∧ t = { s with wins := t.wins }))
  ∧ (∀ (s : State) (i : BitVec 20),
      Completes (.accessCommitted i) s fun t =>
        t.win i.toNat = { s.win i.toNat with inflight := (s.win i.toNat).inflight - 1 } ∧ (∀ j : Nat, j ≠ i.toNat → t.win j = s.win j)
        ∧ t = { s with wins := { s.wins with desc := t.wins.desc } })
  ∧ (∀ (s : State) (h : HostId) (p : PartId) (v : Word),
      Takes s h (Reg.WIN_SHARE.off p) →
      Completes (.winShareWrite h p v) s fun t =>
        (s.pstate p = 1 → 1048575 < (List.range 64).foldl (fun a q => a + (if q = p.val then wordField v 0 21 else s.get (Reg.WIN_SHARE.WINDOWS q))) 0 →
            t = s.put (Reg.WIN_PSTS.CFG_REJ p) 1)
        ∧ (s.pstate p = 1 → (List.range 64).foldl (fun a q => a + (if q = p.val then wordField v 0 21 else s.get (Reg.WIN_SHARE.WINDOWS q))) 0 ≤ 1048575 →
            t.get (Reg.WIN_SHARE.WINDOWS p) = wordField v 0 21 ∧ FieldsBut [Reg.WIN_SHARE.WINDOWS p] s t)
        ∧ (s.pstate p ≠ 1 → t = s.put (Reg.PART_STS.CFG_REJ p) 1)
        ∧ t = { s with regs := t.regs })
  ∧ (∀ (s : State) (h : HostId) (p : PartId) (num : Bool) (v : Word) (b n : Nat),
      Takes s h (if num then Reg.TRIG_NUM.off p else Reg.TRIG_BASE.off p) →
      b = (if num then s.get (Reg.TRIG_BASE.BASE p) else wordField v 0 16) ∧ n = (if num then wordField v 0 17 else s.get (Reg.TRIG_NUM.NUM p)) →
      Completes (.trigRangeWrite h p num v) s fun t =>
        (s.pstate p = 1 → 65536 < b + n → t = s.put (Reg.WIN_PSTS.CFG_REJ p) 1)
        ∧ (s.pstate p = 1 → ((List.range 64).any (fun q => q != p.val && overlap b n (s.get (Reg.TRIG_BASE.BASE q)) (s.get (Reg.TRIG_NUM.NUM q)))) = true → t = s.put (Reg.WIN_PSTS.CFG_REJ p) 1)
        ∧ (s.pstate p = 1 → b + n ≤ 65536 → ((List.range 64).any (fun q => q != p.val && overlap b n (s.get (Reg.TRIG_BASE.BASE q)) (s.get (Reg.TRIG_NUM.NUM q)))) = false →
            t.get (Reg.TRIG_BASE.BASE p) = b ∧ t.get (Reg.TRIG_NUM.NUM p) = n ∧ FieldsBut [Reg.TRIG_BASE.BASE p, Reg.TRIG_NUM.NUM p] s t)
        ∧ (s.pstate p ≠ 1 → t = s.put (Reg.PART_STS.CFG_REJ p) 1)
        ∧ t = { s with regs := t.regs })

/-- CREATE, MODIFY, QUERY and DESTROY of a queue pair answer their result once, or wait for the context. While BUSY a KENNEL command
only sets QPN and OP. Otherwise CREATE, and a command on a resident context or none, runs to its end: DONE is set, RESULT is the
command's, and vector 3 is raised: NO_RIGHT for a host that may not act, BAD_STATE for a queue pair that does not exist (or, of CREATE,
exists), BAD_FIELD for a bad image, NO_SLOT without a tier-1 slot. A command of an entitled host on a spilled context sets BUSY and
waits for the fetch. In P2 a command ends BAD_STATE. -/
def Obligations.KennelCommands : Prop :=
  (∀ (s : State) (h : HostId) (q : BitVec 24) (seen : Seen),
      Takes s h (Reg.KENNEL_CMD.off h) →
      Completes (.kennelCreate h q seen) s fun t =>
        (s.flag (Reg.KENNEL_CMD_STS.BUSY h) = true → t.get (Reg.KENNEL_CMD.QPN h) = q.toNat ∧ t.get (Reg.KENNEL_CMD.OP h) = 1 ∧ FieldsBut [Reg.KENNEL_CMD.QPN h, Reg.KENNEL_CMD.OP h] s t ∧ t = { s with regs := t.regs })
        ∧ (s.flag (Reg.KENNEL_CMD_STS.BUSY h) = false → s.inP2 = true → t.get (Reg.KENNEL_CMD_STS.DONE h) = 1 ∧ t.get (Reg.KENNEL_CMD_STS.RESULT h) = 1 ∧ ReportsOnly s t))
  ∧ (∀ (s u : State) (h : HostId) (q : BitVec 24) (seen : Seen) (a : Nat) (b : List Byte),
      Takes s h (Reg.KENNEL_CMD.off h) ∧ s.flag (Reg.KENNEL_CMD_STS.BUSY h) = false ∧ s.inP2 = false →
      u = ((s.put (Reg.KENNEL_CMD.QPN h) q.toNat).put (Reg.KENNEL_CMD.OP h) 1).see seen ∧ a = u.pair (Reg.KENNEL_CMD_ADDR_LO.ADDR_LO h) (Reg.KENNEL_CMD_ADDR_HI.ADDR_HI h) ∧ b = u.hostRead h a 256 →
      Completes (.kennelCreate h q seen) s fun t =>
        (u.kennelRights h q.toNat (some (cidPart (ctxOf b).cid)) = false → t = u.kcmdEnd h 3)
        ∧ (u.kennelRights h q.toNat (some (cidPart (ctxOf b).cid)) = true → u.pstate (cidPart (ctxOf b).cid) = 1 → t = u.kcmdEnd h 3)
        ∧ (u.kennelRights h q.toNat (some (cidPart (ctxOf b).cid)) = true → u.pstate (cidPart (ctxOf b).cid) = 2 → imageOk b = false ∨ (ctxOf b).qpn ≠ q.toNat ∨ u.instPart? (cidInst (ctxOf b).cid) ≠ some (cidPart (ctxOf b).cid) ∨ u.queuesOk (ctxOf b) = false → t = u.kcmdEnd h 2)
        ∧ (u.kennelRights h q.toNat (some (cidPart (ctxOf b).cid)) = true → u.pstate (cidPart (ctxOf b).cid) = 2 → imageOk b = true → (ctxOf b).qpn = q.toNat → u.instPart? (cidInst (ctxOf b).cid) = some (cidPart (ctxOf b).cid) → u.queuesOk (ctxOf b) = true → (ctxOf b).tier = 0 →
            (u.qp? q.toNat ≠ none ∨ (ctxOf b).state ≠ 1 → t = u.kcmdEnd h 1)
            ∧ (u.qp? q.toNat = none → (ctxOf b).state = 1 → u.tier1Slot? = none → t = u.kcmdEnd h 4)
            ∧ (u.qp? q.toNat = none → (ctxOf b).state = 1 → ∀ k, u.tier1Slot? = some (k) →
                t.get (Reg.KENNEL_CMD_STS.RESULT h) = 0 ∧ t.get (Reg.KENNEL_CMD_STS.DONE h) = 1
                ∧ (t.qp? q.toNat).map (·.ctx.state) = some 1 ∧ (t.qp? q.toNat).map (·.ctx.spill) = some k ∧ (t.qp? q.toNat).map (·.ctx.cid) = some (ctxOf b).cid
                ∧ (t.qp? q.toNat).map (·.ctx.sq) = some (ctxOf b).sq))
        ∧ TrafficOnly s t)
  ∧ (∀ (s : State) (h : HostId) (q : BitVec 24) (seen : Seen),
      Takes s h (Reg.KENNEL_CMD.off h) →
      Completes (.kennelModify h q seen) s fun t =>
        (s.flag (Reg.KENNEL_CMD_STS.BUSY h) = true → t.get (Reg.KENNEL_CMD.QPN h) = q.toNat ∧ t.get (Reg.KENNEL_CMD.OP h) = 2 ∧ FieldsBut [Reg.KENNEL_CMD.QPN h, Reg.KENNEL_CMD.OP h] s t ∧ t = { s with regs := t.regs })
        ∧ (s.flag (Reg.KENNEL_CMD_STS.BUSY h) = false → s.inP2 = true → t.get (Reg.KENNEL_CMD_STS.DONE h) = 1 ∧ t.get (Reg.KENNEL_CMD_STS.RESULT h) = 1 ∧ ReportsOnly s t))
  ∧ (∀ (s u : State) (h : HostId) (q : BitVec 24) (seen : Seen) (a : Nat) (b : List Byte),
      Takes s h (Reg.KENNEL_CMD.off h) ∧ s.flag (Reg.KENNEL_CMD_STS.BUSY h) = false ∧ s.inP2 = false →
      u = ((s.put (Reg.KENNEL_CMD.QPN h) q.toNat).put (Reg.KENNEL_CMD.OP h) 2).see seen ∧ a = u.pair (Reg.KENNEL_CMD_ADDR_LO.ADDR_LO h) (Reg.KENNEL_CMD_ADDR_HI.ADDR_HI h) ∧ b = u.hostRead h a 256 →
      Completes (.kennelModify h q seen) s fun t =>
        (u.kennelRights h q.toNat (some (cidPart (ctxOf b).cid)) = false → t = u.kcmdEnd h 3)
        ∧ (u.kennelRights h q.toNat (some (cidPart (ctxOf b).cid)) = true → u.qp? q.toNat = none → t = (u.put (Reg.KENNEL_CMD_STS.BUSY h) 1).kcmdEnd h 1)
        ∧ (u.kennelRights h q.toNat (some (cidPart (ctxOf b).cid)) = true → ∀ x, u.qp? q.toNat = some x →
            (x.resident = true → u.kennel.bad.contains q.toNat = false → t = (u.put (Reg.KENNEL_CMD_STS.BUSY h) 1).kennelModify h q.toNat b)
            ∧ (x.resident = false → x.place ≠ .victim → t.get (Reg.KENNEL_CMD_STS.BUSY h) = 1 ∧ t.kennel.jobs.contains (q.toNat, .cmd h 2 a b) = true ∧ t = { u with regs := t.regs, kennel := t.kennel })
            ∧ (x.resident = true → u.kennel.bad.contains q.toNat = false → imageOk b = true → (ctxOf b).qpn = q.toNat → u.queuesOk { ctxOf b with cid := x.ctx.cid } = true → x.ctx.pin = false → (ctxOf b).state ≠ 6 →
                (modified x.ctx (ctxOf b) = none → t = (u.put (Reg.KENNEL_CMD_STS.BUSY h) 1).kcmdEnd h 1)
                ∧ (∀ c, modified x.ctx (ctxOf b) = some c → c.state ≠ 0 → t = (((u.put (Reg.KENNEL_CMD_STS.BUSY h) 1).setQp q.toNat { x with ctx := c }).checkDrained q.toNat).kcmdEnd h 0)))
        ∧ TrafficOnly s t)
  ∧ (∀ (s : State) (h : HostId) (q : BitVec 24) (seen : Seen),
      Takes s h (Reg.KENNEL_CMD.off h) →
      Completes (.kennelQuery h q seen) s fun t =>
        (s.flag (Reg.KENNEL_CMD_STS.BUSY h) = true → t.get (Reg.KENNEL_CMD.QPN h) = q.toNat ∧ t.get (Reg.KENNEL_CMD.OP h) = 3 ∧ FieldsBut [Reg.KENNEL_CMD.QPN h, Reg.KENNEL_CMD.OP h] s t ∧ t = { s with regs := t.regs })
        ∧ (s.flag (Reg.KENNEL_CMD_STS.BUSY h) = false → s.inP2 = true → t.get (Reg.KENNEL_CMD_STS.DONE h) = 1 ∧ t.get (Reg.KENNEL_CMD_STS.RESULT h) = 1 ∧ ReportsOnly s t))
  ∧ (∀ (s u : State) (h : HostId) (q : BitVec 24) (seen : Seen) (a : Nat) (b : List Byte),
      Takes s h (Reg.KENNEL_CMD.off h) ∧ s.flag (Reg.KENNEL_CMD_STS.BUSY h) = false ∧ s.inP2 = false →
      u = ((s.put (Reg.KENNEL_CMD.QPN h) q.toNat).put (Reg.KENNEL_CMD.OP h) 3).see seen ∧ a = u.pair (Reg.KENNEL_CMD_ADDR_LO.ADDR_LO h) (Reg.KENNEL_CMD_ADDR_HI.ADDR_HI h) ∧ b = u.hostRead h a 256 →
      Completes (.kennelQuery h q seen) s fun t =>
        (u.kennelRights h q.toNat (none) = false → t = u.kcmdEnd h 3)
        ∧ (u.kennelRights h q.toNat (none) = true → u.qp? q.toNat = none → t = (u.put (Reg.KENNEL_CMD_STS.BUSY h) 1).kcmdEnd h 1)
        ∧ (u.kennelRights h q.toNat (none) = true → ∀ x, u.qp? q.toNat = some x →
            (x.resident = true → u.kennel.bad.contains q.toNat = false → t = (u.put (Reg.KENNEL_CMD_STS.BUSY h) 1).kennelQuery h q.toNat a)
            ∧ (x.resident = false → x.place ≠ .victim → t.get (Reg.KENNEL_CMD_STS.BUSY h) = 1 ∧ t.kennel.jobs.contains (q.toNat, .cmd h 3 a b) = true ∧ t = { u with regs := t.regs, kennel := t.kennel })
            ∧ (x.resident = true → u.kennel.bad.contains q.toNat = false → t = ((u.put (Reg.KENNEL_CMD_STS.BUSY h) 1).writeHost h a (x.ctx.body ++ [0, 0, 0, 0])).kcmdEnd h 0))
        ∧ TrafficOnly s t)
  ∧ (∀ (s : State) (h : HostId) (q : BitVec 24) (seen : Seen),
      Takes s h (Reg.KENNEL_CMD.off h) →
      Completes (.kennelDestroy h q seen) s fun t =>
        (s.flag (Reg.KENNEL_CMD_STS.BUSY h) = true → t.get (Reg.KENNEL_CMD.QPN h) = q.toNat ∧ t.get (Reg.KENNEL_CMD.OP h) = 4 ∧ FieldsBut [Reg.KENNEL_CMD.QPN h, Reg.KENNEL_CMD.OP h] s t ∧ t = { s with regs := t.regs })
        ∧ (s.flag (Reg.KENNEL_CMD_STS.BUSY h) = false → s.inP2 = true → t.get (Reg.KENNEL_CMD_STS.DONE h) = 1 ∧ t.get (Reg.KENNEL_CMD_STS.RESULT h) = 1 ∧ ReportsOnly s t))
  ∧ (∀ (s u : State) (h : HostId) (q : BitVec 24) (seen : Seen) (a : Nat) (b : List Byte),
      Takes s h (Reg.KENNEL_CMD.off h) ∧ s.flag (Reg.KENNEL_CMD_STS.BUSY h) = false ∧ s.inP2 = false →
      u = ((s.put (Reg.KENNEL_CMD.QPN h) q.toNat).put (Reg.KENNEL_CMD.OP h) 4).see seen ∧ a = u.pair (Reg.KENNEL_CMD_ADDR_LO.ADDR_LO h) (Reg.KENNEL_CMD_ADDR_HI.ADDR_HI h) ∧ b = u.hostRead h a 256 →
      Completes (.kennelDestroy h q seen) s fun t =>
        (u.kennelRights h q.toNat (none) = false → t = u.kcmdEnd h 3)
        ∧ (u.kennelRights h q.toNat (none) = true → u.qp? q.toNat = none → t = (u.put (Reg.KENNEL_CMD_STS.BUSY h) 1).kcmdEnd h 1)
        ∧ (u.kennelRights h q.toNat (none) = true → ∀ x, u.qp? q.toNat = some x →
            (x.resident = true → u.kennel.bad.contains q.toNat = false → t = (u.put (Reg.KENNEL_CMD_STS.BUSY h) 1).kennelDestroy h q.toNat)
            ∧ (x.resident = false → x.place ≠ .victim → t.get (Reg.KENNEL_CMD_STS.BUSY h) = 1 ∧ t.kennel.jobs.contains (q.toNat, .cmd h 4 a b) = true ∧ t = { u with regs := t.regs, kennel := t.kennel })
            ∧ (x.resident = true → u.kennel.bad.contains q.toNat = false → x.ctx.state = 3 ∨ x.ctx.state = 4 → t = (u.put (Reg.KENNEL_CMD_STS.BUSY h) 1).kcmdEnd h 1)
            ∧ (x.resident = true → u.kennel.bad.contains q.toNat = false → x.ctx.state ≠ 3 → x.ctx.state ≠ 4 → x.ctx.pin = true → t = (u.put (Reg.KENNEL_CMD_STS.BUSY h) 1).kcmdEnd h 5)
            ∧ (x.resident = true → u.kennel.bad.contains q.toNat = false → x.ctx.state ≠ 3 → x.ctx.state ≠ 4 → x.ctx.pin = false → t = ((u.put (Reg.KENNEL_CMD_STS.BUSY h) 1).dropQp q.toNat).kcmdEnd h 0 ∧ t.qp? q.toNat = none ∧ t.get Reg.KENNEL_STS.QPS = (u.get Reg.KENNEL_STS.QPS - 1) % 2 ^ 25))
        ∧ TrafficOnly s t)

/-- A frame for a stage core is placed in its ring with its FRAME event, or counted; its verdict follows as R332 to R334 give. The
oldest frame for a core leaves the way to it. It is dropped and counted in CLUSTER_STAGE_DROP where the core is fenced or vacant, no
stage of the active image, without mode 1, EMPTY, FAULTED or VACANT, or full of events, and where its ring has too few free cells;
otherwise its bytes stand in its cells with the verdict word behind them, 0 while the verdict is open, 1 for a good frame, 2 for a bad
one, and its FRAME event is queued. A later verdict writes the word; a bad one is counted and cancels what the event has not begun to
send. -/
def Obligations.StageFrames : Prop :=
  (∀ (s : State) (c : CoreId) (known : Bool),
      Completes (.stageFrameDelivery c known) s fun t =>
        (s.stageIn.findIdx? (fun f => f.core == c.val) = none → t = s)
        ∧ (∀ f, s.stageIn.find? (fun f => f.core == c.val) = some f → s.stageOpen f = false → t = s)
        ∧ t = { s with regs := t.regs, scriv := t.scriv, host0 := t.host0, host1 := t.host1, sched := t.sched, ports := t.ports, mesh := t.mesh, stageIn := t.stageIn, qps := t.qps, trigs := t.trigs, queues := t.queues, cores := t.cores, collEnds := t.collEnds, tally := t.tally, ddrBad := t.ddrBad, hostMem0 := t.hostMem0, hostMem1 := t.hostMem1, ddr := t.ddr, out := t.out })
  ∧ (∀ (s u : State) (c : CoreId) (known : Bool) (i : Nat) (f : StageFrame),
      s.stageIn.findIdx? (fun f => f.core == c.val) = some i ∧ s.stageIn[i]? = some f ∧ s.stageOpen f = true →
      u = ({ s with stageIn := s.stageIn.eraseIdx i } : State).frameGone f.frame →
      Completes (.stageFrameDelivery c known) s fun t =>
        (u.coreStopped c = true ∨ u.stageCore c = false ∨ u.spMode1 c = false ∨ u.coreSt c = 0 ∨ u.coreSt c = 3 ∨ u.coreSt c = 5 ∨ 16 ≤ (u.core c).events.length → t = u.count (Reg.CLUSTER_STAGE_DROP.COUNT (c / 64)))
        ∧ (u.cellFor c f.bytes.length = none → t = u.count (Reg.CLUSTER_STAGE_DROP.COUNT (c / 64)))
        ∧ (u.coreStopped c = false → u.stageCore c = true → u.spMode1 c = true → u.coreSt c = 1 ∨ u.coreSt c = 2 ∨ u.coreSt c = 4 → (u.core c).events.length < 16 →
            ∀ x, u.cellFor c f.bytes.length = some (x) →
              (f.good = true ∨ (f.cut = true ∧ known = false) →
                (t.core c).spad = memWrite (memWrite (s.core c).spad (0x28000 + 256 * x) f.bytes) (0x28000 + 256 * x + 8 * ceilDiv f.bytes.length 8) (leBytes 8 (if f.cut && !known then 0 else 1))
                ∧ (t.core c).events.length = (s.core c).events.length + 1 ∧ (t.core c).events.getLast?.map (fun e => (e.kind, e.cell, e.cells, e.id)) = some (1, x, frameCells f.bytes.length, (s.core c).evNext)
                ∧ (t.core c).ringNext = x + frameCells f.bytes.length ∧ CoresBut [c.val] s t
                ∧ (t.core c).verdicts = (if f.cut && !known then (s.core c).verdicts ++ [{ ev := (s.core c).evNext, off := 0x28000 + 256 * x + 8 * ceilDiv f.bytes.length 8, good := f.good }] else (s.core c).verdicts))
              ∧ (f.good = false → f.cut = false ∨ known = true → (t.get (Reg.CLUSTER_FRAME_BAD.COUNT (c / 64)) = min (u.get (Reg.CLUSTER_FRAME_BAD.COUNT (c / 64)) + 1) (2 ^ 32 - 1)))))
  ∧ (∀ (s : State) (c : CoreId),
      Completes (.frameVerdict c) s fun t =>
        ((s.core c).verdicts = [] → t = s)
        ∧ (s.stageIn = t.stageIn ∧ t = { s with regs := t.regs, scriv := t.scriv, host0 := t.host0, host1 := t.host1, sched := t.sched, ports := t.ports, mesh := t.mesh, qps := t.qps, trigs := t.trigs, queues := t.queues, cores := t.cores, collEnds := t.collEnds, tally := t.tally, ddrBad := t.ddrBad, hostMem0 := t.hostMem0, hostMem1 := t.hostMem1, ddr := t.ddr, out := t.out }))
  ∧ (∀ (s : State) (c : CoreId) (v : Verdict) (vs : List Verdict),
      (s.core c).verdicts = v :: vs →
      Completes (.frameVerdict c) s fun t =>
        (v.good = true → CoreBecomes c { s.core c with verdicts := vs, spad := memWrite (s.core c).spad v.off (leBytes 8 1) } s t)
        ∧ (v.good = false → t = (s.setCore c { s.core c with verdicts := vs, spad := memWrite (s.core c).spad v.off (leBytes 8 2) }).stageBad c v.ev
            ∧ t.get (Reg.CLUSTER_FRAME_BAD.COUNT (c / 64)) = min (s.get (Reg.CLUSTER_FRAME_BAD.COUNT (c / 64)) + 1) (2 ^ 32 - 1)))

/-- AES requests use a slot of their partition's range, return their blocks, and keys are loaded and erased as R420 to R423 give. AESE
and AESD of a slot outside the partition's range, without a key, or in a cluster without a healthy unit raise KEY; with the cluster's
queue full, or a key command waiting for the slot, they wait; otherwise four requests join and the PC moves on. When the blocks of the
cluster's next request return, vd holds them under the slot's key; another core's wait. A key command sets SLOT and OP; while BUSY
nothing more. ERASE empties the slot and answers 0, or waits, BUSY, while a request names it; without a partition that holds the slot it
answers RIGHTS. LOAD answers RIGHTS, NO_IDE or BAD_FIELD, or gives the slot the record's key. -/
def Obligations.CipherRequestsAndKeys : Prop :=
  (∀ (s : State) (c : CoreId) (w n p : Nat),
      Issues s c .aes w →
      n = ((s.core c).gr (fRb w)).toNat % 4096 ∧ p = ((if serviceCore c then none else s.coreOwner? c).getD (cidPart (s.core c).cid)) →
      Completes (.aeseAesd c) s fun t =>
        (s.slotOf p n = false ∨ s.key? n = none ∨ s.noAes (c / 64) = true → t = s.raise c 6)
        ∧ (s.slotOf p n = true → s.key? n ≠ none → s.noAes (c / 64) = false → 252 < s.aesRequests (c / 64) ∨ s.sec.keyCmds.any (fun x => x.slot == n) = true → t = s)
        ∧ (s.slotOf p n = true → s.key? n ≠ none → s.noAes (c / 64) = false → s.aesRequests (c / 64) ≤ 252 → s.sec.keyCmds.any (fun x => x.slot == n) = false →
            CoreBecomes c { (s.core c).next with aes := (s.core c).aes ++ [{ vd := fRd w, dec := fFn w == 1, slot := n, part := p, data := (s.core c).vBytes (fRa w), seq := (s.cluster (c / 64)).aesNext }] } (s.setCluster (c / 64) { s.cluster (c / 64) with aesNext := (s.cluster (c / 64)).aesNext + 1 }) t)
        ∧ CoreOnly { s with clusters := t.clusters } t)
  ∧ (∀ (s : State) (c : CoreId),
      Completes (.aesBlocksReturn c) s fun t =>
        ((s.core c).aes = [] ∨ s.noAes (c / 64) = true ∨ ((s.core c).aes.take 1).any (fun r => !s.aesTurn c r) = true → t = s) ∧ CoresBut [c.val] s t ∧ t = { s with regs := t.regs, cores := t.cores, sec := t.sec, tally := t.tally })
  ∧ (∀ (s : State) (c : CoreId) (r : AesReq) (rs : List AesReq) (key : List Byte),
      (s.core c).aes = r :: rs ∧ s.noAes (c / 64) = false ∧ s.aesTurn c r = true ∧ s.key? r.slot = some key →
      Completes (.aesBlocksReturn c) s fun t =>
        (t.core c).vBytes r.vd = (r.result key ++ List.replicate 64 0).take 64 ∧ (t.core c).aes = rs ∧ (∀ i : Nat, i ≠ r.vd → (t.core c).vr i = (s.core c).vr i)
        ∧ (s.sec.keyCmds = [] → (s.core c).haltFreeze = false → (s.core c).haltDebug = false → t = s.setCore c { s.core c with aes := rs, v := (t.core c).v }))
  ∧ (∀ (s : State) (h : HostId) (n : BitVec 12),
      Takes s h (Reg.SEC_KEY_CMD.off h) →
      Completes (.keyErase h n) s fun t =>
        t.get (Reg.SEC_KEY_CMD.SLOT h) = n.toNat ∧ t.get (Reg.SEC_KEY_CMD.OP h) = 2
        ∧ (s.flag (Reg.SEC_KEY_STS.BUSY h) = true → FieldsBut [Reg.SEC_KEY_CMD.SLOT h, Reg.SEC_KEY_CMD.OP h] s t ∧ t.sec = s.sec)
        ∧ (s.flag (Reg.SEC_KEY_STS.BUSY h) = false → s.keyPart? h n.toNat = none →
            t.get (Reg.SEC_KEY_STS.DONE h) = 1 ∧ t.get (Reg.SEC_KEY_STS.RESULT h) = 3 ∧ RegsBut [Reg.SEC_KEY_CMD.off h, Reg.SEC_KEY_STS.off h] s t ∧ t.sec = s.sec)
        ∧ (s.flag (Reg.SEC_KEY_STS.BUSY h) = false → s.keyPart? h n.toNat ≠ none → s.sec.keyCmds = [] → s.slotBusy n.toNat = false →
            t.key? n.toNat = none ∧ t.get (Reg.SEC_KSLOT.VALID n.toNat) = 0 ∧ t.get (Reg.SEC_KEY_STS.DONE h) = 1 ∧ t.get (Reg.SEC_KEY_STS.RESULT h) = 0 ∧ t.get (Reg.SEC_KEY_STS.BUSY h) = 0
            ∧ RegsBut [Reg.SEC_KEY_CMD.off h, Reg.SEC_KEY_STS.off h, Reg.SEC_KSLOT.off n.toNat] s t)
        ∧ (s.flag (Reg.SEC_KEY_STS.BUSY h) = false → s.keyPart? h n.toNat ≠ none → s.sec.keyCmds = [] → s.slotBusy n.toNat = true →
            t.key? n.toNat = s.key? n.toNat ∧ t.get (Reg.SEC_KEY_STS.BUSY h) = 1 ∧ t.sec.keyCmds = [{ host := h, slot := n.toNat, key := none }])
        ∧ t = { s with regs := t.regs, sec := t.sec })
  ∧ (∀ (s u : State) (h : HostId) (n : BitVec 12) (seen : Seen),
      Takes s h (Reg.SEC_KEY_CMD.off h) →
      u = ((s.put (Reg.SEC_KEY_CMD.SLOT h) n.toNat).put (Reg.SEC_KEY_CMD.OP h) 1).see seen →
      Completes (.keyLoad h n seen) s fun t =>
        (s.flag (Reg.SEC_KEY_STS.BUSY h) = true → t = (s.put (Reg.SEC_KEY_CMD.SLOT h) n.toNat).put (Reg.SEC_KEY_CMD.OP h) 1)
        ∧ (s.flag (Reg.SEC_KEY_STS.BUSY h) = false → u.keyPart? h n.toNat = none → t = u.keyCmdEnd h 3)
        ∧ t = { s with regs := t.regs, scriv := t.scriv, host0 := t.host0, host1 := t.host1, sec := t.sec, hostMem0 := t.hostMem0, hostMem1 := t.hostMem1, poisoned := t.poisoned, out := t.out, freeCtr := t.freeCtr })
  ∧ (∀ (s u : State) (h : HostId) (n : BitVec 12) (seen : Seen) (p sp a : Nat),
      Takes s h (Reg.SEC_KEY_CMD.off h) ∧ s.flag (Reg.SEC_KEY_STS.BUSY h) = false →
      u = ((s.put (Reg.SEC_KEY_CMD.SLOT h) n.toNat).put (Reg.SEC_KEY_CMD.OP h) 1).see seen ∧ u.keyPart? h n.toNat = some p →
      sp = s.get (Reg.SEC_KEY_ADDR_HI.SPACE h) ∧ a = s.pair (Reg.SEC_KEY_ADDR_LO.ADDR_LO h) (Reg.SEC_KEY_ADDR_HI.ADDR_HI h) →
      Completes (.keyLoad h n seen) s fun t =>
        ((sp = 0 → u.inAperture p a 64 = false) → (sp ≠ 0 → u.inRegion p a 64 = false) → t = u.keyCmdEnd h 3)
        ∧ (sp = 0 → u.inAperture p a 64 = true → s.get (Reg.SEC_HOSTSEC.KEY_IDE h) = 1 → s.get (Reg.SEC_HOSTSEC.SECURE h) = 0 → t = u.keyCmdEnd h 8)
        ∧ (sp = 0 → u.inAperture p a 64 = true → s.get (Reg.SEC_HOSTSEC.KEY_IDE h) = 0 → u.poisoned = [] → u.memCheck (p * 1024 + 0x3FF) 0 a 64 false = .ok () →
            (keyRecord (u.hostRead (u.owner p) a 64) = none → t = u.keyCmdEnd h 2)
            ∧ (∀ k, keyRecord (u.hostRead (u.owner p) a 64) = some (k) → s.sec.keyCmds = [] → s.slotBusy n.toNat = false →
                t.key? n.toNat = some k ∧ t.get (Reg.SEC_KSLOT.VALID n.toNat) = 1 ∧ t.get (Reg.SEC_KSLOT.LEN n.toNat) = b2n (k.length == 32)
                ∧ t.get (Reg.SEC_KEY_STS.RESULT h) = 0 ∧ t.get (Reg.SEC_KEY_STS.DONE h) = 1 ∧ (∀ j : Nat, j ≠ n.toNat → t.key? j = s.key? j)))
        ∧ (sp ≠ 0 → u.inRegion p a 64 = true → u.memCheck (p * 1024 + 0x3FF) sp a 64 false = .error .wait → t = u.keyWait h n.toNat))

/-- NONCE, LC_ADVANCE, ATTEST, IDENTITY, EXTEND and FUSE_KEY act as R403 to R412 and R426 give, each with its result. A mailbox command
sets OP and ARG; while BUSY it does nothing more. NONCE draws 32 open bytes, keeps them and stores them; the next unlock or life-cycle
command consumes them. LC_ADVANCE answers RIGHTS, BAD_FIELD, NOT_ALLOWED, BAD_STATE or a record's result, and where it is allowed wipes,
fuses the state and resets. ATTEST and IDENTITY store the report or the key, or answer NOT_ALLOWED in SCRAP. EXTEND hashes a DMR of 8 to
15 with the host's 32 bytes and changes no other register. FUSE_KEY fuses A2 or A3 once, in PROVISIONED. -/
def Obligations.MailboxCommands : Prop :=
  (∀ (s : State) (h : HostId) ,
      Takes s h (Reg.SEC_MB_CMD.off h) →
      Completes (.nonce h ) s fun t =>
        (s.flag (Reg.SEC_MB_STS.BUSY h) = true → t.get (Reg.SEC_MB_CMD.OP h) = 1 ∧ t.get (Reg.SEC_MB_CMD.ARG h) = 0 ∧ FieldsBut [Reg.SEC_MB_CMD.OP h, Reg.SEC_MB_CMD.ARG h] s t ∧ t = { s with regs := t.regs }))
  ∧ (∀ (s u : State) (h : HostId) ,
      Takes s h (Reg.SEC_MB_CMD.off h) ∧ s.flag (Reg.SEC_MB_STS.BUSY h) = false →
      u = ((s.put (Reg.SEC_MB_CMD.OP h) 1).put (Reg.SEC_MB_CMD.ARG h) 0).see [] →
      Completes (.nonce h ) s fun t =>
        t.sec = { s.sec with nonce := some (u.freeBytes 32) } ∧ t.get (Reg.SEC_MB_STS.DONE h) = 1 ∧ t.get (Reg.SEC_MB_STS.RESULT h) = 0 ∧ t.freeCtr = s.freeCtr + 1
        ∧ t.out = s.out ++ [.hostWrite h (u.mbArea h) (u.freeBytes 32) false] ∧ RegsBut [Reg.SEC_MB_CMD.off h, Reg.SEC_MB_STS.off h] s t
        ∧ t = { u with regs := t.regs, sec := t.sec, freeCtr := t.freeCtr, hostMem0 := t.hostMem0, hostMem1 := t.hostMem1, out := t.out })
  ∧ (∀ (s : State) (h : HostId) (x : BitVec 8) (seen : Seen) (ok : Bool),
      Takes s h (Reg.SEC_MB_CMD.off h) →
      Completes (.lcAdvance h x seen ok) s fun t =>
        (s.flag (Reg.SEC_MB_STS.BUSY h) = true → t.get (Reg.SEC_MB_CMD.OP h) = 3 ∧ t.get (Reg.SEC_MB_CMD.ARG h) = x.toNat ∧ FieldsBut [Reg.SEC_MB_CMD.OP h, Reg.SEC_MB_CMD.ARG h] s t ∧ t = { s with regs := t.regs }))
  ∧ (∀ (s u : State) (h : HostId) (x : BitVec 8) (seen : Seen) (ok : Bool),
      Takes s h (Reg.SEC_MB_CMD.off h) ∧ s.flag (Reg.SEC_MB_STS.BUSY h) = false →
      u = ((s.put (Reg.SEC_MB_CMD.OP h) 3).put (Reg.SEC_MB_CMD.ARG h) x.toNat).see seen →
      Completes (.lcAdvance h x seen ok) s fun t =>
        (h ≠ s.bootHost → t = u.dropNonce.mbEnd h 3)
        ∧ (h = s.bootHost → 4 < x.toNat → t = u.dropNonce.mbEnd h 2)
        ∧ (h = s.bootHost → x.toNat ≤ 4 → lcAllowed s.sec.fuses.lc x.toNat = false → t = u.dropNonce.mbEnd h 6)
        ∧ (h = s.bootHost → x.toNat ≤ 4 → lcAllowed s.sec.fuses.lc x.toNat = true → (List.range 64).any (fun p => s.pstate p != 0) = true → t = u.dropNonce.mbEnd h 1)
        ∧ (h = s.bootHost → x.toNat = 3 → s.sec.fuses.lc = 2 → (List.range 64).any (fun p => s.pstate p != 0) = false →
            u.recordResult (u.hostRead h (u.mbArea h) 3796) 0x414D5241 3 false s.sec.nonce ≠ 0 →
            t.get (Reg.SEC_MB_STS.RESULT h) = u.recordResult (u.hostRead h (u.mbArea h) 3796) 0x414D5241 3 false s.sec.nonce % 16 ∧ t.sec = { s.sec with nonce := none })
        ∧ (h = s.bootHost → x.toNat ≠ 3 → lcAllowed s.sec.fuses.lc x.toNat = true → (List.range 64).any (fun p => s.pstate p != 0) = false → s.pins.pwrOk = true → 2 ≤ s.get Reg.GLB_STS.STAGE →
            t.sec.fuses = { s.sec.fuses with lc := x.toNat } ∧ t.queues = [] ∧ t.qps = [] ∧ t.pending = s.pending ∧ t.out.take s.out.length = s.out))
  ∧ (∀ (s : State) (h : HostId) (x : BitVec 8) (seen : Seen),
      Takes s h (Reg.SEC_MB_CMD.off h) →
      Completes (.attest h x seen) s fun t =>
        (s.flag (Reg.SEC_MB_STS.BUSY h) = true → t.get (Reg.SEC_MB_CMD.OP h) = 4 ∧ t.get (Reg.SEC_MB_CMD.ARG h) = x.toNat ∧ FieldsBut [Reg.SEC_MB_CMD.OP h, Reg.SEC_MB_CMD.ARG h] s t ∧ t = { s with regs := t.regs }))
  ∧ (∀ (s u : State) (h : HostId) (x : BitVec 8) (seen : Seen),
      Takes s h (Reg.SEC_MB_CMD.off h) ∧ s.flag (Reg.SEC_MB_STS.BUSY h) = false →
      u = ((s.put (Reg.SEC_MB_CMD.OP h) 4).put (Reg.SEC_MB_CMD.ARG h) x.toNat).see seen →
      Completes (.attest h x seen) s fun t =>
        (s.get Reg.SEC_LC.STATE = 4 → t = u.mbEnd h 6)
        ∧ (s.get Reg.SEC_LC.STATE ≠ 4 → 128 ≤ x.toNat → t = u.mbEnd h 2)
        ∧ (s.get Reg.SEC_LC.STATE ≠ 4 → x.toNat < 128 → x.toNat % 2 = 1 → s.owns h (x.toNat / 2 % 64) = false → t = u.mbEnd h 3)
        ∧ (s.get Reg.SEC_LC.STATE ≠ 4 → x.toNat < 128 → x.toNat % 2 = 0 ∨ s.owns h (x.toNat / 2 % 64) = true →
            t.get (Reg.SEC_MB_STS.RESULT h) = 0 ∧ t.get (Reg.SEC_MB_STS.DONE h) = 1 ∧ t.out = s.out ++ [.hostWrite h (u.mbArea h + 64) (u.report (u.hostRead h (u.mbArea h) 32) (if x.toNat % 2 = 1 then some (x.toNat / 2 % 64) else none)) false])
        ∧ t.sec = s.sec ∧ RegsBut [Reg.SEC_MB_CMD.off h, Reg.SEC_MB_STS.off h] s t)
  ∧ (∀ (s : State) (h : HostId) ,
      Takes s h (Reg.SEC_MB_CMD.off h) →
      Completes (.identity h ) s fun t =>
        (s.flag (Reg.SEC_MB_STS.BUSY h) = true → t.get (Reg.SEC_MB_CMD.OP h) = 5 ∧ t.get (Reg.SEC_MB_CMD.ARG h) = 0 ∧ FieldsBut [Reg.SEC_MB_CMD.OP h, Reg.SEC_MB_CMD.ARG h] s t ∧ t = { s with regs := t.regs }))
  ∧ (∀ (s u : State) (h : HostId) ,
      Takes s h (Reg.SEC_MB_CMD.off h) ∧ s.flag (Reg.SEC_MB_STS.BUSY h) = false →
      u = ((s.put (Reg.SEC_MB_CMD.OP h) 5).put (Reg.SEC_MB_CMD.ARG h) 0).see [] →
      Completes (.identity h ) s fun t =>
        (s.get Reg.SEC_LC.STATE = 4 → t = u.mbEnd h 6)
        ∧ (s.get Reg.SEC_LC.STATE ≠ 4 → t.get (Reg.SEC_MB_STS.RESULT h) = 0 ∧ t.get (Reg.SEC_MB_STS.DONE h) = 1 ∧ t.out = s.out ++ [.hostWrite h (u.mbArea h) s.identityKey false])
        ∧ t.sec = s.sec ∧ RegsBut [Reg.SEC_MB_CMD.off h, Reg.SEC_MB_STS.off h] s t)
  ∧ (∀ (s : State) (h : HostId) (x : BitVec 8) (seen : Seen),
      Takes s h (Reg.SEC_MB_CMD.off h) →
      Completes (.extend h x seen) s fun t =>
        (s.flag (Reg.SEC_MB_STS.BUSY h) = true → t.get (Reg.SEC_MB_CMD.OP h) = 6 ∧ t.get (Reg.SEC_MB_CMD.ARG h) = x.toNat ∧ FieldsBut [Reg.SEC_MB_CMD.OP h, Reg.SEC_MB_CMD.ARG h] s t ∧ t = { s with regs := t.regs }))
  ∧ (∀ (s u : State) (h : HostId) (x : BitVec 8) (seen : Seen),
      Takes s h (Reg.SEC_MB_CMD.off h) ∧ s.flag (Reg.SEC_MB_STS.BUSY h) = false →
      u = ((s.put (Reg.SEC_MB_CMD.OP h) 6).put (Reg.SEC_MB_CMD.ARG h) x.toNat).see seen →
      Completes (.extend h x seen) s fun t =>
        (h ≠ s.bootHost → t = u.mbEnd h 3) ∧ (h = s.bootHost → x.toNat < 8 ∨ 15 < x.toNat → t = u.mbEnd h 2)
        ∧ (h = s.bootHost → 8 ≤ x.toNat → x.toNat ≤ 15 →
            t.digestAt (Reg.SEC_DMR.off x.toNat 0) = sha3 (s.digestAt (Reg.SEC_DMR.off x.toNat 0) ++ u.hostRead h (u.mbArea h) 32)
            ∧ t.get (Reg.SEC_MB_STS.RESULT h) = 0 ∧ t.get (Reg.SEC_MB_STS.DONE h) = 1
            ∧ RegsBut ([Reg.SEC_MB_CMD.off h, Reg.SEC_MB_STS.off h] ++ (List.range 8).map (fun i => Reg.SEC_DMR.off x.toNat i)) s t)
        ∧ t = { u with regs := t.regs })
  ∧ (∀ (s : State) (h : HostId) (x : BitVec 8) (seen : Seen),
      Takes s h (Reg.SEC_MB_CMD.off h) →
      Completes (.fuseKey h x seen) s fun t =>
        (s.flag (Reg.SEC_MB_STS.BUSY h) = true → t.get (Reg.SEC_MB_CMD.OP h) = 7 ∧ t.get (Reg.SEC_MB_CMD.ARG h) = x.toNat ∧ FieldsBut [Reg.SEC_MB_CMD.OP h, Reg.SEC_MB_CMD.ARG h] s t ∧ t = { s with regs := t.regs }))
  ∧ (∀ (s u : State) (h : HostId) (x : BitVec 8) (seen : Seen),
      Takes s h (Reg.SEC_MB_CMD.off h) ∧ s.flag (Reg.SEC_MB_STS.BUSY h) = false →
      u = ((s.put (Reg.SEC_MB_CMD.OP h) 7).put (Reg.SEC_MB_CMD.ARG h) x.toNat).see seen →
      Completes (.fuseKey h x seen) s fun t =>
        (h ≠ s.bootHost → t = u.mbEnd h 3) ∧ (h = s.bootHost → x.toNat ≠ 2 → x.toNat ≠ 3 → t = u.mbEnd h 2)
        ∧ (h = s.bootHost → x.toNat = 2 ∨ x.toNat = 3 → s.sec.fuses.lc ≠ 1 ∨ s.sec.fuses.auth.getD x.toNat [] ≠ [] → t = u.mbEnd h 6)
        ∧ (h = s.bootHost → x.toNat = 2 ∨ x.toNat = 3 → s.sec.fuses.lc = 1 → s.sec.fuses.auth.length = 4 → s.sec.fuses.auth.getD x.toNat [] = [] →
            t.sec.fuses = { s.sec.fuses with auth := s.sec.fuses.auth.set x.toNat (u.hostRead h (u.mbArea h) 32) } ∧ t.get (Reg.SEC_MB_STS.RESULT h) = 0 ∧ t.get (Reg.SEC_MB_STS.DONE h) = 1)
        ∧ t = { u with regs := t.regs, sec := { s.sec with fuses := t.sec.fuses } } ∧ RegsBut [Reg.SEC_MB_CMD.off h, Reg.SEC_MB_STS.off h] s t)

/-- Debug levels rise and fall, the eviction ends, and MCTP, SPDM and IDE_KM messages are answered as R410 to R413 and R425 give.
DBG_UNLOCK consumes the nonce and answers RIGHTS, BAD_FIELD, NOT_ALLOWED, BAD_STATE or the record's result; where it is allowed the
level rises at once, or, where Table 15.5 evicts, EVICTING is set and the level waits. EVICTION_DONE acts once every evicted partition's
reset has ended: the level takes effect unless a lower write cancelled it. A lower level takes effect at once. A nonce's expiry drops it
and nothing else. MCTP answers in every life-cycle state but ATTEST in SCRAP; a session needs the pre-shared key, and only K_SET_GO of a
programmed stream makes it Secure. -/
def Obligations.DebugEvictionAndSessions : Prop :=
  (∀ (s : State) (h : HostId) (x : BitVec 8) (seen : Seen),
      Takes s h (Reg.SEC_MB_CMD.off h) →
      Completes (.dbgUnlock h x seen) s fun t =>
        (s.flag (Reg.SEC_MB_STS.BUSY h) = true → FieldsBut [Reg.SEC_MB_CMD.OP h, Reg.SEC_MB_CMD.ARG h] s t ∧ t = { s with regs := t.regs }))
  ∧ (∀ (s u : State) (h : HostId) (x : BitVec 8) (seen : Seen),
      Takes s h (Reg.SEC_MB_CMD.off h) ∧ s.flag (Reg.SEC_MB_STS.BUSY h) = false →
      u = (((s.put (Reg.SEC_MB_CMD.OP h) 2).put (Reg.SEC_MB_CMD.ARG h) x.toNat).see seen).dropNonce →
      Completes (.dbgUnlock h x seen) s fun t =>
        (h ≠ s.bootHost → t = u.mbEnd h 3)
        ∧ (h = s.bootHost → x.toNat ≠ 1 → x.toNat ≠ 2 → t = u.mbEnd h 2)
        ∧ (h = s.bootHost → x.toNat = 1 ∨ x.toNat = 2 → raiseRow (s.get Reg.SEC_LC.STATE) x.toNat = none ∨ x.toNat ≤ s.get Reg.SEC_DBG.LEVEL ∨ (x.toNat = 2 ∧ s.get Reg.TALLY_STS.PSTATE = 3) → t = u.mbEnd h 6)
        ∧ (∀ x3, raiseRow (s.get Reg.SEC_LC.STATE) x.toNat = some x3 → h = s.bootHost → x.toNat = 1 ∨ x.toNat = 2 → s.get Reg.SEC_DBG.LEVEL < x.toNat → x.toNat ≠ 2 ∨ s.get Reg.TALLY_STS.PSTATE ≠ 3 →
            (s.flag Reg.SEC_DBG.EVICTING = true → t = u.mbEnd h 1)
            ∧ (s.flag Reg.SEC_DBG.EVICTING = false → x3.1 = false → x3.2.2 = false → t = (u.setDebug x.toNat).mbEnd h 0 ∧ t.get Reg.SEC_DBG.LEVEL = x.toNat)
            ∧ (s.flag Reg.SEC_DBG.EVICTING = false → x3.1 = false → x3.2.2 = true → t = (u.evictAll x.toNat).mbEnd h 0 ∧ t.sec.raise = some x.toNat ∧ t.get Reg.SEC_DBG.EVICTING = 1)
            ∧ (s.flag Reg.SEC_DBG.EVICTING = false → x3.1 = true → u.recordResult (u.hostRead h (u.mbArea h) 3796) 0x4E4B4F54 x.toNat x3.2.1 s.sec.nonce ≠ 0 →
                t = u.mbEnd h (u.recordResult (u.hostRead h (u.mbArea h) 3796) 0x4E4B4F54 x.toNat x3.2.1 s.sec.nonce))))
  ∧ (∀ (s : State),
      Completes (.nonceExpiry) s fun t =>
        t = { s with sec := { s.sec with nonce := none } })
  ∧ (∀ (s : State) (h : HostId) (x : BitVec 2),
      Takes s h Reg.SEC_DBG.off →
      Completes (.dbgLower h x) s fun t =>
        (s.get Reg.SEC_DBG.LEVEL ≤ x.toNat → t.regs = s.regs)
        ∧ (x.toNat < s.get Reg.SEC_DBG.LEVEL → t.get Reg.SEC_DBG.LEVEL = x.toNat ∧ t.get Reg.SEC_DBG.EVICTING = s.get Reg.SEC_DBG.EVICTING)
        ∧ (∀ l, s.sec.raise = some (l) → (x.toNat < l → t.sec = { s.sec with raise := none }) ∧ (l ≤ x.toNat → t.sec = s.sec))
        ∧ (s.sec.raise = none → t.sec = s.sec) ∧ t = { s with regs := t.regs, sec := t.sec })
  ∧ (∀ (s : State),
      Completes (.evictionDone) s fun t =>
        (s.flag Reg.SEC_DBG.EVICTING = false ∨ s.sec.evicting.any (fun p => s.flag (Reg.PART_STS.BUSY p)) = true → t = s)
        ∧ (s.flag Reg.SEC_DBG.EVICTING = true → s.sec.evicting.any (fun p => s.flag (Reg.PART_STS.BUSY p)) = false →
            t.get Reg.SEC_DBG.EVICTING = 0 ∧ t.sec.raise = none ∧ t.sec.evicting = [] ∧ t.qps = [] ∧ t.kennel = {} ∧ t.sec.keys = []
            ∧ (∀ l, s.sec.raise = some (l) → t.get Reg.SEC_DBG.LEVEL = l % 4) ∧ (s.sec.raise = none → t.get Reg.SEC_DBG.LEVEL = s.get Reg.SEC_DBG.LEVEL)
            ∧ t.time = s.time ∧ t.queues = s.queues))
  ∧ (∀ (s : State) (m : Mctp),
      Completes (.mctpRequest m) s fun t =>
        (s.pins.pwrOk = false ∨ s.get Reg.GLB_STS.STAGE = 0 → t = s)
        ∧ (s.pins.pwrOk = true → s.get Reg.GLB_STS.STAGE ≠ 0 →
            (m = .lifeCycle → t = s.emit (.mctp (leBytes 4 (s.reg Reg.SEC_LC.off).toNat)))
            ∧ (m = .alarms → t = s.emit (.mctp (leBytes 4 (s.reg Reg.SEC_ALARM_STS.off).toNat)))))
  ∧ (∀ (s : State) (nonce : List Byte) (part : Option PartId),
      s.pins.pwrOk = true ∧ s.get Reg.GLB_STS.STAGE ≠ 0 →
      Completes (.mctpRequest (.attest nonce part)) s fun t =>
        (s.get Reg.SEC_LC.STATE = 4 → t = s) ∧ (s.get Reg.SEC_LC.STATE ≠ 4 → t = s.emit (.mctp (s.report nonce (part.map (·.val))))))
  ∧ (∀ (s : State) (h : HostId),
      s.pins.pwrOk = true ∧ s.get Reg.GLB_STS.STAGE ≠ 0 →
      Completes (.mctpRequest (.psk h)) s fun t =>
        (t.ide h).psk = true ∧ (t.ide h).session = (s.ide h).session ∧ t = { s with sec := t.sec })
  ∧ (∀ (s : State) (h : HostId) (good : Bool),
      Completes (.spdmMessage h (.pskExchange good)) s fun t =>
        (s.hostUp h = false → t = s)
        ∧ (s.hostUp h = true → (s.ide h).psk = false ∨ good = false → t = s.emit (.doe h false))
        ∧ (s.hostUp h = true → (s.ide h).psk = true → good = true → (t.ide h).session = true ∧ t.out = s.out ++ [.doe h true] ∧ t = { s with sec := t.sec, out := t.out }))
  ∧ (∀ (s : State) (h : HostId) (m : Spdm),
      ∀ g, m ≠ .pskExchange g →
      Completes (.spdmMessage h m) s fun t =>
        (s.hostUp h = false → t = s)
        ∧ (s.hostUp h = true → m = .endSession → (t.ide h).session = false ∧ t.out = s.out ++ [.doe h (s.ide h).session])
        ∧ (s.hostUp h = true → m = .version ∨ m = .capabilities ∨ m = .algorithms → t = s.emit (.doe h true)) ∧ (s.hostUp h = true → m = .other → t = s.emit (.doe h false))
        ∧ t = { s with sec := t.sec, out := t.out })
  ∧ (∀ (s : State) (h : HostId) (m : IdeKm),
      Completes (.ideKmMessage h m) s fun t =>
        (s.hostUp h = false → t = s) ∧ (s.hostUp h = true → (s.ide h).session = false → t = s.emit (.doe h false))
        ∧ t = { s with regs := t.regs, sec := t.sec, out := t.out } ∧ RegsBut [Reg.SEC_HOSTSEC.off h] s t)
  ∧ (∀ (s : State) (h : HostId) (m : IdeKm) (n : Fin 4),
      s.hostUp h = true ∧ (s.ide h).session = true →
      Completes (.ideKmMessage h m) s fun t =>
        (m = .keyProg n → (t.ide h).keyed.contains n.val = true ∧ t.regs = s.regs)
        ∧ (m = .keySetGo n → (s.ide h).keyed.contains n.val = true → t.get ((Reg.SEC_HOSTSEC.SECURE h).bit n) = 1 ∧ FieldsBut [(Reg.SEC_HOSTSEC.SECURE h).bit n] s t ∧ t.out = s.out ++ [.doe h true])
        ∧ (m = .keySetGo n → (s.ide h).keyed.contains n.val = false → t = s.emit (.doe h false))
        ∧ (m = .keySetStop n → t.get ((Reg.SEC_HOSTSEC.SECURE h).bit n) = 0 ∧ (t.ide h).keyed = (s.ide h).keyed.filter (· != n.val)))

/-- A partition is claimed, allocated, sealed, resumed, reset and released as Table 9.1 and R243 give; what is not listed sets CFG_REJ.
CLAIM takes a FREE partition to CONFIG with its owner and rights and clears PMR; it is refused for a host whose port is not selected and
while invasive debug bars it. SEAL takes CONFIG to SEALED, RESUME clears ORPHAN unless the grace time expires in the same cycle, RESET
starts a reset with BUSY, RELEASE frees a CONFIG partition; while BUSY, and in any other state, each sets CFG_REJ and changes nothing
else. A reset ends, once no window of the partition is left, in CONFIG, or FREE where it frees. -/
def Obligations.PartitionLife : Prop :=
  (∀ (s : State) (h : HostId) (p : PartId) (o : HostId) (r : BitVec 3),
      Takes s h (Reg.PART_ALLOC.off p) →
      Completes (.claim h p o r) s fun t =>
        (s.pstate p ≠ 0 ∨ (o.val = 1 - s.get Reg.GLB_STRAP.HOST ∧ s.get Reg.GLB_STRAP.HOST < 2) ∨ s.claimBarred = true → t = s.put (Reg.PART_STS.CFG_REJ p) 1)
        ∧ (s.pstate p = 0 → o.val ≠ 1 - s.get Reg.GLB_STRAP.HOST ∨ 2 ≤ s.get Reg.GLB_STRAP.HOST → s.claimBarred = false →
            t.pstate p = 1 ∧ t.owner p = o ∧ t.get (Reg.PART_ALLOC.STREAM p) = r.toNat % 2 ∧ t.get (Reg.PART_ALLOC.PROG p) = r.toNat / 2 % 2 ∧ t.get (Reg.PART_ALLOC.SAVE p) = r.toNat / 4
            ∧ t.digestAt (Reg.SEC_PMR.off p 0) = List.replicate 32 0 ∧ t.get (Reg.PART_STS.CFG_REJ p) = s.get (Reg.PART_STS.CFG_REJ p)
            ∧ RegsBut ([Reg.PART_ALLOC.off p, Reg.PART_STS.off p] ++ (List.range 8).map (Reg.SEC_PMR.off p)) s t)
        ∧ t = { s with regs := t.regs })
  ∧ (∀ (s : State) (h : HostId) (p : PartId) (o : HostId) (r : BitVec 3),
      Takes s h (Reg.PART_ALLOC.off p) →
      Completes (.partAllocWrite h p o r) s fun t =>
        (s.pstate p = 0 → o.val = 1 - s.get Reg.GLB_STRAP.HOST → s.get Reg.GLB_STRAP.HOST < 2 → t = s.put (Reg.PART_STS.CFG_REJ p) 1)
        ∧ (s.pstate p = 0 → o.val ≠ 1 - s.get Reg.GLB_STRAP.HOST ∨ 2 ≤ s.get Reg.GLB_STRAP.HOST → t.owner p = o ∧ t.pstate p = 0 ∧ t.get (Reg.PART_ALLOC.STREAM p) = r.toNat % 2 ∧ t.get (Reg.PART_ALLOC.PROG p) = r.toNat / 2 % 2 ∧ t.get (Reg.PART_ALLOC.SAVE p) = r.toNat / 4)
        ∧ (s.pstate p = 1 → s.get (Reg.PART_ALLOC.OWNER p) = o.val → t.get (Reg.PART_ALLOC.STREAM p) = r.toNat % 2 ∧ t.get (Reg.PART_ALLOC.PROG p) = r.toNat / 2 % 2 ∧ t.get (Reg.PART_ALLOC.SAVE p) = r.toNat / 4)
        ∧ (s.pstate p ≠ 0 → s.get (Reg.PART_ALLOC.OWNER p) ≠ o.val → t = s.put (Reg.PART_STS.CFG_REJ p) 1)
        ∧ (2 ≤ s.pstate p → r.toNat ≠ s.get (Reg.PART_ALLOC.STREAM p) + 2 * s.get (Reg.PART_ALLOC.PROG p) + 4 * s.get (Reg.PART_ALLOC.SAVE p) → t = s.put (Reg.PART_STS.CFG_REJ p) 1)
        ∧ (2 ≤ s.pstate p → s.get (Reg.PART_ALLOC.OWNER p) = o.val → r.toNat = s.get (Reg.PART_ALLOC.STREAM p) + 2 * s.get (Reg.PART_ALLOC.PROG p) + 4 * s.get (Reg.PART_ALLOC.SAVE p) → t = s)
        ∧ FieldsBut [Reg.PART_ALLOC.OWNER p, Reg.PART_ALLOC.STREAM p, Reg.PART_ALLOC.PROG p, Reg.PART_ALLOC.SAVE p, Reg.PART_STS.CFG_REJ p] s t ∧ t = { s with regs := t.regs })
  ∧ (∀ (s : State) (h : HostId) (p : PartId),
      Takes s h (Reg.PART_CTL.off p) →
      Completes (.seal h p) s fun t =>
        (s.flag (Reg.PART_STS.BUSY p) = true ∨ s.pstate p ≠ 1 → t = s.put (Reg.PART_STS.CFG_REJ p) 1)
        ∧ (s.flag (Reg.PART_STS.BUSY p) = false → s.pstate p = 1 → t.pstate p = 2 ∧ t = (s.put (Reg.PART_STS.STATE p) 2).measureKeys p
            ∧ RegsBut ([Reg.PART_STS.off p] ++ (List.range 8).map (Reg.SEC_PMR.off p)) s t)
        ∧ t = { s with regs := t.regs })
  ∧ (∀ (s : State) (h : HostId) (p : PartId) (x : Bool),
      Takes s h (Reg.PART_CTL.off p) →
      Completes (.resume h p x) s fun t =>
        (s.flag (Reg.PART_STS.BUSY p) = true ∨ s.flag (Reg.PART_STS.ORPHAN p) = false → t = s.put (Reg.PART_STS.CFG_REJ p) 1)
        ∧ (s.flag (Reg.PART_STS.BUSY p) = false → s.flag (Reg.PART_STS.ORPHAN p) = true → x = false ∨ s.graceRuns p = false → t = s.put (Reg.PART_STS.ORPHAN p) 0)
        ∧ (s.flag (Reg.PART_STS.BUSY p) = false → x = true → s.graceRuns p = true → t.pstate p = 4 ∧ t.get (Reg.PART_STS.ORPHAN p) = 1 ∧ t.get (Reg.PART_STS.CFG_REJ p) = 1)
        ∧ TrafficOnly s t)
  ∧ (∀ (s : State) (h : HostId) (p : PartId),
      Takes s h (Reg.PART_CTL.off p) →
      Completes (.partReset h p) s fun t =>
        (s.flag (Reg.PART_STS.BUSY p) = true ∨ s.pstate p = 0 → t = s.put (Reg.PART_STS.CFG_REJ p) 1)
        ∧ (s.flag (Reg.PART_STS.BUSY p) = false → s.pstate p ≠ 0 → t = s.startReset p false ∧ t.flag (Reg.PART_STS.BUSY p) = true ∧ t.pstate p = s.pstate p
            ∧ t.parts.resets = s.parts.resets ++ [{ part := p, frees := false }] ∧ t.time = s.time ∧ t.owner p = s.owner p))
  ∧ (∀ (s : State) (h : HostId) (p : PartId),
      Takes s h (Reg.PART_CTL.off p) →
      Completes (.release h p) s fun t =>
        (s.flag (Reg.PART_STS.BUSY p) = true ∨ s.pstate p ≠ 1 → t = s.put (Reg.PART_STS.CFG_REJ p) 1)
        ∧ (s.flag (Reg.PART_STS.BUSY p) = false → s.pstate p = 1 → t = s.freePartition p ∧ t.pstate p = 0 ∧ t.time = s.time ∧ t.qps = s.qps ∧ t.queues = s.queues))
  ∧ (∀ (s : State) (h : HostId) (p : PartId),
      s.bar0Reach h (Reg.PART_CTL.off p) = true ∧ s.boot.warm = false ∧ s.preReady = false →
      s.bootMayWrite h = true ∧ (s.owner p != h) = true ∧ s.pstate p = 4 ∧ s.hostLost (s.owner p) = true ∧ s.flag (Reg.PART_STS.BUSY p) = false →
      Completes (.release h p) s fun t =>
        t = s.startReset p true ∧ t.flag (Reg.PART_STS.BUSY p) = true ∧ t.parts.resets = s.parts.resets ++ [{ part := p, frees := true }])
  ∧ (∀ (s : State) (p : PartId),
      Completes (.partitionResetDone p) s fun t =>
        (s.parts.resets.find? (fun r => r.part == p.val) = none ∨ s.wins.desc.any (fun (e : Nat × Window) => e.2.state != 0 && cidPart e.2.cid == p.val) = true → t = s)
        ∧ (∀ r, s.parts.resets.find? (fun r => r.part == p.val) = some r → s.wins.desc.any (fun (e : Nat × Window) => e.2.state != 0 && cidPart e.2.cid == p.val) = false →
            t.parts.resets = s.parts.resets.filter (fun x => x.part != p.val) ∧ t.flag (Reg.PART_STS.BUSY p) = false
            ∧ (r.frees = false → t.pstate p = 1 ∧ t.get (Reg.PART_STS.ORPHAN p) = s.get (Reg.PART_STS.ORPHAN p) ∧ FieldsBut [Reg.PART_STS.STATE p, Reg.PART_STS.BUSY p] s t)
            ∧ (r.frees = true → t.pstate p = 0))
        ∧ t = { s with regs := t.regs, host0 := t.host0, host1 := t.host1, sec := t.sec, parts := t.parts })
  ∧ (∀ (s : State) (h : HostId) (off : BitVec 24) (v : Word) (p : Nat),
      Takes s h off.toNat →
      holdingOff off.toNat = true ∧ p = holdingPart off.toNat →
      Completes (.holdingWrite h off v) s fun t =>
        (s.pstate p ≠ 1 → t = s.put (Reg.PART_STS.CFG_REJ p) 1)
        ∧ (s.pstate p = 1 → off.toNat < 0x82000 → off.toNat % 0x40 = 0x10 → (s.applyWrite off.toNat v).keysOk p = false → t = s.put (Reg.PART_STS.CFG_REJ p) 1)
        ∧ (s.pstate p = 1 → off.toNat < 0x82000 → 0x14 ≤ off.toNat % 0x40 → (s.applyWrite off.toNat v).avOk p = false → t = s.put (Reg.PART_STS.CFG_REJ p) 1)
        ∧ (s.pstate p = 1 → 0x82000 ≤ off.toNat → off.toNat < 0x84000 → (s.applyWrite off.toNat v).aperturesOk p = false → t = s.put (Reg.PART_STS.CFG_REJ p) 1)
        ∧ (s.pstate p = 1 → 0x84000 ≤ off.toNat → off.toNat < 0x85000 → (s.applyWrite off.toNat v).sharesOk p = false → t = s.put (Reg.PART_STS.CFG_REJ p) 1)
        ∧ (s.pstate p = 1 → 0x90000 ≤ off.toNat → (s.applyWrite off.toNat v).coresOk p = false → t = s.put (Reg.PART_STS.CFG_REJ p) 1)
        ∧ (s.pstate p = 1 → off.toNat < 0x82000 → off.toNat % 0x40 = 0x10 → (s.applyWrite off.toNat v).keysOk p = true →
            t.get (Reg.PART_KEYS.BASE p) = wordField v 0 12 ∧ t.get (Reg.PART_KEYS.NUM p) = wordField v 12 13 ∧ RegsBut [off.toNat] s t)
        ∧ (s.pstate p = 1 → 0x84000 ≤ off.toNat → off.toNat < 0x85000 → (s.applyWrite off.toNat v).sharesOk p = true → t.reg off.toNat = v &&& 0xBFFFFFFF &&& ~~~0x40000000 ∧ RegsBut [off.toNat] s t)
        ∧ (s.pstate p = 1 → 0x90000 ≤ off.toNat → (s.applyWrite off.toNat v).coresOk p = true → t.reg off.toNat = v ∧ t = (s.applyWrite off.toNat v).showHolders ((off.toNat - 0x90000) % 0x200 / 8))
        ∧ t = { s with regs := t.regs })
  ∧ (∀ (s : State) (h : HostId) (p : PartId) (v : Word) (off : BitVec 24),
      Takes s h off.toNat ∧ off.toNat = Reg.KENNEL_SHARE.off p →
      Completes (.holdingWrite h off v) s fun t =>
        (s.pstate p = 1 → t.get (Reg.KENNEL_SHARE.SHARE p) = (if wordField v 0 20 ≤ 524288 then wordField v 0 20 else s.get (Reg.KENNEL_SHARE.SHARE p)) ∧ FieldsBut [Reg.KENNEL_SHARE.SHARE p] s t)
        ∧ (s.pstate p ≠ 1 → t = s.put (Reg.PART_STS.CFG_REJ p) 1) ∧ t = { s with regs := t.regs })

/-- Hosts come and go, watchdogs and grace times run, functions reset and revocations complete as R186, R208, R209 and R255 to R258
give. A host whose port goes down, which enters D3hot or whose armed watchdog expires is lost: LOST and LOST_EVT are set once, an event
is raised and every partition it owns is an ORPHAN. A PART_HOST_KICK write restarts the watchdog and clears LOST where the host's memory
can be reached. The grace time of an orphan ends in QUIESCED. A function-level or conventional reset resets the host's partitions and
frames, keeps HOSTIF_PORT_STS and holds the function not ready while a reset runs. A window whose revocation has drained becomes FREE,
and every waiter is told. -/
def Obligations.HostsAndOrphans : Prop :=
  (∀ (s : State) (h f : HostId) (v : Word),
      Takes s h (Reg.PART_HOST_CTL.off f) →
      Completes (.partHostCtlWrite h f v) s fun t =>
        t.get (Reg.PART_HOST_CTL.WDOG_MS f) = wordField v 16 16 ∧ (t.host f).wdog = (wordField v 16 16 != 0)
        ∧ (1 ≤ wordField v 0 16 → wordField v 0 16 ≤ 60000 → t.get (Reg.PART_HOST_CTL.ORPHAN_MS f) = wordField v 0 16)
        ∧ (wordField v 0 16 = 0 ∨ 60000 < wordField v 0 16 → t.get (Reg.PART_HOST_CTL.ORPHAN_MS f) = s.get (Reg.PART_HOST_CTL.ORPHAN_MS f))
        ∧ FieldsBut [Reg.PART_HOST_CTL.ORPHAN_MS f, Reg.PART_HOST_CTL.WDOG_MS f] s t ∧ t = { s with regs := t.regs, host0 := t.host0, host1 := t.host1 })
  ∧ (∀ (s : State) (h f : HostId) (v : Word),
      Takes s h (Reg.PART_HOST_KICK.off f) →
      Completes (.hostKick h f v) s fun t =>
        t = ((s.setHost f { s.host f with wdog := s.flag (Reg.PART_HOST_CTL.WDOG_MS f) }).put (Reg.PART_HOST_STS.LOST f) 0).hostBack f
        ∧ t.hostLost f = false ∧ (t.host f).wdog = s.flag (Reg.PART_HOST_CTL.WDOG_MS f))
  ∧ (∀ (s : State) (h : HostId),
      Completes (.hostWatchdogExpiry h) s fun t =>
        ((s.host h).wdog = false → t = s)
        ∧ ((s.host h).wdog = true → (t.host h).wdog = false ∧ t.get (Reg.PART_HOST_STS.WDOG_EXP h) = 1 ∧ t.hostLost h = true
            ∧ (s.hostLost h = false → t.get (Reg.PART_HOST_STS.LOST_EVT h) = 1 ∧ (∀ p : Nat, p < 64 → s.owns h p = true → t.get (Reg.PART_STS.ORPHAN p) = 1)))
        ∧ ReportsOnly s t)
  ∧ (∀ (s : State) (p : PartId),
      Completes (.orphanGraceExpiry p) s fun t =>
        (s.flag (Reg.PART_STS.ORPHAN p) = false ∨ s.flag (Reg.PART_STS.BUSY p) = true ∨ s.pstate p = 0 ∨ s.pstate p = 4 → t = s)
        ∧ (s.flag (Reg.PART_STS.ORPHAN p) = true → s.flag (Reg.PART_STS.BUSY p) = false → s.pstate p = 1 ∨ s.pstate p = 2 ∨ s.pstate p = 3 →
            t.pstate p = 4 ∧ t = ((((s.put (Reg.PART_STS.STATE p) 4).suspend p false).showSched p).dropHostCompletions p).pathsChanged)
        ∧ TrafficOnly s t)
  ∧ (∀ (s : State) (h : HostId),
      Completes (.hostPortDown h) s fun t =>
        (s.hostUp h = false → t = s)
        ∧ (s.hostUp h = true → t.hostUp h = false ∧ t.get (Reg.HOSTIF_PORT_STS.SPEED h) = 0 ∧ t.get (Reg.HOSTIF_PORT_STS.WIDTH h) = 0 ∧ t.get (Reg.HOSTIF_PORT_STS.DOWN h) = 1 ∧ t.hostLost h = true
            ∧ (s.hostLost h = false → t.get (Reg.PART_HOST_STS.LOST_EVT h) = 1 ∧ (∀ p : Nat, p < 64 → s.owns h p = true → t.get (Reg.PART_STS.ORPHAN p) = 1)))
        ∧ ReportsOnly s t)
  ∧ (∀ (s : State) (h : HostId) (a b : Fin 3),
      Completes (.hostPortUp h a b) s fun t =>
        (s.get Reg.GLB_STRAP.HOST = 1 - h.val → h.val ≤ 1 → t = s)
        ∧ (s.get Reg.GLB_STRAP.HOST = h.val ∨ 2 ≤ s.get Reg.GLB_STRAP.HOST → t = ((((s.put (Reg.HOSTIF_PORT_STS.UP h) 1).put (Reg.HOSTIF_PORT_STS.SPEED h) a).put (Reg.HOSTIF_PORT_STS.WIDTH h) b).hostBack h)
            ∧ t.hostUp h = true ∧ t.get (Reg.HOSTIF_PORT_STS.SPEED h) = a.val ∧ t.get (Reg.HOSTIF_PORT_STS.WIDTH h) = b.val ∧ t.hostLost h = s.hostLost h))
  ∧ (∀ (s : State) (h : HostId),
      Completes (.d3hotEntry h) s fun t =>
        (t.host h).d3hot = true ∧ t.hostLost h = true
        ∧ (s.hostLost h = false → t.get (Reg.PART_HOST_STS.LOST_EVT h) = 1 ∧ (∀ p : Nat, p < 64 → s.owns h p = true → t.get (Reg.PART_STS.ORPHAN p) = 1))
        ∧ (s.hostLost h = true → t = s.setHost h { s.host h with d3hot := true }) ∧ ReportsOnly s t)
  ∧ (∀ (s : State) (h : HostId),
      Completes (.d3hotExit h) s fun t =>
        t = (s.setHost h { s.host h with d3hot := false }).hostBack h ∧ (t.host h).d3hot = false ∧ t.hostLost h = s.hostLost h)
  ∧ (∀ (s : State) (h : HostId),
      Completes (.flr h) s fun t =>
        t = s.flr h ∧ t.reg (Reg.HOSTIF_PORT_STS.off h) = s.reg (Reg.HOSTIF_PORT_STS.off h) ∧ (∀ p : Nat, p < 64 → s.owns h p = true → t.flag (Reg.PART_STS.BUSY p) = true)
        ∧ (t.host h).pba = [] ∧ (t.host h).b4Wait = [] ∧ t.sheep h = {} ∧ t.time = s.time
        ∧ ((List.range 64).any (fun p => s.owns h p) = true → (t.host h).notReady = true) ∧ ((List.range 64).any (fun p => s.owns h p) = false → (t.host h).notReady = false))
  ∧ (∀ (s : State) (h : HostId),
      Completes (.conventionalReset h) s fun t =>
        t = s.flr h ∧ t.reg (Reg.HOSTIF_PORT_STS.off h) = s.reg (Reg.HOSTIF_PORT_STS.off h) ∧ (∀ p : Nat, p < 64 → s.owns h p = true → t.flag (Reg.PART_STS.BUSY p) = true)
        ∧ (t.host h).pba = [] ∧ t.sheep h = {} ∧ t.time = s.time)
  ∧ (∀ (s : State) (i : BitVec 20) (p : PartId),
      Completes (.revocationComplete i) s fun t =>
        (s.parts.insts = [] → s.wins.revs.find? (fun r => r.index == i.toNat) = none → t = s)
        ∧ (∀ r, s.wins.revs.find? (fun r => r.index == i.toNat) = some r →
            (s.parts.insts = [] → r.fenced = false ∨ (s.win i.toNat).inflight ≠ 0 ∨ (s.win i.toNat).state ≠ 2 ∨ s.backReach (s.win i.toNat) = false → t = s)
            ∧ (r.fenced = true → (s.win i.toNat).inflight = 0 → (s.win i.toNat).state = 2 → s.backReach (s.win i.toNat) = true →
                t.win i.toNat = { gen := (s.win i.toNat).gen } ∧ t.wins.revs = s.wins.revs.filter (fun x => x.index != i.toNat)
                ∧ (s.wins.retired.contains i.toNat = false → t.wins.freed = s.wins.freed ++ [i.toNat])
                ∧ (s.parts.insts = [] → r.waiters = [.reg p.val] → t.get (Reg.WIN_REVOKE_STS.DONE p) = 1)))
        ∧ t = { s with regs := t.regs, scriv := t.scriv, host0 := t.host0, host1 := t.host1, qps := t.qps, wins := t.wins, trigs := t.trigs, queues := t.queues, cores := t.cores, parts := t.parts, collEnds := t.collEnds, ddrBad := t.ddrBad, hostMem0 := t.hostMem0, hostMem1 := t.hostMem1, ddr := t.ddr, out := t.out })

/-- Instances are created, reset and destroyed as R251 and R252 give, each command answered once with vector 3. While BUSY a PART_CMD
write only sets its fields. Otherwise RIGHTS, BAD_FIELD and BAD_STATE are answered in the order of R252, BAD_STATE in P2 before all;
CREATE makes the instance ACTIVE in its partition; a reset or a destruction ends the instance's work, and completes once the windows it
opened are gone, a destroyed one then FREE. -/
def Obligations.InstanceCommands : Prop :=
  (∀ (s : State) (h : HostId) (p : PartId) (i : BitVec 10),
      Takes s h (Reg.PART_CMD.off h) ∧ s.flag (Reg.PART_CMD_STS.BUSY h) = true →
      Completes (.instCreate h p i) s fun t =>
        t = s.applyWrite (Reg.PART_CMD.off h) (partWord 1 false p i) ∧ t.get (Reg.PART_CMD.PARTITION h) = p.val ∧ t.get (Reg.PART_CMD.INSTANCE h) = i.toNat ∧ RegsBut [Reg.PART_CMD.off h] s t)
  ∧ (∀ (s u : State) (h : HostId) (p : PartId) (i : BitVec 10),
      Takes s h (Reg.PART_CMD.off h) ∧ s.flag (Reg.PART_CMD_STS.BUSY h) = false →
      u = (s.applyWrite (Reg.PART_CMD.off h) (partWord 1 false p i)).see [] →
      Completes (.instCreate h p i) s fun t =>
        (u.inP2 = true → t = u.partCmdEnd h 1)
        ∧ (u.inP2 = false → u.owner p ≠ h ∨ u.pstate p = 0 ∨ u.pstate p = 1 ∨ u.pstate p = 4 → t = u.partCmdEnd h 3)
        ∧ (∀ r, u.instCheck h 1 p i.toNat = some (r) → u.inP2 = false → t = u.partCmdEnd h r)
        ∧ (u.inP2 = false → u.owner p = h → u.pstate p = 2 → i.toNat ≠ 1023 → u.instPart? i.toNat = none →
            t.get (Reg.PART_INST.PARTITION i.toNat) = p.val ∧ t.get (Reg.PART_INST.STATE i.toNat) = 1 ∧ t.get (Reg.PART_CMD_STS.DONE h) = 1 ∧ t.get (Reg.PART_CMD_STS.RESULT h) = 0 ∧ t.get (Reg.PART_CMD_STS.BUSY h) = 0)
        ∧ ReportsOnly { s with poisoned := t.poisoned } t)
  ∧ (∀ (s : State) (h : HostId) (p : PartId) (i : BitVec 10),
      Takes s h (Reg.PART_CMD.off h) ∧ s.flag (Reg.PART_CMD_STS.BUSY h) = true →
      Completes (.instReset h p i) s fun t =>
        t = s.applyWrite (Reg.PART_CMD.off h) (partWord 2 false p i) ∧ t.get (Reg.PART_CMD.PARTITION h) = p.val ∧ t.get (Reg.PART_CMD.INSTANCE h) = i.toNat ∧ RegsBut [Reg.PART_CMD.off h] s t)
  ∧ (∀ (s u : State) (h : HostId) (p : PartId) (i : BitVec 10),
      Takes s h (Reg.PART_CMD.off h) ∧ s.flag (Reg.PART_CMD_STS.BUSY h) = false →
      u = (s.applyWrite (Reg.PART_CMD.off h) (partWord 2 false p i)).see [] →
      Completes (.instReset h p i) s fun t =>
        (u.inP2 = true → t = u.partCmdEnd h 1)
        ∧ (u.inP2 = false → u.owner p ≠ h ∨ u.pstate p = 0 ∨ u.pstate p = 1 ∨ u.pstate p = 4 → t = u.partCmdEnd h 3)
        ∧ (∀ r, u.instCheck h 2 p i.toNat = some (r) → u.inP2 = false → t = u.partCmdEnd h r)
        ∧ (u.inP2 = false → u.instCheck h 2 p i.toNat = none →
            t = ({ ((u.resetInst p i.toNat).put (Reg.PART_CMD_STS.BUSY h) 1) with parts := { (u.resetInst p i.toNat).parts with insts := (u.resetInst p i.toNat).parts.insts ++ [{ host := h, part := p, inst := i.toNat, destroy := false }] } } : State).endInsts
            ∧ t.time = s.time)
        ∧ (u.inP2 = false → u.instCheck h 2 p i.toNat = none → s.wins.desc = [] → s.parts.insts = [] → t.parts.insts = [] ∧ t.get (Reg.PART_CMD_STS.DONE h) = 1 ∧ t.get (Reg.PART_CMD_STS.RESULT h) = 0 ∧ t.get (Reg.PART_CMD_STS.BUSY h) = 0
            ∧ t.get (Reg.PART_INST.STATE i.toNat) = s.get (Reg.PART_INST.STATE i.toNat)))
  ∧ (∀ (s : State) (h : HostId) (p : PartId) (i : BitVec 10),
      Takes s h (Reg.PART_CMD.off h) ∧ s.flag (Reg.PART_CMD_STS.BUSY h) = true →
      Completes (.instDestroy h p i) s fun t =>
        t = s.applyWrite (Reg.PART_CMD.off h) (partWord 3 false p i) ∧ t.get (Reg.PART_CMD.PARTITION h) = p.val ∧ t.get (Reg.PART_CMD.INSTANCE h) = i.toNat ∧ RegsBut [Reg.PART_CMD.off h] s t)
  ∧ (∀ (s u : State) (h : HostId) (p : PartId) (i : BitVec 10),
      Takes s h (Reg.PART_CMD.off h) ∧ s.flag (Reg.PART_CMD_STS.BUSY h) = false →
      u = (s.applyWrite (Reg.PART_CMD.off h) (partWord 3 false p i)).see [] →
      Completes (.instDestroy h p i) s fun t =>
        (u.inP2 = true → t = u.partCmdEnd h 1)
        ∧ (u.inP2 = false → u.owner p ≠ h ∨ u.pstate p = 0 ∨ u.pstate p = 1 ∨ u.pstate p = 4 → t = u.partCmdEnd h 3)
        ∧ (∀ r, u.instCheck h 3 p i.toNat = some (r) → u.inP2 = false → t = u.partCmdEnd h r)
        ∧ (u.inP2 = false → u.instCheck h 3 p i.toNat = none →
            t = ({ ((u.resetInst p i.toNat).put (Reg.PART_CMD_STS.BUSY h) 1) with parts := { (u.resetInst p i.toNat).parts with insts := (u.resetInst p i.toNat).parts.insts ++ [{ host := h, part := p, inst := i.toNat, destroy := true }] } } : State).endInsts
            ∧ t.time = s.time)
        ∧ (u.inP2 = false → u.instCheck h 3 p i.toNat = none → s.wins.desc = [] → s.parts.insts = [] → t.parts.insts = [] ∧ t.get (Reg.PART_CMD_STS.DONE h) = 1 ∧ t.get (Reg.PART_CMD_STS.RESULT h) = 0 ∧ t.get (Reg.PART_CMD_STS.BUSY h) = 0
            ∧ t.get (Reg.PART_INST.STATE i.toNat) = 0))

/-- Partitions and instances freeze, thaw, are saved and restored as R260 to R263 give. The checks of ownership and scope answer first;
a command on a partition that its state does not list sets CFG_REJ beside its RESULT. FREEZE needs SEALED, no active or pending image,
and a scope not frozen; it stops the scope's queues, freezes its queue pairs and is BUSY until nothing of the scope is left to settle,
when the scope is FROZEN. THAW of a frozen scope makes it ACTIVE or SEALED again. SAVE needs the right, a 32-byte key of the partition,
a room and a frozen scope, and writes the image under a counted IV. RESTORE answers CRYPTO, VERSION or BAD_STATE in that order, else, of
an image that fits, the records stand. -/
def Obligations.FreezeThawSaveRestore : Prop :=
  (∀ (s : State) (h : HostId) (p : PartId) (i : BitVec 10) (sc : Bool),
      Takes s h (Reg.PART_CMD.off h) ∧ s.flag (Reg.PART_CMD_STS.BUSY h) = true →
      Completes (.freeze h sc p i) s fun t =>
        t = s.applyWrite (Reg.PART_CMD.off h) (partWord 4 sc p i) ∧ t.get (Reg.PART_CMD.PARTITION h) = p.val ∧ t.get (Reg.PART_CMD.INSTANCE h) = i.toNat ∧ RegsBut [Reg.PART_CMD.off h] s t)
  ∧ (∀ (s u : State) (h : HostId) (p : PartId) (i : BitVec 10) (sc : Bool) (j : Option Nat),
      Takes s h (Reg.PART_CMD.off h) ∧ s.flag (Reg.PART_CMD_STS.BUSY h) = false ∧ j = (if sc then some i.toNat else none) →
      u = (if sc = false ∧ s.pstate p ≠ 2 then ((s.applyWrite (Reg.PART_CMD.off h) (partWord 4 sc p i)).see []).notListed h p else (s.applyWrite (Reg.PART_CMD.off h) (partWord 4 sc p i)).see []) →
      Completes (.freeze h sc p i) s fun t =>
        (∀ r, u.scopeCheck h p j = some (r) → t = u.partCmdEnd h r)
        ∧ (u.scopeCheck h p j = none → u.pstate p ≠ 2 ∨ u.scopeFrozen p j = true ∨ u.get (Reg.SCHED_STATE.ACT p) = 1 ∨ u.get (Reg.SCHED_STATE.PEND p) ≠ 0 → t = u.partCmdEnd h 1)
        ∧ (u.scopeCheck h p j = none → u.pstate p = 2 → u.scopeFrozen p j = false → u.get (Reg.SCHED_STATE.ACT p) ≠ 1 → u.get (Reg.SCHED_STATE.PEND p) = 0 →
            t.get (Reg.PART_CMD_STS.BUSY h) = 1 ∧ t.parts.freezes = s.parts.freezes ++ [{ host := h, part := p, inst := j }] ∧ t.pstate p = 2
            ∧ (s.qps = [] → t.queues = s.queues.map (fun (e : Nat × Queue) => if inScope p j e.2.cid && e.2.type != 2 then (e.1, { e.2 with stopped := true, cached := [], fetch := e.2.next }) else e)
                ∧ t = { u with regs := t.regs, queues := t.queues, parts := t.parts })
            ∧ t = { ((u.freezeQueues p j).freezeQps p j).put (Reg.PART_CMD_STS.BUSY h) 1 with parts := t.parts }))
  ∧ (∀ (s : State) (h : HostId),
      Completes (.freezeComplete h) s fun t =>
        (s.parts.freezes.find? (fun f => f.host == h) = none → t = s)
        ∧ (∀ f, s.parts.freezes.find? (fun f => f.host == h) = some f →
            ((s.freezeQps f.part f.inst).settled f.part f.inst = false → t = s.freezeQps f.part f.inst)
            ∧ ((s.freezeQps f.part f.inst).settled f.part f.inst = true → ∀ i, f.inst = some i → t.parts.freezes = s.parts.freezes.filter (fun x => x.host != h) ∧ t.get (Reg.PART_CMD_STS.RESULT h) = 0 ∧ t.get (Reg.PART_CMD_STS.DONE h) = 1 ∧ t.get (Reg.PART_CMD_STS.BUSY h) = 0
                ∧ (i < 1023 → t.get (Reg.PART_INST.STATE i) = 2))
            ∧ ((s.freezeQps f.part f.inst).settled f.part f.inst = true → f.inst = none → f.part < 64 → (s.freezeQps f.part f.inst).coresOf f.part = [] →
                t.pstate f.part = 3 ∧ t.parts.freezes = s.parts.freezes.filter (fun x => x.host != h) ∧ t.get (Reg.PART_CMD_STS.RESULT h) = 0 ∧ t.get (Reg.PART_CMD_STS.DONE h) = 1))
        ∧ CoreOnly { s with held := t.held, kennel := t.kennel, parts := t.parts, memsys := t.memsys, freeCtr := t.freeCtr } t)
  ∧ (∀ (s : State) (h : HostId) (p : PartId) (i : BitVec 10) (sc : Bool) (seen : Seen),
      Takes s h (Reg.PART_CMD.off h) ∧ s.flag (Reg.PART_CMD_STS.BUSY h) = true →
      Completes (.thaw h sc p i seen) s fun t =>
        t = s.applyWrite (Reg.PART_CMD.off h) (partWord 5 sc p i) ∧ t.get (Reg.PART_CMD.PARTITION h) = p.val ∧ t.get (Reg.PART_CMD.INSTANCE h) = i.toNat ∧ RegsBut [Reg.PART_CMD.off h] s t)
  ∧ (∀ (s u : State) (h : HostId) (p : PartId) (i : BitVec 10) (sc : Bool) (seen : Seen) (j : Option Nat),
      Takes s h (Reg.PART_CMD.off h) ∧ s.flag (Reg.PART_CMD_STS.BUSY h) = false ∧ j = (if sc then some i.toNat else none) →
      u = (if sc = false ∧ s.pstate p ≠ 3 then ((s.applyWrite (Reg.PART_CMD.off h) (partWord 5 sc p i)).see seen).notListed h p else (s.applyWrite (Reg.PART_CMD.off h) (partWord 5 sc p i)).see seen) →
      Completes (.thaw h sc p i seen) s fun t =>
        (∀ r, u.scopeCheck h p j = some (r) → t = u.partCmdEnd h r)
        ∧ (u.scopeCheck h p j = none → u.scopeFrozen p j = false ∨ (sc = true ∧ u.pstate p ≠ 2) → t = u.partCmdEnd h 1)
        ∧ (u.scopeCheck h p j = none → u.scopeFrozen p j = true → sc = true → u.pstate p = 2 → t.get (Reg.PART_INST.STATE i.toNat) = 1 ∧ t.pstate p = 2 ∧ t.get (Reg.PART_CMD_STS.RESULT h) = 0 ∧ t.get (Reg.PART_CMD_STS.DONE h) = 1)
        ∧ (u.scopeCheck h p j = none → u.scopeFrozen p j = true → sc = false → t.pstate p = 2 ∧ t.get (Reg.PART_CMD_STS.RESULT h) = 0 ∧ t.get (Reg.PART_CMD_STS.DONE h) = 1
            ∧ (s.queues.all (fun e => e.2.live.isEmpty) = true → t.queues.all (fun e => !(inScope p none e.2.cid && e.2.stopped)) = true))
        ∧ t.time = s.time)
  ∧ (∀ (s : State) (h : HostId) (p : PartId) (i : BitVec 10) (sc : Bool),
      Takes s h (Reg.PART_CMD.off h) ∧ s.flag (Reg.PART_CMD_STS.BUSY h) = true →
      Completes (.save h sc p i) s fun t =>
        t = s.applyWrite (Reg.PART_CMD.off h) (partWord 6 sc p i) ∧ t.get (Reg.PART_CMD.PARTITION h) = p.val ∧ t.get (Reg.PART_CMD.INSTANCE h) = i.toNat ∧ RegsBut [Reg.PART_CMD.off h] s t)
  ∧ (∀ (s u : State) (h : HostId) (p : PartId) (i : BitVec 10) (sc : Bool) (j : Option Nat),
      Takes s h (Reg.PART_CMD.off h) ∧ s.flag (Reg.PART_CMD_STS.BUSY h) = false ∧ j = (if sc then some i.toNat else none) →
      u = (s.applyWrite (Reg.PART_CMD.off h) (partWord 6 sc p i)).see [] →
      Completes (.save h sc p i) s fun t =>
        (∀ r, u.scopeCheck h p j = some (r) → t = u.partCmdEnd h r)
        ∧ (u.scopeCheck h p j = none → u.get (Reg.PART_ALLOC.SAVE p) = 0 → t = u.partCmdEnd h 3)
        ∧ (u.scopeCheck h p j = none → u.get (Reg.PART_ALLOC.SAVE p) = 1 → u.saveKey h p = none ∨ u.saveRoom? h = none → t = u.partCmdEnd h 2)
        ∧ (u.scopeCheck h p j = none → u.get (Reg.PART_ALLOC.SAVE p) = 1 → ∀ key, u.saveKey h p = some (key) → ∀ room, u.saveRoom? h = some (room) →
            (u.scopeFrozen p j = false → t = u.partCmdEnd h 1)
            ∧ (u.scopeFrozen p j = true → room < 144 + (u.sections p j).flatten.length → t = u.partCmdEnd h 5)
            ∧ (u.scopeFrozen p j = true → 144 + (u.sections p j).flatten.length ≤ room → u.get (Reg.PART_CMD_ADDR_HI.SPACE h) = 0 →
                u.memCheck (1024 * p + 0x3FF) 0 (u.saveAddr h) (144 + (u.sections p j).flatten.length) true = .ok () →
                t.get (Reg.PART_CMD_STS.RESULT h) = 0 ∧ t.get (Reg.PART_CMD_STS.DONE h) = 1 ∧ t.get (Reg.PART_CMD_BYTES.BYTES h) = 144 + (u.sections p j).flatten.length
                ∧ t.parts.saves = s.parts.saves + 1 ∧ t.pstate p = s.pstate p
                ∧ t = { u with regs := t.regs, host0 := t.host0, host1 := t.host1, parts := t.parts, hostMem0 := t.hostMem0, hostMem1 := t.hostMem1, out := t.out, freeCtr := t.freeCtr })))
  ∧ (∀ (s : State) (h : HostId) (p : PartId) (i : BitVec 10) (sc : Bool) (seen : Seen),
      Takes s h (Reg.PART_CMD.off h) ∧ s.flag (Reg.PART_CMD_STS.BUSY h) = true →
      Completes (.restore h sc p i seen) s fun t =>
        t = s.applyWrite (Reg.PART_CMD.off h) (partWord 7 sc p i) ∧ t.get (Reg.PART_CMD.PARTITION h) = p.val ∧ t.get (Reg.PART_CMD.INSTANCE h) = i.toNat ∧ RegsBut [Reg.PART_CMD.off h] s t)
  ∧ (∀ (s u : State) (h : HostId) (p : PartId) (i : BitVec 10) (sc : Bool) (seen : Seen) (j : Option Nat),
      Takes s h (Reg.PART_CMD.off h) ∧ s.flag (Reg.PART_CMD_STS.BUSY h) = false ∧ j = (if sc then some i.toNat else none) →
      u = (if sc = false ∧ s.pstate p ≠ 2 then ((s.applyWrite (Reg.PART_CMD.off h) (partWord 7 sc p i)).see seen).notListed h p else (s.applyWrite (Reg.PART_CMD.off h) (partWord 7 sc p i)).see seen) →
      Completes (.restore h sc p i seen) s fun t =>
        (u.owner p ≠ h ∨ u.pstate p = 0 → t = u.partCmdEnd h 3)
        ∧ (u.owner p = h → u.pstate p ≠ 0 → u.saveKey h p = none ∨ u.saveRoom? h = none → t = u.partCmdEnd h 2)
        ∧ t.time = s.time)
  ∧ (∀ (s u v : State) (h : HostId) (p : PartId) (i : BitVec 10) (sc : Bool) (seen : Seen) (j : Option Nat) (key b : List Byte) (room len : Nat),
      Takes s h (Reg.PART_CMD.off h) ∧ s.flag (Reg.PART_CMD_STS.BUSY h) = false ∧ j = (if sc then some i.toNat else none) →
      u = (if sc = false ∧ s.pstate p ≠ 2 then ((s.applyWrite (Reg.PART_CMD.off h) (partWord 7 sc p i)).see seen).notListed h p else (s.applyWrite (Reg.PART_CMD.off h) (partWord 7 sc p i)).see seen) →
      u.owner p = h ∧ u.pstate p ≠ 0 ∧ u.saveKey h p = some key ∧ u.saveRoom? h = some room →
      u.memReadC (1024 * p + 0x3FF) (u.get (Reg.PART_CMD_ADDR_HI.SPACE h)) (u.saveAddr h) room = (v, .ok b) ∧ len = leAt b 12 4 →
      Completes (.restore h sc p i seen) s fun t =>
        (len < 144 ∨ room < len ∨ gcmTag key (slice b 24 12) (b.take 128) (slice b 128 (len - 144)) ≠ slice b (len - 16) 16 → t = v.partCmdEnd h 6)
        ∧ t.time = s.time)
  ∧ (∀ (s u v : State) (h : HostId) (p : PartId) (i : BitVec 10) (sc : Bool) (seen : Seen) (j : Option Nat) (key b : List Byte) (room len : Nat),
      Takes s h (Reg.PART_CMD.off h) ∧ s.flag (Reg.PART_CMD_STS.BUSY h) = false ∧ j = (if sc then some i.toNat else none) →
      u = (if sc = false ∧ s.pstate p ≠ 2 then ((s.applyWrite (Reg.PART_CMD.off h) (partWord 7 sc p i)).see seen).notListed h p else (s.applyWrite (Reg.PART_CMD.off h) (partWord 7 sc p i)).see seen) →
      u.owner p = h ∧ u.pstate p ≠ 0 ∧ u.saveKey h p = some key ∧ u.saveRoom? h = some room →
      u.memReadC (1024 * p + 0x3FF) (u.get (Reg.PART_CMD_ADDR_HI.SPACE h)) (u.saveAddr h) room = (v, .ok b) ∧ len = leAt b 12 4 →
      144 ≤ len ∧ len ≤ room ∧ gcmTag key (slice b 24 12) (b.take 128) (slice b 128 (len - 144)) = slice b (len - 16) 16 →
      Completes (.restore h sc p i seen) s fun t =>
        (leAt b 0 4 ≠ 0x4E564B53 ∨ leAt b 4 2 ≠ 1 ∨ leAt b 16 8 ≠ v.get Reg.GLB_FW_VER_LO.FW + 2 ^ 32 * v.get Reg.GLB_FW_VER_HI.FW ∨ bitAt (leAt b 6 1) 1 ≠ v.flag Reg.GLB_CTL.EXACT → t = v.partCmdEnd h 7)
        ∧ (leAt b 0 4 = 0x4E564B53 → leAt b 4 2 = 1 → leAt b 16 8 = v.get Reg.GLB_FW_VER_LO.FW + 2 ^ 32 * v.get Reg.GLB_FW_VER_HI.FW → bitAt (leAt b 6 1) 1 = v.flag Reg.GLB_CTL.EXACT →
            (v.pstate p ≠ 2 ∨ leAt b 7 1 ≠ p ∨ v.get (Reg.PART_ALLOC.SAVE p) = 0 ∨ bitAt (leAt b 6 1) 0 ≠ sc ∨ (sc = true ∧ leAt b 8 2 ≠ i.toNat) ∨ (sc = false ∧ (v.instsOf p).isEmpty = false) → t = v.partCmdEnd h 1)
            ∧ (v.pstate p = 2 → leAt b 7 1 = p → v.get (Reg.PART_ALLOC.SAVE p) = 1 → bitAt (leAt b 6 1) 0 = sc → sc = false ∨ leAt b 8 2 = i.toNat → sc = true ∨ (v.instsOf p).isEmpty = true →
                ∀ x, saveImageOf (leAt b 10 2) (gcmText key (slice b 24 12) (slice b 128 (len - 144))) = some (x) →
                  (v.restoreFits p j.isNone x = true → ∀ w, v.restoreRecords p j.isNone x = some (w) → t = w.partCmdEnd h 0 ∧ t.get (Reg.PART_CMD_STS.RESULT h) = 0 ∧ t.get (Reg.PART_CMD_STS.DONE h) = 1))))

/-- Descriptors are posted, contributions read and combined, and complete segments written as R320 to R330 give. REDP raises BOUND or
ALIGN on a bad address, returns 1 where the unit is fenced or the core has 32 queued, and else posts the 64 bytes and returns 0. A unit
that is out of service, without power or without a ready descriptor reads nothing; else its first ready descriptor is taken: a malformed
one is refused with 0x10, one that starts a segment in a slot opens it, and a read contribution is combined, its rank noted and its
signal raised by 1; a contribution whose memory refuses the read fails the segment. A unit without a complete segment writes nothing; a
complete one of one destination is written there, its signal raised by 1, and dropped. -/
def Obligations.ReductionUnits : Prop :=
  (∀ (s : State) (c : CoreId) (w a : Nat),
      Issues s c .redp w ∧ a = ((s.core c).gr (fRa w)).toNat →
      Completes (.redp c) s fun t =>
        (s.spadOut c a 64 = true → t = s.raise c 3 a)
        ∧ (s.spadOut c a 64 = false → a % 32 ≠ 0 → t = s.raise c 4 a)
        ∧ (s.spadOut c a 64 = false → a % 32 = 0 → (s.disabled ⟨.reduce, c / 64, 0⟩ = true ∨ 32 ≤ ((s.cluster (c / 64)).redq.filter (fun q => q.core == c.val)).length) → StepsWithG c (fRd w) 1 s t)
        ∧ (s.spadOut c a 64 = false → a % 32 = 0 → s.disabled ⟨.reduce, c / 64, 0⟩ = false → ((s.cluster (c / 64)).redq.filter (fun q => q.core == c.val)).length < 32 →
            (t.cluster (c / 64)).redq.map (·.desc) = (s.cluster (c / 64)).redq.map (·.desc) ++ [memRead (s.core c).spad a 64]
            ∧ StepsWithG c (fRd w) 0 (s.redPost { core := c, cid := (s.core c).cid, desc := memRead (s.core c).spad a 64 }) t)
        ∧ CoreOnly { s with clusters := t.clusters } t)
  ∧ (∀ (s u : State) (k : ClusterId) (seen : Seen),
      u = (s.see seen).countSpillWaits k →
      u.disabled ⟨.reduce, k, 0⟩ = true ∨ u.inP2 = true ∨ (u.cluster k).redq.findIdx? (fun q => u.redReady k q && !u.redWaits q) = none →
      Completes (.reductionRead k seen) s fun t =>
        t = u ∧ t = { s with regs := t.regs, hostMem0 := t.hostMem0, hostMem1 := t.hostMem1, poisoned := t.poisoned, clusters := t.clusters })
  ∧ (∀ (s u v : State) (k : ClusterId) (seen : Seen) (q : RedPost) (i : Nat),
      u = (s.see seen).countSpillWaits k ∧ u.disabled ⟨.reduce, k, 0⟩ = false ∧ u.inP2 = false →
      (u.cluster k).redq.findIdx? (fun q => u.redReady k q && !u.redWaits q) = some i ∧ (u.cluster k).redq[i]? = some q →
      v = u.setCluster k { u.cluster k with redq := (u.cluster k).redq.eraseIdx i } →
      Completes (.reductionRead k seen) s fun t =>
        t = v.redTake k q
        ∧ (redOk q.desc = false → t = v.redRefuse k q 0x10 ∧ t.get (Reg.CLUSTER_RED_ERR.STATUS k) = 0x10 ∧ t.get (Reg.CLUSTER_RED_ERR.CORE k) = q.core % 4096 ∧ t.clusters = v.clusters
            ∧ t.redEnds = if v.libMeets k q then v.redEnds ++ [{ part := cidPart q.cid, rid := (redDesc q.desc).rid, seg := (redDesc q.desc).seg, rank := (redDesc q.desc).rank, status := 0x10 }] else v.redEnds)
        ∧ t.time = s.time ∧ t.ports = s.ports ∧ t.queues = s.queues)
  ∧ (∀ (s u v v2 : State) (k : ClusterId) (seen : Seen) (q : RedPost) (i : Nat) (r : Except MemErr (List Byte)),
      u = (s.see seen).countSpillWaits k ∧ u.disabled ⟨.reduce, k, 0⟩ = false ∧ u.inP2 = false →
      (u.cluster k).redq.findIdx? (fun q => u.redReady k q && !u.redWaits q) = some i ∧ (u.cluster k).redq[i]? = some q ∧ redOk q.desc = true →
      (u.cluster k).segs.find? (fun g => g.names (cidPart q.cid) (redDesc q.desc)) = none →
      u.redPlace k (cidPart q.cid) (redDesc q.desc).sched = .slot →
      v = ((u.setCluster k { u.cluster k with redq := (u.cluster k).redq.eraseIdx i, segs := (u.cluster k).segs ++ [{ part := cidPart q.cid, desc := q.desc, core := q.core, cid := q.cid, exact := u.flag Reg.GLB_CTL.EXACT, lib := q.lib }] })).showRed k →
      v.memReadC q.cid (bits (redDesc q.desc).src 52 2) (bits (redDesc q.desc).src 0 52) (streamBytes (redDesc q.desc).ifmt (redDesc q.desc).elems) = (v2, r) →
      Completes (.reductionRead k seen) s fun t =>
        (∀ e, r = .error e → t = v2.redFail k { part := cidPart q.cid, desc := q.desc, core := q.core, cid := q.cid, exact := u.flag Reg.GLB_CTL.EXACT, lib := q.lib } q (errStatus e))
        ∧ (∀ bs, r = .ok bs →
            t = (v2.modSeg k (cidPart q.cid) (redDesc q.desc) (fun g => { g with ranks := g.ranks ++ [(redDesc q.desc).rank], acc := redCombine (redDesc q.desc).op g.acc (redInputs (redDesc q.desc) bs) })).signal q.cid (redDesc q.desc).sig 1
            ∧ ((redDesc q.desc).sig = 0 → (t.cluster k).segs.getLast? = some { part := cidPart q.cid, desc := q.desc, core := q.core, cid := q.cid, exact := u.flag Reg.GLB_CTL.EXACT, lib := q.lib, ranks := [(redDesc q.desc).rank], acc := redInputs (redDesc q.desc) bs })))
  ∧ (∀ (s : State) (k : ClusterId),
      Completes (.segmentComplete k) s fun t =>
        ((s.cluster k).segs.find? (fun g => g.open_ && g.complete) = none → t = s)
        ∧ (∀ g, (s.cluster k).segs.find? (fun g => g.open_ && g.complete) = some g →
            t = s.redWrites k g ((s.redDests g).drop g.written))
        ∧ t = { s with regs := t.regs, scriv := t.scriv, host0 := t.host0, host1 := t.host1, cores := t.cores, clusters := t.clusters, redEnds := t.redEnds, ddrBad := t.ddrBad, hostMem0 := t.hostMem0, hostMem1 := t.hostMem1, ddr := t.ddr, out := t.out })
  ∧ (∀ (s v : State) (k : ClusterId) (g : RedSeg) (r : Except MemErr Unit),
      (s.cluster k).segs.find? (fun g => g.open_ && g.complete) = some g ∧ (redDesc g.desc).dlist = false ∧ g.written = 0 →
      s.memWriteC g.cid (bits (redDesc g.desc).dst 52 2) (bits (redDesc g.desc).dst 0 52) g.result = (v, r) →
      Completes (.segmentComplete k) s fun t =>
        (r = .error .wait → t = v)
        ∧ (r = .ok () → t = ((v.modSeg k g.part (redDesc g.desc) (fun g => { g with written := g.written + 1 })).signal g.cid (redDesc g.desc).rsig 1).redDone k g)
        ∧ (r ≠ .error .wait → (t.cluster k).segs.any (fun x => x.names g.part (redDesc g.desc)) = false))

/-- Doorbells, BAR2 and BAR4 accesses and BAR4 mappings act as R210 to R223 give. A doorbell that reaches the device counts in
HOSTIF_DB_REJ where its page is no instance of the host's, its slot no queue's, a field of its value is wrong, or it points outside what
the queue allows; else a work queue's doorbell moves its posted position forward, never back, and a completion queue's moves its read
position, arms it, raises its vector where completions stand unread, and lets waiting completions in. A BAR4 access waits whole while
its memory holds it back; else it is done under the mapping in force. A mapping is committed, or refused with CFG_REJ. -/
def Obligations.DoorbellsAndWindows : Prop :=
  (∀ (s : State) (h : HostId) (page : BitVec 10) (slot : Fin 512) (v : BitVec 64),
      Completes (.doorbellWq h page slot v) s fun t =>
        (s.barReach h = false → t = s)
        ∧ (s.barReach h = true → (s.inP2 = true ∨ s.instPart? page.toNat = none) → t = s.dbRej h)
        ∧ (s.barReach h = true → ∀ p, s.instPart? page.toNat = some p →
            (s.owner p ≠ h ∨ s.queues.find? (fun e => e.2.cid == p * 1024 + page.toNat && e.2.dbSlot == slot.val) = none → t = s.dbRej h))
        ∧ (t = s.dbRej h → t.get (Reg.HOSTIF_DB_REJ.COUNT h) = min (s.get (Reg.HOSTIF_DB_REJ.COUNT h) + 1) 4294967295 ∧ t = { s with regs := t.regs })
        ∧ t = { s with regs := t.regs, scriv := t.scriv, host0 := t.host0, host1 := t.host1, queues := t.queues, cores := t.cores, ddrBad := t.ddrBad, hostMem0 := t.hostMem0, hostMem1 := t.hostMem1, ddr := t.ddr, out := t.out })
  ∧ (∀ (s : State) (h : HostId) (page : BitVec 10) (slot : Fin 512) (v : BitVec 64) (p n : Nat) (q : Queue),
      s.barReach h = true ∧ s.inP2 = false ∧ s.instPart? page.toNat = some p ∧ s.owner p = h →
      s.queues.find? (fun e => e.2.cid == p * 1024 + page.toNat && e.2.dbSlot == slot.val) = some (n, q) ∧ q.type ≠ 2 →
      Completes (.doorbellWq h page slot v) s fun t =>
        (bits v.toNat 32 16 ≠ p * 1024 + page.toNat ∨ q.size ≤ bits v.toNat 0 24 ∨ bits v.toNat 24 8 = 0 ∨ bits v.toNat 48 15 ≠ 0 ∨ bitAt v.toNat 63 = true → t = s.dbRej h)
        ∧ (bits v.toNat 32 16 = p * 1024 + page.toNat → bits v.toNat 0 24 < q.size → bits v.toNat 24 8 ≠ 0 → bits v.toNat 48 15 = 0 → bitAt v.toNat 63 = false →
            (q.size < q.dist q.fetch (q.pos (bits v.toNat 0 24) (bits v.toNat 24 8)) → t = s.dbRej h)
            ∧ (q.dist q.fetch (q.pos (bits v.toNat 0 24) (bits v.toNat 24 8)) ≤ q.size → q.dist q.fetch q.posted < q.dist q.fetch (q.pos (bits v.toNat 0 24) (bits v.toNat 24 8)) → t.queue? n = some { q with posted := q.pos (bits v.toNat 0 24) (bits v.toNat 24 8) } ∧ t = { s with queues := t.queues })
            ∧ (q.dist q.fetch (q.pos (bits v.toNat 0 24) (bits v.toNat 24 8)) ≤ q.size → q.dist q.fetch (q.pos (bits v.toNat 0 24) (bits v.toNat 24 8)) ≤ q.dist q.fetch q.posted → t = s)))
  ∧ (∀ (s : State) (h : HostId) (page : BitVec 10) (slot : Fin 512) (v : BitVec 64),
      Completes (.doorbellCq h page slot v) s fun t =>
        (s.barReach h = false → t = s)
        ∧ (s.barReach h = true → (s.inP2 = true ∨ s.instPart? page.toNat = none) → t = s.dbRej h)
        ∧ (s.barReach h = true → ∀ p, s.instPart? page.toNat = some p →
            (s.owner p ≠ h ∨ s.queues.find? (fun e => e.2.cid == p * 1024 + page.toNat && e.2.dbSlot == slot.val) = none → t = s.dbRej h))
        ∧ (t = s.dbRej h → t.get (Reg.HOSTIF_DB_REJ.COUNT h) = min (s.get (Reg.HOSTIF_DB_REJ.COUNT h) + 1) 4294967295 ∧ t = { s with regs := t.regs })
        ∧ t = { s with regs := t.regs, scriv := t.scriv, host0 := t.host0, host1 := t.host1, queues := t.queues, cores := t.cores, ddrBad := t.ddrBad, hostMem0 := t.hostMem0, hostMem1 := t.hostMem1, ddr := t.ddr, out := t.out })
  ∧ (∀ (s : State) (h : HostId) (page : BitVec 10) (slot : Fin 512) (v : BitVec 64) (p n : Nat) (q : Queue),
      s.barReach h = true ∧ s.inP2 = false ∧ s.instPart? page.toNat = some p ∧ s.owner p = h →
      s.queues.find? (fun e => e.2.cid == p * 1024 + page.toNat && e.2.dbSlot == slot.val) = some (n, q) ∧ q.type = 2 →
      Completes (.doorbellCq h page slot v) s fun t =>
        (bits v.toNat 32 16 ≠ p * 1024 + page.toNat ∨ q.size ≤ bits v.toNat 0 24 ∨ bits v.toNat 24 8 = 0 ∨ bits v.toNat 48 15 ≠ 0 → t = s.dbRej h)
        ∧ (bits v.toNat 32 16 = p * 1024 + page.toNat → bits v.toNat 0 24 < q.size → bits v.toNat 24 8 ≠ 0 → bits v.toNat 48 15 = 0 →
            (q.unread < q.dist q.read (q.pos (bits v.toNat 0 24) (bits v.toNat 24 8)) → t = s.dbRej h)
            ∧ (q.dist q.read (q.pos (bits v.toNat 0 24) (bits v.toNat 24 8)) ≤ q.unread → q.waiting = [] → bitAt v.toNat 63 = false → t.queue? n = some { q with read := q.pos (bits v.toNat 0 24) (bits v.toNat 24 8) } ∧ t = { s with queues := t.queues })
            ∧ (q.dist q.read (q.pos (bits v.toNat 0 24) (bits v.toNat 24 8)) ≤ q.unread → q.waiting = [] → bitAt v.toNat 63 = true → q.write = q.pos (bits v.toNat 0 24) (bits v.toNat 24 8) → t.queue? n = some { q with read := q.pos (bits v.toNat 0 24) (bits v.toNat 24 8), armed := true, since := 0 } ∧ t = { s with queues := t.queues })
            ∧ (q.dist q.read (q.pos (bits v.toNat 0 24) (bits v.toNat 24 8)) ≤ q.unread → q.waiting = [] → bitAt v.toNat 63 = true → q.write ≠ q.pos (bits v.toNat 0 24) (bits v.toNat 24 8) →
                t = ((s.setQueue n { q with read := q.pos (bits v.toNat 0 24) (bits v.toNat 24 8), armed := true, since := 0 }).raiseCq n { q with read := q.pos (bits v.toNat 0 24) (bits v.toNat 24 8), armed := true, since := 0 }) ∧ t.queue? n = some { q with read := q.pos (bits v.toNat 0 24) (bits v.toNat 24 8), armed := false, since := 0 })
            ∧ (q.dist q.read (q.pos (bits v.toNat 0 24) (bits v.toNat 24 8)) ≤ q.unread → bitAt v.toNat 63 = false → t = (s.setQueue n { q with read := q.pos (bits v.toNat 0 24) (bits v.toNat 24 8) }).cqDrain n q.waiting.length)))
  ∧ (∀ (s : State) (h : HostId) (write : Bool) (off : BitVec 22) (size : Nat),
      Completes (.bar2BadAccess h write off size) s fun t =>
        (s.funcOpen h = false → t = s)
        ∧ (s.funcOpen h = true → write = false → t.out = s.out ++ [.readData h 2 off.toNat (List.replicate size (if s.barReach h then 0 else 0xFF))] ∧ t = { s with out := t.out })
        ∧ (s.barReach h = false → write = true → t = s)
        ∧ (s.barReach h = true → write = true → size = 8 → off.toNat % 8 = 0 → t = s)
        ∧ (s.barReach h = true → write = true → (size ≠ 8 ∨ off.toNat % 8 ≠ 0) → t.get (Reg.HOSTIF_DB_REJ.COUNT h) = min (s.get (Reg.HOSTIF_DB_REJ.COUNT h) + 1) 4294967295
            ∧ FieldsBut [Reg.HOSTIF_DB_REJ.COUNT h] s t ∧ t = { s with regs := t.regs }))
  ∧ (∀ (s : State) (h : HostId) (off : BitVec 28) (size : Nat),
      Completes (.bar4Read h off size) s fun t =>
        (s.funcOpen h = false → t = s)
        ∧ (s.funcOpen h = true → s.barReach h = false → t.out = s.out ++ [.readData h 4 off.toNat (List.replicate size 0xFF)] ∧ t = { s with out := t.out })
        ∧ (s.barReach h = true → (s.host h).b4Wait = [] → (s.host h).b4.enable = false → t.out = s.out ++ [.readData h 4 off.toNat (List.replicate size 0xFF)] ∧ t = { s with out := t.out })
        ∧ t = { s with regs := t.regs, scriv := t.scriv, host0 := t.host0, host1 := t.host1, cores := t.cores, ddrBad := t.ddrBad, hostMem0 := t.hostMem0, hostMem1 := t.hostMem1, ddr := t.ddr, out := t.out, freeCtr := t.freeCtr })
  ∧ (∀ (s u : State) (h : HostId) (off : BitVec 28) (size : Nat) (r : Option State),
      s.barReach h = true ∧ (s.host h).b4Wait = [] →
      u = s.setHost h { s.host h with b4Wait := [((s.host h).b4, .read off.toNat size)] } ∧ u.b4Do h (s.host h).b4 (.read off.toNat size) = r →
      Completes (.bar4Read h off size) s fun t =>
        (r = none → t = u ∧ (t.host h).b4Wait = [((s.host h).b4, .read off.toNat size)])
        ∧ (∀ y, r = some y → t = y.setHost h { y.host h with b4Wait := [] } ∧ (t.host h).b4Wait = [] ∧ (t.out.getLast?).isSome = true))
  ∧ (∀ (s : State) (h : HostId) (off : BitVec 28) (bytes : List Byte),
      Completes (.bar4Write h off bytes) s fun t =>
        (s.barReach h = false → t = s)
        ∧ (s.barReach h = true → (s.host h).b4Wait = [] → (s.host h).b4.enable = false → t = s)
        ∧ t = { s with regs := t.regs, scriv := t.scriv, host0 := t.host0, host1 := t.host1, cores := t.cores, ddrBad := t.ddrBad, hostMem0 := t.hostMem0, hostMem1 := t.hostMem1, ddr := t.ddr, out := t.out, freeCtr := t.freeCtr })
  ∧ (∀ (s u : State) (h : HostId) (off : BitVec 28) (bytes : List Byte) (r : Option State),
      s.barReach h = true ∧ (s.host h).b4Wait = [] →
      u = s.setHost h { s.host h with b4Wait := [((s.host h).b4, .write off.toNat bytes)] } ∧ u.b4Do h (s.host h).b4 (.write off.toNat bytes) = r →
      Completes (.bar4Write h off bytes) s fun t =>
        (r = none → t = u ∧ (t.host h).b4Wait = [((s.host h).b4, .write off.toNat bytes)])
        ∧ (∀ y, r = some y → t = y.setHost h { y.host h with b4Wait := [] } ∧ (t.host h).b4Wait = []))
  ∧ (∀ (s : State) (h : HostId) (v : Word) (space part offset : Nat),
      Takes s h (Reg.HOSTIF_B4_CTL_LO.off h) ∧ space = wordField v 1 2 ∧ part = wordField v 4 6 →
      offset = wordField v 20 12 * 2 ^ 20 + s.get (Reg.HOSTIF_B4_CTL_HI.OFFSET_HI h) * 2 ^ 32 →
      Completes (.b4CtlCommit h v) s fun t =>
        (s.owns h part = false ∨ space = 0 ∨ space = 3 ∨ (v.getLsbD 0 = true ∧ space = 1 ∧ s.inRegion part offset 1 = false) →
              t.get (Reg.HOSTIF_B4_STS.CFG_REJ h) = 1 ∧ FieldsBut [Reg.HOSTIF_B4_STS.CFG_REJ h] s t ∧ t = { s with regs := t.regs })
        ∧ (s.owns h part = true → (space = 2 ∨ space = 1 ∧ (v.getLsbD 0 = false ∨ s.inRegion part offset 1 = true)) →
              (t.host h).b4 = { enable := v.getLsbD 0, space := space, part := part, offset := offset } ∧ t.get (Reg.HOSTIF_B4_CTL_LO.PARTITION h) = part
              ∧ RegsBut [Reg.HOSTIF_B4_CTL_LO.off h] s t ∧ t = { s with regs := t.regs, host0 := t.host0, host1 := t.host1 }))

/-- Queue commands, discards, entry fetches, re-fetches and the moderation timer act as R217 to R237 give. While BUSY a queue command
only sets its fields; in P2 it is answered with 1. Otherwise it is answered once, with the result of the first failed check or with 0
after its effect: CREATE makes the queue of the image, MODIFY changes MOD_COUNT, MOD_TIME and VECTOR alone, QUERY writes the descriptor,
DESTROY removes the queue. DCINV discards what has not started. A returned read caches the next slot; a stale one is read again; the
moderation timer raises the vector of an armed queue with completions. -/
def Obligations.QueueCommands : Prop :=
  (∀ (s u : State) (h : HostId) (q : BitVec 20) (seen : Seen),
      Takes s h (Reg.HOSTIF_QCMD.off h) →
      u = (s.put (Reg.HOSTIF_QCMD.QUEUE h) (wordField (qcmdWord 1 q) 0 20)).put (Reg.HOSTIF_QCMD.OP h) 1 →
      Completes (.queueCreate h q seen) s fun t =>
        (s.flag (Reg.HOSTIF_QCMD_STS.BUSY h) = true → t = u)
        ∧ (s.flag (Reg.HOSTIF_QCMD_STS.BUSY h) = false → s.inP2 = true → t.get (Reg.HOSTIF_QCMD_STS.DONE h) = 1 ∧ t.get (Reg.HOSTIF_QCMD_STS.RESULT h) = 1 ∧ t = u.qcmdEnd h 1)
        ∧ t.get (Reg.HOSTIF_QCMD.QUEUE h) = q.toNat ∧ t.get (Reg.HOSTIF_QCMD.OP h) = 1
        ∧ t = { s with regs := t.regs, scriv := t.scriv, host0 := t.host0, host1 := t.host1, queues := t.queues, ddrBad := t.ddrBad, hostMem0 := t.hostMem0, hostMem1 := t.hostMem1, poisoned := t.poisoned, ddr := t.ddr, out := t.out })
  ∧ (∀ (s u : State) (h : HostId) (q : BitVec 20) (seen : Seen) (img : List Byte),
      Takes s h (Reg.HOSTIF_QCMD.off h) ∧ s.flag (Reg.HOSTIF_QCMD_STS.BUSY h) = false ∧ s.inP2 = false →
      u = ((s.put (Reg.HOSTIF_QCMD.QUEUE h) (wordField (qcmdWord 1 q) 0 20)).put (Reg.HOSTIF_QCMD.OP h) 1).see seen →
      img = u.hostRead h (u.pair (Reg.HOSTIF_QCMD_ADDR_LO.ADDR_LO h) (Reg.HOSTIF_QCMD_ADDR_HI.ADDR_HI h)) 32 →
      Completes (.queueCreate h q seen) s fun t =>
        ((u.queue? q.toNat).isSome = true → t = u.qcmdEnd h 1)
        ∧ (u.queue? q.toNat = none → (u.owner (cidPart (leAt img 10 2)) ≠ h ∨ (u.pstate (cidPart (leAt img 10 2)) ≠ 2 ∧ u.pstate (cidPart (leAt img 10 2)) ≠ 3)) → t = u.qcmdEnd h 3)
        ∧ (u.queue? q.toNat = none → u.owner (cidPart (leAt img 10 2)) = h → (u.pstate (cidPart (leAt img 10 2)) = 2 ∨ u.pstate (cidPart (leAt img 10 2)) = 3) →
            (queueOf img = none → t = u.qcmdEnd h 2)
            ∧ (∀ x, queueOf img = some x →
                ((q.toNat = 0 ∨ u.ringOk x = false ∨ u.instPart? (cidInst x.cid) ≠ some (cidPart (leAt img 10 2)) ∨ u.queues.any (fun e => e.2.cid == x.cid && e.2.dbSlot == x.dbSlot) = true) → t = u.qcmdEnd h 2)
                ∧ (q.toNat ≠ 0 → u.ringOk x = true → u.instPart? (cidInst x.cid) = some (cidPart (leAt img 10 2)) → u.queues.any (fun e => e.2.cid == x.cid && e.2.dbSlot == x.dbSlot) = false → x.type = 2 →
                    (u.flag Reg.HOSTIF_QT_CTL.ENABLE = false → t = u.qcmdEnd h 4)
                    ∧ (u.flag Reg.HOSTIF_QT_CTL.ENABLE = true → t.queue? q.toNat = some { x with shadow := 0 } ∧ t.get (Reg.HOSTIF_QCMD_STS.RESULT h) = 0
                        ∧ t = (((u.setQueue q.toNat { x with shadow := 0 }).putDesc q.toNat x.encode).put Reg.HOSTIF_QSTS.QUEUES (((u.setQueue q.toNat { x with shadow := 0 }).putDesc q.toNat x.encode).get Reg.HOSTIF_QSTS.QUEUES + 1)).qcmdEnd h 0)))))
  ∧ (∀ (s u : State) (h : HostId) (q : BitVec 20) (seen : Seen),
      Takes s h (Reg.HOSTIF_QCMD.off h) →
      u = (s.put (Reg.HOSTIF_QCMD.QUEUE h) (wordField (qcmdWord 2 q) 0 20)).put (Reg.HOSTIF_QCMD.OP h) 2 →
      Completes (.queueModify h q seen) s fun t =>
        (s.flag (Reg.HOSTIF_QCMD_STS.BUSY h) = true → t = u)
        ∧ (s.flag (Reg.HOSTIF_QCMD_STS.BUSY h) = false → s.inP2 = true → t.get (Reg.HOSTIF_QCMD_STS.DONE h) = 1 ∧ t.get (Reg.HOSTIF_QCMD_STS.RESULT h) = 1 ∧ t = u.qcmdEnd h 1)
        ∧ t.get (Reg.HOSTIF_QCMD.QUEUE h) = q.toNat ∧ t.get (Reg.HOSTIF_QCMD.OP h) = 2
        ∧ t = { s with regs := t.regs, scriv := t.scriv, host0 := t.host0, host1 := t.host1, queues := t.queues, ddrBad := t.ddrBad, hostMem0 := t.hostMem0, hostMem1 := t.hostMem1, poisoned := t.poisoned, ddr := t.ddr, out := t.out })
  ∧ (∀ (s u : State) (h : HostId) (q : BitVec 20) (seen : Seen) (img : List Byte),
      Takes s h (Reg.HOSTIF_QCMD.off h) ∧ s.flag (Reg.HOSTIF_QCMD_STS.BUSY h) = false ∧ s.inP2 = false →
      u = ((s.put (Reg.HOSTIF_QCMD.QUEUE h) (wordField (qcmdWord 2 q) 0 20)).put (Reg.HOSTIF_QCMD.OP h) 2).see seen →
      img = u.hostRead h (u.pair (Reg.HOSTIF_QCMD_ADDR_LO.ADDR_LO h) (Reg.HOSTIF_QCMD_ADDR_HI.ADDR_HI h)) 32 →
      Completes (.queueModify h q seen) s fun t =>
        (u.queue? q.toNat = none → t = u.qcmdEnd h 1)
        ∧ (∀ y, u.queue? q.toNat = some y → (u.owner (cidPart y.cid) ≠ h → t = u.qcmdEnd h 3)
            ∧ (u.owner (cidPart y.cid) = h → queueOf img = none → t = u.qcmdEnd h 2)
            ∧ (u.owner (cidPart y.cid) = h → ∀ x, queueOf img = some x →
                (({ y with modCount := x.modCount, modTime := x.modTime, vector := x.vector } : Queue).encode ≠ x.encode → t = u.qcmdEnd h 2)
                ∧ (({ y with modCount := x.modCount, modTime := x.modTime, vector := x.vector } : Queue).encode = x.encode →
                    t.queue? q.toNat = some { y with modCount := x.modCount, modTime := x.modTime, vector := x.vector } ∧ t.get (Reg.HOSTIF_QCMD_STS.RESULT h) = 0
                    ∧ t = ((u.setQueue q.toNat { y with modCount := x.modCount, modTime := x.modTime, vector := x.vector }).putDesc q.toNat x.encode).qcmdEnd h 0))))
  ∧ (∀ (s u : State) (h : HostId) (q : BitVec 20) (seen : Seen),
      Takes s h (Reg.HOSTIF_QCMD.off h) →
      u = (s.put (Reg.HOSTIF_QCMD.QUEUE h) (wordField (qcmdWord 3 q) 0 20)).put (Reg.HOSTIF_QCMD.OP h) 3 →
      Completes (.queueQuery h q seen) s fun t =>
        (s.flag (Reg.HOSTIF_QCMD_STS.BUSY h) = true → t = u)
        ∧ (s.flag (Reg.HOSTIF_QCMD_STS.BUSY h) = false → s.inP2 = true → t.get (Reg.HOSTIF_QCMD_STS.DONE h) = 1 ∧ t.get (Reg.HOSTIF_QCMD_STS.RESULT h) = 1 ∧ t = u.qcmdEnd h 1)
        ∧ t.get (Reg.HOSTIF_QCMD.QUEUE h) = q.toNat ∧ t.get (Reg.HOSTIF_QCMD.OP h) = 3
        ∧ t = { s with regs := t.regs, scriv := t.scriv, host0 := t.host0, host1 := t.host1, queues := t.queues, ddrBad := t.ddrBad, hostMem0 := t.hostMem0, hostMem1 := t.hostMem1, poisoned := t.poisoned, ddr := t.ddr, out := t.out })
  ∧ (∀ (s u : State) (h : HostId) (q : BitVec 20) (seen : Seen) (img : List Byte),
      Takes s h (Reg.HOSTIF_QCMD.off h) ∧ s.flag (Reg.HOSTIF_QCMD_STS.BUSY h) = false ∧ s.inP2 = false →
      u = ((s.put (Reg.HOSTIF_QCMD.QUEUE h) (wordField (qcmdWord 3 q) 0 20)).put (Reg.HOSTIF_QCMD.OP h) 3).see seen →
      img = u.hostRead h (u.pair (Reg.HOSTIF_QCMD_ADDR_LO.ADDR_LO h) (Reg.HOSTIF_QCMD_ADDR_HI.ADDR_HI h)) 32 →
      Completes (.queueQuery h q seen) s fun t =>
        (u.queue? q.toNat = none → t = u.qcmdEnd h 1)
        ∧ (∀ y, u.queue? q.toNat = some y → (u.owner (cidPart y.cid) ≠ h → t = u.qcmdEnd h 3)
            ∧ (u.owner (cidPart y.cid) = h → t = (u.writeHost h (u.pair (Reg.HOSTIF_QCMD_ADDR_LO.ADDR_LO h) (Reg.HOSTIF_QCMD_ADDR_HI.ADDR_HI h)) y.encode).qcmdEnd h 0
                ∧ t.get (Reg.HOSTIF_QCMD_STS.RESULT h) = 0 ∧ t.queues = s.queues)))
  ∧ (∀ (s u : State) (h : HostId) (q : BitVec 20) (seen : Seen),
      Takes s h (Reg.HOSTIF_QCMD.off h) →
      u = (s.put (Reg.HOSTIF_QCMD.QUEUE h) (wordField (qcmdWord 4 q) 0 20)).put (Reg.HOSTIF_QCMD.OP h) 4 →
      Completes (.queueDestroy h q seen) s fun t =>
        (s.flag (Reg.HOSTIF_QCMD_STS.BUSY h) = true → t = u)
        ∧ (s.flag (Reg.HOSTIF_QCMD_STS.BUSY h) = false → s.inP2 = true → t.get (Reg.HOSTIF_QCMD_STS.DONE h) = 1 ∧ t.get (Reg.HOSTIF_QCMD_STS.RESULT h) = 1 ∧ t = u.qcmdEnd h 1)
        ∧ t.get (Reg.HOSTIF_QCMD.QUEUE h) = q.toNat ∧ t.get (Reg.HOSTIF_QCMD.OP h) = 4
        ∧ t = { s with regs := t.regs, scriv := t.scriv, host0 := t.host0, host1 := t.host1, queues := t.queues, ddrBad := t.ddrBad, hostMem0 := t.hostMem0, hostMem1 := t.hostMem1, poisoned := t.poisoned, ddr := t.ddr, out := t.out })
  ∧ (∀ (s u : State) (h : HostId) (q : BitVec 20) (seen : Seen) (img : List Byte),
      Takes s h (Reg.HOSTIF_QCMD.off h) ∧ s.flag (Reg.HOSTIF_QCMD_STS.BUSY h) = false ∧ s.inP2 = false →
      u = ((s.put (Reg.HOSTIF_QCMD.QUEUE h) (wordField (qcmdWord 4 q) 0 20)).put (Reg.HOSTIF_QCMD.OP h) 4).see seen →
      img = u.hostRead h (u.pair (Reg.HOSTIF_QCMD_ADDR_LO.ADDR_LO h) (Reg.HOSTIF_QCMD_ADDR_HI.ADDR_HI h)) 32 →
      Completes (.queueDestroy h q seen) s fun t =>
        (u.queue? q.toNat = none → t = u.qcmdEnd h 1)
        ∧ (∀ y, u.queue? q.toNat = some y → (u.owner (cidPart y.cid) ≠ h → t = u.qcmdEnd h 3)
            ∧ (u.owner (cidPart y.cid) = h → u.queueInUse q.toNat y = true → t = u.qcmdEnd h 5)
            ∧ (u.owner (cidPart y.cid) = h → u.queueInUse q.toNat y = false → t = (u.dropQueue q.toNat).qcmdEnd h 0
                ∧ t.get (Reg.HOSTIF_QCMD_STS.RESULT h) = 0 ∧ t.queues = s.queues.del q.toNat)))
  ∧ (∀ (s : State) (h : HostId) (q : BitVec 20),
      Takes s h (Reg.HOSTIF_DCINV.off h) →
      Completes (.dcinv h q) s fun t =>
        t.get (Reg.HOSTIF_DCINV.QUEUE h) = q.toNat
        ∧ (s.flag (Reg.HOSTIF_DCINV_STS.BUSY h) = true → t = s.put (Reg.HOSTIF_DCINV.QUEUE h) q.toNat)
        ∧ (s.flag (Reg.HOSTIF_DCINV_STS.BUSY h) = false →
            (s.queue? q.toNat = none → t = (s.put (Reg.HOSTIF_DCINV.QUEUE h) q.toNat).put (Reg.HOSTIF_DCINV_STS.REJ h) 1 ∧ t.get (Reg.HOSTIF_DCINV_STS.REJ h) = 1)
            ∧ (∀ y, s.queue? q.toNat = some y →
                (s.owner (cidPart y.cid) ≠ h → t = (s.put (Reg.HOSTIF_DCINV.QUEUE h) q.toNat).put (Reg.HOSTIF_DCINV_STS.REJ h) 1)
                ∧ (s.owner (cidPart y.cid) = h → t.queue? q.toNat = some { y with cached := [], fetch := y.next } ∧ t.get (Reg.HOSTIF_DCINV_STS.DONE h) = 1
                    ∧ RegsBut [Reg.HOSTIF_DCINV.off h, Reg.HOSTIF_DCINV_STS.off h] s t
                    ∧ t = { s with regs := t.regs, queues := t.queues, host0 := t.host0, host1 := t.host1, out := t.out }))))
  ∧ (∀ (s : State) (q : BitVec 20) (n : Fin 17) (seen : Seen),
      Completes (.entryFetchReturn q n seen) s fun t =>
        (s.queue? q.toNat = none → t = s)
        ∧ (∀ y, s.queue? q.toNat = some y → (s.mayFetch q.toNat y = false → t = s)
            ∧ (s.mayFetch q.toNat y = true → t = (List.range (min (min n 16) (y.size - y.slotOf y.fetch))).foldl (fun s _ => s.fetchSlot q.toNat) (s.see seen)))
        ∧ t = { s with regs := t.regs, scriv := t.scriv, host0 := t.host0, host1 := t.host1, queues := t.queues, hostMem0 := t.hostMem0, hostMem1 := t.hostMem1, poisoned := t.poisoned, out := t.out })
  ∧ (∀ (s u : State) (q : BitVec 20) (seen : Seen) (y : Queue) (r : Except MemErr (List Byte)),
      s.queue? q.toNat = some y ∧ s.mayFetch q.toNat y = true ∧ y.fetch ≠ y.posted ∧ y.cached.length < 64 ∧ s.cachedCount < 65536 →
      y.early.contains y.fetch = false ∧ (s.see seen).memReadC y.cid y.space (y.addr y.fetch) 64 = (u, r) →
      Completes (.entryFetchReturn q 1 seen) s fun t =>
        (r = .error .wait → t = u)
        ∧ (∀ bs, r = .ok bs → t.queue? q.toNat = some { y with fetch := y.step y.fetch 1, cached := y.cached ++ [(y.fetch, 0, bs)] } ∧ t = { u with queues := t.queues })
        ∧ (r = .error .cid ∨ r = .error .ue → (t.queue? q.toNat).map (fun x => (x.fetch, x.cached.length)) = some (y.step y.fetch 1, y.cached.length + 1) ∧ t = { u with queues := t.queues }))
  ∧ (∀ (s : State) (q : BitVec 20) (pos : Nat) (seen : Seen),
      Completes (.refetchTimer q pos seen) s fun t =>
        (s.queue? q.toNat = none → t = s)
        ∧ (∀ y, s.queue? q.toNat = some y → (y.cached.find? (fun c => c.1 == pos) = none → t = s)
            ∧ (∀ c, y.cached.find? (fun c => c.1 == pos) = some c → (y.fresh pos c.2.2 = true ∨ 4 ≤ c.2.1 ∨ s.mayFetch q.toNat y = false → t = s)))
        ∧ t = { s with regs := t.regs, scriv := t.scriv, host0 := t.host0, host1 := t.host1, queues := t.queues, hostMem0 := t.hostMem0, hostMem1 := t.hostMem1, poisoned := t.poisoned, out := t.out })
  ∧ (∀ (s u : State) (q : BitVec 20) (pos k : Nat) (seen : Seen) (y : Queue) (bs : List Byte) (r : Except MemErr (List Byte)),
      s.queue? q.toNat = some y ∧ y.cached.find? (fun c => c.1 == pos) = some (pos, k, bs) ∧ y.fresh pos bs = false ∧ k < 4 ∧ s.mayFetch q.toNat y = true →
      (s.see seen).memReadC y.cid y.space (y.addr pos) 64 = (u, r) →
      Completes (.refetchTimer q pos seen) s fun t =>
        (r = .error .wait → t = u)
        ∧ (∀ new, r = .ok new → t.queue? q.toNat = some { y with cached := y.cached.map (fun c => if c.1 = pos then (pos, k + 1, new) else c) }
            ∧ t.get (Reg.HOSTIF_REFETCH.COUNT (s.owner (cidPart y.cid))) = min (u.get (Reg.HOSTIF_REFETCH.COUNT (s.owner (cidPart y.cid))) + 1) 4294967295
            ∧ t = { u with regs := t.regs, queues := t.queues })
        ∧ (r = .error .cid ∨ r = .error .ue → (t.queue? q.toNat).map (fun x => x.cached.map (fun c => (c.1, if c.1 = pos then c.2.1 else 0))) = some (y.cached.map (fun c => (c.1, if c.1 = pos then 5 else 0)))))
  ∧ (∀ (s : State) (q : BitVec 20),
      Completes (.cqModerationExpiry q) s fun t =>
        (s.queue? q.toNat = none → t = s)
        ∧ (∀ y, s.queue? q.toNat = some y → (y.armed = false ∨ y.since = 0 → t = s)
            ∧ (y.armed = true → y.since ≠ 0 → t = s.raiseCq q.toNat y ∧ t.queue? q.toNat = some { y with armed := false, since := 0 }))
        ∧ t = { s with host0 := t.host0, host1 := t.host1, queues := t.queues, out := t.out })

/-- A request packet at its expected PSN is checked and done; an early one draws one NAK, an earlier one is answered again. A receive
command with no packet of its kind in front changes nothing; a packet whose context is out of its bank goes to the miss buffer and the
context is fetched. A request beyond EPSN counts and draws NAK SEQUENCE once; one of another CID draws CID_MISMATCH. A SEND without a
receive entry draws an RNR NAK; a WRITE, READ or atomic that fails its window check draws the code of Table 7.3. One that passes acts on
memory, advances EPSN, and is acknowledged; a RESYNC sets EPSN. -/
def Obligations.RequestPackets : Prop :=
  (∀ (s u : State) (seen : Seen),
      u = s.see seen →
      Completes (.sendReceive seen) s fun t =>
        (u.nextPkt = none → t = u)
        ∧ (∀ x, u.nextPkt = some x → ∀ p, x.1.decode = .pkt p →
            (p.row ≠ .send → t = u)
            ∧ (p.row = .send → u.absent p.dqpn = true → t = ({ u with rxq := x.2 } : State).missIn x.1 p.dqpn))
        ∧ DeliveryOnly s t)
  ∧ (∀ (s w : State) (seen : Seen) (x : RxPkt) (xs : List RxPkt) (p : TPkt) (y : Qp),
      TakesPacket (s.see seen) x xs p y w ∧ p.row = .send →
      Completes (.sendReceive seen) s fun t =>
        (psnSub p.psn y.ctx.epsn ≠ 0 → psnSub p.psn y.ctx.epsn < 2 ^ 23 → y.ctx.nakSent = true → t = w.pktGone x)
        ∧ (psnSub p.psn y.ctx.epsn ≠ 0 → psnSub p.psn y.ctx.epsn < 2 ^ 23 → y.ctx.nakSent = false → t = (((w.count Reg.KENNEL_NAK_SEQ.COUNT).modQp p.dqpn (fun x => { x with early := true })).nak p.dqpn 0 y.ctx.epsn).pktGone x)
        ∧ (psnSub p.psn y.ctx.epsn = 0 → p.roce = false → p.cid ≠ y.ctx.cid → t = (w.nak p.dqpn 4 p.psn).pktGone x)
        ∧ (2 ^ 23 ≤ psnSub p.psn y.ctx.epsn → t = ((w.oweVis p.dqpn p ((match w.recvEntry? y.ctx with | some l => l.toHost | none => false))).answer p.dqpn { kind := .ack, psn := psnAdd y.ctx.epsn (2 ^ 24 - 1) }).pktGone x))
  ∧ (∀ (s w : State) (seen : Seen) (x : RxPkt) (xs : List RxPkt) (p : TPkt) (y : Qp),
      TakesPacket (s.see seen) x xs p y w ∧ p.row = .send →
      psnSub p.psn y.ctx.epsn = 0 ∧ (p.roce = true ∨ p.cid = y.ctx.cid) →
      Completes (.sendReceive seen) s fun t =>
        (y.recvFail = true → t = ((w.setQp p.dqpn { y with recvFail := false }).nak p.dqpn 7 p.psn).pktGone x)
        ∧ (y.recvFail = false → w.recvEntry? y.ctx = none → t = (w.rnrNak p.dqpn p.psn).pktGone x)
        ∧ (y.recvFail = false → ∀ l, w.recvEntry? y.ctx = some l → l.len < (if p.opens then 0 else y.ctx.msgOffset) + p.payload.length → t = ((w.endRecv y.ctx l 0x10 0 p).nak p.dqpn 1 p.psn).pktGone x))
  ∧ (∀ (s w : State) (seen : Seen) (x : RxPkt) (xs : List RxPkt) (p : TPkt) (y : Qp) (z : State) (l : Live) (off : Nat) (r : BufRes Unit),
      TakesPacket (s.see seen) x xs p y w ∧ p.row = .send →
      psnSub p.psn y.ctx.epsn = 0 ∧ (p.roce = true ∨ p.cid = y.ctx.cid) ∧ y.recvFail = false ∧ w.recvEntry? y.ctx = some l ∧ off = (if p.opens then 0 else y.ctx.msgOffset) ∧ off + p.payload.length ≤ l.len →
      (match p.tag with | some g => !w.tagOk (cidPart y.ctx.cid) g | none => false) = false ∧ w.bufWrite y.ctx.cid l.buf off p.payload = (z, r) →
      Completes (.sendReceive seen) s fun t =>
        (r = .err .wait → t = s.see seen)
        ∧ (∀ e, r = .err e → e ≠ .wait → t = (((z.endRecv y.ctx l (if e = .ue then 0x40 else 0x22) 0 p).nak p.dqpn (memNak e) p.psn).qpError p.dqpn (if e = .ue then 0x40 else 0x22) p.psn).pktGone x)
        ∧ (r = .ok () → p.closes = true →
            t = (((((z.modQp p.dqpn (fun x => { x with recvFault := false, ctx := { x.ctx with msgOffset := off + p.payload.length } })).accepted p.dqpn 1 true).oweFlags p.dqpn y.ctx p l.toHost).endRecv y.ctx l 0 (off + p.payload.length) p).oweAck p.dqpn p.ackReq).pktGone x))
  ∧ (∀ (s u : State) (seen : Seen),
      u = s.see seen →
      Completes (.writeReceive seen) s fun t =>
        (u.nextPkt = none → t = u)
        ∧ (∀ x, u.nextPkt = some x → ∀ p, x.1.decode = .pkt p →
            (p.row ≠ .write → t = u)
            ∧ (p.row = .write → u.absent p.dqpn = true → t = ({ u with rxq := x.2 } : State).missIn x.1 p.dqpn))
        ∧ DeliveryOnly s t)
  ∧ (∀ (s w : State) (seen : Seen) (x : RxPkt) (xs : List RxPkt) (p : TPkt) (y : Qp),
      TakesPacket (s.see seen) x xs p y w ∧ p.row = .write →
      Completes (.writeReceive seen) s fun t =>
        (psnSub p.psn y.ctx.epsn ≠ 0 → psnSub p.psn y.ctx.epsn < 2 ^ 23 → y.ctx.nakSent = true → t = w.pktGone x)
        ∧ (psnSub p.psn y.ctx.epsn ≠ 0 → psnSub p.psn y.ctx.epsn < 2 ^ 23 → y.ctx.nakSent = false → t = (((w.count Reg.KENNEL_NAK_SEQ.COUNT).modQp p.dqpn (fun x => { x with early := true })).nak p.dqpn 0 y.ctx.epsn).pktGone x)
        ∧ (psnSub p.psn y.ctx.epsn = 0 → p.roce = false → p.cid ≠ y.ctx.cid → t = (w.nak p.dqpn 4 p.psn).pktGone x)
        ∧ (2 ^ 23 ≤ psnSub p.psn y.ctx.epsn → t = ((w.oweVis p.dqpn p ((w.win ((if p.hasRae then p.key else y.ctx.curKey) / 4096)).space == 0)).answer p.dqpn { kind := .ack, psn := psnAdd y.ctx.epsn (2 ^ 24 - 1) }).pktGone x))
  ∧ (∀ (s w : State) (seen : Seen) (x : RxPkt) (xs : List RxPkt) (p : TPkt) (y : Qp) (key addr len : Nat),
      TakesPacket (s.see seen) x xs p y w ∧ p.row = .write →
      psnSub p.psn y.ctx.epsn = 0 ∧ (p.roce = true ∨ p.cid = y.ctx.cid) →
      key = (if p.hasRae then p.key else y.ctx.curKey) ∧ addr = (if p.hasRae then p.addr else y.ctx.curAddr) ∧ len = (if p.hasRae then p.len else p.payload.length) →
      Completes (.writeReceive seen) s fun t =>
        (∀ code, w.winCheck y.ctx.cid key .write addr len = some (code) → t = (w.nak p.dqpn code p.psn).pktGone x)
        ∧ (w.winCheck y.ctx.cid key .write addr len = none → (match p.tag with | some g => !w.tagOk (cidPart y.ctx.cid) g | none => false) = true → t = (w.nak p.dqpn 2 p.psn).pktGone x)
        ∧ (w.winCheck y.ctx.cid key .write addr len = none → (match p.tag with | some g => !w.tagOk (cidPart y.ctx.cid) g | none => false) = false → p.imm.isSome = true → w.recvEntry? y.ctx = none → t = (w.rnrNak p.dqpn p.psn).pktGone x))
  ∧ (∀ (s w : State) (seen : Seen) (x : RxPkt) (xs : List RxPkt) (p : TPkt) (y : Qp) (z : State) (key addr len : Nat) (r : Except MemErr Unit),
      TakesPacket (s.see seen) x xs p y w ∧ p.row = .write →
      psnSub p.psn y.ctx.epsn = 0 ∧ (p.roce = true ∨ p.cid = y.ctx.cid) →
      key = (if p.hasRae then p.key else y.ctx.curKey) ∧ addr = (if p.hasRae then p.addr else y.ctx.curAddr) ∧ len = (if p.hasRae then p.len else p.payload.length) →
      w.winCheck y.ctx.cid key .write addr len = none ∧ (match p.tag with | some g => !w.tagOk (cidPart y.ctx.cid) g | none => false) = false ∧ p.imm = none ∧ w.memWriteC y.ctx.cid (w.win (key / 4096)).space addr p.payload = (z, r) →
      Completes (.writeReceive seen) s fun t =>
        (r = .error .wait → t = s.see seen)
        ∧ (∀ e, r = .error e → e ≠ .wait → t = (z.nak p.dqpn (memNak e) p.psn).pktGone x)
        ∧ (r = .ok () → t = ((((((z.inflightUp (key / 4096)).modQp p.dqpn (fun x => { x with wlen := (if p.hasRae then 0 else y.wlen) + p.payload.length, ctx := { x.ctx with curKey := key, curAddr := addr + p.payload.length } })).accepted p.dqpn 1 p.closes).oweFlags p.dqpn y.ctx p ((z.win (key / 4096)).space == 0))).oweAck p.dqpn p.ackReq).pktGone x))
  ∧ (∀ (s u : State) (seen : Seen),
      u = s.see seen →
      Completes (.readReqReceive seen) s fun t =>
        (u.nextPkt = none → t = u)
        ∧ (∀ x, u.nextPkt = some x → ∀ p, x.1.decode = .pkt p →
            (p.row ≠ .readReq → t = u)
            ∧ (p.row = .readReq → u.absent p.dqpn = true → t = ({ u with rxq := x.2 } : State).missIn x.1 p.dqpn))
        ∧ DeliveryOnly s t)
  ∧ (∀ (s w : State) (seen : Seen) (x : RxPkt) (xs : List RxPkt) (p : TPkt) (y : Qp),
      TakesPacket (s.see seen) x xs p y w ∧ p.row = .readReq →
      Completes (.readReqReceive seen) s fun t =>
        (psnSub p.psn y.ctx.epsn ≠ 0 → psnSub p.psn y.ctx.epsn < 2 ^ 23 → y.ctx.nakSent = true → t = w.pktGone x)
        ∧ (psnSub p.psn y.ctx.epsn ≠ 0 → psnSub p.psn y.ctx.epsn < 2 ^ 23 → y.ctx.nakSent = false → t = (((w.count Reg.KENNEL_NAK_SEQ.COUNT).modQp p.dqpn (fun x => { x with early := true })).nak p.dqpn 0 y.ctx.epsn).pktGone x)
        ∧ (psnSub p.psn y.ctx.epsn = 0 → p.roce = false → p.cid ≠ y.ctx.cid → t = (w.nak p.dqpn 4 p.psn).pktGone x)
        ∧ (2 ^ 23 ≤ psnSub p.psn y.ctx.epsn → p.roce = false → p.cid ≠ y.ctx.cid → t = (w.nak p.dqpn 4 p.psn).pktGone x))
  ∧ (∀ (s w : State) (seen : Seen) (x : RxPkt) (xs : List RxPkt) (p : TPkt) (y : Qp),
      TakesPacket (s.see seen) x xs p y w ∧ p.row = .readReq →
      psnSub p.psn y.ctx.epsn = 0 ∧ (p.roce = true ∨ p.cid = y.ctx.cid) →
      Completes (.readReqReceive seen) s fun t =>
        (∀ code, w.winCheck y.ctx.cid p.key .read p.addr p.len = some (code) → t = (w.nak p.dqpn code p.psn).pktGone x)
        ∧ (w.winCheck y.ctx.cid p.key .read p.addr p.len = none → p.len = 0 → p.ackReq = false →
            t = (((w.inflightUp (p.key / 4096)).accepted p.dqpn 1 true).readResponses p.dqpn p.psn y.ctx.mtu []).pktGone x))
  ∧ (∀ (s w : State) (seen : Seen) (x : RxPkt) (xs : List RxPkt) (p : TPkt) (y : Qp) (z : State) (r : Except MemErr (List Byte)),
      TakesPacket (s.see seen) x xs p y w ∧ p.row = .readReq →
      psnSub p.psn y.ctx.epsn = 0 ∧ (p.roce = true ∨ p.cid = y.ctx.cid) →
      w.winCheck y.ctx.cid p.key .read p.addr p.len = none ∧ p.len ≠ 0 ∧ w.memReadC y.ctx.cid (w.win (p.key / 4096)).space p.addr p.len = (z, r) →
      Completes (.readReqReceive seen) s fun t =>
        (r = .error .wait → t = s.see seen)
        ∧ (∀ e, r = .error e → e ≠ .wait → t = (z.nak p.dqpn (memNak e) p.psn).pktGone x)
        ∧ (∀ bs, r = .ok bs → p.ackReq = false → t = (((z.inflightUp (p.key / 4096)).accepted p.dqpn (max 1 (ceilDiv p.len y.ctx.mtu)) true).readResponses p.dqpn p.psn y.ctx.mtu bs).pktGone x)
        ∧ (∀ bs, r = .ok bs → p.ackReq = true → t = ((((z.inflightUp (p.key / 4096)).accepted p.dqpn (max 1 (ceilDiv p.len y.ctx.mtu)) true).readResponses p.dqpn p.psn y.ctx.mtu bs).sendAck p.dqpn).pktGone x))
  ∧ (∀ (s u : State) (seen : Seen),
      u = s.see seen →
      Completes (.atomicReceive seen) s fun t =>
        (u.nextPkt = none → t = u)
        ∧ (∀ x, u.nextPkt = some x → ∀ p, x.1.decode = .pkt p →
            (p.row ≠ .atomic → t = u)
            ∧ (p.row = .atomic → u.absent p.dqpn = true → t = ({ u with rxq := x.2 } : State).missIn x.1 p.dqpn))
        ∧ DeliveryOnly s t)
  ∧ (∀ (s w : State) (seen : Seen) (x : RxPkt) (xs : List RxPkt) (p : TPkt) (y : Qp),
      TakesPacket (s.see seen) x xs p y w ∧ p.row = .atomic →
      Completes (.atomicReceive seen) s fun t =>
        (psnSub p.psn y.ctx.epsn ≠ 0 → psnSub p.psn y.ctx.epsn < 2 ^ 23 → y.ctx.nakSent = true → t = w.pktGone x)
        ∧ (psnSub p.psn y.ctx.epsn ≠ 0 → psnSub p.psn y.ctx.epsn < 2 ^ 23 → y.ctx.nakSent = false → t = (((w.count Reg.KENNEL_NAK_SEQ.COUNT).modQp p.dqpn (fun x => { x with early := true })).nak p.dqpn 0 y.ctx.epsn).pktGone x)
        ∧ (psnSub p.psn y.ctx.epsn = 0 → p.roce = false → p.cid ≠ y.ctx.cid → t = (w.nak p.dqpn 4 p.psn).pktGone x)
        ∧ (2 ^ 23 ≤ psnSub p.psn y.ctx.epsn → y.ctx.replay.find? (fun r => r.2.1 == p.psn) = none → t = w.pktGone x)
        ∧ (2 ^ 23 ≤ psnSub p.psn y.ctx.epsn → ∀ r, y.ctx.replay.find? (fun r => r.2.1 == p.psn) = some r → t = (w.answer p.dqpn { kind := .atomicAck, psn := p.psn, orig := r.2.2 }).pktGone x))
  ∧ (∀ (s w : State) (seen : Seen) (x : RxPkt) (xs : List RxPkt) (p : TPkt) (y : Qp),
      TakesPacket (s.see seen) x xs p y w ∧ p.row = .atomic →
      psnSub p.psn y.ctx.epsn = 0 ∧ (p.roce = true ∨ p.cid = y.ctx.cid) →
      Completes (.atomicReceive seen) s fun t =>
        (∀ code, w.winCheck y.ctx.cid p.key .atomic p.addr 8 = some (code) → t = (w.nak p.dqpn code p.psn).pktGone x))
  ∧ (∀ (s w : State) (seen : Seen) (x : RxPkt) (xs : List RxPkt) (p : TPkt) (y : Qp) (z z2 : State) (bs : List Byte),
      TakesPacket (s.see seen) x xs p y w ∧ p.row = .atomic →
      psnSub p.psn y.ctx.epsn = 0 ∧ (p.roce = true ∨ p.cid = y.ctx.cid) →
      w.winCheck y.ctx.cid p.key .atomic p.addr 8 = none ∧ w.memReadC y.ctx.cid (w.win (p.key / 4096)).space p.addr 8 = (z, .ok bs) ∧ z.atomicOn y.ctx (w.win (p.key / 4096)).space p.addr p (leNat bs) = (z2, .ok ()) →
      Completes (.atomicReceive seen) s fun t =>
        (p.ackReq = false → t = ((((z2.inflightUp (p.key / 4096)).modQp p.dqpn (fun x => { x with replayNext := (x.replayNext + 1) % 4, ctx := { x.ctx with replay := x.ctx.replay.set x.replayNext (p.psn, leNat bs) } })).accepted p.dqpn 1 true).answer p.dqpn { kind := .atomicAck, psn := p.psn, orig := leNat bs }).pktGone x)
        ∧ (p.ackReq = true → t = (((((z2.inflightUp (p.key / 4096)).modQp p.dqpn (fun x => { x with replayNext := (x.replayNext + 1) % 4, ctx := { x.ctx with replay := x.ctx.replay.set x.replayNext (p.psn, leNat bs) } })).accepted p.dqpn 1 true).answer p.dqpn { kind := .atomicAck, psn := p.psn, orig := leNat bs }).sendAck p.dqpn).pktGone x))
  ∧ (∀ (s u : State) (seen : Seen),
      u = s.see seen →
      Completes (.resyncReceive seen) s fun t =>
        (u.nextPkt = none → t = u)
        ∧ (∀ x, u.nextPkt = some x → ∀ p, x.1.decode = .pkt p →
            (p.row ≠ .resync → t = u)
            ∧ (p.row = .resync → u.absent p.dqpn = true → t = ({ u with rxq := x.2 } : State).missIn x.1 p.dqpn))
        ∧ DeliveryOnly s t)
  ∧ (∀ (s w : State) (seen : Seen) (x : RxPkt) (xs : List RxPkt) (p : TPkt) (y : Qp),
      TakesPacket (s.see seen) x xs p y w ∧ p.row = .resync →
      Completes (.resyncReceive seen) s fun t =>
        t = (w.acceptResync p.dqpn p.psn).pktGone x)

/-- ACK, NAK, RNR NAK, VIS_ACK, READ responses and ATOMIC_ACK act on their queue pair as R159 to R164 give. A receive command with no
packet of its kind in front changes nothing; a packet whose context is out of its bank goes to the miss buffer and the context is
fetched. Else an ACK acknowledges, a NAK acknowledges what is before it and resends or fails the entry, an RNR NAK starts a wait, a
VIS_ACK lets entries complete; a READ response or ATOMIC_ACK that answers no started entry is dropped, and one that does is placed and
acknowledges its PSN. -/
def Obligations.AnswerPackets : Prop :=
  (∀ (s u : State) (seen : Seen),
      u = s.see seen →
      Completes (.ackReceive seen) s fun t =>
        (u.nextPkt = none → t = u)
        ∧ (∀ x, u.nextPkt = some x → ∀ p, x.1.decode = .pkt p →
            (p.row ≠ .ack → t = u)
            ∧ (p.row = .ack → u.absent p.dqpn = true → t = ({ u with rxq := x.2 } : State).missIn x.1 p.dqpn))
        ∧ DeliveryOnly s t)
  ∧ (∀ (s w : State) (seen : Seen) (x : RxPkt) (xs : List RxPkt) (p : TPkt) (y : Qp),
      TakesPacket (s.see seen) x xs p y w ∧ p.row = .ack →
      Completes (.ackReceive seen) s fun t =>
        t = (w.onAck p.dqpn p.psn).pktGone x
        ∧ (psnSub y.ctx.sqPsn y.ctx.unaPsn ≤ psnSub p.psn y.ctx.unaPsn → y.ctx.resyncPend = false → t = w.pktGone x))
  ∧ (∀ (s u : State) (seen : Seen),
      u = s.see seen →
      Completes (.nakReceive seen) s fun t =>
        (u.nextPkt = none → t = u)
        ∧ (∀ x, u.nextPkt = some x → ∀ p, x.1.decode = .pkt p →
            (p.row ≠ .nak → t = u)
            ∧ (p.row = .nak → u.absent p.dqpn = true → t = ({ u with rxq := x.2 } : State).missIn x.1 p.dqpn))
        ∧ DeliveryOnly s t)
  ∧ (∀ (s w : State) (seen : Seen) (x : RxPkt) (xs : List RxPkt) (p : TPkt) (y : Qp),
      TakesPacket (s.see seen) x xs p y w ∧ p.row = .nak →
      Completes (.nakReceive seen) s fun t =>
        t = (w.onNak p.dqpn p.psn p.valSyn).pktGone x
        ∧ (y.ctx.current p.psn = false → t = w.pktGone x))
  ∧ (∀ (s u : State) (seen : Seen),
      u = s.see seen →
      Completes (.rnrNakReceive seen) s fun t =>
        (u.nextPkt = none → t = u)
        ∧ (∀ x, u.nextPkt = some x → ∀ p, x.1.decode = .pkt p →
            (p.row ≠ .rnrNak → t = u)
            ∧ (p.row = .rnrNak → u.absent p.dqpn = true → t = ({ u with rxq := x.2 } : State).missIn x.1 p.dqpn))
        ∧ DeliveryOnly s t)
  ∧ (∀ (s w : State) (seen : Seen) (x : RxPkt) (xs : List RxPkt) (p : TPkt) (y : Qp),
      TakesPacket (s.see seen) x xs p y w ∧ p.row = .rnrNak →
      Completes (.rnrNakReceive seen) s fun t =>
        t = (w.onRnr p.dqpn p.psn).pktGone x
        ∧ (y.ctx.current p.psn = false → t = (w.count Reg.KENNEL_RNR.COUNT).pktGone x))
  ∧ (∀ (s u : State) (seen : Seen),
      u = s.see seen →
      Completes (.visAckReceive seen) s fun t =>
        (u.nextPkt = none → t = u)
        ∧ (∀ x, u.nextPkt = some x → ∀ p, x.1.decode = .pkt p →
            (p.row ≠ .visAck → t = u)
            ∧ (p.row = .visAck → u.absent p.dqpn = true → t = ({ u with rxq := x.2 } : State).missIn x.1 p.dqpn))
        ∧ DeliveryOnly s t)
  ∧ (∀ (s w : State) (seen : Seen) (x : RxPkt) (xs : List RxPkt) (p : TPkt) (y : Qp),
      TakesPacket (s.see seen) x xs p y w ∧ p.row = .visAck →
      Completes (.visAckReceive seen) s fun t =>
        t = (w.onVisAck p.dqpn p.psn).pktGone x
        ∧ (w.queue? y.ctx.sq = none → (w.txLives y.ctx) = [] → t = (w.checkDrained p.dqpn).pktGone x))
  ∧ (∀ (s u : State) (seen : Seen),
      u = s.see seen →
      Completes (.readRespReceive seen) s fun t =>
        (u.nextPkt = none → t = u)
        ∧ (∀ x, u.nextPkt = some x → ∀ p, x.1.decode = .pkt p →
            (p.row ≠ .readResp → t = u)
            ∧ (p.row = .readResp → u.absent p.dqpn = true → t = ({ u with rxq := x.2 } : State).missIn x.1 p.dqpn))
        ∧ DeliveryOnly s t)
  ∧ (∀ (s w : State) (seen : Seen) (x : RxPkt) (xs : List RxPkt) (p : TPkt) (y : Qp),
      TakesPacket (s.see seen) x xs p y w ∧ p.row = .readResp →
      Completes (.readRespReceive seen) s fun t =>
        (w.liveAt y.ctx p.psn = none → t = w.pktGone x)
        ∧ (∀ l, w.liveAt y.ctx p.psn = some l → (l.awaits y.ctx ≠ some p.psn ∨ 6 ≤ l.opcode → t = w.pktGone x)))
  ∧ (∀ (s w : State) (seen : Seen) (x : RxPkt) (xs : List RxPkt) (p : TPkt) (y : Qp) (z : State) (l : Live) (r : BufRes Unit),
      TakesPacket (s.see seen) x xs p y w ∧ p.row = .readResp →
      w.liveAt y.ctx p.psn = some l ∧ l.awaits y.ctx = some p.psn ∧ l.coll = none ∧ l.opcode ≤ 5 ∧ (if l.opcode = 5 then min y.ctx.mtu (l.len - l.got) else 0) = p.payload.length ∧ p.payload ≠ [] →
      w.placeTile y.ctx.cid l.buf l.got p.payload y.ctx.sq l.pos { engine := 3, write := true, qpn := some p.dqpn, unit := homeBank p.dqpn } = (z, r) →
      Completes (.readRespReceive seen) s fun t =>
        (r = .err .wait → t = s.see seen)
        ∧ (∀ e, r = .err e → e ≠ .wait → t = (z.failReq p.dqpn l.pos (if e = .ue then 0x40 else 0x22) p.psn false).pktGone x)
        ∧ (r = .ok () → t = ((z.modLive y.ctx.sq l.pos (fun l => { l with ans := l.ans + 1, got := l.got + p.payload.length })).ackTo p.dqpn p.psn).pktGone x))
  ∧ (∀ (s u : State) (seen : Seen),
      u = s.see seen →
      Completes (.atomicAckReceive seen) s fun t =>
        (u.nextPkt = none → t = u)
        ∧ (∀ x, u.nextPkt = some x → ∀ p, x.1.decode = .pkt p →
            (p.row ≠ .atomicAck → t = u)
            ∧ (p.row = .atomicAck → u.absent p.dqpn = true → t = ({ u with rxq := x.2 } : State).missIn x.1 p.dqpn))
        ∧ DeliveryOnly s t)
  ∧ (∀ (s w : State) (seen : Seen) (x : RxPkt) (xs : List RxPkt) (p : TPkt) (y : Qp),
      TakesPacket (s.see seen) x xs p y w ∧ p.row = .atomicAck →
      Completes (.atomicAckReceive seen) s fun t =>
        (w.liveAt y.ctx p.psn = none → t = w.pktGone x)
        ∧ (∀ l, w.liveAt y.ctx p.psn = some l → (l.awaits y.ctx ≠ some p.psn ∨ l.opcode < 6 → t = w.pktGone x)))
  ∧ (∀ (s w : State) (seen : Seen) (x : RxPkt) (xs : List RxPkt) (p : TPkt) (y : Qp) (z : State) (l : Live) (r : BufRes Unit),
      TakesPacket (s.see seen) x xs p y w ∧ p.row = .atomicAck →
      w.liveAt y.ctx p.psn = some l ∧ l.awaits y.ctx = some p.psn ∧ l.coll = none ∧ 6 ≤ l.opcode →
      w.placeTile y.ctx.cid l.buf 0 (leBytes 8 p.orig) y.ctx.sq l.pos { engine := 5, write := true, qpn := some p.dqpn, unit := homeBank p.dqpn } = (z, r) →
      Completes (.atomicAckReceive seen) s fun t =>
        (r = .err .wait → t = s.see seen)
        ∧ (∀ e, r = .err e → e ≠ .wait → t = (z.failReq p.dqpn l.pos (if e = .ue then 0x40 else 0x22) p.psn false).pktGone x)
        ∧ (r = .ok () → t = ((z.modLive y.ctx.sq l.pos (fun l => { l with ans := 1 })).ackTo p.dqpn p.psn).pktGone x))

/-- Timers, fetch ends, visibility and tagged increments act on their queue pair, entry or slot as the rules give. A timer that does not
run changes nothing. A retransmission timeout of a pair that sends goes back, or fails the oldest entry where no retry is left; the end
of an RNR wait resends from the NAKed PSN, a due ACK delay sends the ACK. A context out of its bank is fetched first. Data that becomes
visible lets its VIS_ACK go or its entry's flag be written; host memory needs its owner's port. A path hold that expires ends the
entries with PATH_LOST or PEER_FENCED, but not of a FROZEN pair. A tagged message increments its slot once its data is committed. -/
def Obligations.PairTimersAndVisibility : Prop :=
  (∀ (s : State) (q : BitVec 24) (seen : Seen),
      Completes (.retransmitTimeout q seen) s fun t =>
        (s.qp? q.toNat = none → t = s)
        ∧ (∀ y, s.qp? q.toNat = some y → (y.ctx.timer = 0 → t = s)
            ∧ (y.ctx.timer ≠ 0 → y.resident = true → t = ((s.see seen).checkCtx q.toNat).timerOut q.toNat)
            ∧ (y.ctx.timer ≠ 0 → y.place = .victim → t = ((s.see seen).fetchIn q.toNat).timerOut q.toNat)
            ∧ (y.ctx.timer ≠ 0 → y.place = .spilled → t = ({ s.see seen with kennel := { s.kennel with jobs := if s.kennel.jobs.contains (q.toNat, .timeout) then s.kennel.jobs else s.kennel.jobs ++ [(q.toNat, .timeout)] } } : State).miss q.toNat)
            ∧ (y.ctx.timer ≠ 0 → y.resident = true → s.kennel.bad.contains q.toNat = false → s.poisoned = [] → seen = [] →
                (y.sends = false → t = s)
                ∧ (y.sends = true → s.held.any (fun h => h.1 == q.toNat) = true → t = s)
                ∧ (y.sends = true → s.held.any (fun h => h.1 == q.toNat) = false → y.ctx.retryLeft = 0 → t = s.failOldest q.toNat 0x30)
                ∧ (y.sends = true → s.held.any (fun h => h.1 == q.toNat) = false → y.ctx.retryLeft ≠ 0 → t = (s.modCtx q.toNat (fun c => { c with retryLeft := c.retryLeft - 1 })).resend q.toNat y.ctx.unaPsn)))
        ∧ TrafficOnly s t)
  ∧ (∀ (s : State) (q : BitVec 24) (seen : Seen),
      Completes (.rnrWaitExpiry q seen) s fun t =>
        (s.qp? q.toNat = none → t = s)
        ∧ (∀ y, s.qp? q.toNat = some y → (y.rnr = none → t = s)
            ∧ (y.rnr ≠ none → y.resident = true → t = ((s.see seen).checkCtx q.toNat).rnrOut q.toNat)
            ∧ (y.rnr ≠ none → y.place = .spilled → t = ({ s.see seen with kennel := { s.kennel with jobs := if s.kennel.jobs.contains (q.toNat, .rnr) then s.kennel.jobs else s.kennel.jobs ++ [(q.toNat, .rnr)] } } : State).miss q.toNat)
            ∧ (y.resident = true → s.kennel.bad.contains q.toNat = false → s.poisoned = [] → seen = [] → ∀ p, y.rnr = some (p) →
                (s.held.any (fun h => h.1 == q.toNat) = true → t = s.modQp q.toNat (fun x => { x with rnr := none }) ∧ (t.qp? q.toNat).map (·.rnr) = some none)
                ∧ (s.held.any (fun h => h.1 == q.toNat) = false → t = ((s.modQp q.toNat (fun x => { x with rnr := none })).resend q.toNat p).pump q.toNat)))
        ∧ TrafficOnly s t)
  ∧ (∀ (s : State) (q : BitVec 24),
      Completes (.ackDelayExpiry q) s fun t =>
        (s.qp? q.toNat = none → t = s)
        ∧ (∀ y, s.qp? q.toNat = some y → (y.ctx.ackPend = 0 ∨ y.ctx.state < 2 ∨ 5 < y.ctx.state → t = s)
            ∧ (y.ctx.ackPend ≠ 0 → 2 ≤ y.ctx.state → y.ctx.state ≤ 5 →
                (y.place = .spilled → t = ({ s with kennel := { s.kennel with jobs := if s.kennel.jobs.contains (q.toNat, .ackDelay) then s.kennel.jobs else s.kennel.jobs ++ [(q.toNat, .ackDelay)] } } : State).miss q.toNat)
                ∧ (y.resident = true → s.kennel.bad.contains q.toNat = false →
                    (y.early = true → t = s)
                    ∧ (y.early = false → t = (s.modCtx q.toNat (fun c => { c with ackPend := 0, ackT0 := 0 })).answer q.toNat { kind := .ack, psn := psnAdd y.ctx.epsn (2 ^ 24 - 1) }))))
        ∧ TrafficOnly s t)
  ∧ (∀ (s : State) (q : BitVec 24) (psn : Nat),
      Completes (.visibilityReached (.pair q) psn) s fun t =>
        (s.qp? q.toNat = none → t = s)
        ∧ (∀ y, s.qp? q.toNat = some y → (y.vis.find? (fun v => v.1 == psn) = none ∨ y.ctx.state = 7 → t = s)
            ∧ (∀ v, y.vis.find? (fun v => v.1 == psn) = some v → (v.2 = true → s.hostServes (s.owner (cidPart y.ctx.cid)) = false → t = s)
                ∧ (v.2 = false ∨ s.hostServes (s.owner (cidPart y.ctx.cid)) = true → y.ctx.state ≠ 7 → y.resident = true → s.kennel.bad.contains q.toNat = false →
                    t = (s.setQp q.toNat { y with vis := y.vis.filter (fun v => v.1 != psn) }).answer q.toNat { kind := .visAck, psn := psn })))
        ∧ TrafficOnly s t)
  ∧ (∀ (s : State) (n : BitVec 20) (pos : Nat),
      Completes (.visibilityReached (.queue n) pos) s fun t =>
        (s.queue? n.toNat = none → t = s)
        ∧ (∀ w, s.queue? n.toNat = some w →
            (w.live.any (fun l => l.pos == pos && l.back) = false ∨ s.hostServes (s.owner (cidPart w.cid)) = false → t = s)
            ∧ (w.live.any (fun l => l.pos == pos && l.back) = true → s.hostServes (s.owner (cidPart w.cid)) = true →
                t = (s.modLive n.toNat pos (fun l => { l with back := false })).flushQueue n.toNat w.live.length))
        ∧ TrafficOnly s t)
  ∧ (∀ (s : State) (q : BitVec 24),
      Completes (.pathHoldExpiry q) s fun t =>
        (s.held.at? q.toNat = none ∨ s.qp? q.toNat = none → t = s)
        ∧ (∀ f, s.held.at? q.toNat = some f → ∀ y, s.qp? q.toNat = some y →
            (y.ctx.state = 7 → t.held = s.held.del q.toNat ∧ t = { s with held := t.held })
            ∧ (y.ctx.state ≠ 7 → t = (((({ s with held := s.held.del q.toNat } : State).txLives y.ctx).foldl (fun (s : State) (l : Live) => if l.acked then s else s.endEntry y.ctx.sq l.pos (if f then 0x32 else 0x31)) { s with held := s.held.del q.toNat }).qpError q.toNat (if f then 0x32 else 0x31) y.ctx.unaPsn)))
        ∧ TrafficOnly s t)
  ∧ (∀ (s : State),
      Completes (.trigIncrement) s fun t =>
        (s.trigMayCount = [] → t = s) ∧ (s.trigMayCount ≠ [] → ∃ i ∈ s.trigMayCount, t = (s.trigCounts i).fresh))
  ∧ (∀ (s : State) (i : Nat) (x : TrigPend),
      s.trigMayCount = [i] ∧ s.trigPend[i]? = some x →
      Completes (.trigIncrement) s fun t =>
        t.trigPend = s.trigPend.eraseIdx i ∧ t.freeCtr = s.freeCtr + 1
        ∧ (s.trigOf x.part x.slot = true → (s.trig x.slot).gen = x.gen → t.trig x.slot = { s.trig x.slot with count := min ((s.trig x.slot).count + 1) 0xFFFFFF } ∧ t = { s with trigs := t.trigs, trigPend := t.trigPend, freeCtr := t.freeCtr })
        ∧ (s.trigOf x.part x.slot = false ∨ (s.trig x.slot).gen ≠ x.gen → t.get (Reg.TRIG_STALE.COUNT x.part) = min (s.get (Reg.TRIG_STALE.COUNT x.part) + 1) 4294967295
            ∧ FieldsBut [Reg.TRIG_STALE.COUNT x.part] s t ∧ t = { s with regs := t.regs, trigPend := t.trigPend, freeCtr := t.freeCtr }))
  ∧ (∀ (s u : State) (q : BitVec 24) (seen : Seen),
      u = ((s.see seen).fetchDone q.toNat).unmiss q.toNat →
      Completes (.retrieverFetchDone q seen) s fun t =>
        (s.fetchReady q.toNat = false → t = s)
        ∧ (s.fetchReady q.toNat = true →
            t = (u.kennel.jobs.filter (fun j => j.1 == q.toNat)).foldl (fun s j => s.runJob q.toNat j.2) { u with kennel := { u.kennel with jobs := u.kennel.jobs.filter (fun j => j.1 != q.toNat) } })
        ∧ (s.fetchReady q.toNat = true → s.kennel.jobs = [] → u.kennel.jobs = [] → t = u)
        ∧ TrafficOnly s t)

/-- The supply pins, cold, warm and compute resets, alarms and fatal errors act as 15, 17, 18 and 19 give. PWR_OK rising starts a device
with nothing but its fuses and the levels it keeps outside; falling clears all but those. A warm reset keeps straps, sticky area, fuses
and memories, clears all work and says so in RESET_EVT; a compute reset clears the work, shows STAGE 9 and READY 0 and enters P2, and is
absorbed where the sequence has not reached it. It ends by the start-up test, or holds for RESUME. An alarm of an enabled sensor erases
every key, ends the debug level and resets the compute domain; a fatal error does so with its cause; a disabled sensor shows its
condition alone. -/
def Obligations.ResetsAndSupply : Prop :=
  (∀ (s : State) (x : Straps) (b : Option Burned) (ok pg : Bool),
      Completes (.powerOn x b ok pg) s fun t =>
        (s.pins.pwrOk = true → t = s)
        ∧ (s.pins.pwrOk = false → t.pins.pwrOk = true ∧ t.pending = s.pending ∧ t.queues = [] ∧ t.qps = [] ∧ t.cores = [] ∧ t.sched = {} ∧ t.ddr = [] ∧ t.hostMem0 = s.hostMem0 ∧ t.hostMem1 = s.hostMem1 ∧ t.out = s.out ∧ t.freeCtr = s.freeCtr
            ∧ (b = none → t.sec.fuses = s.sec.fuses) ∧ (∀ f, b = some f → t.sec.fuses = s.sec.fuses.burn f))
        ∧ (s.pins.pwrOk = false → b = none → s.sec.fuses.dum = [] → t.get Reg.GLB_STRAP.HOST = x.host.toNat ∧ t.get Reg.GLB_STRAP.TIME = x.time.toNat ∧ t.get Reg.GLB_STRAP.COORD = x.coord.toNat ∧ t.get Reg.TIME_CTL.SRC = x.time.toNat
            ∧ t.get Reg.SEC_LC.STATE = s.sec.fuses.lc % 8
            ∧ (pg = false → ok = true → t.get Reg.GLB_STS.STAGE = 1 ∧ t.pins.mainEn = true)
            ∧ (ok = false → t.get Reg.GLB_STS.STAGE = 11 ∧ t.get Reg.GLB_STS.BOOT_ERR = 5)
            ∧ (pg = true → ok = true → t.get Reg.GLB_STS.STAGE = 2)
            ∧ (pg = true → ok = true → s.sec.fuses.lc = 4 → t.get Reg.TALLY_STS.PSTATE = 3 ∧ t.pins.mainEn = false)))
  ∧ (∀ (s : State),
      Completes (.powerLoss) s fun t =>
        t = ({ pending := s.pending, sec := { fuses := s.sec.fuses }, pins := { capLow := s.pins.capLow }, parts := { saves := s.parts.saves }, hostMem0 := s.hostMem0, hostMem1 := s.hostMem1, poisoned := s.poisoned, out := s.out, freeCtr := s.freeCtr } : State))
  ∧ (∀ (s : State),
      Completes (.mainPgTimeout) s fun t =>
        ((s.pins.pwrOk = false ∨ s.pins.mainEn = false ∨ s.pins.mainPg = true ∨ s.get Reg.GLB_STS.STAGE ≠ 1) → t = s)
        ∧ (s.pins.pwrOk = true → s.pins.mainEn = true → s.pins.mainPg = false → s.get Reg.GLB_STS.STAGE = 1 →
            t.get Reg.GLB_STS.STAGE = 11 ∧ t.get Reg.GLB_STS.BOOT_ERR = 5 ∧ t.get Reg.TELEM_FAULT.BOOT = 1 ∧ t = { s with regs := t.regs, pins := t.pins }))
  ∧ (∀ (s : State),
      Completes (.mainPgFall) s fun t =>
        ((s.pins.pwrOk = false ∨ s.pins.mainEn = false ∨ s.pins.mainPg = false) → t = s)
        ∧ (s.pins.pwrOk = true → s.pins.mainEn = true → s.pins.mainPg = true → t.pins.mainPg = false ∧ t = ({ s with pins := { s.pins with mainPg := false } } : State).alarm 1))
  ∧ (∀ (s : State) (h : HostId) (ok : Bool),
      Takes s h Reg.GLB_RESET.off →
      Completes (.warmReset h ok) s fun t =>
        (s.pins.pwrOk = false ∨ s.get Reg.GLB_STS.STAGE < 2 → t = s)
        ∧ (s.pins.pwrOk = true → 2 ≤ s.get Reg.GLB_STS.STAGE → t = s.warmReset ok
            ∧ t.get Reg.GLB_STS.RESET_EVT = 1 ∧ t.time.cycles = s.time.cycles ∧ t.queues = [] ∧ t.qps = [] ∧ t.cores = [] ∧ t.sched = {} ∧ t.scriv.sticky = s.scriv.sticky ∧ t.sec.fuses = s.sec.fuses ∧ t.ddr = s.ddr ∧ t.out = s.out
            ∧ t.get Reg.TELEM_FAULT.ALARM = s.get Reg.TELEM_FAULT.ALARM
            ∧ (ok = true → t.get Reg.GLB_STS.STAGE = 2 ∧ t.boot.warm = false) ∧ (ok = false → t.get Reg.GLB_STS.STAGE = 11 ∧ t.get Reg.GLB_STS.BOOT_ERR = 5)))
  ∧ (∀ (s : State) (h : HostId),
      Takes s h Reg.GLB_RESET.off →
      Completes (.computeReset h) s fun t =>
        (s.computeAbsorbed = true → t = s)
        ∧ (s.computeAbsorbed = false → t = s.computeReset false ∧ t.get Reg.GLB_STS.STAGE = 9 ∧ t.get Reg.GLB_STS.READY = 0 ∧ t.get Reg.GLB_STS.RESET_EVT = 1 ∧ t.get Reg.TALLY_STS.PSTATE = 2
            ∧ t.boot.clearing = true ∧ t.boot.needResume = s.boot.needResume ∧ t.queues = [] ∧ t.qps = [] ∧ t.held = [] ∧ t.tiles = [] ∧ t.colls = [] ∧ t.rxq = [] ∧ t.spares = []))
  ∧ (∀ (s : State) (x : Tests),
      Completes (.computeResetCleared x) s fun t =>
        (s.boot.clearing = false → t = s)
        ∧ (s.boot.clearing = true → s.boot.needResume = true → t.get Reg.GLB_STS.STAGE = 10 ∧ t.boot = { s.boot with clearing := false } ∧ FieldsBut [Reg.GLB_STS.STAGE] s t ∧ t = { s with regs := t.regs, boot := t.boot })
        ∧ (s.boot.clearing = true → s.boot.needResume = false → t = ({ s with boot := { s.boot with clearing := false } } : State).testAndLoad x false))
  ∧ (∀ (s : State) (h : HostId) (x : Tests),
      Takes s h Reg.GLB_RESET.off →
      Completes (.computeResume h x) s fun t =>
        (s.get Reg.GLB_STS.STAGE ≠ 10 ∨ s.get Reg.SEC_ALARM_STS.PRESENT ≠ 0 → t = s)
        ∧ (s.get Reg.GLB_STS.STAGE = 10 → s.get Reg.SEC_ALARM_STS.PRESENT = 0 → t = s.testAndLoad x false))
  ∧ (∀ (s : State) (u : UnitId),
      Completes (.fatalError u) s fun t =>
        (s.pins.pwrOk = false → t = s)
        ∧ (s.pins.pwrOk = true → t = ((s.event Ev.fatal (unitBytes u)).cause Reg.TELEM_FAULT.FATAL).computeReset true ∧ t.get Reg.TELEM_FAULT.FATAL = 1
            ∧ (s.computeAbsorbed = false → t.get Reg.GLB_STS.STAGE = 9 ∧ t.boot.needResume = true ∧ t.pins.fault = false)))
  ∧ (∀ (s : State) (x : BitVec 5),
      Completes (.alarm x) s fun t =>
        (s.pins.pwrOk = false → t = s)
        ∧ (s.pins.pwrOk = true → x.toNat &&& s.get Reg.SEC_ALARM_EN.EN = 0 →
            t.get Reg.SEC_ALARM_STS.PRESENT = s.get Reg.SEC_ALARM_STS.PRESENT ||| x.toNat ∧ FieldsBut [Reg.SEC_ALARM_STS.PRESENT] s t ∧ t = { s with regs := t.regs })
        ∧ (s.pins.pwrOk = true → x.toNat &&& s.get Reg.SEC_ALARM_EN.EN ≠ 0 →
            t.get Reg.SEC_DBG.LEVEL = 0 ∧ t.get Reg.TELEM_FAULT.ALARM = 1 ∧ t.sec.nonce = none ∧ t.sec.raise = none
            ∧ (∀ j : Nat, t.key? j = none)
            ∧ t.get Reg.SEC_ALARM_STS.LATCHED = s.get Reg.SEC_ALARM_STS.LATCHED ||| (x.toNat &&& s.get Reg.SEC_ALARM_EN.EN)
            ∧ (s.computeAbsorbed = false → t.get Reg.GLB_STS.STAGE = 9 ∧ t.boot.needResume = true)))
  ∧ (∀ (s : State) (b : Fin 5),
      Completes (.alarmConditionEnd b) s fun t =>
        t.get (Reg.SEC_ALARM_STS.PRESENT.bit b) = 0 ∧ FieldsBut [Reg.SEC_ALARM_STS.PRESENT.bit b] s t ∧ t = { s with regs := t.regs })
  ∧ (∀ (s : State) (ok : Bool),
      Completes (.htcWatchdog ok) s fun t =>
        (s.pins.pwrOk = false → t = s)
        ∧ (s.pins.pwrOk = true → t = (((s.event Ev.htcWatchdog).cause Reg.TELEM_FAULT.HTC_WDOG).count (Reg.TELEM_FIT_FAIL.COUNT 8)).warmReset ok ∧ t.get Reg.TELEM_FAULT.HTC_WDOG = 1
            ∧ (2 ≤ s.get Reg.GLB_STS.STAGE → t.get Reg.GLB_STS.RESET_EVT = 1 ∧ t.queues = [] ∧ t.qps = [])))
  ∧ (∀ (s : State),
      Completes (.aliveNToggle) s fun t =>
        (s.pins.pwrOk = false ∨ s.get Reg.GLB_STS.STAGE = 0 → t = s)
        ∧ (s.pins.pwrOk = true → s.get Reg.GLB_STS.STAGE ≠ 0 → t = { s with pins := { s.pins with alive := !s.pins.alive } }))
  ∧ (∀ (s : State),
      Completes (.ucieLaneRepair) s fun t =>
        (s.pins.pwrOk = false → t = s)
        ∧ (s.pins.pwrOk = true → t.get (Reg.TELEM_FIT_FAIL.COUNT 5) = min (s.get (Reg.TELEM_FIT_FAIL.COUNT 5) + 1) 4294967295 ∧ FieldsBut [Reg.TELEM_FIT_FAIL.COUNT 5] s t ∧ t = { s with regs := t.regs }))

/-- Energy windows, the budget, gating, the emergency cap, STANDBY and WAKE act as R427 to R442 give. A window that has ended shows its
energy and number, and outside P3 the planner acts on it. A budget out of its range is refused with BUDGET_REJ. A gated cluster that is
ungated is no longer gated, and P1 ends with the last one. PWR_CAP_N low sets CAP_LOW and counts, but in P3 and OFF; after the grace the
cap suspends the active schedules and drops the pending ones; its release clears both bits. STANDBY is refused with BAD_STATE in a
sequence, under an alarm or with a partition; else it ends in P3 without keys, nonces or the compute supply. WAKE acts in P3 alone, and
not in SCRAP. -/
def Obligations.PowerAndEnergy : Prop :=
  (∀ (s : State) (e : List Nat),
      Completes (.tallyWindowEnd e) s fun t =>
        (s.pins.pwrOk = false ∨ s.windowsEnded = 0 → t = s)
        ∧ (s.pins.pwrOk = true → s.windowsEnded ≠ 0 →
            t.get Reg.TALLY_WINDOW_LO.WINDOW = (s.windowsEnded - 1) % 2 ^ 32 ∧ (∀ j : Nat, j < 15 → t.get (Reg.TALLY_DOM_LAST.UJ j) = min (e.getD j 0) 0xFFFFFFFF))
        ∧ (s.pins.pwrOk = true → s.windowsEnded ≠ 0 → s.get Reg.TALLY_STS.PSTATE = 3 → t = s.energyShown (s.windowsEnded - 1) e ∧ t = { s with regs := t.regs })
        ∧ (s.pins.pwrOk = true → s.windowsEnded ≠ 0 → s.get Reg.TALLY_STS.PSTATE ≠ 3 → t = (s.energyShown (s.windowsEnded - 1) e).plan)
        ∧ t = { s with regs := t.regs, scriv := t.scriv, host0 := t.host0, host1 := t.host1, ports := t.ports, tally := t.tally, hostMem0 := t.hostMem0, hostMem1 := t.hostMem1, out := t.out })
  ∧ (∀ (s : State) (h : HostId) (v : Word),
      Takes s h Reg.TALLY_BUDGET.off →
      Completes (.tallyBudgetWrite h v) s fun t =>
        (wordField v 0 10 < 300 ∨ s.get Reg.TALLY_ENV.W < wordField v 0 10 ∨ wordField v 0 10 < s.get Reg.TALLY_MIN.W →
              t.get Reg.TALLY_STS.BUDGET_REJ = 1 ∧ FieldsBut [Reg.TALLY_STS.BUDGET_REJ] s t ∧ t = { s with regs := t.regs })
        ∧ (300 ≤ wordField v 0 10 → wordField v 0 10 ≤ s.get Reg.TALLY_ENV.W → s.get Reg.TALLY_MIN.W ≤ wordField v 0 10 →
              t.get Reg.TALLY_BUDGET.W = wordField v 0 10 ∧ FieldsBut [Reg.TALLY_BUDGET.W] s t ∧ t = { s with regs := t.regs }))
  ∧ (∀ (s : State) (k : ClusterId),
      Completes (.clusterUngated k) s fun t =>
        (s.gated k = false → t = s)
        ∧ (s.gated k = true → t.gated k = false ∧ (∀ j : Nat, j < 64 → j ≠ k → t.gated j = s.gated j) ∧ (s.get Reg.TALLY_STS.PSTATE ≤ 1 → t.get Reg.TALLY_STS.PSTATE = t.p01) ∧ t = { s with regs := t.regs }))
  ∧ (∀ (s : State),
      Completes (.powerCap) s fun t =>
        (s.pins.capLow = true → t = s)
        ∧ (s.pins.capLow = false → t.pins = { s.pins with capLow := true })
        ∧ (s.pins.capLow = false → (s.pins.pwrOk = false ∨ s.get Reg.TALLY_STS.PSTATE = 3) → t = { s with pins := t.pins })
        ∧ (s.pins.capLow = false → s.pins.pwrOk = true → s.get Reg.TALLY_STS.PSTATE ≠ 3 →
            t.get Reg.TALLY_STS.CAP_LOW = 1 ∧ t.get Reg.TALLY_CAP_CNT.COUNT = min (s.get Reg.TALLY_CAP_CNT.COUNT + 1) (2 ^ Reg.TALLY_CAP_CNT.COUNT.w - 1) ∧ ReportsOnly { s with pins := t.pins } t))
  ∧ (∀ (s u : State),
      u = ((s.sched.act.map (·.1)).filter (fun p => s.get (Reg.SCHED_STATE.ACT p) == 1)).foldl (fun (s : State) p => ((s.suspend p false).showSched p).partEvent Ev.powerCapSuspend p) (s.put Reg.TALLY_STS.CAP_SUSP 1) →
      Completes (.capGraceExpiry) s fun t =>
        (s.get Reg.TALLY_STS.CAP_LOW = 0 ∨ s.get Reg.TALLY_STS.CAP_SUSP = 1 ∨ 2 ≤ s.get Reg.TALLY_STS.PSTATE → t = s)
        ∧ (s.get Reg.TALLY_STS.CAP_LOW = 1 → s.get Reg.TALLY_STS.CAP_SUSP = 0 → s.get Reg.TALLY_STS.PSTATE < 2 → t = (u.sched.pend.map (·.1)).foldl State.dropPending u)
        ∧ (s.get Reg.TALLY_STS.CAP_LOW = 1 → s.get Reg.TALLY_STS.CAP_SUSP = 0 → s.get Reg.TALLY_STS.PSTATE < 2 → s.sched.act = [] → s.sched.pend = [] →
            t.get Reg.TALLY_STS.CAP_SUSP = 1 ∧ FieldsBut [Reg.TALLY_STS.CAP_SUSP] s t ∧ t = { s with regs := t.regs }))
  ∧ (∀ (s : State),
      Completes (.powerCapRelease) s fun t =>
        t.pins = { s.pins with capLow := false } ∧ t.get Reg.TALLY_STS.CAP_LOW = 0 ∧ t.get Reg.TALLY_STS.CAP_SUSP = 0
        ∧ FieldsBut [Reg.TALLY_STS.CAP_LOW, Reg.TALLY_STS.CAP_SUSP] s t ∧ t = { s with regs := t.regs, pins := t.pins })
  ∧ (∀ (s : State) (h : HostId),
      Takes s h Reg.TALLY_PS_CTL.off →
      Completes (.standby h) s fun t =>
        (s.sequenceRuns = true ∨ s.get Reg.SEC_ALARM_STS.PRESENT ≠ 0 ∨ (List.range 64).any (fun p => s.pstate p != 0) = true →
              t.get Reg.TALLY_PS_STS.DONE = 1 ∧ t.get Reg.TALLY_PS_STS.RESULT = 1 ∧ FieldsBut [Reg.TALLY_PS_STS.DONE, Reg.TALLY_PS_STS.RESULT] s t ∧ t = { s with regs := t.regs })
        ∧ (s.sequenceRuns = false → s.get Reg.SEC_ALARM_STS.PRESENT = 0 → (List.range 64).any (fun p => s.pstate p != 0) = false →
              t.get Reg.TALLY_STS.PSTATE = 3 ∧ t.get Reg.TALLY_PS_STS.DONE = 1 ∧ t.get Reg.TALLY_PS_STS.RESULT = 0 ∧ t.get Reg.TALLY_PS_STS.BUSY = 0)
        ∧ (s.sequenceRuns = false → s.get Reg.SEC_ALARM_STS.PRESENT = 0 → (List.range 64).any (fun p => s.pstate p != 0) = false → s.get Reg.TALLY_STS.PSTATE ≠ 3 →
              t.pins.mainEn = false ∧ t.pins.mainPg = false ∧ t.sec.nonce = none ∧ t.sec.raise = none ∧ (∀ j : Nat, t.key? j = none) ∧ t.get Reg.SEC_DBG.LEVEL ≠ 2))
  ∧ (∀ (s u : State) (h : HostId) (seen : Seen) (x : Training) (y : Tests),
      Takes s h Reg.TALLY_PS_CTL.off ∧ u = s.see seen →
      Completes (.wake h seen x y) s fun t =>
        (s.get Reg.TALLY_STS.PSTATE ≠ 3 → t = u)
        ∧ (s.get Reg.TALLY_STS.PSTATE = 3 → s.get Reg.SEC_LC.STATE = 4 → t.get Reg.TALLY_PS_STS.DONE = 1 ∧ t.get Reg.TALLY_PS_STS.RESULT = 1 ∧ FieldsBut [Reg.TALLY_PS_STS.DONE, Reg.TALLY_PS_STS.RESULT] s t ∧ t = { u with regs := t.regs })
        ∧ (s.get Reg.TALLY_STS.PSTATE = 3 → s.get Reg.SEC_LC.STATE ≠ 4 → t = u.wake x y ∧ t.pins.mainEn = true ∧ t.pins.mainPg = true))

/-- BAR0 reads and writes act register by register as Table 0.4 and R6 to R10 give. An access of a wrong width or alignment is ignored
and logged where it arrives, and a read of it returns ones. A write that arrives where no register stands changes nothing; one that the
block takes does what the register does, its high word first; a plain register takes the fields in their range. A read that arrives
gives the register's value and leaves its counters 0; the pending-bit array and both words of a pair are read likewise; one that does
not arrive returns ones. -/
def Obligations.RegisterAccess : Prop :=
  (∀ (s : State) (h : HostId) (off : BitVec 24) (v : BitVec 64) (wide : Bool) (x : WriteSide),
      Completes (.registerWrite h off v wide x) s fun t =>
        (accessOk off.toNat (if wide then 8 else 4) = false → s.funcOpen h = false → t = s)
        ∧ (accessOk off.toNat (if wide then 8 else 4) = false → s.funcOpen h = true → s.bar0Reach h off.toNat = true → s.boot.warm = false → t = s.writeIgnored h off.toNat)
        ∧ (accessOk off.toNat (if wide then 8 else 4) = false → s.funcOpen h = true → s.bar0Reach h off.toNat = false → t = s)
        ∧ (accessOk off.toNat (if wide then 8 else 4) = true → wide = true → t = (s.writeWord h (off.toNat + 4) (v.extractLsb' 32 32) x).writeWord h off.toNat (v.setWidth 32) x)
        ∧ (accessOk off.toNat 4 = true → wide = false → s.bar0Reach h off.toNat = false ∨ s.boot.warm = true → (regAt? off.toNat).map (·.1.base) ≠ some (Reg.PART_CTL.off 0) → t = s)
        ∧ (accessOk off.toNat 4 = true → wide = false → regAt? off.toNat = none → s.preReady = false → t = s))
  ∧ (∀ (s : State) (h : HostId) (off : BitVec 24) (v : BitVec 64) (x : WriteSide) (r : RegRow) (idx : List Nat),
      off.toNat % 4 = 0 ∧ regAt? off.toNat = some (r, idx) ∧ r.base ≠ Reg.PART_CTL.off 0 ∧ s.bar0Reach h off.toNat = true ∧ s.boot.warm = false →
      Completes (.registerWrite h off v false x) s fun t =>
        (s.preReady = true → preReadyOpen off.toNat = false → t = s.writeIgnored h off.toNat)
        ∧ (s.preReady = false ∨ preReadyOpen off.toNat = true → s.writerOk r idx h = false → t = s.writeIgnored h off.toNat)
        ∧ (s.preReady = false ∨ preReadyOpen off.toNat = true → s.writerOk r idx h = true → t = writeEff h r idx off.toNat (v.setWidth 32) x s))
  ∧ (∀ (s : State) (h : HostId) (v : Word) (x : WriteSide),
      Takes s h Reg.TALLY_PLAN.off →
      Completes (.registerWrite h (BitVec.ofNat 24 Reg.TALLY_PLAN.off) (v.setWidth 64) false x) s fun t =>
        t.get Reg.TALLY_PLAN.LANES_EN = wordField v 0 1 ∧ t.get Reg.TALLY_PLAN.GATE_EN = wordField v 1 1 ∧ t.get Reg.TALLY_PLAN.THROTTLE_EN = wordField v 2 1
        ∧ RegsBut [Reg.TALLY_PLAN.off] s t ∧ t = { s with regs := t.regs }
        ∧ (wordField v 8 8 ≠ 0 → t.get Reg.TALLY_PLAN.IDLE_MS = wordField v 8 8) ∧ (wordField v 8 8 = 0 → t.get Reg.TALLY_PLAN.IDLE_MS = s.get Reg.TALLY_PLAN.IDLE_MS)
        ∧ (wordField v 16 8 ≠ 0 → t.get Reg.TALLY_PLAN.MARGIN_W = wordField v 16 8) ∧ (wordField v 16 8 = 0 → t.get Reg.TALLY_PLAN.MARGIN_W = s.get Reg.TALLY_PLAN.MARGIN_W))
  ∧ (∀ (s : State) (h : HostId) (off : BitVec 24) (wide : Bool),
      Completes (.rcCounterRead h off wide) s fun t =>
        (s.funcOpen h = false → t = s)
        ∧ (s.funcOpen h = true → accessOk off.toNat (if wide then 8 else 4) = true → (s.bar0Reach h off.toNat = false ∨ (s.boot.warm = true ∧ warmReadable off.toNat = false)) →
            t.out = s.out ++ [.readData h 0 off.toNat (List.replicate (if wide then 8 else 4) 0xFF)] ∧ t = { s with out := t.out })
        ∧ (accessOk off.toNat 4 = true → wide = false → s.bar0Reach h off.toNat = true → s.boot.warm = false →
            (pbaAt? off.toNat = none → t = (s.regRead off.toNat).emit (.readData h 0 off.toNat (leBytes 4 (s.regValue off.toNat).toNat)))
            ∧ (∀ k i, pbaAt? off.toNat = some (k, i) → t = s.emit (.readData h 0 off.toNat (leBytes 4 (s.pbaWord k i).toNat))))
        ∧ (accessOk off.toNat 8 = true → wide = true → s.bar0Reach h off.toNat = true → s.boot.warm = false → pbaAt? off.toNat = none → pbaAt? (off.toNat + 4) = none →
            t = ((s.regRead off.toNat).regRead (off.toNat + 4)).emit (.readData h 0 off.toNat (leBytes 4 (s.regValue off.toNat).toNat ++ leBytes 4 ((s.regRead off.toNat).regValue (off.toNat + 4)).toNat)))
        ∧ t = { s with regs := t.regs, time := t.time, scriv := t.scriv, host0 := t.host0, host1 := t.host1, tally := t.tally, hostMem0 := t.hostMem0, hostMem1 := t.hostMem1, out := t.out, freeCtr := t.freeCtr })
  ∧ (∀ (s : State) (h k : HostId),
      s.bar0Reach h (Reg.HOSTIF_DB_REJ.off k) = true ∧ s.boot.warm = false →
      Completes (.rcCounterRead h (BitVec.ofNat 24 (Reg.HOSTIF_DB_REJ.off k)) false) s fun t =>
        t.get (Reg.HOSTIF_DB_REJ.COUNT k) = 0 ∧ t.out = s.out ++ [.readData h 0 (Reg.HOSTIF_DB_REJ.off k) (leBytes 4 (s.get (Reg.HOSTIF_DB_REJ.COUNT k)))]
        ∧ FieldsBut [Reg.HOSTIF_DB_REJ.COUNT k] s t ∧ t = { s with regs := t.regs, out := t.out })
  ∧ (∀ (s : State) (h : HostId) (write : Bool) (off : BitVec 24) (n : Nat),
      Completes (.bar0BadAccess h write off n) s fun t =>
        (accessOk off.toNat n = true ∨ s.funcOpen h = false → t = s)
        ∧ (accessOk off.toNat n = false → s.funcOpen h = true → write = true → (s.bar0Reach h off.toNat = true → s.boot.warm = false → t = s.writeIgnored h off.toNat) ∧ (s.bar0Reach h off.toNat = false ∨ s.boot.warm = true → t = s))
        ∧ (accessOk off.toNat n = false → s.funcOpen h = true → write = false → (s.bar0Reach h off.toNat = true → s.boot.warm = false → t = (s.writeIgnored h off.toNat).emit (.readData h 0 off.toNat (List.replicate n 0xFF)))
            ∧ (s.bar0Reach h off.toNat = false ∨ s.boot.warm = true → t.out = s.out ++ [.readData h 0 off.toNat (List.replicate n 0xFF)] ∧ t = { s with out := t.out }))
        ∧ ReportsOnly s t)

/-- Exact mode, GLB_DET_DIGEST, Tinker, DDR5 channels, patrol scrub, regions and system ranges act as 13 and 14 give. GLB_CTL takes
EXACT only while no schedule is held or submitted; the digest of R368 is valid again once recomputed. Tinker tests a block where its
array has time to spare, a reported one first, counts words corrected and lost, replaces a failing row while its macro has a spare one
and retires the block else; a full pass is counted. A channel counts its replays and is fenced where a third one fails. The scrubber
corrects, marks a device at its sixteenth hit, records a bad line, and goes on. Refresh changes nothing. A region entry takes its
owner's words, VALID starts the zero fill, which ends with zeros; the spill and image ranges take writes only while no segment is
spilled, or only in WAIT_MANIFEST. -/
def Obligations.MemoryMaintenance : Prop :=
  (∀ (s : State) (h : HostId) (v : Word),
      Takes s h Reg.GLB_CTL.off →
      Completes (.exactWrite h v) s fun t =>
        (s.schedBusy = true ∨ s.sched.submits ≠ [] → t.get Reg.GLB_DET_STS.EXACT_REJ = 1 ∧ FieldsBut [Reg.GLB_DET_STS.EXACT_REJ] s t ∧ t = { s with regs := t.regs })
        ∧ (s.schedBusy = false → s.sched.submits = [] → t.get Reg.GLB_CTL.EXACT = wordField v 0 1 ∧ t.get Reg.GLB_DET_STS.DIGEST_VALID = 0 ∧ t.boot = { s.boot with detPending := true }
            ∧ FieldsBut [Reg.GLB_CTL.EXACT, Reg.GLB_DET_STS.DIGEST_VALID] s t ∧ t = { s with regs := t.regs, boot := t.boot }))
  ∧ (∀ (s : State),
      Completes (.detDigestDone) s fun t =>
        (s.boot.detPending = false → t = s)
        ∧ (s.boot.detPending = true → t.digestAt (Reg.GLB_DET_DIGEST.off 0) = sha3 s.detBytes ∧ t.digestAt (Reg.SEC_DMR.off 5 0) = sha3 (s.digestAt (Reg.SEC_DMR.off 5 0) ++ sha3 s.detBytes)
            ∧ t.get Reg.GLB_DET_STS.DIGEST_VALID = 1 ∧ t.get Reg.GLB_DET_STS.EXACT_REJ = s.get Reg.GLB_DET_STS.EXACT_REJ ∧ t.boot = { s.boot with detPending := false }
            ∧ RegsBut (Reg.GLB_DET_STS.off :: (List.range 8).flatMap (fun i => [Reg.GLB_DET_DIGEST.off 0 + 4 * i, Reg.SEC_DMR.off 5 0 + 4 * i])) s t ∧ t = { s with regs := t.regs, boot := t.boot }))
  ∧ (∀ (s u : State) (e : Fin 68) (b : Fin 12288) (x y : Fin 513) (f : Bool) (d : Nat),
      d = (tinkerArray e b).1 →
      u = ((s.count (Reg.MEM_SRAM_CE.COUNT d) x).count (Reg.MEM_SRAM_UE.COUNT d) y).setTinker e { s.tinker e with done := (s.tinker e).done + 1, hold := none, first := (s.tinker e).first.filter (· != b.val) } →
      Completes (.tinkerBlockTest e b x y f) s fun t =>
        (s.tinkerRuns e = false ∨ tinkerBlocks e ≤ b ∨ s.tinkerTurn e b = false ∨ s.tinkerSlot e b = false → t = s)
        ∧ (s.tinkerRuns e = true → b < tinkerBlocks e → s.tinkerTurn e b = true → s.tinkerSlot e b = true → f = false → (s.tinker e).done + 1 < tinkerBlocks e →
            t.get (Reg.MEM_SRAM_CE.COUNT d) = min (s.get (Reg.MEM_SRAM_CE.COUNT d) + x) 0xFFFFFFFF ∧ t.get (Reg.MEM_SRAM_UE.COUNT d) = min (s.get (Reg.MEM_SRAM_UE.COUNT d) + y) 0xFFFFFFFF
            ∧ t.tinker e = { s.tinker e with done := (s.tinker e).done + 1, hold := none, first := (s.tinker e).first.filter (· != b.val) } ∧ (∀ j : Nat, j ≠ e → t.tinker j = s.tinker j)
            ∧ FieldsBut [Reg.MEM_SRAM_CE.COUNT d, Reg.MEM_SRAM_UE.COUNT d] s t ∧ t = { s with regs := t.regs, memsys := { s.memsys with tinker := t.memsys.tinker } })
        ∧ (s.tinkerRuns e = true → b < tinkerBlocks e → s.tinkerTurn e b = true → s.tinkerSlot e b = true → f = true → (s.tinker e).done + 1 < tinkerBlocks e → s.memsys.rows.getD (1024 * e + b / 16) 0 < 4 →
            t.get Reg.MEM_TINKER_REPAIR.COUNT = min (s.get Reg.MEM_TINKER_REPAIR.COUNT + 1) 0xFFFFFFFF ∧ t.get (Reg.TELEM_FIT_FAIL.COUNT 2) = min (s.get (Reg.TELEM_FIT_FAIL.COUNT 2) + 1) 0xFFFFFFFF
            ∧ t.memsys.rows.getD (1024 * e + b / 16) 0 = s.memsys.rows.getD (1024 * e + b / 16) 0 + 1 ∧ t = { u with regs := t.regs, memsys := { u.memsys with rows := t.memsys.rows } })
        ∧ (s.tinkerRuns e = true → b < tinkerBlocks e → s.tinkerTurn e b = true → s.tinkerSlot e b = true → f = true → (s.tinker e).done + 1 < tinkerBlocks e → 4 ≤ s.memsys.rows.getD (1024 * e + b / 16) 0 →
            (d = 0 → t = (u.count Reg.MEM_TINKER_RETIRE.COUNT).takeOut 2 [⟨.core, e, b / 48⟩])
            ∧ (d = 1 → t = (u.count Reg.MEM_TINKER_RETIRE.COUNT).takeOut 2 [⟨.kennel, e, (b - 3264) / 32⟩])
            ∧ (d = 2 → t = (u.count Reg.MEM_TINKER_RETIRE.COUNT).takeOut 2 [⟨.reduce, e, 0⟩])
            ∧ (d = 3 → t.tinker e = { u.tinker e with hold := some (b - 4032) } ∧ t.wins.retired = s.wins.retired ++ blockWindows e (b - 4032)
                ∧ t.get Reg.MEM_TINKER_RETIRE.COUNT = min (s.get Reg.MEM_TINKER_RETIRE.COUNT + 1) 0xFFFFFFFF)
            ∧ (d = 4 → t.memsys.lost.getD (e - 64) 0 = s.memsys.lost.getD (e - 64) 0 + 16 ∧ t.get Reg.MEM_TINKER_RETIRE.COUNT = min (s.get Reg.MEM_TINKER_RETIRE.COUNT + 1) 0xFFFFFFFF))
        ∧ (s.tinkerRuns e = true → b < tinkerBlocks e → s.tinkerTurn e b = true → s.tinkerSlot e b = true → f = false → tinkerBlocks e ≤ (s.tinker e).done + 1 → t = u.tinkerPass e
            ∧ t.tinker e = { s.tinker e with done := 0, passes := (s.tinker e).passes + 1, start := s.time.cycles, hold := none, first := (s.tinker e).first.filter (· != b.val) }
            ∧ t.get Reg.MEM_TINKER_LATE.COUNT = (if s.get Reg.MEM_TINKER_CTL.HOURS * 3600 * 2400000000 < s.time.cycles - max (s.tinker e).start s.memsys.since then min (s.get Reg.MEM_TINKER_LATE.COUNT + 1) 0xFFFFFFFF else s.get Reg.MEM_TINKER_LATE.COUNT)))
  ∧ (∀ (s : State) (c : Fin 16) (r : Fin 4) (f : Bool),
      Completes (.ddrAlert c r f) s fun t =>
        (s.get (Reg.MEM_CH_STS.STATE c) ≠ 2 → t = s)
        ∧ (s.get (Reg.MEM_CH_STS.STATE c) = 2 → f = false → t.get (Reg.MEM_CH_RETRY.COUNT c) = min (s.get (Reg.MEM_CH_RETRY.COUNT c) + r) 0xFFFFFFFF
            ∧ FieldsBut [Reg.MEM_CH_RETRY.COUNT c] s t ∧ t = { s with regs := t.regs })
        ∧ (s.get (Reg.MEM_CH_STS.STATE c) = 2 → f = true → t = (s.count (Reg.MEM_CH_RETRY.COUNT c) 3).takeOut 5 [⟨.channel, c / 8, c⟩]))
  ∧ (∀ (s : State) (c : Fin 16) (f : ScrubFind) (e : Word) (x : ScrubCh),
      x = s.memsys.scrub.getD c {} →
      Completes (.scrubLine c f e) s fun t =>
        (s.chanUp c = false ∨ s.get Reg.MEM_SCRUB_CTL.EN = 0 ∨ s.get Reg.TALLY_STS.PSTATE = 3 ∨ s.background (0x7000 + c) = false → t = s)
        ∧ (s.chanUp c = true → s.get Reg.MEM_SCRUB_CTL.EN = 1 → s.get Reg.TALLY_STS.PSTATE ≠ 3 → s.background (0x7000 + c) = true →
            (∀ a, s.lineAddr? c x.pos = some a → a / 64 ∈ s.ddrBad ∨ f = .bad → t = ({ s with ddrBad := addTo s.ddrBad (a / 64) }.reportUe (a / 64) true).scrubNext c e.toNat ∧ a / 64 ∈ t.ddrBad)
            ∧ (s.lineAddr? c x.pos = none → f = .bad → t = s.scrubNext c e.toNat)
            ∧ ((s.lineAddr? c x.pos).all (fun a => !s.ddrBad.contains (a / 64)) = true →
                (f = .clean → x.pos + 1 < s.chanLines c → t.get (Reg.MEM_CH_SCRUB.PERCENT c) = (x.pos + 1) * 100 / s.chanLines c ∧ t.memsys.scrub.getD c {} = { x with pos := x.pos + 1 }
                  ∧ FieldsBut [Reg.MEM_CH_SCRUB.PERCENT c] s t ∧ t = { s with regs := t.regs, memsys := { s.memsys with scrub := t.memsys.scrub } })
                ∧ (f = .clean → s.chanLines c ≤ x.pos + 1 → t.get (Reg.MEM_CH_SCRUB.PERCENT c) = 0 ∧ t.get (Reg.MEM_CH_SCRUB.PASSES c) = min (s.get (Reg.MEM_CH_SCRUB.PASSES c) + 1) 0xFFFF ∧ t.get (Reg.MEM_CH_ECS.COUNT c) = e.toNat
                  ∧ t.memsys.scrub.getD c {} = {} ∧ FieldsBut [Reg.MEM_CH_SCRUB.PERCENT c, Reg.MEM_CH_SCRUB.PASSES c, Reg.MEM_CH_ECS.COUNT c] s t ∧ t = { s with regs := t.regs, memsys := { s.memsys with scrub := t.memsys.scrub } }))))
  ∧ (∀ (s : State) (c : Fin 16) (d : Fin 10) (e : Word) (x : ScrubCh),
      x = s.memsys.scrub.getD c {} ∧ s.chanUp c = true ∧ s.get Reg.MEM_SCRUB_CTL.EN = 1 ∧ s.get Reg.TALLY_STS.PSTATE ≠ 3 ∧ s.background (0x7000 + c) = true →
      (s.lineAddr? c x.pos).all (fun a => !s.ddrBad.contains (a / 64)) = true →
      Completes (.scrubLine c (.corrected d) e) s fun t =>
        (s.mark? c (x.pos % 2) = none → t = (s.corrected c (x.pos % 2) d).scrubNext c e.toNat ∧ t.get (Reg.MEM_CH_CE.COUNT c) = min (s.get (Reg.MEM_CH_CE.COUNT c) + 1) 0xFFFFFFFF
            ∧ (x.hits.getD (16 * (x.pos % 2) + d) 0 < 15 → t.mark? c (x.pos % 2) = none) ∧ (15 ≤ x.hits.getD (16 * (x.pos % 2) + d) 0 → t.mark? c (x.pos % 2) = some d.val))
        ∧ (s.mark? c (x.pos % 2) = some d.val → t = s.scrubNext c e.toNat)
        ∧ (∀ m, s.mark? c (x.pos % 2) = some m → m ≠ d.val → (s.lineAddr? c x.pos = none → t = s.scrubNext c e.toNat)
            ∧ (∀ a, s.lineAddr? c x.pos = some a → t = ({ s with ddrBad := addTo s.ddrBad (a / 64) }.reportUe (a / 64) true).scrubNext c e.toNat)))
  ∧ (∀ (s : State) (c : Fin 16),
      Completes (.ddrRefresh c) s fun t =>
        t = s)
  ∧ (∀ (s : State) (h : HostId) (r : Fin 512) (w : Fin 4) (v : Word) (p o : Nat),
      o = Reg.MEM_REG_W0.off r + 4 * w →
      Takes s h o →
      p = s.get (Reg.MEM_REG_W2.PARTITION r) →
      Completes (.regionWrite h r w v) s fun t =>
        (s.get (Reg.MEM_REG_W2.VALID r) = 1 → w = 2 → wordField v 31 1 = 0 → (s.owns h p = true ∧ s.pstate p = 1) ∨ s.regionBootCase h p = true →
            t.get (Reg.MEM_REG_W2.VALID r) = 0 ∧ t.get (Reg.MEM_REG_W3.FILL r) = 0 ∧ FieldsBut [Reg.MEM_REG_W2.VALID r, Reg.MEM_REG_W3.FILL r] s t ∧ t = { s with regs := t.regs })
        ∧ (s.get (Reg.MEM_REG_W2.VALID r) = 1 → w ≠ 2 ∨ wordField v 31 1 = 1 ∨ (¬ (s.owns h p = true ∧ s.pstate p = 1) ∧ s.regionBootCase h p = false) →
            t.get Reg.MEM_STS.CFG_REJ = 1 ∧ FieldsBut [Reg.MEM_STS.CFG_REJ] s t ∧ t = { s with regs := t.regs })
        ∧ (s.get (Reg.MEM_REG_W2.VALID r) = 0 → w.val < 2 → s.owns h p = true ∨ s.regionBootCase h p = true → t = s.applyWrite o v)
        ∧ (s.get (Reg.MEM_REG_W2.VALID r) = 0 → w.val < 2 → s.owns h p = false → s.regionBootCase h p = false →
            t.get Reg.MEM_STS.CFG_REJ = 1 ∧ FieldsBut [Reg.MEM_STS.CFG_REJ] s t ∧ t = { s with regs := t.regs })
        ∧ (s.get (Reg.MEM_REG_W2.VALID r) = 0 → w = 2 → s.owns h (wordField v 0 6) = true ∨ s.regionBootCase h (wordField v 0 6) = true →
            (wordField v 31 1 = 0 → t = s.applyWrite o v) ∧ (wordField v 31 1 = 1 → s.regionOk r (wordField v 0 6) = true → t = (s.applyWrite o v).put (Reg.MEM_REG_W3.FILL r) 1))
        ∧ (s.get (Reg.MEM_REG_W2.VALID r) = 0 → w = 2 → (s.owns h (wordField v 0 6) = false ∧ s.regionBootCase h (wordField v 0 6) = false) ∨ (wordField v 31 1 = 1 ∧ s.regionOk r (wordField v 0 6) = false) →
            t.get Reg.MEM_STS.CFG_REJ = 1 ∧ FieldsBut [Reg.MEM_STS.CFG_REJ] s t ∧ t = { s with regs := t.regs }))
  ∧ (∀ (s : State) (h : HostId) (b : Bool) (v : Word),
      Takes s h (Reg.MEM_REG_W0.off 7) ∧ Takes s h (Reg.MEM_REG_W1.off 7) →
      s.get (Reg.MEM_REG_W2.VALID 7) = 0 ∧ s.owns h (s.get (Reg.MEM_REG_W2.PARTITION 7)) = true →
      Completes (.regionWrite h 7 (if b then 1 else 0) v) s fun t =>
        (b = false → t.get (Reg.MEM_REG_W0.BASE_MIB 7) = wordField v 0 21 ∧ FieldsBut [Reg.MEM_REG_W0.BASE_MIB 7] s t ∧ t = { s with regs := t.regs })
        ∧ (b = true → t.get (Reg.MEM_REG_W1.SIZE_MIB 7) = wordField v 0 22 ∧ FieldsBut [Reg.MEM_REG_W1.SIZE_MIB 7] s t ∧ t = { s with regs := t.regs }))
  ∧ (∀ (s : State) (h : HostId) (r : Fin 512) (v : Word),
      s.bar0Reach h (Reg.MEM_REG_W3.off r) = true ∧ s.boot.warm = false →
      Completes (.regionWrite h r 3 v) s fun t =>
        t = s.writeIgnored h (Reg.MEM_REG_W3.off r))
  ∧ (∀ (s u : State) (r : Fin 512),
      u = { s with ddr := memZero s.ddr (s.region r).base (s.region r).size, ddrBad := s.ddrBad.filter (fun l => !within (64 * l) 64 (s.region r).base (s.region r).size) } →
      Completes (.zeroFillDone r) s fun t =>
        (s.get (Reg.MEM_REG_W2.VALID r) = 0 ∨ s.get (Reg.MEM_REG_W3.FILL r) = 0 → t = s)
        ∧ (s.get (Reg.MEM_REG_W2.VALID r) = 1 → s.get (Reg.MEM_REG_W3.FILL r) = 1 → t = (u.put (Reg.MEM_REG_W3.FILL r) 0).drainCqs.writeReady))
  ∧ (∀ (s : State) (h : HostId) (r : Fin 3) (v : Word),
      Takes s h (Reg.MEM_RSPILL_BASE_LO.off + 4 * r) →
      Completes (.memRspillWrite h r v) s fun t =>
        ((List.range 64).all (fun k => s.get (Reg.CLUSTER_RED_OPEN.SPILLED k) == 0) = false → t.get Reg.MEM_STS.CFG_REJ = 1 ∧ FieldsBut [Reg.MEM_STS.CFG_REJ] s t ∧ t = { s with regs := t.regs })
        ∧ ((List.range 64).all (fun k => s.get (Reg.CLUSTER_RED_OPEN.SPILLED k) == 0) = true → RegsBut [Reg.MEM_RSPILL_BASE_LO.off + 4 * r] s t ∧ t = { s with regs := t.regs }
            ∧ (r = 0 → t.get Reg.MEM_RSPILL_BASE_LO.ADDR_LO = wordField v 20 12) ∧ (r = 1 → t.get Reg.MEM_RSPILL_BASE_HI.ADDR_HI = wordField v 0 9)
            ∧ (r = 2 → wordField v 0 13 ≤ 4096 → t.get Reg.MEM_RSPILL_SIZE.MIB = wordField v 0 13) ∧ (r = 2 → 4096 < wordField v 0 13 → t.get Reg.MEM_RSPILL_SIZE.MIB = s.get Reg.MEM_RSPILL_SIZE.MIB)))
  ∧ (∀ (s : State) (h : HostId) (r : Fin 3) (v : Word),
      Takes s h (Reg.MEM_IMG_BASE_LO.off + 4 * r) →
      Completes (.memImgWrite h r v) s fun t =>
        (s.get Reg.GLB_STS.STAGE ≠ 2 → t.get Reg.MEM_STS.CFG_REJ = 1 ∧ FieldsBut [Reg.MEM_STS.CFG_REJ] s t ∧ t = { s with regs := t.regs })
        ∧ (s.get Reg.GLB_STS.STAGE = 2 → RegsBut [Reg.MEM_IMG_BASE_LO.off + 4 * r] s t ∧ t = { s with regs := t.regs }
            ∧ (r = 0 → t.get Reg.MEM_IMG_BASE_LO.ADDR_LO = wordField v 20 12) ∧ (r = 1 → t.get Reg.MEM_IMG_BASE_HI.ADDR_HI = wordField v 0 9)
            ∧ (r = 2 → wordField v 0 13 ≤ 4096 → t.get Reg.MEM_IMG_SIZE.MIB = wordField v 0 13) ∧ (r = 2 → 4096 < wordField v 0 13 → t.get Reg.MEM_IMG_SIZE.MIB = s.get Reg.MEM_IMG_SIZE.MIB)))

/-- GO and the Crier's segments, reports and windows act as 15 and 17 give. GO outside WAIT_MANIFEST is ignored and logged; in it, a
manifest that fails a check leaves the device waiting with the check's code, and one that passes is taken and brings the device up. A
segment that a target of the Crier's round lacks is held, the last one places the image where its CRC holds and empties the target where
it does not; a report says what a target lacks, a complete one reports no more. A window ends the round where no target is open, starts
the next pass before the eighth, and fences the cores still open after it. -/
def Obligations.CrierAndBoot : Prop :=
  (∀ (s : State) (k : ClusterId) (c : Fin 68) (g : Fin 4096) (b : Bool),
      Completes (.crierSegmentReceive k c g b) s fun t =>
        (s.get Reg.GLB_STS.STAGE ≠ 6 ∨ b = false ∨ g.val ∉ s.boot.sent ∨ s.boot.targets.find? (fun x => x.cluster == k.val && x.pcore == c.val) = none → t = s)
        ∧ (∀ x, s.boot.targets.find? (fun x => x.cluster == k.val && x.pcore == c.val) = some (x) → s.get Reg.GLB_STS.STAGE = 6 → b = true → g.val ∈ s.boot.sent →
            (g.val ∉ s.boot.segsOf x ∨ g.val ∈ x.held → t = s)
            ∧ (g.val ∈ s.boot.segsOf x → g.val ∉ x.held → (s.boot.segsOf x).all (x.held ++ [g.val]).contains = false → t = s.modTarget k c (fun y => { y with held := x.held ++ [g.val] }))
            ∧ (g.val ∈ s.boot.segsOf x → g.val ∉ x.held → (s.boot.segsOf x).all (x.held ++ [g.val]).contains = true → s.crcOk x = false → t = s.modTarget k c (fun y => { y with held := [] }))
            ∧ (g.val ∈ s.boot.segsOf x → g.val ∉ x.held → (s.boot.segsOf x).all (x.held ++ [g.val]).contains = true → s.crcOk x = true →
                t = (s.modTarget k c (fun y => { y with held := x.held ++ [g.val] })).placeResident (64 * k + x.num)))
        ∧ t = { s with regs := t.regs, cores := t.cores, boot := { s.boot with targets := t.boot.targets }, tally := t.tally })
  ∧ (∀ (s : State) (k : ClusterId) (c : Fin 68),
      Completes (.crierGapReport k c) s fun t =>
        (s.get Reg.GLB_STS.STAGE ≠ 6 → t = s)
        ∧ (s.get Reg.GLB_STS.STAGE = 6 → t.boot.targets = s.boot.targets.map (fun x => if x.cluster = k.val ∧ x.pcore = c.val ∧ x.complete = false then
              { x with report := some ((s.boot.segsOf x).filter (fun g => !x.held.contains g)), complete := (s.boot.segsOf x).all x.held.contains } else x)
            ∧ t = { s with boot := { s.boot with targets := t.boot.targets } }))
  ∧ (∀ (s : State) (o : List Target),
      o = s.boot.targets.filter (fun x => !x.complete) →
      Completes (.crierReportWindow) s fun t =>
        (s.get Reg.GLB_STS.STAGE ≠ 6 → t = s)
        ∧ (s.get Reg.GLB_STS.STAGE = 6 → o = [] → t = s.crierEnd)
        ∧ (s.get Reg.GLB_STS.STAGE = 6 → o ≠ [] → s.get Reg.GLB_CRIER_STS.PASS < 8 → t.get Reg.GLB_CRIER_STS.PASS = s.get Reg.GLB_CRIER_STS.PASS + 1
            ∧ t.boot = { s.boot with targets := s.boot.targets.map (fun x => { x with report := none }),
                                     sent := (List.range s.boot.store.length).filter (o.flatMap (fun x => x.report.getD (s.boot.segsOf x))).contains }
            ∧ FieldsBut [Reg.GLB_CRIER_STS.PASS] s t ∧ t = { s with regs := t.regs, boot := t.boot })
        ∧ (s.get Reg.GLB_STS.STAGE = 6 → o ≠ [] → 8 ≤ s.get Reg.GLB_CRIER_STS.PASS →
            t = (match ((s.takeOut 1 (o.map (fun x => ⟨.core, x.cluster, x.pcore⟩))).count Reg.GLB_CRIER_STS.FENCED o.length).noService? with
              | none => ((s.takeOut 1 (o.map (fun x => ⟨.core, x.cluster, x.pcore⟩))).count Reg.GLB_CRIER_STS.FENCED o.length).crierRound
              | some k => (((s.takeOut 1 (o.map (fun x => ⟨.core, x.cluster, x.pcore⟩))).count Reg.GLB_CRIER_STS.FENCED o.length).put Reg.GLB_STS.ERR_CLUSTER k).bootFail 4)))
  ∧ (∀ (s u : State) (h : HostId) (seen : Seen) (x : Training) (y : Tests),
      Takes s h Reg.GLB_FW_CMD.off ∧ u = ((s.see seen).put Reg.GLB_STS.STAGE 3).put Reg.GLB_STS.BOOT_ERR 0 →
      Completes (.go h seen x y) s fun t =>
        (s.get Reg.GLB_STS.STAGE ≠ 2 → t = s.writeIgnored h Reg.GLB_FW_CMD.off)
        ∧ (s.get Reg.GLB_STS.STAGE = 2 → t = (if u.manResult u.manifest = 0 then (((u.fresh.put Reg.SEC_BOOT_STS.RESULT 0).takeManifest u.manifest).bringUp x y).measureResidents
              else ((u.fresh.put Reg.SEC_BOOT_STS.RESULT (u.manResult u.manifest)).put Reg.GLB_STS.STAGE 2).put Reg.GLB_STS.BOOT_ERR 1))
        ∧ (s.get Reg.GLB_STS.STAGE = 2 → u.manifestOk u.manifest = false → t.get Reg.GLB_STS.STAGE = 2 ∧ t.get Reg.GLB_STS.BOOT_ERR = 1 ∧ t.get Reg.SEC_BOOT_STS.RESULT ≠ 0
            ∧ FieldsBut [Reg.GLB_STS.BOOT_ERR, Reg.SEC_BOOT_STS.RESULT] s t ∧ t = { u.fresh with regs := t.regs }))

/-- A step takes the command at the front of the queue and runs it with the queue's rest (the model's queue, log 1). For every command c
and state s, a step of s with c in front of its waiting commands is exec of c on s with those commands alone waiting; so every
per-command statement reaches a run through this one. -/
def Obligations.StepRunsFront : Prop :=
  ∀ (c : Instr) (s : State) (rest : List Instr), s.pending = c :: rest → step s = exec c { s with pending := rest }

/-- With nothing waiting a step is one core cycle: FT advances by 107, 107, 106 of 256 ns, and units move by themselves (log 1). An
empty queue lets one core cycle go by. FT, taken with its fraction as a number of 1/256 ns, grows by 107 in the first two cycles of the
pattern and by 106 in the third; three cycles from the pattern's start add exactly 1.25 ns (320/256), and an FT on the pattern stays on
it. With no frame on the mesh, no BAR4 request waiting and no slot beginning, nothing but the time unit changes. That an idle step
stands for a core cycle is the model's choice (log 1). -/
def Obligations.IdleStepIsACoreCycle : Prop :=
  (∀ s : State, s.pending = [] →
      ∃ t, step s = .next t ∧ t.time.phase = (s.time.phase + 1) % 3 ∧ t.time.cycles = s.time.cycles + 1
        ∧ t.ft % 2 ^ 72 = (s.ft + (if s.time.phase = 2 then 106 else 107)) % 2 ^ 72
        ∧ (s.time.phase < 3 → s.ft % 320 = 107 * s.time.phase → s.ft + 107 < 2 ^ 72 → t.ft % 320 = 107 * t.time.phase)
        ∧ (s.mesh.crossings = [] → s.host0.b4Wait = [] → s.host1.b4Wait = [] → s.tick.atSlotStart = false → t = { s with time := t.time }))
  ∧ (∀ s : State, s.pending = [] → s.time.phase = 0 →
      ∃ t u v, step s = .next t ∧ step t = .next u ∧ step u = .next v ∧ v.time.phase = 0
        ∧ v.ft % 2 ^ 72 = (s.ft + 320) % 2 ^ 72)

/-- No command puts a command into the queue or takes one out: every step leaves exactly the queue's rest. For every state, a step
answers a next state whose waiting commands are those of the state without the first one. This rests on no operation of the model
touching the queue, whatever the command; it keeps any bound on the queue's length, and with it a program of n commands runs in n steps.
-/
def Obligations.EveryStepShortensTheQueue : Prop :=
  (∀ s : State, ∃ t, step s = .next t ∧ t.pending = s.pending.tail)
  ∧ (∀ (n : Nat) (s t : State), s.pending.length ≤ n → step s = .next t → t.pending.length ≤ n)

/-- Whatever the command, the life-cycle fuse moves only along Table 15.3 and no fused version falls or key is unrevoked. For every
state and every step: the life-cycle state in the fuses stays, or moves by a transition of Table 15.3; firmware keys once revoked stay
revoked; outside MANUF the fused security version never falls, and the firmware key digests, the identity seed and the disabled-unit
fuses stay as they are; authority fuses outside MANUF are written in PROVISIONED only, each once. A legal life-cycle state thus stays
legal, and SCRAP is final. Fuses burned at a power-on in MANUF are the model's reading (log 7). -/
def Obligations.FusesMoveOnlyAsAllowed : Prop :=
  ∀ s t : State, step s = .next t →
    (t.sec.fuses.lc = s.sec.fuses.lc
      ∨ (s.sec.fuses.lc = 0 ∧ (t.sec.fuses.lc = 1 ∨ t.sec.fuses.lc = 4)) ∨ (s.sec.fuses.lc = 1 ∧ (t.sec.fuses.lc = 2 ∨ t.sec.fuses.lc = 4))
      ∨ (s.sec.fuses.lc = 2 ∧ (t.sec.fuses.lc = 3 ∨ t.sec.fuses.lc = 4)) ∨ (s.sec.fuses.lc = 3 ∧ t.sec.fuses.lc = 4))
    ∧ (s.sec.fuses.lc ≤ 4 → t.sec.fuses.lc ≤ 4)
    ∧ (∀ n ∈ s.sec.fuses.revoked, n ∈ t.sec.fuses.revoked)
    ∧ (s.sec.fuses.lc ≠ 0 → s.sec.fuses.version ≤ t.sec.fuses.version ∧ t.sec.fuses.fw = s.sec.fuses.fw
        ∧ t.sec.fuses.seed = s.sec.fuses.seed ∧ t.sec.fuses.dum = s.sec.fuses.dum)
    ∧ (s.sec.fuses.lc ≠ 0 → s.sec.fuses.lc ≠ 1 → t.sec.fuses.auth = s.sec.fuses.auth)
    ∧ (s.sec.fuses.lc = 1 → t.sec.fuses.auth = s.sec.fuses.auth
        ∨ ∃ n, (n = 2 ∨ n = 3) ∧ s.sec.fuses.auth.getD n [] = [] ∧ ∀ k, k < 4 → k ≠ n → t.sec.fuses.auth.getD k [] = s.sec.fuses.auth.getD k [])

/-- At reset the fuses are legal, nothing waits and the device is OFF with FT 0 (log 4, log 7). The state right after reset meets the
invariants that every step keeps: a legal life-cycle state, an empty queue, every memory and the register file in canonical form. Its FT
of 0 and its unwritten fuses are the model's choices (log 4 and log 7). -/
def Obligations.LifeCycleAtReset : Prop :=
  State.reset.sec.fuses.lc ≤ 4 ∧ State.reset.pending = [] ∧ State.reset.regs.wf regReset = true ∧ State.reset.ddr.wf = true
  ∧ State.reset.hostMem0.wf = true ∧ State.reset.hostMem1.wf = true ∧ State.reset.time.ftNs = 0 ∧ State.reset.pins.pwrOk = false
  ∧ State.reset.preReady = true

/-- TALLY_FLOOR reads the sum of the P0 floors, 139,400 mW, after every reset. TALLY_FLOOR.MW is 139,400 at reset, after every power-on
whatever the straps, the burned fuses and the self-test say, and a host's write leaves it so. -/
def Obligations.TallyFloorAtReset : Prop :=
  State.reset.get Reg.TALLY_FLOOR.MW = 48000 + 70400 + 12000 + 9000 ∧ State.reset.get Reg.TALLY_FLOOR.MW = 139400
  ∧ (∀ (x : Straps) (b : Option Burned) (ok mp : Bool) (s : State), s.pins.pwrOk = false → (∀ e ∈ s.sec.fuses.dum, e.1 ≠ Reg.TALLY_FLOOR.off) →
      (∀ w ∈ b, ∀ e ∈ w.dum, e.1 ≠ Reg.TALLY_FLOOR.off) → Completes (.powerOn x b ok mp) s fun t => t.get Reg.TALLY_FLOOR.MW = 139400)
  ∧ (∀ (s : State) (v : Word), s.get Reg.TALLY_FLOOR.MW = 139400 → (s.applyWrite Reg.TALLY_FLOOR.off v).get Reg.TALLY_FLOOR.MW = 139400)

/-- A schedule submitted while the time unit is not LOCKED is refused with ADM_DEADLINE. A taken SUBMIT with STATE other than LOCKED
queues a submission marked so, and whatever the image and the state at the verdict, a submission so marked is never admitted: the checks
of the verdict fail, with ADM_DEADLINE (8) where the checks that stand before it in Table 5.8 pass. -/
def Obligations.UnlockedSubmissionRefused : Prop :=
  (∀ (s : State) (h : HostId) (p : PartId), Takes s h (Reg.SCHED_CTL.off p) → s.get (Reg.SCHED_STATE.PEND p) = 0 → s.get Reg.TIME_STS.STATE ≠ 2 →
      Completes (.submit h p) s fun t => ∃ x, t.sched.submits = s.sched.submits ++ [x] ∧ x.part = p.val ∧ x.locked = false)
  ∧ (∀ (s : State) (x : Submit) (i : Image) (cost : Nat), x.locked = false →
      (∃ f, s.admChecks x i cost = some f)
      ∧ (s.admRights x.part i = none → s.admLead i = none → s.admResources x.part i x = none →
          admSlots (s.plant x.preempt) (s.admImages x.part i) i = none → admBackground (s.admImages x.part i) i = none →
          s.admBuffers (s.plant x.preempt) (s.admImages x.part i) = none → s.admChecks x i cost = some { code := 8 }))

/-- An image of another map generation, or one that names a core vacant in the next map, is refused with ADM_RESOURCE. A taken SUBMIT
records GLB_DUM_GEN.GEN of that moment. At the verdict an image of another generation, and an image with a stage on a logical core that
is vacant in the next map, fails; with ADM_RESOURCE (4) where the rights and the lead time, which Table 5.8 checks before, are in order.
-/
def Obligations.StaleOrVacantImageRefused : Prop :=
  (∀ (s : State) (h : HostId) (p : PartId), Takes s h (Reg.SCHED_CTL.off p) → s.get (Reg.SCHED_STATE.PEND p) = 0 →
      Completes (.submit h p) s fun t => ∃ x, t.sched.submits = s.sched.submits ++ [x] ∧ x.gen = s.get Reg.GLB_DUM_GEN.GEN)
  ∧ (∀ (s : State) (x : Submit) (i : Image) (cost : Nat),
      (i.mapGen ≠ x.gen ∨ ∃ q ∈ i.paths, q.stageValid = true ∧ s.get (Reg.CLUSTER_LMAP.NEXT_VACANT (q.stage / 64) (q.stage % 64)) ≠ 0) →
      ∃ f, s.admChecks x i cost = some f ∧ (s.admRights x.part i = none → s.admLead i = none → f.code = 4))
end

