-- ==== Sys2Proof/Laws/Same.lean ====
section
/-! SUPPORT. Frames in one shape: `Same m s t` says that every part of the state whose bit is clear in the mask `m` is the same in `s`
and `t`. Its laws let the frame of an operation be read off the frames of the operations it calls. -/

namespace Sys2Proof.Machine.Laws

/-- Every part of the state whose bit is clear in `m` is the same. The last bits stand for the fuses and the two parts of FT alone. -/
structure Same (m : Nat) (s t : State) : Prop where
  pending : m.testBit 0 = false → t.pending = s.pending
  regs : m.testBit 1 = false → t.regs = s.regs
  time : m.testBit 2 = false → t.time = s.time
  scriv : m.testBit 3 = false → t.scriv = s.scriv
  host0 : m.testBit 4 = false → t.host0 = s.host0
  host1 : m.testBit 5 = false → t.host1 = s.host1
  sched : m.testBit 6 = false → t.sched = s.sched
  ports : m.testBit 7 = false → t.ports = s.ports
  mesh : m.testBit 8 = false → t.mesh = s.mesh
  rxq : m.testBit 9 = false → t.rxq = s.rxq
  held : m.testBit 10 = false → t.held = s.held
  stageIn : m.testBit 11 = false → t.stageIn = s.stageIn
  preReady : m.testBit 12 = false → t.preReady = s.preReady
  qps : m.testBit 13 = false → t.qps = s.qps
  kennel : m.testBit 14 = false → t.kennel = s.kennel
  wins : m.testBit 15 = false → t.wins = s.wins
  sheep0 : m.testBit 16 = false → t.sheep0 = s.sheep0
  sheep1 : m.testBit 17 = false → t.sheep1 = s.sheep1
  tiles : m.testBit 18 = false → t.tiles = s.tiles
  tileNext : m.testBit 19 = false → t.tileNext = s.tileNext
  trigs : m.testBit 20 = false → t.trigs = s.trigs
  trigPend : m.testBit 21 = false → t.trigPend = s.trigPend
  queues : m.testBit 22 = false → t.queues = s.queues
  cores : m.testBit 23 = false → t.cores = s.cores
  clusters : m.testBit 24 = false → t.clusters = s.clusters
  handles : m.testBit 25 = false → t.handles = s.handles
  spares : m.testBit 26 = false → t.spares = s.spares
  digests : m.testBit 27 = false → t.digests = s.digests
  sec : m.testBit 28 = false → t.sec = s.sec
  parts : m.testBit 29 = false → t.parts = s.parts
  colls : m.testBit 30 = false → t.colls = s.colls
  collEnds : m.testBit 31 = false → t.collEnds = s.collEnds
  redEnds : m.testBit 32 = false → t.redEnds = s.redEnds
  collNext : m.testBit 33 = false → t.collNext = s.collNext
  bars : m.testBit 34 = false → t.bars = s.bars
  boot : m.testBit 35 = false → t.boot = s.boot
  memsys : m.testBit 36 = false → t.memsys = s.memsys
  portRst : m.testBit 37 = false → t.portRst = s.portRst
  tally : m.testBit 38 = false → t.tally = s.tally
  pins : m.testBit 39 = false → t.pins = s.pins
  ddrBad : m.testBit 40 = false → t.ddrBad = s.ddrBad
  hostMem0 : m.testBit 41 = false → t.hostMem0 = s.hostMem0
  hostMem1 : m.testBit 42 = false → t.hostMem1 = s.hostMem1
  poisoned : m.testBit 43 = false → t.poisoned = s.poisoned
  ddr : m.testBit 44 = false → t.ddr = s.ddr
  out : m.testBit 45 = false → t.out = s.out
  freeCtr : m.testBit 46 = false → t.freeCtr = s.freeCtr
  fuses : m.testBit 47 = false → t.sec.fuses = s.sec.fuses
  ftNs : m.testBit 48 = false → t.time.ftNs = s.time.ftNs
  ftFrac : m.testBit 49 = false → t.time.frac = s.time.frac

theorem Same.refl (m : Nat) (s : State) : Same m s s := by constructor <;> intro _ <;> rfl

theorem Same.trans {m : Nat} {s t u : State} (h : Same m s t) (h' : Same m t u) : Same m s u where
  pending hb := (h'.pending hb).trans (h.pending hb)
  regs hb := (h'.regs hb).trans (h.regs hb)
  time hb := (h'.time hb).trans (h.time hb)
  scriv hb := (h'.scriv hb).trans (h.scriv hb)
  host0 hb := (h'.host0 hb).trans (h.host0 hb)
  host1 hb := (h'.host1 hb).trans (h.host1 hb)
  sched hb := (h'.sched hb).trans (h.sched hb)
  ports hb := (h'.ports hb).trans (h.ports hb)
  mesh hb := (h'.mesh hb).trans (h.mesh hb)
  rxq hb := (h'.rxq hb).trans (h.rxq hb)
  held hb := (h'.held hb).trans (h.held hb)
  stageIn hb := (h'.stageIn hb).trans (h.stageIn hb)
  preReady hb := (h'.preReady hb).trans (h.preReady hb)
  qps hb := (h'.qps hb).trans (h.qps hb)
  kennel hb := (h'.kennel hb).trans (h.kennel hb)
  wins hb := (h'.wins hb).trans (h.wins hb)
  sheep0 hb := (h'.sheep0 hb).trans (h.sheep0 hb)
  sheep1 hb := (h'.sheep1 hb).trans (h.sheep1 hb)
  tiles hb := (h'.tiles hb).trans (h.tiles hb)
  tileNext hb := (h'.tileNext hb).trans (h.tileNext hb)
  trigs hb := (h'.trigs hb).trans (h.trigs hb)
  trigPend hb := (h'.trigPend hb).trans (h.trigPend hb)
  queues hb := (h'.queues hb).trans (h.queues hb)
  cores hb := (h'.cores hb).trans (h.cores hb)
  clusters hb := (h'.clusters hb).trans (h.clusters hb)
  handles hb := (h'.handles hb).trans (h.handles hb)
  spares hb := (h'.spares hb).trans (h.spares hb)
  digests hb := (h'.digests hb).trans (h.digests hb)
  sec hb := (h'.sec hb).trans (h.sec hb)
  parts hb := (h'.parts hb).trans (h.parts hb)
  colls hb := (h'.colls hb).trans (h.colls hb)
  collEnds hb := (h'.collEnds hb).trans (h.collEnds hb)
  redEnds hb := (h'.redEnds hb).trans (h.redEnds hb)
  collNext hb := (h'.collNext hb).trans (h.collNext hb)
  bars hb := (h'.bars hb).trans (h.bars hb)
  boot hb := (h'.boot hb).trans (h.boot hb)
  memsys hb := (h'.memsys hb).trans (h.memsys hb)
  portRst hb := (h'.portRst hb).trans (h.portRst hb)
  tally hb := (h'.tally hb).trans (h.tally hb)
  pins hb := (h'.pins hb).trans (h.pins hb)
  ddrBad hb := (h'.ddrBad hb).trans (h.ddrBad hb)
  hostMem0 hb := (h'.hostMem0 hb).trans (h.hostMem0 hb)
  hostMem1 hb := (h'.hostMem1 hb).trans (h.hostMem1 hb)
  poisoned hb := (h'.poisoned hb).trans (h.poisoned hb)
  ddr hb := (h'.ddr hb).trans (h.ddr hb)
  out hb := (h'.out hb).trans (h.out hb)
  freeCtr hb := (h'.freeCtr hb).trans (h.freeCtr hb)
  fuses hb := (h'.fuses hb).trans (h.fuses hb)
  ftNs hb := (h'.ftNs hb).trans (h.ftNs hb)
  ftFrac hb := (h'.ftFrac hb).trans (h.ftFrac hb)

theorem testBit_of_or {m k i : Nat} (hk : m ||| k = k) (hb : k.testBit i = false) : m.testBit i = false := by
  rw [← hk, Nat.testBit_or, Bool.or_eq_false_iff] at hb
  exact hb.1

/-- A frame holds for every mask that covers it. -/
theorem Same.mono {m k : Nat} {s t : State} (h : Same m s t) (hk : m ||| k = k) : Same k s t where
  pending hb := h.pending (testBit_of_or hk hb)
  regs hb := h.regs (testBit_of_or hk hb)
  time hb := h.time (testBit_of_or hk hb)
  scriv hb := h.scriv (testBit_of_or hk hb)
  host0 hb := h.host0 (testBit_of_or hk hb)
  host1 hb := h.host1 (testBit_of_or hk hb)
  sched hb := h.sched (testBit_of_or hk hb)
  ports hb := h.ports (testBit_of_or hk hb)
  mesh hb := h.mesh (testBit_of_or hk hb)
  rxq hb := h.rxq (testBit_of_or hk hb)
  held hb := h.held (testBit_of_or hk hb)
  stageIn hb := h.stageIn (testBit_of_or hk hb)
  preReady hb := h.preReady (testBit_of_or hk hb)
  qps hb := h.qps (testBit_of_or hk hb)
  kennel hb := h.kennel (testBit_of_or hk hb)
  wins hb := h.wins (testBit_of_or hk hb)
  sheep0 hb := h.sheep0 (testBit_of_or hk hb)
  sheep1 hb := h.sheep1 (testBit_of_or hk hb)
  tiles hb := h.tiles (testBit_of_or hk hb)
  tileNext hb := h.tileNext (testBit_of_or hk hb)
  trigs hb := h.trigs (testBit_of_or hk hb)
  trigPend hb := h.trigPend (testBit_of_or hk hb)
  queues hb := h.queues (testBit_of_or hk hb)
  cores hb := h.cores (testBit_of_or hk hb)
  clusters hb := h.clusters (testBit_of_or hk hb)
  handles hb := h.handles (testBit_of_or hk hb)
  spares hb := h.spares (testBit_of_or hk hb)
  digests hb := h.digests (testBit_of_or hk hb)
  sec hb := h.sec (testBit_of_or hk hb)
  parts hb := h.parts (testBit_of_or hk hb)
  colls hb := h.colls (testBit_of_or hk hb)
  collEnds hb := h.collEnds (testBit_of_or hk hb)
  redEnds hb := h.redEnds (testBit_of_or hk hb)
  collNext hb := h.collNext (testBit_of_or hk hb)
  bars hb := h.bars (testBit_of_or hk hb)
  boot hb := h.boot (testBit_of_or hk hb)
  memsys hb := h.memsys (testBit_of_or hk hb)
  portRst hb := h.portRst (testBit_of_or hk hb)
  tally hb := h.tally (testBit_of_or hk hb)
  pins hb := h.pins (testBit_of_or hk hb)
  ddrBad hb := h.ddrBad (testBit_of_or hk hb)
  hostMem0 hb := h.hostMem0 (testBit_of_or hk hb)
  hostMem1 hb := h.hostMem1 (testBit_of_or hk hb)
  poisoned hb := h.poisoned (testBit_of_or hk hb)
  ddr hb := h.ddr (testBit_of_or hk hb)
  out hb := h.out (testBit_of_or hk hb)
  freeCtr hb := h.freeCtr (testBit_of_or hk hb)
  fuses hb := h.fuses (testBit_of_or hk hb)
  ftNs hb := h.ftNs (testBit_of_or hk hb)
  ftFrac hb := h.ftFrac (testBit_of_or hk hb)

/-- The frame of an operation after what came before it. -/
theorem Same.seq {m k : Nat} {s t u : State} (h : Same k s t) (h' : Same m t u) (hk : m ||| k = k) : Same k s u :=
  h.trans (h'.mono hk)

theorem Same.ite {m : Nat} {s a b : State} {c : Prop} [Decidable c] (ha : Same m s a) (hb : Same m s b) : Same m s (if c then a else b) := by
  split <;> assumption

/-- A state reached through an equation. -/
theorem Same.of_eq {m : Nat} {s a b : State} (h : a = b) (ha : Same m s a) : Same m s b := h ▸ ha

theorem Same.of_fst {m : Nat} {s a : State} {β : Type} {r : State × β} {b : β} (h : r = (a, b)) (ha : Same m s r.1) : Same m s a := by
  subst h; exact ha

/-- An update whose frame holds for every state. -/
theorem Same.gen {m : Nat} {s y : State} (f : State → State) (h : Same m s y) (hf : ∀ x, Same m x (f x)) : Same m s (f y) := h.trans (hf y)

/-- A fold keeps what each of its steps keeps. -/
theorem Same.foldl {m : Nat} {s : State} {α : Type} (f : State → α → State) (l : List α) (init : State)
    (hf : ∀ x a, Same m s x → Same m s (f x a)) (hi : Same m s init) : Same m s (l.foldl f init) := by
  induction l generalizing init with
  | nil => exact hi
  | cons a l ih => exact ih _ (hf _ _ hi)

/-- A fold that may stop and comes to its end keeps what each of its steps keeps. -/
theorem Same.of_foldlM {m : Nat} {α : Type} {f : State → α → Option State} {l : List α} {x t : State}
    (hf : ∀ x a t, f x a = some t → Same m x t) (h : l.foldlM f x = some t) : Same m x t := by
  induction l generalizing x with
  | nil => cases h; exact Same.refl _ _
  | cons a l ih =>
    simp only [List.foldlM_cons, Option.bind_eq_bind, Option.bind_eq_some_iff] at h
    obtain ⟨y, hy, h⟩ := h
    exact (hf _ _ _ hy).trans (ih h)

/-- The same for a fold that carries a value beside the state. -/
theorem Same.foldlPair {m : Nat} {s : State} {α β : Type} (f : State × β → α → State × β) (l : List α) (init : State × β)
    (hf : ∀ x a, Same m s x.1 → Same m s (f x a).1) (hi : Same m s init.1) : Same m s (l.foldl f init).1 := by
  induction l generalizing init with
  | nil => exact hi
  | cons a l ih => exact ih _ (hf _ _ hi)

theorem Same.iteFst {m : Nat} {s : State} {β : Type} {a b : State × β} {c : Prop} [Decidable c] (ha : Same m s a.1) (hb : Same m s b.1) :
    Same m s (if c then a else b).1 := by
  split <;> assumption

/-- An optional effect keeps what it keeps in every state. -/
def SameOpt (m : Nat) (o : Option (State → State)) : Prop := ∀ f, o = some f → ∀ s, Same m s (f s)

theorem SameOpt.none (m : Nat) : SameOpt m none := fun _ h => nomatch h

theorem SameOpt.some {m : Nat} {f : State → State} (h : ∀ s, Same m s (f s)) : SameOpt m (some f) := by
  intro g e; cases e; exact h

theorem SameOpt.ite {m : Nat} {c : Prop} [Decidable c] {a b : Option (State → State)} (ha : SameOpt m a) (hb : SameOpt m b) :
    SameOpt m (if c then a else b) := by
  split <;> assumption

theorem SameOpt.mono {m k : Nat} {o : Option (State → State)} (h : SameOpt m o) (hk : m ||| k = k) : SameOpt k o :=
  fun f e s => (h f e s).mono hk

end Sys2Proof.Machine.Laws
end

