-- ==== Sys2Proof/Laws/Frames1.lean ====
section
/-! SUPPORT. What each operation and each command can change: one frame per definition of the machine, part 1 of 5. -/

set_option linter.unusedTactic false
set_option linter.unreachableTactic false
set_option linter.unusedSimpArgs false

namespace Sys2Proof.Machine.Laws

theorem fresh_same (s : State) : Same 70368744177664 s (State.fresh s) := by
  unfold State.fresh
  constructor <;> intro hb <;> first | rfl | exact absurd hb (by decide)

theorem setReg_same (s : State) (a1 : Nat) (a2 : Word) : Same 2 s (State.setReg s a1 a2) := by
  unfold State.setReg
  constructor <;> intro hb <;> first | rfl | exact absurd hb (by decide)

theorem put_same (s : State) (a1 : Fld) (a2 : Nat) : Same 2 s (State.put s a1 a2) := by
  unfold State.put
  refine Same.seq ?_ (setReg_same ..) (by decide)
  exact Same.refl _ _

theorem count_same (s : State) (a1 : Fld) (a2 : Nat) : Same 2 s (State.count s a1 a2) := by
  unfold State.count
  refine Same.seq ?_ (put_same ..) (by decide)
  exact Same.refl _ _

theorem cidRefused_same (s : State) (a1 : Nat) (a2 : MemErr) : Same 2 s (State.cidRefused s a1 a2) := by
  unfold State.cidRefused
  refine Same.ite ?_ ?_
  · refine Same.seq ?_ (count_same ..) (by decide)
    exact Same.refl _ _
  · exact Same.refl _ _

theorem setEv_same (s : State) (a1 : HostId) (a2 : EvHost) : Same 8 s (State.setEv s a1 a2) := by
  unfold State.setEv
  constructor <;> intro hb <;> first | rfl | exact absurd hb (by decide)

theorem emit_same (s : State) (a1 : Output) : Same 35184372088832 s (State.emit s a1) := by
  unfold State.emit
  constructor <;> intro hb <;> first | rfl | exact absurd hb (by decide)

theorem keepHost_same (s : State) (a1 : HostId) (a2 : Nat) (a3 : List Byte) : Same 6597069766656 s (State.keepHost s a1 a2 a3) := by
  unfold State.keepHost
  refine Same.ite ?_ ?_
  · constructor <;> intro hb <;> first | rfl | exact absurd hb (by decide)
  · constructor <;> intro hb <;> first | rfl | exact absurd hb (by decide)

theorem writeHost_same (s : State) (a1 : HostId) (a2 : Nat) (a3 : List Byte) (a4 : Bool) : Same 41781441855488 s (State.writeHost s a1 a2 a3 a4) := by
  unfold State.writeHost
  refine Same.seq ?_ (emit_same ..) (by decide)
  refine Same.seq ?_ (keepHost_same ..) (by decide)
  exact Same.refl _ _

theorem setHost_same (s : State) (a1 : HostId) (a2 : HostPort) : Same 48 s (State.setHost s a1 a2) := by
  unfold State.setHost
  refine Same.ite ?_ ?_
  · constructor <;> intro hb <;> first | rfl | exact absurd hb (by decide)
  · constructor <;> intro hb <;> first | rfl | exact absurd hb (by decide)

theorem vector_same (s : State) (a1 : HostId) (a2 : Nat) : Same 35184372088880 s (State.vector s a1 a2) := by
  unfold State.vector
  refine Same.ite ?_ ?_
  · refine Same.seq ?_ (setHost_same ..) (by decide)
    exact Same.refl _ _
  · refine Same.seq ?_ (emit_same ..) (by decide)
    exact Same.refl _ _

theorem ringWrite_same (s : State) (a1 : HostId) (a2 : EvRec) : Same 41781441855546 s (State.ringWrite s a1 a2) := by
  unfold State.ringWrite
  extract_lets +onlyGivenNames -merge -useContext x1
  clear_value x1
  extract_lets +onlyGivenNames -merge -useContext x2
  clear_value x2
  extract_lets +onlyGivenNames -merge -useContext x3
  clear_value x3
  extract_lets +onlyGivenNames -merge -useContext x4
  have h4 : Same 41781441855546 s x4 := by
    unfold x4
    refine Same.seq ?_ (writeHost_same ..) (by decide)
    exact Same.refl _ _
  clear_value x4
  extract_lets +onlyGivenNames -merge -useContext x5
  have h5 : Same 41781441855546 s x5 := by
    unfold x5
    refine Same.seq ?_ (put_same ..) (by decide)
    assumption
  clear_value x5
  refine Same.ite ?_ ?_
  · refine Same.seq ?_ (vector_same ..) (by decide)
    refine Same.seq ?_ (setEv_same ..) (by decide)
    assumption
  · refine Same.seq ?_ (setEv_same ..) (by decide)
    assumption

theorem showQueued_same (s : State) (a1 : HostId) : Same 2 s (State.showQueued s a1) := by
  unfold State.showQueued
  refine Same.seq ?_ (put_same ..) (by decide)
  exact Same.refl _ _

theorem sendRecord_same (s : State) (a1 : HostId) (a2 : EvRec) : Same 41781441855546 s (State.sendRecord s a1 a2) := by
  unfold State.sendRecord
  refine Same.ite ?_ ?_
  · refine Same.seq ?_ (ringWrite_same ..) (by decide)
    exact Same.refl _ _
  · refine Same.ite ?_ ?_
    · refine Same.seq ?_ (showQueued_same ..) (by decide)
      refine Same.seq ?_ (setEv_same ..) (by decide)
      exact Same.refl _ _
    · refine Same.seq ?_ (setEv_same ..) (by decide)
      refine Same.seq ?_ (count_same ..) (by decide)
      exact Same.refl _ _

theorem showSticky_same (s : State) : Same 2 s (State.showSticky s) := by
  unfold State.showSticky
  refine Same.seq ?_ (put_same ..) (by decide)
  refine Same.seq ?_ (put_same ..) (by decide)
  exact Same.refl _ _

theorem stick_same (s : State) (a1 : EvRec) : Same 10 s (State.stick s a1) := by
  unfold State.stick
  extract_lets +onlyGivenNames -merge -useContext x1
  clear_value x1
  extract_lets +onlyGivenNames -merge -useContext x2
  clear_value x2
  refine Same.ite ?_ ?_
  · refine Same.seq ?_ (showSticky_same ..) (by decide)
    constructor <;> intro hb <;> first | rfl | exact absurd hb (by decide)
  · split
    · rename_i v3 v4
      refine Same.seq ?_ (put_same ..) (by decide)
      exact Same.refl _ _
    · rename_i v5 v6 v7 v8
      refine Same.seq ?_ (showSticky_same ..) (by decide)
      constructor <;> intro hb <;> first | rfl | exact absurd hb (by decide)

theorem record_same (s : State) (a1 : HostId) (a2 : Bool) (a3 : EvRec) : Same 41781441855546 s (State.record s a1 a2 a3) := by
  unfold State.record
  extract_lets +onlyGivenNames -merge -useContext x1
  clear_value x1
  extract_lets +onlyGivenNames -merge -useContext x2
  clear_value x2
  extract_lets +onlyGivenNames -merge -useContext x3
  have h3 : Same 41781441855546 s x3 := by
    unfold x3
    refine Same.seq ?_ (setEv_same ..) (by decide)
    exact Same.refl _ _
  clear_value x3
  refine Same.seq ?_ (sendRecord_same ..) (by decide)
  refine Same.ite ?_ ?_
  · refine Same.seq ?_ (stick_same ..) (by decide)
    assumption
  · assumption

theorem occur_same (s : State) (a1 : HostId) (a2 : Bool) (a3 : EvRec) : Same 41781441855546 s (State.occur s a1 a2 a3) := by
  unfold State.occur
  refine Same.ite ?_ ?_
  · split
    · rename_i v1 v2 v3
      refine Same.seq ?_ (setEv_same ..) (by decide)
      exact Same.refl _ _
    · rename_i v4 v5
      refine Same.seq ?_ (record_same ..) (by decide)
      refine Same.seq ?_ (setEv_same ..) (by decide)
      exact Same.refl _ _
  · refine Same.seq ?_ (record_same ..) (by decide)
    exact Same.refl _ _

theorem event_same (s : State) (a1 : EvKind) (a2 : List Byte) : Same 41781441855546 s (State.event s a1 a2) := by
  unfold State.event
  extract_lets +onlyGivenNames -merge -useContext x1
  clear_value x1
  extract_lets +onlyGivenNames -merge -useContext x2
  clear_value x2
  refine Same.seq ?_ (occur_same ..) (by decide)
  refine Same.seq ?_ (occur_same ..) (by decide)
  exact Same.refl _ _

theorem reportUe_same (s : State) (a1 : Nat) (a2 : Bool) : Same 41781441855546 s (State.reportUe s a1 a2) := by
  unfold State.reportUe
  extract_lets +onlyGivenNames -merge -useContext x1
  clear_value x1
  split
  · rename_i v2 v3
    exact Same.refl _ _
  · rename_i v4 v5 v6 v7 v8
    extract_lets +onlyGivenNames -merge -useContext x9
    have h9 : Same 41781441855546 s x9 := by
      unfold x9
      refine Same.ite ?_ ?_
      · exact Same.refl _ _
      · refine Same.seq ?_ (count_same ..) (by decide)
        exact Same.refl _ _
    clear_value x9
    extract_lets +onlyGivenNames -merge -useContext x10
    have h10 : Same 41781441855546 s x10 := by
      unfold x10
      refine Same.seq ?_ (put_same ..) (by decide)
      refine Same.seq ?_ (put_same ..) (by decide)
      assumption
    clear_value x10
    extract_lets +onlyGivenNames -merge -useContext x11
    have h11 : Same 41781441855546 s x11 := by
      unfold x11
      refine Same.seq ?_ (put_same ..) (by decide)
      assumption
    clear_value x11
    extract_lets +onlyGivenNames -merge -useContext x12
    have h12 : Same 41781441855546 s x12 := by
      unfold x12
      refine Same.seq ?_ (count_same ..) (by decide)
      assumption
    clear_value x12
    refine Same.seq ?_ (event_same ..) (by decide)
    assumption

theorem ddrWrite_same (s : State) (a1 : Nat) (a2 : List Byte) : Same 60473139527738 s (State.ddrWrite s a1 a2).1 := by
  unfold State.ddrWrite
  extract_lets +onlyGivenNames -merge -useContext x1
  clear_value x1
  split
  · rename_i v2 v3 v4
    dsimp only
    refine Same.seq ?_ (reportUe_same ..) (by decide)
    exact Same.refl _ _
  · rename_i v5 v6
    dsimp only
    constructor <;> intro hb <;> first | rfl | exact absurd hb (by decide)

theorem setCore_same (s : State) (a1 : Nat) (a2 : Core) : Same 8388608 s (State.setCore s a1 a2) := by
  unfold State.setCore
  constructor <;> intro hb <;> first | rfl | exact absurd hb (by decide)

theorem memWriteC_same (s : State) (a1 : Nat) (a2 : Nat) (a3 : Nat) (a4 : List Byte) (a5 : Bool) : Same 60473147916346 s (State.memWriteC s a1 a2 a3 a4 a5).1 := by
  unfold State.memWriteC
  split
  · rename_i v1 v2 v3
    dsimp only
    refine Same.seq ?_ (cidRefused_same ..) (by decide)
    exact Same.refl _ _
  · rename_i v4 v5 v6
    split
    · rename_i v7
      extract_lets +onlyGivenNames -merge -useContext x8
      clear_value x8
      dsimp only
      refine Same.seq ?_ (writeHost_same ..) (by decide)
      exact Same.refl _ _
    · rename_i v9
      refine Same.seq ?_ (ddrWrite_same ..) (by decide)
      exact Same.refl _ _
    · rename_i v10 v11 v12
      extract_lets +onlyGivenNames -merge -useContext x13
      clear_value x13
      dsimp only
      refine Same.seq ?_ (setCore_same ..) (by decide)
      exact Same.refl _ _

theorem writeAll_same (s : State) (a1 : Nat) (a2 : List MemWrite) : Same 60473147916346 s (State.writeAll s a1 a2).1 := by
  unfold State.writeAll
  split
  · rename_i v1 v2 v3
    dsimp only
    refine Same.seq ?_ (cidRefused_same ..) (by decide)
    exact Same.refl _ _
  · rename_i v4 v5
    split
    · rename_i v6 v7 v8
      dsimp only
      refine Same.seq ?_ (reportUe_same ..) (by decide)
      exact Same.refl _ _
    · rename_i v9 v10
      dsimp only
      refine Same.foldl _ _ _ ?_ ?_
      · intro x11 a11 h11
        refine Same.seq ?_ (memWriteC_same ..) (by decide)
        assumption
      · exact Same.refl _ _

theorem ddrRead_same (s : State) (a1 : Nat) (a2 : Nat) : Same 41781441855546 s (State.ddrRead s a1 a2).1 := by
  unfold State.ddrRead
  split
  · rename_i v1 v2 v3
    dsimp only
    refine Same.seq ?_ (reportUe_same ..) (by decide)
    exact Same.refl _ _
  · rename_i v4 v5
    dsimp only
    exact Same.refl _ _

theorem memReadC_same (s : State) (a1 : Nat) (a2 : Nat) (a3 : Nat) (a4 : Nat) : Same 41781441855546 s (State.memReadC s a1 a2 a3 a4).1 := by
  unfold State.memReadC
  split
  · rename_i v1 v2 v3
    dsimp only
    refine Same.seq ?_ (cidRefused_same ..) (by decide)
    exact Same.refl _ _
  · rename_i v4 v5 v6
    split
    · rename_i v7
      extract_lets +onlyGivenNames -merge -useContext x8
      clear_value x8
      refine Same.iteFst ?_ ?_
      · dsimp only
        exact Same.refl _ _
      · dsimp only
        exact Same.refl _ _
    · rename_i v9
      refine Same.seq ?_ (ddrRead_same ..) (by decide)
      exact Same.refl _ _
    · rename_i v10 v11 v12
      dsimp only
      exact Same.refl _ _

theorem walk_same (s : State) (a1 : Nat) (a2 : Nat) (a3 : Nat) (a4 : Nat) (a5 : Nat) (a6 : Nat) (a7 : Nat) (a8 : List Frag) : Same 41781441855546 s (State.walk s a1 a2 a3 a4 a5 a6 a7 a8).1 := by
  induction a3 generalizing s a1 a2 a4 a5 a6 a7 a8 with
  | zero =>
    rw [State.walk]
    dsimp only
    exact Same.refl _ _
  | succ n ih =>
    rw [State.walk]
    refine Same.iteFst ?_ ?_
    · dsimp only
      exact Same.refl _ _
    · split
      · rename_i v1 v2 v3 v4
        have h5 : Same 41781441855546 s v2 := by
          refine Same.of_fst v4 ?_
          refine Same.seq ?_ (memReadC_same ..) (by decide)
          exact Same.refl _ _
        dsimp only
        assumption
      · rename_i v6 v7 v8 v9
        have h10 : Same 41781441855546 s v7 := by
          refine Same.of_fst v9 ?_
          refine Same.seq ?_ (memReadC_same ..) (by decide)
          exact Same.refl _ _
        split
        · rename_i v11 v12
          dsimp only
          assumption
        · rename_i v13 v14 v15 v16
          refine Same.iteFst ?_ ?_
          · dsimp only
            assumption
          · refine Same.seq ?_ (ih ..) (by decide)
            assumption
        · rename_i v17 v18 v19 v20 v21 v22 v23
          extract_lets +onlyGivenNames -merge -useContext x24
          clear_value x24
          refine Same.iteFst ?_ ?_
          · dsimp only
            assumption
          · refine Same.seq ?_ (ih ..) (by decide)
            assumption

theorem frags_same (s : State) (a1 : Nat) (a2 : Buf) (a3 : Nat) : Same 41781441855546 s (State.frags s a1 a2 a3).1 := by
  unfold State.frags
  refine Same.iteFst ?_ ?_
  · dsimp only
    exact Same.refl _ _
  · refine Same.seq ?_ (walk_same ..) (by decide)
    exact Same.refl _ _

theorem bufWriteParts_same (s : State) (a1 : Nat) (a2 : Buf) (a3 : List (Nat × List Byte)) : Same 130841892094010 s (State.bufWriteParts s a1 a2 a3).1 := by
  unfold State.bufWriteParts
  extract_lets +onlyGivenNames -merge -useContext x1
  clear_value x1
  refine Same.iteFst ?_ ?_
  · dsimp only
    exact Same.refl _ _
  · refine Same.iteFst ?_ ?_
    · refine Same.seq ?_ (writeAll_same ..) (by decide)
      exact Same.refl _ _
    · split
      · rename_i v2 v3 v4 v5
        have h6 : Same 130841892094010 s v3 := by
          refine Same.of_fst v5 ?_
          refine Same.seq ?_ (frags_same ..) (by decide)
          exact Same.refl _ _
        extract_lets +onlyGivenNames -merge -useContext x7
        clear_value x7
        extract_lets +onlyGivenNames -merge -useContext x8
        clear_value x8
        refine Same.iteFst ?_ ?_
        · dsimp only
          assumption
        · extract_lets +onlyGivenNames -merge -useContext x9
          clear_value x9
          refine Same.iteFst ?_ ?_
          · refine Same.seq ?_ (writeAll_same ..) (by decide)
            assumption
          · refine Same.seq ?_ (writeAll_same ..) (by decide)
            refine Same.seq ?_ (fresh_same ..) (by decide)
            assumption
      · rename_i v10 v11 v12 v13
        have h14 : Same 130841892094010 s v11 := by
          refine Same.of_fst v13 ?_
          refine Same.seq ?_ (frags_same ..) (by decide)
          exact Same.refl _ _
        dsimp only
        assumption
      · rename_i v15 v16 v17 v18
        have h19 : Same 130841892094010 s v16 := by
          refine Same.of_fst v18 ?_
          refine Same.seq ?_ (frags_same ..) (by decide)
          exact Same.refl _ _
        dsimp only
        assumption
      · rename_i v20 v21 v22
        have h23 : Same 130841892094010 s v21 := by
          refine Same.of_fst v22 ?_
          refine Same.seq ?_ (frags_same ..) (by decide)
          exact Same.refl _ _
        dsimp only
        assumption

theorem bufWrite_same (s : State) (a1 : Nat) (a2 : Buf) (a3 : Nat) (a4 : List Byte) : Same 130841892094010 s (State.bufWrite s a1 a2 a3 a4).1 := by
  unfold State.bufWrite
  refine Same.seq ?_ (bufWriteParts_same ..) (by decide)
  exact Same.refl _ _

theorem scramble_same (s : State) (a1 : Nat) (a2 : Buf) (a3 : Nat) : Same 130841892094010 s (State.scramble s a1 a2 a3) := by
  unfold State.scramble
  extract_lets +onlyGivenNames -merge -useContext x1
  clear_value x1
  extract_lets +onlyGivenNames -merge -useContext x2
  have h2 : Same 130841892094010 s x2 := by
    unfold x2
    refine Same.seq ?_ (fresh_same ..) (by decide)
    exact Same.refl _ _
  clear_value x2
  refine Same.ite ?_ ?_
  · refine Same.seq ?_ (bufWrite_same ..) (by decide)
    assumption
  · refine Same.seq ?_ (keepHost_same ..) (by decide)
    assumption

theorem setQueue_same (s : State) (a1 : Nat) (a2 : Queue) : Same 4194304 s (State.setQueue s a1 a2) := by
  unfold State.setQueue
  constructor <;> intro hb <;> first | rfl | exact absurd hb (by decide)

theorem modLive_same (s : State) (a1 : Nat) (a2 : Nat) (a3 : Live → Live) : Same 4194304 s (State.modLive s a1 a2 a3) := by
  unfold State.modLive
  split
  · rename_i v1 v2
    exact Same.refl _ _
  · rename_i v3 v4 v5
    refine Same.seq ?_ (setQueue_same ..) (by decide)
    exact Same.refl _ _

theorem setTrig_same (s : State) (a1 : Nat) (a2 : TrigSlot) : Same 1048576 s (State.setTrig s a1 a2) := by
  unfold State.setTrig
  constructor <;> intro hb <;> first | rfl | exact absurd hb (by decide)

theorem trigInc_same (s : State) (a1 : Nat) (a2 : Nat) (a3 : Nat) : Same 1048578 s (State.trigInc s a1 a2 a3) := by
  unfold State.trigInc
  extract_lets +onlyGivenNames -merge -useContext x1
  clear_value x1
  refine Same.ite ?_ ?_
  · refine Same.seq ?_ (setTrig_same ..) (by decide)
    exact Same.refl _ _
  · refine Same.seq ?_ (count_same ..) (by decide)
    exact Same.refl _ _

theorem raiseCq_same (s : State) (a1 : Nat) (a2 : Queue) : Same 35184376283184 s (State.raiseCq s a1 a2) := by
  unfold State.raiseCq
  refine Same.seq ?_ (vector_same ..) (by decide)
  refine Same.seq ?_ (setQueue_same ..) (by decide)
  exact Same.refl _ _

theorem cqWrite_same (s : State) (a1 : Nat) (a2 : Queue) (a3 : List Byte) : Same 60473152110650 s (State.cqWrite s a1 a2 a3).1 := by
  unfold State.cqWrite
  extract_lets +onlyGivenNames -merge -useContext x1
  clear_value x1
  split
  · rename_i v2 v3 v4
    have h5 : Same 60473152110650 s v3 := by
      refine Same.of_fst v4 ?_
      refine Same.seq ?_ (memWriteC_same ..) (by decide)
      exact Same.refl _ _
    dsimp only
    assumption
  · rename_i v6 v7 v8 v9 v10
    have h11 : Same 60473152110650 s v7 := by
      refine Same.of_fst v10 ?_
      refine Same.seq ?_ (memWriteC_same ..) (by decide)
      exact Same.refl _ _
    extract_lets +onlyGivenNames -merge -useContext x12
    clear_value x12
    extract_lets +onlyGivenNames -merge -useContext x13
    have h13 : Same 60473152110650 s x13 := by
      unfold x13
      refine Same.seq ?_ (setQueue_same ..) (by decide)
      assumption
    clear_value x13
    extract_lets +onlyGivenNames -merge -useContext x14
    have h14 : Same 60473152110650 s x14 := by
      unfold x14
      refine Same.ite ?_ ?_
      · refine Same.seq ?_ (count_same ..) (by decide)
        assumption
      · assumption
    clear_value x14
    dsimp only
    refine Same.ite ?_ ?_
    · refine Same.seq ?_ (raiseCq_same ..) (by decide)
      assumption
    · assumption

theorem complete_same (s : State) (a1 : Nat) (a2 : List Byte) : Same 60473152110650 s (State.complete s a1 a2) := by
  unfold State.complete
  split
  · rename_i v1 v2
    exact Same.refl _ _
  · rename_i v3 v4 v5
    refine Same.ite ?_ ?_
    · exact Same.refl _ _
    · refine Same.ite ?_ ?_
      · refine Same.seq ?_ (setQueue_same ..) (by decide)
        exact Same.refl _ _
      · split
        · rename_i v6 v7 v8
          have h9 : Same 60473152110650 s v7 := by
            refine Same.of_fst v8 ?_
            refine Same.seq ?_ (cqWrite_same ..) (by decide)
            exact Same.refl _ _
          assumption
        · rename_i v10 v11 v12
          have h13 : Same 60473152110650 s v11 := by
            refine Same.of_fst v12 ?_
            refine Same.seq ?_ (cqWrite_same ..) (by decide)
            exact Same.refl _ _
          refine Same.seq ?_ (setQueue_same ..) (by decide)
          assumption

theorem writeEnd_same (s : State) (a1 : Nat) (a2 : Queue) (a3 : Live) : Same 60475300642874 s (State.writeEnd s a1 a2 a3) := by
  unfold State.writeEnd
  split
  · rename_i v1 v2
    exact Same.refl _ _
  · rename_i v3 v4 v5 v6 v7
    extract_lets +onlyGivenNames -merge -useContext x8
    clear_value x8
    split
    · rename_i v9 v10 v11
      constructor <;> intro hb <;> first | rfl | exact absurd hb (by decide)
    · rename_i v12 v13
      extract_lets +onlyGivenNames -merge -useContext x14
      clear_value x14
      extract_lets +onlyGivenNames -merge -useContext x15
      clear_value x15
      extract_lets +onlyGivenNames -merge -useContext x16
      clear_value x16
      extract_lets +onlyGivenNames -merge -useContext x17
      have h17 : Same 60475300642874 s x17 := by
        unfold x17
        refine Same.ite ?_ ?_
        · refine Same.seq ?_ (count_same ..) (by decide)
          exact Same.refl _ _
        · exact Same.refl _ _
      clear_value x17
      extract_lets +onlyGivenNames -merge -useContext x18
      have h18 : Same 60475300642874 s x18 := by
        unfold x18
        refine Same.ite ?_ ?_
        · refine Same.seq ?_ (count_same ..) (by decide)
          assumption
        · assumption
      clear_value x18
      extract_lets +onlyGivenNames -merge -useContext x19
      have h19 : Same 60475300642874 s x19 := by
        unfold x19
        refine Same.ite ?_ ?_
        · refine Same.seq ?_ (trigInc_same ..) (by decide)
          assumption
        · assumption
      clear_value x19
      refine Same.ite ?_ ?_
      · assumption
      · refine Same.seq ?_ (complete_same ..) (by decide)
        assumption

theorem flushQueue_same (s : State) (a1 : Nat) (a2 : Nat) : Same 60475300651066 s (State.flushQueue s a1 a2) := by
  induction a2 generalizing s a1 with
  | zero =>
    rw [State.flushQueue]
    exact Same.refl _ _
  | succ n ih =>
    rw [State.flushQueue]
    split
    · rename_i v1 v2
      exact Same.refl _ _
    · rename_i v3 v4 v5
      extract_lets +onlyGivenNames -merge -useContext x6
      clear_value x6
      split
      · rename_i v7 v8
        exact Same.refl _ _
      · rename_i v9 v10 v11
        extract_lets +onlyGivenNames -merge -useContext x12
        clear_value x12
        extract_lets +onlyGivenNames -merge -useContext x13
        have h13 : Same 60475300651066 s x13 := by
          unfold x13
          refine Same.ite ?_ ?_
          · constructor <;> intro hb <;> first | rfl | exact absurd hb (by decide)
          · exact Same.refl _ _
        clear_value x13
        refine Same.seq ?_ (ih ..) (by decide)
        refine Same.seq ?_ (writeEnd_same ..) (by decide)
        refine Same.seq ?_ (setQueue_same ..) (by decide)
        assumption

theorem endEntry_same (s : State) (a1 : Nat) (a2 : Nat) (a3 : Nat) (a4 : Nat) (a5 : Nat) (a6 : Bool) : Same 60475300651066 s (State.endEntry s a1 a2 a3 a4 a5 a6) := by
  unfold State.endEntry
  extract_lets +onlyGivenNames -merge -useContext x1
  have h1 : Same 60475300651066 s x1 := by
    unfold x1
    refine Same.seq ?_ (modLive_same ..) (by decide)
    exact Same.refl _ _
  clear_value x1
  split
  · rename_i v2 v3
    assumption
  · rename_i v4 v5 v6
    refine Same.seq ?_ (flushQueue_same ..) (by decide)
    assumption

theorem setQp_same (s : State) (a1 : Nat) (a2 : Qp) : Same 8192 s (State.setQp s a1 a2) := by
  unfold State.setQp
  constructor <;> intro hb <;> first | rfl | exact absurd hb (by decide)

theorem sysWrite_body : State.sysWrite = fun (s : State) (a : Nat) (bs : List Byte) =>
  match s.sysCheck a bs.length with
  | .error _ => s
  | .ok _ => (s.ddrWrite a bs).1 := rfl

theorem sysWrite_same (s : State) (a1 : Nat) (a2 : List Byte) : Same 60473139527738 s (State.sysWrite s a1 a2) := by
  rw [sysWrite_body]
  beta_reduce
  split
  · rename_i v1 v2 v3
    exact Same.refl _ _
  · rename_i v4 v5 v6
    refine Same.seq ?_ (ddrWrite_same ..) (by decide)
    exact Same.refl _ _

theorem spill_same (s : State) (a1 : Nat) : Same 60473139552314 s (State.spill s a1) := by
  unfold State.spill
  split
  · rename_i v1 v2
    exact Same.refl _ _
  · rename_i v3 v4 v5
    extract_lets +onlyGivenNames -merge -useContext x6
    clear_value x6
    refine Same.ite ?_ ?_
    · extract_lets +onlyGivenNames -merge -useContext x7
      have h7 : Same 60473139552314 s x7 := by
        unfold x7
        refine Same.seq ?_ (setQp_same ..) (by decide)
        exact Same.refl _ _
      clear_value x7
      refine Same.trans h7 ?_
      constructor <;> intro hb <;> first | rfl | exact absurd hb (by decide)
    · extract_lets +onlyGivenNames -merge -useContext x8
      have h8 : Same 60473139552314 s x8 := by
        unfold x8
        refine Same.seq ?_ (setQp_same ..) (by decide)
        exact Same.refl _ _
      clear_value x8
      extract_lets +onlyGivenNames -merge -useContext x9
      clear_value x9
      extract_lets +onlyGivenNames -merge -useContext x10
      have h10 : Same 60473139552314 s x10 := by
        unfold x10
        refine Same.trans h8 ?_
        constructor <;> intro hb <;> first | rfl | exact absurd hb (by decide)
      clear_value x10
      refine Same.ite ?_ ?_
      · refine Same.seq ?_ (sysWrite_same ..) (by decide)
        assumption
      · refine Same.seq ?_ (writeHost_same ..) (by decide)
        assumption

theorem settle_same (s : State) (a1 : Nat) : Same 60473139552314 s (State.settle s a1) := by
  unfold State.settle
  split
  · rename_i v1 v2 v3
    refine Same.ite ?_ ?_
    · refine Same.seq ?_ (spill_same ..) (by decide)
      exact Same.refl _ _
    · exact Same.refl _ _
  · rename_i v4 v5
    exact Same.refl _ _

theorem endAll_same (s : State) (a1 : Nat) (a2 : Nat) : Same 60475300651066 s (State.endAll s a1 a2) := by
  unfold State.endAll
  split
  · rename_i v1 v2
    exact Same.refl _ _
  · rename_i v3 v4 v5
    refine Same.foldl _ _ _ ?_ ?_
    · intro x6 a6 h6
      refine Same.ite ?_ ?_
      · refine Same.seq ?_ (endEntry_same ..) (by decide)
        assumption
      · refine Same.seq ?_ (endEntry_same ..) (by decide)
        assumption
    · exact Same.refl _ _

theorem errorHere_same (s : State) (a1 : Nat) (a2 : Nat) (a3 : Nat) : Same 60475300652090 s (State.errorHere s a1 a2 a3) := by
  unfold State.errorHere
  split
  · rename_i v1 v2
    exact Same.refl _ _
  · rename_i v3 v4 v5
    refine Same.ite ?_ ?_
    · exact Same.refl _ _
    · extract_lets +onlyGivenNames -merge -useContext x6
      clear_value x6
      extract_lets +onlyGivenNames -merge -useContext x7
      have h7 : Same 60475300652090 s x7 := by
        unfold x7
        refine Same.seq ?_ (setQp_same ..) (by decide)
        exact Same.refl _ _
      clear_value x7
      extract_lets +onlyGivenNames -merge -useContext x8
      have h8 : Same 60475300652090 s x8 := by
        unfold x8
        refine Same.trans h7 ?_
        constructor <;> intro hb <;> first | rfl | exact absurd hb (by decide)
      clear_value x8
      refine Same.seq ?_ (endAll_same ..) (by decide)
      refine Same.seq ?_ (endAll_same ..) (by decide)
      assumption

theorem setTinker_same (s : State) (a1 : Nat) (a2 : TinkerEng) : Same 68719476736 s (State.setTinker s a1 a2) := by
  unfold State.setTinker
  constructor <;> intro hb <;> first | rfl | exact absurd hb (by decide)

theorem sramUe_same (s : State) (a1 : Nat) (a2 : Nat) (a3 : Nat) : Same 68719476738 s (State.sramUe s a1 a2 a3) := by
  unfold State.sramUe
  refine Same.seq ?_ (setTinker_same ..) (by decide)
  refine Same.seq ?_ (count_same ..) (by decide)
  exact Same.refl _ _

theorem checkCtx_same (s : State) (a1 : Nat) : Same 130912764322874 s (State.checkCtx s a1) := by
  unfold State.checkCtx
  refine Same.ite ?_ ?_
  · extract_lets +onlyGivenNames -merge -useContext x1
    clear_value x1
    extract_lets +onlyGivenNames -merge -useContext x2
    have h2 : Same 130912764322874 s x2 := by
      unfold x2
      constructor <;> intro hb <;> first | rfl | exact absurd hb (by decide)
    clear_value x2
    extract_lets +onlyGivenNames -merge -useContext x3
    have h3 : Same 130912764322874 s x3 := by
      unfold x3
      refine Same.seq ?_ (fresh_same ..) (by decide)
      refine Same.seq ?_ (sramUe_same ..) (by decide)
      assumption
    clear_value x3
    refine Same.seq ?_ (errorHere_same ..) (by decide)
    refine Same.seq ?_ (count_same ..) (by decide)
    assumption
  · exact Same.refl _ _

theorem showBank_same (s : State) (a1 : Nat) : Same 2 s (State.showBank s a1) := by
  unfold State.showBank
  refine Same.seq ?_ (put_same ..) (by decide)
  refine Same.seq ?_ (put_same ..) (by decide)
  exact Same.refl _ _

theorem modQp_same (s : State) (a1 : Nat) (a2 : Qp → Qp) : Same 8192 s (State.modQp s a1 a2) := by
  unfold State.modQp
  split
  · rename_i v1 v2 v3
    refine Same.seq ?_ (setQp_same ..) (by decide)
    exact Same.refl _ _
  · rename_i v4 v5
    exact Same.refl _ _

theorem evict_same (s : State) (a1 : Nat) : Same 60473139552314 s (State.evict s a1) := by
  unfold State.evict
  extract_lets +onlyGivenNames -merge -useContext x1
  have h1 : Same 60473139552314 s x1 := by
    unfold x1
    refine Same.seq ?_ (count_same ..) (by decide)
    refine Same.seq ?_ (modQp_same ..) (by decide)
    exact Same.refl _ _
  extract_lets +onlyGivenNames -merge -useContext x2
  clear_value x2
  extract_lets +onlyGivenNames -merge -useContext x3
  have h3 : Same 60473139552314 s x3 := by
    unfold x3
    refine Same.trans h1 ?_
    constructor <;> intro hb <;> first | rfl | exact absurd hb (by decide)
  extract_lets +onlyGivenNames -merge -useContext x4
  refine Same.ite ?_ ?_
  · assumption
  · split
    · rename_i v5 v6 v7
      refine Same.seq ?_ (spill_same ..) (by decide)
      assumption
    · rename_i v8 v9
      assumption

theorem makeRoom_same (s : State) (a1 : Nat) (a2 : Nat) : Same 60473139552314 s (State.makeRoom s a1 a2) := by
  unfold State.makeRoom
  extract_lets +onlyGivenNames -merge -useContext x1
  extract_lets +onlyGivenNames -merge -useContext x2
  clear_value x2
  refine Same.ite ?_ ?_
  · split
    · rename_i v3 v4 v5
      refine Same.seq ?_ (showBank_same ..) (by decide)
      refine Same.seq ?_ (evict_same ..) (by decide)
      exact Same.refl _ _
    · rename_i v6 v7
      exact Same.refl _ _
  · refine Same.ite ?_ ?_
    · split
      · rename_i v8 v9 v10
        refine Same.seq ?_ (evict_same ..) (by decide)
        exact Same.refl _ _
      · rename_i v11 v12
        exact Same.refl _ _
    · exact Same.refl _ _

theorem bringIn_same (s : State) (a1 : Nat) : Same 60473139552314 s (State.bringIn s a1) := by
  unfold State.bringIn
  split
  · rename_i v1 v2
    exact Same.refl _ _
  · rename_i v3 v4 v5
    extract_lets +onlyGivenNames -merge -useContext x6
    clear_value x6
    extract_lets +onlyGivenNames -merge -useContext x7
    have h7 : Same 60473139552314 s x7 := by
      unfold x7
      refine Same.seq ?_ (makeRoom_same ..) (by decide)
      exact Same.refl _ _
    clear_value x7
    extract_lets +onlyGivenNames -merge -useContext x8
    clear_value x8
    extract_lets +onlyGivenNames -merge -useContext x9
    have h9 : Same 60473139552314 s x9 := by
      unfold x9
      refine Same.trans h7 ?_
      constructor <;> intro hb <;> first | rfl | exact absurd hb (by decide)
    clear_value x9
    split
    · rename_i v10 v11 v12
      refine Same.seq ?_ (showBank_same ..) (by decide)
      refine Same.seq ?_ (modQp_same ..) (by decide)
      assumption
    · rename_i v13 v14
      assumption

theorem sysRead_body : State.sysRead = fun (s : State) (a n : Nat) =>
  match s.sysCheck a n with
  | .error e => (s, .error e)
  | .ok _ => s.ddrRead a n := rfl

/-- A system read either fails its check or is a read of device memory. -/
theorem sysRead_cases (s : State) (a n : Nat) (P : State × Except MemErr (List Byte) → Prop) (h1 : ∀ e, P (s, .error e))
    (h2 : P (s.ddrRead a n)) : P (s.sysRead a n) := by
  rw [sysRead_body]
  beta_reduce
  generalize s.sysCheck a n = c
  cases c with
  | error e => exact h1 e
  | ok u => exact h2

theorem sysRead_same (s : State) (a1 : Nat) (a2 : Nat) : Same 41781441855546 s (State.sysRead s a1 a2).1 :=
  sysRead_cases s a1 a2 (fun x => Same 41781441855546 s x.1) (fun _ => Same.refl _ _) (Same.seq (Same.refl _ _) (ddrRead_same ..) (by decide))

theorem readSpill_same (s : State) (a1 : Qp) : Same 41781441855546 s (State.readSpill s a1).1 := by
  unfold State.readSpill
  extract_lets +onlyGivenNames -merge -useContext x1
  clear_value x1
  refine Same.iteFst ?_ ?_
  · split
    · rename_i v2 v3 v4 v5
      have h6 : Same 41781441855546 s v3 := by
        refine Same.of_fst v5 ?_
        refine Same.seq ?_ (sysRead_same ..) (by decide)
        exact Same.refl _ _
      dsimp only
      refine Same.seq ?_ (count_same ..) (by decide)
      assumption
    · rename_i v7 v8 v9 v10
      have h11 : Same 41781441855546 s v8 := by
        refine Same.of_fst v10 ?_
        refine Same.seq ?_ (sysRead_same ..) (by decide)
        exact Same.refl _ _
      dsimp only
      refine Same.seq ?_ (count_same ..) (by decide)
      assumption
  · extract_lets +onlyGivenNames -merge -useContext x12
    clear_value x12
    dsimp only
    refine Same.seq ?_ (count_same ..) (by decide)
    exact Same.refl _ _

theorem fetchIn_same (s : State) (a1 : Nat) : Same 60475300668474 s (State.fetchIn s a1) := by
  unfold State.fetchIn
  split
  · rename_i v1 v2
    exact Same.refl _ _
  · rename_i v3 v4 v5
    refine Same.ite ?_ ?_
    · exact Same.refl _ _
    · refine Same.ite ?_ ?_
      · refine Same.seq ?_ (bringIn_same ..) (by decide)
        exact Same.refl _ _
      · split
        · rename_i v6 v7 v8 v9
          have h10 : Same 60475300668474 s v7 := by
            refine Same.of_fst v9 ?_
            refine Same.seq ?_ (readSpill_same ..) (by decide)
            exact Same.refl _ _
          refine Same.ite ?_ ?_
          · refine Same.seq ?_ (bringIn_same ..) (by decide)
            refine Same.seq ?_ (setQp_same ..) (by decide)
            assumption
          · refine Same.seq ?_ (errorHere_same ..) (by decide)
            refine Same.seq ?_ (bringIn_same ..) (by decide)
            refine Same.seq ?_ (count_same ..) (by decide)
            assumption
        · rename_i v11 v12 v13
          have h14 : Same 60475300668474 s v12 := by
            refine Same.of_fst v13 ?_
            refine Same.seq ?_ (readSpill_same ..) (by decide)
            exact Same.refl _ _
          refine Same.seq ?_ (errorHere_same ..) (by decide)
          refine Same.seq ?_ (bringIn_same ..) (by decide)
          refine Same.seq ?_ (count_same ..) (by decide)
          assumption

theorem need_same (s : State) (a1 : Nat) : Same 130912764322874 s (State.need s a1) := by
  unfold State.need
  split
  · rename_i v1 v2
    exact Same.refl _ _
  · rename_i v3 v4 v5
    refine Same.ite ?_ ?_
    · refine Same.seq ?_ (checkCtx_same ..) (by decide)
      exact Same.refl _ _
    · refine Same.ite ?_ ?_
      · refine Same.seq ?_ (fetchIn_same ..) (by decide)
        exact Same.refl _ _
      · refine Same.ite ?_ ?_
        · refine Same.seq ?_ (fetchIn_same ..) (by decide)
          refine Same.seq ?_ (count_same ..) (by decide)
          exact Same.refl _ _
        · exact Same.refl _ _

theorem qpError_same (s : State) (a1 : Nat) (a2 : Nat) (a3 : Nat) : Same 130912764322874 s (State.qpError s a1 a2 a3) := by
  unfold State.qpError
  refine Same.seq ?_ (settle_same ..) (by decide)
  refine Same.seq ?_ (errorHere_same ..) (by decide)
  refine Same.seq ?_ (need_same ..) (by decide)
  exact Same.refl _ _

theorem avOf_same (s : State) (a1 : QpCtx) : Same 41781441855546 s (State.avOf s a1).1 := by
  unfold State.avOf
  extract_lets +onlyGivenNames -merge -useContext x1
  clear_value x1
  extract_lets +onlyGivenNames -merge -useContext x2
  clear_value x2
  refine Same.iteFst ?_ ?_
  · dsimp only
    exact Same.refl _ _
  · extract_lets +onlyGivenNames -merge -useContext x3
    clear_value x3
    split
    · rename_i v4 v5 v6 v7
      have h8 : Same 41781441855546 s v5 := by
        refine Same.of_fst v7 ?_
        refine Same.seq ?_ (memReadC_same ..) (by decide)
        exact Same.refl _ _
      extract_lets +onlyGivenNames -merge -useContext x9
      clear_value x9
      dsimp only
      assumption
    · rename_i v10 v11 v12
      have h13 : Same 41781441855546 s v11 := by
        refine Same.of_fst v12 ?_
        refine Same.seq ?_ (memReadC_same ..) (by decide)
        exact Same.refl _ _
      dsimp only
      assumption
    · rename_i v14 v15 v16
      have h17 : Same 41781441855546 s v15 := by
        refine Same.of_fst v16 ?_
        refine Same.seq ?_ (memReadC_same ..) (by decide)
        exact Same.refl _ _
      dsimp only
      assumption
    · rename_i v18 v19 v20
      have h21 : Same 41781441855546 s v19 := by
        refine Same.of_fst v20 ?_
        refine Same.seq ?_ (memReadC_same ..) (by decide)
        exact Same.refl _ _
      dsimp only
      assumption

theorem pktFrame_same (s : State) (a1 : QpCtx) (a2 : Bool) (a3 : TPkt) : Same 41781441855546 s (State.pktFrame s a1 a2 a3).1 := by
  unfold State.pktFrame
  extract_lets +onlyGivenNames -merge -useContext x1
  clear_value x1
  refine Same.iteFst ?_ ?_
  · dsimp only
    exact Same.refl _ _
  · split
    · rename_i v2 v3 v4 v5 v6 v7 v8
      have h9 : Same 41781441855546 s v4 := by
        refine Same.of_fst v7 ?_
        refine Same.seq ?_ (avOf_same ..) (by decide)
        exact Same.refl _ _
      extract_lets +onlyGivenNames -merge -useContext x10
      clear_value x10
      extract_lets +onlyGivenNames -merge -useContext x11
      clear_value x11
      extract_lets +onlyGivenNames -merge -useContext x12
      clear_value x12
      dsimp only
      assumption
    · rename_i v13 v14 v15 v16 v17
      have h18 : Same 41781441855546 s v15 := by
        refine Same.of_fst v17 ?_
        refine Same.seq ?_ (avOf_same ..) (by decide)
        exact Same.refl _ _
      dsimp only
      assumption
    · rename_i v19 v20 v21 v22 v23 v24 v25
      have h26 : Same 41781441855546 s v21 := by
        refine Same.of_fst v24 ?_
        refine Same.seq ?_ (avOf_same ..) (by decide)
        exact Same.refl _ _
      dsimp only
      assumption

theorem pathDrop_same (s : State) (a1 : Frame) : Same 1024 s (State.pathDrop s a1) := by
  unfold State.pathDrop
  split
  · rename_i v1 v2 v3
    refine Same.ite ?_ ?_
    · constructor <;> intro hb <;> first | rfl | exact absurd hb (by decide)
    · exact Same.refl _ _
  · rename_i v4 v5
    exact Same.refl _ _

theorem enter_same (s : State) (a1 : Nat) : Same 2 s (State.enter s a1) := by
  unfold State.enter
  refine Same.seq ?_ (put_same ..) (by decide)
  exact Same.refl _ _

theorem setFlowRt_same (s : State) (a1 : Nat) (a2 : FlowRt) : Same 64 s (State.setFlowRt s a1 a2) := by
  unfold State.setFlowRt
  constructor <;> intro hb <;> first | rfl | exact absurd hb (by decide)

theorem setPort_same (s : State) (a1 : Nat) (a2 : Port) : Same 128 s (State.setPort s a1 a2) := by
  unfold State.setPort
  constructor <;> intro hb <;> first | rfl | exact absurd hb (by decide)

theorem sendOs_same (s : State) (a1 : Nat) (a2 : OrdSet) : Same 35184372088832 s (State.sendOs s a1 a2) := by
  unfold State.sendOs
  refine Same.seq ?_ (emit_same ..) (by decide)
  exact Same.refl _ _

theorem laneRequest_same (s : State) (a1 : Nat) (a2 : Nat) (a3 : Nat) (a4 : Nat) : Same 35184372088960 s (State.laneRequest s a1 a2 a3 a4) := by
  unfold State.laneRequest
  extract_lets +onlyGivenNames -merge -useContext x1
  clear_value x1
  extract_lets +onlyGivenNames -merge -useContext x2
  clear_value x2
  extract_lets +onlyGivenNames -merge -useContext x3
  clear_value x3
  extract_lets +onlyGivenNames -merge -useContext x4
  clear_value x4
  refine Same.seq ?_ (sendOs_same ..) (by decide)
  refine Same.seq ?_ (setPort_same ..) (by decide)
  exact Same.refl _ _

theorem raiseLanes_same (s : State) (a1 : Nat) : Same 35184372088960 s (State.raiseLanes s a1) := by
  unfold State.raiseLanes
  refine Same.ite ?_ ?_
  · refine Same.seq ?_ (laneRequest_same ..) (by decide)
    exact Same.refl _ _
  · exact Same.refl _ _

theorem sendPause_same (s : State) (a1 : Nat) (a2 : Nat) (a3 : Nat) (a4 : Bool) : Same 35184372088832 s (State.sendPause s a1 a2 a3 a4) := by
  unfold State.sendPause
  extract_lets +onlyGivenNames -merge -useContext x1
  clear_value x1
  refine Same.ite ?_ ?_
  · extract_lets +onlyGivenNames -merge -useContext x2
    refine Same.seq ?_ (sendOs_same ..) (by decide)
    exact Same.refl _ _
  · split
    · rename_i v3 v4
      refine Same.seq ?_ (emit_same ..) (by decide)
      exact Same.refl _ _
    · rename_i v5 v6
      refine Same.seq ?_ (emit_same ..) (by decide)
      exact Same.refl _ _
    · rename_i v7 v8 v9
      exact Same.refl _ _

theorem checkXoff_same (s : State) (a1 : Nat) (a2 : Nat) (a3 : Nat) : Same 35184372088960 s (State.checkXoff s a1 a2 a3) := by
  unfold State.checkXoff
  extract_lets +onlyGivenNames -merge -useContext x1
  clear_value x1
  extract_lets +onlyGivenNames -merge -useContext x2
  clear_value x2
  refine Same.ite ?_ ?_
  · extract_lets +onlyGivenNames -merge -useContext x3
    clear_value x3
    extract_lets +onlyGivenNames -merge -useContext x4
    have h4 : Same 35184372088960 s x4 := by
      unfold x4
      refine Same.seq ?_ (setPort_same ..) (by decide)
      exact Same.refl _ _
    clear_value x4
    refine Same.seq ?_ (raiseLanes_same ..) (by decide)
    refine Same.seq ?_ (sendPause_same ..) (by decide)
    assumption
  · exact Same.refl _ _

theorem holdCells_same (s : State) (a1 : Nat) (a2 : Nat) (a3 : Nat) (a4 : Nat) : Same 35184372088960 s (State.holdCells s a1 a2 a3 a4) := by
  unfold State.holdCells
  extract_lets +onlyGivenNames -merge -useContext x1
  clear_value x1
  extract_lets +onlyGivenNames -merge -useContext x2
  clear_value x2
  refine Same.seq ?_ (checkXoff_same ..) (by decide)
  refine Same.seq ?_ (setPort_same ..) (by decide)
  exact Same.refl _ _

theorem letIn_same (s : State) (a1 : Frame) : Same 35184372089026 s (State.letIn s a1).1 := by
  unfold State.letIn
  extract_lets +onlyGivenNames -merge -useContext x1
  have h1 : Same 35184372089026 s x1 := by
    unfold x1
    refine Same.seq ?_ (enter_same ..) (by decide)
    exact Same.refl _ _
  clear_value x1
  extract_lets +onlyGivenNames -merge -useContext x2
  clear_value x2
  extract_lets +onlyGivenNames -merge -useContext x3
  have h3 : Same 35184372089026 s x3 := by
    unfold x3
    refine Same.ite ?_ ?_
    · refine Same.seq ?_ (setFlowRt_same ..) (by decide)
      assumption
    · assumption
  clear_value x3
  split
  · rename_i v4 v5 v6 v7 v8
    dsimp only
    refine Same.seq ?_ (holdCells_same ..) (by decide)
    assumption
  · rename_i v9 v10
    dsimp only
    assumption

theorem lostDrop_same (s : State) (a1 : Frame) : Same 1026 s (State.lostDrop s a1) := by
  unfold State.lostDrop
  refine Same.seq ?_ (pathDrop_same ..) (by decide)
  refine Same.seq ?_ (count_same ..) (by decide)
  exact Same.refl _ _

theorem leave_same (s : State) (a1 : Nat) : Same 2 s (State.leave s a1) := by
  unfold State.leave
  refine Same.seq ?_ (put_same ..) (by decide)
  exact Same.refl _ _

theorem checkXon_same (s : State) (a1 : Nat) (a2 : Nat) (a3 : Nat) : Same 35184372088960 s (State.checkXon s a1 a2 a3) := by
  unfold State.checkXon
  extract_lets +onlyGivenNames -merge -useContext x1
  clear_value x1
  extract_lets +onlyGivenNames -merge -useContext x2
  clear_value x2
  refine Same.ite ?_ ?_
  · extract_lets +onlyGivenNames -merge -useContext x3
    clear_value x3
    extract_lets +onlyGivenNames -merge -useContext x4
    have h4 : Same 35184372088960 s x4 := by
      unfold x4
      refine Same.seq ?_ (setPort_same ..) (by decide)
      exact Same.refl _ _
    clear_value x4
    refine Same.ite ?_ ?_
    · assumption
    · refine Same.seq ?_ (sendPause_same ..) (by decide)
      assumption
  · exact Same.refl _ _

theorem freeCells_same (s : State) (a1 : Nat) (a2 : Nat) (a3 : Nat) (a4 : Nat) : Same 35184372088960 s (State.freeCells s a1 a2 a3 a4) := by
  unfold State.freeCells
  extract_lets +onlyGivenNames -merge -useContext x1
  clear_value x1
  extract_lets +onlyGivenNames -merge -useContext x2
  clear_value x2
  refine Same.seq ?_ (checkXon_same ..) (by decide)
  refine Same.seq ?_ (setPort_same ..) (by decide)
  exact Same.refl _ _

theorem purgeKept_same (s : State) : Same 64 s (State.purgeKept s) := by
  unfold State.purgeKept
  extract_lets +onlyGivenNames -merge -useContext x1
  clear_value x1
  constructor <;> intro hb <;> first | rfl | exact absurd hb (by decide)

theorem frameGone_same (s : State) (a1 : Frame) : Same 35184372089026 s (State.frameGone s a1) := by
  unfold State.frameGone
  extract_lets +onlyGivenNames -merge -useContext x1
  have h1 : Same 35184372089026 s x1 := by
    unfold x1
    refine Same.ite ?_ ?_
    · refine Same.seq ?_ (leave_same ..) (by decide)
      exact Same.refl _ _
    · exact Same.refl _ _
  clear_value x1
  extract_lets +onlyGivenNames -merge -useContext x2
  have h2 : Same 35184372089026 s x2 := by
    unfold x2
    split
    · rename_i v3 v4 v5 v6 v7
      refine Same.seq ?_ (freeCells_same ..) (by decide)
      assumption
    · rename_i v8 v9
      assumption
  clear_value x2
  extract_lets +onlyGivenNames -merge -useContext x10
  clear_value x10
  extract_lets +onlyGivenNames -merge -useContext x11
  have h11 : Same 35184372089026 s x11 := by
    unfold x11
    refine Same.ite ?_ ?_
    · refine Same.seq ?_ (setFlowRt_same ..) (by decide)
      assumption
    · assumption
  clear_value x11
  refine Same.ite ?_ ?_
  · assumption
  · refine Same.seq ?_ (purgeKept_same ..) (by decide)
    assumption

theorem flowDepth_same (s : State) (a1 : Nat) (a2 : Int) : Same 64 s (State.flowDepth s a1 a2) := by
  unfold State.flowDepth
  refine Same.ite ?_ ?_
  · exact Same.refl _ _
  · extract_lets +onlyGivenNames -merge -useContext x1
    clear_value x1
    extract_lets +onlyGivenNames -merge -useContext x2
    clear_value x2
    refine Same.seq ?_ (setFlowRt_same ..) (by decide)
    exact Same.refl _ _

theorem sampleDepth_same (s : State) (a1 : Nat) (a2 : Nat) (a3 : Nat) : Same 8 s (State.sampleDepth s a1 a2 a3) := by
  unfold State.sampleDepth
  refine Same.ite ?_ ?_
  · exact Same.refl _ _
  · extract_lets +onlyGivenNames -merge -useContext x1
    clear_value x1
    extract_lets +onlyGivenNames -merge -useContext x2
    clear_value x2
    extract_lets +onlyGivenNames -merge -useContext x3
    clear_value x3
    constructor <;> intro hb <;> first | rfl | exact absurd hb (by decide)

theorem enqueue_same (s : State) (a1 : Nat) (a2 : Nat) (a3 : Frame) : Same 200 s (State.enqueue s a1 a2 a3) := by
  unfold State.enqueue
  extract_lets +onlyGivenNames -merge -useContext x1
  clear_value x1
  extract_lets +onlyGivenNames -merge -useContext x2
  clear_value x2
  extract_lets +onlyGivenNames -merge -useContext x3
  have h3 : Same 200 s x3 := by
    unfold x3
    refine Same.seq ?_ (setPort_same ..) (by decide)
    exact Same.refl _ _
  clear_value x3
  refine Same.seq ?_ (flowDepth_same ..) (by decide)
  refine Same.seq ?_ (sampleDepth_same ..) (by decide)
  assumption

theorem toEndpoint_same (s : State) (a1 : Frame) (a2 : Bool) : Same 35184372089538 s (State.toEndpoint s a1 a2) := by
  unfold State.toEndpoint
  split
  · rename_i v1 v2 v3 v4
    refine Same.ite ?_ ?_
    · refine Same.seq ?_ (count_same ..) (by decide)
      refine Same.seq ?_ (frameGone_same ..) (by decide)
      exact Same.refl _ _
    · constructor <;> intro hb <;> first | rfl | exact absurd hb (by decide)

theorem toStage_same (s : State) (a1 : Frame) (a2 : Nat) (a3 : Bool) (a4 : Bool) : Same 2048 s (State.toStage s a1 a2 a3 a4) := by
  unfold State.toStage
  split
  · rename_i v1 v2 v3 v4
    constructor <;> intro hb <;> first | rfl | exact absurd hb (by decide)

theorem exitMesh_same (s : State) (a1 : Frame) (a2 : MeshExit) : Same 35184372092618 s (State.exitMesh s a1 a2) := by
  unfold State.exitMesh
  split
  · rename_i v1 v2 v3
    extract_lets +onlyGivenNames -merge -useContext x4
    clear_value x4
    refine Same.ite ?_ ?_
    · refine Same.seq ?_ (lostDrop_same ..) (by decide)
      refine Same.seq ?_ (frameGone_same ..) (by decide)
      exact Same.refl _ _
    · refine Same.ite ?_ ?_
      · refine Same.seq ?_ (count_same ..) (by decide)
        refine Same.seq ?_ (frameGone_same ..) (by decide)
        exact Same.refl _ _
      · refine Same.seq ?_ (enqueue_same ..) (by decide)
        exact Same.refl _ _
  · rename_i v5 v6
    refine Same.seq ?_ (toEndpoint_same ..) (by decide)
    exact Same.refl _ _
  · rename_i v7 v8 v9 v10
    refine Same.seq ?_ (toStage_same ..) (by decide)
    exact Same.refl _ _

theorem pinOn_same (s : State) (a1 : Nat) (a2 : Bool) : Same 256 s (State.pinOn s a1 a2) := by
  unfold State.pinOn
  constructor <;> intro hb <;> first | rfl | exact absurd hb (by decide)

theorem cross_same (s : State) (a1 : Frame) (a2 : Nat) (a3 : List (Nat × Nat)) (a4 : Option Nat) (a5 : MeshExit) : Same 35184372092874 s (State.cross s a1 a2 a3 a4 a5) := by
  unfold State.cross
  split
  · rename_i v1 v2 v3 v4
    have h5 : Same 35184372092874 s v2 := by
      refine Same.of_fst v4 ?_
      refine Same.seq ?_ (letIn_same ..) (by decide)
      exact Same.refl _ _
    refine Same.ite ?_ ?_
    · refine Same.seq ?_ (exitMesh_same ..) (by decide)
      assumption
    · extract_lets +onlyGivenNames -merge -useContext x6
      have h6 : Same 35184372092874 s x6 := by
        unfold x6
        split
        · rename_i v7 v8
          refine Same.seq ?_ (pinOn_same ..) (by decide)
          assumption
        · rename_i v9
          assumption
      clear_value x6
      refine Same.trans h6 ?_
      constructor <;> intro hb <;> first | rfl | exact absurd hb (by decide)

theorem crossFree_same (s : State) (a1 : Frame) (a2 : Nat) (a3 : Nat) (a4 : MeshExit) : Same 35184372092874 s (State.crossFree s a1 a2 a3 a4) := by
  unfold State.crossFree
  extract_lets +onlyGivenNames -merge -useContext x1
  clear_value x1
  split
  · rename_i v2 v3
    refine Same.seq ?_ (pathDrop_same ..) (by decide)
    refine Same.seq ?_ (count_same ..) (by decide)
    exact Same.refl _ _
  · rename_i v4 v5 v6
    extract_lets +onlyGivenNames -merge -useContext x7
    clear_value x7
    refine Same.seq ?_ (cross_same ..) (by decide)
    exact Same.refl _ _

theorem follow_same (s : State) (a1 : Nat) (a2 : Frame) (a3 : Route) : Same 35184372092874 s (State.follow s a1 a2 a3) := by
  unfold State.follow
  split
  · rename_i v1 v2
    refine Same.seq ?_ (pathDrop_same ..) (by decide)
    refine Same.seq ?_ (count_same ..) (by decide)
    exact Same.refl _ _
  · rename_i v3
    exact Same.refl _ _
  · rename_i v4 v5 v6
    refine Same.ite ?_ ?_
    · refine Same.seq ?_ (count_same ..) (by decide)
      exact Same.refl _ _
    · refine Same.seq ?_ (crossFree_same ..) (by decide)
      exact Same.refl _ _

theorem crossPath_same (s : State) (a1 : Frame) (a2 : PathRec) (a3 : MeshExit) : Same 35184372092874 s (State.crossPath s a1 a2 a3) := by
  unfold State.crossPath
  extract_lets +onlyGivenNames -merge -useContext x1
  clear_value x1
  refine Same.seq ?_ (cross_same ..) (by decide)
  exact Same.refl _ _

theorem launch_same (s : State) (a1 : Nat) (a2 : Frame) : Same 35184372092874 s (State.launch s a1 a2) := by
  unfold State.launch
  refine Same.ite ?_ ?_
  · split
    · rename_i v1 v2
      refine Same.seq ?_ (crossFree_same ..) (by decide)
      exact Same.refl _ _
    · rename_i v3 v4
      refine Same.seq ?_ (follow_same ..) (by decide)
      exact Same.refl _ _
  · split
    · rename_i v5 v6
      refine Same.seq ?_ (count_same ..) (by decide)
      exact Same.refl _ _
    · rename_i v7 v8 v9 v10
      split
      · rename_i v11 v12
        refine Same.seq ?_ (count_same ..) (by decide)
        exact Same.refl _ _
      · rename_i v13 v14 v15 v16
        refine Same.seq ?_ (crossPath_same ..) (by decide)
        exact Same.refl _ _

theorem policeDrop_same (s : State) (a1 : FlowRec) : Same 66 s (State.policeDrop s a1) := by
  unfold State.policeDrop
  refine Same.seq ?_ (count_same ..) (by decide)
  refine Same.seq ?_ (setFlowRt_same ..) (by decide)
  exact Same.refl _ _

theorem takeTokens_same (s : State) (a1 : FlowRec) (a2 : Nat) : Same 64 s (State.takeTokens s a1 a2) := by
  unfold State.takeTokens
  refine Same.seq ?_ (setFlowRt_same ..) (by decide)
  exact Same.refl _ _

theorem originate_same (s : State) (a1 : Nat) (a2 : Frame) : Same 35184372092874 s (State.originate s a1 a2) := by
  unfold State.originate
  split
  · rename_i v1 v2
    refine Same.seq ?_ (launch_same ..) (by decide)
    exact Same.refl _ _
  · rename_i v3 v4 v5 v6
    refine Same.ite ?_ ?_
    · refine Same.seq ?_ (policeDrop_same ..) (by decide)
      exact Same.refl _ _
    · refine Same.ite ?_ ?_
      · constructor <;> intro hb <;> first | rfl | exact absurd hb (by decide)
      · refine Same.seq ?_ (launch_same ..) (by decide)
        refine Same.seq ?_ (takeTokens_same ..) (by decide)
        exact Same.refl _ _

theorem sendFrame_same (s : State) (a1 : QpCtx) (a2 : Frame) (a3 : Nat) : Same 35184372092874 s (State.sendFrame s a1 a2 a3) := by
  unfold State.sendFrame
  refine Same.ite ?_ ?_
  · refine Same.seq ?_ (originate_same ..) (by decide)
    exact Same.refl _ _
  · extract_lets +onlyGivenNames -merge -useContext x1
    clear_value x1
    refine Same.seq ?_ (follow_same ..) (by decide)
    exact Same.refl _ _

theorem sendPkt_same (s : State) (a1 : QpCtx) (a2 : Bool) (a3 : TPkt) : Same 41781441859578 s (State.sendPkt s a1 a2 a3) := by
  unfold State.sendPkt
  split
  · rename_i v1 v2 v3 v4 v5
    have h6 : Same 41781441859578 s v2 := by
      refine Same.of_fst v5 ?_
      refine Same.seq ?_ (pktFrame_same ..) (by decide)
      exact Same.refl _ _
    refine Same.seq ?_ (sendFrame_same ..) (by decide)
    assumption
  · rename_i v7 v8 v9 v10
    have h11 : Same 41781441859578 s v8 := by
      refine Same.of_fst v10 ?_
      refine Same.seq ?_ (pktFrame_same ..) (by decide)
      exact Same.refl _ _
    assumption

theorem sendResync_same (s : State) (a1 : Nat) : Same 41781441859578 s (State.sendResync s a1) := by
  unfold State.sendResync
  split
  · rename_i v1 v2
    exact Same.refl _ _
  · rename_i v3 v4 v5
    refine Same.ite ?_ ?_
    · refine Same.seq ?_ (sendPkt_same ..) (by decide)
      exact Same.refl _ _
    · exact Same.refl _ _

theorem partEvent_same (s : State) (a1 : EvKind) (a2 : Nat) (a3 : List Byte) : Same 41781441855546 s (State.partEvent s a1 a2 a3) := by
  unfold State.partEvent
  refine Same.seq ?_ (occur_same ..) (by decide)
  exact Same.refl _ _

theorem checkDrained_same (s : State) (a1 : Nat) : Same 41781441863738 s (State.checkDrained s a1) := by
  unfold State.checkDrained
  split
  · rename_i v1 v2
    exact Same.refl _ _
  · rename_i v3 v4 v5
    extract_lets +onlyGivenNames -merge -useContext x6
    refine Same.ite ?_ ?_
    · refine Same.seq ?_ (partEvent_same ..) (by decide)
      refine Same.seq ?_ (setQp_same ..) (by decide)
      exact Same.refl _ _
    · exact Same.refl _ _

theorem modCtx_same (s : State) (a1 : Nat) (a2 : QpCtx → QpCtx) : Same 8192 s (State.modCtx s a1 a2) := by
  unfold State.modCtx
  refine Same.seq ?_ (modQp_same ..) (by decide)
  exact Same.refl _ _

theorem showOut_same (s : State) (a1 : Nat) : Same 8192 s (State.showOut s a1) := by
  unfold State.showOut
  refine Same.seq ?_ (modCtx_same ..) (by decide)
  exact Same.refl _ _

theorem abortLive_same (s : State) (a1 : Qp) (a2 : Live) : Same 130912764325882 s (State.abortLive s a1 a2) := by
  unfold State.abortLive
  extract_lets +onlyGivenNames -merge -useContext x1
  clear_value x1
  extract_lets +onlyGivenNames -merge -useContext x2
  clear_value x2
  extract_lets +onlyGivenNames -merge -useContext x3
  have h3 : Same 130912764325882 s x3 := by
    unfold x3
    refine Same.foldl _ _ _ ?_ ?_
    · intro x4 a4 h4
      refine Same.ite ?_ ?_
      · refine Same.seq ?_ (scramble_same ..) (by decide)
        assumption
      · assumption
    · exact Same.refl _ _
  clear_value x3
  extract_lets +onlyGivenNames -merge -useContext x5
  have h5 : Same 130912764325882 s x5 := by
    unfold x5
    refine Same.foldl _ _ _ ?_ ?_
    · intro x6 a6 h6
      refine Same.seq ?_ (endEntry_same ..) (by decide)
      assumption
    · assumption
  clear_value x5
  refine Same.ite ?_ ?_
  · refine Same.seq ?_ (qpError_same ..) (by decide)
    assumption
  · extract_lets +onlyGivenNames -merge -useContext x7
    have h7 : Same 130912764325882 s x7 := by
      unfold x7
      refine Same.seq ?_ (modQp_same ..) (by decide)
      assumption
    clear_value x7
    extract_lets +onlyGivenNames -merge -useContext x8
    have h8 : Same 130912764325882 s x8 := by
      unfold x8
      refine Same.ite ?_ ?_
      · assumption
      · refine Same.seq ?_ (sendResync_same ..) (by decide)
        assumption
    clear_value x8
    refine Same.seq ?_ (checkDrained_same ..) (by decide)
    refine Same.seq ?_ (showOut_same ..) (by decide)
    refine Same.seq ?_ (modCtx_same ..) (by decide)
    assumption

theorem abortTarget_same (s : State) (a1 : Nat) (a2 : Nat) (a3 : Nat) (a4 : Nat) : Same 130912764325882 s (State.abortTarget s a1 a2 a3 a4).1 := by
  unfold State.abortTarget
  split
  · rename_i v1 v2
    dsimp only
    exact Same.refl _ _
  · rename_i v3 v4 v5
    split
    · rename_i v6 v7
      dsimp only
      exact Same.refl _ _
    · rename_i v8 v9 v10
      refine Same.iteFst ?_ ?_
      · dsimp only
        exact Same.refl _ _
      · extract_lets +onlyGivenNames -merge -useContext x11
        clear_value x11
        extract_lets +onlyGivenNames -merge -useContext x12
        clear_value x12
        refine Same.iteFst ?_ ?_
        · refine Same.iteFst ?_ ?_
          · dsimp only
            exact Same.refl _ _
          · dsimp only
            refine Same.seq ?_ (setQueue_same ..) (by decide)
            exact Same.refl _ _
        · split
          · rename_i v13 v14 v15
            refine Same.iteFst ?_ ?_
            · dsimp only
              exact Same.refl _ _
            · dsimp only
              refine Same.seq ?_ (abortLive_same ..) (by decide)
              exact Same.refl _ _
          · rename_i v16 v17
            refine Same.iteFst ?_ ?_
            · dsimp only
              exact Same.refl _ _
            · dsimp only
              exact Same.refl _ _

theorem abortRun_same (s : State) (a1 : Nat) (a2 : Nat) : Same 130912764325882 s (State.abortRun s a1 a2) := by
  unfold State.abortRun
  split
  · rename_i v1 v2
    exact Same.refl _ _
  · rename_i v3 v4 v5 v6
    extract_lets +onlyGivenNames -merge -useContext x7
    clear_value x7
    split
    · rename_i v8 v9 v10 v11
      have h12 : Same 130912764325882 s v9 := by
        refine Same.of_fst v11 ?_
        refine Same.seq ?_ (abortTarget_same ..) (by decide)
        exact Same.refl _ _
      refine Same.seq ?_ (endEntry_same ..) (by decide)
      assumption

theorem modColl_same (s : State) (a1 : Nat) (a2 : Nat) (a3 : Coll → Coll) : Same 1073741824 s (State.modColl s a1 a2 a3) := by
  unfold State.modColl
  constructor <;> intro hb <;> first | rfl | exact absurd hb (by decide)

theorem collFailed_same (s : State) (a1 : Coll) (a2 : Nat) (a3 : Nat) : Same 1073741824 s (State.collFailed s a1 a2 a3) := by
  unfold State.collFailed
  refine Same.seq ?_ (modColl_same ..) (by decide)
  exact Same.refl _ _

theorem absorbSeg_same (s : State) (a1 : RedEnd) : Same 1073741824 s (State.absorbSeg s a1) := by
  unfold State.absorbSeg
  split
  · rename_i v1 v2
    exact Same.refl _ _
  · rename_i v3 v4 v5
    refine Same.ite ?_ ?_
    · refine Same.seq ?_ (collFailed_same ..) (by decide)
      exact Same.refl _ _
    · extract_lets +onlyGivenNames -merge -useContext x6
      clear_value x6
      split
      · rename_i v7 v8
        exact Same.refl _ _
      · rename_i v9 v10 v11
        refine Same.seq ?_ (modColl_same ..) (by decide)
        exact Same.refl _ _

theorem collFetched_same (s : State) (a1 : Coll) (a2 : CollXfer) (a3 : CollEnd) : Same 60476369141818 s (State.collFetched s a1 a2 a3) := by
  unfold State.collFetched
  split
  · rename_i v1 v2
    exact Same.refl _ _
  · rename_i v3 v4 v5
    split
    · rename_i v6 v7 v8 v9
      have h10 : Same 60476369141818 s v7 := by
        refine Same.of_fst v9 ?_
        refine Same.seq ?_ (memWriteC_same ..) (by decide)
        exact Same.refl _ _
      refine Same.seq ?_ (modColl_same ..) (by decide)
      assumption
    · rename_i v11 v12 v13
      have h14 : Same 60476369141818 s v12 := by
        refine Same.of_fst v13 ?_
        refine Same.seq ?_ (memWriteC_same ..) (by decide)
        exact Same.refl _ _
      extract_lets +onlyGivenNames -merge -useContext x15
      have h15 : Same 60476369141818 s x15 := by
        unfold x15
        refine Same.seq ?_ (modColl_same ..) (by decide)
        assumption
      clear_value x15
      refine Same.trans h15 ?_
      constructor <;> intro hb <;> first | rfl | exact absurd hb (by decide)
    · rename_i v16 v17 v18 v19 v20
      have h21 : Same 60476369141818 s v17 := by
        refine Same.of_fst v20 ?_
        refine Same.seq ?_ (memWriteC_same ..) (by decide)
        exact Same.refl _ _
      refine Same.seq ?_ (collFailed_same ..) (by decide)
      assumption

theorem absorbXfer_same (s : State) (a1 : CollEnd) : Same 60476369141818 s (State.absorbXfer s a1) := by
  unfold State.absorbXfer
  split
  · rename_i v1 v2
    exact Same.refl _ _
  · rename_i v3 v4 v5
    split
    · rename_i v6 v7
      exact Same.refl _ _
    · rename_i v8 v9 v10
      extract_lets +onlyGivenNames -merge -useContext x11
      have h11 : Same 60476369141818 s x11 := by
        unfold x11
        refine Same.seq ?_ (modColl_same ..) (by decide)
        exact Same.refl _ _
      clear_value x11
      refine Same.ite ?_ ?_
      · refine Same.seq ?_ (collFailed_same ..) (by decide)
        assumption
      · refine Same.ite ?_ ?_
        · assumption
        · refine Same.ite ?_ ?_
          · refine Same.seq ?_ (modColl_same ..) (by decide)
            assumption
          · refine Same.ite ?_ ?_
            · refine Same.seq ?_ (modColl_same ..) (by decide)
              assumption
            · refine Same.ite ?_ ?_
              · refine Same.seq ?_ (modColl_same ..) (by decide)
                assumption
              · refine Same.seq ?_ (collFetched_same ..) (by decide)
                assumption

theorem answer_same (s : State) (a1 : Nat) (a2 : TPkt) : Same 41781441859578 s (State.answer s a1 a2) := by
  unfold State.answer
  split
  · rename_i v1 v2
    exact Same.refl _ _
  · rename_i v3 v4 v5
    extract_lets +onlyGivenNames -merge -useContext x6
    clear_value x6
    refine Same.seq ?_ (sendPkt_same ..) (by decide)
    exact Same.refl _ _

theorem nak_same (s : State) (a1 : Nat) (a2 : Nat) (a3 : Nat) : Same 41781441867770 s (State.nak s a1 a2 a3) := by
  unfold State.nak
  refine Same.seq ?_ (answer_same ..) (by decide)
  refine Same.seq ?_ (modCtx_same ..) (by decide)
  exact Same.refl _ _

theorem atomicOn_same (s : State) (a1 : QpCtx) (a2 : Nat) (a3 : Nat) (a4 : TPkt) (a5 : Nat) : Same 60473147916346 s (State.atomicOn s a1 a2 a3 a4 a5).1 := by
  unfold State.atomicOn
  extract_lets +onlyGivenNames -merge -useContext x1
  clear_value x1
  extract_lets +onlyGivenNames -merge -useContext x2
  clear_value x2
  extract_lets +onlyGivenNames -merge -useContext x3
  clear_value x3
  refine Same.iteFst ?_ ?_
  · extract_lets +onlyGivenNames -merge -useContext x4
    clear_value x4
    extract_lets +onlyGivenNames -merge -useContext x5
    have h5 : Same 60473147916346 s x5 := by
      unfold x5
      refine Same.ite ?_ ?_
      · refine Same.seq ?_ (keepHost_same ..) (by decide)
        exact Same.refl _ _
      · exact Same.refl _ _
    clear_value x5
    dsimp only
    refine Same.seq ?_ (emit_same ..) (by decide)
    assumption
  · refine Same.iteFst ?_ ?_
    · refine Same.seq ?_ (memWriteC_same ..) (by decide)
      exact Same.refl _ _
    · dsimp only
      exact Same.refl _ _

theorem setWin_same (s : State) (a1 : Nat) (a2 : Window) : Same 32770 s (State.setWin s a1 a2) := by
  unfold State.setWin
  extract_lets +onlyGivenNames -merge -useContext x1
  clear_value x1
  extract_lets +onlyGivenNames -merge -useContext x2
  clear_value x2
  extract_lets +onlyGivenNames -merge -useContext x3
  have h3 : Same 32770 s x3 := by
    unfold x3
    constructor <;> intro hb <;> first | rfl | exact absurd hb (by decide)
  clear_value x3
  extract_lets +onlyGivenNames -merge -useContext x4
  have h4 : Same 32770 s x4 := by
    unfold x4
    refine Same.seq ?_ (put_same ..) (by decide)
    assumption
  clear_value x4
  extract_lets +onlyGivenNames -merge -useContext x5
  have h5 : Same 32770 s x5 := by
    unfold x5
    refine Same.ite ?_ ?_
    · refine Same.seq ?_ (put_same ..) (by decide)
      assumption
    · assumption
  clear_value x5
  refine Same.ite ?_ ?_
  · extract_lets +onlyGivenNames -merge -useContext x6
    have h6 : Same 32770 s x6 := by
      unfold x6
      refine Same.seq ?_ (put_same ..) (by decide)
      assumption
    clear_value x6
    refine Same.seq ?_ (put_same ..) (by decide)
    assumption
  · assumption

theorem inflightUp_same (s : State) (a1 : Nat) : Same 32770 s (State.inflightUp s a1) := by
  unfold State.inflightUp
  refine Same.seq ?_ (setWin_same ..) (by decide)
  exact Same.refl _ _

theorem accepted_same (s : State) (a1 : Nat) (a2 : Nat) (a3 : Bool) : Same 8192 s (State.accepted s a1 a2 a3) := by
  unfold State.accepted
  refine Same.seq ?_ (modQp_same ..) (by decide)
  exact Same.refl _ _

theorem sendAck_same (s : State) (a1 : Nat) : Same 41781441867770 s (State.sendAck s a1) := by
  unfold State.sendAck
  split
  · rename_i v1 v2
    exact Same.refl _ _
  · rename_i v3 v4 v5
    refine Same.ite ?_ ?_
    · exact Same.refl _ _
    · refine Same.seq ?_ (answer_same ..) (by decide)
      refine Same.seq ?_ (modCtx_same ..) (by decide)
      exact Same.refl _ _

theorem acceptAtomic_same (s : State) (a1 : Nat) (a2 : Qp) (a3 : TPkt) (t : State) (h : State.acceptAtomic s a1 a2 a3 = some t) : Same 60473147961338 s t := by
  unfold State.acceptAtomic at h
  extract_lets +onlyGivenNames -merge -useContext x1 at h
  clear_value x1
  split at h
  · rename_i v2 v3 v4
    injection h with h
    refine Same.of_eq h ?_
    refine Same.seq ?_ (nak_same ..) (by decide)
    exact Same.refl _ _
  · rename_i v5 v6
    extract_lets +onlyGivenNames -merge -useContext x7 at h
    clear_value x7
    extract_lets +onlyGivenNames -merge -useContext x8 at h
    clear_value x8
    split at h
    · rename_i v9 v10 v11
      have h12 : Same 60473147961338 s v10 := by
        refine Same.of_fst v11 ?_
        refine Same.seq ?_ (memReadC_same ..) (by decide)
        exact Same.refl _ _
      cases h
    · rename_i v13 v14 v15 v16 v17
      have h18 : Same 60473147961338 s v14 := by
        refine Same.of_fst v17 ?_
        refine Same.seq ?_ (memReadC_same ..) (by decide)
        exact Same.refl _ _
      injection h with h
      refine Same.of_eq h ?_
      refine Same.seq ?_ (nak_same ..) (by decide)
      assumption
    · rename_i v19 v20 v21 v22
      have h23 : Same 60473147961338 s v20 := by
        refine Same.of_fst v22 ?_
        refine Same.seq ?_ (memReadC_same ..) (by decide)
        exact Same.refl _ _
      extract_lets +onlyGivenNames -merge -useContext x24 at h
      clear_value x24
      split at h
      · rename_i v25 v26 v27 v28
        have h29 : Same 60473147961338 s v26 := by
          refine Same.of_fst v28 ?_
          refine Same.seq ?_ (atomicOn_same ..) (by decide)
          assumption
        injection h with h
        refine Same.of_eq h ?_
        refine Same.seq ?_ (nak_same ..) (by decide)
        assumption
      · rename_i v30 v31 v32 v33
        have h34 : Same 60473147961338 s v31 := by
          refine Same.of_fst v33 ?_
          refine Same.seq ?_ (atomicOn_same ..) (by decide)
          assumption
        extract_lets +onlyGivenNames -merge -useContext x35 at h
        have h35 : Same 60473147961338 s x35 := by
          unfold x35
          refine Same.seq ?_ (inflightUp_same ..) (by decide)
          assumption
        clear_value x35
        extract_lets +onlyGivenNames -merge -useContext x36 at h
        have h36 : Same 60473147961338 s x36 := by
          unfold x36
          refine Same.seq ?_ (modQp_same ..) (by decide)
          assumption
        clear_value x36
        extract_lets +onlyGivenNames -merge -useContext x37 at h
        have h37 : Same 60473147961338 s x37 := by
          unfold x37
          refine Same.seq ?_ (answer_same ..) (by decide)
          refine Same.seq ?_ (accepted_same ..) (by decide)
          assumption
        clear_value x37
        injection h with h
        refine Same.of_eq h ?_
        refine Same.ite ?_ ?_
        · refine Same.seq ?_ (sendAck_same ..) (by decide)
          assumption
        · assumption

theorem readResponses_same (s : State) (a1 : Nat) (a2 : Nat) (a3 : Nat) (a4 : List Byte) : Same 41781441859578 s (State.readResponses s a1 a2 a3 a4) := by
  unfold State.readResponses
  extract_lets +onlyGivenNames -merge -useContext x1
  clear_value x1
  refine Same.foldl _ _ _ ?_ ?_
  · intro x2 a2 h2
    refine Same.seq ?_ (answer_same ..) (by decide)
    assumption
  · exact Same.refl _ _

theorem acceptRead_same (s : State) (a1 : Nat) (a2 : Qp) (a3 : TPkt) (a4 : Bool) (t : State) (h : State.acceptRead s a1 a2 a3 a4 = some t) : Same 41781441900538 s t := by
  unfold State.acceptRead at h
  extract_lets +onlyGivenNames -merge -useContext x1 at h
  clear_value x1
  split at h
  · rename_i v2 v3 v4
    injection h with h
    refine Same.of_eq h ?_
    refine Same.seq ?_ (nak_same ..) (by decide)
    exact Same.refl _ _
  · rename_i v5 v6
    extract_lets +onlyGivenNames -merge -useContext x7 at h
    clear_value x7
    split at h
    · rename_i v8 v9 v10
      have h11 : Same 41781441900538 s v9 := by
        refine Same.of_fst v10 ?_
        refine Same.iteFst ?_ ?_
        · dsimp only
          exact Same.refl _ _
        · refine Same.seq ?_ (memReadC_same ..) (by decide)
          exact Same.refl _ _
      cases h
    · rename_i v12 v13 v14 v15 v16
      have h17 : Same 41781441900538 s v13 := by
        refine Same.of_fst v16 ?_
        refine Same.iteFst ?_ ?_
        · dsimp only
          exact Same.refl _ _
        · refine Same.seq ?_ (memReadC_same ..) (by decide)
          exact Same.refl _ _
      injection h with h
      refine Same.of_eq h ?_
      refine Same.seq ?_ (nak_same ..) (by decide)
      assumption
    · rename_i v18 v19 v20 v21
      have h22 : Same 41781441900538 s v19 := by
        refine Same.of_fst v21 ?_
        refine Same.iteFst ?_ ?_
        · dsimp only
          exact Same.refl _ _
        · refine Same.seq ?_ (memReadC_same ..) (by decide)
          exact Same.refl _ _
      extract_lets +onlyGivenNames -merge -useContext x23 at h
      have h23 : Same 41781441900538 s x23 := by
        unfold x23
        refine Same.seq ?_ (inflightUp_same ..) (by decide)
        assumption
      clear_value x23
      extract_lets +onlyGivenNames -merge -useContext x24 at h
      have h24 : Same 41781441900538 s x24 := by
        unfold x24
        refine Same.ite ?_ ?_
        · refine Same.seq ?_ (accepted_same ..) (by decide)
          assumption
        · assumption
      clear_value x24
      extract_lets +onlyGivenNames -merge -useContext x25 at h
      have h25 : Same 41781441900538 s x25 := by
        unfold x25
        refine Same.seq ?_ (readResponses_same ..) (by decide)
        assumption
      clear_value x25
      injection h with h
      refine Same.of_eq h ?_
      refine Same.ite ?_ ?_
      · refine Same.seq ?_ (sendAck_same ..) (by decide)
        assumption
      · assumption

theorem acceptResync_same (s : State) (a1 : Nat) (a2 : Nat) : Same 41781441867770 s (State.acceptResync s a1 a2) := by
  unfold State.acceptResync
  refine Same.seq ?_ (sendAck_same ..) (by decide)
  refine Same.seq ?_ (modQp_same ..) (by decide)
  exact Same.refl _ _

theorem rnrNak_same (s : State) (a1 : Nat) (a2 : Nat) : Same 41781441859578 s (State.rnrNak s a1 a2) := by
  unfold State.rnrNak
  split
  · rename_i v1 v2
    exact Same.refl _ _
  · rename_i v3 v4 v5
    refine Same.seq ?_ (answer_same ..) (by decide)
    exact Same.refl _ _

theorem endRecv_same (s : State) (a1 : QpCtx) (a2 : Live) (a3 : Nat) (a4 : Nat) (a5 : TPkt) : Same 60475300651066 s (State.endRecv s a1 a2 a3 a4 a5) := by
  unfold State.endRecv
  extract_lets +onlyGivenNames -merge -useContext x1
  have h1 : Same 60475300651066 s x1 := by
    unfold x1
    refine Same.seq ?_ (modLive_same ..) (by decide)
    exact Same.refl _ _
  clear_value x1
  extract_lets +onlyGivenNames -merge -useContext x2
  have h2 : Same 60475300651066 s x2 := by
    unfold x2
    refine Same.seq ?_ (modCtx_same ..) (by decide)
    assumption
  clear_value x2
  refine Same.seq ?_ (endEntry_same ..) (by decide)
  assumption

theorem setSheep_same (s : State) (a1 : HostId) (a2 : Sheep) : Same 196610 s (State.setSheep s a1 a2) := by
  unfold State.setSheep
  refine Same.seq ?_ (put_same ..) (by decide)
  refine Same.ite ?_ ?_
  · constructor <;> intro hb <;> first | rfl | exact absurd hb (by decide)
  · constructor <;> intro hb <;> first | rfl | exact absurd hb (by decide)

theorem raiseFault_same (s : State) (a1 : Nat) (a2 : Frag) (a3 : Access) (a4 : FaultWaiter) : Same 196610 s (State.raiseFault s a1 a2 a3 a4).1 := by
  unfold State.raiseFault
  extract_lets +onlyGivenNames -merge -useContext x1
  clear_value x1
  extract_lets +onlyGivenNames -merge -useContext x2
  clear_value x2
  split
  · rename_i v3 v4 v5
    extract_lets +onlyGivenNames -merge -useContext x6
    have h6 : Same 196610 s x6 := by
      unfold x6
      refine Same.seq ?_ (setSheep_same ..) (by decide)
      exact Same.refl _ _
    clear_value x6
    dsimp only
    refine Same.ite ?_ ?_
    · refine Same.seq ?_ (count_same ..) (by decide)
      assumption
    · assumption
  · rename_i v7 v8
    split
    · rename_i v9 v10
      dsimp only
      exact Same.refl _ _
    · rename_i v11 v12 v13
      extract_lets +onlyGivenNames -merge -useContext x14
      clear_value x14
      dsimp only
      refine Same.seq ?_ (setSheep_same ..) (by decide)
      exact Same.refl _ _

theorem oweVis_same (s : State) (a1 : Nat) (a2 : TPkt) (a3 : Bool) : Same 8192 s (State.oweVis s a1 a2 a3) := by
  unfold State.oweVis
  refine Same.ite ?_ ?_
  · refine Same.seq ?_ (modQp_same ..) (by decide)
    exact Same.refl _ _
  · exact Same.refl _ _

theorem oweFlags_same (s : State) (a1 : Nat) (a2 : QpCtx) (a3 : TPkt) (a4 : Bool) : Same 2105344 s (State.oweFlags s a1 a2 a3 a4) := by
  unfold State.oweFlags
  extract_lets +onlyGivenNames -merge -useContext x1
  have h1 : Same 2105344 s x1 := by
    unfold x1
    refine Same.seq ?_ (oweVis_same ..) (by decide)
    exact Same.refl _ _
  clear_value x1
  split
  · rename_i v2 v3 v4
    refine Same.trans h1 ?_
    constructor <;> intro hb <;> first | rfl | exact absurd hb (by decide)
  · rename_i v5 v6
    assumption

theorem oweAck_same (s : State) (a1 : Nat) (a2 : Bool) : Same 41781441867770 s (State.oweAck s a1 a2) := by
  unfold State.oweAck
  split
  · rename_i v1 v2
    exact Same.refl _ _
  · rename_i v3 v4 v5
    extract_lets +onlyGivenNames -merge -useContext x6
    clear_value x6
    extract_lets +onlyGivenNames -merge -useContext x7
    clear_value x7
    extract_lets +onlyGivenNames -merge -useContext x8
    have h8 : Same 41781441867770 s x8 := by
      unfold x8
      refine Same.seq ?_ (setQp_same ..) (by decide)
      exact Same.refl _ _
    clear_value x8
    refine Same.ite ?_ ?_
    · refine Same.seq ?_ (sendAck_same ..) (by decide)
      assumption
    · assumption

theorem acceptSend_same (s : State) (a1 : Nat) (a2 : Qp) (a3 : TPkt) (t : State) (h : State.acceptSend s a1 a2 a3 = some t) : Same 130912766619642 s t := by
  unfold State.acceptSend at h
  extract_lets +onlyGivenNames -merge -useContext x1 at h
  clear_value x1
  split at h
  · rename_i v2
    injection h with h
    refine Same.of_eq h ?_
    refine Same.seq ?_ (nak_same ..) (by decide)
    refine Same.seq ?_ (setQp_same ..) (by decide)
    exact Same.refl _ _
  · rename_i v3
    split at h
    · rename_i v4 v5
      injection h with h
      refine Same.of_eq h ?_
      refine Same.seq ?_ (rnrNak_same ..) (by decide)
      exact Same.refl _ _
    · rename_i v6 v7 v8
      extract_lets +onlyGivenNames -merge -useContext x9 at h
      clear_value x9
      split at h
      · rename_i v10
        injection h with h
        refine Same.of_eq h ?_
        refine Same.seq ?_ (nak_same ..) (by decide)
        refine Same.seq ?_ (endRecv_same ..) (by decide)
        exact Same.refl _ _
      · rename_i v11
        split at h
        · rename_i v12 v13 v14
          split at h
          · rename_i v15
            injection h with h
            refine Same.of_eq h ?_
            refine Same.seq ?_ (nak_same ..) (by decide)
            exact Same.refl _ _
          · rename_i v16
            split at h
            · rename_i v17 v18 v19
              have h20 : Same 130912766619642 s v18 := by
                refine Same.of_fst v19 ?_
                refine Same.seq ?_ (bufWrite_same ..) (by decide)
                exact Same.refl _ _
              cases h
            · rename_i v21 v22 v23 v24 v25
              have h26 : Same 130912766619642 s v22 := by
                refine Same.of_fst v25 ?_
                refine Same.seq ?_ (bufWrite_same ..) (by decide)
                exact Same.refl _ _
              extract_lets +onlyGivenNames -merge -useContext x27 at h
              clear_value x27
              injection h with h
              refine Same.of_eq h ?_
              refine Same.seq ?_ (qpError_same ..) (by decide)
              refine Same.seq ?_ (nak_same ..) (by decide)
              refine Same.seq ?_ (endRecv_same ..) (by decide)
              assumption
            · rename_i v28 v29 v30 v31
              have h32 : Same 130912766619642 s v29 := by
                refine Same.of_fst v31 ?_
                refine Same.seq ?_ (bufWrite_same ..) (by decide)
                exact Same.refl _ _
              split at h
              · rename_i v33 v34 v35 v36
                have h37 : Same 130912766619642 s v34 := by
                  refine Same.of_fst v36 ?_
                  refine Same.iteFst ?_ ?_
                  · dsimp only
                    assumption
                  · split
                    · rename_i v38 v39 v40
                      extract_lets +onlyGivenNames -merge -useContext x41
                      have h41 : Same 130912766619642 s x41.1 := by
                        unfold x41
                        refine Same.seq ?_ (raiseFault_same ..) (by decide)
                        assumption
                      clear_value x41
                      dsimp only
                      assumption
                    · rename_i v42
                      dsimp only
                      assumption
                extract_lets +onlyGivenNames -merge -useContext x43 at h
                have h43 : Same 130912766619642 s x43 := by
                  unfold x43
                  refine Same.seq ?_ (modQp_same ..) (by decide)
                  assumption
                clear_value x43
                injection h with h
                refine Same.of_eq h ?_
                refine Same.seq ?_ (rnrNak_same ..) (by decide)
                assumption
            · rename_i v44 v45 v46 v47 v48 v49 v50
              have h51 : Same 130912766619642 s v45 := by
                refine Same.of_fst v50 ?_
                refine Same.seq ?_ (bufWrite_same ..) (by decide)
                exact Same.refl _ _
              extract_lets +onlyGivenNames -merge -useContext x52 at h
              clear_value x52
              extract_lets +onlyGivenNames -merge -useContext x53 at h
              have h53 : Same 130912766619642 s x53 := by
                unfold x53
                refine Same.seq ?_ (modQp_same ..) (by decide)
                assumption
              clear_value x53
              extract_lets +onlyGivenNames -merge -useContext x54 at h
              have h54 : Same 130912766619642 s x54 := by
                unfold x54
                refine Same.seq ?_ (oweFlags_same ..) (by decide)
                refine Same.seq ?_ (accepted_same ..) (by decide)
                assumption
              clear_value x54
              extract_lets +onlyGivenNames -merge -useContext x55 at h
              have h55 : Same 130912766619642 s x55 := by
                unfold x55
                refine Same.ite ?_ ?_
                · refine Same.seq ?_ (endRecv_same ..) (by decide)
                  assumption
                · assumption
              clear_value x55
              injection h with h
              refine Same.of_eq h ?_
              refine Same.seq ?_ (oweAck_same ..) (by decide)
              assumption
        · rename_i v56 v57
          split at h
          · rename_i v58
            injection h with h
            refine Same.of_eq h ?_
            refine Same.seq ?_ (nak_same ..) (by decide)
            exact Same.refl _ _
          · rename_i v59
            split at h
            · rename_i v60 v61 v62
              have h63 : Same 130912766619642 s v61 := by
                refine Same.of_fst v62 ?_
                refine Same.seq ?_ (bufWrite_same ..) (by decide)
                exact Same.refl _ _
              cases h
            · rename_i v64 v65 v66 v67 v68
              have h69 : Same 130912766619642 s v65 := by
                refine Same.of_fst v68 ?_
                refine Same.seq ?_ (bufWrite_same ..) (by decide)
                exact Same.refl _ _
              extract_lets +onlyGivenNames -merge -useContext x70 at h
              clear_value x70
              injection h with h
              refine Same.of_eq h ?_
              refine Same.seq ?_ (qpError_same ..) (by decide)
              refine Same.seq ?_ (nak_same ..) (by decide)
              refine Same.seq ?_ (endRecv_same ..) (by decide)
              assumption
            · rename_i v71 v72 v73 v74
              have h75 : Same 130912766619642 s v72 := by
                refine Same.of_fst v74 ?_
                refine Same.seq ?_ (bufWrite_same ..) (by decide)
                exact Same.refl _ _
              split at h
              · rename_i v76 v77 v78 v79
                have h80 : Same 130912766619642 s v77 := by
                  refine Same.of_fst v79 ?_
                  refine Same.iteFst ?_ ?_
                  · dsimp only
                    assumption
                  · split
                    · rename_i v81 v82 v83
                      extract_lets +onlyGivenNames -merge -useContext x84
                      have h84 : Same 130912766619642 s x84.1 := by
                        unfold x84
                        refine Same.seq ?_ (raiseFault_same ..) (by decide)
                        assumption
                      clear_value x84
                      dsimp only
                      assumption
                    · rename_i v85
                      dsimp only
                      assumption
                extract_lets +onlyGivenNames -merge -useContext x86 at h
                have h86 : Same 130912766619642 s x86 := by
                  unfold x86
                  refine Same.seq ?_ (modQp_same ..) (by decide)
                  assumption
                clear_value x86
                injection h with h
                refine Same.of_eq h ?_
                refine Same.seq ?_ (rnrNak_same ..) (by decide)
                assumption
            · rename_i v87 v88 v89 v90 v91 v92 v93
              have h94 : Same 130912766619642 s v88 := by
                refine Same.of_fst v93 ?_
                refine Same.seq ?_ (bufWrite_same ..) (by decide)
                exact Same.refl _ _
              extract_lets +onlyGivenNames -merge -useContext x95 at h
              clear_value x95
              extract_lets +onlyGivenNames -merge -useContext x96 at h
              have h96 : Same 130912766619642 s x96 := by
                unfold x96
                refine Same.seq ?_ (modQp_same ..) (by decide)
                assumption
              clear_value x96
              extract_lets +onlyGivenNames -merge -useContext x97 at h
              have h97 : Same 130912766619642 s x97 := by
                unfold x97
                refine Same.seq ?_ (oweFlags_same ..) (by decide)
                refine Same.seq ?_ (accepted_same ..) (by decide)
                assumption
              clear_value x97
              extract_lets +onlyGivenNames -merge -useContext x98 at h
              have h98 : Same 130912766619642 s x98 := by
                unfold x98
                refine Same.ite ?_ ?_
                · refine Same.seq ?_ (endRecv_same ..) (by decide)
                  assumption
                · assumption
              clear_value x98
              injection h with h
              refine Same.of_eq h ?_
              refine Same.seq ?_ (oweAck_same ..) (by decide)
              assumption

theorem acceptWrite_same (s : State) (a1 : Nat) (a2 : Qp) (a3 : TPkt) (t : State) (h : State.acceptWrite s a1 a2 a3 = some t) : Same 60475302785018 s t := by
  unfold State.acceptWrite at h
  extract_lets +onlyGivenNames -merge -useContext x1 at h
  clear_value x1
  extract_lets +onlyGivenNames -merge -useContext x2 at h
  clear_value x2
  extract_lets +onlyGivenNames -merge -useContext x3 at h
  clear_value x3
  extract_lets +onlyGivenNames -merge -useContext x4 at h
  clear_value x4
  extract_lets +onlyGivenNames -merge -useContext x5 at h
  clear_value x5
  split at h
  · rename_i v6 v7 v8
    injection h with h
    refine Same.of_eq h ?_
    refine Same.seq ?_ (nak_same ..) (by decide)
    exact Same.refl _ _
  · rename_i v9 v10
    split at h
    · rename_i v11 v12 v13
      split at h
      · rename_i v14
        injection h with h
        refine Same.of_eq h ?_
        refine Same.seq ?_ (nak_same ..) (by decide)
        exact Same.refl _ _
      · rename_i v15
        split at h
        · rename_i v16
          injection h with h
          refine Same.of_eq h ?_
          refine Same.seq ?_ (rnrNak_same ..) (by decide)
          exact Same.refl _ _
        · rename_i v17
          extract_lets +onlyGivenNames -merge -useContext x18 at h
          clear_value x18
          split at h
          · rename_i v19 v20 v21
            have h22 : Same 60475302785018 s v20 := by
              refine Same.of_fst v21 ?_
              refine Same.seq ?_ (memWriteC_same ..) (by decide)
              exact Same.refl _ _
            cases h
          · rename_i v23 v24 v25 v26 v27
            have h28 : Same 60475302785018 s v24 := by
              refine Same.of_fst v27 ?_
              refine Same.seq ?_ (memWriteC_same ..) (by decide)
              exact Same.refl _ _
            injection h with h
            refine Same.of_eq h ?_
            refine Same.seq ?_ (nak_same ..) (by decide)
            assumption
          · rename_i v29 v30 v31 v32
            have h33 : Same 60475302785018 s v30 := by
              refine Same.of_fst v32 ?_
              refine Same.seq ?_ (memWriteC_same ..) (by decide)
              exact Same.refl _ _
            extract_lets +onlyGivenNames -merge -useContext x34 at h
            clear_value x34
            extract_lets +onlyGivenNames -merge -useContext x35 at h
            have h35 : Same 60475302785018 s x35 := by
              unfold x35
              refine Same.seq ?_ (inflightUp_same ..) (by decide)
              assumption
            clear_value x35
            extract_lets +onlyGivenNames -merge -useContext x36 at h
            have h36 : Same 60475302785018 s x36 := by
              unfold x36
              refine Same.seq ?_ (modQp_same ..) (by decide)
              assumption
            clear_value x36
            extract_lets +onlyGivenNames -merge -useContext x37 at h
            have h37 : Same 60475302785018 s x37 := by
              unfold x37
              refine Same.seq ?_ (oweFlags_same ..) (by decide)
              refine Same.seq ?_ (accepted_same ..) (by decide)
              assumption
            clear_value x37
            extract_lets +onlyGivenNames -merge -useContext x38 at h
            have h38 : Same 60475302785018 s x38 := by
              unfold x38
              split
              · rename_i v39 v40
                refine Same.seq ?_ (endRecv_same ..) (by decide)
                assumption
              · rename_i v41
                assumption
            clear_value x38
            injection h with h
            refine Same.of_eq h ?_
            refine Same.seq ?_ (oweAck_same ..) (by decide)
            assumption
    · rename_i v42 v43
      split at h
      · rename_i v44
        injection h with h
        refine Same.of_eq h ?_
        refine Same.seq ?_ (nak_same ..) (by decide)
        exact Same.refl _ _
      · rename_i v45
        split at h
        · rename_i v46
          injection h with h
          refine Same.of_eq h ?_
          refine Same.seq ?_ (rnrNak_same ..) (by decide)
          exact Same.refl _ _
        · rename_i v47
          extract_lets +onlyGivenNames -merge -useContext x48 at h
          clear_value x48
          split at h
          · rename_i v49 v50 v51
            have h52 : Same 60475302785018 s v50 := by
              refine Same.of_fst v51 ?_
              refine Same.seq ?_ (memWriteC_same ..) (by decide)
              exact Same.refl _ _
            cases h
          · rename_i v53 v54 v55 v56 v57
            have h58 : Same 60475302785018 s v54 := by
              refine Same.of_fst v57 ?_
              refine Same.seq ?_ (memWriteC_same ..) (by decide)
              exact Same.refl _ _
            injection h with h
            refine Same.of_eq h ?_
            refine Same.seq ?_ (nak_same ..) (by decide)
            assumption
          · rename_i v59 v60 v61 v62
            have h63 : Same 60475302785018 s v60 := by
              refine Same.of_fst v62 ?_
              refine Same.seq ?_ (memWriteC_same ..) (by decide)
              exact Same.refl _ _
            extract_lets +onlyGivenNames -merge -useContext x64 at h
            clear_value x64
            extract_lets +onlyGivenNames -merge -useContext x65 at h
            have h65 : Same 60475302785018 s x65 := by
              unfold x65
              refine Same.seq ?_ (inflightUp_same ..) (by decide)
              assumption
            clear_value x65
            extract_lets +onlyGivenNames -merge -useContext x66 at h
            have h66 : Same 60475302785018 s x66 := by
              unfold x66
              refine Same.seq ?_ (modQp_same ..) (by decide)
              assumption
            clear_value x66
            extract_lets +onlyGivenNames -merge -useContext x67 at h
            have h67 : Same 60475302785018 s x67 := by
              unfold x67
              refine Same.seq ?_ (oweFlags_same ..) (by decide)
              refine Same.seq ?_ (accepted_same ..) (by decide)
              assumption
            clear_value x67
            extract_lets +onlyGivenNames -merge -useContext x68 at h
            have h68 : Same 60475302785018 s x68 := by
              unfold x68
              split
              · rename_i v69 v70
                refine Same.seq ?_ (endRecv_same ..) (by decide)
                assumption
              · rename_i v71
                assumption
            clear_value x68
            injection h with h
            refine Same.of_eq h ?_
            refine Same.seq ?_ (oweAck_same ..) (by decide)
            assumption

theorem ackDelayOut_same (s : State) (a1 : Nat) : Same 41781441867770 s (State.ackDelayOut s a1) := by
  unfold State.ackDelayOut
  split
  · rename_i v1 v2 v3
    refine Same.ite ?_ ?_
    · refine Same.seq ?_ (sendAck_same ..) (by decide)
      exact Same.refl _ _
    · exact Same.refl _ _
  · rename_i v4 v5
    exact Same.refl _ _

theorem miss_same (s : State) (a1 : Nat) : Same 16386 s (State.miss s a1) := by
  unfold State.miss
  extract_lets +onlyGivenNames -merge -useContext x1
  clear_value x1
  extract_lets +onlyGivenNames -merge -useContext x2
  have h2 : Same 16386 s x2 := by
    unfold x2
    refine Same.seq ?_ (count_same ..) (by decide)
    exact Same.refl _ _
  clear_value x2
  refine Same.ite ?_ ?_
  · assumption
  · refine Same.ite ?_ ?_
    · refine Same.trans h2 ?_
      constructor <;> intro hb <;> first | rfl | exact absurd hb (by decide)
    · refine Same.trans h2 ?_
      constructor <;> intro hb <;> first | rfl | exact absurd hb (by decide)

theorem whenIn_same (k : Nat) (s : State) (q : Nat) (j : CtxJob) (act : State → State) (hk : 130912764322874 ||| k = k) (ha : ∀ x, Same k x (act x)) : Same k s (s.whenIn q j act) := by
  unfold State.whenIn
  split
  · exact ha s
  · refine Same.ite ((((checkCtx_same ..).mono (k := 130912764322874) (by decide)).mono hk).trans (ha _)) (Same.ite ((((fetchIn_same ..).mono (k := 130912764322874) (by decide)).mono hk).trans (ha _)) (Same.mono (m := 130912764322874) (Same.seq (Same.ite (Same.refl _ _) ?_) (miss_same ..) (by decide)) hk))
    constructor <;> intro hb <;> first | rfl | exact absurd hb (by decide)

theorem readPieces_same (s : State) (a1 : Nat) (a2 : List (Frag × Nat × Nat × Nat)) (a3 : List Byte) : Same 41781441855546 s (State.readPieces s a1 a2 a3).1 := by
  induction a2 generalizing s a1 a3 with
  | nil =>
    rw [State.readPieces]
    dsimp only
    exact Same.refl _ _
  | cons b l ih =>
    rw [State.readPieces]
    split
    · rename_i v1 v2 v3 v4
      have h5 : Same 41781441855546 s v2 := by
        refine Same.of_fst v4 ?_
        refine Same.seq ?_ (memReadC_same ..) (by decide)
        exact Same.refl _ _
      refine Same.seq ?_ (ih ..) (by decide)
      assumption
    · rename_i v6 v7 v8 v9
      have h10 : Same 41781441855546 s v7 := by
        refine Same.of_fst v9 ?_
        refine Same.seq ?_ (memReadC_same ..) (by decide)
        exact Same.refl _ _
      dsimp only
      assumption

theorem moved_same (s : State) (a1 : Bool) (a2 : List Byte) : Same 70368744177664 s (State.moved s a1 a2).1 := by
  unfold State.moved
  refine Same.iteFst ?_ ?_
  · dsimp only
    exact Same.refl _ _
  · dsimp only
    refine Same.seq ?_ (fresh_same ..) (by decide)
    exact Same.refl _ _

theorem bufRead_same (s : State) (a1 : Nat) (a2 : Buf) (a3 : Nat) (a4 : Nat) : Same 112150186033210 s (State.bufRead s a1 a2 a3 a4).1 := by
  unfold State.bufRead
  refine Same.iteFst ?_ ?_
  · dsimp only
    exact Same.refl _ _
  · refine Same.iteFst ?_ ?_
    · split
      · rename_i v1 v2 v3 v4
        have h5 : Same 112150186033210 s v2 := by
          refine Same.of_fst v4 ?_
          refine Same.seq ?_ (memReadC_same ..) (by decide)
          exact Same.refl _ _
        dsimp only
        assumption
      · rename_i v6 v7 v8 v9
        have h10 : Same 112150186033210 s v7 := by
          refine Same.of_fst v9 ?_
          refine Same.seq ?_ (memReadC_same ..) (by decide)
          exact Same.refl _ _
        dsimp only
        assumption
    · split
      · rename_i v11 v12 v13 v14
        have h15 : Same 112150186033210 s v12 := by
          refine Same.of_fst v14 ?_
          refine Same.seq ?_ (frags_same ..) (by decide)
          exact Same.refl _ _
        extract_lets +onlyGivenNames -merge -useContext x16
        clear_value x16
        split
        · rename_i v17 v18 v19
          dsimp only
          assumption
        · rename_i v20 v21
          split
          · rename_i v22 v23 v24 v25
            have h26 : Same 112150186033210 s v23 := by
              refine Same.of_fst v25 ?_
              refine Same.seq ?_ (readPieces_same ..) (by decide)
              assumption
            extract_lets +onlyGivenNames -merge -useContext x27
            have h27 : Same 112150186033210 s x27.1 := by
              unfold x27
              refine Same.seq ?_ (moved_same ..) (by decide)
              assumption
            clear_value x27
            dsimp only
            assumption
          · rename_i v28 v29
            refine Same.seq ?_ (readPieces_same ..) (by decide)
            assumption
      · rename_i v30 v31 v32 v33
        have h34 : Same 112150186033210 s v31 := by
          refine Same.of_fst v33 ?_
          refine Same.seq ?_ (frags_same ..) (by decide)
          exact Same.refl _ _
        dsimp only
        assumption
      · rename_i v35 v36 v37 v38
        have h39 : Same 112150186033210 s v36 := by
          refine Same.of_fst v38 ?_
          refine Same.seq ?_ (frags_same ..) (by decide)
          exact Same.refl _ _
        dsimp only
        assumption
      · rename_i v40 v41 v42
        have h43 : Same 112150186033210 s v41 := by
          refine Same.of_fst v42 ?_
          refine Same.seq ?_ (frags_same ..) (by decide)
          exact Same.refl _ _
        dsimp only
        assumption

theorem sourceData_same (s : State) (a1 : QpCtx) (a2 : Live) (a3 : Nat) (a4 : Nat) : Same 112150186033210 s (State.sourceData s a1 a2 a3 a4).1 := by
  unfold State.sourceData
  refine Same.iteFst ?_ ?_
  · dsimp only
    exact Same.refl _ _
  · split
    · rename_i v1 v2 v3
      have h4 : Same 112150186033210 s v2 := by
        refine Same.of_fst v3 ?_
        refine Same.seq ?_ (bufRead_same ..) (by decide)
        exact Same.refl _ _
      dsimp only
      refine Same.seq ?_ (fresh_same ..) (by decide)
      assumption
    · rename_i v5 v6
      refine Same.seq ?_ (bufRead_same ..) (by decide)
      exact Same.refl _ _

theorem build_same (s : State) (a1 : QpCtx) (a2 : Live) (a3 : Nat) : Same 112150186033210 s (State.build s a1 a2 a3).1 := by
  unfold State.build
  extract_lets +onlyGivenNames -merge -useContext x1
  clear_value x1
  extract_lets +onlyGivenNames -merge -useContext x2
  clear_value x2
  extract_lets +onlyGivenNames -merge -useContext x3
  clear_value x3
  extract_lets +onlyGivenNames -merge -useContext x4
  extract_lets +onlyGivenNames -merge -useContext x5
  clear_value x5
  refine Same.iteFst ?_ ?_
  · refine Same.iteFst ?_ ?_
    · dsimp only
      exact Same.refl _ _
    · extract_lets +onlyGivenNames -merge -useContext x6
      clear_value x6
      extract_lets +onlyGivenNames -merge -useContext x7
      clear_value x7
      split
      · rename_i v8 v9 v10 v11
        have h12 : Same 112150186033210 s v9 := by
          refine Same.of_fst v11 ?_
          refine Same.seq ?_ (sourceData_same ..) (by decide)
          exact Same.refl _ _
        dsimp only
        assumption
      · rename_i v13 v14 v15 v16
        have h17 : Same 112150186033210 s v14 := by
          refine Same.of_fst v16 ?_
          refine Same.seq ?_ (sourceData_same ..) (by decide)
          exact Same.refl _ _
        dsimp only
        assumption
      · rename_i v18 v19 v20
        have h21 : Same 112150186033210 s v19 := by
          refine Same.of_fst v20 ?_
          refine Same.seq ?_ (sourceData_same ..) (by decide)
          exact Same.refl _ _
        dsimp only
        assumption
      · rename_i v22 v23 v24
        have h25 : Same 112150186033210 s v23 := by
          refine Same.of_fst v24 ?_
          refine Same.seq ?_ (sourceData_same ..) (by decide)
          exact Same.refl _ _
        dsimp only
        assumption
      · rename_i v26 v27 v28
        have h29 : Same 112150186033210 s v27 := by
          refine Same.of_fst v28 ?_
          refine Same.seq ?_ (sourceData_same ..) (by decide)
          exact Same.refl _ _
        dsimp only
        assumption
      · rename_i v30 v31 v32
        have h33 : Same 112150186033210 s v31 := by
          refine Same.of_fst v32 ?_
          refine Same.seq ?_ (sourceData_same ..) (by decide)
          exact Same.refl _ _
        dsimp only
        assumption
  · refine Same.iteFst ?_ ?_
    · dsimp only
      exact Same.refl _ _
    · dsimp only
      exact Same.refl _ _

theorem failEntry_same (s : State) (a1 : Nat) (a2 : Nat) (a3 : Nat) (a4 : Nat) (a5 : Bool) : Same 130912764322874 s (State.failEntry s a1 a2 a3 a4 a5) := by
  unfold State.failEntry
  split
  · rename_i v1 v2
    exact Same.refl _ _
  · rename_i v3 v4 v5
    refine Same.seq ?_ (qpError_same ..) (by decide)
    refine Same.seq ?_ (endEntry_same ..) (by decide)
    exact Same.refl _ _

theorem failReq_same (s : State) (a1 : Nat) (a2 : Nat) (a3 : Nat) (a4 : Nat) (a5 : Bool) : Same 130912764322874 s (State.failReq s a1 a2 a3 a4 a5) := by
  unfold State.failReq
  refine Same.seq ?_ (failEntry_same ..) (by decide)
  exact Same.refl _ _

theorem stopAt_same (s : State) (a1 : QpCtx) (a2 : Live) (a3 : List Frag) : Same 4390914 s (State.stopAt s a1 a2 a3) := by
  unfold State.stopAt
  split
  · rename_i v1
    exact Same.refl _ _
  · rename_i v2 v3 v4
    split
    · rename_i v5 v6 v7 v8
      have h9 : Same 4390914 s v6 := by
        refine Same.of_fst v8 ?_
        refine Same.seq ?_ (raiseFault_same ..) (by decide)
        exact Same.refl _ _
      refine Same.seq ?_ (modLive_same ..) (by decide)
      assumption
    · rename_i v10 v11 v12
      have h13 : Same 4390914 s v11 := by
        refine Same.of_fst v12 ?_
        refine Same.seq ?_ (raiseFault_same ..) (by decide)
        exact Same.refl _ _
      assumption

theorem pumpN_same (s : State) (a1 : Nat) (a2 : Nat) : Same 130912764522490 s (State.pumpN s a1 a2) := by
  induction a2 generalizing s a1 with
  | zero =>
    rw [State.pumpN]
    exact Same.refl _ _
  | succ n ih =>
    rw [State.pumpN]
    split
    · rename_i v1 v2
      exact Same.refl _ _
    · rename_i v3 v4 v5
      extract_lets +onlyGivenNames -merge -useContext x6
      clear_value x6
      extract_lets +onlyGivenNames -merge -useContext x7
      clear_value x7
      refine Same.ite ?_ ?_
      · exact Same.refl _ _
      · split
        · rename_i v8 v9
          refine Same.ite ?_ ?_
          · refine Same.seq ?_ (ih ..) (by decide)
            refine Same.seq ?_ (modQp_same ..) (by decide)
            exact Same.refl _ _
          · exact Same.refl _ _
        · rename_i v10 v11 v12
          refine Same.ite ?_ ?_
          · refine Same.seq ?_ (ih ..) (by decide)
            refine Same.seq ?_ (modQp_same ..) (by decide)
            exact Same.refl _ _
          · refine Same.ite ?_ ?_
            · exact Same.refl _ _
            · split
              · rename_i v13 v14 v15 v16 v17
                have h18 : Same 130912764522490 s v14 := by
                  refine Same.of_fst v17 ?_
                  refine Same.seq ?_ (build_same ..) (by decide)
                  exact Same.refl _ _
                split
                · rename_i v19 v20 v21
                  have h22 : Same 130912764522490 s v20 := by
                    refine Same.of_fst v21 ?_
                    refine Same.seq ?_ (pktFrame_same ..) (by decide)
                    assumption
                  assumption
                · rename_i v23 v24 v25 v26
                  have h27 : Same 130912764522490 s v24 := by
                    refine Same.of_fst v26 ?_
                    refine Same.seq ?_ (pktFrame_same ..) (by decide)
                    assumption
                  refine Same.seq ?_ (failReq_same ..) (by decide)
                  assumption
                · rename_i v28 v29 v30 v31 v32
                  have h33 : Same 130912764522490 s v29 := by
                    refine Same.of_fst v32 ?_
                    refine Same.seq ?_ (pktFrame_same ..) (by decide)
                    assumption
                  refine Same.ite ?_ ?_
                  · assumption
                  · extract_lets +onlyGivenNames -merge -useContext x34
                    have h34 : Same 130912764522490 s x34 := by
                      unfold x34
                      refine Same.seq ?_ (sendFrame_same ..) (by decide)
                      assumption
                    clear_value x34
                    extract_lets +onlyGivenNames -merge -useContext x35
                    have h35 : Same 130912764522490 s x35 := by
                      unfold x35
                      refine Same.ite ?_ ?_
                      · refine Same.seq ?_ (modQp_same ..) (by decide)
                        assumption
                      · refine Same.seq ?_ (modCtx_same ..) (by decide)
                        assumption
                    clear_value x35
                    refine Same.seq ?_ (ih ..) (by decide)
                    refine Same.seq ?_ (showOut_same ..) (by decide)
                    refine Same.seq ?_ (modLive_same ..) (by decide)
                    assumption
              · rename_i v36 v37 v38
                have h39 : Same 130912764522490 s v37 := by
                  refine Same.of_fst v38 ?_
                  refine Same.seq ?_ (build_same ..) (by decide)
                  exact Same.refl _ _
                assumption
              · rename_i v40 v41 v42 v43
                have h44 : Same 130912764522490 s v41 := by
                  refine Same.of_fst v43 ?_
                  refine Same.seq ?_ (build_same ..) (by decide)
                  exact Same.refl _ _
                refine Same.seq ?_ (stopAt_same ..) (by decide)
                assumption
              · rename_i v45 v46 v47 v48
                have h49 : Same 130912764522490 s v46 := by
                  refine Same.of_fst v48 ?_
                  refine Same.seq ?_ (build_same ..) (by decide)
                  exact Same.refl _ _
                refine Same.seq ?_ (failReq_same ..) (by decide)
                assumption

theorem pump_same (s : State) (a1 : Nat) : Same 130912764522490 s (State.pump s a1) := by
  unfold State.pump
  split
  · rename_i v1 v2 v3
    refine Same.ite ?_ ?_
    · refine Same.trans ?_ (whenIn_same (hk := by decide) (ha := ?_) ..)
      · exact Same.refl _ _
      · intro x4
        refine Same.seq ?_ (pumpN_same ..) (by decide)
        exact Same.refl _ _
    · exact Same.refl _ _
  · rename_i v7 v8
    exact Same.refl _ _

theorem finishEntries_same (s : State) (a1 : Nat) : Same 60475300651066 s (State.finishEntries s a1) := by
  unfold State.finishEntries
  split
  · rename_i v1 v2
    exact Same.refl _ _
  · rename_i v3 v4 v5
    extract_lets +onlyGivenNames -merge -useContext x6
    clear_value x6
    refine Same.seq ?_ (checkDrained_same ..) (by decide)
    refine Same.foldl _ _ _ ?_ ?_
    · intro x7 a7 h7
      refine Same.seq ?_ (endEntry_same ..) (by decide)
      assumption
    · exact Same.refl _ _

theorem ackTo_same (s : State) (a1 : Nat) (a2 : Nat) : Same 130912764522490 s (State.ackTo s a1 a2) := by
  unfold State.ackTo
  split
  · rename_i v1 v2
    exact Same.refl _ _
  · rename_i v3 v4 v5
    extract_lets +onlyGivenNames -merge -useContext x6
    clear_value x6
    extract_lets +onlyGivenNames -merge -useContext x7
    clear_value x7
    refine Same.ite ?_ ?_
    · exact Same.refl _ _
    · extract_lets +onlyGivenNames -merge -useContext x8
      clear_value x8
      refine Same.ite ?_ ?_
      · exact Same.refl _ _
      · extract_lets +onlyGivenNames -merge -useContext x9
        clear_value x9
        extract_lets +onlyGivenNames -merge -useContext x10
        have h10 : Same 130912764522490 s x10 := by
          unfold x10
          split
          · rename_i v11 v12 v13
            refine Same.seq ?_ (setQueue_same ..) (by decide)
            exact Same.refl _ _
          · rename_i v14 v15
            exact Same.refl _ _
        clear_value x10
        extract_lets +onlyGivenNames -merge -useContext x16
        have h16 : Same 130912764522490 s x16 := by
          unfold x16
          refine Same.seq ?_ (modQp_same ..) (by decide)
          assumption
        clear_value x16
        refine Same.seq ?_ (pump_same ..) (by decide)
        refine Same.seq ?_ (showOut_same ..) (by decide)
        refine Same.seq ?_ (finishEntries_same ..) (by decide)
        assumption

theorem disturbFlow_same (s : State) (a1 : Nat) : Same 4194304 s (State.disturbFlow s a1) := by
  unfold State.disturbFlow
  constructor <;> intro hb <;> first | rfl | exact absurd hb (by decide)

theorem refreshBackups_same (s : State) (a1 : Nat) : Same 4194370 s (State.refreshBackups s a1) := by
  unfold State.refreshBackups
  extract_lets +onlyGivenNames -merge -useContext x1
  have h1 : Same 4194370 s x1 := by
    unfold x1
    exact Same.refl _ _
  clear_value x1
  extract_lets +onlyGivenNames -merge -useContext x2
  clear_value x2
  extract_lets +onlyGivenNames -merge -useContext x3
  have h3 : Same 4194370 s x3 := by
    unfold x3
    refine Same.foldl _ _ _ ?_ ?_
    · intro x4 a4 h4
      refine Same.foldl _ _ _ ?_ ?_
      · intro x5 a5 h5
        split
        · rename_i v6 v7
          assumption
        · rename_i v8 v9 v10
          extract_lets +onlyGivenNames -merge -useContext x11
          clear_value x11
          extract_lets +onlyGivenNames -merge -useContext x12
          have h12 : Same 4194370 s x12 := by
            unfold x12
            refine Same.seq ?_ (setFlowRt_same ..) (by decide)
            assumption
          clear_value x12
          refine Same.ite ?_ ?_
          · extract_lets +onlyGivenNames -merge -useContext x13
            have h13 : Same 4194370 s x13 := by
              unfold x13
              refine Same.ite ?_ ?_
              · assumption
              · refine Same.seq ?_ (disturbFlow_same ..) (by decide)
                assumption
            clear_value x13
            refine Same.seq ?_ (setFlowRt_same ..) (by decide)
            assumption
          · assumption
      · assumption
    · exact Same.refl _ _
  clear_value x3
  refine Same.ite ?_ ?_
  · refine Same.seq ?_ (count_same ..) (by decide)
    assumption
  · assumption

theorem disturb_same (s : State) (a1 : Nat) : Same 4194304 s (State.disturb s a1) := by
  unfold State.disturb
  split
  · rename_i v1 v2 v3
    refine Same.seq ?_ (setQueue_same ..) (by decide)
    exact Same.refl _ _
  · rename_i v4 v5
    exact Same.refl _ _

theorem resend_same (s : State) (a1 : Nat) (a2 : Nat) : Same 130912764522490 s (State.resend s a1 a2) := by
  unfold State.resend
  split
  · rename_i v1 v2
    exact Same.refl _ _
  · rename_i v3 v4 v5
    extract_lets +onlyGivenNames -merge -useContext x6
    clear_value x6
    extract_lets +onlyGivenNames -merge -useContext x7
    clear_value x7
    refine Same.ite ?_ ?_
    · exact Same.refl _ _
    · extract_lets +onlyGivenNames -merge -useContext x8
      have h8 : Same 130912764522490 s x8 := by
        unfold x8
        refine Same.ite ?_ ?_
        · refine Same.seq ?_ (count_same ..) (by decide)
          refine Same.seq ?_ (disturb_same ..) (by decide)
          exact Same.refl _ _
        · exact Same.refl _ _
      clear_value x8
      extract_lets +onlyGivenNames -merge -useContext x9
      have h9 : Same 130912764522490 s x9 := by
        unfold x9
        refine Same.seq ?_ (pump_same ..) (by decide)
        refine Same.seq ?_ (modQp_same ..) (by decide)
        assumption
      clear_value x9
      refine Same.seq ?_ (sendResync_same ..) (by decide)
      assumption

theorem unhold_same (s : State) (a1 : Nat) (a2 : Qp) : Same 130912764522490 s (State.unhold s a1 a2) := by
  unfold State.unhold
  extract_lets +onlyGivenNames -merge -useContext x1
  have h1 : Same 130912764522490 s x1 := by
    unfold x1
    constructor <;> intro hb <;> first | rfl | exact absurd hb (by decide)
  clear_value x1
  refine Same.ite ?_ ?_
  · refine Same.seq ?_ (modQp_same ..) (by decide)
    assumption
  · refine Same.seq ?_ (pump_same ..) (by decide)
    refine Same.seq ?_ (resend_same ..) (by decide)
    assumption

theorem flowLost_same (s : State) (a1 : QpCtx) (a2 : Bool) : Same 130912764325882 s (State.flowLost s a1 a2) := by
  unfold State.flowLost
  extract_lets +onlyGivenNames -merge -useContext x1
  have h1 : Same 130912764325882 s x1 := by
    unfold x1
    refine Same.foldl _ _ _ ?_ ?_
    · intro x2 a2 h2
      refine Same.ite ?_ ?_
      · assumption
      · refine Same.seq ?_ (endEntry_same ..) (by decide)
        assumption
    · exact Same.refl _ _
  clear_value x1
  extract_lets +onlyGivenNames -merge -useContext x3
  have h3 : Same 130912764325882 s x3 := by
    unfold x3
    refine Same.seq ?_ (qpError_same ..) (by decide)
    assumption
  clear_value x3
  refine Same.ite ?_ ?_
  · refine Same.seq ?_ (sendPkt_same ..) (by decide)
    assumption
  · assumption

theorem pathsChanged_same (s : State) : Same 130912764522490 s (State.pathsChanged s) := by
  unfold State.pathsChanged
  extract_lets +onlyGivenNames -merge -useContext x1
  have h1 : Same 130912764522490 s x1 := by
    unfold x1
    refine Same.seq ?_ (refreshBackups_same ..) (by decide)
    exact Same.refl _ _
  clear_value x1
  extract_lets +onlyGivenNames -merge -useContext x2
  have h2 : Same 130912764522490 s x2 := by
    unfold x2
    refine Same.foldl _ _ _ ?_ ?_
    · intro x3 a3 h3
      split
      · rename_i v4 v5 v6
        refine Same.ite ?_ ?_
        · refine Same.seq ?_ (unhold_same ..) (by decide)
          assumption
        · assumption
      · rename_i v7 v8
        assumption
    · assumption
  clear_value x2
  refine Same.foldl _ _ _ ?_ ?_
  · intro x9 a9 h9
    extract_lets +onlyGivenNames -merge -useContext x10
    clear_value x10
    refine Same.ite ?_ ?_
    · assumption
    · split
      · rename_i v11 v12
        assumption
      · rename_i v13 v14 v15 v16
        split
        · rename_i v17 v18
          assumption
        · rename_i v19 v20 v21
          refine Same.ite ?_ ?_
          · refine Same.seq ?_ (flowLost_same ..) (by decide)
            assumption
          · assumption
  · assumption

theorem purgeHandles_same (s : State) : Same 33554432 s (State.purgeHandles s) := by
  unfold State.purgeHandles
  extract_lets +onlyGivenNames -merge -useContext x1
  clear_value x1
  constructor <;> intro hb <;> first | rfl | exact absurd hb (by decide)

theorem showImages_same (s : State) (a1 : List Image) : Same 2 s (State.showImages s a1) := by
  unfold State.showImages
  extract_lets +onlyGivenNames -merge -useContext x1
  have h1 : Same 2 s x1 := by
    unfold x1
    refine Same.foldl _ _ _ ?_ ?_
    · intro x2 a2 h2
      refine Same.seq ?_ (put_same ..) (by decide)
      assumption
    · exact Same.refl _ _
  clear_value x1
  refine Same.foldl _ _ _ ?_ ?_
  · intro x3 a3 h3
    refine Same.seq ?_ (put_same ..) (by decide)
    assumption
  · assumption

theorem putPair_same (s : State) (a1 : Fld) (a2 : Fld) (a3 : Nat) (a4 : Bool) : Same 2 s (State.putPair s a1 a2 a3 a4) := by
  unfold State.putPair
  refine Same.ite ?_ ?_
  · refine Same.seq ?_ (put_same ..) (by decide)
    exact Same.refl _ _
  · refine Same.seq ?_ (put_same ..) (by decide)
    exact Same.refl _ _

theorem showMin_same (s : State) : Same 2 s (State.showMin s) := by
  unfold State.showMin
  refine Same.seq ?_ (put_same ..) (by decide)
  exact Same.refl _ _

theorem showSched_same (s : State) (a1 : Nat) : Same 2 s (State.showSched s a1) := by
  unfold State.showSched
  extract_lets +onlyGivenNames -merge -useContext x1
  clear_value x1
  extract_lets +onlyGivenNames -merge -useContext x2
  clear_value x2
  extract_lets +onlyGivenNames -merge -useContext x3
  have h3 : Same 2 s x3 := by
    unfold x3
    refine Same.ite ?_ ?_
    · refine Same.seq ?_ (put_same ..) (by decide)
      exact Same.refl _ _
    · exact Same.refl _ _
  clear_value x3
  extract_lets +onlyGivenNames -merge -useContext x4
  have h4 : Same 2 s x4 := by
    unfold x4
    split
    · rename_i v5 v6 v7
      refine Same.seq ?_ (put_same ..) (by decide)
      refine Same.seq ?_ (put_same ..) (by decide)
      assumption
    · rename_i v8 v9
      assumption
  clear_value x4
  extract_lets +onlyGivenNames -merge -useContext x10
  have h10 : Same 2 s x10 := by
    unfold x10
    refine Same.seq ?_ (put_same ..) (by decide)
    assumption
  clear_value x10
  extract_lets +onlyGivenNames -merge -useContext x11
  have h11 : Same 2 s x11 := by
    unfold x11
    refine Same.seq ?_ (put_same ..) (by decide)
    assumption
  clear_value x11
  extract_lets +onlyGivenNames -merge -useContext x12
  have h12 : Same 2 s x12 := by
    unfold x12
    refine Same.seq ?_ (putPair_same ..) (by decide)
    assumption
  clear_value x12
  extract_lets +onlyGivenNames -merge -useContext x13
  have h13 : Same 2 s x13 := by
    unfold x13
    refine Same.seq ?_ (putPair_same ..) (by decide)
    assumption
  clear_value x13
  extract_lets +onlyGivenNames -merge -useContext x14
  have h14 : Same 2 s x14 := by
    unfold x14
    refine Same.seq ?_ (put_same ..) (by decide)
    refine Same.seq ?_ (put_same ..) (by decide)
    assumption
  clear_value x14
  refine Same.seq ?_ (showMin_same ..) (by decide)
  refine Same.seq ?_ (put_same ..) (by decide)
  assumption

theorem repin_same (s : State) : Same 60475300668474 s (State.repin s) := by
  unfold State.repin
  extract_lets +onlyGivenNames -merge -useContext x1
  clear_value x1
  extract_lets +onlyGivenNames -merge -useContext x2
  clear_value x2
  refine Same.foldl _ _ _ ?_ ?_
  · intro x3 a3 h3
    extract_lets +onlyGivenNames -merge -useContext x4
    have h4 : Same 60475300668474 s x4 := by
      unfold x4
      refine Same.ite ?_ ?_
      · refine Same.seq ?_ (fetchIn_same ..) (by decide)
        assumption
      · assumption
    clear_value x4
    refine Same.seq ?_ (showBank_same ..) (by decide)
    refine Same.seq ?_ (modQp_same ..) (by decide)
    assumption
  · exact Same.refl _ _

theorem schedChanged_same (s : State) (a1 : Nat) (a2 : List Image) : Same 130912798076922 s (State.schedChanged s a1 a2) := by
  unfold State.schedChanged
  refine Same.seq ?_ (pathsChanged_same ..) (by decide)
  refine Same.seq ?_ (purgeHandles_same ..) (by decide)
  refine Same.seq ?_ (showImages_same ..) (by decide)
  refine Same.seq ?_ (showSched_same ..) (by decide)
  refine Same.seq ?_ (repin_same ..) (by decide)
  exact Same.refl _ _

theorem showRed_same (s : State) (a1 : Nat) : Same 2 s (State.showRed s a1) := by
  unfold State.showRed
  extract_lets +onlyGivenNames -merge -useContext x1
  clear_value x1
  extract_lets +onlyGivenNames -merge -useContext x2
  clear_value x2
  refine Same.seq ?_ (put_same ..) (by decide)
  refine Same.seq ?_ (put_same ..) (by decide)
  refine Same.seq ?_ (put_same ..) (by decide)
  exact Same.refl _ _

theorem setCluster_same (s : State) (a1 : Nat) (a2 : Cluster) : Same 16777216 s (State.setCluster s a1 a2) := by
  unfold State.setCluster
  constructor <;> intro hb <;> first | rfl | exact absurd hb (by decide)

theorem spillSegs_same (s : State) (a1 : Nat) : Same 16777218 s (State.spillSegs s a1) := by
  unfold State.spillSegs
  extract_lets +onlyGivenNames -merge -useContext x1
  clear_value x1
  extract_lets +onlyGivenNames -merge -useContext x2
  extract_lets +onlyGivenNames -merge -useContext x3
  clear_value x3
  split
  · rename_i v4 v5 v6 v7
    refine Same.seq ?_ (showRed_same ..) (by decide)
    refine Same.seq ?_ (setCluster_same ..) (by decide)
    exact Same.refl _ _

theorem verdict_same (s : State) (a1 : Nat) (a2 : Nat) : Same 35184372088882 s (State.verdict s a1 a2) := by
  unfold State.verdict
  refine Same.seq ?_ (vector_same ..) (by decide)
  refine Same.seq ?_ (put_same ..) (by decide)
  refine Same.seq ?_ (put_same ..) (by decide)
  refine Same.seq ?_ (put_same ..) (by decide)
  exact Same.refl _ _

theorem admitted_same (s : State) (a1 : Nat) (a2 : Image) : Same 130912814854138 s (State.admitted s a1 a2) := by
  unfold State.admitted
  extract_lets +onlyGivenNames -merge -useContext x1
  clear_value x1
  extract_lets +onlyGivenNames -merge -useContext x2
  have h2 : Same 130912814854138 s x2 := by
    unfold x2
    refine Same.seq ?_ (put_same ..) (by decide)
    constructor <;> intro hb <;> first | rfl | exact absurd hb (by decide)
  clear_value x2
  extract_lets +onlyGivenNames -merge -useContext x3
  have h3 : Same 130912814854138 s x3 := by
    unfold x3
    refine Same.seq ?_ (schedChanged_same ..) (by decide)
    assumption
  clear_value x3
  extract_lets +onlyGivenNames -merge -useContext x4
  have h4 : Same 130912814854138 s x4 := by
    unfold x4
    refine Same.foldl _ _ _ ?_ ?_
    · intro x5 a5 h5
      refine Same.seq ?_ (spillSegs_same ..) (by decide)
      assumption
    · assumption
  clear_value x4
  refine Same.seq ?_ (verdict_same ..) (by decide)
  assumption

theorem advanceFt_same (s : State) (a1 : Nat) : Same 844424930131972 s (State.advanceFt s a1) := by
  unfold State.advanceFt
  extract_lets +onlyGivenNames -merge -useContext x1
  clear_value x1
  constructor <;> intro hb <;> first | rfl | exact absurd hb (by decide)

theorem putDigest_same (s : State) (a1 : Nat) (a2 : List Byte) : Same 2 s (State.putDigest s a1 a2) := by
  unfold State.putDigest
  refine Same.foldl _ _ _ ?_ ?_
  · intro x1 a1 h1
    refine Same.seq ?_ (setReg_same ..) (by decide)
    assumption
  · exact Same.refl _ _

theorem extend_same (s : State) (a1 : Nat) (a2 : List Byte) : Same 2 s (State.extend s a1 a2) := by
  unfold State.extend
  refine Same.seq ?_ (putDigest_same ..) (by decide)
  exact Same.refl _ _

theorem extendDmr4_same (s : State) : Same 2 s (State.extendDmr4 s) := by
  unfold State.extendDmr4
  refine Same.seq ?_ (extend_same ..) (by decide)
  exact Same.refl _ _

theorem setDebug_same (s : State) (a1 : Nat) : Same 2 s (State.setDebug s a1) := by
  unfold State.setDebug
  refine Same.ite ?_ ?_
  · exact Same.refl _ _
  · refine Same.seq ?_ (extendDmr4_same ..) (by decide)
    refine Same.seq ?_ (put_same ..) (by decide)
    exact Same.refl _ _

theorem cancelRaise_same (s : State) : Same 268435456 s (State.cancelRaise s) := by
  unfold State.cancelRaise
  constructor <;> intro hb <;> first | rfl | exact absurd hb (by decide)

theorem dropNonce_same (s : State) : Same 268435456 s (State.dropNonce s) := by
  unfold State.dropNonce
  constructor <;> intro hb <;> first | rfl | exact absurd hb (by decide)

theorem modCore_same (s : State) (a1 : Nat) (a2 : Core → Core) : Same 8388608 s (State.modCore s a1 a2) := by
  unfold State.modCore
  refine Same.seq ?_ (setCore_same ..) (by decide)
  exact Same.refl _ _

theorem wipeSecure_same (s : State) : Same 8388608 s (State.wipeSecure s) := by
  unfold State.wipeSecure
  refine Same.foldl _ _ _ ?_ ?_
  · intro x1 a1 h1
    refine Same.ite ?_ ?_
    · refine Same.seq ?_ (modCore_same ..) (by decide)
      assumption
    · assumption
  · exact Same.refl _ _

theorem keyCmdEnd_same (s : State) (a1 : HostId) (a2 : Nat) : Same 2 s (State.keyCmdEnd s a1 a2) := by
  unfold State.keyCmdEnd
  refine Same.seq ?_ (put_same ..) (by decide)
  refine Same.seq ?_ (put_same ..) (by decide)
  refine Same.seq ?_ (put_same ..) (by decide)
  exact Same.refl _ _

theorem endKeyLoads_same (s : State) : Same 70369012613122 s (State.endKeyLoads s) := by
  unfold State.endKeyLoads
  refine Same.foldl _ _ _ ?_ ?_
  · intro x1 a1 h1
    refine Same.seq ?_ (keyCmdEnd_same ..) (by decide)
    refine Same.seq ?_ (fresh_same ..) (by decide)
    assumption
  · constructor <;> intro hb <;> first | rfl | exact absurd hb (by decide)

theorem resetReg_same (s : State) (a1 : Nat) : Same 2 s (State.resetReg s a1) := by
  unfold State.resetReg
  constructor <;> intro hb <;> first | rfl | exact absurd hb (by decide)

theorem setKey_same (s : State) (a1 : Nat) (a2 : Option (List Byte)) : Same 268435458 s (State.setKey s a1 a2) := by
  unfold State.setKey
  split
  · rename_i v1 v2
    refine Same.seq ?_ (put_same ..) (by decide)
    refine Same.seq ?_ (put_same ..) (by decide)
    constructor <;> intro hb <;> first | rfl | exact absurd hb (by decide)
  · rename_i v3
    refine Same.seq ?_ (resetReg_same ..) (by decide)
    constructor <;> intro hb <;> first | rfl | exact absurd hb (by decide)

theorem eraseKeys_same (s : State) (a1 : Nat → Bool) : Same 268435458 s (State.eraseKeys s a1) := by
  unfold State.eraseKeys
  refine Same.foldl _ _ _ ?_ ?_
  · intro x1 a1 h1
    refine Same.seq ?_ (setKey_same ..) (by decide)
    assumption
  · exact Same.refl _ _

theorem flushKeyCmds_same (s : State) : Same 268435458 s (State.flushKeyCmds s) := by
  unfold State.flushKeyCmds
  extract_lets +onlyGivenNames -merge -useContext x1
  clear_value x1
  extract_lets +onlyGivenNames -merge -useContext x2
  extract_lets +onlyGivenNames -merge -useContext x3
  have h3 : Same 268435458 s x3 := by
    unfold x3
    constructor <;> intro hb <;> first | rfl | exact absurd hb (by decide)
  clear_value x3
  refine Same.foldl _ _ _ ?_ ?_
  · intro x4 a4 h4
    refine Same.seq ?_ (keyCmdEnd_same ..) (by decide)
    refine Same.seq ?_ (setKey_same ..) (by decide)
    assumption
  · assumption

theorem eraseAllKeys_same (s : State) : Same 70369021001730 s (State.eraseAllKeys s) := by
  unfold State.eraseAllKeys
  extract_lets +onlyGivenNames -merge -useContext x1
  have h1 : Same 70369021001730 s x1 := by
    unfold x1
    refine Same.seq ?_ (endKeyLoads_same ..) (by decide)
    exact Same.refl _ _
  clear_value x1
  extract_lets +onlyGivenNames -merge -useContext x2
  have h2 : Same 70369021001730 s x2 := by
    unfold x2
    refine Same.trans h1 ?_
    constructor <;> intro hb <;> first | rfl | exact absurd hb (by decide)
  clear_value x2
  refine Same.seq ?_ (eraseKeys_same ..) (by decide)
  refine Same.seq ?_ (flushKeyCmds_same ..) (by decide)
  assumption

theorem setPower_same (s : State) (a1 : Nat) : Same 2 s (State.setPower s a1) := by
  unfold State.setPower
  refine Same.ite ?_ ?_
  · exact Same.refl _ _
  · refine Same.seq ?_ (extendDmr4_same ..) (by decide)
    refine Same.seq ?_ (put_same ..) (by decide)
    exact Same.refl _ _

theorem pktGone_same (s : State) (a1 : RxPkt) : Same 35184372089026 s (State.pktGone s a1) := by
  unfold State.pktGone
  refine Same.seq ?_ (frameGone_same ..) (by decide)
  exact Same.refl _ _

theorem missRelease_same (s : State) (a1 : Nat) : Same 35184372088960 s (State.missRelease s a1) := by
  unfold State.missRelease
  extract_lets +onlyGivenNames -merge -useContext x1
  clear_value x1
  refine Same.ite ?_ ?_
  · extract_lets +onlyGivenNames -merge -useContext x2
    have h2 : Same 35184372088960 s x2 := by
      unfold x2
      refine Same.seq ?_ (setPort_same ..) (by decide)
      exact Same.refl _ _
    clear_value x2
    refine Same.foldl _ _ _ ?_ ?_
    · intro x3 a3 h3
      refine Same.ite ?_ ?_
      · assumption
      · refine Same.seq ?_ (sendPause_same ..) (by decide)
        assumption
    · assumption
  · exact Same.refl _ _

theorem clearPackets_same (s : State) : Same 35184372089538 s (State.clearPackets s) := by
  unfold State.clearPackets
  extract_lets +onlyGivenNames -merge -useContext x1
  clear_value x1
  extract_lets +onlyGivenNames -merge -useContext x2
  have h2 : Same 35184372089538 s x2 := by
    unfold x2
    refine Same.foldl _ _ _ ?_ ?_
    · intro x3 a3 h3
      refine Same.seq ?_ (count_same ..) (by decide)
      refine Same.seq ?_ (pktGone_same ..) (by decide)
      assumption
    · constructor <;> intro hb <;> first | rfl | exact absurd hb (by decide)
  clear_value x2
  refine Same.foldl _ _ _ ?_ ?_
  · intro x4 a4 h4
    refine Same.seq ?_ (missRelease_same ..) (by decide)
    refine Same.seq ?_ (count_same ..) (by decide)
    refine Same.seq ?_ (setPort_same ..) (by decide)
    assumption
  · assumption

theorem partCmdEnd_same (s : State) (a1 : HostId) (a2 : Nat) : Same 35184372088882 s (State.partCmdEnd s a1 a2) := by
  unfold State.partCmdEnd
  refine Same.seq ?_ (vector_same ..) (by decide)
  refine Same.seq ?_ (put_same ..) (by decide)
  refine Same.seq ?_ (put_same ..) (by decide)
  refine Same.seq ?_ (put_same ..) (by decide)
  exact Same.refl _ _

theorem clearParts_body : State.clearParts = fun (s : State) =>
  let s := (List.range 64).foldl (fun s p => if s.pstate p = 3 then s.put (Reg.PART_STS.STATE p) 2 else s) s
  let s := (List.range 1023).foldl (fun s i => if s.get (Reg.PART_INST.STATE i) = 2 then s.put (Reg.PART_INST.STATE i) 1 else s) s
  let hs := s.parts.freezes.map (·.host) ++ s.parts.insts.map (·.host)
  hs.foldl (fun s h => s.partCmdEnd h 1) { s with parts := { s.parts with freezes := [], insts := [] } } := rfl

theorem clearParts_same (s : State) : Same 35184908959794 s (State.clearParts s) := by
  rw [clearParts_body]
  beta_reduce
  extract_lets +onlyGivenNames -merge -useContext x1
  have h1 : Same 35184908959794 s x1 := by
    unfold x1
    refine Same.foldl _ _ _ ?_ ?_
    · intro x2 a2 h2
      refine Same.ite ?_ ?_
      · refine Same.seq ?_ (put_same ..) (by decide)
        assumption
      · assumption
    · exact Same.refl _ _
  clear_value x1
  extract_lets +onlyGivenNames -merge -useContext x3
  have h3 : Same 35184908959794 s x3 := by
    unfold x3
    refine Same.foldl _ _ _ ?_ ?_
    · intro x4 a4 h4
      refine Same.ite ?_ ?_
      · refine Same.seq ?_ (put_same ..) (by decide)
        assumption
      · assumption
    · assumption
  clear_value x3
  extract_lets +onlyGivenNames -merge -useContext x5
  clear_value x5
  refine Same.foldl _ _ _ ?_ ?_
  · intro x6 a6 h6
    refine Same.seq ?_ (partCmdEnd_same ..) (by decide)
    assumption
  · obtain ⟨y7, h7, rfl⟩ : ∃ y, Same 35184908959794 s y ∧ y = x3 := ⟨_, h3, rfl⟩
    refine Same.trans h7 ?_
    constructor <;> intro hb <;> first | rfl | exact absurd hb (by decide)

theorem unbind_same (s : State) (a1 : Nat) : Same 33554434 s (State.unbind s a1) := by
  unfold State.unbind
  extract_lets +onlyGivenNames -merge -useContext x1
  have h1 : Same 33554434 s x1 := by
    unfold x1
    constructor <;> intro hb <;> first | rfl | exact absurd hb (by decide)
  clear_value x1
  refine Same.seq ?_ (put_same ..) (by decide)
  assumption

theorem dropEvent_same (s : State) (a1 : Nat) (a2 : CoreEv) : Same 60475300651066 s (State.dropEvent s a1 a2) := by
  unfold State.dropEvent
  split
  · rename_i v1 v2
    refine Same.seq ?_ (endEntry_same ..) (by decide)
    exact Same.refl _ _
  · rename_i v3 v4
    refine Same.seq ?_ (count_same ..) (by decide)
    exact Same.refl _ _
  · rename_i v5 v6 v7
    refine Same.seq ?_ (count_same ..) (by decide)
    exact Same.refl _ _

theorem coreActive_same (s : State) (a1 : Nat) (a2 : Bool) : Same 274877906944 s (State.coreActive s a1 a2) := by
  unfold State.coreActive
  refine Same.ite ?_ ?_
  · constructor <;> intro hb <;> first | rfl | exact absurd hb (by decide)
  · exact Same.refl _ _

theorem showEvents_same (s : State) (a1 : Nat) : Same 274877906946 s (State.showEvents s a1) := by
  unfold State.showEvents
  refine Same.seq ?_ (coreActive_same ..) (by decide)
  refine Same.seq ?_ (put_same ..) (by decide)
  exact Same.refl _ _

theorem dropEvents_same (s : State) (a1 : Nat) : Same 60750178558010 s (State.dropEvents s a1) := by
  unfold State.dropEvents
  extract_lets +onlyGivenNames -merge -useContext x1
  clear_value x1
  refine Same.foldl _ _ _ ?_ ?_
  · intro x2 a2 h2
    refine Same.seq ?_ (dropEvent_same ..) (by decide)
    assumption
  · refine Same.seq ?_ (showEvents_same ..) (by decide)
    refine Same.seq ?_ (modCore_same ..) (by decide)
    exact Same.refl _ _

theorem setCoreSt_same (s : State) (a1 : Nat) (a2 : Nat) : Same 274877906946 s (State.setCoreSt s a1 a2) := by
  unfold State.setCoreSt
  refine Same.seq ?_ (coreActive_same ..) (by decide)
  refine Same.seq ?_ (put_same ..) (by decide)
  exact Same.refl _ _

theorem emptyCore_same (s : State) (a1 : Nat) : Same 60750212112442 s (State.emptyCore s a1) := by
  unfold State.emptyCore
  extract_lets +onlyGivenNames -merge -useContext x1
  have h1 : Same 60750212112442 s x1 := by
    unfold x1
    refine Same.seq ?_ (unbind_same ..) (by decide)
    refine Same.seq ?_ (dropEvents_same ..) (by decide)
    exact Same.refl _ _
  clear_value x1
  extract_lets +onlyGivenNames -merge -useContext x2
  have h2 : Same 60750212112442 s x2 := by
    unfold x2
    refine Same.seq ?_ (setCore_same ..) (by decide)
    assumption
  clear_value x2
  extract_lets +onlyGivenNames -merge -useContext x3
  have h3 : Same 60750212112442 s x3 := by
    unfold x3
    refine Same.seq ?_ (put_same ..) (by decide)
    refine Same.seq ?_ (put_same ..) (by decide)
    assumption
  clear_value x3
  refine Same.seq ?_ (setCoreSt_same ..) (by decide)
  assumption

theorem resetRegs_same (s : State) (a1 : Nat → Bool) : Same 2 s (State.resetRegs s a1) := by
  unfold State.resetRegs
  constructor <;> intro hb <;> first | rfl | exact absurd hb (by decide)

theorem clearCores_same (s : State) : Same 60750547656762 s (State.clearCores s) := by
  unfold State.clearCores
  extract_lets +onlyGivenNames -merge -useContext x1
  have h1 : Same 60750547656762 s x1 := by
    unfold x1
    refine Same.seq ?_ (flushKeyCmds_same ..) (by decide)
    refine Same.foldl _ _ _ ?_ ?_
    · intro x2 a2 h2
      refine Same.seq ?_ (emptyCore_same ..) (by decide)
      assumption
    · exact Same.refl _ _
  clear_value x1
  refine Same.seq ?_ (resetRegs_same ..) (by decide)
  refine Same.seq ?_ (purgeHandles_same ..) (by decide)
  refine Same.trans h1 ?_
  constructor <;> intro hb <;> first | rfl | exact absurd hb (by decide)

theorem putDesc_same (s : State) (a1 : Nat) (a2 : List Byte) : Same 60473139527738 s (State.putDesc s a1 a2) := by
  unfold State.putDesc
  refine Same.seq ?_ (sysWrite_same ..) (by decide)
  exact Same.refl _ _

theorem dropQueue_same (s : State) (a1 : Nat) : Same 60473143722042 s (State.dropQueue s a1) := by
  unfold State.dropQueue
  refine Same.seq ?_ (put_same ..) (by decide)
  refine Same.seq ?_ (putDesc_same ..) (by decide)
  constructor <;> intro hb <;> first | rfl | exact absurd hb (by decide)

theorem kcmdEnd_same (s : State) (a1 : HostId) (a2 : Nat) : Same 35184372088882 s (State.kcmdEnd s a1 a2) := by
  unfold State.kcmdEnd
  refine Same.seq ?_ (vector_same ..) (by decide)
  refine Same.seq ?_ (put_same ..) (by decide)
  refine Same.seq ?_ (put_same ..) (by decide)
  refine Same.seq ?_ (put_same ..) (by decide)
  exact Same.refl _ _

theorem endJobs_same (s : State) (a1 : Nat) : Same 35184372105266 s (State.endJobs s a1) := by
  unfold State.endJobs
  extract_lets +onlyGivenNames -merge -useContext x1
  clear_value x1
  extract_lets +onlyGivenNames -merge -useContext x2
  clear_value x2
  extract_lets +onlyGivenNames -merge -useContext x3
  have h3 : Same 35184372105266 s x3 := by
    unfold x3
    constructor <;> intro hb <;> first | rfl | exact absurd hb (by decide)
  clear_value x3
  refine Same.foldl _ _ _ ?_ ?_
  · intro x4 a4 h4
    split
    · rename_i v5 v6 v7 v8 v9 v10
      refine Same.seq ?_ (kcmdEnd_same ..) (by decide)
      assumption
    · rename_i v11 v12
      assumption
  · assumption

theorem freeSlotOf_same (s : State) (a1 : Qp) : Same 16384 s (State.freeSlotOf s a1) := by
  unfold State.freeSlotOf
  refine Same.ite ?_ ?_
  · constructor <;> intro hb <;> first | rfl | exact absurd hb (by decide)
  · exact Same.refl _ _

theorem dropQp_same (s : State) (a1 : Nat) : Same 35184372114482 s (State.dropQp s a1) := by
  unfold State.dropQp
  split
  · rename_i v1 v2
    exact Same.refl _ _
  · rename_i v3 v4 v5
    extract_lets +onlyGivenNames -merge -useContext x6
    have h6 : Same 35184372114482 s x6 := by
      unfold x6
      refine Same.seq ?_ (endJobs_same ..) (by decide)
      refine Same.seq ?_ (freeSlotOf_same ..) (by decide)
      exact Same.refl _ _
    clear_value x6
    extract_lets +onlyGivenNames -merge -useContext x7
    clear_value x7
    extract_lets +onlyGivenNames -merge -useContext x8
    have h8 : Same 35184372114482 s x8 := by
      unfold x8
      refine Same.trans h6 ?_
      constructor <;> intro hb <;> first | rfl | exact absurd hb (by decide)
    clear_value x8
    refine Same.seq ?_ (showBank_same ..) (by decide)
    refine Same.seq ?_ (put_same ..) (by decide)
    assumption

theorem tellRevoked_same (s : State) (a1 : RevWaiter) : Same 60475300651066 s (State.tellRevoked s a1) := by
  unfold State.tellRevoked
  split
  · rename_i v1 v2 v3
    refine Same.seq ?_ (endEntry_same ..) (by decide)
    exact Same.refl _ _
  · rename_i v4 v5
    refine Same.seq ?_ (put_same ..) (by decide)
    refine Same.seq ?_ (put_same ..) (by decide)
    exact Same.refl _ _
  · rename_i v6
    exact Same.refl _ _

theorem freeWindows_same (s : State) : Same 32770 s (State.freeWindows s) := by
  unfold State.freeWindows
  extract_lets +onlyGivenNames -merge -useContext x1
  have h1 : Same 32770 s x1 := by
    unfold x1
    refine Same.foldl _ _ _ ?_ ?_
    · intro x2 a2 h2
      refine Same.ite ?_ ?_
      · assumption
      · refine Same.seq ?_ (setWin_same ..) (by decide)
        assumption
    · exact Same.refl _ _
  clear_value x1
  refine Same.trans h1 ?_
  constructor <;> intro hb <;> first | rfl | exact absurd hb (by decide)

theorem clearWork_same (s : State) : Same 60497868612666 s (State.clearWork s) := by
  unfold State.clearWork
  extract_lets +onlyGivenNames -merge -useContext x1
  have h1 : Same 60497868612666 s x1 := by
    unfold x1
    refine Same.foldl _ _ _ ?_ ?_
    · intro x2 a2 h2
      refine Same.seq ?_ (dropQueue_same ..) (by decide)
      assumption
    · exact Same.refl _ _
  clear_value x1
  extract_lets +onlyGivenNames -merge -useContext x3
  have h3 : Same 60497868612666 s x3 := by
    unfold x3
    refine Same.foldl _ _ _ ?_ ?_
    · intro x4 a4 h4
      refine Same.seq ?_ (dropQp_same ..) (by decide)
      assumption
    · assumption
  clear_value x3
  extract_lets +onlyGivenNames -merge -useContext x5
  have h5 : Same 60497868612666 s x5 := by
    unfold x5
    refine Same.trans h3 ?_
    constructor <;> intro hb <;> first | rfl | exact absurd hb (by decide)
  clear_value x5
  extract_lets +onlyGivenNames -merge -useContext x6
  clear_value x6
  extract_lets +onlyGivenNames -merge -useContext x7
  have h7 : Same 60497868612666 s x7 := by
    unfold x7
    refine Same.foldl _ _ _ ?_ ?_
    · intro x8 a8 h8
      refine Same.seq ?_ (tellRevoked_same ..) (by decide)
      assumption
    · refine Same.seq ?_ (freeWindows_same ..) (by decide)
      assumption
  clear_value x7
  extract_lets +onlyGivenNames -merge -useContext x9
  have h9 : Same 60497868612666 s x9 := by
    unfold x9
    refine Same.seq ?_ (setSheep_same ..) (by decide)
    refine Same.seq ?_ (setSheep_same ..) (by decide)
    assumption
  clear_value x9
  extract_lets +onlyGivenNames -merge -useContext x10
  have h10 : Same 60497868612666 s x10 := by
    unfold x10
    refine Same.trans h9 ?_
    constructor <;> intro hb <;> first | rfl | exact absurd hb (by decide)
  clear_value x10
  refine Same.foldl _ _ _ ?_ ?_
  · intro x11 a11 h11
    refine Same.seq ?_ (showRed_same ..) (by decide)
    refine Same.seq ?_ (setCluster_same ..) (by decide)
    assumption
  · assumption

theorem computeReset_body : State.computeReset = fun (s : State) (need : Bool) =>
  if s.computeAbsorbed then s
  else
    let s := ((s.put Reg.GLB_STS.RESET_EVT 1).put Reg.GLB_STS.READY 0).put Reg.GLB_STS.STAGE 9
    let s := s.setPower 2
    let s := (List.range 64).foldl (fun s p =>
      if s.native p && s.get (Reg.LINK_STS.STATE p) == 2 then s.put (Reg.LINK_STS.STATE p) 3 else s) s
    let s := s.clearWork.clearCores.clearParts.clearPackets
    { s with boot := { s.boot with targets := [], sent := [], clearing := true, needResume := s.boot.needResume || need } } := rfl

theorem computeReset_same (s : State) (a1 : Bool) : Same 60808012228346 s (State.computeReset s a1) := by
  rw [computeReset_body]
  beta_reduce
  refine Same.ite ?_ ?_
  · exact Same.refl _ _
  · extract_lets +onlyGivenNames -merge -useContext x1
    have h1 : Same 60808012228346 s x1 := by
      unfold x1
      refine Same.seq ?_ (put_same ..) (by decide)
      refine Same.seq ?_ (put_same ..) (by decide)
      refine Same.seq ?_ (put_same ..) (by decide)
      exact Same.refl _ _
    clear_value x1
    extract_lets +onlyGivenNames -merge -useContext x2
    have h2 : Same 60808012228346 s x2 := by
      unfold x2
      refine Same.seq ?_ (setPower_same ..) (by decide)
      assumption
    clear_value x2
    extract_lets +onlyGivenNames -merge -useContext x3
    have h3 : Same 60808012228346 s x3 := by
      unfold x3
      refine Same.foldl _ _ _ ?_ ?_
      · intro x4 a4 h4
        refine Same.ite ?_ ?_
        · refine Same.seq ?_ (put_same ..) (by decide)
          assumption
        · assumption
      · assumption
    clear_value x3
    extract_lets +onlyGivenNames -merge -useContext x5
    have h5 : Same 60808012228346 s x5 := by
      unfold x5
      refine Same.seq ?_ (clearPackets_same ..) (by decide)
      refine Same.seq ?_ (clearParts_same ..) (by decide)
      refine Same.seq ?_ (clearCores_same ..) (by decide)
      refine Same.seq ?_ (clearWork_same ..) (by decide)
      assumption
    clear_value x5
    obtain ⟨y6, h6, rfl⟩ : ∃ y, Same 60808012228346 s y ∧ y = x5 := ⟨_, h5, rfl⟩
    refine Same.trans h6 ?_
    constructor <;> intro hb <;> first | rfl | exact absurd hb (by decide)

theorem showFault_same (s : State) : Same 549755813888 s (State.showFault s) := by
  unfold State.showFault
  constructor <;> intro hb <;> first | rfl | exact absurd hb (by decide)

theorem cause_same (s : State) (a1 : Fld) : Same 549755813890 s (State.cause s a1) := by
  unfold State.cause
  refine Same.seq ?_ (showFault_same ..) (by decide)
  refine Same.seq ?_ (put_same ..) (by decide)
  exact Same.refl _ _

theorem alarm_same (s : State) (a1 : Nat) : Same 131726512219898 s (State.alarm s a1) := by
  unfold State.alarm
  refine Same.ite ?_ ?_
  · exact Same.refl _ _
  · extract_lets +onlyGivenNames -merge -useContext x1
    have h1 : Same 131726512219898 s x1 := by
      unfold x1
      refine Same.seq ?_ (put_same ..) (by decide)
      exact Same.refl _ _
    clear_value x1
    extract_lets +onlyGivenNames -merge -useContext x2
    clear_value x2
    refine Same.ite ?_ ?_
    · assumption
    · extract_lets +onlyGivenNames -merge -useContext x3
      have h3 : Same 131726512219898 s x3 := by
        unfold x3
        refine Same.seq ?_ (setDebug_same ..) (by decide)
        refine Same.seq ?_ (cancelRaise_same ..) (by decide)
        refine Same.seq ?_ (dropNonce_same ..) (by decide)
        refine Same.seq ?_ (wipeSecure_same ..) (by decide)
        refine Same.seq ?_ (eraseAllKeys_same ..) (by decide)
        assumption
      clear_value x3
      extract_lets +onlyGivenNames -merge -useContext x4
      have h4 : Same 131726512219898 s x4 := by
        unfold x4
        refine Same.foldl _ _ _ ?_ ?_
        · intro x5 a5 h5
          refine Same.seq ?_ (event_same ..) (by decide)
          assumption
        · assumption
      clear_value x4
      extract_lets +onlyGivenNames -merge -useContext x6
      have h6 : Same 131726512219898 s x6 := by
        unfold x6
        refine Same.seq ?_ (put_same ..) (by decide)
        assumption
      clear_value x6
      extract_lets +onlyGivenNames -merge -useContext x7
      have h7 : Same 131726512219898 s x7 := by
        unfold x7
        refine Same.seq ?_ (count_same ..) (by decide)
        refine Same.seq ?_ (count_same ..) (by decide)
        assumption
      clear_value x7
      refine Same.seq ?_ (computeReset_same ..) (by decide)
      refine Same.seq ?_ (cause_same ..) (by decide)
      assumption

theorem answerLaneReq_same (s : State) (a1 : Nat) (a2 : Nat) (a3 : Nat) (a4 : Nat) (a5 : Nat) : Same 35184372088960 s (State.answerLaneReq s a1 a2 a3 a4 a5) := by
  unfold State.answerLaneReq
  extract_lets +onlyGivenNames -merge -useContext x1
  clear_value x1
  refine Same.ite ?_ ?_
  · refine Same.seq ?_ (sendOs_same ..) (by decide)
    exact Same.refl _ _
  · refine Same.ite ?_ ?_
    · refine Same.seq ?_ (sendOs_same ..) (by decide)
      exact Same.refl _ _
    · refine Same.ite ?_ ?_
      · refine Same.seq ?_ (sendOs_same ..) (by decide)
        exact Same.refl _ _
      · refine Same.seq ?_ (sendOs_same ..) (by decide)
        refine Same.seq ?_ (setPort_same ..) (by decide)
        exact Same.refl _ _

theorem applyFields_same (s : State) (a1 : RegRow) (a2 : Nat) (a3 : Word) (a4 : Bool) : Same 2 s (State.applyFields s a1 a2 a3 a4) := by
  unfold State.applyFields
  refine Same.seq ?_ (setReg_same ..) (by decide)
  exact Same.refl _ _

theorem applyWrite_same (s : State) (a1 : Nat) (a2 : Word) : Same 2 s (State.applyWrite s a1 a2) := by
  unfold State.applyWrite
  split
  · rename_i v1 v2
    exact Same.refl _ _
  · rename_i v3 v4 v5 v6
    refine Same.ite ?_ ?_
    · extract_lets +onlyGivenNames -merge -useContext x7
      clear_value x7
      refine Same.ite ?_ ?_
      · refine Same.seq ?_ (applyFields_same ..) (by decide)
        exact Same.refl _ _
      · refine Same.seq ?_ (put_same ..) (by decide)
        exact Same.refl _ _
    · refine Same.seq ?_ (applyFields_same ..) (by decide)
      exact Same.refl _ _

theorem armSet_same (s : State) : Same 6 s (State.armSet s) := by
  unfold State.armSet
  extract_lets +onlyGivenNames -merge -useContext x1
  clear_value x1
  refine Same.ite ?_ ?_
  · refine Same.seq ?_ (put_same ..) (by decide)
    exact Same.refl _ _
  · extract_lets +onlyGivenNames -merge -useContext x2
    have h2 : Same 6 s x2 := by
      unfold x2
      refine Same.seq ?_ (put_same ..) (by decide)
      exact Same.refl _ _
    clear_value x2
    refine Same.trans h2 ?_
    constructor <;> intro hb <;> first | rfl | exact absurd hb (by decide) | (dsimp only; split <;> rfl) | (simp only [h2.ftNs hb]; done) | exact (h2.ftNs hb).symm | (simp only [h2.ftFrac hb]; done) | exact (h2.ftFrac hb).symm | (simp only [h2.fuses hb]; done) | exact (h2.fuses hb).symm

theorem askLanes_same (s : State) (a1 : Nat) : Same 35184372088960 s (State.askLanes s a1) := by
  unfold State.askLanes
  refine Same.ite ?_ ?_
  · exact Same.refl _ _
  · split
    · rename_i v1 v2 v3 v4
      refine Same.seq ?_ (laneRequest_same ..) (by decide)
      exact Same.refl _ _
    · rename_i v5 v6
      exact Same.refl _ _

theorem b4ReadUnit_same (s : State) (a1 : HostId) (a2 : B4Map) (a3 : Nat) : Same 112150186033210 s (State.b4ReadUnit s a1 a2 a3).1 := by
  unfold State.b4ReadUnit
  refine Same.iteFst ?_ ?_
  · dsimp only
    refine Same.seq ?_ (count_same ..) (by decide)
    exact Same.refl _ _
  · split
    · rename_i v1 v2 v3 v4
      have h5 : Same 112150186033210 s v2 := by
        refine Same.of_fst v4 ?_
        refine Same.seq ?_ (memReadC_same ..) (by decide)
        exact Same.refl _ _
      dsimp only
      assumption
    · rename_i v6 v7 v8
      have h9 : Same 112150186033210 s v7 := by
        refine Same.of_fst v8 ?_
        refine Same.seq ?_ (memReadC_same ..) (by decide)
        exact Same.refl _ _
      dsimp only
      assumption
    · rename_i v10 v11 v12
      have h13 : Same 112150186033210 s v11 := by
        refine Same.of_fst v12 ?_
        refine Same.seq ?_ (memReadC_same ..) (by decide)
        exact Same.refl _ _
      dsimp only
      refine Same.seq ?_ (fresh_same ..) (by decide)
      assumption
    · rename_i v14 v15 v16
      have h17 : Same 112150186033210 s v15 := by
        refine Same.of_fst v16 ?_
        refine Same.seq ?_ (memReadC_same ..) (by decide)
        exact Same.refl _ _
      dsimp only
      assumption

end Sys2Proof.Machine.Laws
end

