-- ==== Sys2Proof/Laws/Frames2.lean ====
section
/-! SUPPORT. What each operation and each command can change: one frame per definition of the machine, part 2 of 5. -/

set_option linter.unusedTactic false
set_option linter.unreachableTactic false
set_option linter.unusedSimpArgs false

namespace Sys2Proof.Machine.Laws

theorem b4ReadUnits_same (s : State) (a1 : HostId) (a2 : B4Map) (a3 : List Nat) (a4 : List Byte) : Same 112150186033210 s (State.b4ReadUnits s a1 a2 a3 a4).1 := by
  induction a3 generalizing s a1 a2 a4 with
  | nil =>
    rw [State.b4ReadUnits]
    dsimp only
    exact Same.refl _ _
  | cons b l ih =>
    rw [State.b4ReadUnits]
    split
    · rename_i v1 v2 v3 v4
      have h5 : Same 112150186033210 s v2 := by
        refine Same.of_fst v4 ?_
        refine Same.seq ?_ (b4ReadUnit_same ..) (by decide)
        exact Same.refl _ _
      refine Same.seq ?_ (ih ..) (by decide)
      assumption
    · rename_i v6 v7 v8
      have h9 : Same 112150186033210 s v7 := by
        refine Same.of_fst v8 ?_
        refine Same.seq ?_ (b4ReadUnit_same ..) (by decide)
        exact Same.refl _ _
      dsimp only
      assumption

theorem b4WriteUnit_same (s : State) (a1 : HostId) (a2 : B4Map) (a3 : Nat) (a4 : List Byte) (t : State) (h : State.b4WriteUnit s a1 a2 a3 a4 = some t) : Same 60473147916346 s t := by
  unfold State.b4WriteUnit at h
  split at h
  · rename_i v1
    injection h with h
    refine Same.of_eq h ?_
    refine Same.seq ?_ (count_same ..) (by decide)
    exact Same.refl _ _
  · rename_i v2
    split at h
    · rename_i v3 v4 v5
      have h6 : Same 60473147916346 s v4 := by
        refine Same.of_fst v5 ?_
        refine Same.seq ?_ (memWriteC_same ..) (by decide)
        exact Same.refl _ _
      cases h
    · rename_i v7 v8 v9 v10 v11
      have h12 : Same 60473147916346 s v8 := by
        refine Same.of_fst v11 ?_
        refine Same.seq ?_ (memWriteC_same ..) (by decide)
        exact Same.refl _ _
      injection h with h
      refine Same.of_eq h ?_
      assumption

theorem b4Do_same (s : State) (a1 : HostId) (a2 : B4Map) (a3 : B4Req) (t : State) (h : State.b4Do s a1 a2 a3 = some t) : Same 130841892094010 s t := by
  unfold State.b4Do at h
  split at h
  · split at h
    · injection h with h
      exact Same.of_eq h ((emit_same ..).mono (by decide))
    · extract_lets +onlyGivenNames -merge -useContext a at h
      split at h
      · next e =>
        injection h with h
        exact Same.of_eq h (Same.seq (Same.of_fst e ((b4ReadUnits_same ..).mono (by decide))) (emit_same ..) (by decide))
      · cases h
  · split at h
    · injection h with h
      exact Same.of_eq h (Same.refl _ _)
    · extract_lets +onlyGivenNames -merge -useContext a at h
      exact Same.of_foldlM (fun x u t h => (b4WriteUnit_same (h := h) ..).mono (by decide)) h

theorem b4Serve_same (s : State) (a1 : HostId) (a2 : Nat) : Same 130841892094010 s (State.b4Serve s a1 a2) := by
  induction a2 generalizing s with
  | zero => exact Same.refl _ _
  | succ k ih =>
    rw [State.b4Serve]
    split
    · exact Same.refl _ _
    · split
      · next e => exact Same.seq (Same.seq ((b4Do_same (h := e) ..).mono (by decide)) (setHost_same ..) (by decide)) (ih _) (by decide)
      · exact Same.refl _ _

theorem b4Arrive_same (s : State) (a1 : HostId) (a2 : B4Req) : Same 130841892094010 s (State.b4Arrive s a1 a2) := by
  unfold State.b4Arrive
  extract_lets +onlyGivenNames -merge -useContext x1
  clear_value x1
  extract_lets +onlyGivenNames -merge -useContext x2
  have h2 : Same 130841892094010 s x2 := by
    unfold x2
    refine Same.seq ?_ (setHost_same ..) (by decide)
    exact Same.refl _ _
  clear_value x2
  refine Same.seq ?_ (b4Serve_same ..) (by decide)
  assumption

theorem b4Retry_same (s : State) : Same 130841892094010 s (State.b4Retry s) := by
  unfold State.b4Retry
  refine Same.foldl _ _ _ ?_ ?_
  · intro x1 a1 h1
    refine Same.seq ?_ (b4Serve_same ..) (by decide)
    assumption
  · exact Same.refl _ _

theorem badFrame_same (s : State) (a1 : Nat) : Same 2 s (State.badFrame s a1) := by
  unfold State.badFrame
  refine Same.seq ?_ (count_same ..) (by decide)
  exact Same.refl _ _

theorem setBar_same (s : State) (a1 : Nat) (a2 : BarUnit) : Same 17179869184 s (State.setBar s a1 a2) := by
  unfold State.setBar
  constructor <;> intro hb <;> first | rfl | exact absurd hb (by decide)

theorem endColl_same (s : State) (a1 : Coll) (a2 : Nat) (a3 : Nat) (a4 : Bool) (a5 : Bool) : Same 60476374392890 s (State.endColl s a1 a2 a3 a4 a5) := by
  unfold State.endColl
  extract_lets +onlyGivenNames -merge -useContext x1
  have h1 : Same 60476374392890 s x1 := by
    unfold x1
    constructor <;> intro hb <;> first | rfl | exact absurd hb (by decide)
  clear_value x1
  extract_lets +onlyGivenNames -merge -useContext x2
  have h2 : Same 60476374392890 s x2 := by
    unfold x2
    refine Same.seq ?_ (memWriteC_same ..) (by decide)
    assumption
  clear_value x2
  refine Same.seq ?_ (endEntry_same ..) (by decide)
  assumption

theorem endWait_same (s : State) (a1 : Nat) (a2 : Wait → Bool) : Same 8388608 s (State.endWait s a1 a2) := by
  unfold State.endWait
  extract_lets +onlyGivenNames -merge -useContext x1
  clear_value x1
  split
  · rename_i v2 v3 v4
    refine Same.ite ?_ ?_
    · refine Same.seq ?_ (setCore_same ..) (by decide)
      exact Same.refl _ _
    · exact Same.refl _ _
  · rename_i v5 v6
    exact Same.refl _ _

theorem barEnd_same (s : State) (a1 : Nat) (a2 : Nat) : Same 60493554262074 s (State.barEnd s a1 a2) := by
  unfold State.barEnd
  extract_lets +onlyGivenNames -merge -useContext x1
  clear_value x1
  split
  · rename_i v2 v3
    exact Same.refl _ _
  · rename_i v4 v5 v6
    extract_lets +onlyGivenNames -merge -useContext x7
    have h7 : Same 60493554262074 s x7 := by
      unfold x7
      refine Same.seq ?_ (setBar_same ..) (by decide)
      exact Same.refl _ _
    clear_value x7
    split
    · rename_i v8 v9 v10 v11
      split
      · rename_i v12 v13 v14
        refine Same.seq ?_ (endColl_same ..) (by decide)
        assumption
      · rename_i v15 v16
        assumption
    · rename_i v17 v18
      refine Same.foldl _ _ _ ?_ ?_
      · intro x19 a19 h19
        refine Same.seq ?_ (endWait_same ..) (by decide)
        assumption
      · assumption

theorem countRelease_same (s : State) (a1 : Nat) : Same 2 s (State.countRelease s a1) := by
  unfold State.countRelease
  refine Same.seq ?_ (count_same ..) (by decide)
  exact Same.refl _ _

theorem barRelease_same (s : State) (a1 : Nat) (a2 : Nat) (a3 : Option Nat) (a4 : Bool) : Same 60493554262074 s (State.barRelease s a1 a2 a3 a4) := by
  unfold State.barRelease
  extract_lets +onlyGivenNames -merge -useContext x1
  clear_value x1
  split
  · rename_i v2 v3
    exact Same.refl _ _
  · rename_i v4 v5 v6
    refine Same.ite ?_ ?_
    · exact Same.refl _ _
    · refine Same.ite ?_ ?_
      · refine Same.seq ?_ (barEnd_same ..) (by decide)
        exact Same.refl _ _
      · split
        · rename_i v7
          refine Same.seq ?_ (barEnd_same ..) (by decide)
          refine Same.seq ?_ (countRelease_same ..) (by decide)
          refine Same.seq ?_ (put_same ..) (by decide)
          exact Same.refl _ _
        · rename_i v8 v9
          refine Same.ite ?_ ?_
          · refine Same.seq ?_ (barEnd_same ..) (by decide)
            refine Same.seq ?_ (countRelease_same ..) (by decide)
            refine Same.seq ?_ (put_same ..) (by decide)
            exact Same.refl _ _
          · refine Same.seq ?_ (setBar_same ..) (by decide)
            exact Same.refl _ _

theorem barSend_same (s : State) (a1 : Nat) (a2 : BarRun) (a3 : Option Nat) (a4 : Bool) : Same 60493554262074 s (State.barSend s a1 a2 a3 a4) := by
  unfold State.barSend
  refine Same.seq ?_ (barRelease_same ..) (by decide)
  refine Same.foldl _ _ _ ?_ ?_
  · intro x1 a1 h1
    refine Same.seq ?_ (emit_same ..) (by decide)
    assumption
  · exact Same.refl _ _

theorem barCheck_same (s : State) (a1 : Nat) : Same 60493554262074 s (State.barCheck s a1) := by
  unfold State.barCheck
  extract_lets +onlyGivenNames -merge -useContext x1
  clear_value x1
  split
  · rename_i v2 v3
    exact Same.refl _ _
  · rename_i v4 v5 v6
    extract_lets +onlyGivenNames -merge -useContext x7
    clear_value x7
    refine Same.ite ?_ ?_
    · exact Same.refl _ _
    · refine Same.ite ?_ ?_
      · refine Same.seq ?_ (barSend_same ..) (by decide)
        exact Same.refl _ _
      · refine Same.ite ?_ ?_
        · refine Same.ite ?_ ?_
          · refine Same.seq ?_ (barSend_same ..) (by decide)
            exact Same.refl _ _
          · refine Same.seq ?_ (barSend_same ..) (by decide)
            exact Same.refl _ _
        · exact Same.refl _ _

theorem barArrive_same (s : State) (a1 : Nat) (a2 : BarArrival) : Same 60493554262074 s (State.barArrive s a1 a2) := by
  unfold State.barArrive
  extract_lets +onlyGivenNames -merge -useContext x1
  clear_value x1
  refine Same.seq ?_ (barCheck_same ..) (by decide)
  refine Same.seq ?_ (setBar_same ..) (by decide)
  exact Same.refl _ _

theorem barStart_same (s : State) (a1 : Nat) (a2 : BarRun) : Same 60493554262074 s (State.barStart s a1 a2) := by
  unfold State.barStart
  extract_lets +onlyGivenNames -merge -useContext x1
  clear_value x1
  extract_lets +onlyGivenNames -merge -useContext x2
  have h2 : Same 60493554262074 s x2 := by
    unfold x2
    refine Same.seq ?_ (setBar_same ..) (by decide)
    exact Same.refl _ _
  clear_value x2
  extract_lets +onlyGivenNames -merge -useContext x3
  clear_value x3
  refine Same.ite ?_ ?_
  · refine Same.seq ?_ (barArrive_same ..) (by decide)
    assumption
  · refine Same.seq ?_ (emit_same ..) (by decide)
    assumption

theorem barNext_same (s : State) (a1 : Nat) : Same 60493554262074 s (State.barNext s a1) := by
  unfold State.barNext
  extract_lets +onlyGivenNames -merge -useContext x1
  clear_value x1
  refine Same.ite ?_ ?_
  · exact Same.refl _ _
  · extract_lets +onlyGivenNames -merge -useContext x2
    have h2 : Same 60493554262074 s x2 := by
      unfold x2
      refine Same.seq ?_ (setBar_same ..) (by decide)
      exact Same.refl _ _
    clear_value x2
    refine Same.seq ?_ (barStart_same ..) (by decide)
    assumption

theorem takeEntry_same (s : State) (a1 : Nat) (a2 : Queue) (a3 : Live) : Same 4194304 s (State.takeEntry s a1 a2 a3) := by
  unfold State.takeEntry
  extract_lets +onlyGivenNames -merge -useContext x1
  clear_value x1
  refine Same.seq ?_ (setQueue_same ..) (by decide)
  exact Same.refl _ _

theorem shadowWrite_same (s : State) (a1 : Queue) (a2 : Nat) (a3 : Nat) (a4 : Nat) : Same 60473139527738 s (State.shadowWrite s a1 a2 a3 a4) := by
  unfold State.shadowWrite
  refine Same.seq ?_ (sysWrite_same ..) (by decide)
  exact Same.refl _ _

theorem begin_same (s : State) (a1 : Nat) (a2 : Queue) (a3 : Nat) (a4 : List Byte) (a5 : Option QpCtx) : Same 60473143730234 s (State.begin s a1 a2 a3 a4 a5) := by
  unfold State.begin
  extract_lets +onlyGivenNames -merge -useContext x1
  clear_value x1
  extract_lets +onlyGivenNames -merge -useContext x2
  clear_value x2
  split
  · rename_i v3 v4
    refine Same.ite ?_ ?_
    · extract_lets +onlyGivenNames -merge -useContext x5
      clear_value x5
      extract_lets +onlyGivenNames -merge -useContext x6
      clear_value x6
      extract_lets +onlyGivenNames -merge -useContext x7
      have h7 : Same 60473143730234 s x7 := by
        unfold x7
        refine Same.seq ?_ (takeEntry_same ..) (by decide)
        exact Same.refl _ _
      clear_value x7
      extract_lets +onlyGivenNames -merge -useContext x8
      have h8 : Same 60473143730234 s x8 := by
        unfold x8
        refine Same.seq ?_ (shadowWrite_same ..) (by decide)
        assumption
      clear_value x8
      refine Same.seq ?_ (modCtx_same ..) (by decide)
      assumption
    · refine Same.seq ?_ (takeEntry_same ..) (by decide)
      exact Same.refl _ _
  · rename_i v9
    refine Same.seq ?_ (takeEntry_same ..) (by decide)
    exact Same.refl _ _

theorem refuse_same (s : State) (a1 : Nat) (a2 : AdmFail) : Same 35184372088882 s (State.refuse s a1 a2) := by
  unfold State.refuse
  extract_lets +onlyGivenNames -merge -useContext x1
  have h1 : Same 35184372088882 s x1 := by
    unfold x1
    refine Same.seq ?_ (put_same ..) (by decide)
    refine Same.seq ?_ (put_same ..) (by decide)
    exact Same.refl _ _
  clear_value x1
  refine Same.seq ?_ (verdict_same ..) (by decide)
  refine Same.seq ?_ (put_same ..) (by decide)
  refine Same.seq ?_ (put_same ..) (by decide)
  assumption

theorem dropPending_same (s : State) (a1 : Nat) : Same 130912798076922 s (State.dropPending s a1) := by
  unfold State.dropPending
  split
  · rename_i v1 v2
    exact Same.refl _ _
  · rename_i v3 v4 v5
    refine Same.seq ?_ (schedChanged_same ..) (by decide)
    refine Same.seq ?_ (put_same ..) (by decide)
    constructor <;> intro hb <;> first | rfl | exact absurd hb (by decide)

theorem demoteQueued_same (s : State) (a1 : List Nat) : Same 448 s (State.demoteQueued s a1) := by
  unfold State.demoteQueued
  extract_lets +onlyGivenNames -merge -useContext x1
  clear_value x1
  constructor <;> intro hb <;> first | rfl | exact absurd hb (by decide)

theorem demote_same (s : State) (a1 : List Nat) (a2 : Bool) : Same 448 s (State.demote s a1 a2) := by
  unfold State.demote
  refine Same.seq ?_ (demoteQueued_same ..) (by decide)
  refine Same.foldl _ _ _ ?_ ?_
  · intro x1 a1 h1
    refine Same.seq ?_ (setFlowRt_same ..) (by decide)
    assumption
  · exact Same.refl _ _

theorem suspend_same (s : State) (a1 : Nat) (a2 : Bool) : Same 450 s (State.suspend s a1 a2) := by
  unfold State.suspend
  split
  · rename_i v1 v2
    exact Same.refl _ _
  · rename_i v3 v4 v5
    refine Same.ite ?_ ?_
    · exact Same.refl _ _
    · refine Same.seq ?_ (demote_same ..) (by decide)
      refine Same.seq ?_ (put_same ..) (by decide)
      exact Same.refl _ _

theorem enterLost_same (s : State) : Same 130912798076926 s (State.enterLost s) := by
  unfold State.enterLost
  extract_lets +onlyGivenNames -merge -useContext x1
  have h1 : Same 130912798076926 s x1 := by
    unfold x1
    refine Same.seq ?_ (put_same ..) (by decide)
    exact Same.refl _ _
  clear_value x1
  extract_lets +onlyGivenNames -merge -useContext x2
  extract_lets +onlyGivenNames -merge -useContext x3
  have h3 : Same 130912798076926 s x3 := by
    unfold x3
    refine Same.trans h1 ?_
    constructor <;> intro hb <;> first | rfl | exact absurd hb (by decide) | (dsimp only; split <;> rfl) | (simp only [h1.ftNs hb]; done) | exact (h1.ftNs hb).symm | (simp only [h1.ftFrac hb]; done) | exact (h1.ftFrac hb).symm | (simp only [h1.fuses hb]; done) | exact (h1.fuses hb).symm
  clear_value x3
  extract_lets +onlyGivenNames -merge -useContext x4
  clear_value x4
  extract_lets +onlyGivenNames -merge -useContext x5
  have h5 : Same 130912798076926 s x5 := by
    unfold x5
    refine Same.trans h3 ?_
    constructor <;> intro hb <;> first | rfl | exact absurd hb (by decide)
  clear_value x5
  extract_lets +onlyGivenNames -merge -useContext x6
  have h6 : Same 130912798076926 s x6 := by
    unfold x6
    refine Same.seq ?_ (event_same ..) (by decide)
    refine Same.seq ?_ (count_same ..) (by decide)
    refine Same.seq ?_ (put_same ..) (by decide)
    assumption
  clear_value x6
  extract_lets +onlyGivenNames -merge -useContext x7
  clear_value x7
  extract_lets +onlyGivenNames -merge -useContext x8
  have h8 : Same 130912798076926 s x8 := by
    unfold x8
    refine Same.foldl _ _ _ ?_ ?_
    · intro x9 a9 h9
      refine Same.seq ?_ (refuse_same ..) (by decide)
      assumption
    · refine Same.trans h6 ?_
      constructor <;> intro hb <;> first | rfl | exact absurd hb (by decide)
  clear_value x8
  extract_lets +onlyGivenNames -merge -useContext x10
  have h10 : Same 130912798076926 s x10 := by
    unfold x10
    refine Same.foldl _ _ _ ?_ ?_
    · intro x11 a11 h11
      refine Same.seq ?_ (dropPending_same ..) (by decide)
      assumption
    · assumption
  clear_value x10
  extract_lets +onlyGivenNames -merge -useContext x12
  have h12 : Same 130912798076926 s x12 := by
    unfold x12
    refine Same.foldl _ _ _ ?_ ?_
    · intro x13 a13 h13
      refine Same.seq ?_ (showSched_same ..) (by decide)
      refine Same.seq ?_ (suspend_same ..) (by decide)
      assumption
    · assumption
  clear_value x12
  refine Same.seq ?_ (demoteQueued_same ..) (by decide)
  assumption

theorem sampleMiss_same (s : State) (a1 : Nat) : Same 66 s (State.sampleMiss s a1) := by
  unfold State.sampleMiss
  extract_lets +onlyGivenNames -merge -useContext x1
  have h1 : Same 66 s x1 := by
    unfold x1
    refine Same.seq ?_ (count_same ..) (by decide)
    exact Same.refl _ _
  clear_value x1
  refine Same.trans h1 ?_
  constructor <;> intro hb <;> first | rfl | exact absurd hb (by decide)

theorem sampleWrite_same (s : State) (a1 : Nat) (a2 : List Byte) : Same 60473147916410 s (State.sampleWrite s a1 a2) := by
  unfold State.sampleWrite
  extract_lets +onlyGivenNames -merge -useContext x1
  clear_value x1
  extract_lets +onlyGivenNames -merge -useContext x2
  clear_value x2
  extract_lets +onlyGivenNames -merge -useContext x3
  clear_value x3
  refine Same.ite ?_ ?_
  · refine Same.seq ?_ (sampleMiss_same ..) (by decide)
    exact Same.refl _ _
  · split
    · rename_i v4 v5 v6 v7
      have h8 : Same 60473147916410 s v5 := by
        refine Same.of_fst v7 ?_
        refine Same.seq ?_ (memWriteC_same ..) (by decide)
        exact Same.refl _ _
      refine Same.seq ?_ (put_same ..) (by decide)
      refine Same.trans h8 ?_
      constructor <;> intro hb <;> first | rfl | exact absurd hb (by decide)
    · rename_i v9 v10 v11 v12
      have h13 : Same 60473147916410 s v10 := by
        refine Same.of_fst v12 ?_
        refine Same.seq ?_ (memWriteC_same ..) (by decide)
        exact Same.refl _ _
      refine Same.seq ?_ (sampleMiss_same ..) (by decide)
      assumption

theorem flushSamples_same (s : State) : Same 60473147916410 s (State.flushSamples s) := by
  unfold State.flushSamples
  extract_lets +onlyGivenNames -merge -useContext x1
  clear_value x1
  refine Same.foldl _ _ _ ?_ ?_
  · intro x2 a2 h2
    refine Same.ite ?_ ?_
    · refine Same.seq ?_ (sampleWrite_same ..) (by decide)
      assumption
    · refine Same.trans h2 ?_
      constructor <;> intro hb <;> first | rfl | exact absurd hb (by decide)
  · constructor <;> intro hb <;> first | rfl | exact absurd hb (by decide)

theorem pacedGo_same (s : State) : Same 35184372092874 s (State.pacedGo s) := by
  unfold State.pacedGo
  extract_lets +onlyGivenNames -merge -useContext x1
  clear_value x1
  refine Same.foldl _ _ _ ?_ ?_
  · intro x2 a2 h2
    refine Same.seq ?_ (originate_same ..) (by decide)
    assumption
  · constructor <;> intro hb <;> first | rfl | exact absurd hb (by decide)

theorem refill_same (s : State) (a1 : Nat) : Same 64 s (State.refill s a1) := by
  unfold State.refill
  refine Same.foldl _ _ _ ?_ ?_
  · intro x1 a1 h1
    refine Same.foldl _ _ _ ?_ ?_
    · intro x2 a2 h2
      extract_lets +onlyGivenNames -merge -useContext x3
      clear_value x3
      refine Same.seq ?_ (setFlowRt_same ..) (by decide)
      assumption
    · assumption
  · exact Same.refl _ _

theorem tableSwitch_same (s : State) : Same 2 s (State.tableSwitch s) := by
  unfold State.tableSwitch
  extract_lets +onlyGivenNames -merge -useContext x1
  have h1 : Same 2 s x1 := by
    unfold x1
    refine Same.seq ?_ (put_same ..) (by decide)
    exact Same.refl _ _
  clear_value x1
  extract_lets +onlyGivenNames -merge -useContext x2
  have h2 : Same 2 s x2 := by
    unfold x2
    refine Same.seq ?_ (put_same ..) (by decide)
    refine Same.seq ?_ (put_same ..) (by decide)
    assumption
  clear_value x2
  refine Same.seq ?_ (put_same ..) (by decide)
  refine Same.seq ?_ (put_same ..) (by decide)
  assumption

theorem takeover_same (s : State) (a1 : Nat) (a2 : Image) : Same 130912798076922 s (State.takeover s a1 a2) := by
  unfold State.takeover
  extract_lets +onlyGivenNames -merge -useContext x1
  clear_value x1
  extract_lets +onlyGivenNames -merge -useContext x2
  clear_value x2
  extract_lets +onlyGivenNames -merge -useContext x3
  clear_value x3
  extract_lets +onlyGivenNames -merge -useContext x4
  clear_value x4
  extract_lets +onlyGivenNames -merge -useContext x5
  clear_value x5
  extract_lets +onlyGivenNames -merge -useContext x6
  clear_value x6
  extract_lets +onlyGivenNames -merge -useContext x7
  have h7 : Same 130912798076922 s x7 := by
    unfold x7
    constructor <;> intro hb <;> first | rfl | exact absurd hb (by decide)
  clear_value x7
  extract_lets +onlyGivenNames -merge -useContext x8
  have h8 : Same 130912798076922 s x8 := by
    unfold x8
    refine Same.seq ?_ (put_same ..) (by decide)
    refine Same.seq ?_ (put_same ..) (by decide)
    assumption
  clear_value x8
  extract_lets +onlyGivenNames -merge -useContext x9
  have h9 : Same 130912798076922 s x9 := by
    unfold x9
    refine Same.seq ?_ (demote_same ..) (by decide)
    assumption
  clear_value x9
  extract_lets +onlyGivenNames -merge -useContext x10
  have h10 : Same 130912798076922 s x10 := by
    unfold x10
    refine Same.foldl _ _ _ ?_ ?_
    · intro x11 a11 h11
      refine Same.ite ?_ ?_
      · refine Same.seq ?_ (setFlowRt_same ..) (by decide)
        assumption
      · refine Same.seq ?_ (setFlowRt_same ..) (by decide)
        assumption
    · assumption
  clear_value x10
  extract_lets +onlyGivenNames -merge -useContext x12
  have h12 : Same 130912798076922 s x12 := by
    unfold x12
    refine Same.seq ?_ (purgeKept_same ..) (by decide)
    assumption
  clear_value x12
  extract_lets +onlyGivenNames -merge -useContext x13
  have h13 : Same 130912798076922 s x13 := by
    unfold x13
    refine Same.ite ?_ ?_
    · refine Same.seq ?_ (tableSwitch_same ..) (by decide)
      assumption
    · assumption
  clear_value x13
  refine Same.seq ?_ (schedChanged_same ..) (by decide)
  assumption

theorem closeEvent_same (s : State) (a1 : Nat) : Same 60475300651066 s (State.closeEvent s a1) := by
  unfold State.closeEvent
  extract_lets +onlyGivenNames -merge -useContext x1
  clear_value x1
  split
  · rename_i v2 v3
    exact Same.refl _ _
  · rename_i v4 v5 v6
    extract_lets +onlyGivenNames -merge -useContext x7
    have h7 : Same 60475300651066 s x7 := by
      unfold x7
      refine Same.seq ?_ (setCore_same ..) (by decide)
      exact Same.refl _ _
    clear_value x7
    refine Same.ite ?_ ?_
    · refine Same.seq ?_ (endEntry_same ..) (by decide)
      assumption
    · assumption

theorem placeImage_same (s : State) (a1 : Nat) (a2 : Nat) (a3 : List Byte) : Same 274886295554 s (State.placeImage s a1 a2 a3) := by
  unfold State.placeImage
  extract_lets +onlyGivenNames -merge -useContext x1
  have h1 : Same 274886295554 s x1 := by
    unfold x1
    refine Same.seq ?_ (setCore_same ..) (by decide)
    exact Same.refl _ _
  clear_value x1
  extract_lets +onlyGivenNames -merge -useContext x2
  clear_value x2
  extract_lets +onlyGivenNames -merge -useContext x3
  clear_value x3
  extract_lets +onlyGivenNames -merge -useContext x4
  have h4 : Same 274886295554 s x4 := by
    unfold x4
    refine Same.seq ?_ (put_same ..) (by decide)
    refine Same.seq ?_ (put_same ..) (by decide)
    assumption
  clear_value x4
  extract_lets +onlyGivenNames -merge -useContext x5
  have h5 : Same 274886295554 s x5 := by
    unfold x5
    refine Same.seq ?_ (put_same ..) (by decide)
    refine Same.seq ?_ (put_same ..) (by decide)
    assumption
  clear_value x5
  refine Same.seq ?_ (setCoreSt_same ..) (by decide)
  refine Same.seq ?_ (put_same ..) (by decide)
  assumption

theorem placeResident_same (s : State) (a1 : Nat) : Same 274886295554 s (State.placeResident s a1) := by
  unfold State.placeResident
  split
  · rename_i v1 v2 v3
    refine Same.seq ?_ (placeImage_same ..) (by decide)
    exact Same.refl _ _
  · rename_i v4 v5
    exact Same.refl _ _

theorem moveCore_same (s : State) (a1 : Nat) : Same 60750245666874 s (State.moveCore s a1) := by
  unfold State.moveCore
  extract_lets +onlyGivenNames -merge -useContext x1
  clear_value x1
  extract_lets +onlyGivenNames -merge -useContext x2
  have h2 : Same 60750245666874 s x2 := by
    unfold x2
    refine Same.seq ?_ (closeEvent_same ..) (by decide)
    refine Same.seq ?_ (modCore_same ..) (by decide)
    exact Same.refl _ _
  clear_value x2
  refine Same.ite ?_ ?_
  · refine Same.seq ?_ (setCoreSt_same ..) (by decide)
    refine Same.seq ?_ (placeResident_same ..) (by decide)
    assumption
  · split
    · rename_i v3 v4
      refine Same.seq ?_ (setCoreSt_same ..) (by decide)
      assumption
    · rename_i v5 v6 v7
      refine Same.ite ?_ ?_
      · extract_lets +onlyGivenNames -merge -useContext x8
        have h8 : Same 60750245666874 s x8 := by
          unfold x8
          refine Same.seq ?_ (placeImage_same ..) (by decide)
          assumption
        clear_value x8
        refine Same.trans h8 ?_
        constructor <;> intro hb <;> first | rfl | exact absurd hb (by decide)
      · refine Same.seq ?_ (setCoreSt_same ..) (by decide)
        refine Same.seq ?_ (setCore_same ..) (by decide)
        assumption

theorem commitEntry_same (s : State) (a1 : Nat) (a2 : Nat) : Same 60750547656762 s (State.commitEntry s a1 a2) := by
  unfold State.commitEntry
  extract_lets +onlyGivenNames -merge -useContext x1
  clear_value x1
  extract_lets +onlyGivenNames -merge -useContext x2
  clear_value x2
  extract_lets +onlyGivenNames -merge -useContext x3
  clear_value x3
  extract_lets +onlyGivenNames -merge -useContext x4
  have h4 : Same 60750547656762 s x4 := by
    unfold x4
    refine Same.seq ?_ (put_same ..) (by decide)
    exact Same.refl _ _
  clear_value x4
  extract_lets +onlyGivenNames -merge -useContext x5
  have h5 : Same 60750547656762 s x5 := by
    unfold x5
    refine Same.seq ?_ (put_same ..) (by decide)
    assumption
  clear_value x5
  extract_lets +onlyGivenNames -merge -useContext x6
  have h6 : Same 60750547656762 s x6 := by
    unfold x6
    refine Same.seq ?_ (put_same ..) (by decide)
    assumption
  clear_value x6
  refine Same.ite ?_ ?_
  · refine Same.ite ?_ ?_
    · assumption
    · refine Same.seq ?_ (flushKeyCmds_same ..) (by decide)
      refine Same.seq ?_ (emptyCore_same ..) (by decide)
      refine Same.seq ?_ (closeEvent_same ..) (by decide)
      refine Same.seq ?_ (modCore_same ..) (by decide)
      assumption
  · refine Same.ite ?_ ?_
    · refine Same.seq ?_ (moveCore_same ..) (by decide)
      assumption
    · assumption

theorem startDet_same (s : State) : Same 34359738370 s (State.startDet s) := by
  unfold State.startDet
  extract_lets +onlyGivenNames -merge -useContext x1
  have h1 : Same 34359738370 s x1 := by
    unfold x1
    refine Same.seq ?_ (put_same ..) (by decide)
    exact Same.refl _ _
  clear_value x1
  refine Same.trans h1 ?_
  constructor <;> intro hb <;> first | rfl | exact absurd hb (by decide)

theorem commitMap_same (s : State) : Same 131222371266554 s (State.commitMap s) := by
  unfold State.commitMap
  extract_lets +onlyGivenNames -merge -useContext x1
  clear_value x1
  extract_lets +onlyGivenNames -merge -useContext x2
  have h2 : Same 131222371266554 s x2 := by
    unfold x2
    refine Same.foldl _ _ _ ?_ ?_
    · intro x3 a3 h3
      refine Same.seq ?_ (commitEntry_same ..) (by decide)
      assumption
    · exact Same.refl _ _
  clear_value x2
  extract_lets +onlyGivenNames -merge -useContext x4
  have h4 : Same 131222371266554 s x4 := by
    unfold x4
    refine Same.seq ?_ (startDet_same ..) (by decide)
    refine Same.trans h2 ?_
    constructor <;> intro hb <;> first | rfl | exact absurd hb (by decide)
  clear_value x4
  refine Same.seq ?_ (pathsChanged_same ..) (by decide)
  refine Same.seq ?_ (event_same ..) (by decide)
  assumption

theorem takeovers_same (s : State) : Same 131222371266554 s (State.takeovers s) := by
  unfold State.takeovers
  extract_lets +onlyGivenNames -merge -useContext x1
  clear_value x1
  extract_lets +onlyGivenNames -merge -useContext x2
  have h2 : Same 131222371266554 s x2 := by
    unfold x2
    refine Same.foldl _ _ _ ?_ ?_
    · intro x3 a3 h3
      refine Same.seq ?_ (takeover_same ..) (by decide)
      assumption
    · exact Same.refl _ _
  clear_value x2
  refine Same.ite ?_ ?_
  · refine Same.seq ?_ (commitMap_same ..) (by decide)
    assumption
  · assumption

theorem pumpFlows_same (s : State) : Same 130912764522490 s (State.pumpFlows s) := by
  unfold State.pumpFlows
  refine Same.foldl _ _ _ ?_ ?_
  · intro x1 a1 h1
    refine Same.ite ?_ ?_
    · assumption
    · refine Same.seq ?_ (pump_same ..) (by decide)
      assumption
  · exact Same.refl _ _

theorem drainEvents_same (s : State) (a1 : HostId) (a2 : Nat) : Same 41781441855546 s (State.drainEvents s a1 a2) := by
  induction a2 generalizing s a1 with
  | zero =>
    rw [State.drainEvents]
    exact Same.refl _ _
  | succ n ih =>
    rw [State.drainEvents]
    split
    · rename_i v1 v2
      exact Same.refl _ _
    · rename_i v3 v4 v5 v6
      refine Same.ite ?_ ?_
      · refine Same.seq ?_ (ih ..) (by decide)
        refine Same.seq ?_ (ringWrite_same ..) (by decide)
        refine Same.seq ?_ (showQueued_same ..) (by decide)
        refine Same.seq ?_ (setEv_same ..) (by decide)
        exact Same.refl _ _
      · exact Same.refl _ _

theorem beginSlot_same (s : State) : Same 131222371266558 s (State.beginSlot s) := by
  unfold State.beginSlot
  extract_lets +onlyGivenNames -merge -useContext x1
  extract_lets +onlyGivenNames -merge -useContext x2
  have h2 : Same 131222371266558 s x2 := by
    unfold x2
    constructor <;> intro hb <;> first | rfl | exact absurd hb (by decide)
  clear_value x2
  extract_lets +onlyGivenNames -merge -useContext x3
  have h3 : Same 131222371266558 s x3 := by
    unfold x3
    refine Same.ite ?_ ?_
    · refine Same.seq ?_ (enterLost_same ..) (by decide)
      assumption
    · assumption
  clear_value x3
  extract_lets +onlyGivenNames -merge -useContext x4
  have h4 : Same 131222371266558 s x4 := by
    unfold x4
    refine Same.seq ?_ (flushSamples_same ..) (by decide)
    refine Same.seq ?_ (pacedGo_same ..) (by decide)
    refine Same.seq ?_ (refill_same ..) (by decide)
    refine Same.seq ?_ (takeovers_same ..) (by decide)
    assumption
  clear_value x4
  refine Same.seq ?_ (pumpFlows_same ..) (by decide)
  refine Same.foldl _ _ _ ?_ ?_
  · intro x5 a5 h5
    refine Same.seq ?_ (drainEvents_same ..) (by decide)
    assumption
  · assumption

theorem setNext_same (s : State) (a1 : Nat) (a2 : Nat) (a3 : Option Nat) : Same 2 s (State.setNext s a1 a2 a3) := by
  unfold State.setNext
  split
  · rename_i v1 v2
    refine Same.seq ?_ (put_same ..) (by decide)
    refine Same.seq ?_ (put_same ..) (by decide)
    exact Same.refl _ _
  · rename_i v3
    refine Same.seq ?_ (put_same ..) (by decide)
    exact Same.refl _ _

theorem bootNext_same (s : State) (a1 : Nat) : Same 2 s (State.bootNext s a1) := by
  unfold State.bootNext
  extract_lets +onlyGivenNames -merge -useContext x1
  clear_value x1
  refine Same.foldl _ _ _ ?_ ?_
  · intro x2 a2 h2
    refine Same.seq ?_ (setNext_same ..) (by decide)
    assumption
  · exact Same.refl _ _

theorem writeFuses_same (s : State) : Same 140772116529152 s (State.writeFuses s) := by
  unfold State.writeFuses
  extract_lets +onlyGivenNames -merge -useContext x1
  extract_lets +onlyGivenNames -merge -useContext x2
  constructor <;> intro hb <;> first | rfl | exact absurd hb (by decide)

theorem placeResidents_same (s : State) : Same 274886295554 s (State.placeResidents s) := by
  unfold State.placeResidents
  refine Same.foldl _ _ _ ?_ ?_
  · intro x1 a1 h1
    extract_lets +onlyGivenNames -merge -useContext x2
    clear_value x2
    refine Same.ite ?_ ?_
    · refine Same.seq ?_ (placeResident_same ..) (by decide)
      assumption
    · assumption
  · exact Same.refl _ _

theorem detDoneEff_same (s : State) : Same 34359738370 s (detDoneEff s) := by
  unfold detDoneEff
  refine Same.ite ?_ ?_
  · exact Same.refl _ _
  · extract_lets +onlyGivenNames -merge -useContext x1
    clear_value x1
    extract_lets +onlyGivenNames -merge -useContext x2
    clear_value x2
    extract_lets +onlyGivenNames -merge -useContext x3
    have h3 : Same 34359738370 s x3 := by
      unfold x3
      constructor <;> intro hb <;> first | rfl | exact absurd hb (by decide)
    clear_value x3
    refine Same.seq ?_ (extend_same ..) (by decide)
    refine Same.seq ?_ (put_same ..) (by decide)
    refine Same.seq ?_ (putDigest_same ..) (by decide)
    assumption

theorem settlePower_same (s : State) : Same 2 s (State.settlePower s) := by
  unfold State.settlePower
  refine Same.ite ?_ ?_
  · exact Same.refl _ _
  · refine Same.seq ?_ (setPower_same ..) (by decide)
    exact Same.refl _ _

theorem psEnd_same (s : State) (a1 : Nat) : Same 2 s (State.psEnd s a1) := by
  unfold State.psEnd
  refine Same.seq ?_ (put_same ..) (by decide)
  refine Same.seq ?_ (put_same ..) (by decide)
  refine Same.seq ?_ (put_same ..) (by decide)
  exact Same.refl _ _

theorem bootDone_body : State.bootDone = fun (s : State) =>
  let s := s.put Reg.GLB_STS.STAGE 7
  let s := if s.preReady then (List.range 64).foldl State.bootNext s else s
  let s := (detDoneEff s.commitMap).placeResidents.writeFuses
  let s := (s.put Reg.GLB_STS.STAGE 8).put Reg.GLB_STS.READY 1
  let s := s.put Reg.GLB_BOOT_MS.MS (min 0xFFFF ((s.time.cycles - s.boot.began) / 2400000))
  let s := { s with
    preReady := false, memsys := { s.memsys with since := s.time.cycles }
    boot := { s.boot with targets := [], sent := [], needResume := false } }
  let s := if s.inP2 then s.setPower s.p01 else s.settlePower
  let s := (List.range 64).foldl (fun s p => if s.get (Reg.LINK_STS.STATE p) = 3 then s.put (Reg.LINK_STS.STATE p) 2 else s) s
  (if s.flag Reg.TALLY_PS_STS.BUSY then s.psEnd 0 else s).pathsChanged := rfl

theorem bootDone_same (s : State) : Same 271959859625978 s (State.bootDone s) := by
  rw [bootDone_body]
  beta_reduce
  extract_lets +onlyGivenNames -merge -useContext x1
  have h1 : Same 271959859625978 s x1 := by
    unfold x1
    refine Same.seq ?_ (put_same ..) (by decide)
    exact Same.refl _ _
  clear_value x1
  extract_lets +onlyGivenNames -merge -useContext x2
  have h2 : Same 271959859625978 s x2 := by
    unfold x2
    refine Same.ite ?_ ?_
    · refine Same.foldl _ _ _ ?_ ?_
      · intro x3 a3 h3
        refine Same.seq ?_ (bootNext_same ..) (by decide)
        assumption
      · assumption
    · assumption
  clear_value x2
  extract_lets +onlyGivenNames -merge -useContext x4
  have h4 : Same 271959859625978 s x4 := by
    unfold x4
    refine Same.seq ?_ (writeFuses_same ..) (by decide)
    refine Same.seq ?_ (placeResidents_same ..) (by decide)
    refine Same.seq ?_ (detDoneEff_same ..) (by decide)
    refine Same.seq ?_ (commitMap_same ..) (by decide)
    assumption
  clear_value x4
  extract_lets +onlyGivenNames -merge -useContext x5
  have h5 : Same 271959859625978 s x5 := by
    unfold x5
    refine Same.seq ?_ (put_same ..) (by decide)
    refine Same.seq ?_ (put_same ..) (by decide)
    assumption
  clear_value x5
  extract_lets +onlyGivenNames -merge -useContext x6
  have h6 : Same 271959859625978 s x6 := by
    unfold x6
    refine Same.seq ?_ (put_same ..) (by decide)
    assumption
  clear_value x6
  extract_lets +onlyGivenNames -merge -useContext x7
  clear_value x7
  extract_lets +onlyGivenNames -merge -useContext x8
  clear_value x8
  extract_lets +onlyGivenNames -merge -useContext x9
  have h9 : Same 271959859625978 s x9 := by
    unfold x9
    obtain ⟨y10, h10, rfl⟩ : ∃ y, Same 271959859625978 s y ∧ y = x6 := ⟨_, h6, rfl⟩
    refine Same.trans h10 ?_
    constructor <;> intro hb <;> first | rfl | exact absurd hb (by decide)
  clear_value x9
  extract_lets +onlyGivenNames -merge -useContext x11
  have h11 : Same 271959859625978 s x11 := by
    unfold x11
    refine Same.ite ?_ ?_
    · refine Same.seq ?_ (setPower_same ..) (by decide)
      assumption
    · refine Same.seq ?_ (settlePower_same ..) (by decide)
      assumption
  clear_value x11
  extract_lets +onlyGivenNames -merge -useContext x12
  have h12 : Same 271959859625978 s x12 := by
    unfold x12
    refine Same.foldl _ _ _ ?_ ?_
    · intro x13 a13 h13
      refine Same.ite ?_ ?_
      · refine Same.seq ?_ (put_same ..) (by decide)
        assumption
      · assumption
    · assumption
  clear_value x12
  refine Same.seq ?_ (pathsChanged_same ..) (by decide)
  refine Same.ite ?_ ?_
  · refine Same.seq ?_ (psEnd_same ..) (by decide)
    assumption
  · assumption

theorem bootFail_same (s : State) (a1 : Nat) : Same 549755813890 s (State.bootFail s a1) := by
  unfold State.bootFail
  extract_lets +onlyGivenNames -merge -useContext x1
  have h1 : Same 549755813890 s x1 := by
    unfold x1
    refine Same.seq ?_ (put_same ..) (by decide)
    refine Same.seq ?_ (put_same ..) (by decide)
    exact Same.refl _ _
  clear_value x1
  extract_lets +onlyGivenNames -merge -useContext x2
  have h2 : Same 549755813890 s x2 := by
    unfold x2
    refine Same.ite ?_ ?_
    · refine Same.seq ?_ (psEnd_same ..) (by decide)
      assumption
    · assumption
  clear_value x2
  refine Same.ite ?_ ?_
  · refine Same.seq ?_ (cause_same ..) (by decide)
    assumption
  · assumption

theorem deriveIdentity_same (s : State) : Same 2 s (State.deriveIdentity s) := by
  unfold State.deriveIdentity
  refine Same.ite ?_ ?_
  · exact Same.refl _ _
  · extract_lets +onlyGivenNames -merge -useContext x1
    clear_value x1
    refine Same.foldl _ _ _ ?_ ?_
    · intro x2 a2 h2
      refine Same.seq ?_ (setReg_same ..) (by decide)
      assumption
    · exact Same.refl _ _

theorem bootRom_same (s : State) (a1 : Bool) : Same 584115552258 s (State.bootRom s a1) := by
  unfold State.bootRom
  refine Same.ite ?_ ?_
  · refine Same.seq ?_ (bootFail_same ..) (by decide)
    exact Same.refl _ _
  · extract_lets +onlyGivenNames -merge -useContext x1
    have h1 : Same 584115552258 s x1 := by
      unfold x1
      refine Same.seq ?_ (extendDmr4_same ..) (by decide)
      refine Same.seq ?_ (extend_same ..) (by decide)
      refine Same.seq ?_ (deriveIdentity_same ..) (by decide)
      exact Same.refl _ _
    clear_value x1
    extract_lets +onlyGivenNames -merge -useContext x2
    have h2 : Same 584115552258 s x2 := by
      unfold x2
      refine Same.seq ?_ (put_same ..) (by decide)
      assumption
    clear_value x2
    extract_lets +onlyGivenNames -merge -useContext x3
    clear_value x3
    extract_lets +onlyGivenNames -merge -useContext x4
    have h4 : Same 584115552258 s x4 := by
      unfold x4
      refine Same.trans h2 ?_
      constructor <;> intro hb <;> first | rfl | exact absurd hb (by decide)
    clear_value x4
    refine Same.ite ?_ ?_
    · extract_lets +onlyGivenNames -merge -useContext x5
      have h5 : Same 584115552258 s x5 := by
        unfold x5
        refine Same.seq ?_ (setPower_same ..) (by decide)
        assumption
      clear_value x5
      refine Same.trans h5 ?_
      constructor <;> intro hb <;> first | rfl | exact absurd hb (by decide)
    · assumption

theorem showFenced_same (s : State) (a1 : UnitId) : Same 2 s (State.showFenced s a1) := by
  unfold State.showFenced
  split
  · rename_i v1 v2
    refine Same.foldl _ _ _ ?_ ?_
    · intro x3 a3 h3
      refine Same.ite ?_ ?_
      · refine Same.seq ?_ (put_same ..) (by decide)
        assumption
      · assumption
    · exact Same.refl _ _
  · rename_i v4 v5
    refine Same.seq ?_ (put_same ..) (by decide)
    exact Same.refl _ _
  · rename_i v6 v7 v8
    exact Same.refl _ _

theorem nextAfterFence_same (s : State) (a1 : UnitId) : Same 2 s (State.nextAfterFence s a1) := by
  unfold State.nextAfterFence
  split
  · rename_i v1 v2
    split
    · rename_i v3 v4 v5
      refine Same.seq ?_ (setNext_same ..) (by decide)
      exact Same.refl _ _
    · rename_i v6 v7
      exact Same.refl _ _
  · rename_i v8 v9
    refine Same.foldl _ _ _ ?_ ?_
    · intro x10 a10 h10
      refine Same.seq ?_ (setNext_same ..) (by decide)
      assumption
    · exact Same.refl _ _
  · rename_i v11 v12
    refine Same.foldl _ _ _ ?_ ?_
    · intro x13 a13 h13
      refine Same.seq ?_ (setNext_same ..) (by decide)
      assumption
    · exact Same.refl _ _
  · rename_i v14 v15 v16 v17
    exact Same.refl _ _

theorem reportFence_same (s : State) (a1 : Nat) (a2 : UnitId) : Same 41781441855546 s (State.reportFence s a1 a2) := by
  unfold State.reportFence
  refine Same.seq ?_ (count_same ..) (by decide)
  refine Same.seq ?_ (event_same ..) (by decide)
  exact Same.refl _ _

theorem pinOff_same (s : State) (a1 : Option Nat) : Same 256 s (State.pinOff s a1) := by
  unfold State.pinOff
  split
  · rename_i v1
    exact Same.refl _ _
  · rename_i v2 v3
    extract_lets +onlyGivenNames -merge -useContext x4
    clear_value x4
    constructor <;> intro hb <;> first | rfl | exact absurd hb (by decide)

theorem rerouteMesh_same (s : State) : Same 35184372092874 s (State.rerouteMesh s) := by
  unfold State.rerouteMesh
  extract_lets +onlyGivenNames -merge -useContext x1
  extract_lets +onlyGivenNames -merge -useContext x2
  clear_value x2
  extract_lets +onlyGivenNames -merge -useContext x3
  clear_value x3
  extract_lets +onlyGivenNames -merge -useContext x4
  have h4 : Same 35184372092874 s x4 := by
    unfold x4
    constructor <;> intro hb <;> first | rfl | exact absurd hb (by decide)
  clear_value x4
  refine Same.foldl _ _ _ ?_ ?_
  · intro x5 a5 h5
    extract_lets +onlyGivenNames -merge -useContext x6
    have h6 : Same 35184372092874 s x6 := by
      unfold x6
      refine Same.seq ?_ (pinOff_same ..) (by decide)
      assumption
    clear_value x6
    extract_lets +onlyGivenNames -merge -useContext x7
    clear_value x7
    extract_lets +onlyGivenNames -merge -useContext x8
    clear_value x8
    refine Same.ite ?_ ?_
    · extract_lets +onlyGivenNames -merge -useContext x9
      have h9 : Same 35184372092874 s x9 := by
        unfold x9
        refine Same.seq ?_ (frameGone_same ..) (by decide)
        assumption
      clear_value x9
      refine Same.seq ?_ (crossFree_same ..) (by decide)
      assumption
    · refine Same.seq ?_ (count_same ..) (by decide)
      refine Same.seq ?_ (frameGone_same ..) (by decide)
      assumption
  · assumption

theorem fence_same (s : State) (a1 : Nat) (a2 : List UnitId) : Same 41781446053882 s (State.fence s a1 a2) := by
  unfold State.fence
  extract_lets +onlyGivenNames -merge -useContext x1
  clear_value x1
  refine Same.ite ?_ ?_
  · exact Same.refl _ _
  · extract_lets +onlyGivenNames -merge -useContext x2
    have h2 : Same 41781446053882 s x2 := by
      unfold x2
      refine Same.foldl _ _ _ ?_ ?_
      · intro x3 a3 h3
        split
        · rename_i v4 v5 v6
          refine Same.seq ?_ (put_same ..) (by decide)
          assumption
        · rename_i v7 v8
          assumption
      · exact Same.refl _ _
    clear_value x2
    extract_lets +onlyGivenNames -merge -useContext x9
    have h9 : Same 41781446053882 s x9 := by
      unfold x9
      refine Same.seq ?_ (put_same ..) (by decide)
      assumption
    clear_value x9
    extract_lets +onlyGivenNames -merge -useContext x10
    have h10 : Same 41781446053882 s x10 := by
      unfold x10
      refine Same.foldl _ _ _ ?_ ?_
      · intro x11 a11 h11
        refine Same.ite ?_ ?_
        · assumption
        · refine Same.seq ?_ (showFenced_same ..) (by decide)
          refine Same.seq ?_ (nextAfterFence_same ..) (by decide)
          assumption
      · assumption
    clear_value x10
    extract_lets +onlyGivenNames -merge -useContext x12
    have h12 : Same 41781446053882 s x12 := by
      unfold x12
      refine Same.seq ?_ (refreshBackups_same ..) (by decide)
      refine Same.foldl _ _ _ ?_ ?_
      · intro x13 a13 h13
        refine Same.seq ?_ (reportFence_same ..) (by decide)
        assumption
      · assumption
    clear_value x12
    refine Same.ite ?_ ?_
    · refine Same.seq ?_ (rerouteMesh_same ..) (by decide)
      assumption
    · assumption

theorem movePinned_same (s : State) (a1 : Nat) (a2 : Nat) : Same 60473139552314 s (State.movePinned s a1 a2) := by
  unfold State.movePinned
  extract_lets +onlyGivenNames -merge -useContext x1
  have h1 : Same 60473139552314 s x1 := by
    unfold x1
    refine Same.ite ?_ ?_
    · exact Same.refl _ _
    · split
      · rename_i v2 v3 v4
        refine Same.seq ?_ (evict_same ..) (by decide)
        exact Same.refl _ _
      · rename_i v5 v6
        exact Same.refl _ _
  clear_value x1
  split
  · rename_i v7 v8 v9
    refine Same.seq ?_ (modQp_same ..) (by decide)
    assumption
  · rename_i v10 v11
    refine Same.seq ?_ (spill_same ..) (by decide)
    assumption

theorem kennelFenced_same (s : State) (a1 : Nat) (a2 : Nat) : Same 130912764322874 s (State.kennelFenced s a1 a2) := by
  unfold State.kennelFenced
  extract_lets +onlyGivenNames -merge -useContext x1
  clear_value x1
  extract_lets +onlyGivenNames -merge -useContext x2
  have h2 : Same 130912764322874 s x2 := by
    unfold x2
    refine Same.foldl _ _ _ ?_ ?_
    · intro x3 a3 h3
      refine Same.seq ?_ (checkCtx_same ..) (by decide)
      assumption
    · exact Same.refl _ _
  clear_value x2
  extract_lets +onlyGivenNames -merge -useContext x4
  have h4 : Same 130912764322874 s x4 := by
    unfold x4
    refine Same.foldl _ _ _ ?_ ?_
    · intro x5 a5 h5
      refine Same.seq ?_ (spill_same ..) (by decide)
      assumption
    · assumption
  clear_value x4
  extract_lets +onlyGivenNames -merge -useContext x6
  clear_value x6
  extract_lets +onlyGivenNames -merge -useContext x7
  have h7 : Same 130912764322874 s x7 := by
    unfold x7
    refine Same.foldl _ _ _ ?_ ?_
    · intro x8 a8 h8
      refine Same.seq ?_ (spill_same ..) (by decide)
      assumption
    · assumption
  clear_value x7
  extract_lets +onlyGivenNames -merge -useContext x9
  have h9 : Same 130912764322874 s x9 := by
    unfold x9
    refine Same.foldl _ _ _ ?_ ?_
    · intro x10 a10 h10
      refine Same.seq ?_ (movePinned_same ..) (by decide)
      assumption
    · assumption
  clear_value x9
  refine Same.seq ?_ (showBank_same ..) (by decide)
  assumption

theorem modChan_same (s : State) (a1 : Nat) (a2 : Nat) (a3 : Chan → Chan) : Same 8388608 s (State.modChan s a1 a2 a3) := by
  unfold State.modChan
  refine Same.seq ?_ (modCore_same ..) (by decide)
  exact Same.refl _ _

theorem wordAdd_same (s : State) (a1 : Nat) (a2 : Nat) (a3 : Nat) (a4 : Nat) : Same 60473147916346 s (State.wordAdd s a1 a2 a3 a4).1 := by
  unfold State.wordAdd
  split
  · rename_i v1 v2 v3 v4
    have h5 : Same 60473147916346 s v2 := by
      refine Same.of_fst v4 ?_
      refine Same.seq ?_ (memReadC_same ..) (by decide)
      exact Same.refl _ _
    dsimp only
    assumption
  · rename_i v6 v7 v8 v9
    have h10 : Same 60473147916346 s v7 := by
      refine Same.of_fst v9 ?_
      refine Same.seq ?_ (memReadC_same ..) (by decide)
      exact Same.refl _ _
    split
    · rename_i v11 v12 v13 v14
      have h15 : Same 60473147916346 s v12 := by
        refine Same.of_fst v14 ?_
        refine Same.seq ?_ (memWriteC_same ..) (by decide)
        assumption
      dsimp only
      assumption
    · rename_i v16 v17 v18 v19
      have h20 : Same 60473147916346 s v17 := by
        refine Same.of_fst v19 ?_
        refine Same.seq ?_ (memWriteC_same ..) (by decide)
        assumption
      dsimp only
      assumption

theorem signal_same (s : State) (a1 : Nat) (a2 : Nat) (a3 : Nat) : Same 60473147916346 s (State.signal s a1 a2 a3) := by
  unfold State.signal
  refine Same.ite ?_ ?_
  · exact Same.refl _ _
  · refine Same.seq ?_ (wordAdd_same ..) (by decide)
    exact Same.refl _ _

theorem tryHalt_same (s : State) (a1 : Nat) : Same 274886295554 s (State.tryHalt s a1) := by
  unfold State.tryHalt
  extract_lets +onlyGivenNames -merge -useContext x1
  clear_value x1
  extract_lets +onlyGivenNames -merge -useContext x2
  clear_value x2
  refine Same.ite ?_ ?_
  · refine Same.seq ?_ (setCoreSt_same ..) (by decide)
    refine Same.seq ?_ (setCore_same ..) (by decide)
    exact Same.refl _ _
  · exact Same.refl _ _

theorem flushCmpls_same (s : State) (a1 : Nat) : Same 60475300651066 s (State.flushCmpls s a1) := by
  unfold State.flushCmpls
  extract_lets +onlyGivenNames -merge -useContext x1
  clear_value x1
  extract_lets +onlyGivenNames -merge -useContext x2
  clear_value x2
  refine Same.foldl _ _ _ ?_ ?_
  · intro x3 a3 h3
    refine Same.seq ?_ (endEntry_same ..) (by decide)
    assumption
  · refine Same.seq ?_ (setCore_same ..) (by decide)
    exact Same.refl _ _

theorem xferEnd_same (s : State) (a1 : Nat) (a2 : Nat) (a3 : Xfer) (a4 : Nat) : Same 60750178558010 s (State.xferEnd s a1 a2 a3 a4) := by
  unfold State.xferEnd
  extract_lets +onlyGivenNames -merge -useContext x1
  have h1 : Same 60750178558010 s x1 := by
    unfold x1
    refine Same.seq ?_ (modChan_same ..) (by decide)
    exact Same.refl _ _
  clear_value x1
  extract_lets +onlyGivenNames -merge -useContext x2
  have h2 : Same 60750178558010 s x2 := by
    unfold x2
    refine Same.ite ?_ ?_
    · refine Same.seq ?_ (signal_same ..) (by decide)
      assumption
    · assumption
  clear_value x2
  refine Same.seq ?_ (tryHalt_same ..) (by decide)
  refine Same.seq ?_ (flushCmpls_same ..) (by decide)
  assumption

theorem xferSettle_same (s : State) (a1 : Nat) (a2 : Nat) (a3 : Nat) : Same 60750178558010 s (State.xferSettle s a1 a2 a3) := by
  unfold State.xferSettle
  split
  · rename_i v1 v2
    exact Same.refl _ _
  · rename_i v3 v4 v5
    refine Same.ite ?_ ?_
    · refine Same.seq ?_ (xferEnd_same ..) (by decide)
      exact Same.refl _ _
    · exact Same.refl _ _

theorem modXfer_same (s : State) (a1 : Nat) (a2 : Nat) (a3 : Nat) (a4 : Xfer → Xfer) : Same 8388608 s (State.modXfer s a1 a2 a3 a4) := by
  unfold State.modXfer
  extract_lets +onlyGivenNames -merge -useContext x1
  clear_value x1
  extract_lets +onlyGivenNames -merge -useContext x2
  clear_value x2
  refine Same.seq ?_ (setCore_same ..) (by decide)
  exact Same.refl _ _

theorem failParked_same (s : State) (a1 : Nat) (a2 : Nat) (a3 : Nat) : Same 130912764322874 s (State.failParked s a1 a2 a3) := by
  unfold State.failParked
  split
  · rename_i v1 v2
    exact Same.refl _ _
  · rename_i v3 v4 v5 v6
    extract_lets +onlyGivenNames -merge -useContext x7
    have h7 : Same 130912764322874 s x7 := by
      unfold x7
      refine Same.seq ?_ (setQueue_same ..) (by decide)
      exact Same.refl _ _
    clear_value x7
    extract_lets +onlyGivenNames -merge -useContext x8
    have h8 : Same 130912764322874 s x8 := by
      unfold x8
      split
      · rename_i v9 v10 v11
        refine Same.seq ?_ (qpError_same ..) (by decide)
        assumption
      · rename_i v12 v13
        assumption
    clear_value x8
    split
    · rename_i v14 v15 v16
      refine Same.seq ?_ (flushQueue_same ..) (by decide)
      assumption
    · rename_i v17 v18
      assumption

theorem tileFailed_same (s : State) (a1 : Tile) (a2 : Nat) : Same 131187642229818 s (State.tileFailed s a1 a2) := by
  unfold State.tileFailed
  split
  · rename_i v1 v2 v3 v4 v5
    refine Same.seq ?_ (xferSettle_same ..) (by decide)
    refine Same.seq ?_ (modXfer_same ..) (by decide)
    exact Same.refl _ _
  · rename_i v6 v7
    refine Same.seq ?_ (failParked_same ..) (by decide)
    exact Same.refl _ _

theorem parkTile_same (s : State) (a1 : Tile) : Same 60473139789882 s (State.parkTile s a1) := by
  unfold State.parkTile
  split
  · rename_i v1 v2 v3
    exact Same.refl _ _
  · rename_i v4 v5
    split
    · rename_i v6 v7
      exact Same.refl _ _
    · rename_i v8 v9 v10
      extract_lets +onlyGivenNames -merge -useContext x11
      have h11 : Same 60473139789882 s x11 := by
        unfold x11
        constructor <;> intro hb <;> first | rfl | exact absurd hb (by decide)
      clear_value x11
      refine Same.seq ?_ (sysWrite_same ..) (by decide)
      assumption

theorem parkHeld_same (s : State) : Same 60473139789882 s (State.parkHeld s) := by
  unfold State.parkHeld
  refine Same.foldl _ _ _ ?_ ?_
  · intro x1 a1 h1
    refine Same.seq ?_ (parkTile_same ..) (by decide)
    assumption
  · exact Same.refl _ _

theorem dropTiles_same (s : State) (a1 : Tile → Bool) : Same 60473139986490 s (State.dropTiles s a1) := by
  unfold State.dropTiles
  extract_lets +onlyGivenNames -merge -useContext x1
  clear_value x1
  extract_lets +onlyGivenNames -merge -useContext x2
  extract_lets +onlyGivenNames -merge -useContext x3
  extract_lets +onlyGivenNames -merge -useContext x4
  have h4 : Same 60473139986490 s x4 := by
    unfold x4
    constructor <;> intro hb <;> first | rfl | exact absurd hb (by decide)
  clear_value x4
  extract_lets +onlyGivenNames -merge -useContext x5
  have h5 : Same 60473139986490 s x5 := by
    unfold x5
    refine Same.seq ?_ (setSheep_same ..) (by decide)
    assumption
  clear_value x5
  refine Same.seq ?_ (parkHeld_same ..) (by decide)
  refine Same.seq ?_ (setSheep_same ..) (by decide)
  assumption

theorem failParkedTiles_same (s : State) : Same 131187642688570 s (State.failParkedTiles s) := by
  unfold State.failParkedTiles
  refine Same.foldl _ _ _ ?_ ?_
  · intro x1 a1 h1
    extract_lets +onlyGivenNames -merge -useContext x2
    clear_value x2
    refine Same.ite ?_ ?_
    · refine Same.seq ?_ (tileFailed_same ..) (by decide)
      refine Same.seq ?_ (dropTiles_same ..) (by decide)
      assumption
    · assumption
  · exact Same.refl _ _

theorem takeOut_same (s : State) (a1 : Nat) (a2 : List UnitId) : Same 131187642691578 s (State.takeOut s a1 a2) := by
  unfold State.takeOut
  extract_lets +onlyGivenNames -merge -useContext x1
  clear_value x1
  extract_lets +onlyGivenNames -merge -useContext x2
  have h2 : Same 131187642691578 s x2 := by
    unfold x2
    refine Same.seq ?_ (fence_same ..) (by decide)
    exact Same.refl _ _
  clear_value x2
  extract_lets +onlyGivenNames -merge -useContext x3
  have h3 : Same 131187642691578 s x3 := by
    unfold x3
    refine Same.foldl _ _ _ ?_ ?_
    · intro x4 a4 h4
      split
      · rename_i v5 v6
        refine Same.seq ?_ (kennelFenced_same ..) (by decide)
        assumption
      · rename_i v7 v8
        refine Same.foldl _ _ _ ?_ ?_
        · intro x9 a9 h9
          refine Same.ite ?_ ?_
          · refine Same.seq ?_ (failParkedTiles_same ..) (by decide)
            refine Same.seq ?_ (event_same ..) (by decide)
            refine Same.seq ?_ (put_same ..) (by decide)
            assumption
          · assumption
        · assumption
      · rename_i v10 v11 v12
        assumption
    · assumption
  clear_value x3
  refine Same.ite ?_ ?_
  · assumption
  · refine Same.seq ?_ (pathsChanged_same ..) (by decide)
    assumption

theorem laneTested_same (s : State) (a1 : Nat) (a2 : Nat) : Same 2 s (State.laneTested s a1 a2) := by
  unfold State.laneTested
  split
  · rename_i v1 v2
    exact Same.refl _ _
  · rename_i v3 v4 v5 v6
    split
    · rename_i v7 v8 v9
      refine Same.seq ?_ (put_same ..) (by decide)
      exact Same.refl _ _
    · rename_i v10 v11
      refine Same.seq ?_ (put_same ..) (by decide)
      exact Same.refl _ _

theorem trainLanes_same (s : State) (a1 : List (Fin 4 × Fin 68)) : Same 131187642691578 s (State.trainLanes s a1) := by
  unfold State.trainLanes
  extract_lets +onlyGivenNames -merge -useContext x1
  clear_value x1
  extract_lets +onlyGivenNames -merge -useContext x2
  have h2 : Same 131187642691578 s x2 := by
    unfold x2
    refine Same.seq ?_ (takeOut_same ..) (by decide)
    exact Same.refl _ _
  clear_value x2
  refine Same.foldl _ _ _ ?_ ?_
  · intro x3 a3 h3
    refine Same.seq ?_ (laneTested_same ..) (by decide)
    assumption
  · assumption

theorem buildSets_same (s : State) : Same 2 s (State.buildSets s) := by
  unfold State.buildSets
  refine Same.ite ?_ ?_
  · exact Same.refl _ _
  · extract_lets +onlyGivenNames -merge -useContext x1
    clear_value x1
    extract_lets +onlyGivenNames -merge -useContext x2
    clear_value x2
    extract_lets +onlyGivenNames -merge -useContext x3
    extract_lets +onlyGivenNames -merge -useContext x4
    clear_value x4
    extract_lets +onlyGivenNames -merge -useContext x5
    have h5 : Same 2 s x5 := by
      unfold x5
      refine Same.seq ?_ (put_same ..) (by decide)
      exact Same.refl _ _
    clear_value x5
    refine Same.ite ?_ ?_
    · assumption
    · extract_lets +onlyGivenNames -merge -useContext x6
      have h6 : Same 2 s x6 := by
        unfold x6
        refine Same.seq ?_ (put_same ..) (by decide)
        refine Same.seq ?_ (put_same ..) (by decide)
        refine Same.seq ?_ (put_same ..) (by decide)
        refine Same.seq ?_ (put_same ..) (by decide)
        assumption
      clear_value x6
      refine Same.ite ?_ ?_
      · assumption
      · refine Same.seq ?_ (put_same ..) (by decide)
        refine Same.seq ?_ (put_same ..) (by decide)
        refine Same.seq ?_ (put_same ..) (by decide)
        refine Same.seq ?_ (put_same ..) (by decide)
        assumption

theorem showModule_same (s : State) (a1 : Nat) (a2 : Sys2Proof.Module) : Same 2 s (State.showModule s a1 a2) := by
  unfold State.showModule
  split
  · rename_i v1
    refine Same.seq ?_ (put_same ..) (by decide)
    refine Same.seq ?_ (put_same ..) (by decide)
    exact Same.refl _ _
  · rename_i v2
    refine Same.seq ?_ (put_same ..) (by decide)
    exact Same.refl _ _
  · rename_i v3 v4 v5 v6
    extract_lets +onlyGivenNames -merge -useContext x7
    have h7 : Same 2 s x7 := by
      unfold x7
      refine Same.seq ?_ (put_same ..) (by decide)
      refine Same.seq ?_ (put_same ..) (by decide)
      exact Same.refl _ _
    clear_value x7
    refine Same.seq ?_ (put_same ..) (by decide)
    assumption

theorem trainChannels_same (s : State) (a1 : List Sys2Proof.Module) (a2 : List Nat) : Same 41781446053882 s (State.trainChannels s a1 a2) := by
  unfold State.trainChannels
  extract_lets +onlyGivenNames -merge -useContext x1
  clear_value x1
  extract_lets +onlyGivenNames -merge -useContext x2
  clear_value x2
  extract_lets +onlyGivenNames -merge -useContext x3
  have h3 : Same 41781446053882 s x3 := by
    unfold x3
    refine Same.seq ?_ (fence_same ..) (by decide)
    exact Same.refl _ _
  clear_value x3
  refine Same.foldl _ _ _ ?_ ?_
  · intro x4 a4 h4
    refine Same.seq ?_ (showModule_same ..) (by decide)
    assumption
  · assumption

theorem train_same (s : State) (a1 : Training) : Same 131737398505466 s (State.train s a1).1 := by
  unfold State.train
  extract_lets +onlyGivenNames -merge -useContext x1
  have h1 : Same 131737398505466 s x1 := by
    unfold x1
    refine Same.foldl _ _ _ ?_ ?_
    · intro x2 a2 h2
      refine Same.seq ?_ (trainLanes_same ..) (by decide)
      assumption
    · refine Same.seq ?_ (put_same ..) (by decide)
      exact Same.refl _ _
  clear_value x1
  extract_lets +onlyGivenNames -merge -useContext x3
  clear_value x3
  extract_lets +onlyGivenNames -merge -useContext x4
  clear_value x4
  extract_lets +onlyGivenNames -merge -useContext x5
  have h5 : Same 131737398505466 s x5 := by
    unfold x5
    refine Same.seq ?_ (buildSets_same ..) (by decide)
    refine Same.foldl _ _ _ ?_ ?_
    · intro x6 a6 h6
      refine Same.seq ?_ (trainChannels_same ..) (by decide)
      assumption
    · assumption
  clear_value x5
  refine Same.iteFst ?_ ?_
  · dsimp only
    refine Same.seq ?_ (bootFail_same ..) (by decide)
    refine Same.seq ?_ (cause_same ..) (by decide)
    refine Same.seq ?_ (event_same ..) (by decide)
    refine Same.seq ?_ (fresh_same ..) (by decide)
    assumption
  · refine Same.iteFst ?_ ?_
    · dsimp only
      refine Same.seq ?_ (bootFail_same ..) (by decide)
      refine Same.seq ?_ (put_same ..) (by decide)
      assumption
    · dsimp only
      assumption

theorem lowerMin_same (s : State) (a1 : Nat) : Same 2 s (State.lowerMin s a1) := by
  unfold State.lowerMin
  extract_lets +onlyGivenNames -merge -useContext x1
  clear_value x1
  refine Same.foldl _ _ _ ?_ ?_
  · intro x2 a2 h2
    extract_lets +onlyGivenNames -merge -useContext x3
    clear_value x3
    extract_lets +onlyGivenNames -merge -useContext x4
    clear_value x4
    refine Same.seq ?_ (put_same ..) (by decide)
    assumption
  · exact Same.refl _ _

theorem retireBlock_same (s : State) (a1 : Nat) (a2 : Nat) (a3 : Nat) : Same 131187642724346 s (State.retireBlock s a1 a2 a3) := by
  unfold State.retireBlock
  extract_lets +onlyGivenNames -merge -useContext x1
  have h1 : Same 131187642724346 s x1 := by
    unfold x1
    refine Same.seq ?_ (count_same ..) (by decide)
    exact Same.refl _ _
  clear_value x1
  split
  · rename_i v2 v3 v4 v5
    extract_lets +onlyGivenNames -merge -useContext x6
    split
    · rename_i v7
      refine Same.seq ?_ (takeOut_same ..) (by decide)
      assumption
    · rename_i v8
      refine Same.seq ?_ (takeOut_same ..) (by decide)
      assumption
    · rename_i v9
      refine Same.seq ?_ (takeOut_same ..) (by decide)
      assumption
    · rename_i v10
      extract_lets +onlyGivenNames -merge -useContext x11
      clear_value x11
      extract_lets +onlyGivenNames -merge -useContext x12
      clear_value x12
      extract_lets +onlyGivenNames -merge -useContext x13
      have h13 : Same 131187642724346 s x13 := by
        unfold x13
        refine Same.trans h1 ?_
        constructor <;> intro hb <;> first | rfl | exact absurd hb (by decide)
      clear_value x13
      unfold x6
      refine Same.seq ?_ (count_same ..) (by decide)
      refine Same.seq ?_ (event_same ..) (by decide)
      refine Same.seq ?_ (setTinker_same ..) (by decide)
      assumption
    · rename_i v14 v15 v16 v17 v18
      extract_lets +onlyGivenNames -merge -useContext x19
      clear_value x19
      unfold x6
      refine Same.seq ?_ (count_same ..) (by decide)
      refine Same.seq ?_ (event_same ..) (by decide)
      refine Same.seq ?_ (lowerMin_same ..) (by decide)
      refine Same.trans h1 ?_
      constructor <;> intro hb <;> first | rfl | exact absurd hb (by decide)

theorem tinkerFail_same (s : State) (a1 : Nat) (a2 : Nat) (a3 : Nat) : Same 131187642724346 s (State.tinkerFail s a1 a2 a3) := by
  unfold State.tinkerFail
  extract_lets +onlyGivenNames -merge -useContext x1
  clear_value x1
  extract_lets +onlyGivenNames -merge -useContext x2
  clear_value x2
  refine Same.ite ?_ ?_
  · refine Same.seq ?_ (count_same ..) (by decide)
    refine Same.seq ?_ (count_same ..) (by decide)
    constructor <;> intro hb <;> first | rfl | exact absurd hb (by decide)
  · refine Same.seq ?_ (retireBlock_same ..) (by decide)
    exact Same.refl _ _

theorem serviceCheck_same (s : State) : Same 549755813890 s (State.serviceCheck s).1 := by
  unfold State.serviceCheck
  split
  · rename_i v1 v2 v3
    dsimp only
    refine Same.seq ?_ (bootFail_same ..) (by decide)
    refine Same.seq ?_ (put_same ..) (by decide)
    exact Same.refl _ _
  · rename_i v4 v5
    dsimp only
    exact Same.refl _ _

theorem startTest_same (s : State) (a1 : Tests) : Same 131737398538234 s (State.startTest s a1).1 := by
  unfold State.startTest
  extract_lets +onlyGivenNames -merge -useContext x1
  have h1 : Same 131737398538234 s x1 := by
    unfold x1
    refine Same.foldl _ _ _ ?_ ?_
    · intro x2 a2 h2
      refine Same.ite ?_ ?_
      · refine Same.seq ?_ (tinkerFail_same ..) (by decide)
        assumption
      · assumption
    · refine Same.seq ?_ (put_same ..) (by decide)
      exact Same.refl _ _
  clear_value x1
  refine Same.seq ?_ (serviceCheck_same ..) (by decide)
  refine Same.foldl _ _ _ ?_ ?_
  · intro x3 a3 h3
    refine Same.seq ?_ (takeOut_same ..) (by decide)
    assumption
  · assumption

theorem crierEnd_same (s : State) : Same 272509615439866 s (State.crierEnd s) := by
  unfold State.crierEnd
  split
  · rename_i v1 v2 v3
    have h4 : Same 272509615439866 s v2 := by
      refine Same.of_fst v3 ?_
      refine Same.seq ?_ (serviceCheck_same ..) (by decide)
      exact Same.refl _ _
    refine Same.seq ?_ (bootDone_same ..) (by decide)
    assumption
  · rename_i v5 v6 v7
    have h8 : Same 272509615439866 s v6 := by
      refine Same.of_fst v7 ?_
      refine Same.seq ?_ (serviceCheck_same ..) (by decide)
      exact Same.refl _ _
    assumption

theorem crierRound_same (s : State) : Same 272509615439866 s (State.crierRound s) := by
  unfold State.crierRound
  extract_lets +onlyGivenNames -merge -useContext x1
  clear_value x1
  extract_lets +onlyGivenNames -merge -useContext x2
  clear_value x2
  extract_lets +onlyGivenNames -merge -useContext x3
  have h3 : Same 272509615439866 s x3 := by
    unfold x3
    refine Same.foldl _ _ _ ?_ ?_
    · intro x4 a4 h4
      refine Same.seq ?_ (emptyCore_same ..) (by decide)
      assumption
    · exact Same.refl _ _
  clear_value x3
  extract_lets +onlyGivenNames -merge -useContext x5
  have h5 : Same 272509615439866 s x5 := by
    unfold x5
    refine Same.seq ?_ (put_same ..) (by decide)
    refine Same.seq ?_ (put_same ..) (by decide)
    assumption
  clear_value x5
  extract_lets +onlyGivenNames -merge -useContext x6
  clear_value x6
  extract_lets +onlyGivenNames -merge -useContext x7
  clear_value x7
  extract_lets +onlyGivenNames -merge -useContext x8
  have h8 : Same 272509615439866 s x8 := by
    unfold x8
    refine Same.trans h5 ?_
    constructor <;> intro hb <;> first | rfl | exact absurd hb (by decide)
  clear_value x8
  refine Same.ite ?_ ?_
  · refine Same.seq ?_ (crierEnd_same ..) (by decide)
    assumption
  · assumption

theorem crierStart_same (s : State) (a1 : Bool) : Same 272509615439866 s (State.crierStart s a1) := by
  unfold State.crierStart
  extract_lets +onlyGivenNames -merge -useContext x1
  have h1 : Same 272509615439866 s x1 := by
    unfold x1
    refine Same.seq ?_ (put_same ..) (by decide)
    refine Same.seq ?_ (put_same ..) (by decide)
    exact Same.refl _ _
  clear_value x1
  extract_lets +onlyGivenNames -merge -useContext x2
  clear_value x2
  extract_lets +onlyGivenNames -merge -useContext x3
  have h3 : Same 272509615439866 s x3 := by
    unfold x3
    refine Same.ite ?_ ?_
    · refine Same.trans h1 ?_
      constructor <;> intro hb <;> first | rfl | exact absurd hb (by decide)
    · assumption
  clear_value x3
  extract_lets +onlyGivenNames -merge -useContext x4
  have h4 : Same 272509615439866 s x4 := by
    unfold x4
    refine Same.seq ?_ (put_same ..) (by decide)
    assumption
  clear_value x4
  extract_lets +onlyGivenNames -merge -useContext x5
  clear_value x5
  extract_lets +onlyGivenNames -merge -useContext x6
  have h6 : Same 272509615439866 s x6 := by
    unfold x6
    refine Same.trans h4 ?_
    constructor <;> intro hb <;> first | rfl | exact absurd hb (by decide)
  clear_value x6
  refine Same.ite ?_ ?_
  · refine Same.seq ?_ (put_same ..) (by decide)
    refine Same.seq ?_ (bootFail_same ..) (by decide)
    assumption
  · refine Same.seq ?_ (crierRound_same ..) (by decide)
    assumption

theorem testAndLoad_same (s : State) (a1 : Tests) (a2 : Bool) : Same 272509615734778 s (State.testAndLoad s a1 a2) := by
  unfold State.testAndLoad
  split
  · rename_i v1 v2 v3
    have h4 : Same 272509615734778 s v2 := by
      refine Same.of_fst v3 ?_
      refine Same.seq ?_ (startTest_same ..) (by decide)
      exact Same.refl _ _
    refine Same.seq ?_ (crierStart_same ..) (by decide)
    assumption
  · rename_i v5 v6 v7
    have h8 : Same 272509615734778 s v6 := by
      refine Same.of_fst v7 ?_
      refine Same.seq ?_ (startTest_same ..) (by decide)
      exact Same.refl _ _
    assumption

theorem bringUp_same (s : State) (a1 : Training) (a2 : Tests) : Same 272509615734778 s (State.bringUp s a1 a2) := by
  unfold State.bringUp
  split
  · rename_i v1 v2 v3
    have h4 : Same 272509615734778 s v2 := by
      refine Same.of_fst v3 ?_
      refine Same.seq ?_ (train_same ..) (by decide)
      exact Same.refl _ _
    refine Same.seq ?_ (testAndLoad_same ..) (by decide)
    assumption
  · rename_i v5 v6 v7
    have h8 : Same 272509615734778 s v6 := by
      refine Same.of_fst v7 ?_
      refine Same.seq ?_ (train_same ..) (by decide)
      exact Same.refl _ _
    assumption

theorem xferMoved_same (s : State) (a1 : Nat) (a2 : Nat) (a3 : Nat) (a4 : Nat) : Same 60750178558010 s (State.xferMoved s a1 a2 a3 a4) := by
  unfold State.xferMoved
  refine Same.seq ?_ (xferSettle_same ..) (by decide)
  refine Same.seq ?_ (modXfer_same ..) (by decide)
  exact Same.refl _ _

theorem cancelTransmit_same (s : State) (a1 : Frame) : Same 60750178558202 s (State.cancelTransmit s a1) := by
  unfold State.cancelTransmit
  extract_lets +onlyGivenNames -merge -useContext x1
  have h1 : Same 60750178558202 s x1 := by
    unfold x1
    refine Same.seq ?_ (frameGone_same ..) (by decide)
    exact Same.refl _ _
  clear_value x1
  split
  · rename_i v2 v3 v4 v5 v6 v7
    refine Same.seq ?_ (xferMoved_same ..) (by decide)
    assumption
  · rename_i v8 v9
    assumption

theorem checkBound_same (s : State) (a1 : Nat) (a2 : Nat) : Same 41781441855610 s (State.checkBound s a1 a2) := by
  unfold State.checkBound
  split
  · rename_i v1 v2
    exact Same.refl _ _
  · rename_i v3 v4 v5 v6
    extract_lets +onlyGivenNames -merge -useContext x7
    clear_value x7
    refine Same.ite ?_ ?_
    · extract_lets +onlyGivenNames -merge -useContext x8
      have h8 : Same 41781441855610 s x8 := by
        unfold x8
        refine Same.seq ?_ (count_same ..) (by decide)
        refine Same.seq ?_ (count_same ..) (by decide)
        exact Same.refl _ _
      clear_value x8
      refine Same.ite ?_ ?_
      · assumption
      · refine Same.seq ?_ (partEvent_same ..) (by decide)
        refine Same.seq ?_ (setFlowRt_same ..) (by decide)
        assumption
    · exact Same.refl _ _

theorem checkLoss_same (s : State) : Same 4 s (State.checkLoss s) := by
  unfold State.checkLoss
  refine Same.ite ?_ ?_
  · constructor <;> intro hb <;> first | rfl | exact absurd hb (by decide)
  · exact Same.refl _ _

theorem clearKennel_same (s : State) : Same 35184372114482 s (State.clearKennel s) := by
  unfold State.clearKennel
  extract_lets +onlyGivenNames -merge -useContext x1
  have h1 : Same 35184372114482 s x1 := by
    unfold x1
    refine Same.foldl _ _ _ ?_ ?_
    · intro x2 a2 h2
      refine Same.seq ?_ (dropQp_same ..) (by decide)
      assumption
    · exact Same.refl _ _
  clear_value x1
  refine Same.trans h1 ?_
  constructor <;> intro hb <;> first | rfl | exact absurd hb (by decide)

theorem clearTrigs_same (s : State) (a1 : Nat) : Same 3145728 s (State.clearTrigs s a1) := by
  unfold State.clearTrigs
  constructor <;> intro hb <;> first | rfl | exact absurd hb (by decide)

theorem closeB4_same (s : State) (a1 : Nat) : Same 50 s (State.closeB4 s a1) := by
  unfold State.closeB4
  refine Same.foldl _ _ _ ?_ ?_
  · intro x1 a1 h1
    extract_lets +onlyGivenNames -merge -useContext x2
    clear_value x2
    extract_lets +onlyGivenNames -merge -useContext x3
    have h3 : Same 50 s x3 := by
      unfold x3
      refine Same.seq ?_ (setHost_same ..) (by decide)
      assumption
    clear_value x3
    refine Same.ite ?_ ?_
    · refine Same.seq ?_ (put_same ..) (by decide)
      refine Same.seq ?_ (setHost_same ..) (by decide)
      assumption
    · assumption
  · exact Same.refl _ _

theorem closeSegs_same (s : State) (a1 : Coll) : Same 16777218 s (State.closeSegs s a1) := by
  unfold State.closeSegs
  refine Same.foldl _ _ _ ?_ ?_
  · intro x1 a1 h1
    extract_lets +onlyGivenNames -merge -useContext x2
    clear_value x2
    extract_lets +onlyGivenNames -merge -useContext x3
    extract_lets +onlyGivenNames -merge -useContext x4
    refine Same.ite ?_ ?_
    · refine Same.seq ?_ (showRed_same ..) (by decide)
      refine Same.seq ?_ (setCluster_same ..) (by decide)
      assumption
    · assumption
  · exact Same.refl _ _

theorem clusterWindow_same (s : State) : Same 274877906944 s (State.clusterWindow s) := by
  unfold State.clusterWindow
  extract_lets +onlyGivenNames -merge -useContext x1
  clear_value x1
  extract_lets +onlyGivenNames -merge -useContext x2
  clear_value x2
  constructor <;> intro hb <;> first | rfl | exact absurd hb (by decide)

theorem collAbsorb_same (s : State) : Same 60480664109114 s (State.collAbsorb s) := by
  unfold State.collAbsorb
  extract_lets +onlyGivenNames -merge -useContext x1
  have h1 : Same 60480664109114 s x1 := by
    unfold x1
    refine Same.foldl _ _ _ ?_ ?_
    · intro x2 a2 h2
      refine Same.seq ?_ (absorbXfer_same ..) (by decide)
      assumption
    · constructor <;> intro hb <;> first | rfl | exact absurd hb (by decide)
  clear_value x1
  refine Same.foldl _ _ _ ?_ ?_
  · intro x3 a3 h3
    refine Same.seq ?_ (absorbSeg_same ..) (by decide)
    assumption
  · refine Same.trans h1 ?_
    constructor <;> intro hb <;> first | rfl | exact absurd hb (by decide)

theorem collCheck_same (s : State) (a1 : Nat) (a2 : Queue) (a3 : Live) : Same 41781441855546 s (State.collCheck s a1 a2 a3).1 := by
  unfold State.collCheck
  extract_lets +onlyGivenNames -merge -useContext x1
  clear_value x1
  extract_lets +onlyGivenNames -merge -useContext x2
  clear_value x2
  extract_lets +onlyGivenNames -merge -useContext x3
  clear_value x3
  refine Same.iteFst ?_ ?_
  · dsimp only
    exact Same.refl _ _
  · split
    · rename_i v4 v5 v6 v7
      have h8 : Same 41781441855546 s v5 := by
        refine Same.of_fst v7 ?_
        refine Same.seq ?_ (memReadC_same ..) (by decide)
        exact Same.refl _ _
      dsimp only
      assumption
    · rename_i v9 v10 v11 v12
      have h13 : Same 41781441855546 s v10 := by
        refine Same.of_fst v12 ?_
        refine Same.seq ?_ (memReadC_same ..) (by decide)
        exact Same.refl _ _
      extract_lets +onlyGivenNames -merge -useContext x14
      clear_value x14
      refine Same.iteFst ?_ ?_
      · dsimp only
        assumption
      · split
        · rename_i v15 v16 v17 v18
          have h19 : Same 41781441855546 s v16 := by
            refine Same.of_fst v18 ?_
            refine Same.seq ?_ (memReadC_same ..) (by decide)
            assumption
          dsimp only
          assumption
        · rename_i v20 v21 v22 v23
          have h24 : Same 41781441855546 s v21 := by
            refine Same.of_fst v23 ?_
            refine Same.seq ?_ (memReadC_same ..) (by decide)
            assumption
          extract_lets +onlyGivenNames -merge -useContext x25
          clear_value x25
          refine Same.iteFst ?_ ?_
          · dsimp only
            assumption
          · extract_lets +onlyGivenNames -merge -useContext x26
            clear_value x26
            extract_lets +onlyGivenNames -merge -useContext x27
            clear_value x27
            refine Same.iteFst ?_ ?_
            · dsimp only
              assumption
            · refine Same.iteFst ?_ ?_
              · refine Same.iteFst ?_ ?_
                · dsimp only
                  assumption
                · dsimp only
                  assumption
              · refine Same.iteFst ?_ ?_
                · dsimp only
                  assumption
                · split
                  · rename_i v28 v29 v30 v31
                    have h32 : Same 41781441855546 s v29 := by
                      refine Same.of_fst v31 ?_
                      refine Same.iteFst ?_ ?_
                      · refine Same.iteFst ?_ ?_
                        · refine Same.seq ?_ (memReadC_same ..) (by decide)
                          assumption
                        · dsimp only
                          assumption
                      · dsimp only
                        assumption
                    split
                    · rename_i v33 v34
                      dsimp only
                      assumption
                    · rename_i v35 v36
                      extract_lets +onlyGivenNames -merge -useContext x37
                      clear_value x37
                      refine Same.iteFst ?_ ?_
                      · dsimp only
                        assumption
                      · dsimp only
                        assumption

theorem collSend_same (s : State) (a1 : Coll) (a2 : Nat) (a3 : Nat) (a4 : Nat) (a5 : Nat) (a6 : Nat) (a7 : Nat) (a8 : Nat) (a9 : Nat) (a10 : List Byte) : Same 130922428198906 s (State.collSend s a1 a2 a3 a4 a5 a6 a7 a8 a9 a10) := by
  unfold State.collSend
  extract_lets +onlyGivenNames -merge -useContext x1
  clear_value x1
  split
  · rename_i v2 v3
    refine Same.seq ?_ (collFailed_same ..) (by decide)
    exact Same.refl _ _
  · rename_i v4 v5 v6
    refine Same.ite ?_ ?_
    · refine Same.ite ?_ ?_
      · exact Same.refl _ _
      · refine Same.seq ?_ (collFailed_same ..) (by decide)
        exact Same.refl _ _
    · refine Same.ite ?_ ?_
      · exact Same.refl _ _
      · split
        · rename_i v7 v8
          refine Same.seq ?_ (collFailed_same ..) (by decide)
          exact Same.refl _ _
        · rename_i v9 v10 v11
          extract_lets +onlyGivenNames -merge -useContext x12
          clear_value x12
          extract_lets +onlyGivenNames -merge -useContext x13
          clear_value x13
          extract_lets +onlyGivenNames -merge -useContext x14
          clear_value x14
          extract_lets +onlyGivenNames -merge -useContext x15
          clear_value x15
          extract_lets +onlyGivenNames -merge -useContext x16
          have h16 : Same 130922428198906 s x16 := by
            unfold x16
            refine Same.seq ?_ (setQueue_same ..) (by decide)
            exact Same.refl _ _
          clear_value x16
          extract_lets +onlyGivenNames -merge -useContext x17
          have h17 : Same 130922428198906 s x17 := by
            unfold x17
            refine Same.trans h16 ?_
            constructor <;> intro hb <;> first | rfl | exact absurd hb (by decide)
          clear_value x17
          refine Same.seq ?_ (pump_same ..) (by decide)
          refine Same.seq ?_ (modColl_same ..) (by decide)
          assumption

theorem collFetch_same (s : State) (a1 : Nat) (a2 : Nat) (a3 : Nat) (a4 : Nat) : Same 130922428198906 s (State.collFetch s a1 a2 a3 a4) := by
  unfold State.collFetch
  split
  · rename_i v1 v2
    exact Same.refl _ _
  · rename_i v3 v4 v5
    split
    · rename_i v6 v7
      exact Same.refl _ _
    · rename_i v8 v9 v10
      split
      · rename_i v11 v12 v13 v14
        refine Same.foldl _ _ _ ?_ ?_
        · intro x15 a15 h15
          refine Same.ite ?_ ?_
          · assumption
          · refine Same.seq ?_ (collSend_same ..) (by decide)
            assumption
        · exact Same.refl _ _

theorem countSpillWaits_same (s : State) (a1 : Nat) : Same 16777218 s (State.countSpillWaits s a1) := by
  unfold State.countSpillWaits
  extract_lets +onlyGivenNames -merge -useContext x1
  clear_value x1
  extract_lets +onlyGivenNames -merge -useContext x2
  extract_lets +onlyGivenNames -merge -useContext x3
  clear_value x3
  refine Same.seq ?_ (count_same ..) (by decide)
  refine Same.seq ?_ (setCluster_same ..) (by decide)
  exact Same.refl _ _

theorem redPost_same (s : State) (a1 : RedPost) : Same 16777218 s (State.redPost s a1) := by
  unfold State.redPost
  extract_lets +onlyGivenNames -merge -useContext x1
  clear_value x1
  refine Same.seq ?_ (countSpillWaits_same ..) (by decide)
  refine Same.seq ?_ (setCluster_same ..) (by decide)
  exact Same.refl _ _

theorem segPosts_same (s : State) (a1 : Nat) (a2 : Nat) (a3 : List Nat) (a4 : Nat) (a5 : Nat) (a6 : Nat) (a7 : List Nat) : Same 1090519042 s (State.segPosts s a1 a2 a3 a4 a5 a6 a7) := by
  induction a7 generalizing s a1 a2 a3 a4 a5 a6 with
  | nil =>
    rw [State.segPosts]
    exact Same.refl _ _
  | cons b l ih =>
    rw [State.segPosts]
    split
    · rename_i v1 v2
      exact Same.refl _ _
    · rename_i v3 v4 v5
      split
      · rename_i v6 v7 v8 v9 v10 v11
        split
        · rename_i v12 v13 v14
          refine Same.ite ?_ ?_
          · refine Same.seq ?_ (ih ..) (by decide)
            refine Same.seq ?_ (modColl_same ..) (by decide)
            refine Same.seq ?_ (redPost_same ..) (by decide)
            exact Same.refl _ _
          · refine Same.seq ?_ (ih ..) (by decide)
            exact Same.refl _ _
        · rename_i v15 v16
          refine Same.seq ?_ (ih ..) (by decide)
          exact Same.refl _ _
      · rename_i v17 v18 v19
        exact Same.refl _ _

theorem collJob_same (s : State) (a1 : Nat) (a2 : Nat) (a3 : List Nat) (a4 : Nat) (a5 : Nat) : Same 130922444976122 s (State.collJob s a1 a2 a3 a4 a5) := by
  unfold State.collJob
  extract_lets +onlyGivenNames -merge -useContext x1
  have h1 : Same 130922444976122 s x1 := by
    unfold x1
    refine Same.seq ?_ (collFetch_same ..) (by decide)
    refine Same.seq ?_ (modColl_same ..) (by decide)
    exact Same.refl _ _
  clear_value x1
  split
  · rename_i v2 v3
    assumption
  · rename_i v4 v5 v6
    extract_lets +onlyGivenNames -merge -useContext x7
    clear_value x7
    refine Same.foldl _ _ _ ?_ ?_
    · intro x8 a8 h8
      refine Same.seq ?_ (segPosts_same ..) (by decide)
      assumption
    · assumption

theorem collSource_same (s : State) (a1 : Coll) (a2 : Nat) (a3 : Nat) (a4 : Nat) : Same 130922428198906 s (State.collSource s a1 a2 a3 a4).1 := by
  unfold State.collSource
  extract_lets +onlyGivenNames -merge -useContext x1
  clear_value x1
  split
  · rename_i v2 v3 v4 v5
    extract_lets +onlyGivenNames -merge -useContext x6
    clear_value x6
    refine Same.iteFst ?_ ?_
    · split
      · rename_i v7 v8 v9 v10
        have h11 : Same 130922428198906 s v8 := by
          refine Same.of_fst v10 ?_
          refine Same.seq ?_ (memReadC_same ..) (by decide)
          exact Same.refl _ _
        dsimp only
        assumption
      · rename_i v12 v13 v14
        have h15 : Same 130922428198906 s v13 := by
          refine Same.of_fst v14 ?_
          refine Same.seq ?_ (memReadC_same ..) (by decide)
          exact Same.refl _ _
        dsimp only
        assumption
      · rename_i v16 v17 v18 v19 v20
        have h21 : Same 130922428198906 s v17 := by
          refine Same.of_fst v20 ?_
          refine Same.seq ?_ (memReadC_same ..) (by decide)
          exact Same.refl _ _
        dsimp only
        refine Same.seq ?_ (collFailed_same ..) (by decide)
        assumption
    · split
      · rename_i v22 v23 v24
        dsimp only
        exact Same.refl _ _
      · rename_i v25 v26
        dsimp only
        refine Same.ite ?_ ?_
        · exact Same.refl _ _
        · refine Same.seq ?_ (collSend_same ..) (by decide)
          exact Same.refl _ _

theorem collMoved_same (s : State) (a1 : Coll) (a2 : Nat) (a3 : Nat) : Same 130922428198906 s (State.collMoved s a1 a2 a3).1 := by
  unfold State.collMoved
  split
  · rename_i v1 v2 v3 v4
    dsimp only
    exact Same.refl _ _
  · rename_i v5 v6 v7 v8
    dsimp only
    exact Same.refl _ _
  · rename_i v9 v10 v11 v12 v13
    refine Same.iteFst ?_ ?_
    · dsimp only
      exact Same.refl _ _
    · split
      · rename_i v14 v15 v16
        have h17 : Same 130922428198906 s v15 := by
          refine Same.of_fst v16 ?_
          refine Same.seq ?_ (collSource_same ..) (by decide)
          exact Same.refl _ _
        dsimp only
        assumption
      · rename_i v18 v19 v20 v21
        have h22 : Same 130922428198906 s v19 := by
          refine Same.of_fst v21 ?_
          refine Same.seq ?_ (collSource_same ..) (by decide)
          exact Same.refl _ _
        extract_lets +onlyGivenNames -merge -useContext x23
        clear_value x23
        dsimp only
        refine Same.seq ?_ (modColl_same ..) (by decide)
        assumption

theorem collResult_same (s : State) (a1 : Coll) (a2 : Nat) (a3 : Nat) : Same 41782515597370 s (State.collResult s a1 a2 a3).1 := by
  unfold State.collResult
  split
  · rename_i v1 v2
    dsimp only
    exact Same.refl _ _
  · rename_i v3 v4 v5
    refine Same.iteFst ?_ ?_
    · dsimp only
      exact Same.refl _ _
    · split
      · rename_i v6 v7 v8 v9
        have h10 : Same 41782515597370 s v7 := by
          refine Same.of_fst v9 ?_
          refine Same.seq ?_ (memReadC_same ..) (by decide)
          exact Same.refl _ _
        dsimp only
        assumption
      · rename_i v11 v12 v13
        have h14 : Same 41782515597370 s v12 := by
          refine Same.of_fst v13 ?_
          refine Same.seq ?_ (memReadC_same ..) (by decide)
          exact Same.refl _ _
        dsimp only
        assumption
      · rename_i v15 v16 v17 v18 v19
        have h20 : Same 41782515597370 s v16 := by
          refine Same.of_fst v19 ?_
          refine Same.seq ?_ (memReadC_same ..) (by decide)
          exact Same.refl _ _
        dsimp only
        refine Same.seq ?_ (collFailed_same ..) (by decide)
        assumption

theorem collMove_same (s : State) (a1 : Nat) (a2 : Nat) (a3 : Nat) (a4 : Nat) : Same 130922428198906 s (State.collMove s a1 a2 a3 a4) := by
  unfold State.collMove
  split
  · rename_i v1 v2
    exact Same.refl _ _
  · rename_i v3 v4 v5
    refine Same.ite ?_ ?_
    · exact Same.refl _ _
    · split
      · rename_i v6 v7 v8
        have h9 : Same 130922428198906 s v7 := by
          refine Same.of_fst v8 ?_
          refine Same.iteFst ?_ ?_
          · refine Same.seq ?_ (collMoved_same ..) (by decide)
            exact Same.refl _ _
          · refine Same.seq ?_ (collResult_same ..) (by decide)
            exact Same.refl _ _
        assumption
      · rename_i v10 v11 v12 v13
        have h14 : Same 130922428198906 s v11 := by
          refine Same.of_fst v13 ?_
          refine Same.iteFst ?_ ?_
          · refine Same.seq ?_ (collMoved_same ..) (by decide)
            exact Same.refl _ _
          · refine Same.seq ?_ (collResult_same ..) (by decide)
            exact Same.refl _ _
        extract_lets +onlyGivenNames -merge -useContext x15
        clear_value x15
        extract_lets +onlyGivenNames -merge -useContext x16
        clear_value x16
        refine Same.ite ?_ ?_
        · split
          · rename_i v17 v18 v19 v20
            have h21 : Same 130922428198906 s v18 := by
              refine Same.of_fst v20 ?_
              refine Same.seq ?_ (memWriteC_same ..) (by decide)
              assumption
            refine Same.seq ?_ (modColl_same ..) (by decide)
            assumption
          · rename_i v22 v23 v24
            have h25 : Same 130922428198906 s v23 := by
              refine Same.of_fst v24 ?_
              refine Same.seq ?_ (memWriteC_same ..) (by decide)
              assumption
            assumption
          · rename_i v26 v27 v28 v29 v30
            have h31 : Same 130922428198906 s v27 := by
              refine Same.of_fst v30 ?_
              refine Same.seq ?_ (memWriteC_same ..) (by decide)
              assumption
            refine Same.seq ?_ (collFailed_same ..) (by decide)
            assumption
        · refine Same.seq ?_ (collSend_same ..) (by decide)
          assumption

theorem collFeed_same (s : State) (a1 : Nat) (a2 : Nat) (a3 : List Nat) : Same 130922444976122 s (State.collFeed s a1 a2 a3) := by
  unfold State.collFeed
  split
  · rename_i v1 v2
    exact Same.refl _ _
  · rename_i v3 v4 v5
    refine Same.ite ?_ ?_
    · exact Same.refl _ _
    · extract_lets +onlyGivenNames -merge -useContext x6
      have h6 : Same 130922444976122 s x6 := by
        unfold x6
        refine Same.ite ?_ ?_
        · exact Same.refl _ _
        · refine Same.foldl _ _ _ ?_ ?_
          · intro x7 a7 h7
            refine Same.foldl _ _ _ ?_ ?_
            · intro x8 a8 h8
              refine Same.seq ?_ (collJob_same ..) (by decide)
              assumption
            · assumption
          · exact Same.refl _ _
      clear_value x6
      refine Same.foldl _ _ _ ?_ ?_
      · intro x9 a9 h9
        extract_lets +onlyGivenNames -merge -useContext x10
        clear_value x10
        refine Same.foldl _ _ _ ?_ ?_
        · intro x11 a11 h11
          refine Same.seq ?_ (collMove_same ..) (by decide)
          assumption
        · assumption
      · assumption

theorem collIncrement_same (s : State) (a1 : Coll) (a2 : Nat) : Same 130922428198906 s (State.collIncrement s a1 a2) := by
  unfold State.collIncrement
  extract_lets +onlyGivenNames -merge -useContext x1
  clear_value x1
  extract_lets +onlyGivenNames -merge -useContext x2
  clear_value x2
  extract_lets +onlyGivenNames -merge -useContext x3
  refine Same.ite ?_ ?_
  · exact Same.refl _ _
  · refine Same.ite ?_ ?_
    · unfold x3
      refine Same.seq ?_ (modColl_same ..) (by decide)
      exact Same.refl _ _
    · refine Same.ite ?_ ?_
      · split
        · rename_i v4 v5 v6 v7
          have h8 : Same 130922428198906 s v5 := by
            refine Same.of_fst v7 ?_
            refine Same.seq ?_ (wordAdd_same ..) (by decide)
            exact Same.refl _ _
          unfold x3
          refine Same.seq ?_ (modColl_same ..) (by decide)
          assumption
        · rename_i v9 v10 v11
          have h12 : Same 130922428198906 s v10 := by
            refine Same.of_fst v11 ?_
            refine Same.seq ?_ (wordAdd_same ..) (by decide)
            exact Same.refl _ _
          assumption
        · rename_i v13 v14 v15 v16 v17
          have h18 : Same 130922428198906 s v14 := by
            refine Same.of_fst v17 ?_
            refine Same.seq ?_ (wordAdd_same ..) (by decide)
            exact Same.refl _ _
          refine Same.seq ?_ (collFailed_same ..) (by decide)
          assumption
      · extract_lets +onlyGivenNames -merge -useContext x19
        clear_value x19
        extract_lets +onlyGivenNames -merge -useContext x20
        have h20 : Same 130922428198906 s x20 := by
          unfold x20
          refine Same.seq ?_ (collSend_same ..) (by decide)
          exact Same.refl _ _
        clear_value x20
        refine Same.ite ?_ ?_
        · assumption
        · unfold x3
          refine Same.seq ?_ (modColl_same ..) (by decide)
          assumption

theorem gather_same (s : State) (a1 : Nat) (a2 : Buf) (a3 : Nat) (a4 : List Nat) (a5 : List Byte) : Same 112150186033210 s (State.gather s a1 a2 a3 a4 a5).1 := by
  induction a4 generalizing s a1 a2 a3 a5 with
  | nil =>
    rw [State.gather]
    dsimp only
    exact Same.refl _ _
  | cons b l ih =>
    rw [State.gather]
    refine Same.iteFst ?_ ?_
    · refine Same.seq ?_ (ih ..) (by decide)
      exact Same.refl _ _
    · split
      · rename_i v1 v2 v3 v4
        have h5 : Same 112150186033210 s v2 := by
          refine Same.of_fst v4 ?_
          refine Same.seq ?_ (bufRead_same ..) (by decide)
          exact Same.refl _ _
        refine Same.seq ?_ (ih ..) (by decide)
        assumption
      · rename_i v6 v7
        refine Same.seq ?_ (bufRead_same ..) (by decide)
        exact Same.refl _ _

theorem xferStop_same (s : State) (a1 : Nat) (a2 : Nat) (a3 : Xfer) (a4 : List Frag) : Same 8585218 s (State.xferStop s a1 a2 a3 a4) := by
  unfold State.xferStop
  split
  · rename_i v1
    exact Same.refl _ _
  · rename_i v2 v3 v4
    split
    · rename_i v5 v6 v7 v8
      have h9 : Same 8585218 s v6 := by
        refine Same.of_fst v8 ?_
        refine Same.seq ?_ (raiseFault_same ..) (by decide)
        exact Same.refl _ _
      refine Same.seq ?_ (modXfer_same ..) (by decide)
      assumption
    · rename_i v10 v11 v12
      have h13 : Same 8585218 s v11 := by
        refine Same.of_fst v12 ?_
        refine Same.seq ?_ (raiseFault_same ..) (by decide)
        exact Same.refl _ _
      assumption

theorem convSource_same (s : State) (a1 : Nat) (a2 : Nat) (a3 : Xfer) : Same 131118922932282 s (State.convSource s a1 a2 a3).1 := by
  unfold State.convSource
  extract_lets +onlyGivenNames -merge -useContext x1
  clear_value x1
  extract_lets +onlyGivenNames -merge -useContext x2
  clear_value x2
  extract_lets +onlyGivenNames -merge -useContext x3
  clear_value x3
  extract_lets +onlyGivenNames -merge -useContext x4
  clear_value x4
  extract_lets +onlyGivenNames -merge -useContext x5
  have h5 : Same 131118922932282 s x5.1 := by
    unfold x5
    refine Same.iteFst ?_ ?_
    · split
      · rename_i v6 v7 v8 v9
        have h10 : Same 131118922932282 s v7 := by
          refine Same.of_fst v9 ?_
          refine Same.seq ?_ (memReadC_same ..) (by decide)
          exact Same.refl _ _
        dsimp only
        assumption
      · rename_i v11 v12 v13 v14
        have h15 : Same 131118922932282 s v12 := by
          refine Same.of_fst v14 ?_
          refine Same.seq ?_ (memReadC_same ..) (by decide)
          exact Same.refl _ _
        extract_lets +onlyGivenNames -merge -useContext x16
        clear_value x16
        refine Same.iteFst ?_ ?_
        · dsimp only
          refine Same.seq ?_ (xferMoved_same ..) (by decide)
          assumption
        · refine Same.seq ?_ (gather_same ..) (by decide)
          assumption
    · refine Same.seq ?_ (bufRead_same ..) (by decide)
      exact Same.refl _ _
  clear_value x5
  split
  · rename_i v17 v18 v19
    dsimp only
    assumption
  · rename_i v20 v21 v22
    dsimp only
    refine Same.seq ?_ (xferStop_same ..) (by decide)
    assumption
  · rename_i v23 v24
    dsimp only
    assumption
  · rename_i v25 v26 v27 v28
    dsimp only
    refine Same.seq ?_ (xferMoved_same ..) (by decide)
    assumption
  · rename_i v29 v30
    dsimp only
    refine Same.seq ?_ (xferMoved_same ..) (by decide)
    assumption

theorem tileFaults_same (s : State) (a1 : Nat) (a2 : Nat) (a3 : Access) (a4 : List Frag) : Same 196610 s (State.tileFaults s a1 a2 a3 a4).1 := by
  unfold State.tileFaults
  refine Same.foldlPair _ _ _ ?_ ?_
  · intro x1 a1 h1
    split
    · rename_i v2 v3 v4
      split
      · rename_i v5 v6 v7 v8
        have h9 : Same 196610 s v6 := by
          refine Same.of_fst v8 ?_
          refine Same.seq ?_ (raiseFault_same ..) (by decide)
          assumption
        dsimp only
        assumption
      · rename_i v10 v11 v12
        have h13 : Same 196610 s v11 := by
          refine Same.of_fst v12 ?_
          refine Same.seq ?_ (raiseFault_same ..) (by decide)
          assumption
        dsimp only
        assumption
  · dsimp only
    exact Same.refl _ _

theorem tileCount_same (s : State) (a1 : Tile) (a2 : Nat → Nat) : Same 12582912 s (State.tileCount s a1 a2) := by
  unfold State.tileCount
  split
  · rename_i v1 v2 v3 v4 v5
    refine Same.seq ?_ (modXfer_same ..) (by decide)
    exact Same.refl _ _
  · rename_i v6 v7
    refine Same.seq ?_ (modLive_same ..) (by decide)
    exact Same.refl _ _

theorem park_same (s : State) (a1 : Tile) (a2 : Access) (a3 : List Frag) : Same 60473153093690 s (State.park s a1 a2 a3) := by
  unfold State.park
  extract_lets +onlyGivenNames -merge -useContext x1
  clear_value x1
  split
  · rename_i v2 v3 v4 v5
    have h6 : Same 60473153093690 s v3 := by
      refine Same.of_fst v5 ?_
      refine Same.seq ?_ (tileFaults_same ..) (by decide)
      exact Same.refl _ _
    extract_lets +onlyGivenNames -merge -useContext x7
    clear_value x7
    extract_lets +onlyGivenNames -merge -useContext x8
    have h8 : Same 60473153093690 s x8 := by
      unfold x8
      refine Same.trans h6 ?_
      constructor <;> intro hb <;> first | rfl | exact absurd hb (by decide)
    clear_value x8
    refine Same.seq ?_ (parkTile_same ..) (by decide)
    refine Same.seq ?_ (tileCount_same ..) (by decide)
    assumption

theorem parkBehind_same (s : State) (a1 : Tile) (a2 : Tile) : Same 60473153093690 s (State.parkBehind s a1 a2) := by
  unfold State.parkBehind
  extract_lets +onlyGivenNames -merge -useContext x1
  clear_value x1
  extract_lets +onlyGivenNames -merge -useContext x2
  clear_value x2
  extract_lets +onlyGivenNames -merge -useContext x3
  clear_value x3
  extract_lets +onlyGivenNames -merge -useContext x4
  have h4 : Same 60473153093690 s x4 := by
    unfold x4
    refine Same.seq ?_ (setSheep_same ..) (by decide)
    exact Same.refl _ _
  clear_value x4
  extract_lets +onlyGivenNames -merge -useContext x5
  clear_value x5
  extract_lets +onlyGivenNames -merge -useContext x6
  have h6 : Same 60473153093690 s x6 := by
    unfold x6
    refine Same.trans h4 ?_
    constructor <;> intro hb <;> first | rfl | exact absurd hb (by decide)
  clear_value x6
  refine Same.seq ?_ (parkTile_same ..) (by decide)
  refine Same.seq ?_ (tileCount_same ..) (by decide)
  assumption

theorem placeAt_same (s : State) (a1 : Buf) (a2 : Tile) (a3 : Access) : Same 130841897271354 s (State.placeAt s a1 a2 a3).1 := by
  unfold State.placeAt
  extract_lets +onlyGivenNames -merge -useContext x1
  clear_value x1
  refine Same.iteFst ?_ ?_
  · dsimp only
    exact Same.refl _ _
  · split
    · rename_i v2 v3 v4 v5
      have h6 : Same 130841897271354 s v3 := by
        refine Same.of_fst v5 ?_
        refine Same.seq ?_ (bufWriteParts_same ..) (by decide)
        exact Same.refl _ _
      refine Same.iteFst ?_ ?_
      · dsimp only
        exact Same.refl _ _
      · dsimp only
        refine Same.seq ?_ (park_same ..) (by decide)
        assumption
    · rename_i v7 v8 v9 v10
      have h11 : Same 130841897271354 s v8 := by
        refine Same.of_fst v10 ?_
        refine Same.seq ?_ (bufWriteParts_same ..) (by decide)
        exact Same.refl _ _
      split
      · rename_i v12 v13 v14
        dsimp only
        refine Same.seq ?_ (parkBehind_same ..) (by decide)
        exact Same.refl _ _
      · rename_i v15 v16
        dsimp only
        assumption
    · rename_i v17 v18 v19
      refine Same.seq ?_ (bufWriteParts_same ..) (by decide)
      exact Same.refl _ _

theorem placeTile_same (s : State) (a1 : Nat) (a2 : Buf) (a3 : Nat) (a4 : List Byte) (a5 : Nat) (a6 : Nat) (a7 : Access) : Same 130841897271354 s (State.placeTile s a1 a2 a3 a4 a5 a6 a7).1 := by
  unfold State.placeTile
  refine Same.seq ?_ (placeAt_same ..) (by decide)
  exact Same.refl _ _

theorem stopEntry_same (s : State) (a1 : Nat) (a2 : Queue) (a3 : Live) (a4 : List Frag) : Same 4390914 s (State.stopEntry s a1 a2 a3 a4) := by
  unfold State.stopEntry
  split
  · rename_i v1
    exact Same.refl _ _
  · rename_i v2 v3 v4
    split
    · rename_i v5 v6 v7 v8
      have h9 : Same 4390914 s v6 := by
        refine Same.of_fst v8 ?_
        refine Same.seq ?_ (raiseFault_same ..) (by decide)
        exact Same.refl _ _
      refine Same.seq ?_ (modLive_same ..) (by decide)
      assumption
    · rename_i v10 v11 v12
      have h13 : Same 4390914 s v11 := by
        refine Same.of_fst v12 ?_
        refine Same.seq ?_ (raiseFault_same ..) (by decide)
        exact Same.refl _ _
      assumption

theorem copyBlocks_same (s : State) (a1 : Nat) (a2 : Queue) (a3 : Live) (a4 : Nat) (a5 : Nat) : Same 130844045811770 s (State.copyBlocks s a1 a2 a3 a4 a5) := by
  induction a4 generalizing s a1 a2 a3 a5 with
  | zero =>
    rw [State.copyBlocks]
    exact Same.refl _ _
  | succ n ih =>
    rw [State.copyBlocks]
    refine Same.ite ?_ ?_
    · refine Same.seq ?_ (endEntry_same ..) (by decide)
      exact Same.refl _ _
    · extract_lets +onlyGivenNames -merge -useContext x1
      clear_value x1
      split
      · rename_i v2 v3 v4 v5
        have h6 : Same 130844045811770 s v3 := by
          refine Same.of_fst v5 ?_
          refine Same.seq ?_ (sourceData_same ..) (by decide)
          exact Same.refl _ _
        split
        · rename_i v7 v8 v9
          have h10 : Same 130844045811770 s v8 := by
            refine Same.of_fst v9 ?_
            refine Same.seq ?_ (placeTile_same ..) (by decide)
            assumption
          assumption
        · rename_i v11 v12 v13
          have h14 : Same 130844045811770 s v12 := by
            refine Same.of_fst v13 ?_
            refine Same.seq ?_ (placeTile_same ..) (by decide)
            assumption
          refine Same.seq ?_ (endEntry_same ..) (by decide)
          assumption
        · rename_i v15 v16 v17
          have h18 : Same 130844045811770 s v16 := by
            refine Same.of_fst v17 ?_
            refine Same.seq ?_ (placeTile_same ..) (by decide)
            assumption
          refine Same.seq ?_ (endEntry_same ..) (by decide)
          assumption
        · rename_i v19 v20 v21 v22 v23 v24 v25
          have h26 : Same 130844045811770 s v20 := by
            refine Same.of_fst v25 ?_
            refine Same.seq ?_ (placeTile_same ..) (by decide)
            assumption
          refine Same.seq ?_ (ih ..) (by decide)
          refine Same.seq ?_ (modLive_same ..) (by decide)
          assumption
      · rename_i v27 v28 v29 v30
        have h31 : Same 130844045811770 s v28 := by
          refine Same.of_fst v30 ?_
          refine Same.seq ?_ (sourceData_same ..) (by decide)
          exact Same.refl _ _
        refine Same.seq ?_ (stopEntry_same ..) (by decide)
        assumption
      · rename_i v32 v33 v34
        have h35 : Same 130844045811770 s v33 := by
          refine Same.of_fst v34 ?_
          refine Same.seq ?_ (sourceData_same ..) (by decide)
          exact Same.refl _ _
        refine Same.seq ?_ (endEntry_same ..) (by decide)
        assumption
      · rename_i v36 v37 v38
        have h39 : Same 130844045811770 s v37 := by
          refine Same.of_fst v38 ?_
          refine Same.seq ?_ (sourceData_same ..) (by decide)
          exact Same.refl _ _
        refine Same.seq ?_ (endEntry_same ..) (by decide)
        assumption
      · rename_i v40 v41 v42 v43 v44 v45 v46 v47
        have h48 : Same 130844045811770 s v41 := by
          refine Same.of_fst v47 ?_
          refine Same.seq ?_ (sourceData_same ..) (by decide)
          exact Same.refl _ _
        assumption

theorem corrected_same (s : State) (a1 : Nat) (a2 : Nat) (a3 : Nat) : Same 41850161332282 s (State.corrected s a1 a2 a3) := by
  unfold State.corrected
  extract_lets +onlyGivenNames -merge -useContext x1
  clear_value x1
  extract_lets +onlyGivenNames -merge -useContext x2
  clear_value x2
  extract_lets +onlyGivenNames -merge -useContext x3
  clear_value x3
  extract_lets +onlyGivenNames -merge -useContext x4
  have h4 : Same 41850161332282 s x4 := by
    unfold x4
    constructor <;> intro hb <;> first | rfl | exact absurd hb (by decide)
  clear_value x4
  extract_lets +onlyGivenNames -merge -useContext x5
  have h5 : Same 41850161332282 s x5 := by
    unfold x5
    refine Same.seq ?_ (count_same ..) (by decide)
    assumption
  clear_value x5
  refine Same.ite ?_ ?_
  · assumption
  · extract_lets +onlyGivenNames -merge -useContext x6
    have h6 : Same 41850161332282 s x6 := by
      unfold x6
      refine Same.ite ?_ ?_
      · refine Same.seq ?_ (put_same ..) (by decide)
        refine Same.seq ?_ (put_same ..) (by decide)
        assumption
      · refine Same.seq ?_ (put_same ..) (by decide)
        refine Same.seq ?_ (put_same ..) (by decide)
        assumption
    clear_value x6
    refine Same.seq ?_ (count_same ..) (by decide)
    refine Same.seq ?_ (event_same ..) (by decide)
    assumption

theorem cqDrain_same (s : State) (a1 : Nat) (a2 : Nat) : Same 60473152110650 s (State.cqDrain s a1 a2) := by
  induction a2 generalizing s a1 with
  | zero =>
    rw [State.cqDrain]
    exact Same.refl _ _
  | succ n ih =>
    rw [State.cqDrain]
    split
    · rename_i v1 v2
      exact Same.refl _ _
    · rename_i v3 v4 v5
      split
      · rename_i v6 v7
        exact Same.refl _ _
      · rename_i v8 v9 v10 v11
        refine Same.ite ?_ ?_
        · exact Same.refl _ _
        · extract_lets +onlyGivenNames -merge -useContext x12
          clear_value x12
          split
          · rename_i v13 v14 v15
            have h16 : Same 60473152110650 s v14 := by
              refine Same.of_fst v15 ?_
              refine Same.seq ?_ (cqWrite_same ..) (by decide)
              refine Same.seq ?_ (setQueue_same ..) (by decide)
              exact Same.refl _ _
            refine Same.seq ?_ (ih ..) (by decide)
            assumption
          · rename_i v17 v18 v19
            have h20 : Same 60473152110650 s v18 := by
              refine Same.of_fst v19 ?_
              refine Same.seq ?_ (cqWrite_same ..) (by decide)
              refine Same.seq ?_ (setQueue_same ..) (by decide)
              exact Same.refl _ _
            refine Same.seq ?_ (setQueue_same ..) (by decide)
            assumption

theorem dbRej_same (s : State) (a1 : HostId) : Same 2 s (State.dbRej s a1) := by
  unfold State.dbRej
  refine Same.seq ?_ (count_same ..) (by decide)
  exact Same.refl _ _

theorem pushEvent_same (s : State) (a1 : Nat) (a2 : CoreEv) : Same 274886295554 s (State.pushEvent s a1 a2) := by
  unfold State.pushEvent
  refine Same.seq ?_ (showEvents_same ..) (by decide)
  refine Same.seq ?_ (modCore_same ..) (by decide)
  exact Same.refl _ _

theorem deliver_same (s : State) (a1 : CoreMsg) : Same 274886295554 s (State.deliver s a1) := by
  unfold State.deliver
  extract_lets +onlyGivenNames -merge -useContext x1
  clear_value x1
  refine Same.ite ?_ ?_
  · refine Same.seq ?_ (count_same ..) (by decide)
    exact Same.refl _ _
  · refine Same.ite ?_ ?_
    · refine Same.seq ?_ (count_same ..) (by decide)
      exact Same.refl _ _
    · refine Same.seq ?_ (pushEvent_same ..) (by decide)
      exact Same.refl _ _

theorem unqueued_same (s : State) (a1 : Frame) : Same 35184372089026 s (State.unqueued s a1) := by
  unfold State.unqueued
  refine Same.seq ?_ (frameGone_same ..) (by decide)
  refine Same.seq ?_ (flowDepth_same ..) (by decide)
  exact Same.refl _ _

theorem discardQueued_same (s : State) (a1 : Nat) : Same 35184372090050 s (State.discardQueued s a1) := by
  unfold State.discardQueued
  extract_lets +onlyGivenNames -merge -useContext x1
  clear_value x1
  extract_lets +onlyGivenNames -merge -useContext x2
  clear_value x2
  extract_lets +onlyGivenNames -merge -useContext x3
  have h3 : Same 35184372090050 s x3 := by
    unfold x3
    refine Same.seq ?_ (setPort_same ..) (by decide)
    exact Same.refl _ _
  clear_value x3
  refine Same.foldl _ _ _ ?_ ?_
  · intro x4 a4 h4
    refine Same.seq ?_ (lostDrop_same ..) (by decide)
    refine Same.seq ?_ (unqueued_same ..) (by decide)
    assumption
  · assumption

theorem domainEnergy_same (s : State) (a1 : Nat) (a2 : Nat) : Same 2 s (State.domainEnergy s a1 a2) := by
  unfold State.domainEnergy
  extract_lets +onlyGivenNames -merge -useContext x1
  clear_value x1
  extract_lets +onlyGivenNames -merge -useContext x2
  clear_value x2
  extract_lets +onlyGivenNames -merge -useContext x3
  have h3 : Same 2 s x3 := by
    unfold x3
    refine Same.seq ?_ (put_same ..) (by decide)
    refine Same.seq ?_ (put_same ..) (by decide)
    exact Same.refl _ _
  clear_value x3
  refine Same.seq ?_ (put_same ..) (by decide)
  refine Same.seq ?_ (put_same ..) (by decide)
  assumption

theorem doorbell_same (s : State) (a1 : HostId) (a2 : Nat) (a3 : Nat) (a4 : BitVec 64) : Same 60473152110650 s (State.doorbell s a1 a2 a3 a4) := by
  unfold State.doorbell
  refine Same.ite ?_ ?_
  · exact Same.refl _ _
  · refine Same.ite ?_ ?_
    · refine Same.seq ?_ (dbRej_same ..) (by decide)
      exact Same.refl _ _
    · split
      · rename_i v1 v2
        refine Same.seq ?_ (dbRej_same ..) (by decide)
        exact Same.refl _ _
      · rename_i v3 v4 v5
        refine Same.ite ?_ ?_
        · refine Same.seq ?_ (dbRej_same ..) (by decide)
          exact Same.refl _ _
        · extract_lets +onlyGivenNames -merge -useContext x6
          clear_value x6
          extract_lets +onlyGivenNames -merge -useContext x7
          clear_value x7
          extract_lets +onlyGivenNames -merge -useContext x8
          clear_value x8
          extract_lets +onlyGivenNames -merge -useContext x9
          clear_value x9
          split
          · rename_i v10 v11
            refine Same.seq ?_ (dbRej_same ..) (by decide)
            exact Same.refl _ _
          · rename_i v12 v13 v14 v15
            extract_lets +onlyGivenNames -merge -useContext x16
            clear_value x16
            refine Same.ite ?_ ?_
            · refine Same.seq ?_ (dbRej_same ..) (by decide)
              exact Same.refl _ _
            · extract_lets +onlyGivenNames -merge -useContext x17
              clear_value x17
              refine Same.ite ?_ ?_
              · refine Same.ite ?_ ?_
                · refine Same.seq ?_ (dbRej_same ..) (by decide)
                  exact Same.refl _ _
                · extract_lets +onlyGivenNames -merge -useContext x18
                  clear_value x18
                  extract_lets +onlyGivenNames -merge -useContext x19
                  clear_value x19
                  extract_lets +onlyGivenNames -merge -useContext x20
                  have h20 : Same 60473152110650 s x20 := by
                    unfold x20
                    refine Same.seq ?_ (setQueue_same ..) (by decide)
                    exact Same.refl _ _
                  clear_value x20
                  extract_lets +onlyGivenNames -merge -useContext x21
                  have h21 : Same 60473152110650 s x21 := by
                    unfold x21
                    refine Same.ite ?_ ?_
                    · refine Same.seq ?_ (raiseCq_same ..) (by decide)
                      assumption
                    · assumption
                  clear_value x21
                  refine Same.seq ?_ (cqDrain_same ..) (by decide)
                  assumption
              · refine Same.ite ?_ ?_
                · refine Same.seq ?_ (dbRej_same ..) (by decide)
                  exact Same.refl _ _
                · refine Same.ite ?_ ?_
                  · refine Same.seq ?_ (setQueue_same ..) (by decide)
                    exact Same.refl _ _
                  · exact Same.refl _ _

theorem drainCqs_same (s : State) : Same 60473152110650 s (State.drainCqs s) := by
  unfold State.drainCqs
  refine Same.foldl _ _ _ ?_ ?_
  · intro x1 a1 h1
    refine Same.seq ?_ (cqDrain_same ..) (by decide)
    assumption
  · exact Same.refl _ _

theorem drainInside_same (s : State) (a1 : Nat) : Same 35184372091842 s (State.drainInside s a1) := by
  unfold State.drainInside
  extract_lets +onlyGivenNames -merge -useContext x1
  clear_value x1
  extract_lets +onlyGivenNames -merge -useContext x2
  clear_value x2
  extract_lets +onlyGivenNames -merge -useContext x3
  clear_value x3
  extract_lets +onlyGivenNames -merge -useContext x4
  clear_value x4
  extract_lets +onlyGivenNames -merge -useContext x5
  have h5 : Same 35184372091842 s x5 := by
    unfold x5
    constructor <;> intro hb <;> first | rfl | exact absurd hb (by decide)
  clear_value x5
  extract_lets +onlyGivenNames -merge -useContext x6
  have h6 : Same 35184372091842 s x6 := by
    unfold x6
    refine Same.foldl _ _ _ ?_ ?_
    · intro x7 a7 h7
      refine Same.seq ?_ (count_same ..) (by decide)
      refine Same.seq ?_ (frameGone_same ..) (by decide)
      refine Same.seq ?_ (pinOff_same ..) (by decide)
      assumption
    · assumption
  clear_value x6
  extract_lets +onlyGivenNames -merge -useContext x8
  have h8 : Same 35184372091842 s x8 := by
    unfold x8
    refine Same.foldl _ _ _ ?_ ?_
    · intro x9 a9 h9
      refine Same.seq ?_ (count_same ..) (by decide)
      refine Same.seq ?_ (pktGone_same ..) (by decide)
      assumption
    · assumption
  clear_value x8
  refine Same.foldl _ _ _ ?_ ?_
  · intro x10 a10 h10
    refine Same.seq ?_ (count_same ..) (by decide)
    refine Same.seq ?_ (frameGone_same ..) (by decide)
    assumption
  · assumption

theorem drainPort_same (a0 : Nat) (s : State) (a2 : Nat) : Same 35184372089026 s (State.drainPort a0 s a2) := by
  unfold State.drainPort
  extract_lets +onlyGivenNames -merge -useContext x1
  clear_value x1
  extract_lets +onlyGivenNames -merge -useContext x2
  have h2 : Same 35184372089026 s x2 := by
    unfold x2
    refine Same.seq ?_ (setPort_same ..) (by decide)
    exact Same.refl _ _
  clear_value x2
  extract_lets +onlyGivenNames -merge -useContext x3
  have h3 : Same 35184372089026 s x3 := by
    unfold x3
    refine Same.foldl _ _ _ ?_ ?_
    · intro x4 a4 h4
      refine Same.seq ?_ (count_same ..) (by decide)
      refine Same.seq ?_ (unqueued_same ..) (by decide)
      assumption
    · assumption
  clear_value x3
  extract_lets +onlyGivenNames -merge -useContext x5
  have h5 : Same 35184372089026 s x5 := by
    unfold x5
    refine Same.foldl _ _ _ ?_ ?_
    · intro x6 a6 h6
      refine Same.seq ?_ (count_same ..) (by decide)
      refine Same.seq ?_ (pktGone_same ..) (by decide)
      assumption
    · assumption
  clear_value x5
  extract_lets +onlyGivenNames -merge -useContext x7
  have h7 : Same 35184372089026 s x7 := by
    unfold x7
    refine Same.seq ?_ (missRelease_same ..) (by decide)
    assumption
  clear_value x7
  refine Same.foldl _ _ _ ?_ ?_
  · intro x8 a8 h8
    refine Same.seq ?_ (count_same ..) (by decide)
    refine Same.seq ?_ (leave_same ..) (by decide)
    assumption
  · assumption

theorem drainVictims_same (s : State) : Same 60473139552314 s (State.drainVictims s) := by
  unfold State.drainVictims
  refine Same.foldl _ _ _ ?_ ?_
  · intro x1 a1 h1
    refine Same.ite ?_ ?_
    · refine Same.seq ?_ (spill_same ..) (by decide)
      assumption
    · assumption
  · exact Same.refl _ _

theorem dropBad_same (s : State) (a1 : Nat) : Same 35184372089538 s (State.dropBad s a1) := by
  induction a1 generalizing s with
  | zero =>
    rw [State.dropBad]
    exact Same.refl _ _
  | succ n ih =>
    rw [State.dropBad]
    split
    · rename_i v1 v2
      exact Same.refl _ _
    · rename_i v3 v4 v5 v6
      split
      · rename_i v7 v8 v9
        exact Same.refl _ _
      · rename_i v10 v11 v12
        extract_lets +onlyGivenNames -merge -useContext x13
        have h13 : Same 35184372089538 s x13 := by
          unfold x13
          refine Same.seq ?_ (pktGone_same ..) (by decide)
          constructor <;> intro hb <;> first | rfl | exact absurd hb (by decide)
        clear_value x13
        refine Same.seq ?_ (ih ..) (by decide)
        split
        · rename_i v14 v15
          refine Same.seq ?_ (count_same ..) (by decide)
          assumption
        · rename_i v16
          assumption

theorem dropBars_same (s : State) (a1 : Nat) : Same 17179869184 s (State.dropBars s a1) := by
  unfold State.dropBars
  constructor <;> intro hb <;> first | rfl | exact absurd hb (by decide)

theorem dropColls_same (s : State) (a1 : Nat → Bool) : Same 1090519042 s (State.dropColls s a1) := by
  unfold State.dropColls
  extract_lets +onlyGivenNames -merge -useContext x1
  have h1 : Same 1090519042 s x1 := by
    unfold x1
    refine Same.foldl _ _ _ ?_ ?_
    · intro x2 a2 h2
      refine Same.seq ?_ (closeSegs_same ..) (by decide)
      assumption
    · exact Same.refl _ _
  clear_value x1
  refine Same.trans h1 ?_
  constructor <;> intro hb <;> first | rfl | exact absurd hb (by decide)

theorem dropFaults_same (s : State) (a1 : Nat) : Same 60473139986490 s (State.dropFaults s a1) := by
  unfold State.dropFaults
  extract_lets +onlyGivenNames -merge -useContext x1
  have h1 : Same 60473139986490 s x1 := by
    unfold x1
    refine Same.seq ?_ (dropTiles_same ..) (by decide)
    exact Same.refl _ _
  clear_value x1
  extract_lets +onlyGivenNames -merge -useContext x2
  extract_lets +onlyGivenNames -merge -useContext x3
  refine Same.seq ?_ (setSheep_same ..) (by decide)
  refine Same.seq ?_ (setSheep_same ..) (by decide)
  assumption

theorem dropHostCompletions_same (s : State) (a1 : Nat) : Same 4194304 s (State.dropHostCompletions s a1) := by
  unfold State.dropHostCompletions
  constructor <;> intro hb <;> first | rfl | exact absurd hb (by decide)

theorem setOpen_same (s : State) (a1 : Nat) (a2 : Nat) (a3 : Option (Nat × List Byte)) : Same 128 s (State.setOpen s a1 a2 a3) := by
  unfold State.setOpen
  extract_lets +onlyGivenNames -merge -useContext x1
  clear_value x1
  refine Same.seq ?_ (setPort_same ..) (by decide)
  exact Same.refl _ _

theorem dropOpen_same (s : State) (a1 : Nat) (a2 : Nat) : Same 130 s (State.dropOpen s a1 a2) := by
  unfold State.dropOpen
  split
  · rename_i v1 v2 v3 v4
    refine Same.seq ?_ (badFrame_same ..) (by decide)
    refine Same.seq ?_ (leave_same ..) (by decide)
    refine Same.seq ?_ (setOpen_same ..) (by decide)
    exact Same.refl _ _
  · rename_i v5 v6
    exact Same.refl _ _

theorem dropReductions_same (s : State) (a1 : Nat) : Same 16777218 s (State.dropReductions s a1) := by
  unfold State.dropReductions
  extract_lets +onlyGivenNames -merge -useContext x1
  have h1 : Same 16777218 s x1 := by
    unfold x1
    refine Same.foldl _ _ _ ?_ ?_
    · intro x2 a2 h2
      refine Same.seq ?_ (showRed_same ..) (by decide)
      refine Same.seq ?_ (setCluster_same ..) (by decide)
      assumption
    · exact Same.refl _ _
  clear_value x1
  refine Same.foldl _ _ _ ?_ ?_
  · intro x3 a3 h3
    refine Same.foldl _ _ _ ?_ ?_
    · intro x4 a4 h4
      extract_lets +onlyGivenNames -merge -useContext x5
      clear_value x5
      refine Same.ite ?_ ?_
      · refine Same.seq ?_ (resetReg_same ..) (by decide)
        refine Same.seq ?_ (resetReg_same ..) (by decide)
        refine Same.seq ?_ (resetReg_same ..) (by decide)
        refine Same.seq ?_ (resetReg_same ..) (by decide)
        assumption
      · assumption
    · assumption
  · assumption

theorem dropSchedule_same (s : State) (a1 : Nat) : Same 130912798076922 s (State.dropSchedule s a1) := by
  unfold State.dropSchedule
  extract_lets +onlyGivenNames -merge -useContext x1
  clear_value x1
  extract_lets +onlyGivenNames -merge -useContext x2
  clear_value x2
  extract_lets +onlyGivenNames -merge -useContext x3
  have h3 : Same 130912798076922 s x3 := by
    unfold x3
    constructor <;> intro hb <;> first | rfl | exact absurd hb (by decide)
  clear_value x3
  extract_lets +onlyGivenNames -merge -useContext x4
  have h4 : Same 130912798076922 s x4 := by
    unfold x4
    refine Same.foldl _ _ _ ?_ ?_
    · intro x5 a5 h5
      refine Same.foldl _ _ _ ?_ ?_
      · intro x6 a6 h6
        refine Same.seq ?_ (setFlowRt_same ..) (by decide)
        assumption
      · assumption
    · assumption
  clear_value x4
  refine Same.seq ?_ (schedChanged_same ..) (by decide)
  refine Same.seq ?_ (put_same ..) (by decide)
  refine Same.seq ?_ (put_same ..) (by decide)
  refine Same.seq ?_ (put_same ..) (by decide)
  assumption

theorem dropSeg_same (s : State) (a1 : Nat) (a2 : Nat) (a3 : RedDesc) : Same 16777218 s (State.dropSeg s a1 a2 a3) := by
  unfold State.dropSeg
  extract_lets +onlyGivenNames -merge -useContext x1
  clear_value x1
  refine Same.seq ?_ (showRed_same ..) (by decide)
  refine Same.seq ?_ (setCluster_same ..) (by decide)
  exact Same.refl _ _

theorem startRevoke_same (s : State) (a1 : Nat) (a2 : RevWaiter) (t : State) (h : State.startRevoke s a1 a2 = some t) : Same 32768 s t := by
  unfold State.startRevoke at h
  extract_lets +onlyGivenNames -merge -useContext x1 at h
  clear_value x1
  extract_lets +onlyGivenNames -merge -useContext x2 at h
  clear_value x2
  extract_lets +onlyGivenNames -merge -useContext x3 at h
  clear_value x3
  split at h
  · rename_i v4
    cases h
  · rename_i v5
    extract_lets +onlyGivenNames -merge -useContext x6 at h
    clear_value x6
    extract_lets +onlyGivenNames -merge -useContext x7 at h
    clear_value x7
    split at h
    · rename_i v8
      split at h
      · rename_i v9
        cases h
      · rename_i v10
        injection h with h
        refine Same.of_eq h ?_
        constructor <;> intro hb <;> first | rfl | exact absurd hb (by decide)
    · rename_i v11
      split at h
      · rename_i v12
        injection h with h
        refine Same.of_eq h ?_
        constructor <;> intro hb <;> first | rfl | exact absurd hb (by decide)
      · rename_i v13
        cases h

theorem revocationDone_same (s : State) (a1 : Nat) : Same 60475300683834 s (State.revocationDone s a1) := by
  unfold State.revocationDone
  split
  · rename_i v1 v2
    exact Same.refl _ _
  · rename_i v3 v4 v5
    refine Same.ite ?_ ?_
    · extract_lets +onlyGivenNames -merge -useContext x6
      have h6 : Same 60475300683834 s x6 := by
        unfold x6
        refine Same.seq ?_ (setWin_same ..) (by decide)
        exact Same.refl _ _
      clear_value x6
      extract_lets +onlyGivenNames -merge -useContext x7
      clear_value x7
      extract_lets +onlyGivenNames -merge -useContext x8
      have h8 : Same 60475300683834 s x8 := by
        unfold x8
        refine Same.trans h6 ?_
        constructor <;> intro hb <;> first | rfl | exact absurd hb (by decide)
      clear_value x8
      refine Same.foldl _ _ _ ?_ ?_
      · intro x9 a9 h9
        refine Same.seq ?_ (tellRevoked_same ..) (by decide)
        assumption
      · assumption
    · exact Same.refl _ _

theorem revocationFenceEff_same (a0 : Nat) (s : State) : Same 32770 s (revocationFenceEff a0 s) := by
  unfold revocationFenceEff
  refine Same.ite ?_ ?_
  · extract_lets +onlyGivenNames -merge -useContext x1
    clear_value x1
    extract_lets +onlyGivenNames -merge -useContext x2
    have h2 : Same 32770 s x2 := by
      unfold x2
      refine Same.seq ?_ (setWin_same ..) (by decide)
      exact Same.refl _ _
    clear_value x2
    refine Same.trans h2 ?_
    constructor <;> intro hb <;> first | rfl | exact absurd hb (by decide)
  · exact Same.refl _ _

theorem revokeAll_same (s : State) (a1 : Window → Bool) : Same 60475300683834 s (State.revokeAll s a1) := by
  unfold State.revokeAll
  refine Same.foldl _ _ _ ?_ ?_
  · intro x1 a1 h1
    split
    · rename_i v2 v3 v4
      have h5 : Same 60475300683834 s v3 := by
        refine Same.seq ?_ (startRevoke_same (h := v4) ..) (by decide)
        assumption
      refine Same.seq ?_ (revocationDone_same ..) (by decide)
      refine Same.seq ?_ (revocationFenceEff_same ..) (by decide)
      assumption
    · rename_i v6 v7
      assumption
  · exact Same.refl _ _

theorem dropWork_same (s : State) (a1 : Nat → Bool) (a2 : Window → Bool) : Same 60475300701242 s (State.dropWork s a1 a2) := by
  unfold State.dropWork
  extract_lets +onlyGivenNames -merge -useContext x1
  have h1 : Same 60475300701242 s x1 := by
    unfold x1
    refine Same.foldl _ _ _ ?_ ?_
    · intro x2 a2 h2
      refine Same.seq ?_ (dropQueue_same ..) (by decide)
      assumption
    · exact Same.refl _ _
  clear_value x1
  extract_lets +onlyGivenNames -merge -useContext x3
  have h3 : Same 60475300701242 s x3 := by
    unfold x3
    refine Same.foldl _ _ _ ?_ ?_
    · intro x4 a4 h4
      refine Same.seq ?_ (dropQp_same ..) (by decide)
      assumption
    · assumption
  clear_value x3
  refine Same.seq ?_ (revokeAll_same ..) (by decide)
  assumption

theorem rxFlow_same (s : State) (a1 : Nat) (a2 : Frame) (a3 : Image) (a4 : FlowRec) (a5 : Bool) (a6 : Bool) (a7 : Bool) : Same 35184372092874 s (State.rxFlow s a1 a2 a3 a4 a5 a6 a7) := by
  unfold State.rxFlow
  split
  · rename_i v1 v2
    refine Same.ite ?_ ?_
    · refine Same.seq ?_ (count_same ..) (by decide)
      exact Same.refl _ _
    · refine Same.seq ?_ (badFrame_same ..) (by decide)
      exact Same.refl _ _
  · rename_i v3 v4 v5 v6
    refine Same.ite ?_ ?_
    · refine Same.seq ?_ (badFrame_same ..) (by decide)
      exact Same.refl _ _
    · refine Same.ite ?_ ?_
      · refine Same.seq ?_ (policeDrop_same ..) (by decide)
        exact Same.refl _ _
      · extract_lets +onlyGivenNames -merge -useContext x7
        have h7 : Same 35184372092874 s x7 := by
          unfold x7
          refine Same.ite ?_ ?_
          · refine Same.seq ?_ (takeTokens_same ..) (by decide)
            exact Same.refl _ _
          · exact Same.refl _ _
        clear_value x7
        extract_lets +onlyGivenNames -merge -useContext x8
        clear_value x8
        refine Same.ite ?_ ?_
        · refine Same.ite ?_ ?_
          · refine Same.seq ?_ (badFrame_same ..) (by decide)
            assumption
          · refine Same.ite ?_ ?_
            · refine Same.seq ?_ (count_same ..) (by decide)
              assumption
            · refine Same.ite ?_ ?_
              · refine Same.seq ?_ (count_same ..) (by decide)
                assumption
              · refine Same.seq ?_ (crossPath_same ..) (by decide)
                assumption
        · refine Same.ite ?_ ?_
          · refine Same.seq ?_ (count_same ..) (by decide)
            assumption
          · extract_lets +onlyGivenNames -merge -useContext x9
            have h9 : Same 35184372092874 s x9 := by
              unfold x9
              refine Same.seq ?_ (crossPath_same ..) (by decide)
              assumption
            clear_value x9
            refine Same.ite ?_ ?_
            · assumption
            · refine Same.seq ?_ (count_same ..) (by decide)
              assumption

theorem overflow_same (s : State) (a1 : Nat) (a2 : Nat) : Same 2 s (State.overflow s a1 a2) := by
  unfold State.overflow
  refine Same.ite ?_ ?_
  · exact Same.refl _ _
  · refine Same.seq ?_ (count_same ..) (by decide)
    exact Same.refl _ _

theorem rxRoute_same (s : State) (a1 : Nat) (a2 : Frame) (a3 : Route) (a4 : Bool) (a5 : Bool) : Same 35184372092874 s (State.rxRoute s a1 a2 a3 a4 a5) := by
  unfold State.rxRoute
  extract_lets +onlyGivenNames -merge -useContext x1
  clear_value x1
  split
  · rename_i v2 v3
    refine Same.ite ?_ ?_
    · refine Same.seq ?_ (count_same ..) (by decide)
      exact Same.refl _ _
    · refine Same.seq ?_ (badFrame_same ..) (by decide)
      exact Same.refl _ _
  · rename_i v4 v5 v6
    refine Same.ite ?_ ?_
    · refine Same.seq ?_ (follow_same ..) (by decide)
      exact Same.refl _ _
    · refine Same.ite ?_ ?_
      · refine Same.seq ?_ (count_same ..) (by decide)
        refine Same.seq ?_ (follow_same ..) (by decide)
        exact Same.refl _ _
      · refine Same.seq ?_ (badFrame_same ..) (by decide)
        exact Same.refl _ _
  · rename_i v7
    refine Same.ite ?_ ?_
    · refine Same.seq ?_ (badFrame_same ..) (by decide)
      exact Same.refl _ _
    · split
      · rename_i v8 v9
        refine Same.ite ?_ ?_
        · refine Same.seq ?_ (count_same ..) (by decide)
          exact Same.refl _ _
        · refine Same.seq ?_ (crossFree_same ..) (by decide)
          exact Same.refl _ _
      · rename_i v10 v11
        refine Same.ite ?_ ?_
        · refine Same.seq ?_ (count_same ..) (by decide)
          exact Same.refl _ _
        · exact Same.refl _ _
      · rename_i v12 v13
        refine Same.seq ?_ (count_same ..) (by decide)
        exact Same.refl _ _
      · rename_i v14 v15
        refine Same.seq ?_ (count_same ..) (by decide)
        exact Same.refl _ _

theorem elpFrame_same (s : State) (a1 : Nat) (a2 : Nat) (a3 : Nat) (a4 : List Byte) (a5 : Bool) : Same 35184372092874 s (State.elpFrame s a1 a2 a3 a4 a5) := by
  unfold State.elpFrame
  split
  · rename_i v1 v2
    refine Same.seq ?_ (badFrame_same ..) (by decide)
    exact Same.refl _ _
  · rename_i v3 v4 v5
    extract_lets +onlyGivenNames -merge -useContext x6
    clear_value x6
    extract_lets +onlyGivenNames -merge -useContext x7
    clear_value x7
    extract_lets +onlyGivenNames -merge -useContext x8
    have h8 : Same 35184372092874 s x8 := by
      unfold x8
      refine Same.seq ?_ (setPort_same ..) (by decide)
      exact Same.refl _ _
    clear_value x8
    extract_lets +onlyGivenNames -merge -useContext x9
    clear_value x9
    refine Same.ite ?_ ?_
    · split
      · rename_i v10 v11
        refine Same.ite ?_ ?_
        · refine Same.seq ?_ (count_same ..) (by decide)
          assumption
        · refine Same.seq ?_ (badFrame_same ..) (by decide)
          assumption
      · rename_i v12 v13 v14 v15
        refine Same.seq ?_ (rxFlow_same ..) (by decide)
        assumption
    · refine Same.ite ?_ ?_
      · refine Same.seq ?_ (overflow_same ..) (by decide)
        assumption
      · refine Same.ite ?_ ?_
        · refine Same.seq ?_ (rxRoute_same ..) (by decide)
          assumption
        · refine Same.ite ?_ ?_
          · refine Same.ite ?_ ?_
            · refine Same.seq ?_ (count_same ..) (by decide)
              assumption
            · refine Same.seq ?_ (badFrame_same ..) (by decide)
              assumption
          · split
            · rename_i v16 v17
              refine Same.ite ?_ ?_
              · refine Same.seq ?_ (count_same ..) (by decide)
                assumption
              · refine Same.seq ?_ (badFrame_same ..) (by decide)
                assumption
            · rename_i v18 v19 v20 v21
              refine Same.seq ?_ (rxFlow_same ..) (by decide)
              assumption

theorem emits_same (s : State) (a1 : List Output) : Same 35184372088832 s (State.emits s a1) := by
  unfold State.emits
  constructor <;> intro hb <;> first | rfl | exact absurd hb (by decide)

theorem showInsts_same (s : State) (a1 : Nat) : Same 2 s (State.showInsts s a1) := by
  unfold State.showInsts
  refine Same.seq ?_ (put_same ..) (by decide)
  exact Same.refl _ _

theorem endInsts_same (s : State) : Same 35184908959794 s (State.endInsts s) := by
  unfold State.endInsts
  extract_lets +onlyGivenNames -merge -useContext x1
  clear_value x1
  extract_lets +onlyGivenNames -merge -useContext x2
  clear_value x2
  extract_lets +onlyGivenNames -merge -useContext x3
  have h3 : Same 35184908959794 s x3 := by
    unfold x3
    constructor <;> intro hb <;> first | rfl | exact absurd hb (by decide)
  clear_value x3
  refine Same.foldl _ _ _ ?_ ?_
  · intro x4 a4 h4
    extract_lets +onlyGivenNames -merge -useContext x5
    have h5 : Same 35184908959794 s x5 := by
      unfold x5
      refine Same.ite ?_ ?_
      · refine Same.seq ?_ (showInsts_same ..) (by decide)
        refine Same.seq ?_ (resetReg_same ..) (by decide)
        assumption
      · assumption
    clear_value x5
    refine Same.seq ?_ (partCmdEnd_same ..) (by decide)
    assumption
  · assumption

theorem endUnstarted_same (s : State) (a1 : Nat) (a2 : Queue) (a3 : Nat) (a4 : List Byte) (a5 : Nat) : Same 60475300651066 s (State.endUnstarted s a1 a2 a3 a4 a5) := by
  unfold State.endUnstarted
  extract_lets +onlyGivenNames -merge -useContext x1
  have h1 : Same 60475300651066 s x1 := by
    unfold x1
    refine Same.seq ?_ (takeEntry_same ..) (by decide)
    exact Same.refl _ _
  clear_value x1
  refine Same.seq ?_ (endEntry_same ..) (by decide)
  assumption

theorem energyShown_same (s : State) (a1 : Nat) (a2 : List Nat) : Same 2 s (State.energyShown s a1 a2) := by
  unfold State.energyShown
  extract_lets +onlyGivenNames -merge -useContext x1
  have h1 : Same 2 s x1 := by
    unfold x1
    refine Same.foldl _ _ _ ?_ ?_
    · intro x2 a2 h2
      refine Same.seq ?_ (domainEnergy_same ..) (by decide)
      assumption
    · exact Same.refl _ _
  clear_value x1
  extract_lets +onlyGivenNames -merge -useContext x3
  clear_value x3
  refine Same.seq ?_ (put_same ..) (by decide)
  refine Same.seq ?_ (put_same ..) (by decide)
  refine Same.seq ?_ (put_same ..) (by decide)
  assumption

theorem faultCore_same (s : State) (a1 : Nat) (a2 : Nat) : Same 60750178558010 s (State.faultCore s a1 a2) := by
  unfold State.faultCore
  extract_lets +onlyGivenNames -merge -useContext x1
  clear_value x1
  extract_lets +onlyGivenNames -merge -useContext x2
  have h2 : Same 60750178558010 s x2 := by
    unfold x2
    refine Same.seq ?_ (setCoreSt_same ..) (by decide)
    refine Same.seq ?_ (modCore_same ..) (by decide)
    exact Same.refl _ _
  clear_value x2
  refine Same.seq ?_ (partEvent_same ..) (by decide)
  refine Same.seq ?_ (dropEvents_same ..) (by decide)
  refine Same.seq ?_ (closeEvent_same ..) (by decide)
  assumption

theorem raise_same (s : State) (a1 : Nat) (a2 : Nat) (a3 : Nat) : Same 60750178558010 s (State.raise s a1 a2 a3) := by
  unfold State.raise
  extract_lets +onlyGivenNames -merge -useContext x1
  clear_value x1
  extract_lets +onlyGivenNames -merge -useContext x2
  have h2 : Same 60750178558010 s x2 := by
    unfold x2
    refine Same.seq ?_ (put_same ..) (by decide)
    exact Same.refl _ _
  clear_value x2
  extract_lets +onlyGivenNames -merge -useContext x3
  have h3 : Same 60750178558010 s x3 := by
    unfold x3
    refine Same.seq ?_ (put_same ..) (by decide)
    assumption
  clear_value x3
  extract_lets +onlyGivenNames -merge -useContext x4
  have h4 : Same 60750178558010 s x4 := by
    unfold x4
    refine Same.seq ?_ (count_same ..) (by decide)
    assumption
  clear_value x4
  extract_lets +onlyGivenNames -merge -useContext x5
  clear_value x5
  refine Same.ite ?_ ?_
  · refine Same.seq ?_ (setCore_same ..) (by decide)
    assumption
  · refine Same.seq ?_ (faultCore_same ..) (by decide)
    refine Same.seq ?_ (setCore_same ..) (by decide)
    assumption

theorem enterLoop_same (s : State) (a1 : Nat) (a2 : Nat) (a3 : Nat) : Same 60750178558010 s (State.enterLoop s a1 a2 a3) := by
  unfold State.enterLoop
  extract_lets +onlyGivenNames -merge -useContext x1
  clear_value x1
  refine Same.ite ?_ ?_
  · refine Same.seq ?_ (raise_same ..) (by decide)
    exact Same.refl _ _
  · refine Same.seq ?_ (setCore_same ..) (by decide)
    exact Same.refl _ _

theorem preemptOff_same (s : State) (a1 : Nat) : Same 130 s (State.preemptOff s a1) := by
  unfold State.preemptOff
  refine Same.seq ?_ (put_same ..) (by decide)
  refine Same.seq ?_ (setPort_same ..) (by decide)
  exact Same.refl _ _

theorem ethDown_same (s : State) (a1 : Nat) : Same 130 s (State.ethDown s a1) := by
  unfold State.ethDown
  refine Same.seq ?_ (preemptOff_same ..) (by decide)
  refine Same.seq ?_ (setPort_same ..) (by decide)
  refine Same.seq ?_ (put_same ..) (by decide)
  refine Same.seq ?_ (put_same ..) (by decide)
  exact Same.refl _ _

theorem ethTransit_same (s : State) (a1 : Nat) (a2 : Frame) (a3 : Bool) (a4 : Bool) : Same 105553116270538 s (State.ethTransit s a1 a2 a3 a4) := by
  unfold State.ethTransit
  extract_lets +onlyGivenNames -merge -useContext x1
  clear_value x1
  split
  · rename_i v2 v3
    refine Same.ite ?_ ?_
    · refine Same.seq ?_ (count_same ..) (by decide)
      exact Same.refl _ _
    · refine Same.seq ?_ (count_same ..) (by decide)
      exact Same.refl _ _
  · rename_i v4 v5 v6
    refine Same.ite ?_ ?_
    · extract_lets +onlyGivenNames -merge -useContext x7
      clear_value x7
      extract_lets +onlyGivenNames -merge -useContext x8
      clear_value x8
      refine Same.seq ?_ (rxRoute_same ..) (by decide)
      refine Same.seq ?_ (fresh_same ..) (by decide)
      exact Same.refl _ _
    · extract_lets +onlyGivenNames -merge -useContext x9
      clear_value x9
      extract_lets +onlyGivenNames -merge -useContext x10
      clear_value x10
      refine Same.seq ?_ (rxRoute_same ..) (by decide)
      exact Same.refl _ _

theorem preempting_same (s : State) (a1 : Nat) (a2 : List Nat) : Same 130 s (State.preempting s a1 a2) := by
  unfold State.preempting
  extract_lets +onlyGivenNames -merge -useContext x1
  clear_value x1
  extract_lets +onlyGivenNames -merge -useContext x2
  have h2 : Same 130 s x2 := by
    unfold x2
    refine Same.seq ?_ (setPort_same ..) (by decide)
    exact Same.refl _ _
  clear_value x2
  refine Same.seq ?_ (put_same ..) (by decide)
  assumption

theorem ethUp_same (s : State) (a1 : Nat) (a2 : Nat) : Same 130 s (State.ethUp s a1 a2) := by
  unfold State.ethUp
  extract_lets +onlyGivenNames -merge -useContext x1
  clear_value x1
  refine Same.ite ?_ ?_
  · exact Same.refl _ _
  · extract_lets +onlyGivenNames -merge -useContext x2
    clear_value x2
    extract_lets +onlyGivenNames -merge -useContext x3
    have h3 : Same 130 s x3 := by
      unfold x3
      refine Same.seq ?_ (setPort_same ..) (by decide)
      exact Same.refl _ _
    clear_value x3
    extract_lets +onlyGivenNames -merge -useContext x4
    clear_value x4
    extract_lets +onlyGivenNames -merge -useContext x5
    have h5 : Same 130 s x5 := by
      unfold x5
      refine Same.seq ?_ (put_same ..) (by decide)
      refine Same.seq ?_ (put_same ..) (by decide)
      assumption
    clear_value x5
    refine Same.ite ?_ ?_
    · refine Same.seq ?_ (preempting_same ..) (by decide)
      assumption
    · assumption

theorem resetPartition_body : State.resetPartition = fun (s : State) (p : Nat) =>
  let s := s.dropSchedule p
  let s := s.dropFaults p
  let s := (s.dropBars p).dropColls (fun c => cidPart c == p)
  let s := s.dropWork (fun c => cidPart c == p) (fun w => cidPart w.cid == p)
  let s := (s.coresOf p).foldl (fun s c => if s.coreSt c = 0 ∨ s.coreSt c = 5 then s else (s.modCore c (fun k => { k with cur := none })).emptyCore c) s
  let s := ((s.dropReductions p).clearTrigs p).closeB4 p
  let s := (s.instsOf p).foldl (fun s i => s.resetReg (Reg.PART_INST.off i)) s
  let s := { s with parts := { s.parts with insts := s.parts.insts.filter (fun c => c.part != p), freezes := s.parts.freezes.filter (fun f => f.part != p) } }
  ((s.showInsts p).putDigest (Reg.SEC_PMR.off p 0) (List.replicate 32 0)).flushKeyCmds := rfl

theorem resetPartition_same (s : State) (a1 : Nat) : Same 131206754070522 s (State.resetPartition s a1) := by
  rw [resetPartition_body]
  beta_reduce
  extract_lets +onlyGivenNames -merge -useContext x1
  have h1 : Same 131206754070522 s x1 := by
    unfold x1
    refine Same.seq ?_ (dropSchedule_same ..) (by decide)
    exact Same.refl _ _
  clear_value x1
  extract_lets +onlyGivenNames -merge -useContext x2
  have h2 : Same 131206754070522 s x2 := by
    unfold x2
    refine Same.seq ?_ (dropFaults_same ..) (by decide)
    assumption
  clear_value x2
  extract_lets +onlyGivenNames -merge -useContext x3
  have h3 : Same 131206754070522 s x3 := by
    unfold x3
    refine Same.seq ?_ (dropColls_same ..) (by decide)
    refine Same.seq ?_ (dropBars_same ..) (by decide)
    assumption
  clear_value x3
  extract_lets +onlyGivenNames -merge -useContext x4
  have h4 : Same 131206754070522 s x4 := by
    unfold x4
    refine Same.seq ?_ (dropWork_same ..) (by decide)
    assumption
  clear_value x4
  extract_lets +onlyGivenNames -merge -useContext x5
  have h5 : Same 131206754070522 s x5 := by
    unfold x5
    refine Same.foldl _ _ _ ?_ ?_
    · intro x6 a6 h6
      refine Same.ite ?_ ?_
      · assumption
      · refine Same.seq ?_ (emptyCore_same ..) (by decide)
        refine Same.seq ?_ (modCore_same ..) (by decide)
        assumption
    · assumption
  clear_value x5
  extract_lets +onlyGivenNames -merge -useContext x7
  have h7 : Same 131206754070522 s x7 := by
    unfold x7
    refine Same.seq ?_ (closeB4_same ..) (by decide)
    refine Same.seq ?_ (clearTrigs_same ..) (by decide)
    refine Same.seq ?_ (dropReductions_same ..) (by decide)
    assumption
  clear_value x7
  extract_lets +onlyGivenNames -merge -useContext x8
  have h8 : Same 131206754070522 s x8 := by
    unfold x8
    refine Same.foldl _ _ _ ?_ ?_
    · intro x9 a9 h9
      refine Same.seq ?_ (resetReg_same ..) (by decide)
      assumption
    · assumption
  clear_value x8
  extract_lets +onlyGivenNames -merge -useContext x10
  clear_value x10
  extract_lets +onlyGivenNames -merge -useContext x11
  have h11 : Same 131206754070522 s x11 := by
    unfold x11
    obtain ⟨y12, h12, rfl⟩ : ∃ y, Same 131206754070522 s y ∧ y = x8 := ⟨_, h8, rfl⟩
    refine Same.trans h12 ?_
    constructor <;> intro hb <;> first | rfl | exact absurd hb (by decide)
  clear_value x11
  refine Same.seq ?_ (flushKeyCmds_same ..) (by decide)
  refine Same.seq ?_ (putDigest_same ..) (by decide)
  refine Same.seq ?_ (showInsts_same ..) (by decide)
  assumption

theorem startReset_body : State.startReset = fun (s : State) (p : Nat) (frees : Bool) =>
  let s := (s.parts.insts.filter (fun c => c.part == p)).foldl (fun s c => s.put (Reg.PART_CMD_STS.BUSY c.host) 0) s
  let s := (s.parts.freezes.filter (fun f => f.part == p)).foldl (fun s f => s.put (Reg.PART_CMD_STS.BUSY f.host) 0) s
  let s := (s.resetPartition p).put (Reg.PART_STS.BUSY p) 1
  { s with parts := { s.parts with resets := s.parts.resets ++ [{ part := p, frees := frees }] } } := rfl

theorem startReset_same (s : State) (a1 : Nat) (a2 : Bool) : Same 131206754070522 s (State.startReset s a1 a2) := by
  rw [startReset_body]
  beta_reduce
  extract_lets +onlyGivenNames -merge -useContext x1
  have h1 : Same 131206754070522 s x1 := by
    unfold x1
    refine Same.foldl _ _ _ ?_ ?_
    · intro x2 a2 h2
      refine Same.seq ?_ (put_same ..) (by decide)
      assumption
    · exact Same.refl _ _
  clear_value x1
  extract_lets +onlyGivenNames -merge -useContext x3
  have h3 : Same 131206754070522 s x3 := by
    unfold x3
    refine Same.foldl _ _ _ ?_ ?_
    · intro x4 a4 h4
      refine Same.seq ?_ (put_same ..) (by decide)
      assumption
    · assumption
  clear_value x3
  extract_lets +onlyGivenNames -merge -useContext x5
  have h5 : Same 131206754070522 s x5 := by
    unfold x5
    refine Same.seq ?_ (put_same ..) (by decide)
    refine Same.seq ?_ (resetPartition_same ..) (by decide)
    assumption
  clear_value x5
  obtain ⟨y6, h6, rfl⟩ : ∃ y, Same 131206754070522 s y ∧ y = x5 := ⟨_, h5, rfl⟩
  refine Same.trans h6 ?_
  constructor <;> intro hb <;> first | rfl | exact absurd hb (by decide)

theorem evictAll_same (s : State) (a1 : Nat) : Same 131206754070522 s (State.evictAll s a1) := by
  unfold State.evictAll
  extract_lets +onlyGivenNames -merge -useContext x1
  clear_value x1
  extract_lets +onlyGivenNames -merge -useContext x2
  have h2 : Same 131206754070522 s x2 := by
    unfold x2
    refine Same.foldl _ _ _ ?_ ?_
    · intro x3 a3 h3
      refine Same.seq ?_ (partEvent_same ..) (by decide)
      refine Same.ite ?_ ?_
      · assumption
      · refine Same.seq ?_ (startReset_same ..) (by decide)
        assumption
    · exact Same.refl _ _
  clear_value x2
  extract_lets +onlyGivenNames -merge -useContext x4
  have h4 : Same 131206754070522 s x4 := by
    unfold x4
    refine Same.seq ?_ (put_same ..) (by decide)
    assumption
  clear_value x4
  refine Same.trans h4 ?_
  constructor <;> intro hb <;> first | rfl | exact absurd hb (by decide) | (dsimp only; split <;> rfl) | (simp only [h2.ftNs hb, h4.ftNs hb]; done) | exact (h2.ftNs hb).symm | exact (h4.ftNs hb).symm | (simp only [h2.ftFrac hb, h4.ftFrac hb]; done) | exact (h2.ftFrac hb).symm | exact (h4.ftFrac hb).symm | (simp only [h2.fuses hb, h4.fuses hb]; done) | exact (h2.fuses hb).symm | exact (h4.fuses hb).symm

theorem exec1_same (s : State) (a1 : Nat) (a2 : Core → Core) : Same 8388608 s (State.exec1 s a1 a2) := by
  unfold State.exec1
  refine Same.seq ?_ (modCore_same ..) (by decide)
  exact Same.refl _ _

theorem execG_same (s : State) (a1 : Nat) (a2 : Nat) (a3 : Core → BitVec 64) : Same 8388608 s (State.execG s a1 a2 a3) := by
  unfold State.execG
  refine Same.seq ?_ (exec1_same ..) (by decide)
  exact Same.refl _ _

theorem execGG_same (s : State) (a1 : Nat) (a2 : Nat) (a3 : BitVec 64 → BitVec 64 → BitVec 64) : Same 8388608 s (State.execGG s a1 a2 a3) := by
  unfold State.execGG
  refine Same.seq ?_ (execG_same ..) (by decide)
  exact Same.refl _ _

theorem extendPmr_same (s : State) (a1 : Nat) (a2 : List Byte) : Same 2 s (State.extendPmr s a1 a2) := by
  unfold State.extendPmr
  refine Same.seq ?_ (extend_same ..) (by decide)
  exact Same.refl _ _

theorem failByPeer_same (s : State) (a1 : Nat) (a2 : Nat) (a3 : Nat) : Same 130912764322874 s (State.failByPeer s a1 a2 a3) := by
  unfold State.failByPeer
  split
  · rename_i v1 v2
    exact Same.refl _ _
  · rename_i v3 v4 v5
    split
    · rename_i v6 v7 v8
      refine Same.seq ?_ (failReq_same ..) (by decide)
      exact Same.refl _ _
    · rename_i v9 v10
      refine Same.seq ?_ (qpError_same ..) (by decide)
      exact Same.refl _ _

theorem failWaiter_same (s : State) (a1 : FaultWaiter) : Same 131187642688570 s (State.failWaiter s a1) := by
  unfold State.failWaiter
  split
  · rename_i v1 v2
    split
    · rename_i v3 v4 v5
      refine Same.seq ?_ (tileFailed_same ..) (by decide)
      refine Same.seq ?_ (dropTiles_same ..) (by decide)
      exact Same.refl _ _
    · rename_i v6 v7
      exact Same.refl _ _
  · rename_i v8 v9 v10
    refine Same.seq ?_ (failParked_same ..) (by decide)
    exact Same.refl _ _
  · rename_i v11 v12 v13 v14
    refine Same.seq ?_ (xferSettle_same ..) (by decide)
    refine Same.seq ?_ (modXfer_same ..) (by decide)
    exact Same.refl _ _
  · rename_i v15 v16
    split
    · rename_i v17 v18
      exact Same.refl _ _
    · rename_i v19 v20 v21
      extract_lets +onlyGivenNames -merge -useContext x22
      have h22 : Same 131187642688570 s x22 := by
        unfold x22
        refine Same.seq ?_ (setQp_same ..) (by decide)
        exact Same.refl _ _
      clear_value x22
      split
      · rename_i v23 v24 v25
        refine Same.seq ?_ (endRecv_same ..) (by decide)
        assumption
      · rename_i v26 v27
        assumption

theorem failFault_same (s : State) (a1 : HostId) (a2 : FaultEntry) : Same 131187642688570 s (State.failFault s a1 a2) := by
  unfold State.failFault
  refine Same.seq ?_ (parkHeld_same ..) (by decide)
  refine Same.foldl _ _ _ ?_ ?_
  · intro x1 a1 h1
    refine Same.seq ?_ (failWaiter_same ..) (by decide)
    assumption
  · refine Same.seq ?_ (setSheep_same ..) (by decide)
    exact Same.refl _ _

theorem failHead_same (s : State) (a1 : Nat) (a2 : Queue) (a3 : Nat) (a4 : List Byte) (a5 : Nat) (a6 : Option QpCtx) : Same 130912764322874 s (State.failHead s a1 a2 a3 a4 a5 a6) := by
  unfold State.failHead
  extract_lets +onlyGivenNames -merge -useContext x1
  have h1 : Same 130912764322874 s x1 := by
    unfold x1
    refine Same.seq ?_ (endUnstarted_same ..) (by decide)
    exact Same.refl _ _
  clear_value x1
  split
  · rename_i v2 v3
    refine Same.ite ?_ ?_
    · refine Same.seq ?_ (qpError_same ..) (by decide)
      assumption
    · assumption
  · rename_i v4
    assumption

theorem failOldest_same (s : State) (a1 : Nat) (a2 : Nat) : Same 130912764322874 s (State.failOldest s a1 a2) := by
  unfold State.failOldest
  split
  · rename_i v1 v2
    exact Same.refl _ _
  · rename_i v3 v4 v5
    split
    · rename_i v6 v7 v8
      refine Same.seq ?_ (failEntry_same ..) (by decide)
      exact Same.refl _ _
    · rename_i v9 v10
      refine Same.seq ?_ (qpError_same ..) (by decide)
      exact Same.refl _ _

theorem fetchDone_same (s : State) (a1 : Nat) : Same 60475300668474 s (State.fetchDone s a1) := by
  unfold State.fetchDone
  refine Same.ite ?_ ?_
  · exact Same.refl _ _
  · extract_lets +onlyGivenNames -merge -useContext x1
    clear_value x1
    extract_lets +onlyGivenNames -merge -useContext x2
    have h2 : Same 60475300668474 s x2 := by
      unfold x2
      constructor <;> intro hb <;> first | rfl | exact absurd hb (by decide)
    clear_value x2
    extract_lets +onlyGivenNames -merge -useContext x3
    clear_value x3
    extract_lets +onlyGivenNames -merge -useContext x4
    have h4 : Same 60475300668474 s x4 := by
      unfold x4
      split
      · rename_i v5 v6 v7
        refine Same.trans h2 ?_
        constructor <;> intro hb <;> first | rfl | exact absurd hb (by decide)
      · rename_i v8 v9
        assumption
    clear_value x4
    refine Same.seq ?_ (fetchIn_same ..) (by decide)
    assumption

end Sys2Proof.Machine.Laws
end

