-- ==== Sys2Proof/Laws/Frames3.lean ====
section
/-! SUPPORT. What each operation and each command can change: one frame per definition of the machine, part 3 of 5. -/

set_option linter.unusedTactic false
set_option linter.unreachableTactic false
set_option linter.unusedSimpArgs false

namespace Sys2Proof.Machine.Laws

theorem fetchSlot_same (s : State) (a1 : Nat) : Same 41781446049850 s (State.fetchSlot s a1) := by
  unfold State.fetchSlot
  split
  · rename_i v1 v2
    exact Same.refl _ _
  · rename_i v3 v4 v5
    refine Same.ite ?_ ?_
    · exact Same.refl _ _
    · extract_lets +onlyGivenNames -merge -useContext x6
      clear_value x6
      refine Same.ite ?_ ?_
      · refine Same.seq ?_ (setQueue_same ..) (by decide)
        exact Same.refl _ _
      · split
        · rename_i v7 v8 v9 v10
          have h11 : Same 41781446049850 s v8 := by
            refine Same.of_fst v10 ?_
            refine Same.seq ?_ (memReadC_same ..) (by decide)
            exact Same.refl _ _
          refine Same.seq ?_ (setQueue_same ..) (by decide)
          assumption
        · rename_i v12 v13 v14
          have h15 : Same 41781446049850 s v13 := by
            refine Same.of_fst v14 ?_
            refine Same.seq ?_ (memReadC_same ..) (by decide)
            exact Same.refl _ _
          assumption
        · rename_i v16 v17 v18 v19 v20
          have h21 : Same 41781446049850 s v17 := by
            refine Same.of_fst v20 ?_
            refine Same.seq ?_ (memReadC_same ..) (by decide)
            exact Same.refl _ _
          refine Same.seq ?_ (setQueue_same ..) (by decide)
          assumption

theorem flowDone_same (s : State) (a1 : Nat) (a2 : BitVec 64) : Same 41781441855610 s (State.flowDone s a1 a2) := by
  unfold State.flowDone
  refine Same.ite ?_ ?_
  · exact Same.refl _ _
  · extract_lets +onlyGivenNames -merge -useContext x1
    clear_value x1
    extract_lets +onlyGivenNames -merge -useContext x2
    clear_value x2
    refine Same.seq ?_ (checkBound_same ..) (by decide)
    refine Same.seq ?_ (setFlowRt_same ..) (by decide)
    exact Same.refl _ _

theorem showReady_same (s : State) (a1 : HostId) : Same 48 s (State.showReady s a1) := by
  unfold State.showReady
  refine Same.seq ?_ (setHost_same ..) (by decide)
  exact Same.refl _ _

theorem flr_same (s : State) (a1 : HostId) : Same 131206754070522 s (State.flr s a1) := by
  unfold State.flr
  extract_lets +onlyGivenNames -merge -useContext x1
  have h1 : Same 131206754070522 s x1 := by
    unfold x1
    refine Same.foldl _ _ _ ?_ ?_
    · intro x2 a2 h2
      refine Same.seq ?_ (startReset_same ..) (by decide)
      assumption
    · exact Same.refl _ _
  clear_value x1
  extract_lets +onlyGivenNames -merge -useContext x3
  have h3 : Same 131206754070522 s x3 := by
    unfold x3
    refine Same.seq ?_ (resetRegs_same ..) (by decide)
    assumption
  clear_value x3
  refine Same.seq ?_ (setSheep_same ..) (by decide)
  refine Same.seq ?_ (showReady_same ..) (by decide)
  refine Same.seq ?_ (setHost_same ..) (by decide)
  assumption

theorem fragPresent_same (s : State) (a1 : FaultEntry) : Same 41781441855546 s (State.fragPresent s a1).1 := by
  unfold State.fragPresent
  split
  · rename_i v1 v2 v3 v4
    have h5 : Same 41781441855546 s v2 := by
      refine Same.of_fst v4 ?_
      refine Same.seq ?_ (memReadC_same ..) (by decide)
      exact Same.refl _ _
    dsimp only
    assumption
  · rename_i v6 v7 v8 v9
    have h10 : Same 41781441855546 s v7 := by
      refine Same.of_fst v9 ?_
      refine Same.seq ?_ (memReadC_same ..) (by decide)
      exact Same.refl _ _
    dsimp only
    assumption

theorem showHolders_same (s : State) (a1 : Nat) : Same 2 s (State.showHolders s a1) := by
  unfold State.showHolders
  refine Same.foldl _ _ _ ?_ ?_
  · intro x1 a1 h1
    refine Same.seq ?_ (put_same ..) (by decide)
    assumption
  · exact Same.refl _ _

theorem freePartition_same (s : State) (a1 : Nat) : Same 268435458 s (State.freePartition s a1) := by
  unfold State.freePartition
  extract_lets +onlyGivenNames -merge -useContext x1
  have h1 : Same 268435458 s x1 := by
    unfold x1
    refine Same.seq ?_ (eraseKeys_same ..) (by decide)
    exact Same.refl _ _
  clear_value x1
  extract_lets +onlyGivenNames -merge -useContext x2
  have h2 : Same 268435458 s x2 := by
    unfold x2
    refine Same.foldl _ _ _ ?_ ?_
    · intro x3 a3 h3
      refine Same.seq ?_ (put_same ..) (by decide)
      refine Same.seq ?_ (put_same ..) (by decide)
      assumption
    · assumption
  clear_value x2
  extract_lets +onlyGivenNames -merge -useContext x4
  clear_value x4
  extract_lets +onlyGivenNames -merge -useContext x5
  have h5 : Same 268435458 s x5 := by
    unfold x5
    refine Same.seq ?_ (resetRegs_same ..) (by decide)
    assumption
  clear_value x5
  refine Same.foldl _ _ _ ?_ ?_
  · intro x6 a6 h6
    refine Same.seq ?_ (showHolders_same ..) (by decide)
    assumption
  · assumption

theorem notListed_same (s : State) (a1 : HostId) (a2 : Nat) : Same 2 s (State.notListed s a1 a2) := by
  unfold State.notListed
  refine Same.ite ?_ ?_
  · refine Same.seq ?_ (put_same ..) (by decide)
    exact Same.refl _ _
  · exact Same.refl _ _

theorem freezeQp_same (s : State) (a1 : Nat) (a2 : Option Nat) (a3 : Nat) : Same 130912764322874 s (State.freezeQp s a1 a2 a3) := by
  unfold State.freezeQp
  extract_lets +onlyGivenNames -merge -useContext x1
  have h1 : Same 130912764322874 s x1 := by
    unfold x1
    refine Same.seq ?_ (need_same ..) (by decide)
    exact Same.refl _ _
  clear_value x1
  split
  · rename_i v2 v3 v4
    refine Same.ite ?_ ?_
    · refine Same.seq ?_ (setQp_same ..) (by decide)
      assumption
    · assumption
  · rename_i v5 v6
    assumption

theorem freezeQps_same (s : State) (a1 : Nat) (a2 : Option Nat) : Same 130912764322874 s (State.freezeQps s a1 a2) := by
  unfold State.freezeQps
  refine Same.foldl _ _ _ ?_ ?_
  · intro x1 a1 h1
    refine Same.seq ?_ (freezeQp_same ..) (by decide)
    assumption
  · exact Same.refl _ _

theorem freezeQueues_same (s : State) (a1 : Nat) (a2 : Option Nat) : Same 4194304 s (State.freezeQueues s a1 a2) := by
  unfold State.freezeQueues
  constructor <;> intro hb <;> first | rfl | exact absurd hb (by decide)

theorem freeze_same (s : State) (a1 : HostId) (a2 : Nat) (a3 : Option Nat) : Same 130913301193786 s (State.freeze s a1 a2 a3) := by
  unfold State.freeze
  extract_lets +onlyGivenNames -merge -useContext x1
  have h1 : Same 130913301193786 s x1 := by
    unfold x1
    refine Same.ite ?_ ?_
    · refine Same.seq ?_ (notListed_same ..) (by decide)
      exact Same.refl _ _
    · exact Same.refl _ _
  clear_value x1
  split
  · rename_i v2 v3 v4
    refine Same.seq ?_ (partCmdEnd_same ..) (by decide)
    assumption
  · rename_i v5 v6
    refine Same.ite ?_ ?_
    · refine Same.seq ?_ (partCmdEnd_same ..) (by decide)
      assumption
    · extract_lets +onlyGivenNames -merge -useContext x7
      have h7 : Same 130913301193786 s x7 := by
        unfold x7
        refine Same.seq ?_ (put_same ..) (by decide)
        refine Same.seq ?_ (freezeQps_same ..) (by decide)
        refine Same.seq ?_ (freezeQueues_same ..) (by decide)
        assumption
      clear_value x7
      refine Same.trans h7 ?_
      constructor <;> intro hb <;> first | rfl | exact absurd hb (by decide)

theorem setGated_same (s : State) (a1 : Nat) (a2 : Bool) : Same 2 s (State.setGated s a1 a2) := by
  unfold State.setGated
  refine Same.seq ?_ (settlePower_same ..) (by decide)
  refine Same.ite ?_ ?_
  · refine Same.seq ?_ (put_same ..) (by decide)
    exact Same.refl _ _
  · refine Same.seq ?_ (put_same ..) (by decide)
    exact Same.refl _ _

theorem gateClusters_same (s : State) : Same 2 s (State.gateClusters s) := by
  unfold State.gateClusters
  refine Same.foldl _ _ _ ?_ ?_
  · intro x1 a1 h1
    refine Same.seq ?_ (count_same ..) (by decide)
    refine Same.seq ?_ (setGated_same ..) (by decide)
    assumption
  · exact Same.refl _ _

theorem goBack_same (s : State) (a1 : Nat) : Same 130912764522490 s (State.goBack s a1) := by
  unfold State.goBack
  split
  · rename_i v1 v2
    exact Same.refl _ _
  · rename_i v3 v4 v5
    refine Same.ite ?_ ?_
    · exact Same.refl _ _
    · refine Same.ite ?_ ?_
      · refine Same.seq ?_ (failOldest_same ..) (by decide)
        exact Same.refl _ _
      · refine Same.seq ?_ (resend_same ..) (by decide)
        refine Same.seq ?_ (modCtx_same ..) (by decide)
        exact Same.refl _ _

theorem holdTo_same (s : State) (a1 : Nat) : Same 2 s (State.holdTo s a1) := by
  unfold State.holdTo
  refine Same.ite ?_ ?_
  · refine Same.seq ?_ (put_same ..) (by decide)
    exact Same.refl _ _
  · exact Same.refl _ _

theorem sendPending_same (s : State) (a1 : HostId) : Same 35184372088880 s (State.sendPending s a1) := by
  unfold State.sendPending
  extract_lets +onlyGivenNames -merge -useContext x1
  clear_value x1
  extract_lets +onlyGivenNames -merge -useContext x2
  clear_value x2
  extract_lets +onlyGivenNames -merge -useContext x3
  have h3 : Same 35184372088880 s x3 := by
    unfold x3
    refine Same.seq ?_ (setHost_same ..) (by decide)
    exact Same.refl _ _
  clear_value x3
  refine Same.foldl _ _ _ ?_ ?_
  · intro x4 a4 h4
    refine Same.seq ?_ (vector_same ..) (by decide)
    assumption
  · assumption

theorem modTile_same (s : State) (a1 : Nat) (a2 : Tile → Tile) : Same 262144 s (State.modTile s a1 a2) := by
  unfold State.modTile
  constructor <;> intro hb <;> first | rfl | exact absurd hb (by decide)

theorem tileGone_same (s : State) (a1 : Tile) : Same 60750178558010 s (State.tileGone s a1) := by
  unfold State.tileGone
  split
  · rename_i v1 v2 v3 v4 v5
    refine Same.seq ?_ (xferSettle_same ..) (by decide)
    exact Same.refl _ _
  · rename_i v6 v7
    split
    · rename_i v8 v9 v10
      refine Same.seq ?_ (flushQueue_same ..) (by decide)
      exact Same.refl _ _
    · rename_i v11 v12
      exact Same.refl _ _

theorem writeTile_same (s : State) (a1 : Tile) : Same 131187642688570 s (State.writeTile s a1) := by
  unfold State.writeTile
  split
  · rename_i v1 v2 v3 v4
    have h5 : Same 131187642688570 s v2 := by
      refine Same.of_fst v4 ?_
      refine Same.seq ?_ (bufWriteParts_same ..) (by decide)
      exact Same.refl _ _
    split
    · rename_i v6 v7 v8 v9
      have h10 : Same 131187642688570 s v7 := by
        refine Same.of_fst v9 ?_
        refine Same.seq ?_ (tileFaults_same ..) (by decide)
        assumption
      refine Same.seq ?_ (modTile_same ..) (by decide)
      assumption
  · rename_i v11 v12 v13
    have h14 : Same 131187642688570 s v12 := by
      refine Same.of_fst v13 ?_
      refine Same.seq ?_ (bufWriteParts_same ..) (by decide)
      exact Same.refl _ _
    assumption
  · rename_i v15 v16 v17 v18 v19
    have h20 : Same 131187642688570 s v16 := by
      refine Same.of_fst v19 ?_
      refine Same.seq ?_ (bufWriteParts_same ..) (by decide)
      exact Same.refl _ _
    refine Same.seq ?_ (tileFailed_same ..) (by decide)
    refine Same.seq ?_ (dropTiles_same ..) (by decide)
    assumption
  · rename_i v21 v22 v23 v24 v25 v26 v27
    have h28 : Same 131187642688570 s v22 := by
      refine Same.of_fst v27 ?_
      refine Same.seq ?_ (bufWriteParts_same ..) (by decide)
      exact Same.refl _ _
    refine Same.seq ?_ (parkHeld_same ..) (by decide)
    refine Same.seq ?_ (tileGone_same ..) (by decide)
    refine Same.seq ?_ (tileCount_same ..) (by decide)
    refine Same.trans h28 ?_
    constructor <;> intro hb <;> first | rfl | exact absurd hb (by decide)

theorem writeReady_same (s : State) : Same 131187642688570 s (State.writeReady s) := by
  unfold State.writeReady
  refine Same.foldl _ _ _ ?_ ?_
  · intro x1 a1 h1
    split
    · rename_i v2 v3 v4
      refine Same.ite ?_ ?_
      · refine Same.seq ?_ (writeTile_same ..) (by decide)
        assumption
      · assumption
    · rename_i v5 v6
      assumption
  · exact Same.refl _ _

theorem hostBack_same (s : State) (a1 : HostId) : Same 131187642688570 s (State.hostBack s a1) := by
  unfold State.hostBack
  refine Same.seq ?_ (b4Retry_same ..) (by decide)
  refine Same.seq ?_ (drainEvents_same ..) (by decide)
  refine Same.seq ?_ (sendPending_same ..) (by decide)
  refine Same.seq ?_ (writeReady_same ..) (by decide)
  refine Same.seq ?_ (drainCqs_same ..) (by decide)
  refine Same.seq ?_ (drainVictims_same ..) (by decide)
  exact Same.refl _ _

theorem writeIgnored_same (s : State) (a1 : HostId) (a2 : Nat) : Same 41781441855546 s (State.writeIgnored s a1 a2) := by
  unfold State.writeIgnored
  refine Same.seq ?_ (occur_same ..) (by decide)
  exact Same.refl _ _

theorem openWrite_same (k : Nat) (s : State) (h : HostId) (o : Nat) (act : State → State) (hk : 41781441855546 ||| k = k) (ha : ∀ x, Same k x (act x)) : Same k s (s.openWrite h o act) := by
  unfold State.openWrite
  exact Same.ite (Same.refl _ _) (Same.ite ((writeIgnored_same ..).mono hk) (ha s))

theorem hostWrite_same (k : Nat) (s : State) (h : HostId) (o : Nat) (act : State → State) (hk : 41781441855546 ||| k = k) (ha : ∀ x, Same k x (act x)) : Same k s (s.hostWrite h o act) := by
  unfold State.hostWrite
  refine openWrite_same _ _ _ _ _ hk (fun x => ?_)
  split
  · exact Same.refl _ _
  · exact Same.ite (ha x) ((writeIgnored_same ..).mono hk)

theorem imgSigned_same (s : State) (a1 : Nat) (a2 : List Byte) : Same 134217728 s (State.imgSigned s a1 a2).1 := by
  unfold State.imgSigned
  extract_lets +onlyGivenNames -merge -useContext x1
  clear_value x1
  extract_lets +onlyGivenNames -merge -useContext x2
  clear_value x2
  extract_lets +onlyGivenNames -merge -useContext x3
  clear_value x3
  extract_lets +onlyGivenNames -merge -useContext x4
  clear_value x4
  refine Same.iteFst ?_ ?_
  · dsimp only
    exact Same.refl _ _
  · refine Same.iteFst ?_ ?_
    · dsimp only
      exact Same.refl _ _
    · refine Same.iteFst ?_ ?_
      · dsimp only
        constructor <;> intro hb <;> first | rfl | exact absurd hb (by decide)
      · dsimp only
        exact Same.refl _ _

theorem resetInst_same (s : State) (a1 : Nat) (a2 : Nat) : Same 60476391220282 s (State.resetInst s a1 a2) := by
  unfold State.resetInst
  extract_lets +onlyGivenNames -merge -useContext x1
  clear_value x1
  extract_lets +onlyGivenNames -merge -useContext x2
  have h2 : Same 60476391220282 s x2 := by
    unfold x2
    refine Same.seq ?_ (dropWork_same ..) (by decide)
    refine Same.seq ?_ (dropColls_same ..) (by decide)
    exact Same.refl _ _
  clear_value x2
  refine Same.foldl _ _ _ ?_ ?_
  · intro x3 a3 h3
    refine Same.seq ?_ (modQp_same ..) (by decide)
    refine Same.seq ?_ (endJobs_same ..) (by decide)
    assumption
  · assumption

theorem instCommand_same (s : State) (a1 : HostId) (a2 : Nat) (a3 : Nat) (a4 : Nat) : Same 60476928091194 s (State.instCommand s a1 a2 a3 a4) := by
  unfold State.instCommand
  refine Same.ite ?_ ?_
  · refine Same.seq ?_ (partCmdEnd_same ..) (by decide)
    exact Same.refl _ _
  · split
    · rename_i v1 v2 v3
      refine Same.seq ?_ (partCmdEnd_same ..) (by decide)
      exact Same.refl _ _
    · rename_i v4 v5
      refine Same.ite ?_ ?_
      · refine Same.seq ?_ (partCmdEnd_same ..) (by decide)
        refine Same.seq ?_ (showInsts_same ..) (by decide)
        refine Same.seq ?_ (put_same ..) (by decide)
        refine Same.seq ?_ (put_same ..) (by decide)
        exact Same.refl _ _
      · extract_lets +onlyGivenNames -merge -useContext x6
        have h6 : Same 60476928091194 s x6 := by
          unfold x6
          refine Same.seq ?_ (put_same ..) (by decide)
          refine Same.seq ?_ (resetInst_same ..) (by decide)
          exact Same.refl _ _
        clear_value x6
        extract_lets +onlyGivenNames -merge -useContext x7
        clear_value x7
        refine Same.seq ?_ (endInsts_same ..) (by decide)
        refine Same.trans h6 ?_
        constructor <;> intro hb <;> first | rfl | exact absurd hb (by decide)

theorem issue_same (k : Nat) (s : State) (c : Nat) (row : HylRow) (act : Nat → State → State) (hk : 60750178558010 ||| k = k) (ha : ∀ x w, Same k x (act w x)) : Same k s (s.issue c row act) := by
  unfold State.issue
  split
  · exact Same.refl _ _
  · exact (raise_same ..).mono hk
  · split
    · exact (raise_same ..).mono hk
    · exact Same.ite (Same.refl _ _) (Same.ite ((raise_same ..).mono hk) (ha s _))

theorem kennelCreate_same (s : State) (a1 : HostId) (a2 : Nat) (a3 : List Byte) : Same 60473139552314 s (State.kennelCreate s a1 a2 a3) := by
  unfold State.kennelCreate
  extract_lets +onlyGivenNames -merge -useContext x1
  clear_value x1
  extract_lets +onlyGivenNames -merge -useContext x2
  clear_value x2
  refine Same.ite ?_ ?_
  · refine Same.seq ?_ (kcmdEnd_same ..) (by decide)
    exact Same.refl _ _
  · refine Same.ite ?_ ?_
    · refine Same.seq ?_ (kcmdEnd_same ..) (by decide)
      exact Same.refl _ _
    · refine Same.ite ?_ ?_
      · refine Same.seq ?_ (kcmdEnd_same ..) (by decide)
        exact Same.refl _ _
      · split
        · rename_i v3 v4
          refine Same.seq ?_ (kcmdEnd_same ..) (by decide)
          exact Same.refl _ _
        · rename_i v5 v6 v7
          extract_lets +onlyGivenNames -merge -useContext x8
          clear_value x8
          extract_lets +onlyGivenNames -merge -useContext x9
          have h9 : Same 60473139552314 s x9 := by
            unfold x9
            refine Same.seq ?_ (setQp_same ..) (by decide)
            exact Same.refl _ _
          clear_value x9
          extract_lets +onlyGivenNames -merge -useContext x10
          clear_value x10
          extract_lets +onlyGivenNames -merge -useContext x11
          have h11 : Same 60473139552314 s x11 := by
            unfold x11
            refine Same.ite ?_ ?_
            · refine Same.trans h9 ?_
              constructor <;> intro hb <;> first | rfl | exact absurd hb (by decide)
            · assumption
          clear_value x11
          extract_lets +onlyGivenNames -merge -useContext x12
          have h12 : Same 60473139552314 s x12 := by
            unfold x12
            refine Same.seq ?_ (put_same ..) (by decide)
            assumption
          clear_value x12
          refine Same.seq ?_ (kcmdEnd_same ..) (by decide)
          refine Same.seq ?_ (bringIn_same ..) (by decide)
          refine Same.seq ?_ (spill_same ..) (by decide)
          assumption

theorem kennelModify_same (s : State) (a1 : HostId) (a2 : Nat) (a3 : List Byte) : Same 130912764322874 s (State.kennelModify s a1 a2 a3) := by
  unfold State.kennelModify
  extract_lets +onlyGivenNames -merge -useContext x1
  clear_value x1
  refine Same.ite ?_ ?_
  · refine Same.seq ?_ (kcmdEnd_same ..) (by decide)
    exact Same.refl _ _
  · split
    · rename_i v2 v3
      refine Same.seq ?_ (kcmdEnd_same ..) (by decide)
      exact Same.refl _ _
    · rename_i v4 v5 v6
      refine Same.ite ?_ ?_
      · refine Same.seq ?_ (kcmdEnd_same ..) (by decide)
        exact Same.refl _ _
      · refine Same.ite ?_ ?_
        · refine Same.seq ?_ (kcmdEnd_same ..) (by decide)
          refine Same.seq ?_ (qpError_same ..) (by decide)
          exact Same.refl _ _
        · split
          · rename_i v7 v8
            refine Same.seq ?_ (kcmdEnd_same ..) (by decide)
            exact Same.refl _ _
          · rename_i v9 v10 v11
            extract_lets +onlyGivenNames -merge -useContext x12
            clear_value x12
            refine Same.seq ?_ (kcmdEnd_same ..) (by decide)
            refine Same.seq ?_ (checkDrained_same ..) (by decide)
            refine Same.seq ?_ (setQp_same ..) (by decide)
            exact Same.refl _ _

theorem kennelQuery_same (s : State) (a1 : HostId) (a2 : Nat) (a3 : Nat) : Same 41781441855538 s (State.kennelQuery s a1 a2 a3) := by
  unfold State.kennelQuery
  refine Same.ite ?_ ?_
  · refine Same.seq ?_ (kcmdEnd_same ..) (by decide)
    exact Same.refl _ _
  · split
    · rename_i v1 v2
      refine Same.seq ?_ (kcmdEnd_same ..) (by decide)
      exact Same.refl _ _
    · rename_i v3 v4 v5
      refine Same.seq ?_ (kcmdEnd_same ..) (by decide)
      refine Same.seq ?_ (writeHost_same ..) (by decide)
      exact Same.refl _ _

theorem kennelDestroy_same (s : State) (a1 : HostId) (a2 : Nat) : Same 35184372114482 s (State.kennelDestroy s a1 a2) := by
  unfold State.kennelDestroy
  refine Same.ite ?_ ?_
  · refine Same.seq ?_ (kcmdEnd_same ..) (by decide)
    exact Same.refl _ _
  · split
    · rename_i v1 v2
      refine Same.seq ?_ (kcmdEnd_same ..) (by decide)
      exact Same.refl _ _
    · rename_i v3 v4 v5
      refine Same.ite ?_ ?_
      · refine Same.seq ?_ (kcmdEnd_same ..) (by decide)
        exact Same.refl _ _
      · refine Same.ite ?_ ?_
        · refine Same.seq ?_ (kcmdEnd_same ..) (by decide)
          exact Same.refl _ _
        · refine Same.seq ?_ (kcmdEnd_same ..) (by decide)
          refine Same.seq ?_ (dropQp_same ..) (by decide)
          exact Same.refl _ _

theorem kennelAct_same (s : State) (a1 : HostId) (a2 : Nat) (a3 : Nat) (a4 : Nat) (a5 : List Byte) : Same 130912764322874 s (State.kennelAct s a1 a2 a3 a4 a5) := by
  unfold State.kennelAct
  split
  · rename_i v1
    refine Same.seq ?_ (kennelCreate_same ..) (by decide)
    exact Same.refl _ _
  · rename_i v2
    refine Same.seq ?_ (kennelModify_same ..) (by decide)
    exact Same.refl _ _
  · rename_i v3
    refine Same.seq ?_ (kennelQuery_same ..) (by decide)
    exact Same.refl _ _
  · rename_i v4
    refine Same.seq ?_ (kennelDestroy_same ..) (by decide)
    exact Same.refl _ _
  · rename_i v5 v6 v7 v8 v9
    refine Same.seq ?_ (kcmdEnd_same ..) (by decide)
    exact Same.refl _ _

theorem keyWait_same (s : State) (a1 : HostId) (a2 : Nat) : Same 268435458 s (State.keyWait s a1 a2) := by
  unfold State.keyWait
  refine Same.seq ?_ (put_same ..) (by decide)
  constructor <;> intro hb <;> first | rfl | exact absurd hb (by decide)

theorem keyTake_same (s : State) (a1 : HostId) (a2 : Nat) (a3 : Option (List Byte)) : Same 268435458 s (State.keyTake s a1 a2 a3) := by
  unfold State.keyTake
  extract_lets +onlyGivenNames -merge -useContext x1
  clear_value x1
  refine Same.seq ?_ (flushKeyCmds_same ..) (by decide)
  refine Same.seq ?_ (put_same ..) (by decide)
  constructor <;> intro hb <;> first | rfl | exact absurd hb (by decide)

theorem keyLoad_same (s : State) (a1 : HostId) (a2 : Nat) : Same 112150454468666 s (State.keyLoad s a1 a2) := by
  unfold State.keyLoad
  split
  · rename_i v1 v2
    refine Same.seq ?_ (keyCmdEnd_same ..) (by decide)
    exact Same.refl _ _
  · rename_i v3 v4 v5
    extract_lets +onlyGivenNames -merge -useContext x6
    clear_value x6
    extract_lets +onlyGivenNames -merge -useContext x7
    clear_value x7
    extract_lets +onlyGivenNames -merge -useContext x8
    clear_value x8
    refine Same.ite ?_ ?_
    · refine Same.seq ?_ (keyCmdEnd_same ..) (by decide)
      exact Same.refl _ _
    · refine Same.ite ?_ ?_
      · refine Same.seq ?_ (keyCmdEnd_same ..) (by decide)
        exact Same.refl _ _
      · split
        · rename_i v9 v10 v11
          have h12 : Same 112150454468666 s v10 := by
            refine Same.of_fst v11 ?_
            refine Same.seq ?_ (memReadC_same ..) (by decide)
            exact Same.refl _ _
          refine Same.seq ?_ (keyCmdEnd_same ..) (by decide)
          assumption
        · rename_i v13 v14 v15
          have h16 : Same 112150454468666 s v14 := by
            refine Same.of_fst v15 ?_
            refine Same.seq ?_ (memReadC_same ..) (by decide)
            exact Same.refl _ _
          refine Same.seq ?_ (keyCmdEnd_same ..) (by decide)
          refine Same.seq ?_ (fresh_same ..) (by decide)
          assumption
        · rename_i v17 v18 v19
          have h20 : Same 112150454468666 s v18 := by
            refine Same.of_fst v19 ?_
            refine Same.seq ?_ (memReadC_same ..) (by decide)
            exact Same.refl _ _
          refine Same.seq ?_ (keyWait_same ..) (by decide)
          exact Same.refl _ _
        · rename_i v21 v22 v23 v24
          have h25 : Same 112150454468666 s v22 := by
            refine Same.of_fst v24 ?_
            refine Same.seq ?_ (memReadC_same ..) (by decide)
            exact Same.refl _ _
          split
          · rename_i v26 v27
            refine Same.seq ?_ (keyCmdEnd_same ..) (by decide)
            assumption
          · rename_i v28 v29 v30
            refine Same.seq ?_ (keyTake_same ..) (by decide)
            assumption

theorem keyRetry_same (s : State) : Same 112150454468666 s (State.keyRetry s) := by
  unfold State.keyRetry
  refine Same.foldl _ _ _ ?_ ?_
  · intro x1 a1 h1
    refine Same.seq ?_ (keyLoad_same ..) (by decide)
    assumption
  · constructor <;> intro hb <;> first | rfl | exact absurd hb (by decide)

theorem laneComplete_same (s : State) (a1 : Nat) (a2 : LaneChange) : Same 41781441855674 s (State.laneComplete s a1 a2) := by
  unfold State.laneComplete
  refine Same.ite ?_ ?_
  · extract_lets +onlyGivenNames -merge -useContext x1
    clear_value x1
    extract_lets +onlyGivenNames -merge -useContext x2
    have h2 : Same 41781441855674 s x2 := by
      unfold x2
      refine Same.seq ?_ (setPort_same ..) (by decide)
      exact Same.refl _ _
    clear_value x2
    refine Same.seq ?_ (askLanes_same ..) (by decide)
    refine Same.seq ?_ (event_same ..) (by decide)
    refine Same.seq ?_ (put_same ..) (by decide)
    assumption
  · refine Same.seq ?_ (setPort_same ..) (by decide)
    exact Same.refl _ _

theorem latchNow_same (s : State) : Same 4 s (State.latchNow s) := by
  unfold State.latchNow
  constructor <;> intro hb <;> first | rfl | exact absurd hb (by decide)

theorem loseHost_same (s : State) (a1 : HostId) : Same 41781441855546 s (State.loseHost s a1) := by
  unfold State.loseHost
  refine Same.ite ?_ ?_
  · exact Same.refl _ _
  · extract_lets +onlyGivenNames -merge -useContext x1
    have h1 : Same 41781441855546 s x1 := by
      unfold x1
      refine Same.seq ?_ (event_same ..) (by decide)
      refine Same.seq ?_ (put_same ..) (by decide)
      refine Same.seq ?_ (put_same ..) (by decide)
      exact Same.refl _ _
    clear_value x1
    refine Same.foldl _ _ _ ?_ ?_
    · intro x2 a2 h2
      refine Same.seq ?_ (put_same ..) (by decide)
      assumption
    · assumption

theorem lowerPort_same (s : State) (a1 : Nat) : Same 35184372088962 s (State.lowerPort s a1) := by
  unfold State.lowerPort
  split
  · rename_i v1 v2 v3
    refine Same.seq ?_ (count_same ..) (by decide)
    refine Same.seq ?_ (laneRequest_same ..) (by decide)
    exact Same.refl _ _
  · rename_i v4 v5
    exact Same.refl _ _

theorem markLive_same (s : State) (a1 : Nat) : Same 2 s (State.markLive s a1) := by
  unfold State.markLive
  refine Same.ite ?_ ?_
  · refine Same.seq ?_ (put_same ..) (by decide)
    exact Same.refl _ _
  · exact Same.refl _ _

theorem mbEnd_same (s : State) (a1 : HostId) (a2 : Nat) : Same 2 s (State.mbEnd s a1 a2) := by
  unfold State.mbEnd
  refine Same.seq ?_ (put_same ..) (by decide)
  refine Same.seq ?_ (put_same ..) (by decide)
  refine Same.seq ?_ (put_same ..) (by decide)
  exact Same.refl _ _

theorem unlocked_same (s : State) : Same 64 s (State.unlocked s) := by
  unfold State.unlocked
  constructor <;> intro hb <;> first | rfl | exact absurd hb (by decide)

theorem newSource_same (s : State) : Same 70 s (State.newSource s) := by
  unfold State.newSource
  extract_lets +onlyGivenNames -merge -useContext x1
  have h1 : Same 70 s x1 := by
    unfold x1
    refine Same.seq ?_ (put_same ..) (by decide)
    exact Same.refl _ _
  clear_value x1
  extract_lets +onlyGivenNames -merge -useContext x2
  have h2 : Same 70 s x2 := by
    unfold x2
    refine Same.seq ?_ (put_same ..) (by decide)
    refine Same.seq ?_ (put_same ..) (by decide)
    refine Same.seq ?_ (put_same ..) (by decide)
    assumption
  clear_value x2
  extract_lets +onlyGivenNames -merge -useContext x3
  have h3 : Same 70 s x3 := by
    unfold x3
    refine Same.seq ?_ (unlocked_same ..) (by decide)
    assumption
  clear_value x3
  refine Same.trans h3 ?_
  constructor <;> intro hb <;> first | rfl | exact absurd hb (by decide) | (dsimp only; split <;> rfl) | (simp only [h1.ftNs hb, h2.ftNs hb, h3.ftNs hb]; done) | exact (h1.ftNs hb).symm | exact (h2.ftNs hb).symm | exact (h3.ftNs hb).symm | (simp only [h1.ftFrac hb, h2.ftFrac hb, h3.ftFrac hb]; done) | exact (h1.ftFrac hb).symm | exact (h2.ftFrac hb).symm | exact (h3.ftFrac hb).symm | (simp only [h1.fuses hb, h2.fuses hb, h3.fuses hb]; done) | exact (h1.fuses hb).symm | exact (h2.fuses hb).symm | exact (h3.fuses hb).symm

theorem strapResets_same (s : State) : Same 2 s (State.strapResets s) := by
  unfold State.strapResets
  extract_lets +onlyGivenNames -merge -useContext x1
  clear_value x1
  extract_lets +onlyGivenNames -merge -useContext x2
  clear_value x2
  extract_lets +onlyGivenNames -merge -useContext x3
  have h3 : Same 2 s x3 := by
    unfold x3
    refine Same.seq ?_ (put_same ..) (by decide)
    exact Same.refl _ _
  clear_value x3
  extract_lets +onlyGivenNames -merge -useContext x4
  have h4 : Same 2 s x4 := by
    unfold x4
    refine Same.ite ?_ ?_
    · refine Same.foldl _ _ _ ?_ ?_
      · intro x5 a5 h5
        refine Same.seq ?_ (put_same ..) (by decide)
        assumption
      · assumption
    · assumption
  clear_value x4
  extract_lets +onlyGivenNames -merge -useContext x6
  have h6 : Same 2 s x6 := by
    unfold x6
    refine Same.ite ?_ ?_
    · refine Same.seq ?_ (put_same ..) (by decide)
      assumption
    · refine Same.seq ?_ (put_same ..) (by decide)
      refine Same.seq ?_ (put_same ..) (by decide)
      refine Same.seq ?_ (put_same ..) (by decide)
      assumption
  clear_value x6
  extract_lets +onlyGivenNames -merge -useContext x7
  clear_value x7
  extract_lets +onlyGivenNames -merge -useContext x8
  have h8 : Same 2 s x8 := by
    unfold x8
    refine Same.seq ?_ (put_same ..) (by decide)
    refine Same.seq ?_ (put_same ..) (by decide)
    assumption
  clear_value x8
  extract_lets +onlyGivenNames -merge -useContext x9
  have h9 : Same 2 s x9 := by
    unfold x9
    refine Same.foldl _ _ _ ?_ ?_
    · intro x10 a10 h10
      refine Same.seq ?_ (setReg_same ..) (by decide)
      assumption
    · assumption
  clear_value x9
  extract_lets +onlyGivenNames -merge -useContext x11
  have h11 : Same 2 s x11 := by
    unfold x11
    refine Same.foldl _ _ _ ?_ ?_
    · intro x12 a12 h12
      refine Same.ite ?_ ?_
      · refine Same.seq ?_ (put_same ..) (by decide)
        assumption
      · assumption
    · assumption
  clear_value x11
  refine Same.seq ?_ (put_same ..) (by decide)
  assumption

theorem warmReset_same (s : State) (a1 : Bool) : Same 845524441759742 s (State.warmReset s a1) := by
  unfold State.warmReset
  refine Same.ite ?_ ?_
  · exact Same.refl _ _
  · extract_lets +onlyGivenNames -merge -useContext x1
    clear_value x1
    extract_lets +onlyGivenNames -merge -useContext x2
    have h2 : Same 845524441759742 s x2 := by
      unfold x2
      constructor <;> intro hb <;> first | rfl | exact absurd hb (by decide)
    clear_value x2
    extract_lets +onlyGivenNames -merge -useContext x3
    have h3 : Same 845524441759742 s x3 := by
      unfold x3
      refine Same.seq ?_ (newSource_same ..) (by decide)
      refine Same.seq ?_ (put_same ..) (by decide)
      refine Same.seq ?_ (strapResets_same ..) (by decide)
      assumption
    clear_value x3
    extract_lets +onlyGivenNames -merge -useContext x4
    have h4 : Same 845524441759742 s x4 := by
      unfold x4
      refine Same.seq ?_ (put_same ..) (by decide)
      refine Same.seq ?_ (put_same ..) (by decide)
      assumption
    clear_value x4
    extract_lets +onlyGivenNames -merge -useContext x5
    have h5 : Same 845524441759742 s x5 := by
      unfold x5
      refine Same.seq ?_ (put_same ..) (by decide)
      refine Same.seq ?_ (put_same ..) (by decide)
      assumption
    clear_value x5
    refine Same.seq ?_ (bootRom_same ..) (by decide)
    refine Same.seq ?_ (showFault_same ..) (by decide)
    assumption

theorem mbAdvance_same (s : State) (a1 : HostId) (a2 : Nat) (a3 : Bool) : Same 1091815046381566 s (State.mbAdvance s a1 a2 a3) := by
  unfold State.mbAdvance
  extract_lets +onlyGivenNames -merge -useContext x1
  clear_value x1
  extract_lets +onlyGivenNames -merge -useContext x2
  have h2 : Same 1091815046381566 s x2 := by
    unfold x2
    refine Same.seq ?_ (dropNonce_same ..) (by decide)
    exact Same.refl _ _
  clear_value x2
  refine Same.ite ?_ ?_
  · refine Same.seq ?_ (mbEnd_same ..) (by decide)
    assumption
  · refine Same.ite ?_ ?_
    · refine Same.seq ?_ (mbEnd_same ..) (by decide)
      assumption
    · refine Same.ite ?_ ?_
      · refine Same.seq ?_ (mbEnd_same ..) (by decide)
        assumption
      · refine Same.ite ?_ ?_
        · refine Same.seq ?_ (mbEnd_same ..) (by decide)
          assumption
        · extract_lets +onlyGivenNames -merge -useContext x3
          clear_value x3
          refine Same.ite ?_ ?_
          · refine Same.seq ?_ (mbEnd_same ..) (by decide)
            assumption
          · extract_lets +onlyGivenNames -merge -useContext x4
            have h4 : Same 1091815046381566 s x4 := by
              unfold x4
              refine Same.seq ?_ (clearKennel_same ..) (by decide)
              refine Same.seq ?_ (eraseAllKeys_same ..) (by decide)
              refine Same.seq ?_ (wipeSecure_same ..) (by decide)
              assumption
            clear_value x4
            refine Same.seq ?_ (warmReset_same ..) (by decide)
            refine Same.trans h4 ?_
            constructor <;> intro hb <;> first | rfl | exact absurd hb (by decide)

theorem mbAttest_same (s : State) (a1 : HostId) (a2 : Nat) : Same 41781441855490 s (State.mbAttest s a1 a2) := by
  unfold State.mbAttest
  extract_lets +onlyGivenNames -merge -useContext x1
  clear_value x1
  refine Same.ite ?_ ?_
  · refine Same.seq ?_ (mbEnd_same ..) (by decide)
    exact Same.refl _ _
  · refine Same.ite ?_ ?_
    · refine Same.seq ?_ (mbEnd_same ..) (by decide)
      exact Same.refl _ _
    · refine Same.ite ?_ ?_
      · refine Same.seq ?_ (mbEnd_same ..) (by decide)
        exact Same.refl _ _
      · extract_lets +onlyGivenNames -merge -useContext x2
        clear_value x2
        refine Same.seq ?_ (mbEnd_same ..) (by decide)
        refine Same.seq ?_ (writeHost_same ..) (by decide)
        exact Same.refl _ _

theorem mbExtend_same (s : State) (a1 : HostId) (a2 : Nat) : Same 2 s (State.mbExtend s a1 a2) := by
  unfold State.mbExtend
  refine Same.ite ?_ ?_
  · refine Same.seq ?_ (mbEnd_same ..) (by decide)
    exact Same.refl _ _
  · refine Same.ite ?_ ?_
    · refine Same.seq ?_ (mbEnd_same ..) (by decide)
      exact Same.refl _ _
    · refine Same.seq ?_ (mbEnd_same ..) (by decide)
      refine Same.seq ?_ (extend_same ..) (by decide)
      exact Same.refl _ _

theorem mbFuseKey_same (s : State) (a1 : HostId) (a2 : Nat) : Same 140737756790786 s (State.mbFuseKey s a1 a2) := by
  unfold State.mbFuseKey
  refine Same.ite ?_ ?_
  · refine Same.seq ?_ (mbEnd_same ..) (by decide)
    exact Same.refl _ _
  · refine Same.ite ?_ ?_
    · refine Same.seq ?_ (mbEnd_same ..) (by decide)
      exact Same.refl _ _
    · extract_lets +onlyGivenNames -merge -useContext x1
      refine Same.ite ?_ ?_
      · refine Same.seq ?_ (mbEnd_same ..) (by decide)
        exact Same.refl _ _
      · extract_lets +onlyGivenNames -merge -useContext x2
        extract_lets +onlyGivenNames -merge -useContext x3
        refine Same.seq ?_ (mbEnd_same ..) (by decide)
        constructor <;> intro hb <;> first | rfl | exact absurd hb (by decide)

theorem mbNonce_same (s : State) (a1 : HostId) : Same 112150454468610 s (State.mbNonce s a1) := by
  unfold State.mbNonce
  extract_lets +onlyGivenNames -merge -useContext x1
  clear_value x1
  refine Same.seq ?_ (mbEnd_same ..) (by decide)
  refine Same.seq ?_ (writeHost_same ..) (by decide)
  extract_lets +onlyGivenNames -merge -useContext x2
  have h2 : Same 112150454468610 s x2 := by
    unfold x2
    refine Same.seq ?_ (fresh_same ..) (by decide)
    exact Same.refl _ _
  clear_value x2
  refine Same.trans h2 ?_
  constructor <;> intro hb <;> first | rfl | exact absurd hb (by decide) | (dsimp only; split <;> rfl) | (simp only [h2.ftNs hb]; done) | exact (h2.ftNs hb).symm | (simp only [h2.ftFrac hb]; done) | exact (h2.ftFrac hb).symm | (simp only [h2.fuses hb]; done) | exact (h2.fuses hb).symm

theorem mbUnlock_same (s : State) (a1 : HostId) (a2 : Nat) : Same 131206754070522 s (State.mbUnlock s a1 a2) := by
  unfold State.mbUnlock
  extract_lets +onlyGivenNames -merge -useContext x1
  clear_value x1
  extract_lets +onlyGivenNames -merge -useContext x2
  have h2 : Same 131206754070522 s x2 := by
    unfold x2
    refine Same.seq ?_ (dropNonce_same ..) (by decide)
    exact Same.refl _ _
  clear_value x2
  refine Same.ite ?_ ?_
  · refine Same.seq ?_ (mbEnd_same ..) (by decide)
    assumption
  · refine Same.ite ?_ ?_
    · refine Same.seq ?_ (mbEnd_same ..) (by decide)
      assumption
    · split
      · rename_i v3 v4
        refine Same.seq ?_ (mbEnd_same ..) (by decide)
        assumption
      · rename_i v5 v6 v7 v8 v9
        refine Same.ite ?_ ?_
        · refine Same.seq ?_ (mbEnd_same ..) (by decide)
          assumption
        · refine Same.ite ?_ ?_
          · refine Same.seq ?_ (mbEnd_same ..) (by decide)
            assumption
          · extract_lets +onlyGivenNames -merge -useContext x10
            clear_value x10
            refine Same.ite ?_ ?_
            · refine Same.seq ?_ (mbEnd_same ..) (by decide)
              assumption
            · refine Same.ite ?_ ?_
              · refine Same.seq ?_ (mbEnd_same ..) (by decide)
                refine Same.seq ?_ (evictAll_same ..) (by decide)
                assumption
              · refine Same.seq ?_ (mbEnd_same ..) (by decide)
                refine Same.seq ?_ (setDebug_same ..) (by decide)
                assumption

theorem measureKeys_same (s : State) (a1 : Nat) : Same 2 s (State.measureKeys s a1) := by
  unfold State.measureKeys
  refine Same.foldl _ _ _ ?_ ?_
  · intro x1 a1 h1
    extract_lets +onlyGivenNames -merge -useContext x2
    clear_value x2
    refine Same.ite ?_ ?_
    · assumption
    · refine Same.seq ?_ (extendPmr_same ..) (by decide)
      assumption
  · exact Same.refl _ _

theorem measureResidents_same (s : State) : Same 2 s (State.measureResidents s) := by
  unfold State.measureResidents
  refine Same.ite ?_ ?_
  · refine Same.foldl _ _ _ ?_ ?_
    · intro x1 a1 h1
      refine Same.seq ?_ (extend_same ..) (by decide)
      assumption
    · exact Same.refl _ _
  · exact Same.refl _ _

theorem memRej_same (s : State) : Same 2 s (State.memRej s) := by
  unfold State.memRej
  refine Same.seq ?_ (put_same ..) (by decide)
  exact Same.refl _ _

theorem meshCycle_same (s : State) : Same 35184372092874 s (State.meshCycle s) := by
  unfold State.meshCycle
  refine Same.ite ?_ ?_
  · exact Same.refl _ _
  · extract_lets +onlyGivenNames -merge -useContext x1
    clear_value x1
    extract_lets +onlyGivenNames -merge -useContext x2
    have h2 : Same 35184372092874 s x2 := by
      unfold x2
      constructor <;> intro hb <;> first | rfl | exact absurd hb (by decide)
    clear_value x2
    refine Same.foldl _ _ _ ?_ ?_
    · intro x3 a3 h3
      refine Same.seq ?_ (exitMesh_same ..) (by decide)
      refine Same.seq ?_ (pinOff_same ..) (by decide)
      assumption
    · assumption

theorem missIn_same (s : State) (a1 : RxPkt) (a2 : Nat) : Same 35184372105410 s (State.missIn s a1 a2) := by
  unfold State.missIn
  extract_lets +onlyGivenNames -merge -useContext x1
  clear_value x1
  refine Same.ite ?_ ?_
  · refine Same.seq ?_ (miss_same ..) (by decide)
    refine Same.seq ?_ (count_same ..) (by decide)
    refine Same.seq ?_ (pktGone_same ..) (by decide)
    exact Same.refl _ _
  · extract_lets +onlyGivenNames -merge -useContext x2
    clear_value x2
    extract_lets +onlyGivenNames -merge -useContext x3
    have h3 : Same 35184372105410 s x3 := by
      unfold x3
      refine Same.seq ?_ (frameGone_same ..) (by decide)
      exact Same.refl _ _
    clear_value x3
    extract_lets +onlyGivenNames -merge -useContext x4
    clear_value x4
    extract_lets +onlyGivenNames -merge -useContext x5
    clear_value x5
    extract_lets +onlyGivenNames -merge -useContext x6
    clear_value x6
    extract_lets +onlyGivenNames -merge -useContext x7
    have h7 : Same 35184372105410 s x7 := by
      unfold x7
      refine Same.seq ?_ (setPort_same ..) (by decide)
      assumption
    clear_value x7
    extract_lets +onlyGivenNames -merge -useContext x8
    have h8 : Same 35184372105410 s x8 := by
      unfold x8
      refine Same.ite ?_ ?_
      · refine Same.seq ?_ (sendPause_same ..) (by decide)
        assumption
      · assumption
    clear_value x8
    refine Same.seq ?_ (miss_same ..) (by decide)
    assumption

theorem modSeg_same (s : State) (a1 : Nat) (a2 : Nat) (a3 : RedDesc) (a4 : RedSeg → RedSeg) : Same 16777218 s (State.modSeg s a1 a2 a3 a4) := by
  unfold State.modSeg
  extract_lets +onlyGivenNames -merge -useContext x1
  clear_value x1
  refine Same.seq ?_ (showRed_same ..) (by decide)
  refine Same.seq ?_ (setCluster_same ..) (by decide)
  exact Same.refl _ _

theorem modTarget_same (s : State) (a1 : Nat) (a2 : Nat) (a3 : Target → Target) : Same 34359738368 s (State.modTarget s a1 a2 a3) := by
  unfold State.modTarget
  constructor <;> intro hb <;> first | rfl | exact absurd hb (by decide)

theorem nativeUp_same (s : State) (a1 : Nat) (a2 : Nat) : Same 41781441855674 s (State.nativeUp s a1 a2) := by
  unfold State.nativeUp
  extract_lets +onlyGivenNames -merge -useContext x1
  have h1 : Same 41781441855674 s x1 := by
    unfold x1
    refine Same.seq ?_ (put_same ..) (by decide)
    refine Same.seq ?_ (put_same ..) (by decide)
    exact Same.refl _ _
  clear_value x1
  extract_lets +onlyGivenNames -merge -useContext x2
  clear_value x2
  extract_lets +onlyGivenNames -merge -useContext x3
  clear_value x3
  extract_lets +onlyGivenNames -merge -useContext x4
  have h4 : Same 41781441855674 s x4 := by
    unfold x4
    refine Same.seq ?_ (setPort_same ..) (by decide)
    assumption
  clear_value x4
  split
  · rename_i v5 v6
    refine Same.ite ?_ ?_
    · refine Same.seq ?_ (event_same ..) (by decide)
      refine Same.seq ?_ (put_same ..) (by decide)
      assumption
    · assumption
  · rename_i v7
    assumption

theorem noSource_same (s : State) : Same 2 s (State.noSource s) := by
  unfold State.noSource
  refine Same.seq ?_ (put_same ..) (by decide)
  refine Same.seq ?_ (put_same ..) (by decide)
  exact Same.refl _ _

theorem onAck_same (s : State) (a1 : Nat) (a2 : Nat) : Same 130912764522490 s (State.onAck s a1 a2) := by
  unfold State.onAck
  extract_lets +onlyGivenNames -merge -useContext x1
  have h1 : Same 130912764522490 s x1 := by
    unfold x1
    refine Same.seq ?_ (ackTo_same ..) (by decide)
    exact Same.refl _ _
  clear_value x1
  split
  · rename_i v2 v3
    assumption
  · rename_i v4 v5 v6
    refine Same.ite ?_ ?_
    · refine Same.seq ?_ (pump_same ..) (by decide)
      refine Same.seq ?_ (modCtx_same ..) (by decide)
      assumption
    · assumption

theorem onAtomicAck_same (s : State) (a1 : Nat) (a2 : TPkt) (t : State) (h : State.onAtomicAck s a1 a2 = some t) : Same 130912765308922 s t := by
  unfold State.onAtomicAck at h
  split at h
  · rename_i v1 v2
    injection h with h
    refine Same.of_eq h ?_
    exact Same.refl _ _
  · rename_i v3 v4 v5
    extract_lets +onlyGivenNames -merge -useContext x6 at h
    clear_value x6
    split at h
    · rename_i v7 v8
      injection h with h
      refine Same.of_eq h ?_
      exact Same.refl _ _
    · rename_i v9 v10 v11
      split at h
      · rename_i v12
        injection h with h
        refine Same.of_eq h ?_
        exact Same.refl _ _
      · rename_i v13
        extract_lets +onlyGivenNames -merge -useContext x14 at h
        split at h
        · rename_i v15
          injection h with h
          refine Same.of_eq h ?_
          unfold x14
          refine Same.seq ?_ (ackTo_same ..) (by decide)
          refine Same.seq ?_ (modLive_same ..) (by decide)
          exact Same.refl _ _
        · rename_i v16
          split at h
          · rename_i v17 v18 v19
            have h20 : Same 130912765308922 s v18 := by
              refine Same.of_fst v19 ?_
              refine Same.seq ?_ (placeTile_same ..) (by decide)
              exact Same.refl _ _
            cases h
          · rename_i v21 v22 v23
            have h24 : Same 130912765308922 s v22 := by
              refine Same.of_fst v23 ?_
              refine Same.seq ?_ (placeTile_same ..) (by decide)
              exact Same.refl _ _
            injection h with h
            refine Same.of_eq h ?_
            refine Same.seq ?_ (failReq_same ..) (by decide)
            assumption
          · rename_i v25 v26 v27
            have h28 : Same 130912765308922 s v26 := by
              refine Same.of_fst v27 ?_
              refine Same.seq ?_ (placeTile_same ..) (by decide)
              exact Same.refl _ _
            injection h with h
            refine Same.of_eq h ?_
            refine Same.seq ?_ (failReq_same ..) (by decide)
            assumption
          · rename_i v29 v30 v31 v32 v33 v34 v35
            have h36 : Same 130912765308922 s v30 := by
              refine Same.of_fst v35 ?_
              refine Same.seq ?_ (placeTile_same ..) (by decide)
              exact Same.refl _ _
            injection h with h
            refine Same.of_eq h ?_
            unfold x14
            refine Same.seq ?_ (ackTo_same ..) (by decide)
            refine Same.seq ?_ (modLive_same ..) (by decide)
            assumption

theorem onNak_same (s : State) (a1 : Nat) (a2 : Nat) (a3 : Nat) : Same 130912764522490 s (State.onNak s a1 a2 a3) := by
  unfold State.onNak
  split
  · rename_i v1 v2
    exact Same.refl _ _
  · rename_i v3 v4 v5
    refine Same.ite ?_ ?_
    · exact Same.refl _ _
    · extract_lets +onlyGivenNames -merge -useContext x6
      have h6 : Same 130912764522490 s x6 := by
        unfold x6
        refine Same.seq ?_ (ackTo_same ..) (by decide)
        exact Same.refl _ _
      clear_value x6
      refine Same.ite ?_ ?_
      · refine Same.seq ?_ (goBack_same ..) (by decide)
        assumption
      · refine Same.seq ?_ (failByPeer_same ..) (by decide)
        assumption

theorem onReadResp_same (s : State) (a1 : Nat) (a2 : TPkt) (t : State) (h : State.onReadResp s a1 a2 = some t) : Same 130912765308922 s t := by
  unfold State.onReadResp at h
  split at h
  · rename_i v1 v2
    injection h with h
    refine Same.of_eq h ?_
    exact Same.refl _ _
  · rename_i v3 v4 v5
    extract_lets +onlyGivenNames -merge -useContext x6 at h
    clear_value x6
    split at h
    · rename_i v7 v8
      injection h with h
      refine Same.of_eq h ?_
      exact Same.refl _ _
    · rename_i v9 v10 v11
      split at h
      · rename_i v12
        injection h with h
        refine Same.of_eq h ?_
        exact Same.refl _ _
      · rename_i v13
        extract_lets +onlyGivenNames -merge -useContext x14 at h
        clear_value x14
        split at h
        · rename_i v15
          split at h
          · rename_i v16
            injection h with h
            refine Same.of_eq h ?_
            exact Same.refl _ _
          · rename_i v17
            extract_lets +onlyGivenNames -merge -useContext x18 at h
            split at h
            · rename_i v19
              injection h with h
              refine Same.of_eq h ?_
              unfold x18
              refine Same.seq ?_ (ackTo_same ..) (by decide)
              refine Same.seq ?_ (modLive_same ..) (by decide)
              exact Same.refl _ _
            · rename_i v20
              split at h
              · rename_i v21
                injection h with h
                refine Same.of_eq h ?_
                unfold x18
                refine Same.seq ?_ (ackTo_same ..) (by decide)
                refine Same.seq ?_ (modLive_same ..) (by decide)
                refine Same.seq ?_ (modLive_same ..) (by decide)
                exact Same.refl _ _
              · rename_i v22
                split at h
                · rename_i v23 v24 v25
                  have h26 : Same 130912765308922 s v24 := by
                    refine Same.of_fst v25 ?_
                    refine Same.seq ?_ (placeTile_same ..) (by decide)
                    exact Same.refl _ _
                  cases h
                · rename_i v27 v28 v29
                  have h30 : Same 130912765308922 s v28 := by
                    refine Same.of_fst v29 ?_
                    refine Same.seq ?_ (placeTile_same ..) (by decide)
                    exact Same.refl _ _
                  injection h with h
                  refine Same.of_eq h ?_
                  refine Same.seq ?_ (failReq_same ..) (by decide)
                  assumption
                · rename_i v31 v32 v33
                  have h34 : Same 130912765308922 s v32 := by
                    refine Same.of_fst v33 ?_
                    refine Same.seq ?_ (placeTile_same ..) (by decide)
                    exact Same.refl _ _
                  injection h with h
                  refine Same.of_eq h ?_
                  refine Same.seq ?_ (failReq_same ..) (by decide)
                  assumption
                · rename_i v35 v36 v37 v38 v39 v40 v41
                  have h42 : Same 130912765308922 s v36 := by
                    refine Same.of_fst v41 ?_
                    refine Same.seq ?_ (placeTile_same ..) (by decide)
                    exact Same.refl _ _
                  injection h with h
                  refine Same.of_eq h ?_
                  unfold x18
                  refine Same.seq ?_ (ackTo_same ..) (by decide)
                  refine Same.seq ?_ (modLive_same ..) (by decide)
                  assumption
        · rename_i v43
          split at h
          · rename_i v44
            injection h with h
            refine Same.of_eq h ?_
            exact Same.refl _ _
          · rename_i v45
            extract_lets +onlyGivenNames -merge -useContext x46 at h
            split at h
            · rename_i v47
              injection h with h
              refine Same.of_eq h ?_
              unfold x46
              refine Same.seq ?_ (ackTo_same ..) (by decide)
              refine Same.seq ?_ (modLive_same ..) (by decide)
              exact Same.refl _ _
            · rename_i v48
              split at h
              · rename_i v49
                injection h with h
                refine Same.of_eq h ?_
                unfold x46
                refine Same.seq ?_ (ackTo_same ..) (by decide)
                refine Same.seq ?_ (modLive_same ..) (by decide)
                refine Same.seq ?_ (modLive_same ..) (by decide)
                exact Same.refl _ _
              · rename_i v50
                split at h
                · rename_i v51 v52 v53
                  have h54 : Same 130912765308922 s v52 := by
                    refine Same.of_fst v53 ?_
                    refine Same.seq ?_ (placeTile_same ..) (by decide)
                    exact Same.refl _ _
                  cases h
                · rename_i v55 v56 v57
                  have h58 : Same 130912765308922 s v56 := by
                    refine Same.of_fst v57 ?_
                    refine Same.seq ?_ (placeTile_same ..) (by decide)
                    exact Same.refl _ _
                  injection h with h
                  refine Same.of_eq h ?_
                  refine Same.seq ?_ (failReq_same ..) (by decide)
                  assumption
                · rename_i v59 v60 v61
                  have h62 : Same 130912765308922 s v60 := by
                    refine Same.of_fst v61 ?_
                    refine Same.seq ?_ (placeTile_same ..) (by decide)
                    exact Same.refl _ _
                  injection h with h
                  refine Same.of_eq h ?_
                  refine Same.seq ?_ (failReq_same ..) (by decide)
                  assumption
                · rename_i v63 v64 v65 v66 v67 v68 v69
                  have h70 : Same 130912765308922 s v64 := by
                    refine Same.of_fst v69 ?_
                    refine Same.seq ?_ (placeTile_same ..) (by decide)
                    exact Same.refl _ _
                  injection h with h
                  refine Same.of_eq h ?_
                  unfold x46
                  refine Same.seq ?_ (ackTo_same ..) (by decide)
                  refine Same.seq ?_ (modLive_same ..) (by decide)
                  assumption

theorem onRnr_same (s : State) (a1 : Nat) (a2 : Nat) : Same 130912764522490 s (State.onRnr s a1 a2) := by
  unfold State.onRnr
  split
  · rename_i v1 v2
    exact Same.refl _ _
  · rename_i v3 v4 v5
    extract_lets +onlyGivenNames -merge -useContext x6
    have h6 : Same 130912764522490 s x6 := by
      unfold x6
      refine Same.seq ?_ (count_same ..) (by decide)
      exact Same.refl _ _
    clear_value x6
    refine Same.ite ?_ ?_
    · assumption
    · extract_lets +onlyGivenNames -merge -useContext x7
      have h7 : Same 130912764522490 s x7 := by
        unfold x7
        refine Same.seq ?_ (ackTo_same ..) (by decide)
        assumption
      clear_value x7
      split
      · rename_i v8 v9
        assumption
      · rename_i v10 v11 v12
        refine Same.ite ?_ ?_
        · split
          · rename_i v13 v14 v15
            refine Same.seq ?_ (failReq_same ..) (by decide)
            assumption
          · rename_i v16 v17
            refine Same.seq ?_ (failOldest_same ..) (by decide)
            assumption
        · refine Same.seq ?_ (setQp_same ..) (by decide)
          assumption

theorem onVisAck_same (s : State) (a1 : Nat) (a2 : Nat) : Same 60475300651066 s (State.onVisAck s a1 a2) := by
  unfold State.onVisAck
  split
  · rename_i v1 v2
    exact Same.refl _ _
  · rename_i v3 v4 v5
    extract_lets +onlyGivenNames -merge -useContext x6
    have h6 : Same 60475300651066 s x6 := by
      unfold x6
      split
      · rename_i v7 v8 v9
        refine Same.seq ?_ (setQueue_same ..) (by decide)
        exact Same.refl _ _
      · rename_i v10 v11
        exact Same.refl _ _
    clear_value x6
    refine Same.seq ?_ (finishEntries_same ..) (by decide)
    assumption

theorem stamp_same (s : State) (a1 : Nat) : Same 2 s (State.stamp s a1).1 := by
  unfold State.stamp
  extract_lets +onlyGivenNames -merge -useContext x1
  clear_value x1
  refine Same.iteFst ?_ ?_
  · dsimp only
    exact Same.refl _ _
  · dsimp only
    refine Same.seq ?_ (count_same ..) (by decide)
    exact Same.refl _ _

theorem openFrame_same (s : State) (a1 : Nat) (a2 : Nat) (a3 : List Byte) : Same 130 s (State.openFrame s a1 a2 a3) := by
  unfold State.openFrame
  split
  · rename_i v1 v2 v3 v4
    have h5 : Same 130 s v2 := by
      refine Same.of_fst v4 ?_
      refine Same.seq ?_ (stamp_same ..) (by decide)
      exact Same.refl _ _
    refine Same.seq ?_ (setOpen_same ..) (by decide)
    refine Same.seq ?_ (enter_same ..) (by decide)
    assumption

theorem openWindow_same (s : State) (a1 : Nat) (a2 : Nat) (a3 : Nat) (a4 : Nat) (a5 : Nat) (a6 : Nat) : Same 32770 s (State.openWindow s a1 a2 a3 a4 a5 a6).1 := by
  unfold State.openWindow
  extract_lets +onlyGivenNames -merge -useContext x1
  clear_value x1
  refine Same.iteFst ?_ ?_
  · dsimp only
    exact Same.refl _ _
  · refine Same.iteFst ?_ ?_
    · dsimp only
      refine Same.seq ?_ (count_same ..) (by decide)
      exact Same.refl _ _
    · split
      · rename_i v2 v3
        dsimp only
        refine Same.seq ?_ (count_same ..) (by decide)
        exact Same.refl _ _
      · rename_i v4 v5 v6 v7
        extract_lets +onlyGivenNames -merge -useContext x8
        clear_value x8
        extract_lets +onlyGivenNames -merge -useContext x9
        clear_value x9
        dsimp only
        refine Same.seq ?_ (setWin_same ..) (by decide)
        constructor <;> intro hb <;> first | rfl | exact absurd hb (by decide)

theorem overrun_same (s : State) : Same 42056319762490 s (State.overrun s) := by
  unfold State.overrun
  refine Same.ite ?_ ?_
  · extract_lets +onlyGivenNames -merge -useContext x1
    clear_value x1
    extract_lets +onlyGivenNames -merge -useContext x2
    clear_value x2
    extract_lets +onlyGivenNames -merge -useContext x3
    have h3 : Same 42056319762490 s x3 := by
      unfold x3
      constructor <;> intro hb <;> first | rfl | exact absurd hb (by decide)
    clear_value x3
    refine Same.ite ?_ ?_
    · refine Same.seq ?_ (count_same ..) (by decide)
      refine Same.seq ?_ (event_same ..) (by decide)
      refine Same.seq ?_ (put_same ..) (by decide)
      assumption
    · assumption
  · constructor <;> intro hb <;> first | rfl | exact absurd hb (by decide)

theorem graceExpiryEff_same (a0 : Nat) (s : State) : Same 130912764522490 s (graceExpiryEff a0 s) := by
  unfold graceExpiryEff
  refine Same.ite ?_ ?_
  · extract_lets +onlyGivenNames -merge -useContext x1
    have h1 : Same 130912764522490 s x1 := by
      unfold x1
      refine Same.seq ?_ (put_same ..) (by decide)
      exact Same.refl _ _
    clear_value x1
    refine Same.seq ?_ (pathsChanged_same ..) (by decide)
    refine Same.seq ?_ (dropHostCompletions_same ..) (by decide)
    refine Same.seq ?_ (showSched_same ..) (by decide)
    refine Same.seq ?_ (suspend_same ..) (by decide)
    assumption
  · exact Same.refl _ _

theorem partCtlBit_same (a0 : Nat) (a1 : Bool) (a2 : Bool) (s : State) (a4 : Nat) : Same 131206754070522 s (partCtlBit a0 a1 a2 s a4) := by
  unfold partCtlBit
  extract_lets +onlyGivenNames -merge -useContext x1
  clear_value x1
  extract_lets +onlyGivenNames -merge -useContext x2
  have h2 : Same 131206754070522 s x2 := by
    unfold x2
    refine Same.seq ?_ (put_same ..) (by decide)
    exact Same.refl _ _
  clear_value x2
  refine Same.ite ?_ ?_
  · assumption
  · split
    · rename_i v3
      refine Same.ite ?_ ?_
      · refine Same.seq ?_ (measureKeys_same ..) (by decide)
        refine Same.seq ?_ (put_same ..) (by decide)
        exact Same.refl _ _
      · assumption
    · rename_i v4
      refine Same.ite ?_ ?_
      · refine Same.seq ?_ (put_same ..) (by decide)
        refine Same.seq ?_ (graceExpiryEff_same ..) (by decide)
        exact Same.refl _ _
      · refine Same.ite ?_ ?_
        · refine Same.seq ?_ (put_same ..) (by decide)
          exact Same.refl _ _
        · assumption
    · rename_i v5
      refine Same.ite ?_ ?_
      · assumption
      · refine Same.seq ?_ (startReset_same ..) (by decide)
        exact Same.refl _ _
    · rename_i v6 v7 v8 v9
      refine Same.ite ?_ ?_
      · refine Same.seq ?_ (freePartition_same ..) (by decide)
        exact Same.refl _ _
      · refine Same.ite ?_ ?_
        · refine Same.seq ?_ (startReset_same ..) (by decide)
          exact Same.refl _ _
        · assumption

theorem partCtlEff_same (a0 : Nat) (a1 : Bool) (a2 : Bool) (a3 : Word) (s : State) : Same 131206754070522 s (partCtlEff a0 a1 a2 a3 s) := by
  unfold partCtlEff
  refine Same.foldl _ _ _ ?_ ?_
  · intro x1 a1 h1
    refine Same.seq ?_ (partCtlBit_same ..) (by decide)
    assumption
  · exact Same.refl _ _

theorem partCtlWrite_same (s : State) (a1 : HostId) (a2 : Nat) (a3 : Bool) (a4 : Word) : Same 131206754070522 s (State.partCtlWrite s a1 a2 a3 a4) := by
  unfold State.partCtlWrite
  refine Same.ite ?_ ?_
  · refine Same.trans ?_ (openWrite_same (hk := by decide) (ha := ?_) ..)
    · exact Same.refl _ _
    · intro x1
      refine Same.seq ?_ (partCtlEff_same ..) (by decide)
      exact Same.refl _ _
  · refine Same.trans ?_ (hostWrite_same (hk := by decide) (ha := ?_) ..)
    · exact Same.refl _ _
    · intro x4
      refine Same.seq ?_ (partCtlEff_same ..) (by decide)
      exact Same.refl _ _

theorem pauseClass_same (s : State) (a1 : Nat) (a2 : Nat) (a3 : Nat) (a4 : Nat) : Same 128 s (State.pauseClass s a1 a2 a3 a4) := by
  unfold State.pauseClass
  extract_lets +onlyGivenNames -merge -useContext x1
  clear_value x1
  refine Same.seq ?_ (setPort_same ..) (by decide)
  exact Same.refl _ _

theorem peerLost_same (s : State) (a1 : Nat) : Same 41781446051066 s (State.peerLost s a1) := by
  unfold State.peerLost
  extract_lets +onlyGivenNames -merge -useContext x1
  have h1 : Same 41781446051066 s x1 := by
    unfold x1
    refine Same.seq ?_ (put_same ..) (by decide)
    refine Same.seq ?_ (put_same ..) (by decide)
    exact Same.refl _ _
  clear_value x1
  refine Same.seq ?_ (refreshBackups_same ..) (by decide)
  refine Same.seq ?_ (discardQueued_same ..) (by decide)
  refine Same.seq ?_ (event_same ..) (by decide)
  assumption

theorem raiseBusy_same (s : State) (a1 : Nat) : Same 35184372088960 s (State.raiseBusy s a1) := by
  unfold State.raiseBusy
  extract_lets +onlyGivenNames -merge -useContext x1
  clear_value x1
  extract_lets +onlyGivenNames -merge -useContext x2
  clear_value x2
  refine Same.ite ?_ ?_
  · refine Same.seq ?_ (raiseLanes_same ..) (by decide)
    exact Same.refl _ _
  · exact Same.refl _ _

theorem portWindow_same (s : State) (a1 : Nat) : Same 128 s (State.portWindow s a1) := by
  unfold State.portWindow
  extract_lets +onlyGivenNames -merge -useContext x1
  clear_value x1
  extract_lets +onlyGivenNames -merge -useContext x2
  clear_value x2
  refine Same.seq ?_ (setPort_same ..) (by decide)
  exact Same.refl _ _

theorem throttle_same (s : State) (a1 : Bool) : Same 2 s (State.throttle s a1) := by
  unfold State.throttle
  extract_lets +onlyGivenNames -merge -useContext x1
  clear_value x1
  refine Same.ite ?_ ?_
  · refine Same.ite ?_ ?_
    · refine Same.seq ?_ (put_same ..) (by decide)
      exact Same.refl _ _
    · exact Same.refl _ _
  · refine Same.ite ?_ ?_
    · refine Same.seq ?_ (put_same ..) (by decide)
      exact Same.refl _ _
    · exact Same.refl _ _

theorem plan_same (s : State) : Same 42056319762618 s (State.plan s) := by
  unfold State.plan
  extract_lets +onlyGivenNames -merge -useContext x1
  have h1 : Same 42056319762618 s x1 := by
    unfold x1
    refine Same.seq ?_ (overrun_same ..) (by decide)
    refine Same.foldl _ _ _ ?_ ?_
    · intro x2 a2 h2
      refine Same.seq ?_ (raiseBusy_same ..) (by decide)
      assumption
    · exact Same.refl _ _
  clear_value x1
  extract_lets +onlyGivenNames -merge -useContext x3
  have h3 : Same 42056319762618 s x3 := by
    unfold x3
    refine Same.seq ?_ (clusterWindow_same ..) (by decide)
    refine Same.foldl _ _ _ ?_ ?_
    · intro x4 a4 h4
      refine Same.seq ?_ (portWindow_same ..) (by decide)
      assumption
    · assumption
  clear_value x3
  extract_lets +onlyGivenNames -merge -useContext x5
  clear_value x5
  extract_lets +onlyGivenNames -merge -useContext x6
  have h6 : Same 42056319762618 s x6 := by
    unfold x6
    refine Same.ite ?_ ?_
    · refine Same.foldl _ _ _ ?_ ?_
      · intro x7 a7 h7
        refine Same.seq ?_ (lowerPort_same ..) (by decide)
        assumption
      · assumption
    · assumption
  clear_value x6
  extract_lets +onlyGivenNames -merge -useContext x8
  have h8 : Same 42056319762618 s x8 := by
    unfold x8
    refine Same.ite ?_ ?_
    · refine Same.seq ?_ (gateClusters_same ..) (by decide)
      assumption
    · assumption
  clear_value x8
  refine Same.seq ?_ (throttle_same ..) (by decide)
  assumption

theorem pldEnd_same (s : State) (a1 : Nat) (a2 : HostId) (a3 : Nat) : Same 2 s (State.pldEnd s a1 a2 a3) := by
  unfold State.pldEnd
  refine Same.seq ?_ (put_same ..) (by decide)
  refine Same.seq ?_ (put_same ..) (by decide)
  refine Same.seq ?_ (put_same ..) (by decide)
  exact Same.refl _ _

theorem ungate_same (s : State) (a1 : Nat) : Same 2 s (State.ungate s a1) := by
  unfold State.ungate
  refine Same.ite ?_ ?_
  · refine Same.seq ?_ (setGated_same ..) (by decide)
    exact Same.refl _ _
  · exact Same.refl _ _

theorem pldPlace_same (s : State) (a1 : Nat) (a2 : HostId) (a3 : Nat) (a4 : Bool) (a5 : List Byte) : Same 274919849986 s (State.pldPlace s a1 a2 a3 a4 a5) := by
  unfold State.pldPlace
  extract_lets +onlyGivenNames -merge -useContext x1
  clear_value x1
  extract_lets +onlyGivenNames -merge -useContext x2
  clear_value x2
  extract_lets +onlyGivenNames -merge -useContext x3
  clear_value x3
  extract_lets +onlyGivenNames -merge -useContext x4
  clear_value x4
  extract_lets +onlyGivenNames -merge -useContext x5
  clear_value x5
  extract_lets +onlyGivenNames -merge -useContext x6
  clear_value x6
  refine Same.ite ?_ ?_
  · refine Same.seq ?_ (pldEnd_same ..) (by decide)
    exact Same.refl _ _
  · refine Same.ite ?_ ?_
    · refine Same.seq ?_ (pldEnd_same ..) (by decide)
      exact Same.refl _ _
    · extract_lets +onlyGivenNames -merge -useContext x7
      have h7 : Same 274919849986 s x7 := by
        unfold x7
        refine Same.seq ?_ (extendPmr_same ..) (by decide)
        refine Same.seq ?_ (ungate_same ..) (by decide)
        exact Same.refl _ _
      clear_value x7
      extract_lets +onlyGivenNames -merge -useContext x8
      clear_value x8
      extract_lets +onlyGivenNames -merge -useContext x9
      have h9 : Same 274919849986 s x9 := by
        unfold x9
        refine Same.foldl _ _ _ ?_ ?_
        · intro x10 a10 h10
          refine Same.seq ?_ (placeImage_same ..) (by decide)
          refine Same.seq ?_ (unbind_same ..) (by decide)
          assumption
        · assumption
      clear_value x9
      extract_lets +onlyGivenNames -merge -useContext x11
      clear_value x11
      extract_lets +onlyGivenNames -merge -useContext x12
      have h12 : Same 274919849986 s x12 := by
        unfold x12
        refine Same.seq ?_ (purgeHandles_same ..) (by decide)
        refine Same.trans h9 ?_
        constructor <;> intro hb <;> first | rfl | exact absurd hb (by decide)
      clear_value x12
      extract_lets +onlyGivenNames -merge -useContext x13
      have h13 : Same 274919849986 s x13 := by
        unfold x13
        refine Same.foldl _ _ _ ?_ ?_
        · intro x14 a14 h14
          refine Same.seq ?_ (put_same ..) (by decide)
          assumption
        · assumption
      clear_value x13
      refine Same.seq ?_ (pldEnd_same ..) (by decide)
      assumption

theorem toTraining_same (s : State) (a1 : Nat) : Same 35184376284354 s (State.toTraining s a1) := by
  unfold State.toTraining
  extract_lets +onlyGivenNames -merge -useContext x1
  have h1 : Same 35184376284354 s x1 := by
    unfold x1
    refine Same.seq ?_ (put_same ..) (by decide)
    refine Same.seq ?_ (put_same ..) (by decide)
    exact Same.refl _ _
  clear_value x1
  extract_lets +onlyGivenNames -merge -useContext x2
  have h2 : Same 35184376284354 s x2 := by
    unfold x2
    refine Same.foldl _ _ _ ?_ ?_
    · intro x3 a3 h3
      split
      · rename_i v4 v5 v6 v7
        refine Same.seq ?_ (leave_same ..) (by decide)
        assumption
      · rename_i v8 v9
        assumption
    · assumption
  clear_value x2
  extract_lets +onlyGivenNames -merge -useContext x10
  clear_value x10
  extract_lets +onlyGivenNames -merge -useContext x11
  have h11 : Same 35184376284354 s x11 := by
    unfold x11
    refine Same.seq ?_ (setPort_same ..) (by decide)
    assumption
  clear_value x11
  refine Same.seq ?_ (refreshBackups_same ..) (by decide)
  refine Same.seq ?_ (discardQueued_same ..) (by decide)
  refine Same.seq ?_ (preemptOff_same ..) (by decide)
  assumption

theorem portsOff_same (s : State) : Same 35184376284354 s (State.portsOff s) := by
  unfold State.portsOff
  extract_lets +onlyGivenNames -merge -useContext x1
  have h1 : Same 35184376284354 s x1 := by
    unfold x1
    refine Same.foldl _ _ _ ?_ ?_
    · intro x2 a2 h2
      refine Same.seq ?_ (put_same ..) (by decide)
      refine Same.seq ?_ (toTraining_same ..) (by decide)
      assumption
    · exact Same.refl _ _
  clear_value x1
  extract_lets +onlyGivenNames -merge -useContext x3
  have h3 : Same 35184376284354 s x3 := by
    unfold x3
    refine Same.seq ?_ (put_same ..) (by decide)
    refine Same.seq ?_ (put_same ..) (by decide)
    assumption
  clear_value x3
  refine Same.seq ?_ (put_same ..) (by decide)
  refine Same.seq ?_ (put_same ..) (by decide)
  assumption

theorem progCross_same (s : State) (a1 : Nat) (a2 : Frame) (a3 : Nat) (a4 : Nat) : Same 35184372092874 s (State.progCross s a1 a2 a3 a4) := by
  unfold State.progCross
  extract_lets +onlyGivenNames -merge -useContext x1
  clear_value x1
  refine Same.ite ?_ ?_
  · refine Same.seq ?_ (crossFree_same ..) (by decide)
    exact Same.refl _ _
  · refine Same.ite ?_ ?_
    · refine Same.seq ?_ (cross_same ..) (by decide)
      exact Same.refl _ _
    · refine Same.seq ?_ (pathDrop_same ..) (by decide)
      refine Same.seq ?_ (count_same ..) (by decide)
      exact Same.refl _ _

theorem programLoad_same (s : State) (a1 : Nat) (a2 : HostId) (a3 : Nat) (a4 : Bool) : Same 112425240100922 s (State.programLoad s a1 a2 a3 a4) := by
  unfold State.programLoad
  extract_lets +onlyGivenNames -merge -useContext x1
  clear_value x1
  extract_lets +onlyGivenNames -merge -useContext x2
  clear_value x2
  extract_lets +onlyGivenNames -merge -useContext x3
  clear_value x3
  split
  · rename_i v4 v5 v6
    have h7 : Same 112425240100922 s v5 := by
      refine Same.of_fst v6 ?_
      refine Same.seq ?_ (memReadC_same ..) (by decide)
      exact Same.refl _ _
    exact Same.refl _ _
  · rename_i v8 v9 v10 v11 v12
    have h13 : Same 112425240100922 s v9 := by
      refine Same.of_fst v12 ?_
      refine Same.seq ?_ (memReadC_same ..) (by decide)
      exact Same.refl _ _
    refine Same.seq ?_ (pldEnd_same ..) (by decide)
    refine Same.seq ?_ (fresh_same ..) (by decide)
    assumption
  · rename_i v14 v15 v16 v17
    have h18 : Same 112425240100922 s v15 := by
      refine Same.of_fst v17 ?_
      refine Same.seq ?_ (memReadC_same ..) (by decide)
      exact Same.refl _ _
    refine Same.ite ?_ ?_
    · refine Same.seq ?_ (pldEnd_same ..) (by decide)
      assumption
    · refine Same.ite ?_ ?_
      · refine Same.seq ?_ (pldEnd_same ..) (by decide)
        assumption
      · extract_lets +onlyGivenNames -merge -useContext x19
        clear_value x19
        split
        · rename_i v20 v21 v22
          have h23 : Same 112425240100922 s v21 := by
            refine Same.of_fst v22 ?_
            refine Same.seq ?_ (imgSigned_same ..) (by decide)
            assumption
          refine Same.seq ?_ (pldPlace_same ..) (by decide)
          assumption
        · rename_i v24 v25 v26
          have h27 : Same 112425240100922 s v25 := by
            refine Same.of_fst v26 ?_
            refine Same.seq ?_ (imgSigned_same ..) (by decide)
            assumption
          refine Same.seq ?_ (pldEnd_same ..) (by decide)
          assumption

theorem qcmdEnd_same (s : State) (a1 : HostId) (a2 : Nat) : Same 35184372088882 s (State.qcmdEnd s a1 a2) := by
  unfold State.qcmdEnd
  refine Same.seq ?_ (vector_same ..) (by decide)
  refine Same.seq ?_ (put_same ..) (by decide)
  refine Same.seq ?_ (put_same ..) (by decide)
  refine Same.seq ?_ (put_same ..) (by decide)
  exact Same.refl _ _

theorem queueCreate_same (s : State) (a1 : HostId) (a2 : Nat) (a3 : List Byte) : Same 60473143722042 s (State.queueCreate s a1 a2 a3) := by
  unfold State.queueCreate
  refine Same.ite ?_ ?_
  · refine Same.seq ?_ (qcmdEnd_same ..) (by decide)
    exact Same.refl _ _
  · extract_lets +onlyGivenNames -merge -useContext x1
    clear_value x1
    refine Same.ite ?_ ?_
    · refine Same.seq ?_ (qcmdEnd_same ..) (by decide)
      exact Same.refl _ _
    · split
      · rename_i v2 v3
        refine Same.seq ?_ (qcmdEnd_same ..) (by decide)
        exact Same.refl _ _
      · rename_i v4 v5 v6
        refine Same.ite ?_ ?_
        · refine Same.seq ?_ (qcmdEnd_same ..) (by decide)
          exact Same.refl _ _
        · refine Same.ite ?_ ?_
          · refine Same.seq ?_ (qcmdEnd_same ..) (by decide)
            exact Same.refl _ _
          · split
            · rename_i v7 v8
              refine Same.seq ?_ (qcmdEnd_same ..) (by decide)
              exact Same.refl _ _
            · rename_i v9 v10 v11
              extract_lets +onlyGivenNames -merge -useContext x12
              have h12 : Same 60473143722042 s x12 := by
                unfold x12
                refine Same.seq ?_ (putDesc_same ..) (by decide)
                refine Same.seq ?_ (setQueue_same ..) (by decide)
                exact Same.refl _ _
              clear_value x12
              refine Same.seq ?_ (qcmdEnd_same ..) (by decide)
              refine Same.seq ?_ (put_same ..) (by decide)
              assumption

theorem queueDestroy_same (s : State) (a1 : HostId) (a2 : Nat) : Same 60473143722042 s (State.queueDestroy s a1 a2) := by
  unfold State.queueDestroy
  split
  · rename_i v1 v2
    refine Same.seq ?_ (qcmdEnd_same ..) (by decide)
    exact Same.refl _ _
  · rename_i v3 v4 v5
    refine Same.ite ?_ ?_
    · refine Same.seq ?_ (qcmdEnd_same ..) (by decide)
      exact Same.refl _ _
    · refine Same.ite ?_ ?_
      · refine Same.seq ?_ (qcmdEnd_same ..) (by decide)
        exact Same.refl _ _
      · refine Same.seq ?_ (qcmdEnd_same ..) (by decide)
        refine Same.seq ?_ (dropQueue_same ..) (by decide)
        exact Same.refl _ _

theorem queueModify_same (s : State) (a1 : HostId) (a2 : Nat) (a3 : List Byte) : Same 60473143722042 s (State.queueModify s a1 a2 a3) := by
  unfold State.queueModify
  split
  · rename_i v1 v2
    refine Same.seq ?_ (qcmdEnd_same ..) (by decide)
    exact Same.refl _ _
  · rename_i v3 v4 v5
    refine Same.ite ?_ ?_
    · refine Same.seq ?_ (qcmdEnd_same ..) (by decide)
      exact Same.refl _ _
    · split
      · rename_i v6 v7
        refine Same.seq ?_ (qcmdEnd_same ..) (by decide)
        exact Same.refl _ _
      · rename_i v8 v9 v10
        extract_lets +onlyGivenNames -merge -useContext x11
        refine Same.ite ?_ ?_
        · refine Same.seq ?_ (qcmdEnd_same ..) (by decide)
          exact Same.refl _ _
        · refine Same.seq ?_ (qcmdEnd_same ..) (by decide)
          refine Same.seq ?_ (putDesc_same ..) (by decide)
          refine Same.seq ?_ (setQueue_same ..) (by decide)
          exact Same.refl _ _

theorem queueQuery_same (s : State) (a1 : HostId) (a2 : Nat) (a3 : Nat) : Same 41781441855538 s (State.queueQuery s a1 a2 a3) := by
  unfold State.queueQuery
  split
  · rename_i v1 v2
    refine Same.seq ?_ (qcmdEnd_same ..) (by decide)
    exact Same.refl _ _
  · rename_i v3 v4 v5
    refine Same.ite ?_ ?_
    · refine Same.seq ?_ (qcmdEnd_same ..) (by decide)
      exact Same.refl _ _
    · refine Same.seq ?_ (qcmdEnd_same ..) (by decide)
      refine Same.seq ?_ (writeHost_same ..) (by decide)
      exact Same.refl _ _

theorem regRead_same (s : State) (a1 : Nat) : Same 70643622084614 s (State.regRead s a1) := by
  unfold State.regRead
  split
  · rename_i v1 v2
    exact Same.refl _ _
  · rename_i v3 v4 v5 v6
    extract_lets +onlyGivenNames -merge -useContext x7
    clear_value x7
    refine Same.ite ?_ ?_
    · refine Same.seq ?_ (latchNow_same ..) (by decide)
      exact Same.refl _ _
    · refine Same.ite ?_ ?_
      · constructor <;> intro hb <;> first | rfl | exact absurd hb (by decide)
      · refine Same.ite ?_ ?_
        · refine Same.seq ?_ (fresh_same ..) (by decide)
          exact Same.refl _ _
        · refine Same.ite ?_ ?_
          · refine Same.seq ?_ (setReg_same ..) (by decide)
            exact Same.refl _ _
          · exact Same.refl _ _

theorem readWord_same (s : State) (a1 : Nat) : Same 70643622084614 s (State.readWord s a1).1 := by
  unfold State.readWord
  split
  · rename_i v1 v2 v3 v4
    dsimp only
    exact Same.refl _ _
  · rename_i v5 v6
    dsimp only
    refine Same.seq ?_ (regRead_same ..) (by decide)
    exact Same.refl _ _

theorem tellLib_same (s : State) (a1 : Nat) (a2 : RedDesc) (a3 : Nat) : Same 4294967296 s (State.tellLib s a1 a2 a3) := by
  unfold State.tellLib
  constructor <;> intro hb <;> first | rfl | exact absurd hb (by decide)

theorem redDone_same (s : State) (a1 : Nat) (a2 : RedSeg) : Same 4311744514 s (State.redDone s a1 a2) := by
  unfold State.redDone
  extract_lets +onlyGivenNames -merge -useContext x1
  have h1 : Same 4311744514 s x1 := by
    unfold x1
    refine Same.seq ?_ (dropSeg_same ..) (by decide)
    exact Same.refl _ _
  clear_value x1
  refine Same.ite ?_ ?_
  · refine Same.seq ?_ (tellLib_same ..) (by decide)
    assumption
  · assumption

theorem redErr_same (s : State) (a1 : Nat) (a2 : Nat) (a3 : Nat) : Same 2 s (State.redErr s a1 a2 a3) := by
  unfold State.redErr
  refine Same.seq ?_ (put_same ..) (by decide)
  refine Same.seq ?_ (put_same ..) (by decide)
  exact Same.refl _ _

theorem redFail_same (s : State) (a1 : Nat) (a2 : RedSeg) (a3 : RedPost) (a4 : Nat) : Same 60477459660858 s (State.redFail s a1 a2 a3 a4) := by
  unfold State.redFail
  extract_lets +onlyGivenNames -merge -useContext x1
  clear_value x1
  extract_lets +onlyGivenNames -merge -useContext x2
  have h2 : Same 60477459660858 s x2 := by
    unfold x2
    refine Same.foldl _ _ _ ?_ ?_
    · intro x3 a3 h3
      refine Same.seq ?_ (signal_same ..) (by decide)
      assumption
    · exact Same.refl _ _
  clear_value x2
  extract_lets +onlyGivenNames -merge -useContext x4
  have h4 : Same 60477459660858 s x4 := by
    unfold x4
    refine Same.seq ?_ (count_same ..) (by decide)
    refine Same.seq ?_ (redErr_same ..) (by decide)
    refine Same.seq ?_ (signal_same ..) (by decide)
    assumption
  clear_value x4
  extract_lets +onlyGivenNames -merge -useContext x5
  have h5 : Same 60477459660858 s x5 := by
    unfold x5
    refine Same.ite ?_ ?_
    · refine Same.seq ?_ (tellLib_same ..) (by decide)
      assumption
    · assumption
  clear_value x5
  refine Same.ite ?_ ?_
  · refine Same.seq ?_ (dropSeg_same ..) (by decide)
    assumption
  · refine Same.seq ?_ (modSeg_same ..) (by decide)
    assumption

theorem redRead_same (s : State) (a1 : Nat) (a2 : RedSeg) (a3 : RedPost) : Same 60477459660858 s (State.redRead s a1 a2 a3) := by
  unfold State.redRead
  extract_lets +onlyGivenNames -merge -useContext x1
  clear_value x1
  extract_lets +onlyGivenNames -merge -useContext x2
  clear_value x2
  split
  · rename_i v3 v4 v5 v6 v7
    have h8 : Same 60477459660858 s v5 := by
      refine Same.of_fst v7 ?_
      refine Same.seq ?_ (memReadC_same ..) (by decide)
      exact Same.refl _ _
    refine Same.seq ?_ (redFail_same ..) (by decide)
    assumption
  · rename_i v9 v10 v11 v12 v13 v14 v15 v16
    have h17 : Same 60477459660858 s v11 := by
      refine Same.of_fst v15 ?_
      refine Same.seq ?_ (memReadC_same ..) (by decide)
      exact Same.refl _ _
    refine Same.seq ?_ (redFail_same ..) (by decide)
    assumption
  · rename_i v18 v19 v20 v21 v22 v23
    have h24 : Same 60477459660858 s v20 := by
      refine Same.of_fst v22 ?_
      refine Same.seq ?_ (memReadC_same ..) (by decide)
      exact Same.refl _ _
    refine Same.seq ?_ (signal_same ..) (by decide)
    refine Same.seq ?_ (modSeg_same ..) (by decide)
    assumption

theorem redRefuse_same (s : State) (a1 : Nat) (a2 : RedPost) (a3 : Nat) : Same 60477442883642 s (State.redRefuse s a1 a2 a3) := by
  unfold State.redRefuse
  extract_lets +onlyGivenNames -merge -useContext x1
  have h1 : Same 60477442883642 s x1 := by
    unfold x1
    refine Same.seq ?_ (count_same ..) (by decide)
    refine Same.seq ?_ (redErr_same ..) (by decide)
    refine Same.seq ?_ (signal_same ..) (by decide)
    exact Same.refl _ _
  clear_value x1
  refine Same.ite ?_ ?_
  · refine Same.seq ?_ (tellLib_same ..) (by decide)
    assumption
  · assumption

theorem redTake_same (s : State) (a1 : Nat) (a2 : RedPost) : Same 60477459660858 s (State.redTake s a1 a2) := by
  unfold State.redTake
  extract_lets +onlyGivenNames -merge -useContext x1
  clear_value x1
  extract_lets +onlyGivenNames -merge -useContext x2
  clear_value x2
  refine Same.ite ?_ ?_
  · refine Same.seq ?_ (redRefuse_same ..) (by decide)
    exact Same.refl _ _
  · split
    · rename_i v3 v4 v5
      split
      · rename_i v6 v7 v8
        extract_lets +onlyGivenNames -merge -useContext x9
        have h9 : Same 60477459660858 s x9 := by
          unfold x9
          refine Same.seq ?_ (redRefuse_same ..) (by decide)
          exact Same.refl _ _
        clear_value x9
        refine Same.ite ?_ ?_
        · assumption
        · refine Same.ite ?_ ?_
          · refine Same.seq ?_ (dropSeg_same ..) (by decide)
            assumption
          · refine Same.seq ?_ (modSeg_same ..) (by decide)
            assumption
      · rename_i v10 v11
        refine Same.ite ?_ ?_
        · refine Same.seq ?_ (redRefuse_same ..) (by decide)
          exact Same.refl _ _
        · refine Same.seq ?_ (redRead_same ..) (by decide)
          exact Same.refl _ _
    · rename_i v12 v13
      split
      · rename_i v14 v15
        extract_lets +onlyGivenNames -merge -useContext x16
        clear_value x16
        extract_lets +onlyGivenNames -merge -useContext x17
        clear_value x17
        extract_lets +onlyGivenNames -merge -useContext x18
        clear_value x18
        extract_lets +onlyGivenNames -merge -useContext x19
        have h19 : Same 60477459660858 s x19 := by
          unfold x19
          refine Same.seq ?_ (showRed_same ..) (by decide)
          refine Same.seq ?_ (setCluster_same ..) (by decide)
          exact Same.refl _ _
        clear_value x19
        refine Same.seq ?_ (redRead_same ..) (by decide)
        refine Same.ite ?_ ?_
        · refine Same.seq ?_ (count_same ..) (by decide)
          assumption
        · assumption
      · rename_i v20 v21
        extract_lets +onlyGivenNames -merge -useContext x22
        clear_value x22
        extract_lets +onlyGivenNames -merge -useContext x23
        clear_value x23
        extract_lets +onlyGivenNames -merge -useContext x24
        clear_value x24
        extract_lets +onlyGivenNames -merge -useContext x25
        have h25 : Same 60477459660858 s x25 := by
          unfold x25
          refine Same.seq ?_ (showRed_same ..) (by decide)
          refine Same.seq ?_ (setCluster_same ..) (by decide)
          exact Same.refl _ _
        clear_value x25
        refine Same.seq ?_ (redRead_same ..) (by decide)
        refine Same.ite ?_ ?_
        · refine Same.seq ?_ (count_same ..) (by decide)
          assumption
        · assumption
      · rename_i v26 v27 v28
        refine Same.seq ?_ (redRefuse_same ..) (by decide)
        exact Same.refl _ _

theorem redWrites_same (s : State) (a1 : Nat) (a2 : RedSeg) (a3 : List (Nat × Nat)) : Same 60477459660858 s (State.redWrites s a1 a2 a3) := by
  induction a3 generalizing s a1 a2 with
  | nil =>
    rw [State.redWrites]
    refine Same.seq ?_ (redDone_same ..) (by decide)
    exact Same.refl _ _
  | cons b l ih =>
    rw [State.redWrites]
    split
    · rename_i v1 v2 v3
      have h4 : Same 60477459660858 s v2 := by
        refine Same.of_fst v3 ?_
        refine Same.seq ?_ (memWriteC_same ..) (by decide)
        exact Same.refl _ _
      assumption
    · rename_i v5 v6 v7 v8 v9
      have h10 : Same 60477459660858 s v6 := by
        refine Same.of_fst v9 ?_
        refine Same.seq ?_ (memWriteC_same ..) (by decide)
        exact Same.refl _ _
      extract_lets +onlyGivenNames -merge -useContext x11
      have h11 : Same 60477459660858 s x11 := by
        unfold x11
        refine Same.ite ?_ ?_
        · refine Same.seq ?_ (tellLib_same ..) (by decide)
          assumption
        · assumption
      clear_value x11
      refine Same.seq ?_ (ih ..) (by decide)
      refine Same.seq ?_ (modSeg_same ..) (by decide)
      assumption
    · rename_i v12 v13 v14 v15
      have h16 : Same 60477459660858 s v13 := by
        refine Same.of_fst v15 ?_
        refine Same.seq ?_ (memWriteC_same ..) (by decide)
        exact Same.refl _ _
      refine Same.seq ?_ (ih ..) (by decide)
      refine Same.seq ?_ (signal_same ..) (by decide)
      refine Same.seq ?_ (modSeg_same ..) (by decide)
      assumption

theorem resumeEntry_same (s : State) (a1 : Nat) (a2 : Nat) : Same 130912765308922 s (State.resumeEntry s a1 a2) := by
  unfold State.resumeEntry
  extract_lets +onlyGivenNames -merge -useContext x1
  have h1 : Same 130912765308922 s x1 := by
    unfold x1
    refine Same.seq ?_ (modLive_same ..) (by decide)
    exact Same.refl _ _
  clear_value x1
  split
  · rename_i v2 v3 v4 v5
    refine Same.ite ?_ ?_
    · refine Same.seq ?_ (copyBlocks_same ..) (by decide)
      assumption
    · split
      · rename_i v6 v7 v8
        refine Same.seq ?_ (pump_same ..) (by decide)
        assumption
      · rename_i v9 v10
        assumption
  · rename_i v11 v12
    assumption

theorem release_same (s : State) (a1 : Nat) (a2 : FaultWaiter) : Same 131187643215866 s (State.release s a1 a2) := by
  unfold State.release
  split
  · rename_i v1 v2
    refine Same.seq ?_ (writeReady_same ..) (by decide)
    refine Same.seq ?_ (modTile_same ..) (by decide)
    exact Same.refl _ _
  · rename_i v3 v4 v5
    refine Same.seq ?_ (resumeEntry_same ..) (by decide)
    exact Same.refl _ _
  · rename_i v6 v7
    refine Same.seq ?_ (modQp_same ..) (by decide)
    exact Same.refl _ _
  · rename_i v8 v9 v10 v11
    refine Same.seq ?_ (modXfer_same ..) (by decide)
    exact Same.refl _ _

theorem reopen_same (s : State) (a1 : HostId) (a2 : FaultEntry) : Same 458754 s (State.reopen s a1 a2) := by
  unfold State.reopen
  extract_lets +onlyGivenNames -merge -useContext x1
  clear_value x1
  extract_lets +onlyGivenNames -merge -useContext x2
  clear_value x2
  extract_lets +onlyGivenNames -merge -useContext x3
  clear_value x3
  extract_lets +onlyGivenNames -merge -useContext x4
  clear_value x4
  extract_lets +onlyGivenNames -merge -useContext x5
  have h5 : Same 458754 s x5 := by
    unfold x5
    refine Same.seq ?_ (setSheep_same ..) (by decide)
    exact Same.refl _ _
  clear_value x5
  refine Same.foldl _ _ _ ?_ ?_
  · intro x6 a6 h6
    split
    · rename_i v7 v8
      refine Same.seq ?_ (modTile_same ..) (by decide)
      assumption
    · rename_i v9 v10
      assumption
  · assumption

theorem request_same (s : State) (a1 : Nat) (a2 : Qp) (a3 : TPkt) (t : State) (h : State.request s a1 a2 a3 = some t) : Same 130912766652410 s t := by
  unfold State.request at h
  extract_lets +onlyGivenNames -merge -useContext x1 at h
  clear_value x1
  extract_lets +onlyGivenNames -merge -useContext x2 at h
  clear_value x2
  split at h
  · rename_i v3
    injection h with h
    refine Same.of_eq h ?_
    refine Same.seq ?_ (acceptResync_same ..) (by decide)
    exact Same.refl _ _
  · rename_i v4
    split at h
    · rename_i v5
      split at h
      · rename_i v6
        injection h with h
        refine Same.of_eq h ?_
        refine Same.seq ?_ (nak_same ..) (by decide)
        exact Same.refl _ _
      · rename_i v7
        split at h
        · rename_i v8 v9
          refine Same.seq ?_ (acceptWrite_same (h := h) ..) (by decide)
          exact Same.refl _ _
        · rename_i v10 v11
          refine Same.seq ?_ (acceptRead_same (h := h) ..) (by decide)
          exact Same.refl _ _
        · rename_i v12 v13
          refine Same.seq ?_ (acceptAtomic_same (h := h) ..) (by decide)
          exact Same.refl _ _
        · rename_i v14 v15
          refine Same.seq ?_ (acceptAtomic_same (h := h) ..) (by decide)
          exact Same.refl _ _
        · rename_i v16 v17 v18 v19 v20
          refine Same.seq ?_ (acceptSend_same (h := h) ..) (by decide)
          exact Same.refl _ _
    · rename_i v21
      split at h
      · rename_i v22
        split at h
        · rename_i v23
          injection h with h
          refine Same.of_eq h ?_
          exact Same.refl _ _
        · rename_i v24
          extract_lets +onlyGivenNames -merge -useContext x25 at h
          have h25 : Same 130912766652410 s x25 := by
            unfold x25
            refine Same.seq ?_ (modQp_same ..) (by decide)
            refine Same.seq ?_ (count_same ..) (by decide)
            exact Same.refl _ _
          clear_value x25
          injection h with h
          refine Same.of_eq h ?_
          refine Same.seq ?_ (nak_same ..) (by decide)
          assumption
      · rename_i v26
        split at h
        · rename_i v27 v28
          split at h
          · rename_i v29
            injection h with h
            refine Same.of_eq h ?_
            refine Same.seq ?_ (nak_same ..) (by decide)
            exact Same.refl _ _
          · rename_i v30
            refine Same.seq ?_ (acceptRead_same (h := h) ..) (by decide)
            exact Same.refl _ _
        · rename_i v31 v32
          split at h
          · rename_i v33 v34 v35
            injection h with h
            refine Same.of_eq h ?_
            refine Same.seq ?_ (answer_same ..) (by decide)
            exact Same.refl _ _
          · rename_i v36 v37
            injection h with h
            refine Same.of_eq h ?_
            exact Same.refl _ _
        · rename_i v38 v39
          split at h
          · rename_i v40 v41 v42
            injection h with h
            refine Same.of_eq h ?_
            refine Same.seq ?_ (answer_same ..) (by decide)
            exact Same.refl _ _
          · rename_i v43 v44
            injection h with h
            refine Same.of_eq h ?_
            exact Same.refl _ _
        · rename_i v45 v46 v47 v48
          extract_lets +onlyGivenNames -merge -useContext x49 at h
          clear_value x49
          injection h with h
          refine Same.of_eq h ?_
          refine Same.seq ?_ (answer_same ..) (by decide)
          refine Same.seq ?_ (oweVis_same ..) (by decide)
          exact Same.refl _ _

theorem rereadEntry_same (s : State) (a1 : Nat) (a2 : Live) : Same 41781446049850 s (State.rereadEntry s a1 a2) := by
  unfold State.rereadEntry
  split
  · rename_i v1 v2
    exact Same.refl _ _
  · rename_i v3 v4 v5
    split
    · rename_i v6 v7 v8 v9
      have h10 : Same 41781446049850 s v7 := by
        refine Same.of_fst v9 ?_
        refine Same.seq ?_ (memReadC_same ..) (by decide)
        exact Same.refl _ _
      extract_lets +onlyGivenNames -merge -useContext x11
      clear_value x11
      refine Same.ite ?_ ?_
      · refine Same.seq ?_ (modLive_same ..) (by decide)
        assumption
      · refine Same.seq ?_ (setQueue_same ..) (by decide)
        assumption
    · rename_i v12 v13 v14 v15
      have h16 : Same 41781446049850 s v13 := by
        refine Same.of_fst v15 ?_
        refine Same.seq ?_ (memReadC_same ..) (by decide)
        exact Same.refl _ _
      refine Same.seq ?_ (modLive_same ..) (by decide)
      assumption

theorem reread_same (s : State) (a1 : Nat) : Same 41781446049850 s (State.reread s a1) := by
  unfold State.reread
  split
  · rename_i v1 v2
    exact Same.refl _ _
  · rename_i v3 v4 v5
    refine Same.foldl _ _ _ ?_ ?_
    · intro x6 a6 h6
      refine Same.seq ?_ (rereadEntry_same ..) (by decide)
      assumption
    · exact Same.refl _ _

theorem resident_same (k : Nat) (s : State) (c : Nat) (act : State → State) (hk : 60750178558010 ||| k = k) (ha : ∀ x, Same k x (act x)) : Same k s (s.resident c act) := by
  unfold State.resident
  exact Same.ite (ha s) ((raise_same ..).mono hk)

theorem restoreQueues_same (s : State) (a1 : List (QpCtx × Nat)) (a2 : List (Nat × Queue)) (a3 : List (List Byte)) (t : State) (h : State.restoreQueues s a1 a2 a3 = some t) : Same 60473143722042 s t := by
  induction a2 generalizing s a1 a3 t with
  | nil =>
    rw [State.restoreQueues] at h
    injection h with h
    refine Same.of_eq h ?_
    exact Same.refl _ _
  | cons b l ih =>
    rw [State.restoreQueues] at h
    split at h
    · rename_i v1 v2
      cases h
    · rename_i v3 v4 v5
      extract_lets +onlyGivenNames -merge -useContext x6 at h
      clear_value x6
      extract_lets +onlyGivenNames -merge -useContext x7 at h
      clear_value x7
      extract_lets +onlyGivenNames -merge -useContext x8 at h
      clear_value x8
      extract_lets +onlyGivenNames -merge -useContext x9 at h
      have h9 : Same 60473143722042 s x9 := by
        unfold x9
        refine Same.seq ?_ (putDesc_same ..) (by decide)
        refine Same.seq ?_ (setQueue_same ..) (by decide)
        exact Same.refl _ _
      clear_value x9
      extract_lets +onlyGivenNames -merge -useContext x10 at h
      have h10 : Same 60473143722042 s x10 := by
        unfold x10
        refine Same.ite ?_ ?_
        · refine Same.seq ?_ (sysWrite_same ..) (by decide)
          assumption
        · assumption
      clear_value x10
      refine Same.seq ?_ (ih (h := h) ..) (by decide)
      refine Same.seq ?_ (put_same ..) (by decide)
      assumption

theorem restoreQps_same (s : State) (a1 : List (QpCtx × Nat)) (t : State) (h : State.restoreQps s a1 = some t) : Same 60473139552314 s t := by
  induction a1 generalizing s t with
  | nil =>
    rw [State.restoreQps] at h
    injection h with h
    refine Same.of_eq h ?_
    exact Same.refl _ _
  | cons b l ih =>
    rw [State.restoreQps] at h
    split at h
    · rename_i v1 v2
      cases h
    · rename_i v3 v4 v5
      extract_lets +onlyGivenNames -merge -useContext x6 at h
      have h6 : Same 60473139552314 s x6 := by
        unfold x6
        refine Same.seq ?_ (setQp_same ..) (by decide)
        exact Same.refl _ _
      clear_value x6
      extract_lets +onlyGivenNames -merge -useContext x7 at h
      clear_value x7
      extract_lets +onlyGivenNames -merge -useContext x8 at h
      have h8 : Same 60473139552314 s x8 := by
        unfold x8
        refine Same.ite ?_ ?_
        · refine Same.trans h6 ?_
          constructor <;> intro hb <;> first | rfl | exact absurd hb (by decide)
        · assumption
      clear_value x8
      extract_lets +onlyGivenNames -merge -useContext x9 at h
      have h9 : Same 60473139552314 s x9 := by
        unfold x9
        refine Same.seq ?_ (put_same ..) (by decide)
        assumption
      clear_value x9
      refine Same.seq ?_ (ih (h := h) ..) (by decide)
      refine Same.seq ?_ (bringIn_same ..) (by decide)
      refine Same.seq ?_ (spill_same ..) (by decide)
      assumption

theorem partHoldingEff_same (a0 : Nat) (a1 : Word) (s : State) : Same 2 s (partHoldingEff a0 a1 s) := by
  unfold partHoldingEff
  extract_lets +onlyGivenNames -merge -useContext x1
  clear_value x1
  extract_lets +onlyGivenNames -merge -useContext x2
  have h2 : Same 2 s x2 := by
    unfold x2
    refine Same.seq ?_ (applyWrite_same ..) (by decide)
    exact Same.refl _ _
  clear_value x2
  extract_lets +onlyGivenNames -merge -useContext x3
  clear_value x3
  refine Same.ite ?_ ?_
  · assumption
  · refine Same.ite ?_ ?_
    · refine Same.seq ?_ (put_same ..) (by decide)
      exact Same.refl _ _
    · refine Same.ite ?_ ?_
      · refine Same.seq ?_ (showHolders_same ..) (by decide)
        assumption
      · assumption

theorem restoreCore_same (s : State) (a1 : Nat) (a2 : List Byte) : Same 70643630473218 s (State.restoreCore s a1 a2) := by
  unfold State.restoreCore
  extract_lets +onlyGivenNames -merge -useContext x1
  clear_value x1
  extract_lets +onlyGivenNames -merge -useContext x2
  clear_value x2
  extract_lets +onlyGivenNames -merge -useContext x3
  clear_value x3
  extract_lets +onlyGivenNames -merge -useContext x4
  clear_value x4
  split
  · rename_i v5 v6
    exact Same.refl _ _
  · rename_i v7 v8 v9
    refine Same.ite ?_ ?_
    · exact Same.refl _ _
    · extract_lets +onlyGivenNames -merge -useContext x10
      have h10 : Same 70643630473218 s x10 := by
        unfold x10
        refine Same.seq ?_ (placeImage_same ..) (by decide)
        refine Same.seq ?_ (ungate_same ..) (by decide)
        exact Same.refl _ _
      clear_value x10
      extract_lets +onlyGivenNames -merge -useContext x11
      clear_value x11
      extract_lets +onlyGivenNames -merge -useContext x12
      extract_lets +onlyGivenNames -merge -useContext x13
      extract_lets +onlyGivenNames -merge -useContext x14
      extract_lets +onlyGivenNames -merge -useContext x15
      have h15 : Same 70643630473218 s x15 := by
        unfold x15
        refine Same.seq ?_ (modCore_same ..) (by decide)
        assumption
      clear_value x15
      refine Same.seq ?_ (showEvents_same ..) (by decide)
      refine Same.seq ?_ (setCoreSt_same ..) (by decide)
      refine Same.seq ?_ (fresh_same ..) (by decide)
      assumption

theorem restoreRecords_same (s : State) (a1 : Nat) (a2 : Bool) (a3 : SaveImage) (t : State) (h : State.restoreRecords s a1 a2 a3 = some t) : Same 131116775301178 s t := by
  unfold State.restoreRecords at h
  split at h
  · rename_i v1 v2
    cases h
  · rename_i v3 v4 v5
    have h6 : Same 131116775301178 s v4 := by
      refine Same.seq ?_ (restoreQueues_same (h := v5) ..) (by decide)
      exact Same.refl _ _
    split at h
    · rename_i v7 v8
      cases h
    · rename_i v9 v10 v11
      have h12 : Same 131116775301178 s v10 := by
        refine Same.seq ?_ (restoreQps_same (h := v11) ..) (by decide)
        assumption
      extract_lets +onlyGivenNames -merge -useContext x13 at h
      have h13 : Same 131116775301178 s x13 := by
        unfold x13
        refine Same.foldl _ _ _ ?_ ?_
        · intro x14 a14 h14
          refine Same.seq ?_ (put_same ..) (by decide)
          refine Same.seq ?_ (put_same ..) (by decide)
          assumption
        · assumption
      clear_value x13
      extract_lets +onlyGivenNames -merge -useContext x15 at h
      have h15 : Same 131116775301178 s x15 := by
        unfold x15
        refine Same.foldl _ _ _ ?_ ?_
        · intro x16 a16 h16
          extract_lets +onlyGivenNames -merge -useContext x17
          have h17 : Same 131116775301178 s x17 := by
            unfold x17
            refine Same.seq ?_ (setWin_same ..) (by decide)
            assumption
          clear_value x17
          refine Same.trans h17 ?_
          constructor <;> intro hb <;> first | rfl | exact absurd hb (by decide)
        · assumption
      clear_value x15
      extract_lets +onlyGivenNames -merge -useContext x18 at h
      have h18 : Same 131116775301178 s x18 := by
        unfold x18
        refine Same.foldl _ _ _ ?_ ?_
        · intro x19 a19 h19
          refine Same.seq ?_ (setTrig_same ..) (by decide)
          assumption
        · assumption
      clear_value x18
      extract_lets +onlyGivenNames -merge -useContext x20 at h
      clear_value x20
      extract_lets +onlyGivenNames -merge -useContext x21 at h
      have h21 : Same 131116775301178 s x21 := by
        unfold x21
        refine Same.foldl _ _ _ ?_ ?_
        · intro x22 a22 h22
          refine Same.seq ?_ (partHoldingEff_same ..) (by decide)
          assumption
        · refine Same.seq ?_ (put_same ..) (by decide)
          assumption
      clear_value x21
      extract_lets +onlyGivenNames -merge -useContext x23 at h
      have h23 : Same 131116775301178 s x23 := by
        unfold x23
        refine Same.ite ?_ ?_
        · refine Same.foldl _ _ _ ?_ ?_
          · intro x24 a24 h24
            refine Same.seq ?_ (restoreCore_same ..) (by decide)
            assumption
          · refine Same.seq ?_ (put_same ..) (by decide)
            assumption
        · assumption
      clear_value x23
      injection h with h
      refine Same.of_eq h ?_
      refine Same.seq ?_ (showInsts_same ..) (by decide)
      assumption

theorem restore_same (s : State) (a1 : HostId) (a2 : Nat) (a3 : Option Nat) : Same 131116775301178 s (State.restore s a1 a2 a3) := by
  unfold State.restore
  extract_lets +onlyGivenNames -merge -useContext x1
  have h1 : Same 131116775301178 s x1 := by
    unfold x1
    refine Same.ite ?_ ?_
    · refine Same.seq ?_ (notListed_same ..) (by decide)
      exact Same.refl _ _
    · exact Same.refl _ _
  clear_value x1
  refine Same.ite ?_ ?_
  · refine Same.seq ?_ (partCmdEnd_same ..) (by decide)
    assumption
  · split
    · rename_i v2 v3 v4 v5 v6 v7
      extract_lets +onlyGivenNames -merge -useContext x8
      clear_value x8
      split
      · rename_i v9 v10 v11 v12
        have h13 : Same 131116775301178 s v10 := by
          refine Same.of_fst v12 ?_
          refine Same.seq ?_ (memReadC_same ..) (by decide)
          assumption
        refine Same.seq ?_ (partCmdEnd_same ..) (by decide)
        assumption
      · rename_i v14 v15 v16 v17
        have h18 : Same 131116775301178 s v15 := by
          refine Same.of_fst v17 ?_
          refine Same.seq ?_ (memReadC_same ..) (by decide)
          assumption
        extract_lets +onlyGivenNames -merge -useContext x19
        clear_value x19
        extract_lets +onlyGivenNames -merge -useContext x20
        clear_value x20
        extract_lets +onlyGivenNames -merge -useContext x21
        clear_value x21
        extract_lets +onlyGivenNames -merge -useContext x22
        clear_value x22
        refine Same.ite ?_ ?_
        · refine Same.seq ?_ (partCmdEnd_same ..) (by decide)
          assumption
        · refine Same.ite ?_ ?_
          · refine Same.seq ?_ (partCmdEnd_same ..) (by decide)
            assumption
          · refine Same.ite ?_ ?_
            · refine Same.seq ?_ (partCmdEnd_same ..) (by decide)
              assumption
            · split
              · rename_i v23 v24
                refine Same.seq ?_ (partCmdEnd_same ..) (by decide)
                assumption
              · rename_i v25 v26 v27
                refine Same.ite ?_ ?_
                · refine Same.seq ?_ (partCmdEnd_same ..) (by decide)
                  assumption
                · split
                  · rename_i v28 v29
                    refine Same.seq ?_ (partCmdEnd_same ..) (by decide)
                    assumption
                  · rename_i v30 v31 v32
                    have h33 : Same 131116775301178 s v31 := by
                      refine Same.seq ?_ (restoreRecords_same (h := v32) ..) (by decide)
                      assumption
                    refine Same.seq ?_ (partCmdEnd_same ..) (by decide)
                    assumption
    · rename_i v34 v35 v36
      refine Same.seq ?_ (partCmdEnd_same ..) (by decide)
      assumption

theorem resume_same (s : State) (a1 : Tests) : Same 272509615734778 s (State.resume s a1) := by
  unfold State.resume
  refine Same.ite ?_ ?_
  · refine Same.seq ?_ (testAndLoad_same ..) (by decide)
    exact Same.refl _ _
  · exact Same.refl _ _

theorem rnrOut_same (s : State) (a1 : Nat) : Same 130912764522490 s (State.rnrOut s a1) := by
  unfold State.rnrOut
  split
  · rename_i v1 v2
    exact Same.refl _ _
  · rename_i v3 v4 v5
    split
    · rename_i v6 v7
      exact Same.refl _ _
    · rename_i v8 v9 v10
      extract_lets +onlyGivenNames -merge -useContext x11
      have h11 : Same 130912764522490 s x11 := by
        unfold x11
        refine Same.seq ?_ (modQp_same ..) (by decide)
        exact Same.refl _ _
      clear_value x11
      refine Same.ite ?_ ?_
      · assumption
      · refine Same.seq ?_ (pump_same ..) (by decide)
        refine Same.seq ?_ (resend_same ..) (by decide)
        assumption

theorem timerOut_same (s : State) (a1 : Nat) : Same 130912764522490 s (State.timerOut s a1) := by
  unfold State.timerOut
  split
  · rename_i v1 v2
    exact Same.refl _ _
  · rename_i v3 v4 v5
    refine Same.ite ?_ ?_
    · refine Same.seq ?_ (goBack_same ..) (by decide)
      exact Same.refl _ _
    · exact Same.refl _ _

theorem visOut_same (s : State) (a1 : Nat) (a2 : Nat) : Same 41781441867770 s (State.visOut s a1 a2) := by
  unfold State.visOut
  split
  · rename_i v1 v2 v3
    refine Same.ite ?_ ?_
    · refine Same.seq ?_ (answer_same ..) (by decide)
      refine Same.seq ?_ (setQp_same ..) (by decide)
      exact Same.refl _ _
    · exact Same.refl _ _
  · rename_i v4 v5
    exact Same.refl _ _

theorem runJob_same (s : State) (a1 : Nat) (a2 : CtxJob) : Same 130912764522490 s (State.runJob s a1 a2) := by
  unfold State.runJob
  split
  · rename_i v1 v2 v3 v4 v5
    refine Same.seq ?_ (kennelAct_same ..) (by decide)
    exact Same.refl _ _
  · rename_i v6
    refine Same.seq ?_ (timerOut_same ..) (by decide)
    exact Same.refl _ _
  · rename_i v7
    refine Same.seq ?_ (rnrOut_same ..) (by decide)
    exact Same.refl _ _
  · rename_i v8
    refine Same.seq ?_ (ackDelayOut_same ..) (by decide)
    exact Same.refl _ _
  · rename_i v9 v10
    refine Same.seq ?_ (visOut_same ..) (by decide)
    exact Same.refl _ _
  · rename_i v11
    refine Same.seq ?_ (pump_same ..) (by decide)
    exact Same.refl _ _
  · rename_i v12 v13 v14
    refine Same.seq ?_ (abortRun_same ..) (by decide)
    exact Same.refl _ _

theorem rxContainer_same (a0 : Nat) (a1 : Bool) (s : State) (a3 : Container) : Same 35184372092874 s (State.rxContainer a0 a1 s a3) := by
  unfold State.rxContainer
  extract_lets +onlyGivenNames -merge -useContext x1
  clear_value x1
  refine Same.ite ?_ ?_
  · refine Same.seq ?_ (count_same ..) (by decide)
    exact Same.refl _ _
  · refine Same.ite ?_ ?_
    · exact Same.refl _ _
    · extract_lets +onlyGivenNames -merge -useContext x2
      clear_value x2
      extract_lets +onlyGivenNames -merge -useContext x3
      have h3 : Same 35184372092874 s x3 := by
        unfold x3
        refine Same.seq ?_ (markLive_same ..) (by decide)
        exact Same.refl _ _
      clear_value x3
      extract_lets +onlyGivenNames -merge -useContext x4
      clear_value x4
      extract_lets +onlyGivenNames -merge -useContext x5
      have h5 : Same 35184372092874 s x5 := by
        unfold x5
        refine Same.ite ?_ ?_
        · refine Same.seq ?_ (openFrame_same ..) (by decide)
          refine Same.seq ?_ (dropOpen_same ..) (by decide)
          assumption
        · split
          · rename_i v6 v7 v8 v9
            refine Same.seq ?_ (setOpen_same ..) (by decide)
            assumption
          · rename_i v10 v11
            assumption
      clear_value x5
      split
      · rename_i v12 v13 v14 v15
        refine Same.ite ?_ ?_
        · refine Same.seq ?_ (elpFrame_same ..) (by decide)
          refine Same.seq ?_ (leave_same ..) (by decide)
          refine Same.seq ?_ (setOpen_same ..) (by decide)
          assumption
        · assumption
      · rename_i v16 v17
        assumption

theorem rxOs_same (s : State) (a1 : Nat) (a2 : List (List Byte)) : Same 2 s (State.rxOs s a1 a2).1 := by
  unfold State.rxOs
  extract_lets +onlyGivenNames -merge -useContext x1
  clear_value x1
  dsimp only
  refine Same.seq ?_ (count_same ..) (by decide)
  exact Same.refl _ _

theorem sampleDelay_same (s : State) (a1 : Nat) (a2 : Nat) (a3 : Nat) (a4 : Frame) : Same 8 s (State.sampleDelay s a1 a2 a3 a4) := by
  unfold State.sampleDelay
  refine Same.ite ?_ ?_
  · exact Same.refl _ _
  · extract_lets +onlyGivenNames -merge -useContext x1
    clear_value x1
    extract_lets +onlyGivenNames -merge -useContext x2
    clear_value x2
    extract_lets +onlyGivenNames -merge -useContext x3
    clear_value x3
    constructor <;> intro hb <;> first | rfl | exact absurd hb (by decide)

theorem save_same (s : State) (a1 : HostId) (a2 : Nat) (a3 : Option Nat) : Same 130842428964922 s (State.save s a1 a2 a3) := by
  unfold State.save
  split
  · rename_i v1 v2 v3
    refine Same.seq ?_ (partCmdEnd_same ..) (by decide)
    exact Same.refl _ _
  · rename_i v4 v5
    refine Same.ite ?_ ?_
    · refine Same.seq ?_ (partCmdEnd_same ..) (by decide)
      exact Same.refl _ _
    · split
      · rename_i v6 v7 v8 v9 v10 v11
        refine Same.ite ?_ ?_
        · refine Same.seq ?_ (partCmdEnd_same ..) (by decide)
          exact Same.refl _ _
        · extract_lets +onlyGivenNames -merge -useContext x12
          clear_value x12
          extract_lets +onlyGivenNames -merge -useContext x13
          clear_value x13
          extract_lets +onlyGivenNames -merge -useContext x14
          clear_value x14
          refine Same.ite ?_ ?_
          · refine Same.seq ?_ (partCmdEnd_same ..) (by decide)
            exact Same.refl _ _
          · extract_lets +onlyGivenNames -merge -useContext x15
            clear_value x15
            extract_lets +onlyGivenNames -merge -useContext x16
            clear_value x16
            extract_lets +onlyGivenNames -merge -useContext x17
            have h17 : Same 130842428964922 s x17 := by
              unfold x17
              constructor <;> intro hb <;> first | rfl | exact absurd hb (by decide)
            clear_value x17
            extract_lets +onlyGivenNames -merge -useContext x18
            clear_value x18
            extract_lets +onlyGivenNames -merge -useContext x19
            clear_value x19
            split
            · rename_i v20 v21 v22 v23
              have h24 : Same 130842428964922 s v21 := by
                refine Same.of_fst v23 ?_
                refine Same.seq ?_ (memWriteC_same ..) (by decide)
                refine Same.seq ?_ (fresh_same ..) (by decide)
                assumption
              refine Same.seq ?_ (partCmdEnd_same ..) (by decide)
              refine Same.seq ?_ (put_same ..) (by decide)
              assumption
            · rename_i v25 v26 v27 v28
              have h29 : Same 130842428964922 s v26 := by
                refine Same.of_fst v28 ?_
                refine Same.seq ?_ (memWriteC_same ..) (by decide)
                refine Same.seq ?_ (fresh_same ..) (by decide)
                assumption
              refine Same.seq ?_ (partCmdEnd_same ..) (by decide)
              assumption
      · rename_i v30 v31 v32
        refine Same.seq ?_ (partCmdEnd_same ..) (by decide)
        exact Same.refl _ _

theorem scrubNext_same (s : State) (a1 : Nat) (a2 : Nat) : Same 68719476738 s (State.scrubNext s a1 a2) := by
  unfold State.scrubNext
  extract_lets +onlyGivenNames -merge -useContext x1
  clear_value x1
  extract_lets +onlyGivenNames -merge -useContext x2
  clear_value x2
  extract_lets +onlyGivenNames -merge -useContext x3
  refine Same.ite ?_ ?_
  · refine Same.seq ?_ (put_same ..) (by decide)
    unfold x3
    constructor <;> intro hb <;> first | rfl | exact absurd hb (by decide)
  · refine Same.seq ?_ (put_same ..) (by decide)
    refine Same.seq ?_ (put_same ..) (by decide)
    refine Same.seq ?_ (count_same ..) (by decide)
    unfold x3
    constructor <;> intro hb <;> first | rfl | exact absurd hb (by decide)

theorem see_same (s : State) (a1 : Seen) : Same 15393162788864 s (State.see s a1) := by
  unfold State.see
  extract_lets +onlyGivenNames -merge -useContext x1
  have h1 : Same 15393162788864 s x1 := by
    unfold x1
    refine Same.foldl _ _ _ ?_ ?_
    · intro x2 a2 h2
      refine Same.seq ?_ (keepHost_same ..) (by decide)
      assumption
    · exact Same.refl _ _
  clear_value x1
  refine Same.trans h1 ?_
  constructor <;> intro hb <;> first | rfl | exact absurd hb (by decide)

theorem setFt_same (s : State) (a1 : Nat) : Same 844424930131972 s (State.setFt s a1) := by
  unfold State.setFt
  constructor <;> intro hb <;> first | rfl | exact absurd hb (by decide)

theorem setG_same (s : State) (a1 : Nat) (a2 : Nat) (a3 : BitVec 64) : Same 8388608 s (State.setG s a1 a2 a3) := by
  unfold State.setG
  refine Same.seq ?_ (modCore_same ..) (by decide)
  exact Same.refl _ _

theorem setIde_same (s : State) (a1 : HostId) (a2 : IdePort) : Same 268435456 s (State.setIde s a1 a2) := by
  unfold State.setIde
  constructor <;> intro hb <;> first | rfl | exact absurd hb (by decide) | (dsimp only; split <;> rfl)

theorem setLane_same (s : State) (a1 : Nat) (a2 : Nat) (a3 : Lane) : Same 128 s (State.setLane s a1 a2 a3) := by
  unfold State.setLane
  refine Same.seq ?_ (setPort_same ..) (by decide)
  exact Same.refl _ _

theorem setLowered_same (s : State) (a1 : Nat) (a2 : Bool) : Same 2 s (State.setLowered s a1 a2) := by
  unfold State.setLowered
  refine Same.ite ?_ ?_
  · refine Same.seq ?_ (put_same ..) (by decide)
    exact Same.refl _ _
  · refine Same.seq ?_ (put_same ..) (by decide)
    exact Same.refl _ _

theorem setPtp_same (s : State) (a1 : Nat) (a2 : PtpPort) : Same 4 s (State.setPtp s a1 a2) := by
  unfold State.setPtp
  constructor <;> intro hb <;> first | rfl | exact absurd hb (by decide)

theorem setSecure_same (s : State) (a1 : HostId) (a2 : Nat) (a3 : Bool) : Same 2 s (State.setSecure s a1 a2 a3) := by
  unfold State.setSecure
  refine Same.seq ?_ (put_same ..) (by decide)
  exact Same.refl _ _

theorem showOffset_same (s : State) (a1 : Int) : Same 2 s (State.showOffset s a1) := by
  unfold State.showOffset
  refine Same.ite ?_ ?_
  · refine Same.seq ?_ (put_same ..) (by decide)
    exact Same.refl _ _
  · exact Same.refl _ _

theorem startHoldover_same (s : State) : Same 70 s (State.startHoldover s) := by
  unfold State.startHoldover
  extract_lets +onlyGivenNames -merge -useContext x1
  have h1 : Same 70 s x1 := by
    unfold x1
    refine Same.seq ?_ (put_same ..) (by decide)
    refine Same.seq ?_ (put_same ..) (by decide)
    exact Same.refl _ _
  clear_value x1
  extract_lets +onlyGivenNames -merge -useContext x2
  have h2 : Same 70 s x2 := by
    unfold x2
    refine Same.seq ?_ (unlocked_same ..) (by decide)
    assumption
  clear_value x2
  refine Same.trans h2 ?_
  constructor <;> intro hb <;> first | rfl | exact absurd hb (by decide) | (dsimp only; split <;> rfl) | (simp only [h1.ftNs hb, h2.ftNs hb]; done) | exact (h1.ftNs hb).symm | exact (h2.ftNs hb).symm | (simp only [h1.ftFrac hb, h2.ftFrac hb]; done) | exact (h1.ftFrac hb).symm | exact (h2.ftFrac hb).symm | (simp only [h1.fuses hb, h2.fuses hb]; done) | exact (h1.fuses hb).symm | exact (h2.fuses hb).symm

theorem sourceLostEff_same (a0 : Nat) (s : State) : Same 70 s (sourceLostEff a0 s) := by
  unfold sourceLostEff
  refine Same.ite ?_ ?_
  · refine Same.seq ?_ (startHoldover_same ..) (by decide)
    refine Same.seq ?_ (noSource_same ..) (by decide)
    exact Same.refl _ _
  · refine Same.ite ?_ ?_
    · extract_lets +onlyGivenNames -merge -useContext x1
      have h1 : Same 70 s x1 := by
        unfold x1
        refine Same.seq ?_ (noSource_same ..) (by decide)
        refine Same.seq ?_ (holdTo_same ..) (by decide)
        exact Same.refl _ _
      clear_value x1
      refine Same.seq ?_ (checkLoss_same ..) (by decide)
      refine Same.trans h1 ?_
      constructor <;> intro hb <;> first | rfl | exact absurd hb (by decide)
    · refine Same.seq ?_ (noSource_same ..) (by decide)
      exact Same.refl _ _

theorem sourceOff_same (s : State) : Same 70 s (State.sourceOff s) := by
  unfold State.sourceOff
  refine Same.ite ?_ ?_
  · refine Same.seq ?_ (sourceLostEff_same ..) (by decide)
    exact Same.refl _ _
  · exact Same.refl _ _

theorem spadUe_same (s : State) (a1 : Nat) (a2 : Nat) : Same 60818898034746 s (State.spadUe s a1 a2) := by
  unfold State.spadUe
  refine Same.seq ?_ (raise_same ..) (by decide)
  refine Same.seq ?_ (sramUe_same ..) (by decide)
  exact Same.refl _ _

theorem spadLoad_same (k : Nat) (s : State) (c a n : Nat) (ecc : Bool) (act : List Byte → State) (hk : 60818898034746 ||| k = k) (ha : ∀ bs, Same k s (act bs)) : Same k s (s.spadLoad c a n ecc act) := by
  unfold State.spadLoad
  exact Same.ite (((raise_same ..).mono (k := 60818898034746) (by decide)).mono hk) (Same.ite ((spadUe_same ..).mono hk) (ha _))

theorem spadWrite_same (s : State) (a1 : Nat) (a2 : Nat) (a3 : List Byte) : Same 8388608 s (State.spadWrite s a1 a2 a3) := by
  unfold State.spadWrite
  refine Same.seq ?_ (modCore_same ..) (by decide)
  exact Same.refl _ _

theorem spadStore_same (s : State) (a1 : Nat) (a2 : Nat) (a3 : List Byte) (a4 : Bool) : Same 60818898034746 s (State.spadStore s a1 a2 a3 a4) := by
  unfold State.spadStore
  refine Same.ite ?_ ?_
  · refine Same.seq ?_ (raise_same ..) (by decide)
    exact Same.refl _ _
  · refine Same.ite ?_ ?_
    · refine Same.seq ?_ (raise_same ..) (by decide)
      exact Same.refl _ _
    · refine Same.ite ?_ ?_
      · refine Same.seq ?_ (spadUe_same ..) (by decide)
        exact Same.refl _ _
      · refine Same.seq ?_ (exec1_same ..) (by decide)
        refine Same.seq ?_ (spadWrite_same ..) (by decide)
        exact Same.refl _ _

theorem stageBad_same (s : State) (a1 : Nat) (a2 : Nat) : Same 60750178558458 s (State.stageBad s a1 a2) := by
  unfold State.stageBad
  extract_lets +onlyGivenNames -merge -useContext x1
  have h1 : Same 60750178558458 s x1 := by
    unfold x1
    refine Same.seq ?_ (count_same ..) (by decide)
    exact Same.refl _ _
  clear_value x1
  extract_lets +onlyGivenNames -merge -useContext x2
  clear_value x2
  extract_lets +onlyGivenNames -merge -useContext x3
  have h3 : Same 60750178558458 s x3 := by
    unfold x3
    refine Same.seq ?_ (setCore_same ..) (by decide)
    assumption
  clear_value x3
  extract_lets +onlyGivenNames -merge -useContext x4
  clear_value x4
  extract_lets +onlyGivenNames -merge -useContext x5
  clear_value x5
  extract_lets +onlyGivenNames -merge -useContext x6
  have h6 : Same 60750178558458 s x6 := by
    unfold x6
    refine Same.trans h3 ?_
    constructor <;> intro hb <;> first | rfl | exact absurd hb (by decide)
  clear_value x6
  extract_lets +onlyGivenNames -merge -useContext x7
  have h7 : Same 60750178558458 s x7 := by
    unfold x7
    refine Same.foldl _ _ _ ?_ ?_
    · intro x8 a8 h8
      refine Same.seq ?_ (cancelTransmit_same ..) (by decide)
      assumption
    · assumption
  clear_value x7
  extract_lets +onlyGivenNames -merge -useContext x9
  clear_value x9
  extract_lets +onlyGivenNames -merge -useContext x10
  clear_value x10
  extract_lets +onlyGivenNames -merge -useContext x11
  have h11 : Same 60750178558458 s x11 := by
    unfold x11
    refine Same.trans h7 ?_
    constructor <;> intro hb <;> first | rfl | exact absurd hb (by decide)
  clear_value x11
  extract_lets +onlyGivenNames -merge -useContext x12
  have h12 : Same 60750178558458 s x12 := by
    unfold x12
    refine Same.foldl _ _ _ ?_ ?_
    · intro x13 a13 h13
      refine Same.seq ?_ (cancelTransmit_same ..) (by decide)
      refine Same.seq ?_ (pinOff_same ..) (by decide)
      assumption
    · assumption
  clear_value x12
  refine Same.foldl _ _ _ ?_ ?_
  · intro x14 a14 h14
    extract_lets +onlyGivenNames -merge -useContext x15
    clear_value x15
    extract_lets +onlyGivenNames -merge -useContext x16
    clear_value x16
    extract_lets +onlyGivenNames -merge -useContext x17
    clear_value x17
    extract_lets +onlyGivenNames -merge -useContext x18
    have h18 : Same 60750178558458 s x18 := by
      unfold x18
      refine Same.seq ?_ (setPort_same ..) (by decide)
      assumption
    clear_value x18
    refine Same.foldl _ _ _ ?_ ?_
    · intro x19 a19 h19
      refine Same.seq ?_ (cancelTransmit_same ..) (by decide)
      refine Same.seq ?_ (flowDepth_same ..) (by decide)
      assumption
    · refine Same.seq ?_ (count_same ..) (by decide)
      assumption
  · assumption

theorem stageDrop_same (s : State) (a1 : Nat) : Same 2 s (State.stageDrop s a1) := by
  unfold State.stageDrop
  refine Same.seq ?_ (count_same ..) (by decide)
  exact Same.refl _ _

theorem standby_same (s : State) : Same 131737700233214 s (State.standby s) := by
  unfold State.standby
  refine Same.ite ?_ ?_
  · refine Same.seq ?_ (put_same ..) (by decide)
    refine Same.seq ?_ (put_same ..) (by decide)
    exact Same.refl _ _
  · refine Same.ite ?_ ?_
    · refine Same.seq ?_ (psEnd_same ..) (by decide)
      exact Same.refl _ _
    · extract_lets +onlyGivenNames -merge -useContext x1
      have h1 : Same 131737700233214 s x1 := by
        unfold x1
        refine Same.ite ?_ ?_
        · refine Same.seq ?_ (setDebug_same ..) (by decide)
          exact Same.refl _ _
        · exact Same.refl _ _
      clear_value x1
      extract_lets +onlyGivenNames -merge -useContext x2
      have h2 : Same 131737700233214 s x2 := by
        unfold x2
        refine Same.seq ?_ (dropNonce_same ..) (by decide)
        refine Same.seq ?_ (eraseAllKeys_same ..) (by decide)
        refine Same.seq ?_ (wipeSecure_same ..) (by decide)
        refine Same.seq ?_ (cancelRaise_same ..) (by decide)
        assumption
      clear_value x2
      extract_lets +onlyGivenNames -merge -useContext x3
      have h3 : Same 131737700233214 s x3 := by
        unfold x3
        refine Same.foldl _ _ _ ?_ ?_
        · intro x4 a4 h4
          refine Same.seq ?_ (emptyCore_same ..) (by decide)
          assumption
        · assumption
      clear_value x3
      extract_lets +onlyGivenNames -merge -useContext x5
      have h5 : Same 131737700233214 s x5 := by
        unfold x5
        refine Same.seq ?_ (setPower_same ..) (by decide)
        refine Same.seq ?_ (sourceOff_same ..) (by decide)
        refine Same.seq ?_ (pathsChanged_same ..) (by decide)
        refine Same.seq ?_ (portsOff_same ..) (by decide)
        assumption
      clear_value x5
      refine Same.seq ?_ (psEnd_same ..) (by decide)
      refine Same.trans h5 ?_
      constructor <;> intro hb <;> first | rfl | exact absurd hb (by decide)

theorem tablesOk_same (s : State) (a1 : Nat) (a2 : List Byte) : Same 41781441855546 s (State.tablesOk s a1 a2).1 := by
  unfold State.tablesOk
  extract_lets +onlyGivenNames -merge -useContext x1
  clear_value x1
  extract_lets +onlyGivenNames -merge -useContext x2
  clear_value x2
  refine Same.foldlPair _ _ _ ?_ ?_
  · intro x3 a3 h3
    split
    · rename_i v4 v5
      split
      · rename_i v6 v7 v8
        have h9 : Same 41781441855546 s v7 := by
          refine Same.of_fst v8 ?_
          refine Same.seq ?_ (frags_same ..) (by decide)
          assumption
        dsimp only
        assumption
      · rename_i v10 v11 v12
        have h13 : Same 41781441855546 s v11 := by
          refine Same.of_fst v12 ?_
          refine Same.seq ?_ (frags_same ..) (by decide)
          assumption
        dsimp only
        assumption
      · rename_i v14 v15 v16
        have h17 : Same 41781441855546 s v15 := by
          refine Same.of_fst v16 ?_
          refine Same.seq ?_ (frags_same ..) (by decide)
          assumption
        dsimp only
        assumption
      · rename_i v18 v19 v20
        have h21 : Same 41781441855546 s v19 := by
          refine Same.of_fst v20 ?_
          refine Same.seq ?_ (frags_same ..) (by decide)
          assumption
        dsimp only
        assumption
      · rename_i v22 v23 v24 v25 v26 v27 v28 v29
        have h30 : Same 41781441855546 s v23 := by
          refine Same.of_fst v29 ?_
          refine Same.seq ?_ (frags_same ..) (by decide)
          assumption
        dsimp only
        assumption
    · rename_i v31 v32
      assumption
  · dsimp only
    exact Same.refl _ _

theorem startEntry_same (s : State) (a1 : Nat) (a2 : Queue) (a3 : Nat) (a4 : Nat) (a5 : List Byte) : Same 130912764322874 s (State.startEntry s a1 a2 a3 a4 a5).1 := by
  unfold State.startEntry
  extract_lets +onlyGivenNames -merge -useContext x1
  clear_value x1
  extract_lets +onlyGivenNames -merge -useContext x2
  refine Same.iteFst ?_ ?_
  · extract_lets +onlyGivenNames -merge -useContext x3
    clear_value x3
    dsimp only
    refine Same.seq ?_ (endUnstarted_same ..) (by decide)
    refine Same.seq ?_ (setQueue_same ..) (by decide)
    exact Same.refl _ _
  · refine Same.iteFst ?_ ?_
    · unfold x2
      dsimp only
      refine Same.seq ?_ (endUnstarted_same ..) (by decide)
      exact Same.refl _ _
    · refine Same.iteFst ?_ ?_
      · refine Same.iteFst ?_ ?_
        · unfold x2
          dsimp only
          refine Same.seq ?_ (endUnstarted_same ..) (by decide)
          exact Same.refl _ _
        · dsimp only
          exact Same.refl _ _
      · extract_lets +onlyGivenNames -merge -useContext x4
        clear_value x4
        extract_lets +onlyGivenNames -merge -useContext x5
        clear_value x5
        refine Same.iteFst ?_ ?_
        · unfold x2
          dsimp only
          refine Same.seq ?_ (endUnstarted_same ..) (by decide)
          exact Same.refl _ _
        · refine Same.iteFst ?_ ?_
          · dsimp only
            exact Same.refl _ _
          · refine Same.iteFst ?_ ?_
            · unfold x2
              dsimp only
              refine Same.seq ?_ (endUnstarted_same ..) (by decide)
              exact Same.refl _ _
            · split
              · rename_i v6 v7
                unfold x2
                dsimp only
                refine Same.seq ?_ (endUnstarted_same ..) (by decide)
                exact Same.refl _ _
              · rename_i v8 v9
                dsimp only
                exact Same.refl _ _
              · rename_i v10 v11
                extract_lets +onlyGivenNames -merge -useContext x12
                split
                · rename_i v13 v14 v15
                  refine Same.iteFst ?_ ?_
                  · dsimp only
                    refine Same.seq ?_ (miss_same ..) (by decide)
                    exact Same.refl _ _
                  · refine Same.iteFst ?_ ?_
                    · dsimp only
                      refine Same.seq ?_ (checkCtx_same ..) (by decide)
                      exact Same.refl _ _
                    · refine Same.iteFst ?_ ?_
                      · unfold x12
                        split
                        · rename_i v16 v17 v18
                          have h19 : Same 130912764322874 s v17 := by
                            refine Same.of_fst v18 ?_
                            refine Same.seq ?_ (tablesOk_same ..) (by decide)
                            exact Same.refl _ _
                          dsimp only
                          refine Same.seq ?_ (begin_same ..) (by decide)
                          assumption
                        · rename_i v20 v21 v22
                          have h23 : Same 130912764322874 s v21 := by
                            refine Same.of_fst v22 ?_
                            refine Same.seq ?_ (tablesOk_same ..) (by decide)
                            exact Same.refl _ _
                          dsimp only
                          assumption
                        · rename_i v24 v25 v26 v27
                          have h28 : Same 130912764322874 s v25 := by
                            refine Same.of_fst v27 ?_
                            refine Same.seq ?_ (tablesOk_same ..) (by decide)
                            exact Same.refl _ _
                          dsimp only
                          refine Same.seq ?_ (failHead_same ..) (by decide)
                          assumption
                      · dsimp only
                        exact Same.refl _ _
                · rename_i v29 v30
                  refine Same.iteFst ?_ ?_
                  · dsimp only
                    exact Same.refl _ _
                  · unfold x12
                    split
                    · rename_i v31 v32 v33
                      have h34 : Same 130912764322874 s v32 := by
                        refine Same.of_fst v33 ?_
                        refine Same.seq ?_ (tablesOk_same ..) (by decide)
                        exact Same.refl _ _
                      dsimp only
                      refine Same.seq ?_ (begin_same ..) (by decide)
                      assumption
                    · rename_i v35 v36 v37
                      have h38 : Same 130912764322874 s v36 := by
                        refine Same.of_fst v37 ?_
                        refine Same.seq ?_ (tablesOk_same ..) (by decide)
                        exact Same.refl _ _
                      dsimp only
                      assumption
                    · rename_i v39 v40 v41 v42
                      have h43 : Same 130912764322874 s v40 := by
                        refine Same.of_fst v42 ?_
                        refine Same.seq ?_ (tablesOk_same ..) (by decide)
                        exact Same.refl _ _
                      dsimp only
                      refine Same.seq ?_ (failHead_same ..) (by decide)
                      assumption

theorem startEarly_same (s : State) (a1 : Nat) : Same 130912764322874 s (State.startEarly s a1) := by
  unfold State.startEarly
  split
  · rename_i v1 v2
    exact Same.refl _ _
  · rename_i v3 v4 v5
    split
    · rename_i v6 v7 v8 v9 v10
      refine Same.ite ?_ ?_
      · refine Same.seq ?_ (startEntry_same ..) (by decide)
        exact Same.refl _ _
      · exact Same.refl _ _
    · rename_i v11 v12
      exact Same.refl _ _

theorem startHead_same (s : State) (a1 : Nat) : Same 130912764322874 s (State.startHead s a1) := by
  unfold State.startHead
  split
  · rename_i v1 v2
    exact Same.refl _ _
  · rename_i v3 v4 v5
    split
    · rename_i v6 v7
      refine Same.seq ?_ (startEarly_same ..) (by decide)
      exact Same.refl _ _
    · rename_i v8 v9 v10 v11 v12
      refine Same.ite ?_ ?_
      · extract_lets +onlyGivenNames -merge -useContext x13
        have h13 : Same 130912764322874 s x13.1 := by
          unfold x13
          refine Same.seq ?_ (startEntry_same ..) (by decide)
          exact Same.refl _ _
        clear_value x13
        refine Same.ite ?_ ?_
        · assumption
        · refine Same.seq ?_ (startEarly_same ..) (by decide)
          assumption
      · refine Same.seq ?_ (startEarly_same ..) (by decide)
        exact Same.refl _ _

theorem streamTiles_same (s : State) (a1 : Nat) (a2 : Nat) (a3 : Nat) (a4 : Nat) : Same 131118923718714 s (State.streamTiles s a1 a2 a3 a4) := by
  induction a4 generalizing s a1 a2 a3 with
  | zero =>
    rw [State.streamTiles]
    exact Same.refl _ _
  | succ n ih =>
    rw [State.streamTiles]
    split
    · rename_i v1 v2 v3 v4 v5 v6 v7 v8
      refine Same.ite ?_ ?_
      · exact Same.refl _ _
      · extract_lets +onlyGivenNames -merge -useContext x9
        clear_value x9
        extract_lets +onlyGivenNames -merge -useContext x10
        clear_value x10
        extract_lets +onlyGivenNames -merge -useContext x11
        clear_value x11
        extract_lets +onlyGivenNames -merge -useContext x12
        clear_value x12
        extract_lets +onlyGivenNames -merge -useContext x13
        have h13 : Same 131118923718714 s x13 := by
          unfold x13
          refine Same.seq ?_ (modChan_same ..) (by decide)
          exact Same.refl _ _
        clear_value x13
        refine Same.ite ?_ ?_
        · refine Same.seq ?_ (xferMoved_same ..) (by decide)
          assumption
        · extract_lets +onlyGivenNames -merge -useContext x14
          clear_value x14
          extract_lets +onlyGivenNames -merge -useContext x15
          clear_value x15
          extract_lets +onlyGivenNames -merge -useContext x16
          clear_value x16
          split
          · rename_i v17 v18 v19
            have h20 : Same 131118923718714 s v18 := by
              refine Same.of_fst v19 ?_
              refine Same.seq ?_ (placeAt_same ..) (by decide)
              assumption
            exact Same.refl _ _
          · rename_i v21 v22 v23 v24 v25
            have h26 : Same 131118923718714 s v22 := by
              refine Same.of_fst v25 ?_
              refine Same.seq ?_ (placeAt_same ..) (by decide)
              assumption
            refine Same.seq ?_ (xferMoved_same ..) (by decide)
            assumption
          · rename_i v27 v28 v29
            have h30 : Same 131118923718714 s v28 := by
              refine Same.of_fst v29 ?_
              refine Same.seq ?_ (placeAt_same ..) (by decide)
              assumption
            refine Same.seq ?_ (xferMoved_same ..) (by decide)
            assumption
          · rename_i v31 v32 v33 v34 v35 v36 v37
            have h38 : Same 131118923718714 s v32 := by
              refine Same.of_fst v37 ?_
              refine Same.seq ?_ (placeAt_same ..) (by decide)
              assumption
            extract_lets +onlyGivenNames -merge -useContext x39
            have h39 : Same 131118923718714 s x39 := by
              unfold x39
              refine Same.seq ?_ (modXfer_same ..) (by decide)
              assumption
            clear_value x39
            refine Same.ite ?_ ?_
            · refine Same.seq ?_ (xferMoved_same ..) (by decide)
              assumption
            · refine Same.seq ?_ (ih ..) (by decide)
              assumption
    · rename_i v40 v41 v42
      exact Same.refl _ _

theorem takeManifest_same (s : State) (a1 : List Byte) : Same 34628173826 s (State.takeManifest s a1) := by
  unfold State.takeManifest
  extract_lets +onlyGivenNames -merge -useContext x1
  clear_value x1
  extract_lets +onlyGivenNames -merge -useContext x2
  have h2 : Same 34628173826 s x2 := by
    unfold x2
    refine Same.seq ?_ (extend_same ..) (by decide)
    refine Same.seq ?_ (extend_same ..) (by decide)
    exact Same.refl _ _
  clear_value x2
  extract_lets +onlyGivenNames -merge -useContext x3
  have h3 : Same 34628173826 s x3 := by
    unfold x3
    refine Same.seq ?_ (put_same ..) (by decide)
    refine Same.seq ?_ (put_same ..) (by decide)
    assumption
  clear_value x3
  extract_lets +onlyGivenNames -merge -useContext x4
  clear_value x4
  refine Same.trans h3 ?_
  constructor <;> intro hb <;> first | rfl | exact absurd hb (by decide)

theorem takePkt_same (s : State) (a1 : TPkt) (t : State) (h : State.takePkt s a1 = some t) : Same 130912767438842 s t := by
  unfold State.takePkt at h
  extract_lets +onlyGivenNames -merge -useContext x1 at h
  clear_value x1
  extract_lets +onlyGivenNames -merge -useContext x2 at h
  have h2 : Same 130912767438842 s x2 := by
    unfold x2
    refine Same.seq ?_ (checkCtx_same ..) (by decide)
    exact Same.refl _ _
  clear_value x2
  split at h
  · rename_i v3 v4
    injection h with h
    refine Same.of_eq h ?_
    refine Same.seq ?_ (count_same ..) (by decide)
    assumption
  · rename_i v5 v6 v7
    split at h
    · rename_i v8
      injection h with h
      refine Same.of_eq h ?_
      refine Same.seq ?_ (count_same ..) (by decide)
      assumption
    · rename_i v9
      split at h
      · rename_i v10
        injection h with h
        refine Same.of_eq h ?_
        assumption
      · rename_i v11
        split at h
        · rename_i v12
          injection h with h
          refine Same.of_eq h ?_
          assumption
        · rename_i v13
          split at h
          · rename_i v14
            injection h with h
            refine Same.of_eq h ?_
            refine Same.seq ?_ (answer_same ..) (by decide)
            assumption
          · rename_i v15
            extract_lets +onlyGivenNames -merge -useContext x16 at h
            have h16 : Same 130912767438842 s x16 := by
              unfold x16
              refine Same.seq ?_ (modCtx_same ..) (by decide)
              assumption
            clear_value x16
            split at h
            · rename_i v17 v18
              injection h with h
              refine Same.of_eq h ?_
              refine Same.seq ?_ (onAck_same ..) (by decide)
              assumption
            · rename_i v19 v20
              injection h with h
              refine Same.of_eq h ?_
              refine Same.seq ?_ (onNak_same ..) (by decide)
              assumption
            · rename_i v21 v22
              injection h with h
              refine Same.of_eq h ?_
              refine Same.seq ?_ (onRnr_same ..) (by decide)
              assumption
            · rename_i v23 v24
              injection h with h
              refine Same.of_eq h ?_
              refine Same.seq ?_ (onVisAck_same ..) (by decide)
              assumption
            · rename_i v25 v26
              refine Same.seq ?_ (onReadResp_same (h := h) ..) (by decide)
              assumption
            · rename_i v27 v28
              refine Same.seq ?_ (onAtomicAck_same (h := h) ..) (by decide)
              assumption
            · rename_i v29 v30 v31 v32 v33 v34 v35
              refine Same.seq ?_ (request_same (h := h) ..) (by decide)
              assumption

theorem thawQp_same (s : State) (a1 : Nat) : Same 130912764522490 s (State.thawQp s a1) := by
  unfold State.thawQp
  extract_lets +onlyGivenNames -merge -useContext x1
  have h1 : Same 130912764522490 s x1 := by
    unfold x1
    refine Same.seq ?_ (modQp_same ..) (by decide)
    refine Same.seq ?_ (need_same ..) (by decide)
    exact Same.refl _ _
  clear_value x1
  split
  · rename_i v2 v3
    assumption
  · rename_i v4 v5 v6
    refine Same.seq ?_ (settle_same ..) (by decide)
    refine Same.ite ?_ ?_
    · refine Same.seq ?_ (resend_same ..) (by decide)
      refine Same.seq ?_ (modCtx_same ..) (by decide)
      assumption
    · refine Same.seq ?_ (pump_same ..) (by decide)
      assumption

theorem tryResume_same (s : State) (a1 : Nat) : Same 274877906946 s (State.tryResume s a1) := by
  unfold State.tryResume
  extract_lets +onlyGivenNames -merge -useContext x1
  clear_value x1
  refine Same.ite ?_ ?_
  · refine Same.seq ?_ (setCoreSt_same ..) (by decide)
    exact Same.refl _ _
  · exact Same.refl _ _

theorem thaw_same (s : State) (a1 : HostId) (a2 : Nat) (a3 : Option Nat) : Same 131187642429434 s (State.thaw s a1 a2 a3) := by
  unfold State.thaw
  extract_lets +onlyGivenNames -merge -useContext x1
  have h1 : Same 131187642429434 s x1 := by
    unfold x1
    refine Same.ite ?_ ?_
    · refine Same.seq ?_ (notListed_same ..) (by decide)
      exact Same.refl _ _
    · exact Same.refl _ _
  clear_value x1
  split
  · rename_i v2 v3 v4
    refine Same.seq ?_ (partCmdEnd_same ..) (by decide)
    assumption
  · rename_i v5 v6
    refine Same.ite ?_ ?_
    · refine Same.seq ?_ (partCmdEnd_same ..) (by decide)
      assumption
    · extract_lets +onlyGivenNames -merge -useContext x7
      clear_value x7
      extract_lets +onlyGivenNames -merge -useContext x8
      have h8 : Same 131187642429434 s x8 := by
        unfold x8
        refine Same.foldl _ _ _ ?_ ?_
        · intro x9 a9 h9
          refine Same.seq ?_ (reread_same ..) (by decide)
          assumption
        · assumption
      clear_value x8
      extract_lets +onlyGivenNames -merge -useContext x10
      have h10 : Same 131187642429434 s x10 := by
        unfold x10
        refine Same.trans h8 ?_
        constructor <;> intro hb <;> first | rfl | exact absurd hb (by decide)
      clear_value x10
      extract_lets +onlyGivenNames -merge -useContext x11
      have h11 : Same 131187642429434 s x11 := by
        unfold x11
        split
        · rename_i v12 v13
          refine Same.seq ?_ (put_same ..) (by decide)
          assumption
        · rename_i v14
          refine Same.foldl _ _ _ ?_ ?_
          · intro x15 a15 h15
            refine Same.seq ?_ (put_same ..) (by decide)
            assumption
          · refine Same.seq ?_ (put_same ..) (by decide)
            assumption
      clear_value x11
      extract_lets +onlyGivenNames -merge -useContext x16
      have h16 : Same 131187642429434 s x16 := by
        unfold x16
        refine Same.foldl _ _ _ ?_ ?_
        · intro x17 a17 h17
          refine Same.seq ?_ (thawQp_same ..) (by decide)
          assumption
        · assumption
      clear_value x16
      extract_lets +onlyGivenNames -merge -useContext x18
      have h18 : Same 131187642429434 s x18 := by
        unfold x18
        refine Same.ite ?_ ?_
        · refine Same.foldl _ _ _ ?_ ?_
          · intro x19 a19 h19
            refine Same.seq ?_ (tryResume_same ..) (by decide)
            refine Same.seq ?_ (modCore_same ..) (by decide)
            assumption
          · assumption
        · assumption
      clear_value x18
      refine Same.seq ?_ (partCmdEnd_same ..) (by decide)
      assumption

theorem tick_same (s : State) : Same 844424930131972 s (State.tick s) := by
  unfold State.tick
  extract_lets +onlyGivenNames -merge -useContext x1
  have h1 : Same 844424930131972 s x1 := by
    unfold x1
    refine Same.seq ?_ (advanceFt_same ..) (by decide)
    exact Same.refl _ _
  clear_value x1
  refine Same.trans h1 ?_
  constructor <;> intro hb <;> first | rfl | exact absurd hb (by decide)

theorem tinkerPass_same (s : State) (a1 : Nat) : Same 68719476738 s (State.tinkerPass s a1) := by
  unfold State.tinkerPass
  extract_lets +onlyGivenNames -merge -useContext x1
  clear_value x1
  extract_lets +onlyGivenNames -merge -useContext x2
  extract_lets +onlyGivenNames -merge -useContext x3
  have h3 : Same 68719476738 s x3 := by
    unfold x3
    refine Same.seq ?_ (setTinker_same ..) (by decide)
    exact Same.refl _ _
  clear_value x3
  extract_lets +onlyGivenNames -merge -useContext x4
  have h4 : Same 68719476738 s x4 := by
    unfold x4
    refine Same.ite ?_ ?_
    · refine Same.seq ?_ (count_same ..) (by decide)
      refine Same.seq ?_ (put_same ..) (by decide)
      assumption
    · assumption
  clear_value x4
  refine Same.seq ?_ (put_same ..) (by decide)
  assumption

theorem coreCycle_same (s : State) : Same 975647301398526 s (coreCycle s) := by
  unfold coreCycle
  extract_lets +onlyGivenNames -merge -useContext x1
  have h1 : Same 975647301398526 s x1 := by
    unfold x1
    refine Same.seq ?_ (keyRetry_same ..) (by decide)
    refine Same.seq ?_ (b4Retry_same ..) (by decide)
    refine Same.seq ?_ (meshCycle_same ..) (by decide)
    refine Same.seq ?_ (tick_same ..) (by decide)
    exact Same.refl _ _
  clear_value x1
  refine Same.ite ?_ ?_
  · refine Same.seq ?_ (beginSlot_same ..) (by decide)
    assumption
  · assumption

theorem toSlot_same (s : State) (a1 : Nat) : Same 975647301398526 s (State.toSlot s a1) := by
  induction a1 generalizing s with
  | zero =>
    rw [State.toSlot]
    exact Same.refl _ _
  | succ n ih =>
    rw [State.toSlot]
    refine Same.ite ?_ ?_
    · refine Same.seq ?_ (coreCycle_same ..) (by decide)
      exact Same.refl _ _
    · refine Same.seq ?_ (ih ..) (by decide)
      refine Same.seq ?_ (coreCycle_same ..) (by decide)
      exact Same.refl _ _

theorem trigCounts_same (s : State) (a1 : Nat) : Same 3145730 s (State.trigCounts s a1) := by
  unfold State.trigCounts
  split
  · rename_i v1 v2
    exact Same.refl _ _
  · rename_i v3 v4 v5
    refine Same.seq ?_ (trigInc_same ..) (by decide)
    constructor <;> intro hb <;> first | rfl | exact absurd hb (by decide)

theorem unmiss_same (s : State) (a1 : Nat) : Same 35184372089472 s (State.unmiss s a1) := by
  unfold State.unmiss
  extract_lets +onlyGivenNames -merge -useContext x1
  clear_value x1
  extract_lets +onlyGivenNames -merge -useContext x2
  have h2 : Same 35184372089472 s x2 := by
    unfold x2
    refine Same.foldl _ _ _ ?_ ?_
    · intro x3 a3 h3
      refine Same.ite ?_ ?_
      · refine Same.seq ?_ (missRelease_same ..) (by decide)
        refine Same.seq ?_ (setPort_same ..) (by decide)
        assumption
      · assumption
    · exact Same.refl _ _
  clear_value x2
  refine Same.trans h2 ?_
  constructor <;> intro hb <;> first | rfl | exact absurd hb (by decide)

theorem wake_same (s : State) (a1 : Training) (a2 : Tests) : Same 272509615734778 s (State.wake s a1 a2) := by
  unfold State.wake
  refine Same.ite ?_ ?_
  · exact Same.refl _ _
  · refine Same.ite ?_ ?_
    · refine Same.seq ?_ (put_same ..) (by decide)
      refine Same.seq ?_ (put_same ..) (by decide)
      exact Same.refl _ _
    · extract_lets +onlyGivenNames -merge -useContext x1
      clear_value x1
      extract_lets +onlyGivenNames -merge -useContext x2
      have h2 : Same 272509615734778 s x2 := by
        unfold x2
        constructor <;> intro hb <;> first | rfl | exact absurd hb (by decide)
      clear_value x2
      extract_lets +onlyGivenNames -merge -useContext x3
      have h3 : Same 272509615734778 s x3 := by
        unfold x3
        refine Same.seq ?_ (put_same ..) (by decide)
        refine Same.seq ?_ (put_same ..) (by decide)
        refine Same.seq ?_ (put_same ..) (by decide)
        assumption
      clear_value x3
      extract_lets +onlyGivenNames -merge -useContext x4
      have h4 : Same 272509615734778 s x4 := by
        unfold x4
        refine Same.seq ?_ (setPower_same ..) (by decide)
        refine Same.seq ?_ (put_same ..) (by decide)
        assumption
      clear_value x4
      extract_lets +onlyGivenNames -merge -useContext x5
      have h5 : Same 272509615734778 s x5 := by
        unfold x5
        refine Same.foldl _ _ _ ?_ ?_
        · intro x6 a6 h6
          refine Same.ite ?_ ?_
          · refine Same.seq ?_ (put_same ..) (by decide)
            assumption
          · assumption
        · assumption
      clear_value x5
      refine Same.seq ?_ (bringUp_same ..) (by decide)
      assumption

theorem withFetchWord_same (s : State) (a1 : Nat) (a2 : Nat) : Same 1 s (State.withFetchWord s a1 a2) := by
  unfold State.withFetchWord
  split
  · rename_i v1 v2 v3
    constructor <;> intro hb <;> first | rfl | exact absurd hb (by decide)
  · rename_i v4 v5
    exact Same.refl _ _

theorem withOs_same (k : Nat) (s : State) (port : Nat) (copies : List (List Byte)) (act : State → Nat → OrdSet → State) (hk : 2 ||| k = k) (ha : ∀ x n o, Same k x (act x n o)) : Same k s (s.withOs port copies act) := by
  unfold State.withOs
  refine Same.ite ?_ (Same.refl _ _)
  have h := (rxOs_same s port copies).mono hk
  split
  · next e => rw [e] at h; exact h.trans (ha _ _ _)
  · next e => rw [e] at h; exact h

theorem resetCtlEff_same (a0 : Word) (a1 : Bool) (a2 : Tests) (s : State) : Same 1117103813820414 s (resetCtlEff a0 a1 a2 s) := by
  unfold resetCtlEff
  refine Same.ite ?_ ?_
  · refine Same.seq ?_ (warmReset_same ..) (by decide)
    exact Same.refl _ _
  · refine Same.ite ?_ ?_
    · refine Same.seq ?_ (computeReset_same ..) (by decide)
      exact Same.refl _ _
    · refine Same.ite ?_ ?_
      · refine Same.seq ?_ (resume_same ..) (by decide)
        exact Same.refl _ _
      · exact Same.refl _ _

theorem exactEff_same (a0 : Word) (s : State) : Same 34359738370 s (exactEff a0 s) := by
  unfold exactEff
  refine Same.ite ?_ ?_
  · refine Same.seq ?_ (put_same ..) (by decide)
    exact Same.refl _ _
  · refine Same.seq ?_ (startDet_same ..) (by decide)
    refine Same.seq ?_ (put_same ..) (by decide)
    exact Same.refl _ _

theorem goEff_same (a0 : HostId) (a1 : Word) (a2 : Seen) (a3 : Training) (a4 : Tests) (s : State) : Same 281305708756986 s (goEff a0 a1 a2 a3 a4 s) := by
  unfold goEff
  refine Same.ite ?_ ?_
  · exact Same.refl _ _
  · refine Same.ite ?_ ?_
    · refine Same.seq ?_ (writeIgnored_same ..) (by decide)
      exact Same.refl _ _
    · extract_lets +onlyGivenNames -merge -useContext x1
      have h1 : Same 281305708756986 s x1 := by
        unfold x1
        refine Same.seq ?_ (put_same ..) (by decide)
        refine Same.seq ?_ (put_same ..) (by decide)
        refine Same.seq ?_ (see_same ..) (by decide)
        exact Same.refl _ _
      clear_value x1
      extract_lets +onlyGivenNames -merge -useContext x2
      clear_value x2
      extract_lets +onlyGivenNames -merge -useContext x3
      clear_value x3
      extract_lets +onlyGivenNames -merge -useContext x4
      have h4 : Same 281305708756986 s x4 := by
        unfold x4
        refine Same.seq ?_ (put_same ..) (by decide)
        refine Same.seq ?_ (fresh_same ..) (by decide)
        assumption
      clear_value x4
      refine Same.ite ?_ ?_
      · refine Same.seq ?_ (put_same ..) (by decide)
        refine Same.seq ?_ (put_same ..) (by decide)
        assumption
      · refine Same.seq ?_ (measureResidents_same ..) (by decide)
        refine Same.seq ?_ (bringUp_same ..) (by decide)
        refine Same.seq ?_ (takeManifest_same ..) (by decide)
        assumption

end Sys2Proof.Machine.Laws
end

