-- ==== Sys2Proof/Laws/Frames4.lean ====
section
/-! SUPPORT. What each operation and each command can change: one frame per definition of the machine, part 4 of 5. -/

set_option linter.unusedTactic false
set_option linter.unreachableTactic false
set_option linter.unusedSimpArgs false

namespace Sys2Proof.Machine.Laws

theorem portResetEff_same (a0 : HostId) (a1 : Word) (s : State) : Same 131050203475962 s (portResetEff a0 a1 s) := by
  unfold portResetEff
  extract_lets +onlyGivenNames -merge -useContext x1
  clear_value x1
  refine Same.ite ?_ ?_
  · refine Same.seq ?_ (writeIgnored_same ..) (by decide)
    exact Same.refl _ _
  · refine Same.ite ?_ ?_
    · exact Same.refl _ _
    · extract_lets +onlyGivenNames -merge -useContext x2
      have h2 : Same 131050203475962 s x2 := by
        unfold x2
        refine Same.seq ?_ (put_same ..) (by decide)
        refine Same.seq ?_ (put_same ..) (by decide)
        exact Same.refl _ _
      clear_value x2
      extract_lets +onlyGivenNames -merge -useContext x3
      have h3 : Same 131050203475962 s x3 := by
        unfold x3
        refine Same.trans h2 ?_
        constructor <;> intro hb <;> first | rfl | exact absurd hb (by decide)
      clear_value x3
      extract_lets +onlyGivenNames -merge -useContext x4
      clear_value x4
      extract_lets +onlyGivenNames -merge -useContext x5
      have h5 : Same 131050203475962 s x5 := by
        unfold x5
        refine Same.seq ?_ (setPort_same ..) (by decide)
        assumption
      clear_value x5
      extract_lets +onlyGivenNames -merge -useContext x6
      clear_value x6
      extract_lets +onlyGivenNames -merge -useContext x7
      have h7 : Same 131050203475962 s x7 := by
        unfold x7
        refine Same.foldl _ _ _ ?_ ?_
        · intro x8 a8 h8
          refine Same.seq ?_ (lostDrop_same ..) (by decide)
          refine Same.seq ?_ (unqueued_same ..) (by decide)
          assumption
        · refine Same.seq ?_ (setPort_same ..) (by decide)
          assumption
      clear_value x7
      refine Same.seq ?_ (pathsChanged_same ..) (by decide)
      refine Same.seq ?_ (toTraining_same ..) (by decide)
      assumption

theorem portSelEff_same (a0 : HostId) (a1 : Word) (s : State) : Same 41781441855546 s (portSelEff a0 a1 s) := by
  unfold portSelEff
  extract_lets +onlyGivenNames -merge -useContext x1
  clear_value x1
  refine Same.ite ?_ ?_
  · refine Same.seq ?_ (writeIgnored_same ..) (by decide)
    exact Same.refl _ _
  · refine Same.seq ?_ (put_same ..) (by decide)
    exact Same.refl _ _

theorem dumCtlEff_same (a0 : Word) (s : State) : Same 131222371266554 s (dumCtlEff a0 s) := by
  unfold dumCtlEff
  extract_lets +onlyGivenNames -merge -useContext x1
  have h1 : Same 131222371266554 s x1 := by
    unfold x1
    refine Same.seq ?_ (applyWrite_same ..) (by decide)
    exact Same.refl _ _
  clear_value x1
  refine Same.ite ?_ ?_
  · assumption
  · refine Same.ite ?_ ?_
    · refine Same.seq ?_ (put_same ..) (by decide)
      assumption
    · refine Same.seq ?_ (commitMap_same ..) (by decide)
      assumption

theorem timeCtlEff_same (a0 : Word) (s : State) : Same 70 s (timeCtlEff a0 s) := by
  unfold timeCtlEff
  extract_lets +onlyGivenNames -merge -useContext x1
  clear_value x1
  extract_lets +onlyGivenNames -merge -useContext x2
  clear_value x2
  refine Same.ite ?_ ?_
  · refine Same.seq ?_ (put_same ..) (by decide)
    exact Same.refl _ _
  · extract_lets +onlyGivenNames -merge -useContext x3
    have h3 : Same 70 s x3 := by
      unfold x3
      refine Same.seq ?_ (put_same ..) (by decide)
      refine Same.seq ?_ (put_same ..) (by decide)
      exact Same.refl _ _
    clear_value x3
    extract_lets +onlyGivenNames -merge -useContext x4
    clear_value x4
    extract_lets +onlyGivenNames -merge -useContext x5
    have h5 : Same 70 s x5 := by
      unfold x5
      refine Same.ite ?_ ?_
      · refine Same.seq ?_ (put_same ..) (by decide)
        assumption
      · assumption
    clear_value x5
    extract_lets +onlyGivenNames -merge -useContext x6
    have h6 : Same 70 s x6 := by
      unfold x6
      refine Same.ite ?_ ?_
      · refine Same.seq ?_ (newSource_same ..) (by decide)
        assumption
      · assumption
    clear_value x6
    refine Same.ite ?_ ?_
    · refine Same.seq ?_ (armSet_same ..) (by decide)
      assumption
    · assumption

theorem timePortEff_same (a0 : Word) (s : State) : Same 70 s (timePortEff a0 s) := by
  unfold timePortEff
  extract_lets +onlyGivenNames -merge -useContext x1
  clear_value x1
  refine Same.ite ?_ ?_
  · exact Same.refl _ _
  · refine Same.ite ?_ ?_
    · refine Same.seq ?_ (put_same ..) (by decide)
      exact Same.refl _ _
    · extract_lets +onlyGivenNames -merge -useContext x2
      have h2 : Same 70 s x2 := by
        unfold x2
        refine Same.seq ?_ (put_same ..) (by decide)
        exact Same.refl _ _
      clear_value x2
      refine Same.ite ?_ ?_
      · assumption
      · refine Same.seq ?_ (newSource_same ..) (by decide)
        assumption

theorem holdLimitEff_same (a0 : Word) (s : State) : Same 6 s (holdLimitEff a0 s) := by
  unfold holdLimitEff
  extract_lets +onlyGivenNames -merge -useContext x1
  clear_value x1
  refine Same.ite ?_ ?_
  · exact Same.refl _ _
  · refine Same.ite ?_ ?_
    · refine Same.seq ?_ (put_same ..) (by decide)
      exact Same.refl _ _
    · refine Same.seq ?_ (checkLoss_same ..) (by decide)
      refine Same.seq ?_ (put_same ..) (by decide)
      exact Same.refl _ _

theorem budgetEff_same (a0 : Word) (s : State) : Same 2 s (budgetEff a0 s) := by
  unfold budgetEff
  extract_lets +onlyGivenNames -merge -useContext x1
  clear_value x1
  refine Same.ite ?_ ?_
  · refine Same.seq ?_ (put_same ..) (by decide)
    exact Same.refl _ _
  · refine Same.seq ?_ (put_same ..) (by decide)
    exact Same.refl _ _

theorem psCtlEff_same (a0 : Word) (a1 : Seen) (a2 : Training) (a3 : Tests) (s : State) : Same 281305708756990 s (psCtlEff a0 a1 a2 a3 s) := by
  unfold psCtlEff
  extract_lets +onlyGivenNames -merge -useContext x1
  have h1 : Same 281305708756990 s x1 := by
    unfold x1
    refine Same.ite ?_ ?_
    · refine Same.seq ?_ (standby_same ..) (by decide)
      exact Same.refl _ _
    · exact Same.refl _ _
  clear_value x1
  refine Same.ite ?_ ?_
  · refine Same.seq ?_ (wake_same ..) (by decide)
    refine Same.seq ?_ (see_same ..) (by decide)
    assumption
  · assumption

theorem dbgWriteEff_same (a0 : Word) (s : State) : Same 268435458 s (dbgWriteEff a0 s) := by
  unfold dbgWriteEff
  extract_lets +onlyGivenNames -merge -useContext x1
  clear_value x1
  extract_lets +onlyGivenNames -merge -useContext x2
  have h2 : Same 268435458 s x2 := by
    unfold x2
    split
    · rename_i v3 v4 v5
      refine Same.ite ?_ ?_
      · refine Same.seq ?_ (cancelRaise_same ..) (by decide)
        exact Same.refl _ _
      · exact Same.refl _ _
    · rename_i v6 v7
      exact Same.refl _ _
  clear_value x2
  refine Same.ite ?_ ?_
  · refine Same.seq ?_ (setDebug_same ..) (by decide)
    assumption
  · assumption

theorem alarmClearEff_same (a0 : Word) (s : State) : Same 2 s (alarmClearEff a0 s) := by
  unfold alarmClearEff
  refine Same.seq ?_ (applyWrite_same ..) (by decide)
  exact Same.refl _ _

theorem alarmEnEff_same (a0 : Word) (s : State) : Same 2 s (alarmEnEff a0 s) := by
  unfold alarmEnEff
  refine Same.ite ?_ ?_
  · refine Same.seq ?_ (applyWrite_same ..) (by decide)
    exact Same.refl _ _
  · refine Same.seq ?_ (applyWrite_same ..) (by decide)
    exact Same.refl _ _

theorem mbCmdEff_same (a0 : HostId) (a1 : Word) (a2 : Seen) (a3 : Bool) (s : State) : Same 1125899906842622 s (mbCmdEff a0 a1 a2 a3 s) := by
  unfold mbCmdEff
  extract_lets +onlyGivenNames -merge -useContext x1
  clear_value x1
  extract_lets +onlyGivenNames -merge -useContext x2
  clear_value x2
  extract_lets +onlyGivenNames -merge -useContext x3
  have h3 : Same 1125899906842622 s x3 := by
    unfold x3
    refine Same.seq ?_ (put_same ..) (by decide)
    refine Same.seq ?_ (put_same ..) (by decide)
    exact Same.refl _ _
  clear_value x3
  refine Same.ite ?_ ?_
  · assumption
  · extract_lets +onlyGivenNames -merge -useContext x4
    have h4 : Same 1125899906842622 s x4 := by
      unfold x4
      refine Same.seq ?_ (see_same ..) (by decide)
      assumption
    clear_value x4
    split
    · rename_i v5 v6
      refine Same.seq ?_ (mbNonce_same ..) (by decide)
      assumption
    · rename_i v7 v8
      refine Same.seq ?_ (mbUnlock_same ..) (by decide)
      assumption
    · rename_i v9 v10
      refine Same.seq ?_ (mbAdvance_same ..) (by decide)
      assumption
    · rename_i v11 v12
      refine Same.seq ?_ (mbAttest_same ..) (by decide)
      assumption
    · rename_i v13 v14
      refine Same.ite ?_ ?_
      · refine Same.seq ?_ (mbEnd_same ..) (by decide)
        assumption
      · refine Same.seq ?_ (mbEnd_same ..) (by decide)
        refine Same.seq ?_ (writeHost_same ..) (by decide)
        assumption
    · rename_i v15 v16
      refine Same.seq ?_ (mbExtend_same ..) (by decide)
      assumption
    · rename_i v17 v18
      refine Same.seq ?_ (mbFuseKey_same ..) (by decide)
      assumption
    · rename_i v19 v20 v21 v22 v23 v24 v25 v26
      refine Same.seq ?_ (mbEnd_same ..) (by decide)
      assumption

theorem pkeyEff_same (a0 : HostId) (a1 : Nat) (a2 : Nat) (a3 : Word) (s : State) : Same 41781441855546 s (pkeyEff a0 a1 a2 a3 s) := by
  unfold pkeyEff
  refine Same.ite ?_ ?_
  · refine Same.seq ?_ (applyWrite_same ..) (by decide)
    exact Same.refl _ _
  · refine Same.seq ?_ (writeIgnored_same ..) (by decide)
    refine Same.seq ?_ (applyWrite_same ..) (by decide)
    exact Same.refl _ _

theorem keyCmdEff_same (a0 : HostId) (a1 : Word) (a2 : Seen) (s : State) : Same 120946547490874 s (keyCmdEff a0 a1 a2 s) := by
  unfold keyCmdEff
  extract_lets +onlyGivenNames -merge -useContext x1
  clear_value x1
  extract_lets +onlyGivenNames -merge -useContext x2
  have h2 : Same 120946547490874 s x2 := by
    unfold x2
    refine Same.seq ?_ (put_same ..) (by decide)
    refine Same.seq ?_ (put_same ..) (by decide)
    exact Same.refl _ _
  clear_value x2
  refine Same.ite ?_ ?_
  · assumption
  · extract_lets +onlyGivenNames -merge -useContext x3
    clear_value x3
    split
    · rename_i v4 v5
      refine Same.seq ?_ (keyLoad_same ..) (by decide)
      refine Same.seq ?_ (see_same ..) (by decide)
      assumption
    · rename_i v6 v7
      refine Same.ite ?_ ?_
      · refine Same.seq ?_ (keyTake_same ..) (by decide)
        assumption
      · refine Same.seq ?_ (keyCmdEnd_same ..) (by decide)
        assumption
    · rename_i v8 v9 v10
      refine Same.seq ?_ (keyCmdEnd_same ..) (by decide)
      assumption

theorem specialLow?_same (h' : HostId) (base off : Nat) (v : Word) (x : WriteSide) (i : Nat) : SameOpt 1125899906842622 (specialLow? h' base off v x i) := by
  unfold specialLow?
  repeat' first | exact SameOpt.none _ | refine SameOpt.ite ?_ ?_ | refine SameOpt.some (fun s => ?_)
  · exact (resetCtlEff_same ..).mono (by decide)
  · exact (exactEff_same ..).mono (by decide)
  · exact (goEff_same ..).mono (by decide)
  · split
    · exact (portResetEff_same ..).mono (by decide)
    · exact (portSelEff_same ..).mono (by decide)
  · exact (dumCtlEff_same ..).mono (by decide)
  · exact (timeCtlEff_same ..).mono (by decide)
  · exact (timePortEff_same ..).mono (by decide)
  · exact (holdLimitEff_same ..).mono (by decide)
  · exact (budgetEff_same ..).mono (by decide)
  · exact (psCtlEff_same ..).mono (by decide)
  · exact (dbgWriteEff_same ..).mono (by decide)
  · exact (alarmClearEff_same ..).mono (by decide)
  · exact (alarmEnEff_same ..).mono (by decide)
  · exact (mbCmdEff_same ..).mono (by decide)
  · exact (pkeyEff_same ..).mono (by decide)
  · exact (keyCmdEff_same ..).mono (by decide)

theorem queueTableEff_same (a0 : Nat) (a1 : Word) (s : State) : Same 2 s (queueTableEff a0 a1 s) := by
  unfold queueTableEff
  refine Same.ite ?_ ?_
  · refine Same.seq ?_ (applyWrite_same ..) (by decide)
    exact Same.refl _ _
  · exact Same.refl _ _

theorem b4CommitEff_same (a0 : HostId) (a1 : Word) (s : State) : Same 50 s (b4CommitEff a0 a1 s) := by
  unfold b4CommitEff
  extract_lets +onlyGivenNames -merge -useContext x1
  clear_value x1
  extract_lets +onlyGivenNames -merge -useContext x2
  clear_value x2
  extract_lets +onlyGivenNames -merge -useContext x3
  clear_value x3
  extract_lets +onlyGivenNames -merge -useContext x4
  clear_value x4
  refine Same.ite ?_ ?_
  · refine Same.seq ?_ (put_same ..) (by decide)
    exact Same.refl _ _
  · extract_lets +onlyGivenNames -merge -useContext x5
    have h5 : Same 50 s x5 := by
      unfold x5
      refine Same.seq ?_ (applyWrite_same ..) (by decide)
      exact Same.refl _ _
    clear_value x5
    refine Same.seq ?_ (setHost_same ..) (by decide)
    assumption

theorem qcmdEff_same (a0 : HostId) (a1 : Word) (a2 : Seen) (s : State) : Same 69269236744250 s (qcmdEff a0 a1 a2 s) := by
  unfold qcmdEff
  extract_lets +onlyGivenNames -merge -useContext x1
  clear_value x1
  extract_lets +onlyGivenNames -merge -useContext x2
  have h2 : Same 69269236744250 s x2 := by
    unfold x2
    refine Same.seq ?_ (put_same ..) (by decide)
    refine Same.seq ?_ (put_same ..) (by decide)
    exact Same.refl _ _
  clear_value x2
  refine Same.ite ?_ ?_
  · assumption
  · refine Same.ite ?_ ?_
    · refine Same.seq ?_ (qcmdEnd_same ..) (by decide)
      assumption
    · extract_lets +onlyGivenNames -merge -useContext x3
      have h3 : Same 69269236744250 s x3 := by
        unfold x3
        refine Same.seq ?_ (see_same ..) (by decide)
        assumption
      clear_value x3
      extract_lets +onlyGivenNames -merge -useContext x4
      clear_value x4
      extract_lets +onlyGivenNames -merge -useContext x5
      clear_value x5
      extract_lets +onlyGivenNames -merge -useContext x6
      clear_value x6
      split
      · rename_i v7 v8
        refine Same.seq ?_ (queueCreate_same ..) (by decide)
        assumption
      · rename_i v9 v10
        refine Same.seq ?_ (queueModify_same ..) (by decide)
        assumption
      · rename_i v11 v12
        refine Same.seq ?_ (queueQuery_same ..) (by decide)
        assumption
      · rename_i v13 v14
        refine Same.seq ?_ (queueDestroy_same ..) (by decide)
        assumption
      · rename_i v15 v16 v17 v18 v19
        refine Same.seq ?_ (qcmdEnd_same ..) (by decide)
        assumption

theorem dcinvEff_same (a0 : HostId) (a1 : Word) (s : State) : Same 35184376283186 s (dcinvEff a0 a1 s) := by
  unfold dcinvEff
  extract_lets +onlyGivenNames -merge -useContext x1
  have h1 : Same 35184376283186 s x1 := by
    unfold x1
    refine Same.seq ?_ (put_same ..) (by decide)
    exact Same.refl _ _
  clear_value x1
  refine Same.ite ?_ ?_
  · assumption
  · extract_lets +onlyGivenNames -merge -useContext x2
    clear_value x2
    split
    · rename_i v3 v4
      refine Same.seq ?_ (put_same ..) (by decide)
      assumption
    · rename_i v5 v6 v7
      refine Same.ite ?_ ?_
      · refine Same.seq ?_ (put_same ..) (by decide)
        assumption
      · extract_lets +onlyGivenNames -merge -useContext x8
        have h8 : Same 35184376283186 s x8 := by
          unfold x8
          refine Same.seq ?_ (setQueue_same ..) (by decide)
          assumption
        clear_value x8
        refine Same.seq ?_ (vector_same ..) (by decide)
        refine Same.seq ?_ (put_same ..) (by decide)
        assumption

theorem msixCtlEff_same (a0 : HostId) (a1 : Nat) (a2 : Word) (s : State) : Same 35184372088882 s (msixCtlEff a0 a1 a2 s) := by
  unfold msixCtlEff
  refine Same.seq ?_ (sendPending_same ..) (by decide)
  refine Same.seq ?_ (applyWrite_same ..) (by decide)
  exact Same.refl _ _

theorem partHostCtlEff_same (a0 : HostId) (a1 : Word) (s : State) : Same 50 s (partHostCtlEff a0 a1 s) := by
  unfold partHostCtlEff
  extract_lets +onlyGivenNames -merge -useContext x1
  have h1 : Same 50 s x1 := by
    unfold x1
    refine Same.seq ?_ (applyWrite_same ..) (by decide)
    exact Same.refl _ _
  clear_value x1
  refine Same.seq ?_ (setHost_same ..) (by decide)
  assumption

theorem hostKickEff_same (a0 : HostId) (s : State) : Same 131187642688570 s (hostKickEff a0 s) := by
  unfold hostKickEff
  extract_lets +onlyGivenNames -merge -useContext x1
  clear_value x1
  extract_lets +onlyGivenNames -merge -useContext x2
  have h2 : Same 131187642688570 s x2 := by
    unfold x2
    refine Same.seq ?_ (setHost_same ..) (by decide)
    exact Same.refl _ _
  clear_value x2
  refine Same.ite ?_ ?_
  · refine Same.seq ?_ (hostBack_same ..) (by decide)
    refine Same.seq ?_ (put_same ..) (by decide)
    assumption
  · assumption

theorem hostLimitEff_same (a0 : HostId) (a1 : Nat) (a2 : Nat) (a3 : Word) (s : State) : Same 41781441855546 s (hostLimitEff a0 a1 a2 a3 s) := by
  unfold hostLimitEff
  refine Same.ite ?_ ?_
  · refine Same.seq ?_ (writeIgnored_same ..) (by decide)
    exact Same.refl _ _
  · refine Same.seq ?_ (applyWrite_same ..) (by decide)
    exact Same.refl _ _

theorem partAllocEff_same (a0 : Nat) (a1 : Word) (s : State) : Same 2 s (partAllocEff a0 a1 s) := by
  unfold partAllocEff
  extract_lets +onlyGivenNames -merge -useContext x1
  extract_lets +onlyGivenNames -merge -useContext x2
  clear_value x2
  extract_lets +onlyGivenNames -merge -useContext x3
  clear_value x3
  extract_lets +onlyGivenNames -merge -useContext x4
  clear_value x4
  extract_lets +onlyGivenNames -merge -useContext x5
  have h5 : Same 2 s x5 := by
    unfold x5
    refine Same.seq ?_ (put_same ..) (by decide)
    exact Same.refl _ _
  clear_value x5
  extract_lets +onlyGivenNames -merge -useContext x6
  have h6 : Same 2 s x6 := by
    unfold x6
    refine Same.seq ?_ (put_same ..) (by decide)
    refine Same.seq ?_ (put_same ..) (by decide)
    refine Same.seq ?_ (put_same ..) (by decide)
    exact Same.refl _ _
  clear_value x6
  split
  · rename_i v7 v8
    refine Same.ite ?_ ?_
    · assumption
    · extract_lets +onlyGivenNames -merge -useContext x9
      have h9 : Same 2 s x9 := by
        unfold x9
        refine Same.seq ?_ (put_same ..) (by decide)
        assumption
      clear_value x9
      refine Same.ite ?_ ?_
      · refine Same.seq ?_ (putDigest_same ..) (by decide)
        refine Same.seq ?_ (put_same ..) (by decide)
        assumption
      · assumption
  · rename_i v10 v11
    refine Same.ite ?_ ?_
    · assumption
    · assumption
  · rename_i v12 v13 v14
    refine Same.ite ?_ ?_
    · assumption
    · exact Same.refl _ _

theorem partCmdEff_same (a0 : HostId) (a1 : Word) (a2 : Seen) (s : State) : Same 139985362874362 s (partCmdEff a0 a1 a2 s) := by
  unfold partCmdEff
  extract_lets +onlyGivenNames -merge -useContext x1
  clear_value x1
  extract_lets +onlyGivenNames -merge -useContext x2
  have h2 : Same 139985362874362 s x2 := by
    unfold x2
    refine Same.seq ?_ (applyWrite_same ..) (by decide)
    exact Same.refl _ _
  clear_value x2
  refine Same.ite ?_ ?_
  · assumption
  · extract_lets +onlyGivenNames -merge -useContext x3
    have h3 : Same 139985362874362 s x3 := by
      unfold x3
      refine Same.seq ?_ (see_same ..) (by decide)
      assumption
    clear_value x3
    extract_lets +onlyGivenNames -merge -useContext x4
    clear_value x4
    extract_lets +onlyGivenNames -merge -useContext x5
    clear_value x5
    extract_lets +onlyGivenNames -merge -useContext x6
    clear_value x6
    split
    · rename_i v7 v8
      refine Same.seq ?_ (instCommand_same ..) (by decide)
      assumption
    · rename_i v9 v10
      refine Same.seq ?_ (instCommand_same ..) (by decide)
      assumption
    · rename_i v11 v12
      refine Same.seq ?_ (instCommand_same ..) (by decide)
      assumption
    · rename_i v13 v14
      refine Same.seq ?_ (freeze_same ..) (by decide)
      assumption
    · rename_i v15 v16
      refine Same.seq ?_ (thaw_same ..) (by decide)
      assumption
    · rename_i v17 v18
      refine Same.seq ?_ (save_same ..) (by decide)
      assumption
    · rename_i v19 v20
      refine Same.seq ?_ (restore_same ..) (by decide)
      assumption
    · rename_i v21 v22 v23 v24 v25 v26 v27 v28
      refine Same.seq ?_ (partCmdEnd_same ..) (by decide)
      assumption

theorem winShareEff_same (a0 : Nat) (a1 : Word) (s : State) : Same 2 s (winShareEff a0 a1 s) := by
  unfold winShareEff
  extract_lets +onlyGivenNames -merge -useContext x1
  clear_value x1
  refine Same.ite ?_ ?_
  · refine Same.seq ?_ (put_same ..) (by decide)
    exact Same.refl _ _
  · refine Same.seq ?_ (applyWrite_same ..) (by decide)
    exact Same.refl _ _

theorem trigRangeEff_same (a0 : Nat) (a1 : Bool) (a2 : Word) (s : State) : Same 2 s (trigRangeEff a0 a1 a2 s) := by
  unfold trigRangeEff
  extract_lets +onlyGivenNames -merge -useContext x1
  clear_value x1
  extract_lets +onlyGivenNames -merge -useContext x2
  clear_value x2
  extract_lets +onlyGivenNames -merge -useContext x3
  clear_value x3
  refine Same.ite ?_ ?_
  · refine Same.seq ?_ (put_same ..) (by decide)
    exact Same.refl _ _
  · refine Same.seq ?_ (applyWrite_same ..) (by decide)
    exact Same.refl _ _

theorem holdingEff_same (a0 : Nat) (a1 : Word) (s : State) : Same 2 s (holdingEff a0 a1 s) := by
  unfold holdingEff
  refine Same.ite ?_ ?_
  · refine Same.seq ?_ (partHoldingEff_same ..) (by decide)
    exact Same.refl _ _
  · refine Same.ite ?_ ?_
    · extract_lets +onlyGivenNames -merge -useContext x1
      clear_value x1
      refine Same.ite ?_ ?_
      · refine Same.seq ?_ (winShareEff_same ..) (by decide)
        exact Same.refl _ _
      · refine Same.ite ?_ ?_
        · refine Same.seq ?_ (trigRangeEff_same ..) (by decide)
          exact Same.refl _ _
        · refine Same.ite ?_ ?_
          · refine Same.seq ?_ (trigRangeEff_same ..) (by decide)
            exact Same.refl _ _
          · refine Same.seq ?_ (applyWrite_same ..) (by decide)
            exact Same.refl _ _
    · refine Same.seq ?_ (applyWrite_same ..) (by decide)
      exact Same.refl _ _

theorem parkWriteEff_same (a0 : Nat) (a1 : Word) (s : State) : Same 2 s (parkWriteEff a0 a1 s) := by
  unfold parkWriteEff
  refine Same.ite ?_ ?_
  · refine Same.seq ?_ (applyWrite_same ..) (by decide)
    exact Same.refl _ _
  · refine Same.seq ?_ (put_same ..) (by decide)
    exact Same.refl _ _

theorem winRevokeEff_same (a0 : Nat) (a1 : Word) (s : State) : Same 32770 s (winRevokeEff a0 a1 s) := by
  unfold winRevokeEff
  extract_lets +onlyGivenNames -merge -useContext x1
  clear_value x1
  refine Same.ite ?_ ?_
  · refine Same.seq ?_ (put_same ..) (by decide)
    exact Same.refl _ _
  · split
    · rename_i v2 v3 v4
      have h5 : Same 32770 s v3 := by
        refine Same.seq ?_ (startRevoke_same (h := v4) ..) (by decide)
        exact Same.refl _ _
      refine Same.seq ?_ (put_same ..) (by decide)
      assumption
    · rename_i v6 v7
      refine Same.seq ?_ (put_same ..) (by decide)
      exact Same.refl _ _

theorem sheepFailEff_same (a0 : HostId) (a1 : Nat) (s : State) : Same 131187642688570 s (sheepFailEff a0 a1 s) := by
  unfold sheepFailEff
  split
  · rename_i v1 v2
    refine Same.seq ?_ (count_same ..) (by decide)
    exact Same.refl _ _
  · rename_i v3 v4 v5
    refine Same.seq ?_ (failFault_same ..) (by decide)
    exact Same.refl _ _

theorem sheepResolveEff_same (a0 : HostId) (a1 : Nat) (a2 : Seen) (s : State) : Same 139983736238074 s (sheepResolveEff a0 a1 a2 s) := by
  unfold sheepResolveEff
  extract_lets +onlyGivenNames -merge -useContext x1
  have h1 : Same 139983736238074 s x1 := by
    unfold x1
    refine Same.seq ?_ (see_same ..) (by decide)
    exact Same.refl _ _
  clear_value x1
  split
  · rename_i v2 v3
    refine Same.seq ?_ (count_same ..) (by decide)
    assumption
  · rename_i v4 v5 v6
    split
    · rename_i v7 v8 v9
      have h10 : Same 139983736238074 s v8 := by
        refine Same.of_fst v9 ?_
        refine Same.seq ?_ (fragPresent_same ..) (by decide)
        assumption
      refine Same.foldl _ _ _ ?_ ?_
      · intro x11 a11 h11
        refine Same.seq ?_ (release_same ..) (by decide)
        assumption
      · refine Same.seq ?_ (setSheep_same ..) (by decide)
        assumption
    · rename_i v12 v13 v14
      have h15 : Same 139983736238074 s v13 := by
        refine Same.of_fst v14 ?_
        refine Same.seq ?_ (fragPresent_same ..) (by decide)
        assumption
      refine Same.seq ?_ (reopen_same ..) (by decide)
      assumption

theorem resolveEff_same (a0 : HostId) (a1 : Word) (a2 : Seen) (s : State) : Same 139983736238074 s (resolveEff a0 a1 a2 s) := by
  unfold resolveEff
  refine Same.ite ?_ ?_
  · refine Same.seq ?_ (sheepFailEff_same ..) (by decide)
    exact Same.refl _ _
  · refine Same.seq ?_ (sheepResolveEff_same ..) (by decide)
    exact Same.refl _ _

theorem specialMid?_same (h' : HostId) (base off : Nat) (v : Word) (x : WriteSide) (i : Nat) : SameOpt 139985363660794 (specialMid? h' base off v x i) := by
  unfold specialMid?
  repeat' first | exact SameOpt.none _ | refine SameOpt.ite ?_ ?_ | refine SameOpt.some (fun s => ?_)
  · exact (queueTableEff_same ..).mono (by decide)
  · exact (b4CommitEff_same ..).mono (by decide)
  · exact (qcmdEff_same ..).mono (by decide)
  · exact (dcinvEff_same ..).mono (by decide)
  · exact (msixCtlEff_same ..).mono (by decide)
  · exact (partHostCtlEff_same ..).mono (by decide)
  · exact (hostKickEff_same ..).mono (by decide)
  · exact (hostLimitEff_same ..).mono (by decide)
  · exact (partAllocEff_same ..).mono (by decide)
  · exact (partCmdEff_same ..).mono (by decide)
  · exact (holdingEff_same ..).mono (by decide)
  · exact (parkWriteEff_same ..).mono (by decide)
  · exact (holdingEff_same ..).mono (by decide)
  · exact (winRevokeEff_same ..).mono (by decide)
  · exact (resolveEff_same ..).mono (by decide)

theorem cancelEff_same (a0 : Nat) (s : State) : Same 130912798076922 s (cancelEff a0 s) := by
  unfold cancelEff
  refine Same.ite ?_ ?_
  · refine Same.seq ?_ (dropPending_same ..) (by decide)
    exact Same.refl _ _
  · refine Same.seq ?_ (put_same ..) (by decide)
    exact Same.refl _ _

theorem submitEff_same (a0 : Nat) (s : State) : Same 66 s (submitEff a0 s) := by
  unfold submitEff
  refine Same.ite ?_ ?_
  · refine Same.seq ?_ (put_same ..) (by decide)
    exact Same.refl _ _
  · extract_lets +onlyGivenNames -merge -useContext x1
    clear_value x1
    refine Same.seq ?_ (put_same ..) (by decide)
    refine Same.seq ?_ (put_same ..) (by decide)
    constructor <;> intro hb <;> first | rfl | exact absurd hb (by decide)

theorem schedCtlEff_same (a0 : Nat) (a1 : Word) (s : State) : Same 130912798076922 s (schedCtlEff a0 a1 s) := by
  unfold schedCtlEff
  extract_lets +onlyGivenNames -merge -useContext x1
  have h1 : Same 130912798076922 s x1 := by
    unfold x1
    refine Same.ite ?_ ?_
    · refine Same.seq ?_ (cancelEff_same ..) (by decide)
      exact Same.refl _ _
    · exact Same.refl _ _
  clear_value x1
  refine Same.ite ?_ ?_
  · refine Same.seq ?_ (submitEff_same ..) (by decide)
    assumption
  · assumption

theorem linkCfgEff_same (a0 : Nat) (a1 : Word) (s : State) : Same 35184376284354 s (linkCfgEff a0 a1 s) := by
  unfold linkCfgEff
  extract_lets +onlyGivenNames -merge -useContext x1
  clear_value x1
  extract_lets +onlyGivenNames -merge -useContext x2
  extract_lets +onlyGivenNames -merge -useContext x3
  extract_lets +onlyGivenNames -merge -useContext x4
  clear_value x4
  extract_lets +onlyGivenNames -merge -useContext x5
  have h5 : Same 35184376284354 s x5 := by
    unfold x5
    refine Same.seq ?_ (applyWrite_same ..) (by decide)
    exact Same.refl _ _
  clear_value x5
  refine Same.ite ?_ ?_
  · refine Same.seq ?_ (put_same ..) (by decide)
    exact Same.refl _ _
  · extract_lets +onlyGivenNames -merge -useContext x6
    have h6 : Same 35184376284354 s x6 := by
      unfold x6
      refine Same.ite ?_ ?_
      · assumption
      · refine Same.seq ?_ (preemptOff_same ..) (by decide)
        assumption
    clear_value x6
    refine Same.ite ?_ ?_
    · refine Same.ite ?_ ?_
      · refine Same.seq ?_ (put_same ..) (by decide)
        assumption
      · assumption
    · refine Same.seq ?_ (put_same ..) (by decide)
      refine Same.seq ?_ (toTraining_same ..) (by decide)
      assumption

theorem bufClassEff_same (a0 : Nat) (a1 : Nat) (a2 : Word) (s : State) : Same 2 s (bufClassEff a0 a1 a2 s) := by
  unfold bufClassEff
  extract_lets +onlyGivenNames -merge -useContext x1
  clear_value x1
  extract_lets +onlyGivenNames -merge -useContext x2
  refine Same.ite ?_ ?_
  · refine Same.seq ?_ (put_same ..) (by decide)
    exact Same.refl _ _
  · refine Same.seq ?_ (applyWrite_same ..) (by decide)
    exact Same.refl _ _

theorem meshSelfEff_same (a0 : Word) (s : State) : Same 2 s (meshSelfEff a0 s) := by
  unfold meshSelfEff
  refine Same.ite ?_ ?_
  · refine Same.seq ?_ (put_same ..) (by decide)
    exact Same.refl _ _
  · refine Same.seq ?_ (applyWrite_same ..) (by decide)
    exact Same.refl _ _

theorem meshCtlEff_same (a0 : Word) (s : State) : Same 2 s (meshCtlEff a0 s) := by
  unfold meshCtlEff
  extract_lets +onlyGivenNames -merge -useContext x1
  extract_lets +onlyGivenNames -merge -useContext x2
  extract_lets +onlyGivenNames -merge -useContext x3
  have h3 : Same 2 s x3 := by
    unfold x3
    refine Same.seq ?_ (applyWrite_same ..) (by decide)
    exact Same.refl _ _
  clear_value x3
  refine Same.ite ?_ ?_
  · refine Same.seq ?_ (put_same ..) (by decide)
    assumption
  · refine Same.ite ?_ ?_
    · refine Same.ite ?_ ?_
      · refine Same.seq ?_ (put_same ..) (by decide)
        assumption
      · refine Same.seq ?_ (put_same ..) (by decide)
        assumption
    · refine Same.ite ?_ ?_
      · refine Same.ite ?_ ?_
        · refine Same.seq ?_ (put_same ..) (by decide)
          assumption
        · refine Same.seq ?_ (put_same ..) (by decide)
          assumption
      · assumption

theorem tableWriteEff_same (a0 : Nat) (a1 : Word) (s : State) : Same 2 s (tableWriteEff a0 a1 s) := by
  unfold tableWriteEff
  extract_lets +onlyGivenNames -merge -useContext x1
  clear_value x1
  extract_lets +onlyGivenNames -merge -useContext x2
  refine Same.ite ?_ ?_
  · exact Same.refl _ _
  · refine Same.ite ?_ ?_
    · refine Same.seq ?_ (applyWrite_same ..) (by decide)
      exact Same.refl _ _
    · refine Same.seq ?_ (put_same ..) (by decide)
      exact Same.refl _ _

theorem tier1Eff_same (a0 : Nat) (a1 : Word) (s : State) : Same 2 s (tier1Eff a0 a1 s) := by
  unfold tier1Eff
  refine Same.ite ?_ ?_
  · refine Same.seq ?_ (applyWrite_same ..) (by decide)
    exact Same.refl _ _
  · exact Same.refl _ _

theorem kennelCmdEff_same (a0 : HostId) (a1 : Word) (a2 : Seen) (s : State) : Same 139708857345082 s (kennelCmdEff a0 a1 a2 s) := by
  unfold kennelCmdEff
  extract_lets +onlyGivenNames -merge -useContext x1
  clear_value x1
  extract_lets +onlyGivenNames -merge -useContext x2
  have h2 : Same 139708857345082 s x2 := by
    unfold x2
    refine Same.seq ?_ (put_same ..) (by decide)
    refine Same.seq ?_ (put_same ..) (by decide)
    exact Same.refl _ _
  clear_value x2
  refine Same.ite ?_ ?_
  · assumption
  · refine Same.ite ?_ ?_
    · refine Same.seq ?_ (kcmdEnd_same ..) (by decide)
      assumption
    · extract_lets +onlyGivenNames -merge -useContext x3
      have h3 : Same 139708857345082 s x3 := by
        unfold x3
        refine Same.seq ?_ (see_same ..) (by decide)
        assumption
      clear_value x3
      extract_lets +onlyGivenNames -merge -useContext x4
      clear_value x4
      extract_lets +onlyGivenNames -merge -useContext x5
      clear_value x5
      extract_lets +onlyGivenNames -merge -useContext x6
      clear_value x6
      extract_lets +onlyGivenNames -merge -useContext x7
      clear_value x7
      refine Same.ite ?_ ?_
      · refine Same.trans ?_ (whenIn_same (hk := by decide) (ha := ?_) ..)
        · refine Same.seq ?_ (put_same ..) (by decide)
          assumption
        · intro x8
          refine Same.seq ?_ (kennelAct_same ..) (by decide)
          exact Same.refl _ _
      · refine Same.seq ?_ (kennelAct_same ..) (by decide)
        assumption

theorem rspillEff_same (a0 : Nat) (a1 : Word) (s : State) : Same 2 s (rspillEff a0 a1 s) := by
  unfold rspillEff
  refine Same.ite ?_ ?_
  · refine Same.seq ?_ (applyWrite_same ..) (by decide)
    exact Same.refl _ _
  · refine Same.seq ?_ (memRej_same ..) (by decide)
    exact Same.refl _ _

theorem imgStoreEff_same (a0 : Nat) (a1 : Word) (s : State) : Same 2 s (imgStoreEff a0 a1 s) := by
  unfold imgStoreEff
  refine Same.ite ?_ ?_
  · refine Same.seq ?_ (applyWrite_same ..) (by decide)
    exact Same.refl _ _
  · refine Same.seq ?_ (memRej_same ..) (by decide)
    exact Same.refl _ _

theorem regionEff_same (a0 : HostId) (a1 : Nat) (a2 : Nat) (a3 : Word) (s : State) : Same 2 s (regionEff a0 a1 a2 a3 s) := by
  unfold regionEff
  extract_lets +onlyGivenNames -merge -useContext x1
  clear_value x1
  extract_lets +onlyGivenNames -merge -useContext x2
  clear_value x2
  extract_lets +onlyGivenNames -merge -useContext x3
  clear_value x3
  refine Same.ite ?_ ?_
  · refine Same.seq ?_ (applyWrite_same ..) (by decide)
    exact Same.refl _ _
  · refine Same.ite ?_ ?_
    · refine Same.ite ?_ ?_
      · refine Same.seq ?_ (put_same ..) (by decide)
        refine Same.seq ?_ (put_same ..) (by decide)
        exact Same.refl _ _
      · refine Same.seq ?_ (memRej_same ..) (by decide)
        exact Same.refl _ _
    · refine Same.ite ?_ ?_
      · refine Same.seq ?_ (memRej_same ..) (by decide)
        exact Same.refl _ _
      · refine Same.ite ?_ ?_
        · refine Same.ite ?_ ?_
          · refine Same.seq ?_ (put_same ..) (by decide)
            refine Same.seq ?_ (applyWrite_same ..) (by decide)
            exact Same.refl _ _
          · refine Same.seq ?_ (memRej_same ..) (by decide)
            exact Same.refl _ _
        · refine Same.seq ?_ (applyWrite_same ..) (by decide)
          exact Same.refl _ _

theorem pldCmdEff_same (a0 : Nat) (a1 : HostId) (a2 : Word) (a3 : Seen) (s : State) : Same 139915451965498 s (pldCmdEff a0 a1 a2 a3 s) := by
  unfold pldCmdEff
  extract_lets +onlyGivenNames -merge -useContext x1
  clear_value x1
  extract_lets +onlyGivenNames -merge -useContext x2
  clear_value x2
  extract_lets +onlyGivenNames -merge -useContext x3
  clear_value x3
  extract_lets +onlyGivenNames -merge -useContext x4
  have h4 : Same 139915451965498 s x4 := by
    unfold x4
    refine Same.seq ?_ (put_same ..) (by decide)
    refine Same.seq ?_ (put_same ..) (by decide)
    refine Same.seq ?_ (put_same ..) (by decide)
    exact Same.refl _ _
  clear_value x4
  refine Same.ite ?_ ?_
  · assumption
  · refine Same.ite ?_ ?_
    · refine Same.seq ?_ (pldEnd_same ..) (by decide)
      refine Same.seq ?_ (fresh_same ..) (by decide)
      assumption
    · split
      · rename_i v5 v6 v7
        refine Same.seq ?_ (pldEnd_same ..) (by decide)
        assumption
      · rename_i v8 v9
        refine Same.ite ?_ ?_
        · refine Same.seq ?_ (programLoad_same ..) (by decide)
          refine Same.seq ?_ (see_same ..) (by decide)
          assumption
        · refine Same.seq ?_ (pldEnd_same ..) (by decide)
          refine Same.seq ?_ (purgeHandles_same ..) (by decide)
          refine Same.seq ?_ (flushKeyCmds_same ..) (by decide)
          refine Same.foldl _ _ _ ?_ ?_
          · intro x10 a10 h10
            refine Same.seq ?_ (emptyCore_same ..) (by decide)
            assumption
          · assumption

theorem convWriteEff_same (a0 : HostId) (a1 : Nat) (a2 : Nat) (a3 : Nat) (a4 : Word) (s : State) : Same 41781441855546 s (convWriteEff a0 a1 a2 a3 a4 s) := by
  unfold convWriteEff
  extract_lets +onlyGivenNames -merge -useContext x1
  clear_value x1
  extract_lets +onlyGivenNames -merge -useContext x2
  clear_value x2
  extract_lets +onlyGivenNames -merge -useContext x3
  clear_value x3
  extract_lets +onlyGivenNames -merge -useContext x4
  clear_value x4
  refine Same.ite ?_ ?_
  · refine Same.seq ?_ (writeIgnored_same ..) (by decide)
    exact Same.refl _ _
  · refine Same.seq ?_ (applyWrite_same ..) (by decide)
    exact Same.refl _ _

theorem faultClearEff_same (a0 : Word) (s : State) : Same 549755813890 s (faultClearEff a0 s) := by
  unfold faultClearEff
  extract_lets +onlyGivenNames -merge -useContext x1
  clear_value x1
  extract_lets +onlyGivenNames -merge -useContext x2
  extract_lets +onlyGivenNames -merge -useContext x3
  have h3 : Same 549755813890 s x3 := by
    unfold x3
    unfold x2
    refine Same.ite ?_ ?_
    · refine Same.seq ?_ (put_same ..) (by decide)
      exact Same.refl _ _
    · exact Same.refl _ _
  clear_value x3
  extract_lets +onlyGivenNames -merge -useContext x4
  have h4 : Same 549755813890 s x4 := by
    unfold x4
    unfold x2
    refine Same.ite ?_ ?_
    · refine Same.seq ?_ (put_same ..) (by decide)
      assumption
    · assumption
  clear_value x4
  extract_lets +onlyGivenNames -merge -useContext x5
  have h5 : Same 549755813890 s x5 := by
    unfold x5
    unfold x2
    refine Same.ite ?_ ?_
    · refine Same.seq ?_ (put_same ..) (by decide)
      assumption
    · assumption
  clear_value x5
  refine Same.seq ?_ (showFault_same ..) (by decide)
  unfold x2
  refine Same.ite ?_ ?_
  · refine Same.seq ?_ (put_same ..) (by decide)
    assumption
  · assumption

theorem stickyClearEff_same (a0 : HostId) (s : State) : Same 41781441855546 s (stickyClearEff a0 s) := by
  unfold stickyClearEff
  refine Same.ite ?_ ?_
  · refine Same.seq ?_ (showSticky_same ..) (by decide)
    constructor <;> intro hb <;> first | rfl | exact absurd hb (by decide)
  · refine Same.seq ?_ (writeIgnored_same ..) (by decide)
    exact Same.refl _ _

theorem specialHigh?_same (h' : HostId) (base off : Nat) (v : Word) (x : WriteSide) (i j : Nat) : SameOpt 140533927473146 (specialHigh? h' base off v x i j) := by
  unfold specialHigh?
  repeat' first | exact SameOpt.none _ | refine SameOpt.ite ?_ ?_ | refine SameOpt.some (fun s => ?_)
  · exact (schedCtlEff_same ..).mono (by decide)
  · exact Same.seq ((linkCfgEff_same ..).mono (by decide)) (pathsChanged_same ..) (by decide)
  · exact (bufClassEff_same ..).mono (by decide)
  · exact (meshSelfEff_same ..).mono (by decide)
  · exact (meshCtlEff_same ..).mono (by decide)
  · exact (tableWriteEff_same ..).mono (by decide)
  · exact (tier1Eff_same ..).mono (by decide)
  · exact (kennelCmdEff_same ..).mono (by decide)
  · exact (rspillEff_same ..).mono (by decide)
  · exact (imgStoreEff_same ..).mono (by decide)
  · exact (hostLimitEff_same ..).mono (by decide)
  · exact (regionEff_same ..).mono (by decide)
  · exact (pldCmdEff_same ..).mono (by decide)
  · exact (convWriteEff_same ..).mono (by decide)
  · exact (faultClearEff_same ..).mono (by decide)
  · split
    · exact (stickyClearEff_same ..).mono (by decide)
    · exact Same.refl _ _

theorem writeEff_same (h' : HostId) (r : RegRow) (idx : List Nat) (off : Nat) (v : Word) (x : WriteSide) (s : State) : Same 1125899906842622 s (writeEff h' r idx off v x s) := by
  unfold writeEff
  extract_lets +onlyGivenNames -merge -useContext i j f
  have key : SameOpt 1125899906842622 f := by
    unfold f
    refine SameOpt.ite ?_ (SameOpt.ite ?_ ?_)
    · exact SameOpt.mono (k := 1125899906842622) (specialLow?_same _ _ _ _ _ _) (by decide)
    · exact SameOpt.mono (k := 1125899906842622) (specialMid?_same _ _ _ _ _ _) (by decide)
    · exact SameOpt.mono (k := 1125899906842622) (specialHigh?_same _ _ _ _ _ _ _) (by decide)
  clear_value i j f
  cases f with
  | none => exact (applyWrite_same ..).mono (by decide)
  | some g => exact key g rfl s

theorem writeWord_same (s : State) (a1 : HostId) (a2 : Nat) (a3 : Word) (a4 : WriteSide) : Same 1125899906842622 s (State.writeWord s a1 a2 a3 a4) := by
  unfold State.writeWord
  split
  · rename_i v1 v2
    refine Same.trans ?_ (openWrite_same (hk := by decide) (ha := ?_) ..)
    · exact Same.refl _ _
    · intro x3
      exact Same.refl _ _
  · rename_i v6 v7 v8 v9
    refine Same.ite ?_ ?_
    · refine Same.seq ?_ (partCtlWrite_same ..) (by decide)
      exact Same.refl _ _
    · refine Same.trans ?_ (hostWrite_same (hk := by decide) (ha := ?_) ..)
      · exact Same.refl _ _
      · intro x10
        refine Same.seq ?_ (writeEff_same ..) (by decide)
        exact Same.refl _ _

theorem xferCopy_same (s : State) (a1 : Nat) (a2 : Nat) (a3 : Xfer) (a4 : Nat) (a5 : Nat) : Same 131118923718714 s (State.xferCopy s a1 a2 a3 a4 a5) := by
  induction a4 generalizing s a1 a2 a3 a5 with
  | zero =>
    rw [State.xferCopy]
    refine Same.seq ?_ (xferMoved_same ..) (by decide)
    exact Same.refl _ _
  | succ n ih =>
    rw [State.xferCopy]
    refine Same.ite ?_ ?_
    · refine Same.seq ?_ (xferMoved_same ..) (by decide)
      exact Same.refl _ _
    · split
      · rename_i v1 v2 v3 v4
        have h5 : Same 131118923718714 s v2 := by
          refine Same.of_fst v4 ?_
          refine Same.seq ?_ (bufRead_same ..) (by decide)
          exact Same.refl _ _
        refine Same.seq ?_ (xferStop_same ..) (by decide)
        assumption
      · rename_i v6 v7 v8
        have h9 : Same 131118923718714 s v7 := by
          refine Same.of_fst v8 ?_
          refine Same.seq ?_ (bufRead_same ..) (by decide)
          exact Same.refl _ _
        assumption
      · rename_i v10 v11 v12 v13 v14
        have h15 : Same 131118923718714 s v11 := by
          refine Same.of_fst v14 ?_
          refine Same.seq ?_ (bufRead_same ..) (by decide)
          exact Same.refl _ _
        refine Same.seq ?_ (xferMoved_same ..) (by decide)
        assumption
      · rename_i v16 v17 v18
        have h19 : Same 131118923718714 s v17 := by
          refine Same.of_fst v18 ?_
          refine Same.seq ?_ (bufRead_same ..) (by decide)
          exact Same.refl _ _
        refine Same.seq ?_ (xferMoved_same ..) (by decide)
        assumption
      · rename_i v20 v21 v22 v23
        have h24 : Same 131118923718714 s v21 := by
          refine Same.of_fst v23 ?_
          refine Same.seq ?_ (bufRead_same ..) (by decide)
          exact Same.refl _ _
        split
        · rename_i v25 v26 v27
          have h28 : Same 131118923718714 s v26 := by
            refine Same.of_fst v27 ?_
            refine Same.seq ?_ (placeAt_same ..) (by decide)
            assumption
          assumption
        · rename_i v29 v30 v31 v32 v33
          have h34 : Same 131118923718714 s v30 := by
            refine Same.of_fst v33 ?_
            refine Same.seq ?_ (placeAt_same ..) (by decide)
            assumption
          refine Same.seq ?_ (xferMoved_same ..) (by decide)
          assumption
        · rename_i v35 v36 v37
          have h38 : Same 131118923718714 s v36 := by
            refine Same.of_fst v37 ?_
            refine Same.seq ?_ (placeAt_same ..) (by decide)
            assumption
          refine Same.seq ?_ (xferMoved_same ..) (by decide)
          assumption
        · rename_i v39 v40 v41 v42 v43 v44 v45
          have h46 : Same 131118923718714 s v40 := by
            refine Same.of_fst v45 ?_
            refine Same.seq ?_ (placeAt_same ..) (by decide)
            assumption
          refine Same.seq ?_ (ih ..) (by decide)
          refine Same.seq ?_ (modXfer_same ..) (by decide)
          assumption

theorem xferSend_same (s : State) (a1 : Nat) (a2 : Nat) (a3 : Xfer) : Same 131118922936314 s (State.xferSend s a1 a2 a3) := by
  unfold State.xferSend
  refine Same.ite ?_ ?_
  · refine Same.seq ?_ (xferMoved_same ..) (by decide)
    exact Same.refl _ _
  · split
    · rename_i v1 v2 v3 v4
      have h5 : Same 131118922936314 s v2 := by
        refine Same.of_fst v4 ?_
        refine Same.seq ?_ (bufRead_same ..) (by decide)
        exact Same.refl _ _
      refine Same.seq ?_ (xferStop_same ..) (by decide)
      assumption
    · rename_i v6 v7 v8
      have h9 : Same 131118922936314 s v7 := by
        refine Same.of_fst v8 ?_
        refine Same.seq ?_ (bufRead_same ..) (by decide)
        exact Same.refl _ _
      assumption
    · rename_i v10 v11 v12 v13 v14
      have h15 : Same 131118922936314 s v11 := by
        refine Same.of_fst v14 ?_
        refine Same.seq ?_ (bufRead_same ..) (by decide)
        exact Same.refl _ _
      refine Same.seq ?_ (xferMoved_same ..) (by decide)
      assumption
    · rename_i v16 v17 v18
      have h19 : Same 131118922936314 s v17 := by
        refine Same.of_fst v18 ?_
        refine Same.seq ?_ (bufRead_same ..) (by decide)
        exact Same.refl _ _
      refine Same.seq ?_ (xferMoved_same ..) (by decide)
      assumption
    · rename_i v20 v21 v22 v23
      have h24 : Same 131118922936314 s v21 := by
        refine Same.of_fst v23 ?_
        refine Same.seq ?_ (bufRead_same ..) (by decide)
        exact Same.refl _ _
      extract_lets +onlyGivenNames -merge -useContext x25
      clear_value x25
      extract_lets +onlyGivenNames -merge -useContext x26
      clear_value x26
      extract_lets +onlyGivenNames -merge -useContext x27
      extract_lets +onlyGivenNames -merge -useContext x28
      split
      · rename_i v29 v30
        unfold x28
        refine Same.seq ?_ (xferSettle_same ..) (by decide)
        refine Same.seq ?_ (progCross_same ..) (by decide)
        unfold x27
        refine Same.seq ?_ (modXfer_same ..) (by decide)
        assumption
      · rename_i v31 v32 v33 v34
        refine Same.ite ?_ ?_
        · refine Same.seq ?_ (xferSettle_same ..) (by decide)
          refine Same.seq ?_ (policeDrop_same ..) (by decide)
          unfold x27
          refine Same.seq ?_ (modXfer_same ..) (by decide)
          assumption
        · refine Same.ite ?_ ?_
          · assumption
          · unfold x28
            refine Same.seq ?_ (xferSettle_same ..) (by decide)
            refine Same.seq ?_ (progCross_same ..) (by decide)
            unfold x27
            refine Same.seq ?_ (modXfer_same ..) (by decide)
            refine Same.seq ?_ (takeTokens_same ..) (by decide)
            assumption

theorem xferWrite_same (s : State) (a1 : Nat) (a2 : Nat) (a3 : Xfer) (a4 : List Byte) (a5 : Nat) (a6 : Nat) : Same 131118923718714 s (State.xferWrite s a1 a2 a3 a4 a5 a6) := by
  induction a5 generalizing s a1 a2 a3 a4 a6 with
  | zero =>
    rw [State.xferWrite]
    refine Same.seq ?_ (xferMoved_same ..) (by decide)
    exact Same.refl _ _
  | succ n ih =>
    rw [State.xferWrite]
    refine Same.ite ?_ ?_
    · refine Same.seq ?_ (xferMoved_same ..) (by decide)
      exact Same.refl _ _
    · split
      · rename_i v1 v2 v3
        have h4 : Same 131118923718714 s v2 := by
          refine Same.of_fst v3 ?_
          refine Same.seq ?_ (placeAt_same ..) (by decide)
          exact Same.refl _ _
        assumption
      · rename_i v5 v6 v7 v8 v9
        have h10 : Same 131118923718714 s v6 := by
          refine Same.of_fst v9 ?_
          refine Same.seq ?_ (placeAt_same ..) (by decide)
          exact Same.refl _ _
        refine Same.seq ?_ (xferMoved_same ..) (by decide)
        assumption
      · rename_i v11 v12 v13
        have h14 : Same 131118923718714 s v12 := by
          refine Same.of_fst v13 ?_
          refine Same.seq ?_ (placeAt_same ..) (by decide)
          exact Same.refl _ _
        refine Same.seq ?_ (xferMoved_same ..) (by decide)
        assumption
      · rename_i v15 v16 v17 v18 v19 v20 v21
        have h22 : Same 131118923718714 s v16 := by
          refine Same.of_fst v21 ?_
          refine Same.seq ?_ (placeAt_same ..) (by decide)
          exact Same.refl _ _
        refine Same.seq ?_ (ih ..) (by decide)
        refine Same.seq ?_ (modXfer_same ..) (by decide)
        assumption

theorem abortEff_same (a0 : Nat) (s : State) : Same 130912764325882 s (abortEff a0 s) := by
  unfold abortEff
  split
  · rename_i v1 v2
    exact Same.refl _ _
  · rename_i v3 v4 v5 v6
    extract_lets +onlyGivenNames -merge -useContext x7
    clear_value x7
    refine Same.ite ?_ ?_
    · refine Same.trans ?_ (whenIn_same (hk := by decide) (ha := ?_) ..)
      · exact Same.refl _ _
      · intro x8
        refine Same.seq ?_ (abortRun_same ..) (by decide)
        exact Same.refl _ _
    · refine Same.seq ?_ (abortRun_same ..) (by decide)
      exact Same.refl _ _

theorem accessCommittedEff_same (a0 : Nat) (s : State) : Same 32770 s (accessCommittedEff a0 s) := by
  unfold accessCommittedEff
  refine Same.seq ?_ (setWin_same ..) (by decide)
  exact Same.refl _ _

theorem ackDelayEff_same (a0 : Nat) (s : State) : Same 130912764325882 s (ackDelayEff a0 s) := by
  unfold ackDelayEff
  split
  · rename_i v1 v2 v3
    refine Same.ite ?_ ?_
    · refine Same.trans ?_ (whenIn_same (hk := by decide) (ha := ?_) ..)
      · exact Same.refl _ _
      · intro x4
        refine Same.seq ?_ (ackDelayOut_same ..) (by decide)
        exact Same.refl _ _
    · exact Same.refl _ _
  · rename_i v7 v8
    exact Same.refl _ _

theorem admissionVerdictEff_same (a0 : Seen) (s : State) : Same 139708907876346 s (admissionVerdictEff a0 s) := by
  unfold admissionVerdictEff
  split
  · rename_i v1 v2
    exact Same.refl _ _
  · rename_i v3 v4 v5 v6
    extract_lets +onlyGivenNames -merge -useContext x7
    have h7 : Same 139708907876346 s x7 := by
      unfold x7
      refine Same.seq ?_ (see_same ..) (by decide)
      exact Same.refl _ _
    clear_value x7
    extract_lets +onlyGivenNames -merge -useContext x8
    clear_value x8
    split
    · rename_i v9 v10 v11 v12
      have h13 : Same 139708907876346 s v10 := by
        refine Same.of_fst v12 ?_
        refine Same.seq ?_ (memReadC_same ..) (by decide)
        assumption
      extract_lets +onlyGivenNames -merge -useContext x14
      clear_value x14
      refine Same.ite ?_ ?_
      · assumption
      · extract_lets +onlyGivenNames -merge -useContext x15
        clear_value x15
        extract_lets +onlyGivenNames -merge -useContext x16
        have h16 : Same 139708907876346 s x16 := by
          unfold x16
          refine Same.trans h13 ?_
          constructor <;> intro hb <;> first | rfl | exact absurd hb (by decide)
        clear_value x16
        split
        · rename_i v17 v18 v19
          refine Same.seq ?_ (refuse_same ..) (by decide)
          assumption
        · rename_i v20 v21 v22
          extract_lets +onlyGivenNames -merge -useContext x23
          clear_value x23
          refine Same.ite ?_ ?_
          · refine Same.foldl _ _ _ ?_ ?_
            · intro x24 a24 h24
              refine Same.seq ?_ (raiseLanes_same ..) (by decide)
              assumption
            · assumption
          · extract_lets +onlyGivenNames -merge -useContext x25
            have h25 : Same 139708907876346 s x25 := by
              unfold x25
              refine Same.foldl _ _ _ ?_ ?_
              · intro x26 a26 h26
                refine Same.seq ?_ (setGated_same ..) (by decide)
                assumption
              · assumption
            clear_value x25
            extract_lets +onlyGivenNames -merge -useContext x27
            clear_value x27
            split
            · rename_i v28 v29 v30
              refine Same.seq ?_ (refuse_same ..) (by decide)
              assumption
            · rename_i v31 v32
              refine Same.seq ?_ (admitted_same ..) (by decide)
              assumption

theorem aesEff_same (a0 : Nat) (a1 : Nat) (s : State) : Same 60750195335226 s (aesEff a0 a1 s) := by
  unfold aesEff
  extract_lets +onlyGivenNames -merge -useContext x1
  clear_value x1
  extract_lets +onlyGivenNames -merge -useContext x2
  clear_value x2
  extract_lets +onlyGivenNames -merge -useContext x3
  clear_value x3
  refine Same.ite ?_ ?_
  · refine Same.seq ?_ (raise_same ..) (by decide)
    exact Same.refl _ _
  · refine Same.ite ?_ ?_
    · exact Same.refl _ _
    · extract_lets +onlyGivenNames -merge -useContext x4
      clear_value x4
      refine Same.seq ?_ (exec1_same ..) (by decide)
      refine Same.seq ?_ (setCluster_same ..) (by decide)
      exact Same.refl _ _

theorem aesReturnEff_same (a0 : Nat) (s : State) : Same 275154731010 s (aesReturnEff a0 s) := by
  unfold aesReturnEff
  extract_lets +onlyGivenNames -merge -useContext x1
  clear_value x1
  split
  · rename_i v2 v3
    exact Same.refl _ _
  · rename_i v4 v5 v6 v7
    refine Same.ite ?_ ?_
    · exact Same.refl _ _
    · split
      · rename_i v8 v9
        refine Same.seq ?_ (setCore_same ..) (by decide)
        exact Same.refl _ _
      · rename_i v10 v11 v12
        refine Same.seq ?_ (tryHalt_same ..) (by decide)
        refine Same.seq ?_ (flushKeyCmds_same ..) (by decide)
        refine Same.seq ?_ (setCore_same ..) (by decide)
        exact Same.refl _ _

theorem alarmEndEff_same (a0 : Nat) (s : State) : Same 2 s (alarmEndEff a0 s) := by
  unfold alarmEndEff
  refine Same.seq ?_ (put_same ..) (by decide)
  exact Same.refl _ _

theorem alertEff_same (a0 : Nat) (a1 : Nat) (a2 : Bool) (s : State) : Same 131187642691578 s (alertEff a0 a1 a2 s) := by
  unfold alertEff
  refine Same.ite ?_ ?_
  · exact Same.refl _ _
  · extract_lets +onlyGivenNames -merge -useContext x1
    have h1 : Same 131187642691578 s x1 := by
      unfold x1
      refine Same.seq ?_ (count_same ..) (by decide)
      exact Same.refl _ _
    clear_value x1
    refine Same.ite ?_ ?_
    · refine Same.seq ?_ (takeOut_same ..) (by decide)
      assumption
    · assumption

theorem alignReceiveEff_same (a0 : Nat) (a1 : List (List Byte)) (s : State) : Same 130 s (alignReceiveEff a0 a1 s) := by
  unfold alignReceiveEff
  refine Same.trans ?_ (withOs_same (hk := by decide) (ha := ?_) ..)
  · exact Same.refl _ _
  · intro x1 x2 x3
    split
    · rename_i v4 v5 v6
      extract_lets +onlyGivenNames -merge -useContext x7
      have h7 : Same 130 x1 x7 := by
        unfold x7
        refine Same.seq ?_ (markLive_same ..) (by decide)
        exact Same.refl _ _
      clear_value x7
      refine Same.seq ?_ (setPort_same ..) (by decide)
      assumption
    · rename_i v8 v9
      exact Same.refl _ _

theorem alignSendEff_same (a0 : Nat) (s : State) : Same 35184372088832 s (alignSendEff a0 s) := by
  unfold alignSendEff
  refine Same.ite ?_ ?_
  · refine Same.seq ?_ (sendOs_same ..) (by decide)
    exact Same.refl _ _
  · exact Same.refl _ _

theorem aliveEff_same (s : State) : Same 549755813888 s (aliveEff s) := by
  unfold aliveEff
  refine Same.ite ?_ ?_
  · constructor <;> intro hb <;> first | rfl | exact absurd hb (by decide)
  · exact Same.refl _ _

theorem badAccessEff_same (a0 : HostId) (a1 : Bool) (a2 : Nat) (a3 : Nat) (s : State) : Same 41781441855546 s (badAccessEff a0 a1 a2 a3 s) := by
  unfold badAccessEff
  refine Same.ite ?_ ?_
  · exact Same.refl _ _
  · extract_lets +onlyGivenNames -merge -useContext x1
    have h1 : Same 41781441855546 s x1 := by
      unfold x1
      refine Same.ite ?_ ?_
      · refine Same.seq ?_ (writeIgnored_same ..) (by decide)
        exact Same.refl _ _
      · exact Same.refl _ _
    clear_value x1
    refine Same.ite ?_ ?_
    · assumption
    · refine Same.seq ?_ (emit_same ..) (by decide)
      assumption

theorem bankReleaseEff_same (s : State) : Same 2 s (bankReleaseEff s) := by
  unfold bankReleaseEff
  refine Same.ite ?_ ?_
  · refine Same.seq ?_ (put_same ..) (by decide)
    exact Same.refl _ _
  · exact Same.refl _ _

theorem bar0ReadEff_same (a0 : HostId) (a1 : Nat) (a2 : Nat) (s : State) : Same 112425063940158 s (bar0ReadEff a0 a1 a2 s) := by
  unfold bar0ReadEff
  refine Same.ite ?_ ?_
  · exact Same.refl _ _
  · refine Same.ite ?_ ?_
    · refine Same.seq ?_ (badAccessEff_same ..) (by decide)
      exact Same.refl _ _
    · refine Same.ite ?_ ?_
      · refine Same.seq ?_ (emit_same ..) (by decide)
        exact Same.refl _ _
      · split
        · rename_i v1 v2 v3 v4
          have h5 : Same 112425063940158 s v2 := by
            refine Same.of_fst v4 ?_
            refine Same.seq ?_ (readWord_same ..) (by decide)
            exact Same.refl _ _
          refine Same.ite ?_ ?_
          · refine Same.seq ?_ (emit_same ..) (by decide)
            assumption
          · split
            · rename_i v6 v7 v8 v9
              have h10 : Same 112425063940158 s v7 := by
                refine Same.of_fst v9 ?_
                refine Same.seq ?_ (readWord_same ..) (by decide)
                assumption
              refine Same.seq ?_ (emit_same ..) (by decide)
              assumption

theorem bar0WriteEff_same (a0 : HostId) (a1 : Nat) (a2 : BitVec 64) (a3 : Bool) (a4 : WriteSide) (s : State) : Same 1125899906842622 s (bar0WriteEff a0 a1 a2 a3 a4 s) := by
  unfold bar0WriteEff
  refine Same.ite ?_ ?_
  · refine Same.seq ?_ (badAccessEff_same ..) (by decide)
    exact Same.refl _ _
  · extract_lets +onlyGivenNames -merge -useContext x1
    have h1 : Same 1125899906842622 s x1 := by
      unfold x1
      refine Same.ite ?_ ?_
      · refine Same.seq ?_ (writeWord_same ..) (by decide)
        exact Same.refl _ _
      · exact Same.refl _ _
    clear_value x1
    refine Same.seq ?_ (writeWord_same ..) (by decide)
    assumption

theorem bar2BadEff_same (a0 : HostId) (a1 : Bool) (a2 : Nat) (a3 : Nat) (s : State) : Same 35184372088834 s (bar2BadEff a0 a1 a2 a3 s) := by
  unfold bar2BadEff
  refine Same.ite ?_ ?_
  · exact Same.refl _ _
  · refine Same.ite ?_ ?_
    · refine Same.seq ?_ (emit_same ..) (by decide)
      exact Same.refl _ _
    · refine Same.ite ?_ ?_
      · exact Same.refl _ _
      · refine Same.seq ?_ (dbRej_same ..) (by decide)
        exact Same.refl _ _

theorem bar4ReadEff_same (a0 : HostId) (a1 : Nat) (a2 : Nat) (s : State) : Same 130841892094010 s (bar4ReadEff a0 a1 a2 s) := by
  unfold bar4ReadEff
  refine Same.ite ?_ ?_
  · exact Same.refl _ _
  · refine Same.ite ?_ ?_
    · refine Same.seq ?_ (emit_same ..) (by decide)
      exact Same.refl _ _
    · refine Same.seq ?_ (b4Arrive_same ..) (by decide)
      exact Same.refl _ _

theorem bar4WriteEff_same (a0 : HostId) (a1 : Nat) (a2 : List Byte) (s : State) : Same 130841892094010 s (bar4WriteEff a0 a1 a2 s) := by
  unfold bar4WriteEff
  refine Same.ite ?_ ?_
  · exact Same.refl _ _
  · refine Same.seq ?_ (b4Arrive_same ..) (by decide)
    exact Same.refl _ _

theorem barEff_same (a0 : Nat) (a1 : Nat) (s : State) : Same 60493554262074 s (barEff a0 a1 s) := by
  unfold barEff
  extract_lets +onlyGivenNames -merge -useContext x1
  clear_value x1
  extract_lets +onlyGivenNames -merge -useContext x2
  clear_value x2
  refine Same.ite ?_ ?_
  · refine Same.seq ?_ (exec1_same ..) (by decide)
    refine Same.seq ?_ (countRelease_same ..) (by decide)
    refine Same.seq ?_ (put_same ..) (by decide)
    exact Same.refl _ _
  · refine Same.seq ?_ (barNext_same ..) (by decide)
    refine Same.seq ?_ (modCore_same ..) (by decide)
    exact Same.refl _ _

theorem barReleaseEff_same (a0 : Nat) (s : State) : Same 60493554262074 s (barReleaseEff a0 s) := by
  unfold barReleaseEff
  split
  · rename_i v1 v2 v3
    split
    · rename_i v4 v5 v6
      refine Same.ite ?_ ?_
      · refine Same.seq ?_ (barNext_same ..) (by decide)
        refine Same.seq ?_ (barEnd_same ..) (by decide)
        refine Same.seq ?_ (countRelease_same ..) (by decide)
        exact Same.refl _ _
      · exact Same.refl _ _
    · rename_i v7 v8
      exact Same.refl _ _
  · rename_i v9 v10
    exact Same.refl _ _

theorem barTimeoutEff_same (a0 : Nat) (s : State) : Same 60493554262074 s (barTimeoutEff a0 s) := by
  unfold barTimeoutEff
  split
  · rename_i v1 v2 v3
    extract_lets +onlyGivenNames -merge -useContext x4
    refine Same.ite ?_ ?_
    · exact Same.refl _ _
    · refine Same.ite ?_ ?_
      · refine Same.seq ?_ (barNext_same ..) (by decide)
        refine Same.seq ?_ (barSend_same ..) (by decide)
        exact Same.refl _ _
      · refine Same.seq ?_ (barNext_same ..) (by decide)
        refine Same.seq ?_ (barEnd_same ..) (by decide)
        refine Same.seq ?_ (emit_same ..) (by decide)
        exact Same.refl _ _
  · rename_i v5 v6
    exact Same.refl _ _

theorem barWithdrawalEff_same (a0 : Nat) (a1 : Nat) (s : State) : Same 60493554262074 s (barWithdrawalEff a0 a1 s) := by
  unfold barWithdrawalEff
  extract_lets +onlyGivenNames -merge -useContext x1
  clear_value x1
  refine Same.seq ?_ (barNext_same ..) (by decide)
  refine Same.seq ?_ (barCheck_same ..) (by decide)
  refine Same.seq ?_ (setBar_same ..) (by decide)
  exact Same.refl _ _

theorem batchTimeoutEff_same (a0 : HostId) (s : State) : Same 196610 s (batchTimeoutEff a0 s) := by
  unfold batchTimeoutEff
  extract_lets +onlyGivenNames -merge -useContext x1
  clear_value x1
  refine Same.ite ?_ ?_
  · exact Same.refl _ _
  · refine Same.seq ?_ (setSheep_same ..) (by decide)
    exact Same.refl _ _

theorem batchWriteEff_same (a0 : HostId) (s : State) : Same 41781442052146 s (batchWriteEff a0 s) := by
  unfold batchWriteEff
  extract_lets +onlyGivenNames -merge -useContext x1
  clear_value x1
  extract_lets +onlyGivenNames -merge -useContext x2
  clear_value x2
  refine Same.ite ?_ ?_
  · exact Same.refl _ _
  · extract_lets +onlyGivenNames -merge -useContext x3
    clear_value x3
    extract_lets +onlyGivenNames -merge -useContext x4
    clear_value x4
    extract_lets +onlyGivenNames -merge -useContext x5
    clear_value x5
    extract_lets +onlyGivenNames -merge -useContext x6
    have h6 : Same 41781442052146 s x6 := by
      unfold x6
      refine Same.foldl _ _ _ ?_ ?_
      · intro x7 a7 h7
        split
        · rename_i v8 v9 v10
          refine Same.seq ?_ (writeHost_same ..) (by decide)
          assumption
        · rename_i v11 v12
          assumption
      · exact Same.refl _ _
    clear_value x6
    extract_lets +onlyGivenNames -merge -useContext x13
    have h13 : Same 41781442052146 s x13 := by
      unfold x13
      refine Same.seq ?_ (put_same ..) (by decide)
      assumption
    clear_value x13
    extract_lets +onlyGivenNames -merge -useContext x14
    clear_value x14
    extract_lets +onlyGivenNames -merge -useContext x15
    have h15 : Same 41781442052146 s x15 := by
      unfold x15
      refine Same.seq ?_ (setSheep_same ..) (by decide)
      assumption
    clear_value x15
    refine Same.seq ?_ (vector_same ..) (by decide)
    assumption

theorem beaconReceiveEff_same (a0 : Nat) (a1 : List (List Byte)) (a2 : Nat) (s : State) : Same 130 s (beaconReceiveEff a0 a1 a2 s) := by
  unfold beaconReceiveEff
  refine Same.trans ?_ (withOs_same (hk := by decide) (ha := ?_) ..)
  · exact Same.refl _ _
  · intro x1 x2 x3
    split
    · rename_i v4 v5 v6 v7 v8 v9 v10 v11
      extract_lets +onlyGivenNames -merge -useContext x12
      have h12 : Same 130 x1 x12 := by
        unfold x12
        refine Same.seq ?_ (markLive_same ..) (by decide)
        exact Same.refl _ _
      clear_value x12
      extract_lets +onlyGivenNames -merge -useContext x13
      clear_value x13
      extract_lets +onlyGivenNames -merge -useContext x14
      clear_value x14
      extract_lets +onlyGivenNames -merge -useContext x15
      have h15 : Same 130 x1 x15 := by
        unfold x15
        refine Same.ite ?_ ?_
        · refine Same.seq ?_ (put_same ..) (by decide)
          assumption
        · assumption
      clear_value x15
      extract_lets +onlyGivenNames -merge -useContext x16
      clear_value x16
      extract_lets +onlyGivenNames -merge -useContext x17
      have h17 : Same 130 x1 x17 := by
        unfold x17
        refine Same.seq ?_ (setPort_same ..) (by decide)
        assumption
      clear_value x17
      refine Same.ite ?_ ?_
      · refine Same.seq ?_ (showOffset_same ..) (by decide)
        assumption
      · assumption
    · rename_i v18 v19
      exact Same.refl _ _

theorem beaconSendEff_same (a0 : Nat) (s : State) : Same 35184372088960 s (beaconSendEff a0 s) := by
  unfold beaconSendEff
  extract_lets +onlyGivenNames -merge -useContext x1
  clear_value x1
  extract_lets +onlyGivenNames -merge -useContext x2
  clear_value x2
  refine Same.ite ?_ ?_
  · extract_lets +onlyGivenNames -merge -useContext x3
    clear_value x3
    extract_lets +onlyGivenNames -merge -useContext x4
    clear_value x4
    extract_lets +onlyGivenNames -merge -useContext x5
    clear_value x5
    extract_lets +onlyGivenNames -merge -useContext x6
    clear_value x6
    extract_lets +onlyGivenNames -merge -useContext x7
    have h7 : Same 35184372088960 s x7 := by
      unfold x7
      refine Same.seq ?_ (setPort_same ..) (by decide)
      exact Same.refl _ _
    clear_value x7
    refine Same.seq ?_ (sendOs_same ..) (by decide)
    assumption
  · exact Same.refl _ _

theorem branchEff_same (a0 : Nat) (a1 : Nat) (s : State) : Same 8388608 s (branchEff a0 a1 s) := by
  unfold branchEff
  refine Same.seq ?_ (modCore_same ..) (by decide)
  exact Same.refl _ _

theorem brkEff_same (a0 : Nat) (a1 : Nat) (s : State) : Same 60750178558010 s (brkEff a0 a1 s) := by
  unfold brkEff
  refine Same.ite ?_ ?_
  · refine Same.seq ?_ (tryHalt_same ..) (by decide)
    refine Same.seq ?_ (modCore_same ..) (by decide)
    exact Same.refl _ _
  · refine Same.seq ?_ (raise_same ..) (by decide)
    exact Same.refl _ _

theorem capReleaseEff_same (s : State) : Same 549755813890 s (capReleaseEff s) := by
  unfold capReleaseEff
  refine Same.seq ?_ (put_same ..) (by decide)
  refine Same.seq ?_ (put_same ..) (by decide)
  constructor <;> intro hb <;> first | rfl | exact absurd hb (by decide)

theorem chunkSignalEff_same (a0 : Nat) (a1 : Nat) (a2 : List Nat) (a3 : Seen) (s : State) : Same 139722832965626 s (chunkSignalEff a0 a1 a2 a3 s) := by
  unfold chunkSignalEff
  extract_lets +onlyGivenNames -merge -useContext x1
  have h1 : Same 139722832965626 s x1 := by
    unfold x1
    refine Same.seq ?_ (collAbsorb_same ..) (by decide)
    refine Same.seq ?_ (see_same ..) (by decide)
    exact Same.refl _ _
  clear_value x1
  split
  · rename_i v2 v3
    assumption
  · rename_i v4 v5 v6
    refine Same.ite ?_ ?_
    · assumption
    · extract_lets +onlyGivenNames -merge -useContext x7
      have h7 : Same 139722832965626 s x7 := by
        unfold x7
        refine Same.ite ?_ ?_
        · assumption
        · refine Same.seq ?_ (collIncrement_same ..) (by decide)
          assumption
      clear_value x7
      refine Same.seq ?_ (collFeed_same ..) (by decide)
      assumption

theorem cmplEff_same (a0 : Nat) (a1 : Nat) (s : State) : Same 60475300651066 s (cmplEff a0 a1 s) := by
  unfold cmplEff
  extract_lets +onlyGivenNames -merge -useContext x1
  clear_value x1
  split
  · rename_i v2 v3
    exact Same.refl _ _
  · rename_i v4 v5 v6
    refine Same.ite ?_ ?_
    · refine Same.seq ?_ (setCore_same ..) (by decide)
      exact Same.refl _ _
    · extract_lets +onlyGivenNames -merge -useContext x7
      clear_value x7
      extract_lets +onlyGivenNames -merge -useContext x8
      clear_value x8
      refine Same.seq ?_ (flushCmpls_same ..) (by decide)
      refine Same.seq ?_ (setCore_same ..) (by decide)
      exact Same.refl _ _

theorem codewordEff_same (a0 : Nat) (a1 : BitVec 8) (s : State) : Same 130 s (codewordEff a0 a1 s) := by
  unfold codewordEff
  refine Same.ite ?_ ?_
  · refine Same.foldl _ _ _ ?_ ?_
    · intro x1 a1 h1
      refine Same.seq ?_ (dropOpen_same ..) (by decide)
      assumption
    · refine Same.seq ?_ (count_same ..) (by decide)
      exact Same.refl _ _
  · exact Same.refl _ _

theorem collCompleteEff_same (a0 : Nat) (s : State) : Same 60480669360186 s (collCompleteEff a0 s) := by
  unfold collCompleteEff
  extract_lets +onlyGivenNames -merge -useContext x1
  have h1 : Same 60480669360186 s x1 := by
    unfold x1
    refine Same.seq ?_ (collAbsorb_same ..) (by decide)
    exact Same.refl _ _
  clear_value x1
  split
  · rename_i v2 v3
    assumption
  · rename_i v4 v5 v6
    refine Same.ite ?_ ?_
    · refine Same.seq ?_ (endColl_same ..) (by decide)
      assumption
    · assumption

theorem collFailEff_same (a0 : Nat) (s : State) : Same 130926739943418 s (collFailEff a0 s) := by
  unfold collFailEff
  extract_lets +onlyGivenNames -merge -useContext x1
  have h1 : Same 130926739943418 s x1 := by
    unfold x1
    refine Same.seq ?_ (collAbsorb_same ..) (by decide)
    exact Same.refl _ _
  clear_value x1
  split
  · rename_i v2 v3
    assumption
  · rename_i v4 v5 v6
    split
    · rename_i v7 v8
      assumption
    · rename_i v9 v10 v11 v12
      extract_lets +onlyGivenNames -merge -useContext x13
      have h13 : Same 130926739943418 s x13 := by
        unfold x13
        refine Same.foldl _ _ _ ?_ ?_
        · intro x14 a14 h14
          extract_lets +onlyGivenNames -merge -useContext x15
          clear_value x15
          refine Same.ite ?_ ?_
          · assumption
          · refine Same.ite ?_ ?_
            · refine Same.seq ?_ (wordAdd_same ..) (by decide)
              assumption
            · refine Same.seq ?_ (collSend_same ..) (by decide)
              assumption
        · assumption
      clear_value x13
      refine Same.seq ?_ (endColl_same ..) (by decide)
      refine Same.seq ?_ (closeSegs_same ..) (by decide)
      assumption

theorem collStartEff_same (a0 : Nat) (a1 : Nat) (a2 : List Nat) (a3 : Seen) (s : State) : Same 139740012834810 s (collStartEff a0 a1 a2 a3 s) := by
  unfold collStartEff
  split
  · rename_i v1 v2
    exact Same.refl _ _
  · rename_i v3 v4 v5
    split
    · rename_i v6 v7
      exact Same.refl _ _
    · rename_i v8 v9 v10
      extract_lets +onlyGivenNames -merge -useContext x11
      clear_value x11
      extract_lets +onlyGivenNames -merge -useContext x12
      clear_value x12
      refine Same.ite ?_ ?_
      · exact Same.refl _ _
      · refine Same.ite ?_ ?_
        · exact Same.refl _ _
        · split
          · rename_i v13 v14 v15
            have h16 : Same 139740012834810 s v14 := by
              refine Same.of_fst v15 ?_
              refine Same.seq ?_ (collCheck_same ..) (by decide)
              refine Same.seq ?_ (collAbsorb_same ..) (by decide)
              refine Same.seq ?_ (see_same ..) (by decide)
              exact Same.refl _ _
            assumption
          · rename_i v17 v18 v19 v20
            have h21 : Same 139740012834810 s v18 := by
              refine Same.of_fst v20 ?_
              refine Same.seq ?_ (collCheck_same ..) (by decide)
              refine Same.seq ?_ (collAbsorb_same ..) (by decide)
              refine Same.seq ?_ (see_same ..) (by decide)
              exact Same.refl _ _
            refine Same.seq ?_ (endEntry_same ..) (by decide)
            assumption
          · rename_i v22 v23 v24 v25
            have h26 : Same 139740012834810 s v23 := by
              refine Same.of_fst v25 ?_
              refine Same.seq ?_ (collCheck_same ..) (by decide)
              refine Same.seq ?_ (collAbsorb_same ..) (by decide)
              refine Same.seq ?_ (see_same ..) (by decide)
              exact Same.refl _ _
            refine Same.ite ?_ ?_
            · refine Same.seq ?_ (collFeed_same ..) (by decide)
              refine Same.trans h26 ?_
              constructor <;> intro hb <;> first | rfl | exact absurd hb (by decide)
            · extract_lets +onlyGivenNames -merge -useContext x27
              clear_value x27
              extract_lets +onlyGivenNames -merge -useContext x28
              clear_value x28
              extract_lets +onlyGivenNames -merge -useContext x29
              clear_value x29
              extract_lets +onlyGivenNames -merge -useContext x30
              clear_value x30
              extract_lets +onlyGivenNames -merge -useContext x31
              clear_value x31
              refine Same.ite ?_ ?_
              · refine Same.ite ?_ ?_
                · refine Same.seq ?_ (endEntry_same ..) (by decide)
                  assumption
                · refine Same.seq ?_ (endColl_same ..) (by decide)
                  refine Same.seq ?_ (setBar_same ..) (by decide)
                  assumption
              · refine Same.ite ?_ ?_
                · assumption
                · refine Same.seq ?_ (barStart_same ..) (by decide)
                  refine Same.trans h26 ?_
                  constructor <;> intro hb <;> first | rfl | exact absurd hb (by decide)

theorem computeClearedEff_same (a0 : Tests) (s : State) : Same 272509615734778 s (computeClearedEff a0 s) := by
  unfold computeClearedEff
  refine Same.ite ?_ ?_
  · exact Same.refl _ _
  · extract_lets +onlyGivenNames -merge -useContext x1
    clear_value x1
    extract_lets +onlyGivenNames -merge -useContext x2
    have h2 : Same 272509615734778 s x2 := by
      unfold x2
      constructor <;> intro hb <;> first | rfl | exact absurd hb (by decide)
    clear_value x2
    refine Same.ite ?_ ?_
    · refine Same.seq ?_ (put_same ..) (by decide)
      assumption
    · refine Same.seq ?_ (testAndLoad_same ..) (by decide)
      assumption

theorem copyEff_same (a0 : Nat) (a1 : Seen) (s : State) : Same 139640138833978 s (copyEff a0 a1 s) := by
  unfold copyEff
  split
  · rename_i v1 v2 v3 v4
    refine Same.ite ?_ ?_
    · exact Same.refl _ _
    · refine Same.seq ?_ (copyBlocks_same ..) (by decide)
      refine Same.seq ?_ (see_same ..) (by decide)
      exact Same.refl _ _
  · rename_i v5 v6
    exact Same.refl _ _

theorem countEff_same (a0 : Nat) (a1 : Nat) (s : State) : Same 60750178558010 s (countEff a0 a1 s) := by
  unfold countEff
  refine Same.ite ?_ ?_
  · refine Same.seq ?_ (raise_same ..) (by decide)
    exact Same.refl _ _
  · refine Same.seq ?_ (execG_same ..) (by decide)
    exact Same.refl _ _

theorem cqModerationEff_same (a0 : Nat) (s : State) : Same 35184376283184 s (cqModerationEff a0 s) := by
  unfold cqModerationEff
  split
  · rename_i v1 v2 v3
    refine Same.ite ?_ ?_
    · refine Same.seq ?_ (raiseCq_same ..) (by decide)
      exact Same.refl _ _
    · exact Same.refl _ _
  · rename_i v4 v5
    exact Same.refl _ _

theorem csrrEff_same (a0 : Nat) (a1 : Nat) (s : State) : Same 60750178558010 s (csrrEff a0 a1 s) := by
  unfold csrrEff
  split
  · rename_i v1 v2 v3
    refine Same.seq ?_ (execG_same ..) (by decide)
    exact Same.refl _ _
  · rename_i v4 v5
    refine Same.seq ?_ (raise_same ..) (by decide)
    exact Same.refl _ _

theorem csrwEff_same (a0 : Nat) (a1 : Nat) (s : State) : Same 60750178558010 s (csrwEff a0 a1 s) := by
  unfold csrwEff
  extract_lets +onlyGivenNames -merge -useContext x1
  clear_value x1
  refine Same.ite ?_ ?_
  · refine Same.seq ?_ (exec1_same ..) (by decide)
    exact Same.refl _ _
  · refine Same.ite ?_ ?_
    · refine Same.seq ?_ (exec1_same ..) (by decide)
      refine Same.seq ?_ (modChan_same ..) (by decide)
      exact Same.refl _ _
    · refine Same.seq ?_ (raise_same ..) (by decide)
      exact Same.refl _ _

theorem d3hotEntryEff_same (a0 : HostId) (s : State) : Same 41781441855546 s (d3hotEntryEff a0 s) := by
  unfold d3hotEntryEff
  refine Same.seq ?_ (loseHost_same ..) (by decide)
  refine Same.seq ?_ (setHost_same ..) (by decide)
  exact Same.refl _ _

theorem d3hotExitEff_same (a0 : HostId) (s : State) : Same 131187642688570 s (d3hotExitEff a0 s) := by
  unfold d3hotExitEff
  refine Same.seq ?_ (hostBack_same ..) (by decide)
  refine Same.seq ?_ (setHost_same ..) (by decide)
  exact Same.refl _ _

theorem debugHaltEff_same (a0 : Nat) (s : State) : Same 274886295554 s (debugHaltEff a0 s) := by
  unfold debugHaltEff
  refine Same.ite ?_ ?_
  · refine Same.seq ?_ (tryHalt_same ..) (by decide)
    refine Same.seq ?_ (modCore_same ..) (by decide)
    exact Same.refl _ _
  · exact Same.refl _ _

theorem debugResumeEff_same (a0 : Nat) (s : State) : Same 274886295554 s (debugResumeEff a0 s) := by
  unfold debugResumeEff
  refine Same.ite ?_ ?_
  · refine Same.seq ?_ (tryResume_same ..) (by decide)
    refine Same.seq ?_ (modCore_same ..) (by decide)
    exact Same.refl _ _
  · exact Same.refl _ _

theorem dmovEff_same (a0 : Nat) (a1 : Nat) (s : State) : Same 60750178558010 s (dmovEff a0 a1 s) := by
  unfold dmovEff
  extract_lets +onlyGivenNames -merge -useContext x1
  clear_value x1
  extract_lets +onlyGivenNames -merge -useContext x2
  clear_value x2
  extract_lets +onlyGivenNames -merge -useContext x3
  clear_value x3
  refine Same.ite ?_ ?_
  · refine Same.seq ?_ (raise_same ..) (by decide)
    exact Same.refl _ _
  · refine Same.ite ?_ ?_
    · refine Same.seq ?_ (raise_same ..) (by decide)
      exact Same.refl _ _
    · refine Same.ite ?_ ?_
      · refine Same.seq ?_ (raise_same ..) (by decide)
        exact Same.refl _ _
      · refine Same.ite ?_ ?_
        · exact Same.refl _ _
        · extract_lets +onlyGivenNames -merge -useContext x4
          clear_value x4
          extract_lets +onlyGivenNames -merge -useContext x5
          have h5 : Same 60750178558010 s x5 := by
            unfold x5
            refine Same.seq ?_ (modChan_same ..) (by decide)
            exact Same.refl _ _
          clear_value x5
          refine Same.seq ?_ (exec1_same ..) (by decide)
          assumption

theorem doorbellEff_same (a0 : HostId) (a1 : BitVec 10) (a2 : Fin 512) (a3 : BitVec 64) (s : State) : Same 60473152110650 s (doorbellEff a0 a1 a2 a3 s) := by
  unfold doorbellEff
  refine Same.ite ?_ ?_
  · refine Same.seq ?_ (doorbell_same ..) (by decide)
    exact Same.refl _ _
  · exact Same.refl _ _

theorem drainLimitEff_same (s : State) : Same 35184372091842 s (drainLimitEff s) := by
  unfold drainLimitEff
  refine Same.ite ?_ ?_
  · extract_lets +onlyGivenNames -merge -useContext x1
    clear_value x1
    extract_lets +onlyGivenNames -merge -useContext x2
    have h2 : Same 35184372091842 s x2 := by
      unfold x2
      refine Same.seq ?_ (drainInside_same ..) (by decide)
      refine Same.foldl _ _ _ ?_ ?_
      · intro x3 a3 h3
        refine Same.seq ?_ (drainPort_same ..) (by decide)
        assumption
      · exact Same.refl _ _
    clear_value x2
    refine Same.seq ?_ (put_same ..) (by decide)
    refine Same.seq ?_ (put_same ..) (by decide)
    assumption
  · exact Same.refl _ _

theorem droverDoneEff_same (a0 : Nat) (a1 : Nat) (a2 : Seen) (s : State) : Same 139915016744954 s (droverDoneEff a0 a1 a2 s) := by
  unfold droverDoneEff
  split
  · rename_i v1 v2
    exact Same.refl _ _
  · rename_i v3 v4 v5 v6
    extract_lets +onlyGivenNames -merge -useContext x7
    have h7 : Same 139915016744954 s x7 := by
      unfold x7
      refine Same.seq ?_ (see_same ..) (by decide)
      exact Same.refl _ _
    clear_value x7
    refine Same.ite ?_ ?_
    · assumption
    · refine Same.ite ?_ ?_
      · refine Same.seq ?_ (xferSettle_same ..) (by decide)
        assumption
      · refine Same.ite ?_ ?_
        · assumption
        · refine Same.ite ?_ ?_
          · refine Same.seq ?_ (xferSend_same ..) (by decide)
            assumption
          · refine Same.ite ?_ ?_
            · refine Same.seq ?_ (xferCopy_same ..) (by decide)
              assumption
            · refine Same.ite ?_ ?_
              · refine Same.seq ?_ (streamTiles_same ..) (by decide)
                assumption
              · split
                · rename_i v8 v9 v10 v11
                  have h12 : Same 139915016744954 s v9 := by
                    refine Same.of_fst v11 ?_
                    refine Same.seq ?_ (convSource_same ..) (by decide)
                    assumption
                  refine Same.seq ?_ (xferWrite_same ..) (by decide)
                  assumption
                · rename_i v13 v14 v15
                  have h16 : Same 139915016744954 s v14 := by
                    refine Same.of_fst v15 ?_
                    refine Same.seq ?_ (convSource_same ..) (by decide)
                    assumption
                  assumption

theorem droverTakeEff_same (a0 : Nat) (a1 : Nat) (s : State) : Same 60750178558010 s (droverTakeEff a0 a1 s) := by
  unfold droverTakeEff
  split
  · rename_i v1 v2
    exact Same.refl _ _
  · rename_i v3 v4 v5 v6
    refine Same.ite ?_ ?_
    · exact Same.refl _ _
    · extract_lets +onlyGivenNames -merge -useContext x7
      clear_value x7
      refine Same.ite ?_ ?_
      · refine Same.seq ?_ (xferEnd_same ..) (by decide)
        exact Same.refl _ _
      · refine Same.seq ?_ (modXfer_same ..) (by decide)
        exact Same.refl _ _

theorem dwaitEff_same (a0 : Nat) (a1 : Nat) (s : State) : Same 8388608 s (dwaitEff a0 a1 s) := by
  unfold dwaitEff
  extract_lets +onlyGivenNames -merge -useContext x1
  clear_value x1
  extract_lets +onlyGivenNames -merge -useContext x2
  clear_value x2
  extract_lets +onlyGivenNames -merge -useContext x3
  clear_value x3
  refine Same.ite ?_ ?_
  · refine Same.seq ?_ (exec1_same ..) (by decide)
    exact Same.refl _ _
  · refine Same.seq ?_ (modCore_same ..) (by decide)
    exact Same.refl _ _

theorem dwaitReleaseEff_same (a0 : Nat) (s : State) : Same 8388608 s (dwaitReleaseEff a0 s) := by
  unfold dwaitReleaseEff
  refine Same.seq ?_ (endWait_same ..) (by decide)
  exact Same.refl _ _

theorem elpReceiveEff_same (a0 : Nat) (a1 : List Container) (a2 : Bool) (s : State) : Same 35184372092874 s (elpReceiveEff a0 a1 a2 s) := by
  unfold elpReceiveEff
  refine Same.ite ?_ ?_
  · refine Same.foldl _ _ _ ?_ ?_
    · intro x1 a1 h1
      refine Same.seq ?_ (rxContainer_same ..) (by decide)
      assumption
    · exact Same.refl _ _
  · exact Same.refl _ _

theorem endEff_same (a0 : Nat) (a1 : Nat) (s : State) : Same 60750178558010 s (endEff a0 a1 s) := by
  unfold endEff
  extract_lets +onlyGivenNames -merge -useContext x1
  have h1 : Same 60750178558010 s x1 := by
    unfold x1
    refine Same.seq ?_ (closeEvent_same ..) (by decide)
    refine Same.seq ?_ (modCore_same ..) (by decide)
    exact Same.refl _ _
  clear_value x1
  refine Same.ite ?_ ?_
  · refine Same.seq ?_ (setCoreSt_same ..) (by decide)
    assumption
  · assumption

theorem ethReceiveEff_same (a0 : Nat) (a1 : Nat) (a2 : List Byte) (a3 : Bool) (s : State) : Same 105553116270538 s (ethReceiveEff a0 a1 a2 a3 s) := by
  unfold ethReceiveEff
  refine Same.ite ?_ ?_
  · exact Same.refl _ _
  · refine Same.ite ?_ ?_
    · refine Same.seq ?_ (badFrame_same ..) (by decide)
      exact Same.refl _ _
    · extract_lets +onlyGivenNames -merge -useContext x1
      clear_value x1
      extract_lets +onlyGivenNames -merge -useContext x2
      clear_value x2
      refine Same.ite ?_ ?_
      · refine Same.ite ?_ ?_
        · exact Same.refl _ _
        · refine Same.seq ?_ (badFrame_same ..) (by decide)
          exact Same.refl _ _
      · extract_lets +onlyGivenNames -merge -useContext x3
        clear_value x3
        extract_lets +onlyGivenNames -merge -useContext x4
        clear_value x4
        extract_lets +onlyGivenNames -merge -useContext x5
        have h5 : Same 105553116270538 s x5 := by
          unfold x5
          constructor <;> intro hb <;> first | rfl | exact absurd hb (by decide)
        clear_value x5
        extract_lets +onlyGivenNames -merge -useContext x6
        clear_value x6
        extract_lets +onlyGivenNames -merge -useContext x7
        clear_value x7
        refine Same.ite ?_ ?_
        · refine Same.ite ?_ ?_
          · refine Same.seq ?_ (count_same ..) (by decide)
            assumption
          · refine Same.seq ?_ (badFrame_same ..) (by decide)
            assumption
        · refine Same.ite ?_ ?_
          · split
            · rename_i v8 v9
              refine Same.ite ?_ ?_
              · refine Same.seq ?_ (count_same ..) (by decide)
                assumption
              · refine Same.seq ?_ (badFrame_same ..) (by decide)
                assumption
            · rename_i v10 v11 v12 v13
              refine Same.seq ?_ (rxFlow_same ..) (by decide)
              refine Same.seq ?_ (fresh_same ..) (by decide)
              assumption
          · refine Same.ite ?_ ?_
            · refine Same.seq ?_ (overflow_same ..) (by decide)
              assumption
            · refine Same.ite ?_ ?_
              · refine Same.ite ?_ ?_
                · refine Same.seq ?_ (badFrame_same ..) (by decide)
                  assumption
                · refine Same.ite ?_ ?_
                  · refine Same.seq ?_ (count_same ..) (by decide)
                    assumption
                  · refine Same.seq ?_ (crossFree_same ..) (by decide)
                    assumption
              · refine Same.seq ?_ (ethTransit_same ..) (by decide)
                assumption

theorem eventStartEff_same (a0 : Nat) (s : State) : Same 274886295554 s (eventStartEff a0 s) := by
  unfold eventStartEff
  extract_lets +onlyGivenNames -merge -useContext x1
  clear_value x1
  refine Same.ite ?_ ?_
  · exact Same.refl _ _
  · split
    · rename_i v2 v3
      exact Same.refl _ _
    · rename_i v4 v5 v6 v7
      refine Same.ite ?_ ?_
      · exact Same.refl _ _
      · refine Same.seq ?_ (showEvents_same ..) (by decide)
        refine Same.seq ?_ (setCoreSt_same ..) (by decide)
        refine Same.seq ?_ (setCore_same ..) (by decide)
        exact Same.refl _ _

theorem evictionDoneEff_same (s : State) : Same 124245090788402 s (evictionDoneEff s) := by
  unfold evictionDoneEff
  refine Same.ite ?_ ?_
  · exact Same.refl _ _
  · extract_lets +onlyGivenNames -merge -useContext x1
    extract_lets +onlyGivenNames -merge -useContext x2
    have h2 : Same 124245090788402 s x2 := by
      unfold x2
      refine Same.foldl _ _ _ ?_ ?_
      · intro x3 a3 h3
        refine Same.trans h3 ?_
        constructor <;> intro hb <;> first | rfl | exact absurd hb (by decide)
      · exact Same.refl _ _
    clear_value x2
    extract_lets +onlyGivenNames -merge -useContext x4
    have h4 : Same 124245090788402 s x4 := by
      unfold x4
      refine Same.foldl _ _ _ ?_ ?_
      · intro x5 a5 h5
        refine Same.seq ?_ (freePartition_same ..) (by decide)
        assumption
      · assumption
    clear_value x4
    extract_lets +onlyGivenNames -merge -useContext x6
    have h6 : Same 124245090788402 s x6 := by
      unfold x6
      refine Same.seq ?_ (put_same ..) (by decide)
      refine Same.seq ?_ (clearKennel_same ..) (by decide)
      refine Same.seq ?_ (eraseAllKeys_same ..) (by decide)
      assumption
    clear_value x6
    extract_lets +onlyGivenNames -merge -useContext x7
    have h7 : Same 124245090788402 s x7 := by
      unfold x7
      split
      · rename_i v8 v9 v10
        refine Same.seq ?_ (setDebug_same ..) (by decide)
        assumption
      · rename_i v11 v12
        assumption
    clear_value x7
    refine Same.trans h7 ?_
    constructor <;> intro hb <;> first | rfl | exact absurd hb (by decide)

theorem execRegisterWrite_same (a0 : HostId) (a1 : BitVec 24) (a2 : BitVec 64) (a3 : Bool) (a4 : WriteSide) (s : State) {t : State} (h : execRegisterWrite a0 a1 a2 a3 a4 s = .next t) : Same 1125899906842622 s t := by
  unfold execRegisterWrite at h
  injection h with h
  refine Same.of_eq h ?_
  clear h
  refine Same.seq ?_ (bar0WriteEff_same ..) (by decide)
  exact Same.refl _ _

theorem execRcCounterRead_same (a0 : HostId) (a1 : BitVec 24) (a2 : Bool) (s : State) {t : State} (h : execRcCounterRead a0 a1 a2 s = .next t) : Same 112425063940158 s t := by
  unfold execRcCounterRead at h
  injection h with h
  refine Same.of_eq h ?_
  clear h
  refine Same.seq ?_ (bar0ReadEff_same ..) (by decide)
  exact Same.refl _ _

theorem execBar0BadAccess_same (a0 : HostId) (a1 : Bool) (a2 : BitVec 24) (a3 : Nat) (s : State) {t : State} (h : execBar0BadAccess a0 a1 a2 a3 s = .next t) : Same 41781441855546 s t := by
  unfold execBar0BadAccess at h
  injection h with h
  refine Same.of_eq h ?_
  clear h
  refine Same.ite ?_ ?_
  · exact Same.refl _ _
  · refine Same.seq ?_ (badAccessEff_same ..) (by decide)
    exact Same.refl _ _

theorem execTimeCtlWrite_same (a0 : HostId) (a1 : Word) (s : State) {t : State} (h : execTimeCtlWrite a0 a1 s = .next t) : Same 41781441855614 s t := by
  unfold execTimeCtlWrite at h
  injection h with h
  refine Same.of_eq h ?_
  clear h
  refine Same.trans ?_ (hostWrite_same (hk := by decide) (ha := ?_) ..)
  · exact Same.refl _ _
  · intro x1
    refine Same.seq ?_ (timeCtlEff_same ..) (by decide)
    exact Same.refl _ _

theorem execSetArm_same (a0 : HostId) (a1 : Word) (s : State) {t : State} (h : execSetArm a0 a1 s = .next t) : Same 41781441855614 s t := by
  unfold execSetArm at h
  injection h with h
  refine Same.of_eq h ?_
  clear h
  refine Same.trans ?_ (hostWrite_same (hk := by decide) (ha := ?_) ..)
  · exact Same.refl _ _
  · intro x1
    refine Same.seq ?_ (timeCtlEff_same ..) (by decide)
    exact Same.refl _ _

theorem execTimePortWrite_same (a0 : HostId) (a1 : Word) (s : State) {t : State} (h : execTimePortWrite a0 a1 s = .next t) : Same 41781441855614 s t := by
  unfold execTimePortWrite at h
  injection h with h
  refine Same.of_eq h ?_
  clear h
  refine Same.trans ?_ (hostWrite_same (hk := by decide) (ha := ?_) ..)
  · exact Same.refl _ _
  · intro x1
    refine Same.seq ?_ (timePortEff_same ..) (by decide)
    exact Same.refl _ _

theorem execTimeHoldLimitWrite_same (a0 : HostId) (a1 : Word) (s : State) {t : State} (h : execTimeHoldLimitWrite a0 a1 s = .next t) : Same 41781441855550 s t := by
  unfold execTimeHoldLimitWrite at h
  injection h with h
  refine Same.of_eq h ?_
  clear h
  refine Same.trans ?_ (hostWrite_same (hk := by decide) (ha := ?_) ..)
  · exact Same.refl _ _
  · intro x1
    refine Same.seq ?_ (holdLimitEff_same ..) (by decide)
    exact Same.refl _ _

theorem timeNowReadEff_same (a0 : HostId) (a1 : Bool) (s : State) : Same 35184372088836 s (timeNowReadEff a0 a1 s) := by
  unfold timeNowReadEff
  refine Same.ite ?_ ?_
  · refine Same.seq ?_ (emit_same ..) (by decide)
    refine Same.seq ?_ (latchNow_same ..) (by decide)
    exact Same.refl _ _
  · exact Same.refl _ _

theorem execTimeNowRead_same (a0 : HostId) (a1 : Bool) (s : State) {t : State} (h : execTimeNowRead a0 a1 s = .next t) : Same 35184372088836 s t := by
  unfold execTimeNowRead at h
  injection h with h
  refine Same.of_eq h ?_
  clear h
  refine Same.seq ?_ (timeNowReadEff_same ..) (by decide)
  exact Same.refl _ _

theorem setAssignEff_same (s : State) : Same 844424930131974 s (setAssignEff s) := by
  unfold setAssignEff
  split
  · rename_i v1 v2
    exact Same.refl _ _
  · rename_i v3 v4 v5
    extract_lets +onlyGivenNames -merge -useContext x6
    have h6 : Same 844424930131974 s x6 := by
      unfold x6
      refine Same.seq ?_ (put_same ..) (by decide)
      refine Same.seq ?_ (put_same ..) (by decide)
      refine Same.seq ?_ (setFt_same ..) (by decide)
      exact Same.refl _ _
    clear_value x6
    refine Same.trans h6 ?_
    constructor <;> intro hb <;> first | rfl | exact absurd hb (by decide)

theorem execTimeSetAssign_same (s : State) {t : State} (h : execTimeSetAssign s = .next t) : Same 844424930131974 s t := by
  unfold execTimeSetAssign at h
  injection h with h
  refine Same.of_eq h ?_
  clear h
  refine Same.seq ?_ (setAssignEff_same ..) (by decide)
  exact Same.refl _ _

theorem execSourceLost_same (a0 : Nat) (s : State) {t : State} (h : execSourceLost a0 s = .next t) : Same 70 s t := by
  unfold execSourceLost at h
  injection h with h
  refine Same.of_eq h ?_
  clear h
  refine Same.seq ?_ (sourceLostEff_same ..) (by decide)
  exact Same.refl _ _

theorem sourceValidEff_same (a0 : Int) (a1 : Nat) (s : State) : Same 6 s (sourceValidEff a0 a1 s) := by
  unfold sourceValidEff
  extract_lets +onlyGivenNames -merge -useContext x1
  clear_value x1
  extract_lets +onlyGivenNames -merge -useContext x2
  refine Same.ite ?_ ?_
  · exact Same.refl _ _
  · refine Same.ite ?_ ?_
    · extract_lets +onlyGivenNames -merge -useContext x3
      have h3 : Same 6 s x3 := by
        unfold x3
        refine Same.seq ?_ (checkLoss_same ..) (by decide)
        refine Same.seq ?_ (holdTo_same ..) (by decide)
        exact Same.refl _ _
      clear_value x3
      refine Same.ite ?_ ?_
      · extract_lets +onlyGivenNames -merge -useContext x4
        have h4 : Same 6 s x4 := by
          unfold x4
          unfold x2
          refine Same.seq ?_ (put_same ..) (by decide)
          refine Same.seq ?_ (put_same ..) (by decide)
          assumption
        clear_value x4
        refine Same.trans h4 ?_
        constructor <;> intro hb <;> first | rfl | exact absurd hb (by decide) | (dsimp only; split <;> rfl) | (simp only [h3.ftNs hb, h4.ftNs hb]; done) | exact (h3.ftNs hb).symm | exact (h4.ftNs hb).symm | (simp only [h3.ftFrac hb, h4.ftFrac hb]; done) | exact (h3.ftFrac hb).symm | exact (h4.ftFrac hb).symm | (simp only [h3.fuses hb, h4.fuses hb]; done) | exact (h3.fuses hb).symm | exact (h4.fuses hb).symm
      · extract_lets +onlyGivenNames -merge -useContext x5
        have h5 : Same 6 s x5 := by
          unfold x5
          refine Same.seq ?_ (noSource_same ..) (by decide)
          assumption
        clear_value x5
        refine Same.seq ?_ (checkLoss_same ..) (by decide)
        refine Same.trans h5 ?_
        constructor <;> intro hb <;> first | rfl | exact absurd hb (by decide)
    · refine Same.ite ?_ ?_
      · refine Same.seq ?_ (put_same ..) (by decide)
        unfold x2
        refine Same.seq ?_ (put_same ..) (by decide)
        refine Same.seq ?_ (put_same ..) (by decide)
        exact Same.refl _ _
      · unfold x2
        refine Same.seq ?_ (put_same ..) (by decide)
        refine Same.seq ?_ (put_same ..) (by decide)
        exact Same.refl _ _

theorem execSourceValid_same (a0 : Int) (a1 : Nat) (s : State) {t : State} (h : execSourceValid a0 a1 s = .next t) : Same 6 s t := by
  unfold execSourceValid at h
  injection h with h
  refine Same.of_eq h ?_
  clear h
  refine Same.seq ?_ (sourceValidEff_same ..) (by decide)
  exact Same.refl _ _

theorem lockAchievedEff_same (a0 : Nat) (s : State) : Same 844424930131974 s (lockAchievedEff a0 s) := by
  unfold lockAchievedEff
  extract_lets +onlyGivenNames -merge -useContext x1
  clear_value x1
  refine Same.ite ?_ ?_
  · refine Same.seq ?_ (put_same ..) (by decide)
    refine Same.seq ?_ (put_same ..) (by decide)
    refine Same.seq ?_ (put_same ..) (by decide)
    refine Same.seq ?_ (setFt_same ..) (by decide)
    exact Same.refl _ _
  · refine Same.ite ?_ ?_
    · extract_lets +onlyGivenNames -merge -useContext x2
      have h2 : Same 844424930131974 s x2 := by
        unfold x2
        refine Same.seq ?_ (put_same ..) (by decide)
        refine Same.seq ?_ (put_same ..) (by decide)
        refine Same.seq ?_ (put_same ..) (by decide)
        exact Same.refl _ _
      clear_value x2
      refine Same.trans h2 ?_
      constructor <;> intro hb <;> first | rfl | exact absurd hb (by decide)
    · exact Same.refl _ _

theorem execLockAchieved_same (a0 : Nat) (s : State) {t : State} (h : execLockAchieved a0 s = .next t) : Same 844424930131974 s t := by
  unfold execLockAchieved at h
  injection h with h
  refine Same.of_eq h ?_
  clear h
  refine Same.seq ?_ (lockAchievedEff_same ..) (by decide)
  exact Same.refl _ _

theorem srcStepEff_same (s : State) : Same 70 s (srcStepEff s) := by
  unfold srcStepEff
  refine Same.ite ?_ ?_
  · refine Same.seq ?_ (put_same ..) (by decide)
    refine Same.seq ?_ (startHoldover_same ..) (by decide)
    refine Same.seq ?_ (noSource_same ..) (by decide)
    exact Same.refl _ _
  · exact Same.refl _ _

theorem execSrcStep_same (s : State) {t : State} (h : execSrcStep s = .next t) : Same 70 s t := by
  unfold execSrcStep at h
  injection h with h
  refine Same.of_eq h ?_
  clear h
  refine Same.seq ?_ (srcStepEff_same ..) (by decide)
  exact Same.refl _ _

theorem holdLimitReachedEff_same (s : State) : Same 6 s (holdLimitReachedEff s) := by
  unfold holdLimitReachedEff
  refine Same.ite ?_ ?_
  · refine Same.seq ?_ (checkLoss_same ..) (by decide)
    refine Same.seq ?_ (holdTo_same ..) (by decide)
    exact Same.refl _ _
  · exact Same.refl _ _

theorem execHoldoverLimitReached_same (s : State) {t : State} (h : execHoldoverLimitReached s = .next t) : Same 6 s t := by
  unfold execHoldoverLimitReached at h
  injection h with h
  refine Same.of_eq h ?_
  clear h
  refine Same.seq ?_ (holdLimitReachedEff_same ..) (by decide)
  exact Same.refl _ _

theorem timeLostEff_same (s : State) : Same 975647301398526 s (timeLostEff s) := by
  unfold timeLostEff
  refine Same.ite ?_ ?_
  · refine Same.seq ?_ (toSlot_same ..) (by decide)
    exact Same.refl _ _
  · exact Same.refl _ _

theorem execTimeLost_same (s : State) {t : State} (h : execTimeLost s = .next t) : Same 975647301398526 s t := by
  unfold execTimeLost at h
  injection h with h
  refine Same.of_eq h ?_
  clear h
  refine Same.seq ?_ (timeLostEff_same ..) (by decide)
  exact Same.refl _ _

theorem slotBoundaryEff_same (s : State) : Same 975647301398526 s (slotBoundaryEff s) := by
  unfold slotBoundaryEff
  refine Same.seq ?_ (toSlot_same ..) (by decide)
  exact Same.refl _ _

theorem execSlotBoundary_same (s : State) {t : State} (h : execSlotBoundary s = .next t) : Same 975647301398526 s t := by
  unfold execSlotBoundary at h
  injection h with h
  refine Same.of_eq h ?_
  clear h
  refine Same.seq ?_ (slotBoundaryEff_same ..) (by decide)
  exact Same.refl _ _

theorem ptpReceiveEff_same (a0 : PortId) (a1 : PtpMsg) (a2 : BitVec 64) (s : State) : Same 35184372088838 s (ptpReceiveEff a0 a1 a2 s) := by
  unfold ptpReceiveEff
  refine Same.ite ?_ ?_
  · exact Same.refl _ _
  · extract_lets +onlyGivenNames -merge -useContext x1
    extract_lets +onlyGivenNames -merge -useContext x2
    have h2 : Same 35184372088838 s x2 := by
      unfold x2
      constructor <;> intro hb <;> first | rfl | exact absurd hb (by decide)
    clear_value x2
    extract_lets +onlyGivenNames -merge -useContext x3
    clear_value x3
    extract_lets +onlyGivenNames -merge -useContext x4
    have h4 : Same 35184372088838 s x4 := by
      unfold x4
      refine Same.seq ?_ (setPtp_same ..) (by decide)
      assumption
    clear_value x4
    extract_lets +onlyGivenNames -merge -useContext x5
    have h5 : Same 35184372088838 s x5 := by
      unfold x5
      refine Same.ite ?_ ?_
      · split
        · rename_i v6 v7 v8
          refine Same.seq ?_ (showOffset_same ..) (by decide)
          assumption
        · rename_i v9 v10
          assumption
      · assumption
    clear_value x5
    refine Same.seq ?_ (emits_same ..) (by decide)
    assumption

theorem execPtpMessageReceive_same (a0 : PortId) (a1 : PtpMsg) (a2 : BitVec 64) (s : State) {t : State} (h : execPtpMessageReceive a0 a1 a2 s = .next t) : Same 35184372088838 s t := by
  unfold execPtpMessageReceive at h
  injection h with h
  refine Same.of_eq h ?_
  clear h
  refine Same.seq ?_ (ptpReceiveEff_same ..) (by decide)
  exact Same.refl _ _

theorem execBeaconSend_same (a0 : PortId) (s : State) {t : State} (h : execBeaconSend a0 s = .next t) : Same 35184372088960 s t := by
  unfold execBeaconSend at h
  injection h with h
  refine Same.of_eq h ?_
  clear h
  refine Same.seq ?_ (beaconSendEff_same ..) (by decide)
  exact Same.refl _ _

theorem execBeaconReceive_same (a0 : PortId) (a1 : List (List Byte)) (a2 : Nat) (s : State) {t : State} (h : execBeaconReceive a0 a1 a2 s = .next t) : Same 130 s t := by
  unfold execBeaconReceive at h
  injection h with h
  refine Same.of_eq h ?_
  clear h
  refine Same.seq ?_ (beaconReceiveEff_same ..) (by decide)
  exact Same.refl _ _

theorem execBarrierArrival_same (a0 : Fin 16) (a1 : Word) (a2 : Fin 1024) (a3 : BitVec 64) (a4 : Fin 5) (s : State) {t : State} (h : execBarrierArrival a0 a1 a2 a3 a4 s = .next t) : Same 60493554262074 s t := by
  unfold execBarrierArrival at h
  injection h with h
  refine Same.of_eq h ?_
  clear h
  refine Same.seq ?_ (barNext_same ..) (by decide)
  refine Same.seq ?_ (barArrive_same ..) (by decide)
  exact Same.refl _ _

theorem execBarrierReleaseReceive_same (a0 : Fin 16) (a1 : Word) (a2 : Option (BitVec 64)) (a3 : Bool) (s : State) {t : State} (h : execBarrierReleaseReceive a0 a1 a2 a3 s = .next t) : Same 60493554262074 s t := by
  unfold execBarrierReleaseReceive at h
  injection h with h
  refine Same.of_eq h ?_
  clear h
  refine Same.seq ?_ (barNext_same ..) (by decide)
  refine Same.seq ?_ (barRelease_same ..) (by decide)
  exact Same.refl _ _

theorem execBarrierRelease_same (a0 : Fin 16) (s : State) {t : State} (h : execBarrierRelease a0 s = .next t) : Same 60493554262074 s t := by
  unfold execBarrierRelease at h
  injection h with h
  refine Same.of_eq h ?_
  clear h
  refine Same.seq ?_ (barReleaseEff_same ..) (by decide)
  exact Same.refl _ _

theorem unitFailureEff_same (a0 : UnitId) (a1 : List (BitVec 24)) (s : State) : Same 131187642691578 s (unitFailureEff a0 a1 s) := by
  unfold unitFailureEff
  extract_lets +onlyGivenNames -merge -useContext x1
  clear_value x1
  refine Same.seq ?_ (takeOut_same ..) (by decide)
  constructor <;> intro hb <;> first | rfl | exact absurd hb (by decide)

theorem execUnitFailure_same (a0 : UnitFailing) (s : State) {t : State} (h : execUnitFailure a0 s = .next t) : Same 131187642691578 s t := by
  unfold execUnitFailure at h
  injection h with h
  refine Same.of_eq h ?_
  clear h
  refine Same.seq ?_ (unitFailureEff_same ..) (by decide)
  exact Same.refl _ _

theorem execCommit_same (a0 : HostId) (s : State) {t : State} (h : execCommit a0 s = .next t) : Same 131222371266554 s t := by
  unfold execCommit at h
  injection h with h
  refine Same.of_eq h ?_
  clear h
  refine Same.trans ?_ (hostWrite_same (hk := by decide) (ha := ?_) ..)
  · exact Same.refl _ _
  · intro x1
    refine Same.seq ?_ (dumCtlEff_same ..) (by decide)
    exact Same.refl _ _

theorem execLinkCfgWrite_same (a0 : HostId) (a1 : PortId) (a2 : Word) (s : State) {t : State} (h : execLinkCfgWrite a0 a1 a2 s = .next t) : Same 130912764522490 s t := by
  unfold execLinkCfgWrite at h
  injection h with h
  refine Same.of_eq h ?_
  clear h
  refine Same.trans ?_ (hostWrite_same (hk := by decide) (ha := ?_) ..)
  · exact Same.refl _ _
  · intro x1
    refine Same.seq ?_ (pathsChanged_same ..) (by decide)
    refine Same.seq ?_ (linkCfgEff_same ..) (by decide)
    exact Same.refl _ _

theorem execLinkBufClassWrite_same (a0 : HostId) (a1 : PortId) (a2 : Fin 4) (a3 : Word) (s : State) {t : State} (h : execLinkBufClassWrite a0 a1 a2 a3 s = .next t) : Same 41781441855546 s t := by
  unfold execLinkBufClassWrite at h
  injection h with h
  refine Same.of_eq h ?_
  clear h
  refine Same.trans ?_ (hostWrite_same (hk := by decide) (ha := ?_) ..)
  · exact Same.refl _ _
  · intro x1
    refine Same.seq ?_ (bufClassEff_same ..) (by decide)
    exact Same.refl _ _

theorem execEthFrameReceive_same (a0 : PortId) (a1 : Fin 4) (a2 : List Byte) (a3 : Bool) (s : State) {t : State} (h : execEthFrameReceive a0 a1 a2 a3 s = .next t) : Same 105553116270538 s t := by
  unfold execEthFrameReceive at h
  injection h with h
  refine Same.of_eq h ?_
  clear h
  refine Same.seq ?_ (ethReceiveEff_same ..) (by decide)
  exact Same.refl _ _

theorem pfcReceiveEff_same (a0 : Nat) (a1 : Nat) (a2 : BitVec 8) (a3 : List (BitVec 16)) (s : State) : Same 130 s (pfcReceiveEff a0 a1 a2 a3 s) := by
  unfold pfcReceiveEff
  refine Same.ite ?_ ?_
  · exact Same.refl _ _
  · extract_lets +onlyGivenNames -merge -useContext x1
    extract_lets +onlyGivenNames -merge -useContext x2
    clear_value x2
    extract_lets +onlyGivenNames -merge -useContext x3
    have h3 : Same 130 s x3 := by
      unfold x3
      refine Same.foldl _ _ _ ?_ ?_
      · intro x4 a4 h4
        extract_lets +onlyGivenNames -merge -useContext x5
        clear_value x5
        refine Same.ite ?_ ?_
        · assumption
        · refine Same.seq ?_ (pauseClass_same ..) (by decide)
          assumption
      · exact Same.refl _ _
    clear_value x3
    refine Same.ite ?_ ?_
    · refine Same.seq ?_ (count_same ..) (by decide)
      assumption
    · assumption

theorem execPfcFrameReceive_same (a0 : PortId) (a1 : Fin 4) (a2 : BitVec 8) (a3 : List (BitVec 16)) (s : State) {t : State} (h : execPfcFrameReceive a0 a1 a2 a3 s = .next t) : Same 130 s t := by
  unfold execPfcFrameReceive at h
  injection h with h
  refine Same.of_eq h ?_
  clear h
  refine Same.seq ?_ (pfcReceiveEff_same ..) (by decide)
  exact Same.refl _ _

theorem pauseReceiveEff_same (a0 : Nat) (a1 : Nat) (a2 : BitVec 16) (s : State) : Same 128 s (pauseReceiveEff a0 a1 a2 s) := by
  unfold pauseReceiveEff
  refine Same.ite ?_ ?_
  · exact Same.refl _ _
  · refine Same.foldl _ _ _ ?_ ?_
    · intro x1 a1 h1
      refine Same.seq ?_ (pauseClass_same ..) (by decide)
      assumption
    · exact Same.refl _ _

theorem execPauseFrameReceive_same (a0 : PortId) (a1 : Fin 4) (a2 : BitVec 16) (s : State) {t : State} (h : execPauseFrameReceive a0 a1 a2 s = .next t) : Same 128 s t := by
  unfold execPauseFrameReceive at h
  injection h with h
  refine Same.of_eq h ?_
  clear h
  refine Same.seq ?_ (pauseReceiveEff_same ..) (by decide)
  exact Same.refl _ _

theorem pfcRefreshEff_same (a0 : Nat) (a1 : Nat) (a2 : Nat) (s : State) : Same 35184372088832 s (pfcRefreshEff a0 a1 a2 s) := by
  unfold pfcRefreshEff
  extract_lets +onlyGivenNames -merge -useContext x1
  clear_value x1
  extract_lets +onlyGivenNames -merge -useContext x2
  clear_value x2
  refine Same.ite ?_ ?_
  · refine Same.seq ?_ (sendPause_same ..) (by decide)
    exact Same.refl _ _
  · exact Same.refl _ _

theorem execPfcRefresh_same (a0 : PortId) (a1 : Fin 4) (a2 : Fin 8) (s : State) {t : State} (h : execPfcRefresh a0 a1 a2 s = .next t) : Same 35184372088832 s t := by
  unfold execPfcRefresh at h
  injection h with h
  refine Same.of_eq h ?_
  clear h
  refine Same.seq ?_ (pfcRefreshEff_same ..) (by decide)
  exact Same.refl _ _

theorem pauseExpiryEff_same (a0 : Nat) (a1 : Nat) (a2 : Nat) (s : State) : Same 128 s (pauseExpiryEff a0 a1 a2 s) := by
  unfold pauseExpiryEff
  refine Same.seq ?_ (pauseClass_same ..) (by decide)
  exact Same.refl _ _

theorem execPauseTimeExpiry_same (a0 : PortId) (a1 : Fin 4) (a2 : Fin 8) (s : State) {t : State} (h : execPauseTimeExpiry a0 a1 a2 s = .next t) : Same 128 s t := by
  unfold execPauseTimeExpiry at h
  injection h with h
  refine Same.of_eq h ?_
  clear h
  refine Same.seq ?_ (pauseExpiryEff_same ..) (by decide)
  exact Same.refl _ _

theorem preemptVerifyEff_same (a0 : Nat) (a1 : Nat) (a2 : Bool) (s : State) : Same 130 s (preemptVerifyEff a0 a1 a2 s) := by
  unfold preemptVerifyEff
  refine Same.ite ?_ ?_
  · exact Same.refl _ _
  · refine Same.ite ?_ ?_
    · refine Same.seq ?_ (preempting_same ..) (by decide)
      exact Same.refl _ _
    · refine Same.seq ?_ (put_same ..) (by decide)
      exact Same.refl _ _

theorem execPreemptVerify_same (a0 : PortId) (a1 : Fin 4) (a2 : Bool) (s : State) {t : State} (h : execPreemptVerify a0 a1 a2 s = .next t) : Same 130 s t := by
  unfold execPreemptVerify at h
  injection h with h
  refine Same.of_eq h ?_
  clear h
  refine Same.seq ?_ (preemptVerifyEff_same ..) (by decide)
  exact Same.refl _ _

theorem execElpFrameReceive_same (a0 : PortId) (a1 : List Container) (a2 : Bool) (s : State) {t : State} (h : execElpFrameReceive a0 a1 a2 s = .next t) : Same 130912764522490 s t := by
  unfold execElpFrameReceive at h
  injection h with h
  refine Same.of_eq h ?_
  clear h
  refine Same.seq ?_ (pathsChanged_same ..) (by decide)
  refine Same.seq ?_ (elpReceiveEff_same ..) (by decide)
  exact Same.refl _ _

theorem execCodewordUncorrectable_same (a0 : PortId) (a1 : BitVec 8) (s : State) {t : State} (h : execCodewordUncorrectable a0 a1 s = .next t) : Same 130 s t := by
  unfold execCodewordUncorrectable at h
  injection h with h
  refine Same.of_eq h ?_
  clear h
  refine Same.seq ?_ (codewordEff_same ..) (by decide)
  exact Same.refl _ _

theorem execAlignSend_same (a0 : PortId) (s : State) {t : State} (h : execAlignSend a0 s = .next t) : Same 35184372088832 s t := by
  unfold execAlignSend at h
  injection h with h
  refine Same.of_eq h ?_
  clear h
  refine Same.seq ?_ (alignSendEff_same ..) (by decide)
  exact Same.refl _ _

theorem execAlignReceive_same (a0 : PortId) (a1 : List (List Byte)) (s : State) {t : State} (h : execAlignReceive a0 a1 s = .next t) : Same 130912764522490 s t := by
  unfold execAlignReceive at h
  injection h with h
  refine Same.of_eq h ?_
  clear h
  refine Same.seq ?_ (pathsChanged_same ..) (by decide)
  refine Same.seq ?_ (alignReceiveEff_same ..) (by decide)
  exact Same.refl _ _

theorem keepaliveSendEff_same (a0 : Nat) (s : State) : Same 35184372088832 s (keepaliveSendEff a0 s) := by
  unfold keepaliveSendEff
  refine Same.ite ?_ ?_
  · refine Same.seq ?_ (sendOs_same ..) (by decide)
    exact Same.refl _ _
  · exact Same.refl _ _

theorem execKeepaliveSend_same (a0 : PortId) (s : State) {t : State} (h : execKeepaliveSend a0 s = .next t) : Same 35184372088832 s t := by
  unfold execKeepaliveSend at h
  injection h with h
  refine Same.of_eq h ?_
  clear h
  refine Same.seq ?_ (keepaliveSendEff_same ..) (by decide)
  exact Same.refl _ _

theorem keepaliveReceiveEff_same (a0 : Nat) (a1 : List (List Byte)) (s : State) : Same 2 s (keepaliveReceiveEff a0 a1 s) := by
  unfold keepaliveReceiveEff
  refine Same.trans ?_ (withOs_same (hk := by decide) (ha := ?_) ..)
  · exact Same.refl _ _
  · intro x1 x2 x3
    split
    · rename_i v4 v5 v6 v7
      refine Same.seq ?_ (put_same ..) (by decide)
      exact Same.refl _ _
    · rename_i v8 v9
      exact Same.refl _ _

theorem execKeepaliveReceive_same (a0 : PortId) (a1 : List (List Byte)) (s : State) {t : State} (h : execKeepaliveReceive a0 a1 s = .next t) : Same 130912764522490 s t := by
  unfold execKeepaliveReceive at h
  injection h with h
  refine Same.of_eq h ?_
  clear h
  refine Same.seq ?_ (pathsChanged_same ..) (by decide)
  refine Same.seq ?_ (keepaliveReceiveEff_same ..) (by decide)
  exact Same.refl _ _

theorem fencedSendEff_same (a0 : Nat) (s : State) : Same 35184372088832 s (fencedSendEff a0 s) := by
  unfold fencedSendEff
  refine Same.ite ?_ ?_
  · refine Same.seq ?_ (sendOs_same ..) (by decide)
    exact Same.refl _ _
  · exact Same.refl _ _

theorem execFencedSend_same (a0 : PortId) (s : State) {t : State} (h : execFencedSend a0 s = .next t) : Same 35184372088832 s t := by
  unfold execFencedSend at h
  injection h with h
  refine Same.of_eq h ?_
  clear h
  refine Same.seq ?_ (fencedSendEff_same ..) (by decide)
  exact Same.refl _ _

theorem fencedReceiveEff_same (a0 : Nat) (a1 : List (List Byte)) (s : State) : Same 41781446051066 s (fencedReceiveEff a0 a1 s) := by
  unfold fencedReceiveEff
  refine Same.trans ?_ (withOs_same (hk := by decide) (ha := ?_) ..)
  · exact Same.refl _ _
  · intro x1 x2 x3
    split
    · rename_i v4 v5 v6
      extract_lets +onlyGivenNames -merge -useContext x7
      clear_value x7
      extract_lets +onlyGivenNames -merge -useContext x8
      clear_value x8
      extract_lets +onlyGivenNames -merge -useContext x9
      have h9 : Same 41781446051066 x1 x9 := by
        unfold x9
        refine Same.seq ?_ (setPort_same ..) (by decide)
        exact Same.refl _ _
      clear_value x9
      extract_lets +onlyGivenNames -merge -useContext x10
      have h10 : Same 41781446051066 x1 x10 := by
        unfold x10
        refine Same.seq ?_ (put_same ..) (by decide)
        assumption
      clear_value x10
      extract_lets +onlyGivenNames -merge -useContext x11
      have h11 : Same 41781446051066 x1 x11 := by
        unfold x11
        refine Same.ite ?_ ?_
        · refine Same.seq ?_ (event_same ..) (by decide)
          assumption
        · assumption
      clear_value x11
      refine Same.seq ?_ (refreshBackups_same ..) (by decide)
      refine Same.seq ?_ (discardQueued_same ..) (by decide)
      assumption
    · rename_i v12 v13
      exact Same.refl _ _

theorem execFencedReceive_same (a0 : PortId) (a1 : List (List Byte)) (s : State) {t : State} (h : execFencedReceive a0 a1 s = .next t) : Same 130912764522490 s t := by
  unfold execFencedReceive at h
  injection h with h
  refine Same.of_eq h ?_
  clear h
  refine Same.seq ?_ (pathsChanged_same ..) (by decide)
  refine Same.seq ?_ (fencedReceiveEff_same ..) (by decide)
  exact Same.refl _ _

theorem peerLostEff_same (a0 : Nat) (a1 : Bool) (s : State) : Same 41781446051066 s (peerLostEff a0 a1 s) := by
  unfold peerLostEff
  refine Same.ite ?_ ?_
  · extract_lets +onlyGivenNames -merge -useContext x1
    have h1 : Same 41781446051066 s x1 := by
      unfold x1
      refine Same.seq ?_ (peerLost_same ..) (by decide)
      exact Same.refl _ _
    clear_value x1
    refine Same.ite ?_ ?_
    · assumption
    · refine Same.seq ?_ (toTraining_same ..) (by decide)
      assumption
  · exact Same.refl _ _

theorem execPeerLost_same (a0 : Silence) (s : State) {t : State} (h : execPeerLost a0 s = .next t) : Same 130912764522490 s t := by
  unfold execPeerLost at h
  injection h with h
  refine Same.of_eq h ?_
  clear h
  refine Same.seq ?_ (pathsChanged_same ..) (by decide)
  refine Same.seq ?_ (peerLostEff_same ..) (by decide)
  exact Same.refl _ _

theorem pcsDownEff_same (a0 : Nat) (s : State) : Same 41781446051066 s (pcsDownEff a0 s) := by
  unfold pcsDownEff
  refine Same.ite ?_ ?_
  · exact Same.refl _ _
  · extract_lets +onlyGivenNames -merge -useContext x1
    have h1 : Same 41781446051066 s x1 := by
      unfold x1
      refine Same.seq ?_ (ethDown_same ..) (by decide)
      exact Same.refl _ _
    clear_value x1
    refine Same.ite ?_ ?_
    · refine Same.seq ?_ (refreshBackups_same ..) (by decide)
      refine Same.seq ?_ (discardQueued_same ..) (by decide)
      assumption
    · refine Same.seq ?_ (peerLost_same ..) (by decide)
      assumption

theorem execPcsLinkDown_same (a0 : PortId) (s : State) {t : State} (h : execPcsLinkDown a0 s = .next t) : Same 130912764522490 s t := by
  unfold execPcsLinkDown at h
  injection h with h
  refine Same.of_eq h ?_
  clear h
  refine Same.seq ?_ (pathsChanged_same ..) (by decide)
  refine Same.seq ?_ (pcsDownEff_same ..) (by decide)
  exact Same.refl _ _

theorem pcsUpEff_same (a0 : Nat) (s : State) : Same 130 s (pcsUpEff a0 s) := by
  unfold pcsUpEff
  refine Same.ite ?_ ?_
  · exact Same.refl _ _
  · extract_lets +onlyGivenNames -merge -useContext x1
    have h1 : Same 130 s x1 := by
      unfold x1
      refine Same.seq ?_ (ethUp_same ..) (by decide)
      exact Same.refl _ _
    clear_value x1
    refine Same.ite ?_ ?_
    · refine Same.seq ?_ (put_same ..) (by decide)
      assumption
    · assumption

theorem execPcsLinkUp_same (a0 : PortId) (s : State) {t : State} (h : execPcsLinkUp a0 s = .next t) : Same 130912764522490 s t := by
  unfold execPcsLinkUp at h
  injection h with h
  refine Same.of_eq h ?_
  clear h
  refine Same.seq ?_ (pathsChanged_same ..) (by decide)
  refine Same.seq ?_ (pcsUpEff_same ..) (by decide)
  exact Same.refl _ _

theorem pauseOsEff_same (a0 : Nat) (a1 : List (List Byte)) (s : State) : Same 130 s (pauseOsEff a0 a1 s) := by
  unfold pauseOsEff
  refine Same.trans ?_ (withOs_same (hk := by decide) (ha := ?_) ..)
  · exact Same.refl _ _
  · intro x1 x2 x3
    split
    · rename_i v4 v5 v6 v7 v8
      extract_lets +onlyGivenNames -merge -useContext x9
      have h9 : Same 130 x1 x9 := by
        unfold x9
        refine Same.seq ?_ (markLive_same ..) (by decide)
        exact Same.refl _ _
      clear_value x9
      extract_lets +onlyGivenNames -merge -useContext x10
      have h10 : Same 130 x1 x10 := by
        unfold x10
        refine Same.ite ?_ ?_
        · refine Same.seq ?_ (pauseClass_same ..) (by decide)
          assumption
        · assumption
      clear_value x10
      extract_lets +onlyGivenNames -merge -useContext x11
      have h11 : Same 130 x1 x11 := by
        unfold x11
        refine Same.ite ?_ ?_
        · refine Same.seq ?_ (pauseClass_same ..) (by decide)
          assumption
        · assumption
      clear_value x11
      refine Same.ite ?_ ?_
      · refine Same.seq ?_ (pauseClass_same ..) (by decide)
        assumption
      · assumption
    · rename_i v12 v13
      exact Same.refl _ _

theorem execPauseOsReceive_same (a0 : PortId) (a1 : List (List Byte)) (s : State) {t : State} (h : execPauseOsReceive a0 a1 s = .next t) : Same 130 s t := by
  unfold execPauseOsReceive at h
  injection h with h
  refine Same.of_eq h ?_
  clear h
  refine Same.seq ?_ (pauseOsEff_same ..) (by decide)
  exact Same.refl _ _

theorem farrierEff_same (a0 : Nat) (a1 : Nat) (a2 : Nat) (s : State) : Same 41781446053882 s (farrierEff a0 a1 a2 s) := by
  unfold farrierEff
  refine Same.ite ?_ ?_
  · exact Same.refl _ _
  · extract_lets +onlyGivenNames -merge -useContext x1
    have h1 : Same 41781446053882 s x1 := by
      unfold x1
      refine Same.seq ?_ (put_same ..) (by decide)
      exact Same.refl _ _
    clear_value x1
    extract_lets +onlyGivenNames -merge -useContext x2
    clear_value x2
    extract_lets +onlyGivenNames -merge -useContext x3
    clear_value x3
    extract_lets +onlyGivenNames -merge -useContext x4
    have h4 : Same 41781446053882 s x4 := by
      unfold x4
      refine Same.seq ?_ (setLane_same ..) (by decide)
      assumption
    clear_value x4
    refine Same.ite ?_ ?_
    · extract_lets +onlyGivenNames -merge -useContext x5
      have h5 : Same 41781446053882 s x5 := by
        unfold x5
        refine Same.seq ?_ (put_same ..) (by decide)
        assumption
      clear_value x5
      extract_lets +onlyGivenNames -merge -useContext x6
      have h6 : Same 41781446053882 s x6 := by
        unfold x6
        refine Same.seq ?_ (fence_same ..) (by decide)
        assumption
      clear_value x6
      split
      · rename_i v7 v8 v9
        refine Same.seq ?_ (put_same ..) (by decide)
        refine Same.seq ?_ (setLane_same ..) (by decide)
        assumption
      · rename_i v10 v11
        assumption
    · assumption

theorem execFarrierWindow_same (a0 : PortId) (a1 : Fin 4) (a2 : Fin 256) (s : State) {t : State} (h : execFarrierWindow a0 a1 a2 s = .next t) : Same 130912764522490 s t := by
  unfold execFarrierWindow at h
  injection h with h
  refine Same.of_eq h ?_
  clear h
  refine Same.seq ?_ (pathsChanged_same ..) (by decide)
  refine Same.seq ?_ (farrierEff_same ..) (by decide)
  exact Same.refl _ _

theorem laneFailureEff_same (a0 : Nat) (a1 : Nat) (s : State) : Same 41781446053882 s (laneFailureEff a0 a1 s) := by
  unfold laneFailureEff
  extract_lets +onlyGivenNames -merge -useContext x1
  clear_value x1
  refine Same.ite ?_ ?_
  · exact Same.refl _ _
  · extract_lets +onlyGivenNames -merge -useContext x2
    have h2 : Same 41781446053882 s x2 := by
      unfold x2
      refine Same.seq ?_ (put_same ..) (by decide)
      exact Same.refl _ _
    clear_value x2
    extract_lets +onlyGivenNames -merge -useContext x3
    have h3 : Same 41781446053882 s x3 := by
      unfold x3
      refine Same.seq ?_ (fence_same ..) (by decide)
      assumption
    clear_value x3
    extract_lets +onlyGivenNames -merge -useContext x4
    clear_value x4
    extract_lets +onlyGivenNames -merge -useContext x5
    have h5 : Same 41781446053882 s x5 := by
      unfold x5
      refine Same.seq ?_ (put_same ..) (by decide)
      refine Same.seq ?_ (setLane_same ..) (by decide)
      assumption
    clear_value x5
    extract_lets +onlyGivenNames -merge -useContext x6
    clear_value x6
    extract_lets +onlyGivenNames -merge -useContext x7
    have h7 : Same 41781446053882 s x7 := by
      unfold x7
      refine Same.seq ?_ (setLane_same ..) (by decide)
      assumption
    clear_value x7
    refine Same.ite ?_ ?_
    · extract_lets +onlyGivenNames -merge -useContext x8
      clear_value x8
      extract_lets +onlyGivenNames -merge -useContext x9
      have h9 : Same 41781446053882 s x9 := by
        unfold x9
        refine Same.seq ?_ (setPort_same ..) (by decide)
        assumption
      clear_value x9
      refine Same.ite ?_ ?_
      · refine Same.seq ?_ (toTraining_same ..) (by decide)
        assumption
      · refine Same.seq ?_ (askLanes_same ..) (by decide)
        assumption
    · refine Same.seq ?_ (pcsDownEff_same ..) (by decide)
      assumption

theorem execLaneFailure_same (a0 : PortId) (a1 : Fin 4) (s : State) {t : State} (h : execLaneFailure a0 a1 s = .next t) : Same 130912764522490 s t := by
  unfold execLaneFailure at h
  injection h with h
  refine Same.of_eq h ?_
  clear h
  refine Same.seq ?_ (pathsChanged_same ..) (by decide)
  refine Same.seq ?_ (laneFailureEff_same ..) (by decide)
  exact Same.refl _ _

theorem spareAdaptedEff_same (a0 : Nat) (a1 : Nat) (s : State) : Same 130 s (spareAdaptedEff a0 a1 s) := by
  unfold spareAdaptedEff
  split
  · rename_i v1 v2
    exact Same.refl _ _
  · rename_i v3 v4 v5
    extract_lets +onlyGivenNames -merge -useContext x6
    clear_value x6
    extract_lets +onlyGivenNames -merge -useContext x7
    have h7 : Same 130 s x7 := by
      unfold x7
      refine Same.seq ?_ (setLane_same ..) (by decide)
      refine Same.seq ?_ (put_same ..) (by decide)
      exact Same.refl _ _
    clear_value x7
    refine Same.seq ?_ (put_same ..) (by decide)
    refine Same.seq ?_ (put_same ..) (by decide)
    assumption

theorem execSpareAdapted_same (a0 : PortId) (a1 : Fin 4) (s : State) {t : State} (h : execSpareAdapted a0 a1 s = .next t) : Same 130 s t := by
  unfold execSpareAdapted at h
  injection h with h
  refine Same.of_eq h ?_
  clear h
  refine Same.seq ?_ (spareAdaptedEff_same ..) (by decide)
  exact Same.refl _ _

theorem spareTrainedEff_same (a0 : Nat) (a1 : Nat) (s : State) : Same 35184372088962 s (spareTrainedEff a0 a1 s) := by
  unfold spareTrainedEff
  split
  · rename_i v1 v2
    exact Same.refl _ _
  · rename_i v3 v4 v5
    extract_lets +onlyGivenNames -merge -useContext x6
    clear_value x6
    extract_lets +onlyGivenNames -merge -useContext x7
    have h7 : Same 35184372088962 s x7 := by
      unfold x7
      refine Same.seq ?_ (setLane_same ..) (by decide)
      refine Same.seq ?_ (put_same ..) (by decide)
      exact Same.refl _ _
    clear_value x7
    extract_lets +onlyGivenNames -merge -useContext x8
    have h8 : Same 35184372088962 s x8 := by
      unfold x8
      refine Same.seq ?_ (put_same ..) (by decide)
      refine Same.seq ?_ (put_same ..) (by decide)
      assumption
    clear_value x8
    refine Same.ite ?_ ?_
    · extract_lets +onlyGivenNames -merge -useContext x9
      clear_value x9
      refine Same.seq ?_ (askLanes_same ..) (by decide)
      refine Same.seq ?_ (setPort_same ..) (by decide)
      assumption
    · assumption

theorem execSpareTrained_same (a0 : PortId) (a1 : Fin 4) (s : State) {t : State} (h : execSpareTrained a0 a1 s = .next t) : Same 130912764522490 s t := by
  unfold execSpareTrained at h
  injection h with h
  refine Same.of_eq h ?_
  clear h
  refine Same.seq ?_ (pathsChanged_same ..) (by decide)
  refine Same.seq ?_ (spareTrainedEff_same ..) (by decide)
  exact Same.refl _ _

theorem laneReqReceiveEff_same (a0 : Nat) (a1 : List (List Byte)) (s : State) : Same 35184372088962 s (laneReqReceiveEff a0 a1 s) := by
  unfold laneReqReceiveEff
  refine Same.trans ?_ (withOs_same (hk := by decide) (ha := ?_) ..)
  · exact Same.refl _ _
  · intro x1 x2 x3
    split
    · rename_i v4 v5 v6 v7 v8
      extract_lets +onlyGivenNames -merge -useContext x9
      have h9 : Same 35184372088962 x1 x9 := by
        unfold x9
        refine Same.seq ?_ (markLive_same ..) (by decide)
        exact Same.refl _ _
      clear_value x9
      split
      · rename_i v10 v11 v12
        refine Same.ite ?_ ?_
        · refine Same.seq ?_ (askLanes_same ..) (by decide)
          refine Same.seq ?_ (answerLaneReq_same ..) (by decide)
          refine Same.seq ?_ (setPort_same ..) (by decide)
          assumption
        · assumption
      · rename_i v13 v14
        refine Same.seq ?_ (answerLaneReq_same ..) (by decide)
        assumption
    · rename_i v15 v16
      exact Same.refl _ _

theorem execLaneReqReceive_same (a0 : PortId) (a1 : List (List Byte)) (s : State) {t : State} (h : execLaneReqReceive a0 a1 s = .next t) : Same 35184372088962 s t := by
  unfold execLaneReqReceive at h
  injection h with h
  refine Same.of_eq h ?_
  clear h
  refine Same.seq ?_ (laneReqReceiveEff_same ..) (by decide)
  exact Same.refl _ _

theorem laneAckReceiveEff_same (a0 : Nat) (a1 : List (List Byte)) (s : State) : Same 130 s (laneAckReceiveEff a0 a1 s) := by
  unfold laneAckReceiveEff
  refine Same.trans ?_ (withOs_same (hk := by decide) (ha := ?_) ..)
  · exact Same.refl _ _
  · intro x1 x2 x3
    split
    · rename_i v4 v5 v6 v7
      extract_lets +onlyGivenNames -merge -useContext x8
      have h8 : Same 130 x1 x8 := by
        unfold x8
        refine Same.seq ?_ (markLive_same ..) (by decide)
        exact Same.refl _ _
      clear_value x8
      split
      · rename_i v9 v10 v11
        refine Same.ite ?_ ?_
        · refine Same.seq ?_ (setPort_same ..) (by decide)
          assumption
        · assumption
      · rename_i v12 v13
        assumption
    · rename_i v14 v15
      exact Same.refl _ _

theorem execLaneAckReceive_same (a0 : PortId) (a1 : List (List Byte)) (s : State) {t : State} (h : execLaneAckReceive a0 a1 s = .next t) : Same 130 s t := by
  unfold execLaneAckReceive at h
  injection h with h
  refine Same.of_eq h ?_
  clear h
  refine Same.seq ?_ (laneAckReceiveEff_same ..) (by decide)
  exact Same.refl _ _

theorem laneNakReceiveEff_same (a0 : Nat) (a1 : List (List Byte)) (s : State) : Same 130 s (laneNakReceiveEff a0 a1 s) := by
  unfold laneNakReceiveEff
  refine Same.trans ?_ (withOs_same (hk := by decide) (ha := ?_) ..)
  · exact Same.refl _ _
  · intro x1 x2 x3
    split
    · rename_i v4 v5 v6
      extract_lets +onlyGivenNames -merge -useContext x7
      have h7 : Same 130 x1 x7 := by
        unfold x7
        refine Same.seq ?_ (markLive_same ..) (by decide)
        exact Same.refl _ _
      clear_value x7
      split
      · rename_i v8 v9 v10
        refine Same.ite ?_ ?_
        · refine Same.seq ?_ (setPort_same ..) (by decide)
          assumption
        · assumption
      · rename_i v11 v12
        assumption
    · rename_i v13 v14
      exact Same.refl _ _

theorem execLaneNakReceive_same (a0 : PortId) (a1 : List (List Byte)) (s : State) {t : State} (h : execLaneNakReceive a0 a1 s = .next t) : Same 130 s t := by
  unfold execLaneNakReceive at h
  injection h with h
  refine Same.of_eq h ?_
  clear h
  refine Same.seq ?_ (laneNakReceiveEff_same ..) (by decide)
  exact Same.refl _ _

theorem laneReqTimeoutEff_same (a0 : Nat) (s : State) : Same 35184376284354 s (laneReqTimeoutEff a0 s) := by
  unfold laneReqTimeoutEff
  split
  · rename_i v1 v2
    exact Same.refl _ _
  · rename_i v3 v4 v5
    refine Same.ite ?_ ?_
    · split
      · rename_i v6 v7 v8 v9
        refine Same.seq ?_ (laneRequest_same ..) (by decide)
        exact Same.refl _ _
    · refine Same.ite ?_ ?_
      · extract_lets +onlyGivenNames -merge -useContext x10
        clear_value x10
        extract_lets +onlyGivenNames -merge -useContext x11
        clear_value x11
        extract_lets +onlyGivenNames -merge -useContext x12
        have h12 : Same 35184376284354 s x12 := by
          unfold x12
          refine Same.seq ?_ (toTraining_same ..) (by decide)
          exact Same.refl _ _
        clear_value x12
        refine Same.seq ?_ (setPort_same ..) (by decide)
        assumption
      · extract_lets +onlyGivenNames -merge -useContext x13
        clear_value x13
        refine Same.seq ?_ (askLanes_same ..) (by decide)
        refine Same.seq ?_ (setPort_same ..) (by decide)
        exact Same.refl _ _

theorem execLaneReqTimeout_same (a0 : PortId) (s : State) {t : State} (h : execLaneReqTimeout a0 s = .next t) : Same 130912764522490 s t := by
  unfold execLaneReqTimeout at h
  injection h with h
  refine Same.of_eq h ?_
  clear h
  refine Same.seq ?_ (pathsChanged_same ..) (by decide)
  refine Same.seq ?_ (laneReqTimeoutEff_same ..) (by decide)
  exact Same.refl _ _

theorem laneSwitchEff_same (a0 : Nat) (s : State) : Same 4194498 s (laneSwitchEff a0 s) := by
  unfold laneSwitchEff
  split
  · rename_i v1 v2
    exact Same.refl _ _
  · rename_i v3 v4 v5
    refine Same.ite ?_ ?_
    · exact Same.refl _ _
    · extract_lets +onlyGivenNames -merge -useContext x6
      clear_value x6
      extract_lets +onlyGivenNames -merge -useContext x7
      have h7 : Same 4194498 s x7 := by
        unfold x7
        refine Same.seq ?_ (setPort_same ..) (by decide)
        exact Same.refl _ _
      clear_value x7
      extract_lets +onlyGivenNames -merge -useContext x8
      have h8 : Same 4194498 s x8 := by
        unfold x8
        refine Same.seq ?_ (put_same ..) (by decide)
        assumption
      clear_value x8
      extract_lets +onlyGivenNames -merge -useContext x9
      clear_value x9
      extract_lets +onlyGivenNames -merge -useContext x10
      have h10 : Same 4194498 s x10 := by
        unfold x10
        refine Same.seq ?_ (setPort_same ..) (by decide)
        assumption
      clear_value x10
      extract_lets +onlyGivenNames -merge -useContext x11
      have h11 : Same 4194498 s x11 := by
        unfold x11
        refine Same.ite ?_ ?_
        · refine Same.seq ?_ (setLowered_same ..) (by decide)
          assumption
        · refine Same.ite ?_ ?_
          · refine Same.seq ?_ (setLowered_same ..) (by decide)
            assumption
          · assumption
      clear_value x11
      refine Same.seq ?_ (refreshBackups_same ..) (by decide)
      assumption

theorem execLaneMaskSwitch_same (a0 : PortId) (s : State) {t : State} (h : execLaneMaskSwitch a0 s = .next t) : Same 130912764522490 s t := by
  unfold execLaneMaskSwitch at h
  injection h with h
  refine Same.of_eq h ?_
  clear h
  refine Same.seq ?_ (settlePower_same ..) (by decide)
  refine Same.seq ?_ (pathsChanged_same ..) (by decide)
  refine Same.seq ?_ (laneSwitchEff_same ..) (by decide)
  exact Same.refl _ _

theorem laneDoneSendEff_same (a0 : Nat) (s : State) : Same 41781441855674 s (laneDoneSendEff a0 s) := by
  unfold laneDoneSendEff
  split
  · rename_i v1 v2 v3
    refine Same.ite ?_ ?_
    · refine Same.seq ?_ (laneComplete_same ..) (by decide)
      refine Same.seq ?_ (sendOs_same ..) (by decide)
      exact Same.refl _ _
    · exact Same.refl _ _
  · rename_i v4 v5
    exact Same.refl _ _

theorem execLaneDoneSend_same (a0 : PortId) (s : State) {t : State} (h : execLaneDoneSend a0 s = .next t) : Same 41781441855674 s t := by
  unfold execLaneDoneSend at h
  injection h with h
  refine Same.of_eq h ?_
  clear h
  refine Same.seq ?_ (laneDoneSendEff_same ..) (by decide)
  exact Same.refl _ _

theorem laneDoneReceiveEff_same (a0 : Nat) (a1 : List (List Byte)) (s : State) : Same 41781441855674 s (laneDoneReceiveEff a0 a1 s) := by
  unfold laneDoneReceiveEff
  refine Same.trans ?_ (withOs_same (hk := by decide) (ha := ?_) ..)
  · exact Same.refl _ _
  · intro x1 x2 x3
    split
    · rename_i v4 v5 v6
      extract_lets +onlyGivenNames -merge -useContext x7
      have h7 : Same 41781441855674 x1 x7 := by
        unfold x7
        refine Same.seq ?_ (markLive_same ..) (by decide)
        exact Same.refl _ _
      clear_value x7
      split
      · rename_i v8 v9 v10
        refine Same.ite ?_ ?_
        · refine Same.seq ?_ (laneComplete_same ..) (by decide)
          assumption
        · assumption
      · rename_i v11 v12
        assumption
    · rename_i v13 v14
      exact Same.refl _ _

theorem execLaneDoneReceive_same (a0 : PortId) (a1 : List (List Byte)) (s : State) {t : State} (h : execLaneDoneReceive a0 a1 s = .next t) : Same 41781441855674 s t := by
  unfold execLaneDoneReceive at h
  injection h with h
  refine Same.of_eq h ?_
  clear h
  refine Same.seq ?_ (laneDoneReceiveEff_same ..) (by decide)
  exact Same.refl _ _

theorem transmitStartEff_same (a0 : Nat) (a1 : Nat) (a2 : Nat) (s : State) : Same 35184372089034 s (transmitStartEff a0 a1 a2 s) := by
  unfold transmitStartEff
  split
  · rename_i v1 v2
    exact Same.refl _ _
  · rename_i v3 v4 v5
    extract_lets +onlyGivenNames -merge -useContext x6
    clear_value x6
    extract_lets +onlyGivenNames -merge -useContext x7
    have h7 : Same 35184372089034 s x7 := by
      unfold x7
      refine Same.seq ?_ (flowDepth_same ..) (by decide)
      refine Same.seq ?_ (setPort_same ..) (by decide)
      exact Same.refl _ _
    clear_value x7
    split
    · rename_i v8 v9
      refine Same.ite ?_ ?_
      · refine Same.seq ?_ (count_same ..) (by decide)
        refine Same.seq ?_ (frameGone_same ..) (by decide)
        assumption
      · exact Same.refl _ _
    · rename_i v10 v11 v12
      refine Same.ite ?_ ?_
      · refine Same.seq ?_ (sampleDelay_same ..) (by decide)
        refine Same.seq ?_ (setPort_same ..) (by decide)
        assumption
      · exact Same.refl _ _

theorem execFrameTransmitStart_same (a0 : PortId) (a1 : Fin 4) (a2 : Fin 8) (s : State) {t : State} (h : execFrameTransmitStart a0 a1 a2 s = .next t) : Same 35184372089034 s t := by
  unfold execFrameTransmitStart at h
  injection h with h
  refine Same.of_eq h ?_
  clear h
  refine Same.seq ?_ (transmitStartEff_same ..) (by decide)
  exact Same.refl _ _

theorem transmitEndEff_same (a0 : Nat) (a1 : Nat) (a2 : Nat) (s : State) : Same 41781441855738 s (transmitEndEff a0 a1 a2 s) := by
  unfold transmitEndEff
  split
  · rename_i v1 v2
    exact Same.refl _ _
  · rename_i v3 v4 v5
    extract_lets +onlyGivenNames -merge -useContext x6
    clear_value x6
    refine Same.ite ?_ ?_
    · exact Same.refl _ _
    · extract_lets +onlyGivenNames -merge -useContext x7
      have h7 : Same 41781441855738 s x7 := by
        unfold x7
        refine Same.seq ?_ (setPort_same ..) (by decide)
        exact Same.refl _ _
      clear_value x7
      refine Same.seq ?_ (flowDone_same ..) (by decide)
      refine Same.seq ?_ (frameGone_same ..) (by decide)
      refine Same.seq ?_ (emit_same ..) (by decide)
      assumption

theorem execFrameTransmitEnd_same (a0 : PortId) (a1 : Fin 4) (a2 : Fin 8) (s : State) {t : State} (h : execFrameTransmitEnd a0 a1 a2 s = .next t) : Same 41781441855738 s t := by
  unfold execFrameTransmitEnd at h
  injection h with h
  refine Same.of_eq h ?_
  clear h
  refine Same.seq ?_ (transmitEndEff_same ..) (by decide)
  exact Same.refl _ _

theorem execMeshSelfWrite_same (a0 : HostId) (a1 : Word) (s : State) {t : State} (h : execMeshSelfWrite a0 a1 s = .next t) : Same 130912764522490 s t := by
  unfold execMeshSelfWrite at h
  injection h with h
  refine Same.of_eq h ?_
  clear h
  refine Same.trans ?_ (hostWrite_same (hk := by decide) (ha := ?_) ..)
  · exact Same.refl _ _
  · intro x1
    refine Same.seq ?_ (pathsChanged_same ..) (by decide)
    refine Same.seq ?_ (meshSelfEff_same ..) (by decide)
    exact Same.refl _ _

theorem execMeshArm_same (a0 : HostId) (a1 : Word) (s : State) {t : State} (h : execMeshArm a0 a1 s = .next t) : Same 41781441855546 s t := by
  unfold execMeshArm at h
  injection h with h
  refine Same.of_eq h ?_
  clear h
  refine Same.trans ?_ (hostWrite_same (hk := by decide) (ha := ?_) ..)
  · exact Same.refl _ _
  · intro x1
    refine Same.seq ?_ (meshCtlEff_same ..) (by decide)
    exact Same.refl _ _

theorem execMeshDisarm_same (a0 : HostId) (a1 : Word) (s : State) {t : State} (h : execMeshDisarm a0 a1 s = .next t) : Same 41781441855546 s t := by
  unfold execMeshDisarm at h
  injection h with h
  refine Same.of_eq h ?_
  clear h
  refine Same.trans ?_ (hostWrite_same (hk := by decide) (ha := ?_) ..)
  · exact Same.refl _ _
  · intro x1
    refine Same.seq ?_ (meshCtlEff_same ..) (by decide)
    exact Same.refl _ _

theorem execRoutingTableWrite_same (a0 : HostId) (a1 : Nat) (a2 : Word) (s : State) {t : State} (h : execRoutingTableWrite a0 a1 a2 s = .next t) : Same 130912764522490 s t := by
  unfold execRoutingTableWrite at h
  injection h with h
  refine Same.of_eq h ?_
  clear h
  refine Same.trans ?_ (hostWrite_same (hk := by decide) (ha := ?_) ..)
  · exact Same.refl _ _
  · intro x1
    refine Same.seq ?_ (pathsChanged_same ..) (by decide)
    refine Same.seq ?_ (tableWriteEff_same ..) (by decide)
    exact Same.refl _ _

theorem execRetainedBankRelease_same (s : State) {t : State} (h : execRetainedBankRelease s = .next t) : Same 2 s t := by
  unfold execRetainedBankRelease at h
  injection h with h
  refine Same.of_eq h ?_
  clear h
  refine Same.seq ?_ (bankReleaseEff_same ..) (by decide)
  exact Same.refl _ _

theorem execDrainLimitExpiry_same (s : State) {t : State} (h : execDrainLimitExpiry s = .next t) : Same 35184372091842 s t := by
  unfold execDrainLimitExpiry at h
  injection h with h
  refine Same.of_eq h ?_
  clear h
  refine Same.seq ?_ (drainLimitEff_same ..) (by decide)
  exact Same.refl _ _

theorem flowReturnEff_same (a0 : Nat) (s : State) : Same 64 s (flowReturnEff a0 s) := by
  unfold flowReturnEff
  split
  · rename_i v1 v2
    exact Same.refl _ _
  · rename_i v3 v4 v5 v6
    extract_lets +onlyGivenNames -merge -useContext x7
    clear_value x7
    split
    · rename_i v8 v9
      exact Same.refl _ _
    · rename_i v10 v11 v12
      refine Same.ite ?_ ?_
      · refine Same.seq ?_ (setFlowRt_same ..) (by decide)
        exact Same.refl _ _
      · exact Same.refl _ _

theorem execFlowReturnPrimary_same (a0 : BitVec 24) (s : State) {t : State} (h : execFlowReturnPrimary a0 s = .next t) : Same 64 s t := by
  unfold execFlowReturnPrimary at h
  injection h with h
  refine Same.of_eq h ?_
  clear h
  refine Same.seq ?_ (flowReturnEff_same ..) (by decide)
  exact Same.refl _ _

theorem execSubmit_same (a0 : HostId) (a1 : PartId) (s : State) {t : State} (h : execSubmit a0 a1 s = .next t) : Same 130912798076922 s t := by
  unfold execSubmit at h
  injection h with h
  refine Same.of_eq h ?_
  clear h
  refine Same.trans ?_ (hostWrite_same (hk := by decide) (ha := ?_) ..)
  · exact Same.refl _ _
  · intro x1
    refine Same.seq ?_ (schedCtlEff_same ..) (by decide)
    exact Same.refl _ _

theorem execAdmissionVerdict_same (a0 : Seen) (s : State) {t : State} (h : execAdmissionVerdict a0 s = .next t) : Same 139708907876346 s t := by
  unfold execAdmissionVerdict at h
  injection h with h
  refine Same.of_eq h ?_
  clear h
  refine Same.seq ?_ (admissionVerdictEff_same ..) (by decide)
  exact Same.refl _ _

theorem execCancel_same (a0 : HostId) (a1 : PartId) (s : State) {t : State} (h : execCancel a0 a1 s = .next t) : Same 130912798076922 s t := by
  unfold execCancel at h
  injection h with h
  refine Same.of_eq h ?_
  clear h
  refine Same.trans ?_ (hostWrite_same (hk := by decide) (ha := ?_) ..)
  · exact Same.refl _ _
  · intro x1
    refine Same.seq ?_ (schedCtlEff_same ..) (by decide)
    exact Same.refl _ _

theorem scheduleTakeoverEff_same (s : State) : Same 975647301398526 s (scheduleTakeoverEff s) := by
  unfold scheduleTakeoverEff
  refine Same.ite ?_ ?_
  · refine Same.seq ?_ (toSlot_same ..) (by decide)
    exact Same.refl _ _
  · exact Same.refl _ _

theorem execScheduleTakeover_same (s : State) {t : State} (h : execScheduleTakeover s = .next t) : Same 975647301398526 s t := by
  unfold execScheduleTakeover at h
  injection h with h
  refine Same.of_eq h ?_
  clear h
  refine Same.seq ?_ (scheduleTakeoverEff_same ..) (by decide)
  exact Same.refl _ _

theorem sampleRecordEff_same (a0 : Nat) (s : State) : Same 60473147916410 s (sampleRecordEff a0 s) := by
  unfold sampleRecordEff
  split
  · rename_i v1 v2
    exact Same.refl _ _
  · rename_i v3 v4 v5 v6
    extract_lets +onlyGivenNames -merge -useContext x7
    clear_value x7
    extract_lets +onlyGivenNames -merge -useContext x8
    clear_value x8
    refine Same.ite ?_ ?_
    · exact Same.refl _ _
    · extract_lets +onlyGivenNames -merge -useContext x9
      have h9 : Same 60473147916410 s x9 := by
        unfold x9
        refine Same.seq ?_ (setFlowRt_same ..) (by decide)
        exact Same.refl _ _
      clear_value x9
      refine Same.seq ?_ (flushSamples_same ..) (by decide)
      refine Same.trans h9 ?_
      constructor <;> intro hb <;> first | rfl | exact absurd hb (by decide)

theorem execSampleRecord_same (a0 : BitVec 24) (s : State) {t : State} (h : execSampleRecord a0 s = .next t) : Same 60473147916410 s t := by
  unfold execSampleRecord at h
  injection h with h
  refine Same.of_eq h ?_
  clear h
  refine Same.seq ?_ (sampleRecordEff_same ..) (by decide)
  exact Same.refl _ _

theorem execKennelCreate_same (a0 : HostId) (a1 : BitVec 24) (a2 : Seen) (s : State) {t : State} (h : execKennelCreate a0 a1 a2 s = .next t) : Same 139708857345082 s t := by
  unfold execKennelCreate at h
  injection h with h
  refine Same.of_eq h ?_
  clear h
  refine Same.trans ?_ (hostWrite_same (hk := by decide) (ha := ?_) ..)
  · exact Same.refl _ _
  · intro x1
    refine Same.seq ?_ (kennelCmdEff_same ..) (by decide)
    exact Same.refl _ _

theorem execKennelModify_same (a0 : HostId) (a1 : BitVec 24) (a2 : Seen) (s : State) {t : State} (h : execKennelModify a0 a1 a2 s = .next t) : Same 139708857345082 s t := by
  unfold execKennelModify at h
  injection h with h
  refine Same.of_eq h ?_
  clear h
  refine Same.trans ?_ (hostWrite_same (hk := by decide) (ha := ?_) ..)
  · exact Same.refl _ _
  · intro x1
    refine Same.seq ?_ (kennelCmdEff_same ..) (by decide)
    exact Same.refl _ _

theorem execKennelQuery_same (a0 : HostId) (a1 : BitVec 24) (a2 : Seen) (s : State) {t : State} (h : execKennelQuery a0 a1 a2 s = .next t) : Same 139708857345082 s t := by
  unfold execKennelQuery at h
  injection h with h
  refine Same.of_eq h ?_
  clear h
  refine Same.trans ?_ (hostWrite_same (hk := by decide) (ha := ?_) ..)
  · exact Same.refl _ _
  · intro x1
    refine Same.seq ?_ (kennelCmdEff_same ..) (by decide)
    exact Same.refl _ _

theorem execKennelDestroy_same (a0 : HostId) (a1 : BitVec 24) (a2 : Seen) (s : State) {t : State} (h : execKennelDestroy a0 a1 a2 s = .next t) : Same 139708857345082 s t := by
  unfold execKennelDestroy at h
  injection h with h
  refine Same.of_eq h ?_
  clear h
  refine Same.trans ?_ (hostWrite_same (hk := by decide) (ha := ?_) ..)
  · exact Same.refl _ _
  · intro x1
    refine Same.seq ?_ (kennelCmdEff_same ..) (by decide)
    exact Same.refl _ _

theorem fetchDoneEff_same (a0 : Nat) (a1 : Seen) (s : State) : Same 139708857544698 s (fetchDoneEff a0 a1 s) := by
  unfold fetchDoneEff
  refine Same.ite ?_ ?_
  · exact Same.refl _ _
  · extract_lets +onlyGivenNames -merge -useContext x1
    have h1 : Same 139708857544698 s x1 := by
      unfold x1
      refine Same.seq ?_ (unmiss_same ..) (by decide)
      refine Same.seq ?_ (fetchDone_same ..) (by decide)
      refine Same.seq ?_ (see_same ..) (by decide)
      exact Same.refl _ _
    clear_value x1
    extract_lets +onlyGivenNames -merge -useContext x2
    clear_value x2
    extract_lets +onlyGivenNames -merge -useContext x3
    clear_value x3
    extract_lets +onlyGivenNames -merge -useContext x4
    have h4 : Same 139708857544698 s x4 := by
      unfold x4
      refine Same.trans h1 ?_
      constructor <;> intro hb <;> first | rfl | exact absurd hb (by decide)
    clear_value x4
    refine Same.foldl _ _ _ ?_ ?_
    · intro x5 a5 h5
      refine Same.seq ?_ (runJob_same ..) (by decide)
      assumption
    · assumption

theorem execRetrieverFetchDone_same (a0 : BitVec 24) (a1 : Seen) (s : State) {t : State} (h : execRetrieverFetchDone a0 a1 s = .next t) : Same 139708857544698 s t := by
  unfold execRetrieverFetchDone at h
  injection h with h
  refine Same.of_eq h ?_
  clear h
  refine Same.seq ?_ (fetchDoneEff_same ..) (by decide)
  exact Same.refl _ _

theorem execWorkEntryStart_same (a0 : BitVec 20) (a1 : Seen) (s : State) {t : State} (h : execWorkEntryStart a0 a1 s = .next t) : Same 139708857345082 s t := by
  unfold execWorkEntryStart at h
  injection h with h
  refine Same.of_eq h ?_
  clear h
  refine Same.seq ?_ (startHead_same ..) (by decide)
  refine Same.seq ?_ (see_same ..) (by decide)
  exact Same.refl _ _

theorem receiveEff_same (a0 : RxRow) (a1 : Seen) (s : State) : Same 139708860461050 s (receiveEff a0 a1 s) := by
  unfold receiveEff
  extract_lets +onlyGivenNames -merge -useContext x1
  have h1 : Same 139708860461050 s x1 := by
    unfold x1
    refine Same.seq ?_ (dropBad_same ..) (by decide)
    refine Same.seq ?_ (see_same ..) (by decide)
    exact Same.refl _ _
  clear_value x1
  split
  · rename_i v2 v3
    assumption
  · rename_i v4 v5 v6 v7
    split
    · rename_i v8 v9 v10
      assumption
    · rename_i v11 v12 v13
      refine Same.ite ?_ ?_
      · assumption
      · refine Same.ite ?_ ?_
        · refine Same.seq ?_ (missIn_same ..) (by decide)
          refine Same.trans h1 ?_
          constructor <;> intro hb <;> first | rfl | exact absurd hb (by decide)
        · split
          · rename_i v14 v15 v16
            have h17 : Same 139708860461050 s v15 := by
              refine Same.seq ?_ (takePkt_same (h := v16) ..) (by decide)
              refine Same.trans h1 ?_
              constructor <;> intro hb <;> first | rfl | exact absurd hb (by decide)
            refine Same.seq ?_ (pktGone_same ..) (by decide)
            assumption
          · rename_i v18 v19
            assumption

theorem execSendReceive_same (a0 : Seen) (s : State) {t : State} (h : execSendReceive a0 s = .next t) : Same 139708860461050 s t := by
  unfold execSendReceive at h
  injection h with h
  refine Same.of_eq h ?_
  clear h
  refine Same.seq ?_ (receiveEff_same ..) (by decide)
  exact Same.refl _ _

theorem execWriteReceive_same (a0 : Seen) (s : State) {t : State} (h : execWriteReceive a0 s = .next t) : Same 139708860461050 s t := by
  unfold execWriteReceive at h
  injection h with h
  refine Same.of_eq h ?_
  clear h
  refine Same.seq ?_ (receiveEff_same ..) (by decide)
  exact Same.refl _ _

theorem execReadReqReceive_same (a0 : Seen) (s : State) {t : State} (h : execReadReqReceive a0 s = .next t) : Same 139708860461050 s t := by
  unfold execReadReqReceive at h
  injection h with h
  refine Same.of_eq h ?_
  clear h
  refine Same.seq ?_ (receiveEff_same ..) (by decide)
  exact Same.refl _ _

theorem execAtomicReceive_same (a0 : Seen) (s : State) {t : State} (h : execAtomicReceive a0 s = .next t) : Same 139708860461050 s t := by
  unfold execAtomicReceive at h
  injection h with h
  refine Same.of_eq h ?_
  clear h
  refine Same.seq ?_ (receiveEff_same ..) (by decide)
  exact Same.refl _ _

theorem execReadRespReceive_same (a0 : Seen) (s : State) {t : State} (h : execReadRespReceive a0 s = .next t) : Same 139708860461050 s t := by
  unfold execReadRespReceive at h
  injection h with h
  refine Same.of_eq h ?_
  clear h
  refine Same.seq ?_ (receiveEff_same ..) (by decide)
  exact Same.refl _ _

theorem execAtomicAckReceive_same (a0 : Seen) (s : State) {t : State} (h : execAtomicAckReceive a0 s = .next t) : Same 139708860461050 s t := by
  unfold execAtomicAckReceive at h
  injection h with h
  refine Same.of_eq h ?_
  clear h
  refine Same.seq ?_ (receiveEff_same ..) (by decide)
  exact Same.refl _ _

end Sys2Proof.Machine.Laws
end

