-- ==== Sys2Proof/Laws/Frames5.lean ====
section
/-! SUPPORT. What each operation and each command can change: one frame per definition of the machine, part 5 of 5. -/

set_option linter.unusedTactic false
set_option linter.unreachableTactic false
set_option linter.unusedSimpArgs false

namespace Sys2Proof.Machine.Laws

theorem execAckReceive_same (a0 : Seen) (s : State) {t : State} (h : execAckReceive a0 s = .next t) : Same 139708860461050 s t := by
  unfold execAckReceive at h
  injection h with h
  refine Same.of_eq h ?_
  clear h
  refine Same.seq ?_ (receiveEff_same ..) (by decide)
  exact Same.refl _ _

theorem execNakReceive_same (a0 : Seen) (s : State) {t : State} (h : execNakReceive a0 s = .next t) : Same 139708860461050 s t := by
  unfold execNakReceive at h
  injection h with h
  refine Same.of_eq h ?_
  clear h
  refine Same.seq ?_ (receiveEff_same ..) (by decide)
  exact Same.refl _ _

theorem execRnrNakReceive_same (a0 : Seen) (s : State) {t : State} (h : execRnrNakReceive a0 s = .next t) : Same 139708860461050 s t := by
  unfold execRnrNakReceive at h
  injection h with h
  refine Same.of_eq h ?_
  clear h
  refine Same.seq ?_ (receiveEff_same ..) (by decide)
  exact Same.refl _ _

theorem execVisAckReceive_same (a0 : Seen) (s : State) {t : State} (h : execVisAckReceive a0 s = .next t) : Same 139708860461050 s t := by
  unfold execVisAckReceive at h
  injection h with h
  refine Same.of_eq h ?_
  clear h
  refine Same.seq ?_ (receiveEff_same ..) (by decide)
  exact Same.refl _ _

theorem execResyncReceive_same (a0 : Seen) (s : State) {t : State} (h : execResyncReceive a0 s = .next t) : Same 139708860461050 s t := by
  unfold execResyncReceive at h
  injection h with h
  refine Same.of_eq h ?_
  clear h
  refine Same.seq ?_ (receiveEff_same ..) (by decide)
  exact Same.refl _ _

theorem retransmitTimeoutEff_same (a0 : Nat) (a1 : Seen) (s : State) : Same 139708857544698 s (retransmitTimeoutEff a0 a1 s) := by
  unfold retransmitTimeoutEff
  split
  · rename_i v1 v2
    exact Same.refl _ _
  · rename_i v3 v4 v5
    refine Same.ite ?_ ?_
    · exact Same.refl _ _
    · refine Same.trans ?_ (whenIn_same (hk := by decide) (ha := ?_) ..)
      · refine Same.seq ?_ (see_same ..) (by decide)
        exact Same.refl _ _
      · intro x6
        refine Same.seq ?_ (timerOut_same ..) (by decide)
        exact Same.refl _ _

theorem execRetransmitTimeout_same (a0 : BitVec 24) (a1 : Seen) (s : State) {t : State} (h : execRetransmitTimeout a0 a1 s = .next t) : Same 139708857544698 s t := by
  unfold execRetransmitTimeout at h
  injection h with h
  refine Same.of_eq h ?_
  clear h
  refine Same.seq ?_ (retransmitTimeoutEff_same ..) (by decide)
  exact Same.refl _ _

theorem rnrExpiryEff_same (a0 : Nat) (a1 : Seen) (s : State) : Same 139708857544698 s (rnrExpiryEff a0 a1 s) := by
  unfold rnrExpiryEff
  split
  · rename_i v1 v2
    exact Same.refl _ _
  · rename_i v3 v4 v5
    refine Same.ite ?_ ?_
    · exact Same.refl _ _
    · refine Same.trans ?_ (whenIn_same (hk := by decide) (ha := ?_) ..)
      · refine Same.seq ?_ (see_same ..) (by decide)
        exact Same.refl _ _
      · intro x6
        refine Same.seq ?_ (rnrOut_same ..) (by decide)
        exact Same.refl _ _

theorem execRnrWaitExpiry_same (a0 : BitVec 24) (a1 : Seen) (s : State) {t : State} (h : execRnrWaitExpiry a0 a1 s = .next t) : Same 139708857544698 s t := by
  unfold execRnrWaitExpiry at h
  injection h with h
  refine Same.of_eq h ?_
  clear h
  refine Same.seq ?_ (rnrExpiryEff_same ..) (by decide)
  exact Same.refl _ _

theorem execAckDelayExpiry_same (a0 : BitVec 24) (s : State) {t : State} (h : execAckDelayExpiry a0 s = .next t) : Same 130912764325882 s t := by
  unfold execAckDelayExpiry at h
  injection h with h
  refine Same.of_eq h ?_
  clear h
  refine Same.seq ?_ (ackDelayEff_same ..) (by decide)
  exact Same.refl _ _

theorem visPacketEff_same (a0 : Nat) (a1 : Nat) (s : State) : Same 130912764325882 s (visPacketEff a0 a1 s) := by
  unfold visPacketEff
  split
  · rename_i v1 v2 v3
    split
    · rename_i v4 v5 v6 v7
      refine Same.ite ?_ ?_
      · exact Same.refl _ _
      · refine Same.trans ?_ (whenIn_same (hk := by decide) (ha := ?_) ..)
        · exact Same.refl _ _
        · intro x8
          refine Same.seq ?_ (visOut_same ..) (by decide)
          exact Same.refl _ _
    · rename_i v11 v12
      exact Same.refl _ _
  · rename_i v13 v14
    exact Same.refl _ _

theorem visEntryEff_same (a0 : Nat) (a1 : Nat) (s : State) : Same 60475300651066 s (visEntryEff a0 a1 s) := by
  unfold visEntryEff
  split
  · rename_i v1 v2 v3
    refine Same.ite ?_ ?_
    · refine Same.seq ?_ (flushQueue_same ..) (by decide)
      refine Same.seq ?_ (modLive_same ..) (by decide)
      exact Same.refl _ _
    · exact Same.refl _ _
  · rename_i v4 v5
    exact Same.refl _ _

theorem visibilityEff_same (a0 : VisOwner) (a1 : Nat) (s : State) : Same 130912764325882 s (visibilityEff a0 a1 s) := by
  unfold visibilityEff
  split
  · rename_i v1 v2
    refine Same.seq ?_ (visPacketEff_same ..) (by decide)
    exact Same.refl _ _
  · rename_i v3 v4
    refine Same.seq ?_ (visEntryEff_same ..) (by decide)
    exact Same.refl _ _

theorem execVisibilityReached_same (a0 : VisOwner) (a1 : Nat) (s : State) {t : State} (h : execVisibilityReached a0 a1 s = .next t) : Same 130912764325882 s t := by
  unfold execVisibilityReached at h
  injection h with h
  refine Same.of_eq h ?_
  clear h
  refine Same.seq ?_ (visibilityEff_same ..) (by decide)
  exact Same.refl _ _

theorem pathHoldExpiryEff_same (a0 : Nat) (s : State) : Same 130912764322874 s (pathHoldExpiryEff a0 s) := by
  unfold pathHoldExpiryEff
  split
  · rename_i v1 v2 v3 v4 v5 v6
    extract_lets +onlyGivenNames -merge -useContext x7
    clear_value x7
    extract_lets +onlyGivenNames -merge -useContext x8
    have h8 : Same 130912764322874 s x8 := by
      unfold x8
      constructor <;> intro hb <;> first | rfl | exact absurd hb (by decide)
    clear_value x8
    refine Same.ite ?_ ?_
    · assumption
    · extract_lets +onlyGivenNames -merge -useContext x9
      have h9 : Same 130912764322874 s x9 := by
        unfold x9
        refine Same.foldl _ _ _ ?_ ?_
        · intro x10 a10 h10
          refine Same.ite ?_ ?_
          · assumption
          · refine Same.seq ?_ (endEntry_same ..) (by decide)
            assumption
        · assumption
      clear_value x9
      refine Same.seq ?_ (qpError_same ..) (by decide)
      assumption
  · rename_i v11 v12 v13
    exact Same.refl _ _

theorem execPathHoldExpiry_same (a0 : BitVec 24) (s : State) {t : State} (h : execPathHoldExpiry a0 s = .next t) : Same 130912764322874 s t := by
  unfold execPathHoldExpiry at h
  injection h with h
  refine Same.of_eq h ?_
  clear h
  refine Same.seq ?_ (pathHoldExpiryEff_same ..) (by decide)
  exact Same.refl _ _

theorem nopEff_same (a0 : Nat) (s : State) : Same 60475300651066 s (nopEff a0 s) := by
  unfold nopEff
  split
  · rename_i v1 v2 v3 v4
    refine Same.seq ?_ (endEntry_same ..) (by decide)
    exact Same.refl _ _
  · rename_i v5 v6
    exact Same.refl _ _

theorem execNopEntry_same (a0 : BitVec 20) (s : State) {t : State} (h : execNopEntry a0 s = .next t) : Same 60475300651066 s t := by
  unfold execNopEntry at h
  injection h with h
  refine Same.of_eq h ?_
  clear h
  refine Same.seq ?_ (nopEff_same ..) (by decide)
  exact Same.refl _ _

theorem transportEff_same (a0 : Nat) (a1 : Nat) (a2 : Seen) (s : State) : Same 139708857544698 s (transportEff a0 a1 a2 s) := by
  unfold transportEff
  split
  · rename_i v1 v2 v3
    split
    · rename_i v4 v5 v6
      refine Same.seq ?_ (pump_same ..) (by decide)
      refine Same.seq ?_ (see_same ..) (by decide)
      exact Same.refl _ _
    · rename_i v7 v8
      exact Same.refl _ _
  · rename_i v9 v10
    exact Same.refl _ _

theorem execSend_same (a0 : BitVec 20) (a1 : Seen) (s : State) {t : State} (h : execSend a0 a1 s = .next t) : Same 139708857544698 s t := by
  unfold execSend at h
  injection h with h
  refine Same.of_eq h ?_
  clear h
  refine Same.seq ?_ (transportEff_same ..) (by decide)
  exact Same.refl _ _

theorem execSendImm_same (a0 : BitVec 20) (a1 : Seen) (s : State) {t : State} (h : execSendImm a0 a1 s = .next t) : Same 139708857544698 s t := by
  unfold execSendImm at h
  injection h with h
  refine Same.of_eq h ?_
  clear h
  refine Same.seq ?_ (transportEff_same ..) (by decide)
  exact Same.refl _ _

theorem execWrite_same (a0 : BitVec 20) (a1 : Seen) (s : State) {t : State} (h : execWrite a0 a1 s = .next t) : Same 139708857544698 s t := by
  unfold execWrite at h
  injection h with h
  refine Same.of_eq h ?_
  clear h
  refine Same.seq ?_ (transportEff_same ..) (by decide)
  exact Same.refl _ _

theorem execWriteImm_same (a0 : BitVec 20) (a1 : Seen) (s : State) {t : State} (h : execWriteImm a0 a1 s = .next t) : Same 139708857544698 s t := by
  unfold execWriteImm at h
  injection h with h
  refine Same.of_eq h ?_
  clear h
  refine Same.seq ?_ (transportEff_same ..) (by decide)
  exact Same.refl _ _

theorem execRead_same (a0 : BitVec 20) (a1 : Seen) (s : State) {t : State} (h : execRead a0 a1 s = .next t) : Same 139708857544698 s t := by
  unfold execRead at h
  injection h with h
  refine Same.of_eq h ?_
  clear h
  refine Same.seq ?_ (transportEff_same ..) (by decide)
  exact Same.refl _ _

theorem execCmpSwap_same (a0 : BitVec 20) (a1 : Seen) (s : State) {t : State} (h : execCmpSwap a0 a1 s = .next t) : Same 139708857544698 s t := by
  unfold execCmpSwap at h
  injection h with h
  refine Same.of_eq h ?_
  clear h
  refine Same.seq ?_ (transportEff_same ..) (by decide)
  exact Same.refl _ _

theorem execFetchAdd_same (a0 : BitVec 20) (a1 : Seen) (s : State) {t : State} (h : execFetchAdd a0 a1 s = .next t) : Same 139708857544698 s t := by
  unfold execFetchAdd at h
  injection h with h
  refine Same.of_eq h ?_
  clear h
  refine Same.seq ?_ (transportEff_same ..) (by decide)
  exact Same.refl _ _

theorem execCopy_same (a0 : BitVec 20) (a1 : Seen) (s : State) {t : State} (h : execCopy a0 a1 s = .next t) : Same 139640138833978 s t := by
  unfold execCopy at h
  injection h with h
  refine Same.of_eq h ?_
  clear h
  refine Same.seq ?_ (copyEff_same ..) (by decide)
  exact Same.refl _ _

theorem invokeEff_same (a0 : Nat) (s : State) : Same 60750178558010 s (invokeEff a0 s) := by
  unfold invokeEff
  split
  · rename_i v1 v2
    exact Same.refl _ _
  · rename_i v3 v4 v5 v6
    extract_lets +onlyGivenNames -merge -useContext x7
    clear_value x7
    extract_lets +onlyGivenNames -merge -useContext x8
    clear_value x8
    refine Same.ite ?_ ?_
    · refine Same.ite ?_ ?_
      · refine Same.ite ?_ ?_
        · exact Same.refl _ _
        · refine Same.seq ?_ (modLive_same ..) (by decide)
          exact Same.refl _ _
      · refine Same.seq ?_ (endEntry_same ..) (by decide)
        exact Same.refl _ _
    · split
      · rename_i v9 v10
        refine Same.seq ?_ (endEntry_same ..) (by decide)
        exact Same.refl _ _
      · rename_i v11 v12 v13
        refine Same.ite ?_ ?_
        · refine Same.seq ?_ (endEntry_same ..) (by decide)
          exact Same.refl _ _
        · split
          · rename_i v14 v15
            refine Same.seq ?_ (endEntry_same ..) (by decide)
            exact Same.refl _ _
          · rename_i v16 v17 v18
            refine Same.ite ?_ ?_
            · refine Same.seq ?_ (endEntry_same ..) (by decide)
              exact Same.refl _ _
            · refine Same.ite ?_ ?_
              · refine Same.seq ?_ (endEntry_same ..) (by decide)
                exact Same.refl _ _
              · refine Same.ite ?_ ?_
                · exact Same.refl _ _
                · extract_lets +onlyGivenNames -merge -useContext x19
                  clear_value x19
                  refine Same.seq ?_ (pushEvent_same ..) (by decide)
                  refine Same.seq ?_ (modLive_same ..) (by decide)
                  exact Same.refl _ _

theorem execInvoke_same (a0 : BitVec 20) (s : State) {t : State} (h : execInvoke a0 s = .next t) : Same 60750178558010 s t := by
  unfold execInvoke at h
  injection h with h
  refine Same.of_eq h ?_
  clear h
  refine Same.seq ?_ (invokeEff_same ..) (by decide)
  exact Same.refl _ _

theorem openWindowEff_same (a0 : Nat) (s : State) : Same 60475300683834 s (openWindowEff a0 s) := by
  unfold openWindowEff
  split
  · rename_i v1 v2
    exact Same.refl _ _
  · rename_i v3 v4 v5 v6
    extract_lets +onlyGivenNames -merge -useContext x7
    clear_value x7
    extract_lets +onlyGivenNames -merge -useContext x8
    clear_value x8
    split
    · rename_i v9 v10 v11
      have h12 : Same 60475300683834 s v10 := by
        refine Same.of_fst v11 ?_
        refine Same.seq ?_ (openWindow_same ..) (by decide)
        exact Same.refl _ _
      refine Same.seq ?_ (endEntry_same ..) (by decide)
      assumption
    · rename_i v13 v14 v15 v16
      have h17 : Same 60475300683834 s v14 := by
        refine Same.of_fst v16 ?_
        refine Same.seq ?_ (openWindow_same ..) (by decide)
        exact Same.refl _ _
      refine Same.seq ?_ (endEntry_same ..) (by decide)
      assumption

theorem execOpenWindow_same (a0 : BitVec 20) (s : State) {t : State} (h : execOpenWindow a0 s = .next t) : Same 60475300683834 s t := by
  unfold execOpenWindow at h
  injection h with h
  refine Same.of_eq h ?_
  clear h
  refine Same.seq ?_ (openWindowEff_same ..) (by decide)
  exact Same.refl _ _

theorem revokeWindowEff_same (a0 : Nat) (s : State) : Same 60475300683834 s (revokeWindowEff a0 s) := by
  unfold revokeWindowEff
  split
  · rename_i v1 v2
    exact Same.refl _ _
  · rename_i v3 v4 v5 v6
    extract_lets +onlyGivenNames -merge -useContext x7
    clear_value x7
    extract_lets +onlyGivenNames -merge -useContext x8
    clear_value x8
    refine Same.ite ?_ ?_
    · refine Same.seq ?_ (endEntry_same ..) (by decide)
      exact Same.refl _ _
    · split
      · rename_i v9 v10 v11
        have h12 : Same 60475300683834 s v10 := by
          refine Same.seq ?_ (startRevoke_same (h := v11) ..) (by decide)
          exact Same.refl _ _
        refine Same.seq ?_ (modLive_same ..) (by decide)
        assumption
      · rename_i v13 v14
        refine Same.seq ?_ (endEntry_same ..) (by decide)
        exact Same.refl _ _

theorem execRevokeWindow_same (a0 : BitVec 20) (s : State) {t : State} (h : execRevokeWindow a0 s = .next t) : Same 60475300683834 s t := by
  unfold execRevokeWindow at h
  injection h with h
  refine Same.of_eq h ?_
  clear h
  refine Same.seq ?_ (revokeWindowEff_same ..) (by decide)
  exact Same.refl _ _

theorem trigResetEff_same (a0 : Nat) (s : State) : Same 60475300651066 s (trigResetEff a0 s) := by
  unfold trigResetEff
  split
  · rename_i v1 v2
    exact Same.refl _ _
  · rename_i v3 v4 v5 v6
    extract_lets +onlyGivenNames -merge -useContext x7
    clear_value x7
    refine Same.ite ?_ ?_
    · refine Same.seq ?_ (endEntry_same ..) (by decide)
      refine Same.seq ?_ (setTrig_same ..) (by decide)
      exact Same.refl _ _
    · refine Same.seq ?_ (endEntry_same ..) (by decide)
      exact Same.refl _ _

theorem execTrigReset_same (a0 : BitVec 20) (s : State) {t : State} (h : execTrigReset a0 s = .next t) : Same 60475300651066 s t := by
  unfold execTrigReset at h
  injection h with h
  refine Same.of_eq h ?_
  clear h
  refine Same.seq ?_ (trigResetEff_same ..) (by decide)
  exact Same.refl _ _

theorem execAbort_same (a0 : BitVec 20) (s : State) {t : State} (h : execAbort a0 s = .next t) : Same 130912764325882 s t := by
  unfold execAbort at h
  injection h with h
  refine Same.of_eq h ?_
  clear h
  refine Same.seq ?_ (abortEff_same ..) (by decide)
  exact Same.refl _ _

theorem recvEff_same (a0 : Nat) (s : State) : Same 4194304 s (recvEff a0 s) := by
  unfold recvEff
  split
  · rename_i v1 v2 v3 v4
    refine Same.seq ?_ (modLive_same ..) (by decide)
    exact Same.refl _ _
  · rename_i v5 v6
    exact Same.refl _ _

theorem execRecvEntry_same (a0 : BitVec 20) (s : State) {t : State} (h : execRecvEntry a0 s = .next t) : Same 4194304 s t := by
  unfold execRecvEntry at h
  injection h with h
  refine Same.of_eq h ?_
  clear h
  refine Same.seq ?_ (recvEff_same ..) (by decide)
  exact Same.refl _ _

theorem execWinRevoke_same (a0 : HostId) (a1 : PartId) (a2 : Word) (s : State) {t : State} (h : execWinRevoke a0 a1 a2 s = .next t) : Same 41781441888314 s t := by
  unfold execWinRevoke at h
  injection h with h
  refine Same.of_eq h ?_
  clear h
  refine Same.trans ?_ (hostWrite_same (hk := by decide) (ha := ?_) ..)
  · exact Same.refl _ _
  · intro x1
    refine Same.seq ?_ (winRevokeEff_same ..) (by decide)
    exact Same.refl _ _

theorem execRevocationFence_same (a0 : BitVec 20) (s : State) {t : State} (h : execRevocationFence a0 s = .next t) : Same 32770 s t := by
  unfold execRevocationFence at h
  injection h with h
  refine Same.of_eq h ?_
  clear h
  refine Same.seq ?_ (revocationFenceEff_same ..) (by decide)
  exact Same.refl _ _

theorem execAccessCommitted_same (a0 : BitVec 20) (s : State) {t : State} (h : execAccessCommitted a0 s = .next t) : Same 32770 s t := by
  unfold execAccessCommitted at h
  injection h with h
  refine Same.of_eq h ?_
  clear h
  refine Same.seq ?_ (accessCommittedEff_same ..) (by decide)
  exact Same.refl _ _

theorem revocationCompleteEff_same (a0 : Nat) (s : State) : Same 60475837554746 s (revocationCompleteEff a0 s) := by
  unfold revocationCompleteEff
  refine Same.seq ?_ (endInsts_same ..) (by decide)
  refine Same.seq ?_ (revocationDone_same ..) (by decide)
  exact Same.refl _ _

theorem execRevocationComplete_same (a0 : BitVec 20) (s : State) {t : State} (h : execRevocationComplete a0 s = .next t) : Same 60475837554746 s t := by
  unfold execRevocationComplete at h
  injection h with h
  refine Same.of_eq h ?_
  clear h
  refine Same.seq ?_ (revocationCompleteEff_same ..) (by decide)
  exact Same.refl _ _

theorem execSheepBatchTimeout_same (a0 : HostId) (s : State) {t : State} (h : execSheepBatchTimeout a0 s = .next t) : Same 196610 s t := by
  unfold execSheepBatchTimeout at h
  injection h with h
  refine Same.of_eq h ?_
  clear h
  refine Same.seq ?_ (batchTimeoutEff_same ..) (by decide)
  exact Same.refl _ _

theorem execSheepBatchWrite_same (a0 : HostId) (s : State) {t : State} (h : execSheepBatchWrite a0 s = .next t) : Same 41781442052146 s t := by
  unfold execSheepBatchWrite at h
  injection h with h
  refine Same.of_eq h ?_
  clear h
  refine Same.seq ?_ (batchWriteEff_same ..) (by decide)
  exact Same.refl _ _

theorem execSheepResolve_same (a0 : HostId) (a1 : BitVec 12) (a2 : Seen) (s : State) {t : State} (h : execSheepResolve a0 a1 a2 s = .next t) : Same 139983736238074 s t := by
  unfold execSheepResolve at h
  injection h with h
  refine Same.of_eq h ?_
  clear h
  refine Same.trans ?_ (hostWrite_same (hk := by decide) (ha := ?_) ..)
  · exact Same.refl _ _
  · intro x1
    refine Same.seq ?_ (sheepResolveEff_same ..) (by decide)
    exact Same.refl _ _

theorem execSheepFail_same (a0 : HostId) (a1 : BitVec 12) (s : State) {t : State} (h : execSheepFail a0 a1 s = .next t) : Same 131187642688570 s t := by
  unfold execSheepFail at h
  injection h with h
  refine Same.of_eq h ?_
  clear h
  refine Same.trans ?_ (hostWrite_same (hk := by decide) (ha := ?_) ..)
  · exact Same.refl _ _
  · intro x1
    refine Same.seq ?_ (sheepFailEff_same ..) (by decide)
    exact Same.refl _ _

theorem sheepTimeoutEff_same (a0 : HostId) (a1 : Nat) (s : State) : Same 131187642688570 s (sheepTimeoutEff a0 a1 s) := by
  unfold sheepTimeoutEff
  split
  · rename_i v1 v2
    exact Same.refl _ _
  · rename_i v3 v4 v5
    refine Same.seq ?_ (failFault_same ..) (by decide)
    refine Same.seq ?_ (count_same ..) (by decide)
    exact Same.refl _ _

theorem execSheepTimeout_same (a0 : HostId) (a1 : BitVec 12) (s : State) {t : State} (h : execSheepTimeout a0 a1 s = .next t) : Same 131187642688570 s t := by
  unfold execSheepTimeout at h
  injection h with h
  refine Same.of_eq h ?_
  clear h
  refine Same.seq ?_ (sheepTimeoutEff_same ..) (by decide)
  exact Same.refl _ _

theorem execSheepParkWrite_same (a0 : HostId) (a1 : Fin 3) (a2 : Word) (s : State) {t : State} (h : execSheepParkWrite a0 a1 a2 s = .next t) : Same 41781441855546 s t := by
  unfold execSheepParkWrite at h
  injection h with h
  refine Same.of_eq h ?_
  clear h
  refine Same.trans ?_ (hostWrite_same (hk := by decide) (ha := ?_) ..)
  · exact Same.refl _ _
  · intro x1
    refine Same.seq ?_ (parkWriteEff_same ..) (by decide)
    exact Same.refl _ _

theorem trigIncrementEff_same (s : State) : Same 70368747323394 s (trigIncrementEff s) := by
  unfold trigIncrementEff
  split
  · rename_i v1 v2
    exact Same.refl _ _
  · rename_i v3 v4 v5 v6
    refine Same.seq ?_ (fresh_same ..) (by decide)
    refine Same.seq ?_ (trigCounts_same ..) (by decide)
    exact Same.refl _ _

theorem execTrigIncrement_same (s : State) {t : State} (h : execTrigIncrement s = .next t) : Same 70368747323394 s t := by
  unfold execTrigIncrement at h
  injection h with h
  refine Same.of_eq h ?_
  clear h
  refine Same.seq ?_ (trigIncrementEff_same ..) (by decide)
  exact Same.refl _ _

theorem execTriggeredStart_same (a0 : BitVec 20) (a1 : Seen) (s : State) {t : State} (h : execTriggeredStart a0 a1 s = .next t) : Same 139708857345082 s t := by
  unfold execTriggeredStart at h
  injection h with h
  refine Same.of_eq h ?_
  clear h
  refine Same.ite ?_ ?_
  · refine Same.seq ?_ (startHead_same ..) (by decide)
    refine Same.seq ?_ (see_same ..) (by decide)
    exact Same.refl _ _
  · exact Same.refl _ _

theorem execTrigRangeWrite_same (a0 : HostId) (a1 : PartId) (a2 : Bool) (a3 : Word) (s : State) {t : State} (h : execTrigRangeWrite a0 a1 a2 a3 s = .next t) : Same 41781441855546 s t := by
  unfold execTrigRangeWrite at h
  injection h with h
  refine Same.of_eq h ?_
  clear h
  refine Same.trans ?_ (hostWrite_same (hk := by decide) (ha := ?_) ..)
  · exact Same.refl _ _
  · intro x1
    refine Same.seq ?_ (trigRangeEff_same ..) (by decide)
    exact Same.refl _ _

theorem execWinShareWrite_same (a0 : HostId) (a1 : PartId) (a2 : Word) (s : State) {t : State} (h : execWinShareWrite a0 a1 a2 s = .next t) : Same 41781441855546 s t := by
  unfold execWinShareWrite at h
  injection h with h
  refine Same.of_eq h ?_
  clear h
  refine Same.trans ?_ (hostWrite_same (hk := by decide) (ha := ?_) ..)
  · exact Same.refl _ _
  · intro x1
    refine Same.seq ?_ (winShareEff_same ..) (by decide)
    exact Same.refl _ _

theorem execFlr_same (a0 : HostId) (s : State) {t : State} (h : execFlr a0 s = .next t) : Same 131206754070522 s t := by
  unfold execFlr at h
  injection h with h
  refine Same.of_eq h ?_
  clear h
  refine Same.seq ?_ (flr_same ..) (by decide)
  exact Same.refl _ _

theorem execD3hotEntry_same (a0 : HostId) (s : State) {t : State} (h : execD3hotEntry a0 s = .next t) : Same 41781441855546 s t := by
  unfold execD3hotEntry at h
  injection h with h
  refine Same.of_eq h ?_
  clear h
  refine Same.seq ?_ (d3hotEntryEff_same ..) (by decide)
  exact Same.refl _ _

theorem hostPortDownEff_same (a0 : HostId) (s : State) : Same 41781441855546 s (hostPortDownEff a0 s) := by
  unfold hostPortDownEff
  refine Same.ite ?_ ?_
  · exact Same.refl _ _
  · extract_lets +onlyGivenNames -merge -useContext x1
    clear_value x1
    extract_lets +onlyGivenNames -merge -useContext x2
    have h2 : Same 41781441855546 s x2 := by
      unfold x2
      refine Same.seq ?_ (setHost_same ..) (by decide)
      exact Same.refl _ _
    clear_value x2
    refine Same.seq ?_ (loseHost_same ..) (by decide)
    refine Same.seq ?_ (put_same ..) (by decide)
    refine Same.seq ?_ (put_same ..) (by decide)
    refine Same.seq ?_ (put_same ..) (by decide)
    refine Same.seq ?_ (put_same ..) (by decide)
    assumption

theorem execHostPortDown_same (a0 : HostId) (s : State) {t : State} (h : execHostPortDown a0 s = .next t) : Same 41781441855546 s t := by
  unfold execHostPortDown at h
  injection h with h
  refine Same.of_eq h ?_
  clear h
  refine Same.seq ?_ (hostPortDownEff_same ..) (by decide)
  exact Same.refl _ _

theorem execDoorbellWq_same (a0 : HostId) (a1 : BitVec 10) (a2 : Fin 512) (a3 : BitVec 64) (s : State) {t : State} (h : execDoorbellWq a0 a1 a2 a3 s = .next t) : Same 60473152110650 s t := by
  unfold execDoorbellWq at h
  injection h with h
  refine Same.of_eq h ?_
  clear h
  refine Same.seq ?_ (doorbellEff_same ..) (by decide)
  exact Same.refl _ _

theorem execDoorbellCq_same (a0 : HostId) (a1 : BitVec 10) (a2 : Fin 512) (a3 : BitVec 64) (s : State) {t : State} (h : execDoorbellCq a0 a1 a2 a3 s = .next t) : Same 60473152110650 s t := by
  unfold execDoorbellCq at h
  injection h with h
  refine Same.of_eq h ?_
  clear h
  refine Same.seq ?_ (doorbellEff_same ..) (by decide)
  exact Same.refl _ _

theorem execBar2BadAccess_same (a0 : HostId) (a1 : Bool) (a2 : BitVec 22) (a3 : Nat) (s : State) {t : State} (h : execBar2BadAccess a0 a1 a2 a3 s = .next t) : Same 35184372088834 s t := by
  unfold execBar2BadAccess at h
  injection h with h
  refine Same.of_eq h ?_
  clear h
  refine Same.seq ?_ (bar2BadEff_same ..) (by decide)
  exact Same.refl _ _

theorem execBar4Read_same (a0 : HostId) (a1 : BitVec 28) (a2 : Nat) (s : State) {t : State} (h : execBar4Read a0 a1 a2 s = .next t) : Same 130841892094010 s t := by
  unfold execBar4Read at h
  injection h with h
  refine Same.of_eq h ?_
  clear h
  refine Same.seq ?_ (bar4ReadEff_same ..) (by decide)
  exact Same.refl _ _

theorem execBar4Write_same (a0 : HostId) (a1 : BitVec 28) (a2 : List Byte) (s : State) {t : State} (h : execBar4Write a0 a1 a2 s = .next t) : Same 130841892094010 s t := by
  unfold execBar4Write at h
  injection h with h
  refine Same.of_eq h ?_
  clear h
  refine Same.seq ?_ (bar4WriteEff_same ..) (by decide)
  exact Same.refl _ _

theorem execB4CtlCommit_same (a0 : HostId) (a1 : Word) (s : State) {t : State} (h : execB4CtlCommit a0 a1 s = .next t) : Same 41781441855546 s t := by
  unfold execB4CtlCommit at h
  injection h with h
  refine Same.of_eq h ?_
  clear h
  refine Same.trans ?_ (hostWrite_same (hk := by decide) (ha := ?_) ..)
  · exact Same.refl _ _
  · intro x1
    refine Same.seq ?_ (b4CommitEff_same ..) (by decide)
    exact Same.refl _ _

theorem execQueueCreate_same (a0 : HostId) (a1 : BitVec 20) (a2 : Seen) (s : State) {t : State} (h : execQueueCreate a0 a1 a2 s = .next t) : Same 69269236744250 s t := by
  unfold execQueueCreate at h
  injection h with h
  refine Same.of_eq h ?_
  clear h
  refine Same.trans ?_ (hostWrite_same (hk := by decide) (ha := ?_) ..)
  · exact Same.refl _ _
  · intro x1
    refine Same.seq ?_ (qcmdEff_same ..) (by decide)
    exact Same.refl _ _

theorem execQueueModify_same (a0 : HostId) (a1 : BitVec 20) (a2 : Seen) (s : State) {t : State} (h : execQueueModify a0 a1 a2 s = .next t) : Same 69269236744250 s t := by
  unfold execQueueModify at h
  injection h with h
  refine Same.of_eq h ?_
  clear h
  refine Same.trans ?_ (hostWrite_same (hk := by decide) (ha := ?_) ..)
  · exact Same.refl _ _
  · intro x1
    refine Same.seq ?_ (qcmdEff_same ..) (by decide)
    exact Same.refl _ _

theorem execQueueQuery_same (a0 : HostId) (a1 : BitVec 20) (a2 : Seen) (s : State) {t : State} (h : execQueueQuery a0 a1 a2 s = .next t) : Same 69269236744250 s t := by
  unfold execQueueQuery at h
  injection h with h
  refine Same.of_eq h ?_
  clear h
  refine Same.trans ?_ (hostWrite_same (hk := by decide) (ha := ?_) ..)
  · exact Same.refl _ _
  · intro x1
    refine Same.seq ?_ (qcmdEff_same ..) (by decide)
    exact Same.refl _ _

theorem execQueueDestroy_same (a0 : HostId) (a1 : BitVec 20) (a2 : Seen) (s : State) {t : State} (h : execQueueDestroy a0 a1 a2 s = .next t) : Same 69269236744250 s t := by
  unfold execQueueDestroy at h
  injection h with h
  refine Same.of_eq h ?_
  clear h
  refine Same.trans ?_ (hostWrite_same (hk := by decide) (ha := ?_) ..)
  · exact Same.refl _ _
  · intro x1
    refine Same.seq ?_ (qcmdEff_same ..) (by decide)
    exact Same.refl _ _

theorem execDcinv_same (a0 : HostId) (a1 : BitVec 20) (s : State) {t : State} (h : execDcinv a0 a1 s = .next t) : Same 41781446049850 s t := by
  unfold execDcinv at h
  injection h with h
  refine Same.of_eq h ?_
  clear h
  refine Same.trans ?_ (hostWrite_same (hk := by decide) (ha := ?_) ..)
  · exact Same.refl _ _
  · intro x1
    refine Same.seq ?_ (dcinvEff_same ..) (by decide)
    exact Same.refl _ _

theorem fetchReturnEff_same (a0 : Nat) (a1 : Nat) (a2 : Seen) (s : State) : Same 50577539072058 s (fetchReturnEff a0 a1 a2 s) := by
  unfold fetchReturnEff
  split
  · rename_i v1 v2
    exact Same.refl _ _
  · rename_i v3 v4 v5
    refine Same.ite ?_ ?_
    · extract_lets +onlyGivenNames -merge -useContext x6
      clear_value x6
      refine Same.foldl _ _ _ ?_ ?_
      · intro x7 a7 h7
        refine Same.seq ?_ (fetchSlot_same ..) (by decide)
        assumption
      · refine Same.seq ?_ (see_same ..) (by decide)
        exact Same.refl _ _
    · exact Same.refl _ _

theorem execEntryFetchReturn_same (a0 : BitVec 20) (a1 : Fin 17) (a2 : Seen) (s : State) {t : State} (h : execEntryFetchReturn a0 a1 a2 s = .next t) : Same 50577539072058 s t := by
  unfold execEntryFetchReturn at h
  injection h with h
  refine Same.of_eq h ?_
  clear h
  refine Same.seq ?_ (fetchReturnEff_same ..) (by decide)
  exact Same.refl _ _

theorem refetchEff_same (a0 : Nat) (a1 : Nat) (a2 : Seen) (s : State) : Same 50577539072058 s (refetchEff a0 a1 a2 s) := by
  unfold refetchEff
  split
  · rename_i v1 v2
    exact Same.refl _ _
  · rename_i v3 v4 v5
    split
    · rename_i v6 v7
      exact Same.refl _ _
    · rename_i v8 v9 v10 v11 v12
      refine Same.ite ?_ ?_
      · exact Same.refl _ _
      · extract_lets +onlyGivenNames -merge -useContext x13
        have h13 : Same 50577539072058 s x13 := by
          unfold x13
          refine Same.seq ?_ (see_same ..) (by decide)
          exact Same.refl _ _
        clear_value x13
        extract_lets +onlyGivenNames -merge -useContext x14
        split
        · rename_i v15 v16 v17 v18
          have h19 : Same 50577539072058 s v16 := by
            refine Same.of_fst v18 ?_
            refine Same.seq ?_ (memReadC_same ..) (by decide)
            assumption
          unfold x14
          refine Same.seq ?_ (count_same ..) (by decide)
          refine Same.seq ?_ (setQueue_same ..) (by decide)
          assumption
        · rename_i v20 v21 v22
          have h23 : Same 50577539072058 s v21 := by
            refine Same.of_fst v22 ?_
            refine Same.seq ?_ (memReadC_same ..) (by decide)
            assumption
          assumption
        · rename_i v24 v25 v26 v27 v28
          have h29 : Same 50577539072058 s v25 := by
            refine Same.of_fst v28 ?_
            refine Same.seq ?_ (memReadC_same ..) (by decide)
            assumption
          unfold x14
          refine Same.seq ?_ (count_same ..) (by decide)
          refine Same.seq ?_ (setQueue_same ..) (by decide)
          assumption

theorem execRefetchTimer_same (a0 : BitVec 20) (a1 : Nat) (a2 : Seen) (s : State) {t : State} (h : execRefetchTimer a0 a1 a2 s = .next t) : Same 50577539072058 s t := by
  unfold execRefetchTimer at h
  injection h with h
  refine Same.of_eq h ?_
  clear h
  refine Same.seq ?_ (refetchEff_same ..) (by decide)
  exact Same.refl _ _

theorem execCqModerationExpiry_same (a0 : BitVec 20) (s : State) {t : State} (h : execCqModerationExpiry a0 s = .next t) : Same 35184376283184 s t := by
  unfold execCqModerationExpiry at h
  injection h with h
  refine Same.of_eq h ?_
  clear h
  refine Same.seq ?_ (cqModerationEff_same ..) (by decide)
  exact Same.refl _ _

theorem execClaim_same (a0 : HostId) (a1 : PartId) (a2 : HostId) (a3 : BitVec 3) (s : State) {t : State} (h : execClaim a0 a1 a2 a3 s = .next t) : Same 41781441855546 s t := by
  unfold execClaim at h
  injection h with h
  refine Same.of_eq h ?_
  clear h
  refine Same.trans ?_ (hostWrite_same (hk := by decide) (ha := ?_) ..)
  · exact Same.refl _ _
  · intro x1
    refine Same.seq ?_ (partAllocEff_same ..) (by decide)
    exact Same.refl _ _

theorem execPartAllocWrite_same (a0 : HostId) (a1 : PartId) (a2 : HostId) (a3 : BitVec 3) (s : State) {t : State} (h : execPartAllocWrite a0 a1 a2 a3 s = .next t) : Same 41781441855546 s t := by
  unfold execPartAllocWrite at h
  injection h with h
  refine Same.of_eq h ?_
  clear h
  refine Same.trans ?_ (hostWrite_same (hk := by decide) (ha := ?_) ..)
  · exact Same.refl _ _
  · intro x1
    refine Same.seq ?_ (partAllocEff_same ..) (by decide)
    exact Same.refl _ _

theorem execSeal_same (a0 : HostId) (a1 : PartId) (s : State) {t : State} (h : execSeal a0 a1 s = .next t) : Same 131206754070522 s t := by
  unfold execSeal at h
  injection h with h
  refine Same.of_eq h ?_
  clear h
  refine Same.seq ?_ (partCtlWrite_same ..) (by decide)
  exact Same.refl _ _

theorem execResume_same (a0 : HostId) (a1 : PartId) (a2 : Bool) (s : State) {t : State} (h : execResume a0 a1 a2 s = .next t) : Same 131206754070522 s t := by
  unfold execResume at h
  injection h with h
  refine Same.of_eq h ?_
  clear h
  refine Same.seq ?_ (partCtlWrite_same ..) (by decide)
  exact Same.refl _ _

theorem execPartReset_same (a0 : HostId) (a1 : PartId) (s : State) {t : State} (h : execPartReset a0 a1 s = .next t) : Same 131206754070522 s t := by
  unfold execPartReset at h
  injection h with h
  refine Same.of_eq h ?_
  clear h
  refine Same.seq ?_ (partCtlWrite_same ..) (by decide)
  exact Same.refl _ _

theorem execRelease_same (a0 : HostId) (a1 : PartId) (s : State) {t : State} (h : execRelease a0 a1 s = .next t) : Same 131206754070522 s t := by
  unfold execRelease at h
  injection h with h
  refine Same.of_eq h ?_
  clear h
  refine Same.seq ?_ (partCtlWrite_same ..) (by decide)
  exact Same.refl _ _

theorem resetDoneEff_same (a0 : Nat) (s : State) : Same 805306418 s (resetDoneEff a0 s) := by
  unfold resetDoneEff
  split
  · rename_i v1 v2
    exact Same.refl _ _
  · rename_i v3 v4 v5
    refine Same.ite ?_ ?_
    · exact Same.refl _ _
    · extract_lets +onlyGivenNames -merge -useContext x6
      clear_value x6
      extract_lets +onlyGivenNames -merge -useContext x7
      have h7 : Same 805306418 s x7 := by
        unfold x7
        constructor <;> intro hb <;> first | rfl | exact absurd hb (by decide)
      clear_value x7
      extract_lets +onlyGivenNames -merge -useContext x8
      have h8 : Same 805306418 s x8 := by
        unfold x8
        refine Same.seq ?_ (put_same ..) (by decide)
        refine Same.seq ?_ (put_same ..) (by decide)
        assumption
      clear_value x8
      refine Same.seq ?_ (showReady_same ..) (by decide)
      refine Same.ite ?_ ?_
      · refine Same.seq ?_ (freePartition_same ..) (by decide)
        assumption
      · assumption

theorem execPartitionResetDone_same (a0 : PartId) (s : State) {t : State} (h : execPartitionResetDone a0 s = .next t) : Same 805306418 s t := by
  unfold execPartitionResetDone at h
  injection h with h
  refine Same.of_eq h ?_
  clear h
  refine Same.seq ?_ (resetDoneEff_same ..) (by decide)
  exact Same.refl _ _

theorem execHoldingWrite_same (a0 : HostId) (a1 : BitVec 24) (a2 : Word) (s : State) {t : State} (h : execHoldingWrite a0 a1 a2 s = .next t) : Same 41781441855546 s t := by
  unfold execHoldingWrite at h
  injection h with h
  refine Same.of_eq h ?_
  clear h
  refine Same.trans ?_ (hostWrite_same (hk := by decide) (ha := ?_) ..)
  · exact Same.refl _ _
  · intro x1
    refine Same.seq ?_ (holdingEff_same ..) (by decide)
    exact Same.refl _ _

theorem execInstCreate_same (a0 : HostId) (a1 : PartId) (a2 : BitVec 10) (s : State) {t : State} (h : execInstCreate a0 a1 a2 s = .next t) : Same 139985362874362 s t := by
  unfold execInstCreate at h
  injection h with h
  refine Same.of_eq h ?_
  clear h
  refine Same.trans ?_ (hostWrite_same (hk := by decide) (ha := ?_) ..)
  · exact Same.refl _ _
  · intro x1
    refine Same.seq ?_ (partCmdEff_same ..) (by decide)
    exact Same.refl _ _

theorem execInstReset_same (a0 : HostId) (a1 : PartId) (a2 : BitVec 10) (s : State) {t : State} (h : execInstReset a0 a1 a2 s = .next t) : Same 139985362874362 s t := by
  unfold execInstReset at h
  injection h with h
  refine Same.of_eq h ?_
  clear h
  refine Same.trans ?_ (hostWrite_same (hk := by decide) (ha := ?_) ..)
  · exact Same.refl _ _
  · intro x1
    refine Same.seq ?_ (partCmdEff_same ..) (by decide)
    exact Same.refl _ _

theorem execInstDestroy_same (a0 : HostId) (a1 : PartId) (a2 : BitVec 10) (s : State) {t : State} (h : execInstDestroy a0 a1 a2 s = .next t) : Same 139985362874362 s t := by
  unfold execInstDestroy at h
  injection h with h
  refine Same.of_eq h ?_
  clear h
  refine Same.trans ?_ (hostWrite_same (hk := by decide) (ha := ?_) ..)
  · exact Same.refl _ _
  · intro x1
    refine Same.seq ?_ (partCmdEff_same ..) (by decide)
    exact Same.refl _ _

theorem execFreeze_same (a0 : HostId) (a1 : Bool) (a2 : PartId) (a3 : BitVec 10) (s : State) {t : State} (h : execFreeze a0 a1 a2 a3 s = .next t) : Same 139985362874362 s t := by
  unfold execFreeze at h
  injection h with h
  refine Same.of_eq h ?_
  clear h
  refine Same.trans ?_ (hostWrite_same (hk := by decide) (ha := ?_) ..)
  · exact Same.refl _ _
  · intro x1
    refine Same.seq ?_ (partCmdEff_same ..) (by decide)
    exact Same.refl _ _

theorem freezeCompleteEff_same (a0 : HostId) (s : State) : Same 131188179100730 s (freezeCompleteEff a0 s) := by
  unfold freezeCompleteEff
  split
  · rename_i v1 v2
    exact Same.refl _ _
  · rename_i v3 v4 v5
    extract_lets +onlyGivenNames -merge -useContext x6
    have h6 : Same 131188179100730 s x6 := by
      unfold x6
      refine Same.seq ?_ (freezeQps_same ..) (by decide)
      exact Same.refl _ _
    clear_value x6
    refine Same.ite ?_ ?_
    · assumption
    · extract_lets +onlyGivenNames -merge -useContext x7
      clear_value x7
      extract_lets +onlyGivenNames -merge -useContext x8
      have h8 : Same 131188179100730 s x8 := by
        unfold x8
        refine Same.foldl _ _ _ ?_ ?_
        · intro x9 a9 h9
          refine Same.seq ?_ (tryHalt_same ..) (by decide)
          refine Same.seq ?_ (modCore_same ..) (by decide)
          assumption
        · assumption
      clear_value x8
      refine Same.ite ?_ ?_
      · assumption
      · extract_lets +onlyGivenNames -merge -useContext x10
        clear_value x10
        extract_lets +onlyGivenNames -merge -useContext x11
        have h11 : Same 131188179100730 s x11 := by
          unfold x11
          refine Same.trans h8 ?_
          constructor <;> intro hb <;> first | rfl | exact absurd hb (by decide)
        clear_value x11
        extract_lets +onlyGivenNames -merge -useContext x12
        have h12 : Same 131188179100730 s x12 := by
          unfold x12
          split
          · rename_i v13 v14 v15
            refine Same.seq ?_ (put_same ..) (by decide)
            assumption
          · rename_i v16 v17
            refine Same.seq ?_ (put_same ..) (by decide)
            assumption
        clear_value x12
        refine Same.seq ?_ (partCmdEnd_same ..) (by decide)
        assumption

theorem execFreezeComplete_same (a0 : HostId) (s : State) {t : State} (h : execFreezeComplete a0 s = .next t) : Same 131188179100730 s t := by
  unfold execFreezeComplete at h
  injection h with h
  refine Same.of_eq h ?_
  clear h
  refine Same.seq ?_ (freezeCompleteEff_same ..) (by decide)
  exact Same.refl _ _

theorem execThaw_same (a0 : HostId) (a1 : Bool) (a2 : PartId) (a3 : BitVec 10) (a4 : Seen) (s : State) {t : State} (h : execThaw a0 a1 a2 a3 a4 s = .next t) : Same 139985362874362 s t := by
  unfold execThaw at h
  injection h with h
  refine Same.of_eq h ?_
  clear h
  refine Same.trans ?_ (hostWrite_same (hk := by decide) (ha := ?_) ..)
  · exact Same.refl _ _
  · intro x1
    refine Same.seq ?_ (partCmdEff_same ..) (by decide)
    exact Same.refl _ _

theorem execSave_same (a0 : HostId) (a1 : Bool) (a2 : PartId) (a3 : BitVec 10) (s : State) {t : State} (h : execSave a0 a1 a2 a3 s = .next t) : Same 139985362874362 s t := by
  unfold execSave at h
  injection h with h
  refine Same.of_eq h ?_
  clear h
  refine Same.trans ?_ (hostWrite_same (hk := by decide) (ha := ?_) ..)
  · exact Same.refl _ _
  · intro x1
    refine Same.seq ?_ (partCmdEff_same ..) (by decide)
    exact Same.refl _ _

theorem execRestore_same (a0 : HostId) (a1 : Bool) (a2 : PartId) (a3 : BitVec 10) (a4 : Seen) (s : State) {t : State} (h : execRestore a0 a1 a2 a3 a4 s = .next t) : Same 139985362874362 s t := by
  unfold execRestore at h
  injection h with h
  refine Same.of_eq h ?_
  clear h
  refine Same.trans ?_ (hostWrite_same (hk := by decide) (ha := ?_) ..)
  · exact Same.refl _ _
  · intro x1
    refine Same.seq ?_ (partCmdEff_same ..) (by decide)
    exact Same.refl _ _

theorem execPartHostCtlWrite_same (a0 : HostId) (a1 : HostId) (a2 : Word) (s : State) {t : State} (h : execPartHostCtlWrite a0 a1 a2 s = .next t) : Same 41781441855546 s t := by
  unfold execPartHostCtlWrite at h
  injection h with h
  refine Same.of_eq h ?_
  clear h
  refine Same.trans ?_ (hostWrite_same (hk := by decide) (ha := ?_) ..)
  · exact Same.refl _ _
  · intro x1
    refine Same.seq ?_ (partHostCtlEff_same ..) (by decide)
    exact Same.refl _ _

theorem execHostKick_same (a0 : HostId) (a1 : HostId) (a2 : Word) (s : State) {t : State} (h : execHostKick a0 a1 a2 s = .next t) : Same 131187642688570 s t := by
  unfold execHostKick at h
  injection h with h
  refine Same.of_eq h ?_
  clear h
  refine Same.trans ?_ (hostWrite_same (hk := by decide) (ha := ?_) ..)
  · exact Same.refl _ _
  · intro x1
    refine Same.seq ?_ (hostKickEff_same ..) (by decide)
    exact Same.refl _ _

theorem watchdogExpiryEff_same (a0 : HostId) (s : State) : Same 41781441855546 s (watchdogExpiryEff a0 s) := by
  unfold watchdogExpiryEff
  refine Same.ite ?_ ?_
  · refine Same.seq ?_ (loseHost_same ..) (by decide)
    refine Same.seq ?_ (put_same ..) (by decide)
    refine Same.seq ?_ (setHost_same ..) (by decide)
    exact Same.refl _ _
  · exact Same.refl _ _

theorem execHostWatchdogExpiry_same (a0 : HostId) (s : State) {t : State} (h : execHostWatchdogExpiry a0 s = .next t) : Same 41781441855546 s t := by
  unfold execHostWatchdogExpiry at h
  injection h with h
  refine Same.of_eq h ?_
  clear h
  refine Same.seq ?_ (watchdogExpiryEff_same ..) (by decide)
  exact Same.refl _ _

theorem execOrphanGraceExpiry_same (a0 : PartId) (s : State) {t : State} (h : execOrphanGraceExpiry a0 s = .next t) : Same 130912764522490 s t := by
  unfold execOrphanGraceExpiry at h
  injection h with h
  refine Same.of_eq h ?_
  clear h
  refine Same.seq ?_ (graceExpiryEff_same ..) (by decide)
  exact Same.refl _ _

theorem execAddSubAndOrXor_same (a0 : CoreId) (s : State) {t : State} (h : execAddSubAndOrXor a0 s = .next t) : Same 60750178558010 s t := by
  unfold execAddSubAndOrXor at h
  injection h with h
  refine Same.of_eq h ?_
  clear h
  refine Same.trans ?_ (issue_same (hk := by decide) (ha := ?_) ..)
  · exact Same.refl _ _
  · intro x1 x2
    refine Same.seq ?_ (execGG_same ..) (by decide)
    exact Same.refl _ _

theorem execSllSrlSra_same (a0 : CoreId) (s : State) {t : State} (h : execSllSrlSra a0 s = .next t) : Same 60750178558010 s t := by
  unfold execSllSrlSra at h
  injection h with h
  refine Same.of_eq h ?_
  clear h
  refine Same.trans ?_ (issue_same (hk := by decide) (ha := ?_) ..)
  · exact Same.refl _ _
  · intro x1 x2
    refine Same.seq ?_ (execGG_same ..) (by decide)
    exact Same.refl _ _

theorem execSltSltu_same (a0 : CoreId) (s : State) {t : State} (h : execSltSltu a0 s = .next t) : Same 60750178558010 s t := by
  unfold execSltSltu at h
  injection h with h
  refine Same.of_eq h ?_
  clear h
  refine Same.trans ?_ (issue_same (hk := by decide) (ha := ?_) ..)
  · exact Same.refl _ _
  · intro x1 x2
    refine Same.seq ?_ (execGG_same ..) (by decide)
    exact Same.refl _ _

theorem execMinMaxMinuMaxu_same (a0 : CoreId) (s : State) {t : State} (h : execMinMaxMinuMaxu a0 s = .next t) : Same 60750178558010 s t := by
  unfold execMinMaxMinuMaxu at h
  injection h with h
  refine Same.of_eq h ?_
  clear h
  refine Same.trans ?_ (issue_same (hk := by decide) (ha := ?_) ..)
  · exact Same.refl _ _
  · intro x1 x2
    refine Same.seq ?_ (execGG_same ..) (by decide)
    exact Same.refl _ _

theorem execClzPopc_same (a0 : CoreId) (s : State) {t : State} (h : execClzPopc a0 s = .next t) : Same 60750178558010 s t := by
  unfold execClzPopc at h
  injection h with h
  refine Same.of_eq h ?_
  clear h
  refine Same.trans ?_ (issue_same (hk := by decide) (ha := ?_) ..)
  · exact Same.refl _ _
  · intro x1 x2
    refine Same.seq ?_ (countEff_same ..) (by decide)
    exact Same.refl _ _

theorem execMulMulhMulhu_same (a0 : CoreId) (s : State) {t : State} (h : execMulMulhMulhu a0 s = .next t) : Same 60750178558010 s t := by
  unfold execMulMulhMulhu at h
  injection h with h
  refine Same.of_eq h ?_
  clear h
  refine Same.trans ?_ (issue_same (hk := by decide) (ha := ?_) ..)
  · exact Same.refl _ _
  · intro x1 x2
    refine Same.seq ?_ (execGG_same ..) (by decide)
    exact Same.refl _ _

theorem execClmulClmulh_same (a0 : CoreId) (s : State) {t : State} (h : execClmulClmulh a0 s = .next t) : Same 60750178558010 s t := by
  unfold execClmulClmulh at h
  injection h with h
  refine Same.of_eq h ?_
  clear h
  refine Same.trans ?_ (issue_same (hk := by decide) (ha := ?_) ..)
  · exact Same.refl _ _
  · intro x1 x2
    refine Same.seq ?_ (execGG_same ..) (by decide)
    exact Same.refl _ _

theorem execAddiAndiOriXori_same (a0 : CoreId) (s : State) {t : State} (h : execAddiAndiOriXori a0 s = .next t) : Same 60750178558010 s t := by
  unfold execAddiAndiOriXori at h
  injection h with h
  refine Same.of_eq h ?_
  clear h
  refine Same.trans ?_ (issue_same (hk := by decide) (ha := ?_) ..)
  · exact Same.refl _ _
  · intro x1 x2
    refine Same.seq ?_ (execG_same ..) (by decide)
    exact Same.refl _ _

theorem shiEff_same (a0 : Nat) (a1 : Nat) (s : State) : Same 60750178558010 s (shiEff a0 a1 s) := by
  unfold shiEff
  refine Same.ite ?_ ?_
  · refine Same.seq ?_ (raise_same ..) (by decide)
    exact Same.refl _ _
  · refine Same.seq ?_ (execG_same ..) (by decide)
    exact Same.refl _ _

theorem execShi_same (a0 : CoreId) (s : State) {t : State} (h : execShi a0 s = .next t) : Same 60750178558010 s t := by
  unfold execShi at h
  injection h with h
  refine Same.of_eq h ?_
  clear h
  refine Same.trans ?_ (issue_same (hk := by decide) (ha := ?_) ..)
  · exact Same.refl _ _
  · intro x1 x2
    refine Same.seq ?_ (shiEff_same ..) (by decide)
    exact Same.refl _ _

theorem execSlti_same (a0 : CoreId) (s : State) {t : State} (h : execSlti a0 s = .next t) : Same 60750178558010 s t := by
  unfold execSlti at h
  injection h with h
  refine Same.of_eq h ?_
  clear h
  refine Same.trans ?_ (issue_same (hk := by decide) (ha := ?_) ..)
  · exact Same.refl _ _
  · intro x1 x2
    refine Same.seq ?_ (execG_same ..) (by decide)
    exact Same.refl _ _

theorem execLui_same (a0 : CoreId) (s : State) {t : State} (h : execLui a0 s = .next t) : Same 60750178558010 s t := by
  unfold execLui at h
  injection h with h
  refine Same.of_eq h ?_
  clear h
  refine Same.trans ?_ (issue_same (hk := by decide) (ha := ?_) ..)
  · exact Same.refl _ _
  · intro x1 x2
    refine Same.seq ?_ (execG_same ..) (by decide)
    exact Same.refl _ _

theorem luihEff_same (a0 : Nat) (a1 : Nat) (s : State) : Same 8388608 s (luihEff a0 a1 s) := by
  unfold luihEff
  refine Same.seq ?_ (execG_same ..) (by decide)
  exact Same.refl _ _

theorem execLuih_same (a0 : CoreId) (s : State) {t : State} (h : execLuih a0 s = .next t) : Same 60750178558010 s t := by
  unfold execLuih at h
  injection h with h
  refine Same.of_eq h ?_
  clear h
  refine Same.trans ?_ (issue_same (hk := by decide) (ha := ?_) ..)
  · exact Same.refl _ _
  · intro x1 x2
    refine Same.seq ?_ (luihEff_same ..) (by decide)
    exact Same.refl _ _

theorem loadEff_same (a0 : Nat) (a1 : Bool) (a2 : Nat) (s : State) : Same 60818898034746 s (loadEff a0 a1 a2 s) := by
  unfold loadEff
  extract_lets +onlyGivenNames -merge -useContext x1
  clear_value x1
  refine Same.trans ?_ (spadLoad_same (hk := by decide) (ha := ?_) ..)
  · exact Same.refl _ _
  · intro x2
    refine Same.seq ?_ (execG_same ..) (by decide)
    exact Same.refl _ _

theorem execLbLhLwLd_same (a0 : CoreId) (a1 : Bool) (s : State) {t : State} (h : execLbLhLwLd a0 a1 s = .next t) : Same 60818898034746 s t := by
  unfold execLbLhLwLd at h
  injection h with h
  refine Same.of_eq h ?_
  clear h
  refine Same.trans ?_ (issue_same (hk := by decide) (ha := ?_) ..)
  · exact Same.refl _ _
  · intro x1 x2
    refine Same.seq ?_ (loadEff_same ..) (by decide)
    exact Same.refl _ _

theorem storeEff_same (a0 : Nat) (a1 : Bool) (a2 : Nat) (s : State) : Same 60818898034746 s (storeEff a0 a1 a2 s) := by
  unfold storeEff
  extract_lets +onlyGivenNames -merge -useContext x1
  clear_value x1
  refine Same.seq ?_ (spadStore_same ..) (by decide)
  exact Same.refl _ _

theorem execSbShSwSd_same (a0 : CoreId) (a1 : Bool) (s : State) {t : State} (h : execSbShSwSd a0 a1 s = .next t) : Same 60818898034746 s t := by
  unfold execSbShSwSd at h
  injection h with h
  refine Same.of_eq h ?_
  clear h
  refine Same.trans ?_ (issue_same (hk := by decide) (ha := ?_) ..)
  · exact Same.refl _ _
  · intro x1 x2
    refine Same.seq ?_ (storeEff_same ..) (by decide)
    exact Same.refl _ _

theorem execBeqBneBltBge_same (a0 : CoreId) (s : State) {t : State} (h : execBeqBneBltBge a0 s = .next t) : Same 60750178558010 s t := by
  unfold execBeqBneBltBge at h
  injection h with h
  refine Same.of_eq h ?_
  clear h
  refine Same.trans ?_ (issue_same (hk := by decide) (ha := ?_) ..)
  · exact Same.refl _ _
  · intro x1 x2
    refine Same.seq ?_ (branchEff_same ..) (by decide)
    exact Same.refl _ _

theorem jalEff_same (a0 : Nat) (a1 : Nat) (s : State) : Same 8388608 s (jalEff a0 a1 s) := by
  unfold jalEff
  refine Same.seq ?_ (modCore_same ..) (by decide)
  exact Same.refl _ _

theorem execJal_same (a0 : CoreId) (s : State) {t : State} (h : execJal a0 s = .next t) : Same 60750178558010 s t := by
  unfold execJal at h
  injection h with h
  refine Same.of_eq h ?_
  clear h
  refine Same.trans ?_ (issue_same (hk := by decide) (ha := ?_) ..)
  · exact Same.refl _ _
  · intro x1 x2
    refine Same.seq ?_ (jalEff_same ..) (by decide)
    exact Same.refl _ _

theorem jalrEff_same (a0 : Nat) (a1 : Nat) (s : State) : Same 8388608 s (jalrEff a0 a1 s) := by
  unfold jalrEff
  refine Same.seq ?_ (modCore_same ..) (by decide)
  exact Same.refl _ _

theorem execJalr_same (a0 : CoreId) (s : State) {t : State} (h : execJalr a0 s = .next t) : Same 60750178558010 s t := by
  unfold execJalr at h
  injection h with h
  refine Same.of_eq h ?_
  clear h
  refine Same.trans ?_ (issue_same (hk := by decide) (ha := ?_) ..)
  · exact Same.refl _ _
  · intro x1 x2
    refine Same.seq ?_ (jalrEff_same ..) (by decide)
    exact Same.refl _ _

theorem loopiEff_same (a0 : Nat) (a1 : Nat) (s : State) : Same 60750178558010 s (loopiEff a0 a1 s) := by
  unfold loopiEff
  refine Same.ite ?_ ?_
  · refine Same.seq ?_ (raise_same ..) (by decide)
    exact Same.refl _ _
  · refine Same.seq ?_ (enterLoop_same ..) (by decide)
    exact Same.refl _ _

theorem execLoopi_same (a0 : CoreId) (s : State) {t : State} (h : execLoopi a0 s = .next t) : Same 60750178558010 s t := by
  unfold execLoopi at h
  injection h with h
  refine Same.of_eq h ?_
  clear h
  refine Same.trans ?_ (issue_same (hk := by decide) (ha := ?_) ..)
  · exact Same.refl _ _
  · intro x1 x2
    refine Same.seq ?_ (loopiEff_same ..) (by decide)
    exact Same.refl _ _

theorem looprEff_same (a0 : Nat) (a1 : Nat) (s : State) : Same 60750178558010 s (looprEff a0 a1 s) := by
  unfold looprEff
  extract_lets +onlyGivenNames -merge -useContext x1
  clear_value x1
  extract_lets +onlyGivenNames -merge -useContext x2
  clear_value x2
  extract_lets +onlyGivenNames -merge -useContext x3
  clear_value x3
  refine Same.ite ?_ ?_
  · refine Same.seq ?_ (raise_same ..) (by decide)
    exact Same.refl _ _
  · refine Same.ite ?_ ?_
    · refine Same.seq ?_ (modCore_same ..) (by decide)
      exact Same.refl _ _
    · refine Same.seq ?_ (enterLoop_same ..) (by decide)
      exact Same.refl _ _

theorem execLoopr_same (a0 : CoreId) (s : State) {t : State} (h : execLoopr a0 s = .next t) : Same 60750178558010 s t := by
  unfold execLoopr at h
  injection h with h
  refine Same.of_eq h ?_
  clear h
  refine Same.trans ?_ (issue_same (hk := by decide) (ha := ?_) ..)
  · exact Same.refl _ _
  · intro x1 x2
    refine Same.seq ?_ (looprEff_same ..) (by decide)
    exact Same.refl _ _

theorem execCsrr_same (a0 : CoreId) (s : State) {t : State} (h : execCsrr a0 s = .next t) : Same 60750178558010 s t := by
  unfold execCsrr at h
  injection h with h
  refine Same.of_eq h ?_
  clear h
  refine Same.trans ?_ (issue_same (hk := by decide) (ha := ?_) ..)
  · exact Same.refl _ _
  · intro x1 x2
    refine Same.seq ?_ (csrrEff_same ..) (by decide)
    exact Same.refl _ _

theorem execCsrw_same (a0 : CoreId) (s : State) {t : State} (h : execCsrw a0 s = .next t) : Same 60750178558010 s t := by
  unfold execCsrw at h
  injection h with h
  refine Same.of_eq h ?_
  clear h
  refine Same.trans ?_ (issue_same (hk := by decide) (ha := ?_) ..)
  · exact Same.refl _ _
  · intro x1 x2
    refine Same.seq ?_ (csrwEff_same ..) (by decide)
    exact Same.refl _ _

theorem execFence_same (a0 : CoreId) (s : State) {t : State} (h : execFence a0 s = .next t) : Same 60750178558010 s t := by
  unfold execFence at h
  injection h with h
  refine Same.of_eq h ?_
  clear h
  refine Same.trans ?_ (issue_same (hk := by decide) (ha := ?_) ..)
  · exact Same.refl _ _
  · intro x1 x2
    refine Same.seq ?_ (exec1_same ..) (by decide)
    exact Same.refl _ _

theorem execEndEvent_same (a0 : CoreId) (s : State) {t : State} (h : execEndEvent a0 s = .next t) : Same 60750178558010 s t := by
  unfold execEndEvent at h
  injection h with h
  refine Same.of_eq h ?_
  clear h
  refine Same.trans ?_ (issue_same (hk := by decide) (ha := ?_) ..)
  · exact Same.refl _ _
  · intro x1 x2
    refine Same.seq ?_ (endEff_same ..) (by decide)
    exact Same.refl _ _

theorem execCmpl_same (a0 : CoreId) (s : State) {t : State} (h : execCmpl a0 s = .next t) : Same 60750178558010 s t := by
  unfold execCmpl at h
  injection h with h
  refine Same.of_eq h ?_
  clear h
  refine Same.trans ?_ (issue_same (hk := by decide) (ha := ?_) ..)
  · exact Same.refl _ _
  · intro x1 x2
    refine Same.seq ?_ (cmplEff_same ..) (by decide)
    exact Same.refl _ _

theorem execBrk_same (a0 : CoreId) (s : State) {t : State} (h : execBrk a0 s = .next t) : Same 60750178558010 s t := by
  unfold execBrk at h
  injection h with h
  refine Same.of_eq h ?_
  clear h
  refine Same.trans ?_ (issue_same (hk := by decide) (ha := ?_) ..)
  · exact Same.refl _ _
  · intro x1 x2
    refine Same.seq ?_ (brkEff_same ..) (by decide)
    exact Same.refl _ _

theorem slotwEff_same (a0 : Nat) (a1 : Nat) (s : State) : Same 8388608 s (slotwEff a0 a1 s) := by
  unfold slotwEff
  extract_lets +onlyGivenNames -merge -useContext x1
  clear_value x1
  refine Same.ite ?_ ?_
  · refine Same.seq ?_ (exec1_same ..) (by decide)
    exact Same.refl _ _
  · refine Same.seq ?_ (modCore_same ..) (by decide)
    exact Same.refl _ _

theorem execSlotw_same (a0 : CoreId) (s : State) {t : State} (h : execSlotw a0 s = .next t) : Same 60750178558010 s t := by
  unfold execSlotw at h
  injection h with h
  refine Same.of_eq h ?_
  clear h
  refine Same.trans ?_ (issue_same (hk := by decide) (ha := ?_) ..)
  · exact Same.refl _ _
  · intro x1 x2
    refine Same.seq ?_ (slotwEff_same ..) (by decide)
    exact Same.refl _ _

theorem slotwReleaseEff_same (a0 : Nat) (s : State) : Same 8388608 s (slotwReleaseEff a0 s) := by
  unfold slotwReleaseEff
  refine Same.seq ?_ (endWait_same ..) (by decide)
  exact Same.refl _ _

theorem execSlotwRelease_same (a0 : CoreId) (s : State) {t : State} (h : execSlotwRelease a0 s = .next t) : Same 8388608 s t := by
  unfold execSlotwRelease at h
  injection h with h
  refine Same.of_eq h ?_
  clear h
  refine Same.seq ?_ (slotwReleaseEff_same ..) (by decide)
  exact Same.refl _ _

theorem execBar_same (a0 : CoreId) (s : State) {t : State} (h : execBar a0 s = .next t) : Same 60768432169018 s t := by
  unfold execBar at h
  injection h with h
  refine Same.of_eq h ?_
  clear h
  refine Same.trans ?_ (issue_same (hk := by decide) (ha := ?_) ..)
  · exact Same.refl _ _
  · intro x1 x2
    refine Same.seq ?_ (barEff_same ..) (by decide)
    exact Same.refl _ _

theorem msgEff_same (a0 : Nat) (a1 : Nat) (s : State) : Same 25165824 s (msgEff a0 a1 s) := by
  unfold msgEff
  extract_lets +onlyGivenNames -merge -useContext x1
  clear_value x1
  extract_lets +onlyGivenNames -merge -useContext x2
  clear_value x2
  extract_lets +onlyGivenNames -merge -useContext x3
  clear_value x3
  refine Same.ite ?_ ?_
  · refine Same.seq ?_ (exec1_same ..) (by decide)
    exact Same.refl _ _
  · refine Same.ite ?_ ?_
    · refine Same.seq ?_ (exec1_same ..) (by decide)
      exact Same.refl _ _
    · refine Same.seq ?_ (exec1_same ..) (by decide)
      refine Same.seq ?_ (setCluster_same ..) (by decide)
      exact Same.refl _ _

theorem execMsg_same (a0 : CoreId) (s : State) {t : State} (h : execMsg a0 s = .next t) : Same 60750195335226 s t := by
  unfold execMsg at h
  injection h with h
  refine Same.of_eq h ?_
  clear h
  refine Same.trans ?_ (issue_same (hk := by decide) (ha := ?_) ..)
  · exact Same.refl _ _
  · intro x1 x2
    refine Same.seq ?_ (msgEff_same ..) (by decide)
    exact Same.refl _ _

theorem messageDeliveryEff_same (a0 : Nat) (s : State) : Same 274903072770 s (messageDeliveryEff a0 s) := by
  unfold messageDeliveryEff
  extract_lets +onlyGivenNames -merge -useContext x1
  clear_value x1
  split
  · rename_i v2 v3
    exact Same.refl _ _
  · rename_i v4 v5 v6 v7
    refine Same.seq ?_ (deliver_same ..) (by decide)
    refine Same.seq ?_ (setCluster_same ..) (by decide)
    exact Same.refl _ _

theorem execMessageDelivery_same (a0 : ClusterId) (s : State) {t : State} (h : execMessageDelivery a0 s = .next t) : Same 274903072770 s t := by
  unfold execMessageDelivery at h
  injection h with h
  refine Same.of_eq h ?_
  clear h
  refine Same.seq ?_ (messageDeliveryEff_same ..) (by decide)
  exact Same.refl _ _

theorem sigaEff_same (a0 : Nat) (a1 : Nat) (s : State) : Same 131118922735674 s (sigaEff a0 a1 s) := by
  unfold sigaEff
  extract_lets +onlyGivenNames -merge -useContext x1
  clear_value x1
  extract_lets +onlyGivenNames -merge -useContext x2
  clear_value x2
  extract_lets +onlyGivenNames -merge -useContext x3
  clear_value x3
  extract_lets +onlyGivenNames -merge -useContext x4
  clear_value x4
  extract_lets +onlyGivenNames -merge -useContext x5
  clear_value x5
  refine Same.ite ?_ ?_
  · refine Same.seq ?_ (raise_same ..) (by decide)
    exact Same.refl _ _
  · refine Same.ite ?_ ?_
    · split
      · rename_i v6 v7
        refine Same.seq ?_ (raise_same ..) (by decide)
        exact Same.refl _ _
      · rename_i v8 v9
        refine Same.seq ?_ (raise_same ..) (by decide)
        exact Same.refl _ _
    · split
      · rename_i v10 v11 v12 v13
        have h14 : Same 131118922735674 s v11 := by
          refine Same.of_fst v13 ?_
          refine Same.seq ?_ (wordAdd_same ..) (by decide)
          exact Same.refl _ _
        refine Same.seq ?_ (execG_same ..) (by decide)
        assumption
      · rename_i v15 v16 v17
        have h18 : Same 131118922735674 s v16 := by
          refine Same.of_fst v17 ?_
          refine Same.seq ?_ (wordAdd_same ..) (by decide)
          exact Same.refl _ _
        refine Same.seq ?_ (raise_same ..) (by decide)
        assumption
      · rename_i v19 v20 v21
        have h22 : Same 131118922735674 s v20 := by
          refine Same.of_fst v21 ?_
          refine Same.seq ?_ (wordAdd_same ..) (by decide)
          exact Same.refl _ _
        refine Same.seq ?_ (execG_same ..) (by decide)
        refine Same.seq ?_ (fresh_same ..) (by decide)
        assumption
      · rename_i v23 v24 v25
        have h26 : Same 131118922735674 s v24 := by
          refine Same.of_fst v25 ?_
          refine Same.seq ?_ (wordAdd_same ..) (by decide)
          exact Same.refl _ _
        exact Same.refl _ _

theorem execSiga_same (a0 : CoreId) (s : State) {t : State} (h : execSiga a0 s = .next t) : Same 131118922735674 s t := by
  unfold execSiga at h
  injection h with h
  refine Same.of_eq h ?_
  clear h
  refine Same.trans ?_ (issue_same (hk := by decide) (ha := ?_) ..)
  · exact Same.refl _ _
  · intro x1 x2
    refine Same.seq ?_ (sigaEff_same ..) (by decide)
    exact Same.refl _ _

theorem swaitEff_same (a0 : Nat) (a1 : Nat) (s : State) : Same 60750178558010 s (swaitEff a0 a1 s) := by
  unfold swaitEff
  extract_lets +onlyGivenNames -merge -useContext x1
  clear_value x1
  extract_lets +onlyGivenNames -merge -useContext x2
  clear_value x2
  extract_lets +onlyGivenNames -merge -useContext x3
  clear_value x3
  refine Same.ite ?_ ?_
  · refine Same.seq ?_ (raise_same ..) (by decide)
    exact Same.refl _ _
  · refine Same.ite ?_ ?_
    · refine Same.seq ?_ (raise_same ..) (by decide)
      exact Same.refl _ _
    · refine Same.ite ?_ ?_
      · refine Same.seq ?_ (exec1_same ..) (by decide)
        exact Same.refl _ _
      · refine Same.seq ?_ (modCore_same ..) (by decide)
        exact Same.refl _ _

theorem execSwait_same (a0 : CoreId) (s : State) {t : State} (h : execSwait a0 s = .next t) : Same 60750178558010 s t := by
  unfold execSwait at h
  injection h with h
  refine Same.of_eq h ?_
  clear h
  refine Same.trans ?_ (issue_same (hk := by decide) (ha := ?_) ..)
  · exact Same.refl _ _
  · intro x1 x2
    refine Same.seq ?_ (swaitEff_same ..) (by decide)
    exact Same.refl _ _

theorem swaitReleaseEff_same (a0 : Nat) (s : State) : Same 8388608 s (swaitReleaseEff a0 s) := by
  unfold swaitReleaseEff
  refine Same.seq ?_ (endWait_same ..) (by decide)
  exact Same.refl _ _

theorem execSwaitRelease_same (a0 : CoreId) (s : State) {t : State} (h : execSwaitRelease a0 s = .next t) : Same 8388608 s t := by
  unfold execSwaitRelease at h
  injection h with h
  refine Same.of_eq h ?_
  clear h
  refine Same.seq ?_ (swaitReleaseEff_same ..) (by decide)
  exact Same.refl _ _

theorem vldEff_same (a0 : Nat) (a1 : Bool) (a2 : Nat) (s : State) : Same 60818898034746 s (vldEff a0 a1 a2 s) := by
  unfold vldEff
  refine Same.trans ?_ (spadLoad_same (hk := by decide) (ha := ?_) ..)
  · exact Same.refl _ _
  · intro x1
    refine Same.seq ?_ (exec1_same ..) (by decide)
    exact Same.refl _ _

theorem execVld_same (a0 : CoreId) (a1 : Bool) (s : State) {t : State} (h : execVld a0 a1 s = .next t) : Same 60818898034746 s t := by
  unfold execVld at h
  injection h with h
  refine Same.of_eq h ?_
  clear h
  refine Same.trans ?_ (issue_same (hk := by decide) (ha := ?_) ..)
  · exact Same.refl _ _
  · intro x1 x2
    refine Same.seq ?_ (vldEff_same ..) (by decide)
    exact Same.refl _ _

theorem vldrEff_same (a0 : Nat) (a1 : Bool) (a2 : Nat) (s : State) : Same 60818898034746 s (vldrEff a0 a1 a2 s) := by
  unfold vldrEff
  extract_lets +onlyGivenNames -merge -useContext x1
  clear_value x1
  extract_lets +onlyGivenNames -merge -useContext x2
  clear_value x2
  refine Same.ite ?_ ?_
  · refine Same.seq ?_ (raise_same ..) (by decide)
    exact Same.refl _ _
  · refine Same.trans ?_ (spadLoad_same (hk := by decide) (ha := ?_) ..)
    · exact Same.refl _ _
    · intro x3
      refine Same.seq ?_ (exec1_same ..) (by decide)
      exact Same.refl _ _

theorem execVldr_same (a0 : CoreId) (a1 : Bool) (s : State) {t : State} (h : execVldr a0 a1 s = .next t) : Same 60818898034746 s t := by
  unfold execVldr at h
  injection h with h
  refine Same.of_eq h ?_
  clear h
  refine Same.trans ?_ (issue_same (hk := by decide) (ha := ?_) ..)
  · exact Same.refl _ _
  · intro x1 x2
    refine Same.seq ?_ (vldrEff_same ..) (by decide)
    exact Same.refl _ _

theorem vstEff_same (a0 : Nat) (a1 : Bool) (a2 : Nat) (s : State) : Same 60818898034746 s (vstEff a0 a1 a2 s) := by
  unfold vstEff
  extract_lets +onlyGivenNames -merge -useContext x1
  clear_value x1
  refine Same.seq ?_ (spadStore_same ..) (by decide)
  exact Same.refl _ _

theorem execVst_same (a0 : CoreId) (a1 : Bool) (s : State) {t : State} (h : execVst a0 a1 s = .next t) : Same 60818898034746 s t := by
  unfold execVst at h
  injection h with h
  refine Same.of_eq h ?_
  clear h
  refine Same.trans ?_ (issue_same (hk := by decide) (ha := ?_) ..)
  · exact Same.refl _ _
  · intro x1 x2
    refine Same.seq ?_ (vstEff_same ..) (by decide)
    exact Same.refl _ _

theorem vextEff_same (a0 : Nat) (a1 : Nat) (s : State) : Same 70368752566272 s (vextEff a0 a1 s) := by
  unfold vextEff
  extract_lets +onlyGivenNames -merge -useContext x1
  clear_value x1
  extract_lets +onlyGivenNames -merge -useContext x2
  clear_value x2
  refine Same.ite ?_ ?_
  · refine Same.seq ?_ (execG_same ..) (by decide)
    refine Same.seq ?_ (fresh_same ..) (by decide)
    exact Same.refl _ _
  · refine Same.seq ?_ (execG_same ..) (by decide)
    exact Same.refl _ _

theorem execVext_same (a0 : CoreId) (s : State) {t : State} (h : execVext a0 s = .next t) : Same 131118922735674 s t := by
  unfold execVext at h
  injection h with h
  refine Same.of_eq h ?_
  clear h
  refine Same.trans ?_ (issue_same (hk := by decide) (ha := ?_) ..)
  · exact Same.refl _ _
  · intro x1 x2
    refine Same.seq ?_ (vextEff_same ..) (by decide)
    exact Same.refl _ _

theorem vinsEff_same (a0 : Nat) (a1 : Nat) (s : State) : Same 70368752566272 s (vinsEff a0 a1 s) := by
  unfold vinsEff
  extract_lets +onlyGivenNames -merge -useContext x1
  clear_value x1
  extract_lets +onlyGivenNames -merge -useContext x2
  clear_value x2
  refine Same.ite ?_ ?_
  · refine Same.seq ?_ (exec1_same ..) (by decide)
    refine Same.seq ?_ (fresh_same ..) (by decide)
    exact Same.refl _ _
  · refine Same.seq ?_ (exec1_same ..) (by decide)
    exact Same.refl _ _

theorem execVins_same (a0 : CoreId) (s : State) {t : State} (h : execVins a0 s = .next t) : Same 131118922735674 s t := by
  unfold execVins at h
  injection h with h
  refine Same.of_eq h ?_
  clear h
  refine Same.trans ?_ (issue_same (hk := by decide) (ha := ?_) ..)
  · exact Same.refl _ _
  · intro x1 x2
    refine Same.seq ?_ (vinsEff_same ..) (by decide)
    exact Same.refl _ _

theorem vbcastEff_same (a0 : Nat) (a1 : Nat) (s : State) : Same 60750178558010 s (vbcastEff a0 a1 s) := by
  unfold vbcastEff
  extract_lets +onlyGivenNames -merge -useContext x1
  clear_value x1
  refine Same.ite ?_ ?_
  · refine Same.seq ?_ (raise_same ..) (by decide)
    exact Same.refl _ _
  · refine Same.seq ?_ (exec1_same ..) (by decide)
    exact Same.refl _ _

theorem execVbcast_same (a0 : CoreId) (s : State) {t : State} (h : execVbcast a0 s = .next t) : Same 60750178558010 s t := by
  unfold execVbcast at h
  injection h with h
  refine Same.of_eq h ?_
  clear h
  refine Same.trans ?_ (issue_same (hk := by decide) (ha := ?_) ..)
  · exact Same.refl _ _
  · intro x1 x2
    refine Same.seq ?_ (vbcastEff_same ..) (by decide)
    exact Same.refl _ _

theorem varithEff_same (a0 : Nat) (a1 : Nat) (s : State) : Same 60750178558010 s (varithEff a0 a1 s) := by
  unfold varithEff
  refine Same.ite ?_ ?_
  · refine Same.seq ?_ (raise_same ..) (by decide)
    exact Same.refl _ _
  · refine Same.seq ?_ (exec1_same ..) (by decide)
    exact Same.refl _ _

theorem execVaddVsubVmulVmaxVmin_same (a0 : CoreId) (s : State) {t : State} (h : execVaddVsubVmulVmaxVmin a0 s = .next t) : Same 60750178558010 s t := by
  unfold execVaddVsubVmulVmaxVmin at h
  injection h with h
  refine Same.of_eq h ?_
  clear h
  refine Same.trans ?_ (issue_same (hk := by decide) (ha := ?_) ..)
  · exact Same.refl _ _
  · intro x1 x2
    refine Same.seq ?_ (varithEff_same ..) (by decide)
    exact Same.refl _ _

theorem vabsNegEff_same (a0 : Nat) (a1 : Nat) (s : State) : Same 60750178558010 s (vabsNegEff a0 a1 s) := by
  unfold vabsNegEff
  extract_lets +onlyGivenNames -merge -useContext x1
  clear_value x1
  refine Same.ite ?_ ?_
  · refine Same.seq ?_ (raise_same ..) (by decide)
    exact Same.refl _ _
  · refine Same.seq ?_ (exec1_same ..) (by decide)
    exact Same.refl _ _

theorem execVabsVneg_same (a0 : CoreId) (s : State) {t : State} (h : execVabsVneg a0 s = .next t) : Same 60750178558010 s t := by
  unfold execVabsVneg at h
  injection h with h
  refine Same.of_eq h ?_
  clear h
  refine Same.trans ?_ (issue_same (hk := by decide) (ha := ?_) ..)
  · exact Same.refl _ _
  · intro x1 x2
    refine Same.seq ?_ (vabsNegEff_same ..) (by decide)
    exact Same.refl _ _

theorem vlogicEff_same (a0 : Nat) (a1 : Nat) (s : State) : Same 60750178558010 s (vlogicEff a0 a1 s) := by
  unfold vlogicEff
  refine Same.ite ?_ ?_
  · refine Same.seq ?_ (raise_same ..) (by decide)
    exact Same.refl _ _
  · refine Same.seq ?_ (exec1_same ..) (by decide)
    exact Same.refl _ _

theorem execVandVorVxor_same (a0 : CoreId) (s : State) {t : State} (h : execVandVorVxor a0 s = .next t) : Same 60750178558010 s t := by
  unfold execVandVorVxor at h
  injection h with h
  refine Same.of_eq h ?_
  clear h
  refine Same.trans ?_ (issue_same (hk := by decide) (ha := ?_) ..)
  · exact Same.refl _ _
  · intro x1 x2
    refine Same.seq ?_ (vlogicEff_same ..) (by decide)
    exact Same.refl _ _

theorem vfmaEff_same (a0 : Nat) (a1 : Nat) (s : State) : Same 60750178558010 s (vfmaEff a0 a1 s) := by
  unfold vfmaEff
  extract_lets +onlyGivenNames -merge -useContext x1
  clear_value x1
  split
  · rename_i v2 v3
    refine Same.seq ?_ (raise_same ..) (by decide)
    exact Same.refl _ _
  · rename_i v4 v5 v6
    refine Same.seq ?_ (exec1_same ..) (by decide)
    exact Same.refl _ _

theorem execVfma_same (a0 : CoreId) (s : State) {t : State} (h : execVfma a0 s = .next t) : Same 60750178558010 s t := by
  unfold execVfma at h
  injection h with h
  refine Same.of_eq h ?_
  clear h
  refine Same.trans ?_ (issue_same (hk := by decide) (ha := ?_) ..)
  · exact Same.refl _ _
  · intro x1 x2
    refine Same.seq ?_ (vfmaEff_same ..) (by decide)
    exact Same.refl _ _

theorem vcvtEff_same (a0 : Nat) (a1 : Nat) (s : State) : Same 60750178558010 s (vcvtEff a0 a1 s) := by
  unfold vcvtEff
  extract_lets +onlyGivenNames -merge -useContext x1
  clear_value x1
  extract_lets +onlyGivenNames -merge -useContext x2
  clear_value x2
  extract_lets +onlyGivenNames -merge -useContext x3
  clear_value x3
  refine Same.ite ?_ ?_
  · refine Same.seq ?_ (raise_same ..) (by decide)
    exact Same.refl _ _
  · refine Same.seq ?_ (exec1_same ..) (by decide)
    exact Same.refl _ _

theorem execVcvt_same (a0 : CoreId) (s : State) {t : State} (h : execVcvt a0 s = .next t) : Same 60750178558010 s t := by
  unfold execVcvt at h
  injection h with h
  refine Same.of_eq h ?_
  clear h
  refine Same.trans ?_ (issue_same (hk := by decide) (ha := ?_) ..)
  · exact Same.refl _ _
  · intro x1 x2
    refine Same.seq ?_ (vcvtEff_same ..) (by decide)
    exact Same.refl _ _

theorem vqmxEff_same (a0 : Nat) (a1 : Nat) (s : State) : Same 131118922735674 s (vqmxEff a0 a1 s) := by
  unfold vqmxEff
  extract_lets +onlyGivenNames -merge -useContext x1
  clear_value x1
  extract_lets +onlyGivenNames -merge -useContext x2
  clear_value x2
  refine Same.ite ?_ ?_
  · refine Same.seq ?_ (raise_same ..) (by decide)
    exact Same.refl _ _
  · extract_lets +onlyGivenNames -merge -useContext x3
    clear_value x3
    extract_lets +onlyGivenNames -merge -useContext x4
    clear_value x4
    split
    · rename_i v5 v6 v7 v8 v9
      extract_lets +onlyGivenNames -merge -useContext x10
      clear_value x10
      extract_lets +onlyGivenNames -merge -useContext x11
      clear_value x11
      extract_lets +onlyGivenNames -merge -useContext x12
      clear_value x12
      refine Same.seq ?_ (exec1_same ..) (by decide)
      refine Same.seq ?_ (fresh_same ..) (by decide)
      exact Same.refl _ _

theorem execVqmx_same (a0 : CoreId) (s : State) {t : State} (h : execVqmx a0 s = .next t) : Same 131118922735674 s t := by
  unfold execVqmx at h
  injection h with h
  refine Same.of_eq h ?_
  clear h
  refine Same.trans ?_ (issue_same (hk := by decide) (ha := ?_) ..)
  · exact Same.refl _ _
  · intro x1 x2
    refine Same.seq ?_ (vqmxEff_same ..) (by decide)
    exact Same.refl _ _

theorem vdqmxEff_same (a0 : Nat) (a1 : Nat) (s : State) : Same 60750178558010 s (vdqmxEff a0 a1 s) := by
  unfold vdqmxEff
  extract_lets +onlyGivenNames -merge -useContext x1
  clear_value x1
  extract_lets +onlyGivenNames -merge -useContext x2
  clear_value x2
  refine Same.ite ?_ ?_
  · refine Same.seq ?_ (raise_same ..) (by decide)
    exact Same.refl _ _
  · refine Same.seq ?_ (exec1_same ..) (by decide)
    exact Same.refl _ _

theorem execVdqmx_same (a0 : CoreId) (s : State) {t : State} (h : execVdqmx a0 s = .next t) : Same 60750178558010 s t := by
  unfold execVdqmx at h
  injection h with h
  refine Same.of_eq h ?_
  clear h
  refine Same.trans ?_ (issue_same (hk := by decide) (ha := ?_) ..)
  · exact Same.refl _ _
  · intro x1 x2
    refine Same.seq ?_ (vdqmxEff_same ..) (by decide)
    exact Same.refl _ _

theorem vpermEff_same (a0 : Nat) (a1 : Nat) (s : State) : Same 8388608 s (vpermEff a0 a1 s) := by
  unfold vpermEff
  refine Same.seq ?_ (exec1_same ..) (by decide)
  exact Same.refl _ _

theorem execVperm_same (a0 : CoreId) (s : State) {t : State} (h : execVperm a0 s = .next t) : Same 60750178558010 s t := by
  unfold execVperm at h
  injection h with h
  refine Same.of_eq h ?_
  clear h
  refine Same.trans ?_ (issue_same (hk := by decide) (ha := ?_) ..)
  · exact Same.refl _ _
  · intro x1 x2
    refine Same.seq ?_ (vpermEff_same ..) (by decide)
    exact Same.refl _ _

theorem vhredEff_same (a0 : Nat) (a1 : Nat) (s : State) : Same 60750178558010 s (vhredEff a0 a1 s) := by
  unfold vhredEff
  extract_lets +onlyGivenNames -merge -useContext x1
  clear_value x1
  refine Same.ite ?_ ?_
  · refine Same.seq ?_ (raise_same ..) (by decide)
    exact Same.refl _ _
  · refine Same.seq ?_ (exec1_same ..) (by decide)
    exact Same.refl _ _

theorem execVhred_same (a0 : CoreId) (s : State) {t : State} (h : execVhred a0 s = .next t) : Same 60750178558010 s t := by
  unfold execVhred at h
  injection h with h
  refine Same.of_eq h ?_
  clear h
  refine Same.trans ?_ (issue_same (hk := by decide) (ha := ?_) ..)
  · exact Same.refl _ _
  · intro x1 x2
    refine Same.seq ?_ (vhredEff_same ..) (by decide)
    exact Same.refl _ _

theorem tzeroEff_same (a0 : Nat) (a1 : Nat) (s : State) : Same 60750178558010 s (tzeroEff a0 a1 s) := by
  unfold tzeroEff
  refine Same.ite ?_ ?_
  · refine Same.seq ?_ (raise_same ..) (by decide)
    exact Same.refl _ _
  · refine Same.seq ?_ (exec1_same ..) (by decide)
    exact Same.refl _ _

theorem execTzero_same (a0 : CoreId) (s : State) {t : State} (h : execTzero a0 s = .next t) : Same 60750178558010 s t := by
  unfold execTzero at h
  injection h with h
  refine Same.of_eq h ?_
  clear h
  refine Same.trans ?_ (issue_same (hk := by decide) (ha := ?_) ..)
  · exact Same.refl _ _
  · intro x1 x2
    refine Same.seq ?_ (tzeroEff_same ..) (by decide)
    exact Same.refl _ _

theorem tldEff_same (a0 : Nat) (a1 : Bool) (a2 : Nat) (s : State) : Same 60818898034746 s (tldEff a0 a1 a2 s) := by
  unfold tldEff
  extract_lets +onlyGivenNames -merge -useContext x1
  clear_value x1
  refine Same.ite ?_ ?_
  · refine Same.seq ?_ (raise_same ..) (by decide)
    exact Same.refl _ _
  · split
    · rename_i v2 v3 v4
      refine Same.seq ?_ (raise_same ..) (by decide)
      exact Same.refl _ _
    · rename_i v5 v6
      refine Same.ite ?_ ?_
      · refine Same.seq ?_ (spadUe_same ..) (by decide)
        exact Same.refl _ _
      · refine Same.seq ?_ (exec1_same ..) (by decide)
        exact Same.refl _ _

theorem execTld_same (a0 : CoreId) (a1 : Bool) (s : State) {t : State} (h : execTld a0 a1 s = .next t) : Same 60818898034746 s t := by
  unfold execTld at h
  injection h with h
  refine Same.of_eq h ?_
  clear h
  refine Same.trans ?_ (issue_same (hk := by decide) (ha := ?_) ..)
  · exact Same.refl _ _
  · intro x1 x2
    refine Same.seq ?_ (tldEff_same ..) (by decide)
    exact Same.refl _ _

theorem tstEff_same (a0 : Nat) (a1 : Bool) (a2 : Nat) (s : State) : Same 60818898034746 s (tstEff a0 a1 a2 s) := by
  unfold tstEff
  extract_lets +onlyGivenNames -merge -useContext x1
  clear_value x1
  extract_lets +onlyGivenNames -merge -useContext x2
  clear_value x2
  extract_lets +onlyGivenNames -merge -useContext x3
  clear_value x3
  refine Same.ite ?_ ?_
  · refine Same.seq ?_ (raise_same ..) (by decide)
    exact Same.refl _ _
  · split
    · rename_i v4 v5 v6
      refine Same.seq ?_ (raise_same ..) (by decide)
      exact Same.refl _ _
    · rename_i v7 v8
      refine Same.ite ?_ ?_
      · refine Same.seq ?_ (spadUe_same ..) (by decide)
        exact Same.refl _ _
      · split
        · rename_i v9 v10 v11 v12
          refine Same.seq ?_ (exec1_same ..) (by decide)
          refine Same.seq ?_ (spadWrite_same ..) (by decide)
          exact Same.refl _ _

theorem execTst_same (a0 : CoreId) (a1 : Bool) (s : State) {t : State} (h : execTst a0 a1 s = .next t) : Same 60818898034746 s t := by
  unfold execTst at h
  injection h with h
  refine Same.of_eq h ?_
  clear h
  refine Same.trans ?_ (issue_same (hk := by decide) (ha := ?_) ..)
  · exact Same.refl _ _
  · intro x1 x2
    refine Same.seq ?_ (tstEff_same ..) (by decide)
    exact Same.refl _ _

theorem tmmaEff_same (a0 : Nat) (a1 : Bool) (a2 : Nat) (s : State) : Same 131187642212410 s (tmmaEff a0 a1 a2 s) := by
  unfold tmmaEff
  extract_lets +onlyGivenNames -merge -useContext x1
  clear_value x1
  extract_lets +onlyGivenNames -merge -useContext x2
  clear_value x2
  extract_lets +onlyGivenNames -merge -useContext x3
  clear_value x3
  extract_lets +onlyGivenNames -merge -useContext x4
  clear_value x4
  refine Same.ite ?_ ?_
  · refine Same.seq ?_ (raise_same ..) (by decide)
    exact Same.refl _ _
  · split
    · rename_i v5 v6 v7 v8 v9 v10
      refine Same.seq ?_ (raise_same ..) (by decide)
      exact Same.refl _ _
    · rename_i v11 v12 v13 v14 v15
      refine Same.seq ?_ (raise_same ..) (by decide)
      exact Same.refl _ _
    · rename_i v16 v17 v18 v19 v20
      refine Same.seq ?_ (raise_same ..) (by decide)
      exact Same.refl _ _
    · rename_i v21 v22 v23 v24
      refine Same.ite ?_ ?_
      · refine Same.seq ?_ (spadUe_same ..) (by decide)
        refine Same.seq ?_ (modCore_same ..) (by decide)
        refine Same.seq ?_ (fresh_same ..) (by decide)
        exact Same.refl _ _
      · split
        · rename_i v25 v26 v27 v28
          refine Same.seq ?_ (exec1_same ..) (by decide)
          exact Same.refl _ _

theorem execTmma_same (a0 : CoreId) (a1 : Bool) (s : State) {t : State} (h : execTmma a0 a1 s = .next t) : Same 131187642212410 s t := by
  unfold execTmma at h
  injection h with h
  refine Same.of_eq h ?_
  clear h
  refine Same.trans ?_ (issue_same (hk := by decide) (ha := ?_) ..)
  · exact Same.refl _ _
  · intro x1 x2
    refine Same.seq ?_ (tmmaEff_same ..) (by decide)
    exact Same.refl _ _

theorem tstreamEff_same (a0 : Nat) (a1 : Nat) (s : State) : Same 60750178558010 s (tstreamEff a0 a1 s) := by
  unfold tstreamEff
  extract_lets +onlyGivenNames -merge -useContext x1
  clear_value x1
  extract_lets +onlyGivenNames -merge -useContext x2
  clear_value x2
  extract_lets +onlyGivenNames -merge -useContext x3
  clear_value x3
  refine Same.ite ?_ ?_
  · refine Same.seq ?_ (raise_same ..) (by decide)
    exact Same.refl _ _
  · refine Same.ite ?_ ?_
    · refine Same.seq ?_ (raise_same ..) (by decide)
      exact Same.refl _ _
    · refine Same.ite ?_ ?_
      · exact Same.refl _ _
      · split
        · rename_i v4 v5 v6 v7
          extract_lets +onlyGivenNames -merge -useContext x8
          have h8 : Same 60750178558010 s x8 := by
            unfold x8
            refine Same.seq ?_ (modChan_same ..) (by decide)
            exact Same.refl _ _
          clear_value x8
          refine Same.seq ?_ (exec1_same ..) (by decide)
          assumption

theorem execTstream_same (a0 : CoreId) (s : State) {t : State} (h : execTstream a0 s = .next t) : Same 60750178558010 s t := by
  unfold execTstream at h
  injection h with h
  refine Same.of_eq h ?_
  clear h
  refine Same.trans ?_ (issue_same (hk := by decide) (ha := ?_) ..)
  · exact Same.refl _ _
  · intro x1 x2
    refine Same.seq ?_ (tstreamEff_same ..) (by decide)
    exact Same.refl _ _

theorem execDmov_same (a0 : CoreId) (s : State) {t : State} (h : execDmov a0 s = .next t) : Same 60750178558010 s t := by
  unfold execDmov at h
  injection h with h
  refine Same.of_eq h ?_
  clear h
  refine Same.trans ?_ (issue_same (hk := by decide) (ha := ?_) ..)
  · exact Same.refl _ _
  · intro x1 x2
    refine Same.seq ?_ (dmovEff_same ..) (by decide)
    exact Same.refl _ _

theorem execDwait_same (a0 : CoreId) (s : State) {t : State} (h : execDwait a0 s = .next t) : Same 60750178558010 s t := by
  unfold execDwait at h
  injection h with h
  refine Same.of_eq h ?_
  clear h
  refine Same.trans ?_ (issue_same (hk := by decide) (ha := ?_) ..)
  · exact Same.refl _ _
  · intro x1 x2
    refine Same.seq ?_ (dwaitEff_same ..) (by decide)
    exact Same.refl _ _

theorem execDwaitRelease_same (a0 : CoreId) (s : State) {t : State} (h : execDwaitRelease a0 s = .next t) : Same 8388608 s t := by
  unfold execDwaitRelease at h
  injection h with h
  refine Same.of_eq h ?_
  clear h
  refine Same.seq ?_ (dwaitReleaseEff_same ..) (by decide)
  exact Same.refl _ _

theorem execAeseAesd_same (a0 : CoreId) (s : State) {t : State} (h : execAeseAesd a0 s = .next t) : Same 60750195335226 s t := by
  unfold execAeseAesd at h
  injection h with h
  refine Same.of_eq h ?_
  clear h
  refine Same.trans ?_ (issue_same (hk := by decide) (ha := ?_) ..)
  · exact Same.refl _ _
  · intro x1 x2
    refine Same.seq ?_ (aesEff_same ..) (by decide)
    exact Same.refl _ _

theorem execAesBlocksReturn_same (a0 : CoreId) (s : State) {t : State} (h : execAesBlocksReturn a0 s = .next t) : Same 275154731010 s t := by
  unfold execAesBlocksReturn at h
  injection h with h
  refine Same.of_eq h ?_
  clear h
  refine Same.seq ?_ (aesReturnEff_same ..) (by decide)
  exact Same.refl _ _

theorem redpEff_same (a0 : Nat) (a1 : Nat) (s : State) : Same 60750195335226 s (redpEff a0 a1 s) := by
  unfold redpEff
  extract_lets +onlyGivenNames -merge -useContext x1
  clear_value x1
  extract_lets +onlyGivenNames -merge -useContext x2
  clear_value x2
  refine Same.ite ?_ ?_
  · refine Same.seq ?_ (raise_same ..) (by decide)
    exact Same.refl _ _
  · refine Same.ite ?_ ?_
    · refine Same.seq ?_ (raise_same ..) (by decide)
      exact Same.refl _ _
    · refine Same.ite ?_ ?_
      · refine Same.seq ?_ (exec1_same ..) (by decide)
        exact Same.refl _ _
      · refine Same.seq ?_ (exec1_same ..) (by decide)
        refine Same.seq ?_ (redPost_same ..) (by decide)
        exact Same.refl _ _

theorem execRedp_same (a0 : CoreId) (s : State) {t : State} (h : execRedp a0 s = .next t) : Same 60750195335226 s t := by
  unfold execRedp at h
  injection h with h
  refine Same.of_eq h ?_
  clear h
  refine Same.trans ?_ (issue_same (hk := by decide) (ha := ?_) ..)
  · exact Same.refl _ _
  · intro x1 x2
    refine Same.seq ?_ (redpEff_same ..) (by decide)
    exact Same.refl _ _

theorem wchkEff_same (a0 : Nat) (a1 : Nat) (s : State) : Same 60750178590778 s (wchkEff a0 a1 s) := by
  unfold wchkEff
  refine Same.trans ?_ (resident_same (hk := by decide) (ha := ?_) ..)
  · exact Same.refl _ _
  · intro x1
    extract_lets +onlyGivenNames -merge -useContext x4
    clear_value x4
    extract_lets +onlyGivenNames -merge -useContext x5
    clear_value x5
    extract_lets +onlyGivenNames -merge -useContext x6
    clear_value x6
    extract_lets +onlyGivenNames -merge -useContext x7
    clear_value x7
    split
    · rename_i v8
      refine Same.seq ?_ (exec1_same ..) (by decide)
      exact Same.refl _ _
    · rename_i v9 v10
      split
      · rename_i v11 v12 v13
        refine Same.seq ?_ (exec1_same ..) (by decide)
        exact Same.refl _ _
      · rename_i v14 v15
        extract_lets +onlyGivenNames -merge -useContext x16
        clear_value x16
        refine Same.seq ?_ (exec1_same ..) (by decide)
        refine Same.seq ?_ (inflightUp_same ..) (by decide)
        exact Same.refl _ _

theorem execWchk_same (a0 : CoreId) (s : State) {t : State} (h : execWchk a0 s = .next t) : Same 60750178590778 s t := by
  unfold execWchk at h
  injection h with h
  refine Same.of_eq h ?_
  clear h
  refine Same.trans ?_ (issue_same (hk := by decide) (ha := ?_) ..)
  · exact Same.refl _ _
  · intro x1 x2
    refine Same.seq ?_ (wchkEff_same ..) (by decide)
    exact Same.refl _ _

theorem kldKstEff_same (a0 : Nat) (a1 : Nat) (s : State) : Same 131118922752058 s (kldKstEff a0 a1 s) := by
  unfold kldKstEff
  refine Same.trans ?_ (resident_same (hk := by decide) (ha := ?_) ..)
  · exact Same.refl _ _
  · intro x1
    extract_lets +onlyGivenNames -merge -useContext x4
    clear_value x4
    extract_lets +onlyGivenNames -merge -useContext x5
    clear_value x5
    extract_lets +onlyGivenNames -merge -useContext x6
    clear_value x6
    split
    · rename_i v7 v8
      refine Same.ite ?_ ?_
      · refine Same.seq ?_ (exec1_same ..) (by decide)
        refine Same.seq ?_ (fresh_same ..) (by decide)
        exact Same.refl _ _
      · refine Same.seq ?_ (exec1_same ..) (by decide)
        exact Same.refl _ _
    · rename_i v9 v10 v11
      refine Same.ite ?_ ?_
      · refine Same.seq ?_ (raise_same ..) (by decide)
        refine Same.seq ?_ (cidRefused_same ..) (by decide)
        exact Same.refl _ _
      · refine Same.ite ?_ ?_
        · refine Same.seq ?_ (miss_same ..) (by decide)
          exact Same.refl _ _
        · refine Same.ite ?_ ?_
          · refine Same.seq ?_ (exec1_same ..) (by decide)
            exact Same.refl _ _
          · extract_lets +onlyGivenNames -merge -useContext x12
            clear_value x12
            extract_lets +onlyGivenNames -merge -useContext x13
            clear_value x13
            refine Same.seq ?_ (exec1_same ..) (by decide)
            refine Same.seq ?_ (modCtx_same ..) (by decide)
            exact Same.refl _ _

theorem execKldKst_same (a0 : CoreId) (s : State) {t : State} (h : execKldKst a0 s = .next t) : Same 131118922752058 s t := by
  unfold execKldKst at h
  injection h with h
  refine Same.of_eq h ?_
  clear h
  refine Same.trans ?_ (issue_same (hk := by decide) (ha := ?_) ..)
  · exact Same.refl _ _
  · intro x1 x2
    refine Same.seq ?_ (kldKstEff_same ..) (by decide)
    exact Same.refl _ _

theorem watchdogEff_same (a0 : Nat) (s : State) : Same 60750178558010 s (watchdogEff a0 s) := by
  unfold watchdogEff
  extract_lets +onlyGivenNames -merge -useContext x1
  clear_value x1
  refine Same.ite ?_ ?_
  · exact Same.refl _ _
  · refine Same.seq ?_ (raise_same ..) (by decide)
    exact Same.refl _ _

theorem execWatchdog_same (a0 : CoreId) (s : State) {t : State} (h : execWatchdog a0 s = .next t) : Same 60750178558010 s t := by
  unfold execWatchdog at h
  injection h with h
  refine Same.of_eq h ?_
  clear h
  refine Same.seq ?_ (watchdogEff_same ..) (by decide)
  exact Same.refl _ _

theorem execEventStart_same (a0 : CoreId) (s : State) {t : State} (h : execEventStart a0 s = .next t) : Same 274886295554 s t := by
  unfold execEventStart at h
  injection h with h
  refine Same.of_eq h ?_
  clear h
  refine Same.seq ?_ (eventStartEff_same ..) (by decide)
  exact Same.refl _ _

theorem execDroverDescriptorTake_same (a0 : CoreId) (a1 : Fin 4) (s : State) {t : State} (h : execDroverDescriptorTake a0 a1 s = .next t) : Same 60750178558010 s t := by
  unfold execDroverDescriptorTake at h
  injection h with h
  refine Same.of_eq h ?_
  clear h
  refine Same.seq ?_ (droverTakeEff_same ..) (by decide)
  exact Same.refl _ _

theorem execDroverTransferDone_same (a0 : CoreId) (a1 : Fin 4) (a2 : Seen) (s : State) {t : State} (h : execDroverTransferDone a0 a1 a2 s = .next t) : Same 139915016744954 s t := by
  unfold execDroverTransferDone at h
  injection h with h
  refine Same.of_eq h ?_
  clear h
  refine Same.seq ?_ (droverDoneEff_same ..) (by decide)
  exact Same.refl _ _

theorem execProgramLoad_same (a0 : HostId) (a1 : ClusterId) (a2 : PartId) (a3 : Bool) (a4 : Seen) (s : State) {t : State} (h : execProgramLoad a0 a1 a2 a3 a4 s = .next t) : Same 139915451965498 s t := by
  unfold execProgramLoad at h
  injection h with h
  refine Same.of_eq h ?_
  clear h
  refine Same.trans ?_ (hostWrite_same (hk := by decide) (ha := ?_) ..)
  · exact Same.refl _ _
  · intro x1
    refine Same.seq ?_ (pldCmdEff_same ..) (by decide)
    exact Same.refl _ _

theorem execProgramUnload_same (a0 : HostId) (a1 : ClusterId) (a2 : PartId) (s : State) {t : State} (h : execProgramUnload a0 a1 a2 s = .next t) : Same 139915451965498 s t := by
  unfold execProgramUnload at h
  injection h with h
  refine Same.of_eq h ?_
  clear h
  refine Same.trans ?_ (hostWrite_same (hk := by decide) (ha := ?_) ..)
  · exact Same.refl _ _
  · intro x1
    refine Same.seq ?_ (pldCmdEff_same ..) (by decide)
    exact Same.refl _ _

theorem execConvProfileWrite_same (a0 : HostId) (a1 : ClusterId) (a2 : Fin 256) (a3 : Fin 4) (a4 : Word) (s : State) {t : State} (h : execConvProfileWrite a0 a1 a2 a3 a4 s = .next t) : Same 41781441855546 s t := by
  unfold execConvProfileWrite at h
  injection h with h
  refine Same.of_eq h ?_
  clear h
  refine Same.trans ?_ (hostWrite_same (hk := by decide) (ha := ?_) ..)
  · exact Same.refl _ _
  · intro x1
    refine Same.seq ?_ (convWriteEff_same ..) (by decide)
    exact Same.refl _ _

theorem reductionReadEff_same (a0 : Nat) (a1 : Seen) (s : State) : Same 69273552683066 s (reductionReadEff a0 a1 s) := by
  unfold reductionReadEff
  extract_lets +onlyGivenNames -merge -useContext x1
  have h1 : Same 69273552683066 s x1 := by
    unfold x1
    refine Same.seq ?_ (countSpillWaits_same ..) (by decide)
    refine Same.seq ?_ (see_same ..) (by decide)
    exact Same.refl _ _
  clear_value x1
  extract_lets +onlyGivenNames -merge -useContext x2
  clear_value x2
  refine Same.ite ?_ ?_
  · assumption
  · split
    · rename_i v3 v4
      assumption
    · rename_i v5 v6 v7
      split
      · rename_i v8 v9
        assumption
      · rename_i v10 v11 v12
        refine Same.seq ?_ (redTake_same ..) (by decide)
        refine Same.seq ?_ (setCluster_same ..) (by decide)
        assumption

theorem execReductionRead_same (a0 : ClusterId) (a1 : Seen) (s : State) {t : State} (h : execReductionRead a0 a1 s = .next t) : Same 69273552683066 s t := by
  unfold execReductionRead at h
  injection h with h
  refine Same.of_eq h ?_
  clear h
  refine Same.seq ?_ (reductionReadEff_same ..) (by decide)
  exact Same.refl _ _

theorem segmentCompleteEff_same (a0 : Nat) (s : State) : Same 60477459660858 s (segmentCompleteEff a0 s) := by
  unfold segmentCompleteEff
  split
  · rename_i v1 v2
    exact Same.refl _ _
  · rename_i v3 v4 v5
    refine Same.seq ?_ (redWrites_same ..) (by decide)
    exact Same.refl _ _

theorem execSegmentComplete_same (a0 : ClusterId) (s : State) {t : State} (h : execSegmentComplete a0 s = .next t) : Same 60477459660858 s t := by
  unfold execSegmentComplete at h
  injection h with h
  refine Same.of_eq h ?_
  clear h
  refine Same.seq ?_ (segmentCompleteEff_same ..) (by decide)
  exact Same.refl _ _

theorem stageDeliveryEff_same (a0 : Nat) (a1 : Bool) (s : State) : Same 60750178560506 s (stageDeliveryEff a0 a1 s) := by
  unfold stageDeliveryEff
  split
  · rename_i v1 v2
    exact Same.refl _ _
  · rename_i v3 v4 v5
    split
    · rename_i v6 v7
      exact Same.refl _ _
    · rename_i v8 v9 v10
      refine Same.ite ?_ ?_
      · exact Same.refl _ _
      · extract_lets +onlyGivenNames -merge -useContext x11
        have h11 : Same 60750178560506 s x11 := by
          unfold x11
          refine Same.seq ?_ (frameGone_same ..) (by decide)
          constructor <;> intro hb <;> first | rfl | exact absurd hb (by decide)
        clear_value x11
        extract_lets +onlyGivenNames -merge -useContext x12
        clear_value x12
        refine Same.ite ?_ ?_
        · refine Same.seq ?_ (stageDrop_same ..) (by decide)
          assumption
        · split
          · rename_i v13 v14
            refine Same.seq ?_ (stageDrop_same ..) (by decide)
            assumption
          · rename_i v15 v16 v17
            extract_lets +onlyGivenNames -merge -useContext x18
            clear_value x18
            extract_lets +onlyGivenNames -merge -useContext x19
            clear_value x19
            extract_lets +onlyGivenNames -merge -useContext x20
            clear_value x20
            extract_lets +onlyGivenNames -merge -useContext x21
            clear_value x21
            extract_lets +onlyGivenNames -merge -useContext x22
            have h22 : Same 60750178560506 s x22 := by
              unfold x22
              refine Same.seq ?_ (spadWrite_same ..) (by decide)
              refine Same.seq ?_ (spadWrite_same ..) (by decide)
              assumption
            clear_value x22
            extract_lets +onlyGivenNames -merge -useContext x23
            clear_value x23
            extract_lets +onlyGivenNames -merge -useContext x24
            clear_value x24
            extract_lets +onlyGivenNames -merge -useContext x25
            have h25 : Same 60750178560506 s x25 := by
              unfold x25
              refine Same.seq ?_ (pushEvent_same ..) (by decide)
              assumption
            clear_value x25
            extract_lets +onlyGivenNames -merge -useContext x26
            have h26 : Same 60750178560506 s x26 := by
              unfold x26
              refine Same.seq ?_ (modCore_same ..) (by decide)
              assumption
            clear_value x26
            extract_lets +onlyGivenNames -merge -useContext x27
            have h27 : Same 60750178560506 s x27 := by
              unfold x27
              refine Same.ite ?_ ?_
              · refine Same.seq ?_ (stageBad_same ..) (by decide)
                assumption
              · assumption
            clear_value x27
            refine Same.seq ?_ (flowDone_same ..) (by decide)
            assumption

theorem execStageFrameDelivery_same (a0 : CoreId) (a1 : Bool) (s : State) {t : State} (h : execStageFrameDelivery a0 a1 s = .next t) : Same 60750178560506 s t := by
  unfold execStageFrameDelivery at h
  injection h with h
  refine Same.of_eq h ?_
  clear h
  refine Same.seq ?_ (stageDeliveryEff_same ..) (by decide)
  exact Same.refl _ _

theorem frameVerdictEff_same (a0 : Nat) (s : State) : Same 60750178558458 s (frameVerdictEff a0 s) := by
  unfold frameVerdictEff
  extract_lets +onlyGivenNames -merge -useContext x1
  clear_value x1
  split
  · rename_i v2 v3
    exact Same.refl _ _
  · rename_i v4 v5 v6 v7
    extract_lets +onlyGivenNames -merge -useContext x8
    have h8 : Same 60750178558458 s x8 := by
      unfold x8
      refine Same.seq ?_ (spadWrite_same ..) (by decide)
      refine Same.seq ?_ (setCore_same ..) (by decide)
      exact Same.refl _ _
    clear_value x8
    refine Same.ite ?_ ?_
    · assumption
    · refine Same.seq ?_ (stageBad_same ..) (by decide)
      assumption

theorem execFrameVerdict_same (a0 : CoreId) (s : State) {t : State} (h : execFrameVerdict a0 s = .next t) : Same 60750178558458 s t := by
  unfold execFrameVerdict at h
  injection h with h
  refine Same.of_eq h ?_
  clear h
  refine Same.seq ?_ (frameVerdictEff_same ..) (by decide)
  exact Same.refl _ _

theorem execShift_same (a0 : BitVec 20) (a1 : Seen) (s : State) {t : State} (h : execShift a0 a1 s = .next t) : Same 139740012834810 s t := by
  unfold execShift at h
  injection h with h
  refine Same.of_eq h ?_
  clear h
  refine Same.seq ?_ (collStartEff_same ..) (by decide)
  exact Same.refl _ _

theorem execPermute_same (a0 : BitVec 20) (a1 : Seen) (s : State) {t : State} (h : execPermute a0 a1 s = .next t) : Same 139740012834810 s t := by
  unfold execPermute at h
  injection h with h
  refine Same.of_eq h ?_
  clear h
  refine Same.seq ?_ (collStartEff_same ..) (by decide)
  exact Same.refl _ _

theorem execReduce_same (a0 : BitVec 20) (a1 : List Nat) (a2 : Seen) (s : State) {t : State} (h : execReduce a0 a1 a2 s = .next t) : Same 139740012834810 s t := by
  unfold execReduce at h
  injection h with h
  refine Same.of_eq h ?_
  clear h
  refine Same.seq ?_ (collStartEff_same ..) (by decide)
  exact Same.refl _ _

theorem execReduceScatter_same (a0 : BitVec 20) (a1 : List Nat) (a2 : Seen) (s : State) {t : State} (h : execReduceScatter a0 a1 a2 s = .next t) : Same 139740012834810 s t := by
  unfold execReduceScatter at h
  injection h with h
  refine Same.of_eq h ?_
  clear h
  refine Same.seq ?_ (collStartEff_same ..) (by decide)
  exact Same.refl _ _

theorem execAllReduce_same (a0 : BitVec 20) (a1 : List Nat) (a2 : Seen) (s : State) {t : State} (h : execAllReduce a0 a1 a2 s = .next t) : Same 139740012834810 s t := by
  unfold execAllReduce at h
  injection h with h
  refine Same.of_eq h ?_
  clear h
  refine Same.seq ?_ (collStartEff_same ..) (by decide)
  exact Same.refl _ _

theorem execBarrier_same (a0 : BitVec 20) (a1 : Seen) (s : State) {t : State} (h : execBarrier a0 a1 s = .next t) : Same 139740012834810 s t := by
  unfold execBarrier at h
  injection h with h
  refine Same.of_eq h ?_
  clear h
  refine Same.seq ?_ (collStartEff_same ..) (by decide)
  exact Same.refl _ _

theorem execBarrierSetup_same (a0 : BitVec 20) (a1 : Seen) (s : State) {t : State} (h : execBarrierSetup a0 a1 s = .next t) : Same 139740012834810 s t := by
  unfold execBarrierSetup at h
  injection h with h
  refine Same.of_eq h ?_
  clear h
  refine Same.seq ?_ (collStartEff_same ..) (by decide)
  exact Same.refl _ _

theorem execChunkSignal_same (a0 : Nat) (a1 : Fin 1024) (a2 : List Nat) (a3 : Seen) (s : State) {t : State} (h : execChunkSignal a0 a1 a2 a3 s = .next t) : Same 139722832965626 s t := by
  unfold execChunkSignal at h
  injection h with h
  refine Same.of_eq h ?_
  clear h
  refine Same.seq ?_ (chunkSignalEff_same ..) (by decide)
  exact Same.refl _ _

theorem execCollectiveComplete_same (a0 : Nat) (s : State) {t : State} (h : execCollectiveComplete a0 s = .next t) : Same 60480669360186 s t := by
  unfold execCollectiveComplete at h
  injection h with h
  refine Same.of_eq h ?_
  clear h
  refine Same.seq ?_ (collCompleteEff_same ..) (by decide)
  exact Same.refl _ _

theorem execCollectiveFail_same (a0 : Nat) (s : State) {t : State} (h : execCollectiveFail a0 s = .next t) : Same 130926739943418 s t := by
  unfold execCollectiveFail at h
  injection h with h
  refine Same.of_eq h ?_
  clear h
  refine Same.seq ?_ (collFailEff_same ..) (by decide)
  exact Same.refl _ _

theorem execBarrierTimeout_same (a0 : Fin 16) (s : State) {t : State} (h : execBarrierTimeout a0 s = .next t) : Same 60493554262074 s t := by
  unfold execBarrierTimeout at h
  injection h with h
  refine Same.of_eq h ?_
  clear h
  refine Same.seq ?_ (barTimeoutEff_same ..) (by decide)
  exact Same.refl _ _

theorem execBarrierWithdrawal_same (a0 : Fin 16) (a1 : Word) (s : State) {t : State} (h : execBarrierWithdrawal a0 a1 s = .next t) : Same 60493554262074 s t := by
  unfold execBarrierWithdrawal at h
  injection h with h
  refine Same.of_eq h ?_
  clear h
  refine Same.seq ?_ (barWithdrawalEff_same ..) (by decide)
  exact Same.refl _ _

theorem execExactWrite_same (a0 : HostId) (a1 : Word) (s : State) {t : State} (h : execExactWrite a0 a1 s = .next t) : Same 41815801593914 s t := by
  unfold execExactWrite at h
  injection h with h
  refine Same.of_eq h ?_
  clear h
  refine Same.trans ?_ (hostWrite_same (hk := by decide) (ha := ?_) ..)
  · exact Same.refl _ _
  · intro x1
    refine Same.seq ?_ (exactEff_same ..) (by decide)
    exact Same.refl _ _

theorem execDetDigestDone_same (s : State) {t : State} (h : execDetDigestDone s = .next t) : Same 34359738370 s t := by
  unfold execDetDigestDone at h
  injection h with h
  refine Same.of_eq h ?_
  clear h
  refine Same.seq ?_ (detDoneEff_same ..) (by decide)
  exact Same.refl _ _

theorem tinkerEff_same (a0 : Nat) (a1 : Nat) (a2 : Nat) (a3 : Nat) (a4 : Bool) (s : State) : Same 131187642724346 s (tinkerEff a0 a1 a2 a3 a4 s) := by
  unfold tinkerEff
  refine Same.ite ?_ ?_
  · exact Same.refl _ _
  · split
    · rename_i v1 v2 v3 v4
      extract_lets +onlyGivenNames -merge -useContext x5
      have h5 : Same 131187642724346 s x5 := by
        unfold x5
        refine Same.seq ?_ (count_same ..) (by decide)
        refine Same.seq ?_ (count_same ..) (by decide)
        exact Same.refl _ _
      clear_value x5
      extract_lets +onlyGivenNames -merge -useContext x6
      clear_value x6
      extract_lets +onlyGivenNames -merge -useContext x7
      have h7 : Same 131187642724346 s x7 := by
        unfold x7
        refine Same.seq ?_ (setTinker_same ..) (by decide)
        assumption
      clear_value x7
      extract_lets +onlyGivenNames -merge -useContext x8
      have h8 : Same 131187642724346 s x8 := by
        unfold x8
        refine Same.ite ?_ ?_
        · refine Same.seq ?_ (tinkerFail_same ..) (by decide)
          assumption
        · assumption
      clear_value x8
      refine Same.ite ?_ ?_
      · refine Same.seq ?_ (tinkerPass_same ..) (by decide)
        assumption
      · assumption

theorem execTinkerBlockTest_same (a0 : Fin 68) (a1 : Fin 12288) (a2 : Fin 513) (a3 : Fin 513) (a4 : Bool) (s : State) {t : State} (h : execTinkerBlockTest a0 a1 a2 a3 a4 s = .next t) : Same 131187642724346 s t := by
  unfold execTinkerBlockTest at h
  injection h with h
  refine Same.of_eq h ?_
  clear h
  refine Same.seq ?_ (tinkerEff_same ..) (by decide)
  exact Same.refl _ _

theorem execDdrAlert_same (a0 : Fin 16) (a1 : Fin 4) (a2 : Bool) (s : State) {t : State} (h : execDdrAlert a0 a1 a2 s = .next t) : Same 131187642691578 s t := by
  unfold execDdrAlert at h
  injection h with h
  refine Same.of_eq h ?_
  clear h
  refine Same.seq ?_ (alertEff_same ..) (by decide)
  exact Same.refl _ _

theorem scrubEff_same (a0 : Nat) (a1 : ScrubFind) (a2 : Nat) (s : State) : Same 42949672960058 s (scrubEff a0 a1 a2 s) := by
  unfold scrubEff
  refine Same.ite ?_ ?_
  · exact Same.refl _ _
  · extract_lets +onlyGivenNames -merge -useContext x1
    clear_value x1
    extract_lets +onlyGivenNames -merge -useContext x2
    clear_value x2
    extract_lets +onlyGivenNames -merge -useContext x3
    clear_value x3
    extract_lets +onlyGivenNames -merge -useContext x4
    clear_value x4
    extract_lets +onlyGivenNames -merge -useContext x5
    clear_value x5
    extract_lets +onlyGivenNames -merge -useContext x6
    have h6 : Same 42949672960058 s x6 := by
      unfold x6
      split
      · rename_i v7
        exact Same.refl _ _
      · rename_i v8 v9
        refine Same.seq ?_ (corrected_same ..) (by decide)
        exact Same.refl _ _
      · rename_i v10
        split
        · rename_i v11 v12
          refine Same.seq ?_ (reportUe_same ..) (by decide)
          constructor <;> intro hb <;> first | rfl | exact absurd hb (by decide)
        · rename_i v13
          exact Same.refl _ _
    clear_value x6
    refine Same.seq ?_ (scrubNext_same ..) (by decide)
    assumption

theorem execScrubLine_same (a0 : Fin 16) (a1 : ScrubFind) (a2 : Word) (s : State) {t : State} (h : execScrubLine a0 a1 a2 s = .next t) : Same 42949672960058 s t := by
  unfold execScrubLine at h
  injection h with h
  refine Same.of_eq h ?_
  clear h
  refine Same.seq ?_ (scrubEff_same ..) (by decide)
  exact Same.refl _ _

theorem refreshEff_same (a0 : Nat) (s : State) : Same 0 s (refreshEff a0 s) := by
  unfold refreshEff
  exact Same.refl _ _

theorem execDdrRefresh_same (a0 : Fin 16) (s : State) {t : State} (h : execDdrRefresh a0 s = .next t) : Same 0 s t := by
  unfold execDdrRefresh at h
  injection h with h
  refine Same.of_eq h ?_
  clear h
  refine Same.seq ?_ (refreshEff_same ..) (by decide)
  exact Same.refl _ _

theorem execRegionWrite_same (a0 : HostId) (a1 : Fin 512) (a2 : Fin 4) (a3 : Word) (s : State) {t : State} (h : execRegionWrite a0 a1 a2 a3 s = .next t) : Same 41781441855546 s t := by
  unfold execRegionWrite at h
  injection h with h
  refine Same.of_eq h ?_
  clear h
  refine Same.trans ?_ (hostWrite_same (hk := by decide) (ha := ?_) ..)
  · exact Same.refl _ _
  · intro x1
    refine Same.seq ?_ (regionEff_same ..) (by decide)
    exact Same.refl _ _

theorem zeroFillEff_same (a0 : Nat) (s : State) : Same 131187642688570 s (zeroFillEff a0 s) := by
  unfold zeroFillEff
  refine Same.ite ?_ ?_
  · exact Same.refl _ _
  · extract_lets +onlyGivenNames -merge -useContext x1
    clear_value x1
    extract_lets +onlyGivenNames -merge -useContext x2
    have h2 : Same 131187642688570 s x2 := by
      unfold x2
      constructor <;> intro hb <;> first | rfl | exact absurd hb (by decide)
    clear_value x2
    refine Same.seq ?_ (writeReady_same ..) (by decide)
    refine Same.seq ?_ (drainCqs_same ..) (by decide)
    refine Same.seq ?_ (put_same ..) (by decide)
    assumption

theorem execZeroFillDone_same (a0 : Fin 512) (s : State) {t : State} (h : execZeroFillDone a0 s = .next t) : Same 131187642688570 s t := by
  unfold execZeroFillDone at h
  injection h with h
  refine Same.of_eq h ?_
  clear h
  refine Same.seq ?_ (zeroFillEff_same ..) (by decide)
  exact Same.refl _ _

theorem execMemRspillWrite_same (a0 : HostId) (a1 : Fin 3) (a2 : Word) (s : State) {t : State} (h : execMemRspillWrite a0 a1 a2 s = .next t) : Same 41781441855546 s t := by
  unfold execMemRspillWrite at h
  injection h with h
  refine Same.of_eq h ?_
  clear h
  refine Same.trans ?_ (hostWrite_same (hk := by decide) (ha := ?_) ..)
  · exact Same.refl _ _
  · intro x1
    refine Same.seq ?_ (rspillEff_same ..) (by decide)
    exact Same.refl _ _

theorem execMemImgWrite_same (a0 : HostId) (a1 : Fin 3) (a2 : Word) (s : State) {t : State} (h : execMemImgWrite a0 a1 a2 s = .next t) : Same 41781441855546 s t := by
  unfold execMemImgWrite at h
  injection h with h
  refine Same.of_eq h ?_
  clear h
  refine Same.trans ?_ (hostWrite_same (hk := by decide) (ha := ?_) ..)
  · exact Same.refl _ _
  · intro x1
    refine Same.seq ?_ (imgStoreEff_same ..) (by decide)
    exact Same.refl _ _

theorem execNonce_same (a0 : HostId) (s : State) {t : State} (h : execNonce a0 s = .next t) : Same 1125899906842622 s t := by
  unfold execNonce at h
  injection h with h
  refine Same.of_eq h ?_
  clear h
  refine Same.trans ?_ (hostWrite_same (hk := by decide) (ha := ?_) ..)
  · exact Same.refl _ _
  · intro x1
    refine Same.seq ?_ (mbCmdEff_same ..) (by decide)
    exact Same.refl _ _

theorem execNonceExpiry_same (s : State) {t : State} (h : execNonceExpiry s = .next t) : Same 268435456 s t := by
  unfold execNonceExpiry at h
  injection h with h
  refine Same.of_eq h ?_
  clear h
  refine Same.seq ?_ (dropNonce_same ..) (by decide)
  exact Same.refl _ _

theorem execDbgUnlock_same (a0 : HostId) (a1 : BitVec 8) (a2 : Seen) (s : State) {t : State} (h : execDbgUnlock a0 a1 a2 s = .next t) : Same 1125899906842622 s t := by
  unfold execDbgUnlock at h
  injection h with h
  refine Same.of_eq h ?_
  clear h
  refine Same.trans ?_ (hostWrite_same (hk := by decide) (ha := ?_) ..)
  · exact Same.refl _ _
  · intro x1
    refine Same.seq ?_ (mbCmdEff_same ..) (by decide)
    exact Same.refl _ _

theorem execEvictionDone_same (s : State) {t : State} (h : execEvictionDone s = .next t) : Same 124245090788402 s t := by
  unfold execEvictionDone at h
  injection h with h
  refine Same.of_eq h ?_
  clear h
  refine Same.seq ?_ (evictionDoneEff_same ..) (by decide)
  exact Same.refl _ _

theorem execDbgLower_same (a0 : HostId) (a1 : BitVec 2) (s : State) {t : State} (h : execDbgLower a0 a1 s = .next t) : Same 41781710291002 s t := by
  unfold execDbgLower at h
  injection h with h
  refine Same.of_eq h ?_
  clear h
  refine Same.trans ?_ (hostWrite_same (hk := by decide) (ha := ?_) ..)
  · exact Same.refl _ _
  · intro x1
    refine Same.seq ?_ (dbgWriteEff_same ..) (by decide)
    exact Same.refl _ _

theorem execLcAdvance_same (a0 : HostId) (a1 : BitVec 8) (a2 : Seen) (a3 : Bool) (s : State) {t : State} (h : execLcAdvance a0 a1 a2 a3 s = .next t) : Same 1125899906842622 s t := by
  unfold execLcAdvance at h
  injection h with h
  refine Same.of_eq h ?_
  clear h
  refine Same.trans ?_ (hostWrite_same (hk := by decide) (ha := ?_) ..)
  · exact Same.refl _ _
  · intro x1
    refine Same.seq ?_ (mbCmdEff_same ..) (by decide)
    exact Same.refl _ _

theorem execAttest_same (a0 : HostId) (a1 : BitVec 8) (a2 : Seen) (s : State) {t : State} (h : execAttest a0 a1 a2 s = .next t) : Same 1125899906842622 s t := by
  unfold execAttest at h
  injection h with h
  refine Same.of_eq h ?_
  clear h
  refine Same.trans ?_ (hostWrite_same (hk := by decide) (ha := ?_) ..)
  · exact Same.refl _ _
  · intro x1
    refine Same.seq ?_ (mbCmdEff_same ..) (by decide)
    exact Same.refl _ _

theorem execIdentity_same (a0 : HostId) (s : State) {t : State} (h : execIdentity a0 s = .next t) : Same 1125899906842622 s t := by
  unfold execIdentity at h
  injection h with h
  refine Same.of_eq h ?_
  clear h
  refine Same.trans ?_ (hostWrite_same (hk := by decide) (ha := ?_) ..)
  · exact Same.refl _ _
  · intro x1
    refine Same.seq ?_ (mbCmdEff_same ..) (by decide)
    exact Same.refl _ _

theorem execExtend_same (a0 : HostId) (a1 : BitVec 8) (a2 : Seen) (s : State) {t : State} (h : execExtend a0 a1 a2 s = .next t) : Same 1125899906842622 s t := by
  unfold execExtend at h
  injection h with h
  refine Same.of_eq h ?_
  clear h
  refine Same.trans ?_ (hostWrite_same (hk := by decide) (ha := ?_) ..)
  · exact Same.refl _ _
  · intro x1
    refine Same.seq ?_ (mbCmdEff_same ..) (by decide)
    exact Same.refl _ _

theorem execFuseKey_same (a0 : HostId) (a1 : BitVec 8) (a2 : Seen) (s : State) {t : State} (h : execFuseKey a0 a1 a2 s = .next t) : Same 1125899906842622 s t := by
  unfold execFuseKey at h
  injection h with h
  refine Same.of_eq h ?_
  clear h
  refine Same.trans ?_ (hostWrite_same (hk := by decide) (ha := ?_) ..)
  · exact Same.refl _ _
  · intro x1
    refine Same.seq ?_ (mbCmdEff_same ..) (by decide)
    exact Same.refl _ _

theorem mctpEff_same (a0 : Mctp) (s : State) : Same 880708813848574 s (mctpEff a0 s) := by
  unfold mctpEff
  refine Same.ite ?_ ?_
  · exact Same.refl _ _
  · split
    · rename_i v1 v2 v3
      refine Same.ite ?_ ?_
      · exact Same.refl _ _
      · refine Same.seq ?_ (emit_same ..) (by decide)
        exact Same.refl _ _
    · rename_i v4 v5
      refine Same.seq ?_ (emit_same ..) (by decide)
      exact Same.refl _ _
    · rename_i v6
      refine Same.seq ?_ (emit_same ..) (by decide)
      exact Same.refl _ _
    · rename_i v7
      refine Same.seq ?_ (emit_same ..) (by decide)
      exact Same.refl _ _
    · rename_i v8 v9
      refine Same.seq ?_ (setIde_same ..) (by decide)
      exact Same.refl _ _
    · rename_i v10 v11
      refine Same.seq ?_ (warmReset_same ..) (by decide)
      exact Same.refl _ _

theorem execMctpRequest_same (a0 : Mctp) (s : State) {t : State} (h : execMctpRequest a0 s = .next t) : Same 880708813848574 s t := by
  unfold execMctpRequest at h
  injection h with h
  refine Same.of_eq h ?_
  clear h
  refine Same.seq ?_ (mctpEff_same ..) (by decide)
  exact Same.refl _ _

theorem execAlarm_same (a0 : BitVec 5) (s : State) {t : State} (h : execAlarm a0 s = .next t) : Same 131726512219898 s t := by
  unfold execAlarm at h
  injection h with h
  refine Same.of_eq h ?_
  clear h
  refine Same.seq ?_ (alarm_same ..) (by decide)
  exact Same.refl _ _

theorem execKeyLoad_same (a0 : HostId) (a1 : BitVec 12) (a2 : Seen) (s : State) {t : State} (h : execKeyLoad a0 a1 a2 s = .next t) : Same 120946547490874 s t := by
  unfold execKeyLoad at h
  injection h with h
  refine Same.of_eq h ?_
  clear h
  refine Same.trans ?_ (hostWrite_same (hk := by decide) (ha := ?_) ..)
  · exact Same.refl _ _
  · intro x1
    refine Same.seq ?_ (keyCmdEff_same ..) (by decide)
    exact Same.refl _ _

theorem execKeyErase_same (a0 : HostId) (a1 : BitVec 12) (s : State) {t : State} (h : execKeyErase a0 a1 s = .next t) : Same 120946547490874 s t := by
  unfold execKeyErase at h
  injection h with h
  refine Same.of_eq h ?_
  clear h
  refine Same.trans ?_ (hostWrite_same (hk := by decide) (ha := ?_) ..)
  · exact Same.refl _ _
  · intro x1
    refine Same.seq ?_ (keyCmdEff_same ..) (by decide)
    exact Same.refl _ _

theorem ideKmEff_same (a0 : HostId) (a1 : IdeKm) (s : State) : Same 35184640524290 s (ideKmEff a0 a1 s) := by
  unfold ideKmEff
  extract_lets +onlyGivenNames -merge -useContext x1
  clear_value x1
  refine Same.ite ?_ ?_
  · exact Same.refl _ _
  · refine Same.ite ?_ ?_
    · refine Same.seq ?_ (emit_same ..) (by decide)
      exact Same.refl _ _
    · split
      · rename_i v2
        refine Same.seq ?_ (emit_same ..) (by decide)
        exact Same.refl _ _
      · rename_i v3 v4
        refine Same.seq ?_ (emit_same ..) (by decide)
        refine Same.seq ?_ (setIde_same ..) (by decide)
        exact Same.refl _ _
      · rename_i v5 v6
        refine Same.ite ?_ ?_
        · refine Same.seq ?_ (emit_same ..) (by decide)
          refine Same.seq ?_ (setSecure_same ..) (by decide)
          exact Same.refl _ _
        · refine Same.seq ?_ (emit_same ..) (by decide)
          exact Same.refl _ _
      · rename_i v7 v8
        refine Same.seq ?_ (emit_same ..) (by decide)
        refine Same.seq ?_ (setSecure_same ..) (by decide)
        refine Same.seq ?_ (setIde_same ..) (by decide)
        exact Same.refl _ _

theorem execIdeKmMessage_same (a0 : HostId) (a1 : IdeKm) (s : State) {t : State} (h : execIdeKmMessage a0 a1 s = .next t) : Same 35184640524290 s t := by
  unfold execIdeKmMessage at h
  injection h with h
  refine Same.of_eq h ?_
  clear h
  refine Same.seq ?_ (ideKmEff_same ..) (by decide)
  exact Same.refl _ _

theorem windowEndEff_same (a0 : List Nat) (s : State) : Same 42056319762618 s (windowEndEff a0 s) := by
  unfold windowEndEff
  refine Same.ite ?_ ?_
  · exact Same.refl _ _
  · extract_lets +onlyGivenNames -merge -useContext x1
    have h1 : Same 42056319762618 s x1 := by
      unfold x1
      refine Same.seq ?_ (energyShown_same ..) (by decide)
      exact Same.refl _ _
    clear_value x1
    refine Same.ite ?_ ?_
    · assumption
    · refine Same.seq ?_ (plan_same ..) (by decide)
      assumption

theorem execTallyWindowEnd_same (a0 : List Nat) (s : State) {t : State} (h : execTallyWindowEnd a0 s = .next t) : Same 42056319762618 s t := by
  unfold execTallyWindowEnd at h
  injection h with h
  refine Same.of_eq h ?_
  clear h
  refine Same.seq ?_ (windowEndEff_same ..) (by decide)
  exact Same.refl _ _

theorem execTallyBudgetWrite_same (a0 : HostId) (a1 : Word) (s : State) {t : State} (h : execTallyBudgetWrite a0 a1 s = .next t) : Same 41781441855546 s t := by
  unfold execTallyBudgetWrite at h
  injection h with h
  refine Same.of_eq h ?_
  clear h
  refine Same.trans ?_ (hostWrite_same (hk := by decide) (ha := ?_) ..)
  · exact Same.refl _ _
  · intro x1
    refine Same.seq ?_ (budgetEff_same ..) (by decide)
    exact Same.refl _ _

theorem ungatedEff_same (a0 : Nat) (s : State) : Same 2 s (ungatedEff a0 s) := by
  unfold ungatedEff
  refine Same.seq ?_ (ungate_same ..) (by decide)
  exact Same.refl _ _

theorem execClusterUngated_same (a0 : ClusterId) (s : State) {t : State} (h : execClusterUngated a0 s = .next t) : Same 2 s t := by
  unfold execClusterUngated at h
  injection h with h
  refine Same.of_eq h ?_
  clear h
  refine Same.seq ?_ (ungatedEff_same ..) (by decide)
  exact Same.refl _ _

theorem powerCapEff_same (s : State) : Same 42331197669434 s (powerCapEff s) := by
  unfold powerCapEff
  refine Same.ite ?_ ?_
  · exact Same.refl _ _
  · extract_lets +onlyGivenNames -merge -useContext x1
    clear_value x1
    extract_lets +onlyGivenNames -merge -useContext x2
    have h2 : Same 42331197669434 s x2 := by
      unfold x2
      constructor <;> intro hb <;> first | rfl | exact absurd hb (by decide)
    clear_value x2
    refine Same.ite ?_ ?_
    · assumption
    · refine Same.seq ?_ (count_same ..) (by decide)
      refine Same.seq ?_ (event_same ..) (by decide)
      refine Same.seq ?_ (put_same ..) (by decide)
      assumption

theorem execPowerCap_same (s : State) {t : State} (h : execPowerCap s = .next t) : Same 42331197669434 s t := by
  unfold execPowerCap at h
  injection h with h
  refine Same.of_eq h ?_
  clear h
  refine Same.seq ?_ (powerCapEff_same ..) (by decide)
  exact Same.refl _ _

theorem graceEff_same (s : State) : Same 130912798076922 s (graceEff s) := by
  unfold graceEff
  refine Same.ite ?_ ?_
  · exact Same.refl _ _
  · extract_lets +onlyGivenNames -merge -useContext x1
    have h1 : Same 130912798076922 s x1 := by
      unfold x1
      refine Same.seq ?_ (put_same ..) (by decide)
      exact Same.refl _ _
    clear_value x1
    extract_lets +onlyGivenNames -merge -useContext x2
    clear_value x2
    extract_lets +onlyGivenNames -merge -useContext x3
    have h3 : Same 130912798076922 s x3 := by
      unfold x3
      refine Same.foldl _ _ _ ?_ ?_
      · intro x4 a4 h4
        refine Same.seq ?_ (partEvent_same ..) (by decide)
        refine Same.seq ?_ (showSched_same ..) (by decide)
        refine Same.seq ?_ (suspend_same ..) (by decide)
        assumption
      · assumption
    clear_value x3
    refine Same.foldl _ _ _ ?_ ?_
    · intro x5 a5 h5
      refine Same.seq ?_ (dropPending_same ..) (by decide)
      assumption
    · assumption

theorem execCapGraceExpiry_same (s : State) {t : State} (h : execCapGraceExpiry s = .next t) : Same 130912798076922 s t := by
  unfold execCapGraceExpiry at h
  injection h with h
  refine Same.of_eq h ?_
  clear h
  refine Same.seq ?_ (graceEff_same ..) (by decide)
  exact Same.refl _ _

theorem execPowerCapRelease_same (s : State) {t : State} (h : execPowerCapRelease s = .next t) : Same 549755813890 s t := by
  unfold execPowerCapRelease at h
  injection h with h
  refine Same.of_eq h ?_
  clear h
  refine Same.seq ?_ (capReleaseEff_same ..) (by decide)
  exact Same.refl _ _

theorem execStandby_same (a0 : HostId) (s : State) {t : State} (h : execStandby a0 s = .next t) : Same 281305708756990 s t := by
  unfold execStandby at h
  injection h with h
  refine Same.of_eq h ?_
  clear h
  refine Same.trans ?_ (hostWrite_same (hk := by decide) (ha := ?_) ..)
  · exact Same.refl _ _
  · intro x1
    refine Same.seq ?_ (psCtlEff_same ..) (by decide)
    exact Same.refl _ _

theorem execWake_same (a0 : HostId) (a1 : Seen) (a2 : Training) (a3 : Tests) (s : State) {t : State} (h : execWake a0 a1 a2 a3 s = .next t) : Same 281305708756990 s t := by
  unfold execWake at h
  injection h with h
  refine Same.of_eq h ?_
  clear h
  refine Same.trans ?_ (hostWrite_same (hk := by decide) (ha := ?_) ..)
  · exact Same.refl _ _
  · intro x1
    refine Same.seq ?_ (psCtlEff_same ..) (by decide)
    exact Same.refl _ _

theorem powerLossEff_same (s : State) : Same 864216139431934 s (powerLossEff s) := by
  unfold powerLossEff
  constructor <;> intro hb <;> first | rfl | exact absurd hb (by decide)

theorem powerOnEff_same (a0 : Straps) (a1 : Option Burned) (a2 : Bool) (a3 : Bool) (s : State) : Same 1004953627787262 s (powerOnEff a0 a1 a2 a3 s) := by
  unfold powerOnEff
  refine Same.ite ?_ ?_
  · exact Same.refl _ _
  · extract_lets +onlyGivenNames -merge -useContext x1
    extract_lets +onlyGivenNames -merge -useContext x2
    have h2 : Same 1004953627787262 s x2 := by
      unfold x2
      refine Same.seq ?_ (powerLossEff_same ..) (by decide)
      exact Same.refl _ _
    clear_value x2
    extract_lets +onlyGivenNames -merge -useContext x3
    have h3 : Same 1004953627787262 s x3 := by
      unfold x3
      refine Same.trans h2 ?_
      constructor <;> intro hb <;> first | rfl | exact absurd hb (by decide)
    clear_value x3
    extract_lets +onlyGivenNames -merge -useContext x4
    clear_value x4
    extract_lets +onlyGivenNames -merge -useContext x5
    have h5 : Same 1004953627787262 s x5 := by
      unfold x5
      refine Same.trans h3 ?_
      constructor <;> intro hb <;> first | rfl | exact absurd hb (by decide)
    clear_value x5
    extract_lets +onlyGivenNames -merge -useContext x6
    have h6 : Same 1004953627787262 s x6 := by
      unfold x6
      refine Same.seq ?_ (put_same ..) (by decide)
      refine Same.seq ?_ (put_same ..) (by decide)
      refine Same.seq ?_ (put_same ..) (by decide)
      assumption
    clear_value x6
    extract_lets +onlyGivenNames -merge -useContext x7
    have h7 : Same 1004953627787262 s x7 := by
      unfold x7
      refine Same.seq ?_ (put_same ..) (by decide)
      refine Same.seq ?_ (put_same ..) (by decide)
      assumption
    clear_value x7
    extract_lets +onlyGivenNames -merge -useContext x8
    have h8 : Same 1004953627787262 s x8 := by
      unfold x8
      refine Same.seq ?_ (put_same ..) (by decide)
      refine Same.seq ?_ (newSource_same ..) (by decide)
      refine Same.seq ?_ (put_same ..) (by decide)
      refine Same.seq ?_ (strapResets_same ..) (by decide)
      assumption
    clear_value x8
    extract_lets +onlyGivenNames -merge -useContext x9
    have h9 : Same 1004953627787262 s x9 := by
      unfold x9
      refine Same.seq ?_ (put_same ..) (by decide)
      assumption
    clear_value x9
    refine Same.ite ?_ ?_
    · refine Same.seq ?_ (bootRom_same ..) (by decide)
      assumption
    · assumption

theorem execPowerOn_same (a0 : Straps) (a1 : Option Burned) (a2 : Bool) (a3 : Bool) (s : State) {t : State} (h : execPowerOn a0 a1 a2 a3 s = .next t) : Same 1004953627787262 s t := by
  unfold execPowerOn at h
  injection h with h
  refine Same.of_eq h ?_
  clear h
  refine Same.seq ?_ (powerOnEff_same ..) (by decide)
  exact Same.refl _ _

theorem execPowerLoss_same (s : State) {t : State} (h : execPowerLoss s = .next t) : Same 864216139431934 s t := by
  unfold execPowerLoss at h
  injection h with h
  refine Same.of_eq h ?_
  clear h
  refine Same.seq ?_ (powerLossEff_same ..) (by decide)
  exact Same.refl _ _

theorem mainPgTimeoutEff_same (s : State) : Same 549755813890 s (mainPgTimeoutEff s) := by
  unfold mainPgTimeoutEff
  refine Same.ite ?_ ?_
  · refine Same.seq ?_ (bootFail_same ..) (by decide)
    exact Same.refl _ _
  · exact Same.refl _ _

theorem execMainPgTimeout_same (s : State) {t : State} (h : execMainPgTimeout s = .next t) : Same 549755813890 s t := by
  unfold execMainPgTimeout at h
  injection h with h
  refine Same.of_eq h ?_
  clear h
  refine Same.seq ?_ (mainPgTimeoutEff_same ..) (by decide)
  exact Same.refl _ _

theorem mainPgFallEff_same (s : State) : Same 131726512219898 s (mainPgFallEff s) := by
  unfold mainPgFallEff
  refine Same.ite ?_ ?_
  · refine Same.seq ?_ (alarm_same ..) (by decide)
    constructor <;> intro hb <;> first | rfl | exact absurd hb (by decide)
  · exact Same.refl _ _

theorem execMainPgFall_same (s : State) {t : State} (h : execMainPgFall s = .next t) : Same 131726512219898 s t := by
  unfold execMainPgFall at h
  injection h with h
  refine Same.of_eq h ?_
  clear h
  refine Same.seq ?_ (mainPgFallEff_same ..) (by decide)
  exact Same.refl _ _

theorem execGo_same (a0 : HostId) (a1 : Seen) (a2 : Training) (a3 : Tests) (s : State) {t : State} (h : execGo a0 a1 a2 a3 s = .next t) : Same 281305708756986 s t := by
  unfold execGo at h
  injection h with h
  refine Same.of_eq h ?_
  clear h
  refine Same.trans ?_ (hostWrite_same (hk := by decide) (ha := ?_) ..)
  · exact Same.refl _ _
  · intro x1
    refine Same.seq ?_ (goEff_same ..) (by decide)
    exact Same.refl _ _

theorem segmentReceiveEff_same (a0 : Nat) (a1 : Nat) (a2 : Nat) (a3 : Bool) (s : State) : Same 309246033922 s (segmentReceiveEff a0 a1 a2 a3 s) := by
  unfold segmentReceiveEff
  split
  · rename_i v1 v2
    exact Same.refl _ _
  · rename_i v3 v4 v5
    refine Same.ite ?_ ?_
    · exact Same.refl _ _
    · extract_lets +onlyGivenNames -merge -useContext x6
      clear_value x6
      refine Same.ite ?_ ?_
      · refine Same.ite ?_ ?_
        · refine Same.seq ?_ (placeResident_same ..) (by decide)
          refine Same.seq ?_ (modTarget_same ..) (by decide)
          exact Same.refl _ _
        · refine Same.seq ?_ (modTarget_same ..) (by decide)
          exact Same.refl _ _
      · refine Same.seq ?_ (modTarget_same ..) (by decide)
        exact Same.refl _ _

theorem execCrierSegmentReceive_same (a0 : ClusterId) (a1 : Fin 68) (a2 : Fin 4096) (a3 : Bool) (s : State) {t : State} (h : execCrierSegmentReceive a0 a1 a2 a3 s = .next t) : Same 309246033922 s t := by
  unfold execCrierSegmentReceive at h
  injection h with h
  refine Same.of_eq h ?_
  clear h
  refine Same.seq ?_ (segmentReceiveEff_same ..) (by decide)
  exact Same.refl _ _

theorem gapReportEff_same (a0 : Nat) (a1 : Nat) (s : State) : Same 34359738368 s (gapReportEff a0 a1 s) := by
  unfold gapReportEff
  refine Same.ite ?_ ?_
  · exact Same.refl _ _
  · refine Same.seq ?_ (modTarget_same ..) (by decide)
    exact Same.refl _ _

theorem execCrierGapReport_same (a0 : ClusterId) (a1 : Fin 68) (s : State) {t : State} (h : execCrierGapReport a0 a1 s = .next t) : Same 34359738368 s t := by
  unfold execCrierGapReport at h
  injection h with h
  refine Same.of_eq h ?_
  clear h
  refine Same.seq ?_ (gapReportEff_same ..) (by decide)
  exact Same.refl _ _

theorem reportWindowEff_same (s : State) : Same 272509615702010 s (reportWindowEff s) := by
  unfold reportWindowEff
  refine Same.ite ?_ ?_
  · exact Same.refl _ _
  · extract_lets +onlyGivenNames -merge -useContext x1
    clear_value x1
    refine Same.ite ?_ ?_
    · refine Same.seq ?_ (crierEnd_same ..) (by decide)
      exact Same.refl _ _
    · refine Same.ite ?_ ?_
      · extract_lets +onlyGivenNames -merge -useContext x2
        clear_value x2
        extract_lets +onlyGivenNames -merge -useContext x3
        have h3 : Same 272509615702010 s x3 := by
          unfold x3
          refine Same.seq ?_ (put_same ..) (by decide)
          exact Same.refl _ _
        clear_value x3
        refine Same.trans h3 ?_
        constructor <;> intro hb <;> first | rfl | exact absurd hb (by decide)
      · extract_lets +onlyGivenNames -merge -useContext x4
        have h4 : Same 272509615702010 s x4 := by
          unfold x4
          refine Same.seq ?_ (count_same ..) (by decide)
          refine Same.seq ?_ (takeOut_same ..) (by decide)
          exact Same.refl _ _
        clear_value x4
        split
        · rename_i v5 v6 v7
          have h8 : Same 272509615702010 s v6 := by
            refine Same.of_fst v7 ?_
            refine Same.seq ?_ (serviceCheck_same ..) (by decide)
            assumption
          refine Same.seq ?_ (crierRound_same ..) (by decide)
          assumption
        · rename_i v9 v10 v11
          have h12 : Same 272509615702010 s v10 := by
            refine Same.of_fst v11 ?_
            refine Same.seq ?_ (serviceCheck_same ..) (by decide)
            assumption
          assumption

theorem execCrierReportWindow_same (s : State) {t : State} (h : execCrierReportWindow s = .next t) : Same 272509615702010 s t := by
  unfold execCrierReportWindow at h
  injection h with h
  refine Same.of_eq h ?_
  clear h
  refine Same.seq ?_ (reportWindowEff_same ..) (by decide)
  exact Same.refl _ _

theorem execWarmReset_same (a0 : HostId) (a1 : Bool) (s : State) {t : State} (h : execWarmReset a0 a1 s = .next t) : Same 1117103813820414 s t := by
  unfold execWarmReset at h
  injection h with h
  refine Same.of_eq h ?_
  clear h
  refine Same.trans ?_ (hostWrite_same (hk := by decide) (ha := ?_) ..)
  · exact Same.refl _ _
  · intro x1
    refine Same.seq ?_ (resetCtlEff_same ..) (by decide)
    exact Same.refl _ _

theorem execComputeReset_same (a0 : HostId) (s : State) {t : State} (h : execComputeReset a0 s = .next t) : Same 1117103813820414 s t := by
  unfold execComputeReset at h
  injection h with h
  refine Same.of_eq h ?_
  clear h
  refine Same.trans ?_ (hostWrite_same (hk := by decide) (ha := ?_) ..)
  · exact Same.refl _ _
  · intro x1
    refine Same.seq ?_ (resetCtlEff_same ..) (by decide)
    exact Same.refl _ _

theorem execComputeResetCleared_same (a0 : Tests) (s : State) {t : State} (h : execComputeResetCleared a0 s = .next t) : Same 272509615734778 s t := by
  unfold execComputeResetCleared at h
  injection h with h
  refine Same.of_eq h ?_
  clear h
  refine Same.seq ?_ (computeClearedEff_same ..) (by decide)
  exact Same.refl _ _

theorem execComputeResume_same (a0 : HostId) (a1 : Tests) (s : State) {t : State} (h : execComputeResume a0 a1 s = .next t) : Same 1117103813820414 s t := by
  unfold execComputeResume at h
  injection h with h
  refine Same.of_eq h ?_
  clear h
  refine Same.trans ?_ (hostWrite_same (hk := by decide) (ha := ?_) ..)
  · exact Same.refl _ _
  · intro x1
    refine Same.seq ?_ (resetCtlEff_same ..) (by decide)
    exact Same.refl _ _

theorem fatalEff_same (a0 : UnitId) (s : State) : Same 61357768042234 s (fatalEff a0 s) := by
  unfold fatalEff
  refine Same.ite ?_ ?_
  · exact Same.refl _ _
  · refine Same.seq ?_ (computeReset_same ..) (by decide)
    refine Same.seq ?_ (cause_same ..) (by decide)
    refine Same.seq ?_ (event_same ..) (by decide)
    exact Same.refl _ _

theorem execFatalError_same (a0 : UnitId) (s : State) {t : State} (h : execFatalError a0 s = .next t) : Same 61357768042234 s t := by
  unfold execFatalError at h
  injection h with h
  refine Same.of_eq h ?_
  clear h
  refine Same.seq ?_ (fatalEff_same ..) (by decide)
  exact Same.refl _ _

theorem execPortReset_same (a0 : HostId) (a1 : Word) (s : State) {t : State} (h : execPortReset a0 a1 s = .next t) : Same 131050203475962 s t := by
  unfold execPortReset at h
  injection h with h
  refine Same.of_eq h ?_
  clear h
  refine Same.trans ?_ (hostWrite_same (hk := by decide) (ha := ?_) ..)
  · exact Same.refl _ _
  · intro x1
    refine Same.seq ?_ (portResetEff_same ..) (by decide)
    exact Same.refl _ _

theorem portTrainedEff_same (a0 : Nat) (a1 : Nat) (s : State) : Same 41781446050042 s (portTrainedEff a0 a1 s) := by
  unfold portTrainedEff
  refine Same.ite ?_ ?_
  · exact Same.refl _ _
  · extract_lets +onlyGivenNames -merge -useContext x1
    have h1 : Same 41781446050042 s x1 := by
      unfold x1
      refine Same.seq ?_ (setLowered_same ..) (by decide)
      exact Same.refl _ _
    clear_value x1
    refine Same.seq ?_ (refreshBackups_same ..) (by decide)
    refine Same.ite ?_ ?_
    · refine Same.seq ?_ (nativeUp_same ..) (by decide)
      assumption
    · refine Same.seq ?_ (ethUp_same ..) (by decide)
      assumption

theorem trainedEff_same (a0 : Nat) (a1 : Nat) (s : State) : Same 131050203475962 s (trainedEff a0 a1 s) := by
  unfold trainedEff
  extract_lets +onlyGivenNames -merge -useContext x1
  clear_value x1
  extract_lets +onlyGivenNames -merge -useContext x2
  have h2 : Same 131050203475962 s x2 := by
    unfold x2
    refine Same.seq ?_ (portTrainedEff_same ..) (by decide)
    exact Same.refl _ _
  clear_value x2
  extract_lets +onlyGivenNames -merge -useContext x3
  have h3 : Same 131050203475962 s x3 := by
    unfold x3
    refine Same.seq ?_ (put_same ..) (by decide)
    assumption
  clear_value x3
  extract_lets +onlyGivenNames -merge -useContext x4
  have h4 : Same 131050203475962 s x4 := by
    unfold x4
    refine Same.ite ?_ ?_
    · refine Same.trans h3 ?_
      constructor <;> intro hb <;> first | rfl | exact absurd hb (by decide)
    · assumption
  clear_value x4
  refine Same.seq ?_ (settlePower_same ..) (by decide)
  refine Same.seq ?_ (pathsChanged_same ..) (by decide)
  assumption

theorem execPortTrained_same (a0 : PortId) (a1 : BitVec 4) (s : State) {t : State} (h : execPortTrained a0 a1 s = .next t) : Same 131050203475962 s t := by
  unfold execPortTrained at h
  injection h with h
  refine Same.of_eq h ?_
  clear h
  refine Same.seq ?_ (trainedEff_same ..) (by decide)
  exact Same.refl _ _

theorem gatherExpiryEff_same (a0 : HostId) (a1 : Nat) (s : State) : Same 41781441855546 s (gatherExpiryEff a0 a1 s) := by
  unfold gatherExpiryEff
  split
  · rename_i v1 v2
    exact Same.refl _ _
  · rename_i v3 v4 v5
    extract_lets +onlyGivenNames -merge -useContext x6
    clear_value x6
    extract_lets +onlyGivenNames -merge -useContext x7
    have h7 : Same 41781441855546 s x7 := by
      unfold x7
      refine Same.seq ?_ (setEv_same ..) (by decide)
      exact Same.refl _ _
    clear_value x7
    refine Same.ite ?_ ?_
    · assumption
    · refine Same.seq ?_ (record_same ..) (by decide)
      assumption

theorem execEventGatherExpiry_same (a0 : HostId) (a1 : Nat) (s : State) {t : State} (h : execEventGatherExpiry a0 a1 s = .next t) : Same 41781441855546 s t := by
  unfold execEventGatherExpiry at h
  injection h with h
  refine Same.of_eq h ?_
  clear h
  refine Same.seq ?_ (gatherExpiryEff_same ..) (by decide)
  exact Same.refl _ _

theorem execEventRecordWrite_same (a0 : HostId) (s : State) {t : State} (h : execEventRecordWrite a0 s = .next t) : Same 41781441855546 s t := by
  unfold execEventRecordWrite at h
  injection h with h
  refine Same.of_eq h ?_
  clear h
  refine Same.seq ?_ (drainEvents_same ..) (by decide)
  exact Same.refl _ _

theorem execEventVectorDelay_same (a0 : HostId) (s : State) {t : State} (h : execEventVectorDelay a0 s = .next t) : Same 35184372088888 s t := by
  unfold execEventVectorDelay at h
  injection h with h
  refine Same.of_eq h ?_
  clear h
  refine Same.ite ?_ ?_
  · refine Same.seq ?_ (vector_same ..) (by decide)
    refine Same.seq ?_ (setEv_same ..) (by decide)
    exact Same.refl _ _
  · exact Same.refl _ _

theorem watchdogResetEff_same (a0 : Bool) (s : State) : Same 887305883615230 s (watchdogResetEff a0 s) := by
  unfold watchdogResetEff
  refine Same.ite ?_ ?_
  · exact Same.refl _ _
  · refine Same.seq ?_ (warmReset_same ..) (by decide)
    refine Same.seq ?_ (count_same ..) (by decide)
    refine Same.seq ?_ (cause_same ..) (by decide)
    refine Same.seq ?_ (event_same ..) (by decide)
    exact Same.refl _ _

theorem execHtcWatchdog_same (a0 : Bool) (s : State) {t : State} (h : execHtcWatchdog a0 s = .next t) : Same 887305883615230 s t := by
  unfold execHtcWatchdog at h
  injection h with h
  refine Same.of_eq h ?_
  clear h
  refine Same.seq ?_ (watchdogResetEff_same ..) (by decide)
  exact Same.refl _ _

theorem execAliveNToggle_same (s : State) {t : State} (h : execAliveNToggle s = .next t) : Same 549755813888 s t := by
  unfold execAliveNToggle at h
  injection h with h
  refine Same.of_eq h ?_
  clear h
  refine Same.seq ?_ (aliveEff_same ..) (by decide)
  exact Same.refl _ _

theorem sampleIntervalEff_same (s : State) : Same 10 s (sampleIntervalEff s) := by
  unfold sampleIntervalEff
  refine Same.ite ?_ ?_
  · extract_lets +onlyGivenNames -merge -useContext x1
    have h1 : Same 10 s x1 := by
      unfold x1
      refine Same.seq ?_ (resetRegs_same ..) (by decide)
      exact Same.refl _ _
    clear_value x1
    extract_lets +onlyGivenNames -merge -useContext x2
    have h2 : Same 10 s x2 := by
      unfold x2
      refine Same.foldl _ _ _ ?_ ?_
      · intro x3 a3 h3
        refine Same.seq ?_ (setReg_same ..) (by decide)
        assumption
      · assumption
    clear_value x2
    extract_lets +onlyGivenNames -merge -useContext x4
    clear_value x4
    extract_lets +onlyGivenNames -merge -useContext x5
    have h5 : Same 10 s x5 := by
      unfold x5
      refine Same.trans h2 ?_
      constructor <;> intro hb <;> first | rfl | exact absurd hb (by decide)
    clear_value x5
    refine Same.foldl _ _ _ ?_ ?_
    · intro x6 a6 h6
      refine Same.foldl _ _ _ ?_ ?_
      · intro x7 a7 h7
        refine Same.seq ?_ (sampleDepth_same ..) (by decide)
        assumption
      · assumption
    · assumption
  · exact Same.refl _ _

theorem execQueueSampleInterval_same (s : State) {t : State} (h : execQueueSampleInterval s = .next t) : Same 10 s t := by
  unfold execQueueSampleInterval at h
  injection h with h
  refine Same.of_eq h ?_
  clear h
  refine Same.seq ?_ (sampleIntervalEff_same ..) (by decide)
  exact Same.refl _ _

theorem execStickyClear_same (a0 : HostId) (s : State) {t : State} (h : execStickyClear a0 s = .next t) : Same 41781441855546 s t := by
  unfold execStickyClear at h
  injection h with h
  refine Same.of_eq h ?_
  clear h
  refine Same.trans ?_ (hostWrite_same (hk := by decide) (ha := ?_) ..)
  · exact Same.refl _ _
  · intro x1
    refine Same.seq ?_ (stickyClearEff_same ..) (by decide)
    exact Same.refl _ _

theorem ptpSendEff_same (a0 : PortId) (a1 : PtpMsg) (s : State) : Same 35184372088836 s (ptpSendEff a0 a1 s) := by
  unfold ptpSendEff
  extract_lets +onlyGivenNames -merge -useContext x1
  clear_value x1
  refine Same.ite ?_ ?_
  · extract_lets +onlyGivenNames -merge -useContext x2
    clear_value x2
    extract_lets +onlyGivenNames -merge -useContext x3
    clear_value x3
    extract_lets +onlyGivenNames -merge -useContext x4
    have h4 : Same 35184372088836 s x4 := by
      unfold x4
      split
      · rename_i v5 v6
        refine Same.seq ?_ (setPtp_same ..) (by decide)
        exact Same.refl _ _
      · rename_i v7 v8
        refine Same.seq ?_ (setPtp_same ..) (by decide)
        exact Same.refl _ _
      · rename_i v9 v10 v11
        exact Same.refl _ _
    clear_value x4
    refine Same.seq ?_ (emit_same ..) (by decide)
    refine Same.trans h4 ?_
    constructor <;> intro hb <;> first | rfl | exact absurd hb (by decide)
  · exact Same.refl _ _

theorem execPtpMessageSend_same (a0 : PortId) (a1 : PtpMsg) (s : State) {t : State} (h : execPtpMessageSend a0 a1 s = .next t) : Same 35184372088836 s t := by
  unfold execPtpMessageSend at h
  injection h with h
  refine Same.of_eq h ?_
  clear h
  refine Same.seq ?_ (ptpSendEff_same ..) (by decide)
  exact Same.refl _ _

theorem hostPortUpEff_same (a0 : HostId) (a1 : Nat) (a2 : Nat) (s : State) : Same 131187642688570 s (hostPortUpEff a0 a1 a2 s) := by
  unfold hostPortUpEff
  extract_lets +onlyGivenNames -merge -useContext x1
  clear_value x1
  refine Same.ite ?_ ?_
  · exact Same.refl _ _
  · extract_lets +onlyGivenNames -merge -useContext x2
    have h2 : Same 131187642688570 s x2 := by
      unfold x2
      refine Same.seq ?_ (put_same ..) (by decide)
      refine Same.seq ?_ (put_same ..) (by decide)
      refine Same.seq ?_ (put_same ..) (by decide)
      exact Same.refl _ _
    clear_value x2
    refine Same.seq ?_ (hostBack_same ..) (by decide)
    assumption

theorem execHostPortUp_same (a0 : HostId) (a1 : Fin 3) (a2 : Fin 3) (s : State) {t : State} (h : execHostPortUp a0 a1 a2 s = .next t) : Same 131187642688570 s t := by
  unfold execHostPortUp at h
  injection h with h
  refine Same.of_eq h ?_
  clear h
  refine Same.seq ?_ (hostPortUpEff_same ..) (by decide)
  exact Same.refl _ _

theorem execD3hotExit_same (a0 : HostId) (s : State) {t : State} (h : execD3hotExit a0 s = .next t) : Same 131187642688570 s t := by
  unfold execD3hotExit at h
  injection h with h
  refine Same.of_eq h ?_
  clear h
  refine Same.seq ?_ (d3hotExitEff_same ..) (by decide)
  exact Same.refl _ _

theorem execConventionalReset_same (a0 : HostId) (s : State) {t : State} (h : execConventionalReset a0 s = .next t) : Same 131206754070522 s t := by
  unfold execConventionalReset at h
  injection h with h
  refine Same.of_eq h ?_
  clear h
  refine Same.seq ?_ (flr_same ..) (by decide)
  exact Same.refl _ _

theorem execDebugHalt_same (a0 : CoreId) (s : State) {t : State} (h : execDebugHalt a0 s = .next t) : Same 274886295554 s t := by
  unfold execDebugHalt at h
  injection h with h
  refine Same.of_eq h ?_
  clear h
  refine Same.seq ?_ (debugHaltEff_same ..) (by decide)
  exact Same.refl _ _

theorem execDebugResume_same (a0 : CoreId) (s : State) {t : State} (h : execDebugResume a0 s = .next t) : Same 274886295554 s t := by
  unfold execDebugResume at h
  injection h with h
  refine Same.of_eq h ?_
  clear h
  refine Same.seq ?_ (debugResumeEff_same ..) (by decide)
  exact Same.refl _ _

theorem spareDoneEff_same (a0 : Nat) (s : State) : Same 274953404418 s (spareDoneEff a0 s) := by
  unfold spareDoneEff
  extract_lets +onlyGivenNames -merge -useContext x1
  clear_value x1
  split
  · rename_i v2 v3
    exact Same.refl _ _
  · rename_i v4 v5 v6
    refine Same.ite ?_ ?_
    · refine Same.seq ?_ (placeImage_same ..) (by decide)
      refine Same.seq ?_ (modCore_same ..) (by decide)
      exact Same.refl _ _
    · refine Same.ite ?_ ?_
      · constructor <;> intro hb <;> first | rfl | exact absurd hb (by decide)
      · exact Same.refl _ _

theorem execSparePreloadDone_same (a0 : CoreId) (s : State) {t : State} (h : execSparePreloadDone a0 s = .next t) : Same 274953404418 s t := by
  unfold execSparePreloadDone at h
  injection h with h
  refine Same.of_eq h ?_
  clear h
  refine Same.seq ?_ (spareDoneEff_same ..) (by decide)
  exact Same.refl _ _

theorem execAlarmConditionEnd_same (a0 : Fin 5) (s : State) {t : State} (h : execAlarmConditionEnd a0 s = .next t) : Same 2 s t := by
  unfold execAlarmConditionEnd at h
  injection h with h
  refine Same.of_eq h ?_
  clear h
  refine Same.seq ?_ (alarmEndEff_same ..) (by decide)
  exact Same.refl _ _

theorem ucieEff_same (s : State) : Same 2 s (ucieEff s) := by
  unfold ucieEff
  refine Same.ite ?_ ?_
  · refine Same.seq ?_ (count_same ..) (by decide)
    exact Same.refl _ _
  · exact Same.refl _ _

theorem execUcieLaneRepair_same (s : State) {t : State} (h : execUcieLaneRepair s = .next t) : Same 2 s t := by
  unfold execUcieLaneRepair at h
  injection h with h
  refine Same.of_eq h ?_
  clear h
  refine Same.seq ?_ (ucieEff_same ..) (by decide)
  exact Same.refl _ _

theorem spdmEff_same (a0 : HostId) (a1 : Spdm) (s : State) : Same 35184640524288 s (spdmEff a0 a1 s) := by
  unfold spdmEff
  refine Same.ite ?_ ?_
  · exact Same.refl _ _
  · extract_lets +onlyGivenNames -merge -useContext x1
    clear_value x1
    split
    · rename_i v2
      refine Same.seq ?_ (emit_same ..) (by decide)
      exact Same.refl _ _
    · rename_i v3
      refine Same.seq ?_ (emit_same ..) (by decide)
      exact Same.refl _ _
    · rename_i v4
      refine Same.seq ?_ (emit_same ..) (by decide)
      exact Same.refl _ _
    · rename_i v5 v6
      refine Same.ite ?_ ?_
      · refine Same.seq ?_ (emit_same ..) (by decide)
        refine Same.seq ?_ (setIde_same ..) (by decide)
        exact Same.refl _ _
      · refine Same.seq ?_ (emit_same ..) (by decide)
        exact Same.refl _ _
    · rename_i v7 v8
      refine Same.seq ?_ (emit_same ..) (by decide)
      exact Same.refl _ _
    · rename_i v9
      refine Same.seq ?_ (emit_same ..) (by decide)
      refine Same.seq ?_ (setIde_same ..) (by decide)
      exact Same.refl _ _
    · rename_i v10
      refine Same.seq ?_ (emit_same ..) (by decide)
      exact Same.refl _ _

theorem execSpdmMessage_same (a0 : HostId) (a1 : Spdm) (s : State) {t : State} (h : execSpdmMessage a0 a1 s = .next t) : Same 35184640524288 s t := by
  unfold execSpdmMessage at h
  injection h with h
  refine Same.of_eq h ?_
  clear h
  refine Same.seq ?_ (spdmEff_same ..) (by decide)
  exact Same.refl _ _

theorem kennelOpEff_same (a0 : Nat) (a1 : HostId) (a2 : Word) (a3 : Seen) (s : State) : Same 139708857345082 s (kennelOpEff a0 a1 a2 a3 s) := by
  unfold kennelOpEff
  refine Same.trans ?_ (hostWrite_same (hk := by decide) (ha := ?_) ..)
  · exact Same.refl _ _
  · intro x1
    refine Same.ite ?_ ?_
    · refine Same.seq ?_ (kennelCmdEff_same ..) (by decide)
      exact Same.refl _ _
    · exact Same.refl _ _

end Sys2Proof.Machine.Laws
end

