-- ==== Sys2Proof/Laws/Sparse.lean ====
section
/-! SUPPORT. Laws of sparse tables and byte memories: a read after a write, and the canonical form. -/

namespace Sys2Proof

variable {α : Type}

@[simp] theorem Sparse.at?_nil (i : Nat) : Sparse.at? ([] : Sparse α) i = none := rfl

theorem Sparse.at?_cons (k : Nat) (v : α) (m : Sparse α) (i : Nat) :
    Sparse.at? ((k, v) :: m) i = if i = k then some v else Sparse.at? m i := rfl

@[simp] theorem Sparse.at?_set_self (m : Sparse α) (i : Nat) (v : α) : (m.set i v).at? i = some v := by
  induction m with
  | nil => simp [Sparse.set, Sparse.at?]
  | cons e m ih =>
    obtain ⟨k, w⟩ := e
    simp only [Sparse.set]
    split
    · simp [Sparse.at?]
    · split
      · simp [Sparse.at?]
      · next h => simp [Sparse.at?, h, ih]

theorem Sparse.at?_set_ne (m : Sparse α) {i j : Nat} (v : α) (h : j ≠ i) : (m.set i v).at? j = m.at? j := by
  induction m with
  | nil => simp [Sparse.set, Sparse.at?, h]
  | cons e m ih =>
    obtain ⟨k, w⟩ := e
    simp only [Sparse.set]
    split
    · simp [Sparse.at?, h]
    · split
      · next hk => subst hk; simp [Sparse.at?, h]
      · simp [Sparse.at?, ih]

@[simp] theorem Sparse.at?_del_self (m : Sparse α) (i : Nat) : (m.del i).at? i = none := by
  induction m with
  | nil => rfl
  | cons e m ih =>
    obtain ⟨k, w⟩ := e
    simp only [Sparse.del]
    split
    · exact ih
    · next h => simp [Sparse.at?, h, ih]

theorem Sparse.at?_del_ne (m : Sparse α) {i j : Nat} (h : j ≠ i) : (m.del i).at? j = m.at? j := by
  induction m with
  | nil => rfl
  | cons e m ih =>
    obtain ⟨k, w⟩ := e
    simp only [Sparse.del]
    split
    · next hk => subst hk; simp [Sparse.at?, h, ih]
    · simp [Sparse.at?, ih]

/-- A read of the key just written. -/
@[simp] theorem Sparse.getD_putD_self [DecidableEq α] (m : Sparse α) (i : Nat) (v d : α) : (m.putD i v d).getD i d = v := by
  unfold Sparse.putD
  split
  · next h => simp [Sparse.getD, h]
  · simp [Sparse.getD]

/-- A write leaves every other key alone, whatever an unlisted key holds. -/
theorem Sparse.at?_putD_ne [DecidableEq α] (m : Sparse α) {i j : Nat} (v d : α) (h : j ≠ i) : (m.putD i v d).at? j = m.at? j := by
  unfold Sparse.putD
  split
  · exact m.at?_del_ne h
  · exact m.at?_set_ne v h

theorem Sparse.getD_putD_ne [DecidableEq α] (m : Sparse α) {i j : Nat} (v d e : α) (h : j ≠ i) : (m.putD i v d).getD j e = m.getD j e := by
  simp [Sparse.getD, m.at?_putD_ne v d h]

/-! The canonical form -/

theorem Sparse.mem_set {m : Sparse α} {i : Nat} {v : α} {p : Nat × α} (h : p ∈ m.set i v) : p = (i, v) ∨ p ∈ m := by
  induction m with
  | nil => simpa [Sparse.set] using h
  | cons e m ih =>
    obtain ⟨k, w⟩ := e
    simp only [Sparse.set] at h
    split at h
    · simpa [or_assoc] using h
    · split at h
      · simp at h ⊢; tauto
      · simp at h ⊢
        rcases h with h | h
        · exact .inr (.inl h)
        · rcases ih h with h | h
          · exact .inl h
          · exact .inr (.inr h)

theorem Sparse.mem_del {m : Sparse α} {i : Nat} {p : Nat × α} (h : p ∈ m.del i) : p ∈ m ∧ p.1 ≠ i := by
  induction m with
  | nil => simp [Sparse.del] at h
  | cons e m ih =>
    obtain ⟨k, w⟩ := e
    simp only [Sparse.del] at h
    split at h
    · exact ⟨List.mem_cons_of_mem _ (ih h).1, (ih h).2⟩
    · next hk =>
      rcases List.mem_cons.mp h with h | h
      · subst h; exact ⟨by simp, fun e => hk e.symm⟩
      · exact ⟨List.mem_cons_of_mem _ (ih h).1, (ih h).2⟩

theorem Sparse.set_sorted (m : Sparse α) (i : Nat) (v : α) (h : m.Pairwise (fun a b => a.1 < b.1)) :
    (m.set i v).Pairwise (fun a b => a.1 < b.1) := by
  induction m with
  | nil => simp [Sparse.set]
  | cons e m ih =>
    obtain ⟨k, w⟩ := e
    rw [List.pairwise_cons] at h
    simp only [Sparse.set]
    split
    · next hik =>
      refine List.pairwise_cons.mpr ⟨fun p hp => ?_, List.pairwise_cons.mpr h⟩
      rcases List.mem_cons.mp hp with hp | hp
      · subst hp; exact hik
      · exact Nat.lt_trans hik (h.1 p hp)
    · split
      · next hik => subst hik; exact List.pairwise_cons.mpr ⟨h.1, h.2⟩
      · next h1 h2 =>
        refine List.pairwise_cons.mpr ⟨fun p hp => ?_, ih h.2⟩
        rcases Sparse.mem_set hp with hp | hp
        · subst hp; show k < i; omega
        · exact h.1 p hp

theorem Sparse.del_sorted (m : Sparse α) (i : Nat) (h : m.Pairwise (fun a b => a.1 < b.1)) :
    (m.del i).Pairwise (fun a b => a.1 < b.1) := by
  induction m with
  | nil => simp [Sparse.del]
  | cons e m ih =>
    obtain ⟨k, w⟩ := e
    rw [List.pairwise_cons] at h
    simp only [Sparse.del]
    split
    · exact ih h.2
    · exact List.pairwise_cons.mpr ⟨fun p hp => h.1 p (Sparse.mem_del hp).1, ih h.2⟩

/-- A write keeps the canonical form. -/
theorem Sparse.putD_wf [DecidableEq α] (d : Nat → α) (m : Sparse α) (i : Nat) (v : α) (h : m.wf d) : (m.putD i v (d i)).wf d := by
  unfold Sparse.putD
  split
  · exact ⟨m.del_sorted i h.1, fun p hp => h.2 p (Sparse.mem_del hp).1⟩
  · next hv =>
    refine ⟨m.set_sorted i v h.1, fun p hp => ?_⟩
    rcases Sparse.mem_set hp with hp | hp
    · subst hp; exact hv
    · exact h.2 p hp

/-- Leaving pairs out keeps the canonical form. -/
theorem Sparse.filter_wf [DecidableEq α] (d : Nat → α) (m : Sparse α) (f : Nat × α → Bool) (h : m.wf d) : Sparse.wf d (List.filter f m) :=
  ⟨h.1.filter f, fun p hp => h.2 p (List.mem_filter.mp hp).1⟩

end Sys2Proof

namespace Sys2Proof.Machine

/-! Byte memories -/

@[simp] theorem memByte_memPut_self (m : Mem) (a : Nat) (b : Byte) : memByte (memPut m a b) a = b := by simp [memByte, memPut]

theorem memByte_memPut_ne (m : Mem) {a x : Nat} (b : Byte) (h : x ≠ a) : memByte (memPut m a b) x = memByte m x := by
  simp [memByte, memPut, Sparse.getD_putD_ne _ _ _ _ h]

/-- Bytes outside the range written read as before. -/
theorem memByte_memWrite_out (bs : List Byte) : ∀ (m : Mem) (a x : Nat), x < a ∨ a + bs.length ≤ x → memByte (memWrite m a bs) x = memByte m x := by
  induction bs with
  | nil => intro m a x _; rfl
  | cons b bs ih =>
    intro m a x h
    simp only [memWrite]
    rw [ih _ _ _ (by simp at h; omega)]
    exact memByte_memPut_ne _ _ (by simp at h; omega)

/-- Bytes inside the range written read as written. -/
theorem memByte_memWrite_in (bs : List Byte) : ∀ (m : Mem) (a i : Nat) (h : i < bs.length), memByte (memWrite m a bs) (a + i) = bs[i] := by
  induction bs with
  | nil => intro m a i h; simp at h
  | cons b bs ih =>
    intro m a i h
    simp only [memWrite]
    cases i with
    | zero =>
      rw [memByte_memWrite_out _ _ _ _ (by omega)]
      simp
    | succ i =>
      have := ih (memPut m a b) (a + 1) i (by simpa using h)
      simpa [Nat.add_assoc, Nat.add_comm 1 i] using this

theorem memRead_eq (m : Mem) (a k : Nat) : memRead m a k = (List.range k).map (fun i => memByte m (a + i)) := by
  induction k generalizing a with
  | zero => rfl
  | succ k ih =>
    simp only [memRead, ih, List.range_succ_eq_map, List.map_cons, List.map_map]
    refine congrArg₂ _ (by simp) (List.map_congr_left fun i _ => ?_)
    simp [Nat.add_assoc, Nat.add_comm 1 i]

@[simp] theorem memRead_length (m : Mem) (a k : Nat) : (memRead m a k).length = k := by simp [memRead_eq]

/-- What was written is read back. -/
theorem memRead_memWrite (m : Mem) (a : Nat) (bs : List Byte) : memRead (memWrite m a bs) a bs.length = bs := by
  rw [memRead_eq]
  refine List.ext_getElem (by simp) (fun i h1 h2 => ?_)
  simp [memByte_memWrite_in bs m a i h2]

theorem memPut_wf (m : Mem) (a : Nat) (b : Byte) (h : Mem.wf m) : Mem.wf (memPut m a b) := Sparse.putD_wf _ _ _ _ h

/-- A write keeps the canonical form. -/
theorem memWrite_wf (bs : List Byte) : ∀ (m : Mem) (a : Nat), Mem.wf m → Mem.wf (memWrite m a bs) := by
  induction bs with
  | nil => intro m a h; exact h
  | cons b bs ih => intro m a h; exact ih _ _ (memPut_wf _ _ _ h)

/-- Zeroing a range keeps the canonical form. -/
theorem memZero_wf (m : Mem) (a k : Nat) (h : Mem.wf m) : Mem.wf (memZero m a k) := Sparse.filter_wf _ _ _ h

end Sys2Proof.Machine
end

