-- ==== Sys2Proof/Laws/State.lean ====
section
/-! SUPPORT. What each named update of the state leaves alone: one lemma for every field and update. -/

namespace Sys2Proof.Machine.Laws

/-! setReg -/
@[simp] theorem setReg_pending (s : State) (o : Nat) (v : Word) : (s.setReg o v).pending = s.pending := rfl
@[simp] theorem setReg_time (s : State) (o : Nat) (v : Word) : (s.setReg o v).time = s.time := rfl
@[simp] theorem setReg_scriv (s : State) (o : Nat) (v : Word) : (s.setReg o v).scriv = s.scriv := rfl
@[simp] theorem setReg_host0 (s : State) (o : Nat) (v : Word) : (s.setReg o v).host0 = s.host0 := rfl
@[simp] theorem setReg_host1 (s : State) (o : Nat) (v : Word) : (s.setReg o v).host1 = s.host1 := rfl
@[simp] theorem setReg_sched (s : State) (o : Nat) (v : Word) : (s.setReg o v).sched = s.sched := rfl
@[simp] theorem setReg_ports (s : State) (o : Nat) (v : Word) : (s.setReg o v).ports = s.ports := rfl
@[simp] theorem setReg_mesh (s : State) (o : Nat) (v : Word) : (s.setReg o v).mesh = s.mesh := rfl
@[simp] theorem setReg_rxq (s : State) (o : Nat) (v : Word) : (s.setReg o v).rxq = s.rxq := rfl
@[simp] theorem setReg_held (s : State) (o : Nat) (v : Word) : (s.setReg o v).held = s.held := rfl
@[simp] theorem setReg_stageIn (s : State) (o : Nat) (v : Word) : (s.setReg o v).stageIn = s.stageIn := rfl
@[simp] theorem setReg_preReady (s : State) (o : Nat) (v : Word) : (s.setReg o v).preReady = s.preReady := rfl
@[simp] theorem setReg_qps (s : State) (o : Nat) (v : Word) : (s.setReg o v).qps = s.qps := rfl
@[simp] theorem setReg_kennel (s : State) (o : Nat) (v : Word) : (s.setReg o v).kennel = s.kennel := rfl
@[simp] theorem setReg_wins (s : State) (o : Nat) (v : Word) : (s.setReg o v).wins = s.wins := rfl
@[simp] theorem setReg_sheep0 (s : State) (o : Nat) (v : Word) : (s.setReg o v).sheep0 = s.sheep0 := rfl
@[simp] theorem setReg_sheep1 (s : State) (o : Nat) (v : Word) : (s.setReg o v).sheep1 = s.sheep1 := rfl
@[simp] theorem setReg_tiles (s : State) (o : Nat) (v : Word) : (s.setReg o v).tiles = s.tiles := rfl
@[simp] theorem setReg_tileNext (s : State) (o : Nat) (v : Word) : (s.setReg o v).tileNext = s.tileNext := rfl
@[simp] theorem setReg_trigs (s : State) (o : Nat) (v : Word) : (s.setReg o v).trigs = s.trigs := rfl
@[simp] theorem setReg_trigPend (s : State) (o : Nat) (v : Word) : (s.setReg o v).trigPend = s.trigPend := rfl
@[simp] theorem setReg_queues (s : State) (o : Nat) (v : Word) : (s.setReg o v).queues = s.queues := rfl
@[simp] theorem setReg_cores (s : State) (o : Nat) (v : Word) : (s.setReg o v).cores = s.cores := rfl
@[simp] theorem setReg_clusters (s : State) (o : Nat) (v : Word) : (s.setReg o v).clusters = s.clusters := rfl
@[simp] theorem setReg_handles (s : State) (o : Nat) (v : Word) : (s.setReg o v).handles = s.handles := rfl
@[simp] theorem setReg_spares (s : State) (o : Nat) (v : Word) : (s.setReg o v).spares = s.spares := rfl
@[simp] theorem setReg_digests (s : State) (o : Nat) (v : Word) : (s.setReg o v).digests = s.digests := rfl
@[simp] theorem setReg_sec (s : State) (o : Nat) (v : Word) : (s.setReg o v).sec = s.sec := rfl
@[simp] theorem setReg_parts (s : State) (o : Nat) (v : Word) : (s.setReg o v).parts = s.parts := rfl
@[simp] theorem setReg_colls (s : State) (o : Nat) (v : Word) : (s.setReg o v).colls = s.colls := rfl
@[simp] theorem setReg_collEnds (s : State) (o : Nat) (v : Word) : (s.setReg o v).collEnds = s.collEnds := rfl
@[simp] theorem setReg_redEnds (s : State) (o : Nat) (v : Word) : (s.setReg o v).redEnds = s.redEnds := rfl
@[simp] theorem setReg_collNext (s : State) (o : Nat) (v : Word) : (s.setReg o v).collNext = s.collNext := rfl
@[simp] theorem setReg_bars (s : State) (o : Nat) (v : Word) : (s.setReg o v).bars = s.bars := rfl
@[simp] theorem setReg_boot (s : State) (o : Nat) (v : Word) : (s.setReg o v).boot = s.boot := rfl
@[simp] theorem setReg_memsys (s : State) (o : Nat) (v : Word) : (s.setReg o v).memsys = s.memsys := rfl
@[simp] theorem setReg_portRst (s : State) (o : Nat) (v : Word) : (s.setReg o v).portRst = s.portRst := rfl
@[simp] theorem setReg_tally (s : State) (o : Nat) (v : Word) : (s.setReg o v).tally = s.tally := rfl
@[simp] theorem setReg_pins (s : State) (o : Nat) (v : Word) : (s.setReg o v).pins = s.pins := rfl
@[simp] theorem setReg_ddrBad (s : State) (o : Nat) (v : Word) : (s.setReg o v).ddrBad = s.ddrBad := rfl
@[simp] theorem setReg_hostMem0 (s : State) (o : Nat) (v : Word) : (s.setReg o v).hostMem0 = s.hostMem0 := rfl
@[simp] theorem setReg_hostMem1 (s : State) (o : Nat) (v : Word) : (s.setReg o v).hostMem1 = s.hostMem1 := rfl
@[simp] theorem setReg_poisoned (s : State) (o : Nat) (v : Word) : (s.setReg o v).poisoned = s.poisoned := rfl
@[simp] theorem setReg_ddr (s : State) (o : Nat) (v : Word) : (s.setReg o v).ddr = s.ddr := rfl
@[simp] theorem setReg_out (s : State) (o : Nat) (v : Word) : (s.setReg o v).out = s.out := rfl
@[simp] theorem setReg_freeCtr (s : State) (o : Nat) (v : Word) : (s.setReg o v).freeCtr = s.freeCtr := rfl

/-! put -/
@[simp] theorem put_pending (s : State) (f : Fld) (x : Nat) : (s.put f x).pending = s.pending := rfl
@[simp] theorem put_time (s : State) (f : Fld) (x : Nat) : (s.put f x).time = s.time := rfl
@[simp] theorem put_scriv (s : State) (f : Fld) (x : Nat) : (s.put f x).scriv = s.scriv := rfl
@[simp] theorem put_host0 (s : State) (f : Fld) (x : Nat) : (s.put f x).host0 = s.host0 := rfl
@[simp] theorem put_host1 (s : State) (f : Fld) (x : Nat) : (s.put f x).host1 = s.host1 := rfl
@[simp] theorem put_sched (s : State) (f : Fld) (x : Nat) : (s.put f x).sched = s.sched := rfl
@[simp] theorem put_ports (s : State) (f : Fld) (x : Nat) : (s.put f x).ports = s.ports := rfl
@[simp] theorem put_mesh (s : State) (f : Fld) (x : Nat) : (s.put f x).mesh = s.mesh := rfl
@[simp] theorem put_rxq (s : State) (f : Fld) (x : Nat) : (s.put f x).rxq = s.rxq := rfl
@[simp] theorem put_held (s : State) (f : Fld) (x : Nat) : (s.put f x).held = s.held := rfl
@[simp] theorem put_stageIn (s : State) (f : Fld) (x : Nat) : (s.put f x).stageIn = s.stageIn := rfl
@[simp] theorem put_preReady (s : State) (f : Fld) (x : Nat) : (s.put f x).preReady = s.preReady := rfl
@[simp] theorem put_qps (s : State) (f : Fld) (x : Nat) : (s.put f x).qps = s.qps := rfl
@[simp] theorem put_kennel (s : State) (f : Fld) (x : Nat) : (s.put f x).kennel = s.kennel := rfl
@[simp] theorem put_wins (s : State) (f : Fld) (x : Nat) : (s.put f x).wins = s.wins := rfl
@[simp] theorem put_sheep0 (s : State) (f : Fld) (x : Nat) : (s.put f x).sheep0 = s.sheep0 := rfl
@[simp] theorem put_sheep1 (s : State) (f : Fld) (x : Nat) : (s.put f x).sheep1 = s.sheep1 := rfl
@[simp] theorem put_tiles (s : State) (f : Fld) (x : Nat) : (s.put f x).tiles = s.tiles := rfl
@[simp] theorem put_tileNext (s : State) (f : Fld) (x : Nat) : (s.put f x).tileNext = s.tileNext := rfl
@[simp] theorem put_trigs (s : State) (f : Fld) (x : Nat) : (s.put f x).trigs = s.trigs := rfl
@[simp] theorem put_trigPend (s : State) (f : Fld) (x : Nat) : (s.put f x).trigPend = s.trigPend := rfl
@[simp] theorem put_queues (s : State) (f : Fld) (x : Nat) : (s.put f x).queues = s.queues := rfl
@[simp] theorem put_cores (s : State) (f : Fld) (x : Nat) : (s.put f x).cores = s.cores := rfl
@[simp] theorem put_clusters (s : State) (f : Fld) (x : Nat) : (s.put f x).clusters = s.clusters := rfl
@[simp] theorem put_handles (s : State) (f : Fld) (x : Nat) : (s.put f x).handles = s.handles := rfl
@[simp] theorem put_spares (s : State) (f : Fld) (x : Nat) : (s.put f x).spares = s.spares := rfl
@[simp] theorem put_digests (s : State) (f : Fld) (x : Nat) : (s.put f x).digests = s.digests := rfl
@[simp] theorem put_sec (s : State) (f : Fld) (x : Nat) : (s.put f x).sec = s.sec := rfl
@[simp] theorem put_parts (s : State) (f : Fld) (x : Nat) : (s.put f x).parts = s.parts := rfl
@[simp] theorem put_colls (s : State) (f : Fld) (x : Nat) : (s.put f x).colls = s.colls := rfl
@[simp] theorem put_collEnds (s : State) (f : Fld) (x : Nat) : (s.put f x).collEnds = s.collEnds := rfl
@[simp] theorem put_redEnds (s : State) (f : Fld) (x : Nat) : (s.put f x).redEnds = s.redEnds := rfl
@[simp] theorem put_collNext (s : State) (f : Fld) (x : Nat) : (s.put f x).collNext = s.collNext := rfl
@[simp] theorem put_bars (s : State) (f : Fld) (x : Nat) : (s.put f x).bars = s.bars := rfl
@[simp] theorem put_boot (s : State) (f : Fld) (x : Nat) : (s.put f x).boot = s.boot := rfl
@[simp] theorem put_memsys (s : State) (f : Fld) (x : Nat) : (s.put f x).memsys = s.memsys := rfl
@[simp] theorem put_portRst (s : State) (f : Fld) (x : Nat) : (s.put f x).portRst = s.portRst := rfl
@[simp] theorem put_tally (s : State) (f : Fld) (x : Nat) : (s.put f x).tally = s.tally := rfl
@[simp] theorem put_pins (s : State) (f : Fld) (x : Nat) : (s.put f x).pins = s.pins := rfl
@[simp] theorem put_ddrBad (s : State) (f : Fld) (x : Nat) : (s.put f x).ddrBad = s.ddrBad := rfl
@[simp] theorem put_hostMem0 (s : State) (f : Fld) (x : Nat) : (s.put f x).hostMem0 = s.hostMem0 := rfl
@[simp] theorem put_hostMem1 (s : State) (f : Fld) (x : Nat) : (s.put f x).hostMem1 = s.hostMem1 := rfl
@[simp] theorem put_poisoned (s : State) (f : Fld) (x : Nat) : (s.put f x).poisoned = s.poisoned := rfl
@[simp] theorem put_ddr (s : State) (f : Fld) (x : Nat) : (s.put f x).ddr = s.ddr := rfl
@[simp] theorem put_out (s : State) (f : Fld) (x : Nat) : (s.put f x).out = s.out := rfl
@[simp] theorem put_freeCtr (s : State) (f : Fld) (x : Nat) : (s.put f x).freeCtr = s.freeCtr := rfl

/-! count -/
@[simp] theorem count_pending (s : State) (f : Fld) (n : Nat) : (s.count f n).pending = s.pending := rfl
@[simp] theorem count_time (s : State) (f : Fld) (n : Nat) : (s.count f n).time = s.time := rfl
@[simp] theorem count_scriv (s : State) (f : Fld) (n : Nat) : (s.count f n).scriv = s.scriv := rfl
@[simp] theorem count_host0 (s : State) (f : Fld) (n : Nat) : (s.count f n).host0 = s.host0 := rfl
@[simp] theorem count_host1 (s : State) (f : Fld) (n : Nat) : (s.count f n).host1 = s.host1 := rfl
@[simp] theorem count_sched (s : State) (f : Fld) (n : Nat) : (s.count f n).sched = s.sched := rfl
@[simp] theorem count_ports (s : State) (f : Fld) (n : Nat) : (s.count f n).ports = s.ports := rfl
@[simp] theorem count_mesh (s : State) (f : Fld) (n : Nat) : (s.count f n).mesh = s.mesh := rfl
@[simp] theorem count_rxq (s : State) (f : Fld) (n : Nat) : (s.count f n).rxq = s.rxq := rfl
@[simp] theorem count_held (s : State) (f : Fld) (n : Nat) : (s.count f n).held = s.held := rfl
@[simp] theorem count_stageIn (s : State) (f : Fld) (n : Nat) : (s.count f n).stageIn = s.stageIn := rfl
@[simp] theorem count_preReady (s : State) (f : Fld) (n : Nat) : (s.count f n).preReady = s.preReady := rfl
@[simp] theorem count_qps (s : State) (f : Fld) (n : Nat) : (s.count f n).qps = s.qps := rfl
@[simp] theorem count_kennel (s : State) (f : Fld) (n : Nat) : (s.count f n).kennel = s.kennel := rfl
@[simp] theorem count_wins (s : State) (f : Fld) (n : Nat) : (s.count f n).wins = s.wins := rfl
@[simp] theorem count_sheep0 (s : State) (f : Fld) (n : Nat) : (s.count f n).sheep0 = s.sheep0 := rfl
@[simp] theorem count_sheep1 (s : State) (f : Fld) (n : Nat) : (s.count f n).sheep1 = s.sheep1 := rfl
@[simp] theorem count_tiles (s : State) (f : Fld) (n : Nat) : (s.count f n).tiles = s.tiles := rfl
@[simp] theorem count_tileNext (s : State) (f : Fld) (n : Nat) : (s.count f n).tileNext = s.tileNext := rfl
@[simp] theorem count_trigs (s : State) (f : Fld) (n : Nat) : (s.count f n).trigs = s.trigs := rfl
@[simp] theorem count_trigPend (s : State) (f : Fld) (n : Nat) : (s.count f n).trigPend = s.trigPend := rfl
@[simp] theorem count_queues (s : State) (f : Fld) (n : Nat) : (s.count f n).queues = s.queues := rfl
@[simp] theorem count_cores (s : State) (f : Fld) (n : Nat) : (s.count f n).cores = s.cores := rfl
@[simp] theorem count_clusters (s : State) (f : Fld) (n : Nat) : (s.count f n).clusters = s.clusters := rfl
@[simp] theorem count_handles (s : State) (f : Fld) (n : Nat) : (s.count f n).handles = s.handles := rfl
@[simp] theorem count_spares (s : State) (f : Fld) (n : Nat) : (s.count f n).spares = s.spares := rfl
@[simp] theorem count_digests (s : State) (f : Fld) (n : Nat) : (s.count f n).digests = s.digests := rfl
@[simp] theorem count_sec (s : State) (f : Fld) (n : Nat) : (s.count f n).sec = s.sec := rfl
@[simp] theorem count_parts (s : State) (f : Fld) (n : Nat) : (s.count f n).parts = s.parts := rfl
@[simp] theorem count_colls (s : State) (f : Fld) (n : Nat) : (s.count f n).colls = s.colls := rfl
@[simp] theorem count_collEnds (s : State) (f : Fld) (n : Nat) : (s.count f n).collEnds = s.collEnds := rfl
@[simp] theorem count_redEnds (s : State) (f : Fld) (n : Nat) : (s.count f n).redEnds = s.redEnds := rfl
@[simp] theorem count_collNext (s : State) (f : Fld) (n : Nat) : (s.count f n).collNext = s.collNext := rfl
@[simp] theorem count_bars (s : State) (f : Fld) (n : Nat) : (s.count f n).bars = s.bars := rfl
@[simp] theorem count_boot (s : State) (f : Fld) (n : Nat) : (s.count f n).boot = s.boot := rfl
@[simp] theorem count_memsys (s : State) (f : Fld) (n : Nat) : (s.count f n).memsys = s.memsys := rfl
@[simp] theorem count_portRst (s : State) (f : Fld) (n : Nat) : (s.count f n).portRst = s.portRst := rfl
@[simp] theorem count_tally (s : State) (f : Fld) (n : Nat) : (s.count f n).tally = s.tally := rfl
@[simp] theorem count_pins (s : State) (f : Fld) (n : Nat) : (s.count f n).pins = s.pins := rfl
@[simp] theorem count_ddrBad (s : State) (f : Fld) (n : Nat) : (s.count f n).ddrBad = s.ddrBad := rfl
@[simp] theorem count_hostMem0 (s : State) (f : Fld) (n : Nat) : (s.count f n).hostMem0 = s.hostMem0 := rfl
@[simp] theorem count_hostMem1 (s : State) (f : Fld) (n : Nat) : (s.count f n).hostMem1 = s.hostMem1 := rfl
@[simp] theorem count_poisoned (s : State) (f : Fld) (n : Nat) : (s.count f n).poisoned = s.poisoned := rfl
@[simp] theorem count_ddr (s : State) (f : Fld) (n : Nat) : (s.count f n).ddr = s.ddr := rfl
@[simp] theorem count_out (s : State) (f : Fld) (n : Nat) : (s.count f n).out = s.out := rfl
@[simp] theorem count_freeCtr (s : State) (f : Fld) (n : Nat) : (s.count f n).freeCtr = s.freeCtr := rfl

/-! resetReg -/
@[simp] theorem resetReg_pending (s : State) (o : Nat) : (s.resetReg o).pending = s.pending := rfl
@[simp] theorem resetReg_time (s : State) (o : Nat) : (s.resetReg o).time = s.time := rfl
@[simp] theorem resetReg_scriv (s : State) (o : Nat) : (s.resetReg o).scriv = s.scriv := rfl
@[simp] theorem resetReg_host0 (s : State) (o : Nat) : (s.resetReg o).host0 = s.host0 := rfl
@[simp] theorem resetReg_host1 (s : State) (o : Nat) : (s.resetReg o).host1 = s.host1 := rfl
@[simp] theorem resetReg_sched (s : State) (o : Nat) : (s.resetReg o).sched = s.sched := rfl
@[simp] theorem resetReg_ports (s : State) (o : Nat) : (s.resetReg o).ports = s.ports := rfl
@[simp] theorem resetReg_mesh (s : State) (o : Nat) : (s.resetReg o).mesh = s.mesh := rfl
@[simp] theorem resetReg_rxq (s : State) (o : Nat) : (s.resetReg o).rxq = s.rxq := rfl
@[simp] theorem resetReg_held (s : State) (o : Nat) : (s.resetReg o).held = s.held := rfl
@[simp] theorem resetReg_stageIn (s : State) (o : Nat) : (s.resetReg o).stageIn = s.stageIn := rfl
@[simp] theorem resetReg_preReady (s : State) (o : Nat) : (s.resetReg o).preReady = s.preReady := rfl
@[simp] theorem resetReg_qps (s : State) (o : Nat) : (s.resetReg o).qps = s.qps := rfl
@[simp] theorem resetReg_kennel (s : State) (o : Nat) : (s.resetReg o).kennel = s.kennel := rfl
@[simp] theorem resetReg_wins (s : State) (o : Nat) : (s.resetReg o).wins = s.wins := rfl
@[simp] theorem resetReg_sheep0 (s : State) (o : Nat) : (s.resetReg o).sheep0 = s.sheep0 := rfl
@[simp] theorem resetReg_sheep1 (s : State) (o : Nat) : (s.resetReg o).sheep1 = s.sheep1 := rfl
@[simp] theorem resetReg_tiles (s : State) (o : Nat) : (s.resetReg o).tiles = s.tiles := rfl
@[simp] theorem resetReg_tileNext (s : State) (o : Nat) : (s.resetReg o).tileNext = s.tileNext := rfl
@[simp] theorem resetReg_trigs (s : State) (o : Nat) : (s.resetReg o).trigs = s.trigs := rfl
@[simp] theorem resetReg_trigPend (s : State) (o : Nat) : (s.resetReg o).trigPend = s.trigPend := rfl
@[simp] theorem resetReg_queues (s : State) (o : Nat) : (s.resetReg o).queues = s.queues := rfl
@[simp] theorem resetReg_cores (s : State) (o : Nat) : (s.resetReg o).cores = s.cores := rfl
@[simp] theorem resetReg_clusters (s : State) (o : Nat) : (s.resetReg o).clusters = s.clusters := rfl
@[simp] theorem resetReg_handles (s : State) (o : Nat) : (s.resetReg o).handles = s.handles := rfl
@[simp] theorem resetReg_spares (s : State) (o : Nat) : (s.resetReg o).spares = s.spares := rfl
@[simp] theorem resetReg_digests (s : State) (o : Nat) : (s.resetReg o).digests = s.digests := rfl
@[simp] theorem resetReg_sec (s : State) (o : Nat) : (s.resetReg o).sec = s.sec := rfl
@[simp] theorem resetReg_parts (s : State) (o : Nat) : (s.resetReg o).parts = s.parts := rfl
@[simp] theorem resetReg_colls (s : State) (o : Nat) : (s.resetReg o).colls = s.colls := rfl
@[simp] theorem resetReg_collEnds (s : State) (o : Nat) : (s.resetReg o).collEnds = s.collEnds := rfl
@[simp] theorem resetReg_redEnds (s : State) (o : Nat) : (s.resetReg o).redEnds = s.redEnds := rfl
@[simp] theorem resetReg_collNext (s : State) (o : Nat) : (s.resetReg o).collNext = s.collNext := rfl
@[simp] theorem resetReg_bars (s : State) (o : Nat) : (s.resetReg o).bars = s.bars := rfl
@[simp] theorem resetReg_boot (s : State) (o : Nat) : (s.resetReg o).boot = s.boot := rfl
@[simp] theorem resetReg_memsys (s : State) (o : Nat) : (s.resetReg o).memsys = s.memsys := rfl
@[simp] theorem resetReg_portRst (s : State) (o : Nat) : (s.resetReg o).portRst = s.portRst := rfl
@[simp] theorem resetReg_tally (s : State) (o : Nat) : (s.resetReg o).tally = s.tally := rfl
@[simp] theorem resetReg_pins (s : State) (o : Nat) : (s.resetReg o).pins = s.pins := rfl
@[simp] theorem resetReg_ddrBad (s : State) (o : Nat) : (s.resetReg o).ddrBad = s.ddrBad := rfl
@[simp] theorem resetReg_hostMem0 (s : State) (o : Nat) : (s.resetReg o).hostMem0 = s.hostMem0 := rfl
@[simp] theorem resetReg_hostMem1 (s : State) (o : Nat) : (s.resetReg o).hostMem1 = s.hostMem1 := rfl
@[simp] theorem resetReg_poisoned (s : State) (o : Nat) : (s.resetReg o).poisoned = s.poisoned := rfl
@[simp] theorem resetReg_ddr (s : State) (o : Nat) : (s.resetReg o).ddr = s.ddr := rfl
@[simp] theorem resetReg_out (s : State) (o : Nat) : (s.resetReg o).out = s.out := rfl
@[simp] theorem resetReg_freeCtr (s : State) (o : Nat) : (s.resetReg o).freeCtr = s.freeCtr := rfl

/-! resetRegs -/
@[simp] theorem resetRegs_pending (s : State) (p : Nat → Bool) : (s.resetRegs p).pending = s.pending := rfl
@[simp] theorem resetRegs_time (s : State) (p : Nat → Bool) : (s.resetRegs p).time = s.time := rfl
@[simp] theorem resetRegs_scriv (s : State) (p : Nat → Bool) : (s.resetRegs p).scriv = s.scriv := rfl
@[simp] theorem resetRegs_host0 (s : State) (p : Nat → Bool) : (s.resetRegs p).host0 = s.host0 := rfl
@[simp] theorem resetRegs_host1 (s : State) (p : Nat → Bool) : (s.resetRegs p).host1 = s.host1 := rfl
@[simp] theorem resetRegs_sched (s : State) (p : Nat → Bool) : (s.resetRegs p).sched = s.sched := rfl
@[simp] theorem resetRegs_ports (s : State) (p : Nat → Bool) : (s.resetRegs p).ports = s.ports := rfl
@[simp] theorem resetRegs_mesh (s : State) (p : Nat → Bool) : (s.resetRegs p).mesh = s.mesh := rfl
@[simp] theorem resetRegs_rxq (s : State) (p : Nat → Bool) : (s.resetRegs p).rxq = s.rxq := rfl
@[simp] theorem resetRegs_held (s : State) (p : Nat → Bool) : (s.resetRegs p).held = s.held := rfl
@[simp] theorem resetRegs_stageIn (s : State) (p : Nat → Bool) : (s.resetRegs p).stageIn = s.stageIn := rfl
@[simp] theorem resetRegs_preReady (s : State) (p : Nat → Bool) : (s.resetRegs p).preReady = s.preReady := rfl
@[simp] theorem resetRegs_qps (s : State) (p : Nat → Bool) : (s.resetRegs p).qps = s.qps := rfl
@[simp] theorem resetRegs_kennel (s : State) (p : Nat → Bool) : (s.resetRegs p).kennel = s.kennel := rfl
@[simp] theorem resetRegs_wins (s : State) (p : Nat → Bool) : (s.resetRegs p).wins = s.wins := rfl
@[simp] theorem resetRegs_sheep0 (s : State) (p : Nat → Bool) : (s.resetRegs p).sheep0 = s.sheep0 := rfl
@[simp] theorem resetRegs_sheep1 (s : State) (p : Nat → Bool) : (s.resetRegs p).sheep1 = s.sheep1 := rfl
@[simp] theorem resetRegs_tiles (s : State) (p : Nat → Bool) : (s.resetRegs p).tiles = s.tiles := rfl
@[simp] theorem resetRegs_tileNext (s : State) (p : Nat → Bool) : (s.resetRegs p).tileNext = s.tileNext := rfl
@[simp] theorem resetRegs_trigs (s : State) (p : Nat → Bool) : (s.resetRegs p).trigs = s.trigs := rfl
@[simp] theorem resetRegs_trigPend (s : State) (p : Nat → Bool) : (s.resetRegs p).trigPend = s.trigPend := rfl
@[simp] theorem resetRegs_queues (s : State) (p : Nat → Bool) : (s.resetRegs p).queues = s.queues := rfl
@[simp] theorem resetRegs_cores (s : State) (p : Nat → Bool) : (s.resetRegs p).cores = s.cores := rfl
@[simp] theorem resetRegs_clusters (s : State) (p : Nat → Bool) : (s.resetRegs p).clusters = s.clusters := rfl
@[simp] theorem resetRegs_handles (s : State) (p : Nat → Bool) : (s.resetRegs p).handles = s.handles := rfl
@[simp] theorem resetRegs_spares (s : State) (p : Nat → Bool) : (s.resetRegs p).spares = s.spares := rfl
@[simp] theorem resetRegs_digests (s : State) (p : Nat → Bool) : (s.resetRegs p).digests = s.digests := rfl
@[simp] theorem resetRegs_sec (s : State) (p : Nat → Bool) : (s.resetRegs p).sec = s.sec := rfl
@[simp] theorem resetRegs_parts (s : State) (p : Nat → Bool) : (s.resetRegs p).parts = s.parts := rfl
@[simp] theorem resetRegs_colls (s : State) (p : Nat → Bool) : (s.resetRegs p).colls = s.colls := rfl
@[simp] theorem resetRegs_collEnds (s : State) (p : Nat → Bool) : (s.resetRegs p).collEnds = s.collEnds := rfl
@[simp] theorem resetRegs_redEnds (s : State) (p : Nat → Bool) : (s.resetRegs p).redEnds = s.redEnds := rfl
@[simp] theorem resetRegs_collNext (s : State) (p : Nat → Bool) : (s.resetRegs p).collNext = s.collNext := rfl
@[simp] theorem resetRegs_bars (s : State) (p : Nat → Bool) : (s.resetRegs p).bars = s.bars := rfl
@[simp] theorem resetRegs_boot (s : State) (p : Nat → Bool) : (s.resetRegs p).boot = s.boot := rfl
@[simp] theorem resetRegs_memsys (s : State) (p : Nat → Bool) : (s.resetRegs p).memsys = s.memsys := rfl
@[simp] theorem resetRegs_portRst (s : State) (p : Nat → Bool) : (s.resetRegs p).portRst = s.portRst := rfl
@[simp] theorem resetRegs_tally (s : State) (p : Nat → Bool) : (s.resetRegs p).tally = s.tally := rfl
@[simp] theorem resetRegs_pins (s : State) (p : Nat → Bool) : (s.resetRegs p).pins = s.pins := rfl
@[simp] theorem resetRegs_ddrBad (s : State) (p : Nat → Bool) : (s.resetRegs p).ddrBad = s.ddrBad := rfl
@[simp] theorem resetRegs_hostMem0 (s : State) (p : Nat → Bool) : (s.resetRegs p).hostMem0 = s.hostMem0 := rfl
@[simp] theorem resetRegs_hostMem1 (s : State) (p : Nat → Bool) : (s.resetRegs p).hostMem1 = s.hostMem1 := rfl
@[simp] theorem resetRegs_poisoned (s : State) (p : Nat → Bool) : (s.resetRegs p).poisoned = s.poisoned := rfl
@[simp] theorem resetRegs_ddr (s : State) (p : Nat → Bool) : (s.resetRegs p).ddr = s.ddr := rfl
@[simp] theorem resetRegs_out (s : State) (p : Nat → Bool) : (s.resetRegs p).out = s.out := rfl
@[simp] theorem resetRegs_freeCtr (s : State) (p : Nat → Bool) : (s.resetRegs p).freeCtr = s.freeCtr := rfl

/-! emit -/
@[simp] theorem emit_pending (s : State) (o : Output) : (s.emit o).pending = s.pending := rfl
@[simp] theorem emit_regs (s : State) (o : Output) : (s.emit o).regs = s.regs := rfl
@[simp] theorem emit_time (s : State) (o : Output) : (s.emit o).time = s.time := rfl
@[simp] theorem emit_scriv (s : State) (o : Output) : (s.emit o).scriv = s.scriv := rfl
@[simp] theorem emit_host0 (s : State) (o : Output) : (s.emit o).host0 = s.host0 := rfl
@[simp] theorem emit_host1 (s : State) (o : Output) : (s.emit o).host1 = s.host1 := rfl
@[simp] theorem emit_sched (s : State) (o : Output) : (s.emit o).sched = s.sched := rfl
@[simp] theorem emit_ports (s : State) (o : Output) : (s.emit o).ports = s.ports := rfl
@[simp] theorem emit_mesh (s : State) (o : Output) : (s.emit o).mesh = s.mesh := rfl
@[simp] theorem emit_rxq (s : State) (o : Output) : (s.emit o).rxq = s.rxq := rfl
@[simp] theorem emit_held (s : State) (o : Output) : (s.emit o).held = s.held := rfl
@[simp] theorem emit_stageIn (s : State) (o : Output) : (s.emit o).stageIn = s.stageIn := rfl
@[simp] theorem emit_preReady (s : State) (o : Output) : (s.emit o).preReady = s.preReady := rfl
@[simp] theorem emit_qps (s : State) (o : Output) : (s.emit o).qps = s.qps := rfl
@[simp] theorem emit_kennel (s : State) (o : Output) : (s.emit o).kennel = s.kennel := rfl
@[simp] theorem emit_wins (s : State) (o : Output) : (s.emit o).wins = s.wins := rfl
@[simp] theorem emit_sheep0 (s : State) (o : Output) : (s.emit o).sheep0 = s.sheep0 := rfl
@[simp] theorem emit_sheep1 (s : State) (o : Output) : (s.emit o).sheep1 = s.sheep1 := rfl
@[simp] theorem emit_tiles (s : State) (o : Output) : (s.emit o).tiles = s.tiles := rfl
@[simp] theorem emit_tileNext (s : State) (o : Output) : (s.emit o).tileNext = s.tileNext := rfl
@[simp] theorem emit_trigs (s : State) (o : Output) : (s.emit o).trigs = s.trigs := rfl
@[simp] theorem emit_trigPend (s : State) (o : Output) : (s.emit o).trigPend = s.trigPend := rfl
@[simp] theorem emit_queues (s : State) (o : Output) : (s.emit o).queues = s.queues := rfl
@[simp] theorem emit_cores (s : State) (o : Output) : (s.emit o).cores = s.cores := rfl
@[simp] theorem emit_clusters (s : State) (o : Output) : (s.emit o).clusters = s.clusters := rfl
@[simp] theorem emit_handles (s : State) (o : Output) : (s.emit o).handles = s.handles := rfl
@[simp] theorem emit_spares (s : State) (o : Output) : (s.emit o).spares = s.spares := rfl
@[simp] theorem emit_digests (s : State) (o : Output) : (s.emit o).digests = s.digests := rfl
@[simp] theorem emit_sec (s : State) (o : Output) : (s.emit o).sec = s.sec := rfl
@[simp] theorem emit_parts (s : State) (o : Output) : (s.emit o).parts = s.parts := rfl
@[simp] theorem emit_colls (s : State) (o : Output) : (s.emit o).colls = s.colls := rfl
@[simp] theorem emit_collEnds (s : State) (o : Output) : (s.emit o).collEnds = s.collEnds := rfl
@[simp] theorem emit_redEnds (s : State) (o : Output) : (s.emit o).redEnds = s.redEnds := rfl
@[simp] theorem emit_collNext (s : State) (o : Output) : (s.emit o).collNext = s.collNext := rfl
@[simp] theorem emit_bars (s : State) (o : Output) : (s.emit o).bars = s.bars := rfl
@[simp] theorem emit_boot (s : State) (o : Output) : (s.emit o).boot = s.boot := rfl
@[simp] theorem emit_memsys (s : State) (o : Output) : (s.emit o).memsys = s.memsys := rfl
@[simp] theorem emit_portRst (s : State) (o : Output) : (s.emit o).portRst = s.portRst := rfl
@[simp] theorem emit_tally (s : State) (o : Output) : (s.emit o).tally = s.tally := rfl
@[simp] theorem emit_pins (s : State) (o : Output) : (s.emit o).pins = s.pins := rfl
@[simp] theorem emit_ddrBad (s : State) (o : Output) : (s.emit o).ddrBad = s.ddrBad := rfl
@[simp] theorem emit_hostMem0 (s : State) (o : Output) : (s.emit o).hostMem0 = s.hostMem0 := rfl
@[simp] theorem emit_hostMem1 (s : State) (o : Output) : (s.emit o).hostMem1 = s.hostMem1 := rfl
@[simp] theorem emit_poisoned (s : State) (o : Output) : (s.emit o).poisoned = s.poisoned := rfl
@[simp] theorem emit_ddr (s : State) (o : Output) : (s.emit o).ddr = s.ddr := rfl
@[simp] theorem emit_freeCtr (s : State) (o : Output) : (s.emit o).freeCtr = s.freeCtr := rfl

/-! emits -/
@[simp] theorem emits_pending (s : State) (l : List Output) : (s.emits l).pending = s.pending := rfl
@[simp] theorem emits_regs (s : State) (l : List Output) : (s.emits l).regs = s.regs := rfl
@[simp] theorem emits_time (s : State) (l : List Output) : (s.emits l).time = s.time := rfl
@[simp] theorem emits_scriv (s : State) (l : List Output) : (s.emits l).scriv = s.scriv := rfl
@[simp] theorem emits_host0 (s : State) (l : List Output) : (s.emits l).host0 = s.host0 := rfl
@[simp] theorem emits_host1 (s : State) (l : List Output) : (s.emits l).host1 = s.host1 := rfl
@[simp] theorem emits_sched (s : State) (l : List Output) : (s.emits l).sched = s.sched := rfl
@[simp] theorem emits_ports (s : State) (l : List Output) : (s.emits l).ports = s.ports := rfl
@[simp] theorem emits_mesh (s : State) (l : List Output) : (s.emits l).mesh = s.mesh := rfl
@[simp] theorem emits_rxq (s : State) (l : List Output) : (s.emits l).rxq = s.rxq := rfl
@[simp] theorem emits_held (s : State) (l : List Output) : (s.emits l).held = s.held := rfl
@[simp] theorem emits_stageIn (s : State) (l : List Output) : (s.emits l).stageIn = s.stageIn := rfl
@[simp] theorem emits_preReady (s : State) (l : List Output) : (s.emits l).preReady = s.preReady := rfl
@[simp] theorem emits_qps (s : State) (l : List Output) : (s.emits l).qps = s.qps := rfl
@[simp] theorem emits_kennel (s : State) (l : List Output) : (s.emits l).kennel = s.kennel := rfl
@[simp] theorem emits_wins (s : State) (l : List Output) : (s.emits l).wins = s.wins := rfl
@[simp] theorem emits_sheep0 (s : State) (l : List Output) : (s.emits l).sheep0 = s.sheep0 := rfl
@[simp] theorem emits_sheep1 (s : State) (l : List Output) : (s.emits l).sheep1 = s.sheep1 := rfl
@[simp] theorem emits_tiles (s : State) (l : List Output) : (s.emits l).tiles = s.tiles := rfl
@[simp] theorem emits_tileNext (s : State) (l : List Output) : (s.emits l).tileNext = s.tileNext := rfl
@[simp] theorem emits_trigs (s : State) (l : List Output) : (s.emits l).trigs = s.trigs := rfl
@[simp] theorem emits_trigPend (s : State) (l : List Output) : (s.emits l).trigPend = s.trigPend := rfl
@[simp] theorem emits_queues (s : State) (l : List Output) : (s.emits l).queues = s.queues := rfl
@[simp] theorem emits_cores (s : State) (l : List Output) : (s.emits l).cores = s.cores := rfl
@[simp] theorem emits_clusters (s : State) (l : List Output) : (s.emits l).clusters = s.clusters := rfl
@[simp] theorem emits_handles (s : State) (l : List Output) : (s.emits l).handles = s.handles := rfl
@[simp] theorem emits_spares (s : State) (l : List Output) : (s.emits l).spares = s.spares := rfl
@[simp] theorem emits_digests (s : State) (l : List Output) : (s.emits l).digests = s.digests := rfl
@[simp] theorem emits_sec (s : State) (l : List Output) : (s.emits l).sec = s.sec := rfl
@[simp] theorem emits_parts (s : State) (l : List Output) : (s.emits l).parts = s.parts := rfl
@[simp] theorem emits_colls (s : State) (l : List Output) : (s.emits l).colls = s.colls := rfl
@[simp] theorem emits_collEnds (s : State) (l : List Output) : (s.emits l).collEnds = s.collEnds := rfl
@[simp] theorem emits_redEnds (s : State) (l : List Output) : (s.emits l).redEnds = s.redEnds := rfl
@[simp] theorem emits_collNext (s : State) (l : List Output) : (s.emits l).collNext = s.collNext := rfl
@[simp] theorem emits_bars (s : State) (l : List Output) : (s.emits l).bars = s.bars := rfl
@[simp] theorem emits_boot (s : State) (l : List Output) : (s.emits l).boot = s.boot := rfl
@[simp] theorem emits_memsys (s : State) (l : List Output) : (s.emits l).memsys = s.memsys := rfl
@[simp] theorem emits_portRst (s : State) (l : List Output) : (s.emits l).portRst = s.portRst := rfl
@[simp] theorem emits_tally (s : State) (l : List Output) : (s.emits l).tally = s.tally := rfl
@[simp] theorem emits_pins (s : State) (l : List Output) : (s.emits l).pins = s.pins := rfl
@[simp] theorem emits_ddrBad (s : State) (l : List Output) : (s.emits l).ddrBad = s.ddrBad := rfl
@[simp] theorem emits_hostMem0 (s : State) (l : List Output) : (s.emits l).hostMem0 = s.hostMem0 := rfl
@[simp] theorem emits_hostMem1 (s : State) (l : List Output) : (s.emits l).hostMem1 = s.hostMem1 := rfl
@[simp] theorem emits_poisoned (s : State) (l : List Output) : (s.emits l).poisoned = s.poisoned := rfl
@[simp] theorem emits_ddr (s : State) (l : List Output) : (s.emits l).ddr = s.ddr := rfl
@[simp] theorem emits_freeCtr (s : State) (l : List Output) : (s.emits l).freeCtr = s.freeCtr := rfl

/-! fresh -/
@[simp] theorem fresh_pending (s : State) : (s.fresh).pending = s.pending := rfl
@[simp] theorem fresh_regs (s : State) : (s.fresh).regs = s.regs := rfl
@[simp] theorem fresh_time (s : State) : (s.fresh).time = s.time := rfl
@[simp] theorem fresh_scriv (s : State) : (s.fresh).scriv = s.scriv := rfl
@[simp] theorem fresh_host0 (s : State) : (s.fresh).host0 = s.host0 := rfl
@[simp] theorem fresh_host1 (s : State) : (s.fresh).host1 = s.host1 := rfl
@[simp] theorem fresh_sched (s : State) : (s.fresh).sched = s.sched := rfl
@[simp] theorem fresh_ports (s : State) : (s.fresh).ports = s.ports := rfl
@[simp] theorem fresh_mesh (s : State) : (s.fresh).mesh = s.mesh := rfl
@[simp] theorem fresh_rxq (s : State) : (s.fresh).rxq = s.rxq := rfl
@[simp] theorem fresh_held (s : State) : (s.fresh).held = s.held := rfl
@[simp] theorem fresh_stageIn (s : State) : (s.fresh).stageIn = s.stageIn := rfl
@[simp] theorem fresh_preReady (s : State) : (s.fresh).preReady = s.preReady := rfl
@[simp] theorem fresh_qps (s : State) : (s.fresh).qps = s.qps := rfl
@[simp] theorem fresh_kennel (s : State) : (s.fresh).kennel = s.kennel := rfl
@[simp] theorem fresh_wins (s : State) : (s.fresh).wins = s.wins := rfl
@[simp] theorem fresh_sheep0 (s : State) : (s.fresh).sheep0 = s.sheep0 := rfl
@[simp] theorem fresh_sheep1 (s : State) : (s.fresh).sheep1 = s.sheep1 := rfl
@[simp] theorem fresh_tiles (s : State) : (s.fresh).tiles = s.tiles := rfl
@[simp] theorem fresh_tileNext (s : State) : (s.fresh).tileNext = s.tileNext := rfl
@[simp] theorem fresh_trigs (s : State) : (s.fresh).trigs = s.trigs := rfl
@[simp] theorem fresh_trigPend (s : State) : (s.fresh).trigPend = s.trigPend := rfl
@[simp] theorem fresh_queues (s : State) : (s.fresh).queues = s.queues := rfl
@[simp] theorem fresh_cores (s : State) : (s.fresh).cores = s.cores := rfl
@[simp] theorem fresh_clusters (s : State) : (s.fresh).clusters = s.clusters := rfl
@[simp] theorem fresh_handles (s : State) : (s.fresh).handles = s.handles := rfl
@[simp] theorem fresh_spares (s : State) : (s.fresh).spares = s.spares := rfl
@[simp] theorem fresh_digests (s : State) : (s.fresh).digests = s.digests := rfl
@[simp] theorem fresh_sec (s : State) : (s.fresh).sec = s.sec := rfl
@[simp] theorem fresh_parts (s : State) : (s.fresh).parts = s.parts := rfl
@[simp] theorem fresh_colls (s : State) : (s.fresh).colls = s.colls := rfl
@[simp] theorem fresh_collEnds (s : State) : (s.fresh).collEnds = s.collEnds := rfl
@[simp] theorem fresh_redEnds (s : State) : (s.fresh).redEnds = s.redEnds := rfl
@[simp] theorem fresh_collNext (s : State) : (s.fresh).collNext = s.collNext := rfl
@[simp] theorem fresh_bars (s : State) : (s.fresh).bars = s.bars := rfl
@[simp] theorem fresh_boot (s : State) : (s.fresh).boot = s.boot := rfl
@[simp] theorem fresh_memsys (s : State) : (s.fresh).memsys = s.memsys := rfl
@[simp] theorem fresh_portRst (s : State) : (s.fresh).portRst = s.portRst := rfl
@[simp] theorem fresh_tally (s : State) : (s.fresh).tally = s.tally := rfl
@[simp] theorem fresh_pins (s : State) : (s.fresh).pins = s.pins := rfl
@[simp] theorem fresh_ddrBad (s : State) : (s.fresh).ddrBad = s.ddrBad := rfl
@[simp] theorem fresh_hostMem0 (s : State) : (s.fresh).hostMem0 = s.hostMem0 := rfl
@[simp] theorem fresh_hostMem1 (s : State) : (s.fresh).hostMem1 = s.hostMem1 := rfl
@[simp] theorem fresh_poisoned (s : State) : (s.fresh).poisoned = s.poisoned := rfl
@[simp] theorem fresh_ddr (s : State) : (s.fresh).ddr = s.ddr := rfl
@[simp] theorem fresh_out (s : State) : (s.fresh).out = s.out := rfl

/-! setPort -/
@[simp] theorem setPort_pending (s : State) (p : Nat) (x : Port) : (s.setPort p x).pending = s.pending := rfl
@[simp] theorem setPort_regs (s : State) (p : Nat) (x : Port) : (s.setPort p x).regs = s.regs := rfl
@[simp] theorem setPort_time (s : State) (p : Nat) (x : Port) : (s.setPort p x).time = s.time := rfl
@[simp] theorem setPort_scriv (s : State) (p : Nat) (x : Port) : (s.setPort p x).scriv = s.scriv := rfl
@[simp] theorem setPort_host0 (s : State) (p : Nat) (x : Port) : (s.setPort p x).host0 = s.host0 := rfl
@[simp] theorem setPort_host1 (s : State) (p : Nat) (x : Port) : (s.setPort p x).host1 = s.host1 := rfl
@[simp] theorem setPort_sched (s : State) (p : Nat) (x : Port) : (s.setPort p x).sched = s.sched := rfl
@[simp] theorem setPort_mesh (s : State) (p : Nat) (x : Port) : (s.setPort p x).mesh = s.mesh := rfl
@[simp] theorem setPort_rxq (s : State) (p : Nat) (x : Port) : (s.setPort p x).rxq = s.rxq := rfl
@[simp] theorem setPort_held (s : State) (p : Nat) (x : Port) : (s.setPort p x).held = s.held := rfl
@[simp] theorem setPort_stageIn (s : State) (p : Nat) (x : Port) : (s.setPort p x).stageIn = s.stageIn := rfl
@[simp] theorem setPort_preReady (s : State) (p : Nat) (x : Port) : (s.setPort p x).preReady = s.preReady := rfl
@[simp] theorem setPort_qps (s : State) (p : Nat) (x : Port) : (s.setPort p x).qps = s.qps := rfl
@[simp] theorem setPort_kennel (s : State) (p : Nat) (x : Port) : (s.setPort p x).kennel = s.kennel := rfl
@[simp] theorem setPort_wins (s : State) (p : Nat) (x : Port) : (s.setPort p x).wins = s.wins := rfl
@[simp] theorem setPort_sheep0 (s : State) (p : Nat) (x : Port) : (s.setPort p x).sheep0 = s.sheep0 := rfl
@[simp] theorem setPort_sheep1 (s : State) (p : Nat) (x : Port) : (s.setPort p x).sheep1 = s.sheep1 := rfl
@[simp] theorem setPort_tiles (s : State) (p : Nat) (x : Port) : (s.setPort p x).tiles = s.tiles := rfl
@[simp] theorem setPort_tileNext (s : State) (p : Nat) (x : Port) : (s.setPort p x).tileNext = s.tileNext := rfl
@[simp] theorem setPort_trigs (s : State) (p : Nat) (x : Port) : (s.setPort p x).trigs = s.trigs := rfl
@[simp] theorem setPort_trigPend (s : State) (p : Nat) (x : Port) : (s.setPort p x).trigPend = s.trigPend := rfl
@[simp] theorem setPort_queues (s : State) (p : Nat) (x : Port) : (s.setPort p x).queues = s.queues := rfl
@[simp] theorem setPort_cores (s : State) (p : Nat) (x : Port) : (s.setPort p x).cores = s.cores := rfl
@[simp] theorem setPort_clusters (s : State) (p : Nat) (x : Port) : (s.setPort p x).clusters = s.clusters := rfl
@[simp] theorem setPort_handles (s : State) (p : Nat) (x : Port) : (s.setPort p x).handles = s.handles := rfl
@[simp] theorem setPort_spares (s : State) (p : Nat) (x : Port) : (s.setPort p x).spares = s.spares := rfl
@[simp] theorem setPort_digests (s : State) (p : Nat) (x : Port) : (s.setPort p x).digests = s.digests := rfl
@[simp] theorem setPort_sec (s : State) (p : Nat) (x : Port) : (s.setPort p x).sec = s.sec := rfl
@[simp] theorem setPort_parts (s : State) (p : Nat) (x : Port) : (s.setPort p x).parts = s.parts := rfl
@[simp] theorem setPort_colls (s : State) (p : Nat) (x : Port) : (s.setPort p x).colls = s.colls := rfl
@[simp] theorem setPort_collEnds (s : State) (p : Nat) (x : Port) : (s.setPort p x).collEnds = s.collEnds := rfl
@[simp] theorem setPort_redEnds (s : State) (p : Nat) (x : Port) : (s.setPort p x).redEnds = s.redEnds := rfl
@[simp] theorem setPort_collNext (s : State) (p : Nat) (x : Port) : (s.setPort p x).collNext = s.collNext := rfl
@[simp] theorem setPort_bars (s : State) (p : Nat) (x : Port) : (s.setPort p x).bars = s.bars := rfl
@[simp] theorem setPort_boot (s : State) (p : Nat) (x : Port) : (s.setPort p x).boot = s.boot := rfl
@[simp] theorem setPort_memsys (s : State) (p : Nat) (x : Port) : (s.setPort p x).memsys = s.memsys := rfl
@[simp] theorem setPort_portRst (s : State) (p : Nat) (x : Port) : (s.setPort p x).portRst = s.portRst := rfl
@[simp] theorem setPort_tally (s : State) (p : Nat) (x : Port) : (s.setPort p x).tally = s.tally := rfl
@[simp] theorem setPort_pins (s : State) (p : Nat) (x : Port) : (s.setPort p x).pins = s.pins := rfl
@[simp] theorem setPort_ddrBad (s : State) (p : Nat) (x : Port) : (s.setPort p x).ddrBad = s.ddrBad := rfl
@[simp] theorem setPort_hostMem0 (s : State) (p : Nat) (x : Port) : (s.setPort p x).hostMem0 = s.hostMem0 := rfl
@[simp] theorem setPort_hostMem1 (s : State) (p : Nat) (x : Port) : (s.setPort p x).hostMem1 = s.hostMem1 := rfl
@[simp] theorem setPort_poisoned (s : State) (p : Nat) (x : Port) : (s.setPort p x).poisoned = s.poisoned := rfl
@[simp] theorem setPort_ddr (s : State) (p : Nat) (x : Port) : (s.setPort p x).ddr = s.ddr := rfl
@[simp] theorem setPort_out (s : State) (p : Nat) (x : Port) : (s.setPort p x).out = s.out := rfl
@[simp] theorem setPort_freeCtr (s : State) (p : Nat) (x : Port) : (s.setPort p x).freeCtr = s.freeCtr := rfl

/-! setQp -/
@[simp] theorem setQp_pending (s : State) (q : Nat) (x : Qp) : (s.setQp q x).pending = s.pending := rfl
@[simp] theorem setQp_regs (s : State) (q : Nat) (x : Qp) : (s.setQp q x).regs = s.regs := rfl
@[simp] theorem setQp_time (s : State) (q : Nat) (x : Qp) : (s.setQp q x).time = s.time := rfl
@[simp] theorem setQp_scriv (s : State) (q : Nat) (x : Qp) : (s.setQp q x).scriv = s.scriv := rfl
@[simp] theorem setQp_host0 (s : State) (q : Nat) (x : Qp) : (s.setQp q x).host0 = s.host0 := rfl
@[simp] theorem setQp_host1 (s : State) (q : Nat) (x : Qp) : (s.setQp q x).host1 = s.host1 := rfl
@[simp] theorem setQp_sched (s : State) (q : Nat) (x : Qp) : (s.setQp q x).sched = s.sched := rfl
@[simp] theorem setQp_ports (s : State) (q : Nat) (x : Qp) : (s.setQp q x).ports = s.ports := rfl
@[simp] theorem setQp_mesh (s : State) (q : Nat) (x : Qp) : (s.setQp q x).mesh = s.mesh := rfl
@[simp] theorem setQp_rxq (s : State) (q : Nat) (x : Qp) : (s.setQp q x).rxq = s.rxq := rfl
@[simp] theorem setQp_held (s : State) (q : Nat) (x : Qp) : (s.setQp q x).held = s.held := rfl
@[simp] theorem setQp_stageIn (s : State) (q : Nat) (x : Qp) : (s.setQp q x).stageIn = s.stageIn := rfl
@[simp] theorem setQp_preReady (s : State) (q : Nat) (x : Qp) : (s.setQp q x).preReady = s.preReady := rfl
@[simp] theorem setQp_kennel (s : State) (q : Nat) (x : Qp) : (s.setQp q x).kennel = s.kennel := rfl
@[simp] theorem setQp_wins (s : State) (q : Nat) (x : Qp) : (s.setQp q x).wins = s.wins := rfl
@[simp] theorem setQp_sheep0 (s : State) (q : Nat) (x : Qp) : (s.setQp q x).sheep0 = s.sheep0 := rfl
@[simp] theorem setQp_sheep1 (s : State) (q : Nat) (x : Qp) : (s.setQp q x).sheep1 = s.sheep1 := rfl
@[simp] theorem setQp_tiles (s : State) (q : Nat) (x : Qp) : (s.setQp q x).tiles = s.tiles := rfl
@[simp] theorem setQp_tileNext (s : State) (q : Nat) (x : Qp) : (s.setQp q x).tileNext = s.tileNext := rfl
@[simp] theorem setQp_trigs (s : State) (q : Nat) (x : Qp) : (s.setQp q x).trigs = s.trigs := rfl
@[simp] theorem setQp_trigPend (s : State) (q : Nat) (x : Qp) : (s.setQp q x).trigPend = s.trigPend := rfl
@[simp] theorem setQp_queues (s : State) (q : Nat) (x : Qp) : (s.setQp q x).queues = s.queues := rfl
@[simp] theorem setQp_cores (s : State) (q : Nat) (x : Qp) : (s.setQp q x).cores = s.cores := rfl
@[simp] theorem setQp_clusters (s : State) (q : Nat) (x : Qp) : (s.setQp q x).clusters = s.clusters := rfl
@[simp] theorem setQp_handles (s : State) (q : Nat) (x : Qp) : (s.setQp q x).handles = s.handles := rfl
@[simp] theorem setQp_spares (s : State) (q : Nat) (x : Qp) : (s.setQp q x).spares = s.spares := rfl
@[simp] theorem setQp_digests (s : State) (q : Nat) (x : Qp) : (s.setQp q x).digests = s.digests := rfl
@[simp] theorem setQp_sec (s : State) (q : Nat) (x : Qp) : (s.setQp q x).sec = s.sec := rfl
@[simp] theorem setQp_parts (s : State) (q : Nat) (x : Qp) : (s.setQp q x).parts = s.parts := rfl
@[simp] theorem setQp_colls (s : State) (q : Nat) (x : Qp) : (s.setQp q x).colls = s.colls := rfl
@[simp] theorem setQp_collEnds (s : State) (q : Nat) (x : Qp) : (s.setQp q x).collEnds = s.collEnds := rfl
@[simp] theorem setQp_redEnds (s : State) (q : Nat) (x : Qp) : (s.setQp q x).redEnds = s.redEnds := rfl
@[simp] theorem setQp_collNext (s : State) (q : Nat) (x : Qp) : (s.setQp q x).collNext = s.collNext := rfl
@[simp] theorem setQp_bars (s : State) (q : Nat) (x : Qp) : (s.setQp q x).bars = s.bars := rfl
@[simp] theorem setQp_boot (s : State) (q : Nat) (x : Qp) : (s.setQp q x).boot = s.boot := rfl
@[simp] theorem setQp_memsys (s : State) (q : Nat) (x : Qp) : (s.setQp q x).memsys = s.memsys := rfl
@[simp] theorem setQp_portRst (s : State) (q : Nat) (x : Qp) : (s.setQp q x).portRst = s.portRst := rfl
@[simp] theorem setQp_tally (s : State) (q : Nat) (x : Qp) : (s.setQp q x).tally = s.tally := rfl
@[simp] theorem setQp_pins (s : State) (q : Nat) (x : Qp) : (s.setQp q x).pins = s.pins := rfl
@[simp] theorem setQp_ddrBad (s : State) (q : Nat) (x : Qp) : (s.setQp q x).ddrBad = s.ddrBad := rfl
@[simp] theorem setQp_hostMem0 (s : State) (q : Nat) (x : Qp) : (s.setQp q x).hostMem0 = s.hostMem0 := rfl
@[simp] theorem setQp_hostMem1 (s : State) (q : Nat) (x : Qp) : (s.setQp q x).hostMem1 = s.hostMem1 := rfl
@[simp] theorem setQp_poisoned (s : State) (q : Nat) (x : Qp) : (s.setQp q x).poisoned = s.poisoned := rfl
@[simp] theorem setQp_ddr (s : State) (q : Nat) (x : Qp) : (s.setQp q x).ddr = s.ddr := rfl
@[simp] theorem setQp_out (s : State) (q : Nat) (x : Qp) : (s.setQp q x).out = s.out := rfl
@[simp] theorem setQp_freeCtr (s : State) (q : Nat) (x : Qp) : (s.setQp q x).freeCtr = s.freeCtr := rfl

/-! setCore -/
@[simp] theorem setCore_pending (s : State) (c : Nat) (x : Core) : (s.setCore c x).pending = s.pending := rfl
@[simp] theorem setCore_regs (s : State) (c : Nat) (x : Core) : (s.setCore c x).regs = s.regs := rfl
@[simp] theorem setCore_time (s : State) (c : Nat) (x : Core) : (s.setCore c x).time = s.time := rfl
@[simp] theorem setCore_scriv (s : State) (c : Nat) (x : Core) : (s.setCore c x).scriv = s.scriv := rfl
@[simp] theorem setCore_host0 (s : State) (c : Nat) (x : Core) : (s.setCore c x).host0 = s.host0 := rfl
@[simp] theorem setCore_host1 (s : State) (c : Nat) (x : Core) : (s.setCore c x).host1 = s.host1 := rfl
@[simp] theorem setCore_sched (s : State) (c : Nat) (x : Core) : (s.setCore c x).sched = s.sched := rfl
@[simp] theorem setCore_ports (s : State) (c : Nat) (x : Core) : (s.setCore c x).ports = s.ports := rfl
@[simp] theorem setCore_mesh (s : State) (c : Nat) (x : Core) : (s.setCore c x).mesh = s.mesh := rfl
@[simp] theorem setCore_rxq (s : State) (c : Nat) (x : Core) : (s.setCore c x).rxq = s.rxq := rfl
@[simp] theorem setCore_held (s : State) (c : Nat) (x : Core) : (s.setCore c x).held = s.held := rfl
@[simp] theorem setCore_stageIn (s : State) (c : Nat) (x : Core) : (s.setCore c x).stageIn = s.stageIn := rfl
@[simp] theorem setCore_preReady (s : State) (c : Nat) (x : Core) : (s.setCore c x).preReady = s.preReady := rfl
@[simp] theorem setCore_qps (s : State) (c : Nat) (x : Core) : (s.setCore c x).qps = s.qps := rfl
@[simp] theorem setCore_kennel (s : State) (c : Nat) (x : Core) : (s.setCore c x).kennel = s.kennel := rfl
@[simp] theorem setCore_wins (s : State) (c : Nat) (x : Core) : (s.setCore c x).wins = s.wins := rfl
@[simp] theorem setCore_sheep0 (s : State) (c : Nat) (x : Core) : (s.setCore c x).sheep0 = s.sheep0 := rfl
@[simp] theorem setCore_sheep1 (s : State) (c : Nat) (x : Core) : (s.setCore c x).sheep1 = s.sheep1 := rfl
@[simp] theorem setCore_tiles (s : State) (c : Nat) (x : Core) : (s.setCore c x).tiles = s.tiles := rfl
@[simp] theorem setCore_tileNext (s : State) (c : Nat) (x : Core) : (s.setCore c x).tileNext = s.tileNext := rfl
@[simp] theorem setCore_trigs (s : State) (c : Nat) (x : Core) : (s.setCore c x).trigs = s.trigs := rfl
@[simp] theorem setCore_trigPend (s : State) (c : Nat) (x : Core) : (s.setCore c x).trigPend = s.trigPend := rfl
@[simp] theorem setCore_queues (s : State) (c : Nat) (x : Core) : (s.setCore c x).queues = s.queues := rfl
@[simp] theorem setCore_clusters (s : State) (c : Nat) (x : Core) : (s.setCore c x).clusters = s.clusters := rfl
@[simp] theorem setCore_handles (s : State) (c : Nat) (x : Core) : (s.setCore c x).handles = s.handles := rfl
@[simp] theorem setCore_spares (s : State) (c : Nat) (x : Core) : (s.setCore c x).spares = s.spares := rfl
@[simp] theorem setCore_digests (s : State) (c : Nat) (x : Core) : (s.setCore c x).digests = s.digests := rfl
@[simp] theorem setCore_sec (s : State) (c : Nat) (x : Core) : (s.setCore c x).sec = s.sec := rfl
@[simp] theorem setCore_parts (s : State) (c : Nat) (x : Core) : (s.setCore c x).parts = s.parts := rfl
@[simp] theorem setCore_colls (s : State) (c : Nat) (x : Core) : (s.setCore c x).colls = s.colls := rfl
@[simp] theorem setCore_collEnds (s : State) (c : Nat) (x : Core) : (s.setCore c x).collEnds = s.collEnds := rfl
@[simp] theorem setCore_redEnds (s : State) (c : Nat) (x : Core) : (s.setCore c x).redEnds = s.redEnds := rfl
@[simp] theorem setCore_collNext (s : State) (c : Nat) (x : Core) : (s.setCore c x).collNext = s.collNext := rfl
@[simp] theorem setCore_bars (s : State) (c : Nat) (x : Core) : (s.setCore c x).bars = s.bars := rfl
@[simp] theorem setCore_boot (s : State) (c : Nat) (x : Core) : (s.setCore c x).boot = s.boot := rfl
@[simp] theorem setCore_memsys (s : State) (c : Nat) (x : Core) : (s.setCore c x).memsys = s.memsys := rfl
@[simp] theorem setCore_portRst (s : State) (c : Nat) (x : Core) : (s.setCore c x).portRst = s.portRst := rfl
@[simp] theorem setCore_tally (s : State) (c : Nat) (x : Core) : (s.setCore c x).tally = s.tally := rfl
@[simp] theorem setCore_pins (s : State) (c : Nat) (x : Core) : (s.setCore c x).pins = s.pins := rfl
@[simp] theorem setCore_ddrBad (s : State) (c : Nat) (x : Core) : (s.setCore c x).ddrBad = s.ddrBad := rfl
@[simp] theorem setCore_hostMem0 (s : State) (c : Nat) (x : Core) : (s.setCore c x).hostMem0 = s.hostMem0 := rfl
@[simp] theorem setCore_hostMem1 (s : State) (c : Nat) (x : Core) : (s.setCore c x).hostMem1 = s.hostMem1 := rfl
@[simp] theorem setCore_poisoned (s : State) (c : Nat) (x : Core) : (s.setCore c x).poisoned = s.poisoned := rfl
@[simp] theorem setCore_ddr (s : State) (c : Nat) (x : Core) : (s.setCore c x).ddr = s.ddr := rfl
@[simp] theorem setCore_out (s : State) (c : Nat) (x : Core) : (s.setCore c x).out = s.out := rfl
@[simp] theorem setCore_freeCtr (s : State) (c : Nat) (x : Core) : (s.setCore c x).freeCtr = s.freeCtr := rfl

/-! setCluster -/
@[simp] theorem setCluster_pending (s : State) (k : Nat) (x : Cluster) : (s.setCluster k x).pending = s.pending := rfl
@[simp] theorem setCluster_regs (s : State) (k : Nat) (x : Cluster) : (s.setCluster k x).regs = s.regs := rfl
@[simp] theorem setCluster_time (s : State) (k : Nat) (x : Cluster) : (s.setCluster k x).time = s.time := rfl
@[simp] theorem setCluster_scriv (s : State) (k : Nat) (x : Cluster) : (s.setCluster k x).scriv = s.scriv := rfl
@[simp] theorem setCluster_host0 (s : State) (k : Nat) (x : Cluster) : (s.setCluster k x).host0 = s.host0 := rfl
@[simp] theorem setCluster_host1 (s : State) (k : Nat) (x : Cluster) : (s.setCluster k x).host1 = s.host1 := rfl
@[simp] theorem setCluster_sched (s : State) (k : Nat) (x : Cluster) : (s.setCluster k x).sched = s.sched := rfl
@[simp] theorem setCluster_ports (s : State) (k : Nat) (x : Cluster) : (s.setCluster k x).ports = s.ports := rfl
@[simp] theorem setCluster_mesh (s : State) (k : Nat) (x : Cluster) : (s.setCluster k x).mesh = s.mesh := rfl
@[simp] theorem setCluster_rxq (s : State) (k : Nat) (x : Cluster) : (s.setCluster k x).rxq = s.rxq := rfl
@[simp] theorem setCluster_held (s : State) (k : Nat) (x : Cluster) : (s.setCluster k x).held = s.held := rfl
@[simp] theorem setCluster_stageIn (s : State) (k : Nat) (x : Cluster) : (s.setCluster k x).stageIn = s.stageIn := rfl
@[simp] theorem setCluster_preReady (s : State) (k : Nat) (x : Cluster) : (s.setCluster k x).preReady = s.preReady := rfl
@[simp] theorem setCluster_qps (s : State) (k : Nat) (x : Cluster) : (s.setCluster k x).qps = s.qps := rfl
@[simp] theorem setCluster_kennel (s : State) (k : Nat) (x : Cluster) : (s.setCluster k x).kennel = s.kennel := rfl
@[simp] theorem setCluster_wins (s : State) (k : Nat) (x : Cluster) : (s.setCluster k x).wins = s.wins := rfl
@[simp] theorem setCluster_sheep0 (s : State) (k : Nat) (x : Cluster) : (s.setCluster k x).sheep0 = s.sheep0 := rfl
@[simp] theorem setCluster_sheep1 (s : State) (k : Nat) (x : Cluster) : (s.setCluster k x).sheep1 = s.sheep1 := rfl
@[simp] theorem setCluster_tiles (s : State) (k : Nat) (x : Cluster) : (s.setCluster k x).tiles = s.tiles := rfl
@[simp] theorem setCluster_tileNext (s : State) (k : Nat) (x : Cluster) : (s.setCluster k x).tileNext = s.tileNext := rfl
@[simp] theorem setCluster_trigs (s : State) (k : Nat) (x : Cluster) : (s.setCluster k x).trigs = s.trigs := rfl
@[simp] theorem setCluster_trigPend (s : State) (k : Nat) (x : Cluster) : (s.setCluster k x).trigPend = s.trigPend := rfl
@[simp] theorem setCluster_queues (s : State) (k : Nat) (x : Cluster) : (s.setCluster k x).queues = s.queues := rfl
@[simp] theorem setCluster_cores (s : State) (k : Nat) (x : Cluster) : (s.setCluster k x).cores = s.cores := rfl
@[simp] theorem setCluster_handles (s : State) (k : Nat) (x : Cluster) : (s.setCluster k x).handles = s.handles := rfl
@[simp] theorem setCluster_spares (s : State) (k : Nat) (x : Cluster) : (s.setCluster k x).spares = s.spares := rfl
@[simp] theorem setCluster_digests (s : State) (k : Nat) (x : Cluster) : (s.setCluster k x).digests = s.digests := rfl
@[simp] theorem setCluster_sec (s : State) (k : Nat) (x : Cluster) : (s.setCluster k x).sec = s.sec := rfl
@[simp] theorem setCluster_parts (s : State) (k : Nat) (x : Cluster) : (s.setCluster k x).parts = s.parts := rfl
@[simp] theorem setCluster_colls (s : State) (k : Nat) (x : Cluster) : (s.setCluster k x).colls = s.colls := rfl
@[simp] theorem setCluster_collEnds (s : State) (k : Nat) (x : Cluster) : (s.setCluster k x).collEnds = s.collEnds := rfl
@[simp] theorem setCluster_redEnds (s : State) (k : Nat) (x : Cluster) : (s.setCluster k x).redEnds = s.redEnds := rfl
@[simp] theorem setCluster_collNext (s : State) (k : Nat) (x : Cluster) : (s.setCluster k x).collNext = s.collNext := rfl
@[simp] theorem setCluster_bars (s : State) (k : Nat) (x : Cluster) : (s.setCluster k x).bars = s.bars := rfl
@[simp] theorem setCluster_boot (s : State) (k : Nat) (x : Cluster) : (s.setCluster k x).boot = s.boot := rfl
@[simp] theorem setCluster_memsys (s : State) (k : Nat) (x : Cluster) : (s.setCluster k x).memsys = s.memsys := rfl
@[simp] theorem setCluster_portRst (s : State) (k : Nat) (x : Cluster) : (s.setCluster k x).portRst = s.portRst := rfl
@[simp] theorem setCluster_tally (s : State) (k : Nat) (x : Cluster) : (s.setCluster k x).tally = s.tally := rfl
@[simp] theorem setCluster_pins (s : State) (k : Nat) (x : Cluster) : (s.setCluster k x).pins = s.pins := rfl
@[simp] theorem setCluster_ddrBad (s : State) (k : Nat) (x : Cluster) : (s.setCluster k x).ddrBad = s.ddrBad := rfl
@[simp] theorem setCluster_hostMem0 (s : State) (k : Nat) (x : Cluster) : (s.setCluster k x).hostMem0 = s.hostMem0 := rfl
@[simp] theorem setCluster_hostMem1 (s : State) (k : Nat) (x : Cluster) : (s.setCluster k x).hostMem1 = s.hostMem1 := rfl
@[simp] theorem setCluster_poisoned (s : State) (k : Nat) (x : Cluster) : (s.setCluster k x).poisoned = s.poisoned := rfl
@[simp] theorem setCluster_ddr (s : State) (k : Nat) (x : Cluster) : (s.setCluster k x).ddr = s.ddr := rfl
@[simp] theorem setCluster_out (s : State) (k : Nat) (x : Cluster) : (s.setCluster k x).out = s.out := rfl
@[simp] theorem setCluster_freeCtr (s : State) (k : Nat) (x : Cluster) : (s.setCluster k x).freeCtr = s.freeCtr := rfl

/-! setQueue -/
@[simp] theorem setQueue_pending (s : State) (n : Nat) (x : Queue) : (s.setQueue n x).pending = s.pending := rfl
@[simp] theorem setQueue_regs (s : State) (n : Nat) (x : Queue) : (s.setQueue n x).regs = s.regs := rfl
@[simp] theorem setQueue_time (s : State) (n : Nat) (x : Queue) : (s.setQueue n x).time = s.time := rfl
@[simp] theorem setQueue_scriv (s : State) (n : Nat) (x : Queue) : (s.setQueue n x).scriv = s.scriv := rfl
@[simp] theorem setQueue_host0 (s : State) (n : Nat) (x : Queue) : (s.setQueue n x).host0 = s.host0 := rfl
@[simp] theorem setQueue_host1 (s : State) (n : Nat) (x : Queue) : (s.setQueue n x).host1 = s.host1 := rfl
@[simp] theorem setQueue_sched (s : State) (n : Nat) (x : Queue) : (s.setQueue n x).sched = s.sched := rfl
@[simp] theorem setQueue_ports (s : State) (n : Nat) (x : Queue) : (s.setQueue n x).ports = s.ports := rfl
@[simp] theorem setQueue_mesh (s : State) (n : Nat) (x : Queue) : (s.setQueue n x).mesh = s.mesh := rfl
@[simp] theorem setQueue_rxq (s : State) (n : Nat) (x : Queue) : (s.setQueue n x).rxq = s.rxq := rfl
@[simp] theorem setQueue_held (s : State) (n : Nat) (x : Queue) : (s.setQueue n x).held = s.held := rfl
@[simp] theorem setQueue_stageIn (s : State) (n : Nat) (x : Queue) : (s.setQueue n x).stageIn = s.stageIn := rfl
@[simp] theorem setQueue_preReady (s : State) (n : Nat) (x : Queue) : (s.setQueue n x).preReady = s.preReady := rfl
@[simp] theorem setQueue_qps (s : State) (n : Nat) (x : Queue) : (s.setQueue n x).qps = s.qps := rfl
@[simp] theorem setQueue_kennel (s : State) (n : Nat) (x : Queue) : (s.setQueue n x).kennel = s.kennel := rfl
@[simp] theorem setQueue_wins (s : State) (n : Nat) (x : Queue) : (s.setQueue n x).wins = s.wins := rfl
@[simp] theorem setQueue_sheep0 (s : State) (n : Nat) (x : Queue) : (s.setQueue n x).sheep0 = s.sheep0 := rfl
@[simp] theorem setQueue_sheep1 (s : State) (n : Nat) (x : Queue) : (s.setQueue n x).sheep1 = s.sheep1 := rfl
@[simp] theorem setQueue_tiles (s : State) (n : Nat) (x : Queue) : (s.setQueue n x).tiles = s.tiles := rfl
@[simp] theorem setQueue_tileNext (s : State) (n : Nat) (x : Queue) : (s.setQueue n x).tileNext = s.tileNext := rfl
@[simp] theorem setQueue_trigs (s : State) (n : Nat) (x : Queue) : (s.setQueue n x).trigs = s.trigs := rfl
@[simp] theorem setQueue_trigPend (s : State) (n : Nat) (x : Queue) : (s.setQueue n x).trigPend = s.trigPend := rfl
@[simp] theorem setQueue_cores (s : State) (n : Nat) (x : Queue) : (s.setQueue n x).cores = s.cores := rfl
@[simp] theorem setQueue_clusters (s : State) (n : Nat) (x : Queue) : (s.setQueue n x).clusters = s.clusters := rfl
@[simp] theorem setQueue_handles (s : State) (n : Nat) (x : Queue) : (s.setQueue n x).handles = s.handles := rfl
@[simp] theorem setQueue_spares (s : State) (n : Nat) (x : Queue) : (s.setQueue n x).spares = s.spares := rfl
@[simp] theorem setQueue_digests (s : State) (n : Nat) (x : Queue) : (s.setQueue n x).digests = s.digests := rfl
@[simp] theorem setQueue_sec (s : State) (n : Nat) (x : Queue) : (s.setQueue n x).sec = s.sec := rfl
@[simp] theorem setQueue_parts (s : State) (n : Nat) (x : Queue) : (s.setQueue n x).parts = s.parts := rfl
@[simp] theorem setQueue_colls (s : State) (n : Nat) (x : Queue) : (s.setQueue n x).colls = s.colls := rfl
@[simp] theorem setQueue_collEnds (s : State) (n : Nat) (x : Queue) : (s.setQueue n x).collEnds = s.collEnds := rfl
@[simp] theorem setQueue_redEnds (s : State) (n : Nat) (x : Queue) : (s.setQueue n x).redEnds = s.redEnds := rfl
@[simp] theorem setQueue_collNext (s : State) (n : Nat) (x : Queue) : (s.setQueue n x).collNext = s.collNext := rfl
@[simp] theorem setQueue_bars (s : State) (n : Nat) (x : Queue) : (s.setQueue n x).bars = s.bars := rfl
@[simp] theorem setQueue_boot (s : State) (n : Nat) (x : Queue) : (s.setQueue n x).boot = s.boot := rfl
@[simp] theorem setQueue_memsys (s : State) (n : Nat) (x : Queue) : (s.setQueue n x).memsys = s.memsys := rfl
@[simp] theorem setQueue_portRst (s : State) (n : Nat) (x : Queue) : (s.setQueue n x).portRst = s.portRst := rfl
@[simp] theorem setQueue_tally (s : State) (n : Nat) (x : Queue) : (s.setQueue n x).tally = s.tally := rfl
@[simp] theorem setQueue_pins (s : State) (n : Nat) (x : Queue) : (s.setQueue n x).pins = s.pins := rfl
@[simp] theorem setQueue_ddrBad (s : State) (n : Nat) (x : Queue) : (s.setQueue n x).ddrBad = s.ddrBad := rfl
@[simp] theorem setQueue_hostMem0 (s : State) (n : Nat) (x : Queue) : (s.setQueue n x).hostMem0 = s.hostMem0 := rfl
@[simp] theorem setQueue_hostMem1 (s : State) (n : Nat) (x : Queue) : (s.setQueue n x).hostMem1 = s.hostMem1 := rfl
@[simp] theorem setQueue_poisoned (s : State) (n : Nat) (x : Queue) : (s.setQueue n x).poisoned = s.poisoned := rfl
@[simp] theorem setQueue_ddr (s : State) (n : Nat) (x : Queue) : (s.setQueue n x).ddr = s.ddr := rfl
@[simp] theorem setQueue_out (s : State) (n : Nat) (x : Queue) : (s.setQueue n x).out = s.out := rfl
@[simp] theorem setQueue_freeCtr (s : State) (n : Nat) (x : Queue) : (s.setQueue n x).freeCtr = s.freeCtr := rfl

/-! setTrig -/
@[simp] theorem setTrig_pending (s : State) (i : Nat) (x : TrigSlot) : (s.setTrig i x).pending = s.pending := rfl
@[simp] theorem setTrig_regs (s : State) (i : Nat) (x : TrigSlot) : (s.setTrig i x).regs = s.regs := rfl
@[simp] theorem setTrig_time (s : State) (i : Nat) (x : TrigSlot) : (s.setTrig i x).time = s.time := rfl
@[simp] theorem setTrig_scriv (s : State) (i : Nat) (x : TrigSlot) : (s.setTrig i x).scriv = s.scriv := rfl
@[simp] theorem setTrig_host0 (s : State) (i : Nat) (x : TrigSlot) : (s.setTrig i x).host0 = s.host0 := rfl
@[simp] theorem setTrig_host1 (s : State) (i : Nat) (x : TrigSlot) : (s.setTrig i x).host1 = s.host1 := rfl
@[simp] theorem setTrig_sched (s : State) (i : Nat) (x : TrigSlot) : (s.setTrig i x).sched = s.sched := rfl
@[simp] theorem setTrig_ports (s : State) (i : Nat) (x : TrigSlot) : (s.setTrig i x).ports = s.ports := rfl
@[simp] theorem setTrig_mesh (s : State) (i : Nat) (x : TrigSlot) : (s.setTrig i x).mesh = s.mesh := rfl
@[simp] theorem setTrig_rxq (s : State) (i : Nat) (x : TrigSlot) : (s.setTrig i x).rxq = s.rxq := rfl
@[simp] theorem setTrig_held (s : State) (i : Nat) (x : TrigSlot) : (s.setTrig i x).held = s.held := rfl
@[simp] theorem setTrig_stageIn (s : State) (i : Nat) (x : TrigSlot) : (s.setTrig i x).stageIn = s.stageIn := rfl
@[simp] theorem setTrig_preReady (s : State) (i : Nat) (x : TrigSlot) : (s.setTrig i x).preReady = s.preReady := rfl
@[simp] theorem setTrig_qps (s : State) (i : Nat) (x : TrigSlot) : (s.setTrig i x).qps = s.qps := rfl
@[simp] theorem setTrig_kennel (s : State) (i : Nat) (x : TrigSlot) : (s.setTrig i x).kennel = s.kennel := rfl
@[simp] theorem setTrig_wins (s : State) (i : Nat) (x : TrigSlot) : (s.setTrig i x).wins = s.wins := rfl
@[simp] theorem setTrig_sheep0 (s : State) (i : Nat) (x : TrigSlot) : (s.setTrig i x).sheep0 = s.sheep0 := rfl
@[simp] theorem setTrig_sheep1 (s : State) (i : Nat) (x : TrigSlot) : (s.setTrig i x).sheep1 = s.sheep1 := rfl
@[simp] theorem setTrig_tiles (s : State) (i : Nat) (x : TrigSlot) : (s.setTrig i x).tiles = s.tiles := rfl
@[simp] theorem setTrig_tileNext (s : State) (i : Nat) (x : TrigSlot) : (s.setTrig i x).tileNext = s.tileNext := rfl
@[simp] theorem setTrig_trigPend (s : State) (i : Nat) (x : TrigSlot) : (s.setTrig i x).trigPend = s.trigPend := rfl
@[simp] theorem setTrig_queues (s : State) (i : Nat) (x : TrigSlot) : (s.setTrig i x).queues = s.queues := rfl
@[simp] theorem setTrig_cores (s : State) (i : Nat) (x : TrigSlot) : (s.setTrig i x).cores = s.cores := rfl
@[simp] theorem setTrig_clusters (s : State) (i : Nat) (x : TrigSlot) : (s.setTrig i x).clusters = s.clusters := rfl
@[simp] theorem setTrig_handles (s : State) (i : Nat) (x : TrigSlot) : (s.setTrig i x).handles = s.handles := rfl
@[simp] theorem setTrig_spares (s : State) (i : Nat) (x : TrigSlot) : (s.setTrig i x).spares = s.spares := rfl
@[simp] theorem setTrig_digests (s : State) (i : Nat) (x : TrigSlot) : (s.setTrig i x).digests = s.digests := rfl
@[simp] theorem setTrig_sec (s : State) (i : Nat) (x : TrigSlot) : (s.setTrig i x).sec = s.sec := rfl
@[simp] theorem setTrig_parts (s : State) (i : Nat) (x : TrigSlot) : (s.setTrig i x).parts = s.parts := rfl
@[simp] theorem setTrig_colls (s : State) (i : Nat) (x : TrigSlot) : (s.setTrig i x).colls = s.colls := rfl
@[simp] theorem setTrig_collEnds (s : State) (i : Nat) (x : TrigSlot) : (s.setTrig i x).collEnds = s.collEnds := rfl
@[simp] theorem setTrig_redEnds (s : State) (i : Nat) (x : TrigSlot) : (s.setTrig i x).redEnds = s.redEnds := rfl
@[simp] theorem setTrig_collNext (s : State) (i : Nat) (x : TrigSlot) : (s.setTrig i x).collNext = s.collNext := rfl
@[simp] theorem setTrig_bars (s : State) (i : Nat) (x : TrigSlot) : (s.setTrig i x).bars = s.bars := rfl
@[simp] theorem setTrig_boot (s : State) (i : Nat) (x : TrigSlot) : (s.setTrig i x).boot = s.boot := rfl
@[simp] theorem setTrig_memsys (s : State) (i : Nat) (x : TrigSlot) : (s.setTrig i x).memsys = s.memsys := rfl
@[simp] theorem setTrig_portRst (s : State) (i : Nat) (x : TrigSlot) : (s.setTrig i x).portRst = s.portRst := rfl
@[simp] theorem setTrig_tally (s : State) (i : Nat) (x : TrigSlot) : (s.setTrig i x).tally = s.tally := rfl
@[simp] theorem setTrig_pins (s : State) (i : Nat) (x : TrigSlot) : (s.setTrig i x).pins = s.pins := rfl
@[simp] theorem setTrig_ddrBad (s : State) (i : Nat) (x : TrigSlot) : (s.setTrig i x).ddrBad = s.ddrBad := rfl
@[simp] theorem setTrig_hostMem0 (s : State) (i : Nat) (x : TrigSlot) : (s.setTrig i x).hostMem0 = s.hostMem0 := rfl
@[simp] theorem setTrig_hostMem1 (s : State) (i : Nat) (x : TrigSlot) : (s.setTrig i x).hostMem1 = s.hostMem1 := rfl
@[simp] theorem setTrig_poisoned (s : State) (i : Nat) (x : TrigSlot) : (s.setTrig i x).poisoned = s.poisoned := rfl
@[simp] theorem setTrig_ddr (s : State) (i : Nat) (x : TrigSlot) : (s.setTrig i x).ddr = s.ddr := rfl
@[simp] theorem setTrig_out (s : State) (i : Nat) (x : TrigSlot) : (s.setTrig i x).out = s.out := rfl
@[simp] theorem setTrig_freeCtr (s : State) (i : Nat) (x : TrigSlot) : (s.setTrig i x).freeCtr = s.freeCtr := rfl

/-! setBar -/
@[simp] theorem setBar_pending (s : State) (n : Nat) (x : BarUnit) : (s.setBar n x).pending = s.pending := rfl
@[simp] theorem setBar_regs (s : State) (n : Nat) (x : BarUnit) : (s.setBar n x).regs = s.regs := rfl
@[simp] theorem setBar_time (s : State) (n : Nat) (x : BarUnit) : (s.setBar n x).time = s.time := rfl
@[simp] theorem setBar_scriv (s : State) (n : Nat) (x : BarUnit) : (s.setBar n x).scriv = s.scriv := rfl
@[simp] theorem setBar_host0 (s : State) (n : Nat) (x : BarUnit) : (s.setBar n x).host0 = s.host0 := rfl
@[simp] theorem setBar_host1 (s : State) (n : Nat) (x : BarUnit) : (s.setBar n x).host1 = s.host1 := rfl
@[simp] theorem setBar_sched (s : State) (n : Nat) (x : BarUnit) : (s.setBar n x).sched = s.sched := rfl
@[simp] theorem setBar_ports (s : State) (n : Nat) (x : BarUnit) : (s.setBar n x).ports = s.ports := rfl
@[simp] theorem setBar_mesh (s : State) (n : Nat) (x : BarUnit) : (s.setBar n x).mesh = s.mesh := rfl
@[simp] theorem setBar_rxq (s : State) (n : Nat) (x : BarUnit) : (s.setBar n x).rxq = s.rxq := rfl
@[simp] theorem setBar_held (s : State) (n : Nat) (x : BarUnit) : (s.setBar n x).held = s.held := rfl
@[simp] theorem setBar_stageIn (s : State) (n : Nat) (x : BarUnit) : (s.setBar n x).stageIn = s.stageIn := rfl
@[simp] theorem setBar_preReady (s : State) (n : Nat) (x : BarUnit) : (s.setBar n x).preReady = s.preReady := rfl
@[simp] theorem setBar_qps (s : State) (n : Nat) (x : BarUnit) : (s.setBar n x).qps = s.qps := rfl
@[simp] theorem setBar_kennel (s : State) (n : Nat) (x : BarUnit) : (s.setBar n x).kennel = s.kennel := rfl
@[simp] theorem setBar_wins (s : State) (n : Nat) (x : BarUnit) : (s.setBar n x).wins = s.wins := rfl
@[simp] theorem setBar_sheep0 (s : State) (n : Nat) (x : BarUnit) : (s.setBar n x).sheep0 = s.sheep0 := rfl
@[simp] theorem setBar_sheep1 (s : State) (n : Nat) (x : BarUnit) : (s.setBar n x).sheep1 = s.sheep1 := rfl
@[simp] theorem setBar_tiles (s : State) (n : Nat) (x : BarUnit) : (s.setBar n x).tiles = s.tiles := rfl
@[simp] theorem setBar_tileNext (s : State) (n : Nat) (x : BarUnit) : (s.setBar n x).tileNext = s.tileNext := rfl
@[simp] theorem setBar_trigs (s : State) (n : Nat) (x : BarUnit) : (s.setBar n x).trigs = s.trigs := rfl
@[simp] theorem setBar_trigPend (s : State) (n : Nat) (x : BarUnit) : (s.setBar n x).trigPend = s.trigPend := rfl
@[simp] theorem setBar_queues (s : State) (n : Nat) (x : BarUnit) : (s.setBar n x).queues = s.queues := rfl
@[simp] theorem setBar_cores (s : State) (n : Nat) (x : BarUnit) : (s.setBar n x).cores = s.cores := rfl
@[simp] theorem setBar_clusters (s : State) (n : Nat) (x : BarUnit) : (s.setBar n x).clusters = s.clusters := rfl
@[simp] theorem setBar_handles (s : State) (n : Nat) (x : BarUnit) : (s.setBar n x).handles = s.handles := rfl
@[simp] theorem setBar_spares (s : State) (n : Nat) (x : BarUnit) : (s.setBar n x).spares = s.spares := rfl
@[simp] theorem setBar_digests (s : State) (n : Nat) (x : BarUnit) : (s.setBar n x).digests = s.digests := rfl
@[simp] theorem setBar_sec (s : State) (n : Nat) (x : BarUnit) : (s.setBar n x).sec = s.sec := rfl
@[simp] theorem setBar_parts (s : State) (n : Nat) (x : BarUnit) : (s.setBar n x).parts = s.parts := rfl
@[simp] theorem setBar_colls (s : State) (n : Nat) (x : BarUnit) : (s.setBar n x).colls = s.colls := rfl
@[simp] theorem setBar_collEnds (s : State) (n : Nat) (x : BarUnit) : (s.setBar n x).collEnds = s.collEnds := rfl
@[simp] theorem setBar_redEnds (s : State) (n : Nat) (x : BarUnit) : (s.setBar n x).redEnds = s.redEnds := rfl
@[simp] theorem setBar_collNext (s : State) (n : Nat) (x : BarUnit) : (s.setBar n x).collNext = s.collNext := rfl
@[simp] theorem setBar_boot (s : State) (n : Nat) (x : BarUnit) : (s.setBar n x).boot = s.boot := rfl
@[simp] theorem setBar_memsys (s : State) (n : Nat) (x : BarUnit) : (s.setBar n x).memsys = s.memsys := rfl
@[simp] theorem setBar_portRst (s : State) (n : Nat) (x : BarUnit) : (s.setBar n x).portRst = s.portRst := rfl
@[simp] theorem setBar_tally (s : State) (n : Nat) (x : BarUnit) : (s.setBar n x).tally = s.tally := rfl
@[simp] theorem setBar_pins (s : State) (n : Nat) (x : BarUnit) : (s.setBar n x).pins = s.pins := rfl
@[simp] theorem setBar_ddrBad (s : State) (n : Nat) (x : BarUnit) : (s.setBar n x).ddrBad = s.ddrBad := rfl
@[simp] theorem setBar_hostMem0 (s : State) (n : Nat) (x : BarUnit) : (s.setBar n x).hostMem0 = s.hostMem0 := rfl
@[simp] theorem setBar_hostMem1 (s : State) (n : Nat) (x : BarUnit) : (s.setBar n x).hostMem1 = s.hostMem1 := rfl
@[simp] theorem setBar_poisoned (s : State) (n : Nat) (x : BarUnit) : (s.setBar n x).poisoned = s.poisoned := rfl
@[simp] theorem setBar_ddr (s : State) (n : Nat) (x : BarUnit) : (s.setBar n x).ddr = s.ddr := rfl
@[simp] theorem setBar_out (s : State) (n : Nat) (x : BarUnit) : (s.setBar n x).out = s.out := rfl
@[simp] theorem setBar_freeCtr (s : State) (n : Nat) (x : BarUnit) : (s.setBar n x).freeCtr = s.freeCtr := rfl

/-! setHost -/
@[simp] theorem setHost_pending (s : State) (h : HostId) (x : HostPort) : (s.setHost h x).pending = s.pending := by unfold State.setHost; split <;> rfl
@[simp] theorem setHost_regs (s : State) (h : HostId) (x : HostPort) : (s.setHost h x).regs = s.regs := by unfold State.setHost; split <;> rfl
@[simp] theorem setHost_time (s : State) (h : HostId) (x : HostPort) : (s.setHost h x).time = s.time := by unfold State.setHost; split <;> rfl
@[simp] theorem setHost_scriv (s : State) (h : HostId) (x : HostPort) : (s.setHost h x).scriv = s.scriv := by unfold State.setHost; split <;> rfl
@[simp] theorem setHost_sched (s : State) (h : HostId) (x : HostPort) : (s.setHost h x).sched = s.sched := by unfold State.setHost; split <;> rfl
@[simp] theorem setHost_ports (s : State) (h : HostId) (x : HostPort) : (s.setHost h x).ports = s.ports := by unfold State.setHost; split <;> rfl
@[simp] theorem setHost_mesh (s : State) (h : HostId) (x : HostPort) : (s.setHost h x).mesh = s.mesh := by unfold State.setHost; split <;> rfl
@[simp] theorem setHost_rxq (s : State) (h : HostId) (x : HostPort) : (s.setHost h x).rxq = s.rxq := by unfold State.setHost; split <;> rfl
@[simp] theorem setHost_held (s : State) (h : HostId) (x : HostPort) : (s.setHost h x).held = s.held := by unfold State.setHost; split <;> rfl
@[simp] theorem setHost_stageIn (s : State) (h : HostId) (x : HostPort) : (s.setHost h x).stageIn = s.stageIn := by unfold State.setHost; split <;> rfl
@[simp] theorem setHost_preReady (s : State) (h : HostId) (x : HostPort) : (s.setHost h x).preReady = s.preReady := by unfold State.setHost; split <;> rfl
@[simp] theorem setHost_qps (s : State) (h : HostId) (x : HostPort) : (s.setHost h x).qps = s.qps := by unfold State.setHost; split <;> rfl
@[simp] theorem setHost_kennel (s : State) (h : HostId) (x : HostPort) : (s.setHost h x).kennel = s.kennel := by unfold State.setHost; split <;> rfl
@[simp] theorem setHost_wins (s : State) (h : HostId) (x : HostPort) : (s.setHost h x).wins = s.wins := by unfold State.setHost; split <;> rfl
@[simp] theorem setHost_sheep0 (s : State) (h : HostId) (x : HostPort) : (s.setHost h x).sheep0 = s.sheep0 := by unfold State.setHost; split <;> rfl
@[simp] theorem setHost_sheep1 (s : State) (h : HostId) (x : HostPort) : (s.setHost h x).sheep1 = s.sheep1 := by unfold State.setHost; split <;> rfl
@[simp] theorem setHost_tiles (s : State) (h : HostId) (x : HostPort) : (s.setHost h x).tiles = s.tiles := by unfold State.setHost; split <;> rfl
@[simp] theorem setHost_tileNext (s : State) (h : HostId) (x : HostPort) : (s.setHost h x).tileNext = s.tileNext := by unfold State.setHost; split <;> rfl
@[simp] theorem setHost_trigs (s : State) (h : HostId) (x : HostPort) : (s.setHost h x).trigs = s.trigs := by unfold State.setHost; split <;> rfl
@[simp] theorem setHost_trigPend (s : State) (h : HostId) (x : HostPort) : (s.setHost h x).trigPend = s.trigPend := by unfold State.setHost; split <;> rfl
@[simp] theorem setHost_queues (s : State) (h : HostId) (x : HostPort) : (s.setHost h x).queues = s.queues := by unfold State.setHost; split <;> rfl
@[simp] theorem setHost_cores (s : State) (h : HostId) (x : HostPort) : (s.setHost h x).cores = s.cores := by unfold State.setHost; split <;> rfl
@[simp] theorem setHost_clusters (s : State) (h : HostId) (x : HostPort) : (s.setHost h x).clusters = s.clusters := by unfold State.setHost; split <;> rfl
@[simp] theorem setHost_handles (s : State) (h : HostId) (x : HostPort) : (s.setHost h x).handles = s.handles := by unfold State.setHost; split <;> rfl
@[simp] theorem setHost_spares (s : State) (h : HostId) (x : HostPort) : (s.setHost h x).spares = s.spares := by unfold State.setHost; split <;> rfl
@[simp] theorem setHost_digests (s : State) (h : HostId) (x : HostPort) : (s.setHost h x).digests = s.digests := by unfold State.setHost; split <;> rfl
@[simp] theorem setHost_sec (s : State) (h : HostId) (x : HostPort) : (s.setHost h x).sec = s.sec := by unfold State.setHost; split <;> rfl
@[simp] theorem setHost_parts (s : State) (h : HostId) (x : HostPort) : (s.setHost h x).parts = s.parts := by unfold State.setHost; split <;> rfl
@[simp] theorem setHost_colls (s : State) (h : HostId) (x : HostPort) : (s.setHost h x).colls = s.colls := by unfold State.setHost; split <;> rfl
@[simp] theorem setHost_collEnds (s : State) (h : HostId) (x : HostPort) : (s.setHost h x).collEnds = s.collEnds := by unfold State.setHost; split <;> rfl
@[simp] theorem setHost_redEnds (s : State) (h : HostId) (x : HostPort) : (s.setHost h x).redEnds = s.redEnds := by unfold State.setHost; split <;> rfl
@[simp] theorem setHost_collNext (s : State) (h : HostId) (x : HostPort) : (s.setHost h x).collNext = s.collNext := by unfold State.setHost; split <;> rfl
@[simp] theorem setHost_bars (s : State) (h : HostId) (x : HostPort) : (s.setHost h x).bars = s.bars := by unfold State.setHost; split <;> rfl
@[simp] theorem setHost_boot (s : State) (h : HostId) (x : HostPort) : (s.setHost h x).boot = s.boot := by unfold State.setHost; split <;> rfl
@[simp] theorem setHost_memsys (s : State) (h : HostId) (x : HostPort) : (s.setHost h x).memsys = s.memsys := by unfold State.setHost; split <;> rfl
@[simp] theorem setHost_portRst (s : State) (h : HostId) (x : HostPort) : (s.setHost h x).portRst = s.portRst := by unfold State.setHost; split <;> rfl
@[simp] theorem setHost_tally (s : State) (h : HostId) (x : HostPort) : (s.setHost h x).tally = s.tally := by unfold State.setHost; split <;> rfl
@[simp] theorem setHost_pins (s : State) (h : HostId) (x : HostPort) : (s.setHost h x).pins = s.pins := by unfold State.setHost; split <;> rfl
@[simp] theorem setHost_ddrBad (s : State) (h : HostId) (x : HostPort) : (s.setHost h x).ddrBad = s.ddrBad := by unfold State.setHost; split <;> rfl
@[simp] theorem setHost_hostMem0 (s : State) (h : HostId) (x : HostPort) : (s.setHost h x).hostMem0 = s.hostMem0 := by unfold State.setHost; split <;> rfl
@[simp] theorem setHost_hostMem1 (s : State) (h : HostId) (x : HostPort) : (s.setHost h x).hostMem1 = s.hostMem1 := by unfold State.setHost; split <;> rfl
@[simp] theorem setHost_poisoned (s : State) (h : HostId) (x : HostPort) : (s.setHost h x).poisoned = s.poisoned := by unfold State.setHost; split <;> rfl
@[simp] theorem setHost_ddr (s : State) (h : HostId) (x : HostPort) : (s.setHost h x).ddr = s.ddr := by unfold State.setHost; split <;> rfl
@[simp] theorem setHost_out (s : State) (h : HostId) (x : HostPort) : (s.setHost h x).out = s.out := by unfold State.setHost; split <;> rfl
@[simp] theorem setHost_freeCtr (s : State) (h : HostId) (x : HostPort) : (s.setHost h x).freeCtr = s.freeCtr := by unfold State.setHost; split <;> rfl

end Sys2Proof.Machine.Laws
end

