-- ==== Sys2Proof/Laws/Regs.lean ====
section
/-! SUPPORT. Laws of the BAR0 registers and their fields: a read after a write of the same field, of a disjoint field of the same
register and of another register, and the canonical form of the register file. -/

namespace Sys2Proof.Machine.Laws

/-- A field lies inside its register. -/
abbrev FieldOk (f : Fld) : Prop := f.lo + f.w ≤ 32

@[simp] theorem reg_setReg_self (s : State) (o : Nat) (v : Word) : (s.setReg o v).reg o = v :=
  Sparse.getD_putD_self s.regs o v (regReset o)

theorem reg_setReg_ne (s : State) {o p : Nat} (v : Word) (h : p ≠ o) : (s.setReg o v).reg p = s.reg p :=
  Sparse.getD_putD_ne s.regs v (regReset o) (regReset p) h

theorem reg_put_ne (s : State) (f : Fld) (x : Nat) {p : Nat} (h : p ≠ f.off) : (s.put f x).reg p = s.reg p :=
  reg_setReg_ne s _ h

theorem reg_put_self (s : State) (f : Fld) (x : Nat) : (s.put f x).reg f.off = wordSet (s.reg f.off) f.lo f.w x :=
  reg_setReg_self s _ _

theorem reg_count_ne (s : State) (f : Fld) (n : Nat) {p : Nat} (h : p ≠ f.off) : (s.count f n).reg p = s.reg p :=
  reg_put_ne s f _ h

theorem wordSet_getLsbD (v : Word) (lo w x i : Nat) (h : lo + w ≤ 32) (hi : i < 32) :
    (wordSet v lo w x).getLsbD i = if lo ≤ i ∧ i < lo + w then x.testBit (i - lo) else v.getLsbD i := by
  have hw : w ≤ 32 := by omega
  simp only [wordSet, BitVec.getLsbD_or, BitVec.getLsbD_and, BitVec.getLsbD_not, BitVec.getLsbD_shiftLeft,
    BitVec.getLsbD_ofNat, hi, decide_true, Bool.true_and, Nat.testBit_two_pow_sub_one]
  by_cases h1 : i < lo
  · simp [h1, show ¬(lo ≤ i) by omega]
  · by_cases h2 : i < lo + w
    · simp [h1, show lo ≤ i by omega, h2, show i - lo < w by omega, show i - lo < 32 by omega]
    · simp [h1, h2, show ¬(i - lo < w) by omega]

theorem wordField_testBit (v : Word) (lo w i : Nat) : (wordField v lo w).testBit i = (decide (i < w) && v.getLsbD (lo + i)) := by
  simp [wordField, BitVec.testBit_toNat]

theorem wordField_wordSet_self (v : Word) (lo w x : Nat) (h : lo + w ≤ 32) : wordField (wordSet v lo w x) lo w = x % 2 ^ w := by
  refine Nat.eq_of_testBit_eq fun i => ?_
  rw [wordField_testBit, Nat.testBit_mod_two_pow]
  by_cases hi : i < w
  · simp [hi, wordSet_getLsbD v lo w x (lo + i) h (by omega)]
  · simp [hi]

theorem wordField_wordSet_disjoint (v : Word) (lo w x lo' w' : Nat) (h : lo + w ≤ 32) (h' : lo' + w' ≤ 32)
    (hd : lo + w ≤ lo' ∨ lo' + w' ≤ lo) : wordField (wordSet v lo w x) lo' w' = wordField v lo' w' := by
  refine Nat.eq_of_testBit_eq fun i => ?_
  rw [wordField_testBit, wordField_testBit]
  by_cases hi : i < w'
  · rw [wordSet_getLsbD v lo w x (lo' + i) h (by omega), if_neg (by omega)]
  · simp [hi]

/-- A read of the field just written gives the value, less what its width cannot hold. -/
theorem get_put_self (s : State) (f : Fld) (x : Nat) (h : FieldOk f) : (s.put f x).get f = x % 2 ^ f.w := by
  unfold State.get
  rw [reg_put_self]
  exact wordField_wordSet_self _ _ _ _ h

/-- A write leaves the fields of every other register alone. -/
theorem get_put_ne (s : State) (f g : Fld) (x : Nat) (h : g.off ≠ f.off) : (s.put f x).get g = s.get g := by
  unfold State.get
  rw [reg_put_ne s f x h]

/-- A write leaves the register's other fields alone. -/
theorem get_put_disjoint (s : State) (f g : Fld) (x : Nat) (hf : FieldOk f) (hg : FieldOk g)
    (hd : g.off ≠ f.off ∨ f.lo + f.w ≤ g.lo ∨ g.lo + g.w ≤ f.lo) : (s.put f x).get g = s.get g := by
  by_cases ho : g.off = f.off
  · unfold State.get
    rw [ho, reg_put_self]
    exact wordField_wordSet_disjoint _ _ _ _ _ _ hf hg (by tauto)
  · exact get_put_ne s f g x ho

theorem get_count_ne (s : State) (f g : Fld) (n : Nat) (h : g.off ≠ f.off) : (s.count f n).get g = s.get g :=
  get_put_ne s f g _ h

theorem get_lt (s : State) (f : Fld) : s.get f < 2 ^ f.w := by
  unfold State.get wordField
  exact BitVec.isLt _

/-- A counter saturates at its field's width. -/
theorem get_count_self (s : State) (f : Fld) (n : Nat) (h : FieldOk f) : (s.count f n).get f = min (s.get f + n) (2 ^ f.w - 1) := by
  unfold State.count
  rw [get_put_self s f _ h, Nat.mod_eq_of_lt]
  have := Nat.two_pow_pos f.w
  omega

/-- The register file's canonical form is kept. -/
theorem setReg_wf (s : State) (o : Nat) (v : Word) (h : s.regs.wf regReset) : (s.setReg o v).regs.wf regReset :=
  Sparse.putD_wf regReset s.regs o v h

theorem put_wf (s : State) (f : Fld) (x : Nat) (h : s.regs.wf regReset) : (s.put f x).regs.wf regReset := setReg_wf s _ _ h

@[simp] theorem get_emit (s : State) (o : Output) (f : Fld) : (s.emit o).get f = s.get f := rfl
@[simp] theorem get_emits (s : State) (l : List Output) (f : Fld) : (s.emits l).get f = s.get f := rfl
@[simp] theorem get_fresh (s : State) (f : Fld) : s.fresh.get f = s.get f := rfl
@[simp] theorem get_setPort (s : State) (p : Nat) (x : Port) (f : Fld) : (s.setPort p x).get f = s.get f := rfl
@[simp] theorem get_setQp (s : State) (q : Nat) (x : Qp) (f : Fld) : (s.setQp q x).get f = s.get f := rfl
@[simp] theorem get_setCore (s : State) (c : Nat) (x : Core) (f : Fld) : (s.setCore c x).get f = s.get f := rfl
@[simp] theorem get_setCluster (s : State) (k : Nat) (x : Cluster) (f : Fld) : (s.setCluster k x).get f = s.get f := rfl
@[simp] theorem get_setQueue (s : State) (n : Nat) (x : Queue) (f : Fld) : (s.setQueue n x).get f = s.get f := rfl
@[simp] theorem get_setTrig (s : State) (i : Nat) (x : TrigSlot) (f : Fld) : (s.setTrig i x).get f = s.get f := rfl
@[simp] theorem get_setBar (s : State) (n : Nat) (x : BarUnit) (f : Fld) : (s.setBar n x).get f = s.get f := rfl
@[simp] theorem get_setHost (s : State) (h : HostId) (x : HostPort) (f : Fld) : (s.setHost h x).get f = s.get f := by
  unfold State.setHost; split <;> rfl

/-! Ports, cores and hosts -/

@[simp] theorem port_setPort_self (s : State) (p : Nat) (x : Port) : (s.setPort p x).port p = x := Sparse.getD_putD_self s.ports p x {}
theorem port_setPort_ne (s : State) {p q : Nat} (x : Port) (h : q ≠ p) : (s.setPort p x).port q = s.port q :=
  Sparse.getD_putD_ne s.ports x {} {} h
@[simp] theorem core_setCore_self (s : State) (c : Nat) (x : Core) : (s.setCore c x).core c = x := Sparse.getD_putD_self s.cores c x {}
theorem core_setCore_ne (s : State) {c d : Nat} (x : Core) (h : d ≠ c) : (s.setCore c x).core d = s.core d :=
  Sparse.getD_putD_ne s.cores x {} {} h
@[simp] theorem port_put (s : State) (f : Fld) (x p : Nat) : (s.put f x).port p = s.port p := rfl
@[simp] theorem core_put (s : State) (f : Fld) (x c : Nat) : (s.put f x).core c = s.core c := rfl
@[simp] theorem host_setHost_self (s : State) (h : HostId) (x : HostPort) : (s.setHost h x).host h = x := by
  unfold State.setHost State.host; split <;> rfl
@[simp] theorem host_put (s : State) (f : Fld) (x : Nat) (h : HostId) : (s.put f x).host h = s.host h := rfl

end Sys2Proof.Machine.Laws
end

