-- ==== Sys2Proof/Laws/Terms.lean ====
section
/-! SUPPORT. Laws of the terms of Safety.lean: what a taken write does, and frames over fields, registers, ports and cores. -/

namespace Sys2Proof.Machine.Laws

/-- A write that is taken acts. -/
theorem hostWrite_takes {s : State} {h : HostId} {off : Nat} (act : State → State) (ht : Takes s h off) :
    s.hostWrite h off act = act s := by
  obtain ⟨h1, h2, h3, h4⟩ := ht
  unfold State.hostWrite State.openWrite
  unfold MayWrite at h4
  rw [h1, h2]
  split at h4
  · next e => rw [e]; rcases h3 with h3 | h3 <;> simp [h3, h4]
  · simp at h4

theorem openWrite_takes {s : State} {h : HostId} {off : Nat} (act : State → State) (ht : Takes s h off) :
    s.openWrite h off act = act s := by
  obtain ⟨h1, h2, h3, _⟩ := ht
  unfold State.openWrite
  rw [h1, h2]
  rcases h3 with h3 | h3 <;> simp [h3]

theorem fieldsBut_refl (fs : List Fld) (s : State) : FieldsBut fs s s := fun _ _ _ => rfl

theorem fieldsBut_trans {fs : List Fld} {s t u : State} (h : FieldsBut fs s t) (h' : FieldsBut fs t u) : FieldsBut fs s u :=
  fun g hg ha => (h' g hg ha).trans (h g hg ha)

/-- A field of the list may be written. -/
theorem fieldsBut_put {fs : List Fld} {s t : State} (f : Fld) (x : Nat) (h : FieldsBut fs s t) (hf : FieldOk f) (hm : f ∈ fs) :
    FieldsBut fs s (t.put f x) := by
  intro g hg ha
  rw [get_put_disjoint t f g x hf hg (by rcases ha f hm with h | h | h <;> omega)]
  exact h g hg ha

theorem fieldsBut_count {fs : List Fld} {s t : State} (f : Fld) (n : Nat) (h : FieldsBut fs s t) (hf : FieldOk f) (hm : f ∈ fs) :
    FieldsBut fs s (t.count f n) := fieldsBut_put f _ h hf hm

/-- An update of anything but registers leaves every field alone. -/
theorem fieldsBut_of_regs {fs : List Fld} {s t u : State} (h : FieldsBut fs s t) (e : u.regs = t.regs) : FieldsBut fs s u := by
  intro g hg ha
  have : u.get g = t.get g := by unfold State.get State.reg; rw [e]
  exact this.trans (h g hg ha)

theorem regsBut_refl (os : List Nat) (s : State) : RegsBut os s s := fun _ _ => rfl

theorem regsBut_put {os : List Nat} {s t : State} (f : Fld) (x : Nat) (h : RegsBut os s t) (hm : f.off ∈ os) : RegsBut os s (t.put f x) := by
  intro o ho
  rw [reg_put_ne t f x (fun e => ho (by rw [e]; exact hm))]
  exact h o ho

theorem portsBut_refl (ps : List Nat) (s : State) : PortsBut ps s s := fun _ _ => rfl

theorem portsBut_setPort {ps : List Nat} {s t : State} (p : Nat) (x : Port) (h : PortsBut ps s t) (hm : p ∈ ps) :
    PortsBut ps s (t.setPort p x) := by
  intro q hq
  rw [port_setPort_ne t x (fun e => hq (by rw [e]; exact hm))]
  exact h q hq

theorem coresBut_refl (cs : List Nat) (s : State) : CoresBut cs s s := fun _ _ => rfl

theorem coresBut_setCore {cs : List Nat} {s t : State} (c : Nat) (x : Core) (h : CoresBut cs s t) (hm : c ∈ cs) :
    CoresBut cs s (t.setCore c x) := by
  intro d hd
  rw [core_setCore_ne t x (fun e => hd (by rw [e]; exact hm))]
  exact h d hd

end Sys2Proof.Machine.Laws
end

