-- ==== Sys2Proof/WellFormed.lean ====
section
/-! DEFINITION. Well-formed commands: what a sender can send at all. The machine gives every term a meaning; these checks say which terms stand
for something outside the block (an access inside its BAR, an ordered set of one container, a unit that the floor plan has). -/

namespace Sys2Proof

/-- Bytes of host memory at addresses of at most 52 bits. -/
def seenOk (seen : Seen) : Bool := seen.all (fun e => e.addr + e.bytes.length ≤ 2 ^ 52)

/-- A unit of the floor plan (02_floor_plan_and_numbering.md Table 2.2). -/
def unitOk (u : UnitId) : Bool :=
  match u.kind with
  | .core => u.place < 64 && u.index < 68
  | .aes => u.place < 64 && u.index < 6
  | .kennel => u.place < 64 && u.index < 16
  | .drover | .reduce => u.place < 64 && u.index == 0
  | .lane => u.place < 4 && u.index < 68
  | .channel => u.index < 16 && u.place == u.index / 8
  | .meshLink => u.place < 64 && u.index < 4
  | .hostTile => u.place == 0 && u.index == 0

/-- Findings of the start-up test: units and blocks that exist. -/
def testsOk (t : Tests) : Bool := t.units.all (fun us => us.all unitOk) && t.cells.all (fun c => c.1 < 68)

/-- Findings of the training: one module for each channel. -/
def trainingOk (t : Training) : Bool := t.modules.length == 16

/-- The copies of an ordered set: one container body each. -/
def copiesOk (copies : List (List Byte)) : Bool := copies.all (fun c => c.length == 64)

/-- Containers of an ELP frame. -/
def containersOk (cs : List Container) : Bool := cs.all (fun c => c.body.length == 64)

/-- What comes with a register write. -/
def sideOk (x : WriteSide) : Bool := seenOk x.seen && testsOk x.tests

/-- Fuses of manufacture: digests of 32 bytes. -/
def burnedOk : Option Burned → Bool
  | none => true
  | some b => (b.fw ++ b.auth ++ [b.seed]).all (fun d => d.isEmpty || d.length == 32)

/-- A request of the board controller: a nonce of 32 bytes. -/
def mctpOk : Mctp → Bool
  | .attest nonce _ => nonce.length == 32
  | .sticky _ | .lifeCycle | .alarms | .psk _ | .reset _ => true

/-- A PSN has 24 bits. -/
def visPlaceOk (owner : VisOwner) (place : Nat) : Bool :=
  match owner with
  | .pair _ => place < 2 ^ 24
  | .queue _ => true

/-- An access lies inside its BAR. -/
def spanOk (off size room : Nat) : Bool := 0 < size && off + size ≤ room

/-- A command is well formed. -/
def Instr.wellFormed : Instr → Bool
  | .registerWrite _ _ _ _ side => sideOk side
  | .rcCounterRead _ _ _ => true
  | .bar0BadAccess _ _ off size => spanOk off.toNat size (2 ^ 24)
  | .timeCtlWrite _ _ => true
  | .setArm _ _ => true
  | .timePortWrite _ _ => true
  | .timeHoldLimitWrite _ _ => true
  | .timeNowRead _ _ => true
  | .timeSetAssign => true
  | .sourceLost _ => true
  | .sourceValid _ _ => true
  | .lockAchieved _ => true
  | .srcStep => true
  | .holdoverLimitReached => true
  | .timeLost => true
  | .slotBoundary => true
  | .ptpMessageReceive _ _ _ => true
  | .beaconSend _ => true
  | .beaconReceive _ copies _ => copiesOk copies
  | .barrierArrival _ _ _ _ _ => true
  | .barrierReleaseReceive _ _ _ _ => true
  | .barrierRelease _ => true
  | .unitFailure failure => unitOk failure.unit
  | .commit _ => true
  | .linkCfgWrite _ _ _ => true
  | .linkBufClassWrite _ _ _ _ => true
  | .ethFrameReceive _ _ bytes _ => 0 < bytes.length
  | .pfcFrameReceive _ _ _ times => times.length == 8
  | .pauseFrameReceive _ _ _ => true
  | .pfcRefresh _ _ _ => true
  | .pauseTimeExpiry _ _ _ => true
  | .preemptVerify _ _ _ => true
  | .elpFrameReceive _ containers _ => containersOk containers
  | .codewordUncorrectable _ _ => true
  | .alignSend _ => true
  | .alignReceive _ copies => copiesOk copies
  | .keepaliveSend _ => true
  | .keepaliveReceive _ copies => copiesOk copies
  | .fencedSend _ => true
  | .fencedReceive _ copies => copiesOk copies
  | .peerLost _ => true
  | .pcsLinkDown _ => true
  | .pcsLinkUp _ => true
  | .pauseOsReceive _ copies => copiesOk copies
  | .farrierWindow _ _ _ => true
  | .laneFailure _ _ => true
  | .spareAdapted _ _ => true
  | .spareTrained _ _ => true
  | .laneReqReceive _ copies => copiesOk copies
  | .laneAckReceive _ copies => copiesOk copies
  | .laneNakReceive _ copies => copiesOk copies
  | .laneReqTimeout _ => true
  | .laneMaskSwitch _ => true
  | .laneDoneSend _ => true
  | .laneDoneReceive _ copies => copiesOk copies
  | .frameTransmitStart _ _ _ => true
  | .frameTransmitEnd _ _ _ => true
  | .meshSelfWrite _ _ => true
  | .meshArm _ _ => true
  | .meshDisarm _ _ => true
  | .routingTableWrite _ off _ => off % 4 == 0 && 0x310000 ≤ off && off < 0x320000
  | .retainedBankRelease => true
  | .drainLimitExpiry => true
  | .flowReturnPrimary _ => true
  | .submit _ _ => true
  | .admissionVerdict seen => seenOk seen
  | .cancel _ _ => true
  | .scheduleTakeover => true
  | .sampleRecord _ => true
  | .kennelCreate _ _ seen => seenOk seen
  | .kennelModify _ _ seen => seenOk seen
  | .kennelQuery _ _ seen => seenOk seen
  | .kennelDestroy _ _ seen => seenOk seen
  | .retrieverFetchDone _ seen => seenOk seen
  | .workEntryStart _ seen => seenOk seen
  | .sendReceive seen => seenOk seen
  | .writeReceive seen => seenOk seen
  | .readReqReceive seen => seenOk seen
  | .atomicReceive seen => seenOk seen
  | .readRespReceive seen => seenOk seen
  | .atomicAckReceive seen => seenOk seen
  | .ackReceive seen => seenOk seen
  | .nakReceive seen => seenOk seen
  | .rnrNakReceive seen => seenOk seen
  | .visAckReceive seen => seenOk seen
  | .resyncReceive seen => seenOk seen
  | .retransmitTimeout _ seen => seenOk seen
  | .rnrWaitExpiry _ seen => seenOk seen
  | .ackDelayExpiry _ => true
  | .visibilityReached owner place => visPlaceOk owner place
  | .pathHoldExpiry _ => true
  | .nopEntry _ => true
  | .send _ seen => seenOk seen
  | .sendImm _ seen => seenOk seen
  | .write _ seen => seenOk seen
  | .writeImm _ seen => seenOk seen
  | .read _ seen => seenOk seen
  | .cmpSwap _ seen => seenOk seen
  | .fetchAdd _ seen => seenOk seen
  | .copy _ seen => seenOk seen
  | .invoke _ => true
  | .openWindow _ => true
  | .revokeWindow _ => true
  | .trigReset _ => true
  | .abort _ => true
  | .recvEntry _ => true
  | .winRevoke _ _ _ => true
  | .revocationFence _ => true
  | .accessCommitted _ => true
  | .revocationComplete _ => true
  | .sheepBatchTimeout _ => true
  | .sheepBatchWrite _ => true
  | .sheepResolve _ _ seen => seenOk seen
  | .sheepFail _ _ => true
  | .sheepTimeout _ _ => true
  | .sheepParkWrite _ _ _ => true
  | .trigIncrement => true
  | .triggeredStart _ seen => seenOk seen
  | .trigRangeWrite _ _ _ _ => true
  | .winShareWrite _ _ _ => true
  | .flr _ => true
  | .d3hotEntry _ => true
  | .hostPortDown _ => true
  | .doorbellWq _ _ _ _ => true
  | .doorbellCq _ _ _ _ => true
  | .bar2BadAccess _ _ off size => spanOk off.toNat size (2 ^ 22)
  | .bar4Read _ off size => spanOk off.toNat size (2 ^ 28)
  | .bar4Write _ off bytes => spanOk off.toNat bytes.length (2 ^ 28)
  | .b4CtlCommit _ _ => true
  | .queueCreate _ _ seen => seenOk seen
  | .queueModify _ _ seen => seenOk seen
  | .queueQuery _ _ seen => seenOk seen
  | .queueDestroy _ _ seen => seenOk seen
  | .dcinv _ _ => true
  | .entryFetchReturn _ _ seen => seenOk seen
  | .refetchTimer _ _ seen => seenOk seen
  | .cqModerationExpiry _ => true
  | .claim _ _ _ _ => true
  | .partAllocWrite _ _ _ _ => true
  | .seal _ _ => true
  | .resume _ _ _ => true
  | .partReset _ _ => true
  | .release _ _ => true
  | .partitionResetDone _ => true
  | .holdingWrite _ offset _ => offset.toNat % 4 == 0
  | .instCreate _ _ _ => true
  | .instReset _ _ _ => true
  | .instDestroy _ _ _ => true
  | .freeze _ _ _ _ => true
  | .freezeComplete _ => true
  | .thaw _ _ _ _ seen => seenOk seen
  | .save _ _ _ _ => true
  | .restore _ _ _ _ seen => seenOk seen
  | .partHostCtlWrite _ _ _ => true
  | .hostKick _ _ _ => true
  | .hostWatchdogExpiry _ => true
  | .orphanGraceExpiry _ => true
  | .addSubAndOrXor _ => true
  | .sllSrlSra _ => true
  | .sltSltu _ => true
  | .minMaxMinuMaxu _ => true
  | .clzPopc _ => true
  | .mulMulhMulhu _ => true
  | .clmulClmulh _ => true
  | .addiAndiOriXori _ => true
  | .shi _ => true
  | .slti _ => true
  | .lui _ => true
  | .luih _ => true
  | .lbLhLwLd _ _ => true
  | .sbShSwSd _ _ => true
  | .beqBneBltBge _ => true
  | .jal _ => true
  | .jalr _ => true
  | .loopi _ => true
  | .loopr _ => true
  | .csrr _ => true
  | .csrw _ => true
  | .fence _ => true
  | .endEvent _ => true
  | .cmpl _ => true
  | .brk _ => true
  | .slotw _ => true
  | .slotwRelease _ => true
  | .bar _ => true
  | .msg _ => true
  | .messageDelivery _ => true
  | .siga _ => true
  | .swait _ => true
  | .swaitRelease _ => true
  | .vld _ _ => true
  | .vldr _ _ => true
  | .vst _ _ => true
  | .vext _ => true
  | .vins _ => true
  | .vbcast _ => true
  | .vaddVsubVmulVmaxVmin _ => true
  | .vabsVneg _ => true
  | .vandVorVxor _ => true
  | .vfma _ => true
  | .vcvt _ => true
  | .vqmx _ => true
  | .vdqmx _ => true
  | .vperm _ => true
  | .vhred _ => true
  | .tzero _ => true
  | .tld _ _ => true
  | .tst _ _ => true
  | .tmma _ _ => true
  | .tstream _ => true
  | .dmov _ => true
  | .dwait _ => true
  | .dwaitRelease _ => true
  | .aeseAesd _ => true
  | .aesBlocksReturn _ => true
  | .redp _ => true
  | .wchk _ => true
  | .kldKst _ => true
  | .watchdog _ => true
  | .eventStart _ => true
  | .droverDescriptorTake _ _ => true
  | .droverTransferDone _ _ seen => seenOk seen
  | .programLoad _ _ _ _ seen => seenOk seen
  | .programUnload _ _ _ => true
  | .convProfileWrite _ _ _ _ _ => true
  | .reductionRead _ seen => seenOk seen
  | .segmentComplete _ => true
  | .stageFrameDelivery _ _ => true
  | .frameVerdict _ => true
  | .shift _ seen => seenOk seen
  | .permute _ seen => seenOk seen
  | .reduce _ order seen => order.all (· < 1024) && seenOk seen
  | .reduceScatter _ order seen => order.all (· < 1024) && seenOk seen
  | .allReduce _ order seen => order.all (· < 1024) && seenOk seen
  | .barrier _ seen => seenOk seen
  | .barrierSetup _ seen => seenOk seen
  | .chunkSignal _ _ order seen => order.all (· < 1024) && seenOk seen
  | .collectiveComplete _ => true
  | .collectiveFail _ => true
  | .barrierTimeout _ => true
  | .barrierWithdrawal _ _ => true
  | .exactWrite _ _ => true
  | .detDigestDone => true
  | .tinkerBlockTest _ _ _ _ _ => true
  | .ddrAlert _ _ _ => true
  | .scrubLine _ _ _ => true
  | .ddrRefresh _ => true
  | .regionWrite _ _ _ _ => true
  | .zeroFillDone _ => true
  | .memRspillWrite _ _ _ => true
  | .memImgWrite _ _ _ => true
  | .nonce _ => true
  | .nonceExpiry => true
  | .dbgUnlock _ _ seen => seenOk seen
  | .evictionDone => true
  | .dbgLower _ _ => true
  | .lcAdvance _ _ seen _ => seenOk seen
  | .attest _ _ seen => seenOk seen
  | .identity _ => true
  | .extend _ _ seen => seenOk seen
  | .fuseKey _ _ seen => seenOk seen
  | .mctpRequest request => mctpOk request
  | .alarm _ => true
  | .keyLoad _ _ seen => seenOk seen
  | .keyErase _ _ => true
  | .ideKmMessage _ _ => true
  | .tallyWindowEnd energy => energy.length == 15
  | .tallyBudgetWrite _ _ => true
  | .clusterUngated _ => true
  | .powerCap => true
  | .capGraceExpiry => true
  | .powerCapRelease => true
  | .standby _ => true
  | .wake _ seen training tests => seenOk seen && trainingOk training && testsOk tests
  | .powerOn _ burned _ _ => burnedOk burned
  | .powerLoss => true
  | .mainPgTimeout => true
  | .mainPgFall => true
  | .go _ seen training tests => seenOk seen && trainingOk training && testsOk tests
  | .crierSegmentReceive _ _ _ _ => true
  | .crierGapReport _ _ => true
  | .crierReportWindow => true
  | .warmReset _ _ => true
  | .computeReset _ => true
  | .computeResetCleared tests => testsOk tests
  | .computeResume _ tests => testsOk tests
  | .fatalError unit => unitOk unit
  | .portReset _ _ => true
  | .portTrained _ _ => true
  | .eventGatherExpiry _ _ => true
  | .eventRecordWrite _ => true
  | .eventVectorDelay _ => true
  | .htcWatchdog _ => true
  | .aliveNToggle => true
  | .queueSampleInterval => true
  | .stickyClear _ => true
  | .ptpMessageSend _ _ => true
  | .hostPortUp _ _ _ => true
  | .d3hotExit _ => true
  | .conventionalReset _ => true
  | .debugHalt _ => true
  | .debugResume _ => true
  | .sparePreloadDone _ => true
  | .alarmConditionEnd _ => true
  | .ucieLaneRepair => true
  | .spdmMessage _ _ => true

end Sys2Proof
end

