-- ==== Sys2Proof/Tests/Slice0.lean ====
section
/-! SUPPORT. The model's own tests: a term that each check of WellFormed refuses, single steps on small states, and for each statement
states that meet its hypotheses. -/

section

set_option maxRecDepth 100000
set_option Elab.async false
set_option linter.unusedVariables false

namespace Sys2Proof.Tests
open Sys2Proof Sys2Proof.Machine

/-- A device that has reached READY with both host ports up. -/
def ready : State :=
  (({ State.reset with preReady := false }).put (Reg.HOSTIF_PORT_STS.UP 0) 1).put (Reg.HOSTIF_PORT_STS.UP 1) 1

/-- A schedule image that holds nothing. -/
def emptyImage : Image :=
  { partition := 1, tableSwitch := false, takeover := 0, mapGen := 0, hyper := 0, energyMw := 0, lists := [], flows := [], paths := [], res := [] }

/-- READY with PWR_OK high, past the boot's first stages. -/
def powered : State := { ready.put Reg.GLB_STS.STAGE 5 with pins := { ready.pins with pwrOk := true } }

/-- READY with an active schedule image of partition 1. -/
def busy : State := { ready with sched := { ready.sched with act := [(1, emptyImage)] } }

/-- READY with a port in native mode and its link up on four lanes, the peer ALIVE. -/
def nat (p : Nat) : State :=
  ((((ready.put (Reg.LINK_CFG.MODE p) 1).put (Reg.LINK_CFG.ENABLE p) 1).put (Reg.LINK_STS.STATE p) 2).put (Reg.LINK_STS.PEER p) 1).put
    (Reg.LINK_STS.ACTIVE p) 15 |>.setPort p { trained := 15 }

/-- READY with a port in Ethernet mode and its link up, the peer ALIVE. -/
def eth (p : Nat) : State :=
  (((ready.put (Reg.LINK_CFG.MODE p) 0).put (Reg.LINK_CFG.ENABLE p) 1).put (Reg.LINK_STS.STATE p) 2).put (Reg.LINK_STS.PEER p) 1
    |>.setPort p { subsUp := [0] }

/-- A flow of one path. -/
def flow0 : FlowRec :=
  { flow := 77, cls := 0, packets := false, pin := false, matchEth := false, overhead := 0, qpn := 0, rate := 0, burst := 0, bound := 0, maxFrame := 9216, ingress := 0, primary := 0, backup := 0xFFFF, bufIn := 0, bufOut := 0, sample := 0, mac := 0, vid := 0, tagged := false }

/-- A path out of port 5. -/
def path0 : PathRec :=
  { egress := 5, subport := 0, toPort := true, yx := false, cut := false, lanes := 0, entry := 0, exit := 1, endRes := 0, stage := 0, stageValid := false, program := 0 }

/-- READY with a SEALED partition of host 0 whose one aperture is host memory below 0xFF00_1000. -/
def owned (p : Nat) : State :=
  ((ready.put (Reg.PART_STS.STATE p) 2).put (Reg.PART_APT_BASE_LO.VALID p 0) 1).put (Reg.PART_APT_LIMIT_LO.LIMIT_LO p 0) 0xFF000

/-- The word with an OP and fields. -/
def word (op rd ra rb low : Nat) : Nat := op * 2 ^ 25 + rd * 2 ^ 20 + ra * 2 ^ 15 + rb * 2 ^ 10 + low

/-- Logical core 8 of cluster 0 runs an INVOKE event and has a word at its PC. -/
def running (w : Nat) (k : Core := {}) : State :=
  (ready.put (Reg.CLUSTER_CORE_STS.STATE 0 8) 2).setCore 8 { k with
    spad := memWrite k.spad 0x1000 (leBytes 4 w), codeAt := 0x1000, codeLen := 64, pc := 0x1000, cur := some { kind := 0, v31 := [], queue := 3, pos := 0 } }

/-- A core with two registers. -/
def gs (a b : BitVec 64) : Core := { g := [(1, a), (2, b)] }

/-- A started INVOKE entry with a handle. -/
def invokeLive (h : Nat) : Live := { pos := 0, bytes := List.replicate 28 0 ++ leBytes 4 h ++ List.replicate 32 0, opcode := 0x11 }

/-- A send queue of partition 0 with that entry. -/
def invokeQueue (h : Nat) : Queue := { live := [invokeLive h] }

/-- READY with that queue as queue 3, and what its handle is. -/
def invoking (h : Nat) (x : Option Handle) : State :=
  { (ready.put (Reg.CLUSTER_CORE_STS.STATE 0 8) 1) with queues := [(3, invokeQueue h)], handles := (x.map (fun y => [(h, y)])).getD [] }

/-- A NOP entry of the first lap with flags, a trigger slot and its threshold. -/
def headEntry (flags slot thr : Nat) : List Byte :=
  [0, 1] ++ leBytes 2 flags ++ List.replicate 12 0 ++ leBytes 2 slot ++ [0, 0] ++ leBytes 3 thr ++ List.replicate 41 0

/-- A send queue of partition 0 with that entry at its head. -/
def headQueue (flags slot thr : Nat) : Queue := { posted := 1, fetch := 1, cached := [(0, 0, headEntry flags slot thr)] }

/-- READY with that queue as queue 3 and 16 trigger slots of partition 0. -/
def heading (flags slot thr : Nat) : State :=
  { ready.put (Reg.TRIG_NUM.NUM 0) 16 with queues := [(3, headQueue flags slot thr)] }

/-- READY with a queue 3 of partition 1 whose one started entry has an opcode and bytes. -/
def started (op : Nat) (bytes : List Byte) : State :=
  { owned 1 with queues := [(3, { cid := 1024, live := [{ pos := 0, bytes := bytes, opcode := op }] })] }

/-- READY with a queue pair 5 in RTS whose send queue, 3, has a started entry. -/
def paired (op : Nat) : State :=
  { started op [] with qps := [(5, { ctx := { qpn := 5, cid := 1024, sq := 3, state := 3 }, place := .resident 0 })] }

/-- READY with partition 1 as above and one DDR set of 1 GiB in a state, with 16 MiB at 512 MiB as a region of partition 1. -/
def tiered (st fill : Nat) : State :=
  ((((((((owned 1).put (Reg.MEM_SET_W0.CHANNELS 0) 1).put (Reg.MEM_SET_W0.STATE 0) st).put (Reg.MEM_SET_W1.SLICE_GIB 0) 1).put
    (Reg.MEM_REG_W1.SIZE_MIB 0) 16).put (Reg.MEM_REG_W0.BASE_MIB 0) 512).put (Reg.MEM_REG_W2.PARTITION 0) 1).put (Reg.MEM_REG_W2.VALID 0) 1).put (Reg.MEM_REG_W3.FILL 0) fill

/-- READY where the macro that holds an engine's block has used its four spare rows, and the engine has tested n blocks. -/
def wornOut (e b n : Nat) : State :=
  { ready with memsys := { tinker := if n = 0 then [] else [(e, { done := n })], rows := [(1024 * e + b / 16, 4)] } }

/-- READY with partition 1 of host 0 in CONFIG, one DDR set of 1 GiB ACTIVE and a region of the partition. -/
def configuring : State := (tiered 1 0).put (Reg.PART_STS.STATE 1) 1

/-- Target 9 of cluster 2, service number 1, in the Crier's round, with segments held. -/
def cryTarget (held : List Nat) : Target := { cluster := 2, pcore := 9, num := 1, held := held }

/-- The Crier sends the n segments of one resident image, three bytes long, whose CRC is as given, to that target. -/
def crying (n crc : Nat) (held : List Nat) : State :=
  { ready.put Reg.GLB_STS.STAGE 6 with boot :=
    { images := [{ cores := 255, first := 0, count := n, offset := 0, crc := crc, length := 3, digest := [] }], store := [[1, 2, 3], [4]]
      targets := [cryTarget held], sent := [0, 1] } }

/-- A started COPY of two bytes from a space and address to another. -/
def copyLive (sp a dsp d : Nat) : Live :=
  { pos := 0, opcode := 0x10, len := 2, bytes := [0, 0] ++ leBytes 2 (sp * 256) ++ List.replicate 28 0 ++ leBytes 8 a ++ leBytes 4 2 ++ leBytes 4 dsp ++ leBytes 8 d ++ List.replicate 8 0 }

/-- Its queue, of partition 1. -/
def copyQueue (sp a dsp d : Nat) : Queue := { cid := 1024, live := [copyLive sp a dsp d] }

/-- That queue as queue 3, a 7 at 0x1000 of host memory, and the DDR set in a state. -/
def copying (sp a dsp d st fill : Nat) : State :=
  { tiered st fill with queues := [(3, copyQueue sp a dsp d)], hostMem0 := [(0x1000, 7)] }

/-- The same once the block has gone to its destination. -/
def copied (dsp d st fill : Nat) : State :=
  ((copying 0 0x1000 dsp d st fill).placeTile 1024 (copyDest (copyLive 0 0x1000 dsp d).bytes) 0 [7, 0] 3 0 { engine := 0, write := true, qpn := none }).1

/-- A started OPEN_WINDOW of 4 KiB of a space with rights. -/
def openLive (space rights : Nat) : Live :=
  { pos := 0, opcode := 0x20, bytes := List.replicate 32 0 ++ leBytes 8 (space * 2 ^ 52 + 0x1000) ++ leBytes 8 0x1FFF ++ leBytes 1 rights ++ List.replicate 15 0 }

/-- Its queue, of partition 1. -/
def openQueue (space rights : Nat) : Queue := { cid := 1024, live := [openLive space rights] }

/-- READY with that queue as queue 3. -/
def opening (space rights : Nat) : State := { owned 1 with queues := [(3, openQueue space rights)] }

/-- A running barrier call of queue 3 with a timeout. -/
def barColl (timeout : Nat) : Coll :=
  { queue := 3, pos := 0, cid := 1024, args := [5] ++ List.replicate 21 0 ++ leBytes 2 timeout ++ List.replicate 8 0, depth := 1, mask := 1, gid := 0, status := 0, members := [], ftStart := 0 }

/-- Arguments of a collective of an OP: eight bytes of FP32, the group at 0x2000_1000. -/
def collArgs (op param : Nat) : List Byte :=
  leBytes 1 op ++ [0, 0] ++ leBytes 1 (if op = 5 then 0 else 12) ++ leBytes 4 1 ++ leBytes 8 0x20001000 ++ leBytes 4 (if op = 5 then 0 else 8)
    ++ leBytes 4 param ++ leBytes 4 0 ++ leBytes 4 256

/-- Its issued INVOKE in partition 1. -/
def collLive (op param : Nat) : Live :=
  { pos := 0, opcode := 0x11, issued := true, bytes := List.replicate 28 0 ++ leBytes 4 0x7FFFF00 ++ collArgs op param }

/-- Its queue. -/
def collQueue (op param : Nat) : Queue := { cid := 1024, live := [collLive op param] }

/-- The group of one member: itself, in DDR; of a barrier, this device. -/
def collGroup (op : Nat) : List Byte :=
  leBytes 4 0x47525031 ++ leBytes 2 1 ++ [1, 0] ++ leBytes 8 1 ++ leBytes 8 0x20100000 ++ leBytes 4 1 ++ leBytes 4 0 ++ leBytes 8 0x20002000
    ++ List.replicate 24 0 ++ [if op = 5 then 2 else 0, 1, 0, 0] ++ List.replicate 12 0 ++ leBytes 8 0x20003000 ++ leBytes 4 0xFFFFFFFF ++ leBytes 4 0

/-- READY with that queue as queue 3, a service core of its home cluster, and the group in DDR, whose set is in a state. -/
def calling (op param st fill : Nat) : State :=
  { (tiered st fill).put (Reg.CLUSTER_CORE_STS.STATE 3 0) 1 with queues := [(3, collQueue op param)], ddr := memWrite [] 0x20001000 (collGroup op) }

/-- The call that passes its checks. -/
def callColl (op param : Nat) : Coll :=
  { queue := 3, pos := 0, cid := 1024, args := collArgs op param, depth := 1, mask := 1, gid := 0, status := 0x20002000, stage := 0x20100000
    members := [⟨if op = 5 then 2 else 0, 1, 0, 0, 0, 0x20003000, 0xFFFFFFFF⟩], ftStart := 0, perm := if op = 1 then [0] else [] }

/-- Logical core 8 of partition 1 runs SIGA of 7 to an address, over the DDR set in a state, with a 5 at 0x2000_1000. -/
def sigaing (ga : BitVec 64) (st fill : Nat) : State :=
  { (((tiered st fill).put (Reg.CLUSTER_CORE_STS.STATE 0 8) 2).setCore 8 { gs ga 7 with
      spad := memWrite [] 0x1000 (leBytes 4 (word 0x39 3 1 2 0)), codeAt := 0x1000, codeLen := 64, pc := 0x1000, cur := some { kind := 0, v31 := [], cid := 1024 } }) with
    ddr := [(0x20001000, 5)] }

/-- Service core 0 of cluster 0 has a word at its PC. -/
def serving (w : Nat) (k : Core := {}) : State :=
  (ready.put (Reg.CLUSTER_CORE_STS.STATE 0 0) 2).setCore 0 { k with
    spad := memWrite k.spad 0x1000 (leBytes 4 w), codeAt := 0x1000, codeLen := 64, pc := 0x1000, cur := some { kind := 0, v31 := [] } }

/-- A transfer of 64 bytes (none: of no byte) from host memory to a space and address. -/
def dmovTo (sp a : Nat) (len : Nat := 64) (taken : Bool := true) : Xfer :=
  { id := 4, desc := leBytes 8 0x1000 ++ leBytes 8 (sp * 2 ^ 52 + a) ++ leBytes 4 len ++ List.replicate 12 0, ev := 0, cid := 1024, taken := taken }

/-- One within host memory. -/
def dmovXfer (taken : Bool) (good : Nat) : Xfer := dmovTo 0 0x2000 (64 * good) taken

/-- Channel 1 of core 8 holds a transfer. -/
def dmoved (x : Xfer) : State := (tiered 1 0).setCore 8 { chans := [(1, { queue := [x] })] }

/-- The same with that transfer. -/
def dmoving (taken : Bool) (good : Nat) : State := dmoved (dmovXfer taken good)

/-- Its block has gone to its destination. -/
def dplaced (x : Xfer) : State :=
  ((dmoved x).placeAt (dDstBuf 8 x.desc) (xferTile 8 1 x 0 (List.replicate 64 0)) { engine := 0, write := true, qpn := none }).1

/-- Partition 1 may load programs, holds cores 8 to 15 of cluster 0, and asks for a load on core 8. -/
def loading : State :=
  (((((owned 1).put (Reg.PART_ALLOC.PROG 1) 1).put (Reg.PART_CORES_LO.CORES 1 0) 0xFF00).put (Reg.CLUSTER_PLD_MASK_LO.CORES_LO 0 0) 0x100).put
    (Reg.CLUSTER_PLD_HANDLE.HANDLE 0 0) (2 ^ 26 + 5)).put (Reg.CLUSTER_PLD_LEN.PAGES 0 0) 1

/-- Partition 1 in a state with instance 1; its host's memory at 0 holds an image whose first word is given, of that instance, with every field in its
range (or all zero). -/
def kenneling (w : List Byte) (st : Nat) (bad : Bool) : State :=
  { (((owned 1).put (Reg.PART_STS.STATE 1) st).put (Reg.PART_INST.STATE 0) 1).put (Reg.PART_INST.PARTITION 0) 1 with
    hostMem0 := memWrite [] 0 (w ++ (if bad then [0, 4] else [0, 4] ++ List.replicate 18 0 ++ [1, 0, 0, 0, 1, 0, 0, 1, 1, 0, 0, 0])) }

/-- A frame of some bytes for core 8. -/
def stageFrame (good cut : Bool) (n : Nat) : StageFrame :=
  { core := 8, flow := 0, port := 1, sub := 0, cls := 0, bytes := List.replicate n 9, cut := cut, good := good, arrived := 0 }

/-- Core 8, READY in a scratchpad mode, is a stage of the active image of partition 0, and that frame is on its way to it. -/
def staging (mode : Nat) (good cut : Bool) (n : Nat) : State :=
  { ((ready.put (Reg.PART_CORES_LO.CORES 0 0) 0xFF00).put (Reg.CLUSTER_CORE_STS.STATE 0 8) 1).put (Reg.CLUSTER_CORE_STS.SPMODE 0 8) mode with
    sched := { act := [(0, { emptyImage with paths := [{ path0 with stage := 8, stageValid := true }] })] }, stageIn := [stageFrame good cut n] }

/-- Partition 0 holds key slots 0 to 15, and slot 5 a key. -/
def keyed (s : State) : State := (s.put (Reg.PART_KEYS.NUM 0) 16).setKey 5 (some (List.replicate 16 7))

/-- Partition 1 holds key slots 0 to 15; its host's LOAD names an address, and a record with a length byte stands at 0x1000. -/
def keyLoading (a len : Nat) : State :=
  { ((((owned 1).put (Reg.PART_KEYS.NUM 1) 16).put (Reg.SEC_KEY_ADDR_LO.ADDR_LO 0) (a % 2 ^ 32 / 64)).put (Reg.SEC_KEY_ADDR_HI.ADDR_HI 0) (a / 2 ^ 32)) with
    hostMem0 := memWrite [] 0x1000 (leBytes 32 len ++ List.replicate 16 7) }

/-- Partition 1, in a state and with the right to save, holds key slots 0 to 15; its host's save frame names slot 5, which holds 32 bytes, address 0
and some pages. Instance 5 is ACTIVE in it. -/
def saving (st pages : Nat) : State :=
  ((((((((owned 1).put (Reg.PART_STS.STATE 1) st).put (Reg.PART_ALLOC.SAVE 1) 1).put (Reg.PART_KEYS.NUM 1) 16).setKey 5 (some (List.replicate 32 7))).put
    (Reg.PART_CMD_KEY.KEY 0) 5).put (Reg.PART_CMD_LEN.PAGES 0) pages).put (Reg.PART_INST.STATE 5) 1).put (Reg.PART_INST.PARTITION 5) 1

/-- The header of the saved image of an instance that holds nothing, its IV of nines. -/
def restoreHead : List Byte :=
  leBytes 4 0x4E564B53 ++ leBytes 2 1 ++ [1, 1] ++ leBytes 2 5 ++ leBytes 2 0 ++ leBytes 4 144 ++ leBytes 8 0 ++ List.replicate 12 9 ++ List.replicate 92 0

/-- The image's tag. -/
def restoreTag : List Byte := gcmTag (List.replicate 32 7) (List.replicate 12 9) restoreHead []

/-- The same in SEALED, with that header and that tag at address 0. -/
def restoring : State :=
  { saving 2 1 with hostMem0 := memWrite [] 0 restoreHead ++ (List.range 16).map (fun i => (128 + i, restoreTag.getD i 0)) }

/-- A reduction descriptor: one contribution of FP32 elements from 0x1000 to 0x2000 of host memory. -/
def redBytes (members rank elems sig : Nat) : List Byte :=
  leBytes 8 0x1000 ++ leBytes 8 0x2000 ++ leBytes 2 1 ++ leBytes 2 members ++ leBytes 2 rank ++ [0, 0, 0, 0] ++ leBytes 2 elems ++ leBytes 4 0
    ++ leBytes 8 sig ++ List.replicate 24 0

/-- Core 8 of partition 1 has posted it. -/
def redPost (b : List Byte) : RedPost := { core := 8, cid := 1024, desc := b }

/-- Its segment. -/
def redSeg (b : List Byte) : RedSeg := { part := 1, desc := b, core := 8, cid := 1024, exact := false }

/-- The same to DDR. -/
def redToDdr (members rank elems sig : Nat) : List Byte :=
  (redBytes members rank elems sig).take 8 ++ leBytes 8 (2 ^ 52 + 0x20001000) ++ (redBytes members rank elems sig).drop 16

/-- The same from host memory outside every aperture. -/
def redFar (members rank elems sig : Nat) : List Byte := leBytes 8 0x10000000000 ++ (redBytes members rank elems sig).drop 8

/-- Segments of cluster 0 while the DDR region of partition 1 is being filled. -/
def redFilling (g : List RedSeg) : State := (tiered 1 1).setCluster 0 { segs := g }

/-- Partition 1 as above; the reduction unit of cluster 0 has a posted descriptor and segments. -/
def reducing (q : List RedPost) (g : List RedSeg) : State := (owned 1).setCluster 0 { redq := q, segs := g }

/-- READY with instance 5 ACTIVE in partition 1 and a queue of it as queue 3, at doorbell slot 2. -/
def ringing (q : Queue) : State :=
  { ((owned 1).put (Reg.PART_INST.STATE 5) 1).put (Reg.PART_INST.PARTITION 5) 1 with queues := [(3, { q with cid := 1029, dbSlot := 2, base := 0x1000 })] }

/-- A doorbell value for that instance. -/
def bell (index gen : Nat) (arm : Bool := false) : BitVec 64 := BitVec.ofNat 64 (index + 2 ^ 24 * gen + 2 ^ 32 * 1029 + (if arm then 2 ^ 63 else 0))

/-- Host 0's BAR4 window of partition 1's DDR, which is in a state. -/
def mapped (fill : Nat) (b : B4Map := { enable := true, space := 1, part := 1, offset := 0x20000000 }) : State := (tiered 1 fill).setHost 0 { b4 := b }

/-- The same with a request that waits. -/
def mapWait (fill : Nat) (r : B4Req) (b : B4Map := { enable := true, space := 1, part := 1, offset := 0x20000000 }) : State :=
  (tiered 1 fill).setHost 0 { b4 := b, b4Wait := [(b, r)] }

/-- The descriptor of a completion queue of instance 5 of partition 1. -/
def cqDesc (vector modCount : Nat) : List Byte :=
  ({ base := 0x1000, type := 2, cid := 1029, dbSlot := 2, vector := vector, modCount := modCount } : Queue).encode

/-- A host's queue command names an image that holds those bytes. -/
def commanding (s : State) (b : List Byte) : State := { s with hostMem0 := memWrite [] 0 b }

/-- A queue pair 9 of partition 1 in RTS, in its bank, whose work queues are 6 (send) and 7 (receive). -/
def rtsQp : Qp := { ctx := { qpn := 9, cid := 1024, state := 3, sq := 6, rq := 7, retryCnt := 3, retryLeft := 3, rnrRetry := 3, rnrLeft := 2, window := 64, timer := 5 }, place := .resident 0 }

/-- A packet for it has arrived. -/
def rxOf (t : TPkt) : RxPkt := { port := 5, cls := 4, bytes := t.elpBytes }

/-- Partition 1 as above with that queue pair, a send and a receive queue, and a packet that waits. -/
def receiving (t : TPkt) (y : Qp := rtsQp) (sq rq : Queue := {}) : State :=
  { owned 1 with qps := [(9, y)], rxq := [rxOf t], queues := [(6, { sq with cid := 1024 }), (7, { rq with cid := 1024, type := 1 })] }

/-- The same once the packet has left the queue. -/
def received (t : TPkt) (y : Qp := rtsQp) (sq rq : Queue := {}) : State := { receiving t y sq rq with rxq := [] }

/-- A posted receive entry for a buffer at 0x2000 of host memory. -/
def recvLive (len : Nat := 64) : Live :=
  { pos := 0, opcode := 0x40, issued := true, len := len, bytes := [0x40, 1] ++ List.replicate 30 0 ++ leBytes 8 0x2000 ++ leBytes 4 len ++ List.replicate 20 0 }

/-- A started READ of some bytes into 0x2000 of host memory, its first PSN 0; or an atomic. -/
def sentLive (op len : Nat) : Live :=
  { pos := 0, opcode := op, issued := true, len := len, bytes := leBytes 1 op ++ [1] ++ List.replicate 30 0 ++ leBytes 8 0x2000 ++ leBytes 4 len ++ List.replicate 20 0 }

/-- A window beyond every aperture. -/
def windowFar (s : State) : State :=
  { s with wins := { s.wins with desc := [(5, { base := 0x10000000000, limit := 0x10000000FFF, cid := 1024, gen := 1, state := 1, read := true, write := true })] } }

/-- Window 5, generation 1, of partition 1: 4 KiB at 0x1000 of host memory. -/
def windowed (s : State) : State :=
  { s with wins := { s.wins with desc := [(5, { base := 0x1000, limit := 0x1FFF, cid := 1024, gen := 1, state := 1, read := true, write := true, atomic := true })] } }

/-- Partition 1 as above with that queue pair and its queues, and no packet. -/
def pairing (y : Qp := rtsQp) (sq : Queue := {}) : State := received { kind := .send } y sq

/-- The row of TALLY_PLAN, a plain register of the boot host. -/
def planRow : RegRow := ((regAt? Reg.TALLY_PLAN.off).get (by decide +kernel)).1

/-- A host read that its check lets through and no completion of which is poisoned. -/
theorem hostRead_ok (s : State) (cid a n : Nat) (h : s.memCheck cid 0 a n false = .ok ()) (hp : s.poisoned = []) :
    s.memReadC cid 0 a n = (s, .ok (memRead (s.hostMem (s.owner (cidPart cid))) a n)) := by
  unfold State.memReadC State.hostBad
  rw [h, hp]
  rfl

/-- A command that reads no host memory sees the state as it stands. -/
theorem see_nil (s : State) (h : s.poisoned = []) : s.see [] = s := by
  cases s
  cases h
  rfl

/-- What the host of partition 1 keeps at address 0, as its save frame reads it. -/
theorem save_read (s : State) (off : Nat) (w : Word) (h : s.poisoned = []) (h0 : ((s.applyWrite off w).see []).owner (cidPart (1024 * 1 + 0x3FF)) = 0)
    (h1 : ((s.applyWrite off w).see []).get (Reg.PART_CMD_ADDR_HI.SPACE 0) = 0) (h2 : ((s.applyWrite off w).see []).saveAddr 0 = 0)
    (h3 : ((s.applyWrite off w).see []).memCheck (1024 * 1 + 0x3FF) 0 0 4096 false = .ok ()) :
    ((s.applyWrite off w).see []).memReadC (1024 * 1 + 0x3FF) (((s.applyWrite off w).see []).get (Reg.PART_CMD_ADDR_HI.SPACE 0))
        (((s.applyWrite off w).see []).saveAddr 0) 4096
      = ((s.applyWrite off w).see [], .ok (memRead s.hostMem0 0 4096)) := by
  have e := (Laws.applyWrite_same s off w)
  have p : (s.applyWrite off w).poisoned = [] := (e.poisoned (by decide)).trans h
  have m : (s.applyWrite off w).hostMem0 = s.hostMem0 := e.hostMem0 (by decide)
  rw [h1, h2, see_nil _ p] at *
  rw [hostRead_ok _ _ _ _ h3 p, h0]
  show _ = (_, Except.ok (memRead s.hostMem0 0 4096))
  rw [← m]
  rfl

theorem restoreTag_length : restoreTag.length = 16 := by decide +kernel

theorem restore_tag_bytes (g : List Byte) :
    slice (memRead (memWrite [] 0 restoreHead ++ (List.range 16).map (fun i => (128 + i, g.getD i 0))) 0 4096) 128 16 = (List.range 16).map (g.getD · 0) := by
  rfl

theorem restore_head_bytes (g : List Byte) :
    (memRead (memWrite [] 0 restoreHead ++ (List.range 16).map (fun i => (128 + i, g.getD i 0))) 0 4096).take 128 = restoreHead := by
  rfl

/-- The tag of the image of `restoring`. -/
theorem restoring_tag : gcmTag (List.replicate 32 7) (slice (memRead restoring.hostMem0 0 4096) 24 12) ((memRead restoring.hostMem0 0 4096).take 128)
    (slice (memRead restoring.hostMem0 0 4096) 128 0) = slice (memRead restoring.hostMem0 0 4096) 128 16 := by
  rw [show restoring.hostMem0 = memWrite [] 0 restoreHead ++ (List.range 16).map (fun i => (128 + i, restoreTag.getD i 0)) from rfl, restore_tag_bytes, restore_head_bytes]
  refine Eq.trans ?_ (show restoreTag = _ from List.ext_getElem (by simp [restoreTag_length]) (by intro i h1 h2; simp [h1]))
  rfl

/-- A partition whose holding names no core holds none. -/
theorem coresOf_nil (s : State) (p : Nat) (h : ∀ k < 64, s.get (Reg.PART_CORES_LO.CORES p k) = 0 ∧ s.get (Reg.PART_CORES_HI.CORES p k) = 0) :
    s.coresOf p = [] := by
  simp only [State.coresOf, List.filter_eq_nil_iff, List.mem_range, State.holdsCore]
  intro c hc
  have := h (c / 64) (by omega)
  split <;> simp [this, bitAt, bits]

/-- Partition 1 is being frozen and holds no core. -/
def freezing : State := { owned 1 with parts := { freezes := [{ host := 0, part := 1, inst := none }] } }

theorem freezing_cores : (freezing.freezeQps 1 none).coresOf 1 = [] :=
  coresOf_nil _ _ (by decide +kernel)

/-- What the load of `loading` reads. -/
theorem loading_read :
    (((loading.put (Reg.CLUSTER_PLD_CMD.PARTITION 0 0) 1).put (Reg.CLUSTER_PLD_CMD.OP 0 0) 1).see []).memReadC (1 * 1024 + 0x3FF)
        (loading.get (Reg.CLUSTER_PLD_ADDR_HI.SPACE 0 0)) (loading.pair (Reg.CLUSTER_PLD_ADDR_LO.ADDR_LO 0 0) (Reg.CLUSTER_PLD_ADDR_HI.ADDR_HI 0 0))
        (4096 * loading.get (Reg.CLUSTER_PLD_LEN.PAGES 0 0))
      = ((loading.put (Reg.CLUSTER_PLD_CMD.PARTITION 0 0) 1).put (Reg.CLUSTER_PLD_CMD.OP 0 0) 1,
        .ok (memRead (((loading.put (Reg.CLUSTER_PLD_CMD.PARTITION 0 0) 1).put (Reg.CLUSTER_PLD_CMD.OP 0 0) 1).hostMem 0) 0 4096)) := by
  rw [see_nil _ rfl, show loading.get (Reg.CLUSTER_PLD_ADDR_HI.SPACE 0 0) = 0 by decide +kernel,
    show loading.pair (Reg.CLUSTER_PLD_ADDR_LO.ADDR_LO 0 0) (Reg.CLUSTER_PLD_ADDR_HI.ADDR_HI 0 0) = 0 by decide +kernel,
    show loading.get (Reg.CLUSTER_PLD_LEN.PAGES 0 0) = 1 by decide +kernel, hostRead_ok _ _ _ _ (by decide +kernel) rfl,
    show ((loading.put (Reg.CLUSTER_PLD_CMD.PARTITION 0 0) 1).put (Reg.CLUSTER_PLD_CMD.OP 0 0) 1).owner (cidPart (1 * 1024 + 0x3FF)) = 0 by decide +kernel]

/-- The 128 bytes of an image of a partition, with its CRC, without lists, flows, paths or reservations. -/
def verdictBytes (part crc : Nat) : List Byte :=
  leBytes 4 0x44484353 ++ leBytes 2 1 ++ leBytes 1 part ++ leBytes 1 0 ++ leBytes 8 4000 ++ leBytes 4 0 ++ leBytes 4 1 ++ leBytes 4 0
    ++ leBytes 4 0 ++ leBytes 4 0 ++ leBytes 4 0 ++ leBytes 4 128 ++ leBytes 4 128 ++ leBytes 4 128 ++ leBytes 4 128 ++ leBytes 4 0
    ++ leBytes 4 128 ++ List.replicate 60 0 ++ leBytes 4 crc

/-- What that image says. -/
def verdictImage (part : Nat) : Image :=
  { partition := part, tableSwitch := false, takeover := 4000, mapGen := 0, hyper := 1, energyMw := 0, lists := [], flows := [], paths := [], res := [] }

/-- A submission of partition 1, in host memory. -/
def verdictSubmit : Submit :=
  { part := 1, locked := true, gen := 0, armed := false, preempt := [], addr := 0x1000, space := 0, pages := 1 }

/-- READY with that submission and such an image of a partition at its address, the time unit locked. -/
def verdictState (part crc : Nat) : State :=
  { (owned 1).put Reg.TIME_STS.STATE 2 with sched := { submits := [verdictSubmit] }, hostMem0 := memWrite [] 0x1000 (verdictBytes part crc) }

theorem memRead_len (m : Mem) (a n : Nat) : (memRead m a n).length = n := by
  induction n generalizing a with
  | zero => rfl
  | succ n ih => simp [memRead, ih]

/-- A CRC's state over some bytes is that over the rest, from its state over the first of them. -/
theorem crc_split (l : List Byte) (n : Nat) (c x : Word) (h : (l.take n).foldl crcByte c = x) :
    l.foldl crcByte c = (l.drop n).foldl crcByte x := by
  rw [← h, ← List.foldl_append, List.take_append_drop]

/-- The header check of 4,096 bytes whose image is some bytes with a known CRC. -/
theorem header_of (b l : List Byte) (k : Word) (hl : b.length = 4096)
    (e : (b.take 124 ++ [0, 0, 0, 0] ++ b.drop 128).take (leAt b 60 4) = l) (hc : crc32 l = k)
    (h : (leAt b 0 4 == 0x44484353 && leAt b 4 2 == 1 && leAt b 6 1 < 64 && leAt b 7 1 < 2 && zeroAt b 18 2 && 1 ≤ leAt b 20 4
      && leAt b 20 4 ≤ 2 ^ 20 && leAt b 28 4 ≤ 65536 && leAt b 32 4 ≤ 65535 && 128 ≤ leAt b 60 4 && leAt b 60 4 ≤ 2 ^ 26
      && leAt b 60 4 ≤ 4096 && zeroAt b 64 60 && leAt b 124 4 == k.toNat) = true) : imageHeaderOk b 4096 = true := by
  unfold imageHeaderOk
  simp only [hl, e, hc]
  simp only [Bool.and_eq_true] at h ⊢
  simp_all

theorem verdict_crc1 : crc32 (verdictBytes 1 0) = 0x504e78cf := by
  unfold crc32
  rw [crc_split _ 32 _ 0xe2ec0522 (by decide +kernel), crc_split _ 32 _ 0x4a7707bf (by decide +kernel), crc_split _ 32 _ 0x9ca32acf (by decide +kernel),
    crc_split _ 32 _ 0xafb18730 (by decide +kernel)]
  decide +kernel

theorem verdict_parse1 : parseImage (memRead (verdictState 1 0x504e78cf).hostMem0 0x1000 4096) 4096 = .ok (verdictImage 1) := by
  have e : ((memRead (verdictState 1 0x504e78cf).hostMem0 0x1000 4096).take 124 ++ [0, 0, 0, 0]
    ++ (memRead (verdictState 1 0x504e78cf).hostMem0 0x1000 4096).drop 128).take (leAt (memRead (verdictState 1 0x504e78cf).hostMem0 0x1000 4096) 60 4)
      = verdictBytes 1 0 := by decide +kernel
  unfold parseImage
  rw [header_of _ _ _ (memRead_len ..) e verdict_crc1 (by decide +kernel)]
  decide +kernel

theorem verdict_read1 : ((verdictState 1 0x504e78cf).see []).memReadC (1 * 1024 + 0x3FF) 0 0x1000 4096
    = (verdictState 1 0x504e78cf, .ok (memRead (verdictState 1 0x504e78cf).hostMem0 0x1000 4096)) := by
  rw [see_nil _ rfl, hostRead_ok _ _ _ _ (by decide +kernel) rfl, show (verdictState 1 0x504e78cf).owner (cidPart (1 * 1024 + 0x3FF)) = 0 by decide +kernel]
  rfl

theorem verdict_crc2 : crc32 (verdictBytes 2 0) = 0x34cbb60c := by
  unfold crc32
  rw [crc_split _ 32 _ 0x10bbe8da (by decide +kernel), crc_split _ 32 _ 0x953e170a (by decide +kernel), crc_split _ 32 _ 0x62db750f (by decide +kernel),
    crc_split _ 32 _ 0xcb3449f3 (by decide +kernel)]
  decide +kernel

theorem verdict_parse2 : parseImage (memRead (verdictState 2 0x34cbb60c).hostMem0 0x1000 4096) 4096 = .ok (verdictImage 2) := by
  have e : ((memRead (verdictState 2 0x34cbb60c).hostMem0 0x1000 4096).take 124 ++ [0, 0, 0, 0]
    ++ (memRead (verdictState 2 0x34cbb60c).hostMem0 0x1000 4096).drop 128).take (leAt (memRead (verdictState 2 0x34cbb60c).hostMem0 0x1000 4096) 60 4)
      = verdictBytes 2 0 := by decide +kernel
  unfold parseImage
  rw [header_of _ _ _ (memRead_len ..) e verdict_crc2 (by decide +kernel)]
  decide +kernel

theorem verdict_read2 : ((verdictState 2 0x34cbb60c).see []).memReadC (1 * 1024 + 0x3FF) 0 0x1000 4096
    = (verdictState 2 0x34cbb60c, .ok (memRead (verdictState 2 0x34cbb60c).hostMem0 0x1000 4096)) := by
  rw [see_nil _ rfl, hostRead_ok _ _ _ _ (by decide +kernel) rfl, show (verdictState 2 0x34cbb60c).owner (cidPart (1 * 1024 + 0x3FF)) = 0 by decide +kernel]
  rfl

end Sys2Proof.Tests
namespace Sys2Proof.Tests
open Sys2Proof Sys2Proof.Machine

/-- Host memory past 52 bits of address. -/
theorem test_wf_seen : (Instr.admissionVerdict [{ host := 0, addr := 2 ^ 52, bytes := [1#8] }]).wellFormed = false := by decide +kernel

/-- A seventh AES unit of a cluster. -/
theorem test_wf_unit : (Instr.unitFailure { unit := { kind := .aes, place := 0, index := 6 } }).wellFormed = false := by decide +kernel

/-- An ordered set of 63 bytes. -/
theorem test_wf_copies : (Instr.alignReceive 0 [List.replicate 63 0#8]).wellFormed = false := by decide +kernel

/-- A container body of 65 bytes. -/
theorem test_wf_containers : (Instr.elpFrameReceive 0 [{ ctrl := 0, body := List.replicate 65 0#8 }] false).wellFormed = false := by
  decide +kernel

/-- An access past the end of BAR0. -/
theorem test_wf_span : (Instr.bar0BadAccess 0 false 0xFFFFFF 2).wellFormed = false := by decide +kernel

/-- A routing-table write outside the routing tables. -/
theorem test_wf_routing : (Instr.routingTableWrite 0 0x320000 0).wellFormed = false := by decide +kernel

/-- A PFC frame of seven times. -/
theorem test_wf_pfc : (Instr.pfcFrameReceive 0 0 0 (List.replicate 7 0)).wellFormed = false := by decide +kernel

/-- An attestation nonce of 31 bytes. -/
theorem test_wf_nonce : (Instr.mctpRequest (.attest (List.replicate 31 0) none)).wellFormed = false := by decide +kernel

/-- Fifteen modules for the training. -/
theorem test_wf_training : (Instr.go 0 [] { modules := List.replicate 15 Module.absent } {}).wellFormed = false := by decide +kernel

/-- A lane beyond the 68 of a cluster in a start-up finding. -/
theorem test_wf_tests : (Instr.computeResetCleared { units := [[{ kind := .core, place := 0, index := 68 }]], cells := [] }).wellFormed = false := by
  decide +kernel

/-- Fuse digests of 31 bytes. -/
theorem test_wf_burned : burnedOk (some { seed := List.replicate 31 0 }) = false := by decide +kernel

/-- Fourteen energy counts of a Tally window. -/
theorem test_wf_energy : (Instr.tallyWindowEnd (List.replicate 14 0)).wellFormed = false := by decide +kernel

/-- A contribution order naming rank 1,024. -/
theorem test_wf_order : (Instr.reduce 0 [1024] []).wellFormed = false := by decide +kernel

/-- A holdings write that is not 4-aligned. -/
theorem test_wf_holding : (Instr.holdingWrite 0 2 0).wellFormed = false := by decide +kernel

/-- An Ethernet frame of no byte. -/
theorem test_wf_frame : (Instr.ethFrameReceive 0 0 [] false).wellFormed = false := by decide +kernel

end Sys2Proof.Tests

namespace Sys2Proof.Tests
open Sys2Proof Sys2Proof.Machine

/-- States and operands that meet the hypotheses of LockStateMoves. -/
theorem witness_LockStateMoves :
    (let s : State := ready.put Reg.TIME_STS.STATE 2; (decide (s.get Reg.TIME_STS.STATE = 2)) = true)
    ∧ (let s : State := (ready.put Reg.TIME_STS.STATE 3).put Reg.TIME_STS.HOLD_MS 90; (decide (s.get Reg.TIME_STS.STATE ≠ 2)) = true ∧ (decide (s.get Reg.TIME_STS.STATE = 3)) = true)
    ∧ (let s : State := ready.put Reg.TIME_STS.STATE 4; (decide (s.get Reg.TIME_STS.STATE = 4)) = true)
    ∧ (let s : State := { ready.put Reg.TIME_STS.STATE 3 with time := { ready.time with timerRunning := true } }; let off : Int := 25600; (decide (s.get Reg.TIME_STS.STATE = 3) && decide (off.natAbs ≤ 25600)) = true)
    ∧ (let s : State := ready.put Reg.TIME_STS.STATE 1; (decide (s.get Reg.TIME_STS.STATE = 1 ∨ s.get Reg.TIME_STS.STATE = 2)) = true)
    ∧ (let s : State := ready.put Reg.TIME_STS.STATE 0; (decide (s.get Reg.TIME_STS.STATE = 0)) = true)
    ∧ (let s : State := ready.put Reg.TIME_STS.STATE 1; (decide (s.get Reg.TIME_STS.STATE = 1)) = true)
    ∧ (let s : State := (ready.put Reg.TIME_STS.STATE 3).put Reg.TIME_STS.HOLD_MS 44; (decide (s.get Reg.TIME_STS.STATE = 3)) = true)
    ∧ (let s : State := ready.put Reg.TIME_STS.STATE 2; (decide (s.get Reg.TIME_STS.STATE ≠ 1) && decide (s.get Reg.TIME_STS.STATE ≠ 3)) = true)
    ∧ (let s : State := ready.put Reg.TIME_STS.STATE 2; (decide (s.get Reg.TIME_STS.STATE = 2)) = true)
    ∧ (let s : State := ready.put Reg.TIME_STS.STATE 3; (decide (s.get Reg.TIME_STS.STATE ≠ 2)) = true)
    ∧ (let s : State := { ready.put Reg.TIME_STS.STATE 3 with time := { ready.time with timerRunning := true } }; (decide (s.get Reg.TIME_STS.STATE = 3) && decide (s.get Reg.TIME_STS.SRC_VALID = 0) && decide (s.time.timerRunning = true)) = true)
    ∧ (let s : State := ready.put Reg.TIME_STS.STATE 2; (decide (s.get Reg.TIME_STS.STATE ≠ 3 ∨ s.get Reg.TIME_STS.SRC_VALID = 1)) = true) := by
  refine ⟨?_, ?_, ?_, ?_, ?_, ?_, ?_, ?_, ?_, ?_, ?_, ?_, ?_⟩ <;> decide +kernel

/-- States and operands that meet the hypotheses of TimeRegisterWrites. -/
theorem witness_TimeRegisterWrites :
    (let s : State := ready; let h : HostId := 0; let v : Word := 0x52#32; (Takes s h Reg.TIME_CTL.off) ∧ (decide (wordField v 0 2 = s.get Reg.TIME_CTL.SRC ∨ s.schedBusy = false) && decide (4 ≤ wordField v 4 3) && decide (wordField v 4 3 ≤ 6)) = true ∧ (decide (wordField v 0 2 ≠ s.get Reg.TIME_CTL.SRC) && decide (s.schedBusy = false)) = true)
    ∧ (let s : State := busy; let h : HostId := 0; let v : Word := 0x52#32; (Takes s h Reg.TIME_CTL.off) ∧ (decide (wordField v 0 2 ≠ s.get Reg.TIME_CTL.SRC) && decide (s.schedBusy = true)) = true)
    ∧ (let s : State := ready; let h : HostId := 0; let v : Word := 0x50#32 + BitVec.ofNat 32 (ready.get Reg.TIME_CTL.SRC); (Takes s h Reg.TIME_CTL.off) ∧ (decide (wordField v 0 2 = s.get Reg.TIME_CTL.SRC) && decide (wordField v 3 1 = 0)) = true)
    ∧ (let s : State := (((ready.put Reg.TIME_CTL.SRC 0).put Reg.TIME_SET_LO.SET 2000000000)); let h : HostId := 0; let v : Word := 0x0#32; (Takes s h Reg.TIME_CTL.off) ∧ (wordField v 0 2 = s.get Reg.TIME_CTL.SRC) ∧ (decide (s.get Reg.TIME_CTL.SRC = 0) && decide (s.pair Reg.TIME_SET_LO.SET Reg.TIME_SET_HI.SET % 1000000000 = 0)) = true)
    ∧ (let s : State := (((ready.put Reg.TIME_CTL.SRC 0).put Reg.TIME_SET_LO.SET 2000000001)); let h : HostId := 0; let v : Word := 0x4#32; (Takes s h Reg.TIME_CTL.off) ∧ (wordField v 0 2 = s.get Reg.TIME_CTL.SRC) ∧ (decide (s.get Reg.TIME_CTL.SRC ≠ 0 ∨ s.pair Reg.TIME_SET_LO.SET Reg.TIME_SET_HI.SET % 1000000000 ≠ 0)) = true)
    ∧ (let s : State := ready; let h : HostId := 0; let v : Word := 9#32; (Takes s h Reg.TIME_PORT.off) ∧ (decide (wordField v 0 6 ≠ s.get Reg.TIME_PORT.PORT) && decide (s.schedBusy = false) && decide (s.get Reg.TIME_CTL.SRC ≠ 3)) = true)
    ∧ (let s : State := busy; let h : HostId := 0; let v : Word := 9#32; (Takes s h Reg.TIME_PORT.off) ∧ (decide (wordField v 0 6 ≠ s.get Reg.TIME_PORT.PORT) && decide (s.schedBusy = true)) = true)
    ∧ (let s : State := ready; let h : HostId := 0; let v : Word := 0#32; (Takes s h Reg.TIME_PORT.off) ∧ (decide (wordField v 0 6 = s.get Reg.TIME_PORT.PORT)) = true)
    ∧ (let s : State := ready.put Reg.TIME_CTL.SRC 3; let h : HostId := 0; let v : Word := 63#32; (Takes s h Reg.TIME_PORT.off) ∧ (decide (wordField v 0 6 ≠ s.get Reg.TIME_PORT.PORT) && decide (s.schedBusy = false) && decide (s.get Reg.TIME_CTL.SRC = 3)) = true)
    ∧ (let s : State := (ready.put Reg.TIME_STS.STATE 3).put Reg.TIME_STS.HOLD_MS 40; let h : HostId := 0; let v : Word := 40#32; (Takes s h Reg.TIME_HOLD_LIMIT.off) ∧ (decide (1 ≤ wordField v 0 10) && decide (wordField v 0 10 ≤ 1000) && decide (wordField v 0 10 ≤ s.get Reg.TIME_HOLD_LIMIT.LIMIT_MS ∨ s.schedBusy = false) && decide (s.get Reg.TIME_STS.STATE = 3) && decide (s.get Reg.TIME_STS.SRC_VALID = 0) && decide (wordField v 0 10 ≤ s.get Reg.TIME_STS.HOLD_MS)) = true)
    ∧ (let s : State := ready; let h : HostId := 0; let v : Word := 1001#32; (Takes s h Reg.TIME_HOLD_LIMIT.off) ∧ (decide (wordField v 0 10 = 0 ∨ 1000 < wordField v 0 10)) = true)
    ∧ (let s : State := busy; let h : HostId := 0; let v : Word := 1000#32; (Takes s h Reg.TIME_HOLD_LIMIT.off) ∧ (decide (1 ≤ wordField v 0 10) && decide (wordField v 0 10 ≤ 1000) && decide (s.get Reg.TIME_HOLD_LIMIT.LIMIT_MS < wordField v 0 10) && decide (s.schedBusy = true)) = true)
    ∧ (let s : State := { ready with time := { ready.time with ftNs := 0x123456789ABCDEF0#64, frac := 5#8 } }; let h : HostId := 1; (s.bar0Reach h Reg.TIME_NOW_LO.off = true)) := by
  refine ⟨?_, ?_, ?_, ?_, ?_, ?_, ?_, ?_, ?_, ?_, ?_, ?_, ?_⟩ <;> decide +kernel

/-- States and operands that meet the hypotheses of ScrivenerCommands. -/
theorem witness_ScrivenerCommands :
    (let s : State := ready.setEv 0 { gathers := [{ first := { code := 0x80, sev := 1 } }, { first := { code := 0x81, sev := 1 }, later := 3, ft := 77 }] }; let h : HostId := 0; let i : Nat := 1; ((match (s.ev h).gathers[i]? with | some g => decide (g.later ≠ 0) | _ => false)) = true)
    ∧ (let s : State := ready.setEv 0 { gathers := [{ first := { code := 0x80, sev := 1 } }, { first := { code := 0x81, sev := 1 }, later := 3, ft := 77 }] }; let h : HostId := 0; let i : Nat := 0; ((match (s.ev h).gathers[i]? with | some g => decide (g.later = 0) | _ => false)) = true)
    ∧ (let s : State := ready; let h : HostId := 1; let i : Nat := 0; (decide ((s.ev h).gathers[i]? = none)) = true)
    ∧ (let s : State := (((ready.put (Reg.TELEM_EVQ_CTL.LOG2_SIZE 0) 8).put (Reg.TELEM_EVQ_CTL.ENABLE 0) 1).put (Reg.TELEM_EVQ_PROD.INDEX 0) 255).put (Reg.TELEM_EVQ_CONS.INDEX 0) 17 |>.setEv 0 { queue := [{ code := 0x40, sev := 2, part := some 5, args := [1, 2, 3] }], lostNext := true }; let h : HostId := 0; ((match (s.ev h).queue with | [r] => decide (s.ringRoom h = true) && decide (s.get (Reg.TELEM_EVQ_CTL.LOG2_SIZE h) ≤ 16) | _ => false)) = true)
    ∧ (let s : State := ready.setEv 1 { queue := [{ code := 0x40, sev := 2 }] }; let h : HostId := 1; (decide (s.ringRoom h = false)) = true)
    ∧ (let s : State := ready; let h : HostId := 0; (decide ((s.ev h).queue = [])) = true)
    ∧ (let s : State := (ready.put (Reg.HOSTIF_MSIX_CTL.MASK 1 0) 0).setEv 1 { unsignalled := true }; let h : HostId := 1; (decide ((s.ev h).unsignalled = true) && decide (s.get (Reg.HOSTIF_MSIX_CTL.MASK h 0) = 0) && decide (s.hostUp h = true) && decide ((s.host h).d3hot = false)) = true)
    ∧ (let s : State := (ready.put (Reg.HOSTIF_MSIX_CTL.MASK 1 0) 1).setEv 1 { unsignalled := true }; let h : HostId := 1; (decide ((s.ev h).unsignalled = true) && decide (s.get (Reg.HOSTIF_MSIX_CTL.MASK h 0) = 1 ∨ s.hostUp h = false ∨ (s.host h).d3hot = true)) = true)
    ∧ (let s : State := ready; let h : HostId := 0; (decide ((s.ev h).unsignalled = false)) = true)
    ∧ (let s : State := { (ready.put Reg.SEC_LC.STATE 3) with scriv := { sticky := [(4, { code := 0x53 })], stickyNext := 5 } }; let h : HostId := 0; (Takes s h Reg.TELEM_STK_CTL.off) ∧ (decide (s.get Reg.SEC_LC.STATE = 0 ∨ s.get Reg.SEC_LC.STATE = 3)) = true)
    ∧ (let s : State := { (ready.put Reg.SEC_LC.STATE 2) with scriv := { sticky := [(4, { code := 0x53 })], stickyNext := 5 } }; let h : HostId := 0; (Takes s h Reg.TELEM_STK_CTL.off) ∧ (decide (s.get Reg.SEC_LC.STATE ≠ 0) && decide (s.get Reg.SEC_LC.STATE ≠ 3)) = true) := by
  refine ⟨?_, ?_, ?_, ?_, ?_, ?_, ?_, ?_, ?_, ?_, ?_⟩ <;> decide +kernel

/-- States and operands that meet the hypotheses of PtpAndTimeSet. -/
theorem witness_PtpAndTimeSet :
    (let s : State := ready.put (Reg.LINK_CFG.MODE 63) 1; let port : PortId := 63; (decide (s.get (Reg.LINK_CFG.MODE port) = 1)) = true)
    ∧ (let s : State := (ready.put (Reg.LINK_CFG.MODE 5) 0).put (Reg.LINK_CFG.PTP_MASTER 5) 1; let port : PortId := 5; let m : PtpMsg := { kind := .pdelayReq, seq := 7, stamp := 9 }; (decide (s.get (Reg.LINK_CFG.MODE port) ≠ 1) && decide (m.kind = .pdelayReq) && decide (s.ptpMaster port = true ∨ s.ptpSlave port = true)) = true)
    ∧ (let s : State := (ready.put (Reg.LINK_CFG.MODE 5) 0).put (Reg.LINK_CFG.PTP_MASTER 5) 1; let port : PortId := 5; let m : PtpMsg := { kind := .delayReq, seq := 7, stamp := 9 }; (decide (s.get (Reg.LINK_CFG.MODE port) ≠ 1) && decide (m.kind = .delayReq) && decide (s.ptpMaster port = true)) = true)
    ∧ (let s : State := (ready.put (Reg.LINK_CFG.MODE 5) 0).put (Reg.LINK_CFG.PTP_MASTER 5) 0; let port : PortId := 5; let m : PtpMsg := { kind := .delayReq, seq := 7, stamp := 9 }; (decide (s.get (Reg.LINK_CFG.MODE port) ≠ 1) && decide (m.kind = .delayReq) && decide (s.ptpMaster port = false)) = true)
    ∧ (let s : State := ready.put (Reg.LINK_CFG.MODE 0) 0; let port : PortId := 0; let m : PtpMsg := { kind := .announce, seq := 7, stamp := 9 }; (decide (s.get (Reg.LINK_CFG.MODE port) ≠ 1) && decide (m.kind ≠ .delayReq) && decide (m.kind ≠ .pdelayReq)) = true)
    ∧ (let s : State := { (((ready.put (Reg.LINK_CFG.MODE 5) 0).put (Reg.LINK_CFG.PTP_MASTER 5) 1)) with time := { ready.time with ftNs := 50 } }; let port : PortId := 5; let m : PtpMsg := { kind := .announce, seq := 7, stamp := 9 }; (decide (s.get (Reg.LINK_CFG.MODE port) = 0) && decide (s.ptpMaster port = true) && decide (m.kind ≠ .delayReq)) = true)
    ∧ (let s : State := (((ready.put (Reg.LINK_CFG.MODE 5) 0).put (Reg.LINK_CFG.PTP_MASTER 5) 0).put Reg.TIME_CTL.SRC 2).put Reg.TIME_PORT.PORT 5; let port : PortId := 5; let m : PtpMsg := { kind := .delayReq, seq := 7, stamp := 9 }; (decide (s.get (Reg.LINK_CFG.MODE port) = 0) && decide (s.get Reg.TIME_CTL.SRC = 2) && decide (s.get Reg.TIME_PORT.PORT = port.val) && decide (m.kind = .delayReq)) = true)
    ∧ (let s : State := ready.put (Reg.LINK_CFG.MODE 5) 1; let port : PortId := 5; (decide (s.get (Reg.LINK_CFG.MODE port) ≠ 0)) = true)
    ∧ (let s : State := (ready.put (Reg.LINK_CFG.MODE 5) 0).put (Reg.LINK_CFG.PTP_MASTER 5) 0; let port : PortId := 5; let m : PtpMsg := { kind := .sync, seq := 7, stamp := 9 }; (decide (s.ptpMaster port = false) && decide (m.kind ≠ .delayReq) && decide (m.kind ≠ .pdelayReq)) = true)
    ∧ (let s : State := { ready with time := { ready.time with armed := some 0xFFFFFFFFFFFFFFFF, frac := 5, phase := 2 } }; ((match s.time.armed with | some v => true | _ => false)) = true)
    ∧ (let s : State := ready; (decide (s.time.armed = none)) = true) := by
  refine ⟨?_, ?_, ?_, ?_, ?_, ?_, ?_, ?_, ?_, ?_, ?_⟩ <;> decide +kernel

/-- States and operands that meet the hypotheses of PortSignalling. -/
theorem witness_PortSignalling :
    (let s : State := { nat 7 with time := { ready.time with ftNs := 0x3333333333 } }; let p : PortId := 7; (decide (s.native p = true) && decide (s.linkOn p = true)) = true)
    ∧ (let s : State := eth 7; let p : PortId := 7; (decide (s.native p = false ∨ s.linkOn p = false)) = true)
    ∧ (let s : State := nat 63; let p : PortId := 63; (decide (s.native p = true) && decide (s.get (Reg.LINK_STS.STATE p) = 2)) = true)
    ∧ (let s : State := (nat 63).put (Reg.LINK_STS.STATE 63) 3; let p : PortId := 63; (decide (s.native p = false ∨ s.get (Reg.LINK_STS.STATE p) ≠ 2)) = true)
    ∧ (let s : State := (nat 0).put (Reg.LINK_STS.STATE 0) 3; let p : PortId := 0; (decide (s.native p = true) && decide (s.get (Reg.LINK_STS.STATE p) = 3) && decide (s.boot.needResume = false)) = true)
    ∧ (let s : State := { (nat 0).put (Reg.LINK_STS.STATE 0) 3 with boot := { ready.boot with needResume := true } }; let p : PortId := 0; (decide (s.native p = true) && decide (s.get (Reg.LINK_STS.STATE p) = 3) && decide (s.boot.needResume = true)) = true)
    ∧ (let s : State := nat 0; let p : PortId := 0; (decide (s.native p = false ∨ s.get (Reg.LINK_STS.STATE p) ≠ 3)) = true)
    ∧ (let s : State := { (nat 9).put (Reg.LINK_CFG.BEACON_TX 9) 1 with time := { ready.time with ftNs := 1000, frac := 7 } }; let p : PortId := 9; (decide (s.native p = true) && decide (s.linkOn p = true) && decide (s.get (Reg.LINK_CFG.BEACON_TX p) = 1 ∨ (s.get Reg.TIME_CTL.SRC = 1 ∧ s.get Reg.TIME_PORT.PORT = p.val))) = true)
    ∧ (let s : State := ((nat 9).put Reg.TIME_CTL.SRC 1).put Reg.TIME_PORT.PORT 8; let p : PortId := 9; (decide (s.get (Reg.LINK_CFG.BEACON_TX p) = 0) && decide (s.get Reg.TIME_CTL.SRC ≠ 1 ∨ s.get Reg.TIME_PORT.PORT ≠ p.val)) = true)
    ∧ (let s : State := eth 9; let p : PortId := 9; (decide (s.native p = false ∨ s.linkOn p = false)) = true)
    ∧ (let s : State := ((eth 3).put (Reg.LINK_CFG.PAUSE_MODE 3) 2).put (Reg.LINK_PCP_MAP.TC 3) 0o76543210; let p : PortId := 3; let sub : Fin 4 := 0; (decide (s.native p = false) && decide (sub.val < s.subports p) && decide (s.subUp p sub = true) && decide (s.linkOn p = true) && decide (s.get (Reg.LINK_CFG.PAUSE_MODE p) = 2)) = true)
    ∧ (let s : State := nat 3; let p : PortId := 3; let sub : Fin 4 := 0; (decide (s.native p = true ∨ s.subports p ≤ sub.val ∨ s.subUp p sub = false ∨ s.linkOn p = false ∨ s.get (Reg.LINK_CFG.PAUSE_MODE p) ≠ 2)) = true)
    ∧ (let s : State := (eth 3).put (Reg.LINK_CFG.PAUSE_MODE 3) 1 |>.put (Reg.LINK_CFG.BREAKOUT 3) 1 |>.setPort 3 { subsUp := [1] }; let p : PortId := 3; let sub : Fin 4 := 1; (decide (s.native p = false) && decide (sub.val < s.subports p) && decide (s.subUp p sub = true) && decide (s.linkOn p = true) && decide (s.get (Reg.LINK_CFG.PAUSE_MODE p) = 1)) = true)
    ∧ (let s : State := eth 3; let p : PortId := 3; let sub : Fin 4 := 3; (decide (s.native p = true ∨ s.subports p ≤ sub.val ∨ s.subUp p sub = false ∨ s.linkOn p = false ∨ s.get (Reg.LINK_CFG.PAUSE_MODE p) ≠ 1)) = true)
    ∧ (let s : State := (nat 2).setPort 2 { missOff := [5] }; let p : PortId := 2; let sub : Fin 4 := 0; let c : Fin 8 := 5; (decide (4 ≤ c.val) && decide (c.val ≤ 6) && decide ((s.port p).missOff.contains (subCls sub c) = true)) = true)
    ∧ (let s : State := ((nat 2).put (Reg.LINK_PFC_WM.XON 2 2) 10).setPort 2 { xoff := [6], cells := [(6, 10)] }; let p : PortId := 2; let sub : Fin 4 := 0; let c : Fin 8 := 6; (decide (s.native p = true) && decide (4 ≤ c.val) && decide (c.val ≤ 6) && decide ((s.port p).xoff.contains (subCls sub c) = true) && decide (s.get (Reg.LINK_PFC_WM.XON p (c.val - 4)) ≤ (s.port p).occ (subCls sub c))) = true)
    ∧ (let s : State := nat 2; let p : PortId := 2; let sub : Fin 4 := 0; let c : Fin 8 := 7; (decide (c.val < 4 ∨ c.val = 7)) = true ∧ (decide ((s.port p).missOff.contains (subCls sub c) = false) && decide ((s.port p).xoff.contains (s.xoffKey p sub c) = false)) = true)
    ∧ (let s : State := (eth 3).put (Reg.LINK_CFG.PREEMPT_EN 3) 1; let p : PortId := 3; let sub : Fin 4 := 0; let ok : Bool := true; (decide (s.native p = false) && decide (sub.val < s.subports p) && decide (s.get (Reg.LINK_CFG.PREEMPT_EN p) = 1) && decide (s.get (Reg.LINK_CFG.VERIFY_DIS p) = 0) && decide (s.subUp p sub = true) && decide (s.linkOn p = true) && decide (ok = true)) = true ∧ (decide (s.native p = false) && decide (sub.val < s.subports p) && decide (s.get (Reg.LINK_CFG.PREEMPT_EN p) = 1) && decide (s.get (Reg.LINK_CFG.VERIFY_DIS p) = 0) && decide (s.subUp p sub = true) && decide (s.linkOn p = true) && decide (ok = true) && decide (s.subports p = 1)) = true)
    ∧ (let s : State := (eth 3).put (Reg.LINK_CFG.PREEMPT_EN 3) 1; let p : PortId := 3; let sub : Fin 4 := 0; let ok : Bool := false; (decide (s.native p = false) && decide (sub.val < s.subports p) && decide (s.get (Reg.LINK_CFG.PREEMPT_EN p) = 1) && decide (s.get (Reg.LINK_CFG.VERIFY_DIS p) = 0) && decide (s.subUp p sub = true) && decide (s.linkOn p = true) && decide (ok = false)) = true)
    ∧ (let s : State := eth 3; let p : PortId := 3; let sub : Fin 4 := 0; (decide (s.native p = true ∨ s.subports p ≤ sub.val ∨ s.get (Reg.LINK_CFG.PREEMPT_EN p) = 0 ∨ s.get (Reg.LINK_CFG.VERIFY_DIS p) = 1 ∨ s.subUp p sub = false ∨ s.linkOn p = false)) = true) := by
  refine ⟨?_, ?_, ?_, ?_, ?_, ?_, ?_, ?_, ?_, ?_, ?_, ?_, ?_, ?_, ?_, ?_, ?_, ?_, ?_, ?_⟩ <;> decide +kernel

/-- States and operands that meet the hypotheses of OrderedSetReception. -/
theorem witness_OrderedSetReception :
    (let s : State := (nat 4).setPort 4 { paused := [(4, 11), (5, 12)] }; let p : PortId := 4; let copies : List (List Byte) := [[1, 2], osBytes 0x400 (.pause 6 100 0 300)]; ((match heard s p copies with | some (fca, .pause m a b c) => decide (bitAt m 1 = true) | _ => false)) = true ∧ ((match heard s p copies with | some (fca, .pause m a b c) => decide (bitAt m 2 = true) | _ => false)) = true ∧ ((match heard s p copies with | some (fca, .pause m a b c) => decide (bitAt m 0 = false) | _ => false)) = true)
    ∧ (let s : State := eth 4; let p : PortId := 4; let copies : List (List Byte) := [osBytes 0x400 (.pause 6 100 0 300)]; (decide (s.native p = false ∨ s.linkOn p = false)) = true ∧ (decide (heard s p copies = none)) = true)
    ∧ (let s : State := nat 4; let p : PortId := 4; let copies : List (List Byte) := [osBytes 0x400 (.pause 5 100 0 300)]; ((match heard s p copies with | some (fca, .pause m a b c) => decide (bitAt m 0 = true) | _ => false)) = true)
    ∧ (let s : State := (nat 4).put (Reg.LINK_STS.PEER 4) 3; let p : PortId := 4; let copies : List (List Byte) := [[1, 2], osBytes 0x400 (.align 77 3)]; ((match heard s p copies with | some (fca, .align per mask) => decide (s.get (Reg.LINK_STS.PEER p) = 0 ∨ s.get (Reg.LINK_STS.PEER p) = 3) | _ => false)) = true)
    ∧ (let s : State := eth 4; let p : PortId := 4; let copies : List (List Byte) := [osBytes 0x400 (.align 77 3)]; (decide (s.native p = false ∨ s.linkOn p = false)) = true ∧ (decide (heard s p copies = none)) = true)
    ∧ (let s : State := (nat 4).put (Reg.LINK_STS.PEER 4) 2; let p : PortId := 4; let copies : List (List Byte) := [osBytes 0x400 (.keepalive true true 5), [1]]; ((match heard s p copies with | some (fca, .keepalive a b ft) => true | _ => false)) = true)
    ∧ (let s : State := eth 4; let p : PortId := 4; let copies : List (List Byte) := []; (decide (s.native p = false ∨ s.linkOn p = false)) = true ∧ (decide (heard s p copies = none)) = true)
    ∧ (let s : State := ((nat 4).put (Reg.LINK_STS.PEER 4) 2).setPort 4 { peerReason := 1 }; let p : PortId := 4; let copies : List (List Byte) := [osBytes 0x1400 (.fenced true 1)]; ((match heard s p copies with | some (fca, .fenced tr reason) => decide (s.get (Reg.LINK_STS.PEER p) = 2) && decide ((s.port p).peerReason = reason) && decide ((s.port p).txq = []) | _ => false)) = true ∧ ((match heard s p copies with | some (fca, .fenced tr reason) => true | _ => false)) = true)
    ∧ (let s : State := eth 4; let p : PortId := 4; (decide (s.native p = false ∨ s.linkOn p = false)) = true)
    ∧ (let s : State := nat 4; let p : PortId := 4; let copies : List (List Byte) := [[1, 2]]; (decide (s.native p = true) && decide (s.linkOn p = true) && decide (heard s p copies = none)) = true)
    ∧ (let s : State := (nat 4).setPort 4 { beacon := { sentT1 := 1000 } }; let p : PortId := 4; let copies : List (List Byte) := [osBytes 0x400 (.beacon true 2 3 9000 1000 8000 1)]; ((match heard s p copies with | some (fca, .beacon src st n t1 echo t2 hops) => decide (echo ≠ 0) | _ => false)) = true)
    ∧ (let s : State := (nat 4).setPort 4 { beacon := { sentT1 := 1000 } }; let p : PortId := 4; let copies : List (List Byte) := [osBytes 0x400 (.beacon true 2 3 9000 0 8000 1)]; ((match heard s p copies with | some (fca, .beacon src st n t1 echo t2 hops) => decide (echo = 0) | _ => false)) = true)
    ∧ (let s : State := eth 4; let p : PortId := 4; (decide (s.native p = false ∨ s.linkOn p = false)) = true) := by
  refine ⟨?_, ?_, ?_, ?_, ?_, ?_, ?_, ?_, ?_, ?_, ?_, ?_, ?_⟩ <;> decide +kernel

/-- States and operands that meet the hypotheses of LaneHandshake. -/
theorem witness_LaneHandshake :
    (let s : State := nat 4; let p : PortId := 4; let copies : List (List Byte) := [osBytes 0x400 (.laneReq 9 3 0 5000)]; ((match heard s p copies with | some (fca, .laneReq id mask reason e) => decide ((s.port p).req = none) && decide ((s.port p).change = none) && decide (maskAllowed mask reason = true) && decide (∀ i : Fin 4, bitAt mask i = true → bitAt (s.port p).trained i = true) | _ => false)) = true)
    ∧ (let s : State := (nat 4).setPort 4 { change := some { id := 1, mask := 3, reason := 0, effective := 9 } }; let p : PortId := 4; let copies : List (List Byte) := [osBytes 0x400 (.laneReq 9 3 0 5000)]; ((match heard s p copies with | some (fca, .laneReq id mask reason e) => decide ((s.port p).req = none) && decide ((s.port p).change ≠ none) | _ => false)) = true)
    ∧ (let s : State := nat 4; let p : PortId := 4; let copies : List (List Byte) := [osBytes 0x400 (.laneReq 9 5 0 5000)]; ((match heard s p copies with | some (fca, .laneReq id mask reason e) => decide ((s.port p).req = none) && decide ((s.port p).change = none) && decide (maskAllowed mask reason = false) | _ => false)) = true)
    ∧ (let s : State := (nat 4).setPort 4 { trained := 3 }; let p : PortId := 4; let copies : List (List Byte) := [osBytes 0x400 (.laneReq 9 5 3 5000)]; ((match heard s p copies with | some (fca, .laneReq id mask reason e) => decide ((s.port p).req = none) && decide ((s.port p).change = none) && decide (maskAllowed mask reason = true) && decide (∃ i : Fin 4, bitAt mask i = true ∧ bitAt (s.port p).trained i = false) | _ => false)) = true)
    ∧ (let s : State := (nat 4).setPort 4 { trained := 15, req := some { id := 3, mask := 1, reason := 1, effective := 8 } }; let p : PortId := 4; let copies : List (List Byte) := [osBytes 0x400 (.laneReq 9 5 3 5000)]; ((match heard s p copies with | some (fca, .laneReq id mask reason e) => (match (s.port p).req with | some r => decide (r.reason < reason) && decide (s.laneNeed p = none) | _ => false) | _ => false)) = true)
    ∧ (let s : State := (nat 4).setPort 4 { trained := 15, req := some { id := 3, mask := 1, reason := 1, effective := 8 } }; let p : PortId := 4; let copies : List (List Byte) := [osBytes 0x400 (.laneReq 9 3 0 5000)]; ((match heard s p copies with | some (fca, .laneReq id mask reason e) => (match (s.port p).req with | some r => decide (reason < r.reason) | _ => false) | _ => false)) = true)
    ∧ (let s : State := eth 4; let p : PortId := 4; (decide (s.native p = false ∨ s.linkOn p = false)) = true)
    ∧ (let s : State := (nat 4).setPort 4 { trained := 15, req := some { id := 3, mask := 1, reason := 1, effective := 8 } }; let p : PortId := 4; let copies : List (List Byte) := [osBytes 0x400 (.laneAck 3 1 8)]; ((match heard s p copies with | some (fca, .laneAck id mask e) => (match (s.port p).req with | some r => decide (r.id = id) && decide (r.mask = mask) && decide (r.effective = e) | _ => false) | _ => false)) = true)
    ∧ (let s : State := (nat 4).setPort 4 { trained := 15, req := some { id := 3, mask := 1, reason := 1, effective := 8 } }; let p : PortId := 4; let copies : List (List Byte) := [osBytes 0x400 (.laneAck 3 1 7)]; ((match heard s p copies with | some (fca, .laneAck id mask e) => (match (s.port p).req with | some r => decide (r.id ≠ id ∨ r.mask ≠ mask ∨ r.effective ≠ e) | _ => false) | _ => false)) = true)
    ∧ (let s : State := nat 4; let p : PortId := 4; let copies : List (List Byte) := [osBytes 0x400 (.laneAck 3 1 7)]; ((match heard s p copies with | some (fca, .laneAck id mask e) => decide ((s.port p).req = none) | _ => false)) = true)
    ∧ (let s : State := eth 4; let p : PortId := 4; (decide (s.native p = false ∨ s.linkOn p = false)) = true)
    ∧ (let s : State := (nat 4).setPort 4 { trained := 15, req := some { id := 3, mask := 1, reason := 1, effective := 8 } }; let p : PortId := 4; let copies : List (List Byte) := [osBytes 0x400 (.laneNak 3 1)]; ((match heard s p copies with | some (fca, .laneNak id code) => (match (s.port p).req with | some r => decide (r.id = id) | _ => false) | _ => false)) = true)
    ∧ (let s : State := (nat 4).setPort 4 { trained := 15, req := some { id := 3, mask := 1, reason := 1, effective := 8 } }; let p : PortId := 4; let copies : List (List Byte) := [osBytes 0x400 (.laneNak 4 1)]; ((match heard s p copies with | some (fca, .laneNak id code) => (match (s.port p).req with | some r => decide (r.id ≠ id) | _ => false) | _ => false)) = true)
    ∧ (let s : State := nat 4; let p : PortId := 4; let copies : List (List Byte) := [osBytes 0x400 (.laneNak 4 1)]; ((match heard s p copies with | some (fca, .laneNak id code) => decide ((s.port p).req = none) | _ => false)) = true)
    ∧ (let s : State := eth 4; let p : PortId := 4; (decide (s.native p = false ∨ s.linkOn p = false)) = true)
    ∧ (let s : State := nat 4; let p : PortId := 4; (decide ((s.port p).req = none)) = true)
    ∧ (let s : State := (nat 4).setPort 4 { trained := 15, req := some { id := 3, mask := 1, reason := 1, effective := 8, retries := 2 } }; let p : PortId := 4; ((match (s.port p).req with | some r => decide (r.retries < 3) && decide (r.reason < 2) | _ => false)) = true)
    ∧ (let s : State := (nat 4).setPort 4 { trained := 15, req := some { id := 3, mask := 1, reason := 1, effective := 8, retries := 3 } }; let p : PortId := 4; ((match (s.port p).req with | some r => decide (3 ≤ r.retries) && decide (r.reason ≠ 3) | _ => false)) = true)
    ∧ (let s : State := (nat 4).setPort 4 { trained := 15, req := some { id := 3, mask := 7, reason := 3, effective := 8, retries := 3 } }; let p : PortId := 4; ((match (s.port p).req with | some r => decide (3 ≤ r.retries) && decide (r.reason = 3) | _ => false)) = true)
    ∧ (let s : State := (nat 4).setPort 4 { trained := 15, restore := [2], req := some { id := 3, mask := 7, reason := 3, effective := 8, retries := 1 } }; let p : PortId := 4; ((match (s.port p).req with | some r => decide (r.retries < 3) && decide (2 ≤ r.reason) | _ => false)) = true)
    ∧ (let s : State := nat 4; let p : PortId := 4; (decide ((s.port p).change = none)) = true)
    ∧ (let s : State := (nat 4).setPort 4 { change := some { id := 1, mask := 3, reason := 0, effective := 9, switched := true } }; let p : PortId := 4; ((match (s.port p).change with | some c => decide (c.switched = true) | _ => false)) = true)
    ∧ (let s : State := (nat 4).setPort 4 { change := some { id := 1, mask := 3, reason := 0, effective := 9 } }; let p : PortId := 4; ((match (s.port p).change with | some c => decide (c.switched = false) && decide (c.reason = 0) | _ => false)) = true)
    ∧ (let s : State := (nat 44).setPort 44 { change := some { id := 1, mask := 15, reason := 1, effective := 9 } }; let p : PortId := 44; ((match (s.port p).change with | some c => decide (c.switched = false) && decide (c.reason = 1) && decide (c.mask = 15) | _ => false)) = true)
    ∧ (let s : State := (nat 44).setPort 44 { change := some { id := 1, mask := 7, reason := 3, effective := 9 } }; let p : PortId := 44; ((match (s.port p).change with | some c => decide (c.switched = false) && decide (2 ≤ c.reason) | _ => false)) = true)
    ∧ (let s : State := nat 4; let p : PortId := 4; (decide ((s.port p).change = none)) = true)
    ∧ (let s : State := (nat 4).setPort 4 { change := some { id := 1, mask := 3, reason := 0, effective := 9 } }; let p : PortId := 4; ((match (s.port p).change with | some c => decide (c.switched = false ∨ c.sentDone = true) | _ => false)) = true)
    ∧ (let s : State := (nat 4).setPort 4 { change := some { id := 1, mask := 3, reason := 0, effective := 9, switched := true } }; let p : PortId := 4; ((match (s.port p).change with | some c => decide (c.switched = true) && decide (c.sentDone = false) && decide (c.gotDone = false) | _ => false)) = true)
    ∧ (let s : State := (nat 4).setPort 4 { change := some { id := 1, mask := 3, reason := 0, effective := 9, switched := true, gotDone := true } }; let p : PortId := 4; ((match (s.port p).change with | some c => decide (c.switched = true) && decide (c.sentDone = false) && decide (c.gotDone = true) | _ => false)) = true)
    ∧ (let s : State := (nat 4).setPort 4 { change := some { id := 1, mask := 3, reason := 0, effective := 9, switched := true } }; let p : PortId := 4; let copies : List (List Byte) := [osBytes 0x400 (.laneDone 1 3)]; ((match heard s p copies with | some (fca, .laneDone id mask) => (match (s.port p).change with | some c => decide (c.id = id) && decide (c.sentDone = false) | _ => false) | _ => false)) = true)
    ∧ (let s : State := (nat 4).setPort 4 { change := some { id := 1, mask := 3, reason := 0, effective := 9, switched := true, sentDone := true } }; let p : PortId := 4; let copies : List (List Byte) := [osBytes 0x400 (.laneDone 1 3)]; ((match heard s p copies with | some (fca, .laneDone id mask) => (match (s.port p).change with | some c => decide (c.id = id) && decide (c.sentDone = true) | _ => false) | _ => false)) = true)
    ∧ (let s : State := (nat 4).setPort 4 { change := some { id := 1, mask := 3, reason := 0, effective := 9, switched := true, sentDone := true } }; let p : PortId := 4; let copies : List (List Byte) := [osBytes 0x400 (.laneDone 2 3)]; ((match heard s p copies with | some (fca, .laneDone id mask) => (match (s.port p).change with | some c => decide (c.id ≠ id) | _ => false) | _ => false)) = true)
    ∧ (let s : State := nat 4; let p : PortId := 4; let copies : List (List Byte) := [osBytes 0x400 (.laneDone 2 3)]; ((match heard s p copies with | some (fca, .laneDone id mask) => decide ((s.port p).change = none) | _ => false)) = true)
    ∧ (let s : State := eth 4; let p : PortId := 4; (decide (s.native p = false ∨ s.linkOn p = false)) = true) := by
  refine ⟨?_, ?_, ?_, ?_, ?_, ?_, ?_, ?_, ?_, ?_, ?_, ?_, ?_, ?_, ?_, ?_, ?_, ?_, ?_, ?_, ?_, ?_, ?_, ?_, ?_, ?_, ?_, ?_, ?_, ?_, ?_, ?_, ?_, ?_⟩ <;> decide +kernel

/-- States and operands that meet the hypotheses of LaneSparesAndFailures. -/
theorem witness_LaneSparesAndFailures :
    (let s : State := nat 20; let p : PortId := 20; let l : Fin 4 := 2; let e : Fin 256 := 0; (decide (s.linkOn p = true) && decide (s.native p = false ∨ bitAt (s.get (Reg.LINK_STS.ACTIVE p)) l = true) && decide (e.val < s.get (Reg.LINK_LANE_CTL.DEG_EXP p)) && decide ((s.lane p l).bad < 2)) = true)
    ∧ (let s : State := nat 20; let p : PortId := 20; let l : Fin 4 := 2; let e : Fin 256 := 255; (decide (s.linkOn p = true) && decide (s.native p = false ∨ bitAt (s.get (Reg.LINK_STS.ACTIVE p)) l = true) && decide (s.get (Reg.LINK_LANE_CTL.DEG_EXP p) ≤ e.val)) = true)
    ∧ (let s : State := (nat 20).setLane 20 2 { bad := 2 }; let p : PortId := 20; let l : Fin 4 := 2; let e : Fin 256 := 1; (decide (s.linkOn p = true) && decide (s.native p = false ∨ bitAt (s.get (Reg.LINK_STS.ACTIVE p)) l = true) && decide (e.val < s.get (Reg.LINK_LANE_CTL.DEG_EXP p)) && decide ((s.lane p l).bad = 2) && decide (s.get (Reg.LINK_LANE_HEALTH.DEGRADED p l) = 0)) = true)
    ∧ (let s : State := (nat 20).put (Reg.LINK_STS.STATE 20) 1; let p : PortId := 20; let l : Fin 4 := 2; let e : Fin 256 := 1; (decide (s.linkOn p = false)) = true)
    ∧ (let s : State := (nat 20).put (Reg.LINK_STS.ACTIVE 20) 3; let p : PortId := 20; let l : Fin 4 := 2; let e : Fin 256 := 1; (decide (s.native p = true) && decide (bitAt (s.get (Reg.LINK_STS.ACTIVE p)) l = false)) = true)
    ∧ (let s : State := eth 20; let p : PortId := 20; let l : Fin 4 := 3; (decide (s.linkOn p = true) && decide (s.get (Reg.LINK_LANE_HEALTH.FAILED p l) = 0) && decide (s.native p = false)) = true)
    ∧ (let s : State := nat 20; let p : PortId := 20; let l : Fin 4 := 3; (decide (s.linkOn p = true) && decide (s.get (Reg.LINK_LANE_HEALTH.FAILED p l) = 0) && decide (s.native p = true) && decide (bitAt (s.get (Reg.LINK_STS.ACTIVE p)) l = true)) = true)
    ∧ (let s : State := (nat 20).put (Reg.LINK_LANE_HEALTH.FAILED 20 3) 1; let p : PortId := 20; let l : Fin 4 := 3; (decide (s.linkOn p = false ∨ s.get (Reg.LINK_LANE_HEALTH.FAILED p l) = 1)) = true)
    ∧ (let s : State := (nat 20).put (Reg.LINK_STS.ACTIVE 20) 3; let p : PortId := 20; let l : Fin 4 := 3; (decide (s.native p = true) && decide (bitAt (s.get (Reg.LINK_STS.ACTIVE p)) l = false)) = true)
    ∧ (let s : State := (nat 20).setLane 20 2 { bad := 3, shadow := some 65 }; let p : PortId := 20; let l : Fin 4 := 2; ((match (s.lane p l).shadow with | some sp => true | _ => false)) = true)
    ∧ (let s : State := nat 20; let p : PortId := 20; let l : Fin 4 := 2; (decide ((s.lane p l).shadow = none)) = true)
    ∧ (let s : State := ((nat 20).setLane 20 2 { training := some 66 }).put (Reg.LINK_STS.ACTIVE 20) 11; let p : PortId := 20; let l : Fin 4 := 2; ((match (s.lane p l).training with | some sp => decide (s.native p = true) && decide (s.linkOn p = true) && decide ((s.port p).req = none) && decide ((s.port p).change = none) && decide ((s.port p).restore = []) && decide (bitAt (s.get (Reg.LINK_STS.ACTIVE p)) l = false) && decide (∀ k : Fin 4, k ≠ l → bitAt (s.get (Reg.LINK_STS.ACTIVE p)) k = true → s.get (Reg.LINK_LANE_HEALTH.FAILED p k) = 0) | _ => false)) = true)
    ∧ (let s : State := (eth 20).setLane 20 2 { training := some 66 }; let p : PortId := 20; let l : Fin 4 := 2; ((match (s.lane p l).training with | some sp => decide (s.native p = false) | _ => false)) = true)
    ∧ (let s : State := ((nat 20).setPort 20 { (nat 20).port 20 with req := some { id := 0, mask := 3, reason := 0, effective := 9 } }).setLane 20 2 { training := some 66 }; let p : PortId := 20; let l : Fin 4 := 2; ((match (s.lane p l).training with | some sp => decide ((s.port p).req.isSome = true) | _ => false)) = true)
    ∧ (let s : State := nat 20; let p : PortId := 20; let l : Fin 4 := 2; (decide ((s.lane p l).training = none)) = true) := by
  refine ⟨?_, ?_, ?_, ?_, ?_, ?_, ?_, ?_, ?_, ?_, ?_, ?_, ?_, ?_, ?_⟩ <;> decide +kernel

/-- States and operands that meet the hypotheses of LinkUpAndDown. -/
theorem witness_LinkUpAndDown :
    (let s : State := (nat 30).put (Reg.LINK_STS.PEER 30) 2; let p : PortId := 30; let lk : Bool := true; (decide (s.native p = true) && decide (s.linkOn p = true) && decide (s.get (Reg.LINK_STS.PEER p) ≠ 3) && decide (lk = true)) = true)
    ∧ (let s : State := (nat 30).setPort 30 { txq := [{ kind := .transport, cls := 5, dst := 0x400 }] }; let p : PortId := 30; let lk : Bool := false; (decide (s.native p = true) && decide (s.linkOn p = true) && decide (s.get (Reg.LINK_STS.PEER p) ≠ 3) && decide (lk = false)) = true)
    ∧ (let s : State := (eth 30).put (Reg.LINK_STS.PEER 30) 3; let p : PortId := 30; let lk : Bool := true; (decide (s.native p = false ∨ s.linkOn p = false)) = true ∧ (decide (s.get (Reg.LINK_STS.PEER p) = 3)) = true)
    ∧ (let s : State := (eth 30).setPort 30 { verified := [0], paused := [(4, 3)], txq := [{ kind := .ethernet, cls := 5 }] }; let p : PortId := 30; (decide (s.native p = false) && decide (s.linkOn p = true)) = true)
    ∧ (let s : State := nat 30; let p : PortId := 30; (decide (s.native p = true ∨ s.linkOn p = false)) = true)
    ∧ (let s : State := (((eth 30).put (Reg.LINK_STS.STATE 30) 1).put (Reg.LINK_CFG.PREEMPT_EN 30) 1).put (Reg.LINK_CFG.VERIFY_DIS 30) 1; let p : PortId := 30; (decide (s.native p = false) && decide (s.get (Reg.LINK_CFG.ENABLE p) = 1) && decide (s.get (Reg.LINK_CFG.BREAKOUT p) ≤ 2) && decide (∀ i : Fin 4, s.get (Reg.LINK_LANE_HEALTH.FAILED p i) = 0) && decide (s.get (Reg.LINK_CFG.PREEMPT_EN p) = 1) && decide (s.get (Reg.LINK_CFG.VERIFY_DIS p) = 1)) = true)
    ∧ (let s : State := (eth 30).put (Reg.LINK_STS.STATE 30) 1; let p : PortId := 30; (decide (s.native p = false) && decide (s.get (Reg.LINK_CFG.ENABLE p) = 1) && decide (s.get (Reg.LINK_CFG.BREAKOUT p) ≤ 2) && decide (∀ i : Fin 4, s.get (Reg.LINK_LANE_HEALTH.FAILED p i) = 0) && decide (s.get (Reg.LINK_CFG.PREEMPT_EN p) = 0 ∨ s.get (Reg.LINK_CFG.VERIFY_DIS p) = 0)) = true)
    ∧ (let s : State := ((eth 30).put (Reg.LINK_STS.STATE 30) 1).put (Reg.LINK_LANE_HEALTH.FAILED 30 2) 1; let p : PortId := 30; (decide (s.get (Reg.LINK_CFG.BREAKOUT p) = 0) && decide (∃ i : Fin 4, s.get (Reg.LINK_LANE_HEALTH.FAILED p i) = 1)) = true)
    ∧ (let s : State := nat 30; let p : PortId := 30; (decide (s.native p = true ∨ s.get (Reg.LINK_CFG.ENABLE p) = 0)) = true)
    ∧ (let s : State := { ((nat 30).put (Reg.LINK_STS.STATE 30) 1).put Reg.GLB_PORT_RST.BUSY 1 with portRst := some 30 }; let p : PortId := 30; let mask : BitVec 4 := 15; (decide (s.get (Reg.LINK_STS.STATE p) = 1) && decide (mask ≠ 0) && decide (s.native p = true) && decide (s.portRst = some p.val)) = true)
    ∧ (let s : State := ((nat 30).put (Reg.LINK_STS.STATE 30) 1).setPort 30 { preMask := some 15 }; let p : PortId := 30; let mask : BitVec 4 := 3; (decide (s.get (Reg.LINK_STS.STATE p) = 1) && decide (mask ≠ 0) && decide (s.native p = true) && (match (s.port p).preMask with | some m => decide (m ≠ mask.toNat) | _ => false)) = true ∧ (decide (s.portRst ≠ some p.val)) = true)
    ∧ (let s : State := nat 30; let p : PortId := 30; let mask : BitVec 4 := 3; (decide (s.get (Reg.LINK_STS.STATE p) ≠ 1 ∨ mask = 0)) = true)
    ∧ (let s : State := { ((eth 30).put (Reg.LINK_STS.STATE 30) 1).put Reg.GLB_PORT_RST.BUSY 1 with portRst := some 30 }; let p : PortId := 30; let mask : BitVec 4 := 15; (decide (s.get (Reg.LINK_STS.STATE p) = 1) && decide (mask ≠ 0) && decide (s.native p = false) && decide (mask = 15) && decide (s.get (Reg.LINK_CFG.BREAKOUT p) ≤ 2) && decide (∀ i : Fin 4, s.get (Reg.LINK_LANE_HEALTH.FAILED p i) = 0) && decide (s.portRst = some p.val)) = true)
    ∧ (let s : State := nat 30; let h : HostId := 0; let v : Word := 0x8000001E; (Takes s h Reg.GLB_PORT_RST.off) ∧ (decide (s.portRstOk h (wordField v 0 6) = true) && decide (s.get Reg.GLB_PORT_RST.BUSY = 0)) = true)
    ∧ (let s : State := (nat 30).put Reg.GLB_PORT_RST.BUSY 1; let h : HostId := 0; let v : Word := 0x8000001E; (Takes s h Reg.GLB_PORT_RST.off) ∧ (decide (s.portRstOk h (wordField v 0 6) = true) && decide (s.get Reg.GLB_PORT_RST.BUSY = 1)) = true)
    ∧ (let s : State := nat 30; let h : HostId := 1; let v : Word := 0x8000001E; (Takes s h Reg.GLB_PORT_RST.off) ∧ (decide (s.portRstOk h (wordField v 0 6) = false)) = true) := by
  refine ⟨?_, ?_, ?_, ?_, ?_, ?_, ?_, ?_, ?_, ?_, ?_, ?_, ?_, ?_, ?_, ?_⟩ <;> decide +kernel

/-- States and operands that meet the hypotheses of FrameReception. -/
theorem witness_FrameReception :
    (let s : State := (eth 8).put (Reg.LINK_MAC_CTL.BC_ACCEPT 8) 1; let p : PortId := 8; let sub : Fin 4 := 0; let bytes : List Byte := (let b : List Byte := List.replicate 6 0xFF ++ List.replicate 6 2 ++ [0x08, 0x00] ++ List.replicate 50 7; b ++ crcBytes b false); (decide (s.native p = false) && decide (sub.val < s.subports p) && decide (s.linkOn p = true) && decide (s.subUp p sub = true) && decide (64 ≤ bytes.length) && decide (bytes.length ≤ 9216) && decide (beNat (slice (bytes.take (bytes.length - 4)) 12 2) ≠ 0x8808) && decide (ptpFrame (bytes.take (bytes.length - 4)) = false) && decide (s.ethForDevice p sub (bytes.take (bytes.length - 4)) = true) && decide (4 ≤ s.ethClass p (bytes.take (bytes.length - 4))) && decide (s.classFull p sub (s.ethClass p (bytes.take (bytes.length - 4))) (ceilDiv bytes.length 256) = false) && decide (s.inP2 = false) && decide (crcGood bytes = true) && decide ((ethArrival s p sub bytes).endpointRouter ≠ routerOfPort p) && decide (s.meshReach (routerOfPort p) (ethArrival s p sub bytes).endpointRouter = true)) = true)
    ∧ (let s : State := (eth 28).put (Reg.LINK_MAC_CTL.BC_ACCEPT 28) 1; let p : PortId := 28; let sub : Fin 4 := 0; let bytes : List Byte := (let b : List Byte := List.replicate 6 0xFF ++ List.replicate 6 2 ++ [0x08, 0x00] ++ List.replicate 50 7; b ++ crcBytes b false); (decide (s.native p = false) && decide (sub.val < s.subports p) && decide (s.linkOn p = true) && decide (s.subUp p sub = true) && decide (64 ≤ bytes.length) && decide (bytes.length ≤ 9216) && decide (beNat (slice (bytes.take (bytes.length - 4)) 12 2) ≠ 0x8808) && decide (ptpFrame (bytes.take (bytes.length - 4)) = false) && decide (s.ethForDevice p sub (bytes.take (bytes.length - 4)) = true) && decide (4 ≤ s.ethClass p (bytes.take (bytes.length - 4))) && decide (s.classFull p sub (s.ethClass p (bytes.take (bytes.length - 4))) (ceilDiv bytes.length 256) = false) && decide (s.inP2 = false) && decide (crcGood bytes = true) && decide ((ethArrival s p sub bytes).endpointRouter = routerOfPort p)) = true)
    ∧ (let s : State := eth 8; let p : PortId := 8; let sub : Fin 4 := 0; let bytes : List Byte := (let b : List Byte := List.replicate 6 0xFE ++ List.replicate 6 2 ++ [0x08, 0x00] ++ List.replicate 50 7; b ++ crcBytes b false); (decide (s.native p = false) && decide (sub.val < s.subports p) && decide (s.linkOn p = true) && decide (s.subUp p sub = true) && decide (64 ≤ bytes.length) && decide (bytes.length ≤ 9216) && decide (beNat (slice (bytes.take (bytes.length - 4)) 12 2) ≠ 0x8808) && decide (ptpFrame (bytes.take (bytes.length - 4)) = false) && decide (s.ethForDevice p sub (bytes.take (bytes.length - 4)) = false) && decide (s.get (Reg.LINK_CFG.TRANSIT p) = 0) && decide (crcGood bytes = true)) = true)
    ∧ (let s : State := eth 8; let p : PortId := 8; let sub : Fin 4 := 0; let bytes : List Byte := (let b : List Byte := List.replicate 6 0xFE ++ List.replicate 6 2 ++ [0x08, 0x00] ++ List.replicate 50 7; b ++ crcBytes b true); (decide (s.native p = false) && decide (sub.val < s.subports p) && decide (s.linkOn p = true) && decide (s.subUp p sub = true) && decide (64 ≤ bytes.length) && decide (bytes.length ≤ 9216) && decide (beNat (slice (bytes.take (bytes.length - 4)) 12 2) ≠ 0x8808) && decide (ptpFrame (bytes.take (bytes.length - 4)) = false) && decide (s.ethForDevice p sub (bytes.take (bytes.length - 4)) = false) && decide (s.get (Reg.LINK_CFG.TRANSIT p) = 0) && decide (crcGood bytes = false)) = true)
    ∧ (let s : State := eth 8; let p : PortId := 8; let sub : Fin 4 := 0; let bytes : List Byte := List.replicate 63 0; (decide (s.native p = false) && decide (sub.val < s.subports p) && decide (s.linkOn p = true) && decide (s.subUp p sub = true) && decide (bytes.length < 64 ∨ 9216 < bytes.length)) = true)
    ∧ (let s : State := nat 8; let p : PortId := 8; let sub : Fin 4 := 0; (decide (s.native p = true ∨ s.subports p ≤ sub.val ∨ s.linkOn p = false ∨ s.subUp p sub = false)) = true)
    ∧ (let s : State := eth 8; let p : PortId := 8; let cs : List Container := []; let early : Bool := false; (decide (s.native p = false ∨ s.linkOn p = false ∨ cs = [])) = true)
    ∧ (let s : State := nat 8; let p : PortId := 8; let cs : List Container := [{ ctrl := 0xC4, body := List.replicate 64 1 }]; let early : Bool := false; ((match cs with | [c] => decide (s.native p = true) && decide (s.linkOn p = true) && decide (bits c.ctrl.toNat 6 2 = 3) | _ => false)) = true)
    ∧ (let s : State := nat 8; let p : PortId := 8; let cs : List Container := [{ ctrl := 0x04, body := List.replicate 64 1 }]; let early : Bool := false; ((match cs with | [c] => decide (s.native p = true) && decide (s.linkOn p = true) && decide (bits c.ctrl.toNat 6 2 ≠ 3) && decide (bits c.ctrl.toNat 6 2 ≠ 1) | _ => false)) = true)
    ∧ (let s : State := nat 8; let p : PortId := 8; let f : Frame := { kind := .transport, dst := 0, src := 0x400, cls := 5, body := [1, 2, 3, 4] }; let c : Container := { ctrl := 0x75, body := (let x : Frame := { kind := .transport, dst := 0, src := 0x400, cls := 5, body := [1, 2, 3, 4] }; x.wire ++ List.replicate 40 0) }; let early : Bool := false; (s.native p = true ∧ s.linkOn p = true ∧ s.inP2 = false) ∧ (bits c.ctrl.toNat 4 4 = 7 ∧ 4 ≤ c.ctrl.toNat % 8 ∧ c.body.length = 64 ∧ (s.port p).rxOpen.at? (c.ctrl.toNat % 8) = none) ∧ (parseElp (c.ctrl.toNat % 8) 1 c.body = some f ∧ elpCrcGood c.body = true ∧ f.kind = .transport ∧ f.flow = 0) ∧ (f.dst = s.selfFca ∧ s.classFull p 0 f.cls f.cells = false) ∧ (decide (f.endpointRouter ≠ routerOfPort p) && decide (s.meshReach (routerOfPort p) f.endpointRouter = true)) = true)
    ∧ (let s : State := nat 12; let p : PortId := 12; let f : Frame := { kind := .transport, dst := 0, src := 0x400, cls := 5, body := [1, 2, 3, 4] }; let c : Container := { ctrl := 0x75, body := (let x : Frame := { kind := .transport, dst := 0, src := 0x400, cls := 5, body := [1, 2, 3, 4] }; x.wire ++ List.replicate 40 0) }; let early : Bool := false; (s.native p = true ∧ s.linkOn p = true ∧ s.inP2 = false) ∧ (bits c.ctrl.toNat 4 4 = 7 ∧ 4 ≤ c.ctrl.toNat % 8 ∧ c.body.length = 64 ∧ (s.port p).rxOpen.at? (c.ctrl.toNat % 8) = none) ∧ (parseElp (c.ctrl.toNat % 8) 1 c.body = some f ∧ elpCrcGood c.body = true ∧ f.kind = .transport ∧ f.flow = 0) ∧ (f.dst = s.selfFca ∧ s.classFull p 0 f.cls f.cells = false) ∧ (decide (f.endpointRouter = routerOfPort p)) = true)
    ∧ (let s : State := (nat 8).setPort 8 { rxOpen := [(4, 1, [1]), (5, 0, [2])] }; let p : PortId := 8; (decide (s.native p = true) && decide (s.linkOn p = true)) = true)
    ∧ (let s : State := eth 8; let p : PortId := 8; (decide (s.native p = false ∨ s.linkOn p = false)) = true) := by
  refine ⟨?_, ?_, ?_, ?_, ?_, ?_, ?_, ?_, ?_, ?_, ?_, ?_, ?_⟩ <;> decide +kernel

/-- States and operands that meet the hypotheses of FrameTransmission. -/
theorem witness_FrameTransmission :
    (let s : State := (nat 8).setPort 8 { txq := [{ kind := .transport, cls := 7, dst := 0x400, body := [1, 2] }] }; let p : PortId := 8; let sub : Fin 4 := 0; let c : Fin 8 := 7; ((match s.headFrame? p sub c with | some f => decide (s.canStart p sub c = true) && decide (∀ k : Fin 8, k < c → s.canStart p sub k = false) && decide ((s.egressForm p f).isSome = true) | _ => false)) = true)
    ∧ (let s : State := (nat 8).setPort 8 { txq := [{ kind := .transport, cls := 7, dst := 0x400, body := [1, 2] }, { kind := .transport, cls := 5, dst := 0x400, body := [1, 2] }] }; let p : PortId := 8; let sub : Fin 4 := 0; let c : Fin 8 := 7; ((match s.headFrame? p sub c with | some f => decide ((s.egressForm p f).isSome = true) && decide (∃ k : Fin 8, k < c ∧ s.canStart p sub k = true) | _ => false)) = true)
    ∧ (let s : State := ((nat 8).put (Reg.LINK_STS.PEER 8) 3).setPort 8 { txq := [{ kind := .transport, cls := 7, dst := 0x400, body := [1, 2] }] }; let p : PortId := 8; let sub : Fin 4 := 0; let c : Fin 8 := 7; ((match s.headFrame? p sub c with | some f => decide ((s.egressForm p f).isSome = true) && decide (s.canStart p sub c = false) | _ => false)) = true)
    ∧ (let s : State := ((eth 8).put (Reg.LINK_STS.PEER 8) 3).setPort 8 { txq := [{ kind := .transport, cls := 7, dst := 0x400, body := [1, 2] }] }; let p : PortId := 8; let sub : Fin 4 := 0; let c : Fin 8 := 7; ((match s.headFrame? p sub c with | some f => decide (s.egressForm p f = none) && decide (s.usable p f.dst? = false) | _ => false)) = true)
    ∧ (let s : State := nat 8; let p : PortId := 8; let sub : Fin 4 := 0; let c : Fin 8 := 7; (decide (s.headFrame? p sub c = none)) = true)
    ∧ (let s : State := ((nat 8).put (Reg.MESH_DRAIN.COUNT 1) 3).setPort 8 { txing := [{ kind := .transport, cls := 7, epoch := 1, dst := 0x400, body := [1, 2] }] }; let p : PortId := 8; let sub : Fin 4 := 0; let c : Fin 8 := 7; ((match (s.port p).txing.find? (fun f => f.sub == sub.val && f.cls == c.val) with | some f => decide (s.native p = false ∨ (s.port p).paused.getD (subCls sub c) 0 = 0) && decide (f.flow = 0) && decide (f.ingress = none) && decide (f.onBackup = false) && decide (f.counted = true) | _ => false)) = true)
    ∧ (let s : State := nat 8; let p : PortId := 8; let sub : Fin 4 := 0; let c : Fin 8 := 7; (decide ((s.port p).txing.find? (fun f => f.sub == sub.val && f.cls == c.val) = none)) = true)
    ∧ (let s : State := (nat 8).setPort 8 { paused := [(7, 5)], txing := [{ kind := .transport, cls := 7, epoch := 1, dst := 0x400, body := [1, 2] }] }; let p : PortId := 8; let sub : Fin 4 := 0; let c : Fin 8 := 7; (decide (s.native p = true) && decide ((s.port p).paused.getD (subCls sub c) 0 ≠ 0)) = true) := by
  refine ⟨?_, ?_, ?_, ?_, ?_, ?_, ?_, ?_⟩ <;> decide +kernel

/-- States and operands that meet the hypotheses of PortAndMeshConfiguration. -/
theorem witness_PortAndMeshConfiguration :
    (let s : State := eth 5; let h : HostId := 0; let p : PortId := 5; let v : Word := 0x10003; (Takes s h (Reg.LINK_CFG.off p)) ∧ (decide (wordField v 1 1 ≠ s.get (Reg.LINK_CFG.MODE p)) && decide (s.get (Reg.LINK_CFG.ENABLE p) = 1 ∨ s.portScheduled p = true)) = true)
    ∧ (let s : State := ready; let h : HostId := 0; let p : PortId := 5; let v : Word := 0x0CFF0083; (Takes s h (Reg.LINK_CFG.off p)) ∧ (decide (wordField v 4 2 = s.get (Reg.LINK_CFG.PAUSE_MODE p) ∨ s.get (Reg.LINK_CFG.ENABLE p) = 0) && decide (s.portScheduled p = false) && decide ((s.applyWrite (Reg.LINK_CFG.off p) v).shortCells (p.val / 16) ≤ s.shortCells (p.val / 16)) && decide (wordField v 0 1 = 1) && decide (wordField v 8 1 = 0)) = true)
    ∧ (let s : State := nat 5; let h : HostId := 0; let p : PortId := 5; let v : Word := 0x0CFF0002 ||| (BitVec.ofNat 32 ((nat 5).get (Reg.LINK_CFG.PAUSE_MODE 5)) <<< 4); (Takes s h (Reg.LINK_CFG.off p)) ∧ (decide (wordField v 4 2 = s.get (Reg.LINK_CFG.PAUSE_MODE p) ∨ s.get (Reg.LINK_CFG.ENABLE p) = 0) && decide (s.portScheduled p = false) && decide ((s.applyWrite (Reg.LINK_CFG.off p) v).shortCells (p.val / 16) ≤ s.shortCells (p.val / 16)) && decide (wordField v 0 1 = 0)) = true)
    ∧ (let s : State := (ready.put (Reg.LINK_BUF_CLASS.MIN 5 0) 8192).put (Reg.LINK_BUF_CLASS.MIN 6 0) 3584; let h : HostId := 0; let p : PortId := 5; let v : Word := 0x0CFF0004; (Takes s h (Reg.LINK_CFG.off p)) ∧ (decide (s.shortCells (p.val / 16) < (s.applyWrite (Reg.LINK_CFG.off p) v).shortCells (p.val / 16))) = true)
    ∧ (let s : State := { ready with sched := { ready.sched with pend := [(1, { emptyImage with lists := [{ res := 5, cycle := 1, entries := [{ dur := 1, sched := 1, unsched := true }] }] })] } }; let h : HostId := 0; let p : PortId := 5; let v : Word := 0x00000100; (Takes s h (Reg.LINK_CFG.off p)) ∧ (decide (s.get (Reg.LINK_CFG.PREEMPT_EN p) = 0) && decide (wordField v 8 1 = 1) && decide (s.portScheduled p = true)) = true)
    ∧ (let s : State := ready; let h : HostId := 0; let p : PortId := 17; let c : Fin 4 := 3; let v : Word := 0x00400010; (Takes s h (Reg.LINK_BUF_CLASS.off p c)) ∧ (decide (s.minCells (p.val / 16) (fun q k => if q = p.val ∧ k = c.val then wordField v 0 16 else s.get (Reg.LINK_BUF_CLASS.MIN q k)) + flowCells s.heldImages (p.val / 16) ≤ s.poolCells (p.val / 16))) = true)
    ∧ (let s : State := ready; let h : HostId := 0; let p : PortId := 17; let c : Fin 4 := 3; let v : Word := 0x0040FFFF; (Takes s h (Reg.LINK_BUF_CLASS.off p c)) ∧ (decide (s.poolCells (p.val / 16) < s.minCells (p.val / 16) (fun q k => if q = p.val ∧ k = c.val then wordField v 0 16 else s.get (Reg.LINK_BUF_CLASS.MIN q k)) + flowCells s.heldImages (p.val / 16))) = true)
    ∧ (let s : State := ready; let h : HostId := 0; let v : Word := 0x123456FF; (Takes s h Reg.MESH_SELF.off) ∧ (decide (s.schedBusy = false)) = true)
    ∧ (let s : State := busy; let h : HostId := 0; let v : Word := 0x123456FF; (Takes s h Reg.MESH_SELF.off) ∧ (decide (s.schedBusy = true)) = true)
    ∧ (let s : State := ready; let h : HostId := 0; let v : Word := 0x2001; (Takes s h Reg.MESH_CTL.off) ∧ (decide (wordField v 1 1 = 0) && decide (s.get Reg.MESH_STS.OLD_RETAINED = 0)) = true ∧ (decide (wordField v 8 8 ≠ 0)) = true)
    ∧ (let s : State := ready.put Reg.MESH_STS.OLD_RETAINED 1; let h : HostId := 0; let v : Word := 0x2005; (Takes s h Reg.MESH_CTL.off) ∧ (decide (wordField v 1 1 = 1 ∨ s.get Reg.MESH_STS.OLD_RETAINED = 1)) = true)
    ∧ (let s : State := ready.put Reg.MESH_STS.NEXT_ARMED 1; let h : HostId := 0; let v : Word := 0x2006; (Takes s h Reg.MESH_CTL.off) ∧ (decide (wordField v 0 1 = 0) && decide (s.sched.pend.any (fun e => e.2.tableSwitch) = false)) = true)
    ∧ (let s : State := { ready.put Reg.MESH_STS.NEXT_ARMED 1 with sched := { ready.sched with pend := [(1, { emptyImage with tableSwitch := true })] } }; let h : HostId := 0; let v : Word := 0x2006; (Takes s h Reg.MESH_CTL.off) ∧ (decide (wordField v 0 1 = 1 ∨ s.sched.pend.any (fun e => e.2.tableSwitch) = true)) = true)
    ∧ (let s : State := ready; let h : HostId := 0; let off : Nat := 0x318008; let v : Word := 0x80000005; (Takes s h off) ∧ (inBanks off = true) ∧ (decide ((off - 0x310000) / 0x8000 ≠ s.get Reg.MESH_STS.EPOCH) && decide (s.get Reg.MESH_STS.OLD_RETAINED = 0) && decide (s.get Reg.MESH_STS.NEXT_ARMED = 0)) = true)
    ∧ (let s : State := ready; let h : HostId := 0; let off : Nat := 0x310008; let v : Word := 0x80000005; (Takes s h off) ∧ (inBanks off = true) ∧ (decide ((off - 0x310000) / 0x8000 = s.get Reg.MESH_STS.EPOCH) && decide (s.schedBusy = false)) = true)
    ∧ (let s : State := busy; let h : HostId := 0; let off : Nat := 0x310008; let v : Word := 0x80000005; (Takes s h off) ∧ (inBanks off = true) ∧ (decide ((off - 0x310000) / 0x8000 = s.get Reg.MESH_STS.EPOCH) && decide (s.schedBusy = true)) = true)
    ∧ (let s : State := busy.put Reg.MESH_STS.NEXT_ARMED 1; let h : HostId := 0; let off : Nat := 0x318008; let v : Word := 0x80000005; (Takes s h off) ∧ (inBanks off = true) ∧ (decide ((off - 0x310000) / 0x8000 ≠ s.get Reg.MESH_STS.EPOCH) && decide (s.get Reg.MESH_STS.OLD_RETAINED = 1 ∨ s.get Reg.MESH_STS.NEXT_ARMED = 1)) = true) := by
  refine ⟨?_, ?_, ?_, ?_, ?_, ?_, ?_, ?_, ?_, ?_, ?_, ?_, ?_, ?_, ?_, ?_, ?_⟩ <;> decide +kernel

/-- States and operands that meet the hypotheses of MeshTimersAndSamplers. -/
theorem witness_MeshTimersAndSamplers :
    (let s : State := ready.put Reg.MESH_STS.OLD_RETAINED 1; (decide (s.get Reg.MESH_STS.OLD_RETAINED = 1) && decide (s.get (Reg.MESH_DRAIN.COUNT (1 - s.get Reg.MESH_STS.EPOCH)) = 0)) = true)
    ∧ (let s : State := (ready.put Reg.MESH_STS.OLD_RETAINED 1).put (Reg.MESH_DRAIN.COUNT 1) 1; (decide (s.get Reg.MESH_STS.OLD_RETAINED = 0 ∨ s.get (Reg.MESH_DRAIN.COUNT (1 - s.get Reg.MESH_STS.EPOCH)) ≠ 0)) = true)
    ∧ (let s : State := ((ready.put Reg.MESH_STS.OLD_RETAINED 1).put (Reg.MESH_DRAIN.COUNT 1) 2).setPort 9 { txq := [{ kind := .transport, cls := 5, epoch := 1 }, { kind := .transport, cls := 5, epoch := 0 }] }; (decide (s.get Reg.MESH_STS.OLD_RETAINED = 1)) = true)
    ∧ (let s : State := ready; (decide (s.get Reg.MESH_STS.OLD_RETAINED = 0)) = true)
    ∧ (let s : State := { nat 5 with sched := { act := [(1, { emptyImage with flows := [flow0], paths := [path0] })], flows := [(77, { onBackup := true, tokens := 9 })] } }; let flow : BitVec 24 := 77; ((match flowIn (s.activeImages ++ s.sched.kept) flow.toNat with | some x => (match x.1.pathOf x.2 false with | some p => decide ((s.flowRt flow.toNat).onBackup = true) && decide ((s.flowRt flow.toNat).backupFrames = 0) && decide (s.pathBlocked p (s.flowCls x.2) = false) && decide (s.slot % s.returnCycle p = 0) | _ => false) | _ => false)) = true)
    ∧ (let s : State := { nat 5 with sched := { act := [(1, { emptyImage with flows := [flow0], paths := [path0] })], flows := [(77, { onBackup := true, backupFrames := 1 })] } }; let flow : BitVec 24 := 77; (decide ((s.flowRt flow.toNat).backupFrames ≠ 0)) = true)
    ∧ (let s : State := { eth 6 with sched := { act := [(1, { emptyImage with flows := [flow0], paths := [path0] })], flows := [(77, { tokens := 9 })] } }; let flow : BitVec 24 := 77; (decide ((s.flowRt flow.toNat).onBackup = false)) = true ∧ ((match flowIn (s.activeImages ++ s.sched.kept) flow.toNat with | some x => (match x.1.pathOf x.2 false with | some p => decide (s.pathBlocked p (s.flowCls x.2) = true) | _ => false) | _ => false)) = true)
    ∧ (let s : State := { (nat 5) with time := { ready.time with ftNs := 15 }, sched := { act := [(1, { emptyImage with flows := [flow0], paths := [path0], lists := [{ res := 5, cycle := 2, entries := [] }] })], flows := [(77, { onBackup := true, tokens := 9 })] } }; let flow : BitVec 24 := 77; ((match flowIn (s.activeImages ++ s.sched.kept) flow.toNat with | some x => (match x.1.pathOf x.2 false with | some p => decide (s.slot % s.returnCycle p ≠ 0) | _ => false) | _ => false)) = true)
    ∧ (let s : State := ready; let flow : BitVec 24 := 1; (decide (flowIn (s.activeImages ++ s.sched.kept) flow.toNat = none)) = true)
    ∧ (let s : State := { ready.put Reg.TELEM_SMP_CTL.EN 1 with scriv := { samplers := [(0x710044, { depth := 70000, delay := 3 })] } }; (decide (s.get Reg.TELEM_SMP_CTL.EN = 1) && (match s.scriv.samplers with | [(k, q)] => true | _ => false)) = true)
    ∧ (let s : State := (ready.put Reg.TELEM_SMP_CTL.EN 1).setReg 0x710000 9; (decide (s.get Reg.TELEM_SMP_CTL.EN = 1) && decide (s.scriv.samplers = [])) = true)
    ∧ (let s : State := { ready.put Reg.TELEM_SMP_CTL.EN 0 with scriv := { samplers := [(0x710044, { depth := 70000, delay := 3 })] } }; (decide (s.get Reg.TELEM_SMP_CTL.EN = 0)) = true) := by
  refine ⟨?_, ?_, ?_, ?_, ?_, ?_, ?_, ?_, ?_, ?_, ?_, ?_⟩ <;> decide +kernel

/-- States and operands that meet the hypotheses of ScheduleCommands. -/
theorem witness_ScheduleCommands :
    (let s : State := ((ready.put (Reg.SCHED_IMG_LO.ADDR_LO 5) 0x4000).put (Reg.SCHED_IMG_LEN.PAGES 5) 2).put (Reg.LINK_CFG.PREEMPT_EN 7) 1; let h : HostId := 0; let p : PartId := 5; (Takes s h (Reg.SCHED_CTL.off p)) ∧ (decide (s.get (Reg.SCHED_STATE.PEND p) = 0)) = true)
    ∧ (let s : State := ready.put (Reg.SCHED_STATE.PEND 5) 2; let h : HostId := 0; let p : PartId := 5; (Takes s h (Reg.SCHED_CTL.off p)) ∧ (decide (s.get (Reg.SCHED_STATE.PEND p) ≠ 0)) = true)
    ∧ (let s : State := { ((ready.put (Reg.SCHED_STATE.PEND 1) 2).put (Reg.SCHED_TAKEOVER_HI.SLOT 1) 1) with sched := { ready.sched with pend := [(1, emptyImage)] } }; let h : HostId := 0; let p : PartId := 1; (Takes s h (Reg.SCHED_CTL.off p)) ∧ (decide (s.get (Reg.SCHED_STATE.PEND p) = 2) && decide (s.slot < s.get (Reg.SCHED_TAKEOVER_LO.SLOT p) + 2 ^ 32 * s.get (Reg.SCHED_TAKEOVER_HI.SLOT p)) && (match s.sched.pend.at? p.val with | some i => true | _ => false)) = true)
    ∧ (let s : State := { (ready.put (Reg.SCHED_STATE.PEND 1) 2) with sched := { ready.sched with pend := [(1, emptyImage)] } }; let h : HostId := 0; let p : PartId := 1; (Takes s h (Reg.SCHED_CTL.off p)) ∧ (decide (s.get (Reg.SCHED_TAKEOVER_LO.SLOT p) + 2 ^ 32 * s.get (Reg.SCHED_TAKEOVER_HI.SLOT p) ≤ s.slot)) = true)
    ∧ (let s : State := ready.put (Reg.SCHED_STATE.PEND 1) 1; let h : HostId := 0; let p : PartId := 1; (Takes s h (Reg.SCHED_CTL.off p)) ∧ (decide (s.get (Reg.SCHED_STATE.PEND p) ≠ 2)) = true)
    ∧ (let s : State := (ready.put (Reg.SCHED_STATE.PEND 1) 2).put (Reg.SCHED_TAKEOVER_LO.SLOT 1) 9; let h : HostId := 0; let p : PartId := 1; (Takes s h (Reg.SCHED_CTL.off p)) ∧ (decide (s.get (Reg.SCHED_STATE.PEND p) = 2) && decide (s.slot < s.get (Reg.SCHED_TAKEOVER_LO.SLOT p) + 2 ^ 32 * s.get (Reg.SCHED_TAKEOVER_HI.SLOT p)) && decide (s.sched.pend.at? p.val = none)) = true)
    ∧ (let s : State := ready; (s.sched.submits = []))
    ∧ (let s : State := { (owned 1) with sched := { submits := [{ verdictSubmit with pages := 0 }] } }; let seen : Seen := []; let x : Submit := { verdictSubmit with pages := 0 }; let rest : List Submit := []; let b : List Byte := []; let u : State := { (owned 1) with sched := { submits := [{ verdictSubmit with pages := 0 }] } }; let f : AdmFail := badFormat 0 0; (s.sched.submits = x :: rest) ∧ ((s.see seen).memReadC (x.part * 1024 + 0x3FF) x.space x.addr (4096 * x.pages) = (u, .ok b)) ∧ (parseImage b (4096 * x.pages) = .error f))
    ∧ (let s : State := verdictState 1 0x504e78cf; let seen : Seen := []; let x : Submit := verdictSubmit; let rest : List Submit := []; let b : List Byte := memRead (verdictState 1 0x504e78cf).hostMem0 0x1000 4096; let u : State := verdictState 1 0x504e78cf; let i : Image := verdictImage 1; (s.sched.submits = x :: rest) ∧ ((s.see seen).memReadC (x.part * 1024 + 0x3FF) x.space x.addr (4096 * x.pages) = (u, .ok b)) ∧ (parseImage b (4096 * x.pages) = .ok i) ∧ ((∀ p ∈ i.ports, u.lowered p = false) ∧ (∀ k ∈ i.clusters, u.gated k = false)) ∧ (decide (({ u with sched := { u.sched with submits := rest } } : State).admChecks x i ((u.plant x.preempt).cost i) = none)) = true)
    ∧ (let s : State := verdictState 2 0x34cbb60c; let seen : Seen := []; let x : Submit := verdictSubmit; let rest : List Submit := []; let b : List Byte := memRead (verdictState 2 0x34cbb60c).hostMem0 0x1000 4096; let u : State := verdictState 2 0x34cbb60c; let i : Image := verdictImage 2; (s.sched.submits = x :: rest) ∧ ((s.see seen).memReadC (x.part * 1024 + 0x3FF) x.space x.addr (4096 * x.pages) = (u, .ok b)) ∧ (parseImage b (4096 * x.pages) = .ok i) ∧ ((∀ p ∈ i.ports, u.lowered p = false) ∧ (∀ k ∈ i.clusters, u.gated k = false)) ∧ ((match ({ u with sched := { u.sched with submits := rest } } : State).admChecks x i ((u.plant x.preempt).cost i) with | some f => true | _ => false)) = true)
    ∧ (let s : State := { ready with sched := { pend := [(1, { emptyImage with takeover := 7 })] } }; (decide (s.sched.pend.any (fun e => decide (e.2.takeover ≤ s.slot + 1)) = false)) = true)
    ∧ (let s : State := { (ready.put (Reg.SCHED_STATE.PEND 1) 2) with sched := { pend := [(1, { emptyImage with takeover := 4, lists := [{ res := 5, cycle := 1, entries := [] }] })] }, time := { ready.time with ftNs := 16, frac := 171, phase := 1 } }; (decide (s.sched.pend.any (fun e => decide (e.2.takeover ≤ s.slot + 1)) = true)) = true ∧ ((match s.sched.pend with | [(p, i)] => decide (i.takeover ≤ s.slot + 1) && decide (s.lossDue = false) && decide (s.mesh.crossings = []) && decide (s.host0.b4Wait = []) && decide (s.host1.b4Wait = []) && decide (s.time.phase < 3) && decide (s.ft % 320 = 107 * s.time.phase) && decide (s.ft + 1280 < 2 ^ 72) | _ => false)) = true)
    ∧ (let s : State := ready; let h : HostId := 0; (Takes s h Reg.GLB_DUM_CTL.off) ∧ (decide (s.schedBusy = false)) = true)
    ∧ (let s : State := busy; let h : HostId := 0; (Takes s h Reg.GLB_DUM_CTL.off) ∧ (decide (s.schedBusy = true)) = true) := by
  refine ⟨?_, ?_, ?_, ?_, ?_, ?_, ?_, ?_, ?_, ?_, ?_, ?_, ?_, ?_⟩
  · decide +kernel
  · decide +kernel
  · decide +kernel
  · decide +kernel
  · decide +kernel
  · decide +kernel
  · decide +kernel
  · decide +kernel
  · exact ⟨by decide +kernel, verdict_read1, verdict_parse1, by decide +kernel, by decide +kernel⟩
  · exact ⟨by decide +kernel, verdict_read2, verdict_parse2, by decide +kernel, by decide +kernel⟩
  · decide +kernel
  · decide +kernel
  · decide +kernel
  · decide +kernel

/-- States and operands that meet the hypotheses of SlotsLossSamplesAndUnits. -/
theorem witness_SlotsLossSamplesAndUnits :
    (let s : State := { ready with time := { ready.time with ftNs := 12, frac := 128, phase := 0 } }; (decide (s.time.phase < 3) && decide (s.ft % 320 = 107 * s.time.phase) && decide (s.ft + 1280 < 2 ^ 72)) = true)
    ∧ (let s : State := { ready.put Reg.TIME_STS.STATE 3 with time := { ready.time with lossMet := true, timerRunning := true } }; (decide (s.get Reg.TIME_STS.STATE = 3) && decide (s.time.lossMet = true)) = true ∧ (decide (s.get Reg.TIME_STS.STATE = 3) && decide (s.time.lossMet = true) && decide (s.sched = {}) && decide (s.qps = []) && decide (s.mesh.crossings = []) && decide (s.host0.b4Wait = []) && decide (s.host1.b4Wait = []) && decide (s.time.phase < 3) && decide (s.ft % 320 = 107 * s.time.phase) && decide (s.ft + 1280 < 2 ^ 72)) = true)
    ∧ (let s : State := { ready.put Reg.TIME_STS.STATE 2 with time := { ready.time with lossMet := true, timerRunning := true } }; (decide (s.get Reg.TIME_STS.STATE ≠ 3 ∨ s.time.lossMet = false)) = true)
    ∧ (let s : State := ready; let flow : BitVec 24 := 77; (decide (flowIn s.activeImages flow.toNat = none)) = true)
    ∧ (let s : State := { (ready.put (Reg.SCHED_SMP_CTL.ENABLE 1) 1) with time := { ready.time with ftNs := 15 }, sched := { act := [(1, { emptyImage with flows := [{ flow0 with sample := 4 }], paths := [path0] })] } }; let flow : BitVec 24 := 77; ((match flowIn s.activeImages flow.toNat with | some x => decide (s.slot % max x.2.sample 1 ≠ 0) | _ => false)) = true)
    ∧ (let s : State := { ready with sched := { act := [(1, { emptyImage with flows := [flow0], paths := [path0] })] } }; let flow : BitVec 24 := 77; ((match flowIn s.activeImages flow.toNat with | some x => decide (x.2.sample = 0) | _ => false)) = true ∧ ((match flowIn s.activeImages flow.toNat with | some x => decide (s.get (Reg.SCHED_SMP_CTL.ENABLE x.1.partition) = 0) | _ => false)) = true)
    ∧ (let s : State := { (ready.put (Reg.SCHED_SMP_CTL.ENABLE 1) 1) with sched := { act := [(1, { emptyImage with flows := [{ flow0 with sample := 1 }], paths := [path0] })], flows := [(77, { sampled := 1 })] } }; let flow : BitVec 24 := 77; ((match flowIn s.activeImages flow.toNat with | some x => decide ((s.flowRt flow.toNat).sampled = s.slot + 1) | _ => false)) = true)
    ∧ (let s : State := { ((ready.put (Reg.SCHED_SMP_CTL.ENABLE 1) 1).put (Reg.SCHED_SMP_CTL.LOG2_SIZE 1) 6).put (Reg.SCHED_SMP_CONS.INDEX 1) 1 with sched := { act := [(1, { emptyImage with flows := [{ flow0 with sample := 1 }], paths := [path0] })] } }; let flow : BitVec 24 := 77; ((match flowIn s.activeImages flow.toNat with | some x => decide (x.2.sample ≠ 0) && decide (s.slot % max x.2.sample 1 = 0) && decide (s.get (Reg.SCHED_SMP_CTL.ENABLE x.1.partition) ≠ 0) && decide ((s.flowRt flow.toNat).sampled ≠ s.slot + 1) && decide (s.sched.samples = []) && decide (s.sampleSlot x.1.partition = true) && decide ((s.get (Reg.SCHED_SMP_PROD.INDEX x.1.partition) % 2 ^ s.get (Reg.SCHED_SMP_CTL.LOG2_SIZE x.1.partition) + 1) % 2 ^ s.get (Reg.SCHED_SMP_CTL.LOG2_SIZE x.1.partition) = s.get (Reg.SCHED_SMP_CONS.INDEX x.1.partition) % 2 ^ s.get (Reg.SCHED_SMP_CTL.LOG2_SIZE x.1.partition)) | _ => false)) = true)
    ∧ (let s : State := { ((ready.put (Reg.SCHED_SMP_CTL.ENABLE 1) 1).put (Reg.SCHED_SMP_CTL.LOG2_SIZE 1) 6).put (Reg.SCHED_SMP_CONS.INDEX 1) 1 with sched := { act := [(1, { emptyImage with flows := [{ flow0 with sample := 1, ingress := 0x8000 }], paths := [path0], lists := [{ res := 0x8000, cycle := 1, entries := [{ dur := 1, sched := 15, unsched := false }] }] })], paced := [(0, { kind := .transport, cls := 0, flow := 77 })] } }; let flow : BitVec 24 := 77; ((match flowIn s.activeImages flow.toNat with | some x => decide (x.2.sample ≠ 0) && decide (s.slot % max x.2.sample 1 = 0) && decide (s.get (Reg.SCHED_SMP_CTL.ENABLE x.1.partition) ≠ 0) && decide ((s.flowRt flow.toNat).sampled ≠ s.slot + 1) && decide (s.sched.samples = []) && decide (s.sampleSlot x.1.partition = false) | _ => false)) = true)
    ∧ (let s : State := { (((owned 1).put (Reg.SCHED_SMP_CTL.ENABLE 1) 1).put (Reg.SCHED_SMP_CTL.LOG2_SIZE 1) 8) with sched := { act := [(1, { emptyImage with flows := [{ flow0 with sample := 1 }], paths := [path0] })] } }; let flow : BitVec 24 := 77; let i : Image := { emptyImage with flows := [{ flow0 with sample := 1 }], paths := [path0] }; let f : FlowRec := { flow0 with sample := 1 }; let u : State := ((s.setFlowRt flow.toNat ((s.flowRt flow.toNat).restart s.slot)).memWriteC (i.partition * 1024 + 0x3FF) (s.get (Reg.SCHED_SMP_BASE_HI.SPACE i.partition)) (s.sampleAddr i.partition) ((s.flowRt flow.toNat).record s.slot flow.toNat)).1; (flowIn s.activeImages flow.toNat = some (i, f) ∧ f.sample ≠ 0 ∧ s.slot % f.sample = 0) ∧ (s.get (Reg.SCHED_SMP_CTL.ENABLE i.partition) = 1 ∧ (s.get (Reg.SCHED_SMP_PROD.INDEX i.partition) + 1) % 2 ^ s.get (Reg.SCHED_SMP_CTL.LOG2_SIZE i.partition) ≠ s.get (Reg.SCHED_SMP_CONS.INDEX i.partition) % 2 ^ s.get (Reg.SCHED_SMP_CTL.LOG2_SIZE i.partition)) ∧ (s.get (Reg.SCHED_SMP_CTL.LOG2_SIZE i.partition) ≤ 16 ∧ (s.flowRt flow.toNat).sampled ≠ s.slot + 1) ∧ (s.sched.sampleLost = [] ∧ s.sched.samples = [] ∧ s.sampleSlot i.partition = true) ∧ ((s.setFlowRt flow.toNat ((s.flowRt flow.toNat).restart s.slot)).memWriteC (i.partition * 1024 + 0x3FF) (s.get (Reg.SCHED_SMP_BASE_HI.SPACE i.partition)) (s.sampleAddr i.partition) ((s.flowRt flow.toNat).record s.slot flow.toNat) = (u, .ok ())))
    ∧ (let s : State := ready; let unit : UnitId := ⟨.core, 3, 5⟩; (decide (unit.kind ≠ .kennel)) = true ∧ ((match fenceBit? unit with | some fld => decide (s.disabled unit = false) && decide (s.sched.act = []) && decide (s.sched.kept = []) && decide (s.qps = []) && decide (s.ports = []) | _ => false)) = true)
    ∧ (let s : State := ready; let unit : UnitId := ⟨.hostTile, 3, 0⟩; (decide (s.disabled unit = true ∨ fenceBit? unit = none)) = true) := by
  refine ⟨?_, ?_, ?_, ?_, ?_, ?_, ?_, ?_, ?_, ?_, ?_, ?_⟩ <;> decide +kernel

/-- States and operands that meet the hypotheses of ScalarArithmetic. -/
theorem witness_ScalarArithmetic :
    (let s : State := running (word 1 3 1 2 0) (gs 5 0xFFFFFFFFFFFFFFF9); let c : CoreId := 8; let w : Nat := word 1 3 1 2 0; (Issues s c .arith w) ∧ (decide (fFn10 w = 0)) = true)
    ∧ (let s : State := running (word 1 3 1 2 1) (gs 5 0xFFFFFFFFFFFFFFF9); let c : CoreId := 8; let w : Nat := word 1 3 1 2 1; (Issues s c .arith w) ∧ (decide (fFn10 w = 1)) = true)
    ∧ (let s : State := running (word 1 3 1 2 2) (gs 5 0xFFFFFFFFFFFFFFF9); let c : CoreId := 8; let w : Nat := word 1 3 1 2 2; (Issues s c .arith w) ∧ (decide (fFn10 w = 2)) = true)
    ∧ (let s : State := running (word 1 3 1 2 3) (gs 5 0xFFFFFFFFFFFFFFF9); let c : CoreId := 8; let w : Nat := word 1 3 1 2 3; (Issues s c .arith w) ∧ (decide (fFn10 w = 3)) = true)
    ∧ (let s : State := running (word 1 3 1 2 4) (gs 5 0xFFFFFFFFFFFFFFF9); let c : CoreId := 8; let w : Nat := word 1 3 1 2 4; (Issues s c .arith w) ∧ (decide (fFn10 w = 4)) = true)
    ∧ (let s : State := running (word 1 3 1 2 5) (gs 0x8000000000000007 0x43); let c : CoreId := 8; let w : Nat := word 1 3 1 2 5; (Issues s c .shift w) ∧ (decide (fFn10 w = 5)) = true)
    ∧ (let s : State := running (word 1 3 1 2 6) (gs 0x8000000000000007 0x43); let c : CoreId := 8; let w : Nat := word 1 3 1 2 6; (Issues s c .shift w) ∧ (decide (fFn10 w = 6)) = true)
    ∧ (let s : State := running (word 1 3 1 2 7) (gs 0x8000000000000007 0x43); let c : CoreId := 8; let w : Nat := word 1 3 1 2 7; (Issues s c .shift w) ∧ (decide (fFn10 w = 7)) = true)
    ∧ (let s : State := running (word 1 3 1 2 8) (gs 5 0xFFFFFFFFFFFFFFF9); let c : CoreId := 8; let w : Nat := word 1 3 1 2 8; (Issues s c .slt w) ∧ (decide (fFn10 w = 8)) = true)
    ∧ (let s : State := running (word 1 3 1 2 9) (gs 5 0xFFFFFFFFFFFFFFF9); let c : CoreId := 8; let w : Nat := word 1 3 1 2 9; (Issues s c .slt w) ∧ (decide (fFn10 w = 9)) = true)
    ∧ (let s : State := running (word 1 3 1 2 10) (gs 5 0xFFFFFFFFFFFFFFF9); let c : CoreId := 8; let w : Nat := word 1 3 1 2 10; (Issues s c .minMax w) ∧ (decide (fFn10 w = 10)) = true)
    ∧ (let s : State := running (word 1 3 1 2 11) (gs 5 0xFFFFFFFFFFFFFFF9); let c : CoreId := 8; let w : Nat := word 1 3 1 2 11; (Issues s c .minMax w) ∧ (decide (fFn10 w = 11)) = true)
    ∧ (let s : State := running (word 1 3 1 2 12) (gs 5 0xFFFFFFFFFFFFFFF9); let c : CoreId := 8; let w : Nat := word 1 3 1 2 12; (Issues s c .minMax w) ∧ (decide (fFn10 w = 12)) = true)
    ∧ (let s : State := running (word 1 3 1 2 13) (gs 5 0xFFFFFFFFFFFFFFF9); let c : CoreId := 8; let w : Nat := word 1 3 1 2 13; (Issues s c .minMax w) ∧ (decide (fFn10 w = 13)) = true)
    ∧ (let s : State := running (word 1 3 1 0 14) (gs 0x0000F00000000001 0xFFFFFFFFFFFFFFF9); let c : CoreId := 8; let w : Nat := word 1 3 1 0 14; (Issues s c .count w) ∧ (decide (fRb w = 0) && decide (fFn10 w = 14)) = true)
    ∧ (let s : State := running (word 1 3 1 0 15) (gs 0x0000F00000000001 0xFFFFFFFFFFFFFFF9); let c : CoreId := 8; let w : Nat := word 1 3 1 0 15; (Issues s c .count w) ∧ (decide (fRb w = 0) && decide (fFn10 w = 15)) = true)
    ∧ (let s : State := running (word 1 3 1 2 14) (gs 5 0xFFFFFFFFFFFFFFF9); let c : CoreId := 8; let w : Nat := word 1 3 1 2 14; (Issues s c .count w) ∧ (decide (fRb w ≠ 0)) = true)
    ∧ (let s : State := running (word 1 3 1 2 16) (gs 5 0xFFFFFFFFFFFFFFF9); let c : CoreId := 8; let w : Nat := word 1 3 1 2 16; (Issues s c .mul w) ∧ (decide (fFn10 w = 16)) = true)
    ∧ (let s : State := running (word 1 3 1 2 17) (gs 5 0xFFFFFFFFFFFFFFF9); let c : CoreId := 8; let w : Nat := word 1 3 1 2 17; (Issues s c .mul w) ∧ (decide (fFn10 w = 17)) = true)
    ∧ (let s : State := running (word 1 3 1 2 18) (gs 5 0xFFFFFFFFFFFFFFF9); let c : CoreId := 8; let w : Nat := word 1 3 1 2 18; (Issues s c .mul w) ∧ (decide (fFn10 w = 18)) = true)
    ∧ (let s : State := running (word 1 3 1 2 19) (gs 0x8000000000000007 0xFFFFFFFFFFFFFFF9); let c : CoreId := 8; let w : Nat := word 1 3 1 2 19; (Issues s c .clmul w) ∧ (decide (fRd w ≠ 0) && decide (fFn10 w = 19)) = true)
    ∧ (let s : State := running (word 1 3 1 2 20) (gs 0x8000000000000007 0xFFFFFFFFFFFFFFF9); let c : CoreId := 8; let w : Nat := word 1 3 1 2 20; (Issues s c .clmul w) ∧ (decide (fRd w ≠ 0) && decide (fFn10 w = 20)) = true) := by
  refine ⟨?_, ?_, ?_, ?_, ?_, ?_, ?_, ?_, ?_, ?_, ?_, ?_, ?_, ?_, ?_, ?_, ?_, ?_, ?_, ?_, ?_, ?_⟩ <;> decide +kernel

/-- States and operands that meet the hypotheses of ScalarImmediates. -/
theorem witness_ScalarImmediates :
    (let s : State := running (word 2 3 1 0 2047) (gs 5 0xFFFFFFFFFFFFFFF9); let c : CoreId := 8; let w : Nat := word 2 3 1 0 2047; (Issues s c .immArith w) ∧ (decide (fOp w = 2)) = true)
    ∧ (let s : State := running (word 3 3 1 0 2047) (gs 5 0xFFFFFFFFFFFFFFF9); let c : CoreId := 8; let w : Nat := word 3 3 1 0 2047; (Issues s c .immArith w) ∧ (decide (fOp w = 3)) = true)
    ∧ (let s : State := running (word 4 3 1 0 2047) (gs 5 0xFFFFFFFFFFFFFFF9); let c : CoreId := 8; let w : Nat := word 4 3 1 0 2047; (Issues s c .immArith w) ∧ (decide (fOp w = 4)) = true)
    ∧ (let s : State := running (word 5 3 1 0 2047) (gs 5 0xFFFFFFFFFFFFFFF9); let c : CoreId := 8; let w : Nat := word 5 3 1 0 2047; (Issues s c .immArith w) ∧ (decide (fOp w = 5)) = true)
    ∧ (let s : State := running (word 6 3 2 0 5) (gs 5 0xFFFFFFFFFFFFFFF9); let c : CoreId := 8; let w : Nat := word 6 3 2 0 5; (Issues s c .shi w) ∧ (decide (bits w 8 7 = 0) && decide (bits w 6 2 = 0)) = true)
    ∧ (let s : State := running (word 6 3 2 0 69) (gs 5 0xFFFFFFFFFFFFFFF9); let c : CoreId := 8; let w : Nat := word 6 3 2 0 69; (Issues s c .shi w) ∧ (decide (bits w 8 7 = 0) && decide (bits w 6 2 = 1)) = true)
    ∧ (let s : State := running (word 6 3 2 0 191) (gs 5 0xFFFFFFFFFFFFFFF9); let c : CoreId := 8; let w : Nat := word 6 3 2 0 191; (Issues s c .shi w) ∧ (decide (bits w 8 7 = 0) && decide (bits w 6 2 = 2)) = true)
    ∧ (let s : State := running (word 6 3 2 0 197) (gs 5 0xFFFFFFFFFFFFFFF9); let c : CoreId := 8; let w : Nat := word 6 3 2 0 197; (Issues s c .shi w) ∧ (decide (bits w 8 7 ≠ 0 ∨ bits w 6 2 = 3)) = true)
    ∧ (let s : State := running (word 7 3 2 0 1) (gs 5 0xFFFFFFFFFFFFFFF9); let c : CoreId := 8; let w : Nat := word 7 3 2 0 1; (Issues s c .slti w))
    ∧ (let s : State := running (word 8 3 31 0 1) (gs 5 0xFFFFFFFFFFFFFFF9); let c : CoreId := 8; let w : Nat := word 8 3 31 0 1; (Issues s c .lui w))
    ∧ (let s : State := running (word 9 2 31 0 1) (gs 5 0xFFFFFFFFFFFFFFF9); let c : CoreId := 8; let w : Nat := word 9 2 31 0 1; (Issues s c .luih w))
    ∧ (let s : State := { (running (word 48 3 0 0 0) { fflags := 9, eaddr := 3, ekind := 2 }) with time := { ready.time with ftNs := 1234, frac := 17, cycles := 900 } }; let c : CoreId := 8; let w : Nat := word 48 3 0 0 0; (Issues s c .csrr w) ∧ (decide (bits w 0 8 = 0x00)) = true)
    ∧ (let s : State := { (running (word 48 3 0 0 4) { fflags := 9, eaddr := 3, ekind := 2 }) with time := { ready.time with ftNs := 1234, frac := 17, cycles := 900 } }; let c : CoreId := 8; let w : Nat := word 48 3 0 0 4; (Issues s c .csrr w) ∧ (decide (bits w 0 8 = 0x04)) = true)
    ∧ (let s : State := { (running (word 48 3 0 0 16) { fflags := 9, eaddr := 3, ekind := 2 }) with time := { ready.time with ftNs := 1234, frac := 17, cycles := 900 } }; let c : CoreId := 8; let w : Nat := word 48 3 0 0 16; (Issues s c .csrr w) ∧ (decide (bits w 0 8 = 0x10)) = true)
    ∧ (let s : State := { (running (word 48 3 0 0 17) { fflags := 9, eaddr := 3, ekind := 2 }) with time := { ready.time with ftNs := 1234, frac := 17, cycles := 900 } }; let c : CoreId := 8; let w : Nat := word 48 3 0 0 17; (Issues s c .csrr w) ∧ (decide (bits w 0 8 = 0x11)) = true)
    ∧ (let s : State := { (running (word 48 3 0 0 18) { fflags := 9, eaddr := 3, ekind := 2 }) with time := { ready.time with ftNs := 1234, frac := 17, cycles := 900 } }; let c : CoreId := 8; let w : Nat := word 48 3 0 0 18; (Issues s c .csrr w) ∧ (decide (bits w 0 8 = 0x12)) = true)
    ∧ (let s : State := { (running (word 48 3 0 0 5) { fflags := 9, eaddr := 3, ekind := 2 }) with time := { ready.time with ftNs := 1234, frac := 17, cycles := 900 } }; let c : CoreId := 8; let w : Nat := word 48 3 0 0 5; (Issues s c .csrr w) ∧ (decide (bits w 0 8 = 0x05)) = true)
    ∧ (let s : State := { (running (word 48 3 0 0 10) { fflags := 9, eaddr := 3, ekind := 2 }) with time := { ready.time with ftNs := 1234, frac := 17, cycles := 900 } }; let c : CoreId := 8; let w : Nat := word 48 3 0 0 10; (Issues s c .csrr w) ∧ (decide (bits w 0 8 = 0x0A)) = true)
    ∧ (let s : State := { (running (word 48 3 0 0 11) { fflags := 9, eaddr := 3, ekind := 2 }) with time := { ready.time with ftNs := 1234, frac := 17, cycles := 900 } }; let c : CoreId := 8; let w : Nat := word 48 3 0 0 11; (Issues s c .csrr w) ∧ (decide (bits w 0 8 = 0x0B)) = true)
    ∧ (let s : State := { (running (word 48 3 0 0 8) { fflags := 9, eaddr := 3, ekind := 2 }) with time := { ready.time with ftNs := 1234, frac := 17, cycles := 900 } }; let c : CoreId := 8; let w : Nat := word 48 3 0 0 8; (Issues s c .csrr w) ∧ (decide (bits w 0 8 = 0x08)) = true)
    ∧ (let s : State := { (running (word 48 3 0 0 7) { fflags := 9, eaddr := 3, ekind := 2 }) with time := { ready.time with ftNs := 1234, frac := 17, cycles := 900 } }; let c : CoreId := 8; let w : Nat := word 48 3 0 0 7; (Issues s c .csrr w) ∧ (decide (bits w 0 8 ∉ [0x00, 0x01, 0x02, 0x03, 0x04, 0x05, 0x06, 0x08, 0x09, 0x0A, 0x0B, 0x10, 0x11, 0x12, 0x20, 0x21, 0x22, 0x23])) = true)
    ∧ (let s : State := running (word 49 2 0 0 4) (gs 5 0xFFFFFFFFFFFFFFF9); let c : CoreId := 8; let w : Nat := word 49 2 0 0 4; (Issues s c .csrw w) ∧ (decide (bits w 0 8 = 0x04)) = true)
    ∧ (let s : State := running (word 49 2 0 0 0x21) { chans := [(1, { err := true, status := 0x22 })] }; let c : CoreId := 8; let w : Nat := word 49 2 0 0 0x21; (Issues s c .csrw w) ∧ (decide (bits w 0 8 = 0x21)) = true)
    ∧ (let s : State := running (word 49 2 0 0 16) (gs 5 0xFFFFFFFFFFFFFFF9); let c : CoreId := 8; let w : Nat := word 49 2 0 0 16; (Issues s c .csrw w) ∧ (decide (bits w 0 8 ∉ [0x04, 0x20, 0x21, 0x22, 0x23])) = true)
    ∧ (let s : State := running (word 50 0 0 0 0) (gs 5 0xFFFFFFFFFFFFFFF9); let c : CoreId := 8; let w : Nat := word 50 0 0 0 0; (Issues s c .fence w)) := by
  refine ⟨?_, ?_, ?_, ?_, ?_, ?_, ?_, ?_, ?_, ?_, ?_, ?_, ?_, ?_, ?_, ?_, ?_, ?_, ?_, ?_, ?_, ?_, ?_, ?_, ?_⟩ <;> decide +kernel

/-- States and operands that meet the hypotheses of ScalarMemoryAndFlow. -/
theorem witness_ScalarMemoryAndFlow :
    (let s : State := running (word 16 3 1 0 1) { g := [(1, 0x2000)], spad := memWrite [] 0x2000 [0x81, 0x92, 0xA3, 0xB4, 5, 6, 7, 0xF8, 9] }; let c : CoreId := 8; let w : Nat := word 16 3 1 0 1; let ecc : Bool := false; (Issues s c .load w) ∧ (decide (fOp w = 0x10) && decide (s.spadOut c ((s.core c).gr (fRa w) + fImm w).toNat 1 = false) && decide (ecc = false)) = true)
    ∧ (let s : State := running (word 17 3 1 0 1) { g := [(1, 0x2000)], spad := memWrite [] 0x2000 [0x81, 0x92, 0xA3, 0xB4, 5, 6, 7, 0xF8, 9] }; let c : CoreId := 8; let w : Nat := word 17 3 1 0 1; let ecc : Bool := false; (Issues s c .load w) ∧ (decide (fOp w = 0x11) && decide (s.spadOut c ((s.core c).gr (fRa w) + fImm w).toNat 1 = false) && decide (ecc = false)) = true)
    ∧ (let s : State := running (word 18 3 1 0 1) { g := [(1, 0x2000)], spad := memWrite [] 0x2000 [0x81, 0x92, 0xA3, 0xB4, 5, 6, 7, 0xF8, 9] }; let c : CoreId := 8; let w : Nat := word 18 3 1 0 1; let ecc : Bool := false; (Issues s c .load w) ∧ (decide (fOp w = 0x12) && decide (s.spadOut c ((s.core c).gr (fRa w) + fImm w).toNat 2 = false) && decide (ecc = false)) = true)
    ∧ (let s : State := running (word 19 3 1 0 1) { g := [(1, 0x2000)], spad := memWrite [] 0x2000 [0x81, 0x92, 0xA3, 0xB4, 5, 6, 7, 0xF8, 9] }; let c : CoreId := 8; let w : Nat := word 19 3 1 0 1; let ecc : Bool := false; (Issues s c .load w) ∧ (decide (fOp w = 0x13) && decide (s.spadOut c ((s.core c).gr (fRa w) + fImm w).toNat 2 = false) && decide (ecc = false)) = true)
    ∧ (let s : State := running (word 20 3 1 0 1) { g := [(1, 0x2000)], spad := memWrite [] 0x2000 [0x81, 0x92, 0xA3, 0xB4, 5, 6, 7, 0xF8, 9] }; let c : CoreId := 8; let w : Nat := word 20 3 1 0 1; let ecc : Bool := false; (Issues s c .load w) ∧ (decide (fOp w = 0x14) && decide (s.spadOut c ((s.core c).gr (fRa w) + fImm w).toNat 4 = false) && decide (ecc = false)) = true)
    ∧ (let s : State := running (word 21 3 1 0 1) { g := [(1, 0x2000)], spad := memWrite [] 0x2000 [0x81, 0x92, 0xA3, 0xB4, 5, 6, 7, 0xF8, 9] }; let c : CoreId := 8; let w : Nat := word 21 3 1 0 1; let ecc : Bool := false; (Issues s c .load w) ∧ (decide (fOp w = 0x15) && decide (s.spadOut c ((s.core c).gr (fRa w) + fImm w).toNat 4 = false) && decide (ecc = false)) = true)
    ∧ (let s : State := running (word 22 3 1 0 1) { g := [(1, 0x2000)], spad := memWrite [] 0x2000 [0x81, 0x92, 0xA3, 0xB4, 5, 6, 7, 0xF8, 9] }; let c : CoreId := 8; let w : Nat := word 22 3 1 0 1; let ecc : Bool := false; (Issues s c .load w) ∧ (decide (fOp w = 0x16) && decide (s.spadOut c ((s.core c).gr (fRa w) + fImm w).toNat 8 = false) && decide (ecc = false)) = true)
    ∧ (let s : State := running (word 22 3 1 0 1) { g := [(1, 0x2FFFC)] }; let c : CoreId := 8; let w : Nat := word 22 3 1 0 1; (Issues s c .load w) ∧ (decide (s.spadOut c ((s.core c).gr (fRa w) + fImm w).toNat (accessSize (fOp w)) = true)) = true)
    ∧ (let s : State := running (word 22 3 1 0 1) { g := [(1, 0x2000)], spad := memWrite [] 0x2000 [0x81, 0x92, 0xA3, 0xB4, 5, 6, 7, 0xF8, 9] }; let c : CoreId := 8; let w : Nat := word 22 3 1 0 1; let ecc : Bool := true; (Issues s c .load w) ∧ (decide (s.spadOut c ((s.core c).gr (fRa w) + fImm w).toNat (accessSize (fOp w)) = false) && decide (ecc = true)) = true)
    ∧ (let s : State := running (word 24 2 1 0 1) { g := [(1, 0x2000), (2, 0x1122334455667788)], spad := memWrite [] 10 [1, 2, 3] }; let c : CoreId := 8; let w : Nat := word 24 2 1 0 1; let ecc : Bool := false; (Issues s c .store w) ∧ (decide (fOp w = 0x18) && decide (s.spadOut c ((s.core c).gr (fRa w) + fImm w).toNat 1 = false) && decide (s.touchesCode c ((s.core c).gr (fRa w) + fImm w).toNat 1 = false) && decide (ecc = false)) = true)
    ∧ (let s : State := running (word 25 2 1 0 1) { g := [(1, 0x2000), (2, 0x1122334455667788)], spad := memWrite [] 10 [1, 2, 3] }; let c : CoreId := 8; let w : Nat := word 25 2 1 0 1; let ecc : Bool := false; (Issues s c .store w) ∧ (decide (fOp w = 0x19) && decide (s.spadOut c ((s.core c).gr (fRa w) + fImm w).toNat 2 = false) && decide (s.touchesCode c ((s.core c).gr (fRa w) + fImm w).toNat 2 = false) && decide (ecc = false)) = true)
    ∧ (let s : State := running (word 26 2 1 0 1) { g := [(1, 0x2000), (2, 0x1122334455667788)], spad := memWrite [] 10 [1, 2, 3] }; let c : CoreId := 8; let w : Nat := word 26 2 1 0 1; let ecc : Bool := false; (Issues s c .store w) ∧ (decide (fOp w = 0x1A) && decide (s.spadOut c ((s.core c).gr (fRa w) + fImm w).toNat 4 = false) && decide (s.touchesCode c ((s.core c).gr (fRa w) + fImm w).toNat 4 = false) && decide (ecc = false)) = true)
    ∧ (let s : State := running (word 27 2 1 0 1) { g := [(1, 0x2000), (2, 0x1122334455667788)], spad := memWrite [] 10 [1, 2, 3] }; let c : CoreId := 8; let w : Nat := word 27 2 1 0 1; let ecc : Bool := false; (Issues s c .store w) ∧ (decide (fOp w = 0x1B) && decide (s.spadOut c ((s.core c).gr (fRa w) + fImm w).toNat 8 = false) && decide (s.touchesCode c ((s.core c).gr (fRa w) + fImm w).toNat 8 = false) && decide (ecc = false)) = true)
    ∧ (let s : State := running (word 27 2 1 0 1) { g := [(1, 0x2FFFC)] }; let c : CoreId := 8; let w : Nat := word 27 2 1 0 1; (Issues s c .store w) ∧ (decide (s.spadOut c ((s.core c).gr (fRa w) + fImm w).toNat (accessSize (fOp w)) = true)) = true)
    ∧ (let s : State := running (word 27 2 1 0 1) { g := [(1, 0x1001)] }; let c : CoreId := 8; let w : Nat := word 27 2 1 0 1; (Issues s c .store w) ∧ (decide (s.spadOut c ((s.core c).gr (fRa w) + fImm w).toNat (accessSize (fOp w)) = false) && decide (s.touchesCode c ((s.core c).gr (fRa w) + fImm w).toNat (accessSize (fOp w)) = true)) = true)
    ∧ (let s : State := running (word 27 2 1 0 1) { g := [(1, 0x2000), (2, 0x1122334455667788)], spad := memWrite [] 10 [1, 2, 3] }; let c : CoreId := 8; let w : Nat := word 27 2 1 0 1; let ecc : Bool := true; (Issues s c .store w) ∧ (decide (s.spadOut c ((s.core c).gr (fRa w) + fImm w).toNat (accessSize (fOp w)) = false) && decide (s.touchesCode c ((s.core c).gr (fRa w) + fImm w).toNat (accessSize (fOp w)) = false) && decide (ecc = true)) = true)
    ∧ (let s : State := running (word 32 1 2 31 1008) { g := [(1, 5), (2, 5)], loops := [{ start := 0x1000, len := 4, count := 3 }] }; let c : CoreId := 8; let w : Nat := word 32 1 2 31 1008; (Issues s c .branch w) ∧ (decide (fOp w = 0x20) && decide ((s.core c).gr (fRd w) = (s.core c).gr (fRa w))) = true)
    ∧ (let s : State := running (word 32 1 2 31 1008) { g := [(1, 5), (2, 0xFFFFFFFFFFFFFFFF)], loops := [{ start := 0x1000, len := 4, count := 3 }] }; let c : CoreId := 8; let w : Nat := word 32 1 2 31 1008; (Issues s c .branch w) ∧ (decide (fOp w = 0x20) && decide (¬ ((s.core c).gr (fRd w) = (s.core c).gr (fRa w)))) = true)
    ∧ (let s : State := running (word 33 1 2 31 1008) { g := [(1, 5), (2, 5)], loops := [{ start := 0x1000, len := 4, count := 3 }] }; let c : CoreId := 8; let w : Nat := word 33 1 2 31 1008; (Issues s c .branch w) ∧ (decide (fOp w = 0x21) && decide (¬ ((s.core c).gr (fRd w) ≠ (s.core c).gr (fRa w)))) = true)
    ∧ (let s : State := running (word 33 1 2 31 1008) { g := [(1, 5), (2, 0xFFFFFFFFFFFFFFFF)], loops := [{ start := 0x1000, len := 4, count := 3 }] }; let c : CoreId := 8; let w : Nat := word 33 1 2 31 1008; (Issues s c .branch w) ∧ (decide (fOp w = 0x21) && decide ((s.core c).gr (fRd w) ≠ (s.core c).gr (fRa w))) = true)
    ∧ (let s : State := running (word 34 1 2 31 1008) { g := [(1, 5), (2, 5)], loops := [{ start := 0x1000, len := 4, count := 3 }] }; let c : CoreId := 8; let w : Nat := word 34 1 2 31 1008; (Issues s c .branch w) ∧ (decide (fOp w = 0x22) && decide (¬ (((s.core c).gr (fRd w)).toInt < ((s.core c).gr (fRa w)).toInt))) = true)
    ∧ (let s : State := running (word 34 1 2 31 1008) { g := [(1, 0xFFFFFFFFFFFFFFFF), (2, 5)], loops := [{ start := 0x1000, len := 4, count := 3 }] }; let c : CoreId := 8; let w : Nat := word 34 1 2 31 1008; (Issues s c .branch w) ∧ (decide (fOp w = 0x22) && decide (((s.core c).gr (fRd w)).toInt < ((s.core c).gr (fRa w)).toInt)) = true)
    ∧ (let s : State := running (word 35 1 2 31 1008) { g := [(1, 5), (2, 5)], loops := [{ start := 0x1000, len := 4, count := 3 }] }; let c : CoreId := 8; let w : Nat := word 35 1 2 31 1008; (Issues s c .branch w) ∧ (decide (fOp w = 0x23) && decide (((s.core c).gr (fRa w)).toInt ≤ ((s.core c).gr (fRd w)).toInt)) = true)
    ∧ (let s : State := running (word 35 1 2 31 1008) { g := [(1, 0xFFFFFFFFFFFFFFFF), (2, 5)], loops := [{ start := 0x1000, len := 4, count := 3 }] }; let c : CoreId := 8; let w : Nat := word 35 1 2 31 1008; (Issues s c .branch w) ∧ (decide (fOp w = 0x23) && decide (¬ (((s.core c).gr (fRa w)).toInt ≤ ((s.core c).gr (fRd w)).toInt))) = true)
    ∧ (let s : State := running (word 36 1 2 31 1008) { g := [(1, 5), (2, 5)], loops := [{ start := 0x1000, len := 4, count := 3 }] }; let c : CoreId := 8; let w : Nat := word 36 1 2 31 1008; (Issues s c .branch w) ∧ (decide (fOp w = 0x24) && decide (¬ (((s.core c).gr (fRd w)).toNat < ((s.core c).gr (fRa w)).toNat))) = true)
    ∧ (let s : State := running (word 36 1 2 31 1008) { g := [(1, 5), (2, 0xFFFFFFFFFFFFFFFF)], loops := [{ start := 0x1000, len := 4, count := 3 }] }; let c : CoreId := 8; let w : Nat := word 36 1 2 31 1008; (Issues s c .branch w) ∧ (decide (fOp w = 0x24) && decide (((s.core c).gr (fRd w)).toNat < ((s.core c).gr (fRa w)).toNat)) = true)
    ∧ (let s : State := running (word 37 1 2 31 1008) { g := [(1, 5), (2, 5)], loops := [{ start := 0x1000, len := 4, count := 3 }] }; let c : CoreId := 8; let w : Nat := word 37 1 2 31 1008; (Issues s c .branch w) ∧ (decide (fOp w = 0x25) && decide (((s.core c).gr (fRa w)).toNat ≤ ((s.core c).gr (fRd w)).toNat)) = true)
    ∧ (let s : State := running (word 37 1 2 31 1008) { g := [(1, 5), (2, 0xFFFFFFFFFFFFFFFF)], loops := [{ start := 0x1000, len := 4, count := 3 }] }; let c : CoreId := 8; let w : Nat := word 37 1 2 31 1008; (Issues s c .branch w) ∧ (decide (fOp w = 0x25) && decide (¬ (((s.core c).gr (fRa w)).toNat ≤ ((s.core c).gr (fRd w)).toNat))) = true)
    ∧ (let s : State := running (word 38 5 0 0 8) { g := [(1, 7)], loops := [{ start := 0x1000, len := 4, count := 3 }] }; let c : CoreId := 8; let w : Nat := word 38 5 0 0 8; (Issues s c .jal w))
    ∧ (let s : State := running (word 39 1 1 0 9) { g := [(1, 0x1003)], loops := [{ start := 0x1000, len := 4, count := 3 }] }; let c : CoreId := 8; let w : Nat := word 39 1 1 0 9; (Issues s c .jalr w))
    ∧ (let s : State := running (word 0x28 0 0 0 0) {}; let c : CoreId := 8; let w : Nat := word 0x28 0 0 0 0; (Issues s c .loopi w) ∧ (decide (bits w 0 13 = 0)) = true)
    ∧ (let s : State := running (0x28 * 2 ^ 25 + 3 * 2 ^ 13 + 2) { loops := List.replicate 4 { start := 0x1000, len := 8, count := 2 } }; let c : CoreId := 8; let w : Nat := 0x28 * 2 ^ 25 + 3 * 2 ^ 13 + 2; (Issues s c .loopi w) ∧ (decide (bits w 0 13 ≠ 0) && decide (4 ≤ (s.core c).loops.length)) = true)
    ∧ (let s : State := running (0x28 * 2 ^ 25 + 3 * 2 ^ 13 + 2) {}; let c : CoreId := 8; let w : Nat := 0x28 * 2 ^ 25 + 3 * 2 ^ 13 + 2; (Issues s c .loopi w) ∧ (decide (bits w 0 13 ≠ 0) && decide ((s.core c).loops.length < 4)) = true)
    ∧ (let s : State := running (word 0x29 1 1 0 3) { g := [(1, 9)] }; let c : CoreId := 8; let w : Nat := word 0x29 1 1 0 3; (Issues s c .loopr w) ∧ (decide (fRd w ≠ 0 ∨ bits w 0 13 = 0)) = true)
    ∧ (let s : State := running (word 0x29 0 1 0 3) { g := [(1, 9)], loops := List.replicate 4 { start := 0x1000, len := 8, count := 2 } }; let c : CoreId := 8; let w : Nat := word 0x29 0 1 0 3; (Issues s c .loopr w) ∧ (decide (fRd w = 0) && decide (bits w 0 13 ≠ 0) && decide (bits ((s.core c).gr (fRa w)).toNat 0 32 ≠ 0) && decide (4 ≤ (s.core c).loops.length)) = true)
    ∧ (let s : State := running (word 0x29 0 1 0 3) { g := [(1, 0x900000009)] }; let c : CoreId := 8; let w : Nat := word 0x29 0 1 0 3; (Issues s c .loopr w) ∧ (decide (fRd w = 0) && decide (bits w 0 13 ≠ 0) && decide (bits ((s.core c).gr (fRa w)).toNat 0 32 ≠ 0) && decide ((s.core c).loops.length < 4)) = true)
    ∧ (let s : State := running (word 0x29 0 1 0 3) { g := [(1, 0x900000000)] }; let c : CoreId := 8; let w : Nat := word 0x29 0 1 0 3; (Issues s c .loopr w) ∧ (decide (fRd w = 0) && decide (bits w 0 13 ≠ 0) && decide (bits ((s.core c).gr (fRa w)).toNat 0 32 = 0) && decide ((s.core c).loops = [])) = true)
    ∧ (let s : State := running (word 50 0 0 0 0) { loops := [{ start := 0xFF8, len := 3, count := 5 }] }; let c : CoreId := 8; let w : Nat := word 50 0 0 0 0; let l : LoopLvl := { start := 0xFF8, len := 3, count := 5 }; let ls : List LoopLvl := []; (Issues s c .fence w) ∧ ((s.core c).loops = l :: ls ∧ (s.core c).pc.toNat = l.start + 4 * (l.len - 1)) ∧ (decide (1 < l.count)) = true)
    ∧ (let s : State := running (word 50 0 0 0 0) { loops := [{ start := 0xFF8, len := 3, count := 1 }] }; let c : CoreId := 8; let w : Nat := word 50 0 0 0 0; let l : LoopLvl := { start := 0xFF8, len := 3, count := 1 }; let ls : List LoopLvl := []; (Issues s c .fence w) ∧ ((s.core c).loops = l :: ls ∧ (s.core c).pc.toNat = l.start + 4 * (l.len - 1)) ∧ (decide (l.count ≤ 1) && decide (ls = [])) = true) := by
  refine ⟨?_, ?_, ?_, ?_, ?_, ?_, ?_, ?_, ?_, ?_, ?_, ?_, ?_, ?_, ?_, ?_, ?_, ?_, ?_, ?_, ?_, ?_, ?_, ?_, ?_, ?_, ?_, ?_, ?_, ?_, ?_, ?_, ?_, ?_, ?_, ?_, ?_, ?_, ?_⟩ <;> decide +kernel

/-- States and operands that meet the hypotheses of VectorMoves. -/
theorem witness_VectorMoves :
    (let s : State := running (word 0x40 3 1 0 1) { g := [(1, 0x2003)], spad := memWrite [] 0x2000 ((List.range 90).map (fun i => BitVec.ofNat 8 (i * 7 + 1))) }; let c : CoreId := 8; let w : Nat := word 0x40 3 1 0 1; let ecc : Bool := false; (Issues s c .vld w) ∧ (decide (s.spadOut c ((s.core c).gr (fRa w) + fImm w).toNat 64 = false) && decide (ecc = false)) = true)
    ∧ (let s : State := running (word 0x40 3 1 0 1) { g := [(1, 0x2003)], spad := memWrite [] 0x2000 ((List.range 90).map (fun i => BitVec.ofNat 8 (i * 7 + 1))) }; let c : CoreId := 8; let w : Nat := word 0x40 3 1 0 1; let ecc : Bool := true; (Issues s c .vld w) ∧ (decide (s.spadOut c ((s.core c).gr (fRa w) + fImm w).toNat 64 = false) && decide (ecc = true)) = true)
    ∧ (let s : State := running (word 0x40 3 1 0 1) { g := [(1, 0x2FFFC)] }; let c : CoreId := 8; let w : Nat := word 0x40 3 1 0 1; (Issues s c .vld w) ∧ (decide (s.spadOut c ((s.core c).gr (fRa w) + fImm w).toNat 64 = true)) = true)
    ∧ (let s : State := running (word 0x41 3 1 0 1) { g := [(1, 0x2003)], spad := memWrite [] 0x2000 ((List.range 90).map (fun i => BitVec.ofNat 8 (i * 7 + 1))) }; let c : CoreId := 8; let w : Nat := word 0x41 3 1 0 1; let ecc : Bool := false; (Issues s c .vldr w) ∧ (decide (((s.core c).gr (fRa w) + fImm w).toNat < 0x30000) && decide (s.spadOut c (((s.core c).gr (fRa w) + fImm w).toNat / 64 * 64) 64 = false) && decide (ecc = false)) = true)
    ∧ (let s : State := running (word 0x41 3 1 0 1) { g := [(1, 0x2003)], spad := memWrite [] 0x2000 ((List.range 90).map (fun i => BitVec.ofNat 8 (i * 7 + 1))) }; let c : CoreId := 8; let w : Nat := word 0x41 3 1 0 1; let ecc : Bool := true; (Issues s c .vldr w) ∧ (decide (((s.core c).gr (fRa w) + fImm w).toNat < 0x30000) && decide (s.spadOut c (((s.core c).gr (fRa w) + fImm w).toNat / 64 * 64) 64 = false) && decide (ecc = true)) = true)
    ∧ (let s : State := running (word 0x41 3 1 0 1) { g := [(1, 0x30000)] }; let c : CoreId := 8; let w : Nat := word 0x41 3 1 0 1; (Issues s c .vldr w) ∧ (decide (0x30000 ≤ ((s.core c).gr (fRa w) + fImm w).toNat)) = true)
    ∧ (let s : State := running (word 0x42 3 1 0 1) { g := [(1, 0x2003)], v := [(3, 0x123456789ABCDEF0123456789)], spad := memWrite [] 10 [1, 2, 3] }; let c : CoreId := 8; let w : Nat := word 0x42 3 1 0 1; let ecc : Bool := false; (Issues s c .vst w) ∧ (decide (s.spadOut c ((s.core c).gr (fRa w) + fImm w).toNat 64 = false) && decide (s.touchesCode c ((s.core c).gr (fRa w) + fImm w).toNat 64 = false) && decide (ecc = false)) = true)
    ∧ (let s : State := running (word 0x42 3 1 0 1) { g := [(1, 0x2003)], v := [(3, 0x123456789ABCDEF0123456789)], spad := memWrite [] 10 [1, 2, 3] }; let c : CoreId := 8; let w : Nat := word 0x42 3 1 0 1; let ecc : Bool := true; (Issues s c .vst w) ∧ (decide (s.spadOut c ((s.core c).gr (fRa w) + fImm w).toNat 64 = false) && decide (s.touchesCode c ((s.core c).gr (fRa w) + fImm w).toNat 64 = false) && decide (ecc = true)) = true)
    ∧ (let s : State := running (word 0x42 3 1 0 1) { g := [(1, 0x2FFFC)] }; let c : CoreId := 8; let w : Nat := word 0x42 3 1 0 1; (Issues s c .vst w) ∧ (decide (s.spadOut c ((s.core c).gr (fRa w) + fImm w).toNat 64 = true)) = true)
    ∧ (let s : State := running (word 0x42 3 1 0 1) { g := [(1, 0x1001)] }; let c : CoreId := 8; let w : Nat := word 0x42 3 1 0 1; (Issues s c .vst w) ∧ (decide (s.spadOut c ((s.core c).gr (fRa w) + fImm w).toNat 64 = false) && decide (s.touchesCode c ((s.core c).gr (fRa w) + fImm w).toNat 64 = true)) = true)
    ∧ (let s : State := running (word 0x43 5 3 0 (0 * 64 + 63)) { g := [(1, 0x1122334455667788)], v := [(3, BitVec.ofNat 512 (leNat ((List.range 64).map (fun i => BitVec.ofNat 8 (i * 7 + 1))))), (4, BitVec.ofNat 512 (leNat ((List.range 64).map (fun i => BitVec.ofNat 8 (i * 37 + 5)))))] }; let c : CoreId := 8; let w : Nat := word 0x43 5 3 0 (0 * 64 + 63); (Issues s c .vext w) ∧ (decide (bits w 0 6 + 2 ^ bits w 6 2 ≤ 64)) = true)
    ∧ (let s : State := running (word 0x43 5 3 0 (3 * 64 + 57)) { g := [(1, 0x1122334455667788)], v := [(3, BitVec.ofNat 512 (leNat ((List.range 64).map (fun i => BitVec.ofNat 8 (i * 7 + 1))))), (4, BitVec.ofNat 512 (leNat ((List.range 64).map (fun i => BitVec.ofNat 8 (i * 37 + 5)))))] }; let c : CoreId := 8; let w : Nat := word 0x43 5 3 0 (3 * 64 + 57); (Issues s c .vext w) ∧ (decide (64 < bits w 0 6 + 2 ^ bits w 6 2)) = true)
    ∧ (let s : State := running (word 0x44 3 1 0 (0 * 64 + 63)) { g := [(1, 0x1122334455667788)], v := [(3, BitVec.ofNat 512 (leNat ((List.range 64).map (fun i => BitVec.ofNat 8 (i * 7 + 1))))), (4, BitVec.ofNat 512 (leNat ((List.range 64).map (fun i => BitVec.ofNat 8 (i * 37 + 5)))))] }; let c : CoreId := 8; let w : Nat := word 0x44 3 1 0 (0 * 64 + 63); (Issues s c .vins w) ∧ (decide (bits w 0 6 + 2 ^ bits w 6 2 ≤ 64)) = true)
    ∧ (let s : State := running (word 0x44 3 1 0 (3 * 64 + 57)) { g := [(1, 0x1122334455667788)], v := [(3, BitVec.ofNat 512 (leNat ((List.range 64).map (fun i => BitVec.ofNat 8 (i * 7 + 1))))), (4, BitVec.ofNat 512 (leNat ((List.range 64).map (fun i => BitVec.ofNat 8 (i * 37 + 5)))))] }; let c : CoreId := 8; let w : Nat := word 0x44 3 1 0 (3 * 64 + 57); (Issues s c .vins w) ∧ (decide (64 < bits w 0 6 + 2 ^ bits w 6 2)) = true)
    ∧ (let s : State := running (word 0x45 3 1 0 (0 * 64)) { g := [(1, 0x1122334455667788)], v := [(3, BitVec.ofNat 512 (leNat ((List.range 64).map (fun i => BitVec.ofNat 8 (i * 7 + 1))))), (4, BitVec.ofNat 512 (leNat ((List.range 64).map (fun i => BitVec.ofNat 8 (i * 37 + 5)))))] }; let c : CoreId := 8; let w : Nat := word 0x45 3 1 0 (0 * 64); (Issues s c .vbcast w) ∧ (decide (fFmt w ∈ [0, 1, 2, 3, 4, 10, 11])) = true)
    ∧ (let s : State := running (word 0x45 3 1 0 (5 * 64)) { g := [(1, 0x1122334455667788)], v := [(3, BitVec.ofNat 512 (leNat ((List.range 64).map (fun i => BitVec.ofNat 8 (i * 7 + 1))))), (4, BitVec.ofNat 512 (leNat ((List.range 64).map (fun i => BitVec.ofNat 8 (i * 37 + 5)))))] }; let c : CoreId := 8; let w : Nat := word 0x45 3 1 0 (5 * 64); (Issues s c .vbcast w) ∧ (decide (fFmt w ∉ [0, 1, 2, 3, 4, 10, 11])) = true)
    ∧ (let s : State := running (word 0x48 5 3 4 (11 * 64 + 8)) { g := [(1, 0x1122334455667788)], v := [(3, BitVec.ofNat 512 (leNat ((List.range 64).map (fun i => BitVec.ofNat 8 (i * 7 + 1))))), (4, BitVec.ofNat 512 (leNat ((List.range 64).map (fun i => BitVec.ofNat 8 (i * 37 + 5)))))] }; let c : CoreId := 8; let w : Nat := word 0x48 5 3 4 (11 * 64 + 8); (Issues s c .vlogic w) ∧ (decide (fFmt w = 11) && decide (fFn w = 8)) = true)
    ∧ (let s : State := running (word 0x48 5 3 4 (11 * 64 + 9)) { g := [(1, 0x1122334455667788)], v := [(3, BitVec.ofNat 512 (leNat ((List.range 64).map (fun i => BitVec.ofNat 8 (i * 7 + 1))))), (4, BitVec.ofNat 512 (leNat ((List.range 64).map (fun i => BitVec.ofNat 8 (i * 37 + 5)))))] }; let c : CoreId := 8; let w : Nat := word 0x48 5 3 4 (11 * 64 + 9); (Issues s c .vlogic w) ∧ (decide (fFmt w = 11) && decide (fFn w = 9)) = true)
    ∧ (let s : State := running (word 0x48 5 3 4 (11 * 64 + 10)) { g := [(1, 0x1122334455667788)], v := [(3, BitVec.ofNat 512 (leNat ((List.range 64).map (fun i => BitVec.ofNat 8 (i * 7 + 1))))), (4, BitVec.ofNat 512 (leNat ((List.range 64).map (fun i => BitVec.ofNat 8 (i * 37 + 5)))))] }; let c : CoreId := 8; let w : Nat := word 0x48 5 3 4 (11 * 64 + 10); (Issues s c .vlogic w) ∧ (decide (fFmt w = 11) && decide (fFn w = 10)) = true)
    ∧ (let s : State := running (word 0x48 5 3 4 (0 * 64 + 8)) { g := [(1, 0x1122334455667788)], v := [(3, BitVec.ofNat 512 (leNat ((List.range 64).map (fun i => BitVec.ofNat 8 (i * 7 + 1))))), (4, BitVec.ofNat 512 (leNat ((List.range 64).map (fun i => BitVec.ofNat 8 (i * 37 + 5)))))] }; let c : CoreId := 8; let w : Nat := word 0x48 5 3 4 (0 * 64 + 8); (Issues s c .vlogic w) ∧ (decide (fFmt w ≠ 11)) = true)
    ∧ (let s : State := running (word 0x4D 5 3 4 0) { g := [(1, 0x1122334455667788)], v := [(3, BitVec.ofNat 512 (leNat ((List.range 64).map (fun i => BitVec.ofNat 8 (i * 7 + 1))))), (4, BitVec.ofNat 512 (leNat ((List.range 64).map (fun i => BitVec.ofNat 8 (i * 37 + 5)))))] }; let c : CoreId := 8; let w : Nat := word 0x4D 5 3 4 0; (Issues s c .vperm w)) := by
  refine ⟨?_, ?_, ?_, ?_, ?_, ?_, ?_, ?_, ?_, ?_, ?_, ?_, ?_, ?_, ?_, ?_, ?_, ?_, ?_, ?_, ?_⟩ <;> decide +kernel

/-- States and operands that meet the hypotheses of VectorArithmetic. -/
theorem witness_VectorArithmetic :
    (let s : State := running (word 0x48 5 3 4 (11 * 64 + 0)) { fflags := 1, v := [(3, BitVec.ofNat 512 (leNat ((List.range 64).map (fun i => BitVec.ofNat 8 (i * 7 + 1))))), (4, BitVec.ofNat 512 (leNat ((List.range 64).map (fun i => BitVec.ofNat 8 (i * 37 + 5)))))] }; let c : CoreId := 8; let w : Nat := word 0x48 5 3 4 (11 * 64 + 0); (Issues s c .varith w) ∧ (decide (fFmt w = 11) && decide (fFn w = 0)) = true)
    ∧ (let s : State := running (word 0x48 5 3 4 (11 * 64 + 1)) { fflags := 1, v := [(3, BitVec.ofNat 512 (leNat ((List.range 64).map (fun i => BitVec.ofNat 8 (i * 7 + 1))))), (4, BitVec.ofNat 512 (leNat ((List.range 64).map (fun i => BitVec.ofNat 8 (i * 37 + 5)))))] }; let c : CoreId := 8; let w : Nat := word 0x48 5 3 4 (11 * 64 + 1); (Issues s c .varith w) ∧ (decide (fFmt w = 11) && decide (fFn w = 1)) = true)
    ∧ (let s : State := running (word 0x48 5 3 4 (11 * 64 + 2)) { fflags := 1, v := [(3, BitVec.ofNat 512 (leNat ((List.range 64).map (fun i => BitVec.ofNat 8 (i * 7 + 1))))), (4, BitVec.ofNat 512 (leNat ((List.range 64).map (fun i => BitVec.ofNat 8 (i * 37 + 5)))))] }; let c : CoreId := 8; let w : Nat := word 0x48 5 3 4 (11 * 64 + 2); (Issues s c .varith w) ∧ (decide (fFmt w = 11) && decide (fFn w = 2)) = true)
    ∧ (let s : State := running (word 0x48 5 3 4 (11 * 64 + 3)) { fflags := 1, v := [(3, BitVec.ofNat 512 (leNat ((List.range 64).map (fun i => BitVec.ofNat 8 (i * 7 + 1))))), (4, BitVec.ofNat 512 (leNat ((List.range 64).map (fun i => BitVec.ofNat 8 (i * 37 + 5)))))] }; let c : CoreId := 8; let w : Nat := word 0x48 5 3 4 (11 * 64 + 3); (Issues s c .varith w) ∧ (decide (fFmt w = 11) && decide (fFn w = 3)) = true)
    ∧ (let s : State := running (word 0x48 5 3 4 (11 * 64 + 4)) { fflags := 1, v := [(3, BitVec.ofNat 512 (leNat ((List.range 64).map (fun i => BitVec.ofNat 8 (i * 7 + 1))))), (4, BitVec.ofNat 512 (leNat ((List.range 64).map (fun i => BitVec.ofNat 8 (i * 37 + 5)))))] }; let c : CoreId := 8; let w : Nat := word 0x48 5 3 4 (11 * 64 + 4); (Issues s c .varith w) ∧ (decide (fFmt w = 11) && decide (fFn w = 4)) = true)
    ∧ (let s : State := running (word 0x48 5 3 4 (10 * 64 + 0)) { fflags := 1, v := [(3, BitVec.ofNat 512 (leNat ((List.range 64).map (fun i => BitVec.ofNat 8 (i * 7 + 1))))), (4, BitVec.ofNat 512 (leNat ((List.range 64).map (fun i => BitVec.ofNat 8 (i * 37 + 5)))))] }; let c : CoreId := 8; let w : Nat := word 0x48 5 3 4 (10 * 64 + 0); (Issues s c .varith w) ∧ (decide (fFmt w = 10) && decide (fFn w = 0)) = true)
    ∧ (let s : State := running (word 0x48 5 3 4 (10 * 64 + 1)) { fflags := 1, v := [(3, BitVec.ofNat 512 (leNat ((List.range 64).map (fun i => BitVec.ofNat 8 (i * 7 + 1))))), (4, BitVec.ofNat 512 (leNat ((List.range 64).map (fun i => BitVec.ofNat 8 (i * 37 + 5)))))] }; let c : CoreId := 8; let w : Nat := word 0x48 5 3 4 (10 * 64 + 1); (Issues s c .varith w) ∧ (decide (fFmt w = 10) && decide (fFn w = 1)) = true)
    ∧ (let s : State := running (word 0x48 5 3 4 (10 * 64 + 2)) { fflags := 1, v := [(3, BitVec.ofNat 512 (leNat ((List.range 64).map (fun i => BitVec.ofNat 8 (i * 7 + 1))))), (4, BitVec.ofNat 512 (leNat ((List.range 64).map (fun i => BitVec.ofNat 8 (i * 37 + 5)))))] }; let c : CoreId := 8; let w : Nat := word 0x48 5 3 4 (10 * 64 + 2); (Issues s c .varith w) ∧ (decide (fFmt w = 10) && decide (fFn w = 2)) = true)
    ∧ (let s : State := running (word 0x48 5 3 4 (10 * 64 + 3)) { fflags := 1, v := [(3, BitVec.ofNat 512 (leNat ((List.range 64).map (fun i => BitVec.ofNat 8 (i * 7 + 1))))), (4, BitVec.ofNat 512 (leNat ((List.range 64).map (fun i => BitVec.ofNat 8 (i * 37 + 5)))))] }; let c : CoreId := 8; let w : Nat := word 0x48 5 3 4 (10 * 64 + 3); (Issues s c .varith w) ∧ (decide (fFmt w = 10) && decide (fFn w = 3)) = true)
    ∧ (let s : State := running (word 0x48 5 3 4 (10 * 64 + 4)) { fflags := 1, v := [(3, BitVec.ofNat 512 (leNat ((List.range 64).map (fun i => BitVec.ofNat 8 (i * 7 + 1))))), (4, BitVec.ofNat 512 (leNat ((List.range 64).map (fun i => BitVec.ofNat 8 (i * 37 + 5)))))] }; let c : CoreId := 8; let w : Nat := word 0x48 5 3 4 (10 * 64 + 4); (Issues s c .varith w) ∧ (decide (fFmt w = 10) && decide (fFn w = 4)) = true)
    ∧ (let s : State := running (word 0x48 5 3 4 (0 * 64 + 0)) { fflags := 1, v := [(3, BitVec.ofNat 512 (leNat ((List.range 64).map (fun i => BitVec.ofNat 8 (i * 7 + 1))))), (4, BitVec.ofNat 512 (leNat ((List.range 64).map (fun i => BitVec.ofNat 8 (i * 37 + 5)))))] }; let c : CoreId := 8; let w : Nat := word 0x48 5 3 4 (0 * 64 + 0); (Issues s c .varith w) ∧ (decide (fFmt w = 0) && decide (fFn w = 0)) = true)
    ∧ (let s : State := running (word 0x48 5 3 4 (0 * 64 + 1)) { fflags := 1, v := [(3, BitVec.ofNat 512 (leNat ((List.range 64).map (fun i => BitVec.ofNat 8 (i * 7 + 1))))), (4, BitVec.ofNat 512 (leNat ((List.range 64).map (fun i => BitVec.ofNat 8 (i * 37 + 5)))))] }; let c : CoreId := 8; let w : Nat := word 0x48 5 3 4 (0 * 64 + 1); (Issues s c .varith w) ∧ (decide (fFmt w = 0) && decide (fFn w = 1)) = true)
    ∧ (let s : State := running (word 0x48 5 3 4 (0 * 64 + 2)) { fflags := 1, v := [(3, BitVec.ofNat 512 (leNat ((List.range 64).map (fun i => BitVec.ofNat 8 (i * 7 + 1))))), (4, BitVec.ofNat 512 (leNat ((List.range 64).map (fun i => BitVec.ofNat 8 (i * 37 + 5)))))] }; let c : CoreId := 8; let w : Nat := word 0x48 5 3 4 (0 * 64 + 2); (Issues s c .varith w) ∧ (decide (fFmt w = 0) && decide (fFn w = 2)) = true)
    ∧ (let s : State := running (word 0x48 5 3 4 (1 * 64 + 0)) { fflags := 1, v := [(3, BitVec.ofNat 512 (leNat ((List.range 64).map (fun i => BitVec.ofNat 8 (i * 7 + 1))))), (4, BitVec.ofNat 512 (leNat ((List.range 64).map (fun i => BitVec.ofNat 8 (i * 37 + 5)))))] }; let c : CoreId := 8; let w : Nat := word 0x48 5 3 4 (1 * 64 + 0); (Issues s c .varith w) ∧ (decide (fFmt w = 1) && decide (fFn w = 0)) = true)
    ∧ (let s : State := running (word 0x48 5 3 4 (1 * 64 + 1)) { fflags := 1, v := [(3, BitVec.ofNat 512 (leNat ((List.range 64).map (fun i => BitVec.ofNat 8 (i * 7 + 1))))), (4, BitVec.ofNat 512 (leNat ((List.range 64).map (fun i => BitVec.ofNat 8 (i * 37 + 5)))))] }; let c : CoreId := 8; let w : Nat := word 0x48 5 3 4 (1 * 64 + 1); (Issues s c .varith w) ∧ (decide (fFmt w = 1) && decide (fFn w = 1)) = true)
    ∧ (let s : State := running (word 0x48 5 3 4 (1 * 64 + 2)) { fflags := 1, v := [(3, BitVec.ofNat 512 (leNat ((List.range 64).map (fun i => BitVec.ofNat 8 (i * 7 + 1))))), (4, BitVec.ofNat 512 (leNat ((List.range 64).map (fun i => BitVec.ofNat 8 (i * 37 + 5)))))] }; let c : CoreId := 8; let w : Nat := word 0x48 5 3 4 (1 * 64 + 2); (Issues s c .varith w) ∧ (decide (fFmt w = 1) && decide (fFn w = 2)) = true)
    ∧ (let s : State := running (word 0x48 5 3 4 (2 * 64 + 0)) { fflags := 1, v := [(3, BitVec.ofNat 512 (leNat ((List.range 64).map (fun i => BitVec.ofNat 8 (i * 7 + 1))))), (4, BitVec.ofNat 512 (leNat ((List.range 64).map (fun i => BitVec.ofNat 8 (i * 37 + 5)))))] }; let c : CoreId := 8; let w : Nat := word 0x48 5 3 4 (2 * 64 + 0); (Issues s c .varith w) ∧ (decide (fFmt w = 2) && decide (fFn w = 0)) = true)
    ∧ (let s : State := running (word 0x48 5 3 4 (2 * 64 + 1)) { fflags := 1, v := [(3, BitVec.ofNat 512 (leNat ((List.range 64).map (fun i => BitVec.ofNat 8 (i * 7 + 1))))), (4, BitVec.ofNat 512 (leNat ((List.range 64).map (fun i => BitVec.ofNat 8 (i * 37 + 5)))))] }; let c : CoreId := 8; let w : Nat := word 0x48 5 3 4 (2 * 64 + 1); (Issues s c .varith w) ∧ (decide (fFmt w = 2) && decide (fFn w = 1)) = true)
    ∧ (let s : State := running (word 0x48 5 3 4 (2 * 64 + 2)) { fflags := 1, v := [(3, BitVec.ofNat 512 (leNat ((List.range 64).map (fun i => BitVec.ofNat 8 (i * 7 + 1))))), (4, BitVec.ofNat 512 (leNat ((List.range 64).map (fun i => BitVec.ofNat 8 (i * 37 + 5)))))] }; let c : CoreId := 8; let w : Nat := word 0x48 5 3 4 (2 * 64 + 2); (Issues s c .varith w) ∧ (decide (fFmt w = 2) && decide (fFn w = 2)) = true)
    ∧ (let s : State := running (word 0x48 5 3 4 (5 * 64)) { fflags := 1, v := [(3, BitVec.ofNat 512 (leNat ((List.range 64).map (fun i => BitVec.ofNat 8 (i * 7 + 1))))), (4, BitVec.ofNat 512 (leNat ((List.range 64).map (fun i => BitVec.ofNat 8 (i * 37 + 5)))))] }; let c : CoreId := 8; let w : Nat := word 0x48 5 3 4 (5 * 64); (Issues s c .varith w) ∧ (decide (fFmt w ∉ [0, 1, 2, 10, 11])) = true)
    ∧ (let s : State := running (word 0x48 5 3 0 (11 * 64 + 5)) { fflags := 1, v := [(3, BitVec.ofNat 512 (leNat ((List.range 64).map (fun i => BitVec.ofNat 8 (i * 7 + 1))))), (4, BitVec.ofNat 512 (leNat ((List.range 64).map (fun i => BitVec.ofNat 8 (i * 37 + 5)))))] }; let c : CoreId := 8; let w : Nat := word 0x48 5 3 0 (11 * 64 + 5); (Issues s c .vabsNeg w) ∧ (decide (fFmt w = 11) && decide (fRb w = 0) && decide (fFn w = 5)) = true)
    ∧ (let s : State := running (word 0x48 5 3 0 (11 * 64 + 6)) { fflags := 1, v := [(3, BitVec.ofNat 512 (leNat ((List.range 64).map (fun i => BitVec.ofNat 8 (i * 7 + 1))))), (4, BitVec.ofNat 512 (leNat ((List.range 64).map (fun i => BitVec.ofNat 8 (i * 37 + 5)))))] }; let c : CoreId := 8; let w : Nat := word 0x48 5 3 0 (11 * 64 + 6); (Issues s c .vabsNeg w) ∧ (decide (fFmt w = 11) && decide (fRb w = 0) && decide (fFn w = 6)) = true)
    ∧ (let s : State := running (word 0x48 5 3 0 (10 * 64 + 5)) { fflags := 1, v := [(3, BitVec.ofNat 512 (leNat ((List.range 64).map (fun i => BitVec.ofNat 8 (i * 7 + 1))))), (4, BitVec.ofNat 512 (leNat ((List.range 64).map (fun i => BitVec.ofNat 8 (i * 37 + 5)))))] }; let c : CoreId := 8; let w : Nat := word 0x48 5 3 0 (10 * 64 + 5); (Issues s c .vabsNeg w) ∧ (decide (fFmt w = 10) && decide (fRb w = 0) && decide (fFn w = 5)) = true)
    ∧ (let s : State := running (word 0x48 5 3 0 (10 * 64 + 6)) { fflags := 1, v := [(3, BitVec.ofNat 512 (leNat ((List.range 64).map (fun i => BitVec.ofNat 8 (i * 7 + 1))))), (4, BitVec.ofNat 512 (leNat ((List.range 64).map (fun i => BitVec.ofNat 8 (i * 37 + 5)))))] }; let c : CoreId := 8; let w : Nat := word 0x48 5 3 0 (10 * 64 + 6); (Issues s c .vabsNeg w) ∧ (decide (fFmt w = 10) && decide (fRb w = 0) && decide (fFn w = 6)) = true)
    ∧ (let s : State := running (word 0x48 5 3 0 (0 * 64 + 5)) { fflags := 1, v := [(3, BitVec.ofNat 512 (leNat ((List.range 64).map (fun i => BitVec.ofNat 8 (i * 7 + 1))))), (4, BitVec.ofNat 512 (leNat ((List.range 64).map (fun i => BitVec.ofNat 8 (i * 37 + 5)))))] }; let c : CoreId := 8; let w : Nat := word 0x48 5 3 0 (0 * 64 + 5); (Issues s c .vabsNeg w) ∧ (decide (fFmt w = 0) && decide (fRb w = 0) && decide (fFn w = 5)) = true)
    ∧ (let s : State := running (word 0x48 5 3 0 (0 * 64 + 6)) { fflags := 1, v := [(3, BitVec.ofNat 512 (leNat ((List.range 64).map (fun i => BitVec.ofNat 8 (i * 7 + 1))))), (4, BitVec.ofNat 512 (leNat ((List.range 64).map (fun i => BitVec.ofNat 8 (i * 37 + 5)))))] }; let c : CoreId := 8; let w : Nat := word 0x48 5 3 0 (0 * 64 + 6); (Issues s c .vabsNeg w) ∧ (decide (fFmt w = 0) && decide (fRb w = 0) && decide (fFn w = 6)) = true)
    ∧ (let s : State := running (word 0x48 5 3 0 (1 * 64 + 5)) { fflags := 1, v := [(3, BitVec.ofNat 512 (leNat ((List.range 64).map (fun i => BitVec.ofNat 8 (i * 7 + 1))))), (4, BitVec.ofNat 512 (leNat ((List.range 64).map (fun i => BitVec.ofNat 8 (i * 37 + 5)))))] }; let c : CoreId := 8; let w : Nat := word 0x48 5 3 0 (1 * 64 + 5); (Issues s c .vabsNeg w) ∧ (decide (fFmt w = 1) && decide (fRb w = 0) && decide (fFn w = 5)) = true)
    ∧ (let s : State := running (word 0x48 5 3 0 (1 * 64 + 6)) { fflags := 1, v := [(3, BitVec.ofNat 512 (leNat ((List.range 64).map (fun i => BitVec.ofNat 8 (i * 7 + 1))))), (4, BitVec.ofNat 512 (leNat ((List.range 64).map (fun i => BitVec.ofNat 8 (i * 37 + 5)))))] }; let c : CoreId := 8; let w : Nat := word 0x48 5 3 0 (1 * 64 + 6); (Issues s c .vabsNeg w) ∧ (decide (fFmt w = 1) && decide (fRb w = 0) && decide (fFn w = 6)) = true)
    ∧ (let s : State := running (word 0x48 5 3 4 (5)) { fflags := 1, v := [(3, BitVec.ofNat 512 (leNat ((List.range 64).map (fun i => BitVec.ofNat 8 (i * 7 + 1))))), (4, BitVec.ofNat 512 (leNat ((List.range 64).map (fun i => BitVec.ofNat 8 (i * 37 + 5)))))] }; let c : CoreId := 8; let w : Nat := word 0x48 5 3 4 (5); (Issues s c .vabsNeg w) ∧ (decide (fFmt w ∉ [0, 1, 2, 10, 11] ∨ fRb w ≠ 0)) = true)
    ∧ (let s : State := running (word 0x49 4 3 4 (0 * 64)) { fflags := 1, v := [(3, BitVec.ofNat 512 (leNat ((List.range 64).map (fun i => BitVec.ofNat 8 (i * 7 + 1))))), (4, BitVec.ofNat 512 (leNat ((List.range 64).map (fun i => BitVec.ofNat 8 (i * 37 + 5)))))] }; let c : CoreId := 8; let w : Nat := word 0x49 4 3 4 (0 * 64); (Issues s c .vfma w) ∧ (decide (fFmt w = 0)) = true)
    ∧ (let s : State := running (word 0x49 4 3 4 (1 * 64)) { fflags := 1, v := [(3, BitVec.ofNat 512 (leNat ((List.range 64).map (fun i => BitVec.ofNat 8 (i * 7 + 1))))), (4, BitVec.ofNat 512 (leNat ((List.range 64).map (fun i => BitVec.ofNat 8 (i * 37 + 5)))))] }; let c : CoreId := 8; let w : Nat := word 0x49 4 3 4 (1 * 64); (Issues s c .vfma w) ∧ (decide (fFmt w = 1)) = true)
    ∧ (let s : State := running (word 0x49 4 3 4 (2 * 64)) { fflags := 1, v := [(3, BitVec.ofNat 512 (leNat ((List.range 64).map (fun i => BitVec.ofNat 8 (i * 7 + 1))))), (4, BitVec.ofNat 512 (leNat ((List.range 64).map (fun i => BitVec.ofNat 8 (i * 37 + 5)))))] }; let c : CoreId := 8; let w : Nat := word 0x49 4 3 4 (2 * 64); (Issues s c .vfma w) ∧ (decide (fFmt w = 2)) = true)
    ∧ (let s : State := running (word 0x49 4 3 4 (3 * 64)) { fflags := 1, v := [(3, BitVec.ofNat 512 (leNat ((List.range 64).map (fun i => BitVec.ofNat 8 (i * 7 + 1))))), (4, BitVec.ofNat 512 (leNat ((List.range 64).map (fun i => BitVec.ofNat 8 (i * 37 + 5)))))] }; let c : CoreId := 8; let w : Nat := word 0x49 4 3 4 (3 * 64); (Issues s c .vfma w) ∧ (decide (2 < fFmt w)) = true)
    ∧ (let s : State := running (word 0x4A 4 3 0 (1 * 64 + 0 * 16 + 2)) { fflags := 1, v := [(3, BitVec.ofNat 512 (leNat ((List.range 64).map (fun i => BitVec.ofNat 8 (i * 7 + 1))))), (4, BitVec.ofNat 512 (leNat ((List.range 64).map (fun i => BitVec.ofNat 8 (i * 37 + 5)))))] }; let c : CoreId := 8; let w : Nat := word 0x4A 4 3 0 (1 * 64 + 0 * 16 + 2); (Issues s c .vcvt w) ∧ (decide (fFmt w ∈ [0, 1, 2, 3, 4, 10, 11]) && decide (bits w 0 4 ∈ [0, 1, 2, 3, 4, 10, 11]) && decide (fmtBits (fFmt w) = fmtBits (bits w 0 4))) = true)
    ∧ (let s : State := running (word 0x4A 4 3 0 (3 * 64 + 1 * 16 + 0)) { fflags := 1, v := [(3, BitVec.ofNat 512 (leNat ((List.range 64).map (fun i => BitVec.ofNat 8 (i * 7 + 1))))), (4, BitVec.ofNat 512 (leNat ((List.range 64).map (fun i => BitVec.ofNat 8 (i * 37 + 5)))))] }; let c : CoreId := 8; let w : Nat := word 0x4A 4 3 0 (3 * 64 + 1 * 16 + 0); (Issues s c .vcvt w) ∧ (decide (fFmt w ∈ [0, 1, 2, 3, 4, 10, 11]) && decide (bits w 0 4 ∈ [0, 1, 2, 3, 4, 10, 11]) && decide (fmtBits (fFmt w) < fmtBits (bits w 0 4))) = true)
    ∧ (let s : State := running (word 0x4A 4 3 0 (0 * 64 + 1 * 16 + 3)) { fflags := 1, v := [(3, BitVec.ofNat 512 (leNat ((List.range 64).map (fun i => BitVec.ofNat 8 (i * 7 + 1))))), (4, BitVec.ofNat 512 (leNat ((List.range 64).map (fun i => BitVec.ofNat 8 (i * 37 + 5)))))] }; let c : CoreId := 8; let w : Nat := word 0x4A 4 3 0 (0 * 64 + 1 * 16 + 3); (Issues s c .vcvt w) ∧ (decide (fFmt w ∈ [0, 1, 2, 3, 4, 10, 11]) && decide (bits w 0 4 ∈ [0, 1, 2, 3, 4, 10, 11]) && decide (fmtBits (bits w 0 4) < fmtBits (fFmt w))) = true)
    ∧ (let s : State := running (word 0x4A 4 3 0 (5 * 64 + 0 * 16 + 0)) { fflags := 1, v := [(3, BitVec.ofNat 512 (leNat ((List.range 64).map (fun i => BitVec.ofNat 8 (i * 7 + 1))))), (4, BitVec.ofNat 512 (leNat ((List.range 64).map (fun i => BitVec.ofNat 8 (i * 37 + 5)))))] }; let c : CoreId := 8; let w : Nat := word 0x4A 4 3 0 (5 * 64 + 0 * 16 + 0); (Issues s c .vcvt w) ∧ (decide (fFmt w ∉ [0, 1, 2, 3, 4, 10, 11] ∨ bits w 0 4 ∉ [0, 1, 2, 3, 4, 10, 11])) = true)
    ∧ (let s : State := running (word 0x4B 6 3 0 (5 * 64 + 1)) { fflags := 1, v := [(3, BitVec.ofNat 512 (leNat ((List.range 64).map (fun i => BitVec.ofNat 8 (i * 7 + 1))))), (4, BitVec.ofNat 512 (leNat ((List.range 64).map (fun i => BitVec.ofNat 8 (i * 37 + 5)))))] }; let c : CoreId := 8; let w : Nat := word 0x4B 6 3 0 (5 * 64 + 1); (Issues s c .vqmx w) ∧ (decide (fFmt w ∈ [5, 6, 7, 8, 9]) && decide (bitAt w 0 = true ∨ fRa w % 2 = 0)) = true)
    ∧ (let s : State := running (word 0x4B 6 3 0 (6 * 64 + 2)) { fflags := 1, v := [(3, BitVec.ofNat 512 (leNat ((List.range 64).map (fun i => BitVec.ofNat 8 (i * 7 + 1))))), (4, BitVec.ofNat 512 (leNat ((List.range 64).map (fun i => BitVec.ofNat 8 (i * 37 + 5)))))] }; let c : CoreId := 8; let w : Nat := word 0x4B 6 3 0 (6 * 64 + 2); (Issues s c .vqmx w) ∧ (decide (fFmt w ∉ [5, 6, 7, 8, 9] ∨ (bitAt w 0 = false ∧ fRa w % 2 = 1))) = true)
    ∧ (let s : State := running (word 0x4C 7 3 0 (5 * 64 + 1)) { fflags := 1, v := [(3, BitVec.ofNat 512 (leNat ((List.range 64).map (fun i => BitVec.ofNat 8 (i * 7 + 1))))), (4, BitVec.ofNat 512 (leNat ((List.range 64).map (fun i => BitVec.ofNat 8 (i * 37 + 5)))))] }; let c : CoreId := 8; let w : Nat := word 0x4C 7 3 0 (5 * 64 + 1); (Issues s c .vdqmx w) ∧ (decide (fFmt w ∈ [5, 6, 7, 8, 9]) && decide (bitAt w 0 = true)) = true)
    ∧ (let s : State := running (word 0x4C 6 3 0 (9 * 64 + 0)) { fflags := 1, v := [(3, BitVec.ofNat 512 (leNat ((List.range 64).map (fun i => BitVec.ofNat 8 (i * 7 + 1))))), (4, BitVec.ofNat 512 (leNat ((List.range 64).map (fun i => BitVec.ofNat 8 (i * 37 + 5)))))] }; let c : CoreId := 8; let w : Nat := word 0x4C 6 3 0 (9 * 64 + 0); (Issues s c .vdqmx w) ∧ (decide (fFmt w ∈ [5, 6, 7, 8, 9]) && decide (bitAt w 0 = false) && decide (fRd w % 2 = 0)) = true)
    ∧ (let s : State := running (word 0x4C 7 3 0 (7 * 64 + 0)) { fflags := 1, v := [(3, BitVec.ofNat 512 (leNat ((List.range 64).map (fun i => BitVec.ofNat 8 (i * 7 + 1))))), (4, BitVec.ofNat 512 (leNat ((List.range 64).map (fun i => BitVec.ofNat 8 (i * 37 + 5)))))] }; let c : CoreId := 8; let w : Nat := word 0x4C 7 3 0 (7 * 64 + 0); (Issues s c .vdqmx w) ∧ (decide (fFmt w ∉ [5, 6, 7, 8, 9] ∨ (bitAt w 0 = false ∧ fRd w % 2 = 1))) = true)
    ∧ (let s : State := running (word 0x4E 5 3 0 (11 * 64 + 0)) { fflags := 1, v := [(3, BitVec.ofNat 512 (leNat ((List.range 64).map (fun i => BitVec.ofNat 8 (i * 7 + 1))))), (4, BitVec.ofNat 512 (leNat ((List.range 64).map (fun i => BitVec.ofNat 8 (i * 37 + 5)))))] }; let c : CoreId := 8; let w : Nat := word 0x4E 5 3 0 (11 * 64 + 0); (Issues s c .vhred w) ∧ (decide (fFmt w = 11) && decide (fFn w = 0)) = true)
    ∧ (let s : State := running (word 0x4E 5 3 0 (11 * 64 + 1)) { fflags := 1, v := [(3, BitVec.ofNat 512 (leNat ((List.range 64).map (fun i => BitVec.ofNat 8 (i * 7 + 1))))), (4, BitVec.ofNat 512 (leNat ((List.range 64).map (fun i => BitVec.ofNat 8 (i * 37 + 5)))))] }; let c : CoreId := 8; let w : Nat := word 0x4E 5 3 0 (11 * 64 + 1); (Issues s c .vhred w) ∧ (decide (fFmt w = 11) && decide (fFn w = 1)) = true)
    ∧ (let s : State := running (word 0x4E 5 3 0 (11 * 64 + 2)) { fflags := 1, v := [(3, BitVec.ofNat 512 (leNat ((List.range 64).map (fun i => BitVec.ofNat 8 (i * 7 + 1))))), (4, BitVec.ofNat 512 (leNat ((List.range 64).map (fun i => BitVec.ofNat 8 (i * 37 + 5)))))] }; let c : CoreId := 8; let w : Nat := word 0x4E 5 3 0 (11 * 64 + 2); (Issues s c .vhred w) ∧ (decide (fFmt w = 11) && decide (fFn w = 2)) = true)
    ∧ (let s : State := running (word 0x4E 5 3 0 (0 * 64 + 0)) { fflags := 1, v := [(3, BitVec.ofNat 512 (leNat ((List.range 64).map (fun i => BitVec.ofNat 8 (i * 7 + 1))))), (4, BitVec.ofNat 512 (leNat ((List.range 64).map (fun i => BitVec.ofNat 8 (i * 37 + 5)))))] }; let c : CoreId := 8; let w : Nat := word 0x4E 5 3 0 (0 * 64 + 0); (Issues s c .vhred w) ∧ (decide (fFmt w = 0) && decide (fFn w = 0)) = true)
    ∧ (let s : State := running (word 0x4E 5 3 0 (1 * 64 + 0)) { fflags := 1, v := [(3, BitVec.ofNat 512 (leNat ((List.range 64).map (fun i => BitVec.ofNat 8 (i * 7 + 1))))), (4, BitVec.ofNat 512 (leNat ((List.range 64).map (fun i => BitVec.ofNat 8 (i * 37 + 5)))))] }; let c : CoreId := 8; let w : Nat := word 0x4E 5 3 0 (1 * 64 + 0); (Issues s c .vhred w) ∧ (decide (fFmt w ≠ 0) && decide (fFmt w ≠ 11)) = true) := by
  refine ⟨?_, ?_, ?_, ?_, ?_, ?_, ?_, ?_, ?_, ?_, ?_, ?_, ?_, ?_, ?_, ?_, ?_, ?_, ?_, ?_, ?_, ?_, ?_, ?_, ?_, ?_, ?_, ?_, ?_, ?_, ?_, ?_, ?_, ?_, ?_, ?_, ?_, ?_, ?_, ?_, ?_, ?_, ?_, ?_, ?_, ?_, ?_⟩ <;> decide +kernel

/-- States and operands that meet the hypotheses of TensorInstructions. -/
theorem witness_TensorInstructions :
    (let s : State := running (word 0x50 1 0 0 0) { g := [(1, 0x2000), (2, 0x3000)], fflags := 2, acc := [(3, 7), (256, 0xFFFFFFFF), (257, 9), (511, 3)], spad := memWrite [] 0x2000 ((List.range 80).map (fun i => BitVec.ofNat 8 (i * 7 + 1))) }; let c : CoreId := 8; let w : Nat := word 0x50 1 0 0 0; (Issues s c .tzero w) ∧ (decide (bits w 22 3 = 0)) = true)
    ∧ (let s : State := running (word 0x50 5 0 0 0) { g := [(1, 0x2000), (2, 0x3000)], fflags := 2, acc := [(3, 7), (256, 0xFFFFFFFF), (257, 9), (511, 3)], spad := memWrite [] 0x2000 ((List.range 80).map (fun i => BitVec.ofNat 8 (i * 7 + 1))) }; let c : CoreId := 8; let w : Nat := word 0x50 5 0 0 0; (Issues s c .tzero w) ∧ (decide (bits w 22 3 ≠ 0)) = true)
    ∧ (let s : State := running (word 0x51 1 1 0 0) { g := [(1, 0x2000), (2, 0x3000)], fflags := 2, acc := [(3, 7), (256, 0xFFFFFFFF), (257, 9), (511, 3)], spad := memWrite [] 0x2000 ((List.range 80).map (fun i => BitVec.ofNat 8 (i * 7 + 1))) }; let c : CoreId := 8; let w : Nat := word 0x51 1 1 0 0; let ecc : Bool := false; (Issues s c .tld w) ∧ (decide (bits w 22 3 = 0) && decide (s.spadOut c ((s.core c).gr (fRa w)).toNat 1024 = false) && decide (((s.core c).gr (fRa w)).toNat % 64 = 0) && decide (ecc = false)) = true)
    ∧ (let s : State := running (word 0x51 1 1 0 0) { g := [(1, 0x2000), (2, 0x3000)], fflags := 2, acc := [(3, 7), (256, 0xFFFFFFFF), (257, 9), (511, 3)], spad := memWrite [] 0x2000 ((List.range 80).map (fun i => BitVec.ofNat 8 (i * 7 + 1))) }; let c : CoreId := 8; let w : Nat := word 0x51 1 1 0 0; let ecc : Bool := true; (Issues s c .tld w) ∧ (decide (bits w 22 3 = 0) && decide (s.spadOut c ((s.core c).gr (fRa w)).toNat 1024 = false) && decide (((s.core c).gr (fRa w)).toNat % 64 = 0) && decide (ecc = true)) = true)
    ∧ (let s : State := running (word 0x51 5 1 0 0) { g := [(1, 0x2000), (2, 0x3000)], fflags := 2, acc := [(3, 7), (256, 0xFFFFFFFF), (257, 9), (511, 3)], spad := memWrite [] 0x2000 ((List.range 80).map (fun i => BitVec.ofNat 8 (i * 7 + 1))) }; let c : CoreId := 8; let w : Nat := word 0x51 5 1 0 0; (Issues s c .tld w) ∧ (decide (bits w 22 3 ≠ 0)) = true)
    ∧ (let s : State := running (word 0x51 1 1 0 0) { g := [(1, 0x2FF00)] }; let c : CoreId := 8; let w : Nat := word 0x51 1 1 0 0; (Issues s c .tld w) ∧ (decide (bits w 22 3 = 0) && decide (s.spadOut c ((s.core c).gr (fRa w)).toNat 1024 = true)) = true)
    ∧ (let s : State := running (word 0x51 1 1 0 0) { g := [(1, 0x2010)] }; let c : CoreId := 8; let w : Nat := word 0x51 1 1 0 0; (Issues s c .tld w) ∧ (decide (bits w 22 3 = 0) && decide (s.spadOut c ((s.core c).gr (fRa w)).toNat 1024 = false) && decide (((s.core c).gr (fRa w)).toNat % 64 ≠ 0)) = true)
    ∧ (let s : State := running (word 0x52 1 2 0 (11 * 64)) { g := [(1, 0x2000), (2, 0x3000)], fflags := 2, acc := [(3, 7), (256, 0xFFFFFFFF), (257, 9), (511, 3)], spad := memWrite [] 0x2000 ((List.range 80).map (fun i => BitVec.ofNat 8 (i * 7 + 1))) }; let c : CoreId := 8; let w : Nat := word 0x52 1 2 0 (11 * 64); let ecc : Bool := false; (Issues s c .tst w) ∧ (decide (bits w 22 3 = 0) && decide (fFmt w = 11) && decide (s.spadOut c ((s.core c).gr (fRa w)).toNat 1024 = false) && decide (((s.core c).gr (fRa w)).toNat % 64 = 0) && decide (s.touchesCode c ((s.core c).gr (fRa w)).toNat 1024 = false) && decide (ecc = false)) = true)
    ∧ (let s : State := running (word 0x52 1 2 0 (1)) { g := [(1, 0x2000), (2, 0x3000)], fflags := 2, acc := [(3, 7), (256, 0xFFFFFFFF), (257, 9), (511, 3)], spad := memWrite [] 0x2000 ((List.range 80).map (fun i => BitVec.ofNat 8 (i * 7 + 1))) }; let c : CoreId := 8; let w : Nat := word 0x52 1 2 0 (1); let ecc : Bool := false; (Issues s c .tst w) ∧ (decide (bits w 22 3 = 0) && decide (fFmt w = 0) && decide (s.spadOut c ((s.core c).gr (fRa w)).toNat 1024 = false) && decide (((s.core c).gr (fRa w)).toNat % 64 = 0) && decide (s.touchesCode c ((s.core c).gr (fRa w)).toNat 1024 = false) && decide (ecc = false)) = true)
    ∧ (let s : State := running (word 0x52 1 2 0 (11 * 64)) { g := [(1, 0x2000), (2, 0x3000)], fflags := 2, acc := [(3, 7), (256, 0xFFFFFFFF), (257, 9), (511, 3)], spad := memWrite [] 0x2000 ((List.range 80).map (fun i => BitVec.ofNat 8 (i * 7 + 1))) }; let c : CoreId := 8; let w : Nat := word 0x52 1 2 0 (11 * 64); let ecc : Bool := true; (Issues s c .tst w) ∧ (decide (bits w 22 3 = 0) && decide (fFmt w = 11) && decide (s.spadOut c ((s.core c).gr (fRa w)).toNat 1024 = false) && decide (((s.core c).gr (fRa w)).toNat % 64 = 0) && decide (s.touchesCode c ((s.core c).gr (fRa w)).toNat 1024 = false) && decide (ecc = true)) = true)
    ∧ (let s : State := running (word 0x52 5 2 0 (11 * 64)) { g := [(1, 0x2000), (2, 0x3000)], fflags := 2, acc := [(3, 7), (256, 0xFFFFFFFF), (257, 9), (511, 3)], spad := memWrite [] 0x2000 ((List.range 80).map (fun i => BitVec.ofNat 8 (i * 7 + 1))) }; let c : CoreId := 8; let w : Nat := word 0x52 5 2 0 (11 * 64); (Issues s c .tst w) ∧ (decide (bits w 22 3 ≠ 0 ∨ fFmt w ∉ [0, 1, 2, 3, 4, 11])) = true)
    ∧ (let s : State := running (word 0x52 1 1 0 (11 * 64)) { g := [(1, 0x2FF00)] }; let c : CoreId := 8; let w : Nat := word 0x52 1 1 0 (11 * 64); (Issues s c .tst w) ∧ (decide (bits w 22 3 = 0) && decide (fFmt w = 11) && decide (s.spadOut c ((s.core c).gr (fRa w)).toNat 1024 = true)) = true)
    ∧ (let s : State := running (word 0x52 1 1 0 (11 * 64)) { g := [(1, 0x2010)] }; let c : CoreId := 8; let w : Nat := word 0x52 1 1 0 (11 * 64); (Issues s c .tst w) ∧ (decide (bits w 22 3 = 0) && decide (fFmt w = 11) && decide (s.spadOut c ((s.core c).gr (fRa w)).toNat 1024 = false) && decide (((s.core c).gr (fRa w)).toNat % 64 ≠ 0)) = true)
    ∧ (let s : State := running (word 0x52 1 1 0 (11 * 64)) { g := [(1, 0x1000)] }; let c : CoreId := 8; let w : Nat := word 0x52 1 1 0 (11 * 64); (Issues s c .tst w) ∧ (decide (bits w 22 3 = 0) && decide (fFmt w = 11) && decide (s.spadOut c ((s.core c).gr (fRa w)).toNat 1024 = false) && decide (((s.core c).gr (fRa w)).toNat % 64 = 0) && decide (s.touchesCode c ((s.core c).gr (fRa w)).toNat 1024 = true)) = true)
    ∧ (let s : State := running (word 0x53 1 1 2 (10 * 64)) { g := [(1, 0x2000), (2, 0x2040)], fflags := 2, acc := [(3, 7), (256, 0xFFFFFFFF), (257, 9), (511, 3)], spad := memWrite [] 0x2000 ((List.range 80).map (fun i => BitVec.ofNat 8 (i * 7 + 1))) }; let c : CoreId := 8; let w : Nat := word 0x53 1 1 2 (10 * 64); let ecc : Bool := false; (Issues s c .tmma w) ∧ (decide (bits w 22 3 = 0) && decide (fFmt w = 10) && decide (s.spadOut c ((s.core c).gr (fRa w)).toNat 512 = false) && decide (((s.core c).gr (fRa w)).toNat % 64 = 0) && decide (s.spadOut c ((s.core c).gr (fRb w)).toNat 512 = false) && decide (((s.core c).gr (fRb w)).toNat % 64 = 0) && decide (ecc = false)) = true ∧ (decide (bits w 22 3 = 0) && decide (1 ≤ fFmt w) && decide (fFmt w ≤ 10) && decide (s.spadOut c ((s.core c).gr (fRa w)).toNat (tileBytes (fFmt w)) = false) && decide (((s.core c).gr (fRa w)).toNat % 64 = 0) && decide (s.spadOut c ((s.core c).gr (fRb w)).toNat (tileBytes (fFmt w)) = false) && decide (((s.core c).gr (fRb w)).toNat % 64 = 0) && decide (ecc = false)) = true)
    ∧ (let s : State := running (word 0x53 1 1 2 (11 * 64)) { g := [(1, 0x2000), (2, 0x3000)], fflags := 2, acc := [(3, 7), (256, 0xFFFFFFFF), (257, 9), (511, 3)], spad := memWrite [] 0x2000 ((List.range 80).map (fun i => BitVec.ofNat 8 (i * 7 + 1))) }; let c : CoreId := 8; let w : Nat := word 0x53 1 1 2 (11 * 64); (Issues s c .tmma w) ∧ (decide (bits w 22 3 ≠ 0 ∨ fFmt w = 0 ∨ 10 < fFmt w)) = true)
    ∧ (let s : State := running (word 0x53 1 1 2 (10 * 64)) { g := [(1, 0x2000), (2, 0x2FFC0)] }; let c : CoreId := 8; let w : Nat := word 0x53 1 1 2 (10 * 64); (Issues s c .tmma w) ∧ (decide (bits w 22 3 = 0) && decide (1 ≤ fFmt w) && decide (fFmt w ≤ 10) && decide (s.spadOut c ((s.core c).gr (fRa w)).toNat (tileBytes (fFmt w)) = false) && decide (((s.core c).gr (fRa w)).toNat % 64 = 0) && decide (s.spadOut c ((s.core c).gr (fRb w)).toNat (tileBytes (fFmt w)) = true)) = true) := by
  refine ⟨?_, ?_, ?_, ?_, ?_, ?_, ?_, ?_, ?_, ?_, ?_, ?_, ?_, ?_, ?_, ?_, ?_⟩ <;> decide +kernel

/-- States and operands that meet the hypotheses of CoreWaits. -/
theorem witness_CoreWaits :
    (let s : State := running (word 0x36 0 1 0 0) (gs 0 0); let c : CoreId := 8; let w : Nat := word 0x36 0 1 0 0; (Issues s c .slotw w) ∧ (decide (((s.core c).gr (fRa w)).toNat ≤ s.slot)) = true)
    ∧ (let s : State := running (word 0x36 0 1 0 0) (gs 1 0); let c : CoreId := 8; let w : Nat := word 0x36 0 1 0 0; (Issues s c .slotw w) ∧ (decide (s.slot < ((s.core c).gr (fRa w)).toNat)) = true)
    ∧ (let s : State := running 0 { wait := some (.slot 0) }; let c : CoreId := 8; ((match (s.core c).wait with | some (.slot n) => decide (s.coreSt c = 2) && decide (s.coreStopped c = false) && decide (n ≤ s.slot) | _ => false)) = true)
    ∧ (let s : State := running 0 { wait := some (.slot 1) }; let c : CoreId := 8; ((match (s.core c).wait with | some (.slot n) => decide (s.slot < n) | _ => false)) = true)
    ∧ (let s : State := running 0 { wait := some (.word 0 0) }; let c : CoreId := 8; ((match (s.core c).wait with | some (.word a v) => true | _ => false)) = true)
    ∧ (let s : State := running 0 { wait := some (.chan 0 0) }; let c : CoreId := 8; ((match (s.core c).wait with | some (.chan i n) => true | _ => false)) = true)
    ∧ (let s : State := ready; let c : CoreId := 8; (decide ((s.core c).wait = none ∨ s.coreSt c ≠ 2 ∨ s.coreStopped c = true)) = true)
    ∧ (let s : State := running (word 0x3A 0 1 2 0) (gs 0x30000 0); let c : CoreId := 8; let w : Nat := word 0x3A 0 1 2 0; (Issues s c .swait w) ∧ (decide (s.spadOut c ((s.core c).gr (fRa w)).toNat 8 = true)) = true)
    ∧ (let s : State := running (word 0x3A 0 1 2 0) (gs 0x2001 0); let c : CoreId := 8; let w : Nat := word 0x3A 0 1 2 0; (Issues s c .swait w) ∧ (decide (s.spadOut c ((s.core c).gr (fRa w)).toNat 8 = false) && decide (((s.core c).gr (fRa w)).toNat % 8 ≠ 0)) = true)
    ∧ (let s : State := running (word 0x3A 0 1 2 0) (gs 0x2000 0); let c : CoreId := 8; let w : Nat := word 0x3A 0 1 2 0; (Issues s c .swait w) ∧ (decide (s.spadOut c ((s.core c).gr (fRa w)).toNat 8 = false) && decide (((s.core c).gr (fRa w)).toNat % 8 = 0) && decide (((s.core c).gr (fRb w)).toNat ≤ leNat (memRead (s.core c).spad ((s.core c).gr (fRa w)).toNat 8))) = true)
    ∧ (let s : State := running (word 0x3A 0 1 2 0) (gs 0x2000 1); let c : CoreId := 8; let w : Nat := word 0x3A 0 1 2 0; (Issues s c .swait w) ∧ (decide (s.spadOut c ((s.core c).gr (fRa w)).toNat 8 = false) && decide (((s.core c).gr (fRa w)).toNat % 8 = 0) && decide (leNat (memRead (s.core c).spad ((s.core c).gr (fRa w)).toNat 8) < ((s.core c).gr (fRb w)).toNat)) = true)
    ∧ (let s : State := running 0 { wait := some (.word 0x2000 0) }; let c : CoreId := 8; ((match (s.core c).wait with | some (.word a v) => decide (s.coreSt c = 2) && decide (s.coreStopped c = false) && decide (v ≤ leNat (memRead (s.core c).spad a 8)) | _ => false)) = true)
    ∧ (let s : State := running 0 { wait := some (.word 0x2000 1) }; let c : CoreId := 8; ((match (s.core c).wait with | some (.word a v) => decide (leNat (memRead (s.core c).spad a 8) < v) | _ => false)) = true)
    ∧ (let s : State := running 0 { wait := some (.slot 0) }; let c : CoreId := 8; ((match (s.core c).wait with | some (.slot n) => true | _ => false)) = true)
    ∧ (let s : State := running 0 { wait := some (.chan 0 0) }; let c : CoreId := 8; ((match (s.core c).wait with | some (.chan i n) => true | _ => false)) = true)
    ∧ (let s : State := ready; let c : CoreId := 8; (decide ((s.core c).wait = none ∨ s.coreSt c ≠ 2 ∨ s.coreStopped c = true)) = true)
    ∧ (let s : State := running (word 0x59 1 0 0 0); let c : CoreId := 8; let w : Nat := word 0x59 1 0 0 0; (Issues s c .dwait w) ∧ (decide ((((s.core c).chans.getD (fRd w % 4) {}).queue.length : Int) ≤ (fImm w).toInt)) = true)
    ∧ (let s : State := running (word 0x59 1 0 0 1) { chans := [(1, { queue := [{ id := 0, desc := [], ev := 0, cid := 0 }, { id := 1, desc := [], ev := 0, cid := 0 }] })] }; let c : CoreId := 8; let w : Nat := word 0x59 1 0 0 1; (Issues s c .dwait w) ∧ (decide ((fImm w).toInt < (((s.core c).chans.getD (fRd w % 4) {}).queue.length : Int))) = true)
    ∧ (let s : State := running 0 { wait := some (.chan 1 0) }; let c : CoreId := 8; ((match (s.core c).wait with | some (.chan i n) => decide (s.coreSt c = 2) && decide (s.coreStopped c = false) && decide (((s.core c).chans.getD i {}).queue.length ≤ n) | _ => false)) = true)
    ∧ (let s : State := running 0 { wait := some (.chan 1 0), chans := [(1, { queue := [{ id := 0, desc := [], ev := 0, cid := 0 }] })] }; let c : CoreId := 8; ((match (s.core c).wait with | some (.chan i n) => decide (n < ((s.core c).chans.getD i {}).queue.length) | _ => false)) = true)
    ∧ (let s : State := running 0 { wait := some (.slot 0) }; let c : CoreId := 8; ((match (s.core c).wait with | some (.slot n) => true | _ => false)) = true)
    ∧ (let s : State := running 0 { wait := some (.word 0 0) }; let c : CoreId := 8; ((match (s.core c).wait with | some (.word a v) => true | _ => false)) = true)
    ∧ (let s : State := ready; let c : CoreId := 8; (decide ((s.core c).wait = none ∨ s.coreSt c ≠ 2 ∨ s.coreStopped c = true)) = true) := by
  refine ⟨?_, ?_, ?_, ?_, ?_, ?_, ?_, ?_, ?_, ?_, ?_, ?_, ?_, ?_, ?_, ?_, ?_, ?_, ?_, ?_, ?_, ?_, ?_⟩ <;> decide +kernel

/-- States and operands that meet the hypotheses of CoreEventsAndHalts. -/
theorem witness_CoreEventsAndHalts :
    (let s : State := ready; let c : CoreId := 8; (decide ((s.coreSt c ≠ 1 ∧ s.coreSt c ≠ 2) ∨ (s.core c).cur.isSome = true ∨ s.coreStopped c = true ∨ (s.core c).haltFreeze = true ∨ (s.core c).haltDebug = true ∨ (s.core c).events = [])) = true)
    ∧ (let s : State := (ready.put (Reg.CLUSTER_CORE_STS.STATE 0 8) 1).setCore 8 { events := [{ kind := 2, v31 := [1, 2], g2 := 77 }], entries := [0, 0, 0x80000040] }; let c : CoreId := 8; let ev : CoreEv := { kind := 2, v31 := [1, 2], g2 := 77 }; let rest : List CoreEv := []; ((s.coreSt c = 1 ∨ s.coreSt c = 2) ∧ (s.core c).cur = none ∧ s.coreStopped c = false ∧ (s.core c).events = ev :: rest) ∧ ((s.core c).haltFreeze = false ∧ (s.core c).haltDebug = false ∧ (s.core c).preload = false ∧ s.inP2 = false ∧ (s.gated (c / 64) = false ∨ c % 64 < 8)) ∧ (ev.kind = 1 → s.stageCore c = true → s.frameRoom c = true) ∧ (decide (ev.kind ≠ 1)) = true ∧ (decide (rest.length < 32)) = true)
    ∧ (let s : State := (ready.put (Reg.CLUSTER_CORE_STS.STATE 0 8) 1).setCore 8 { events := [{ kind := 1, v31 := [1, 2], g2 := 77 }], entries := [0, 0x80000040] }; let c : CoreId := 8; let ev : CoreEv := { kind := 1, v31 := [1, 2], g2 := 77 }; let rest : List CoreEv := []; ((s.coreSt c = 1 ∨ s.coreSt c = 2) ∧ (s.core c).cur = none ∧ s.coreStopped c = false ∧ (s.core c).events = ev :: rest) ∧ ((s.core c).haltFreeze = false ∧ (s.core c).haltDebug = false ∧ (s.core c).preload = false ∧ s.inP2 = false ∧ (s.gated (c / 64) = false ∨ c % 64 < 8)) ∧ (ev.kind = 1 → s.stageCore c = true → s.frameRoom c = true) ∧ (decide (ev.kind = 1)) = true)
    ∧ (let s : State := (running (word 0x33 0 0 0 0)).modCore 8 (fun k => { k with cmplDone := true }); let c : CoreId := 8; let w : Nat := word 0x33 0 0 0 0; let ev : CoreEv := { kind := 0, v31 := [], queue := 3, pos := 0 }; (Issues s c .end_ w ∧ (s.core c).cur = some ev ∧ (ev.kind ≠ 0 ∨ (s.core c).cmplDone = true)) ∧ (decide ((s.core c).events = [])) = true)
    ∧ (let s : State := (running (word 0x33 0 0 0 0)).modCore 8 (fun k => { k with cmplDone := true, events := [{ kind := 2, v31 := [] }] }); let c : CoreId := 8; let w : Nat := word 0x33 0 0 0 0; let ev : CoreEv := { kind := 0, v31 := [], queue := 3, pos := 0 }; (Issues s c .end_ w ∧ (s.core c).cur = some ev ∧ (ev.kind ≠ 0 ∨ (s.core c).cmplDone = true)) ∧ (decide ((s.core c).events ≠ [])) = true)
    ∧ (let s : State := running (word 0x33 0 0 0 0); let c : CoreId := 8; let w : Nat := word 0x33 0 0 0 0; let ev : CoreEv := { kind := 0, v31 := [], queue := 3, pos := 0 }; let u : State := ((running (word 0x33 0 0 0 0)).setCore 8 { ((running (word 0x33 0 0 0 0)).core 8).next with cur := none }); (Issues s c .end_ w ∧ (s.core c).cur = some ev ∧ ev.kind = 0 ∧ (s.core c).cmplDone = false) ∧ (u = (s.setCore c { (s.core c).next with cur := none, handler := false, hadExc := false, cmplDone := false, wait := none }).endEntry ev.queue ev.pos (if (s.core c).hadExc then 1 else 0)) ∧ (decide ((u.core c).events = [])) = true)
    ∧ (let s : State := (running (word 0x33 0 0 0 0)).modCore 8 (fun k => { k with events := [{ kind := 2, v31 := [] }] }); let c : CoreId := 8; let w : Nat := word 0x33 0 0 0 0; let ev : CoreEv := { kind := 0, v31 := [], queue := 3, pos := 0 }; let u : State := (((running (word 0x33 0 0 0 0)).modCore 8 (fun k => { k with events := [{ kind := 2, v31 := [] }] })).setCore 8 { (((running (word 0x33 0 0 0 0)).modCore 8 (fun k => { k with events := [{ kind := 2, v31 := [] }] })).core 8).next with cur := none }); (Issues s c .end_ w ∧ (s.core c).cur = some ev ∧ ev.kind = 0 ∧ (s.core c).cmplDone = false) ∧ (u = (s.setCore c { (s.core c).next with cur := none, handler := false, hadExc := false, cmplDone := false, wait := none }).endEntry ev.queue ev.pos (if (s.core c).hadExc then 1 else 0)) ∧ (decide ((u.core c).events ≠ [])) = true)
    ∧ (let s : State := running (word 0x34 0 1 0 0) (gs 0x700000003 0); let c : CoreId := 8; let w : Nat := word 0x34 0 1 0 0; let ev : CoreEv := { kind := 0, v31 := [], queue := 3, pos := 0 }; (Issues s c .cmpl w ∧ (s.core c).cur = some ev ∧ (s.core c).cmpls = []) ∧ (decide (ev.kind = 0) && decide ((s.core c).handler = false) && decide ((s.core c).cmplDone = false) && decide ((s.core c).outstanding ev.id = false)) = true)
    ∧ (let s : State := running (word 0x34 0 1 0 0) { chans := [(1, { queue := [{ id := 0, desc := [], ev := 0, cid := 0 }] })] }; let c : CoreId := 8; let w : Nat := word 0x34 0 1 0 0; let ev : CoreEv := { kind := 0, v31 := [], queue := 3, pos := 0 }; (Issues s c .cmpl w ∧ (s.core c).cur = some ev ∧ (s.core c).cmpls = []) ∧ (decide (ev.kind = 0) && decide ((s.core c).handler = false) && decide ((s.core c).cmplDone = false) && decide ((s.core c).outstanding ev.id = true)) = true)
    ∧ (let s : State := (running (word 0x34 0 1 0 0)).modCore 8 (fun k => { k with cmplDone := true }); let c : CoreId := 8; let w : Nat := word 0x34 0 1 0 0; let ev : CoreEv := { kind := 0, v31 := [], queue := 3, pos := 0 }; (Issues s c .cmpl w ∧ (s.core c).cur = some ev ∧ (s.core c).cmpls = []) ∧ (decide (ev.kind ≠ 0 ∨ (s.core c).handler = true ∨ (s.core c).cmplDone = true)) = true)
    ∧ (let s : State := running (word 0x38 3 1 2 0) (gs 9 0); let c : CoreId := 8; let w : Nat := word 0x38 3 1 2 0; (Issues s c .msg w) ∧ (decide (s.msgTargetOk c (((s.core c).gr (fRa w)).toNat % 4096) = false)) = true)
    ∧ (let s : State := (running (word 0x38 3 1 2 0) (gs 9 0)).put (Reg.PART_CORES_LO.CORES 1 0) 0xFF00; let c : CoreId := 8; let w : Nat := word 0x38 3 1 2 0; (Issues s c .msg w) ∧ (decide (s.msgTargetOk c (((s.core c).gr (fRa w)).toNat % 4096) = true) && decide ((s.cluster (c / 64)).msgs.length < 16)) = true)
    ∧ (let s : State := ((running (word 0x38 3 1 2 0) (gs 9 0)).put (Reg.PART_CORES_LO.CORES 1 0) 0xFF00).setCluster 0 { msgs := List.replicate 16 { target := 0, sender := 0, cid := 0, bytes := [] } }; let c : CoreId := 8; let w : Nat := word 0x38 3 1 2 0; (Issues s c .msg w) ∧ (decide (s.msgTargetOk c (((s.core c).gr (fRa w)).toNat % 4096) = true) && decide (16 ≤ (s.cluster (c / 64)).msgs.length)) = true)
    ∧ (let s : State := ready; let k : ClusterId := 0; (decide ((s.cluster k).msgs = [])) = true)
    ∧ (let s : State := (running 0).setCluster 1 { msgs := [{ target := 8, sender := 9, cid := 0x3FF, bytes := [1] }] }; let k : ClusterId := 1; let m : CoreMsg := { target := 8, sender := 9, cid := 0x3FF, bytes := [1] }; let ms : List CoreMsg := []; ((s.cluster k).msgs = m :: ms) ∧ (decide (s.coreStopped m.target = false) && decide (s.coreSt m.target = 1 ∨ s.coreSt m.target = 2 ∨ s.coreSt m.target = 4) && decide (s.stageCore m.target = false) && decide ((s.core m.target).events.length < 16)) = true)
    ∧ (let s : State := ready.setCluster 1 { msgs := [{ target := 8, sender := 9, cid := 0x3FF, bytes := [1] }] }; let k : ClusterId := 1; let m : CoreMsg := { target := 8, sender := 9, cid := 0x3FF, bytes := [1] }; let ms : List CoreMsg := []; ((s.cluster k).msgs = m :: ms) ∧ (decide (s.coreStopped m.target = false) && decide (s.coreSt m.target = 0 ∨ s.coreSt m.target = 3 ∨ s.coreSt m.target = 5 ∨ s.stageCore m.target = true ∨ 16 ≤ (s.core m.target).events.length)) = true)
    ∧ (let s : State := (ready.put (Reg.CLUSTER_LMAP.VACANT 0 8) 1).setCluster 1 { msgs := [{ target := 8, sender := 9, cid := 0x3FF, bytes := [1] }] }; let k : ClusterId := 1; let m : CoreMsg := { target := 8, sender := 9, cid := 0x3FF, bytes := [1] }; let ms : List CoreMsg := []; ((s.cluster k).msgs = m :: ms) ∧ (decide (s.coreStopped m.target = true)) = true)
    ∧ (let s : State := ready; let n : BitVec 20 := 3; (s.toIssue? n.toNat 0x11 = none))
    ∧ (let s : State := invoking 0 none; let n : BitVec 20 := 3; let q : Queue := invokeQueue 0; let l : Live := invokeLive 0; (s.toIssue? n.toNat 0x11 = some (q, l)) ∧ (decide (isCollective (leAt l.bytes 28 4) = false) && decide (s.handles.at? (leAt l.bytes 28 4) = none)) = true)
    ∧ (let s : State := invoking 0x3FFFF00 none; let n : BitVec 20 := 3; let q : Queue := invokeQueue 0x3FFFF00; let l : Live := invokeLive 0x3FFFF00; (s.toIssue? n.toNat 0x11 = some (q, l)) ∧ (decide (isCollective (leAt l.bytes 28 4) = true) && decide (leAt l.bytes 28 4 = cidPart q.cid * 2 ^ 26 + 0x3FFFF00) && decide ((s.homeCore? n.toNat).isNone = true)) = true)
    ∧ (let s : State := (invoking 0x3FFFF00 none).put (Reg.CLUSTER_CORE_STS.STATE 3 0) 1; let n : BitVec 20 := 3; let q : Queue := invokeQueue 0x3FFFF00; let l : Live := invokeLive 0x3FFFF00; (s.toIssue? n.toNat 0x11 = some (q, l)) ∧ (decide (isCollective (leAt l.bytes 28 4) = true) && decide (leAt l.bytes 28 4 = cidPart q.cid * 2 ^ 26 + 0x3FFFF00) && decide ((s.homeCore? n.toNat).isSome = true)) = true)
    ∧ (let s : State := (invoking 5 (some { part := 0, digest := [], image := [], dispatch := some 8 })).put (Reg.CLUSTER_LMAP.FENCED 0 8) 1; let n : BitVec 20 := 3; let q : Queue := invokeQueue 5; let l : Live := invokeLive 5; (s.toIssue? n.toNat 0x11 = some (q, l)) ∧ (decide (isCollective (leAt l.bytes 28 4) = false) && (match s.handles.at? (leAt l.bytes 28 4) with | some x => decide (x.part = cidPart q.cid) && (match x.dispatch with | some c => decide (s.stageCore c = false) && decide (s.coreSt c ≠ 3) && decide (s.coreStopped c = true) | _ => false) | _ => false)) = true)
    ∧ (let s : State := invoking 0x43FFFF00 none; let n : BitVec 20 := 3; let q : Queue := invokeQueue 0x43FFFF00; let l : Live := invokeLive 0x43FFFF00; (s.toIssue? n.toNat 0x11 = some (q, l)) ∧ (decide (isCollective (leAt l.bytes 28 4) = true) && decide (leAt l.bytes 28 4 ≠ cidPart q.cid * 2 ^ 26 + 0x3FFFF00)) = true)
    ∧ (let s : State := invoking 5 (some { part := 0, digest := [], image := [], dispatch := some 8 }); let n : BitVec 20 := 3; let q : Queue := invokeQueue 5; let l : Live := invokeLive 5; (s.toIssue? n.toNat 0x11 = some (q, l)) ∧ (decide (isCollective (leAt l.bytes 28 4) = false) && (match s.handles.at? (leAt l.bytes 28 4) with | some x => decide (x.part = cidPart q.cid) && (match x.dispatch with | some c => decide (s.stageCore c = false) && decide (s.coreSt c ≠ 3) && decide (s.coreStopped c = false) && decide ((s.core c).events.length < 16) | _ => false) | _ => false)) = true)
    ∧ (let s : State := invoking 5 (some { part := 0, digest := [], image := [] }); let n : BitVec 20 := 3; let q : Queue := invokeQueue 5; let l : Live := invokeLive 5; (s.toIssue? n.toNat 0x11 = some (q, l)) ∧ (decide (isCollective (leAt l.bytes 28 4) = false) && (match s.handles.at? (leAt l.bytes 28 4) with | some x => decide (x.part ≠ cidPart q.cid ∨ x.dispatch = none) | _ => false)) = true)
    ∧ (let s : State := (invoking 5 (some { part := 0, digest := [], image := [], dispatch := some 8 })).put (Reg.CLUSTER_CORE_STS.STATE 0 8) 3; let n : BitVec 20 := 3; let q : Queue := invokeQueue 5; let l : Live := invokeLive 5; (s.toIssue? n.toNat 0x11 = some (q, l)) ∧ (decide (isCollective (leAt l.bytes 28 4) = false) && (match s.handles.at? (leAt l.bytes 28 4) with | some x => decide (x.part = cidPart q.cid) && (match x.dispatch with | some c => decide (s.stageCore c = false) && decide (s.coreSt c = 3) | _ => false) | _ => false)) = true)
    ∧ (let s : State := (invoking 5 (some { part := 0, digest := [], image := [], dispatch := some 8 })).setCore 8 { events := List.replicate 16 { kind := 2, v31 := [] } }; let n : BitVec 20 := 3; let q : Queue := invokeQueue 5; let l : Live := invokeLive 5; (s.toIssue? n.toNat 0x11 = some (q, l)) ∧ (decide (isCollective (leAt l.bytes 28 4) = false) && (match s.handles.at? (leAt l.bytes 28 4) with | some x => decide (x.part = cidPart q.cid) && (match x.dispatch with | some c => decide (s.stageCore c = false) && decide (s.coreSt c ≠ 3) && decide (16 ≤ (s.core c).events.length) | _ => false) | _ => false)) = true)
    ∧ (let s : State := { ((invoking 5 (some { part := 0, digest := [], image := [], dispatch := some 8 })).put (Reg.PART_CORES_LO.CORES 0 0) 0xFF00) with sched := { act := [(0, { emptyImage with paths := [{ path0 with stage := 8, stageValid := true }] })] } }; let n : BitVec 20 := 3; let q : Queue := invokeQueue 5; let l : Live := invokeLive 5; (s.toIssue? n.toNat 0x11 = some (q, l)) ∧ (decide (isCollective (leAt l.bytes 28 4) = false) && (match s.handles.at? (leAt l.bytes 28 4) with | some x => decide (x.part = cidPart q.cid) && (match x.dispatch with | some c => decide (s.stageCore c = true) | _ => false) | _ => false)) = true)
    ∧ (let s : State := ready; let c : CoreId := 8; (decide ((s.core c).limit = 0 ∨ s.time.cycles - (s.core c).cycle0 < (s.core c).limit ∨ s.coreSt c ≠ 2 ∨ (s.core c).cur = none ∨ s.coreStopped c = true)) = true)
    ∧ (let s : State := (running 0 { limit := 5, entries := [0, 0, 0, 0x80000040] }) |> fun x => { x with time := { x.time with cycles := 5 } }; let c : CoreId := 8; (decide ((s.core c).limit ≠ 0) && decide ((s.core c).limit ≤ s.time.cycles - (s.core c).cycle0) && decide (s.coreSt c = 2) && decide ((s.core c).cur ≠ none) && decide (s.coreStopped c = false)) = true ∧ (decide ((s.core c).limit ≠ 0) && decide ((s.core c).limit ≤ s.time.cycles - (s.core c).cycle0) && decide (s.coreSt c = 2) && decide ((s.core c).cur ≠ none) && decide (s.coreStopped c = false) && decide ((s.core c).hasEntry 3 = true) && decide ((s.core c).handler = false)) = true)
    ∧ (let s : State := running (word 0x35 0 0 0 0); let c : CoreId := 8; let w : Nat := word 0x35 0 0 0 0; (Issues s c .brk w) ∧ (decide (s.get Reg.SEC_DBG.LEVEL ≠ 2)) = true)
    ∧ (let s : State := (running (word 0x35 0 0 0 0)).put Reg.SEC_DBG.LEVEL 2; let c : CoreId := 8; let w : Nat := word 0x35 0 0 0 0; (Issues s c .brk w) ∧ (decide (s.get Reg.SEC_DBG.LEVEL = 2) && decide (s.coreSt c = 1 ∨ s.coreSt c = 2) && decide ((s.core c).drained = true)) = true)
    ∧ (let s : State := (running (word 0x35 0 0 0 0) { chans := [(1, { queue := [{ id := 0, desc := [], ev := 0, cid := 0 }] })] }).put Reg.SEC_DBG.LEVEL 2; let c : CoreId := 8; let w : Nat := word 0x35 0 0 0 0; (Issues s c .brk w) ∧ (decide (s.get Reg.SEC_DBG.LEVEL = 2) && decide ((s.core c).drained = false)) = true)
    ∧ (let s : State := ready; let c : CoreId := 8; (decide (s.get Reg.SEC_DBG.LEVEL ≠ 2 ∨ (s.coreSt c ≠ 1 ∧ s.coreSt c ≠ 2))) = true)
    ∧ (let s : State := (running 0).put Reg.SEC_DBG.LEVEL 2; let c : CoreId := 8; (decide (s.get Reg.SEC_DBG.LEVEL = 2) && decide (s.coreSt c = 1 ∨ s.coreSt c = 2) && decide ((s.core c).drained = true)) = true)
    ∧ (let s : State := (running 0 { chans := [(1, { queue := [{ id := 0, desc := [], ev := 0, cid := 0 }] })] }).put Reg.SEC_DBG.LEVEL 2; let c : CoreId := 8; (decide (s.get Reg.SEC_DBG.LEVEL = 2) && decide (s.coreSt c = 1 ∨ s.coreSt c = 2) && decide ((s.core c).drained = false)) = true)
    ∧ (let s : State := ready; (decide (s.get Reg.SEC_DBG.LEVEL ≠ 2)) = true)
    ∧ (let s : State := ((ready.put Reg.SEC_DBG.LEVEL 2).put (Reg.CLUSTER_CORE_STS.STATE 0 8) 4).setCore 8 { prior := 1, haltDebug := true }; let c : CoreId := 8; (decide (s.get Reg.SEC_DBG.LEVEL = 2) && decide (s.coreSt c = 4) && decide ((s.core c).haltFreeze = false) && decide ((s.core c).prior < 8)) = true)
    ∧ (let s : State := ready.put Reg.SEC_DBG.LEVEL 2; let c : CoreId := 8; (decide (s.get Reg.SEC_DBG.LEVEL = 2) && decide (s.coreSt c ≠ 4 ∨ (s.core c).haltFreeze = true)) = true) := by
  refine ⟨?_, ?_, ?_, ?_, ?_, ?_, ?_, ?_, ?_, ?_, ?_, ?_, ?_, ?_, ?_, ?_, ?_, ?_, ?_, ?_, ?_, ?_, ?_, ?_, ?_, ?_, ?_, ?_, ?_, ?_, ?_, ?_, ?_, ?_, ?_, ?_, ?_, ?_, ?_⟩ <;> decide +kernel

/-- States and operands that meet the hypotheses of EntriesStart. -/
theorem witness_EntriesStart :
    (let s : State := ready; let n : BitVec 20 := 3; (decide (s.queue? n.toNat = none)) = true)
    ∧ (let s : State := { ready with queues := [(3, {})] }; let n : BitVec 20 := 3; ((match s.queue? n.toNat with | some q => decide (q.cached.find? (fun c => c.1 == q.next) = none) && decide (q.bypass? = none) | _ => false)) = true)
    ∧ (let s : State := { heading 0 0 0 with queues := [(3, { headQueue 0 0 0 with stopped := true })] }; let n : BitVec 20 := 3; let seen : Seen := []; ((match s.queue? n.toNat with | some q => (match q.cached.find? (fun c => c.1 == q.next) with | some (pos, k, e) => decide ((s.see seen).mayStart n.toNat q (leAt e 0 1) = false) && decide (q.bypass? = none) | _ => false) | _ => false)) = true)
    ∧ (let s : State := { (heading 8 0 0) with queues := [(3, { headQueue 8 0 0 with live := [{ pos := 15, bytes := [] }] })] }; let n : BitVec 20 := 3; let seen : Seen := []; let q : Queue := { headQueue 8 0 0 with live := [{ pos := 15, bytes := [] }] }; let pos : Nat := 0; let k : Nat := 0; let e : List Byte := headEntry 8 0 0; (s.queue? n.toNat = some q ∧ q.cached.find? (fun c => c.1 == q.next) = some (pos, k, e)) ∧ ((s.see seen).mayStart n.toNat q (leAt e 0 1) = true ∧ q.aborted.contains pos = false ∧ k < 4 ∧ q.fresh pos e = true) ∧ ((actsOnQp (leAt e 0 1) && inError ((s.see seen).qpOfQueue? n.toNat)) = false) ∧ (decide (entFence e = true) && decide (q.live.isEmpty = false)) = true)
    ∧ (let s : State := heading 768 0 0; let n : BitVec 20 := 3; let seen : Seen := []; let q : Queue := headQueue 768 0 0; let pos : Nat := 0; let k : Nat := 0; let e : List Byte := headEntry 768 0 0; (s.queue? n.toNat = some q ∧ q.cached.find? (fun c => c.1 == q.next) = some (pos, k, e)) ∧ ((s.see seen).mayStart n.toNat q (leAt e 0 1) = true ∧ q.aborted.contains pos = false ∧ k < 4 ∧ q.fresh pos e = true) ∧ ((actsOnQp (leAt e 0 1) && inError ((s.see seen).qpOfQueue? n.toNat)) = false) ∧ (decide (entFence e = false ∨ q.live.isEmpty = true) && decide (entMalformed q.type (((s.see seen).qpOfQueue? n.toNat).map (·.ctx)) e = true)) = true)
    ∧ (let s : State := heading 32 99 0; let n : BitVec 20 := 3; let seen : Seen := []; let q : Queue := headQueue 32 99 0; let pos : Nat := 0; let k : Nat := 0; let e : List Byte := headEntry 32 99 0; (s.queue? n.toNat = some q ∧ q.cached.find? (fun c => c.1 == q.next) = some (pos, k, e)) ∧ ((s.see seen).mayStart n.toNat q (leAt e 0 1) = true ∧ q.aborted.contains pos = false ∧ k < 4 ∧ q.fresh pos e = true) ∧ ((actsOnQp (leAt e 0 1) && inError ((s.see seen).qpOfQueue? n.toNat)) = false) ∧ (decide (entFence e = false ∨ q.live.isEmpty = true) && decide (entMalformed q.type (((s.see seen).qpOfQueue? n.toNat).map (·.ctx)) e = false) && decide ((s.see seen).trigReady (cidPart q.cid) e = none)) = true)
    ∧ (let s : State := heading 32 0 5; let n : BitVec 20 := 3; let seen : Seen := []; let q : Queue := headQueue 32 0 5; let pos : Nat := 0; let k : Nat := 0; let e : List Byte := headEntry 32 0 5; (s.queue? n.toNat = some q ∧ q.cached.find? (fun c => c.1 == q.next) = some (pos, k, e)) ∧ ((s.see seen).mayStart n.toNat q (leAt e 0 1) = true ∧ q.aborted.contains pos = false ∧ k < 4 ∧ q.fresh pos e = true) ∧ ((actsOnQp (leAt e 0 1) && inError ((s.see seen).qpOfQueue? n.toNat)) = false) ∧ (decide (entFence e = false ∨ q.live.isEmpty = true) && decide (entMalformed q.type (((s.see seen).qpOfQueue? n.toNat).map (·.ctx)) e = false) && decide ((s.see seen).trigReady (cidPart q.cid) e = some false)) = true)
    ∧ (let s : State := heading 0 0 0; let v : State := heading 0 0 0; let n : BitVec 20 := 3; let seen : Seen := []; let q : Queue := headQueue 0 0 0; let pos : Nat := 0; let k : Nat := 0; let e : List Byte := headEntry 0 0 0; (s.queue? n.toNat = some q ∧ q.cached.find? (fun c => c.1 == q.next) = some (pos, k, e)) ∧ ((s.see seen).mayStart n.toNat q (leAt e 0 1) = true ∧ q.aborted.contains pos = false ∧ k < 4 ∧ q.fresh pos e = true) ∧ ((actsOnQp (leAt e 0 1) && inError ((s.see seen).qpOfQueue? n.toNat)) = false) ∧ ((entFence e = false ∨ q.live.isEmpty = true) ∧ entMalformed q.type (((s.see seen).qpOfQueue? n.toNat).map (·.ctx)) e = false) ∧ ((s.see seen).trigReady (cidPart q.cid) e = some true ∧ actsOnQp (leAt e 0 1) = false ∧ leAt e 0 1 ≠ 0x40) ∧ ((s.see seen).tablesOk q.cid e = (v, none)) ∧ (decide (pos = q.next) && decide (q.early = [])) = true)
    ∧ (let s : State := ready; let n : BitVec 20 := 3; (decide (s.headTriggered n.toNat = false)) = true)
    ∧ (let s : State := heading 32 0 0; let n : BitVec 20 := 3; (decide (s.headTriggered n.toNat = true)) = true)
    ∧ (let s : State := { (heading 40 0 0) with queues := [(3, { headQueue 40 0 0 with live := [{ pos := 15, bytes := [] }] })] }; let n : BitVec 20 := 3; let seen : Seen := []; let q : Queue := { headQueue 40 0 0 with live := [{ pos := 15, bytes := [] }] }; let pos : Nat := 0; let k : Nat := 0; let e : List Byte := headEntry 40 0 0; (s.headTriggered n.toNat = true) ∧ (s.queue? n.toNat = some q ∧ q.cached.find? (fun c => c.1 == q.next) = some (pos, k, e)) ∧ ((s.see seen).mayStart n.toNat q (leAt e 0 1) = true ∧ q.aborted.contains pos = false ∧ k < 4 ∧ q.fresh pos e = true) ∧ ((actsOnQp (leAt e 0 1) && inError ((s.see seen).qpOfQueue? n.toNat)) = false) ∧ (decide (entFence e = true) && decide (q.live.isEmpty = false)) = true)
    ∧ (let s : State := heading 800 0 0; let n : BitVec 20 := 3; let seen : Seen := []; let q : Queue := headQueue 800 0 0; let pos : Nat := 0; let k : Nat := 0; let e : List Byte := headEntry 800 0 0; (s.headTriggered n.toNat = true) ∧ (s.queue? n.toNat = some q ∧ q.cached.find? (fun c => c.1 == q.next) = some (pos, k, e)) ∧ ((s.see seen).mayStart n.toNat q (leAt e 0 1) = true ∧ q.aborted.contains pos = false ∧ k < 4 ∧ q.fresh pos e = true) ∧ ((actsOnQp (leAt e 0 1) && inError ((s.see seen).qpOfQueue? n.toNat)) = false) ∧ (decide (entFence e = false ∨ q.live.isEmpty = true) && decide (entMalformed q.type (((s.see seen).qpOfQueue? n.toNat).map (·.ctx)) e = true)) = true)
    ∧ (let s : State := heading 32 99 0; let n : BitVec 20 := 3; let seen : Seen := []; let q : Queue := headQueue 32 99 0; let pos : Nat := 0; let k : Nat := 0; let e : List Byte := headEntry 32 99 0; (s.headTriggered n.toNat = true) ∧ (s.queue? n.toNat = some q ∧ q.cached.find? (fun c => c.1 == q.next) = some (pos, k, e)) ∧ ((s.see seen).mayStart n.toNat q (leAt e 0 1) = true ∧ q.aborted.contains pos = false ∧ k < 4 ∧ q.fresh pos e = true) ∧ ((actsOnQp (leAt e 0 1) && inError ((s.see seen).qpOfQueue? n.toNat)) = false) ∧ (decide (entFence e = false ∨ q.live.isEmpty = true) && decide (entMalformed q.type (((s.see seen).qpOfQueue? n.toNat).map (·.ctx)) e = false) && decide ((s.see seen).trigReady (cidPart q.cid) e = none)) = true)
    ∧ (let s : State := heading 32 0 5; let n : BitVec 20 := 3; let seen : Seen := []; let q : Queue := headQueue 32 0 5; let pos : Nat := 0; let k : Nat := 0; let e : List Byte := headEntry 32 0 5; (s.headTriggered n.toNat = true) ∧ (s.queue? n.toNat = some q ∧ q.cached.find? (fun c => c.1 == q.next) = some (pos, k, e)) ∧ ((s.see seen).mayStart n.toNat q (leAt e 0 1) = true ∧ q.aborted.contains pos = false ∧ k < 4 ∧ q.fresh pos e = true) ∧ ((actsOnQp (leAt e 0 1) && inError ((s.see seen).qpOfQueue? n.toNat)) = false) ∧ (decide (entFence e = false ∨ q.live.isEmpty = true) && decide (entMalformed q.type (((s.see seen).qpOfQueue? n.toNat).map (·.ctx)) e = false) && decide ((s.see seen).trigReady (cidPart q.cid) e = some false)) = true)
    ∧ (let s : State := heading 32 0 0; let v : State := heading 32 0 0; let n : BitVec 20 := 3; let seen : Seen := []; let q : Queue := headQueue 32 0 0; let pos : Nat := 0; let k : Nat := 0; let e : List Byte := headEntry 32 0 0; (s.headTriggered n.toNat = true) ∧ (s.queue? n.toNat = some q ∧ q.cached.find? (fun c => c.1 == q.next) = some (pos, k, e)) ∧ ((s.see seen).mayStart n.toNat q (leAt e 0 1) = true ∧ q.aborted.contains pos = false ∧ k < 4 ∧ q.fresh pos e = true) ∧ ((actsOnQp (leAt e 0 1) && inError ((s.see seen).qpOfQueue? n.toNat)) = false) ∧ ((entFence e = false ∨ q.live.isEmpty = true) ∧ entMalformed q.type (((s.see seen).qpOfQueue? n.toNat).map (·.ctx)) e = false) ∧ ((s.see seen).trigReady (cidPart q.cid) e = some true ∧ actsOnQp (leAt e 0 1) = false ∧ leAt e 0 1 ≠ 0x40) ∧ ((s.see seen).tablesOk q.cid e = (v, none)) ∧ (decide (pos = q.next) && decide (q.early = [])) = true)
    ∧ (let s : State := { heading 0 0 0 with queues := [(3, { headQueue 0 0 0 with aborted := [0] })] }; let n : BitVec 20 := 3; let seen : Seen := []; let q : Queue := { headQueue 0 0 0 with aborted := [0] }; let pos : Nat := 0; let k : Nat := 0; let e : List Byte := headEntry 0 0 0; (s.queue? n.toNat = some q ∧ q.cached.find? (fun c => c.1 == q.next) = some (pos, k, e) ∧ (s.see seen).mayStart n.toNat q (leAt e 0 1) = true) ∧ (decide (q.aborted.contains pos = true)) = true)
    ∧ (let s : State := { heading 0 0 0 with queues := [(3, { headQueue 0 0 0 with cached := [(0, 0, [1, 1] ++ (headEntry 0 0 0).drop 2)] })], qps := [(5, { ctx := { qpn := 5, sq := 3, state := 6 }, place := .resident 0 })] }; let n : BitVec 20 := 3; let seen : Seen := []; let q : Queue := { headQueue 0 0 0 with cached := [(0, 0, [1, 1] ++ (headEntry 0 0 0).drop 2)] }; let pos : Nat := 0; let k : Nat := 0; let e : List Byte := [1, 1] ++ (headEntry 0 0 0).drop 2; (s.queue? n.toNat = some q ∧ q.cached.find? (fun c => c.1 == q.next) = some (pos, k, e) ∧ (s.see seen).mayStart n.toNat q (leAt e 0 1) = true) ∧ (decide (q.aborted.contains pos = false) && decide (k < 4) && decide (q.fresh pos e = true) && decide ((actsOnQp (leAt e 0 1) && inError ((s.see seen).qpOfQueue? n.toNat)) = true)) = true)
    ∧ (let s : State := { heading 0 0 0 with queues := [(3, { headQueue 0 0 0 with cached := [(0, 4, [0, 7] ++ (headEntry 0 0 0).drop 2)] })] }; let n : BitVec 20 := 3; let seen : Seen := []; let q : Queue := { headQueue 0 0 0 with cached := [(0, 4, [0, 7] ++ (headEntry 0 0 0).drop 2)] }; let pos : Nat := 0; let k : Nat := 4; let e : List Byte := [0, 7] ++ (headEntry 0 0 0).drop 2; (s.queue? n.toNat = some q ∧ q.cached.find? (fun c => c.1 == q.next) = some (pos, k, e) ∧ (s.see seen).mayStart n.toNat q (leAt e 0 1) = true) ∧ (decide (q.aborted.contains pos = false) && decide (k = 4) && decide (q.fresh pos e = false)) = true)
    ∧ (let s : State := { heading 0 0 0 with queues := [(3, { headQueue 0 0 0 with cached := [(0, 1, [0, 7] ++ (headEntry 0 0 0).drop 2)] })] }; let n : BitVec 20 := 3; let seen : Seen := []; let q : Queue := { headQueue 0 0 0 with cached := [(0, 1, [0, 7] ++ (headEntry 0 0 0).drop 2)] }; let pos : Nat := 0; let k : Nat := 1; let e : List Byte := [0, 7] ++ (headEntry 0 0 0).drop 2; (s.queue? n.toNat = some q ∧ q.cached.find? (fun c => c.1 == q.next) = some (pos, k, e) ∧ (s.see seen).mayStart n.toNat q (leAt e 0 1) = true) ∧ (decide (q.aborted.contains pos = false) && decide (k < 4) && decide (q.fresh pos e = false)) = true)
    ∧ (let s : State := { heading 32 0 0 with queues := [(3, { headQueue 32 0 0 with aborted := [0] })] }; let n : BitVec 20 := 3; let seen : Seen := []; let q : Queue := { headQueue 32 0 0 with aborted := [0] }; let pos : Nat := 0; let k : Nat := 0; let e : List Byte := headEntry 32 0 0; (s.headTriggered n.toNat = true) ∧ (s.queue? n.toNat = some q ∧ q.cached.find? (fun c => c.1 == q.next) = some (pos, k, e) ∧ (s.see seen).mayStart n.toNat q (leAt e 0 1) = true) ∧ (decide (q.aborted.contains pos = true)) = true)
    ∧ (let s : State := { heading 32 0 0 with queues := [(3, { headQueue 32 0 0 with cached := [(0, 0, [1, 1] ++ (headEntry 32 0 0).drop 2)] })], qps := [(5, { ctx := { qpn := 5, sq := 3, state := 6 }, place := .resident 0 })] }; let n : BitVec 20 := 3; let seen : Seen := []; let q : Queue := { headQueue 32 0 0 with cached := [(0, 0, [1, 1] ++ (headEntry 32 0 0).drop 2)] }; let pos : Nat := 0; let k : Nat := 0; let e : List Byte := [1, 1] ++ (headEntry 32 0 0).drop 2; (s.headTriggered n.toNat = true) ∧ (s.queue? n.toNat = some q ∧ q.cached.find? (fun c => c.1 == q.next) = some (pos, k, e) ∧ (s.see seen).mayStart n.toNat q (leAt e 0 1) = true) ∧ (decide (q.aborted.contains pos = false) && decide (k < 4) && decide (q.fresh pos e = true) && decide ((actsOnQp (leAt e 0 1) && inError ((s.see seen).qpOfQueue? n.toNat)) = true)) = true)
    ∧ (let s : State := { heading 32 0 0 with queues := [(3, { headQueue 32 0 0 with cached := [(0, 4, [0, 7] ++ (headEntry 32 0 0).drop 2)] })] }; let n : BitVec 20 := 3; let seen : Seen := []; let q : Queue := { headQueue 32 0 0 with cached := [(0, 4, [0, 7] ++ (headEntry 32 0 0).drop 2)] }; let pos : Nat := 0; let k : Nat := 4; let e : List Byte := [0, 7] ++ (headEntry 32 0 0).drop 2; (s.headTriggered n.toNat = true) ∧ (s.queue? n.toNat = some q ∧ q.cached.find? (fun c => c.1 == q.next) = some (pos, k, e) ∧ (s.see seen).mayStart n.toNat q (leAt e 0 1) = true) ∧ (decide (q.aborted.contains pos = false) && decide (k = 4) && decide (q.fresh pos e = false)) = true)
    ∧ (let s : State := { heading 32 0 0 with queues := [(3, { headQueue 32 0 0 with cached := [(0, 1, [0, 7] ++ (headEntry 32 0 0).drop 2)] })] }; let n : BitVec 20 := 3; let seen : Seen := []; let q : Queue := { headQueue 32 0 0 with cached := [(0, 1, [0, 7] ++ (headEntry 32 0 0).drop 2)] }; let pos : Nat := 0; let k : Nat := 1; let e : List Byte := [0, 7] ++ (headEntry 32 0 0).drop 2; (s.headTriggered n.toNat = true) ∧ (s.queue? n.toNat = some q ∧ q.cached.find? (fun c => c.1 == q.next) = some (pos, k, e) ∧ (s.see seen).mayStart n.toNat q (leAt e 0 1) = true) ∧ (decide (q.aborted.contains pos = false) && decide (k < 4) && decide (q.fresh pos e = false)) = true)
    ∧ (let s : State := ready; let n : BitVec 20 := 3; (decide (s.toIssue? n.toNat 1 = none ∨ s.qpOfQueue? n.toNat = none)) = true)
    ∧ (let s : State := paired 1; let n : BitVec 20 := 3; ((match s.qpOfQueue? n.toNat with | some x => decide (s.toIssue? n.toNat 1 ≠ none) | _ => false)) = true)
    ∧ (let s : State := ready; let n : BitVec 20 := 3; (decide (s.toIssue? n.toNat 2 = none ∨ s.qpOfQueue? n.toNat = none)) = true)
    ∧ (let s : State := paired 2; let n : BitVec 20 := 3; ((match s.qpOfQueue? n.toNat with | some x => decide (s.toIssue? n.toNat 2 ≠ none) | _ => false)) = true)
    ∧ (let s : State := ready; let n : BitVec 20 := 3; (decide (s.toIssue? n.toNat 3 = none ∨ s.qpOfQueue? n.toNat = none)) = true)
    ∧ (let s : State := paired 3; let n : BitVec 20 := 3; ((match s.qpOfQueue? n.toNat with | some x => decide (s.toIssue? n.toNat 3 ≠ none) | _ => false)) = true)
    ∧ (let s : State := ready; let n : BitVec 20 := 3; (decide (s.toIssue? n.toNat 4 = none ∨ s.qpOfQueue? n.toNat = none)) = true)
    ∧ (let s : State := paired 4; let n : BitVec 20 := 3; ((match s.qpOfQueue? n.toNat with | some x => decide (s.toIssue? n.toNat 4 ≠ none) | _ => false)) = true)
    ∧ (let s : State := ready; let n : BitVec 20 := 3; (decide (s.toIssue? n.toNat 5 = none ∨ s.qpOfQueue? n.toNat = none)) = true)
    ∧ (let s : State := paired 5; let n : BitVec 20 := 3; ((match s.qpOfQueue? n.toNat with | some x => decide (s.toIssue? n.toNat 5 ≠ none) | _ => false)) = true)
    ∧ (let s : State := ready; let n : BitVec 20 := 3; (decide (s.toIssue? n.toNat 6 = none ∨ s.qpOfQueue? n.toNat = none)) = true)
    ∧ (let s : State := paired 6; let n : BitVec 20 := 3; ((match s.qpOfQueue? n.toNat with | some x => decide (s.toIssue? n.toNat 6 ≠ none) | _ => false)) = true)
    ∧ (let s : State := ready; let n : BitVec 20 := 3; (decide (s.toIssue? n.toNat 7 = none ∨ s.qpOfQueue? n.toNat = none)) = true)
    ∧ (let s : State := paired 7; let n : BitVec 20 := 3; ((match s.qpOfQueue? n.toNat with | some x => decide (s.toIssue? n.toNat 7 ≠ none) | _ => false)) = true)
    ∧ (let s : State := ready; let n : BitVec 20 := 3; (decide (s.toIssue? n.toNat 0 = none)) = true)
    ∧ (let s : State := started 0 []; let n : BitVec 20 := 3; ((match s.toIssue? n.toNat 0 with | some (q, l) => true | _ => false)) = true)
    ∧ (let s : State := ready; let n : BitVec 20 := 3; (decide (s.toIssue? n.toNat 0x40 = none)) = true)
    ∧ (let s : State := started 0x40 []; let n : BitVec 20 := 3; ((match s.toIssue? n.toNat 0x40 with | some (q, l) => true | _ => false)) = true) := by
  refine ⟨?_, ?_, ?_, ?_, ?_, ?_, ?_, ?_, ?_, ?_, ?_, ?_, ?_, ?_, ?_, ?_, ?_, ?_, ?_, ?_, ?_, ?_, ?_, ?_, ?_, ?_, ?_, ?_, ?_, ?_, ?_, ?_, ?_, ?_, ?_, ?_, ?_, ?_, ?_, ?_, ?_⟩ <;> decide +kernel

/-- States and operands that meet the hypotheses of LocalEntries. -/
theorem witness_LocalEntries :
    (let s : State := ready; let n : BitVec 20 := 3; (decide (s.toIssue? n.toNat 0x10 = none)) = true)
    ∧ (let s : State := started 0x10 []; let n : BitVec 20 := 3; ((match s.toIssue? n.toNat 0x10 with | some (q, l) => decide (l.stopped = false) && decide (s.copyGrant n.toNat l.bytes = true) && decide (l.len ≤ l.got) | _ => false)) = true)
    ∧ (let s : State := { (started 0x10 []) with queues := [(3, { live := [{ pos := 0, bytes := [], opcode := 0x10, stopped := true }] })] }; let n : BitVec 20 := 3; ((match s.toIssue? n.toNat 0x10 with | some (q, l) => decide (l.stopped = true ∨ s.copyGrant n.toNat l.bytes = false) | _ => false)) = true)
    ∧ (let s : State := copying 0 0x10000000000 0 0x2000 1 0; let u : State := (copying 0 0x10000000000 0 0x2000 1 0).count (Reg.PART_CID_REJ.COUNT 1); let n : BitVec 20 := 3; let seen : Seen := []; let q : Queue := copyQueue 0 0x10000000000 0 0x2000; let l : Live := copyLive 0 0x10000000000 0 0x2000; let e : MemErr := .cid; (s.toIssue? n.toNat 0x10 = some (q, l) ∧ l.stopped = false ∧ s.copyGrant n.toNat l.bytes = true ∧ l.got < l.len) ∧ ((s.see seen).sourceData { cid := q.cid } l l.got (min 4096 (l.len - l.got)) = (u, .err e)) ∧ (decide (e = .cid)) = true)
    ∧ (let s : State := copying 1 0x20001000 0 0x2000 2 0; let u : State := copying 1 0x20001000 0 0x2000 2 0; let n : BitVec 20 := 3; let seen : Seen := []; let q : Queue := copyQueue 1 0x20001000 0 0x2000; let l : Live := copyLive 1 0x20001000 0 0x2000; let e : MemErr := .ue; (s.toIssue? n.toNat 0x10 = some (q, l) ∧ l.stopped = false ∧ s.copyGrant n.toNat l.bytes = true ∧ l.got < l.len) ∧ ((s.see seen).sourceData { cid := q.cid } l l.got (min 4096 (l.len - l.got)) = (u, .err e)) ∧ (decide (e = .ue)) = true)
    ∧ (let s : State := copying 1 0x20001000 0 0x2000 1 1; let u : State := copying 1 0x20001000 0 0x2000 1 1; let n : BitVec 20 := 3; let seen : Seen := []; let q : Queue := copyQueue 1 0x20001000 0 0x2000; let l : Live := copyLive 1 0x20001000 0 0x2000; let e : MemErr := .wait; (s.toIssue? n.toNat 0x10 = some (q, l) ∧ l.stopped = false ∧ s.copyGrant n.toNat l.bytes = true ∧ l.got < l.len) ∧ ((s.see seen).sourceData { cid := q.cid } l l.got (min 4096 (l.len - l.got)) = (u, .err e)) ∧ (decide (e = .wait)) = true)
    ∧ (let s : State := copying 0 0x1000 0 0x2000 1 0; let u : State := copying 0 0x1000 0 0x2000 1 0; let v : State := copied 0 0x2000 1 0; let n : BitVec 20 := 3; let seen : Seen := []; let q : Queue := copyQueue 0 0x1000 0 0x2000; let l : Live := copyLive 0 0x1000 0 0x2000; let bs : List Byte := [7, 0]; let r : BufRes Unit := .ok (); (s.toIssue? n.toNat 0x10 = some (q, l) ∧ l.stopped = false ∧ s.copyGrant n.toNat l.bytes = true ∧ l.got < l.len ∧ l.len ≤ l.got + 4096) ∧ ((s.see seen).sourceData { cid := q.cid } l l.got (l.len - l.got) = (u, .ok bs)) ∧ (u.placeTile q.cid { copyDest l.bytes with snap := l.tab2 } l.got bs n.toNat l.pos { engine := 0, write := true, qpn := none, unit := n.toNat } = (v, r)) ∧ (decide (r = .ok ())) = true)
    ∧ (let s : State := copying 0 0x1000 0 0x10000000000 1 0; let u : State := copying 0 0x1000 0 0x10000000000 1 0; let v : State := copied 0 0x10000000000 1 0; let n : BitVec 20 := 3; let seen : Seen := []; let q : Queue := copyQueue 0 0x1000 0 0x10000000000; let l : Live := copyLive 0 0x1000 0 0x10000000000; let bs : List Byte := [7, 0]; let r : BufRes Unit := .err .cid; (s.toIssue? n.toNat 0x10 = some (q, l) ∧ l.stopped = false ∧ s.copyGrant n.toNat l.bytes = true ∧ l.got < l.len ∧ l.len ≤ l.got + 4096) ∧ ((s.see seen).sourceData { cid := q.cid } l l.got (l.len - l.got) = (u, .ok bs)) ∧ (u.placeTile q.cid { copyDest l.bytes with snap := l.tab2 } l.got bs n.toNat l.pos { engine := 0, write := true, qpn := none, unit := n.toNat } = (v, r)) ∧ (decide (r = .err .cid)) = true)
    ∧ (let s : State := copying 0 0x1000 1 0x20001000 2 0; let u : State := copying 0 0x1000 1 0x20001000 2 0; let v : State := copied 1 0x20001000 2 0; let n : BitVec 20 := 3; let seen : Seen := []; let q : Queue := copyQueue 0 0x1000 1 0x20001000; let l : Live := copyLive 0 0x1000 1 0x20001000; let bs : List Byte := [7, 0]; let r : BufRes Unit := .err .ue; (s.toIssue? n.toNat 0x10 = some (q, l) ∧ l.stopped = false ∧ s.copyGrant n.toNat l.bytes = true ∧ l.got < l.len ∧ l.len ≤ l.got + 4096) ∧ ((s.see seen).sourceData { cid := q.cid } l l.got (l.len - l.got) = (u, .ok bs)) ∧ (u.placeTile q.cid { copyDest l.bytes with snap := l.tab2 } l.got bs n.toNat l.pos { engine := 0, write := true, qpn := none, unit := n.toNat } = (v, r)) ∧ (decide (r = .err .ue)) = true)
    ∧ (let s : State := copying 0 0x1000 1 0x20001000 1 1; let u : State := copying 0 0x1000 1 0x20001000 1 1; let v : State := copied 1 0x20001000 1 1; let n : BitVec 20 := 3; let seen : Seen := []; let q : Queue := copyQueue 0 0x1000 1 0x20001000; let l : Live := copyLive 0 0x1000 1 0x20001000; let bs : List Byte := [7, 0]; let r : BufRes Unit := .err .wait; (s.toIssue? n.toNat 0x10 = some (q, l) ∧ l.stopped = false ∧ s.copyGrant n.toNat l.bytes = true ∧ l.got < l.len ∧ l.len ≤ l.got + 4096) ∧ ((s.see seen).sourceData { cid := q.cid } l l.got (l.len - l.got) = (u, .ok bs)) ∧ (u.placeTile q.cid { copyDest l.bytes with snap := l.tab2 } l.got bs n.toNat l.pos { engine := 0, write := true, qpn := none, unit := n.toNat } = (v, r)) ∧ (decide (r = .err .wait)) = true)
    ∧ (let s : State := ready; let n : BitVec 20 := 3; (decide (s.toIssue? n.toNat 0x20 = none)) = true)
    ∧ (let s : State := opening 3 7; let n : BitVec 20 := 3; let q : Queue := openQueue 3 7; let l : Live := openLive 3 7; let space : Nat := 3; let base : Nat := 0x1000; let limit : Nat := 0x1FFF; let rights : Nat := 7; let scope : Nat := 0; (s.toIssue? n.toNat 0x20 = some (q, l) ∧ space = leAt l.bytes 32 8 / 2 ^ 52 % 4 ∧ base = leAt l.bytes 32 8 % 2 ^ 52 ∧ limit = leAt l.bytes 40 8 ∧ rights = leAt l.bytes 48 1 % 8 ∧ scope = leAt l.bytes 48 1 / 8) ∧ (decide (space = 3 ∨ limit < base ∨ rights = 0 ∨ s.winRangeOk (cidPart q.cid) space base limit = false)) = true)
    ∧ (let s : State := opening 0 7; let n : BitVec 20 := 3; let q : Queue := openQueue 0 7; let l : Live := openLive 0 7; let space : Nat := 0; let base : Nat := 0x1000; let limit : Nat := 0x1FFF; let rights : Nat := 7; let scope : Nat := 0; (s.toIssue? n.toNat 0x20 = some (q, l) ∧ space = leAt l.bytes 32 8 / 2 ^ 52 % 4 ∧ base = leAt l.bytes 32 8 % 2 ^ 52 ∧ limit = leAt l.bytes 40 8 ∧ rights = leAt l.bytes 48 1 % 8 ∧ scope = leAt l.bytes 48 1 / 8) ∧ (decide (space ≠ 3) && decide (base ≤ limit) && decide (rights ≠ 0) && decide (s.winRangeOk (cidPart q.cid) space base limit = true) && decide (s.get (Reg.WIN_SHARE.WINDOWS (cidPart q.cid)) ≤ s.get (Reg.WIN_HELD.COUNT (cidPart q.cid)))) = true)
    ∧ (let s : State := (opening 0 7).put (Reg.WIN_SHARE.WINDOWS 1) 10; let n : BitVec 20 := 3; let q : Queue := openQueue 0 7; let l : Live := openLive 0 7; let space : Nat := 0; let base : Nat := 0x1000; let limit : Nat := 0x1FFF; let rights : Nat := 7; let scope : Nat := 0; (s.toIssue? n.toNat 0x20 = some (q, l) ∧ space = leAt l.bytes 32 8 / 2 ^ 52 % 4 ∧ base = leAt l.bytes 32 8 % 2 ^ 52 ∧ limit = leAt l.bytes 40 8 ∧ rights = leAt l.bytes 48 1 % 8 ∧ scope = leAt l.bytes 48 1 / 8) ∧ (decide (space ≠ 3) && decide (base ≤ limit) && decide (rights ≠ 0) && decide (s.winRangeOk (cidPart q.cid) space base limit = true) && decide (s.get (Reg.WIN_HELD.COUNT (cidPart q.cid)) < s.get (Reg.WIN_SHARE.WINDOWS (cidPart q.cid))) && (match s.wins.takeFree with | some (i, ws) => true | _ => false)) = true)
    ∧ (let s : State := { ((opening 0 7).put (Reg.WIN_SHARE.WINDOWS 1) 10) with wins := { freeNext := 2 ^ 20 } }; let n : BitVec 20 := 3; let q : Queue := openQueue 0 7; let l : Live := openLive 0 7; let space : Nat := 0; let base : Nat := 0x1000; let limit : Nat := 0x1FFF; let rights : Nat := 7; let scope : Nat := 0; (s.toIssue? n.toNat 0x20 = some (q, l) ∧ space = leAt l.bytes 32 8 / 2 ^ 52 % 4 ∧ base = leAt l.bytes 32 8 % 2 ^ 52 ∧ limit = leAt l.bytes 40 8 ∧ rights = leAt l.bytes 48 1 % 8 ∧ scope = leAt l.bytes 48 1 / 8) ∧ (decide (space ≠ 3) && decide (base ≤ limit) && decide (rights ≠ 0) && decide (s.winRangeOk (cidPart q.cid) space base limit = true) && decide (s.get (Reg.WIN_HELD.COUNT (cidPart q.cid)) < s.get (Reg.WIN_SHARE.WINDOWS (cidPart q.cid))) && decide (s.wins.takeFree = none)) = true)
    ∧ (let s : State := ready; let n : BitVec 20 := 3; (decide (s.toIssue? n.toNat 0x21 = none)) = true)
    ∧ (let s : State := started 0x21 (List.replicate 28 0 ++ leBytes 4 0x5001); let n : BitVec 20 := 3; ((match s.toIssue? n.toNat 0x21 with | some (q, l) => decide (cidPart (s.win (leAt l.bytes 28 4 / 4096)).cid ≠ cidPart q.cid ∨ (s.win (leAt l.bytes 28 4 / 4096)).opener ≠ cidInst q.cid) | _ => false)) = true)
    ∧ (let s : State := { started 0x21 (List.replicate 28 0 ++ leBytes 4 0x5001) with wins := { desc := [(5, { cid := 1 * 1024 })] } }; let n : BitVec 20 := 3; ((match s.toIssue? n.toNat 0x21 with | some (q, l) => decide (cidPart (s.win (leAt l.bytes 28 4 / 4096)).cid = cidPart q.cid) && decide ((s.win (leAt l.bytes 28 4 / 4096)).opener = cidInst q.cid) && decide (leAt l.bytes 28 4 / 4096 = 0 ∨ leAt l.bytes 28 4 % 4096 = 0 ∨ (s.win (leAt l.bytes 28 4 / 4096)).state = 0 ∨ ((s.win (leAt l.bytes 28 4 / 4096)).state = 1 ∧ (s.win (leAt l.bytes 28 4 / 4096)).gen ≠ leAt l.bytes 28 4 % 4096)) | _ => false)) = true)
    ∧ (let s : State := { started 0x21 (List.replicate 28 0 ++ leBytes 4 0x5001) with wins := { desc := [(5, { cid := 1 * 1024, state := 1 })] }, queues := [(3, { cid := 1024, live := [{ pos := 0, bytes := List.replicate 28 0 ++ leBytes 4 0x5001, opcode := 0x21 }] })] }; let n : BitVec 20 := 3; ((match s.toIssue? n.toNat 0x21 with | some (q, l) => decide (cidPart (s.win (leAt l.bytes 28 4 / 4096)).cid = cidPart q.cid) && decide ((s.win (leAt l.bytes 28 4 / 4096)).opener = cidInst q.cid) && decide (leAt l.bytes 28 4 / 4096 ≠ 0) && decide (leAt l.bytes 28 4 % 4096 ≠ 0) && decide ((s.win (leAt l.bytes 28 4 / 4096)).state = 1) && decide ((s.win (leAt l.bytes 28 4 / 4096)).gen = leAt l.bytes 28 4 % 4096) && decide (s.wins.revs.any (fun r => r.index == leAt l.bytes 28 4 / 4096) = false) | _ => false)) = true)
    ∧ (let s : State := ready; let n : BitVec 20 := 3; (decide (s.toIssue? n.toNat 0x22 = none)) = true)
    ∧ (let s : State := started 0x22 (List.replicate 28 0 ++ [5, 0]); let n : BitVec 20 := 3; ((match s.toIssue? n.toNat 0x22 with | some (q, l) => decide (s.trigOf (cidPart q.cid) (leAt l.bytes 28 2) = false) | _ => false)) = true)
    ∧ (let s : State := (started 0x22 (List.replicate 28 0 ++ [5, 0])).put (Reg.TRIG_NUM.NUM 1) 16; let n : BitVec 20 := 3; ((match s.toIssue? n.toNat 0x22 with | some (q, l) => decide (s.trigOf (cidPart q.cid) (leAt l.bytes 28 2) = true) | _ => false)) = true)
    ∧ (let s : State := ready; let n : BitVec 20 := 3; (decide (s.toIssue? n.toNat 0x30 = none)) = true)
    ∧ (let s : State := started 0x30 []; let n : BitVec 20 := 3; ((match s.toIssue? n.toNat 0x30 with | some (q, l) => decide (s.qp? (entQpn l.bytes) = none) | _ => false)) = true)
    ∧ (let s : State := { started 0x30 (List.replicate 4 0 ++ [5, 0, 0]) with qps := [(5, { ctx := { qpn := 5, cid := 1024, sq := 3, state := 3 }, place := .resident 0 })] }; let n : BitVec 20 := 3; ((match s.toIssue? n.toNat 0x30 with | some (q, l) => (match s.qp? (entQpn l.bytes) with | some x => decide (x.ctx.cid = q.cid) | _ => false) | _ => false)) = true ∧ ((match s.toIssue? n.toNat 0x30 with | some (q, l) => (match s.qp? (entQpn l.bytes) with | some x => decide (x.ctx.cid = q.cid) && decide (x.resident = true) && decide (s.kennel.bad.contains (entQpn l.bytes) = false) | _ => false) | _ => false)) = true)
    ∧ (let s : State := { started 0x30 (List.replicate 4 0 ++ [5, 0, 0]) with qps := [(5, { ctx := { qpn := 5, cid := 77, sq := 3, state := 3 }, place := .resident 0 })] }; let n : BitVec 20 := 3; ((match s.toIssue? n.toNat 0x30 with | some (q, l) => (match s.qp? (entQpn l.bytes) with | some x => decide (x.ctx.cid ≠ q.cid) | _ => false) | _ => false)) = true) := by
  refine ⟨?_, ?_, ?_, ?_, ?_, ?_, ?_, ?_, ?_, ?_, ?_, ?_, ?_, ?_, ?_, ?_, ?_, ?_, ?_, ?_, ?_, ?_, ?_, ?_, ?_, ?_⟩ <;> decide +kernel

/-- States and operands that meet the hypotheses of BarrierUnits. -/
theorem witness_BarrierUnits :
    (let s : State := ready; let u : Fin 16 := 2; (decide ((s.bar u).run = none) && decide ((s.cores.any fun e => e.2.wait == some (.bar u)) = false)) = true)
    ∧ (let s : State := ready.setBar 2 { run := some { members := [0, 1024], rank := 1, seq := 7 } }; let u : Fin 16 := 2; let seq : Word := 7; let rank : Fin 1024 := 1; ((match (s.bar u).run with | some r => decide (r.rank ≠ 0 ∨ r.release ≠ none) | _ => false)) = true)
    ∧ (let s : State := ready.setBar 2 { run := some { members := [0, 1024], rank := 0, seq := 7 } }; let u : Fin 16 := 2; let seq : Word := 7; let rank : Fin 1024 := 1; let slot : BitVec 64 := 20; let st : Fin 5 := 2; let r : BarRun := { members := [0, 1024], rank := 0, seq := 7 }; let as : List BarArrival := [{ seq := 7, rank := 1, slot := 20, state := 2 }]; ((s.bar u).run = some r ∧ r.rank = 0 ∧ r.release = none ∧ r.seq = seq.toNat ∧ (s.bar u).withdrawn.contains r.seq = false) ∧ (as = (s.bar u).arrivals.filter (fun x => x.seq == seq.toNat && x.rank != rank.val) ++ [{ seq := seq.toNat, rank := rank, slot := slot.toNat, state := st }]) ∧ (decide ((List.range r.members.length).all (fun k => as.any fun a => a.rank == k) = false)) = true)
    ∧ (let s : State := ready.setBar 2 { run := some { members := [0, 1024], rank := 0, seq := 7 }, arrivals := [{ seq := 7, rank := 0, slot := 30, state := 2 }] }; let u : Fin 16 := 2; let seq : Word := 7; let rank : Fin 1024 := 1; let slot : BitVec 64 := 20; let st : Fin 5 := 2; let r : BarRun := { members := [0, 1024], rank := 0, seq := 7 }; let as : List BarArrival := [{ seq := 7, rank := 0, slot := 30, state := 2 }, { seq := 7, rank := 1, slot := 20, state := 2 }]; ((s.bar u).run = some r ∧ r.rank = 0 ∧ r.release = none ∧ r.seq = seq.toNat ∧ (s.bar u).withdrawn.contains r.seq = false) ∧ (as = (s.bar u).arrivals.filter (fun x => x.seq == seq.toNat && x.rank != rank.val) ++ [{ seq := seq.toNat, rank := rank, slot := slot.toNat, state := st }]) ∧ (decide ((List.range r.members.length).all (fun k => as.any fun a => a.rank == k) = true) && decide (as.all (fun a => a.state == 2 || a.state == 3) = true) && decide (s.slot < as.foldl (fun m a => max m a.slot) 0 + s.get (Reg.TIME_BAR_CTL.LEAD u))) = true)
    ∧ (let s : State := ready.setBar 2 { run := some { members := [0, 1024], rank := 0, seq := 7 }, arrivals := [{ seq := 7, rank := 0, slot := 30, state := 2 }] }; let u : Fin 16 := 2; let seq : Word := 7; let rank : Fin 1024 := 1; let slot : BitVec 64 := 20; let st : Fin 5 := 1; let r : BarRun := { members := [0, 1024], rank := 0, seq := 7 }; let as : List BarArrival := [{ seq := 7, rank := 0, slot := 30, state := 2 }, { seq := 7, rank := 1, slot := 20, state := 1 }]; ((s.bar u).run = some r ∧ r.rank = 0 ∧ r.release = none ∧ r.seq = seq.toNat ∧ (s.bar u).withdrawn.contains r.seq = false) ∧ (as = (s.bar u).arrivals.filter (fun x => x.seq == seq.toNat && x.rank != rank.val) ++ [{ seq := seq.toNat, rank := rank, slot := slot.toNat, state := st }]) ∧ (decide ((List.range r.members.length).all (fun k => as.any fun a => a.rank == k) = true) && decide (as.all (fun a => a.state == 2 || a.state == 3) = false) && decide (r.coll = none) && decide (s.cores = [])) = true)
    ∧ (let s : State := ready; let u : Fin 16 := 2; (decide ((s.bar u).run = none) && decide ((s.cores.any fun e => e.2.wait == some (.bar u)) = false)) = true)
    ∧ (let s : State := ready.setBar 2 { run := some { members := [0, 1024], rank := 1, seq := 7 } }; let u : Fin 16 := 2; let seq : Word := 8; ((match (s.bar u).run with | some r => decide (r.seq ≠ seq.toNat ∨ r.release ≠ none) | _ => false)) = true)
    ∧ (let s : State := ready.setBar 2 { run := some { members := [0, 1024], rank := 1, seq := 7 } }; let u : Fin 16 := 2; let seq : Word := 7; let failed : Bool := true; ((match (s.bar u).run with | some r => decide (r.seq = seq.toNat) && decide (r.release = none) && decide (failed = true) | _ => false)) = true)
    ∧ (let s : State := ready.setBar 2 { run := some { members := [0, 1024], rank := 1, seq := 7 } }; let u : Fin 16 := 2; let seq : Word := 7; let slot : Option (BitVec 64) := none; let failed : Bool := false; ((match (s.bar u).run with | some r => decide (r.seq = seq.toNat) && decide (r.release = none) && decide (failed = false) && decide (slot = none) | _ => false)) = true)
    ∧ (let s : State := ready.setBar 2 { run := some { members := [0, 1024], rank := 1, seq := 7 } }; let u : Fin 16 := 2; let seq : Word := 7; let slot : Option (BitVec 64) := some 0; let failed : Bool := false; ((match (s.bar u).run with | some r => decide (r.seq = seq.toNat) && decide (r.release = none) && decide (failed = false) && (match slot with | some (x) => decide (x.toNat ≤ s.slot) | _ => false) | _ => false)) = true)
    ∧ (let s : State := ready.setBar 2 { run := some { members := [0, 1024], rank := 1, seq := 7 } }; let u : Fin 16 := 2; let seq : Word := 7; let slot : Option (BitVec 64) := some 9; let failed : Bool := false; ((match (s.bar u).run with | some r => decide (r.seq = seq.toNat) && decide (r.release = none) && decide (failed = false) && (match slot with | some (x) => decide (s.slot < x.toNat) | _ => false) | _ => false)) = true)
    ∧ (let s : State := ready; let u : Fin 16 := 2; (decide ((s.bar u).run = none)) = true)
    ∧ (let s : State := ready.setBar 2 { run := some { members := [0, 1024], rank := 1, seq := 7 } }; let u : Fin 16 := 2; ((match (s.bar u).run with | some r => decide (r.release = none) | _ => false)) = true)
    ∧ (let s : State := ready.setBar 2 { run := some { members := [0, 1024], rank := 1, seq := 7, release := some 3 } }; let u : Fin 16 := 2; ((match (s.bar u).run with | some r => (match r.release with | some (x) => decide (s.slot < x) | _ => false) | _ => false)) = true)
    ∧ (let s : State := { (ready.setBar 2 { run := some { members := [0, 1024], rank := 1, seq := 7, release := some 3 } }) with time := { ready.time with ftNs := 15 } }; let u : Fin 16 := 2; ((match (s.bar u).run with | some r => (match r.release with | some (x) => decide (x ≤ s.slot) | _ => false) | _ => false)) = true ∧ ((match (s.bar u).run with | some r => (match r.release with | some (x) => decide (x ≤ s.slot) && decide (r.coll = none) && decide (s.cores = []) | _ => false) | _ => false)) = true)
    ∧ (let s : State := ready; let u : Fin 16 := 2; (decide ((s.bar u).run = none)) = true)
    ∧ (let s : State := ready.setBar 2 { run := some { members := [0, 1024], rank := 1, seq := 7 } }; let u : Fin 16 := 2; ((match (s.bar u).run with | some r => decide (r.release ≠ none ∨ r.coll = none) | _ => false)) = true)
    ∧ (let s : State := { (ready.setBar 2 { run := some { members := [0, 1024], rank := 1, seq := 7, coll := some (3, 0) } }) with colls := [barColl 0] }; let u : Fin 16 := 2; let r : BarRun := { members := [0, 1024], rank := 1, seq := 7, coll := some (3, 0) }; let n : Nat := 3; let pos : Nat := 0; let x : Coll := barColl 0; ((s.bar u).run = some r ∧ r.release = none ∧ r.coll = some (n, pos) ∧ s.colls.find? (fun c => c.queue == n && c.pos == pos) = some x) ∧ (decide (leAt x.args 22 2 = 0)) = true)
    ∧ (let s : State := { (ready.setBar 2 { run := some { members := [0, 1024], rank := 1, seq := 7, coll := some (3, 0) } }) with colls := [barColl 9] }; let u : Fin 16 := 2; let r : BarRun := { members := [0, 1024], rank := 1, seq := 7, coll := some (3, 0) }; let n : Nat := 3; let pos : Nat := 0; let x : Coll := barColl 9; ((s.bar u).run = some r ∧ r.release = none ∧ r.coll = some (n, pos) ∧ s.colls.find? (fun c => c.queue == n && c.pos == pos) = some x) ∧ (decide (leAt x.args 22 2 ≠ 0) && decide (r.rank ≠ 0)) = true)
    ∧ (let s : State := { (ready.setBar 2 { run := some { members := [0, 1024], rank := 0, seq := 7, coll := some (3, 0) } }) with colls := [barColl 9] }; let u : Fin 16 := 2; let r : BarRun := { members := [0, 1024], rank := 0, seq := 7, coll := some (3, 0) }; let n : Nat := 3; let pos : Nat := 0; let x : Coll := barColl 9; ((s.bar u).run = some r ∧ r.release = none ∧ r.coll = some (n, pos) ∧ s.colls.find? (fun c => c.queue == n && c.pos == pos) = some x) ∧ (decide (leAt x.args 22 2 ≠ 0) && decide (r.rank = 0)) = true)
    ∧ (let s : State := ready; let u : Fin 16 := 2; (decide ((s.bar u).run = none) && decide ((s.cores.any fun e => e.2.wait == some (.bar u)) = false)) = true)
    ∧ (let s : State := ready.setBar 2 { run := some { members := [0, 1024], rank := 1, seq := 7 } }; let u : Fin 16 := 2; let seq : Word := 7; ((match (s.bar u).run with | some r => decide (r.rank ≠ 0 ∨ r.release ≠ none) | _ => false)) = true)
    ∧ (let s : State := ready.setBar 2 { run := some { members := [0, 1024], rank := 0, seq := 7 } }; let u : Fin 16 := 2; let seq : Word := 7; ((match (s.bar u).run with | some r => decide (r.rank = 0) && decide (r.release = none) && decide (r.seq = seq.toNat) | _ => false)) = true)
    ∧ (let s : State := running (word 0x37 0 0 0 2); let c : CoreId := 8; let w : Nat := word 0x37 0 0 0 2; (Issues s c .bar w) ∧ (decide ((s.bar (w % 16)).holder ≠ some (cidPart (s.core c).cid))) = true)
    ∧ (let s : State := (running (word 0x37 0 0 0 2)).setBar 2 { holder := some 0, run := some { members := [0, 1024], rank := 1, seq := 7 } }; let c : CoreId := 8; let w : Nat := word 0x37 0 0 0 2; (Issues s c .bar w) ∧ (decide ((s.bar (w % 16)).holder = some (cidPart (s.core c).cid)) && decide ((s.bar (w % 16)).run ≠ none)) = true)
    ∧ (let s : State := (running (word 0x37 0 0 0 2)).setBar 2 { holder := some 0, members := [1024, 0], rank := 1 }; let c : CoreId := 8; let w : Nat := word 0x37 0 0 0 2; (Issues s c .bar w) ∧ (decide ((s.bar (w % 16)).holder = some (cidPart (s.core c).cid)) && decide ((s.bar (w % 16)).run = none)) = true) := by
  refine ⟨?_, ?_, ?_, ?_, ?_, ?_, ?_, ?_, ?_, ?_, ?_, ?_, ?_, ?_, ?_, ?_, ?_, ?_, ?_, ?_, ?_, ?_, ?_, ?_, ?_, ?_⟩ <;> decide +kernel

/-- States and operands that meet the hypotheses of Collectives. -/
theorem witness_Collectives :
    (let s : State := ready; let n : BitVec 20 := 3; (decide (s.queue? n.toNat = none)) = true ∧ (decide ((s.homeCore? n.toNat).isNone = true)) = true)
    ∧ (let s : State := started 0x11 []; let n : BitVec 20 := 3; ((match s.queue? n.toNat with | some q => decide ((q.live.find? (fun l => l.opcode == 0x11 && l.issued && l.done.isNone && isCollective (leAt l.bytes 28 4) && !s.colls.any (fun c => c.queue == n.toNat && c.pos == l.pos))) = none) | _ => false)) = true)
    ∧ (let s : State := calling 1 0 1 0; let n : BitVec 20 := 3; ((match s.queue? n.toNat with | some q => (match (q.live.find? (fun l => l.opcode == 0x11 && l.issued && l.done.isNone && isCollective (leAt l.bytes 28 4) && !s.colls.any (fun c => c.queue == n.toNat && c.pos == l.pos))) with | some l => decide (leAt l.bytes 32 1 ≠ 0) | _ => false) | _ => false)) = true)
    ∧ (let s : State := calling 0 0 1 0; let u : State := calling 0 0 1 0; let n : BitVec 20 := 3; let seen : Seen := []; let q : Queue := collQueue 0 0; let l : Live := collLive 0 0; let r : CollStart := .ok (callColl 0 0); let x : Coll := callColl 0 0; (s.queue? n.toNat = some q ∧ (q.live.find? (fun l => l.opcode == 0x11 && l.issued && l.done.isNone && isCollective (leAt l.bytes 28 4) && !s.colls.any (fun c => c.queue == n.toNat && c.pos == l.pos))) = some l) ∧ ((leAt l.bytes 32 1 = 0) ∧ (s.homeCore? n.toNat).isSome = true ∧ (s.see seen).collAbsorb.collCheck n.toNat q l = (u, r)) ∧ (decide (r = .ok x)) = true)
    ∧ (let s : State := calling 0 0 1 1; let u : State := calling 0 0 1 1; let n : BitVec 20 := 3; let seen : Seen := []; let q : Queue := collQueue 0 0; let l : Live := collLive 0 0; let r : CollStart := .wait; (s.queue? n.toNat = some q ∧ (q.live.find? (fun l => l.opcode == 0x11 && l.issued && l.done.isNone && isCollective (leAt l.bytes 28 4) && !s.colls.any (fun c => c.queue == n.toNat && c.pos == l.pos))) = some l) ∧ ((leAt l.bytes 32 1 = 0) ∧ (s.homeCore? n.toNat).isSome = true ∧ (s.see seen).collAbsorb.collCheck n.toNat q l = (u, r)) ∧ (decide (r = .wait)) = true)
    ∧ (let s : State := calling 0 0 2 0; let u : State := calling 0 0 2 0; let n : BitVec 20 := 3; let seen : Seen := []; let q : Queue := collQueue 0 0; let l : Live := collLive 0 0; let r : CollStart := .fail 0x40; let st : Nat := 0x40; (s.queue? n.toNat = some q ∧ (q.live.find? (fun l => l.opcode == 0x11 && l.issued && l.done.isNone && isCollective (leAt l.bytes 28 4) && !s.colls.any (fun c => c.queue == n.toNat && c.pos == l.pos))) = some l) ∧ ((leAt l.bytes 32 1 = 0) ∧ (s.homeCore? n.toNat).isSome = true ∧ (s.see seen).collAbsorb.collCheck n.toNat q l = (u, r)) ∧ (decide (r = .fail st)) = true)
    ∧ (let s : State := ready; let n : BitVec 20 := 3; (decide (s.queue? n.toNat = none)) = true ∧ (decide ((s.homeCore? n.toNat).isNone = true)) = true)
    ∧ (let s : State := started 0x11 []; let n : BitVec 20 := 3; ((match s.queue? n.toNat with | some q => decide ((q.live.find? (fun l => l.opcode == 0x11 && l.issued && l.done.isNone && isCollective (leAt l.bytes 28 4) && !s.colls.any (fun c => c.queue == n.toNat && c.pos == l.pos))) = none) | _ => false)) = true)
    ∧ (let s : State := calling 0 0 1 0; let n : BitVec 20 := 3; ((match s.queue? n.toNat with | some q => (match (q.live.find? (fun l => l.opcode == 0x11 && l.issued && l.done.isNone && isCollective (leAt l.bytes 28 4) && !s.colls.any (fun c => c.queue == n.toNat && c.pos == l.pos))) with | some l => decide (leAt l.bytes 32 1 ≠ 1) | _ => false) | _ => false)) = true)
    ∧ (let s : State := calling 1 512 1 0; let u : State := calling 1 512 1 0; let n : BitVec 20 := 3; let seen : Seen := []; let q : Queue := collQueue 1 512; let l : Live := collLive 1 512; let r : CollStart := .ok (callColl 1 512); let x : Coll := callColl 1 512; (s.queue? n.toNat = some q ∧ (q.live.find? (fun l => l.opcode == 0x11 && l.issued && l.done.isNone && isCollective (leAt l.bytes 28 4) && !s.colls.any (fun c => c.queue == n.toNat && c.pos == l.pos))) = some l) ∧ ((leAt l.bytes 32 1 = 1) ∧ (s.homeCore? n.toNat).isSome = true ∧ (s.see seen).collAbsorb.collCheck n.toNat q l = (u, r)) ∧ (decide (r = .ok x)) = true)
    ∧ (let s : State := calling 1 512 1 1; let u : State := calling 1 512 1 1; let n : BitVec 20 := 3; let seen : Seen := []; let q : Queue := collQueue 1 512; let l : Live := collLive 1 512; let r : CollStart := .wait; (s.queue? n.toNat = some q ∧ (q.live.find? (fun l => l.opcode == 0x11 && l.issued && l.done.isNone && isCollective (leAt l.bytes 28 4) && !s.colls.any (fun c => c.queue == n.toNat && c.pos == l.pos))) = some l) ∧ ((leAt l.bytes 32 1 = 1) ∧ (s.homeCore? n.toNat).isSome = true ∧ (s.see seen).collAbsorb.collCheck n.toNat q l = (u, r)) ∧ (decide (r = .wait)) = true)
    ∧ (let s : State := calling 1 512 2 0; let u : State := calling 1 512 2 0; let n : BitVec 20 := 3; let seen : Seen := []; let q : Queue := collQueue 1 512; let l : Live := collLive 1 512; let r : CollStart := .fail 0x40; let st : Nat := 0x40; (s.queue? n.toNat = some q ∧ (q.live.find? (fun l => l.opcode == 0x11 && l.issued && l.done.isNone && isCollective (leAt l.bytes 28 4) && !s.colls.any (fun c => c.queue == n.toNat && c.pos == l.pos))) = some l) ∧ ((leAt l.bytes 32 1 = 1) ∧ (s.homeCore? n.toNat).isSome = true ∧ (s.see seen).collAbsorb.collCheck n.toNat q l = (u, r)) ∧ (decide (r = .fail st)) = true)
    ∧ (let s : State := ready; let n : BitVec 20 := 3; (decide (s.queue? n.toNat = none)) = true ∧ (decide ((s.homeCore? n.toNat).isNone = true)) = true)
    ∧ (let s : State := started 0x11 []; let n : BitVec 20 := 3; ((match s.queue? n.toNat with | some q => decide ((q.live.find? (fun l => l.opcode == 0x11 && l.issued && l.done.isNone && isCollective (leAt l.bytes 28 4) && !s.colls.any (fun c => c.queue == n.toNat && c.pos == l.pos))) = none) | _ => false)) = true)
    ∧ (let s : State := calling 0 0 1 0; let n : BitVec 20 := 3; ((match s.queue? n.toNat with | some q => (match (q.live.find? (fun l => l.opcode == 0x11 && l.issued && l.done.isNone && isCollective (leAt l.bytes 28 4) && !s.colls.any (fun c => c.queue == n.toNat && c.pos == l.pos))) with | some l => decide (leAt l.bytes 32 1 ≠ 2) | _ => false) | _ => false)) = true)
    ∧ (let s : State := calling 2 0 1 0; let u : State := calling 2 0 1 0; let n : BitVec 20 := 3; let seen : Seen := []; let q : Queue := collQueue 2 0; let l : Live := collLive 2 0; let r : CollStart := .ok (callColl 2 0); let x : Coll := callColl 2 0; (s.queue? n.toNat = some q ∧ (q.live.find? (fun l => l.opcode == 0x11 && l.issued && l.done.isNone && isCollective (leAt l.bytes 28 4) && !s.colls.any (fun c => c.queue == n.toNat && c.pos == l.pos))) = some l) ∧ ((leAt l.bytes 32 1 = 2) ∧ (s.homeCore? n.toNat).isSome = true ∧ (s.see seen).collAbsorb.collCheck n.toNat q l = (u, r)) ∧ (decide (r = .ok x)) = true)
    ∧ (let s : State := calling 2 0 1 1; let u : State := calling 2 0 1 1; let n : BitVec 20 := 3; let seen : Seen := []; let q : Queue := collQueue 2 0; let l : Live := collLive 2 0; let r : CollStart := .wait; (s.queue? n.toNat = some q ∧ (q.live.find? (fun l => l.opcode == 0x11 && l.issued && l.done.isNone && isCollective (leAt l.bytes 28 4) && !s.colls.any (fun c => c.queue == n.toNat && c.pos == l.pos))) = some l) ∧ ((leAt l.bytes 32 1 = 2) ∧ (s.homeCore? n.toNat).isSome = true ∧ (s.see seen).collAbsorb.collCheck n.toNat q l = (u, r)) ∧ (decide (r = .wait)) = true)
    ∧ (let s : State := calling 2 0 2 0; let u : State := calling 2 0 2 0; let n : BitVec 20 := 3; let seen : Seen := []; let q : Queue := collQueue 2 0; let l : Live := collLive 2 0; let r : CollStart := .fail 0x40; let st : Nat := 0x40; (s.queue? n.toNat = some q ∧ (q.live.find? (fun l => l.opcode == 0x11 && l.issued && l.done.isNone && isCollective (leAt l.bytes 28 4) && !s.colls.any (fun c => c.queue == n.toNat && c.pos == l.pos))) = some l) ∧ ((leAt l.bytes 32 1 = 2) ∧ (s.homeCore? n.toNat).isSome = true ∧ (s.see seen).collAbsorb.collCheck n.toNat q l = (u, r)) ∧ (decide (r = .fail st)) = true)
    ∧ (let s : State := ready; let n : BitVec 20 := 3; (decide (s.queue? n.toNat = none)) = true ∧ (decide ((s.homeCore? n.toNat).isNone = true)) = true)
    ∧ (let s : State := started 0x11 []; let n : BitVec 20 := 3; ((match s.queue? n.toNat with | some q => decide ((q.live.find? (fun l => l.opcode == 0x11 && l.issued && l.done.isNone && isCollective (leAt l.bytes 28 4) && !s.colls.any (fun c => c.queue == n.toNat && c.pos == l.pos))) = none) | _ => false)) = true)
    ∧ (let s : State := calling 0 0 1 0; let n : BitVec 20 := 3; ((match s.queue? n.toNat with | some q => (match (q.live.find? (fun l => l.opcode == 0x11 && l.issued && l.done.isNone && isCollective (leAt l.bytes 28 4) && !s.colls.any (fun c => c.queue == n.toNat && c.pos == l.pos))) with | some l => decide (leAt l.bytes 32 1 ≠ 3) | _ => false) | _ => false)) = true)
    ∧ (let s : State := calling 3 0 1 0; let u : State := calling 3 0 1 0; let n : BitVec 20 := 3; let seen : Seen := []; let q : Queue := collQueue 3 0; let l : Live := collLive 3 0; let r : CollStart := .ok (callColl 3 0); let x : Coll := callColl 3 0; (s.queue? n.toNat = some q ∧ (q.live.find? (fun l => l.opcode == 0x11 && l.issued && l.done.isNone && isCollective (leAt l.bytes 28 4) && !s.colls.any (fun c => c.queue == n.toNat && c.pos == l.pos))) = some l) ∧ ((leAt l.bytes 32 1 = 3) ∧ (s.homeCore? n.toNat).isSome = true ∧ (s.see seen).collAbsorb.collCheck n.toNat q l = (u, r)) ∧ (decide (r = .ok x)) = true)
    ∧ (let s : State := calling 3 0 1 1; let u : State := calling 3 0 1 1; let n : BitVec 20 := 3; let seen : Seen := []; let q : Queue := collQueue 3 0; let l : Live := collLive 3 0; let r : CollStart := .wait; (s.queue? n.toNat = some q ∧ (q.live.find? (fun l => l.opcode == 0x11 && l.issued && l.done.isNone && isCollective (leAt l.bytes 28 4) && !s.colls.any (fun c => c.queue == n.toNat && c.pos == l.pos))) = some l) ∧ ((leAt l.bytes 32 1 = 3) ∧ (s.homeCore? n.toNat).isSome = true ∧ (s.see seen).collAbsorb.collCheck n.toNat q l = (u, r)) ∧ (decide (r = .wait)) = true)
    ∧ (let s : State := calling 3 0 2 0; let u : State := calling 3 0 2 0; let n : BitVec 20 := 3; let seen : Seen := []; let q : Queue := collQueue 3 0; let l : Live := collLive 3 0; let r : CollStart := .fail 0x40; let st : Nat := 0x40; (s.queue? n.toNat = some q ∧ (q.live.find? (fun l => l.opcode == 0x11 && l.issued && l.done.isNone && isCollective (leAt l.bytes 28 4) && !s.colls.any (fun c => c.queue == n.toNat && c.pos == l.pos))) = some l) ∧ ((leAt l.bytes 32 1 = 3) ∧ (s.homeCore? n.toNat).isSome = true ∧ (s.see seen).collAbsorb.collCheck n.toNat q l = (u, r)) ∧ (decide (r = .fail st)) = true)
    ∧ (let s : State := ready; let n : BitVec 20 := 3; (decide (s.queue? n.toNat = none)) = true ∧ (decide ((s.homeCore? n.toNat).isNone = true)) = true)
    ∧ (let s : State := started 0x11 []; let n : BitVec 20 := 3; ((match s.queue? n.toNat with | some q => decide ((q.live.find? (fun l => l.opcode == 0x11 && l.issued && l.done.isNone && isCollective (leAt l.bytes 28 4) && !s.colls.any (fun c => c.queue == n.toNat && c.pos == l.pos))) = none) | _ => false)) = true)
    ∧ (let s : State := calling 0 0 1 0; let n : BitVec 20 := 3; ((match s.queue? n.toNat with | some q => (match (q.live.find? (fun l => l.opcode == 0x11 && l.issued && l.done.isNone && isCollective (leAt l.bytes 28 4) && !s.colls.any (fun c => c.queue == n.toNat && c.pos == l.pos))) with | some l => decide (leAt l.bytes 32 1 ≠ 4) | _ => false) | _ => false)) = true)
    ∧ (let s : State := calling 4 0 1 0; let u : State := calling 4 0 1 0; let n : BitVec 20 := 3; let seen : Seen := []; let q : Queue := collQueue 4 0; let l : Live := collLive 4 0; let r : CollStart := .ok (callColl 4 0); let x : Coll := callColl 4 0; (s.queue? n.toNat = some q ∧ (q.live.find? (fun l => l.opcode == 0x11 && l.issued && l.done.isNone && isCollective (leAt l.bytes 28 4) && !s.colls.any (fun c => c.queue == n.toNat && c.pos == l.pos))) = some l) ∧ ((leAt l.bytes 32 1 = 4) ∧ (s.homeCore? n.toNat).isSome = true ∧ (s.see seen).collAbsorb.collCheck n.toNat q l = (u, r)) ∧ (decide (r = .ok x)) = true)
    ∧ (let s : State := calling 4 0 1 1; let u : State := calling 4 0 1 1; let n : BitVec 20 := 3; let seen : Seen := []; let q : Queue := collQueue 4 0; let l : Live := collLive 4 0; let r : CollStart := .wait; (s.queue? n.toNat = some q ∧ (q.live.find? (fun l => l.opcode == 0x11 && l.issued && l.done.isNone && isCollective (leAt l.bytes 28 4) && !s.colls.any (fun c => c.queue == n.toNat && c.pos == l.pos))) = some l) ∧ ((leAt l.bytes 32 1 = 4) ∧ (s.homeCore? n.toNat).isSome = true ∧ (s.see seen).collAbsorb.collCheck n.toNat q l = (u, r)) ∧ (decide (r = .wait)) = true)
    ∧ (let s : State := calling 4 0 2 0; let u : State := calling 4 0 2 0; let n : BitVec 20 := 3; let seen : Seen := []; let q : Queue := collQueue 4 0; let l : Live := collLive 4 0; let r : CollStart := .fail 0x40; let st : Nat := 0x40; (s.queue? n.toNat = some q ∧ (q.live.find? (fun l => l.opcode == 0x11 && l.issued && l.done.isNone && isCollective (leAt l.bytes 28 4) && !s.colls.any (fun c => c.queue == n.toNat && c.pos == l.pos))) = some l) ∧ ((leAt l.bytes 32 1 = 4) ∧ (s.homeCore? n.toNat).isSome = true ∧ (s.see seen).collAbsorb.collCheck n.toNat q l = (u, r)) ∧ (decide (r = .fail st)) = true)
    ∧ (let s : State := ready; let n : BitVec 20 := 3; (decide (s.queue? n.toNat = none)) = true ∧ (decide ((s.homeCore? n.toNat).isNone = true)) = true)
    ∧ (let s : State := started 0x11 []; let n : BitVec 20 := 3; ((match s.queue? n.toNat with | some q => decide ((q.live.find? (fun l => l.opcode == 0x11 && l.issued && l.done.isNone && isCollective (leAt l.bytes 28 4) && !s.colls.any (fun c => c.queue == n.toNat && c.pos == l.pos))) = none) | _ => false)) = true)
    ∧ (let s : State := calling 0 0 1 0; let n : BitVec 20 := 3; ((match s.queue? n.toNat with | some q => (match (q.live.find? (fun l => l.opcode == 0x11 && l.issued && l.done.isNone && isCollective (leAt l.bytes 28 4) && !s.colls.any (fun c => c.queue == n.toNat && c.pos == l.pos))) with | some l => decide (leAt l.bytes 32 1 < 5) | _ => false) | _ => false)) = true)
    ∧ (let s : State := calling 5 2 1 0; let u : State := calling 5 2 1 0; let n : BitVec 20 := 3; let seen : Seen := []; let q : Queue := collQueue 5 2; let l : Live := collLive 5 2; let r : CollStart := .ok (callColl 5 2); let x : Coll := callColl 5 2; (s.queue? n.toNat = some q ∧ (q.live.find? (fun l => l.opcode == 0x11 && l.issued && l.done.isNone && isCollective (leAt l.bytes 28 4) && !s.colls.any (fun c => c.queue == n.toNat && c.pos == l.pos))) = some l) ∧ ((leAt l.bytes 32 1 = 5 ∧ bitAt (leAt l.bytes 52 4) 4 = false) ∧ (s.homeCore? n.toNat).isSome = true ∧ (s.see seen).collAbsorb.collCheck n.toNat q l = (u, r)) ∧ (decide (r = .ok x) && decide ((u.bar (x.param % 16)).run = none)) = true)
    ∧ (let s : State := calling 5 2 1 1; let u : State := calling 5 2 1 1; let n : BitVec 20 := 3; let seen : Seen := []; let q : Queue := collQueue 5 2; let l : Live := collLive 5 2; let r : CollStart := .wait; (s.queue? n.toNat = some q ∧ (q.live.find? (fun l => l.opcode == 0x11 && l.issued && l.done.isNone && isCollective (leAt l.bytes 28 4) && !s.colls.any (fun c => c.queue == n.toNat && c.pos == l.pos))) = some l) ∧ ((leAt l.bytes 32 1 = 5 ∧ bitAt (leAt l.bytes 52 4) 4 = false) ∧ (s.homeCore? n.toNat).isSome = true ∧ (s.see seen).collAbsorb.collCheck n.toNat q l = (u, r)) ∧ (decide (r = .wait)) = true)
    ∧ (let s : State := calling 5 2 2 0; let u : State := calling 5 2 2 0; let n : BitVec 20 := 3; let seen : Seen := []; let q : Queue := collQueue 5 2; let l : Live := collLive 5 2; let r : CollStart := .fail 0x40; let st : Nat := 0x40; (s.queue? n.toNat = some q ∧ (q.live.find? (fun l => l.opcode == 0x11 && l.issued && l.done.isNone && isCollective (leAt l.bytes 28 4) && !s.colls.any (fun c => c.queue == n.toNat && c.pos == l.pos))) = some l) ∧ ((leAt l.bytes 32 1 = 5 ∧ bitAt (leAt l.bytes 52 4) 4 = false) ∧ (s.homeCore? n.toNat).isSome = true ∧ (s.see seen).collAbsorb.collCheck n.toNat q l = (u, r)) ∧ (decide (r = .fail st)) = true)
    ∧ (let s : State := (calling 5 2 1 0).setBar 2 { run := some { members := [], rank := 0, seq := 9 } }; let u : State := (calling 5 2 1 0).setBar 2 { run := some { members := [], rank := 0, seq := 9 } }; let n : BitVec 20 := 3; let seen : Seen := []; let q : Queue := collQueue 5 2; let l : Live := collLive 5 2; let r : CollStart := .ok (callColl 5 2); let x : Coll := callColl 5 2; (s.queue? n.toNat = some q ∧ (q.live.find? (fun l => l.opcode == 0x11 && l.issued && l.done.isNone && isCollective (leAt l.bytes 28 4) && !s.colls.any (fun c => c.queue == n.toNat && c.pos == l.pos))) = some l) ∧ ((leAt l.bytes 32 1 = 5 ∧ bitAt (leAt l.bytes 52 4) 4 = false) ∧ (s.homeCore? n.toNat).isSome = true ∧ (s.see seen).collAbsorb.collCheck n.toNat q l = (u, r)) ∧ (decide (r = .ok x) && decide ((u.bar (x.param % 16)).run ≠ none)) = true)
    ∧ (let s : State := ready; let n : BitVec 20 := 3; (decide (s.queue? n.toNat = none)) = true ∧ (decide ((s.homeCore? n.toNat).isNone = true)) = true)
    ∧ (let s : State := started 0x11 []; let n : BitVec 20 := 3; ((match s.queue? n.toNat with | some q => decide ((q.live.find? (fun l => l.opcode == 0x11 && l.issued && l.done.isNone && isCollective (leAt l.bytes 28 4) && !s.colls.any (fun c => c.queue == n.toNat && c.pos == l.pos))) = none) | _ => false)) = true)
    ∧ (let s : State := calling 0 0 1 0; let n : BitVec 20 := 3; ((match s.queue? n.toNat with | some q => (match (q.live.find? (fun l => l.opcode == 0x11 && l.issued && l.done.isNone && isCollective (leAt l.bytes 28 4) && !s.colls.any (fun c => c.queue == n.toNat && c.pos == l.pos))) with | some l => decide (leAt l.bytes 32 1 ≠ 5 ∨ bitAt (leAt l.bytes 52 4) 4 = false) | _ => false) | _ => false)) = true)
    ∧ (let s : State := calling 5 18 1 0; let u : State := calling 5 18 1 0; let n : BitVec 20 := 3; let seen : Seen := []; let q : Queue := collQueue 5 18; let l : Live := collLive 5 18; let r : CollStart := .ok (callColl 5 18); let x : Coll := callColl 5 18; (s.queue? n.toNat = some q ∧ (q.live.find? (fun l => l.opcode == 0x11 && l.issued && l.done.isNone && isCollective (leAt l.bytes 28 4) && !s.colls.any (fun c => c.queue == n.toNat && c.pos == l.pos))) = some l) ∧ ((leAt l.bytes 32 1 = 5 ∧ bitAt (leAt l.bytes 52 4) 4 = true) ∧ (s.homeCore? n.toNat).isSome = true ∧ (s.see seen).collAbsorb.collCheck n.toNat q l = (u, r)) ∧ (decide (r = .ok x) && decide ((u.bar (x.param % 16)).holder = none ∨ (u.bar (x.param % 16)).holder = some (cidPart x.cid))) = true)
    ∧ (let s : State := calling 5 18 1 1; let u : State := calling 5 18 1 1; let n : BitVec 20 := 3; let seen : Seen := []; let q : Queue := collQueue 5 18; let l : Live := collLive 5 18; let r : CollStart := .wait; (s.queue? n.toNat = some q ∧ (q.live.find? (fun l => l.opcode == 0x11 && l.issued && l.done.isNone && isCollective (leAt l.bytes 28 4) && !s.colls.any (fun c => c.queue == n.toNat && c.pos == l.pos))) = some l) ∧ ((leAt l.bytes 32 1 = 5 ∧ bitAt (leAt l.bytes 52 4) 4 = true) ∧ (s.homeCore? n.toNat).isSome = true ∧ (s.see seen).collAbsorb.collCheck n.toNat q l = (u, r)) ∧ (decide (r = .wait)) = true)
    ∧ (let s : State := calling 5 18 2 0; let u : State := calling 5 18 2 0; let n : BitVec 20 := 3; let seen : Seen := []; let q : Queue := collQueue 5 18; let l : Live := collLive 5 18; let r : CollStart := .fail 0x40; let st : Nat := 0x40; (s.queue? n.toNat = some q ∧ (q.live.find? (fun l => l.opcode == 0x11 && l.issued && l.done.isNone && isCollective (leAt l.bytes 28 4) && !s.colls.any (fun c => c.queue == n.toNat && c.pos == l.pos))) = some l) ∧ ((leAt l.bytes 32 1 = 5 ∧ bitAt (leAt l.bytes 52 4) 4 = true) ∧ (s.homeCore? n.toNat).isSome = true ∧ (s.see seen).collAbsorb.collCheck n.toNat q l = (u, r)) ∧ (decide (r = .fail st)) = true)
    ∧ (let s : State := (calling 5 18 1 0).setBar 2 { holder := some 9 }; let u : State := (calling 5 18 1 0).setBar 2 { holder := some 9 }; let n : BitVec 20 := 3; let seen : Seen := []; let q : Queue := collQueue 5 18; let l : Live := collLive 5 18; let r : CollStart := .ok (callColl 5 18); let x : Coll := callColl 5 18; (s.queue? n.toNat = some q ∧ (q.live.find? (fun l => l.opcode == 0x11 && l.issued && l.done.isNone && isCollective (leAt l.bytes 28 4) && !s.colls.any (fun c => c.queue == n.toNat && c.pos == l.pos))) = some l) ∧ ((leAt l.bytes 32 1 = 5 ∧ bitAt (leAt l.bytes 52 4) 4 = true) ∧ (s.homeCore? n.toNat).isSome = true ∧ (s.see seen).collAbsorb.collCheck n.toNat q l = (u, r)) ∧ (decide (r = .ok x) && decide ((u.bar (x.param % 16)).holder ≠ none) && decide ((u.bar (x.param % 16)).holder ≠ some (cidPart x.cid))) = true)
    ∧ (let s : State := ready; let u : State := ready; let i : Nat := 0; let seen : Seen := []; (u = (s.see seen).collAbsorb) ∧ (decide (u.colls[i]? = none)) = true ∧ (decide (s.colls = []) && decide (s.collEnds = []) && decide (s.redEnds = [])) = true)
    ∧ (let s : State := { ready with colls := [barColl 9] }; let u : State := { ready with colls := [barColl 9] }; let i : Nat := 0; let seen : Seen := []; (u = (s.see seen).collAbsorb) ∧ ((match u.colls[i]? with | some x => decide (x.op = 5 ∨ (u.homeCore? x.queue).isNone = true) | _ => false)) = true)
    ∧ (let s : State := { calling 0 0 1 0 with colls := [callColl 0 0] }; let u : State := { calling 0 0 1 0 with colls := [callColl 0 0] }; let i : Nat := 0; let d : Fin 1024 := 0; let seen : Seen := []; (u = (s.see seen).collAbsorb) ∧ ((match u.colls[i]? with | some x => decide (x.op ≠ 5) && decide ((u.homeCore? x.queue).isSome = true) && decide (x.failed = none) && decide (x.dests.contains d.val = true) && decide (x.counts.getD d 0 < x.chunks) | _ => false)) = true)
    ∧ (let s : State := { calling 0 0 1 0 with colls := [{ callColl 0 0 with failed := some (1, 0) }] }; let u : State := { calling 0 0 1 0 with colls := [{ callColl 0 0 with failed := some (1, 0) }] }; let i : Nat := 0; let d : Fin 1024 := 0; let seen : Seen := []; (u = (s.see seen).collAbsorb) ∧ ((match u.colls[i]? with | some x => decide (x.op ≠ 5) && decide ((u.homeCore? x.queue).isSome = true) && decide (x.failed ≠ none ∨ x.dests.contains d.val = false ∨ x.chunks ≤ x.counts.getD d 0) | _ => false)) = true)
    ∧ (let s : State := ready; let u : State := ready; let i : Nat := 0; (u = s.collAbsorb) ∧ (decide (u.colls[i]? = none)) = true)
    ∧ (let s : State := { ready with colls := [barColl 9] }; let u : State := { ready with colls := [barColl 9] }; let i : Nat := 0; (u = s.collAbsorb) ∧ ((match u.colls[i]? with | some x => decide (x.op = 5 ∨ x.failed ≠ none ∨ (u.homeCore? x.queue).isNone = true ∨ x.dests.all (fun d => decide (x.chunks ≤ x.counts.getD d 0)) = false) | _ => false)) = true)
    ∧ (let s : State := { calling 0 0 1 0 with colls := [{ callColl 0 0 with counts := [(0, 1)] }] }; let u : State := { calling 0 0 1 0 with colls := [{ callColl 0 0 with counts := [(0, 1)] }] }; let i : Nat := 0; (u = s.collAbsorb) ∧ ((match u.colls[i]? with | some x => decide (x.op ≠ 5) && decide (x.failed = none) && decide ((u.homeCore? x.queue).isSome = true) && decide (x.dests.all (fun d => decide (x.chunks ≤ x.counts.getD d 0)) = true) | _ => false)) = true)
    ∧ (let s : State := ready; let u : State := ready; let i : Nat := 0; (u = s.collAbsorb) ∧ (decide (u.colls[i]? = none)) = true)
    ∧ (let s : State := { calling 0 0 1 0 with colls := [callColl 0 0] }; let u : State := { calling 0 0 1 0 with colls := [callColl 0 0] }; let i : Nat := 0; (u = s.collAbsorb) ∧ ((match u.colls[i]? with | some x => decide (x.failed = none) | _ => false)) = true)
    ∧ (let s : State := { calling 0 0 1 0 with colls := [{ callColl 0 0 with failed := some (1, 0) }] }; let u : State := { calling 0 0 1 0 with colls := [{ callColl 0 0 with failed := some (1, 0) }] }; let i : Nat := 0; (u = s.collAbsorb) ∧ ((match u.colls[i]? with | some x => (match x.failed with | some (st, rank) => decide (x.dests.all (fun d => (x.members.getD d ⟨3, 0, 0, 0, 0, 0, 0⟩).sig == 0xFFFFFFFF) = true) | _ => false) | _ => false)) = true) := by
  refine ⟨?_, ?_, ?_, ?_, ?_, ?_, ?_, ?_, ?_, ?_, ?_, ?_, ?_, ?_, ?_, ?_, ?_, ?_, ?_, ?_, ?_, ?_, ?_, ?_, ?_, ?_, ?_, ?_, ?_, ?_, ?_, ?_, ?_, ?_, ?_, ?_, ?_, ?_, ?_, ?_, ?_, ?_, ?_, ?_, ?_, ?_, ?_, ?_, ?_, ?_, ?_, ?_, ?_, ?_⟩ <;> decide +kernel

/-- States and operands that meet the hypotheses of DroverTransfers. -/
theorem witness_DroverTransfers :
    (let s : State := running (word 0x39 3 1 2 0) (gs 0x2000 5); let c : CoreId := 8; let w : Nat := word 0x39 3 1 2 0; (Issues s c .siga w) ∧ (decide (2 ^ 54 ≤ ((s.core c).gr (fRa w)).toNat ∨ (bits ((s.core c).gr (fRa w)).toNat 52 2 ≠ 1 ∧ bits ((s.core c).gr (fRa w)).toNat 52 2 ≠ 2))) = true)
    ∧ (let s : State := sigaing 0x10000020001000 1 0; let u : State := ((sigaing 0x10000020001000 1 0).wordAdd 1024 1 0x20001000 7).1; let c : CoreId := 8; let w : Nat := word 0x39 3 1 2 0; let ga : Nat := 0x10000020001000; let old : Nat := 5; let r : Except MemErr Nat := .ok 5; (Issues s c .siga w ∧ ga = ((s.core c).gr (fRa w)).toNat ∧ ga < 2 ^ 54 ∧ (ga / 2 ^ 52 = 1 ∨ ga / 2 ^ 52 = 2)) ∧ (s.wordAdd (s.core c).cid (ga / 2 ^ 52) (ga % 2 ^ 52) ((s.core c).gr (fRb w)).toNat = (u, r)) ∧ (decide (ga % 8 = 0) && decide (r = .ok old)) = true)
    ∧ (let s : State := sigaing 0x10000020001000 2 0; let u : State := sigaing 0x10000020001000 2 0; let c : CoreId := 8; let w : Nat := word 0x39 3 1 2 0; let ga : Nat := 0x10000020001000; let r : Except MemErr Nat := .error .ue; (Issues s c .siga w ∧ ga = ((s.core c).gr (fRa w)).toNat ∧ ga < 2 ^ 54 ∧ (ga / 2 ^ 52 = 1 ∨ ga / 2 ^ 52 = 2)) ∧ (s.wordAdd (s.core c).cid (ga / 2 ^ 52) (ga % 2 ^ 52) ((s.core c).gr (fRb w)).toNat = (u, r)) ∧ (decide (ga % 8 = 0) && decide (r = .error .ue)) = true)
    ∧ (let s : State := sigaing 0x10000020001000 1 1; let u : State := sigaing 0x10000020001000 1 1; let c : CoreId := 8; let w : Nat := word 0x39 3 1 2 0; let ga : Nat := 0x10000020001000; let r : Except MemErr Nat := .error .wait; (Issues s c .siga w ∧ ga = ((s.core c).gr (fRa w)).toNat ∧ ga < 2 ^ 54 ∧ (ga / 2 ^ 52 = 1 ∨ ga / 2 ^ 52 = 2)) ∧ (s.wordAdd (s.core c).cid (ga / 2 ^ 52) (ga % 2 ^ 52) ((s.core c).gr (fRb w)).toNat = (u, r)) ∧ (decide (ga % 8 = 0) && decide (r = .error .wait)) = true)
    ∧ (let s : State := sigaing 0x10000000001000 1 0; let u : State := (sigaing 0x10000000001000 1 0).count (Reg.PART_CID_REJ.COUNT 1); let c : CoreId := 8; let w : Nat := word 0x39 3 1 2 0; let ga : Nat := 0x10000000001000; let r : Except MemErr Nat := .error .cid; (Issues s c .siga w ∧ ga = ((s.core c).gr (fRa w)).toNat ∧ ga < 2 ^ 54 ∧ (ga / 2 ^ 52 = 1 ∨ ga / 2 ^ 52 = 2)) ∧ (s.wordAdd (s.core c).cid (ga / 2 ^ 52) (ga % 2 ^ 52) ((s.core c).gr (fRb w)).toNat = (u, r)) ∧ (decide (ga % 8 = 0) && decide (r = .error .cid)) = true)
    ∧ (let s : State := sigaing 0x10000000001004 1 0; let u : State := (sigaing 0x10000000001004 1 0).count (Reg.PART_CID_REJ.COUNT 1); let c : CoreId := 8; let w : Nat := word 0x39 3 1 2 0; let ga : Nat := 0x10000000001004; let r : Except MemErr Nat := .error .cid; (Issues s c .siga w ∧ ga = ((s.core c).gr (fRa w)).toNat ∧ ga < 2 ^ 54 ∧ (ga / 2 ^ 52 = 1 ∨ ga / 2 ^ 52 = 2)) ∧ (s.wordAdd (s.core c).cid (ga / 2 ^ 52) (ga % 2 ^ 52) ((s.core c).gr (fRb w)).toNat = (u, r)) ∧ (decide (ga % 8 ≠ 0) && decide (s.memCheck (s.core c).cid (ga / 2 ^ 52) (ga % 2 ^ 52) 8 true = .error .cid)) = true)
    ∧ (let s : State := sigaing 0x10000020001004 1 0; let u : State := ((sigaing 0x10000020001004 1 0).wordAdd 1024 1 0x20001004 7).1; let c : CoreId := 8; let w : Nat := word 0x39 3 1 2 0; let ga : Nat := 0x10000020001004; let r : Except MemErr Nat := .ok 0; (Issues s c .siga w ∧ ga = ((s.core c).gr (fRa w)).toNat ∧ ga < 2 ^ 54 ∧ (ga / 2 ^ 52 = 1 ∨ ga / 2 ^ 52 = 2)) ∧ (s.wordAdd (s.core c).cid (ga / 2 ^ 52) (ga % 2 ^ 52) ((s.core c).gr (fRb w)).toNat = (u, r)) ∧ (decide (ga % 8 ≠ 0) && decide (s.memCheck (s.core c).cid (ga / 2 ^ 52) (ga % 2 ^ 52) 8 true = .ok ())) = true)
    ∧ (let s : State := running (word 0x58 4 1 0 0); let c : CoreId := 8; let w : Nat := word 0x58 4 1 0 0; (Issues s c .dmov w) ∧ (decide (4 ≤ fRd w)) = true)
    ∧ (let s : State := running (word 0x58 1 1 0 0) (gs 0x30000 0); let c : CoreId := 8; let w : Nat := word 0x58 1 1 0 0; (Issues s c .dmov w) ∧ (decide (fRd w < 4) && decide (s.spadOut c ((s.core c).gr (fRa w)).toNat 32 = true)) = true)
    ∧ (let s : State := running (word 0x58 1 1 0 0) (gs 0x2001 0); let c : CoreId := 8; let w : Nat := word 0x58 1 1 0 0; (Issues s c .dmov w) ∧ (decide (fRd w < 4) && decide (s.spadOut c ((s.core c).gr (fRa w)).toNat 32 = false) && decide (((s.core c).gr (fRa w)).toNat % 32 ≠ 0)) = true)
    ∧ (let s : State := running (word 0x58 1 1 0 0) { gs 0x2000 0 with chans := [(1, { queue := List.replicate 8 { id := 0, desc := [], ev := 0, cid := 0 } })] }; let c : CoreId := 8; let w : Nat := word 0x58 1 1 0 0; (Issues s c .dmov w) ∧ (decide (fRd w < 4) && decide (s.spadOut c ((s.core c).gr (fRa w)).toNat 32 = false) && decide (((s.core c).gr (fRa w)).toNat % 32 = 0) && decide (8 ≤ (((s.core c).chans.getD (fRd w) {}).queue.filter (fun x => !x.taken)).length)) = true)
    ∧ (let s : State := running (word 0x58 1 1 0 0) (gs 0x2000 0); let c : CoreId := 8; let w : Nat := word 0x58 1 1 0 0; (Issues s c .dmov w) ∧ (decide (fRd w < 4) && decide (s.spadOut c ((s.core c).gr (fRa w)).toNat 32 = false) && decide (((s.core c).gr (fRa w)).toNat % 32 = 0) && decide ((((s.core c).chans.getD (fRd w) {}).queue.filter (fun x => !x.taken)).length < 8)) = true)
    ∧ (let s : State := running (word 0x54 4 0 0 0); let c : CoreId := 8; let w : Nat := word 0x54 4 0 0 0; (Issues s c .tstream w) ∧ (decide (tenReserved w = true ∨ tileFmt (fFmt w) = false)) = true)
    ∧ (let s : State := running (word 0x54 0 0 1 0); let c : CoreId := 8; let w : Nat := word 0x54 0 0 1 0; (Issues s c .tstream w) ∧ (decide (tenReserved w = false) && decide (tileFmt (fFmt w) = true) && decide (s.get (Reg.PART_ALLOC.STREAM ((s.coreOwner? c).getD (cidPart (s.core c).cid))) = 0)) = true)
    ∧ (let s : State := (running (word 0x54 0 0 1 0)).put (Reg.PART_ALLOC.STREAM 0) 1; let c : CoreId := 8; let w : Nat := word 0x54 0 0 1 0; (Issues s c .tstream w) ∧ (decide (tenReserved w = false) && decide (tileFmt (fFmt w) = true) && decide (s.get (Reg.PART_ALLOC.STREAM ((s.coreOwner? c).getD (cidPart (s.core c).cid))) = 1) && decide (((s.core c).chans.getD (fRb w % 4) {}).tiles.length < 4)) = true)
    ∧ (let s : State := (running (word 0x54 0 0 1 0) { chans := [(1, { tiles := [(0, []), (0, []), (0, []), (0, [])] })] }).put (Reg.PART_ALLOC.STREAM 0) 1; let c : CoreId := 8; let w : Nat := word 0x54 0 0 1 0; (Issues s c .tstream w) ∧ (decide (tenReserved w = false) && decide (tileFmt (fFmt w) = true) && decide (s.get (Reg.PART_ALLOC.STREAM ((s.coreOwner? c).getD (cidPart (s.core c).cid))) = 1) && decide (4 ≤ ((s.core c).chans.getD (fRb w % 4) {}).tiles.length)) = true)
    ∧ (let s : State := ready; let c : CoreId := 8; let ch : Fin 4 := 1; (((s.core c).chans.getD ch {}).queue = []))
    ∧ (let s : State := dmoving true 1; let c : CoreId := 8; let ch : Fin 4 := 1; let x : Xfer := dmovXfer true 1; let rest : List Xfer := []; let ws : List Word := []; (((s.core c).chans.getD ch {}).queue = x :: rest ∧ ws = (if dConv x.desc = 0 then [] else s.profileWords (c / 64) (dConv x.desc))) ∧ (decide (x.taken = true ∨ s.disabled ⟨.drover, c / 64, 0⟩ = true ∨ s.inP2 = true)) = true)
    ∧ (let s : State := dmoving false 0; let c : CoreId := 8; let ch : Fin 4 := 1; let x : Xfer := dmovXfer false 0; let rest : List Xfer := []; let ws : List Word := []; (((s.core c).chans.getD ch {}).queue = x :: rest ∧ ws = (if dConv x.desc = 0 then [] else s.profileWords (c / 64) (dConv x.desc))) ∧ (decide (x.taken = false) && decide (s.disabled ⟨.drover, c / 64, 0⟩ = false) && decide (s.inP2 = false) && decide (s.descBad c x ws = true)) = true)
    ∧ (let s : State := dmoving false 1; let c : CoreId := 8; let ch : Fin 4 := 1; let x : Xfer := dmovXfer false 1; let rest : List Xfer := []; let ws : List Word := []; (((s.core c).chans.getD ch {}).queue = x :: rest ∧ ws = (if dConv x.desc = 0 then [] else s.profileWords (c / 64) (dConv x.desc))) ∧ (decide (x.taken = false) && decide (s.disabled ⟨.drover, c / 64, 0⟩ = false) && decide (s.inP2 = false) && decide (s.descBad c x ws = false)) = true)
    ∧ (let s : State := ready; let c : CoreId := 8; let ch : Fin 4 := 1; (((s.core c).chans.getD ch {}).queue = []))
    ∧ (let s : State := dmoving false 1; let c : CoreId := 8; let ch : Fin 4 := 1; let x : Xfer := dmovXfer false 1; let rest : List Xfer := []; (((s.core c).chans.getD ch {}).queue = x :: rest) ∧ (decide (x.taken = false ∨ x.stopped = true ∨ s.disabled ⟨.drover, c / 64, 0⟩ = true)) = true)
    ∧ (let s : State := (dmoved (dmovTo 1 0x20001000)).put Reg.TALLY_STS.CAP_LOW 1; let c : CoreId := 8; let ch : Fin 4 := 1; let seen : Seen := []; let x : Xfer := dmovTo 1 0x20001000; let rest : List Xfer := []; (((s.core c).chans.getD ch {}).queue = x :: rest) ∧ (decide (x.taken = true) && decide (x.stopped = false) && decide (s.disabled ⟨.drover, c / 64, 0⟩ = false) && decide (x.moved = false) && decide ((s.see seen).xferGrant c x.desc = false)) = true)
    ∧ (let s : State := dmoved { dmovXfer true 1 with moved := true }; let c : CoreId := 8; let ch : Fin 4 := 1; let x : Xfer := { dmovXfer true 1 with moved := true }; let rest : List Xfer := []; (((s.core c).chans.getD ch {}).queue = x :: rest) ∧ (decide (x.taken = true) && decide (x.stopped = false) && decide (s.disabled ⟨.drover, c / 64, 0⟩ = false) && decide (x.moved = true)) = true)
    ∧ (let s : State := dmoved { dmovXfer true 1 with got := 64 }; let c : CoreId := 8; let ch : Fin 4 := 1; let seen : Seen := []; let x : Xfer := { dmovXfer true 1 with got := 64 }; let rest : List Xfer := []; (((s.core c).chans.getD ch {}).queue = x :: rest) ∧ (decide (x.taken = true) && decide (x.stopped = false) && decide (s.disabled ⟨.drover, c / 64, 0⟩ = false) && decide (x.moved = false) && decide ((s.see seen).xferGrant c x.desc = true) && decide (dSpace (leAt x.desc 8 8) ≠ 3) && decide (dConv x.desc = 0) && decide (dLen x.desc ≤ x.got)) = true)
    ∧ (let s : State := dmoved { dmovXfer true 1 with desc := List.replicate 14 0 ++ [0x30] ++ List.replicate 17 0 }; let c : CoreId := 8; let ch : Fin 4 := 1; let seen : Seen := []; let x : Xfer := { dmovXfer true 1 with desc := List.replicate 14 0 ++ [0x30] ++ List.replicate 17 0 }; let rest : List Xfer := []; (((s.core c).chans.getD ch {}).queue = x :: rest) ∧ (decide (x.taken = true) && decide (x.stopped = false) && decide (s.disabled ⟨.drover, c / 64, 0⟩ = false) && decide (x.moved = false) && decide ((s.see seen).xferGrant c x.desc = true) && decide (dSpace (leAt x.desc 8 8) = 3)) = true)
    ∧ (let s : State := dmoved (dmovTo 0 0x2000); let u : State := dmoved (dmovTo 0 0x2000); let v : State := dplaced (dmovTo 0 0x2000); let c : CoreId := 8; let ch : Fin 4 := 1; let seen : Seen := []; let x : Xfer := dmovTo 0 0x2000; let rest : List Xfer := []; let bs : List Byte := List.replicate 64 0; let r : BufRes Unit := .ok (); (((s.core c).chans.getD ch {}).queue = x :: rest ∧ x.taken = true ∧ x.stopped = false ∧ x.moved = false ∧ s.disabled ⟨.drover, c / 64, 0⟩ = false) ∧ ((s.see seen).xferGrant c x.desc = true ∧ dSpace (leAt x.desc 8 8) ≠ 3 ∧ dConv x.desc = 0 ∧ x.got < dLen x.desc ∧ dLen x.desc ≤ x.got + 4096) ∧ ((s.see seen).bufRead x.cid (dSrcBuf c x.desc) x.got (dLen x.desc - x.got) = (u, .ok bs)) ∧ (u.placeAt (dDstBuf c x.desc) (xferTile c ch x x.got bs) { engine := 0, write := true, qpn := none } = (v, r)) ∧ (decide (r = .ok ())) = true)
    ∧ (let s : State := dmoved (dmovTo 0 0x10000000000); let u : State := dmoved (dmovTo 0 0x10000000000); let v : State := dplaced (dmovTo 0 0x10000000000); let c : CoreId := 8; let ch : Fin 4 := 1; let seen : Seen := []; let x : Xfer := dmovTo 0 0x10000000000; let rest : List Xfer := []; let bs : List Byte := List.replicate 64 0; let r : BufRes Unit := .err .cid; (((s.core c).chans.getD ch {}).queue = x :: rest ∧ x.taken = true ∧ x.stopped = false ∧ x.moved = false ∧ s.disabled ⟨.drover, c / 64, 0⟩ = false) ∧ ((s.see seen).xferGrant c x.desc = true ∧ dSpace (leAt x.desc 8 8) ≠ 3 ∧ dConv x.desc = 0 ∧ x.got < dLen x.desc ∧ dLen x.desc ≤ x.got + 4096) ∧ ((s.see seen).bufRead x.cid (dSrcBuf c x.desc) x.got (dLen x.desc - x.got) = (u, .ok bs)) ∧ (u.placeAt (dDstBuf c x.desc) (xferTile c ch x x.got bs) { engine := 0, write := true, qpn := none } = (v, r)) ∧ (decide (r = .err .cid)) = true)
    ∧ (let s : State := (dmoved (dmovTo 1 0x20001000)).put (Reg.MEM_SET_W0.STATE 0) 2; let u : State := (dmoved (dmovTo 1 0x20001000)).put (Reg.MEM_SET_W0.STATE 0) 2; let v : State := (dmoved (dmovTo 1 0x20001000)).put (Reg.MEM_SET_W0.STATE 0) 2; let c : CoreId := 8; let ch : Fin 4 := 1; let seen : Seen := []; let x : Xfer := dmovTo 1 0x20001000; let rest : List Xfer := []; let bs : List Byte := List.replicate 64 0; let r : BufRes Unit := .err .ue; (((s.core c).chans.getD ch {}).queue = x :: rest ∧ x.taken = true ∧ x.stopped = false ∧ x.moved = false ∧ s.disabled ⟨.drover, c / 64, 0⟩ = false) ∧ ((s.see seen).xferGrant c x.desc = true ∧ dSpace (leAt x.desc 8 8) ≠ 3 ∧ dConv x.desc = 0 ∧ x.got < dLen x.desc ∧ dLen x.desc ≤ x.got + 4096) ∧ ((s.see seen).bufRead x.cid (dSrcBuf c x.desc) x.got (dLen x.desc - x.got) = (u, .ok bs)) ∧ (u.placeAt (dDstBuf c x.desc) (xferTile c ch x x.got bs) { engine := 0, write := true, qpn := none } = (v, r)) ∧ (decide (r = .err .ue)) = true)
    ∧ (let s : State := (dmoved (dmovTo 1 0x20001000)).put (Reg.MEM_REG_W3.FILL 0) 1; let u : State := (dmoved (dmovTo 1 0x20001000)).put (Reg.MEM_REG_W3.FILL 0) 1; let v : State := (dmoved (dmovTo 1 0x20001000)).put (Reg.MEM_REG_W3.FILL 0) 1; let c : CoreId := 8; let ch : Fin 4 := 1; let seen : Seen := []; let x : Xfer := dmovTo 1 0x20001000; let rest : List Xfer := []; let bs : List Byte := List.replicate 64 0; let r : BufRes Unit := .err .wait; (((s.core c).chans.getD ch {}).queue = x :: rest ∧ x.taken = true ∧ x.stopped = false ∧ x.moved = false ∧ s.disabled ⟨.drover, c / 64, 0⟩ = false) ∧ ((s.see seen).xferGrant c x.desc = true ∧ dSpace (leAt x.desc 8 8) ≠ 3 ∧ dConv x.desc = 0 ∧ x.got < dLen x.desc ∧ dLen x.desc ≤ x.got + 4096) ∧ ((s.see seen).bufRead x.cid (dSrcBuf c x.desc) x.got (dLen x.desc - x.got) = (u, .ok bs)) ∧ (u.placeAt (dDstBuf c x.desc) (xferTile c ch x x.got bs) { engine := 0, write := true, qpn := none } = (v, r)) ∧ (decide (r = .err .wait)) = true)
    ∧ (let s : State := owned 1; let h : HostId := 0; let k : ClusterId := 0; let e : Fin 256 := 0; let i : Fin 4 := 0; let v : Word := 0; let p : Profile := profileOf [0, 0, 0, 0]; (Takes s h (convOff k e i) ∧ p = profileOf (s.profileWords k e)) ∧ (decide (e.val = 0)) = true ∧ (decide (i.val = 0) && decide (s.owns h (wordField v 16 6) = false ∨ s.pstate (wordField v 16 6) ≠ 2)) = true)
    ∧ (let s : State := owned 1; let h : HostId := 0; let k : ClusterId := 0; let e : Fin 256 := 3; let i : Fin 4 := 1; let v : Word := 5; let p : Profile := profileOf [0, 0, 0, 0]; (Takes s h (convOff k e i) ∧ p = profileOf (s.profileWords k e)) ∧ (decide (e.val ≠ 0) && decide (p.valid = false ∨ s.owns h p.part = true) && decide (i.val = 0 ∧ s.owns h (wordField v 16 6) = true ∧ s.pstate (wordField v 16 6) = 2 ∨ i.val ≠ 0 ∧ p.valid = false)) = true)
    ∧ (let s : State := (owned 1).put (Reg.CLUSTER_CONV_W0.VALID 0 3) 1; let h : HostId := 0; let k : ClusterId := 0; let e : Fin 256 := 3; let i : Fin 4 := 1; let p : Profile := profileOf ((owned 1).put (Reg.CLUSTER_CONV_W0.VALID 0 3) 1 |>.profileWords 0 3); (Takes s h (convOff k e i) ∧ p = profileOf (s.profileWords k e)) ∧ (decide (p.valid = true) && decide (s.owns h p.part = false)) = true ∧ (decide (i.val ≠ 0) && decide (p.valid = true)) = true) := by
  refine ⟨?_, ?_, ?_, ?_, ?_, ?_, ?_, ?_, ?_, ?_, ?_, ?_, ?_, ?_, ?_, ?_, ?_, ?_, ?_, ?_, ?_, ?_, ?_, ?_, ?_, ?_, ?_, ?_, ?_, ?_, ?_, ?_, ?_⟩ <;> decide +kernel

/-- States and operands that meet the hypotheses of ProgramsAndContexts. -/
theorem witness_ProgramsAndContexts :
    (let s : State := running (word 0x60 3 1 2 0); let c : CoreId := 8; let w : Nat := word 0x60 3 1 2 0; let ga : Nat := 0; let gd : Nat := 0; let r : Right := .atomic; (Issues s c .wchk w ∧ ga = ((s.core c).gr (fRa w)).toNat ∧ gd = ((s.core c).gr (fRd w)).toNat) ∧ (r = (if bits ga 32 3 = 1 then .read else if bits ga 32 3 = 2 then .write else .atomic)) ∧ (decide (8 ≤ c % 64)) = true)
    ∧ (let s : State := serving (word 0x60 3 1 2 0) (gs 0x300005001 0); let c : CoreId := 0; let w : Nat := word 0x60 3 1 2 0; let ga : Nat := 0x300005001; let gd : Nat := 0; let r : Right := .atomic; (Issues s c .wchk w ∧ ga = ((s.core c).gr (fRa w)).toNat ∧ gd = ((s.core c).gr (fRd w)).toNat) ∧ (r = (if bits ga 32 3 = 1 then .read else if bits ga 32 3 = 2 then .write else .atomic)) ∧ (decide (c % 64 < 8) && decide (bits ga 32 3 ≠ 1) && decide (bits ga 32 3 ≠ 2) && decide (bits ga 32 3 ≠ 4)) = true)
    ∧ (let s : State := serving (word 0x60 3 1 2 0) (gs 0x100005001 0); let c : CoreId := 0; let w : Nat := word 0x60 3 1 2 0; let ga : Nat := 0x100005001; let gd : Nat := 0; let r : Right := .read; (Issues s c .wchk w ∧ ga = ((s.core c).gr (fRa w)).toNat ∧ gd = ((s.core c).gr (fRd w)).toNat) ∧ (r = (if bits ga 32 3 = 1 then .read else if bits ga 32 3 = 2 then .write else .atomic)) ∧ (decide (c % 64 < 8) && decide (bits ga 32 3 = 1 ∨ bits ga 32 3 = 2 ∨ bits ga 32 3 = 4) && (match s.winCheck (bits gd 32 16) (ga % 2 ^ 32) r ((s.core c).gr (fRb w)).toNat (gd % 2 ^ 32) with | some (code) => true | _ => false)) = true)
    ∧ (let s : State := { (serving (word 0x60 3 1 2 0) (gs 0x200005001 0x1000)) with wins := { desc := [(5, { base := 0x1000, limit := 0x1FFF, cid := 0, state := 1, write := true })] } }; let c : CoreId := 0; let w : Nat := word 0x60 3 1 2 0; let ga : Nat := 0x200005001; let gd : Nat := 0; let r : Right := .write; (Issues s c .wchk w ∧ ga = ((s.core c).gr (fRa w)).toNat ∧ gd = ((s.core c).gr (fRd w)).toNat) ∧ (r = (if bits ga 32 3 = 1 then .read else if bits ga 32 3 = 2 then .write else .atomic)) ∧ (decide (c % 64 < 8) && decide (bits ga 32 3 = 1 ∨ bits ga 32 3 = 2 ∨ bits ga 32 3 = 4) && decide (s.winCheck (bits gd 32 16) (ga % 2 ^ 32) r ((s.core c).gr (fRb w)).toNat (gd % 2 ^ 32) = none)) = true)
    ∧ (let s : State := running (word 0x61 3 1 0 1); let c : CoreId := 8; let w : Nat := word 0x61 3 1 0 1; let q : Nat := 0; (Issues s c .kldKst w ∧ q = ((s.core c).gr (fRa w)).toNat % 2 ^ 24) ∧ (decide (8 ≤ c % 64)) = true)
    ∧ (let s : State := serving (word 0x62 3 1 0 1) (gs 5 0); let c : CoreId := 0; let w : Nat := word 0x62 3 1 0 1; let q : Nat := 5; (Issues s c .kldKst w ∧ q = ((s.core c).gr (fRa w)).toNat % 2 ^ 24) ∧ (decide (c % 64 < 8) && decide (s.qp? q = none) && decide (fOp w = 0x62)) = true)
    ∧ (let s : State := serving (word 0x61 3 1 0 1) (gs 5 0); let c : CoreId := 0; let w : Nat := word 0x61 3 1 0 1; let q : Nat := 5; (Issues s c .kldKst w ∧ q = ((s.core c).gr (fRa w)).toNat % 2 ^ 24) ∧ (decide (c % 64 < 8) && decide (s.qp? q = none) && decide (fOp w = 0x61)) = true)
    ∧ (let s : State := { serving (word 0x61 3 1 0 1) (gs 5 0) with qps := [(5, { ctx := { qpn := 5, cid := 7 }, place := .resident 0 })] }; let c : CoreId := 0; let w : Nat := word 0x61 3 1 0 1; let q : Nat := 5; (Issues s c .kldKst w ∧ q = ((s.core c).gr (fRa w)).toNat % 2 ^ 24) ∧ (decide (c % 64 < 8) && (match s.qp? q with | some (x) => decide (x.resident = true) && decide (fOp w = 0x61) | _ => false)) = true)
    ∧ (let s : State := { serving (word 0x62 3 1 0 1) (gs 5 0) with qps := [(5, { ctx := { qpn := 5, cid := 7 }, place := .resident 0 })] }; let c : CoreId := 0; let w : Nat := word 0x62 3 1 0 1; let q : Nat := 5; (Issues s c .kldKst w ∧ q = ((s.core c).gr (fRa w)).toNat % 2 ^ 24) ∧ (decide (c % 64 < 8) && (match s.qp? q with | some (x) => decide (x.resident = true) && decide (fOp w = 0x62) | _ => false)) = true)
    ∧ (let s : State := { serving (word 0x62 3 1 0 1) (gs 5 0) with qps := [(5, { ctx := { qpn := 5, cid := 7 }, place := .spilled })] }; let c : CoreId := 0; let w : Nat := word 0x62 3 1 0 1; let q : Nat := 5; (Issues s c .kldKst w ∧ q = ((s.core c).gr (fRa w)).toNat % 2 ^ 24) ∧ (decide (c % 64 < 8) && (match s.qp? q with | some (x) => decide (x.resident = false) | _ => false)) = true)
    ∧ (let s : State := (owned 1).put Reg.TALLY_STS.PSTATE 2; let u : State := (((owned 1).put Reg.TALLY_STS.PSTATE 2).put (Reg.CLUSTER_PLD_CMD.PARTITION 0 0) 1).put (Reg.CLUSTER_PLD_CMD.OP 0 0) 1; let h : HostId := 0; let k : ClusterId := 0; let p : PartId := 1; let d : Bool := false; (Takes s h (Reg.CLUSTER_PLD_CMD.off k h) ∧ s.get (Reg.CLUSTER_PLD_STS.BUSY k h) = 0) ∧ (u = ((s.put (Reg.CLUSTER_PLD_CMD.PARTITION k h) p).put (Reg.CLUSTER_PLD_CMD.DISPATCH k h) (if d then 1 else 0)).put (Reg.CLUSTER_PLD_CMD.OP k h) 1) ∧ (decide (s.inP2 = true)) = true)
    ∧ (let s : State := owned 1; let u : State := ((owned 1).put (Reg.CLUSTER_PLD_CMD.PARTITION 0 0) 1).put (Reg.CLUSTER_PLD_CMD.OP 0 0) 1; let h : HostId := 0; let k : ClusterId := 0; let p : PartId := 1; let d : Bool := false; (Takes s h (Reg.CLUSTER_PLD_CMD.off k h) ∧ s.get (Reg.CLUSTER_PLD_STS.BUSY k h) = 0) ∧ (u = ((s.put (Reg.CLUSTER_PLD_CMD.PARTITION k h) p).put (Reg.CLUSTER_PLD_CMD.DISPATCH k h) (if d then 1 else 0)).put (Reg.CLUSTER_PLD_CMD.OP k h) 1) ∧ (decide (s.inP2 = false) && (match u.pldCheck k h p 1 with | some (r) => true | _ => false)) = true)
    ∧ (let s : State := loading; let u : State := (loading.put (Reg.CLUSTER_PLD_CMD.PARTITION 0 0) 1).put (Reg.CLUSTER_PLD_CMD.OP 0 0) 1; let h : HostId := 0; let k : ClusterId := 0; let p : PartId := 1; let d : Bool := false; (Takes s h (Reg.CLUSTER_PLD_CMD.off k h) ∧ s.get (Reg.CLUSTER_PLD_STS.BUSY k h) = 0) ∧ (u = ((s.put (Reg.CLUSTER_PLD_CMD.PARTITION k h) p).put (Reg.CLUSTER_PLD_CMD.DISPATCH k h) (if d then 1 else 0)).put (Reg.CLUSTER_PLD_CMD.OP k h) 1) ∧ (decide (s.inP2 = false) && decide (u.pldCheck k h p 1 = none)) = true)
    ∧ (let s : State := loading; let u : State := (loading.put (Reg.CLUSTER_PLD_CMD.PARTITION 0 0) 1).put (Reg.CLUSTER_PLD_CMD.OP 0 0) 1; let v : State := (loading.put (Reg.CLUSTER_PLD_CMD.PARTITION 0 0) 1).put (Reg.CLUSTER_PLD_CMD.OP 0 0) 1; let h : HostId := 0; let k : ClusterId := 0; let p : PartId := 1; let d : Bool := false; let seen : Seen := []; let b : List Byte := memRead (((loading.put (Reg.CLUSTER_PLD_CMD.PARTITION 0 0) 1).put (Reg.CLUSTER_PLD_CMD.OP 0 0) 1).hostMem 0) 0 4096; (Takes s h (Reg.CLUSTER_PLD_CMD.off k h) ∧ s.get (Reg.CLUSTER_PLD_STS.BUSY k h) = 0 ∧ s.inP2 = false) ∧ (u = ((s.put (Reg.CLUSTER_PLD_CMD.PARTITION k h) p).put (Reg.CLUSTER_PLD_CMD.DISPATCH k h) (if d then 1 else 0)).put (Reg.CLUSTER_PLD_CMD.OP k h) 1) ∧ (u.pldCheck k h p 1 = none) ∧ ((u.see seen).memReadC (p * 1024 + 0x3FF) (s.get (Reg.CLUSTER_PLD_ADDR_HI.SPACE k h)) (s.pair (Reg.CLUSTER_PLD_ADDR_LO.ADDR_LO k h) (Reg.CLUSTER_PLD_ADDR_HI.ADDR_HI k h)) (4096 * s.get (Reg.CLUSTER_PLD_LEN.PAGES k h)) = (v, .ok b)) ∧ (imgHeaderOk b (s.get (Reg.CLUSTER_PLD_LEN.PAGES k h)) = false))
    ∧ (let s : State := (owned 1).put Reg.TALLY_STS.PSTATE 2; let u : State := (((owned 1).put Reg.TALLY_STS.PSTATE 2).put (Reg.CLUSTER_PLD_CMD.PARTITION 0 0) 1).put (Reg.CLUSTER_PLD_CMD.OP 0 0) 2; let h : HostId := 0; let k : ClusterId := 0; let p : PartId := 1; (Takes s h (Reg.CLUSTER_PLD_CMD.off k h) ∧ s.get (Reg.CLUSTER_PLD_STS.BUSY k h) = 0) ∧ (u = ((s.put (Reg.CLUSTER_PLD_CMD.PARTITION k h) p).put (Reg.CLUSTER_PLD_CMD.DISPATCH k h) 0).put (Reg.CLUSTER_PLD_CMD.OP k h) 2) ∧ (decide (s.inP2 = true)) = true)
    ∧ (let s : State := owned 1; let u : State := ((owned 1).put (Reg.CLUSTER_PLD_CMD.PARTITION 0 0) 1).put (Reg.CLUSTER_PLD_CMD.OP 0 0) 2; let h : HostId := 0; let k : ClusterId := 0; let p : PartId := 1; (Takes s h (Reg.CLUSTER_PLD_CMD.off k h) ∧ s.get (Reg.CLUSTER_PLD_STS.BUSY k h) = 0) ∧ (u = ((s.put (Reg.CLUSTER_PLD_CMD.PARTITION k h) p).put (Reg.CLUSTER_PLD_CMD.DISPATCH k h) 0).put (Reg.CLUSTER_PLD_CMD.OP k h) 2) ∧ (decide (s.inP2 = false) && (match u.pldCheck k h p 2 with | some (r) => true | _ => false)) = true)
    ∧ (let s : State := loading; let u : State := (loading.put (Reg.CLUSTER_PLD_CMD.PARTITION 0 0) 1).put (Reg.CLUSTER_PLD_CMD.OP 0 0) 2; let h : HostId := 0; let k : ClusterId := 0; let p : PartId := 1; (Takes s h (Reg.CLUSTER_PLD_CMD.off k h) ∧ s.get (Reg.CLUSTER_PLD_STS.BUSY k h) = 0) ∧ (u = ((s.put (Reg.CLUSTER_PLD_CMD.PARTITION k h) p).put (Reg.CLUSTER_PLD_CMD.DISPATCH k h) 0).put (Reg.CLUSTER_PLD_CMD.OP k h) 2) ∧ (decide (s.inP2 = false) && decide (u.pldCheck k h p 2 = none)) = true)
    ∧ (let s : State := ready; let c : CoreId := 8; (decide (s.handles.at? (s.get (Reg.CLUSTER_CORE_HANDLE.HANDLE (c / 64) (c % 64))) = none)) = true)
    ∧ (let s : State := { (ready.put (Reg.CLUSTER_CORE_HANDLE.HANDLE 0 8) 5).setCore 8 { preload := true } with handles := [(5, { part := 1, digest := [], image := [] })] }; let c : CoreId := 8; ((match s.handles.at? (s.get (Reg.CLUSTER_CORE_HANDLE.HANDLE (c / 64) (c % 64))) with | some (x) => decide ((s.core c).preload = true) | _ => false)) = true)
    ∧ (let s : State := { ready.put (Reg.CLUSTER_CORE_HANDLE.HANDLE 0 8) 5 with handles := [(5, { part := 1, digest := [], image := [] })] }; let c : CoreId := 8; ((match s.handles.at? (s.get (Reg.CLUSTER_CORE_HANDLE.HANDLE (c / 64) (c % 64))) with | some (x) => decide ((s.core c).preload = false) && decide (s.get (Reg.CLUSTER_LMAP.FENCED (c / 64) (c % 64)) = 0) | _ => false)) = true)
    ∧ (let s : State := { (ready.put (Reg.CLUSTER_CORE_HANDLE.HANDLE 0 8) 5).put (Reg.CLUSTER_LMAP.FENCED 0 8) 1 with handles := [(5, { part := 1, digest := [], image := [] })] }; let c : CoreId := 8; ((match s.handles.at? (s.get (Reg.CLUSTER_CORE_HANDLE.HANDLE (c / 64) (c % 64))) with | some (x) => decide ((s.core c).preload = false) && decide (s.get (Reg.CLUSTER_LMAP.FENCED (c / 64) (c % 64)) = 1) | _ => false)) = true) := by
  refine ⟨?_, ?_, ?_, ?_, ?_, ?_, ?_, ?_, ?_, ?_, ?_, ?_, ?_, ?_, ?_, ?_, ?_, ?_, ?_, ?_, ?_⟩
  · decide +kernel
  · decide +kernel
  · decide +kernel
  · decide +kernel
  · decide +kernel
  · decide +kernel
  · decide +kernel
  · decide +kernel
  · decide +kernel
  · decide +kernel
  · decide +kernel
  · decide +kernel
  · decide +kernel
  · exact ⟨by decide +kernel, by decide +kernel, by decide +kernel, loading_read, by decide +kernel⟩
  · decide +kernel
  · decide +kernel
  · decide +kernel
  · decide +kernel
  · decide +kernel
  · decide +kernel
  · decide +kernel

/-- States and operands that meet the hypotheses of FaultEntriesAndBatches. -/
theorem witness_FaultEntriesAndBatches :
    (let s : State := ready; let h : HostId := 0; let i : BitVec 12 := 3; let seen : Seen := []; (Takes s h (Reg.SHEEP_RESOLVE.off h)) ∧ (decide (((s.see seen).sheep h).entries.find? (fun e => e.id == i.toNat) = none)) = true)
    ∧ (let s : State := { ready with sheep0 := { entries := [{ id := 3, addr := 0x1000, space := 2, cid := 77, engine := 1, write := false, qpn := none, offset := 0, ft := 0 }] } }; let h : HostId := 0; let i : BitVec 12 := 3; let seen : Seen := []; (Takes s h (Reg.SHEEP_RESOLVE.off h)) ∧ ((match ((s.see seen).sheep h).entries.find? (fun e => e.id == i.toNat) with | some e => decide (((s.see seen).fragPresent e).2 = false) | _ => false)) = true)
    ∧ (let s : State := { tiered 1 0 with sheep0 := { entries := [{ id := 3, addr := 0x20001000, space := 1, cid := 1024, engine := 1, write := false, qpn := none, offset := 0, ft := 0, waiters := [.recv 9] }] }, ddr := [(0x2000100C, 1)] }; let h : HostId := 0; let i : BitVec 12 := 3; let seen : Seen := []; (Takes s h (Reg.SHEEP_RESOLVE.off h)) ∧ ((match ((s.see seen).sheep h).entries.find? (fun e => e.id == i.toNat) with | some e => decide (((s.see seen).fragPresent e).2 = true) | _ => false)) = true)
    ∧ (let s : State := ready; let h : HostId := 0; let i : BitVec 12 := 3; (Takes s h (Reg.SHEEP_RESOLVE.off h)) ∧ (decide ((s.sheep h).entries.find? (fun e => e.id == i.toNat) = none)) = true)
    ∧ (let s : State := { ready with sheep0 := { entries := [{ id := 3, addr := 0x1000, space := 2, cid := 77, engine := 1, write := false, qpn := none, offset := 0, ft := 0 }] } }; let h : HostId := 0; let i : BitVec 12 := 3; (Takes s h (Reg.SHEEP_RESOLVE.off h)) ∧ ((match (s.sheep h).entries.find? (fun e => e.id == i.toNat) with | some e => true | _ => false)) = true ∧ ((match (s.sheep h).entries.find? (fun e => e.id == i.toNat) with | some e => decide (e.waiters = []) && decide (s.tiles = []) | _ => false)) = true)
    ∧ (let s : State := ready; let h : HostId := 0; let i : BitVec 12 := 3; (decide ((s.sheep h).entries.find? (fun e => e.id == i.toNat) = none)) = true)
    ∧ (let s : State := { ready with sheep0 := { entries := [{ id := 3, addr := 0x1000, space := 2, cid := 77, engine := 1, write := false, qpn := none, offset := 0, ft := 0 }] } }; let h : HostId := 0; let i : BitVec 12 := 3; ((match (s.sheep h).entries.find? (fun e => e.id == i.toNat) with | some e => true | _ => false)) = true)
    ∧ (let s : State := ready; let h : HostId := 1; (decide ((s.sheep h).batch = [])) = true)
    ∧ (let s : State := { ready with sheep1 := { batch := [3] } }; let h : HostId := 1; (decide ((s.sheep h).batch ≠ [])) = true)
    ∧ (let s : State := ready; let h : HostId := 1; (decide ((s.sheep h).closed = false ∨ (s.sheep h).batch = [] ∨ s.sheepRoom h (s.sheep h).batch.length = false)) = true)
    ∧ (let s : State := { (ready.put (Reg.SHEEP_RING_CTL.ENABLE 0) 1).put (Reg.SHEEP_RING_CTL.LOG2_SIZE 0) 8 with sheep0 := { entries := [{ id := 3, addr := 0x1000, space := 2, cid := 77, engine := 1, write := false, qpn := none, offset := 0, ft := 0 }], batch := [3], closed := true } }; let h : HostId := 0; (decide ((s.sheep h).closed = true) && decide ((s.sheep h).batch ≠ []) && decide (s.sheepRoom h (s.sheep h).batch.length = true)) = true ∧ ((match (s.sheep h).batch with | [i] => decide ((s.sheep h).closed = true) && decide (s.sheepRoom h 1 = true) && (match (s.sheep h).entries.find? (fun x => x.id == i) with | some e => true | _ => false) | _ => false)) = true)
    ∧ (let s : State := ready; let h : HostId := 0; let r : Fin 3 := 0; (Takes s h (parkOff r)) ∧ (decide (s.tiles = []) && decide (r = 0)) = true)
    ∧ (let s : State := ready; let h : HostId := 0; let r : Fin 3 := 1; (Takes s h (parkOff r)) ∧ (decide (s.tiles = []) && decide (r = 1)) = true)
    ∧ (let s : State := ready; let h : HostId := 0; let r : Fin 3 := 2; let v : Word := 0x401; (Takes s h (parkOff r)) ∧ (decide (s.tiles = []) && decide (r = 2) && decide (wordField v 0 13 ≤ 4096)) = true)
    ∧ (let s : State := { ready with tiles := [{ id := 0, cid := 0, table := 0, tspace := 0, offset := 0, bytes := [], faults := [], queue := 0, pos := 0, park := none }] }; let h : HostId := 0; let r : Fin 3 := 2; (Takes s h (parkOff r)) ∧ (decide (s.tiles ≠ [])) = true) := by
  refine ⟨?_, ?_, ?_, ?_, ?_, ?_, ?_, ?_, ?_, ?_, ?_, ?_, ?_, ?_, ?_⟩ <;> decide +kernel

/-- States and operands that meet the hypotheses of WindowRevocationAndShares. -/
theorem witness_WindowRevocationAndShares :
    (let s : State := owned 1; let h : HostId := 0; let p : PartId := 1; let v : Word := 0x5001; (Takes s h (Reg.WIN_REVOKE.off p)) ∧ (decide (v.toNat / 4096 = 0 ∨ v.toNat % 4096 = 0 ∨ (s.win (v.toNat / 4096)).state = 0 ∨ ((s.win (v.toNat / 4096)).state = 1 ∧ (s.win (v.toNat / 4096)).gen ≠ v.toNat % 4096))) = true)
    ∧ (let s : State := { owned 1 with wins := { desc := [(5, { cid := 2048, state := 1 })] } }; let h : HostId := 0; let p : PartId := 1; let v : Word := 0x5001; (Takes s h (Reg.WIN_REVOKE.off p)) ∧ (decide ((s.win (v.toNat / 4096)).state ≠ 0) && decide (cidPart (s.win (v.toNat / 4096)).cid ≠ p)) = true)
    ∧ (let s : State := { owned 1 with wins := { desc := [(5, { cid := 1024, state := 1, gen := 1 })] } }; let h : HostId := 0; let p : PartId := 1; let v : Word := 0x5001; (Takes s h (Reg.WIN_REVOKE.off p)) ∧ (decide (v.toNat / 4096 ≠ 0) && decide (v.toNat % 4096 ≠ 0) && decide ((s.win (v.toNat / 4096)).state = 1) && decide ((s.win (v.toNat / 4096)).gen = v.toNat % 4096) && decide (cidPart (s.win (v.toNat / 4096)).cid = p) && decide (s.wins.revs.any (fun r => r.index == v.toNat / 4096) = false)) = true)
    ∧ (let s : State := { owned 1 with wins := { desc := [(5, { cid := 1024, state := 1, gen := 1 })], revs := [{ index := 5, waiters := [] }] } }; let h : HostId := 0; let p : PartId := 1; let v : Word := 0x5001; (Takes s h (Reg.WIN_REVOKE.off p)) ∧ (decide (v.toNat / 4096 ≠ 0) && decide (v.toNat % 4096 ≠ 0) && decide ((s.win (v.toNat / 4096)).state = 1) && decide ((s.win (v.toNat / 4096)).gen = v.toNat % 4096) && decide (cidPart (s.win (v.toNat / 4096)).cid = p) && decide (s.wins.revs.any (fun r => r.index == v.toNat / 4096) = true)) = true)
    ∧ (let s : State := ready; let i : BitVec 20 := 5; (decide (s.wins.revs.any (fun r => r.index == i.toNat && !r.fenced) = false ∨ (s.win i.toNat).state ≠ 1)) = true)
    ∧ (let s : State := { ready with wins := { desc := [(5, { cid := 1024, state := 1, gen := 1 })], revs := [{ index := 5, waiters := [] }] } }; let i : BitVec 20 := 5; (decide (s.wins.revs.any (fun r => r.index == i.toNat && !r.fenced) = true) && decide ((s.win i.toNat).state = 1)) = true)
    ∧ (let s : State := owned 1; let h : HostId := 0; let p : PartId := 1; (Takes s h (Reg.WIN_SHARE.off p)) ∧ (decide (s.pstate p ≠ 1)) = true)
    ∧ (let s : State := (owned 1).put (Reg.PART_STS.STATE 1) 1; let h : HostId := 0; let p : PartId := 1; let v : Word := 5; (Takes s h (Reg.WIN_SHARE.off p)) ∧ (decide (s.pstate p = 1) && decide ((List.range 64).foldl (fun a q => a + (if q = p.val then wordField v 0 21 else s.get (Reg.WIN_SHARE.WINDOWS q))) 0 ≤ 1048575)) = true)
    ∧ (let s : State := (owned 1).put (Reg.PART_STS.STATE 1) 1; let h : HostId := 0; let p : PartId := 1; let v : Word := 0x1FFFFF; (Takes s h (Reg.WIN_SHARE.off p)) ∧ (decide (s.pstate p = 1) && decide (1048575 < (List.range 64).foldl (fun a q => a + (if q = p.val then wordField v 0 21 else s.get (Reg.WIN_SHARE.WINDOWS q))) 0)) = true)
    ∧ (let s : State := owned 1; let h : HostId := 0; let p : PartId := 1; let num : Bool := true; let v : Word := 5; let b : Nat := 0; let n : Nat := 5; (Takes s h (if num then Reg.TRIG_NUM.off p else Reg.TRIG_BASE.off p)) ∧ (b = (if num then s.get (Reg.TRIG_BASE.BASE p) else wordField v 0 16) ∧ n = (if num then wordField v 0 17 else s.get (Reg.TRIG_NUM.NUM p))) ∧ (decide (s.pstate p ≠ 1)) = true)
    ∧ (let s : State := (owned 1).put (Reg.PART_STS.STATE 1) 1; let h : HostId := 0; let p : PartId := 1; let num : Bool := true; let v : Word := 5; let b : Nat := 0; let n : Nat := 5; (Takes s h (if num then Reg.TRIG_NUM.off p else Reg.TRIG_BASE.off p)) ∧ (b = (if num then s.get (Reg.TRIG_BASE.BASE p) else wordField v 0 16) ∧ n = (if num then wordField v 0 17 else s.get (Reg.TRIG_NUM.NUM p))) ∧ (decide (s.pstate p = 1) && decide (b + n ≤ 65536) && decide (((List.range 64).any (fun q => q != p.val && overlap b n (s.get (Reg.TRIG_BASE.BASE q)) (s.get (Reg.TRIG_NUM.NUM q)))) = false)) = true)
    ∧ (let s : State := (owned 1).put (Reg.PART_STS.STATE 1) 1; let h : HostId := 0; let p : PartId := 1; let num : Bool := true; let v : Word := 0x1FFFF; let b : Nat := 0; let n : Nat := 0x1FFFF; (Takes s h (if num then Reg.TRIG_NUM.off p else Reg.TRIG_BASE.off p)) ∧ (b = (if num then s.get (Reg.TRIG_BASE.BASE p) else wordField v 0 16) ∧ n = (if num then wordField v 0 17 else s.get (Reg.TRIG_NUM.NUM p))) ∧ (decide (s.pstate p = 1) && decide (65536 < b + n)) = true)
    ∧ (let s : State := ((owned 1).put (Reg.PART_STS.STATE 1) 1).put (Reg.TRIG_NUM.NUM 2) 8; let h : HostId := 0; let p : PartId := 1; let num : Bool := true; let v : Word := 5; let b : Nat := 0; let n : Nat := 5; (Takes s h (if num then Reg.TRIG_NUM.off p else Reg.TRIG_BASE.off p)) ∧ (b = (if num then s.get (Reg.TRIG_BASE.BASE p) else wordField v 0 16) ∧ n = (if num then wordField v 0 17 else s.get (Reg.TRIG_NUM.NUM p))) ∧ (decide (s.pstate p = 1) && decide (((List.range 64).any (fun q => q != p.val && overlap b n (s.get (Reg.TRIG_BASE.BASE q)) (s.get (Reg.TRIG_NUM.NUM q)))) = true)) = true) := by
  refine ⟨?_, ?_, ?_, ?_, ?_, ?_, ?_, ?_, ?_, ?_, ?_, ?_, ?_⟩ <;> decide +kernel

/-- States and operands that meet the hypotheses of KennelCommands. -/
theorem witness_KennelCommands :
    (let s : State := ready; let h : HostId := 0; (Takes s h (Reg.KENNEL_CMD.off h)))
    ∧ (let s : State := ready.put Reg.TALLY_STS.PSTATE 2; let h : HostId := 0; (Takes s h (Reg.KENNEL_CMD.off h)) ∧ (decide (s.flag (Reg.KENNEL_CMD_STS.BUSY h) = false) && decide (s.inP2 = true)) = true)
    ∧ (let s : State := ready.put (Reg.KENNEL_CMD_STS.BUSY 0) 1; let h : HostId := 0; (Takes s h (Reg.KENNEL_CMD.off h)) ∧ (decide (s.flag (Reg.KENNEL_CMD_STS.BUSY h) = true)) = true)
    ∧ (let s : State := ready; let u : State := ((ready.put (Reg.KENNEL_CMD.QPN 0) 5).put (Reg.KENNEL_CMD.OP 0) 1).see []; let h : HostId := 0; let q : BitVec 24 := 5; let seen : Seen := []; let a : Nat := 0; let b : List Byte := List.replicate 256 0; (Takes s h (Reg.KENNEL_CMD.off h) ∧ s.flag (Reg.KENNEL_CMD_STS.BUSY h) = false ∧ s.inP2 = false) ∧ (u = ((s.put (Reg.KENNEL_CMD.QPN h) q.toNat).put (Reg.KENNEL_CMD.OP h) 1).see seen ∧ a = u.pair (Reg.KENNEL_CMD_ADDR_LO.ADDR_LO h) (Reg.KENNEL_CMD_ADDR_HI.ADDR_HI h) ∧ b = u.hostRead h a 256) ∧ (decide (u.kennelRights h q.toNat (some (cidPart (ctxOf b).cid)) = false)) = true)
    ∧ (let s : State := kenneling [0, 0, 0, 0] 1 true; let u : State := (((kenneling [0, 0, 0, 0] 1 true).put (Reg.KENNEL_CMD.QPN 0) 5).put (Reg.KENNEL_CMD.OP 0) 1).see []; let h : HostId := 0; let q : BitVec 24 := 5; let seen : Seen := []; let a : Nat := 0; let b : List Byte := u.hostRead 0 0 256; (Takes s h (Reg.KENNEL_CMD.off h) ∧ s.flag (Reg.KENNEL_CMD_STS.BUSY h) = false ∧ s.inP2 = false) ∧ (u = ((s.put (Reg.KENNEL_CMD.QPN h) q.toNat).put (Reg.KENNEL_CMD.OP h) 1).see seen ∧ a = u.pair (Reg.KENNEL_CMD_ADDR_LO.ADDR_LO h) (Reg.KENNEL_CMD_ADDR_HI.ADDR_HI h) ∧ b = u.hostRead h a 256) ∧ (decide (u.kennelRights h q.toNat (some (cidPart (ctxOf b).cid)) = true) && decide (u.pstate (cidPart (ctxOf b).cid) = 1)) = true)
    ∧ (let s : State := kenneling [0, 0, 0, 0] 2 true; let u : State := (((kenneling [0, 0, 0, 0] 2 true).put (Reg.KENNEL_CMD.QPN 0) 5).put (Reg.KENNEL_CMD.OP 0) 1).see []; let h : HostId := 0; let q : BitVec 24 := 5; let seen : Seen := []; let a : Nat := 0; let b : List Byte := u.hostRead 0 0 256; (Takes s h (Reg.KENNEL_CMD.off h) ∧ s.flag (Reg.KENNEL_CMD_STS.BUSY h) = false ∧ s.inP2 = false) ∧ (u = ((s.put (Reg.KENNEL_CMD.QPN h) q.toNat).put (Reg.KENNEL_CMD.OP h) 1).see seen ∧ a = u.pair (Reg.KENNEL_CMD_ADDR_LO.ADDR_LO h) (Reg.KENNEL_CMD_ADDR_HI.ADDR_HI h) ∧ b = u.hostRead h a 256) ∧ (decide (u.kennelRights h q.toNat (some (cidPart (ctxOf b).cid)) = true) && decide (u.pstate (cidPart (ctxOf b).cid) = 2) && decide (imageOk b = false ∨ (ctxOf b).qpn ≠ q.toNat ∨ u.instPart? (cidInst (ctxOf b).cid) ≠ some (cidPart (ctxOf b).cid) ∨ u.queuesOk (ctxOf b) = false)) = true)
    ∧ (let s : State := kenneling [5, 0, 0, 1] 2 false; let u : State := (((kenneling [5, 0, 0, 1] 2 false).put (Reg.KENNEL_CMD.QPN 0) 5).put (Reg.KENNEL_CMD.OP 0) 1).see []; let h : HostId := 0; let q : BitVec 24 := 5; let seen : Seen := []; let a : Nat := 0; let b : List Byte := u.hostRead 0 0 256; (Takes s h (Reg.KENNEL_CMD.off h) ∧ s.flag (Reg.KENNEL_CMD_STS.BUSY h) = false ∧ s.inP2 = false) ∧ (u = ((s.put (Reg.KENNEL_CMD.QPN h) q.toNat).put (Reg.KENNEL_CMD.OP h) 1).see seen ∧ a = u.pair (Reg.KENNEL_CMD_ADDR_LO.ADDR_LO h) (Reg.KENNEL_CMD_ADDR_HI.ADDR_HI h) ∧ b = u.hostRead h a 256) ∧ (decide (u.kennelRights h q.toNat (some (cidPart (ctxOf b).cid)) = true) && decide (u.pstate (cidPart (ctxOf b).cid) = 2) && decide (imageOk b = true) && decide ((ctxOf b).qpn = q.toNat) && decide (u.instPart? (cidInst (ctxOf b).cid) = some (cidPart (ctxOf b).cid)) && decide (u.queuesOk (ctxOf b) = true) && decide ((ctxOf b).tier = 0) && decide (u.qp? q.toNat = none) && decide ((ctxOf b).state = 1) && decide (u.tier1Slot? = none)) = true)
    ∧ (let s : State := kenneling [5, 0, 0, 2] 2 false; let u : State := (((kenneling [5, 0, 0, 2] 2 false).put (Reg.KENNEL_CMD.QPN 0) 5).put (Reg.KENNEL_CMD.OP 0) 1).see []; let h : HostId := 0; let q : BitVec 24 := 5; let seen : Seen := []; let a : Nat := 0; let b : List Byte := u.hostRead 0 0 256; (Takes s h (Reg.KENNEL_CMD.off h) ∧ s.flag (Reg.KENNEL_CMD_STS.BUSY h) = false ∧ s.inP2 = false) ∧ (u = ((s.put (Reg.KENNEL_CMD.QPN h) q.toNat).put (Reg.KENNEL_CMD.OP h) 1).see seen ∧ a = u.pair (Reg.KENNEL_CMD_ADDR_LO.ADDR_LO h) (Reg.KENNEL_CMD_ADDR_HI.ADDR_HI h) ∧ b = u.hostRead h a 256) ∧ (decide (u.kennelRights h q.toNat (some (cidPart (ctxOf b).cid)) = true) && decide (u.pstate (cidPart (ctxOf b).cid) = 2) && decide (imageOk b = true) && decide ((ctxOf b).qpn = q.toNat) && decide (u.instPart? (cidInst (ctxOf b).cid) = some (cidPart (ctxOf b).cid)) && decide (u.queuesOk (ctxOf b) = true) && decide ((ctxOf b).tier = 0) && decide (u.qp? q.toNat ≠ none ∨ (ctxOf b).state ≠ 1)) = true)
    ∧ (let s : State := (kenneling [5, 0, 0, 1] 2 false).put Reg.KENNEL_T1_SIZE.UNITS 1; let u : State := ((((kenneling [5, 0, 0, 1] 2 false).put Reg.KENNEL_T1_SIZE.UNITS 1).put (Reg.KENNEL_CMD.QPN 0) 5).put (Reg.KENNEL_CMD.OP 0) 1).see []; let h : HostId := 0; let q : BitVec 24 := 5; let seen : Seen := []; let a : Nat := 0; let b : List Byte := u.hostRead 0 0 256; (Takes s h (Reg.KENNEL_CMD.off h) ∧ s.flag (Reg.KENNEL_CMD_STS.BUSY h) = false ∧ s.inP2 = false) ∧ (u = ((s.put (Reg.KENNEL_CMD.QPN h) q.toNat).put (Reg.KENNEL_CMD.OP h) 1).see seen ∧ a = u.pair (Reg.KENNEL_CMD_ADDR_LO.ADDR_LO h) (Reg.KENNEL_CMD_ADDR_HI.ADDR_HI h) ∧ b = u.hostRead h a 256) ∧ (decide (u.kennelRights h q.toNat (some (cidPart (ctxOf b).cid)) = true) && decide (u.pstate (cidPart (ctxOf b).cid) = 2) && decide (imageOk b = true) && decide ((ctxOf b).qpn = q.toNat) && decide (u.instPart? (cidInst (ctxOf b).cid) = some (cidPart (ctxOf b).cid)) && decide (u.queuesOk (ctxOf b) = true) && decide ((ctxOf b).tier = 0) && decide (u.qp? q.toNat = none) && decide ((ctxOf b).state = 1) && (match u.tier1Slot? with | some (k) => true | _ => false)) = true)
    ∧ (let s : State := ready; let h : HostId := 0; (Takes s h (Reg.KENNEL_CMD.off h)))
    ∧ (let s : State := ready.put Reg.TALLY_STS.PSTATE 2; let h : HostId := 0; (Takes s h (Reg.KENNEL_CMD.off h)) ∧ (decide (s.flag (Reg.KENNEL_CMD_STS.BUSY h) = false) && decide (s.inP2 = true)) = true)
    ∧ (let s : State := ready.put (Reg.KENNEL_CMD_STS.BUSY 0) 1; let h : HostId := 0; (Takes s h (Reg.KENNEL_CMD.off h)) ∧ (decide (s.flag (Reg.KENNEL_CMD_STS.BUSY h) = true)) = true)
    ∧ (let s : State := ready; let u : State := (((ready).put (Reg.KENNEL_CMD.QPN 0) 5).put (Reg.KENNEL_CMD.OP 0) 2).see []; let h : HostId := 0; let q : BitVec 24 := 5; let seen : Seen := []; let a : Nat := 0; let b : List Byte := u.hostRead 0 0 256; (Takes s h (Reg.KENNEL_CMD.off h) ∧ s.flag (Reg.KENNEL_CMD_STS.BUSY h) = false ∧ s.inP2 = false) ∧ (u = ((s.put (Reg.KENNEL_CMD.QPN h) q.toNat).put (Reg.KENNEL_CMD.OP h) 2).see seen ∧ a = u.pair (Reg.KENNEL_CMD_ADDR_LO.ADDR_LO h) (Reg.KENNEL_CMD_ADDR_HI.ADDR_HI h) ∧ b = u.hostRead h a 256) ∧ (decide (u.kennelRights h q.toNat (some (cidPart (ctxOf b).cid)) = false)) = true)
    ∧ (let s : State := kenneling [5, 0, 0, 2] 2 false; let u : State := (((kenneling [5, 0, 0, 2] 2 false).put (Reg.KENNEL_CMD.QPN 0) 5).put (Reg.KENNEL_CMD.OP 0) 2).see []; let h : HostId := 0; let q : BitVec 24 := 5; let seen : Seen := []; let a : Nat := 0; let b : List Byte := u.hostRead 0 0 256; (Takes s h (Reg.KENNEL_CMD.off h) ∧ s.flag (Reg.KENNEL_CMD_STS.BUSY h) = false ∧ s.inP2 = false) ∧ (u = ((s.put (Reg.KENNEL_CMD.QPN h) q.toNat).put (Reg.KENNEL_CMD.OP h) 2).see seen ∧ a = u.pair (Reg.KENNEL_CMD_ADDR_LO.ADDR_LO h) (Reg.KENNEL_CMD_ADDR_HI.ADDR_HI h) ∧ b = u.hostRead h a 256) ∧ (decide (u.kennelRights h q.toNat (some (cidPart (ctxOf b).cid)) = true) && decide (u.qp? q.toNat = none)) = true)
    ∧ (let s : State := { kenneling [5, 0, 0, 2] 2 false with qps := [(5, { ctx := { qpn := 5, cid := 1024, state := 2 }, place := .resident 0 })] }; let u : State := ((({ kenneling [5, 0, 0, 2] 2 false with qps := [(5, { ctx := { qpn := 5, cid := 1024, state := 2 }, place := .resident 0 })] }).put (Reg.KENNEL_CMD.QPN 0) 5).put (Reg.KENNEL_CMD.OP 0) 2).see []; let h : HostId := 0; let q : BitVec 24 := 5; let seen : Seen := []; let a : Nat := 0; let b : List Byte := u.hostRead 0 0 256; (Takes s h (Reg.KENNEL_CMD.off h) ∧ s.flag (Reg.KENNEL_CMD_STS.BUSY h) = false ∧ s.inP2 = false) ∧ (u = ((s.put (Reg.KENNEL_CMD.QPN h) q.toNat).put (Reg.KENNEL_CMD.OP h) 2).see seen ∧ a = u.pair (Reg.KENNEL_CMD_ADDR_LO.ADDR_LO h) (Reg.KENNEL_CMD_ADDR_HI.ADDR_HI h) ∧ b = u.hostRead h a 256) ∧ (decide (u.kennelRights h q.toNat (some (cidPart (ctxOf b).cid)) = true) && (match u.qp? q.toNat with | some x => decide (x.resident = true) && decide (u.kennel.bad.contains q.toNat = false) | _ => false)) = true ∧ (decide (u.kennelRights h q.toNat (some (cidPart (ctxOf b).cid)) = true) && (match u.qp? q.toNat with | some x => decide (x.resident = true) && decide (u.kennel.bad.contains q.toNat = false) && decide (imageOk b = true) && decide ((ctxOf b).qpn = q.toNat) && decide (u.queuesOk { ctxOf b with cid := x.ctx.cid } = true) && decide (x.ctx.pin = false) && decide ((ctxOf b).state ≠ 6) && decide (modified x.ctx (ctxOf b) = none) | _ => false)) = true)
    ∧ (let s : State := { kenneling [5, 0, 0, 2] 2 false with qps := [(5, { ctx := { qpn := 5, cid := 1024, state := 1 }, place := .resident 0 })] }; let u : State := ((({ kenneling [5, 0, 0, 2] 2 false with qps := [(5, { ctx := { qpn := 5, cid := 1024, state := 1 }, place := .resident 0 })] }).put (Reg.KENNEL_CMD.QPN 0) 5).put (Reg.KENNEL_CMD.OP 0) 2).see []; let h : HostId := 0; let q : BitVec 24 := 5; let seen : Seen := []; let a : Nat := 0; let b : List Byte := u.hostRead 0 0 256; (Takes s h (Reg.KENNEL_CMD.off h) ∧ s.flag (Reg.KENNEL_CMD_STS.BUSY h) = false ∧ s.inP2 = false) ∧ (u = ((s.put (Reg.KENNEL_CMD.QPN h) q.toNat).put (Reg.KENNEL_CMD.OP h) 2).see seen ∧ a = u.pair (Reg.KENNEL_CMD_ADDR_LO.ADDR_LO h) (Reg.KENNEL_CMD_ADDR_HI.ADDR_HI h) ∧ b = u.hostRead h a 256) ∧ (decide (u.kennelRights h q.toNat (some (cidPart (ctxOf b).cid)) = true) && (match u.qp? q.toNat with | some x => decide (x.resident = true) && decide (u.kennel.bad.contains q.toNat = false) && decide (imageOk b = true) && decide ((ctxOf b).qpn = q.toNat) && decide (u.queuesOk { ctxOf b with cid := x.ctx.cid } = true) && decide (x.ctx.pin = false) && decide ((ctxOf b).state ≠ 6) && (match modified x.ctx (ctxOf b) with | some c => decide (c.state ≠ 0) | _ => false) | _ => false)) = true)
    ∧ (let s : State := { kenneling [5, 0, 0, 2] 2 false with qps := [(5, { ctx := { qpn := 5, cid := 1024, state := 2 }, place := .spilled })] }; let u : State := ((({ kenneling [5, 0, 0, 2] 2 false with qps := [(5, { ctx := { qpn := 5, cid := 1024, state := 2 }, place := .spilled })] }).put (Reg.KENNEL_CMD.QPN 0) 5).put (Reg.KENNEL_CMD.OP 0) 2).see []; let h : HostId := 0; let q : BitVec 24 := 5; let seen : Seen := []; let a : Nat := 0; let b : List Byte := u.hostRead 0 0 256; (Takes s h (Reg.KENNEL_CMD.off h) ∧ s.flag (Reg.KENNEL_CMD_STS.BUSY h) = false ∧ s.inP2 = false) ∧ (u = ((s.put (Reg.KENNEL_CMD.QPN h) q.toNat).put (Reg.KENNEL_CMD.OP h) 2).see seen ∧ a = u.pair (Reg.KENNEL_CMD_ADDR_LO.ADDR_LO h) (Reg.KENNEL_CMD_ADDR_HI.ADDR_HI h) ∧ b = u.hostRead h a 256) ∧ (decide (u.kennelRights h q.toNat (some (cidPart (ctxOf b).cid)) = true) && (match u.qp? q.toNat with | some x => decide (x.resident = false) && decide (x.place ≠ .victim) | _ => false)) = true)
    ∧ (let s : State := ready; let h : HostId := 0; (Takes s h (Reg.KENNEL_CMD.off h)))
    ∧ (let s : State := ready.put Reg.TALLY_STS.PSTATE 2; let h : HostId := 0; (Takes s h (Reg.KENNEL_CMD.off h)) ∧ (decide (s.flag (Reg.KENNEL_CMD_STS.BUSY h) = false) && decide (s.inP2 = true)) = true)
    ∧ (let s : State := ready.put (Reg.KENNEL_CMD_STS.BUSY 0) 1; let h : HostId := 0; (Takes s h (Reg.KENNEL_CMD.off h)) ∧ (decide (s.flag (Reg.KENNEL_CMD_STS.BUSY h) = true)) = true)
    ∧ (let s : State := { ready.put (Reg.PART_ALLOC.OWNER 1) 1 with qps := [(5, { ctx := { qpn := 5, cid := 1024, sq := 0, state := 2 }, place := .resident 0 })] }; let u : State := ((({ ready.put (Reg.PART_ALLOC.OWNER 1) 1 with qps := [(5, { ctx := { qpn := 5, cid := 1024, sq := 0, state := 2 }, place := .resident 0 })] }).put (Reg.KENNEL_CMD.QPN 0) 5).put (Reg.KENNEL_CMD.OP 0) 3).see []; let h : HostId := 0; let q : BitVec 24 := 5; let seen : Seen := []; let a : Nat := 0; let b : List Byte := u.hostRead 0 0 256; (Takes s h (Reg.KENNEL_CMD.off h) ∧ s.flag (Reg.KENNEL_CMD_STS.BUSY h) = false ∧ s.inP2 = false) ∧ (u = ((s.put (Reg.KENNEL_CMD.QPN h) q.toNat).put (Reg.KENNEL_CMD.OP h) 3).see seen ∧ a = u.pair (Reg.KENNEL_CMD_ADDR_LO.ADDR_LO h) (Reg.KENNEL_CMD_ADDR_HI.ADDR_HI h) ∧ b = u.hostRead h a 256) ∧ (decide (u.kennelRights h q.toNat (none) = false)) = true)
    ∧ (let s : State := kenneling [5, 0, 0, 1] 2 false; let u : State := (((kenneling [5, 0, 0, 1] 2 false).put (Reg.KENNEL_CMD.QPN 0) 5).put (Reg.KENNEL_CMD.OP 0) 3).see []; let h : HostId := 0; let q : BitVec 24 := 5; let seen : Seen := []; let a : Nat := 0; let b : List Byte := u.hostRead 0 0 256; (Takes s h (Reg.KENNEL_CMD.off h) ∧ s.flag (Reg.KENNEL_CMD_STS.BUSY h) = false ∧ s.inP2 = false) ∧ (u = ((s.put (Reg.KENNEL_CMD.QPN h) q.toNat).put (Reg.KENNEL_CMD.OP h) 3).see seen ∧ a = u.pair (Reg.KENNEL_CMD_ADDR_LO.ADDR_LO h) (Reg.KENNEL_CMD_ADDR_HI.ADDR_HI h) ∧ b = u.hostRead h a 256) ∧ (decide (u.kennelRights h q.toNat (none) = true) && decide (u.qp? q.toNat = none)) = true)
    ∧ (let s : State := { kenneling [5, 0, 0, 1] 2 false with qps := [(5, { ctx := { qpn := 5, cid := 1024, state := 2 }, place := .resident 0 })] }; let u : State := ((({ kenneling [5, 0, 0, 1] 2 false with qps := [(5, { ctx := { qpn := 5, cid := 1024, state := 2 }, place := .resident 0 })] }).put (Reg.KENNEL_CMD.QPN 0) 5).put (Reg.KENNEL_CMD.OP 0) 3).see []; let h : HostId := 0; let q : BitVec 24 := 5; let seen : Seen := []; let a : Nat := 0; let b : List Byte := u.hostRead 0 0 256; (Takes s h (Reg.KENNEL_CMD.off h) ∧ s.flag (Reg.KENNEL_CMD_STS.BUSY h) = false ∧ s.inP2 = false) ∧ (u = ((s.put (Reg.KENNEL_CMD.QPN h) q.toNat).put (Reg.KENNEL_CMD.OP h) 3).see seen ∧ a = u.pair (Reg.KENNEL_CMD_ADDR_LO.ADDR_LO h) (Reg.KENNEL_CMD_ADDR_HI.ADDR_HI h) ∧ b = u.hostRead h a 256) ∧ (decide (u.kennelRights h q.toNat (none) = true) && (match u.qp? q.toNat with | some x => decide (x.resident = true) && decide (u.kennel.bad.contains q.toNat = false) | _ => false)) = true ∧ (decide (u.kennelRights h q.toNat (none) = true) && (match u.qp? q.toNat with | some x => decide (x.resident = true) && decide (u.kennel.bad.contains q.toNat = false) | _ => false)) = true)
    ∧ (let s : State := { kenneling [5, 0, 0, 1] 2 false with qps := [(5, { ctx := { qpn := 5, cid := 1024, state := 2 }, place := .spilled })] }; let u : State := ((({ kenneling [5, 0, 0, 1] 2 false with qps := [(5, { ctx := { qpn := 5, cid := 1024, state := 2 }, place := .spilled })] }).put (Reg.KENNEL_CMD.QPN 0) 5).put (Reg.KENNEL_CMD.OP 0) 3).see []; let h : HostId := 0; let q : BitVec 24 := 5; let seen : Seen := []; let a : Nat := 0; let b : List Byte := u.hostRead 0 0 256; (Takes s h (Reg.KENNEL_CMD.off h) ∧ s.flag (Reg.KENNEL_CMD_STS.BUSY h) = false ∧ s.inP2 = false) ∧ (u = ((s.put (Reg.KENNEL_CMD.QPN h) q.toNat).put (Reg.KENNEL_CMD.OP h) 3).see seen ∧ a = u.pair (Reg.KENNEL_CMD_ADDR_LO.ADDR_LO h) (Reg.KENNEL_CMD_ADDR_HI.ADDR_HI h) ∧ b = u.hostRead h a 256) ∧ (decide (u.kennelRights h q.toNat (none) = true) && (match u.qp? q.toNat with | some x => decide (x.resident = false) && decide (x.place ≠ .victim) | _ => false)) = true)
    ∧ (let s : State := ready; let h : HostId := 0; (Takes s h (Reg.KENNEL_CMD.off h)))
    ∧ (let s : State := ready.put Reg.TALLY_STS.PSTATE 2; let h : HostId := 0; (Takes s h (Reg.KENNEL_CMD.off h)) ∧ (decide (s.flag (Reg.KENNEL_CMD_STS.BUSY h) = false) && decide (s.inP2 = true)) = true)
    ∧ (let s : State := ready.put (Reg.KENNEL_CMD_STS.BUSY 0) 1; let h : HostId := 0; (Takes s h (Reg.KENNEL_CMD.off h)) ∧ (decide (s.flag (Reg.KENNEL_CMD_STS.BUSY h) = true)) = true)
    ∧ (let s : State := { ready.put (Reg.PART_ALLOC.OWNER 1) 1 with qps := [(5, { ctx := { qpn := 5, cid := 1024, sq := 0, state := 2 }, place := .resident 0 })] }; let u : State := ((({ ready.put (Reg.PART_ALLOC.OWNER 1) 1 with qps := [(5, { ctx := { qpn := 5, cid := 1024, sq := 0, state := 2 }, place := .resident 0 })] }).put (Reg.KENNEL_CMD.QPN 0) 5).put (Reg.KENNEL_CMD.OP 0) 4).see []; let h : HostId := 0; let q : BitVec 24 := 5; let seen : Seen := []; let a : Nat := 0; let b : List Byte := u.hostRead 0 0 256; (Takes s h (Reg.KENNEL_CMD.off h) ∧ s.flag (Reg.KENNEL_CMD_STS.BUSY h) = false ∧ s.inP2 = false) ∧ (u = ((s.put (Reg.KENNEL_CMD.QPN h) q.toNat).put (Reg.KENNEL_CMD.OP h) 4).see seen ∧ a = u.pair (Reg.KENNEL_CMD_ADDR_LO.ADDR_LO h) (Reg.KENNEL_CMD_ADDR_HI.ADDR_HI h) ∧ b = u.hostRead h a 256) ∧ (decide (u.kennelRights h q.toNat (none) = false)) = true)
    ∧ (let s : State := kenneling [5, 0, 0, 1] 2 false; let u : State := (((kenneling [5, 0, 0, 1] 2 false).put (Reg.KENNEL_CMD.QPN 0) 5).put (Reg.KENNEL_CMD.OP 0) 4).see []; let h : HostId := 0; let q : BitVec 24 := 5; let seen : Seen := []; let a : Nat := 0; let b : List Byte := u.hostRead 0 0 256; (Takes s h (Reg.KENNEL_CMD.off h) ∧ s.flag (Reg.KENNEL_CMD_STS.BUSY h) = false ∧ s.inP2 = false) ∧ (u = ((s.put (Reg.KENNEL_CMD.QPN h) q.toNat).put (Reg.KENNEL_CMD.OP h) 4).see seen ∧ a = u.pair (Reg.KENNEL_CMD_ADDR_LO.ADDR_LO h) (Reg.KENNEL_CMD_ADDR_HI.ADDR_HI h) ∧ b = u.hostRead h a 256) ∧ (decide (u.kennelRights h q.toNat (none) = true) && decide (u.qp? q.toNat = none)) = true)
    ∧ (let s : State := { kenneling [5, 0, 0, 1] 2 false with qps := [(5, { ctx := { qpn := 5, cid := 1024, state := 2 }, place := .resident 0 })] }; let u : State := ((({ kenneling [5, 0, 0, 1] 2 false with qps := [(5, { ctx := { qpn := 5, cid := 1024, state := 2 }, place := .resident 0 })] }).put (Reg.KENNEL_CMD.QPN 0) 5).put (Reg.KENNEL_CMD.OP 0) 4).see []; let h : HostId := 0; let q : BitVec 24 := 5; let seen : Seen := []; let a : Nat := 0; let b : List Byte := u.hostRead 0 0 256; (Takes s h (Reg.KENNEL_CMD.off h) ∧ s.flag (Reg.KENNEL_CMD_STS.BUSY h) = false ∧ s.inP2 = false) ∧ (u = ((s.put (Reg.KENNEL_CMD.QPN h) q.toNat).put (Reg.KENNEL_CMD.OP h) 4).see seen ∧ a = u.pair (Reg.KENNEL_CMD_ADDR_LO.ADDR_LO h) (Reg.KENNEL_CMD_ADDR_HI.ADDR_HI h) ∧ b = u.hostRead h a 256) ∧ (decide (u.kennelRights h q.toNat (none) = true) && (match u.qp? q.toNat with | some x => decide (x.resident = true) && decide (u.kennel.bad.contains q.toNat = false) | _ => false)) = true ∧ (decide (u.kennelRights h q.toNat (none) = true) && (match u.qp? q.toNat with | some x => decide (x.resident = true) && decide (u.kennel.bad.contains q.toNat = false) && decide (x.ctx.state ≠ 3) && decide (x.ctx.state ≠ 4) && decide (x.ctx.pin = false) | _ => false)) = true)
    ∧ (let s : State := { kenneling [5, 0, 0, 1] 2 false with qps := [(5, { ctx := { qpn := 5, cid := 1024, state := 2 }, place := .spilled })] }; let u : State := ((({ kenneling [5, 0, 0, 1] 2 false with qps := [(5, { ctx := { qpn := 5, cid := 1024, state := 2 }, place := .spilled })] }).put (Reg.KENNEL_CMD.QPN 0) 5).put (Reg.KENNEL_CMD.OP 0) 4).see []; let h : HostId := 0; let q : BitVec 24 := 5; let seen : Seen := []; let a : Nat := 0; let b : List Byte := u.hostRead 0 0 256; (Takes s h (Reg.KENNEL_CMD.off h) ∧ s.flag (Reg.KENNEL_CMD_STS.BUSY h) = false ∧ s.inP2 = false) ∧ (u = ((s.put (Reg.KENNEL_CMD.QPN h) q.toNat).put (Reg.KENNEL_CMD.OP h) 4).see seen ∧ a = u.pair (Reg.KENNEL_CMD_ADDR_LO.ADDR_LO h) (Reg.KENNEL_CMD_ADDR_HI.ADDR_HI h) ∧ b = u.hostRead h a 256) ∧ (decide (u.kennelRights h q.toNat (none) = true) && (match u.qp? q.toNat with | some x => decide (x.resident = false) && decide (x.place ≠ .victim) | _ => false)) = true)
    ∧ (let s : State := { kenneling [5, 0, 0, 1] 2 false with qps := [(5, { ctx := { qpn := 5, cid := 1024, state := 3 }, place := .resident 0 })] }; let u : State := ((({ kenneling [5, 0, 0, 1] 2 false with qps := [(5, { ctx := { qpn := 5, cid := 1024, state := 3 }, place := .resident 0 })] }).put (Reg.KENNEL_CMD.QPN 0) 5).put (Reg.KENNEL_CMD.OP 0) 4).see []; let h : HostId := 0; let q : BitVec 24 := 5; let seen : Seen := []; let a : Nat := 0; let b : List Byte := u.hostRead 0 0 256; (Takes s h (Reg.KENNEL_CMD.off h) ∧ s.flag (Reg.KENNEL_CMD_STS.BUSY h) = false ∧ s.inP2 = false) ∧ (u = ((s.put (Reg.KENNEL_CMD.QPN h) q.toNat).put (Reg.KENNEL_CMD.OP h) 4).see seen ∧ a = u.pair (Reg.KENNEL_CMD_ADDR_LO.ADDR_LO h) (Reg.KENNEL_CMD_ADDR_HI.ADDR_HI h) ∧ b = u.hostRead h a 256) ∧ (decide (u.kennelRights h q.toNat (none) = true) && (match u.qp? q.toNat with | some x => decide (x.resident = true) && decide (u.kennel.bad.contains q.toNat = false) && decide (x.ctx.state = 3 ∨ x.ctx.state = 4) | _ => false)) = true)
    ∧ (let s : State := { kenneling [5, 0, 0, 1] 2 false with qps := [(5, { ctx := { qpn := 5, cid := 1024, state := 2, pin := true }, place := .resident 0 })] }; let u : State := ((({ kenneling [5, 0, 0, 1] 2 false with qps := [(5, { ctx := { qpn := 5, cid := 1024, state := 2, pin := true }, place := .resident 0 })] }).put (Reg.KENNEL_CMD.QPN 0) 5).put (Reg.KENNEL_CMD.OP 0) 4).see []; let h : HostId := 0; let q : BitVec 24 := 5; let seen : Seen := []; let a : Nat := 0; let b : List Byte := u.hostRead 0 0 256; (Takes s h (Reg.KENNEL_CMD.off h) ∧ s.flag (Reg.KENNEL_CMD_STS.BUSY h) = false ∧ s.inP2 = false) ∧ (u = ((s.put (Reg.KENNEL_CMD.QPN h) q.toNat).put (Reg.KENNEL_CMD.OP h) 4).see seen ∧ a = u.pair (Reg.KENNEL_CMD_ADDR_LO.ADDR_LO h) (Reg.KENNEL_CMD_ADDR_HI.ADDR_HI h) ∧ b = u.hostRead h a 256) ∧ (decide (u.kennelRights h q.toNat (none) = true) && (match u.qp? q.toNat with | some x => decide (x.resident = true) && decide (u.kennel.bad.contains q.toNat = false) && decide (x.ctx.state ≠ 3) && decide (x.ctx.state ≠ 4) && decide (x.ctx.pin = true) | _ => false)) = true) := by
  refine ⟨?_, ?_, ?_, ?_, ?_, ?_, ?_, ?_, ?_, ?_, ?_, ?_, ?_, ?_, ?_, ?_, ?_, ?_, ?_, ?_, ?_, ?_, ?_, ?_, ?_, ?_, ?_, ?_, ?_, ?_, ?_, ?_, ?_⟩ <;> decide +kernel

/-- States and operands that meet the hypotheses of StageFrames. -/
theorem witness_StageFrames :
    (let s : State := ready; let c : CoreId := 8; (decide (s.stageIn.findIdx? (fun f => f.core == c.val) = none)) = true)
    ∧ (let s : State := { staging 1 true false 4 with sched := { act := [(0, { emptyImage with flows := [flow0], paths := [{ path0 with toPort := false, endRes := 0x3000, stage := 8, stageValid := true }] })] }, stageIn := [{ stageFrame true false 4 with flow := 77 }] }; let c : CoreId := 8; ((match s.stageIn.find? (fun f => f.core == c.val) with | some f => decide (s.stageOpen f = false) | _ => false)) = true)
    ∧ (let s : State := staging 1 true false 4; let u : State := ({ staging 1 true false 4 with stageIn := [] } : State).frameGone (stageFrame true false 4).frame; let c : CoreId := 8; let known : Bool := true; let i : Nat := 0; let f : StageFrame := stageFrame true false 4; (s.stageIn.findIdx? (fun f => f.core == c.val) = some i ∧ s.stageIn[i]? = some f ∧ s.stageOpen f = true) ∧ (u = ({ s with stageIn := s.stageIn.eraseIdx i } : State).frameGone f.frame) ∧ (decide (u.coreStopped c = false) && decide (u.stageCore c = true) && decide (u.spMode1 c = true) && decide (u.coreSt c = 1 ∨ u.coreSt c = 2 ∨ u.coreSt c = 4) && decide ((u.core c).events.length < 16) && (match u.cellFor c f.bytes.length with | some (x) => decide (f.good = true ∨ (f.cut = true ∧ known = false)) | _ => false)) = true)
    ∧ (let s : State := staging 1 false false 4; let u : State := ({ staging 1 false false 4 with stageIn := [] } : State).frameGone (stageFrame false false 4).frame; let c : CoreId := 8; let known : Bool := true; let i : Nat := 0; let f : StageFrame := stageFrame false false 4; (s.stageIn.findIdx? (fun f => f.core == c.val) = some i ∧ s.stageIn[i]? = some f ∧ s.stageOpen f = true) ∧ (u = ({ s with stageIn := s.stageIn.eraseIdx i } : State).frameGone f.frame) ∧ (decide (u.coreStopped c = false) && decide (u.stageCore c = true) && decide (u.spMode1 c = true) && decide (u.coreSt c = 1 ∨ u.coreSt c = 2 ∨ u.coreSt c = 4) && decide ((u.core c).events.length < 16) && (match u.cellFor c f.bytes.length with | some (x) => decide (f.good = false) && decide (f.cut = false ∨ known = true) | _ => false)) = true)
    ∧ (let s : State := staging 0 true false 4; let u : State := ({ staging 0 true false 4 with stageIn := [] } : State).frameGone (stageFrame true false 4).frame; let c : CoreId := 8; let i : Nat := 0; let f : StageFrame := stageFrame true false 4; (s.stageIn.findIdx? (fun f => f.core == c.val) = some i ∧ s.stageIn[i]? = some f ∧ s.stageOpen f = true) ∧ (u = ({ s with stageIn := s.stageIn.eraseIdx i } : State).frameGone f.frame) ∧ (decide (u.coreStopped c = true ∨ u.stageCore c = false ∨ u.spMode1 c = false ∨ u.coreSt c = 0 ∨ u.coreSt c = 3 ∨ u.coreSt c = 5 ∨ 16 ≤ (u.core c).events.length)) = true)
    ∧ (let s : State := (staging 1 true false 4).modCore 8 (fun k => { k with events := [{ kind := 1, v31 := [], cell := 0, cells := 128 }] }); let u : State := ({ (staging 1 true false 4).modCore 8 (fun k => { k with events := [{ kind := 1, v31 := [], cell := 0, cells := 128 }] }) with stageIn := [] } : State).frameGone (stageFrame true false 4).frame; let c : CoreId := 8; let i : Nat := 0; let f : StageFrame := stageFrame true false 4; (s.stageIn.findIdx? (fun f => f.core == c.val) = some i ∧ s.stageIn[i]? = some f ∧ s.stageOpen f = true) ∧ (u = ({ s with stageIn := s.stageIn.eraseIdx i } : State).frameGone f.frame) ∧ (decide (u.cellFor c f.bytes.length = none)) = true)
    ∧ (let s : State := ready; let c : CoreId := 8; (decide ((s.core c).verdicts = [])) = true)
    ∧ (let s : State := ready.setCore 8 { verdicts := [{ ev := 3, off := 0x28008, good := true }] }; let c : CoreId := 8; let v : Verdict := { ev := 3, off := 0x28008, good := true }; let vs : List Verdict := []; ((s.core c).verdicts = v :: vs) ∧ (decide (v.good = true)) = true)
    ∧ (let s : State := ready.setCore 8 { verdicts := [{ ev := 3, off := 0x28008, good := false }] }; let c : CoreId := 8; let v : Verdict := { ev := 3, off := 0x28008, good := false }; let vs : List Verdict := []; ((s.core c).verdicts = v :: vs) ∧ (decide (v.good = false)) = true) := by
  refine ⟨?_, ?_, ?_, ?_, ?_, ?_, ?_, ?_, ?_⟩ <;> decide +kernel

/-- States and operands that meet the hypotheses of CipherRequestsAndKeys. -/
theorem witness_CipherRequestsAndKeys :
    (let s : State := running (word 0x5A 3 2 1 0) (gs 5 0); let c : CoreId := 8; let w : Nat := word 0x5A 3 2 1 0; let n : Nat := 5; let p : Nat := 0; (Issues s c .aes w) ∧ (n = ((s.core c).gr (fRb w)).toNat % 4096 ∧ p = ((if serviceCore c then none else s.coreOwner? c).getD (cidPart (s.core c).cid))) ∧ (decide (s.slotOf p n = false ∨ s.key? n = none ∨ s.noAes (c / 64) = true)) = true)
    ∧ (let s : State := keyed (running (word 0x5A 3 2 1 0) (gs 5 0)); let c : CoreId := 8; let w : Nat := word 0x5A 3 2 1 0; let n : Nat := 5; let p : Nat := 0; (Issues s c .aes w) ∧ (n = ((s.core c).gr (fRb w)).toNat % 4096 ∧ p = ((if serviceCore c then none else s.coreOwner? c).getD (cidPart (s.core c).cid))) ∧ (decide (s.slotOf p n = true) && decide (s.key? n ≠ none) && decide (s.noAes (c / 64) = false) && decide (s.aesRequests (c / 64) ≤ 252) && decide (s.sec.keyCmds.any (fun x => x.slot == n) = false)) = true)
    ∧ (let s : State := (keyed (running (word 0x5A 3 2 1 0) (gs 5 0))).setCore 9 { aes := List.replicate 64 { vd := 0, dec := false, slot := 7, part := 0, data := [] } }; let c : CoreId := 8; let w : Nat := word 0x5A 3 2 1 0; let n : Nat := 5; let p : Nat := 0; (Issues s c .aes w) ∧ (n = ((s.core c).gr (fRb w)).toNat % 4096 ∧ p = ((if serviceCore c then none else s.coreOwner? c).getD (cidPart (s.core c).cid))) ∧ (decide (s.slotOf p n = true) && decide (s.key? n ≠ none) && decide (s.noAes (c / 64) = false) && decide (252 < s.aesRequests (c / 64) ∨ s.sec.keyCmds.any (fun x => x.slot == n) = true)) = true)
    ∧ (let s : State := ready; let c : CoreId := 8; (decide ((s.core c).aes = [] ∨ s.noAes (c / 64) = true ∨ ((s.core c).aes.take 1).any (fun r => !s.aesTurn c r) = true)) = true)
    ∧ (let s : State := keyed (ready.setCore 8 { aes := [{ vd := 3, dec := false, slot := 5, part := 0, data := List.replicate 64 1 }] }); let c : CoreId := 8; let r : AesReq := { vd := 3, dec := false, slot := 5, part := 0, data := List.replicate 64 1 }; let rs : List AesReq := []; let key : List Byte := List.replicate 16 7; ((s.core c).aes = r :: rs ∧ s.noAes (c / 64) = false ∧ s.aesTurn c r = true ∧ s.key? r.slot = some key) ∧ (decide (s.sec.keyCmds = []) && decide ((s.core c).haltFreeze = false) && decide ((s.core c).haltDebug = false)) = true)
    ∧ (let s : State := ready; let h : HostId := 0; let n : BitVec 12 := 5; (Takes s h (Reg.SEC_KEY_CMD.off h)) ∧ (decide (s.flag (Reg.SEC_KEY_STS.BUSY h) = false) && decide (s.keyPart? h n.toNat = none)) = true)
    ∧ (let s : State := ready.put (Reg.SEC_KEY_STS.BUSY 0) 1; let h : HostId := 0; (Takes s h (Reg.SEC_KEY_CMD.off h)) ∧ (decide (s.flag (Reg.SEC_KEY_STS.BUSY h) = true)) = true)
    ∧ (let s : State := keyed (ready.put (Reg.PART_STS.STATE 0) 1); let h : HostId := 0; let n : BitVec 12 := 5; (Takes s h (Reg.SEC_KEY_CMD.off h)) ∧ (decide (s.flag (Reg.SEC_KEY_STS.BUSY h) = false) && decide (s.keyPart? h n.toNat ≠ none) && decide (s.sec.keyCmds = []) && decide (s.slotBusy n.toNat = false)) = true)
    ∧ (let s : State := (keyed (ready.put (Reg.PART_STS.STATE 0) 1)).setCore 8 { aes := [{ vd := 3, dec := false, slot := 5, part := 0, data := [] }] }; let h : HostId := 0; let n : BitVec 12 := 5; (Takes s h (Reg.SEC_KEY_CMD.off h)) ∧ (decide (s.flag (Reg.SEC_KEY_STS.BUSY h) = false) && decide (s.keyPart? h n.toNat ≠ none) && decide (s.sec.keyCmds = []) && decide (s.slotBusy n.toNat = true)) = true)
    ∧ (let s : State := ready; let u : State := ((ready.put (Reg.SEC_KEY_CMD.SLOT 0) 5).put (Reg.SEC_KEY_CMD.OP 0) 1).see []; let h : HostId := 0; let n : BitVec 12 := 5; let seen : Seen := []; (Takes s h (Reg.SEC_KEY_CMD.off h)) ∧ (u = ((s.put (Reg.SEC_KEY_CMD.SLOT h) n.toNat).put (Reg.SEC_KEY_CMD.OP h) 1).see seen) ∧ (decide (s.flag (Reg.SEC_KEY_STS.BUSY h) = false) && decide (u.keyPart? h n.toNat = none)) = true)
    ∧ (let s : State := ready.put (Reg.SEC_KEY_STS.BUSY 0) 1; let u : State := (((ready.put (Reg.SEC_KEY_STS.BUSY 0) 1).put (Reg.SEC_KEY_CMD.SLOT 0) 5).put (Reg.SEC_KEY_CMD.OP 0) 1).see []; let h : HostId := 0; let n : BitVec 12 := 5; let seen : Seen := []; (Takes s h (Reg.SEC_KEY_CMD.off h)) ∧ (u = ((s.put (Reg.SEC_KEY_CMD.SLOT h) n.toNat).put (Reg.SEC_KEY_CMD.OP h) 1).see seen) ∧ (decide (s.flag (Reg.SEC_KEY_STS.BUSY h) = true)) = true)
    ∧ (let s : State := keyLoading 0x200000000 0; let u : State := (((keyLoading 0x200000000 0).put (Reg.SEC_KEY_CMD.SLOT 0) 5).put (Reg.SEC_KEY_CMD.OP 0) 1).see []; let h : HostId := 0; let n : BitVec 12 := 5; let seen : Seen := []; let p : Nat := 1; let sp : Nat := 0; let a : Nat := 0x200000000; (Takes s h (Reg.SEC_KEY_CMD.off h) ∧ s.flag (Reg.SEC_KEY_STS.BUSY h) = false) ∧ (u = ((s.put (Reg.SEC_KEY_CMD.SLOT h) n.toNat).put (Reg.SEC_KEY_CMD.OP h) 1).see seen ∧ u.keyPart? h n.toNat = some p) ∧ (sp = s.get (Reg.SEC_KEY_ADDR_HI.SPACE h) ∧ a = s.pair (Reg.SEC_KEY_ADDR_LO.ADDR_LO h) (Reg.SEC_KEY_ADDR_HI.ADDR_HI h)) ∧ (decide (sp = 0 → u.inAperture p a 64 = false) && decide (sp ≠ 0 → u.inRegion p a 64 = false)) = true)
    ∧ (let s : State := (keyLoading 0x1000 0).put (Reg.SEC_HOSTSEC.KEY_IDE 0) 1; let u : State := ((((keyLoading 0x1000 0).put (Reg.SEC_HOSTSEC.KEY_IDE 0) 1).put (Reg.SEC_KEY_CMD.SLOT 0) 5).put (Reg.SEC_KEY_CMD.OP 0) 1).see []; let h : HostId := 0; let n : BitVec 12 := 5; let seen : Seen := []; let p : Nat := 1; let sp : Nat := 0; let a : Nat := 0x1000; (Takes s h (Reg.SEC_KEY_CMD.off h) ∧ s.flag (Reg.SEC_KEY_STS.BUSY h) = false) ∧ (u = ((s.put (Reg.SEC_KEY_CMD.SLOT h) n.toNat).put (Reg.SEC_KEY_CMD.OP h) 1).see seen ∧ u.keyPart? h n.toNat = some p) ∧ (sp = s.get (Reg.SEC_KEY_ADDR_HI.SPACE h) ∧ a = s.pair (Reg.SEC_KEY_ADDR_LO.ADDR_LO h) (Reg.SEC_KEY_ADDR_HI.ADDR_HI h)) ∧ (decide (sp = 0) && decide (u.inAperture p a 64 = true) && decide (s.get (Reg.SEC_HOSTSEC.KEY_IDE h) = 1) && decide (s.get (Reg.SEC_HOSTSEC.SECURE h) = 0)) = true)
    ∧ (let s : State := keyLoading 0x1000 0; let u : State := (((keyLoading 0x1000 0).put (Reg.SEC_KEY_CMD.SLOT 0) 5).put (Reg.SEC_KEY_CMD.OP 0) 1).see []; let h : HostId := 0; let n : BitVec 12 := 5; let seen : Seen := []; let p : Nat := 1; let sp : Nat := 0; let a : Nat := 0x1000; (Takes s h (Reg.SEC_KEY_CMD.off h) ∧ s.flag (Reg.SEC_KEY_STS.BUSY h) = false) ∧ (u = ((s.put (Reg.SEC_KEY_CMD.SLOT h) n.toNat).put (Reg.SEC_KEY_CMD.OP h) 1).see seen ∧ u.keyPart? h n.toNat = some p) ∧ (sp = s.get (Reg.SEC_KEY_ADDR_HI.SPACE h) ∧ a = s.pair (Reg.SEC_KEY_ADDR_LO.ADDR_LO h) (Reg.SEC_KEY_ADDR_HI.ADDR_HI h)) ∧ (decide (sp = 0) && decide (u.inAperture p a 64 = true) && decide (s.get (Reg.SEC_HOSTSEC.KEY_IDE h) = 0) && decide (u.poisoned = []) && decide (u.memCheck (p * 1024 + 0x3FF) 0 a 64 false = .ok ()) && (match keyRecord (u.hostRead (u.owner p) a 64) with | some (k) => decide (s.sec.keyCmds = []) && decide (s.slotBusy n.toNat = false) | _ => false)) = true)
    ∧ (let s : State := ((((tiered 1 1).put (Reg.PART_KEYS.NUM 1) 16).put (Reg.SEC_KEY_ADDR_LO.ADDR_LO 0) (0x20001000 / 64)).put (Reg.SEC_KEY_ADDR_HI.SPACE 0) 1); let u : State := ((((((tiered 1 1).put (Reg.PART_KEYS.NUM 1) 16).put (Reg.SEC_KEY_ADDR_LO.ADDR_LO 0) (0x20001000 / 64)).put (Reg.SEC_KEY_ADDR_HI.SPACE 0) 1).put (Reg.SEC_KEY_CMD.SLOT 0) 5).put (Reg.SEC_KEY_CMD.OP 0) 1).see []; let h : HostId := 0; let n : BitVec 12 := 5; let seen : Seen := []; let p : Nat := 1; let sp : Nat := 1; let a : Nat := 0x20001000; (Takes s h (Reg.SEC_KEY_CMD.off h) ∧ s.flag (Reg.SEC_KEY_STS.BUSY h) = false) ∧ (u = ((s.put (Reg.SEC_KEY_CMD.SLOT h) n.toNat).put (Reg.SEC_KEY_CMD.OP h) 1).see seen ∧ u.keyPart? h n.toNat = some p) ∧ (sp = s.get (Reg.SEC_KEY_ADDR_HI.SPACE h) ∧ a = s.pair (Reg.SEC_KEY_ADDR_LO.ADDR_LO h) (Reg.SEC_KEY_ADDR_HI.ADDR_HI h)) ∧ (decide (sp ≠ 0) && decide (u.inRegion p a 64 = true) && decide (u.memCheck (p * 1024 + 0x3FF) sp a 64 false = .error .wait)) = true)
    ∧ (let s : State := keyLoading 0x1000 9; let u : State := (((keyLoading 0x1000 9).put (Reg.SEC_KEY_CMD.SLOT 0) 5).put (Reg.SEC_KEY_CMD.OP 0) 1).see []; let h : HostId := 0; let n : BitVec 12 := 5; let seen : Seen := []; let p : Nat := 1; let sp : Nat := 0; let a : Nat := 0x1000; (Takes s h (Reg.SEC_KEY_CMD.off h) ∧ s.flag (Reg.SEC_KEY_STS.BUSY h) = false) ∧ (u = ((s.put (Reg.SEC_KEY_CMD.SLOT h) n.toNat).put (Reg.SEC_KEY_CMD.OP h) 1).see seen ∧ u.keyPart? h n.toNat = some p) ∧ (sp = s.get (Reg.SEC_KEY_ADDR_HI.SPACE h) ∧ a = s.pair (Reg.SEC_KEY_ADDR_LO.ADDR_LO h) (Reg.SEC_KEY_ADDR_HI.ADDR_HI h)) ∧ (decide (sp = 0) && decide (u.inAperture p a 64 = true) && decide (s.get (Reg.SEC_HOSTSEC.KEY_IDE h) = 0) && decide (u.poisoned = []) && decide (u.memCheck (p * 1024 + 0x3FF) 0 a 64 false = .ok ()) && decide (keyRecord (u.hostRead (u.owner p) a 64) = none)) = true) := by
  refine ⟨?_, ?_, ?_, ?_, ?_, ?_, ?_, ?_, ?_, ?_, ?_, ?_, ?_, ?_, ?_, ?_⟩ <;> decide +kernel

/-- States and operands that meet the hypotheses of MailboxCommands. -/
theorem witness_MailboxCommands :
    (let s : State := ready.put (Reg.SEC_MB_STS.BUSY 0) 1; let h : HostId := 0; (Takes s h (Reg.SEC_MB_CMD.off h)) ∧ (decide (s.flag (Reg.SEC_MB_STS.BUSY h) = true)) = true)
    ∧ (let s : State := ready; let u : State := (((ready).put (Reg.SEC_MB_CMD.OP 0) 1).put (Reg.SEC_MB_CMD.ARG 0) 0).see []; let h : HostId := 0; (Takes s h (Reg.SEC_MB_CMD.off h) ∧ s.flag (Reg.SEC_MB_STS.BUSY h) = false) ∧ (u = ((s.put (Reg.SEC_MB_CMD.OP h) 1).put (Reg.SEC_MB_CMD.ARG h) 0).see []))
    ∧ (let s : State := ready.put (Reg.SEC_MB_STS.BUSY 0) 1; let h : HostId := 0; (Takes s h (Reg.SEC_MB_CMD.off h)) ∧ (decide (s.flag (Reg.SEC_MB_STS.BUSY h) = true)) = true)
    ∧ (let s : State := ready; let u : State := (((ready).put (Reg.SEC_MB_CMD.OP 1) 3).put (Reg.SEC_MB_CMD.ARG 1) 1).see []; let h : HostId := 1; let x : BitVec 8 := 1; let seen : Seen := []; (Takes s h (Reg.SEC_MB_CMD.off h) ∧ s.flag (Reg.SEC_MB_STS.BUSY h) = false) ∧ (u = ((s.put (Reg.SEC_MB_CMD.OP h) 3).put (Reg.SEC_MB_CMD.ARG h) x.toNat).see seen) ∧ (decide (h ≠ s.bootHost)) = true)
    ∧ (let s : State := ready; let u : State := (((ready).put (Reg.SEC_MB_CMD.OP 0) 3).put (Reg.SEC_MB_CMD.ARG 0) 9).see []; let h : HostId := 0; let x : BitVec 8 := 9; let seen : Seen := []; (Takes s h (Reg.SEC_MB_CMD.off h) ∧ s.flag (Reg.SEC_MB_STS.BUSY h) = false) ∧ (u = ((s.put (Reg.SEC_MB_CMD.OP h) 3).put (Reg.SEC_MB_CMD.ARG h) x.toNat).see seen) ∧ (decide (h = s.bootHost) && decide (4 < x.toNat)) = true)
    ∧ (let s : State := ready; let u : State := (((ready).put (Reg.SEC_MB_CMD.OP 0) 3).put (Reg.SEC_MB_CMD.ARG 0) 3).see []; let h : HostId := 0; let x : BitVec 8 := 3; let seen : Seen := []; (Takes s h (Reg.SEC_MB_CMD.off h) ∧ s.flag (Reg.SEC_MB_STS.BUSY h) = false) ∧ (u = ((s.put (Reg.SEC_MB_CMD.OP h) 3).put (Reg.SEC_MB_CMD.ARG h) x.toNat).see seen) ∧ (decide (h = s.bootHost) && decide (x.toNat ≤ 4) && decide (lcAllowed s.sec.fuses.lc x.toNat = false)) = true)
    ∧ (let s : State := owned 1; let u : State := (((owned 1).put (Reg.SEC_MB_CMD.OP 0) 3).put (Reg.SEC_MB_CMD.ARG 0) 1).see []; let h : HostId := 0; let x : BitVec 8 := 1; let seen : Seen := []; (Takes s h (Reg.SEC_MB_CMD.off h) ∧ s.flag (Reg.SEC_MB_STS.BUSY h) = false) ∧ (u = ((s.put (Reg.SEC_MB_CMD.OP h) 3).put (Reg.SEC_MB_CMD.ARG h) x.toNat).see seen) ∧ (decide (h = s.bootHost) && decide (x.toNat ≤ 4) && decide (lcAllowed s.sec.fuses.lc x.toNat = true) && decide ((List.range 64).any (fun p => s.pstate p != 0) = true)) = true)
    ∧ (let s : State := powered; let u : State := (((powered).put (Reg.SEC_MB_CMD.OP 0) 3).put (Reg.SEC_MB_CMD.ARG 0) 1).see []; let h : HostId := 0; let x : BitVec 8 := 1; let seen : Seen := []; (Takes s h (Reg.SEC_MB_CMD.off h) ∧ s.flag (Reg.SEC_MB_STS.BUSY h) = false) ∧ (u = ((s.put (Reg.SEC_MB_CMD.OP h) 3).put (Reg.SEC_MB_CMD.ARG h) x.toNat).see seen) ∧ (decide (h = s.bootHost) && decide (x.toNat ≠ 3) && decide (lcAllowed s.sec.fuses.lc x.toNat = true) && decide ((List.range 64).any (fun p => s.pstate p != 0) = false) && decide (s.pins.pwrOk = true) && decide (2 ≤ s.get Reg.GLB_STS.STAGE)) = true)
    ∧ (let s : State := ({ ready with sec := { ready.sec with fuses := { ready.sec.fuses with lc := 2 } } }); let u : State := (((({ ready with sec := { ready.sec with fuses := { ready.sec.fuses with lc := 2 } } })).put (Reg.SEC_MB_CMD.OP 0) 3).put (Reg.SEC_MB_CMD.ARG 0) 3).see []; let h : HostId := 0; let x : BitVec 8 := 3; let seen : Seen := []; (Takes s h (Reg.SEC_MB_CMD.off h) ∧ s.flag (Reg.SEC_MB_STS.BUSY h) = false) ∧ (u = ((s.put (Reg.SEC_MB_CMD.OP h) 3).put (Reg.SEC_MB_CMD.ARG h) x.toNat).see seen) ∧ (decide (h = s.bootHost) && decide (x.toNat = 3) && decide (s.sec.fuses.lc = 2) && decide ((List.range 64).any (fun p => s.pstate p != 0) = false) && decide (u.recordResult (u.hostRead h (u.mbArea h) 3796) 0x414D5241 3 false s.sec.nonce ≠ 0)) = true)
    ∧ (let s : State := ready.put (Reg.SEC_MB_STS.BUSY 0) 1; let h : HostId := 0; (Takes s h (Reg.SEC_MB_CMD.off h)) ∧ (decide (s.flag (Reg.SEC_MB_STS.BUSY h) = true)) = true)
    ∧ (let s : State := ready; let u : State := (((ready).put (Reg.SEC_MB_CMD.OP 0) 4).put (Reg.SEC_MB_CMD.ARG 0) 0).see []; let h : HostId := 0; let x : BitVec 8 := 0; let seen : Seen := []; (Takes s h (Reg.SEC_MB_CMD.off h) ∧ s.flag (Reg.SEC_MB_STS.BUSY h) = false) ∧ (u = ((s.put (Reg.SEC_MB_CMD.OP h) 4).put (Reg.SEC_MB_CMD.ARG h) x.toNat).see seen) ∧ (decide (s.get Reg.SEC_LC.STATE ≠ 4) && decide (x.toNat < 128) && decide (x.toNat % 2 = 0 ∨ s.owns h (x.toNat / 2 % 64) = true)) = true)
    ∧ (let s : State := ready; let u : State := (((ready).put (Reg.SEC_MB_CMD.OP 0) 4).put (Reg.SEC_MB_CMD.ARG 0) 3).see []; let h : HostId := 0; let x : BitVec 8 := 3; let seen : Seen := []; (Takes s h (Reg.SEC_MB_CMD.off h) ∧ s.flag (Reg.SEC_MB_STS.BUSY h) = false) ∧ (u = ((s.put (Reg.SEC_MB_CMD.OP h) 4).put (Reg.SEC_MB_CMD.ARG h) x.toNat).see seen) ∧ (decide (s.get Reg.SEC_LC.STATE ≠ 4) && decide (x.toNat < 128) && decide (x.toNat % 2 = 1) && decide (s.owns h (x.toNat / 2 % 64) = false)) = true)
    ∧ (let s : State := ready; let u : State := (((ready).put (Reg.SEC_MB_CMD.OP 0) 4).put (Reg.SEC_MB_CMD.ARG 0) 200).see []; let h : HostId := 0; let x : BitVec 8 := 200; let seen : Seen := []; (Takes s h (Reg.SEC_MB_CMD.off h) ∧ s.flag (Reg.SEC_MB_STS.BUSY h) = false) ∧ (u = ((s.put (Reg.SEC_MB_CMD.OP h) 4).put (Reg.SEC_MB_CMD.ARG h) x.toNat).see seen) ∧ (decide (s.get Reg.SEC_LC.STATE ≠ 4) && decide (128 ≤ x.toNat)) = true)
    ∧ (let s : State := ready.put Reg.SEC_LC.STATE 4; let u : State := (((ready.put Reg.SEC_LC.STATE 4).put (Reg.SEC_MB_CMD.OP 0) 4).put (Reg.SEC_MB_CMD.ARG 0) 0).see []; let h : HostId := 0; let x : BitVec 8 := 0; let seen : Seen := []; (Takes s h (Reg.SEC_MB_CMD.off h) ∧ s.flag (Reg.SEC_MB_STS.BUSY h) = false) ∧ (u = ((s.put (Reg.SEC_MB_CMD.OP h) 4).put (Reg.SEC_MB_CMD.ARG h) x.toNat).see seen) ∧ (decide (s.get Reg.SEC_LC.STATE = 4)) = true)
    ∧ (let s : State := ready.put (Reg.SEC_MB_STS.BUSY 0) 1; let h : HostId := 0; (Takes s h (Reg.SEC_MB_CMD.off h)) ∧ (decide (s.flag (Reg.SEC_MB_STS.BUSY h) = true)) = true)
    ∧ (let s : State := ready; let u : State := (((ready).put (Reg.SEC_MB_CMD.OP 0) 5).put (Reg.SEC_MB_CMD.ARG 0) 0).see []; let h : HostId := 0; (Takes s h (Reg.SEC_MB_CMD.off h) ∧ s.flag (Reg.SEC_MB_STS.BUSY h) = false) ∧ (u = ((s.put (Reg.SEC_MB_CMD.OP h) 5).put (Reg.SEC_MB_CMD.ARG h) 0).see []) ∧ (decide (s.get Reg.SEC_LC.STATE ≠ 4)) = true)
    ∧ (let s : State := ready.put Reg.SEC_LC.STATE 4; let u : State := (((ready.put Reg.SEC_LC.STATE 4).put (Reg.SEC_MB_CMD.OP 0) 5).put (Reg.SEC_MB_CMD.ARG 0) 0).see []; let h : HostId := 0; (Takes s h (Reg.SEC_MB_CMD.off h) ∧ s.flag (Reg.SEC_MB_STS.BUSY h) = false) ∧ (u = ((s.put (Reg.SEC_MB_CMD.OP h) 5).put (Reg.SEC_MB_CMD.ARG h) 0).see []) ∧ (decide (s.get Reg.SEC_LC.STATE = 4)) = true)
    ∧ (let s : State := ready.put (Reg.SEC_MB_STS.BUSY 0) 1; let h : HostId := 0; (Takes s h (Reg.SEC_MB_CMD.off h)) ∧ (decide (s.flag (Reg.SEC_MB_STS.BUSY h) = true)) = true)
    ∧ (let s : State := ready; let u : State := (((ready).put (Reg.SEC_MB_CMD.OP 1) 6).put (Reg.SEC_MB_CMD.ARG 1) 9).see []; let h : HostId := 1; let x : BitVec 8 := 9; let seen : Seen := []; (Takes s h (Reg.SEC_MB_CMD.off h) ∧ s.flag (Reg.SEC_MB_STS.BUSY h) = false) ∧ (u = ((s.put (Reg.SEC_MB_CMD.OP h) 6).put (Reg.SEC_MB_CMD.ARG h) x.toNat).see seen) ∧ (decide (h ≠ s.bootHost)) = true)
    ∧ (let s : State := ready; let u : State := (((ready).put (Reg.SEC_MB_CMD.OP 0) 6).put (Reg.SEC_MB_CMD.ARG 0) 3).see []; let h : HostId := 0; let x : BitVec 8 := 3; let seen : Seen := []; (Takes s h (Reg.SEC_MB_CMD.off h) ∧ s.flag (Reg.SEC_MB_STS.BUSY h) = false) ∧ (u = ((s.put (Reg.SEC_MB_CMD.OP h) 6).put (Reg.SEC_MB_CMD.ARG h) x.toNat).see seen) ∧ (decide (h = s.bootHost) && decide (x.toNat < 8 ∨ 15 < x.toNat)) = true)
    ∧ (let s : State := ready; let u : State := (((ready).put (Reg.SEC_MB_CMD.OP 0) 6).put (Reg.SEC_MB_CMD.ARG 0) 9).see []; let h : HostId := 0; let x : BitVec 8 := 9; let seen : Seen := []; (Takes s h (Reg.SEC_MB_CMD.off h) ∧ s.flag (Reg.SEC_MB_STS.BUSY h) = false) ∧ (u = ((s.put (Reg.SEC_MB_CMD.OP h) 6).put (Reg.SEC_MB_CMD.ARG h) x.toNat).see seen) ∧ (decide (h = s.bootHost) && decide (8 ≤ x.toNat) && decide (x.toNat ≤ 15)) = true)
    ∧ (let s : State := ready.put (Reg.SEC_MB_STS.BUSY 0) 1; let h : HostId := 0; (Takes s h (Reg.SEC_MB_CMD.off h)) ∧ (decide (s.flag (Reg.SEC_MB_STS.BUSY h) = true)) = true)
    ∧ (let s : State := ready; let u : State := (((ready).put (Reg.SEC_MB_CMD.OP 1) 7).put (Reg.SEC_MB_CMD.ARG 1) 2).see []; let h : HostId := 1; let x : BitVec 8 := 2; let seen : Seen := []; (Takes s h (Reg.SEC_MB_CMD.off h) ∧ s.flag (Reg.SEC_MB_STS.BUSY h) = false) ∧ (u = ((s.put (Reg.SEC_MB_CMD.OP h) 7).put (Reg.SEC_MB_CMD.ARG h) x.toNat).see seen) ∧ (decide (h ≠ s.bootHost)) = true)
    ∧ (let s : State := ready; let u : State := (((ready).put (Reg.SEC_MB_CMD.OP 0) 7).put (Reg.SEC_MB_CMD.ARG 0) 1).see []; let h : HostId := 0; let x : BitVec 8 := 1; let seen : Seen := []; (Takes s h (Reg.SEC_MB_CMD.off h) ∧ s.flag (Reg.SEC_MB_STS.BUSY h) = false) ∧ (u = ((s.put (Reg.SEC_MB_CMD.OP h) 7).put (Reg.SEC_MB_CMD.ARG h) x.toNat).see seen) ∧ (decide (h = s.bootHost) && decide (x.toNat ≠ 2) && decide (x.toNat ≠ 3)) = true)
    ∧ (let s : State := ready; let u : State := (((ready).put (Reg.SEC_MB_CMD.OP 0) 7).put (Reg.SEC_MB_CMD.ARG 0) 2).see []; let h : HostId := 0; let x : BitVec 8 := 2; let seen : Seen := []; (Takes s h (Reg.SEC_MB_CMD.off h) ∧ s.flag (Reg.SEC_MB_STS.BUSY h) = false) ∧ (u = ((s.put (Reg.SEC_MB_CMD.OP h) 7).put (Reg.SEC_MB_CMD.ARG h) x.toNat).see seen) ∧ (decide (h = s.bootHost) && decide (x.toNat = 2 ∨ x.toNat = 3) && decide (s.sec.fuses.lc ≠ 1 ∨ s.sec.fuses.auth.getD x.toNat [] ≠ [])) = true)
    ∧ (let s : State := ({ ready with sec := { ready.sec with fuses := { ready.sec.fuses with lc := 1, auth := [[], [], [], []] } } }); let u : State := (((({ ready with sec := { ready.sec with fuses := { ready.sec.fuses with lc := 1, auth := [[], [], [], []] } } })).put (Reg.SEC_MB_CMD.OP 0) 7).put (Reg.SEC_MB_CMD.ARG 0) 2).see []; let h : HostId := 0; let x : BitVec 8 := 2; let seen : Seen := []; (Takes s h (Reg.SEC_MB_CMD.off h) ∧ s.flag (Reg.SEC_MB_STS.BUSY h) = false) ∧ (u = ((s.put (Reg.SEC_MB_CMD.OP h) 7).put (Reg.SEC_MB_CMD.ARG h) x.toNat).see seen) ∧ (decide (h = s.bootHost) && decide (x.toNat = 2 ∨ x.toNat = 3) && decide (s.sec.fuses.lc = 1) && decide (s.sec.fuses.auth.length = 4) && decide (s.sec.fuses.auth.getD x.toNat [] = [])) = true) := by
  refine ⟨?_, ?_, ?_, ?_, ?_, ?_, ?_, ?_, ?_, ?_, ?_, ?_, ?_, ?_, ?_, ?_, ?_, ?_, ?_, ?_, ?_, ?_, ?_, ?_, ?_, ?_⟩ <;> decide +kernel

/-- States and operands that meet the hypotheses of DebugEvictionAndSessions. -/
theorem witness_DebugEvictionAndSessions :
    (let s : State := ready.put (Reg.SEC_MB_STS.BUSY 0) 1; let h : HostId := 0; (Takes s h (Reg.SEC_MB_CMD.off h)) ∧ (decide (s.flag (Reg.SEC_MB_STS.BUSY h) = true)) = true)
    ∧ (let s : State := ready; let u : State := (((ready.put (Reg.SEC_MB_CMD.OP 1) 2).put (Reg.SEC_MB_CMD.ARG 1) 1).see []).dropNonce; let h : HostId := 1; let x : BitVec 8 := 1; let seen : Seen := []; (Takes s h (Reg.SEC_MB_CMD.off h) ∧ s.flag (Reg.SEC_MB_STS.BUSY h) = false) ∧ (u = (((s.put (Reg.SEC_MB_CMD.OP h) 2).put (Reg.SEC_MB_CMD.ARG h) x.toNat).see seen).dropNonce) ∧ (decide (h ≠ s.bootHost)) = true)
    ∧ (let s : State := ready; let u : State := ((((ready).put (Reg.SEC_MB_CMD.OP 0) 2).put (Reg.SEC_MB_CMD.ARG 0) 5).see []).dropNonce; let h : HostId := 0; let x : BitVec 8 := 5; let seen : Seen := []; (Takes s h (Reg.SEC_MB_CMD.off h) ∧ s.flag (Reg.SEC_MB_STS.BUSY h) = false) ∧ (u = (((s.put (Reg.SEC_MB_CMD.OP h) 2).put (Reg.SEC_MB_CMD.ARG h) x.toNat).see seen).dropNonce) ∧ (decide (h = s.bootHost) && decide (x.toNat ≠ 1) && decide (x.toNat ≠ 2)) = true)
    ∧ (let s : State := ready.put Reg.SEC_LC.STATE 4; let u : State := ((((ready.put Reg.SEC_LC.STATE 4).put (Reg.SEC_MB_CMD.OP 0) 2).put (Reg.SEC_MB_CMD.ARG 0) 1).see []).dropNonce; let h : HostId := 0; let x : BitVec 8 := 1; let seen : Seen := []; (Takes s h (Reg.SEC_MB_CMD.off h) ∧ s.flag (Reg.SEC_MB_STS.BUSY h) = false) ∧ (u = (((s.put (Reg.SEC_MB_CMD.OP h) 2).put (Reg.SEC_MB_CMD.ARG h) x.toNat).see seen).dropNonce) ∧ (decide (h = s.bootHost) && decide (x.toNat = 1 ∨ x.toNat = 2) && decide (raiseRow (s.get Reg.SEC_LC.STATE) x.toNat = none ∨ x.toNat ≤ s.get Reg.SEC_DBG.LEVEL ∨ (x.toNat = 2 ∧ s.get Reg.TALLY_STS.PSTATE = 3))) = true)
    ∧ (let s : State := ready.put Reg.SEC_LC.STATE 0; let u : State := ((((ready.put Reg.SEC_LC.STATE 0).put (Reg.SEC_MB_CMD.OP 0) 2).put (Reg.SEC_MB_CMD.ARG 0) 1).see []).dropNonce; let h : HostId := 0; let x : BitVec 8 := 1; let seen : Seen := []; (Takes s h (Reg.SEC_MB_CMD.off h) ∧ s.flag (Reg.SEC_MB_STS.BUSY h) = false) ∧ (u = (((s.put (Reg.SEC_MB_CMD.OP h) 2).put (Reg.SEC_MB_CMD.ARG h) x.toNat).see seen).dropNonce) ∧ ((match raiseRow (s.get Reg.SEC_LC.STATE) x.toNat with | some x3 => decide (h = s.bootHost) && decide (x.toNat = 1 ∨ x.toNat = 2) && decide (s.get Reg.SEC_DBG.LEVEL < x.toNat) && decide (x.toNat ≠ 2 ∨ s.get Reg.TALLY_STS.PSTATE ≠ 3) && decide (s.flag Reg.SEC_DBG.EVICTING = false) && decide (x3.1 = false) && decide (x3.2.2 = false) | _ => false)) = true)
    ∧ (let s : State := (ready.put Reg.SEC_LC.STATE 3).put Reg.SEC_DBG.EVICTING 1; let u : State := (((((ready.put Reg.SEC_LC.STATE 3).put Reg.SEC_DBG.EVICTING 1).put (Reg.SEC_MB_CMD.OP 0) 2).put (Reg.SEC_MB_CMD.ARG 0) 2).see []).dropNonce; let h : HostId := 0; let x : BitVec 8 := 2; let seen : Seen := []; (Takes s h (Reg.SEC_MB_CMD.off h) ∧ s.flag (Reg.SEC_MB_STS.BUSY h) = false) ∧ (u = (((s.put (Reg.SEC_MB_CMD.OP h) 2).put (Reg.SEC_MB_CMD.ARG h) x.toNat).see seen).dropNonce) ∧ ((match raiseRow (s.get Reg.SEC_LC.STATE) x.toNat with | some x3 => decide (h = s.bootHost) && decide (x.toNat = 1 ∨ x.toNat = 2) && decide (s.get Reg.SEC_DBG.LEVEL < x.toNat) && decide (x.toNat ≠ 2 ∨ s.get Reg.TALLY_STS.PSTATE ≠ 3) && decide (s.flag Reg.SEC_DBG.EVICTING = true) | _ => false)) = true)
    ∧ (let s : State := ready.put Reg.SEC_LC.STATE 3; let u : State := ((((ready.put Reg.SEC_LC.STATE 3).put (Reg.SEC_MB_CMD.OP 0) 2).put (Reg.SEC_MB_CMD.ARG 0) 2).see []).dropNonce; let h : HostId := 0; let x : BitVec 8 := 2; let seen : Seen := []; (Takes s h (Reg.SEC_MB_CMD.off h) ∧ s.flag (Reg.SEC_MB_STS.BUSY h) = false) ∧ (u = (((s.put (Reg.SEC_MB_CMD.OP h) 2).put (Reg.SEC_MB_CMD.ARG h) x.toNat).see seen).dropNonce) ∧ ((match raiseRow (s.get Reg.SEC_LC.STATE) x.toNat with | some x3 => decide (h = s.bootHost) && decide (x.toNat = 1 ∨ x.toNat = 2) && decide (s.get Reg.SEC_DBG.LEVEL < x.toNat) && decide (x.toNat ≠ 2 ∨ s.get Reg.TALLY_STS.PSTATE ≠ 3) && decide (s.flag Reg.SEC_DBG.EVICTING = false) && decide (x3.1 = false) && decide (x3.2.2 = true) | _ => false)) = true)
    ∧ (let s : State := ready.put Reg.SEC_LC.STATE 2; let u : State := ((((ready.put Reg.SEC_LC.STATE 2).put (Reg.SEC_MB_CMD.OP 0) 2).put (Reg.SEC_MB_CMD.ARG 0) 1).see []).dropNonce; let h : HostId := 0; let x : BitVec 8 := 1; let seen : Seen := []; (Takes s h (Reg.SEC_MB_CMD.off h) ∧ s.flag (Reg.SEC_MB_STS.BUSY h) = false) ∧ (u = (((s.put (Reg.SEC_MB_CMD.OP h) 2).put (Reg.SEC_MB_CMD.ARG h) x.toNat).see seen).dropNonce) ∧ ((match raiseRow (s.get Reg.SEC_LC.STATE) x.toNat with | some x3 => decide (h = s.bootHost) && decide (x.toNat = 1 ∨ x.toNat = 2) && decide (s.get Reg.SEC_DBG.LEVEL < x.toNat) && decide (x.toNat ≠ 2 ∨ s.get Reg.TALLY_STS.PSTATE ≠ 3) && decide (s.flag Reg.SEC_DBG.EVICTING = false) && decide (x3.1 = true) && decide (u.recordResult (u.hostRead h (u.mbArea h) 3796) 0x4E4B4F54 x.toNat x3.2.1 s.sec.nonce ≠ 0) | _ => false)) = true)
    ∧ (let s : State := ready; let h : HostId := 0; let x : BitVec 2 := 1; (Takes s h Reg.SEC_DBG.off) ∧ (decide (s.get Reg.SEC_DBG.LEVEL ≤ x.toNat)) = true ∧ (decide (s.sec.raise = none)) = true)
    ∧ (let s : State := ready.put Reg.SEC_DBG.LEVEL 2; let h : HostId := 0; let x : BitVec 2 := 1; (Takes s h Reg.SEC_DBG.off) ∧ (decide (x.toNat < s.get Reg.SEC_DBG.LEVEL)) = true)
    ∧ (let s : State := { ready with sec := { ready.sec with raise := some 2 } }; let h : HostId := 0; let x : BitVec 2 := 1; (Takes s h Reg.SEC_DBG.off) ∧ ((match s.sec.raise with | some (l) => decide (x.toNat < l) | _ => false)) = true)
    ∧ (let s : State := { ready with sec := { ready.sec with raise := some 1 } }; let h : HostId := 0; let x : BitVec 2 := 1; (Takes s h Reg.SEC_DBG.off) ∧ ((match s.sec.raise with | some (l) => decide (l ≤ x.toNat) | _ => false)) = true)
    ∧ (let s : State := ready; (decide (s.flag Reg.SEC_DBG.EVICTING = false ∨ s.sec.evicting.any (fun p => s.flag (Reg.PART_STS.BUSY p)) = true)) = true)
    ∧ (let s : State := { ready.put Reg.SEC_DBG.EVICTING 1 with sec := { ready.sec with raise := some 2 } }; (decide (s.flag Reg.SEC_DBG.EVICTING = true) && decide (s.sec.evicting.any (fun p => s.flag (Reg.PART_STS.BUSY p)) = false) && (match s.sec.raise with | some (l) => true | _ => false)) = true)
    ∧ (let s : State := ready.put Reg.SEC_DBG.EVICTING 1; (decide (s.flag Reg.SEC_DBG.EVICTING = true) && decide (s.sec.evicting.any (fun p => s.flag (Reg.PART_STS.BUSY p)) = false) && decide (s.sec.raise = none)) = true)
    ∧ (let s : State := powered; let m : Mctp := .alarms; (decide (s.pins.pwrOk = true) && decide (s.get Reg.GLB_STS.STAGE ≠ 0) && decide (m = .alarms)) = true)
    ∧ (let s : State := powered; let m : Mctp := .lifeCycle; (decide (s.pins.pwrOk = true) && decide (s.get Reg.GLB_STS.STAGE ≠ 0) && decide (m = .lifeCycle)) = true)
    ∧ (let s : State := { ready with pins := { ready.pins with pwrOk := false } }; (decide (s.pins.pwrOk = false ∨ s.get Reg.GLB_STS.STAGE = 0)) = true)
    ∧ (let s : State := powered; (s.pins.pwrOk = true ∧ s.get Reg.GLB_STS.STAGE ≠ 0) ∧ (decide (s.get Reg.SEC_LC.STATE ≠ 4)) = true)
    ∧ (let s : State := powered.put Reg.SEC_LC.STATE 4; (s.pins.pwrOk = true ∧ s.get Reg.GLB_STS.STAGE ≠ 0) ∧ (decide (s.get Reg.SEC_LC.STATE = 4)) = true)
    ∧ (let s : State := powered; (s.pins.pwrOk = true ∧ s.get Reg.GLB_STS.STAGE ≠ 0))
    ∧ (let s : State := ready; let h : HostId := 0; let good : Bool := true; (decide (s.hostUp h = true) && decide ((s.ide h).psk = false ∨ good = false)) = true)
    ∧ (let s : State := ready.setIde 0 { psk := true }; let h : HostId := 0; let good : Bool := true; (decide (s.hostUp h = true) && decide ((s.ide h).psk = true) && decide (good = true)) = true)
    ∧ (let s : State := ready.put (Reg.HOSTIF_PORT_STS.UP 0) 0; let h : HostId := 0; (decide (s.hostUp h = false)) = true)
    ∧ (let s : State := ready; let h : HostId := 0; let m : Spdm := .version; (∀ g, m ≠ .pskExchange g) ∧ (decide (s.hostUp h = true) && decide (m = .version ∨ m = .capabilities ∨ m = .algorithms)) = true)
    ∧ (let s : State := ready; let h : HostId := 0; let m : Spdm := .other; (∀ g, m ≠ .pskExchange g) ∧ (decide (s.hostUp h = true) && decide (m = .other)) = true)
    ∧ (let s : State := ready.setIde 0 { psk := true, session := true }; let h : HostId := 0; let m : Spdm := .endSession; (∀ g, m ≠ .pskExchange g) ∧ (decide (s.hostUp h = true) && decide (m = .endSession)) = true)
    ∧ (let s : State := ready.put (Reg.HOSTIF_PORT_STS.UP 0) 0; let h : HostId := 0; let m : Spdm := .version; (∀ g, m ≠ .pskExchange g) ∧ (decide (s.hostUp h = false)) = true)
    ∧ (let s : State := ready; let h : HostId := 0; (decide (s.hostUp h = true) && decide ((s.ide h).session = false)) = true)
    ∧ (let s : State := ready.put (Reg.HOSTIF_PORT_STS.UP 0) 0; let h : HostId := 0; (decide (s.hostUp h = false)) = true)
    ∧ (let s : State := ready.setIde 0 { session := true }; let h : HostId := 0; let m : IdeKm := .keyProg 2; let n : Fin 4 := 2; (s.hostUp h = true ∧ (s.ide h).session = true) ∧ (decide (m = .keyProg n)) = true)
    ∧ (let s : State := ready.setIde 0 { session := true, keyed := [2] }; let h : HostId := 0; let m : IdeKm := .keySetGo 2; let n : Fin 4 := 2; (s.hostUp h = true ∧ (s.ide h).session = true) ∧ (decide (m = .keySetGo n) && decide ((s.ide h).keyed.contains n.val = true)) = true)
    ∧ (let s : State := ready.setIde 0 { session := true }; let h : HostId := 0; let m : IdeKm := .keySetGo 2; let n : Fin 4 := 2; (s.hostUp h = true ∧ (s.ide h).session = true) ∧ (decide (m = .keySetGo n) && decide ((s.ide h).keyed.contains n.val = false)) = true)
    ∧ (let s : State := (ready.setIde 0 { session := true, keyed := [2] }).put ((Reg.SEC_HOSTSEC.SECURE 0).bit 2) 1; let h : HostId := 0; let m : IdeKm := .keySetStop 2; let n : Fin 4 := 2; (s.hostUp h = true ∧ (s.ide h).session = true) ∧ (decide (m = .keySetStop n)) = true) := by
  refine ⟨?_, ?_, ?_, ?_, ?_, ?_, ?_, ?_, ?_, ?_, ?_, ?_, ?_, ?_, ?_, ?_, ?_, ?_, ?_, ?_, ?_, ?_, ?_, ?_, ?_, ?_, ?_, ?_, ?_, ?_, ?_, ?_, ?_, ?_⟩ <;> decide +kernel

/-- States and operands that meet the hypotheses of PartitionLife. -/
theorem witness_PartitionLife :
    (let s : State := owned 1; let h : HostId := 0; let p : PartId := 1; let o : HostId := 0; (Takes s h (Reg.PART_ALLOC.off p)) ∧ (decide (s.pstate p ≠ 0 ∨ (o.val = 1 - s.get Reg.GLB_STRAP.HOST ∧ s.get Reg.GLB_STRAP.HOST < 2) ∨ s.claimBarred = true)) = true)
    ∧ (let s : State := ready.put Reg.GLB_STRAP.HOST 2; let h : HostId := 0; let p : PartId := 1; let o : HostId := 0; (Takes s h (Reg.PART_ALLOC.off p)) ∧ (decide (s.pstate p = 0) && decide (o.val ≠ 1 - s.get Reg.GLB_STRAP.HOST ∨ 2 ≤ s.get Reg.GLB_STRAP.HOST) && decide (s.claimBarred = false)) = true)
    ∧ (let s : State := owned 1; let h : HostId := 0; let p : PartId := 1; let r : BitVec 3 := 5; (Takes s h (Reg.PART_ALLOC.off p)) ∧ (decide (2 ≤ s.pstate p) && decide (r.toNat ≠ s.get (Reg.PART_ALLOC.STREAM p) + 2 * s.get (Reg.PART_ALLOC.PROG p) + 4 * s.get (Reg.PART_ALLOC.SAVE p))) = true)
    ∧ (let s : State := owned 1; let h : HostId := 0; let p : PartId := 1; let o : HostId := 0; let r : BitVec 3 := 0; (Takes s h (Reg.PART_ALLOC.off p)) ∧ (decide (2 ≤ s.pstate p) && decide (s.get (Reg.PART_ALLOC.OWNER p) = o.val) && decide (r.toNat = s.get (Reg.PART_ALLOC.STREAM p) + 2 * s.get (Reg.PART_ALLOC.PROG p) + 4 * s.get (Reg.PART_ALLOC.SAVE p))) = true)
    ∧ (let s : State := owned 1; let h : HostId := 0; let p : PartId := 1; let o : HostId := 1; (Takes s h (Reg.PART_ALLOC.off p)) ∧ (decide (s.pstate p ≠ 0) && decide (s.get (Reg.PART_ALLOC.OWNER p) ≠ o.val)) = true)
    ∧ (let s : State := (owned 1).put (Reg.PART_STS.STATE 1) 1; let h : HostId := 0; let p : PartId := 1; let o : HostId := 0; (Takes s h (Reg.PART_ALLOC.off p)) ∧ (decide (s.pstate p = 1) && decide (s.get (Reg.PART_ALLOC.OWNER p) = o.val)) = true)
    ∧ (let s : State := ready.put Reg.GLB_STRAP.HOST 2; let h : HostId := 0; let p : PartId := 1; let o : HostId := 0; (Takes s h (Reg.PART_ALLOC.off p)) ∧ (decide (s.pstate p = 0) && decide (o.val ≠ 1 - s.get Reg.GLB_STRAP.HOST ∨ 2 ≤ s.get Reg.GLB_STRAP.HOST)) = true)
    ∧ (let s : State := ready.put Reg.GLB_STRAP.HOST 0; let h : HostId := 0; let p : PartId := 1; let o : HostId := 1; (Takes s h (Reg.PART_ALLOC.off p)) ∧ (decide (s.pstate p = 0) && decide (o.val = 1 - s.get Reg.GLB_STRAP.HOST) && decide (s.get Reg.GLB_STRAP.HOST < 2)) = true)
    ∧ (let s : State := owned 1; let h : HostId := 0; let p : PartId := 1; (Takes s h (Reg.PART_CTL.off p)) ∧ (decide (s.flag (Reg.PART_STS.BUSY p) = true ∨ s.pstate p ≠ 1)) = true)
    ∧ (let s : State := (owned 1).put (Reg.PART_STS.STATE 1) 1; let h : HostId := 0; let p : PartId := 1; (Takes s h (Reg.PART_CTL.off p)) ∧ (decide (s.flag (Reg.PART_STS.BUSY p) = false) && decide (s.pstate p = 1)) = true)
    ∧ (let s : State := owned 1; let h : HostId := 0; let p : PartId := 1; (Takes s h (Reg.PART_CTL.off p)) ∧ (decide (s.flag (Reg.PART_STS.BUSY p) = true ∨ s.flag (Reg.PART_STS.ORPHAN p) = false)) = true)
    ∧ (let s : State := (owned 1).put (Reg.PART_STS.ORPHAN 1) 1; let h : HostId := 0; let p : PartId := 1; let x : Bool := false; (Takes s h (Reg.PART_CTL.off p)) ∧ (decide (s.flag (Reg.PART_STS.BUSY p) = false) && decide (s.flag (Reg.PART_STS.ORPHAN p) = true) && decide (x = false ∨ s.graceRuns p = false)) = true)
    ∧ (let s : State := (owned 1).put (Reg.PART_STS.ORPHAN 1) 1; let h : HostId := 0; let p : PartId := 1; let x : Bool := true; (Takes s h (Reg.PART_CTL.off p)) ∧ (decide (s.flag (Reg.PART_STS.BUSY p) = false) && decide (x = true) && decide (s.graceRuns p = true)) = true)
    ∧ (let s : State := (owned 1).put (Reg.PART_STS.BUSY 1) 1; let h : HostId := 0; let p : PartId := 1; (Takes s h (Reg.PART_CTL.off p)) ∧ (decide (s.flag (Reg.PART_STS.BUSY p) = true ∨ s.pstate p = 0)) = true)
    ∧ (let s : State := owned 1; let h : HostId := 0; let p : PartId := 1; (Takes s h (Reg.PART_CTL.off p)) ∧ (decide (s.flag (Reg.PART_STS.BUSY p) = false) && decide (s.pstate p ≠ 0)) = true)
    ∧ (let s : State := owned 1; let h : HostId := 0; let p : PartId := 1; (Takes s h (Reg.PART_CTL.off p)) ∧ (decide (s.flag (Reg.PART_STS.BUSY p) = true ∨ s.pstate p ≠ 1)) = true)
    ∧ (let s : State := (owned 1).put (Reg.PART_STS.STATE 1) 1; let h : HostId := 0; let p : PartId := 1; (Takes s h (Reg.PART_CTL.off p)) ∧ (decide (s.flag (Reg.PART_STS.BUSY p) = false) && decide (s.pstate p = 1)) = true)
    ∧ (let s : State := (((owned 1).put (Reg.PART_ALLOC.OWNER 1) 1).put (Reg.PART_STS.STATE 1) 4).put (Reg.PART_HOST_STS.LOST 1) 1; let h : HostId := 0; let p : PartId := 1; (s.bar0Reach h (Reg.PART_CTL.off p) = true ∧ s.boot.warm = false ∧ s.preReady = false) ∧ (s.bootMayWrite h = true ∧ (s.owner p != h) = true ∧ s.pstate p = 4 ∧ s.hostLost (s.owner p) = true ∧ s.flag (Reg.PART_STS.BUSY p) = false))
    ∧ (let s : State := owned 1; let p : PartId := 1; (decide (s.parts.resets.find? (fun r => r.part == p.val) = none ∨ s.wins.desc.any (fun (e : Nat × Window) => e.2.state != 0 && cidPart e.2.cid == p.val) = true)) = true)
    ∧ (let s : State := { (owned 1).put (Reg.PART_STS.BUSY 1) 1 with parts := { resets := [{ part := 1, frees := false }] } }; let p : PartId := 1; ((match s.parts.resets.find? (fun r => r.part == p.val) with | some r => decide (s.wins.desc.any (fun (e : Nat × Window) => e.2.state != 0 && cidPart e.2.cid == p.val) = false) && decide (r.frees = false) | _ => false)) = true)
    ∧ (let s : State := { (owned 1).put (Reg.PART_STS.BUSY 1) 1 with parts := { resets := [{ part := 1, frees := true }] } }; let p : PartId := 1; ((match s.parts.resets.find? (fun r => r.part == p.val) with | some r => decide (s.wins.desc.any (fun (e : Nat × Window) => e.2.state != 0 && cidPart e.2.cid == p.val) = false) && decide (r.frees = true) | _ => false)) = true)
    ∧ (let s : State := owned 1; let h : HostId := 0; let off : BitVec 24 := 0x81050; let p : Nat := 1; (Takes s h off.toNat) ∧ (holdingOff off.toNat = true ∧ p = holdingPart off.toNat) ∧ (decide (s.pstate p ≠ 1)) = true)
    ∧ (let s : State := (owned 1).put (Reg.PART_STS.STATE 1) 1; let h : HostId := 0; let off : BitVec 24 := 0x81050; let v : Word := 0x5003; let p : Nat := 1; (Takes s h off.toNat) ∧ (holdingOff off.toNat = true ∧ p = holdingPart off.toNat) ∧ (decide (s.pstate p = 1) && decide (off.toNat < 0x82000) && decide (off.toNat % 0x40 = 0x10) && decide ((s.applyWrite off.toNat v).keysOk p = true)) = true)
    ∧ (let s : State := ((owned 1).put (Reg.PART_STS.STATE 1) 1).put (Reg.PART_KEYS.NUM 0) 16; let h : HostId := 0; let off : BitVec 24 := 0x81050; let v : Word := 0x5003; let p : Nat := 1; (Takes s h off.toNat) ∧ (holdingOff off.toNat = true ∧ p = holdingPart off.toNat) ∧ (decide (s.pstate p = 1) && decide (off.toNat < 0x82000) && decide (off.toNat % 0x40 = 0x10) && decide ((s.applyWrite off.toNat v).keysOk p = false)) = true)
    ∧ (let s : State := (owned 1).put (Reg.PART_STS.STATE 1) 1; let h : HostId := 0; let off : BitVec 24 := 0x8105C; let v : Word := 5; let p : Nat := 1; (Takes s h off.toNat) ∧ (holdingOff off.toNat = true ∧ p = holdingPart off.toNat) ∧ (decide (s.pstate p = 1) && decide (off.toNat < 0x82000) && decide (0x14 ≤ off.toNat % 0x40) && decide ((s.applyWrite off.toNat v).avOk p = false)) = true)
    ∧ (let s : State := ((owned 1).put (Reg.PART_STS.STATE 1) 1).put (Reg.PART_APT_LIMIT_LO.LIMIT_LO 1 0) 0; let h : HostId := 0; let off : BitVec 24 := 0x82080; let v : Word := 0x200001; let p : Nat := 1; (Takes s h off.toNat) ∧ (holdingOff off.toNat = true ∧ p = holdingPart off.toNat) ∧ (decide (s.pstate p = 1) && decide (0x82000 ≤ off.toNat) && decide (off.toNat < 0x84000) && decide ((s.applyWrite off.toNat v).aperturesOk p = false)) = true)
    ∧ (let s : State := (owned 1).put (Reg.PART_STS.STATE 1) 1; let h : HostId := 0; let off : BitVec 24 := 0x84040; let v : Word := 0x80000105; let p : Nat := 1; (Takes s h off.toNat) ∧ (holdingOff off.toNat = true ∧ p = holdingPart off.toNat) ∧ (decide (s.pstate p = 1) && decide (0x84000 ≤ off.toNat) && decide (off.toNat < 0x85000) && decide ((s.applyWrite off.toNat v).sharesOk p = true)) = true)
    ∧ (let s : State := ((owned 1).put (Reg.PART_STS.STATE 1) 1).put (Reg.PART_HOST_PORTS_LO.PORTS 0) 0; let h : HostId := 0; let off : BitVec 24 := 0x84040; let v : Word := 0x80000105; let p : Nat := 1; (Takes s h off.toNat) ∧ (holdingOff off.toNat = true ∧ p = holdingPart off.toNat) ∧ (decide (s.pstate p = 1) && decide (0x84000 ≤ off.toNat) && decide (off.toNat < 0x85000) && decide ((s.applyWrite off.toNat v).sharesOk p = false)) = true)
    ∧ (let s : State := (owned 1).put (Reg.PART_STS.STATE 1) 1; let h : HostId := 0; let off : BitVec 24 := 0x90200; let v : Word := 0xFF00; let p : Nat := 1; (Takes s h off.toNat) ∧ (holdingOff off.toNat = true ∧ p = holdingPart off.toNat) ∧ (decide (s.pstate p = 1) && decide (0x90000 ≤ off.toNat) && decide ((s.applyWrite off.toNat v).coresOk p = true)) = true)
    ∧ (let s : State := (owned 1).put (Reg.PART_STS.STATE 1) 1; let h : HostId := 0; let off : BitVec 24 := 0x90200; let v : Word := 0xFF01; let p : Nat := 1; (Takes s h off.toNat) ∧ (holdingOff off.toNat = true ∧ p = holdingPart off.toNat) ∧ (decide (s.pstate p = 1) && decide (0x90000 ≤ off.toNat) && decide ((s.applyWrite off.toNat v).coresOk p = false)) = true)
    ∧ (let s : State := owned 1; let h : HostId := 0; let p : PartId := 1; let off : BitVec 24 := 0x40101C; (Takes s h off.toNat ∧ off.toNat = Reg.KENNEL_SHARE.off p) ∧ (decide (s.pstate p ≠ 1)) = true)
    ∧ (let s : State := (owned 1).put (Reg.PART_STS.STATE 1) 1; let h : HostId := 0; let p : PartId := 1; let off : BitVec 24 := 0x40101C; (Takes s h off.toNat ∧ off.toNat = Reg.KENNEL_SHARE.off p) ∧ (decide (s.pstate p = 1)) = true) := by
  refine ⟨?_, ?_, ?_, ?_, ?_, ?_, ?_, ?_, ?_, ?_, ?_, ?_, ?_, ?_, ?_, ?_, ?_, ?_, ?_, ?_, ?_, ?_, ?_, ?_, ?_, ?_, ?_, ?_, ?_, ?_, ?_, ?_⟩ <;> decide +kernel

/-- States and operands that meet the hypotheses of HostsAndOrphans. -/
theorem witness_HostsAndOrphans :
    (let s : State := ready; let h : HostId := 0; let f : HostId := 0; let v : Word := 0x50010; (Takes s h (Reg.PART_HOST_CTL.off f)) ∧ (decide (1 ≤ wordField v 0 16) && decide (wordField v 0 16 ≤ 60000)) = true)
    ∧ (let s : State := ready; let h : HostId := 0; let f : HostId := 0; let v : Word := 0; (Takes s h (Reg.PART_HOST_CTL.off f)) ∧ (decide (wordField v 0 16 = 0 ∨ 60000 < wordField v 0 16)) = true)
    ∧ (let s : State := ready; let h : HostId := 0; let f : HostId := 0; (Takes s h (Reg.PART_HOST_KICK.off f)))
    ∧ (let s : State := ready; let h : HostId := 0; (decide ((s.host h).wdog = false)) = true)
    ∧ (let s : State := (owned 1).setHost 0 { wdog := true }; let h : HostId := 0; (decide ((s.host h).wdog = true) && decide (s.hostLost h = false)) = true)
    ∧ (let s : State := owned 1; let p : PartId := 1; (decide (s.flag (Reg.PART_STS.ORPHAN p) = false ∨ s.flag (Reg.PART_STS.BUSY p) = true ∨ s.pstate p = 0 ∨ s.pstate p = 4)) = true)
    ∧ (let s : State := (owned 1).put (Reg.PART_STS.ORPHAN 1) 1; let p : PartId := 1; (decide (s.flag (Reg.PART_STS.ORPHAN p) = true) && decide (s.flag (Reg.PART_STS.BUSY p) = false) && decide (s.pstate p = 1 ∨ s.pstate p = 2 ∨ s.pstate p = 3)) = true)
    ∧ (let s : State := owned 1; let h : HostId := 0; (decide (s.hostUp h = true) && decide (s.hostLost h = false)) = true)
    ∧ (let s : State := ready.put (Reg.HOSTIF_PORT_STS.UP 0) 0; let h : HostId := 0; (decide (s.hostUp h = false)) = true)
    ∧ (let s : State := ready.put Reg.GLB_STRAP.HOST 1; let h : HostId := 0; (decide (s.get Reg.GLB_STRAP.HOST = 1 - h.val) && decide (h.val ≤ 1)) = true)
    ∧ (let s : State := ready.put Reg.GLB_STRAP.HOST 2; let h : HostId := 0; (decide (s.get Reg.GLB_STRAP.HOST = h.val ∨ 2 ≤ s.get Reg.GLB_STRAP.HOST)) = true)
    ∧ (let s : State := owned 1; let h : HostId := 0; (decide (s.hostLost h = false)) = true)
    ∧ (let s : State := (owned 1).put (Reg.PART_HOST_STS.LOST 0) 1; let h : HostId := 0; (decide (s.hostLost h = true)) = true)
    ∧ (let s : State := owned 1; let h : HostId := 0; (decide ((List.range 64).any (fun p => s.owns h p) = true)) = true)
    ∧ (let s : State := ready; let h : HostId := 0; (decide ((List.range 64).any (fun p => s.owns h p) = false)) = true)
    ∧ (let s : State := ready; let i : BitVec 20 := 5; (decide (s.parts.insts = []) && decide (s.wins.revs.find? (fun r => r.index == i.toNat) = none)) = true)
    ∧ (let s : State := { ready with wins := { desc := [(5, { cid := 1024, state := 2, gen := 1, space := 1 })], revs := [{ index := 5, waiters := [] }] } }; let i : BitVec 20 := 5; ((match s.wins.revs.find? (fun r => r.index == i.toNat) with | some r => decide (s.parts.insts = []) && decide (r.fenced = false ∨ (s.win i.toNat).inflight ≠ 0 ∨ (s.win i.toNat).state ≠ 2 ∨ s.backReach (s.win i.toNat) = false) | _ => false)) = true)
    ∧ (let s : State := { ready with wins := { desc := [(5, { cid := 1024, state := 2, gen := 1, space := 1 })], revs := [{ index := 5, waiters := [.reg 1], fenced := true }] } }; let i : BitVec 20 := 5; let p : PartId := 1; ((match s.wins.revs.find? (fun r => r.index == i.toNat) with | some r => decide (r.fenced = true) && decide ((s.win i.toNat).inflight = 0) && decide ((s.win i.toNat).state = 2) && decide (s.backReach (s.win i.toNat) = true) && decide (s.wins.retired.contains i.toNat = false) | _ => false)) = true ∧ ((match s.wins.revs.find? (fun r => r.index == i.toNat) with | some r => decide (r.fenced = true) && decide ((s.win i.toNat).inflight = 0) && decide ((s.win i.toNat).state = 2) && decide (s.backReach (s.win i.toNat) = true) && decide (s.parts.insts = []) && decide (r.waiters = [.reg p.val]) | _ => false)) = true) := by
  refine ⟨?_, ?_, ?_, ?_, ?_, ?_, ?_, ?_, ?_, ?_, ?_, ?_, ?_, ?_, ?_, ?_, ?_, ?_⟩ <;> decide +kernel

/-- States and operands that meet the hypotheses of InstanceCommands. -/
theorem witness_InstanceCommands :
    (let s : State := ready.put (Reg.PART_CMD_STS.BUSY 0) 1; let h : HostId := 0; (Takes s h (Reg.PART_CMD.off h) ∧ s.flag (Reg.PART_CMD_STS.BUSY h) = true))
    ∧ (let s : State := (owned 1); let u : State := ((owned 1).applyWrite (Reg.PART_CMD.off 0) (partWord 1 false 1 5)).see []; let h : HostId := 0; let p : PartId := 1; let i : BitVec 10 := 5; (Takes s h (Reg.PART_CMD.off h) ∧ s.flag (Reg.PART_CMD_STS.BUSY h) = false) ∧ (u = (s.applyWrite (Reg.PART_CMD.off h) (partWord 1 false p i)).see []) ∧ (decide (u.inP2 = false) && decide (u.owner p = h) && decide (u.pstate p = 2) && decide (i.toNat ≠ 1023) && decide (u.instPart? i.toNat = none)) = true)
    ∧ (let s : State := (((owned 1).put (Reg.PART_INST.STATE 5) 1).put (Reg.PART_INST.PARTITION 5) 1); let u : State := ((((owned 1).put (Reg.PART_INST.STATE 5) 1).put (Reg.PART_INST.PARTITION 5) 1).applyWrite (Reg.PART_CMD.off 0) (partWord 1 false 1 5)).see []; let h : HostId := 0; let p : PartId := 1; let i : BitVec 10 := 5; (Takes s h (Reg.PART_CMD.off h) ∧ s.flag (Reg.PART_CMD_STS.BUSY h) = false) ∧ (u = (s.applyWrite (Reg.PART_CMD.off h) (partWord 1 false p i)).see []) ∧ ((match u.instCheck h 1 p i.toNat with | some (r) => decide (u.inP2 = false) | _ => false)) = true)
    ∧ (let s : State := (owned 2); let u : State := ((owned 2).applyWrite (Reg.PART_CMD.off 0) (partWord 1 false 1 5)).see []; let h : HostId := 0; let p : PartId := 1; let i : BitVec 10 := 5; (Takes s h (Reg.PART_CMD.off h) ∧ s.flag (Reg.PART_CMD_STS.BUSY h) = false) ∧ (u = (s.applyWrite (Reg.PART_CMD.off h) (partWord 1 false p i)).see []) ∧ (decide (u.inP2 = false) && decide (u.owner p ≠ h ∨ u.pstate p = 0 ∨ u.pstate p = 1 ∨ u.pstate p = 4)) = true)
    ∧ (let s : State := ((owned 1).put Reg.TALLY_STS.PSTATE 2); let u : State := (((owned 1).put Reg.TALLY_STS.PSTATE 2).applyWrite (Reg.PART_CMD.off 0) (partWord 1 false 1 5)).see []; let h : HostId := 0; let p : PartId := 1; let i : BitVec 10 := 5; (Takes s h (Reg.PART_CMD.off h) ∧ s.flag (Reg.PART_CMD_STS.BUSY h) = false) ∧ (u = (s.applyWrite (Reg.PART_CMD.off h) (partWord 1 false p i)).see []) ∧ (decide (u.inP2 = true)) = true)
    ∧ (let s : State := ready.put (Reg.PART_CMD_STS.BUSY 0) 1; let h : HostId := 0; (Takes s h (Reg.PART_CMD.off h) ∧ s.flag (Reg.PART_CMD_STS.BUSY h) = true))
    ∧ (let s : State := (((owned 1).put (Reg.PART_INST.STATE 5) 1).put (Reg.PART_INST.PARTITION 5) 1); let u : State := ((((owned 1).put (Reg.PART_INST.STATE 5) 1).put (Reg.PART_INST.PARTITION 5) 1).applyWrite (Reg.PART_CMD.off 0) (partWord 2 false 1 5)).see []; let h : HostId := 0; let p : PartId := 1; let i : BitVec 10 := 5; (Takes s h (Reg.PART_CMD.off h) ∧ s.flag (Reg.PART_CMD_STS.BUSY h) = false) ∧ (u = (s.applyWrite (Reg.PART_CMD.off h) (partWord 2 false p i)).see []) ∧ (decide (u.inP2 = false) && decide (u.instCheck h 2 p i.toNat = none)) = true ∧ (decide (u.inP2 = false) && decide (u.instCheck h 2 p i.toNat = none) && decide (s.wins.desc = []) && decide (s.parts.insts = [])) = true)
    ∧ (let s : State := (owned 1); let u : State := ((owned 1).applyWrite (Reg.PART_CMD.off 0) (partWord 2 false 1 5)).see []; let h : HostId := 0; let p : PartId := 1; let i : BitVec 10 := 5; (Takes s h (Reg.PART_CMD.off h) ∧ s.flag (Reg.PART_CMD_STS.BUSY h) = false) ∧ (u = (s.applyWrite (Reg.PART_CMD.off h) (partWord 2 false p i)).see []) ∧ ((match u.instCheck h 2 p i.toNat with | some (r) => decide (u.inP2 = false) | _ => false)) = true)
    ∧ (let s : State := (owned 2); let u : State := ((owned 2).applyWrite (Reg.PART_CMD.off 0) (partWord 2 false 1 5)).see []; let h : HostId := 0; let p : PartId := 1; let i : BitVec 10 := 5; (Takes s h (Reg.PART_CMD.off h) ∧ s.flag (Reg.PART_CMD_STS.BUSY h) = false) ∧ (u = (s.applyWrite (Reg.PART_CMD.off h) (partWord 2 false p i)).see []) ∧ (decide (u.inP2 = false) && decide (u.owner p ≠ h ∨ u.pstate p = 0 ∨ u.pstate p = 1 ∨ u.pstate p = 4)) = true)
    ∧ (let s : State := ((owned 1).put Reg.TALLY_STS.PSTATE 2); let u : State := (((owned 1).put Reg.TALLY_STS.PSTATE 2).applyWrite (Reg.PART_CMD.off 0) (partWord 2 false 1 5)).see []; let h : HostId := 0; let p : PartId := 1; let i : BitVec 10 := 5; (Takes s h (Reg.PART_CMD.off h) ∧ s.flag (Reg.PART_CMD_STS.BUSY h) = false) ∧ (u = (s.applyWrite (Reg.PART_CMD.off h) (partWord 2 false p i)).see []) ∧ (decide (u.inP2 = true)) = true)
    ∧ (let s : State := ready.put (Reg.PART_CMD_STS.BUSY 0) 1; let h : HostId := 0; (Takes s h (Reg.PART_CMD.off h) ∧ s.flag (Reg.PART_CMD_STS.BUSY h) = true))
    ∧ (let s : State := (((owned 1).put (Reg.PART_INST.STATE 5) 1).put (Reg.PART_INST.PARTITION 5) 1); let u : State := ((((owned 1).put (Reg.PART_INST.STATE 5) 1).put (Reg.PART_INST.PARTITION 5) 1).applyWrite (Reg.PART_CMD.off 0) (partWord 3 false 1 5)).see []; let h : HostId := 0; let p : PartId := 1; let i : BitVec 10 := 5; (Takes s h (Reg.PART_CMD.off h) ∧ s.flag (Reg.PART_CMD_STS.BUSY h) = false) ∧ (u = (s.applyWrite (Reg.PART_CMD.off h) (partWord 3 false p i)).see []) ∧ (decide (u.inP2 = false) && decide (u.instCheck h 3 p i.toNat = none)) = true ∧ (decide (u.inP2 = false) && decide (u.instCheck h 3 p i.toNat = none) && decide (s.wins.desc = []) && decide (s.parts.insts = [])) = true)
    ∧ (let s : State := (owned 1); let u : State := ((owned 1).applyWrite (Reg.PART_CMD.off 0) (partWord 3 false 1 5)).see []; let h : HostId := 0; let p : PartId := 1; let i : BitVec 10 := 5; (Takes s h (Reg.PART_CMD.off h) ∧ s.flag (Reg.PART_CMD_STS.BUSY h) = false) ∧ (u = (s.applyWrite (Reg.PART_CMD.off h) (partWord 3 false p i)).see []) ∧ ((match u.instCheck h 3 p i.toNat with | some (r) => decide (u.inP2 = false) | _ => false)) = true)
    ∧ (let s : State := (owned 2); let u : State := ((owned 2).applyWrite (Reg.PART_CMD.off 0) (partWord 3 false 1 5)).see []; let h : HostId := 0; let p : PartId := 1; let i : BitVec 10 := 5; (Takes s h (Reg.PART_CMD.off h) ∧ s.flag (Reg.PART_CMD_STS.BUSY h) = false) ∧ (u = (s.applyWrite (Reg.PART_CMD.off h) (partWord 3 false p i)).see []) ∧ (decide (u.inP2 = false) && decide (u.owner p ≠ h ∨ u.pstate p = 0 ∨ u.pstate p = 1 ∨ u.pstate p = 4)) = true)
    ∧ (let s : State := ((owned 1).put Reg.TALLY_STS.PSTATE 2); let u : State := (((owned 1).put Reg.TALLY_STS.PSTATE 2).applyWrite (Reg.PART_CMD.off 0) (partWord 3 false 1 5)).see []; let h : HostId := 0; let p : PartId := 1; let i : BitVec 10 := 5; (Takes s h (Reg.PART_CMD.off h) ∧ s.flag (Reg.PART_CMD_STS.BUSY h) = false) ∧ (u = (s.applyWrite (Reg.PART_CMD.off h) (partWord 3 false p i)).see []) ∧ (decide (u.inP2 = true)) = true) := by
  refine ⟨?_, ?_, ?_, ?_, ?_, ?_, ?_, ?_, ?_, ?_, ?_, ?_, ?_, ?_, ?_⟩ <;> decide +kernel

/-- States and operands that meet the hypotheses of FreezeThawSaveRestore. -/
theorem witness_FreezeThawSaveRestore :
    (let s : State := ready.put (Reg.PART_CMD_STS.BUSY 0) 1; let h : HostId := 0; (Takes s h (Reg.PART_CMD.off h) ∧ s.flag (Reg.PART_CMD_STS.BUSY h) = true))
    ∧ (let s : State := (owned 2); let u : State := (if (false = false) ∧ ((owned 2)).pstate 1 ≠ 2 then (((owned 2).applyWrite (Reg.PART_CMD.off 0) (partWord 4 false 1 5)).see []).notListed 0 1 else ((owned 2).applyWrite (Reg.PART_CMD.off 0) (partWord 4 false 1 5)).see []); let h : HostId := 0; let p : PartId := 1; let i : BitVec 10 := 5; let sc : Bool := false; let j : Option Nat := none; (Takes s h (Reg.PART_CMD.off h) ∧ s.flag (Reg.PART_CMD_STS.BUSY h) = false ∧ j = (if sc then some i.toNat else none)) ∧ (u = (if sc = false ∧ s.pstate p ≠ 2 then ((s.applyWrite (Reg.PART_CMD.off h) (partWord 4 sc p i)).see []).notListed h p else (s.applyWrite (Reg.PART_CMD.off h) (partWord 4 sc p i)).see [])) ∧ ((match u.scopeCheck h p j with | some (r) => true | _ => false)) = true)
    ∧ (let s : State := ((owned 1).put (Reg.PART_STS.STATE 1) 3); let u : State := (if (false = false) ∧ (((owned 1).put (Reg.PART_STS.STATE 1) 3)).pstate 1 ≠ 2 then ((((owned 1).put (Reg.PART_STS.STATE 1) 3).applyWrite (Reg.PART_CMD.off 0) (partWord 4 false 1 5)).see []).notListed 0 1 else (((owned 1).put (Reg.PART_STS.STATE 1) 3).applyWrite (Reg.PART_CMD.off 0) (partWord 4 false 1 5)).see []); let h : HostId := 0; let p : PartId := 1; let i : BitVec 10 := 5; let sc : Bool := false; let j : Option Nat := none; (Takes s h (Reg.PART_CMD.off h) ∧ s.flag (Reg.PART_CMD_STS.BUSY h) = false ∧ j = (if sc then some i.toNat else none)) ∧ (u = (if sc = false ∧ s.pstate p ≠ 2 then ((s.applyWrite (Reg.PART_CMD.off h) (partWord 4 sc p i)).see []).notListed h p else (s.applyWrite (Reg.PART_CMD.off h) (partWord 4 sc p i)).see [])) ∧ (decide (u.scopeCheck h p j = none) && decide (u.pstate p ≠ 2 ∨ u.scopeFrozen p j = true ∨ u.get (Reg.SCHED_STATE.ACT p) = 1 ∨ u.get (Reg.SCHED_STATE.PEND p) ≠ 0)) = true)
    ∧ (let s : State := (owned 1); let u : State := (if (false = false) ∧ ((owned 1)).pstate 1 ≠ 2 then (((owned 1).applyWrite (Reg.PART_CMD.off 0) (partWord 4 false 1 5)).see []).notListed 0 1 else ((owned 1).applyWrite (Reg.PART_CMD.off 0) (partWord 4 false 1 5)).see []); let h : HostId := 0; let p : PartId := 1; let i : BitVec 10 := 5; let sc : Bool := false; let j : Option Nat := none; (Takes s h (Reg.PART_CMD.off h) ∧ s.flag (Reg.PART_CMD_STS.BUSY h) = false ∧ j = (if sc then some i.toNat else none)) ∧ (u = (if sc = false ∧ s.pstate p ≠ 2 then ((s.applyWrite (Reg.PART_CMD.off h) (partWord 4 sc p i)).see []).notListed h p else (s.applyWrite (Reg.PART_CMD.off h) (partWord 4 sc p i)).see [])) ∧ (decide (u.scopeCheck h p j = none) && decide (u.pstate p = 2) && decide (u.scopeFrozen p j = false) && decide (u.get (Reg.SCHED_STATE.ACT p) ≠ 1) && decide (u.get (Reg.SCHED_STATE.PEND p) = 0) && decide (s.qps = [])) = true)
    ∧ (let s : State := owned 1; let h : HostId := 0; (decide (s.parts.freezes.find? (fun f => f.host == h) = none)) = true)
    ∧ (let s : State := freezing; let h : HostId := 0; ((match s.parts.freezes.find? (fun f => f.host == h) with | some f => decide ((s.freezeQps f.part f.inst).settled f.part f.inst = true) && decide (f.inst = none) && decide (f.part < 64) && decide ((s.freezeQps f.part f.inst).coresOf f.part = []) | _ => false)) = true)
    ∧ (let s : State := { owned 1 with parts := { freezes := [{ host := 0, part := 1, inst := some 5 }] } }; let h : HostId := 0; ((match s.parts.freezes.find? (fun f => f.host == h) with | some f => decide ((s.freezeQps f.part f.inst).settled f.part f.inst = true) && (match f.inst with | some i => decide (i < 1023) | _ => false) | _ => false)) = true)
    ∧ (let s : State := { owned 1 with parts := { freezes := [{ host := 0, part := 1, inst := some 5 }] }, wins := { desc := [(5, { cid := 1029, state := 1, opener := 5, inflight := 1 })] } }; let h : HostId := 0; ((match s.parts.freezes.find? (fun f => f.host == h) with | some f => decide ((s.freezeQps f.part f.inst).settled f.part f.inst = false) | _ => false)) = true)
    ∧ (let s : State := ready.put (Reg.PART_CMD_STS.BUSY 0) 1; let h : HostId := 0; (Takes s h (Reg.PART_CMD.off h) ∧ s.flag (Reg.PART_CMD_STS.BUSY h) = true))
    ∧ (let s : State := (owned 2); let u : State := (if (false = false) ∧ ((owned 2)).pstate 1 ≠ 3 then (((owned 2).applyWrite (Reg.PART_CMD.off 0) (partWord 5 false 1 5)).see []).notListed 0 1 else ((owned 2).applyWrite (Reg.PART_CMD.off 0) (partWord 5 false 1 5)).see []); let h : HostId := 0; let p : PartId := 1; let i : BitVec 10 := 5; let sc : Bool := false; let j : Option Nat := none; let seen : Seen := []; (Takes s h (Reg.PART_CMD.off h) ∧ s.flag (Reg.PART_CMD_STS.BUSY h) = false ∧ j = (if sc then some i.toNat else none)) ∧ (u = (if sc = false ∧ s.pstate p ≠ 3 then ((s.applyWrite (Reg.PART_CMD.off h) (partWord 5 sc p i)).see seen).notListed h p else (s.applyWrite (Reg.PART_CMD.off h) (partWord 5 sc p i)).see seen)) ∧ ((match u.scopeCheck h p j with | some (r) => true | _ => false)) = true)
    ∧ (let s : State := (owned 1); let u : State := (if (false = false) ∧ ((owned 1)).pstate 1 ≠ 3 then (((owned 1).applyWrite (Reg.PART_CMD.off 0) (partWord 5 false 1 5)).see []).notListed 0 1 else ((owned 1).applyWrite (Reg.PART_CMD.off 0) (partWord 5 false 1 5)).see []); let h : HostId := 0; let p : PartId := 1; let i : BitVec 10 := 5; let sc : Bool := false; let j : Option Nat := none; let seen : Seen := []; (Takes s h (Reg.PART_CMD.off h) ∧ s.flag (Reg.PART_CMD_STS.BUSY h) = false ∧ j = (if sc then some i.toNat else none)) ∧ (u = (if sc = false ∧ s.pstate p ≠ 3 then ((s.applyWrite (Reg.PART_CMD.off h) (partWord 5 sc p i)).see seen).notListed h p else (s.applyWrite (Reg.PART_CMD.off h) (partWord 5 sc p i)).see seen)) ∧ (decide (u.scopeCheck h p j = none) && decide (u.scopeFrozen p j = false ∨ (sc = true ∧ u.pstate p ≠ 2))) = true)
    ∧ (let s : State := ((owned 1).put (Reg.PART_STS.STATE 1) 3); let u : State := (if (false = false) ∧ (((owned 1).put (Reg.PART_STS.STATE 1) 3)).pstate 1 ≠ 3 then ((((owned 1).put (Reg.PART_STS.STATE 1) 3).applyWrite (Reg.PART_CMD.off 0) (partWord 5 false 1 5)).see []).notListed 0 1 else (((owned 1).put (Reg.PART_STS.STATE 1) 3).applyWrite (Reg.PART_CMD.off 0) (partWord 5 false 1 5)).see []); let h : HostId := 0; let p : PartId := 1; let i : BitVec 10 := 5; let sc : Bool := false; let j : Option Nat := none; let seen : Seen := []; (Takes s h (Reg.PART_CMD.off h) ∧ s.flag (Reg.PART_CMD_STS.BUSY h) = false ∧ j = (if sc then some i.toNat else none)) ∧ (u = (if sc = false ∧ s.pstate p ≠ 3 then ((s.applyWrite (Reg.PART_CMD.off h) (partWord 5 sc p i)).see seen).notListed h p else (s.applyWrite (Reg.PART_CMD.off h) (partWord 5 sc p i)).see seen)) ∧ (decide (u.scopeCheck h p j = none) && decide (u.scopeFrozen p j = true) && decide (sc = false) && decide (s.queues.all (fun e => e.2.live.isEmpty) = true)) = true)
    ∧ (let s : State := ((((owned 1).put (Reg.PART_INST.STATE 5) 1).put (Reg.PART_INST.PARTITION 5) 1).put (Reg.PART_INST.STATE 5) 2); let u : State := (((((owned 1).put (Reg.PART_INST.STATE 5) 1).put (Reg.PART_INST.PARTITION 5) 1).put (Reg.PART_INST.STATE 5) 2).applyWrite (Reg.PART_CMD.off 0) (partWord 5 true 1 5)).see []; let h : HostId := 0; let p : PartId := 1; let i : BitVec 10 := 5; let sc : Bool := true; let j : Option Nat := some 5; let seen : Seen := []; (Takes s h (Reg.PART_CMD.off h) ∧ s.flag (Reg.PART_CMD_STS.BUSY h) = false ∧ j = (if sc then some i.toNat else none)) ∧ (u = (if sc = false ∧ s.pstate p ≠ 3 then ((s.applyWrite (Reg.PART_CMD.off h) (partWord 5 sc p i)).see seen).notListed h p else (s.applyWrite (Reg.PART_CMD.off h) (partWord 5 sc p i)).see seen)) ∧ (decide (u.scopeCheck h p j = none) && decide (u.scopeFrozen p j = true) && decide (sc = true) && decide (u.pstate p = 2)) = true)
    ∧ (let s : State := ready.put (Reg.PART_CMD_STS.BUSY 0) 1; let h : HostId := 0; (Takes s h (Reg.PART_CMD.off h) ∧ s.flag (Reg.PART_CMD_STS.BUSY h) = true))
    ∧ (let s : State := (owned 2); let u : State := ((owned 2).applyWrite (Reg.PART_CMD.off 0) (partWord 6 false 1 5)).see []; let h : HostId := 0; let p : PartId := 1; let i : BitVec 10 := 5; let sc : Bool := false; let j : Option Nat := none; (Takes s h (Reg.PART_CMD.off h) ∧ s.flag (Reg.PART_CMD_STS.BUSY h) = false ∧ j = (if sc then some i.toNat else none)) ∧ (u = (s.applyWrite (Reg.PART_CMD.off h) (partWord 6 sc p i)).see []) ∧ ((match u.scopeCheck h p j with | some (r) => true | _ => false)) = true)
    ∧ (let s : State := (owned 1); let u : State := ((owned 1).applyWrite (Reg.PART_CMD.off 0) (partWord 6 false 1 5)).see []; let h : HostId := 0; let p : PartId := 1; let i : BitVec 10 := 5; let sc : Bool := false; let j : Option Nat := none; (Takes s h (Reg.PART_CMD.off h) ∧ s.flag (Reg.PART_CMD_STS.BUSY h) = false ∧ j = (if sc then some i.toNat else none)) ∧ (u = (s.applyWrite (Reg.PART_CMD.off h) (partWord 6 sc p i)).see []) ∧ (decide (u.scopeCheck h p j = none) && decide (u.get (Reg.PART_ALLOC.SAVE p) = 0)) = true)
    ∧ (let s : State := ((owned 1).put (Reg.PART_ALLOC.SAVE 1) 1); let u : State := (((owned 1).put (Reg.PART_ALLOC.SAVE 1) 1).applyWrite (Reg.PART_CMD.off 0) (partWord 6 false 1 5)).see []; let h : HostId := 0; let p : PartId := 1; let i : BitVec 10 := 5; let sc : Bool := false; let j : Option Nat := none; (Takes s h (Reg.PART_CMD.off h) ∧ s.flag (Reg.PART_CMD_STS.BUSY h) = false ∧ j = (if sc then some i.toNat else none)) ∧ (u = (s.applyWrite (Reg.PART_CMD.off h) (partWord 6 sc p i)).see []) ∧ (decide (u.scopeCheck h p j = none) && decide (u.get (Reg.PART_ALLOC.SAVE p) = 1) && decide (u.saveKey h p = none ∨ u.saveRoom? h = none)) = true)
    ∧ (let s : State := (saving 2 1); let u : State := ((saving 2 1).applyWrite (Reg.PART_CMD.off 0) (partWord 6 false 1 5)).see []; let h : HostId := 0; let p : PartId := 1; let i : BitVec 10 := 5; let sc : Bool := false; let j : Option Nat := none; (Takes s h (Reg.PART_CMD.off h) ∧ s.flag (Reg.PART_CMD_STS.BUSY h) = false ∧ j = (if sc then some i.toNat else none)) ∧ (u = (s.applyWrite (Reg.PART_CMD.off h) (partWord 6 sc p i)).see []) ∧ (decide (u.scopeCheck h p j = none) && decide (u.get (Reg.PART_ALLOC.SAVE p) = 1) && (match u.saveKey h p with | some (key) => (match u.saveRoom? h with | some (room) => decide (u.scopeFrozen p j = false) | _ => false) | _ => false)) = true)
    ∧ (let s : State := ((saving 2 1).put (Reg.PART_INST.STATE 5) 2); let u : State := (((saving 2 1).put (Reg.PART_INST.STATE 5) 2).applyWrite (Reg.PART_CMD.off 0) (partWord 6 true 1 5)).see []; let h : HostId := 0; let p : PartId := 1; let i : BitVec 10 := 5; let sc : Bool := true; let j : Option Nat := some 5; (Takes s h (Reg.PART_CMD.off h) ∧ s.flag (Reg.PART_CMD_STS.BUSY h) = false ∧ j = (if sc then some i.toNat else none)) ∧ (u = (s.applyWrite (Reg.PART_CMD.off h) (partWord 6 sc p i)).see []) ∧ (decide (u.scopeCheck h p j = none) && decide (u.get (Reg.PART_ALLOC.SAVE p) = 1) && (match u.saveKey h p with | some (key) => (match u.saveRoom? h with | some (room) => decide (u.scopeFrozen p j = true) && decide (144 + (u.sections p j).flatten.length ≤ room) && decide (u.get (Reg.PART_CMD_ADDR_HI.SPACE h) = 0) && decide (u.memCheck (1024 * p + 0x3FF) 0 (u.saveAddr h) (144 + (u.sections p j).flatten.length) true = .ok ()) | _ => false) | _ => false)) = true)
    ∧ (let s : State := ({ (saving 2 1).put (Reg.PART_INST.STATE 5) 2 with qps := List.replicate 20 (9, { ctx := { cid := 1029 } }) }); let u : State := (({ (saving 2 1).put (Reg.PART_INST.STATE 5) 2 with qps := List.replicate 20 (9, { ctx := { cid := 1029 } }) }).applyWrite (Reg.PART_CMD.off 0) (partWord 6 true 1 5)).see []; let h : HostId := 0; let p : PartId := 1; let i : BitVec 10 := 5; let sc : Bool := true; let j : Option Nat := some 5; (Takes s h (Reg.PART_CMD.off h) ∧ s.flag (Reg.PART_CMD_STS.BUSY h) = false ∧ j = (if sc then some i.toNat else none)) ∧ (u = (s.applyWrite (Reg.PART_CMD.off h) (partWord 6 sc p i)).see []) ∧ (decide (u.scopeCheck h p j = none) && decide (u.get (Reg.PART_ALLOC.SAVE p) = 1) && (match u.saveKey h p with | some (key) => (match u.saveRoom? h with | some (room) => decide (u.scopeFrozen p j = true) && decide (room < 144 + (u.sections p j).flatten.length) | _ => false) | _ => false)) = true)
    ∧ (let s : State := ready.put (Reg.PART_CMD_STS.BUSY 0) 1; let h : HostId := 0; (Takes s h (Reg.PART_CMD.off h) ∧ s.flag (Reg.PART_CMD_STS.BUSY h) = true))
    ∧ (let s : State := ready; let u : State := (if (false = false) ∧ (ready).pstate 1 ≠ 2 then ((ready.applyWrite (Reg.PART_CMD.off 0) (partWord 7 false 1 5)).see []).notListed 0 1 else (ready.applyWrite (Reg.PART_CMD.off 0) (partWord 7 false 1 5)).see []); let h : HostId := 0; let p : PartId := 1; let i : BitVec 10 := 5; let sc : Bool := false; let j : Option Nat := none; let seen : Seen := []; (Takes s h (Reg.PART_CMD.off h) ∧ s.flag (Reg.PART_CMD_STS.BUSY h) = false ∧ j = (if sc then some i.toNat else none)) ∧ (u = (if sc = false ∧ s.pstate p ≠ 2 then ((s.applyWrite (Reg.PART_CMD.off h) (partWord 7 sc p i)).see seen).notListed h p else (s.applyWrite (Reg.PART_CMD.off h) (partWord 7 sc p i)).see seen)) ∧ (decide (u.owner p ≠ h ∨ u.pstate p = 0)) = true)
    ∧ (let s : State := (owned 1); let u : State := (if (false = false) ∧ ((owned 1)).pstate 1 ≠ 2 then (((owned 1).applyWrite (Reg.PART_CMD.off 0) (partWord 7 false 1 5)).see []).notListed 0 1 else ((owned 1).applyWrite (Reg.PART_CMD.off 0) (partWord 7 false 1 5)).see []); let h : HostId := 0; let p : PartId := 1; let i : BitVec 10 := 5; let sc : Bool := false; let j : Option Nat := none; let seen : Seen := []; (Takes s h (Reg.PART_CMD.off h) ∧ s.flag (Reg.PART_CMD_STS.BUSY h) = false ∧ j = (if sc then some i.toNat else none)) ∧ (u = (if sc = false ∧ s.pstate p ≠ 2 then ((s.applyWrite (Reg.PART_CMD.off h) (partWord 7 sc p i)).see seen).notListed h p else (s.applyWrite (Reg.PART_CMD.off h) (partWord 7 sc p i)).see seen)) ∧ (decide (u.owner p = h) && decide (u.pstate p ≠ 0) && decide (u.saveKey h p = none ∨ u.saveRoom? h = none)) = true)
    ∧ (let s : State := saving 2 1; let u : State := ((saving 2 1).applyWrite (Reg.PART_CMD.off 0) (partWord 7 true 1 5)).see []; let v : State := u; let h : HostId := 0; let p : PartId := 1; let i : BitVec 10 := 5; let sc : Bool := true; let seen : Seen := []; let j : Option Nat := some 5; let key : List Byte := List.replicate 32 7; let room : Nat := 4096; let len : Nat := 0; let b : List Byte := memRead (saving 2 1).hostMem0 0 4096; (Takes s h (Reg.PART_CMD.off h) ∧ s.flag (Reg.PART_CMD_STS.BUSY h) = false ∧ j = (if sc then some i.toNat else none)) ∧ (u = (if sc = false ∧ s.pstate p ≠ 2 then ((s.applyWrite (Reg.PART_CMD.off h) (partWord 7 sc p i)).see seen).notListed h p else (s.applyWrite (Reg.PART_CMD.off h) (partWord 7 sc p i)).see seen)) ∧ (u.owner p = h ∧ u.pstate p ≠ 0 ∧ u.saveKey h p = some key ∧ u.saveRoom? h = some room) ∧ (u.memReadC (1024 * p + 0x3FF) (u.get (Reg.PART_CMD_ADDR_HI.SPACE h)) (u.saveAddr h) room = (v, .ok b) ∧ len = leAt b 12 4) ∧ (decide (len < 144 ∨ room < len ∨ gcmTag key (slice b 24 12) (b.take 128) (slice b 128 (len - 144)) ≠ slice b (len - 16) 16)) = true)
    ∧ (let s : State := (restoring.put Reg.GLB_FW_VER_LO.FW 1); let u : State := (((restoring.put Reg.GLB_FW_VER_LO.FW 1)).applyWrite (Reg.PART_CMD.off 0) (partWord 7 true 1 5)).see []; let v : State := u; let h : HostId := 0; let p : PartId := 1; let i : BitVec 10 := 5; let sc : Bool := true; let seen : Seen := []; let j : Option Nat := some 5; let key : List Byte := List.replicate 32 7; let room : Nat := 4096; let len : Nat := 144; let b : List Byte := memRead restoring.hostMem0 0 4096; (Takes s h (Reg.PART_CMD.off h) ∧ s.flag (Reg.PART_CMD_STS.BUSY h) = false ∧ j = (if sc then some i.toNat else none)) ∧ (u = (if sc = false ∧ s.pstate p ≠ 2 then ((s.applyWrite (Reg.PART_CMD.off h) (partWord 7 sc p i)).see seen).notListed h p else (s.applyWrite (Reg.PART_CMD.off h) (partWord 7 sc p i)).see seen)) ∧ (u.owner p = h ∧ u.pstate p ≠ 0 ∧ u.saveKey h p = some key ∧ u.saveRoom? h = some room) ∧ (u.memReadC (1024 * p + 0x3FF) (u.get (Reg.PART_CMD_ADDR_HI.SPACE h)) (u.saveAddr h) room = (v, .ok b) ∧ len = leAt b 12 4) ∧ (144 ≤ len ∧ len ≤ room ∧ gcmTag key (slice b 24 12) (b.take 128) (slice b 128 (len - 144)) = slice b (len - 16) 16) ∧ (decide (leAt b 0 4 ≠ 0x4E564B53 ∨ leAt b 4 2 ≠ 1 ∨ leAt b 16 8 ≠ v.get Reg.GLB_FW_VER_LO.FW + 2 ^ 32 * v.get Reg.GLB_FW_VER_HI.FW ∨ bitAt (leAt b 6 1) 1 ≠ v.flag Reg.GLB_CTL.EXACT)) = true)
    ∧ (let s : State := (restoring.put (Reg.PART_STS.STATE 1) 3); let u : State := (((restoring.put (Reg.PART_STS.STATE 1) 3)).applyWrite (Reg.PART_CMD.off 0) (partWord 7 true 1 5)).see []; let v : State := u; let h : HostId := 0; let p : PartId := 1; let i : BitVec 10 := 5; let sc : Bool := true; let seen : Seen := []; let j : Option Nat := some 5; let key : List Byte := List.replicate 32 7; let room : Nat := 4096; let len : Nat := 144; let b : List Byte := memRead restoring.hostMem0 0 4096; (Takes s h (Reg.PART_CMD.off h) ∧ s.flag (Reg.PART_CMD_STS.BUSY h) = false ∧ j = (if sc then some i.toNat else none)) ∧ (u = (if sc = false ∧ s.pstate p ≠ 2 then ((s.applyWrite (Reg.PART_CMD.off h) (partWord 7 sc p i)).see seen).notListed h p else (s.applyWrite (Reg.PART_CMD.off h) (partWord 7 sc p i)).see seen)) ∧ (u.owner p = h ∧ u.pstate p ≠ 0 ∧ u.saveKey h p = some key ∧ u.saveRoom? h = some room) ∧ (u.memReadC (1024 * p + 0x3FF) (u.get (Reg.PART_CMD_ADDR_HI.SPACE h)) (u.saveAddr h) room = (v, .ok b) ∧ len = leAt b 12 4) ∧ (144 ≤ len ∧ len ≤ room ∧ gcmTag key (slice b 24 12) (b.take 128) (slice b 128 (len - 144)) = slice b (len - 16) 16) ∧ (decide (leAt b 0 4 = 0x4E564B53) && decide (leAt b 4 2 = 1) && decide (leAt b 16 8 = v.get Reg.GLB_FW_VER_LO.FW + 2 ^ 32 * v.get Reg.GLB_FW_VER_HI.FW) && decide (bitAt (leAt b 6 1) 1 = v.flag Reg.GLB_CTL.EXACT) && decide (v.pstate p ≠ 2 ∨ leAt b 7 1 ≠ p ∨ v.get (Reg.PART_ALLOC.SAVE p) = 0 ∨ bitAt (leAt b 6 1) 0 ≠ sc ∨ (sc = true ∧ leAt b 8 2 ≠ i.toNat) ∨ (sc = false ∧ (v.instsOf p).isEmpty = false))) = true)
    ∧ (let s : State := restoring; let u : State := (restoring.applyWrite (Reg.PART_CMD.off 0) (partWord 7 true 1 5)).see []; let v : State := u; let h : HostId := 0; let p : PartId := 1; let i : BitVec 10 := 5; let sc : Bool := true; let seen : Seen := []; let j : Option Nat := some 5; let key : List Byte := List.replicate 32 7; let room : Nat := 4096; let len : Nat := 144; let b : List Byte := memRead restoring.hostMem0 0 4096; (Takes s h (Reg.PART_CMD.off h) ∧ s.flag (Reg.PART_CMD_STS.BUSY h) = false ∧ j = (if sc then some i.toNat else none)) ∧ (u = (if sc = false ∧ s.pstate p ≠ 2 then ((s.applyWrite (Reg.PART_CMD.off h) (partWord 7 sc p i)).see seen).notListed h p else (s.applyWrite (Reg.PART_CMD.off h) (partWord 7 sc p i)).see seen)) ∧ (u.owner p = h ∧ u.pstate p ≠ 0 ∧ u.saveKey h p = some key ∧ u.saveRoom? h = some room) ∧ (u.memReadC (1024 * p + 0x3FF) (u.get (Reg.PART_CMD_ADDR_HI.SPACE h)) (u.saveAddr h) room = (v, .ok b) ∧ len = leAt b 12 4) ∧ (144 ≤ len ∧ len ≤ room ∧ gcmTag key (slice b 24 12) (b.take 128) (slice b 128 (len - 144)) = slice b (len - 16) 16) ∧ (decide (leAt b 0 4 = 0x4E564B53) && decide (leAt b 4 2 = 1) && decide (leAt b 16 8 = v.get Reg.GLB_FW_VER_LO.FW + 2 ^ 32 * v.get Reg.GLB_FW_VER_HI.FW) && decide (bitAt (leAt b 6 1) 1 = v.flag Reg.GLB_CTL.EXACT) && decide (v.pstate p = 2) && decide (leAt b 7 1 = p) && decide (v.get (Reg.PART_ALLOC.SAVE p) = 1) && decide (bitAt (leAt b 6 1) 0 = sc) && decide (sc = false ∨ leAt b 8 2 = i.toNat) && decide (sc = true ∨ (v.instsOf p).isEmpty = true) && (match saveImageOf (leAt b 10 2) (gcmText key (slice b 24 12) (slice b 128 (len - 144))) with | some (x) => decide (v.restoreFits p j.isNone x = true) && (match v.restoreRecords p j.isNone x with | some (w) => true | _ => false) | _ => false)) = true) := by
  refine ⟨?_, ?_, ?_, ?_, ?_, ?_, ?_, ?_, ?_, ?_, ?_, ?_, ?_, ?_, ?_, ?_, ?_, ?_, ?_, ?_, ?_, ?_, ?_, ?_, ?_, ?_, ?_⟩
  · decide +kernel
  · decide +kernel
  · decide +kernel
  · decide +kernel
  · decide +kernel
  · exact (by show (decide ((freezing.freezeQps 1 none).settled 1 none = true) && decide ((none : Option Nat) = none) && decide (1 < 64) && decide ((freezing.freezeQps 1 none).coresOf 1 = [])) = true; rw [freezing_cores]; decide +kernel)
  · decide +kernel
  · decide +kernel
  · decide +kernel
  · decide +kernel
  · decide +kernel
  · decide +kernel
  · decide +kernel
  · decide +kernel
  · decide +kernel
  · decide +kernel
  · decide +kernel
  · decide +kernel
  · decide +kernel
  · decide +kernel
  · decide +kernel
  · decide +kernel
  · decide +kernel
  · exact ⟨by decide +kernel, rfl, by decide +kernel, ⟨save_read _ _ _ rfl (by decide +kernel) (by decide +kernel) (by decide +kernel) (by decide +kernel), by decide +kernel⟩, by decide +kernel⟩
  · exact ⟨by decide +kernel, rfl, by decide +kernel, ⟨save_read _ _ _ rfl (by decide +kernel) (by decide +kernel) (by decide +kernel) (by decide +kernel), by decide +kernel⟩, ⟨by decide, by decide, restoring_tag⟩, by decide +kernel⟩
  · exact ⟨by decide +kernel, rfl, by decide +kernel, ⟨save_read _ _ _ rfl (by decide +kernel) (by decide +kernel) (by decide +kernel) (by decide +kernel), by decide +kernel⟩, ⟨by decide, by decide, restoring_tag⟩, by decide +kernel⟩
  · exact ⟨by decide +kernel, rfl, by decide +kernel, ⟨save_read _ _ _ rfl (by decide +kernel) (by decide +kernel) (by decide +kernel) (by decide +kernel), by decide +kernel⟩, ⟨by decide, by decide, restoring_tag⟩, by decide +kernel⟩

/-- States and operands that meet the hypotheses of ReductionUnits. -/
theorem witness_ReductionUnits :
    (let s : State := running (word 0x5C 3 1 0 0) (gs 0x2FFE0 0); let c : CoreId := 8; let w : Nat := word 0x5C 3 1 0 0; let a : Nat := 0x2FFE0; (Issues s c .redp w ∧ a = ((s.core c).gr (fRa w)).toNat) ∧ (decide (s.spadOut c a 64 = true)) = true)
    ∧ (let s : State := running (word 0x5C 3 1 0 0) (gs 0x2004 0); let c : CoreId := 8; let w : Nat := word 0x5C 3 1 0 0; let a : Nat := 0x2004; (Issues s c .redp w ∧ a = ((s.core c).gr (fRa w)).toNat) ∧ (decide (s.spadOut c a 64 = false) && decide (a % 32 ≠ 0)) = true)
    ∧ (let s : State := (running (word 0x5C 3 1 0 0) (gs 0x2000 0)).put (Reg.CLUSTER_UNIT_FENCE.REDUCE 0) 1; let c : CoreId := 8; let w : Nat := word 0x5C 3 1 0 0; let a : Nat := 0x2000; (Issues s c .redp w ∧ a = ((s.core c).gr (fRa w)).toNat) ∧ (decide (s.spadOut c a 64 = false) && decide (a % 32 = 0) && decide (s.disabled ⟨.reduce, c / 64, 0⟩ = true ∨ 32 ≤ ((s.cluster (c / 64)).redq.filter (fun q => q.core == c.val)).length)) = true)
    ∧ (let s : State := running (word 0x5C 3 1 0 0) (gs 0x2000 0); let c : CoreId := 8; let w : Nat := word 0x5C 3 1 0 0; let a : Nat := 0x2000; (Issues s c .redp w ∧ a = ((s.core c).gr (fRa w)).toNat) ∧ (decide (s.spadOut c a 64 = false) && decide (a % 32 = 0) && decide (s.disabled ⟨.reduce, c / 64, 0⟩ = false) && decide (((s.cluster (c / 64)).redq.filter (fun q => q.core == c.val)).length < 32)) = true)
    ∧ (let s : State := ready; let u : State := (ready.see []).countSpillWaits 0; let k : ClusterId := 0; let seen : Seen := []; (u = (s.see seen).countSpillWaits k) ∧ (u.disabled ⟨.reduce, k, 0⟩ = true ∨ u.inP2 = true ∨ (u.cluster k).redq.findIdx? (fun q => u.redReady k q && !u.redWaits q) = none))
    ∧ (let s : State := reducing [redPost (redBytes 0 0 1 0)] []; let u : State := ((reducing [redPost (redBytes 0 0 1 0)] []).see []).countSpillWaits 0; let v : State := reducing [] []; let k : ClusterId := 0; let seen : Seen := []; let q : RedPost := redPost (redBytes 0 0 1 0); let i : Nat := 0; (u = (s.see seen).countSpillWaits k ∧ u.disabled ⟨.reduce, k, 0⟩ = false ∧ u.inP2 = false) ∧ ((u.cluster k).redq.findIdx? (fun q => u.redReady k q && !u.redWaits q) = some i ∧ (u.cluster k).redq[i]? = some q) ∧ (v = u.setCluster k { u.cluster k with redq := (u.cluster k).redq.eraseIdx i }) ∧ (decide (redOk q.desc = false)) = true)
    ∧ (let s : State := reducing [redPost (redBytes 2 0 1 0)] []; let u : State := ((reducing [redPost (redBytes 2 0 1 0)] []).see []).countSpillWaits 0; let v : State := (reducing [] [redSeg (redBytes 2 0 1 0)]).showRed 0; let v2 : State := (reducing [] [redSeg (redBytes 2 0 1 0)]).showRed 0; let k : ClusterId := 0; let seen : Seen := []; let q : RedPost := redPost (redBytes 2 0 1 0); let i : Nat := 0; let r : Except MemErr (List Byte) := .ok [0, 0, 0, 0]; (u = (s.see seen).countSpillWaits k ∧ u.disabled ⟨.reduce, k, 0⟩ = false ∧ u.inP2 = false) ∧ ((u.cluster k).redq.findIdx? (fun q => u.redReady k q && !u.redWaits q) = some i ∧ (u.cluster k).redq[i]? = some q ∧ redOk q.desc = true) ∧ ((u.cluster k).segs.find? (fun g => g.names (cidPart q.cid) (redDesc q.desc)) = none) ∧ (u.redPlace k (cidPart q.cid) (redDesc q.desc).sched = .slot) ∧ (v = ((u.setCluster k { u.cluster k with redq := (u.cluster k).redq.eraseIdx i, segs := (u.cluster k).segs ++ [{ part := cidPart q.cid, desc := q.desc, core := q.core, cid := q.cid, exact := u.flag Reg.GLB_CTL.EXACT, lib := q.lib }] })).showRed k) ∧ (v.memReadC q.cid (bits (redDesc q.desc).src 52 2) (bits (redDesc q.desc).src 0 52) (streamBytes (redDesc q.desc).ifmt (redDesc q.desc).elems) = (v2, r)) ∧ ((match r with | .ok bs => decide ((redDesc q.desc).sig = 0) | _ => false)) = true)
    ∧ (let s : State := reducing [redPost (redFar 2 0 1 0)] []; let u : State := ((reducing [redPost (redFar 2 0 1 0)] []).see []).countSpillWaits 0; let v : State := (reducing [] [redSeg (redFar 2 0 1 0)]).showRed 0; let v2 : State := ((reducing [] [redSeg (redFar 2 0 1 0)]).showRed 0).cidRefused 1024 .cid; let k : ClusterId := 0; let seen : Seen := []; let q : RedPost := redPost (redFar 2 0 1 0); let i : Nat := 0; let r : Except MemErr (List Byte) := .error .cid; (u = (s.see seen).countSpillWaits k ∧ u.disabled ⟨.reduce, k, 0⟩ = false ∧ u.inP2 = false) ∧ ((u.cluster k).redq.findIdx? (fun q => u.redReady k q && !u.redWaits q) = some i ∧ (u.cluster k).redq[i]? = some q ∧ redOk q.desc = true) ∧ ((u.cluster k).segs.find? (fun g => g.names (cidPart q.cid) (redDesc q.desc)) = none) ∧ (u.redPlace k (cidPart q.cid) (redDesc q.desc).sched = .slot) ∧ (v = ((u.setCluster k { u.cluster k with redq := (u.cluster k).redq.eraseIdx i, segs := (u.cluster k).segs ++ [{ part := cidPart q.cid, desc := q.desc, core := q.core, cid := q.cid, exact := u.flag Reg.GLB_CTL.EXACT, lib := q.lib }] })).showRed k) ∧ (v.memReadC q.cid (bits (redDesc q.desc).src 52 2) (bits (redDesc q.desc).src 0 52) (streamBytes (redDesc q.desc).ifmt (redDesc q.desc).elems) = (v2, r)) ∧ ((match r with | .error e => true | _ => false)) = true)
    ∧ (let s : State := ready; let k : ClusterId := 0; (decide ((s.cluster k).segs.find? (fun g => g.open_ && g.complete) = none)) = true)
    ∧ (let s : State := reducing [] [{ redSeg (redBytes 1 0 1 0) with ranks := [0], acc := [0] }]; let k : ClusterId := 0; ((match (s.cluster k).segs.find? (fun g => g.open_ && g.complete) with | some g => true | _ => false)) = true)
    ∧ (let s : State := reducing [] [{ redSeg (redBytes 1 0 1 0) with ranks := [0], acc := [0] }]; let v : State := ((reducing [] [{ redSeg (redBytes 1 0 1 0) with ranks := [0], acc := [0] }]).memWriteC 1024 0 0x2000 [0, 0, 0, 0]).1; let k : ClusterId := 0; let g : RedSeg := { redSeg (redBytes 1 0 1 0) with ranks := [0], acc := [0] }; let r : Except MemErr Unit := .ok (); ((s.cluster k).segs.find? (fun g => g.open_ && g.complete) = some g ∧ (redDesc g.desc).dlist = false ∧ g.written = 0) ∧ (s.memWriteC g.cid (bits (redDesc g.desc).dst 52 2) (bits (redDesc g.desc).dst 0 52) g.result = (v, r)) ∧ (decide (r = .ok ())) = true ∧ (decide (r ≠ .error .wait)) = true)
    ∧ (let s : State := (redFilling [{ redSeg (redToDdr 1 0 1 0) with ranks := [0], acc := [0] }]); let v : State := (redFilling [{ redSeg (redToDdr 1 0 1 0) with ranks := [0], acc := [0] }]); let k : ClusterId := 0; let g : RedSeg := { redSeg (redToDdr 1 0 1 0) with ranks := [0], acc := [0] }; let r : Except MemErr Unit := .error .wait; ((s.cluster k).segs.find? (fun g => g.open_ && g.complete) = some g ∧ (redDesc g.desc).dlist = false ∧ g.written = 0) ∧ (s.memWriteC g.cid (bits (redDesc g.desc).dst 52 2) (bits (redDesc g.desc).dst 0 52) g.result = (v, r)) ∧ (decide (r = .error .wait)) = true) := by
  refine ⟨?_, ?_, ?_, ?_, ?_, ?_, ?_, ?_, ?_, ?_, ?_, ?_⟩ <;> decide +kernel

/-- States and operands that meet the hypotheses of DoorbellsAndWindows. -/
theorem witness_DoorbellsAndWindows :
    (let s : State := State.reset; let h : HostId := 0; (decide (s.barReach h = false)) = true)
    ∧ (let s : State := ready; let h : HostId := 0; let page : BitVec 10 := 5; (decide (s.barReach h = true) && decide (s.inP2 = true ∨ s.instPart? page.toNat = none)) = true)
    ∧ (let s : State := (ringing {}).put (Reg.PART_ALLOC.OWNER 1) 1; let h : HostId := 0; let page : BitVec 10 := 5; let slot : Fin 512 := 2; (decide (s.barReach h = true) && (match s.instPart? page.toNat with | some p => decide (s.owner p ≠ h ∨ s.queues.find? (fun e => e.2.cid == p * 1024 + page.toNat && e.2.dbSlot == slot.val) = none) | _ => false)) = true)
    ∧ (let s : State := ringing {}; let h : HostId := 0; let page : BitVec 10 := 5; let slot : Fin 512 := 2; let v : BitVec 64 := bell 16 1; let p : Nat := 1; let n : Nat := 3; let q : Queue := { cid := 1029, dbSlot := 2, base := 0x1000 }; (s.barReach h = true ∧ s.inP2 = false ∧ s.instPart? page.toNat = some p ∧ s.owner p = h) ∧ (s.queues.find? (fun e => e.2.cid == p * 1024 + page.toNat && e.2.dbSlot == slot.val) = some (n, q) ∧ q.type ≠ 2) ∧ (decide (bits v.toNat 32 16 ≠ p * 1024 + page.toNat ∨ q.size ≤ bits v.toNat 0 24 ∨ bits v.toNat 24 8 = 0 ∨ bits v.toNat 48 15 ≠ 0 ∨ bitAt v.toNat 63 = true)) = true)
    ∧ (let s : State := ringing {}; let h : HostId := 0; let page : BitVec 10 := 5; let slot : Fin 512 := 2; let v : BitVec 64 := bell 3 2; let p : Nat := 1; let n : Nat := 3; let q : Queue := { cid := 1029, dbSlot := 2, base := 0x1000 }; (s.barReach h = true ∧ s.inP2 = false ∧ s.instPart? page.toNat = some p ∧ s.owner p = h) ∧ (s.queues.find? (fun e => e.2.cid == p * 1024 + page.toNat && e.2.dbSlot == slot.val) = some (n, q) ∧ q.type ≠ 2) ∧ (decide (bits v.toNat 32 16 = p * 1024 + page.toNat) && decide (bits v.toNat 0 24 < q.size) && decide (bits v.toNat 24 8 ≠ 0) && decide (bits v.toNat 48 15 = 0) && decide (bitAt v.toNat 63 = false) && decide (q.size < q.dist q.fetch (q.pos (bits v.toNat 0 24) (bits v.toNat 24 8)))) = true)
    ∧ (let s : State := ringing {}; let h : HostId := 0; let page : BitVec 10 := 5; let slot : Fin 512 := 2; let v : BitVec 64 := bell 4 1; let p : Nat := 1; let n : Nat := 3; let q : Queue := { cid := 1029, dbSlot := 2, base := 0x1000 }; (s.barReach h = true ∧ s.inP2 = false ∧ s.instPart? page.toNat = some p ∧ s.owner p = h) ∧ (s.queues.find? (fun e => e.2.cid == p * 1024 + page.toNat && e.2.dbSlot == slot.val) = some (n, q) ∧ q.type ≠ 2) ∧ (decide (bits v.toNat 32 16 = p * 1024 + page.toNat) && decide (bits v.toNat 0 24 < q.size) && decide (bits v.toNat 24 8 ≠ 0) && decide (bits v.toNat 48 15 = 0) && decide (bitAt v.toNat 63 = false) && decide (q.dist q.fetch (q.pos (bits v.toNat 0 24) (bits v.toNat 24 8)) ≤ q.size) && decide (q.dist q.fetch q.posted < q.dist q.fetch (q.pos (bits v.toNat 0 24) (bits v.toNat 24 8)))) = true)
    ∧ (let s : State := ringing { posted := 6 }; let h : HostId := 0; let page : BitVec 10 := 5; let slot : Fin 512 := 2; let v : BitVec 64 := bell 4 1; let p : Nat := 1; let n : Nat := 3; let q : Queue := { cid := 1029, dbSlot := 2, base := 0x1000, posted := 6 }; (s.barReach h = true ∧ s.inP2 = false ∧ s.instPart? page.toNat = some p ∧ s.owner p = h) ∧ (s.queues.find? (fun e => e.2.cid == p * 1024 + page.toNat && e.2.dbSlot == slot.val) = some (n, q) ∧ q.type ≠ 2) ∧ (decide (bits v.toNat 32 16 = p * 1024 + page.toNat) && decide (bits v.toNat 0 24 < q.size) && decide (bits v.toNat 24 8 ≠ 0) && decide (bits v.toNat 48 15 = 0) && decide (bitAt v.toNat 63 = false) && decide (q.dist q.fetch (q.pos (bits v.toNat 0 24) (bits v.toNat 24 8)) ≤ q.size) && decide (q.dist q.fetch (q.pos (bits v.toNat 0 24) (bits v.toNat 24 8)) ≤ q.dist q.fetch q.posted)) = true)
    ∧ (let s : State := State.reset; let h : HostId := 0; (decide (s.barReach h = false)) = true)
    ∧ (let s : State := ready; let h : HostId := 0; let page : BitVec 10 := 5; (decide (s.barReach h = true) && decide (s.inP2 = true ∨ s.instPart? page.toNat = none)) = true)
    ∧ (let s : State := (ringing {}).put (Reg.PART_ALLOC.OWNER 1) 1; let h : HostId := 0; let page : BitVec 10 := 5; let slot : Fin 512 := 2; (decide (s.barReach h = true) && (match s.instPart? page.toNat with | some p => decide (s.owner p ≠ h ∨ s.queues.find? (fun e => e.2.cid == p * 1024 + page.toNat && e.2.dbSlot == slot.val) = none) | _ => false)) = true)
    ∧ (let s : State := ringing { type := 2 }; let h : HostId := 0; let page : BitVec 10 := 5; let slot : Fin 512 := 2; let v : BitVec 64 := bell 16 1; let p : Nat := 1; let n : Nat := 3; let q : Queue := { cid := 1029, dbSlot := 2, base := 0x1000, type := 2 }; (s.barReach h = true ∧ s.inP2 = false ∧ s.instPart? page.toNat = some p ∧ s.owner p = h) ∧ (s.queues.find? (fun e => e.2.cid == p * 1024 + page.toNat && e.2.dbSlot == slot.val) = some (n, q) ∧ q.type = 2) ∧ (decide (bits v.toNat 32 16 ≠ p * 1024 + page.toNat ∨ q.size ≤ bits v.toNat 0 24 ∨ bits v.toNat 24 8 = 0 ∨ bits v.toNat 48 15 ≠ 0)) = true)
    ∧ (let s : State := ringing { type := 2 }; let h : HostId := 0; let page : BitVec 10 := 5; let slot : Fin 512 := 2; let v : BitVec 64 := bell 3 1; let p : Nat := 1; let n : Nat := 3; let q : Queue := { cid := 1029, dbSlot := 2, base := 0x1000, type := 2 }; (s.barReach h = true ∧ s.inP2 = false ∧ s.instPart? page.toNat = some p ∧ s.owner p = h) ∧ (s.queues.find? (fun e => e.2.cid == p * 1024 + page.toNat && e.2.dbSlot == slot.val) = some (n, q) ∧ q.type = 2) ∧ (decide (bits v.toNat 32 16 = p * 1024 + page.toNat) && decide (bits v.toNat 0 24 < q.size) && decide (bits v.toNat 24 8 ≠ 0) && decide (bits v.toNat 48 15 = 0) && decide (q.unread < q.dist q.read (q.pos (bits v.toNat 0 24) (bits v.toNat 24 8)))) = true)
    ∧ (let s : State := ringing { type := 2, write := 6 }; let h : HostId := 0; let page : BitVec 10 := 5; let slot : Fin 512 := 2; let v : BitVec 64 := bell 4 1; let p : Nat := 1; let n : Nat := 3; let q : Queue := { cid := 1029, dbSlot := 2, base := 0x1000, type := 2, write := 6 }; (s.barReach h = true ∧ s.inP2 = false ∧ s.instPart? page.toNat = some p ∧ s.owner p = h) ∧ (s.queues.find? (fun e => e.2.cid == p * 1024 + page.toNat && e.2.dbSlot == slot.val) = some (n, q) ∧ q.type = 2) ∧ (decide (bits v.toNat 32 16 = p * 1024 + page.toNat) && decide (bits v.toNat 0 24 < q.size) && decide (bits v.toNat 24 8 ≠ 0) && decide (bits v.toNat 48 15 = 0) && decide (q.dist q.read (q.pos (bits v.toNat 0 24) (bits v.toNat 24 8)) ≤ q.unread) && decide (q.waiting = []) && decide (bitAt v.toNat 63 = false)) = true ∧ (decide (bits v.toNat 32 16 = p * 1024 + page.toNat) && decide (bits v.toNat 0 24 < q.size) && decide (bits v.toNat 24 8 ≠ 0) && decide (bits v.toNat 48 15 = 0) && decide (q.dist q.read (q.pos (bits v.toNat 0 24) (bits v.toNat 24 8)) ≤ q.unread) && decide (bitAt v.toNat 63 = false)) = true)
    ∧ (let s : State := ringing { type := 2, write := 6 }; let h : HostId := 0; let page : BitVec 10 := 5; let slot : Fin 512 := 2; let v : BitVec 64 := bell 4 1 true; let p : Nat := 1; let n : Nat := 3; let q : Queue := { cid := 1029, dbSlot := 2, base := 0x1000, type := 2, write := 6 }; (s.barReach h = true ∧ s.inP2 = false ∧ s.instPart? page.toNat = some p ∧ s.owner p = h) ∧ (s.queues.find? (fun e => e.2.cid == p * 1024 + page.toNat && e.2.dbSlot == slot.val) = some (n, q) ∧ q.type = 2) ∧ (decide (bits v.toNat 32 16 = p * 1024 + page.toNat) && decide (bits v.toNat 0 24 < q.size) && decide (bits v.toNat 24 8 ≠ 0) && decide (bits v.toNat 48 15 = 0) && decide (q.dist q.read (q.pos (bits v.toNat 0 24) (bits v.toNat 24 8)) ≤ q.unread) && decide (q.waiting = []) && decide (bitAt v.toNat 63 = true) && decide (q.write ≠ q.pos (bits v.toNat 0 24) (bits v.toNat 24 8))) = true)
    ∧ (let s : State := ringing { type := 2, write := 6 }; let h : HostId := 0; let page : BitVec 10 := 5; let slot : Fin 512 := 2; let v : BitVec 64 := bell 6 1 true; let p : Nat := 1; let n : Nat := 3; let q : Queue := { cid := 1029, dbSlot := 2, base := 0x1000, type := 2, write := 6 }; (s.barReach h = true ∧ s.inP2 = false ∧ s.instPart? page.toNat = some p ∧ s.owner p = h) ∧ (s.queues.find? (fun e => e.2.cid == p * 1024 + page.toNat && e.2.dbSlot == slot.val) = some (n, q) ∧ q.type = 2) ∧ (decide (bits v.toNat 32 16 = p * 1024 + page.toNat) && decide (bits v.toNat 0 24 < q.size) && decide (bits v.toNat 24 8 ≠ 0) && decide (bits v.toNat 48 15 = 0) && decide (q.dist q.read (q.pos (bits v.toNat 0 24) (bits v.toNat 24 8)) ≤ q.unread) && decide (q.waiting = []) && decide (bitAt v.toNat 63 = true) && decide (q.write = q.pos (bits v.toNat 0 24) (bits v.toNat 24 8))) = true)
    ∧ (let s : State := State.reset; let h : HostId := 0; let write : Bool := true; (decide (s.funcOpen h = false)) = true ∧ (decide (s.barReach h = false) && decide (write = true)) = true)
    ∧ (let s : State := ready; let h : HostId := 0; let write : Bool := false; (decide (s.funcOpen h = true) && decide (write = false)) = true)
    ∧ (let s : State := ready; let h : HostId := 0; let write : Bool := true; let off : BitVec 22 := 8; let size : Nat := 8; (decide (s.barReach h = true) && decide (write = true) && decide (size = 8) && decide (off.toNat % 8 = 0)) = true)
    ∧ (let s : State := ready; let h : HostId := 0; let write : Bool := true; let off : BitVec 22 := 4; let size : Nat := 4; (decide (s.barReach h = true) && decide (write = true) && decide (size ≠ 8 ∨ off.toNat % 8 ≠ 0)) = true)
    ∧ (let s : State := State.reset; let h : HostId := 0; (decide (s.funcOpen h = false)) = true)
    ∧ (let s : State := ready; let h : HostId := 0; (decide (s.barReach h = true) && decide ((s.host h).b4Wait = []) && decide ((s.host h).b4.enable = false)) = true)
    ∧ (let s : State := ready.put Reg.TALLY_STS.PSTATE 3; let h : HostId := 0; (decide (s.funcOpen h = true) && decide (s.barReach h = false)) = true)
    ∧ (let s : State := mapped 1; let u : State := mapWait 1 (.read 0x1000 4); let h : HostId := 0; let off : BitVec 28 := 0x1000; let size : Nat := 4; let r : Option State := none; (s.barReach h = true ∧ (s.host h).b4Wait = []) ∧ (u = s.setHost h { s.host h with b4Wait := [((s.host h).b4, .read off.toNat size)] } ∧ u.b4Do h (s.host h).b4 (.read off.toNat size) = r) ∧ (decide (r = none)) = true)
    ∧ (let s : State := mapped 0; let u : State := mapWait 0 (.read 0x1000 4); let h : HostId := 0; let off : BitVec 28 := 0x1000; let size : Nat := 4; let r : Option State := some ((mapWait 0 (.read 0x1000 4)).emit (.readData 0 4 0x1000 [0, 0, 0, 0])); (s.barReach h = true ∧ (s.host h).b4Wait = []) ∧ (u = s.setHost h { s.host h with b4Wait := [((s.host h).b4, .read off.toNat size)] } ∧ u.b4Do h (s.host h).b4 (.read off.toNat size) = r) ∧ ((match r with | some y => true | _ => false)) = true)
    ∧ (let s : State := ready.put Reg.TALLY_STS.PSTATE 3; let h : HostId := 0; (decide (s.barReach h = false)) = true)
    ∧ (let s : State := ready; let h : HostId := 0; (decide (s.barReach h = true) && decide ((s.host h).b4Wait = []) && decide ((s.host h).b4.enable = false)) = true)
    ∧ (let s : State := mapped 1; let u : State := mapWait 1 (.write 0x1000 [1, 2, 3, 4]); let h : HostId := 0; let off : BitVec 28 := 0x1000; let bytes : List Byte := [1, 2, 3, 4]; let r : Option State := none; (s.barReach h = true ∧ (s.host h).b4Wait = []) ∧ (u = s.setHost h { s.host h with b4Wait := [((s.host h).b4, .write off.toNat bytes)] } ∧ u.b4Do h (s.host h).b4 (.write off.toNat bytes) = r) ∧ (decide (r = none)) = true)
    ∧ (let s : State := mapped 0; let u : State := mapWait 0 (.write 0x1000 [1, 2, 3, 4]); let h : HostId := 0; let off : BitVec 28 := 0x1000; let bytes : List Byte := [1, 2, 3, 4]; let r : Option State := some ({ mapWait 0 (.write 0x1000 [1, 2, 3, 4]) with ddr := memWrite [] 0x20001000 [1, 2, 3, 4] }); (s.barReach h = true ∧ (s.host h).b4Wait = []) ∧ (u = s.setHost h { s.host h with b4Wait := [((s.host h).b4, .write off.toNat bytes)] } ∧ u.b4Do h (s.host h).b4 (.write off.toNat bytes) = r) ∧ ((match r with | some y => true | _ => false)) = true)
    ∧ (let s : State := tiered 1 0; let h : HostId := 0; let v : Word := 0; let space : Nat := 0; let part : Nat := 0; let offset : Nat := 0; (Takes s h (Reg.HOSTIF_B4_CTL_LO.off h) ∧ space = wordField v 1 2 ∧ part = wordField v 4 6) ∧ (offset = wordField v 20 12 * 2 ^ 20 + s.get (Reg.HOSTIF_B4_CTL_HI.OFFSET_HI h) * 2 ^ 32) ∧ (decide (s.owns h part = false ∨ space = 0 ∨ space = 3 ∨ (v.getLsbD 0 = true ∧ space = 1 ∧ s.inRegion part offset 1 = false))) = true)
    ∧ (let s : State := tiered 1 0; let h : HostId := 0; let v : Word := 0x20000013; let space : Nat := 1; let part : Nat := 1; let offset : Nat := 0x20000000; (Takes s h (Reg.HOSTIF_B4_CTL_LO.off h) ∧ space = wordField v 1 2 ∧ part = wordField v 4 6) ∧ (offset = wordField v 20 12 * 2 ^ 20 + s.get (Reg.HOSTIF_B4_CTL_HI.OFFSET_HI h) * 2 ^ 32) ∧ (decide (s.owns h part = true) && decide (space = 2 ∨ space = 1 ∧ (v.getLsbD 0 = false ∨ s.inRegion part offset 1 = true))) = true) := by
  refine ⟨?_, ?_, ?_, ?_, ?_, ?_, ?_, ?_, ?_, ?_, ?_, ?_, ?_, ?_, ?_, ?_, ?_, ?_, ?_, ?_, ?_, ?_, ?_, ?_, ?_, ?_, ?_, ?_, ?_, ?_⟩ <;> decide +kernel

/-- States and operands that meet the hypotheses of QueueCommands. -/
theorem witness_QueueCommands :
    (let s : State := ready.put (Reg.HOSTIF_QCMD_STS.BUSY 0) 1; let u : State := (((ready.put (Reg.HOSTIF_QCMD_STS.BUSY 0) 1).put (Reg.HOSTIF_QCMD.QUEUE 0) 3).put (Reg.HOSTIF_QCMD.OP 0) 1); let h : HostId := 0; let q : BitVec 20 := 3; (Takes s h (Reg.HOSTIF_QCMD.off h)) ∧ (u = (s.put (Reg.HOSTIF_QCMD.QUEUE h) (wordField (qcmdWord 1 q) 0 20)).put (Reg.HOSTIF_QCMD.OP h) 1) ∧ (decide (s.flag (Reg.HOSTIF_QCMD_STS.BUSY h) = true)) = true)
    ∧ (let s : State := ready.put Reg.TALLY_STS.PSTATE 2; let u : State := (((ready.put Reg.TALLY_STS.PSTATE 2).put (Reg.HOSTIF_QCMD.QUEUE 0) 3).put (Reg.HOSTIF_QCMD.OP 0) 1); let h : HostId := 0; let q : BitVec 20 := 3; (Takes s h (Reg.HOSTIF_QCMD.off h)) ∧ (u = (s.put (Reg.HOSTIF_QCMD.QUEUE h) (wordField (qcmdWord 1 q) 0 20)).put (Reg.HOSTIF_QCMD.OP h) 1) ∧ (decide (s.flag (Reg.HOSTIF_QCMD_STS.BUSY h) = false) && decide (s.inP2 = true)) = true)
    ∧ (let s : State := ringing {}; let u : State := ((((ringing {}).put (Reg.HOSTIF_QCMD.QUEUE 0) 3).put (Reg.HOSTIF_QCMD.OP 0) 1)).see []; let h : HostId := 0; let q : BitVec 20 := 3; let seen : Seen := []; let img : List Byte := (((((ringing {}).put (Reg.HOSTIF_QCMD.QUEUE 0) 3).put (Reg.HOSTIF_QCMD.OP 0) 1)).see []).hostRead 0 0 32; (Takes s h (Reg.HOSTIF_QCMD.off h) ∧ s.flag (Reg.HOSTIF_QCMD_STS.BUSY h) = false ∧ s.inP2 = false) ∧ (u = ((s.put (Reg.HOSTIF_QCMD.QUEUE h) (wordField (qcmdWord 1 q) 0 20)).put (Reg.HOSTIF_QCMD.OP h) 1).see seen) ∧ (img = u.hostRead h (u.pair (Reg.HOSTIF_QCMD_ADDR_LO.ADDR_LO h) (Reg.HOSTIF_QCMD_ADDR_HI.ADDR_HI h)) 32) ∧ (decide ((u.queue? q.toNat).isSome = true)) = true)
    ∧ (let s : State := ready; let u : State := ((((ready).put (Reg.HOSTIF_QCMD.QUEUE 0) 3).put (Reg.HOSTIF_QCMD.OP 0) 1)).see []; let h : HostId := 0; let q : BitVec 20 := 3; let seen : Seen := []; let img : List Byte := (((((ready).put (Reg.HOSTIF_QCMD.QUEUE 0) 3).put (Reg.HOSTIF_QCMD.OP 0) 1)).see []).hostRead 0 0 32; (Takes s h (Reg.HOSTIF_QCMD.off h) ∧ s.flag (Reg.HOSTIF_QCMD_STS.BUSY h) = false ∧ s.inP2 = false) ∧ (u = ((s.put (Reg.HOSTIF_QCMD.QUEUE h) (wordField (qcmdWord 1 q) 0 20)).put (Reg.HOSTIF_QCMD.OP h) 1).see seen) ∧ (img = u.hostRead h (u.pair (Reg.HOSTIF_QCMD_ADDR_LO.ADDR_LO h) (Reg.HOSTIF_QCMD_ADDR_HI.ADDR_HI h)) 32) ∧ (decide (u.queue? q.toNat = none) && decide (u.owner (cidPart (leAt img 10 2)) ≠ h ∨ (u.pstate (cidPart (leAt img 10 2)) ≠ 2 ∧ u.pstate (cidPart (leAt img 10 2)) ≠ 3))) = true)
    ∧ (let s : State := commanding ({ ringing {} with queues := [] }) (cqDesc 1 0); let u : State := ((((commanding ({ ringing {} with queues := [] }) (cqDesc 1 0)).put (Reg.HOSTIF_QCMD.QUEUE 0) 3).put (Reg.HOSTIF_QCMD.OP 0) 1)).see []; let h : HostId := 0; let q : BitVec 20 := 3; let seen : Seen := []; let img : List Byte := (((((commanding ({ ringing {} with queues := [] }) (cqDesc 1 0)).put (Reg.HOSTIF_QCMD.QUEUE 0) 3).put (Reg.HOSTIF_QCMD.OP 0) 1)).see []).hostRead 0 0 32; (Takes s h (Reg.HOSTIF_QCMD.off h) ∧ s.flag (Reg.HOSTIF_QCMD_STS.BUSY h) = false ∧ s.inP2 = false) ∧ (u = ((s.put (Reg.HOSTIF_QCMD.QUEUE h) (wordField (qcmdWord 1 q) 0 20)).put (Reg.HOSTIF_QCMD.OP h) 1).see seen) ∧ (img = u.hostRead h (u.pair (Reg.HOSTIF_QCMD_ADDR_LO.ADDR_LO h) (Reg.HOSTIF_QCMD_ADDR_HI.ADDR_HI h)) 32) ∧ (decide (u.queue? q.toNat = none) && decide (u.owner (cidPart (leAt img 10 2)) = h) && decide (u.pstate (cidPart (leAt img 10 2)) = 2 ∨ u.pstate (cidPart (leAt img 10 2)) = 3) && decide (queueOf img = none)) = true)
    ∧ (let s : State := commanding ({ ringing {} with queues := [] }) (cqDesc 5 0); let u : State := ((((commanding ({ ringing {} with queues := [] }) (cqDesc 5 0)).put (Reg.HOSTIF_QCMD.QUEUE 0) 3).put (Reg.HOSTIF_QCMD.OP 0) 1)).see []; let h : HostId := 0; let q : BitVec 20 := 3; let seen : Seen := []; let img : List Byte := (((((commanding ({ ringing {} with queues := [] }) (cqDesc 5 0)).put (Reg.HOSTIF_QCMD.QUEUE 0) 3).put (Reg.HOSTIF_QCMD.OP 0) 1)).see []).hostRead 0 0 32; (Takes s h (Reg.HOSTIF_QCMD.off h) ∧ s.flag (Reg.HOSTIF_QCMD_STS.BUSY h) = false ∧ s.inP2 = false) ∧ (u = ((s.put (Reg.HOSTIF_QCMD.QUEUE h) (wordField (qcmdWord 1 q) 0 20)).put (Reg.HOSTIF_QCMD.OP h) 1).see seen) ∧ (img = u.hostRead h (u.pair (Reg.HOSTIF_QCMD_ADDR_LO.ADDR_LO h) (Reg.HOSTIF_QCMD_ADDR_HI.ADDR_HI h)) 32) ∧ (decide (u.queue? q.toNat = none) && decide (u.owner (cidPart (leAt img 10 2)) = h) && decide (u.pstate (cidPart (leAt img 10 2)) = 2 ∨ u.pstate (cidPart (leAt img 10 2)) = 3) && (match queueOf img with | some x => decide (q.toNat ≠ 0) && decide (u.ringOk x = true) && decide (u.instPart? (cidInst x.cid) = some (cidPart (leAt img 10 2))) && decide (u.queues.any (fun e => e.2.cid == x.cid && e.2.dbSlot == x.dbSlot) = false) && decide (x.type = 2) && decide (u.flag Reg.HOSTIF_QT_CTL.ENABLE = false) | _ => false)) = true)
    ∧ (let s : State := (commanding ({ ringing {} with queues := [] }) (cqDesc 5 0)).put Reg.HOSTIF_QT_CTL.ENABLE 1; let u : State := (((((commanding ({ ringing {} with queues := [] }) (cqDesc 5 0)).put Reg.HOSTIF_QT_CTL.ENABLE 1).put (Reg.HOSTIF_QCMD.QUEUE 0) 3).put (Reg.HOSTIF_QCMD.OP 0) 1)).see []; let h : HostId := 0; let q : BitVec 20 := 3; let seen : Seen := []; let img : List Byte := ((((((commanding ({ ringing {} with queues := [] }) (cqDesc 5 0)).put Reg.HOSTIF_QT_CTL.ENABLE 1).put (Reg.HOSTIF_QCMD.QUEUE 0) 3).put (Reg.HOSTIF_QCMD.OP 0) 1)).see []).hostRead 0 0 32; (Takes s h (Reg.HOSTIF_QCMD.off h) ∧ s.flag (Reg.HOSTIF_QCMD_STS.BUSY h) = false ∧ s.inP2 = false) ∧ (u = ((s.put (Reg.HOSTIF_QCMD.QUEUE h) (wordField (qcmdWord 1 q) 0 20)).put (Reg.HOSTIF_QCMD.OP h) 1).see seen) ∧ (img = u.hostRead h (u.pair (Reg.HOSTIF_QCMD_ADDR_LO.ADDR_LO h) (Reg.HOSTIF_QCMD_ADDR_HI.ADDR_HI h)) 32) ∧ (decide (u.queue? q.toNat = none) && decide (u.owner (cidPart (leAt img 10 2)) = h) && decide (u.pstate (cidPart (leAt img 10 2)) = 2 ∨ u.pstate (cidPart (leAt img 10 2)) = 3) && (match queueOf img with | some x => decide (q.toNat ≠ 0) && decide (u.ringOk x = true) && decide (u.instPart? (cidInst x.cid) = some (cidPart (leAt img 10 2))) && decide (u.queues.any (fun e => e.2.cid == x.cid && e.2.dbSlot == x.dbSlot) = false) && decide (x.type = 2) && decide (u.flag Reg.HOSTIF_QT_CTL.ENABLE = true) | _ => false)) = true)
    ∧ (let s : State := commanding (({ ringing {} with queues := [] }).put (Reg.PART_INST.STATE 5) 0) (cqDesc 5 0); let u : State := ((((commanding (({ ringing {} with queues := [] }).put (Reg.PART_INST.STATE 5) 0) (cqDesc 5 0)).put (Reg.HOSTIF_QCMD.QUEUE 0) 3).put (Reg.HOSTIF_QCMD.OP 0) 1)).see []; let h : HostId := 0; let q : BitVec 20 := 3; let seen : Seen := []; let img : List Byte := (((((commanding (({ ringing {} with queues := [] }).put (Reg.PART_INST.STATE 5) 0) (cqDesc 5 0)).put (Reg.HOSTIF_QCMD.QUEUE 0) 3).put (Reg.HOSTIF_QCMD.OP 0) 1)).see []).hostRead 0 0 32; (Takes s h (Reg.HOSTIF_QCMD.off h) ∧ s.flag (Reg.HOSTIF_QCMD_STS.BUSY h) = false ∧ s.inP2 = false) ∧ (u = ((s.put (Reg.HOSTIF_QCMD.QUEUE h) (wordField (qcmdWord 1 q) 0 20)).put (Reg.HOSTIF_QCMD.OP h) 1).see seen) ∧ (img = u.hostRead h (u.pair (Reg.HOSTIF_QCMD_ADDR_LO.ADDR_LO h) (Reg.HOSTIF_QCMD_ADDR_HI.ADDR_HI h)) 32) ∧ (decide (u.queue? q.toNat = none) && decide (u.owner (cidPart (leAt img 10 2)) = h) && decide (u.pstate (cidPart (leAt img 10 2)) = 2 ∨ u.pstate (cidPart (leAt img 10 2)) = 3) && (match queueOf img with | some x => decide (q.toNat = 0 ∨ u.ringOk x = false ∨ u.instPart? (cidInst x.cid) ≠ some (cidPart (leAt img 10 2)) ∨ u.queues.any (fun e => e.2.cid == x.cid && e.2.dbSlot == x.dbSlot) = true) | _ => false)) = true)
    ∧ (let s : State := ready.put (Reg.HOSTIF_QCMD_STS.BUSY 0) 1; let u : State := (((ready.put (Reg.HOSTIF_QCMD_STS.BUSY 0) 1).put (Reg.HOSTIF_QCMD.QUEUE 0) 3).put (Reg.HOSTIF_QCMD.OP 0) 2); let h : HostId := 0; let q : BitVec 20 := 3; (Takes s h (Reg.HOSTIF_QCMD.off h)) ∧ (u = (s.put (Reg.HOSTIF_QCMD.QUEUE h) (wordField (qcmdWord 2 q) 0 20)).put (Reg.HOSTIF_QCMD.OP h) 2) ∧ (decide (s.flag (Reg.HOSTIF_QCMD_STS.BUSY h) = true)) = true)
    ∧ (let s : State := ready.put Reg.TALLY_STS.PSTATE 2; let u : State := (((ready.put Reg.TALLY_STS.PSTATE 2).put (Reg.HOSTIF_QCMD.QUEUE 0) 3).put (Reg.HOSTIF_QCMD.OP 0) 2); let h : HostId := 0; let q : BitVec 20 := 3; (Takes s h (Reg.HOSTIF_QCMD.off h)) ∧ (u = (s.put (Reg.HOSTIF_QCMD.QUEUE h) (wordField (qcmdWord 2 q) 0 20)).put (Reg.HOSTIF_QCMD.OP h) 2) ∧ (decide (s.flag (Reg.HOSTIF_QCMD_STS.BUSY h) = false) && decide (s.inP2 = true)) = true)
    ∧ (let s : State := ready; let u : State := ((((ready).put (Reg.HOSTIF_QCMD.QUEUE 0) 3).put (Reg.HOSTIF_QCMD.OP 0) 2)).see []; let h : HostId := 0; let q : BitVec 20 := 3; let seen : Seen := []; let img : List Byte := (((((ready).put (Reg.HOSTIF_QCMD.QUEUE 0) 3).put (Reg.HOSTIF_QCMD.OP 0) 2)).see []).hostRead 0 0 32; (Takes s h (Reg.HOSTIF_QCMD.off h) ∧ s.flag (Reg.HOSTIF_QCMD_STS.BUSY h) = false ∧ s.inP2 = false) ∧ (u = ((s.put (Reg.HOSTIF_QCMD.QUEUE h) (wordField (qcmdWord 2 q) 0 20)).put (Reg.HOSTIF_QCMD.OP h) 2).see seen) ∧ (img = u.hostRead h (u.pair (Reg.HOSTIF_QCMD_ADDR_LO.ADDR_LO h) (Reg.HOSTIF_QCMD_ADDR_HI.ADDR_HI h)) 32) ∧ (decide (u.queue? q.toNat = none)) = true)
    ∧ (let s : State := (ringing { type := 2 }).put (Reg.PART_ALLOC.OWNER 1) 1; let u : State := (((((ringing { type := 2 }).put (Reg.PART_ALLOC.OWNER 1) 1).put (Reg.HOSTIF_QCMD.QUEUE 0) 3).put (Reg.HOSTIF_QCMD.OP 0) 2)).see []; let h : HostId := 0; let q : BitVec 20 := 3; let seen : Seen := []; let img : List Byte := ((((((ringing { type := 2 }).put (Reg.PART_ALLOC.OWNER 1) 1).put (Reg.HOSTIF_QCMD.QUEUE 0) 3).put (Reg.HOSTIF_QCMD.OP 0) 2)).see []).hostRead 0 0 32; (Takes s h (Reg.HOSTIF_QCMD.off h) ∧ s.flag (Reg.HOSTIF_QCMD_STS.BUSY h) = false ∧ s.inP2 = false) ∧ (u = ((s.put (Reg.HOSTIF_QCMD.QUEUE h) (wordField (qcmdWord 2 q) 0 20)).put (Reg.HOSTIF_QCMD.OP h) 2).see seen) ∧ (img = u.hostRead h (u.pair (Reg.HOSTIF_QCMD_ADDR_LO.ADDR_LO h) (Reg.HOSTIF_QCMD_ADDR_HI.ADDR_HI h)) 32) ∧ ((match u.queue? q.toNat with | some y => decide (u.owner (cidPart y.cid) ≠ h) | _ => false)) = true)
    ∧ (let s : State := commanding (ringing { type := 2, vector := 4 }) (cqDesc 1 0); let u : State := ((((commanding (ringing { type := 2, vector := 4 }) (cqDesc 1 0)).put (Reg.HOSTIF_QCMD.QUEUE 0) 3).put (Reg.HOSTIF_QCMD.OP 0) 2)).see []; let h : HostId := 0; let q : BitVec 20 := 3; let seen : Seen := []; let img : List Byte := (((((commanding (ringing { type := 2, vector := 4 }) (cqDesc 1 0)).put (Reg.HOSTIF_QCMD.QUEUE 0) 3).put (Reg.HOSTIF_QCMD.OP 0) 2)).see []).hostRead 0 0 32; (Takes s h (Reg.HOSTIF_QCMD.off h) ∧ s.flag (Reg.HOSTIF_QCMD_STS.BUSY h) = false ∧ s.inP2 = false) ∧ (u = ((s.put (Reg.HOSTIF_QCMD.QUEUE h) (wordField (qcmdWord 2 q) 0 20)).put (Reg.HOSTIF_QCMD.OP h) 2).see seen) ∧ (img = u.hostRead h (u.pair (Reg.HOSTIF_QCMD_ADDR_LO.ADDR_LO h) (Reg.HOSTIF_QCMD_ADDR_HI.ADDR_HI h)) 32) ∧ ((match u.queue? q.toNat with | some y => decide (u.owner (cidPart y.cid) = h) && decide (queueOf img = none) | _ => false)) = true)
    ∧ (let s : State := commanding (ringing { type := 2, vector := 4, log2 := 5 }) (cqDesc 7 9); let u : State := ((((commanding (ringing { type := 2, vector := 4, log2 := 5 }) (cqDesc 7 9)).put (Reg.HOSTIF_QCMD.QUEUE 0) 3).put (Reg.HOSTIF_QCMD.OP 0) 2)).see []; let h : HostId := 0; let q : BitVec 20 := 3; let seen : Seen := []; let img : List Byte := (((((commanding (ringing { type := 2, vector := 4, log2 := 5 }) (cqDesc 7 9)).put (Reg.HOSTIF_QCMD.QUEUE 0) 3).put (Reg.HOSTIF_QCMD.OP 0) 2)).see []).hostRead 0 0 32; (Takes s h (Reg.HOSTIF_QCMD.off h) ∧ s.flag (Reg.HOSTIF_QCMD_STS.BUSY h) = false ∧ s.inP2 = false) ∧ (u = ((s.put (Reg.HOSTIF_QCMD.QUEUE h) (wordField (qcmdWord 2 q) 0 20)).put (Reg.HOSTIF_QCMD.OP h) 2).see seen) ∧ (img = u.hostRead h (u.pair (Reg.HOSTIF_QCMD_ADDR_LO.ADDR_LO h) (Reg.HOSTIF_QCMD_ADDR_HI.ADDR_HI h)) 32) ∧ ((match u.queue? q.toNat with | some y => decide (u.owner (cidPart y.cid) = h) && (match queueOf img with | some x => decide (({ y with modCount := x.modCount, modTime := x.modTime, vector := x.vector } : Queue).encode ≠ x.encode) | _ => false) | _ => false)) = true)
    ∧ (let s : State := commanding (ringing { type := 2, vector := 4 }) (cqDesc 7 9); let u : State := ((((commanding (ringing { type := 2, vector := 4 }) (cqDesc 7 9)).put (Reg.HOSTIF_QCMD.QUEUE 0) 3).put (Reg.HOSTIF_QCMD.OP 0) 2)).see []; let h : HostId := 0; let q : BitVec 20 := 3; let seen : Seen := []; let img : List Byte := (((((commanding (ringing { type := 2, vector := 4 }) (cqDesc 7 9)).put (Reg.HOSTIF_QCMD.QUEUE 0) 3).put (Reg.HOSTIF_QCMD.OP 0) 2)).see []).hostRead 0 0 32; (Takes s h (Reg.HOSTIF_QCMD.off h) ∧ s.flag (Reg.HOSTIF_QCMD_STS.BUSY h) = false ∧ s.inP2 = false) ∧ (u = ((s.put (Reg.HOSTIF_QCMD.QUEUE h) (wordField (qcmdWord 2 q) 0 20)).put (Reg.HOSTIF_QCMD.OP h) 2).see seen) ∧ (img = u.hostRead h (u.pair (Reg.HOSTIF_QCMD_ADDR_LO.ADDR_LO h) (Reg.HOSTIF_QCMD_ADDR_HI.ADDR_HI h)) 32) ∧ ((match u.queue? q.toNat with | some y => decide (u.owner (cidPart y.cid) = h) && (match queueOf img with | some x => decide (({ y with modCount := x.modCount, modTime := x.modTime, vector := x.vector } : Queue).encode = x.encode) | _ => false) | _ => false)) = true)
    ∧ (let s : State := ready.put (Reg.HOSTIF_QCMD_STS.BUSY 0) 1; let u : State := (((ready.put (Reg.HOSTIF_QCMD_STS.BUSY 0) 1).put (Reg.HOSTIF_QCMD.QUEUE 0) 3).put (Reg.HOSTIF_QCMD.OP 0) 3); let h : HostId := 0; let q : BitVec 20 := 3; (Takes s h (Reg.HOSTIF_QCMD.off h)) ∧ (u = (s.put (Reg.HOSTIF_QCMD.QUEUE h) (wordField (qcmdWord 3 q) 0 20)).put (Reg.HOSTIF_QCMD.OP h) 3) ∧ (decide (s.flag (Reg.HOSTIF_QCMD_STS.BUSY h) = true)) = true)
    ∧ (let s : State := ready.put Reg.TALLY_STS.PSTATE 2; let u : State := (((ready.put Reg.TALLY_STS.PSTATE 2).put (Reg.HOSTIF_QCMD.QUEUE 0) 3).put (Reg.HOSTIF_QCMD.OP 0) 3); let h : HostId := 0; let q : BitVec 20 := 3; (Takes s h (Reg.HOSTIF_QCMD.off h)) ∧ (u = (s.put (Reg.HOSTIF_QCMD.QUEUE h) (wordField (qcmdWord 3 q) 0 20)).put (Reg.HOSTIF_QCMD.OP h) 3) ∧ (decide (s.flag (Reg.HOSTIF_QCMD_STS.BUSY h) = false) && decide (s.inP2 = true)) = true)
    ∧ (let s : State := ready; let u : State := ((((ready).put (Reg.HOSTIF_QCMD.QUEUE 0) 3).put (Reg.HOSTIF_QCMD.OP 0) 3)).see []; let h : HostId := 0; let q : BitVec 20 := 3; let seen : Seen := []; let img : List Byte := (((((ready).put (Reg.HOSTIF_QCMD.QUEUE 0) 3).put (Reg.HOSTIF_QCMD.OP 0) 3)).see []).hostRead 0 0 32; (Takes s h (Reg.HOSTIF_QCMD.off h) ∧ s.flag (Reg.HOSTIF_QCMD_STS.BUSY h) = false ∧ s.inP2 = false) ∧ (u = ((s.put (Reg.HOSTIF_QCMD.QUEUE h) (wordField (qcmdWord 3 q) 0 20)).put (Reg.HOSTIF_QCMD.OP h) 3).see seen) ∧ (img = u.hostRead h (u.pair (Reg.HOSTIF_QCMD_ADDR_LO.ADDR_LO h) (Reg.HOSTIF_QCMD_ADDR_HI.ADDR_HI h)) 32) ∧ (decide (u.queue? q.toNat = none)) = true)
    ∧ (let s : State := (ringing { type := 2 }).put (Reg.PART_ALLOC.OWNER 1) 1; let u : State := (((((ringing { type := 2 }).put (Reg.PART_ALLOC.OWNER 1) 1).put (Reg.HOSTIF_QCMD.QUEUE 0) 3).put (Reg.HOSTIF_QCMD.OP 0) 3)).see []; let h : HostId := 0; let q : BitVec 20 := 3; let seen : Seen := []; let img : List Byte := ((((((ringing { type := 2 }).put (Reg.PART_ALLOC.OWNER 1) 1).put (Reg.HOSTIF_QCMD.QUEUE 0) 3).put (Reg.HOSTIF_QCMD.OP 0) 3)).see []).hostRead 0 0 32; (Takes s h (Reg.HOSTIF_QCMD.off h) ∧ s.flag (Reg.HOSTIF_QCMD_STS.BUSY h) = false ∧ s.inP2 = false) ∧ (u = ((s.put (Reg.HOSTIF_QCMD.QUEUE h) (wordField (qcmdWord 3 q) 0 20)).put (Reg.HOSTIF_QCMD.OP h) 3).see seen) ∧ (img = u.hostRead h (u.pair (Reg.HOSTIF_QCMD_ADDR_LO.ADDR_LO h) (Reg.HOSTIF_QCMD_ADDR_HI.ADDR_HI h)) 32) ∧ ((match u.queue? q.toNat with | some y => decide (u.owner (cidPart y.cid) ≠ h) | _ => false)) = true)
    ∧ (let s : State := ringing { type := 2 }; let u : State := ((((ringing { type := 2 }).put (Reg.HOSTIF_QCMD.QUEUE 0) 3).put (Reg.HOSTIF_QCMD.OP 0) 3)).see []; let h : HostId := 0; let q : BitVec 20 := 3; let seen : Seen := []; let img : List Byte := (((((ringing { type := 2 }).put (Reg.HOSTIF_QCMD.QUEUE 0) 3).put (Reg.HOSTIF_QCMD.OP 0) 3)).see []).hostRead 0 0 32; (Takes s h (Reg.HOSTIF_QCMD.off h) ∧ s.flag (Reg.HOSTIF_QCMD_STS.BUSY h) = false ∧ s.inP2 = false) ∧ (u = ((s.put (Reg.HOSTIF_QCMD.QUEUE h) (wordField (qcmdWord 3 q) 0 20)).put (Reg.HOSTIF_QCMD.OP h) 3).see seen) ∧ (img = u.hostRead h (u.pair (Reg.HOSTIF_QCMD_ADDR_LO.ADDR_LO h) (Reg.HOSTIF_QCMD_ADDR_HI.ADDR_HI h)) 32) ∧ ((match u.queue? q.toNat with | some y => decide (u.owner (cidPart y.cid) = h) | _ => false)) = true)
    ∧ (let s : State := ready.put (Reg.HOSTIF_QCMD_STS.BUSY 0) 1; let u : State := (((ready.put (Reg.HOSTIF_QCMD_STS.BUSY 0) 1).put (Reg.HOSTIF_QCMD.QUEUE 0) 3).put (Reg.HOSTIF_QCMD.OP 0) 4); let h : HostId := 0; let q : BitVec 20 := 3; (Takes s h (Reg.HOSTIF_QCMD.off h)) ∧ (u = (s.put (Reg.HOSTIF_QCMD.QUEUE h) (wordField (qcmdWord 4 q) 0 20)).put (Reg.HOSTIF_QCMD.OP h) 4) ∧ (decide (s.flag (Reg.HOSTIF_QCMD_STS.BUSY h) = true)) = true)
    ∧ (let s : State := ready.put Reg.TALLY_STS.PSTATE 2; let u : State := (((ready.put Reg.TALLY_STS.PSTATE 2).put (Reg.HOSTIF_QCMD.QUEUE 0) 3).put (Reg.HOSTIF_QCMD.OP 0) 4); let h : HostId := 0; let q : BitVec 20 := 3; (Takes s h (Reg.HOSTIF_QCMD.off h)) ∧ (u = (s.put (Reg.HOSTIF_QCMD.QUEUE h) (wordField (qcmdWord 4 q) 0 20)).put (Reg.HOSTIF_QCMD.OP h) 4) ∧ (decide (s.flag (Reg.HOSTIF_QCMD_STS.BUSY h) = false) && decide (s.inP2 = true)) = true)
    ∧ (let s : State := ready; let u : State := ((((ready).put (Reg.HOSTIF_QCMD.QUEUE 0) 3).put (Reg.HOSTIF_QCMD.OP 0) 4)).see []; let h : HostId := 0; let q : BitVec 20 := 3; let seen : Seen := []; let img : List Byte := (((((ready).put (Reg.HOSTIF_QCMD.QUEUE 0) 3).put (Reg.HOSTIF_QCMD.OP 0) 4)).see []).hostRead 0 0 32; (Takes s h (Reg.HOSTIF_QCMD.off h) ∧ s.flag (Reg.HOSTIF_QCMD_STS.BUSY h) = false ∧ s.inP2 = false) ∧ (u = ((s.put (Reg.HOSTIF_QCMD.QUEUE h) (wordField (qcmdWord 4 q) 0 20)).put (Reg.HOSTIF_QCMD.OP h) 4).see seen) ∧ (img = u.hostRead h (u.pair (Reg.HOSTIF_QCMD_ADDR_LO.ADDR_LO h) (Reg.HOSTIF_QCMD_ADDR_HI.ADDR_HI h)) 32) ∧ (decide (u.queue? q.toNat = none)) = true)
    ∧ (let s : State := (ringing { type := 2 }).put (Reg.PART_ALLOC.OWNER 1) 1; let u : State := (((((ringing { type := 2 }).put (Reg.PART_ALLOC.OWNER 1) 1).put (Reg.HOSTIF_QCMD.QUEUE 0) 3).put (Reg.HOSTIF_QCMD.OP 0) 4)).see []; let h : HostId := 0; let q : BitVec 20 := 3; let seen : Seen := []; let img : List Byte := ((((((ringing { type := 2 }).put (Reg.PART_ALLOC.OWNER 1) 1).put (Reg.HOSTIF_QCMD.QUEUE 0) 3).put (Reg.HOSTIF_QCMD.OP 0) 4)).see []).hostRead 0 0 32; (Takes s h (Reg.HOSTIF_QCMD.off h) ∧ s.flag (Reg.HOSTIF_QCMD_STS.BUSY h) = false ∧ s.inP2 = false) ∧ (u = ((s.put (Reg.HOSTIF_QCMD.QUEUE h) (wordField (qcmdWord 4 q) 0 20)).put (Reg.HOSTIF_QCMD.OP h) 4).see seen) ∧ (img = u.hostRead h (u.pair (Reg.HOSTIF_QCMD_ADDR_LO.ADDR_LO h) (Reg.HOSTIF_QCMD_ADDR_HI.ADDR_HI h)) 32) ∧ ((match u.queue? q.toNat with | some y => decide (u.owner (cidPart y.cid) ≠ h) | _ => false)) = true)
    ∧ (let s : State := ringing { live := [invokeLive 1] }; let u : State := ((((ringing { live := [invokeLive 1] }).put (Reg.HOSTIF_QCMD.QUEUE 0) 3).put (Reg.HOSTIF_QCMD.OP 0) 4)).see []; let h : HostId := 0; let q : BitVec 20 := 3; let seen : Seen := []; let img : List Byte := (((((ringing { live := [invokeLive 1] }).put (Reg.HOSTIF_QCMD.QUEUE 0) 3).put (Reg.HOSTIF_QCMD.OP 0) 4)).see []).hostRead 0 0 32; (Takes s h (Reg.HOSTIF_QCMD.off h) ∧ s.flag (Reg.HOSTIF_QCMD_STS.BUSY h) = false ∧ s.inP2 = false) ∧ (u = ((s.put (Reg.HOSTIF_QCMD.QUEUE h) (wordField (qcmdWord 4 q) 0 20)).put (Reg.HOSTIF_QCMD.OP h) 4).see seen) ∧ (img = u.hostRead h (u.pair (Reg.HOSTIF_QCMD_ADDR_LO.ADDR_LO h) (Reg.HOSTIF_QCMD_ADDR_HI.ADDR_HI h)) 32) ∧ ((match u.queue? q.toNat with | some y => decide (u.owner (cidPart y.cid) = h) && decide (u.queueInUse q.toNat y = true) | _ => false)) = true)
    ∧ (let s : State := ringing { type := 2 }; let u : State := ((((ringing { type := 2 }).put (Reg.HOSTIF_QCMD.QUEUE 0) 3).put (Reg.HOSTIF_QCMD.OP 0) 4)).see []; let h : HostId := 0; let q : BitVec 20 := 3; let seen : Seen := []; let img : List Byte := (((((ringing { type := 2 }).put (Reg.HOSTIF_QCMD.QUEUE 0) 3).put (Reg.HOSTIF_QCMD.OP 0) 4)).see []).hostRead 0 0 32; (Takes s h (Reg.HOSTIF_QCMD.off h) ∧ s.flag (Reg.HOSTIF_QCMD_STS.BUSY h) = false ∧ s.inP2 = false) ∧ (u = ((s.put (Reg.HOSTIF_QCMD.QUEUE h) (wordField (qcmdWord 4 q) 0 20)).put (Reg.HOSTIF_QCMD.OP h) 4).see seen) ∧ (img = u.hostRead h (u.pair (Reg.HOSTIF_QCMD_ADDR_LO.ADDR_LO h) (Reg.HOSTIF_QCMD_ADDR_HI.ADDR_HI h)) 32) ∧ ((match u.queue? q.toNat with | some y => decide (u.owner (cidPart y.cid) = h) && decide (u.queueInUse q.toNat y = false) | _ => false)) = true)
    ∧ (let s : State := ready.put (Reg.HOSTIF_DCINV_STS.BUSY 0) 1; let h : HostId := 0; (Takes s h (Reg.HOSTIF_DCINV.off h)) ∧ (decide (s.flag (Reg.HOSTIF_DCINV_STS.BUSY h) = true)) = true)
    ∧ (let s : State := ready; let h : HostId := 0; let q : BitVec 20 := 3; (Takes s h (Reg.HOSTIF_DCINV.off h)) ∧ (decide (s.flag (Reg.HOSTIF_DCINV_STS.BUSY h) = false) && decide (s.queue? q.toNat = none)) = true)
    ∧ (let s : State := (ringing {}).put (Reg.PART_ALLOC.OWNER 1) 1; let h : HostId := 0; let q : BitVec 20 := 3; (Takes s h (Reg.HOSTIF_DCINV.off h)) ∧ (decide (s.flag (Reg.HOSTIF_DCINV_STS.BUSY h) = false) && (match s.queue? q.toNat with | some y => decide (s.owner (cidPart y.cid) ≠ h) | _ => false)) = true)
    ∧ (let s : State := ringing {}; let h : HostId := 0; let q : BitVec 20 := 3; (Takes s h (Reg.HOSTIF_DCINV.off h)) ∧ (decide (s.flag (Reg.HOSTIF_DCINV_STS.BUSY h) = false) && (match s.queue? q.toNat with | some y => decide (s.owner (cidPart y.cid) = h) | _ => false)) = true)
    ∧ (let s : State := ready; let q : BitVec 20 := 3; (decide (s.queue? q.toNat = none)) = true)
    ∧ (let s : State := ringing { stopped := true }; let q : BitVec 20 := 3; ((match s.queue? q.toNat with | some y => decide (s.mayFetch q.toNat y = false) | _ => false)) = true)
    ∧ (let s : State := ringing {}; let q : BitVec 20 := 3; ((match s.queue? q.toNat with | some y => decide (s.mayFetch q.toNat y = true) | _ => false)) = true)
    ∧ (let s : State := ringing { posted := 2 }; let u : State := ringing { posted := 2 }; let q : BitVec 20 := 3; let seen : Seen := []; let y : Queue := { cid := 1029, dbSlot := 2, base := 0x1000, posted := 2 }; let r : Except MemErr (List Byte) := .ok (List.replicate 64 0); (s.queue? q.toNat = some y ∧ s.mayFetch q.toNat y = true ∧ y.fetch ≠ y.posted ∧ y.cached.length < 64 ∧ s.cachedCount < 65536) ∧ (y.early.contains y.fetch = false ∧ (s.see seen).memReadC y.cid y.space (y.addr y.fetch) 64 = (u, r)) ∧ ((match r with | .ok bs => true | _ => false)) = true)
    ∧ (let s : State := (ringing { posted := 2 }).put (Reg.PART_APT_BASE_LO.VALID 1 0) 0; let u : State := ((ringing { posted := 2 }).put (Reg.PART_APT_BASE_LO.VALID 1 0) 0).cidRefused 1029 .cid; let q : BitVec 20 := 3; let seen : Seen := []; let y : Queue := { cid := 1029, dbSlot := 2, base := 0x1000, posted := 2 }; let r : Except MemErr (List Byte) := .error .cid; (s.queue? q.toNat = some y ∧ s.mayFetch q.toNat y = true ∧ y.fetch ≠ y.posted ∧ y.cached.length < 64 ∧ s.cachedCount < 65536) ∧ (y.early.contains y.fetch = false ∧ (s.see seen).memReadC y.cid y.space (y.addr y.fetch) 64 = (u, r)) ∧ (decide (r = .error .cid ∨ r = .error .ue)) = true)
    ∧ (let s : State := (ringing { posted := 2 }).put (Reg.PART_HOST_STS.LOST 0) 1; let u : State := (ringing { posted := 2 }).put (Reg.PART_HOST_STS.LOST 0) 1; let q : BitVec 20 := 3; let seen : Seen := []; let y : Queue := { cid := 1029, dbSlot := 2, base := 0x1000, posted := 2 }; let r : Except MemErr (List Byte) := .error .wait; (s.queue? q.toNat = some y ∧ s.mayFetch q.toNat y = true ∧ y.fetch ≠ y.posted ∧ y.cached.length < 64 ∧ s.cachedCount < 65536) ∧ (y.early.contains y.fetch = false ∧ (s.see seen).memReadC y.cid y.space (y.addr y.fetch) 64 = (u, r)) ∧ (decide (r = .error .wait)) = true)
    ∧ (let s : State := ready; let q : BitVec 20 := 3; (decide (s.queue? q.toNat = none)) = true)
    ∧ (let s : State := ringing {}; let q : BitVec 20 := 3; let pos : Nat := 0; ((match s.queue? q.toNat with | some y => decide (y.cached.find? (fun c => c.1 == pos) = none) | _ => false)) = true)
    ∧ (let s : State := ringing { posted := 2, fetch := 1, cached := [(0, 0, [0, 1])] }; let q : BitVec 20 := 3; let pos : Nat := 0; ((match s.queue? q.toNat with | some y => (match y.cached.find? (fun c => c.1 == pos) with | some c => decide (y.fresh pos c.2.2 = true ∨ 4 ≤ c.2.1 ∨ s.mayFetch q.toNat y = false) | _ => false) | _ => false)) = true)
    ∧ (let s : State := ringing { posted := 2, fetch := 1, cached := [(0, 0, [0, 7])] }; let u : State := ringing { posted := 2, fetch := 1, cached := [(0, 0, [0, 7])] }; let q : BitVec 20 := 3; let pos : Nat := 0; let k : Nat := 0; let seen : Seen := []; let y : Queue := { cid := 1029, dbSlot := 2, base := 0x1000, posted := 2, fetch := 1, cached := [(0, 0, [0, 7])] }; let bs : List Byte := [0, 7]; let r : Except MemErr (List Byte) := .ok (List.replicate 64 0); (s.queue? q.toNat = some y ∧ y.cached.find? (fun c => c.1 == pos) = some (pos, k, bs) ∧ y.fresh pos bs = false ∧ k < 4 ∧ s.mayFetch q.toNat y = true) ∧ ((s.see seen).memReadC y.cid y.space (y.addr pos) 64 = (u, r)) ∧ ((match r with | .ok new => true | _ => false)) = true)
    ∧ (let s : State := (ringing { posted := 2, fetch := 1, cached := [(0, 0, [0, 7])] }).put (Reg.PART_APT_BASE_LO.VALID 1 0) 0; let u : State := ((ringing { posted := 2, fetch := 1, cached := [(0, 0, [0, 7])] }).put (Reg.PART_APT_BASE_LO.VALID 1 0) 0).cidRefused 1029 .cid; let q : BitVec 20 := 3; let pos : Nat := 0; let k : Nat := 0; let seen : Seen := []; let y : Queue := { cid := 1029, dbSlot := 2, base := 0x1000, posted := 2, fetch := 1, cached := [(0, 0, [0, 7])] }; let bs : List Byte := [0, 7]; let r : Except MemErr (List Byte) := .error .cid; (s.queue? q.toNat = some y ∧ y.cached.find? (fun c => c.1 == pos) = some (pos, k, bs) ∧ y.fresh pos bs = false ∧ k < 4 ∧ s.mayFetch q.toNat y = true) ∧ ((s.see seen).memReadC y.cid y.space (y.addr pos) 64 = (u, r)) ∧ (decide (r = .error .cid ∨ r = .error .ue)) = true)
    ∧ (let s : State := (ringing { posted := 2, fetch := 1, cached := [(0, 0, [0, 7])] }).put (Reg.PART_HOST_STS.LOST 0) 1; let u : State := (ringing { posted := 2, fetch := 1, cached := [(0, 0, [0, 7])] }).put (Reg.PART_HOST_STS.LOST 0) 1; let q : BitVec 20 := 3; let pos : Nat := 0; let k : Nat := 0; let seen : Seen := []; let y : Queue := { cid := 1029, dbSlot := 2, base := 0x1000, posted := 2, fetch := 1, cached := [(0, 0, [0, 7])] }; let bs : List Byte := [0, 7]; let r : Except MemErr (List Byte) := .error .wait; (s.queue? q.toNat = some y ∧ y.cached.find? (fun c => c.1 == pos) = some (pos, k, bs) ∧ y.fresh pos bs = false ∧ k < 4 ∧ s.mayFetch q.toNat y = true) ∧ ((s.see seen).memReadC y.cid y.space (y.addr pos) 64 = (u, r)) ∧ (decide (r = .error .wait)) = true)
    ∧ (let s : State := ready; let q : BitVec 20 := 3; (decide (s.queue? q.toNat = none)) = true)
    ∧ (let s : State := ringing { type := 2 }; let q : BitVec 20 := 3; ((match s.queue? q.toNat with | some y => decide (y.armed = false ∨ y.since = 0) | _ => false)) = true)
    ∧ (let s : State := ringing { type := 2, armed := true, since := 1, vector := 5 }; let q : BitVec 20 := 3; ((match s.queue? q.toNat with | some y => decide (y.armed = true) && decide (y.since ≠ 0) | _ => false)) = true) := by
  refine ⟨?_, ?_, ?_, ?_, ?_, ?_, ?_, ?_, ?_, ?_, ?_, ?_, ?_, ?_, ?_, ?_, ?_, ?_, ?_, ?_, ?_, ?_, ?_, ?_, ?_, ?_, ?_, ?_, ?_, ?_, ?_, ?_, ?_, ?_, ?_, ?_, ?_, ?_, ?_, ?_, ?_, ?_, ?_, ?_, ?_⟩ <;> decide +kernel

/-- States and operands that meet the hypotheses of RequestPackets. -/
theorem witness_RequestPackets :
    (let s : State := ready; let u : State := ready; let seen : Seen := []; (u = s.see seen) ∧ (decide (u.nextPkt = none)) = true)
    ∧ (let s : State := receiving { kind := .write, dqpn := 9 }; let u : State := receiving { kind := .write, dqpn := 9 }; let seen : Seen := []; (u = s.see seen) ∧ ((match u.nextPkt with | some x => (match x.1.decode with | .pkt p => decide (p.row ≠ .send) | _ => false) | _ => false)) = true)
    ∧ (let s : State := receiving { kind := .send, dqpn := 9 } { rtsQp with place := .spilled }; let u : State := receiving { kind := .send, dqpn := 9 } { rtsQp with place := .spilled }; let seen : Seen := []; (u = s.see seen) ∧ ((match u.nextPkt with | some x => (match x.1.decode with | .pkt p => decide (p.row = .send) && decide (u.absent p.dqpn = true) | _ => false) | _ => false)) = true)
    ∧ (let s : State := receiving { kind := .send, dqpn := 9, psn := 5 } { rtsQp with ctx := { rtsQp.ctx with nakSent := true } }; let w : State := (received { kind := .send, dqpn := 9, psn := 5 } { rtsQp with ctx := { rtsQp.ctx with nakSent := true } }).modCtx 9 (fun c => { c with lastUse := 0 }); let seen : Seen := []; let x : RxPkt := rxOf { kind := .send, dqpn := 9, psn := 5 }; let xs : List RxPkt := []; let p : TPkt := { kind := .send, dqpn := 9, psn := 5 }; let y : Qp := { rtsQp with ctx := { rtsQp.ctx with nakSent := true } }; (TakesPacket (s.see seen) x xs p y w ∧ p.row = .send) ∧ (decide (psnSub p.psn y.ctx.epsn ≠ 0) && decide (psnSub p.psn y.ctx.epsn < 2 ^ 23) && decide (y.ctx.nakSent = true)) = true)
    ∧ (let s : State := receiving { kind := .send, dqpn := 9, psn := 5 } rtsQp; let w : State := (received { kind := .send, dqpn := 9, psn := 5 } rtsQp).modCtx 9 (fun c => { c with lastUse := 0 }); let seen : Seen := []; let x : RxPkt := rxOf { kind := .send, dqpn := 9, psn := 5 }; let xs : List RxPkt := []; let p : TPkt := { kind := .send, dqpn := 9, psn := 5 }; let y : Qp := rtsQp; (TakesPacket (s.see seen) x xs p y w ∧ p.row = .send) ∧ (decide (psnSub p.psn y.ctx.epsn ≠ 0) && decide (psnSub p.psn y.ctx.epsn < 2 ^ 23) && decide (y.ctx.nakSent = false)) = true)
    ∧ (let s : State := receiving { kind := .send, dqpn := 9, cid := 9 } rtsQp; let w : State := (received { kind := .send, dqpn := 9, cid := 9 } rtsQp).modCtx 9 (fun c => { c with lastUse := 0 }); let seen : Seen := []; let x : RxPkt := rxOf { kind := .send, dqpn := 9, cid := 9 }; let xs : List RxPkt := []; let p : TPkt := { kind := .send, dqpn := 9, cid := 9 }; let y : Qp := rtsQp; (TakesPacket (s.see seen) x xs p y w ∧ p.row = .send) ∧ (decide (psnSub p.psn y.ctx.epsn = 0) && decide (p.roce = false) && decide (p.cid ≠ y.ctx.cid)) = true)
    ∧ (let s : State := receiving { kind := .send, dqpn := 9 } { rtsQp with ctx := { rtsQp.ctx with epsn := 2 } }; let w : State := (received { kind := .send, dqpn := 9 } { rtsQp with ctx := { rtsQp.ctx with epsn := 2 } }).modCtx 9 (fun c => { c with lastUse := 0 }); let seen : Seen := []; let x : RxPkt := rxOf { kind := .send, dqpn := 9 }; let xs : List RxPkt := []; let p : TPkt := { kind := .send, dqpn := 9 }; let y : Qp := { rtsQp with ctx := { rtsQp.ctx with epsn := 2 } }; (TakesPacket (s.see seen) x xs p y w ∧ p.row = .send) ∧ (decide (2 ^ 23 ≤ psnSub p.psn y.ctx.epsn)) = true)
    ∧ (let s : State := receiving { kind := .send, dqpn := 9, cid := 1024, payload := [1, 2] } { rtsQp with recvFail := true }; let w : State := (received { kind := .send, dqpn := 9, cid := 1024, payload := [1, 2] } { rtsQp with recvFail := true }).modCtx 9 (fun c => { c with lastUse := 0 }); let seen : Seen := []; let x : RxPkt := rxOf { kind := .send, dqpn := 9, cid := 1024, payload := [1, 2] }; let xs : List RxPkt := []; let p : TPkt := { kind := .send, dqpn := 9, cid := 1024, payload := [1, 2] }; let y : Qp := { rtsQp with recvFail := true }; (TakesPacket (s.see seen) x xs p y w ∧ p.row = .send) ∧ (psnSub p.psn y.ctx.epsn = 0 ∧ (p.roce = true ∨ p.cid = y.ctx.cid)) ∧ (decide (y.recvFail = true)) = true)
    ∧ (let s : State := receiving { kind := .send, dqpn := 9, cid := 1024, payload := [1, 2] } rtsQp; let w : State := (received { kind := .send, dqpn := 9, cid := 1024, payload := [1, 2] } rtsQp).modCtx 9 (fun c => { c with lastUse := 0 }); let seen : Seen := []; let x : RxPkt := rxOf { kind := .send, dqpn := 9, cid := 1024, payload := [1, 2] }; let xs : List RxPkt := []; let p : TPkt := { kind := .send, dqpn := 9, cid := 1024, payload := [1, 2] }; let y : Qp := rtsQp; (TakesPacket (s.see seen) x xs p y w ∧ p.row = .send) ∧ (psnSub p.psn y.ctx.epsn = 0 ∧ (p.roce = true ∨ p.cid = y.ctx.cid)) ∧ (decide (y.recvFail = false) && decide (w.recvEntry? y.ctx = none)) = true)
    ∧ (let s : State := receiving { kind := .send, dqpn := 9, cid := 1024, payload := [1, 2] } rtsQp {} { live := [recvLive 1] }; let w : State := (received { kind := .send, dqpn := 9, cid := 1024, payload := [1, 2] } rtsQp {} { live := [recvLive 1] }).modCtx 9 (fun c => { c with lastUse := 0 }); let seen : Seen := []; let x : RxPkt := rxOf { kind := .send, dqpn := 9, cid := 1024, payload := [1, 2] }; let xs : List RxPkt := []; let p : TPkt := { kind := .send, dqpn := 9, cid := 1024, payload := [1, 2] }; let y : Qp := rtsQp; (TakesPacket (s.see seen) x xs p y w ∧ p.row = .send) ∧ (psnSub p.psn y.ctx.epsn = 0 ∧ (p.roce = true ∨ p.cid = y.ctx.cid)) ∧ (decide (y.recvFail = false) && (match w.recvEntry? y.ctx with | some l => decide (l.len < (if p.opens then 0 else y.ctx.msgOffset) + p.payload.length) | _ => false)) = true)
    ∧ (let s : State := receiving { kind := .send, dqpn := 9, cid := 1024, payload := [1, 2] } rtsQp {} { live := [recvLive] }; let w : State := (received { kind := .send, dqpn := 9, cid := 1024, payload := [1, 2] } rtsQp {} { live := [recvLive] }).modCtx 9 (fun c => { c with lastUse := 0 }); let seen : Seen := []; let x : RxPkt := rxOf { kind := .send, dqpn := 9, cid := 1024, payload := [1, 2] }; let xs : List RxPkt := []; let p : TPkt := { kind := .send, dqpn := 9, cid := 1024, payload := [1, 2] }; let y : Qp := rtsQp; let z : State := (((received { kind := .send, dqpn := 9, cid := 1024, payload := [1, 2] } rtsQp {} { live := [recvLive] }).modCtx 9 (fun c => { c with lastUse := 0 })).bufWrite 1024 recvLive.buf 0 [1, 2]).1; let l : Live := recvLive; let off : Nat := 0; let r : BufRes Unit := .ok (); (TakesPacket (s.see seen) x xs p y w ∧ p.row = .send) ∧ (psnSub p.psn y.ctx.epsn = 0 ∧ (p.roce = true ∨ p.cid = y.ctx.cid) ∧ y.recvFail = false ∧ w.recvEntry? y.ctx = some l ∧ off = (if p.opens then 0 else y.ctx.msgOffset) ∧ off + p.payload.length ≤ l.len) ∧ ((match p.tag with | some g => !w.tagOk (cidPart y.ctx.cid) g | none => false) = false ∧ w.bufWrite y.ctx.cid l.buf off p.payload = (z, r)) ∧ (decide (r = .ok ()) && decide (p.closes = true)) = true)
    ∧ (let s : State := (receiving { kind := .send, dqpn := 9, cid := 1024, payload := [1, 2] } rtsQp {} { live := [recvLive] }).put (Reg.PART_HOST_STS.LOST 0) 1; let w : State := ((received { kind := .send, dqpn := 9, cid := 1024, payload := [1, 2] } rtsQp {} { live := [recvLive] }).put (Reg.PART_HOST_STS.LOST 0) 1).modCtx 9 (fun c => { c with lastUse := 0 }); let seen : Seen := []; let x : RxPkt := rxOf { kind := .send, dqpn := 9, cid := 1024, payload := [1, 2] }; let xs : List RxPkt := []; let p : TPkt := { kind := .send, dqpn := 9, cid := 1024, payload := [1, 2] }; let y : Qp := rtsQp; let z : State := ((((received { kind := .send, dqpn := 9, cid := 1024, payload := [1, 2] } rtsQp {} { live := [recvLive] }).put (Reg.PART_HOST_STS.LOST 0) 1).modCtx 9 (fun c => { c with lastUse := 0 })).bufWrite 1024 recvLive.buf 0 [1, 2]).1; let l : Live := recvLive; let off : Nat := 0; let r : BufRes Unit := .err .wait; (TakesPacket (s.see seen) x xs p y w ∧ p.row = .send) ∧ (psnSub p.psn y.ctx.epsn = 0 ∧ (p.roce = true ∨ p.cid = y.ctx.cid) ∧ y.recvFail = false ∧ w.recvEntry? y.ctx = some l ∧ off = (if p.opens then 0 else y.ctx.msgOffset) ∧ off + p.payload.length ≤ l.len) ∧ ((match p.tag with | some g => !w.tagOk (cidPart y.ctx.cid) g | none => false) = false ∧ w.bufWrite y.ctx.cid l.buf off p.payload = (z, r)) ∧ (decide (r = .err .wait)) = true)
    ∧ (let s : State := receiving { kind := .send, dqpn := 9, cid := 1024, payload := [1, 2] } rtsQp {} { live := [{ recvLive with bytes := [0x40, 1] ++ List.replicate 30 0 ++ leBytes 8 0x10000000000 ++ List.replicate 24 0 }] }; let w : State := (received { kind := .send, dqpn := 9, cid := 1024, payload := [1, 2] } rtsQp {} { live := [{ recvLive with bytes := [0x40, 1] ++ List.replicate 30 0 ++ leBytes 8 0x10000000000 ++ List.replicate 24 0 }] }).modCtx 9 (fun c => { c with lastUse := 0 }); let seen : Seen := []; let x : RxPkt := rxOf { kind := .send, dqpn := 9, cid := 1024, payload := [1, 2] }; let xs : List RxPkt := []; let p : TPkt := { kind := .send, dqpn := 9, cid := 1024, payload := [1, 2] }; let y : Qp := rtsQp; let z : State := (((received { kind := .send, dqpn := 9, cid := 1024, payload := [1, 2] } rtsQp {} { live := [{ recvLive with bytes := [0x40, 1] ++ List.replicate 30 0 ++ leBytes 8 0x10000000000 ++ List.replicate 24 0 }] }).modCtx 9 (fun c => { c with lastUse := 0 })).bufWrite 1024 { space := 0, addr := 0x10000000000, indirect := false } 0 [1, 2]).1; let l : Live := { recvLive with bytes := [0x40, 1] ++ List.replicate 30 0 ++ leBytes 8 0x10000000000 ++ List.replicate 24 0 }; let off : Nat := 0; let r : BufRes Unit := .err .cid; (TakesPacket (s.see seen) x xs p y w ∧ p.row = .send) ∧ (psnSub p.psn y.ctx.epsn = 0 ∧ (p.roce = true ∨ p.cid = y.ctx.cid) ∧ y.recvFail = false ∧ w.recvEntry? y.ctx = some l ∧ off = (if p.opens then 0 else y.ctx.msgOffset) ∧ off + p.payload.length ≤ l.len) ∧ ((match p.tag with | some g => !w.tagOk (cidPart y.ctx.cid) g | none => false) = false ∧ w.bufWrite y.ctx.cid l.buf off p.payload = (z, r)) ∧ ((match r with | .err e => decide (e ≠ .wait) | _ => false)) = true)
    ∧ (let s : State := ready; let u : State := ready; let seen : Seen := []; (u = s.see seen) ∧ (decide (u.nextPkt = none)) = true)
    ∧ (let s : State := receiving { kind := .send, dqpn := 9 }; let u : State := receiving { kind := .send, dqpn := 9 }; let seen : Seen := []; (u = s.see seen) ∧ ((match u.nextPkt with | some x => (match x.1.decode with | .pkt p => decide (p.row ≠ .write) | _ => false) | _ => false)) = true)
    ∧ (let s : State := receiving { kind := .write, dqpn := 9 } { rtsQp with place := .spilled }; let u : State := receiving { kind := .write, dqpn := 9 } { rtsQp with place := .spilled }; let seen : Seen := []; (u = s.see seen) ∧ ((match u.nextPkt with | some x => (match x.1.decode with | .pkt p => decide (p.row = .write) && decide (u.absent p.dqpn = true) | _ => false) | _ => false)) = true)
    ∧ (let s : State := receiving { kind := .write, dqpn := 9, psn := 5 } { rtsQp with ctx := { rtsQp.ctx with nakSent := true } }; let w : State := (received { kind := .write, dqpn := 9, psn := 5 } { rtsQp with ctx := { rtsQp.ctx with nakSent := true } }).modCtx 9 (fun c => { c with lastUse := 0 }); let seen : Seen := []; let x : RxPkt := rxOf { kind := .write, dqpn := 9, psn := 5 }; let xs : List RxPkt := []; let p : TPkt := { kind := .write, dqpn := 9, psn := 5 }; let y : Qp := { rtsQp with ctx := { rtsQp.ctx with nakSent := true } }; (TakesPacket (s.see seen) x xs p y w ∧ p.row = .write) ∧ (decide (psnSub p.psn y.ctx.epsn ≠ 0) && decide (psnSub p.psn y.ctx.epsn < 2 ^ 23) && decide (y.ctx.nakSent = true)) = true)
    ∧ (let s : State := receiving { kind := .write, dqpn := 9, psn := 5 } rtsQp; let w : State := (received { kind := .write, dqpn := 9, psn := 5 } rtsQp).modCtx 9 (fun c => { c with lastUse := 0 }); let seen : Seen := []; let x : RxPkt := rxOf { kind := .write, dqpn := 9, psn := 5 }; let xs : List RxPkt := []; let p : TPkt := { kind := .write, dqpn := 9, psn := 5 }; let y : Qp := rtsQp; (TakesPacket (s.see seen) x xs p y w ∧ p.row = .write) ∧ (decide (psnSub p.psn y.ctx.epsn ≠ 0) && decide (psnSub p.psn y.ctx.epsn < 2 ^ 23) && decide (y.ctx.nakSent = false)) = true)
    ∧ (let s : State := receiving { kind := .write, dqpn := 9, cid := 9 } rtsQp; let w : State := (received { kind := .write, dqpn := 9, cid := 9 } rtsQp).modCtx 9 (fun c => { c with lastUse := 0 }); let seen : Seen := []; let x : RxPkt := rxOf { kind := .write, dqpn := 9, cid := 9 }; let xs : List RxPkt := []; let p : TPkt := { kind := .write, dqpn := 9, cid := 9 }; let y : Qp := rtsQp; (TakesPacket (s.see seen) x xs p y w ∧ p.row = .write) ∧ (decide (psnSub p.psn y.ctx.epsn = 0) && decide (p.roce = false) && decide (p.cid ≠ y.ctx.cid)) = true)
    ∧ (let s : State := receiving { kind := .write, dqpn := 9 } { rtsQp with ctx := { rtsQp.ctx with epsn := 2 } }; let w : State := (received { kind := .write, dqpn := 9 } { rtsQp with ctx := { rtsQp.ctx with epsn := 2 } }).modCtx 9 (fun c => { c with lastUse := 0 }); let seen : Seen := []; let x : RxPkt := rxOf { kind := .write, dqpn := 9 }; let xs : List RxPkt := []; let p : TPkt := { kind := .write, dqpn := 9 }; let y : Qp := { rtsQp with ctx := { rtsQp.ctx with epsn := 2 } }; (TakesPacket (s.see seen) x xs p y w ∧ p.row = .write) ∧ (decide (2 ^ 23 ≤ psnSub p.psn y.ctx.epsn)) = true)
    ∧ (let s : State := windowed (receiving { kind := .write, dqpn := 9, cid := 1024, payload := [1, 2], key := 20481, addr := 0x1FFF, len := 2 } rtsQp); let w : State := (windowed (received { kind := .write, dqpn := 9, cid := 1024, payload := [1, 2], key := 20481, addr := 0x1FFF, len := 2 } rtsQp)).modCtx 9 (fun c => { c with lastUse := 0 }); let seen : Seen := []; let x : RxPkt := rxOf { kind := .write, dqpn := 9, cid := 1024, payload := [1, 2], key := 20481, addr := 0x1FFF, len := 2 }; let xs : List RxPkt := []; let p : TPkt := { kind := .write, dqpn := 9, cid := 1024, payload := [1, 2], key := 20481, addr := 0x1FFF, len := 2 }; let y : Qp := rtsQp; let key : Nat := 20481; let addr : Nat := 0x1FFF; let len : Nat := 2; (TakesPacket (s.see seen) x xs p y w ∧ p.row = .write) ∧ (psnSub p.psn y.ctx.epsn = 0 ∧ (p.roce = true ∨ p.cid = y.ctx.cid)) ∧ (key = (if p.hasRae then p.key else y.ctx.curKey) ∧ addr = (if p.hasRae then p.addr else y.ctx.curAddr) ∧ len = (if p.hasRae then p.len else p.payload.length)) ∧ ((match w.winCheck y.ctx.cid key .write addr len with | some (code) => true | _ => false)) = true)
    ∧ (let s : State := windowed (receiving { kind := .write, dqpn := 9, cid := 1024, payload := [1, 2], key := 20481, addr := 0x1000, len := 2, tag := some 5 } rtsQp); let w : State := (windowed (received { kind := .write, dqpn := 9, cid := 1024, payload := [1, 2], key := 20481, addr := 0x1000, len := 2, tag := some 5 } rtsQp)).modCtx 9 (fun c => { c with lastUse := 0 }); let seen : Seen := []; let x : RxPkt := rxOf { kind := .write, dqpn := 9, cid := 1024, payload := [1, 2], key := 20481, addr := 0x1000, len := 2, tag := some 5 }; let xs : List RxPkt := []; let p : TPkt := { kind := .write, dqpn := 9, cid := 1024, payload := [1, 2], key := 20481, addr := 0x1000, len := 2, tag := some 5 }; let y : Qp := rtsQp; let key : Nat := 20481; let addr : Nat := 0x1000; let len : Nat := 2; (TakesPacket (s.see seen) x xs p y w ∧ p.row = .write) ∧ (psnSub p.psn y.ctx.epsn = 0 ∧ (p.roce = true ∨ p.cid = y.ctx.cid)) ∧ (key = (if p.hasRae then p.key else y.ctx.curKey) ∧ addr = (if p.hasRae then p.addr else y.ctx.curAddr) ∧ len = (if p.hasRae then p.len else p.payload.length)) ∧ (decide (w.winCheck y.ctx.cid key .write addr len = none) && decide ((match p.tag with | some g => !w.tagOk (cidPart y.ctx.cid) g | none => false) = true)) = true)
    ∧ (let s : State := windowed (receiving { kind := .write, dqpn := 9, cid := 1024, payload := [1, 2], key := 20481, addr := 0x1000, len := 2, imm := some 5 } rtsQp); let w : State := (windowed (received { kind := .write, dqpn := 9, cid := 1024, payload := [1, 2], key := 20481, addr := 0x1000, len := 2, imm := some 5 } rtsQp)).modCtx 9 (fun c => { c with lastUse := 0 }); let seen : Seen := []; let x : RxPkt := rxOf { kind := .write, dqpn := 9, cid := 1024, payload := [1, 2], key := 20481, addr := 0x1000, len := 2, imm := some 5 }; let xs : List RxPkt := []; let p : TPkt := { kind := .write, dqpn := 9, cid := 1024, payload := [1, 2], key := 20481, addr := 0x1000, len := 2, imm := some 5 }; let y : Qp := rtsQp; let key : Nat := 20481; let addr : Nat := 0x1000; let len : Nat := 2; (TakesPacket (s.see seen) x xs p y w ∧ p.row = .write) ∧ (psnSub p.psn y.ctx.epsn = 0 ∧ (p.roce = true ∨ p.cid = y.ctx.cid)) ∧ (key = (if p.hasRae then p.key else y.ctx.curKey) ∧ addr = (if p.hasRae then p.addr else y.ctx.curAddr) ∧ len = (if p.hasRae then p.len else p.payload.length)) ∧ (decide (w.winCheck y.ctx.cid key .write addr len = none) && decide ((match p.tag with | some g => !w.tagOk (cidPart y.ctx.cid) g | none => false) = false) && decide (p.imm.isSome = true) && decide (w.recvEntry? y.ctx = none)) = true)
    ∧ (let s : State := windowed (receiving { kind := .write, dqpn := 9, cid := 1024, payload := [1, 2], key := 20481, addr := 0x1000, len := 2 } rtsQp); let w : State := (windowed (received { kind := .write, dqpn := 9, cid := 1024, payload := [1, 2], key := 20481, addr := 0x1000, len := 2 } rtsQp)).modCtx 9 (fun c => { c with lastUse := 0 }); let seen : Seen := []; let x : RxPkt := rxOf { kind := .write, dqpn := 9, cid := 1024, payload := [1, 2], key := 20481, addr := 0x1000, len := 2 }; let xs : List RxPkt := []; let p : TPkt := { kind := .write, dqpn := 9, cid := 1024, payload := [1, 2], key := 20481, addr := 0x1000, len := 2 }; let y : Qp := rtsQp; let z : State := (((windowed (received { kind := .write, dqpn := 9, cid := 1024, payload := [1, 2], key := 20481, addr := 0x1000, len := 2 } rtsQp)).modCtx 9 (fun c => { c with lastUse := 0 })).memWriteC 1024 0 0x1000 [1, 2]).1; let key : Nat := 20481; let addr : Nat := 0x1000; let len : Nat := 2; let r : Except MemErr Unit := .ok (); (TakesPacket (s.see seen) x xs p y w ∧ p.row = .write) ∧ (psnSub p.psn y.ctx.epsn = 0 ∧ (p.roce = true ∨ p.cid = y.ctx.cid)) ∧ (key = (if p.hasRae then p.key else y.ctx.curKey) ∧ addr = (if p.hasRae then p.addr else y.ctx.curAddr) ∧ len = (if p.hasRae then p.len else p.payload.length)) ∧ (w.winCheck y.ctx.cid key .write addr len = none ∧ (match p.tag with | some g => !w.tagOk (cidPart y.ctx.cid) g | none => false) = false ∧ p.imm = none ∧ w.memWriteC y.ctx.cid (w.win (key / 4096)).space addr p.payload = (z, r)) ∧ (decide (r = .ok ())) = true)
    ∧ (let s : State := (windowed (receiving { kind := .write, dqpn := 9, cid := 1024, payload := [1, 2], key := 20481, addr := 0x1000, len := 2 } rtsQp)).put (Reg.PART_HOST_STS.LOST 0) 1; let w : State := ((windowed (received { kind := .write, dqpn := 9, cid := 1024, payload := [1, 2], key := 20481, addr := 0x1000, len := 2 } rtsQp)).put (Reg.PART_HOST_STS.LOST 0) 1).modCtx 9 (fun c => { c with lastUse := 0 }); let seen : Seen := []; let x : RxPkt := rxOf { kind := .write, dqpn := 9, cid := 1024, payload := [1, 2], key := 20481, addr := 0x1000, len := 2 }; let xs : List RxPkt := []; let p : TPkt := { kind := .write, dqpn := 9, cid := 1024, payload := [1, 2], key := 20481, addr := 0x1000, len := 2 }; let y : Qp := rtsQp; let z : State := (((windowed (received { kind := .write, dqpn := 9, cid := 1024, payload := [1, 2], key := 20481, addr := 0x1000, len := 2 } rtsQp)).put (Reg.PART_HOST_STS.LOST 0) 1).modCtx 9 (fun c => { c with lastUse := 0 })); let key : Nat := 20481; let addr : Nat := 0x1000; let len : Nat := 2; let r : Except MemErr Unit := .error .wait; (TakesPacket (s.see seen) x xs p y w ∧ p.row = .write) ∧ (psnSub p.psn y.ctx.epsn = 0 ∧ (p.roce = true ∨ p.cid = y.ctx.cid)) ∧ (key = (if p.hasRae then p.key else y.ctx.curKey) ∧ addr = (if p.hasRae then p.addr else y.ctx.curAddr) ∧ len = (if p.hasRae then p.len else p.payload.length)) ∧ (w.winCheck y.ctx.cid key .write addr len = none ∧ (match p.tag with | some g => !w.tagOk (cidPart y.ctx.cid) g | none => false) = false ∧ p.imm = none ∧ w.memWriteC y.ctx.cid (w.win (key / 4096)).space addr p.payload = (z, r)) ∧ (decide (r = .error .wait)) = true)
    ∧ (let s : State := windowFar (receiving { kind := .write, dqpn := 9, cid := 1024, payload := [1, 2], key := 20481, addr := 0x10000000000, len := 2 } rtsQp); let w : State := (windowFar (received { kind := .write, dqpn := 9, cid := 1024, payload := [1, 2], key := 20481, addr := 0x10000000000, len := 2 } rtsQp)).modCtx 9 (fun c => { c with lastUse := 0 }); let seen : Seen := []; let x : RxPkt := rxOf { kind := .write, dqpn := 9, cid := 1024, payload := [1, 2], key := 20481, addr := 0x10000000000, len := 2 }; let xs : List RxPkt := []; let p : TPkt := { kind := .write, dqpn := 9, cid := 1024, payload := [1, 2], key := 20481, addr := 0x10000000000, len := 2 }; let y : Qp := rtsQp; let z : State := (((windowFar (received { kind := .write, dqpn := 9, cid := 1024, payload := [1, 2], key := 20481, addr := 0x10000000000, len := 2 } rtsQp)).modCtx 9 (fun c => { c with lastUse := 0 })).memWriteC 1024 0 0x10000000000 [1, 2]).1; let key : Nat := 20481; let addr : Nat := 0x10000000000; let len : Nat := 2; let r : Except MemErr Unit := .error .cid; (TakesPacket (s.see seen) x xs p y w ∧ p.row = .write) ∧ (psnSub p.psn y.ctx.epsn = 0 ∧ (p.roce = true ∨ p.cid = y.ctx.cid)) ∧ (key = (if p.hasRae then p.key else y.ctx.curKey) ∧ addr = (if p.hasRae then p.addr else y.ctx.curAddr) ∧ len = (if p.hasRae then p.len else p.payload.length)) ∧ (w.winCheck y.ctx.cid key .write addr len = none ∧ (match p.tag with | some g => !w.tagOk (cidPart y.ctx.cid) g | none => false) = false ∧ p.imm = none ∧ w.memWriteC y.ctx.cid (w.win (key / 4096)).space addr p.payload = (z, r)) ∧ ((match r with | .error e => decide (e ≠ .wait) | _ => false)) = true)
    ∧ (let s : State := ready; let u : State := ready; let seen : Seen := []; (u = s.see seen) ∧ (decide (u.nextPkt = none)) = true)
    ∧ (let s : State := receiving { kind := .send, dqpn := 9 }; let u : State := receiving { kind := .send, dqpn := 9 }; let seen : Seen := []; (u = s.see seen) ∧ ((match u.nextPkt with | some x => (match x.1.decode with | .pkt p => decide (p.row ≠ .readReq) | _ => false) | _ => false)) = true)
    ∧ (let s : State := receiving { kind := .readReq, dqpn := 9 } { rtsQp with place := .spilled }; let u : State := receiving { kind := .readReq, dqpn := 9 } { rtsQp with place := .spilled }; let seen : Seen := []; (u = s.see seen) ∧ ((match u.nextPkt with | some x => (match x.1.decode with | .pkt p => decide (p.row = .readReq) && decide (u.absent p.dqpn = true) | _ => false) | _ => false)) = true)
    ∧ (let s : State := receiving { kind := .readReq, dqpn := 9, psn := 5 } { rtsQp with ctx := { rtsQp.ctx with nakSent := true } }; let w : State := (received { kind := .readReq, dqpn := 9, psn := 5 } { rtsQp with ctx := { rtsQp.ctx with nakSent := true } }).modCtx 9 (fun c => { c with lastUse := 0 }); let seen : Seen := []; let x : RxPkt := rxOf { kind := .readReq, dqpn := 9, psn := 5 }; let xs : List RxPkt := []; let p : TPkt := { kind := .readReq, dqpn := 9, psn := 5 }; let y : Qp := { rtsQp with ctx := { rtsQp.ctx with nakSent := true } }; (TakesPacket (s.see seen) x xs p y w ∧ p.row = .readReq) ∧ (decide (psnSub p.psn y.ctx.epsn ≠ 0) && decide (psnSub p.psn y.ctx.epsn < 2 ^ 23) && decide (y.ctx.nakSent = true)) = true)
    ∧ (let s : State := receiving { kind := .readReq, dqpn := 9, psn := 5 } rtsQp; let w : State := (received { kind := .readReq, dqpn := 9, psn := 5 } rtsQp).modCtx 9 (fun c => { c with lastUse := 0 }); let seen : Seen := []; let x : RxPkt := rxOf { kind := .readReq, dqpn := 9, psn := 5 }; let xs : List RxPkt := []; let p : TPkt := { kind := .readReq, dqpn := 9, psn := 5 }; let y : Qp := rtsQp; (TakesPacket (s.see seen) x xs p y w ∧ p.row = .readReq) ∧ (decide (psnSub p.psn y.ctx.epsn ≠ 0) && decide (psnSub p.psn y.ctx.epsn < 2 ^ 23) && decide (y.ctx.nakSent = false)) = true)
    ∧ (let s : State := receiving { kind := .readReq, dqpn := 9, cid := 9 } rtsQp; let w : State := (received { kind := .readReq, dqpn := 9, cid := 9 } rtsQp).modCtx 9 (fun c => { c with lastUse := 0 }); let seen : Seen := []; let x : RxPkt := rxOf { kind := .readReq, dqpn := 9, cid := 9 }; let xs : List RxPkt := []; let p : TPkt := { kind := .readReq, dqpn := 9, cid := 9 }; let y : Qp := rtsQp; (TakesPacket (s.see seen) x xs p y w ∧ p.row = .readReq) ∧ (decide (psnSub p.psn y.ctx.epsn = 0) && decide (p.roce = false) && decide (p.cid ≠ y.ctx.cid)) = true)
    ∧ (let s : State := receiving { kind := .readReq, dqpn := 9, cid := 9 } { rtsQp with ctx := { rtsQp.ctx with epsn := 2 } }; let w : State := (received { kind := .readReq, dqpn := 9, cid := 9 } { rtsQp with ctx := { rtsQp.ctx with epsn := 2 } }).modCtx 9 (fun c => { c with lastUse := 0 }); let seen : Seen := []; let x : RxPkt := rxOf { kind := .readReq, dqpn := 9, cid := 9 }; let xs : List RxPkt := []; let p : TPkt := { kind := .readReq, dqpn := 9, cid := 9 }; let y : Qp := { rtsQp with ctx := { rtsQp.ctx with epsn := 2 } }; (TakesPacket (s.see seen) x xs p y w ∧ p.row = .readReq) ∧ (decide (2 ^ 23 ≤ psnSub p.psn y.ctx.epsn) && decide (p.roce = false) && decide (p.cid ≠ y.ctx.cid)) = true)
    ∧ (let s : State := windowed (receiving { kind := .readReq, dqpn := 9, cid := 1024, key := 20481, addr := 0x1FFF, len := 2 } rtsQp); let w : State := (windowed (received { kind := .readReq, dqpn := 9, cid := 1024, key := 20481, addr := 0x1FFF, len := 2 } rtsQp)).modCtx 9 (fun c => { c with lastUse := 0 }); let seen : Seen := []; let x : RxPkt := rxOf { kind := .readReq, dqpn := 9, cid := 1024, key := 20481, addr := 0x1FFF, len := 2 }; let xs : List RxPkt := []; let p : TPkt := { kind := .readReq, dqpn := 9, cid := 1024, key := 20481, addr := 0x1FFF, len := 2 }; let y : Qp := rtsQp; (TakesPacket (s.see seen) x xs p y w ∧ p.row = .readReq) ∧ (psnSub p.psn y.ctx.epsn = 0 ∧ (p.roce = true ∨ p.cid = y.ctx.cid)) ∧ ((match w.winCheck y.ctx.cid p.key .read p.addr p.len with | some (code) => true | _ => false)) = true)
    ∧ (let s : State := windowed (receiving { kind := .readReq, dqpn := 9, cid := 1024, key := 20481, addr := 0x1000, len := 0 } rtsQp); let w : State := (windowed (received { kind := .readReq, dqpn := 9, cid := 1024, key := 20481, addr := 0x1000, len := 0 } rtsQp)).modCtx 9 (fun c => { c with lastUse := 0 }); let seen : Seen := []; let x : RxPkt := rxOf { kind := .readReq, dqpn := 9, cid := 1024, key := 20481, addr := 0x1000, len := 0 }; let xs : List RxPkt := []; let p : TPkt := { kind := .readReq, dqpn := 9, cid := 1024, key := 20481, addr := 0x1000, len := 0 }; let y : Qp := rtsQp; (TakesPacket (s.see seen) x xs p y w ∧ p.row = .readReq) ∧ (psnSub p.psn y.ctx.epsn = 0 ∧ (p.roce = true ∨ p.cid = y.ctx.cid)) ∧ (decide (w.winCheck y.ctx.cid p.key .read p.addr p.len = none) && decide (p.len = 0) && decide (p.ackReq = false)) = true)
    ∧ (let s : State := windowed (receiving { kind := .readReq, dqpn := 9, cid := 1024, key := 20481, addr := 0x1000, len := 2 } rtsQp); let w : State := (windowed (received { kind := .readReq, dqpn := 9, cid := 1024, key := 20481, addr := 0x1000, len := 2 } rtsQp)).modCtx 9 (fun c => { c with lastUse := 0 }); let seen : Seen := []; let x : RxPkt := rxOf { kind := .readReq, dqpn := 9, cid := 1024, key := 20481, addr := 0x1000, len := 2 }; let xs : List RxPkt := []; let p : TPkt := { kind := .readReq, dqpn := 9, cid := 1024, key := 20481, addr := 0x1000, len := 2 }; let y : Qp := rtsQp; let z : State := ((windowed (received { kind := .readReq, dqpn := 9, cid := 1024, key := 20481, addr := 0x1000, len := 2 } rtsQp)).modCtx 9 (fun c => { c with lastUse := 0 })); let r : Except MemErr (List Byte) := .ok [0, 0]; (TakesPacket (s.see seen) x xs p y w ∧ p.row = .readReq) ∧ (psnSub p.psn y.ctx.epsn = 0 ∧ (p.roce = true ∨ p.cid = y.ctx.cid)) ∧ (w.winCheck y.ctx.cid p.key .read p.addr p.len = none ∧ p.len ≠ 0 ∧ w.memReadC y.ctx.cid (w.win (p.key / 4096)).space p.addr p.len = (z, r)) ∧ ((match r with | .ok bs => decide (p.ackReq = false) | _ => false)) = true)
    ∧ (let s : State := (windowed (receiving { kind := .readReq, dqpn := 9, cid := 1024, key := 20481, addr := 0x1000, len := 2 } rtsQp)).put (Reg.PART_HOST_STS.LOST 0) 1; let w : State := ((windowed (received { kind := .readReq, dqpn := 9, cid := 1024, key := 20481, addr := 0x1000, len := 2 } rtsQp)).put (Reg.PART_HOST_STS.LOST 0) 1).modCtx 9 (fun c => { c with lastUse := 0 }); let seen : Seen := []; let x : RxPkt := rxOf { kind := .readReq, dqpn := 9, cid := 1024, key := 20481, addr := 0x1000, len := 2 }; let xs : List RxPkt := []; let p : TPkt := { kind := .readReq, dqpn := 9, cid := 1024, key := 20481, addr := 0x1000, len := 2 }; let y : Qp := rtsQp; let z : State := (((windowed (received { kind := .readReq, dqpn := 9, cid := 1024, key := 20481, addr := 0x1000, len := 2 } rtsQp)).put (Reg.PART_HOST_STS.LOST 0) 1).modCtx 9 (fun c => { c with lastUse := 0 })); let r : Except MemErr (List Byte) := .error .wait; (TakesPacket (s.see seen) x xs p y w ∧ p.row = .readReq) ∧ (psnSub p.psn y.ctx.epsn = 0 ∧ (p.roce = true ∨ p.cid = y.ctx.cid)) ∧ (w.winCheck y.ctx.cid p.key .read p.addr p.len = none ∧ p.len ≠ 0 ∧ w.memReadC y.ctx.cid (w.win (p.key / 4096)).space p.addr p.len = (z, r)) ∧ (decide (r = .error .wait)) = true)
    ∧ (let s : State := windowFar (receiving { kind := .readReq, dqpn := 9, cid := 1024, key := 20481, addr := 0x10000000000, len := 2 } rtsQp); let w : State := (windowFar (received { kind := .readReq, dqpn := 9, cid := 1024, key := 20481, addr := 0x10000000000, len := 2 } rtsQp)).modCtx 9 (fun c => { c with lastUse := 0 }); let seen : Seen := []; let x : RxPkt := rxOf { kind := .readReq, dqpn := 9, cid := 1024, key := 20481, addr := 0x10000000000, len := 2 }; let xs : List RxPkt := []; let p : TPkt := { kind := .readReq, dqpn := 9, cid := 1024, key := 20481, addr := 0x10000000000, len := 2 }; let y : Qp := rtsQp; let z : State := (((windowFar (received { kind := .readReq, dqpn := 9, cid := 1024, key := 20481, addr := 0x10000000000, len := 2 } rtsQp)).modCtx 9 (fun c => { c with lastUse := 0 })).memReadC 1024 0 0x10000000000 2).1; let r : Except MemErr (List Byte) := .error .cid; (TakesPacket (s.see seen) x xs p y w ∧ p.row = .readReq) ∧ (psnSub p.psn y.ctx.epsn = 0 ∧ (p.roce = true ∨ p.cid = y.ctx.cid)) ∧ (w.winCheck y.ctx.cid p.key .read p.addr p.len = none ∧ p.len ≠ 0 ∧ w.memReadC y.ctx.cid (w.win (p.key / 4096)).space p.addr p.len = (z, r)) ∧ ((match r with | .error e => decide (e ≠ .wait) | _ => false)) = true)
    ∧ (let s : State := windowed (receiving { kind := .readReq, dqpn := 9, cid := 1024, key := 20481, addr := 0x1000, len := 2, ackReq := true } rtsQp); let w : State := (windowed (received { kind := .readReq, dqpn := 9, cid := 1024, key := 20481, addr := 0x1000, len := 2, ackReq := true } rtsQp)).modCtx 9 (fun c => { c with lastUse := 0 }); let seen : Seen := []; let x : RxPkt := rxOf { kind := .readReq, dqpn := 9, cid := 1024, key := 20481, addr := 0x1000, len := 2, ackReq := true }; let xs : List RxPkt := []; let p : TPkt := { kind := .readReq, dqpn := 9, cid := 1024, key := 20481, addr := 0x1000, len := 2, ackReq := true }; let y : Qp := rtsQp; let z : State := ((windowed (received { kind := .readReq, dqpn := 9, cid := 1024, key := 20481, addr := 0x1000, len := 2, ackReq := true } rtsQp)).modCtx 9 (fun c => { c with lastUse := 0 })); let r : Except MemErr (List Byte) := .ok [0, 0]; (TakesPacket (s.see seen) x xs p y w ∧ p.row = .readReq) ∧ (psnSub p.psn y.ctx.epsn = 0 ∧ (p.roce = true ∨ p.cid = y.ctx.cid)) ∧ (w.winCheck y.ctx.cid p.key .read p.addr p.len = none ∧ p.len ≠ 0 ∧ w.memReadC y.ctx.cid (w.win (p.key / 4096)).space p.addr p.len = (z, r)) ∧ ((match r with | .ok bs => decide (p.ackReq = true) | _ => false)) = true)
    ∧ (let s : State := ready; let u : State := ready; let seen : Seen := []; (u = s.see seen) ∧ (decide (u.nextPkt = none)) = true)
    ∧ (let s : State := receiving { kind := .send, dqpn := 9 }; let u : State := receiving { kind := .send, dqpn := 9 }; let seen : Seen := []; (u = s.see seen) ∧ ((match u.nextPkt with | some x => (match x.1.decode with | .pkt p => decide (p.row ≠ .atomic) | _ => false) | _ => false)) = true)
    ∧ (let s : State := receiving { kind := .fetchAdd, dqpn := 9 } { rtsQp with place := .spilled }; let u : State := receiving { kind := .fetchAdd, dqpn := 9 } { rtsQp with place := .spilled }; let seen : Seen := []; (u = s.see seen) ∧ ((match u.nextPkt with | some x => (match x.1.decode with | .pkt p => decide (p.row = .atomic) && decide (u.absent p.dqpn = true) | _ => false) | _ => false)) = true)
    ∧ (let s : State := receiving { kind := .fetchAdd, dqpn := 9, psn := 5 } { rtsQp with ctx := { rtsQp.ctx with nakSent := true } }; let w : State := (received { kind := .fetchAdd, dqpn := 9, psn := 5 } { rtsQp with ctx := { rtsQp.ctx with nakSent := true } }).modCtx 9 (fun c => { c with lastUse := 0 }); let seen : Seen := []; let x : RxPkt := rxOf { kind := .fetchAdd, dqpn := 9, psn := 5 }; let xs : List RxPkt := []; let p : TPkt := { kind := .fetchAdd, dqpn := 9, psn := 5 }; let y : Qp := { rtsQp with ctx := { rtsQp.ctx with nakSent := true } }; (TakesPacket (s.see seen) x xs p y w ∧ p.row = .atomic) ∧ (decide (psnSub p.psn y.ctx.epsn ≠ 0) && decide (psnSub p.psn y.ctx.epsn < 2 ^ 23) && decide (y.ctx.nakSent = true)) = true)
    ∧ (let s : State := receiving { kind := .fetchAdd, dqpn := 9, psn := 5 } rtsQp; let w : State := (received { kind := .fetchAdd, dqpn := 9, psn := 5 } rtsQp).modCtx 9 (fun c => { c with lastUse := 0 }); let seen : Seen := []; let x : RxPkt := rxOf { kind := .fetchAdd, dqpn := 9, psn := 5 }; let xs : List RxPkt := []; let p : TPkt := { kind := .fetchAdd, dqpn := 9, psn := 5 }; let y : Qp := rtsQp; (TakesPacket (s.see seen) x xs p y w ∧ p.row = .atomic) ∧ (decide (psnSub p.psn y.ctx.epsn ≠ 0) && decide (psnSub p.psn y.ctx.epsn < 2 ^ 23) && decide (y.ctx.nakSent = false)) = true)
    ∧ (let s : State := receiving { kind := .fetchAdd, dqpn := 9, cid := 9 } rtsQp; let w : State := (received { kind := .fetchAdd, dqpn := 9, cid := 9 } rtsQp).modCtx 9 (fun c => { c with lastUse := 0 }); let seen : Seen := []; let x : RxPkt := rxOf { kind := .fetchAdd, dqpn := 9, cid := 9 }; let xs : List RxPkt := []; let p : TPkt := { kind := .fetchAdd, dqpn := 9, cid := 9 }; let y : Qp := rtsQp; (TakesPacket (s.see seen) x xs p y w ∧ p.row = .atomic) ∧ (decide (psnSub p.psn y.ctx.epsn = 0) && decide (p.roce = false) && decide (p.cid ≠ y.ctx.cid)) = true)
    ∧ (let s : State := receiving { kind := .fetchAdd, dqpn := 9 } { rtsQp with ctx := { rtsQp.ctx with epsn := 2 } }; let w : State := (received { kind := .fetchAdd, dqpn := 9 } { rtsQp with ctx := { rtsQp.ctx with epsn := 2 } }).modCtx 9 (fun c => { c with lastUse := 0 }); let seen : Seen := []; let x : RxPkt := rxOf { kind := .fetchAdd, dqpn := 9 }; let xs : List RxPkt := []; let p : TPkt := { kind := .fetchAdd, dqpn := 9 }; let y : Qp := { rtsQp with ctx := { rtsQp.ctx with epsn := 2 } }; (TakesPacket (s.see seen) x xs p y w ∧ p.row = .atomic) ∧ (decide (2 ^ 23 ≤ psnSub p.psn y.ctx.epsn) && decide (y.ctx.replay.find? (fun r => r.2.1 == p.psn) = none)) = true)
    ∧ (let s : State := receiving { kind := .fetchAdd, dqpn := 9 } { rtsQp with ctx := { rtsQp.ctx with epsn := 2, replay := [(0, (0, 77))] } }; let w : State := (received { kind := .fetchAdd, dqpn := 9 } { rtsQp with ctx := { rtsQp.ctx with epsn := 2, replay := [(0, (0, 77))] } }).modCtx 9 (fun c => { c with lastUse := 0 }); let seen : Seen := []; let x : RxPkt := rxOf { kind := .fetchAdd, dqpn := 9 }; let xs : List RxPkt := []; let p : TPkt := { kind := .fetchAdd, dqpn := 9 }; let y : Qp := { rtsQp with ctx := { rtsQp.ctx with epsn := 2, replay := [(0, (0, 77))] } }; (TakesPacket (s.see seen) x xs p y w ∧ p.row = .atomic) ∧ (decide (2 ^ 23 ≤ psnSub p.psn y.ctx.epsn) && (match y.ctx.replay.find? (fun r => r.2.1 == p.psn) with | some r => true | _ => false)) = true)
    ∧ (let s : State := windowed (receiving { kind := .fetchAdd, dqpn := 9, cid := 1024, key := 20481, addr := 0x1004, op1 := 3 } rtsQp); let w : State := (windowed (received { kind := .fetchAdd, dqpn := 9, cid := 1024, key := 20481, addr := 0x1004, op1 := 3 } rtsQp)).modCtx 9 (fun c => { c with lastUse := 0 }); let seen : Seen := []; let x : RxPkt := rxOf { kind := .fetchAdd, dqpn := 9, cid := 1024, key := 20481, addr := 0x1004, op1 := 3 }; let xs : List RxPkt := []; let p : TPkt := { kind := .fetchAdd, dqpn := 9, cid := 1024, key := 20481, addr := 0x1004, op1 := 3 }; let y : Qp := rtsQp; (TakesPacket (s.see seen) x xs p y w ∧ p.row = .atomic) ∧ (psnSub p.psn y.ctx.epsn = 0 ∧ (p.roce = true ∨ p.cid = y.ctx.cid)) ∧ ((match w.winCheck y.ctx.cid p.key .atomic p.addr 8 with | some (code) => true | _ => false)) = true)
    ∧ (let s : State := windowed (receiving { kind := .fetchAdd, dqpn := 9, cid := 1024, key := 20481, addr := 0x1000, op1 := 3 } rtsQp); let w : State := (windowed (received { kind := .fetchAdd, dqpn := 9, cid := 1024, key := 20481, addr := 0x1000, op1 := 3 } rtsQp)).modCtx 9 (fun c => { c with lastUse := 0 }); let seen : Seen := []; let x : RxPkt := rxOf { kind := .fetchAdd, dqpn := 9, cid := 1024, key := 20481, addr := 0x1000, op1 := 3 }; let xs : List RxPkt := []; let p : TPkt := { kind := .fetchAdd, dqpn := 9, cid := 1024, key := 20481, addr := 0x1000, op1 := 3 }; let y : Qp := rtsQp; let z : State := ((windowed (received { kind := .fetchAdd, dqpn := 9, cid := 1024, key := 20481, addr := 0x1000, op1 := 3 } rtsQp)).modCtx 9 (fun c => { c with lastUse := 0 })); let z2 : State := (((windowed (received { kind := .fetchAdd, dqpn := 9, cid := 1024, key := 20481, addr := 0x1000, op1 := 3 } rtsQp)).modCtx 9 (fun c => { c with lastUse := 0 })).atomicOn rtsQp.ctx 0 0x1000 { kind := .fetchAdd, dqpn := 9, cid := 1024, key := 20481, addr := 0x1000, op1 := 3 } 0).1; let bs : List Byte := [0, 0, 0, 0, 0, 0, 0, 0]; (TakesPacket (s.see seen) x xs p y w ∧ p.row = .atomic) ∧ (psnSub p.psn y.ctx.epsn = 0 ∧ (p.roce = true ∨ p.cid = y.ctx.cid)) ∧ (w.winCheck y.ctx.cid p.key .atomic p.addr 8 = none ∧ w.memReadC y.ctx.cid (w.win (p.key / 4096)).space p.addr 8 = (z, .ok bs) ∧ z.atomicOn y.ctx (w.win (p.key / 4096)).space p.addr p (leNat bs) = (z2, .ok ())) ∧ (decide (p.ackReq = false)) = true)
    ∧ (let s : State := windowed (receiving { kind := .fetchAdd, dqpn := 9, cid := 1024, key := 20481, addr := 0x1000, op1 := 3, ackReq := true } rtsQp); let w : State := (windowed (received { kind := .fetchAdd, dqpn := 9, cid := 1024, key := 20481, addr := 0x1000, op1 := 3, ackReq := true } rtsQp)).modCtx 9 (fun c => { c with lastUse := 0 }); let seen : Seen := []; let x : RxPkt := rxOf { kind := .fetchAdd, dqpn := 9, cid := 1024, key := 20481, addr := 0x1000, op1 := 3, ackReq := true }; let xs : List RxPkt := []; let p : TPkt := { kind := .fetchAdd, dqpn := 9, cid := 1024, key := 20481, addr := 0x1000, op1 := 3, ackReq := true }; let y : Qp := rtsQp; let z : State := ((windowed (received { kind := .fetchAdd, dqpn := 9, cid := 1024, key := 20481, addr := 0x1000, op1 := 3, ackReq := true } rtsQp)).modCtx 9 (fun c => { c with lastUse := 0 })); let z2 : State := (((windowed (received { kind := .fetchAdd, dqpn := 9, cid := 1024, key := 20481, addr := 0x1000, op1 := 3, ackReq := true } rtsQp)).modCtx 9 (fun c => { c with lastUse := 0 })).atomicOn rtsQp.ctx 0 0x1000 { kind := .fetchAdd, dqpn := 9, cid := 1024, key := 20481, addr := 0x1000, op1 := 3, ackReq := true } 0).1; let bs : List Byte := [0, 0, 0, 0, 0, 0, 0, 0]; (TakesPacket (s.see seen) x xs p y w ∧ p.row = .atomic) ∧ (psnSub p.psn y.ctx.epsn = 0 ∧ (p.roce = true ∨ p.cid = y.ctx.cid)) ∧ (w.winCheck y.ctx.cid p.key .atomic p.addr 8 = none ∧ w.memReadC y.ctx.cid (w.win (p.key / 4096)).space p.addr 8 = (z, .ok bs) ∧ z.atomicOn y.ctx (w.win (p.key / 4096)).space p.addr p (leNat bs) = (z2, .ok ())) ∧ (decide (p.ackReq = true)) = true)
    ∧ (let s : State := ready; let u : State := ready; let seen : Seen := []; (u = s.see seen) ∧ (decide (u.nextPkt = none)) = true)
    ∧ (let s : State := receiving { kind := .send, dqpn := 9 }; let u : State := receiving { kind := .send, dqpn := 9 }; let seen : Seen := []; (u = s.see seen) ∧ ((match u.nextPkt with | some x => (match x.1.decode with | .pkt p => decide (p.row ≠ .resync) | _ => false) | _ => false)) = true)
    ∧ (let s : State := receiving { kind := .resync, dqpn := 9 } { rtsQp with place := .spilled }; let u : State := receiving { kind := .resync, dqpn := 9 } { rtsQp with place := .spilled }; let seen : Seen := []; (u = s.see seen) ∧ ((match u.nextPkt with | some x => (match x.1.decode with | .pkt p => decide (p.row = .resync) && decide (u.absent p.dqpn = true) | _ => false) | _ => false)) = true)
    ∧ (let s : State := receiving { kind := .resync, dqpn := 9, psn := 44 } rtsQp; let w : State := (received { kind := .resync, dqpn := 9, psn := 44 } rtsQp).modCtx 9 (fun c => { c with lastUse := 0 }); let seen : Seen := []; let x : RxPkt := rxOf { kind := .resync, dqpn := 9, psn := 44 }; let xs : List RxPkt := []; let p : TPkt := { kind := .resync, dqpn := 9, psn := 44 }; let y : Qp := rtsQp; (TakesPacket (s.see seen) x xs p y w ∧ p.row = .resync)) := by
  refine ⟨?_, ?_, ?_, ?_, ?_, ?_, ?_, ?_, ?_, ?_, ?_, ?_, ?_, ?_, ?_, ?_, ?_, ?_, ?_, ?_, ?_, ?_, ?_, ?_, ?_, ?_, ?_, ?_, ?_, ?_, ?_, ?_, ?_, ?_, ?_, ?_, ?_, ?_, ?_, ?_, ?_, ?_, ?_, ?_, ?_, ?_, ?_, ?_, ?_, ?_, ?_, ?_, ?_, ?_⟩ <;> decide +kernel

/-- States and operands that meet the hypotheses of AnswerPackets. -/
theorem witness_AnswerPackets :
    (let s : State := ready; let u : State := ready; let seen : Seen := []; (u = s.see seen) ∧ (decide (u.nextPkt = none)) = true)
    ∧ (let s : State := receiving { kind := .send, dqpn := 9 }; let u : State := receiving { kind := .send, dqpn := 9 }; let seen : Seen := []; (u = s.see seen) ∧ ((match u.nextPkt with | some x => (match x.1.decode with | .pkt p => decide (p.row ≠ .ack) | _ => false) | _ => false)) = true)
    ∧ (let s : State := receiving { kind := .ack, dqpn := 9 } { rtsQp with place := .spilled }; let u : State := receiving { kind := .ack, dqpn := 9 } { rtsQp with place := .spilled }; let seen : Seen := []; (u = s.see seen) ∧ ((match u.nextPkt with | some x => (match x.1.decode with | .pkt p => decide (p.row = .ack) && decide (u.absent p.dqpn = true) | _ => false) | _ => false)) = true)
    ∧ (let s : State := receiving { kind := .ack, dqpn := 9 } rtsQp; let w : State := (received { kind := .ack, dqpn := 9 } rtsQp).modCtx 9 (fun c => { c with lastUse := 0 }); let seen : Seen := []; let x : RxPkt := rxOf { kind := .ack, dqpn := 9 }; let xs : List RxPkt := []; let p : TPkt := { kind := .ack, dqpn := 9 }; let y : Qp := rtsQp; (TakesPacket (s.see seen) x xs p y w ∧ p.row = .ack) ∧ (decide (psnSub y.ctx.sqPsn y.ctx.unaPsn ≤ psnSub p.psn y.ctx.unaPsn) && decide (y.ctx.resyncPend = false)) = true)
    ∧ (let s : State := ready; let u : State := ready; let seen : Seen := []; (u = s.see seen) ∧ (decide (u.nextPkt = none)) = true)
    ∧ (let s : State := receiving { kind := .send, dqpn := 9 }; let u : State := receiving { kind := .send, dqpn := 9 }; let seen : Seen := []; (u = s.see seen) ∧ ((match u.nextPkt with | some x => (match x.1.decode with | .pkt p => decide (p.row ≠ .nak) | _ => false) | _ => false)) = true)
    ∧ (let s : State := receiving { kind := .ack, dqpn := 9, kindSyn := 3 } { rtsQp with place := .spilled }; let u : State := receiving { kind := .ack, dqpn := 9, kindSyn := 3 } { rtsQp with place := .spilled }; let seen : Seen := []; (u = s.see seen) ∧ ((match u.nextPkt with | some x => (match x.1.decode with | .pkt p => decide (p.row = .nak) && decide (u.absent p.dqpn = true) | _ => false) | _ => false)) = true)
    ∧ (let s : State := receiving { kind := .ack, dqpn := 9, kindSyn := 3 } rtsQp; let w : State := (received { kind := .ack, dqpn := 9, kindSyn := 3 } rtsQp).modCtx 9 (fun c => { c with lastUse := 0 }); let seen : Seen := []; let x : RxPkt := rxOf { kind := .ack, dqpn := 9, kindSyn := 3 }; let xs : List RxPkt := []; let p : TPkt := { kind := .ack, dqpn := 9, kindSyn := 3 }; let y : Qp := rtsQp; (TakesPacket (s.see seen) x xs p y w ∧ p.row = .nak))
    ∧ (let s : State := receiving { kind := .ack, dqpn := 9, kindSyn := 3, psn := 5 } rtsQp; let w : State := (received { kind := .ack, dqpn := 9, kindSyn := 3, psn := 5 } rtsQp).modCtx 9 (fun c => { c with lastUse := 0 }); let seen : Seen := []; let x : RxPkt := rxOf { kind := .ack, dqpn := 9, kindSyn := 3, psn := 5 }; let xs : List RxPkt := []; let p : TPkt := { kind := .ack, dqpn := 9, kindSyn := 3, psn := 5 }; let y : Qp := rtsQp; (TakesPacket (s.see seen) x xs p y w ∧ p.row = .nak) ∧ (decide (y.ctx.current p.psn = false)) = true)
    ∧ (let s : State := ready; let u : State := ready; let seen : Seen := []; (u = s.see seen) ∧ (decide (u.nextPkt = none)) = true)
    ∧ (let s : State := receiving { kind := .send, dqpn := 9 }; let u : State := receiving { kind := .send, dqpn := 9 }; let seen : Seen := []; (u = s.see seen) ∧ ((match u.nextPkt with | some x => (match x.1.decode with | .pkt p => decide (p.row ≠ .rnrNak) | _ => false) | _ => false)) = true)
    ∧ (let s : State := receiving { kind := .ack, dqpn := 9, kindSyn := 1 } { rtsQp with place := .spilled }; let u : State := receiving { kind := .ack, dqpn := 9, kindSyn := 1 } { rtsQp with place := .spilled }; let seen : Seen := []; (u = s.see seen) ∧ ((match u.nextPkt with | some x => (match x.1.decode with | .pkt p => decide (p.row = .rnrNak) && decide (u.absent p.dqpn = true) | _ => false) | _ => false)) = true)
    ∧ (let s : State := receiving { kind := .ack, dqpn := 9, kindSyn := 1 } rtsQp; let w : State := (received { kind := .ack, dqpn := 9, kindSyn := 1 } rtsQp).modCtx 9 (fun c => { c with lastUse := 0 }); let seen : Seen := []; let x : RxPkt := rxOf { kind := .ack, dqpn := 9, kindSyn := 1 }; let xs : List RxPkt := []; let p : TPkt := { kind := .ack, dqpn := 9, kindSyn := 1 }; let y : Qp := rtsQp; (TakesPacket (s.see seen) x xs p y w ∧ p.row = .rnrNak))
    ∧ (let s : State := receiving { kind := .ack, dqpn := 9, kindSyn := 1, psn := 5 } rtsQp; let w : State := (received { kind := .ack, dqpn := 9, kindSyn := 1, psn := 5 } rtsQp).modCtx 9 (fun c => { c with lastUse := 0 }); let seen : Seen := []; let x : RxPkt := rxOf { kind := .ack, dqpn := 9, kindSyn := 1, psn := 5 }; let xs : List RxPkt := []; let p : TPkt := { kind := .ack, dqpn := 9, kindSyn := 1, psn := 5 }; let y : Qp := rtsQp; (TakesPacket (s.see seen) x xs p y w ∧ p.row = .rnrNak) ∧ (decide (y.ctx.current p.psn = false)) = true)
    ∧ (let s : State := ready; let u : State := ready; let seen : Seen := []; (u = s.see seen) ∧ (decide (u.nextPkt = none)) = true)
    ∧ (let s : State := receiving { kind := .send, dqpn := 9 }; let u : State := receiving { kind := .send, dqpn := 9 }; let seen : Seen := []; (u = s.see seen) ∧ ((match u.nextPkt with | some x => (match x.1.decode with | .pkt p => decide (p.row ≠ .visAck) | _ => false) | _ => false)) = true)
    ∧ (let s : State := receiving { kind := .visAck, dqpn := 9 } { rtsQp with place := .spilled }; let u : State := receiving { kind := .visAck, dqpn := 9 } { rtsQp with place := .spilled }; let seen : Seen := []; (u = s.see seen) ∧ ((match u.nextPkt with | some x => (match x.1.decode with | .pkt p => decide (p.row = .visAck) && decide (u.absent p.dqpn = true) | _ => false) | _ => false)) = true)
    ∧ (let s : State := receiving { kind := .visAck, dqpn := 9 } rtsQp; let w : State := (received { kind := .visAck, dqpn := 9 } rtsQp).modCtx 9 (fun c => { c with lastUse := 0 }); let seen : Seen := []; let x : RxPkt := rxOf { kind := .visAck, dqpn := 9 }; let xs : List RxPkt := []; let p : TPkt := { kind := .visAck, dqpn := 9 }; let y : Qp := rtsQp; (TakesPacket (s.see seen) x xs p y w ∧ p.row = .visAck))
    ∧ (let s : State := receiving { kind := .visAck, dqpn := 9 } { rtsQp with ctx := { rtsQp.ctx with sq := 99 } }; let w : State := (received { kind := .visAck, dqpn := 9 } { rtsQp with ctx := { rtsQp.ctx with sq := 99 } }).modCtx 9 (fun c => { c with lastUse := 0 }); let seen : Seen := []; let x : RxPkt := rxOf { kind := .visAck, dqpn := 9 }; let xs : List RxPkt := []; let p : TPkt := { kind := .visAck, dqpn := 9 }; let y : Qp := { rtsQp with ctx := { rtsQp.ctx with sq := 99 } }; (TakesPacket (s.see seen) x xs p y w ∧ p.row = .visAck) ∧ (decide (w.queue? y.ctx.sq = none) && decide ((w.txLives y.ctx) = [])) = true)
    ∧ (let s : State := ready; let u : State := ready; let seen : Seen := []; (u = s.see seen) ∧ (decide (u.nextPkt = none)) = true)
    ∧ (let s : State := receiving { kind := .send, dqpn := 9 }; let u : State := receiving { kind := .send, dqpn := 9 }; let seen : Seen := []; (u = s.see seen) ∧ ((match u.nextPkt with | some x => (match x.1.decode with | .pkt p => decide (p.row ≠ .readResp) | _ => false) | _ => false)) = true)
    ∧ (let s : State := receiving { kind := .readResp, dqpn := 9 } { rtsQp with place := .spilled }; let u : State := receiving { kind := .readResp, dqpn := 9 } { rtsQp with place := .spilled }; let seen : Seen := []; (u = s.see seen) ∧ ((match u.nextPkt with | some x => (match x.1.decode with | .pkt p => decide (p.row = .readResp) && decide (u.absent p.dqpn = true) | _ => false) | _ => false)) = true)
    ∧ (let s : State := receiving { kind := .readResp, dqpn := 9, payload := [1, 2] } rtsQp; let w : State := (received { kind := .readResp, dqpn := 9, payload := [1, 2] } rtsQp).modCtx 9 (fun c => { c with lastUse := 0 }); let seen : Seen := []; let x : RxPkt := rxOf { kind := .readResp, dqpn := 9, payload := [1, 2] }; let xs : List RxPkt := []; let p : TPkt := { kind := .readResp, dqpn := 9, payload := [1, 2] }; let y : Qp := rtsQp; (TakesPacket (s.see seen) x xs p y w ∧ p.row = .readResp) ∧ (decide (w.liveAt y.ctx p.psn = none)) = true)
    ∧ (let s : State := receiving { kind := .readResp, dqpn := 9, payload := [1, 2] } rtsQp { live := [sentLive 6 8] }; let w : State := (received { kind := .readResp, dqpn := 9, payload := [1, 2] } rtsQp { live := [sentLive 6 8] }).modCtx 9 (fun c => { c with lastUse := 0 }); let seen : Seen := []; let x : RxPkt := rxOf { kind := .readResp, dqpn := 9, payload := [1, 2] }; let xs : List RxPkt := []; let p : TPkt := { kind := .readResp, dqpn := 9, payload := [1, 2] }; let y : Qp := rtsQp; (TakesPacket (s.see seen) x xs p y w ∧ p.row = .readResp) ∧ ((match w.liveAt y.ctx p.psn with | some l => decide (l.awaits y.ctx ≠ some p.psn ∨ 6 ≤ l.opcode) | _ => false)) = true)
    ∧ (let s : State := receiving { kind := .readResp, dqpn := 9, payload := [1, 2] } rtsQp { live := [sentLive 5 2] }; let w : State := (received { kind := .readResp, dqpn := 9, payload := [1, 2] } rtsQp { live := [sentLive 5 2] }).modCtx 9 (fun c => { c with lastUse := 0 }); let seen : Seen := []; let x : RxPkt := rxOf { kind := .readResp, dqpn := 9, payload := [1, 2] }; let xs : List RxPkt := []; let p : TPkt := { kind := .readResp, dqpn := 9, payload := [1, 2] }; let y : Qp := rtsQp; let z : State := (((received { kind := .readResp, dqpn := 9, payload := [1, 2] } rtsQp { live := [sentLive 5 2] }).modCtx 9 (fun c => { c with lastUse := 0 })).placeTile 1024 (sentLive 5 2).buf 0 [1, 2] 6 0 { engine := 3, write := true, qpn := some 9, unit := homeBank 9 }).1; let l : Live := sentLive 5 2; let r : BufRes Unit := .ok (); (TakesPacket (s.see seen) x xs p y w ∧ p.row = .readResp) ∧ (w.liveAt y.ctx p.psn = some l ∧ l.awaits y.ctx = some p.psn ∧ l.coll = none ∧ l.opcode ≤ 5 ∧ (if l.opcode = 5 then min y.ctx.mtu (l.len - l.got) else 0) = p.payload.length ∧ p.payload ≠ []) ∧ (w.placeTile y.ctx.cid l.buf l.got p.payload y.ctx.sq l.pos { engine := 3, write := true, qpn := some p.dqpn, unit := homeBank p.dqpn } = (z, r)) ∧ (decide (r = .ok ())) = true)
    ∧ (let s : State := (receiving { kind := .readResp, dqpn := 9, payload := [1, 2] } rtsQp { live := [sentLive 5 2] }).put (Reg.PART_HOST_STS.LOST 0) 1; let w : State := ((received { kind := .readResp, dqpn := 9, payload := [1, 2] } rtsQp { live := [sentLive 5 2] }).put (Reg.PART_HOST_STS.LOST 0) 1).modCtx 9 (fun c => { c with lastUse := 0 }); let seen : Seen := []; let x : RxPkt := rxOf { kind := .readResp, dqpn := 9, payload := [1, 2] }; let xs : List RxPkt := []; let p : TPkt := { kind := .readResp, dqpn := 9, payload := [1, 2] }; let y : Qp := rtsQp; let z : State := ((((received { kind := .readResp, dqpn := 9, payload := [1, 2] } rtsQp { live := [sentLive 5 2] }).put (Reg.PART_HOST_STS.LOST 0) 1).modCtx 9 (fun c => { c with lastUse := 0 })).placeTile 1024 (sentLive 5 2).buf 0 [1, 2] 6 0 { engine := 3, write := true, qpn := some 9, unit := homeBank 9 }).1; let l : Live := sentLive 5 2; let r : BufRes Unit := .err .wait; (TakesPacket (s.see seen) x xs p y w ∧ p.row = .readResp) ∧ (w.liveAt y.ctx p.psn = some l ∧ l.awaits y.ctx = some p.psn ∧ l.coll = none ∧ l.opcode ≤ 5 ∧ (if l.opcode = 5 then min y.ctx.mtu (l.len - l.got) else 0) = p.payload.length ∧ p.payload ≠ []) ∧ (w.placeTile y.ctx.cid l.buf l.got p.payload y.ctx.sq l.pos { engine := 3, write := true, qpn := some p.dqpn, unit := homeBank p.dqpn } = (z, r)) ∧ (decide (r = .err .wait)) = true)
    ∧ (let s : State := receiving { kind := .readResp, dqpn := 9, payload := [1, 2] } rtsQp { live := [{ sentLive 5 2 with bytes := List.replicate 32 0 ++ leBytes 8 0x10000000000 ++ List.replicate 24 0 }] }; let w : State := (received { kind := .readResp, dqpn := 9, payload := [1, 2] } rtsQp { live := [{ sentLive 5 2 with bytes := List.replicate 32 0 ++ leBytes 8 0x10000000000 ++ List.replicate 24 0 }] }).modCtx 9 (fun c => { c with lastUse := 0 }); let seen : Seen := []; let x : RxPkt := rxOf { kind := .readResp, dqpn := 9, payload := [1, 2] }; let xs : List RxPkt := []; let p : TPkt := { kind := .readResp, dqpn := 9, payload := [1, 2] }; let y : Qp := rtsQp; let z : State := (((received { kind := .readResp, dqpn := 9, payload := [1, 2] } rtsQp { live := [{ sentLive 5 2 with bytes := List.replicate 32 0 ++ leBytes 8 0x10000000000 ++ List.replicate 24 0 }] }).modCtx 9 (fun c => { c with lastUse := 0 })).placeTile 1024 { space := 0, addr := 0x10000000000, indirect := false } 0 [1, 2] 6 0 { engine := 3, write := true, qpn := some 9, unit := homeBank 9 }).1; let l : Live := { sentLive 5 2 with bytes := List.replicate 32 0 ++ leBytes 8 0x10000000000 ++ List.replicate 24 0 }; let r : BufRes Unit := .err .cid; (TakesPacket (s.see seen) x xs p y w ∧ p.row = .readResp) ∧ (w.liveAt y.ctx p.psn = some l ∧ l.awaits y.ctx = some p.psn ∧ l.coll = none ∧ l.opcode ≤ 5 ∧ (if l.opcode = 5 then min y.ctx.mtu (l.len - l.got) else 0) = p.payload.length ∧ p.payload ≠ []) ∧ (w.placeTile y.ctx.cid l.buf l.got p.payload y.ctx.sq l.pos { engine := 3, write := true, qpn := some p.dqpn, unit := homeBank p.dqpn } = (z, r)) ∧ ((match r with | .err e => decide (e ≠ .wait) | _ => false)) = true)
    ∧ (let s : State := ready; let u : State := ready; let seen : Seen := []; (u = s.see seen) ∧ (decide (u.nextPkt = none)) = true)
    ∧ (let s : State := receiving { kind := .send, dqpn := 9 }; let u : State := receiving { kind := .send, dqpn := 9 }; let seen : Seen := []; (u = s.see seen) ∧ ((match u.nextPkt with | some x => (match x.1.decode with | .pkt p => decide (p.row ≠ .atomicAck) | _ => false) | _ => false)) = true)
    ∧ (let s : State := receiving { kind := .atomicAck, dqpn := 9 } { rtsQp with place := .spilled }; let u : State := receiving { kind := .atomicAck, dqpn := 9 } { rtsQp with place := .spilled }; let seen : Seen := []; (u = s.see seen) ∧ ((match u.nextPkt with | some x => (match x.1.decode with | .pkt p => decide (p.row = .atomicAck) && decide (u.absent p.dqpn = true) | _ => false) | _ => false)) = true)
    ∧ (let s : State := receiving { kind := .atomicAck, dqpn := 9 } rtsQp; let w : State := (received { kind := .atomicAck, dqpn := 9 } rtsQp).modCtx 9 (fun c => { c with lastUse := 0 }); let seen : Seen := []; let x : RxPkt := rxOf { kind := .atomicAck, dqpn := 9 }; let xs : List RxPkt := []; let p : TPkt := { kind := .atomicAck, dqpn := 9 }; let y : Qp := rtsQp; (TakesPacket (s.see seen) x xs p y w ∧ p.row = .atomicAck) ∧ (decide (w.liveAt y.ctx p.psn = none)) = true)
    ∧ (let s : State := receiving { kind := .atomicAck, dqpn := 9 } rtsQp { live := [sentLive 5 2] }; let w : State := (received { kind := .atomicAck, dqpn := 9 } rtsQp { live := [sentLive 5 2] }).modCtx 9 (fun c => { c with lastUse := 0 }); let seen : Seen := []; let x : RxPkt := rxOf { kind := .atomicAck, dqpn := 9 }; let xs : List RxPkt := []; let p : TPkt := { kind := .atomicAck, dqpn := 9 }; let y : Qp := rtsQp; (TakesPacket (s.see seen) x xs p y w ∧ p.row = .atomicAck) ∧ ((match w.liveAt y.ctx p.psn with | some l => decide (l.awaits y.ctx ≠ some p.psn ∨ l.opcode < 6) | _ => false)) = true)
    ∧ (let s : State := receiving { kind := .atomicAck, dqpn := 9 } rtsQp { live := [sentLive 6 8] }; let w : State := (received { kind := .atomicAck, dqpn := 9 } rtsQp { live := [sentLive 6 8] }).modCtx 9 (fun c => { c with lastUse := 0 }); let seen : Seen := []; let x : RxPkt := rxOf { kind := .atomicAck, dqpn := 9 }; let xs : List RxPkt := []; let p : TPkt := { kind := .atomicAck, dqpn := 9 }; let y : Qp := rtsQp; let z : State := (((received { kind := .atomicAck, dqpn := 9 } rtsQp { live := [sentLive 6 8] }).modCtx 9 (fun c => { c with lastUse := 0 })).placeTile 1024 (sentLive 6 8).buf 0 (leBytes 8 0) 6 0 { engine := 5, write := true, qpn := some 9, unit := homeBank 9 }).1; let l : Live := sentLive 6 8; let r : BufRes Unit := .ok (); (TakesPacket (s.see seen) x xs p y w ∧ p.row = .atomicAck) ∧ (w.liveAt y.ctx p.psn = some l ∧ l.awaits y.ctx = some p.psn ∧ l.coll = none ∧ 6 ≤ l.opcode) ∧ (w.placeTile y.ctx.cid l.buf 0 (leBytes 8 p.orig) y.ctx.sq l.pos { engine := 5, write := true, qpn := some p.dqpn, unit := homeBank p.dqpn } = (z, r)) ∧ (decide (r = .ok ())) = true)
    ∧ (let s : State := (receiving { kind := .atomicAck, dqpn := 9 } rtsQp { live := [sentLive 6 8] }).put (Reg.PART_HOST_STS.LOST 0) 1; let w : State := ((received { kind := .atomicAck, dqpn := 9 } rtsQp { live := [sentLive 6 8] }).put (Reg.PART_HOST_STS.LOST 0) 1).modCtx 9 (fun c => { c with lastUse := 0 }); let seen : Seen := []; let x : RxPkt := rxOf { kind := .atomicAck, dqpn := 9 }; let xs : List RxPkt := []; let p : TPkt := { kind := .atomicAck, dqpn := 9 }; let y : Qp := rtsQp; let z : State := ((((received { kind := .atomicAck, dqpn := 9 } rtsQp { live := [sentLive 6 8] }).put (Reg.PART_HOST_STS.LOST 0) 1).modCtx 9 (fun c => { c with lastUse := 0 })).placeTile 1024 (sentLive 6 8).buf 0 (leBytes 8 0) 6 0 { engine := 5, write := true, qpn := some 9, unit := homeBank 9 }).1; let l : Live := sentLive 6 8; let r : BufRes Unit := .err .wait; (TakesPacket (s.see seen) x xs p y w ∧ p.row = .atomicAck) ∧ (w.liveAt y.ctx p.psn = some l ∧ l.awaits y.ctx = some p.psn ∧ l.coll = none ∧ 6 ≤ l.opcode) ∧ (w.placeTile y.ctx.cid l.buf 0 (leBytes 8 p.orig) y.ctx.sq l.pos { engine := 5, write := true, qpn := some p.dqpn, unit := homeBank p.dqpn } = (z, r)) ∧ (decide (r = .err .wait)) = true)
    ∧ (let s : State := receiving { kind := .atomicAck, dqpn := 9 } rtsQp { live := [{ sentLive 6 8 with bytes := List.replicate 32 0 ++ leBytes 8 0x10000000000 ++ List.replicate 24 0 }] }; let w : State := (received { kind := .atomicAck, dqpn := 9 } rtsQp { live := [{ sentLive 6 8 with bytes := List.replicate 32 0 ++ leBytes 8 0x10000000000 ++ List.replicate 24 0 }] }).modCtx 9 (fun c => { c with lastUse := 0 }); let seen : Seen := []; let x : RxPkt := rxOf { kind := .atomicAck, dqpn := 9 }; let xs : List RxPkt := []; let p : TPkt := { kind := .atomicAck, dqpn := 9 }; let y : Qp := rtsQp; let z : State := (((received { kind := .atomicAck, dqpn := 9 } rtsQp { live := [{ sentLive 6 8 with bytes := List.replicate 32 0 ++ leBytes 8 0x10000000000 ++ List.replicate 24 0 }] }).modCtx 9 (fun c => { c with lastUse := 0 })).placeTile 1024 { space := 0, addr := 0x10000000000, indirect := false } 0 (leBytes 8 0) 6 0 { engine := 5, write := true, qpn := some 9, unit := homeBank 9 }).1; let l : Live := { sentLive 6 8 with bytes := List.replicate 32 0 ++ leBytes 8 0x10000000000 ++ List.replicate 24 0 }; let r : BufRes Unit := .err .cid; (TakesPacket (s.see seen) x xs p y w ∧ p.row = .atomicAck) ∧ (w.liveAt y.ctx p.psn = some l ∧ l.awaits y.ctx = some p.psn ∧ l.coll = none ∧ 6 ≤ l.opcode) ∧ (w.placeTile y.ctx.cid l.buf 0 (leBytes 8 p.orig) y.ctx.sq l.pos { engine := 5, write := true, qpn := some p.dqpn, unit := homeBank p.dqpn } = (z, r)) ∧ ((match r with | .err e => decide (e ≠ .wait) | _ => false)) = true) := by
  refine ⟨?_, ?_, ?_, ?_, ?_, ?_, ?_, ?_, ?_, ?_, ?_, ?_, ?_, ?_, ?_, ?_, ?_, ?_, ?_, ?_, ?_, ?_, ?_, ?_, ?_, ?_, ?_, ?_, ?_, ?_, ?_, ?_, ?_, ?_, ?_⟩ <;> decide +kernel

/-- States and operands that meet the hypotheses of PairTimersAndVisibility. -/
theorem witness_PairTimersAndVisibility :
    (let s : State := ready; let q : BitVec 24 := 9; (decide (s.qp? q.toNat = none)) = true)
    ∧ (let s : State := pairing { rtsQp with ctx := { rtsQp.ctx with timer := 0 } }; let q : BitVec 24 := 9; ((match s.qp? q.toNat with | some y => decide (y.ctx.timer = 0) | _ => false)) = true)
    ∧ (let s : State := pairing rtsQp; let q : BitVec 24 := 9; let seen : Seen := []; ((match s.qp? q.toNat with | some y => decide (y.ctx.timer ≠ 0) && decide (y.resident = true) | _ => false)) = true ∧ ((match s.qp? q.toNat with | some y => decide (y.ctx.timer ≠ 0) && decide (y.resident = true) && decide (s.kennel.bad.contains q.toNat = false) && decide (s.poisoned = []) && decide (seen = []) && decide (y.sends = true) && decide (s.held.any (fun h => h.1 == q.toNat) = false) && decide (y.ctx.retryLeft ≠ 0) | _ => false)) = true)
    ∧ (let s : State := pairing { rtsQp with place := .victim }; let q : BitVec 24 := 9; ((match s.qp? q.toNat with | some y => decide (y.ctx.timer ≠ 0) && decide (y.place = .victim) | _ => false)) = true)
    ∧ (let s : State := pairing { rtsQp with place := .spilled }; let q : BitVec 24 := 9; ((match s.qp? q.toNat with | some y => decide (y.ctx.timer ≠ 0) && decide (y.place = .spilled) | _ => false)) = true)
    ∧ (let s : State := pairing { rtsQp with rnr := some 0 }; let q : BitVec 24 := 9; let seen : Seen := []; ((match s.qp? q.toNat with | some y => decide (y.ctx.timer ≠ 0) && decide (y.resident = true) && decide (s.kennel.bad.contains q.toNat = false) && decide (s.poisoned = []) && decide (seen = []) && decide (y.sends = false) | _ => false)) = true)
    ∧ (let s : State := { pairing rtsQp with held := [(9, false)] }; let q : BitVec 24 := 9; let seen : Seen := []; ((match s.qp? q.toNat with | some y => decide (y.ctx.timer ≠ 0) && decide (y.resident = true) && decide (s.kennel.bad.contains q.toNat = false) && decide (s.poisoned = []) && decide (seen = []) && decide (y.sends = true) && decide (s.held.any (fun h => h.1 == q.toNat) = true) | _ => false)) = true)
    ∧ (let s : State := pairing { rtsQp with ctx := { rtsQp.ctx with retryLeft := 0 } }; let q : BitVec 24 := 9; let seen : Seen := []; ((match s.qp? q.toNat with | some y => decide (y.ctx.timer ≠ 0) && decide (y.resident = true) && decide (s.kennel.bad.contains q.toNat = false) && decide (s.poisoned = []) && decide (seen = []) && decide (y.sends = true) && decide (s.held.any (fun h => h.1 == q.toNat) = false) && decide (y.ctx.retryLeft = 0) | _ => false)) = true)
    ∧ (let s : State := ready; let q : BitVec 24 := 9; (decide (s.qp? q.toNat = none)) = true)
    ∧ (let s : State := pairing rtsQp; let q : BitVec 24 := 9; ((match s.qp? q.toNat with | some y => decide (y.rnr = none) | _ => false)) = true)
    ∧ (let s : State := pairing { rtsQp with rnr := some 0 }; let q : BitVec 24 := 9; let seen : Seen := []; ((match s.qp? q.toNat with | some y => decide (y.rnr ≠ none) && decide (y.resident = true) | _ => false)) = true ∧ ((match s.qp? q.toNat with | some y => decide (y.resident = true) && decide (s.kennel.bad.contains q.toNat = false) && decide (s.poisoned = []) && decide (seen = []) && (match y.rnr with | some (p) => decide (s.held.any (fun h => h.1 == q.toNat) = false) | _ => false) | _ => false)) = true)
    ∧ (let s : State := pairing { rtsQp with rnr := some 0, place := .spilled }; let q : BitVec 24 := 9; ((match s.qp? q.toNat with | some y => decide (y.rnr ≠ none) && decide (y.place = .spilled) | _ => false)) = true)
    ∧ (let s : State := { pairing { rtsQp with rnr := some 0 } with held := [(9, false)] }; let q : BitVec 24 := 9; let seen : Seen := []; ((match s.qp? q.toNat with | some y => decide (y.resident = true) && decide (s.kennel.bad.contains q.toNat = false) && decide (s.poisoned = []) && decide (seen = []) && (match y.rnr with | some (p) => decide (s.held.any (fun h => h.1 == q.toNat) = true) | _ => false) | _ => false)) = true)
    ∧ (let s : State := ready; let q : BitVec 24 := 9; (decide (s.qp? q.toNat = none)) = true)
    ∧ (let s : State := pairing rtsQp; let q : BitVec 24 := 9; ((match s.qp? q.toNat with | some y => decide (y.ctx.ackPend = 0 ∨ y.ctx.state < 2 ∨ 5 < y.ctx.state) | _ => false)) = true)
    ∧ (let s : State := pairing { rtsQp with ctx := { rtsQp.ctx with ackPend := 1 } }; let q : BitVec 24 := 9; ((match s.qp? q.toNat with | some y => decide (y.ctx.ackPend ≠ 0) && decide (2 ≤ y.ctx.state) && decide (y.ctx.state ≤ 5) && decide (y.resident = true) && decide (s.kennel.bad.contains q.toNat = false) && decide (y.early = false) | _ => false)) = true)
    ∧ (let s : State := pairing { { rtsQp with ctx := { rtsQp.ctx with ackPend := 1 } } with place := .spilled }; let q : BitVec 24 := 9; ((match s.qp? q.toNat with | some y => decide (y.ctx.ackPend ≠ 0) && decide (2 ≤ y.ctx.state) && decide (y.ctx.state ≤ 5) && decide (y.place = .spilled) | _ => false)) = true)
    ∧ (let s : State := pairing { { rtsQp with ctx := { rtsQp.ctx with ackPend := 1 } } with early := true }; let q : BitVec 24 := 9; ((match s.qp? q.toNat with | some y => decide (y.ctx.ackPend ≠ 0) && decide (2 ≤ y.ctx.state) && decide (y.ctx.state ≤ 5) && decide (y.resident = true) && decide (s.kennel.bad.contains q.toNat = false) && decide (y.early = true) | _ => false)) = true)
    ∧ (let s : State := ready; let q : BitVec 24 := 9; (decide (s.qp? q.toNat = none)) = true)
    ∧ (let s : State := pairing rtsQp; let q : BitVec 24 := 9; let psn : Nat := 4; ((match s.qp? q.toNat with | some y => decide (y.vis.find? (fun v => v.1 == psn) = none ∨ y.ctx.state = 7) | _ => false)) = true)
    ∧ (let s : State := (pairing { rtsQp with vis := [(4, true)] }).put (Reg.PART_HOST_STS.LOST 0) 1; let q : BitVec 24 := 9; let psn : Nat := 4; ((match s.qp? q.toNat with | some y => (match y.vis.find? (fun v => v.1 == psn) with | some v => decide (v.2 = true) && decide (s.hostServes (s.owner (cidPart y.ctx.cid)) = false) | _ => false) | _ => false)) = true)
    ∧ (let s : State := pairing { rtsQp with vis := [(4, true)] }; let q : BitVec 24 := 9; let psn : Nat := 4; ((match s.qp? q.toNat with | some y => (match y.vis.find? (fun v => v.1 == psn) with | some v => decide (v.2 = false ∨ s.hostServes (s.owner (cidPart y.ctx.cid)) = true) && decide (y.ctx.state ≠ 7) && decide (y.resident = true) && decide (s.kennel.bad.contains q.toNat = false) | _ => false) | _ => false)) = true)
    ∧ (let s : State := ready; let n : BitVec 20 := 6; (decide (s.queue? n.toNat = none)) = true)
    ∧ (let s : State := pairing rtsQp; let n : BitVec 20 := 6; let pos : Nat := 0; ((match s.queue? n.toNat with | some w => decide (w.live.any (fun l => l.pos == pos && l.back) = false ∨ s.hostServes (s.owner (cidPart w.cid)) = false) | _ => false)) = true)
    ∧ (let s : State := pairing rtsQp { live := [{ sentLive 1 2 with back := true, done := some (0, 0, 0) }] }; let n : BitVec 20 := 6; let pos : Nat := 0; ((match s.queue? n.toNat with | some w => decide (w.live.any (fun l => l.pos == pos && l.back) = true) && decide (s.hostServes (s.owner (cidPart w.cid)) = true) | _ => false)) = true)
    ∧ (let s : State := pairing rtsQp; let q : BitVec 24 := 9; (decide (s.held.at? q.toNat = none ∨ s.qp? q.toNat = none)) = true)
    ∧ (let s : State := { pairing { rtsQp with ctx := { rtsQp.ctx with state := 7 } } with held := [(9, false)] }; let q : BitVec 24 := 9; ((match s.held.at? q.toNat with | some f => (match s.qp? q.toNat with | some y => decide (y.ctx.state = 7) | _ => false) | _ => false)) = true)
    ∧ (let s : State := { pairing rtsQp with held := [(9, true)] }; let q : BitVec 24 := 9; ((match s.held.at? q.toNat with | some f => (match s.qp? q.toNat with | some y => decide (y.ctx.state ≠ 7) | _ => false) | _ => false)) = true)
    ∧ (let s : State := { (owned 1).put (Reg.PART_HOST_STS.LOST 0) 1 with trigPend := [{ slot := 3, gen := 0, part := 1, host := true }] }; (decide (s.trigMayCount = [])) = true)
    ∧ (let s : State := { (owned 1).put (Reg.TRIG_NUM.NUM 1) 8 with trigPend := [{ slot := 3, gen := 1, part := 1 }, { slot := 4, gen := 1, part := 1 }] }; (decide (s.trigMayCount ≠ [])) = true)
    ∧ (let s : State := { (owned 1).put (Reg.TRIG_NUM.NUM 1) 8 with trigPend := [{ slot := 3, gen := 1, part := 1, host := true }], trigs := [(3, { gen := 1, count := 2 })] }; let i : Nat := 0; let x : TrigPend := { slot := 3, gen := 1, part := 1, host := true }; (s.trigMayCount = [i] ∧ s.trigPend[i]? = some x) ∧ (decide (s.trigOf x.part x.slot = true) && decide ((s.trig x.slot).gen = x.gen)) = true)
    ∧ (let s : State := { (owned 1) with trigPend := [{ slot := 3, gen := 1, part := 1, host := false }] }; let i : Nat := 0; let x : TrigPend := { slot := 3, gen := 1, part := 1, host := false }; (s.trigMayCount = [i] ∧ s.trigPend[i]? = some x) ∧ (decide (s.trigOf x.part x.slot = false ∨ (s.trig x.slot).gen ≠ x.gen)) = true)
    ∧ (let s : State := ready; let u : State := ((ready.see []).fetchDone 9).unmiss 9; let q : BitVec 24 := 9; let seen : Seen := []; (u = ((s.see seen).fetchDone q.toNat).unmiss q.toNat) ∧ (decide (s.fetchReady q.toNat = false)) = true)
    ∧ (let s : State := { pairing { rtsQp with place := .spilled } with kennel := { fetching := [9] } }; let u : State := ((({ pairing { rtsQp with place := .spilled } with kennel := { fetching := [9] } } : State).see []).fetchDone 9).unmiss 9; let q : BitVec 24 := 9; let seen : Seen := []; (u = ((s.see seen).fetchDone q.toNat).unmiss q.toNat) ∧ (decide (s.fetchReady q.toNat = true)) = true ∧ (decide (s.fetchReady q.toNat = true) && decide (s.kennel.jobs = []) && decide (u.kennel.jobs = [])) = true) := by
  refine ⟨?_, ?_, ?_, ?_, ?_, ?_, ?_, ?_, ?_, ?_, ?_, ?_, ?_, ?_, ?_, ?_, ?_, ?_, ?_, ?_, ?_, ?_, ?_, ?_, ?_, ?_, ?_, ?_, ?_, ?_, ?_, ?_, ?_, ?_⟩ <;> decide +kernel

/-- States and operands that meet the hypotheses of ResetsAndSupply. -/
theorem witness_ResetsAndSupply :
    (let s : State := ready; let b : Option Burned := none; let ok : Bool := true; let pg : Bool := true; (decide (s.pins.pwrOk = false) && decide (b = none)) = true ∧ (decide (s.pins.pwrOk = false) && decide (b = none) && decide (s.sec.fuses.dum = []) && decide (pg = true) && decide (ok = true)) = true)
    ∧ (let s : State := powered; (decide (s.pins.pwrOk = true)) = true)
    ∧ (let s : State := State.reset; let b : Option Burned := none; let ok : Bool := true; let pg : Bool := false; (decide (s.pins.pwrOk = false) && decide (b = none) && decide (s.sec.fuses.dum = []) && decide (pg = false) && decide (ok = true)) = true)
    ∧ (let s : State := State.reset; let b : Option Burned := none; let ok : Bool := false; (decide (s.pins.pwrOk = false) && decide (b = none) && decide (s.sec.fuses.dum = []) && decide (ok = false)) = true)
    ∧ (let s : State := State.reset; let b : Option Burned := some { fw := [], version := 3, auth := [], seed := [], dum := [] }; (decide (s.pins.pwrOk = false) && (match b with | some f => true | _ => false)) = true)
    ∧ (let s : State := { State.reset with sec := { fuses := { State.reset.sec.fuses with lc := 4 } } }; let b : Option Burned := none; let ok : Bool := true; let pg : Bool := true; (decide (s.pins.pwrOk = false) && decide (b = none) && decide (s.sec.fuses.dum = []) && decide (pg = true) && decide (ok = true) && decide (s.sec.fuses.lc = 4)) = true)
    ∧ (let s : State := powered; (decide (s.pins.pwrOk = false ∨ s.pins.mainEn = false ∨ s.pins.mainPg = true ∨ s.get Reg.GLB_STS.STAGE ≠ 1)) = true)
    ∧ (let s : State := { (powered.put Reg.GLB_STS.STAGE 1) with pins := { powered.pins with mainEn := true, mainPg := false } }; (decide (s.pins.pwrOk = true) && decide (s.pins.mainEn = true) && decide (s.pins.mainPg = false) && decide (s.get Reg.GLB_STS.STAGE = 1)) = true)
    ∧ (let s : State := ready; (decide (s.pins.pwrOk = false ∨ s.pins.mainEn = false ∨ s.pins.mainPg = false)) = true)
    ∧ (let s : State := { powered with pins := { powered.pins with mainEn := true, mainPg := true } }; (decide (s.pins.pwrOk = true) && decide (s.pins.mainEn = true) && decide (s.pins.mainPg = true)) = true)
    ∧ (let s : State := ready; let h : HostId := 0; (Takes s h Reg.GLB_RESET.off) ∧ (decide (s.pins.pwrOk = false ∨ s.get Reg.GLB_STS.STAGE < 2)) = true)
    ∧ (let s : State := powered; let h : HostId := 0; let ok : Bool := true; (Takes s h Reg.GLB_RESET.off) ∧ (decide (s.pins.pwrOk = true) && decide (2 ≤ s.get Reg.GLB_STS.STAGE) && decide (ok = true)) = true)
    ∧ (let s : State := powered; let h : HostId := 0; let ok : Bool := false; (Takes s h Reg.GLB_RESET.off) ∧ (decide (s.pins.pwrOk = true) && decide (2 ≤ s.get Reg.GLB_STS.STAGE) && decide (ok = false)) = true)
    ∧ (let s : State := ready; let h : HostId := 0; (Takes s h Reg.GLB_RESET.off) ∧ (decide (s.computeAbsorbed = true)) = true)
    ∧ (let s : State := powered.put Reg.GLB_STS.STAGE 8; let h : HostId := 0; (Takes s h Reg.GLB_RESET.off) ∧ (decide (s.computeAbsorbed = false)) = true)
    ∧ (let s : State := ready; (decide (s.boot.clearing = false)) = true)
    ∧ (let s : State := { powered with boot := { clearing := true, needResume := true } }; (decide (s.boot.clearing = true) && decide (s.boot.needResume = true)) = true)
    ∧ (let s : State := { powered with boot := { clearing := true } }; (decide (s.boot.clearing = true) && decide (s.boot.needResume = false)) = true)
    ∧ (let s : State := ready; let h : HostId := 0; (Takes s h Reg.GLB_RESET.off) ∧ (decide (s.get Reg.GLB_STS.STAGE ≠ 10 ∨ s.get Reg.SEC_ALARM_STS.PRESENT ≠ 0)) = true)
    ∧ (let s : State := powered.put Reg.GLB_STS.STAGE 10; let h : HostId := 0; (Takes s h Reg.GLB_RESET.off) ∧ (decide (s.get Reg.GLB_STS.STAGE = 10) && decide (s.get Reg.SEC_ALARM_STS.PRESENT = 0)) = true)
    ∧ (let s : State := ready; (decide (s.pins.pwrOk = false)) = true)
    ∧ (let s : State := powered.put Reg.GLB_STS.STAGE 8; (decide (s.pins.pwrOk = true) && decide (s.computeAbsorbed = false)) = true)
    ∧ (let s : State := ready; (decide (s.pins.pwrOk = false)) = true)
    ∧ (let s : State := powered.put Reg.SEC_ALARM_EN.EN 0; let x : BitVec 5 := 3; (decide (s.pins.pwrOk = true) && decide (x.toNat &&& s.get Reg.SEC_ALARM_EN.EN = 0)) = true)
    ∧ (let s : State := keyed ((powered.put Reg.GLB_STS.STAGE 8).put Reg.SEC_ALARM_EN.EN 7); let x : BitVec 5 := 9; (decide (s.pins.pwrOk = true) && decide (x.toNat &&& s.get Reg.SEC_ALARM_EN.EN ≠ 0) && decide (s.computeAbsorbed = false)) = true)
    ∧ (let s : State := ready; (decide (s.pins.pwrOk = false)) = true)
    ∧ (let s : State := powered; (decide (s.pins.pwrOk = true) && decide (2 ≤ s.get Reg.GLB_STS.STAGE)) = true)
    ∧ (let s : State := ready; (decide (s.pins.pwrOk = false ∨ s.get Reg.GLB_STS.STAGE = 0)) = true)
    ∧ (let s : State := powered; (decide (s.pins.pwrOk = true) && decide (s.get Reg.GLB_STS.STAGE ≠ 0)) = true)
    ∧ (let s : State := ready; (decide (s.pins.pwrOk = false)) = true)
    ∧ (let s : State := powered; (decide (s.pins.pwrOk = true)) = true) := by
  refine ⟨?_, ?_, ?_, ?_, ?_, ?_, ?_, ?_, ?_, ?_, ?_, ?_, ?_, ?_, ?_, ?_, ?_, ?_, ?_, ?_, ?_, ?_, ?_, ?_, ?_, ?_, ?_, ?_, ?_, ?_, ?_⟩ <;> decide +kernel

/-- States and operands that meet the hypotheses of PowerAndEnergy. -/
theorem witness_PowerAndEnergy :
    (let s : State := powered; (decide (s.pins.pwrOk = false ∨ s.windowsEnded = 0)) = true)
    ∧ (let s : State := { powered with time := { powered.time with cycles := 4800000, ftNs := 2000000 } }; (decide (s.pins.pwrOk = true) && decide (s.windowsEnded ≠ 0)) = true ∧ (decide (s.pins.pwrOk = true) && decide (s.windowsEnded ≠ 0) && decide (s.get Reg.TALLY_STS.PSTATE ≠ 3)) = true)
    ∧ (let s : State := { powered.put Reg.TALLY_STS.PSTATE 3 with time := { powered.time with cycles := 4800000, ftNs := 2000000 } }; (decide (s.pins.pwrOk = true) && decide (s.windowsEnded ≠ 0) && decide (s.get Reg.TALLY_STS.PSTATE = 3)) = true)
    ∧ (let s : State := ready; let h : HostId := 0; let v : Word := 299; (Takes s h Reg.TALLY_BUDGET.off) ∧ (decide (wordField v 0 10 < 300 ∨ s.get Reg.TALLY_ENV.W < wordField v 0 10 ∨ wordField v 0 10 < s.get Reg.TALLY_MIN.W)) = true)
    ∧ (let s : State := ready.put Reg.TALLY_ENV.W 600; let h : HostId := 0; let v : Word := 400; (Takes s h Reg.TALLY_BUDGET.off) ∧ (decide (300 ≤ wordField v 0 10) && decide (wordField v 0 10 ≤ s.get Reg.TALLY_ENV.W) && decide (s.get Reg.TALLY_MIN.W ≤ wordField v 0 10)) = true)
    ∧ (let s : State := ready; let k : ClusterId := 3; (decide (s.gated k = false)) = true)
    ∧ (let s : State := (ready.put Reg.TALLY_GATED_LO.CLUSTERS 24).put Reg.TALLY_STS.PSTATE 1; let k : ClusterId := 3; (decide (s.gated k = true) && decide (s.get Reg.TALLY_STS.PSTATE ≤ 1)) = true)
    ∧ (let s : State := { powered with pins := { powered.pins with capLow := true } }; (decide (s.pins.capLow = true)) = true)
    ∧ (let s : State := ready; (decide (s.pins.capLow = false)) = true ∧ (decide (s.pins.capLow = false) && decide (s.pins.pwrOk = false ∨ s.get Reg.TALLY_STS.PSTATE = 3)) = true)
    ∧ (let s : State := powered; (decide (s.pins.capLow = false) && decide (s.pins.pwrOk = true) && decide (s.get Reg.TALLY_STS.PSTATE ≠ 3)) = true)
    ∧ (let s : State := ready; let u : State := ready.put Reg.TALLY_STS.CAP_SUSP 1; (u = ((s.sched.act.map (·.1)).filter (fun p => s.get (Reg.SCHED_STATE.ACT p) == 1)).foldl (fun (s : State) p => ((s.suspend p false).showSched p).partEvent Ev.powerCapSuspend p) (s.put Reg.TALLY_STS.CAP_SUSP 1)) ∧ (decide (s.get Reg.TALLY_STS.CAP_LOW = 0 ∨ s.get Reg.TALLY_STS.CAP_SUSP = 1 ∨ 2 ≤ s.get Reg.TALLY_STS.PSTATE)) = true)
    ∧ (let s : State := ready.put Reg.TALLY_STS.CAP_LOW 1; let u : State := (ready.put Reg.TALLY_STS.CAP_LOW 1).put Reg.TALLY_STS.CAP_SUSP 1; (u = ((s.sched.act.map (·.1)).filter (fun p => s.get (Reg.SCHED_STATE.ACT p) == 1)).foldl (fun (s : State) p => ((s.suspend p false).showSched p).partEvent Ev.powerCapSuspend p) (s.put Reg.TALLY_STS.CAP_SUSP 1)) ∧ (decide (s.get Reg.TALLY_STS.CAP_LOW = 1) && decide (s.get Reg.TALLY_STS.CAP_SUSP = 0) && decide (s.get Reg.TALLY_STS.PSTATE < 2)) = true ∧ (decide (s.get Reg.TALLY_STS.CAP_LOW = 1) && decide (s.get Reg.TALLY_STS.CAP_SUSP = 0) && decide (s.get Reg.TALLY_STS.PSTATE < 2) && decide (s.sched.act = []) && decide (s.sched.pend = [])) = true)
    ∧ (let s : State := owned 1; let h : HostId := 0; (Takes s h Reg.TALLY_PS_CTL.off) ∧ (decide (s.sequenceRuns = true ∨ s.get Reg.SEC_ALARM_STS.PRESENT ≠ 0 ∨ (List.range 64).any (fun p => s.pstate p != 0) = true)) = true)
    ∧ (let s : State := keyed (ready.put Reg.GLB_STS.STAGE 8); let h : HostId := 0; (Takes s h Reg.TALLY_PS_CTL.off) ∧ (decide (s.sequenceRuns = false) && decide (s.get Reg.SEC_ALARM_STS.PRESENT = 0) && decide ((List.range 64).any (fun p => s.pstate p != 0) = false)) = true ∧ (decide (s.sequenceRuns = false) && decide (s.get Reg.SEC_ALARM_STS.PRESENT = 0) && decide ((List.range 64).any (fun p => s.pstate p != 0) = false) && decide (s.get Reg.TALLY_STS.PSTATE ≠ 3)) = true)
    ∧ (let s : State := ready; let u : State := ready; let h : HostId := 0; let seen : Seen := []; (Takes s h Reg.TALLY_PS_CTL.off ∧ u = s.see seen) ∧ (decide (s.get Reg.TALLY_STS.PSTATE ≠ 3)) = true)
    ∧ (let s : State := (ready.put Reg.TALLY_STS.PSTATE 3).put Reg.SEC_LC.STATE 4; let u : State := (ready.put Reg.TALLY_STS.PSTATE 3).put Reg.SEC_LC.STATE 4; let h : HostId := 0; let seen : Seen := []; (Takes s h Reg.TALLY_PS_CTL.off ∧ u = s.see seen) ∧ (decide (s.get Reg.TALLY_STS.PSTATE = 3) && decide (s.get Reg.SEC_LC.STATE = 4)) = true)
    ∧ (let s : State := ready.put Reg.TALLY_STS.PSTATE 3; let u : State := ready.put Reg.TALLY_STS.PSTATE 3; let h : HostId := 0; let seen : Seen := []; (Takes s h Reg.TALLY_PS_CTL.off ∧ u = s.see seen) ∧ (decide (s.get Reg.TALLY_STS.PSTATE = 3) && decide (s.get Reg.SEC_LC.STATE ≠ 4)) = true) := by
  refine ⟨?_, ?_, ?_, ?_, ?_, ?_, ?_, ?_, ?_, ?_, ?_, ?_, ?_, ?_, ?_, ?_, ?_⟩ <;> decide +kernel

/-- States and operands that meet the hypotheses of RegisterAccess. -/
theorem witness_RegisterAccess :
    (let s : State := State.reset; let h : HostId := 0; let off : BitVec 24 := 3; let wide : Bool := false; (decide (accessOk off.toNat (if wide then 8 else 4) = false) && decide (s.funcOpen h = false)) = true)
    ∧ (let s : State := ready; let h : HostId := 0; let off : BitVec 24 := 3; let wide : Bool := false; (decide (accessOk off.toNat (if wide then 8 else 4) = false) && decide (s.funcOpen h = true) && decide (s.bar0Reach h off.toNat = true) && decide (s.boot.warm = false)) = true)
    ∧ (let s : State := ready.put Reg.TALLY_STS.PSTATE 3; let h : HostId := 0; let off : BitVec 24 := 0x200003; let wide : Bool := false; (decide (accessOk off.toNat (if wide then 8 else 4) = false) && decide (s.funcOpen h = true) && decide (s.bar0Reach h off.toNat = false)) = true)
    ∧ (let off : BitVec 24 := 0x58000; let wide : Bool := true; (decide (accessOk off.toNat (if wide then 8 else 4) = true) && decide (wide = true)) = true)
    ∧ (let s : State := State.reset; let h : HostId := 0; let off : BitVec 24 := 0x20014; let wide : Bool := false; (decide (accessOk off.toNat 4 = true) && decide (wide = false) && decide (s.bar0Reach h off.toNat = false ∨ s.boot.warm = true) && decide ((regAt? off.toNat).map (·.1.base) ≠ some (Reg.PART_CTL.off 0))) = true)
    ∧ (let s : State := ready; let off : BitVec 24 := 0xFFFFFC; let wide : Bool := false; (decide (accessOk off.toNat 4 = true) && decide (wide = false) && decide (regAt? off.toNat = none) && decide (s.preReady = false)) = true)
    ∧ (let s : State := (State.reset.put (Reg.HOSTIF_PORT_STS.UP 0) 1); let h : HostId := 0; let off : BitVec 24 := BitVec.ofNat 24 Reg.TALLY_PLAN.off; let r : RegRow := planRow; let idx : List Nat := []; (off.toNat % 4 = 0 ∧ regAt? off.toNat = some (r, idx) ∧ r.base ≠ Reg.PART_CTL.off 0 ∧ s.bar0Reach h off.toNat = true ∧ s.boot.warm = false) ∧ (decide (s.preReady = true) && decide (preReadyOpen off.toNat = false)) = true)
    ∧ (let s : State := ready; let h : HostId := 1; let off : BitVec 24 := BitVec.ofNat 24 Reg.TALLY_PLAN.off; let r : RegRow := planRow; let idx : List Nat := []; (off.toNat % 4 = 0 ∧ regAt? off.toNat = some (r, idx) ∧ r.base ≠ Reg.PART_CTL.off 0 ∧ s.bar0Reach h off.toNat = true ∧ s.boot.warm = false) ∧ (decide (s.preReady = false ∨ preReadyOpen off.toNat = true) && decide (s.writerOk r idx h = false)) = true)
    ∧ (let s : State := ready; let h : HostId := 0; let off : BitVec 24 := BitVec.ofNat 24 Reg.TALLY_PLAN.off; let r : RegRow := planRow; let idx : List Nat := []; (off.toNat % 4 = 0 ∧ regAt? off.toNat = some (r, idx) ∧ r.base ≠ Reg.PART_CTL.off 0 ∧ s.bar0Reach h off.toNat = true ∧ s.boot.warm = false) ∧ (decide (s.preReady = false ∨ preReadyOpen off.toNat = true) && decide (s.writerOk r idx h = true)) = true)
    ∧ (let s : State := ready; let h : HostId := 0; let v : Word := 0x05000503; (Takes s h Reg.TALLY_PLAN.off) ∧ (decide (wordField v 8 8 ≠ 0)) = true ∧ (decide (wordField v 16 8 = 0)) = true)
    ∧ (let s : State := ready; let h : HostId := 0; let v : Word := 0x05050003; (Takes s h Reg.TALLY_PLAN.off) ∧ (decide (wordField v 8 8 = 0)) = true ∧ (decide (wordField v 16 8 ≠ 0)) = true)
    ∧ (let s : State := State.reset; let h : HostId := 0; (decide (s.funcOpen h = false)) = true)
    ∧ (let s : State := ready.put Reg.TALLY_STS.PSTATE 3; let h : HostId := 0; let off : BitVec 24 := 0x200004; let wide : Bool := false; (decide (s.funcOpen h = true) && decide (accessOk off.toNat (if wide then 8 else 4) = true) && decide (s.bar0Reach h off.toNat = false ∨ (s.boot.warm = true ∧ warmReadable off.toNat = false))) = true)
    ∧ (let s : State := ready; let h : HostId := 0; let off : BitVec 24 := 4; let wide : Bool := false; (decide (accessOk off.toNat 4 = true) && decide (wide = false) && decide (s.bar0Reach h off.toNat = true) && decide (s.boot.warm = false) && decide (pbaAt? off.toNat = none)) = true)
    ∧ (let s : State := ready; let h : HostId := 0; let off : BitVec 24 := 0x5C004; let wide : Bool := false; (decide (accessOk off.toNat 4 = true) && decide (wide = false) && decide (s.bar0Reach h off.toNat = true) && decide (s.boot.warm = false) && (match pbaAt? off.toNat with | some (k, i) => true | _ => false)) = true)
    ∧ (let s : State := ready; let h : HostId := 0; let off : BitVec 24 := 0x10010; let wide : Bool := true; (decide (accessOk off.toNat 8 = true) && decide (wide = true) && decide (s.bar0Reach h off.toNat = true) && decide (s.boot.warm = false) && decide (pbaAt? off.toNat = none) && decide (pbaAt? (off.toNat + 4) = none)) = true)
    ∧ (let s : State := ready.put (Reg.HOSTIF_DB_REJ.COUNT 1) 9; let h : HostId := 0; let k : HostId := 1; (s.bar0Reach h (Reg.HOSTIF_DB_REJ.off k) = true ∧ s.boot.warm = false))
    ∧ (let s : State := ready; let h : HostId := 0; let off : BitVec 24 := 4; let n : Nat := 4; (decide (accessOk off.toNat n = true ∨ s.funcOpen h = false)) = true)
    ∧ (let s : State := ready; let h : HostId := 0; let write : Bool := true; let off : BitVec 24 := 6; let n : Nat := 4; (decide (accessOk off.toNat n = false) && decide (s.funcOpen h = true) && decide (write = true) && decide (s.bar0Reach h off.toNat = true) && decide (s.boot.warm = false)) = true)
    ∧ (let s : State := ready.put Reg.TALLY_STS.PSTATE 3; let h : HostId := 0; let write : Bool := true; let off : BitVec 24 := 0x200006; let n : Nat := 4; (decide (accessOk off.toNat n = false) && decide (s.funcOpen h = true) && decide (write = true) && decide (s.bar0Reach h off.toNat = false ∨ s.boot.warm = true)) = true)
    ∧ (let s : State := ready; let h : HostId := 0; let write : Bool := false; let off : BitVec 24 := 6; let n : Nat := 2; (decide (accessOk off.toNat n = false) && decide (s.funcOpen h = true) && decide (write = false) && decide (s.bar0Reach h off.toNat = true) && decide (s.boot.warm = false)) = true)
    ∧ (let s : State := ready.put Reg.TALLY_STS.PSTATE 3; let h : HostId := 0; let write : Bool := false; let off : BitVec 24 := 0x200006; let n : Nat := 4; (decide (accessOk off.toNat n = false) && decide (s.funcOpen h = true) && decide (write = false) && decide (s.bar0Reach h off.toNat = false ∨ s.boot.warm = true)) = true) := by
  refine ⟨?_, ?_, ?_, ?_, ?_, ?_, ?_, ?_, ?_, ?_, ?_, ?_, ?_, ?_, ?_, ?_, ?_, ?_, ?_, ?_, ?_, ?_⟩ <;> decide +kernel

/-- States and operands that meet the hypotheses of MemoryMaintenance. -/
theorem witness_MemoryMaintenance :
    (let s : State := busy; let h : HostId := 0; (Takes s h Reg.GLB_CTL.off) ∧ (decide (s.schedBusy = true ∨ s.sched.submits ≠ [])) = true)
    ∧ (let s : State := ready; let h : HostId := 0; (Takes s h Reg.GLB_CTL.off) ∧ (decide (s.schedBusy = false) && decide (s.sched.submits = [])) = true)
    ∧ (let s : State := ready; (decide (s.boot.detPending = false)) = true)
    ∧ (let s : State := { ready with boot := { ready.boot with detPending := true } }; (decide (s.boot.detPending = true)) = true)
    ∧ (let s : State := ready.put Reg.MEM_TINKER_CTL.EN 0; let u : State := ((((ready.put Reg.MEM_TINKER_CTL.EN 0)).count (Reg.MEM_SRAM_CE.COUNT 0) 1).count (Reg.MEM_SRAM_UE.COUNT 0) 2).setTinker 3 { done := 1 }; let e : Fin 68 := 3; let b : Fin 12288 := 7; let x : Fin 513 := 1; let y : Fin 513 := 2; let d : Nat := 0; (d = (tinkerArray e b).1) ∧ (u = ((s.count (Reg.MEM_SRAM_CE.COUNT d) x).count (Reg.MEM_SRAM_UE.COUNT d) y).setTinker e { s.tinker e with done := (s.tinker e).done + 1, hold := none, first := (s.tinker e).first.filter (· != b.val) }) ∧ (decide (s.tinkerRuns e = false ∨ tinkerBlocks e ≤ b ∨ s.tinkerTurn e b = false ∨ s.tinkerSlot e b = false)) = true)
    ∧ (let s : State := { ready with memsys := { tinker := [(3, { first := [9, 7] })] } }; let u : State := (({ ready with memsys := { tinker := [(3, { first := [9, 7] })] } }.count (Reg.MEM_SRAM_CE.COUNT 0) 1).count (Reg.MEM_SRAM_UE.COUNT 0) 2).setTinker 3 { done := 1, first := [7] }; let e : Fin 68 := 3; let b : Fin 12288 := 9; let x : Fin 513 := 1; let y : Fin 513 := 2; let f : Bool := false; let d : Nat := 0; (d = (tinkerArray e b).1) ∧ (u = ((s.count (Reg.MEM_SRAM_CE.COUNT d) x).count (Reg.MEM_SRAM_UE.COUNT d) y).setTinker e { s.tinker e with done := (s.tinker e).done + 1, hold := none, first := (s.tinker e).first.filter (· != b.val) }) ∧ (decide (s.tinkerRuns e = true) && decide (b < tinkerBlocks e) && decide (s.tinkerTurn e b = true) && decide (s.tinkerSlot e b = true) && decide (f = false) && decide ((s.tinker e).done + 1 < tinkerBlocks e)) = true)
    ∧ (let s : State := ready; let u : State := ((ready.count (Reg.MEM_SRAM_CE.COUNT 4) 1).count (Reg.MEM_SRAM_UE.COUNT 4) 2).setTinker 66 { done := 1 }; let e : Fin 68 := 66; let b : Fin 12288 := 9000; let x : Fin 513 := 1; let y : Fin 513 := 2; let f : Bool := true; let d : Nat := 4; (d = (tinkerArray e b).1) ∧ (u = ((s.count (Reg.MEM_SRAM_CE.COUNT d) x).count (Reg.MEM_SRAM_UE.COUNT d) y).setTinker e { s.tinker e with done := (s.tinker e).done + 1, hold := none, first := (s.tinker e).first.filter (· != b.val) }) ∧ (decide (s.tinkerRuns e = true) && decide (b < tinkerBlocks e) && decide (s.tinkerTurn e b = true) && decide (s.tinkerSlot e b = true) && decide (f = true) && decide ((s.tinker e).done + 1 < tinkerBlocks e) && decide (s.memsys.rows.getD (1024 * e + b / 16) 0 < 4)) = true)
    ∧ (let s : State := wornOut 3 7 0; let u : State := (((wornOut 3 7 0).count (Reg.MEM_SRAM_CE.COUNT 0) 1).count (Reg.MEM_SRAM_UE.COUNT 0) 2).setTinker 3 { done := 1 }; let e : Fin 68 := 3; let b : Fin 12288 := 7; let x : Fin 513 := 1; let y : Fin 513 := 2; let f : Bool := true; let d : Nat := 0; (d = (tinkerArray e b).1) ∧ (u = ((s.count (Reg.MEM_SRAM_CE.COUNT d) x).count (Reg.MEM_SRAM_UE.COUNT d) y).setTinker e { s.tinker e with done := (s.tinker e).done + 1, hold := none, first := (s.tinker e).first.filter (· != b.val) }) ∧ (decide (s.tinkerRuns e = true) && decide (b < tinkerBlocks e) && decide (s.tinkerTurn e b = true) && decide (s.tinkerSlot e b = true) && decide (f = true) && decide ((s.tinker e).done + 1 < tinkerBlocks e) && decide (4 ≤ s.memsys.rows.getD (1024 * e + b / 16) 0) && decide (d = 0)) = true)
    ∧ (let s : State := wornOut 3 3300 0; let u : State := (((wornOut 3 3300 0).count (Reg.MEM_SRAM_CE.COUNT 1) 0).count (Reg.MEM_SRAM_UE.COUNT 1) 0).setTinker 3 { done := 1 }; let e : Fin 68 := 3; let b : Fin 12288 := 3300; let x : Fin 513 := 0; let y : Fin 513 := 0; let f : Bool := true; let d : Nat := 1; (d = (tinkerArray e b).1) ∧ (u = ((s.count (Reg.MEM_SRAM_CE.COUNT d) x).count (Reg.MEM_SRAM_UE.COUNT d) y).setTinker e { s.tinker e with done := (s.tinker e).done + 1, hold := none, first := (s.tinker e).first.filter (· != b.val) }) ∧ (decide (s.tinkerRuns e = true) && decide (b < tinkerBlocks e) && decide (s.tinkerTurn e b = true) && decide (s.tinkerSlot e b = true) && decide (f = true) && decide ((s.tinker e).done + 1 < tinkerBlocks e) && decide (4 ≤ s.memsys.rows.getD (1024 * e + b / 16) 0) && decide (d = 1)) = true)
    ∧ (let s : State := wornOut 3 3800 0; let u : State := (((wornOut 3 3800 0).count (Reg.MEM_SRAM_CE.COUNT 2) 0).count (Reg.MEM_SRAM_UE.COUNT 2) 0).setTinker 3 { done := 1 }; let e : Fin 68 := 3; let b : Fin 12288 := 3800; let x : Fin 513 := 0; let y : Fin 513 := 0; let f : Bool := true; let d : Nat := 2; (d = (tinkerArray e b).1) ∧ (u = ((s.count (Reg.MEM_SRAM_CE.COUNT d) x).count (Reg.MEM_SRAM_UE.COUNT d) y).setTinker e { s.tinker e with done := (s.tinker e).done + 1, hold := none, first := (s.tinker e).first.filter (· != b.val) }) ∧ (decide (s.tinkerRuns e = true) && decide (b < tinkerBlocks e) && decide (s.tinkerTurn e b = true) && decide (s.tinkerSlot e b = true) && decide (f = true) && decide ((s.tinker e).done + 1 < tinkerBlocks e) && decide (4 ≤ s.memsys.rows.getD (1024 * e + b / 16) 0) && decide (d = 2)) = true)
    ∧ (let s : State := wornOut 3 4040 0; let u : State := (((wornOut 3 4040 0).count (Reg.MEM_SRAM_CE.COUNT 3) 0).count (Reg.MEM_SRAM_UE.COUNT 3) 0).setTinker 3 { done := 1 }; let e : Fin 68 := 3; let b : Fin 12288 := 4040; let x : Fin 513 := 0; let y : Fin 513 := 0; let f : Bool := true; let d : Nat := 3; (d = (tinkerArray e b).1) ∧ (u = ((s.count (Reg.MEM_SRAM_CE.COUNT d) x).count (Reg.MEM_SRAM_UE.COUNT d) y).setTinker e { s.tinker e with done := (s.tinker e).done + 1, hold := none, first := (s.tinker e).first.filter (· != b.val) }) ∧ (decide (s.tinkerRuns e = true) && decide (b < tinkerBlocks e) && decide (s.tinkerTurn e b = true) && decide (s.tinkerSlot e b = true) && decide (f = true) && decide ((s.tinker e).done + 1 < tinkerBlocks e) && decide (4 ≤ s.memsys.rows.getD (1024 * e + b / 16) 0) && decide (d = 3)) = true)
    ∧ (let s : State := wornOut 66 9000 0; let u : State := (((wornOut 66 9000 0).count (Reg.MEM_SRAM_CE.COUNT 4) 0).count (Reg.MEM_SRAM_UE.COUNT 4) 0).setTinker 66 { done := 1 }; let e : Fin 68 := 66; let b : Fin 12288 := 9000; let x : Fin 513 := 0; let y : Fin 513 := 0; let f : Bool := true; let d : Nat := 4; (d = (tinkerArray e b).1) ∧ (u = ((s.count (Reg.MEM_SRAM_CE.COUNT d) x).count (Reg.MEM_SRAM_UE.COUNT d) y).setTinker e { s.tinker e with done := (s.tinker e).done + 1, hold := none, first := (s.tinker e).first.filter (· != b.val) }) ∧ (decide (s.tinkerRuns e = true) && decide (b < tinkerBlocks e) && decide (s.tinkerTurn e b = true) && decide (s.tinkerSlot e b = true) && decide (f = true) && decide ((s.tinker e).done + 1 < tinkerBlocks e) && decide (4 ≤ s.memsys.rows.getD (1024 * e + b / 16) 0) && decide (d = 4)) = true)
    ∧ (let s : State := wornOut 3 7 4159; let u : State := (((wornOut 3 7 4159).count (Reg.MEM_SRAM_CE.COUNT 0) 0).count (Reg.MEM_SRAM_UE.COUNT 0) 0).setTinker 3 { done := 4160 }; let e : Fin 68 := 3; let b : Fin 12288 := 7; let x : Fin 513 := 0; let y : Fin 513 := 0; let f : Bool := false; let d : Nat := 0; (d = (tinkerArray e b).1) ∧ (u = ((s.count (Reg.MEM_SRAM_CE.COUNT d) x).count (Reg.MEM_SRAM_UE.COUNT d) y).setTinker e { s.tinker e with done := (s.tinker e).done + 1, hold := none, first := (s.tinker e).first.filter (· != b.val) }) ∧ (decide (s.tinkerRuns e = true) && decide (b < tinkerBlocks e) && decide (s.tinkerTurn e b = true) && decide (s.tinkerSlot e b = true) && decide (f = false) && decide (tinkerBlocks e ≤ (s.tinker e).done + 1)) = true)
    ∧ (let s : State := ready; let c : Fin 16 := 3; (decide (s.get (Reg.MEM_CH_STS.STATE c) ≠ 2)) = true)
    ∧ (let s : State := ready.put (Reg.MEM_CH_STS.STATE 3) 2; let c : Fin 16 := 3; let f : Bool := false; (decide (s.get (Reg.MEM_CH_STS.STATE c) = 2) && decide (f = false)) = true)
    ∧ (let s : State := ready.put (Reg.MEM_CH_STS.STATE 3) 2; let c : Fin 16 := 3; let f : Bool := true; (decide (s.get (Reg.MEM_CH_STS.STATE c) = 2) && decide (f = true)) = true)
    ∧ (let s : State := ready; let c : Fin 16 := 3; let x : ScrubCh := {}; (x = s.memsys.scrub.getD c {}) ∧ (decide (s.chanUp c = false ∨ s.get Reg.MEM_SCRUB_CTL.EN = 0 ∨ s.get Reg.TALLY_STS.PSTATE = 3 ∨ s.background (0x7000 + c) = false)) = true)
    ∧ (let s : State := (tiered 1 0).put (Reg.MEM_CH_STS.STATE 0) 2; let c : Fin 16 := 0; let f : ScrubFind := .bad; let x : ScrubCh := {}; (x = s.memsys.scrub.getD c {}) ∧ (decide (s.chanUp c = true) && decide (s.get Reg.MEM_SCRUB_CTL.EN = 1) && decide (s.get Reg.TALLY_STS.PSTATE ≠ 3) && decide (s.background (0x7000 + c) = true) && (match s.lineAddr? c x.pos with | some a => decide (a / 64 ∈ s.ddrBad ∨ f = .bad) | _ => false)) = true)
    ∧ (let s : State := ready.put (Reg.MEM_CH_STS.STATE 3) 2; let c : Fin 16 := 3; let f : ScrubFind := .bad; let x : ScrubCh := {}; (x = s.memsys.scrub.getD c {}) ∧ (decide (s.chanUp c = true) && decide (s.get Reg.MEM_SCRUB_CTL.EN = 1) && decide (s.get Reg.TALLY_STS.PSTATE ≠ 3) && decide (s.background (0x7000 + c) = true) && decide (s.lineAddr? c x.pos = none) && decide (f = .bad)) = true)
    ∧ (let s : State := ready.put (Reg.MEM_CH_STS.STATE 3) 2; let c : Fin 16 := 3; let f : ScrubFind := .clean; let x : ScrubCh := {}; (x = s.memsys.scrub.getD c {}) ∧ (decide (s.chanUp c = true) && decide (s.get Reg.MEM_SCRUB_CTL.EN = 1) && decide (s.get Reg.TALLY_STS.PSTATE ≠ 3) && decide (s.background (0x7000 + c) = true) && decide ((s.lineAddr? c x.pos).all (fun a => !s.ddrBad.contains (a / 64)) = true) && decide (f = .clean) && decide (x.pos + 1 < s.chanLines c)) = true)
    ∧ (let s : State := { ready.put (Reg.MEM_CH_STS.STATE 3) 2 with memsys := { scrub := [(3, { pos := 1073741823 })] } }; let c : Fin 16 := 3; let f : ScrubFind := .clean; let x : ScrubCh := { pos := 1073741823 }; (x = s.memsys.scrub.getD c {}) ∧ (decide (s.chanUp c = true) && decide (s.get Reg.MEM_SCRUB_CTL.EN = 1) && decide (s.get Reg.TALLY_STS.PSTATE ≠ 3) && decide (s.background (0x7000 + c) = true) && decide ((s.lineAddr? c x.pos).all (fun a => !s.ddrBad.contains (a / 64)) = true) && decide (f = .clean) && decide (s.chanLines c ≤ x.pos + 1)) = true)
    ∧ (let s : State := ready.put (Reg.MEM_CH_STS.STATE 3) 2; let c : Fin 16 := 3; let d : Fin 10 := 5; let x : ScrubCh := {}; (x = s.memsys.scrub.getD c {} ∧ s.chanUp c = true ∧ s.get Reg.MEM_SCRUB_CTL.EN = 1 ∧ s.get Reg.TALLY_STS.PSTATE ≠ 3 ∧ s.background (0x7000 + c) = true) ∧ ((s.lineAddr? c x.pos).all (fun a => !s.ddrBad.contains (a / 64)) = true) ∧ (decide (s.mark? c (x.pos % 2) = none) && decide (x.hits.getD (16 * (x.pos % 2) + d) 0 < 15)) = true)
    ∧ (let s : State := { ready.put (Reg.MEM_CH_STS.STATE 3) 2 with memsys := { scrub := [(3, { hits := [(5, 15)] })] } }; let c : Fin 16 := 3; let d : Fin 10 := 5; let x : ScrubCh := { hits := [(5, 15)] }; (x = s.memsys.scrub.getD c {} ∧ s.chanUp c = true ∧ s.get Reg.MEM_SCRUB_CTL.EN = 1 ∧ s.get Reg.TALLY_STS.PSTATE ≠ 3 ∧ s.background (0x7000 + c) = true) ∧ ((s.lineAddr? c x.pos).all (fun a => !s.ddrBad.contains (a / 64)) = true) ∧ (decide (s.mark? c (x.pos % 2) = none) && decide (15 ≤ x.hits.getD (16 * (x.pos % 2) + d) 0)) = true)
    ∧ (let s : State := ((ready.put (Reg.MEM_CH_STS.STATE 3) 2).put (Reg.MEM_CH_STS.MARK_A_V 3) 1).put (Reg.MEM_CH_STS.MARK_A 3) 5; let c : Fin 16 := 3; let d : Fin 10 := 5; let x : ScrubCh := {}; (x = s.memsys.scrub.getD c {} ∧ s.chanUp c = true ∧ s.get Reg.MEM_SCRUB_CTL.EN = 1 ∧ s.get Reg.TALLY_STS.PSTATE ≠ 3 ∧ s.background (0x7000 + c) = true) ∧ ((s.lineAddr? c x.pos).all (fun a => !s.ddrBad.contains (a / 64)) = true) ∧ (decide (s.mark? c (x.pos % 2) = some d.val)) = true)
    ∧ (let s : State := ((ready.put (Reg.MEM_CH_STS.STATE 3) 2).put (Reg.MEM_CH_STS.MARK_A_V 3) 1).put (Reg.MEM_CH_STS.MARK_A 3) 6; let c : Fin 16 := 3; let d : Fin 10 := 5; let x : ScrubCh := {}; (x = s.memsys.scrub.getD c {} ∧ s.chanUp c = true ∧ s.get Reg.MEM_SCRUB_CTL.EN = 1 ∧ s.get Reg.TALLY_STS.PSTATE ≠ 3 ∧ s.background (0x7000 + c) = true) ∧ ((s.lineAddr? c x.pos).all (fun a => !s.ddrBad.contains (a / 64)) = true) ∧ ((match s.mark? c (x.pos % 2) with | some m => decide (m ≠ d.val) && decide (s.lineAddr? c x.pos = none) | _ => false)) = true)
    ∧ (let s : State := (((tiered 1 0).put (Reg.MEM_CH_STS.STATE 0) 2).put (Reg.MEM_CH_STS.MARK_A_V 0) 1).put (Reg.MEM_CH_STS.MARK_A 0) 6; let c : Fin 16 := 0; let d : Fin 10 := 5; let x : ScrubCh := {}; (x = s.memsys.scrub.getD c {} ∧ s.chanUp c = true ∧ s.get Reg.MEM_SCRUB_CTL.EN = 1 ∧ s.get Reg.TALLY_STS.PSTATE ≠ 3 ∧ s.background (0x7000 + c) = true) ∧ ((s.lineAddr? c x.pos).all (fun a => !s.ddrBad.contains (a / 64)) = true) ∧ ((match s.mark? c (x.pos % 2) with | some m => decide (m ≠ d.val) && (match s.lineAddr? c x.pos with | some a => true | _ => false) | _ => false)) = true)
    ∧ (let s : State := configuring; let h : HostId := 0; let r : Fin 512 := 0; let w : Fin 4 := 2; let v : Word := 1; let p : Nat := 1; let o : Nat := 0x520008; (o = Reg.MEM_REG_W0.off r + 4 * w) ∧ (Takes s h o) ∧ (p = s.get (Reg.MEM_REG_W2.PARTITION r)) ∧ (decide (s.get (Reg.MEM_REG_W2.VALID r) = 1) && decide (w = 2) && decide (wordField v 31 1 = 0) && decide ((s.owns h p = true ∧ s.pstate p = 1) ∨ s.regionBootCase h p = true)) = true)
    ∧ (let s : State := configuring; let h : HostId := 0; let r : Fin 512 := 0; let w : Fin 4 := 0; let v : Word := 1; let p : Nat := 1; let o : Nat := 0x520000; (o = Reg.MEM_REG_W0.off r + 4 * w) ∧ (Takes s h o) ∧ (p = s.get (Reg.MEM_REG_W2.PARTITION r)) ∧ (decide (s.get (Reg.MEM_REG_W2.VALID r) = 1) && decide (w ≠ 2 ∨ wordField v 31 1 = 1 ∨ (¬ (s.owns h p = true ∧ s.pstate p = 1) ∧ s.regionBootCase h p = false))) = true)
    ∧ (let s : State := configuring.put (Reg.MEM_REG_W2.PARTITION 1) 1; let h : HostId := 0; let r : Fin 512 := 1; let w : Fin 4 := 0; let p : Nat := 1; let o : Nat := 0x520010; (o = Reg.MEM_REG_W0.off r + 4 * w) ∧ (Takes s h o) ∧ (p = s.get (Reg.MEM_REG_W2.PARTITION r)) ∧ (decide (s.get (Reg.MEM_REG_W2.VALID r) = 0) && decide (w.val < 2) && decide (s.owns h p = true ∨ s.regionBootCase h p = true)) = true)
    ∧ (let s : State := configuring; let h : HostId := 0; let r : Fin 512 := 1; let w : Fin 4 := 0; let p : Nat := 0; let o : Nat := 0x520010; (o = Reg.MEM_REG_W0.off r + 4 * w) ∧ (Takes s h o) ∧ (p = s.get (Reg.MEM_REG_W2.PARTITION r)) ∧ (decide (s.get (Reg.MEM_REG_W2.VALID r) = 0) && decide (w.val < 2) && decide (s.owns h p = false) && decide (s.regionBootCase h p = false)) = true)
    ∧ (let s : State := configuring; let h : HostId := 0; let r : Fin 512 := 1; let w : Fin 4 := 2; let v : Word := 1; let p : Nat := 0; let o : Nat := 0x520018; (o = Reg.MEM_REG_W0.off r + 4 * w) ∧ (Takes s h o) ∧ (p = s.get (Reg.MEM_REG_W2.PARTITION r)) ∧ (decide (s.get (Reg.MEM_REG_W2.VALID r) = 0) && decide (w = 2) && decide (s.owns h (wordField v 0 6) = true ∨ s.regionBootCase h (wordField v 0 6) = true) && decide (wordField v 31 1 = 0)) = true)
    ∧ (let s : State := (configuring.put (Reg.MEM_REG_W1.SIZE_MIB 1) 1).put (Reg.MEM_REG_W0.BASE_MIB 1) 600; let h : HostId := 0; let r : Fin 512 := 1; let w : Fin 4 := 2; let v : Word := 0x80000001; let p : Nat := 0; let o : Nat := 0x520018; (o = Reg.MEM_REG_W0.off r + 4 * w) ∧ (Takes s h o) ∧ (p = s.get (Reg.MEM_REG_W2.PARTITION r)) ∧ (decide (s.get (Reg.MEM_REG_W2.VALID r) = 0) && decide (w = 2) && decide (s.owns h (wordField v 0 6) = true ∨ s.regionBootCase h (wordField v 0 6) = true) && decide (wordField v 31 1 = 1) && decide (s.regionOk r (wordField v 0 6) = true)) = true)
    ∧ (let s : State := configuring; let h : HostId := 0; let r : Fin 512 := 1; let w : Fin 4 := 2; let v : Word := 0x80000001; let p : Nat := 0; let o : Nat := 0x520018; (o = Reg.MEM_REG_W0.off r + 4 * w) ∧ (Takes s h o) ∧ (p = s.get (Reg.MEM_REG_W2.PARTITION r)) ∧ (decide (s.get (Reg.MEM_REG_W2.VALID r) = 0) && decide (w = 2) && decide ((s.owns h (wordField v 0 6) = false ∧ s.regionBootCase h (wordField v 0 6) = false) ∨ (wordField v 31 1 = 1 ∧ s.regionOk r (wordField v 0 6) = false))) = true)
    ∧ (let s : State := configuring.put (Reg.MEM_REG_W2.PARTITION 7) 1; let h : HostId := 0; let b : Bool := false; (Takes s h (Reg.MEM_REG_W0.off 7) ∧ Takes s h (Reg.MEM_REG_W1.off 7)) ∧ (s.get (Reg.MEM_REG_W2.VALID 7) = 0 ∧ s.owns h (s.get (Reg.MEM_REG_W2.PARTITION 7)) = true) ∧ (decide (b = false)) = true)
    ∧ (let s : State := configuring.put (Reg.MEM_REG_W2.PARTITION 7) 1; let h : HostId := 0; let b : Bool := true; (Takes s h (Reg.MEM_REG_W0.off 7) ∧ Takes s h (Reg.MEM_REG_W1.off 7)) ∧ (s.get (Reg.MEM_REG_W2.VALID 7) = 0 ∧ s.owns h (s.get (Reg.MEM_REG_W2.PARTITION 7)) = true) ∧ (decide (b = true)) = true)
    ∧ (let s : State := configuring; let h : HostId := 0; let r : Fin 512 := 5; (s.bar0Reach h (Reg.MEM_REG_W3.off r) = true ∧ s.boot.warm = false))
    ∧ (let s : State := tiered 1 0; let u : State := { tiered 1 0 with ddr := memZero (tiered 1 0).ddr 0x20000000 0x1000000, ddrBad := [] }; let r : Fin 512 := 0; (u = { s with ddr := memZero s.ddr (s.region r).base (s.region r).size, ddrBad := s.ddrBad.filter (fun l => !within (64 * l) 64 (s.region r).base (s.region r).size) }) ∧ (decide (s.get (Reg.MEM_REG_W2.VALID r) = 0 ∨ s.get (Reg.MEM_REG_W3.FILL r) = 0)) = true)
    ∧ (let s : State := tiered 1 1; let u : State := { tiered 1 1 with ddr := memZero (tiered 1 1).ddr 0x20000000 0x1000000, ddrBad := [] }; let r : Fin 512 := 0; (u = { s with ddr := memZero s.ddr (s.region r).base (s.region r).size, ddrBad := s.ddrBad.filter (fun l => !within (64 * l) 64 (s.region r).base (s.region r).size) }) ∧ (decide (s.get (Reg.MEM_REG_W2.VALID r) = 1) && decide (s.get (Reg.MEM_REG_W3.FILL r) = 1)) = true)
    ∧ (let s : State := ready.put (Reg.CLUSTER_RED_OPEN.SPILLED 3) 1; let h : HostId := 0; let r : Fin 3 := 0; (Takes s h (Reg.MEM_RSPILL_BASE_LO.off + 4 * r)) ∧ (decide ((List.range 64).all (fun k => s.get (Reg.CLUSTER_RED_OPEN.SPILLED k) == 0) = false)) = true)
    ∧ (let s : State := ready; let h : HostId := 0; let r : Fin 3 := 0; (Takes s h (Reg.MEM_RSPILL_BASE_LO.off + 4 * r)) ∧ (decide ((List.range 64).all (fun k => s.get (Reg.CLUSTER_RED_OPEN.SPILLED k) == 0) = true) && decide (r = 0)) = true)
    ∧ (let s : State := ready; let h : HostId := 0; let r : Fin 3 := 1; (Takes s h (Reg.MEM_RSPILL_BASE_LO.off + 4 * r)) ∧ (decide ((List.range 64).all (fun k => s.get (Reg.CLUSTER_RED_OPEN.SPILLED k) == 0) = true) && decide (r = 1)) = true)
    ∧ (let s : State := ready; let h : HostId := 0; let r : Fin 3 := 2; let v : Word := 5; (Takes s h (Reg.MEM_RSPILL_BASE_LO.off + 4 * r)) ∧ (decide ((List.range 64).all (fun k => s.get (Reg.CLUSTER_RED_OPEN.SPILLED k) == 0) = true) && decide (r = 2) && decide (wordField v 0 13 ≤ 4096)) = true)
    ∧ (let s : State := ready; let h : HostId := 0; let r : Fin 3 := 2; let v : Word := 0xFFFFFFFF; (Takes s h (Reg.MEM_RSPILL_BASE_LO.off + 4 * r)) ∧ (decide ((List.range 64).all (fun k => s.get (Reg.CLUSTER_RED_OPEN.SPILLED k) == 0) = true) && decide (r = 2) && decide (4096 < wordField v 0 13)) = true)
    ∧ (let s : State := ready; let h : HostId := 0; let r : Fin 3 := 0; (Takes s h (Reg.MEM_IMG_BASE_LO.off + 4 * r)) ∧ (decide (s.get Reg.GLB_STS.STAGE ≠ 2)) = true)
    ∧ (let s : State := ready.put Reg.GLB_STS.STAGE 2; let h : HostId := 0; let r : Fin 3 := 0; (Takes s h (Reg.MEM_IMG_BASE_LO.off + 4 * r)) ∧ (decide (s.get Reg.GLB_STS.STAGE = 2) && decide (r = 0)) = true)
    ∧ (let s : State := ready.put Reg.GLB_STS.STAGE 2; let h : HostId := 0; let r : Fin 3 := 1; (Takes s h (Reg.MEM_IMG_BASE_LO.off + 4 * r)) ∧ (decide (s.get Reg.GLB_STS.STAGE = 2) && decide (r = 1)) = true)
    ∧ (let s : State := ready.put Reg.GLB_STS.STAGE 2; let h : HostId := 0; let r : Fin 3 := 2; let v : Word := 5; (Takes s h (Reg.MEM_IMG_BASE_LO.off + 4 * r)) ∧ (decide (s.get Reg.GLB_STS.STAGE = 2) && decide (r = 2) && decide (wordField v 0 13 ≤ 4096)) = true)
    ∧ (let s : State := ready.put Reg.GLB_STS.STAGE 2; let h : HostId := 0; let r : Fin 3 := 2; let v : Word := 0xFFFFFFFF; (Takes s h (Reg.MEM_IMG_BASE_LO.off + 4 * r)) ∧ (decide (s.get Reg.GLB_STS.STAGE = 2) && decide (r = 2) && decide (4096 < wordField v 0 13)) = true) := by
  refine ⟨?_, ?_, ?_, ?_, ?_, ?_, ?_, ?_, ?_, ?_, ?_, ?_, ?_, ?_, ?_, ?_, ?_, ?_, ?_, ?_, ?_, ?_, ?_, ?_, ?_, ?_, ?_, ?_, ?_, ?_, ?_, ?_, ?_, ?_, ?_, ?_, ?_, ?_, ?_, ?_, ?_, ?_, ?_, ?_, ?_, ?_, ?_, ?_⟩ <;> decide +kernel

/-- States and operands that meet the hypotheses of CrierAndBoot. -/
theorem witness_CrierAndBoot :
    (let s : State := ready; let k : ClusterId := 2; let c : Fin 68 := 9; let g : Fin 4096 := 0; let b : Bool := true; (decide (s.get Reg.GLB_STS.STAGE ≠ 6 ∨ b = false ∨ g.val ∉ s.boot.sent ∨ s.boot.targets.find? (fun x => x.cluster == k.val && x.pcore == c.val) = none)) = true)
    ∧ (let s : State := crying 2 0 [0]; let k : ClusterId := 2; let c : Fin 68 := 9; let g : Fin 4096 := 0; let b : Bool := true; ((match s.boot.targets.find? (fun x => x.cluster == k.val && x.pcore == c.val) with | some (x) => decide (s.get Reg.GLB_STS.STAGE = 6) && decide (b = true) && decide (g.val ∈ s.boot.sent) && decide (g.val ∉ s.boot.segsOf x ∨ g.val ∈ x.held) | _ => false)) = true)
    ∧ (let s : State := crying 2 0 []; let k : ClusterId := 2; let c : Fin 68 := 9; let g : Fin 4096 := 0; let b : Bool := true; ((match s.boot.targets.find? (fun x => x.cluster == k.val && x.pcore == c.val) with | some (x) => decide (s.get Reg.GLB_STS.STAGE = 6) && decide (b = true) && decide (g.val ∈ s.boot.sent) && decide (g.val ∈ s.boot.segsOf x) && decide (g.val ∉ x.held) && decide ((s.boot.segsOf x).all (x.held ++ [g.val]).contains = false) | _ => false)) = true)
    ∧ (let s : State := crying 1 0 []; let k : ClusterId := 2; let c : Fin 68 := 9; let g : Fin 4096 := 0; let b : Bool := true; ((match s.boot.targets.find? (fun x => x.cluster == k.val && x.pcore == c.val) with | some (x) => decide (s.get Reg.GLB_STS.STAGE = 6) && decide (b = true) && decide (g.val ∈ s.boot.sent) && decide (g.val ∈ s.boot.segsOf x) && decide (g.val ∉ x.held) && decide ((s.boot.segsOf x).all (x.held ++ [g.val]).contains = true) && decide (s.crcOk x = false) | _ => false)) = true)
    ∧ (let s : State := crying 1 0x55bc801d []; let k : ClusterId := 2; let c : Fin 68 := 9; let g : Fin 4096 := 0; let b : Bool := true; ((match s.boot.targets.find? (fun x => x.cluster == k.val && x.pcore == c.val) with | some (x) => decide (s.get Reg.GLB_STS.STAGE = 6) && decide (b = true) && decide (g.val ∈ s.boot.sent) && decide (g.val ∈ s.boot.segsOf x) && decide (g.val ∉ x.held) && decide ((s.boot.segsOf x).all (x.held ++ [g.val]).contains = true) && decide (s.crcOk x = true) | _ => false)) = true)
    ∧ (let s : State := ready; (decide (s.get Reg.GLB_STS.STAGE ≠ 6)) = true)
    ∧ (let s : State := crying 2 0 [0]; (decide (s.get Reg.GLB_STS.STAGE = 6)) = true)
    ∧ (let s : State := ready; let o : List Target := []; (o = s.boot.targets.filter (fun x => !x.complete)) ∧ (decide (s.get Reg.GLB_STS.STAGE ≠ 6)) = true)
    ∧ (let s : State := ready.put Reg.GLB_STS.STAGE 6; let o : List Target := []; (o = s.boot.targets.filter (fun x => !x.complete)) ∧ (decide (s.get Reg.GLB_STS.STAGE = 6) && decide (o = [])) = true)
    ∧ (let s : State := crying 2 0 [0]; let o : List Target := [cryTarget [0]]; (o = s.boot.targets.filter (fun x => !x.complete)) ∧ (decide (s.get Reg.GLB_STS.STAGE = 6) && decide (o ≠ []) && decide (s.get Reg.GLB_CRIER_STS.PASS < 8)) = true)
    ∧ (let s : State := (crying 2 0 [0]).put Reg.GLB_CRIER_STS.PASS 8; let o : List Target := [cryTarget [0]]; (o = s.boot.targets.filter (fun x => !x.complete)) ∧ (decide (s.get Reg.GLB_STS.STAGE = 6) && decide (o ≠ []) && decide (8 ≤ s.get Reg.GLB_CRIER_STS.PASS)) = true)
    ∧ (let s : State := ready; let u : State := (ready.put Reg.GLB_STS.STAGE 3).put Reg.GLB_STS.BOOT_ERR 0; let h : HostId := 0; let seen : Seen := []; (Takes s h Reg.GLB_FW_CMD.off ∧ u = ((s.see seen).put Reg.GLB_STS.STAGE 3).put Reg.GLB_STS.BOOT_ERR 0) ∧ (decide (s.get Reg.GLB_STS.STAGE ≠ 2)) = true)
    ∧ (let s : State := ready.put Reg.GLB_STS.STAGE 2; let u : State := ((ready.put Reg.GLB_STS.STAGE 2).put Reg.GLB_STS.STAGE 3).put Reg.GLB_STS.BOOT_ERR 0; let h : HostId := 0; let seen : Seen := []; (Takes s h Reg.GLB_FW_CMD.off ∧ u = ((s.see seen).put Reg.GLB_STS.STAGE 3).put Reg.GLB_STS.BOOT_ERR 0) ∧ (decide (s.get Reg.GLB_STS.STAGE = 2)) = true ∧ (decide (s.get Reg.GLB_STS.STAGE = 2) && decide (u.manifestOk u.manifest = false)) = true) := by
  refine ⟨?_, ?_, ?_, ?_, ?_, ?_, ?_, ?_, ?_, ?_, ?_, ?_, ?_⟩ <;> decide +kernel

/-- A state that meets the hypothesis of StepRunsFront. -/
theorem witness_StepRunsFront : ({ ready with pending := [.scheduleTakeover] } : State).pending = .scheduleTakeover :: [] := by decide +kernel

/-- A state that meets the hypotheses of IdleStepIsACoreCycle. -/
theorem witness_IdleStepIsACoreCycle :
    ready.pending = [] ∧ ready.time.phase = 0 ∧ ready.time.phase < 3 ∧ ready.ft % 320 = 107 * ready.time.phase ∧ ready.ft + 107 < 2 ^ 72
      ∧ ready.mesh.crossings = [] ∧ ready.host0.b4Wait = [] ∧ ready.host1.b4Wait = [] ∧ ready.tick.atSlotStart = false := by decide +kernel

/-- A step of a provisioned device. -/
theorem witness_FusesMoveOnlyAsAllowed :
    ∃ t, step { ready with sec := { fuses := { lc := 1, version := 3, revoked := [2] } } } = .next t
      ∧ ({ ready with sec := { fuses := { lc := 1, version := 3, revoked := [2] } } } : State).sec.fuses.lc = 1 := ⟨_, rfl, by decide +kernel⟩

/-- States that meet the hypotheses of TallyFloorAtReset. -/
theorem witness_TallyFloorAtReset :
    State.reset.pins.pwrOk = false ∧ (∀ e ∈ State.reset.sec.fuses.dum, e.1 ≠ Reg.TALLY_FLOOR.off) ∧ (∀ w ∈ (none : Option Burned), ∀ e ∈ w.dum, e.1 ≠ Reg.TALLY_FLOOR.off) ∧ State.reset.get Reg.TALLY_FLOOR.MW = 139400 := by decide +kernel

/-- States that meet the hypotheses of UnlockedSubmissionRefused. -/
theorem witness_UnlockedSubmissionRefused :
    (Takes ready 0 (Reg.SCHED_CTL.off 1) ∧ ready.get (Reg.SCHED_STATE.PEND 1) = 0 ∧ ready.get Reg.TIME_STS.STATE ≠ 2)
    ∧ (let s : State := owned 1; let x : Submit := { verdictSubmit with locked := false }; let i : Image := { verdictImage 1 with takeover := 2000 }
       s.admRights x.part i = none ∧ s.admLead i = none ∧ s.admResources x.part i x = none
        ∧ admSlots (s.plant x.preempt) (s.admImages x.part i) i = none ∧ admBackground (s.admImages x.part i) i = none
        ∧ s.admBuffers (s.plant x.preempt) (s.admImages x.part i) = none) := by decide +kernel

/-- States that meet the hypotheses of StaleOrVacantImageRefused. -/
theorem witness_StaleOrVacantImageRefused :
    (Takes ready 0 (Reg.SCHED_CTL.off 1) ∧ ready.get (Reg.SCHED_STATE.PEND 1) = 0)
    ∧ (let i : Image := { verdictImage 1 with takeover := 2000, mapGen := 3 }
       i.mapGen ≠ verdictSubmit.gen ∧ (owned 1).admRights 1 i = none ∧ (owned 1).admLead i = none)
    ∧ (∃ q ∈ [{ path0 with stage := 70, stageValid := true }], q.stageValid = true
        ∧ (ready.put (Reg.CLUSTER_LMAP.NEXT_VACANT 1 6) 1).get (Reg.CLUSTER_LMAP.NEXT_VACANT (q.stage / 64) (q.stage % 64)) ≠ 0) := by decide +kernel

end Sys2Proof.Tests

end
end

section
/-! PROOFS. A step takes exactly the front of the queue: the model's queue, log 1. -/

namespace Sys2Proof.Machine.Proofs

open Laws

/-- Every command answers a next state, and none touches the queue: its frame, whatever else it covers, has the queue's bit clear. -/
theorem exec_keeps_pending (c : Instr) (s : State) : Completes c s fun t => t.pending = s.pending := by
  match c with
  | .registerWrite .. => exact ⟨_, rfl, (execRegisterWrite_same (h := rfl) ..).pending rfl⟩
  | .rcCounterRead .. => exact ⟨_, rfl, (execRcCounterRead_same (h := rfl) ..).pending rfl⟩
  | .bar0BadAccess .. => exact ⟨_, rfl, (execBar0BadAccess_same (h := rfl) ..).pending rfl⟩
  | .timeCtlWrite .. => exact ⟨_, rfl, (execTimeCtlWrite_same (h := rfl) ..).pending rfl⟩
  | .setArm .. => exact ⟨_, rfl, (execSetArm_same (h := rfl) ..).pending rfl⟩
  | .timePortWrite .. => exact ⟨_, rfl, (execTimePortWrite_same (h := rfl) ..).pending rfl⟩
  | .timeHoldLimitWrite .. => exact ⟨_, rfl, (execTimeHoldLimitWrite_same (h := rfl) ..).pending rfl⟩
  | .timeNowRead .. => exact ⟨_, rfl, (execTimeNowRead_same (h := rfl) ..).pending rfl⟩
  | .timeSetAssign .. => exact ⟨_, rfl, (execTimeSetAssign_same (h := rfl) ..).pending rfl⟩
  | .sourceLost .. => exact ⟨_, rfl, (execSourceLost_same (h := rfl) ..).pending rfl⟩
  | .sourceValid .. => exact ⟨_, rfl, (execSourceValid_same (h := rfl) ..).pending rfl⟩
  | .lockAchieved .. => exact ⟨_, rfl, (execLockAchieved_same (h := rfl) ..).pending rfl⟩
  | .srcStep .. => exact ⟨_, rfl, (execSrcStep_same (h := rfl) ..).pending rfl⟩
  | .holdoverLimitReached .. => exact ⟨_, rfl, (execHoldoverLimitReached_same (h := rfl) ..).pending rfl⟩
  | .timeLost .. => exact ⟨_, rfl, (execTimeLost_same (h := rfl) ..).pending rfl⟩
  | .slotBoundary .. => exact ⟨_, rfl, (execSlotBoundary_same (h := rfl) ..).pending rfl⟩
  | .ptpMessageReceive .. => exact ⟨_, rfl, (execPtpMessageReceive_same (h := rfl) ..).pending rfl⟩
  | .beaconSend .. => exact ⟨_, rfl, (execBeaconSend_same (h := rfl) ..).pending rfl⟩
  | .beaconReceive .. => exact ⟨_, rfl, (execBeaconReceive_same (h := rfl) ..).pending rfl⟩
  | .barrierArrival .. => exact ⟨_, rfl, (execBarrierArrival_same (h := rfl) ..).pending rfl⟩
  | .barrierReleaseReceive .. => exact ⟨_, rfl, (execBarrierReleaseReceive_same (h := rfl) ..).pending rfl⟩
  | .barrierRelease .. => exact ⟨_, rfl, (execBarrierRelease_same (h := rfl) ..).pending rfl⟩
  | .unitFailure .. => exact ⟨_, rfl, (execUnitFailure_same (h := rfl) ..).pending rfl⟩
  | .commit .. => exact ⟨_, rfl, (execCommit_same (h := rfl) ..).pending rfl⟩
  | .linkCfgWrite .. => exact ⟨_, rfl, (execLinkCfgWrite_same (h := rfl) ..).pending rfl⟩
  | .linkBufClassWrite .. => exact ⟨_, rfl, (execLinkBufClassWrite_same (h := rfl) ..).pending rfl⟩
  | .ethFrameReceive .. => exact ⟨_, rfl, (execEthFrameReceive_same (h := rfl) ..).pending rfl⟩
  | .pfcFrameReceive .. => exact ⟨_, rfl, (execPfcFrameReceive_same (h := rfl) ..).pending rfl⟩
  | .pauseFrameReceive .. => exact ⟨_, rfl, (execPauseFrameReceive_same (h := rfl) ..).pending rfl⟩
  | .pfcRefresh .. => exact ⟨_, rfl, (execPfcRefresh_same (h := rfl) ..).pending rfl⟩
  | .pauseTimeExpiry .. => exact ⟨_, rfl, (execPauseTimeExpiry_same (h := rfl) ..).pending rfl⟩
  | .preemptVerify .. => exact ⟨_, rfl, (execPreemptVerify_same (h := rfl) ..).pending rfl⟩
  | .elpFrameReceive .. => exact ⟨_, rfl, (execElpFrameReceive_same (h := rfl) ..).pending rfl⟩
  | .codewordUncorrectable .. => exact ⟨_, rfl, (execCodewordUncorrectable_same (h := rfl) ..).pending rfl⟩
  | .alignSend .. => exact ⟨_, rfl, (execAlignSend_same (h := rfl) ..).pending rfl⟩
  | .alignReceive .. => exact ⟨_, rfl, (execAlignReceive_same (h := rfl) ..).pending rfl⟩
  | .keepaliveSend .. => exact ⟨_, rfl, (execKeepaliveSend_same (h := rfl) ..).pending rfl⟩
  | .keepaliveReceive .. => exact ⟨_, rfl, (execKeepaliveReceive_same (h := rfl) ..).pending rfl⟩
  | .fencedSend .. => exact ⟨_, rfl, (execFencedSend_same (h := rfl) ..).pending rfl⟩
  | .fencedReceive .. => exact ⟨_, rfl, (execFencedReceive_same (h := rfl) ..).pending rfl⟩
  | .peerLost .. => exact ⟨_, rfl, (execPeerLost_same (h := rfl) ..).pending rfl⟩
  | .pcsLinkDown .. => exact ⟨_, rfl, (execPcsLinkDown_same (h := rfl) ..).pending rfl⟩
  | .pcsLinkUp .. => exact ⟨_, rfl, (execPcsLinkUp_same (h := rfl) ..).pending rfl⟩
  | .pauseOsReceive .. => exact ⟨_, rfl, (execPauseOsReceive_same (h := rfl) ..).pending rfl⟩
  | .farrierWindow .. => exact ⟨_, rfl, (execFarrierWindow_same (h := rfl) ..).pending rfl⟩
  | .laneFailure .. => exact ⟨_, rfl, (execLaneFailure_same (h := rfl) ..).pending rfl⟩
  | .spareAdapted .. => exact ⟨_, rfl, (execSpareAdapted_same (h := rfl) ..).pending rfl⟩
  | .spareTrained .. => exact ⟨_, rfl, (execSpareTrained_same (h := rfl) ..).pending rfl⟩
  | .laneReqReceive .. => exact ⟨_, rfl, (execLaneReqReceive_same (h := rfl) ..).pending rfl⟩
  | .laneAckReceive .. => exact ⟨_, rfl, (execLaneAckReceive_same (h := rfl) ..).pending rfl⟩
  | .laneNakReceive .. => exact ⟨_, rfl, (execLaneNakReceive_same (h := rfl) ..).pending rfl⟩
  | .laneReqTimeout .. => exact ⟨_, rfl, (execLaneReqTimeout_same (h := rfl) ..).pending rfl⟩
  | .laneMaskSwitch .. => exact ⟨_, rfl, (execLaneMaskSwitch_same (h := rfl) ..).pending rfl⟩
  | .laneDoneSend .. => exact ⟨_, rfl, (execLaneDoneSend_same (h := rfl) ..).pending rfl⟩
  | .laneDoneReceive .. => exact ⟨_, rfl, (execLaneDoneReceive_same (h := rfl) ..).pending rfl⟩
  | .frameTransmitStart .. => exact ⟨_, rfl, (execFrameTransmitStart_same (h := rfl) ..).pending rfl⟩
  | .frameTransmitEnd .. => exact ⟨_, rfl, (execFrameTransmitEnd_same (h := rfl) ..).pending rfl⟩
  | .meshSelfWrite .. => exact ⟨_, rfl, (execMeshSelfWrite_same (h := rfl) ..).pending rfl⟩
  | .meshArm .. => exact ⟨_, rfl, (execMeshArm_same (h := rfl) ..).pending rfl⟩
  | .meshDisarm .. => exact ⟨_, rfl, (execMeshDisarm_same (h := rfl) ..).pending rfl⟩
  | .routingTableWrite .. => exact ⟨_, rfl, (execRoutingTableWrite_same (h := rfl) ..).pending rfl⟩
  | .retainedBankRelease .. => exact ⟨_, rfl, (execRetainedBankRelease_same (h := rfl) ..).pending rfl⟩
  | .drainLimitExpiry .. => exact ⟨_, rfl, (execDrainLimitExpiry_same (h := rfl) ..).pending rfl⟩
  | .flowReturnPrimary .. => exact ⟨_, rfl, (execFlowReturnPrimary_same (h := rfl) ..).pending rfl⟩
  | .submit .. => exact ⟨_, rfl, (execSubmit_same (h := rfl) ..).pending rfl⟩
  | .admissionVerdict .. => exact ⟨_, rfl, (execAdmissionVerdict_same (h := rfl) ..).pending rfl⟩
  | .cancel .. => exact ⟨_, rfl, (execCancel_same (h := rfl) ..).pending rfl⟩
  | .scheduleTakeover .. => exact ⟨_, rfl, (execScheduleTakeover_same (h := rfl) ..).pending rfl⟩
  | .sampleRecord .. => exact ⟨_, rfl, (execSampleRecord_same (h := rfl) ..).pending rfl⟩
  | .kennelCreate .. => exact ⟨_, rfl, (execKennelCreate_same (h := rfl) ..).pending rfl⟩
  | .kennelModify .. => exact ⟨_, rfl, (execKennelModify_same (h := rfl) ..).pending rfl⟩
  | .kennelQuery .. => exact ⟨_, rfl, (execKennelQuery_same (h := rfl) ..).pending rfl⟩
  | .kennelDestroy .. => exact ⟨_, rfl, (execKennelDestroy_same (h := rfl) ..).pending rfl⟩
  | .retrieverFetchDone .. => exact ⟨_, rfl, (execRetrieverFetchDone_same (h := rfl) ..).pending rfl⟩
  | .workEntryStart .. => exact ⟨_, rfl, (execWorkEntryStart_same (h := rfl) ..).pending rfl⟩
  | .sendReceive .. => exact ⟨_, rfl, (execSendReceive_same (h := rfl) ..).pending rfl⟩
  | .writeReceive .. => exact ⟨_, rfl, (execWriteReceive_same (h := rfl) ..).pending rfl⟩
  | .readReqReceive .. => exact ⟨_, rfl, (execReadReqReceive_same (h := rfl) ..).pending rfl⟩
  | .atomicReceive .. => exact ⟨_, rfl, (execAtomicReceive_same (h := rfl) ..).pending rfl⟩
  | .readRespReceive .. => exact ⟨_, rfl, (execReadRespReceive_same (h := rfl) ..).pending rfl⟩
  | .atomicAckReceive .. => exact ⟨_, rfl, (execAtomicAckReceive_same (h := rfl) ..).pending rfl⟩
  | .ackReceive .. => exact ⟨_, rfl, (execAckReceive_same (h := rfl) ..).pending rfl⟩
  | .nakReceive .. => exact ⟨_, rfl, (execNakReceive_same (h := rfl) ..).pending rfl⟩
  | .rnrNakReceive .. => exact ⟨_, rfl, (execRnrNakReceive_same (h := rfl) ..).pending rfl⟩
  | .visAckReceive .. => exact ⟨_, rfl, (execVisAckReceive_same (h := rfl) ..).pending rfl⟩
  | .resyncReceive .. => exact ⟨_, rfl, (execResyncReceive_same (h := rfl) ..).pending rfl⟩
  | .retransmitTimeout .. => exact ⟨_, rfl, (execRetransmitTimeout_same (h := rfl) ..).pending rfl⟩
  | .rnrWaitExpiry .. => exact ⟨_, rfl, (execRnrWaitExpiry_same (h := rfl) ..).pending rfl⟩
  | .ackDelayExpiry .. => exact ⟨_, rfl, (execAckDelayExpiry_same (h := rfl) ..).pending rfl⟩
  | .visibilityReached .. => exact ⟨_, rfl, (execVisibilityReached_same (h := rfl) ..).pending rfl⟩
  | .pathHoldExpiry .. => exact ⟨_, rfl, (execPathHoldExpiry_same (h := rfl) ..).pending rfl⟩
  | .nopEntry .. => exact ⟨_, rfl, (execNopEntry_same (h := rfl) ..).pending rfl⟩
  | .send .. => exact ⟨_, rfl, (execSend_same (h := rfl) ..).pending rfl⟩
  | .sendImm .. => exact ⟨_, rfl, (execSendImm_same (h := rfl) ..).pending rfl⟩
  | .write .. => exact ⟨_, rfl, (execWrite_same (h := rfl) ..).pending rfl⟩
  | .writeImm .. => exact ⟨_, rfl, (execWriteImm_same (h := rfl) ..).pending rfl⟩
  | .read .. => exact ⟨_, rfl, (execRead_same (h := rfl) ..).pending rfl⟩
  | .cmpSwap .. => exact ⟨_, rfl, (execCmpSwap_same (h := rfl) ..).pending rfl⟩
  | .fetchAdd .. => exact ⟨_, rfl, (execFetchAdd_same (h := rfl) ..).pending rfl⟩
  | .copy .. => exact ⟨_, rfl, (execCopy_same (h := rfl) ..).pending rfl⟩
  | .invoke .. => exact ⟨_, rfl, (execInvoke_same (h := rfl) ..).pending rfl⟩
  | .openWindow .. => exact ⟨_, rfl, (execOpenWindow_same (h := rfl) ..).pending rfl⟩
  | .revokeWindow .. => exact ⟨_, rfl, (execRevokeWindow_same (h := rfl) ..).pending rfl⟩
  | .trigReset .. => exact ⟨_, rfl, (execTrigReset_same (h := rfl) ..).pending rfl⟩
  | .abort .. => exact ⟨_, rfl, (execAbort_same (h := rfl) ..).pending rfl⟩
  | .recvEntry .. => exact ⟨_, rfl, (execRecvEntry_same (h := rfl) ..).pending rfl⟩
  | .winRevoke .. => exact ⟨_, rfl, (execWinRevoke_same (h := rfl) ..).pending rfl⟩
  | .revocationFence .. => exact ⟨_, rfl, (execRevocationFence_same (h := rfl) ..).pending rfl⟩
  | .accessCommitted .. => exact ⟨_, rfl, (execAccessCommitted_same (h := rfl) ..).pending rfl⟩
  | .revocationComplete .. => exact ⟨_, rfl, (execRevocationComplete_same (h := rfl) ..).pending rfl⟩
  | .sheepBatchTimeout .. => exact ⟨_, rfl, (execSheepBatchTimeout_same (h := rfl) ..).pending rfl⟩
  | .sheepBatchWrite .. => exact ⟨_, rfl, (execSheepBatchWrite_same (h := rfl) ..).pending rfl⟩
  | .sheepResolve .. => exact ⟨_, rfl, (execSheepResolve_same (h := rfl) ..).pending rfl⟩
  | .sheepFail .. => exact ⟨_, rfl, (execSheepFail_same (h := rfl) ..).pending rfl⟩
  | .sheepTimeout .. => exact ⟨_, rfl, (execSheepTimeout_same (h := rfl) ..).pending rfl⟩
  | .sheepParkWrite .. => exact ⟨_, rfl, (execSheepParkWrite_same (h := rfl) ..).pending rfl⟩
  | .trigIncrement .. => exact ⟨_, rfl, (execTrigIncrement_same (h := rfl) ..).pending rfl⟩
  | .triggeredStart .. => exact ⟨_, rfl, (execTriggeredStart_same (h := rfl) ..).pending rfl⟩
  | .trigRangeWrite .. => exact ⟨_, rfl, (execTrigRangeWrite_same (h := rfl) ..).pending rfl⟩
  | .winShareWrite .. => exact ⟨_, rfl, (execWinShareWrite_same (h := rfl) ..).pending rfl⟩
  | .flr .. => exact ⟨_, rfl, (execFlr_same (h := rfl) ..).pending rfl⟩
  | .d3hotEntry .. => exact ⟨_, rfl, (execD3hotEntry_same (h := rfl) ..).pending rfl⟩
  | .hostPortDown .. => exact ⟨_, rfl, (execHostPortDown_same (h := rfl) ..).pending rfl⟩
  | .doorbellWq .. => exact ⟨_, rfl, (execDoorbellWq_same (h := rfl) ..).pending rfl⟩
  | .doorbellCq .. => exact ⟨_, rfl, (execDoorbellCq_same (h := rfl) ..).pending rfl⟩
  | .bar2BadAccess .. => exact ⟨_, rfl, (execBar2BadAccess_same (h := rfl) ..).pending rfl⟩
  | .bar4Read .. => exact ⟨_, rfl, (execBar4Read_same (h := rfl) ..).pending rfl⟩
  | .bar4Write .. => exact ⟨_, rfl, (execBar4Write_same (h := rfl) ..).pending rfl⟩
  | .b4CtlCommit .. => exact ⟨_, rfl, (execB4CtlCommit_same (h := rfl) ..).pending rfl⟩
  | .queueCreate .. => exact ⟨_, rfl, (execQueueCreate_same (h := rfl) ..).pending rfl⟩
  | .queueModify .. => exact ⟨_, rfl, (execQueueModify_same (h := rfl) ..).pending rfl⟩
  | .queueQuery .. => exact ⟨_, rfl, (execQueueQuery_same (h := rfl) ..).pending rfl⟩
  | .queueDestroy .. => exact ⟨_, rfl, (execQueueDestroy_same (h := rfl) ..).pending rfl⟩
  | .dcinv .. => exact ⟨_, rfl, (execDcinv_same (h := rfl) ..).pending rfl⟩
  | .entryFetchReturn .. => exact ⟨_, rfl, (execEntryFetchReturn_same (h := rfl) ..).pending rfl⟩
  | .refetchTimer .. => exact ⟨_, rfl, (execRefetchTimer_same (h := rfl) ..).pending rfl⟩
  | .cqModerationExpiry .. => exact ⟨_, rfl, (execCqModerationExpiry_same (h := rfl) ..).pending rfl⟩
  | .claim .. => exact ⟨_, rfl, (execClaim_same (h := rfl) ..).pending rfl⟩
  | .partAllocWrite .. => exact ⟨_, rfl, (execPartAllocWrite_same (h := rfl) ..).pending rfl⟩
  | .seal .. => exact ⟨_, rfl, (execSeal_same (h := rfl) ..).pending rfl⟩
  | .resume .. => exact ⟨_, rfl, (execResume_same (h := rfl) ..).pending rfl⟩
  | .partReset .. => exact ⟨_, rfl, (execPartReset_same (h := rfl) ..).pending rfl⟩
  | .release .. => exact ⟨_, rfl, (execRelease_same (h := rfl) ..).pending rfl⟩
  | .partitionResetDone .. => exact ⟨_, rfl, (execPartitionResetDone_same (h := rfl) ..).pending rfl⟩
  | .holdingWrite .. => exact ⟨_, rfl, (execHoldingWrite_same (h := rfl) ..).pending rfl⟩
  | .instCreate .. => exact ⟨_, rfl, (execInstCreate_same (h := rfl) ..).pending rfl⟩
  | .instReset .. => exact ⟨_, rfl, (execInstReset_same (h := rfl) ..).pending rfl⟩
  | .instDestroy .. => exact ⟨_, rfl, (execInstDestroy_same (h := rfl) ..).pending rfl⟩
  | .freeze .. => exact ⟨_, rfl, (execFreeze_same (h := rfl) ..).pending rfl⟩
  | .freezeComplete .. => exact ⟨_, rfl, (execFreezeComplete_same (h := rfl) ..).pending rfl⟩
  | .thaw .. => exact ⟨_, rfl, (execThaw_same (h := rfl) ..).pending rfl⟩
  | .save .. => exact ⟨_, rfl, (execSave_same (h := rfl) ..).pending rfl⟩
  | .restore .. => exact ⟨_, rfl, (execRestore_same (h := rfl) ..).pending rfl⟩
  | .partHostCtlWrite .. => exact ⟨_, rfl, (execPartHostCtlWrite_same (h := rfl) ..).pending rfl⟩
  | .hostKick host frame value => exact ⟨_, rfl, (execHostKick_same host frame value s rfl).pending rfl⟩
  | .hostWatchdogExpiry .. => exact ⟨_, rfl, (execHostWatchdogExpiry_same (h := rfl) ..).pending rfl⟩
  | .orphanGraceExpiry .. => exact ⟨_, rfl, (execOrphanGraceExpiry_same (h := rfl) ..).pending rfl⟩
  | .addSubAndOrXor .. => exact ⟨_, rfl, (execAddSubAndOrXor_same (h := rfl) ..).pending rfl⟩
  | .sllSrlSra .. => exact ⟨_, rfl, (execSllSrlSra_same (h := rfl) ..).pending rfl⟩
  | .sltSltu .. => exact ⟨_, rfl, (execSltSltu_same (h := rfl) ..).pending rfl⟩
  | .minMaxMinuMaxu .. => exact ⟨_, rfl, (execMinMaxMinuMaxu_same (h := rfl) ..).pending rfl⟩
  | .clzPopc .. => exact ⟨_, rfl, (execClzPopc_same (h := rfl) ..).pending rfl⟩
  | .mulMulhMulhu .. => exact ⟨_, rfl, (execMulMulhMulhu_same (h := rfl) ..).pending rfl⟩
  | .clmulClmulh .. => exact ⟨_, rfl, (execClmulClmulh_same (h := rfl) ..).pending rfl⟩
  | .addiAndiOriXori .. => exact ⟨_, rfl, (execAddiAndiOriXori_same (h := rfl) ..).pending rfl⟩
  | .shi .. => exact ⟨_, rfl, (execShi_same (h := rfl) ..).pending rfl⟩
  | .slti .. => exact ⟨_, rfl, (execSlti_same (h := rfl) ..).pending rfl⟩
  | .lui .. => exact ⟨_, rfl, (execLui_same (h := rfl) ..).pending rfl⟩
  | .luih .. => exact ⟨_, rfl, (execLuih_same (h := rfl) ..).pending rfl⟩
  | .lbLhLwLd .. => exact ⟨_, rfl, (execLbLhLwLd_same (h := rfl) ..).pending rfl⟩
  | .sbShSwSd .. => exact ⟨_, rfl, (execSbShSwSd_same (h := rfl) ..).pending rfl⟩
  | .beqBneBltBge .. => exact ⟨_, rfl, (execBeqBneBltBge_same (h := rfl) ..).pending rfl⟩
  | .jal .. => exact ⟨_, rfl, (execJal_same (h := rfl) ..).pending rfl⟩
  | .jalr .. => exact ⟨_, rfl, (execJalr_same (h := rfl) ..).pending rfl⟩
  | .loopi .. => exact ⟨_, rfl, (execLoopi_same (h := rfl) ..).pending rfl⟩
  | .loopr .. => exact ⟨_, rfl, (execLoopr_same (h := rfl) ..).pending rfl⟩
  | .csrr .. => exact ⟨_, rfl, (execCsrr_same (h := rfl) ..).pending rfl⟩
  | .csrw .. => exact ⟨_, rfl, (execCsrw_same (h := rfl) ..).pending rfl⟩
  | .fence .. => exact ⟨_, rfl, (execFence_same (h := rfl) ..).pending rfl⟩
  | .endEvent .. => exact ⟨_, rfl, (execEndEvent_same (h := rfl) ..).pending rfl⟩
  | .cmpl .. => exact ⟨_, rfl, (execCmpl_same (h := rfl) ..).pending rfl⟩
  | .brk .. => exact ⟨_, rfl, (execBrk_same (h := rfl) ..).pending rfl⟩
  | .slotw .. => exact ⟨_, rfl, (execSlotw_same (h := rfl) ..).pending rfl⟩
  | .slotwRelease .. => exact ⟨_, rfl, (execSlotwRelease_same (h := rfl) ..).pending rfl⟩
  | .bar .. => exact ⟨_, rfl, (execBar_same (h := rfl) ..).pending rfl⟩
  | .msg .. => exact ⟨_, rfl, (execMsg_same (h := rfl) ..).pending rfl⟩
  | .messageDelivery .. => exact ⟨_, rfl, (execMessageDelivery_same (h := rfl) ..).pending rfl⟩
  | .siga .. => exact ⟨_, rfl, (execSiga_same (h := rfl) ..).pending rfl⟩
  | .swait .. => exact ⟨_, rfl, (execSwait_same (h := rfl) ..).pending rfl⟩
  | .swaitRelease .. => exact ⟨_, rfl, (execSwaitRelease_same (h := rfl) ..).pending rfl⟩
  | .vld .. => exact ⟨_, rfl, (execVld_same (h := rfl) ..).pending rfl⟩
  | .vldr .. => exact ⟨_, rfl, (execVldr_same (h := rfl) ..).pending rfl⟩
  | .vst .. => exact ⟨_, rfl, (execVst_same (h := rfl) ..).pending rfl⟩
  | .vext .. => exact ⟨_, rfl, (execVext_same (h := rfl) ..).pending rfl⟩
  | .vins .. => exact ⟨_, rfl, (execVins_same (h := rfl) ..).pending rfl⟩
  | .vbcast .. => exact ⟨_, rfl, (execVbcast_same (h := rfl) ..).pending rfl⟩
  | .vaddVsubVmulVmaxVmin .. => exact ⟨_, rfl, (execVaddVsubVmulVmaxVmin_same (h := rfl) ..).pending rfl⟩
  | .vabsVneg .. => exact ⟨_, rfl, (execVabsVneg_same (h := rfl) ..).pending rfl⟩
  | .vandVorVxor .. => exact ⟨_, rfl, (execVandVorVxor_same (h := rfl) ..).pending rfl⟩
  | .vfma .. => exact ⟨_, rfl, (execVfma_same (h := rfl) ..).pending rfl⟩
  | .vcvt .. => exact ⟨_, rfl, (execVcvt_same (h := rfl) ..).pending rfl⟩
  | .vqmx .. => exact ⟨_, rfl, (execVqmx_same (h := rfl) ..).pending rfl⟩
  | .vdqmx .. => exact ⟨_, rfl, (execVdqmx_same (h := rfl) ..).pending rfl⟩
  | .vperm .. => exact ⟨_, rfl, (execVperm_same (h := rfl) ..).pending rfl⟩
  | .vhred .. => exact ⟨_, rfl, (execVhred_same (h := rfl) ..).pending rfl⟩
  | .tzero .. => exact ⟨_, rfl, (execTzero_same (h := rfl) ..).pending rfl⟩
  | .tld .. => exact ⟨_, rfl, (execTld_same (h := rfl) ..).pending rfl⟩
  | .tst .. => exact ⟨_, rfl, (execTst_same (h := rfl) ..).pending rfl⟩
  | .tmma .. => exact ⟨_, rfl, (execTmma_same (h := rfl) ..).pending rfl⟩
  | .tstream .. => exact ⟨_, rfl, (execTstream_same (h := rfl) ..).pending rfl⟩
  | .dmov .. => exact ⟨_, rfl, (execDmov_same (h := rfl) ..).pending rfl⟩
  | .dwait .. => exact ⟨_, rfl, (execDwait_same (h := rfl) ..).pending rfl⟩
  | .dwaitRelease .. => exact ⟨_, rfl, (execDwaitRelease_same (h := rfl) ..).pending rfl⟩
  | .aeseAesd .. => exact ⟨_, rfl, (execAeseAesd_same (h := rfl) ..).pending rfl⟩
  | .aesBlocksReturn .. => exact ⟨_, rfl, (execAesBlocksReturn_same (h := rfl) ..).pending rfl⟩
  | .redp .. => exact ⟨_, rfl, (execRedp_same (h := rfl) ..).pending rfl⟩
  | .wchk .. => exact ⟨_, rfl, (execWchk_same (h := rfl) ..).pending rfl⟩
  | .kldKst .. => exact ⟨_, rfl, (execKldKst_same (h := rfl) ..).pending rfl⟩
  | .watchdog .. => exact ⟨_, rfl, (execWatchdog_same (h := rfl) ..).pending rfl⟩
  | .eventStart .. => exact ⟨_, rfl, (execEventStart_same (h := rfl) ..).pending rfl⟩
  | .droverDescriptorTake .. => exact ⟨_, rfl, (execDroverDescriptorTake_same (h := rfl) ..).pending rfl⟩
  | .droverTransferDone .. => exact ⟨_, rfl, (execDroverTransferDone_same (h := rfl) ..).pending rfl⟩
  | .programLoad .. => exact ⟨_, rfl, (execProgramLoad_same (h := rfl) ..).pending rfl⟩
  | .programUnload .. => exact ⟨_, rfl, (execProgramUnload_same (h := rfl) ..).pending rfl⟩
  | .convProfileWrite .. => exact ⟨_, rfl, (execConvProfileWrite_same (h := rfl) ..).pending rfl⟩
  | .reductionRead .. => exact ⟨_, rfl, (execReductionRead_same (h := rfl) ..).pending rfl⟩
  | .segmentComplete .. => exact ⟨_, rfl, (execSegmentComplete_same (h := rfl) ..).pending rfl⟩
  | .stageFrameDelivery .. => exact ⟨_, rfl, (execStageFrameDelivery_same (h := rfl) ..).pending rfl⟩
  | .frameVerdict .. => exact ⟨_, rfl, (execFrameVerdict_same (h := rfl) ..).pending rfl⟩
  | .shift .. => exact ⟨_, rfl, (execShift_same (h := rfl) ..).pending rfl⟩
  | .permute .. => exact ⟨_, rfl, (execPermute_same (h := rfl) ..).pending rfl⟩
  | .reduce .. => exact ⟨_, rfl, (execReduce_same (h := rfl) ..).pending rfl⟩
  | .reduceScatter .. => exact ⟨_, rfl, (execReduceScatter_same (h := rfl) ..).pending rfl⟩
  | .allReduce .. => exact ⟨_, rfl, (execAllReduce_same (h := rfl) ..).pending rfl⟩
  | .barrier .. => exact ⟨_, rfl, (execBarrier_same (h := rfl) ..).pending rfl⟩
  | .barrierSetup .. => exact ⟨_, rfl, (execBarrierSetup_same (h := rfl) ..).pending rfl⟩
  | .chunkSignal .. => exact ⟨_, rfl, (execChunkSignal_same (h := rfl) ..).pending rfl⟩
  | .collectiveComplete .. => exact ⟨_, rfl, (execCollectiveComplete_same (h := rfl) ..).pending rfl⟩
  | .collectiveFail .. => exact ⟨_, rfl, (execCollectiveFail_same (h := rfl) ..).pending rfl⟩
  | .barrierTimeout .. => exact ⟨_, rfl, (execBarrierTimeout_same (h := rfl) ..).pending rfl⟩
  | .barrierWithdrawal .. => exact ⟨_, rfl, (execBarrierWithdrawal_same (h := rfl) ..).pending rfl⟩
  | .exactWrite .. => exact ⟨_, rfl, (execExactWrite_same (h := rfl) ..).pending rfl⟩
  | .detDigestDone .. => exact ⟨_, rfl, (execDetDigestDone_same (h := rfl) ..).pending rfl⟩
  | .tinkerBlockTest .. => exact ⟨_, rfl, (execTinkerBlockTest_same (h := rfl) ..).pending rfl⟩
  | .ddrAlert .. => exact ⟨_, rfl, (execDdrAlert_same (h := rfl) ..).pending rfl⟩
  | .scrubLine .. => exact ⟨_, rfl, (execScrubLine_same (h := rfl) ..).pending rfl⟩
  | .ddrRefresh .. => exact ⟨_, rfl, (execDdrRefresh_same (h := rfl) ..).pending rfl⟩
  | .regionWrite .. => exact ⟨_, rfl, (execRegionWrite_same (h := rfl) ..).pending rfl⟩
  | .zeroFillDone .. => exact ⟨_, rfl, (execZeroFillDone_same (h := rfl) ..).pending rfl⟩
  | .memRspillWrite .. => exact ⟨_, rfl, (execMemRspillWrite_same (h := rfl) ..).pending rfl⟩
  | .memImgWrite .. => exact ⟨_, rfl, (execMemImgWrite_same (h := rfl) ..).pending rfl⟩
  | .nonce .. => exact ⟨_, rfl, (execNonce_same (h := rfl) ..).pending rfl⟩
  | .nonceExpiry .. => exact ⟨_, rfl, (execNonceExpiry_same (h := rfl) ..).pending rfl⟩
  | .dbgUnlock .. => exact ⟨_, rfl, (execDbgUnlock_same (h := rfl) ..).pending rfl⟩
  | .evictionDone .. => exact ⟨_, rfl, (execEvictionDone_same (h := rfl) ..).pending rfl⟩
  | .dbgLower .. => exact ⟨_, rfl, (execDbgLower_same (h := rfl) ..).pending rfl⟩
  | .lcAdvance .. => exact ⟨_, rfl, (execLcAdvance_same (h := rfl) ..).pending rfl⟩
  | .attest .. => exact ⟨_, rfl, (execAttest_same (h := rfl) ..).pending rfl⟩
  | .identity .. => exact ⟨_, rfl, (execIdentity_same (h := rfl) ..).pending rfl⟩
  | .extend .. => exact ⟨_, rfl, (execExtend_same (h := rfl) ..).pending rfl⟩
  | .fuseKey .. => exact ⟨_, rfl, (execFuseKey_same (h := rfl) ..).pending rfl⟩
  | .mctpRequest .. => exact ⟨_, rfl, (execMctpRequest_same (h := rfl) ..).pending rfl⟩
  | .alarm .. => exact ⟨_, rfl, (execAlarm_same (h := rfl) ..).pending rfl⟩
  | .keyLoad .. => exact ⟨_, rfl, (execKeyLoad_same (h := rfl) ..).pending rfl⟩
  | .keyErase .. => exact ⟨_, rfl, (execKeyErase_same (h := rfl) ..).pending rfl⟩
  | .ideKmMessage .. => exact ⟨_, rfl, (execIdeKmMessage_same (h := rfl) ..).pending rfl⟩
  | .tallyWindowEnd .. => exact ⟨_, rfl, (execTallyWindowEnd_same (h := rfl) ..).pending rfl⟩
  | .tallyBudgetWrite .. => exact ⟨_, rfl, (execTallyBudgetWrite_same (h := rfl) ..).pending rfl⟩
  | .clusterUngated .. => exact ⟨_, rfl, (execClusterUngated_same (h := rfl) ..).pending rfl⟩
  | .powerCap .. => exact ⟨_, rfl, (execPowerCap_same (h := rfl) ..).pending rfl⟩
  | .capGraceExpiry .. => exact ⟨_, rfl, (execCapGraceExpiry_same (h := rfl) ..).pending rfl⟩
  | .powerCapRelease .. => exact ⟨_, rfl, (execPowerCapRelease_same (h := rfl) ..).pending rfl⟩
  | .standby .. => exact ⟨_, rfl, (execStandby_same (h := rfl) ..).pending rfl⟩
  | .wake .. => exact ⟨_, rfl, (execWake_same (h := rfl) ..).pending rfl⟩
  | .powerOn .. => exact ⟨_, rfl, (execPowerOn_same (h := rfl) ..).pending rfl⟩
  | .powerLoss .. => exact ⟨_, rfl, (execPowerLoss_same (h := rfl) ..).pending rfl⟩
  | .mainPgTimeout .. => exact ⟨_, rfl, (execMainPgTimeout_same (h := rfl) ..).pending rfl⟩
  | .mainPgFall .. => exact ⟨_, rfl, (execMainPgFall_same (h := rfl) ..).pending rfl⟩
  | .go .. => exact ⟨_, rfl, (execGo_same (h := rfl) ..).pending rfl⟩
  | .crierSegmentReceive .. => exact ⟨_, rfl, (execCrierSegmentReceive_same (h := rfl) ..).pending rfl⟩
  | .crierGapReport .. => exact ⟨_, rfl, (execCrierGapReport_same (h := rfl) ..).pending rfl⟩
  | .crierReportWindow .. => exact ⟨_, rfl, (execCrierReportWindow_same (h := rfl) ..).pending rfl⟩
  | .warmReset .. => exact ⟨_, rfl, (execWarmReset_same (h := rfl) ..).pending rfl⟩
  | .computeReset .. => exact ⟨_, rfl, (execComputeReset_same (h := rfl) ..).pending rfl⟩
  | .computeResetCleared .. => exact ⟨_, rfl, (execComputeResetCleared_same (h := rfl) ..).pending rfl⟩
  | .computeResume .. => exact ⟨_, rfl, (execComputeResume_same (h := rfl) ..).pending rfl⟩
  | .fatalError .. => exact ⟨_, rfl, (execFatalError_same (h := rfl) ..).pending rfl⟩
  | .portReset .. => exact ⟨_, rfl, (execPortReset_same (h := rfl) ..).pending rfl⟩
  | .portTrained .. => exact ⟨_, rfl, (execPortTrained_same (h := rfl) ..).pending rfl⟩
  | .eventGatherExpiry .. => exact ⟨_, rfl, (execEventGatherExpiry_same (h := rfl) ..).pending rfl⟩
  | .eventRecordWrite .. => exact ⟨_, rfl, (execEventRecordWrite_same (h := rfl) ..).pending rfl⟩
  | .eventVectorDelay .. => exact ⟨_, rfl, (execEventVectorDelay_same (h := rfl) ..).pending rfl⟩
  | .htcWatchdog .. => exact ⟨_, rfl, (execHtcWatchdog_same (h := rfl) ..).pending rfl⟩
  | .aliveNToggle .. => exact ⟨_, rfl, (execAliveNToggle_same (h := rfl) ..).pending rfl⟩
  | .queueSampleInterval .. => exact ⟨_, rfl, (execQueueSampleInterval_same (h := rfl) ..).pending rfl⟩
  | .stickyClear .. => exact ⟨_, rfl, (execStickyClear_same (h := rfl) ..).pending rfl⟩
  | .ptpMessageSend .. => exact ⟨_, rfl, (execPtpMessageSend_same (h := rfl) ..).pending rfl⟩
  | .hostPortUp .. => exact ⟨_, rfl, (execHostPortUp_same (h := rfl) ..).pending rfl⟩
  | .d3hotExit .. => exact ⟨_, rfl, (execD3hotExit_same (h := rfl) ..).pending rfl⟩
  | .conventionalReset .. => exact ⟨_, rfl, (execConventionalReset_same (h := rfl) ..).pending rfl⟩
  | .debugHalt .. => exact ⟨_, rfl, (execDebugHalt_same (h := rfl) ..).pending rfl⟩
  | .debugResume .. => exact ⟨_, rfl, (execDebugResume_same (h := rfl) ..).pending rfl⟩
  | .sparePreloadDone .. => exact ⟨_, rfl, (execSparePreloadDone_same (h := rfl) ..).pending rfl⟩
  | .alarmConditionEnd .. => exact ⟨_, rfl, (execAlarmConditionEnd_same (h := rfl) ..).pending rfl⟩
  | .ucieLaneRepair .. => exact ⟨_, rfl, (execUcieLaneRepair_same (h := rfl) ..).pending rfl⟩
  | .spdmMessage .. => exact ⟨_, rfl, (execSpdmMessage_same (h := rfl) ..).pending rfl⟩

theorem step_of_pending_nil {s : State} (h : s.pending = []) : step s = .next (coreCycle s) := by
  unfold step; rw [h]

theorem step_of_pending_cons {s : State} {c : Instr} {rest : List Instr} (h : s.pending = c :: rest) :
    step s = exec c { s with pending := rest } := by
  unfold step; rw [h]

/-- A step takes one command off the queue and adds none. -/
theorem step_shortens (s : State) : ∃ t, step s = .next t ∧ t.pending = s.pending.tail := by
  cases h : s.pending with
  | nil => exact ⟨_, step_of_pending_nil h, ((coreCycle_same s).pending rfl).trans h⟩
  | cons c rest =>
    rw [step_of_pending_cons h]
    exact exec_keeps_pending c { s with pending := rest }

/-- Settles O52: `step` is defined by the front of the queue. -/
theorem stepRunsFront : Obligations.StepRunsFront := by
  unfold Obligations.StepRunsFront
  exact fun _ _ _ => step_of_pending_cons

/-- Settles O54: the frames of the 306 commands and of the core cycle leave the queue out. -/
theorem everyStepShortensTheQueue : Obligations.EveryStepShortensTheQueue := by
  unfold Obligations.EveryStepShortensTheQueue
  refine ⟨step_shortens, fun n s t hn h => ?_⟩
  obtain ⟨u, hu, hp⟩ := step_shortens s
  obtain rfl : u = t := by injection hu.symm.trans h
  rw [hp, List.length_tail]
  omega

end Sys2Proof.Machine.Proofs
end

section
/-! PROOFS. BAR0 accesses (00_scope.md R6 to R10): where a write or a read goes, register by register. -/

namespace Sys2Proof.Machine.Proofs

open Laws

/-! Frames as equations -/

/-- The state `s` with the parts of `t` whose bit is set in the mask `m`, numbered as in `Same`. -/
def patch (m : Nat) (s t : State) : State where
  pending := bif m.testBit 0 then t.pending else s.pending
  regs := bif m.testBit 1 then t.regs else s.regs
  time := bif m.testBit 2 then t.time else s.time
  scriv := bif m.testBit 3 then t.scriv else s.scriv
  host0 := bif m.testBit 4 then t.host0 else s.host0
  host1 := bif m.testBit 5 then t.host1 else s.host1
  sched := bif m.testBit 6 then t.sched else s.sched
  ports := bif m.testBit 7 then t.ports else s.ports
  mesh := bif m.testBit 8 then t.mesh else s.mesh
  rxq := bif m.testBit 9 then t.rxq else s.rxq
  held := bif m.testBit 10 then t.held else s.held
  stageIn := bif m.testBit 11 then t.stageIn else s.stageIn
  preReady := bif m.testBit 12 then t.preReady else s.preReady
  qps := bif m.testBit 13 then t.qps else s.qps
  kennel := bif m.testBit 14 then t.kennel else s.kennel
  wins := bif m.testBit 15 then t.wins else s.wins
  sheep0 := bif m.testBit 16 then t.sheep0 else s.sheep0
  sheep1 := bif m.testBit 17 then t.sheep1 else s.sheep1
  tiles := bif m.testBit 18 then t.tiles else s.tiles
  tileNext := bif m.testBit 19 then t.tileNext else s.tileNext
  trigs := bif m.testBit 20 then t.trigs else s.trigs
  trigPend := bif m.testBit 21 then t.trigPend else s.trigPend
  queues := bif m.testBit 22 then t.queues else s.queues
  cores := bif m.testBit 23 then t.cores else s.cores
  clusters := bif m.testBit 24 then t.clusters else s.clusters
  handles := bif m.testBit 25 then t.handles else s.handles
  spares := bif m.testBit 26 then t.spares else s.spares
  digests := bif m.testBit 27 then t.digests else s.digests
  sec := bif m.testBit 28 then t.sec else s.sec
  parts := bif m.testBit 29 then t.parts else s.parts
  colls := bif m.testBit 30 then t.colls else s.colls
  collEnds := bif m.testBit 31 then t.collEnds else s.collEnds
  redEnds := bif m.testBit 32 then t.redEnds else s.redEnds
  collNext := bif m.testBit 33 then t.collNext else s.collNext
  bars := bif m.testBit 34 then t.bars else s.bars
  boot := bif m.testBit 35 then t.boot else s.boot
  memsys := bif m.testBit 36 then t.memsys else s.memsys
  portRst := bif m.testBit 37 then t.portRst else s.portRst
  tally := bif m.testBit 38 then t.tally else s.tally
  pins := bif m.testBit 39 then t.pins else s.pins
  ddrBad := bif m.testBit 40 then t.ddrBad else s.ddrBad
  hostMem0 := bif m.testBit 41 then t.hostMem0 else s.hostMem0
  hostMem1 := bif m.testBit 42 then t.hostMem1 else s.hostMem1
  poisoned := bif m.testBit 43 then t.poisoned else s.poisoned
  ddr := bif m.testBit 44 then t.ddr else s.ddr
  out := bif m.testBit 45 then t.out else s.out
  freeCtr := bif m.testBit 46 then t.freeCtr else s.freeCtr

theorem eq_cond_of_eq {α : Type} {b : Bool} {x y : α} (h : b = false → x = y) : x = bif b then x else y := by
  cases b with
  | false => exact h rfl
  | true => rfl

/-- A frame as one equation. For a mask that is a numeral the right side is `s` with the parts of `t` that the mask names. -/
theorem eq_patch_of_same {m : Nat} {s t : State} (h : Same m s t) : t = patch m s t := by
  rw [patch,
    ← eq_cond_of_eq h.pending, ← eq_cond_of_eq h.regs, ← eq_cond_of_eq h.time, ← eq_cond_of_eq h.scriv, ← eq_cond_of_eq h.host0,
    ← eq_cond_of_eq h.host1, ← eq_cond_of_eq h.sched, ← eq_cond_of_eq h.ports, ← eq_cond_of_eq h.mesh, ← eq_cond_of_eq h.rxq,
    ← eq_cond_of_eq h.held, ← eq_cond_of_eq h.stageIn, ← eq_cond_of_eq h.preReady, ← eq_cond_of_eq h.qps, ← eq_cond_of_eq h.kennel,
    ← eq_cond_of_eq h.wins, ← eq_cond_of_eq h.sheep0, ← eq_cond_of_eq h.sheep1, ← eq_cond_of_eq h.tiles, ← eq_cond_of_eq h.tileNext,
    ← eq_cond_of_eq h.trigs, ← eq_cond_of_eq h.trigPend, ← eq_cond_of_eq h.queues, ← eq_cond_of_eq h.cores, ← eq_cond_of_eq h.clusters,
    ← eq_cond_of_eq h.handles, ← eq_cond_of_eq h.spares, ← eq_cond_of_eq h.digests, ← eq_cond_of_eq h.sec, ← eq_cond_of_eq h.parts,
    ← eq_cond_of_eq h.colls, ← eq_cond_of_eq h.collEnds, ← eq_cond_of_eq h.redEnds, ← eq_cond_of_eq h.collNext, ← eq_cond_of_eq h.bars,
    ← eq_cond_of_eq h.boot, ← eq_cond_of_eq h.memsys, ← eq_cond_of_eq h.portRst, ← eq_cond_of_eq h.tally, ← eq_cond_of_eq h.pins,
    ← eq_cond_of_eq h.ddrBad, ← eq_cond_of_eq h.hostMem0, ← eq_cond_of_eq h.hostMem1, ← eq_cond_of_eq h.poisoned, ← eq_cond_of_eq h.ddr,
    ← eq_cond_of_eq h.out, ← eq_cond_of_eq h.freeCtr]

/-! Where an access arrives -/

theorem funcOpen_of_bar0Reach {s : State} {h : HostId} {off : Nat} (hr : s.bar0Reach h off = true) : s.funcOpen h = true := by
  unfold State.bar0Reach at hr
  exact (Bool.and_eq_true_iff.mp hr).1

theorem accessOk_word {off : Nat} (h : off % 4 = 0) : accessOk off 4 = true := by
  simp [accessOk, h]

/-! Accesses of a wrong width or alignment (R7) -/

theorem badAccessEff_closed {s : State} {h : HostId} (write : Bool) (off n : Nat) (hf : s.funcOpen h = false) :
    badAccessEff h write off n s = s := by
  simp [badAccessEff, hf]

theorem badAccessEff_arrives {s : State} {h : HostId} {off : Nat} (write : Bool) (n : Nat) (hr : s.bar0Reach h off = true)
    (hw : s.boot.warm = false) :
    badAccessEff h write off n s
      = if write then s.writeIgnored h off else (s.writeIgnored h off).emit (.readData h 0 off (List.replicate n 0xFF)) := by
  simp [badAccessEff, funcOpen_of_bar0Reach hr, hr, hw]

theorem badAccessEff_lost {s : State} {h : HostId} {off : Nat} (write : Bool) (n : Nat) (hf : s.funcOpen h = true)
    (hl : s.bar0Reach h off = false ∨ s.boot.warm = true) :
    badAccessEff h write off n s = if write then s else s.emit (.readData h 0 off (List.replicate n 0xFF)) := by
  rcases hl with hl | hl <;> simp [badAccessEff, hf, hl]

theorem badAccessEff_write_lost {s : State} {h : HostId} {off : Nat} (n : Nat) (hl : s.bar0Reach h off = false ∨ s.boot.warm = true) :
    badAccessEff h true off n s = s := by
  cases hf : s.funcOpen h with
  | false => exact badAccessEff_closed true off n hf
  | true => simp [badAccessEff_lost true n hf hl]

/-! Writes -/

theorem openWrite_lost {s : State} {h : HostId} {off : Nat} (act : State → State) (hl : s.bar0Reach h off = false ∨ s.boot.warm = true) :
    s.openWrite h off act = s := by
  rcases hl with hl | hl <;> simp [State.openWrite, hl]

theorem openWrite_closed {s : State} {h : HostId} {off : Nat} (act : State → State) (hr : s.bar0Reach h off = true)
    (hw : s.boot.warm = false) (hp : s.preReady = true) (ho : preReadyOpen off = false) : s.openWrite h off act = s.writeIgnored h off := by
  simp [State.openWrite, hr, hw, hp, ho]

theorem openWrite_acts {s : State} {h : HostId} {off : Nat} (act : State → State) (hr : s.bar0Reach h off = true)
    (hw : s.boot.warm = false) (hp : s.preReady = false ∨ preReadyOpen off = true) : s.openWrite h off act = act s := by
  rcases hp with hp | hp <;> simp [State.openWrite, hr, hw, hp]

theorem hostWrite_turnedAway {s : State} {h : HostId} {off : Nat} {r : RegRow} {idx : List Nat} (act : State → State)
    (hr : s.bar0Reach h off = true) (hw : s.boot.warm = false) (hp : s.preReady = false ∨ preReadyOpen off = true)
    (hreg : regAt? off = some (r, idx)) (hno : s.writerOk r idx h = false) : s.hostWrite h off act = s.writeIgnored h off := by
  unfold State.hostWrite
  rw [openWrite_acts _ hr hw hp]
  simp [hreg, hno]

theorem mayWrite_of_writerOk {s : State} {h : HostId} {off : Nat} {r : RegRow} {idx : List Nat} (hreg : regAt? off = some (r, idx))
    (hok : s.writerOk r idx h = true) : MayWrite s h off := by
  simp [MayWrite, hreg, hok]

theorem writeWord_nowhere {s : State} {h : HostId} {off : Nat} (v : Word) (x : WriteSide) (hreg : regAt? off = none)
    (hp : s.preReady = false) : s.writeWord h off v x = s := by
  simp [State.writeWord, hreg, State.openWrite, hp]

theorem writeWord_register {s : State} {h : HostId} {off : Nat} {r : RegRow} {idx : List Nat} (v : Word) (x : WriteSide)
    (hreg : regAt? off = some (r, idx)) (hb : r.base ≠ Reg.PART_CTL.off 0) :
    s.writeWord h off v x = s.hostWrite h off (writeEff h r idx off v x) := by
  simp [State.writeWord, hreg, hb]

theorem writeWord_lost {s : State} {h : HostId} {off : Nat} (v : Word) (x : WriteSide)
    (hl : s.bar0Reach h off = false ∨ s.boot.warm = true) (hb : (regAt? off).map (·.1.base) ≠ some (Reg.PART_CTL.off 0)) :
    s.writeWord h off v x = s := by
  cases hreg : regAt? off with
  | none =>
    unfold State.writeWord
    rw [hreg]
    exact openWrite_lost id hl
  | some e =>
    obtain ⟨r, idx⟩ := e
    rw [writeWord_register v x hreg (by simpa [hreg] using hb)]
    exact openWrite_lost _ hl

theorem bar0WriteEff_bad {h : HostId} {off : Nat} {wide : Bool} (v : BitVec 64) (x : WriteSide) (s : State)
    (ha : accessOk off (if wide then 8 else 4) = false) :
    bar0WriteEff h off v wide x s = badAccessEff h true off (if wide then 8 else 4) s := by
  simp [bar0WriteEff, ha]

theorem bar0WriteEff_wide {h : HostId} {off : Nat} (v : BitVec 64) (x : WriteSide) (s : State) (ha : accessOk off 8 = true) :
    bar0WriteEff h off v true x s = (s.writeWord h (off + 4) (v.extractLsb' 32 32) x).writeWord h off (v.setWidth 32) x := by
  simp [bar0WriteEff, ha]

theorem bar0WriteEff_narrow {h : HostId} {off : Nat} (v : BitVec 64) (x : WriteSide) (s : State) (ha : accessOk off 4 = true) :
    bar0WriteEff h off v false x s = s.writeWord h off (v.setWidth 32) x := by
  simp [bar0WriteEff, ha]

/-! Reads -/

theorem bar0ReadEff_closed {s : State} {h : HostId} (off n : Nat) (hf : s.funcOpen h = false) : bar0ReadEff h off n s = s := by
  simp [bar0ReadEff, hf]

theorem bar0ReadEff_lost {s : State} {h : HostId} {off n : Nat} (hf : s.funcOpen h = true) (ha : accessOk off n = true)
    (hl : s.bar0Reach h off = false ∨ (s.boot.warm = true ∧ warmReadable off = false)) :
    bar0ReadEff h off n s = s.emit (.readData h 0 off (List.replicate n 0xFF)) := by
  rcases hl with hl | ⟨hw, hl⟩
  · simp [bar0ReadEff, hf, ha, hl]
  · simp [bar0ReadEff, hf, ha, hw, hl]

theorem bar0ReadEff_narrow {s : State} {h : HostId} {off : Nat} (ha : accessOk off 4 = true) (hr : s.bar0Reach h off = true)
    (hw : s.boot.warm = false) :
    bar0ReadEff h off 4 s = (s.readWord off).1.emit (.readData h 0 off (leBytes 4 (s.readWord off).2.toNat)) := by
  simp [bar0ReadEff, funcOpen_of_bar0Reach hr, ha, hr, hw]

theorem bar0ReadEff_wide {s : State} {h : HostId} {off : Nat} (ha : accessOk off 8 = true) (hr : s.bar0Reach h off = true)
    (hw : s.boot.warm = false) :
    bar0ReadEff h off 8 s = ((s.readWord off).1.readWord (off + 4)).1.emit
      (.readData h 0 off (leBytes 4 (s.readWord off).2.toNat ++ leBytes 4 ((s.readWord off).1.readWord (off + 4)).2.toNat)) := by
  simp [bar0ReadEff, funcOpen_of_bar0Reach hr, ha, hr, hw]

theorem readWord_register {off : Nat} (s : State) (h : pbaAt? off = none) : s.readWord off = (s.regRead off, s.regValue off) := by
  simp [State.readWord, h]

theorem readWord_pba {off : Nat} {k : HostId} {i : Nat} (s : State) (h : pbaAt? off = some (k, i)) :
    s.readWord off = (s, s.pbaWord k i) := by
  simp [State.readWord, h]

/-! A register all of whose fields are RW (Table 0.4) -/

/-- Two fields of one register share no bit. -/
abbrev ApartRows (f g : FldRow) : Prop := f.lo + f.w ≤ g.lo ∨ g.lo + g.w ≤ f.lo

/-- A field that a write gives its value where the value is in the field's range. -/
abbrev PlainRow (f : FldRow) : Prop := f.acc = .rw ∧ f.lo + f.w ≤ 32

theorem wordField_lt (v : Word) (lo w : Nat) : wordField v lo w < 2 ^ w := (v.extractLsb' lo w).isLt

theorem apply_plain {f : FldRow} (hf : PlainRow f) (locked : Bool) (cur v : Word) :
    f.apply locked cur v
      = if f.min ≤ wordField v f.lo f.w ∧ wordField v f.lo f.w ≤ f.max then wordSet cur f.lo f.w (wordField v f.lo f.w) else cur := by
  simp [FldRow.apply, hf.1]

theorem wordField_apply_self {f : FldRow} (hf : PlainRow f) (locked : Bool) (cur v : Word) :
    wordField (f.apply locked cur v) f.lo f.w
      = if f.min ≤ wordField v f.lo f.w ∧ wordField v f.lo f.w ≤ f.max then wordField v f.lo f.w else wordField cur f.lo f.w := by
  rw [apply_plain hf]
  split
  · rw [wordField_wordSet_self _ _ _ _ hf.2, Nat.mod_eq_of_lt (wordField_lt v _ _)]
  · rfl

theorem wordField_apply_apart {f g : FldRow} (hf : PlainRow f) (hg : PlainRow g) (h : ApartRows f g) (locked : Bool) (cur v : Word) :
    wordField (f.apply locked cur v) g.lo g.w = wordField cur g.lo g.w := by
  rw [apply_plain hf]
  split
  · exact wordField_wordSet_disjoint _ _ _ _ _ _ hf.2 hg.2 h
  · rfl

theorem wordField_foldl_apply_apart {g : FldRow} (hg : PlainRow g) {fs : List FldRow} (hfs : ∀ f ∈ fs, PlainRow f ∧ ApartRows f g)
    (locked : Bool) (cur v : Word) : wordField (fs.foldl (fun cur f => f.apply locked cur v) cur) g.lo g.w = wordField cur g.lo g.w := by
  induction fs generalizing cur with
  | nil => rfl
  | cons f fs ih =>
    obtain ⟨⟨hf, ha⟩, hfs⟩ := List.forall_mem_cons.mp hfs
    rw [List.foldl_cons, ih hfs, wordField_apply_apart hf hg ha]

/-- A write of a register whose fields are all RW and share no bit gives each field its value where that is in the field's range, and
leaves the field as it was where it is not. -/
theorem wordField_foldl_apply {fs : List FldRow} (hp : ∀ f ∈ fs, PlainRow f) (ha : fs.Pairwise ApartRows) {g : FldRow} (hg : g ∈ fs)
    (locked : Bool) (cur v : Word) :
    wordField (fs.foldl (fun cur f => f.apply locked cur v) cur) g.lo g.w
      = if g.min ≤ wordField v g.lo g.w ∧ wordField v g.lo g.w ≤ g.max then wordField v g.lo g.w else wordField cur g.lo g.w := by
  induction fs generalizing cur with
  | nil => cases hg
  | cons f fs ih =>
    obtain ⟨hf, hfs⟩ := List.forall_mem_cons.mp hp
    obtain ⟨hfa, hapart⟩ := List.pairwise_cons.mp ha
    rw [List.foldl_cons]
    rcases List.mem_cons.mp hg with rfl | hg
    · rw [wordField_foldl_apply_apart hf (fun k hk => ⟨hfs k hk, (hfa k hk).symm⟩), wordField_apply_self hf]
    · rw [ih hfs hapart hg, wordField_apply_apart hf (hfs g hg) (hfa g hg)]

/-! TALLY_PLAN, a plain register -/

/-- The fields of TALLY_PLAN. -/
def planFields : List FldRow :=
  [⟨0, 1, .rw, 1, 0, 1⟩, ⟨1, 1, .rw, 1, 0, 1⟩, ⟨2, 1, .rw, 1, 0, 1⟩, ⟨8, 8, .rw, 10, 1, 255⟩, ⟨16, 8, .rw, 10, 1, 255⟩,
   ⟨24, 8, .rw, 100, 1, 255⟩]

/-- The row of TALLY_PLAN. -/
def planRow : RegRow := ⟨"TALLY_PLAN", Reg.TALLY_PLAN.off, [], .boot, planFields⟩

theorem regAt_tallyPlan : regAt? Reg.TALLY_PLAN.off = some (planRow, []) := rfl

theorem writeEff_tallyPlan (h : HostId) (v : Word) (x : WriteSide) (s : State) :
    writeEff h planRow [] Reg.TALLY_PLAN.off v x s = s.applyFields planRow Reg.TALLY_PLAN.off v := rfl

theorem planFields_plain : ∀ f ∈ planFields, PlainRow f := by decide

theorem planFields_apart : planFields.Pairwise ApartRows := by decide

/-- A field of TALLY_PLAN after a write. -/
theorem get_applyFields_tallyPlan (s : State) (v : Word) {g : FldRow} (hg : g ∈ planFields) :
    (s.applyFields planRow Reg.TALLY_PLAN.off v).get ⟨Reg.TALLY_PLAN.off, g.lo, g.w⟩
      = if g.min ≤ wordField v g.lo g.w ∧ wordField v g.lo g.w ≤ g.max then wordField v g.lo g.w
        else s.get ⟨Reg.TALLY_PLAN.off, g.lo, g.w⟩ := by
  unfold State.get State.applyFields
  rw [reg_setReg_self]
  exact wordField_foldl_apply planFields_plain planFields_apart hg _ _ _

/-- An enable bit of TALLY_PLAN takes any value. -/
theorem tallyPlan_enable (s : State) (v : Word) {lo : Nat} (hg : (⟨lo, 1, .rw, 1, 0, 1⟩ : FldRow) ∈ planFields) :
    (s.applyFields planRow Reg.TALLY_PLAN.off v).get ⟨Reg.TALLY_PLAN.off, lo, 1⟩ = wordField v lo 1 := by
  have hlt := wordField_lt v lo 1
  rw [get_applyFields_tallyPlan s v hg]
  exact if_pos ⟨Nat.zero_le _, Nat.le_of_lt_succ hlt⟩

/-- A number of TALLY_PLAN takes any value but 0. -/
theorem tallyPlan_number (s : State) (v : Word) {lo : Nat} (hg : (⟨lo, 8, .rw, 10, 1, 255⟩ : FldRow) ∈ planFields)
    (hv : wordField v lo 8 ≠ 0) : (s.applyFields planRow Reg.TALLY_PLAN.off v).get ⟨Reg.TALLY_PLAN.off, lo, 8⟩ = wordField v lo 8 := by
  have hlt := wordField_lt v lo 8
  rw [get_applyFields_tallyPlan s v hg]
  exact if_pos ⟨Nat.pos_of_ne_zero hv, Nat.le_of_lt_succ hlt⟩

theorem tallyPlan_number_zero (s : State) (v : Word) {lo : Nat} (hg : (⟨lo, 8, .rw, 10, 1, 255⟩ : FldRow) ∈ planFields)
    (hv : wordField v lo 8 = 0) :
    (s.applyFields planRow Reg.TALLY_PLAN.off v).get ⟨Reg.TALLY_PLAN.off, lo, 8⟩ = s.get ⟨Reg.TALLY_PLAN.off, lo, 8⟩ := by
  rw [get_applyFields_tallyPlan s v hg]
  exact if_neg fun h => by simp [hv] at h

/-- A taken write of TALLY_PLAN writes its fields. -/
theorem bar0WriteEff_tallyPlan {s : State} {h : HostId} (v : Word) (x : WriteSide) (ht : Takes s h Reg.TALLY_PLAN.off) :
    bar0WriteEff h (BitVec.ofNat 24 Reg.TALLY_PLAN.off).toNat (v.setWidth 64) false x s
      = s.applyFields planRow Reg.TALLY_PLAN.off v := by
  have hv : (v.setWidth 64).setWidth 32 = v := by simp
  change bar0WriteEff h Reg.TALLY_PLAN.off (v.setWidth 64) false x s = _
  rw [bar0WriteEff_narrow _ x s rfl, writeWord_register _ x regAt_tallyPlan (by decide), hv, hostWrite_takes _ ht, writeEff_tallyPlan]

/-! HOSTIF_DB_REJ, a counter that a read clears -/

/-- The row of HOSTIF_DB_REJ. -/
def dbRejRow : RegRow := ⟨"HOSTIF_DB_REJ", Reg.HOSTIF_DB_REJ.off 0, [(2, 0x10000)], .host 0, [⟨0, 32, .rc, 0, 0, 4294967295⟩]⟩

theorem regAt_dbRej (k : HostId) : regAt? (Reg.HOSTIF_DB_REJ.off k) = some (dbRejRow, [k.val]) := by
  match k with
  | 0 => rfl
  | 1 => rfl

theorem regRead_dbRej (s : State) (k : HostId) : s.regRead (Reg.HOSTIF_DB_REJ.off k) = s.put (Reg.HOSTIF_DB_REJ.COUNT k) 0 := by
  have hcore : coreStateReg dbRejRow = false := by decide
  unfold State.regRead
  simp only [regAt_dbRej, hcore, Bool.and_false]
  rfl

theorem regValue_dbRej (s : State) (k : HostId) : s.regValue (Reg.HOSTIF_DB_REJ.off k) = s.reg (Reg.HOSTIF_DB_REJ.off k) := by
  have hcore : coreStateReg dbRejRow = false := by decide
  unfold State.regValue
  simp only [regAt_dbRej, hcore, Bool.and_false]
  rfl

theorem get_dbRej (s : State) (k : HostId) : s.get (Reg.HOSTIF_DB_REJ.COUNT k) = (s.reg (Reg.HOSTIF_DB_REJ.off k)).toNat := by
  simp [State.get, wordField, Reg.HOSTIF_DB_REJ.COUNT]

theorem toNat_ofNat_dbRej (k : HostId) : (BitVec.ofNat 24 (Reg.HOSTIF_DB_REJ.off k)).toNat = Reg.HOSTIF_DB_REJ.off k := by
  rw [BitVec.toNat_ofNat, Nat.mod_eq_of_lt]
  unfold Reg.HOSTIF_DB_REJ.off
  omega

/-- A narrow read of HOSTIF_DB_REJ that arrives answers the count and leaves it 0. -/
theorem bar0ReadEff_dbRej {s : State} {h k : HostId} (hr : s.bar0Reach h (Reg.HOSTIF_DB_REJ.off k) = true) (hw : s.boot.warm = false) :
    bar0ReadEff h (Reg.HOSTIF_DB_REJ.off k) 4 s = (s.put (Reg.HOSTIF_DB_REJ.COUNT k) 0).emit
      (.readData h 0 (Reg.HOSTIF_DB_REJ.off k) (leBytes 4 (s.get (Reg.HOSTIF_DB_REJ.COUNT k)))) := by
  have halign : Reg.HOSTIF_DB_REJ.off k % 4 = 0 := by unfold Reg.HOSTIF_DB_REJ.off; omega
  have hpba : pbaAt? (Reg.HOSTIF_DB_REJ.off k) = none := by
    match k with
    | 0 => rfl
    | 1 => rfl
  rw [bar0ReadEff_narrow (accessOk_word halign) hr hw, readWord_register s hpba, regRead_dbRej, regValue_dbRej, get_dbRej]

/-! The statement -/

/-- Settles O49, register by register through the lemmas above. -/
theorem registerAccess : Obligations.RegisterAccess := by
  unfold Obligations.RegisterAccess
  refine ⟨fun s h off v wide x => ?_, fun s h off v x r idx hyp => ?_, fun s h v x ht => ?_, fun s h off wide => ?_,
    fun s h k hyp => ?_, fun s h write off n => ?_⟩
  · refine ⟨bar0WriteEff h off.toNat v wide x s, rfl, fun ha hf => ?_, fun ha _ hr hw => ?_, fun ha _ hr => ?_, ?_, ?_, ?_⟩
    · rw [bar0WriteEff_bad v x s ha, badAccessEff_closed _ _ _ hf]
    · rw [bar0WriteEff_bad v x s ha, badAccessEff_arrives true _ hr hw, if_pos rfl]
    · rw [bar0WriteEff_bad v x s ha, badAccessEff_write_lost _ (.inl hr)]
    · rintro ha rfl
      exact bar0WriteEff_wide v x s ha
    · rintro ha rfl hl hb
      rw [bar0WriteEff_narrow v x s ha, writeWord_lost _ x hl hb]
    · rintro ha rfl hreg hp
      rw [bar0WriteEff_narrow v x s ha, writeWord_nowhere _ x hreg hp]
  · obtain ⟨halign, hreg, hb, hr, hw⟩ := hyp
    refine ⟨s.hostWrite h off.toNat (writeEff h r idx off.toNat (v.setWidth 32) x), ?_, fun hp ho => ?_, fun hp hno => ?_, fun hp hok => ?_⟩
    · rw [← writeWord_register _ x hreg hb, ← bar0WriteEff_narrow v x s (accessOk_word halign)]
      rfl
    · exact openWrite_closed _ hr hw hp ho
    · exact hostWrite_turnedAway _ hr hw hp hreg hno
    · exact hostWrite_takes _ ⟨hr, hw, hp, mayWrite_of_writerOk hreg hok⟩
  · refine ⟨s.applyFields planRow Reg.TALLY_PLAN.off v, congrArg Host.Outcome.next (bar0WriteEff_tallyPlan v x ht),
      tallyPlan_enable s v (by decide), tallyPlan_enable s v (by decide), tallyPlan_enable s v (by decide), fun o ho => ?_, rfl,
      tallyPlan_number s v (by decide), tallyPlan_number_zero s v (by decide), tallyPlan_number s v (by decide),
      tallyPlan_number_zero s v (by decide)⟩
    exact reg_setReg_ne s _ (by simpa using ho)
  · refine ⟨bar0ReadEff h off.toNat (if wide then 8 else 4) s, rfl, fun hf => bar0ReadEff_closed _ _ hf, fun hf ha hl => ?_, ?_, ?_, ?_⟩
    · rw [bar0ReadEff_lost hf ha hl]
      exact ⟨rfl, rfl⟩
    · rintro ha rfl hr hw
      have hread := bar0ReadEff_narrow ha hr hw
      refine ⟨fun hpba => ?_, fun k i hpba => ?_⟩
      · rwa [readWord_register s hpba] at hread
      · rwa [readWord_pba s hpba] at hread
    · rintro ha rfl hr hw hlo hhi
      have hread := bar0ReadEff_wide ha hr hw
      rwa [readWord_register s hlo, readWord_register _ hhi] at hread
    · exact eq_patch_of_same (execRcCounterRead_same h off wide s rfl)
  · obtain ⟨hr, hw⟩ := hyp
    refine ⟨(s.put (Reg.HOSTIF_DB_REJ.COUNT k) 0).emit
        (.readData h 0 (Reg.HOSTIF_DB_REJ.off k) (leBytes 4 (s.get (Reg.HOSTIF_DB_REJ.COUNT k)))), ?_, ?_, rfl, ?_, rfl⟩
    · change Host.Outcome.next (bar0ReadEff h (BitVec.ofNat 24 (Reg.HOSTIF_DB_REJ.off k)).toNat 4 s) = _
      rw [toNat_ofNat_dbRej, bar0ReadEff_dbRej hr hw]
    · exact get_put_self s (Reg.HOSTIF_DB_REJ.COUNT k) 0 (by simp [FieldOk, Reg.HOSTIF_DB_REJ.COUNT])
    · exact fieldsBut_put (Reg.HOSTIF_DB_REJ.COUNT k) 0 (fieldsBut_refl _ s) (by simp [FieldOk, Reg.HOSTIF_DB_REJ.COUNT]) (by simp)
  · refine ⟨if accessOk off.toNat n then s else badAccessEff h write off.toNat n s, rfl, ?_, fun ha hf hwrite => ?_,
      fun ha hf hread => ?_, eq_patch_of_same (execBar0BadAccess_same h write off n s rfl)⟩
    · rintro (ha | hf)
      · rw [if_pos ha]
      · rw [badAccessEff_closed _ _ _ hf, ite_self]
    · subst hwrite
      rw [if_neg (by simp [ha])]
      exact ⟨fun hr hw => badAccessEff_arrives true n hr hw, fun hl => badAccessEff_lost true n hf hl⟩
    · subst hread
      rw [if_neg (by simp [ha])]
      refine ⟨fun hr hw => badAccessEff_arrives false n hr hw, fun hl => ?_⟩
      rw [badAccessEff_lost false n hf hl]
      exact ⟨rfl, rfl⟩

end Sys2Proof.Machine.Proofs
end

section
/-! PROOFS. The time unit: lock states (01_fabric_time.md R21 to R25). -/

namespace Sys2Proof.Machine.Proofs

open Laws

/-! Fields after the named updates of the time unit -/

theorem get_of_regs {s t : State} (e : t.regs = s.regs) (f : Fld) : t.get f = s.get f := by
  unfold State.get State.reg
  rw [e]

/-- A field reads the value just written, where its width holds it. -/
theorem get_put_fits (s : State) (f : Fld) (x : Nat) (h : FieldOk f) (hx : x < 2 ^ f.w) : (s.put f x).get f = x := by
  rw [get_put_self s f x h, Nat.mod_eq_of_lt hx]

theorem get_withTime (s : State) (x : TimeUnit) (f : Fld) : ({ s with time := x } : State).get f = s.get f := rfl

@[simp] theorem get_setFt (s : State) (n : Nat) (f : Fld) : (s.setFt n).get f = s.get f := rfl

theorem checkLoss_regs (s : State) : s.checkLoss.regs = s.regs := (checkLoss_same s).regs rfl

@[simp] theorem get_checkLoss (s : State) (f : Fld) : s.checkLoss.get f = s.get f := get_of_regs (checkLoss_regs s) f

@[simp] theorem checkLoss_timerRunning (s : State) : s.checkLoss.time.timerRunning = s.time.timerRunning := by
  unfold State.checkLoss
  split <;> rfl

/-- The condition for entering LOST, once met, stands. -/
theorem checkLoss_lossMet {s : State} (h3 : s.get Reg.TIME_STS.STATE = 3) (hv : s.get Reg.TIME_STS.SRC_VALID = 0)
    (hl : s.get Reg.TIME_HOLD_LIMIT.LIMIT_MS ≤ s.get Reg.TIME_STS.HOLD_MS) : s.checkLoss.time.lossMet = true := by
  unfold State.checkLoss
  rw [if_pos ⟨h3, hv, hl⟩]

@[simp] theorem get_noSource (s : State) (f : Fld) :
    s.noSource.get f = ((s.put Reg.TIME_STS.SRC_VALID 0).put Reg.TIME_OFFSET.OFFSET 0).get f := rfl

@[simp] theorem get_startHoldover (s : State) (f : Fld) :
    s.startHoldover.get f = ((s.put Reg.TIME_STS.STATE 3).put Reg.TIME_STS.HOLD_MS 0).get f := rfl

theorem get_holdTo {s : State} {ms : Nat} {f : Fld} (h : FieldOk f) (ha : Reg.TIME_STS.HOLD_MS.Apart f) : (s.holdTo ms).get f = s.get f := by
  unfold State.holdTo
  split
  · exact get_put_disjoint s _ f _ (by decide) h (by unfold Fld.Apart at ha; omega)
  · rfl

/-- The timer's reading never falls below what it has run to. -/
theorem le_get_holdTo {s : State} {ms : Nat} (ht : s.time.timerRunning = true) (hms : ms < 2 ^ 10) :
    ms ≤ (s.holdTo ms).get Reg.TIME_STS.HOLD_MS := by
  have hlt : s.get Reg.TIME_STS.HOLD_MS < 2 ^ 10 := get_lt s Reg.TIME_STS.HOLD_MS
  unfold State.holdTo
  rw [if_pos ht, get_put_self _ _ _ (by decide)]
  change ms ≤ _ % 2 ^ 10
  omega

theorem fieldsBut_noSource {fs : List Fld} {s t : State} (h : FieldsBut fs s t) (hv : Reg.TIME_STS.SRC_VALID ∈ fs)
    (ho : Reg.TIME_OFFSET.OFFSET ∈ fs) : FieldsBut fs s t.noSource :=
  fieldsBut_put _ _ (fieldsBut_put _ _ h (by decide) hv) (by decide) ho

theorem fieldsBut_startHoldover {fs : List Fld} {s t : State} (h : FieldsBut fs s t) (hs : Reg.TIME_STS.STATE ∈ fs)
    (hm : Reg.TIME_STS.HOLD_MS ∈ fs) : FieldsBut fs s t.startHoldover :=
  fieldsBut_of_regs (fieldsBut_put _ 0 (fieldsBut_put _ 3 h (by decide) hs) (by decide) hm) rfl

theorem fieldsBut_holdTo {fs : List Fld} {s t : State} (ms : Nat) (h : FieldsBut fs s t) (hm : Reg.TIME_STS.HOLD_MS ∈ fs) :
    FieldsBut fs s (t.holdTo ms) := by
  unfold State.holdTo
  split
  · exact fieldsBut_put _ _ h (by decide) hm
  · exact h

theorem fieldsBut_checkLoss {fs : List Fld} {s t : State} (h : FieldsBut fs s t) : FieldsBut fs s t.checkLoss :=
  fieldsBut_of_regs h (checkLoss_regs t)

/-! The lock state's own fields -/

/-- The fields that SOURCE_LOST and SOURCE_VALID may write. -/
abbrev lockFields : List Fld := [Reg.TIME_STS.STATE, Reg.TIME_STS.SRC_VALID, Reg.TIME_STS.HOLD_MS, Reg.TIME_OFFSET.OFFSET]

theorem sourceLostEff_locked {s : State} (ms : Nat) (h : s.get Reg.TIME_STS.STATE = 2) :
    sourceLostEff ms s = s.noSource.startHoldover := by
  simp [sourceLostEff, h]

theorem sourceLostEff_other {s : State} (ms : Nat) (h2 : s.get Reg.TIME_STS.STATE ≠ 2) (h3 : s.get Reg.TIME_STS.STATE ≠ 3) :
    sourceLostEff ms s = s.noSource := by
  simp [sourceLostEff, h2, h3]

/-- No valid source is present in HOLDOVER: the timer runs on, and the limit may be met. -/
def runsUnheld (s : State) : State :=
  ({ s.noSource with time := { s.noSource.time with timerRunning := true } } : State).checkLoss

theorem get_runsUnheld (s : State) (f : Fld) : (runsUnheld s).get f = s.noSource.get f := get_of_regs (checkLoss_regs _) f

theorem runsUnheld_timerRunning (s : State) : (runsUnheld s).time.timerRunning = true := checkLoss_timerRunning _

theorem runsUnheld_lossMet {s : State} (h3 : s.get Reg.TIME_STS.STATE = 3)
    (hl : s.get Reg.TIME_HOLD_LIMIT.LIMIT_MS ≤ s.get Reg.TIME_STS.HOLD_MS) : (runsUnheld s).time.lossMet = true := by
  refine checkLoss_lossMet ?_ ?_ ?_
  · simpa (disch := decide) [get_withTime, get_put_disjoint] using h3
  · simp (disch := decide) [get_withTime, get_put_fits, get_put_disjoint]
  · simpa (disch := decide) [get_withTime, get_put_disjoint] using hl

theorem fieldsBut_runsUnheld {fs : List Fld} {s t : State} (h : FieldsBut fs s t) (hv : Reg.TIME_STS.SRC_VALID ∈ fs)
    (ho : Reg.TIME_OFFSET.OFFSET ∈ fs) : FieldsBut fs s (runsUnheld t) :=
  fieldsBut_of_regs (fieldsBut_noSource h hv ho) (checkLoss_regs _)

theorem sourceLostEff_holdover {s : State} (ms : Nat) (h : s.get Reg.TIME_STS.STATE = 3) :
    sourceLostEff ms s = runsUnheld (s.holdTo ms) := by
  simp [sourceLostEff, h, runsUnheld]

theorem get_sourceLostEff_state (ms : Nat) (s : State) :
    (sourceLostEff ms s).get Reg.TIME_STS.STATE = if s.get Reg.TIME_STS.STATE = 2 then 3 else s.get Reg.TIME_STS.STATE := by
  by_cases h2 : s.get Reg.TIME_STS.STATE = 2
  · rw [sourceLostEff_locked ms h2, if_pos h2]
    simp (disch := decide) [get_put_fits, get_put_disjoint]
  · rw [if_neg h2]
    by_cases h3 : s.get Reg.TIME_STS.STATE = 3
    · rw [sourceLostEff_holdover ms h3, get_runsUnheld]
      simp (disch := decide) [get_put_disjoint, get_holdTo]
    · rw [sourceLostEff_other ms h2 h3]
      simp (disch := decide) [get_put_disjoint]


/-! SOURCE_LOST -/

/-- SOURCE_LOST leaves no valid source, whatever the state. -/
theorem sourceLostEff_fields (ms : Nat) (s : State) :
    (sourceLostEff ms s).get Reg.TIME_STS.SRC_VALID = 0 ∧ (sourceLostEff ms s).get Reg.TIME_OFFSET.OFFSET = 0
      ∧ FieldsBut lockFields s (sourceLostEff ms s) := by
  by_cases h2 : s.get Reg.TIME_STS.STATE = 2
  · rw [sourceLostEff_locked ms h2]
    refine ⟨?_, ?_, fieldsBut_startHoldover (fieldsBut_noSource (fieldsBut_refl _ s) ?_ ?_) ?_ ?_⟩ <;>
      simp (disch := decide) [get_put_fits, get_put_disjoint]
  · by_cases h3 : s.get Reg.TIME_STS.STATE = 3
    · rw [sourceLostEff_holdover ms h3]
      refine ⟨?_, ?_, fieldsBut_runsUnheld (fieldsBut_holdTo ms (fieldsBut_refl _ s) ?_) ?_ ?_⟩ <;>
        simp (disch := decide) [get_runsUnheld, get_put_fits, get_put_disjoint]
    · rw [sourceLostEff_other ms h2 h3]
      refine ⟨?_, ?_, fieldsBut_noSource (fieldsBut_refl _ s) ?_ ?_⟩ <;> simp (disch := decide) [get_put_fits, get_put_disjoint]

theorem completes_sourceLost (s : State) (ms : Nat) :
    Completes (.sourceLost ms) s fun t =>
      t.get Reg.TIME_STS.SRC_VALID = 0 ∧ t.get Reg.TIME_OFFSET.OFFSET = 0
      ∧ (s.get Reg.TIME_STS.STATE = 2 → t.get Reg.TIME_STS.STATE = 3 ∧ t.get Reg.TIME_STS.HOLD_MS = 0 ∧ t.time.timerRunning = true)
      ∧ (s.get Reg.TIME_STS.STATE ≠ 2 → t.get Reg.TIME_STS.STATE = s.get Reg.TIME_STS.STATE)
      ∧ (s.get Reg.TIME_STS.STATE = 3 → t.time.timerRunning = true)
      ∧ FieldsBut lockFields s t
      ∧ t.time.ftNs = s.time.ftNs ∧ t = { s with regs := t.regs, time := t.time, sched := t.sched } := by
  obtain ⟨hvalid, hoffset, hfields⟩ := sourceLostEff_fields ms s
  have hframe := sourceLostEff_same ms s
  refine ⟨sourceLostEff ms s, rfl, hvalid, hoffset, fun h2 => ⟨?_, ?_, ?_⟩, fun h2 => ?_, fun h3 => ?_, hfields, hframe.ftNs rfl,
    eq_patch_of_same hframe⟩
  · rw [get_sourceLostEff_state, if_pos h2]
  · rw [sourceLostEff_locked ms h2]
    simp (disch := decide) [get_put_fits]
  · rw [sourceLostEff_locked ms h2]
    rfl
  · rw [get_sourceLostEff_state, if_neg h2]
  · rw [sourceLostEff_holdover ms h3]
    exact runsUnheld_timerRunning _

/-! SOURCE_VALID -/

/-- A valid source is present, and TIME_OFFSET shows the phase error. -/
def sourceSeen (offset : Int) (s : State) : State := (s.put Reg.TIME_STS.SRC_VALID 1).put Reg.TIME_OFFSET.OFFSET (satOffset offset)

@[simp] theorem get_sourceSeen (offset : Int) (s : State) (f : Fld) :
    (sourceSeen offset s).get f = ((s.put Reg.TIME_STS.SRC_VALID 1).put Reg.TIME_OFFSET.OFFSET (satOffset offset)).get f := rfl

theorem fieldsBut_sourceSeen {fs : List Fld} {s t : State} (offset : Int) (h : FieldsBut fs s t) (hv : Reg.TIME_STS.SRC_VALID ∈ fs)
    (ho : Reg.TIME_OFFSET.OFFSET ∈ fs) : FieldsBut fs s (sourceSeen offset t) :=
  fieldsBut_put _ _ (fieldsBut_put _ _ h (by decide) hv) (by decide) ho

theorem sourceValidEff_none {s : State} (offset : Int) (ms : Nat) (h : s.get Reg.TIME_STS.STATE = 0) : sourceValidEff offset ms s = s := by
  simp [sourceValidEff, h]

theorem sourceValidEff_near {s : State} {offset : Int} (ms : Nat) (h : s.get Reg.TIME_STS.STATE = 3) (hn : offset.natAbs ≤ 25600) :
    sourceValidEff offset ms s = ({ sourceSeen offset (s.holdTo ms).checkLoss with
      time := { (s.holdTo ms).checkLoss.time with timerRunning := false } } : State) := by
  simp only [sourceValidEff, h, hn]
  rfl

theorem sourceValidEff_far {s : State} {offset : Int} (ms : Nat) (h : s.get Reg.TIME_STS.STATE = 3) (hf : 25600 < offset.natAbs) :
    sourceValidEff offset ms s = runsUnheld (s.holdTo ms).checkLoss := by
  have hn : ¬ offset.natAbs ≤ 25600 := by omega
  simp only [sourceValidEff, h, hn]
  rfl

theorem sourceValidEff_lost {s : State} (offset : Int) (ms : Nat) (h : s.get Reg.TIME_STS.STATE = 4) :
    sourceValidEff offset ms s = (sourceSeen offset s).put Reg.TIME_STS.STATE 1 := by
  simp only [sourceValidEff, h]
  rfl

theorem sourceValidEff_other {s : State} (offset : Int) (ms : Nat) (h0 : s.get Reg.TIME_STS.STATE ≠ 0)
    (h3 : s.get Reg.TIME_STS.STATE ≠ 3) (h4 : s.get Reg.TIME_STS.STATE ≠ 4) : sourceValidEff offset ms s = sourceSeen offset s := by
  simp only [sourceValidEff, h0, h3, h4]
  rfl

theorem fieldsBut_sourceValidEff (offset : Int) (ms : Nat) (s : State) : FieldsBut lockFields s (sourceValidEff offset ms s) := by
  have hrefl := fieldsBut_refl lockFields s
  have hheld := fieldsBut_checkLoss (fieldsBut_holdTo ms hrefl (by simp))
  by_cases h0 : s.get Reg.TIME_STS.STATE = 0
  · rw [sourceValidEff_none offset ms h0]
    exact hrefl
  by_cases h3 : s.get Reg.TIME_STS.STATE = 3
  · by_cases hn : offset.natAbs ≤ 25600
    · rw [sourceValidEff_near ms h3 hn]
      exact fieldsBut_of_regs (fieldsBut_sourceSeen offset hheld (by simp) (by simp)) rfl
    · rw [sourceValidEff_far ms h3 (by omega)]
      exact fieldsBut_runsUnheld hheld (by simp) (by simp)
  by_cases h4 : s.get Reg.TIME_STS.STATE = 4
  · rw [sourceValidEff_lost offset ms h4]
    exact fieldsBut_put _ _ (fieldsBut_sourceSeen offset hrefl (by simp) (by simp)) (by decide) (by simp)
  · rw [sourceValidEff_other offset ms h0 h3 h4]
    exact fieldsBut_sourceSeen offset hrefl (by simp) (by simp)

/-- The holdover timer's reading does not change the lock state. -/
theorem get_held_state (ms : Nat) (s : State) : (s.holdTo ms).checkLoss.get Reg.TIME_STS.STATE = s.get Reg.TIME_STS.STATE := by
  simp (disch := decide) [get_holdTo]

theorem completes_sourceValid (s : State) (off : Int) (ms : Nat) :
    Completes (.sourceValid off ms) s fun t =>
      (s.get Reg.TIME_STS.STATE = 0 → t = s)
      ∧ (s.get Reg.TIME_STS.STATE = 1 ∨ s.get Reg.TIME_STS.STATE = 2 →
          t.get Reg.TIME_STS.STATE = s.get Reg.TIME_STS.STATE ∧ t.get Reg.TIME_STS.SRC_VALID = 1)
      ∧ (s.get Reg.TIME_STS.STATE = 4 → t.get Reg.TIME_STS.STATE = 1)
      ∧ (s.get Reg.TIME_STS.STATE = 3 → t.get Reg.TIME_STS.STATE = 3
          ∧ (off.natAbs ≤ 25600 → t.get Reg.TIME_STS.SRC_VALID = 1 ∧ t.time.timerRunning = false)
          ∧ (25600 < off.natAbs → t.get Reg.TIME_STS.SRC_VALID = 0 ∧ t.time.timerRunning = true
            ∧ (t.get Reg.TIME_HOLD_LIMIT.LIMIT_MS ≤ t.get Reg.TIME_STS.HOLD_MS → t.time.lossMet = true)))
      ∧ FieldsBut lockFields s t
      ∧ t.time.ftNs = s.time.ftNs ∧ t = { s with regs := t.regs, time := t.time } := by
  have hframe := sourceValidEff_same off ms s
  refine ⟨sourceValidEff off ms s, rfl, sourceValidEff_none off ms, fun h => ?_, fun h4 => ?_, fun h3 => ?_,
    fieldsBut_sourceValidEff off ms s, hframe.ftNs rfl, eq_patch_of_same hframe⟩
  · rw [sourceValidEff_other off ms (by omega) (by omega) (by omega)]
    simp (disch := decide) [get_put_fits, get_put_disjoint]
  · rw [sourceValidEff_lost off ms h4, get_put_fits _ _ _ (by decide) (by decide)]
  · have hheld := (get_held_state ms s).trans h3
    refine ⟨?_, fun hn => ?_, fun hf => ?_⟩
    · by_cases hn : off.natAbs ≤ 25600
      · rw [sourceValidEff_near ms h3 hn]
        simpa (disch := decide) [get_withTime, get_put_disjoint] using hheld
      · rw [sourceValidEff_far ms h3 (by omega), get_runsUnheld]
        simpa (disch := decide) [get_put_disjoint] using hheld
    · rw [sourceValidEff_near ms h3 hn]
      refine ⟨?_, rfl⟩
      simp (disch := decide) [get_withTime, get_put_fits, get_put_disjoint]
    · rw [sourceValidEff_far ms h3 hf]
      refine ⟨?_, runsUnheld_timerRunning _, fun hl => runsUnheld_lossMet hheld ?_⟩
      · simp (disch := decide) [get_runsUnheld, get_put_fits, get_put_disjoint]
      · simpa (disch := decide) [get_runsUnheld, get_put_disjoint] using hl

/-! LOCK_ACHIEVED, SRC_STEP and HOLDOVER_LIMIT_REACHED -/

theorem lockAchievedEff_acquiring {s : State} (src : Nat) (h : s.get Reg.TIME_STS.STATE = 1) :
    lockAchievedEff src s
      = (((s.setFt (nearestStep src)).put Reg.TIME_STS.STATE 2).put Reg.TIME_STS.STEPPED 1).put Reg.TIME_STS.SRC_VALID 1 := by
  simp [lockAchievedEff, h]

theorem lockAchievedEff_holdover {s : State} (src : Nat) (h : s.get Reg.TIME_STS.STATE = 3) :
    lockAchievedEff src s = ({ ((s.put Reg.TIME_STS.STATE 2).put Reg.TIME_STS.HOLD_MS 0).put Reg.TIME_STS.SRC_VALID 1 with
      time := { s.time with timerRunning := false, lossMet := false } } : State) := by
  simp only [lockAchievedEff, h]
  rfl

theorem lockAchievedEff_other {s : State} (src : Nat) (h1 : s.get Reg.TIME_STS.STATE ≠ 1) (h3 : s.get Reg.TIME_STS.STATE ≠ 3) :
    lockAchievedEff src s = s := by
  simp [lockAchievedEff, h1, h3]

theorem completes_lockAchieved (s : State) (src : Nat) :
    Completes (.lockAchieved src) s fun t =>
      (s.get Reg.TIME_STS.STATE = 1 → t.get Reg.TIME_STS.STATE = 2 ∧ t.get Reg.TIME_STS.STEPPED = 1
          ∧ t.time.ftNs = BitVec.ofNat 64 (nearestStep src / 256) ∧ t.time.frac = BitVec.ofNat 8 (nearestStep src % 256) ∧ t.time.phase = 0)
      ∧ (s.get Reg.TIME_STS.STATE = 3 → t.get Reg.TIME_STS.STATE = 2 ∧ t.get Reg.TIME_STS.HOLD_MS = 0 ∧ t.time.timerRunning = false
          ∧ t.time.ftNs = s.time.ftNs)
      ∧ (s.get Reg.TIME_STS.STATE ≠ 1 → s.get Reg.TIME_STS.STATE ≠ 3 → t = s)
      ∧ FieldsBut [Reg.TIME_STS.STATE, Reg.TIME_STS.SRC_VALID, Reg.TIME_STS.STEPPED, Reg.TIME_STS.HOLD_MS] s t
      ∧ t = { s with regs := t.regs, time := t.time } := by
  refine ⟨lockAchievedEff src s, rfl, fun h1 => ?_, fun h3 => ?_, lockAchievedEff_other src, ?_, eq_patch_of_same (lockAchievedEff_same src s)⟩
  · rw [lockAchievedEff_acquiring src h1]
    refine ⟨?_, ?_, rfl, rfl, rfl⟩ <;> simp (disch := decide) [get_put_fits, get_put_disjoint]
  · rw [lockAchievedEff_holdover src h3]
    refine ⟨?_, ?_, rfl, rfl⟩ <;> rw [get_withTime] <;> simp (disch := decide) [get_put_fits, get_put_disjoint]
  · by_cases h1 : s.get Reg.TIME_STS.STATE = 1
    · rw [lockAchievedEff_acquiring src h1]
      refine fieldsBut_put Reg.TIME_STS.SRC_VALID 1 (fieldsBut_put Reg.TIME_STS.STEPPED 1 (fieldsBut_put Reg.TIME_STS.STATE 2
        (fieldsBut_of_regs (fieldsBut_refl _ s) rfl) ?_ ?_) ?_ ?_) ?_ ?_ <;> decide
    by_cases h3 : s.get Reg.TIME_STS.STATE = 3
    · rw [lockAchievedEff_holdover src h3]
      refine fieldsBut_of_regs (fieldsBut_put Reg.TIME_STS.SRC_VALID 1 (fieldsBut_put Reg.TIME_STS.HOLD_MS 0
        (fieldsBut_put Reg.TIME_STS.STATE 2 (fieldsBut_refl _ s) ?_ ?_) ?_ ?_) ?_ ?_) rfl <;> decide
    · rw [lockAchievedEff_other src h1 h3]
      exact fieldsBut_refl _ s

theorem srcStepEff_locked {s : State} (h : s.get Reg.TIME_STS.STATE = 2) :
    srcStepEff s = s.noSource.startHoldover.put Reg.TIME_STS.SRC_STEP 1 := by
  simp [srcStepEff, h]

theorem srcStepEff_other {s : State} (h : s.get Reg.TIME_STS.STATE ≠ 2) : srcStepEff s = s := by
  simp [srcStepEff, h]

theorem completes_srcStep (s : State) :
    Completes (.srcStep) s fun t =>
      (s.get Reg.TIME_STS.STATE = 2 → t.get Reg.TIME_STS.STATE = 3 ∧ t.get Reg.TIME_STS.SRC_STEP = 1 ∧ t.get Reg.TIME_STS.HOLD_MS = 0
          ∧ t.time.timerRunning = true ∧ t.time.ftNs = s.time.ftNs)
      ∧ (s.get Reg.TIME_STS.STATE ≠ 2 → t = s)
      ∧ FieldsBut [Reg.TIME_STS.STATE, Reg.TIME_STS.SRC_VALID, Reg.TIME_STS.SRC_STEP, Reg.TIME_STS.HOLD_MS, Reg.TIME_OFFSET.OFFSET] s t
      ∧ t = { s with regs := t.regs, time := t.time, sched := t.sched } := by
  refine ⟨srcStepEff s, rfl, fun h2 => ?_, srcStepEff_other, ?_, eq_patch_of_same (srcStepEff_same s)⟩
  · rw [srcStepEff_locked h2]
    refine ⟨?_, ?_, ?_, rfl, rfl⟩ <;> simp (disch := decide) [get_put_fits, get_put_disjoint]
  · by_cases h2 : s.get Reg.TIME_STS.STATE = 2
    · rw [srcStepEff_locked h2]
      refine fieldsBut_put _ _ (fieldsBut_startHoldover (fieldsBut_noSource (fieldsBut_refl _ s) ?_ ?_) ?_ ?_) ?_ ?_ <;> decide
    · rw [srcStepEff_other h2]
      exact fieldsBut_refl _ s

theorem holdLimitReachedEff_met {s : State} (h3 : s.get Reg.TIME_STS.STATE = 3) (hv : s.get Reg.TIME_STS.SRC_VALID = 0)
    (ht : s.time.timerRunning = true) : holdLimitReachedEff s = (s.holdTo (s.get Reg.TIME_HOLD_LIMIT.LIMIT_MS)).checkLoss := by
  simp [holdLimitReachedEff, h3, hv, ht]

theorem holdLimitReachedEff_other {s : State}
    (h : ¬ (s.get Reg.TIME_STS.STATE = 3 ∧ s.get Reg.TIME_STS.SRC_VALID = 0 ∧ s.time.timerRunning = true)) : holdLimitReachedEff s = s :=
  if_neg h

/-- The timer stands at the limit, so that the loss condition is met. -/
theorem holdLimitReachedEff_lossMet {s : State} (h3 : s.get Reg.TIME_STS.STATE = 3) (hv : s.get Reg.TIME_STS.SRC_VALID = 0)
    (ht : s.time.timerRunning = true) : (holdLimitReachedEff s).time.lossMet = true := by
  rw [holdLimitReachedEff_met h3 hv ht]
  refine checkLoss_lossMet ?_ ?_ ?_
  · rwa [get_holdTo (by decide) (by decide)]
  · rwa [get_holdTo (by decide) (by decide)]
  · rw [get_holdTo (by decide) (by decide)]
    exact le_get_holdTo ht (get_lt s Reg.TIME_HOLD_LIMIT.LIMIT_MS)

theorem fieldsBut_holdLimitReachedEff (s : State) : FieldsBut [Reg.TIME_STS.HOLD_MS] s (holdLimitReachedEff s) := by
  unfold holdLimitReachedEff
  split
  · exact fieldsBut_checkLoss (fieldsBut_holdTo _ (fieldsBut_refl _ s) (by simp))
  · exact fieldsBut_refl _ s

theorem completes_holdoverLimitReached (s : State) :
    Completes (.holdoverLimitReached) s fun t =>
      (s.get Reg.TIME_STS.STATE = 3 → s.get Reg.TIME_STS.SRC_VALID = 0 → s.time.timerRunning = true → t.time.lossMet = true)
      ∧ (s.get Reg.TIME_STS.STATE ≠ 3 ∨ s.get Reg.TIME_STS.SRC_VALID = 1 → t = s)
      ∧ t.get Reg.TIME_STS.STATE = s.get Reg.TIME_STS.STATE ∧ FieldsBut [Reg.TIME_STS.HOLD_MS] s t
      ∧ t.time.ftNs = s.time.ftNs ∧ t = { s with regs := t.regs, time := t.time } := by
  have hframe := holdLimitReachedEff_same s
  have hfields := fieldsBut_holdLimitReachedEff s
  refine ⟨holdLimitReachedEff s, rfl, holdLimitReachedEff_lossMet, fun h => holdLimitReachedEff_other (by omega),
    hfields Reg.TIME_STS.STATE (by decide) (by decide), hfields, hframe.ftNs rfl, eq_patch_of_same hframe⟩

/-- Settles O1, command by command through the lemmas above. -/
theorem lockStateMoves : Obligations.LockStateMoves := by
  unfold Obligations.LockStateMoves
  exact ⟨completes_sourceLost, completes_sourceValid, completes_lockAchieved, completes_srcStep, completes_holdoverLimitReached⟩

end Sys2Proof.Machine.Proofs
end

section
/-! PROOFS. The time unit's registers: TIME_CTL, TIME_PORT, TIME_HOLD_LIMIT and TIME_NOW (01_fabric_time.md R14, R15, R19, R25). -/

namespace Sys2Proof.Machine.Proofs

open Laws

/-! Frames of the named updates -/

theorem regsBut_of_regs {os : List Nat} {s t u : State} (h : RegsBut os s t) (e : u.regs = t.regs) : RegsBut os s u := by
  intro o ho
  have hreg : u.reg o = t.reg o := by unfold State.reg; rw [e]
  exact hreg.trans (h o ho)

@[simp] theorem get_newSource (s : State) (f : Fld) :
    s.newSource.get f = ((((s.put Reg.TIME_STS.STATE (if s.get Reg.TIME_CTL.SRC = 3 then 0 else 1)).put Reg.TIME_STS.HOLD_MS 0).put
      Reg.TIME_STS.SRC_VALID 0).put Reg.TIME_OFFSET.OFFSET 0).get f := rfl

theorem regsBut_newSource {os : List Nat} {s t : State} (h : RegsBut os s t) (hs : Reg.TIME_STS.off ∈ os) (ho : Reg.TIME_OFFSET.off ∈ os) :
    RegsBut os s t.newSource := by
  refine regsBut_of_regs (regsBut_put Reg.TIME_OFFSET.OFFSET 0 (regsBut_put Reg.TIME_STS.SRC_VALID 0 (regsBut_put Reg.TIME_STS.HOLD_MS 0
    (regsBut_put Reg.TIME_STS.STATE (if t.get Reg.TIME_CTL.SRC = 3 then 0 else 1) h hs) hs) hs) ho) rfl

/-- A new source is ACQUIRING, or the time unit has none. -/
theorem get_newSource_state (s : State) :
    s.newSource.get Reg.TIME_STS.STATE = if s.get Reg.TIME_CTL.SRC = 3 then 0 else 1 := by
  have hsmall : (if s.get Reg.TIME_CTL.SRC = 3 then 0 else 1) < 2 ^ 3 := by split <;> decide
  simp (disch := decide) [get_put_disjoint, get_put_fits s Reg.TIME_STS.STATE _ (by decide) hsmall]

/-! TIME_SET armed -/

theorem armSet_latches {s : State} (hs : s.get Reg.TIME_CTL.SRC = 0)
    (hv : s.pair Reg.TIME_SET_LO.SET Reg.TIME_SET_HI.SET % 1000000000 = 0) :
    s.armSet = ({ s.put Reg.TIME_CTL.SET_ARM 1 with
      time := { s.time with armed := some (BitVec.ofNat 64 (s.pair Reg.TIME_SET_LO.SET Reg.TIME_SET_HI.SET)) } } : State) := by
  simp [State.armSet, hs, hv]

theorem armSet_refused {s : State} (h : s.get Reg.TIME_CTL.SRC ≠ 0 ∨ s.pair Reg.TIME_SET_LO.SET Reg.TIME_SET_HI.SET % 1000000000 ≠ 0) :
    s.armSet = s.put Reg.TIME_STS.CTL_REJ 1 := if_pos h

theorem armSet_timerRunning (s : State) : s.armSet.time.timerRunning = s.time.timerRunning := by
  unfold State.armSet
  dsimp only
  split <;> rfl

theorem fieldsBut_armSet {fs : List Fld} {s t : State} (h : FieldsBut fs s t) (ha : Reg.TIME_CTL.SET_ARM ∈ fs)
    (hr : Reg.TIME_STS.CTL_REJ ∈ fs) : FieldsBut fs s t.armSet := by
  unfold State.armSet
  dsimp only
  split
  · exact fieldsBut_put _ _ h (by decide) hr
  · exact fieldsBut_of_regs (fieldsBut_put Reg.TIME_CTL.SET_ARM 1 h (by decide) ha) rfl

theorem regsBut_armSet {os : List Nat} {s t : State} (h : RegsBut os s t) (hc : Reg.TIME_CTL.off ∈ os) (hs : Reg.TIME_STS.off ∈ os) :
    RegsBut os s t.armSet := by
  unfold State.armSet
  dsimp only
  split
  · exact regsBut_put _ _ h hs
  · exact regsBut_of_regs (regsBut_put Reg.TIME_CTL.SET_ARM 1 h hc) rfl

/-- Fields that an arm does not touch. -/
theorem get_armSet {s : State} {f : Fld} (h : FieldOk f) (ha : ∀ g ∈ [Reg.TIME_CTL.SET_ARM, Reg.TIME_STS.CTL_REJ], g.Apart f) :
    s.armSet.get f = s.get f :=
  fieldsBut_armSet (fieldsBut_refl [Reg.TIME_CTL.SET_ARM, Reg.TIME_STS.CTL_REJ] s) (by simp) (by simp) f h ha

/-! TIME_CTL -/

/-- The plain fields of a TIME_CTL write. -/
def ctlFields (v : Word) (s : State) : State :=
  let t := (s.put Reg.TIME_CTL.SRC (wordField v 0 2)).put Reg.TIME_CTL.PTP_BC (wordField v 2 1)
  if 4 ≤ wordField v 4 3 ∧ wordField v 4 3 ≤ 6 then t.put Reg.TIME_CTL.DEMOTE_TC (wordField v 4 3) else t

/-- A TIME_CTL write but for its arm. -/
def ctlSource (v : Word) (s : State) : State :=
  if wordField v 0 2 ≠ s.get Reg.TIME_CTL.SRC then (ctlFields v s).newSource else ctlFields v s

theorem timeCtlEff_refused {v : Word} {s : State} (hne : wordField v 0 2 ≠ s.get Reg.TIME_CTL.SRC) (hb : s.schedBusy = true) :
    timeCtlEff v s = s.put Reg.TIME_STS.CTL_REJ 1 := by
  simp [timeCtlEff, hne, hb]

theorem timeCtlEff_taken {v : Word} {s : State} (h : wordField v 0 2 = s.get Reg.TIME_CTL.SRC ∨ s.schedBusy = false) :
    timeCtlEff v s = if wordField v 3 1 = 1 then (ctlSource v s).armSet else ctlSource v s := by
  have hgo : ¬ (wordField v 0 2 ≠ s.get Reg.TIME_CTL.SRC ∧ s.schedBusy = true) := by
    rintro ⟨hne, hb⟩
    simp [hne, hb] at h
  simp only [timeCtlEff, if_neg hgo]
  rfl

theorem ctlSource_same {v : Word} {s : State} (h : wordField v 0 2 = s.get Reg.TIME_CTL.SRC) : ctlSource v s = ctlFields v s :=
  if_neg (not_not_intro h)

theorem ctlSource_new {v : Word} {s : State} (h : wordField v 0 2 ≠ s.get Reg.TIME_CTL.SRC) :
    ctlSource v s = (ctlFields v s).newSource := if_pos h

theorem ctlFields_time (v : Word) (s : State) : (ctlFields v s).time = s.time := by
  unfold ctlFields
  dsimp only
  split <;> rfl

theorem regsBut_ctlFields (v : Word) (s : State) : RegsBut [Reg.TIME_CTL.off] s (ctlFields v s) := by
  unfold ctlFields
  have h := regsBut_put Reg.TIME_CTL.PTP_BC (wordField v 2 1)
    (regsBut_put Reg.TIME_CTL.SRC (wordField v 0 2) (regsBut_refl [Reg.TIME_CTL.off] s) (by decide)) (by decide)
  dsimp only
  split
  · exact regsBut_put _ _ h (by decide)
  · exact h

theorem get_ctlFields_ne {f : Fld} (v : Word) (s : State) (h : f.off ≠ Reg.TIME_CTL.off) : (ctlFields v s).get f = s.get f := by
  unfold State.get
  rw [regsBut_ctlFields v s f.off (by simpa using h)]

theorem get_ctlFields_src (v : Word) (s : State) : (ctlFields v s).get Reg.TIME_CTL.SRC = wordField v 0 2 := by
  have hlt := wordField_lt v 0 2
  unfold ctlFields
  dsimp only
  split <;> simp (disch := decide) [get_put_disjoint, get_put_fits s Reg.TIME_CTL.SRC _ (by decide) hlt]

theorem get_ctlFields_ptpBc (v : Word) (s : State) : (ctlFields v s).get Reg.TIME_CTL.PTP_BC = wordField v 2 1 := by
  have hlt := wordField_lt v 2 1
  unfold ctlFields
  dsimp only
  split <;> simp (disch := decide) [get_put_disjoint, get_put_fits _ Reg.TIME_CTL.PTP_BC _ (by decide) hlt]

theorem get_ctlFields_demoteTc {v : Word} (s : State) (h4 : 4 ≤ wordField v 4 3) (h6 : wordField v 4 3 ≤ 6) :
    (ctlFields v s).get Reg.TIME_CTL.DEMOTE_TC = wordField v 4 3 := by
  have hlt := wordField_lt v 4 3
  unfold ctlFields
  dsimp only
  rw [if_pos ⟨h4, h6⟩, get_put_fits _ _ _ (by decide) hlt]

/-- The plain fields outlive a change of source and an arm. -/
theorem get_timeCtlEff {v : Word} {s : State} {f : Fld} (h : wordField v 0 2 = s.get Reg.TIME_CTL.SRC ∨ s.schedBusy = false) (hf : FieldOk f)
    (ha : Reg.TIME_CTL.SET_ARM.Apart f) (ho : f.off = Reg.TIME_CTL.off) : (timeCtlEff v s).get f = (ctlFields v s).get f := by
  have hsts : f.off ≠ Reg.TIME_STS.off ∧ f.off ≠ Reg.TIME_OFFSET.off := by rw [ho]; decide
  have hsource : (ctlSource v s).get f = (ctlFields v s).get f := by
    unfold ctlSource
    split
    · rw [get_newSource, get_put_ne _ _ _ _ hsts.2, get_put_ne _ _ _ _ hsts.1, get_put_ne _ _ _ _ hsts.1, get_put_ne _ _ _ _ hsts.1]
    · rfl
  rw [timeCtlEff_taken h, ← hsource]
  split
  · exact get_armSet hf (by simpa using ⟨ha, .inl hsts.1⟩)
  · rfl

theorem regsBut_timeCtlEff (v : Word) (s : State) :
    RegsBut [Reg.TIME_CTL.off, Reg.TIME_STS.off, Reg.TIME_OFFSET.off] s (timeCtlEff v s) := by
  by_cases h : wordField v 0 2 = s.get Reg.TIME_CTL.SRC ∨ s.schedBusy = false
  · have hfields : RegsBut [Reg.TIME_CTL.off, Reg.TIME_STS.off, Reg.TIME_OFFSET.off] s (ctlFields v s) :=
      fun o ho => regsBut_ctlFields v s o fun hm => ho (List.mem_cons.mpr (.inl (List.mem_singleton.mp hm)))
    have hsource : RegsBut [Reg.TIME_CTL.off, Reg.TIME_STS.off, Reg.TIME_OFFSET.off] s (ctlSource v s) := by
      unfold ctlSource
      split
      · exact regsBut_newSource hfields (by decide) (by decide)
      · exact hfields
    rw [timeCtlEff_taken h]
    split
    · exact regsBut_armSet hsource (by decide) (by decide)
    · exact hsource
  · obtain ⟨hne, hb⟩ := not_or.mp h
    rw [timeCtlEff_refused hne (Bool.eq_true_of_not_eq_false hb)]
    exact regsBut_put _ _ (regsBut_refl _ s) (by decide)

/-- A change of source leads to NONE or ACQUIRING with the holdover timer clear, whatever the write arms. -/
theorem timeCtlEff_newSource {v : Word} {s : State} (hne : wordField v 0 2 ≠ s.get Reg.TIME_CTL.SRC) (hb : s.schedBusy = false) :
    (timeCtlEff v s).get Reg.TIME_STS.STATE = (if wordField v 0 2 = 3 then 0 else 1) ∧ (timeCtlEff v s).get Reg.TIME_STS.HOLD_MS = 0
      ∧ (timeCtlEff v s).get Reg.TIME_STS.SRC_VALID = 0 ∧ (timeCtlEff v s).time.timerRunning = false := by
  rw [timeCtlEff_taken (.inr hb), ctlSource_new hne]
  have hstate : (ctlFields v s).newSource.get Reg.TIME_STS.STATE = if wordField v 0 2 = 3 then 0 else 1 := by
    rw [get_newSource_state, get_ctlFields_src]
  split
  · rw [get_armSet (by decide) (by decide), get_armSet (by decide) (by decide), get_armSet (by decide) (by decide), armSet_timerRunning]
    refine ⟨hstate, ?_, ?_, rfl⟩ <;> simp (disch := decide) [get_put_fits, get_put_disjoint]
  · refine ⟨hstate, ?_, ?_, rfl⟩ <;> simp (disch := decide) [get_put_fits, get_put_disjoint]

/-- Without a change of source and without an arm only the plain fields change. -/
theorem timeCtlEff_plain {v : Word} {s : State} (h : wordField v 0 2 = s.get Reg.TIME_CTL.SRC) (ha : wordField v 3 1 = 0) :
    timeCtlEff v s = ctlFields v s := by
  rw [timeCtlEff_taken (.inl h), ctlSource_same h, if_neg (by omega)]

theorem completes_timeCtlWrite (s : State) (h : HostId) (v : Word) (ht : Takes s h Reg.TIME_CTL.off) :
    Completes (.timeCtlWrite h v) s fun t =>
      (wordField v 0 2 ≠ s.get Reg.TIME_CTL.SRC → s.schedBusy = true →
          t.get Reg.TIME_STS.CTL_REJ = 1 ∧ FieldsBut [Reg.TIME_STS.CTL_REJ] s t ∧ t.time = s.time)
      ∧ (wordField v 0 2 = s.get Reg.TIME_CTL.SRC ∨ s.schedBusy = false →
          t.get Reg.TIME_CTL.SRC = wordField v 0 2 ∧ t.get Reg.TIME_CTL.PTP_BC = wordField v 2 1
          ∧ (4 ≤ wordField v 4 3 → wordField v 4 3 ≤ 6 → t.get Reg.TIME_CTL.DEMOTE_TC = wordField v 4 3))
      ∧ (wordField v 0 2 ≠ s.get Reg.TIME_CTL.SRC → s.schedBusy = false →
          t.get Reg.TIME_STS.STATE = (if wordField v 0 2 = 3 then 0 else 1) ∧ t.get Reg.TIME_STS.HOLD_MS = 0 ∧ t.get Reg.TIME_STS.SRC_VALID = 0
          ∧ t.time.timerRunning = false)
      ∧ (wordField v 0 2 = s.get Reg.TIME_CTL.SRC → wordField v 3 1 = 0 → t.time = s.time ∧ t.get Reg.TIME_STS.STATE = s.get Reg.TIME_STS.STATE)
      ∧ t.time.ftNs = s.time.ftNs ∧ t.time.frac = s.time.frac ∧ RegsBut [Reg.TIME_CTL.off, Reg.TIME_STS.off, Reg.TIME_OFFSET.off] s t
      ∧ t = { s with regs := t.regs, time := t.time, sched := t.sched } := by
  have hframe := timeCtlEff_same v s
  refine ⟨timeCtlEff v s, congrArg Host.Outcome.next (hostWrite_takes _ ht), fun hne hb => ?_, fun htaken => ?_, timeCtlEff_newSource,
    fun hsame ha => ?_, hframe.ftNs rfl, hframe.ftFrac rfl, regsBut_timeCtlEff v s, eq_patch_of_same hframe⟩
  · rw [timeCtlEff_refused hne hb]
    exact ⟨get_put_fits _ _ _ (by decide) (by decide), fieldsBut_put _ _ (fieldsBut_refl _ s) (by decide) (by simp), rfl⟩
  · rw [get_timeCtlEff htaken (by decide) (by decide) rfl, get_timeCtlEff htaken (by decide) (by decide) rfl,
      get_timeCtlEff htaken (by decide) (by decide) rfl]
    exact ⟨get_ctlFields_src v s, get_ctlFields_ptpBc v s, get_ctlFields_demoteTc s⟩
  · rw [timeCtlEff_plain hsame ha]
    exact ⟨ctlFields_time v s, get_ctlFields_ne v s (by decide)⟩

/-! SET_ARM -/

/-- The word with SET_ARM set has the other fields of the write. -/
theorem wordField_or_setArm (v : Word) :
    wordField (v ||| 8) 0 2 = wordField v 0 2 ∧ wordField (v ||| 8) 2 1 = wordField v 2 1 ∧ wordField (v ||| 8) 3 1 = 1 := by
  unfold wordField
  simp only [BitVec.extractLsb'_or]
  refine ⟨?_, ?_, ?_⟩
  · simp
  · simp
  · generalize BitVec.extractLsb' 3 1 v = b
    revert b
    decide

/-- An arm with the source unchanged. -/
theorem timeCtlEff_setArm {v : Word} {s : State} (h : wordField v 0 2 = s.get Reg.TIME_CTL.SRC) :
    timeCtlEff (v ||| 8) s = (ctlFields (v ||| 8) s).armSet := by
  obtain ⟨hsrc, -, harm⟩ := wordField_or_setArm v
  have hsame := hsrc.trans h
  rw [timeCtlEff_taken (.inl hsame), ctlSource_same hsame, if_pos harm]

theorem pair_timeSet_ctlFields (v : Word) (s : State) :
    (ctlFields v s).pair Reg.TIME_SET_LO.SET Reg.TIME_SET_HI.SET = s.pair Reg.TIME_SET_LO.SET Reg.TIME_SET_HI.SET := by
  unfold State.pair
  rw [get_ctlFields_ne v s (by decide), get_ctlFields_ne v s (by decide)]

theorem get_ctlFields_setArm (v : Word) (s : State) : (ctlFields v s).get Reg.TIME_CTL.SET_ARM = s.get Reg.TIME_CTL.SET_ARM := by
  unfold ctlFields
  dsimp only
  split <;> simp (disch := decide) [get_put_disjoint]

theorem fieldsBut_ctlFields {fs : List Fld} (v : Word) (s : State)
    (h : ∀ f ∈ [Reg.TIME_CTL.SRC, Reg.TIME_CTL.PTP_BC, Reg.TIME_CTL.DEMOTE_TC], f ∈ fs) : FieldsBut fs s (ctlFields v s) := by
  have hput := fieldsBut_put Reg.TIME_CTL.PTP_BC (wordField v 2 1)
    (fieldsBut_put Reg.TIME_CTL.SRC (wordField v 0 2) (fieldsBut_refl fs s) (by decide) (h _ (by simp))) (by decide) (h _ (by simp))
  unfold ctlFields
  dsimp only
  split
  · exact fieldsBut_put _ _ hput (by decide) (h _ (by simp))
  · exact hput

theorem completes_setArm (s : State) (h : HostId) (v : Word) (ht : Takes s h Reg.TIME_CTL.off)
    (hsame : wordField v 0 2 = s.get Reg.TIME_CTL.SRC) :
    Completes (.setArm h v) s fun t =>
      (s.get Reg.TIME_CTL.SRC = 0 → s.pair Reg.TIME_SET_LO.SET Reg.TIME_SET_HI.SET % 1000000000 = 0 →
          t.get Reg.TIME_CTL.SET_ARM = 1 ∧ t.time.armed = some (BitVec.ofNat 64 (s.pair Reg.TIME_SET_LO.SET Reg.TIME_SET_HI.SET))
          ∧ t.get Reg.TIME_STS.CTL_REJ = s.get Reg.TIME_STS.CTL_REJ)
      ∧ (s.get Reg.TIME_CTL.SRC ≠ 0 ∨ s.pair Reg.TIME_SET_LO.SET Reg.TIME_SET_HI.SET % 1000000000 ≠ 0 →
          t.get Reg.TIME_STS.CTL_REJ = 1 ∧ t.get Reg.TIME_CTL.SET_ARM = s.get Reg.TIME_CTL.SET_ARM ∧ t.time = s.time)
      ∧ t.get Reg.TIME_CTL.SRC = s.get Reg.TIME_CTL.SRC ∧ t.get Reg.TIME_CTL.PTP_BC = wordField v 2 1
      ∧ FieldsBut [Reg.TIME_CTL.SRC, Reg.TIME_CTL.PTP_BC, Reg.TIME_CTL.SET_ARM, Reg.TIME_CTL.DEMOTE_TC, Reg.TIME_STS.CTL_REJ] s t
      ∧ t.time.ftNs = s.time.ftNs ∧ t = { s with regs := t.regs, time := t.time } := by
  obtain ⟨hsrc, hptp, -⟩ := wordField_or_setArm v
  have hcur : (ctlFields (v ||| 8) s).get Reg.TIME_CTL.SRC = s.get Reg.TIME_CTL.SRC := by rw [get_ctlFields_src, hsrc, hsame]
  have hpair := pair_timeSet_ctlFields (v ||| 8) s
  have hframe : Same 6 s (ctlFields (v ||| 8) s).armSet := by
    refine Same.seq ?_ (armSet_same _) (by decide)
    unfold ctlFields
    dsimp only
    have hput : Same 6 s ((s.put Reg.TIME_CTL.SRC (wordField (v ||| 8) 0 2)).put Reg.TIME_CTL.PTP_BC (wordField (v ||| 8) 2 1)) :=
      ((put_same ..).trans (put_same ..)).mono (by decide)
    exact Same.ite (hput.seq (put_same ..) (by decide)) hput
  refine ⟨(ctlFields (v ||| 8) s).armSet, congrArg Host.Outcome.next ((hostWrite_takes _ ht).trans (timeCtlEff_setArm hsame)),
    fun h0 hz => ?_, fun hno => ?_, ?_, ?_, ?_, hframe.ftNs rfl, eq_patch_of_same hframe⟩
  · rw [armSet_latches (hcur.trans h0) (by rw [hpair, hz]), hpair, get_withTime]
    refine ⟨get_put_fits _ _ _ (by decide) (by decide), rfl, ?_⟩
    rw [get_withTime, get_put_ne _ _ _ _ (by decide), get_ctlFields_ne _ _ (by decide)]
  · rw [armSet_refused (by rwa [hcur, hpair])]
    refine ⟨get_put_fits _ _ _ (by decide) (by decide), ?_, ctlFields_time _ s⟩
    rw [get_put_ne _ _ _ _ (by decide), get_ctlFields_setArm]
  · rw [get_armSet (by decide) (by decide), hcur]
  · rw [get_armSet (by decide) (by decide), get_ctlFields_ptpBc, hptp]
  · exact fieldsBut_armSet (fieldsBut_ctlFields _ s (by decide)) (by decide) (by decide)

/-! TIME_PORT -/

theorem timePortEff_same_port {v : Word} {s : State} (h : wordField v 0 6 = s.get Reg.TIME_PORT.PORT) : timePortEff v s = s := if_pos h

theorem timePortEff_refused {v : Word} {s : State} (hne : wordField v 0 6 ≠ s.get Reg.TIME_PORT.PORT) (hb : s.schedBusy = true) :
    timePortEff v s = s.put Reg.TIME_STS.CTL_REJ 1 := by
  simp [timePortEff, hne, hb]

theorem timePortEff_free {v : Word} {s : State} (hne : wordField v 0 6 ≠ s.get Reg.TIME_PORT.PORT) (hb : s.schedBusy = false)
    (h3 : s.get Reg.TIME_CTL.SRC = 3) : timePortEff v s = s.put Reg.TIME_PORT.PORT (wordField v 0 6) := by
  have hsrc : (s.put Reg.TIME_PORT.PORT (wordField v 0 6)).get Reg.TIME_CTL.SRC = 3 := by rwa [get_put_ne _ _ _ _ (by decide)]
  simp [timePortEff, hne, hb, hsrc]

theorem timePortEff_source {v : Word} {s : State} (hne : wordField v 0 6 ≠ s.get Reg.TIME_PORT.PORT) (hb : s.schedBusy = false)
    (h3 : s.get Reg.TIME_CTL.SRC ≠ 3) : timePortEff v s = (s.put Reg.TIME_PORT.PORT (wordField v 0 6)).newSource := by
  have hsrc : (s.put Reg.TIME_PORT.PORT (wordField v 0 6)).get Reg.TIME_CTL.SRC ≠ 3 := by rwa [get_put_ne _ _ _ _ (by decide)]
  simp [timePortEff, hne, hb, hsrc]

theorem regsBut_timePortEff (v : Word) (s : State) :
    RegsBut [Reg.TIME_PORT.off, Reg.TIME_STS.off, Reg.TIME_OFFSET.off] s (timePortEff v s) := by
  have hput := regsBut_put Reg.TIME_PORT.PORT (wordField v 0 6)
    (regsBut_refl [Reg.TIME_PORT.off, Reg.TIME_STS.off, Reg.TIME_OFFSET.off] s) (by decide)
  unfold timePortEff
  dsimp only
  split
  · exact regsBut_refl _ s
  split
  · exact regsBut_put _ _ (regsBut_refl _ s) (by decide)
  split
  · exact hput
  · exact regsBut_newSource hput (by decide) (by decide)

theorem completes_timePortWrite (s : State) (h : HostId) (v : Word) (ht : Takes s h Reg.TIME_PORT.off) :
    Completes (.timePortWrite h v) s fun t =>
      (wordField v 0 6 = s.get Reg.TIME_PORT.PORT → t = s)
      ∧ (wordField v 0 6 ≠ s.get Reg.TIME_PORT.PORT → s.schedBusy = true →
          t.get Reg.TIME_STS.CTL_REJ = 1 ∧ FieldsBut [Reg.TIME_STS.CTL_REJ] s t ∧ t.time = s.time)
      ∧ (wordField v 0 6 ≠ s.get Reg.TIME_PORT.PORT → s.schedBusy = false → t.get Reg.TIME_PORT.PORT = wordField v 0 6
          ∧ (s.get Reg.TIME_CTL.SRC ≠ 3 → t.get Reg.TIME_STS.STATE = 1 ∧ t.get Reg.TIME_STS.HOLD_MS = 0)
          ∧ (s.get Reg.TIME_CTL.SRC = 3 → FieldsBut [Reg.TIME_PORT.PORT] s t))
      ∧ t.time.ftNs = s.time.ftNs ∧ RegsBut [Reg.TIME_PORT.off, Reg.TIME_STS.off, Reg.TIME_OFFSET.off] s t
      ∧ t = { s with regs := t.regs, time := t.time, sched := t.sched } := by
  have hframe := timePortEff_same v s
  have hport : (s.put Reg.TIME_PORT.PORT (wordField v 0 6)).get Reg.TIME_PORT.PORT = wordField v 0 6 :=
    get_put_fits _ _ _ (by decide) (wordField_lt v 0 6)
  refine ⟨timePortEff v s, congrArg Host.Outcome.next (hostWrite_takes _ ht), timePortEff_same_port, fun hne hb => ?_,
    fun hne hb => ⟨?_, fun h3 => ?_, fun h3 => ?_⟩, hframe.ftNs rfl, regsBut_timePortEff v s, eq_patch_of_same hframe⟩
  · rw [timePortEff_refused hne hb]
    exact ⟨get_put_fits _ _ _ (by decide) (by decide), fieldsBut_put _ _ (fieldsBut_refl _ s) (by decide) (by simp), rfl⟩
  · by_cases h3 : s.get Reg.TIME_CTL.SRC = 3
    · rw [timePortEff_free hne hb h3, hport]
    · rw [timePortEff_source hne hb h3]
      simp (disch := decide) [get_put_disjoint, hport]
  · rw [timePortEff_source hne hb h3, get_newSource_state, get_put_ne _ _ _ _ (by decide), if_neg h3]
    refine ⟨rfl, ?_⟩
    simp (disch := decide) [get_put_fits, get_put_disjoint]
  · rw [timePortEff_free hne hb h3]
    exact fieldsBut_put _ _ (fieldsBut_refl _ s) (by decide) (by simp)

/-! TIME_HOLD_LIMIT -/

theorem holdLimitEff_ignored {v : Word} {s : State} (h : wordField v 0 10 = 0 ∨ 1000 < wordField v 0 10) : holdLimitEff v s = s := if_pos h

theorem holdLimitEff_refused {v : Word} {s : State} (h1 : 1 ≤ wordField v 0 10) (h2 : wordField v 0 10 ≤ 1000)
    (hraise : s.get Reg.TIME_HOLD_LIMIT.LIMIT_MS < wordField v 0 10) (hb : s.schedBusy = true) :
    holdLimitEff v s = s.put Reg.TIME_STS.CTL_REJ 1 := by
  unfold holdLimitEff
  dsimp only
  rw [if_neg (by omega), if_pos ⟨hraise, hb⟩]

theorem holdLimitEff_taken {v : Word} {s : State} (h1 : 1 ≤ wordField v 0 10) (h2 : wordField v 0 10 ≤ 1000)
    (h : wordField v 0 10 ≤ s.get Reg.TIME_HOLD_LIMIT.LIMIT_MS ∨ s.schedBusy = false) :
    holdLimitEff v s = (s.put Reg.TIME_HOLD_LIMIT.LIMIT_MS (wordField v 0 10)).checkLoss := by
  have hgo : ¬ (s.get Reg.TIME_HOLD_LIMIT.LIMIT_MS < wordField v 0 10 ∧ s.schedBusy = true) := by
    rintro ⟨hlt, hb⟩
    simp [hb] at h
    omega
  unfold holdLimitEff
  dsimp only
  rw [if_neg (by omega), if_neg hgo]

theorem completes_timeHoldLimitWrite (s : State) (h : HostId) (v : Word) (ht : Takes s h Reg.TIME_HOLD_LIMIT.off) :
    Completes (.timeHoldLimitWrite h v) s fun t =>
      (wordField v 0 10 = 0 ∨ 1000 < wordField v 0 10 → t = s)
      ∧ (1 ≤ wordField v 0 10 → wordField v 0 10 ≤ 1000 → s.get Reg.TIME_HOLD_LIMIT.LIMIT_MS < wordField v 0 10 → s.schedBusy = true →
          t.get Reg.TIME_STS.CTL_REJ = 1 ∧ FieldsBut [Reg.TIME_STS.CTL_REJ] s t ∧ t.time = s.time)
      ∧ (1 ≤ wordField v 0 10 → wordField v 0 10 ≤ 1000 → wordField v 0 10 ≤ s.get Reg.TIME_HOLD_LIMIT.LIMIT_MS ∨ s.schedBusy = false →
          t.get Reg.TIME_HOLD_LIMIT.LIMIT_MS = wordField v 0 10 ∧ FieldsBut [Reg.TIME_HOLD_LIMIT.LIMIT_MS] s t
          ∧ (s.get Reg.TIME_STS.STATE = 3 → s.get Reg.TIME_STS.SRC_VALID = 0 → wordField v 0 10 ≤ s.get Reg.TIME_STS.HOLD_MS → t.time.lossMet = true))
      ∧ t.time.ftNs = s.time.ftNs ∧ t = { s with regs := t.regs, time := t.time } := by
  have hframe := holdLimitEff_same v s
  refine ⟨holdLimitEff v s, congrArg Host.Outcome.next (hostWrite_takes _ ht), holdLimitEff_ignored, fun h1 h2 hraise hb => ?_,
    fun h1 h2 hgo => ?_, hframe.ftNs rfl, eq_patch_of_same hframe⟩
  · rw [holdLimitEff_refused h1 h2 hraise hb]
    exact ⟨get_put_fits _ _ _ (by decide) (by decide), fieldsBut_put _ _ (fieldsBut_refl _ s) (by decide) (by simp), rfl⟩
  · have hlimit : (s.put Reg.TIME_HOLD_LIMIT.LIMIT_MS (wordField v 0 10)).get Reg.TIME_HOLD_LIMIT.LIMIT_MS = wordField v 0 10 :=
      get_put_fits _ _ _ (by decide) (wordField_lt v 0 10)
    rw [holdLimitEff_taken h1 h2 hgo, get_checkLoss]
    refine ⟨hlimit, fieldsBut_checkLoss (fieldsBut_put _ _ (fieldsBut_refl _ s) (by decide) (by simp)), fun h3 hv hl => checkLoss_lossMet ?_ ?_ ?_⟩
    · rwa [get_put_ne _ _ _ _ (by decide)]
    · rwa [get_put_ne _ _ _ _ (by decide)]
    · rwa [hlimit, get_put_ne _ _ _ _ (by decide)]

/-! TIME_NOW -/

theorem completes_timeNowRead (s : State) (h : HostId) (wide : Bool) (hr : s.bar0Reach h Reg.TIME_NOW_LO.off = true) :
    Completes (.timeNowRead h wide) s fun t =>
      t = { s with time := { s.time with latchHi := s.time.ftNs.extractLsb' 32 32, latchFrac := s.time.frac }, out := s.out ++ [Output.readData h 0 Reg.TIME_NOW_LO.off (leBytes (if wide then 8 else 4) s.time.ftNs.toNat)] } := by
  refine ⟨timeNowReadEff h wide s, rfl, ?_⟩
  unfold timeNowReadEff
  rw [if_pos hr]
  rfl

/-- Settles O2, register by register through the lemmas above. -/
theorem timeRegisterWrites : Obligations.TimeRegisterWrites := by
  unfold Obligations.TimeRegisterWrites
  exact ⟨completes_timeCtlWrite, completes_setArm, completes_timePortWrite, completes_timeHoldLimitWrite, completes_timeNowRead⟩

end Sys2Proof.Machine.Proofs
end

section
/-! PROOFS. PTP messages and the assignment of an armed value (01_fabric_time.md R13, R14). -/

namespace Sys2Proof.Machine.Proofs

open Laws

/-! PTP_MESSAGE_RECEIVE -/

/-- A message and its arrival are kept. -/
def ptpKeep (port : PortId) (m : PtpMsg) (arrival : BitVec 64) (s : State) : State :=
  { s with time := { s.time with ptpIn := s.time.ptpIn.set port (m, arrival) } }

/-- The slave port follows its master by a message. -/
def ptpFollow (port : PortId) (m : PtpMsg) (arrival : BitVec 64) (s : State) : State :=
  if s.ptpSlave port then
    let x := (s.ptpPort port).hear m (Int.ofNat arrival.toNat)
    match x.offset? with
    | some d => (s.setPtp port x).showOffset (256 * d)
    | none => s.setPtp port x
  else s

theorem ptpReceiveEff_native {s : State} {port : PortId} (m : PtpMsg) (arrival : BitVec 64) (h : s.get (Reg.LINK_CFG.MODE port) = 1) :
    ptpReceiveEff port m arrival s = s := if_pos h

theorem ptpReceiveEff_ethernet {s : State} {port : PortId} (m : PtpMsg) (arrival : BitVec 64) (h : s.get (Reg.LINK_CFG.MODE port) ≠ 1) :
    ptpReceiveEff port m arrival s = (ptpFollow port m arrival (ptpKeep port m arrival s)).emits
      (((ptpFollow port m arrival (ptpKeep port m arrival s)).ptpAnswers port arrival m).map (Output.ptp port)) :=
  if_neg h

/-- Following a master changes what the exchanges have gathered, and TIME_OFFSET. -/
theorem ptpFollow_cases (port : PortId) (m : PtpMsg) (arrival : BitVec 64) (s : State) :
    ptpFollow port m arrival s = s ∨ (∃ x, ptpFollow port m arrival s = s.setPtp port x)
      ∨ ∃ x d, ptpFollow port m arrival s = (s.setPtp port x).put Reg.TIME_OFFSET.OFFSET d := by
  unfold ptpFollow
  split
  · dsimp only
    split
    · unfold State.showOffset
      split
      · exact .inr (.inr ⟨_, _, rfl⟩)
      · exact .inr (.inl ⟨_, rfl⟩)
    · exact .inr (.inl ⟨_, rfl⟩)
  · exact .inl rfl

theorem ptpFollow_time (port : PortId) (m : PtpMsg) (arrival : BitVec 64) (s : State) :
    (ptpFollow port m arrival s).time = { s.time with ptp := (ptpFollow port m arrival s).time.ptp } := by
  rcases ptpFollow_cases port m arrival s with e | ⟨x, e⟩ | ⟨x, d, e⟩ <;> rw [e] <;> rfl

theorem ptpFollow_out (port : PortId) (m : PtpMsg) (arrival : BitVec 64) (s : State) : (ptpFollow port m arrival s).out = s.out := by
  rcases ptpFollow_cases port m arrival s with e | ⟨x, e⟩ | ⟨x, d, e⟩ <;> rw [e] <;> rfl

theorem fieldsBut_ptpFollow (port : PortId) (m : PtpMsg) (arrival : BitVec 64) (s : State) :
    FieldsBut [Reg.TIME_OFFSET.OFFSET] s (ptpFollow port m arrival s) := by
  rcases ptpFollow_cases port m arrival s with e | ⟨x, e⟩ | ⟨x, d, e⟩ <;> rw [e]
  · exact fieldsBut_refl _ s
  · exact fieldsBut_of_regs (fieldsBut_refl _ s) rfl
  · exact fieldsBut_put _ _ (fieldsBut_of_regs (fieldsBut_refl _ s) rfl) (by decide) (by simp)

/-- What a port answers, and whether it is a master or the slave, follows from registers other than TIME_OFFSET and from FT. -/
theorem ptpAnswers_of_fieldsBut {s t : State} (port : PortId) (arrival : BitVec 64) (m : PtpMsg)
    (h : FieldsBut [Reg.TIME_OFFSET.OFFSET] s t) (hft : t.time.ftNs = s.time.ftNs) : t.ptpAnswers port arrival m = s.ptpAnswers port arrival m := by
  have hlink : t.get (Reg.LINK_CFG.PTP_MASTER port) = s.get (Reg.LINK_CFG.PTP_MASTER port) := by
    refine h _ ?_ ?_
    · simp [Reg.LINK_CFG.PTP_MASTER]
    · simp [Fld.Apart, Reg.LINK_CFG.PTP_MASTER, Reg.LINK_CFG.off, Reg.TIME_OFFSET.OFFSET, Reg.TIME_OFFSET.off]
      omega
  have hsrc : t.get Reg.TIME_CTL.SRC = s.get Reg.TIME_CTL.SRC := h _ (by decide) (by decide)
  have hbc : t.get Reg.TIME_CTL.PTP_BC = s.get Reg.TIME_CTL.PTP_BC := h _ (by decide) (by decide)
  have hport : t.get Reg.TIME_PORT.PORT = s.get Reg.TIME_PORT.PORT := h _ (by decide) (by decide)
  have hslave : t.ptpSlave port = s.ptpSlave port := by simp [State.ptpSlave, hsrc, hport]
  have hmaster : t.ptpMaster port = s.ptpMaster port := by simp [State.ptpMaster, State.flag, hlink, hbc, hsrc, hslave]
  simp only [State.ptpAnswers, hslave, hmaster, hft]

/-- A port in Ethernet mode keeps a message and answers it. -/
theorem ptpReceiveEff_out {s : State} {port : PortId} (m : PtpMsg) (arrival : BitVec 64) (h : s.get (Reg.LINK_CFG.MODE port) ≠ 1) :
    (ptpReceiveEff port m arrival s).out = s.out ++ (s.ptpAnswers port arrival m).map (Output.ptp port) := by
  have hfields := fieldsBut_ptpFollow port m arrival (ptpKeep port m arrival s)
  have hft : (ptpFollow port m arrival (ptpKeep port m arrival s)).time.ftNs = (ptpKeep port m arrival s).time.ftNs := by rw [ptpFollow_time]
  have hanswers : (ptpKeep port m arrival s).ptpAnswers port arrival m = s.ptpAnswers port arrival m :=
    ptpAnswers_of_fieldsBut port arrival m (fieldsBut_of_regs (fieldsBut_refl _ s) rfl) rfl
  rw [ptpReceiveEff_ethernet m arrival h, ptpAnswers_of_fieldsBut port arrival m hfields hft, hanswers]
  exact congrArg (· ++ _) (ptpFollow_out ..)

theorem ptpReceiveEff_time {s : State} {port : PortId} (m : PtpMsg) (arrival : BitVec 64) (h : s.get (Reg.LINK_CFG.MODE port) ≠ 1) :
    (ptpReceiveEff port m arrival s).time
      = { s.time with ptpIn := s.time.ptpIn.set port (m, arrival), ptp := (ptpReceiveEff port m arrival s).time.ptp } := by
  rw [ptpReceiveEff_ethernet m arrival h]
  exact ptpFollow_time port m arrival (ptpKeep port m arrival s)

theorem fieldsBut_ptpReceiveEff (port : PortId) (m : PtpMsg) (arrival : BitVec 64) (s : State) :
    FieldsBut [Reg.TIME_OFFSET.OFFSET] s (ptpReceiveEff port m arrival s) := by
  by_cases h : s.get (Reg.LINK_CFG.MODE port) = 1
  · rw [ptpReceiveEff_native m arrival h]
    exact fieldsBut_refl _ s
  · rw [ptpReceiveEff_ethernet m arrival h]
    have hkeep : FieldsBut [Reg.TIME_OFFSET.OFFSET] s (ptpKeep port m arrival s) := fieldsBut_of_regs (fieldsBut_refl _ s) rfl
    exact fieldsBut_of_regs (fieldsBut_trans hkeep (fieldsBut_ptpFollow port m arrival _)) rfl

theorem completes_ptpMessageReceive (s : State) (port : PortId) (m : PtpMsg) (at_ : BitVec 64) :
    Completes (.ptpMessageReceive port m at_) s fun t =>
      (s.get (Reg.LINK_CFG.MODE port) = 1 → t = s)
      ∧ (s.get (Reg.LINK_CFG.MODE port) ≠ 1 → t.time = { s.time with ptpIn := s.time.ptpIn.set port (m, at_), ptp := t.time.ptp }
          ∧ (m.kind = .pdelayReq → s.ptpMaster port = true ∨ s.ptpSlave port = true →
              t.out = s.out ++ [Output.ptp port { kind := .pdelayResp, seq := m.seq, stamp := at_, twoStep := true },
                Output.ptp port { kind := .pdelayRespFollowUp, seq := m.seq, stamp := s.time.ftNs }])
          ∧ (m.kind = .delayReq → s.ptpMaster port = true →
              t.out = s.out ++ [Output.ptp port { kind := .delayResp, seq := m.seq, stamp := at_ }])
          ∧ (m.kind = .delayReq → s.ptpMaster port = false → t.out = s.out)
          ∧ (m.kind ≠ .delayReq → m.kind ≠ .pdelayReq → t.out = s.out))
      ∧ FieldsBut [Reg.TIME_OFFSET.OFFSET] s t ∧ t = { s with regs := t.regs, time := t.time, out := t.out } := by
  refine ⟨ptpReceiveEff port m at_ s, rfl, ptpReceiveEff_native m at_, fun h => ⟨ptpReceiveEff_time m at_ h, ?_⟩,
    fieldsBut_ptpReceiveEff port m at_ s, eq_patch_of_same (ptpReceiveEff_same port m at_ s)⟩
  rw [ptpReceiveEff_out m at_ h]
  unfold State.ptpAnswers
  refine ⟨fun hk hp => ?_, fun hk hp => ?_, fun hk hp => ?_, fun hd hp => ?_⟩
  · simp [hk, hp]
  · simp [hk, hp]
  · simp [hk, hp]
  · split
    · next hk => exact absurd hk hd
    · next hk => exact absurd hk hp
    · simp

/-! PTP_MESSAGE_SEND -/

/-- A port may send a message of a kind. -/
def ptpMay (s : State) (port : PortId) : PtpKind → Bool
  | .delayReq => s.ptpSlave port
  | .pdelayReq => s.ptpSlave port || s.ptpMaster port
  | _ => s.ptpMaster port

theorem ptpSendEff_silent {s : State} {port : PortId} {m : PtpMsg} (h : s.get (Reg.LINK_CFG.MODE port) ≠ 0 ∨ ptpMay s port m.kind = false) :
    ptpSendEff port m s = s := by
  unfold ptpMay at h
  refine if_neg fun hgo => ?_
  obtain ⟨hmode, hmay⟩ := Bool.and_eq_true_iff.mp hgo
  rcases h with h | h
  · exact h (beq_iff_eq.mp hmode)
  · exact Bool.false_ne_true (h.symm.trans hmay)

/-- A message that may go is sent, and its departure kept. -/
theorem ptpSendEff_sends {s : State} {port : PortId} {m : PtpMsg} (hmode : s.get (Reg.LINK_CFG.MODE port) = 0)
    (hmay : ptpMay s port m.kind = true) :
    ptpSendEff port m s = { s with
      time := { s.time with ptpOut := s.time.ptpOut.set port (m, s.time.ftNs), ptp := (ptpSendEff port m s).time.ptp }
      out := s.out ++ [Output.ptp port m] } := by
  have hgo : ptpSendEff port m s = _ := if_pos (Bool.and_eq_true_iff.mpr ⟨beq_iff_eq.mpr hmode, hmay⟩)
  rw [hgo]
  dsimp only
  split <;> rfl

theorem ptpMay_master {s : State} {port : PortId} {k : PtpKind} (hk : k ≠ .delayReq) (h : s.ptpMaster port = true) :
    ptpMay s port k = true := by
  cases k with
  | delayReq => exact absurd rfl hk
  | pdelayReq => simp [ptpMay, h]
  | _ => exact h

theorem ptpMay_other {s : State} {port : PortId} {k : PtpKind} (hd : k ≠ .delayReq) (hp : k ≠ .pdelayReq) (h : s.ptpMaster port = false) :
    ptpMay s port k = false := by
  cases k with
  | delayReq => exact absurd rfl hd
  | pdelayReq => exact absurd rfl hp
  | _ => exact h

theorem completes_ptpMessageSend (s : State) (port : PortId) (m : PtpMsg) :
    Completes (.ptpMessageSend port m) s fun t =>
      (s.get (Reg.LINK_CFG.MODE port) = 0 → s.ptpMaster port = true → m.kind ≠ .delayReq →
          t = { s with time := { s.time with ptpOut := s.time.ptpOut.set port (m, s.time.ftNs), ptp := t.time.ptp }, out := s.out ++ [Output.ptp port m] })
      ∧ (s.get (Reg.LINK_CFG.MODE port) = 0 → s.get Reg.TIME_CTL.SRC = 2 → s.get Reg.TIME_PORT.PORT = port.val → m.kind = .delayReq →
          t = { s with time := { s.time with ptpOut := s.time.ptpOut.set port (m, s.time.ftNs), ptp := t.time.ptp }, out := s.out ++ [Output.ptp port m] })
      ∧ (s.get (Reg.LINK_CFG.MODE port) ≠ 0 → t = s)
      ∧ (s.ptpMaster port = false → m.kind ≠ .delayReq → m.kind ≠ .pdelayReq → t = s) := by
  refine ⟨ptpSendEff port m s, rfl, fun hmode hm hk => ptpSendEff_sends hmode (ptpMay_master hk hm), fun hmode hsrc hport hk => ?_,
    fun hmode => ptpSendEff_silent (.inl hmode), fun hm hd hp => ptpSendEff_silent (.inr (ptpMay_other hd hp hm))⟩
  refine ptpSendEff_sends hmode ?_
  rw [hk]
  simp [ptpMay, State.ptpSlave, hsrc, hport]

/-! TIME_SET_ASSIGN -/

theorem setAssignEff_armed {s : State} {v : BitVec 64} (h : s.time.armed = some v) :
    setAssignEff s = ({ ((s.setFt (v.toNat * 256)).put Reg.TIME_STS.STEPPED 1).put Reg.TIME_CTL.SET_ARM 0 with
      time := { (s.setFt (v.toNat * 256)).time with armed := none } } : State) := by
  simp only [setAssignEff, h]
  rfl

theorem setAssignEff_unarmed {s : State} (h : s.time.armed = none) : setAssignEff s = s := by
  simp only [setAssignEff, h]

theorem completes_timeSetAssign (s : State) :
    Completes (.timeSetAssign) s fun t =>
      (s.time.armed = none → t = s)
      ∧ (∀ v, s.time.armed = some v → t.time.ftNs = v ∧ t.time.frac = 0 ∧ t.time.phase = 0 ∧ t.time.armed = none
          ∧ t.get Reg.TIME_STS.STEPPED = 1 ∧ t.get Reg.TIME_CTL.SET_ARM = 0)
      ∧ FieldsBut [Reg.TIME_STS.STEPPED, Reg.TIME_CTL.SET_ARM] s t ∧ t = { s with regs := t.regs, time := t.time } := by
  refine ⟨setAssignEff s, rfl, setAssignEff_unarmed, fun v hv => ?_, ?_, eq_patch_of_same (setAssignEff_same s)⟩
  · rw [setAssignEff_armed hv]
    refine ⟨?_, ?_, rfl, rfl, ?_, ?_⟩
    · simp [State.setFt]
    · simp [State.setFt]
    · rw [get_withTime]
      simp (disch := decide) [get_put_fits, get_put_disjoint]
    · rw [get_withTime]
      simp (disch := decide) [get_put_fits]
  · cases hv : s.time.armed with
    | none =>
      rw [setAssignEff_unarmed hv]
      exact fieldsBut_refl _ s
    | some v =>
      rw [setAssignEff_armed hv]
      refine fieldsBut_of_regs (fieldsBut_put Reg.TIME_CTL.SET_ARM 0 (fieldsBut_put Reg.TIME_STS.STEPPED 1
        (fieldsBut_of_regs (fieldsBut_refl _ s) rfl) ?_ ?_) ?_ ?_) rfl <;> decide

/-- Settles O4, command by command through the lemmas above. -/
theorem ptpAndTimeSet : Obligations.PtpAndTimeSet := by
  unfold Obligations.PtpAndTimeSet
  exact ⟨completes_ptpMessageReceive, completes_ptpMessageSend, completes_timeSetAssign⟩

end Sys2Proof.Machine.Proofs
end

section
/-! PROOFS. Barrier units (01_fabric_time.md R32 to R34, 12_collectives.md R358 to R360). -/

namespace Sys2Proof.Machine.Proofs

open Laws

/-! A unit and its registers -/

@[simp] theorem bar_setBar_self (s : State) (n : Nat) (b : BarUnit) : (s.setBar n b).bar n = b := Sparse.getD_putD_self s.bars n b {}

theorem fieldOk_untimed (n : Nat) : FieldOk (Reg.TIME_BAR_STS.UNTIMED n) := by simp [Reg.TIME_BAR_STS.UNTIMED]

theorem fieldOk_releases (n : Nat) : FieldOk (Reg.TIME_BAR_STS.RELEASES n) := by simp [Reg.TIME_BAR_STS.RELEASES]

theorem get_countRelease_releases (s : State) (n : Nat) :
    (s.countRelease n).get (Reg.TIME_BAR_STS.RELEASES n) = min (s.get (Reg.TIME_BAR_STS.RELEASES n) + 1) 65535 :=
  get_count_self s _ 1 (fieldOk_releases n)

theorem get_put_untimed_releases (s : State) (n : Nat) :
    (s.put (Reg.TIME_BAR_STS.UNTIMED n) 1).get (Reg.TIME_BAR_STS.RELEASES n) = s.get (Reg.TIME_BAR_STS.RELEASES n) :=
  get_put_disjoint s _ _ 1 (fieldOk_untimed n) (fieldOk_releases n) (by simp [Reg.TIME_BAR_STS.UNTIMED, Reg.TIME_BAR_STS.RELEASES])

/-- A release without a slot shows UNTIMED. -/
theorem get_untimedRelease (s : State) (n : Nat) :
    ((s.put (Reg.TIME_BAR_STS.UNTIMED n) 1).countRelease n).get (Reg.TIME_BAR_STS.UNTIMED n) = 1 := by
  unfold State.countRelease State.count
  rw [get_put_disjoint _ _ _ _ (fieldOk_releases n) (fieldOk_untimed n)
    (by simp [Reg.TIME_BAR_STS.UNTIMED, Reg.TIME_BAR_STS.RELEASES])]
  exact get_put_fits _ _ _ (fieldOk_untimed n) (by simp [Reg.TIME_BAR_STS.UNTIMED])

theorem untimedRelease_same (s : State) (n : Nat) : Same 2 s ((s.put (Reg.TIME_BAR_STS.UNTIMED n) 1).countRelease n) :=
  (put_same ..).trans (countRelease_same ..)

theorem foldl_emit_eq_emits (s : State) (l : List Nat) (g : Nat → Output) : l.foldl (fun s f => s.emit (g f)) s = s.emits (l.map g) := by
  induction l generalizing s with
  | nil => simp [State.emits]
  | cons a l ih =>
    rw [List.foldl_cons, ih]
    simp [State.emit, State.emits]

/-- What a barrier command can change. -/
theorem coreOnly_of_same {s t : State} (h : Same 60493554262074 s t) : CoreOnly { s with colls := t.colls, bars := t.bars } t := by
  have hwide : Same 60768432169018 s t := h.mono (by decide)
  exact eq_patch_of_same hwide

/-! Cores that wait in BAR -/

/-- Some core waits in BAR on a unit. -/
def barWaited (s : State) (n : Nat) : Bool := s.cores.any fun e => e.2.wait == some (.bar n)

theorem barWaited_coreless {s : State} (n : Nat) (h : s.cores = []) : barWaited s n = false := by simp [barWaited, h]

theorem barNext_running {s : State} {n : Nat} {r : BarRun} (h : (s.bar n).run = some r) : s.barNext n = s :=
  if_pos (.inl (by rw [h]; rfl))

theorem barNext_unwaited {s : State} {n : Nat} (h : barWaited s n = false) : s.barNext n = s := if_pos (.inr h)

/-- The same after a change of the unit. -/
theorem barNext_setBar_unwaited {s : State} {n : Nat} (b : BarUnit) (h : barWaited s n = false) : (s.setBar n b).barNext n = s.setBar n b :=
  barNext_unwaited h

theorem barNext_starts {s : State} {n : Nat} (hr : (s.bar n).run = none) (hw : barWaited s n = true) :
    s.barNext n = (s.setBar n { s.bar n with seq := ((s.bar n).seq + 1) % 2 ^ 32 }).barStart n
      { members := (s.bar n).members, rank := (s.bar n).rank, seq := (s.bar n).seq } := by
  refine if_neg ?_
  rintro (h | h)
  · rw [hr] at h
    exact Bool.false_ne_true h
  · exact Bool.false_ne_true (h.symm.trans hw)

/-! The end of a barrier -/

/-- A barrier of no INVOKE, with no core to go on, ends at its unit alone. -/
theorem barEnd_barNext_coreless {s : State} {n : Nat} {r : BarRun} (st : Nat) (hr : (s.bar n).run = some r) (hc : r.coll = none)
    (hs : s.cores = []) : ∃ b : BarUnit, (s.barEnd n st).barNext n = s.setBar n b ∧ b.run = none := by
  let b : BarUnit := { s.bar n with
    run := none, arrivals := (s.bar n).arrivals.filter (fun a => a.seq != r.seq)
    withdrawn := (s.bar n).withdrawn.filter (· != r.seq) }
  have hcores : (s.setBar n b).cores = [] := hs
  have hend : s.barEnd n st = s.setBar n b := by
    simp only [State.barEnd, hr, hc]
    change List.foldl _ _ (List.map _ (s.setBar n b).cores) = _
    rw [hcores]
    rfl
  exact ⟨b, by rw [hend, barNext_setBar_unwaited b (barWaited_coreless n hs)], rfl⟩

/-! A member's release -/

theorem barRelease_idle {s : State} {n : Nat} (seq : Nat) (slot : Option Nat) (failed : Bool) (h : (s.bar n).run = none) :
    s.barRelease n seq slot failed = s := by
  simp only [State.barRelease, h]

theorem barRelease_other {s : State} {n seq : Nat} {r : BarRun} (slot : Option Nat) (failed : Bool) (hr : (s.bar n).run = some r)
    (h : r.seq ≠ seq ∨ r.release ≠ none) : s.barRelease n seq slot failed = s := by
  simp only [State.barRelease, hr]
  exact if_pos (by rwa [Option.isSome_iff_ne_none])

section
variable {s : State} {n seq : Nat} {r : BarRun} (hr : (s.bar n).run = some r) (hseq : r.seq = seq) (hrel : r.release = none)
include hr hseq hrel

theorem barRelease_failed (slot : Option Nat) : s.barRelease n seq slot true = s.barEnd n 0x31 := by
  simp [State.barRelease, hr, hseq, hrel]

theorem barRelease_untimed :
    s.barRelease n seq none false = ((s.put (Reg.TIME_BAR_STS.UNTIMED n) 1).countRelease n).barEnd n 0 := by
  simp [State.barRelease, hr, hseq, hrel]

theorem barRelease_late {x : Nat} (h : x ≤ s.slot) :
    s.barRelease n seq (some x) false = ((s.put (Reg.TIME_BAR_STS.LATE n) 1).countRelease n).barEnd n 0 := by
  simp [State.barRelease, hr, hseq, hrel, h]

theorem barRelease_future {x : Nat} (h : s.slot < x) :
    s.barRelease n seq (some x) false = s.setBar n { s.bar n with run := some { r with release := some x } } := by
  simp [State.barRelease, hr, hseq, hrel, Nat.not_le.mpr h]

end

theorem completes_barrierReleaseReceive (s : State) (u : Fin 16) (seq : Word) (slot : Option (BitVec 64)) (failed : Bool) :
    Completes (.barrierReleaseReceive u seq slot failed) s fun t =>
      ((s.bar u).run = none → (s.cores.any fun e => e.2.wait == some (.bar u)) = false → t = s)
      ∧ (∀ r, (s.bar u).run = some r →
          (r.seq ≠ seq.toNat ∨ r.release ≠ none → t = s)
          ∧ (r.seq = seq.toNat → r.release = none → failed = true → t = (s.barEnd u 0x31).barNext u)
          ∧ (r.seq = seq.toNat → r.release = none → failed = false → slot = none → t = (((s.put (Reg.TIME_BAR_STS.UNTIMED u) 1).countRelease u).barEnd u 0).barNext u)
          ∧ (r.seq = seq.toNat → r.release = none → failed = false → ∀ x, slot = some (x) →
              (x.toNat ≤ s.slot → t = (((s.put (Reg.TIME_BAR_STS.LATE u) 1).countRelease u).barEnd u 0).barNext u)
              ∧ (s.slot < x.toNat → t.bar u = { s.bar u with run := some { r with release := some x.toNat } } ∧ t = { s with bars := t.bars })))
      ∧ CoreOnly { s with colls := t.colls, bars := t.bars } t := by
  refine ⟨_, rfl, fun hn hw => ?_, fun r hr => ⟨fun hother => ?_, fun hseq hrel hf => ?_, fun hseq hrel hf hslot => ?_,
    fun hseq hrel hf x hslot => ⟨fun hx => ?_, fun hx => ?_⟩⟩, coreOnly_of_same (execBarrierReleaseReceive_same u seq slot failed s rfl)⟩
  · rw [barRelease_idle _ _ _ hn, barNext_unwaited hw]
  · rw [barRelease_other _ _ hr hother, barNext_running hr]
  · rw [hf, barRelease_failed hr hseq hrel]
  · rw [hf, hslot, Option.map_none, barRelease_untimed hr hseq hrel]
  · rw [hf, hslot, Option.map_some, barRelease_late hr hseq hrel hx]
  · rw [hf, hslot, Option.map_some, barRelease_future hr hseq hrel hx, barNext_running (congrArg BarUnit.run (bar_setBar_self ..))]
    exact ⟨bar_setBar_self .., rfl⟩

/-! The release slot -/

theorem barReleaseEff_unreleased {s : State} {n : Nat} {r : BarRun} (hr : (s.bar n).run = some r) (h : r.release = none) :
    barReleaseEff n s = s := by
  simp only [barReleaseEff, hr, h]

theorem barReleaseEff_released {s : State} {n x : Nat} {r : BarRun} (hr : (s.bar n).run = some r) (h : r.release = some x) :
    barReleaseEff n s = if x ≤ s.slot then ((s.countRelease n).barEnd n 0).barNext n else s := by
  simp only [barReleaseEff, hr, h]

theorem completes_barrierRelease (s : State) (u : Fin 16) :
    Completes (.barrierRelease u) s fun t =>
      ((s.bar u).run = none → t = s)
      ∧ (∀ r, (s.bar u).run = some r → (r.release = none → t = s)
          ∧ (∀ x, r.release = some (x) → (s.slot < x → t = s) ∧ (x ≤ s.slot → t = ((s.countRelease u).barEnd u 0).barNext u)
              ∧ (x ≤ s.slot → r.coll = none → s.cores = [] → (t.bar u).run = none ∧ t.get (Reg.TIME_BAR_STS.RELEASES u) = min (s.get (Reg.TIME_BAR_STS.RELEASES u) + 1) 65535 ∧ t = { s with regs := t.regs, bars := t.bars })))
      ∧ CoreOnly { s with colls := t.colls, bars := t.bars } t := by
  refine ⟨barReleaseEff u s, rfl, fun hn => ?_, fun r hr => ⟨barReleaseEff_unreleased hr, fun x hx => ⟨fun hlt => ?_, fun hle => ?_,
    fun hle hc hs => ?_⟩⟩, coreOnly_of_same (execBarrierRelease_same u s rfl)⟩
  · simp only [barReleaseEff, hn]
  · rw [barReleaseEff_released hr hx, if_neg (Nat.not_le.mpr hlt)]
  · rw [barReleaseEff_released hr hx, if_pos hle]
  · obtain ⟨b, hend, hrun⟩ := barEnd_barNext_coreless (s := s.countRelease u) 0 hr hc hs
    rw [barReleaseEff_released hr hx, if_pos hle, hend, bar_setBar_self]
    exact ⟨hrun, get_countRelease_releases s u, rfl⟩

/-! Arrivals -/

/-- A unit with an arrival kept, in place of an earlier one of its rank and SEQ. -/
def withArrival (b : BarUnit) (a : BarArrival) : BarUnit :=
  { b with arrivals := b.arrivals.filter (fun x => !(x.seq == a.seq && x.rank == a.rank)) ++ [a] }

/-- The arrivals of one SEQ after another of that SEQ. -/
theorem filter_withArrival {b : BarUnit} {a : BarArrival} {seq : Nat} (h : seq = a.seq) :
    (withArrival b a).arrivals.filter (fun x => x.seq == seq)
      = b.arrivals.filter (fun x => x.seq == a.seq && x.rank != a.rank) ++ [a] := by
  subst h
  have hkeep : ∀ x : BarArrival, (x.seq == a.seq && !(x.seq == a.seq && x.rank == a.rank)) = (x.seq == a.seq && x.rank != a.rank) := by
    intro x
    cases hs : x.seq == a.seq <;> simp [bne]
  unfold withArrival
  rw [List.filter_append, List.filter_filter, List.filter_congr fun x _ => hkeep x]
  simp

/-- The members of a barrier have all arrived. -/
def allArrived (r : BarRun) (as : List BarArrival) : Bool := (List.range r.members.length).all fun k => as.any fun a => a.rank == k

/-- The members of a barrier were all locked as they arrived. -/
def allLocked (as : List BarArrival) : Bool := as.all fun a => a.state == 2 || a.state == 3

/-- The latest arrival slot. -/
def latestSlot (as : List BarArrival) : Nat := as.foldl (fun m a => max m a.slot) 0

theorem barCheck_idle {s : State} {n : Nat} (h : (s.bar n).run = none) : s.barCheck n = s := by
  simp only [State.barCheck, h]

theorem barCheck_follower {s : State} {n : Nat} {r : BarRun} (hr : (s.bar n).run = some r) (h : r.rank ≠ 0 ∨ r.release ≠ none) :
    s.barCheck n = s := by
  simp only [State.barCheck, hr]
  exact if_pos (by rwa [Option.isSome_iff_ne_none])

section
variable {s : State} {n : Nat} {r : BarRun} (hr : (s.bar n).run = some r) (h0 : r.rank = 0) (hrel : r.release = none)
include hr h0 hrel

theorem barCheck_withdrawn (hw : (s.bar n).withdrawn.contains r.seq = true) : s.barCheck n = s.barSend n r none true := by
  simp only [State.barCheck, hr, h0, hrel, hw]
  rfl

variable {as : List BarArrival} (has : (s.bar n).arrivals.filter (fun a => a.seq == r.seq) = as)
  (hw : (s.bar n).withdrawn.contains r.seq = false)
include has hw

/-- What the coordinator does with the arrivals it holds of a SEQ that is not withdrawn. -/
theorem barCheck_arrivals :
    s.barCheck n = if allArrived r as = true then
        if allLocked as = true then s.barSend n r (some (latestSlot as + s.get (Reg.TIME_BAR_CTL.LEAD n))) false
        else s.barSend n r none false
      else s := by
  subst has
  simp only [State.barCheck, hr, h0, hrel, hw]
  rfl

end

theorem barSend_eq (s : State) (n : Nat) (r : BarRun) (slot : Option Nat) (failed : Bool) :
    s.barSend n r slot failed
      = (s.emits ((r.members.drop 1).map fun f => Output.barrierRelease f n r.seq slot failed)).barRelease n r.seq slot failed := by
  unfold State.barSend
  rw [foldl_emit_eq_emits]

section
variable {s : State} {n : Nat} {r : BarRun} (hr : (s.bar n).run = some r) (hrel : r.release = none)
include hr hrel

theorem barSend_untimed : s.barSend n r none false
    = (((s.emits ((r.members.drop 1).map fun f => Output.barrierRelease f n r.seq none false)).put (Reg.TIME_BAR_STS.UNTIMED n) 1).countRelease
      n).barEnd n 0 := by
  rw [barSend_eq]
  exact barRelease_untimed (s := s.emits _) hr rfl hrel

theorem barSend_future {x : Nat} (h : s.slot < x) : s.barSend n r (some x) false
    = (s.emits ((r.members.drop 1).map fun f => Output.barrierRelease f n r.seq (some x) false)).setBar n
      { s.bar n with run := some { r with release := some x } } := by
  rw [barSend_eq]
  exact barRelease_future (s := s.emits _) hr rfl hrel h

end

theorem barArrive_eq (s : State) (n : Nat) (a : BarArrival) : s.barArrive n a = (s.setBar n (withArrival (s.bar n) a)).barCheck n := rfl

/-- An arrival that finds no coordinator's barrier is kept and does no more. -/
theorem barArrive_kept {s : State} {n : Nat} (a : BarArrival)
    (h : (s.bar n).run = none ∨ ∃ r, (s.bar n).run = some r ∧ (r.rank ≠ 0 ∨ r.release ≠ none)) :
    s.barArrive n a = s.setBar n (withArrival (s.bar n) a) := by
  have hrun : ((s.setBar n (withArrival (s.bar n) a)).bar n).run = (s.bar n).run := by rw [bar_setBar_self]; rfl
  rw [barArrive_eq]
  rcases h with h | ⟨r, hr, h⟩
  · exact barCheck_idle (hrun.trans h)
  · exact barCheck_follower (hrun.trans hr) h

theorem completes_barrierArrival (s : State) (u : Fin 16) (seq : Word) (rank : Fin 1024) (slot : BitVec 64) (st : Fin 5) :
    Completes (.barrierArrival u seq rank slot st) s fun t =>
      ((s.bar u).run = none → (s.cores.any fun e => e.2.wait == some (.bar u)) = false →
            t.bar u = { s.bar u with arrivals := (s.bar u).arrivals.filter (fun x => !(x.seq == seq.toNat && x.rank == rank.val)) ++ [{ seq := seq.toNat, rank := rank, slot := slot.toNat, state := st }] } ∧ t = { s with bars := t.bars })
      ∧ (∀ r, (s.bar u).run = some r → r.rank ≠ 0 ∨ r.release ≠ none →
            t.bar u = { s.bar u with arrivals := (s.bar u).arrivals.filter (fun x => !(x.seq == seq.toNat && x.rank == rank.val)) ++ [{ seq := seq.toNat, rank := rank, slot := slot.toNat, state := st }] } ∧ t = { s with bars := t.bars })
      ∧ CoreOnly { s with colls := t.colls, bars := t.bars } t := by
  refine ⟨_, rfl, fun hn hw => ?_, fun r hr h => ?_, coreOnly_of_same (execBarrierArrival_same u seq rank slot st s rfl)⟩
  · rw [barArrive_kept _ (.inl hn), barNext_setBar_unwaited _ hw]
    exact ⟨bar_setBar_self .., rfl⟩
  · rw [barArrive_kept _ (.inr ⟨r, hr, h⟩), barNext_running (r := r) (by rw [bar_setBar_self]; exact hr)]
    exact ⟨bar_setBar_self .., rfl⟩

theorem completes_barrierArrival_coordinator (s : State) (u : Fin 16) (seq : Word) (rank : Fin 1024) (slot : BitVec 64) (st : Fin 5) (r : BarRun)
    (as : List BarArrival)
    (hrun : (s.bar u).run = some r ∧ r.rank = 0 ∧ r.release = none ∧ r.seq = seq.toNat ∧ (s.bar u).withdrawn.contains r.seq = false)
    (has : as = (s.bar u).arrivals.filter (fun x => x.seq == seq.toNat && x.rank != rank.val) ++ [{ seq := seq.toNat, rank := rank, slot := slot.toNat, state := st }]) :
    Completes (.barrierArrival u seq rank slot st) s fun t =>
      ((List.range r.members.length).all (fun k => as.any fun a => a.rank == k) = false → (t.bar u).run = some r ∧ t = { s with bars := t.bars })
      ∧ ((List.range r.members.length).all (fun k => as.any fun a => a.rank == k) = true → as.all (fun a => a.state == 2 || a.state == 3) = true →
          s.slot < as.foldl (fun m a => max m a.slot) 0 + s.get (Reg.TIME_BAR_CTL.LEAD u) →
          (t.bar u).run = some { r with release := some (as.foldl (fun m a => max m a.slot) 0 + s.get (Reg.TIME_BAR_CTL.LEAD u)) }
          ∧ t.out = s.out ++ (r.members.drop 1).map (fun f => Output.barrierRelease f u r.seq (some (as.foldl (fun m a => max m a.slot) 0 + s.get (Reg.TIME_BAR_CTL.LEAD u))) false)
          ∧ t = { s with bars := t.bars, out := t.out })
      ∧ ((List.range r.members.length).all (fun k => as.any fun a => a.rank == k) = true → as.all (fun a => a.state == 2 || a.state == 3) = false → r.coll = none → s.cores = [] →
          t.get (Reg.TIME_BAR_STS.UNTIMED u) = 1 ∧ (t.bar u).run = none
          ∧ t.out = s.out ++ (r.members.drop 1).map (fun f => Output.barrierRelease f u r.seq none false) ∧ t = { s with regs := t.regs, bars := t.bars, out := t.out }) := by
  obtain ⟨hr, h0, hrel, hseq, hw⟩ := hrun
  let a : BarArrival := { seq := seq.toNat, rank := rank, slot := slot.toNat, state := st }
  let k : State := s.setBar u (withArrival (s.bar u) a)
  have hbar : k.bar u = withArrival (s.bar u) a := bar_setBar_self ..
  have hkr : (k.bar u).run = some r := by rw [hbar]; exact hr
  have hkas : (k.bar u).arrivals.filter (fun x => x.seq == r.seq) = as := by rw [hbar, filter_withArrival hseq, has]
  have hkw : (k.bar u).withdrawn.contains r.seq = false := by rw [hbar]; exact hw
  have hcheck := barCheck_arrivals hkr h0 hrel hkas hkw
  refine ⟨(k.barCheck u).barNext u, rfl, fun hall => ?_, fun hall hlock hlt => ?_, fun hall hlock hc hs => ?_⟩
  · rw [hcheck, allArrived, hall, if_neg Bool.false_ne_true, barNext_running hkr]
    exact ⟨hkr, rfl⟩
  · rw [hcheck, allArrived, if_pos hall, allLocked, if_pos hlock, barSend_future (x := latestSlot as + k.get (Reg.TIME_BAR_CTL.LEAD u)) hkr hrel hlt,
      barNext_running (congrArg BarUnit.run (bar_setBar_self ..)), bar_setBar_self]
    exact ⟨rfl, rfl, rfl⟩
  · rw [hcheck, allArrived, if_pos hall, allLocked, hlock, if_neg Bool.false_ne_true, barSend_untimed hkr hrel]
    let e : State := k.emits ((r.members.drop 1).map fun f => Output.barrierRelease f u r.seq none false)
    obtain ⟨b, hend, hb⟩ := barEnd_barNext_coreless (n := u) (s := (e.put (Reg.TIME_BAR_STS.UNTIMED u) 1).countRelease u) 0 hkr hc hs
    have hsent : Same 35201551958018 s e := (setBar_same s u _).mono (by decide) |>.seq (emits_same k _) (by decide)
    have hafter : Same 17179869186 e (((e.put (Reg.TIME_BAR_STS.UNTIMED u) 1).countRelease u).setBar u b) :=
      (untimedRelease_same e u).mono (by decide) |>.seq (setBar_same ..) (by decide)
    rw [hend, bar_setBar_self, get_setBar, get_untimedRelease]
    exact ⟨rfl, hb, hafter.out rfl, eq_patch_of_same (hsent.seq hafter (by decide))⟩

/-! Timeouts and withdrawals -/

/-- The timeout of a barrier INVOKE; none for a barrier of cores. -/
def barLimit (s : State) (r : BarRun) : Nat :=
  match r.coll with
  | some (q, pos) => ((s.colls.find? (fun c => c.queue == q && c.pos == pos)).map (fun (c : Coll) => leAt c.args 22 2)).getD 0
  | none => 0

theorem barTimeoutEff_running {s : State} {n : Nat} {r : BarRun} (hr : (s.bar n).run = some r) :
    barTimeoutEff n s = if barLimit s r = 0 ∨ r.release.isSome = true then s
      else if r.rank = 0 then (s.barSend n r none true).barNext n
      else ((s.emit (.barrierWithdrawal (r.members.getD 0 0) n r.seq r.rank)).barEnd n 0x31).barNext n := by
  simp only [barTimeoutEff, hr]
  rfl

theorem completes_barrierTimeout (s : State) (u : Fin 16) :
    Completes (.barrierTimeout u) s fun t =>
      ((s.bar u).run = none → t = s)
      ∧ (∀ r, (s.bar u).run = some r → (r.release ≠ none ∨ r.coll = none → t = s))
      ∧ CoreOnly { s with colls := t.colls, bars := t.bars } t := by
  refine ⟨barTimeoutEff u s, rfl, fun hn => ?_, fun r hr h => ?_, coreOnly_of_same (execBarrierTimeout_same u s rfl)⟩
  · simp only [barTimeoutEff, hn]
  · rw [barTimeoutEff_running hr]
    refine if_pos ?_
    rcases h with h | h
    · exact .inr (Option.isSome_iff_ne_none.mpr h)
    · exact .inl (by simp only [barLimit, h])

theorem completes_barrierTimeout_invoke (s : State) (u : Fin 16) (r : BarRun) (n pos : Nat) (x : Coll)
    (hrun : (s.bar u).run = some r ∧ r.release = none ∧ r.coll = some (n, pos) ∧ s.colls.find? (fun c => c.queue == n && c.pos == pos) = some x) :
    Completes (.barrierTimeout u) s fun t =>
      (leAt x.args 22 2 = 0 → t = s)
      ∧ (leAt x.args 22 2 ≠ 0 → r.rank ≠ 0 → t = ((s.emit (.barrierWithdrawal (r.members.getD 0 0) u r.seq r.rank)).barEnd u 0x31).barNext u)
      ∧ (leAt x.args 22 2 ≠ 0 → r.rank = 0 → t = (s.barSend u r none true).barNext u) := by
  obtain ⟨hr, hrel, hc, hx⟩ := hrun
  have hlimit : barLimit s r = leAt x.args 22 2 := by simp [barLimit, hc, hx]
  have hwaits (h : leAt x.args 22 2 ≠ 0) : ¬ (barLimit s r = 0 ∨ r.release.isSome = true) := by simp [hlimit, hrel, h]
  refine ⟨barTimeoutEff u s, rfl, fun h => ?_, fun h h0 => ?_, fun h h0 => ?_⟩ <;> rw [barTimeoutEff_running hr]
  · exact if_pos (.inl (hlimit.trans h))
  · rw [if_neg (hwaits h), if_neg h0]
  · rw [if_neg (hwaits h), if_pos h0]

theorem contains_addTo (l : List Nat) (x : Nat) : (addTo l x).contains x = true := by
  unfold addTo
  split
  · assumption
  · simp

theorem completes_barrierWithdrawal (s : State) (u : Fin 16) (seq : Word) :
    Completes (.barrierWithdrawal u seq) s fun t =>
      ((s.bar u).run = none → (s.cores.any fun e => e.2.wait == some (.bar u)) = false → t.bar u = { s.bar u with withdrawn := addTo (s.bar u).withdrawn seq.toNat } ∧ t = { s with bars := t.bars })
      ∧ (∀ r, (s.bar u).run = some r →
          (r.rank ≠ 0 ∨ r.release ≠ none → t.bar u = { s.bar u with withdrawn := addTo (s.bar u).withdrawn seq.toNat } ∧ t = { s with bars := t.bars })
          ∧ (r.rank = 0 → r.release = none → r.seq = seq.toNat → t = ((s.setBar u { s.bar u with withdrawn := addTo (s.bar u).withdrawn seq.toNat }).barSend u r none true).barNext u))
      ∧ CoreOnly { s with colls := t.colls, bars := t.bars } t := by
  let k : State := s.setBar u { s.bar u with withdrawn := addTo (s.bar u).withdrawn seq.toNat }
  have hbar : k.bar u = { s.bar u with withdrawn := addTo (s.bar u).withdrawn seq.toNat } := bar_setBar_self ..
  have hkrun : (k.bar u).run = (s.bar u).run := by rw [hbar]
  refine ⟨(k.barCheck u).barNext u, rfl, fun hn hw => ?_, fun r hr => ⟨fun h => ?_, fun h0 hrel hseq => ?_⟩,
    coreOnly_of_same (execBarrierWithdrawal_same u seq s rfl)⟩
  · rw [barCheck_idle (hkrun.trans hn), barNext_setBar_unwaited _ hw]
    exact ⟨hbar, rfl⟩
  · rw [barCheck_follower (hkrun.trans hr) h, barNext_running (hkrun.trans hr)]
    exact ⟨hbar, rfl⟩
  · rw [barCheck_withdrawn (hkrun.trans hr) h0 hrel (by rw [hbar, hseq]; exact contains_addTo ..)]

/-! BAR -/

/-- A command whose row is the core's next instruction runs it. -/
theorem issue_of_issues {s : State} {c : Nat} {row : HylRow} {w : Nat} (act : Nat → State → State) (h : Issues s c row w) (hw : w ≠ 0) :
    s.issue c row act = act w s := by
  obtain ⟨hfetch, hrow, haes⟩ := h
  simp [State.issue, hfetch, hrow, haes, hw]

theorem ne_zero_of_hylRow_bar {w : Nat} (h : hylRow w = some .bar) : w ≠ 0 := by
  rintro rfl
  exact absurd h (by decide)

theorem mem_of_at? {α : Type} {m : Sparse α} {i : Nat} {v : α} (h : m.at? i = some v) : (i, v) ∈ m := by
  induction m with
  | nil => simp at h
  | cons e m ih =>
    obtain ⟨k, w⟩ := e
    rw [Sparse.at?_cons] at h
    split at h
    · next hk =>
      cases hk
      cases h
      exact List.mem_cons_self
    · exact List.mem_cons_of_mem _ (ih h)

/-- A core that waits in BAR is among those that the unit looks at. -/
theorem barWaited_setCore {s : State} (c n : Nat) {k : Core} (h : k.wait = some (.bar n)) : barWaited (s.setCore c k) n = true := by
  have hne : k ≠ {} := by
    rintro rfl
    cases h
  have hmem : (c, k) ∈ s.cores.putD c k {} := by
    unfold Sparse.putD
    rw [if_neg hne]
    exact mem_of_at? (Sparse.at?_set_self ..)
  exact List.any_eq_true.mpr ⟨_, hmem, by rw [h]; exact beq_self_eq_true _⟩

theorem barEff_nonmember {s : State} {c w : Nat} (h : (s.bar (w % 16)).holder ≠ some (cidPart (s.core c).cid)) :
    barEff c w s = ((s.put (Reg.TIME_BAR_STS.UNTIMED (w % 16)) 1).countRelease (w % 16)).setCore c (s.core c).next := by
  unfold barEff
  exact if_pos h

theorem barEff_member {s : State} {c w : Nat} (h : (s.bar (w % 16)).holder = some (cidPart (s.core c).cid)) :
    barEff c w s = (s.modCore c fun k => { k with wait := some (.bar (w % 16)) }).barNext (w % 16) := by
  unfold barEff
  exact if_neg (not_not_intro h)

theorem completes_bar (s : State) (c : CoreId) (w : Nat) (hi : Issues s c .bar w) :
    Completes (.bar c) s fun t =>
      ((s.bar (w % 16)).holder ≠ some (cidPart (s.core c).cid) →
            t.core c = (s.core c).next ∧ CoresBut [c.val] s t ∧ t.get (Reg.TIME_BAR_STS.UNTIMED (w % 16)) = 1
            ∧ t.get (Reg.TIME_BAR_STS.RELEASES (w % 16)) = min (s.get (Reg.TIME_BAR_STS.RELEASES (w % 16)) + 1) 65535
            ∧ FieldsBut [Reg.TIME_BAR_STS.UNTIMED (w % 16), Reg.TIME_BAR_STS.RELEASES (w % 16)] s t ∧ t = { s with regs := t.regs, cores := t.cores })
      ∧ ((s.bar (w % 16)).holder = some (cidPart (s.core c).cid) → (s.bar (w % 16)).run ≠ none → CoreBecomes c { s.core c with wait := some (.bar (w % 16)) } s t)
      ∧ ((s.bar (w % 16)).holder = some (cidPart (s.core c).cid) → (s.bar (w % 16)).run = none →
            t = ((s.modCore c (fun k => { k with wait := some (.bar (w % 16)) })).setBar (w % 16) { s.bar (w % 16) with seq := ((s.bar (w % 16)).seq + 1) % 2 ^ 32 }).barStart (w % 16) { members := (s.bar (w % 16)).members, rank := (s.bar (w % 16)).rank, seq := (s.bar (w % 16)).seq })
      ∧ CoreOnly { s with colls := t.colls, bars := t.bars } t := by
  have ⟨_, hrow, _⟩ := hi
  have hissue := issue_of_issues (barEff c.val) hi (ne_zero_of_hylRow_bar hrow)
  refine ⟨barEff c w s, congrArg Host.Outcome.next hissue, fun hno => ?_, fun hold hrun => ?_, fun hold hrun => ?_,
    coreOnly_of_same (barEff_same c w s)⟩
  · rw [barEff_nonmember hno, core_setCore_self, get_setCore, get_setCore, get_untimedRelease, get_countRelease_releases, get_put_untimed_releases]
    have hput := fieldsBut_put (fs := [Reg.TIME_BAR_STS.UNTIMED (w % 16), Reg.TIME_BAR_STS.RELEASES (w % 16)]) _ 1 (fieldsBut_refl _ s)
      (fieldOk_untimed (w % 16)) (by simp)
    have hframe : Same 8388610 s (((s.put (Reg.TIME_BAR_STS.UNTIMED (w % 16)) 1).countRelease (w % 16)).setCore c (s.core c).next) :=
      (untimedRelease_same s (w % 16)).mono (by decide) |>.seq (setCore_same ..) (by decide)
    exact ⟨rfl, coresBut_setCore _ _ (fun _ _ => rfl) (by simp), rfl, rfl,
      fieldsBut_of_regs (fieldsBut_count _ 1 hput (fieldOk_releases (w % 16)) (by simp)) rfl, eq_patch_of_same hframe⟩
  · obtain ⟨r, hr⟩ := Option.ne_none_iff_exists'.mp hrun
    rw [barEff_member hold, barNext_running (s := s.modCore c _) hr]
    exact ⟨core_setCore_self .., coresBut_setCore _ _ (coresBut_refl _ s) (by simp), rfl⟩
  · rw [barEff_member hold, barNext_starts (s := s.modCore c _) hrun (barWaited_setCore c _ rfl)]
    rfl

/-- Settles O26, command by command through the lemmas above. -/
theorem barrierUnits : Obligations.BarrierUnits := by
  unfold Obligations.BarrierUnits
  exact ⟨completes_barrierArrival, completes_barrierArrival_coordinator, completes_barrierReleaseReceive, completes_barrierRelease,
    completes_barrierTimeout, completes_barrierTimeout_invoke, completes_barrierWithdrawal, completes_bar⟩

end Sys2Proof.Machine.Proofs
end

section
/-! PROOFS. A submission made while the time unit is not LOCKED (01_fabric_time.md R27, 05_schedules_and_admission.md R133). -/

namespace Sys2Proof.Machine.Proofs

open Laws

/-- The submission that SUBMIT queues. -/
def submission (p : Nat) (s : State) : Submit :=
  { part := p, locked := s.get Reg.TIME_STS.STATE == 2, gen := s.get Reg.GLB_DUM_GEN.GEN, armed := s.flag Reg.MESH_STS.NEXT_ARMED
    preempt := (List.range 64).filter (fun q => s.flag (Reg.LINK_CFG.PREEMPT_EN q))
    addr := s.pair (Reg.SCHED_IMG_LO.ADDR_LO p) (Reg.SCHED_IMG_HI.ADDR_HI p), space := s.get (Reg.SCHED_IMG_HI.SPACE p)
    pages := s.get (Reg.SCHED_IMG_LEN.PAGES p) }

theorem submitEff_submits {s : State} {p : Nat} (h : s.get (Reg.SCHED_STATE.PEND p) = 0) :
    (submitEff p s).sched.submits = s.sched.submits ++ [submission p s] := by
  unfold submitEff
  rw [if_neg (not_not_intro h)]
  rfl

/-- A taken SUBMIT queues its submission. -/
theorem completes_submit {s : State} {h : HostId} {p : PartId} (ht : Takes s h (Reg.SCHED_CTL.off p))
    (hp : s.get (Reg.SCHED_STATE.PEND p) = 0) :
    Completes (.submit h p) s fun t => t.sched.submits = s.sched.submits ++ [submission p s] :=
  ⟨_, congrArg Host.Outcome.next (hostWrite_takes (schedCtlEff p 1) ht), submitEff_submits hp⟩

/-- Check 8 refuses a submission that was not LOCKED throughout. -/
theorem admDeadlines_unlocked (s : State) (e : Plant) (imgs : List Image) (i : Image) {x : Submit} (h : x.locked = false) :
    s.admDeadlines e imgs i x = some { code := 8 } := by
  simp [State.admDeadlines, h]

theorem admChecks_unlocked {s : State} {x : Submit} (i : Image) (cost : Nat) (h : x.locked = false) :
    s.admChecks x i cost = (s.admRights x.part i <|> s.admLead i <|> s.admResources x.part i x
      <|> admSlots (s.plant x.preempt) (s.admImages x.part i) i <|> admBackground (s.admImages x.part i) i
      <|> s.admBuffers (s.plant x.preempt) (s.admImages x.part i) <|> some { code := 8 }) := by
  simp only [State.admChecks, admDeadlines_unlocked _ _ _ _ h]
  rfl

/-- A failure that stands after other checks leaves no way past them. -/
theorem exists_of_orElse {α : Type} (a : Option α) {b : Option α} (h : ∃ f, b = some f) : ∃ f, (a <|> b) = some f := by
  cases a with
  | none => exact h
  | some f => exact ⟨f, rfl⟩

/-- Settles O58: check 8 stands before the energy check and fails whatever else holds. -/
theorem unlockedSubmissionRefused : Obligations.UnlockedSubmissionRefused := by
  unfold Obligations.UnlockedSubmissionRefused
  refine ⟨fun s h p ht hp hs => ?_, fun s x i cost hx => ⟨?_, fun h2 h3 h4 h5 h6 h7 => ?_⟩⟩
  · obtain ⟨t, ht, hsub⟩ := completes_submit ht hp
    exact ⟨t, ht, submission p s, hsub, rfl, beq_false_of_ne hs⟩
  · rw [admChecks_unlocked i cost hx]
    iterate 6 refine exists_of_orElse _ ?_
    exact ⟨_, rfl⟩
  · rw [admChecks_unlocked i cost hx, h2, h3, h4, h5, h6, h7]
    rfl

end Sys2Proof.Machine.Proofs
end

section
/-! PROOFS. A core cycle tries a waiting key load again (15_security_and_cipher.md R422; log 63), which statements about a quiet cycle and
about the slot that enters LOST leave out. -/

namespace Sys2Proof.Machine.Proofs

/-- A device in HOLDOVER whose loss condition is met and whose host 0 has a key LOAD waiting, at a time and a place in the pattern of R17. -/
def loadWaits (ns : BitVec 64) (frac : BitVec 8) (phase : Nat) : State :=
  let s := State.reset.put Reg.TIME_STS.STATE 3
  { s with time := { s.time with ftNs := ns, frac := frac, phase := phase, lossMet := true }, sec := { s.sec with keyLoads := [(0, 0)] } }

/-- The load ends in the first cycle from FT 0, where no slot begins. -/
theorem coreCycle_loadWaits : (loadWaits 0 0 0).tick.atSlotStart = false ∧ (coreCycle (loadWaits 0 0 0)).sec.keyLoads = [] := by
  decide +kernel

/-- It ends too in the last cycle of slot 0, which enters LOST. -/
theorem toSlot_loadWaits : ((loadWaits 4 150 2).toSlot 12).sec.keyLoads = [] := by decide +kernel

/-- Refutes O53: the waiting load ends in a quiet cycle, and the registers of its host show its result. -/
theorem not_idleStepIsACoreCycle : ¬ Obligations.IdleStepIsACoreCycle := by
  unfold Obligations.IdleStepIsACoreCycle
  rintro ⟨hcycle, -⟩
  obtain ⟨t, hstep, -, -, -, -, hquiet⟩ := hcycle (loadWaits 0 0 0) rfl
  obtain rfl : coreCycle (loadWaits 0 0 0) = t := Host.Outcome.next.inj ((step_of_pending_nil rfl).symm.trans hstep)
  obtain ⟨hslot, hload⟩ := coreCycle_loadWaits
  have hsec := congrArg (fun u => u.sec.keyLoads) (hquiet rfl rfl rfl hslot)
  rw [hload] at hsec
  exact List.cons_ne_nil _ _ hsec.symm

/-- Refutes O15: the waiting load ends as LOST is entered, which is more than reports, the time unit and the gates. -/
theorem not_slotsLossSamplesAndUnits : ¬ Obligations.SlotsLossSamplesAndUnits := by
  unfold Obligations.SlotsLossSamplesAndUnits
  rintro ⟨-, hlost, -⟩
  obtain ⟨t, hexec, -, hrun, henter, -⟩ := hlost (loadWaits 4 150 2)
  have hstate : (loadWaits 4 150 2).get Reg.TIME_STS.STATE = 3 := by decide
  obtain rfl : t = _ := hrun hstate rfl
  obtain ⟨-, -, -, -, -, -, -, hreports⟩ := henter hstate rfl rfl rfl rfl rfl rfl (by decide) (by decide) (by decide)
  have hsec := congrArg (fun u => u.sec.keyLoads) hreports
  rw [toSlot_loadWaits] at hsec
  exact List.cons_ne_nil _ _ hsec.symm

end Sys2Proof.Machine.Proofs
end

section
/-! PROOFS. An image of another map generation, or with a stage on a core vacant in the next map (02_floor_plan_and_numbering.md R47,
05_schedules_and_admission.md Table 5.8 and R133). -/

namespace Sys2Proof.Machine.Proofs

/-- A list with a bad member fails, with the code and the kind given. -/
theorem failAt_of_mem {α : Type} {l : List α} {bad : α → Bool} (code kind : Nat) {q : α} (hq : q ∈ l) (hbad : bad q = true) :
    ∃ n, failAt l bad code kind = some { code := code, kind := kind, index := n } := by
  have hsome : (l.findIdx? bad).isSome = true := List.findIdx?_isSome.trans (List.any_eq_true.mpr ⟨q, hq, hbad⟩)
  obtain ⟨n, hn⟩ := Option.isSome_iff_exists.mp hsome
  exact ⟨n, congrArg (Option.map _) hn⟩

/-- The map generation is the first part of check 4. -/
theorem admResources_staleGen (s : State) (p : Nat) {i : Image} {x : Submit} (h : i.mapGen ≠ x.gen) :
    s.admResources p i x = some { code := 4 } := by
  unfold State.admResources
  rw [if_pos h]
  rfl

/-- The vacant stages are its second part, which an image of the recorded generation reaches. -/
theorem admResources_vacantStage {s : State} (p : Nat) {i : Image} {x : Submit} {q : PathRec} (hgen : i.mapGen = x.gen) (hq : q ∈ i.paths)
    (hstage : q.stageValid = true) (hvacant : s.flag (Reg.CLUSTER_LMAP.NEXT_VACANT (q.stage / 64) (q.stage % 64)) = true) :
    ∃ n, s.admResources p i x = some { code := 4, kind := 3, index := n } := by
  obtain ⟨n, hn⟩ := failAt_of_mem
    (bad := fun q => (q.stageValid && s.flag (Reg.CLUSTER_LMAP.NEXT_VACANT (q.stage / 64) (q.stage % 64)))
      || (!q.toPort && s.failedChannel q.endRes)) 4 3 hq (by simp [hstage, hvacant])
  refine ⟨n, ?_⟩
  unfold State.admResources
  rw [if_neg (not_not_intro hgen), hn]
  rfl

/-- A failure of check 4 fails the verdict, and is its result where checks 2 and 3 pass. -/
theorem admChecks_of_admResources {s : State} {x : Submit} {i : Image} {f : AdmFail} (cost : Nat) (h : s.admResources x.part i x = some f) :
    ∃ g, s.admChecks x i cost = some g ∧ (s.admRights x.part i = none → s.admLead i = none → g = f) := by
  simp only [State.admChecks, h]
  cases hrights : s.admRights x.part i with
  | some g => exact ⟨g, rfl, nofun⟩
  | none =>
    cases hlead : s.admLead i with
    | some g => exact ⟨g, rfl, nofun⟩
    | none => exact ⟨f, rfl, fun _ _ => rfl⟩

/-- Settles O59: both faults fail check 4, which only the rights and the lead time precede. -/
theorem staleOrVacantImageRefused : Obligations.StaleOrVacantImageRefused := by
  unfold Obligations.StaleOrVacantImageRefused
  refine ⟨fun s h p ht hp => ?_, fun s x i cost hfault => ?_⟩
  · obtain ⟨t, ht, hsub⟩ := completes_submit ht hp
    exact ⟨t, ht, submission p s, hsub, rfl⟩
  · have hres : ∃ f, s.admResources x.part i x = some f ∧ f.code = 4 := by
      by_cases hgen : i.mapGen = x.gen
      · obtain ⟨q, hq, hstage, hvacant⟩ := hfault.resolve_left (not_not_intro hgen)
        obtain ⟨n, hn⟩ := admResources_vacantStage x.part hgen hq hstage (bne_iff_ne.mpr hvacant)
        exact ⟨_, hn, rfl⟩
      · exact ⟨_, admResources_staleGen s x.part hgen, rfl⟩
    obtain ⟨f, hf, hcode⟩ := hres
    obtain ⟨g, hg, hfirst⟩ := admChecks_of_admResources cost hf
    exact ⟨g, hg, fun hrights hlead => hfirst hrights hlead ▸ hcode⟩

end Sys2Proof.Machine.Proofs
end

section
/-! PROOFS. What dropping frames, reporting events and moving flows leave alone at the ports: the registers below the MESH block and, of a
port, all but its held cells and XOFF marks (04_routing_and_mesh.md R107, R113, R114; 18_errors_and_telemetry.md R470). -/

namespace Sys2Proof.Machine.Proofs

open Laws

/-! Registers below an offset -/

/-- Every register of an interval of offsets reads as before. -/
def KeepsRegs (lo hi : Nat) (s t : State) : Prop := ∀ o, lo ≤ o → o < hi → t.reg o = s.reg o

theorem keepsRegs_refl (lo hi : Nat) (s : State) : KeepsRegs lo hi s s := fun _ _ _ => rfl

theorem KeepsRegs.trans {lo hi : Nat} {s t u : State} (h : KeepsRegs lo hi s t) (h' : KeepsRegs lo hi t u) : KeepsRegs lo hi s u :=
  fun o hlo hhi => (h' o hlo hhi).trans (h o hlo hhi)

theorem KeepsRegs.mono {lo hi lo' hi' : Nat} {s t : State} (h : KeepsRegs lo hi s t) (hlo : lo ≤ lo') (hhi : hi' ≤ hi) :
    KeepsRegs lo' hi' s t :=
  fun o hl hh => h o (hlo.trans hl) (hh.trans_le hhi)

theorem KeepsRegs.of_regs {lo hi : Nat} {s t u : State} (h : KeepsRegs lo hi s t) (e : u.regs = t.regs) : KeepsRegs lo hi s u := by
  intro o hlo hhi
  have hreg : u.reg o = t.reg o := by unfold State.reg; rw [e]
  exact hreg.trans (h o hlo hhi)

theorem KeepsRegs.put {lo hi : Nat} {s t : State} (f : Fld) (x : Nat) (h : KeepsRegs lo hi s t) (hf : f.off < lo ∨ hi ≤ f.off) :
    KeepsRegs lo hi s (t.put f x) :=
  fun o hlo hhi => (reg_put_ne t f x (by omega)).trans (h o hlo hhi)

theorem KeepsRegs.get {lo hi : Nat} {s t : State} (h : KeepsRegs lo hi s t) {g : Fld} (hlo : lo ≤ g.off) (hhi : g.off < hi) :
    t.get g = s.get g := by
  unfold State.get
  rw [h g.off hlo hhi]

theorem KeepsRegs.foldl {lo hi : Nat} {α : Type} {f : State → α → State} (hf : ∀ s a, KeepsRegs lo hi s (f s a)) (l : List α) (s : State) :
    KeepsRegs lo hi s (l.foldl f s) := by
  induction l generalizing s with
  | nil => exact keepsRegs_refl _ _ s
  | cons a l ih => exact (hf s a).trans (ih _)

/-! Event records: they set registers of the TELEM block alone -/

theorem keepsRegs_vector (s : State) (h : HostId) (v : Nat) : KeepsRegs 0 0x700000 s (s.vector h v) := by
  unfold State.vector State.setHost
  split
  · split <;> exact (keepsRegs_refl _ _ s).of_regs rfl
  · exact (keepsRegs_refl _ _ s).of_regs rfl

theorem setEv_regs (s : State) (h : HostId) (e : EvHost) : (s.setEv h e).regs = s.regs := rfl

theorem keepsRegs_ringWrite (s : State) (h : HostId) (r : EvRec) : KeepsRegs 0 0x700000 s (s.ringWrite h r) := by
  have hprod (t : State) (x : Nat) (ht : t.regs = s.regs) : KeepsRegs 0 0x700000 s (t.put (Reg.TELEM_EVQ_PROD.INDEX h) x) :=
    ((keepsRegs_refl _ _ s).of_regs ht).put _ _ (.inr (by simp only [Reg.TELEM_EVQ_PROD.INDEX, Reg.TELEM_EVQ_PROD.off]; omega))
  have hwrite (a : Nat) (bs : List Byte) : (s.writeHost h a bs).regs = s.regs := (writeHost_same s h a bs false).regs rfl
  unfold State.ringWrite
  dsimp only
  split
  · exact ((hprod _ _ (hwrite _ _)).of_regs (setEv_regs _ _ _)).trans (keepsRegs_vector _ _ _)
  · exact (hprod _ _ (hwrite _ _)).of_regs (setEv_regs _ _ _)

theorem keepsRegs_showQueued (s : State) (h : HostId) : KeepsRegs 0 0x700000 s (s.showQueued h) :=
  (keepsRegs_refl _ _ s).put _ _ (.inr (by simp only [Reg.TELEM_EVQ_PEND.QUEUED, Reg.TELEM_EVQ_PEND.off]; omega))

theorem keepsRegs_sendRecord (s : State) (h : HostId) (r : EvRec) : KeepsRegs 0 0x700000 s (s.sendRecord h r) := by
  unfold State.sendRecord
  split
  · exact keepsRegs_ringWrite s h r
  · split
    · exact ((keepsRegs_refl _ _ s).of_regs (setEv_regs _ _ _)).trans (keepsRegs_showQueued _ _)
    · exact ((keepsRegs_refl _ _ s).put (Reg.TELEM_EVQ_LOST.COUNT h) _
        (.inr (by simp only [Reg.TELEM_EVQ_LOST.COUNT, Reg.TELEM_EVQ_LOST.off]; omega))).of_regs (setEv_regs _ _ _)

theorem keepsRegs_showSticky (s : State) : KeepsRegs 0 0x700000 s s.showSticky :=
  ((keepsRegs_refl _ _ s).put _ _ (.inr (by decide))).put _ _ (.inr (by decide))

theorem keepsRegs_stick (s : State) (r : EvRec) : KeepsRegs 0 0x700000 s (s.stick r) := by
  unfold State.stick
  dsimp only
  split
  · exact KeepsRegs.trans ((keepsRegs_refl _ _ s).of_regs rfl) (keepsRegs_showSticky _)
  · split
    · exact (keepsRegs_refl _ _ s).put _ _ (.inr (by decide))
    · exact KeepsRegs.trans ((keepsRegs_refl _ _ s).of_regs rfl) (keepsRegs_showSticky _)

theorem keepsRegs_record (s : State) (h : HostId) (stick : Bool) (r : EvRec) : KeepsRegs 0 0x700000 s (s.record h stick r) := by
  unfold State.record
  dsimp only
  refine KeepsRegs.trans ?_ (keepsRegs_sendRecord _ _ _)
  split
  · exact KeepsRegs.trans ((keepsRegs_refl _ _ s).of_regs (setEv_regs _ _ _)) (keepsRegs_stick _ _)
  · exact (keepsRegs_refl _ _ s).of_regs (setEv_regs _ _ _)

theorem keepsRegs_occur (s : State) (h : HostId) (stick : Bool) (r : EvRec) : KeepsRegs 0 0x700000 s (s.occur h stick r) := by
  unfold State.occur
  split
  · split
    · exact (keepsRegs_refl _ _ s).of_regs (setEv_regs _ _ _)
    · exact KeepsRegs.trans ((keepsRegs_refl _ _ s).of_regs (setEv_regs _ _ _)) (keepsRegs_record _ _ _ _)
  · exact keepsRegs_record s h stick r

theorem keepsRegs_event (s : State) (k : EvKind) (args : List Byte) : KeepsRegs 0 0x700000 s (s.event k args) :=
  (keepsRegs_occur _ _ _ _).trans (keepsRegs_occur _ _ _ _)

/-! What a dropped frame, an event and a move of flows change -/

/-- Below the MESH block every register reads as before, and of every port nothing but its held cells and XOFF marks differs. -/
structure DropsOnly (s t : State) : Prop where
  regs : KeepsRegs 0 0x300000 s t
  port : ∀ q, t.port q = { s.port q with cells := (t.port q).cells, xoff := (t.port q).xoff }

theorem dropsOnly_refl (s : State) : DropsOnly s s := ⟨keepsRegs_refl _ _ s, fun _ => rfl⟩

theorem DropsOnly.trans {s t u : State} (h : DropsOnly s t) (h' : DropsOnly t u) : DropsOnly s u :=
  ⟨h.regs.trans h'.regs, fun q => (h'.port q).trans (by rw [h.port q])⟩

/-- An update of neither registers nor ports. -/
theorem DropsOnly.of_eq {s t u : State} (h : DropsOnly s t) (hr : u.regs = t.regs) (hp : u.ports = t.ports) : DropsOnly s u :=
  ⟨h.regs.of_regs hr, fun q => by
    have hq : u.port q = t.port q := by unfold State.port; rw [hp]
    rw [hq]
    exact h.port q⟩

theorem DropsOnly.put {s t : State} (h : DropsOnly s t) (f : Fld) (x : Nat) (hf : 0x300000 ≤ f.off) : DropsOnly s (t.put f x) :=
  ⟨h.regs.put f x (.inr hf), h.port⟩

theorem DropsOnly.foldl {α : Type} {f : State → α → State} (hf : ∀ s a, DropsOnly s (f s a)) (l : List α) (s : State) :
    DropsOnly s (l.foldl f s) := by
  induction l generalizing s with
  | nil => exact dropsOnly_refl s
  | cons a l ih => exact (hf s a).trans (ih _)

/-- Below the MESH block every field reads as before. -/
theorem DropsOnly.get {s t : State} (h : DropsOnly s t) {g : Fld} (hg : g.off < 0x300000) : t.get g = s.get g := h.regs.get (Nat.zero_le _) hg

theorem dropsOnly_leave (s : State) (e : Nat) : DropsOnly s (s.leave e) :=
  (dropsOnly_refl s).put _ _ (by simp only [Reg.MESH_DRAIN.COUNT, Reg.MESH_DRAIN.off]; omega)

theorem sendPause_regs (s : State) (p sub cls : Nat) (on : Bool) : (s.sendPause p sub cls on).regs = s.regs :=
  (sendPause_same s p sub cls on).regs rfl

theorem sendPause_ports (s : State) (p sub cls : Nat) (on : Bool) : (s.sendPause p sub cls on).ports = s.ports :=
  (sendPause_same s p sub cls on).ports rfl

/-- A change of a port's cells or XOFF marks. -/
theorem dropsOnly_setPort {s : State} {p : Nat} {x : Port} (h : x = { s.port p with cells := x.cells, xoff := x.xoff }) :
    DropsOnly s (s.setPort p x) := by
  refine ⟨(keepsRegs_refl _ _ s).of_regs rfl, fun q => ?_⟩
  by_cases hq : q = p
  · subst hq
    rw [port_setPort_self]
    exact h
  · rw [port_setPort_ne s x hq]

theorem dropsOnly_checkXon (s : State) (p sub cls : Nat) : DropsOnly s (s.checkXon p sub cls) := by
  unfold State.checkXon
  dsimp only
  split
  · have hmark : DropsOnly s (s.setPort p { s.port p with xoff := (s.port p).xoff.filter (· != s.xoffKey p sub cls) }) := dropsOnly_setPort rfl
    split
    · exact hmark
    · exact hmark.of_eq (sendPause_regs ..) (sendPause_ports ..)
  · exact dropsOnly_refl s

theorem dropsOnly_freeCells (s : State) (p sub cls n : Nat) : DropsOnly s (s.freeCells p sub cls n) :=
  (dropsOnly_setPort rfl).trans (dropsOnly_checkXon _ _ _ _)

theorem dropsOnly_frameGone (s : State) (f : Frame) : DropsOnly s (s.frameGone f) := by
  unfold State.frameGone
  extract_lets +onlyGivenNames t u rt v
  have hleave : DropsOnly s t := by
    unfold t
    split
    · exact dropsOnly_leave s _
    · exact dropsOnly_refl s
  have hfree : DropsOnly s u := by
    unfold u
    split
    · exact hleave.trans (dropsOnly_freeCells _ _ _ _ _)
    · exact hleave
  have hback : DropsOnly s v := by
    unfold v
    split
    · exact hfree.of_eq rfl rfl
    · exact hfree
  split
  · exact hback
  · exact hback.of_eq rfl rfl

theorem dropsOnly_unqueued (s : State) (f : Frame) : DropsOnly s (s.unqueued f) :=
  ((dropsOnly_refl s).of_eq ((flowDepth_same s _ _).regs rfl) ((flowDepth_same s _ _).ports rfl)).trans (dropsOnly_frameGone _ f)

theorem dropsOnly_lostDrop (s : State) (f : Frame) : DropsOnly s (s.lostDrop f) :=
  ((dropsOnly_refl s).put Reg.MESH_LOST_DROP.COUNT _ (by decide)).of_eq ((pathDrop_same _ f).regs rfl) ((pathDrop_same _ f).ports rfl)

/-- Frames taken out of a transmit queue and discarded. -/
theorem dropsOnly_discard (l : List Frame) (s : State) : DropsOnly s (l.foldl (fun s f => (s.unqueued f).lostDrop f) s) :=
  DropsOnly.foldl (fun s f => (dropsOnly_unqueued s f).trans (dropsOnly_lostDrop _ f)) l s

theorem dropsOnly_event (s : State) (k : EvKind) (args : List Byte) : DropsOnly s (s.event k args) := by
  refine ⟨(keepsRegs_event s k args).mono (Nat.le_refl _) (by decide), fun q => ?_⟩
  have hq : (s.event k args).port q = s.port q := by unfold State.port; rw [(event_same s k args).ports rfl]
  rw [hq]

theorem keepsRegs_refreshBackups (s : State) (row : Nat) : KeepsRegs 0 0x700000 s (s.refreshBackups row) := by
  unfold State.refreshBackups
  extract_lets +onlyGivenNames was imgs t
  have hmoved : KeepsRegs 0 0x700000 s t := by
    refine KeepsRegs.foldl (fun u i => KeepsRegs.foldl (fun u f => ?_) _ _) _ _
    split
    · exact keepsRegs_refl _ _ u
    · extract_lets +onlyGivenNames rt v
      split
      · extract_lets +onlyGivenNames w
        have hdisturbed : w.regs = u.regs := by
          unfold w
          split <;> rfl
        exact (keepsRegs_refl _ _ u).of_regs hdisturbed
      · exact (keepsRegs_refl _ _ u).of_regs rfl
  split
  · exact hmoved.put _ _ (.inr (by simp only [Reg.TELEM_FIT_INT.COUNT, Reg.TELEM_FIT_INT.off]; omega))
  · exact hmoved

/-- A move of flows counts interruptions in TELEM_FIT_INT and changes no port. -/
theorem dropsOnly_refreshBackups (s : State) (row : Nat) : DropsOnly s (s.refreshBackups row) := by
  refine ⟨(keepsRegs_refreshBackups s row).mono (Nat.le_refl _) (by decide), fun q => ?_⟩
  have hq : (s.refreshBackups row).port q = s.port q := by unfold State.port; rw [(refreshBackups_same s row).ports rfl]
  rw [hq]

/-- What is queued on a port and not usable there goes. -/
theorem dropsOnly_discardQueued (s : State) (p : Nat) :
    DropsOnly (s.setPort p { s.port p with txq := (s.port p).txq.filter (fun f => s.usable p f.dst?) }) (s.discardQueued p) :=
  dropsOnly_discard _ _

theorem get_discardQueued (s : State) (p : Nat) {g : Fld} (hg : g.off < 0x300000) : (s.discardQueued p).get g = s.get g :=
  (dropsOnly_discardQueued s p).get hg

end Sys2Proof.Machine.Proofs
end

section
/-! PROOFS. Ordered sets sent on their own, PFC, PAUSE and preemption verify (03_link_ports.md R57 to R59, R68 to R70). -/

namespace Sys2Proof.Machine.Proofs

open Laws

/-! Fields of the ports -/

theorem fieldOk_of_ble {f : Fld} (h : Nat.ble (f.lo + f.w) 32 = true) : FieldOk f := Nat.le_of_ble_eq_true h

/-- Two fields of registers that share no bit, as a test that computes whatever the registers' offsets are. -/
def fieldsApart (f g : Fld) : Bool :=
  Nat.ble (f.lo + f.w) 32 && Nat.ble (g.lo + g.w) 32 && (Nat.ble (f.lo + f.w) g.lo || Nat.ble (g.lo + g.w) f.lo)

/-- A write leaves a field alone that shares no bit with the one written. -/
theorem get_put_apart {s : State} {f g : Fld} {x : Nat} (h : fieldsApart f g = true) : (s.put f x).get g = s.get g := by
  simp only [fieldsApart, Bool.and_eq_true, Bool.or_eq_true, Nat.ble_eq] at h
  obtain ⟨⟨hf, hg⟩, hd⟩ := h
  exact get_put_disjoint s f g x hf hg (.inr hd)

/-- A read of the field just written, whose width holds the value. -/
theorem get_put_value {s : State} {f : Fld} {x : Nat} (hf : Nat.ble (f.lo + f.w) 32 = true) (hx : Nat.blt x (2 ^ f.w) = true) :
    (s.put f x).get f = x := get_put_fits s f x (fieldOk_of_ble hf) (Nat.le_of_ble_eq_true hx)

/-- A one-bit field is 0 or 1. -/
theorem flag_of_bit {s : State} {f : Fld} (hw : f.w = 1) : s.flag f = decide (s.get f = 1) := by
  have hlt : s.get f < 2 := by simpa [hw] using get_lt s f
  unfold State.flag
  rcases Nat.lt_succ_iff_lt_or_eq.mp hlt with h | h
  · rw [Nat.lt_one_iff.mp h]; rfl
  · rw [h]; rfl

theorem port_of_ports {s t : State} (h : t.ports = s.ports) (q : Nat) : t.port q = s.port q := by unfold State.port; rw [h]

theorem portsBut_of_ports {ps : List Nat} {s t u : State} (h : PortsBut ps s t) (e : u.ports = t.ports) : PortsBut ps s u :=
  fun q hq => (port_of_ports e q).trans (h q hq)

theorem portsBut_trans {ps : List Nat} {s t u : State} (h : PortsBut ps s t) (h' : PortsBut ps t u) : PortsBut ps s u :=
  fun q hq => (h' q hq).trans (h q hq)

/-! Sets sent on their own -/

theorem alignSendEff_sends {s : State} {p : Nat} (hn : s.native p = true) (hl : s.linkOn p = true) :
    alignSendEff p s = s.sendOs p (.align (s.time.ftNs.toNat / 25 % 2 ^ 32) (s.get (Reg.LINK_STS.ACTIVE p))) := by
  simp [alignSendEff, hn, hl]

theorem alignSendEff_silent {s : State} {p : Nat} (h : s.native p = false ∨ s.linkOn p = false) : alignSendEff p s = s := by
  rcases h with h | h <;> simp [alignSendEff, h]

theorem keepaliveSendEff_sends {s : State} {p : Nat} (hn : s.native p = true) (hs : s.get (Reg.LINK_STS.STATE p) = 2) :
    keepaliveSendEff p s = s.sendOs p (.keepalive true true s.time.ftNs.toNat) := by
  simp [keepaliveSendEff, hn, hs]

theorem keepaliveSendEff_silent {s : State} {p : Nat} (h : s.native p = false ∨ s.get (Reg.LINK_STS.STATE p) ≠ 2) :
    keepaliveSendEff p s = s := by
  rcases h with h | h <;> simp [keepaliveSendEff, h]

theorem fencedSendEff_sends {s : State} {p : Nat} (hn : s.native p = true) (hs : s.get (Reg.LINK_STS.STATE p) = 3) :
    fencedSendEff p s = s.sendOs p (.fenced true (if s.boot.needResume then 2 else 1)) := by
  simp [fencedSendEff, hn, hs]

theorem fencedSendEff_silent {s : State} {p : Nat} (h : s.native p = false ∨ s.get (Reg.LINK_STS.STATE p) ≠ 3) : fencedSendEff p s = s := by
  rcases h with h | h <;> simp [fencedSendEff, h]

/-- The beacon that a port sends (R68). -/
def beaconOf (s : State) (p : Nat) : OrdSet :=
  .beacon (s.flag (Reg.LINK_CFG.BEACON_TX p)) (s.get Reg.TIME_STS.STATE) (s.get (Reg.LINK_BEACON_CTL.INTERVAL p)) s.ft
    (s.port p).beacon.peerT1 (s.port p).beacon.arrival
    (if s.get Reg.TIME_CTL.SRC = 1 then (s.port (s.get Reg.TIME_PORT.PORT)).beacon.hops + 1 else 0)

/-- A port is a beacon source, or the time port of a device that takes its time from a beacon. -/
abbrev SendsBeacons (s : State) (p : Nat) : Prop :=
  s.get (Reg.LINK_CFG.BEACON_TX p) = 1 ∨ (s.get Reg.TIME_CTL.SRC = 1 ∧ s.get Reg.TIME_PORT.PORT = p)

theorem beaconSendEff_eq (s : State) (p : Nat) :
    beaconSendEff p s = if s.native p = true ∧ s.linkOn p = true ∧ SendsBeacons s p then
        (s.setPort p { s.port p with beacon := { (s.port p).beacon with sentT1 := s.ft } }).emit (s.osOut p (beaconOf s p))
      else s := by
  have hflag : s.flag (Reg.LINK_CFG.BEACON_TX p) = decide (s.get (Reg.LINK_CFG.BEACON_TX p) = 1) := flag_of_bit rfl
  unfold beaconSendEff
  simp only [Bool.and_eq_true, Bool.or_eq_true, beq_iff_eq, and_assoc, hflag, decide_eq_true_eq, SendsBeacons]
  split
  · simp only [beaconOf, hflag]
    rfl
  · rfl

theorem completes_beaconSend (s : State) (p : PortId) :
    Completes (.beaconSend p) s fun t =>
      (s.native p = true → s.linkOn p = true → SendsBeacons s p →
          t.port p = { s.port p with beacon := { (s.port p).beacon with sentT1 := s.ft } } ∧ t.out = s.out ++ [s.osOut p (beaconOf s p)])
      ∧ (s.native p = false ∨ s.linkOn p = false → t = s)
      ∧ (s.get (Reg.LINK_CFG.BEACON_TX p) = 0 → s.get Reg.TIME_CTL.SRC ≠ 1 ∨ s.get Reg.TIME_PORT.PORT ≠ p.val → t = s)
      ∧ PortsBut [p.val] s t ∧ t = { s with ports := t.ports, out := t.out } := by
  refine ⟨beaconSendEff p s, rfl, fun hn hl hb => ?_, fun h => ?_, fun h0 h => ?_, ?_, eq_patch_of_same (beaconSendEff_same p s)⟩
  · rw [beaconSendEff_eq, if_pos ⟨hn, hl, hb⟩]
    exact ⟨port_setPort_self _ _ _, rfl⟩
  · rw [beaconSendEff_eq, if_neg]
    rintro ⟨hn, hl, -⟩
    rcases h with h | h
    · simp [hn] at h
    · simp [hl] at h
  · rw [beaconSendEff_eq, if_neg]
    rintro ⟨-, -, hb⟩
    rcases hb with hb | ⟨hs, hp⟩
    · omega
    · exact h.elim (· hs) (· hp)
  · rw [beaconSendEff_eq]
    split
    · exact portsBut_of_ports (portsBut_setPort p.val _ (portsBut_refl _ s) (by simp)) rfl
    · exact portsBut_refl _ s

/-! Received times of classes -/

/-- Of the ports, nothing but the received times of one differs, and no register. -/
structure PausesOnly (p : Nat) (s t : State) : Prop where
  port : t.port p = { s.port p with paused := (t.port p).paused }
  ports : PortsBut [p] s t
  regs : t.regs = s.regs

theorem pausesOnly_refl (p : Nat) (s : State) : PausesOnly p s s := ⟨rfl, portsBut_refl _ s, rfl⟩

theorem PausesOnly.trans {p : Nat} {s t u : State} (h : PausesOnly p s t) (h' : PausesOnly p t u) : PausesOnly p s u :=
  ⟨h'.port.trans (by rw [h.port]), portsBut_trans h.ports h'.ports, h'.regs.trans h.regs⟩

theorem pausesOnly_pauseClass (s : State) (p sub cls time : Nat) : PausesOnly p s (s.pauseClass p sub cls time) := by
  unfold State.pauseClass
  exact ⟨by rw [port_setPort_self], portsBut_setPort p _ (portsBut_refl _ s) (by simp), rfl⟩

/-- The received time of a key of a port. -/
abbrev pausedAt (s : State) (p k : Nat) : Nat := (s.port p).paused.getD k 0

theorem pausedAt_pauseClass_ne (s : State) {p sub cls k : Nat} (time : Nat) (h : k ≠ subCls sub cls) :
    pausedAt (s.pauseClass p sub cls time) p k = pausedAt s p k := by
  simp [pausedAt, State.pauseClass, Sparse.getD_putD_ne _ _ _ _ h]

theorem subCls_ne {sub c d : Nat} (h : c ≠ d) : subCls sub c ≠ subCls sub d := by
  unfold subCls
  omega

theorem pausedAt_pauseClass (s : State) (p sub c k time : Nat) :
    pausedAt (s.pauseClass p sub c time) p (subCls sub k) = if k = c then time else pausedAt s p (subCls sub k) := by
  split
  · next h => simp [pausedAt, State.pauseClass, h]
  · next h => exact pausedAt_pauseClass_ne s time (subCls_ne h)

/-! PFC_FRAME_RECEIVE -/

/-- The PCP values of a PFC frame that map to a class. -/
def pfcPcps (s : State) (p : Nat) (enable : BitVec 8) (c : Nat) : List Nat :=
  (setBitsOf enable.toNat 8).filter (fun n => bits (s.get (Reg.LINK_PCP_MAP.TC p)) (3 * n) 3 == c)

/-- The longest time of some PCP values. -/
def longest (times : List (BitVec 16)) (ns : List Nat) : Nat := ns.foldl (fun a n => max a (times.getD n 0).toNat) 0

theorem le_foldl_max (f : Nat → Nat) (l : List Nat) (a : Nat) :
    a ≤ l.foldl (fun a n => max a (f n)) a ∧ ∀ n ∈ l, f n ≤ l.foldl (fun a n => max a (f n)) a := by
  induction l generalizing a with
  | nil => simp
  | cons m l ih =>
    obtain ⟨hacc, hmem⟩ := ih (max a (f m))
    refine ⟨(le_max_left _ _).trans hacc, fun n hn => ?_⟩
    rcases List.mem_cons.mp hn with rfl | hn
    · exact (le_max_right _ _).trans hacc
    · exact hmem n hn

theorem le_longest {times : List (BitVec 16)} {ns : List Nat} {n : Nat} (h : n ∈ ns) : (times.getD n 0).toNat ≤ longest times ns :=
  (le_foldl_max (fun n => (times.getD n 0).toNat) ns 0).2 n h

/-- One class of a PFC frame whose map the state s0 gives. -/
def pfcStep (s0 : State) (p sub : Nat) (enable : BitVec 8) (times : List (BitVec 16)) (s : State) (c : Nat) : State :=
  if (pfcPcps s0 p enable c).isEmpty then s else s.pauseClass p sub c (longest times (pfcPcps s0 p enable c))

theorem pausesOnly_pfcStep (s0 s : State) (p sub c : Nat) (enable : BitVec 8) (times : List (BitVec 16)) :
    PausesOnly p s (pfcStep s0 p sub enable times s c) := by
  unfold pfcStep
  split
  · exact pausesOnly_refl p s
  · exact pausesOnly_pauseClass _ _ _ _ _

theorem pausedAt_pfcStep (s0 s : State) (p sub c k : Nat) (enable : BitVec 8) (times : List (BitVec 16)) :
    pausedAt (pfcStep s0 p sub enable times s c) p (subCls sub k)
      = if k = c ∧ pfcPcps s0 p enable c ≠ [] then longest times (pfcPcps s0 p enable c) else pausedAt s p (subCls sub k) := by
  unfold pfcStep
  by_cases hne : pfcPcps s0 p enable c = []
  · rw [if_pos (by simp [hne]), if_neg (by simp [hne])]
  · rw [if_neg (by simpa using hne)]
    simp [pausedAt_pauseClass, hne]

/-- The classes 4 to 6 of a PFC frame. -/
def pfcPauses (p sub : Nat) (enable : BitVec 8) (times : List (BitVec 16)) (s : State) : State :=
  [4, 5, 6].foldl (pfcStep s p sub enable times) s

theorem pausesOnly_pfcPauses (s : State) (p sub : Nat) (enable : BitVec 8) (times : List (BitVec 16)) :
    PausesOnly p s (pfcPauses p sub enable times s) :=
  ((pausesOnly_pfcStep ..).trans (pausesOnly_pfcStep ..)).trans (pausesOnly_pfcStep ..)

theorem pausedAt_pfcPauses (s : State) (p sub k : Nat) (enable : BitVec 8) (times : List (BitVec 16)) :
    pausedAt (pfcPauses p sub enable times s) p (subCls sub k)
      = if (4 ≤ k ∧ k ≤ 6) ∧ pfcPcps s p enable k ≠ [] then longest times (pfcPcps s p enable k) else pausedAt s p (subCls sub k) := by
  unfold pfcPauses
  simp only [List.foldl_cons, List.foldl_nil, pausedAt_pfcStep]
  by_cases h6 : k = 6
  · subst h6
    simp
  · by_cases h5 : k = 5
    · subst h5
      simp
    · by_cases h4 : k = 4
      · subst h4
        simp
      · have hout : ¬ (4 ≤ k ∧ k ≤ 6) := by omega
        simp [h4, h5, h6, hout]

/-- A PFC frame that a port honours. -/
abbrev TakesPfc (s : State) (p sub : Nat) : Prop :=
  s.native p = false ∧ sub < s.subports p ∧ s.subUp p sub = true ∧ s.linkOn p = true ∧ s.get (Reg.LINK_CFG.PAUSE_MODE p) = 2

theorem pfcReceiveEff_ignored {s : State} {p sub : Nat} {enable : BitVec 8} {times : List (BitVec 16)} (h : ¬ TakesPfc s p sub) :
    pfcReceiveEff p sub enable times s = s := by
  unfold pfcReceiveEff
  rw [if_pos]
  simp only [Bool.or_eq_true, bne_iff_ne, decide_eq_true_eq, Bool.not_eq_true']
  by_contra hall
  simp only [not_or, not_le, Bool.not_eq_true, Bool.not_eq_false, not_not] at hall
  obtain ⟨⟨⟨⟨hn, hs⟩, hl⟩, hu⟩, hm⟩ := hall
  exact h ⟨hn, hs, hu, hl, hm⟩

/-- A PFC frame sets times and counts the classes it cannot pause. -/
theorem pfcReceiveEff_taken {s : State} {p sub : Nat} (enable : BitVec 8) (times : List (BitVec 16)) (h : TakesPfc s p sub) :
    pfcReceiveEff p sub enable times s = pfcPauses p sub enable times s
      ∨ pfcReceiveEff p sub enable times s = (pfcPauses p sub enable times s).count (Reg.LINK_PFC_IGNORED.COUNT p) := by
  obtain ⟨hn, hs, hu, hl, hm⟩ := h
  unfold pfcReceiveEff
  rw [if_neg (by simp [hn, hs, hu, hl, hm])]
  dsimp only
  split
  · exact .inr rfl
  · exact .inl rfl

theorem mem_pfcPcps {s : State} {p : Nat} {enable : BitVec 8} {c : Nat} (n : Fin 8) :
    n.val ∈ pfcPcps s p enable c ↔ bitAt enable.toNat n = true ∧ bits (s.get (Reg.LINK_PCP_MAP.TC p)) (3 * n) 3 = c := by
  simp [pfcPcps, setBitsOf, and_comm]

theorem lt_of_mem_pfcPcps {s : State} {p : Nat} {enable : BitVec 8} {c n : Nat} (h : n ∈ pfcPcps s p enable c) : n < 8 := by
  simp only [pfcPcps, setBitsOf, List.mem_filter, List.mem_range] at h
  exact h.1.1

theorem pfcReceiveEff_paused {s : State} {p sub : Nat} (enable : BitVec 8) (times : List (BitVec 16)) (h : TakesPfc s p sub) (k : Nat) :
    pausedAt (pfcReceiveEff p sub enable times s) p k = pausedAt (pfcPauses p sub enable times s) p k := by
  rcases pfcReceiveEff_taken enable times h with e | e
  · rw [e]
  · rw [e]
    rfl

theorem pfcReceiveEff_frame (s : State) (p sub : Nat) (enable : BitVec 8) (times : List (BitVec 16)) :
    (pfcReceiveEff p sub enable times s).port p = { s.port p with paused := ((pfcReceiveEff p sub enable times s).port p).paused }
      ∧ PortsBut [p] s (pfcReceiveEff p sub enable times s)
      ∧ FieldsBut [Reg.LINK_PFC_IGNORED.COUNT p] s (pfcReceiveEff p sub enable times s) := by
  by_cases h : TakesPfc s p sub
  · have hpauses := pausesOnly_pfcPauses s p sub enable times
    have hfields := fieldsBut_of_regs (fieldsBut_refl [Reg.LINK_PFC_IGNORED.COUNT p] s) hpauses.regs
    rcases pfcReceiveEff_taken enable times h with e | e <;> rw [e]
    · exact ⟨hpauses.port, hpauses.ports, hfields⟩
    · exact ⟨hpauses.port, hpauses.ports, fieldsBut_count _ _ hfields (fieldOk_of_ble rfl) (by simp)⟩
  · rw [pfcReceiveEff_ignored h]
    exact ⟨rfl, portsBut_refl _ s, fieldsBut_refl _ s⟩

/-! PAUSE_FRAME_RECEIVE -/

/-- Classes 4 to 7 of a sub-port take a received time. -/
def pausePauses (p sub time : Nat) (s : State) : State := [4, 5, 6, 7].foldl (fun s c => s.pauseClass p sub c time) s

theorem pausesOnly_pausePauses (s : State) (p sub time : Nat) : PausesOnly p s (pausePauses p sub time s) :=
  (((pausesOnly_pauseClass ..).trans (pausesOnly_pauseClass ..)).trans (pausesOnly_pauseClass ..)).trans (pausesOnly_pauseClass ..)

theorem pausedAt_pausePauses_class (s : State) (p sub time : Nat) {c : Nat} (h4 : 4 ≤ c) (h7 : c ≤ 7) :
    pausedAt (pausePauses p sub time s) p (subCls sub c) = time := by
  unfold pausePauses
  simp only [List.foldl_cons, List.foldl_nil, pausedAt_pauseClass]
  obtain rfl | rfl | rfl | rfl : c = 4 ∨ c = 5 ∨ c = 6 ∨ c = 7 := by omega
  all_goals simp

theorem pausedAt_pausePauses_other (s : State) (p sub time : Nat) {k : Nat} (h : k / 8 ≠ sub ∨ k % 8 < 4) :
    pausedAt (pausePauses p sub time s) p k = pausedAt s p k := by
  have hne (c : Nat) (h4 : 4 ≤ c) (h7 : c ≤ 7) : k ≠ subCls sub c := by unfold subCls; omega
  unfold pausePauses
  simp only [List.foldl_cons, List.foldl_nil, pausedAt_pauseClass_ne _ _ (hne 4 (by decide) (by decide)),
    pausedAt_pauseClass_ne _ _ (hne 5 (by decide) (by decide)), pausedAt_pauseClass_ne _ _ (hne 6 (by decide) (by decide)),
    pausedAt_pauseClass_ne _ _ (hne 7 (by decide) (by decide))]

/-- A PAUSE frame that a port honours. -/
abbrev TakesPause (s : State) (p sub : Nat) : Prop :=
  s.native p = false ∧ sub < s.subports p ∧ s.subUp p sub = true ∧ s.linkOn p = true ∧ s.get (Reg.LINK_CFG.PAUSE_MODE p) = 1

theorem pauseReceiveEff_eq (s : State) (p sub : Nat) (time : BitVec 16) :
    pauseReceiveEff p sub time s = if TakesPause s p sub then pausePauses p sub time.toNat s else s := by
  unfold pauseReceiveEff
  by_cases h : TakesPause s p sub
  · obtain ⟨hn, hs, hu, hl, hm⟩ := h
    rw [if_neg (by simp [hn, hs, hu, hl, hm]), if_pos ⟨hn, hs, hu, hl, hm⟩]
    rfl
  · rw [if_neg h, if_pos]
    by_contra hall
    simp only [Bool.or_eq_true, bne_iff_ne, decide_eq_true_eq, Bool.not_eq_true', not_or, not_le, Bool.not_eq_true, Bool.not_eq_false,
      not_not] at hall
    obtain ⟨⟨⟨⟨hn, hs⟩, hl⟩, hu⟩, hm⟩ := hall
    exact h ⟨hn, hs, hu, hl, hm⟩

theorem pauseReceiveEff_frame (s : State) (p sub : Nat) (time : BitVec 16) : PausesOnly p s (pauseReceiveEff p sub time s) := by
  rw [pauseReceiveEff_eq]
  split
  · exact pausesOnly_pausePauses ..
  · exact pausesOnly_refl p s

/-! PFC_REFRESH and PREEMPT_VERIFY -/

theorem watchedClass_native {s : State} {p : Nat} (sub cls : Nat) (h : s.native p = true) : s.watchedClass p sub cls = cls := by
  simp [State.watchedClass, h]

theorem xoffKey_native {s : State} {p : Nat} (sub cls : Nat) (h : s.native p = true) : s.xoffKey p sub cls = subCls sub cls := by
  simp [State.xoffKey, h]

theorem mem_foldl_addTo {x : Nat} (subs l : List Nat) (h : x ∈ l ∨ x ∈ subs) : x ∈ subs.foldl addTo l := by
  induction subs generalizing l with
  | nil => simpa using h
  | cons b subs ih =>
    refine ih _ ?_
    have hgrow (y : Nat) (hy : y ∈ l ∨ y = b) : y ∈ addTo l b := by
      unfold addTo
      split
      · next hb => rcases hy with hy | rfl
                   · exact hy
                   · simpa using hb
      · simpa using hy
    rcases h with h | h
    · exact .inl (hgrow x (.inl h))
    · rcases List.mem_cons.mp h with rfl | h
      · exact .inl (hgrow x (.inr rfl))
      · exact .inr h

theorem preempting_port (s : State) (p : Nat) (subs : List Nat) :
    (s.preempting p subs).port p = { s.port p with verified := subs.foldl addTo (s.port p).verified } := port_setPort_self ..

theorem portsBut_preempting (s : State) (p : Nat) (subs : List Nat) : PortsBut [p] s (s.preempting p subs) :=
  portsBut_of_ports (portsBut_setPort p _ (portsBut_refl _ s) (by simp)) rfl

theorem fieldsBut_preempting {fs : List Fld} {s t : State} (p : Nat) (subs : List Nat) (h : FieldsBut fs s t)
    (hm : Reg.LINK_STS.PREEMPT_ACT p ∈ fs) : FieldsBut fs s (t.preempting p subs) :=
  fieldsBut_put _ _ (fieldsBut_of_regs h rfl) (fieldOk_of_ble rfl) hm

/-- Preemption is shown active once it is active on every sub-port. -/
theorem get_preempting_act {s : State} {p : Nat} {subs : List Nat} (h : ∀ b < s.subports p, b ∈ (s.port p).verified ∨ b ∈ subs) :
    (s.preempting p subs).get (Reg.LINK_STS.PREEMPT_ACT p) = 1 := by
  have hall : (List.range (s.subports p)).all (subs.foldl addTo (s.port p).verified).contains = true :=
    List.all_eq_true.mpr fun b hb => by simpa using mem_foldl_addTo subs _ (h b (List.mem_range.mp hb))
  unfold State.preempting
  rw [get_put_fits _ _ _ (fieldOk_of_ble rfl)]
  · rw [port_setPort_self]
    exact congrArg b2n hall
  · unfold b2n
    split <;> exact Nat.le_of_ble_eq_true rfl

/-- A verify exchange that a port makes. -/
abbrev Verifies (s : State) (p sub : Nat) : Prop :=
  s.native p = false ∧ sub < s.subports p ∧ s.get (Reg.LINK_CFG.PREEMPT_EN p) = 1 ∧ s.get (Reg.LINK_CFG.VERIFY_DIS p) = 0
    ∧ s.subUp p sub = true ∧ s.linkOn p = true

theorem preemptVerifyEff_eq (s : State) (p sub : Nat) (ok : Bool) :
    preemptVerifyEff p sub ok s
      = if Verifies s p sub then (if ok then s.preempting p [sub] else s.put (Reg.LINK_STS.VERIFY_FAIL p) 1) else s := by
  have hen : s.flag (Reg.LINK_CFG.PREEMPT_EN p) = decide (s.get (Reg.LINK_CFG.PREEMPT_EN p) = 1) := flag_of_bit rfl
  have hdis : s.flag (Reg.LINK_CFG.VERIFY_DIS p) = decide (¬ s.get (Reg.LINK_CFG.VERIFY_DIS p) = 0) := by
    simp [State.flag, bne, Bool.beq_eq_decide_eq]
  unfold preemptVerifyEff
  rw [hen, hdis]
  by_cases h : Verifies s p sub
  · obtain ⟨hn, hs, he, hd, hu, hl⟩ := id h
    rw [if_pos h]
    exact if_neg (by simp [hn, hs, he, hd, hu, hl])
  · rw [if_neg h, if_pos]
    by_contra hall
    simp only [Bool.or_eq_true, decide_eq_true_eq, Bool.not_eq_true', decide_eq_false_iff_not, not_or, not_le, Bool.not_eq_true,
      Bool.not_eq_false, not_not] at hall
    obtain ⟨⟨⟨⟨⟨hn, hs⟩, he⟩, hd⟩, hl⟩, hu⟩ := hall
    exact h ⟨hn, hs, he, hd, hu, hl⟩

theorem portsBut_preemptVerifyEff (s : State) (p sub : Nat) (ok : Bool) : PortsBut [p] s (preemptVerifyEff p sub ok s) := by
  rw [preemptVerifyEff_eq]
  split
  · split
    · exact portsBut_preempting _ _ _
    · exact portsBut_refl _ s
  · exact portsBut_refl _ s

theorem fieldsBut_preemptVerifyEff (s : State) (p sub : Nat) (ok : Bool) :
    FieldsBut [Reg.LINK_STS.VERIFY_FAIL p, Reg.LINK_STS.PREEMPT_ACT p] s (preemptVerifyEff p sub ok s) := by
  rw [preemptVerifyEff_eq]
  split
  · split
    · exact fieldsBut_preempting p _ (fieldsBut_refl _ s) (by simp)
    · exact fieldsBut_put _ _ (fieldsBut_refl _ s) (fieldOk_of_ble rfl) (by simp)
  · exact fieldsBut_refl _ s

/-- Where preemption can act on a port's only sub-port, that one is the sub-port verified. -/
theorem preempting_verifies_only {s : State} {p sub : Nat} (hs : sub < s.subports p) (h1 : s.subports p = 1) :
    (s.preempting p [sub]).get (Reg.LINK_STS.PREEMPT_ACT p) = 1 :=
  get_preempting_act fun b hb => .inr (by rw [List.mem_singleton]; omega)

/-! The statement -/

theorem completes_pfcFrameReceive (s : State) (p : PortId) (sub : Fin 4) (en : BitVec 8) (times : List (BitVec 16)) :
    Completes (.pfcFrameReceive p sub en times) s fun t =>
      (s.native p = true ∨ s.subports p ≤ sub.val ∨ s.subUp p sub = false ∨ s.linkOn p = false ∨ s.get (Reg.LINK_CFG.PAUSE_MODE p) ≠ 2 → t = s)
      ∧ (s.native p = false → sub.val < s.subports p → s.subUp p sub = true → s.linkOn p = true → s.get (Reg.LINK_CFG.PAUSE_MODE p) = 2 →
          (∀ n : Fin 8, bitAt en.toNat n = true → 4 ≤ bits (s.get (Reg.LINK_PCP_MAP.TC p)) (3 * n) 3 →
            bits (s.get (Reg.LINK_PCP_MAP.TC p)) (3 * n) 3 ≤ 6 →
            (times.getD n 0).toNat ≤ (t.port p).paused.getD (subCls sub (bits (s.get (Reg.LINK_PCP_MAP.TC p)) (3 * n) 3)) 0)
          ∧ (∀ c : Fin 8, (∀ n : Fin 8, bitAt en.toNat n = true → bits (s.get (Reg.LINK_PCP_MAP.TC p)) (3 * n) 3 ≠ c.val) →
            (t.port p).paused.getD (subCls sub c) 0 = (s.port p).paused.getD (subCls sub c) 0))
      ∧ t.port p = { s.port p with paused := (t.port p).paused } ∧ PortsBut [p.val] s t
      ∧ FieldsBut [Reg.LINK_PFC_IGNORED.COUNT p] s t ∧ t = { s with regs := t.regs, ports := t.ports } := by
  obtain ⟨hport, hports, hfields⟩ := pfcReceiveEff_frame s p sub en times
  refine ⟨pfcReceiveEff p sub en times s, rfl, fun h => pfcReceiveEff_ignored ?_, fun hn hs hu hl hm => ⟨fun n hbit h4 h6 => ?_, fun c hc => ?_⟩,
    hport, hports, hfields, eq_patch_of_same (pfcReceiveEff_same p sub en times s)⟩
  · rintro ⟨hn, hs, hu, hl, hm⟩
    rcases h with h | h | h | h | h
    · simp [hn] at h
    · omega
    · simp [hu] at h
    · simp [hl] at h
    · exact h hm
  · have hmem := (mem_pfcPcps (c := bits (s.get (Reg.LINK_PCP_MAP.TC p)) (3 * n) 3) n).mpr ⟨hbit, rfl⟩
    change _ ≤ pausedAt _ _ _
    rw [pfcReceiveEff_paused _ _ ⟨hn, hs, hu, hl, hm⟩, pausedAt_pfcPauses, if_pos ⟨⟨h4, h6⟩, List.ne_nil_of_mem hmem⟩]
    exact le_longest hmem
  · have hnone : pfcPcps s p en c = [] := List.eq_nil_iff_forall_not_mem.mpr fun n hn' =>
      let m : Fin 8 := ⟨n, lt_of_mem_pfcPcps hn'⟩
      hc m ((mem_pfcPcps m).mp hn').1 ((mem_pfcPcps m).mp hn').2
    change pausedAt _ _ _ = pausedAt _ _ _
    rw [pfcReceiveEff_paused _ _ ⟨hn, hs, hu, hl, hm⟩, pausedAt_pfcPauses, if_neg (fun h => h.2 hnone)]

theorem completes_pauseFrameReceive (s : State) (p : PortId) (sub : Fin 4) (time : BitVec 16) :
    Completes (.pauseFrameReceive p sub time) s fun t =>
      (s.native p = true ∨ s.subports p ≤ sub.val ∨ s.subUp p sub = false ∨ s.linkOn p = false ∨ s.get (Reg.LINK_CFG.PAUSE_MODE p) ≠ 1 → t = s)
      ∧ (s.native p = false → sub.val < s.subports p → s.subUp p sub = true → s.linkOn p = true → s.get (Reg.LINK_CFG.PAUSE_MODE p) = 1 →
          ∀ c : Fin 8, 4 ≤ c.val → (t.port p).paused.getD (subCls sub c) 0 = time.toNat)
      ∧ (∀ k : Nat, k / 8 ≠ sub.val ∨ k % 8 < 4 → (t.port p).paused.getD k 0 = (s.port p).paused.getD k 0)
      ∧ t.port p = { s.port p with paused := (t.port p).paused } ∧ PortsBut [p.val] s t ∧ t = { s with ports := t.ports } := by
  have hframe := pauseReceiveEff_frame s p sub time
  refine ⟨pauseReceiveEff p sub time s, rfl, fun h => ?_, fun hn hs hu hl hm c h4 => ?_, fun k hk => ?_, hframe.port, hframe.ports,
    eq_patch_of_same (pauseReceiveEff_same p sub time s)⟩
  · rw [pauseReceiveEff_eq, if_neg]
    rintro ⟨hn, hs, hu, hl, hm⟩
    rcases h with h | h | h | h | h
    · simp [hn] at h
    · omega
    · simp [hu] at h
    · simp [hl] at h
    · exact h hm
  · rw [pauseReceiveEff_eq, if_pos ⟨hn, hs, hu, hl, hm⟩]
    exact pausedAt_pausePauses_class s p sub _ h4 (Nat.le_of_lt_succ c.isLt)
  · rw [pauseReceiveEff_eq]
    split
    · exact pausedAt_pausePauses_other s p sub _ hk
    · rfl

theorem completes_pfcRefresh (s : State) (p : PortId) (sub : Fin 4) (c : Fin 8) :
    Completes (.pfcRefresh p sub c) s fun t =>
      (4 ≤ c.val → c.val ≤ 6 → (s.port p).missOff.contains (subCls sub c) = true → t = s.sendPause p sub (s.watchedClass p sub c) true)
      ∧ (s.native p = true → 4 ≤ c.val → c.val ≤ 6 → (s.port p).xoff.contains (subCls sub c) = true →
          s.get (Reg.LINK_PFC_WM.XON p (c.val - 4)) ≤ (s.port p).occ (subCls sub c) → t = s.sendPause p sub c true)
      ∧ (c.val < 4 ∨ c.val = 7 → t = s)
      ∧ ((s.port p).missOff.contains (subCls sub c) = false → (s.port p).xoff.contains (s.xoffKey p sub c) = false → t = s)
      ∧ t = { s with out := t.out } := by
  refine ⟨pfcRefreshEff p sub c s, rfl, fun h4 h6 hm => ?_, fun hn h4 h6 hx ho => ?_, fun h => ?_, fun hm hx => ?_,
    eq_patch_of_same (pfcRefreshEff_same p sub c s)⟩
  · exact if_pos (by rw [hm]; simp [h4, h6])
  · unfold pfcRefreshEff
    dsimp only
    rw [watchedClass_native _ _ hn, xoffKey_native _ _ hn, if_pos (by rw [hx]; simp [h4, h6, ho])]
  · refine if_neg ?_
    simp only [Bool.and_eq_true, decide_eq_true_eq]
    omega
  · exact if_neg (by rw [hm, hx]; simp)

theorem completes_pauseTimeExpiry (s : State) (p : PortId) (sub : Fin 4) (c : Fin 8) :
    Completes (.pauseTimeExpiry p sub c) s fun t =>
      (t.port p).paused.getD (subCls sub c) 0 = 0
      ∧ (∀ k : Nat, k ≠ subCls sub c → (t.port p).paused.getD k 0 = (s.port p).paused.getD k 0)
      ∧ t.port p = { s.port p with paused := (t.port p).paused } ∧ PortsBut [p.val] s t ∧ t = { s with ports := t.ports } := by
  have hframe := pausesOnly_pauseClass s p sub c 0
  refine ⟨pauseExpiryEff p sub c s, rfl, ?_, fun k hk => pausedAt_pauseClass_ne s 0 hk, hframe.port, hframe.ports,
    eq_patch_of_same (pauseExpiryEff_same p sub c s)⟩
  exact (pausedAt_pauseClass s p sub c c 0).trans (if_pos rfl)

theorem completes_preemptVerify (s : State) (p : PortId) (sub : Fin 4) (ok : Bool) :
    Completes (.preemptVerify p sub ok) s fun t =>
      (s.native p = true ∨ s.subports p ≤ sub.val ∨ s.get (Reg.LINK_CFG.PREEMPT_EN p) = 0 ∨ s.get (Reg.LINK_CFG.VERIFY_DIS p) = 1
            ∨ s.subUp p sub = false ∨ s.linkOn p = false → t = s)
      ∧ (s.native p = false → sub.val < s.subports p → s.get (Reg.LINK_CFG.PREEMPT_EN p) = 1 → s.get (Reg.LINK_CFG.VERIFY_DIS p) = 0 →
          s.subUp p sub = true → s.linkOn p = true → (ok = false → t = s.put (Reg.LINK_STS.VERIFY_FAIL p) 1)
          ∧ (ok = true → sub.val ∈ (t.port p).verified)
          ∧ (ok = true → s.subports p = 1 → t.get (Reg.LINK_STS.PREEMPT_ACT p) = 1))
      ∧ PortsBut [p.val] s t ∧ FieldsBut [Reg.LINK_STS.VERIFY_FAIL p, Reg.LINK_STS.PREEMPT_ACT p] s t
      ∧ t = { s with regs := t.regs, ports := t.ports } := by
  refine ⟨preemptVerifyEff p sub ok s, rfl, fun h => ?_, fun hn hs he hd hu hl => ?_, portsBut_preemptVerifyEff _ _ _ _,
    fieldsBut_preemptVerifyEff _ _ _ _, eq_patch_of_same (preemptVerifyEff_same p sub ok s)⟩
  · rw [preemptVerifyEff_eq, if_neg]
    rintro ⟨hn, hs, he, hd, hu, hl⟩
    rcases h with h | h | h | h | h | h
    · simp [hn] at h
    · omega
    · omega
    · omega
    · simp [hu] at h
    · simp [hl] at h
  · rw [preemptVerifyEff_eq, if_pos (show Verifies s p sub from ⟨hn, hs, he, hd, hu, hl⟩)]
    refine ⟨?_, ?_, ?_⟩
    · rintro rfl
      rfl
    · rintro rfl
      rw [if_pos rfl, preempting_port]
      exact mem_foldl_addTo [sub.val] _ (.inr (by simp))
    · rintro rfl h1
      exact preempting_verifies_only hs h1

/-- Settles O5, command by command through the lemmas above. -/
theorem portSignalling : Obligations.PortSignalling := by
  unfold Obligations.PortSignalling
  refine ⟨fun s p => ?_, fun s p => ?_, fun s p => ?_, completes_beaconSend, completes_pfcFrameReceive, completes_pauseFrameReceive,
    completes_pfcRefresh, completes_pauseTimeExpiry, completes_preemptVerify⟩
  · exact ⟨alignSendEff p s, rfl, alignSendEff_sends, alignSendEff_silent⟩
  · exact ⟨keepaliveSendEff p s, rfl, keepaliveSendEff_sends, keepaliveSendEff_silent⟩
  · refine ⟨fencedSendEff p s, rfl, fun hn hs hr => ?_, fun hn hs hr => ?_, fencedSendEff_silent⟩
    · rw [fencedSendEff_sends hn hs, hr]
      rfl
    · rw [fencedSendEff_sends hn hs, hr]
      rfl

end Sys2Proof.Machine.Proofs
end

section
/-! PROOFS. Reception of ordered sets (03_link_ports.md R67 to R70, R73). -/

namespace Sys2Proof.Machine.Proofs

open Laws

/-! Frames as the statements name them -/

/-- The mask of what frames in flight and their completions can touch. -/
theorem trafficOnly_of_same {m : Nat} {s t : State} (h : Same m s t) (hm : m ||| 139708857544698 = 139708857544698) : TrafficOnly s t :=
  eq_patch_of_same (h.mono hm)

/-! The copies of an ordered set (R67) -/

/-- The state after the copies of a set were looked at: bad ones are counted on a port that listens. -/
def osCounted (s : State) (p : Nat) (copies : List (List Byte)) : State :=
  if s.native p && s.linkOn p then s.count (Reg.LINK_OS_BAD.COUNT p) (badCopies s p copies) else s

/-- A port that ignores ordered sets. -/
abbrev Deaf (s : State) (p : Nat) : Prop := s.native p = false ∨ s.linkOn p = false

section
variable {s : State} {p : Nat} {copies : List (List Byte)} {act : State → Nat → OrdSet → State}

theorem not_listening (h : Deaf s p) : (s.native p && s.linkOn p) = false := by rcases h with h | h <;> simp [h]

theorem listening (hn : s.native p = true) (hl : s.linkOn p = true) : (s.native p && s.linkOn p) = true := by simp [hn, hl]

theorem listening_of_heard {e : Nat × OrdSet} (h : heard s p copies = some e) : (s.native p && s.linkOn p) = true := by
  by_contra hd
  simp [heard, hd] at h

theorem osCounted_listening (h : (s.native p && s.linkOn p) = true) :
    osCounted s p copies = s.count (Reg.LINK_OS_BAD.COUNT p) (badCopies s p copies) := if_pos h

theorem withOs_deaf (h : Deaf s p) : s.withOs p copies act = s := by simp [State.withOs, not_listening h]

theorem rxOs_listening (h : (s.native p && s.linkOn p) = true) : s.rxOs p copies = (osCounted s p copies, heard s p copies) := by
  simp [State.rxOs, osCounted, heard, badCopies, h]

theorem withOs_heard {fca : Nat} {o : OrdSet} (h : heard s p copies = some (fca, o)) :
    s.withOs p copies act = act (osCounted s p copies) fca o := by
  have hon := listening_of_heard h
  simp [State.withOs, hon, rxOs_listening hon, h]

theorem withOs_unheard (h : heard s p copies = none) : s.withOs p copies act = osCounted s p copies := by
  cases hon : s.native p && s.linkOn p with
  | true => simp [State.withOs, hon, rxOs_listening hon, h]
  | false => simp [State.withOs, osCounted, hon]

/-- A set is ignored but for its bad copies, or acts. -/
theorem withOs_cases {P : State → Prop} (hquiet : P (osCounted s p copies)) (hact : ∀ fca o, P (act (osCounted s p copies) fca o)) :
    P (s.withOs p copies act) := by
  cases h : heard s p copies with
  | none => rwa [withOs_unheard h]
  | some e =>
    obtain ⟨fca, o⟩ := e
    rw [withOs_heard h]
    exact hact fca o

end

theorem osCounted_ports (s : State) (p : Nat) (copies : List (List Byte)) : (osCounted s p copies).ports = s.ports := by
  unfold osCounted
  split <;> rfl

@[simp] theorem osCounted_port (s : State) (p : Nat) (copies : List (List Byte)) (q : Nat) : (osCounted s p copies).port q = s.port q :=
  port_of_ports (osCounted_ports s p copies) q

@[simp] theorem osCounted_out (s : State) (p : Nat) (copies : List (List Byte)) : (osCounted s p copies).out = s.out := by
  unfold osCounted
  split <;> rfl

theorem fieldsBut_osCounted {fs : List Fld} (s : State) {p : Nat} (copies : List (List Byte)) (hm : Reg.LINK_OS_BAD.COUNT p ∈ fs) :
    FieldsBut fs s (osCounted s p copies) := by
  unfold osCounted
  split
  · exact fieldsBut_count _ _ (fieldsBut_refl _ s) (fieldOk_of_ble rfl) hm
  · exact fieldsBut_refl _ s

theorem reg_osCounted_ne (s : State) {p : Nat} (copies : List (List Byte)) {o : Nat} (h : o ≠ Reg.LINK_OS_BAD.off p) :
    (osCounted s p copies).reg o = s.reg o := by
  unfold osCounted
  split
  · exact reg_count_ne s _ _ h
  · rfl

theorem get_osCounted_ne (s : State) {p : Nat} (copies : List (List Byte)) {g : Fld} (h : g.off ≠ Reg.LINK_OS_BAD.off p) :
    (osCounted s p copies).get g = s.get g := by
  unfold State.get
  rw [reg_osCounted_ne s copies h]

theorem get_osCounted_bad (s : State) (p : Nat) (copies : List (List Byte)) :
    (osCounted s p copies).get (Reg.LINK_OS_BAD.COUNT p)
      = min (s.get (Reg.LINK_OS_BAD.COUNT p) + badCopies s p copies) (2 ^ 32 - 1) := by
  unfold osCounted
  split
  · exact get_count_self s _ _ (fieldOk_of_ble rfl)
  · next h =>
    have hlt : s.get (Reg.LINK_OS_BAD.COUNT p) < 2 ^ 32 := get_lt s _
    have hnone : badCopies s p copies = 0 := if_neg h
    rw [hnone]
    omega

/-- LINK_STS is a register of its own. -/
theorem linkSts_ne_osBad (p q : Nat) : Reg.LINK_STS.off q ≠ Reg.LINK_OS_BAD.off p := by
  unfold Reg.LINK_STS.off Reg.LINK_OS_BAD.off
  omega

/-- The bad copies stand counted where the row leaves LINK_OS_BAD alone. -/
theorem get_withOs_bad {s : State} {p : Nat} {copies : List (List Byte)} {act : State → Nat → OrdSet → State}
    (hact : ∀ u fca o, (act u fca o).get (Reg.LINK_OS_BAD.COUNT p) = u.get (Reg.LINK_OS_BAD.COUNT p)) :
    (s.withOs p copies act).get (Reg.LINK_OS_BAD.COUNT p)
      = min (s.get (Reg.LINK_OS_BAD.COUNT p) + badCopies s p copies) (2 ^ 32 - 1) :=
  withOs_cases (P := fun t => t.get (Reg.LINK_OS_BAD.COUNT p) = _) (get_osCounted_bad s p copies)
    fun fca o => (hact _ fca o).trans (get_osCounted_bad s p copies)

theorem fieldsBut_withOs {fs : List Fld} {s : State} {p : Nat} {copies : List (List Byte)} {act : State → Nat → OrdSet → State}
    (hm : Reg.LINK_OS_BAD.COUNT p ∈ fs) (hact : ∀ u fca o, FieldsBut fs s u → FieldsBut fs s (act u fca o)) :
    FieldsBut fs s (s.withOs p copies act) :=
  withOs_cases (fieldsBut_osCounted s copies hm) fun fca o => hact _ fca o (fieldsBut_osCounted s copies hm)

theorem portsBut_withOs {ps : List Nat} {s : State} {p : Nat} {copies : List (List Byte)} {act : State → Nat → OrdSet → State}
    (hact : ∀ u fca o, PortsBut ps s u → PortsBut ps s (act u fca o)) : PortsBut ps s (s.withOs p copies act) :=
  have hquiet : PortsBut ps s (osCounted s p copies) := portsBut_of_ports (portsBut_refl _ s) (osCounted_ports s p copies)
  withOs_cases hquiet fun fca o => hact _ fca o hquiet

/-! A live period (R70) -/

theorem markLive_eq (s : State) (p : Nat) : s.markLive p = s ∨ s.markLive p = s.put (Reg.LINK_STS.PEER p) 1 := by
  unfold State.markLive
  split
  · exact .inr rfl
  · exact .inl rfl

@[simp] theorem markLive_ports (s : State) (p : Nat) : (s.markLive p).ports = s.ports := by
  rcases markLive_eq s p with e | e <;> rw [e]
  rfl

@[simp] theorem markLive_port (s : State) (p q : Nat) : (s.markLive p).port q = s.port q := port_of_ports (markLive_ports s p) q

@[simp] theorem markLive_out (s : State) (p : Nat) : (s.markLive p).out = s.out := by
  rcases markLive_eq s p with e | e <;> rw [e]
  rfl

theorem reg_markLive_ne (s : State) {p o : Nat} (h : o ≠ Reg.LINK_STS.off p) : (s.markLive p).reg o = s.reg o := by
  rcases markLive_eq s p with e | e <;> rw [e]
  exact reg_put_ne s _ _ h

theorem get_markLive_ne (s : State) {p : Nat} {g : Fld} (h : g.off ≠ Reg.LINK_STS.off p) : (s.markLive p).get g = s.get g := by
  unfold State.get
  rw [reg_markLive_ne s h]

theorem get_markLive_osBad (s : State) (p q : Nat) : (s.markLive p).get (Reg.LINK_OS_BAD.COUNT q) = s.get (Reg.LINK_OS_BAD.COUNT q) :=
  get_markLive_ne s (linkSts_ne_osBad q p).symm

/-- The other fields of LINK_STS stay. -/
theorem get_markLive_apart (s : State) {p : Nat} {g : Fld} (hg : FieldOk g) (h : g.lo + g.w ≤ 2 ∨ 4 ≤ g.lo) :
    (s.markLive p).get g = s.get g := by
  rcases markLive_eq s p with e | e <;> rw [e]
  refine get_put_disjoint s _ g 1 (fieldOk_of_ble rfl) hg (.inr ?_)
  exact h.symm

theorem get_markLive_active (s : State) (p q : Nat) : (s.markLive p).get (Reg.LINK_STS.ACTIVE q) = s.get (Reg.LINK_STS.ACTIVE q) :=
  get_markLive_apart s (fieldOk_of_ble rfl) (.inr (Nat.le_of_ble_eq_true rfl))

/-- A peer UNKNOWN or LOST is ALIVE. -/
theorem get_markLive_peer {s : State} {p : Nat} (h : s.get (Reg.LINK_STS.PEER p) = 0 ∨ s.get (Reg.LINK_STS.PEER p) = 3) :
    (s.markLive p).get (Reg.LINK_STS.PEER p) = 1 := by
  unfold State.markLive
  rw [if_pos h]
  exact get_put_value rfl rfl

theorem fieldsBut_markLive {fs : List Fld} {s t : State} {p : Nat} (h : FieldsBut fs s t) (hm : Reg.LINK_STS.PEER p ∈ fs) :
    FieldsBut fs s (t.markLive p) := by
  rcases markLive_eq t p with e | e <;> rw [e]
  · exact h
  · exact fieldsBut_put _ _ h (fieldOk_of_ble rfl) hm

/-- The fields that a set with no register of its own may write. -/
abbrev osFieldList (p : Nat) : List Fld := [Reg.LINK_OS_BAD.COUNT p, Reg.LINK_STS.PEER p]

theorem fieldsBut_osMarkLive {s t : State} {p : Nat} (h : FieldsBut (osFieldList p) s t) : FieldsBut (osFieldList p) s (t.markLive p) :=
  fieldsBut_markLive h (by simp)

/-! PAUSE -/

/-- A class of a PAUSE set that its mask names takes its time. -/
def pauseIf (b : Bool) (p c time : Nat) (s : State) : State := if b then s.pauseClass p 0 c time else s

theorem pausesOnly_pauseIf (b : Bool) (p c time : Nat) (s : State) : PausesOnly p s (pauseIf b p c time s) := by
  unfold pauseIf
  split
  · exact pausesOnly_pauseClass ..
  · exact pausesOnly_refl p s

theorem pausedAt_pauseIf (b : Bool) (p c time k : Nat) (s : State) :
    pausedAt (pauseIf b p c time s) p (subCls 0 k) = if b = true ∧ k = c then time else pausedAt s p (subCls 0 k) := by
  unfold pauseIf
  cases b with
  | true => simp [pausedAt_pauseClass]
  | false => simp

/-- The classes of a PAUSE set. -/
def osPauses (p m a b c : Nat) (s : State) : State :=
  pauseIf (bitAt m 2) p 6 c (pauseIf (bitAt m 1) p 5 b (pauseIf (bitAt m 0) p 4 a s))

theorem pausesOnly_osPauses (p m a b c : Nat) (s : State) : PausesOnly p s (osPauses p m a b c s) :=
  ((pausesOnly_pauseIf ..).trans (pausesOnly_pauseIf ..)).trans (pausesOnly_pauseIf ..)

theorem pausedAt_osPauses (p m a b c k : Nat) (s : State) :
    pausedAt (osPauses p m a b c s) p (subCls 0 k)
      = if bitAt m 2 = true ∧ k = 6 then c else if bitAt m 1 = true ∧ k = 5 then b else if bitAt m 0 = true ∧ k = 4 then a
        else pausedAt s p (subCls 0 k) := by
  unfold osPauses
  simp only [pausedAt_pauseIf]

theorem pauseOsEff_heard {s : State} {p : Nat} {copies : List (List Byte)} {fca m a b c : Nat}
    (h : heard s p copies = some (fca, .pause m a b c)) :
    pauseOsEff p copies s = osPauses p m a b c ((osCounted s p copies).markLive p) := withOs_heard h

theorem portsBut_pauseOsEff (s : State) (p : Nat) (copies : List (List Byte)) : PortsBut [p] s (pauseOsEff p copies s) := by
  refine portsBut_withOs fun u fca o hu => ?_
  cases o with
  | pause m a b c => exact portsBut_trans (portsBut_of_ports hu (markLive_ports u p)) (pausesOnly_osPauses p m a b c _).ports
  | _ => exact hu

theorem fieldsBut_pauseOsEff (s : State) (p : Nat) (copies : List (List Byte)) : FieldsBut (osFieldList p) s (pauseOsEff p copies s) := by
  refine fieldsBut_withOs (by simp) fun u fca o hu => ?_
  cases o with
  | pause m a b c => exact fieldsBut_of_regs (fieldsBut_osMarkLive hu) (pausesOnly_osPauses p m a b c _).regs
  | _ => exact hu

theorem get_pauseOsEff_bad (s : State) (p : Nat) (copies : List (List Byte)) :
    (pauseOsEff p copies s).get (Reg.LINK_OS_BAD.COUNT p)
      = min (s.get (Reg.LINK_OS_BAD.COUNT p) + badCopies s p copies) (2 ^ 32 - 1) := by
  refine get_withOs_bad fun u fca o => ?_
  cases o with
  | pause m a b c => exact (get_of_regs (pausesOnly_osPauses p m a b c _).regs _).trans (get_markLive_osBad u p p)
  | _ => rfl

/-- Of the port itself only received times change, and not that of class 7. -/
theorem pauseOsEff_port (s : State) (p : Nat) (copies : List (List Byte)) :
    (pauseOsEff p copies s).port p = { s.port p with paused := ((pauseOsEff p copies s).port p).paused }
      ∧ pausedAt (pauseOsEff p copies s) p 7 = pausedAt s p 7 := by
  unfold pauseOsEff
  refine withOs_cases (P := fun t => t.port p = { s.port p with paused := (t.port p).paused } ∧ pausedAt t p 7 = pausedAt s p 7) ?_ fun fca o => ?_
  · simp [pausedAt]
  · cases o with
    | pause m a b c =>
      refine ⟨(pausesOnly_osPauses p m a b c ((osCounted s p copies).markLive p)).port.trans ?_,
        (pausedAt_osPauses p m a b c 7 ((osCounted s p copies).markLive p)).trans ?_⟩
      · rw [markLive_port, osCounted_port]
        rfl
      · simp [pausedAt, subCls]
    | _ => simp [pausedAt]

theorem completes_pauseOsReceive (s : State) (p : PortId) (copies : List (List Byte)) :
    Completes (.pauseOsReceive p copies) s fun t =>
      (s.native p = false ∨ s.linkOn p = false → t = s)
      ∧ t.get (Reg.LINK_OS_BAD.COUNT p) = min (s.get (Reg.LINK_OS_BAD.COUNT p) + badCopies s p copies) (2 ^ 32 - 1)
      ∧ (∀ fca m a b c, heard s p copies = some (fca, .pause m a b c) →
          (bitAt m 0 = true → (t.port p).paused.getD 4 0 = a) ∧ (bitAt m 1 = true → (t.port p).paused.getD 5 0 = b)
          ∧ (bitAt m 2 = true → (t.port p).paused.getD 6 0 = c)
          ∧ (bitAt m 0 = false → (t.port p).paused.getD 4 0 = (s.port p).paused.getD 4 0))
      ∧ (heard s p copies = none → t.ports = s.ports)
      ∧ (t.port p).paused.getD 7 0 = (s.port p).paused.getD 7 0 ∧ t.port p = { s.port p with paused := (t.port p).paused }
      ∧ PortsBut [p.val] s t ∧ FieldsBut [Reg.LINK_OS_BAD.COUNT p, Reg.LINK_STS.PEER p] s t ∧ t = { s with regs := t.regs, ports := t.ports } := by
  obtain ⟨hport, hseven⟩ := pauseOsEff_port s p copies
  refine ⟨pauseOsEff p copies s, rfl, fun h => withOs_deaf h, get_pauseOsEff_bad s p copies, fun fca m a b c h => ?_, fun h => ?_, hseven,
    hport, portsBut_pauseOsEff s p copies, fieldsBut_pauseOsEff s p copies, eq_patch_of_same (pauseOsEff_same p copies s)⟩
  · have hat (k : Nat) := pausedAt_osPauses p m a b c k ((osCounted s p copies).markLive p)
    rw [← pauseOsEff_heard h] at hat
    refine ⟨fun hb => (hat 4).trans ?_, fun hb => (hat 5).trans ?_, fun hb => (hat 6).trans ?_, fun hb => (hat 4).trans ?_⟩
    all_goals simp [hb, pausedAt, subCls]
  · exact (congrArg State.ports (withOs_unheard h)).trans (osCounted_ports s p copies)

/-! ALIGN -/

theorem alignReceiveEff_heard {s : State} {p : Nat} {copies : List (List Byte)} {fca per mask : Nat}
    (h : heard s p copies = some (fca, .align per mask)) :
    alignReceiveEff p copies s = ((osCounted s p copies).markLive p).setPort p
      { ((osCounted s p copies).markLive p).port p with peerPeriod := per, peerMask := mask } := withOs_heard h

theorem portsBut_alignReceiveEff (s : State) (p : Nat) (copies : List (List Byte)) : PortsBut [p] s (alignReceiveEff p copies s) := by
  refine portsBut_withOs fun u fca o hu => ?_
  cases o with
  | align per mask => exact portsBut_setPort p _ (portsBut_of_ports hu (markLive_ports u p)) (by simp)
  | _ => exact hu

theorem fieldsBut_alignReceiveEff (s : State) (p : Nat) (copies : List (List Byte)) :
    FieldsBut (osFieldList p) s (alignReceiveEff p copies s) := by
  refine fieldsBut_withOs (by simp) fun u fca o hu => ?_
  cases o with
  | align per mask => exact fieldsBut_of_regs (fieldsBut_osMarkLive hu) rfl
  | _ => exact hu

theorem get_alignReceiveEff_bad (s : State) (p : Nat) (copies : List (List Byte)) :
    (alignReceiveEff p copies s).get (Reg.LINK_OS_BAD.COUNT p)
      = min (s.get (Reg.LINK_OS_BAD.COUNT p) + badCopies s p copies) (2 ^ 32 - 1) := by
  refine get_withOs_bad fun u fca o => ?_
  cases o with
  | align per mask => exact get_markLive_osBad u p p
  | _ => rfl

theorem completes_alignReceive (s : State) (p : PortId) (copies : List (List Byte)) :
    Completes (.alignReceive p copies) s fun t =>
      ∃ u : State, t = u.pathsChanged ∧ (s.native p = false ∨ s.linkOn p = false → u = s)
      ∧ u.get (Reg.LINK_OS_BAD.COUNT p) = min (s.get (Reg.LINK_OS_BAD.COUNT p) + badCopies s p copies) (2 ^ 32 - 1)
      ∧ (∀ fca per mask, heard s p copies = some (fca, .align per mask) → u.port p = { s.port p with peerPeriod := per, peerMask := mask }
          ∧ (s.get (Reg.LINK_STS.PEER p) = 0 ∨ s.get (Reg.LINK_STS.PEER p) = 3 → u.get (Reg.LINK_STS.PEER p) = 1))
      ∧ (heard s p copies = none → u.ports = s.ports ∧ u.get (Reg.LINK_STS.PEER p) = s.get (Reg.LINK_STS.PEER p))
      ∧ PortsBut [p.val] s u ∧ FieldsBut [Reg.LINK_OS_BAD.COUNT p, Reg.LINK_STS.PEER p] s u ∧ u = { s with regs := u.regs, ports := u.ports }
      ∧ TrafficOnly s t := by
  have hsame := alignReceiveEff_same p copies s
  refine ⟨_, rfl, alignReceiveEff p copies s, rfl, fun h => withOs_deaf h, get_alignReceiveEff_bad s p copies, fun fca per mask h => ?_,
    fun h => ?_, portsBut_alignReceiveEff s p copies, fieldsBut_alignReceiveEff s p copies, eq_patch_of_same hsame,
    trafficOnly_of_same ((hsame.mono (by decide)).trans (pathsChanged_same _)) (by decide)⟩
  · rw [alignReceiveEff_heard h]
    refine ⟨by simp, fun hpeer => ?_⟩
    rw [get_setPort]
    rw [← get_osCounted_ne s copies (linkSts_ne_osBad p p)] at hpeer
    exact get_markLive_peer hpeer
  · have hu : alignReceiveEff p copies s = osCounted s p copies := withOs_unheard h
    rw [hu]
    exact ⟨osCounted_ports s p copies, get_osCounted_ne s copies (linkSts_ne_osBad p p)⟩

/-! KEEPALIVE -/

theorem keepaliveReceiveEff_heard {s : State} {p : Nat} {copies : List (List Byte)} {fca ft : Nat} {a b : Bool}
    (h : heard s p copies = some (fca, .keepalive a b ft)) :
    keepaliveReceiveEff p copies s = (osCounted s p copies).put (Reg.LINK_STS.PEER p) 1 := withOs_heard h

theorem fieldsBut_keepaliveReceiveEff (s : State) (p : Nat) (copies : List (List Byte)) :
    FieldsBut (osFieldList p) s (keepaliveReceiveEff p copies s) := by
  refine fieldsBut_withOs (by simp) fun u fca o hu => ?_
  cases o with
  | keepalive a b ft => exact fieldsBut_put _ _ hu (fieldOk_of_ble rfl) (by simp)
  | _ => exact hu

theorem get_keepaliveReceiveEff_bad (s : State) (p : Nat) (copies : List (List Byte)) :
    (keepaliveReceiveEff p copies s).get (Reg.LINK_OS_BAD.COUNT p)
      = min (s.get (Reg.LINK_OS_BAD.COUNT p) + badCopies s p copies) (2 ^ 32 - 1) := by
  refine get_withOs_bad fun u fca o => ?_
  cases o with
  | keepalive a b ft => exact get_put_ne u _ _ _ (linkSts_ne_osBad p p).symm
  | _ => rfl

theorem completes_keepaliveReceive (s : State) (p : PortId) (copies : List (List Byte)) :
    Completes (.keepaliveReceive p copies) s fun t =>
      ∃ u : State, t = u.pathsChanged ∧ (s.native p = false ∨ s.linkOn p = false → u = s)
      ∧ u.get (Reg.LINK_OS_BAD.COUNT p) = min (s.get (Reg.LINK_OS_BAD.COUNT p) + badCopies s p copies) (2 ^ 32 - 1)
      ∧ (∀ fca a b ft, heard s p copies = some (fca, .keepalive a b ft) → u.get (Reg.LINK_STS.PEER p) = 1)
      ∧ (heard s p copies = none → u.get (Reg.LINK_STS.PEER p) = s.get (Reg.LINK_STS.PEER p))
      ∧ FieldsBut [Reg.LINK_OS_BAD.COUNT p, Reg.LINK_STS.PEER p] s u ∧ u = { s with regs := u.regs } ∧ TrafficOnly s t := by
  have hsame := keepaliveReceiveEff_same p copies s
  refine ⟨_, rfl, keepaliveReceiveEff p copies s, rfl, fun h => withOs_deaf h, get_keepaliveReceiveEff_bad s p copies,
    fun fca a b ft h => ?_, fun h => ?_, fieldsBut_keepaliveReceiveEff s p copies, eq_patch_of_same hsame,
    trafficOnly_of_same ((hsame.mono (by decide)).trans (pathsChanged_same _)) (by decide)⟩
  · rw [keepaliveReceiveEff_heard h]
    exact get_put_value rfl rfl
  · have hu : keepaliveReceiveEff p copies s = osCounted s p copies := withOs_unheard h
    rw [hu]
    exact get_osCounted_ne s copies (linkSts_ne_osBad p p)

/-! FENCED -/

theorem wordSet_wordField (v : Word) {lo w : Nat} (h : lo + w ≤ 32) : wordSet v lo w (wordField v lo w) = v := by
  refine BitVec.eq_of_getLsbD_eq fun i hi => ?_
  rw [wordSet_getLsbD v lo w _ i h hi]
  split
  · next hin =>
    rw [wordField_testBit, decide_eq_true (by omega), Bool.true_and, Nat.add_sub_cancel' hin.1]
  · rfl

/-- A field given the value that it has. -/
theorem fieldsBut_put_same {fs : List Fld} {s t : State} {f : Fld} {x : Nat} (h : FieldsBut fs s t) (hf : FieldOk f) (hx : t.get f = x) :
    FieldsBut fs s (t.put f x) := by
  intro g hg ha
  have hreg : (t.put f x).reg g.off = t.reg g.off := by
    by_cases ho : g.off = f.off
    · rw [ho, reg_put_self, ← hx]
      exact wordSet_wordField _ hf
    · exact reg_put_ne t f x ho
  refine Eq.trans ?_ (h g hg ha)
  unfold State.get
  rw [hreg]

/-- What a FENCED set shows at its port. -/
def fencedShown (p fca : Nat) (transit : Bool) (reason : Nat) (s : State) : State :=
  (s.setPort p { s.port p with peerFca := fca, peerTransit := transit, peerReason := reason }).put (Reg.LINK_STS.PEER p) 2

/-- A FENCED set tells of a peer that was not known to be fenced, or for another reason. -/
def fencedTells (p reason : Nat) (s : State) : Bool := s.get (Reg.LINK_STS.PEER p) != 2 || (s.port p).peerReason != reason

theorem fencedReceiveEff_heard {s : State} {p : Nat} {copies : List (List Byte)} {fca reason : Nat} {transit : Bool}
    (h : heard s p copies = some (fca, .fenced transit reason)) :
    fencedReceiveEff p copies s
      = ((if fencedTells p reason (osCounted s p copies)
          then (fencedShown p fca transit reason (osCounted s p copies)).event Ev.peerFenced (leBytes 1 p ++ leBytes 1 reason)
          else fencedShown p fca transit reason (osCounted s p copies)).discardQueued p).refreshBackups := withOs_heard h

theorem get_fencedShown_peer (p fca : Nat) (transit : Bool) (reason : Nat) (s : State) :
    (fencedShown p fca transit reason s).get (Reg.LINK_STS.PEER p) = 2 :=
  get_put_value rfl rfl

theorem fencedShown_port (p fca : Nat) (transit : Bool) (reason : Nat) (s : State) :
    (fencedShown p fca transit reason s).port p = { s.port p with peerFca := fca, peerTransit := transit, peerReason := reason } :=
  port_setPort_self ..

theorem linkSts_low (p : PortId) : Reg.LINK_STS.off p < 0x300000 := by
  unfold Reg.LINK_STS.off
  omega

/-- What a FENCED set shows outlives the report and the discards that follow it. -/
theorem fencedShown_stands (p : PortId) (fca : Nat) (transit : Bool) (reason : Nat) (s : State) {v : State}
    (h : DropsOnly (fencedShown p fca transit reason s) v) :
    (v.discardQueued p).get (Reg.LINK_STS.PEER p) = 2 ∧ ((v.discardQueued p).port p).peerFca = fca
      ∧ ((v.discardQueued p).port p).peerTransit = transit ∧ ((v.discardQueued p).port p).peerReason = reason := by
  have hport : v.port p = _ := h.port p
  have hgone : (v.discardQueued p).port p = _ := (dropsOnly_discardQueued v p).port p
  rw [port_setPort_self] at hgone
  rw [fencedShown_port] at hport
  refine ⟨?_, ?_, ?_, ?_⟩
  · rw [get_discardQueued v p (linkSts_low p), h.get (linkSts_low p)]
    exact get_fencedShown_peer ..
  all_goals rw [hgone, hport]

theorem discardQueued_empty {s : State} {p : Nat} (h : (s.port p).txq = []) :
    s.discardQueued p = s.setPort p { s.port p with txq := [] } := by
  simp [State.discardQueued, h]

theorem fencedTells_known {s : State} {p reason : Nat} (copies : List (List Byte)) (hpeer : s.get (Reg.LINK_STS.PEER p) = 2)
    (hr : (s.port p).peerReason = reason) : fencedTells p reason (osCounted s p copies) = false := by
  unfold fencedTells
  rw [get_osCounted_ne s copies (linkSts_ne_osBad p p), osCounted_port, hpeer, hr]
  simp

theorem completes_fencedReceive (s : State) (p : PortId) (copies : List (List Byte)) :
    Completes (.fencedReceive p copies) s fun t =>
      (s.native p = false ∨ s.linkOn p = false → t = s.pathsChanged)
      ∧ (s.native p = true → s.linkOn p = true → heard s p copies = none → t = (s.count (Reg.LINK_OS_BAD.COUNT p) (badCopies s p copies)).pathsChanged)
      ∧ (∀ fca tr reason, heard s p copies = some (fca, .fenced tr reason) → s.get (Reg.LINK_STS.PEER p) = 2 → (s.port p).peerReason = reason →
          (s.port p).txq = [] → ∃ u : State, t = (State.refreshBackups u).pathsChanged ∧ u.port p = { s.port p with peerFca := fca, peerTransit := tr, peerReason := reason }
            ∧ FieldsBut [Reg.LINK_OS_BAD.COUNT p] s u ∧ u = { s with regs := u.regs, ports := u.ports })
      ∧ (∀ fca tr reason, heard s p copies = some (fca, .fenced tr reason) → ∃ u : State, t = (State.refreshBackups u).pathsChanged ∧ u.get (Reg.LINK_STS.PEER p) = 2
          ∧ (u.port p).peerFca = fca ∧ (u.port p).peerTransit = tr ∧ (u.port p).peerReason = reason)
      ∧ TrafficOnly s t := by
  refine ⟨(fencedReceiveEff p copies s).pathsChanged, rfl, fun h => congrArg State.pathsChanged (withOs_deaf h), fun hn hl h => ?_,
    fun fca tr reason h hpeer hr hq => ?_, fun fca tr reason h => ?_,
    trafficOnly_of_same (((fencedReceiveEff_same p copies s).mono (by decide)).trans (pathsChanged_same _)) (by decide)⟩
  · refine congrArg State.pathsChanged ((withOs_unheard h).trans ?_)
    exact osCounted_listening (listening hn hl)
  · rw [fencedReceiveEff_heard h, fencedTells_known copies hpeer hr, if_neg (by decide)]
    have hport := fencedShown_port p fca tr reason (osCounted s p copies)
    rw [osCounted_port] at hport
    have hpeer' : (osCounted s p copies).get (Reg.LINK_STS.PEER p) = 2 := by
      rw [get_osCounted_ne s copies (linkSts_ne_osBad p p), hpeer]
    rw [discardQueued_empty (by rw [hport]; exact hq)]
    refine ⟨_, rfl, ?_, ?_, ?_⟩
    · rw [port_setPort_self, hport, ← hq]
    · exact fieldsBut_of_regs (fieldsBut_put_same (fieldsBut_of_regs (fieldsBut_osCounted s copies (by simp)) rfl) (fieldOk_of_ble rfl)
        hpeer') rfl
    · unfold fencedShown osCounted
      split <;> rfl
  · rw [fencedReceiveEff_heard h]
    refine ⟨_, rfl, fencedShown_stands p fca tr reason (osCounted s p copies) ?_⟩
    split
    · exact dropsOnly_event _ _ _
    · exact dropsOnly_refl _

/-! BEACON -/

/-- The mean path delay of a beacon that echoes one of this side (R68). -/
def beaconDelay (arr t1 echo t2 : Nat) : Nat := (BitVec.ofInt 32 (((Int.ofNat arr - Int.ofNat echo) - (Int.ofNat t1 - Int.ofNat t2)) / 2)).toNat

/-- What a beacon leaves at its port. -/
def beaconKept (p arr st t1 echo t2 hops : Nat) (s : State) : State :=
  (if echo ≠ 0 then s.put (Reg.LINK_PEER_DELAY.DELAY p) (beaconDelay arr t1 echo t2) else s).setPort p
    { s.port p with beacon := { (s.port p).beacon with peerT1 := t1, arrival := arr, peerState := st, hops := hops } }

/-- A beacon is kept; that of the time source shows TIME_OFFSET too. -/
def beaconTaken (p arr : Nat) (src : Bool) (st t1 echo t2 hops : Nat) (s : State) : State :=
  let k := beaconKept p arr st t1 echo t2 hops (s.markLive p)
  if src && k.get Reg.TIME_CTL.SRC == 1 && k.get Reg.TIME_PORT.PORT == p then
    k.showOffset (Int.ofNat arr - (Int.ofNat t1 + (BitVec.ofNat 32 (k.get (Reg.LINK_PEER_DELAY.DELAY p))).toInt))
  else k

theorem beaconReceiveEff_eq (p : Nat) (copies : List (List Byte)) (arr : Nat) (s : State) :
    beaconReceiveEff p copies arr s = s.withOs p copies (fun s _ o => match o with
      | .beacon src st _ t1 echo t2 hops => beaconTaken p arr src st t1 echo t2 hops s
      | _ => s) := rfl

theorem beaconReceiveEff_heard {s : State} {p arr fca st n t1 echo t2 hops : Nat} {copies : List (List Byte)} {src : Bool}
    (h : heard s p copies = some (fca, .beacon src st n t1 echo t2 hops)) :
    beaconReceiveEff p copies arr s = beaconTaken p arr src st t1 echo t2 hops (osCounted s p copies) := withOs_heard h

/-- TIME_OFFSET apart, a beacon leaves what is kept of it. -/
theorem beaconTaken_cases (p arr : Nat) (src : Bool) (st t1 echo t2 hops : Nat) (s : State) :
    beaconTaken p arr src st t1 echo t2 hops s = beaconKept p arr st t1 echo t2 hops (s.markLive p)
      ∨ ∃ x, beaconTaken p arr src st t1 echo t2 hops s
          = (beaconKept p arr st t1 echo t2 hops (s.markLive p)).put Reg.TIME_OFFSET.OFFSET x := by
  unfold beaconTaken State.showOffset
  dsimp only
  split
  · split
    · exact .inr ⟨_, rfl⟩
    · exact .inl rfl
  · exact .inl rfl

theorem beaconTaken_ports (p arr : Nat) (src : Bool) (st t1 echo t2 hops : Nat) (s : State) :
    (beaconTaken p arr src st t1 echo t2 hops s).ports = ((s.markLive p).setPort p { s.port p with
      beacon := { (s.port p).beacon with peerT1 := t1, arrival := arr, peerState := st, hops := hops } }).ports := by
  have hkept : (beaconKept p arr st t1 echo t2 hops (s.markLive p)).ports = ((s.markLive p).setPort p { s.port p with
      beacon := { (s.port p).beacon with peerT1 := t1, arrival := arr, peerState := st, hops := hops } }).ports := by
    unfold beaconKept
    rw [markLive_port]
    split <;> rfl
  rcases beaconTaken_cases p arr src st t1 echo t2 hops s with e | ⟨x, e⟩
  · rw [e]
    exact hkept
  · rw [e]
    exact hkept

theorem get_beaconTaken {p : Nat} (arr : Nat) (src : Bool) (st t1 echo t2 hops : Nat) (s : State) {g : Fld}
    (hg : g.off ≠ Reg.TIME_OFFSET.off) :
    (beaconTaken p arr src st t1 echo t2 hops s).get g = (beaconKept p arr st t1 echo t2 hops (s.markLive p)).get g := by
  rcases beaconTaken_cases p arr src st t1 echo t2 hops s with e | ⟨x, e⟩ <;> rw [e]
  exact get_put_ne _ _ _ _ hg

/-- LINK_PEER_DELAY and the counters of a port are registers of their own. -/
theorem linkOsBad_alone (p : Nat) : Reg.LINK_OS_BAD.off p ≠ Reg.LINK_PEER_DELAY.off p ∧ Reg.LINK_OS_BAD.off p ≠ Reg.TIME_OFFSET.off := by
  unfold Reg.LINK_PEER_DELAY.off Reg.LINK_OS_BAD.off Reg.TIME_OFFSET.off
  omega

theorem linkPeerDelay_alone (p : Nat) : Reg.LINK_PEER_DELAY.off p ≠ Reg.LINK_STS.off p ∧ Reg.LINK_PEER_DELAY.off p ≠ Reg.LINK_OS_BAD.off p
    ∧ Reg.LINK_PEER_DELAY.off p ≠ Reg.TIME_OFFSET.off := by
  unfold Reg.LINK_PEER_DELAY.off Reg.LINK_STS.off Reg.LINK_OS_BAD.off Reg.TIME_OFFSET.off
  omega

theorem get_beaconTaken_osBad (p arr : Nat) (src : Bool) (st t1 echo t2 hops : Nat) (s : State) :
    (beaconTaken p arr src st t1 echo t2 hops s).get (Reg.LINK_OS_BAD.COUNT p) = s.get (Reg.LINK_OS_BAD.COUNT p) := by
  obtain ⟨hdelay, htime⟩ := linkOsBad_alone p
  rw [get_beaconTaken _ _ _ _ _ _ _ _ htime, ← get_markLive_osBad s p p]
  unfold beaconKept
  rw [get_setPort]
  split
  · exact get_put_ne _ _ _ _ hdelay
  · rfl

/-- LINK_PEER_DELAY after a beacon. -/
theorem get_beaconTaken_delay (p arr : Nat) (src : Bool) (st t1 echo t2 hops : Nat) (s : State) :
    (beaconTaken p arr src st t1 echo t2 hops s).get (Reg.LINK_PEER_DELAY.DELAY p)
      = if echo ≠ 0 then beaconDelay arr t1 echo t2 else s.get (Reg.LINK_PEER_DELAY.DELAY p) := by
  obtain ⟨hsts, -, htime⟩ := linkPeerDelay_alone p
  rw [get_beaconTaken _ _ _ _ _ _ _ _ htime]
  unfold beaconKept
  rw [get_setPort]
  split
  · exact get_put_fits _ _ _ (fieldOk_of_ble rfl) (BitVec.isLt _)
  · exact get_markLive_ne s hsts

/-- The fields that a BEACON set may write. -/
abbrev beaconFields (p : Nat) : List Fld :=
  [Reg.LINK_OS_BAD.COUNT p, Reg.LINK_STS.PEER p, Reg.LINK_PEER_DELAY.DELAY p, Reg.TIME_OFFSET.OFFSET]

theorem fieldsBut_beaconTaken {s t : State} {p : Nat} (arr : Nat) (src : Bool) (st t1 echo t2 hops : Nat)
    (h : FieldsBut (beaconFields p) s t) : FieldsBut (beaconFields p) s (beaconTaken p arr src st t1 echo t2 hops t) := by
  have hlive := fieldsBut_markLive (p := p) h (by simp)
  have hkept : FieldsBut (beaconFields p) s (beaconKept p arr st t1 echo t2 hops (t.markLive p)) := by
    refine fieldsBut_of_regs
      (t := if echo ≠ 0 then (t.markLive p).put (Reg.LINK_PEER_DELAY.DELAY p) (beaconDelay arr t1 echo t2) else t.markLive p) ?_ rfl
    split
    · exact fieldsBut_put _ _ hlive (fieldOk_of_ble rfl) (by simp)
    · exact hlive
  rcases beaconTaken_cases p arr src st t1 echo t2 hops t with e | ⟨x, e⟩ <;> rw [e]
  · exact hkept
  · exact fieldsBut_put _ _ hkept (by decide) (by simp)

theorem portsBut_beaconReceiveEff (s : State) (p : Nat) (copies : List (List Byte)) (arr : Nat) :
    PortsBut [p] s (beaconReceiveEff p copies arr s) := by
  rw [beaconReceiveEff_eq]
  refine portsBut_withOs fun u fca o hu => ?_
  cases o with
  | beacon src st n t1 echo t2 hops =>
    exact portsBut_of_ports (portsBut_setPort p _ (portsBut_of_ports hu (markLive_ports u p)) (by simp)) (beaconTaken_ports ..)
  | _ => exact hu

theorem fieldsBut_beaconReceiveEff (s : State) (p : Nat) (copies : List (List Byte)) (arr : Nat) :
    FieldsBut (beaconFields p) s (beaconReceiveEff p copies arr s) := by
  rw [beaconReceiveEff_eq]
  refine fieldsBut_withOs (by simp) fun u fca o hu => ?_
  cases o with
  | beacon src st n t1 echo t2 hops => exact fieldsBut_beaconTaken arr src st t1 echo t2 hops hu
  | _ => exact hu

theorem get_beaconReceiveEff_bad (s : State) (p : Nat) (copies : List (List Byte)) (arr : Nat) :
    (beaconReceiveEff p copies arr s).get (Reg.LINK_OS_BAD.COUNT p)
      = min (s.get (Reg.LINK_OS_BAD.COUNT p) + badCopies s p copies) (2 ^ 32 - 1) := by
  rw [beaconReceiveEff_eq]
  refine get_withOs_bad fun u fca o => ?_
  cases o with
  | beacon src st n t1 echo t2 hops => exact get_beaconTaken_osBad p arr src st t1 echo t2 hops u
  | _ => rfl

theorem completes_beaconReceive (s : State) (p : PortId) (copies : List (List Byte)) (arr : Nat) :
    Completes (.beaconReceive p copies arr) s fun t =>
      (s.native p = false ∨ s.linkOn p = false → t = s)
      ∧ t.get (Reg.LINK_OS_BAD.COUNT p) = min (s.get (Reg.LINK_OS_BAD.COUNT p) + badCopies s p copies) (2 ^ 32 - 1)
      ∧ (∀ fca src st n t1 echo t2 hops, heard s p copies = some (fca, .beacon src st n t1 echo t2 hops) →
          t.port p = { s.port p with beacon := { (s.port p).beacon with peerT1 := t1, arrival := arr, peerState := st, hops := hops } }
          ∧ (echo ≠ 0 → t.get (Reg.LINK_PEER_DELAY.DELAY p) = beaconDelay arr t1 echo t2)
          ∧ (echo = 0 → t.get (Reg.LINK_PEER_DELAY.DELAY p) = s.get (Reg.LINK_PEER_DELAY.DELAY p)))
      ∧ PortsBut [p.val] s t ∧ FieldsBut (beaconFields p) s t ∧ t = { s with regs := t.regs, ports := t.ports } := by
  refine ⟨beaconReceiveEff p copies arr s, rfl, fun h => withOs_deaf h, get_beaconReceiveEff_bad s p copies arr,
    fun fca src st n t1 echo t2 hops h => ?_, portsBut_beaconReceiveEff s p copies arr, fieldsBut_beaconReceiveEff s p copies arr,
    eq_patch_of_same (beaconReceiveEff_same p copies arr s)⟩
  obtain ⟨-, hbad, -⟩ := linkPeerDelay_alone p
  rw [beaconReceiveEff_heard h]
  have hdelay := get_beaconTaken_delay p arr src st t1 echo t2 hops (osCounted s p copies)
  refine ⟨?_, fun he => hdelay.trans (if_pos he), fun he => ?_⟩
  · rw [port_of_ports (beaconTaken_ports ..), port_setPort_self, osCounted_port]
  · rw [hdelay, if_neg (not_not_intro he), get_osCounted_ne _ _ hbad]

/-- Settles O6, set by set through the lemmas above. -/
theorem orderedSetReception : Obligations.OrderedSetReception := by
  unfold Obligations.OrderedSetReception
  exact ⟨completes_pauseOsReceive, completes_alignReceive, completes_keepaliveReceive, completes_fencedReceive, completes_beaconReceive⟩

end Sys2Proof.Machine.Proofs
end

section
/-! PROOFS. A port that loses its peer or goes to TRAINING (03_link_ports.md R59, R70, R71; 04_routing_and_mesh.md R107, R113, R114). -/

namespace Sys2Proof.Machine.Proofs

open Laws

/-! What drops leave alone, before and after an edit -/

/-- The same field written on both sides. -/
theorem KeepsRegs.put_both {lo hi : Nat} {s t : State} (h : KeepsRegs lo hi s t) (f : Fld) (x : Nat) :
    KeepsRegs lo hi (s.put f x) (t.put f x) := by
  intro o hlo hhi
  by_cases ho : o = f.off
  · subst ho
    rw [reg_put_self, reg_put_self, h f.off hlo hhi]
  · rw [reg_put_ne _ _ _ ho, reg_put_ne _ _ _ ho, h o hlo hhi]

theorem DropsOnly.put_both {s t : State} (h : DropsOnly s t) (f : Fld) (x : Nat) : DropsOnly (s.put f x) (t.put f x) :=
  ⟨h.regs.put_both f x, h.port⟩

/-- The same edit of a port, of neither its held cells nor its XOFF marks, on both sides. -/
theorem DropsOnly.edit {s t : State} (h : DropsOnly s t) (p : Nat) (f : Port → Port)
    (hf : ∀ x c o, f { x with cells := c, xoff := o } = { f x with cells := c, xoff := o }) :
    DropsOnly (s.setPort p (f (s.port p))) (t.setPort p (f (t.port p))) := by
  refine ⟨(h.regs.of_regs (u := t.setPort p (f (t.port p))) rfl), fun q => ?_⟩
  by_cases hq : q = p
  · subst hq
    rw [port_setPort_self, port_setPort_self, h.port q, hf]
  · rw [port_setPort_ne _ _ hq, port_setPort_ne _ _ hq]
    exact h.port q

/-! Nothing is usable on a port whose link is off or whose peer is lost -/

theorem usable_training {s : State} {p : Nat} (h : s.get (Reg.LINK_STS.STATE p) = 1) (d : Option Nat) : s.usable p d = false := by
  simp [State.usable, h]

theorem usable_lost {s : State} {p : Nat} (h : s.get (Reg.LINK_STS.PEER p) = 3) (d : Option Nat) : s.usable p d = false := by
  simp [State.usable, h]

/-- A port with its transmit queue emptied. -/
abbrev unqueuedPort (x : Port) : Port := { x with txq := [] }

/-- Where nothing is usable the whole transmit queue goes. -/
theorem dropsOnly_discardQueued_all {s : State} {p : Nat} (h : ∀ d, s.usable p d = false) :
    DropsOnly (s.setPort p (unqueuedPort (s.port p))) (s.discardQueued p) := by
  have hall := dropsOnly_discardQueued s p
  simpa only [h, List.filter_false] using hall

/-! A lost peer -/

/-- PEER and PEER_LOST of a port whose peer is lost. -/
def peerLostShown (s : State) (p : Nat) : State := (s.put (Reg.LINK_STS.PEER p) 3).put (Reg.LINK_STS.PEER_LOST p) 1

theorem get_peerLostShown_peer (s : State) (p : Nat) : (peerLostShown s p).get (Reg.LINK_STS.PEER p) = 3 := by
  unfold peerLostShown
  rw [get_put_apart rfl]
  exact get_put_value rfl rfl

theorem get_peerLostShown_lost (s : State) (p : Nat) : (peerLostShown s p).get (Reg.LINK_STS.PEER_LOST p) = 1 :=
  get_put_value rfl rfl

/-- The state of the link and preemption are other fields. -/
theorem get_peerLostShown_state (s : State) (p : Nat) : (peerLostShown s p).get (Reg.LINK_STS.STATE p) = s.get (Reg.LINK_STS.STATE p) := by
  unfold peerLostShown
  rw [get_put_apart rfl, get_put_apart rfl]

theorem get_peerLostShown_preempt (s : State) (p : Nat) :
    (peerLostShown s p).get (Reg.LINK_STS.PREEMPT_ACT p) = s.get (Reg.LINK_STS.PREEMPT_ACT p) := by
  unfold peerLostShown
  rw [get_put_apart rfl, get_put_apart rfl]

theorem dropsOnly_peerLost (s : State) (p : PortId) :
    DropsOnly ((peerLostShown s p).setPort p (unqueuedPort (s.port p))) (s.peerLost p) := by
  have hevent := dropsOnly_event (peerLostShown s p) Ev.peerLost (leBytes 1 p)
  have hpeer : ((peerLostShown s p).event Ev.peerLost (leBytes 1 p)).get (Reg.LINK_STS.PEER p) = 3 :=
    (hevent.get (linkSts_low p)).trans (get_peerLostShown_peer s p)
  exact ((hevent.edit p unqueuedPort fun _ _ _ => rfl).trans (dropsOnly_discardQueued_all (usable_lost hpeer))).trans
    (dropsOnly_refreshBackups _ _)

/-- The port of a lost peer. -/
theorem peerLost_port (s : State) (p : PortId) :
    (s.peerLost p).port p = { s.port p with txq := [], cells := ((s.peerLost p).port p).cells, xoff := ((s.peerLost p).port p).xoff } := by
  have hport := (dropsOnly_peerLost s p).port p
  rwa [port_setPort_self] at hport

theorem get_peerLost (s : State) (p : PortId) {g : Fld} (hg : g.off < 0x300000) : (s.peerLost p).get g = (peerLostShown s p).get g :=
  ((dropsOnly_peerLost s p).get hg).trans (get_setPort _ _ _ g)

/-! TRAINING -/

/-- A port whose link has gone. -/
abbrev closedPort (x : Port) : Port :=
  { x with rxOpen := [], paused := [], trained := 0, req := none, change := none, subsUp := [], restore := [], verified := [] }

/-- STATE, ACTIVE and PREEMPT_ACT of a port whose link is off. -/
def linkOffShown (s : State) (p : Nat) : State :=
  ((s.put (Reg.LINK_STS.STATE p) 1).put (Reg.LINK_STS.ACTIVE p) 0).put (Reg.LINK_STS.PREEMPT_ACT p) 0

theorem get_linkOffShown_state (s : State) (p : Nat) : (linkOffShown s p).get (Reg.LINK_STS.STATE p) = 1 := by
  unfold linkOffShown
  rw [get_put_apart rfl, get_put_apart rfl]
  exact get_put_value rfl rfl

theorem get_linkOffShown_active (s : State) (p : Nat) : (linkOffShown s p).get (Reg.LINK_STS.ACTIVE p) = 0 := by
  unfold linkOffShown
  rw [get_put_apart rfl]
  exact get_put_value rfl rfl

theorem get_linkOffShown_preempt (s : State) (p : Nat) : (linkOffShown s p).get (Reg.LINK_STS.PREEMPT_ACT p) = 0 :=
  get_put_value rfl rfl

/-- The other registers, and PEER and PEER_LOST, stay. -/
theorem get_linkOffShown_ne (s : State) {p : Nat} {g : Fld} (h : g.off ≠ Reg.LINK_STS.off p) : (linkOffShown s p).get g = s.get g := by
  unfold linkOffShown
  rw [get_put_ne _ _ _ _ h, get_put_ne _ _ _ _ h, get_put_ne _ _ _ _ h]

theorem get_linkOffShown_peer (s : State) (p : Nat) : (linkOffShown s p).get (Reg.LINK_STS.PEER p) = s.get (Reg.LINK_STS.PEER p) := by
  unfold linkOffShown
  rw [get_put_apart rfl, get_put_apart rfl, get_put_apart rfl]

theorem get_linkOffShown_lost (s : State) (p : Nat) :
    (linkOffShown s p).get (Reg.LINK_STS.PEER_LOST p) = s.get (Reg.LINK_STS.PEER_LOST p) := by
  unfold linkOffShown
  rw [get_put_apart rfl, get_put_apart rfl, get_put_apart rfl]

/-- The frames in assembly leave their images. -/
theorem dropsOnly_leaveOpen (s : State) (p : Nat) (cs : List Nat) :
    DropsOnly s (cs.foldl (fun s c => match (s.port p).rxOpen.at? c with
      | some (e, _) => s.leave e
      | none => s) s) := by
  refine DropsOnly.foldl (fun u c => ?_) cs s
  split
  · exact dropsOnly_leave u _
  · exact dropsOnly_refl u

/-- STATE and ACTIVE of a port whose link is off. -/
def linkStateOff (s : State) (p : Nat) : State := (s.put (Reg.LINK_STS.STATE p) 1).put (Reg.LINK_STS.ACTIVE p) 0

theorem dropsOnly_preemptOff {s t : State} (h : DropsOnly s t) (p : Nat) : DropsOnly (s.preemptOff p) (t.preemptOff p) :=
  (h.edit p (fun x => { x with verified := [] }) fun _ _ _ => rfl).put_both (Reg.LINK_STS.PREEMPT_ACT p) 0

/-- A port sent to TRAINING, before what is queued there goes. -/
def trainingStart (s : State) (p : Nat) : State :=
  ((linkStateOff s p).setPort p { s.port p with
    rxOpen := [], paused := [], trained := 0, req := none, change := none, subsUp := [], restore := [] }).preemptOff p

theorem get_trainingStart (s : State) (p : Nat) (g : Fld) : (trainingStart s p).get g = (linkOffShown s p).get g :=
  get_of_regs rfl g

theorem trainingStart_port (s : State) (p : Nat) : (trainingStart s p).port p = closedPort (s.port p) := by
  unfold trainingStart State.preemptOff
  rw [port_put, port_setPort_self, port_setPort_self]

theorem dropsOnly_toTraining (s : State) (p : PortId) :
    DropsOnly ((trainingStart s p).setPort p (unqueuedPort ((trainingStart s p).port p))) (s.toTraining p) := by
  unfold State.toTraining
  extract_lets +onlyGivenNames t u src v
  have hclosed : DropsOnly (trainingStart s p) (v.preemptOff p) :=
    dropsOnly_preemptOff ((dropsOnly_leaveOpen t p _).edit p (fun x => { x with
      rxOpen := [], paused := [], trained := 0, req := none, change := none, subsUp := [], restore := [] }) fun _ _ _ => rfl) p
  have hstate : (v.preemptOff p).get (Reg.LINK_STS.STATE p) = 1 :=
    (hclosed.get (linkSts_low p)).trans ((get_trainingStart s p _).trans (get_linkOffShown_state s p))
  exact ((hclosed.edit p unqueuedPort fun _ _ _ => rfl).trans (dropsOnly_discardQueued_all (usable_training hstate))).trans
    (dropsOnly_refreshBackups _ _)

/-- The port of a link in TRAINING. -/
theorem toTraining_port (s : State) (p : PortId) :
    (s.toTraining p).port p = { closedPort (s.port p) with
      txq := [], cells := ((s.toTraining p).port p).cells, xoff := ((s.toTraining p).port p).xoff } := by
  have hport := (dropsOnly_toTraining s p).port p
  rwa [port_setPort_self, trainingStart_port] at hport

theorem toTraining_req (s : State) (p : PortId) : ((s.toTraining p).port p).req = none := by
  rw [toTraining_port]

theorem toTraining_txq (s : State) (p : PortId) : ((s.toTraining p).port p).txq = [] := by
  rw [toTraining_port]

theorem toTraining_lanes (s : State) (p : PortId) : ((s.toTraining p).port p).lanes = (s.port p).lanes := by
  rw [toTraining_port]

theorem get_toTraining (s : State) (p : PortId) {g : Fld} (hg : g.off < 0x300000) :
    (s.toTraining p).get g = (linkOffShown s p).get g :=
  ((dropsOnly_toTraining s p).get hg).trans ((get_setPort _ _ _ g).trans (get_trainingStart s p g))

/-! An Ethernet link that goes down -/

theorem ethDown_port (s : State) (p : Nat) :
    (s.ethDown p).port p = { s.port p with paused := [], subsUp := [], verified := [] } := by
  unfold State.ethDown State.preemptOff
  rw [port_put, port_setPort_self, port_setPort_self]

theorem get_ethDown (s : State) (p : Nat) (g : Fld) : (s.ethDown p).get g = (linkOffShown s p).get g := get_of_regs rfl g

/-- What a link that has gone down shows: its peer is lost, and nothing but LINK_STS differs. -/
structure DownShown (s : State) (p : Nat) (v : State) : Prop where
  state : v.get (Reg.LINK_STS.STATE p) = 1
  preempt : v.get (Reg.LINK_STS.PREEMPT_ACT p) = 0
  peer : v.get (Reg.LINK_STS.PEER p) = 3
  apart : ∀ g : Fld, g.off ≠ Reg.LINK_STS.off p → v.get g = s.get g

theorem downShown_ethDown {s : State} {p : Nat} (h : (s.ethDown p).get (Reg.LINK_STS.PEER p) = 3) : DownShown s p (s.ethDown p) where
  state := (get_ethDown s p _).trans (get_linkOffShown_state s p)
  preempt := (get_ethDown s p _).trans (get_linkOffShown_preempt s p)
  peer := h
  apart g hg := (get_ethDown s p g).trans (get_linkOffShown_ne s hg)

theorem downShown_peerLost (s : State) (p : Nat) : DownShown s p (peerLostShown (s.ethDown p) p) where
  state := (get_peerLostShown_state _ p).trans ((get_ethDown s p _).trans (get_linkOffShown_state s p))
  preempt := (get_peerLostShown_preempt _ p).trans ((get_ethDown s p _).trans (get_linkOffShown_preempt s p))
  peer := get_peerLostShown_peer _ p
  apart g hg := by
    unfold peerLostShown
    rw [get_put_ne _ _ _ _ hg, get_put_ne _ _ _ _ hg, get_ethDown, get_linkOffShown_ne s hg]

/-- A link that goes down ends preemption and discards what is queued, its peer being lost. -/
theorem dropsOnly_pcsDownEff {s : State} {p : PortId} (hn : s.native p = false) (hl : s.linkOn p = true) :
    ∃ v, DownShown s p v ∧ DropsOnly (v.setPort p (unqueuedPort ((s.ethDown p).port p))) (pcsDownEff p s) := by
  unfold pcsDownEff
  rw [if_neg (by simp [hn, hl])]
  dsimp only
  split
  · next hpeer =>
    exact ⟨s.ethDown p, downShown_ethDown hpeer, (dropsOnly_discardQueued_all (usable_lost hpeer)).trans (dropsOnly_refreshBackups _ _)⟩
  · exact ⟨peerLostShown (s.ethDown p) p, downShown_peerLost s p, dropsOnly_peerLost (s.ethDown p) p⟩

end Sys2Proof.Machine.Proofs
end

section
/-! PROOFS. The lane-change handshake (03_link_ports.md R80 to R82, R497). -/

namespace Sys2Proof.Machine.Proofs

open Laws

/-! What an ordered set of a port and its lane needs are made of -/

/-- The registers that the sets sent on a port and its lane needs are made of read as before. -/
structure LanesKept (p : Nat) (s t : State) : Prop where
  active : t.get (Reg.LINK_STS.ACTIVE p) = s.get (Reg.LINK_STS.ACTIVE p)
  failed : ∀ i < 4, t.get (Reg.LINK_LANE_HEALTH.FAILED p i) = s.get (Reg.LINK_LANE_HEALTH.FAILED p i)
  self : t.reg Reg.MESH_SELF.off = s.reg Reg.MESH_SELF.off

theorem lanesKept_of_regs {p : Nat} {s t : State} (h : t.regs = s.regs) : LanesKept p s t :=
  ⟨get_of_regs h _, fun _ _ => get_of_regs h _, by unfold State.reg; rw [h]⟩

theorem LanesKept.trans {p : Nat} {s t u : State} (h : LanesKept p s t) (h' : LanesKept p t u) : LanesKept p s u :=
  ⟨h'.active.trans h.active, fun i hi => (h'.failed i hi).trans (h.failed i hi), h'.self.trans h.self⟩

theorem LanesKept.osOut {p : Nat} {s t : State} (h : LanesKept p s t) (o : OrdSet) : t.osOut p o = s.osOut p o := by
  unfold State.osOut State.selfFca
  rw [h.active, h.self]

theorem LanesKept.laneNeed {p : Nat} {s t : State} (h : LanesKept p s t) (hr : (t.port p).restore = (s.port p).restore) :
    t.laneNeed p = s.laneNeed p := by
  have hfailed : t.failedLanes p = s.failedLanes p := by
    refine List.filter_congr fun i hi => ?_
    unfold State.flag
    rw [h.failed i (List.mem_range.mp hi)]
  unfold State.laneNeed
  rw [hfailed, h.active, hr]

/-- The registers of the lanes and MESH_SELF are others than LINK_STS and LINK_OS_BAD. -/
theorem laneHealth_ne (p : PortId) (i : Nat) (hi : i < 4) :
    Reg.LINK_LANE_HEALTH.off p i ≠ Reg.LINK_STS.off p ∧ Reg.LINK_LANE_HEALTH.off p i ≠ Reg.LINK_OS_BAD.off p := by
  unfold Reg.LINK_LANE_HEALTH.off Reg.LINK_STS.off Reg.LINK_OS_BAD.off
  omega

/-- A set heard on a port: its bad copies are counted and its peer is alive. -/
def heardLive (s : State) (p : Nat) (copies : List (List Byte)) : State := (osCounted s p copies).markLive p

@[simp] theorem heardLive_port (s : State) (p : Nat) (copies : List (List Byte)) (q : Nat) : (heardLive s p copies).port q = s.port q := by
  simp [heardLive]

theorem heardLive_ports (s : State) (p : Nat) (copies : List (List Byte)) : (heardLive s p copies).ports = s.ports :=
  (markLive_ports _ p).trans (osCounted_ports s p copies)

@[simp] theorem heardLive_out (s : State) (p : Nat) (copies : List (List Byte)) : (heardLive s p copies).out = s.out := by
  simp [heardLive]

theorem get_heardLive_active (s : State) (p : Nat) (copies : List (List Byte)) :
    (heardLive s p copies).get (Reg.LINK_STS.ACTIVE p) = s.get (Reg.LINK_STS.ACTIVE p) :=
  (get_markLive_active _ p p).trans (get_osCounted_ne s copies (linkSts_ne_osBad p p))

theorem lanesKept_heardLive (s : State) (p : PortId) (copies : List (List Byte)) : LanesKept p s (heardLive s p copies) where
  active := get_heardLive_active s p copies
  failed i hi := by
    obtain ⟨hsts, hbad⟩ := laneHealth_ne p i hi
    exact (get_markLive_ne _ hsts).trans (get_osCounted_ne s copies hbad)
  self := by
    refine (reg_markLive_ne _ ?_).trans (reg_osCounted_ne s copies ?_)
    · unfold Reg.MESH_SELF.off Reg.LINK_STS.off
      omega
    · unfold Reg.MESH_SELF.off Reg.LINK_OS_BAD.off
      omega

/-- The frame of the rows that answer a set of the handshake. -/
theorem frame_withOs {s : State} {p : Nat} {copies : List (List Byte)} {act : State → Nat → OrdSet → State}
    (hports : ∀ u fca o, PortsBut [p] u (act u fca o))
    (hregs : ∀ u fca o, (act u fca o).regs = u.regs ∨ (act u fca o).regs = (u.markLive p).regs) :
    PortsBut [p] s (s.withOs p copies act) ∧ FieldsBut (osFieldList p) s (s.withOs p copies act) := by
  refine ⟨portsBut_withOs fun u fca o hu => portsBut_trans hu (hports u fca o), fieldsBut_withOs (by simp) fun u fca o hu => ?_⟩
  rcases hregs u fca o with e | e
  · exact fieldsBut_of_regs hu e
  · exact fieldsBut_of_regs (fieldsBut_osMarkLive hu) e

/-! LANE_REQ_RECEIVE -/

section
variable {s : State} {p : Nat} {mask reason : Nat} (id e : Nat)

theorem answerLaneReq_busy (mask reason : Nat) (h : (s.port p).change ≠ none) :
    s.answerLaneReq p id mask reason e = s.sendOs p (.laneNak id 3) := by
  simp [State.answerLaneReq, Option.isSome_iff_ne_none.mpr h]

theorem answerLaneReq_disallowed (h : (s.port p).change = none) (hm : maskAllowed mask reason = false) :
    s.answerLaneReq p id mask reason e = s.sendOs p (.laneNak id 1) := by
  simp [State.answerLaneReq, h, hm]

theorem answerLaneReq_untrained (h : (s.port p).change = none) (hm : maskAllowed mask reason = true)
    (hu : ∃ i : Fin 4, bitAt mask i = true ∧ bitAt (s.port p).trained i = false) :
    s.answerLaneReq p id mask reason e = s.sendOs p (.laneNak id 2) := by
  obtain ⟨i, hi, htr⟩ := hu
  have hany : (setBitsOf mask 4).any (fun i => !bitAt (s.port p).trained i) = true :=
    List.any_eq_true.mpr ⟨i, by simp [setBitsOf, hi], by simp [htr]⟩
  simp [State.answerLaneReq, h, hm, hany]

theorem answerLaneReq_agreed (h : (s.port p).change = none) (hm : maskAllowed mask reason = true)
    (ht : ∀ i : Fin 4, bitAt mask i = true → bitAt (s.port p).trained i = true) :
    s.answerLaneReq p id mask reason e
      = (s.setPort p { s.port p with change := some { id := id, mask := mask, reason := reason, effective := e } }).sendOs p
          (.laneAck id mask e) := by
  have hany : (setBitsOf mask 4).any (fun i => !bitAt (s.port p).trained i) = false := by
    refine List.any_eq_false.mpr fun i hi => ?_
    simp only [setBitsOf, List.mem_filter, List.mem_range] at hi
    simp [ht ⟨i, hi.1⟩ hi.2]
  simp [State.answerLaneReq, h, hm, hany]

end

theorem answerLaneReq_cases {P : State → Prop} {s : State} {p : Nat} (id mask reason e : Nat) (hnak : ∀ code, P (s.sendOs p (.laneNak id code)))
    (hack : P ((s.setPort p { s.port p with change := some { id := id, mask := mask, reason := reason, effective := e } }).sendOs p
      (.laneAck id mask e))) : P (s.answerLaneReq p id mask reason e) := by
  unfold State.answerLaneReq
  dsimp only
  split
  · exact hnak 3
  · split
    · exact hnak 1
    · split
      · exact hnak 2
      · exact hack

theorem answerLaneReq_regs (s : State) (p id mask reason e : Nat) : (s.answerLaneReq p id mask reason e).regs = s.regs :=
  (answerLaneReq_same s p id mask reason e).regs rfl

theorem answerLaneReq_port (s : State) (p id mask reason e : Nat) :
    (s.answerLaneReq p id mask reason e).port p = { s.port p with change := ((s.answerLaneReq p id mask reason e).port p).change } :=
  answerLaneReq_cases (P := fun t => t.port p = { s.port p with change := (t.port p).change }) id mask reason e (fun _ => rfl)
    (by
      have hport (x : Port) (o : OrdSet) : ((s.setPort p x).sendOs p o).port p = x := port_setPort_self s p x
      rw [hport])

theorem answerLaneReq_req (s : State) (p id mask reason e : Nat) : ((s.answerLaneReq p id mask reason e).port p).req = (s.port p).req :=
  (congrArg Port.req (answerLaneReq_port s p id mask reason e) :)

theorem answerLaneReq_restore (s : State) (p id mask reason e : Nat) :
    ((s.answerLaneReq p id mask reason e).port p).restore = (s.port p).restore :=
  (congrArg Port.restore (answerLaneReq_port s p id mask reason e) :)

theorem portsBut_answerLaneReq (s : State) (p id mask reason e : Nat) : PortsBut [p] s (s.answerLaneReq p id mask reason e) :=
  answerLaneReq_cases (P := PortsBut [p] s) id mask reason e (fun _ => portsBut_of_ports (portsBut_refl _ s) rfl)
    (portsBut_of_ports (portsBut_setPort p _ (portsBut_refl _ s) (by simp)) rfl)

theorem askLanes_cases {P : State → Prop} {s : State} {p : Nat} (hquiet : P s) (hask : ∀ m r, s.laneNeed p = some (m, r) → P (s.laneRequest p m r)) :
    P (s.askLanes p) := by
  unfold State.askLanes
  split
  · exact hquiet
  · split
    · next m r h => exact hask m r h
    · exact hquiet

theorem askLanes_regs (s : State) (p : Nat) : (s.askLanes p).regs = s.regs := (askLanes_same s p).regs rfl

theorem portsBut_askLanes (s : State) (p : Nat) : PortsBut [p] s (s.askLanes p) :=
  askLanes_cases (portsBut_refl _ s) fun _ _ _ => portsBut_of_ports (portsBut_setPort p _ (portsBut_refl _ s) (by simp)) rfl

theorem askLanes_needless {s : State} {p : Nat} (h : s.laneNeed p = none) : s.askLanes p = s :=
  askLanes_cases (P := (· = s)) rfl fun m r hn => by simp [h] at hn

/-- What a request heard does once its set is known good. -/
def laneReqAnswer (p fca id mask reason e : Nat) (s : State) : State :=
  match (s.port p).req with
  | some r =>
    if r.reason < reason ∨ (r.reason = reason ∧ fca < s.selfFca) then
      ((s.setPort p { s.port p with req := none }).answerLaneReq p id mask reason e).askLanes p
    else s
  | none => s.answerLaneReq p id mask reason e

theorem laneReqAnswer_cases {P : State → Prop} {s : State} {p : Nat} (fca id mask reason e : Nat) (hkeep : P s)
    (hyield : P (((s.setPort p { s.port p with req := none }).answerLaneReq p id mask reason e).askLanes p))
    (hfree : P (s.answerLaneReq p id mask reason e)) : P (laneReqAnswer p fca id mask reason e s) := by
  unfold laneReqAnswer
  split
  · split
    · exact hyield
    · exact hkeep
  · exact hfree

theorem portsBut_laneReqAnswer (p fca id mask reason e : Nat) (s : State) : PortsBut [p] s (laneReqAnswer p fca id mask reason e s) :=
  laneReqAnswer_cases fca id mask reason e (portsBut_refl _ s)
    (portsBut_trans (portsBut_trans (portsBut_setPort p _ (portsBut_refl _ s) (by simp)) (portsBut_answerLaneReq _ p id mask reason e))
      (portsBut_askLanes _ p))
    (portsBut_answerLaneReq s p id mask reason e)

theorem laneReqAnswer_regs (p fca id mask reason e : Nat) (s : State) : (laneReqAnswer p fca id mask reason e s).regs = s.regs :=
  laneReqAnswer_cases (P := fun t => t.regs = s.regs) fca id mask reason e rfl
    ((askLanes_regs _ p).trans (answerLaneReq_regs _ p id mask reason e)) (answerLaneReq_regs s p id mask reason e)

theorem laneReqReceiveEff_eq (p : Nat) (copies : List (List Byte)) (s : State) :
    laneReqReceiveEff p copies s = s.withOs p copies (fun s fca o => match o with
      | .laneReq id mask reason e => laneReqAnswer p fca id mask reason e (s.markLive p)
      | _ => s) := rfl

theorem laneReqReceiveEff_heard {s : State} {p fca id mask reason e : Nat} {copies : List (List Byte)}
    (h : heard s p copies = some (fca, .laneReq id mask reason e)) :
    laneReqReceiveEff p copies s = laneReqAnswer p fca id mask reason e (heardLive s p copies) := withOs_heard h

theorem frame_laneReqReceiveEff (s : State) (p : Nat) (copies : List (List Byte)) :
    PortsBut [p] s (laneReqReceiveEff p copies s) ∧ FieldsBut (osFieldList p) s (laneReqReceiveEff p copies s) := by
  rw [laneReqReceiveEff_eq]
  refine frame_withOs (fun u fca o => ?_) (fun u fca o => ?_)
  · cases o with
    | laneReq id mask reason e =>
      exact portsBut_trans (portsBut_of_ports (portsBut_refl _ u) (markLive_ports u p)) (portsBut_laneReqAnswer p fca id mask reason e _)
    | _ => exact portsBut_refl _ u
  · cases o with
    | laneReq id mask reason e => exact .inr (laneReqAnswer_regs p fca id mask reason e _)
    | _ => exact .inl rfl

theorem laneReqAnswer_free {p fca id mask reason e : Nat} {s : State} (h : (s.port p).req = none) :
    laneReqAnswer p fca id mask reason e s = s.answerLaneReq p id mask reason e := by simp [laneReqAnswer, h]

/-- A request of a lower priority gives way, and nothing stays asked for where no lane change is needed. -/
theorem laneReqAnswer_yields {p fca id mask reason e : Nat} {s : State} {r : LaneReq} (h : (s.port p).req = some r) (hr : r.reason < reason)
    (hn : s.laneNeed p = none) : ((laneReqAnswer p fca id mask reason e s).port p).req = none := by
  have hregs := answerLaneReq_regs (s.setPort p { s.port p with req := none }) p id mask reason e
  have hneed : ((s.setPort p { s.port p with req := none }).answerLaneReq p id mask reason e).laneNeed p = none :=
    ((lanesKept_of_regs (s := s) hregs).laneNeed (by rw [answerLaneReq_restore, port_setPort_self])).trans hn
  have hyield : laneReqAnswer p fca id mask reason e s
      = ((s.setPort p { s.port p with req := none }).answerLaneReq p id mask reason e).askLanes p := by simp [laneReqAnswer, h, hr]
  rw [hyield, askLanes_needless hneed, answerLaneReq_req, port_setPort_self]

theorem laneReqAnswer_wins {p fca id mask reason e : Nat} {s : State} {r : LaneReq} (h : (s.port p).req = some r) (hr : reason < r.reason) :
    laneReqAnswer p fca id mask reason e s = s := by
  have hno : ¬ (r.reason < reason ∨ (r.reason = reason ∧ fca < s.selfFca)) := by omega
  simp [laneReqAnswer, h, hno]

/-- What is sent in answer to a set heard. -/
theorem sendOs_heardLive_out (s : State) (p : PortId) (copies : List (List Byte)) (o : OrdSet) :
    ((heardLive s p copies).sendOs p o).out = s.out ++ [s.osOut p o] := by
  have hout : ((heardLive s p copies).sendOs p o).out = (heardLive s p copies).out ++ [(heardLive s p copies).osOut p o] := rfl
  rw [hout, heardLive_out, (lanesKept_heardLive s p copies).osOut]

theorem completes_laneReqReceive (s : State) (p : PortId) (copies : List (List Byte)) :
    Completes (.laneReqReceive p copies) s fun t =>
      (s.native p = false ∨ s.linkOn p = false → t = s)
      ∧ (∀ fca id mask reason e, heard s p copies = some (fca, .laneReq id mask reason e) →
          ((s.port p).req = none → (s.port p).change ≠ none → t.out = s.out ++ [s.osOut p (.laneNak id 3)])
          ∧ ((s.port p).req = none → (s.port p).change = none → maskAllowed mask reason = false → t.out = s.out ++ [s.osOut p (.laneNak id 1)])
          ∧ ((s.port p).req = none → (s.port p).change = none → maskAllowed mask reason = true →
              (∃ i : Fin 4, bitAt mask i = true ∧ bitAt (s.port p).trained i = false) → t.out = s.out ++ [s.osOut p (.laneNak id 2)])
          ∧ ((s.port p).req = none → (s.port p).change = none → maskAllowed mask reason = true →
              (∀ i : Fin 4, bitAt mask i = true → bitAt (s.port p).trained i = true) → t.out = s.out ++ [s.osOut p (.laneAck id mask e)]
              ∧ t.port p = { s.port p with change := some { id := id, mask := mask, reason := reason, effective := e } })
          ∧ (∀ r, (s.port p).req = some r → reason < r.reason → t.out = s.out ∧ t.ports = s.ports)
          ∧ (∀ r, (s.port p).req = some r → r.reason < reason → s.laneNeed p = none → (t.port p).req = none))
      ∧ PortsBut [p.val] s t ∧ FieldsBut [Reg.LINK_OS_BAD.COUNT p, Reg.LINK_STS.PEER p] s t
      ∧ t = { s with regs := t.regs, ports := t.ports, out := t.out } := by
  obtain ⟨hports, hfields⟩ := frame_laneReqReceiveEff s p copies
  refine ⟨laneReqReceiveEff p copies s, rfl, fun h => withOs_deaf h, fun fca id mask reason e h => ?_, hports, hfields,
    eq_patch_of_same (laneReqReceiveEff_same p copies s)⟩
  have hport := heardLive_port s p copies p
  rw [laneReqReceiveEff_heard h]
  refine ⟨fun hr hc => ?_, fun hr hc hm => ?_, fun hr hc hm hu => ?_, fun hr hc hm ht => ?_, fun r hr hlt => ?_, fun r hr hlt hn => ?_⟩
  · rw [laneReqAnswer_free (by rw [hport, hr]), answerLaneReq_busy id e mask reason (by rwa [hport])]
    exact sendOs_heardLive_out s p copies _
  · rw [laneReqAnswer_free (by rw [hport, hr]), answerLaneReq_disallowed id e (by rwa [hport]) hm]
    exact sendOs_heardLive_out s p copies _
  · rw [laneReqAnswer_free (by rw [hport, hr]), answerLaneReq_untrained id e (by rwa [hport]) hm (by rwa [hport])]
    exact sendOs_heardLive_out s p copies _
  · rw [laneReqAnswer_free (by rw [hport, hr]), answerLaneReq_agreed id e (by rwa [hport]) hm (by rwa [hport])]
    refine ⟨sendOs_heardLive_out s p copies _, (port_setPort_self ..).trans ?_⟩
    rw [hport]
  · rw [laneReqAnswer_wins (by rw [hport, hr]) hlt]
    exact ⟨heardLive_out s p copies, heardLive_ports s p copies⟩
  · exact laneReqAnswer_yields (by rw [hport, hr]) hlt (((lanesKept_heardLive s p copies).laneNeed (by rw [hport])).trans hn)

/-! LANE_ACK_RECEIVE -/

/-- What an acknowledgement does at its port. -/
def laneAgreed (p id mask e : Nat) (s : State) : State :=
  match (s.port p).req with
  | some r =>
    if r.id = id ∧ r.mask = mask ∧ r.effective = e then
      s.setPort p { s.port p with req := none, change := some { id := id, mask := mask, reason := r.reason, effective := e } }
    else s
  | none => s

theorem laneAgreed_cases {P : State → Prop} {s : State} {p : Nat} (id mask e : Nat) (hkeep : P s) (hset : ∀ x, P (s.setPort p x)) :
    P (laneAgreed p id mask e s) := by
  unfold laneAgreed
  split
  · split
    · exact hset _
    · exact hkeep
  · exact hkeep

theorem laneAckReceiveEff_eq (p : Nat) (copies : List (List Byte)) (s : State) :
    laneAckReceiveEff p copies s = s.withOs p copies (fun s _ o => match o with
      | .laneAck id mask e => laneAgreed p id mask e (s.markLive p)
      | _ => s) := rfl

theorem laneAckReceiveEff_heard {s : State} {p fca id mask e : Nat} {copies : List (List Byte)}
    (h : heard s p copies = some (fca, .laneAck id mask e)) :
    laneAckReceiveEff p copies s = laneAgreed p id mask e (heardLive s p copies) := withOs_heard h

theorem frame_laneAckReceiveEff (s : State) (p : Nat) (copies : List (List Byte)) :
    PortsBut [p] s (laneAckReceiveEff p copies s) ∧ FieldsBut (osFieldList p) s (laneAckReceiveEff p copies s) := by
  rw [laneAckReceiveEff_eq]
  refine frame_withOs (fun u fca o => ?_) (fun u fca o => ?_)
  · cases o with
    | laneAck id mask e =>
      have hlive := portsBut_of_ports (portsBut_refl [p] u) (markLive_ports u p)
      exact laneAgreed_cases id mask e hlive fun x => portsBut_setPort p x hlive (by simp)
    | _ => exact portsBut_refl _ u
  · cases o with
    | laneAck id mask e => exact .inr (laneAgreed_cases (P := fun t => t.regs = (u.markLive p).regs) id mask e rfl fun _ => rfl)
    | _ => exact .inl rfl

theorem completes_laneAckReceive (s : State) (p : PortId) (copies : List (List Byte)) :
    Completes (.laneAckReceive p copies) s fun t =>
      (s.native p = false ∨ s.linkOn p = false → t = s)
      ∧ (∀ fca id mask e, heard s p copies = some (fca, .laneAck id mask e) →
          (∀ r, (s.port p).req = some r → r.id = id → r.mask = mask → r.effective = e →
            t.port p = { s.port p with req := none, change := some { id := id, mask := mask, reason := r.reason, effective := e } })
          ∧ (∀ r, (s.port p).req = some r → r.id ≠ id ∨ r.mask ≠ mask ∨ r.effective ≠ e → t.ports = s.ports)
          ∧ ((s.port p).req = none → t.ports = s.ports))
      ∧ PortsBut [p.val] s t ∧ FieldsBut [Reg.LINK_OS_BAD.COUNT p, Reg.LINK_STS.PEER p] s t
      ∧ t = { s with regs := t.regs, ports := t.ports } := by
  obtain ⟨hports, hfields⟩ := frame_laneAckReceiveEff s p copies
  refine ⟨laneAckReceiveEff p copies s, rfl, fun h => withOs_deaf h, fun fca id mask e h => ?_, hports, hfields,
    eq_patch_of_same (laneAckReceiveEff_same p copies s)⟩
  rw [laneAckReceiveEff_heard h]
  refine ⟨fun r hr hid hm he => ?_, fun r hr hne => ?_, fun hr => ?_⟩
  · simp [laneAgreed, hr, hid, hm, he]
  · have hno : ¬ (r.id = id ∧ r.mask = mask ∧ r.effective = e) := by tauto
    simp [laneAgreed, hr, hno, heardLive_ports]
  · simp [laneAgreed, hr, heardLive_ports]

/-! LANE_NAK_RECEIVE -/

/-- What a refusal does at its port. -/
def laneRefused (p id code : Nat) (s : State) : State :=
  match (s.port p).req with
  | some r => if r.id = id then s.setPort p { s.port p with req := some { r with nak := code } } else s
  | none => s

theorem laneRefused_cases {P : State → Prop} {s : State} {p : Nat} (id code : Nat) (hkeep : P s) (hset : ∀ x, P (s.setPort p x)) :
    P (laneRefused p id code s) := by
  unfold laneRefused
  split
  · split
    · exact hset _
    · exact hkeep
  · exact hkeep

theorem laneNakReceiveEff_eq (p : Nat) (copies : List (List Byte)) (s : State) :
    laneNakReceiveEff p copies s = s.withOs p copies (fun s _ o => match o with
      | .laneNak id code => laneRefused p id code (s.markLive p)
      | _ => s) := rfl

theorem laneNakReceiveEff_heard {s : State} {p fca id code : Nat} {copies : List (List Byte)}
    (h : heard s p copies = some (fca, .laneNak id code)) :
    laneNakReceiveEff p copies s = laneRefused p id code (heardLive s p copies) := withOs_heard h

theorem frame_laneNakReceiveEff (s : State) (p : Nat) (copies : List (List Byte)) :
    PortsBut [p] s (laneNakReceiveEff p copies s) ∧ FieldsBut (osFieldList p) s (laneNakReceiveEff p copies s) := by
  rw [laneNakReceiveEff_eq]
  refine frame_withOs (fun u fca o => ?_) (fun u fca o => ?_)
  · cases o with
    | laneNak id code =>
      have hlive := portsBut_of_ports (portsBut_refl [p] u) (markLive_ports u p)
      exact laneRefused_cases id code hlive fun x => portsBut_setPort p x hlive (by simp)
    | _ => exact portsBut_refl _ u
  · cases o with
    | laneNak id code => exact .inr (laneRefused_cases (P := fun t => t.regs = (u.markLive p).regs) id code rfl fun _ => rfl)
    | _ => exact .inl rfl

theorem completes_laneNakReceive (s : State) (p : PortId) (copies : List (List Byte)) :
    Completes (.laneNakReceive p copies) s fun t =>
      (s.native p = false ∨ s.linkOn p = false → t = s)
      ∧ (∀ fca id code, heard s p copies = some (fca, .laneNak id code) →
          (∀ r, (s.port p).req = some r → r.id = id → t.port p = { s.port p with req := some { r with nak := code } })
          ∧ (∀ r, (s.port p).req = some r → r.id ≠ id → t.ports = s.ports) ∧ ((s.port p).req = none → t.ports = s.ports))
      ∧ t.get (Reg.LINK_STS.ACTIVE p) = s.get (Reg.LINK_STS.ACTIVE p)
      ∧ PortsBut [p.val] s t ∧ FieldsBut [Reg.LINK_OS_BAD.COUNT p, Reg.LINK_STS.PEER p] s t
      ∧ t = { s with regs := t.regs, ports := t.ports } := by
  obtain ⟨hports, hfields⟩ := frame_laneNakReceiveEff s p copies
  refine ⟨laneNakReceiveEff p copies s, rfl, fun h => withOs_deaf h, fun fca id code h => ?_, ?_, hports, hfields,
    eq_patch_of_same (laneNakReceiveEff_same p copies s)⟩
  · rw [laneNakReceiveEff_heard h]
    refine ⟨fun r hr hid => ?_, fun r hr hne => ?_, fun hr => ?_⟩
    · simp [laneRefused, hr, hid]
    · simp [laneRefused, hr, hne, heardLive_ports]
    · simp [laneRefused, hr, heardLive_ports]
  · refine hfields _ (fieldOk_of_ble rfl) fun g hg => ?_
    rcases List.mem_pair.mp hg with rfl | rfl
    · exact .inl (linkSts_ne_osBad p p)
    · exact .inr (.inl (Nat.le_of_ble_eq_true rfl))

/-! LANE_REQ_TIMEOUT -/

theorem laneRequest_port (s : State) (p mask reason retries : Nat) :
    (s.laneRequest p mask reason retries).port p = { s.port p with
      req := some { id := (s.port p).nextId, mask := mask, reason := reason,
                    effective := (s.time.ftNs.toNat / 25 + (if reason = 3 then 8 else 64)) % 2 ^ 32, retries := retries }
      nextId := ((s.port p).nextId + 1) % 256 } := port_setPort_self s p _

theorem laneRequest_req (s : State) (p mask reason retries : Nat) :
    ((s.laneRequest p mask reason retries).port p).req
      = some { id := (s.port p).nextId, mask := mask, reason := reason,
               effective := (s.time.ftNs.toNat / 25 + (if reason = 3 then 8 else 64)) % 2 ^ 32, retries := retries } := by
  rw [laneRequest_port]

theorem laneRequest_change (s : State) (p mask reason retries : Nat) :
    ((s.laneRequest p mask reason retries).port p).change = (s.port p).change := by
  rw [laneRequest_port]

section
variable {s : State} {p : Nat} {r : LaneReq} (h : (s.port p).req = some r)
include h

theorem laneReqTimeoutEff_again (h3 : r.retries < 3) (h2 : r.reason < 2) :
    laneReqTimeoutEff p s = s.laneRequest p r.mask r.reason (r.retries + 1) := by
  simp [laneReqTimeoutEff, h, h3, h2]

theorem laneReqTimeoutEff_anew (h3 : r.retries < 3) (h2 : 2 ≤ r.reason) :
    laneReqTimeoutEff p s
      = s.laneRequest p ((s.laneNeed p).getD (r.mask, r.reason)).1 ((s.laneNeed p).getD (r.mask, r.reason)).2 (r.retries + 1) := by
  have hno : ¬ r.reason < 2 := by omega
  simp [laneReqTimeoutEff, h, h3, hno]

theorem laneReqTimeoutEff_over (h3 : 3 ≤ r.retries) (hr : r.reason ≠ 3) :
    laneReqTimeoutEff p s = (s.setPort p { s.port p with req := none, restore := if r.reason = 2 then [] else (s.port p).restore }).askLanes p := by
  have hno : ¬ r.retries < 3 := by omega
  simp [laneReqTimeoutEff, h, hno, hr]

theorem laneReqTimeoutEff_retrains (h3 : 3 ≤ r.retries) (hr : r.reason = 3) :
    laneReqTimeoutEff p s = (s.toTraining p).setPort p { (s.toTraining p).port p with
      preMask := some (s.get (Reg.LINK_STS.ACTIVE p)), trained := (s.port p).trained } := by
  have hno : ¬ r.retries < 3 := by omega
  simp [laneReqTimeoutEff, h, hno, hr]

end

theorem completes_laneReqTimeout (s : State) (p : PortId) :
    Completes (.laneReqTimeout p) s fun t =>
      ∃ u : State, t = u.pathsChanged ∧ ((s.port p).req = none → u = s)
      ∧ (∀ r, (s.port p).req = some r → r.retries < 3 → r.reason < 2 → u = s.laneRequest p r.mask r.reason (r.retries + 1)
          ∧ (u.port p).req.map LaneReq.retries = some (r.retries + 1) ∧ (u.port p).req.map LaneReq.mask = some r.mask)
      ∧ (∀ r, (s.port p).req = some r → r.retries < 3 → 2 ≤ r.reason →
          u = s.laneRequest p ((s.laneNeed p).getD (r.mask, r.reason)).1 ((s.laneNeed p).getD (r.mask, r.reason)).2 (r.retries + 1))
      ∧ (∀ r, (s.port p).req = some r → 3 ≤ r.retries → r.reason ≠ 3 →
          u = (s.setPort p { s.port p with req := none, restore := if r.reason = 2 then [] else (s.port p).restore }).askLanes p)
      ∧ (∀ r, (s.port p).req = some r → 3 ≤ r.retries → r.reason = 3 → (u.port p).preMask = some (s.get (Reg.LINK_STS.ACTIVE p))
          ∧ (u.port p).req = none ∧ (u.port p).trained = (s.port p).trained)
      ∧ TrafficOnly s t := by
  refine ⟨_, rfl, laneReqTimeoutEff p s, rfl, fun h => ?_, fun r hr h3 h2 => ?_, fun r hr h3 h2 => laneReqTimeoutEff_anew hr h3 h2,
    fun r hr h3 hne => laneReqTimeoutEff_over hr h3 hne, fun r hr h3 he => ?_,
    trafficOnly_of_same (((laneReqTimeoutEff_same p s).mono (by decide)).trans (pathsChanged_same _)) (by decide)⟩
  · simp [laneReqTimeoutEff, h]
  · have hreq := laneRequest_req s p r.mask r.reason (r.retries + 1)
    rw [laneReqTimeoutEff_again hr h3 h2]
    simp only [hreq, Option.map_some, and_self]
  · rw [laneReqTimeoutEff_retrains hr h3 he, port_setPort_self]
    dsimp only
    exact ⟨rfl, toTraining_req s p, rfl⟩

/-! LANE_MASK_SWITCH -/

/-- A bit of a field is the field of that bit. -/
theorem bitAt_get (s : State) (o i : Nat) (hi : i < 32) : bitAt (s.get ⟨o, 0, 32⟩) i = (s.get ⟨o, i, 1⟩ == 1) := by
  have hbit : (s.get ⟨o, 0, 32⟩).testBit i = (s.get ⟨o, i, 1⟩).testBit 0 := by
    simp only [State.get, wordField_testBit, hi, Nat.zero_add, Nat.add_zero, decide_true, Nat.zero_lt_one]
  have hlt : s.get ⟨o, i, 1⟩ < 2 := get_lt s _
  have hone : (s.get ⟨o, i, 1⟩).testBit 0 = (s.get ⟨o, i, 1⟩ == 1) := by
    obtain h | h : s.get ⟨o, i, 1⟩ = 0 ∨ s.get ⟨o, i, 1⟩ = 1 := by omega
    all_goals simp [h]
  rw [← hone, ← hbit, Nat.testBit_eq_decide_div_mod_eq]
  exact beq_eq_decide _ _

theorem bitAt_put_bit (s : State) (o : Nat) {i : Nat} (hi : i < 32) (b : Bool) :
    bitAt ((s.put ⟨o, 0 + i, 1⟩ (b2n b)).get ⟨o, 0, 32⟩) i = b := by
  rw [bitAt_get _ o i hi, Nat.zero_add, get_put_self s ⟨o, i, 1⟩ _ (show i + 1 ≤ 32 by omega)]
  cases b <;> rfl

theorem lowered_setLowered (s : State) (p : PortId) (b : Bool) : (s.setLowered p b).lowered p = b := by
  unfold State.setLowered State.lowered
  by_cases h : p.val < 32
  · rw [if_pos h, if_pos h]
    exact bitAt_put_bit s _ h b
  · rw [if_neg h, if_neg h]
    exact bitAt_put_bit s _ (by omega) b

theorem setLowered_ports (s : State) (p : Nat) (b : Bool) : (s.setLowered p b).ports = s.ports := (setLowered_same s p b).ports rfl

/-- The registers of the ports and of the mesh are not those of the lowered ports. -/
theorem get_setLowered_ne (s : State) (p : Nat) (b : Bool) {g : Fld} (hg : 0x200000 ≤ g.off) : (s.setLowered p b).get g = s.get g := by
  unfold State.setLowered
  split
  · refine get_put_ne _ _ _ _ ?_
    unfold Reg.TALLY_LOWERED_LO.PORTS_LO Reg.TALLY_LOWERED_LO.off Fld.bit
    dsimp only
    omega
  · refine get_put_ne _ _ _ _ ?_
    unfold Reg.TALLY_LOWERED_HI.PORTS_HI Reg.TALLY_LOWERED_HI.off Fld.bit
    dsimp only
    omega

theorem linkSts_high (p : Nat) : 0x200000 ≤ Reg.LINK_STS.off p := by
  unfold Reg.LINK_STS.off
  omega

/-- The mask of a change takes effect, before flows move. -/
def maskSwitched (p : Nat) (c : LaneChange) (s : State) : State :=
  ((s.setPort p { s.port p with change := some { c with switched := true } }).put (Reg.LINK_STS.ACTIVE p) c.mask).setPort p
    { s.port p with change := some { c with switched := true }, restore := (s.port p).restore.filter (fun i => !bitAt c.mask i) }

/-- A change for power shows the port lowered, or no longer. -/
def maskShown (p : Nat) (c : LaneChange) (s : State) : State :=
  if c.reason = 0 then s.setLowered p true else if c.reason = 1 ∧ c.mask = 15 then s.setLowered p false else s

theorem laneSwitchEff_switches {s : State} {p : Nat} {c : LaneChange} (h : (s.port p).change = some c) (hs : c.switched = false) :
    laneSwitchEff p s = (maskShown p c (maskSwitched p c s)).refreshBackups := by
  simp [laneSwitchEff, h, hs, maskSwitched, maskShown]

theorem maskShown_cases {P : State → Prop} {s : State} {p : Nat} (c : LaneChange) (hset : ∀ b, P (s.setLowered p b)) (hkeep : P s) :
    P (maskShown p c s) := by
  unfold maskShown
  split
  · exact hset true
  · split
    · exact hset false
    · exact hkeep

theorem maskShown_ports (p : Nat) (c : LaneChange) (s : State) : (maskShown p c s).ports = s.ports :=
  maskShown_cases (P := fun t => t.ports = s.ports) c (setLowered_ports s p) rfl

theorem get_maskShown_active (p : Nat) (c : LaneChange) (s : State) :
    (maskShown p c s).get (Reg.LINK_STS.ACTIVE p) = s.get (Reg.LINK_STS.ACTIVE p) :=
  maskShown_cases (P := fun t => t.get (Reg.LINK_STS.ACTIVE p) = _) c (fun b => get_setLowered_ne s p b (linkSts_high p)) rfl

theorem maskShown_same (p : Nat) (c : LaneChange) (s : State) : Same 2 s (maskShown p c s) :=
  maskShown_cases (P := Same 2 s) c (setLowered_same s p) (Same.refl _ _)

theorem maskSwitched_same (p : Nat) (c : LaneChange) (s : State) : Same 130 s (maskSwitched p c s) :=
  (((setPort_same ..).mono (by decide)).seq (put_same ..) (by decide)).seq (setPort_same ..) (by decide)

theorem maskSwitched_port (p : Nat) (c : LaneChange) (s : State) :
    (maskSwitched p c s).port p = { s.port p with
      change := some { c with switched := true }, restore := (s.port p).restore.filter (fun i => !bitAt c.mask i) } := port_setPort_self ..

theorem get_maskSwitched_active (p : Nat) (c : LaneChange) (s : State) :
    (maskSwitched p c s).get (Reg.LINK_STS.ACTIVE p) = c.mask % 16 := by
  unfold maskSwitched
  rw [get_setPort]
  exact get_put_self _ _ _ (fieldOk_of_ble rfl)

theorem portsBut_maskSwitched (p : Nat) (c : LaneChange) (s : State) : PortsBut [p] s (maskSwitched p c s) :=
  portsBut_setPort p _ (portsBut_of_ports (portsBut_setPort p _ (portsBut_refl _ s) (by simp)) rfl) (by simp)

theorem fieldsBut_maskSwitched (p : Nat) (c : LaneChange) (s : State) : FieldsBut [Reg.LINK_STS.ACTIVE p] s (maskSwitched p c s) :=
  fieldsBut_of_regs (fieldsBut_put _ _ (fieldsBut_of_regs (fieldsBut_refl _ s) rfl) (fieldOk_of_ble rfl) (by simp)) rfl

theorem completes_laneMaskSwitch (s : State) (p : PortId) :
    Completes (.laneMaskSwitch p) s fun t =>
      ((s.port p).change = none → t = s.pathsChanged.settlePower)
      ∧ (∀ c, (s.port p).change = some c → c.switched = true → t = s.pathsChanged.settlePower)
      ∧ (∀ c, (s.port p).change = some c → c.switched = false → ∃ u : State, t = (State.refreshBackups u).pathsChanged.settlePower
          ∧ u.port p = { s.port p with
              change := some { c with switched := true }, restore := (s.port p).restore.filter (fun i => !bitAt c.mask i) }
          ∧ u.get (Reg.LINK_STS.ACTIVE p) = c.mask % 16 ∧ (c.reason = 0 → u.lowered p = true)
          ∧ (c.reason = 1 → c.mask = 15 → u.lowered p = false) ∧ (2 ≤ c.reason → FieldsBut [Reg.LINK_STS.ACTIVE p] s u)
          ∧ PortsBut [p.val] s u ∧ u = { s with regs := u.regs, ports := u.ports })
      ∧ TrafficOnly s t := by
  refine ⟨_, rfl, fun h => ?_, fun c h hs => ?_, fun c h hs => ?_,
    trafficOnly_of_same ((((laneSwitchEff_same p s).mono (by decide)).trans (pathsChanged_same _)).seq (settlePower_same _) (by decide))
      (by decide)⟩
  · simp [laneSwitchEff, h]
  · simp [laneSwitchEff, h, hs]
  · refine ⟨maskShown p c (maskSwitched p c s), by rw [laneSwitchEff_switches h hs], ?_, ?_, fun hr => ?_, fun hr hm => ?_, fun hr => ?_, ?_,
      eq_patch_of_same ((maskSwitched_same p c s).seq (maskShown_same p c _) (by decide))⟩
    · rw [port_of_ports (maskShown_ports ..), maskSwitched_port]
    · rw [get_maskShown_active, get_maskSwitched_active]
    · rw [maskShown, if_pos hr]
      exact lowered_setLowered _ p true
    · rw [maskShown, if_neg (by omega), if_pos ⟨hr, hm⟩]
      exact lowered_setLowered _ p false
    · rw [maskShown, if_neg (by omega), if_neg (by omega)]
      exact fieldsBut_maskSwitched p c s
    · exact portsBut_of_ports (portsBut_maskSwitched p c s) (maskShown_ports ..)

/-! LANE_DONE -/

/-- A change that both sides have completed is over, with LANE_EVT. -/
theorem laneComplete_over {s : State} {p : PortId} {c : LaneChange} (hs : c.sentDone = true) (hg : c.gotDone = true) :
    ((s.laneComplete p c).port p).change = none ∧ (s.laneComplete p c).get (Reg.LINK_STS.LANE_EVT p) = 1 := by
  have hover : s.laneComplete p c = (((s.setPort p { s.port p with change := none }).put (Reg.LINK_STS.LANE_EVT p) 1).event
      Ev.laneChanged (leBytes 1 p ++ leBytes 1 c.mask ++ leBytes 1 c.reason)).askLanes p := by simp [State.laneComplete, hs, hg]
  rw [hover]
  generalize hu : (((s.setPort p { s.port p with change := none }).put (Reg.LINK_STS.LANE_EVT p) 1).event
      Ev.laneChanged (leBytes 1 p ++ leBytes 1 c.mask ++ leBytes 1 c.reason)) = u
  have hdrop := dropsOnly_event ((s.setPort p { s.port p with change := none }).put (Reg.LINK_STS.LANE_EVT p) 1)
    Ev.laneChanged (leBytes 1 p ++ leBytes 1 c.mask ++ leBytes 1 c.reason)
  rw [hu] at hdrop
  have hchange : (u.port p).change = none := by
    rw [hdrop.port p, port_put, port_setPort_self]
  have hevt : u.get (Reg.LINK_STS.LANE_EVT p) = 1 :=
    (hdrop.get (linkSts_low p)).trans (get_put_value rfl rfl)
  refine ⟨?_, (get_of_regs (askLanes_regs u p) _).trans hevt⟩
  refine askLanes_cases (P := fun t => (t.port p).change = none) hchange fun m r _ => ?_
  rw [laneRequest_change, hchange]

theorem laneComplete_waits {s : State} {p : Nat} {c : LaneChange} (h : c.sentDone = false ∨ c.gotDone = false) :
    s.laneComplete p c = s.setPort p { s.port p with change := some c } := by
  rcases h with h | h <;> simp [State.laneComplete, h]

theorem portsBut_laneComplete (s : State) (p : Nat) (c : LaneChange) : PortsBut [p] s (s.laneComplete p c) := by
  unfold State.laneComplete
  split
  · refine portsBut_trans ?_ (portsBut_askLanes _ p)
    exact portsBut_of_ports (portsBut_setPort p _ (portsBut_refl _ s) (by simp)) ((event_same _ _ _).ports rfl)
  · exact portsBut_setPort p _ (portsBut_refl _ s) (by simp)

theorem laneDoneSendEff_sends {s : State} {p : Nat} {c : LaneChange} (h : (s.port p).change = some c) (hs : c.switched = true)
    (hd : c.sentDone = false) :
    laneDoneSendEff p s = (s.sendOs p (.laneDone c.id c.mask)).laneComplete p { c with sentDone := true } := by
  simp [laneDoneSendEff, h, hs, hd]

theorem portsBut_laneDoneSendEff (s : State) (p : Nat) : PortsBut [p] s (laneDoneSendEff p s) := by
  unfold laneDoneSendEff
  split
  · split
    · exact portsBut_trans (portsBut_of_ports (u := s.sendOs p _) (portsBut_refl _ s) rfl) (portsBut_laneComplete _ p _)
    · exact portsBut_refl _ s
  · exact portsBut_refl _ s

theorem completes_laneDoneSend (s : State) (p : PortId) :
    Completes (.laneDoneSend p) s fun t =>
      ((s.port p).change = none → t = s)
      ∧ (∀ c, (s.port p).change = some c → c.switched = false ∨ c.sentDone = true → t = s)
      ∧ (∀ c, (s.port p).change = some c → c.switched = true → c.sentDone = false → c.gotDone = false →
          t = { s with ports := t.ports, out := s.out ++ [s.osOut p (.laneDone c.id c.mask)] }
          ∧ t.port p = { s.port p with change := some { c with sentDone := true } })
      ∧ (∀ c, (s.port p).change = some c → c.switched = true → c.sentDone = false → c.gotDone = true →
          (t.port p).change = none ∧ t.get (Reg.LINK_STS.LANE_EVT p) = 1)
      ∧ PortsBut [p.val] s t := by
  refine ⟨laneDoneSendEff p s, rfl, fun h => ?_, fun c h hc => ?_, fun c h hs hd hg => ?_, fun c h hs hd hg => ?_,
    portsBut_laneDoneSendEff s p⟩
  · simp [laneDoneSendEff, h]
  · rcases hc with hc | hc <;> simp [laneDoneSendEff, h, hc]
  · rw [laneDoneSendEff_sends h hs hd, laneComplete_waits (c := { c with sentDone := true }) (.inr hg)]
    exact ⟨rfl, port_setPort_self ..⟩
  · rw [laneDoneSendEff_sends h hs hd]
    exact laneComplete_over rfl hg

/-- What the partner's LANE_DONE does at its port. -/
def laneDoneHeard (p id : Nat) (s : State) : State :=
  match (s.port p).change with
  | some c => if c.id = id then s.laneComplete p { c with gotDone := true } else s
  | none => s

theorem portsBut_laneDoneHeard (p id : Nat) (s : State) : PortsBut [p] s (laneDoneHeard p id s) := by
  unfold laneDoneHeard
  split
  · split
    · exact portsBut_laneComplete s p _
    · exact portsBut_refl _ s
  · exact portsBut_refl _ s

theorem laneDoneReceiveEff_eq (p : Nat) (copies : List (List Byte)) (s : State) :
    laneDoneReceiveEff p copies s = s.withOs p copies (fun s _ o => match o with
      | .laneDone id _ => laneDoneHeard p id (s.markLive p)
      | _ => s) := rfl

theorem laneDoneReceiveEff_heard {s : State} {p fca id mask : Nat} {copies : List (List Byte)}
    (h : heard s p copies = some (fca, .laneDone id mask)) :
    laneDoneReceiveEff p copies s = laneDoneHeard p id (heardLive s p copies) := withOs_heard h

theorem portsBut_laneDoneReceiveEff (s : State) (p : Nat) (copies : List (List Byte)) : PortsBut [p] s (laneDoneReceiveEff p copies s) := by
  rw [laneDoneReceiveEff_eq]
  refine portsBut_withOs fun u fca o hu => ?_
  cases o with
  | laneDone id mask => exact portsBut_trans (portsBut_of_ports hu (markLive_ports u p)) (portsBut_laneDoneHeard p id _)
  | _ => exact hu

theorem completes_laneDoneReceive (s : State) (p : PortId) (copies : List (List Byte)) :
    Completes (.laneDoneReceive p copies) s fun t =>
      (s.native p = false ∨ s.linkOn p = false → t = s)
      ∧ (∀ fca id mask, heard s p copies = some (fca, .laneDone id mask) →
          (∀ c, (s.port p).change = some c → c.id = id → c.sentDone = false →
            t.port p = { s.port p with change := some { c with gotDone := true } })
          ∧ (∀ c, (s.port p).change = some c → c.id = id → c.sentDone = true →
            (t.port p).change = none ∧ t.get (Reg.LINK_STS.LANE_EVT p) = 1)
          ∧ (∀ c, (s.port p).change = some c → c.id ≠ id → t.ports = s.ports) ∧ ((s.port p).change = none → t.ports = s.ports))
      ∧ PortsBut [p.val] s t ∧ t.time = s.time := by
  refine ⟨laneDoneReceiveEff p copies s, rfl, fun h => withOs_deaf h, fun fca id mask h => ?_, portsBut_laneDoneReceiveEff s p copies,
    (laneDoneReceiveEff_same p copies s).time rfl⟩
  rw [laneDoneReceiveEff_heard h]
  have hdone (c : LaneChange) (hc : (s.port p).change = some c) (hid : c.id = id) :
      laneDoneHeard p id (heardLive s p copies) = (heardLive s p copies).laneComplete p { c with gotDone := true } := by
    simp [laneDoneHeard, hc, hid]
  refine ⟨fun c hc hid hs => ?_, fun c hc hid hs => ?_, fun c hc hne => ?_, fun hc => ?_⟩
  · rw [hdone c hc hid, laneComplete_waits (c := { c with gotDone := true }) (.inl hs), port_setPort_self, heardLive_port]
  · rw [hdone c hc hid]
    exact laneComplete_over hs rfl
  · simp [laneDoneHeard, hc, hne, heardLive_ports]
  · simp [laneDoneHeard, hc, heardLive_ports]

/-- Settles O7, row by row of the handshake through the lemmas above. -/
theorem laneHandshake : Obligations.LaneHandshake := by
  unfold Obligations.LaneHandshake
  exact ⟨completes_laneReqReceive, completes_laneAckReceive, completes_laneNakReceive, completes_laneReqTimeout, completes_laneMaskSwitch,
    completes_laneDoneSend, completes_laneDoneReceive⟩

end Sys2Proof.Machine.Proofs
end

section
/-! PROOFS. Farrier windows, lane failures and spares (03_link_ports.md R74 to R78). -/

namespace Sys2Proof.Machine.Proofs

open Laws

/-! The fence of a lane -/

/-- The unit of a lane. -/
abbrev laneUnit (tile phys : Nat) : UnitId := ⟨.lane, tile, phys⟩

/-- What the fence of a lane does: its bit, the generation of the map, the report, and the move of flows. -/
def laneFenced (s : State) (tile phys : Nat) : State :=
  (((s.put (laneBit tile phys) 1).put Reg.GLB_DUM_GEN.GEN ((s.put (laneBit tile phys) 1).get Reg.GLB_DUM_GEN.GEN + 1)).reportFence 4
    (laneUnit tile phys)).refreshBackups 0

theorem fence_lane (s : State) (tile phys : Nat) :
    s.fence 4 [laneUnit tile phys] = s ∨ s.fence 4 [laneUnit tile phys] = laneFenced s tile phys := by
  have hone : [laneUnit tile phys].eraseDups = [laneUnit tile phys] := by simp [List.eraseDups_cons]
  unfold State.fence
  rw [hone]
  cases hd : s.disabled (laneUnit tile phys) with
  | true => exact .inl (by simp [hd])
  | false =>
    refine .inr ?_
    simp only [hd, fenceBit?, laneFenced, State.nextAfterFence, State.showFenced, fitRow, List.filter_cons, List.filter_nil, List.foldl_cons,
      List.foldl_nil, ite_self, Option.isSome_some, Bool.not_false, Bool.and_self, if_true, List.isEmpty_cons, Bool.false_eq_true, if_false,
      List.any_cons, List.any_nil, Bool.or_false, reduceCtorEq, List.map_cons, List.headD_cons, beq_iff_eq]
    rfl

theorem laneBit_low {tile : Nat} (phys : Nat) (h : tile < 4) : (laneBit tile phys).off < 0x10000 := by
  unfold laneBit
  split
  · simp only [Fld.bit, Reg.GLB_DUM_LANE0.LANES, Reg.GLB_DUM_LANE0.off]
    omega
  · split
    · simp only [Fld.bit, Reg.GLB_DUM_LANE1.LANES, Reg.GLB_DUM_LANE1.off]
      omega
    · simp only [Fld.bit, Reg.GLB_DUM_LANE2.LANES, Reg.GLB_DUM_LANE2.off]
      omega

theorem keepsRegs_laneFenced (s : State) {tile : Nat} (phys : Nat) (h : tile < 4) :
    KeepsRegs 0x10000 0x700000 s (laneFenced s tile phys) := by
  have hbit := (keepsRegs_refl 0x10000 0x700000 s).put (laneBit tile phys) 1 (.inl (laneBit_low phys h))
  have hgen := hbit.put Reg.GLB_DUM_GEN.GEN ((s.put (laneBit tile phys) 1).get Reg.GLB_DUM_GEN.GEN + 1) (.inl (by decide))
  refine (KeepsRegs.trans ?_ ((keepsRegs_refreshBackups _ 0).mono (by decide) (Nat.le_refl _)))
  refine KeepsRegs.put _ _ (hgen.trans ((keepsRegs_event _ _ _).mono (by decide) (Nat.le_refl _))) (.inr ?_)
  simp only [Reg.TELEM_FIT_FAIL.COUNT, Reg.TELEM_FIT_FAIL.off]
  omega

/-- The fence of a lane leaves the registers of the ports and the ports alone. -/
theorem keepsRegs_fence_lane (s : State) (p : PortId) (phys : Nat) :
    KeepsRegs 0x10000 0x700000 s (s.fence 4 [laneUnit (p / 16) phys]) := by
  rcases fence_lane s (p / 16) phys with e | e <;> rw [e]
  · exact keepsRegs_refl _ _ s
  · exact keepsRegs_laneFenced s phys (by omega)

theorem laneFenced_ports (s : State) (tile phys : Nat) : (laneFenced s tile phys).ports = s.ports := by
  unfold laneFenced
  rw [(refreshBackups_same _ 0).ports rfl]
  have hcount (u : State) (f : Fld) : (u.count f).ports = u.ports := rfl
  unfold State.reportFence
  rw [hcount, (event_same _ _ _).ports rfl]
  rfl

theorem fence_lane_ports (s : State) (tile phys : Nat) : (s.fence 4 [laneUnit tile phys]).ports = s.ports := by
  rcases fence_lane s tile phys with e | e <;> rw [e]
  exact laneFenced_ports s tile phys

/-- The fields of a port read as before the fence of one of its lanes. -/
theorem get_fence_lane (s : State) (p : PortId) (phys : Nat) {g : Fld} (hlo : 0x10000 ≤ g.off) (hhi : g.off < 0x700000) :
    (s.fence 4 [laneUnit (p / 16) phys]).get g = s.get g := (keepsRegs_fence_lane s p phys).get hlo hhi

/-! Lanes of a port -/

theorem lane_of_port {s t : State} {p : Nat} (h : (t.port p).lanes = (s.port p).lanes) (i : Nat) : t.lane p i = s.lane p i := by
  unfold State.lane
  rw [h]

theorem setLane_port (s : State) (p i : Nat) (l : Lane) :
    (s.setLane p i l).port p = { s.port p with lanes := (s.port p).lanes.putD i l {} } := port_setPort_self ..

@[simp] theorem lane_setLane_self (s : State) (p i : Nat) (l : Lane) : (s.setLane p i l).lane p i = l := by
  unfold State.lane
  rw [setLane_port]
  exact Sparse.getD_putD_self _ _ _ _

theorem portsBut_setLane (s : State) (p i : Nat) (l : Lane) : PortsBut [p] s (s.setLane p i l) :=
  portsBut_setPort p _ (portsBut_refl _ s) (by simp)

theorem lane_put (s : State) (f : Fld) (x p i : Nat) : (s.put f x).lane p i = s.lane p i := rfl

theorem get_setLane (s : State) (p i : Nat) (l : Lane) (g : Fld) : (s.setLane p i l).get g = s.get g := rfl

/-! FARRIER_WINDOW -/

section
variable {p i : Nat}

/-- LINK_LANE_CTL is a register of its own. -/
theorem laneCtl_ne (hi : i < 4) : Reg.LINK_LANE_CTL.off p ≠ Reg.LINK_LANE_HEALTH.off p i := by
  unfold Reg.LINK_LANE_CTL.off Reg.LINK_LANE_HEALTH.off
  omega

theorem laneHealth_range (p : PortId) (hi : i < 4) : 0x10000 ≤ Reg.LINK_LANE_HEALTH.off p i ∧ Reg.LINK_LANE_HEALTH.off p i < 0x300000 := by
  unfold Reg.LINK_LANE_HEALTH.off
  omega

end

/-- A window's estimate is shown, and the lane has had n bad windows in a row. -/
def windowShown (p i serExp n : Nat) (s : State) : State :=
  (s.put (Reg.LINK_LANE_HEALTH.SER_EXP p i) serExp).setLane p i { s.lane p i with bad := min n 3 }

/-- A lane is DEGRADED and fenced, and a spare shadows it where one remains. -/
def degraded (p i : Nat) (s : State) : State :=
  let u := (s.put (Reg.LINK_LANE_HEALTH.DEGRADED p i) 1).fence 4
    [laneUnit (p / 16) ((s.put (Reg.LINK_LANE_HEALTH.DEGRADED p i) 1).get (laneField p i))]
  match u.spareFor p with
  | some sp => (u.setLane p i { u.lane p i with shadow := some sp }).put (Reg.LINK_LANE_HEALTH.SHADOW p i) 1
  | none => u

/-- The bad windows in a row after a window. -/
def badRun (s : State) (p i serExp : Nat) : Nat := if serExp < s.get (Reg.LINK_LANE_CTL.DEG_EXP p) then (s.lane p i).bad + 1 else 0

theorem get_windowShown_degraded (s : State) (p i serExp n : Nat) :
    (windowShown p i serExp n s).get (Reg.LINK_LANE_HEALTH.DEGRADED p i) = s.get (Reg.LINK_LANE_HEALTH.DEGRADED p i) := by
  unfold windowShown
  rw [get_setLane, get_put_apart rfl]

theorem get_windowShown_estimate (s : State) (p i : Nat) (e : Fin 256) (n : Nat) :
    (windowShown p i e n s).get (Reg.LINK_LANE_HEALTH.SER_EXP p i) = e.val :=
  get_put_fits s _ _ (fieldOk_of_ble rfl) e.isLt

theorem windowShown_lane (s : State) (p i serExp n : Nat) : (windowShown p i serExp n s).lane p i = { s.lane p i with bad := min n 3 } :=
  lane_setLane_self ..

theorem fieldsBut_windowShown (s : State) (p i serExp n : Nat) :
    FieldsBut [Reg.LINK_LANE_HEALTH.SER_EXP p i] s (windowShown p i serExp n s) :=
  fieldsBut_of_regs (fieldsBut_put _ _ (fieldsBut_refl _ s) (fieldOk_of_ble rfl) (by simp)) rfl

/-- A port and lane that the Farrier watches. -/
abbrev Watched (s : State) (p i : Nat) : Prop := s.linkOn p = true ∧ (s.native p = false ∨ bitAt (s.get (Reg.LINK_STS.ACTIVE p)) i = true)

theorem farrierEff_unwatched {s : State} {p i : Nat} (serExp : Nat) (h : ¬ Watched s p i) : farrierEff p i serExp s = s := by
  unfold farrierEff
  rw [if_pos]
  by_contra hall
  simp only [Bool.or_eq_true, Bool.not_eq_true', not_or, Bool.not_eq_false] at hall
  obtain ⟨hl, ha⟩ := hall
  exact h ⟨hl, by tauto⟩

theorem farrierEff_watched {s : State} {p i : Nat} (serExp : Nat) (hi : i < 4) (h : Watched s p i) :
    farrierEff p i serExp s
      = if 3 ≤ badRun s p i serExp ∧ s.get (Reg.LINK_LANE_HEALTH.DEGRADED p i) = 0
        then degraded p i (windowShown p i serExp (badRun s p i serExp) s) else windowShown p i serExp (badRun s p i serExp) s := by
  obtain ⟨hl, ha⟩ := h
  have hgate : (!s.linkOn p || !(!s.native p || bitAt (s.get (Reg.LINK_STS.ACTIVE p)) i)) = false := by
    rcases ha with ha | ha <;> simp [hl, ha]
  have hctl : (s.put (Reg.LINK_LANE_HEALTH.SER_EXP p i) serExp).get (Reg.LINK_LANE_CTL.DEG_EXP p) = s.get (Reg.LINK_LANE_CTL.DEG_EXP p) :=
    get_put_ne s _ _ _ (laneCtl_ne hi)
  have hdeg := get_windowShown_degraded s p i serExp (badRun s p i serExp)
  have hflag : (windowShown p i serExp (badRun s p i serExp) s).flag (Reg.LINK_LANE_HEALTH.DEGRADED p i) = false
      ↔ s.get (Reg.LINK_LANE_HEALTH.DEGRADED p i) = 0 := by
    simp [State.flag, hdeg]
  unfold farrierEff
  rw [hgate, if_neg Bool.false_ne_true]
  dsimp only
  rw [hctl]
  simp only [← hflag]
  rfl

theorem degraded_stands (p : PortId) {i : Nat} (hi : i < 4) (s : State) :
    (degraded p i s).get (Reg.LINK_LANE_HEALTH.DEGRADED p i) = 1 ∧ ((degraded p i s).lane p i).bad = (s.lane p i).bad := by
  obtain ⟨hlo, hhi⟩ := laneHealth_range p hi
  unfold degraded
  extract_lets +onlyGivenNames u
  have hget : u.get (Reg.LINK_LANE_HEALTH.DEGRADED p i) = 1 :=
    (get_fence_lane _ p _ hlo (Nat.lt_of_lt_of_le hhi (by decide))).trans
      (get_put_value rfl rfl)
  have hlane : u.lane p i = s.lane p i :=
    lane_of_port (congrArg Port.lanes (port_of_ports (fence_lane_ports _ _ _) p)) i
  split
  · refine ⟨?_, ?_⟩
    · rw [get_put_apart rfl, get_setLane, hget]
    · rw [lane_put, lane_setLane_self, hlane]
  · exact ⟨hget, by rw [hlane]⟩

theorem completes_farrierWindow (s : State) (p : PortId) (l : Fin 4) (e : Fin 256) :
    Completes (.farrierWindow p l e) s fun t =>
      ∃ u : State, t = u.pathsChanged ∧ (s.linkOn p = false → u = s)
      ∧ (s.native p = true → bitAt (s.get (Reg.LINK_STS.ACTIVE p)) l = false → u = s)
      ∧ (s.linkOn p = true → s.native p = false ∨ bitAt (s.get (Reg.LINK_STS.ACTIVE p)) l = true →
          (s.get (Reg.LINK_LANE_CTL.DEG_EXP p) ≤ e.val → u.get (Reg.LINK_LANE_HEALTH.SER_EXP p l) = e.val ∧ (u.lane p l).bad = 0
            ∧ FieldsBut [Reg.LINK_LANE_HEALTH.SER_EXP p l] s u ∧ u = { s with regs := u.regs, ports := u.ports })
          ∧ (e.val < s.get (Reg.LINK_LANE_CTL.DEG_EXP p) → (s.lane p l).bad < 2 → u.get (Reg.LINK_LANE_HEALTH.SER_EXP p l) = e.val
            ∧ (u.lane p l).bad = (s.lane p l).bad + 1
            ∧ FieldsBut [Reg.LINK_LANE_HEALTH.SER_EXP p l] s u ∧ u = { s with regs := u.regs, ports := u.ports })
          ∧ (e.val < s.get (Reg.LINK_LANE_CTL.DEG_EXP p) → (s.lane p l).bad = 2 → s.get (Reg.LINK_LANE_HEALTH.DEGRADED p l) = 0 →
            u.get (Reg.LINK_LANE_HEALTH.DEGRADED p l) = 1 ∧ (u.lane p l).bad = 3))
      ∧ TrafficOnly s t := by
  refine ⟨_, rfl, farrierEff p l e s, rfl, fun h => ?_, fun hn ha => ?_, fun hl ha => ?_,
    trafficOnly_of_same (((farrierEff_same p l e s).mono (by decide)).trans (pathsChanged_same _)) (by decide)⟩
  · exact farrierEff_unwatched e (by simp [h])
  · exact farrierEff_unwatched e (by simp [hn, ha])
  · rw [farrierEff_watched e l.isLt ⟨hl, ha⟩]
    refine ⟨fun hge => ?_, fun hlt hbad => ?_, fun hlt hbad hdeg => ?_⟩
    · have hrun : badRun s p l e = 0 := if_neg (by omega)
      rw [hrun, if_neg (by omega), get_windowShown_estimate, windowShown_lane]
      exact ⟨rfl, rfl, fieldsBut_windowShown s p l e 0, rfl⟩
    · have hrun : badRun s p l e = (s.lane p l).bad + 1 := if_pos hlt
      rw [hrun, if_neg (by omega), get_windowShown_estimate, windowShown_lane]
      refine ⟨rfl, ?_, fieldsBut_windowShown s p l e _, rfl⟩
      dsimp only
      omega
    · have hrun : badRun s p l e = 3 := (if_pos hlt).trans (by rw [hbad])
      rw [hrun, if_pos ⟨Nat.le_refl _, hdeg⟩]
      obtain ⟨hget, hlane⟩ := degraded_stands p l.isLt (windowShown p l e 3 s)
      refine ⟨hget, hlane.trans ?_⟩
      rw [windowShown_lane]
      rfl

/-! LANE_FAILURE -/

/-- What a link is judged by: its mode and its state. -/
structure LinkKept (p : Nat) (s t : State) : Prop where
  mode : t.get (Reg.LINK_CFG.MODE p) = s.get (Reg.LINK_CFG.MODE p)
  state : t.get (Reg.LINK_STS.STATE p) = s.get (Reg.LINK_STS.STATE p)

theorem LinkKept.native {p : Nat} {s t : State} (h : LinkKept p s t) : t.native p = s.native p := by
  unfold State.native State.flag
  rw [h.mode]

theorem LinkKept.linkOn {p : Nat} {s t : State} (h : LinkKept p s t) : t.linkOn p = s.linkOn p := by
  unfold State.linkOn
  rw [h.state]

/-- A lane is FAILED and fenced. -/
def failedFenced (p i : Nat) (s : State) : State :=
  (s.put (Reg.LINK_LANE_HEALTH.FAILED p i) 1).fence 4
    [laneUnit (p / 16) ((s.put (Reg.LINK_LANE_HEALTH.FAILED p i) 1).get (laneField p i))]

/-- The lane's shadow is free again. -/
def unshadowed (p i : Nat) (s : State) : State :=
  (s.setLane p i { s.lane p i with shadow := none }).put (Reg.LINK_LANE_HEALTH.SHADOW p i) 0

/-- A failed lane, with a spare in training where one remains. -/
def laneFailed (p i : Nat) (s : State) : State :=
  let u := unshadowed p i (failedFenced p i s)
  u.setLane p i { u.lane p i with training := u.spareFor p }

/-- A lane that has failed leaves what its port trained with. -/
def laneLost (p i : Nat) (s : State) : State :=
  s.setPort p { s.port p with trained := setBits (s.port p).trained i 1 0, restore := (s.port p).restore.filter (· != i) }

/-- The failure of a lane that its port carries. -/
abbrev Fails (s : State) (p i : Nat) : Prop :=
  s.linkOn p = true ∧ s.get (Reg.LINK_LANE_HEALTH.FAILED p i) = 0 ∧ (s.native p = false ∨ bitAt (s.get (Reg.LINK_STS.ACTIVE p)) i = true)

theorem laneFailureEff_ignored {s : State} {p i : Nat} (h : ¬ Fails s p i) : laneFailureEff p i s = s := by
  unfold laneFailureEff
  dsimp only
  rw [if_pos]
  by_contra hall
  simp only [State.flag, Bool.or_eq_true, Bool.and_eq_true, Bool.not_eq_true', not_or, Bool.not_eq_false, bne_iff_ne, not_not] at hall
  obtain ⟨⟨hl, hf⟩, ha⟩ := hall
  exact h ⟨hl, hf, by cases hn : s.native p <;> simp_all⟩

theorem laneFailureEff_fails {s : State} {p i : Nat} (h : Fails s p i) :
    laneFailureEff p i s
      = if (laneFailed p i s).native p then
          if (setBitsOf (s.get (Reg.LINK_STS.ACTIVE p)) 4).all ((laneLost p i (laneFailed p i s)).failedLanes p).contains
          then (laneLost p i (laneFailed p i s)).toTraining p else (laneLost p i (laneFailed p i s)).askLanes p
        else pcsDownEff p (laneFailed p i s) := by
  obtain ⟨hl, hf, ha⟩ := h
  have hgate : (!s.linkOn p || s.flag (Reg.LINK_LANE_HEALTH.FAILED p i) || (s.native p && !bitAt (s.get (Reg.LINK_STS.ACTIVE p)) i))
      = false := by
    rcases ha with ha | ha <;> simp [State.flag, hl, hf, ha]
  unfold laneFailureEff
  dsimp only
  rw [hgate, if_neg Bool.false_ne_true]
  rfl

theorem get_laneFailed_failed (s : State) (p : PortId) {i : Nat} (hi : i < 4) :
    (laneFailed p i s).get (Reg.LINK_LANE_HEALTH.FAILED p i) = 1 := by
  obtain ⟨hlo, hhi⟩ := laneHealth_range p hi
  unfold laneFailed unshadowed failedFenced
  rw [get_setLane, get_put_apart rfl, get_setLane,
    get_fence_lane _ p _ hlo (Nat.lt_of_lt_of_le hhi (by decide))]
  exact get_put_value rfl rfl

/-- The other registers of the ports stay. -/
theorem get_laneFailed_ne (s : State) (p : PortId) {i : Nat} {g : Fld} (hlo : 0x10000 ≤ g.off) (hhi : g.off < 0x700000)
    (h : g.off ≠ Reg.LINK_LANE_HEALTH.off p i) : (laneFailed p i s).get g = s.get g := by
  unfold laneFailed unshadowed failedFenced
  rw [get_setLane, get_put_ne _ _ _ _ h, get_setLane, get_fence_lane _ p _ hlo hhi, get_put_ne _ _ _ _ h]

/-- LINK_CFG and LINK_STS are others than the registers of the lanes. -/
theorem linkCfg_ne (p : PortId) {i : Nat} (hi : i < 4) :
    Reg.LINK_CFG.off p ≠ Reg.LINK_LANE_HEALTH.off p i ∧ Reg.LINK_CFG.off p ≠ Reg.LINK_LANE_MAP.off p ∧ 0x10000 ≤ Reg.LINK_CFG.off p
      ∧ Reg.LINK_CFG.off p < 0x700000 := by
  unfold Reg.LINK_CFG.off Reg.LINK_LANE_HEALTH.off Reg.LINK_LANE_MAP.off
  omega

theorem linkSts_ne (p : PortId) {i : Nat} (hi : i < 4) :
    Reg.LINK_STS.off p ≠ Reg.LINK_LANE_HEALTH.off p i ∧ Reg.LINK_STS.off p ≠ Reg.LINK_LANE_MAP.off p ∧ 0x10000 ≤ Reg.LINK_STS.off p
      ∧ Reg.LINK_STS.off p < 0x700000 := by
  unfold Reg.LINK_STS.off Reg.LINK_LANE_HEALTH.off Reg.LINK_LANE_MAP.off
  omega

theorem linkKept_laneFailed (s : State) (p : PortId) {i : Nat} (hi : i < 4) : LinkKept p s (laneFailed p i s) where
  mode := by
    obtain ⟨hne, -, hlo, hhi⟩ := linkCfg_ne p hi
    exact get_laneFailed_ne s p hlo hhi hne
  state := by
    obtain ⟨hne, -, hlo, hhi⟩ := linkSts_ne p hi
    exact get_laneFailed_ne s p hlo hhi hne

/-- On a native port the failed lane stays FAILED, whether the port asks for a change or retrains. -/
theorem laneFailureEff_native {s : State} {p : PortId} {i : Nat} (hi : i < 4) (h : Fails s p i) (hn : s.native p = true) :
    (laneFailureEff p i s).get (Reg.LINK_LANE_HEALTH.FAILED p i) = 1 := by
  obtain ⟨-, hhi⟩ := laneHealth_range p hi
  obtain ⟨hsts, -⟩ := laneHealth_ne p i hi
  have hfailed : (laneLost p i (laneFailed p i s)).get (Reg.LINK_LANE_HEALTH.FAILED p i) = 1 := by
    unfold laneLost
    rw [get_setPort, get_laneFailed_failed s p hi]
  rw [laneFailureEff_fails h, (linkKept_laneFailed s p hi).native, hn, if_pos rfl]
  split
  · rw [get_toTraining _ p hhi, get_linkOffShown_ne _ hsts, hfailed]
  · rw [get_of_regs (askLanes_regs _ p), hfailed]

/-- An Ethernet port with a failed lane goes down. -/
theorem laneFailureEff_ethernet {s : State} {p : PortId} {i : Nat} (hi : i < 4) (h : Fails s p i) (hn : s.native p = false) :
    (laneFailureEff p i s).get (Reg.LINK_LANE_HEALTH.FAILED p i) = 1 ∧ (laneFailureEff p i s).get (Reg.LINK_STS.STATE p) = 1 := by
  obtain ⟨-, hhi⟩ := laneHealth_range p hi
  obtain ⟨hsts, -⟩ := laneHealth_ne p i hi
  obtain ⟨hl, -, -⟩ := id h
  have hkept := linkKept_laneFailed s p hi
  obtain ⟨v, hdown, hdrop⟩ := dropsOnly_pcsDownEff (hkept.native.trans hn) (hkept.linkOn.trans hl)
  rw [laneFailureEff_fails h, hkept.native, hn, if_neg Bool.false_ne_true, hdrop.get hhi, hdrop.get (linkSts_low p), get_setPort, get_setPort]
  exact ⟨(hdown.apart _ hsts).trans (get_laneFailed_failed s p hi), hdown.state⟩

theorem completes_laneFailure (s : State) (p : PortId) (l : Fin 4) :
    Completes (.laneFailure p l) s fun t =>
      ∃ u : State, t = u.pathsChanged ∧ (s.linkOn p = false ∨ s.get (Reg.LINK_LANE_HEALTH.FAILED p l) = 1 → u = s)
      ∧ (s.native p = true → bitAt (s.get (Reg.LINK_STS.ACTIVE p)) l = false → u = s)
      ∧ (s.linkOn p = true → s.get (Reg.LINK_LANE_HEALTH.FAILED p l) = 0 → s.native p = false →
          u.get (Reg.LINK_LANE_HEALTH.FAILED p l) = 1 ∧ u.get (Reg.LINK_STS.STATE p) = 1)
      ∧ (s.linkOn p = true → s.get (Reg.LINK_LANE_HEALTH.FAILED p l) = 0 → s.native p = true →
          bitAt (s.get (Reg.LINK_STS.ACTIVE p)) l = true → u.get (Reg.LINK_LANE_HEALTH.FAILED p l) = 1)
      ∧ TrafficOnly s t := by
  refine ⟨_, rfl, laneFailureEff p l s, rfl, fun h => laneFailureEff_ignored ?_, fun hn ha => laneFailureEff_ignored (by simp [hn, ha]),
    fun hl hf hn => laneFailureEff_ethernet l.isLt ⟨hl, hf, .inl hn⟩ hn, fun hl hf hn ha => laneFailureEff_native l.isLt ⟨hl, hf, .inr ha⟩ hn,
    trafficOnly_of_same (((laneFailureEff_same p l s).mono (by decide)).trans (pathsChanged_same _)) (by decide)⟩
  rcases h with h | h <;> simp [h]

/-! SPARE_ADAPTED -/

theorem laneField_off (p i : Nat) : (laneField p i).off = Reg.LINK_LANE_MAP.off p := by
  unfold laneField
  split <;> rfl

theorem laneField_ok (p i : Nat) : FieldOk (laneField p i) := by
  unfold laneField
  split <;> exact fieldOk_of_ble rfl

/-- LINK_LANE_MAP is a register of its own. -/
theorem laneField_ne (p i : Nat) : (laneField p i).off ≠ Reg.LINK_LANE_HEALTH.off p i := by
  rw [laneField_off]
  unfold Reg.LINK_LANE_MAP.off Reg.LINK_LANE_HEALTH.off
  omega

theorem spareAdaptedEff_swaps {s : State} {p i sp : Nat} (h : (s.lane p i).shadow = some sp) :
    spareAdaptedEff p i s = ((((s.put (laneField p i) sp).setLane p i { s.lane p i with shadow := none, bad := 0 }).put
      (Reg.LINK_LANE_HEALTH.SHADOW p i) 0).put (Reg.LINK_LANE_HEALTH.DEGRADED p i) 0) := by
  unfold spareAdaptedEff
  rw [h]

theorem completes_spareAdapted (s : State) (p : PortId) (l : Fin 4) :
    Completes (.spareAdapted p l) s fun t =>
      ((s.lane p l).shadow = none → t = s)
      ∧ (∀ sp, (s.lane p l).shadow = some sp → t.get (laneField p l) = sp % 2 ^ (laneField p l).w
          ∧ t.lane p l = { s.lane p l with shadow := none, bad := 0 }
          ∧ t.get (Reg.LINK_LANE_HEALTH.SHADOW p l) = 0 ∧ t.get (Reg.LINK_LANE_HEALTH.DEGRADED p l) = 0)
      ∧ PortsBut [p.val] s t ∧ t = { s with regs := t.regs, ports := t.ports }
      ∧ FieldsBut [laneField p l, Reg.LINK_LANE_HEALTH.SHADOW p l, Reg.LINK_LANE_HEALTH.DEGRADED p l] s t := by
  refine ⟨spareAdaptedEff p l s, rfl, fun h => ?_, fun sp h => ?_, ?_, eq_patch_of_same (spareAdaptedEff_same p l s), ?_⟩
  · simp [spareAdaptedEff, h]
  · rw [spareAdaptedEff_swaps h]
    refine ⟨?_, ?_, ?_, get_put_value rfl rfl⟩
    · rw [get_put_ne _ _ _ _ (laneField_ne p l), get_put_ne _ _ _ _ (laneField_ne p l), get_setLane, get_put_self _ _ _ (laneField_ok p l)]
    · rw [lane_put, lane_put, lane_setLane_self]
    · rw [get_put_apart rfl]
      exact get_put_value rfl rfl
  · cases h : (s.lane p l).shadow with
    | none =>
      have hid : spareAdaptedEff p l s = s := by simp [spareAdaptedEff, h]
      rw [hid]
      exact portsBut_refl _ s
    | some sp =>
      rw [spareAdaptedEff_swaps h]
      exact portsBut_of_ports (portsBut_setLane _ p l _) rfl
  · cases h : (s.lane p l).shadow with
    | none =>
      have hid : spareAdaptedEff p l s = s := by simp [spareAdaptedEff, h]
      rw [hid]
      exact fieldsBut_refl _ s
    | some sp =>
      rw [spareAdaptedEff_swaps h]
      have hmap := fieldsBut_put (laneField p l) sp (fieldsBut_refl [laneField p l, Reg.LINK_LANE_HEALTH.SHADOW p l,
        Reg.LINK_LANE_HEALTH.DEGRADED p l] s) (laneField_ok p l) (by simp)
      exact fieldsBut_put _ _ (fieldsBut_put _ _ (fieldsBut_of_regs hmap rfl) (fieldOk_of_ble rfl) (by simp)) (fieldOk_of_ble rfl) (by simp)

/-! SPARE_TRAINED -/

/-- A trained spare has taken the lane index. -/
def spareTaken (p i sp : Nat) (s : State) : State :=
  (((s.put (laneField p i) sp).setLane p i { s.lane p i with training := none, bad := 0 }).put
    (Reg.LINK_LANE_HEALTH.FAILED p i) 0).put (Reg.LINK_LANE_HEALTH.DEGRADED p i) 0

/-- The lane may come back into its port's mask. -/
def laneBack (p i : Nat) (s : State) : State :=
  s.setPort p { s.port p with trained := setBits (s.port p).trained i 1 1, restore := addTo (s.port p).restore i }

theorem spareTaken_same (p i sp : Nat) (s : State) : Same 130 s (spareTaken p i sp s) :=
  ((((put_same ..).mono (by decide)).seq (setPort_same ..) (by decide)).seq (put_same ..) (by decide)).seq (put_same ..) (by decide)

theorem laneBack_same (p i : Nat) (s : State) : Same 128 s (laneBack p i s) := setPort_same ..

theorem get_spareTaken_ne (s : State) {p i : Nat} (sp : Nat) {g : Fld} (hh : g.off ≠ Reg.LINK_LANE_HEALTH.off p i)
    (hm : g.off ≠ Reg.LINK_LANE_MAP.off p) : (spareTaken p i sp s).get g = s.get g := by
  unfold spareTaken
  rw [get_put_ne _ _ _ _ hh, get_put_ne _ _ _ _ hh, get_setLane, get_put_ne _ _ _ _ (by rwa [laneField_off])]

theorem get_spareTaken_map (s : State) (p i sp : Nat) : (spareTaken p i sp s).get (laneField p i) = sp % 2 ^ (laneField p i).w := by
  unfold spareTaken
  rw [get_put_ne _ _ _ _ (laneField_ne p i), get_put_ne _ _ _ _ (laneField_ne p i), get_setLane, get_put_self _ _ _ (laneField_ok p i)]

theorem get_spareTaken_failed (s : State) (p i sp : Nat) : (spareTaken p i sp s).get (Reg.LINK_LANE_HEALTH.FAILED p i) = 0 := by
  unfold spareTaken
  rw [get_put_apart rfl]
  exact get_put_value rfl rfl

theorem get_spareTaken_degraded (s : State) (p i sp : Nat) : (spareTaken p i sp s).get (Reg.LINK_LANE_HEALTH.DEGRADED p i) = 0 :=
  get_put_value rfl rfl

/-- The other lanes of the port keep their marks. -/
theorem get_spareTaken_other (s : State) {p i k : Nat} (sp : Nat) (hik : k ≠ i) :
    (spareTaken p i sp s).get (Reg.LINK_LANE_HEALTH.FAILED p k) = s.get (Reg.LINK_LANE_HEALTH.FAILED p k) := by
  refine get_spareTaken_ne s sp ?_ ?_
  · unfold Reg.LINK_LANE_HEALTH.FAILED Reg.LINK_LANE_HEALTH.off
    dsimp only
    omega
  · unfold Reg.LINK_LANE_HEALTH.FAILED Reg.LINK_LANE_HEALTH.off Reg.LINK_LANE_MAP.off
    dsimp only
    omega

theorem linkKept_spareTaken (s : State) (p : PortId) {i : Nat} (sp : Nat) (hi : i < 4) : LinkKept p s (spareTaken p i sp s) where
  mode := by
    obtain ⟨hh, hm, -⟩ := linkCfg_ne p hi
    exact get_spareTaken_ne s sp hh hm
  state := by
    obtain ⟨hh, hm, -⟩ := linkSts_ne p hi
    exact get_spareTaken_ne s sp hh hm

theorem spareTaken_port (p i sp : Nat) (s : State) : (spareTaken p i sp s).port p
    = { s.port p with lanes := (s.port p).lanes.putD i { s.lane p i with training := none, bad := 0 } {} } := setLane_port ..

theorem laneBack_port (p i : Nat) (s : State) : (laneBack p i s).port p
    = { s.port p with trained := setBits (s.port p).trained i 1 1, restore := addTo (s.port p).restore i } := port_setPort_self ..

theorem spareTaken_lane (p i sp : Nat) (s : State) : (spareTaken p i sp s).lane p i = { s.lane p i with training := none, bad := 0 } :=
  lane_setLane_self ..

theorem spareTrainedEff_takes {s : State} {p i sp : Nat} (h : (s.lane p i).training = some sp) :
    spareTrainedEff p i s
      = if (spareTaken p i sp s).native p && (spareTaken p i sp s).linkOn p then (laneBack p i (spareTaken p i sp s)).askLanes p
        else spareTaken p i sp s := by
  unfold spareTrainedEff
  rw [h]
  rfl

/-- Whether or not the port asks for the lane back. -/
theorem spareTrainedEff_cases {P : State → Prop} {s : State} {p i sp : Nat} (h : (s.lane p i).training = some sp)
    (hback : P ((laneBack p i (spareTaken p i sp s)).askLanes p)) (htaken : P (spareTaken p i sp s)) : P (spareTrainedEff p i s) := by
  rw [spareTrainedEff_takes h]
  split
  · exact hback
  · exact htaken

theorem spareTrainedEff_regs {s : State} {p i sp : Nat} (h : (s.lane p i).training = some sp) :
    (spareTrainedEff p i s).regs = (spareTaken p i sp s).regs :=
  spareTrainedEff_cases (P := fun t => t.regs = (spareTaken p i sp s).regs) h (askLanes_regs _ p) rfl

theorem askLanes_lanes (s : State) (p : Nat) : ((s.askLanes p).port p).lanes = (s.port p).lanes :=
  askLanes_cases (P := fun t => (t.port p).lanes = (s.port p).lanes) rfl fun m r _ => by rw [laneRequest_port]

theorem askLanes_busy {s : State} {p : Nat} (h : (s.port p).req.isSome = true) : s.askLanes p = s := by
  simp [State.askLanes, h]

theorem spareTrainedEff_lane {s : State} {p i sp : Nat} (h : (s.lane p i).training = some sp) :
    (spareTrainedEff p i s).lane p i = { s.lane p i with training := none, bad := 0 } := by
  refine spareTrainedEff_cases (P := fun t => t.lane p i = _) h ?_ (spareTaken_lane p i sp s)
  refine Eq.trans (lane_of_port ?_ i) (spareTaken_lane p i sp s)
  rw [askLanes_lanes, laneBack_port]

theorem portsBut_spareTrainedEff (s : State) (p i : Nat) : PortsBut [p] s (spareTrainedEff p i s) := by
  cases h : (s.lane p i).training with
  | none =>
    have hid : spareTrainedEff p i s = s := by simp [spareTrainedEff, h]
    rw [hid]
    exact portsBut_refl _ s
  | some sp =>
    have htaken : PortsBut [p] s (spareTaken p i sp s) := portsBut_of_ports (portsBut_setLane _ p i _) rfl
    exact spareTrainedEff_cases (P := PortsBut [p] s) h
      (portsBut_trans (portsBut_setPort p _ htaken (by simp)) (portsBut_askLanes _ p)) htaken

/-- A request outstanding stays as it is. -/
theorem spareTrainedEff_busy {s : State} {p i sp : Nat} (h : (s.lane p i).training = some sp) (hr : (s.port p).req.isSome = true) :
    ((spareTrainedEff p i s).port p).req = (s.port p).req ∧ (spareTrainedEff p i s).out = s.out := by
  have hout := (spareTaken_same p i sp s).out rfl
  refine spareTrainedEff_cases (P := fun t => (t.port p).req = (s.port p).req ∧ t.out = s.out) h ?_ ⟨by rw [spareTaken_port], hout⟩
  rw [askLanes_busy (by rw [laneBack_port, spareTaken_port]; exact hr)]
  exact ⟨by rw [laneBack_port, spareTaken_port], ((laneBack_same p i _).out rfl).trans hout⟩

/-- The lane change that a port needs once its only lane out of the mask is back. -/
theorem laneNeed_back {s : State} {p i : Nat} (hrestore : (s.port p).restore = [i]) (hout : bitAt (s.get (Reg.LINK_STS.ACTIVE p)) i = false)
    (hgood : ∀ k < 4, bitAt (s.get (Reg.LINK_STS.ACTIVE p)) k = true → s.get (Reg.LINK_LANE_HEALTH.FAILED p k) = 0) :
    s.laneNeed p = some (setBits (s.get (Reg.LINK_STS.ACTIVE p)) i 1 1, 2) := by
  have hbad : (s.failedLanes p).filter (bitAt (s.get (Reg.LINK_STS.ACTIVE p))) = [] := by
    refine List.filter_eq_nil_iff.mpr fun k hk ha => ?_
    simp only [State.failedLanes, List.mem_filter, List.mem_range, State.flag, bne_iff_ne] at hk
    exact hk.2 (hgood k hk.1 ha)
  simp [State.laneNeed, hbad, hrestore, hout]

theorem askLanes_asks {s : State} {p m r : Nat} (hreq : (s.port p).req = none) (hc : (s.port p).change = none) (hn : s.laneNeed p = some (m, r)) :
    s.askLanes p = s.laneRequest p m r := by
  simp [State.askLanes, hreq, hc, hn]

/-- A native port asks for its lane back. -/
theorem spareTrainedEff_asks {s : State} {p : PortId} {l : Fin 4} {sp : Nat} (h : (s.lane p l).training = some sp) (hn : s.native p = true)
    (hl : s.linkOn p = true) (hr : (s.port p).req = none) (hc : (s.port p).change = none) (hrestore : (s.port p).restore = [])
    (hout : bitAt (s.get (Reg.LINK_STS.ACTIVE p)) l = false)
    (hgood : ∀ k : Fin 4, k ≠ l → bitAt (s.get (Reg.LINK_STS.ACTIVE p)) k = true → s.get (Reg.LINK_LANE_HEALTH.FAILED p k) = 0) :
    ((spareTrainedEff p l s).port p).req.map LaneReq.mask = some (setBits (s.get (Reg.LINK_STS.ACTIVE p)) l 1 1)
      ∧ ((spareTrainedEff p l s).port p).req.map LaneReq.reason = some 2 := by
  have hkept := linkKept_spareTaken s p sp l.isLt
  obtain ⟨hsh, hsm, -⟩ := linkSts_ne p l.isLt
  have hact : (laneBack p l (spareTaken p l sp s)).get (Reg.LINK_STS.ACTIVE p) = s.get (Reg.LINK_STS.ACTIVE p) :=
    (get_setPort _ _ _ _).trans (get_spareTaken_ne s sp hsh hsm)
  have hport := laneBack_port p l (spareTaken p l sp s)
  rw [spareTaken_port] at hport
  have hneed : (laneBack p l (spareTaken p l sp s)).laneNeed p = some (setBits (s.get (Reg.LINK_STS.ACTIVE p)) l 1 1, 2) := by
    rw [laneNeed_back (i := l) (by rw [hport, hrestore]; rfl) (by rw [hact, hout]) fun k hk ha => ?_, hact]
    have hne : k ≠ l.val := by
      rintro rfl
      rw [hact, hout] at ha
      exact Bool.false_ne_true ha
    rw [hact] at ha
    exact ((get_setPort _ _ _ _).trans (get_spareTaken_other s sp hne)).trans
      (hgood ⟨k, hk⟩ (fun e => hne (congrArg Fin.val e)) ha)
  have hreq := laneRequest_req (laneBack p l (spareTaken p l sp s)) p (setBits (s.get (Reg.LINK_STS.ACTIVE p)) l 1 1) 2 0
  rw [spareTrainedEff_takes h, hkept.native, hkept.linkOn, hn, hl, if_pos (by decide),
    askLanes_asks (by rw [hport]; exact hr) (by rw [hport]; exact hc) hneed]
  simp only [hreq, Option.map_some, and_self]

theorem completes_spareTrained (s : State) (p : PortId) (l : Fin 4) :
    Completes (.spareTrained p l) s fun t =>
      ∃ u : State, t = u.pathsChanged ∧ ((s.lane p l).training = none → u = s)
      ∧ (∀ sp, (s.lane p l).training = some sp → u.get (laneField p l) = sp % 2 ^ (laneField p l).w
          ∧ u.lane p l = { s.lane p l with training := none, bad := 0 }
          ∧ u.get (Reg.LINK_LANE_HEALTH.FAILED p l) = 0 ∧ u.get (Reg.LINK_LANE_HEALTH.DEGRADED p l) = 0
          ∧ (s.native p = false → u.out = s.out) ∧ ((s.port p).req.isSome = true → (u.port p).req = (s.port p).req ∧ u.out = s.out)
          ∧ (s.native p = true → s.linkOn p = true → (s.port p).req = none → (s.port p).change = none → (s.port p).restore = [] →
              bitAt (s.get (Reg.LINK_STS.ACTIVE p)) l = false →
              (∀ k : Fin 4, k ≠ l → bitAt (s.get (Reg.LINK_STS.ACTIVE p)) k = true → s.get (Reg.LINK_LANE_HEALTH.FAILED p k) = 0) →
              (u.port p).req.map LaneReq.mask = some (setBits (s.get (Reg.LINK_STS.ACTIVE p)) l 1 1)
              ∧ (u.port p).req.map LaneReq.reason = some 2))
      ∧ PortsBut [p.val] s u ∧ u = { s with regs := u.regs, ports := u.ports, out := u.out } ∧ TrafficOnly s t := by
  have hsame := spareTrainedEff_same p l s
  refine ⟨_, rfl, spareTrainedEff p l s, rfl, fun h => ?_, fun sp h => ?_, portsBut_spareTrainedEff s p l, eq_patch_of_same hsame,
    trafficOnly_of_same ((hsame.mono (by decide)).trans (pathsChanged_same _)) (by decide)⟩
  · simp [spareTrainedEff, h]
  · have hregs := spareTrainedEff_regs h
    refine ⟨(get_of_regs hregs _).trans (get_spareTaken_map s p l sp), spareTrainedEff_lane h,
      (get_of_regs hregs _).trans (get_spareTaken_failed s p l sp), (get_of_regs hregs _).trans (get_spareTaken_degraded s p l sp),
      fun hn => ?_, spareTrainedEff_busy h, spareTrainedEff_asks h⟩
    rw [spareTrainedEff_takes h, (linkKept_spareTaken s p sp l.isLt).native, hn, Bool.false_and, if_neg Bool.false_ne_true]
    exact (spareTaken_same p l sp s).out rfl

/-- Settles O8, row by row through the lemmas above. -/
theorem laneSparesAndFailures : Obligations.LaneSparesAndFailures := by
  unfold Obligations.LaneSparesAndFailures
  exact ⟨completes_farrierWindow, completes_laneFailure, completes_spareAdapted, completes_spareTrained⟩

end Sys2Proof.Machine.Proofs
end

section
/-! PROOFS. A peer's loss, links that go up and down, and the return from training (03_link_ports.md R53, R59, R70, R71, R78, R497;
17_bringup_reset_firmware.md R463). -/

namespace Sys2Proof.Machine.Proofs

open Laws

/-! PEER_LOST -/

/-- A loss that a port judges. -/
abbrev LosesPeer (s : State) (p : Nat) : Prop := s.native p = true ∧ s.linkOn p = true ∧ s.get (Reg.LINK_STS.PEER p) ≠ 3

theorem peerLostEff_eq (s : State) (p : Nat) (lk : Bool) :
    peerLostEff p lk s = if LosesPeer s p then (if lk then s.peerLost p else (s.peerLost p).toTraining p) else s := by
  unfold peerLostEff
  simp only [Bool.and_eq_true, bne_iff_ne, and_assoc, LosesPeer]

theorem peerLostEff_unjudged {s : State} {p : Nat} (lk : Bool) (h : ¬ LosesPeer s p) : peerLostEff p lk s = s := by
  rw [peerLostEff_eq, if_neg h]

theorem peerLost_lanes (s : State) (p : PortId) : ((s.peerLost p).port p).lanes = (s.port p).lanes := by
  rw [peerLost_port]

theorem peerLost_txq (s : State) (p : PortId) : ((s.peerLost p).port p).txq = [] := by
  rw [peerLost_port]

theorem peerLostEff_lanes (s : State) (p : PortId) (lk : Bool) : ((peerLostEff p lk s).port p).lanes = (s.port p).lanes := by
  rw [peerLostEff_eq]
  split
  · split
    · exact peerLost_lanes s p
    · rw [toTraining_lanes, peerLost_lanes]
  · rfl

/-- The peer is LOST, and the receiver that has lost codeword lock retrains. -/
theorem peerLostEff_judged {s : State} {p : PortId} (lk : Bool) (h : LosesPeer s p) :
    (peerLostEff p lk s).get (Reg.LINK_STS.PEER p) = 3 ∧ (peerLostEff p lk s).get (Reg.LINK_STS.PEER_LOST p) = 1
      ∧ ((peerLostEff p lk s).port p).txq = []
      ∧ (lk = true → (peerLostEff p lk s).get (Reg.LINK_STS.STATE p) = s.get (Reg.LINK_STS.STATE p))
      ∧ (lk = false → (peerLostEff p lk s).get (Reg.LINK_STS.STATE p) = 1) := by
  have hpeer := (get_peerLost s p (g := Reg.LINK_STS.PEER p) (linkSts_low p)).trans (get_peerLostShown_peer s p)
  have hlost := (get_peerLost s p (g := Reg.LINK_STS.PEER_LOST p) (linkSts_low p)).trans (get_peerLostShown_lost s p)
  rw [peerLostEff_eq, if_pos h]
  cases lk with
  | true =>
    rw [if_pos rfl]
    refine ⟨hpeer, hlost, peerLost_txq s p, fun _ => ?_, fun e => absurd e (by decide)⟩
    exact (get_peerLost s p (g := Reg.LINK_STS.STATE p) (linkSts_low p)).trans (get_peerLostShown_state s p)
  | false =>
    rw [if_neg Bool.false_ne_true]
    refine ⟨?_, ?_, toTraining_txq _ p, fun e => absurd e (by decide), fun _ => ?_⟩
    · rw [get_toTraining _ p (g := Reg.LINK_STS.PEER p) (linkSts_low p), get_linkOffShown_peer, hpeer]
    · rw [get_toTraining _ p (g := Reg.LINK_STS.PEER_LOST p) (linkSts_low p), get_linkOffShown_lost, hlost]
    · rw [get_toTraining _ p (g := Reg.LINK_STS.STATE p) (linkSts_low p), get_linkOffShown_state]

theorem completes_peerLost (s : State) (p : PortId) (lk : Bool) :
    Completes (.peerLost { port := p, locked := lk }) s fun t =>
      ∃ u : State, t = u.pathsChanged ∧ (s.native p = false ∨ s.linkOn p = false → u = s) ∧ (s.get (Reg.LINK_STS.PEER p) = 3 → u = s)
      ∧ (s.native p = true → s.linkOn p = true → s.get (Reg.LINK_STS.PEER p) ≠ 3 →
          u.get (Reg.LINK_STS.PEER p) = 3 ∧ u.get (Reg.LINK_STS.PEER_LOST p) = 1 ∧ (u.port p).txq = []
          ∧ (lk = true → u.get (Reg.LINK_STS.STATE p) = s.get (Reg.LINK_STS.STATE p)) ∧ (lk = false → u.get (Reg.LINK_STS.STATE p) = 1))
      ∧ (u.port p).lanes = (s.port p).lanes ∧ TrafficOnly s t := by
  refine ⟨_, rfl, peerLostEff p lk s, rfl, fun h => peerLostEff_unjudged lk ?_, fun h => peerLostEff_unjudged lk fun hj => hj.2.2 h,
    fun hn hl hp => peerLostEff_judged lk ⟨hn, hl, hp⟩, peerLostEff_lanes s p lk,
    trafficOnly_of_same (((peerLostEff_same p lk s).mono (by decide)).trans (pathsChanged_same _)) (by decide)⟩
  rcases h with h | h <;> simp [h]

/-! PCS_LINK_DOWN -/

theorem pcsDownEff_ignored {s : State} {p : Nat} (h : s.native p = true ∨ s.linkOn p = false) : pcsDownEff p s = s := by
  rcases h with h | h <;> simp [pcsDownEff, h]

theorem completes_pcsLinkDown (s : State) (p : PortId) :
    Completes (.pcsLinkDown p) s fun t =>
      ∃ u : State, t = u.pathsChanged ∧ (s.native p = true ∨ s.linkOn p = false → u = s)
      ∧ (s.native p = false → s.linkOn p = true → u.get (Reg.LINK_STS.STATE p) = 1 ∧ u.get (Reg.LINK_STS.PREEMPT_ACT p) = 0
          ∧ (u.port p).verified = [] ∧ (u.port p).paused = [] ∧ (u.port p).txq = [] ∧ u.get (Reg.LINK_STS.PEER p) = 3)
      ∧ TrafficOnly s t := by
  refine ⟨_, rfl, pcsDownEff p s, rfl, pcsDownEff_ignored, fun hn hl => ?_,
    trafficOnly_of_same (((pcsDownEff_same p s).mono (by decide)).trans (pathsChanged_same _)) (by decide)⟩
  obtain ⟨v, hdown, hdrop⟩ := dropsOnly_pcsDownEff hn hl
  have hport := hdrop.port p
  rw [port_setPort_self, ethDown_port] at hport
  have hget (g : Fld) (hg : g.off < 0x300000) : (pcsDownEff p s).get g = v.get g := (hdrop.get hg).trans (get_setPort _ _ _ g)
  refine ⟨(hget _ (linkSts_low p)).trans hdown.state, (hget _ (linkSts_low p)).trans hdown.preempt, ?_, ?_, ?_,
    (hget _ (linkSts_low p)).trans hdown.peer⟩
  all_goals rw [hport]

/-! PCS_LINK_UP -/

/-- The sub-ports whose lanes are all among a mask's and have not failed. -/
def subsOn (s : State) (p mask : Nat) : List Nat :=
  (List.range (s.subports p)).filter (fun b => (s.subLanes p b).all (fun i => bitAt mask i && !(s.failedLanes p).contains i))

/-- The lanes of some sub-ports. -/
def lanesOf (s : State) (p : Nat) (subs : List Nat) : Nat := subs.foldl (fun m b => (s.subLanes p b).foldl (fun m i => setBits m i 1 1) m) 0

/-- A link that is up on some sub-ports. -/
def ethUpShown (s : State) (p : Nat) (subs : List Nat) : State :=
  ((s.setPort p { s.port p with subsUp := subs }).put (Reg.LINK_STS.STATE p) 2).put (Reg.LINK_STS.ACTIVE p) (lanesOf s p subs)

theorem ethUp_eq (s : State) (p mask : Nat) :
    s.ethUp p mask = if (subsOn s p mask).isEmpty then s
      else if (ethUpShown s p (subsOn s p mask)).flag (Reg.LINK_CFG.PREEMPT_EN p)
            && (ethUpShown s p (subsOn s p mask)).flag (Reg.LINK_CFG.VERIFY_DIS p)
        then (ethUpShown s p (subsOn s p mask)).preempting p (subsOn s p mask) else ethUpShown s p (subsOn s p mask) := rfl

theorem ethUp_cases {P : State → Prop} {s : State} {p mask : Nat} (hdown : P s) (hup : P (ethUpShown s p (subsOn s p mask)))
    (hpre : P ((ethUpShown s p (subsOn s p mask)).preempting p (subsOn s p mask))) : P (s.ethUp p mask) := by
  rw [ethUp_eq]
  split
  · exact hdown
  · split
    · exact hpre
    · exact hup

/-- The fields of LINK_STS that a link going up shows. -/
abbrev upFields (p : Nat) : List Fld := [Reg.LINK_STS.STATE p, Reg.LINK_STS.ACTIVE p, Reg.LINK_STS.PEER p, Reg.LINK_STS.PREEMPT_ACT p]

theorem fieldsBut_ethUpShown (s : State) (p : Nat) (subs : List Nat) : FieldsBut (upFields p) s (ethUpShown s p subs) :=
  fieldsBut_put _ _ (fieldsBut_put _ _ (fieldsBut_of_regs (fieldsBut_refl _ s) rfl) (fieldOk_of_ble rfl) (by simp)) (fieldOk_of_ble rfl)
    (by simp)

theorem portsBut_ethUpShown (s : State) (p : Nat) (subs : List Nat) : PortsBut [p] s (ethUpShown s p subs) :=
  portsBut_of_ports (portsBut_setPort p _ (portsBut_refl _ s) (by simp)) rfl

theorem fieldsBut_ethUp (s : State) (p mask : Nat) : FieldsBut (upFields p) s (s.ethUp p mask) :=
  ethUp_cases (fieldsBut_refl _ s) (fieldsBut_ethUpShown s p _) (fieldsBut_preempting p _ (fieldsBut_ethUpShown s p _) (by simp))

theorem portsBut_ethUp (s : State) (p mask : Nat) : PortsBut [p] s (s.ethUp p mask) :=
  ethUp_cases (portsBut_refl _ s) (portsBut_ethUpShown s p _) (portsBut_trans (portsBut_ethUpShown s p _) (portsBut_preempting _ p _))

/-- Registers other than LINK_STS stay. -/
theorem get_upFields {s t : State} {p : Nat} (h : FieldsBut (upFields p) s t) {g : Fld} (hg : FieldOk g) (ho : g.off ≠ Reg.LINK_STS.off p) :
    t.get g = s.get g := by
  refine h g hg fun f hf => .inl ?_
  simp only [upFields, List.mem_cons, List.not_mem_nil, or_false] at hf
  rcases hf with rfl | rfl | rfl | rfl <;> exact ho

theorem linkCfg_ne_sts (p : Nat) : Reg.LINK_CFG.off p ≠ Reg.LINK_STS.off p := by
  unfold Reg.LINK_CFG.off Reg.LINK_STS.off
  omega

/-- The lanes of a port's sub-ports by BREAKOUT (R53). -/
theorem subLanes_ethernet {s : State} {p : Nat} (hn : s.native p = false) (hb : s.get (Reg.LINK_CFG.BREAKOUT p) ≤ 2) :
    (s.subports p = 1 ∧ ∀ b, s.subLanes p b = [0, 1, 2, 3]) ∨ (s.subports p = 2 ∧ ∀ b, s.subLanes p b = [2 * b, 2 * b + 1])
      ∨ (s.subports p = 4 ∧ ∀ b, s.subLanes p b = [b]) := by
  obtain h | h | h : s.get (Reg.LINK_CFG.BREAKOUT p) = 0 ∨ s.get (Reg.LINK_CFG.BREAKOUT p) = 1 ∨ s.get (Reg.LINK_CFG.BREAKOUT p) = 2 := by
    omega
  all_goals simp [State.subports, State.subLanes, hn, h]

theorem failedLanes_nil {s : State} {p : Nat} (h : ∀ i : Fin 4, s.get (Reg.LINK_LANE_HEALTH.FAILED p i) = 0) : s.failedLanes p = [] := by
  refine List.filter_eq_nil_iff.mpr fun i hi => ?_
  have hgood := h ⟨i, List.mem_range.mp hi⟩
  simp [State.flag, hgood]

section
variable {s : State} {p : Nat} (hn : s.native p = false) (hb : s.get (Reg.LINK_CFG.BREAKOUT p) ≤ 2)
include hn hb

/-- With no failed lane all sub-ports come up. -/
theorem subsOn_all (h : ∀ i : Fin 4, s.get (Reg.LINK_LANE_HEALTH.FAILED p i) = 0) : subsOn s p 15 = List.range (s.subports p) := by
  unfold subsOn
  rw [failedLanes_nil h]
  rcases subLanes_ethernet hn hb with ⟨hsub, hl⟩ | ⟨hsub, hl⟩ | ⟨hsub, hl⟩
  all_goals
    simp only [hsub, hl]
    decide

theorem lanesOf_all : lanesOf s p (List.range (s.subports p)) = 15 := by
  unfold lanesOf
  rcases subLanes_ethernet hn hb with ⟨hsub, hl⟩ | ⟨hsub, hl⟩ | ⟨hsub, hl⟩
  all_goals
    simp only [hsub, hl]
    decide

theorem subports_pos : 0 < s.subports p := by
  rcases subLanes_ethernet hn hb with ⟨hsub, -⟩ | ⟨hsub, -⟩ | ⟨hsub, -⟩ <;> omega

end

theorem get_ethUpShown_state (s : State) (p : Nat) (subs : List Nat) : (ethUpShown s p subs).get (Reg.LINK_STS.STATE p) = 2 := by
  unfold ethUpShown
  rw [get_put_apart rfl]
  exact get_put_value rfl rfl

theorem get_ethUpShown_active (s : State) (p : Nat) (subs : List Nat) :
    (ethUpShown s p subs).get (Reg.LINK_STS.ACTIVE p) = lanesOf s p subs % 16 := get_put_self _ _ _ (fieldOk_of_ble rfl)

theorem get_ethUpShown_preempt (s : State) (p : Nat) (subs : List Nat) :
    (ethUpShown s p subs).get (Reg.LINK_STS.PREEMPT_ACT p) = s.get (Reg.LINK_STS.PREEMPT_ACT p) := by
  unfold ethUpShown
  rw [get_put_apart rfl, get_put_apart rfl, get_setPort]

theorem ethUpShown_port (s : State) (p : Nat) (subs : List Nat) : (ethUpShown s p subs).port p = { s.port p with subsUp := subs } :=
  port_setPort_self ..

/-- Registers other than LINK_STS stay. -/
theorem get_ethUpShown_ne (s : State) {p : Nat} (subs : List Nat) {g : Fld} (h : g.off ≠ Reg.LINK_STS.off p) :
    (ethUpShown s p subs).get g = s.get g := by
  unfold ethUpShown
  rw [get_put_ne _ _ _ _ h, get_put_ne _ _ _ _ h, get_setPort]

theorem subports_ethUpShown (s : State) (p : Nat) (subs : List Nat) : (ethUpShown s p subs).subports p = s.subports p := by
  unfold State.subports State.native State.flag
  rw [get_ethUpShown_ne s subs (g := Reg.LINK_CFG.MODE p) (linkCfg_ne_sts p),
    get_ethUpShown_ne s subs (g := Reg.LINK_CFG.BREAKOUT p) (linkCfg_ne_sts p)]

theorem get_preempting_disjoint (s : State) {p : Nat} (subs : List Nat) {g : Fld} (hg : FieldOk g)
    (h : g.off ≠ Reg.LINK_STS.off p ∨ g.lo + g.w ≤ 8) : (s.preempting p subs).get g = s.get g := by
  unfold State.preempting
  rw [get_put_disjoint _ _ g _ (fieldOk_of_ble rfl) hg (h.imp_right .inr), get_setPort]

/-- The sub-ports that are up carry the port's lanes. -/
structure UpShown (s : State) (p : Nat) (subs : List Nat) (t : State) : Prop where
  state : t.get (Reg.LINK_STS.STATE p) = 2
  active : t.get (Reg.LINK_STS.ACTIVE p) = lanesOf s p subs % 16
  subsUp : (t.port p).subsUp = subs

theorem upShown_ethUpShown (s : State) (p : Nat) (subs : List Nat) : UpShown s p subs (ethUpShown s p subs) where
  state := get_ethUpShown_state s p subs
  active := get_ethUpShown_active s p subs
  subsUp := by rw [ethUpShown_port]

theorem upShown_preempting (s : State) (p : Nat) (subs : List Nat) : UpShown s p subs ((ethUpShown s p subs).preempting p subs) where
  state := (get_preempting_disjoint _ subs (fieldOk_of_ble rfl) (.inr (Nat.le_of_ble_eq_true rfl))).trans (get_ethUpShown_state s p subs)
  active := (get_preempting_disjoint _ subs (fieldOk_of_ble rfl) (.inr (Nat.le_of_ble_eq_true rfl))).trans (get_ethUpShown_active s p subs)
  subsUp := by rw [preempting_port, ethUpShown_port]

/-- PREEMPT_EN and VERIFY_DIS make preemption active at link up (R59). -/
abbrev UpPreempts (s : State) (p : Nat) : Prop := s.get (Reg.LINK_CFG.PREEMPT_EN p) = 1 ∧ s.get (Reg.LINK_CFG.VERIFY_DIS p) = 1

theorem ethUp_up {s : State} {p mask : Nat} (h : subsOn s p mask ≠ []) :
    s.ethUp p mask = if UpPreempts s p then (ethUpShown s p (subsOn s p mask)).preempting p (subsOn s p mask)
      else ethUpShown s p (subsOn s p mask) := by
  have hempty : (subsOn s p mask).isEmpty = false := by simpa using h
  have hen : (ethUpShown s p (subsOn s p mask)).flag (Reg.LINK_CFG.PREEMPT_EN p) = decide (s.get (Reg.LINK_CFG.PREEMPT_EN p) = 1) := by
    rw [flag_of_bit rfl, get_ethUpShown_ne s _ (g := Reg.LINK_CFG.PREEMPT_EN p) (linkCfg_ne_sts p)]
  have hdis : (ethUpShown s p (subsOn s p mask)).flag (Reg.LINK_CFG.VERIFY_DIS p) = decide (s.get (Reg.LINK_CFG.VERIFY_DIS p) = 1) := by
    rw [flag_of_bit rfl, get_ethUpShown_ne s _ (g := Reg.LINK_CFG.VERIFY_DIS p) (linkCfg_ne_sts p)]
  rw [ethUp_eq, hempty, if_neg Bool.false_ne_true, hen, hdis]
  simp only [Bool.and_eq_true, decide_eq_true_eq, UpPreempts]

/-- A link on all lanes of an Ethernet port with none failed. -/
theorem ethUp_whole {s : State} {p : Nat} (hn : s.native p = false) (hb : s.get (Reg.LINK_CFG.BREAKOUT p) ≤ 2)
    (hf : ∀ i : Fin 4, s.get (Reg.LINK_LANE_HEALTH.FAILED p i) = 0) :
    UpShown s p (List.range (s.subports p)) (s.ethUp p 15)
      ∧ (UpPreempts s p → (s.ethUp p 15).get (Reg.LINK_STS.PREEMPT_ACT p) = 1)
      ∧ (¬ UpPreempts s p → (s.ethUp p 15).get (Reg.LINK_STS.PREEMPT_ACT p) = s.get (Reg.LINK_STS.PREEMPT_ACT p)) := by
  have hsubs := subsOn_all hn hb hf
  have hne : subsOn s p 15 ≠ [] := by
    rw [hsubs]
    simpa using (subports_pos hn hb).ne'
  rw [ethUp_up hne, hsubs]
  split
  · next h =>
    refine ⟨upShown_preempting s p _, fun _ => get_preempting_act fun b hb => .inr ?_, fun hno => absurd h hno⟩
    rw [subports_ethUpShown] at hb
    exact List.mem_range.mpr hb
  · next h => exact ⟨upShown_ethUpShown s p _, fun hyes => absurd hyes h, fun _ => get_ethUpShown_preempt s p _⟩

/-- With a failed lane the one sub-port of BREAKOUT 0 stays down. -/
theorem ethUp_failed {s : State} {p mask : Nat} (hn : s.native p = false) (hb : s.get (Reg.LINK_CFG.BREAKOUT p) = 0)
    (hf : ∃ i : Fin 4, s.get (Reg.LINK_LANE_HEALTH.FAILED p i) = 1) : s.ethUp p mask = s := by
  obtain ⟨i, hi⟩ := hf
  have hmem : i.val ∈ s.failedLanes p := by simp [State.failedLanes, State.flag, hi]
  have hsub : s.subports p = 1 := by simp [State.subports, hn, hb]
  have hlanes : s.subLanes p 0 = [0, 1, 2, 3] := by simp [State.subLanes, hn, hb]
  have hnone : subsOn s p mask = [] := by
    refine List.filter_eq_nil_iff.mpr fun b hin hall => ?_
    rw [hsub, List.mem_range, Nat.lt_one_iff] at hin
    subst hin
    have hlane : i.val ∈ s.subLanes p 0 := by
      have hfour : ∀ k : Fin 4, k.val ∈ [0, 1, 2, 3] := by decide
      rw [hlanes]
      exact hfour i
    simpa [hmem] using List.all_eq_true.mp hall i hlane
  rw [ethUp_eq, hnone]
  rfl

/-- A port that PCS_LINK_UP acts on. -/
abbrev ComesUp (s : State) (p : Nat) : Prop := s.native p = false ∧ s.get (Reg.LINK_CFG.ENABLE p) = 1

theorem pcsUpEff_ignored {s : State} {p : Nat} (h : ¬ ComesUp s p) : pcsUpEff p s = s := by
  have hen : s.flag (Reg.LINK_CFG.ENABLE p) = decide (s.get (Reg.LINK_CFG.ENABLE p) = 1) := flag_of_bit rfl
  unfold pcsUpEff
  rw [if_pos]
  by_contra hall
  simp only [hen, Bool.or_eq_true, Bool.not_eq_true', decide_eq_false_iff_not, not_or, Bool.not_eq_true, not_not] at hall
  exact h hall

theorem pcsUpEff_acts {s : State} {p : Nat} (h : ComesUp s p) :
    pcsUpEff p s = if (s.ethUp p 15).linkOn p then (s.ethUp p 15).put (Reg.LINK_STS.PEER p) 1 else s.ethUp p 15 := by
  obtain ⟨hn, he⟩ := h
  simp [pcsUpEff, State.flag, hn, he]

theorem pcsUpEff_cases {P : State → Prop} {s : State} {p : Nat} (hkeep : P s) (hup : P (s.ethUp p 15))
    (hpeer : P ((s.ethUp p 15).put (Reg.LINK_STS.PEER p) 1)) : P (pcsUpEff p s) := by
  by_cases h : ComesUp s p
  · rw [pcsUpEff_acts h]
    split
    · exact hpeer
    · exact hup
  · rwa [pcsUpEff_ignored h]

theorem pcsUpEff_whole {s : State} {p : Nat} (h : ComesUp s p) (hb : s.get (Reg.LINK_CFG.BREAKOUT p) ≤ 2)
    (hf : ∀ i : Fin 4, s.get (Reg.LINK_LANE_HEALTH.FAILED p i) = 0) :
    (pcsUpEff p s).get (Reg.LINK_STS.STATE p) = 2 ∧ (pcsUpEff p s).get (Reg.LINK_STS.ACTIVE p) = 15
      ∧ (pcsUpEff p s).get (Reg.LINK_STS.PEER p) = 1 ∧ ((pcsUpEff p s).port p).subsUp = List.range (s.subports p)
      ∧ (UpPreempts s p → (pcsUpEff p s).get (Reg.LINK_STS.PREEMPT_ACT p) = 1)
      ∧ (¬ UpPreempts s p → (pcsUpEff p s).get (Reg.LINK_STS.PREEMPT_ACT p) = s.get (Reg.LINK_STS.PREEMPT_ACT p)) := by
  obtain ⟨hshown, hpre, hkeep⟩ := ethUp_whole h.1 hb hf
  have hon : (s.ethUp p 15).linkOn p = true := by simp [State.linkOn, hshown.state]
  rw [pcsUpEff_acts h, if_pos hon]
  refine ⟨?_, ?_, get_put_value rfl rfl, hshown.subsUp, fun hy => ?_, fun hno => ?_⟩
  · rw [get_put_apart rfl, hshown.state]
  · rw [get_put_apart rfl, hshown.active,
      lanesOf_all h.1 hb]
  · rw [get_put_apart rfl, hpre hy]
  · rw [get_put_apart rfl, hkeep hno]

theorem pcsUpEff_failed {s : State} {p : Nat} (hb : s.get (Reg.LINK_CFG.BREAKOUT p) = 0)
    (hf : ∃ i : Fin 4, s.get (Reg.LINK_LANE_HEALTH.FAILED p i) = 1) :
    (pcsUpEff p s).get (Reg.LINK_STS.STATE p) = s.get (Reg.LINK_STS.STATE p) := by
  by_cases h : ComesUp s p
  · rw [pcsUpEff_acts h, ethUp_failed h.1 hb hf]
    split
    · exact get_put_apart rfl
    · rfl
  · rw [pcsUpEff_ignored h]

theorem completes_pcsLinkUp (s : State) (p : PortId) :
    Completes (.pcsLinkUp p) s fun t =>
      ∃ u : State, t = u.pathsChanged ∧ (s.native p = true ∨ s.get (Reg.LINK_CFG.ENABLE p) = 0 → u = s)
      ∧ (s.native p = false → s.get (Reg.LINK_CFG.ENABLE p) = 1 → s.get (Reg.LINK_CFG.BREAKOUT p) ≤ 2 →
          (∀ i : Fin 4, s.get (Reg.LINK_LANE_HEALTH.FAILED p i) = 0) → u.get (Reg.LINK_STS.STATE p) = 2 ∧ u.get (Reg.LINK_STS.ACTIVE p) = 15
          ∧ u.get (Reg.LINK_STS.PEER p) = 1 ∧ (u.port p).subsUp = List.range (s.subports p)
          ∧ (s.get (Reg.LINK_CFG.PREEMPT_EN p) = 1 → s.get (Reg.LINK_CFG.VERIFY_DIS p) = 1 → u.get (Reg.LINK_STS.PREEMPT_ACT p) = 1)
          ∧ (s.get (Reg.LINK_CFG.PREEMPT_EN p) = 0 ∨ s.get (Reg.LINK_CFG.VERIFY_DIS p) = 0 →
              u.get (Reg.LINK_STS.PREEMPT_ACT p) = s.get (Reg.LINK_STS.PREEMPT_ACT p)))
      ∧ (s.get (Reg.LINK_CFG.BREAKOUT p) = 0 → (∃ i : Fin 4, s.get (Reg.LINK_LANE_HEALTH.FAILED p i) = 1) →
          u.get (Reg.LINK_STS.STATE p) = s.get (Reg.LINK_STS.STATE p))
      ∧ PortsBut [p.val] s u ∧ FieldsBut [Reg.LINK_STS.STATE p, Reg.LINK_STS.ACTIVE p, Reg.LINK_STS.PEER p, Reg.LINK_STS.PREEMPT_ACT p] s u
      ∧ u = { s with regs := u.regs, ports := u.ports } ∧ TrafficOnly s t := by
  have hsame := pcsUpEff_same p s
  have hfields := fieldsBut_ethUp s p 15
  refine ⟨_, rfl, pcsUpEff p s, rfl, fun h => pcsUpEff_ignored ?_, fun hn he hb hf => ?_, pcsUpEff_failed,
    pcsUpEff_cases (P := PortsBut [p.val] s) (portsBut_refl _ s) (portsBut_ethUp s p 15) (portsBut_of_ports (portsBut_ethUp s p 15) rfl),
    pcsUpEff_cases (fieldsBut_refl _ s) hfields (fieldsBut_put _ _ hfields (fieldOk_of_ble rfl) (by simp)), eq_patch_of_same hsame,
    trafficOnly_of_same ((hsame.mono (by decide)).trans (pathsChanged_same _)) (by decide)⟩
  · rcases h with h | h <;> simp [h]
  · obtain ⟨hstate, hact, hpeer, hsubs, hpre, hkeep⟩ := pcsUpEff_whole ⟨hn, he⟩ hb hf
    refine ⟨hstate, hact, hpeer, hsubs, fun hp hd => hpre ⟨hp, hd⟩, fun h => hkeep fun hboth => ?_⟩
    rcases h with h | h
    · exact absurd (h.symm.trans hboth.1) (by decide)
    · exact absurd (h.symm.trans hboth.2) (by decide)

/-! PORT_TRAINED -/

theorem lowered_of_get {s t : State} (p : Nat) (hlo : t.get Reg.TALLY_LOWERED_LO.PORTS_LO = s.get Reg.TALLY_LOWERED_LO.PORTS_LO)
    (hhi : t.get Reg.TALLY_LOWERED_HI.PORTS_HI = s.get Reg.TALLY_LOWERED_HI.PORTS_HI) : t.lowered p = s.lowered p := by
  unfold State.lowered
  rw [hlo, hhi]

/-- What a trained port shows: of the registers nothing but LINK_STS differs. -/
structure TrainedShown (p : Nat) (s t : State) : Prop where
  regs : ∀ g : Fld, FieldOk g → g.off < 0x300000 → g.off ≠ Reg.LINK_STS.off p → t.get g = s.get g
  portRst : t.portRst = s.portRst

theorem TrainedShown.lowered {p : Nat} {s t : State} (h : TrainedShown p s t) (q : Nat) : t.lowered q = s.lowered q := by
  have hne (o : Nat) (ho : o < 0x200000) : o ≠ Reg.LINK_STS.off p := by
    have hhigh := linkSts_high p
    omega
  exact lowered_of_get q (h.regs _ (by decide) (by decide) (hne _ (by decide))) (h.regs _ (by decide) (by decide) (hne _ (by decide)))

/-- What a native port that is back shows. -/
def nativeUpShown (s : State) (p mask : Nat) : State :=
  ((s.put (Reg.LINK_STS.STATE p) (if s.inP2 then 3 else 2)).put (Reg.LINK_STS.ACTIVE p) mask).setPort p
    { s.port p with trained := mask, preMask := none }

theorem nativeUp_eq (s : State) (p mask : Nat) :
    s.nativeUp p mask = match (s.port p).preMask with
      | some m => if m ≠ mask then ((nativeUpShown s p mask).put (Reg.LINK_STS.LANE_EVT p) 1).event Ev.laneChanged
          (leBytes 1 p ++ leBytes 1 mask ++ leBytes 1 3) else nativeUpShown s p mask
      | none => nativeUpShown s p mask := rfl

/-- Whether or not a change of mask is reported. -/
theorem nativeUp_cases (s : State) (p mask : Nat) :
    (s.nativeUp p mask = nativeUpShown s p mask ∧ ∀ m, (s.port p).preMask = some m → m = mask)
      ∨ DropsOnly ((nativeUpShown s p mask).put (Reg.LINK_STS.LANE_EVT p) 1) (s.nativeUp p mask) := by
  rw [nativeUp_eq]
  split
  · next m h =>
    split
    · exact .inr (dropsOnly_event _ _ _)
    · next hm => exact .inl ⟨rfl, fun k hk => by rw [h, Option.some.injEq] at hk; omega⟩
  · next h => exact .inl ⟨rfl, fun k hk => by rw [h] at hk; exact absurd hk (by simp)⟩

theorem nativeUpShown_port (s : State) (p mask : Nat) :
    (nativeUpShown s p mask).port p = { s.port p with trained := mask, preMask := none } := port_setPort_self ..

theorem get_nativeUpShown_active {s : State} {p mask : Nat} (hm : mask < 16) :
    (nativeUpShown s p mask).get (Reg.LINK_STS.ACTIVE p) = mask := by
  unfold nativeUpShown
  rw [get_setPort]
  exact get_put_fits _ _ _ (fieldOk_of_ble rfl) hm

theorem get_nativeUpShown_state (s : State) (p mask : Nat) :
    (nativeUpShown s p mask).get (Reg.LINK_STS.STATE p) = if s.inP2 then 3 else 2 := by
  unfold nativeUpShown
  rw [get_setPort, get_put_apart rfl]
  refine get_put_fits _ _ _ (fieldOk_of_ble rfl) ?_
  split <;> exact Nat.le_of_ble_eq_true rfl

theorem get_nativeUpShown_ne (s : State) {p : Nat} (mask : Nat) {g : Fld} (h : g.off ≠ Reg.LINK_STS.off p) :
    (nativeUpShown s p mask).get g = s.get g := by
  unfold nativeUpShown
  rw [get_setPort, get_put_ne _ _ _ _ h, get_put_ne _ _ _ _ h]

/-- A native port that is back carries its mask. -/
theorem nativeUp_shows (s : State) (p : PortId) {mask : Nat} (hm : mask < 16) :
    TrainedShown p s (s.nativeUp p mask) ∧ (s.nativeUp p mask).get (Reg.LINK_STS.ACTIVE p) = mask
      ∧ (s.nativeUp p mask).get (Reg.LINK_STS.STATE p) = (if s.inP2 then 3 else 2)
      ∧ ((s.nativeUp p mask).port p).trained = mask ∧ ((s.nativeUp p mask).port p).preMask = none
      ∧ (∀ m, (s.port p).preMask = some m → m ≠ mask → (s.nativeUp p mask).get (Reg.LINK_STS.LANE_EVT p) = 1) := by
  have hrst : (s.nativeUp p mask).portRst = s.portRst := (nativeUp_same s p mask).portRst rfl
  rcases nativeUp_cases s p mask with ⟨e, hpre⟩ | hdrop
  · rw [e, get_nativeUpShown_active hm, get_nativeUpShown_state, nativeUpShown_port]
    rw [e] at hrst
    exact ⟨⟨fun g _ _ hne => get_nativeUpShown_ne s mask hne, hrst⟩, rfl, rfl, rfl, rfl, fun m h hne => absurd (hpre m h) hne⟩
  · have hport := hdrop.port p
    rw [port_put, nativeUpShown_port] at hport
    refine ⟨⟨fun g _ hlow hne => ?_, hrst⟩, ?_, ?_, by rw [hport], by rw [hport], fun _ _ _ => ?_⟩
    · rw [hdrop.get hlow, get_put_ne _ _ _ _ hne, get_nativeUpShown_ne s mask hne]
    · rw [hdrop.get (linkSts_low p), get_put_apart rfl, get_nativeUpShown_active hm]
    · rw [hdrop.get (linkSts_low p), get_put_apart rfl, get_nativeUpShown_state]
    · rw [hdrop.get (linkSts_low p)]
      exact get_put_value rfl rfl

theorem trainedShown_ethUp (s : State) (p mask : Nat) : TrainedShown p s (s.ethUp p mask) where
  regs _ hg _ hne := get_upFields (fieldsBut_ethUp s p mask) hg hne
  portRst := (ethUp_same s p mask).portRst rfl

/-- A port in TRAINING with a mask to come back with. -/
abbrev Trains (s : State) (p mask : Nat) : Prop := s.get (Reg.LINK_STS.STATE p) = 1 ∧ mask ≠ 0

theorem portTrainedEff_idle {s : State} {p mask : Nat} (h : ¬ Trains s p mask) : portTrainedEff p mask s = s :=
  if_pos (by simp only [Trains] at h; tauto)

/-- The port that is back, before flows move. -/
def linkBack (s : State) (p mask : Nat) : State :=
  if (s.setLowered p false).native p then (s.setLowered p false).nativeUp p mask else (s.setLowered p false).ethUp p mask

theorem portTrainedEff_trains {s : State} {p mask : Nat} (h : Trains s p mask) :
    portTrainedEff p mask s = (linkBack s p mask).refreshBackups :=
  if_neg (by simp only [Trains] at h; tauto)

theorem linkCfg_high (p : Nat) : 0x200000 ≤ Reg.LINK_CFG.off p := by
  unfold Reg.LINK_CFG.off
  omega

theorem native_setLowered (s : State) (p q : Nat) (b : Bool) : (s.setLowered p b).native q = s.native q := by
  unfold State.native State.flag
  rw [get_setLowered_ne s p b (linkCfg_high q)]

theorem setLowered_port (s : State) (p q : Nat) (b : Bool) : (s.setLowered p b).port q = s.port q := port_of_ports (setLowered_ports s p b) q

theorem get_setLowered_apart (s : State) (p : Nat) (b : Bool) {g : Fld} (hlo : g.off ≠ Reg.TALLY_LOWERED_LO.off)
    (hhi : g.off ≠ Reg.TALLY_LOWERED_HI.off) : (s.setLowered p b).get g = s.get g := by
  unfold State.setLowered
  split
  · exact get_put_ne _ _ _ _ hlo
  · exact get_put_ne _ _ _ _ hhi

theorem inP2_setLowered (s : State) (p : Nat) (b : Bool) : (s.setLowered p b).inP2 = s.inP2 := by
  unfold State.inP2
  rw [get_setLowered_apart s p b (by decide) (by decide)]

/-- A port reset that has ended. -/
def resetDone (s : State) : State := { s.put Reg.GLB_PORT_RST.BUSY 0 with portRst := none }

theorem get_resetDone_ne (s : State) {g : Fld} (h : g.off ≠ Reg.GLB_PORT_RST.off) : (resetDone s).get g = s.get g := get_put_ne s _ _ _ h

theorem get_resetDone_busy (s : State) : (resetDone s).get Reg.GLB_PORT_RST.BUSY = 0 := get_put_fits s _ _ (by decide) (by decide)

/-- The effect of PORT_TRAINED, before flows and queue pairs follow. -/
def trainedBack (p mask : Nat) (s : State) : State :=
  if s.get (Reg.LINK_STS.STATE p) = 1 ∧ (portTrainedEff p mask s).get (Reg.LINK_STS.STATE p) ≠ 1 ∧ (portTrainedEff p mask s).portRst = some p then
    resetDone (portTrainedEff p mask s)
  else portTrainedEff p mask s

theorem trainedEff_eq (p mask : Nat) (s : State) : trainedEff p mask s = (trainedBack p mask s).pathsChanged.settlePower := rfl

theorem trainedBack_idle {s : State} {p mask : Nat} (h : ¬ Trains s p mask) : trainedBack p mask s = s := by
  unfold trainedBack
  rw [portTrainedEff_idle h, if_neg]
  rintro ⟨h1, h2, -⟩
  exact h2 h1

theorem portTrainedEff_portRst (p mask : Nat) (s : State) : (portTrainedEff p mask s).portRst = s.portRst :=
  (portTrainedEff_same p mask s).portRst rfl

theorem trainedBack_ports (p mask : Nat) (s : State) : (trainedBack p mask s).ports = (portTrainedEff p mask s).ports := by
  unfold trainedBack
  split <;> rfl

theorem get_trainedBack {g : Fld} (p mask : Nat) (s : State) (h : g.off ≠ Reg.GLB_PORT_RST.off) :
    (trainedBack p mask s).get g = (portTrainedEff p mask s).get g := by
  unfold trainedBack
  split
  · exact get_resetDone_ne _ h
  · rfl

theorem trainedBack_portRst_other {s : State} {p mask : Nat} (h : s.portRst ≠ some p) : (trainedBack p mask s).portRst = s.portRst := by
  unfold trainedBack
  rw [portTrainedEff_portRst, if_neg (fun hc => h hc.2.2), portTrainedEff_portRst]

theorem trainedBack_ends {s : State} {p mask : Nat} (h : s.portRst = some p) (h1 : s.get (Reg.LINK_STS.STATE p) = 1)
    (h2 : (portTrainedEff p mask s).get (Reg.LINK_STS.STATE p) ≠ 1) :
    (trainedBack p mask s).get Reg.GLB_PORT_RST.BUSY = 0 ∧ (trainedBack p mask s).portRst = none := by
  unfold trainedBack
  rw [portTrainedEff_portRst, if_pos ⟨h1, h2, h⟩]
  exact ⟨get_resetDone_busy _, rfl⟩

section
variable {s : State} {p : PortId} {mask : Nat} (h : Trains s p mask)
include h

theorem get_portTrainedEff {g : Fld} (hg : g.off < 0x300000) : (portTrainedEff p mask s).get g = (linkBack s p mask).get g := by
  rw [portTrainedEff_trains h]
  exact (dropsOnly_refreshBackups _ _).get hg

theorem get_trainedBack_link {g : Fld} (hg : g.off < 0x300000) (hr : g.off ≠ Reg.GLB_PORT_RST.off) :
    (trainedBack p mask s).get g = (linkBack s p mask).get g := (get_trainedBack p mask s hr).trans (get_portTrainedEff h hg)

theorem trainedBack_port : (trainedBack p mask s).port p = (linkBack s p mask).port p := by
  refine (port_of_ports (trainedBack_ports p mask s) p).trans ?_
  rw [portTrainedEff_trains h]
  exact port_of_ports ((refreshBackups_same _ _).ports rfl) p

/-- The port reset that waits for the port ends once the port has left TRAINING. -/
theorem trainedBack_ends_reset (hr : s.portRst = some p.val) (hs : (linkBack s p mask).get (Reg.LINK_STS.STATE p) ≠ 1) :
    (trainedBack p mask s).get Reg.GLB_PORT_RST.BUSY = 0 ∧ (trainedEff p mask s).portRst = none := by
  obtain ⟨hbusy, hrst⟩ := trainedBack_ends (mask := mask) hr h.1 (by rwa [get_portTrainedEff h (linkSts_low p)])
  refine ⟨hbusy, ?_⟩
  rw [trainedEff_eq, (settlePower_same _).portRst rfl, (pathsChanged_same _).portRst rfl, hrst]

end

/-- The port is shown as not lowered. -/
theorem linkBack_lowered (s : State) (p : PortId) {mask : Nat} (hm : mask < 16) : (linkBack s p mask).lowered p = false := by
  unfold linkBack
  split
  · rw [(nativeUp_shows _ p hm).1.lowered, lowered_setLowered]
  · rw [(trainedShown_ethUp _ p mask).lowered, lowered_setLowered]

theorem linkSts_ne_portRst (p : Nat) : Reg.LINK_STS.off p ≠ Reg.GLB_PORT_RST.off := by
  unfold Reg.LINK_STS.off Reg.GLB_PORT_RST.off
  omega

theorem trainedBack_lowered {s : State} {p : PortId} {mask : Nat} (h : Trains s p mask) (hm : mask < 16) :
    (trainedBack p mask s).lowered p = false := by
  refine (lowered_of_get p ?_ ?_).trans (linkBack_lowered s p hm)
  · exact get_trainedBack_link h (by decide) (by decide)
  · exact get_trainedBack_link h (by decide) (by decide)

/-- A native port that is back. -/
theorem trainedBack_native {s : State} {p : PortId} {mask : Nat} (h : Trains s p mask) (hm : mask < 16) (hn : s.native p = true) :
    (trainedBack p mask s).get (Reg.LINK_STS.ACTIVE p) = mask ∧ (trainedBack p mask s).get (Reg.LINK_STS.STATE p) = (if s.inP2 then 3 else 2)
      ∧ ((trainedBack p mask s).port p).trained = mask ∧ ((trainedBack p mask s).port p).preMask = none
      ∧ (s.portRst = some p.val → (trainedBack p mask s).get Reg.GLB_PORT_RST.BUSY = 0 ∧ (trainedEff p mask s).portRst = none)
      ∧ (∀ m, (s.port p).preMask = some m → m ≠ mask → (trainedBack p mask s).get (Reg.LINK_STS.LANE_EVT p) = 1) := by
  have hback : linkBack s p mask = (s.setLowered p false).nativeUp p mask := by
    rw [linkBack, native_setLowered, hn, if_pos rfl]
  obtain ⟨-, hact, hstate, htr, hpre, hevt⟩ := nativeUp_shows (s.setLowered p false) p hm
  rw [inP2_setLowered] at hstate
  rw [setLowered_port] at hevt
  rw [← hback] at hact hstate htr hpre hevt
  have hsts (g : Fld) (hg : g.off = Reg.LINK_STS.off p) : (trainedBack p mask s).get g = (linkBack s p mask).get g :=
    get_trainedBack_link h (by rw [hg]; exact linkSts_low p) (by rw [hg]; exact linkSts_ne_portRst p)
  rw [trainedBack_port h]
  refine ⟨(hsts _ rfl).trans hact, (hsts _ rfl).trans hstate, htr, hpre, fun hr => trainedBack_ends_reset h hr ?_,
    fun m hm hne => (hsts _ rfl).trans (hevt m hm hne)⟩
  rw [hstate]
  split <;> decide

/-- An Ethernet port that is back on all its lanes. -/
theorem trainedBack_ethernet {s : State} {p : PortId} (h : Trains s p 15) (hn : s.native p = false)
    (hb : s.get (Reg.LINK_CFG.BREAKOUT p) ≤ 2) (hf : ∀ i : Fin 4, s.get (Reg.LINK_LANE_HEALTH.FAILED p i) = 0) :
    (trainedBack p 15 s).get (Reg.LINK_STS.ACTIVE p) = 15 ∧ (trainedBack p 15 s).get (Reg.LINK_STS.STATE p) = 2
      ∧ (s.portRst = some p.val → (trainedBack p 15 s).get Reg.GLB_PORT_RST.BUSY = 0 ∧ (trainedEff p 15 s).portRst = none) := by
  have hn' : (s.setLowered p false).native p = false := by rw [native_setLowered, hn]
  have hb' : (s.setLowered p false).get (Reg.LINK_CFG.BREAKOUT p) ≤ 2 := by rwa [get_setLowered_ne s p false (linkCfg_high p)]
  have hf' : ∀ i : Fin 4, (s.setLowered p false).get (Reg.LINK_LANE_HEALTH.FAILED p i) = 0 := by
    intro i
    rw [get_setLowered_ne s p false (g := Reg.LINK_LANE_HEALTH.FAILED p i) (show 0x200000 ≤ Reg.LINK_LANE_HEALTH.off p i by
      unfold Reg.LINK_LANE_HEALTH.off; omega), hf i]
  have hback : linkBack s p 15 = (s.setLowered p false).ethUp p 15 := by
    rw [linkBack, hn', if_neg Bool.false_ne_true]
  obtain ⟨hshown, -⟩ := ethUp_whole hn' hb' hf'
  rw [← hback] at hshown
  have hsts (g : Fld) (hg : g.off = Reg.LINK_STS.off p) : (trainedBack p 15 s).get g = (linkBack s p 15).get g :=
    get_trainedBack_link h (by rw [hg]; exact linkSts_low p) (by rw [hg]; exact linkSts_ne_portRst p)
  refine ⟨?_, (hsts _ rfl).trans hshown.state, fun hr => trainedBack_ends_reset h hr ?_⟩
  · rw [hsts _ rfl, hshown.active, lanesOf_all hn' hb']
  · rw [hshown.state]
    decide

theorem trafficOnly_portRst {m : Nat} {s t : State} (h : Same m s t) (hm : m ||| 139846296498170 = 139846296498170) :
    TrafficOnly { s with portRst := t.portRst } t := eq_patch_of_same (h.mono hm)

theorem completes_portTrained (s : State) (p : PortId) (mask : BitVec 4) :
    Completes (.portTrained p mask) s fun t =>
      ∃ u : State, t = u.pathsChanged.settlePower ∧ (s.get (Reg.LINK_STS.STATE p) ≠ 1 ∨ mask = 0 → u = s)
      ∧ (s.get (Reg.LINK_STS.STATE p) = 1 → mask ≠ 0 → u.lowered p = false
          ∧ (s.native p = true → u.get (Reg.LINK_STS.ACTIVE p) = mask.toNat ∧ u.get (Reg.LINK_STS.STATE p) = (if s.inP2 then 3 else 2)
            ∧ (u.port p).trained = mask.toNat ∧ (u.port p).preMask = none
            ∧ (s.portRst = some p.val → u.get Reg.GLB_PORT_RST.BUSY = 0 ∧ t.portRst = none)
            ∧ (∀ m, (s.port p).preMask = some m → m ≠ mask.toNat → u.get (Reg.LINK_STS.LANE_EVT p) = 1))
          ∧ (s.native p = false → mask = 15 → s.get (Reg.LINK_CFG.BREAKOUT p) ≤ 2 → (∀ i : Fin 4, s.get (Reg.LINK_LANE_HEALTH.FAILED p i) = 0) →
            u.get (Reg.LINK_STS.ACTIVE p) = 15 ∧ u.get (Reg.LINK_STS.STATE p) = 2
            ∧ (s.portRst = some p.val → u.get Reg.GLB_PORT_RST.BUSY = 0 ∧ t.portRst = none)))
      ∧ (s.portRst ≠ some p.val → t.portRst = s.portRst)
      ∧ TrafficOnly { s with portRst := t.portRst } t := by
  refine ⟨trainedEff p mask.toNat s, rfl, trainedBack p mask.toNat s, trainedEff_eq p _ s, fun h => trainedBack_idle ?_, fun h1 hm => ?_,
    fun h => ?_, trafficOnly_portRst (trainedEff_same p _ s) (by decide)⟩
  · rintro ⟨h1, h2⟩
    rcases h with h | h
    · exact h h1
    · exact h2 (by rw [h]; rfl)
  · have htrains : Trains s p mask.toNat := ⟨h1, fun h0 => hm (BitVec.eq_of_toNat_eq h0)⟩
    refine ⟨trainedBack_lowered htrains mask.isLt, trainedBack_native htrains mask.isLt, fun hn he hb hf => ?_⟩
    subst he
    exact trainedBack_ethernet htrains hn hb hf
  · rw [trainedEff_eq, (settlePower_same _).portRst rfl, (pathsChanged_same _).portRst rfl, trainedBack_portRst_other h]

/-! PORT_RESET -/

/-- A reset of a port begins: GLB_PORT_RST names it, and what its buffer had paused is forgotten. -/
def resetBegun (p : Nat) (s : State) : State :=
  { ((s.put Reg.GLB_PORT_RST.PORT p).put Reg.GLB_PORT_RST.BUSY 1).setPort p { s.port p with xoff := [], missOff := [], preMask := none } with
    portRst := some p }

/-- What was queued on the port goes. -/
def resetDrained (p : Nat) (s : State) : State :=
  (s.port p).txq.foldl (fun s f => (s.unqueued f).lostDrop f) (s.setPort p (unqueuedPort (s.port p)))

theorem portResetEff_begins {s : State} {h : HostId} {v : Word} (hok : s.portRstOk h (wordField v 0 6) = true)
    (hb : s.get Reg.GLB_PORT_RST.BUSY = 0) :
    portResetEff h v s = ((resetDrained (wordField v 0 6) (resetBegun (wordField v 0 6) s)).toTraining (wordField v 0 6)).pathsChanged := by
  have hbusy : s.flag Reg.GLB_PORT_RST.BUSY = false := by simp [State.flag, hb]
  unfold portResetEff
  dsimp only
  rw [hok, hbusy]
  rfl

theorem dropsOnly_resetDrained (p : Nat) (s : State) : DropsOnly (s.setPort p (unqueuedPort (s.port p))) (resetDrained p s) :=
  dropsOnly_discard _ _

theorem resetDrained_portRst (p : Nat) (s : State) : (resetDrained p s).portRst = s.portRst := by
  have hdrop (l : List Frame) (u : State) : (l.foldl (fun s f => (s.unqueued f).lostDrop f) u).portRst = u.portRst := by
    induction l generalizing u with
    | nil => rfl
    | cons f l ih => exact (ih _).trans (((lostDrop_same _ f).portRst rfl).trans ((unqueued_same u f).portRst rfl))
  exact hdrop _ _

theorem resetBegun_port (p : Nat) (s : State) :
    (resetBegun p s).port p = { s.port p with xoff := [], missOff := [], preMask := none } := port_setPort_self ..

theorem get_resetBegun_port {s : State} {p : Nat} (hp : p < 64) : (resetBegun p s).get Reg.GLB_PORT_RST.PORT = p :=
  (get_put_disjoint (s.put Reg.GLB_PORT_RST.PORT p) Reg.GLB_PORT_RST.BUSY Reg.GLB_PORT_RST.PORT 1 (by decide) (by decide) (by decide)).trans
    (get_put_fits s _ _ (by decide) hp)

theorem get_resetBegun_busy (s : State) (p : Nat) : (resetBegun p s).get Reg.GLB_PORT_RST.BUSY = 1 :=
  get_put_fits (s.put Reg.GLB_PORT_RST.PORT p) Reg.GLB_PORT_RST.BUSY 1 (by decide) (by decide)

/-- A port whose reset has begun is in TRAINING. -/
theorem reset_trains (s : State) (p : PortId) :
    let u := (resetDrained p (resetBegun p s)).toTraining p
    u.portRst = some p.val ∧ u.get Reg.GLB_PORT_RST.PORT = p.val ∧ u.get Reg.GLB_PORT_RST.BUSY = 1 ∧ u.get (Reg.LINK_STS.STATE p) = 1
      ∧ u.get (Reg.LINK_STS.ACTIVE p) = 0 ∧ (u.port p).txq = [] ∧ (u.port p).trained = 0 ∧ (u.port p).preMask = none := by
  have hdrop := dropsOnly_resetDrained p (resetBegun p s)
  have hrst (g : Fld) (hg : g.off = Reg.GLB_PORT_RST.off) :
      ((resetDrained p (resetBegun p s)).toTraining p).get g = (resetBegun p s).get g := by
    have hlow : g.off < 0x300000 := by rw [hg]; decide
    rw [get_toTraining _ p hlow, get_linkOffShown_ne _ (by rw [hg]; exact (linkSts_ne_portRst p).symm), hdrop.get hlow, get_setPort]
  have hport := hdrop.port p
  rw [port_setPort_self, resetBegun_port] at hport
  refine ⟨?_, (hrst _ rfl).trans (get_resetBegun_port p.isLt), (hrst _ rfl).trans (get_resetBegun_busy s p), ?_, ?_, toTraining_txq _ p, ?_, ?_⟩
  · rw [(toTraining_same _ _).portRst rfl, resetDrained_portRst]
    rfl
  · rw [get_toTraining _ p (g := Reg.LINK_STS.STATE p) (linkSts_low p), get_linkOffShown_state]
  · rw [get_toTraining _ p (g := Reg.LINK_STS.ACTIVE p) (linkSts_low p), get_linkOffShown_active]
  · rw [toTraining_port]
  · rw [toTraining_port, hport]

theorem portResetEff_refused {s : State} {h : HostId} {v : Word} (hok : s.portRstOk h (wordField v 0 6) = false) :
    portResetEff h v s = s.writeIgnored h Reg.GLB_PORT_RST.off := by
  simp [portResetEff, hok]

theorem portResetEff_busy {s : State} {h : HostId} {v : Word} (hok : s.portRstOk h (wordField v 0 6) = true)
    (hb : s.get Reg.GLB_PORT_RST.BUSY = 1) : portResetEff h v s = s := by
  simp [portResetEff, State.flag, hok, hb]

theorem completes_portReset (s : State) (h : HostId) (v : Word) (ht : Takes s h Reg.GLB_PORT_RST.off) :
    Completes (.portReset h v) s fun t =>
      (s.portRstOk h (wordField v 0 6) = false → t = s.writeIgnored h Reg.GLB_PORT_RST.off)
      ∧ (s.portRstOk h (wordField v 0 6) = true → s.get Reg.GLB_PORT_RST.BUSY = 1 → t = s)
      ∧ (s.portRstOk h (wordField v 0 6) = true → s.get Reg.GLB_PORT_RST.BUSY = 0 → ∃ u : State, t = u.pathsChanged
          ∧ u.portRst = some (wordField v 0 6) ∧ u.get Reg.GLB_PORT_RST.PORT = wordField v 0 6 ∧ u.get Reg.GLB_PORT_RST.BUSY = 1
          ∧ u.get (Reg.LINK_STS.STATE (wordField v 0 6)) = 1 ∧ u.get (Reg.LINK_STS.ACTIVE (wordField v 0 6)) = 0
          ∧ (u.port (wordField v 0 6)).txq = [] ∧ (u.port (wordField v 0 6)).trained = 0 ∧ (u.port (wordField v 0 6)).preMask = none)
      ∧ TrafficOnly { s with portRst := t.portRst } t := by
  refine ⟨portResetEff h v s, congrArg Host.Outcome.next (hostWrite_takes _ ht), portResetEff_refused, portResetEff_busy, fun hok hb => ?_,
    trafficOnly_portRst (portResetEff_same h v s) (by decide)⟩
  exact ⟨_, portResetEff_begins hok hb, reset_trains s ⟨wordField v 0 6, wordField_lt v 0 6⟩⟩

/-- Settles O9, row by row through the lemmas above. -/
theorem linkUpAndDown : Obligations.LinkUpAndDown := by
  unfold Obligations.LinkUpAndDown
  exact ⟨completes_peerLost, completes_pcsLinkDown, completes_pcsLinkUp, completes_portTrained, completes_portReset⟩

end Sys2Proof.Machine.Proofs
end

section
/-! PROOFS. The start and the end of a frame at a port (03_link_ports.md R59, R63; 04_routing_and_mesh.md R98, R107; 05 R117, R123). -/

namespace Sys2Proof.Machine.Proofs

open Laws

/-! FRAME_TRANSMIT_START -/

/-- A frame has left its transmit queue. -/
def txPopped (p : Nat) (f : Frame) (s : State) : State :=
  (s.setPort p { s.port p with txq := (s.port p).txq.erase f }).flowDepth f.flow (-(Int.ofNat f.cells))

theorem txPopped_ports (p : Nat) (f : Frame) (s : State) :
    (txPopped p f s).ports = (s.setPort p { s.port p with txq := (s.port p).txq.erase f }).ports := (flowDepth_same _ _ _).ports rfl

theorem txPopped_port (p : Nat) (f : Frame) (s : State) : (txPopped p f s).port p = { s.port p with txq := (s.port p).txq.erase f } :=
  (port_of_ports (txPopped_ports p f s) p).trans (port_setPort_self ..)

theorem txPopped_regs (p : Nat) (f : Frame) (s : State) : (txPopped p f s).regs = s.regs := (flowDepth_same _ _ _).regs rfl

/-- A frame in transmission. -/
def txStarted (p : Nat) (g : Frame) (s : State) : State := s.setPort p { s.port p with txing := (s.port p).txing ++ [g] }

theorem transmitStartEff_empty {s : State} {p sub cls : Nat} (h : s.headFrame? p sub cls = none) : transmitStartEff p sub cls s = s := by
  simp [transmitStartEff, h]

/-- The start of the class's oldest frame: its class can start and none of a lower number. -/
abbrev StartsNow (s : State) (p sub cls : Nat) : Prop := s.canStart p sub cls = true ∧ ∀ k < cls, s.canStart p sub k = false

theorem transmitStartEff_formed {s : State} {p sub cls : Nat} {f g : Frame} (h : s.headFrame? p sub cls = some f)
    (hg : s.egressForm p f = some g) :
    transmitStartEff p sub cls s
      = if StartsNow s p sub cls then (txStarted p g (txPopped p f s)).sampleDelay p sub cls f else s := by
  have hgate : (s.canStart p sub cls && (List.range cls).all (fun c => !s.canStart p sub c)) = true ↔ StartsNow s p sub cls := by
    simp [StartsNow]
  unfold transmitStartEff
  rw [h]
  dsimp only
  rw [hg]
  simp only [hgate]
  rfl

theorem transmitStartEff_formless {s : State} {p sub cls : Nat} {f : Frame} (h : s.headFrame? p sub cls = some f)
    (hg : s.egressForm p f = none) (hu : s.usable p f.dst? = false) : transmitStartEff p sub cls s = s := by
  simp [transmitStartEff, h, hg, hu]

theorem transmitStartEff_waits {s : State} {p sub cls : Nat} {f : Frame} (h : s.headFrame? p sub cls = some f)
    (hg : (s.egressForm p f).isSome = true) (hno : ¬ StartsNow s p sub cls) : transmitStartEff p sub cls s = s := by
  obtain ⟨g, hg⟩ := Option.isSome_iff_exists.mp hg
  rw [transmitStartEff_formed h hg, if_neg hno]

theorem sampleDelay_port (s : State) (p sub cls : Nat) (f : Frame) (q : Nat) : (s.sampleDelay p sub cls f).port q = s.port q :=
  port_of_ports ((sampleDelay_same s p sub cls f).ports rfl) q

/-- The frame goes from its queue into transmission, in the form of its egress port. -/
theorem transmitStartEff_starts {s : State} {p sub cls : Nat} {f : Frame} (h : s.headFrame? p sub cls = some f)
    (hg : (s.egressForm p f).isSome = true) (hnow : StartsNow s p sub cls) :
    ((transmitStartEff p sub cls s).port p).txq = (s.port p).txq.erase f ∧ (transmitStartEff p sub cls s).regs = s.regs
      ∧ ((transmitStartEff p sub cls s).port p).txing = (s.port p).txing ++ (s.egressForm p f).toList
      ∧ PortsBut [p] s (transmitStartEff p sub cls s) := by
  obtain ⟨g, hg⟩ := Option.isSome_iff_exists.mp hg
  have hport : (txStarted p g (txPopped p f s)).port p
      = { s.port p with txq := (s.port p).txq.erase f, txing := (s.port p).txing ++ [g] } := by
    unfold txStarted
    rw [port_setPort_self, txPopped_port]
  have hpopped : PortsBut [p] s (txPopped p f s) :=
    portsBut_of_ports (portsBut_setPort p _ (portsBut_refl _ s) (by simp)) (txPopped_ports p f s)
  rw [transmitStartEff_formed h hg, if_pos hnow, sampleDelay_port, hport, (sampleDelay_same _ p sub cls f).regs rfl, hg]
  exact ⟨rfl, txPopped_regs p f s, rfl,
    portsBut_of_ports (portsBut_setPort p _ hpopped (by simp)) ((sampleDelay_same _ p sub cls f).ports rfl)⟩

theorem completes_frameTransmitStart (s : State) (p : PortId) (sub : Fin 4) (c : Fin 8) :
    Completes (.frameTransmitStart p sub c) s fun t =>
      (s.headFrame? p sub c = none → t = s)
      ∧ (∀ f, s.headFrame? p sub c = some f → (s.egressForm p f).isSome = true → s.canStart p sub c = false → t = s)
      ∧ (∀ f, s.headFrame? p sub c = some f → (s.egressForm p f).isSome = true → (∃ k : Fin 8, k < c ∧ s.canStart p sub k = true) → t = s)
      ∧ (∀ f, s.headFrame? p sub c = some f → s.canStart p sub c = true → (∀ k : Fin 8, k < c → s.canStart p sub k = false) →
          (s.egressForm p f).isSome = true → (t.port p).txq = (s.port p).txq.erase f ∧ t.regs = s.regs
            ∧ (t.port p).txing = (s.port p).txing ++ (s.egressForm p f).toList ∧ PortsBut [p.val] s t)
      ∧ (∀ f, s.headFrame? p sub c = some f → s.egressForm p f = none → s.usable p f.dst? = false → t = s)
      ∧ t = { s with regs := t.regs, scriv := t.scriv, sched := t.sched, ports := t.ports, out := t.out } := by
  refine ⟨transmitStartEff p sub c s, rfl, transmitStartEff_empty, fun f h hg hno => transmitStartEff_waits h hg ?_,
    fun f h hg hk => transmitStartEff_waits h hg ?_, fun f h hc hk hg => transmitStartEff_starts h hg ⟨hc, fun k hlt => ?_⟩,
    fun f h hg hu => transmitStartEff_formless h hg hu, eq_patch_of_same (transmitStartEff_same p sub c s)⟩
  · rintro ⟨hyes, -⟩
    exact Bool.false_ne_true (hno.symm.trans hyes)
  · rintro ⟨-, hall⟩
    obtain ⟨k, hlt, hyes⟩ := hk
    exact Bool.false_ne_true ((hall k hlt).symm.trans hyes)
  · exact hk ⟨k, hlt.trans c.isLt⟩ hlt

/-! FRAME_TRANSMIT_END -/

/-- The oldest frame in transmission of a class. -/
def txOldest (s : State) (p sub cls : Nat) : Option Frame := (s.port p).txing.find? (fun f => f.sub == sub && f.cls == cls)

/-- The last byte of a frame is on the wire. -/
def txEnded (p sub cls : Nat) (f : Frame) (s : State) : State :=
  (s.setPort p { s.port p with txing := (s.port p).txing.erase f, txBytes := (s.port p).txBytes + f.len }).emit (.frame p sub cls f.wire)

theorem transmitEndEff_empty {s : State} {p sub cls : Nat} (h : txOldest s p sub cls = none) : transmitEndEff p sub cls s = s := by
  unfold txOldest at h
  simp [transmitEndEff, h]

/-- While the partner pauses the class, no frame of it ends. -/
theorem transmitEndEff_paused {s : State} {p sub cls : Nat} (hn : s.native p = true) (hp : (s.port p).paused.getD (subCls sub cls) 0 ≠ 0) :
    transmitEndEff p sub cls s = s := by
  unfold transmitEndEff
  split
  · rfl
  · simp [hn, hp]

theorem transmitEndEff_ends {s : State} {p sub cls : Nat} {f : Frame} (h : txOldest s p sub cls = some f)
    (hopen : s.native p = false ∨ (s.port p).paused.getD (subCls sub cls) 0 = 0) :
    transmitEndEff p sub cls s = ((txEnded p sub cls f s).frameGone f).flowDone f.flow f.arrived := by
  have hgate : (s.native p && (s.port p).paused.getD (subCls sub cls) 0 != 0) = false := by
    rcases hopen with h | h <;> simp [h]
  unfold txOldest at h
  simp [transmitEndEff, h, hgate, txEnded]

theorem flowDone_none (s : State) (arrived : BitVec 64) : s.flowDone 0 arrived = s := if_pos rfl

/-- A frame that holds no cells and is on no backup leaves its epoch's drain count. -/
theorem frameGone_plain {s : State} {f : Frame} (hi : f.ingress = none) (hb : f.onBackup = false) :
    (s.frameGone f).regs = (if f.counted then s.leave f.epoch else s).regs ∧ (s.frameGone f).ports = s.ports
      ∧ (s.frameGone f).out = s.out := by
  have hleave : (if f.counted then s.leave f.epoch else s).ports = s.ports ∧ (if f.counted then s.leave f.epoch else s).out = s.out := by
    split <;> exact ⟨rfl, rfl⟩
  unfold State.frameGone
  rw [hi, hb]
  dsimp only
  rw [if_neg Bool.false_ne_true]
  generalize (if f.counted then s.leave f.epoch else s) = u at hleave ⊢
  split
  · exact ⟨rfl, hleave⟩
  · exact ⟨rfl, hleave⟩

theorem get_leave (s : State) (epoch : Nat) :
    (s.leave epoch).get (Reg.MESH_DRAIN.COUNT epoch) = s.get (Reg.MESH_DRAIN.COUNT epoch) - 1 :=
  get_put_fits s _ _ (fieldOk_of_ble rfl) (Nat.lt_of_le_of_lt (Nat.sub_le _ _) (get_lt s _))

theorem fieldsBut_frameGone_plain (s : State) {f : Frame} (hi : f.ingress = none) (hb : f.onBackup = false) :
    FieldsBut [Reg.MESH_DRAIN.COUNT f.epoch] s (s.frameGone f) := by
  refine fieldsBut_of_regs ?_ (frameGone_plain hi hb).1
  split
  · exact fieldsBut_put _ _ (fieldsBut_refl _ s) (fieldOk_of_ble rfl) (by simp)
  · exact fieldsBut_refl _ s

theorem txEnded_port (p sub cls : Nat) (f : Frame) (s : State) :
    (txEnded p sub cls f s).port p = { s.port p with txing := (s.port p).txing.erase f, txBytes := (s.port p).txBytes + f.len } :=
  port_setPort_self ..

theorem completes_frameTransmitEnd (s : State) (p : PortId) (sub : Fin 4) (c : Fin 8) :
    Completes (.frameTransmitEnd p sub c) s fun t =>
      ((s.port p).txing.find? (fun f => f.sub == sub.val && f.cls == c.val) = none → t = s)
      ∧ (s.native p = true → (s.port p).paused.getD (subCls sub c) 0 ≠ 0 → t = s)
      ∧ (∀ f, (s.port p).txing.find? (fun f => f.sub == sub.val && f.cls == c.val) = some f →
          s.native p = false ∨ (s.port p).paused.getD (subCls sub c) 0 = 0 → f.flow = 0 → f.ingress = none →
          f.onBackup = false → t.out = s.out ++ [Output.frame p sub c f.wire] ∧ (t.port p).txing = (s.port p).txing.erase f
            ∧ (t.port p).txBytes = (s.port p).txBytes + f.len
            ∧ (f.counted = true → t.get (Reg.MESH_DRAIN.COUNT f.epoch) = s.get (Reg.MESH_DRAIN.COUNT f.epoch) - 1)
            ∧ FieldsBut [Reg.MESH_DRAIN.COUNT f.epoch] s t)
      ∧ t = { s with regs := t.regs, scriv := t.scriv, host0 := t.host0, host1 := t.host1, sched := t.sched, ports := t.ports, hostMem0 := t.hostMem0, hostMem1 := t.hostMem1, out := t.out } := by
  refine ⟨transmitEndEff p sub c s, rfl, transmitEndEff_empty, transmitEndEff_paused, fun f h hopen hflow hi hb => ?_,
    eq_patch_of_same (transmitEndEff_same p sub c s)⟩
  obtain ⟨hregs, hports, hout⟩ := frameGone_plain (s := txEnded p sub c f s) hi hb
  rw [transmitEndEff_ends h hopen, hflow, flowDone_none, port_of_ports hports, txEnded_port]
  refine ⟨hout, rfl, rfl, fun hc => ?_, fieldsBut_trans (fieldsBut_of_regs (fieldsBut_refl _ s) rfl) (fieldsBut_frameGone_plain _ hi hb)⟩
  rw [get_of_regs hregs, hc, if_pos rfl, get_leave]
  rfl

/-- Settles O11, start and end through the lemmas above. -/
theorem frameTransmission : Obligations.FrameTransmission := by
  unfold Obligations.FrameTransmission
  exact ⟨completes_frameTransmitStart, completes_frameTransmitEnd⟩

end Sys2Proof.Machine.Proofs
end

section
/-! PROOFS. Configuration of the ports and of the mesh (03_link_ports.md R52, R84; 04_routing_and_mesh.md R90, R109, R110; 05 R138). -/

namespace Sys2Proof.Machine.Proofs

open Laws

/-! Where the registers of a port stand -/

/-- A row of the ports that may hold an offset of port 0. -/
abbrev PortRow (o : Nat) (r : RegRow) : Prop := r.dims.head? = some (64, 16384) ∧ r.base ≤ o ∧ o < r.base + 16384

theorem dimsIndex?_port {p x : Nat} (hp : p < 64) (hx : x < 16384) (ds : List (Nat × Nat)) :
    dimsIndex? ((64, 16384) :: ds) (16384 * p + x) = (dimsIndex? ds x).map (p :: ·) := by
  have hdiv : (16384 * p + x) / 16384 = p := by omega
  have hmod : (16384 * p + x) % 16384 = x := by omega
  simp [dimsIndex?, hdiv, hmod, hp]

/-- A register of port p stands where that of port 0 does, p strides on. -/
theorem findReg?_port {p o : Nat} (hp : p < 64) {rs : List RegRow} (hrs : ∀ r ∈ rs, PortRow o r) {r : RegRow} {idx : List Nat}
    (h : findReg? o rs = some (r, 0 :: idx)) (rest : List RegRow) : findReg? (16384 * p + o) (rs ++ rest) = some (r, p :: idx) := by
  induction rs with
  | nil => simp [findReg?] at h
  | cons a rs ih =>
    obtain ⟨⟨hdims, hbase, htop⟩, hrs⟩ := List.forall_mem_cons.mp hrs
    obtain ⟨ds, hds⟩ := List.head?_eq_some_iff.mp hdims
    have hzero := dimsIndex?_port (p := 0) (x := o - a.base) (by decide) (by omega) ds
    have hport := dimsIndex?_port (p := p) (x := o - a.base) hp (by omega) ds
    rw [Nat.mul_zero, Nat.zero_add] at hzero
    rw [show 16384 * p + (o - a.base) = 16384 * p + o - a.base by omega] at hport
    unfold findReg? at h
    rw [if_neg (by omega), hds, hzero] at h
    rw [List.cons_append]
    unfold findReg?
    rw [if_neg (by omega), hds, hport]
    cases hat : dimsIndex? ds (o - a.base) with
    | none =>
      rw [hat] at h
      exact ih hrs h
    | some is =>
      rw [hat] at h
      simp only [Option.map_some, Option.some.injEq, Prod.mk.injEq, List.cons.injEq, true_and] at h ⊢
      exact h

theorem regRowsAt_link {o : Nat} (hlo : 0x200000 ≤ o) (hhi : o < 0x300000) : regRowsAt o = regsLINK := by
  unfold regRowsAt
  rw [if_neg (by omega), if_neg (by omega), if_neg (by omega), if_neg (by omega), if_neg (by omega), if_neg (by omega), if_neg (by omega),
    if_pos hhi]

/-- The register of a port among the first n rows of the LINK block. -/
theorem regAt?_port (n : Nat) {p o : Nat} (hp : p < 64) (hlo : 0x200000 ≤ o) (hhi : o < 0x204000)
    (hrs : ∀ r ∈ regsLINK.take n, PortRow o r) {r : RegRow} {idx : List Nat} (h : findReg? o (regsLINK.take n) = some (r, 0 :: idx)) :
    regAt? (16384 * p + o) = some (r, p :: idx) := by
  unfold regAt?
  rw [regRowsAt_link (by omega) (by omega), ← List.take_append_drop n regsLINK]
  exact findReg?_port hp hrs h _

/-- The fields of LINK_CFG. -/
def linkCfgFields : List FldRow :=
  [⟨0, 1, .rw, 0, 0, 1⟩, ⟨1, 1, .rw, 0, 0, 1⟩, ⟨2, 2, .rw, 0, 0, 2⟩, ⟨4, 2, .rw, 2, 0, 2⟩, ⟨6, 1, .rw, 1, 0, 1⟩, ⟨7, 1, .rw, 0, 0, 1⟩,
   ⟨8, 1, .rw, 0, 0, 1⟩, ⟨9, 1, .rw, 0, 0, 1⟩, ⟨10, 2, .rw, 0, 0, 3⟩, ⟨16, 8, .rw, 15, 0, 255⟩, ⟨24, 1, .rw, 0, 0, 1⟩,
   ⟨25, 1, .rw, 0, 0, 1⟩, ⟨26, 1, .rw, 1, 0, 1⟩, ⟨27, 1, .rw, 1, 0, 1⟩]

/-- The row of LINK_CFG. -/
def linkCfgRow : RegRow := ⟨"LINK_CFG", 0x200000, [(64, 16384)], .link 0, linkCfgFields⟩

theorem regAt_linkCfg (p : PortId) : regAt? (Reg.LINK_CFG.off p) = some (linkCfgRow, [p.val]) := by
  unfold Reg.LINK_CFG.off
  rw [Nat.add_comm]
  exact regAt?_port 1 p.isLt (by decide) (by decide) (by decide) rfl

/-- The fields of LINK_BUF_CLASS. -/
def bufClassFields : List FldRow := [⟨0, 16, .rw, 0, 0, 65535⟩, ⟨16, 16, .rw, 64, 0, 65535⟩]

/-- The row of LINK_BUF_CLASS. -/
def bufClassRow : RegRow := ⟨"LINK_BUF_CLASS", 0x200200, [(64, 16384), (4, 4)], .link 0, bufClassFields⟩

theorem regAt_linkBufClass (p : PortId) (c : Fin 4) : regAt? (Reg.LINK_BUF_CLASS.off p c) = some (bufClassRow, [p.val, c.val]) := by
  have hoff : Reg.LINK_BUF_CLASS.off p c = 16384 * p + (0x200200 + 4 * c) := by
    unfold Reg.LINK_BUF_CLASS.off
    omega
  rw [hoff]
  match c with
  | 0 => exact regAt?_port 10 p.isLt (by decide) (by decide) (by decide) rfl
  | 1 => exact regAt?_port 10 p.isLt (by decide) (by decide) (by decide) rfl
  | 2 => exact regAt?_port 10 p.isLt (by decide) (by decide) (by decide) rfl
  | 3 => exact regAt?_port 10 p.isLt (by decide) (by decide) (by decide) rfl

/-! A write of a register all of whose fields are RW (Table 0.4) -/

/-- A row all of whose fields are RW and share no bit. -/
abbrev PlainReg (r : RegRow) : Prop := (∀ f ∈ r.fields, PlainRow f) ∧ r.fields.Pairwise ApartRows

theorem applyWrite_plain {s : State} {off : Nat} {r : RegRow} {idx : List Nat} (hreg : regAt? off = some (r, idx))
    (hr : r.fields.any (fun f => f.acc == .rwl) = false) (v : Word) : s.applyWrite off v = s.applyFields r off v := by
  simp [State.applyWrite, hreg, hr]

/-- A field that takes every value of its width. -/
abbrev WholeRow (f : FldRow) : Prop := f.min = 0 ∧ f.max = 2 ^ f.w - 1

theorem get_applyFields {s : State} {r : RegRow} (hr : PlainReg r) (off : Nat) (v : Word) {g : FldRow} (hg : g ∈ r.fields) :
    (s.applyFields r off v).get ⟨off, g.lo, g.w⟩
      = if g.min ≤ wordField v g.lo g.w ∧ wordField v g.lo g.w ≤ g.max then wordField v g.lo g.w else s.get ⟨off, g.lo, g.w⟩ := by
  unfold State.get State.applyFields
  rw [reg_setReg_self]
  exact wordField_foldl_apply hr.1 hr.2 hg _ _ _

theorem get_applyFields_whole (s : State) {r : RegRow} (hr : PlainReg r) (off : Nat) (v : Word) {g : FldRow} (hg : g ∈ r.fields)
    (hw : WholeRow g) : (s.applyFields r off v).get ⟨off, g.lo, g.w⟩ = wordField v g.lo g.w := by
  have hlt := wordField_lt v g.lo g.w
  rw [get_applyFields hr off v hg, if_pos]
  rw [hw.1, hw.2]
  omega

theorem reg_applyFields_ne (s : State) (r : RegRow) {off o : Nat} (v : Word) (h : o ≠ off) : (s.applyFields r off v).reg o = s.reg o :=
  reg_setReg_ne s _ h

theorem get_applyFields_ne (s : State) (r : RegRow) {off : Nat} (v : Word) {g : Fld} (h : g.off ≠ off) :
    (s.applyFields r off v).get g = s.get g := by
  unfold State.get
  rw [reg_applyFields_ne s r v h]

theorem regsBut_applyFields (s : State) (r : RegRow) (off : Nat) (v : Word) : RegsBut [off] s (s.applyFields r off v) :=
  fun _ ho => reg_applyFields_ne s r v (fun e => ho (by simp [e]))

/-- Only the fields of the row change. -/
theorem fieldsBut_applyFields {fs : List Fld} (s : State) {r : RegRow} (hr : PlainReg r) (off : Nat) (v : Word)
    (hm : ∀ f ∈ r.fields, (⟨off, f.lo, f.w⟩ : Fld) ∈ fs) : FieldsBut fs s (s.applyFields r off v) := by
  intro g hg ha
  by_cases ho : g.off = off
  · have hplain : PlainRow ⟨g.lo, g.w, .rw, 0, 0, 0⟩ := ⟨rfl, hg⟩
    have hrows : ∀ f ∈ r.fields, PlainRow f ∧ ApartRows f ⟨g.lo, g.w, .rw, 0, 0, 0⟩ := by
      refine fun f hf => ⟨hr.1 f hf, ?_⟩
      rcases ha _ (hm f hf) with h | h
      · exact absurd ho h
      · exact h
    unfold State.get State.applyFields
    rw [ho, reg_setReg_self]
    exact wordField_foldl_apply_apart hplain hrows _ _ _
  · exact get_applyFields_ne s r v ho

/-! LINK_CFG -/

theorem linkCfgRow_plain : PlainReg linkCfgRow := by decide

/-- LINK_CFG after a write. -/
def cfgNow (p : Nat) (v : Word) (s : State) : State := s.applyFields linkCfgRow (Reg.LINK_CFG.off p) v

theorem applyWrite_linkCfg (s : State) (p : PortId) (v : Word) : s.applyWrite (Reg.LINK_CFG.off p) v = cfgNow p v s :=
  applyWrite_plain (regAt_linkCfg p) (by decide) v

theorem get_cfgNow (s : State) (p : Nat) (v : Word) {g : FldRow} (hg : g ∈ linkCfgFields) (hw : WholeRow g) :
    (cfgNow p v s).get ⟨Reg.LINK_CFG.off p, g.lo, g.w⟩ = wordField v g.lo g.w :=
  get_applyFields_whole s linkCfgRow_plain _ v hg hw

theorem get_cfgNow_ne (s : State) (p : Nat) (v : Word) {g : Fld} (h : g.off ≠ Reg.LINK_CFG.off p) : (cfgNow p v s).get g = s.get g :=
  get_applyFields_ne s _ v h

/-- A two-bit field of LINK_CFG that a write asks for: 3 asks for the value that stands. -/
def cfgAsked (v : Word) (s : State) (f : Fld) : Nat := if wordField v f.lo 2 = 3 then s.get f else wordField v f.lo 2

/-- A write that changes the mode, the breakout or the pause mode. -/
def CfgChanges (s : State) (p : Nat) (v : Word) : Prop :=
  wordField v 1 1 ≠ s.get (Reg.LINK_CFG.MODE p) ∨ cfgAsked v s (Reg.LINK_CFG.BREAKOUT p) ≠ s.get (Reg.LINK_CFG.BREAKOUT p)
    ∨ cfgAsked v s (Reg.LINK_CFG.PAUSE_MODE p) ≠ s.get (Reg.LINK_CFG.PAUSE_MODE p)

/-- A LINK_CFG write that is refused (R52, R59, R84; 05 R138). -/
def CfgRefused (s : State) (p : Nat) (v : Word) : Prop :=
  (CfgChanges s p v ∧ (s.get (Reg.LINK_CFG.ENABLE p) = 1 ∨ s.portScheduled p = true))
    ∨ (s.get (Reg.LINK_CFG.PREEMPT_EN p) = 0 ∧ wordField v 8 1 = 1 ∧ s.portScheduled p = true)
    ∨ s.shortCells (p / 16) < (s.applyWrite (Reg.LINK_CFG.off p) v).shortCells (p / 16)

/-- Preemption ends where the new configuration does not enable it. -/
def cfgPreempted (p : Nat) (s : State) : State := if s.flag (Reg.LINK_CFG.PREEMPT_EN p) && !s.native p then s else s.preemptOff p

/-- A disabled port is DOWN, an enabled one at least in TRAINING. -/
def cfgEnabled (p : Nat) (s : State) : State :=
  if s.flag (Reg.LINK_CFG.ENABLE p) then
    if s.get (Reg.LINK_STS.STATE p) = 0 then s.put (Reg.LINK_STS.STATE p) 1 else s
  else (s.toTraining p).put (Reg.LINK_STS.STATE p) 0

theorem linkCfgEff_refused {s : State} {p : Nat} {v : Word} (h : CfgRefused s p v) : linkCfgEff p v s = s.put (Reg.LINK_STS.CFG_REJ p) 1 :=
  if_pos h

theorem linkCfgEff_taken {s : State} {p : Nat} {v : Word} (h : ¬ CfgRefused s p v) :
    linkCfgEff p v s = cfgEnabled p (cfgPreempted p (s.applyWrite (Reg.LINK_CFG.off p) v)) := if_neg h

theorem cfgPreempted_cases {P : State → Prop} {s : State} (p : Nat) (hkeep : P s) (hoff : P (s.preemptOff p)) : P (cfgPreempted p s) := by
  unfold cfgPreempted
  split
  · exact hkeep
  · exact hoff

theorem preemptOff_port (s : State) (p : Nat) : (s.preemptOff p).port p = { s.port p with verified := [] } := port_setPort_self ..

theorem portsBut_preemptOff (s : State) (p : Nat) : PortsBut [p] s (s.preemptOff p) :=
  portsBut_of_ports (portsBut_setPort p _ (portsBut_refl _ s) (by simp)) rfl

theorem get_preemptOff_disjoint (s : State) {p : Nat} {g : Fld} (hg : FieldOk g) (h : g.off ≠ Reg.LINK_STS.off p ∨ g.lo + g.w ≤ 8) :
    (s.preemptOff p).get g = s.get g := by
  unfold State.preemptOff
  rw [get_put_disjoint _ _ g _ (fieldOk_of_ble rfl) hg (h.imp_right .inr), get_setPort]

theorem get_cfgPreempted (s : State) {p : Nat} {g : Fld} (hg : FieldOk g) (h : g.off ≠ Reg.LINK_STS.off p ∨ g.lo + g.w ≤ 8) :
    (cfgPreempted p s).get g = s.get g :=
  cfgPreempted_cases (P := fun t => t.get g = s.get g) p rfl (get_preemptOff_disjoint s hg h)

theorem portsBut_cfgPreempted (s : State) (p : Nat) : PortsBut [p] s (cfgPreempted p s) :=
  cfgPreempted_cases p (portsBut_refl _ s) (portsBut_preemptOff s p)

theorem cfgPreempted_txq (s : State) (p : Nat) : ((cfgPreempted p s).port p).txq = (s.port p).txq :=
  cfgPreempted_cases (P := fun t => (t.port p).txq = (s.port p).txq) p rfl (by rw [preemptOff_port])

theorem cfgPreempted_off {s : State} {p : Nat} (h : s.get (Reg.LINK_CFG.PREEMPT_EN p) = 0) : ((cfgPreempted p s).port p).verified = [] := by
  have hflag : s.flag (Reg.LINK_CFG.PREEMPT_EN p) = false := by simp [State.flag, h]
  rw [cfgPreempted, hflag, Bool.false_and, if_neg Bool.false_ne_true, preemptOff_port]

section
variable {s : State} {p : Nat}

theorem cfgEnabled_on (h : s.get (Reg.LINK_CFG.ENABLE p) = 1) :
    cfgEnabled p s = if s.get (Reg.LINK_STS.STATE p) = 0 then s.put (Reg.LINK_STS.STATE p) 1 else s := by
  simp [cfgEnabled, State.flag, h]

theorem cfgEnabled_off (h : s.get (Reg.LINK_CFG.ENABLE p) = 0) : cfgEnabled p s = (s.toTraining p).put (Reg.LINK_STS.STATE p) 0 := by
  simp [cfgEnabled, State.flag, h]

end

/-- Registers of the ports other than LINK_STS keep what the configuration gives them. -/
theorem get_cfgEnabled_ne (s : State) (p : PortId) {g : Fld} (hlow : g.off < 0x300000) (h : g.off ≠ Reg.LINK_STS.off p) :
    (cfgEnabled p s).get g = s.get g := by
  unfold cfgEnabled
  split
  · split
    · exact get_put_ne _ _ _ _ h
    · rfl
  · rw [get_put_ne _ _ _ _ h, get_toTraining _ p hlow, get_linkOffShown_ne _ h]

theorem linkCfg_low (p : PortId) : Reg.LINK_CFG.off p < 0x300000 := by
  unfold Reg.LINK_CFG.off
  omega

/-- A taken configuration, preemption being settled. -/
def cfgReady (p : Nat) (v : Word) (s : State) : State := cfgPreempted p (cfgNow p v s)

section
variable (s : State) (p : PortId) (v : Word)

theorem get_cfgReady {g : FldRow} (hg : g ∈ linkCfgFields) (hw : WholeRow g) (hok : g.lo + g.w ≤ 32) :
    (cfgReady p v s).get ⟨Reg.LINK_CFG.off p, g.lo, g.w⟩ = wordField v g.lo g.w :=
  (get_cfgPreempted _ hok (.inl (linkCfg_ne_sts p))).trans (get_cfgNow s p v hg hw)

/-- A field of LINK_CFG that takes every value of its width shows what was written. -/
theorem get_cfgTaken {g : FldRow} (hg : g ∈ linkCfgFields) (hw : WholeRow g) (hok : g.lo + g.w ≤ 32) :
    (cfgEnabled p (cfgReady p v s)).get ⟨Reg.LINK_CFG.off p, g.lo, g.w⟩ = wordField v g.lo g.w :=
  (get_cfgEnabled_ne _ p (linkCfg_low p) (linkCfg_ne_sts p)).trans (get_cfgReady s p v hg hw hok)

theorem get_cfgReady_state : (cfgReady p v s).get (Reg.LINK_STS.STATE p) = s.get (Reg.LINK_STS.STATE p) :=
  (get_cfgPreempted _ (fieldOk_of_ble rfl) (.inr (Nat.le_of_ble_eq_true rfl))).trans (get_cfgNow_ne s p v (linkCfg_ne_sts p).symm)

theorem portsBut_cfgReady : PortsBut [p.val] s (cfgReady p v s) :=
  portsBut_trans (portsBut_of_ports (portsBut_refl _ s) rfl) (portsBut_cfgPreempted (cfgNow p v s) p)

theorem cfgReady_txq : ((cfgReady p v s).port p).txq = (s.port p).txq := cfgPreempted_txq (cfgNow p v s) p

end

/-- An enabled port keeps its frames, and at least trains. -/
theorem cfgTaken_on (s : State) (p : PortId) {v : Word} (h : wordField v 0 1 = 1) :
    PortsBut [p.val] s (cfgEnabled p (cfgReady p v s)) ∧ ((cfgEnabled p (cfgReady p v s)).port p).txq = (s.port p).txq
      ∧ (wordField v 8 1 = 0 → ((cfgEnabled p (cfgReady p v s)).port p).verified = [])
      ∧ (cfgEnabled p (cfgReady p v s)).get (Reg.LINK_STS.STATE p)
          = (if s.get (Reg.LINK_STS.STATE p) = 0 then 1 else s.get (Reg.LINK_STS.STATE p)) := by
  have hen := (get_cfgReady s p v (g := ⟨0, 1, .rw, 0, 0, 1⟩) (by decide) (by decide) (by decide)).trans h
  have hpre := get_cfgNow s p v (g := ⟨8, 1, .rw, 0, 0, 1⟩) (by decide) (by decide)
  have hports : (cfgEnabled p (cfgReady p v s)).ports = (cfgReady p v s).ports := by
    rw [cfgEnabled_on hen]
    split <;> rfl
  refine ⟨portsBut_of_ports (portsBut_cfgReady s p v) hports, ?_, fun h8 => ?_, ?_⟩
  · rw [port_of_ports hports, cfgReady_txq]
  · rw [port_of_ports hports]
    exact cfgPreempted_off (hpre.trans h8)
  · rw [cfgEnabled_on hen, get_cfgReady_state]
    split
    · exact get_put_value rfl rfl
    · exact get_cfgReady_state s p v

/-- A disabled port is DOWN and carries nothing. -/
theorem cfgTaken_off (s : State) (p : PortId) {v : Word} (h : wordField v 0 1 = 0) :
    (cfgEnabled p (cfgReady p v s)).get (Reg.LINK_STS.STATE p) = 0 ∧ (cfgEnabled p (cfgReady p v s)).get (Reg.LINK_STS.ACTIVE p) = 0
      ∧ ((cfgEnabled p (cfgReady p v s)).port p).txq = [] := by
  have hen := (get_cfgReady s p v (g := ⟨0, 1, .rw, 0, 0, 1⟩) (by decide) (by decide) (by decide)).trans h
  rw [cfgEnabled_off hen, port_put, toTraining_txq]
  refine ⟨get_put_value rfl rfl, ?_, rfl⟩
  rw [get_put_apart rfl, get_toTraining _ p (g := Reg.LINK_STS.ACTIVE p) (linkSts_low p), get_linkOffShown_active]

theorem cfgAsked_same {v : Word} {s : State} {f : Fld} (h : wordField v f.lo 2 = s.get f) : cfgAsked v s f = s.get f := by
  unfold cfgAsked
  split
  · rfl
  · exact h

theorem not_cfgRefused {s : State} {p : Nat} {v : Word}
    (hsame : wordField v 1 1 = s.get (Reg.LINK_CFG.MODE p) ∧ wordField v 2 2 = s.get (Reg.LINK_CFG.BREAKOUT p)
      ∧ wordField v 4 2 = s.get (Reg.LINK_CFG.PAUSE_MODE p) ∨ s.get (Reg.LINK_CFG.ENABLE p) = 0) (hsched : s.portScheduled p = false)
    (hshort : (s.applyWrite (Reg.LINK_CFG.off p) v).shortCells (p / 16) ≤ s.shortCells (p / 16)) : ¬ CfgRefused s p v := by
  rintro (⟨hch, hbusy⟩ | ⟨-, -, hbusy⟩ | hlt)
  · rcases hsame with ⟨hm, hb, hp⟩ | h0
    · rcases hch with h | h | h
      · exact h hm
      · exact h (cfgAsked_same hb)
      · exact h (cfgAsked_same hp)
    · rcases hbusy with h | h
      · exact absurd (h0.symm.trans h) (by decide)
      · exact Bool.false_ne_true (hsched.symm.trans h)
  · exact Bool.false_ne_true (hsched.symm.trans hbusy)
  · omega

theorem completes_linkCfgWrite (s : State) (h : HostId) (p : PortId) (v : Word) (ht : Takes s h (Reg.LINK_CFG.off p)) :
    Completes (.linkCfgWrite h p v) s fun t =>
      ∃ u : State, t = u.pathsChanged
      ∧ (wordField v 1 1 ≠ s.get (Reg.LINK_CFG.MODE p) → s.get (Reg.LINK_CFG.ENABLE p) = 1 ∨ s.portScheduled p = true →
          u = s.put (Reg.LINK_STS.CFG_REJ p) 1)
      ∧ (s.get (Reg.LINK_CFG.PREEMPT_EN p) = 0 → wordField v 8 1 = 1 → s.portScheduled p = true → u = s.put (Reg.LINK_STS.CFG_REJ p) 1)
      ∧ (wordField v 1 1 = s.get (Reg.LINK_CFG.MODE p) ∧ wordField v 2 2 = s.get (Reg.LINK_CFG.BREAKOUT p)
            ∧ wordField v 4 2 = s.get (Reg.LINK_CFG.PAUSE_MODE p) ∨ s.get (Reg.LINK_CFG.ENABLE p) = 0 → s.portScheduled p = false →
          (s.applyWrite (Reg.LINK_CFG.off p) v).shortCells (p.val / 16) ≤ s.shortCells (p.val / 16) →
          u.get (Reg.LINK_CFG.ENABLE p) = wordField v 0 1 ∧ u.get (Reg.LINK_CFG.MODE p) = wordField v 1 1
          ∧ u.get (Reg.LINK_CFG.TRANSIT p) = wordField v 7 1 ∧ u.get (Reg.LINK_CFG.EXPRESS p) = wordField v 16 8
          ∧ (wordField v 0 1 = 1 → PortsBut [p.val] s u ∧ (u.port p).txq = (s.port p).txq ∧ (wordField v 8 1 = 0 → (u.port p).verified = [])
              ∧ u.get (Reg.LINK_STS.STATE p) = (if s.get (Reg.LINK_STS.STATE p) = 0 then 1 else s.get (Reg.LINK_STS.STATE p)))
          ∧ (wordField v 0 1 = 0 → u.get (Reg.LINK_STS.STATE p) = 0 ∧ u.get (Reg.LINK_STS.ACTIVE p) = 0 ∧ (u.port p).txq = []))
      ∧ (s.shortCells (p.val / 16) < (s.applyWrite (Reg.LINK_CFG.off p) v).shortCells (p.val / 16) → u = s.put (Reg.LINK_STS.CFG_REJ p) 1)
      ∧ TrafficOnly s t := by
  refine ⟨(linkCfgEff p v s).pathsChanged, congrArg Host.Outcome.next (hostWrite_takes _ ht), linkCfgEff p v s, rfl,
    fun hm hb => linkCfgEff_refused (.inl ⟨.inl hm, hb⟩), fun h0 h1 hb => linkCfgEff_refused (.inr (.inl ⟨h0, h1, hb⟩)),
    fun hsame hsched hshort => ?_, fun hlt => linkCfgEff_refused (.inr (.inr hlt)),
    trafficOnly_of_same (((linkCfgEff_same p v s).mono (by decide)).trans (pathsChanged_same _)) (by decide)⟩
  rw [linkCfgEff_taken (not_cfgRefused hsame hsched hshort), applyWrite_linkCfg]
  exact ⟨get_cfgTaken s p v (g := ⟨0, 1, .rw, 0, 0, 1⟩) (by decide) (by decide) (by decide),
    get_cfgTaken s p v (g := ⟨1, 1, .rw, 0, 0, 1⟩) (by decide) (by decide) (by decide),
    get_cfgTaken s p v (g := ⟨7, 1, .rw, 0, 0, 1⟩) (by decide) (by decide) (by decide),
    get_cfgTaken s p v (g := ⟨16, 8, .rw, 15, 0, 255⟩) (by decide) (by decide) (by decide), cfgTaken_on s p, cfgTaken_off s p⟩

/-! LINK_BUF_CLASS -/

theorem bufClassRow_plain : PlainReg bufClassRow := by decide

/-- The cells that a tile's MIN reservations would take with the one that a write asks for. -/
def cellsAsked (s : State) (p c : Nat) (v : Word) : Nat :=
  s.minCells (p / 16) (fun q k => if q = p ∧ k = c then wordField v 0 16 else s.get (Reg.LINK_BUF_CLASS.MIN q k))
    + flowCells s.heldImages (p / 16)

theorem bufClassEff_refused {s : State} {p c : Nat} {v : Word} (h : s.poolCells (p / 16) < cellsAsked s p c v) :
    bufClassEff p c v s = s.put (Reg.LINK_STS.CFG_REJ p) 1 := if_pos h

theorem bufClassEff_taken {s : State} {p : PortId} {c : Fin 4} {v : Word} (h : cellsAsked s p c v ≤ s.poolCells (p / 16)) :
    bufClassEff p c v s = s.applyFields bufClassRow (Reg.LINK_BUF_CLASS.off p c) v :=
  (if_neg (Nat.not_lt.mpr h)).trans (applyWrite_plain (regAt_linkBufClass p c) (by decide) v)

theorem completes_linkBufClassWrite (s : State) (h : HostId) (p : PortId) (c : Fin 4) (v : Word)
    (ht : Takes s h (Reg.LINK_BUF_CLASS.off p c)) :
    Completes (.linkBufClassWrite h p c v) s fun t =>
      (s.poolCells (p.val / 16) < s.minCells (p.val / 16) (fun q k => if q = p.val ∧ k = c.val then wordField v 0 16 else s.get (Reg.LINK_BUF_CLASS.MIN q k))
            + flowCells s.heldImages (p.val / 16) → t = s.put (Reg.LINK_STS.CFG_REJ p) 1)
      ∧ (s.minCells (p.val / 16) (fun q k => if q = p.val ∧ k = c.val then wordField v 0 16 else s.get (Reg.LINK_BUF_CLASS.MIN q k))
            + flowCells s.heldImages (p.val / 16) ≤ s.poolCells (p.val / 16) →
          t.get (Reg.LINK_BUF_CLASS.MIN p c) = wordField v 0 16 ∧ t.get (Reg.LINK_BUF_CLASS.MAX p c) = wordField v 16 16
          ∧ RegsBut [Reg.LINK_BUF_CLASS.off p c] s t ∧ t = { s with regs := t.regs }) := by
  refine ⟨bufClassEff p c v s, congrArg Host.Outcome.next (hostWrite_takes _ ht), bufClassEff_refused, fun hle => ?_⟩
  rw [bufClassEff_taken hle]
  exact ⟨get_applyFields_whole s bufClassRow_plain _ v (g := ⟨0, 16, .rw, 0, 0, 65535⟩) (by decide) (by decide),
    get_applyFields_whole s bufClassRow_plain _ v (g := ⟨16, 16, .rw, 64, 0, 65535⟩) (by decide) (by decide),
    regsBut_applyFields s _ _ v, rfl⟩

/-! MESH_SELF -/

/-- The row of MESH_SELF. -/
def meshSelfRow : RegRow := ⟨"MESH_SELF", Reg.MESH_SELF.off, [], .boot,
  [⟨10, 6, .rw, 0, 0, 63⟩, ⟨16, 6, .rw, 0, 0, 63⟩, ⟨22, 6, .rw, 0, 0, 63⟩, ⟨28, 4, .rw, 0, 0, 15⟩]⟩

theorem regAt_meshSelf : regAt? Reg.MESH_SELF.off = some (meshSelfRow, []) := rfl

theorem meshSelfRow_plain : PlainReg meshSelfRow := by decide

theorem wordField_eq_bits (v : Word) (lo w : Nat) : wordField v lo w = v.toNat / 2 ^ lo % 2 ^ w := by
  simp [wordField, BitVec.extractLsb'_toNat, Nat.shiftRight_eq_div_pow]

/-- Bits 31 to 10 of a word by the fields of MESH_SELF. -/
theorem selfBits (v : Word) :
    v.toNat / 1024 = wordField v 10 6 + 2 ^ 6 * wordField v 16 6 + 2 ^ 12 * wordField v 22 6 + 2 ^ 18 * wordField v 28 4 := by
  have hlt := v.isLt
  simp only [wordField_eq_bits]
  omega

theorem meshSelfEff_taken {s : State} (v : Word) (h : s.schedBusy = false) :
    meshSelfEff v s = s.applyFields meshSelfRow Reg.MESH_SELF.off v := by
  rw [meshSelfEff, h, if_neg Bool.false_ne_true]
  exact applyWrite_plain regAt_meshSelf (by decide) v

theorem completes_meshSelfWrite (s : State) (h : HostId) (v : Word) (ht : Takes s h Reg.MESH_SELF.off) :
    Completes (.meshSelfWrite h v) s fun t =>
      ∃ u : State, t = u.pathsChanged ∧ (s.schedBusy = true → u = s.put Reg.MESH_STS.CFG_REJ 1)
      ∧ (s.schedBusy = false → u.selfFca = v.toNat / 1024 * 1024 ∧ u.get Reg.MESH_SELF.DOMAIN = wordField v 28 4
          ∧ RegsBut [Reg.MESH_SELF.off] s u ∧ u = { s with regs := u.regs }) ∧ TrafficOnly s t := by
  refine ⟨(meshSelfEff v s).pathsChanged, congrArg Host.Outcome.next (hostWrite_takes _ ht), meshSelfEff v s, rfl, fun hb => if_pos hb,
    fun hb => ?_, trafficOnly_of_same (((meshSelfEff_same v s).mono (by decide)).trans (pathsChanged_same _)) (by decide)⟩
  rw [meshSelfEff_taken v hb]
  have hfield {g : FldRow} (hg : g ∈ meshSelfRow.fields) (hw : WholeRow g) :
      wordField ((s.applyFields meshSelfRow Reg.MESH_SELF.off v).reg Reg.MESH_SELF.off) g.lo g.w = wordField v g.lo g.w :=
    get_applyFields_whole s meshSelfRow_plain _ v hg hw
  have hz := hfield (g := ⟨10, 6, .rw, 0, 0, 63⟩) (by decide) (by decide)
  have hy := hfield (g := ⟨16, 6, .rw, 0, 0, 63⟩) (by decide) (by decide)
  have hx := hfield (g := ⟨22, 6, .rw, 0, 0, 63⟩) (by decide) (by decide)
  have hdomain := hfield (g := ⟨28, 4, .rw, 0, 0, 15⟩) (by decide) (by decide)
  refine ⟨?_, hdomain, regsBut_applyFields s _ _ v, rfl⟩
  unfold State.selfFca
  rw [selfBits, hz, hy, hx, hdomain, ← selfBits]

/-! MESH_CTL -/

/-- The row of MESH_CTL. -/
def meshCtlRow : RegRow := ⟨"MESH_CTL", Reg.MESH_CTL.off, [], .boot,
  [⟨0, 1, .w1s0, 0, 0, 1⟩, ⟨1, 1, .w1s0, 0, 0, 1⟩, ⟨2, 1, .rw, 1, 0, 1⟩, ⟨8, 8, .rw, 16, 1, 255⟩]⟩

/-- The fields of MESH_CTL that hold a value. -/
def meshCtlPlain : RegRow := { meshCtlRow with fields := [⟨2, 1, .rw, 1, 0, 1⟩, ⟨8, 8, .rw, 16, 1, 255⟩] }

theorem regAt_meshCtl : regAt? Reg.MESH_CTL.off = some (meshCtlRow, []) := rfl

theorem meshCtlPlain_plain : PlainReg meshCtlPlain := by decide

/-- MESH_CTL after a write; ARM and DISARM hold nothing. -/
def meshCtlSet (v : Word) (s : State) : State := s.applyFields meshCtlPlain Reg.MESH_CTL.off v

theorem applyWrite_meshCtl (s : State) (v : Word) : s.applyWrite Reg.MESH_CTL.off v = meshCtlSet v s :=
  applyWrite_plain regAt_meshCtl (by decide) v

theorem get_meshCtlSet_adapt (s : State) (v : Word) : (meshCtlSet v s).get Reg.MESH_CTL.ADAPT_EN = wordField v 2 1 :=
  get_applyFields_whole s meshCtlPlain_plain _ v (g := ⟨2, 1, .rw, 1, 0, 1⟩) (by decide) (by decide)

theorem get_meshCtlSet_hops (s : State) {v : Word} (h : wordField v 8 8 ≠ 0) :
    (meshCtlSet v s).get Reg.MESH_CTL.HOPS_INIT = wordField v 8 8 := by
  have hlt := wordField_lt v 8 8
  exact (get_applyFields meshCtlPlain_plain Reg.MESH_CTL.off v (g := ⟨8, 8, .rw, 16, 1, 255⟩) (by decide)).trans
    (if_pos ⟨Nat.pos_of_ne_zero h, Nat.le_of_lt_succ hlt⟩)

theorem get_meshCtlSet_ne (s : State) (v : Word) {g : Fld} (h : g.off ≠ Reg.MESH_CTL.off) : (meshCtlSet v s).get g = s.get g :=
  get_applyFields_ne s _ v h

/-- The fields that a MESH_CTL write may change. -/
abbrev meshCtlFields : List Fld := [Reg.MESH_CTL.ADAPT_EN, Reg.MESH_CTL.HOPS_INIT, Reg.MESH_STS.NEXT_ARMED, Reg.MESH_STS.WR_REJ]

theorem fieldsBut_meshCtlSet (s : State) (v : Word) : FieldsBut meshCtlFields s (meshCtlSet v s) :=
  fieldsBut_applyFields s meshCtlPlain_plain _ v (by decide)

/-- What a write does to the armed bank. -/
inductive BankMove where
  | refuse
  | arm
  | disarm

/-- The effect of a write on MESH_STS. -/
def BankMove.act (m : BankMove) (s : State) : State :=
  match m with
  | .refuse => s.put Reg.MESH_STS.WR_REJ 1
  | .arm => s.put Reg.MESH_STS.NEXT_ARMED 1
  | .disarm => s.put Reg.MESH_STS.NEXT_ARMED 0

theorem BankMove.fieldsBut {s t : State} (m : BankMove) (h : FieldsBut meshCtlFields s t) : FieldsBut meshCtlFields s (m.act t) := by
  cases m with
  | refuse => exact fieldsBut_put _ _ h (by decide) (by simp)
  | arm => exact fieldsBut_put _ _ h (by decide) (by simp)
  | disarm => exact fieldsBut_put _ _ h (by decide) (by simp)

/-- MESH_CTL is another register. -/
theorem BankMove.get_ctl (m : BankMove) (s : State) {g : Fld} (h : g.off = Reg.MESH_CTL.off) : (m.act s).get g = s.get g := by
  have hne : g.off ≠ Reg.MESH_STS.off := by
    rw [h]
    decide
  cases m with
  | refuse => exact get_put_ne s _ _ _ hne
  | arm => exact get_put_ne s _ _ _ hne
  | disarm => exact get_put_ne s _ _ _ hne

theorem BankMove.get_refuse (s : State) : (BankMove.refuse.act s).get Reg.MESH_STS.WR_REJ = 1
    ∧ (BankMove.refuse.act s).get Reg.MESH_STS.NEXT_ARMED = s.get Reg.MESH_STS.NEXT_ARMED :=
  ⟨get_put_fits s _ _ (by decide) (by decide), get_put_disjoint s _ _ _ (by decide) (by decide) (by decide)⟩

theorem BankMove.get_arm (s : State) : (BankMove.arm.act s).get Reg.MESH_STS.NEXT_ARMED = 1
    ∧ (BankMove.arm.act s).get Reg.MESH_STS.WR_REJ = s.get Reg.MESH_STS.WR_REJ :=
  ⟨get_put_fits s _ _ (by decide) (by decide), get_put_disjoint s _ _ _ (by decide) (by decide) (by decide)⟩

theorem BankMove.get_disarm (s : State) : (BankMove.disarm.act s).get Reg.MESH_STS.NEXT_ARMED = 0
    ∧ (BankMove.disarm.act s).get Reg.MESH_STS.WR_REJ = s.get Reg.MESH_STS.WR_REJ :=
  ⟨get_put_fits s _ _ (by decide) (by decide), get_put_disjoint s _ _ _ (by decide) (by decide) (by decide)⟩

/-- A bit that a mask does not name. -/
theorem wordField_or_apart (v m : Word) {lo w : Nat} (h : m.extractLsb' lo w = 0#w) : wordField (v ||| m) lo w = wordField v lo w := by
  unfold wordField
  rw [BitVec.extractLsb'_or, h, BitVec.or_zero]

theorem wordField_or_bit (v m : Word) {lo : Nat} (h : m.extractLsb' lo 1 = 1#1) : wordField (v ||| m) lo 1 = 1 := by
  have hor : ∀ b : BitVec 1, b ||| 1#1 = 1#1 := by decide
  unfold wordField
  rw [BitVec.extractLsb'_or, h, hor]
  rfl

/-- What an ARM write does (R109). -/
def armMove (s : State) (v : Word) : BankMove := if wordField v 1 1 = 1 ∨ s.get Reg.MESH_STS.OLD_RETAINED = 1 then .refuse else .arm

theorem meshCtlEff_arm (s : State) (v : Word) : meshCtlEff (v ||| 1#32) s = (armMove s v).act (meshCtlSet (v ||| 1#32) s) := by
  have hret : (meshCtlSet (v ||| 1#32) s).flag Reg.MESH_STS.OLD_RETAINED = decide (s.get Reg.MESH_STS.OLD_RETAINED = 1) := by
    rw [flag_of_bit rfl, get_meshCtlSet_ne s _ (by decide)]
  unfold meshCtlEff armMove
  dsimp only
  rw [applyWrite_meshCtl, wordField_or_bit v 1#32 (lo := 0) (by decide), wordField_or_apart v 1#32 (lo := 1) (w := 1) (by decide), hret]
  by_cases hdis : wordField v 1 1 = 1
  · simp [hdis, BankMove.act]
  · by_cases hold : s.get Reg.MESH_STS.OLD_RETAINED = 1
    · simp [hdis, hold, BankMove.act]
    · simp [hdis, hold, BankMove.act]

/-- What a DISARM write does (R109). -/
def disarmMove (s : State) (v : Word) : BankMove :=
  if wordField v 0 1 = 1 ∨ s.sched.pend.any (fun e => e.2.tableSwitch) = true then .refuse else .disarm

theorem meshCtlEff_disarm (s : State) (v : Word) : meshCtlEff (v ||| 2#32) s = (disarmMove s v).act (meshCtlSet (v ||| 2#32) s) := by
  have hsched : (meshCtlSet (v ||| 2#32) s).sched = s.sched := rfl
  unfold meshCtlEff disarmMove
  dsimp only
  rw [applyWrite_meshCtl, wordField_or_bit v 2#32 (lo := 1) (by decide), wordField_or_apart v 2#32 (lo := 0) (w := 1) (by decide), hsched]
  by_cases harm : wordField v 0 1 = 1
  · simp [harm, BankMove.act]
  · by_cases hpend : s.sched.pend.any (fun e => e.2.tableSwitch) = true
    · simp [harm, hpend, BankMove.act]
    · simp [harm, hpend, BankMove.act]

theorem completes_meshArm (s : State) (h : HostId) (v : Word) (ht : Takes s h Reg.MESH_CTL.off) :
    Completes (.meshArm h v) s fun t =>
      (wordField v 1 1 = 1 ∨ s.get Reg.MESH_STS.OLD_RETAINED = 1 → t.get Reg.MESH_STS.WR_REJ = 1
          ∧ t.get Reg.MESH_STS.NEXT_ARMED = s.get Reg.MESH_STS.NEXT_ARMED)
      ∧ (wordField v 1 1 = 0 → s.get Reg.MESH_STS.OLD_RETAINED = 0 → t.get Reg.MESH_STS.NEXT_ARMED = 1
          ∧ t.get Reg.MESH_STS.WR_REJ = s.get Reg.MESH_STS.WR_REJ)
      ∧ t.get Reg.MESH_CTL.ADAPT_EN = wordField v 2 1 ∧ (wordField v 8 8 ≠ 0 → t.get Reg.MESH_CTL.HOPS_INIT = wordField v 8 8)
      ∧ FieldsBut [Reg.MESH_CTL.ADAPT_EN, Reg.MESH_CTL.HOPS_INIT, Reg.MESH_STS.NEXT_ARMED, Reg.MESH_STS.WR_REJ] s t
      ∧ t = { s with regs := t.regs } := by
  have hadapt : wordField (v ||| 1#32) 2 1 = wordField v 2 1 := wordField_or_apart v 1#32 (by decide)
  have hhops : wordField (v ||| 1#32) 8 8 = wordField v 8 8 := wordField_or_apart v 1#32 (by decide)
  have hsts {g : Fld} (hg : g.off = Reg.MESH_STS.off) : (meshCtlSet (v ||| 1#32) s).get g = s.get g :=
    get_meshCtlSet_ne s _ (by rw [hg]; decide)
  refine ⟨meshCtlEff (v ||| 1#32) s, congrArg Host.Outcome.next (hostWrite_takes _ ht), fun hr => ?_, fun h1 h0 => ?_, ?_, fun h8 => ?_, ?_,
    eq_patch_of_same (meshCtlEff_same _ s)⟩
  all_goals rw [meshCtlEff_arm]
  · obtain ⟨hrej, hkeep⟩ := BankMove.get_refuse (meshCtlSet (v ||| 1#32) s)
    rw [armMove, if_pos hr]
    exact ⟨hrej, hkeep.trans (hsts rfl)⟩
  · obtain ⟨harm, hkeep⟩ := BankMove.get_arm (meshCtlSet (v ||| 1#32) s)
    rw [armMove, if_neg (by omega)]
    exact ⟨harm, hkeep.trans (hsts rfl)⟩
  · rw [BankMove.get_ctl _ _ rfl, get_meshCtlSet_adapt, hadapt]
  · rw [BankMove.get_ctl _ _ rfl, get_meshCtlSet_hops s (by rwa [hhops]), hhops]
  · exact (armMove s v).fieldsBut (fieldsBut_meshCtlSet s _)

theorem completes_meshDisarm (s : State) (h : HostId) (v : Word) (ht : Takes s h Reg.MESH_CTL.off) :
    Completes (.meshDisarm h v) s fun t =>
      (wordField v 0 1 = 1 ∨ s.sched.pend.any (fun e => e.2.tableSwitch) = true → t.get Reg.MESH_STS.WR_REJ = 1
          ∧ t.get Reg.MESH_STS.NEXT_ARMED = s.get Reg.MESH_STS.NEXT_ARMED)
      ∧ (wordField v 0 1 = 0 → s.sched.pend.any (fun e => e.2.tableSwitch) = false → t.get Reg.MESH_STS.NEXT_ARMED = 0
          ∧ t.get Reg.MESH_STS.WR_REJ = s.get Reg.MESH_STS.WR_REJ)
      ∧ FieldsBut [Reg.MESH_CTL.ADAPT_EN, Reg.MESH_CTL.HOPS_INIT, Reg.MESH_STS.NEXT_ARMED, Reg.MESH_STS.WR_REJ] s t
      ∧ t = { s with regs := t.regs } := by
  have hsts {g : Fld} (hg : g.off = Reg.MESH_STS.off) : (meshCtlSet (v ||| 2#32) s).get g = s.get g :=
    get_meshCtlSet_ne s _ (by rw [hg]; decide)
  refine ⟨meshCtlEff (v ||| 2#32) s, congrArg Host.Outcome.next (hostWrite_takes _ ht), fun hr => ?_, fun h0 hp => ?_, ?_,
    eq_patch_of_same (meshCtlEff_same _ s)⟩
  all_goals rw [meshCtlEff_disarm]
  · obtain ⟨hrej, hkeep⟩ := BankMove.get_refuse (meshCtlSet (v ||| 2#32) s)
    rw [disarmMove, if_pos hr]
    exact ⟨hrej, hkeep.trans (hsts rfl)⟩
  · obtain ⟨hdis, hkeep⟩ := BankMove.get_disarm (meshCtlSet (v ||| 2#32) s)
    rw [disarmMove, if_neg (by simp [h0, hp])]
    exact ⟨hdis, hkeep.trans (hsts rfl)⟩
  · exact (disarmMove s v).fieldsBut (fieldsBut_meshCtlSet s _)

/-! The table banks -/

theorem mem_of_findReg? {o : Nat} {rs : List RegRow} {r : RegRow} {idx : List Nat} (h : findReg? o rs = some (r, idx)) : r ∈ rs := by
  induction rs with
  | nil => simp [findReg?] at h
  | cons a rs ih =>
    unfold findReg? at h
    split at h
    · exact List.mem_cons_of_mem _ (ih h)
    · split at h
      · simp only [Option.some.injEq, Prod.mk.injEq] at h
        rw [← h.1]
        exact List.mem_cons_self
      · exact List.mem_cons_of_mem _ (ih h)

theorem regRowsAt_mesh {o : Nat} (hlo : 0x300000 ≤ o) (hhi : o < 0x400000) : regRowsAt o = regsMESH := by
  unfold regRowsAt
  rw [if_neg (by omega), if_neg (by omega), if_neg (by omega), if_neg (by omega), if_neg (by omega), if_neg (by omega), if_neg (by omega),
    if_neg (by omega), if_pos hhi]

theorem regsMESH_unlocked : ∀ r ∈ regsMESH, r.fields.any (fun f => f.acc == .rwl) = false := by decide

/-- A write of a table word changes that word alone. -/
theorem applyWrite_bank {off : Nat} (h : inBanks off = true) (s : State) (v : Word) :
    s.applyWrite off v = s ∨ ∃ w, s.applyWrite off v = s.setReg off w := by
  simp only [inBanks, Bool.and_eq_true, decide_eq_true_eq] at h
  cases hreg : regAt? off with
  | none => exact .inl (by simp [State.applyWrite, hreg])
  | some e =>
    obtain ⟨r, idx⟩ := e
    have hfind : findReg? off regsMESH = some (r, idx) := by
      rw [← hreg, regAt?, regRowsAt_mesh (by omega) (by omega)]
    exact .inr ⟨_, applyWrite_plain hreg (regsMESH_unlocked r (mem_of_findReg? hfind)) v⟩

theorem get_zero_width (s : State) {g : Fld} (h : g.w = 0) : s.get g = 0 := by
  have hlt := get_lt s g
  rw [h] at hlt
  omega

theorem fieldsBut_setReg {fs : List Fld} (s : State) {off : Nat} (w : Word) (hm : ⟨off, 0, 32⟩ ∈ fs) : FieldsBut fs s (s.setReg off w) := by
  intro g hg ha
  by_cases ho : g.off = off
  · have hw : g.w = 0 := by
      rcases ha _ hm with h | h | h
      · exact absurd ho h
      · dsimp only at h
        omega
      · dsimp only at h
        omega
    rw [get_zero_width _ hw, get_zero_width _ hw]
  · unfold State.get
    rw [reg_setReg_ne s w ho]

/-- A table word may be written: no frame looks it up and none will (R110). -/
abbrev BankFree (s : State) (off : Nat) : Prop :=
  ((off - 0x310000) / 0x8000 ≠ s.get Reg.MESH_STS.EPOCH ∧ s.flag Reg.MESH_STS.OLD_RETAINED = false ∧ s.flag Reg.MESH_STS.NEXT_ARMED = false)
    ∨ ((off - 0x310000) / 0x8000 = s.get Reg.MESH_STS.EPOCH ∧ s.schedBusy = false)

section
variable {s : State} {off : Nat} {v : Word} (hin : inBanks off = true)
include hin

theorem tableWriteEff_free (h : BankFree s off) : tableWriteEff off v s = s.applyWrite off v := by
  unfold tableWriteEff
  dsimp only
  rw [hin, Bool.not_true, if_neg Bool.false_ne_true, if_pos h]

theorem tableWriteEff_used (h : ¬ BankFree s off) : tableWriteEff off v s = s.put Reg.MESH_STS.WR_REJ 1 := by
  unfold tableWriteEff
  dsimp only
  rw [hin, Bool.not_true, if_neg Bool.false_ne_true, if_neg h]

theorem fieldsBut_tableWriteEff : FieldsBut [⟨off, 0, 32⟩, Reg.MESH_STS.WR_REJ] s (tableWriteEff off v s) := by
  by_cases h : BankFree s off
  · rw [tableWriteEff_free hin h]
    rcases applyWrite_bank hin s v with e | ⟨w, e⟩ <;> rw [e]
    · exact fieldsBut_refl _ s
    · exact fieldsBut_setReg s w (by simp)
  · rw [tableWriteEff_used hin h]
    exact fieldsBut_put _ _ (fieldsBut_refl _ s) (by decide) (by simp)

end

theorem completes_routingTableWrite (s : State) (h : HostId) (off : Nat) (v : Word) (ht : Takes s h off) (hin : inBanks off = true) :
    Completes (.routingTableWrite h off v) s fun t =>
      ∃ u : State, t = u.pathsChanged ∧ ((off - 0x310000) / 0x8000 ≠ s.get Reg.MESH_STS.EPOCH → s.get Reg.MESH_STS.OLD_RETAINED = 0 →
          s.get Reg.MESH_STS.NEXT_ARMED = 0 → u = s.applyWrite off v)
      ∧ ((off - 0x310000) / 0x8000 = s.get Reg.MESH_STS.EPOCH → s.schedBusy = false → u = s.applyWrite off v)
      ∧ ((off - 0x310000) / 0x8000 = s.get Reg.MESH_STS.EPOCH → s.schedBusy = true → u = s.put Reg.MESH_STS.WR_REJ 1)
      ∧ ((off - 0x310000) / 0x8000 ≠ s.get Reg.MESH_STS.EPOCH → s.get Reg.MESH_STS.OLD_RETAINED = 1 ∨ s.get Reg.MESH_STS.NEXT_ARMED = 1 →
          u = s.put Reg.MESH_STS.WR_REJ 1)
      ∧ FieldsBut [⟨off, 0, 32⟩, Reg.MESH_STS.WR_REJ] s u ∧ u = { s with regs := u.regs } ∧ TrafficOnly s t := by
  have hsame := tableWriteEff_same off v s
  refine ⟨(tableWriteEff off v s).pathsChanged, congrArg Host.Outcome.next (hostWrite_takes _ ht), tableWriteEff off v s, rfl,
    fun hb ho hn => tableWriteEff_free hin (.inl ⟨hb, ?_, ?_⟩), fun hb hs => tableWriteEff_free hin (.inr ⟨hb, hs⟩),
    fun hb hs => tableWriteEff_used hin ?_, fun hb hu => tableWriteEff_used hin ?_, fieldsBut_tableWriteEff hin, eq_patch_of_same hsame,
    trafficOnly_of_same ((hsame.mono (by decide)).trans (pathsChanged_same _)) (by decide)⟩
  · simp [State.flag, ho]
  · simp [State.flag, hn]
  · simp [BankFree, hb, hs]
  · rcases hu with hu | hu <;> simp [BankFree, State.flag, hb, hu]

/-- Settles O12, register by register through the lemmas above. -/
theorem portAndMeshConfiguration : Obligations.PortAndMeshConfiguration := by
  unfold Obligations.PortAndMeshConfiguration
  exact ⟨completes_linkCfgWrite, completes_linkBufClassWrite, completes_meshSelfWrite, completes_meshArm, completes_meshDisarm,
    completes_routingTableWrite⟩

end Sys2Proof.Machine.Proofs
end

section
/-! PROOFS. An Ethernet frame for an endpoint that fenced mesh links cut off (04_routing_and_mesh.md R115). -/

namespace Sys2Proof.Machine.Proofs

open Laws

/-- A broadcast frame of 64 bytes whose destination queue pair, where a BTH would stand, has its home bank in cluster 1. -/
def strandedFrame : List Byte :=
  let body := List.replicate 6 0xFF#8 ++ List.replicate 43 0#8 ++ [1#8] ++ List.replicate 10 0#8
  body ++ crcBytes body false

/-- Ethernet port 0 is up on its sub-port, and the link from its router 0 to router 1 is fenced. -/
def cutOff : State :=
  { State.reset with regs := [(Reg.LINK_STS.off 0, 2), (Reg.MESH_LINK_FENCE.off 0, 1)], ports := [(0, { subsUp := [0] })] }

/-- The frame meets every premise of the clause about frames for the device's endpoints. -/
theorem strandedFrame_received :
    cutOff.native 0 = false ∧ 0 < cutOff.subports 0 ∧ cutOff.linkOn 0 = true ∧ cutOff.subUp 0 0 = true
      ∧ 64 ≤ strandedFrame.length ∧ strandedFrame.length ≤ 9216
      ∧ beNat (slice (strandedFrame.take (strandedFrame.length - 4)) 12 2) ≠ 0x8808
      ∧ ptpFrame (strandedFrame.take (strandedFrame.length - 4)) = false
      ∧ cutOff.ethForDevice 0 0 (strandedFrame.take (strandedFrame.length - 4)) = true
      ∧ 4 ≤ cutOff.ethClass 0 (strandedFrame.take (strandedFrame.length - 4))
      ∧ cutOff.classFull 0 0 (cutOff.ethClass 0 (strandedFrame.take (strandedFrame.length - 4))) (ceilDiv strandedFrame.length 256) = false
      ∧ cutOff.inP2 = false ∧ crcGood strandedFrame = true := by
  decide +kernel

/-- It is dropped and counted for want of a way. -/
theorem strandedFrame_counted :
    cutOff.get Reg.MESH_NOROUTE_DROP.COUNT = 0
      ∧ (ethReceiveEff 0 0 strandedFrame false cutOff).get Reg.MESH_NOROUTE_DROP.COUNT = 1 := by
  decide +kernel

/-- Refutes O10: a good frame for an endpoint that no dimension order reaches past the fenced links changes MESH_NOROUTE_DROP, and the
clause about such frames lets no register field change but the drain count, whatever links are fenced. -/
theorem not_frameReception : ¬ Obligations.FrameReception := by
  unfold Obligations.FrameReception
  rintro ⟨heth, -⟩
  obtain ⟨t, ht, -, -, htake, -⟩ := heth cutOff 0 0 strandedFrame false
  obtain ⟨hnative, hsub, hon, hup, hmin, hmax, hpause, hptp, hmine, hcls, hroom, hp2, hcrc⟩ := strandedFrame_received
  obtain ⟨-, hdevice⟩ := htake hnative hsub hon hup hmin hmax hpause hptp
  obtain ⟨hfields, -⟩ := hdevice hmine hcls hroom hp2 hcrc
  have hsame := hfields Reg.MESH_NOROUTE_DROP.COUNT (by decide) (by decide +kernel)
  obtain ⟨hbefore, hafter⟩ := strandedFrame_counted
  have htaken : ethReceiveEff 0 0 strandedFrame false cutOff = t := Host.Outcome.next.inj ht
  rw [htaken, hsame, hbefore] at hafter
  exact absurd hafter (by decide)

end Sys2Proof.Machine.Proofs
end

section
/-! PROOFS. Release and drain of a retained table bank, the return of a flow to its primary path, and the end of a sample interval
(04_routing_and_mesh.md R107, R108, R113; 18_errors_and_telemetry.md R477). -/

namespace Sys2Proof.Machine.Proofs

open Laws

/-! RETAINED_BANK_RELEASE -/

/-- The bank that is not current is retained and no frame is under its epoch. -/
abbrev BankDrained (s : State) : Prop :=
  s.get Reg.MESH_STS.OLD_RETAINED = 1 ∧ s.get (Reg.MESH_DRAIN.COUNT (1 - s.get Reg.MESH_STS.EPOCH)) = 0

theorem bankReleaseEff_eq (s : State) : bankReleaseEff s = if BankDrained s then s.put Reg.MESH_STS.OLD_RETAINED 0 else s := by
  simp [bankReleaseEff, flag_of_bit (s := s) (f := Reg.MESH_STS.OLD_RETAINED) rfl, BankDrained]

theorem completes_retainedBankRelease (s : State) :
    Completes (.retainedBankRelease) s fun t =>
      (s.get Reg.MESH_STS.OLD_RETAINED = 1 → s.get (Reg.MESH_DRAIN.COUNT (1 - s.get Reg.MESH_STS.EPOCH)) = 0 →
        t = s.put Reg.MESH_STS.OLD_RETAINED 0)
      ∧ (s.get Reg.MESH_STS.OLD_RETAINED = 0 ∨ s.get (Reg.MESH_DRAIN.COUNT (1 - s.get Reg.MESH_STS.EPOCH)) ≠ 0 → t = s) := by
  refine ⟨bankReleaseEff s, rfl, fun hr hc => ?_, fun h => ?_⟩
  · rw [bankReleaseEff_eq, if_pos ⟨hr, hc⟩]
  · rw [bankReleaseEff_eq, if_neg]
    rintro ⟨hr, hc⟩
    rcases h with h | h
    · exact absurd (hr.symm.trans h) (by decide)
    · exact h hc

/-! What the discard of a frame leaves alone -/

/-- MESH_STS reads as before, and every frame that waits on the mesh, for an endpoint or for a stage core still does. -/
structure InsideStays (s t : State) : Prop where
  status : t.reg Reg.MESH_STS.off = s.reg Reg.MESH_STS.off
  crossings : t.mesh.crossings = s.mesh.crossings
  rxq : t.rxq = s.rxq
  stageIn : t.stageIn = s.stageIn

theorem insideStays_refl (s : State) : InsideStays s s := ⟨rfl, rfl, rfl, rfl⟩

theorem InsideStays.trans {s t u : State} (h : InsideStays s t) (h' : InsideStays t u) : InsideStays s u :=
  ⟨h'.status.trans h.status, h'.crossings.trans h.crossings, h'.rxq.trans h.rxq, h'.stageIn.trans h.stageIn⟩

/-- The same, and no transmit queue changes either. -/
structure FramesStay (s t : State) : Prop where
  inside : InsideStays s t
  txq : ∀ q, (t.port q).txq = (s.port q).txq

theorem framesStay_refl (s : State) : FramesStay s s := ⟨insideStays_refl s, fun _ => rfl⟩

theorem FramesStay.trans {s t u : State} (h : FramesStay s t) (h' : FramesStay t u) : FramesStay s u :=
  ⟨h.inside.trans h'.inside, fun q => (h'.txq q).trans (h.txq q)⟩

theorem FramesStay.foldl {α : Type} {f : State → α → State} (hf : ∀ s a, FramesStay s (f s a)) (l : List α) (s : State) :
    FramesStay s (l.foldl f s) := by
  induction l generalizing s with
  | nil => exact framesStay_refl s
  | cons a l ih => exact (hf s a).trans (ih _)

/-- An operation whose frame names neither the mesh nor a queue behind it: the transmit queues and MESH_STS are left to show. -/
theorem framesStay_of_same {m : Nat} {s t : State} (h : Same m s t) (hm : m ||| 35184372089026 = 35184372089026)
    (hstatus : t.reg Reg.MESH_STS.off = s.reg Reg.MESH_STS.off) (htxq : ∀ q, (t.port q).txq = (s.port q).txq) : FramesStay s t :=
  have h := h.mono hm
  ⟨⟨hstatus, congrArg Mesh.crossings (h.mesh rfl), h.rxq rfl, h.stageIn rfl⟩, htxq⟩

theorem framesStay_count (s : State) (f : Fld) (h : Reg.MESH_STS.off ≠ f.off) : FramesStay s (s.count f) :=
  ⟨⟨reg_count_ne s f 1 h, rfl, rfl, rfl⟩, fun _ => rfl⟩

theorem framesStay_drainDrop (s : State) : FramesStay s (s.count Reg.MESH_DRAIN_DROP.COUNT) := framesStay_count s _ (by decide)

theorem meshSts_ne_drain (e : Nat) : Reg.MESH_STS.off ≠ Reg.MESH_DRAIN.off e := by
  simp only [Reg.MESH_STS.off, Reg.MESH_DRAIN.off]
  omega

theorem reg_leave_status (s : State) (e : Nat) : (s.leave e).reg Reg.MESH_STS.off = s.reg Reg.MESH_STS.off :=
  reg_put_ne s _ _ (meshSts_ne_drain e)

theorem framesStay_leave (s : State) (e : Nat) : FramesStay s (s.leave e) := ⟨⟨reg_leave_status s e, rfl, rfl, rfl⟩, fun _ => rfl⟩

theorem reg_of_regs {s t : State} (h : t.regs = s.regs) (o : Nat) : t.reg o = s.reg o := by
  unfold State.reg
  rw [h]

/-- Of the registers a frame that is gone changes its epoch's drain count alone. -/
theorem frameGone_regs (s : State) (f : Frame) : (s.frameGone f).regs = (if f.counted then s.leave f.epoch else s).regs := by
  unfold State.frameGone
  extract_lets +onlyGivenNames t u rt v
  have hfree : u.regs = t.regs := by
    unfold u
    split
    · exact (freeCells_same ..).regs rfl
    · rfl
  have hback : v.regs = t.regs := by
    unfold v
    split
    · exact hfree
    · exact hfree
  split
  · exact hback
  · exact hback

theorem framesStay_frameGone (s : State) (f : Frame) : FramesStay s (s.frameGone f) := by
  refine framesStay_of_same (frameGone_same s f) (by decide) ((reg_of_regs (frameGone_regs s f) _).trans ?_) fun q => ?_
  · split
    · exact reg_leave_status s _
    · rfl
  · rw [(dropsOnly_frameGone s f).port q]

theorem framesStay_pktGone (s : State) (x : RxPkt) : FramesStay s (s.pktGone x) := framesStay_frameGone s x.frame

theorem framesStay_unqueued (s : State) (f : Frame) : FramesStay s (s.unqueued f) :=
  have h := flowDepth_same s f.flow (-(Int.ofNat f.cells))
  (framesStay_of_same h (by decide) (reg_of_regs (h.regs rfl) _) fun q => by rw [port_of_ports (h.ports rfl)]).trans
    (framesStay_frameGone _ f)

theorem framesStay_sendPause (s : State) (p sub cls : Nat) (on : Bool) : FramesStay s (s.sendPause p sub cls on) :=
  framesStay_of_same (sendPause_same s p sub cls on) (by decide) (reg_of_regs (sendPause_regs ..) _) fun q => by
    rw [port_of_ports (sendPause_ports s p sub cls on)]

/-- A change of a port outside its transmit queue. -/
theorem framesStay_setPort {s : State} {p : Nat} {x : Port} (h : x.txq = (s.port p).txq) : FramesStay s (s.setPort p x) := by
  refine ⟨⟨rfl, rfl, rfl, rfl⟩, fun q => ?_⟩
  by_cases hq : q = p
  · rw [hq, port_setPort_self, h]
  · rw [port_setPort_ne s x hq]

theorem framesStay_missRelease (s : State) (p : Nat) : FramesStay s (s.missRelease p) := by
  unfold State.missRelease
  dsimp only
  split
  · have hmarks : FramesStay s (s.setPort p { s.port p with missOff := [] }) := framesStay_setPort rfl
    refine hmarks.trans (FramesStay.foldl (fun u k => ?_) _ _)
    split
    · exact framesStay_refl u
    · exact framesStay_sendPause u _ _ _ _
  · exact framesStay_refl s

theorem framesStay_pinOff (s : State) (pin : Option Nat) : FramesStay s (s.pinOff pin) := by
  cases pin with
  | none => exact framesStay_refl s
  | some k => exact ⟨⟨rfl, rfl, rfl, rfl⟩, fun _ => rfl⟩

/-! DRAIN_LIMIT_EXPIRY -/

/-- Some ports have lost the frames of an epoch from their transmit queues; every other frame that waits still does. -/
structure PortsDrained (e : Nat) (ps : List Nat) (s t : State) : Prop where
  inside : InsideStays s t
  txq : ∀ q, (t.port q).txq = if q ∈ ps then (s.port q).txq.filter (fun f => f.epoch != e) else (s.port q).txq

theorem portsDrained_drainPort (e : Nat) (s : State) (p : Nat) : PortsDrained e [p] s (s.drainPort e p) := by
  unfold State.drainPort
  extract_lets +onlyGivenNames x cleared unsent missed released
  have hunsent : FramesStay cleared unsent := FramesStay.foldl (fun u f => (framesStay_unqueued u f).trans (framesStay_drainDrop _)) _ _
  have hmissed : FramesStay unsent missed := FramesStay.foldl (fun u f => (framesStay_pktGone u f).trans (framesStay_drainDrop _)) _ _
  have hreleased : FramesStay missed released := framesStay_missRelease missed p
  have hopen := FramesStay.foldl (fun u (_ : Nat × Nat × List Byte) => (framesStay_leave u e).trans (framesStay_drainDrop _))
    (x.rxOpen.filter (fun o => o.2.1 == e)) released
  have hstay := ((hunsent.trans hmissed).trans hreleased).trans hopen
  have hcleared : InsideStays s cleared := ⟨rfl, rfl, rfl, rfl⟩
  refine ⟨hcleared.trans hstay.inside, fun q => (hstay.txq q).trans ?_⟩
  by_cases hq : q = p
  · rw [if_pos (List.mem_singleton.mpr hq), hq, port_setPort_self]
  · rw [if_neg (by simpa using hq), port_setPort_ne s _ hq]

theorem portsDrained_foldl (e : Nat) (ps : List Nat) (s : State) : PortsDrained e ps s (ps.foldl (State.drainPort e) s) := by
  induction ps generalizing s with
  | nil => exact ⟨insideStays_refl s, fun _ => rfl⟩
  | cons p ps ih =>
    have hp := portsDrained_drainPort e s p
    have hps := ih (s.drainPort e p)
    refine ⟨hp.inside.trans hps.inside, fun q => (hps.txq q).trans ?_⟩
    rw [hp.txq q]
    by_cases hq : q = p
    · simp [hq]
    · simp [hq]

/-- The state without the frames of an epoch on the mesh and on their way to endpoints and stage cores. -/
def insideCleared (e : Nat) (s : State) : State :=
  { s with mesh := { s.mesh with crossings := s.mesh.crossings.filter (fun x => x.frame.epoch != e) }
           rxq := s.rxq.filter (fun x => x.epoch != e), stageIn := s.stageIn.filter (fun x => x.epoch != e) }

theorem framesStay_drainInside (s : State) (e : Nat) : FramesStay (insideCleared e s) (s.drainInside e) := by
  unfold State.drainInside
  extract_lets +onlyGivenNames cs rs ss mesh cleared crossed received
  have hcrossed : FramesStay cleared crossed := FramesStay.foldl
    (fun u (x : Crossing) => ((framesStay_pinOff u x.pin).trans (framesStay_frameGone _ x.frame)).trans (framesStay_drainDrop _)) _ _
  have hreceived : FramesStay crossed received := FramesStay.foldl (fun u x => (framesStay_pktGone u x).trans (framesStay_drainDrop _)) _ _
  exact (hcrossed.trans hreceived).trans
    (FramesStay.foldl (fun u (x : StageFrame) => (framesStay_frameGone u x.frame).trans (framesStay_drainDrop _)) _ _)

/-- The frames of an epoch that wait at some ports and inside the device are discarded. -/
def epochDrained (e : Nat) (ps : List Nat) (s : State) : State := (ps.foldl (State.drainPort e) s).drainInside e

theorem drainLimitEff_idle {s : State} (h : s.get Reg.MESH_STS.OLD_RETAINED = 0) : drainLimitEff s = s := by
  simp [drainLimitEff, State.flag, h]

theorem drainLimitEff_drains {s : State} (h : s.get Reg.MESH_STS.OLD_RETAINED = 1) :
    drainLimitEff s = ((epochDrained (1 - s.get Reg.MESH_STS.EPOCH) (List.range 64) s).put
      (Reg.MESH_DRAIN.COUNT (1 - s.get Reg.MESH_STS.EPOCH)) 0).put Reg.MESH_STS.OLD_RETAINED 0 := by
  simp [drainLimitEff, State.flag, h, epochDrained]

theorem epochDrained_txq (e : Nat) {ps : List Nat} (s : State) {p : Nat} (h : p ∈ ps) :
    ((epochDrained e ps s).port p).txq = (s.port p).txq.filter (fun f => f.epoch != e) :=
  ((framesStay_drainInside _ e).txq p).trans (((portsDrained_foldl e ps s).txq p).trans (if_pos h))

/-- What stands inside the device behind its ports once an epoch is drained. -/
theorem insideStays_epochDrained (e : Nat) (ps : List Nat) (s : State) : InsideStays (insideCleared e s) (epochDrained e ps s) := by
  obtain ⟨hstatus, hcrossings, hrxq, hstage⟩ := (portsDrained_foldl e ps s).inside
  have hcleared : InsideStays (insideCleared e s) (insideCleared e (ps.foldl (State.drainPort e) s)) :=
    ⟨hstatus, congrArg (List.filter _) hcrossings, congrArg (List.filter _) hrxq, congrArg (List.filter _) hstage⟩
  exact hcleared.trans (framesStay_drainInside _ e).inside

theorem get_epochDrained_epoch (e : Nat) (ps : List Nat) (s : State) :
    (epochDrained e ps s).get Reg.MESH_STS.EPOCH = s.get Reg.MESH_STS.EPOCH :=
  congrArg (wordField · 0 1) (insideStays_epochDrained e ps s).status

theorem completes_drainLimitExpiry (s : State) :
    Completes (.drainLimitExpiry) s fun t =>
      (s.get Reg.MESH_STS.OLD_RETAINED = 0 → t = s)
      ∧ (s.get Reg.MESH_STS.OLD_RETAINED = 1 → t.get Reg.MESH_STS.OLD_RETAINED = 0
          ∧ t.get (Reg.MESH_DRAIN.COUNT (1 - s.get Reg.MESH_STS.EPOCH)) = 0
          ∧ t.get Reg.MESH_STS.EPOCH = s.get Reg.MESH_STS.EPOCH
          ∧ (∀ p : Fin 64, (t.port p).txq = (s.port p).txq.filter (fun f => f.epoch != 1 - s.get Reg.MESH_STS.EPOCH))
          ∧ t.rxq = s.rxq.filter (fun x => x.epoch != 1 - s.get Reg.MESH_STS.EPOCH)
          ∧ t.stageIn = s.stageIn.filter (fun x => x.epoch != 1 - s.get Reg.MESH_STS.EPOCH)
          ∧ t.mesh.crossings = s.mesh.crossings.filter (fun x => x.frame.epoch != 1 - s.get Reg.MESH_STS.EPOCH))
      ∧ t = { s with regs := t.regs, sched := t.sched, ports := t.ports, mesh := t.mesh, rxq := t.rxq, stageIn := t.stageIn, out := t.out } := by
  refine ⟨drainLimitEff s, rfl, drainLimitEff_idle, fun h => ?_, eq_patch_of_same (drainLimitEff_same s)⟩
  rw [drainLimitEff_drains h]
  generalize 1 - s.get Reg.MESH_STS.EPOCH = e
  have hports (p : Fin 64) : p.val ∈ List.range 64 := List.mem_range.mpr p.isLt
  generalize List.range 64 = ps at hports
  have hinside := insideStays_epochDrained e ps s
  refine ⟨get_put_value rfl rfl, ?_, ?_, fun p => epochDrained_txq e s (hports p), hinside.rxq, hinside.stageIn, hinside.crossings⟩
  · rw [get_put_ne _ _ _ _ (meshSts_ne_drain e).symm]
    exact get_put_value rfl rfl
  · rw [get_put_apart rfl, get_put_ne _ _ _ _ (meshSts_ne_drain e)]
    exact get_epochDrained_epoch e ps s

/-! FLOW_RETURN_PRIMARY -/

/-- A flow on its backup path may return to the path p, the primary path of its record x: no frame of it is on the backup, nothing blocks the
primary, and the slot begins its merged cycle (R113). -/
structure MayReturn (s : State) (flow : Nat) (x : Image × FlowRec) (p : PathRec) : Prop where
  record : flowIn (s.activeImages ++ s.sched.kept) flow = some x
  path : x.1.pathOf x.2 false = some p
  onBackup : (s.flowRt flow).onBackup = true
  drained : (s.flowRt flow).backupFrames = 0
  clear : s.pathBlocked p (s.flowCls x.2) = false
  boundary : s.slot % s.returnCycle p = 0

theorem flowReturnEff_returns {s : State} {flow : Nat} {x : Image × FlowRec} {p : PathRec} (h : MayReturn s flow x p) :
    flowReturnEff flow s = s.setFlowRt flow { s.flowRt flow with onBackup := false } := by
  simp [flowReturnEff, h.record, h.path, h.onBackup, h.drained, h.clear, h.boundary]

theorem flowReturnEff_stays {s : State} {flow : Nat} (h : ∀ x p, ¬ MayReturn s flow x p) : flowReturnEff flow s = s := by
  unfold flowReturnEff
  split
  · rfl
  · next i r hx =>
    dsimp only
    split
    · rfl
    · next p hp =>
      split
      · next hc =>
        simp only [Bool.and_eq_true, beq_iff_eq, Bool.not_eq_true'] at hc
        obtain ⟨⟨⟨hback, hdrained⟩, hclear⟩, hslot⟩ := hc
        exact absurd ⟨hx, hp, hback, hdrained, hclear, hslot⟩ (h (i, r) p)
      · rfl

theorem flowRt_setFlowRt_self (s : State) (flow : Nat) (r : FlowRt) : (s.setFlowRt flow r).flowRt flow = r :=
  Sparse.getD_putD_self s.sched.flows flow r {}

theorem completes_flowReturnPrimary (s : State) (flow : BitVec 24) :
    Completes (.flowReturnPrimary flow) s fun t =>
      (flowIn (s.activeImages ++ s.sched.kept) flow.toNat = none → t = s) ∧ ((s.flowRt flow.toNat).onBackup = false → t = s)
      ∧ ((s.flowRt flow.toNat).backupFrames ≠ 0 → t = s)
      ∧ (∀ x, flowIn (s.activeImages ++ s.sched.kept) flow.toNat = some x → ∀ p, x.1.pathOf x.2 false = some p →
          (s.pathBlocked p (s.flowCls x.2) = true → t = s) ∧ (s.slot % s.returnCycle p ≠ 0 → t = s)
          ∧ ((s.flowRt flow.toNat).onBackup = true → (s.flowRt flow.toNat).backupFrames = 0 → s.pathBlocked p (s.flowCls x.2) = false →
              s.slot % s.returnCycle p = 0 → t.flowRt flow.toNat = { s.flowRt flow.toNat with onBackup := false }))
      ∧ t = { s with sched := t.sched } := by
  refine ⟨flowReturnEff flow.toNat s, rfl, fun hnone => ?_, fun hprimary => ?_, fun hframes => ?_, fun x hx p hp => ?_,
    eq_patch_of_same (flowReturnEff_same _ s)⟩
  · exact flowReturnEff_stays fun x p h => nomatch hnone.symm.trans h.record
  · exact flowReturnEff_stays fun x p h => absurd (h.onBackup.symm.trans hprimary) (by decide)
  · exact flowReturnEff_stays fun x p h => hframes h.drained
  · have hsame {y : Image × FlowRec} {q : PathRec} (h : MayReturn s flow.toNat y q) : x = y ∧ p = q := by
      obtain rfl : x = y := Option.some.inj (hx.symm.trans h.record)
      exact ⟨rfl, Option.some.inj (hp.symm.trans h.path)⟩
    refine ⟨fun hblocked => ?_, fun hslot => ?_, fun hback hdrained hclear hslot => ?_⟩
    · refine flowReturnEff_stays fun y q h => ?_
      obtain ⟨rfl, rfl⟩ := hsame h
      exact absurd (hblocked.symm.trans h.clear) (by decide)
    · refine flowReturnEff_stays fun y q h => ?_
      obtain ⟨rfl, rfl⟩ := hsame h
      exact hslot h.boundary
    · rw [flowReturnEff_returns ⟨hx, hp, hback, hdrained, hclear, hslot⟩, flowRt_setFlowRt_self]

/-! QUEUE_SAMPLE_INTERVAL -/

/-- Nothing but the samplers differs. -/
def SamplersOnly (s t : State) : Prop := t = { s with scriv := { s.scriv with samplers := t.scriv.samplers } }

theorem samplersOnly_refl (s : State) : SamplersOnly s s := rfl

theorem SamplersOnly.trans {s t u : State} (h : SamplersOnly s t) (h' : SamplersOnly t u) : SamplersOnly s u := by
  unfold SamplersOnly at *
  rw [h', h]

theorem SamplersOnly.foldl {α : Type} {f : State → α → State} (hf : ∀ s a, SamplersOnly s (f s a)) (l : List α) (s : State) :
    SamplersOnly s (l.foldl f s) := by
  induction l generalizing s with
  | nil => exact samplersOnly_refl s
  | cons a l ih => exact (hf s a).trans (ih _)

theorem samplersOnly_sampleDepth (s : State) (p sub cls : Nat) : SamplersOnly s (s.sampleDepth p sub cls) := by
  unfold State.sampleDepth
  split
  · exact samplersOnly_refl s
  · rfl

/-- The word of TELEM_QSMP that shows a sampler (18 R477). -/
def sampleWord (q : QSample) : Word := BitVec.ofNat 32 (min q.depth 65535 + 65536 * min q.delay 65535)

/-- TELEM_QSMP shows the samplers and nothing else. -/
def samplesShown (s : State) : State :=
  s.scriv.samplers.foldl (fun s e => s.setReg e.1 (sampleWord e.2)) (s.resetRegs (fun o => 0x710000 ≤ o && o < 0x711000))

theorem sampleIntervalEff_off {s : State} (h : s.get Reg.TELEM_SMP_CTL.EN = 0) : sampleIntervalEff s = s := by
  simp [sampleIntervalEff, State.flag, h]

/-- The interval's samples are shown, and the next interval begins. -/
theorem sampleIntervalEff_on {s : State} (h : s.get Reg.TELEM_SMP_CTL.EN = 1) : SamplersOnly (samplesShown s) (sampleIntervalEff s) := by
  have hflag : s.flag Reg.TELEM_SMP_CTL.EN = true := by rw [flag_of_bit rfl, h]; rfl
  have hbegun : SamplersOnly (samplesShown s) { samplesShown s with scriv := { (samplesShown s).scriv with samplers := [] } } := rfl
  rw [sampleIntervalEff, if_pos hflag]
  exact hbegun.trans (SamplersOnly.foldl (fun u e => SamplersOnly.foldl (fun u f => samplersOnly_sampleDepth u _ _ _) _ u) _ _)

theorem at?_filter_keys {α : Type} (p : Nat → Bool) (m : Sparse α) (i : Nat) :
    Sparse.at? (List.filter (fun e => !p e.1) m) i = if p i then none else m.at? i := by
  induction m with
  | nil => simp
  | cons e m ih =>
    obtain ⟨k, v⟩ := e
    by_cases hi : i = k
    · subst hi
      cases hp : p i with
      | false => simp [hp, Sparse.at?_cons]
      | true => simpa [hp] using ih
    · cases hp : p k with
      | false => simpa [hp, Sparse.at?_cons, hi] using ih
      | true => simpa [hp, Sparse.at?_cons, hi] using ih

theorem reg_resetRegs (s : State) (p : Nat → Bool) (o : Nat) : (s.resetRegs p).reg o = if p o then regReset o else s.reg o := by
  unfold State.reg State.resetRegs
  dsimp only
  rw [at?_filter_keys]
  split <;> rfl

theorem reg_foldl_setReg_ne {α : Type} (w : α → Word) (l : List (Nat × α)) (s : State) {o : Nat} (h : o ∉ l.map (·.1)) :
    (l.foldl (fun s e => s.setReg e.1 (w e.2)) s).reg o = s.reg o := by
  induction l generalizing s with
  | nil => rfl
  | cons e l ih =>
    rw [List.map_cons, List.mem_cons, not_or] at h
    exact (ih _ h.2).trans (reg_setReg_ne s _ h.1)

/-- A register that no sampler shows has its reset value inside TELEM_QSMP and is as before outside. -/
theorem reg_samplesShown (s : State) {o : Nat} (h : o ∉ s.scriv.samplers.map (·.1)) :
    (samplesShown s).reg o = if 0x710000 ≤ o && o < 0x711000 then regReset o else s.reg o :=
  (reg_foldl_setReg_ne sampleWord _ _ h).trans (reg_resetRegs s _ o)

theorem samplesShown_eq (s : State) : samplesShown s = { s with regs := (samplesShown s).regs } :=
  eq_patch_of_same (m := 2) (Same.foldl _ _ _ (fun u _ h => h.trans (setReg_same u _ _)) (resetRegs_same s _))

theorem sampleIntervalEff_frame (s : State) : sampleIntervalEff s =
    { s with regs := (sampleIntervalEff s).regs, scriv := { s.scriv with samplers := (sampleIntervalEff s).scriv.samplers } } := by
  by_cases h : s.flag Reg.TELEM_SMP_CTL.EN = true
  · rw [flag_of_bit rfl, decide_eq_true_eq] at h
    have hon := sampleIntervalEff_on h
    unfold SamplersOnly at hon
    rw [samplesShown_eq] at hon
    rw [hon]
  · rw [sampleIntervalEff, if_neg h]

theorem completes_queueSampleInterval (s : State) :
    Completes (.queueSampleInterval) s fun t =>
      (s.get Reg.TELEM_SMP_CTL.EN = 0 → t = s)
      ∧ (s.get Reg.TELEM_SMP_CTL.EN = 1 → (s.scriv.samplers = [] → t.reg 0x710000 = regReset 0x710000)
          ∧ (∀ k q, s.scriv.samplers = [(k, q)] → t.reg k = BitVec.ofNat 32 (min q.depth 65535 + 65536 * min q.delay 65535)))
      ∧ (∀ o : Nat, o < 0x710000 → (s.scriv.samplers.map (·.1)).contains o = false → t.reg o = s.reg o)
      ∧ t = { s with regs := t.regs, scriv := { s.scriv with samplers := t.scriv.samplers } } := by
  have hshown (h : s.get Reg.TELEM_SMP_CTL.EN = 1) (o : Nat) : (sampleIntervalEff s).reg o = (samplesShown s).reg o := by
    rw [sampleIntervalEff_on h]
    rfl
  refine ⟨sampleIntervalEff s, rfl, sampleIntervalEff_off, fun h => ⟨fun hnone => ?_, fun k q hone => ?_⟩, fun o ho hfree => ?_,
    sampleIntervalEff_frame s⟩
  · rw [hshown h, reg_samplesShown s (by simp [hnone])]
    rfl
  · rw [hshown h, samplesShown, hone]
    exact reg_setReg_self _ k (sampleWord q)
  · have hout : (decide (0x710000 ≤ o) && decide (o < 0x711000)) = false := by
      rw [decide_eq_false (by omega), Bool.false_and]
    by_cases h : s.get Reg.TELEM_SMP_CTL.EN = 0
    · rw [sampleIntervalEff_off h]
    · have hon : s.get Reg.TELEM_SMP_CTL.EN = 1 := by
        have hlt : s.get Reg.TELEM_SMP_CTL.EN < 2 := get_lt s _
        omega
      rw [hshown hon, reg_samplesShown s (by simpa using hfree), hout]
      rfl

/-- Settles O13, each of its four commands through the lemmas above. -/
theorem meshTimersAndSamplers : Obligations.MeshTimersAndSamplers := by
  unfold Obligations.MeshTimersAndSamplers
  exact ⟨completes_retainedBankRelease, completes_drainLimitExpiry, completes_flowReturnPrimary, completes_queueSampleInterval⟩

end Sys2Proof.Machine.Proofs
end

section
/-! PROOFS. What frames in flight, their completions, reports and key commands leave aside: the GLB and TIME registers, the active and
pending images of the schedules, and the BAR4 requests that wait (00_scope.md R5; 05_schedules_and_admission.md R131). -/

namespace Sys2Proof.Machine.Proofs

open Laws

/-! The part of the state -/

/-- The registers of the GLB and TIME blocks, the active and pending images, and each host's waiting BAR4 requests. -/
structure Aside where
  low : Nat → Word
  act : Sparse Image
  pend : Sparse Image
  wait : HostId → List (B4Map × B4Req)

def asideOf (regs : Sparse Word) (act pend : Sparse Image) (host0 host1 : HostPort) : Aside where
  low o := if o < 0x20000 then (regs.at? o).getD (regReset o) else 0
  act := act
  pend := pend
  wait h := if h = 0 then host0.b4Wait else host1.b4Wait

def aside (s : State) : Aside := asideOf s.regs s.sched.act s.sched.pend s.host0 s.host1

theorem act_of_aside {s t : State} (h : aside t = aside s) : t.sched.act = s.sched.act := congrArg Aside.act h

theorem pend_of_aside {s t : State} (h : aside t = aside s) : t.sched.pend = s.sched.pend := congrArg Aside.pend h

theorem get_of_aside {s t : State} (h : aside t = aside s) {f : Fld} (hf : f.off < 0x20000) : t.get f = s.get f := by
  have hreg : t.reg f.off = s.reg f.off := by
    have hlow := congrFun (congrArg Aside.low h) f.off
    simp only [aside, asideOf, if_pos hf] at hlow
    exact hlow
  unfold State.get
  rw [hreg]

theorem b4Wait_of_aside {s t : State} (h : aside t = aside s) (k : HostId) : (t.host k).b4Wait = (s.host k).b4Wait := by
  have hwait (u : State) : (u.host k).b4Wait = (aside u).wait k := by
    simp only [State.host, aside, asideOf]
    split <;> rfl
  rw [hwait, hwait, h]

/-! Updates of the rest -/

/-- An update reads as its parts; simp folds them back where nothing of the part changed. -/
@[simp] theorem asideOf_self (s : State) : asideOf s.regs s.sched.act s.sched.pend s.host0 s.host1 = aside s := rfl

theorem aside_of_same {m : Nat} {s t : State} (h : Same m s t) (hregs : m.testBit 1 = false) (hhost0 : m.testBit 4 = false)
    (hhost1 : m.testBit 5 = false) (hsched : m.testBit 6 = false) : aside t = aside s := by
  unfold aside
  rw [h.regs hregs, h.host0 hhost0, h.host1 hhost1, h.sched hsched]

theorem aside_of_fst {α : Type} {s t : State} {r : State × α} {a : α} (h : r = (t, a)) (hr : aside r.1 = aside s) : aside t = aside s := by
  rw [h] at hr
  exact hr

theorem aside_foldl {α : Type} {f : State → α → State} (hf : ∀ s a, aside (f s a) = aside s) (l : List α) (s : State) :
    aside (l.foldl f s) = aside s := by
  induction l generalizing s with
  | nil => rfl
  | cons a l ih => exact (ih _).trans (hf s a)

@[simp] theorem asideOf_setReg (s : State) {o : Nat} (v : Word) (act pend : Sparse Image) (host0 host1 : HostPort) (h : 0x20000 ≤ o) :
    asideOf (s.setReg o v).regs act pend host0 host1 = asideOf s.regs act pend host0 host1 := by
  unfold asideOf
  congr 1
  funext p
  split
  · exact reg_setReg_ne s v (by omega)
  · rfl

@[simp] theorem asideOf_put (s : State) {f : Fld} (x : Nat) (act pend : Sparse Image) (host0 host1 : HostPort) (h : 0x20000 ≤ f.off) :
    asideOf (s.put f x).regs act pend host0 host1 = asideOf s.regs act pend host0 host1 := asideOf_setReg s _ _ _ _ _ h

@[simp] theorem aside_put (s : State) {f : Fld} (x : Nat) (h : 0x20000 ≤ f.off) : aside (s.put f x) = aside s := asideOf_put s x _ _ _ _ h

@[simp] theorem asideOf_count (s : State) {f : Fld} (n : Nat) (act pend : Sparse Image) (host0 host1 : HostPort) (h : 0x20000 ≤ f.off) :
    asideOf (s.count f n).regs act pend host0 host1 = asideOf s.regs act pend host0 host1 := asideOf_put s _ _ _ _ _ h

@[simp] theorem aside_count (s : State) {f : Fld} (n : Nat) (h : 0x20000 ≤ f.off) : aside (s.count f n) = aside s := aside_put s _ h

@[simp] theorem aside_emit (s : State) (o : Output) : aside (s.emit o) = aside s := rfl
@[simp] theorem aside_fresh (s : State) : aside s.fresh = aside s := rfl
@[simp] theorem aside_setQueue (s : State) (n : Nat) (q : Queue) : aside (s.setQueue n q) = aside s := rfl
@[simp] theorem aside_setQp (s : State) (q : Nat) (x : Qp) : aside (s.setQp q x) = aside s := rfl
@[simp] theorem aside_setPort (s : State) (p : Nat) (x : Port) : aside (s.setPort p x) = aside s := rfl
@[simp] theorem aside_setCore (s : State) (c : Nat) (x : Core) : aside (s.setCore c x) = aside s := rfl
@[simp] theorem aside_setTrig (s : State) (i : Nat) (x : TrigSlot) : aside (s.setTrig i x) = aside s := rfl
@[simp] theorem aside_setEv (s : State) (h : HostId) (e : EvHost) : aside (s.setEv h e) = aside s := rfl
@[simp] theorem aside_setFlowRt (s : State) (flow : Nat) (r : FlowRt) : aside (s.setFlowRt flow r) = aside s := rfl

/-! Where the registers stand that traffic writes -/

@[simp] theorem far_hostifCqFullCount (h : Nat) : 0x20000 ≤ (Reg.HOSTIF_CQ_FULL.COUNT h).off := Nat.le_add_right_of_le (by decide)
@[simp] theorem far_hostifDbAheadCount (h : Nat) : 0x20000 ≤ (Reg.HOSTIF_DB_AHEAD.COUNT h).off := Nat.le_add_right_of_le (by decide)
@[simp] theorem far_hostifMalformedCount (h : Nat) : 0x20000 ≤ (Reg.HOSTIF_MALFORMED.COUNT h).off := Nat.le_add_right_of_le (by decide)
@[simp] theorem far_kennelBankMissMisses (k : Nat) : 0x20000 ≤ (Reg.KENNEL_BANK_MISS.MISSES k).off := Nat.le_add_right_of_le (by decide)
@[simp] theorem far_kennelBankStsPinned (k : Nat) : 0x20000 ≤ (Reg.KENNEL_BANK_STS.PINNED k).off := Nat.le_add_right_of_le (by decide)
@[simp] theorem far_kennelBankStsResident (k : Nat) : 0x20000 ≤ (Reg.KENNEL_BANK_STS.RESIDENT k).off := Nat.le_add_right_of_le (by decide)
@[simp] theorem far_kennelCtxUncorrCount : 0x20000 ≤ Reg.KENNEL_CTX_UNCORR.COUNT.off := by decide
@[simp] theorem far_kennelEvictCount : 0x20000 ≤ Reg.KENNEL_EVICT.COUNT.off := by decide
@[simp] theorem far_kennelFetchT1Count : 0x20000 ≤ Reg.KENNEL_FETCH_T1.COUNT.off := by decide
@[simp] theorem far_kennelFetchT2Count : 0x20000 ≤ Reg.KENNEL_FETCH_T2.COUNT.off := by decide
@[simp] theorem far_kennelRetxCount : 0x20000 ≤ Reg.KENNEL_RETX.COUNT.off := by decide
@[simp] theorem far_linkDropFencedCount (p : Nat) : 0x20000 ≤ (Reg.LINK_DROP_FENCED.COUNT p).off := Nat.le_add_right_of_le (by decide)
@[simp] theorem far_memChUeCount (c : Nat) : 0x20000 ≤ (Reg.MEM_CH_UE.COUNT c).off := Nat.le_add_right_of_le (by decide)
@[simp] theorem far_memChUeAddrHiAddrHi (c : Nat) : 0x20000 ≤ (Reg.MEM_CH_UE_ADDR_HI.ADDR_HI c).off := Nat.le_add_right_of_le (by decide)
@[simp] theorem far_memChUeAddrHiScrub (c : Nat) : 0x20000 ≤ (Reg.MEM_CH_UE_ADDR_HI.SCRUB c).off := Nat.le_add_right_of_le (by decide)
@[simp] theorem far_memChUeAddrLoAddrLo (c : Nat) : 0x20000 ≤ (Reg.MEM_CH_UE_ADDR_LO.ADDR_LO c).off := Nat.le_add_right_of_le (by decide)
@[simp] theorem far_memSramUeCount (d : Nat) : 0x20000 ≤ (Reg.MEM_SRAM_UE.COUNT d).off := Nat.le_add_right_of_le (by decide)
@[simp] theorem far_meshDrainCount (e : Nat) : 0x20000 ≤ (Reg.MESH_DRAIN.COUNT e).off := Nat.le_add_right_of_le (by decide)
@[simp] theorem far_meshHopsDropCount : 0x20000 ≤ Reg.MESH_HOPS_DROP.COUNT.off := by decide
@[simp] theorem far_meshLostDropCount : 0x20000 ≤ Reg.MESH_LOST_DROP.COUNT.off := by decide
@[simp] theorem far_meshModeDropCount : 0x20000 ≤ Reg.MESH_MODE_DROP.COUNT.off := by decide
@[simp] theorem far_meshNorouteDropCount : 0x20000 ≤ Reg.MESH_NOROUTE_DROP.COUNT.off := by decide
@[simp] theorem far_partCidRejCount (p : Nat) : 0x20000 ≤ (Reg.PART_CID_REJ.COUNT p).off := Nat.le_add_right_of_le (by decide)
@[simp] theorem far_schedPoliceDropCount : 0x20000 ≤ Reg.SCHED_POLICE_DROP.COUNT.off := by decide
@[simp] theorem far_secKeyStsBusy (h : Nat) : 0x20000 ≤ (Reg.SEC_KEY_STS.BUSY h).off := Nat.le_add_right_of_le (by decide)
@[simp] theorem far_secKeyStsDone (h : Nat) : 0x20000 ≤ (Reg.SEC_KEY_STS.DONE h).off := Nat.le_add_right_of_le (by decide)
@[simp] theorem far_secKeyStsResult (h : Nat) : 0x20000 ≤ (Reg.SEC_KEY_STS.RESULT h).off := Nat.le_add_right_of_le (by decide)
@[simp] theorem far_secKslotLen (n : Nat) : 0x20000 ≤ (Reg.SEC_KSLOT.LEN n).off := Nat.le_add_right_of_le (by decide)
@[simp] theorem far_secKslotValid (n : Nat) : 0x20000 ≤ (Reg.SEC_KSLOT.VALID n).off := Nat.le_add_right_of_le (by decide)
@[simp] theorem far_sheepJoinCount (h : Nat) : 0x20000 ≤ (Reg.SHEEP_JOIN.COUNT h).off := Nat.le_add_right_of_le (by decide)
@[simp] theorem far_sheepStsOutstanding (h : Nat) : 0x20000 ≤ (Reg.SHEEP_STS.OUTSTANDING h).off := Nat.le_add_right_of_le (by decide)
@[simp] theorem far_telemEvqLostCount (h : Nat) : 0x20000 ≤ (Reg.TELEM_EVQ_LOST.COUNT h).off := Nat.le_add_right_of_le (by decide)
@[simp] theorem far_telemEvqPendQueued (h : Nat) : 0x20000 ≤ (Reg.TELEM_EVQ_PEND.QUEUED h).off := Nat.le_add_right_of_le (by decide)
@[simp] theorem far_telemEvqProdIndex (h : Nat) : 0x20000 ≤ (Reg.TELEM_EVQ_PROD.INDEX h).off := Nat.le_add_right_of_le (by decide)
@[simp] theorem far_telemFitFailCount (u : Nat) : 0x20000 ≤ (Reg.TELEM_FIT_FAIL.COUNT u).off := Nat.le_add_right_of_le (by decide)
@[simp] theorem far_telemFitIntCount (u : Nat) : 0x20000 ≤ (Reg.TELEM_FIT_INT.COUNT u).off := Nat.le_add_right_of_le (by decide)
@[simp] theorem far_telemStkStsCount : 0x20000 ≤ Reg.TELEM_STK_STS.COUNT.off := by decide
@[simp] theorem far_telemStkStsLost : 0x20000 ≤ Reg.TELEM_STK_STS.LOST.off := by decide
@[simp] theorem far_telemStkStsOldest : 0x20000 ≤ Reg.TELEM_STK_STS.OLDEST.off := by decide
@[simp] theorem far_trigStaleCount (p : Nat) : 0x20000 ≤ (Reg.TRIG_STALE.COUNT p).off := Nat.le_add_right_of_le (by decide)

/-! Event records (18_errors_and_telemetry.md R470 to R473) -/

theorem aside_setHost (s : State) (h : HostId) {x : HostPort} (hx : x.b4Wait = (s.host h).b4Wait) : aside (s.setHost h x) = aside s := by
  unfold State.setHost
  unfold State.host at hx
  split at hx
  · next hh => rw [if_pos hh]; simp only [aside, asideOf, hx]
  · next hh => rw [if_neg hh]; simp only [aside, asideOf, hx]

@[simp] theorem aside_vector (s : State) (h : HostId) (v : Nat) : aside (s.vector h v) = aside s := by
  unfold State.vector
  split
  · exact aside_setHost s h rfl
  · rfl

@[simp] theorem aside_writeHost (s : State) (h : HostId) (a : Nat) (bs : List Byte) (ro : Bool) : aside (s.writeHost h a bs ro) = aside s :=
  aside_of_same (writeHost_same ..) rfl rfl rfl rfl

@[simp] theorem aside_ringWrite (s : State) (h : HostId) (r : EvRec) : aside (s.ringWrite h r) = aside s := by
  unfold State.ringWrite
  dsimp only
  split <;> simp

@[simp] theorem aside_showQueued (s : State) (h : HostId) : aside (s.showQueued h) = aside s := by simp [State.showQueued]

@[simp] theorem aside_sendRecord (s : State) (h : HostId) (r : EvRec) : aside (s.sendRecord h r) = aside s := by
  unfold State.sendRecord
  split
  · simp
  · split <;> simp

@[simp] theorem aside_showSticky (s : State) : aside s.showSticky = aside s := by simp [State.showSticky]

@[simp] theorem aside_stick (s : State) (r : EvRec) : aside (s.stick r) = aside s := by
  unfold State.stick
  dsimp only
  split
  · simp; rfl
  · split
    · simp
    · simp; rfl

@[simp] theorem aside_record (s : State) (h : HostId) (stick : Bool) (r : EvRec) : aside (s.record h stick r) = aside s := by
  unfold State.record
  dsimp only
  split <;> simp

@[simp] theorem aside_occur (s : State) (h : HostId) (stick : Bool) (r : EvRec) : aside (s.occur h stick r) = aside s := by
  unfold State.occur
  split
  · split <;> simp
  · simp

@[simp] theorem aside_event (s : State) (k : EvKind) (args : List Byte) : aside (s.event k args) = aside s := by simp [State.event]

end Sys2Proof.Machine.Proofs
end

section
/-! PROOFS. Memory accesses, completions and queue-pair contexts leave the same part aside (06_queue_pairs_and_delivery.md R145 to R152;
08_host_interface_and_work_queues.md R229 to R239; 14_memory_system.md R380). -/

namespace Sys2Proof.Machine.Proofs

open Laws

/-! Memories -/

@[simp] theorem aside_reportUe (s : State) (line : Nat) (scrub : Bool) : aside (s.reportUe line scrub) = aside s := by
  unfold State.reportUe
  extract_lets +onlyGivenNames a
  split
  · rfl
  · split <;> simp

@[simp] theorem aside_ddrWrite (s : State) (a : Nat) (bs : List Byte) : aside (s.ddrWrite a bs).1 = aside s := by
  unfold State.ddrWrite
  extract_lets +onlyGivenNames n
  split
  · simp
  · rfl

@[simp] theorem aside_ddrRead (s : State) (a n : Nat) : aside (s.ddrRead a n).1 = aside s := by
  unfold State.ddrRead
  split
  · simp
  · rfl

@[simp] theorem aside_cidRefused (s : State) (cid : Nat) (e : MemErr) : aside (s.cidRefused cid e) = aside s := by
  unfold State.cidRefused
  split
  · simp
  · rfl

@[simp] theorem aside_memWriteC (s : State) (cid space a : Nat) (bs : List Byte) (flag : Bool) :
    aside (s.memWriteC cid space a bs flag).1 = aside s := by
  unfold State.memWriteC
  split
  · simp
  · split <;> simp

@[simp] theorem aside_memReadC (s : State) (cid space a n : Nat) : aside (s.memReadC cid space a n).1 = aside s := by
  unfold State.memReadC
  split
  · simp
  · split
    · dsimp only
      split <;> rfl
    · simp
    · rfl

@[simp] theorem aside_sysWrite (s : State) (a : Nat) (bs : List Byte) : aside (s.sysWrite a bs) = aside s := by
  rw [sysWrite_body]
  beta_reduce
  split
  · rfl
  · simp

@[simp] theorem aside_sysRead (s : State) (a n : Nat) : aside (s.sysRead a n).1 = aside s :=
  sysRead_cases s a n (fun r => aside r.1 = aside s) (fun _ => rfl) (aside_ddrRead ..)

@[simp] theorem aside_sramUe (s : State) (d e b : Nat) : aside (s.sramUe d e b) = aside s := by
  unfold State.sramUe
  exact (aside_of_same (setTinker_same (s.count (Reg.MEM_SRAM_UE.COUNT d)) _ _) rfl rfl rfl rfl).trans (by simp)

/-! Buffers -/

@[simp] theorem aside_walk (s : State) (cid need k space addr covered tables : Nat) (acc : List Frag) :
    aside (s.walk cid need k space addr covered tables acc).1 = aside s := by
  induction k generalizing s space addr covered tables acc with
  | zero => rfl
  | succ k ih =>
    unfold State.walk
    split
    · rfl
    · split
      · next t e h => exact aside_of_fst h (aside_memReadC ..)
      · next t bs h =>
        have ht : aside t = aside s := aside_of_fst h (aside_memReadC ..)
        split
        · exact ht
        · split
          · exact ht
          · exact (ih ..).trans ht
        · dsimp only
          split
          · exact ht
          · exact (ih ..).trans ht

@[simp] theorem aside_frags (s : State) (cid : Nat) (b : Buf) (need : Nat) : aside (s.frags cid b need).1 = aside s := by
  unfold State.frags
  split
  · rfl
  · simp

theorem aside_readPieces (cid : Nat) (ps : List (Frag × Nat × Nat × Nat)) (s : State) (acc : List Byte) :
    aside (s.readPieces cid ps acc).1 = aside s := by
  induction ps generalizing s acc with
  | nil => rfl
  | cons p ps ih =>
    unfold State.readPieces
    split
    · next t bs h => exact (ih ..).trans (aside_of_fst h (aside_memReadC ..))
    · next t e h => exact aside_of_fst h (aside_memReadC ..)

@[simp] theorem aside_moved (s : State) (kept : Bool) (bs : List Byte) : aside (s.moved kept bs).1 = aside s := by
  unfold State.moved
  split <;> rfl

@[simp] theorem aside_bufRead (s : State) (cid : Nat) (b : Buf) (off n : Nat) : aside (s.bufRead cid b off n).1 = aside s := by
  unfold State.bufRead
  split
  · rfl
  · split
    · split <;> exact aside_of_fst ‹_› (aside_memReadC ..)
    · split
      · next t fs h =>
        have ht : aside t = aside s := aside_of_fst h (aside_frags ..)
        dsimp only
        split
        · exact ht
        · split
          · next u bs hu => exact (aside_moved ..).trans ((aside_of_fst hu (aside_readPieces ..)).trans ht)
          · exact (aside_readPieces ..).trans ht
      · exact aside_of_fst ‹_› (aside_frags ..)
      · exact aside_of_fst ‹_› (aside_frags ..)
      · exact aside_of_fst ‹_› (aside_frags ..)

/-! Completions -/

@[simp] theorem aside_modLive (s : State) (n pos : Nat) (f : Live → Live) : aside (s.modLive n pos f) = aside s :=
  aside_of_same (modLive_same ..) rfl rfl rfl rfl

@[simp] theorem aside_trigInc (s : State) (p i gen : Nat) : aside (s.trigInc p i gen) = aside s := by
  unfold State.trigInc
  extract_lets +onlyGivenNames t
  split <;> simp

@[simp] theorem aside_raiseCq (s : State) (n : Nat) (q : Queue) : aside (s.raiseCq n q) = aside s := by simp [State.raiseCq]

@[simp] theorem aside_cqWrite (s : State) (n : Nat) (q : Queue) (bytes : List Byte) : aside (s.cqWrite n q bytes).1 = aside s := by
  unfold State.cqWrite
  extract_lets +onlyGivenNames bs
  split
  · exact aside_of_fst ‹_› (aside_memWriteC ..)
  · next t r _ h =>
    have ht : aside t = aside s := aside_of_fst h (aside_memWriteC ..)
    extract_lets +onlyGivenNames q u v
    have hv : aside v = aside s := by
      unfold v
      split <;> simp [u, ht]
    dsimp only
    split
    · exact (aside_raiseCq ..).trans hv
    · exact hv

@[simp] theorem aside_complete (s : State) (n : Nat) (bytes : List Byte) : aside (s.complete n bytes) = aside s := by
  unfold State.complete
  split
  · rfl
  · split
    · rfl
    · split
      · simp
      · split
        · exact aside_of_fst ‹_› (aside_cqWrite ..)
        · next h => exact (aside_setQueue ..).trans (aside_of_fst h (aside_cqWrite ..))

@[simp] theorem aside_writeEnd (s : State) (n : Nat) (q : Queue) (l : Live) : aside (s.writeEnd n q l) = aside s := by
  unfold State.writeEnd
  split
  · rfl
  · extract_lets +onlyGivenNames e
    split
    · rfl
    · extract_lets +onlyGivenNames qp st h t u v
      have ht : aside t = aside s := by unfold t; split <;> simp
      have hu : aside u = aside t := by unfold u; split <;> simp
      have hv : aside v = aside u := by unfold v; split <;> simp
      split <;> simp [ht, hu, hv]

theorem aside_flushQueue (s : State) (n k : Nat) : aside (s.flushQueue n k) = aside s := by
  induction k generalizing s with
  | zero => rfl
  | succ k ih =>
    unfold State.flushQueue
    split
    · rfl
    · extract_lets +onlyGivenNames firstQp
      split
      · rfl
      · extract_lets +onlyGivenNames q t
        have ht : aside t = aside s := by unfold t; split <;> rfl
        exact (ih _).trans (by simp [ht])

@[simp] theorem aside_endEntry (s : State) (n pos st bytes data : Nat) (remote : Bool) :
    aside (s.endEntry n pos st bytes data remote) = aside s := by
  unfold State.endEntry
  extract_lets +onlyGivenNames t
  have ht : aside t = aside s := aside_modLive ..
  split
  · exact ht
  · exact (aside_flushQueue ..).trans ht

/-! Contexts -/

@[simp] theorem aside_modQp (s : State) (q : Nat) (f : Qp → Qp) : aside (s.modQp q f) = aside s := aside_of_same (modQp_same ..) rfl rfl rfl rfl

@[simp] theorem aside_modCtx (s : State) (q : Nat) (f : QpCtx → QpCtx) : aside (s.modCtx q f) = aside s := aside_modQp ..

@[simp] theorem aside_spill (s : State) (q : Nat) : aside (s.spill q) = aside s := by
  unfold State.spill
  split
  · rfl
  · extract_lets +onlyGivenNames p
    split
    · rfl
    · extract_lets +onlyGivenNames t
      have ht : aside t = aside s := rfl
      split
      · exact (aside_sysWrite ..).trans ht
      · exact (aside_writeHost ..).trans ht

@[simp] theorem aside_settle (s : State) (q : Nat) : aside (s.settle q) = aside s := by
  unfold State.settle
  split
  · split <;> simp
  · rfl

@[simp] theorem aside_endAll (s : State) (n st : Nat) : aside (s.endAll n st) = aside s := by
  unfold State.endAll
  split
  · rfl
  · exact aside_foldl (fun s l => by split <;> simp) _ _

@[simp] theorem aside_errorHere (s : State) (q st psn : Nat) : aside (s.errorHere q st psn) = aside s := by
  unfold State.errorHere
  split
  · rfl
  · split
    · rfl
    · exact (aside_endAll ..).trans ((aside_endAll ..).trans rfl)

@[simp] theorem aside_checkCtx (s : State) (q : Nat) : aside (s.checkCtx q) = aside s := by
  unfold State.checkCtx
  split
  · extract_lets +onlyGivenNames _ t u
    have ht : aside t = aside s := rfl
    simp [u, ht]
  · rfl

@[simp] theorem aside_showBank (s : State) (k : Nat) : aside (s.showBank k) = aside s := by simp [State.showBank]

@[simp] theorem aside_evict (s : State) (q : Nat) : aside (s.evict q) = aside s := by
  unfold State.evict
  extract_lets +onlyGivenNames t _ u mine
  have hu : aside u = aside s := by
    change aside t = aside s
    simp [t]
  split
  · exact hu
  · split
    · exact (aside_spill ..).trans hu
    · exact hu

@[simp] theorem aside_makeRoom (s : State) (p k : Nat) : aside (s.makeRoom p k) = aside s := by
  unfold State.makeRoom
  extract_lets +onlyGivenNames free mine
  split
  · split <;> simp
  · split
    · split <;> simp
    · rfl

@[simp] theorem aside_bringIn (s : State) (q : Nat) : aside (s.bringIn q) = aside s := by
  unfold State.bringIn
  split
  · rfl
  · extract_lets +onlyGivenNames k t _ u
    have hu : aside u = aside s := (aside_makeRoom s _ _ : aside t = aside s)
    split <;> simp [hu]

@[simp] theorem aside_readSpill (s : State) (x : Qp) : aside (s.readSpill x).1 = aside s := by
  unfold State.readSpill
  extract_lets +onlyGivenNames p
  split
  · split <;> simp [aside_of_fst ‹_› (aside_sysRead ..)]
  · simp

@[simp] theorem aside_fetchIn (s : State) (q : Nat) : aside (s.fetchIn q) = aside s := by
  unfold State.fetchIn
  split
  · rfl
  · split
    · rfl
    · split
      · simp
      · split
        · next t bs h =>
          have ht : aside t = aside s := aside_of_fst h (aside_readSpill ..)
          split <;> simp [ht]
        · next t h =>
          have ht : aside t = aside s := aside_of_fst h (aside_readSpill ..)
          simp [ht]

@[simp] theorem aside_need (s : State) (q : Nat) : aside (s.need q) = aside s := by
  unfold State.need
  split
  · rfl
  · split
    · simp
    · split
      · simp
      · split <;> simp

@[simp] theorem aside_qpError (s : State) (q st psn : Nat) : aside (s.qpError q st psn) = aside s := by simp [State.qpError]

@[simp] theorem aside_miss (s : State) (q : Nat) : aside (s.miss q) = aside s := by
  unfold State.miss
  extract_lets +onlyGivenNames k t
  have ht : aside t = aside s := aside_count _ _ (by simp)
  split
  · exact ht
  · split <;> exact ht

theorem aside_whenIn (s : State) (q : Nat) (j : CtxJob) {act : State → State} (hact : ∀ u, aside (act u) = aside u) :
    aside (s.whenIn q j act) = aside s := by
  unfold State.whenIn
  split
  · exact hact s
  · split
    · exact (hact _).trans (aside_checkCtx ..)
    · split
      · exact (hact _).trans (aside_fetchIn ..)
      · refine (aside_miss ..).trans ?_
        split <;> rfl

/-! Fragment faults -/

@[simp] theorem aside_setSheep (s : State) (h : HostId) (x : Sheep) : aside (s.setSheep h x) = aside s := by
  unfold State.setSheep
  split <;> exact aside_put _ _ (by simp)

@[simp] theorem aside_raiseFault (s : State) (cid : Nat) (f : Frag) (a : Access) (w : FaultWaiter) :
    aside (s.raiseFault cid f a w).1 = aside s := by
  unfold State.raiseFault
  extract_lets +onlyGivenNames h x
  split
  · dsimp only
    split <;> simp
  · split
    · rfl
    · simp

end Sys2Proof.Machine.Proofs
end

section
/-! PROOFS. Frames onto the mesh, packets of queue pairs and a change of paths leave the same part aside (04_routing_and_mesh.md R89 to
R115; 05_schedules_and_admission.md R128; 06_queue_pairs_and_delivery.md R155 to R167). -/

namespace Sys2Proof.Machine.Proofs

open Laws

/-! Frames that leave -/

@[simp] theorem aside_pathDrop (s : State) (f : Frame) : aside (s.pathDrop f) = aside s := aside_of_same (pathDrop_same ..) rfl rfl rfl rfl

@[simp] theorem aside_lostDrop (s : State) (f : Frame) : aside (s.lostDrop f) = aside s := by simp [State.lostDrop]

@[simp] theorem aside_enter (s : State) (e : Nat) : aside (s.enter e) = aside s := aside_put _ _ (by simp)

@[simp] theorem aside_leave (s : State) (e : Nat) : aside (s.leave e) = aside s := aside_put _ _ (by simp)

@[simp] theorem aside_freeCells (s : State) (p sub cls n : Nat) : aside (s.freeCells p sub cls n) = aside s :=
  aside_of_same (freeCells_same ..) rfl rfl rfl rfl

@[simp] theorem aside_holdCells (s : State) (p sub cls n : Nat) : aside (s.holdCells p sub cls n) = aside s :=
  aside_of_same (holdCells_same ..) rfl rfl rfl rfl

@[simp] theorem aside_purgeKept (s : State) : aside s.purgeKept = aside s := rfl

@[simp] theorem aside_frameGone (s : State) (f : Frame) : aside (s.frameGone f) = aside s := by
  unfold State.frameGone
  extract_lets +onlyGivenNames t u _ v
  have ht : aside t = aside s := by unfold t; split <;> simp
  have hu : aside u = aside t := by unfold u; split <;> simp
  have hv : aside v = aside u := by unfold v; split <;> simp
  split <;> simp [ht, hu, hv]

@[simp] theorem aside_flowDepth (s : State) (flow : Nat) (d : Int) : aside (s.flowDepth flow d) = aside s := by
  unfold State.flowDepth
  split
  · rfl
  · simp

/-! Frames onto the mesh -/

@[simp] theorem aside_letIn (s : State) (f : Frame) : aside (s.letIn f).1 = aside s := by
  unfold State.letIn
  extract_lets +onlyGivenNames t _ u
  have ht : aside t = aside s := aside_enter ..
  have hu : aside u = aside t := by unfold u; split <;> simp
  split <;> simp [ht, hu]

@[simp] theorem aside_sampleDepth (s : State) (p sub cls : Nat) : aside (s.sampleDepth p sub cls) = aside s :=
  aside_of_same (sampleDepth_same ..) rfl rfl rfl rfl

@[simp] theorem aside_enqueue (s : State) (p sub : Nat) (f : Frame) : aside (s.enqueue p sub f) = aside s := by simp [State.enqueue]

@[simp] theorem aside_toEndpoint (s : State) (f : Frame) (roce : Bool) : aside (s.toEndpoint f roce) = aside s := by
  unfold State.toEndpoint
  dsimp only
  split
  · simp
  · rfl

@[simp] theorem aside_exitMesh (s : State) (f : Frame) (e : MeshExit) : aside (s.exitMesh f e) = aside s := by
  unfold State.exitMesh
  split
  · extract_lets +onlyGivenNames sub
    split
    · simp
    · split <;> simp
  · simp
  · exact aside_of_same (toStage_same ..) rfl rfl rfl rfl

@[simp] theorem aside_cross (s : State) (f : Frame) (vc : Nat) (path : List (Nat × Nat)) (pin : Option Nat) (e : MeshExit) :
    aside (s.cross f vc path pin e) = aside s := by
  unfold State.cross
  split
  next t g h =>
  have ht : aside t = aside s := aside_of_fst h (aside_letIn ..)
  split
  · exact (aside_exitMesh ..).trans ht
  · cases pin <;> exact ht

@[simp] theorem aside_crossFree (s : State) (f : Frame) (from_ dest : Nat) (e : MeshExit) : aside (s.crossFree f from_ dest e) = aside s := by
  unfold State.crossFree
  extract_lets +onlyGivenNames pin
  split
  · simp
  · dsimp only
    exact aside_cross ..

@[simp] theorem aside_crossPath (s : State) (f : Frame) (p : PathRec) (e : MeshExit) : aside (s.crossPath f p e) = aside s := aside_cross ..

/-- A route that drops counts in MESH_NOROUTE_DROP. -/
def CountsNoRoute (r : Route) : Prop := ∀ c, r = .drop c → c = Reg.MESH_NOROUTE_DROP.COUNT

theorem countsNoRoute_drop : CountsNoRoute (.drop Reg.MESH_NOROUTE_DROP.COUNT) := fun _ h => (Route.drop.inj h).symm

theorem countsNoRoute_routeOut (s : State) (from_ p sub : Nat) : CountsNoRoute (s.routeOut from_ p sub) := by
  unfold State.routeOut
  split
  · exact nofun
  · exact countsNoRoute_drop

theorem countsNoRoute_routeFca (s : State) (b from_ : Nat) (f : Frame) : CountsNoRoute (s.routeFca b from_ f) := by
  unfold State.routeFca
  split
  · split
    · exact countsNoRoute_routeOut _ _ _ _
    · exact countsNoRoute_drop
  · dsimp only
    split
    · exact nofun
    · split
      · exact countsNoRoute_routeOut _ _ _ _
      · exact countsNoRoute_drop

theorem aside_follow (s : State) (from_ : Nat) (f : Frame) {r : Route} (hr : CountsNoRoute r) : aside (s.follow from_ f r) = aside s := by
  unfold State.follow
  split
  · next c => rw [hr c rfl]; simp
  · rfl
  · split <;> simp

@[simp] theorem aside_launch (s : State) (from_ : Nat) (f : Frame) : aside (s.launch from_ f) = aside s := by
  unfold State.launch
  split
  · split
    · simp
    · exact aside_follow _ _ _ (countsNoRoute_routeFca _ _ _ _)
  · split
    · simp
    · split <;> simp

@[simp] theorem aside_policeDrop (s : State) (f : FlowRec) : aside (s.policeDrop f) = aside s := by simp [State.policeDrop]

@[simp] theorem aside_takeTokens (s : State) (f : FlowRec) (len : Nat) : aside (s.takeTokens f len) = aside s := rfl

@[simp] theorem aside_originate (s : State) (from_ : Nat) (f : Frame) : aside (s.originate from_ f) = aside s := by
  unfold State.originate
  split
  · simp
  · split
    · simp
    · split
      · rfl
      · simp

/-! Packets -/

@[simp] theorem aside_avOf (s : State) (c : QpCtx) : aside (s.avOf c).1 = aside s := by
  unfold State.avOf
  extract_lets +onlyGivenNames p i
  split
  · rfl
  · dsimp only
    split <;> exact aside_of_fst ‹_› (aside_memReadC ..)

@[simp] theorem aside_pktFrame (s : State) (c : QpCtx) (req : Bool) (t : TPkt) : aside (s.pktFrame c req t).1 = aside s := by
  unfold State.pktFrame
  extract_lets +onlyGivenNames f
  split
  · rfl
  · split <;> exact aside_of_fst ‹_› (aside_avOf ..)

@[simp] theorem aside_sendFrame (s : State) (c : QpCtx) (f : Frame) (port : Nat) : aside (s.sendFrame c f port) = aside s := by
  unfold State.sendFrame
  split
  · simp
  · refine aside_follow _ _ _ ?_
    split
    · exact countsNoRoute_routeOut _ _ _ _
    · exact countsNoRoute_drop

@[simp] theorem aside_sendPkt (s : State) (c : QpCtx) (req : Bool) (t : TPkt) : aside (s.sendPkt c req t) = aside s := by
  unfold State.sendPkt
  split
  · next h => exact (aside_sendFrame ..).trans (aside_of_fst h (aside_pktFrame ..))
  · next h => exact aside_of_fst h (aside_pktFrame ..)

@[simp] theorem aside_sendResync (s : State) (q : Nat) : aside (s.sendResync q) = aside s := by
  unfold State.sendResync
  split
  · rfl
  · split
    · simp
    · rfl

@[simp] theorem aside_sourceData (s : State) (c : QpCtx) (l : Live) (off n : Nat) : aside (s.sourceData c l off n).1 = aside s := by
  unfold State.sourceData
  split
  · rfl
  · split
    · next t h => exact (aside_fresh t).trans (aside_of_fst h (aside_bufRead ..))
    · exact aside_bufRead ..

@[simp] theorem aside_build (s : State) (c : QpCtx) (l : Live) (p : Nat) : aside (s.build c l p).1 = aside s := by
  unfold State.build
  extract_lets +onlyGivenNames e i n ackAt t
  split
  · split
    · rfl
    · dsimp only
      split <;> exact aside_of_fst ‹_› (aside_sourceData ..)
  · split <;> rfl

@[simp] theorem aside_failReq (s : State) (q pos st psn : Nat) (remote : Bool) : aside (s.failReq q pos st psn remote) = aside s := by
  unfold State.failReq State.failEntry
  split
  · rfl
  · simp

@[simp] theorem aside_stopAt (s : State) (c : QpCtx) (l : Live) (fs : List Frag) : aside (s.stopAt c l fs) = aside s := by
  unfold State.stopAt
  split
  · rfl
  · split
    · next h => exact (aside_modLive ..).trans (aside_of_fst h (aside_raiseFault ..))
    · next h => exact aside_of_fst h (aside_raiseFault ..)

@[simp] theorem aside_showOut (s : State) (q : Nat) : aside (s.showOut q) = aside s := aside_modCtx ..

theorem aside_pumpN (s : State) (q k : Nat) : aside (s.pumpN q k) = aside s := by
  induction k generalizing s with
  | zero => rfl
  | succ k ih =>
    unfold State.pumpN
    split
    · rfl
    · extract_lets +onlyGivenNames c p
      split
      · rfl
      · split
        · split
          · exact (ih _).trans (aside_modQp ..)
          · rfl
        · split
          · exact (ih _).trans (aside_modQp ..)
          · split
            · rfl
            · split
              · next t pkt n h =>
                have ht : aside t = aside s := aside_of_fst h (aside_build ..)
                split
                · next hu => exact (aside_of_fst hu (aside_pktFrame ..)).trans ht
                · next hu => exact (aside_failReq ..).trans ((aside_of_fst hu (aside_pktFrame ..)).trans ht)
                · next u f port hu =>
                  have hu : aside u = aside s := (aside_of_fst hu (aside_pktFrame ..)).trans ht
                  split
                  · exact hu
                  · refine (ih _).trans ?_
                    split <;> simp [hu]
              · next h => exact aside_of_fst h (aside_build ..)
              · next h => exact (aside_stopAt ..).trans (aside_of_fst h (aside_build ..))
              · next h => exact (aside_failReq ..).trans (aside_of_fst h (aside_build ..))

@[simp] theorem aside_pump (s : State) (q : Nat) : aside (s.pump q) = aside s := by
  unfold State.pump
  split
  · split
    · exact aside_whenIn _ _ _ fun u => aside_pumpN u _ _
    · rfl
  · rfl

/-! A change of paths -/

@[simp] theorem aside_disturbFlow (s : State) (flow : Nat) : aside (s.disturbFlow flow) = aside s := rfl

@[simp] theorem aside_refreshBackups (s : State) (row : Nat) : aside (s.refreshBackups row) = aside s := by
  unfold State.refreshBackups
  extract_lets +onlyGivenNames was imgs t
  have ht : aside t = aside s := by
    refine aside_foldl (fun u i => aside_foldl (fun u f => ?_) _ _) _ _
    split
    · rfl
    · dsimp only
      split
      · split <;> rfl
      · rfl
  split
  · exact (aside_count _ _ (by simp)).trans ht
  · exact ht

@[simp] theorem aside_disturb (s : State) (n : Nat) : aside (s.disturb n) = aside s := aside_of_same (disturb_same ..) rfl rfl rfl rfl

@[simp] theorem aside_resend (s : State) (q p : Nat) : aside (s.resend q p) = aside s := by
  unfold State.resend
  split
  · rfl
  · extract_lets +onlyGivenNames c any
    split
    · rfl
    · extract_lets +onlyGivenNames t
      have ht : aside t = aside s := by unfold t; split <;> simp
      simp [ht]

@[simp] theorem aside_unhold (s : State) (q : Nat) (x : Qp) : aside (s.unhold q x) = aside s := by
  unfold State.unhold
  extract_lets +onlyGivenNames t
  have ht : aside t = aside s := rfl
  split <;> simp [ht]

@[simp] theorem aside_flowLost (s : State) (c : QpCtx) (fenced : Bool) : aside (s.flowLost c fenced) = aside s := by
  unfold State.flowLost
  extract_lets +onlyGivenNames t u
  have ht : aside t = aside s := aside_foldl (fun u l => by split <;> simp) _ _
  have hu : aside u = aside t := aside_qpError ..
  split <;> simp [ht, hu]

@[simp] theorem aside_pathsChanged (s : State) : aside s.pathsChanged = aside s := by
  unfold State.pathsChanged
  extract_lets +onlyGivenNames t u
  have ht : aside t = aside s := aside_refreshBackups ..
  have hu : aside u = aside t := by
    refine aside_foldl (fun v e => ?_) _ _
    split
    · split <;> simp
    · rfl
  refine (aside_foldl (fun v e => ?_) _ _).trans (hu.trans ht)
  extract_lets +onlyGivenNames c
  split
  · rfl
  · split
    · rfl
    · split
      · rfl
      · split <;> simp

@[simp] theorem aside_pumpFlows (s : State) : aside s.pumpFlows = aside s := aside_foldl (fun u e => by split <;> simp) _ _

end Sys2Proof.Machine.Proofs
end

section
/-! PROOFS. Core cycles between two slots (00_scope.md R5; 01_fabric_time.md R17, R18): FT runs to the next slot, and neither the mesh nor
what a cycle tries again touches the schedules before that slot begins. -/

namespace Sys2Proof.Machine.Proofs

open Laws

/-! Key loads that are tried again -/

@[simp] theorem aside_resetReg (s : State) {o : Nat} (h : 0x20000 ≤ o) : aside (s.resetReg o) = aside s := by
  unfold aside asideOf
  congr 1
  funext p
  split
  · exact congrArg (fun r => Option.getD r (regReset p)) (Sparse.at?_del_ne s.regs (by omega))
  · rfl

@[simp] theorem aside_keyCmdEnd (s : State) (h : HostId) (r : Nat) : aside (s.keyCmdEnd h r) = aside s := by simp [State.keyCmdEnd]

@[simp] theorem aside_setKey (s : State) (n : Nat) (key : Option (List Byte)) : aside (s.setKey n key) = aside s := by
  unfold State.setKey
  split
  · exact (aside_put _ _ (by simp)).trans ((aside_put _ _ (by simp)).trans rfl)
  · exact (aside_resetReg _ (Nat.le_add_right_of_le (by decide))).trans rfl

@[simp] theorem aside_flushKeyCmds (s : State) : aside s.flushKeyCmds = aside s :=
  (aside_foldl (fun _ _ => by simp) _ _).trans rfl

@[simp] theorem aside_keyTake (s : State) (h : HostId) (n : Nat) (key : Option (List Byte)) : aside (s.keyTake h n key) = aside s :=
  (aside_flushKeyCmds _).trans ((aside_put _ _ (by simp)).trans rfl)

@[simp] theorem aside_keyWait (s : State) (h : HostId) (n : Nat) : aside (s.keyWait h n) = aside s := (aside_put _ _ (by simp)).trans rfl

@[simp] theorem aside_keyLoad (s : State) (h : HostId) (n : Nat) : aside (s.keyLoad h n) = aside s := by
  unfold State.keyLoad
  split
  · simp
  · extract_lets +onlyGivenNames space a ok
    split
    · simp
    · split
      · simp
      · split
        · next e => exact (aside_keyCmdEnd ..).trans (aside_of_fst e (aside_memReadC ..))
        · next e => exact (aside_keyCmdEnd ..).trans ((aside_fresh _).trans (aside_of_fst e (aside_memReadC ..)))
        · simp
        · next t b e =>
          have ht : aside t = aside s := aside_of_fst e (aside_memReadC ..)
          split <;> simp [ht]

@[simp] theorem aside_keyRetry (s : State) : aside s.keyRetry = aside s := (aside_foldl (fun _ _ => aside_keyLoad ..) _ _).trans rfl

/-! The pattern of R17 -/

/-- FT stands `k` core cycles after the start of slot `n`, on the pattern of R17. -/
structure CyclesInto (n k : Nat) (s : State) : Prop where
  phase : s.time.phase = k % 3
  ft : s.ft = 1280 * n + 320 * (k / 3) + 107 * (k % 3)

theorem ft_eq (s : State) : s.ft = 256 * s.time.ftNs.toNat + s.time.frac.toNat := by
  unfold State.ft
  omega

theorem slot_eq (s : State) : s.slot = s.ft / 1280 := by
  have hfrac : s.time.frac.toNat < 256 := s.time.frac.isLt
  rw [ft_eq]
  unfold State.slot
  omega

theorem atSlotStart_iff (s : State) : s.atSlotStart = true ↔ s.ft % 1280 = 0 := by
  have hfrac : s.time.frac.toNat < 256 := s.time.frac.isLt
  have hzero : s.time.frac = 0 ↔ s.time.frac.toNat = 0 := by
    rw [← BitVec.toNat_inj]
    rfl
  rw [ft_eq]
  unfold State.atSlotStart
  simp only [Bool.and_eq_true, beq_iff_eq, hzero]
  omega

/-- A time on the pattern is some cycles into its slot. -/
theorem cyclesInto_of_pattern {s : State} (_ : s.time.phase < 3) (hft : s.ft % 320 = 107 * s.time.phase) :
    CyclesInto s.slot (3 * (s.ft / 320 % 4) + s.time.phase) s := by
  have hslot := slot_eq s
  have hquarters : s.ft / 320 / 4 = s.ft / 1280 := Nat.div_div_eq_div_mul ..
  constructor <;> omega

theorem ft_tick {s : State} (h : s.ft + 107 < 2 ^ 72) : s.tick.ft = s.ft + if s.time.phase = 2 then 106 else 107 := by
  have hft (d : Nat) (hd : d ≤ 107) : (s.advanceFt d).ft = s.ft + d := by
    unfold State.advanceFt
    simp only [State.ft, BitVec.toNat_ofNat] at h ⊢
    omega
  unfold State.tick
  split
  · exact hft 106 (by decide)
  · exact hft 107 (by decide)

theorem phase_tick (s : State) : s.tick.time.phase = (s.time.phase + 1) % 3 := rfl

theorem cyclesInto_tick {n k : Nat} {s : State} (h : CyclesInto n k s) (hk : k < 12) (hn : 1280 * (n + 1) < 2 ^ 72) :
    CyclesInto n (k + 1) s.tick := by
  have hft := h.ft
  have hnext := ft_tick (s := s) (by omega)
  have hphase := phase_tick s
  rw [h.phase] at hnext hphase
  split at hnext <;> constructor <;> omega

theorem CyclesInto.of_time {n k : Nat} {s t : State} (h : CyclesInto n k s) (ht : t.time = s.time) : CyclesInto n k t := by
  have hft : t.ft = s.ft := by unfold State.ft; rw [ht]
  exact ⟨by rw [ht]; exact h.phase, hft.trans h.ft⟩

theorem CyclesInto.slot {n k : Nat} {s : State} (h : CyclesInto n k s) (hk : k < 12) : s.slot = n := by
  have hft := h.ft
  have hslot := slot_eq s
  omega

theorem CyclesInto.not_atSlotStart {n k : Nat} {s : State} (h : CyclesInto n k s) (hpos : 0 < k) (hk : k < 12) :
    s.atSlotStart = false := by
  have hft := h.ft
  rw [← Bool.not_eq_true, atSlotStart_iff]
  omega

theorem CyclesInto.next {n : Nat} {s : State} (h : CyclesInto n 12 s) : CyclesInto (n + 1) 0 s := by
  have hft := h.ft
  exact ⟨h.phase, by omega⟩

theorem CyclesInto.atSlotStart {n : Nat} {s : State} (h : CyclesInto n 0 s) : s.atSlotStart = true := by
  have hft := h.ft
  rw [atSlotStart_iff]
  omega

/-! Cycles with nothing on the mesh and no BAR4 request waiting -/

/-- Nothing crosses the mesh, no BAR4 request waits, and LOST is not due. -/
structure Uneventful (s : State) : Prop where
  crossings : s.mesh.crossings = []
  wait : ∀ h, (s.host h).b4Wait = []
  loss : s.lossDue = false

/-- What a core cycle does before it looks whether a slot begins, on an uneventful device. -/
def cycled (s : State) : State := s.tick.keyRetry

theorem time_cycled (s : State) : (cycled s).time = s.tick.time := (keyRetry_same s.tick).time rfl

theorem aside_cycled (s : State) : aside (cycled s) = aside s := (aside_keyRetry _).trans rfl

theorem b4Retry_none {s : State} (h : ∀ k, (s.host k).b4Wait = []) : s.b4Retry = s := by
  have hserve (k : HostId) : s.b4Serve k (s.host k).b4Wait.length = s := by rw [h k]; rfl
  unfold State.b4Retry
  rw [List.foldl_cons, hserve, List.foldl_cons, hserve, List.foldl_nil]

theorem coreCycle_uneventful {s : State} (h : Uneventful s) : coreCycle s = if (cycled s).atSlotStart then (cycled s).beginSlot else cycled s := by
  have hmesh : s.tick.meshCycle = s.tick := by
    have hnone : s.tick.mesh.crossings.isEmpty = true := by
      rw [(tick_same s).mesh rfl, h.crossings]
      rfl
    unfold State.meshCycle
    rw [if_pos hnone]
  have hwait : s.tick.b4Retry = s.tick := b4Retry_none h.wait
  unfold coreCycle
  dsimp only
  rw [hmesh, hwait]
  rfl

theorem Uneventful.cycled {s : State} (h : Uneventful s) : Uneventful (cycled s) where
  crossings := by
    have hmesh : (Proofs.cycled s).mesh = s.mesh := ((keyRetry_same s.tick).mesh rfl).trans ((tick_same s).mesh rfl)
    rw [hmesh]
    exact h.crossings
  wait k := (b4Wait_of_aside (aside_cycled s) k).trans (h.wait k)
  loss := by
    have hstate := get_of_aside (aside_cycled s) (f := Reg.TIME_STS.STATE) (by decide)
    have hloss := h.loss
    unfold State.lossDue at hloss ⊢
    rw [hstate, time_cycled]
    exact hloss

theorem atSlotStart_beginSlot (s : State) : s.beginSlot.atSlotStart = s.atSlotStart := by
  unfold State.atSlotStart
  rw [(beginSlot_same s).ftNs rfl, (beginSlot_same s).ftFrac rfl]

/-- The state in which the next slot begins: a cycle's state with FT on the slot's first cycle. -/
theorem toSlot_uneventful {n k fuel : Nat} {s : State} (hs : Uneventful s) (hk : CyclesInto n k s) (hlt : k < 12) (hfuel : 12 ≤ k + fuel)
    (hn : 1280 * (n + 1) < 2 ^ 72) :
    ∃ u, s.toSlot fuel = u.beginSlot ∧ aside u = aside s ∧ u.slot = n + 1 ∧ u.lossDue = false := by
  induction fuel generalizing s k with
  | zero => omega
  | succ fuel ih =>
    have hnext : CyclesInto n (k + 1) (cycled s) := (cyclesInto_tick hk hlt hn).of_time (time_cycled s)
    unfold State.toSlot
    rw [coreCycle_uneventful hs]
    dsimp only
    by_cases hlast : k + 1 = 12
    · rw [hlast] at hnext
      have hstart := hnext.next
      rw [if_pos hstart.atSlotStart, if_pos ((atSlotStart_beginSlot _).trans hstart.atSlotStart)]
      exact ⟨_, rfl, aside_cycled s, hstart.slot (by decide), hs.cycled.loss⟩
    · have hbetween := hnext.not_atSlotStart (Nat.succ_pos k) (by omega)
      rw [hbetween, if_neg Bool.false_ne_true, hbetween, if_neg Bool.false_ne_true]
      obtain ⟨u, hu, haside, hslot, hloss⟩ := ih hs.cycled hnext (by omega) (by omega)
      exact ⟨u, hu, haside.trans (aside_cycled s), hslot, hloss⟩

end Sys2Proof.Machine.Proofs
end

section
/-! PROOFS. SCHEDULE_TAKEOVER: the one due image replaces its partition's active image as the slot begins (05_schedules_and_admission.md
R132, Table 5.7). -/

namespace Sys2Proof.Machine.Proofs

open Laws

/-! The active and the pending images -/

/-- The active and the pending images. -/
def images (s : State) : Sparse Image × Sparse Image := (s.sched.act, s.sched.pend)

theorem images_of_aside {s t : State} (h : aside t = aside s) : images t = images s := Prod.ext (act_of_aside h) (pend_of_aside h)

theorem images_of_same {m : Nat} {s t : State} (h : Same m s t) (hm : m.testBit 6 = false) : images t = images s := by
  unfold images
  rw [h.sched hm]

theorem images_foldl {α : Type} {f : State → α → State} (hf : ∀ s a, images (f s a) = images s) (l : List α) (s : State) :
    images (l.foldl f s) = images s := by
  induction l generalizing s with
  | nil => rfl
  | cons a l ih => exact (ih _).trans (hf s a)

/-- What follows the images does not change them. -/
theorem images_schedChanged (s : State) (p : Nat) (touched : List Image) : images (s.schedChanged p touched) = images s :=
  calc images (s.schedChanged p touched)
    _ = images (((s.repin.showSched p).showImages touched).purgeHandles) := images_of_aside (aside_pathsChanged _)
    _ = images ((s.repin.showSched p).showImages touched) := images_of_same (purgeHandles_same _) rfl
    _ = images (s.repin.showSched p) := images_of_same (showImages_same _ _) rfl
    _ = images s.repin := images_of_same (showSched_same _ _) rfl
    _ = images s := images_of_same (repin_same s) rfl

theorem images_demote (s : State) (flows : List Nat) (lost : Bool) : images (s.demote flows lost) = images s := by
  unfold State.demote
  refine (rfl : images (State.demoteQueued _ _) = images _).trans (images_foldl (fun _ _ => ?_) _ _)
  rfl

theorem images_commitMap (s : State) : images s.commitMap = images s := by
  unfold State.commitMap
  extract_lets +onlyGivenNames cs t u
  have ht : images t = images s := by
    unfold t
    clear_value cs
    exact images_foldl (fun v c => images_of_same (commitEntry_same v _ _) rfl) cs s
  clear_value t
  have hu : images u = images t := (images_of_same (startDet_same { t with spares := [] }) rfl).trans rfl
  clear_value cs u
  exact (images_of_aside ((aside_pathsChanged _).trans (aside_event u _ _))).trans (hu.trans ht)

/-! One takeover -/

/-- The images after the takeover of one of them. -/
theorem images_takeover (s : State) (p : Nat) (i : Image) :
    images (s.takeover p i) = (if i.empty then s.sched.act.del p else s.sched.act.set p i, s.sched.pend.del p) := by
  unfold State.takeover
  extract_lets +onlyGivenNames old had now gone kept _ t u v w x y
  have hu : images u = images t := rfl
  have hv : images v = images u := images_demote ..
  have hw : images w = images v := by
    refine images_foldl (fun _ _ => ?_) _ _
    split <;> rfl
  have hy : images y = images w := by
    unfold y
    split
    · exact (images_of_same (tableSwitch_same x) rfl).trans rfl
    · rfl
  exact (images_schedChanged ..).trans (hy.trans (hw.trans (hv.trans hu)))

theorem images_takeovers_single {s : State} {p : Nat} {i : Image} (hpend : s.sched.pend = [(p, i)]) (hdue : i.takeover ≤ s.slot) :
    images s.takeovers = (if i.empty then s.sched.act.del p else s.sched.act.set p i, []) := by
  have hlist : s.sched.pend.filter (fun e : Nat × Image => e.2.takeover ≤ s.slot) = [(p, i)] := by
    rw [hpend]
    simp [hdue]
  have hdel : s.sched.pend.del p = [] := by
    rw [hpend]
    simp [Sparse.del]
  have htaken := images_takeover s p i
  rw [hdel] at htaken
  unfold State.takeovers
  extract_lets +onlyGivenNames due t
  have ht : t = s.takeover p i := by
    unfold t due
    rw [hlist]
    rfl
  rw [apply_ite images, images_commitMap, ite_self, ht, htaken]

/-! The slot begins -/

@[simp] theorem aside_refill (s : State) (n : Nat) : aside (s.refill n) = aside s := by
  unfold State.refill
  refine aside_foldl (fun _ _ => aside_foldl (fun _ _ => ?_) _ _) _ _
  rfl

@[simp] theorem aside_pacedGo (s : State) : aside s.pacedGo = aside s := (aside_foldl (fun _ _ => aside_originate ..) _ _).trans rfl

@[simp] theorem aside_sampleMiss (s : State) (p : Nat) : aside (s.sampleMiss p) = aside s := aside_count (f := Reg.SCHED_SAMPLE_LOST.COUNT) s 1 (by decide)

@[simp] theorem aside_sampleWrite (s : State) (p : Nat) (r : List Byte) : aside (s.sampleWrite p r) = aside s := by
  unfold State.sampleWrite
  extract_lets +onlyGivenNames size prod bytes
  split
  · simp
  · split
    · next t _ h =>
      have ht : aside t = aside s := aside_of_fst h (aside_memWriteC ..)
      exact (aside_put _ _ (Nat.le_add_right_of_le (by decide))).trans ht
    · next h => exact (aside_sampleMiss ..).trans (aside_of_fst h (aside_memWriteC ..))

@[simp] theorem aside_flushSamples (s : State) : aside s.flushSamples = aside s := by
  unfold State.flushSamples
  extract_lets +onlyGivenNames xs
  refine (aside_foldl (fun u x => ?_) _ _).trans rfl
  split
  · simp
  · rfl

@[simp] theorem aside_drainEvents (s : State) (h : HostId) (n : Nat) : aside (s.drainEvents h n) = aside s := by
  induction n generalizing s with
  | zero => rfl
  | succ n ih =>
    unfold State.drainEvents
    split
    · rfl
    · split
      · exact (ih _).trans (by simp)
      · rfl

/-- Where LOST is not due, the images of a slot that begins are those after its takeovers. -/
theorem images_beginSlot {s : State} (h : s.lossDue = false) :
    images s.beginSlot = images ({ s with time := { s.time with gateSlot := s.slot } } : State).takeovers := by
  have hloss : ({ s with time := { s.time with gateSlot := s.slot } } : State).lossDue = false := h
  unfold State.beginSlot
  dsimp only
  rw [hloss, if_neg Bool.false_ne_true]
  exact images_of_aside ((aside_pumpFlows _).trans ((aside_foldl (fun _ _ => aside_drainEvents ..) _ _).trans (by simp)))

theorem slot_beginSlot (s : State) : s.beginSlot.slot = s.slot := by
  unfold State.slot
  rw [(beginSlot_same s).ftNs rfl]

end Sys2Proof.Machine.Proofs
end

section
/-! PROOFS. SUBMIT, CANCEL and ADMISSION_VERDICT (05_schedules_and_admission.md R129 to R133, Table 5.7). -/

namespace Sys2Proof.Machine.Proofs

open Laws

/-! SUBMIT -/

theorem schedCtlEff_submit (p : Nat) (s : State) : schedCtlEff p 1 s = submitEff p s := rfl

theorem submitEff_refused {p : Nat} {s : State} (h : s.get (Reg.SCHED_STATE.PEND p) ≠ 0) :
    submitEff p s = s.put (Reg.SCHED_ADM.SUBMIT_REJ p) 1 := if_pos h

theorem submitEff_queues {p : Nat} {s : State} (h : s.get (Reg.SCHED_STATE.PEND p) = 0) :
    submitEff p s = (({ s with sched := { s.sched with submits := s.sched.submits ++ [submission p s] } }).put (Reg.SCHED_STATE.PEND p) 1).put
      (Reg.SCHED_ADM.BUSY p) 1 := if_neg (not_not_intro h)

theorem schedState_ne_schedAdm (p : Nat) : Reg.SCHED_STATE.off p ≠ Reg.SCHED_ADM.off p := by
  unfold Reg.SCHED_STATE.off Reg.SCHED_ADM.off
  omega

theorem fieldOk_pend (p : Nat) : FieldOk (Reg.SCHED_STATE.PEND p) := (by decide : 2 + 2 ≤ 32)

theorem fieldOk_busy (p : Nat) : FieldOk (Reg.SCHED_ADM.BUSY p) := (by decide : 8 + 1 ≤ 32)

theorem completes_submit_command (s : State) (h : HostId) (p : PartId) (ht : Takes s h (Reg.SCHED_CTL.off p)) :
    Completes (.submit h p) s fun t =>
      (s.get (Reg.SCHED_STATE.PEND p) ≠ 0 → t = s.put (Reg.SCHED_ADM.SUBMIT_REJ p) 1)
      ∧ (s.get (Reg.SCHED_STATE.PEND p) = 0 → t.get (Reg.SCHED_STATE.PEND p) = 1 ∧ t.get (Reg.SCHED_ADM.BUSY p) = 1
          ∧ FieldsBut [Reg.SCHED_STATE.PEND p, Reg.SCHED_ADM.BUSY p] s t
          ∧ t = { s with regs := t.regs, sched := { s.sched with submits := s.sched.submits ++ [submission p s] } }) := by
  refine ⟨submitEff p s, congrArg Host.Outcome.next (hostWrite_takes (schedCtlEff p 1) ht), submitEff_refused, fun hfree => ?_⟩
  rw [submitEff_queues hfree]
  refine ⟨?_, get_put_fits _ _ _ (fieldOk_busy p) (by decide : 1 < 2 ^ 1), ?_, rfl⟩
  · rw [get_put_ne _ _ _ _ (schedState_ne_schedAdm p)]
    exact get_put_fits _ _ _ (fieldOk_pend p) (by decide : 1 < 2 ^ 2)
  · have hqueued := fieldsBut_of_regs (u := { s with sched := { s.sched with submits := s.sched.submits ++ [submission p s] } })
      (fieldsBut_refl [Reg.SCHED_STATE.PEND p, Reg.SCHED_ADM.BUSY p] s) rfl
    exact fieldsBut_put _ 1 (fieldsBut_put _ 1 hqueued (fieldOk_pend p) (by simp)) (fieldOk_busy p) (by simp)

/-! CANCEL -/

/-- The takeover slot that the registers of a partition show. -/
def takeoverShown (s : State) (p : Nat) : Nat := s.get (Reg.SCHED_TAKEOVER_LO.SLOT p) + 2 ^ 32 * s.get (Reg.SCHED_TAKEOVER_HI.SLOT p)

theorem schedCtlEff_cancel (p : Nat) (s : State) : schedCtlEff p 2 s = cancelEff p s := rfl

theorem cancelEff_refused {p : Nat} {s : State} (h : s.get (Reg.SCHED_STATE.PEND p) ≠ 2 ∨ takeoverShown s p ≤ s.slot) :
    cancelEff p s = s.put (Reg.SCHED_ADM.CANCEL_REJ p) 1 := by
  refine if_neg fun ⟨hpend, hslot⟩ => ?_
  rcases h with h | h
  · exact h hpend
  · exact absurd hslot (Nat.not_lt.mpr h)

theorem cancelEff_drops {p : Nat} {s : State} (hpend : s.get (Reg.SCHED_STATE.PEND p) = 2) (hslot : s.slot < takeoverShown s p) :
    cancelEff p s = s.dropPending p := if_pos ⟨hpend, hslot⟩

theorem dropPending_some {s : State} {p : Nat} {i : Image} (h : s.sched.pend.at? p = some i) :
    s.dropPending p = (({ s with sched := { s.sched with pend := s.sched.pend.del p } }).put (Reg.SCHED_STATE.PEND p) 0).schedChanged p [i] := by
  unfold State.dropPending
  rw [h]

theorem dropPending_none {s : State} {p : Nat} (h : s.sched.pend.at? p = none) : s.dropPending p = s := by
  unfold State.dropPending
  rw [h]

theorem completes_cancel (s : State) (h : HostId) (p : PartId) (ht : Takes s h (Reg.SCHED_CTL.off p)) :
    Completes (.cancel h p) s fun t =>
      (s.get (Reg.SCHED_STATE.PEND p) ≠ 2 → t = s.put (Reg.SCHED_ADM.CANCEL_REJ p) 1)
      ∧ (takeoverShown s p ≤ s.slot → t = s.put (Reg.SCHED_ADM.CANCEL_REJ p) 1)
      ∧ (s.get (Reg.SCHED_STATE.PEND p) = 2 → s.slot < takeoverShown s p → ∀ i, s.sched.pend.at? p.val = some i →
          t = (({ s with sched := { s.sched with pend := s.sched.pend.del p } }).put (Reg.SCHED_STATE.PEND p) 0).schedChanged p [i])
      ∧ (s.get (Reg.SCHED_STATE.PEND p) = 2 → s.slot < takeoverShown s p → s.sched.pend.at? p.val = none → t = s)
      ∧ TrafficOnly { s with handles := t.handles } t := by
  have hsame : Same 139708891099130 s (cancelEff p s) := (cancelEff_same ..).mono (by decide)
  exact ⟨cancelEff p s, congrArg Host.Outcome.next (hostWrite_takes (schedCtlEff p 2) ht), fun hpend => cancelEff_refused (.inl hpend),
    fun hslot => cancelEff_refused (.inr hslot), fun hpend hslot i hi => (cancelEff_drops hpend hslot).trans (dropPending_some hi),
    fun hpend hslot hi => (cancelEff_drops hpend hslot).trans (dropPending_none hi), eq_patch_of_same hsame⟩

/-! ADM_FORMAT, the one code of check 1 -/

/-- A failure of check 1: its code, a record, and no failing quantity. -/
def IsBadFormat (f : AdmFail) : Prop := ∃ kind index, f = badFormat kind index

theorem isBadFormat_of_gateLists {b : List Byte} {n i o : Nat} {f : AdmFail} (h : gateLists b n i o = .error f) : IsBadFormat f := by
  induction n generalizing i o with
  | zero => cases h
  | succ n ih =>
    unfold gateLists at h
    split at h
    · cases h
      exact ⟨_, _, rfl⟩
    · split at h
      · cases h
      · next g hg =>
        cases h
        exact ih hg

theorem isBadFormat_of_mapM {α : Type} {read : Nat → Except AdmFail α} (hread : ∀ k g, read k = .error g → IsBadFormat g) {l : List Nat}
    {f : AdmFail} (h : l.mapM read = .error f) : IsBadFormat f := by
  induction l with
  | nil => cases h
  | cons k l ih =>
    rw [List.mapM_cons] at h
    cases hk : read k with
    | error g =>
      rw [hk] at h
      cases h
      exact hread k _ hk
    | ok x =>
      rw [hk] at h
      cases hl : l.mapM read with
      | error g =>
        rw [hl] at h
        cases h
        exact ih hl
      | ok xs =>
        rw [hl] at h
        cases h

theorem isBadFormat_of_records {α : Type} {n o size kind : Nat} {read : Nat → Option α} {f : AdmFail}
    (h : records n o size kind read = .error f) : IsBadFormat f := by
  refine isBadFormat_of_mapM (fun k g hg => ?_) h
  split at hg
  · cases hg
  · cases hg
    exact ⟨_, _, rfl⟩

theorem isBadFormat_of_parseImage {b : List Byte} {room : Nat} {f : AdmFail} (h : parseImage b room = .error f) : IsBadFormat f := by
  unfold parseImage at h
  split at h
  · cases h
    exact ⟨_, _, rfl⟩
  · dsimp only at h
    split at h
    · cases h
      exact ⟨_, _, rfl⟩
    · split at h
      · next g hg =>
        cases h
        exact isBadFormat_of_gateLists hg
      · split at h
        · cases h
          exact ⟨_, _, rfl⟩
        · simp only [bind, Except.bind] at h
          split at h
          · next g hg =>
            cases h
            exact isBadFormat_of_records hg
          · split at h
            · next g hg =>
              cases h
              exact isBadFormat_of_records hg
            · split at h
              · next g hg =>
                cases h
                exact isBadFormat_of_records hg
              · split at h
                · cases h
                  exact ⟨_, _, rfl⟩
                · cases h

end Sys2Proof.Machine.Proofs
end

section
/-! PROOFS. ADMISSION_VERDICT, SCHEDULE_TAKEOVER and COMMIT (05_schedules_and_admission.md R132, R133, Table 5.7;
02_floor_plan_and_numbering.md R46 to R49). -/

namespace Sys2Proof.Machine.Proofs

open Laws

/-! ADMISSION_VERDICT -/

/-- A submission whose check has ended is no longer waiting. -/
def judged (u : State) (rest : List Submit) : State := { u with sched := { u.sched with submits := rest } }

/-- The image of a submission is read and parses. -/
structure ImageRead (s u : State) (seen : Seen) (x : Submit) (rest : List Submit) (b : List Byte) : Prop where
  first : s.sched.submits = x :: rest
  read : (s.see seen).memReadC (x.part * 1024 + 0x3FF) x.space x.addr (4096 * x.pages) = (u, .ok b)

theorem admissionVerdictEff_none {s : State} (seen : Seen) (h : s.sched.submits = []) : admissionVerdictEff seen s = s := by
  unfold admissionVerdictEff
  rw [h]

theorem admissionVerdictEff_unparsed {s u : State} {seen : Seen} {x : Submit} {rest : List Submit} {b : List Byte} {f : AdmFail}
    (h : ImageRead s u seen x rest b) (hf : parseImage b (4096 * x.pages) = .error f) :
    admissionVerdictEff seen s = (judged u rest).refuse x.part f := by
  unfold admissionVerdictEff
  rw [h.first]
  dsimp only
  rw [h.read]
  dsimp only
  rw [hf]
  rfl

/-- Where every port the image names is up and every cluster is ungated, the checks give the verdict. -/
theorem admissionVerdictEff_checked {s u : State} {seen : Seen} {x : Submit} {rest : List Submit} {b : List Byte} {i : Image}
    (h : ImageRead s u seen x rest b) (hi : parseImage b (4096 * x.pages) = .ok i)
    (hup : (∀ p ∈ i.ports, u.lowered p = false) ∧ ∀ k ∈ i.clusters, u.gated k = false) :
    admissionVerdictEff seen s = match (judged u rest).admChecks x i ((u.plant x.preempt).cost i) with
      | some f => (judged u rest).refuse x.part f
      | none => (judged u rest).admitted x.part { i with cost := (u.plant x.preempt).cost i } := by
  have hlow : i.ports.filter u.lowered = [] := List.filter_eq_nil_iff.mpr (by simpa using hup.1)
  have hungated : (i.clusters.filter (judged u rest).gated).foldl (fun s k => s.setGated k false) (judged u rest) = judged u rest := by
    have hnone : i.clusters.filter (judged u rest).gated = [] :=
      List.filter_eq_nil_iff.mpr fun k hk => Bool.not_eq_true _ ▸ hup.2 k hk
    rw [hnone, List.foldl_nil]
  unfold judged at hungated
  unfold admissionVerdictEff
  rw [h.first]
  dsimp only
  rw [h.read]
  dsimp only
  rw [hi]
  dsimp only
  rw [hlow]
  simp only [hungated]
  rfl

theorem verdict_regs (s : State) (p code : Nat) : (s.verdict p code).regs =
    (((s.put (Reg.SCHED_ADM.RESULT p) code).put (Reg.SCHED_ADM.BUSY p) 0).put (Reg.SCHED_ADM.DONE p) 1).regs := (vector_same ..).regs rfl

theorem fieldOk_result (p : Nat) : FieldOk (Reg.SCHED_ADM.RESULT p) := (by decide : 0 + 8 ≤ 32)

theorem fieldOk_done (p : Nat) : FieldOk (Reg.SCHED_ADM.DONE p) := (by decide : 9 + 1 ≤ 32)

theorem get_verdict_result (s : State) (p code : Nat) : (s.verdict p code).get (Reg.SCHED_ADM.RESULT p) = code % 256 := by
  rw [get_of_regs (verdict_regs ..),
    get_put_disjoint _ _ _ _ (fieldOk_done p) (fieldOk_result p) (.inr (.inr (by decide : 0 + 8 ≤ 9))),
    get_put_disjoint _ _ _ _ (fieldOk_busy p) (fieldOk_result p) (.inr (.inr (by decide : 0 + 8 ≤ 8)))]
  exact get_put_self _ _ _ (fieldOk_result p)

theorem get_verdict_busy (s : State) (p code : Nat) : (s.verdict p code).get (Reg.SCHED_ADM.BUSY p) = 0 := by
  rw [get_of_regs (verdict_regs ..),
    get_put_disjoint _ _ _ _ (fieldOk_done p) (fieldOk_busy p) (.inr (.inr (by decide : 8 + 1 ≤ 9)))]
  exact get_put_self _ _ _ (fieldOk_busy p)

theorem get_verdict_done (s : State) (p code : Nat) : (s.verdict p code).get (Reg.SCHED_ADM.DONE p) = 1 := by
  rw [get_of_regs (verdict_regs ..)]
  exact get_put_self _ _ _ (fieldOk_done p)

theorem get_verdict_ne (s : State) (p code : Nat) {f : Fld} (h : f.off ≠ Reg.SCHED_ADM.off p) : (s.verdict p code).get f = s.get f := by
  rw [get_of_regs (verdict_regs ..), get_put_ne _ _ _ _ h, get_put_ne _ _ _ _ h, get_put_ne _ _ _ _ h]

/-- The fields that a verdict, or a refusal, gives a value. -/
abbrev refusalFields (p : Nat) : List Fld :=
  [Reg.SCHED_ADM.RESULT p, Reg.SCHED_ADM.BUSY p, Reg.SCHED_ADM.DONE p, Reg.SCHED_STATE.PEND p, Reg.SCHED_ADM_ITEM.INDEX p,
    Reg.SCHED_ADM_ITEM.KIND p, Reg.SCHED_ADM_VALUE.VALUE p]

theorem fieldsBut_verdict {s t : State} {p : Nat} (code : Nat) (h : FieldsBut (refusalFields p) s t) :
    FieldsBut (refusalFields p) s (t.verdict p code) := by
  refine fieldsBut_of_regs ?_ (verdict_regs ..)
  exact fieldsBut_put _ 1 (fieldsBut_put _ 0 (fieldsBut_put _ code h (fieldOk_result p) (by simp)) (fieldOk_busy p) (by simp)) (fieldOk_done p)
    (by simp)

theorem fieldsBut_refuse {s t : State} {p : Nat} (f : AdmFail) (h : FieldsBut (refusalFields p) s t) :
    FieldsBut (refusalFields p) s (t.refuse p f) := by
  unfold State.refuse
  have hpend := fieldsBut_put _ 0 h (fieldOk_pend p) (by simp)
  have hindex := fieldsBut_put (Reg.SCHED_ADM_ITEM.INDEX p) f.index hpend (by decide : 0 + 24 ≤ 32) (by simp)
  have hkind := fieldsBut_put (Reg.SCHED_ADM_ITEM.KIND p) f.kind hindex (by decide : 24 + 4 ≤ 32) (by simp)
  have hvalue := fieldsBut_put (Reg.SCHED_ADM_VALUE.VALUE p) f.value hkind (by decide : 0 + 32 ≤ 32) (by simp)
  exact fieldsBut_verdict f.code hvalue

theorem get_refuse_pend (s : State) (p : Nat) (f : AdmFail) : (s.refuse p f).get (Reg.SCHED_STATE.PEND p) = 0 := by
  have hitem : Reg.SCHED_STATE.off p ≠ Reg.SCHED_ADM_ITEM.off p := by unfold Reg.SCHED_STATE.off Reg.SCHED_ADM_ITEM.off; omega
  have hvalue : Reg.SCHED_STATE.off p ≠ Reg.SCHED_ADM_VALUE.off p := by unfold Reg.SCHED_STATE.off Reg.SCHED_ADM_VALUE.off; omega
  unfold State.refuse
  dsimp only
  rw [get_verdict_ne _ _ _ (schedState_ne_schedAdm p), get_put_ne _ _ _ _ hvalue, get_put_ne _ _ _ _ hitem, get_put_ne _ _ _ _ hitem]
  exact get_put_self _ _ _ (fieldOk_pend p)

theorem get_refuse_value (s : State) (p : Nat) (f : AdmFail) : (s.refuse p f).get (Reg.SCHED_ADM_VALUE.VALUE p) = f.value % 2 ^ 32 := by
  have hadm : Reg.SCHED_ADM_VALUE.off p ≠ Reg.SCHED_ADM.off p := by unfold Reg.SCHED_ADM_VALUE.off Reg.SCHED_ADM.off; omega
  unfold State.refuse
  dsimp only
  rw [get_verdict_ne _ _ _ hadm]
  exact get_put_self _ _ _ (by decide : 0 + 32 ≤ 32)

/-- A refusal is registers and the owner's vector. -/
theorem refuse_judged {u t : State} {rest : List Submit} {p : Nat} {f : AdmFail} (ht : (judged u rest).refuse p f = t) :
    t.sched = { u.sched with submits := rest }
    ∧ t = { u with regs := t.regs, sched := t.sched, host0 := t.host0, host1 := t.host1, out := t.out } := by
  subst ht
  have hsame := refuse_same (judged u rest) p f
  have hjudged : Same 64 u (judged u rest) := { Same.refl 64 u with sched := fun hb => absurd hb (by decide) }
  have hboth : Same 35184372088946 u ((judged u rest).refuse p f) := (hjudged.mono (by decide)).trans (hsame.mono (by decide))
  exact ⟨hsame.sched rfl, eq_patch_of_same hboth⟩

theorem completes_admissionVerdict_none (s : State) (seen : Seen) (h : s.sched.submits = []) :
    Completes (.admissionVerdict seen) s fun t => t = s := ⟨_, rfl, admissionVerdictEff_none seen h⟩

theorem completes_admissionVerdict_unparsed (s u : State) (seen : Seen) (x : Submit) (rest : List Submit) (b : List Byte) (f : AdmFail)
    (hsub : s.sched.submits = x :: rest)
    (hread : (s.see seen).memReadC (x.part * 1024 + 0x3FF) x.space x.addr (4096 * x.pages) = (u, .ok b))
    (hf : parseImage b (4096 * x.pages) = .error f) :
    Completes (.admissionVerdict seen) s fun t =>
      t.get (Reg.SCHED_ADM.RESULT x.part) = 1 ∧ t.get (Reg.SCHED_ADM.BUSY x.part) = 0 ∧ t.get (Reg.SCHED_ADM.DONE x.part) = 1
      ∧ t.get (Reg.SCHED_STATE.PEND x.part) = 0 ∧ t.get (Reg.SCHED_ADM_VALUE.VALUE x.part) = 0 ∧ t.sched = { u.sched with submits := rest }
      ∧ FieldsBut (refusalFields x.part) u t ∧ t = { u with regs := t.regs, sched := t.sched, host0 := t.host0, host1 := t.host1, out := t.out } := by
  obtain ⟨kind, index, rfl⟩ := isBadFormat_of_parseImage hf
  refine ⟨admissionVerdictEff seen s, rfl, ?_⟩
  rw [admissionVerdictEff_unparsed ⟨hsub, hread⟩ hf]
  obtain ⟨hsched, hrest⟩ := refuse_judged (rfl : (judged u rest).refuse x.part (badFormat kind index) = _)
  exact ⟨get_verdict_result .., get_verdict_busy .., get_verdict_done .., get_refuse_pend .., get_refuse_value .., hsched,
    fieldsBut_refuse _ (fieldsBut_of_regs (fieldsBut_refl _ u) rfl), hrest⟩

theorem completes_admissionVerdict_checked (s u : State) (seen : Seen) (x : Submit) (rest : List Submit) (b : List Byte) (i : Image)
    (hsub : s.sched.submits = x :: rest)
    (hread : (s.see seen).memReadC (x.part * 1024 + 0x3FF) x.space x.addr (4096 * x.pages) = (u, .ok b))
    (hi : parseImage b (4096 * x.pages) = .ok i)
    (hup : (∀ p ∈ i.ports, u.lowered p = false) ∧ ∀ k ∈ i.clusters, u.gated k = false) :
    Completes (.admissionVerdict seen) s fun t =>
      (∀ f, (judged u rest).admChecks x i ((u.plant x.preempt).cost i) = some f →
          t.get (Reg.SCHED_ADM.RESULT x.part) = f.code % 256 ∧ t.get (Reg.SCHED_ADM.DONE x.part) = 1 ∧ t.get (Reg.SCHED_STATE.PEND x.part) = 0
          ∧ t.sched = { u.sched with submits := rest } ∧ t = { u with regs := t.regs, sched := t.sched, host0 := t.host0, host1 := t.host1, out := t.out })
      ∧ ((judged u rest).admChecks x i ((u.plant x.preempt).cost i) = none →
          t.get (Reg.SCHED_ADM.RESULT x.part) = 0 ∧ t.get (Reg.SCHED_ADM.DONE x.part) = 1 ∧ t.get (Reg.SCHED_ADM.BUSY x.part) = 0
          ∧ t = (judged u rest).admitted x.part { i with cost := (u.plant x.preempt).cost i }) := by
  refine ⟨admissionVerdictEff seen s, rfl, fun f hf => ?_, fun hnone => ?_⟩
  · rw [admissionVerdictEff_checked ⟨hsub, hread⟩ hi hup, hf]
    dsimp only
    obtain ⟨hsched, hrest⟩ := refuse_judged (rfl : (judged u rest).refuse x.part f = _)
    exact ⟨get_verdict_result .., get_verdict_done .., get_refuse_pend .., hsched, hrest⟩
  · rw [admissionVerdictEff_checked ⟨hsub, hread⟩ hi hup, hnone]
    dsimp only
    exact ⟨get_verdict_result .., get_verdict_done .., get_verdict_busy .., rfl⟩

/-! SCHEDULE_TAKEOVER -/

theorem scheduleTakeoverEff_none {s : State} (h : s.sched.pend.any (fun e => decide (e.2.takeover ≤ s.slot + 1)) = false) :
    scheduleTakeoverEff s = s := if_neg (by rw [h]; exact Bool.false_ne_true)

theorem scheduleTakeoverEff_due {s : State} (h : s.sched.pend.any (fun e => decide (e.2.takeover ≤ s.slot + 1)) = true) :
    scheduleTakeoverEff s = s.toSlot 12 := if_pos h

/-- One due image on an uneventful device takes over as the next slot begins. -/
theorem toSlot_takes_over {s : State} {p : Nat} {i : Image} (hs : Uneventful s) (hpend : s.sched.pend = [(p, i)]) (hdue : i.takeover ≤ s.slot + 1)
    (hphase : s.time.phase < 3) (hft : s.ft % 320 = 107 * s.time.phase) (hmax : s.ft + 1280 < 2 ^ 72) :
    images (s.toSlot 12) = (if i.empty then s.sched.act.del p else s.sched.act.set p i, []) ∧ (s.toSlot 12).slot = s.slot + 1 := by
  have hslot := slot_eq s
  obtain ⟨u, hu, haside, hnext, hloss⟩ := toSlot_uneventful hs (cyclesInto_of_pattern hphase hft) (fuel := 12) (by omega) (by omega) (by omega)
  have hpend' : u.sched.pend = [(p, i)] := (pend_of_aside haside).trans hpend
  have htaken := images_takeovers_single (s := { u with time := { u.time with gateSlot := u.slot } }) hpend' (hnext ▸ hdue)
  rw [hu]
  refine ⟨(images_beginSlot hloss).trans (htaken.trans ?_), (slot_beginSlot u).trans hnext⟩
  have hact : u.sched.act = s.sched.act := act_of_aside haside
  change (if i.empty then u.sched.act.del p else u.sched.act.set p i, []) = _
  rw [hact]

theorem completes_scheduleTakeover (s : State) :
    Completes (.scheduleTakeover) s fun t =>
      (s.sched.pend.any (fun e => decide (e.2.takeover ≤ s.slot + 1)) = false → t = s)
      ∧ (s.sched.pend.any (fun e => decide (e.2.takeover ≤ s.slot + 1)) = true → t = s.toSlot 12)
      ∧ (∀ p i, s.sched.pend = [(p, i)] → i.takeover ≤ s.slot + 1 → s.lossDue = false → s.mesh.crossings = [] → s.host0.b4Wait = [] →
          s.host1.b4Wait = [] → s.time.phase < 3 → s.ft % 320 = 107 * s.time.phase → s.ft + 1280 < 2 ^ 72 →
          t.sched.pend = [] ∧ t.sched.act = (if i.empty then s.sched.act.del p else s.sched.act.set p i) ∧ t.slot = s.slot + 1)
      ∧ TrafficOnly { s with time := t.time, handles := t.handles, spares := t.spares, boot := t.boot, tally := t.tally, sec := t.sec } t := by
  have hsame : Same 1125180882776062 s (scheduleTakeoverEff s) := (scheduleTakeoverEff_same s).mono (by decide)
  refine ⟨scheduleTakeoverEff s, rfl, scheduleTakeoverEff_none, scheduleTakeoverEff_due,
    fun p i hpend hdue hloss hmesh hwait0 hwait1 hphase hft hmax => ?_, eq_patch_of_same hsame⟩
  have hs : Uneventful s := ⟨hmesh, fun h => by unfold State.host; split <;> assumption, hloss⟩
  have hany : s.sched.pend.any (fun e => decide (e.2.takeover ≤ s.slot + 1)) = true := by simp [hpend, hdue]
  obtain ⟨himages, hslot⟩ := toSlot_takes_over hs hpend hdue hphase hft hmax
  obtain ⟨hact, hnone⟩ := Prod.mk.inj himages
  rw [scheduleTakeoverEff_due hany]
  exact ⟨hnone, hact, hslot⟩

/-! COMMIT -/

def dumCtlRow : RegRow := ⟨"GLB_DUM_CTL", Reg.GLB_DUM_CTL.off, [], .boot, [⟨0, 1, .w1s, 0, 0, 1⟩, ⟨1, 1, .rw1c, 0, 0, 1⟩]⟩

theorem applyWrite_dumCtl (s : State) (v : Word) : s.applyWrite Reg.GLB_DUM_CTL.off v = s.applyFields dumCtlRow Reg.GLB_DUM_CTL.off v :=
  applyWrite_plain (r := dumCtlRow) (idx := []) rfl rfl v

/-- The state on which a commit is judged: COMMIT itself is taken, and shows nothing. -/
def commitAsked (s : State) : State := s.applyWrite Reg.GLB_DUM_CTL.off 0

theorem schedBusy_commitAsked (s : State) : (commitAsked s).schedBusy = s.schedBusy := by
  have hsched : (commitAsked s).sched = s.sched := (applyWrite_same s _ _).sched rfl
  unfold State.schedBusy
  rw [hsched]

theorem regsBut_commitAsked (s : State) : RegsBut [Reg.GLB_DUM_CTL.off] s (commitAsked s) := by
  unfold commitAsked
  rw [applyWrite_dumCtl]
  exact regsBut_applyFields s _ _ _

theorem dumCtlEff_commit (s : State) :
    dumCtlEff 1 s = if s.schedBusy then (commitAsked s).put Reg.GLB_DUM_CTL.COMMIT_REJ 1 else (commitAsked s).commitMap := by
  rw [← schedBusy_commitAsked]
  rfl

theorem get_startDet_digestValid (s : State) : s.startDet.get Reg.GLB_DET_STS.DIGEST_VALID = 0 :=
  get_put_self s Reg.GLB_DET_STS.DIGEST_VALID 0 (by decide)

/-- A commit empties the spares and has the digest computed again, and what follows it changes neither. -/
theorem commitMap_digest (s : State) : s.commitMap.get Reg.GLB_DET_STS.DIGEST_VALID = 0 ∧ s.commitMap.boot = { s.boot with detPending := true }
    ∧ s.commitMap.spares = [] := by
  unfold State.commitMap
  extract_lets +onlyGivenNames cs t u
  have hentries : Same 60750547656762 s t := by
    unfold t
    clear_value cs
    exact Same.foldl _ _ _ (fun v _ hv => hv.trans (commitEntry_same v _ _)) (Same.refl _ _)
  have ht : t.boot = s.boot := hentries.boot rfl
  clear_value t
  have hvalid : u.get Reg.GLB_DET_STS.DIGEST_VALID = 0 := get_startDet_digestValid _
  have hboot : u.boot = { s.boot with detPending := true } := ht ▸ rfl
  have hspares : u.spares = [] := (startDet_same { t with spares := [] }).spares rfl
  clear_value cs u
  refine ⟨?_, ?_, ?_⟩
  · rw [get_of_aside ((aside_pathsChanged _).trans (aside_event u _ _)) (by decide)]
    exact hvalid
  · exact ((pathsChanged_same _).boot rfl).trans (((event_same u _ _).boot rfl).trans hboot)
  · exact ((pathsChanged_same _).spares rfl).trans (((event_same u _ _).spares rfl).trans hspares)

theorem completes_commit (s : State) (h : HostId) (ht : Takes s h Reg.GLB_DUM_CTL.off) :
    Completes (.commit h) s fun t =>
      (s.schedBusy = true → t.get Reg.GLB_DUM_CTL.COMMIT_REJ = 1 ∧ RegsBut [Reg.GLB_DUM_CTL.off] s t ∧ t = { s with regs := t.regs })
      ∧ (s.schedBusy = false → t.get Reg.GLB_DET_STS.DIGEST_VALID = 0 ∧ t.boot = { s.boot with detPending := true } ∧ t.spares = []
          ∧ t = (commitAsked s).commitMap)
      ∧ TrafficOnly { s with handles := t.handles, spares := t.spares, boot := t.boot, tally := t.tally, sec := t.sec } t := by
  have hasked : Same 2 s (commitAsked s) := applyWrite_same ..
  have hsame : Same 280755952644090 s (dumCtlEff 1 s) := (dumCtlEff_same ..).mono (by decide)
  refine ⟨dumCtlEff 1 s, congrArg Host.Outcome.next (hostWrite_takes (dumCtlEff 1) ht), fun hbusy => ?_, fun hfree => ?_, eq_patch_of_same hsame⟩
  · rw [dumCtlEff_commit, if_pos hbusy]
    exact ⟨get_put_self _ Reg.GLB_DUM_CTL.COMMIT_REJ 1 (by decide), regsBut_put _ 1 (regsBut_commitAsked s) (.head _),
      eq_patch_of_same (hasked.trans (put_same _ _ _))⟩
  · rw [dumCtlEff_commit, hfree, if_neg Bool.false_ne_true]
    obtain ⟨hvalid, hboot, hspares⟩ := commitMap_digest (commitAsked s)
    rw [hasked.boot rfl] at hboot
    exact ⟨hvalid, hboot, hspares, rfl⟩

/-- Settles O14, command by command through the lemmas above. -/
theorem scheduleCommands : Obligations.ScheduleCommands := by
  unfold Obligations.ScheduleCommands
  exact ⟨completes_submit_command, completes_cancel, completes_admissionVerdict_none, completes_admissionVerdict_unparsed,
    completes_admissionVerdict_checked, completes_scheduleTakeover, completes_commit⟩

end Sys2Proof.Machine.Proofs
end

section
/-! PROOFS. The contexts of queue pairs: where they are found, and when a command or event acts on one at once (06 R147, R148). -/

namespace Sys2Proof.Machine.Proofs

open Laws

theorem qp?_of_qps {s t : State} (h : t.qps = s.qps) (q : Nat) : t.qp? q = s.qp? q := congrArg (Sparse.at? · q) h

@[simp] theorem qp?_setQp_self (s : State) (q : Nat) (x : Qp) : (s.setQp q x).qp? q = some x := Sparse.at?_set_self ..

@[simp] theorem qp?_put (s : State) (f : Fld) (v q : Nat) : (s.put f v).qp? q = s.qp? q := rfl

theorem modQp_some {s : State} {q : Nat} {x : Qp} (h : s.qp? q = some x) (f : Qp → Qp) : s.modQp q f = s.setQp q (f x) := by
  unfold State.modQp
  rw [h]

theorem modQp_none {s : State} {q : Nat} (h : s.qp? q = none) (f : Qp → Qp) : s.modQp q f = s := by
  unfold State.modQp
  rw [h]

theorem qp?_modQp_self (s : State) (q : Nat) (f : Qp → Qp) : (s.modQp q f).qp? q = (s.qp? q).map f := by
  cases h : s.qp? q with
  | none => rw [modQp_none h, h]; rfl
  | some x => rw [modQp_some h, qp?_setQp_self]; rfl

theorem see_nil {s : State} (h : s.poisoned = []) : s.see [] = s := by
  unfold State.see
  rw [List.foldl_nil, List.filter_nil, List.map_nil, ← h]

@[simp] theorem qp?_see (s : State) (seen : Seen) (q : Nat) : (s.see seen).qp? q = s.qp? q := qp?_of_qps ((see_same s seen).qps rfl) q

@[simp] theorem see_kennel (s : State) (seen : Seen) : (s.see seen).kennel = s.kennel := (see_same s seen).kennel rfl

/-- A resident context that can be read is left as it is. -/
theorem checkCtx_readable {s : State} {q : Nat} (h : s.kennel.bad.contains q = false) : s.checkCtx q = s :=
  if_neg (by rw [h]; decide)

theorem checkCtx_time (s : State) (q : Nat) : (s.checkCtx q).time = s.time := (checkCtx_same s q).time rfl

theorem not_resident_of_victim {x : Qp} (h : x.place = .victim) : x.resident = false := by simp [Qp.resident, h]

theorem not_resident_of_spilled {x : Qp} (h : x.place = .spilled) : x.resident = false := by simp [Qp.resident, h]

/-! A command or event that needs a context -/

section
variable {s : State} {q : Nat} {x : Qp} (j : CtxJob) (act : State → State)

theorem whenIn_none (h : s.qp? q = none) : s.whenIn q j act = act s := by
  unfold State.whenIn
  rw [h]

theorem whenIn_resident (h : s.qp? q = some x) (hr : x.resident = true) : s.whenIn q j act = act (s.checkCtx q) := by
  unfold State.whenIn
  rw [h]
  exact if_pos hr

theorem whenIn_readable (h : s.qp? q = some x) (hr : x.resident = true) (hb : s.kennel.bad.contains q = false) : s.whenIn q j act = act s := by
  rw [whenIn_resident j act h hr, checkCtx_readable hb]

theorem whenIn_victim (h : s.qp? q = some x) (hv : x.place = .victim) : s.whenIn q j act = act (s.fetchIn q) := by
  unfold State.whenIn
  rw [h]
  exact (if_neg (by simp [not_resident_of_victim hv])).trans (if_pos hv)

/-- The Kennel with a job that waits for the context, once. -/
def withJob (k : Kennel) (q : Nat) (j : CtxJob) : Kennel :=
  { k with jobs := if k.jobs.contains (q, j) then k.jobs else k.jobs ++ [(q, j)] }

/-- The state in which a job waits for the context. -/
def jobWaits (s : State) (q : Nat) (j : CtxJob) : State := { s with kennel := withJob s.kennel q j }

theorem whenIn_away (h : s.qp? q = some x) (hr : x.resident = false) (hv : x.place ≠ .victim) :
    s.whenIn q j act = (jobWaits s q j).miss q := by
  unfold State.whenIn
  rw [h]
  refine ((if_neg (by simp [hr])).trans (if_neg hv)).trans (congrArg (State.miss · q) ?_)
  unfold jobWaits withJob
  split <;> rfl

theorem whenIn_spilled (h : s.qp? q = some x) (hp : x.place = .spilled) : s.whenIn q j act = (jobWaits s q j).miss q :=
  whenIn_away j act h (not_resident_of_spilled hp) (by simp [hp])

end

end Sys2Proof.Machine.Proofs
end

section
/-! PROOFS. The front of the receive side: what goes next, what a receive command does of itself, and what it leaves to the packet's row (06
R155). -/

namespace Sys2Proof.Machine.Proofs

open Laws

theorem dropBad_empty {s : State} (k : Nat) (h : s.nextPkt = none) : s.dropBad k = s := by
  cases k with
  | zero => rfl
  | succ k => unfold State.dropBad; rw [h]

theorem dropBad_pkt {s : State} {x : RxPkt} {xs : List RxPkt} {p : TPkt} (k : Nat) (h : s.nextPkt = some (x, xs)) (hp : x.decode = .pkt p) :
    s.dropBad k = s := by
  cases k with
  | zero => rfl
  | succ k => unfold State.dropBad; rw [h]; dsimp only; rw [hp]

/-- What remains of a packet's turn: gone from the receive side in the state it leads to, or waiting, in the state as it was seen. -/
def turnOver (s : State) (x : RxPkt) : Option State → State
  | some t => t.pktGone x
  | none => s

theorem receiveEff_empty {s : State} {seen : Seen} (row : RxRow) (h : (s.see seen).nextPkt = none) : receiveEff row seen s = s.see seen := by
  unfold receiveEff
  dsimp only
  rw [dropBad_empty _ h, h]

theorem receiveEff_pkt {s : State} {seen : Seen} {x : RxPkt} {xs : List RxPkt} {p : TPkt} (row : RxRow)
    (h : (s.see seen).nextPkt = some (x, xs)) (hp : x.decode = .pkt p) :
    receiveEff row seen s =
      if p.row ≠ row then s.see seen
      else if (s.see seen).absent p.dqpn then ({ s.see seen with rxq := xs }).missIn x p.dqpn
      else turnOver (s.see seen) x (({ s.see seen with rxq := xs }).takePkt p) := by
  unfold receiveEff
  dsimp only
  rw [dropBad_pkt _ h hp, h]
  dsimp only
  rw [hp]
  rfl

/-- Every receive command: nothing without a packet of its kind in front, and a packet whose context is away waits in its port's miss buffer. -/
theorem completes_front {c : Instr} {row : RxRow} {seen : Seen} (hexec : ∀ s, exec c s = .next (receiveEff row seen s)) (s u : State)
    (hu : u = s.see seen) :
    Completes c s fun t =>
      (u.nextPkt = none → t = u)
      ∧ (∀ x, u.nextPkt = some x → ∀ p, x.1.decode = .pkt p →
          (p.row ≠ row → t = u) ∧ (p.row = row → u.absent p.dqpn = true → t = ({ u with rxq := x.2 } : State).missIn x.1 p.dqpn))
      ∧ DeliveryOnly s t := by
  subst hu
  have hframe : Same 139983738367994 s (receiveEff row seen s) := (receiveEff_same row seen s).mono (by decide)
  refine ⟨_, hexec s, receiveEff_empty row, fun x hx p hp => ?_, eq_patch_of_same hframe⟩
  rw [receiveEff_pkt row hx hp]
  exact ⟨fun hrow => if_pos hrow, fun hrow habs => (if_neg (not_not_intro hrow)).trans (if_pos habs)⟩

/-- What the row of a packet does with it: none where it waits for a memory. -/
def rowAct (w : State) (y : Qp) (p : TPkt) : Option State :=
  match p.row with
  | .ack => some (w.onAck p.dqpn p.psn)
  | .nak => some (w.onNak p.dqpn p.psn p.valSyn)
  | .rnrNak => some (w.onRnr p.dqpn p.psn)
  | .visAck => some (w.onVisAck p.dqpn p.psn)
  | .readResp => w.onReadResp p.dqpn p
  | .atomicAck => w.onAtomicAck p.dqpn p
  | _ => w.request p.dqpn y p

theorem takePkt_takes {s w : State} {x : RxPkt} {xs : List RxPkt} {p : TPkt} {y : Qp} (h : TakesPacket s x xs p y w) :
    ({ s with rxq := xs } : State).takePkt p = rowAct w y p := by
  obtain ⟨-, -, -, hy, hfits, hkey, h6, h7, hquiet, rfl⟩ := h
  have hkey' : (p.roce && !pkeyOk p.pkey y.ctx.pkey) = false := by rcases hkey with hkey | hkey <;> simp [hkey]
  have hquiet' : (p.kind.isRequest && (({ s with rxq := xs } : State).checkCtx p.dqpn).pstate (cidPart y.ctx.cid) == 4) = false := by
    rcases hquiet with hquiet | hquiet <;> simp [hquiet]
  unfold State.takePkt
  dsimp only
  rw [hy]
  dsimp only
  rw [if_neg (by simp [hfits]), if_neg (by simp [hkey']), if_neg (not_or.mpr ⟨h6, h7⟩), if_neg (by simp [hquiet']), checkCtx_time]
  rfl

theorem receiveEff_takes {s w : State} {seen : Seen} {x : RxPkt} {xs : List RxPkt} {p : TPkt} {y : Qp} {row : RxRow}
    (h : TakesPacket (s.see seen) x xs p y w) (hrow : p.row = row) : receiveEff row seen s = turnOver (s.see seen) x (rowAct w y p) := by
  rw [receiveEff_pkt row h.1 h.2.1, if_neg (not_not_intro hrow), if_neg (by simp [h.2.2.1]), takePkt_takes h]

/-- The context as a packet that is taken finds it: only its last use has changed. -/
def usedAt (y : Qp) (ns : Nat) : Qp := { y with ctx := { y.ctx with lastUse := ns } }

theorem qp?_of_takes {s w : State} {x : RxPkt} {xs : List RxPkt} {p : TPkt} {y : Qp} (h : TakesPacket s x xs p y w) :
    w.qp? p.dqpn = some (usedAt y s.time.ftNs.toNat) := by
  obtain ⟨-, -, -, hy, -, -, -, -, -, rfl⟩ := h
  unfold State.modCtx
  rw [qp?_modQp_self, hy]
  rfl

end Sys2Proof.Machine.Proofs
end

section
/-! PROOFS. Request packets (O44): by their PSN, and then SEND, WRITE, READ, atomics and RESYNC (06 R157 to R164, R170, 07 R180 to R202). -/

namespace Sys2Proof.Machine.Proofs

open Laws

/-! Rows and kinds -/

/-- The kinds of packet that a row takes. -/
def rowKinds : RxRow → List PKind
  | .send => [.send]
  | .write => [.write]
  | .readReq => [.readReq]
  | .atomic => [.cmpSwap, .fetchAdd]
  | .readResp => [.readResp]
  | .atomicAck => [.atomicAck]
  | .visAck => [.visAck]
  | .resync => [.resync]
  | .ack | .nak | .rnrNak => [.ack]

theorem kind_mem_rowKinds (p : TPkt) : p.kind ∈ rowKinds p.row := by
  unfold TPkt.row
  cases p.kind with
  | ack =>
    dsimp only
    split
    · exact List.mem_singleton_self _
    · split <;> exact List.mem_singleton_self _
  | _ => simp [rowKinds]

theorem kind_of_row {p : TPkt} {row : RxRow} (h : p.row = row) : p.kind ∈ rowKinds row := h ▸ kind_mem_rowKinds p

theorem send_of_row {p : TPkt} (h : p.row = .send) : p.kind = .send := List.mem_singleton.mp (kind_of_row h)
theorem write_of_row {p : TPkt} (h : p.row = .write) : p.kind = .write := List.mem_singleton.mp (kind_of_row h)
theorem readReq_of_row {p : TPkt} (h : p.row = .readReq) : p.kind = .readReq := List.mem_singleton.mp (kind_of_row h)
theorem resync_of_row {p : TPkt} (h : p.row = .resync) : p.kind = .resync := List.mem_singleton.mp (kind_of_row h)
theorem atomic_of_row {p : TPkt} (h : p.row = .atomic) : p.kind = .cmpSwap ∨ p.kind = .fetchAdd := by simpa [rowKinds] using kind_of_row h

theorem isRequest_of_row {p : TPkt} {row : RxRow} (h : p.row = row) (hrow : ∀ k ∈ rowKinds row, k.isRequest = true) :
    p.kind.isRequest = true := hrow _ (kind_of_row h)

theorem rowAct_request (w : State) (y : Qp) {p : TPkt} (h : p.kind.isRequest = true) : rowAct w y p = w.request p.dqpn y p := by
  unfold rowAct TPkt.row
  cases hk : p.kind <;> simp [hk, PKind.isRequest] at h ⊢

/-- A request that is taken goes by its PSN. -/
theorem receiveEff_request {s w : State} {seen : Seen} {x : RxPkt} {xs : List RxPkt} {p : TPkt} {y : Qp} {row : RxRow} {r : Option State}
    (h : TakesPacket (s.see seen) x xs p y w) (hrow : p.row = row) (hreq : p.kind.isRequest = true) (hr : w.request p.dqpn y p = r) :
    receiveEff row seen s = turnOver (s.see seen) x r := by
  rw [receiveEff_takes h hrow, rowAct_request w y hreq, hr]

/-! By its PSN -/

section
variable {w : State} {q : Nat} {y : Qp} {p : TPkt}

theorem request_resync (hk : p.kind = .resync) : w.request q y p = some (w.acceptResync q p.psn) := if_pos hk

theorem request_early_again (hk : p.kind ≠ .resync) (h0 : psnSub p.psn y.ctx.epsn ≠ 0) (hlt : psnSub p.psn y.ctx.epsn < 2 ^ 23)
    (hn : y.ctx.nakSent = true) : w.request q y p = some w :=
  (if_neg hk).trans ((if_neg h0).trans ((if_pos hlt).trans (if_pos hn)))

theorem request_early (hk : p.kind ≠ .resync) (h0 : psnSub p.psn y.ctx.epsn ≠ 0) (hlt : psnSub p.psn y.ctx.epsn < 2 ^ 23)
    (hn : y.ctx.nakSent = false) :
    w.request q y p = some (((w.count Reg.KENNEL_NAK_SEQ.COUNT).modQp q (fun x => { x with early := true })).nak q 0 y.ctx.epsn) :=
  (if_neg hk).trans ((if_neg h0).trans ((if_pos hlt).trans (if_neg (by simp [hn]))))

theorem request_otherCid (hk : p.kind ≠ .resync) (h0 : psnSub p.psn y.ctx.epsn = 0) (hr : p.roce = false) (hc : p.cid ≠ y.ctx.cid) :
    w.request q y p = some (w.nak q 4 p.psn) :=
  (if_neg hk).trans ((if_pos h0).trans (if_pos (by simp [hr, hc])))

/-- What a request at the expected PSN, under the right CID, is accepted or refused by. -/
def dueAct (w : State) (q : Nat) (y : Qp) (p : TPkt) : Option State :=
  match p.kind with
  | .write => w.acceptWrite q y p
  | .readReq => w.acceptRead q y p true
  | .cmpSwap | .fetchAdd => w.acceptAtomic q y p
  | _ => w.acceptSend q y p

theorem request_due (hk : p.kind ≠ .resync) (h0 : psnSub p.psn y.ctx.epsn = 0) (hc : p.roce = true ∨ p.cid = y.ctx.cid) :
    w.request q y p = dueAct w q y p := by
  refine ((if_neg hk).trans ((if_pos h0).trans (if_neg ?_))).trans rfl
  rcases hc with hc | hc <;> simp [hc]

/-- The receive entry in use, if there is one, lies in host memory. -/
def recvToHost (w : State) (c : QpCtx) : Bool :=
  match w.recvEntry? c with
  | some l => l.toHost
  | none => false

/-- The ACK of an earlier SEND or WRITE: of the last accepted PSN, and a VIS_ACK where the packet asks for one. -/
def againAcked (w : State) (q : Nat) (y : Qp) (p : TPkt) (host : Bool) : State :=
  (w.oweVis q p host).answer q { kind := .ack, psn := psnAdd y.ctx.epsn (2 ^ 24 - 1) }

/-- What an earlier request is answered by: a READ is executed again, an atomic's answer is repeated from REPLAY, the others are acknowledged. -/
def againAct (w : State) (q : Nat) (y : Qp) (p : TPkt) : Option State :=
  match p.kind with
  | .readReq => if !p.roce && p.cid != y.ctx.cid then some (w.nak q 4 p.psn) else w.acceptRead q y p false
  | .cmpSwap | .fetchAdd =>
    match y.ctx.replay.find? (fun r => r.2.1 == p.psn) with
    | some r => some (w.answer q { kind := .atomicAck, psn := p.psn, orig := r.2.2 })
    | none => some w
  | .write => some (againAcked w q y p ((w.win ((if p.hasRae then p.key else y.ctx.curKey) / 4096)).space == 0))
  | _ => some (againAcked w q y p (recvToHost w y.ctx))

theorem request_again (hk : p.kind ≠ .resync) (h : 2 ^ 23 ≤ psnSub p.psn y.ctx.epsn) : w.request q y p = againAct w q y p := by
  refine ((if_neg hk).trans ((if_neg (by omega)).trans (if_neg (by omega)))).trans ?_
  unfold againAct
  cases p.kind <;> rfl

end

/-! SEND -/

/-- R201 refuses the trigger slot that a packet names. -/
def tagRefused (w : State) (c : QpCtx) (p : TPkt) : Bool :=
  match p.tag with
  | some g => !w.tagOk (cidPart c.cid) g
  | none => false

section
variable {w : State} {q : Nat} {y : Qp} {p : TPkt} {l : Live}

theorem acceptSend_failed (h : y.recvFail = true) : w.acceptSend q y p = some ((w.setQp q { y with recvFail := false }).nak q 7 p.psn) := if_pos h

theorem acceptSend_unready (hf : y.recvFail = false) (hl : w.recvEntry? y.ctx = none) : w.acceptSend q y p = some (w.rnrNak q p.psn) := by
  unfold State.acceptSend
  dsimp only
  rw [if_neg (by simp [hf]), hl]

theorem acceptSend_long (hf : y.recvFail = false) (hl : w.recvEntry? y.ctx = some l)
    (h : l.len < (if p.opens then 0 else y.ctx.msgOffset) + p.payload.length) :
    w.acceptSend q y p = some ((w.endRecv y.ctx l 0x10 0 p).nak q 1 p.psn) := by
  unfold State.acceptSend
  dsimp only
  rw [if_neg (by simp [hf]), hl]
  exact if_pos h

theorem acceptSend_placed {z : State} {off : Nat} {r : BufRes Unit} (hf : y.recvFail = false) (hl : w.recvEntry? y.ctx = some l)
    (hoff : off = if p.opens then 0 else y.ctx.msgOffset) (hfit : off + p.payload.length ≤ l.len) (htag : tagRefused w y.ctx p = false)
    (hw : w.bufWrite y.ctx.cid l.buf off p.payload = (z, r)) :
    (r = .err .wait → w.acceptSend q y p = none)
    ∧ (∀ e, r = .err e → e ≠ .wait → w.acceptSend q y p =
        some (((z.endRecv y.ctx l (if e = .ue then 0x40 else 0x22) 0 p).nak q (memNak e) p.psn).qpError q (if e = .ue then 0x40 else 0x22) p.psn))
    ∧ (r = .ok () → p.closes = true → w.acceptSend q y p =
        some (((((z.modQp q (fun x => { x with recvFault := false, ctx := { x.ctx with msgOffset := off + p.payload.length } })).accepted q 1
          true).oweFlags q y.ctx p l.toHost).endRecv y.ctx l 0 (off + p.payload.length) p).oweAck q p.ackReq)) := by
  subst hoff
  have htag' : ¬ tagRefused w y.ctx p = true := by simp [htag]
  unfold State.acceptSend
  dsimp only
  rw [if_neg (by simp [hf]), hl]
  dsimp only
  rw [if_neg (Nat.not_lt.mpr hfit), hw]
  refine ⟨fun hr => (if_neg htag').trans ?_, fun e hr he => (if_neg htag').trans ?_, fun hr hc => (if_neg htag').trans ?_⟩
  · rw [hr]
  · cases e with
    | wait => exact absurd rfl he
    | _ => rw [hr]
  · rw [hr, hc]
    rfl

end

/-! WRITE -/

@[simp] theorem win_setWin_self (s : State) (i : Nat) (v : Window) : (s.setWin i v).win i = v := by
  have hdesc : (s.setWin i v).wins.desc = s.wins.desc.putD i v {} := by
    unfold State.setWin
    dsimp only
    split <;> split <;> rfl
  unfold State.win
  rw [hdesc]
  exact Sparse.getD_putD_self ..

theorem win_modQp (s : State) (q i : Nat) (f : Qp → Qp) : (s.modQp q f).win i = s.win i := by
  unfold State.win
  rw [(modQp_same s q f).wins rfl]

theorem space_inflightUp (s : State) (i : Nat) : ((s.inflightUp i).win i).space = (s.win i).space := by
  unfold State.inflightUp
  rw [win_setWin_self]

section
variable {w : State} {q : Nat} {y : Qp} {p : TPkt} {key addr len : Nat}
  (hkey : key = if p.hasRae then p.key else y.ctx.curKey) (haddr : addr = if p.hasRae then p.addr else y.ctx.curAddr)
  (hlen : len = if p.hasRae then p.len else p.payload.length)
include hkey haddr hlen

theorem acceptWrite_refused {code : Nat} (h : w.winCheck y.ctx.cid key .write addr len = some code) :
    w.acceptWrite q y p = some (w.nak q code p.psn) := by
  subst hkey haddr hlen
  unfold State.acceptWrite
  dsimp only
  rw [h]

theorem acceptWrite_badTag (h : w.winCheck y.ctx.cid key .write addr len = none) (htag : tagRefused w y.ctx p = true) :
    w.acceptWrite q y p = some (w.nak q 2 p.psn) := by
  subst hkey haddr hlen
  unfold State.acceptWrite
  dsimp only
  rw [h]
  exact if_pos htag

theorem acceptWrite_unready (h : w.winCheck y.ctx.cid key .write addr len = none) (htag : tagRefused w y.ctx p = false) (hi : p.imm.isSome = true)
    (hl : w.recvEntry? y.ctx = none) : w.acceptWrite q y p = some (w.rnrNak q p.psn) := by
  subst hkey haddr hlen
  have htag' : ¬ tagRefused w y.ctx p = true := by simp [htag]
  unfold State.acceptWrite
  dsimp only
  rw [h]
  refine (if_neg htag').trans (if_pos ⟨hi, ?_⟩)
  rw [if_pos hi, hl]
  rfl

theorem acceptWrite_placed {z : State} {r : Except MemErr Unit} (h : w.winCheck y.ctx.cid key .write addr len = none)
    (htag : tagRefused w y.ctx p = false) (hi : p.imm = none) (hw : w.memWriteC y.ctx.cid (w.win (key / 4096)).space addr p.payload = (z, r)) :
    (r = .error .wait → w.acceptWrite q y p = none)
    ∧ (∀ e, r = .error e → e ≠ .wait → w.acceptWrite q y p = some (z.nak q (memNak e) p.psn))
    ∧ (r = .ok () → w.acceptWrite q y p = some
        ((((((z.inflightUp (key / 4096)).modQp q (fun x => { x with
            wlen := (if p.hasRae then 0 else y.wlen) + p.payload.length
            ctx := { x.ctx with curKey := key, curAddr := addr + p.payload.length } })).accepted q 1 p.closes).oweFlags q y.ctx p
          ((z.win (key / 4096)).space == 0))).oweAck q p.ackReq)) := by
  subst hkey haddr hlen
  have htag' : ¬ tagRefused w y.ctx p = true := by simp [htag]
  unfold State.acceptWrite
  dsimp only
  rw [h]
  dsimp only
  rw [hw, hi]
  refine ⟨fun hr => (if_neg htag').trans ?_, fun e hr he => (if_neg htag').trans ?_, fun hr => (if_neg htag').trans ?_⟩
  · rw [hr]
    rfl
  · cases e with
    | wait => exact absurd rfl he
    | _ => rw [hr]; rfl
  · rw [hr]
    dsimp only
    rw [win_modQp, space_inflightUp]
    rfl

end

/-! READ -/

section
variable {w : State} {q : Nat} {y : Qp} {p : TPkt}

theorem acceptRead_refused {code : Nat} (h : w.winCheck y.ctx.cid p.key .read p.addr p.len = some code) (fresh : Bool) :
    w.acceptRead q y p fresh = some (w.nak q code p.psn) := by
  unfold State.acceptRead
  dsimp only
  rw [h]

theorem ceilDiv_zero {n : Nat} (h : 0 < n) : ceilDiv 0 n = 0 := Nat.div_eq_of_lt (by omega)

theorem mtu_pos (c : QpCtx) : 0 < c.mtu := Nat.mul_pos (by decide) (Nat.two_pow_pos _)

theorem acceptRead_empty (h : w.winCheck y.ctx.cid p.key .read p.addr p.len = none) (h0 : p.len = 0) (ha : p.ackReq = false) :
    w.acceptRead q y p true = some (((w.inflightUp (p.key / 4096)).accepted q 1 true).readResponses q p.psn y.ctx.mtu []) := by
  unfold State.acceptRead
  dsimp only
  rw [h]
  dsimp only
  rw [if_pos h0, h0, ceilDiv_zero (mtu_pos _), ha]
  rfl

theorem acceptRead_read {z : State} {r : Except MemErr (List Byte)} (h : w.winCheck y.ctx.cid p.key .read p.addr p.len = none) (h0 : p.len ≠ 0)
    (hm : w.memReadC y.ctx.cid (w.win (p.key / 4096)).space p.addr p.len = (z, r)) :
    (r = .error .wait → w.acceptRead q y p true = none)
    ∧ (∀ e, r = .error e → e ≠ .wait → w.acceptRead q y p true = some (z.nak q (memNak e) p.psn))
    ∧ (∀ bs, r = .ok bs → w.acceptRead q y p true =
        let done := ((z.inflightUp (p.key / 4096)).accepted q (max 1 (ceilDiv p.len y.ctx.mtu)) true).readResponses q p.psn y.ctx.mtu bs
        some (if p.ackReq then done.sendAck q else done)) := by
  unfold State.acceptRead
  dsimp only
  rw [h]
  dsimp only
  rw [if_neg h0, hm]
  refine ⟨fun hr => ?_, fun e hr he => ?_, fun bs hr => ?_⟩
  · rw [hr]
  · cases e with
    | wait => exact absurd rfl he
    | _ => rw [hr]
  · rw [hr]
    rfl

/-! Atomics -/

theorem acceptAtomic_refused {code : Nat} (h : w.winCheck y.ctx.cid p.key .atomic p.addr 8 = some code) :
    w.acceptAtomic q y p = some (w.nak q code p.psn) := by
  unfold State.acceptAtomic
  dsimp only
  rw [h]

/-- An atomic has acted: it is kept in REPLAY, accepted and answered with the original value. -/
def atomicAnswered (z : State) (q : Nat) (p : TPkt) (old : Nat) : State :=
  (((z.inflightUp (p.key / 4096)).modQp q (fun x => { x with
    replayNext := (x.replayNext + 1) % 4
    ctx := { x.ctx with replay := x.ctx.replay.set x.replayNext (p.psn, old) } })).accepted q 1 true).answer q
      { kind := .atomicAck, psn := p.psn, orig := old }

theorem acceptAtomic_done {z z2 : State} {bs : List Byte} (h : w.winCheck y.ctx.cid p.key .atomic p.addr 8 = none)
    (hm : w.memReadC y.ctx.cid (w.win (p.key / 4096)).space p.addr 8 = (z, .ok bs))
    (ha : z.atomicOn y.ctx (w.win (p.key / 4096)).space p.addr p (leNat bs) = (z2, .ok ())) :
    w.acceptAtomic q y p =
      some (if p.ackReq then (atomicAnswered z2 q p (leNat bs)).sendAck q else atomicAnswered z2 q p (leNat bs)) := by
  unfold State.acceptAtomic
  dsimp only
  rw [h]
  dsimp only
  rw [hm]
  dsimp only
  rw [ha]
  rfl

end

/-! The receive commands of requests -/

section
variable {w : State} {q : Nat} {y : Qp} {p : TPkt} (h0 : psnSub p.psn y.ctx.epsn = 0) (hc : p.roce = true ∨ p.cid = y.ctx.cid)
include h0 hc

theorem request_send (hk : p.kind = .send) : w.request q y p = w.acceptSend q y p := by
  rw [request_due (by simp [hk]) h0 hc, dueAct, hk]

theorem request_write (hk : p.kind = .write) : w.request q y p = w.acceptWrite q y p := by
  rw [request_due (by simp [hk]) h0 hc, dueAct, hk]

theorem request_readReq (hk : p.kind = .readReq) : w.request q y p = w.acceptRead q y p true := by
  rw [request_due (by simp [hk]) h0 hc, dueAct, hk]

theorem request_atomic (hk : p.kind = .cmpSwap ∨ p.kind = .fetchAdd) : w.request q y p = w.acceptAtomic q y p := by
  rw [request_due (by rcases hk with e | e <;> simp [e]) h0 hc, dueAct]
  rcases hk with e | e <;> rw [e]

end

section
variable {w : State} {q : Nat} {y : Qp} {p : TPkt} (hk : p.kind = .cmpSwap ∨ p.kind = .fetchAdd)
include hk

theorem againAct_forgotten (h : y.ctx.replay.find? (fun r => r.2.1 == p.psn) = none) : againAct w q y p = some w := by
  rcases hk with e | e <;> rw [againAct, e] <;> dsimp only <;> rw [h]

theorem againAct_kept {r : Nat × Nat × Nat} (h : y.ctx.replay.find? (fun r => r.2.1 == p.psn) = some r) :
    againAct w q y p = some (w.answer q { kind := .atomicAck, psn := p.psn, orig := r.2.2 }) := by
  rcases hk with e | e <;> rw [againAct, e] <;> dsimp only <;> rw [h]

end

section
variable {s w : State} {seen : Seen} {x : RxPkt} {xs : List RxPkt} {p : TPkt} {y : Qp} {row : RxRow}
  (ht : TakesPacket (s.see seen) x xs p y w) (hrow : p.row = row) (hreq : p.kind.isRequest = true) (hk : p.kind ≠ .resync)
include ht hrow hreq hk

theorem receiveEff_early_again (h0 : psnSub p.psn y.ctx.epsn ≠ 0) (hlt : psnSub p.psn y.ctx.epsn < 2 ^ 23) (hn : y.ctx.nakSent = true) :
    receiveEff row seen s = w.pktGone x := receiveEff_request ht hrow hreq (request_early_again hk h0 hlt hn)

theorem receiveEff_early (h0 : psnSub p.psn y.ctx.epsn ≠ 0) (hlt : psnSub p.psn y.ctx.epsn < 2 ^ 23) (hn : y.ctx.nakSent = false) :
    receiveEff row seen s =
      (((w.count Reg.KENNEL_NAK_SEQ.COUNT).modQp p.dqpn (fun x => { x with early := true })).nak p.dqpn 0 y.ctx.epsn).pktGone x :=
  receiveEff_request ht hrow hreq (request_early hk h0 hlt hn)

theorem receiveEff_otherCid (h0 : psnSub p.psn y.ctx.epsn = 0) (hr : p.roce = false) (hc : p.cid ≠ y.ctx.cid) :
    receiveEff row seen s = (w.nak p.dqpn 4 p.psn).pktGone x := receiveEff_request ht hrow hreq (request_otherCid hk h0 hr hc)

theorem receiveEff_again {v : State} (h : 2 ^ 23 ≤ psnSub p.psn y.ctx.epsn) (hv : againAct w p.dqpn y p = some v) :
    receiveEff row seen s = v.pktGone x := receiveEff_request ht hrow hreq ((request_again hk h).trans hv)

end

section
variable (s w : State) (seen : Seen) (x : RxPkt) (xs : List RxPkt) (p : TPkt) (y : Qp)

theorem completes_send_byPsn (h : TakesPacket (s.see seen) x xs p y w ∧ p.row = .send) :
    Completes (.sendReceive seen) s fun t =>
      (psnSub p.psn y.ctx.epsn ≠ 0 → psnSub p.psn y.ctx.epsn < 2 ^ 23 → y.ctx.nakSent = true → t = w.pktGone x)
      ∧ (psnSub p.psn y.ctx.epsn ≠ 0 → psnSub p.psn y.ctx.epsn < 2 ^ 23 → y.ctx.nakSent = false →
          t = (((w.count Reg.KENNEL_NAK_SEQ.COUNT).modQp p.dqpn (fun x => { x with early := true })).nak p.dqpn 0 y.ctx.epsn).pktGone x)
      ∧ (psnSub p.psn y.ctx.epsn = 0 → p.roce = false → p.cid ≠ y.ctx.cid → t = (w.nak p.dqpn 4 p.psn).pktGone x)
      ∧ (2 ^ 23 ≤ psnSub p.psn y.ctx.epsn → t = (againAcked w p.dqpn y p (recvToHost w y.ctx)).pktGone x) := by
  obtain ⟨ht, hrow⟩ := h
  have hreq := isRequest_of_row hrow (by decide)
  have hkind := send_of_row hrow
  have hk : p.kind ≠ .resync := by simp [hkind]
  exact ⟨_, rfl, receiveEff_early_again ht hrow hreq hk, receiveEff_early ht hrow hreq hk, receiveEff_otherCid ht hrow hreq hk,
    fun h => receiveEff_again ht hrow hreq hk h (by rw [againAct, hkind])⟩

theorem completes_send_due (h : TakesPacket (s.see seen) x xs p y w ∧ p.row = .send)
    (hdue : psnSub p.psn y.ctx.epsn = 0 ∧ (p.roce = true ∨ p.cid = y.ctx.cid)) :
    Completes (.sendReceive seen) s fun t =>
      (y.recvFail = true → t = ((w.setQp p.dqpn { y with recvFail := false }).nak p.dqpn 7 p.psn).pktGone x)
      ∧ (y.recvFail = false → w.recvEntry? y.ctx = none → t = (w.rnrNak p.dqpn p.psn).pktGone x)
      ∧ (y.recvFail = false → ∀ l, w.recvEntry? y.ctx = some l → l.len < (if p.opens then 0 else y.ctx.msgOffset) + p.payload.length →
          t = ((w.endRecv y.ctx l 0x10 0 p).nak p.dqpn 1 p.psn).pktGone x) := by
  obtain ⟨ht, hrow⟩ := h
  have hgoes := fun {r} hr => receiveEff_request (r := r) ht hrow (isRequest_of_row hrow (by decide))
    ((request_send hdue.1 hdue.2 (send_of_row hrow)).trans hr)
  exact ⟨_, rfl, fun hf => hgoes (acceptSend_failed hf), fun hf hl => hgoes (acceptSend_unready hf hl),
    fun hf l hl hlong => hgoes (acceptSend_long hf hl hlong)⟩

theorem completes_send_placed (z : State) (l : Live) (off : Nat) (r : BufRes Unit) (h : TakesPacket (s.see seen) x xs p y w ∧ p.row = .send)
    (hdue : psnSub p.psn y.ctx.epsn = 0 ∧ (p.roce = true ∨ p.cid = y.ctx.cid) ∧ y.recvFail = false ∧ w.recvEntry? y.ctx = some l
      ∧ off = (if p.opens then 0 else y.ctx.msgOffset) ∧ off + p.payload.length ≤ l.len)
    (hplace : tagRefused w y.ctx p = false ∧ w.bufWrite y.ctx.cid l.buf off p.payload = (z, r)) :
    Completes (.sendReceive seen) s fun t =>
      (r = .err .wait → t = s.see seen)
      ∧ (∀ e, r = .err e → e ≠ .wait → t = (((z.endRecv y.ctx l (if e = .ue then 0x40 else 0x22) 0 p).nak p.dqpn (memNak e) p.psn).qpError p.dqpn
          (if e = .ue then 0x40 else 0x22) p.psn).pktGone x)
      ∧ (r = .ok () → p.closes = true →
          t = (((((z.modQp p.dqpn (fun x => { x with recvFault := false, ctx := { x.ctx with msgOffset := off + p.payload.length } })).accepted p.dqpn 1
            true).oweFlags p.dqpn y.ctx p l.toHost).endRecv y.ctx l 0 (off + p.payload.length) p).oweAck p.dqpn p.ackReq).pktGone x) := by
  obtain ⟨ht, hrow⟩ := h
  obtain ⟨h0, hc, hf, hl, hoff, hfit⟩ := hdue
  have hgoes := fun {r} hr => receiveEff_request (r := r) ht hrow (isRequest_of_row hrow (by decide))
    ((request_send h0 hc (send_of_row hrow)).trans hr)
  obtain ⟨hwait, herr, hok⟩ := acceptSend_placed (q := p.dqpn) hf hl hoff hfit hplace.1 hplace.2
  exact ⟨_, rfl, fun hr => hgoes (hwait hr), fun e hr he => hgoes (herr e hr he), fun hr hcl => hgoes (hok hr hcl)⟩

theorem completes_write_byPsn (h : TakesPacket (s.see seen) x xs p y w ∧ p.row = .write) :
    Completes (.writeReceive seen) s fun t =>
      (psnSub p.psn y.ctx.epsn ≠ 0 → psnSub p.psn y.ctx.epsn < 2 ^ 23 → y.ctx.nakSent = true → t = w.pktGone x)
      ∧ (psnSub p.psn y.ctx.epsn ≠ 0 → psnSub p.psn y.ctx.epsn < 2 ^ 23 → y.ctx.nakSent = false →
          t = (((w.count Reg.KENNEL_NAK_SEQ.COUNT).modQp p.dqpn (fun x => { x with early := true })).nak p.dqpn 0 y.ctx.epsn).pktGone x)
      ∧ (psnSub p.psn y.ctx.epsn = 0 → p.roce = false → p.cid ≠ y.ctx.cid → t = (w.nak p.dqpn 4 p.psn).pktGone x)
      ∧ (2 ^ 23 ≤ psnSub p.psn y.ctx.epsn →
          t = (againAcked w p.dqpn y p ((w.win ((if p.hasRae then p.key else y.ctx.curKey) / 4096)).space == 0)).pktGone x) := by
  obtain ⟨ht, hrow⟩ := h
  have hreq := isRequest_of_row hrow (by decide)
  have hkind := write_of_row hrow
  have hk : p.kind ≠ .resync := by simp [hkind]
  exact ⟨_, rfl, receiveEff_early_again ht hrow hreq hk, receiveEff_early ht hrow hreq hk, receiveEff_otherCid ht hrow hreq hk,
    fun h => receiveEff_again ht hrow hreq hk h (by rw [againAct, hkind])⟩

theorem completes_write_due (key addr len : Nat) (h : TakesPacket (s.see seen) x xs p y w ∧ p.row = .write)
    (hdue : psnSub p.psn y.ctx.epsn = 0 ∧ (p.roce = true ∨ p.cid = y.ctx.cid))
    (hrae : key = (if p.hasRae then p.key else y.ctx.curKey) ∧ addr = (if p.hasRae then p.addr else y.ctx.curAddr)
      ∧ len = (if p.hasRae then p.len else p.payload.length)) :
    Completes (.writeReceive seen) s fun t =>
      (∀ code, w.winCheck y.ctx.cid key .write addr len = some code → t = (w.nak p.dqpn code p.psn).pktGone x)
      ∧ (w.winCheck y.ctx.cid key .write addr len = none → tagRefused w y.ctx p = true → t = (w.nak p.dqpn 2 p.psn).pktGone x)
      ∧ (w.winCheck y.ctx.cid key .write addr len = none → tagRefused w y.ctx p = false → p.imm.isSome = true → w.recvEntry? y.ctx = none →
          t = (w.rnrNak p.dqpn p.psn).pktGone x) := by
  obtain ⟨ht, hrow⟩ := h
  obtain ⟨hkey, haddr, hlen⟩ := hrae
  have hgoes := fun {r} hr => receiveEff_request (r := r) ht hrow (isRequest_of_row hrow (by decide))
    ((request_write hdue.1 hdue.2 (write_of_row hrow)).trans hr)
  exact ⟨_, rfl, fun code hw => hgoes (acceptWrite_refused hkey haddr hlen hw), fun hw htag => hgoes (acceptWrite_badTag hkey haddr hlen hw htag),
    fun hw htag hi hl => hgoes (acceptWrite_unready hkey haddr hlen hw htag hi hl)⟩

theorem completes_write_placed (z : State) (key addr len : Nat) (r : Except MemErr Unit) (h : TakesPacket (s.see seen) x xs p y w ∧ p.row = .write)
    (hdue : psnSub p.psn y.ctx.epsn = 0 ∧ (p.roce = true ∨ p.cid = y.ctx.cid))
    (hrae : key = (if p.hasRae then p.key else y.ctx.curKey) ∧ addr = (if p.hasRae then p.addr else y.ctx.curAddr)
      ∧ len = (if p.hasRae then p.len else p.payload.length))
    (hplace : w.winCheck y.ctx.cid key .write addr len = none ∧ tagRefused w y.ctx p = false ∧ p.imm = none
      ∧ w.memWriteC y.ctx.cid (w.win (key / 4096)).space addr p.payload = (z, r)) :
    Completes (.writeReceive seen) s fun t =>
      (r = .error .wait → t = s.see seen)
      ∧ (∀ e, r = .error e → e ≠ .wait → t = (z.nak p.dqpn (memNak e) p.psn).pktGone x)
      ∧ (r = .ok () → t = ((((((z.inflightUp (key / 4096)).modQp p.dqpn (fun x => { x with
            wlen := (if p.hasRae then 0 else y.wlen) + p.payload.length
            ctx := { x.ctx with curKey := key, curAddr := addr + p.payload.length } })).accepted p.dqpn 1 p.closes).oweFlags p.dqpn y.ctx p
          ((z.win (key / 4096)).space == 0))).oweAck p.dqpn p.ackReq).pktGone x) := by
  obtain ⟨ht, hrow⟩ := h
  obtain ⟨hkey, haddr, hlen⟩ := hrae
  obtain ⟨hwin, htag, hi, hw⟩ := hplace
  have hgoes := fun {r} hr => receiveEff_request (r := r) ht hrow (isRequest_of_row hrow (by decide))
    ((request_write hdue.1 hdue.2 (write_of_row hrow)).trans hr)
  obtain ⟨hwait, herr, hok⟩ := acceptWrite_placed (q := p.dqpn) hkey haddr hlen hwin htag hi hw
  exact ⟨_, rfl, fun hr => hgoes (hwait hr), fun e hr he => hgoes (herr e hr he), fun hr => hgoes (hok hr)⟩

theorem completes_readReq_byPsn (h : TakesPacket (s.see seen) x xs p y w ∧ p.row = .readReq) :
    Completes (.readReqReceive seen) s fun t =>
      (psnSub p.psn y.ctx.epsn ≠ 0 → psnSub p.psn y.ctx.epsn < 2 ^ 23 → y.ctx.nakSent = true → t = w.pktGone x)
      ∧ (psnSub p.psn y.ctx.epsn ≠ 0 → psnSub p.psn y.ctx.epsn < 2 ^ 23 → y.ctx.nakSent = false →
          t = (((w.count Reg.KENNEL_NAK_SEQ.COUNT).modQp p.dqpn (fun x => { x with early := true })).nak p.dqpn 0 y.ctx.epsn).pktGone x)
      ∧ (psnSub p.psn y.ctx.epsn = 0 → p.roce = false → p.cid ≠ y.ctx.cid → t = (w.nak p.dqpn 4 p.psn).pktGone x)
      ∧ (2 ^ 23 ≤ psnSub p.psn y.ctx.epsn → p.roce = false → p.cid ≠ y.ctx.cid → t = (w.nak p.dqpn 4 p.psn).pktGone x) := by
  obtain ⟨ht, hrow⟩ := h
  have hreq := isRequest_of_row hrow (by decide)
  have hkind := readReq_of_row hrow
  have hk : p.kind ≠ .resync := by simp [hkind]
  refine ⟨_, rfl, receiveEff_early_again ht hrow hreq hk, receiveEff_early ht hrow hreq hk, receiveEff_otherCid ht hrow hreq hk, fun h hr hc => ?_⟩
  refine receiveEff_again ht hrow hreq hk h ?_
  rw [againAct, hkind]
  exact if_pos (by simp [hr, hc])

theorem completes_readReq_due (h : TakesPacket (s.see seen) x xs p y w ∧ p.row = .readReq)
    (hdue : psnSub p.psn y.ctx.epsn = 0 ∧ (p.roce = true ∨ p.cid = y.ctx.cid)) :
    Completes (.readReqReceive seen) s fun t =>
      (∀ code, w.winCheck y.ctx.cid p.key .read p.addr p.len = some code → t = (w.nak p.dqpn code p.psn).pktGone x)
      ∧ (w.winCheck y.ctx.cid p.key .read p.addr p.len = none → p.len = 0 → p.ackReq = false →
          t = (((w.inflightUp (p.key / 4096)).accepted p.dqpn 1 true).readResponses p.dqpn p.psn y.ctx.mtu []).pktGone x) := by
  obtain ⟨ht, hrow⟩ := h
  have hgoes := fun {r} hr => receiveEff_request (r := r) ht hrow (isRequest_of_row hrow (by decide))
    ((request_readReq hdue.1 hdue.2 (readReq_of_row hrow)).trans hr)
  exact ⟨_, rfl, fun code hw => hgoes (acceptRead_refused hw true), fun hw h0 ha => hgoes (acceptRead_empty hw h0 ha)⟩

theorem completes_readReq_read (z : State) (r : Except MemErr (List Byte)) (h : TakesPacket (s.see seen) x xs p y w ∧ p.row = .readReq)
    (hdue : psnSub p.psn y.ctx.epsn = 0 ∧ (p.roce = true ∨ p.cid = y.ctx.cid))
    (hread : w.winCheck y.ctx.cid p.key .read p.addr p.len = none ∧ p.len ≠ 0
      ∧ w.memReadC y.ctx.cid (w.win (p.key / 4096)).space p.addr p.len = (z, r)) :
    Completes (.readReqReceive seen) s fun t =>
      (r = .error .wait → t = s.see seen)
      ∧ (∀ e, r = .error e → e ≠ .wait → t = (z.nak p.dqpn (memNak e) p.psn).pktGone x)
      ∧ (∀ bs, r = .ok bs → p.ackReq = false → t = (((z.inflightUp (p.key / 4096)).accepted p.dqpn (max 1 (ceilDiv p.len y.ctx.mtu))
          true).readResponses p.dqpn p.psn y.ctx.mtu bs).pktGone x)
      ∧ (∀ bs, r = .ok bs → p.ackReq = true → t = ((((z.inflightUp (p.key / 4096)).accepted p.dqpn (max 1 (ceilDiv p.len y.ctx.mtu))
          true).readResponses p.dqpn p.psn y.ctx.mtu bs).sendAck p.dqpn).pktGone x) := by
  obtain ⟨ht, hrow⟩ := h
  obtain ⟨hwin, h0, hm⟩ := hread
  have hgoes := fun {r} hr => receiveEff_request (r := r) ht hrow (isRequest_of_row hrow (by decide))
    ((request_readReq hdue.1 hdue.2 (readReq_of_row hrow)).trans hr)
  obtain ⟨hwait, herr, hok⟩ := acceptRead_read (q := p.dqpn) hwin h0 hm
  refine ⟨_, rfl, fun hr => hgoes (hwait hr), fun e hr he => hgoes (herr e hr he), fun bs hr ha => ?_, fun bs hr ha => ?_⟩
  · exact (hgoes (hok bs hr)).trans (by rw [ha]; rfl)
  · exact (hgoes (hok bs hr)).trans (by rw [ha]; rfl)

theorem completes_atomic_byPsn (h : TakesPacket (s.see seen) x xs p y w ∧ p.row = .atomic) :
    Completes (.atomicReceive seen) s fun t =>
      (psnSub p.psn y.ctx.epsn ≠ 0 → psnSub p.psn y.ctx.epsn < 2 ^ 23 → y.ctx.nakSent = true → t = w.pktGone x)
      ∧ (psnSub p.psn y.ctx.epsn ≠ 0 → psnSub p.psn y.ctx.epsn < 2 ^ 23 → y.ctx.nakSent = false →
          t = (((w.count Reg.KENNEL_NAK_SEQ.COUNT).modQp p.dqpn (fun x => { x with early := true })).nak p.dqpn 0 y.ctx.epsn).pktGone x)
      ∧ (psnSub p.psn y.ctx.epsn = 0 → p.roce = false → p.cid ≠ y.ctx.cid → t = (w.nak p.dqpn 4 p.psn).pktGone x)
      ∧ (2 ^ 23 ≤ psnSub p.psn y.ctx.epsn → y.ctx.replay.find? (fun r => r.2.1 == p.psn) = none → t = w.pktGone x)
      ∧ (2 ^ 23 ≤ psnSub p.psn y.ctx.epsn → ∀ r, y.ctx.replay.find? (fun r => r.2.1 == p.psn) = some r →
          t = (w.answer p.dqpn { kind := .atomicAck, psn := p.psn, orig := r.2.2 }).pktGone x) := by
  obtain ⟨ht, hrow⟩ := h
  have hreq := isRequest_of_row hrow (by decide)
  have hk : p.kind ≠ .resync := by rcases atomic_of_row hrow with e | e <;> simp [e]
  exact ⟨_, rfl, receiveEff_early_again ht hrow hreq hk, receiveEff_early ht hrow hreq hk, receiveEff_otherCid ht hrow hreq hk,
    fun h hr => receiveEff_again ht hrow hreq hk h (againAct_forgotten (atomic_of_row hrow) hr),
    fun h r hr => receiveEff_again ht hrow hreq hk h (againAct_kept (atomic_of_row hrow) hr)⟩

theorem completes_atomic_refused (h : TakesPacket (s.see seen) x xs p y w ∧ p.row = .atomic)
    (hdue : psnSub p.psn y.ctx.epsn = 0 ∧ (p.roce = true ∨ p.cid = y.ctx.cid)) :
    Completes (.atomicReceive seen) s fun t =>
      ∀ code, w.winCheck y.ctx.cid p.key .atomic p.addr 8 = some code → t = (w.nak p.dqpn code p.psn).pktGone x := by
  obtain ⟨ht, hrow⟩ := h
  exact ⟨_, rfl, fun code hw => receiveEff_request ht hrow (isRequest_of_row hrow (by decide))
    ((request_atomic hdue.1 hdue.2 (atomic_of_row hrow)).trans (acceptAtomic_refused hw))⟩

theorem completes_atomic_done (z z2 : State) (bs : List Byte) (h : TakesPacket (s.see seen) x xs p y w ∧ p.row = .atomic)
    (hdue : psnSub p.psn y.ctx.epsn = 0 ∧ (p.roce = true ∨ p.cid = y.ctx.cid))
    (hdone : w.winCheck y.ctx.cid p.key .atomic p.addr 8 = none ∧ w.memReadC y.ctx.cid (w.win (p.key / 4096)).space p.addr 8 = (z, .ok bs)
      ∧ z.atomicOn y.ctx (w.win (p.key / 4096)).space p.addr p (leNat bs) = (z2, .ok ())) :
    Completes (.atomicReceive seen) s fun t =>
      (p.ackReq = false → t = (atomicAnswered z2 p.dqpn p (leNat bs)).pktGone x)
      ∧ (p.ackReq = true → t = ((atomicAnswered z2 p.dqpn p (leNat bs)).sendAck p.dqpn).pktGone x) := by
  obtain ⟨ht, hrow⟩ := h
  obtain ⟨hwin, hm, ha⟩ := hdone
  have hgoes := receiveEff_request ht hrow (isRequest_of_row hrow (by decide))
    ((request_atomic hdue.1 hdue.2 (atomic_of_row hrow)).trans (acceptAtomic_done hwin hm ha))
  exact ⟨_, rfl, fun hack => hgoes.trans (by rw [hack]; rfl), fun hack => hgoes.trans (by rw [hack]; rfl)⟩

theorem completes_resync (h : TakesPacket (s.see seen) x xs p y w ∧ p.row = .resync) :
    Completes (.resyncReceive seen) s fun t => t = (w.acceptResync p.dqpn p.psn).pktGone x := by
  obtain ⟨ht, hrow⟩ := h
  exact ⟨_, rfl, receiveEff_request ht hrow (isRequest_of_row hrow (by decide)) (request_resync (resync_of_row hrow))⟩

end

/-- Settles O44, command by command through the lemmas above. -/
theorem requestPackets : Obligations.RequestPackets := by
  unfold Obligations.RequestPackets
  exact ⟨fun s u seen => completes_front (fun _ => rfl) s u, completes_send_byPsn, completes_send_due, completes_send_placed,
    fun s u seen => completes_front (fun _ => rfl) s u, completes_write_byPsn, completes_write_due, completes_write_placed,
    fun s u seen => completes_front (fun _ => rfl) s u, completes_readReq_byPsn, completes_readReq_due, completes_readReq_read,
    fun s u seen => completes_front (fun _ => rfl) s u, completes_atomic_byPsn, completes_atomic_refused, completes_atomic_done,
    fun s u seen => completes_front (fun _ => rfl) s u, completes_resync⟩

end Sys2Proof.Machine.Proofs
end

section
/-! PROOFS. Packets that answer (O45): ACK, NAK, RNR NAK, VIS_ACK, READ responses and ATOMIC_ACK (06 R159 to R164, R170). -/

namespace Sys2Proof.Machine.Proofs

open Laws

/-- An answer that is taken goes to its row. -/
theorem receiveEff_answer {s w : State} {seen : Seen} {x : RxPkt} {xs : List RxPkt} {p : TPkt} {y : Qp} {row : RxRow} {r : Option State}
    (h : TakesPacket (s.see seen) x xs p y w) (hrow : p.row = row) (hr : rowAct w y p = r) : receiveEff row seen s = turnOver (s.see seen) x r := by
  rw [receiveEff_takes h hrow, hr]

section
variable {w : State} {y : Qp} {p : TPkt}

theorem rowAct_ack (h : p.row = .ack) : rowAct w y p = some (w.onAck p.dqpn p.psn) := by rw [rowAct, h]
theorem rowAct_nak (h : p.row = .nak) : rowAct w y p = some (w.onNak p.dqpn p.psn p.valSyn) := by rw [rowAct, h]
theorem rowAct_rnrNak (h : p.row = .rnrNak) : rowAct w y p = some (w.onRnr p.dqpn p.psn) := by rw [rowAct, h]
theorem rowAct_visAck (h : p.row = .visAck) : rowAct w y p = some (w.onVisAck p.dqpn p.psn) := by rw [rowAct, h]
theorem rowAct_readResp (h : p.row = .readResp) : rowAct w y p = w.onReadResp p.dqpn p := by rw [rowAct, h]
theorem rowAct_atomicAck (h : p.row = .atomicAck) : rowAct w y p = w.onAtomicAck p.dqpn p := by rw [rowAct, h]

end

/-! What each answer does -/

section
variable {s : State} {q : Nat} {x : Qp} (h : s.qp? q = some x)
include h

/-- A PSN that lies beyond what was sent, or behind UNA_PSN, acknowledges nothing. -/
theorem ackTo_stale {p : Nat} (hd : psnSub x.ctx.sqPsn x.ctx.unaPsn ≤ psnSub p x.ctx.unaPsn) : s.ackTo q p = s := by
  unfold State.ackTo
  rw [h]
  exact if_pos hd

theorem onAck_stale {p : Nat} (hd : psnSub x.ctx.sqPsn x.ctx.unaPsn ≤ psnSub p x.ctx.unaPsn) (hr : x.ctx.resyncPend = false) : s.onAck q p = s := by
  unfold State.onAck
  dsimp only
  rw [ackTo_stale h hd, h]
  exact if_neg (by simp [hr])

theorem onNak_stale {p : Nat} (code : Nat) (hc : x.ctx.current p = false) : s.onNak q p code = s := by
  unfold State.onNak
  rw [h]
  exact if_pos (by simp [hc])

theorem onRnr_stale {p : Nat} (hc : x.ctx.current p = false) : s.onRnr q p = s.count Reg.KENNEL_RNR.COUNT := by
  unfold State.onRnr
  rw [h]
  exact if_pos (by simp [hc])

theorem finishEntries_empty (hl : s.txLives x.ctx = []) : s.finishEntries q = s.checkDrained q := by
  unfold State.finishEntries
  rw [h]
  dsimp only
  rw [hl]
  rfl

theorem onVisAck_unqueued (p : Nat) (hq : s.queue? x.ctx.sq = none) (hl : s.txLives x.ctx = []) : s.onVisAck q p = s.checkDrained q := by
  unfold State.onVisAck
  rw [h]
  dsimp only
  rw [hq]
  exact finishEntries_empty h hl

variable {t : TPkt}

theorem onReadResp_unheld (hl : s.liveAt x.ctx t.psn = none) : s.onReadResp q t = some s := by
  unfold State.onReadResp
  rw [h]
  dsimp only
  rw [hl]

theorem onReadResp_unasked {l : Live} (hl : s.liveAt x.ctx t.psn = some l) (ha : l.awaits x.ctx ≠ some t.psn ∨ 6 ≤ l.opcode) :
    s.onReadResp q t = some s := by
  unfold State.onReadResp
  rw [h]
  dsimp only
  rw [hl]
  exact if_pos ha

theorem onReadResp_placed {z : State} {l : Live} {r : BufRes Unit} (hl : s.liveAt x.ctx t.psn = some l) (ha : l.awaits x.ctx = some t.psn)
    (hc : l.coll = none) (ho : l.opcode ≤ 5) (hn : (if l.opcode = 5 then min x.ctx.mtu (l.len - l.got) else 0) = t.payload.length)
    (hp : t.payload ≠ []) (hw : s.placeTile x.ctx.cid l.buf l.got t.payload x.ctx.sq l.pos
      { engine := 3, write := true, qpn := some q, unit := homeBank q } = (z, r)) :
    (r = .err .wait → s.onReadResp q t = none)
    ∧ (∀ e, r = .err e → e ≠ .wait → s.onReadResp q t = some (z.failReq q l.pos (if e = .ue then 0x40 else 0x22) t.psn false))
    ∧ (r = .ok () → s.onReadResp q t = some
        ((z.modLive x.ctx.sq l.pos (fun l => { l with ans := l.ans + 1, got := l.got + t.payload.length })).ackTo q t.psn)) := by
  unfold State.onReadResp
  rw [h]
  dsimp only
  rw [hl]
  dsimp only
  rw [if_neg (not_or.mpr ⟨not_not_intro ha, by omega⟩), if_neg (not_not_intro hn), if_neg (by simpa using hp), if_neg (by simp [hc]), hw]
  refine ⟨fun hr => by rw [hr], fun e hr he => ?_, fun hr => by rw [hr]⟩
  cases e with
  | wait => exact absurd rfl he
  | _ => rw [hr]; rfl

theorem onAtomicAck_unheld (hl : s.liveAt x.ctx t.psn = none) : s.onAtomicAck q t = some s := by
  unfold State.onAtomicAck
  rw [h]
  dsimp only
  rw [hl]

theorem onAtomicAck_unasked {l : Live} (hl : s.liveAt x.ctx t.psn = some l) (ha : l.awaits x.ctx ≠ some t.psn ∨ l.opcode < 6) :
    s.onAtomicAck q t = some s := by
  unfold State.onAtomicAck
  rw [h]
  dsimp only
  rw [hl]
  exact if_pos ha

theorem onAtomicAck_placed {z : State} {l : Live} {r : BufRes Unit} (hl : s.liveAt x.ctx t.psn = some l) (ha : l.awaits x.ctx = some t.psn)
    (hc : l.coll = none) (ho : 6 ≤ l.opcode) (hw : s.placeTile x.ctx.cid l.buf 0 (leBytes 8 t.orig) x.ctx.sq l.pos
      { engine := 5, write := true, qpn := some q, unit := homeBank q } = (z, r)) :
    (r = .err .wait → s.onAtomicAck q t = none)
    ∧ (∀ e, r = .err e → e ≠ .wait → s.onAtomicAck q t = some (z.failReq q l.pos (if e = .ue then 0x40 else 0x22) t.psn false))
    ∧ (r = .ok () → s.onAtomicAck q t = some ((z.modLive x.ctx.sq l.pos (fun l => { l with ans := 1 })).ackTo q t.psn)) := by
  unfold State.onAtomicAck
  rw [h]
  dsimp only
  rw [hl]
  dsimp only
  rw [if_neg (not_or.mpr ⟨not_not_intro ha, Nat.not_lt.mpr ho⟩), if_neg (by simp [hc]), hw]
  refine ⟨fun hr => by rw [hr], fun e hr he => ?_, fun hr => by rw [hr]⟩
  cases e with
  | wait => exact absurd rfl he
  | _ => rw [hr]; rfl

end

/-! The receive commands of answers -/

section
variable (s w : State) (seen : Seen) (x : RxPkt) (xs : List RxPkt) (p : TPkt) (y : Qp)

theorem completes_ack (h : TakesPacket (s.see seen) x xs p y w ∧ p.row = .ack) :
    Completes (.ackReceive seen) s fun t =>
      t = (w.onAck p.dqpn p.psn).pktGone x
      ∧ (psnSub y.ctx.sqPsn y.ctx.unaPsn ≤ psnSub p.psn y.ctx.unaPsn → y.ctx.resyncPend = false → t = w.pktGone x) := by
  obtain ⟨ht, hrow⟩ := h
  have hact : receiveEff .ack seen s = (w.onAck p.dqpn p.psn).pktGone x := receiveEff_answer ht hrow (rowAct_ack hrow)
  exact ⟨_, rfl, hact, fun hd hr => hact.trans (congrArg (State.pktGone · x) (onAck_stale (qp?_of_takes ht) hd hr))⟩

theorem completes_nak (h : TakesPacket (s.see seen) x xs p y w ∧ p.row = .nak) :
    Completes (.nakReceive seen) s fun t =>
      t = (w.onNak p.dqpn p.psn p.valSyn).pktGone x ∧ (y.ctx.current p.psn = false → t = w.pktGone x) := by
  obtain ⟨ht, hrow⟩ := h
  have hact : receiveEff .nak seen s = (w.onNak p.dqpn p.psn p.valSyn).pktGone x := receiveEff_answer ht hrow (rowAct_nak hrow)
  exact ⟨_, rfl, hact, fun hc => hact.trans (congrArg (State.pktGone · x) (onNak_stale (qp?_of_takes ht) _ hc))⟩

theorem completes_rnrNak (h : TakesPacket (s.see seen) x xs p y w ∧ p.row = .rnrNak) :
    Completes (.rnrNakReceive seen) s fun t =>
      t = (w.onRnr p.dqpn p.psn).pktGone x ∧ (y.ctx.current p.psn = false → t = (w.count Reg.KENNEL_RNR.COUNT).pktGone x) := by
  obtain ⟨ht, hrow⟩ := h
  have hact : receiveEff .rnrNak seen s = (w.onRnr p.dqpn p.psn).pktGone x := receiveEff_answer ht hrow (rowAct_rnrNak hrow)
  exact ⟨_, rfl, hact, fun hc => hact.trans (congrArg (State.pktGone · x) (onRnr_stale (qp?_of_takes ht) hc))⟩

theorem completes_visAck (h : TakesPacket (s.see seen) x xs p y w ∧ p.row = .visAck) :
    Completes (.visAckReceive seen) s fun t =>
      t = (w.onVisAck p.dqpn p.psn).pktGone x
      ∧ (w.queue? y.ctx.sq = none → w.txLives y.ctx = [] → t = (w.checkDrained p.dqpn).pktGone x) := by
  obtain ⟨ht, hrow⟩ := h
  have hact : receiveEff .visAck seen s = (w.onVisAck p.dqpn p.psn).pktGone x := receiveEff_answer ht hrow (rowAct_visAck hrow)
  exact ⟨_, rfl, hact, fun hq hl => hact.trans (congrArg (State.pktGone · x) (onVisAck_unqueued (qp?_of_takes ht) _ hq hl))⟩

theorem completes_readResp_dropped (h : TakesPacket (s.see seen) x xs p y w ∧ p.row = .readResp) :
    Completes (.readRespReceive seen) s fun t =>
      (w.liveAt y.ctx p.psn = none → t = w.pktGone x)
      ∧ (∀ l, w.liveAt y.ctx p.psn = some l → (l.awaits y.ctx ≠ some p.psn ∨ 6 ≤ l.opcode → t = w.pktGone x)) := by
  obtain ⟨ht, hrow⟩ := h
  have hgoes := fun {r} hr => receiveEff_answer (r := r) ht hrow ((rowAct_readResp hrow).trans hr)
  exact ⟨_, rfl, fun hl => hgoes (onReadResp_unheld (qp?_of_takes ht) hl), fun l hl ha => hgoes (onReadResp_unasked (qp?_of_takes ht) hl ha)⟩

theorem completes_readResp_placed (z : State) (l : Live) (r : BufRes Unit) (h : TakesPacket (s.see seen) x xs p y w ∧ p.row = .readResp)
    (hasked : w.liveAt y.ctx p.psn = some l ∧ l.awaits y.ctx = some p.psn ∧ l.coll = none ∧ l.opcode ≤ 5
      ∧ (if l.opcode = 5 then min y.ctx.mtu (l.len - l.got) else 0) = p.payload.length ∧ p.payload ≠ [])
    (hw : w.placeTile y.ctx.cid l.buf l.got p.payload y.ctx.sq l.pos
      { engine := 3, write := true, qpn := some p.dqpn, unit := homeBank p.dqpn } = (z, r)) :
    Completes (.readRespReceive seen) s fun t =>
      (r = .err .wait → t = s.see seen)
      ∧ (∀ e, r = .err e → e ≠ .wait → t = (z.failReq p.dqpn l.pos (if e = .ue then 0x40 else 0x22) p.psn false).pktGone x)
      ∧ (r = .ok () → t = ((z.modLive y.ctx.sq l.pos (fun l => { l with ans := l.ans + 1, got := l.got + p.payload.length })).ackTo p.dqpn
          p.psn).pktGone x) := by
  obtain ⟨ht, hrow⟩ := h
  obtain ⟨hl, ha, hc, ho, hn, hp⟩ := hasked
  have hgoes := fun {r} hr => receiveEff_answer (r := r) ht hrow ((rowAct_readResp hrow).trans hr)
  obtain ⟨hwait, herr, hok⟩ := onReadResp_placed (qp?_of_takes ht) hl ha hc ho hn hp hw
  exact ⟨_, rfl, fun hr => hgoes (hwait hr), fun e hr he => hgoes (herr e hr he), fun hr => hgoes (hok hr)⟩

theorem completes_atomicAck_dropped (h : TakesPacket (s.see seen) x xs p y w ∧ p.row = .atomicAck) :
    Completes (.atomicAckReceive seen) s fun t =>
      (w.liveAt y.ctx p.psn = none → t = w.pktGone x)
      ∧ (∀ l, w.liveAt y.ctx p.psn = some l → (l.awaits y.ctx ≠ some p.psn ∨ l.opcode < 6 → t = w.pktGone x)) := by
  obtain ⟨ht, hrow⟩ := h
  have hgoes := fun {r} hr => receiveEff_answer (r := r) ht hrow ((rowAct_atomicAck hrow).trans hr)
  exact ⟨_, rfl, fun hl => hgoes (onAtomicAck_unheld (qp?_of_takes ht) hl), fun l hl ha => hgoes (onAtomicAck_unasked (qp?_of_takes ht) hl ha)⟩

theorem completes_atomicAck_placed (z : State) (l : Live) (r : BufRes Unit) (h : TakesPacket (s.see seen) x xs p y w ∧ p.row = .atomicAck)
    (hasked : w.liveAt y.ctx p.psn = some l ∧ l.awaits y.ctx = some p.psn ∧ l.coll = none ∧ 6 ≤ l.opcode)
    (hw : w.placeTile y.ctx.cid l.buf 0 (leBytes 8 p.orig) y.ctx.sq l.pos
      { engine := 5, write := true, qpn := some p.dqpn, unit := homeBank p.dqpn } = (z, r)) :
    Completes (.atomicAckReceive seen) s fun t =>
      (r = .err .wait → t = s.see seen)
      ∧ (∀ e, r = .err e → e ≠ .wait → t = (z.failReq p.dqpn l.pos (if e = .ue then 0x40 else 0x22) p.psn false).pktGone x)
      ∧ (r = .ok () → t = ((z.modLive y.ctx.sq l.pos (fun l => { l with ans := 1 })).ackTo p.dqpn p.psn).pktGone x) := by
  obtain ⟨ht, hrow⟩ := h
  obtain ⟨hl, ha, hc, ho⟩ := hasked
  have hgoes := fun {r} hr => receiveEff_answer (r := r) ht hrow ((rowAct_atomicAck hrow).trans hr)
  obtain ⟨hwait, herr, hok⟩ := onAtomicAck_placed (qp?_of_takes ht) hl ha hc ho hw
  exact ⟨_, rfl, fun hr => hgoes (hwait hr), fun e hr he => hgoes (herr e hr he), fun hr => hgoes (hok hr)⟩

end

/-- Settles O45, command by command through the lemmas above. -/
theorem answerPackets : Obligations.AnswerPackets := by
  unfold Obligations.AnswerPackets
  exact ⟨fun s u seen => completes_front (fun _ => rfl) s u, completes_ack, fun s u seen => completes_front (fun _ => rfl) s u, completes_nak,
    fun s u seen => completes_front (fun _ => rfl) s u, completes_rnrNak, fun s u seen => completes_front (fun _ => rfl) s u, completes_visAck,
    fun s u seen => completes_front (fun _ => rfl) s u, completes_readResp_dropped, completes_readResp_placed,
    fun s u seen => completes_front (fun _ => rfl) s u, completes_atomicAck_dropped, completes_atomicAck_placed⟩

end Sys2Proof.Machine.Proofs
end

section
/-! PROOFS. Timers, fetch ends, visibility, path holds and tagged increments (O46; 06 R148, R152, R159 to R162, R167, 07 R202, 08 R239). -/

namespace Sys2Proof.Machine.Proofs

open Laws

/-- A job waits for a context out of its bank while the command sees the hosts' memories. -/
theorem jobWaits_see (s : State) (seen : Seen) (q : Nat) (j : CtxJob) :
    jobWaits (s.see seen) q j = { s.see seen with kennel := withJob s.kennel q j } := by
  unfold jobWaits
  rw [see_kennel]

/-! The retransmission timer -/

section
variable {s : State} {q : Nat} {y : Qp} (h : s.qp? q = some y)
include h

theorem retransmitTimeoutEff_idle (seen : Seen) (ht : y.ctx.timer = 0) : retransmitTimeoutEff q seen s = s := by
  unfold retransmitTimeoutEff
  rw [h]
  exact if_pos ht

theorem retransmitTimeoutEff_runs (seen : Seen) (ht : y.ctx.timer ≠ 0) :
    retransmitTimeoutEff q seen s = (s.see seen).whenIn q .timeout (fun s => s.timerOut q) := by
  unfold retransmitTimeoutEff
  rw [h]
  exact if_neg ht

theorem timerOut_silent (hs : y.sends = false) : s.timerOut q = s := by
  unfold State.timerOut
  rw [h]
  exact if_neg (by simp [hs])

theorem timerOut_sends (ht : y.ctx.timer ≠ 0) (hs : y.sends = true) : s.timerOut q = s.goBack q := by
  unfold State.timerOut
  rw [h]
  exact if_pos ⟨ht, hs⟩

theorem goBack_held (hh : s.held.any (fun e => e.1 == q) = true) : s.goBack q = s := by
  unfold State.goBack
  rw [h]
  exact if_pos hh

theorem goBack_exhausted (hh : s.held.any (fun e => e.1 == q) = false) (hr : y.ctx.retryLeft = 0) : s.goBack q = s.failOldest q 0x30 := by
  unfold State.goBack
  rw [h]
  exact (if_neg ((Bool.not_eq_true _).mpr hh)).trans (if_pos hr)

theorem goBack_resends (hh : s.held.any (fun e => e.1 == q) = false) (hr : y.ctx.retryLeft ≠ 0) :
    s.goBack q = (s.modCtx q (fun c => { c with retryLeft := c.retryLeft - 1 })).resend q y.ctx.unaPsn := by
  unfold State.goBack
  rw [h]
  exact (if_neg ((Bool.not_eq_true _).mpr hh)).trans (if_neg hr)

end

theorem retransmitTimeoutEff_none {s : State} {q : Nat} (seen : Seen) (h : s.qp? q = none) : retransmitTimeoutEff q seen s = s := by
  unfold retransmitTimeoutEff
  rw [h]

theorem completes_retransmitTimeout (s : State) (q : BitVec 24) (seen : Seen) :
    Completes (.retransmitTimeout q seen) s fun t =>
      (s.qp? q.toNat = none → t = s)
      ∧ (∀ y, s.qp? q.toNat = some y → (y.ctx.timer = 0 → t = s)
          ∧ (y.ctx.timer ≠ 0 → y.resident = true → t = ((s.see seen).checkCtx q.toNat).timerOut q.toNat)
          ∧ (y.ctx.timer ≠ 0 → y.place = .victim → t = ((s.see seen).fetchIn q.toNat).timerOut q.toNat)
          ∧ (y.ctx.timer ≠ 0 → y.place = .spilled → t = ({ s.see seen with kennel := withJob s.kennel q.toNat .timeout } : State).miss q.toNat)
          ∧ (y.ctx.timer ≠ 0 → y.resident = true → s.kennel.bad.contains q.toNat = false → s.poisoned = [] → seen = [] →
              (y.sends = false → t = s)
              ∧ (y.sends = true → s.held.any (fun h => h.1 == q.toNat) = true → t = s)
              ∧ (y.sends = true → s.held.any (fun h => h.1 == q.toNat) = false → y.ctx.retryLeft = 0 → t = s.failOldest q.toNat 0x30)
              ∧ (y.sends = true → s.held.any (fun h => h.1 == q.toNat) = false → y.ctx.retryLeft ≠ 0 →
                  t = (s.modCtx q.toNat (fun c => { c with retryLeft := c.retryLeft - 1 })).resend q.toNat y.ctx.unaPsn)))
      ∧ TrafficOnly s t := by
  refine ⟨retransmitTimeoutEff q.toNat seen s, rfl, retransmitTimeoutEff_none seen, fun y hy => ?_,
    trafficOnly_of_same (retransmitTimeoutEff_same ..) (by decide)⟩
  have hseen : (s.see seen).qp? q.toNat = some y := (qp?_see ..).trans hy
  have hruns := retransmitTimeoutEff_runs hy seen
  refine ⟨retransmitTimeoutEff_idle hy seen, fun ht hr => (hruns ht).trans (whenIn_resident _ _ hseen hr),
    fun ht hv => (hruns ht).trans (whenIn_victim _ _ hseen hv), fun ht hp => ?_, fun ht hr hb hpoison hnil => ?_⟩
  · rw [hruns ht, whenIn_spilled _ _ hseen hp, jobWaits_see]
  · have hout : retransmitTimeoutEff q.toNat seen s = s.timerOut q.toNat := by
      rw [hruns ht, hnil, see_nil hpoison, whenIn_readable _ _ hy hr hb]
    rw [hout]
    refine ⟨timerOut_silent hy, fun hs hh => ?_, fun hs hh h0 => ?_, fun hs hh h0 => ?_⟩ <;> rw [timerOut_sends hy ht hs]
    · exact goBack_held hy hh
    · exact goBack_exhausted hy hh h0
    · exact goBack_resends hy hh h0

/-! The RNR wait -/

section
variable {s : State} {q : Nat} {y : Qp} (h : s.qp? q = some y)
include h

theorem rnrExpiryEff_idle (seen : Seen) (hr : y.rnr = none) : rnrExpiryEff q seen s = s := by
  unfold rnrExpiryEff
  rw [h]
  exact if_pos (by simp [hr])

theorem rnrExpiryEff_runs (seen : Seen) (hr : y.rnr ≠ none) :
    rnrExpiryEff q seen s = (s.see seen).whenIn q .rnr (fun s => s.rnrOut q) := by
  unfold rnrExpiryEff
  rw [h]
  exact if_neg (by simpa using hr)

variable {p : Nat} (hp : y.rnr = some p)
include hp

theorem rnrOut_held (hh : s.held.any (fun e => e.1 == q) = true) : s.rnrOut q = s.modQp q (fun x => { x with rnr := none }) := by
  have hheld : (s.modQp q (fun x => { x with rnr := none })).held = s.held := (modQp_same ..).held rfl
  unfold State.rnrOut
  rw [h]
  dsimp only
  rw [hp]
  exact if_pos (by rw [hheld]; exact hh)

theorem rnrOut_resends (hh : s.held.any (fun e => e.1 == q) = false) :
    s.rnrOut q = ((s.modQp q (fun x => { x with rnr := none })).resend q p).pump q := by
  have hheld : (s.modQp q (fun x => { x with rnr := none })).held = s.held := (modQp_same ..).held rfl
  unfold State.rnrOut
  rw [h]
  dsimp only
  rw [hp]
  exact if_neg (by rw [hheld]; exact (Bool.not_eq_true _).mpr hh)

end

theorem rnrExpiryEff_none {s : State} {q : Nat} (seen : Seen) (h : s.qp? q = none) : rnrExpiryEff q seen s = s := by
  unfold rnrExpiryEff
  rw [h]

theorem completes_rnrWaitExpiry (s : State) (q : BitVec 24) (seen : Seen) :
    Completes (.rnrWaitExpiry q seen) s fun t =>
      (s.qp? q.toNat = none → t = s)
      ∧ (∀ y, s.qp? q.toNat = some y → (y.rnr = none → t = s)
          ∧ (y.rnr ≠ none → y.resident = true → t = ((s.see seen).checkCtx q.toNat).rnrOut q.toNat)
          ∧ (y.rnr ≠ none → y.place = .spilled → t = ({ s.see seen with kennel := withJob s.kennel q.toNat .rnr } : State).miss q.toNat)
          ∧ (y.resident = true → s.kennel.bad.contains q.toNat = false → s.poisoned = [] → seen = [] → ∀ p, y.rnr = some p →
              (s.held.any (fun h => h.1 == q.toNat) = true →
                t = s.modQp q.toNat (fun x => { x with rnr := none }) ∧ (t.qp? q.toNat).map (·.rnr) = some none)
              ∧ (s.held.any (fun h => h.1 == q.toNat) = false →
                t = ((s.modQp q.toNat (fun x => { x with rnr := none })).resend q.toNat p).pump q.toNat)))
      ∧ TrafficOnly s t := by
  refine ⟨rnrExpiryEff q.toNat seen s, rfl, rnrExpiryEff_none seen, fun y hy => ?_, trafficOnly_of_same (rnrExpiryEff_same ..) (by decide)⟩
  have hseen : (s.see seen).qp? q.toNat = some y := (qp?_see ..).trans hy
  have hruns := rnrExpiryEff_runs hy seen
  refine ⟨rnrExpiryEff_idle hy seen, fun hw hr => (hruns hw).trans (whenIn_resident _ _ hseen hr), fun hw hp => ?_, fun hr hb hpoison hnil p hp => ?_⟩
  · rw [hruns hw, whenIn_spilled _ _ hseen hp, jobWaits_see]
  · have hout : rnrExpiryEff q.toNat seen s = s.rnrOut q.toNat := by
      rw [hruns (by simp [hp]), hnil, see_nil hpoison, whenIn_readable _ _ hy hr hb]
    rw [hout]
    refine ⟨fun hh => ⟨rnrOut_held hy hp hh, ?_⟩, rnrOut_resends hy hp⟩
    rw [rnrOut_held hy hp hh, qp?_modQp_self, hy]
    rfl

/-! The ACK delay -/

section
variable {s : State} {q : Nat} {y : Qp} (h : s.qp? q = some y)
include h

theorem ackDelayEff_idle (hi : y.ctx.ackPend = 0 ∨ y.ctx.state < 2 ∨ 5 < y.ctx.state) : ackDelayEff q s = s := by
  unfold ackDelayEff
  rw [h]
  exact if_neg (by omega)

variable (ha : y.ctx.ackPend ≠ 0) (h2 : 2 ≤ y.ctx.state) (h5 : y.ctx.state ≤ 5)
include ha h2 h5

theorem ackDelayEff_due : ackDelayEff q s = s.whenIn q .ackDelay (fun s => s.ackDelayOut q) := by
  unfold ackDelayEff
  rw [h]
  exact if_pos ⟨ha, h2, h5⟩

theorem ackDelayOut_due : s.ackDelayOut q = s.sendAck q := by
  unfold State.ackDelayOut
  rw [h]
  exact if_pos ⟨ha, h2, h5⟩

end

theorem ackDelayEff_none {s : State} {q : Nat} (h : s.qp? q = none) : ackDelayEff q s = s := by
  unfold ackDelayEff
  rw [h]

theorem sendAck_early {s : State} {q : Nat} {y : Qp} (h : s.qp? q = some y) (he : y.early = true) : s.sendAck q = s := by
  unfold State.sendAck
  rw [h]
  exact if_pos he

theorem sendAck_answers {s : State} {q : Nat} {y : Qp} (h : s.qp? q = some y) (he : y.early = false) :
    s.sendAck q = (s.modCtx q (fun c => { c with ackPend := 0, ackT0 := 0 })).answer q { kind := .ack, psn := psnAdd y.ctx.epsn (2 ^ 24 - 1) } := by
  unfold State.sendAck
  rw [h]
  exact if_neg ((Bool.not_eq_true _).mpr he)

theorem completes_ackDelayExpiry (s : State) (q : BitVec 24) :
    Completes (.ackDelayExpiry q) s fun t =>
      (s.qp? q.toNat = none → t = s)
      ∧ (∀ y, s.qp? q.toNat = some y → (y.ctx.ackPend = 0 ∨ y.ctx.state < 2 ∨ 5 < y.ctx.state → t = s)
          ∧ (y.ctx.ackPend ≠ 0 → 2 ≤ y.ctx.state → y.ctx.state ≤ 5 →
              (y.place = .spilled → t = (jobWaits s q.toNat .ackDelay).miss q.toNat)
              ∧ (y.resident = true → s.kennel.bad.contains q.toNat = false →
                  (y.early = true → t = s)
                  ∧ (y.early = false → t = (s.modCtx q.toNat (fun c => { c with ackPend := 0, ackT0 := 0 })).answer q.toNat
                      { kind := .ack, psn := psnAdd y.ctx.epsn (2 ^ 24 - 1) }))))
      ∧ TrafficOnly s t := by
  refine ⟨ackDelayEff q.toNat s, rfl, ackDelayEff_none, fun y hy => ⟨ackDelayEff_idle hy, fun ha h2 h5 => ?_⟩,
    trafficOnly_of_same (ackDelayEff_same ..) (by decide)⟩
  rw [ackDelayEff_due hy ha h2 h5]
  refine ⟨whenIn_spilled _ _ hy, fun hr hb => ?_⟩
  rw [whenIn_readable _ _ hy hr hb, ackDelayOut_due hy ha h2 h5]
  exact ⟨sendAck_early hy, sendAck_answers hy⟩

/-! Visibility -/

section
variable {s : State} {q psn : Nat} {y : Qp} (h : s.qp? q = some y)
include h

theorem visPacketEff_unowed (hv : y.vis.find? (fun v => v.1 == psn) = none ∨ y.ctx.state = 7) : visPacketEff q psn s = s := by
  unfold visPacketEff
  rw [h]
  dsimp only
  split
  · rename_i e
    exact if_pos (.inl (hv.resolve_left (by simp [e])))
  · rfl

variable {v : Nat × Bool} (hv : y.vis.find? (fun v => v.1 == psn) = some v)
include hv

theorem visPacketEff_closed (hh : v.2 = true) (ho : s.hostServes (s.owner (cidPart y.ctx.cid)) = false) : visPacketEff q psn s = s := by
  unfold visPacketEff
  rw [h]
  dsimp only
  rw [hv]
  exact if_pos (.inr ⟨hh, ho⟩)

theorem visPacketEff_visible (ho : v.2 = false ∨ s.hostServes (s.owner (cidPart y.ctx.cid)) = true) (h7 : y.ctx.state ≠ 7) :
    visPacketEff q psn s = s.whenIn q (.visible psn) (fun s => s.visOut q psn) := by
  unfold visPacketEff
  rw [h]
  dsimp only
  rw [hv]
  refine if_neg ?_
  rcases ho with ho | ho <;> simp [ho, h7]

theorem visOut_answers (h7 : y.ctx.state ≠ 7) :
    s.visOut q psn = (s.setQp q { y with vis := y.vis.filter (fun v => v.1 != psn) }).answer q { kind := .visAck, psn := psn } := by
  unfold State.visOut
  rw [h]
  exact if_pos ⟨h7, List.any_eq_true.mpr ⟨v, List.mem_of_find?_eq_some hv, List.find?_some (p := fun v : Nat × Bool => v.1 == psn) hv⟩⟩

end

theorem visPacketEff_none {s : State} {q : Nat} (psn : Nat) (h : s.qp? q = none) : visPacketEff q psn s = s := by
  unfold visPacketEff
  rw [h]

theorem completes_visibilityReached_pair (s : State) (q : BitVec 24) (psn : Nat) :
    Completes (.visibilityReached (.pair q) psn) s fun t =>
      (s.qp? q.toNat = none → t = s)
      ∧ (∀ y, s.qp? q.toNat = some y → (y.vis.find? (fun v => v.1 == psn) = none ∨ y.ctx.state = 7 → t = s)
          ∧ (∀ v, y.vis.find? (fun v => v.1 == psn) = some v → (v.2 = true → s.hostServes (s.owner (cidPart y.ctx.cid)) = false → t = s)
              ∧ (v.2 = false ∨ s.hostServes (s.owner (cidPart y.ctx.cid)) = true → y.ctx.state ≠ 7 → y.resident = true →
                  s.kennel.bad.contains q.toNat = false →
                  t = (s.setQp q.toNat { y with vis := y.vis.filter (fun v => v.1 != psn) }).answer q.toNat { kind := .visAck, psn := psn })))
      ∧ TrafficOnly s t := by
  refine ⟨visPacketEff q.toNat psn s, rfl, visPacketEff_none psn, fun y hy => ⟨visPacketEff_unowed hy, fun v hv => ⟨visPacketEff_closed hy hv, ?_⟩⟩,
    trafficOnly_of_same (visPacketEff_same ..) (by decide)⟩
  intro ho h7 hr hb
  rw [visPacketEff_visible hy hv ho h7, whenIn_readable _ _ hy hr hb]
  exact visOut_answers hy hv h7

theorem completes_visibilityReached_queue (s : State) (n : BitVec 20) (pos : Nat) :
    Completes (.visibilityReached (.queue n) pos) s fun t =>
      (s.queue? n.toNat = none → t = s)
      ∧ (∀ w, s.queue? n.toNat = some w →
          (w.live.any (fun l => l.pos == pos && l.back) = false ∨ s.hostServes (s.owner (cidPart w.cid)) = false → t = s)
          ∧ (w.live.any (fun l => l.pos == pos && l.back) = true → s.hostServes (s.owner (cidPart w.cid)) = true →
              t = (s.modLive n.toNat pos (fun l => { l with back := false })).flushQueue n.toNat w.live.length))
      ∧ TrafficOnly s t := by
  refine ⟨visEntryEff n.toNat pos s, rfl, fun hn => ?_, fun w hw => ?_, trafficOnly_of_same (visEntryEff_same ..) (by decide)⟩ <;> unfold visEntryEff
  · rw [hn]
  · rw [hw]
    exact ⟨fun hno => if_neg (by rcases hno with hno | hno <;> simp [hno]), fun hl hh => if_pos (by rw [hl, hh]; rfl)⟩

/-! The path hold -/

theorem completes_pathHoldExpiry (s : State) (q : BitVec 24) :
    Completes (.pathHoldExpiry q) s fun t =>
      (s.held.at? q.toNat = none ∨ s.qp? q.toNat = none → t = s)
      ∧ (∀ f, s.held.at? q.toNat = some f → ∀ y, s.qp? q.toNat = some y →
          (y.ctx.state = 7 → t.held = s.held.del q.toNat ∧ t = { s with held := t.held })
          ∧ (y.ctx.state ≠ 7 → t = (((({ s with held := s.held.del q.toNat } : State).txLives y.ctx).foldl
              (fun (s : State) (l : Live) => if l.acked then s else s.endEntry y.ctx.sq l.pos (if f then 0x32 else 0x31))
              { s with held := s.held.del q.toNat }).qpError q.toNat (if f then 0x32 else 0x31) y.ctx.unaPsn)))
      ∧ TrafficOnly s t := by
  refine ⟨pathHoldExpiryEff q.toNat s, rfl, fun hno => ?_, fun f hf y hy => ?_, trafficOnly_of_same (pathHoldExpiryEff_same ..) (by decide)⟩
  · unfold pathHoldExpiryEff
    split
    · rename_i hf hy
      rcases hno with hno | hno
      · rw [hno] at hf; cases hf
      · rw [hno] at hy; cases hy
    · rfl
  · unfold pathHoldExpiryEff
    rw [hf, hy]
    refine ⟨fun h7 => ?_, fun h7 => if_neg h7⟩
    dsimp only
    rw [if_pos h7]
    exact ⟨rfl, rfl⟩

/-! Tagged increments -/

theorem trigIncrementEff_none {s : State} (h : s.trigMayCount = []) : trigIncrementEff s = s := by
  unfold trigIncrementEff
  rw [h]

theorem getD_mod_mem {l : List Nat} (h : l ≠ []) (k d : Nat) : l.getD (k % l.length) d ∈ l := by
  have hlt : k % l.length < l.length := Nat.mod_lt _ (List.length_pos_iff.mpr h)
  rw [List.getD_eq_getElem _ _ hlt]
  exact List.getElem_mem hlt

theorem trigIncrementEff_counts {s : State} (h : s.trigMayCount ≠ []) : ∃ i ∈ s.trigMayCount, trigIncrementEff s = (s.trigCounts i).fresh := by
  unfold trigIncrementEff
  cases he : s.trigMayCount with
  | nil => exact absurd he h
  | cons i is => exact ⟨_, getD_mod_mem (List.cons_ne_nil i is) _ i, rfl⟩

/-- The state in which a tagged message no longer waits to be counted. -/
def trigTaken (s : State) (i : Nat) : State := { s with trigPend := s.trigPend.eraseIdx i }

theorem trigIncrementEff_single {s : State} {i : Nat} {x : TrigPend} (h : s.trigMayCount = [i]) (hx : s.trigPend[i]? = some x) :
    trigIncrementEff s = ((trigTaken s i).trigInc x.part x.slot x.gen).fresh := by
  obtain ⟨j, hj, heq⟩ := trigIncrementEff_counts (s := s) (by simp [h])
  obtain rfl : j = i := by simpa [h] using hj
  rw [heq, State.trigCounts, hx]
  rfl

theorem trigInc_current {s : State} {p i gen : Nat} (hof : s.trigOf p i = true) (hgen : (s.trig i).gen = gen) :
    s.trigInc p i gen = s.setTrig i { s.trig i with count := min ((s.trig i).count + 1) 0xFFFFFF } :=
  if_pos (by simp [hof, hgen])

theorem trigInc_stale {s : State} {p i gen : Nat} (h : s.trigOf p i = false ∨ (s.trig i).gen ≠ gen) :
    s.trigInc p i gen = s.count (Reg.TRIG_STALE.COUNT p) :=
  if_neg (by rcases h with h | h <;> simp [h])

theorem trig_setTrig_self (s : State) (i : Nat) (x : TrigSlot) : (s.setTrig i x).trig i = x := Sparse.getD_putD_self ..

theorem fieldOk_trigStale (p : Nat) : FieldOk (Reg.TRIG_STALE.COUNT p) := (by decide : 0 + 32 ≤ 32)

theorem completes_trigIncrement (s : State) :
    Completes (.trigIncrement) s fun t =>
      (s.trigMayCount = [] → t = s) ∧ (s.trigMayCount ≠ [] → ∃ i ∈ s.trigMayCount, t = (s.trigCounts i).fresh) :=
  ⟨trigIncrementEff s, rfl, trigIncrementEff_none, trigIncrementEff_counts⟩

theorem completes_trigIncrement_single (s : State) (i : Nat) (x : TrigPend) (h : s.trigMayCount = [i] ∧ s.trigPend[i]? = some x) :
    Completes (.trigIncrement) s fun t =>
      t.trigPend = s.trigPend.eraseIdx i ∧ t.freeCtr = s.freeCtr + 1
      ∧ (s.trigOf x.part x.slot = true → (s.trig x.slot).gen = x.gen →
          t.trig x.slot = { s.trig x.slot with count := min ((s.trig x.slot).count + 1) 0xFFFFFF }
          ∧ t = { s with trigs := t.trigs, trigPend := t.trigPend, freeCtr := t.freeCtr })
      ∧ (s.trigOf x.part x.slot = false ∨ (s.trig x.slot).gen ≠ x.gen →
          t.get (Reg.TRIG_STALE.COUNT x.part) = min (s.get (Reg.TRIG_STALE.COUNT x.part) + 1) 4294967295
          ∧ FieldsBut [Reg.TRIG_STALE.COUNT x.part] s t ∧ t = { s with regs := t.regs, trigPend := t.trigPend, freeCtr := t.freeCtr }) := by
  refine ⟨trigIncrementEff s, rfl, ?_⟩
  rw [trigIncrementEff_single h.1 h.2]
  refine ⟨(trigInc_same (trigTaken s i) ..).trigPend rfl, congrArg (· + 1) ((trigInc_same (trigTaken s i) ..).freeCtr rfl), fun hof hgen => ?_,
    fun hstale => ?_⟩
  · rw [trigInc_current (s := trigTaken s i) hof hgen]
    exact ⟨trig_setTrig_self (trigTaken s i) _ _, rfl⟩
  · rw [trigInc_stale (s := trigTaken s i) hstale]
    exact ⟨get_count_self (trigTaken s i) _ 1 (fieldOk_trigStale _),
      fieldsBut_count (t := trigTaken s i) _ 1 (fieldsBut_refl _ s) (fieldOk_trigStale _) (List.mem_singleton_self _), rfl⟩

/-! The end of a fetch -/

/-- The jobs that wait for a context run, in their order. -/
def jobsRun (u : State) (q : Nat) : State :=
  (u.kennel.jobs.filter (fun j => j.1 == q)).foldl (fun s j => s.runJob q j.2)
    { u with kennel := { u.kennel with jobs := u.kennel.jobs.filter (fun j => j.1 != q) } }

theorem jobsRun_none {u : State} (q : Nat) (h : u.kennel.jobs = []) : jobsRun u q = u := by
  unfold jobsRun
  rw [h, List.filter_nil, List.filter_nil, List.foldl_nil, ← h]

theorem fetchDoneEff_waits {s : State} {q : Nat} (seen : Seen) (h : s.fetchReady q = false) : fetchDoneEff q seen s = s :=
  if_pos (by simp [h])

theorem fetchDoneEff_ready {s : State} {q : Nat} (seen : Seen) (h : s.fetchReady q = true) :
    fetchDoneEff q seen s = jobsRun (((s.see seen).fetchDone q).unmiss q) q := if_neg (by simp [h])

theorem completes_retrieverFetchDone (s u : State) (q : BitVec 24) (seen : Seen) (hu : u = ((s.see seen).fetchDone q.toNat).unmiss q.toNat) :
    Completes (.retrieverFetchDone q seen) s fun t =>
      (s.fetchReady q.toNat = false → t = s)
      ∧ (s.fetchReady q.toNat = true → t = jobsRun u q.toNat)
      ∧ (s.fetchReady q.toNat = true → s.kennel.jobs = [] → u.kennel.jobs = [] → t = u)
      ∧ TrafficOnly s t := by
  subst hu
  exact ⟨fetchDoneEff q.toNat seen s, rfl, fetchDoneEff_waits seen, fetchDoneEff_ready seen,
    fun hready _ hjobs => (fetchDoneEff_ready seen hready).trans (jobsRun_none _ hjobs), trafficOnly_of_same (fetchDoneEff_same ..) (by decide)⟩

/-- Settles O46, command by command through the lemmas above. -/
theorem pairTimersAndVisibility : Obligations.PairTimersAndVisibility := by
  unfold Obligations.PairTimersAndVisibility
  exact ⟨completes_retransmitTimeout, completes_rnrWaitExpiry, completes_ackDelayExpiry, completes_visibilityReached_pair,
    completes_visibilityReached_queue, completes_pathHoldExpiry, completes_trigIncrement, completes_trigIncrement_single,
    completes_retrieverFetchDone⟩

end Sys2Proof.Machine.Proofs
end

section
/-! PROOFS. The KENNEL commands (O32; 06 R147, R151, R152, R172, Table 6.1): the word written, the end of a command, and what each command does. -/

namespace Sys2Proof.Machine.Proofs

open Laws

/-! The word written -/

theorem toNat_kennelWord {op : Nat} (hop : op < 8) (q : BitVec 24) : (kennelWord op q).toNat = 2 ^ 31 + op * 2 ^ 24 + q.toNat := by
  have hq : q.toNat < 2 ^ 24 := q.isLt
  unfold kennelWord
  rw [BitVec.toNat_ofNat]
  omega

theorem kennelWord_qpn {op : Nat} (hop : op < 8) (q : BitVec 24) : wordField (kennelWord op q) 0 24 = q.toNat := by
  have hq : q.toNat < 2 ^ 24 := q.isLt
  rw [wordField_eq_bits, toNat_kennelWord hop]
  omega

theorem kennelWord_op {op : Nat} (hop : op < 8) (q : BitVec 24) : wordField (kennelWord op q) 24 3 = op := by
  have hq : q.toNat < 2 ^ 24 := q.isLt
  rw [wordField_eq_bits, toNat_kennelWord hop]
  omega

theorem kennelWord_go {op : Nat} (hop : op < 8) (q : BitVec 24) : wordField (kennelWord op q) 31 1 = 1 := by
  have hq : q.toNat < 2 ^ 24 := q.isLt
  rw [wordField_eq_bits, toNat_kennelWord hop]
  omega

/-! The registers of a command, and what is no part of them -/

theorem fieldOk_kcmdQpn (h : Nat) : FieldOk (Reg.KENNEL_CMD.QPN h) := (by decide : 0 + 24 ≤ 32)

theorem fieldOk_kcmdOp (h : Nat) : FieldOk (Reg.KENNEL_CMD.OP h) := (by decide : 24 + 3 ≤ 32)

theorem fieldOk_kcmdBusy (h : Nat) : FieldOk (Reg.KENNEL_CMD_STS.BUSY h) := (by decide : 0 + 1 ≤ 32)

theorem fieldOk_kcmdDone (h : Nat) : FieldOk (Reg.KENNEL_CMD_STS.DONE h) := (by decide : 1 + 1 ≤ 32)

theorem fieldOk_kcmdResult (h : Nat) : FieldOk (Reg.KENNEL_CMD_STS.RESULT h) := (by decide : 4 + 4 ≤ 32)

theorem kcmdSts_off_mem (h : HostId) : 0x400108 ≤ Reg.KENNEL_CMD_STS.off h ∧ Reg.KENNEL_CMD_STS.off h < 0x700000 := by
  unfold Reg.KENNEL_CMD_STS.off
  omega

/-- The end of a command shows its result. -/
theorem get_kcmdEnd_result (s : State) (h : HostId) {r : Nat} (hr : r < 16) : (s.kcmdEnd h r).get (Reg.KENNEL_CMD_STS.RESULT h) = r := by
  unfold State.kcmdEnd
  rw [(keepsRegs_vector _ _ _).get (Nat.zero_le _) (kcmdSts_off_mem h).2]
  exact get_put_fits _ _ _ (fieldOk_kcmdResult h) hr

theorem get_kcmdEnd_done (s : State) (h : HostId) (r : Nat) : (s.kcmdEnd h r).get (Reg.KENNEL_CMD_STS.DONE h) = 1 := by
  unfold State.kcmdEnd
  rw [(keepsRegs_vector _ _ _).get (Nat.zero_le _) (kcmdSts_off_mem h).2,
    get_put_disjoint _ _ _ _ (fieldOk_kcmdResult h) (fieldOk_kcmdDone h) (.inr (.inr (by decide : 1 + 1 ≤ 4)))]
  exact get_put_fits _ _ _ (fieldOk_kcmdDone h) (by decide : 1 < 2 ^ 1)

/-- The end of a command leaves the registers below its own alone. -/
theorem keepsRegs_kcmdEnd (s : State) (h : HostId) (r : Nat) : KeepsRegs 0 0x400108 s (s.kcmdEnd h r) := by
  have hsts : 0x400108 ≤ Reg.KENNEL_CMD_STS.off h := (kcmdSts_off_mem h).1
  unfold State.kcmdEnd
  exact ((((keepsRegs_refl _ _ s).put (Reg.KENNEL_CMD_STS.BUSY h) 0 (.inr hsts)).put (Reg.KENNEL_CMD_STS.DONE h) 1 (.inr hsts)).put
    (Reg.KENNEL_CMD_STS.RESULT h) r (.inr hsts)).trans ((keepsRegs_vector _ _ _).mono (Nat.le_refl _) (by decide))

theorem keepsRegs_showBank (s : State) (k : Nat) : KeepsRegs 0 0x400108 s (s.showBank k) := by
  have hsts : 0x400108 ≤ Reg.KENNEL_BANK_STS.off k := by unfold Reg.KENNEL_BANK_STS.off; omega
  unfold State.showBank
  exact ((keepsRegs_refl _ _ s).put (Reg.KENNEL_BANK_STS.RESIDENT k) _ (.inr hsts)).put (Reg.KENNEL_BANK_STS.PINNED k) _ (.inr hsts)

theorem qp?_kcmdEnd (s : State) (h : HostId) (r q : Nat) : (s.kcmdEnd h r).qp? q = s.qp? q := qp?_of_qps ((kcmdEnd_same s h r).qps rfl) q

/-- A command that waits shows BUSY, which neither the owners nor the states of partitions depend on. -/
theorem kennelRights_busy (u : State) (h h' : HostId) (q x : Nat) (part : Option Nat) :
    (u.put (Reg.KENNEL_CMD_STS.BUSY h) x).kennelRights h' q part = u.kennelRights h' q part := by
  have hown (p : Nat) : Reg.PART_ALLOC.off p ≠ Reg.KENNEL_CMD_STS.off h := by unfold Reg.PART_ALLOC.off Reg.KENNEL_CMD_STS.off; omega
  have hsts (p : Nat) : Reg.PART_STS.off p ≠ Reg.KENNEL_CMD_STS.off h := by unfold Reg.PART_STS.off Reg.KENNEL_CMD_STS.off; omega
  have howner (p : Nat) : (u.put (Reg.KENNEL_CMD_STS.BUSY h) x).owner p = u.owner p := by
    unfold State.owner
    rw [get_put_ne _ _ _ _ (hown p)]
  have hstate (p : Nat) : (u.put (Reg.KENNEL_CMD_STS.BUSY h) x).pstate p = u.pstate p := get_put_ne _ _ _ _ (hsts p)
  unfold State.kennelRights
  simp only [howner, hstate, qp?_put]

/-! A job that waits -/

theorem contains_withJob (k : Kennel) (q : Nat) (j : CtxJob) : (withJob k q j).jobs.contains (q, j) = true := by
  unfold withJob
  dsimp only
  split
  · assumption
  · simp

theorem jobs_miss (s : State) (q : Nat) : (s.miss q).kennel.jobs = s.kennel.jobs := by
  unfold State.miss
  dsimp only
  split
  · rfl
  · split <;> rfl

/-- A miss counts in its bank's register alone. -/
theorem get_miss_ne (s : State) {q : Nat} {g : Fld} (hne : g.off ≠ Reg.KENNEL_BANK_MISS.off (homeBank q)) : (s.miss q).get g = s.get g := by
  have hregs : (s.miss q).regs = (s.count (Reg.KENNEL_BANK_MISS.MISSES (homeBank q))).regs := by
    unfold State.miss
    dsimp only
    split
    · rfl
    · split <;> rfl
  calc (s.miss q).get g = (s.count (Reg.KENNEL_BANK_MISS.MISSES (homeBank q))).get g := by unfold State.get State.reg; rw [hregs]
    _ = s.get g := get_count_ne _ _ _ _ hne

/-! What a command's write does -/

/-- The state in which a KENNEL_CMD write shows its queue pair and operation. -/
def kcmdTaken (s : State) (h : HostId) (op q : Nat) : State := (s.put (Reg.KENNEL_CMD.QPN h) q).put (Reg.KENNEL_CMD.OP h) op

/-- The partition a command's image names: only MODIFY's has to be the host's beside the queue pair's own. -/
def kcmdPart (op : Nat) (b : List Byte) : Option Nat := if op = 2 then some (cidPart (ctxOf b).cid) else none

/-- A command that is taken: MODIFY, QUERY and DESTROY of an entitled host need the context. -/
def kcmdRuns (u : State) (h : HostId) (op q a : Nat) (b : List Byte) : State :=
  if 2 ≤ op ∧ op ≤ 4 ∧ u.kennelRights h q (kcmdPart op b) = true then
    (u.put (Reg.KENNEL_CMD_STS.BUSY h) 1).whenIn q (.cmd h op a b) (fun s => s.kennelAct h op q a b)
  else u.kennelAct h op q a b

theorem inP2_kcmdTaken (s : State) (h : HostId) (op q : Nat) : (kcmdTaken s h op q).inP2 = s.inP2 := by
  have hne : Reg.TALLY_STS.off ≠ Reg.KENNEL_CMD.off h := by unfold Reg.TALLY_STS.off Reg.KENNEL_CMD.off; omega
  unfold State.inP2 kcmdTaken
  rw [get_put_ne _ _ _ _ hne, get_put_ne _ _ _ _ hne]

section
variable {s : State} {h : HostId} {op : Nat} (hop : op < 8) (q : BitVec 24) (seen : Seen)
include hop

theorem kennelCmdEff_busy (hb : s.flag (Reg.KENNEL_CMD_STS.BUSY h) = true) :
    kennelCmdEff h (kennelWord op q) seen s = kcmdTaken s h op q.toNat := by
  unfold kennelCmdEff
  rw [kennelWord_qpn hop, kennelWord_op hop]
  exact if_pos (.inr hb)

variable (hb : s.flag (Reg.KENNEL_CMD_STS.BUSY h) = false)
include hb

theorem kennelCmdEff_P2 (hp : s.inP2 = true) : kennelCmdEff h (kennelWord op q) seen s = (kcmdTaken s h op q.toNat).kcmdEnd h 1 := by
  unfold kennelCmdEff
  rw [kennelWord_qpn hop, kennelWord_op hop, kennelWord_go hop]
  exact (if_neg (by simp [hb])).trans (if_pos ((inP2_kcmdTaken ..).trans hp))

theorem kennelCmdEff_runs (hp : s.inP2 = false) {u : State} {a : Nat} {b : List Byte} (hu : u = (kcmdTaken s h op q.toNat).see seen)
    (ha : a = u.pair (Reg.KENNEL_CMD_ADDR_LO.ADDR_LO h) (Reg.KENNEL_CMD_ADDR_HI.ADDR_HI h)) (hb' : b = u.hostRead h a 256) :
    kennelCmdEff h (kennelWord op q) seen s = kcmdRuns u h op q.toNat a b := by
  subst hu ha hb'
  unfold kennelCmdEff
  rw [kennelWord_qpn hop, kennelWord_op hop, kennelWord_go hop]
  exact (if_neg (by simp [hb])).trans (if_neg (by rw [← kcmdTaken, inP2_kcmdTaken, hp]; decide))

end

/-- A command is a write of its word to the host's KENNEL_CMD. -/
abbrev IsKcmd (c : Instr) (h : HostId) (op : Nat) (q : BitVec 24) (seen : Seen) : Prop :=
  ∀ s, exec c s = .next (s.hostWrite h (Reg.KENNEL_CMD.off h) (kennelCmdEff h (kennelWord op q) seen))

theorem IsKcmd.exec_takes {c : Instr} {h : HostId} {op : Nat} {q : BitVec 24} {seen : Seen} (hc : IsKcmd c h op q seen) {s : State}
    (ht : Takes s h (Reg.KENNEL_CMD.off h)) : exec c s = .next (kennelCmdEff h (kennelWord op q) seen s) :=
  (hc s).trans (congrArg Host.Outcome.next (hostWrite_takes _ ht))

/-- While BUSY a command only shows its queue pair and operation; in P2 it ends BAD_STATE. -/
theorem completes_kcmd_busyOrP2 {c : Instr} {s : State} {h : HostId} {op : Nat} {q : BitVec 24} {seen : Seen} (hc : IsKcmd c h op q seen)
    (hop : op < 8) (ht : Takes s h (Reg.KENNEL_CMD.off h)) :
    Completes c s fun t =>
      (s.flag (Reg.KENNEL_CMD_STS.BUSY h) = true → t.get (Reg.KENNEL_CMD.QPN h) = q.toNat ∧ t.get (Reg.KENNEL_CMD.OP h) = op
          ∧ FieldsBut [Reg.KENNEL_CMD.QPN h, Reg.KENNEL_CMD.OP h] s t ∧ t = { s with regs := t.regs })
      ∧ (s.flag (Reg.KENNEL_CMD_STS.BUSY h) = false → s.inP2 = true →
          t.get (Reg.KENNEL_CMD_STS.DONE h) = 1 ∧ t.get (Reg.KENNEL_CMD_STS.RESULT h) = 1 ∧ ReportsOnly s t) := by
  refine ⟨_, hc.exec_takes ht, fun hb => ?_, fun hb hp => ?_⟩
  · rw [kennelCmdEff_busy hop q seen hb]
    refine ⟨?_, get_put_fits _ _ _ (fieldOk_kcmdOp h) hop, ?_, rfl⟩
    · unfold kcmdTaken
      rw [get_put_disjoint _ _ _ _ (fieldOk_kcmdOp h) (fieldOk_kcmdQpn h) (.inr (.inr (by decide : 0 + 24 ≤ 24)))]
      exact get_put_fits _ _ _ (fieldOk_kcmdQpn h) q.isLt
    · exact fieldsBut_put _ _ (fieldsBut_put _ _ (fieldsBut_refl _ s) (fieldOk_kcmdQpn h) (by simp)) (fieldOk_kcmdOp h) (by simp)
  · rw [kennelCmdEff_P2 hop q seen hb hp]
    have hsame : Same 2 s (kcmdTaken s h op q.toNat) := (put_same ..).trans (put_same ..)
    exact ⟨get_kcmdEnd_done _ h 1, get_kcmdEnd_result _ h (by decide),
      eq_patch_of_same (m := 41781441855546) ((hsame.mono (by decide)).trans ((kcmdEnd_same ..).mono (by decide)))⟩

/-- A command that is taken ends as it runs. -/
theorem completes_kcmd_runs {c : Instr} {s u : State} {h : HostId} {op : Nat} {q : BitVec 24} {seen : Seen} {a : Nat} {b : List Byte}
    (hc : IsKcmd c h op q seen) (hop : op < 8)
    (ht : Takes s h (Reg.KENNEL_CMD.off h) ∧ s.flag (Reg.KENNEL_CMD_STS.BUSY h) = false ∧ s.inP2 = false)
    (hu : u = (kcmdTaken s h op q.toNat).see seen ∧ a = u.pair (Reg.KENNEL_CMD_ADDR_LO.ADDR_LO h) (Reg.KENNEL_CMD_ADDR_HI.ADDR_HI h)
      ∧ b = u.hostRead h a 256) :
    exec c s = .next (kcmdRuns u h op q.toNat a b) ∧ TrafficOnly s (kcmdRuns u h op q.toNat a b) := by
  obtain ⟨htakes, hbusy, hp2⟩ := ht
  obtain ⟨hu, ha, hb⟩ := hu
  rw [← kennelCmdEff_runs hop q seen hbusy hp2 hu ha hb]
  exact ⟨hc.exec_takes htakes, trafficOnly_of_same (kennelCmdEff_same ..) (by decide)⟩

/-! The commands on a context -/

section
variable {u : State} {h : HostId} {op : Nat} {q a : Nat} {b : List Byte}

theorem kcmdRuns_refused (hr : u.kennelRights h q (kcmdPart op b) = false) : kcmdRuns u h op q a b = u.kennelAct h op q a b :=
  if_neg (by simp [hr])

variable (h2 : 2 ≤ op) (h4 : op ≤ 4) (hr : u.kennelRights h q (kcmdPart op b) = true)
include h2 h4 hr

theorem kcmdRuns_entitled : kcmdRuns u h op q a b =
    (u.put (Reg.KENNEL_CMD_STS.BUSY h) 1).whenIn q (.cmd h op a b) (fun s => s.kennelAct h op q a b) := if_pos ⟨h2, h4, hr⟩

theorem kcmdRuns_none (hq : u.qp? q = none) : kcmdRuns u h op q a b = (u.put (Reg.KENNEL_CMD_STS.BUSY h) 1).kennelAct h op q a b :=
  (kcmdRuns_entitled h2 h4 hr).trans (whenIn_none _ _ hq)

variable {x : Qp} (hq : u.qp? q = some x)
include hq

theorem kcmdRuns_readable (hx : x.resident = true) (hb : u.kennel.bad.contains q = false) :
    kcmdRuns u h op q a b = (u.put (Reg.KENNEL_CMD_STS.BUSY h) 1).kennelAct h op q a b :=
  (kcmdRuns_entitled h2 h4 hr).trans (whenIn_readable _ _ hq hx hb)

/-- A command on a context out of its bank shows BUSY and waits for the fetch. -/
theorem kcmdRuns_waits (hx : x.resident = false) (hv : x.place ≠ .victim) :
    (kcmdRuns u h op q a b).get (Reg.KENNEL_CMD_STS.BUSY h) = 1
      ∧ (kcmdRuns u h op q a b).kennel.jobs.contains (q, .cmd h op a b) = true
      ∧ kcmdRuns u h op q a b = { u with regs := (kcmdRuns u h op q a b).regs, kennel := (kcmdRuns u h op q a b).kennel } := by
  rw [kcmdRuns_entitled h2 h4 hr, whenIn_away (s := u.put (Reg.KENNEL_CMD_STS.BUSY h) 1) _ _ hq hx hv]
  have hne : Reg.KENNEL_CMD_STS.off h ≠ Reg.KENNEL_BANK_MISS.off (homeBank q) := by
    unfold Reg.KENNEL_CMD_STS.off Reg.KENNEL_BANK_MISS.off; omega
  refine ⟨?_, ?_, eq_patch_of_same (miss_same ..)⟩
  · rw [get_miss_ne (g := Reg.KENNEL_CMD_STS.BUSY h) _ hne]
    exact get_put_fits u _ _ (fieldOk_kcmdBusy h) (by decide : 1 < 2 ^ 1)
  · rw [jobs_miss]
    exact contains_withJob _ q _

end

/-! The commands as writes of their words -/

theorem isKcmd_create (h : HostId) (q : BitVec 24) (seen : Seen) : IsKcmd (.kennelCreate h q seen) h 1 q seen := fun _ => rfl

theorem isKcmd_modify (h : HostId) (q : BitVec 24) (seen : Seen) : IsKcmd (.kennelModify h q seen) h 2 q seen := fun _ => rfl

theorem isKcmd_query (h : HostId) (q : BitVec 24) (seen : Seen) : IsKcmd (.kennelQuery h q seen) h 3 q seen := fun _ => rfl

theorem isKcmd_destroy (h : HostId) (q : BitVec 24) (seen : Seen) : IsKcmd (.kennelDestroy h q seen) h 4 q seen := fun _ => rfl

/-! A context that keeps its content wherever it moves -/

/-- The content of a queue pair's context, but for its last use: what its place and its moves do not change. -/
def ctxAt (s : State) (q : Nat) : Option QpCtx := (s.qp? q).map (fun x => { x.ctx with lastUse := 0 })

theorem ctxAt_of_qps {s t : State} (h : t.qps = s.qps) (q : Nat) : ctxAt t q = ctxAt s q := by
  unfold ctxAt
  rw [qp?_of_qps h]

/-- A queue pair whose place or last use alone is set keeps its content, and so does every other. -/
theorem ctxAt_setQp {s : State} {p : Nat} {x y : Qp} (hx : s.qp? p = some x) (hy : ({ y.ctx with lastUse := 0 } : QpCtx) = { x.ctx with lastUse := 0 })
    (q : Nat) : ctxAt (s.setQp p y) q = ctxAt s q := by
  by_cases hpq : q = p
  · subst hpq
    unfold ctxAt
    rw [qp?_setQp_self, hx]
    exact congrArg some hy
  · exact congrArg (Option.map _) (Sparse.at?_set_ne s.qps y hpq)

theorem ctxAt_modQp {f : Qp → Qp} (hf : ∀ x, ({ (f x).ctx with lastUse := 0 } : QpCtx) = { x.ctx with lastUse := 0 }) (s : State) (p q : Nat) :
    ctxAt (s.modQp p f) q = ctxAt s q := by
  cases hx : s.qp? p with
  | none => rw [modQp_none hx]
  | some x => rw [modQp_some hx, ctxAt_setQp hx (hf x)]

theorem ctxAt_withKennel (s : State) (k : Kennel) (q : Nat) : ctxAt { s with kennel := k } q = ctxAt s q := rfl

theorem ctxAt_count (s : State) (f : Fld) (n q : Nat) : ctxAt (s.count f n) q = ctxAt s q := rfl

theorem ctxAt_setPlace {s : State} {p : Nat} {x : Qp} (hx : s.qp? p = some x) (place : CtxPlace) (q : Nat) :
    ctxAt (s.setQp p { x with place := place }) q = ctxAt s q := ctxAt_setQp hx (y := { x with place := place }) rfl q

theorem ctxAt_modPlace (s : State) (p : Nat) (place : CtxPlace) (q : Nat) :
    ctxAt (s.modQp p (fun x => { x with place := place })) q = ctxAt s q := ctxAt_modQp (f := fun x => { x with place := place }) (fun _ => rfl) s p q

theorem ctxAt_spill (s : State) (p q : Nat) : ctxAt (s.spill p) q = ctxAt s q := by
  unfold State.spill
  split
  · rfl
  · rename_i x hx
    dsimp only
    split
    · exact (ctxAt_withKennel _ _ q).trans (ctxAt_setPlace hx .victim q)
    · have hspilled := (ctxAt_withKennel _ { s.kennel with victims := s.kennel.victims.filter (· != p) } q).trans (ctxAt_setPlace hx .spilled q)
      split
      · exact (ctxAt_of_qps ((sysWrite_same ..).qps rfl) q).trans hspilled
      · exact (ctxAt_of_qps ((writeHost_same ..).qps rfl) q).trans hspilled

theorem ctxAt_evict (s : State) (p q : Nat) : ctxAt (s.evict p) q = ctxAt s q := by
  have hmoved (k : Kennel) : ctxAt { (s.modQp p (fun x => { x with place := .victim })).count Reg.KENNEL_EVICT.COUNT with kennel := k } q = ctxAt s q :=
    (ctxAt_withKennel _ k q).trans ((ctxAt_count ..).trans (ctxAt_modPlace s p .victim q))
  unfold State.evict
  dsimp only
  split
  · exact hmoved _
  · split
    · exact (ctxAt_spill _ _ q).trans (hmoved _)
    · exact hmoved _

theorem ctxAt_showBank (s : State) (k q : Nat) : ctxAt (s.showBank k) q = ctxAt s q := ctxAt_of_qps ((showBank_same ..).qps rfl) q

theorem ctxAt_makeRoom (s : State) (p k q : Nat) : ctxAt (s.makeRoom p k) q = ctxAt s q := by
  unfold State.makeRoom
  dsimp only
  split
  · split
    · exact (ctxAt_showBank _ _ q).trans (ctxAt_evict ..)
    · rfl
  · split
    · split
      · exact ctxAt_evict ..
      · rfl
    · rfl

theorem ctxAt_bringIn (s : State) (p q : Nat) : ctxAt (s.bringIn p) q = ctxAt s q := by
  unfold State.bringIn
  split
  · rfl
  · dsimp only
    have hroom (pt : Nat) (k : Kennel) : ctxAt { s.makeRoom pt (homeBank p) with kennel := k } q = ctxAt s q :=
      (ctxAt_withKennel _ k q).trans (ctxAt_makeRoom ..)
    split
    · exact (ctxAt_showBank _ _ q).trans ((ctxAt_modQp (fun _ => by rfl) _ p q).trans (hroom _ _))
    · exact hroom _ _

theorem ctxAt_kcmdEnd (s : State) (h : HostId) (r q : Nat) : ctxAt (s.kcmdEnd h r) q = ctxAt s q := ctxAt_of_qps ((kcmdEnd_same ..).qps rfl) q

/-- What does not depend on the last use is read from the content. -/
theorem map_qp?_of_ctxAt {α : Type} {s : State} {q : Nat} {c : QpCtx} (h : ctxAt s q = some c) (f : QpCtx → α)
    (hf : ∀ c n, f { c with lastUse := n } = f c) : (s.qp? q).map (fun x => f x.ctx) = some (f c) := by
  unfold ctxAt at h
  obtain ⟨x, hx, rfl⟩ := Option.map_eq_some_iff.mp h
  rw [hx]
  exact congrArg some (hf ..).symm

/-! CREATE -/

/-- The context that CREATE makes of an image, with its tier-1 slot. -/
def newCtx (q k : Nat) (c : QpCtx) : QpCtx :=
  { qpn := q, state := 1, roce := c.roce, tier := c.tier, cid := c.cid, cls := c.cls, pmtu := c.pmtu, pkey := c.pkey
    sq := c.sq, rq := c.rq, scq := c.scq, rcq := c.rcq, spill := k }

/-- The state in which a queue pair with a tier-1 slot has been added, before its context is spilled and brought in. -/
def newQp (u : State) (q : Nat) (c : QpCtx) : State :=
  let s := u.setQp q { ctx := c }
  let s := { s with kennel := { s.kennel with slots := s.kennel.slots ++ [c.spill] } }
  s.put Reg.KENNEL_STS.QPS (s.get Reg.KENNEL_STS.QPS + 1)

theorem ctxAt_newQp (u : State) (q : Nat) (c : QpCtx) : ctxAt (newQp u q c) q = some { c with lastUse := 0 } := by
  unfold ctxAt
  rw [show (newQp u q c).qp? q = some { ctx := c } from qp?_setQp_self u q _]
  rfl

section
variable {u : State} {h : HostId} {q : Nat} {b : List Byte}

theorem kennelCreate_noRights (hr : u.kennelRights h q (some (cidPart (ctxOf b).cid)) = false) : u.kennelCreate h q b = u.kcmdEnd h 3 :=
  if_pos (by simp [hr])

theorem kennelCreate_unsealed (hp : u.pstate (cidPart (ctxOf b).cid) = 1) : u.kennelCreate h q b = u.kcmdEnd h 3 := if_pos (by simp [hp])

variable (hr : u.kennelRights h q (some (cidPart (ctxOf b).cid)) = true) (hp : u.pstate (cidPart (ctxOf b).cid) = 2)
include hr hp

theorem kennelCreate_badImage (hbad : imageOk b = false ∨ (ctxOf b).qpn ≠ q ∨ u.instPart? (cidInst (ctxOf b).cid) ≠ some (cidPart (ctxOf b).cid)
      ∨ u.queuesOk (ctxOf b) = false) : u.kennelCreate h q b = u.kcmdEnd h 2 := by
  refine (if_neg (by simp [hr, hp])).trans (if_pos ?_)
  rcases hbad with hbad | hbad | hbad | hbad <;> simp [hbad]

variable (hok : imageOk b = true) (hqpn : (ctxOf b).qpn = q) (hinst : u.instPart? (cidInst (ctxOf b).cid) = some (cidPart (ctxOf b).cid))
  (hqueues : u.queuesOk (ctxOf b) = true) (htier : (ctxOf b).tier = 0)
include hok hqpn hinst hqueues htier

theorem kennelCreate_badState (hbad : u.qp? q ≠ none ∨ (ctxOf b).state ≠ 1) : u.kennelCreate h q b = u.kcmdEnd h 1 := by
  refine (if_neg (by simp [hr, hp])).trans ((if_neg (by simp [hok, hqpn, hinst, hqueues, htier])).trans (if_pos ?_))
  rcases hbad with hbad | hbad <;> simp [hbad, Option.isSome_iff_ne_none]

variable (hq : u.qp? q = none) (hs : (ctxOf b).state = 1)
include hq hs

theorem kennelCreate_noSlot (hn : u.tier1Slot? = none) : u.kennelCreate h q b = u.kcmdEnd h 4 := by
  unfold State.kennelCreate
  dsimp only
  rw [if_neg (by simp [hr, hp]), if_neg (by simp [hok, hqpn, hinst, hqueues, htier]), if_neg (by simp [hq, hs]), if_pos htier, hn]

/-- A CREATE that succeeds puts the new context, RESET, into its spill slot and its bank. -/
theorem kennelCreate_creates {k : Nat} (hk : u.tier1Slot? = some k) :
    u.kennelCreate h q b = (((newQp u q (newCtx q k (ctxOf b))).spill q).bringIn q).kcmdEnd h 0 := by
  unfold State.kennelCreate
  dsimp only
  rw [if_neg (by simp [hr, hp]), if_neg (by simp [hok, hqpn, hinst, hqueues, htier]), if_neg (by simp [hq, hs]), if_pos htier, hk]
  dsimp only
  rw [if_pos htier]
  rfl

end

theorem completes_kennelCreate_runs (s u : State) (h : HostId) (q : BitVec 24) (seen : Seen) (a : Nat) (b : List Byte)
    (ht : Takes s h (Reg.KENNEL_CMD.off h) ∧ s.flag (Reg.KENNEL_CMD_STS.BUSY h) = false ∧ s.inP2 = false)
    (hu : u = (kcmdTaken s h 1 q.toNat).see seen ∧ a = u.pair (Reg.KENNEL_CMD_ADDR_LO.ADDR_LO h) (Reg.KENNEL_CMD_ADDR_HI.ADDR_HI h)
      ∧ b = u.hostRead h a 256) :
    Completes (.kennelCreate h q seen) s fun t =>
      (u.kennelRights h q.toNat (some (cidPart (ctxOf b).cid)) = false → t = u.kcmdEnd h 3)
      ∧ (u.kennelRights h q.toNat (some (cidPart (ctxOf b).cid)) = true → u.pstate (cidPart (ctxOf b).cid) = 1 → t = u.kcmdEnd h 3)
      ∧ (u.kennelRights h q.toNat (some (cidPart (ctxOf b).cid)) = true → u.pstate (cidPart (ctxOf b).cid) = 2 →
          imageOk b = false ∨ (ctxOf b).qpn ≠ q.toNat ∨ u.instPart? (cidInst (ctxOf b).cid) ≠ some (cidPart (ctxOf b).cid)
            ∨ u.queuesOk (ctxOf b) = false → t = u.kcmdEnd h 2)
      ∧ (u.kennelRights h q.toNat (some (cidPart (ctxOf b).cid)) = true → u.pstate (cidPart (ctxOf b).cid) = 2 → imageOk b = true →
          (ctxOf b).qpn = q.toNat → u.instPart? (cidInst (ctxOf b).cid) = some (cidPart (ctxOf b).cid) → u.queuesOk (ctxOf b) = true →
          (ctxOf b).tier = 0 →
          (u.qp? q.toNat ≠ none ∨ (ctxOf b).state ≠ 1 → t = u.kcmdEnd h 1)
          ∧ (u.qp? q.toNat = none → (ctxOf b).state = 1 → u.tier1Slot? = none → t = u.kcmdEnd h 4)
          ∧ (u.qp? q.toNat = none → (ctxOf b).state = 1 → ∀ k, u.tier1Slot? = some k →
              t.get (Reg.KENNEL_CMD_STS.RESULT h) = 0 ∧ t.get (Reg.KENNEL_CMD_STS.DONE h) = 1
              ∧ (t.qp? q.toNat).map (·.ctx.state) = some 1 ∧ (t.qp? q.toNat).map (·.ctx.spill) = some k
              ∧ (t.qp? q.toNat).map (·.ctx.cid) = some (ctxOf b).cid ∧ (t.qp? q.toNat).map (·.ctx.sq) = some (ctxOf b).sq))
      ∧ TrafficOnly s t := by
  obtain ⟨hexec, hframe⟩ := completes_kcmd_runs (isKcmd_create h q seen) (by decide) ht hu
  refine ⟨_, hexec, ?_⟩
  rw [show kcmdRuns u h 1 q.toNat a b = u.kennelCreate h q.toNat b from if_neg (by simp)] at hframe ⊢
  refine ⟨kennelCreate_noRights, fun _ => kennelCreate_unsealed, kennelCreate_badImage, fun hr hp hok hqpn hinst hqueues htier => ?_, hframe⟩
  refine ⟨kennelCreate_badState hr hp hok hqpn hinst hqueues htier, kennelCreate_noSlot hr hp hok hqpn hinst hqueues htier, fun hq hs k hk => ?_⟩
  rw [kennelCreate_creates hr hp hok hqpn hinst hqueues htier hq hs hk]
  have hctx : ctxAt ((((newQp u q.toNat (newCtx q.toNat k (ctxOf b))).spill q.toNat).bringIn q.toNat).kcmdEnd h 0) q.toNat
      = some { newCtx q.toNat k (ctxOf b) with lastUse := 0 } :=
    (ctxAt_kcmdEnd ..).trans ((ctxAt_bringIn ..).trans ((ctxAt_spill ..).trans (ctxAt_newQp ..)))
  exact ⟨get_kcmdEnd_result _ h (by decide), get_kcmdEnd_done _ h 0, map_qp?_of_ctxAt hctx (·.state) fun _ _ => rfl,
    map_qp?_of_ctxAt hctx (·.spill) fun _ _ => rfl, map_qp?_of_ctxAt hctx (·.cid) fun _ _ => rfl, map_qp?_of_ctxAt hctx (·.sq) fun _ _ => rfl⟩

/-! MODIFY -/

/-- The end of a MODIFY whose image is in order, to a context or to none where the transition does not exist. -/
def modifyTo (v : State) (h : HostId) (q : Nat) (x : Qp) : Option QpCtx → State
  | none => v.kcmdEnd h 1
  | some c => ((v.setQp q (if c.state = 0 then { ctx := c, place := x.place } else { x with ctx := c })).checkDrained q).kcmdEnd h 0

section
variable {v : State} {h : HostId} {q : Nat} {b : List Byte}

theorem kennelModify_noRights (hr : v.kennelRights h q (some (cidPart (ctxOf b).cid)) = false) : v.kennelModify h q b = v.kcmdEnd h 3 :=
  if_pos (by simp [hr])

variable (hr : v.kennelRights h q (some (cidPart (ctxOf b).cid)) = true)
include hr

theorem kennelModify_none (hq : v.qp? q = none) : v.kennelModify h q b = v.kcmdEnd h 1 := by
  unfold State.kennelModify
  dsimp only
  rw [if_neg (by simp [hr]), hq]

variable {x : Qp} (hq : v.qp? q = some x) (hok : imageOk b = true) (hqpn : (ctxOf b).qpn = q)
  (hqueues : v.queuesOk { ctxOf b with cid := x.ctx.cid } = true) (hpin : x.ctx.pin = false) (h6 : (ctxOf b).state ≠ 6)
include hq hok hqpn hqueues hpin h6

theorem kennelModify_checked : v.kennelModify h q b = modifyTo v h q x (modified x.ctx (ctxOf b)) := by
  unfold State.kennelModify
  dsimp only at hqueues ⊢
  rw [if_neg (by simp [hr]), hq]
  dsimp only
  rw [if_neg (by rw [hqueues]; simp [hok, hqpn, hpin]), if_neg (by simp [h6])]
  rfl

theorem kennelModify_noTransition (hm : modified x.ctx (ctxOf b) = none) : v.kennelModify h q b = v.kcmdEnd h 1 := by
  rw [kennelModify_checked hr hq hok hqpn hqueues hpin h6, hm]
  rfl

theorem kennelModify_moves {c : QpCtx} (hm : modified x.ctx (ctxOf b) = some c) (h0 : c.state ≠ 0) :
    v.kennelModify h q b = ((v.setQp q { x with ctx := c }).checkDrained q).kcmdEnd h 0 := by
  rw [kennelModify_checked hr hq hok hqpn hqueues hpin h6, hm]
  unfold modifyTo
  dsimp only
  rw [if_neg h0]

end

theorem completes_kennelModify_runs (s u : State) (h : HostId) (q : BitVec 24) (seen : Seen) (a : Nat) (b : List Byte)
    (ht : Takes s h (Reg.KENNEL_CMD.off h) ∧ s.flag (Reg.KENNEL_CMD_STS.BUSY h) = false ∧ s.inP2 = false)
    (hu : u = (kcmdTaken s h 2 q.toNat).see seen ∧ a = u.pair (Reg.KENNEL_CMD_ADDR_LO.ADDR_LO h) (Reg.KENNEL_CMD_ADDR_HI.ADDR_HI h)
      ∧ b = u.hostRead h a 256) :
    Completes (.kennelModify h q seen) s fun t =>
      (u.kennelRights h q.toNat (some (cidPart (ctxOf b).cid)) = false → t = u.kcmdEnd h 3)
      ∧ (u.kennelRights h q.toNat (some (cidPart (ctxOf b).cid)) = true → u.qp? q.toNat = none → t = (u.put (Reg.KENNEL_CMD_STS.BUSY h) 1).kcmdEnd h 1)
      ∧ (u.kennelRights h q.toNat (some (cidPart (ctxOf b).cid)) = true → ∀ x, u.qp? q.toNat = some x →
          (x.resident = true → u.kennel.bad.contains q.toNat = false → t = (u.put (Reg.KENNEL_CMD_STS.BUSY h) 1).kennelModify h q.toNat b)
          ∧ (x.resident = false → x.place ≠ .victim → t.get (Reg.KENNEL_CMD_STS.BUSY h) = 1
              ∧ t.kennel.jobs.contains (q.toNat, .cmd h 2 a b) = true ∧ t = { u with regs := t.regs, kennel := t.kennel })
          ∧ (x.resident = true → u.kennel.bad.contains q.toNat = false → imageOk b = true → (ctxOf b).qpn = q.toNat →
              u.queuesOk { ctxOf b with cid := x.ctx.cid } = true → x.ctx.pin = false → (ctxOf b).state ≠ 6 →
              (modified x.ctx (ctxOf b) = none → t = (u.put (Reg.KENNEL_CMD_STS.BUSY h) 1).kcmdEnd h 1)
              ∧ (∀ c, modified x.ctx (ctxOf b) = some c → c.state ≠ 0 →
                  t = (((u.put (Reg.KENNEL_CMD_STS.BUSY h) 1).setQp q.toNat { x with ctx := c }).checkDrained q.toNat).kcmdEnd h 0)))
      ∧ TrafficOnly s t := by
  obtain ⟨hexec, hframe⟩ := completes_kcmd_runs (isKcmd_modify h q seen) (by decide) ht hu
  refine ⟨_, hexec, fun hr => ?_, fun hr hq => ?_, fun hr x hq => ?_, hframe⟩
  · exact (kcmdRuns_refused (op := 2) hr).trans (kennelModify_noRights hr)
  · exact (kcmdRuns_none (op := 2) (by decide) (by decide) hr hq).trans (kennelModify_none ((kennelRights_busy ..).trans hr) hq)
  · have hbusy := (kennelRights_busy u h h q.toNat 1 _).trans hr
    refine ⟨kcmdRuns_readable (op := 2) (by decide) (by decide) hr hq, kcmdRuns_waits (op := 2) (by decide) (by decide) hr hq,
      fun hx hbad hok hqpn hqueues hpin h6 => ?_⟩
    rw [kcmdRuns_readable (op := 2) (by decide) (by decide) hr hq hx hbad]
    exact ⟨kennelModify_noTransition hbusy hq hok hqpn hqueues hpin h6, fun c => kennelModify_moves hbusy hq hok hqpn hqueues hpin h6⟩

/-! QUERY -/

section
variable {v : State} {h : HostId} {q a : Nat}

theorem kennelQuery_noRights (hr : v.kennelRights h q none = false) : v.kennelQuery h q a = v.kcmdEnd h 3 := if_pos (by simp [hr])

variable (hr : v.kennelRights h q none = true)
include hr

theorem kennelQuery_none (hq : v.qp? q = none) : v.kennelQuery h q a = v.kcmdEnd h 1 := by
  unfold State.kennelQuery
  rw [if_neg (by simp [hr]), hq]

theorem kennelQuery_writes {x : Qp} (hq : v.qp? q = some x) :
    v.kennelQuery h q a = (v.writeHost h a (x.ctx.body ++ [0, 0, 0, 0])).kcmdEnd h 0 := by
  unfold State.kennelQuery
  rw [if_neg (by simp [hr]), hq]
  rfl

end

theorem completes_kennelQuery_runs (s u : State) (h : HostId) (q : BitVec 24) (seen : Seen) (a : Nat) (b : List Byte)
    (ht : Takes s h (Reg.KENNEL_CMD.off h) ∧ s.flag (Reg.KENNEL_CMD_STS.BUSY h) = false ∧ s.inP2 = false)
    (hu : u = (kcmdTaken s h 3 q.toNat).see seen ∧ a = u.pair (Reg.KENNEL_CMD_ADDR_LO.ADDR_LO h) (Reg.KENNEL_CMD_ADDR_HI.ADDR_HI h)
      ∧ b = u.hostRead h a 256) :
    Completes (.kennelQuery h q seen) s fun t =>
      (u.kennelRights h q.toNat none = false → t = u.kcmdEnd h 3)
      ∧ (u.kennelRights h q.toNat none = true → u.qp? q.toNat = none → t = (u.put (Reg.KENNEL_CMD_STS.BUSY h) 1).kcmdEnd h 1)
      ∧ (u.kennelRights h q.toNat none = true → ∀ x, u.qp? q.toNat = some x →
          (x.resident = true → u.kennel.bad.contains q.toNat = false → t = (u.put (Reg.KENNEL_CMD_STS.BUSY h) 1).kennelQuery h q.toNat a)
          ∧ (x.resident = false → x.place ≠ .victim → t.get (Reg.KENNEL_CMD_STS.BUSY h) = 1
              ∧ t.kennel.jobs.contains (q.toNat, .cmd h 3 a b) = true ∧ t = { u with regs := t.regs, kennel := t.kennel })
          ∧ (x.resident = true → u.kennel.bad.contains q.toNat = false →
              t = ((u.put (Reg.KENNEL_CMD_STS.BUSY h) 1).writeHost h a (x.ctx.body ++ [0, 0, 0, 0])).kcmdEnd h 0))
      ∧ TrafficOnly s t := by
  obtain ⟨hexec, hframe⟩ := completes_kcmd_runs (isKcmd_query h q seen) (by decide) ht hu
  refine ⟨_, hexec, fun hr => ?_, fun hr hq => ?_, fun hr x hq => ?_, hframe⟩
  · exact (kcmdRuns_refused (op := 3) hr).trans (kennelQuery_noRights hr)
  · exact (kcmdRuns_none (op := 3) (by decide) (by decide) hr hq).trans (kennelQuery_none ((kennelRights_busy ..).trans hr) hq)
  · have hruns := kcmdRuns_readable (op := 3) (a := a) (b := b) (by decide) (by decide) hr hq
    exact ⟨hruns, kcmdRuns_waits (op := 3) (by decide) (by decide) hr hq,
      fun hx hbad => (hruns hx hbad).trans (kennelQuery_writes ((kennelRights_busy ..).trans hr) hq)⟩

/-! DESTROY -/

theorem keepsRegs_endJobs (s : State) (q : Nat) : KeepsRegs 0 0x400108 s (s.endJobs q) := by
  have hstep (s : State) (j : Nat × CtxJob) : KeepsRegs 0 0x400108 s (match j.2 with | .cmd h _ _ _ => s.kcmdEnd h 1 | _ => s) := by
    cases j.2 with
    | cmd h op addr img => exact keepsRegs_kcmdEnd s h 1
    | _ => exact keepsRegs_refl _ _ s
  unfold State.endJobs
  exact KeepsRegs.trans ((keepsRegs_refl _ _ s).of_regs rfl) (KeepsRegs.foldl hstep _ _)

theorem qp?_dropQp_self (s : State) (q : Nat) : (s.dropQp q).qp? q = none := by
  unfold State.dropQp
  split
  · assumption
  · exact (qp?_of_qps ((showBank_same ..).qps rfl) q).trans (Sparse.at?_del_self ..)

/-- A queue pair that goes is no longer counted. -/
theorem get_dropQp_qps {s : State} {q : Nat} {x : Qp} (hq : s.qp? q = some x) :
    (s.dropQp q).get Reg.KENNEL_STS.QPS = (s.get Reg.KENNEL_STS.QPS - 1) % 2 ^ 25 := by
  have hslot : (s.freeSlotOf x).regs = s.regs := (freeSlotOf_same ..).regs rfl
  have hjobs : KeepsRegs 0 0x400108 s ((s.freeSlotOf x).endJobs q) := ((keepsRegs_refl _ _ s).of_regs hslot).trans (keepsRegs_endJobs _ _)
  have hqps : ((s.freeSlotOf x).endJobs q).get Reg.KENNEL_STS.QPS = s.get Reg.KENNEL_STS.QPS := hjobs.get (Nat.zero_le _) (by decide)
  unfold State.dropQp
  rw [hq]
  dsimp only
  rw [(keepsRegs_showBank _ _).get (Nat.zero_le _) (by decide), get_put_self _ _ _ (by decide : FieldOk Reg.KENNEL_STS.QPS)]
  exact congrArg (fun n => (n - 1) % 2 ^ 25) hqps

section
variable {v : State} {h : HostId} {q : Nat}

theorem kennelDestroy_noRights (hr : v.kennelRights h q none = false) : v.kennelDestroy h q = v.kcmdEnd h 3 := if_pos (by simp [hr])

variable (hr : v.kennelRights h q none = true)
include hr

theorem kennelDestroy_none (hq : v.qp? q = none) : v.kennelDestroy h q = v.kcmdEnd h 1 := by
  unfold State.kennelDestroy
  rw [if_neg (by simp [hr]), hq]

variable {x : Qp} (hq : v.qp? q = some x)
include hq

theorem kennelDestroy_sends (hs : x.ctx.state = 3 ∨ x.ctx.state = 4) : v.kennelDestroy h q = v.kcmdEnd h 1 := by
  unfold State.kennelDestroy
  rw [if_neg (by simp [hr]), hq]
  exact if_pos hs

theorem kennelDestroy_pinned (h3 : x.ctx.state ≠ 3) (h4 : x.ctx.state ≠ 4) (hp : x.ctx.pin = true) : v.kennelDestroy h q = v.kcmdEnd h 5 := by
  unfold State.kennelDestroy
  rw [if_neg (by simp [hr]), hq]
  exact (if_neg (by simp [h3, h4])).trans (if_pos hp)

theorem kennelDestroy_drops (h3 : x.ctx.state ≠ 3) (h4 : x.ctx.state ≠ 4) (hp : x.ctx.pin = false) :
    v.kennelDestroy h q = (v.dropQp q).kcmdEnd h 0 := by
  unfold State.kennelDestroy
  rw [if_neg (by simp [hr]), hq]
  exact (if_neg (by simp [h3, h4])).trans (if_neg (by simp [hp]))

end

/-- The end of a DESTROY: the queue pair is gone and no longer counted. -/
theorem dropped_kcmdEnd {u : State} {h : HostId} {q : Nat} {x : Qp} (hq : u.qp? q = some x) :
    ((((u.put (Reg.KENNEL_CMD_STS.BUSY h) 1).dropQp q).kcmdEnd h 0).qp? q = none)
      ∧ (((u.put (Reg.KENNEL_CMD_STS.BUSY h) 1).dropQp q).kcmdEnd h 0).get Reg.KENNEL_STS.QPS = (u.get Reg.KENNEL_STS.QPS - 1) % 2 ^ 25 := by
  have hbusy : (u.put (Reg.KENNEL_CMD_STS.BUSY h) 1).get Reg.KENNEL_STS.QPS = u.get Reg.KENNEL_STS.QPS :=
    ((keepsRegs_refl 0 0x400108 u).put (Reg.KENNEL_CMD_STS.BUSY h) 1 (.inr (kcmdSts_off_mem h).1)).get (Nat.zero_le _) (by decide)
  refine ⟨(qp?_kcmdEnd ..).trans (qp?_dropQp_self ..), ?_⟩
  rw [(keepsRegs_kcmdEnd _ _ _).get (Nat.zero_le _) (by decide), get_dropQp_qps (s := u.put (Reg.KENNEL_CMD_STS.BUSY h) 1) hq, hbusy]

theorem completes_kennelDestroy_runs (s u : State) (h : HostId) (q : BitVec 24) (seen : Seen) (a : Nat) (b : List Byte)
    (ht : Takes s h (Reg.KENNEL_CMD.off h) ∧ s.flag (Reg.KENNEL_CMD_STS.BUSY h) = false ∧ s.inP2 = false)
    (hu : u = (kcmdTaken s h 4 q.toNat).see seen ∧ a = u.pair (Reg.KENNEL_CMD_ADDR_LO.ADDR_LO h) (Reg.KENNEL_CMD_ADDR_HI.ADDR_HI h)
      ∧ b = u.hostRead h a 256) :
    Completes (.kennelDestroy h q seen) s fun t =>
      (u.kennelRights h q.toNat none = false → t = u.kcmdEnd h 3)
      ∧ (u.kennelRights h q.toNat none = true → u.qp? q.toNat = none → t = (u.put (Reg.KENNEL_CMD_STS.BUSY h) 1).kcmdEnd h 1)
      ∧ (u.kennelRights h q.toNat none = true → ∀ x, u.qp? q.toNat = some x →
          (x.resident = true → u.kennel.bad.contains q.toNat = false → t = (u.put (Reg.KENNEL_CMD_STS.BUSY h) 1).kennelDestroy h q.toNat)
          ∧ (x.resident = false → x.place ≠ .victim → t.get (Reg.KENNEL_CMD_STS.BUSY h) = 1
              ∧ t.kennel.jobs.contains (q.toNat, .cmd h 4 a b) = true ∧ t = { u with regs := t.regs, kennel := t.kennel })
          ∧ (x.resident = true → u.kennel.bad.contains q.toNat = false → x.ctx.state = 3 ∨ x.ctx.state = 4 →
              t = (u.put (Reg.KENNEL_CMD_STS.BUSY h) 1).kcmdEnd h 1)
          ∧ (x.resident = true → u.kennel.bad.contains q.toNat = false → x.ctx.state ≠ 3 → x.ctx.state ≠ 4 → x.ctx.pin = true →
              t = (u.put (Reg.KENNEL_CMD_STS.BUSY h) 1).kcmdEnd h 5)
          ∧ (x.resident = true → u.kennel.bad.contains q.toNat = false → x.ctx.state ≠ 3 → x.ctx.state ≠ 4 → x.ctx.pin = false →
              t = ((u.put (Reg.KENNEL_CMD_STS.BUSY h) 1).dropQp q.toNat).kcmdEnd h 0 ∧ t.qp? q.toNat = none
                ∧ t.get Reg.KENNEL_STS.QPS = (u.get Reg.KENNEL_STS.QPS - 1) % 2 ^ 25))
      ∧ TrafficOnly s t := by
  obtain ⟨hexec, hframe⟩ := completes_kcmd_runs (isKcmd_destroy h q seen) (by decide) ht hu
  refine ⟨_, hexec, fun hr => ?_, fun hr hq => ?_, fun hr x hq => ?_, hframe⟩
  · exact (kcmdRuns_refused (op := 4) hr).trans (kennelDestroy_noRights hr)
  · exact (kcmdRuns_none (op := 4) (by decide) (by decide) hr hq).trans (kennelDestroy_none ((kennelRights_busy ..).trans hr) hq)
  · have hbusy := (kennelRights_busy u h h q.toNat 1 _).trans hr
    have hruns := kcmdRuns_readable (op := 4) (a := a) (b := b) (by decide) (by decide) hr hq
    refine ⟨hruns, kcmdRuns_waits (op := 4) (by decide) (by decide) hr hq, fun hx hbad hs => (hruns hx hbad).trans (kennelDestroy_sends hbusy hq hs),
      fun hx hbad h3 h4 hp => (hruns hx hbad).trans (kennelDestroy_pinned hbusy hq h3 h4 hp), fun hx hbad h3 h4 hp => ?_⟩
    rw [(hruns hx hbad).trans (kennelDestroy_drops hbusy hq h3 h4 hp)]
    exact ⟨rfl, dropped_kcmdEnd hq⟩

/-- Settles O32, command by command through the lemmas above. -/
theorem kennelCommands : Obligations.KennelCommands := by
  unfold Obligations.KennelCommands
  exact ⟨fun _ h q seen => completes_kcmd_busyOrP2 (isKcmd_create h q seen) (by decide), completes_kennelCreate_runs,
    fun _ h q seen => completes_kcmd_busyOrP2 (isKcmd_modify h q seen) (by decide), completes_kennelModify_runs,
    fun _ h q seen => completes_kcmd_busyOrP2 (isKcmd_query h q seen) (by decide), completes_kennelQuery_runs,
    fun _ h q seen => completes_kcmd_busyOrP2 (isKcmd_destroy h q seen) (by decide), completes_kennelDestroy_runs⟩

end Sys2Proof.Machine.Proofs
end

section
/-! PROOFS. Window revocation, and the shares of windows and trigger slots (O31; 07_memory_windows.md R181, R184 to R188, R200, R205). -/

namespace Sys2Proof.Machine.Proofs

open Laws

/-! Where the registers of a partition stand -/

/-- Every register of a row stands below an offset. -/
def rowBelow (o : Nat) (r : RegRow) : Bool :=
  match r.dims with
  | [] => r.base < o
  | (n, st) :: _ => 0 < st && r.base + n * st ≤ o

theorem dimsIndex?_of_rowBelow {o : Nat} {r : RegRow} (h : rowBelow o r = true) : dimsIndex? r.dims (o - r.base) = none := by
  unfold rowBelow at h
  split at h
  · next hd =>
    have hlt : r.base < o := of_decide_eq_true h
    rw [hd]
    exact if_neg (by omega)
  · next n st ds hd =>
    simp only [Bool.and_eq_true, decide_eq_true_eq] at h
    obtain ⟨hst, hle⟩ := h
    rw [hd]
    exact if_neg (Nat.not_lt.mpr ((Nat.le_div_iff_mul_le hst).mpr (by omega)))

/-- Rows that stand below an offset are passed over. -/
theorem findReg?_append_below {o : Nat} {rs : List RegRow} (hrs : ∀ r ∈ rs, rowBelow o r = true) (rest : List RegRow) :
    findReg? o (rs ++ rest) = findReg? o rest := by
  induction rs with
  | nil => rfl
  | cons r rs ih =>
    obtain ⟨hr, hrs⟩ := List.forall_mem_cons.mp hrs
    rw [List.cons_append, findReg?, dimsIndex?_of_rowBelow hr, ih hrs]
    exact ite_self _

theorem rowBelow_mono {o o' : Nat} {r : RegRow} (h : rowBelow o r = true) (hle : o ≤ o') : rowBelow o' r = true := by
  unfold rowBelow at h ⊢
  split at h <;> simp only [Bool.and_eq_true, decide_eq_true_eq] at h ⊢ <;> omega

/-- A row of the window registers, one of each partition, whose first register stands no higher than an offset of partition 0. -/
abbrev WinRow (o : Nat) (r : RegRow) : Prop := r.dims = [(64, 32)] ∧ r.base ≤ o ∧ o < r.base + 32

theorem dimsIndex?_perPart (p : PartId) {x : Nat} (hx : x < 32) :
    dimsIndex? [(64, 32)] (32 * p + x) = if x = 0 then some [p.val] else none := by
  have hp : p.val < 64 := p.isLt
  have hdiv : (32 * p.val + x) / 32 = p := by omega
  have hmod : (32 * p.val + x) % 32 = x := by omega
  simp only [dimsIndex?, hdiv, hmod, hp, if_true]
  split <;> rfl

/-- Of the window registers the one of partition p stands p strides behind that of partition 0. -/
theorem findReg?_perPart (p : PartId) {o : Nat} {rs : List RegRow} (hrs : ∀ r ∈ rs, WinRow o r) {r : RegRow}
    (h : rs.find? (fun r => r.base == o) = some r) (rest : List RegRow) : findReg? (32 * p + o) (rs ++ rest) = some (r, [p.val]) := by
  induction rs with
  | nil => cases h
  | cons a rs ih =>
    obtain ⟨⟨hdims, hbase, htop⟩, hrs⟩ := List.forall_mem_cons.mp hrs
    have hx := dimsIndex?_perPart p (x := o - a.base) (by omega)
    rw [show 32 * p.val + (o - a.base) = 32 * p + o - a.base by omega] at hx
    rw [List.cons_append, findReg?, if_neg (by omega), hdims, hx]
    rw [List.find?_cons] at h
    by_cases hao : a.base = o
    · simp only [hao, BEq.rfl, Option.some.injEq] at h
      rw [if_pos (by omega), h]
    · rw [beq_false_of_ne hao] at h
      rw [if_neg (by omega)]
      exact ih hrs h

/-- How many rows of the PART block stand before WIN_SHARE. -/
def rowsBeforeWin : Nat := regsPART.findIdx (fun r => r.base == 0xC1000)

theorem belowWin : ∀ r ∈ regsPART.take rowsBeforeWin, rowBelow 0xC1000 r = true := by decide

/-- The window register of a partition among the first n from WIN_SHARE on. -/
theorem regAt?_win (p : PartId) (n : Nat) {o : Nat} {r : RegRow} (hlo : 0xC1000 ≤ o) (hhi : o < 0xC1020)
    (hrs : ∀ r ∈ (regsPART.drop rowsBeforeWin).take n, WinRow o r)
    (h : ((regsPART.drop rowsBeforeWin).take n).find? (fun r => r.base == o) = some r) : regAt? (32 * p + o) = some (r, [p.val]) := by
  have hp : p.val < 64 := p.isLt
  have hrows : regRowsAt (32 * p + o) = regsPART := by
    unfold regRowsAt
    rw [if_neg (by omega), if_neg (by omega), if_neg (by omega), if_neg (by omega), if_neg (by omega), if_pos (by omega)]
  unfold regAt?
  rw [hrows, ← List.take_append_drop rowsBeforeWin regsPART,
    findReg?_append_below (fun r hr => rowBelow_mono (belowWin r hr) (by omega)), ← List.take_append_drop n (regsPART.drop rowsBeforeWin)]
  exact findReg?_perPart p hrs h _

/-- The row of a register of each partition with one field, which is RWL. -/
def lockedRow (name : String) (base w max : Nat) : RegRow := ⟨name, base, [(64, 32)], .own 0, [⟨0, w, .rwl, 0, 0, max⟩]⟩

theorem regAt_winShare (p : PartId) : regAt? (Reg.WIN_SHARE.off p) = some (lockedRow "WIN_SHARE" 0xC1000 21 2097151, [p.val]) := by
  rw [show Reg.WIN_SHARE.off p = 32 * p + 0xC1000 from Nat.add_comm ..]
  exact regAt?_win p 1 (by decide) (by decide) (by decide) rfl

theorem regAt_trigBase (p : PartId) : regAt? (Reg.TRIG_BASE.off p) = some (lockedRow "TRIG_BASE" 0xC1010 16 65535, [p.val]) := by
  rw [show Reg.TRIG_BASE.off p = 32 * p + 0xC1010 from Nat.add_comm ..]
  exact regAt?_win p 5 (by decide) (by decide) (by decide) rfl

theorem regAt_trigNum (p : PartId) : regAt? (Reg.TRIG_NUM.off p) = some (lockedRow "TRIG_NUM" 0xC1014 17 131071, [p.val]) := by
  rw [show Reg.TRIG_NUM.off p = 32 * p + 0xC1014 from Nat.add_comm ..]
  exact regAt?_win p 6 (by decide) (by decide) (by decide) rfl

/-! A write of a register that only CONFIG opens (Table 0.4, R9) -/

section
variable {s : State} {off : Nat} {name : String} {base w max : Nat} {p : PartId}
  (hreg : regAt? off = some (lockedRow name base w max, [p.val])) (v : Word)
include hreg

/-- Outside CONFIG it keeps its value, and the partition shows CFG_REJ. -/
theorem applyWrite_locked (hs : s.pstate p ≠ 1) : s.applyWrite off v = s.put (Reg.PART_STS.CFG_REJ p) 1 := by
  simp [State.applyWrite, hreg, lockedRow, hs]

/-- In CONFIG its field takes a value of its range. -/
theorem applyWrite_config (hs : s.pstate p = 1) (hmax : wordField v 0 w ≤ max) :
    s.applyWrite off v = s.put ⟨off, 0, w⟩ (wordField v 0 w) := by
  simp [State.applyWrite, hreg, lockedRow, hs, State.applyFields, FldRow.apply, hmax, State.put]

end

/-! Descriptors that stay open or stay free -/

/-- Where a descriptor neither becomes nor ceases to be FREE, only the descriptor changes. -/
theorem setWin_eq {s : State} {i : Nat} {w : Window} (h : w.state = 0 ↔ (s.win i).state = 0) :
    s.setWin i w = { s with wins := { s.wins with desc := s.wins.desc.putD i w {} } } := by
  unfold State.setWin
  by_cases hw : w.state = 0
  · simp [hw, h.mp hw]
  · simp [hw, mt h.mpr hw]

/-! WIN_REVOKE -/

/-- The revocations once a waiter has joined the one of a window, or started it. -/
def revsWith (revs : List Revocation) (i : Nat) (w : RevWaiter) : List Revocation :=
  if revs.any (fun r => r.index == i) then revs.map (fun r => if r.index = i then { r with waiters := r.waiters ++ [w] } else r)
  else revs ++ [{ index := i, waiters := [w] }]

/-- No window is open under the key. -/
abbrev KeyStale (s : State) (key : Nat) : Prop :=
  key / 4096 = 0 ∨ key % 4096 = 0 ∨ (s.win (key / 4096)).state = 0
    ∨ ((s.win (key / 4096)).state = 1 ∧ (s.win (key / 4096)).gen ≠ key % 4096)

theorem startRevoke_stale {s : State} {key : Nat} (w : RevWaiter) (h : KeyStale s key) : s.startRevoke key w = none := by
  unfold State.startRevoke
  rcases h with h | h | h | ⟨hs, hg⟩
  · simp [h]
  · simp [h]
  · simp [h]
  · simp [hs, hg]

theorem startRevoke_open {s : State} {key : Nat} (w : RevWaiter) (hi : key / 4096 ≠ 0) (hk : key % 4096 ≠ 0)
    (hs : (s.win (key / 4096)).state = 1) (hg : (s.win (key / 4096)).gen = key % 4096) :
    s.startRevoke key w = some { s with wins := { s.wins with revs := revsWith s.wins.revs (key / 4096) w } } := by
  unfold State.startRevoke revsWith
  simp [hi, hk, hs, hg]

section
variable {s : State} {p : Nat} {v : Word}

theorem winRevokeEff_foreign (hs : (s.win (v.toNat / 4096)).state ≠ 0) (hp : cidPart (s.win (v.toNat / 4096)).cid ≠ p) :
    winRevokeEff p v s = s.put (Reg.WIN_REVOKE_STS.REJ p) 1 := if_pos (by simp [hs, hp])

theorem winRevokeEff_stale (h : KeyStale s v.toNat) : winRevokeEff p v s = s.put (Reg.WIN_REVOKE_STS.REJ p) 1 := by
  unfold winRevokeEff
  rw [startRevoke_stale _ h]
  exact ite_self _

theorem winRevokeEff_open (hi : v.toNat / 4096 ≠ 0) (hk : v.toNat % 4096 ≠ 0) (hs : (s.win (v.toNat / 4096)).state = 1)
    (hg : (s.win (v.toNat / 4096)).gen = v.toNat % 4096) (hp : cidPart (s.win (v.toNat / 4096)).cid = p) :
    winRevokeEff p v s = ({ s with wins := { s.wins with revs := revsWith s.wins.revs (v.toNat / 4096) (.reg p) } } : State).put
      (Reg.WIN_REVOKE_STS.BUSY p) 1 := by
  unfold winRevokeEff
  rw [startRevoke_open _ hi hk hs hg]
  exact if_neg (by simp [hp])

end

theorem completes_winRevoke (s : State) (h : HostId) (p : PartId) (v : Word) (ht : Takes s h (Reg.WIN_REVOKE.off p)) :
    Completes (.winRevoke h p v) s fun t =>
      ((s.win (v.toNat / 4096)).state ≠ 0 → cidPart (s.win (v.toNat / 4096)).cid ≠ p → t = s.put (Reg.WIN_REVOKE_STS.REJ p) 1)
      ∧ (KeyStale s v.toNat → t = s.put (Reg.WIN_REVOKE_STS.REJ p) 1)
      ∧ (v.toNat / 4096 ≠ 0 → v.toNat % 4096 ≠ 0 → (s.win (v.toNat / 4096)).state = 1 → (s.win (v.toNat / 4096)).gen = v.toNat % 4096 →
          cidPart (s.win (v.toNat / 4096)).cid = p →
          t.get (Reg.WIN_REVOKE_STS.BUSY p) = 1 ∧ FieldsBut [Reg.WIN_REVOKE_STS.BUSY p] s t ∧ t.wins.desc = s.wins.desc
          ∧ (s.wins.revs.any (fun r => r.index == v.toNat / 4096) = false →
              t.wins.revs = s.wins.revs ++ [{ index := v.toNat / 4096, waiters := [.reg p] }])
          ∧ (s.wins.revs.any (fun r => r.index == v.toNat / 4096) = true →
              t.wins.revs = s.wins.revs.map (fun r => if r.index = v.toNat / 4096 then { r with waiters := r.waiters ++ [.reg p] } else r)))
      ∧ t = { s with regs := t.regs, wins := t.wins } := by
  refine ⟨winRevokeEff p v s, congrArg Host.Outcome.next (hostWrite_takes _ ht), winRevokeEff_foreign, winRevokeEff_stale,
    fun hi hk hs hg hp => ?_, eq_patch_of_same (winRevokeEff_same ..)⟩
  have hbusy : FieldOk (Reg.WIN_REVOKE_STS.BUSY p) := (by decide : 0 + 1 ≤ 32)
  rw [winRevokeEff_open hi hk hs hg hp]
  exact ⟨get_put_fits _ _ _ hbusy (by decide : 1 < 2 ^ 1),
    fieldsBut_put _ _ (fieldsBut_of_regs (fieldsBut_refl _ s) rfl) hbusy (List.mem_singleton_self _), rfl,
    fun hnew => if_neg (by simp [hnew]), fun hknown => if_pos hknown⟩

/-! REVOCATION_FENCE and ACCESS_COMMITTED -/

/-- The fence point of a revocation of window i is due. -/
abbrev FenceDue (s : State) (i : Nat) : Prop :=
  s.wins.revs.any (fun r => r.index == i && !r.fenced) = true ∧ (s.win i).state = 1

theorem revocationFenceEff_idle {s : State} {i : Nat} (h : ¬ FenceDue s i) : revocationFenceEff i s = s :=
  if_neg (by simpa [FenceDue] using h)

/-- The descriptor of a window at its fence point. -/
abbrev fencedWin (w : Window) : Window := { w with state := 2, gen := nextGen w.gen }

theorem revocationFenceEff_due {s : State} {i : Nat} (h : FenceDue s i) :
    revocationFenceEff i s = { s with wins := { s.wins with
      desc := s.wins.desc.putD i (fencedWin (s.win i)) {}
      revs := s.wins.revs.map (fun r => if r.index = i then { r with fenced := true } else r) } } := by
  obtain ⟨hrev, hopen⟩ := h
  unfold revocationFenceEff
  rw [if_pos (by simpa [hopen] using hrev), setWin_eq (by simp [hopen])]

theorem completes_revocationFence (s : State) (i : BitVec 20) :
    Completes (.revocationFence i) s fun t =>
      (s.wins.revs.any (fun r => r.index == i.toNat && !r.fenced) = false ∨ (s.win i.toNat).state ≠ 1 → t = s)
      ∧ (s.wins.revs.any (fun r => r.index == i.toNat && !r.fenced) = true → (s.win i.toNat).state = 1 →
          t.win i.toNat = { s.win i.toNat with state := 2, gen := if (s.win i.toNat).gen = 4095 then 1 else (s.win i.toNat).gen + 1 }
          ∧ t.wins.revs = s.wins.revs.map (fun r => if r.index = i.toNat then { r with fenced := true } else r)
          ∧ (∀ j : Nat, j ≠ i.toNat → t.win j = s.win j) ∧ t = { s with wins := t.wins }) := by
  refine ⟨revocationFenceEff i.toNat s, rfl, fun hidle => revocationFenceEff_idle ?_, fun hrev hopen => ?_⟩
  · rintro ⟨hrev, hopen⟩
    rcases hidle with hnone | hstate
    · exact absurd hrev (by simp [hnone])
    · exact hstate hopen
  · rw [revocationFenceEff_due ⟨hrev, hopen⟩]
    exact ⟨Sparse.getD_putD_self .., rfl, fun j hj => Sparse.getD_putD_ne _ _ _ _ hj, rfl⟩

theorem accessCommittedEff_eq (i : Nat) (s : State) :
    accessCommittedEff i s = { s with wins := { s.wins with
      desc := s.wins.desc.putD i { s.win i with inflight := (s.win i).inflight - 1 } {} } } := setWin_eq Iff.rfl

theorem completes_accessCommitted (s : State) (i : BitVec 20) :
    Completes (.accessCommitted i) s fun t =>
      t.win i.toNat = { s.win i.toNat with inflight := (s.win i.toNat).inflight - 1 } ∧ (∀ j : Nat, j ≠ i.toNat → t.win j = s.win j)
      ∧ t = { s with wins := { s.wins with desc := t.wins.desc } } := by
  refine ⟨accessCommittedEff i.toNat s, rfl, ?_⟩
  rw [accessCommittedEff_eq]
  exact ⟨Sparse.getD_putD_self .., fun j hj => Sparse.getD_putD_ne _ _ _ _ hj, rfl⟩

/-! WIN_SHARE -/

/-- The shares of all partitions with the one of partition p as a write asks for it. -/
abbrev sharesAsked (s : State) (p : Nat) (v : Word) : Nat :=
  (List.range 64).foldl (fun a q => a + (if q = p then wordField v 0 21 else s.get (Reg.WIN_SHARE.WINDOWS q))) 0

theorem winShareEff_refused {s : State} {p : Nat} {v : Word} (hs : s.pstate p = 1) (hsum : 1048575 < sharesAsked s p v) :
    winShareEff p v s = s.put (Reg.WIN_PSTS.CFG_REJ p) 1 := if_pos ⟨hs, hsum⟩

theorem winShareEff_locked {s : State} {p : PartId} {v : Word} (hs : s.pstate p ≠ 1) :
    winShareEff p v s = s.put (Reg.PART_STS.CFG_REJ p) 1 :=
  (if_neg fun h => hs h.1).trans (applyWrite_locked (regAt_winShare p) v hs)

theorem winShareEff_taken {s : State} {p : PartId} {v : Word} (hs : s.pstate p = 1) (hsum : sharesAsked s p v ≤ 1048575) :
    winShareEff p v s = s.put (Reg.WIN_SHARE.WINDOWS p) (wordField v 0 21) :=
  (if_neg fun h => absurd h.2 (Nat.not_lt.mpr hsum)).trans
    (applyWrite_config (regAt_winShare p) v hs (Nat.le_of_lt_succ (wordField_lt v 0 21)))

theorem completes_winShareWrite (s : State) (h : HostId) (p : PartId) (v : Word) (ht : Takes s h (Reg.WIN_SHARE.off p)) :
    Completes (.winShareWrite h p v) s fun t =>
      (s.pstate p = 1 → 1048575 < sharesAsked s p.val v → t = s.put (Reg.WIN_PSTS.CFG_REJ p) 1)
      ∧ (s.pstate p = 1 → sharesAsked s p.val v ≤ 1048575 →
          t.get (Reg.WIN_SHARE.WINDOWS p) = wordField v 0 21 ∧ FieldsBut [Reg.WIN_SHARE.WINDOWS p] s t)
      ∧ (s.pstate p ≠ 1 → t = s.put (Reg.PART_STS.CFG_REJ p) 1)
      ∧ t = { s with regs := t.regs } := by
  refine ⟨winShareEff p v s, congrArg Host.Outcome.next (hostWrite_takes _ ht), winShareEff_refused, fun hs hsum => ?_, winShareEff_locked,
    eq_patch_of_same (winShareEff_same ..)⟩
  have hfield : FieldOk (Reg.WIN_SHARE.WINDOWS p) := (by decide : 0 + 21 ≤ 32)
  rw [winShareEff_taken hs hsum]
  exact ⟨get_put_fits _ _ _ hfield (wordField_lt v 0 21), fieldsBut_put _ _ (fieldsBut_refl _ s) hfield (List.mem_singleton_self _)⟩

/-! TRIG_BASE and TRIG_NUM -/

/-- A range of trigger slots meets another partition's. -/
abbrev trigClash (s : State) (p b n : Nat) : Bool :=
  (List.range 64).any (fun q => q != p && overlap b n (s.get (Reg.TRIG_BASE.BASE q)) (s.get (Reg.TRIG_NUM.NUM q)))

/-- The first slot of the range that a write asks for. -/
abbrev baseAsked (s : State) (p : Nat) (num : Bool) (v : Word) : Nat := if num then s.get (Reg.TRIG_BASE.BASE p) else wordField v 0 16

/-- The number of slots of the range that a write asks for. -/
abbrev numAsked (s : State) (p : Nat) (num : Bool) (v : Word) : Nat := if num then wordField v 0 17 else s.get (Reg.TRIG_NUM.NUM p)

/-- The field that a write of a trigger range sets. -/
abbrev trigField (p : Nat) (num : Bool) : Fld := if num then Reg.TRIG_NUM.NUM p else Reg.TRIG_BASE.BASE p

section
variable {s : State} {p : PartId} {num : Bool} {v : Word}

theorem trigRangeEff_refused (hs : s.pstate p = 1) (hbad : 65536 < baseAsked s p num v + numAsked s p num v
      ∨ trigClash s p (baseAsked s p num v) (numAsked s p num v) = true) :
    trigRangeEff p num v s = s.put (Reg.WIN_PSTS.CFG_REJ p) 1 :=
  if_pos ⟨hs, by simpa only [Bool.or_eq_true, decide_eq_true_eq] using hbad⟩

theorem trigRangeEff_locked (hs : s.pstate p ≠ 1) : trigRangeEff p num v s = s.put (Reg.PART_STS.CFG_REJ p) 1 := by
  refine (if_neg fun h => hs h.1).trans ?_
  cases num with
  | false => exact applyWrite_locked (regAt_trigBase p) v hs
  | true => exact applyWrite_locked (regAt_trigNum p) v hs

theorem trigRangeEff_taken (hs : s.pstate p = 1) (hfit : baseAsked s p num v + numAsked s p num v ≤ 65536)
    (hclash : trigClash s p (baseAsked s p num v) (numAsked s p num v) = false) :
    trigRangeEff p num v s = s.put (trigField p num) (wordField v 0 (trigField p num).w) := by
  refine (if_neg fun h => ?_).trans ?_
  · have hbad := h.2
    simp only [Bool.or_eq_true, decide_eq_true_eq] at hbad
    rcases hbad with hover | hmeet
    · exact absurd hfit (Nat.not_le.mpr hover)
    · exact absurd hmeet (by simp [hclash])
  · cases num with
    | false => exact applyWrite_config (regAt_trigBase p) v hs (Nat.le_of_lt_succ (wordField_lt v 0 16))
    | true => exact applyWrite_config (regAt_trigNum p) v hs (Nat.le_of_lt_succ (wordField_lt v 0 17))

end

/-- The range that a write asks for is the one that its field's write leaves. -/
theorem get_put_trigField (s : State) (p : Nat) (num : Bool) (v : Word) :
    (s.put (trigField p num) (wordField v 0 (trigField p num).w)).get (Reg.TRIG_BASE.BASE p) = baseAsked s p num v
      ∧ (s.put (trigField p num) (wordField v 0 (trigField p num).w)).get (Reg.TRIG_NUM.NUM p) = numAsked s p num v := by
  have hne : Reg.TRIG_BASE.off p ≠ Reg.TRIG_NUM.off p := by unfold Reg.TRIG_BASE.off Reg.TRIG_NUM.off; omega
  cases num with
  | false => exact ⟨get_put_fits _ _ _ (by decide : 0 + 16 ≤ 32) (wordField_lt v 0 16), get_put_ne _ _ _ _ hne.symm⟩
  | true => exact ⟨get_put_ne _ _ _ _ hne, get_put_fits _ _ _ (by decide : 0 + 17 ≤ 32) (wordField_lt v 0 17)⟩

theorem fieldsBut_put_trigField (s : State) (p : Nat) (num : Bool) (x : Nat) :
    FieldsBut [Reg.TRIG_BASE.BASE p, Reg.TRIG_NUM.NUM p] s (s.put (trigField p num) x) := by
  cases num with
  | false => exact fieldsBut_put _ _ (fieldsBut_refl _ s) (by decide : 0 + 16 ≤ 32) (by simp)
  | true => exact fieldsBut_put _ _ (fieldsBut_refl _ s) (by decide : 0 + 17 ≤ 32) (by simp)

theorem completes_trigRangeWrite (s : State) (h : HostId) (p : PartId) (num : Bool) (v : Word) (b n : Nat)
    (ht : Takes s h (if num then Reg.TRIG_NUM.off p else Reg.TRIG_BASE.off p))
    (hask : b = baseAsked s p num v ∧ n = numAsked s p num v) :
    Completes (.trigRangeWrite h p num v) s fun t =>
      (s.pstate p = 1 → 65536 < b + n → t = s.put (Reg.WIN_PSTS.CFG_REJ p) 1)
      ∧ (s.pstate p = 1 → trigClash s p.val b n = true → t = s.put (Reg.WIN_PSTS.CFG_REJ p) 1)
      ∧ (s.pstate p = 1 → b + n ≤ 65536 → trigClash s p.val b n = false →
          t.get (Reg.TRIG_BASE.BASE p) = b ∧ t.get (Reg.TRIG_NUM.NUM p) = n ∧ FieldsBut [Reg.TRIG_BASE.BASE p, Reg.TRIG_NUM.NUM p] s t)
      ∧ (s.pstate p ≠ 1 → t = s.put (Reg.PART_STS.CFG_REJ p) 1)
      ∧ t = { s with regs := t.regs } := by
  obtain ⟨rfl, rfl⟩ := hask
  refine ⟨trigRangeEff p num v s, congrArg Host.Outcome.next (hostWrite_takes _ ht), fun hs hover => trigRangeEff_refused hs (.inl hover),
    fun hs hmeet => trigRangeEff_refused hs (.inr hmeet), fun hs hfit hclash => ?_, trigRangeEff_locked,
    eq_patch_of_same (trigRangeEff_same ..)⟩
  rw [trigRangeEff_taken hs hfit hclash]
  obtain ⟨hbase, hnum⟩ := get_put_trigField s p num v
  exact ⟨hbase, hnum, fieldsBut_put_trigField s p num _⟩

/-- Settles O31, command by command through the lemmas above. -/
theorem windowRevocationAndShares : Obligations.WindowRevocationAndShares := by
  unfold Obligations.WindowRevocationAndShares
  exact ⟨completes_winRevoke, completes_revocationFence, completes_accessCommitted, completes_winShareWrite, completes_trigRangeWrite⟩

end Sys2Proof.Machine.Proofs
end

section
/-! PROOFS. Fault entries, batches of fault records and the park registers (O30; 07_memory_windows.md R193, R194, R197 to R199, Table 7.7). -/

namespace Sys2Proof.Machine.Proofs

open Laws

/-! Sheepdog's state for a host -/

@[simp] theorem sheep_setSheep_self (s : State) (h : HostId) (x : Sheep) : (s.setSheep h x).sheep h = x := by
  unfold State.setSheep State.sheep
  split <;> rfl

@[simp] theorem sheep_vector (s : State) (h k : HostId) (v : Nat) : (s.vector h v).sheep k = s.sheep k := by
  have hsame := vector_same s h v
  unfold State.sheep
  rw [hsame.sheep0 rfl, hsame.sheep1 rfl]

theorem fieldOk_sheepOutstanding (h : Nat) : FieldOk (Reg.SHEEP_STS.OUTSTANDING h) := (by decide : 0 + 13 ≤ 32)

theorem setSheep_eq (s : State) (h : HostId) (x : Sheep) : ∃ u : State, u.regs = s.regs
    ∧ s.setSheep h x = u.put (Reg.SHEEP_STS.OUTSTANDING h) x.entries.length := by
  refine ⟨_, ?_, rfl⟩
  split <;> rfl

/-- A change of Sheepdog's state shows in SHEEP_STS alone. -/
theorem fieldsBut_setSheep (s : State) (h : HostId) (x : Sheep) : FieldsBut [Reg.SHEEP_STS.OUTSTANDING h] s (s.setSheep h x) := by
  obtain ⟨u, hu, he⟩ := setSheep_eq s h x
  rw [he]
  exact fieldsBut_put _ _ (fieldsBut_of_regs (fieldsBut_refl _ s) hu) (fieldOk_sheepOutstanding h) (List.mem_singleton_self _)

theorem get_setSheep_ne (s : State) (h : HostId) (x : Sheep) {g : Fld} (hne : g.off ≠ Reg.SHEEP_STS.off h) : (s.setSheep h x).get g = s.get g := by
  obtain ⟨u, hu, he⟩ := setSheep_eq s h x
  rw [he, get_put_ne _ _ _ _ hne]
  unfold State.get State.reg
  rw [hu]

/-! SHEEP_RESOLVE with FAIL 0 -/

/-- The outstanding fault entry of a FAULT_ID. -/
abbrev faultOf (s : State) (h : HostId) (i : Nat) : Option FaultEntry := (s.sheep h).entries.find? (fun e => e.id == i)

theorem faultOf_id {s : State} {h : HostId} {i : Nat} {e : FaultEntry} (hf : faultOf s h i = some e) : e.id = i :=
  eq_of_beq (List.find?_some (p := fun e : FaultEntry => e.id == i) hf)

section
variable {s : State} {h : HostId} {i : Nat} {seen : Seen}

theorem sheepResolveEff_none (hf : faultOf (s.see seen) h i = none) :
    sheepResolveEff h i seen s = (s.see seen).count (Reg.SHEEP_RESOLVE_REJ.COUNT h) := by
  unfold faultOf at hf
  unfold sheepResolveEff
  dsimp only
  rw [hf]

variable {e : FaultEntry} (hf : faultOf (s.see seen) h i = some e)
include hf

/-- The fragment entry is read again: the waiters go on, or they move to a new entry. -/
theorem sheepResolveEff_some :
    sheepResolveEff h i seen s =
      if ((s.see seen).fragPresent e).2 = true then
        e.waiters.foldl (fun s w => s.release e.id w)
          (((s.see seen).fragPresent e).1.setSheep h ((((s.see seen).fragPresent e).1.sheep h).remove e.id))
      else ((s.see seen).fragPresent e).1.reopen h e := by
  rw [faultOf_id hf]
  unfold faultOf at hf
  unfold sheepResolveEff
  dsimp only
  rw [hf]
  dsimp only
  generalize (s.see seen).fragPresent e = read
  obtain ⟨u, present⟩ := read
  cases present <;> rfl

end

theorem completes_sheepResolve (s : State) (h : HostId) (i : BitVec 12) (seen : Seen) (ht : Takes s h (Reg.SHEEP_RESOLVE.off h)) :
    Completes (.sheepResolve h i seen) s fun t =>
      (faultOf (s.see seen) h i.toNat = none → t = (s.see seen).count (Reg.SHEEP_RESOLVE_REJ.COUNT h))
      ∧ (∀ e, faultOf (s.see seen) h i.toNat = some e → ((s.see seen).fragPresent e).2 = true →
          t = e.waiters.foldl (fun s w => s.release e.id w)
            (((s.see seen).fragPresent e).1.setSheep h ((((s.see seen).fragPresent e).1.sheep h).remove e.id)))
      ∧ (∀ e, faultOf (s.see seen) h i.toNat = some e → ((s.see seen).fragPresent e).2 = false →
          t = ((s.see seen).fragPresent e).1.reopen h e) :=
  ⟨sheepResolveEff h i.toNat seen s, congrArg Host.Outcome.next (hostWrite_takes _ ht), sheepResolveEff_none,
    fun _ hf hp => (sheepResolveEff_some hf).trans (if_pos hp), fun _ hf hp => (sheepResolveEff_some hf).trans (if_neg (by simp [hp]))⟩

/-! SHEEP_RESOLVE with FAIL 1, and SHEEP_TIMEOUT -/

section
variable {s : State} {h : HostId} {i : Nat}

theorem sheepFailEff_none (hf : faultOf s h i = none) : sheepFailEff h i s = s.count (Reg.SHEEP_RESOLVE_REJ.COUNT h) := by
  unfold faultOf at hf
  unfold sheepFailEff
  rw [hf]

theorem sheepTimeoutEff_none (hf : faultOf s h i = none) : sheepTimeoutEff h i s = s := by
  unfold faultOf at hf
  unfold sheepTimeoutEff
  rw [hf]

variable {e : FaultEntry} (hf : faultOf s h i = some e)
include hf

theorem sheepFailEff_some : sheepFailEff h i s = s.failFault h e := by
  unfold faultOf at hf
  unfold sheepFailEff
  rw [hf]

theorem sheepTimeoutEff_some : sheepTimeoutEff h i s = (s.count (Reg.SHEEP_TIMEOUT_CNT.COUNT h)).failFault h e := by
  unfold faultOf at hf
  unfold sheepTimeoutEff
  rw [hf]

end

/-- An entry without waiters fails where no tile is held: it only goes. -/
theorem failFault_alone {s : State} {h : HostId} {e : FaultEntry} (hw : e.waiters = []) (ht : s.tiles = []) :
    s.failFault h e = s.setSheep h ((s.sheep h).remove e.id) := by
  have htiles : (s.setSheep h ((s.sheep h).remove e.id)).tiles = [] := ((setSheep_same ..).tiles rfl).trans ht
  unfold State.failFault State.parkHeld
  rw [hw, List.foldl_nil, htiles, List.foldl_nil]

theorem completes_sheepFail (s : State) (h : HostId) (i : BitVec 12) (ht : Takes s h (Reg.SHEEP_RESOLVE.off h)) :
    Completes (.sheepFail h i) s fun t =>
      (faultOf s h i.toNat = none → t = s.count (Reg.SHEEP_RESOLVE_REJ.COUNT h))
      ∧ (∀ e, faultOf s h i.toNat = some e → t = s.failFault h e)
      ∧ (∀ e, faultOf s h i.toNat = some e → e.waiters = [] → s.tiles = [] →
          t.sheep h = (s.sheep h).remove e.id ∧ FieldsBut [Reg.SHEEP_STS.OUTSTANDING h] s t
            ∧ t = { s with regs := t.regs, sheep0 := t.sheep0, sheep1 := t.sheep1 })
      ∧ CoreOnly { s with held := t.held, kennel := t.kennel, sheep0 := t.sheep0, sheep1 := t.sheep1, tiles := t.tiles, memsys := t.memsys,
                          freeCtr := t.freeCtr } t := by
  refine ⟨sheepFailEff h i.toNat s, congrArg Host.Outcome.next (hostWrite_takes _ ht), sheepFailEff_none, fun e => sheepFailEff_some,
    fun e hf hw htiles => ?_, eq_patch_of_same (sheepFailEff_same ..)⟩
  rw [sheepFailEff_some hf, failFault_alone hw htiles]
  exact ⟨sheep_setSheep_self .., fieldsBut_setSheep s h _, eq_patch_of_same (setSheep_same ..)⟩

theorem completes_sheepTimeout (s : State) (h : HostId) (i : BitVec 12) :
    Completes (.sheepTimeout h i) s fun t =>
      (faultOf s h i.toNat = none → t = s)
      ∧ (∀ e, faultOf s h i.toNat = some e → t = (s.count (Reg.SHEEP_TIMEOUT_CNT.COUNT h)).failFault h e)
      ∧ CoreOnly { s with held := t.held, kennel := t.kennel, sheep0 := t.sheep0, sheep1 := t.sheep1, tiles := t.tiles, memsys := t.memsys,
                          freeCtr := t.freeCtr } t :=
  ⟨sheepTimeoutEff h i.toNat s, rfl, sheepTimeoutEff_none, fun _ => sheepTimeoutEff_some, eq_patch_of_same (sheepTimeoutEff_same ..)⟩

/-! SHEEP_BATCH_TIMEOUT -/

theorem batchTimeoutEff_empty {s : State} {h : HostId} (hb : (s.sheep h).batch = []) : batchTimeoutEff h s = s := if_pos (by simp [hb])

theorem batchTimeoutEff_open {s : State} {h : HostId} (hb : (s.sheep h).batch ≠ []) :
    batchTimeoutEff h s = s.setSheep h { s.sheep h with closed := true } := if_neg (by simp [hb])

theorem completes_sheepBatchTimeout (s : State) (h : HostId) :
    Completes (.sheepBatchTimeout h) s fun t =>
      ((s.sheep h).batch = [] → t = s)
      ∧ ((s.sheep h).batch ≠ [] → t.sheep h = { s.sheep h with closed := true } ∧ t = s.setSheep h { s.sheep h with closed := true })
      ∧ FieldsBut [Reg.SHEEP_STS.OUTSTANDING h] s t ∧ t = { s with regs := t.regs, sheep0 := t.sheep0, sheep1 := t.sheep1 } := by
  refine ⟨batchTimeoutEff h s, rfl, batchTimeoutEff_empty, fun hb => ?_, ?_, eq_patch_of_same (batchTimeoutEff_same ..)⟩
  · rw [batchTimeoutEff_open hb]
    exact ⟨sheep_setSheep_self .., rfl⟩
  · by_cases hb : (s.sheep h).batch = []
    · rw [batchTimeoutEff_empty hb]
      exact fieldsBut_refl _ s
    · rw [batchTimeoutEff_open hb]
      exact fieldsBut_setSheep s h _

/-! SHEEP_BATCH_WRITE -/

/-- A batch can be written. -/
abbrev BatchReady (s : State) (h : HostId) : Prop :=
  (s.sheep h).closed = true ∧ (s.sheep h).batch ≠ [] ∧ s.sheepRoom h (s.sheep h).batch.length = true

/-- Slots of a host's fault ring. -/
abbrev faultRingSize (s : State) (h : HostId) : Nat := 2 ^ s.get (Reg.SHEEP_RING_CTL.LOG2_SIZE h)

/-- The record of an entry, the last of its batch or not, goes k slots behind SHEEP_PROD. -/
abbrev writeFault (s u : State) (h : HostId) (k : Nat) (e : FaultEntry) (last : Bool) : State :=
  u.writeHost h (s.pair (Reg.SHEEP_RING_LO.BASE_LO h) (Reg.SHEEP_RING_HI.BASE_HI h)
    + 32 * ((s.get (Reg.SHEEP_PROD.INDEX h) + k) % faultRingSize s h)) (e.record (s.sheep h).seq last)

/-- The records of the batch are in the ring. -/
def batchRecords (s : State) (h : HostId) : State :=
  (List.range (s.sheep h).batch.length).foldl (fun u k =>
    match faultOf s h ((s.sheep h).batch.getD k 0) with
    | some e => writeFault s u h k e (k + 1 == (s.sheep h).batch.length)
    | none => u) s

/-- Sheepdog's state once its batch has been written: the records that waited open the next one. -/
def nextBatch (x : Sheep) : Sheep :=
  { x with
    entries := x.entries.map (fun e => if x.batch.contains e.id then { e with written := true } else e)
    batch := x.later.take 64, closed := 64 ≤ (x.later.take 64).length, seq := (x.seq + 1) % 65536, later := x.later.drop 64 }

/-- The end of a batch's write: SHEEP_PROD has moved past its n records, and vector 1 is raised. -/
def batchShown (s u : State) (h : HostId) (n : Nat) : State :=
  ((u.put (Reg.SHEEP_PROD.INDEX h) ((s.get (Reg.SHEEP_PROD.INDEX h) + n) % faultRingSize s h)).setSheep h (nextBatch (s.sheep h))).vector h 1

section
variable {s : State} {h : HostId}

theorem batchWriteEff_idle (hb : ¬ BatchReady s h) : batchWriteEff h s = s := by
  refine if_pos ?_
  by_contra hn
  simp only [Bool.or_eq_true, Bool.not_eq_true', List.isEmpty_iff, not_or, Bool.not_eq_false] at hn
  exact hb ⟨hn.1.1, hn.1.2, hn.2⟩

theorem batchWriteEff_ready (hb : BatchReady s h) : batchWriteEff h s = batchShown s (batchRecords s h) h (s.sheep h).batch.length := by
  obtain ⟨hclosed, hne, hroom⟩ := hb
  exact if_neg (by simp [hclosed, hne, hroom])

theorem sheep_batchShown (s u : State) (h : HostId) (n : Nat) : (batchShown s u h n).sheep h = nextBatch (s.sheep h) := by
  unfold batchShown
  rw [sheep_vector, sheep_setSheep_self]

theorem get_batchShown_prod (s u : State) (h : HostId) (n : Nat) :
    (batchShown s u h n).get (Reg.SHEEP_PROD.INDEX h) = (s.get (Reg.SHEEP_PROD.INDEX h) + n) % faultRingSize s h % 2 ^ 16 := by
  have hlow : (Reg.SHEEP_PROD.INDEX h).off < 0x700000 := by
    have hh := h.isLt
    show 0xD000C + 0x100 * h.val < 0x700000
    omega
  have hne : (Reg.SHEEP_PROD.INDEX h).off ≠ Reg.SHEEP_STS.off h := by
    show 0xD000C + 0x100 * h.val ≠ 0xD001C + 0x100 * h.val
    omega
  unfold batchShown
  rw [(keepsRegs_vector _ _ _).get (Nat.zero_le _) hlow, get_setSheep_ne _ _ _ hne]
  exact get_put_self _ _ _ (by decide : 0 + 16 ≤ 32)

/-- The batch is one record, of an outstanding entry. -/
theorem batchRecords_single {i : Nat} (hb : (s.sheep h).batch = [i]) {e : FaultEntry} (hf : faultOf s h i = some e) :
    batchRecords s h = writeFault s s h 0 e true := by
  unfold batchRecords
  rw [hb]
  simp [hf]

end

theorem completes_sheepBatchWrite (s : State) (h : HostId) :
    Completes (.sheepBatchWrite h) s fun t =>
      ((s.sheep h).closed = false ∨ (s.sheep h).batch = [] ∨ s.sheepRoom h (s.sheep h).batch.length = false → t = s)
      ∧ ((s.sheep h).closed = true → (s.sheep h).batch ≠ [] → s.sheepRoom h (s.sheep h).batch.length = true →
          (t.sheep h).batch = (s.sheep h).later.take 64 ∧ (t.sheep h).later = (s.sheep h).later.drop 64
          ∧ (t.sheep h).seq = ((s.sheep h).seq + 1) % 65536
          ∧ (t.sheep h).entries = (s.sheep h).entries.map (fun e => if (s.sheep h).batch.contains e.id then { e with written := true } else e)
          ∧ t.get (Reg.SHEEP_PROD.INDEX h)
              = (s.get (Reg.SHEEP_PROD.INDEX h) + (s.sheep h).batch.length) % 2 ^ s.get (Reg.SHEEP_RING_CTL.LOG2_SIZE h) % 2 ^ 16)
      ∧ (∀ i, (s.sheep h).batch = [i] → (s.sheep h).closed = true → s.sheepRoom h 1 = true → ∀ e, faultOf s h i = some e →
          t = (((s.writeHost h (s.pair (Reg.SHEEP_RING_LO.BASE_LO h) (Reg.SHEEP_RING_HI.BASE_HI h)
                  + 32 * (s.get (Reg.SHEEP_PROD.INDEX h) % 2 ^ s.get (Reg.SHEEP_RING_CTL.LOG2_SIZE h))) (e.record (s.sheep h).seq true)).put
                (Reg.SHEEP_PROD.INDEX h) ((s.get (Reg.SHEEP_PROD.INDEX h) + 1) % 2 ^ s.get (Reg.SHEEP_RING_CTL.LOG2_SIZE h))).setSheep h
              (t.sheep h)).vector h 1)
      ∧ t = { s with regs := t.regs, host0 := t.host0, host1 := t.host1, sheep0 := t.sheep0, sheep1 := t.sheep1, hostMem0 := t.hostMem0
                     hostMem1 := t.hostMem1, out := t.out } := by
  refine ⟨batchWriteEff h s, rfl, fun hidle => batchWriteEff_idle ?_, fun hclosed hne hroom => ?_, fun i hb hclosed hroom e hf => ?_,
    eq_patch_of_same (batchWriteEff_same ..)⟩
  · rintro ⟨hclosed, hne, hroom⟩
    rcases hidle with h' | h' | h'
    · exact absurd hclosed (by simp [h'])
    · exact hne h'
    · exact absurd hroom (by simp [h'])
  · rw [batchWriteEff_ready ⟨hclosed, hne, hroom⟩, sheep_batchShown]
    exact ⟨rfl, rfl, rfl, rfl, get_batchShown_prod ..⟩
  · have hready : BatchReady s h := ⟨hclosed, by simp [hb], by simpa [hb] using hroom⟩
    rw [batchWriteEff_ready hready, sheep_batchShown, batchRecords_single hb hf, hb]
    rfl

/-! SHEEP_PARK_WRITE -/

/-- The row of a park register: one field, at the top or at the bottom of its word. -/
def parkRow : Fin 3 → RegRow
  | 0 => ⟨"SHEEP_PARK_BASE_LO", 0xC0010, [], .boot, [⟨20, 12, .rw, 0, 0, 4095⟩]⟩
  | 1 => ⟨"SHEEP_PARK_BASE_HI", 0xC0014, [], .boot, [⟨0, 20, .rw, 0, 0, 1048575⟩]⟩
  | 2 => ⟨"SHEEP_PARK_SIZE", 0xC0018, [], .boot, [⟨0, 13, .rw, 0, 0, 8191⟩]⟩

theorem regAt_park (r : Fin 3) : regAt? (parkOff r) = some (parkRow r, []) := by
  match r with
  | 0 => rfl
  | 1 => rfl
  | 2 => rfl

theorem parkRow_plain : ∀ r, PlainReg (parkRow r) ∧ (∀ f ∈ (parkRow r).fields, WholeRow f) := by decide

theorem parkWriteEff_parked {s : State} (off : Nat) (v : Word) (h : s.tiles ≠ []) : parkWriteEff off v s = s.put Reg.WIN_STS.PARK_REJ 1 :=
  if_neg (by simp [h])

theorem parkWriteEff_free {s : State} (r : Fin 3) (v : Word) (h : s.tiles = []) :
    parkWriteEff (parkOff r) v s = s.applyFields (parkRow r) (parkOff r) v := by
  have hfields : (parkRow r).fields.any (fun f => f.acc == .rwl) = false := by
    revert r
    decide
  exact (if_pos (by simp [h])).trans (applyWrite_plain (regAt_park r) hfields v)

theorem completes_sheepParkWrite (s : State) (h : HostId) (r : Fin 3) (v : Word) (ht : Takes s h (parkOff r)) :
    Completes (.sheepParkWrite h r v) s fun t =>
      (s.tiles ≠ [] → t = s.put Reg.WIN_STS.PARK_REJ 1)
      ∧ (s.tiles = [] → RegsBut [parkOff r] s t ∧ t = { s with regs := t.regs }
          ∧ (r = 0 → t.get Reg.SHEEP_PARK_BASE_LO.ADDR_LO = wordField v 20 12)
          ∧ (r = 1 → t.get Reg.SHEEP_PARK_BASE_HI.ADDR_HI = wordField v 0 20)
          ∧ (r = 2 → wordField v 0 13 ≤ 4096 → t.get Reg.SHEEP_PARK_SIZE.UNITS = wordField v 0 13)) := by
  refine ⟨parkWriteEff (parkOff r) v s, congrArg Host.Outcome.next (hostWrite_takes _ ht), parkWriteEff_parked _ v, fun hfree => ?_⟩
  rw [parkWriteEff_free r v hfree]
  obtain ⟨hplain, hwhole⟩ := parkRow_plain r
  have hget (g : FldRow) (hg : g ∈ (parkRow r).fields) := get_applyFields_whole s hplain (parkOff r) v hg (hwhole g hg)
  refine ⟨regsBut_applyFields s _ _ v, rfl, fun hr => ?_, fun hr => ?_, fun hr _ => ?_⟩ <;> subst hr
  · exact hget ⟨20, 12, .rw, 0, 0, 4095⟩ (List.mem_singleton_self _)
  · exact hget ⟨0, 20, .rw, 0, 0, 1048575⟩ (List.mem_singleton_self _)
  · exact hget ⟨0, 13, .rw, 0, 0, 8191⟩ (List.mem_singleton_self _)

/-- Settles O30, command by command through the lemmas above. -/
theorem faultEntriesAndBatches : Obligations.FaultEntriesAndBatches := by
  unfold Obligations.FaultEntriesAndBatches
  exact ⟨completes_sheepResolve, completes_sheepFail, completes_sheepTimeout, completes_sheepBatchTimeout, completes_sheepBatchWrite,
    completes_sheepParkWrite⟩

end Sys2Proof.Machine.Proofs
end

section
/-! PROOFS. Two started ABORTs at one place of their queue (O25; 06_queue_pairs_and_delivery.md R170, Table 6.9). -/

namespace Sys2Proof.Machine.Proofs

/-- A started ABORT, marked as issued, whose target is slot 0 under generation 1 of the send queue of queue pair 5. -/
def issuedAbort : Live :=
  { pos := 0, opcode := 0x30, issued := true, bytes := List.replicate 4 0 ++ [5] ++ List.replicate 23 0 ++ leBytes 4 0x100000 }

/-- A started ABORT at the same place, which names queue pair 0. -/
def strayAbort : Live := { pos := 0, opcode := 0x30, bytes := [] }

/-- A send queue of partition 1 with both of them. -/
def abortQueue : Queue := { cid := 1024, live := [issuedAbort, strayAbort] }

/-- That queue is queue 3. Queue pair 5 sends from it, and there is no queue pair 0. -/
def twoAborts : State :=
  { State.reset with
    queues := [(3, abortQueue)], qps := [(5, { ctx := { qpn := 5, cid := 1024, sq := 3, state := 3 }, place := .resident 0 })] }

/-- The command looks for an ABORT not yet issued and finds the second, whose queue pair does not exist. -/
theorem twoAborts_toIssue : twoAborts.toIssue? 3 0x30 = some (abortQueue, strayAbort) ∧ twoAborts.qp? (entQpn strayAbort.bytes) = none := by
  decide

/-- What acts is the first ABORT at that place, issued or not. Its queue pair exists and its target has started, so it ends with
ABORT_TOO_LATE, which no register counts; the end that the statement gives, MALFORMED_ENTRY, is counted. -/
theorem twoAborts_counted :
    (abortEff 3 twoAborts).get (Reg.HOSTIF_MALFORMED.COUNT 0) = 0
      ∧ (twoAborts.endEntry 3 0 0x10).get (Reg.HOSTIF_MALFORMED.COUNT 0) = 1 := by
  decide +kernel

/-- Refutes O25: its clause about an ABORT of a queue pair that does not exist takes the entry that the command looks up for the one that
acts. `State.abortRun` finds the entry that acts by its place and opcode alone, and the clause is stated of every state, so also of one
where an earlier ABORT stands at the same place. -/
theorem not_localEntries : ¬ Obligations.LocalEntries := by
  unfold Obligations.LocalEntries
  rintro ⟨-, -, -, -, -, -, -, habort⟩
  obtain ⟨t, ht, -, hends, -⟩ := habort twoAborts 3
  obtain ⟨hissue, hqp⟩ := twoAborts_toIssue
  obtain ⟨hmalformed, -⟩ := hends abortQueue strayAbort hissue
  have hacts : abortEff 3 twoAborts = t := Host.Outcome.next.inj ht
  obtain ⟨hzero, hone⟩ := twoAborts_counted
  rw [hacts, hmalformed hqp] at hzero
  exact absurd (hzero.symm.trans hone) (by decide)

end Sys2Proof.Machine.Proofs
end

section
/-! PROOFS. Queues by number (08_host_interface_and_work_queues.md R216, R220): what their own updates, and what the host's memory shows, leave
alone. -/

namespace Sys2Proof.Machine.Proofs

open Laws

theorem queue?_of_queues {s t : State} (h : t.queues = s.queues) (n : Nat) : t.queue? n = s.queue? n := congrArg (Sparse.at? · n) h

@[simp] theorem queue?_setQueue_self (s : State) (n : Nat) (q : Queue) : (s.setQueue n q).queue? n = some q := Sparse.at?_set_self ..

theorem queue?_setQueue_ne (s : State) {n m : Nat} (q : Queue) (h : m ≠ n) : (s.setQueue n q).queue? m = s.queue? m := Sparse.at?_set_ne _ q h

@[simp] theorem queue?_put (s : State) (f : Fld) (x n : Nat) : (s.put f x).queue? n = s.queue? n := rfl

@[simp] theorem queue?_see (s : State) (seen : Seen) (n : Nat) : (s.see seen).queue? n = s.queue? n :=
  queue?_of_queues ((see_same s seen).queues rfl) n

@[simp] theorem queue?_vector (s : State) (h : HostId) (v n : Nat) : (s.vector h v).queue? n = s.queue? n :=
  queue?_of_queues ((vector_same s h v).queues rfl) n

@[simp] theorem get_see (s : State) (seen : Seen) (f : Fld) : (s.see seen).get f = s.get f := get_of_regs ((see_same s seen).regs rfl) f

/-- An armed queue whose vector is raised is disarmed. -/
@[simp] theorem queue?_raiseCq_self (s : State) (n : Nat) (q : Queue) :
    (s.raiseCq n q).queue? n = some { q with armed := false, since := 0 } :=
  (queue?_vector ..).trans (queue?_setQueue_self ..)

theorem modLive_some {s : State} {n : Nat} {q : Queue} (h : s.queue? n = some q) (pos : Nat) (f : Live → Live) :
    s.modLive n pos f = s.setQueue n { q with live := q.live.map (fun l => if l.pos = pos then f l else l) } := by
  unfold State.modLive
  rw [h]

end Sys2Proof.Machine.Proofs
end

section
/-! PROOFS. The start of work entries (O24; 08_host_interface_and_work_queues.md R224, R226, R230, R232; 07 R203; 06 R154, R171): what a
start does with a head, and the operations that act on a started entry. -/

namespace Sys2Proof.Machine.Proofs

open Laws

/-! A queue's head -/

/-- The queue of a number, and the copy of its next entry that it holds. -/
abbrev HasHead (s : State) (n : Nat) (q : Queue) (pos k : Nat) (e : List Byte) : Prop :=
  s.queue? n = some q ∧ q.cached.find? (fun c => c.1 == q.next) = some (pos, k, e)

theorem startEarly_none {s : State} {n : Nat} {q : Queue} (hq : s.queue? n = some q) (hb : q.bypass? = none) : s.startEarly n = s := by
  unfold State.startEarly
  rw [hq]
  dsimp only
  rw [hb]

theorem startHead_unqueued {s : State} {n : Nat} (hq : s.queue? n = none) : s.startHead n = s := by
  unfold State.startHead
  rw [hq]

theorem startHead_unfetched {s : State} {n : Nat} {q : Queue} (hq : s.queue? n = some q) (hf : q.cached.find? (fun c => c.1 == q.next) = none) :
    s.startHead n = s.startEarly n := by
  unfold State.startHead
  rw [hq]
  dsimp only
  rw [hf]

section
variable {s : State} {n : Nat} {q : Queue} {pos k : Nat} {e : List Byte} (hh : HasHead s n q pos k e)
include hh

theorem startHead_head : s.startHead n =
    if s.mayStart n q (leAt e 0 1) then
      if (s.startEntry n q pos k e).2 then (s.startEntry n q pos k e).1 else (s.startEntry n q pos k e).1.startEarly n
    else s.startEarly n := by
  obtain ⟨hq, hf⟩ := hh
  unfold State.startHead
  rw [hq]
  dsimp only
  rw [hf]

theorem startHead_held (hm : s.mayStart n q (leAt e 0 1) = false) : s.startHead n = s.startEarly n := by
  rw [startHead_head hh, hm, if_neg Bool.false_ne_true]

variable (hm : s.mayStart n q (leAt e 0 1) = true)
include hm

/-- A head that leaves the cache ends the start. -/
theorem startHead_leaves {t : State} (ht : s.startEntry n q pos k e = (t, true)) : s.startHead n = t := by
  rw [startHead_head hh, if_pos hm, ht]
  rfl

/-- Behind a head that stays an entry may start early. -/
theorem startHead_stays (ht : s.startEntry n q pos k e = (s, false)) : s.startHead n = s.startEarly n := by
  rw [startHead_head hh, if_pos hm, ht]
  rfl

end

/-! The start of a fetched entry, in the order of its checks -/

/-- What a start makes of an entry whose start condition holds. -/
def startDue (s : State) (n : Nat) (q : Queue) (pos : Nat) (e : List Byte) : State × Bool :=
  let go (c : Option QpCtx) : State × Bool :=
    match s.tablesOk q.cid e with
    | (s, none) => (s.begin n q pos e c, true)
    | (s, some none) => (s, false)
    | (s, some (some st)) => (s.failHead n q pos e st c, true)
  match (if actsOnQp (leAt e 0 1) then s.qpOfQueue? n else none) with
  | some x =>
    if !x.resident then (s.miss x.ctx.qpn, false)
    else if s.kennel.bad.contains x.ctx.qpn then (s.checkCtx x.ctx.qpn, false)
    else if stateOk (leAt e 0 1) x.ctx.state then go ((s.qpOfQueue? n).map (·.ctx)) else (s, false)
  | none => if leAt e 0 1 = 0x40 then (s, false) else go none

/-- What a start makes of an entry that was not aborted and whose copy carries its generation. -/
def startFresh (s : State) (n : Nat) (q : Queue) (pos : Nat) (e : List Byte) : State × Bool :=
  if actsOnQp (leAt e 0 1) && inError (s.qpOfQueue? n) then (s.endUnstarted n q pos e 1, true)
  else if entFence e && !q.live.isEmpty then (s, false)
  else if entMalformed q.type ((s.qpOfQueue? n).map (·.ctx)) e then (s.endUnstarted n q pos e 0x10, true)
  else match s.trigReady (cidPart q.cid) e with
  | none => (s.endUnstarted n q pos e 0x10, true)
  | some false => (s, false)
  | some true => startDue s n q pos e

section
variable {s : State} {n : Nat} {q : Queue} {pos k : Nat} {e : List Byte}

theorem startEntry_aborted (ha : q.aborted.contains pos = true) :
    s.startEntry n q pos k e = ((s.setQueue n { q with aborted := q.aborted.filter (· != pos) }).endUnstarted n
      { q with aborted := q.aborted.filter (· != pos) } pos e 1, true) := if_pos ha

section
variable (ha : q.aborted.contains pos = false)
include ha

theorem startEntry_ahead (hf : q.fresh pos e = false) : s.startEntry n q pos 4 e = (s.endUnstarted n q pos e 0x12, true) := by
  unfold State.startEntry
  rw [if_neg (by rw [ha]; decide), if_neg (by decide), if_pos (by rw [hf]; rfl)]
  rfl

variable (hk : k < 4)
include hk

theorem startEntry_stale (hf : q.fresh pos e = false) : s.startEntry n q pos k e = (s, false) := by
  unfold State.startEntry
  rw [if_neg (by rw [ha]; decide), if_neg (by omega), if_pos (by rw [hf]; rfl), if_neg (by omega)]

theorem startEntry_fresh (hf : q.fresh pos e = true) : s.startEntry n q pos k e = startFresh s n q pos e := by
  unfold State.startEntry
  rw [if_neg (by rw [ha]; decide), if_neg (by omega), if_neg (by rw [hf]; decide)]
  rfl

end

theorem startFresh_inError (h : (actsOnQp (leAt e 0 1) && inError (s.qpOfQueue? n)) = true) :
    startFresh s n q pos e = (s.endUnstarted n q pos e 1, true) := if_pos h

section
variable (hqp : (actsOnQp (leAt e 0 1) && inError (s.qpOfQueue? n)) = false)
include hqp

theorem startFresh_fenced (hf : entFence e = true) (hl : q.live.isEmpty = false) : startFresh s n q pos e = (s, false) := by
  unfold startFresh
  rw [if_neg (by rw [hqp]; decide), if_pos (by rw [hf, hl]; rfl)]

variable (hfree : entFence e = false ∨ q.live.isEmpty = true)
include hfree

theorem startFresh_unfenced : startFresh s n q pos e =
    if entMalformed q.type ((s.qpOfQueue? n).map (·.ctx)) e then (s.endUnstarted n q pos e 0x10, true)
    else match s.trigReady (cidPart q.cid) e with
    | none => (s.endUnstarted n q pos e 0x10, true)
    | some false => (s, false)
    | some true => startDue s n q pos e := by
  unfold startFresh
  rw [if_neg (by rw [hqp]; decide), if_neg]
  rcases hfree with hfence | hlive
  · simp [hfence]
  · simp [hlive]

theorem startFresh_malformed (hbad : entMalformed q.type ((s.qpOfQueue? n).map (·.ctx)) e = true) :
    startFresh s n q pos e = (s.endUnstarted n q pos e 0x10, true) := by
  rw [startFresh_unfenced hqp hfree, if_pos hbad]

variable (hok : entMalformed q.type ((s.qpOfQueue? n).map (·.ctx)) e = false)
include hok

theorem startFresh_badTrigger (ht : s.trigReady (cidPart q.cid) e = none) : startFresh s n q pos e = (s.endUnstarted n q pos e 0x10, true) := by
  rw [startFresh_unfenced hqp hfree, hok, ht]
  rfl

theorem startFresh_waits (ht : s.trigReady (cidPart q.cid) e = some false) : startFresh s n q pos e = (s, false) := by
  rw [startFresh_unfenced hqp hfree, hok, ht]
  rfl

theorem startFresh_due (ht : s.trigReady (cidPart q.cid) e = some true) : startFresh s n q pos e = startDue s n q pos e := by
  rw [startFresh_unfenced hqp hfree, hok, ht]
  rfl

end

/-- An entry that acts on no queue pair and whose tables can be read becomes a started one. -/
theorem startDue_local {v : State} (hop : actsOnQp (leAt e 0 1) = false) (hr : leAt e 0 1 ≠ 0x40) (hv : s.tablesOk q.cid e = (v, none)) :
    startDue s n q pos e = (v.takeEntry n q (v.liveOf q.cid pos e), true) := by
  unfold startDue
  rw [hop, if_neg Bool.false_ne_true, hv]
  exact if_neg hr

end

/-- The newest started entry of a queue that started in order. -/
theorem queue?_takeEntry_next (s : State) (n : Nat) {q : Queue} (l : Live) (hp : l.pos = q.next) (hearly : q.early = []) :
    (s.takeEntry n q l).queue? n
      = some { q with next := q.step q.next 1, cached := q.cached.filter (fun c => c.1 != l.pos), live := q.live ++ [l] } := by
  unfold State.takeEntry
  rw [queue?_setQueue_self, if_pos hp, hearly]
  rfl

/-! The two commands that start a head -/

/-- A command that starts the head of a queue, after what it has seen of the host's memory. -/
abbrev StartsHead (c : Instr) (s : State) (n : Nat) (seen : Seen) : Prop := exec c s = .next ((s.see seen).startHead n)

theorem startsHead_workEntryStart (s : State) (n : BitVec 20) (seen : Seen) : StartsHead (.workEntryStart n seen) s n.toNat seen := rfl

theorem startsHead_triggeredStart {s : State} {n : BitVec 20} (seen : Seen) (h : s.headTriggered n.toNat = true) :
    StartsHead (.triggeredStart n seen) s n.toNat seen := congrArg Host.Outcome.next (if_pos h)

section
variable {c : Instr} {s : State} {n : Nat} {seen : Seen} (hc : StartsHead c s n seen) {v : State} {q : Queue} {pos k : Nat} {e : List Byte}
include hc

/-- The head of a queue that lets it start: aborted before its start, of a pair in ERROR, or stale. -/
theorem completes_start_unstarted
    (hh : s.queue? n = some q ∧ q.cached.find? (fun c => c.1 == q.next) = some (pos, k, e) ∧ (s.see seen).mayStart n q (leAt e 0 1) = true) :
    Completes c s fun t =>
      (q.aborted.contains pos = true →
          t = ((s.see seen).setQueue n { q with aborted := q.aborted.filter (· != pos) }).endUnstarted n
            { q with aborted := q.aborted.filter (· != pos) } pos e 1)
      ∧ (q.aborted.contains pos = false → k < 4 → q.fresh pos e = true →
          (actsOnQp (leAt e 0 1) && inError ((s.see seen).qpOfQueue? n)) = true → t = (s.see seen).endUnstarted n q pos e 1)
      ∧ (q.aborted.contains pos = false → k = 4 → q.fresh pos e = false → t = (s.see seen).endUnstarted n q pos e 0x12)
      ∧ (q.aborted.contains pos = false → k < 4 → q.fresh pos e = false → t = (s.see seen).startEarly n) := by
  obtain ⟨hq, hf, hm⟩ := hh
  have hhead : HasHead (s.see seen) n q pos k e := ⟨(queue?_see ..).trans hq, hf⟩
  refine ⟨_, hc, fun ha => ?_, fun ha hk hfresh herr => ?_, fun ha hk hfresh => ?_, fun ha hk hfresh => ?_⟩
  · exact startHead_leaves hhead hm (startEntry_aborted ha)
  · exact startHead_leaves hhead hm ((startEntry_fresh ha hk hfresh).trans (startFresh_inError herr))
  · subst hk
    exact startHead_leaves hhead hm (startEntry_ahead ha hfresh)
  · exact startHead_stays hhead hm (startEntry_stale ha hk hfresh)

variable (hh : HasHead s n q pos k e)
  (hm : (s.see seen).mayStart n q (leAt e 0 1) = true ∧ q.aborted.contains pos = false ∧ k < 4 ∧ q.fresh pos e = true)
  (hqp : (actsOnQp (leAt e 0 1) && inError ((s.see seen).qpOfQueue? n)) = false)
include hh hm hqp

/-- A current head: fenced, malformed, or with a trigger that is none of its partition's or not yet reached. -/
theorem completes_start_judged :
    Completes c s fun t =>
      (entFence e = true → q.live.isEmpty = false → t = (s.see seen).startEarly n)
      ∧ (entFence e = false ∨ q.live.isEmpty = true → entMalformed q.type (((s.see seen).qpOfQueue? n).map (·.ctx)) e = true →
          t = (s.see seen).endUnstarted n q pos e 0x10)
      ∧ (entFence e = false ∨ q.live.isEmpty = true → entMalformed q.type (((s.see seen).qpOfQueue? n).map (·.ctx)) e = false →
          (s.see seen).trigReady (cidPart q.cid) e = none → t = (s.see seen).endUnstarted n q pos e 0x10)
      ∧ (entFence e = false ∨ q.live.isEmpty = true → entMalformed q.type (((s.see seen).qpOfQueue? n).map (·.ctx)) e = false →
          (s.see seen).trigReady (cidPart q.cid) e = some false → t = (s.see seen).startEarly n) := by
  obtain ⟨hmay, ha, hk, hfresh⟩ := hm
  have hhead : HasHead (s.see seen) n q pos k e := ⟨(queue?_see ..).trans hh.1, hh.2⟩
  have hstart : (s.see seen).startEntry n q pos k e = startFresh (s.see seen) n q pos e := startEntry_fresh ha hk hfresh
  refine ⟨_, hc, fun hfence hl => ?_, fun hfree hbad => ?_, fun hfree hok ht => ?_, fun hfree hok ht => ?_⟩
  · exact startHead_stays hhead hmay (hstart.trans (startFresh_fenced hqp hfence hl))
  · exact startHead_leaves hhead hmay (hstart.trans (startFresh_malformed hqp hfree hbad))
  · exact startHead_leaves hhead hmay (hstart.trans (startFresh_badTrigger hqp hfree hok ht))
  · exact startHead_stays hhead hmay (hstart.trans (startFresh_waits hqp hfree hok ht))

/-- A ready head that acts on no queue pair becomes the newest started entry. -/
theorem completes_start_ready
    (hok : (entFence e = false ∨ q.live.isEmpty = true) ∧ entMalformed q.type (((s.see seen).qpOfQueue? n).map (·.ctx)) e = false)
    (ht : (s.see seen).trigReady (cidPart q.cid) e = some true ∧ actsOnQp (leAt e 0 1) = false ∧ leAt e 0 1 ≠ 0x40)
    (hv : (s.see seen).tablesOk q.cid e = (v, none)) :
    Completes c s fun t =>
      t = v.takeEntry n q (v.liveOf q.cid pos e)
      ∧ (pos = q.next → q.early = [] → t.queue? n = some
          { q with next := q.step q.next 1, cached := q.cached.filter (fun c => c.1 != pos), live := q.live ++ [v.liveOf q.cid pos e] })
      ∧ t = { v with queues := t.queues } := by
  obtain ⟨hmay, ha, hk, hfresh⟩ := hm
  obtain ⟨hfree, hok⟩ := hok
  obtain ⟨htrig, hop, hrecv⟩ := ht
  have hhead : HasHead (s.see seen) n q pos k e := ⟨(queue?_see ..).trans hh.1, hh.2⟩
  have hstart : (s.see seen).startEntry n q pos k e = (v.takeEntry n q (v.liveOf q.cid pos e), true) :=
    (startEntry_fresh ha hk hfresh).trans ((startFresh_due hqp hfree hok htrig).trans (startDue_local hop hrecv hv))
  refine ⟨_, hc, ?_⟩
  rw [startHead_leaves hhead hmay hstart]
  exact ⟨rfl, queue?_takeEntry_next v n (v.liveOf q.cid pos e), eq_patch_of_same (takeEntry_same ..)⟩

end

theorem completes_workEntryStart (s : State) (n : BitVec 20) (seen : Seen) :
    Completes (.workEntryStart n seen) s fun t =>
      (s.queue? n.toNat = none → t = s.see seen)
      ∧ (∀ q, s.queue? n.toNat = some q → q.cached.find? (fun c => c.1 == q.next) = none →
          t = (s.see seen).startEarly n.toNat ∧ (q.bypass? = none → t = s.see seen))
      ∧ (∀ q, s.queue? n.toNat = some q → ∀ pos k e, q.cached.find? (fun c => c.1 == q.next) = some (pos, k, e) →
          (s.see seen).mayStart n.toNat q (leAt e 0 1) = false →
          t = (s.see seen).startEarly n.toNat ∧ (q.bypass? = none → t = s.see seen))
      ∧ t = { s with regs := t.regs, scriv := t.scriv, host0 := t.host0, host1 := t.host1, held := t.held, qps := t.qps, kennel := t.kennel
                     trigs := t.trigs, queues := t.queues, cores := t.cores, collEnds := t.collEnds, ddrBad := t.ddrBad
                     hostMem0 := t.hostMem0, hostMem1 := t.hostMem1, poisoned := t.poisoned, ddr := t.ddr, out := t.out
                     memsys := t.memsys, freeCtr := t.freeCtr } := by
  refine ⟨(s.see seen).startHead n.toNat, rfl, fun hq => ?_, fun q hq hf => ?_, fun q hq pos k e hf hm => ?_,
    eq_patch_of_same (execWorkEntryStart_same n seen s rfl)⟩
  · exact startHead_unqueued ((queue?_see ..).trans hq)
  · have hq' := (queue?_see s seen n.toNat).trans hq
    rw [startHead_unfetched hq' hf]
    exact ⟨rfl, startEarly_none hq'⟩
  · have hq' := (queue?_see s seen n.toNat).trans hq
    rw [startHead_held ⟨hq', hf⟩ hm]
    exact ⟨rfl, startEarly_none hq'⟩

theorem completes_triggeredStart (s : State) (n : BitVec 20) (seen : Seen) :
    Completes (.triggeredStart n seen) s fun t =>
      (s.headTriggered n.toNat = false → t = s) ∧ (s.headTriggered n.toNat = true → t = (s.see seen).startHead n.toNat)
      ∧ t = { s with regs := t.regs, scriv := t.scriv, host0 := t.host0, host1 := t.host1, held := t.held, qps := t.qps, kennel := t.kennel
                     trigs := t.trigs, queues := t.queues, cores := t.cores, collEnds := t.collEnds, ddrBad := t.ddrBad
                     hostMem0 := t.hostMem0, hostMem1 := t.hostMem1, poisoned := t.poisoned, ddr := t.ddr, out := t.out
                     memsys := t.memsys, freeCtr := t.freeCtr } :=
  ⟨_, rfl, fun h => if_neg (by rw [h]; decide), fun h => if_pos h, eq_patch_of_same (execTriggeredStart_same n seen s rfl)⟩

/-! The operations of started entries -/

theorem queue?_of_toIssue? {s : State} {n op : Nat} {q : Queue} {l : Live} (h : s.toIssue? n op = some (q, l)) : s.queue? n = some q := by
  unfold State.toIssue? at h
  split at h
  · next x hx =>
    obtain ⟨_, -, hpair⟩ := Option.map_eq_some_iff.mp h
    rw [hx, (Prod.mk.inj hpair).1]
  · cases h

theorem transportEff_idle {s : State} {op n : Nat} (seen : Seen) (h : s.toIssue? n op = none ∨ s.qpOfQueue? n = none) :
    transportEff op n seen s = s := by
  unfold transportEff
  rcases h with hnone | hnone
  · rw [hnone]
  · rw [hnone]
    cases s.toIssue? n op <;> rfl

theorem transportEff_pumps {s : State} {op n : Nat} (seen : Seen) {x : Qp} (hx : s.qpOfQueue? n = some x) (h : s.toIssue? n op ≠ none) :
    transportEff op n seen s = (s.see seen).pump x.ctx.qpn := by
  obtain ⟨y, hy⟩ := Option.ne_none_iff_exists'.mp h
  unfold transportEff
  rw [hy, hx]

/-- A transport operation pumps the pair of its queue where an entry of its opcode is started. -/
theorem completes_transport {c : Instr} {s : State} {op n : Nat} {seen : Seen} (hc : exec c s = .next (transportEff op n seen s)) :
    Completes c s fun t =>
      (s.toIssue? n op = none ∨ s.qpOfQueue? n = none → t = s)
      ∧ (∀ x, s.qpOfQueue? n = some x → s.toIssue? n op ≠ none → t = (s.see seen).pump x.ctx.qpn)
      ∧ TrafficOnly s t :=
  ⟨_, hc, transportEff_idle seen, fun _ => transportEff_pumps seen, trafficOnly_of_same (transportEff_same ..) (by decide)⟩

theorem nopEff_none {s : State} {n : Nat} (h : s.toIssue? n 0 = none) : nopEff n s = s := by
  unfold nopEff
  rw [h]

theorem nopEff_some {s : State} {n : Nat} {q : Queue} {l : Live} (h : s.toIssue? n 0 = some (q, l)) : nopEff n s = s.endEntry n l.pos 0 := by
  unfold nopEff
  rw [h]

theorem completes_nopEntry (s : State) (n : BitVec 20) :
    Completes (.nopEntry n) s fun t =>
      (s.toIssue? n.toNat 0 = none → t = s)
      ∧ (∀ q l, s.toIssue? n.toNat 0 = some (q, l) → t = s.endEntry n.toNat l.pos 0)
      ∧ CoreOnly s t := by
  have hsame : Same 60750178558010 s (nopEff n.toNat s) := (nopEff_same ..).mono (by decide)
  exact ⟨_, rfl, nopEff_none, fun _ _ => nopEff_some, eq_patch_of_same hsame⟩

theorem recvEff_none {s : State} {n : Nat} (h : s.toIssue? n 0x40 = none) : recvEff n s = s := by
  unfold recvEff
  rw [h]

theorem recvEff_some {s : State} {n : Nat} {q : Queue} {l : Live} (h : s.toIssue? n 0x40 = some (q, l)) :
    recvEff n s = s.setQueue n { q with live := q.live.map (fun x => if x.pos = l.pos then { x with issued := true } else x) } := by
  unfold recvEff
  rw [h]
  exact modLive_some (queue?_of_toIssue? h) ..

theorem completes_recvEntry (s : State) (n : BitVec 20) :
    Completes (.recvEntry n) s fun t =>
      (s.toIssue? n.toNat 0x40 = none → t = s)
      ∧ (∀ q l, s.toIssue? n.toNat 0x40 = some (q, l) →
          t.queue? n.toNat = some { q with live := q.live.map (fun x => if x.pos = l.pos then { x with issued := true } else x) })
      ∧ (∀ m : Nat, (m ≠ n.toNat → t.queue? m = s.queue? m)) ∧ t = { s with queues := t.queues } := by
  refine ⟨recvEff n.toNat s, rfl, recvEff_none, fun q l h => ?_, fun m hm => ?_, eq_patch_of_same (recvEff_same ..)⟩
  · rw [recvEff_some h, queue?_setQueue_self]
  · cases h : s.toIssue? n.toNat 0x40 with
    | none => rw [recvEff_none h]
    | some x => rw [recvEff_some h, queue?_setQueue_ne _ _ hm]

/-- Settles O24, command by command through the lemmas above. -/
theorem entriesStart : Obligations.EntriesStart := by
  unfold Obligations.EntriesStart
  exact ⟨completes_workEntryStart,
    fun s n seen _ _ _ _ => completes_start_judged (startsHead_workEntryStart s n seen),
    fun s _ n seen _ _ _ _ => completes_start_ready (startsHead_workEntryStart s n seen),
    completes_triggeredStart,
    fun _ _ seen _ _ _ _ ht => completes_start_judged (startsHead_triggeredStart seen ht),
    fun _ _ _ seen _ _ _ _ ht => completes_start_ready (startsHead_triggeredStart seen ht),
    fun s n seen _ _ _ _ => completes_start_unstarted (startsHead_workEntryStart s n seen),
    fun _ _ seen _ _ _ _ ht => completes_start_unstarted (startsHead_triggeredStart seen ht),
    fun _ _ _ => completes_transport rfl, fun _ _ _ => completes_transport rfl, fun _ _ _ => completes_transport rfl,
    fun _ _ _ => completes_transport rfl, fun _ _ _ => completes_transport rfl, fun _ _ _ => completes_transport rfl,
    fun _ _ _ => completes_transport rfl, completes_nopEntry, completes_recvEntry⟩

end Sys2Proof.Machine.Proofs
end

section
/-! PROOFS. Doorbells, BAR2 and BAR4 (O42; 08_host_interface_and_work_queues.md R210 to R215, R221 to R223, R237): where a doorbell goes, when a
BAR4 access waits, and the commit of a BAR4 mapping. -/

namespace Sys2Proof.Machine.Proofs

open Laws

/-! A host's port -/

@[simp] theorem setHost_setHost (s : State) (h : HostId) (x y : HostPort) : (s.setHost h x).setHost h y = s.setHost h y := by
  unfold State.setHost
  split <;> rfl

theorem setHost_eq_self {s : State} {h : HostId} {x : HostPort} (hx : x = s.host h) : s.setHost h x = s := by
  subst hx
  unfold State.setHost State.host
  split <;> rfl

@[simp] theorem host_emit (s : State) (o : Output) (h : HostId) : (s.emit o).host h = s.host h := rfl

theorem emit_setHost (s : State) (h : HostId) (x : HostPort) (o : Output) : (s.setHost h x).emit o = (s.emit o).setHost h x := by
  unfold State.setHost
  split <;> rfl

/-! What reaches the device -/

theorem funcOpen_of_barReach {s : State} {h : HostId} (hr : s.barReach h = true) : s.funcOpen h = true := by
  unfold State.barReach at hr
  simp only [Bool.and_eq_true] at hr
  exact hr.1.1

/-- A host whose accesses reach the device has its port up and its function in D0. -/
theorem not_hidden_of_barReach {s : State} {h : HostId} (hr : s.barReach h = true) : ¬ (!s.hostUp h || (s.host h).d3hot) = true := by
  have hopen := funcOpen_of_barReach hr
  unfold State.funcOpen at hopen
  simp only [Bool.and_eq_true, Bool.not_eq_true'] at hopen
  obtain ⟨⟨hup, hd3⟩, -⟩ := hopen
  simp [hup, hd3]

theorem fieldOk_dbRej (h : Nat) : FieldOk (Reg.HOSTIF_DB_REJ.COUNT h) := (by decide : 0 + 32 ≤ 32)

/-- An ignored doorbell is counted. -/
theorem get_dbRej_self (s : State) (h : HostId) :
    (s.dbRej h).get (Reg.HOSTIF_DB_REJ.COUNT h) = min (s.get (Reg.HOSTIF_DB_REJ.COUNT h) + 1) 4294967295 :=
  get_count_self s _ 1 (fieldOk_dbRej h)

/-! Doorbells -/

/-- The queue that a doorbell slot of a page of a partition belongs to. -/
abbrev slotQueue (s : State) (p page slot : Nat) : Option (Nat × Queue) :=
  s.queues.find? (fun e => e.2.cid == p * 1024 + page && e.2.dbSlot == slot)

/-- A field of a doorbell's value is wrong. -/
abbrev BadDoorbell (q : Queue) (cid : Nat) (v : BitVec 64) : Prop :=
  bits v.toNat 32 16 ≠ cid ∨ q.size ≤ bits v.toNat 0 24 ∨ bits v.toNat 24 8 = 0 ∨ bits v.toNat 48 15 ≠ 0
    ∨ (bitAt v.toNat 63 = true ∧ q.type ≠ 2)

/-- The position that a doorbell's value names. -/
abbrev doorbellPos (q : Queue) (v : BitVec 64) : Nat := q.pos (bits v.toNat 0 24) (bits v.toNat 24 8)

/-- A doorbell of a work queue whose fields are in order. -/
def rungWq (s : State) (h : HostId) (n : Nat) (q : Queue) (d : Nat) : State :=
  if q.size < q.dist q.fetch d then s.dbRej h
  else if q.dist q.fetch q.posted < q.dist q.fetch d then s.setQueue n { q with posted := d }
  else s

/-- A completion queue that its doorbell has read up to a position, and armed. -/
def readTo (q : Queue) (d : Nat) (arm : Bool) : Queue :=
  if arm then { q with read := d, armed := true, since := 0 } else { q with read := d }

/-- A doorbell of a completion queue whose fields are in order. -/
def rungCq (s : State) (h : HostId) (n : Nat) (q : Queue) (d : Nat) (arm : Bool) : State :=
  if q.unread < q.dist q.read d then s.dbRej h
  else
    (if arm && (readTo q d arm).write != (readTo q d arm).read then (s.setQueue n (readTo q d arm)).raiseCq n (readTo q d arm)
      else s.setQueue n (readTo q d arm)).cqDrain n (readTo q d arm).waiting.length

/-- A doorbell at a slot of a page of the host's own. -/
def doorbellAt (s : State) (h : HostId) (p page slot : Nat) (v : BitVec 64) : State :=
  match slotQueue s p page slot with
  | none => s.dbRej h
  | some (n, q) =>
    if BadDoorbell q (p * 1024 + page) v then s.dbRej h
    else if q.type = 2 then rungCq s h n q (doorbellPos q v) (bitAt v.toNat 63)
    else rungWq s h n q (doorbellPos q v)

section
variable {s : State} {h : HostId} {page slot : Nat} {v : BitVec 64} (hr : s.barReach h = true)
include hr

theorem doorbell_nowhere (hpage : s.inP2 = true ∨ s.instPart? page = none) : s.doorbell h page slot v = s.dbRej h := by
  unfold State.doorbell
  rw [if_neg (not_hidden_of_barReach hr)]
  rcases hpage with hp2 | hnone
  · exact if_pos hp2
  · rw [hnone]
    exact ite_self _

variable {p : Nat} (hp : s.instPart? page = some p)
include hp

theorem doorbell_foreign (ho : s.owner p ≠ h) : s.doorbell h page slot v = s.dbRej h := by
  unfold State.doorbell
  rw [if_neg (not_hidden_of_barReach hr), hp]
  dsimp only
  rw [if_pos ho]
  exact ite_self _

theorem doorbell_own (hp2 : s.inP2 = false) (ho : s.owner p = h) :
    s.doorbell h page slot v = doorbellAt s h p page slot v := by
  unfold State.doorbell
  rw [if_neg (not_hidden_of_barReach hr), hp2, if_neg Bool.false_ne_true, hp]
  dsimp only
  rw [if_neg (not_not_intro ho)]
  rfl

theorem doorbell_unslotted (hf : s.owner p ≠ h ∨ slotQueue s p page slot = none) : s.doorbell h page slot v = s.dbRej h := by
  by_cases ho : s.owner p = h
  · cases hp2 : s.inP2 with
    | true => exact doorbell_nowhere hr (.inl hp2)
    | false =>
      rw [doorbell_own hr hp hp2 ho, doorbellAt, hf.resolve_left (not_not_intro ho)]
  · exact doorbell_foreign hr hp ho

end

section
variable {s : State} {h : HostId} {p page slot n : Nat} {q : Queue} {v : BitVec 64} (hf : slotQueue s p page slot = some (n, q))
include hf

theorem doorbellAt_bad (hbad : BadDoorbell q (p * 1024 + page) v) : doorbellAt s h p page slot v = s.dbRej h := by
  unfold doorbellAt
  rw [hf]
  exact if_pos hbad

variable (hok : ¬ BadDoorbell q (p * 1024 + page) v)
include hok

theorem doorbellAt_wq (ht : q.type ≠ 2) : doorbellAt s h p page slot v = rungWq s h n q (doorbellPos q v) := by
  unfold doorbellAt
  rw [hf]
  exact (if_neg hok).trans (if_neg ht)

theorem doorbellAt_cq (ht : q.type = 2) : doorbellAt s h p page slot v = rungCq s h n q (doorbellPos q v) (bitAt v.toNat 63) := by
  unfold doorbellAt
  rw [hf]
  exact (if_neg hok).trans (if_pos ht)

end

section
variable {s : State} {h : HostId} {n : Nat} {q : Queue} {d : Nat}

theorem rungWq_beyond (hd : q.size < q.dist q.fetch d) : rungWq s h n q d = s.dbRej h := if_pos hd

theorem rungWq_forward (hd : q.dist q.fetch d ≤ q.size) (hnew : q.dist q.fetch q.posted < q.dist q.fetch d) :
    rungWq s h n q d = s.setQueue n { q with posted := d } := (if_neg (by omega)).trans (if_pos hnew)

theorem rungWq_back (hd : q.dist q.fetch d ≤ q.size) (hold : q.dist q.fetch d ≤ q.dist q.fetch q.posted) : rungWq s h n q d = s :=
  (if_neg (by omega)).trans (if_neg (by omega))

theorem rungCq_beyond (arm : Bool) (hd : q.unread < q.dist q.read d) : rungCq s h n q d arm = s.dbRej h := if_pos hd

variable (hd : q.dist q.read d ≤ q.unread)
include hd

theorem rungCq_unarmed : rungCq s h n q d false = (s.setQueue n { q with read := d }).cqDrain n q.waiting.length := if_neg (by omega)

variable (hw : q.waiting = [])
include hw

theorem rungCq_armed_read (hall : q.write = d) : rungCq s h n q d true = s.setQueue n { q with read := d, armed := true, since := 0 } := by
  refine (if_neg (by omega)).trans ?_
  simp [readTo, hall, hw, State.cqDrain]

/-- Completions that stand unread raise the vector at once. -/
theorem rungCq_armed_unread (hleft : q.write ≠ d) :
    rungCq s h n q d true = (s.setQueue n { q with read := d, armed := true, since := 0 }).raiseCq n
      { q with read := d, armed := true, since := 0 } := by
  refine (if_neg (by omega)).trans ?_
  simp [readTo, hleft, hw, State.cqDrain]

end

/-- Both doorbell rows are a doorbell that the function may keep out. -/
abbrev IsDoorbell (c : Instr) (h : HostId) (page : BitVec 10) (slot : Fin 512) (v : BitVec 64) : Prop :=
  ∀ s, exec c s = .next (doorbellEff h page slot v s)

section
variable {c : Instr} {s : State} {h : HostId} {page : BitVec 10} {slot : Fin 512} {v : BitVec 64} (hc : IsDoorbell c h page slot v)
include hc

theorem IsDoorbell.exec_reach (hr : s.barReach h = true) : exec c s = .next (s.doorbell h page.toNat slot v) :=
  (hc s).trans (congrArg Host.Outcome.next (if_pos hr))

theorem completes_doorbell_nowhere :
    Completes c s fun t =>
      (s.barReach h = false → t = s)
      ∧ (s.barReach h = true → (s.inP2 = true ∨ s.instPart? page.toNat = none) → t = s.dbRej h)
      ∧ (s.barReach h = true → ∀ p, s.instPart? page.toNat = some p →
          (s.owner p ≠ h ∨ slotQueue s p page.toNat slot.val = none → t = s.dbRej h))
      ∧ (t = s.dbRej h → t.get (Reg.HOSTIF_DB_REJ.COUNT h) = min (s.get (Reg.HOSTIF_DB_REJ.COUNT h) + 1) 4294967295 ∧ t = { s with regs := t.regs })
      ∧ t = { s with regs := t.regs, scriv := t.scriv, host0 := t.host0, host1 := t.host1, queues := t.queues, cores := t.cores
                     ddrBad := t.ddrBad, hostMem0 := t.hostMem0, hostMem1 := t.hostMem1, ddr := t.ddr, out := t.out } := by
  refine ⟨_, hc s, fun hr => if_neg (by rw [hr]; decide), fun hr hpage => ?_, fun hr p hp hf => ?_, fun ht => ?_,
    eq_patch_of_same (doorbellEff_same ..)⟩
  · exact (if_pos hr).trans (doorbell_nowhere hr hpage)
  · exact (if_pos hr).trans (doorbell_unslotted hr hp hf)
  · rw [ht]
    exact ⟨get_dbRej_self s h, rfl⟩

variable {p n : Nat} {q : Queue} (hown : s.barReach h = true ∧ s.inP2 = false ∧ s.instPart? page.toNat = some p ∧ s.owner p = h)
include hown

theorem exec_doorbell_own : exec c s = .next (doorbellAt s h p page.toNat slot v) := by
  obtain ⟨hr, hp2, hp, ho⟩ := hown
  rw [hc.exec_reach hr, doorbell_own hr hp hp2 ho]

theorem completes_doorbell_wq (hf : slotQueue s p page.toNat slot.val = some (n, q) ∧ q.type ≠ 2) :
    Completes c s fun t =>
      (bits v.toNat 32 16 ≠ p * 1024 + page.toNat ∨ q.size ≤ bits v.toNat 0 24 ∨ bits v.toNat 24 8 = 0 ∨ bits v.toNat 48 15 ≠ 0
          ∨ bitAt v.toNat 63 = true → t = s.dbRej h)
      ∧ (bits v.toNat 32 16 = p * 1024 + page.toNat → bits v.toNat 0 24 < q.size → bits v.toNat 24 8 ≠ 0 → bits v.toNat 48 15 = 0 →
          bitAt v.toNat 63 = false →
          (q.size < q.dist q.fetch (doorbellPos q v) → t = s.dbRej h)
          ∧ (q.dist q.fetch (doorbellPos q v) ≤ q.size → q.dist q.fetch q.posted < q.dist q.fetch (doorbellPos q v) →
              t.queue? n = some { q with posted := doorbellPos q v } ∧ t = { s with queues := t.queues })
          ∧ (q.dist q.fetch (doorbellPos q v) ≤ q.size → q.dist q.fetch (doorbellPos q v) ≤ q.dist q.fetch q.posted → t = s)) := by
  obtain ⟨hf, ht⟩ := hf
  refine ⟨_, exec_doorbell_own hc hown, fun hbad => ?_, fun hcid hindex hgen hres harm => ?_⟩
  · exact doorbellAt_bad hf (by tauto)
  · rw [doorbellAt_wq hf (by simp [hcid, hindex, hgen, hres, harm]) ht]
    refine ⟨rungWq_beyond, fun hd hnew => ?_, rungWq_back⟩
    rw [rungWq_forward hd hnew]
    exact ⟨queue?_setQueue_self .., rfl⟩

theorem completes_doorbell_cq (hf : slotQueue s p page.toNat slot.val = some (n, q) ∧ q.type = 2) :
    Completes c s fun t =>
      (bits v.toNat 32 16 ≠ p * 1024 + page.toNat ∨ q.size ≤ bits v.toNat 0 24 ∨ bits v.toNat 24 8 = 0 ∨ bits v.toNat 48 15 ≠ 0 → t = s.dbRej h)
      ∧ (bits v.toNat 32 16 = p * 1024 + page.toNat → bits v.toNat 0 24 < q.size → bits v.toNat 24 8 ≠ 0 → bits v.toNat 48 15 = 0 →
          (q.unread < q.dist q.read (doorbellPos q v) → t = s.dbRej h)
          ∧ (q.dist q.read (doorbellPos q v) ≤ q.unread → q.waiting = [] → bitAt v.toNat 63 = false →
              t.queue? n = some { q with read := doorbellPos q v } ∧ t = { s with queues := t.queues })
          ∧ (q.dist q.read (doorbellPos q v) ≤ q.unread → q.waiting = [] → bitAt v.toNat 63 = true → q.write = doorbellPos q v →
              t.queue? n = some { q with read := doorbellPos q v, armed := true, since := 0 } ∧ t = { s with queues := t.queues })
          ∧ (q.dist q.read (doorbellPos q v) ≤ q.unread → q.waiting = [] → bitAt v.toNat 63 = true → q.write ≠ doorbellPos q v →
              t = ((s.setQueue n { q with read := doorbellPos q v, armed := true, since := 0 }).raiseCq n
                { q with read := doorbellPos q v, armed := true, since := 0 })
              ∧ t.queue? n = some { q with read := doorbellPos q v, armed := false, since := 0 })
          ∧ (q.dist q.read (doorbellPos q v) ≤ q.unread → bitAt v.toNat 63 = false →
              t = (s.setQueue n { q with read := doorbellPos q v }).cqDrain n q.waiting.length)) := by
  obtain ⟨hf, ht⟩ := hf
  refine ⟨_, exec_doorbell_own hc hown, fun hbad => ?_, fun hcid hindex hgen hres => ?_⟩
  · exact doorbellAt_bad hf (by tauto)
  · rw [doorbellAt_cq hf (by simp [hcid, hindex, hgen, hres, ht]) ht]
    refine ⟨rungCq_beyond _, fun hd hw harm => ?_, fun hd hw harm hall => ?_, fun hd hw harm hleft => ?_, fun hd harm => ?_⟩
    · rw [harm, rungCq_unarmed hd, hw]
      exact ⟨queue?_setQueue_self .., rfl⟩
    · rw [harm, rungCq_armed_read hd hw hall]
      exact ⟨queue?_setQueue_self .., rfl⟩
    · rw [harm, rungCq_armed_unread hd hw hleft]
      exact ⟨rfl, queue?_raiseCq_self ..⟩
    · rw [harm, rungCq_unarmed hd]

end

/-! BAR2 -/

section
variable {s : State} {h : HostId} {off size : Nat}

theorem bar2BadEff_closed (write : Bool) (hf : s.funcOpen h = false) : bar2BadEff h write off size s = s := if_pos (by rw [hf]; rfl)

theorem bar2BadEff_read (hf : s.funcOpen h = true) :
    bar2BadEff h false off size s = s.emit (.readData h 2 off (List.replicate size (if s.barReach h then 0 else 0xFF))) :=
  if_neg (by rw [hf]; decide)

theorem bar2BadEff_write (hf : s.funcOpen h = true) :
    bar2BadEff h true off size s = if s.barReach h = false ∨ (size = 8 ∧ off % 8 = 0) then s else s.dbRej h := if_neg (by rw [hf]; decide)

end

theorem completes_bar2BadAccess (s : State) (h : HostId) (write : Bool) (off : BitVec 22) (size : Nat) :
    Completes (.bar2BadAccess h write off size) s fun t =>
      (s.funcOpen h = false → t = s)
      ∧ (s.funcOpen h = true → write = false →
          t.out = s.out ++ [.readData h 2 off.toNat (List.replicate size (if s.barReach h then 0 else 0xFF))] ∧ t = { s with out := t.out })
      ∧ (s.barReach h = false → write = true → t = s)
      ∧ (s.barReach h = true → write = true → size = 8 → off.toNat % 8 = 0 → t = s)
      ∧ (s.barReach h = true → write = true → (size ≠ 8 ∨ off.toNat % 8 ≠ 0) →
          t.get (Reg.HOSTIF_DB_REJ.COUNT h) = min (s.get (Reg.HOSTIF_DB_REJ.COUNT h) + 1) 4294967295
          ∧ FieldsBut [Reg.HOSTIF_DB_REJ.COUNT h] s t ∧ t = { s with regs := t.regs }) := by
  refine ⟨bar2BadEff h write off.toNat size s, rfl, bar2BadEff_closed write, fun hf hw => ?_, fun hr hw => ?_, fun hr hw hsize halign => ?_,
    fun hr hw hbad => ?_⟩ <;> subst hw
  · rw [bar2BadEff_read hf]
    exact ⟨rfl, rfl⟩
  · cases hf : s.funcOpen h with
    | false => exact bar2BadEff_closed true hf
    | true => exact (bar2BadEff_write hf).trans (if_pos (.inl hr))
  · exact (bar2BadEff_write (funcOpen_of_barReach hr)).trans (if_pos (.inr ⟨hsize, halign⟩))
  · rw [bar2BadEff_write (funcOpen_of_barReach hr), if_neg (by simp only [hr]; tauto)]
    exact ⟨get_dbRej_self s h, fieldsBut_count _ _ (fieldsBut_refl _ s) (fieldOk_dbRej h) (List.mem_singleton_self _), rfl⟩

/-! BAR4 accesses -/

/-- A host's first waiting BAR4 request stands under the mapping in force. -/
def b4Queued (s : State) (h : HostId) (r : B4Req) : State := s.setHost h { s.host h with b4Wait := [((s.host h).b4, r)] }

/-- The host no longer waits for a BAR4 request. -/
def b4Served (s : State) (h : HostId) : State := s.setHost h { s.host h with b4Wait := [] }

section
variable {s : State} {h : HostId} {r : B4Req} (hw : (s.host h).b4Wait = [])
include hw

theorem b4Arrive_alone : s.b4Arrive h r = (b4Queued s h r).b4Serve h 1 := by
  unfold State.b4Arrive b4Queued
  rw [hw]
  simp

theorem b4Served_queued : b4Served (b4Queued s h r) h = s := by
  unfold b4Served b4Queued
  rw [setHost_setHost, host_setHost_self]
  exact setHost_eq_self (by rw [← hw])

theorem b4Arrive_waits (hr : (b4Queued s h r).b4Do h (s.host h).b4 r = none) : s.b4Arrive h r = b4Queued s h r := by
  rw [b4Arrive_alone hw]
  unfold State.b4Serve
  rw [show ((b4Queued s h r).host h).b4Wait = [((s.host h).b4, r)] from by rw [b4Queued, host_setHost_self]]
  dsimp only
  rw [hr]

theorem b4Arrive_done {y : State} (hr : (b4Queued s h r).b4Do h (s.host h).b4 r = some y) : s.b4Arrive h r = b4Served y h := by
  rw [b4Arrive_alone hw]
  unfold State.b4Serve
  rw [show ((b4Queued s h r).host h).b4Wait = [((s.host h).b4, r)] from by rw [b4Queued, host_setHost_self]]
  dsimp only
  rw [hr]
  rfl

/-- A request that is answered without a change of the device waits for nothing. -/
theorem b4Arrive_emits {o : Output} (hr : (b4Queued s h r).b4Do h (s.host h).b4 r = some ((b4Queued s h r).emit o)) : s.b4Arrive h r = s.emit o := by
  rw [b4Arrive_done hw hr]
  unfold b4Served
  rw [host_emit, ← emit_setHost]
  exact congrArg (State.emit · o) (b4Served_queued hw)

end

theorem b4Do_read_disabled (s : State) (h : HostId) {b : B4Map} (off size : Nat) (hb : b.enable = false) :
    s.b4Do h b (.read off size) = some (s.emit (.readData h 4 off (List.replicate size 0xFF))) := if_pos (by rw [hb]; rfl)

theorem b4Do_write_disabled (s : State) (h : HostId) {b : B4Map} (off : Nat) (bytes : List Byte) (hb : b.enable = false) :
    s.b4Do h b (.write off bytes) = some s := if_pos (by rw [hb]; rfl)

/-- A read that is done is answered. -/
theorem b4Do_read_emits {s y : State} {h : HostId} {b : B4Map} {off size : Nat} (hy : s.b4Do h b (.read off size) = some y) :
    ∃ u o, y = State.emit u o := by
  simp only [State.b4Do] at hy
  split at hy
  · exact ⟨_, _, (Option.some.inj hy).symm⟩
  · split at hy
    · exact ⟨_, _, (Option.some.inj hy).symm⟩
    · cases hy

theorem host_b4Served (s : State) (h : HostId) : ((b4Served s h).host h).b4Wait = [] := by
  unfold b4Served
  rw [host_setHost_self]

theorem out_b4Served (s : State) (h : HostId) : (b4Served s h).out = s.out := setHost_out ..

theorem bar4ReadEff_closed {s : State} {h : HostId} (off size : Nat) (hf : s.funcOpen h = false) : bar4ReadEff h off size s = s :=
  if_pos (by rw [hf]; rfl)

theorem bar4ReadEff_unreached {s : State} {h : HostId} (off size : Nat) (hf : s.funcOpen h = true) (hr : s.barReach h = false) :
    bar4ReadEff h off size s = s.emit (.readData h 4 off (List.replicate size 0xFF)) :=
  (if_neg (by rw [hf]; decide)).trans (if_pos (by rw [hr]; rfl))

theorem bar4ReadEff_arrives {s : State} {h : HostId} (off size : Nat) (hr : s.barReach h = true) :
    bar4ReadEff h off size s = s.b4Arrive h (.read off size) :=
  (if_neg (by rw [funcOpen_of_barReach hr]; decide)).trans (if_neg (by rw [hr]; decide))

theorem bar4WriteEff_arrives {s : State} {h : HostId} (off : Nat) (bytes : List Byte) (hr : s.barReach h = true) :
    bar4WriteEff h off bytes s = s.b4Arrive h (.write off bytes) := if_neg (by rw [hr]; decide)

theorem completes_bar4Read (s : State) (h : HostId) (off : BitVec 28) (size : Nat) :
    Completes (.bar4Read h off size) s fun t =>
      (s.funcOpen h = false → t = s)
      ∧ (s.funcOpen h = true → s.barReach h = false →
          t.out = s.out ++ [.readData h 4 off.toNat (List.replicate size 0xFF)] ∧ t = { s with out := t.out })
      ∧ (s.barReach h = true → (s.host h).b4Wait = [] → (s.host h).b4.enable = false →
          t.out = s.out ++ [.readData h 4 off.toNat (List.replicate size 0xFF)] ∧ t = { s with out := t.out })
      ∧ t = { s with regs := t.regs, scriv := t.scriv, host0 := t.host0, host1 := t.host1, cores := t.cores, ddrBad := t.ddrBad
                     hostMem0 := t.hostMem0, hostMem1 := t.hostMem1, ddr := t.ddr, out := t.out, freeCtr := t.freeCtr } := by
  refine ⟨bar4ReadEff h off.toNat size s, rfl, bar4ReadEff_closed _ _, fun hf hr => ?_, fun hr hw hb => ?_, eq_patch_of_same (bar4ReadEff_same ..)⟩
  · rw [bar4ReadEff_unreached _ _ hf hr]
    exact ⟨rfl, rfl⟩
  · rw [bar4ReadEff_arrives _ _ hr, b4Arrive_emits hw (b4Do_read_disabled _ _ _ _ hb)]
    exact ⟨rfl, rfl⟩

theorem completes_bar4Read_tried (s u : State) (h : HostId) (off : BitVec 28) (size : Nat) (r : Option State)
    (hr : s.barReach h = true ∧ (s.host h).b4Wait = [])
    (hu : u = b4Queued s h (.read off.toNat size) ∧ u.b4Do h (s.host h).b4 (.read off.toNat size) = r) :
    Completes (.bar4Read h off size) s fun t =>
      (r = none → t = u ∧ (t.host h).b4Wait = [((s.host h).b4, .read off.toNat size)])
      ∧ (∀ y, r = some y → t = y.setHost h { y.host h with b4Wait := [] } ∧ (t.host h).b4Wait = [] ∧ (t.out.getLast?).isSome = true) := by
  obtain ⟨hr, hw⟩ := hr
  obtain ⟨rfl, hdo⟩ := hu
  refine ⟨bar4ReadEff h off.toNat size s, rfl, fun hnone => ?_, fun y hy => ?_⟩
  · rw [bar4ReadEff_arrives _ _ hr, b4Arrive_waits hw (hdo.trans hnone)]
    exact ⟨rfl, by rw [b4Queued, host_setHost_self]⟩
  · have hdone := hdo.trans hy
    rw [bar4ReadEff_arrives _ _ hr, b4Arrive_done hw hdone]
    obtain ⟨z, o, rfl⟩ := b4Do_read_emits hdone
    exact ⟨rfl, host_b4Served .., by rw [out_b4Served]; simp [State.emit]⟩

theorem completes_bar4Write (s : State) (h : HostId) (off : BitVec 28) (bytes : List Byte) :
    Completes (.bar4Write h off bytes) s fun t =>
      (s.barReach h = false → t = s)
      ∧ (s.barReach h = true → (s.host h).b4Wait = [] → (s.host h).b4.enable = false → t = s)
      ∧ t = { s with regs := t.regs, scriv := t.scriv, host0 := t.host0, host1 := t.host1, cores := t.cores, ddrBad := t.ddrBad
                     hostMem0 := t.hostMem0, hostMem1 := t.hostMem1, ddr := t.ddr, out := t.out, freeCtr := t.freeCtr } := by
  refine ⟨bar4WriteEff h off.toNat bytes s, rfl, fun hr => if_pos (by rw [hr]; rfl), fun hr hw hb => ?_, eq_patch_of_same (bar4WriteEff_same ..)⟩
  rw [bar4WriteEff_arrives _ _ hr, b4Arrive_done hw (b4Do_write_disabled _ _ _ _ hb), b4Served_queued hw]

theorem completes_bar4Write_tried (s u : State) (h : HostId) (off : BitVec 28) (bytes : List Byte) (r : Option State)
    (hr : s.barReach h = true ∧ (s.host h).b4Wait = [])
    (hu : u = b4Queued s h (.write off.toNat bytes) ∧ u.b4Do h (s.host h).b4 (.write off.toNat bytes) = r) :
    Completes (.bar4Write h off bytes) s fun t =>
      (r = none → t = u ∧ (t.host h).b4Wait = [((s.host h).b4, .write off.toNat bytes)])
      ∧ (∀ y, r = some y → t = y.setHost h { y.host h with b4Wait := [] } ∧ (t.host h).b4Wait = []) := by
  obtain ⟨hr, hw⟩ := hr
  obtain ⟨rfl, hdo⟩ := hu
  refine ⟨bar4WriteEff h off.toNat bytes s, rfl, fun hnone => ?_, fun y hy => ?_⟩
  · rw [bar4WriteEff_arrives _ _ hr, b4Arrive_waits hw (hdo.trans hnone)]
    exact ⟨rfl, by rw [b4Queued, host_setHost_self]⟩
  · rw [bar4WriteEff_arrives _ _ hr, b4Arrive_done hw (hdo.trans hy)]
    exact ⟨rfl, host_b4Served ..⟩

/-! B4_CTL_COMMIT -/

/-- The row of HOSTIF_B4_CTL_LO. -/
def b4CtlRow : RegRow := ⟨"HOSTIF_B4_CTL_LO", Reg.HOSTIF_B4_CTL_LO.off 0, [(2, 0x10000)], .host 0,
  [⟨0, 1, .rw, 0, 0, 1⟩, ⟨1, 2, .rw, 1, 0, 3⟩, ⟨4, 6, .rw, 0, 0, 63⟩, ⟨20, 12, .rw, 0, 0, 4095⟩]⟩

theorem regAt_b4Ctl (h : HostId) : regAt? (Reg.HOSTIF_B4_CTL_LO.off h) = some (b4CtlRow, [h.val]) := by
  match h with
  | 0 => rfl
  | 1 => rfl

theorem b4CtlRow_plain : PlainReg b4CtlRow := by decide

/-- HOSTIF_B4_CTL_LO after a write. -/
def b4CtlSet (s : State) (h : HostId) (v : Word) : State := s.applyFields b4CtlRow (Reg.HOSTIF_B4_CTL_LO.off h) v

theorem applyWrite_b4Ctl (s : State) (h : HostId) (v : Word) : s.applyWrite (Reg.HOSTIF_B4_CTL_LO.off h) v = b4CtlSet s h v :=
  applyWrite_plain (regAt_b4Ctl h) (by decide) v

theorem get_b4CtlSet_partition (s : State) (h : HostId) (v : Word) :
    (b4CtlSet s h v).get (Reg.HOSTIF_B4_CTL_LO.PARTITION h) = wordField v 4 6 :=
  get_applyFields_whole s b4CtlRow_plain _ v (g := ⟨4, 6, .rw, 0, 0, 63⟩) (by simp [b4CtlRow]) (by decide)

/-- The mapping that a write of HOSTIF_B4_CTL_LO asks for. -/
abbrev b4Asked (s : State) (h : HostId) (v : Word) : B4Map :=
  { enable := v.getLsbD 0, space := wordField v 1 2, part := wordField v 4 6
    offset := wordField v 20 12 * 2 ^ 20 + s.get (Reg.HOSTIF_B4_CTL_HI.OFFSET_HI h) * 2 ^ 32 }

/-- A mapping that is refused: of a partition that is not the host's, of a reserved space, or of device DDR outside a region. -/
abbrev B4Refused (s : State) (h : HostId) (b : B4Map) : Prop :=
  s.owns h b.part = false ∨ b.space = 0 ∨ b.space = 3 ∨ (b.enable = true ∧ b.space = 1 ∧ s.inRegion b.part b.offset 1 = false)

theorem b4Refused_iff (s : State) (h : HostId) (b : B4Map) :
    (!s.owns h b.part || b.space == 0 || b.space == 3 || (b.enable && b.space == 1 && !s.inRegion b.part b.offset 1)) = true ↔ B4Refused s h b := by
  simp [or_assoc, and_assoc]

theorem not_b4Refused {s : State} {h : HostId} {b : B4Map} (ho : s.owns h b.part = true)
    (hs : b.space = 2 ∨ b.space = 1 ∧ (b.enable = false ∨ s.inRegion b.part b.offset 1 = true)) : ¬ B4Refused s h b := by
  rcases hs with hs | ⟨hs, he | hr⟩
  · simp [ho, hs]
  · simp [ho, hs, he]
  · simp [ho, hs, hr]

theorem b4CommitEff_refused {s : State} {h : HostId} {v : Word} (hb : B4Refused s h (b4Asked s h v)) :
    b4CommitEff h v s = s.put (Reg.HOSTIF_B4_STS.CFG_REJ h) 1 := if_pos ((b4Refused_iff s h (b4Asked s h v)).mpr hb)

theorem b4CommitEff_taken {s : State} {h : HostId} {v : Word} (hb : ¬ B4Refused s h (b4Asked s h v)) :
    b4CommitEff h v s = (b4CtlSet s h v).setHost h { s.host h with b4 := b4Asked s h v } := by
  refine (if_neg (mt (b4Refused_iff s h (b4Asked s h v)).mp hb)).trans ?_
  rw [applyWrite_b4Ctl]
  rfl

theorem completes_b4CtlCommit (s : State) (h : HostId) (v : Word) (space part offset : Nat)
    (ht : Takes s h (Reg.HOSTIF_B4_CTL_LO.off h) ∧ space = wordField v 1 2 ∧ part = wordField v 4 6)
    (ho : offset = wordField v 20 12 * 2 ^ 20 + s.get (Reg.HOSTIF_B4_CTL_HI.OFFSET_HI h) * 2 ^ 32) :
    Completes (.b4CtlCommit h v) s fun t =>
      (s.owns h part = false ∨ space = 0 ∨ space = 3 ∨ (v.getLsbD 0 = true ∧ space = 1 ∧ s.inRegion part offset 1 = false) →
          t.get (Reg.HOSTIF_B4_STS.CFG_REJ h) = 1 ∧ FieldsBut [Reg.HOSTIF_B4_STS.CFG_REJ h] s t ∧ t = { s with regs := t.regs })
      ∧ (s.owns h part = true → (space = 2 ∨ space = 1 ∧ (v.getLsbD 0 = false ∨ s.inRegion part offset 1 = true)) →
          (t.host h).b4 = { enable := v.getLsbD 0, space := space, part := part, offset := offset }
          ∧ t.get (Reg.HOSTIF_B4_CTL_LO.PARTITION h) = part
          ∧ RegsBut [Reg.HOSTIF_B4_CTL_LO.off h] s t ∧ t = { s with regs := t.regs, host0 := t.host0, host1 := t.host1 }) := by
  obtain ⟨ht, rfl, rfl⟩ := ht
  subst ho
  have hfield : FieldOk (Reg.HOSTIF_B4_STS.CFG_REJ h) := (by decide : 0 + 1 ≤ 32)
  refine ⟨b4CommitEff h v s, congrArg Host.Outcome.next (hostWrite_takes _ ht), fun hbad => ?_, fun howns hspace => ?_⟩
  · rw [b4CommitEff_refused hbad]
    exact ⟨get_put_fits _ _ _ hfield (by decide : 1 < 2 ^ 1), fieldsBut_put _ _ (fieldsBut_refl _ s) hfield (List.mem_singleton_self _), rfl⟩
  · have hsame := b4CommitEff_same h v s
    rw [b4CommitEff_taken (not_b4Refused howns hspace)] at hsame ⊢
    refine ⟨by rw [host_setHost_self], ?_, ?_, eq_patch_of_same hsame⟩
    · rw [get_setHost]
      exact get_b4CtlSet_partition s h v
    · exact regsBut_of_regs (regsBut_applyFields s b4CtlRow _ v) (setHost_regs ..)

/-- Settles O42, command by command through the lemmas above. -/
theorem doorbellsAndWindows : Obligations.DoorbellsAndWindows := by
  unfold Obligations.DoorbellsAndWindows
  exact ⟨fun _ _ _ _ _ => completes_doorbell_nowhere (fun _ => rfl),
    fun _ _ _ _ _ _ _ _ => completes_doorbell_wq (fun _ => rfl),
    fun _ _ _ _ _ => completes_doorbell_nowhere (fun _ => rfl),
    fun _ _ _ _ _ _ _ _ => completes_doorbell_cq (fun _ => rfl),
    completes_bar2BadAccess, completes_bar4Read, completes_bar4Read_tried, completes_bar4Write, completes_bar4Write_tried,
    completes_b4CtlCommit⟩

end Sys2Proof.Machine.Proofs
end

section
/-! PROOFS. Memory accesses and the registers below the MEM block (14_memory_system.md R390, 18_errors_and_telemetry.md R470), and reads that
answer. -/

namespace Sys2Proof.Machine.Proofs

open Laws

theorem keepsRegs_reportUe (s : State) (line : Nat) (scrub : Bool) : KeepsRegs 0 0x500000 s (s.reportUe line scrub) := by
  have hue (c : Nat) : 0x500000 ≤ (Reg.MEM_CH_UE.COUNT c).off := Nat.le_add_right_of_le (by decide)
  have hlo (c : Nat) : 0x500000 ≤ (Reg.MEM_CH_UE_ADDR_LO.ADDR_LO c).off := Nat.le_add_right_of_le (by decide)
  have hhi (c : Nat) : 0x500000 ≤ Reg.MEM_CH_UE_ADDR_HI.off c := Nat.le_add_right_of_le (by decide)
  have hshown (t : State) (c a x : Nat) (ht : KeepsRegs 0 0x500000 s t) : KeepsRegs 0 0x500000 s
      (((((t.put (Reg.MEM_CH_UE_ADDR_LO.ADDR_LO c) a).put (Reg.MEM_CH_UE_ADDR_HI.ADDR_HI c) (a / 2 ^ 32)).put
        (Reg.MEM_CH_UE_ADDR_HI.SCRUB c) x).count (Reg.TELEM_FIT_FAIL.COUNT 3))) :=
    (((ht.put _ _ (.inr (hlo c))).put _ _ (.inr (hhi c))).put _ _ (.inr (hhi c))).put _ _ (.inr (by decide))
  unfold State.reportUe
  extract_lets +onlyGivenNames a
  split
  · exact keepsRegs_refl _ _ s
  · refine KeepsRegs.trans (hshown _ _ _ _ ?_) ((keepsRegs_event _ _ _).mono (Nat.le_refl _) (by decide))
    split
    · exact keepsRegs_refl _ _ s
    · exact (keepsRegs_refl _ _ s).put _ _ (.inr (hue _))

theorem keepsRegs_ddrWrite (s : State) (a : Nat) (bs : List Byte) : KeepsRegs 0 0x500000 s (s.ddrWrite a bs).1 := by
  unfold State.ddrWrite
  extract_lets +onlyGivenNames n
  split
  · exact keepsRegs_reportUe _ _ _
  · exact (keepsRegs_refl _ _ s).of_regs rfl

theorem keepsRegs_sysWrite (s : State) (a : Nat) (bs : List Byte) : KeepsRegs 0 0x500000 s (s.sysWrite a bs) := by
  rw [sysWrite_body]
  beta_reduce
  split
  · exact keepsRegs_refl _ _ s
  · exact keepsRegs_ddrWrite _ _ _

theorem state_of_ddrRead_ok {s t : State} {a n : Nat} {bs : List Byte} (h : s.ddrRead a n = (t, .ok bs)) : t = s := by
  unfold State.ddrRead at h
  split at h
  · exact nomatch (Prod.mk.inj h).2
  · exact (Prod.mk.inj h).1.symm

/-- A read that answers leaves the state as it is. -/
theorem state_of_memReadC_ok {s t : State} {cid space a n : Nat} {bs : List Byte} (h : s.memReadC cid space a n = (t, .ok bs)) : t = s := by
  unfold State.memReadC at h
  split at h
  · exact nomatch (Prod.mk.inj h).2
  · split at h
    · dsimp only at h
      split at h
      · exact nomatch (Prod.mk.inj h).2
      · exact (Prod.mk.inj h).1.symm
    · exact state_of_ddrRead_ok h
    · exact (Prod.mk.inj h).1.symm

@[simp] theorem owner_see (s : State) (seen : Seen) (p : Nat) : (s.see seen).owner p = s.owner p := by
  unfold State.owner
  rw [get_see]

end Sys2Proof.Machine.Proofs
end

section
/-! PROOFS. Queue commands, DCINV, entry fetches, re-fetches and the moderation timer (O43; 08_host_interface_and_work_queues.md R216 to R219,
R224 to R226, R237). -/

namespace Sys2Proof.Machine.Proofs

open Laws

/-! The word written -/

theorem toNat_qcmdWord {op : Nat} (hop : op < 8) (q : BitVec 20) : (qcmdWord op q).toNat = 2 ^ 31 + op * 2 ^ 20 + q.toNat := by
  have hq : q.toNat < 2 ^ 20 := q.isLt
  unfold qcmdWord
  rw [BitVec.toNat_ofNat]
  omega

theorem qcmdWord_queue {op : Nat} (hop : op < 8) (q : BitVec 20) : wordField (qcmdWord op q) 0 20 = q.toNat := by
  have hq : q.toNat < 2 ^ 20 := q.isLt
  rw [wordField_eq_bits, toNat_qcmdWord hop]
  omega

theorem qcmdWord_op {op : Nat} (hop : op < 8) (q : BitVec 20) : wordField (qcmdWord op q) 20 3 = op := by
  have hq : q.toNat < 2 ^ 20 := q.isLt
  rw [wordField_eq_bits, toNat_qcmdWord hop]
  omega

theorem qcmdWord_go {op : Nat} (hop : op < 8) (q : BitVec 20) : wordField (qcmdWord op q) 31 1 = 1 := by
  have hq : q.toNat < 2 ^ 20 := q.isLt
  rw [wordField_eq_bits, toNat_qcmdWord hop]
  omega

/-! The registers of a command, and what is no part of them -/

theorem fieldOk_qcmdQueue (h : Nat) : FieldOk (Reg.HOSTIF_QCMD.QUEUE h) := (by decide : 0 + 20 ≤ 32)

theorem fieldOk_qcmdOp (h : Nat) : FieldOk (Reg.HOSTIF_QCMD.OP h) := (by decide : 20 + 3 ≤ 32)

theorem fieldOk_qcmdDone (h : Nat) : FieldOk (Reg.HOSTIF_QCMD_STS.DONE h) := (by decide : 1 + 1 ≤ 32)

theorem fieldOk_qcmdResult (h : Nat) : FieldOk (Reg.HOSTIF_QCMD_STS.RESULT h) := (by decide : 4 + 4 ≤ 32)

theorem qcmdSts_off_lt (h : HostId) : Reg.HOSTIF_QCMD_STS.off h < 0x700000 := by
  unfold Reg.HOSTIF_QCMD_STS.off
  omega

/-- The end of a command shows its result. -/
theorem get_qcmdEnd_result (s : State) (h : HostId) {r : Nat} (hr : r < 16) : (s.qcmdEnd h r).get (Reg.HOSTIF_QCMD_STS.RESULT h) = r := by
  unfold State.qcmdEnd
  rw [(keepsRegs_vector _ _ _).get (Nat.zero_le _) (qcmdSts_off_lt h)]
  exact get_put_fits _ _ _ (fieldOk_qcmdResult h) hr

theorem get_qcmdEnd_done (s : State) (h : HostId) (r : Nat) : (s.qcmdEnd h r).get (Reg.HOSTIF_QCMD_STS.DONE h) = 1 := by
  unfold State.qcmdEnd
  rw [(keepsRegs_vector _ _ _).get (Nat.zero_le _) (qcmdSts_off_lt h),
    get_put_disjoint _ _ _ _ (fieldOk_qcmdResult h) (fieldOk_qcmdDone h) (.inr (.inr (by decide : 1 + 1 ≤ 4)))]
  exact get_put_fits _ _ _ (fieldOk_qcmdDone h) (by decide : 1 < 2 ^ 1)

theorem queues_qcmdEnd (s : State) (h : HostId) (r : Nat) : (s.qcmdEnd h r).queues = s.queues := (qcmdEnd_same s h r).queues rfl

theorem queues_putDesc (s : State) (n : Nat) (bs : List Byte) : (s.putDesc n bs).queues = s.queues := (putDesc_same s n bs).queues rfl

@[simp] theorem queue?_qcmdEnd (s : State) (h : HostId) (r n : Nat) : (s.qcmdEnd h r).queue? n = s.queue? n :=
  queue?_of_queues (queues_qcmdEnd s h r) n

@[simp] theorem queue?_putDesc (s : State) (m : Nat) (bs : List Byte) (n : Nat) : (s.putDesc m bs).queue? n = s.queue? n :=
  queue?_of_queues (queues_putDesc s m bs) n

/-- The host's HOSTIF_QCMD reads as before. -/
def KeepsQcmd (h : HostId) (s t : State) : Prop := t.reg (Reg.HOSTIF_QCMD.off h) = s.reg (Reg.HOSTIF_QCMD.off h)

theorem KeepsQcmd.refl (h : HostId) (s : State) : KeepsQcmd h s s := rfl

theorem KeepsQcmd.trans {h : HostId} {s t u : State} (hst : KeepsQcmd h s t) (htu : KeepsQcmd h t u) : KeepsQcmd h s u := Eq.trans htu hst

theorem KeepsQcmd.put {h : HostId} {s t : State} (hk : KeepsQcmd h s t) (f : Fld) (x : Nat) (hf : Reg.HOSTIF_QCMD.off h ≠ f.off) :
    KeepsQcmd h s (t.put f x) := hk.trans (reg_put_ne t f x hf)

theorem KeepsQcmd.get {h : HostId} {s t : State} (hk : KeepsQcmd h s t) {f : Fld} (hf : f.off = Reg.HOSTIF_QCMD.off h) : t.get f = s.get f := by
  unfold State.get
  rw [hf, hk]

theorem KeepsQcmd.ite {c : Prop} [Decidable c] {h : HostId} {s t u : State} (ht : KeepsQcmd h s t) (hu : KeepsQcmd h s u) :
    KeepsQcmd h s (if c then t else u) := by
  split
  · exact ht
  · exact hu

theorem keepsQcmd_of_regs {s t : State} (e : t.regs = s.regs) (h : HostId) : KeepsQcmd h s t := by
  unfold KeepsQcmd State.reg
  rw [e]

theorem keepsQcmd_of_keepsRegs {s t : State} (hk : KeepsRegs 0 0x500000 s t) (h : HostId) : KeepsQcmd h s t :=
  hk _ (Nat.zero_le _) (by unfold Reg.HOSTIF_QCMD.off; omega)

theorem keepsQcmd_qcmdEnd (s : State) (h : HostId) (r : Nat) : KeepsQcmd h s (s.qcmdEnd h r) := by
  have hsts : Reg.HOSTIF_QCMD.off h ≠ Reg.HOSTIF_QCMD_STS.off h := by unfold Reg.HOSTIF_QCMD.off Reg.HOSTIF_QCMD_STS.off; omega
  unfold State.qcmdEnd
  exact ((((KeepsQcmd.refl h s).put (Reg.HOSTIF_QCMD_STS.BUSY h) 0 hsts).put (Reg.HOSTIF_QCMD_STS.DONE h) 1 hsts).put
    (Reg.HOSTIF_QCMD_STS.RESULT h) r hsts).trans (keepsQcmd_of_regs ((vector_same ..).regs rfl) h)

theorem keepsQcmd_setQueue (s : State) (h : HostId) (n : Nat) (q : Queue) : KeepsQcmd h s (s.setQueue n q) := keepsQcmd_of_regs rfl h

theorem keepsQcmd_putDesc (s : State) (h : HostId) (n : Nat) (bs : List Byte) : KeepsQcmd h s (s.putDesc n bs) :=
  keepsQcmd_of_keepsRegs (keepsRegs_sysWrite _ _ _) h

theorem qcmd_ne_qsts (h : HostId) : Reg.HOSTIF_QCMD.off h ≠ Reg.HOSTIF_QSTS.off := by
  unfold Reg.HOSTIF_QCMD.off Reg.HOSTIF_QSTS.off
  omega

theorem keepsQcmd_dropQueue (s : State) (h : HostId) (n : Nat) : KeepsQcmd h s (s.dropQueue n) := by
  have hdel : KeepsQcmd h s { s with queues := s.queues.del n } := keepsQcmd_of_regs rfl h
  exact (hdel.trans (keepsQcmd_putDesc ..)).put _ _ (qcmd_ne_qsts h)

theorem keepsQcmd_queueCreate (s : State) (h : HostId) (n : Nat) (img : List Byte) : KeepsQcmd h s (s.queueCreate h n img) := by
  have hnew (q : Queue) (bs : List Byte) (x : Nat) : KeepsQcmd h s ((((s.setQueue n q).putDesc n bs).put Reg.HOSTIF_QSTS.QUEUES x).qcmdEnd h 0) :=
    (((keepsQcmd_setQueue ..).trans (keepsQcmd_putDesc ..)).put _ _ (qcmd_ne_qsts h)).trans (keepsQcmd_qcmdEnd ..)
  have hend (r : Nat) : KeepsQcmd h s (s.qcmdEnd h r) := keepsQcmd_qcmdEnd ..
  unfold State.queueCreate
  refine KeepsQcmd.ite (hend 1) ?_
  refine KeepsQcmd.ite (hend 3) ?_
  cases queueOf img with
  | none => exact hend 2
  | some x =>
    refine KeepsQcmd.ite (hend 2) ?_
    refine KeepsQcmd.ite (hend 4) ?_
    dsimp only
    generalize (if x.type = 0 then s.shadowRoom? x.shadowBytes else some 0) = o
    cases o with
    | none => exact hend 4
    | some o => exact hnew ..

theorem keepsQcmd_queueModify (s : State) (h : HostId) (n : Nat) (img : List Byte) : KeepsQcmd h s (s.queueModify h n img) := by
  have hnew (q : Queue) (bs : List Byte) : KeepsQcmd h s (((s.setQueue n q).putDesc n bs).qcmdEnd h 0) :=
    ((keepsQcmd_setQueue ..).trans (keepsQcmd_putDesc ..)).trans (keepsQcmd_qcmdEnd ..)
  unfold State.queueModify
  split
  · exact keepsQcmd_qcmdEnd ..
  · split
    · exact keepsQcmd_qcmdEnd ..
    · split
      · exact keepsQcmd_qcmdEnd ..
      · dsimp only
        split
        · exact keepsQcmd_qcmdEnd ..
        · exact hnew ..

theorem keepsQcmd_queueQuery (s : State) (h : HostId) (n a : Nat) : KeepsQcmd h s (s.queueQuery h n a) := by
  have hwrite (bs : List Byte) : KeepsQcmd h s (s.writeHost h a bs) := keepsQcmd_of_regs ((writeHost_same ..).regs rfl) h
  unfold State.queueQuery
  split
  · exact keepsQcmd_qcmdEnd ..
  · split
    · exact keepsQcmd_qcmdEnd ..
    · exact (hwrite _).trans (keepsQcmd_qcmdEnd ..)

theorem keepsQcmd_queueDestroy (s : State) (h : HostId) (n : Nat) : KeepsQcmd h s (s.queueDestroy h n) := by
  unfold State.queueDestroy
  split
  · exact keepsQcmd_qcmdEnd ..
  · split
    · exact keepsQcmd_qcmdEnd ..
    · split
      · exact keepsQcmd_qcmdEnd ..
      · exact (keepsQcmd_dropQueue ..).trans (keepsQcmd_qcmdEnd ..)

/-! What a command's write does -/

/-- The state in which a HOSTIF_QCMD write shows its queue and operation. -/
def qcmdTaken (s : State) (h : HostId) (op : Nat) (q : BitVec 20) : State :=
  (s.put (Reg.HOSTIF_QCMD.QUEUE h) (wordField (qcmdWord op q) 0 20)).put (Reg.HOSTIF_QCMD.OP h) op

/-- The address of a command's image. -/
abbrev qcmdAddr (u : State) (h : HostId) : Nat := u.pair (Reg.HOSTIF_QCMD_ADDR_LO.ADDR_LO h) (Reg.HOSTIF_QCMD_ADDR_HI.ADDR_HI h)

/-- The image of a command. -/
abbrev qcmdImage (u : State) (h : HostId) : List Byte := u.hostRead h (qcmdAddr u h) 32

/-- A command that is taken. -/
def qcmdRuns (u : State) (h : HostId) (op n : Nat) : State :=
  match op with
  | 1 => u.queueCreate h n (qcmdImage u h)
  | 2 => u.queueModify h n (qcmdImage u h)
  | 3 => u.queueQuery h n (qcmdAddr u h)
  | 4 => u.queueDestroy h n
  | _ => u.qcmdEnd h 2

theorem keepsQcmd_qcmdRuns (u : State) (h : HostId) (op n : Nat) : KeepsQcmd h u (qcmdRuns u h op n) := by
  unfold qcmdRuns
  split
  · exact keepsQcmd_queueCreate ..
  · exact keepsQcmd_queueModify ..
  · exact keepsQcmd_queueQuery ..
  · exact keepsQcmd_queueDestroy ..
  · exact keepsQcmd_qcmdEnd ..

theorem inP2_qcmdTaken (s : State) (h : HostId) (op : Nat) (q : BitVec 20) : (qcmdTaken s h op q).inP2 = s.inP2 := by
  have hne : Reg.TALLY_STS.off ≠ Reg.HOSTIF_QCMD.off h := by unfold Reg.TALLY_STS.off Reg.HOSTIF_QCMD.off; omega
  unfold State.inP2 qcmdTaken
  rw [get_put_ne _ _ _ _ hne, get_put_ne _ _ _ _ hne]

section
variable {op : Nat} (hop : op < 8) (s : State) (h : HostId) (q : BitVec 20)
include hop

theorem get_qcmdTaken_queue : (qcmdTaken s h op q).get (Reg.HOSTIF_QCMD.QUEUE h) = q.toNat := by
  unfold qcmdTaken
  rw [get_put_disjoint _ _ _ _ (fieldOk_qcmdOp h) (fieldOk_qcmdQueue h) (.inr (.inr (by decide : 0 + 20 ≤ 20))), qcmdWord_queue hop]
  exact get_put_fits _ _ _ (fieldOk_qcmdQueue h) q.isLt

theorem get_qcmdTaken_op : (qcmdTaken s h op q).get (Reg.HOSTIF_QCMD.OP h) = op := get_put_fits _ _ _ (fieldOk_qcmdOp h) hop

end

section
variable {s : State} {h : HostId} {op : Nat} (hop : op < 8) (q : BitVec 20) (seen : Seen)
include hop

theorem qcmdEff_busy (hb : s.flag (Reg.HOSTIF_QCMD_STS.BUSY h) = true) : qcmdEff h (qcmdWord op q) seen s = qcmdTaken s h op q := by
  unfold qcmdEff
  rw [qcmdWord_op hop]
  exact if_pos (.inr hb)

variable (hb : s.flag (Reg.HOSTIF_QCMD_STS.BUSY h) = false)
include hb

theorem qcmdEff_P2 (hp : s.inP2 = true) : qcmdEff h (qcmdWord op q) seen s = (qcmdTaken s h op q).qcmdEnd h 1 := by
  unfold qcmdEff
  rw [qcmdWord_op hop, qcmdWord_go hop]
  exact (if_neg (by simp [hb])).trans (if_pos ((inP2_qcmdTaken ..).trans hp))

theorem qcmdEff_runs (hp : s.inP2 = false) :
    qcmdEff h (qcmdWord op q) seen s = qcmdRuns ((qcmdTaken s h op q).see seen) h op q.toNat := by
  have hp' : ¬ (qcmdTaken s h op q).inP2 = true := by rw [inP2_qcmdTaken, hp]; decide
  unfold qcmdTaken at hp' ⊢
  unfold qcmdEff
  rw [qcmdWord_op hop, qcmdWord_go hop]
  refine (if_neg (by simp [hb])).trans ((if_neg hp').trans ?_)
  dsimp only
  rw [qcmdWord_queue hop]
  rfl

end

/-- Whatever else a command does, HOSTIF_QCMD shows what was written. -/
theorem keepsQcmd_qcmdEff {op : Nat} (hop : op < 8) (s : State) (h : HostId) (q : BitVec 20) (seen : Seen) :
    KeepsQcmd h (qcmdTaken s h op q) (qcmdEff h (qcmdWord op q) seen s) := by
  cases hb : s.flag (Reg.HOSTIF_QCMD_STS.BUSY h) with
  | true =>
    rw [qcmdEff_busy hop q seen hb]
    exact KeepsQcmd.refl ..
  | false =>
    cases hp : s.inP2 with
    | true =>
      rw [qcmdEff_P2 hop q seen hb hp]
      exact keepsQcmd_qcmdEnd ..
    | false =>
      rw [qcmdEff_runs hop q seen hb hp]
      exact (keepsQcmd_of_regs ((see_same ..).regs rfl) h).trans (keepsQcmd_qcmdRuns ..)

/-- What a command leaves as it is. -/
theorem qcmd_patch_of_same {s t : State} (hst : Same 69269236744250 s t) :
    t = { s with regs := t.regs, scriv := t.scriv, host0 := t.host0, host1 := t.host1, queues := t.queues, ddrBad := t.ddrBad
                 hostMem0 := t.hostMem0, hostMem1 := t.hostMem1, poisoned := t.poisoned, ddr := t.ddr, out := t.out } :=
  eq_patch_of_same hst

/-- A command is a write of its word to the host's HOSTIF_QCMD. -/
abbrev IsQcmd (c : Instr) (h : HostId) (op : Nat) (q : BitVec 20) (seen : Seen) : Prop :=
  ∀ s, exec c s = .next (s.hostWrite h (Reg.HOSTIF_QCMD.off h) (qcmdEff h (qcmdWord op q) seen))

section
variable {c : Instr} {h : HostId} {op : Nat} {q : BitVec 20} {seen : Seen} (hc : IsQcmd c h op q seen) (hop : op < 8) {s u : State}
include hc

theorem IsQcmd.exec_takes (ht : Takes s h (Reg.HOSTIF_QCMD.off h)) : exec c s = .next (qcmdEff h (qcmdWord op q) seen s) :=
  (hc s).trans (congrArg Host.Outcome.next (hostWrite_takes _ ht))

include hop

/-- While BUSY a command only sets its fields; in P2 it ends with result 1. -/
theorem completes_qcmd_shows (ht : Takes s h (Reg.HOSTIF_QCMD.off h)) (hu : u = qcmdTaken s h op q) :
    Completes c s fun t =>
      (s.flag (Reg.HOSTIF_QCMD_STS.BUSY h) = true → t = u)
      ∧ (s.flag (Reg.HOSTIF_QCMD_STS.BUSY h) = false → s.inP2 = true →
          t.get (Reg.HOSTIF_QCMD_STS.DONE h) = 1 ∧ t.get (Reg.HOSTIF_QCMD_STS.RESULT h) = 1 ∧ t = u.qcmdEnd h 1)
      ∧ t.get (Reg.HOSTIF_QCMD.QUEUE h) = q.toNat ∧ t.get (Reg.HOSTIF_QCMD.OP h) = op
      ∧ t = { s with regs := t.regs, scriv := t.scriv, host0 := t.host0, host1 := t.host1, queues := t.queues, ddrBad := t.ddrBad
                     hostMem0 := t.hostMem0, hostMem1 := t.hostMem1, poisoned := t.poisoned, ddr := t.ddr, out := t.out } := by
  subst hu
  have hkeeps := keepsQcmd_qcmdEff hop s h q seen
  have hqueue : (qcmdEff h (qcmdWord op q) seen s).get (Reg.HOSTIF_QCMD.QUEUE h) = q.toNat :=
    (hkeeps.get rfl).trans (get_qcmdTaken_queue hop s h q)
  have hop' : (qcmdEff h (qcmdWord op q) seen s).get (Reg.HOSTIF_QCMD.OP h) = op := (hkeeps.get rfl).trans (get_qcmdTaken_op hop s h q)
  refine ⟨_, hc.exec_takes ht, qcmdEff_busy hop q seen, fun hb hp => ?_, hqueue, hop', qcmd_patch_of_same (qcmdEff_same ..)⟩
  rw [qcmdEff_P2 hop q seen hb hp]
  exact ⟨get_qcmdEnd_done .., get_qcmdEnd_result _ h (by decide), rfl⟩

theorem IsQcmd.exec_runs (ht : Takes s h (Reg.HOSTIF_QCMD.off h) ∧ s.flag (Reg.HOSTIF_QCMD_STS.BUSY h) = false ∧ s.inP2 = false)
    (hu : u = (qcmdTaken s h op q).see seen) : exec c s = .next (qcmdRuns u h op q.toNat) := by
  obtain ⟨ht, hb, hp⟩ := ht
  rw [hu, ← qcmdEff_runs hop q seen hb hp]
  exact hc.exec_takes ht

end

theorem queues_qcmdTaken_see (s : State) (h : HostId) (op : Nat) (q : BitVec 20) (seen : Seen) :
    ((qcmdTaken s h op q).see seen).queues = s.queues := (see_same ..).queues rfl

theorem isQcmd_create (h : HostId) (q : BitVec 20) (seen : Seen) : IsQcmd (.queueCreate h q seen) h 1 q seen := fun _ => rfl

theorem isQcmd_modify (h : HostId) (q : BitVec 20) (seen : Seen) : IsQcmd (.queueModify h q seen) h 2 q seen := fun _ => rfl

theorem isQcmd_query (h : HostId) (q : BitVec 20) (seen : Seen) : IsQcmd (.queueQuery h q seen) h 3 q seen := fun _ => rfl

theorem isQcmd_destroy (h : HostId) (q : BitVec 20) (seen : Seen) : IsQcmd (.queueDestroy h q seen) h 4 q seen := fun _ => rfl

end Sys2Proof.Machine.Proofs
end

section
/-! PROOFS. What each queue command does to the queue it names (O43; 08_host_interface_and_work_queues.md R218). -/

namespace Sys2Proof.Machine.Proofs

open Laws

section
variable {u : State} {h : HostId} {n : Nat} {img : List Byte}

theorem queueCreate_present (hn : (u.queue? n).isSome = true) : u.queueCreate h n img = u.qcmdEnd h 1 := if_pos hn

/-- The partition that an image's CID names. -/
abbrev imagePart (img : List Byte) : Nat := cidPart (leAt img 10 2)

/-- The table and the memory hold a new queue. -/
def createdQueue (u : State) (n o : Nat) (q : Queue) : State :=
  let s := (u.setQueue n { q with shadow := o }).putDesc n q.encode
  s.put Reg.HOSTIF_QSTS.QUEUES (s.get Reg.HOSTIF_QSTS.QUEUES + 1)

/-- CREATE of a queue that an image holds, for a partition of the host's own. -/
def createQueue (u : State) (h : HostId) (n p : Nat) (q : Queue) : State :=
  if n = 0 ∨ u.ringOk q = false ∨ u.instPart? (cidInst q.cid) ≠ some p
      ∨ u.queues.any (fun e => e.2.cid == q.cid && e.2.dbSlot == q.dbSlot) = true
      ∨ (q.type ≠ 2 ∧ (match u.queue? q.cq with | some c => c.type != 2 || cidPart c.cid != p | none => true) = true) then
    u.qcmdEnd h 2
  else if !u.flag Reg.HOSTIF_QT_CTL.ENABLE then u.qcmdEnd h 4
  else match (if q.type = 0 then u.shadowRoom? q.shadowBytes else some 0) with
    | none => u.qcmdEnd h 4
    | some o => (createdQueue u n o q).qcmdEnd h 0

section
variable (hn : u.queue? n = none)
include hn

theorem queueCreate_foreign
    (hp : u.owner (imagePart img) ≠ h ∨ (u.pstate (imagePart img) ≠ 2 ∧ u.pstate (imagePart img) ≠ 3)) :
    u.queueCreate h n img = u.qcmdEnd h 3 :=
  (if_neg (by rw [hn]; decide)).trans (if_pos (hp.imp_right not_or.mpr))

variable (ho : u.owner (imagePart img) = h) (hp : u.pstate (imagePart img) = 2 ∨ u.pstate (imagePart img) = 3)
include ho hp

theorem queueCreate_badImage (hi : queueOf img = none) : u.queueCreate h n img = u.qcmdEnd h 2 := by
  refine (if_neg (by rw [hn]; decide)).trans ((if_neg (not_or.mpr ⟨not_not_intro ho, not_not_intro hp⟩)).trans ?_)
  rw [hi]

theorem queueCreate_image {q : Queue} (hi : queueOf img = some q) :
    u.queueCreate h n img = createQueue u h n (imagePart img) q := by
  refine (if_neg (by rw [hn]; decide)).trans ((if_neg (not_or.mpr ⟨not_not_intro ho, not_not_intro hp⟩)).trans ?_)
  rw [hi]
  rfl

end

section
variable {p : Nat} {q : Queue}

theorem createQueue_bad (hbad : n = 0 ∨ u.ringOk q = false ∨ u.instPart? (cidInst q.cid) ≠ some p
      ∨ u.queues.any (fun e => e.2.cid == q.cid && e.2.dbSlot == q.dbSlot) = true) :
    createQueue u h n p q = u.qcmdEnd h 2 :=
  if_pos (hbad.imp_right (·.imp_right (·.imp_right .inl)))

variable (hn : n ≠ 0) (hr : u.ringOk q = true) (hp : u.instPart? (cidInst q.cid) = some p)
  (hs : u.queues.any (fun e => e.2.cid == q.cid && e.2.dbSlot == q.dbSlot) = false) (ht : q.type = 2)
include hn hr hp hs ht

theorem createQueue_disabled (he : u.flag Reg.HOSTIF_QT_CTL.ENABLE = false) : createQueue u h n p q = u.qcmdEnd h 4 :=
  (if_neg (by simp [hn, hr, hp, hs, ht])).trans (if_pos (by rw [he]; rfl))

/-- A completion queue takes no shadow storage. -/
theorem createQueue_cq (he : u.flag Reg.HOSTIF_QT_CTL.ENABLE = true) :
    createQueue u h n p q = (createdQueue u n 0 q).qcmdEnd h 0 := by
  refine (if_neg (by simp [hn, hr, hp, hs, ht])).trans ((if_neg (by rw [he]; decide)).trans ?_)
  rw [ht]
  rfl

end

theorem queue?_createdQueue (u : State) (n o : Nat) (q : Queue) : (createdQueue u n o q).queue? n = some { q with shadow := o } := by
  unfold createdQueue
  dsimp only
  rw [queue?_put, queue?_putDesc, queue?_setQueue_self]

theorem queueModify_absent (hn : u.queue? n = none) : u.queueModify h n img = u.qcmdEnd h 1 := by
  unfold State.queueModify
  rw [hn]

theorem queueQuery_absent (a : Nat) (hn : u.queue? n = none) : u.queueQuery h n a = u.qcmdEnd h 1 := by
  unfold State.queueQuery
  rw [hn]

theorem queueDestroy_absent (hn : u.queue? n = none) : u.queueDestroy h n = u.qcmdEnd h 1 := by
  unfold State.queueDestroy
  rw [hn]

/-- A queue as MODIFY leaves it, for the queue of the image. -/
abbrev modifiedQueue (q x : Queue) : Queue := { q with modCount := x.modCount, modTime := x.modTime, vector := x.vector }

variable {q : Queue} (hn : u.queue? n = some q)
include hn

theorem queueModify_foreign (ho : u.owner (cidPart q.cid) ≠ h) : u.queueModify h n img = u.qcmdEnd h 3 := by
  unfold State.queueModify
  rw [hn]
  exact if_pos ho

theorem queueQuery_foreign (a : Nat) (ho : u.owner (cidPart q.cid) ≠ h) : u.queueQuery h n a = u.qcmdEnd h 3 := by
  unfold State.queueQuery
  rw [hn]
  exact if_pos ho

theorem queueDestroy_foreign (ho : u.owner (cidPart q.cid) ≠ h) : u.queueDestroy h n = u.qcmdEnd h 3 := by
  unfold State.queueDestroy
  rw [hn]
  exact if_pos ho

variable (ho : u.owner (cidPart q.cid) = h)
include ho

theorem queueModify_badImage (hi : queueOf img = none) : u.queueModify h n img = u.qcmdEnd h 2 := by
  unfold State.queueModify
  rw [hn, hi]
  exact if_neg (not_not_intro ho)

theorem queueModify_other {x : Queue} (hi : queueOf img = some x) (he : (modifiedQueue q x).encode ≠ x.encode) :
    u.queueModify h n img = u.qcmdEnd h 2 := by
  unfold State.queueModify
  rw [hn, hi]
  exact (if_neg (not_not_intro ho)).trans (if_pos he)

theorem queueModify_same {x : Queue} (hi : queueOf img = some x) (he : (modifiedQueue q x).encode = x.encode) :
    u.queueModify h n img = ((u.setQueue n (modifiedQueue q x)).putDesc n x.encode).qcmdEnd h 0 := by
  unfold State.queueModify
  rw [hn, hi, ← he]
  exact (if_neg (not_not_intro ho)).trans (if_neg (not_not_intro he))

theorem queueQuery_own (a : Nat) : u.queueQuery h n a = (u.writeHost h a q.encode).qcmdEnd h 0 := by
  unfold State.queueQuery
  rw [hn]
  exact if_neg (not_not_intro ho)

theorem queueDestroy_inUse (hi : u.queueInUse n q = true) : u.queueDestroy h n = u.qcmdEnd h 5 := by
  unfold State.queueDestroy
  rw [hn]
  exact (if_neg (not_not_intro ho)).trans (if_pos hi)

theorem queueDestroy_idle (hi : u.queueInUse n q = false) : u.queueDestroy h n = (u.dropQueue n).qcmdEnd h 0 := by
  unfold State.queueDestroy
  rw [hn]
  exact (if_neg (not_not_intro ho)).trans (if_neg (by rw [hi]; decide))

end

theorem queues_dropQueue (s : State) (n : Nat) : (s.dropQueue n).queues = s.queues.del n := by
  unfold State.dropQueue
  rw [put_queues, queues_putDesc]

/-! The commands -/

section
variable {h : HostId} {q : BitVec 20} {seen : Seen} {s u : State} {img : List Byte}
  (hs : Takes s h (Reg.HOSTIF_QCMD.off h) ∧ s.flag (Reg.HOSTIF_QCMD_STS.BUSY h) = false ∧ s.inP2 = false)
include hs

theorem exec_queueCreate (hu : u = (qcmdTaken s h 1 q).see seen) :
    exec (.queueCreate h q seen) s = .next (u.queueCreate h q.toNat (qcmdImage u h)) :=
  (isQcmd_create h q seen).exec_runs (by decide) hs hu

theorem completes_queueCreate (hu : u = (qcmdTaken s h 1 q).see seen) (hi : img = qcmdImage u h) :
    Completes (.queueCreate h q seen) s fun t =>
      ((u.queue? q.toNat).isSome = true → t = u.qcmdEnd h 1)
      ∧ (u.queue? q.toNat = none → (u.owner (imagePart img) ≠ h ∨ (u.pstate (imagePart img) ≠ 2 ∧ u.pstate (imagePart img) ≠ 3)) →
          t = u.qcmdEnd h 3)
      ∧ (u.queue? q.toNat = none → u.owner (imagePart img) = h → (u.pstate (imagePart img) = 2 ∨ u.pstate (imagePart img) = 3) →
          (queueOf img = none → t = u.qcmdEnd h 2) ∧ (∀ x, queueOf img = some x → t = createQueue u h q.toNat (imagePart img) x)) := by
  subst hi
  exact ⟨_, exec_queueCreate hs hu, queueCreate_present, queueCreate_foreign,
    fun hn ho hp => ⟨queueCreate_badImage hn ho hp, fun _ => queueCreate_image hn ho hp⟩⟩

theorem exec_queueModify (hu : u = (qcmdTaken s h 2 q).see seen) :
    exec (.queueModify h q seen) s = .next (u.queueModify h q.toNat (qcmdImage u h)) :=
  (isQcmd_modify h q seen).exec_runs (by decide) hs hu

theorem completes_queueModify (hu : u = (qcmdTaken s h 2 q).see seen) (hi : img = qcmdImage u h) :
    Completes (.queueModify h q seen) s fun t =>
      (u.queue? q.toNat = none → t = u.qcmdEnd h 1)
      ∧ (∀ y, u.queue? q.toNat = some y → (u.owner (cidPart y.cid) ≠ h → t = u.qcmdEnd h 3)
          ∧ (u.owner (cidPart y.cid) = h → queueOf img = none → t = u.qcmdEnd h 2)
          ∧ (u.owner (cidPart y.cid) = h → ∀ x, queueOf img = some x →
              ((modifiedQueue y x).encode ≠ x.encode → t = u.qcmdEnd h 2)
              ∧ ((modifiedQueue y x).encode = x.encode →
                  t.queue? q.toNat = some (modifiedQueue y x) ∧ t.get (Reg.HOSTIF_QCMD_STS.RESULT h) = 0
                  ∧ t = ((u.setQueue q.toNat (modifiedQueue y x)).putDesc q.toNat x.encode).qcmdEnd h 0))) := by
  subst hi
  refine ⟨_, exec_queueModify hs hu, queueModify_absent, fun y hy => ⟨queueModify_foreign hy,
    queueModify_badImage hy, fun ho x hx => ⟨queueModify_other hy ho hx, fun he => ?_⟩⟩⟩
  rw [queueModify_same hy ho hx he]
  exact ⟨by simp only [queue?_qcmdEnd, queue?_putDesc, queue?_setQueue_self], get_qcmdEnd_result _ h (by decide), rfl⟩

theorem exec_queueQuery (hu : u = (qcmdTaken s h 3 q).see seen) :
    exec (.queueQuery h q seen) s = .next (u.queueQuery h q.toNat (qcmdAddr u h)) :=
  (isQcmd_query h q seen).exec_runs (by decide) hs hu

theorem completes_queueQuery (hu : u = (qcmdTaken s h 3 q).see seen) :
    Completes (.queueQuery h q seen) s fun t =>
      (u.queue? q.toNat = none → t = u.qcmdEnd h 1)
      ∧ (∀ y, u.queue? q.toNat = some y → (u.owner (cidPart y.cid) ≠ h → t = u.qcmdEnd h 3)
          ∧ (u.owner (cidPart y.cid) = h → t = (u.writeHost h (qcmdAddr u h) y.encode).qcmdEnd h 0
              ∧ t.get (Reg.HOSTIF_QCMD_STS.RESULT h) = 0 ∧ t.queues = s.queues)) := by
  refine ⟨_, exec_queueQuery hs hu, queueQuery_absent _, fun y hy => ⟨queueQuery_foreign hy _, fun ho => ?_⟩⟩
  have hqueues : u.queues = s.queues := by rw [hu, queues_qcmdTaken_see]
  rw [queueQuery_own hy ho]
  refine ⟨rfl, get_qcmdEnd_result _ h (by decide), ?_⟩
  rw [queues_qcmdEnd, (writeHost_same ..).queues rfl, hqueues]

theorem exec_queueDestroy (hu : u = (qcmdTaken s h 4 q).see seen) :
    exec (.queueDestroy h q seen) s = .next (u.queueDestroy h q.toNat) :=
  (isQcmd_destroy h q seen).exec_runs (by decide) hs hu

theorem completes_queueDestroy (hu : u = (qcmdTaken s h 4 q).see seen) :
    Completes (.queueDestroy h q seen) s fun t =>
      (u.queue? q.toNat = none → t = u.qcmdEnd h 1)
      ∧ (∀ y, u.queue? q.toNat = some y → (u.owner (cidPart y.cid) ≠ h → t = u.qcmdEnd h 3)
          ∧ (u.owner (cidPart y.cid) = h → u.queueInUse q.toNat y = true → t = u.qcmdEnd h 5)
          ∧ (u.owner (cidPart y.cid) = h → u.queueInUse q.toNat y = false → t = (u.dropQueue q.toNat).qcmdEnd h 0
              ∧ t.get (Reg.HOSTIF_QCMD_STS.RESULT h) = 0 ∧ t.queues = s.queues.del q.toNat)) := by
  refine ⟨_, exec_queueDestroy hs hu, queueDestroy_absent, fun y hy => ⟨queueDestroy_foreign hy,
    queueDestroy_inUse hy, fun ho hi => ?_⟩⟩
  have hqueues : u.queues = s.queues := by rw [hu, queues_qcmdTaken_see]
  rw [queueDestroy_idle hy ho hi]
  refine ⟨rfl, get_qcmdEnd_result _ h (by decide), ?_⟩
  rw [queues_qcmdEnd, queues_dropQueue, hqueues]

end

end Sys2Proof.Machine.Proofs
end

section
/-! PROOFS. DCINV (O43; 08_host_interface_and_work_queues.md R225). -/

namespace Sys2Proof.Machine.Proofs

open Laws

/-- The word of a discard. -/
theorem dcinvWord_eq (q : BitVec 20) : BitVec.ofNat 32 (2 ^ 31 + q.toNat) = qcmdWord 0 q := by
  unfold qcmdWord
  rw [Nat.zero_mul, Nat.add_zero]

theorem fieldOk_dcinvQueue (h : Nat) : FieldOk (Reg.HOSTIF_DCINV.QUEUE h) := (by decide : 0 + 20 ≤ 32)

theorem fieldOk_dcinvDone (h : Nat) : FieldOk (Reg.HOSTIF_DCINV_STS.DONE h) := (by decide : 1 + 1 ≤ 32)

theorem fieldOk_dcinvRej (h : Nat) : FieldOk (Reg.HOSTIF_DCINV_STS.REJ h) := (by decide : 2 + 1 ≤ 32)

theorem dcinv_ne_dcinvSts (h : HostId) : Reg.HOSTIF_DCINV.off h ≠ Reg.HOSTIF_DCINV_STS.off h := by
  unfold Reg.HOSTIF_DCINV.off Reg.HOSTIF_DCINV_STS.off
  omega

/-- The state in which HOSTIF_DCINV shows its queue. -/
abbrev dcinvTaken (s : State) (h : HostId) (q : BitVec 20) : State := s.put (Reg.HOSTIF_DCINV.QUEUE h) q.toNat

/-- A discard that is taken. -/
def dcinvRuns (u : State) (h : HostId) (n : Nat) : State :=
  match u.queue? n with
  | none => u.put (Reg.HOSTIF_DCINV_STS.REJ h) 1
  | some y =>
    if u.owner (cidPart y.cid) ≠ h then u.put (Reg.HOSTIF_DCINV_STS.REJ h) 1
    else ((u.setQueue n { y with cached := [], fetch := y.next }).put (Reg.HOSTIF_DCINV_STS.DONE h) 1).vector h 3

section
variable {s : State} {h : HostId} (q : BitVec 20)

theorem flag_dcinvTaken_busy : (dcinvTaken s h q).flag (Reg.HOSTIF_DCINV_STS.BUSY h) = s.flag (Reg.HOSTIF_DCINV_STS.BUSY h) := by
  unfold State.flag
  rw [get_put_ne _ _ _ _ (dcinv_ne_dcinvSts h).symm]

theorem dcinvEff_busy (hb : s.flag (Reg.HOSTIF_DCINV_STS.BUSY h) = true) : dcinvEff h (qcmdWord 0 q) s = dcinvTaken s h q := by
  unfold dcinvEff
  rw [qcmdWord_queue (by decide)]
  exact if_pos (.inr ((flag_dcinvTaken_busy q).trans hb))

theorem dcinvEff_runs (hb : s.flag (Reg.HOSTIF_DCINV_STS.BUSY h) = false) :
    dcinvEff h (qcmdWord 0 q) s = dcinvRuns (dcinvTaken s h q) h q.toNat := by
  have hb' : (dcinvTaken s h q).flag (Reg.HOSTIF_DCINV_STS.BUSY h) = false := (flag_dcinvTaken_busy q).trans hb
  unfold dcinvEff
  rw [qcmdWord_queue (by decide), qcmdWord_go (by decide)]
  exact (if_neg (by simp [hb'])).trans rfl

end

section
variable {u : State} {h : HostId} {n : Nat}

theorem dcinvRuns_absent (hn : u.queue? n = none) : dcinvRuns u h n = u.put (Reg.HOSTIF_DCINV_STS.REJ h) 1 := by
  unfold dcinvRuns
  rw [hn]

theorem dcinvRuns_foreign {y : Queue} (hn : u.queue? n = some y) (ho : u.owner (cidPart y.cid) ≠ h) :
    dcinvRuns u h n = u.put (Reg.HOSTIF_DCINV_STS.REJ h) 1 := by
  unfold dcinvRuns
  rw [hn]
  exact if_pos ho

theorem dcinvRuns_own {y : Queue} (hn : u.queue? n = some y) (ho : u.owner (cidPart y.cid) = h) :
    dcinvRuns u h n = ((u.setQueue n { y with cached := [], fetch := y.next }).put (Reg.HOSTIF_DCINV_STS.DONE h) 1).vector h 3 := by
  unfold dcinvRuns
  rw [hn]
  exact if_neg (not_not_intro ho)

theorem regsBut_dcinvRuns (u : State) (h : HostId) (n : Nat) : RegsBut [Reg.HOSTIF_DCINV_STS.off h] u (dcinvRuns u h n) := by
  have hput {t : State} (f : Fld) (x : Nat) (ht : t.regs = u.regs) (hf : f.off = Reg.HOSTIF_DCINV_STS.off h) :
      RegsBut [Reg.HOSTIF_DCINV_STS.off h] u (t.put f x) :=
    regsBut_put f x (regsBut_of_regs (regsBut_refl _ u) ht) (List.mem_singleton.mpr hf)
  unfold dcinvRuns
  split
  · exact hput _ _ rfl rfl
  · split
    · exact hput _ _ rfl rfl
    · exact regsBut_of_regs (hput _ _ rfl rfl) ((vector_same ..).regs rfl)

end

/-- A discard changes the status register alone, beside what shows the queue it was written for. -/
theorem regsBut_dcinvEff (s : State) (h : HostId) (q : BitVec 20) :
    RegsBut [Reg.HOSTIF_DCINV_STS.off h] (dcinvTaken s h q) (dcinvEff h (qcmdWord 0 q) s) := by
  cases hb : s.flag (Reg.HOSTIF_DCINV_STS.BUSY h) with
  | true =>
    rw [dcinvEff_busy q hb]
    exact regsBut_refl _ _
  | false =>
    rw [dcinvEff_runs q hb]
    exact regsBut_dcinvRuns _ _ _

theorem get_dcinvEff_queue (s : State) (h : HostId) (q : BitVec 20) :
    (dcinvEff h (qcmdWord 0 q) s).get (Reg.HOSTIF_DCINV.QUEUE h) = q.toNat := by
  have hreg := regsBut_dcinvEff s h q (Reg.HOSTIF_DCINV.off h) (fun hm => dcinv_ne_dcinvSts h (List.mem_singleton.mp hm))
  calc (dcinvEff h (qcmdWord 0 q) s).get (Reg.HOSTIF_DCINV.QUEUE h)
      = (dcinvTaken s h q).get (Reg.HOSTIF_DCINV.QUEUE h) := congrArg (wordField · 0 20) hreg
    _ = q.toNat := get_put_fits _ _ _ (fieldOk_dcinvQueue h) q.isLt

theorem regsBut_dcinvEff_written (s : State) (h : HostId) (q : BitVec 20) :
    RegsBut [Reg.HOSTIF_DCINV.off h, Reg.HOSTIF_DCINV_STS.off h] s (dcinvEff h (qcmdWord 0 q) s) := by
  intro o ho
  have hq : o ≠ Reg.HOSTIF_DCINV.off h := fun e => ho (List.mem_cons.mpr (.inl e))
  have hsts : o ∉ [Reg.HOSTIF_DCINV_STS.off h] := fun e => ho (List.mem_cons_of_mem _ e)
  exact (regsBut_dcinvEff s h q o hsts).trans (reg_put_ne s _ _ hq)

theorem owner_dcinvTaken (s : State) (h : HostId) (q : BitVec 20) (p : Nat) : (dcinvTaken s h q).owner p = s.owner p := by
  have hne : Reg.PART_ALLOC.off p ≠ Reg.HOSTIF_DCINV.off h := by
    unfold Reg.PART_ALLOC.off Reg.HOSTIF_DCINV.off
    omega
  unfold State.owner
  rw [get_put_ne _ _ _ _ hne]

theorem dcinv_patch_of_same {s t : State} (hst : Same 35184376283186 s t) :
    t = { s with regs := t.regs, queues := t.queues, host0 := t.host0, host1 := t.host1, out := t.out } := eq_patch_of_same hst

section
variable {s : State} {h : HostId} {q : BitVec 20} (hb : s.flag (Reg.HOSTIF_DCINV_STS.BUSY h) = false)
include hb

theorem dcinvEff_absent (hn : s.queue? q.toNat = none) :
    dcinvEff h (qcmdWord 0 q) s = (dcinvTaken s h q).put (Reg.HOSTIF_DCINV_STS.REJ h) 1 :=
  (dcinvEff_runs q hb).trans (dcinvRuns_absent hn)

variable {y : Queue} (hn : s.queue? q.toNat = some y)
include hn

theorem dcinvEff_foreign (ho : s.owner (cidPart y.cid) ≠ h) :
    dcinvEff h (qcmdWord 0 q) s = (dcinvTaken s h q).put (Reg.HOSTIF_DCINV_STS.REJ h) 1 :=
  (dcinvEff_runs q hb).trans (dcinvRuns_foreign hn (by rwa [owner_dcinvTaken]))

theorem dcinvEff_own (ho : s.owner (cidPart y.cid) = h) :
    dcinvEff h (qcmdWord 0 q) s = (((dcinvTaken s h q).setQueue q.toNat { y with cached := [], fetch := y.next }).put
      (Reg.HOSTIF_DCINV_STS.DONE h) 1).vector h 3 :=
  (dcinvEff_runs q hb).trans (dcinvRuns_own hn (by rwa [owner_dcinvTaken]))

end

theorem dcinvSts_off_lt (h : HostId) : Reg.HOSTIF_DCINV_STS.off h < 0x700000 := by
  unfold Reg.HOSTIF_DCINV_STS.off
  omega

theorem exec_dcinv {s : State} {h : HostId} (ht : Takes s h (Reg.HOSTIF_DCINV.off h)) (q : BitVec 20) :
    exec (.dcinv h q) s = .next (dcinvEff h (qcmdWord 0 q) s) := by
  have hexec : exec (.dcinv h q) s = .next (s.hostWrite h (Reg.HOSTIF_DCINV.off h) (dcinvEff h (BitVec.ofNat 32 (2 ^ 31 + q.toNat)))) := rfl
  rw [hexec, hostWrite_takes _ ht, dcinvWord_eq]

theorem completes_dcinv (s : State) (h : HostId) (q : BitVec 20) (ht : Takes s h (Reg.HOSTIF_DCINV.off h)) :
    Completes (.dcinv h q) s fun t =>
      t.get (Reg.HOSTIF_DCINV.QUEUE h) = q.toNat
      ∧ (s.flag (Reg.HOSTIF_DCINV_STS.BUSY h) = true → t = dcinvTaken s h q)
      ∧ (s.flag (Reg.HOSTIF_DCINV_STS.BUSY h) = false →
          (s.queue? q.toNat = none → t = (dcinvTaken s h q).put (Reg.HOSTIF_DCINV_STS.REJ h) 1 ∧ t.get (Reg.HOSTIF_DCINV_STS.REJ h) = 1)
          ∧ (∀ y, s.queue? q.toNat = some y →
              (s.owner (cidPart y.cid) ≠ h → t = (dcinvTaken s h q).put (Reg.HOSTIF_DCINV_STS.REJ h) 1)
              ∧ (s.owner (cidPart y.cid) = h →
                  t.queue? q.toNat = some { y with cached := [], fetch := y.next } ∧ t.get (Reg.HOSTIF_DCINV_STS.DONE h) = 1
                  ∧ RegsBut [Reg.HOSTIF_DCINV.off h, Reg.HOSTIF_DCINV_STS.off h] s t
                  ∧ t = { s with regs := t.regs, queues := t.queues, host0 := t.host0, host1 := t.host1, out := t.out }))) := by
  refine ⟨_, exec_dcinv ht q, get_dcinvEff_queue s h q, dcinvEff_busy q, fun hb => ⟨fun hn => ?_, fun y hn =>
    ⟨dcinvEff_foreign hb hn, fun ho => ⟨?_, ?_, regsBut_dcinvEff_written s h q, dcinv_patch_of_same (dcinvEff_same ..)⟩⟩⟩⟩
  · rw [dcinvEff_absent hb hn]
    exact ⟨rfl, get_put_fits _ _ _ (fieldOk_dcinvRej h) (by decide : 1 < 2 ^ 1)⟩
  · rw [dcinvEff_own hb hn ho, queue?_vector, queue?_put, queue?_setQueue_self]
  · rw [dcinvEff_own hb hn ho, (keepsRegs_vector _ _ _).get (Nat.zero_le _) (dcinvSts_off_lt h)]
    exact get_put_fits _ _ _ (fieldOk_dcinvDone h) (by decide : 1 < 2 ^ 1)

end Sys2Proof.Machine.Proofs
end

section
/-! PROOFS. Entry fetches, re-fetches and the moderation timer (O43; 08_host_interface_and_work_queues.md R224, R226, R237). -/

namespace Sys2Proof.Machine.Proofs

open Laws

/-! Entry fetches -/

@[simp] theorem cachedCount_see (s : State) (seen : Seen) : (s.see seen).cachedCount = s.cachedCount := by
  unfold State.cachedCount
  rw [(see_same ..).queues rfl]

theorem slotOf_lt_size (y : Queue) (p : Nat) : y.slotOf p < y.size := Nat.mod_lt _ (Nat.two_pow_pos _)

section
variable {s : State} {n count : Nat} {seen : Seen}

theorem fetchReturnEff_absent (hn : s.queue? n = none) : fetchReturnEff n count seen s = s := by
  unfold fetchReturnEff
  rw [hn]

variable {y : Queue} (hn : s.queue? n = some y)
include hn

theorem fetchReturnEff_barred (hm : s.mayFetch n y = false) : fetchReturnEff n count seen s = s := by
  unfold fetchReturnEff
  rw [hn]
  exact if_neg (by rw [hm]; decide)

theorem fetchReturnEff_reads (hm : s.mayFetch n y = true) :
    fetchReturnEff n count seen s
      = (List.range (min (min count 16) (y.size - y.slotOf y.fetch))).foldl (fun s _ => s.fetchSlot n) (s.see seen) := by
  unfold fetchReturnEff
  rw [hn]
  exact if_pos hm

/-- A read of one slot is within its ring. -/
theorem fetchReturnEff_one (hm : s.mayFetch n y = true) : fetchReturnEff n 1 seen s = (s.see seen).fetchSlot n := by
  have hslot := slotOf_lt_size y y.fetch
  have hk : min (min 1 16) (y.size - y.slotOf y.fetch) = 1 := by omega
  rw [fetchReturnEff_reads hn hm, hk]
  rfl

end

/-- The slot at a queue's fetch position after its read: cached, still awaited, or cached as lost. -/
def slotRead (u : State) (n : Nat) (y : Queue) : Except MemErr (List Byte) → State
  | .ok bs => u.setQueue n { y with fetch := y.step y.fetch 1, cached := y.cached ++ [(y.fetch, 0, bs)] }
  | .error .wait => u
  | .error e => u.setQueue n { y with fetch := y.step y.fetch 1, cached := y.cached ++ [(y.fetch, 5, y.lostCopy y.fetch e)] }

theorem fetchSlot_reads {s u : State} {n : Nat} {y : Queue} {r : Except MemErr (List Byte)} (hn : s.queue? n = some y)
    (hroom : y.fetch ≠ y.posted ∧ y.cached.length < 64 ∧ s.cachedCount < 65536) (he : y.early.contains y.fetch = false)
    (hr : s.memReadC y.cid y.space (y.addr y.fetch) 64 = (u, r)) : s.fetchSlot n = slotRead u n y r := by
  obtain ⟨hposted, hlen, hcount⟩ := hroom
  unfold State.fetchSlot
  rw [hn]
  refine (if_neg (by omega)).trans ((if_neg (by rw [he]; decide)).trans ?_)
  rw [hr]
  match r with
  | .ok _ => rfl
  | .error .wait => rfl
  | .error .cid => rfl
  | .error .ue => rfl

theorem queue?_slotRead_lost (u : State) (n : Nat) (y : Queue) {r : Except MemErr (List Byte)} (hr : r = .error .cid ∨ r = .error .ue) :
    ((slotRead u n y r).queue? n).map (fun x => (x.fetch, x.cached.length)) = some (y.step y.fetch 1, y.cached.length + 1) := by
  rcases hr with rfl | rfl <;> simp [slotRead]

theorem slotRead_patch (u : State) (n : Nat) (y : Queue) (r : Except MemErr (List Byte)) :
    slotRead u n y r = { u with queues := (slotRead u n y r).queues } :=
  match r with
  | .ok _ => rfl
  | .error .wait => rfl
  | .error .cid => rfl
  | .error .ue => rfl

/-- What a read of entries leaves as it is. -/
theorem fetch_patch_of_same {s t : State} (hst : Same 50577539072058 s t) :
    t = { s with regs := t.regs, scriv := t.scriv, host0 := t.host0, host1 := t.host1, queues := t.queues
                 hostMem0 := t.hostMem0, hostMem1 := t.hostMem1, poisoned := t.poisoned, out := t.out } := eq_patch_of_same hst

theorem completes_entryFetchReturn (s : State) (q : BitVec 20) (n : Fin 17) (seen : Seen) :
    Completes (.entryFetchReturn q n seen) s fun t =>
      (s.queue? q.toNat = none → t = s)
      ∧ (∀ y, s.queue? q.toNat = some y → (s.mayFetch q.toNat y = false → t = s)
          ∧ (s.mayFetch q.toNat y = true →
              t = (List.range (min (min n 16) (y.size - y.slotOf y.fetch))).foldl (fun s _ => s.fetchSlot q.toNat) (s.see seen)))
      ∧ t = { s with regs := t.regs, scriv := t.scriv, host0 := t.host0, host1 := t.host1, queues := t.queues
                     hostMem0 := t.hostMem0, hostMem1 := t.hostMem1, poisoned := t.poisoned, out := t.out } :=
  ⟨_, rfl, fetchReturnEff_absent, fun _ hn => ⟨fetchReturnEff_barred hn, fetchReturnEff_reads hn⟩,
    fetch_patch_of_same (fetchReturnEff_same ..)⟩

theorem completes_entryFetchReturn_one {s u : State} {q : BitVec 20} {seen : Seen} {y : Queue} {r : Except MemErr (List Byte)}
    (hs : s.queue? q.toNat = some y ∧ s.mayFetch q.toNat y = true ∧ y.fetch ≠ y.posted ∧ y.cached.length < 64 ∧ s.cachedCount < 65536)
    (he : y.early.contains y.fetch = false ∧ (s.see seen).memReadC y.cid y.space (y.addr y.fetch) 64 = (u, r)) :
    Completes (.entryFetchReturn q 1 seen) s fun t =>
      (r = .error .wait → t = u)
      ∧ (∀ bs, r = .ok bs → t.queue? q.toNat = some { y with fetch := y.step y.fetch 1, cached := y.cached ++ [(y.fetch, 0, bs)] }
          ∧ t = { u with queues := t.queues })
      ∧ (r = .error .cid ∨ r = .error .ue →
          (t.queue? q.toNat).map (fun x => (x.fetch, x.cached.length)) = some (y.step y.fetch 1, y.cached.length + 1)
          ∧ t = { u with queues := t.queues }) := by
  obtain ⟨hn, hm, hroom⟩ := hs
  obtain ⟨hearly, hr⟩ := he
  have hslot : fetchReturnEff q.toNat 1 seen s = slotRead u q.toNat y r :=
    (fetchReturnEff_one hn hm).trans (fetchSlot_reads ((queue?_see ..).trans hn) (by rwa [cachedCount_see]) hearly hr)
  refine ⟨slotRead u q.toNat y r, congrArg Host.Outcome.next hslot, fun hw => ?_, fun bs hok => ⟨?_, slotRead_patch ..⟩,
    fun hlost => ⟨queue?_slotRead_lost u q.toNat y hlost, slotRead_patch ..⟩⟩
  · rw [hw]
    rfl
  · rw [hok]
    exact queue?_setQueue_self ..

/-! Re-fetches -/

/-- A queue's cached copy at a position takes other bytes and another count of re-reads. -/
def recached (y : Queue) (pos k : Nat) (bs : List Byte) : Queue :=
  { y with cached := y.cached.map (fun c => if c.1 = pos then (pos, k, bs) else c) }

/-- A re-read slot is kept and counted for the queue's host. -/
def keepReread (u : State) (n : Nat) (y : Queue) (pos k : Nat) (bs : List Byte) : State :=
  (u.setQueue n (recached y pos k bs)).count (Reg.HOSTIF_REFETCH.COUNT (u.owner (cidPart y.cid)))

/-- A stale slot after its k-th re-read: kept with one re-read more, still awaited, or kept as lost. -/
def slotReread (u : State) (n : Nat) (y : Queue) (pos k : Nat) : Except MemErr (List Byte) → State
  | .ok bs => keepReread u n y pos (k + 1) bs
  | .error .wait => u
  | .error e => keepReread u n y pos 5 (y.lostCopy pos e)

@[simp] theorem queue?_keepReread (u : State) (n : Nat) (y : Queue) (pos k : Nat) (bs : List Byte) :
    (keepReread u n y pos k bs).queue? n = some (recached y pos k bs) := queue?_setQueue_self ..

section
variable {s : State} {n pos : Nat} {seen : Seen}

theorem refetchEff_absent (hn : s.queue? n = none) : refetchEff n pos seen s = s := by
  unfold refetchEff
  rw [hn]

variable {y : Queue} (hn : s.queue? n = some y)
include hn

theorem refetchEff_uncached (hc : y.cached.find? (fun c => c.1 == pos) = none) : refetchEff n pos seen s = s := by
  unfold refetchEff
  rw [hn]
  dsimp only
  rw [hc]

theorem refetchEff_idle {c : Nat × Nat × List Byte} (hc : y.cached.find? (fun c => c.1 == pos) = some c)
    (hi : y.fresh pos c.2.2 = true ∨ 4 ≤ c.2.1 ∨ s.mayFetch n y = false) : refetchEff n pos seen s = s := by
  unfold refetchEff
  rw [hn]
  dsimp only
  rw [hc]
  refine if_pos ?_
  rcases hi with hf | hk | hm
  · simp [hf]
  · simp [hk]
  · simp [hm]

theorem refetchEff_reads {u : State} {k : Nat} {bs : List Byte} {r : Except MemErr (List Byte)}
    (hc : y.cached.find? (fun c => c.1 == pos) = some (pos, k, bs))
    (hs : y.fresh pos bs = false ∧ k < 4 ∧ s.mayFetch n y = true)
    (hr : (s.see seen).memReadC y.cid y.space (y.addr pos) 64 = (u, r)) : refetchEff n pos seen s = slotReread u n y pos k r := by
  obtain ⟨hf, hk, hm⟩ := hs
  unfold refetchEff
  rw [hn]
  dsimp only
  rw [hc]
  refine (if_neg (by simp [hf, hm, hk])).trans ?_
  rw [hr]
  match r with
  | .ok _ => rfl
  | .error .wait => rfl
  | .error .cid => rfl
  | .error .ue => rfl

end

theorem cached_recached_counts (y : Queue) (pos k : Nat) (bs : List Byte) :
    (recached y pos k bs).cached.map (fun c => (c.1, if c.1 = pos then c.2.1 else 0))
      = y.cached.map (fun c => (c.1, if c.1 = pos then k else 0)) := by
  unfold recached
  rw [List.map_map]
  refine List.map_congr_left fun c _ => ?_
  by_cases hc : c.1 = pos
  · simp [hc]
  · simp [hc]

theorem queue?_slotReread_lost (u : State) (n : Nat) (y : Queue) (pos k : Nat) {r : Except MemErr (List Byte)}
    (hr : r = .error .cid ∨ r = .error .ue) :
    ((slotReread u n y pos k r).queue? n).map (fun x => x.cached.map (fun c => (c.1, if c.1 = pos then c.2.1 else 0)))
      = some (y.cached.map (fun c => (c.1, if c.1 = pos then 5 else 0))) := by
  have hlost (bs : List Byte) := congrArg (Option.map fun x : Queue => x.cached.map (fun c => (c.1, if c.1 = pos then c.2.1 else 0)))
    (queue?_keepReread u n y pos 5 bs)
  rcases hr with rfl | rfl <;> exact (hlost _).trans (congrArg some (cached_recached_counts ..))

theorem get_keepReread (u : State) (n : Nat) (y : Queue) (pos k : Nat) (bs : List Byte) :
    (keepReread u n y pos k bs).get (Reg.HOSTIF_REFETCH.COUNT (u.owner (cidPart y.cid)))
      = min (u.get (Reg.HOSTIF_REFETCH.COUNT (u.owner (cidPart y.cid))) + 1) 4294967295 := by
  have hok : FieldOk (Reg.HOSTIF_REFETCH.COUNT (u.owner (cidPart y.cid))) := (by decide : 0 + 32 ≤ 32)
  exact get_count_self (u.setQueue n (recached y pos k bs)) _ 1 hok

theorem completes_refetchTimer (s : State) (q : BitVec 20) (pos : Nat) (seen : Seen) :
    Completes (.refetchTimer q pos seen) s fun t =>
      (s.queue? q.toNat = none → t = s)
      ∧ (∀ y, s.queue? q.toNat = some y → (y.cached.find? (fun c => c.1 == pos) = none → t = s)
          ∧ (∀ c, y.cached.find? (fun c => c.1 == pos) = some c →
              (y.fresh pos c.2.2 = true ∨ 4 ≤ c.2.1 ∨ s.mayFetch q.toNat y = false → t = s)))
      ∧ t = { s with regs := t.regs, scriv := t.scriv, host0 := t.host0, host1 := t.host1, queues := t.queues
                     hostMem0 := t.hostMem0, hostMem1 := t.hostMem1, poisoned := t.poisoned, out := t.out } :=
  ⟨_, rfl, refetchEff_absent, fun _ hn => ⟨refetchEff_uncached hn, fun _ hc => refetchEff_idle hn hc⟩,
    fetch_patch_of_same (refetchEff_same ..)⟩

theorem completes_refetchTimer_reads {s u : State} {q : BitVec 20} {pos k : Nat} {seen : Seen} {y : Queue} {bs : List Byte}
    {r : Except MemErr (List Byte)}
    (hs : s.queue? q.toNat = some y ∧ y.cached.find? (fun c => c.1 == pos) = some (pos, k, bs) ∧ y.fresh pos bs = false ∧ k < 4
      ∧ s.mayFetch q.toNat y = true)
    (hr : (s.see seen).memReadC y.cid y.space (y.addr pos) 64 = (u, r)) :
    Completes (.refetchTimer q pos seen) s fun t =>
      (r = .error .wait → t = u)
      ∧ (∀ new, r = .ok new → t.queue? q.toNat = some { y with cached := y.cached.map (fun c => if c.1 = pos then (pos, k + 1, new) else c) }
          ∧ t.get (Reg.HOSTIF_REFETCH.COUNT (s.owner (cidPart y.cid)))
            = min (u.get (Reg.HOSTIF_REFETCH.COUNT (s.owner (cidPart y.cid))) + 1) 4294967295
          ∧ t = { u with regs := t.regs, queues := t.queues })
      ∧ (r = .error .cid ∨ r = .error .ue →
          (t.queue? q.toNat).map (fun x => x.cached.map (fun c => (c.1, if c.1 = pos then c.2.1 else 0)))
            = some (y.cached.map (fun c => (c.1, if c.1 = pos then 5 else 0)))) := by
  obtain ⟨hn, hc, hstale⟩ := hs
  have heff := refetchEff_reads hn hc hstale hr
  refine ⟨slotReread u q.toNat y pos k r, congrArg Host.Outcome.next heff, fun hw => ?_, fun new hok => ?_,
    queue?_slotReread_lost u q.toNat y pos k⟩
  · rw [hw]
    rfl
  · subst hok
    have howner : s.owner (cidPart y.cid) = u.owner (cidPart y.cid) := by rw [state_of_memReadC_ok hr, owner_see]
    rw [howner]
    exact ⟨queue?_keepReread .., get_keepReread .., rfl⟩

/-! The moderation timer -/

section
variable {s : State} {n : Nat}

theorem cqModerationEff_absent (hn : s.queue? n = none) : cqModerationEff n s = s := by
  unfold cqModerationEff
  rw [hn]

variable {y : Queue} (hn : s.queue? n = some y)
include hn

theorem cqModerationEff_idle (hi : y.armed = false ∨ y.since = 0) : cqModerationEff n s = s := by
  unfold cqModerationEff
  rw [hn]
  refine if_neg ?_
  rcases hi with ha | hz
  · simp [ha]
  · simp [hz]

theorem cqModerationEff_raises (ha : y.armed = true) (hz : y.since ≠ 0) : cqModerationEff n s = s.raiseCq n y := by
  unfold cqModerationEff
  rw [hn]
  exact if_pos (by simp [ha, hz])

end

theorem completes_cqModerationExpiry (s : State) (q : BitVec 20) :
    Completes (.cqModerationExpiry q) s fun t =>
      (s.queue? q.toNat = none → t = s)
      ∧ (∀ y, s.queue? q.toNat = some y → (y.armed = false ∨ y.since = 0 → t = s)
          ∧ (y.armed = true → y.since ≠ 0 → t = s.raiseCq q.toNat y ∧ t.queue? q.toNat = some { y with armed := false, since := 0 }))
      ∧ t = { s with host0 := t.host0, host1 := t.host1, queues := t.queues, out := t.out } := by
  refine ⟨cqModerationEff q.toNat s, rfl, cqModerationEff_absent, fun y hn => ⟨cqModerationEff_idle hn, fun ha hz => ?_⟩,
    eq_patch_of_same (cqModerationEff_same ..)⟩
  rw [cqModerationEff_raises hn ha hz]
  exact ⟨rfl, queue?_raiseCq_self s q.toNat y⟩

/-- Settles O43, an operation at a time: what a command shows, then the effect of one that is taken. -/
theorem queueCommands : Obligations.QueueCommands := by
  unfold Obligations.QueueCommands
  refine ⟨fun s u h q seen => completes_qcmd_shows (isQcmd_create h q seen) (by decide), fun s u h q seen img hs hu hi => ?_,
    fun s u h q seen => completes_qcmd_shows (isQcmd_modify h q seen) (by decide), fun s u h q seen img hs => completes_queueModify hs,
    fun s u h q seen => completes_qcmd_shows (isQcmd_query h q seen) (by decide), fun s u h q seen img hs hu _ => completes_queueQuery hs hu,
    fun s u h q seen => completes_qcmd_shows (isQcmd_destroy h q seen) (by decide),
    fun s u h q seen img hs hu _ => completes_queueDestroy hs hu, completes_dcinv, completes_entryFetchReturn,
    fun s u q seen y r hs => completes_entryFetchReturn_one hs, completes_refetchTimer,
    fun s u q pos k seen y bs r hs => completes_refetchTimer_reads hs, completes_cqModerationExpiry⟩
  obtain ⟨t, hexec, hpresent, hforeign, himage⟩ := completes_queueCreate hs hu hi
  refine ⟨t, hexec, hpresent, hforeign, fun hn ho hp => ?_⟩
  obtain ⟨hbad, hqueue⟩ := himage hn ho hp
  refine ⟨hbad, fun x hx => ?_⟩
  rw [hqueue x hx]
  refine ⟨createQueue_bad, fun h0 hring hpart hslot htype => ⟨createQueue_disabled h0 hring hpart hslot htype, fun he => ?_⟩⟩
  rw [createQueue_cq h0 hring hpart hslot htype he]
  exact ⟨(queue?_qcmdEnd ..).trans (queue?_createdQueue ..), get_qcmdEnd_result _ h (by decide), rfl⟩

end Sys2Proof.Machine.Proofs
end

section
/-! PROOFS. A reserved bit of a port share (PART_PSHARE, 09_partitions_instances_migration.md R246) outlives an accepted write. -/

namespace Sys2Proof.Machine.Proofs

open Laws Sys2Proof.Tests

/-- Partition 1 of host 0 in CONFIG, with the reserved bit 30 of its first port share set. -/
def staleShare : State := ((owned 1).put (Reg.PART_STS.STATE 1) 1).setReg 0x84040 0x40000000

/-- The write of a valid share of port 5 meets every premise of the clause about accepted port shares. -/
theorem staleShare_premises :
    Takes staleShare 0 (0x84040 : BitVec 24).toNat ∧ (holdingOff (0x84040 : BitVec 24).toNat = true ∧ 1 = holdingPart (0x84040 : BitVec 24).toNat)
      ∧ staleShare.pstate 1 = 1 ∧ (staleShare.applyWrite (0x84040 : BitVec 24).toNat 0x80000105).sharesOk 1 = true := by
  decide +kernel

/-- No field covers bit 30, so the write leaves it as it was. -/
theorem staleShare_written :
    (staleShare.hostWrite 0 0x84040 (holdingEff 0x84040 0x80000105)).reg 0x84040 = 0xC0000105 := by
  decide +kernel

/-- Refutes O37: an accepted PART_PSHARE write keeps the register's reserved bit 30 (00_scope.md Table 0.4 speaks of fields alone), and the
clause about it gives that bit as 0, whatever the register held before. -/
theorem not_partitionLife : ¬ Obligations.PartitionLife := by
  unfold Obligations.PartitionLife
  rintro ⟨-, -, -, -, -, -, -, -, hholding, -⟩
  obtain ⟨htakes, hoff, hconfig, hshares⟩ := staleShare_premises
  obtain ⟨t, ht, -, -, -, -, -, -, -, hshare, -⟩ := hholding staleShare 0 0x84040 0x80000105 1 htakes hoff
  obtain ⟨hreg, -⟩ := hshare hconfig (by decide) (by decide) hshares
  have hwritten : staleShare.hostWrite 0 0x84040 (holdingEff 0x84040 0x80000105) = t := Host.Outcome.next.inj ht
  have hkept := staleShare_written
  rw [hwritten] at hkept
  exact absurd (hkept.symm.trans hreg) (by decide)

end Sys2Proof.Machine.Proofs
end

section
/-! PROOFS. A key command that waits for a slot past the 4,096 of the device (15_security_and_cipher.md R420, R422) names HOSTIF_PORT_STS
where SEC_KSLOT of its slot would stand, and a function reset lets it act. -/

namespace Sys2Proof.Machine.Proofs

open Laws Sys2Proof.Tests

/-- A partition reset up to the end of its queues, queue pairs and windows. -/
def endedWork (s : State) (p : Nat) : State :=
  ((((s.dropSchedule p).dropFaults p).dropBars p).dropColls (fun c => cidPart c == p)).dropWork (fun c => cidPart c == p)
    (fun w => cidPart w.cid == p)

/-- A state comes from another by what touches neither cores nor keys, and then the end of the waiting key commands. -/
def FlushedFrom (s t : State) : Prop := ∃ u : State, t = u.flushKeyCmds ∧ u.sec = s.sec ∧ u.cores = s.cores

theorem setParts_same (s : State) (x : Parts) : Same 536870912 s { s with parts := x } := by
  constructor <;> intro hb <;> first | rfl | exact absurd hb (by decide)

/-- The reset of a partition without cores ends with the waiting key commands. -/
theorem resetPartition_flushes {s : State} {p : Nat} (hcores : (endedWork s p).coresOf p = []) :
    FlushedFrom (endedWork s p) (s.resetPartition p) := by
  rw [resetPartition_body]
  beta_reduce
  extract_lets +onlyGivenNames -merge -useContext a b c d e f g src h
  have hd : d = endedWork s p := rfl
  clear_value d
  rw [← hd] at hcores ⊢
  have he : e = d := by
    unfold e
    rw [hcores, List.foldl_nil]
  clear_value e
  have hf : Same 556793906 d f := by
    unfold f
    rw [he]
    exact (((dropReductions_same ..).mono (by decide)).seq (clearTrigs_same ..) (by decide)).seq (closeB4_same ..) (by decide)
  clear_value f
  have hg : Same 556793906 d g := Same.foldl _ _ _ (fun _ _ hx => hx.seq (resetReg_same ..) (by decide)) hf
  clear_value g src
  have hh : Same 556793906 d h := hg.seq (setParts_same g _) (by decide)
  clear_value h
  have hu := (hh.seq (showInsts_same h p) (by decide)).seq (putDigest_same _ (Reg.SEC_PMR.off p 0) (List.replicate 32 0)) (by decide)
  exact ⟨_, rfl, hu.sec rfl, hu.cores rfl⟩

/-- An ERASE that waits for no request clears its slot's register. -/
theorem reg_flushKeyCmds_erase {s : State} {h : HostId} {n : Nat} (hcmds : s.sec.keyCmds = [{ host := h, slot := n, key := none }])
    (hcores : s.cores = []) (hoff : Reg.SEC_KSLOT.off n ≠ Reg.SEC_KEY_STS.off h) :
    s.flushKeyCmds.reg (Reg.SEC_KSLOT.off n) = regReset (Reg.SEC_KSLOT.off n) := by
  have hfree : s.slotBusy n = false := by
    unfold State.slotBusy
    rw [hcores]
    rfl
  have hready : s.sec.keyCmds.filter (fun x => !s.slotBusy x.slot) = [{ host := h, slot := n, key := none }] := by
    simp [hcmds, hfree]
  unfold State.flushKeyCmds
  rw [hready]
  change (State.keyCmdEnd (State.setKey _ n none) h 0).reg _ = _
  unfold State.keyCmdEnd
  rw [reg_put_ne _ (Reg.SEC_KEY_STS.RESULT h) _ hoff, reg_put_ne _ (Reg.SEC_KEY_STS.DONE h) _ hoff,
    reg_put_ne _ (Reg.SEC_KEY_STS.BUSY h) _ hoff]
  unfold State.setKey State.resetReg State.reg
  rw [Sparse.at?_del_self]
  rfl

/-- A function reset keeps what the resets of its partitions make of HOSTIF_PORT_STS. -/
theorem portSts_flr (s : State) (h : HostId) : (s.flr h).reg (Reg.HOSTIF_PORT_STS.off h) =
    (((List.range 64).filter (fun p => s.owns h p && !s.flag (Reg.PART_STS.BUSY p))).foldl (fun s p => s.startReset p false) s).reg
      (Reg.HOSTIF_PORT_STS.off h) := by
  have hstays : ((within (Reg.HOSTIF_PORT_STS.off h) 1 (0x50000 + 0x10000 * h.val) 0x10000 && Reg.HOSTIF_PORT_STS.off h != Reg.HOSTIF_PORT_STS.off h)
      || within (Reg.HOSTIF_PORT_STS.off h) 1 (0x400100 + 0x20 * h.val) 0x20
      || within (Reg.HOSTIF_PORT_STS.off h) 1 (0xD0000 + 0x100 * h.val) 0x100) = false := by
    revert h
    decide
  have hapart : Reg.HOSTIF_PORT_STS.off h ≠ (Reg.SHEEP_STS.OUTSTANDING h).off := by
    clear hstays
    revert h
    decide
  unfold State.flr
  extract_lets +onlyGivenNames a b
  have hb : b.reg (Reg.HOSTIF_PORT_STS.off h) = a.reg (Reg.HOSTIF_PORT_STS.off h) := by
    unfold b
    rw [reg_resetRegs, hstays]
    rfl
  refine Eq.trans ?_ hb
  unfold State.setSheep
  rw [reg_put_ne _ _ _ hapart]
  refine reg_of_regs ?_ _
  split <;> exact ((showReady_same ..).regs rfl).trans (setHost_regs ..)

theorem reg_setParts (s : State) (x : Parts) (o : Nat) : ({ s with parts := x } : State).reg o = s.reg o := rfl

/-- Where no command of a partition waits, its reset sets no register beside those of resetPartition but PART_STS. -/
theorem reg_startReset {s : State} {p o : Nat} (frees : Bool) (hinsts : s.parts.insts = []) (hfreezes : s.parts.freezes = [])
    (ho : o ≠ Reg.PART_STS.off p) : (s.startReset p frees).reg o = (s.resetPartition p).reg o := by
  rw [startReset_body]
  beta_reduce
  extract_lets +onlyGivenNames -merge -useContext a b c
  have ha : a = s := by
    unfold a
    rw [hinsts]
    rfl
  clear_value a
  have hb : b = a := by
    unfold b
    rw [ha, hfreezes]
    rfl
  clear_value b
  have hc : c.reg o = (s.resetPartition p).reg o := by
    unfold c
    rw [hb, ha]
    exact reg_put_ne _ _ _ ho
  clear_value c
  exact (reg_setParts c _ o).trans hc

/-- Host 0 owns partition 1, its port is up, and an ERASE of slot 0x7000 waits for no request. -/
def farErase : State := { owned 1 with sec := { (owned 1).sec with keyCmds := [{ host := 0, slot := 0x7000, key := none }] } }

theorem endedWork_farErase : (endedWork farErase 1).sec.keyCmds = [{ host := 0, slot := 0x7000, key := none }] ∧ (endedWork farErase 1).cores = []
   ∧ ∀ k < 64, (endedWork farErase 1).get (Reg.PART_CORES_LO.CORES 1 k) = 0 ∧ (endedWork farErase 1).get (Reg.PART_CORES_HI.CORES 1 k) = 0 := by
  decide +kernel

theorem owns_farErase : (List.range 64).filter (fun p => farErase.owns 0 p && !farErase.flag (Reg.PART_STS.BUSY p)) = [1] := by decide +kernel

/-- SEC_KSLOT of that slot has the offset of HOSTIF_PORT_STS of host 0, and the reset of partition 1 clears it. -/
theorem portSts_flr_farErase : (farErase.flr 0).reg (Reg.HOSTIF_PORT_STS.off 0) = 0 := by
  obtain ⟨hcmds, hcores, hheld⟩ := endedWork_farErase
  obtain ⟨u, hreset, hsec, hsame⟩ := resetPartition_flushes (Sys2Proof.Tests.coresOf_nil _ _ hheld)
  have hcleared := reg_flushKeyCmds_erase (s := u) (by rw [hsec]; exact hcmds) (by rw [hsame]; exact hcores) (by decide)
  refine (portSts_flr farErase 0).trans ?_
  rw [owns_farErase, List.foldl_cons, List.foldl_nil]
  refine (reg_startReset false rfl rfl (by decide)).trans ?_
  rw [hreset]
  exact hcleared.trans (by decide +kernel)

/-- Refutes O38: a function-level reset keeps HOSTIF_PORT_STS only where no waiting key command names a slot that lies past the register
array, and the clause about it lets the waiting commands be any. -/
theorem not_hostsAndOrphans : ¬ Obligations.HostsAndOrphans := by
  unfold Obligations.HostsAndOrphans
  rintro ⟨-, -, -, -, -, -, -, -, hflr, -⟩
  obtain ⟨t, ht, -, hkept, -⟩ := hflr farErase 0
  have hup : farErase.reg (Reg.HOSTIF_PORT_STS.off 0) = 1 := by decide +kernel
  have hreset : farErase.flr 0 = t := Host.Outcome.next.inj ht
  rw [← hreset] at hkept
  exact absurd (portSts_flr_farErase.symm.trans (hkept.trans hup)) (by decide)

end Sys2Proof.Machine.Proofs
end

section
/-! PROOFS. What traffic and the end of work leave still: the registers of the PART block and HOSTIF_PORT_STS
(08_host_interface_and_work_queues.md R208; 09_partitions_instances_migration.md Table 9.1, R251, R255). -/

namespace Sys2Proof.Machine.Proofs

open Laws

/-! The part of the state -/

/-- A register outside the PART block, and HOSTIF_PORT_STS of no host. -/
def loud (o : Nat) : Bool := (o < 0x80000 || 0xC0000 ≤ o) && o != 0x50000 && o != 0x60000

/-- The registers that are not loud, of a register file. -/
def stillRegs (regs : Sparse Word) (o : Nat) : Word := if loud o then 0 else (regs.at? o).getD (regReset o)

def still (s : State) : Nat → Word := stillRegs s.regs

theorem reg_of_still {s t : State} (h : still t = still s) {o : Nat} (ho : loud o = false) : t.reg o = s.reg o := by
  have hreg := congrFun h o
  simp only [still, stillRegs, ho] at hreg
  exact hreg

theorem get_of_still {s t : State} (h : still t = still s) {f : Fld} (hf : loud f.off = false) : t.get f = s.get f := by
  unfold State.get
  rw [reg_of_still h hf]

/-! Updates of the rest -/

theorem still_of_regs {s t : State} (h : t.regs = s.regs) : still t = still s := congrArg stillRegs h

theorem still_of_same {m : Nat} {s t : State} (h : Same m s t) (hregs : m.testBit 1 = false) : still t = still s := still_of_regs (h.regs hregs)

theorem still_of_fst {α : Type} {s t : State} {r : State × α} {a : α} (h : r = (t, a)) (hr : still r.1 = still s) : still t = still s := by
  rw [h] at hr
  exact hr

theorem still_foldl {α : Type} {f : State → α → State} (hf : ∀ s a, still (f s a) = still s) (l : List α) (s : State) :
    still (l.foldl f s) = still s := by
  induction l generalizing s with
  | nil => rfl
  | cons a l ih => exact (ih _).trans (hf s a)

theorem still_setReg (s : State) {o : Nat} (v : Word) (h : loud o = true) : still (s.setReg o v) = still s := by
  funext p
  unfold still stillRegs
  split
  · rfl
  · next hp => exact reg_setReg_ne s v (fun e => hp (e ▸ h))

@[simp] theorem still_put (s : State) {f : Fld} (x : Nat) (h : loud f.off = true) : still (s.put f x) = still s := still_setReg s _ h

@[simp] theorem still_count (s : State) {f : Fld} (n : Nat) (h : loud f.off = true) : still (s.count f n) = still s := still_put s _ h

@[simp] theorem still_setHost (s : State) (h : HostId) (x : HostPort) : still (s.setHost h x) = still s := by
  unfold State.setHost
  split <;> rfl

@[simp] theorem still_emit (s : State) (o : Output) : still (s.emit o) = still s := rfl
@[simp] theorem still_fresh (s : State) : still s.fresh = still s := rfl
@[simp] theorem still_setQueue (s : State) (n : Nat) (q : Queue) : still (s.setQueue n q) = still s := rfl
@[simp] theorem still_setQp (s : State) (q : Nat) (x : Qp) : still (s.setQp q x) = still s := rfl
@[simp] theorem still_setPort (s : State) (p : Nat) (x : Port) : still (s.setPort p x) = still s := rfl
@[simp] theorem still_setCore (s : State) (c : Nat) (x : Core) : still (s.setCore c x) = still s := rfl
@[simp] theorem still_setTrig (s : State) (i : Nat) (x : TrigSlot) : still (s.setTrig i x) = still s := rfl
@[simp] theorem still_setEv (s : State) (h : HostId) (e : EvHost) : still (s.setEv h e) = still s := rfl
@[simp] theorem still_setFlowRt (s : State) (flow : Nat) (r : FlowRt) : still (s.setFlowRt flow r) = still s := rfl

/-! Where the registers stand that traffic writes -/

theorem loud_of_le {o : Nat} (h : 0xC0000 ≤ o) : loud o = true := by
  simp [loud]
  omega

@[simp] theorem loud_hostifCqFullCount (h : HostId) : loud (Reg.HOSTIF_CQ_FULL.COUNT h).off = true := by revert h; decide
@[simp] theorem loud_hostifDbAheadCount (h : HostId) : loud (Reg.HOSTIF_DB_AHEAD.COUNT h).off = true := by revert h; decide
@[simp] theorem loud_hostifMalformedCount (h : HostId) : loud (Reg.HOSTIF_MALFORMED.COUNT h).off = true := by revert h; decide
@[simp] theorem loud_kennelBankMissMisses (k : Nat) : loud (Reg.KENNEL_BANK_MISS.MISSES k).off = true := loud_of_le (Nat.le_add_right_of_le (by decide))
@[simp] theorem loud_kennelBankStsPinned (k : Nat) : loud (Reg.KENNEL_BANK_STS.PINNED k).off = true := loud_of_le (Nat.le_add_right_of_le (by decide))
@[simp] theorem loud_kennelBankStsResident (k : Nat) : loud (Reg.KENNEL_BANK_STS.RESIDENT k).off = true := loud_of_le (Nat.le_add_right_of_le (by decide))
@[simp] theorem loud_kennelCtxUncorrCount : loud Reg.KENNEL_CTX_UNCORR.COUNT.off = true := by decide
@[simp] theorem loud_kennelEvictCount : loud Reg.KENNEL_EVICT.COUNT.off = true := by decide
@[simp] theorem loud_kennelFetchT1Count : loud Reg.KENNEL_FETCH_T1.COUNT.off = true := by decide
@[simp] theorem loud_kennelFetchT2Count : loud Reg.KENNEL_FETCH_T2.COUNT.off = true := by decide
@[simp] theorem loud_kennelRetxCount : loud Reg.KENNEL_RETX.COUNT.off = true := by decide
@[simp] theorem loud_linkDropFencedCount (p : Nat) : loud (Reg.LINK_DROP_FENCED.COUNT p).off = true := loud_of_le (Nat.le_add_right_of_le (by decide))
@[simp] theorem loud_memChUeCount (c : Nat) : loud (Reg.MEM_CH_UE.COUNT c).off = true := loud_of_le (Nat.le_add_right_of_le (by decide))
@[simp] theorem loud_memChUeAddrHiAddrHi (c : Nat) : loud (Reg.MEM_CH_UE_ADDR_HI.ADDR_HI c).off = true := loud_of_le (Nat.le_add_right_of_le (by decide))
@[simp] theorem loud_memChUeAddrHiScrub (c : Nat) : loud (Reg.MEM_CH_UE_ADDR_HI.SCRUB c).off = true := loud_of_le (Nat.le_add_right_of_le (by decide))
@[simp] theorem loud_memChUeAddrLoAddrLo (c : Nat) : loud (Reg.MEM_CH_UE_ADDR_LO.ADDR_LO c).off = true := loud_of_le (Nat.le_add_right_of_le (by decide))
@[simp] theorem loud_memSramUeCount (d : Nat) : loud (Reg.MEM_SRAM_UE.COUNT d).off = true := loud_of_le (Nat.le_add_right_of_le (by decide))
@[simp] theorem loud_meshDrainCount (e : Nat) : loud (Reg.MESH_DRAIN.COUNT e).off = true := loud_of_le (Nat.le_add_right_of_le (by decide))
@[simp] theorem loud_meshHopsDropCount : loud Reg.MESH_HOPS_DROP.COUNT.off = true := by decide
@[simp] theorem loud_meshLostDropCount : loud Reg.MESH_LOST_DROP.COUNT.off = true := by decide
@[simp] theorem loud_meshModeDropCount : loud Reg.MESH_MODE_DROP.COUNT.off = true := by decide
@[simp] theorem loud_meshNorouteDropCount : loud Reg.MESH_NOROUTE_DROP.COUNT.off = true := by decide
@[simp] theorem loud_partCidRejCount (p : Nat) : loud (Reg.PART_CID_REJ.COUNT p).off = true := loud_of_le (Nat.le_add_right_of_le (by decide))
@[simp] theorem loud_schedPoliceDropCount : loud Reg.SCHED_POLICE_DROP.COUNT.off = true := by decide
@[simp] theorem loud_sheepJoinCount (h : Nat) : loud (Reg.SHEEP_JOIN.COUNT h).off = true := loud_of_le (Nat.le_add_right_of_le (by decide))
@[simp] theorem loud_sheepStsOutstanding (h : Nat) : loud (Reg.SHEEP_STS.OUTSTANDING h).off = true := loud_of_le (Nat.le_add_right_of_le (by decide))
@[simp] theorem loud_telemEvqLostCount (h : Nat) : loud (Reg.TELEM_EVQ_LOST.COUNT h).off = true := loud_of_le (Nat.le_add_right_of_le (by decide))
@[simp] theorem loud_telemEvqPendQueued (h : Nat) : loud (Reg.TELEM_EVQ_PEND.QUEUED h).off = true := loud_of_le (Nat.le_add_right_of_le (by decide))
@[simp] theorem loud_telemEvqProdIndex (h : Nat) : loud (Reg.TELEM_EVQ_PROD.INDEX h).off = true := loud_of_le (Nat.le_add_right_of_le (by decide))
@[simp] theorem loud_telemFitFailCount (u : Nat) : loud (Reg.TELEM_FIT_FAIL.COUNT u).off = true := loud_of_le (Nat.le_add_right_of_le (by decide))
@[simp] theorem loud_telemStkStsCount : loud Reg.TELEM_STK_STS.COUNT.off = true := by decide
@[simp] theorem loud_telemStkStsLost : loud Reg.TELEM_STK_STS.LOST.off = true := by decide
@[simp] theorem loud_telemStkStsOldest : loud Reg.TELEM_STK_STS.OLDEST.off = true := by decide
@[simp] theorem loud_trigStaleCount (p : Nat) : loud (Reg.TRIG_STALE.COUNT p).off = true := loud_of_le (Nat.le_add_right_of_le (by decide))

/-! Event records (18_errors_and_telemetry.md R470 to R473) -/

@[simp] theorem still_vector (s : State) (h : HostId) (v : Nat) : still (s.vector h v) = still s := by
  unfold State.vector
  split
  · exact still_setHost s h _
  · rfl

@[simp] theorem still_writeHost (s : State) (h : HostId) (a : Nat) (bs : List Byte) (ro : Bool) : still (s.writeHost h a bs ro) = still s :=
  still_of_same (writeHost_same ..) rfl

@[simp] theorem still_ringWrite (s : State) (h : HostId) (r : EvRec) : still (s.ringWrite h r) = still s := by
  unfold State.ringWrite
  dsimp only
  split <;> simp

@[simp] theorem still_showQueued (s : State) (h : HostId) : still (s.showQueued h) = still s := by simp [State.showQueued]

@[simp] theorem still_sendRecord (s : State) (h : HostId) (r : EvRec) : still (s.sendRecord h r) = still s := by
  unfold State.sendRecord
  split
  · simp
  · split <;> simp

@[simp] theorem still_showSticky (s : State) : still s.showSticky = still s := by simp [State.showSticky]

@[simp] theorem still_stick (s : State) (r : EvRec) : still (s.stick r) = still s := by
  unfold State.stick
  dsimp only
  split
  · simp; rfl
  · split
    · simp
    · simp; rfl

@[simp] theorem still_record (s : State) (h : HostId) (stick : Bool) (r : EvRec) : still (s.record h stick r) = still s := by
  unfold State.record
  dsimp only
  split <;> simp

@[simp] theorem still_occur (s : State) (h : HostId) (stick : Bool) (r : EvRec) : still (s.occur h stick r) = still s := by
  unfold State.occur
  split
  · split <;> simp
  · simp

@[simp] theorem still_event (s : State) (k : EvKind) (args : List Byte) : still (s.event k args) = still s := by simp [State.event]

end Sys2Proof.Machine.Proofs
end

section
/-! PROOFS. Memory accesses, completions and queue-pair contexts leave the same part still (06_queue_pairs_and_delivery.md R145 to R152;
08_host_interface_and_work_queues.md R229 to R239; 14_memory_system.md R380). -/

namespace Sys2Proof.Machine.Proofs

open Laws

/-! Memories -/

@[simp] theorem still_reportUe (s : State) (line : Nat) (scrub : Bool) : still (s.reportUe line scrub) = still s := by
  unfold State.reportUe
  extract_lets +onlyGivenNames a
  split
  · rfl
  · split <;> simp

@[simp] theorem still_ddrWrite (s : State) (a : Nat) (bs : List Byte) : still (s.ddrWrite a bs).1 = still s := by
  unfold State.ddrWrite
  extract_lets +onlyGivenNames n
  split
  · simp
  · rfl

@[simp] theorem still_ddrRead (s : State) (a n : Nat) : still (s.ddrRead a n).1 = still s := by
  unfold State.ddrRead
  split
  · simp
  · rfl

@[simp] theorem still_cidRefused (s : State) (cid : Nat) (e : MemErr) : still (s.cidRefused cid e) = still s := by
  unfold State.cidRefused
  split
  · simp
  · rfl

@[simp] theorem still_memWriteC (s : State) (cid space a : Nat) (bs : List Byte) (flag : Bool) :
    still (s.memWriteC cid space a bs flag).1 = still s := by
  unfold State.memWriteC
  split
  · simp
  · split <;> simp

@[simp] theorem still_memReadC (s : State) (cid space a n : Nat) : still (s.memReadC cid space a n).1 = still s := by
  unfold State.memReadC
  split
  · simp
  · split
    · dsimp only
      split <;> rfl
    · simp
    · rfl

@[simp] theorem still_sysWrite (s : State) (a : Nat) (bs : List Byte) : still (s.sysWrite a bs) = still s := by
  rw [sysWrite_body]
  beta_reduce
  split
  · rfl
  · simp

@[simp] theorem still_sysRead (s : State) (a n : Nat) : still (s.sysRead a n).1 = still s :=
  sysRead_cases s a n (fun r => still r.1 = still s) (fun _ => rfl) (still_ddrRead ..)

@[simp] theorem still_sramUe (s : State) (d e b : Nat) : still (s.sramUe d e b) = still s := by
  unfold State.sramUe
  exact (still_of_same (setTinker_same (s.count (Reg.MEM_SRAM_UE.COUNT d)) _ _) rfl).trans (by simp)

/-! Buffers -/

@[simp] theorem still_walk (s : State) (cid need k space addr covered tables : Nat) (acc : List Frag) :
    still (s.walk cid need k space addr covered tables acc).1 = still s := by
  induction k generalizing s space addr covered tables acc with
  | zero => rfl
  | succ k ih =>
    unfold State.walk
    split
    · rfl
    · split
      · next t e h => exact still_of_fst h (still_memReadC ..)
      · next t bs h =>
        have ht : still t = still s := still_of_fst h (still_memReadC ..)
        split
        · exact ht
        · split
          · exact ht
          · exact (ih ..).trans ht
        · dsimp only
          split
          · exact ht
          · exact (ih ..).trans ht

@[simp] theorem still_frags (s : State) (cid : Nat) (b : Buf) (need : Nat) : still (s.frags cid b need).1 = still s := by
  unfold State.frags
  split
  · rfl
  · simp

theorem still_readPieces (cid : Nat) (ps : List (Frag × Nat × Nat × Nat)) (s : State) (acc : List Byte) :
    still (s.readPieces cid ps acc).1 = still s := by
  induction ps generalizing s acc with
  | nil => rfl
  | cons p ps ih =>
    unfold State.readPieces
    split
    · next t bs h => exact (ih ..).trans (still_of_fst h (still_memReadC ..))
    · next t e h => exact still_of_fst h (still_memReadC ..)

@[simp] theorem still_moved (s : State) (kept : Bool) (bs : List Byte) : still (s.moved kept bs).1 = still s := by
  unfold State.moved
  split <;> rfl

@[simp] theorem still_bufRead (s : State) (cid : Nat) (b : Buf) (off n : Nat) : still (s.bufRead cid b off n).1 = still s := by
  unfold State.bufRead
  split
  · rfl
  · split
    · split <;> exact still_of_fst ‹_› (still_memReadC ..)
    · split
      · next t fs h =>
        have ht : still t = still s := still_of_fst h (still_frags ..)
        dsimp only
        split
        · exact ht
        · split
          · next u bs hu => exact (still_moved ..).trans ((still_of_fst hu (still_readPieces ..)).trans ht)
          · exact (still_readPieces ..).trans ht
      · exact still_of_fst ‹_› (still_frags ..)
      · exact still_of_fst ‹_› (still_frags ..)
      · exact still_of_fst ‹_› (still_frags ..)

/-! Completions -/

@[simp] theorem still_modLive (s : State) (n pos : Nat) (f : Live → Live) : still (s.modLive n pos f) = still s :=
  still_of_same (modLive_same ..) rfl

@[simp] theorem still_trigInc (s : State) (p i gen : Nat) : still (s.trigInc p i gen) = still s := by
  unfold State.trigInc
  extract_lets +onlyGivenNames t
  split <;> simp

@[simp] theorem still_raiseCq (s : State) (n : Nat) (q : Queue) : still (s.raiseCq n q) = still s := by simp [State.raiseCq]

@[simp] theorem still_cqWrite (s : State) (n : Nat) (q : Queue) (bytes : List Byte) : still (s.cqWrite n q bytes).1 = still s := by
  unfold State.cqWrite
  extract_lets +onlyGivenNames bs
  split
  · exact still_of_fst ‹_› (still_memWriteC ..)
  · next t r _ h =>
    have ht : still t = still s := still_of_fst h (still_memWriteC ..)
    extract_lets +onlyGivenNames q u v
    have hv : still v = still s := by
      unfold v
      split <;> simp [u, ht]
    dsimp only
    split
    · exact (still_raiseCq ..).trans hv
    · exact hv

@[simp] theorem still_complete (s : State) (n : Nat) (bytes : List Byte) : still (s.complete n bytes) = still s := by
  unfold State.complete
  split
  · rfl
  · split
    · rfl
    · split
      · simp
      · split
        · exact still_of_fst ‹_› (still_cqWrite ..)
        · next h => exact (still_setQueue ..).trans (still_of_fst h (still_cqWrite ..))

@[simp] theorem still_writeEnd (s : State) (n : Nat) (q : Queue) (l : Live) : still (s.writeEnd n q l) = still s := by
  unfold State.writeEnd
  split
  · rfl
  · extract_lets +onlyGivenNames e
    split
    · rfl
    · extract_lets +onlyGivenNames qp st h t u v
      have ht : still t = still s := by unfold t; split <;> simp
      have hu : still u = still t := by unfold u; split <;> simp
      have hv : still v = still u := by unfold v; split <;> simp
      split <;> simp [ht, hu, hv]

theorem still_flushQueue (s : State) (n k : Nat) : still (s.flushQueue n k) = still s := by
  induction k generalizing s with
  | zero => rfl
  | succ k ih =>
    unfold State.flushQueue
    split
    · rfl
    · extract_lets +onlyGivenNames firstQp
      split
      · rfl
      · extract_lets +onlyGivenNames q t
        have ht : still t = still s := by unfold t; split <;> rfl
        exact (ih _).trans (by simp [ht])

@[simp] theorem still_endEntry (s : State) (n pos st bytes data : Nat) (remote : Bool) :
    still (s.endEntry n pos st bytes data remote) = still s := by
  unfold State.endEntry
  extract_lets +onlyGivenNames t
  have ht : still t = still s := still_modLive ..
  split
  · exact ht
  · exact (still_flushQueue ..).trans ht

/-! Contexts -/

@[simp] theorem still_modQp (s : State) (q : Nat) (f : Qp → Qp) : still (s.modQp q f) = still s := still_of_same (modQp_same ..) rfl

@[simp] theorem still_modCtx (s : State) (q : Nat) (f : QpCtx → QpCtx) : still (s.modCtx q f) = still s := still_modQp ..

@[simp] theorem still_spill (s : State) (q : Nat) : still (s.spill q) = still s := by
  unfold State.spill
  split
  · rfl
  · extract_lets +onlyGivenNames p
    split
    · rfl
    · extract_lets +onlyGivenNames t
      have ht : still t = still s := rfl
      split
      · exact (still_sysWrite ..).trans ht
      · exact (still_writeHost ..).trans ht

@[simp] theorem still_settle (s : State) (q : Nat) : still (s.settle q) = still s := by
  unfold State.settle
  split
  · split <;> simp
  · rfl

@[simp] theorem still_endAll (s : State) (n st : Nat) : still (s.endAll n st) = still s := by
  unfold State.endAll
  split
  · rfl
  · exact still_foldl (fun s l => by split <;> simp) _ _

@[simp] theorem still_errorHere (s : State) (q st psn : Nat) : still (s.errorHere q st psn) = still s := by
  unfold State.errorHere
  split
  · rfl
  · split
    · rfl
    · exact (still_endAll ..).trans ((still_endAll ..).trans rfl)

@[simp] theorem still_checkCtx (s : State) (q : Nat) : still (s.checkCtx q) = still s := by
  unfold State.checkCtx
  split
  · extract_lets +onlyGivenNames _ t u
    have ht : still t = still s := rfl
    simp [u, ht]
  · rfl

@[simp] theorem still_showBank (s : State) (k : Nat) : still (s.showBank k) = still s := by simp [State.showBank]

@[simp] theorem still_evict (s : State) (q : Nat) : still (s.evict q) = still s := by
  unfold State.evict
  extract_lets +onlyGivenNames t _ u mine
  have hu : still u = still s := by
    change still t = still s
    simp [t]
  split
  · exact hu
  · split
    · exact (still_spill ..).trans hu
    · exact hu

@[simp] theorem still_makeRoom (s : State) (p k : Nat) : still (s.makeRoom p k) = still s := by
  unfold State.makeRoom
  extract_lets +onlyGivenNames free mine
  split
  · split <;> simp
  · split
    · split <;> simp
    · rfl

@[simp] theorem still_bringIn (s : State) (q : Nat) : still (s.bringIn q) = still s := by
  unfold State.bringIn
  split
  · rfl
  · extract_lets +onlyGivenNames k t _ u
    have hu : still u = still s := (still_makeRoom s _ _ : still t = still s)
    split <;> simp [hu]

@[simp] theorem still_readSpill (s : State) (x : Qp) : still (s.readSpill x).1 = still s := by
  unfold State.readSpill
  extract_lets +onlyGivenNames p
  split
  · split <;> simp [still_of_fst ‹_› (still_sysRead ..)]
  · simp

@[simp] theorem still_fetchIn (s : State) (q : Nat) : still (s.fetchIn q) = still s := by
  unfold State.fetchIn
  split
  · rfl
  · split
    · rfl
    · split
      · simp
      · split
        · next t bs h =>
          have ht : still t = still s := still_of_fst h (still_readSpill ..)
          split <;> simp [ht]
        · next t h =>
          have ht : still t = still s := still_of_fst h (still_readSpill ..)
          simp [ht]

@[simp] theorem still_need (s : State) (q : Nat) : still (s.need q) = still s := by
  unfold State.need
  split
  · rfl
  · split
    · simp
    · split
      · simp
      · split <;> simp

@[simp] theorem still_qpError (s : State) (q st psn : Nat) : still (s.qpError q st psn) = still s := by simp [State.qpError]

@[simp] theorem still_miss (s : State) (q : Nat) : still (s.miss q) = still s := by
  unfold State.miss
  extract_lets +onlyGivenNames k t
  have ht : still t = still s := still_count _ _ (by simp)
  split
  · exact ht
  · split <;> exact ht

theorem still_whenIn (s : State) (q : Nat) (j : CtxJob) {act : State → State} (hact : ∀ u, still (act u) = still u) :
    still (s.whenIn q j act) = still s := by
  unfold State.whenIn
  split
  · exact hact s
  · split
    · exact (hact _).trans (still_checkCtx ..)
    · split
      · exact (hact _).trans (still_fetchIn ..)
      · refine (still_miss ..).trans ?_
        split <;> rfl

/-! Fragment faults -/

@[simp] theorem still_setSheep (s : State) (h : HostId) (x : Sheep) : still (s.setSheep h x) = still s := by
  unfold State.setSheep
  split <;> exact still_put _ _ (by simp)

@[simp] theorem still_raiseFault (s : State) (cid : Nat) (f : Frag) (a : Access) (w : FaultWaiter) :
    still (s.raiseFault cid f a w).1 = still s := by
  unfold State.raiseFault
  extract_lets +onlyGivenNames h x
  split
  · dsimp only
    split <;> simp
  · split
    · rfl
    · simp

end Sys2Proof.Machine.Proofs
end

section
/-! PROOFS. Frames onto the mesh and packets of queue pairs leave the same part still (04_routing_and_mesh.md R89 to
R115; 05_schedules_and_admission.md R128; 06_queue_pairs_and_delivery.md R155 to R167). -/

namespace Sys2Proof.Machine.Proofs

open Laws

/-! Frames that leave -/

@[simp] theorem still_pathDrop (s : State) (f : Frame) : still (s.pathDrop f) = still s := still_of_same (pathDrop_same ..) rfl

@[simp] theorem still_lostDrop (s : State) (f : Frame) : still (s.lostDrop f) = still s := by simp [State.lostDrop]

@[simp] theorem still_enter (s : State) (e : Nat) : still (s.enter e) = still s := still_put _ _ (by simp)

@[simp] theorem still_leave (s : State) (e : Nat) : still (s.leave e) = still s := still_put _ _ (by simp)

@[simp] theorem still_freeCells (s : State) (p sub cls n : Nat) : still (s.freeCells p sub cls n) = still s :=
  still_of_same (freeCells_same ..) rfl

@[simp] theorem still_holdCells (s : State) (p sub cls n : Nat) : still (s.holdCells p sub cls n) = still s :=
  still_of_same (holdCells_same ..) rfl

@[simp] theorem still_purgeKept (s : State) : still s.purgeKept = still s := rfl

@[simp] theorem still_frameGone (s : State) (f : Frame) : still (s.frameGone f) = still s := by
  unfold State.frameGone
  extract_lets +onlyGivenNames t u _ v
  have ht : still t = still s := by unfold t; split <;> simp
  have hu : still u = still t := by unfold u; split <;> simp
  have hv : still v = still u := by unfold v; split <;> simp
  split <;> simp [ht, hu, hv]

@[simp] theorem still_flowDepth (s : State) (flow : Nat) (d : Int) : still (s.flowDepth flow d) = still s := by
  unfold State.flowDepth
  split
  · rfl
  · simp

/-! Frames onto the mesh -/

@[simp] theorem still_letIn (s : State) (f : Frame) : still (s.letIn f).1 = still s := by
  unfold State.letIn
  extract_lets +onlyGivenNames t _ u
  have ht : still t = still s := still_enter ..
  have hu : still u = still t := by unfold u; split <;> simp
  split <;> simp [ht, hu]

@[simp] theorem still_sampleDepth (s : State) (p sub cls : Nat) : still (s.sampleDepth p sub cls) = still s :=
  still_of_same (sampleDepth_same ..) rfl

@[simp] theorem still_enqueue (s : State) (p sub : Nat) (f : Frame) : still (s.enqueue p sub f) = still s := by simp [State.enqueue]

@[simp] theorem still_toEndpoint (s : State) (f : Frame) (roce : Bool) : still (s.toEndpoint f roce) = still s := by
  unfold State.toEndpoint
  dsimp only
  split
  · simp
  · rfl

@[simp] theorem still_exitMesh (s : State) (f : Frame) (e : MeshExit) : still (s.exitMesh f e) = still s := by
  unfold State.exitMesh
  split
  · extract_lets +onlyGivenNames sub
    split
    · simp
    · split <;> simp
  · simp
  · exact still_of_same (toStage_same ..) rfl

@[simp] theorem still_cross (s : State) (f : Frame) (vc : Nat) (path : List (Nat × Nat)) (pin : Option Nat) (e : MeshExit) :
    still (s.cross f vc path pin e) = still s := by
  unfold State.cross
  split
  next t g h =>
  have ht : still t = still s := still_of_fst h (still_letIn ..)
  split
  · exact (still_exitMesh ..).trans ht
  · cases pin <;> exact ht

@[simp] theorem still_crossFree (s : State) (f : Frame) (from_ dest : Nat) (e : MeshExit) : still (s.crossFree f from_ dest e) = still s := by
  unfold State.crossFree
  extract_lets +onlyGivenNames pin
  split
  · simp
  · dsimp only
    exact still_cross ..

@[simp] theorem still_crossPath (s : State) (f : Frame) (p : PathRec) (e : MeshExit) : still (s.crossPath f p e) = still s := still_cross ..

theorem still_follow (s : State) (from_ : Nat) (f : Frame) {r : Route} (hr : CountsNoRoute r) : still (s.follow from_ f r) = still s := by
  unfold State.follow
  split
  · next c => rw [hr c rfl]; simp
  · rfl
  · split <;> simp

@[simp] theorem still_launch (s : State) (from_ : Nat) (f : Frame) : still (s.launch from_ f) = still s := by
  unfold State.launch
  split
  · split
    · simp
    · exact still_follow _ _ _ (countsNoRoute_routeFca _ _ _ _)
  · split
    · simp
    · split <;> simp

@[simp] theorem still_policeDrop (s : State) (f : FlowRec) : still (s.policeDrop f) = still s := by simp [State.policeDrop]

@[simp] theorem still_takeTokens (s : State) (f : FlowRec) (len : Nat) : still (s.takeTokens f len) = still s := rfl

@[simp] theorem still_originate (s : State) (from_ : Nat) (f : Frame) : still (s.originate from_ f) = still s := by
  unfold State.originate
  split
  · simp
  · split
    · simp
    · split
      · rfl
      · simp

/-! Packets -/

@[simp] theorem still_avOf (s : State) (c : QpCtx) : still (s.avOf c).1 = still s := by
  unfold State.avOf
  extract_lets +onlyGivenNames p i
  split
  · rfl
  · dsimp only
    split <;> exact still_of_fst ‹_› (still_memReadC ..)

@[simp] theorem still_pktFrame (s : State) (c : QpCtx) (req : Bool) (t : TPkt) : still (s.pktFrame c req t).1 = still s := by
  unfold State.pktFrame
  extract_lets +onlyGivenNames f
  split
  · rfl
  · split <;> exact still_of_fst ‹_› (still_avOf ..)

@[simp] theorem still_sendFrame (s : State) (c : QpCtx) (f : Frame) (port : Nat) : still (s.sendFrame c f port) = still s := by
  unfold State.sendFrame
  split
  · simp
  · refine still_follow _ _ _ ?_
    split
    · exact countsNoRoute_routeOut _ _ _ _
    · exact countsNoRoute_drop

@[simp] theorem still_sendPkt (s : State) (c : QpCtx) (req : Bool) (t : TPkt) : still (s.sendPkt c req t) = still s := by
  unfold State.sendPkt
  split
  · next h => exact (still_sendFrame ..).trans (still_of_fst h (still_pktFrame ..))
  · next h => exact still_of_fst h (still_pktFrame ..)

@[simp] theorem still_sendResync (s : State) (q : Nat) : still (s.sendResync q) = still s := by
  unfold State.sendResync
  split
  · rfl
  · split
    · simp
    · rfl

@[simp] theorem still_sourceData (s : State) (c : QpCtx) (l : Live) (off n : Nat) : still (s.sourceData c l off n).1 = still s := by
  unfold State.sourceData
  split
  · rfl
  · split
    · next t h => exact (still_fresh t).trans (still_of_fst h (still_bufRead ..))
    · exact still_bufRead ..

@[simp] theorem still_build (s : State) (c : QpCtx) (l : Live) (p : Nat) : still (s.build c l p).1 = still s := by
  unfold State.build
  extract_lets +onlyGivenNames e i n ackAt t
  split
  · split
    · rfl
    · dsimp only
      split <;> exact still_of_fst ‹_› (still_sourceData ..)
  · split <;> rfl

@[simp] theorem still_failReq (s : State) (q pos st psn : Nat) (remote : Bool) : still (s.failReq q pos st psn remote) = still s := by
  unfold State.failReq State.failEntry
  split
  · rfl
  · simp

@[simp] theorem still_stopAt (s : State) (c : QpCtx) (l : Live) (fs : List Frag) : still (s.stopAt c l fs) = still s := by
  unfold State.stopAt
  split
  · rfl
  · split
    · next h => exact (still_modLive ..).trans (still_of_fst h (still_raiseFault ..))
    · next h => exact still_of_fst h (still_raiseFault ..)

@[simp] theorem still_showOut (s : State) (q : Nat) : still (s.showOut q) = still s := still_modCtx ..

theorem still_pumpN (s : State) (q k : Nat) : still (s.pumpN q k) = still s := by
  induction k generalizing s with
  | zero => rfl
  | succ k ih =>
    unfold State.pumpN
    split
    · rfl
    · extract_lets +onlyGivenNames c p
      split
      · rfl
      · split
        · split
          · exact (ih _).trans (still_modQp ..)
          · rfl
        · split
          · exact (ih _).trans (still_modQp ..)
          · split
            · rfl
            · split
              · next t pkt n h =>
                have ht : still t = still s := still_of_fst h (still_build ..)
                split
                · next hu => exact (still_of_fst hu (still_pktFrame ..)).trans ht
                · next hu => exact (still_failReq ..).trans ((still_of_fst hu (still_pktFrame ..)).trans ht)
                · next u f port hu =>
                  have hu : still u = still s := (still_of_fst hu (still_pktFrame ..)).trans ht
                  split
                  · exact hu
                  · refine (ih _).trans ?_
                    split <;> simp [hu]
              · next h => exact still_of_fst h (still_build ..)
              · next h => exact (still_stopAt ..).trans (still_of_fst h (still_build ..))
              · next h => exact (still_failReq ..).trans (still_of_fst h (still_build ..))

@[simp] theorem still_pump (s : State) (q : Nat) : still (s.pump q) = still s := by
  unfold State.pump
  split
  · split
    · exact still_whenIn _ _ _ fun u => still_pumpN u _ _
    · rfl
  · rfl

/-! Packets again -/

@[simp] theorem still_disturb (s : State) (n : Nat) : still (s.disturb n) = still s := still_of_same (disturb_same ..) rfl

@[simp] theorem still_resend (s : State) (q p : Nat) : still (s.resend q p) = still s := by
  unfold State.resend
  split
  · rfl
  · extract_lets +onlyGivenNames c any
    split
    · rfl
    · extract_lets +onlyGivenNames t
      have ht : still t = still s := by unfold t; split <;> simp
      simp [ht]

end Sys2Proof.Machine.Proofs
end


section
/-! PROOFS. The command frame: a PART_CMD write, its word, and what a command that is taken does (09_partitions_instances_migration.md R252,
Table 9.3). -/

namespace Sys2Proof.Machine.Proofs

open Laws

/-! The word written -/

theorem b2n_lt (b : Bool) : b2n b < 2 := by cases b <;> decide

theorem toNat_partWord {op : Nat} (hop : op < 16) (sc : Bool) (p : PartId) (i : BitVec 10) :
    (partWord op sc p i).toNat = 2 ^ 31 + op + 2 ^ 4 * b2n sc + 2 ^ 5 * p.val + 2 ^ 11 * i.toNat := by
  have hsc := b2n_lt sc
  unfold partWord
  rw [BitVec.toNat_ofNat]
  omega

section
variable {op : Nat} (hop : op < 16) (sc : Bool) (p : PartId) (i : BitVec 10)
include hop

theorem partWord_op : wordField (partWord op sc p i) 0 4 = op := by
  have hsc := b2n_lt sc
  rw [wordField_eq_bits, toNat_partWord hop]
  omega

theorem partWord_scope : wordField (partWord op sc p i) 4 1 = b2n sc := by
  have hsc := b2n_lt sc
  rw [wordField_eq_bits, toNat_partWord hop]
  omega

theorem partWord_part : wordField (partWord op sc p i) 5 6 = p.val := by
  have hsc := b2n_lt sc
  rw [wordField_eq_bits, toNat_partWord hop]
  omega

theorem partWord_inst : wordField (partWord op sc p i) 11 10 = i.toNat := by
  have hsc := b2n_lt sc
  rw [wordField_eq_bits, toNat_partWord hop]
  omega

theorem partWord_go : wordField (partWord op sc p i) 31 1 = 1 := by
  have hsc := b2n_lt sc
  rw [wordField_eq_bits, toNat_partWord hop]
  omega

end

/-! PART_CMD -/

/-- The fields of PART_CMD that a write sets; GO reads 0. -/
def partCmdRow : RegRow := ⟨"PART_CMD", 0xB000C, [(2, 256)], .host 0,
  [⟨0, 4, .rw, 0, 0, 15⟩, ⟨4, 1, .rw, 0, 0, 1⟩, ⟨5, 6, .rw, 0, 0, 63⟩, ⟨11, 10, .rw, 0, 0, 1023⟩]⟩

theorem plainReg_partCmd : PlainReg partCmdRow := by decide

theorem regAt_partCmd (h : HostId) : ∃ r, regAt? (Reg.PART_CMD.off h) = some (r, [h.val])
    ∧ r.fields = partCmdRow.fields ++ [⟨31, 1, .w1s0, 0, 0, 1⟩] := by
  match h with
  | 0 => exact ⟨_, rfl, rfl⟩
  | 1 => exact ⟨_, rfl, rfl⟩

theorem applyWrite_partCmd (s : State) (h : HostId) (v : Word) :
    s.applyWrite (Reg.PART_CMD.off h) v = s.applyFields partCmdRow (Reg.PART_CMD.off h) v := by
  obtain ⟨r, hreg, hfields⟩ := regAt_partCmd h
  rw [applyWrite_plain hreg (by rw [hfields]; decide)]
  unfold State.applyFields
  rw [hfields]
  rfl

section
variable (s : State) (h : HostId) {op : Nat} (hop : op < 16) (sc : Bool) (p : PartId) (i : BitVec 10)
include hop

theorem get_applyWrite_partCmd_partition :
    (s.applyWrite (Reg.PART_CMD.off h) (partWord op sc p i)).get (Reg.PART_CMD.PARTITION h) = p.val := by
  rw [applyWrite_partCmd, ← partWord_part hop sc p i]
  exact get_applyFields_whole s plainReg_partCmd _ _ (g := ⟨5, 6, .rw, 0, 0, 63⟩) (by decide) (by decide)

theorem get_applyWrite_partCmd_instance :
    (s.applyWrite (Reg.PART_CMD.off h) (partWord op sc p i)).get (Reg.PART_CMD.INSTANCE h) = i.toNat := by
  rw [applyWrite_partCmd, ← partWord_inst hop sc p i]
  exact get_applyFields_whole s plainReg_partCmd _ _ (g := ⟨11, 10, .rw, 0, 0, 1023⟩) (by decide) (by decide)

end

theorem regsBut_applyWrite_partCmd (s : State) (h : HostId) (v : Word) : RegsBut [Reg.PART_CMD.off h] s (s.applyWrite (Reg.PART_CMD.off h) v) := by
  rw [applyWrite_partCmd]
  exact regsBut_applyFields s _ _ _

/-- What is read beside PART_CMD is read as before its write. -/
theorem get_applyWrite_partCmd_ne (s : State) (h : HostId) (v : Word) {f : Fld} (hf : f.off ≠ Reg.PART_CMD.off h) :
    (s.applyWrite (Reg.PART_CMD.off h) v).get f = s.get f := by
  rw [applyWrite_partCmd]
  exact get_applyFields_ne s _ v hf

/-! What a command's write does -/

/-- A command that is taken: OP, partition, index and scope. -/
def partCmdRun (u : State) (h : HostId) (op p n : Nat) (j : Option Nat) : State :=
  match op with
  | 1 => u.instCommand h 1 p n
  | 2 => u.instCommand h 2 p n
  | 3 => u.instCommand h 3 p n
  | 4 => u.freeze h p j
  | 5 => u.thaw h p j
  | 6 => u.save h p j
  | 7 => u.restore h p j
  | _ => u.partCmdEnd h 2

theorem partCmdEff_busy {s : State} {h : HostId} (v : Word) (seen : Seen) (hb : s.flag (Reg.PART_CMD_STS.BUSY h) = true) :
    partCmdEff h v seen s = s.applyWrite (Reg.PART_CMD.off h) v :=
  if_pos (.inr hb)

section
variable {s : State} {h : HostId} {op : Nat} (hop : op < 16) (sc : Bool) (p : PartId) (i : BitVec 10) (seen : Seen)
include hop

theorem partCmdEff_runs (hb : s.flag (Reg.PART_CMD_STS.BUSY h) = false) :
    partCmdEff h (partWord op sc p i) seen s
      = partCmdRun ((s.applyWrite (Reg.PART_CMD.off h) (partWord op sc p i)).see seen) h op p.val i.toNat (if sc then some i.toNat else none) := by
  unfold partCmdEff
  have hgo : ¬ (wordField (partWord op sc p i) 31 1 = 0 ∨ s.flag (Reg.PART_CMD_STS.BUSY h) = true) := by
    rw [partWord_go hop, hb]
    decide
  have hsc : (b2n sc = 1) = (sc = true) := by cases sc <;> decide
  dsimp only
  rw [if_neg hgo, partWord_op hop, partWord_part hop, partWord_inst hop, partWord_scope hop]
  simp only [hsc]
  rfl

end

/-- A command of Table 9.3 is a PART_CMD write with GO. -/
def IsPartCmd (c : Instr) (h : HostId) (op : Nat) (sc : Bool) (p : PartId) (i : BitVec 10) (seen : Seen) : Prop :=
  ∀ s, exec c s = .next (s.hostWrite h (Reg.PART_CMD.off h) (partCmdEff h (partWord op sc p i) seen))

section
variable {c : Instr} {s : State} {h : HostId} {op : Nat} {sc : Bool} {p : PartId} {i : BitVec 10} {seen : Seen}
  (hc : IsPartCmd c h op sc p i seen) (hop : op < 16)
include hc hop

/-- While BUSY a command's write sets the fields of PART_CMD and no more. -/
theorem completes_partCmd_busy (hs : Takes s h (Reg.PART_CMD.off h) ∧ s.flag (Reg.PART_CMD_STS.BUSY h) = true) :
    Completes c s fun t =>
      t = s.applyWrite (Reg.PART_CMD.off h) (partWord op sc p i) ∧ t.get (Reg.PART_CMD.PARTITION h) = p.val
        ∧ t.get (Reg.PART_CMD.INSTANCE h) = i.toNat ∧ RegsBut [Reg.PART_CMD.off h] s t := by
  obtain ⟨htakes, hbusy⟩ := hs
  refine ⟨_, hc s, ?_⟩
  rw [hostWrite_takes _ htakes, partCmdEff_busy _ _ hbusy]
  exact ⟨rfl, get_applyWrite_partCmd_partition s h hop sc p i, get_applyWrite_partCmd_instance s h hop sc p i, regsBut_applyWrite_partCmd s h _⟩

/-- Otherwise it runs. -/
theorem completes_partCmd_runs {P : State → Prop} {t : State} (htakes : Takes s h (Reg.PART_CMD.off h))
    (hbusy : s.flag (Reg.PART_CMD_STS.BUSY h) = false)
    (hrun : partCmdRun ((s.applyWrite (Reg.PART_CMD.off h) (partWord op sc p i)).see seen) h op p.val i.toNat (if sc then some i.toNat else none) = t)
    (hP : P t) : Completes c s P := by
  refine ⟨_, hc s, ?_⟩
  rw [hostWrite_takes _ htakes, partCmdEff_runs hop sc p i seen hbusy, hrun]
  exact hP

end

/-! The end of a command -/

theorem partCmdSts_off_lt (h : HostId) : Reg.PART_CMD_STS.off h < 0x700000 := by
  unfold Reg.PART_CMD_STS.off
  omega

theorem get_partCmdEnd_ne (s : State) (h : HostId) (r : Nat) {f : Fld} (hlt : f.off < 0x700000) (hf : f.off ≠ Reg.PART_CMD_STS.off h) :
    (s.partCmdEnd h r).get f = s.get f := by
  unfold State.partCmdEnd
  rw [(keepsRegs_vector _ _ _).get (Nat.zero_le _) hlt, get_put_ne _ _ _ _ hf, get_put_ne _ _ _ _ hf, get_put_ne _ _ _ _ hf]

@[simp] theorem get_partCmdEnd_result (s : State) (h : HostId) {r : Nat} (hr : r < 16) : (s.partCmdEnd h r).get (Reg.PART_CMD_STS.RESULT h) = r := by
  unfold State.partCmdEnd
  rw [(keepsRegs_vector _ _ _).get (Nat.zero_le _) (partCmdSts_off_lt h)]
  exact get_put_fits _ _ _ (by decide : 4 + 4 ≤ 32) hr

@[simp] theorem get_partCmdEnd_done (s : State) (h : HostId) (r : Nat) : (s.partCmdEnd h r).get (Reg.PART_CMD_STS.DONE h) = 1 := by
  unfold State.partCmdEnd
  rw [(keepsRegs_vector _ _ _).get (Nat.zero_le _) (partCmdSts_off_lt h), get_put_apart (by rfl)]
  exact get_put_fits _ _ _ (by decide : 1 + 1 ≤ 32) (by decide : 1 < 2 ^ 1)

@[simp] theorem get_partCmdEnd_busy (s : State) (h : HostId) (r : Nat) : (s.partCmdEnd h r).get (Reg.PART_CMD_STS.BUSY h) = 0 := by
  unfold State.partCmdEnd
  rw [(keepsRegs_vector _ _ _).get (Nat.zero_le _) (partCmdSts_off_lt h), get_put_apart (by rfl), get_put_apart (by rfl)]
  exact get_put_fits _ _ _ (by decide : 0 + 1 ≤ 32) (by decide : 0 < 2 ^ 1)

end Sys2Proof.Machine.Proofs
end

section
/-! PROOFS. Commands on instances (09_partitions_instances_migration.md R251, R252; 06_queue_pairs_and_delivery.md R152;
07_memory_windows.md R189). -/

namespace Sys2Proof.Machine.Proofs

open Laws

/-! What the end of the work of instances leaves still -/

@[simp] theorem loud_clusterRedStsInuse (k : Nat) : loud (Reg.CLUSTER_RED_STS.INUSE k).off = true := loud_of_le (Nat.le_add_right_of_le (by decide))
@[simp] theorem loud_clusterRedOpenSegments (k : Nat) : loud (Reg.CLUSTER_RED_OPEN.SEGMENTS k).off = true := loud_of_le (Nat.le_add_right_of_le (by decide))
@[simp] theorem loud_clusterRedOpenSpilled (k : Nat) : loud (Reg.CLUSTER_RED_OPEN.SPILLED k).off = true := loud_of_le (Nat.le_add_right_of_le (by decide))
@[simp] theorem loud_hostifQstsQueues : loud Reg.HOSTIF_QSTS.QUEUES.off = true := by decide
@[simp] theorem loud_kennelStsQps : loud Reg.KENNEL_STS.QPS.off = true := by decide
@[simp] theorem loud_kennelCmdStsBusy (h : Nat) : loud (Reg.KENNEL_CMD_STS.BUSY h).off = true := loud_of_le (Nat.le_add_right_of_le (by decide))
@[simp] theorem loud_kennelCmdStsDone (h : Nat) : loud (Reg.KENNEL_CMD_STS.DONE h).off = true := loud_of_le (Nat.le_add_right_of_le (by decide))
@[simp] theorem loud_kennelCmdStsResult (h : Nat) : loud (Reg.KENNEL_CMD_STS.RESULT h).off = true := loud_of_le (Nat.le_add_right_of_le (by decide))

@[simp] theorem still_showRed (s : State) (k : Nat) : still (s.showRed k) = still s := by simp [State.showRed]

@[simp] theorem still_closeSegs (s : State) (x : Coll) : still (s.closeSegs x) = still s := by
  refine still_foldl (fun u k => ?_) _ _
  dsimp only
  split
  · exact (still_showRed ..).trans (still_of_same (setCluster_same ..) rfl)
  · rfl

@[simp] theorem still_dropColls (s : State) (cid : Nat → Bool) : still (s.dropColls cid) = still s :=
  still_foldl (fun u x => still_closeSegs u x) _ _

@[simp] theorem still_dropQueue (s : State) (n : Nat) : still (s.dropQueue n) = still s :=
  (still_put _ _ (by simp)).trans (still_sysWrite ..)

@[simp] theorem still_kcmdEnd (s : State) (h : HostId) (r : Nat) : still (s.kcmdEnd h r) = still s := by simp [State.kcmdEnd]

@[simp] theorem still_endJobs (s : State) (q : Nat) : still (s.endJobs q) = still s :=
  still_foldl (fun u j => by split <;> simp) _ _

@[simp] theorem still_dropQp (s : State) (q : Nat) : still (s.dropQp q) = still s := by
  unfold State.dropQp
  split
  · rfl
  · refine (still_showBank ..).trans ((still_put _ _ (by simp)).trans ((still_endJobs ..).trans ?_))
    unfold State.freeSlotOf
    split <;> rfl

/-! The work of instances where no window is described -/

theorem revokeAll_of_nil {s : State} (h : s.wins.desc = []) (test : Window → Bool) : s.revokeAll test = s := by
  simp [State.revokeAll, h]

/-- The end of queues and queue pairs. -/
def dropRings (s : State) (cid : Nat → Bool) : State :=
  let s := (s.queues.filter (fun (e : Nat × Queue) => cid e.2.cid)).foldl (fun s e => s.dropQueue e.1) s
  (s.qps.filter (fun (e : Nat × Qp) => cid e.2.ctx.cid && !e.2.ctx.pin)).foldl (fun s e => s.dropQp e.1) s

theorem dropWork_eq (s : State) (cid : Nat → Bool) (win : Window → Bool) : s.dropWork cid win = (dropRings s cid).revokeAll win := rfl

theorem dropRings_same (s : State) (cid : Nat → Bool) : Same 60473143747642 s (dropRings s cid) := by
  unfold dropRings
  extract_lets +onlyGivenNames -merge -useContext t
  have ht : Same 60473143747642 s t := by
    unfold t
    refine Same.foldl _ _ _ (fun x e hx => ?_) (.refl _ _)
    exact hx.seq (dropQueue_same ..) (by decide)
  clear_value t
  refine Same.foldl _ _ _ (fun x e hx => ?_) ht
  exact hx.seq (dropQp_same ..) (by decide)

theorem wins_dropRings (s : State) (cid : Nat → Bool) : (dropRings s cid).wins = s.wins := (dropRings_same s cid).wins rfl

theorem still_dropRings (s : State) (cid : Nat → Bool) : still (dropRings s cid) = still s := by
  unfold dropRings
  extract_lets +onlyGivenNames -merge -useContext t
  have ht : still t = still s := by
    unfold t
    refine still_foldl (fun u e => ?_) _ _
    exact still_dropQueue ..
  clear_value t
  refine Eq.trans (still_foldl (fun u e => ?_) _ _) ht
  exact still_dropQp ..

theorem wins_dropColls (s : State) (cid : Nat → Bool) : (s.dropColls cid).wins = s.wins := (dropColls_same ..).wins rfl

/-- The work of instances without windows ends with their collectives, queues and queue pairs. -/
theorem dropWork_of_nil {s : State} (h : s.wins.desc = []) (cid : Nat → Bool) (win : Window → Bool) : s.dropWork cid win = dropRings s cid := by
  rw [dropWork_eq]
  exact revokeAll_of_nil (by rw [wins_dropRings, h]) win

section
variable {s : State} (hs : s.wins.desc = []) (p i : Nat)
include hs

/-- The queue pairs of instances that are reset lose their jobs and their state. -/
theorem desc_resetInst : (s.resetInst p i).wins.desc = [] := by
  have hdesc : (s.dropColls (· == 1024 * p + i)).wins.desc = [] := by rw [wins_dropColls, hs]
  unfold State.resetInst
  extract_lets +onlyGivenNames cid t
  have ht : t.wins.desc = [] := by
    unfold t
    rw [dropWork_of_nil hdesc, wins_dropRings, hdesc]
  clear_value t
  refine (congrArg WinStore.desc (Same.wins (m := 35184372113458) (s := t) ?_ rfl)).trans ht
  refine Same.foldl _ _ _ (fun x e hx => ?_) (.refl _ _)
  exact (hx.seq (endJobs_same ..) (by decide)).seq (modQp_same ..) (by decide)

theorem still_resetInst : still (s.resetInst p i) = still s := by
  have hdesc : (s.dropColls (· == 1024 * p + i)).wins.desc = [] := by rw [wins_dropColls, hs]
  unfold State.resetInst
  extract_lets +onlyGivenNames cid t
  have ht : still t = still s := by
    unfold t
    rw [dropWork_of_nil hdesc, still_dropRings, still_dropColls]
  exact (still_foldl (fun u e => (still_modQp ..).trans (still_endJobs ..)) _ _).trans ht

end

theorem parts_resetInst (s : State) (p i : Nat) : (s.resetInst p i).parts = s.parts := (resetInst_same ..).parts rfl

/-! The end of commands on instances -/

/-- The command that waits alone completes, where no window is described. -/
theorem endInsts_single {s : State} {c : InstCmd} (hi : s.parts.insts = [c]) (hd : s.wins.desc = []) :
    s.endInsts = (if c.destroy then (({ s with parts := { s.parts with insts := [] } } : State).resetReg (Reg.PART_INST.off c.inst)).showInsts c.part
      else { s with parts := { s.parts with insts := [] } }).partCmdEnd c.host 0 := by
  have hdrained : s.instDrained c.part c.inst = true := by simp [State.instDrained, hd]
  simp [State.endInsts, hi, hdrained]

/-! The checks of R252 -/

section
variable {u : State} {h : HostId} {op p i : Nat}

theorem instCommand_P2 (hp2 : u.inP2 = true) : u.instCommand h op p i = u.partCmdEnd h 1 := if_pos hp2

theorem instCommand_refused {r : Nat} (hp2 : u.inP2 = false) (hr : u.instCheck h op p i = some r) :
    u.instCommand h op p i = u.partCmdEnd h r := by
  simp [State.instCommand, hp2, hr]

/-- RIGHTS answers first: another host's partition, or one that is neither SEALED nor FROZEN. -/
theorem instCheck_rights (hr : u.owner p ≠ h ∨ u.pstate p = 0 ∨ u.pstate p = 1 ∨ u.pstate p = 4) : u.instCheck h op p i = some 3 := by
  have hno : u.owner p ≠ h ∨ ¬ (u.pstate p = 2 ∨ u.pstate p = 3) := hr.imp_right (by omega)
  exact if_pos (hno.elim .inl (fun h => .inr (.inl h)))

theorem instCheck_create (howner : u.owner p = h) (hstate : u.pstate p = 2) (hi : i ≠ 1023) (hfree : u.instPart? i = none) :
    u.instCheck h 1 p i = none := by
  simp [State.instCheck, howner, hstate, hi, hfree]

theorem instCommand_create (hp2 : u.inP2 = false) (hcheck : u.instCheck h 1 p i = none) :
    u.instCommand h 1 p i = (((u.put (Reg.PART_INST.PARTITION i) p).put (Reg.PART_INST.STATE i) 1).showInsts p).partCmdEnd h 0 := by
  simp [State.instCommand, hp2, hcheck]

/-- A reset or a destruction that is taken waits for the windows that the work opened. -/
theorem instCommand_ends (hop : op ≠ 1) (hp2 : u.inP2 = false) (hcheck : u.instCheck h op p i = none) :
    u.instCommand h op p i = ({ ((u.resetInst p i).put (Reg.PART_CMD_STS.BUSY h) 1) with
      parts := { (u.resetInst p i).parts with insts := (u.resetInst p i).parts.insts ++ [{ host := h, part := p, inst := i, destroy := op == 3 }] } } : State).endInsts := by
  unfold State.instCommand
  rw [if_neg (by simp [hp2]), hcheck]
  exact if_neg hop

end

/-! The state in which a command runs -/

theorem taken_same (s : State) (h : HostId) (v : Word) (seen : Seen) : Same 15393162788866 s ((s.applyWrite (Reg.PART_CMD.off h) v).see seen) :=
  ((applyWrite_same ..).mono (by decide)).seq (see_same ..) (by decide)

theorem get_taken_ne (s : State) (h : HostId) (v : Word) (seen : Seen) {f : Fld} (hf : f.off ≠ Reg.PART_CMD.off h) :
    ((s.applyWrite (Reg.PART_CMD.off h) v).see seen).get f = s.get f := by
  rw [get_see, get_applyWrite_partCmd_ne s h v hf]

theorem partInst_ne_partCmd {i : Nat} (hi : i < 1024) (h : HostId) : Reg.PART_INST.off i ≠ Reg.PART_CMD.off h := by
  unfold Reg.PART_INST.off Reg.PART_CMD.off
  omega

theorem partInst_ne_partCmdSts {i : Nat} (hi : i < 1024) (h : HostId) : Reg.PART_INST.off i ≠ Reg.PART_CMD_STS.off h := by
  unfold Reg.PART_INST.off Reg.PART_CMD_STS.off
  omega

theorem partInst_ne_partSts (i : Nat) {p : Nat} (hp : p < 64) : Reg.PART_INST.off i ≠ Reg.PART_STS.off p := by
  unfold Reg.PART_INST.off Reg.PART_STS.off
  omega

theorem partInst_off_lt {i : Nat} (hi : i < 1024) : Reg.PART_INST.off i < 0xC0000 := by
  unfold Reg.PART_INST.off
  omega

theorem loud_partInst {i : Nat} (hi : i < 1024) : loud (Reg.PART_INST.off i) = false := by
  unfold loud Reg.PART_INST.off
  simp
  omega

/-! Creation -/

theorem get_showInsts_ne (s : State) {p : Nat} {f : Fld} (hf : f.off ≠ Reg.PART_STS.off p) : (s.showInsts p).get f = s.get f :=
  get_put_ne _ _ _ _ hf

/-- What PART_INST shows after a creation. -/
theorem get_created (u : State) (h : HostId) (p : PartId) {i : Nat} (hi : i < 1024) :
    let t := (((u.put (Reg.PART_INST.PARTITION i) p).put (Reg.PART_INST.STATE i) 1).showInsts p).partCmdEnd h 0
    t.get (Reg.PART_INST.PARTITION i) = p.val ∧ t.get (Reg.PART_INST.STATE i) = 1 := by
  have hrest (v : State) {f : Fld} (hf : f.off = Reg.PART_INST.off i) : ((v.showInsts p).partCmdEnd h 0).get f = v.get f := by
    rw [get_partCmdEnd_ne _ _ _ (by rw [hf]; exact (partInst_off_lt hi).trans (by decide)) (by rw [hf]; exact partInst_ne_partCmdSts hi h),
      get_showInsts_ne _ (by rw [hf]; exact partInst_ne_partSts i p.isLt)]
  refine ⟨(hrest _ rfl).trans ?_, (hrest _ rfl).trans ?_⟩
  · rw [get_put_disjoint _ _ _ _ (by decide : 6 + 2 ≤ 32) (by decide : 0 + 6 ≤ 32) (.inr (.inr (by decide : 0 + 6 ≤ 6)))]
    exact get_put_fits _ _ _ (by decide : 0 + 6 ≤ 32) p.isLt
  · exact get_put_fits _ _ _ (by decide : 6 + 2 ≤ 32) (by decide : 1 < 2 ^ 2)

/-- INST_CREATE sets registers and tells its host. -/
theorem instCommand_create_same (u : State) (h : HostId) (p i : Nat) : Same 35184372088882 u (u.instCommand h 1 p i) := by
  have hend (v : State) (r : Nat) (hv : Same 2 u v) : Same 35184372088882 u (v.partCmdEnd h r) := (hv.mono (by decide)).seq (partCmdEnd_same ..) (by decide)
  cases hp2 : u.inP2 with
  | true => rw [instCommand_P2 hp2]; exact hend _ _ (.refl _ u)
  | false =>
    cases hcheck : u.instCheck h 1 p i with
    | some r => rw [instCommand_refused hp2 hcheck]; exact hend _ _ (.refl _ u)
    | none =>
      rw [instCommand_create hp2 hcheck]
      exact hend _ _ (((put_same ..).seq (put_same ..) (by decide)).seq (showInsts_same ..) (by decide))

theorem reportsOnly_of_same {s t : State} (h : Same 50577534877754 s t) : ReportsOnly { s with poisoned := t.poisoned } t := eq_patch_of_same h

theorem completes_instCreate {s u : State} {h : HostId} {p : PartId} {i : BitVec 10}
    (hs : Takes s h (Reg.PART_CMD.off h) ∧ s.flag (Reg.PART_CMD_STS.BUSY h) = false)
    (hu : u = (s.applyWrite (Reg.PART_CMD.off h) (partWord 1 false p i)).see []) :
    Completes (.instCreate h p i) s fun t =>
      (u.inP2 = true → t = u.partCmdEnd h 1)
      ∧ (u.inP2 = false → u.owner p ≠ h ∨ u.pstate p = 0 ∨ u.pstate p = 1 ∨ u.pstate p = 4 → t = u.partCmdEnd h 3)
      ∧ (∀ r, u.instCheck h 1 p i.toNat = some (r) → u.inP2 = false → t = u.partCmdEnd h r)
      ∧ (u.inP2 = false → u.owner p = h → u.pstate p = 2 → i.toNat ≠ 1023 → u.instPart? i.toNat = none →
          t.get (Reg.PART_INST.PARTITION i.toNat) = p.val ∧ t.get (Reg.PART_INST.STATE i.toNat) = 1 ∧ t.get (Reg.PART_CMD_STS.DONE h) = 1 ∧ t.get (Reg.PART_CMD_STS.RESULT h) = 0 ∧ t.get (Reg.PART_CMD_STS.BUSY h) = 0)
      ∧ ReportsOnly { s with poisoned := t.poisoned } t := by
  obtain ⟨htakes, hbusy⟩ := hs
  refine completes_partCmd_runs (op := 1) (sc := false) (seen := []) (t := u.instCommand h 1 p i.toNat) (fun _ => rfl) (by decide) htakes
    hbusy (by rw [hu]; rfl) ?_
  refine ⟨instCommand_P2, fun hp2 hr => instCommand_refused hp2 (instCheck_rights hr), fun r hr hp2 => instCommand_refused hp2 hr,
    fun hp2 howner hstate hi hfree => ?_, ?_⟩
  · have hrun := instCommand_create hp2 (instCheck_create howner hstate hi hfree)
    obtain ⟨hpart, hinst⟩ := get_created u h p i.isLt
    rw [hrun]
    exact ⟨hpart, hinst, get_partCmdEnd_done .., get_partCmdEnd_result _ _ (by decide), get_partCmdEnd_busy ..⟩
  · refine reportsOnly_of_same ?_
    rw [hu]
    exact ((taken_same ..).mono (by decide)).seq (instCommand_create_same ..) (by decide)

/-! Reset and destruction -/

/-- The row of PART_INST. -/
def partInstRow : RegRow := ⟨"PART_INST", 0xA0000, [(1023, 4)], .none, [⟨0, 6, .ro, 0, 0, 63⟩, ⟨6, 2, .ro, 0, 0, 3⟩]⟩

/-- How many rows of the PART block stand before PART_INST. -/
def rowsBeforeInst : Nat := regsPART.findIdx (fun r => r.base == 0xA0000)

theorem belowInst : ∀ r ∈ regsPART.take rowsBeforeInst, rowBelow 0xA0000 r = true := by decide

theorem regAt_partInst {i : Nat} (hi : i < 1023) : regAt? (Reg.PART_INST.off i) = some (partInstRow, [i]) := by
  have hrows : regRowsAt (0xA0000 + 4 * i) = regsPART := by
    unfold regRowsAt
    rw [if_neg (by omega), if_neg (by omega), if_neg (by omega), if_neg (by omega), if_neg (by omega), if_pos (by omega)]
  have hdrop : regsPART.drop rowsBeforeInst = partInstRow :: regsPART.drop (rowsBeforeInst + 1) := rfl
  have hdims : dimsIndex? partInstRow.dims (0xA0000 + 4 * i - partInstRow.base) = some [i] := by
    simp [partInstRow, dimsIndex?, hi]
  unfold Reg.PART_INST.off regAt?
  rw [hrows, ← List.take_append_drop rowsBeforeInst regsPART,
    findReg?_append_below (fun r hr => rowBelow_mono (belowInst r hr) (by omega)), hdrop, findReg?,
    if_neg (show ¬ 0xA0000 + 4 * i < partInstRow.base from Nat.not_lt.mpr (Nat.le_add_right ..)), hdims]

/-- Every field of PART_INST resets to 0. -/
theorem regReset_partInst {i : Nat} (hi : i < 1023) : regReset (Reg.PART_INST.off i) = 0 := by
  unfold regReset
  rw [regAt_partInst hi]
  rfl

theorem get_resetReg_partInst (s : State) {i : Nat} (hi : i < 1023) : (s.resetReg (Reg.PART_INST.off i)).get (Reg.PART_INST.STATE i) = 0 := by
  have hreg : (s.resetReg (Reg.PART_INST.off i)).reg (Reg.PART_INST.off i) = 0 := by
    unfold State.resetReg State.reg
    rw [Sparse.at?_del_self]
    exact regReset_partInst hi
  unfold State.get
  exact (congrArg (fun w => wordField w 6 2) hreg).trans (by decide)

theorem get_setParts (s : State) (x : Parts) (f : Fld) : ({ s with parts := x } : State).get f = s.get f := rfl

theorem time_instCommand (u : State) (h : HostId) (op p i : Nat) : (u.instCommand h op p i).time = u.time := (instCommand_same ..).time rfl

/-- The state in which the work has ended and the command waits. -/
def instEnding (u : State) (h : HostId) (op p i : Nat) : State :=
  { ((u.resetInst p i).put (Reg.PART_CMD_STS.BUSY h) 1) with
    parts := { (u.resetInst p i).parts with insts := (u.resetInst p i).parts.insts ++ [{ host := h, part := p, inst := i, destroy := op == 3 }] } }

section
variable {u : State} {h : HostId} {op p i : Nat} (hd : u.wins.desc = [])
include hd

theorem get_instEnding {f : Fld} (hf : loud f.off = false) (hne : f.off ≠ Reg.PART_CMD_STS.off h) :
    (instEnding u h op p i).get f = u.get f := by
  unfold instEnding
  rw [get_setParts, get_put_ne _ _ _ _ hne]
  exact get_of_still (still_resetInst hd p i) hf

omit hd in
theorem insts_instEnding (hi : u.parts.insts = []) : (instEnding u h op p i).parts.insts = [{ host := h, part := p, inst := i, destroy := op == 3 }] := by
  unfold instEnding
  dsimp only
  rw [parts_resetInst, hi]
  rfl

variable (hi : u.parts.insts = [])
include hi

/-- Where no window is described and no other command waits, a reset completes at once. -/
theorem endInsts_reset (hop : (op == 3) = false) : (instEnding u h op p i).endInsts
    = ({ instEnding u h op p i with parts := { (instEnding u h op p i).parts with insts := [] } } : State).partCmdEnd h 0 := by
  rw [endInsts_single (insts_instEnding hi) (desc_resetInst hd p i)]
  simp only [hop]
  rfl

/-- A destroyed one is FREE then. -/
theorem endInsts_destroy (hop : (op == 3) = true) : (instEnding u h op p i).endInsts
    = ((({ instEnding u h op p i with parts := { (instEnding u h op p i).parts with insts := [] } } : State).resetReg (Reg.PART_INST.off i)).showInsts p).partCmdEnd h 0 := by
  rw [endInsts_single (insts_instEnding hi) (desc_resetInst hd p i)]
  simp only [hop]
  rfl

end

/-- What INST_RESET and INST_DESTROY have in common: the answers, and the wait for windows. -/
def InstEnds (s u t : State) (h : HostId) (op : Nat) (p : PartId) (i : BitVec 10) : Prop :=
  (u.inP2 = true → t = u.partCmdEnd h 1)
  ∧ (u.inP2 = false → u.owner p ≠ h ∨ u.pstate p = 0 ∨ u.pstate p = 1 ∨ u.pstate p = 4 → t = u.partCmdEnd h 3)
  ∧ (∀ r, u.instCheck h op p i.toNat = some (r) → u.inP2 = false → t = u.partCmdEnd h r)
  ∧ (u.inP2 = false → u.instCheck h op p i.toNat = none → t = (instEnding u h op p i.toNat).endInsts ∧ t.time = s.time)

section
variable {s u : State} {h : HostId} {op : Nat} {p : PartId} {i : BitVec 10} (hop : op ≠ 1)
  (hu : u = (s.applyWrite (Reg.PART_CMD.off h) (partWord op false p i)).see [])
include hop hu

theorem instEnds_instCommand : InstEnds s u (u.instCommand h op p i.toNat) h op p i := by
  refine ⟨instCommand_P2, fun hp2 hr => instCommand_refused hp2 (instCheck_rights hr), fun r hr hp2 => instCommand_refused hp2 hr,
    fun hp2 hcheck => ⟨instCommand_ends hop hp2 hcheck, ?_⟩⟩
  rw [time_instCommand, hu]
  exact (taken_same ..).time rfl

end

/-- A check that is passed names one of the 1,023 instances. -/
theorem inst_lt_of_check {u : State} {h : HostId} {op p : Nat} {i : BitVec 10} (hcheck : u.instCheck h op p i.toNat = none) : i.toNat < 1023 := by
  have hne : i.toNat ≠ 1023 := by
    intro hi
    rw [hi] at hcheck
    simp only [State.instCheck, true_or, if_true] at hcheck
    split at hcheck <;> split at hcheck <;> cases hcheck
  have hlt : i.toNat < 1024 := i.isLt
  omega

/-- The last command has completed, and PART_INST of i is in state x. -/
def InstEnded (h : HostId) (i x : Nat) (t : State) : Prop :=
  t.parts.insts = [] ∧ t.get (Reg.PART_CMD_STS.DONE h) = 1 ∧ t.get (Reg.PART_CMD_STS.RESULT h) = 0 ∧ t.get (Reg.PART_CMD_STS.BUSY h) = 0
    ∧ t.get (Reg.PART_INST.STATE i) = x

theorem instEnded_partCmdEnd {v : State} {i x : Nat} (h : HostId) (hi : i < 1024) (hinsts : v.parts.insts = [])
    (hx : v.get (Reg.PART_INST.STATE i) = x) : InstEnded h i x (v.partCmdEnd h 0) :=
  ⟨(congrArg Parts.insts ((partCmdEnd_same ..).parts rfl)).trans hinsts, get_partCmdEnd_done .., get_partCmdEnd_result _ _ (by decide),
    get_partCmdEnd_busy .., (get_partCmdEnd_ne _ _ _ ((partInst_off_lt hi).trans (by decide)) (partInst_ne_partCmdSts hi h)).trans hx⟩

section
variable {s u : State} {h : HostId} {p : PartId} {i : BitVec 10}

theorem desc_taken {v : Word} (hu : u = (s.applyWrite (Reg.PART_CMD.off h) v).see []) (hdesc : s.wins.desc = []) : u.wins.desc = [] := by
  rw [hu, (taken_same ..).wins rfl, hdesc]

theorem insts_taken {v : Word} (hu : u = (s.applyWrite (Reg.PART_CMD.off h) v).see []) (hinsts : s.parts.insts = []) : u.parts.insts = [] := by
  rw [hu, (taken_same ..).parts rfl, hinsts]

theorem completes_instReset (hs : Takes s h (Reg.PART_CMD.off h) ∧ s.flag (Reg.PART_CMD_STS.BUSY h) = false)
    (hu : u = (s.applyWrite (Reg.PART_CMD.off h) (partWord 2 false p i)).see []) :
    Completes (.instReset h p i) s fun t => InstEnds s u t h 2 p i
      ∧ (u.inP2 = false → u.instCheck h 2 p i.toNat = none → s.wins.desc = [] → s.parts.insts = [] →
          InstEnded h i.toNat (s.get (Reg.PART_INST.STATE i.toNat)) t) := by
  obtain ⟨htakes, hbusy⟩ := hs
  refine completes_partCmd_runs (op := 2) (sc := false) (seen := []) (t := u.instCommand h 2 p i.toNat) (fun _ => rfl) (by decide) htakes
    hbusy (by rw [hu]; rfl) ?_
  refine ⟨instEnds_instCommand (by decide) hu, fun hp2 hcheck hdesc hinsts => ?_⟩
  have hd := desc_taken hu hdesc
  rw [instCommand_ends (by decide) hp2 hcheck]
  change InstEnded h i.toNat _ (instEnding u h 2 p i.toNat).endInsts
  rw [endInsts_reset hd (insts_taken hu hinsts) rfl]
  refine instEnded_partCmdEnd h i.isLt rfl ?_
  rw [get_setParts, get_instEnding hd (loud_partInst i.isLt) (partInst_ne_partCmdSts i.isLt h), hu]
  exact get_taken_ne _ _ _ _ (partInst_ne_partCmd i.isLt h)

theorem completes_instDestroy (hs : Takes s h (Reg.PART_CMD.off h) ∧ s.flag (Reg.PART_CMD_STS.BUSY h) = false)
    (hu : u = (s.applyWrite (Reg.PART_CMD.off h) (partWord 3 false p i)).see []) :
    Completes (.instDestroy h p i) s fun t => InstEnds s u t h 3 p i
      ∧ (u.inP2 = false → u.instCheck h 3 p i.toNat = none → s.wins.desc = [] → s.parts.insts = [] → InstEnded h i.toNat 0 t) := by
  obtain ⟨htakes, hbusy⟩ := hs
  refine completes_partCmd_runs (op := 3) (sc := false) (seen := []) (t := u.instCommand h 3 p i.toNat) (fun _ => rfl) (by decide) htakes
    hbusy (by rw [hu]; rfl) ?_
  refine ⟨instEnds_instCommand (by decide) hu, fun hp2 hcheck hdesc hinsts => ?_⟩
  rw [instCommand_ends (by decide) hp2 hcheck]
  change InstEnded h i.toNat _ (instEnding u h 3 p i.toNat).endInsts
  rw [endInsts_destroy (desc_taken hu hdesc) (insts_taken hu hinsts) rfl]
  refine instEnded_partCmdEnd h i.isLt rfl ?_
  rw [get_showInsts_ne _ (partInst_ne_partSts _ p.isLt)]
  exact get_resetReg_partInst _ (inst_lt_of_check hcheck)

end

/-- Settles O39, a command at a time: while BUSY, and else. -/
theorem instanceCommands : Obligations.InstanceCommands := by
  unfold Obligations.InstanceCommands
  refine ⟨fun s h p i => completes_partCmd_busy (seen := []) (fun _ => rfl) (by decide), fun s u h p i => completes_instCreate,
    fun s h p i => completes_partCmd_busy (seen := []) (fun _ => rfl) (by decide), fun s u h p i hs hu => ?_,
    fun s h p i => completes_partCmd_busy (seen := []) (fun _ => rfl) (by decide), fun s u h p i hs hu => ?_⟩
  · obtain ⟨t, hexec, ⟨hp2, hrights, hcheck, htaken⟩, hdone⟩ := completes_instReset hs hu
    exact ⟨t, hexec, hp2, hrights, hcheck, htaken, hdone⟩
  · obtain ⟨t, hexec, ⟨hp2, hrights, hcheck, htaken⟩, hdone⟩ := completes_instDestroy hs hu
    exact ⟨t, hexec, hp2, hrights, hcheck, htaken, hdone⟩

end Sys2Proof.Machine.Proofs
end

section
/-! PROOFS. Freezing (09_partitions_instances_migration.md R260, Tables 9.3 and 9.4). -/

namespace Sys2Proof.Machine.Proofs

open Laws

/-! The scope of a command -/

/-- The state in which a command on a partition runs: CFG_REJ is set where the partition's state does not list it. -/
def noted (w : State) (h : HostId) (p : Nat) (j : Option Nat) (k : Nat) : State :=
  if j.isNone && w.pstate p != k then w.notListed h p else w

/-- The scope that a command names. -/
abbrev scopeOf (sc : Bool) (i : BitVec 10) : Option Nat := if sc then some i.toNat else none

theorem isNone_scopeOf (sc : Bool) (i : BitVec 10) : (scopeOf sc i).isNone = !sc := by cases sc <;> rfl

theorem partSts_ne_partCmd (p : Nat) (h : HostId) : Reg.PART_STS.off p ≠ Reg.PART_CMD.off h := by
  unfold Reg.PART_STS.off Reg.PART_CMD.off
  omega

theorem partSts_ne_partCmdSts (p : Nat) (h : HostId) : Reg.PART_STS.off p ≠ Reg.PART_CMD_STS.off h := by
  unfold Reg.PART_STS.off Reg.PART_CMD_STS.off
  omega

theorem partSts_off_lt {p : Nat} (hp : p < 64) : Reg.PART_STS.off p < 0x700000 := by
  unfold Reg.PART_STS.off
  omega

theorem loud_partSts {p : Nat} (hp : p < 64) : loud (Reg.PART_STS.off p) = false := by
  unfold loud Reg.PART_STS.off
  simp
  omega

theorem pstate_taken (s : State) (h : HostId) (v : Word) (seen : Seen) (p : PartId) :
    ((s.applyWrite (Reg.PART_CMD.off h) v).see seen).pstate p = s.pstate p :=
  get_taken_ne s h v seen (partSts_ne_partCmd p h)

/-- The state of the statement is the one in which the command runs. -/
theorem noted_taken (s : State) (h : HostId) (v : Word) (seen : Seen) (p : PartId) (sc : Bool) (i : BitVec 10) (k : Nat) :
    noted ((s.applyWrite (Reg.PART_CMD.off h) v).see seen) h p (scopeOf sc i) k
      = if sc = false ∧ s.pstate p ≠ k then ((s.applyWrite (Reg.PART_CMD.off h) v).see seen).notListed h p
        else (s.applyWrite (Reg.PART_CMD.off h) v).see seen := by
  unfold noted
  rw [isNone_scopeOf, pstate_taken]
  cases sc <;> simp

theorem noted_same (w : State) (h : HostId) (p : Nat) (j : Option Nat) (k : Nat) : Same 2 w (noted w h p j k) := by
  unfold noted
  split
  · exact notListed_same ..
  · exact .refl _ w

/-! FREEZE -/

/-- A freeze that is taken: step 1, as much of step 2 as goes at once, and the command that waits. -/
def freezeBegun (u : State) (h : HostId) (p : Nat) (j : Option Nat) : State :=
  { ((u.freezeQueues p j).freezeQps p j).put (Reg.PART_CMD_STS.BUSY h) 1 with
    parts := { (((u.freezeQueues p j).freezeQps p j).put (Reg.PART_CMD_STS.BUSY h) 1).parts with
      freezes := ((u.freezeQueues p j).freezeQps p j).parts.freezes ++ [{ host := h, part := p, inst := j }] } }

/-- A scope that cannot be frozen. -/
abbrev Unfreezable (u : State) (p : Nat) (j : Option Nat) : Prop :=
  u.pstate p ≠ 2 ∨ u.scopeFrozen p j = true ∨ u.get (Reg.SCHED_STATE.ACT p) = 1 ∨ u.get (Reg.SCHED_STATE.PEND p) ≠ 0

/-- FREEZE after CFG_REJ. -/
def freezeFrom (u : State) (h : HostId) (p : Nat) (j : Option Nat) : State :=
  match u.scopeCheck h p j with
  | some r => u.partCmdEnd h r
  | none => if Unfreezable u p j then u.partCmdEnd h 1 else freezeBegun u h p j

theorem freeze_eq (w : State) (h : HostId) (p : Nat) (j : Option Nat) : w.freeze h p j = freezeFrom (noted w h p j 2) h p j := rfl

section
variable {u : State} {h : HostId} {p : Nat} {j : Option Nat}

theorem freezeFrom_refused {r : Nat} (hr : u.scopeCheck h p j = some r) : freezeFrom u h p j = u.partCmdEnd h r := by
  simp [freezeFrom, hr]

theorem freezeFrom_badState (hc : u.scopeCheck h p j = none) (hb : Unfreezable u p j) : freezeFrom u h p j = u.partCmdEnd h 1 := by
  simp only [freezeFrom, hc, if_pos hb]

theorem freezeFrom_begins (hc : u.scopeCheck h p j = none) (hb : ¬ Unfreezable u p j) : freezeFrom u h p j = freezeBegun u h p j := by
  simp only [freezeFrom, hc, if_neg hb]

end

@[simp] theorem still_freezeQp (s : State) (p : Nat) (i : Option Nat) (q : Nat) : still (s.freezeQp p i q) = still s := by
  unfold State.freezeQp
  dsimp only
  split
  · split
    · exact (still_setQp ..).trans (still_need ..)
    · exact still_need ..
  · exact still_need ..

@[simp] theorem still_freezeQps (s : State) (p : Nat) (i : Option Nat) : still (s.freezeQps p i) = still s := by
  refine still_foldl (fun u e => ?_) _ _
  exact still_freezeQp ..

theorem freezeQps_of_nil {s : State} (h : s.qps = []) (p : Nat) (i : Option Nat) : s.freezeQps p i = s := by
  simp [State.freezeQps, h]

theorem parts_freezeQps (s : State) (p : Nat) (i : Option Nat) : (s.freezeQps p i).parts = s.parts := (freezeQps_same ..).parts rfl

section
variable (u : State) (h : HostId) (p : Nat) (j : Option Nat)

theorem get_freezeBegun_busy : (freezeBegun u h p j).get (Reg.PART_CMD_STS.BUSY h) = 1 := by
  unfold freezeBegun
  rw [get_setParts]
  exact get_put_fits _ _ _ (by decide : 0 + 1 ≤ 32) (by decide : 1 < 2 ^ 1)

theorem freezes_freezeBegun : (freezeBegun u h p j).parts.freezes = u.parts.freezes ++ [{ host := h, part := p, inst := j }] := by
  unfold freezeBegun
  dsimp only
  rw [parts_freezeQps]
  rfl

theorem pstate_freezeBegun {q : Nat} (hq : q < 64) : (freezeBegun u h p j).pstate q = u.pstate q := by
  unfold freezeBegun State.pstate
  rw [get_setParts, get_put_ne _ _ _ _ (partSts_ne_partCmdSts q h)]
  exact (get_of_still (still_freezeQps ..) (loud_partSts hq)).trans rfl

theorem freezeBegun_of_nil (hqps : u.qps = []) :
    (freezeBegun u h p j).queues = u.queues.map (fun (e : Nat × Queue) => if inScope p j e.2.cid && e.2.type != 2 then (e.1, { e.2 with stopped := true, cached := [], fetch := e.2.next }) else e)
      ∧ freezeBegun u h p j = { u with regs := (freezeBegun u h p j).regs, queues := (freezeBegun u h p j).queues, parts := (freezeBegun u h p j).parts } := by
  unfold freezeBegun
  rw [freezeQps_of_nil (s := u.freezeQueues p j) hqps]
  exact ⟨rfl, rfl⟩

end

/-- What a freeze that is taken leaves to be seen. -/
theorem completes_freeze {s u : State} {h : HostId} {p : PartId} {i : BitVec 10} {sc : Bool} {j : Option Nat}
    (hs : Takes s h (Reg.PART_CMD.off h) ∧ s.flag (Reg.PART_CMD_STS.BUSY h) = false ∧ j = (if sc then some i.toNat else none))
    (hu : u = (if sc = false ∧ s.pstate p ≠ 2 then ((s.applyWrite (Reg.PART_CMD.off h) (partWord 4 sc p i)).see []).notListed h p else (s.applyWrite (Reg.PART_CMD.off h) (partWord 4 sc p i)).see [])) :
    Completes (.freeze h sc p i) s fun t =>
      (∀ r, u.scopeCheck h p j = some (r) → t = u.partCmdEnd h r)
      ∧ (u.scopeCheck h p j = none → Unfreezable u p j → t = u.partCmdEnd h 1)
      ∧ (u.scopeCheck h p j = none → u.pstate p = 2 → u.scopeFrozen p j = false → u.get (Reg.SCHED_STATE.ACT p) ≠ 1 → u.get (Reg.SCHED_STATE.PEND p) = 0 →
          t.get (Reg.PART_CMD_STS.BUSY h) = 1 ∧ t.parts.freezes = s.parts.freezes ++ [{ host := h, part := p, inst := j }] ∧ t.pstate p = 2
          ∧ (s.qps = [] → t.queues = s.queues.map (fun (e : Nat × Queue) => if inScope p j e.2.cid && e.2.type != 2 then (e.1, { e.2 with stopped := true, cached := [], fetch := e.2.next }) else e)
              ∧ t = { u with regs := t.regs, queues := t.queues, parts := t.parts })
          ∧ t = { ((u.freezeQueues p j).freezeQps p j).put (Reg.PART_CMD_STS.BUSY h) 1 with parts := t.parts }) := by
  obtain ⟨htakes, hbusy, rfl⟩ := hs
  rw [← noted_taken] at hu
  have hsame : Same 15393162788866 s u := by
    rw [hu]
    exact (taken_same ..).seq (noted_same ..) (by decide)
  refine completes_partCmd_runs (op := 4) (seen := []) (t := freezeFrom u h p (scopeOf sc i)) (fun _ => rfl) (by decide) htakes hbusy
    (by rw [hu]; exact freeze_eq ..) ?_
  refine ⟨fun r => freezeFrom_refused, freezeFrom_badState, fun hc hsealed hfrozen hact hpend => ?_⟩
  have hfree : ¬ Unfreezable u p (scopeOf sc i) := by
    rintro (h1 | h1 | h1 | h1)
    · exact h1 hsealed
    · exact absurd (hfrozen.symm.trans h1) (by decide)
    · exact hact h1
    · exact h1 hpend
  rw [freezeFrom_begins hc hfree]
  refine ⟨get_freezeBegun_busy .., ?_, (pstate_freezeBegun _ _ _ _ p.isLt).trans hsealed, fun hqps => ?_, rfl⟩
  · rw [freezes_freezeBegun, hsame.parts rfl]
  · rw [← hsame.queues rfl]
    exact freezeBegun_of_nil u h p _ ((hsame.qps rfl).trans hqps)

/-! FREEZE_COMPLETE -/

/-- A scope becomes FROZEN. -/
def frozen (s : State) (h : HostId) (f : Fld) (x : Nat) : State :=
  (({ s with parts := { s.parts with freezes := s.parts.freezes.filter (fun x => x.host != h) } } : State).put f x).partCmdEnd h 0

theorem get_frozen (s : State) (h : HostId) {f : Fld} (x : Nat) (hw : FieldOk f) (hx : x < 2 ^ f.w) (hlt : f.off < 0x700000)
    (hne : f.off ≠ Reg.PART_CMD_STS.off h) : (frozen s h f x).get f = x :=
  (get_partCmdEnd_ne _ _ _ hlt hne).trans (get_put_fits _ _ _ hw hx)

theorem freezes_frozen (s : State) (h : HostId) (f : Fld) (x : Nat) : (frozen s h f x).parts.freezes = s.parts.freezes.filter (fun x => x.host != h) :=
  congrArg Parts.freezes ((partCmdEnd_same ..).parts rfl)

theorem freezeCompleteEff_none {s : State} {h : HostId} (hn : s.parts.freezes.find? (fun f => f.host == h) = none) : freezeCompleteEff h s = s := by
  simp only [freezeCompleteEff, hn]

section
variable {s : State} {h : HostId} {f : Freeze} (hf : s.parts.freezes.find? (fun f => f.host == h) = some f)
include hf

theorem freezeCompleteEff_waits (hw : (s.freezeQps f.part f.inst).settled f.part f.inst = false) :
    freezeCompleteEff h s = s.freezeQps f.part f.inst := by
  simp only [freezeCompleteEff, hf, hw]
  rfl

variable (hw : (s.freezeQps f.part f.inst).settled f.part f.inst = true)
include hw

theorem freezeCompleteEff_inst {i : Nat} (hi : f.inst = some i) :
    freezeCompleteEff h s = frozen (s.freezeQps f.part f.inst) h (Reg.PART_INST.STATE i) 2 := by
  simp only [freezeCompleteEff, hf, hw]
  rw [hi]
  rfl

theorem freezeCompleteEff_part (hi : f.inst = none) (hcores : (s.freezeQps f.part f.inst).coresOf f.part = []) :
    freezeCompleteEff h s = frozen (s.freezeQps f.part f.inst) h (Reg.PART_STS.STATE f.part) 3 := by
  simp only [freezeCompleteEff, hf, hw]
  rw [hcores, hi]
  rfl

end

end Sys2Proof.Machine.Proofs
end

section
/-! PROOFS. The end of a freeze, and thawing (09_partitions_instances_migration.md R260, R261). -/

namespace Sys2Proof.Machine.Proofs

open Laws

/-! FREEZE_COMPLETE -/

theorem completes_freezeComplete (s : State) (h : HostId) :
    Completes (.freezeComplete h) s fun t =>
      (s.parts.freezes.find? (fun f => f.host == h) = none → t = s)
      ∧ (∀ f, s.parts.freezes.find? (fun f => f.host == h) = some f →
          ((s.freezeQps f.part f.inst).settled f.part f.inst = false → t = s.freezeQps f.part f.inst)
          ∧ ((s.freezeQps f.part f.inst).settled f.part f.inst = true → ∀ i, f.inst = some i → t.parts.freezes = s.parts.freezes.filter (fun x => x.host != h) ∧ t.get (Reg.PART_CMD_STS.RESULT h) = 0 ∧ t.get (Reg.PART_CMD_STS.DONE h) = 1 ∧ t.get (Reg.PART_CMD_STS.BUSY h) = 0
              ∧ (i < 1023 → t.get (Reg.PART_INST.STATE i) = 2))
          ∧ ((s.freezeQps f.part f.inst).settled f.part f.inst = true → f.inst = none → f.part < 64 → (s.freezeQps f.part f.inst).coresOf f.part = [] →
              t.pstate f.part = 3 ∧ t.parts.freezes = s.parts.freezes.filter (fun x => x.host != h) ∧ t.get (Reg.PART_CMD_STS.RESULT h) = 0 ∧ t.get (Reg.PART_CMD_STS.DONE h) = 1))
      ∧ CoreOnly { s with held := t.held, kennel := t.kennel, parts := t.parts, memsys := t.memsys, freeCtr := t.freeCtr } t := by
  have hfreezes (p : Nat) (i : Option Nat) : (s.freezeQps p i).parts.freezes = s.parts.freezes := congrArg Parts.freezes (parts_freezeQps ..)
  refine ⟨freezeCompleteEff h s, rfl, freezeCompleteEff_none, fun f hf => ⟨freezeCompleteEff_waits hf, fun hw i hi => ?_, fun hw hi hp hcores => ?_⟩,
    eq_patch_of_same (freezeCompleteEff_same h s)⟩
  · rw [freezeCompleteEff_inst hf hw hi]
    refine ⟨by rw [freezes_frozen, hfreezes], get_partCmdEnd_result _ _ (by decide), get_partCmdEnd_done .., get_partCmdEnd_busy .., fun hlt => ?_⟩
    exact get_frozen _ _ _ (by decide : 6 + 2 ≤ 32) (by decide : 2 < 2 ^ 2) ((partInst_off_lt (by omega)).trans (by decide)) (partInst_ne_partCmdSts (by omega) h)
  · rw [freezeCompleteEff_part hf hw hi hcores]
    refine ⟨?_, by rw [freezes_frozen, hfreezes], get_partCmdEnd_result _ _ (by decide), get_partCmdEnd_done ..⟩
    exact get_frozen _ _ _ (by decide : 0 + 3 ≤ 32) (by decide : 3 < 2 ^ 3) (partSts_off_lt hp) (partSts_ne_partCmdSts _ h)

/-! What a thaw leaves still -/

@[simp] theorem loud_clusterCoreStsState (k n : Nat) : loud (Reg.CLUSTER_CORE_STS.STATE k n).off = true :=
  loud_of_le (Nat.le_add_right_of_le (Nat.le_add_right_of_le (by decide)))

@[simp] theorem still_rereadEntry (s : State) (n : Nat) (l : Live) : still (s.rereadEntry n l) = still s := by
  unfold State.rereadEntry
  split
  · rfl
  · split
    · next h =>
      have ht := still_of_fst h (still_memReadC ..)
      dsimp only
      split
      · exact (still_modLive ..).trans ht
      · exact ht
    · next h => exact (still_modLive ..).trans (still_of_fst h (still_memReadC ..))

@[simp] theorem still_reread (s : State) (n : Nat) : still (s.reread n) = still s := by
  unfold State.reread
  split
  · rfl
  · exact still_foldl (fun u l => still_rereadEntry u n l) _ _

@[simp] theorem still_thawQp (s : State) (q : Nat) : still (s.thawQp q) = still s := by
  unfold State.thawQp
  extract_lets +onlyGivenNames t
  have ht : still t = still s := (still_modQp ..).trans (still_need ..)
  split
  · exact ht
  · refine (still_settle ..).trans (Eq.trans ?_ ht)
    split
    · exact (still_resend ..).trans (still_modCtx ..)
    · exact still_pump ..

@[simp] theorem still_coreActive (s : State) (c : Nat) (b : Bool) : still (s.coreActive c b) = still s := by
  unfold State.coreActive
  split <;> rfl

@[simp] theorem still_tryResume (s : State) (c : Nat) : still (s.tryResume c) = still s := by
  unfold State.tryResume State.setCoreSt
  dsimp only
  split
  · exact (still_coreActive ..).trans (still_put _ _ (by simp))
  · rfl

/-! Queues without entries -/

/-- No queue has an entry that has started. -/
def Idle (qs : Sparse Queue) : Prop := ∀ e ∈ qs, e.2.live = []

theorem live_of_idle {s : State} (h : Idle s.queues) {n : Nat} {q : Queue} (hq : s.queue? n = some q) : q.live = [] := h _ (mem_of_at? hq)

theorem endAll_of_idle {s : State} (h : Idle s.queues) (n st : Nat) : s.endAll n st = s := by
  unfold State.endAll
  split
  · rfl
  · next w hw => rw [live_of_idle h hw]; rfl

theorem queues_errorHere {s : State} (h : Idle s.queues) (q st psn : Nat) : (s.errorHere q st psn).queues = s.queues := by
  unfold State.errorHere
  split
  · rfl
  · split
    · rfl
    · extract_lets +onlyGivenNames -merge -useContext a b c
      have hc : c.queues = s.queues := rfl
      clear_value c
      have hidle : Idle c.queues := hc.symm ▸ h
      rw [endAll_of_idle hidle, endAll_of_idle hidle, hc]

theorem queues_sramUe (s : State) (d e b : Nat) : (s.sramUe d e b).queues = s.queues := (sramUe_same ..).queues rfl

theorem queues_fresh (s : State) : s.fresh.queues = s.queues := rfl

theorem queues_count (s : State) (f : Fld) (n : Nat) : (s.count f n).queues = s.queues := (count_same ..).queues rfl

theorem queues_checkCtx {s : State} (h : Idle s.queues) (q : Nat) : (s.checkCtx q).queues = s.queues := by
  unfold State.checkCtx
  split
  · extract_lets +onlyGivenNames -merge -useContext a b c
    have hc : (c.count Reg.KENNEL_CTX_UNCORR.COUNT).queues = s.queues := by
      unfold c
      rw [queues_count, queues_fresh, queues_sramUe]
    clear_value c
    exact (queues_errorHere (hc.symm ▸ h) ..).trans hc
  · rfl

theorem queues_bringIn (s : State) (q : Nat) : (s.bringIn q).queues = s.queues := (bringIn_same ..).queues rfl

theorem queues_fetchIn {s : State} (h : Idle s.queues) (q : Nat) : (s.fetchIn q).queues = s.queues := by
  have hspill {t : State} {x : Qp} {r : Option (List Byte)} (ht : s.readSpill x = (t, r)) : t.queues = s.queues :=
    (Same.of_fst ht (readSpill_same ..)).queues rfl
  have hbad {t : State} (ht : t.queues = s.queues) (psn : Nat) :
      (((t.count Reg.KENNEL_CTX_UNCORR.COUNT).bringIn q).errorHere q 0x40 psn).queues = s.queues := by
    have hin : ((t.count Reg.KENNEL_CTX_UNCORR.COUNT).bringIn q).queues = s.queues := (queues_bringIn ..).trans (((count_same ..).queues rfl).trans ht)
    exact (queues_errorHere (hin.symm ▸ h) ..).trans hin
  unfold State.fetchIn
  split
  · rfl
  · split
    · rfl
    · split
      · exact queues_bringIn ..
      · split
        · next ht =>
          split
          · refine (queues_bringIn ..).trans ?_
            exact (hspill ht : _)
          · exact hbad (hspill ht) _
        · next ht => exact hbad (hspill ht) _

theorem queues_need {s : State} (h : Idle s.queues) (q : Nat) : (s.need q).queues = s.queues := by
  unfold State.need
  split
  · rfl
  · split
    · exact queues_checkCtx h q
    · split
      · exact queues_fetchIn h q
      · split
        · exact queues_fetchIn (s := s.count _) h q
        · rfl

theorem queues_whenIn {s : State} (h : Idle s.queues) (q : Nat) (j : CtxJob) {act : State → State}
    (hact : ∀ t : State, t.queues = s.queues → (act t).queues = s.queues) : (s.whenIn q j act).queues = s.queues := by
  unfold State.whenIn
  split
  · exact hact s rfl
  · split
    · exact hact _ (queues_checkCtx h q)
    · split
      · exact hact _ (queues_fetchIn h q)
      · refine ((miss_same ..).queues rfl).trans ?_
        split <;> rfl

theorem queues_modQp (s : State) (q : Nat) (f : Qp → Qp) : (s.modQp q f).queues = s.queues := (modQp_same ..).queues rfl

/-- Where no entry has started there is nothing to send. -/
theorem liveAt_of_idle {s : State} (h : Idle s.queues) (c : QpCtx) (p : Nat) : s.liveAt c p = none := by
  unfold State.liveAt State.txLives
  split
  · next w hw => rw [live_of_idle h hw]; rfl
  · rfl

theorem queues_pumpN {s : State} (h : Idle s.queues) (q k : Nat) : (s.pumpN q k).queues = s.queues := by
  induction k generalizing s with
  | zero => rfl
  | succ k ih =>
    unfold State.pumpN
    split
    · rfl
    · dsimp only
      rw [liveAt_of_idle h]
      split
      · rfl
      · dsimp only
        split
        · have hq := queues_modQp s q (fun x => { x with again := none })
          exact (ih (hq.symm ▸ h)).trans hq
        · rfl

theorem queues_pump {s : State} (h : Idle s.queues) (q : Nat) : (s.pump q).queues = s.queues := by
  unfold State.pump
  split
  · split
    · exact queues_whenIn h q _ fun t ht => (queues_pumpN (ht.symm ▸ h) ..).trans ht
    · rfl
  · rfl

/-! Queues that a thaw has let go on -/

/-- No queue has an entry that has started, and none of the partition is stopped. -/
def Resting (p : Nat) (s : State) : Prop := ∀ e ∈ s.queues, e.2.live = [] ∧ (inScope p none e.2.cid && e.2.stopped) = false

theorem Resting.idle {p : Nat} {s : State} (h : Resting p s) : Idle s.queues := fun e he => (h e he).1

theorem Resting.of_queues {p : Nat} {s t : State} (h : Resting p s) (e : t.queues = s.queues) : Resting p t := by
  unfold Resting
  rw [e]
  exact h

theorem resting_disturb {s : State} {p : Nat} (h : Resting p s) (n : Nat) : Resting p (s.disturb n) := by
  unfold State.disturb
  split
  · next w hw =>
    intro e he
    rcases Sparse.mem_set he with rfl | he
    · obtain ⟨hlive, hstop⟩ := h _ (mem_of_at? hw)
      exact ⟨List.map_eq_nil_iff.mpr hlive, hstop⟩
    · exact h e he
  · exact h

theorem resting_pump {s : State} {p : Nat} (h : Resting p s) (q : Nat) : Resting p (s.pump q) := h.of_queues (queues_pump h.idle q)

theorem resting_modQp {s : State} {p : Nat} (h : Resting p s) (q : Nat) (f : Qp → Qp) : Resting p (s.modQp q f) := h.of_queues (queues_modQp s q f)

theorem resting_resend {s : State} {p : Nat} (h : Resting p s) (q psn : Nat) : Resting p (s.resend q psn) := by
  unfold State.resend
  split
  · exact h
  · extract_lets +onlyGivenNames -merge -useContext c any
    split
    · exact h
    · extract_lets +onlyGivenNames -merge -useContext t v
      have ht : Resting p t := by
        unfold t
        split
        · exact (resting_disturb h _).of_queues (queues_count ..)
        · exact h
      clear_value t
      exact (resting_pump (resting_modQp ht _ _) q).of_queues ((sendResync_same ..).queues rfl)

theorem resting_thawQp {s : State} {p : Nat} (h : Resting p s) (q : Nat) : Resting p (s.thawQp q) := by
  unfold State.thawQp
  extract_lets +onlyGivenNames -merge -useContext t
  have ht : Resting p t := by
    unfold t
    exact resting_modQp (h.of_queues (queues_need h.idle q)) _ _
  clear_value t
  split
  · exact ht
  · refine Resting.of_queues ?_ ((settle_same ..).queues rfl)
    split
    · exact resting_resend (resting_modQp ht _ _) _ _
    · exact resting_pump ht q

/-! THAW -/

/-- The numbers of the scope's stopped queues. -/
def stoppedIn (u : State) (p : Nat) (j : Option Nat) : List Nat :=
  (u.queues.filter (fun (e : Nat × Queue) => inScope p j e.2.cid && e.2.stopped)).map (·.1)

/-- The stopped queues read their started entries again and go on. -/
def requeued (u : State) (p : Nat) (j : Option Nat) : State :=
  { (stoppedIn u p j).foldl State.reread u with
    queues := ((stoppedIn u p j).foldl State.reread u).queues.map (fun (e : Nat × Queue) =>
      if (stoppedIn u p j).contains e.1 then (e.1, { e.2 with stopped := false }) else e) }

/-- The scope is ACTIVE, or SEALED with its instances ACTIVE. -/
def reopened (s : State) (p : Nat) : Option Nat → State
  | some i => s.put (Reg.PART_INST.STATE i) 1
  | none => (s.instsOf p).foldl (fun s j => s.put (Reg.PART_INST.STATE j) 1) (s.put (Reg.PART_STS.STATE p) 2)

/-- The scope's queue pairs and a partition's cores go on. -/
def resumed (s : State) (p : Nat) (j : Option Nat) : State :=
  let s := (s.qps.filter (fun (e : Nat × Qp) => inScope p j e.2.ctx.cid && e.2.ctx.state == 7)).foldl (fun s e => s.thawQp e.1) s
  if j.isNone then (s.coresOf p).foldl (fun s c => (s.modCore c (fun k => { k with haltFreeze := false })).tryResume c) s else s

/-- THAW after CFG_REJ. -/
def thawFrom (u : State) (h : HostId) (p : Nat) (j : Option Nat) : State :=
  match u.scopeCheck h p j with
  | some r => u.partCmdEnd h r
  | none =>
    if u.scopeFrozen p j = false ∨ (j.isSome = true ∧ u.pstate p ≠ 2) then u.partCmdEnd h 1
    else (resumed (reopened (requeued u p j) p j) p j).partCmdEnd h 0

theorem thaw_eq (w : State) (h : HostId) (p : Nat) (j : Option Nat) : w.thaw h p j = thawFrom (noted w h p j 3) h p j := by
  cases j <;> rfl

section
variable {u : State} {h : HostId} {p : Nat} {j : Option Nat}

theorem thawFrom_refused {r : Nat} (hr : u.scopeCheck h p j = some r) : thawFrom u h p j = u.partCmdEnd h r := by
  simp [thawFrom, hr]

variable (hc : u.scopeCheck h p j = none)
include hc

theorem thawFrom_badState (hb : u.scopeFrozen p j = false ∨ (j.isSome = true ∧ u.pstate p ≠ 2)) : thawFrom u h p j = u.partCmdEnd h 1 := by
  simp only [thawFrom, hc, if_pos hb]

theorem thawFrom_resumes (hf : u.scopeFrozen p j = true) (hs : j.isSome = true → u.pstate p = 2) :
    thawFrom u h p j = (resumed (reopened (requeued u p j) p j) p j).partCmdEnd h 0 := by
  have hb : ¬ (u.scopeFrozen p j = false ∨ (j.isSome = true ∧ u.pstate p ≠ 2)) := by
    rintro (h1 | ⟨h1, h2⟩)
    · exact absurd (hf.symm.trans h1) (by decide)
    · exact h2 (hs h1)
  simp only [thawFrom, hc, if_neg hb]

end

/-! What a thaw shows -/

theorem still_requeued (u : State) (p : Nat) (j : Option Nat) : still (requeued u p j) = still u :=
  still_foldl still_reread (stoppedIn u p j) u

theorem still_resumed (s : State) (p : Nat) (j : Option Nat) : still (resumed s p j) = still s := by
  unfold resumed
  extract_lets +onlyGivenNames -merge -useContext t
  have ht : still t = still s := by
    unfold t
    refine still_foldl (fun v e => ?_) _ _
    exact still_thawQp ..
  clear_value t
  split
  · refine Eq.trans (still_foldl (fun v c => ?_) _ _) ht
    exact (still_tryResume ..).trans (still_of_same (modCore_same ..) rfl)
  · exact ht

theorem get_resumed (s : State) (h : HostId) (p : Nat) (j : Option Nat) {f : Fld} (hf : loud f.off = false) (hlt : f.off < 0x700000)
    (hne : f.off ≠ Reg.PART_CMD_STS.off h) : ((resumed s p j).partCmdEnd h 0).get f = s.get f :=
  (get_partCmdEnd_ne _ _ _ hlt hne).trans (get_of_still (still_resumed ..) hf)

/-- The state of a partition stays while its instances become ACTIVE. -/
theorem pstate_activated (l : List Nat) (s : State) {p : Nat} (hp : p < 64) :
    (l.foldl (fun s j => s.put (Reg.PART_INST.STATE j) 1) s).pstate p = s.pstate p := by
  induction l generalizing s with
  | nil => rfl
  | cons a l ih => exact (ih _).trans (get_put_ne _ _ _ _ (partInst_ne_partSts a hp).symm)

theorem pstate_reopened_none (s : State) {p : Nat} (hp : p < 64) : (reopened s p none).pstate p = 2 :=
  (pstate_activated _ _ hp).trans (get_put_fits _ _ _ (by decide : 0 + 3 ≤ 32) (by decide : 2 < 2 ^ 3))

theorem get_reopened_some (s : State) (p i : Nat) : (reopened s p (some i)).get (Reg.PART_INST.STATE i) = 1 :=
  get_put_fits _ _ _ (by decide : 6 + 2 ≤ 32) (by decide : 1 < 2 ^ 2)

theorem pstate_reopened_some (s : State) {p : Nat} (hp : p < 64) (i : Nat) : (reopened s p (some i)).pstate p = s.pstate p :=
  get_put_ne _ _ _ _ (partInst_ne_partSts i hp).symm

/-! The queues of a thawed partition -/

theorem reread_of_idle {s : State} (h : Idle s.queues) (n : Nat) : s.reread n = s := by
  unfold State.reread
  split
  · rfl
  · next w hw => rw [live_of_idle h hw]; rfl

theorem foldl_reread_of_idle {s : State} (h : Idle s.queues) (l : List Nat) : l.foldl State.reread s = s := by
  induction l with
  | nil => rfl
  | cons n l ih => rw [List.foldl_cons, reread_of_idle h, ih]

theorem resting_requeued {u : State} (h : Idle u.queues) (p : Nat) : Resting p (requeued u p none) := by
  intro e he
  unfold requeued at he
  rw [foldl_reread_of_idle h] at he
  obtain ⟨e', he', rfl⟩ := List.mem_map.mp he
  have hlive := h e' he'
  split
  · exact ⟨hlive, Bool.and_false _⟩
  · next hn =>
    refine ⟨hlive, ?_⟩
    cases hstop : inScope p none e'.2.cid && e'.2.stopped with
    | false => rfl
    | true => exact absurd (List.contains_iff_mem.mpr (List.mem_map_of_mem (List.mem_filter.mpr ⟨he', hstop⟩))) hn

theorem queues_reopened (s : State) (p : Nat) (j : Option Nat) : (reopened s p j).queues = s.queues := by
  cases j with
  | some i => rfl
  | none => exact (Same.foldl (m := 2) _ _ _ (fun _ _ hx => hx.trans (put_same ..)) (put_same s (Reg.PART_STS.STATE p) 2)).queues rfl

theorem resting_resumed {s : State} {p : Nat} (h : Resting p s) (j : Option Nat) : Resting p (resumed s p j) := by
  unfold resumed
  extract_lets +onlyGivenNames -merge -useContext t
  have ht : Resting p t := by
    unfold t
    generalize s.qps.filter _ = l
    induction l generalizing s with
    | nil => exact h
    | cons e l ih => exact ih (resting_thawQp h e.1)
  clear_value t
  split
  · refine ht.of_queues (Same.queues (m := 274877906946 ||| 8388608) ?_ rfl)
    refine Same.foldl _ _ _ (fun x c hx => ?_) (.refl _ t)
    exact (hx.seq (modCore_same ..) (by decide)).seq (tryResume_same ..) (by decide)
  · exact ht

theorem completes_thaw {s u : State} {h : HostId} {p : PartId} {i : BitVec 10} {sc : Bool} {seen : Seen} {j : Option Nat}
    (hs : Takes s h (Reg.PART_CMD.off h) ∧ s.flag (Reg.PART_CMD_STS.BUSY h) = false ∧ j = (if sc then some i.toNat else none))
    (hu : u = (if sc = false ∧ s.pstate p ≠ 3 then ((s.applyWrite (Reg.PART_CMD.off h) (partWord 5 sc p i)).see seen).notListed h p else (s.applyWrite (Reg.PART_CMD.off h) (partWord 5 sc p i)).see seen)) :
    Completes (.thaw h sc p i seen) s fun t =>
      (∀ r, u.scopeCheck h p j = some (r) → t = u.partCmdEnd h r)
      ∧ (u.scopeCheck h p j = none → u.scopeFrozen p j = false ∨ (sc = true ∧ u.pstate p ≠ 2) → t = u.partCmdEnd h 1)
      ∧ (u.scopeCheck h p j = none → u.scopeFrozen p j = true → sc = true → u.pstate p = 2 → t.get (Reg.PART_INST.STATE i.toNat) = 1 ∧ t.pstate p = 2 ∧ t.get (Reg.PART_CMD_STS.RESULT h) = 0 ∧ t.get (Reg.PART_CMD_STS.DONE h) = 1)
      ∧ (u.scopeCheck h p j = none → u.scopeFrozen p j = true → sc = false → t.pstate p = 2 ∧ t.get (Reg.PART_CMD_STS.RESULT h) = 0 ∧ t.get (Reg.PART_CMD_STS.DONE h) = 1
          ∧ (s.queues.all (fun e => e.2.live.isEmpty) = true → t.queues.all (fun e => !(inScope p none e.2.cid && e.2.stopped)) = true))
      ∧ t.time = s.time := by
  obtain ⟨htakes, hbusy, rfl⟩ := hs
  rw [← noted_taken] at hu
  have hsame : Same 15393162788866 s u := by
    rw [hu]
    exact (taken_same ..).seq (noted_same ..) (by decide)
  have hrun : partCmdRun ((s.applyWrite (Reg.PART_CMD.off h) (partWord 5 sc p i)).see seen) h 5 p i.toNat (scopeOf sc i) = thawFrom u h p (scopeOf sc i) := by
    rw [hu]
    exact thaw_eq ..
  refine completes_partCmd_runs (op := 5) (seen := seen) (fun _ => rfl) (by decide) htakes hbusy hrun ?_
  have hsts (v : State) (j : Option Nat) : ((resumed v p j).partCmdEnd h 0).pstate p = v.pstate p :=
    get_resumed _ _ _ _ (loud_partSts p.isLt) (partSts_off_lt p.isLt) (partSts_ne_partCmdSts p h)
  refine ⟨fun r => thawFrom_refused, fun hc hb => thawFrom_badState hc ?_, fun hc hf hsc hst => ?_, fun hc hf hsc => ?_, ?_⟩
  · cases sc <;> simpa [scopeOf] using hb
  · subst hsc
    rw [thawFrom_resumes hc hf (fun _ => hst)]
    refine ⟨?_, ?_, get_partCmdEnd_result _ _ (by decide), get_partCmdEnd_done ..⟩
    · exact (get_resumed _ _ _ _ (loud_partInst i.isLt) ((partInst_off_lt i.isLt).trans (by decide)) (partInst_ne_partCmdSts i.isLt h)).trans
        (get_reopened_some ..)
    · rw [hsts]
      exact (pstate_reopened_some _ p.isLt _).trans ((get_of_still (still_requeued ..) (loud_partSts p.isLt)).trans hst)
  · subst hsc
    rw [thawFrom_resumes hc hf (fun hsome => by simp at hsome)]
    refine ⟨?_, get_partCmdEnd_result _ _ (by decide), get_partCmdEnd_done .., fun hidle => ?_⟩
    · rw [hsts]
      exact pstate_reopened_none _ p.isLt
    · have hu' : Idle u.queues := by
        rw [hsame.queues rfl]
        exact fun e he => List.isEmpty_iff.mp (List.all_eq_true.mp hidle e he)
      have hrest := (resting_resumed ((resting_requeued hu' p).of_queues (queues_reopened _ p none)) none).of_queues ((partCmdEnd_same _ h 0).queues rfl)
      refine List.all_eq_true.mpr fun e he => ?_
      rw [(hrest e he).2]
      rfl
  · rw [← hrun]
    exact ((thaw_same ..).time rfl).trans ((taken_same ..).time rfl)

end Sys2Proof.Machine.Proofs
end

section
/-! PROOFS. Lengths of what AES-GCM gives, and the save image (09_partitions_instances_migration.md R262, Table 9.3). -/

namespace Sys2Proof.Machine.Proofs

open Laws

/-! AES-GCM with a 32-byte key -/

theorem length_leBytes (k n : Nat) : (leBytes k n).length = k := by
  induction k generalizing n with
  | zero => rfl
  | succ k ih => rw [leBytes, List.length_cons, ih]

theorem length_beBytes (k n : Nat) : (beBytes k n).length = k := by rw [beBytes, List.length_reverse, length_leBytes]

theorem length_xorBytes (a b : List Byte) : (xorBytes a b).length = min a.length b.length := List.length_zipWith

/-- Words of four bytes. -/
def Words (ws : List (List Byte)) : Prop := ∀ w ∈ ws, w.length = 4

theorem Words.getD {ws : List (List Byte)} (h : Words ws) {i : Nat} (hi : i < ws.length) : (ws.getD i []).length = 4 := by
  rw [List.getD_eq_getElem _ _ hi]
  exact h _ (List.getElem_mem hi)

/-- The key schedule appends words. -/
theorem words_aesExpand {nk : Nat} (hnk : 0 < nk) (n : Nat) {ws : List (List Byte)} (hlen : nk ≤ ws.length) (hws : Words ws) :
    (aesExpand nk n ws).length = ws.length + n ∧ Words (aesExpand nk n ws) := by
  induction n generalizing ws with
  | zero => exact ⟨rfl, hws⟩
  | succ n ih =>
    unfold aesExpand
    extract_lets i t t'
    have ht : t.length = 4 := hws.getD (by omega)
    have ht' : t'.length = 4 := by
      unfold t'
      split
      · simp [length_xorBytes, ht]
      · split <;> simp [ht]
    have hnew : (xorBytes (ws.getD (i - nk) []) t').length = 4 := by
      rw [length_xorBytes, ht', hws.getD (by omega)]
      rfl
    have hall : Words (ws ++ [xorBytes (ws.getD (i - nk) []) t']) := by
      intro w hw
      rcases List.mem_append.mp hw with hw | hw
      · exact hws w hw
      · rw [List.mem_singleton.mp hw, hnew]
    obtain ⟨hl, hw⟩ := ih (by rw [List.length_append]; omega) hall
    refine ⟨?_, hw⟩
    rw [hl, List.length_append, List.length_singleton]
    omega

theorem length_flatten_words {ws : List (List Byte)} (h : Words ws) : ws.flatten.length = 4 * ws.length := by
  induction ws with
  | nil => rfl
  | cons w ws ih =>
    obtain ⟨hw, hws⟩ := List.forall_mem_cons.mp h
    rw [List.flatten_cons, List.length_append, hw, ih hws, List.length_cons]
    omega

section
variable {key : List Byte} (hkey : key.length = 32)
include hkey

theorem length_aesEnc (blk : List Byte) : (aesEnc key blk).length = 16 := by
  have hfirst : Words ((List.range 8).map (fun i => slice key (4 * i) 4)) := by
    intro w hw
    obtain ⟨i, hi, rfl⟩ := List.mem_map.mp hw
    have hlt := List.mem_range.mp hi
    simp [slice, hkey]
    omega
  obtain ⟨hlen, hwords⟩ := words_aesExpand (nk := 8) (by decide) 52 (by simp) hfirst
  have hlast : (slice (aesExpand 8 52 ((List.range 8).map (fun i => slice key (4 * i) 4))) 56 4).flatten.length = 16 := by
    have hslice : Words (slice (aesExpand 8 52 ((List.range 8).map (fun i => slice key (4 * i) 4))) 56 4) :=
      fun w hw => hwords w (List.drop_subset _ _ (List.take_subset _ _ hw))
    rw [length_flatten_words hslice, slice, List.length_take, List.length_drop, hlen]
    simp
  have hkeys : aesKeys key = (List.range 15).map (fun r => (slice (aesExpand 8 52 ((List.range 8).map (fun i => slice key (4 * i) 4))) (4 * r) 4).flatten) := by
    simp [aesKeys, hkey]
  unfold aesEnc
  extract_lets ks n s
  have hn : ks.getD n [] = (slice (aesExpand 8 52 ((List.range 8).map (fun i => slice key (4 * i) 4))) 56 4).flatten := by
    unfold n ks
    rw [hkeys]
    simp
  rw [length_xorBytes, hn, hlast]
  simp [shiftRows]

theorem length_gcmCtr (iv : List Byte) (k ctr : Nat) {bs : List Byte} (hk : bs.length ≤ 16 * k) : (gcmCtr key iv k ctr bs).length = bs.length := by
  induction k generalizing ctr bs with
  | zero => rw [List.length_eq_zero_iff.mp (by omega : bs.length = 0)]; rfl
  | succ k ih =>
    rw [gcmCtr, List.length_append, length_xorBytes, length_aesEnc hkey, ih _ (by rw [List.length_drop]; omega), List.length_take, List.length_drop]
    omega

theorem length_gcmText (iv text : List Byte) : (gcmText key iv text).length = text.length :=
  length_gcmCtr hkey _ _ _ (by unfold ceilDiv; omega)

theorem length_gcmTag (iv aad cipher : List Byte) : (gcmTag key iv aad cipher).length = 16 := by
  unfold gcmTag
  dsimp only
  rw [length_xorBytes, length_beBytes, length_aesEnc hkey]
  rfl

end

theorem length_saveHeader (s : State) (p : Nat) (i : Option Nat) (nsect len : Nat) {iv : List Byte} (hiv : iv.length = 12) :
    (s.saveHeader p i nsect len iv).length = 128 := by
  simp [State.saveHeader, length_leBytes, hiv]

end Sys2Proof.Machine.Proofs
end

section
/-! PROOFS. Saving (09_partitions_instances_migration.md R262). -/

namespace Sys2Proof.Machine.Proofs

open Laws

/-! SAVE -/

/-- The IV of the next save. -/
def saveIv (u : State) : List Byte := leBytes 8 u.parts.saves ++ u.freeBytes 4

/-- The state of the device with one save more. -/
def saveCounted (u : State) : State := { u with parts := { u.parts with saves := u.parts.saves + 1 } }

/-- The bytes of the image. -/
def saveBytes (u : State) (p : Nat) (j : Option Nat) (key : List Byte) : List Byte :=
  let head := (saveCounted u).saveHeader p j (u.sections p j).length (128 + (u.sections p j).flatten.length + 16) (saveIv u)
  let cipher := gcmText key (saveIv u) (u.sections p j).flatten
  head ++ cipher ++ gcmTag key (saveIv u) head cipher

/-- The image goes to memory, and the command ends. -/
def saveWritten (u : State) (h : HostId) (p : Nat) (j : Option Nat) (key : List Byte) : State :=
  match (saveCounted u).fresh.memWriteC (1024 * p + 0x3FF) (u.get (Reg.PART_CMD_ADDR_HI.SPACE h)) (u.saveAddr h) (saveBytes u p j key) with
  | (s, .ok _) => (s.put (Reg.PART_CMD_BYTES.BYTES h) (128 + (u.sections p j).flatten.length + 16)).partCmdEnd h 0
  | (s, .error _) => s.partCmdEnd h 2

/-- SAVE, its checks in their order. -/
theorem save_eq (u : State) (h : HostId) (p : Nat) (j : Option Nat) : u.save h p j =
    match u.scopeCheck h p j with
    | some r => u.partCmdEnd h r
    | none =>
      if u.flag (Reg.PART_ALLOC.SAVE p) = false then u.partCmdEnd h 3
      else match u.saveKey h p, u.saveRoom? h with
        | some key, some room =>
          if u.scopeFrozen p j = false then u.partCmdEnd h 1
          else if room < 128 + (u.sections p j).flatten.length + 16 then u.partCmdEnd h 5
          else saveWritten u h p j key
        | _, _ => u.partCmdEnd h 2 := rfl

theorem save_refused {u : State} {h : HostId} {p : Nat} {j : Option Nat} {r : Nat} (hr : u.scopeCheck h p j = some r) :
    u.save h p j = u.partCmdEnd h r := by
  rw [save_eq, hr]

section
variable {u : State} {h : HostId} {p : Nat} {j : Option Nat} (hc : u.scopeCheck h p j = none)
include hc

theorem save_rights (hs : u.get (Reg.PART_ALLOC.SAVE p) = 0) : u.save h p j = u.partCmdEnd h 3 := by
  rw [save_eq, hc]
  exact if_pos (by simp [State.flag, hs])

variable (hs : u.get (Reg.PART_ALLOC.SAVE p) = 1)
include hs

theorem save_badField (hb : u.saveKey h p = none ∨ u.saveRoom? h = none) : u.save h p j = u.partCmdEnd h 2 := by
  rw [save_eq, hc]
  refine (if_neg (by simp [State.flag, hs])).trans ?_
  rcases hb with hb | hb <;> rw [hb]
  cases u.saveKey h p <;> rfl

variable {key : List Byte} (hkey : u.saveKey h p = some key) {room : Nat} (hroom : u.saveRoom? h = some room)
include hkey hroom

theorem save_keyed : u.save h p j = if u.scopeFrozen p j = false then u.partCmdEnd h 1
    else if room < 128 + (u.sections p j).flatten.length + 16 then u.partCmdEnd h 5 else saveWritten u h p j key := by
  rw [save_eq, hc]
  refine (if_neg (by simp [State.flag, hs])).trans ?_
  rw [hkey, hroom]

end

/-! The image as written -/

theorem length_saveKey {u : State} {h : HostId} {p : Nat} {key : List Byte} (hk : u.saveKey h p = some key) : key.length = 32 := by
  unfold State.saveKey at hk
  dsimp only at hk
  split at hk
  · simpa using (Option.filter_eq_some_iff.mp hk).2
  · cases hk

theorem length_saveBytes (u : State) {h : HostId} {p : Nat} (j : Option Nat) {key : List Byte} (hk : u.saveKey h p = some key) :
    (saveBytes u p j key).length = 144 + (u.sections p j).flatten.length := by
  have hkey := length_saveKey hk
  have hiv : (saveIv u).length = 12 := by simp [saveIv, length_leBytes, State.freeBytes]
  unfold saveBytes
  rw [List.length_append, List.length_append, length_gcmTag hkey, length_gcmText hkey, length_saveHeader _ _ _ _ _ hiv]
  omega

/-- A room has at most 64 MiB. -/
theorem saveRoom_le {u : State} {h : HostId} {room : Nat} (hr : u.saveRoom? h = some room) : room ≤ 2 ^ 26 := by
  unfold State.saveRoom? at hr
  dsimp only at hr
  split at hr
  · cases hr
  · cases hr
    omega

/-- The state in which the image stands in the host's memory. -/
def saveStored (u : State) (h : HostId) (p : Nat) (j : Option Nat) (key : List Byte) : State :=
  ((saveCounted u).fresh.writeHost ((saveCounted u).owner (cidPart (1024 * p + 0x3FF))) (u.saveAddr h) (saveBytes u p j key)
    (!false && (saveCounted u).flag (Reg.HOSTIF_PORT_CTL.RO_EN ((saveCounted u).owner (cidPart (1024 * p + 0x3FF)))))).put (Reg.PART_CMD_BYTES.BYTES h)
      (128 + (u.sections p j).flatten.length + 16)

theorem saveWritten_ok {u : State} {h : HostId} {p : Nat} {j : Option Nat} {key : List Byte} (hk : u.saveKey h p = some key)
    (hspace : u.get (Reg.PART_CMD_ADDR_HI.SPACE h) = 0)
    (hcheck : u.memCheck (1024 * p + 0x3FF) 0 (u.saveAddr h) (144 + (u.sections p j).flatten.length) true = .ok ()) :
    saveWritten u h p j key = (saveStored u h p j key).partCmdEnd h 0 := by
  have hsame : (saveCounted u).fresh.memCheck (1024 * p + 0x3FF) 0 (u.saveAddr h) (saveBytes u p j key).length true = .ok () := by
    rw [length_saveBytes u j hk]
    exact hcheck
  unfold saveWritten State.memWriteC
  rw [hspace, hsame]
  rfl

theorem freeCtr_same (s : State) : Same 70368744177664 s s.fresh := by
  constructor <;> intro hb <;> first | rfl | exact absurd hb (by decide)

theorem saveStored_same (u : State) (h : HostId) (p : Nat) (j : Option Nat) (key : List Byte) : Same 112150722904114 u (saveStored u h p j key) := by
  have hcount : Same 112150722904114 u (saveCounted u) := (setParts_same u _).mono (by decide)
  unfold saveStored
  exact ((hcount.seq (freeCtr_same ..) (by decide)).seq (writeHost_same ..) (by decide)).seq (put_same ..) (by decide)

theorem saves_saveStored (u : State) (h : HostId) (p : Nat) (j : Option Nat) (key : List Byte) : (saveStored u h p j key).parts.saves = u.parts.saves + 1 := by
  unfold saveStored
  rw [(put_same ..).parts rfl, (writeHost_same ..).parts rfl]
  rfl

theorem get_saveStored_bytes (u : State) (h : HostId) (p : Nat) (j : Option Nat) (key : List Byte) (hlen : (u.sections p j).flatten.length < 2 ^ 26) :
    (saveStored u h p j key).get (Reg.PART_CMD_BYTES.BYTES h) = 144 + (u.sections p j).flatten.length := by
  unfold saveStored
  rw [get_put_fits _ (Reg.PART_CMD_BYTES.BYTES h) _ (by decide : 0 + 32 ≤ 32) (show _ < 2 ^ 32 by omega)]
  omega

theorem get_saveStored_ne (u : State) (h : HostId) (p : Nat) (j : Option Nat) (key : List Byte) {f : Fld} (hf : f.off ≠ Reg.PART_CMD_BYTES.off h) :
    (saveStored u h p j key).get f = u.get f := by
  unfold saveStored
  rw [get_put_ne _ _ _ _ hf]
  exact get_of_regs ((writeHost_same ..).regs rfl) f

theorem partSts_ne_partCmdBytes (p : Nat) (h : HostId) : Reg.PART_STS.off p ≠ Reg.PART_CMD_BYTES.off h := by
  unfold Reg.PART_STS.off Reg.PART_CMD_BYTES.off
  omega

theorem completes_save {s u : State} {h : HostId} {p : PartId} {i : BitVec 10} {sc : Bool} {j : Option Nat}
    (hs : Takes s h (Reg.PART_CMD.off h) ∧ s.flag (Reg.PART_CMD_STS.BUSY h) = false ∧ j = (if sc then some i.toNat else none))
    (hu : u = (s.applyWrite (Reg.PART_CMD.off h) (partWord 6 sc p i)).see []) :
    Completes (.save h sc p i) s fun t =>
      (∀ r, u.scopeCheck h p j = some (r) → t = u.partCmdEnd h r)
      ∧ (u.scopeCheck h p j = none → u.get (Reg.PART_ALLOC.SAVE p) = 0 → t = u.partCmdEnd h 3)
      ∧ (u.scopeCheck h p j = none → u.get (Reg.PART_ALLOC.SAVE p) = 1 → u.saveKey h p = none ∨ u.saveRoom? h = none → t = u.partCmdEnd h 2)
      ∧ (u.scopeCheck h p j = none → u.get (Reg.PART_ALLOC.SAVE p) = 1 → ∀ key, u.saveKey h p = some (key) → ∀ room, u.saveRoom? h = some (room) →
          (u.scopeFrozen p j = false → t = u.partCmdEnd h 1)
          ∧ (u.scopeFrozen p j = true → room < 144 + (u.sections p j).flatten.length → t = u.partCmdEnd h 5)
          ∧ (u.scopeFrozen p j = true → 144 + (u.sections p j).flatten.length ≤ room → u.get (Reg.PART_CMD_ADDR_HI.SPACE h) = 0 →
              u.memCheck (1024 * p + 0x3FF) 0 (u.saveAddr h) (144 + (u.sections p j).flatten.length) true = .ok () →
              t.get (Reg.PART_CMD_STS.RESULT h) = 0 ∧ t.get (Reg.PART_CMD_STS.DONE h) = 1 ∧ t.get (Reg.PART_CMD_BYTES.BYTES h) = 144 + (u.sections p j).flatten.length
              ∧ t.parts.saves = s.parts.saves + 1 ∧ t.pstate p = s.pstate p
              ∧ t = { u with regs := t.regs, host0 := t.host0, host1 := t.host1, parts := t.parts, hostMem0 := t.hostMem0, hostMem1 := t.hostMem1, out := t.out, freeCtr := t.freeCtr })) := by
  obtain ⟨htakes, hbusy, rfl⟩ := hs
  refine completes_partCmd_runs (op := 6) (seen := []) (t := u.save h p (scopeOf sc i)) (fun _ => rfl) (by decide) htakes hbusy (by rw [hu]; rfl) ?_
  refine ⟨fun r => save_refused, save_rights, save_badField, fun hc hright key hkey room hroom => ?_⟩
  have hrun := save_keyed hc hright hkey hroom
  refine ⟨fun hf => hrun.trans (if_pos hf), fun hf hlt => ?_, fun hf hle hspace hcheck => ?_⟩
  · exact hrun.trans ((if_neg (by rw [hf]; decide)).trans (if_pos (by omega)))
  · have hroomLe := saveRoom_le hroom
    rw [hrun, if_neg (by rw [hf]; decide), if_neg (by omega), saveWritten_ok hkey hspace hcheck]
    refine ⟨get_partCmdEnd_result _ _ (by decide), get_partCmdEnd_done .., ?_, ?_, ?_, ?_⟩
    · rw [get_partCmdEnd_ne _ _ _ (by unfold Reg.PART_CMD_BYTES.BYTES Reg.PART_CMD_BYTES.off; dsimp only; omega)
        (by unfold Reg.PART_CMD_BYTES.BYTES Reg.PART_CMD_BYTES.off Reg.PART_CMD_STS.off; dsimp only; omega)]
      exact get_saveStored_bytes _ _ _ _ _ (by omega)
    · rw [(partCmdEnd_same ..).parts rfl, saves_saveStored, hu, (taken_same ..).parts rfl]
    · rw [← pstate_taken s h (partWord 6 sc p i) [] p, ← hu]
      exact (get_partCmdEnd_ne _ _ _ (partSts_off_lt p.isLt) (partSts_ne_partCmdSts p h)).trans (get_saveStored_ne _ _ _ _ _ (partSts_ne_partCmdBytes p h))
    · exact eq_patch_of_same ((saveStored_same ..).seq (partCmdEnd_same ..) (by decide))

end Sys2Proof.Machine.Proofs
end

section
/-! PROOFS. Restoring (09_partitions_instances_migration.md R263; 13_determinism.md R374). -/

namespace Sys2Proof.Machine.Proofs

open Laws

/-! RESTORE, its checks in their order -/

/-- The image's length as its header gives it. -/
abbrev imageLen (b : List Byte) : Nat := leAt b 12 4

/-- The image is not what its tag says (INTEGRITY). -/
abbrev Forged (key : List Byte) (room : Nat) (b : List Byte) : Prop :=
  imageLen b < 144 ∨ room < imageLen b
    ∨ gcmTag key (slice b 24 12) (b.take 128) (slice b 128 (imageLen b - 144)) ≠ slice b (imageLen b - 16) 16

/-- The image is of another format, firmware or mode (VERSION). -/
abbrev Outdated (v : State) (b : List Byte) : Prop :=
  leAt b 0 4 ≠ 0x4E564B53 ∨ leAt b 4 2 ≠ 1 ∨ leAt b 16 8 ≠ v.get Reg.GLB_FW_VER_LO.FW + 2 ^ 32 * v.get Reg.GLB_FW_VER_HI.FW
    ∨ bitAt (leAt b 6 1) 1 ≠ v.flag Reg.GLB_CTL.EXACT

/-- The image is of another scope, or its scope cannot take it (BAD_STATE). -/
abbrev Misplaced (v : State) (p : Nat) (j : Option Nat) (b : List Byte) : Prop :=
  v.pstate p ≠ 2 ∨ leAt b 7 1 ≠ p ∨ v.flag (Reg.PART_ALLOC.SAVE p) = false ∨ bitAt (leAt b 6 1) 0 ≠ j.isSome
    ∨ (j.isSome = true ∧ leAt b 8 2 ≠ j.getD 0) ∨ (j.isNone = true ∧ (v.instsOf p).isEmpty = false)

/-- The image's sections, decrypted. -/
abbrev imageOf (key b : List Byte) : Option SaveImage :=
  saveImageOf (leAt b 10 2) (gcmText key (slice b 24 12) (slice b 128 (imageLen b - 144)))

/-- RESTORE of the bytes read. -/
def restoreOf (v : State) (h : HostId) (p : Nat) (j : Option Nat) (key : List Byte) (room : Nat) (b : List Byte) : State :=
  if Forged key room b then v.partCmdEnd h 6
  else if Outdated v b then v.partCmdEnd h 7
  else if Misplaced v p j b then v.partCmdEnd h 1
  else match imageOf key b with
    | none => v.partCmdEnd h 6
    | some x =>
      if !v.restoreFits p j.isNone x then v.partCmdEnd h 4
      else match v.restoreRecords p j.isNone x with
        | none => v.partCmdEnd h 5
        | some w => w.partCmdEnd h 0

/-- RESTORE after CFG_REJ. -/
def restoreFrom (u : State) (h : HostId) (p : Nat) (j : Option Nat) : State :=
  if u.owner p ≠ h ∨ u.pstate p = 0 then u.partCmdEnd h 3
  else match u.saveKey h p, u.saveRoom? h with
    | some key, some room =>
      match u.memReadC (1024 * p + 0x3FF) (u.get (Reg.PART_CMD_ADDR_HI.SPACE h)) (u.saveAddr h) room with
      | (v, .error _) => v.partCmdEnd h 2
      | (v, .ok b) => restoreOf v h p j key room b
    | _, _ => u.partCmdEnd h 2

theorem restore_eq (w : State) (h : HostId) (p : Nat) (j : Option Nat) : w.restore h p j = restoreFrom (noted w h p j 2) h p j := rfl

section
variable {u : State} {h : HostId} {p : Nat} (j : Option Nat)

theorem restoreFrom_rights (hr : u.owner p ≠ h ∨ u.pstate p = 0) : restoreFrom u h p j = u.partCmdEnd h 3 := if_pos hr

variable (ho : u.owner p = h) (hp : u.pstate p ≠ 0)
include ho hp

theorem restoreFrom_badField (hb : u.saveKey h p = none ∨ u.saveRoom? h = none) : restoreFrom u h p j = u.partCmdEnd h 2 := by
  refine (if_neg (by simp [ho, hp])).trans ?_
  rcases hb with hb | hb <;> rw [hb]
  cases u.saveKey h p <;> rfl

theorem restoreFrom_reads {v : State} {key b : List Byte} {room : Nat} (hkey : u.saveKey h p = some key) (hroom : u.saveRoom? h = some room)
    (hread : u.memReadC (1024 * p + 0x3FF) (u.get (Reg.PART_CMD_ADDR_HI.SPACE h)) (u.saveAddr h) room = (v, .ok b)) :
    restoreFrom u h p j = restoreOf v h p j key room b := by
  refine (if_neg (by simp [ho, hp])).trans ?_
  rw [hkey, hroom]
  dsimp only
  rw [hread]

end

section
variable {v : State} (h : HostId) {p : Nat} {j : Option Nat} {key b : List Byte} {room : Nat}

theorem restoreOf_forged (hf : Forged key room b) : restoreOf v h p j key room b = v.partCmdEnd h 6 := if_pos hf

variable (hf : ¬ Forged key room b)
include hf

theorem restoreOf_outdated (ho : Outdated v b) : restoreOf v h p j key room b = v.partCmdEnd h 7 := (if_neg hf).trans (if_pos ho)

variable (ho : ¬ Outdated v b)
include ho

theorem restoreOf_misplaced (hm : Misplaced v p j b) : restoreOf v h p j key room b = v.partCmdEnd h 1 :=
  (if_neg hf).trans ((if_neg ho).trans (if_pos hm))

theorem restoreOf_fits (hm : ¬ Misplaced v p j b) {x : SaveImage} (hx : imageOf key b = some x) (hfits : v.restoreFits p j.isNone x = true)
    {w : State} (hw : v.restoreRecords p j.isNone x = some w) : restoreOf v h p j key room b = w.partCmdEnd h 0 := by
  refine (if_neg hf).trans ((if_neg ho).trans ((if_neg hm).trans ?_))
  rw [hx]
  dsimp only
  rw [hfits, hw]
  rfl

end

/-! The command -/

/-- A RESTORE runs from the state that its statement names, and takes no time. -/
theorem completes_restore {s u : State} {h : HostId} {p : PartId} {i : BitVec 10} {sc : Bool} {seen : Seen} {j : Option Nat}
    (hs : Takes s h (Reg.PART_CMD.off h) ∧ s.flag (Reg.PART_CMD_STS.BUSY h) = false ∧ j = (if sc then some i.toNat else none))
    (hu : u = (if sc = false ∧ s.pstate p ≠ 2 then ((s.applyWrite (Reg.PART_CMD.off h) (partWord 7 sc p i)).see seen).notListed h p else (s.applyWrite (Reg.PART_CMD.off h) (partWord 7 sc p i)).see seen)) :
    exec (.restore h sc p i seen) s = .next (restoreFrom u h p j) ∧ (restoreFrom u h p j).time = s.time := by
  obtain ⟨htakes, hbusy, rfl⟩ := hs
  rw [← noted_taken] at hu
  have hrun : partCmdRun ((s.applyWrite (Reg.PART_CMD.off h) (partWord 7 sc p i)).see seen) h 7 p i.toNat (scopeOf sc i) = restoreFrom u h p (scopeOf sc i) := by
    rw [hu]
    exact restore_eq ..
  refine ⟨?_, ?_⟩
  · obtain ⟨t, hexec, rfl⟩ := completes_partCmd_runs (c := .restore h sc p i seen) (op := 7) (seen := seen) (P := fun t => t = restoreFrom u h p (scopeOf sc i)) (fun _ => rfl) (by decide) htakes hbusy hrun rfl
    exact hexec
  · rw [← hrun]
    exact ((restore_same ..).time rfl).trans ((taken_same ..).time rfl)

theorem completes_restoreChecks {s u : State} {h : HostId} {p : PartId} {i : BitVec 10} {sc : Bool} {seen : Seen} {j : Option Nat}
    (hs : Takes s h (Reg.PART_CMD.off h) ∧ s.flag (Reg.PART_CMD_STS.BUSY h) = false ∧ j = (if sc then some i.toNat else none))
    (hu : u = (if sc = false ∧ s.pstate p ≠ 2 then ((s.applyWrite (Reg.PART_CMD.off h) (partWord 7 sc p i)).see seen).notListed h p else (s.applyWrite (Reg.PART_CMD.off h) (partWord 7 sc p i)).see seen)) :
    Completes (.restore h sc p i seen) s fun t =>
      (u.owner p ≠ h ∨ u.pstate p = 0 → t = u.partCmdEnd h 3)
      ∧ (u.owner p = h → u.pstate p ≠ 0 → u.saveKey h p = none ∨ u.saveRoom? h = none → t = u.partCmdEnd h 2)
      ∧ t.time = s.time := by
  obtain ⟨hexec, htime⟩ := completes_restore hs hu
  exact ⟨_, hexec, restoreFrom_rights j, restoreFrom_badField j, htime⟩

/-- The image of another scope, by what its command names. -/
theorem misplaced_iff (v : State) (p : Nat) (i : BitVec 10) (sc : Bool) (b : List Byte) : Misplaced v p (scopeOf sc i) b ↔
    v.pstate p ≠ 2 ∨ leAt b 7 1 ≠ p ∨ v.get (Reg.PART_ALLOC.SAVE p) = 0 ∨ bitAt (leAt b 6 1) 0 ≠ sc ∨ (sc = true ∧ leAt b 8 2 ≠ i.toNat)
      ∨ (sc = false ∧ (v.instsOf p).isEmpty = false) := by
  cases sc <;> simp [scopeOf, Misplaced, State.flag]

/-- An image whose every mark agrees is of the scope. -/
theorem inPlace {v : State} {p : Nat} {i : BitVec 10} {sc : Bool} {b : List Byte} (hst : v.pstate p = 2) (hpart : leAt b 7 1 = p)
    (hsave : v.get (Reg.PART_ALLOC.SAVE p) = 1) (hsc : bitAt (leAt b 6 1) 0 = sc) (hinst : sc = false ∨ leAt b 8 2 = i.toNat)
    (hempty : sc = true ∨ (v.instsOf p).isEmpty = true) :
    ¬ (v.pstate p ≠ 2 ∨ leAt b 7 1 ≠ p ∨ v.get (Reg.PART_ALLOC.SAVE p) = 0 ∨ bitAt (leAt b 6 1) 0 ≠ sc ∨ (sc = true ∧ leAt b 8 2 ≠ i.toNat)
      ∨ (sc = false ∧ (v.instsOf p).isEmpty = false)) := by
  rintro (h | h | h | h | ⟨h, h'⟩ | ⟨h, h'⟩)
  · exact h hst
  · exact h hpart
  · omega
  · exact h hsc
  · exact hinst.elim (fun h0 => by simp [h0] at h) h'
  · exact hempty.elim (fun h0 => by simp [h0] at h) (fun h0 => by simp [h0] at h')

section
variable {s u v : State} {h : HostId} {p : PartId} {i : BitVec 10} {sc : Bool} {seen : Seen} {j : Option Nat} {key b : List Byte} {room len : Nat}
  (hs : Takes s h (Reg.PART_CMD.off h) ∧ s.flag (Reg.PART_CMD_STS.BUSY h) = false ∧ j = (if sc then some i.toNat else none))
  (hu : u = (if sc = false ∧ s.pstate p ≠ 2 then ((s.applyWrite (Reg.PART_CMD.off h) (partWord 7 sc p i)).see seen).notListed h p else (s.applyWrite (Reg.PART_CMD.off h) (partWord 7 sc p i)).see seen))
  (hmine : u.owner p = h ∧ u.pstate p ≠ 0 ∧ u.saveKey h p = some key ∧ u.saveRoom? h = some room)
  (hread : u.memReadC (1024 * p + 0x3FF) (u.get (Reg.PART_CMD_ADDR_HI.SPACE h)) (u.saveAddr h) room = (v, .ok b) ∧ len = leAt b 12 4)
include hs hu hmine hread

theorem completes_restoreOf : exec (.restore h sc p i seen) s = .next (restoreOf v h p j key room b) ∧ (restoreOf v h p j key room b).time = s.time := by
  obtain ⟨ho, hp, hkey, hroom⟩ := hmine
  rw [← restoreFrom_reads j ho hp hkey hroom hread.1]
  exact completes_restore hs hu

theorem completes_restoreTag :
    Completes (.restore h sc p i seen) s fun t =>
      (len < 144 ∨ room < len ∨ gcmTag key (slice b 24 12) (b.take 128) (slice b 128 (len - 144)) ≠ slice b (len - 16) 16 → t = v.partCmdEnd h 6)
      ∧ t.time = s.time := by
  obtain ⟨hexec, htime⟩ := completes_restoreOf hs hu hmine hread
  refine ⟨_, hexec, fun hf => restoreOf_forged h ?_, htime⟩
  rw [hread.2] at hf
  exact hf

theorem completes_restoreImage
    (htag : 144 ≤ len ∧ len ≤ room ∧ gcmTag key (slice b 24 12) (b.take 128) (slice b 128 (len - 144)) = slice b (len - 16) 16) :
    Completes (.restore h sc p i seen) s fun t =>
      (leAt b 0 4 ≠ 0x4E564B53 ∨ leAt b 4 2 ≠ 1 ∨ leAt b 16 8 ≠ v.get Reg.GLB_FW_VER_LO.FW + 2 ^ 32 * v.get Reg.GLB_FW_VER_HI.FW ∨ bitAt (leAt b 6 1) 1 ≠ v.flag Reg.GLB_CTL.EXACT → t = v.partCmdEnd h 7)
      ∧ (leAt b 0 4 = 0x4E564B53 → leAt b 4 2 = 1 → leAt b 16 8 = v.get Reg.GLB_FW_VER_LO.FW + 2 ^ 32 * v.get Reg.GLB_FW_VER_HI.FW → bitAt (leAt b 6 1) 1 = v.flag Reg.GLB_CTL.EXACT →
          (v.pstate p ≠ 2 ∨ leAt b 7 1 ≠ p ∨ v.get (Reg.PART_ALLOC.SAVE p) = 0 ∨ bitAt (leAt b 6 1) 0 ≠ sc ∨ (sc = true ∧ leAt b 8 2 ≠ i.toNat) ∨ (sc = false ∧ (v.instsOf p).isEmpty = false) → t = v.partCmdEnd h 1)
          ∧ (v.pstate p = 2 → leAt b 7 1 = p → v.get (Reg.PART_ALLOC.SAVE p) = 1 → bitAt (leAt b 6 1) 0 = sc → sc = false ∨ leAt b 8 2 = i.toNat → sc = true ∨ (v.instsOf p).isEmpty = true →
              ∀ x, saveImageOf (leAt b 10 2) (gcmText key (slice b 24 12) (slice b 128 (len - 144))) = some (x) →
                (v.restoreFits p j.isNone x = true → ∀ w, v.restoreRecords p j.isNone x = some (w) → t = w.partCmdEnd h 0 ∧ t.get (Reg.PART_CMD_STS.RESULT h) = 0 ∧ t.get (Reg.PART_CMD_STS.DONE h) = 1))) := by
  obtain ⟨hexec, -⟩ := completes_restoreOf hs hu hmine hread
  obtain ⟨-, -, hj⟩ := hs
  obtain ⟨-, hlen⟩ := hread
  obtain ⟨hmin, hroom, htag⟩ := htag
  rw [hlen] at hmin hroom htag
  have hf : ¬ Forged key room b := by
    rintro (h1 | h1 | h1)
    · exact absurd h1 (Nat.not_lt.mpr hmin)
    · exact absurd h1 (Nat.not_lt.mpr hroom)
    · exact h1 htag
  refine ⟨_, hexec, restoreOf_outdated h hf, fun h1 h2 h3 h4 => ?_⟩
  have ho : ¬ Outdated v b := by
    rintro (h5 | h5 | h5 | h5)
    · exact h5 h1
    · exact h5 h2
    · exact h5 h3
    · exact h5 h4
  refine ⟨fun hm => restoreOf_misplaced h hf ho (hj ▸ (misplaced_iff ..).mpr hm), fun hst hpart hsave hsc hinst hempty x hx hfits w hw => ?_⟩
  rw [hlen] at hx
  have hm : ¬ Misplaced v p j b := by
    rw [hj]
    exact (misplaced_iff ..).not.mpr (inPlace hst hpart hsave hsc hinst hempty)
  rw [restoreOf_fits h hf ho hm hx hfits hw]
  exact ⟨rfl, get_partCmdEnd_result _ _ (by decide), get_partCmdEnd_done ..⟩

end

/-- Settles O40, a command at a time: while BUSY, and else. -/
theorem freezeThawSaveRestore : Obligations.FreezeThawSaveRestore := by
  unfold Obligations.FreezeThawSaveRestore
  exact ⟨fun s h p i sc => completes_partCmd_busy (seen := []) (fun _ => rfl) (by decide), fun s u h p i sc j => completes_freeze,
    completes_freezeComplete, fun s h p i sc seen => completes_partCmd_busy (fun _ => rfl) (by decide), fun s u h p i sc seen j => completes_thaw,
    fun s h p i sc => completes_partCmd_busy (seen := []) (fun _ => rfl) (by decide), fun s u h p i sc j => completes_save,
    fun s h p i sc seen => completes_partCmd_busy (fun _ => rfl) (by decide), fun s u h p i sc seen j => completes_restoreChecks,
    fun s u v h p i sc seen j key b room len => completes_restoreTag, fun s u v h p i sc seen j key b room len => completes_restoreImage⟩

end Sys2Proof.Machine.Proofs
end
